-- ==== Sys2Proof/Word.lean ====
section
/-! DEFINITION. The word types of the CK9620 model (R7, R9): registers and table words are 32 bits wide,
memory and frames are bytes. -/

namespace Sys2Proof

/-- A register or table word (R9). -/
abbrev Word := BitVec 32

/-- A byte of a frame, of flash, of HBM or of host memory. -/
abbrev Byte := BitVec 8

/-- A string of bytes, in transmission or address order. -/
abbrev Bytes := List Byte

/-- A 48-bit tick number, as a number (R6). -/
abbrev Tick := Nat

end Sys2Proof
end

