-- ==== Sys2Proof/Syntax.lean ====
section
/-! DEFINITION. The commands of the CK9620 (spec/opcode_table.json) and the types of their operands. -/

namespace Sys2Proof

/-- A requester of register accesses (R13): each has pair-holding registers of its own. -/
inductive Requester where
  /-- physical function PF0, the manager -/
  | pf0
  /-- supervisor firmware -/
  | sup
  /-- virtual function `v`, a tenant -/
  | vf (v : Fin 4096)
  /-- the register frames of the management port, one set for all of them -/
  | frame
deriving DecidableEq, Repr

/-- The address spaces of R8. -/
inductive Space where
  | bar0 | bar2
  | vf (v : Fin 4096)
  /-- the configuration space of a function (R331, R334) -/
  | config (f : Fin 4096)
deriving DecidableEq, Repr

/-- A byte address of a register or window word. -/
structure Addr where
  space : Space
  off : Nat
deriving DecidableEq, Repr

/-- The kinds of PTP message TE takes or sends (R65). -/
inductive PtpKind where
  | sync | followUp | delayReq | delayResp | pdelayReq | pdelayResp | pdelayRespFollowUp | announce
  | management | signaling
deriving DecidableEq, Repr

/-- What carries a PTP message (R64). -/
inductive PtpTransport where
  | ethernet | udp4 | udp6
deriving DecidableEq, Repr

/-- A PTP message as TE judges it (R65, R66, R67). `offsetNs` and `ppb` are the offset, before the port's asymmetry, and the
frequency estimate that the servo measures with it; they are 0 for a kind that carries no measurement. -/
structure PtpMsg where
  kind : PtpKind
  transport : PtpTransport
  /-- a Sync whose origin time comes in its Follow_Up (R65) -/
  twoStep : Bool
  domain : Fin 256
  /-- the logarithmic interval the message advertises -/
  logInterval : Int
  /-- unicast negotiation, a management message or a signalling TLV gPTP does not require -/
  unsupported : Bool
  /-- clockIdentity of the grandmaster: grandmasterIdentity of an Announce, the source's grandmaster otherwise -/
  gmId : BitVec 64
  /-- the data set an Announce carries, in the order the best master clock algorithm compares it -/
  dataset : List Nat
  offsetNs : Int
  ppb : Int
deriving DecidableEq, Repr

/-- What a port finds of a frame (R277, R290): whether its FCS is right, and what PCS and FEC have counted since the last one:
codewords corrected, codewords not correctable, block errors. -/
structure LineReport where
  fcsOk : Bool
  corrected : Nat
  uncorrected : Nat
  pcs : Nat
deriving DecidableEq, Repr

/-- What faults have left of a record of FTU, as FTU reads it (R155, R156): the words of pipelines' copies, and the words and the
CRC-32C of its shadow record. -/
structure RecordFault where
  copies : List (Fin 4 × List Nat)
  shadow : Option (List Nat × Nat)
deriving DecidableEq, Repr

/-- The uncorrectable error that a lookup reads (R136, R156, R431): in a record of table 0 to 4, or of table 5, the learned slots of
the head's pipeline, with index bucket × 8 + way, or in its pipeline's copy of classifier entry `index`, as table 6. -/
structure LookupFault where
  table : Fin 7
  index : Nat
  found : RecordFault
  /-- HBM reads the shadow record as poisoned data -/
  poisoned : Bool
deriving DecidableEq, Repr

/-- A command as the active carries it to the standby (R318), with what it needs to be applied there. -/
inductive CarriedOp where
  /-- words written: flow-table entries, staged tables, points, terms, gate lists, programs -/
  | words (l : List (Nat × Word))
  | admission (isPoint : Bool) (id : Nat)
  | remove (isPoint : Bool) (id : Nat)
  /-- a commit of the versioned set -/
  | tblCommit
  | lpm (ins : Bool) (fam vrf len addr nh : Nat)
  | macStatic (ins : Bool) (vlan mac kind target : Nat)
  | gain (term : Nat) (value : Word)
  | rearm (flow : Nat) (mask : Nat)
  | limit (key : Nat) (value : Word)
  | sideband (value : Word)
  | gateCommit
  /-- a key load (rewrite false) or rewrite, with its blob -/
  | key (rewrite : Bool) (slot arg : Nat) (blob : Bytes)
  | keyErase (slot : Nat)
  | vlan (key : Nat) (value : Word)
deriving DecidableEq, Repr

/-- What a carried command other than a write of words changes: the item whose CMD_SEQ a bulk transfer carries (R325). -/
inductive CarriedItem where
  /-- the admission of a flow or point -/
  | object (isPoint : Bool) (id : Nat)
  /-- CUR and the banks of the versioned set -/
  | versioned
  | pfx (fam vrf len addr : Nat)
  | mac (vlan mac : Nat)
  | gain (term : Nat)
  | guard (flow : Nat)
  | limit (key : Nat)
  | sideband
  | gates
  | slot (slot : Nat)
  | vlan (key : Nat)
  /-- one word of a register or window -/
  | word (key : Nat)
deriving DecidableEq, Repr

/-- One prefix slot, with its validity and next hop in the staging and the committed bank (R137, R141). -/
structure LpmSlot where
  bucket : Nat
  way : Nat
  fam : Nat
  vrf : Nat
  len : Nat
  addr : Nat
  stagedValid : Bool
  stagedNh : Nat
  validNow : Bool
  nhNow : Nat
deriving DecidableEq, Repr

/-- One static MAC slot, the same in all four pipelines (R145). -/
structure MacStatic where
  bucket : Nat
  way : Nat
  vlan : Nat
  mac : Nat
  stagedValid : Bool
  stagedKind : Nat
  stagedTarget : Nat
  validNow : Bool
  kindNow : Nat
  targetNow : Nat
deriving DecidableEq, Repr

/-- What a unit's part of the image gives it (R50): register and table words in the key space of the model, since the spec gives
the sections no binary form; the static prefixes and MAC entries (R40); the initial flows and points to place (R82); the home
pipelines that LANE_MAP declares, by ring number, 131072 standing for the hedge link (R17); the HBM region that FLOWS names as the
FTU shadow (R154) and those of HGC's and SIE's data (R48); SHOW_HASH, and for a witness the identity of each party of each pair, as
(PAIR_ID, party, identity) (R297); for PXC, every MAC port that the image names (R271); and whether a read of its sections fails in
the declared mode (R36). -/
structure ImagePart where
  words : List (Nat × Word)
  lpm : List LpmSlot
  macStatic : List MacStatic
  flows : List (Fin 65536)
  points : List (Fin 8192)
  homes : List (Nat × Fin 4)
  shadow : Option (Fin 64)
  regions : List (Fin 64)
  showHash : BitVec 384
  members : List (Nat × Nat × BitVec 48)
  ports : List (Fin 32)
  readFail : Bool
deriving DecidableEq, Repr

/-- What the ROM finds as it loads the firmware: whether a read fails in the declared mode (R36), whether the safety self-test
passes (R50), and whether the HEDGE section declares role PAIR (R52). -/
structure FirmwareFound where
  readFail : Bool
  selftestOk : Bool
  pair : Bool
deriving DecidableEq, Repr

/-- How the host link goes down (R343, R434): surprise removal, failure or Link Disable; a Hot Reset; or an uncorrectable internal
error of the PCIe core. -/
inductive LinkLoss where
  | down | hotReset | fatal
deriving DecidableEq, Repr

/-- What the host advertises as the link comes up: the flow-control credits of posted, non-posted and completion headers and data
(R339). -/
structure FcCredits where
  posted : Nat × Nat
  nonPosted : Nat × Nat
  completion : Nat × Nat
deriving DecidableEq, Repr

/-- A write of HIU_ADOPT: its SESSION, and the cause of a trigger of R343 that meets it in one cycle (R348). -/
structure Adoption where
  session : BitVec 16
  meets : Option (Fin 8)
deriving DecidableEq, Repr

/-- ICResp as SIE reads it (R403): whether it fits the profile, CPDA, and the digests it turns on. -/
structure IcResp where
  good : Bool
  cpda : Fin 32
  hdgst : Bool
  ddgst : Bool
deriving DecidableEq, Repr

/-- What SIE finds for a Ready-to-Transfer PDU: whether its header digest is right, and the bytes of the buffer, none where their
read fails (R403, R405). -/
structure R2tFound where
  hdrOk : Bool
  data : Option Bytes
deriving DecidableEq, Repr

/-- How a witness message arrives (R302, R303): in a slot of the bus, with the CRC-32C that follows it there, or in a frame, at its
port. -/
inductive WitVia where
  | pins (slot : Fin 4) (crc : Word)
  | frame (port : Fin 32)
deriving DecidableEq, Repr

/-- What a HELLO carries beside its version range and SHOW_HASH (R327). -/
structure HelloMsg where
  pairId : Nat
  selfId : Nat
  party : Nat
  state : Nat
  epoch : Nat
deriving DecidableEq, Repr

/-- A digest record (R320). -/
structure DigestRec where
  flow : Nat
  heldIn : Bool
  edge : Bool
  notSent : Bool
  crc : Nat
deriving DecidableEq, Repr

/-- A heartbeat (R321, R323): the sender's state, its digest records of tick `tick`, and its health report record. -/
structure HeartbeatMsg where
  state : Nat
  epoch : Nat
  /-- the last tick fully begun by the sender -/
  lastTx : Nat
  cmdSeq : Nat
  tick : Nat
  digests : List DigestRec
  record : List Word
deriving DecidableEq, Repr

/-- What the bulk phase of layering brings (R324, R325): words and other items with the CMD_SEQ of the last command that changed
each; the admitted and pending flows and points, each with its effective tick and, where one is pending, its change; pending gains
and lowered limits with their ticks; the FTU slots; key blobs, and the key commands that were pending as they were read, with their
ticks (R253); guard channels as (state, position, cause); the epoch. -/
structure BulkMsg where
  seq : Nat
  words : List (Nat × Word × Nat)
  seqs : List (CarriedItem × Nat)
  admitted : List (Bool × Nat × Nat)
  changes : List (Bool × Nat × Bool × Nat)
  gains : List (Nat × Nat)
  limits : List (Nat × Nat × Nat)
  lpm : List LpmSlot
  macStatic : List MacStatic
  keys : List (Nat × Bytes)
  keyCommands : List (Nat × CarriedOp)
  guards : List (Nat × List (Nat × Nat × Nat))
  sideband : Nat
  epoch : Nat
deriving DecidableEq, Repr

/-- What the settle phase begins with (R324): the tick boundary the active names, and the hold states and last samples of
the tick before it, by flow and by term. -/
structure SettleMsg where
  tick : Nat
  flows : List (Nat × Bool × List Nat)
  terms : List (Nat × Bool × Nat)
deriving DecidableEq, Repr

/-- The table entries that one translation walk reads, from level 3 down; none where a table read fails (R352, R353). -/
abbrev Walk8 := List (Option (BitVec 64))

/-- How a function takes interrupts (R340): MSI-X, INTx, or none. -/
inductive IntMech where
  | msix
  | intx
  | none
deriving DecidableEq, Repr

/-- A TCP segment as SIE reads it (R404): `ts` is its timestamp, none where it carries none; `mss` and `scale` are the options
of a SYN. -/
structure TcpSegment where
  seq : Nat
  ack : Nat
  window : Nat
  syn : Bool
  fin : Bool
  ts : Option Nat
  mss : Nat
  scale : Nat
  payload : Bytes
deriving DecidableEq, Repr

/-- An active namespace of the record-slot drive, as Identify shows it (R414): its LBA size as a power of two. -/
structure DriveNs where
  nsid : Nat
  shift : Nat
  metadata : Bool
  nsze : Nat
deriving DecidableEq, Repr

/-- A word in which a scrubber meets an uncorrectable error, by its owner (R431). -/
inductive ScrubPlace where
  /-- a frame in the packet buffer, by its handle -/
  | frame (handle : Nat)
  /-- a pipeline's copy of a classifier entry -/
  | classifier (pipe : Fin 4) (entry : Fin 8192)
  /-- a pipeline's copy of a shadowed FTU record, or a learned MAC slot -/
  | ftuRecord (table : Fin 5) (index : Nat) (pipe : Fin 4)
  | learned (pipe bucket way : Nat)
  /-- a term record, the entry or a last sample of a pleach point -/
  | pleach (point : Fin 8192)
  /-- a calculator's store of a channel of a guarded flow -/
  | guardStore (flow : Fin 65536) (channel : Fin 64)
  | keySlot (slot : Fin 65536)
  | sa (index : Fin 16384)
  /-- a cached translation: its function, and the first input address it maps -/
  | tlb (func base : Nat)
  | ring (r : Fin 131072)
  | safetyCode
  | serviceCode
  /-- any other state of a unit -/
  | unitState (u : Fin 14)
  /-- HBM: a packet of the backlog, or a staged chunk of a recording -/
  | backlog (tick flow index : Nat)
  | chunk (rec_ : Fin 64)
deriving DecidableEq, Repr

/-- What a scrubber's visit finds (R432). -/
inductive ScrubFind where
  | clean
  | corrected
  | bad (place : ScrubPlace)
deriving DecidableEq, Repr


/-- What the audits and engines meet in a tick boundary beside the machine's own state: faults, and what the outside shows. -/
structure TickInput where
  /-- channels, as flow and number, in which the calculators of the level guard differ through a fault (R189) -/
  guards : List (Nat × Nat)
  /-- points whose sum meets an uncorrectable error (R181) -/
  unformed : List Nat
  /-- free cells and frame handles that a fault has taken, and fabric credits that one has changed, as pipeline × 64 +
  destination with the credits left (R172) -/
  lostCells : List Nat
  lostHandles : Nat
  credits : List (Nat × Nat)
  /-- read tags and tracker entries that a fault has lost, and the credits that one has taken of a credit type of the host link, by
  type 0 to 5 (R339, R438) -/
  lostTags : Nat
  lostEntries : Nat
  pcieCredits : List (Nat × Nat)
  /-- the previous telemetry record has not finished, and the walks of this boundary's writes (R225, R415) -/
  telemBusy : Bool
  walks : List Walk8
deriving DecidableEq, Repr

/-- The commands of the CK9620: one constructor per row of spec/opcode_table.json, with the row's operands. What the
surroundings decide (a value measured, a fault met, data returned) is an operand. -/
inductive Instr where
  /-- REGISTER_WRITE (R9). A write to a register that has no row of its own takes effect under its access type, or is discarded. -/
  | registerWrite (r : Requester) (a : Addr) (size : Nat) (v : BitVec 64) (walks : List Walk8)
  /-- READ_CLEAR (R10). A read of an RC field returns its value and clears it, keeping an event counted in the same cycle. -/
  | readClear (r : Requester) (a : Addr) (size : Nat)
  /-- PAIR_LO_READ (R13). A read of NAME_LO captures NAME_HI (and, for TE_TICK_LO, TE_OFFSET) for the same requester. -/
  | pairLoRead (r : Requester) (a : Addr)
  /-- PAIR_LO_WRITE (R13). A write of NAME_LO is held for the same requester until NAME_HI is written. -/
  | pairLoWrite (r : Requester) (a : Addr) (v : Word)
  /-- PAIR_HI_WRITE (R13). A write of NAME_HI commits a held low half with it, or changes the high half alone. -/
  | pairHiWrite (r : Requester) (a : Addr) (v : Word)
  /-- MAILBOX_WRITE (R368). A write to a mailbox window half lands, or is discarded where the writer is not its sender or the half
  is pending. -/
  | mailboxWrite (r : Requester) (v : Fin 4096) (word : Fin 1024) (x : Word)
  /-- VAUX_APPLY (R450). The first application of VAUX resets domain AON and empties the health log. -/
  | vauxApply (otpOk : Bool)
  /-- VAUX_LOSS (R461). VAUX below 1.5 V voids the AON contents, and its recovery is a VAUX reset. -/
  | vauxLoss
  /-- POR_N_ASSERT (R454). POR_N is asserted, and a COLD reset follows from its release. -/
  | porNAssert
  /-- POR_N_RELEASE (R450). Release of POR_N starts a COLD reset: the memories are zeroed and the boot ROM starts. -/
  | porNRelease
  /-- RAIL_MONITOR_TRIP (R461). A main rail below 94 % of nominal for 1 µs acts as an assertion of POR_N. -/
  | railMonitorTrip
  /-- SRAM_INIT_DONE (R46). Every on-die SRAM holds zero with valid ECC, and units other than SUP may leave OFF. -/
  | sramInitDone
  /-- SELECT_SLOT (R44). The boot ROM checks the slots in order, records each refusal code and accepts one slot or none. -/
  | selectSlot (readFailA readFailB : Bool)
  /-- FIRMWARE_LOAD (R50). The ROM loads and checks both firmware sections, starts the safety cores and hands over to the
  supervisor firmware. -/
  | firmwareLoad (found : FirmwareFound)
  /-- UNIT_LOAD (R50). SUP loads a unit: it runs BIST, loads and checks the unit's sections, writes its registers, seals it and
  sets RUN or FAILED. -/
  | unitLoad (u : Fin 14) (used bistOk loadOk : Bool) (part : ImagePart)
  /-- HBM_FILL_START (R47). Once the HBM PHY is trained, the fill engine begins zeroing the regions in order. -/
  | hbmFillStart (overflow : List (Fin 64))
  /-- HBM_REGION_FILLED (R47). One 512 MiB region is filled, and its bit in SUP_HBM_FILL is set. -/
  | hbmRegionFilled
  /-- FUSE_KEY_HASH_A (R62). SUP_OTP_CMD fuses the owner-key hash from slot A, only in recovery with the key unfused. -/
  | fuseKeyHashA
  /-- FUSE_KEY_HASH_B (R62). SUP_OTP_CMD fuses the owner-key hash from slot B, only in recovery with the key unfused. -/
  | fuseKeyHashB
  /-- READ_256 (R63). A flash operation reads 256 bytes at SUP_FLASH_ADDR into SUP_FLASH_BUF. -/
  | read256
  /-- PROGRAM_256 (R63). A flash operation programs 256 bytes, and is refused within the booted slot. -/
  | program256
  /-- ERASE_64K (R63). A flash operation erases 64 KiB, and is refused within the booted slot. -/
  | erase64k
  /-- FLASH_DONE (R63). A flash operation completes: BUSY clears, ERR is set and FLASH_DONE is raised. -/
  | flashDone (deviceOk : Bool)
  /-- PTP_MESSAGE_RECEIVED (R65). TE takes a PTP message on a PTP port, discarding it or running the servo and best master clock
  algorithm. -/
  | ptpMessageReceived (port : Fin 32) (m : PtpMsg)
  /-- PTP_MESSAGE_SEND (R65). TE transmits a PTP message at its interval, two-step, and takes its egress timestamp. -/
  | ptpMessageSend (port : Fin 32) (kind : PtpKind)
  /-- SYNC_TIMEOUT (R67). No usable Sync for 3 Sync intervals moves a locked TE to HOLDOVER. -/
  | syncTimeout
  /-- ANNOUNCE_TIMEOUT (R67). No listed grandmaster's Announce arrives within the announce receipt timeout, and TE enters HOLDOVER. -/
  | announceTimeout (gm : Fin 4)
  /-- HOLDOVER_EXPIRY (R67). HOLDOVER lasting HOLDOVER_S seconds moves TE to FREE_RUN. -/
  | holdoverExpiry
  /-- DELAY_MECHANISM_CLEAR (R66). With no message of the other delay mechanism for an announce timeout, a FAULTY PTP port returns
  to its initial state. -/
  | delayMechanismClear (port : Fin 32)
  /-- REF10_LOSS (R66). The declared 10 MHz input is absent or out of range, so REF10_OK falls and REF_LOSS is raised. -/
  | ref10Loss
  /-- PPS_EDGE (R66). A 1PPS edge is checked against the PTP second, and a miss clears PPS_OK. -/
  | ppsEdge (errorNs : Int)
  /-- TICK_BOUNDARY (R70). A new tick begins, and the per-tick work of every unit starts. -/
  | tickBoundary (x : TickInput)
  /-- MEDIA_START (R68). At the first tick boundary after LOCKED, TE sets MEDIA_RUN and media starts. -/
  | mediaStart
  /-- RESTEP (R69). A write of TE_CTL.RESTEP requests a restep, accepted only in TIME_FAULT without the lease. -/
  | restep (r : Requester)
  /-- RESTEP_STEP (R69). At the next tick boundary media stops, MEDIA_RUN clears, and TE steps time and enters ACQUIRING. -/
  | restepStep (newTick : Fin 281474976710656) (newOffset : Nat)
  /-- ADD_FLOW (R78). TE checks a flow entry against its constraints, the units, the pools and the ledger, and schedules its
  admission. -/
  | addFlow (r : Requester) (id : Fin 65536)
  /-- REMOVE_FLOW (R80). TE schedules the removal of an admitted flow at an effective tick. -/
  | removeFlow (r : Requester) (id : Fin 65536)
  /-- ADD_POINT (R176). TE checks and schedules the admission of a pleach point together with its output flow. -/
  | addPoint (r : Requester) (id : Fin 8192)
  /-- REMOVE_POINT (R80). TE schedules the removal of a pleach point and its output flow. -/
  | removePoint (r : Requester) (id : Fin 8192)
  /-- CHECK (R78). TE runs the ADD_FLOW checks without admitting anything. -/
  | checkFlow (r : Requester) (id : Fin 65536)
  /-- ADMISSION_EFFECTIVE (R79). At the effective tick, ADMITTED becomes 1 and the flow's packets are judged against its window. -/
  | admissionEffective (isPoint : Bool) (id : Fin 65536)
  /-- REMOVAL_RELEASE (R80). At tick t + 2 the removed bookings return to the ledger. -/
  | removalRelease (isPoint : Bool) (id : Fin 65536)
  /-- WINDOW_CLOSE (R84). At a flow's CLOSE offset, TE marks a tick that lacks packets as held. -/
  | windowClose (flow : Fin 65536)
  /-- MEDIA_OVERRUN (R85). A media packet not begun by the end of its outbound tick is discarded, and MEDIA_OVERRUN is raised. -/
  | mediaOverrun
  /-- LEDGER_AUDIT (R437). Once per second TE checks that ledger USED equals the sum of bookings. -/
  | ledgerAudit (found : List (Fin 40 × Word))
  /-- FRAME_ARRIVAL (R277). PXC receives a frame on a MAC port at step 1 and passes its head to the distributor. -/
  | frameArrival (port : Fin 32) (offset : Nat) (frame : Bytes) (line : LineReport)
  /-- PIPELINE_HEAD_ACCEPT (R19). A pipeline takes a head in a cycle, media first, and runs steps 2 to 6. -/
  | pipelineHeadAccept (pipe : Fin 4) (offset : Nat) (tableBad : Option LookupFault)
  /-- REORDER_RELEASE (R130). The reorder stage releases a best-effort head once every earlier head of its source has gone. -/
  | reorderRelease (src : Fin 35)
  /-- FABRIC_TRANSFER (R161). The scheduler moves a descriptor from a pipeline to its destination queue or tick hold. -/
  | fabricTransfer (offset : Nat)
  /-- MEDIA_EGRESS (R208). At its booked offset, EGU releases a media packet through steps 8 to 11. -/
  | mediaEgress (toRing : Bool) (target : Fin 131072) (offset : Nat) (edge : Option (Bool × Nat)) (outputBad stageBad : Bool)
  /-- BE_FRAME_START (R209). The port scheduler picks a best-effort frame that fits before the next media offset, and it passes
  steps 8 to 11. -/
  | beFrameStart (port : Fin 32) (offset : Nat)
  /-- CUT_THROUGH_START (R280). A cut-through frame begins once its CT_STEP threshold is in the buffer or it has ended. -/
  | cutThroughStart (port : Fin 32) (offset : Nat)
  /-- TX_COMPLETE (R166). A copy is transmitted or released, the copy count falls, and cells are freed at zero. -/
  | txComplete (port : Fin 32) (offset : Nat)
  /-- TX_UNDERRUN (R279). A missing word ends the frame with a bad FCS, and CT_STEP rises. -/
  | txUnderrun (port : Fin 32) (offset : Nat)
  /-- CT_STEP_DECAY (R280). After 65,536 cut-through frames without underrun, CT_STEP falls by one. -/
  | ctStepDecay (port : Fin 32)
  /-- HEAD_OF_QUEUE_TIMEOUT (R210). A frame at the head of its class queue for T is discarded and counted in EGU_GATE_DROP. -/
  | headOfQueueTimeout (port : Fin 32) (cls : Fin 8) (offset : Nat)
  /-- STAGED_WRITE (R123). A write to a PCU write window lands in the staging bank of all four pipelines. -/
  | stagedWrite (r : Requester) (off : Nat) (v : Word)
  /-- COMMIT (R124). Setting COMMIT checks the staged set and schedules the version change. -/
  | tblCommit (r : Requester)
  /-- COMMIT_EFFECTIVE (R124). At the effective cycle, CUR increments in all four pipelines. -/
  | tblCommitEffective
  /-- COMMIT_SYNC (R125). Once no old-version head remains, PCU and FTU copy the staged entries into the old bank. -/
  | tblCommitSync
  /-- REPLICA_COMPARE (R132). Every 50 ms PCU compares the four classifier copies and repairs or invalidates them. -/
  | replicaCompare (entry : Fin 8192) (found : List (Fin 4 × Fin 32 × Word))
  /-- FLOW_ENTRY_WRITE (R91). A write to a flow-table entry lands only while unadmitted, and a counter write clears it. -/
  | flowEntryWrite (r : Requester) (flow : Fin 65536) (word : Fin 32) (v : Word)
  /-- FTU_WINDOW_WRITE (R138). A write to the next-hop or flood window stages it and records it in the change list. -/
  | ftuWindowWrite (r : Requester) (off : Nat) (v : Word)
  /-- LPM_INSERT (R141). A prefix is inserted into the staging bank, or its next hop is replaced. -/
  | lpmInsert (r : Requester)
  /-- LPM_DELETE (R158). A prefix is deleted from the staging bank. -/
  | lpmDelete (r : Requester)
  /-- LPM_READ (R158). A prefix's staged next hop and validity are returned. -/
  | lpmRead (r : Requester)
  /-- INSERT_STATIC (R148). A static MAC entry is staged in all four pipelines, displacing learned slots. -/
  | insertStatic (r : Requester)
  /-- DELETE_STATIC (R148). A static MAC entry is deleted from the staging bank. -/
  | deleteStatic (r : Requester)
  /-- MAC_READ (R158). A MAC slot of one pipeline is read back. -/
  | macRead (r : Requester) (pipe : Fin 4)
  /-- FLUSH (R150). A manager flush of learned slots starts. -/
  | macFlush (r : Requester) (byVlan byPort : Bool) (port : Fin 32)
  /-- MAC_FLUSH_DONE (R150). A manager flush completes. -/
  | macFlushDone
  /-- AUTO_FLUSH_START (R150). A queued flush by port starts between manager operations. -/
  | autoFlushStart
  /-- PORT_FLUSH (R150). An automatic flush completes, and PORT_FLUSH is raised. -/
  | portFlush
  /-- AGE_CLOCK_STEP (R152). FTU_AGE_NOW advances by one every AGE_UNIT_MS. -/
  | ageClockStep
  /-- SHADOW_COMPARE (R155). FTU compares each pipeline copy with the shadow and repairs or escalates. -/
  | shadowCompare (table : Fin 5) (index : Nat) (poisoned : Bool) (found : RecordFault)
  /-- POINT_WRITE (R174). A point entry write lands only while the point is unadmitted, and a counter write clears it. -/
  | pointWrite (r : Requester) (point : Fin 8192) (word : Fin 8) (v : Word)
  /-- TERM_WRITE (R175). A term record's word 0 is written under the point's write rule. -/
  | termWrite (r : Requester) (term : Fin 131072) (v : Word)
  /-- GAIN_REQUEST (R182). PF0 writes GAIN, setting it at once or requesting a change at tick + 2. -/
  | gainRequest (r : Requester) (term : Fin 131072) (v : Word)
  /-- VF_GAIN_REQUEST (R182). A tenant's FPU_VF_GAIN write requests a change, or is refused and counted. -/
  | vfGainRequest (v : Fin 4096) (term : Fin 131072) (gain : Word)
  /-- LIST_WRITE (R165). A staged replication-list write lands, or is discarded while MEDIA_REFS is non-zero. -/
  | listWrite (r : Requester) (off : Nat) (v : Word)
  /-- LEAK_FIX (R173). A leak sweep completes, and LEAK_FIX is raised with the cells freed. -/
  | leakFix
  /-- CREDIT_RESET (R173). A twice-failed credit pair is reset to 16 once its input stage is empty. -/
  | creditReset (pipe : Fin 4) (dest : Fin 37)
  /-- AUTO_REARM (R194). After REARM_M clean ticks, a muted channel ramps up from sample 0. -/
  | autoRearm (flow : Fin 65536)
  /-- REARM (R194). A manual re-arm of the masked channels is checked and scheduled at tick + 2. -/
  | rearm (r : Requester) (flow : Fin 65536)
  /-- REARM_EFFECTIVE (R194). At its effective tick, an accepted manual re-arm starts RAMP_UP. -/
  | rearmEffective (flow : Fin 65536)
  /-- QUERY (R206). A guard query reports the channels not ARMED and those with cause DISAGREE. -/
  | guardQuery (r : Requester) (flow : Fin 65536)
  /-- LIMIT_WRITE (R196). A write to a lowerable guard limit is accepted only when it does not raise the limit. -/
  | limitWrite (r : Requester) (profile : Fin 64) (which : Fin 3) (v : Word)
  /-- LIMIT_LOWERED (R196). A lowered limit takes effect at its tick. -/
  | limitLowered (profile : Fin 64) (which : Fin 3)
  /-- OVERRIDE_PIN_FALL (R198). An override pin goes low and activates the local override. -/
  | overridePinFall (pinB : Bool) (offset : Nat)
  /-- OVERRIDE_PIN_RISE (R201). An override pin goes high and starts the release time. -/
  | overridePinRise (pinB : Bool) (offset : Nat)
  /-- OVERRIDE_RELEASE (R201). Both pins have been high for RELEASE_MS, the local override ends and OVR_OFF is raised. -/
  | overrideRelease (offset : Nat)
  /-- REMOTE_OVERRIDE_END (R200). The remote override's span of ticks ends. -/
  | remoteOverrideEnd
  /-- FORCE_WRITE (R203). A write of EGU_OVR_CTL.FORCE requests the override on or off from the next tick. -/
  | forceWrite (r : Requester) (force : Bool)
  /-- FORCE_EFFECTIVE (R203). At the first tick after the write, FORCE's override begins or ends. -/
  | forceEffective
  /-- OVR_PIN_DISAGREE (R203). A differing pin state held for 100 ms raises OVR_PIN_DISAGREE. -/
  | ovrPinDisagree
  /-- SIDEBAND_WRITE (R204). A write of EGU_SIDEBAND is scheduled for tick + 2 and carried to the standby. -/
  | sidebandWrite (r : Requester) (v : Word)
  /-- SIDEBAND_EFFECTIVE (R204). The sideband outputs take the written values at the effective tick. -/
  | sidebandEffective
  /-- SIDEBAND_MISMATCH (R430). The two sideband registers differ, the last agreed value is held and fault SIDEBAND is set. -/
  | sidebandMismatch (inB : Bool) (v : BitVec 17)
  /-- GATE_LIST_WRITE (R214). A write to the gate staging window lands, or is discarded during a commit. -/
  | gateListWrite (r : Requester) (word : Fin 2048) (v : Word)
  /-- GATE_COMMIT (R213). Setting COMMIT checks the staged gate lists and schedules the switch. -/
  | gateCommit (r : Requester)
  /-- GATE_COMMIT_DONE (R213). At tick t the banks switch, and the staging bank is refreshed. -/
  | gateCommitDone
  /-- CBS_SLOPE_WRITE (R216). A write of IDLE_SLOPE sets the credit to 0, or is discarded if it overbooks the port. -/
  | cbsSlopeWrite (r : Requester) (queue : Fin 256) (v : Word)
  /-- CBS_LIMIT_WRITE (R216). A write of the credit limits sets the credit to 0. -/
  | cbsLimitWrite (r : Requester) (queue : Fin 256) (v : Word)
  /-- SHAPER_INSTANCE_WRITE (R221). A write to an instance fills its buckets, or is refused under R222. -/
  | shaperInstanceWrite (r : Requester) (inst : Fin 16384) (word : Fin 4) (v : Word)
  /-- FUNCTION_MAP_WRITE (R222). A write to the function map is checked against grants and the hierarchy. -/
  | functionMapWrite (r : Requester) (func : Fin 4096) (v : BitVec 64)
  /-- SHAPER_RELEASE (R219). Eligible leaf heads are released into their class queues, and their chains are debited. -/
  | shaperRelease (offset : Nat)
  /-- TELEM_ENABLE (R226). Setting EN from 0 to 1 zeroes PROD, CONS and SEQ. -/
  | telemEnable (r : Requester) (v : Word)
  /-- TELEM_CONS_WRITE (R225). The manager writes CONS, and the newer value stands against an advance by EGU. -/
  | telemConsWrite (r : Requester) (v : Word)
  /-- PROG_WRITE (R234). RTU replaces a rewrite program whole, or refuses the write. -/
  | progWrite (r : Requester) (index : Fin 32768)
  /-- PROG_READ (R234). RTU copies a program into RTU_PROG_BUF. -/
  | progRead (r : Requester) (index : Fin 32768)
  /-- KEY_LOAD (R250). CKU unwraps a blob into an empty slot, and the slot becomes LOADED. -/
  | keyLoad (r : Requester) (slot : Fin 65536)
  /-- KEY_REWRITE (R250). CKU unwraps a blob into the half not in force, and the slot becomes PENDING. -/
  | keyRewrite (r : Requester) (slot : Fin 65536)
  /-- KEY_ERASE (R252). CKU schedules the erasure of a slot at an effective tick. -/
  | keyErase (r : Requester) (slot : Fin 65536)
  /-- KEY_SWITCHED (R251). At the switch tick GEN increments, the new half is in force and the slot is LOADED. -/
  | keySwitched (slot : Fin 65536)
  /-- ERASE_START (R252). At the erase tick the slot becomes ERASING and stops capturing. -/
  | eraseStart (slot : Fin 65536)
  /-- KEY_ERASED (R252). Once no operation holds the slot, it is zeroed, released and KEY_ERASED is raised. -/
  | keyErased (slot : Fin 65536)
  /-- SA_WRITE (R259). A write to the SA table lands, or setting VALID is refused. -/
  | saWrite (r : Requester) (sa : Fin 16384) (word : Fin 8) (v : Word)
  /-- RX_SC_WRITE (R270). A write to an RX secure channel entry lands only while it is not VALID. -/
  | rxScWrite (r : Requester) (port : Fin 32) (entry : Fin 16) (word : Fin 8) (v : Word)
  /-- TX_SA_WRITE (R262). A write of TX_SA takes effect at the next frame start. -/
  | txSaWrite (r : Requester) (port : Fin 32) (v : Word)
  /-- LINK_LOCK (R274). A port locks in its declared mode and enters HOLD. -/
  | linkLock (port : Fin 32)
  /-- LINK_UP (R274). After UP_HOLD_MS clean in HOLD the port is UP, and LINK_UP is raised. -/
  | linkUp (port : Fin 32)
  /-- LOCK_ATTEMPT_FAIL (R275). A lock attempt fails after 500 ms, and the diagnostic receiver runs. -/
  | lockAttemptFail (port : Fin 32)
  /-- DIAGNOSTIC_DONE (R275). The diagnostic ends, REASON is set and the next attempt starts. -/
  | diagnosticDone (port : Fin 32) (reason : Fin 9) (obsPol : Fin 16)
  /-- LINK_DOWN (R276). An UP port loses lock or sees faults and goes DOWN. -/
  | linkDown (port : Fin 32) (reason : Fin 9) (offset : Nat)
  /-- PAUSE_FRAME (R284). PXC consumes a MAC control frame and pauses the port or a class under MODE. -/
  | pauseFrame (port : Fin 32) (offset : Nat) (op : BitVec 16) (enable : BitVec 16) (quanta : List (BitVec 16))
  /-- PAUSE_END (R284). A pause's quanta run out. -/
  | pauseEnd (port : Fin 32) (cls : Fin 9) (offset : Nat)
  /-- PAUSE_STORM (R285). A pause held for WD_US is ended, and later pauses are ignored for HOLDOFF_MS. -/
  | pauseStorm (port : Fin 32) (cls : Fin 9) (offset : Nat)
  /-- PAUSE_HOLDOFF_END (R285). HOLDOFF_MS ends, and pause frames take effect again. -/
  | pauseHoldoffEnd (port : Fin 32) (cls : Fin 9)
  /-- PAUSE_MODE_WRITE (R287). A write of the pause MODE takes effect at once and may end a pause. -/
  | pauseModeWrite (r : Requester) (port : Fin 32) (v : Word)
  /-- CT_BASE_WRITE (R280). A write of CT_BASE sets CT_STEP to CT_BASE. -/
  | ctBaseWrite (r : Requester) (port : Fin 32) (v : Word)
  /-- VLAN_CFG_WRITE (R282). A write to PXC_VLAN_CFG or PXC_PCP_MAP is scheduled for tick + 2 and carried to the standby. -/
  | vlanCfgWrite (r : Requester) (port : Fin 32) (pcp : Bool) (v : Word)
  /-- VLAN_CFG_EFFECTIVE (R282). The VLAN or PCP configuration takes effect at its tick. -/
  | vlanCfgEffective
  /-- SNAP (R291). Setting SNAP requests a statistics snapshot of the selected ports. -/
  | snap (r : Requester)
  /-- STATS_DONE (R291). The counters are copied to the shadow in one cycle, and STATS_DONE is raised. -/
  | statsDone
  /-- REG_FRAME_READ (R294). A register frame READ is served and answered. -/
  | regFrameRead (frame : Bytes)
  /-- REG_FRAME_WRITE (R294). A register frame WRITE is served and answered. -/
  | regFrameWrite (frame : Bytes) (walks : List Walk8)
  /-- MGMT_LINK_CHANGE (R292). The management link changes state, or an SGMII speed mismatch keeps it down. -/
  | mgmtLinkChange (up : Bool) (reason : Fin 11)
  /-- REQUEST_SEND (R305). A pair member sends its REQUEST at REQ_SLOT in every tick. -/
  | requestSend
  /-- REQUEST (R306). The witness takes a REQUEST and answers GRANT or DENY. -/
  | witRequest (via : WitVia) (offset : Nat) (source : BitVec 48) (msg : Bytes)
  /-- RELEASE (R312). The witness takes a RELEASE from the holder and sets W_END to now. -/
  | witRelease (via : WitVia) (offset : Nat) (source : BitVec 48) (msg : Bytes)
  /-- GRANT (R305). A member takes a GRANT and extends LEASE_END, or takes over. -/
  | witGrant (via : WitVia) (offset : Nat) (msg : Bytes)
  /-- DENY (R305). A DENY fences an ACTIVE member. -/
  | witDeny (via : WitVia) (offset : Nat) (msg : Bytes)
  /-- FENCE (R311). A FENCE message fences its target, or keeps it from bidding. -/
  | witFence (via : WitVia) (offset : Nat) (msg : Bytes)
  /-- LEASE_EXPIRY (R305). tick_now reaches LEASE_END, and the active fences with cause LEASE. -/
  | leaseExpiry
  /-- FENCE_IN_FALL (R311). FENCE_IN_N goes low, and the unit fences in hardware within 50 ns. -/
  | fenceInFall (offset : Nat)
  /-- FENCE_IN_RISE (R309). FENCE_IN_N goes high and the held PIN cause ends. -/
  | fenceInRise (offset : Nat)
  /-- HGC_FENCE_WRITE (R309). A write of HGC_CTL.FENCE fences or releases the unit with cause MANAGER. -/
  | hgcFenceWrite (r : Requester) (v : Bool)
  /-- HGC_RELEASE_WRITE (R312). A write of HGC_CTL.RELEASE requests a planned handover. -/
  | hgcReleaseWrite (r : Requester)
  /-- HANDOVER (R312). At the next tick boundary the active fences and sends RELEASE. -/
  | handover
  /-- HGC_LAYER_WRITE (R324). A write of HGC_CTL.LAYER forces layering of a standby. -/
  | hgcLayerWrite (r : Requester)
  /-- HGC_HOLD_WRITE (R322). A write of HGC_CTL.HOLD sets or clears NOT_FIT.HOLD. -/
  | hgcHoldWrite (r : Requester) (v : Bool)
  /-- RESTART_WINDOW_END (R307). L + G ticks after start, the witness leaves its restart window. -/
  | restartWindowEnd
  /-- WITNESS_LOST (R329). No reply to 3 consecutive requests raises WITNESS_LOST. -/
  | witnessLost
  /-- REPLAY_TICK (R315). A new active sends one missed backlog tick with REPLAY set. -/
  | replayTick
  /-- HELLO (R327). A member takes the partner's HELLO and agrees a version or refuses the pair. -/
  | hello (verMin verMax : Fin 256) (showHash : BitVec 384) (m : HelloMsg)
  /-- HEARTBEAT (R321). The standby takes the active's heartbeat and digests and runs the shadow compare. -/
  | heartbeat (offset : Nat) (m : HeartbeatMsg)
  /-- CARRIED_COMMAND (R318). The standby applies a carried command at its effective tick. -/
  | carriedCommand (seq : Word) (tick : Fin 281474976710656) (op : CarriedOp)
  /-- HOST_MIRROR (R319). The standby takes a mirrored host TX media packet and holds it until its window. -/
  | hostMirror (ring : Fin 131072) (seq : Nat) (pkt : Bytes)
  /-- LAYER_BULK (R324). A unit enters LAYERING and starts the bulk transfer of the active's state. -/
  | layerBulk
  /-- BULK_DONE (R324). The bulk phase ends and DELTA begins. -/
  | bulkDone (m : BulkMsg)
  /-- DELTA_DONE (R324). The standby holds the active's current CMD_SEQ, and SETTLE begins. -/
  | deltaDone (m : SettleMsg)
  /-- LAYER_DONE (R324). SETTLE ends, and the unit becomes STANDBY. -/
  | layerDone
  /-- PARTNER_LOST (R317). The hedge link fails and bring-up starts again. -/
  | partnerLost
  /-- HEALTH_REPORT (R323). HGC writes the health report record each second or on a change. -/
  | healthReport
  /-- LINK_TRAINED (R332). The host link reaches DL_Up at a speed and width. -/
  | linkTrained (speed : Fin 7) (width : Fin 17) (flit : Bool) (fc : FcCredits)
  /-- LINK_RETRAINED (R350). The link changes speed or width while ATTACHED. -/
  | linkRetrained (speed : Fin 7) (width : Fin 17) (flit : Bool) (fc : FcCredits)
  /-- DL_DOWN (R343). The host link goes down, and the device enters standalone mode. -/
  | dlDown (how : LinkLoss)
  /-- PERST_ASSERT (R343). PERST# is asserted, and the device enters standalone mode. -/
  | perstAssert
  /-- PERST_DEASSERT (R53). PERST# is released, and HIU trains the host link. -/
  | perstDeassert
  /-- PF0_FLR (R343). An FLR of PF0 resets its function state and enters standalone mode. -/
  | pf0Flr
  /-- PF0_D3 (R343). PF0 placed in D3hot enters standalone mode. -/
  | pf0D3
  /-- VF_FLR (R349). An FLR of a VF disables its queues, drops its translations and resets its FLR registers. -/
  | vfFlr (v : Fin 4096)
  /-- VF_D3 (R349). A VF enters D3hot and issues no requests. -/
  | vfD3 (v : Fin 4096)
  /-- VF_ENABLE_CLEAR (R334). VF Enable cleared performs an FLR of every VF that is not quiesced. -/
  | vfEnableClear (control : Word)
  /-- WATCHDOG_EXPIRY (R346). No kick for WDOG_MS puts the device into standalone mode. -/
  | watchdogExpiry (offset : Nat)
  /-- WDOG_KICK (R346). A write of HIU_WDOG_KICK restarts the watchdog. -/
  | wdogKick (r : Requester) (offset : Nat)
  /-- ADOPT (R347). A write of HIU_ADOPT with the current SESSION moves the device to ATTACHED. -/
  | adopt (r : Requester) (m : Adoption)
  /-- READ_COMPLETION (R338). A completion arrives for an outstanding read and returns its tag. -/
  | readCompletion (tag : Fin 4096) (status : Fin 4)
  /-- COMPLETION_TIMEOUT (R338). A read without completion in time fails and returns its tag. -/
  | completionTimeout (tag : Fin 4096)
  /-- MSIX_UNMASK (R341). On unmask, a vector whose PBA bit is set sends its message once. -/
  | msixUnmask (func : Fin 4096) (vector : Fin 2048) (whole : Bool)
  /-- CONTEXT_WRITE (R351). A write to a TTU context entry takes effect for later walks; clearing LOG_EN runs an implicit sync. -/
  | contextWrite (r : Requester) (func : Fin 4096) (word : Fin 8) (v : Word)
  /-- INV_ALL (R356). An invalidation removes every TLB and walk-cache entry. -/
  | invAll (r : Requester)
  /-- INV_FUNC (R356). An invalidation removes every entry of one function. -/
  | invFunc (r : Requester) (func : Fin 4096)
  /-- INV_RANGE (R356). An invalidation removes one function's entries within a range. -/
  | invRange (r : Requester) (func : Fin 4096) (log2 : Fin 32)
  /-- INV_DONE (R357). Once in-scope accesses are finished, the completion word is written and DONE is set. -/
  | invDone (walks : List Walk8)
  /-- LOG_SYNC (R362). LOG_PHASE toggles, and the old phase's cached words are written back. -/
  | logSync (r : Requester) (func : Fin 4096)
  /-- LOG_SYNC_DONE (R362). The write-backs are issued, DONE is set and OUT_RANGE is reported. -/
  | logSyncDone (walks : List Walk8)
  /-- SET_LIMIT (R366). A pool command sets a function's limit of one kind. -/
  | setLimit (r : Requester) (kind : Fin 16) (func : Fin 4096)
  /-- ASSIGN (R366). A pool command assigns a ring or shaper instance to a function. -/
  | poolAssign (r : Requester) (kind : Fin 16) (func : Fin 4096)
  /-- RECLAIM (R366). A pool command unassigns a quiesced ring or instance. -/
  | poolReclaim (r : Requester) (kind : Fin 16) (func : Fin 4096)
  /-- MBX_SEND_TO_PF (R369). A VF's SEND stamps its TO_PF half and raises MBX_MSG to PF0. -/
  | mbxSendToPf (v : Fin 4096)
  /-- MBX_SEND_TO_VF (R369). PF0's SEND stamps a VF's TO_VF half and raises MBX_MSG to the VF. -/
  | mbxSendToVf (r : Requester) (v : Fin 4096)
  /-- MBX_ACK_BY_PF (R369). PF0 acknowledges a VF's message, and MBX_ACKED is raised to the VF. -/
  | mbxAckByPf (r : Requester) (v : Fin 4096)
  /-- MBX_ACK_BY_VF (R369). A VF acknowledges PF0's message, and MBX_ACKED is raised to PF0. -/
  | mbxAckByVf (v : Fin 4096)
  /-- DOORBELL_FETCH (R382). A doorbell on a TX, RX or SUBMIT ring starts a fetch or sets REREAD. -/
  | doorbellFetch (r : Requester) (db : Fin 131072) (arm : Bool) (value : BitVec 24) (walks : List Walk8)
  /-- DOORBELL_CONSUME (R383). A doorbell on a COMPLETE or EVENT ring moves CONS, or is discarded. -/
  | doorbellConsume (r : Requester) (db : Fin 131072) (arm : Bool) (value : BitVec 24)
  /-- WRR_TURN (R386). The fetch arbiter grants a ring a turn of at most BURST entries. -/
  | wrrTurn (walks : List Walk8)
  /-- DESCRIPTOR_FETCH (R382). Entry data returns, owned entries are taken, and a re-read follows where REREAD is set. -/
  | descriptorFetch (ring : Fin 131072) (entries : List (Option Bytes × Nat)) (walks : List Walk8)
  /-- TX_FRAME_READ (R377). A TX frame is read into the buffer, or refused, and its entry is done. -/
  | txFrameRead (ring : Fin 131072) (data : Option Bytes) (walks : List Walk8)
  /-- HOST_RX_WRITE (R379). A frame to the host takes an RX buffer, is written and gets its COMPLETE record. -/
  | hostRxWrite (ring : Fin 131072) (walks : List Walk8)
  /-- HEAD_PUBLISH (R384). QE publishes HEAD for completed entries. -/
  | headPublish (ring : Fin 131072) (walks : List Walk8)
  /-- MEDIA_TX_DELIVER (R387). QE delivers a host media packet to step 2 within its window. -/
  | mediaTxDeliver (ring : Fin 131072) (offset : Nat)
  /-- SUBMIT_COMPLETE (R385). QE writes a storage command's result in place and returns the slot. -/
  | submitComplete (ring : Fin 131072) (walks : List Walk8)
  /-- RING_CONTEXT_WRITE (R388). A write to a ring context lands under its timing rules. -/
  | ringContextWrite (r : Requester) (ring : Fin 131072) (word : Fin 16) (v : Word)
  /-- RING_ENABLE (R389). A write of ENABLE 1 checks the context and starts the ring from sequence 0. -/
  | ringEnable (r : Requester) (ring : Fin 131072)
  /-- RING_DISABLE (R390). ENABLE falling to 0 stops new work and starts the drain. -/
  | ringDisable (r : Requester) (ring : Fin 131072)
  /-- RING_IDLE (R390). The drain ends, HEAD is published a last time and IDLE is set. -/
  | ringIdle (ring : Fin 131072) (walks : List Walk8)
  /-- EVENT_GRANT (R394). The arbiter grants one event, assigns ASEQ and writes its record or counts it lost. -/
  | eventGrant (walks : List Walk8)
  /-- OVERFLOW (R396). A ready queue with losses receives one OVERFLOW record. -/
  | eventOverflow (ring : Fin 131072) (walks : List Walk8)
  /-- EVENT_SIGNAL (R397). An armed EVENT ring signals its owner once MOD_US has passed. -/
  | eventSignal (ring : Fin 131072) (x : Unit) (offset : Nat)
  /-- NVME_FLUSH (R400). SIE checks and issues a FLUSH command. -/
  | nvmeFlush (ring : Fin 131072)
  /-- NVME_WRITE (R400). SIE checks and issues a WRITE command. -/
  | nvmeWrite (ring : Fin 131072) (data : Option Bytes) (walks : List Walk8)
  /-- NVME_READ (R400). SIE checks and issues a READ command. -/
  | nvmeRead (ring : Fin 131072)
  /-- STORAGE_COMPLETE (R402). A storage command completes with its STATUS. -/
  | storageComplete (cid : BitVec 16) (sct : Fin 8) (sc : BitVec 8) (dw0 : Word) (data : Bytes) (walks : List Walk8)
  /-- STORAGE_CMD_TIMEOUT (R407). A command without completion in CMD_TIMEOUT_MS completes TIMEOUT and aborts its connection. -/
  | storageCmdTimeout (ns : Bool) (handle : Fin 8192) (cid : BitVec 16)
  /-- OPEN (R407). SIE starts the TCP open, ICReq and Fabrics Connect of a connection. -/
  | openConn (r : Requester) (c : Fin 8192)
  /-- CLOSE (R407). SIE stops taking commands, waits for those in flight and sends FIN. -/
  | closeConn (r : Requester) (c : Fin 8192)
  /-- ABORT (R407). SIE sends RST at once. -/
  | abortConn (r : Requester) (c : Fin 8192)
  /-- CONN_UP (R407). The connection becomes UP, and CONN_UP is raised. -/
  | connUp (c : Fin 8192) (status : BitVec 16)
  /-- TCP_SEGMENT (R404). SIE takes an in-order TCP segment, or discards it and sends a duplicate ACK. -/
  | tcpSegment (c : Fin 8192) (m : TcpSegment)
  /-- TCP_RETRANSMIT_TIMEOUT (R404). The RTO expires, and the connection fails after 12 timeouts. -/
  | tcpRetransmitTimeout (c : Fin 8192)
  /-- PEER_RST (R407). A peer RST fails the connection. -/
  | peerRst (c : Fin 8192) (seq ack : Word)
  /-- ICRESP (R403). SIE takes the ICResp and sends the Fabrics Connect. -/
  | icresp (c : Fin 8192) (m : IcResp)
  /-- CAPSULE_RESP (R403). SIE takes a CapsuleResp and completes the command. -/
  | capsuleResp (c : Fin 8192) (cid : BitVec 16) (hdrOk : Bool) (sct : Fin 8) (sc : BitVec 8) (dw0 : Word)
  /-- C2H_DATA (R405). SIE writes C2HData payload into the buffer and checks its data digest. -/
  | c2hData (c : Fin 8192) (cid : BitVec 16) (off : Nat) (payload : Bytes) (hdrOk dataOk last success : Bool) (walks : List Walk8)
  /-- READY_TO_TRANSFER (R403). SIE answers a Ready-to-Transfer PDU with H2CData. -/
  | readyToTransfer (c : Fin 8192) (cid ttag : BitVec 16) (off len : Nat) (found : R2tFound) (walks : List Walk8)
  /-- C2H_TERM_REQ (R405). A termination request or malformed PDU closes the connection. -/
  | c2hTermReq (c : Fin 8192)
  /-- DRIVE_REQUEST_UR (R409). A drive request outside the opened windows completes with Unsupported Request. -/
  | driveRequestUr
  /-- PRESENCE_STABLE (R411). Presence stable for 100 ms moves the slot to POWERING under AUTO, or to OFF. -/
  | presenceStable
  /-- PRESENCE_LOST (R413). Presence lost removes power, fails commands with DRIVE_GONE and empties the slot. -/
  | presenceLost
  /-- ATTENTION_BUTTON (R412). A press in READY starts or cancels the 5 s removal window. -/
  | attentionButton
  /-- REMOVAL_WINDOW_END (R412). The 5 s window ends, and the orderly removal starts. -/
  | removalWindowEnd
  /-- POWER_ON (R411). A write of POWER_ON powers the slot from OFF or FAULT. -/
  | powerOn (r : Requester)
  /-- REMOVE (R412). A write of REMOVE starts the orderly removal from READY. -/
  | slotRemove (r : Requester)
  /-- POWER_FAULT (R413). REC_PWRFLT_N falls, and the slot enters FAULT. -/
  | powerFault
  /-- SLOT_PERST_RELEASE (R410). After 100 ms of reset the drive is released, and training starts. -/
  | slotPerstRelease
  /-- SLOT_TRAINING_DONE (R410). The slot link trains to the declared speed and width, or the slot enters FAULT. -/
  | slotTrainingDone (speed : Fin 6) (width : Fin 9)
  /-- IDENTIFY_DONE (R414). Identify completes, namespaces are matched and the slot becomes READY. -/
  | identifyDone (namespaces : List DriveNs)
  /-- SHUTDOWN_COMPLETE (R412). Shutdown completes, or 10 s passes, and the slot is unpowered and OFF. -/
  | shutdownComplete
  /-- SLOT_LINK_DOWN (R413). The slot link goes down, the drive is gone and the slot enters FAULT. -/
  | slotLinkDown
  /-- NAMESPACE_WRITE (R414). A write to the namespace map lands only while the entry is not VALID or the slot is not READY. -/
  | namespaceWrite (r : Requester) (ns : Fin 64) (word : Fin 8) (v : Word)
  /-- RECORDING_WRITE (R417). A write to a recording entry lands only while it is IDLE. -/
  | recordingWrite (r : Requester) (rec_ : Fin 64) (word : Fin 64) (v : Word)
  /-- START (R420). A recording START is checked and armed for a chunk boundary. -/
  | recStart (r : Requester) (rec_ : Fin 64)
  /-- STOP (R420). A recording STOP is scheduled for a chunk boundary. -/
  | recStop (r : Requester) (rec_ : Fin 64)
  /-- REC_STARTED (R420). At the effective tick the recording runs, CHUNK_SEQ is 0 and SESSION increments. -/
  | recStarted (rec_ : Fin 64)
  /-- STOP_EFFECTIVE (R420). At the effective tick the recording enters STOPPING. -/
  | stopEffective (rec_ : Fin 64)
  /-- CHUNK_DUE (R419). After a chunk's last tick, its header is written and the chunk is submitted to the drive. -/
  | chunkDue (rec_ : Fin 64)
  /-- CHUNK_WRITTEN (R419). A chunk's writes complete, or fail, and its staging is freed. -/
  | chunkWritten (rec_ : Fin 64) (good : Bool)
  /-- LOCKSTEP_MISMATCH (R426). The safety cores disagree, and SUP enters SAFE_STOP. -/
  | lockstepMismatch
  /-- SAFETY_WDOG_EXPIRY (R426). The safety-firmware watchdog expires after 10 ms, and SUP enters SAFE_STOP. -/
  | safetyWdogExpiry
  /-- SAFETY_ORDER (R426). The safety firmware orders SAFE_STOP. -/
  | safetyOrder
  /-- THERMAL_TRIP (R469). A sensor at 118 °C for 10 µs enters SAFE_STOP with code THERMAL. -/
  | thermalTrip
  /-- CLOCK_FAULT (R449). A PLL out of lock or a bad REFCLK stops the transmitters and enters SAFE_STOP. -/
  | clockFault (pll : Option (Fin 17))
  /-- SERVICE_HEARTBEAT_MISSED (R427). A missing service-core heartbeat restarts the service cores, or halts them after three
  restarts. -/
  | serviceHeartbeatMissed
  /-- SERVICE_RESTART (R427). The service cores finish restarting, and held writes take effect. -/
  | serviceRestart
  /-- SCRUB_VISIT (R432). A scrubber visits a memory word in an idle slot and corrects or reports it. -/
  | scrubVisit (found : ScrubFind) (pass : Bool)
  /-- BIST_SLICE (R433). A BIST slice runs on idle resources, and a failure puts its unit into FAILED. -/
  | bistSlice (u : Fin 14) (pass rotation : Bool)
  /-- TEMP_UPDATE (R470). SUP_TEMP is updated every 1 ms. -/
  | tempUpdate (temps : List (BitVec 8))
  /-- RESET_COLD (R450). SUP_RESET_CTL OP COLD starts a COLD reset. -/
  | resetCold (r : Requester) (confirm : Fin 4096)
  /-- RESET_WARM (R451). SUP_RESET_CTL OP WARM requests a WARM reset, refused while the lease is held. -/
  | resetWarm (r : Requester) (confirm : Fin 4096)
  /-- RESET_UNIT (R452). SUP_RESET_CTL OP UNIT puts the named unit into RESET, refused while the lease is held. -/
  | resetUnit (r : Requester) (confirm : Fin 4096) (unit : Fin 16)
  /-- WARM_RESET_EFFECTIVE (R451). At the next tick boundary the WARM reset clears the datapath and restarts the books. -/
  | warmResetEffective
  /-- UNIT_RESET_DONE (R452). The reset unit finishes its BIST and enters RUN or FAILED. -/
  | unitResetDone (bistOk : Bool)
  /-- REF10_RETURN (R66). The declared 10 MHz input returns within 50 ppm, REF10_OK becomes 1 and TE uses it again. -/
  | ref10Return
  /-- PPS_ABSENT (R66). No 1PPS edge arrives at a PTP second boundary while LOCKED, so PPS_OK falls and REF_LOSS is raised. -/
  | ppsAbsent
  /-- HOLD_LOCK_LOSS (R276). A port in HOLD loses lock or meets a fault cause and returns to DOWN without LINK_DOWN or counting. -/
  | holdLockLoss (port : Fin 32) (reason : Fin 9)
  /-- HEDGE_LINK_UP (R327). The hedge link comes up, LINK_UP is set and each member sends HELLO. -/
  | hedgeLinkUp (verMin verMax : Fin 256) (link : Word)
  /-- WIT_CLK_LOSS (R466). No WIT_CLK edge arrives for 1 µs, and the pin form of the witness protocol is down. -/
  | witClkLoss
  /-- WIT_CLK_RECOVERED (R466). After 100 consecutive good WIT_CLK periods, the clock is recovered and the pin form resumes. -/
  | witClkRecovered
  /-- RETURN_TO_D0 (R349). A VF in D3hot returns to D0 and resumes with its kept queue state. -/
  | returnToD0 (v : Fin 4096)
  /-- CAP_TO_EXPIRY (R410). The record-slot controller fails to become ready within its CAP.TO, and the slot enters FAULT
  unpowered. -/
  | capToExpiry
  /-- REMOVAL_DRAIN_TIMEOUT (R412). In REMOVING, CMD_TIMEOUT_MS passes, the commands still in flight complete with DRIVE_GONE and
  CC.SHN is written. -/
  | removalDrainTimeout
  /-- RAILS_RESTORED (R461). After a rail-monitor trip, the main rails have again held tolerance for 1 ms and the COLD reset runs. -/
  | railsRestored
  /-- SERVICE_WAIT_TIMEOUT (R427). A PCIe read of SUP waiting on restarting service cores completes after 1 ms with all ones and no
  side effect. -/
  | serviceWaitTimeout (size : Nat)
  /-- CONN_CONTEXT_WRITE (R406). A write to an NVMe/TCP connection context lands only while STATE is CLOSED, and is otherwise
  discarded. -/
  | connContextWrite (r : Requester) (c : Fin 8192) (word : Fin 16) (v : Word)
deriving DecidableEq, Repr

end Sys2Proof
end

