-- ==== Sys2Proof/Config.lean ====
section
/-! DEFINITION. What an implementation fixes and the spec leaves open: values with no body, so that nothing can be
proved of them but what holds for every value. The cryptographic primitives are the standards the spec names; the
model gives them no body, so a statement holds for any function in their place. -/

namespace Sys2Proof.Config

/-- The free value number `n`: a value the spec leaves open (DESIGN CHOICE, log entry 6). -/
opaque freeValue : Nat → Nat

/-- SHA-384 of a byte string (R38). -/
opaque sha384 : Bytes → BitVec 384

/-- ECDSA P-384 verification of a message and a 96-byte signature under a 97-byte public key (R38, FIPS 186-5). -/
opaque ecdsaVerify : Bytes → Bytes → Bytes → Bool

/-- AES key wrap with padding: the key a blob unwraps to under a KEK, or none where its integrity check fails (R247, R248). -/
opaque keyUnwrap : Bytes → Bytes → Option Bytes

/-- The P-384 private key that CKU derives from the device secret (R246; the spec gives the derivation no steps). -/
opaque devicePrivate : BitVec 384 → Bytes

/-- The public key of a P-384 private key, 97 bytes, uncompressed. -/
opaque p384Public : Bytes → Bytes

/-- The ECDH shared secret of a P-384 private key and a point, or none where the point is not on the curve (R247). -/
opaque ecdh : Bytes → Bytes → Option Bytes

/-- AES-GCM encryption: key, nonce, associated data, plaintext to ciphertext (R257, R259). -/
opaque gcmEncrypt : Bytes → Bytes → Bytes → Bytes → Bytes

/-- AES-GCM decryption of a ciphertext. -/
opaque gcmDecrypt : Bytes → Bytes → Bytes → Bytes → Bytes

/-- The 16-byte GCM tag of key, nonce, associated data and ciphertext. -/
opaque gcmTag : Bytes → Bytes → Bytes → Bytes → Bytes

/-- HKDF-SHA-384 with an empty salt: input key material and info to a key of 32 bytes (R247, R300). -/
opaque hkdf : Bytes → Bytes → Bytes

/-- AES-XTS over one 4,096- or 512-byte data unit: key, data-unit number, encrypt or decrypt, data (R244). -/
opaque xts : Bytes → Nat → Bool → Bytes → Bytes

/-- The hash of an inner 5-tuple (source and destination address, protocol, ports) that ENTROPY puts into the outer UDP
source port: a CRC-32C, over a layout of the tuple that the spec does not give (R232). -/
opaque entropy : Nat → Nat → Nat → Nat → Nat → Nat

/-- The Ethernet frame, without FCS, of a TCP segment of an offloaded connection: address family, local and remote address,
ports, sequence, acknowledgement, flags, window, options and payload. The spec gives its Ethernet addresses, TTL and
identification no values (R404, DESIGN CHOICE, log entry 31). -/
opaque tcpFrame : List Nat → Bytes → Bytes

/-- The bytes of an NVMe/TCP PDU of a kind with its fields and data, as the NVMe/TCP transport lays it out (R403). -/
opaque pdu : Nat → List Nat → Bytes → Bytes

/-- The initial sequence number of connection attempt `n` of a connection (R404, RFC 6528). -/
opaque isn : Nat → Nat → Nat

/-- The code of a source of the priority override in OVR_ON and OVR_PIN_DISAGREE: 0 pin A, 1 pin B, 2 remote, 3 FORCE (R205; the
spec gives the codes no values, DESIGN CHOICE, log entry 94). -/
opaque ovrSource : Nat → Nat

/-- The transport that the image declares for a PTP port, 0 Ethernet, 1 UDP/IPv4 or 2 UDP/IPv6, modulo 3; the spec gives it no field
(R64; DESIGN CHOICE, log entry 95). -/
opaque ptpTransport : Nat → Nat

/-- The Ethernet frame, without FCS, of a PTP message that TE sends, from its port, kind, profile, transport, domain and a
timestamp in units of 2^-16 ns: PTP lays it out, and the spec gives its addresses and identities no values (R64, R65; DESIGN
CHOICE, log entry 95). -/
opaque ptpFrame : List Nat → Bytes

/-- The number of a reason of PAIR_REFUSED: 0 VERSION, 1 SHOW, 2 IDENTITY, 3 PARTY (R297, R327; the spec gives the reasons no
numbers, DESIGN CHOICE, log entry 104). -/
opaque pairReason : Nat → Nat

/-- The kind in AUTH_FAIL: 0 media, 1 ESP, 2 MACsec (R265; the spec gives the kinds no numbers, DESIGN CHOICE, log entry 44). -/
opaque authKind : Nat → Nat

/-- The number of a memory in ECC_UNCORR, in the order of R431's table (the spec gives the memories no numbers, DESIGN CHOICE, log
entry 104). -/
opaque memoryCode : Nat → Nat

/-- Vendor ID in the low 16 bits, PF0 Device ID in the next 16 and class code in the next 24: the spec gives none of them (R331,
R334; log entry 110). -/
opaque pcieId : Nat

end Sys2Proof.Config
end

