-- ==== Sys2Proof/Machine/Bits.lean ====
section
/-! DEFINITION. Bit fields, byte orders, signed values and serial-number arithmetic, on natural numbers (R7, R99). -/

namespace Sys2Proof.Machine

/-- The `n`-bit field of `w` that starts at bit `lo`. -/
def bits (w lo n : Nat) : Nat := w / 2 ^ lo % 2 ^ n

/-- Bit `i` of `w`. -/
def bitAt (w i : Nat) : Bool := w / 2 ^ i % 2 == 1

/-- `w` with its `n`-bit field at `lo` replaced by `v` (taken modulo the field). -/
def setBits (w lo n v : Nat) : Nat :=
  w / 2 ^ (lo + n) * 2 ^ (lo + n) + v % 2 ^ n * 2 ^ lo + w % 2 ^ lo

/-- `w` with bit `i` set. -/
def setBit (w i : Nat) : Nat := setBits w i 1 1

/-- `w` with bit `i` cleared. -/
def clearBit (w i : Nat) : Nat := setBits w i 1 0

/-- A Boolean as a one-bit value. -/
def bit (b : Bool) : Nat := if b then 1 else 0

/-- The quotient rounded up. -/
def ceilDiv (a b : Nat) : Nat := (a + b - 1) / b

/-- A key within `len` bytes from `base` on. -/
def inRange (k base len : Nat) : Bool := base ≤ k && k < base + len

/-- Little-endian value of a byte string (R7: host structures and registers). -/
def ofLE : Bytes → Nat
  | [] => 0
  | b :: l => b.toNat + 256 * ofLE l

/-- The `n` bytes of `v`, least significant first. -/
def toLE : Nat → Nat → Bytes
  | 0, _ => []
  | n + 1, v => BitVec.ofNat 8 v :: toLE n (v / 256)

/-- Big-endian value of a byte string (R7: network headers). -/
def ofBE (l : Bytes) : Nat := l.foldl (fun a b => a * 256 + b.toNat) 0

/-- The `n` bytes of `v`, most significant first. -/
def toBE (n v : Nat) : Bytes := (toLE n v).reverse

/-- `n` bytes of `l` from byte `i`, short at the end of `l`. -/
def sliceB (l : Bytes) (i n : Nat) : Bytes := (l.drop i).take n

/-- The little-endian `n`-byte value at byte `i`. -/
def leAt (l : Bytes) (i n : Nat) : Nat := ofLE (sliceB l i n)

/-- The big-endian `n`-byte value at byte `i`. -/
def beAt (l : Bytes) (i n : Nat) : Nat := ofBE (sliceB l i n)

/-- `l` with the bytes `r` written over it from byte `i`. -/
def overlay (l : Bytes) (i : Nat) (r : Bytes) : Bytes :=
  l.take i ++ r ++ l.drop (i + r.length)

/-- `n` zero bytes. -/
def zeros (n : Nat) : Bytes := List.replicate n 0

/-- The signed value of an `n`-bit two's complement pattern. -/
def toSigned (n v : Nat) : Int :=
  if v % 2 ^ n < 2 ^ (n - 1) then (v % 2 ^ n : Nat) else (v % 2 ^ n : Nat) - (2 : Int) ^ n

/-- The `n`-bit two's complement pattern of an integer. -/
def ofSigned (n : Nat) (i : Int) : Nat := (i % (2 : Int) ^ n).toNat

/-- An integer held within ±limit. -/
def clampInt (lim i : Int) : Int := if i > lim then lim else if i < -lim then -lim else i

/-- The quotient of integers truncated toward zero (R105). -/
def truncDiv (a : Int) (b : Nat) : Int := Int.tdiv a (b : Int)

/-- Serial-number arithmetic on `n`-bit fields (R99): `a` is newer than `b`. -/
def serialNewer (n a b : Nat) : Bool :=
  let d := (a + 2 ^ n - b % 2 ^ n) % 2 ^ n
  1 ≤ d && d ≤ 2 ^ (n - 1) - 1

/-- The binary logarithm rounded down; 0 for 0. -/
def log2f (n : Nat) : Nat := Nat.log2 n

/-- How many bits of the `n` low bits of `w` are 1. -/
def popCount (w : Nat) : Nat → Nat
  | 0 => 0
  | n + 1 => popCount w n + w / 2 ^ n % 2

/-- The positions below `n` whose bit is 1 in `w`, ascending. -/
def onesOf (w n : Nat) : List Nat := (List.range n).filter (bitAt w)

/-- Apply `f` for each element of a list in order. -/
def forEach {α σ : Type} (l : List α) (s : σ) (f : α → σ → σ) : σ := l.foldl (fun s a => f a s) s

/-- The first number below `n` for which `p` holds. -/
def findBelow (n : Nat) (p : Nat → Bool) : Option Nat := (List.range n).find? p

/-- The sum of `f` over a list. -/
def sumOf {α : Type} (l : List α) (f : α → Nat) : Nat := l.foldl (fun a x => a + f x) 0

end Sys2Proof.Machine
end

