-- ==== Sys2Proof/Machine/RegMap.lean ====
section
/-! DEFINITION. The register map of the CK9620, transcribed from the register tables of spec/ (R8, R9, R10, R29,
R31, R32): one row per 32-bit word of a register or window, with the access type and the reset value of each
field, and one name per field.

Key space: a word of PF0 BAR0 has its byte offset as key; a word of PF0 BAR2 has 0x1000_0000 + its offset;
a word of VF v's BAR0 has 0x2000_0000 + v * 0x1_0000 + its offset. -/

namespace Sys2Proof.Machine

/-- The access types of R10. -/
inductive Acc where
  | rw | ro | wo | w1c | w1s | rc | sl
deriving DecidableEq, Repr

/-- One field of a register word: bits hi..lo, its access type and its reset value. -/
structure FieldRow where
  hi : Nat
  lo : Nat
  acc : Acc
  reset : Nat
deriving DecidableEq, Repr

/-- One word of a register, or of each of `count` registers `stride` bytes apart. -/
structure WordRow where
  base : Nat
  stride : Nat
  count : Nat
  fields : List FieldRow
deriving DecidableEq, Repr

/-- A field's place: the key of its (first) word and its bits; hi above 31 reaches into the next word. -/
structure Field where
  key : Nat
  hi : Nat
  lo : Nat
deriving DecidableEq, Repr

/-- Words of SUP, in the order of the spec's tables. -/
def supRows : List WordRow := [
  ⟨0, 0, 1, [⟨31, 24, .ro, 0x00000010⟩, ⟨23, 16, .ro, 1⟩, ⟨7, 0, .ro, 0⟩]⟩,
  ⟨4, 0, 1, [⟨23, 16, .ro, 0⟩, ⟨8, 8, .ro, 0⟩, ⟨2, 0, .ro, 0⟩]⟩,
  ⟨0x00001000, 4, 1, [⟨29, 28, .ro, 0⟩, ⟨27, 24, .ro, 0⟩, ⟨23, 16, .ro, 1⟩, ⟨15, 8, .ro, 1⟩, ⟨1, 0, .ro, 0⟩]⟩,
  ⟨0x00001004, 4, 1, [⟨5, 5, .w1c, 0⟩, ⟨4, 4, .w1c, 0⟩, ⟨1, 1, .rw, 0⟩, ⟨0, 0, .rw, 0⟩]⟩,
  ⟨0x00001008, 4, 1, [⟨31, 0, .ro, 0⟩]⟩,
  ⟨0x0000100C, 4, 1, [⟨31, 0, .ro, 0⟩]⟩,
  ⟨0x00001010, 4, 1, [⟨31, 0, .ro, 0⟩]⟩,
  ⟨0x00001014, 4, 1, [⟨13, 0, .ro, 0⟩]⟩,
  ⟨0x00001018, 4, 1, [⟨31, 0, .ro, 0⟩]⟩,
  ⟨0x0000101C, 4, 1, [⟨31, 0, .ro, 0⟩]⟩,
  ⟨0x00001024, 4, 1, [⟨22, 16, .ro, 0⟩, ⟨1, 1, .ro, 0⟩, ⟨0, 0, .ro, 0⟩]⟩,
  ⟨0x00001028, 4, 1, [⟨1, 0, .wo, 0⟩]⟩,
  ⟨0x00001040, 4, 1, [⟨31, 31, .ro, 0⟩, ⟨23, 16, .ro, 0⟩, ⟨3, 0, .wo, 0⟩]⟩,
  ⟨0x00001044, 4, 1, [⟨31, 0, .rw, 0⟩]⟩,
  ⟨0x00001100, 4, 64, [⟨31, 0, .rw, 0⟩]⟩,
  ⟨0x00001300, 4, 1, [⟨31, 31, .sl, 0⟩, ⟨1, 0, .sl, 0⟩]⟩,
  ⟨0x00001304, 4, 1, [⟨31, 31, .ro, 0⟩, ⟨11, 8, .ro, 0⟩]⟩,
  ⟨0x00001308, 0, 1, [⟨31, 0, .ro, 0⟩]⟩,
  ⟨0x0000130C, 0, 1, [⟨15, 0, .ro, 0⟩]⟩,
  ⟨0x00001400, 4, 1, [⟨31, 31, .ro, 0⟩, ⟨23, 16, .ro, 0⟩, ⟨15, 8, .ro, 0⟩, ⟨0, 0, .ro, 0⟩]⟩,
  ⟨0x00001404, 4, 1, [⟨31, 16, .ro, 0⟩, ⟨15, 0, .ro, 0⟩]⟩,
  ⟨0x00001408, 4, 1, [⟨14, 0, .sl, 0x00001000⟩]⟩,
  ⟨0x0000140C, 4, 1, [⟨30, 16, .rc, 0⟩, ⟨14, 0, .ro, 0⟩]⟩,
  ⟨0x00001410, 4, 1, [⟨31, 0, .ro, 0⟩]⟩,
  ⟨0x00001500, 0, 1, [⟨31, 0, .ro, 0⟩]⟩,
  ⟨0x00001504, 0, 1, [⟨31, 0, .ro, 0⟩]⟩,
  ⟨0x00001508, 0, 1, [⟨31, 0, .ro, 0⟩]⟩,
  ⟨0x0000150C, 0, 1, [⟨31, 0, .ro, 0⟩]⟩,
  ⟨0x00001510, 0, 1, [⟨31, 0, .ro, 0⟩]⟩,
  ⟨0x00001514, 0, 1, [⟨31, 0, .ro, 0⟩]⟩,
  ⟨0x00001518, 0, 1, [⟨31, 0, .ro, 0⟩]⟩,
  ⟨0x0000151C, 0, 1, [⟨31, 0, .ro, 0⟩]⟩,
  ⟨0x00001600, 4, 1, [⟨31, 28, .wo, 0⟩, ⟨27, 16, .wo, 0⟩, ⟨3, 0, .wo, 0⟩]⟩,
  ⟨0x00001604, 4, 1, [⟨31, 31, .ro, 0⟩, ⟨27, 24, .ro, 0⟩]⟩,
  ⟨0x00001608, 4, 1, [⟨15, 8, .ro, 0⟩, ⟨7, 0, .ro, 0⟩]⟩,
  ⟨0x00001610, 4, 5, [⟨31, 0, .ro, 1⟩]⟩,
  ⟨0x00001630, 4, 1, [⟨31, 31, .ro, 0⟩, ⟨16, 0, .ro, 0⟩]⟩,
  ⟨0x00001640, 4, 1, [⟨19, 16, .ro, 0⟩, ⟨15, 8, .ro, 0⟩, ⟨7, 0, .rc, 0⟩]⟩,
  ⟨0x00001644, 4, 1, [⟨7, 0, .rw, 0x00000064⟩]⟩,
  ⟨0x00008000, 4, 8192, [⟨31, 0, .ro, 0⟩]⟩]

/-- Words of TE, in the order of the spec's tables. -/
def teRows : List WordRow := [
  ⟨0x01000000, 0, 1, [⟨31, 24, .ro, 0x00000010⟩, ⟨23, 16, .ro, 1⟩, ⟨7, 0, .ro, 1⟩]⟩,
  ⟨0x01000004, 0, 1, [⟨23, 16, .ro, 0⟩, ⟨8, 8, .ro, 0⟩, ⟨2, 0, .ro, 0⟩]⟩,
  ⟨0x01001000, 4, 1, [⟨31, 0, .ro, 0⟩]⟩,
  ⟨0x01001004, 4, 1, [⟨15, 0, .ro, 0⟩]⟩,
  ⟨0x01001008, 4, 1, [⟨31, 0, .ro, 0⟩]⟩,
  ⟨0x01001010, 4, 1, [⟨29, 24, .sl, 0x0000000F⟩, ⟨23, 16, .sl, 0⟩, ⟨13, 12, .sl, 0⟩, ⟨9, 9, .sl, 0⟩, ⟨8, 8, .sl, 0⟩, ⟨5, 4, .sl, 0⟩, ⟨2, 0, .sl, 1⟩]⟩,
  ⟨0x01001014, 4, 1, [⟨31, 0, .sl, 0⟩]⟩,
  ⟨0x01001018, 4, 1, [⟨31, 16, .sl, 0x0000003C⟩, ⟨15, 0, .sl, 0x00000064⟩]⟩,
  ⟨0x0100101C, 4, 1, [⟨9, 0, .sl, 0x0000000A⟩]⟩,
  ⟨0x01001020, 4, 1, [⟨12, 0, .sl, 0x000007D0⟩]⟩,
  ⟨0x01001030, 4, 1, [⟨23, 16, .ro, 0x000000FF⟩, ⟨11, 10, .ro, 0⟩, ⟨9, 9, .ro, 0⟩, ⟨8, 8, .ro, 0⟩, ⟨4, 4, .ro, 0⟩, ⟨2, 0, .ro, 0⟩]⟩,
  ⟨0x01001034, 4, 1, [⟨31, 0, .ro, 0⟩]⟩,
  ⟨0x01001038, 4, 1, [⟨31, 0, .ro, 0⟩]⟩,
  ⟨0x0100103C, 4, 1, [⟨0, 0, .w1s, 0⟩]⟩,
  ⟨0x01001040, 8, 4, [⟨31, 0, .sl, 0⟩]⟩,
  ⟨0x01001044, 8, 4, [⟨31, 0, .sl, 0⟩]⟩,
  ⟨0x01001060, 4, 1, [⟨31, 0, .rc, 0⟩]⟩,
  ⟨0x01001100, 4, 1, [⟨31, 28, .wo, 0⟩, ⟨15, 0, .wo, 0⟩]⟩,
  ⟨0x01001108, 0, 1, [⟨31, 0, .rw, 0⟩]⟩,
  ⟨0x0100110C, 0, 1, [⟨15, 0, .rw, 0⟩]⟩,
  ⟨0x01001110, 4, 1, [⟨31, 31, .ro, 0⟩, ⟨23, 16, .ro, 0⟩, ⟨3, 0, .ro, 0⟩]⟩,
  ⟨0x01001200, 4, 40, [⟨31, 0, .ro, 0⟩]⟩,
  ⟨0x01001300, 4, 40, [⟨31, 0, .ro, 0⟩]⟩,
  ⟨0x01001400, 0, 1, [⟨31, 0, .ro, 0⟩]⟩,
  ⟨0x01001404, 0, 1, [⟨31, 0, .ro, 0⟩]⟩,
  ⟨0x01001408, 0, 1, [⟨31, 0, .ro, 0⟩]⟩,
  ⟨0x0100140C, 0, 1, [⟨31, 0, .ro, 0⟩]⟩,
  ⟨0x01001410, 0, 1, [⟨31, 0, .ro, 0⟩]⟩,
  ⟨0x01001414, 0, 1, [⟨31, 0, .ro, 0⟩]⟩,
  ⟨0x01001418, 0, 1, [⟨31, 0, .ro, 0⟩]⟩,
  ⟨0x0100141C, 0, 1, [⟨31, 0, .ro, 0⟩]⟩,
  ⟨0x01001420, 0, 1, [⟨31, 0, .ro, 0⟩]⟩,
  ⟨0x01001424, 0, 1, [⟨31, 0, .ro, 0⟩]⟩,
  ⟨0x01001428, 0, 1, [⟨31, 0, .ro, 0⟩]⟩,
  ⟨0x0100142C, 0, 1, [⟨31, 0, .ro, 0⟩]⟩]

/-- Words of PXC, in the order of the spec's tables. -/
def pxcRows : List WordRow := [
  ⟨0x02000000, 0, 1, [⟨31, 24, .ro, 0x00000010⟩, ⟨23, 16, .ro, 1⟩, ⟨7, 0, .ro, 2⟩]⟩,
  ⟨0x02000004, 0, 1, [⟨23, 16, .ro, 0⟩, ⟨8, 8, .ro, 0⟩, ⟨2, 0, .ro, 0⟩]⟩,
  ⟨0x02001000, 4, 8, [⟨27, 24, .sl, 0⟩, ⟨23, 20, .sl, 0⟩, ⟨19, 12, .sl, 0x000000E4⟩, ⟨2, 0, .sl, 0⟩]⟩,
  ⟨0x02001100, 4, 32, [⟨31, 28, .sl, 0⟩, ⟨27, 26, .sl, 0⟩, ⟨23, 21, .rw, 0⟩, ⟨13, 0, .sl, 0x000005EE⟩]⟩,
  ⟨0x02001200, 4, 32, [⟨31, 24, .ro, 0⟩, ⟨23, 23, .ro, 0⟩, ⟨22, 20, .ro, 0⟩, ⟨19, 16, .ro, 0⟩, ⟨11, 8, .ro, 0⟩, ⟨2, 0, .ro, 0⟩]⟩,
  ⟨0x02001300, 4, 32, [⟨31, 31, .rw, 0⟩, ⟨30, 30, .rw, 0⟩, ⟨29, 28, .rw, 0⟩, ⟨26, 24, .rw, 0⟩, ⟨22, 20, .rw, 0⟩, ⟨11, 0, .rw, 1⟩]⟩,
  ⟨0x02001400, 4, 32, [⟨23, 0, .rw, 0x00FAC688⟩]⟩,
  ⟨0x02001500, 4, 32, [⟨31, 30, .rw, 0⟩, ⟨29, 12, .rw, 0x000007D0⟩, ⟨11, 0, .rw, 0x000003E8⟩]⟩,
  ⟨0x02001600, 4, 32, [⟨31, 0, .sl, 0⟩]⟩,
  ⟨0x02001700, 4, 1, [⟨31, 16, .rw, 0x00000064⟩, ⟨15, 0, .rw, 0x0000000A⟩]⟩,
  ⟨0x02001800, 4, 1, [⟨31, 31, .ro, 0⟩, ⟨1, 1, .rw, 0⟩, ⟨0, 0, .w1s, 0⟩]⟩,
  ⟨0x02001804, 4, 1, [⟨31, 0, .rw, 0xFFFFFFFF⟩]⟩,
  ⟨0x02001808, 0, 1, [⟨31, 0, .ro, 0⟩]⟩,
  ⟨0x0200180C, 0, 1, [⟨15, 0, .ro, 0⟩]⟩,
  ⟨0x02001810, 4, 1, [⟨31, 0, .ro, 0⟩]⟩,
  ⟨0x02008000, 4, 4096, [⟨31, 0, .ro, 0⟩]⟩]

/-- Words of PCU, in the order of the spec's tables. -/
def pcuRows : List WordRow := [
  ⟨0x03000000, 0, 1, [⟨31, 24, .ro, 0x00000010⟩, ⟨23, 16, .ro, 1⟩, ⟨7, 0, .ro, 3⟩]⟩,
  ⟨0x03000004, 0, 1, [⟨23, 16, .ro, 0⟩, ⟨8, 8, .ro, 0⟩, ⟨2, 0, .ro, 0⟩]⟩,
  ⟨0x03001000, 4, 1, [⟨31, 16, .sl, 0x000088B5⟩, ⟨15, 0, .sl, 0x0000C2CF⟩]⟩,
  ⟨0x03001004, 4, 1, [⟨15, 0, .ro, 0⟩]⟩,
  ⟨0x03001008, 4, 1, [⟨31, 31, .ro, 0⟩, ⟨8, 8, .w1c, 0⟩, ⟨0, 0, .w1s, 0⟩]⟩,
  ⟨0x0300100C, 4, 1, [⟨31, 28, .ro, 0⟩, ⟨11, 0, .ro, 0⟩]⟩,
  ⟨0x03001010, 0, 1, [⟨31, 0, .rw, 0⟩]⟩,
  ⟨0x03001014, 0, 1, [⟨15, 0, .rw, 0⟩]⟩,
  ⟨0x03001018, 4, 1, [⟨16, 0, .rw, 0⟩]⟩,
  ⟨0x0300101C, 4, 1, [⟨31, 16, .rw, 0x00000040⟩, ⟨15, 0, .rw, 0x00000100⟩]⟩,
  ⟨0x03001040, 4, 16, [⟨31, 31, .rw, 0⟩, ⟨30, 30, .rw, 0⟩, ⟨29, 27, .rw, 0⟩, ⟨16, 0, .rw, 0⟩]⟩,
  ⟨0x03001400, 4, 64, [⟨11, 0, .sl, 0⟩]⟩,
  ⟨0x03001100, 8, 5, [⟨31, 0, .ro, 0⟩]⟩,
  ⟨0x03001104, 8, 5, [⟨31, 0, .ro, 0⟩]⟩,
  ⟨0x03001128, 0, 1, [⟨31, 0, .ro, 0⟩]⟩,
  ⟨0x0300112C, 0, 1, [⟨31, 0, .ro, 0⟩]⟩,
  ⟨0x03001130, 0, 1, [⟨31, 0, .ro, 0⟩]⟩,
  ⟨0x03001134, 0, 1, [⟨31, 0, .ro, 0⟩]⟩,
  ⟨0x03001138, 0, 1, [⟨31, 0, .ro, 0⟩]⟩,
  ⟨0x0300113C, 0, 1, [⟨31, 0, .ro, 0⟩]⟩,
  ⟨0x03001140, 0, 1, [⟨31, 0, .ro, 0⟩]⟩,
  ⟨0x03001144, 0, 1, [⟨31, 0, .ro, 0⟩]⟩,
  ⟨0x03001200, 4, 64, [⟨12, 0, .rc, 0⟩]⟩]

/-- Words of FTU, in the order of the spec's tables. -/
def ftuRows : List WordRow := [
  ⟨0x04000000, 0, 1, [⟨31, 24, .ro, 0x00000010⟩, ⟨23, 16, .ro, 1⟩, ⟨7, 0, .ro, 4⟩]⟩,
  ⟨0x04000004, 0, 1, [⟨23, 16, .ro, 0⟩, ⟨8, 8, .ro, 0⟩, ⟨2, 0, .ro, 0⟩]⟩,
  ⟨0x04001000, 4, 1, [⟨31, 31, .rw, 1⟩, ⟨25, 16, .rw, 0x000000FA⟩, ⟨10, 0, .rw, 0x000004B0⟩]⟩,
  ⟨0x04001004, 4, 1, [⟨11, 0, .ro, 0⟩]⟩,
  ⟨0x04001100, 4, 4, [⟨31, 0, .rw, 0⟩]⟩,
  ⟨0x04001110, 4, 1, [⟨31, 31, .rw, 0⟩, ⟨23, 16, .rw, 0⟩, ⟨11, 0, .rw, 0⟩]⟩,
  ⟨0x04001114, 4, 1, [⟨15, 0, .rw, 0⟩]⟩,
  ⟨0x04001118, 4, 1, [⟨31, 28, .wo, 0⟩]⟩,
  ⟨0x0400111C, 4, 1, [⟨31, 31, .ro, 0⟩, ⟨30, 30, .ro, 0⟩, ⟨29, 29, .ro, 0⟩, ⟨3, 0, .ro, 0⟩]⟩,
  ⟨0x04001200, 0, 1, [⟨31, 0, .rw, 0⟩]⟩,
  ⟨0x04001204, 0, 1, [⟨27, 16, .rw, 0⟩, ⟨15, 0, .rw, 0⟩]⟩,
  ⟨0x04001208, 4, 1, [⟨31, 30, .rw, 0⟩, ⟨16, 0, .rw, 0⟩]⟩,
  ⟨0x0400120C, 4, 1, [⟨31, 28, .wo, 0⟩, ⟨27, 26, .wo, 0⟩, ⟨25, 25, .wo, 0⟩, ⟨24, 24, .wo, 0⟩, ⟨20, 16, .wo, 0⟩]⟩,
  ⟨0x04001210, 4, 1, [⟨31, 31, .ro, 0⟩, ⟨27, 26, .ro, 0⟩, ⟨23, 12, .ro, 0⟩, ⟨3, 0, .ro, 0⟩]⟩,
  ⟨0x04001300, 4, 32, [⟨31, 31, .rw, 0⟩, ⟨30, 30, .rw, 1⟩, ⟨29, 29, .rw, 0⟩]⟩,
  ⟨0x04001400, 4, 1, [⟨20, 0, .ro, 0⟩]⟩,
  ⟨0x04001404, 4, 1, [⟨20, 0, .ro, 0⟩]⟩,
  ⟨0x04001408, 4, 4, [⟨20, 0, .ro, 0⟩]⟩,
  ⟨0x04001418, 4, 1, [⟨20, 0, .ro, 0⟩]⟩,
  ⟨0x04001500, 0, 1, [⟨31, 0, .ro, 0⟩]⟩,
  ⟨0x04001504, 0, 1, [⟨31, 0, .ro, 0⟩]⟩,
  ⟨0x04001508, 0, 1, [⟨31, 0, .ro, 0⟩]⟩,
  ⟨0x0400150C, 0, 1, [⟨31, 0, .ro, 0⟩]⟩,
  ⟨0x04001510, 0, 1, [⟨31, 0, .ro, 0⟩]⟩,
  ⟨0x04001514, 0, 1, [⟨31, 0, .ro, 0⟩]⟩,
  ⟨0x04001518, 0, 1, [⟨31, 0, .ro, 0⟩]⟩,
  ⟨0x0400151C, 0, 1, [⟨31, 0, .ro, 0⟩]⟩,
  ⟨0x04001520, 0, 1, [⟨31, 0, .ro, 0⟩]⟩,
  ⟨0x04001524, 0, 1, [⟨31, 0, .ro, 0⟩]⟩,
  ⟨0x04001528, 0, 1, [⟨31, 0, .ro, 0⟩]⟩,
  ⟨0x0400152C, 0, 1, [⟨31, 0, .ro, 0⟩]⟩,
  ⟨0x04001530, 0, 1, [⟨31, 0, .ro, 0⟩]⟩,
  ⟨0x04001534, 0, 1, [⟨31, 0, .ro, 0⟩]⟩,
  ⟨0x04001538, 0, 1, [⟨31, 0, .ro, 0⟩]⟩,
  ⟨0x0400153C, 0, 1, [⟨31, 0, .ro, 0⟩]⟩,
  ⟨0x04001540, 0, 1, [⟨31, 0, .ro, 0⟩]⟩,
  ⟨0x04001544, 0, 1, [⟨31, 0, .ro, 0⟩]⟩,
  ⟨0x04001548, 0, 1, [⟨31, 0, .ro, 0⟩]⟩,
  ⟨0x0400154C, 0, 1, [⟨31, 0, .ro, 0⟩]⟩]

/-- Words of RTU, in the order of the spec's tables. -/
def rtuRows : List WordRow := (List.range 56).map (fun i => ⟨0x05400020 + 4 * i, 256, 32768, [⟨31, 0, .ro, 0⟩]⟩) ++ [
  ⟨0x05000000, 0, 1, [⟨31, 24, .ro, 0x00000010⟩, ⟨23, 16, .ro, 1⟩, ⟨7, 0, .ro, 5⟩]⟩,
  ⟨0x05000004, 0, 1, [⟨23, 16, .ro, 0⟩, ⟨8, 8, .ro, 0⟩, ⟨2, 0, .ro, 0⟩]⟩,
  ⟨0x05001000, 4, 1, [⟨31, 28, .wo, 0⟩, ⟨14, 0, .wo, 0⟩]⟩,
  ⟨0x05001004, 4, 1, [⟨31, 31, .ro, 0⟩, ⟨3, 0, .ro, 0⟩]⟩,
  ⟨0x05001100, 4, 64, [⟨31, 0, .rw, 0⟩]⟩,
  ⟨0x05001200, 0, 1, [⟨31, 0, .ro, 0⟩]⟩,
  ⟨0x05001204, 0, 1, [⟨31, 0, .ro, 0⟩]⟩,
  ⟨0x05001208, 0, 1, [⟨31, 0, .ro, 0⟩]⟩,
  ⟨0x0500120C, 0, 1, [⟨31, 0, .ro, 0⟩]⟩,
  ⟨0x05001210, 0, 1, [⟨31, 0, .ro, 0⟩]⟩,
  ⟨0x05001214, 0, 1, [⟨31, 0, .ro, 0⟩]⟩,
  ⟨0x05001218, 0, 1, [⟨31, 0, .ro, 0⟩]⟩,
  ⟨0x0500121C, 0, 1, [⟨31, 0, .ro, 0⟩]⟩,
  ⟨0x05001220, 0, 1, [⟨31, 0, .ro, 0⟩]⟩,
  ⟨0x05001224, 0, 1, [⟨31, 0, .ro, 0⟩]⟩,
  ⟨0x05400000, 256, 32768, [⟨31, 31, .rw, 0⟩, ⟨30, 28, .rw, 0⟩, ⟨27, 26, .rw, 0⟩, ⟨25, 25, .rw, 0⟩, ⟨23, 16, .rw, 0⟩, ⟨15, 14, .rw, 0⟩, ⟨13, 13, .rw, 0⟩, ⟨12, 12, .rw, 0⟩, ⟨11, 11, .rw, 0⟩, ⟨10, 10, .rw, 0⟩, ⟨9, 9, .rw, 0⟩, ⟨8, 8, .rw, 0⟩]⟩,
  ⟨0x05400004, 256, 32768, [⟨31, 30, .rw, 0⟩, ⟨29, 27, .rw, 0⟩, ⟨23, 12, .rw, 0⟩, ⟨7, 0, .rw, 0⟩]⟩,
  ⟨0x05400008, 256, 32768, [⟨31, 24, .rw, 0x000000FF⟩, ⟨23, 16, .rw, 0x000000FF⟩, ⟨15, 8, .rw, 0x000000FF⟩, ⟨7, 0, .rw, 0x000000FF⟩]⟩,
  ⟨0x0540000C, 256, 32768, [⟨31, 24, .rw, 0x000000FF⟩, ⟨15, 0, .rw, 0⟩]⟩,
  ⟨0x05400010, 256, 32768, [⟨15, 0, .ro, 0⟩]⟩]

/-- Words of FPU, in the order of the spec's tables. -/
def fpuRows : List WordRow := [
  ⟨0x06000000, 0, 1, [⟨31, 24, .ro, 0x00000010⟩, ⟨23, 16, .ro, 1⟩, ⟨7, 0, .ro, 6⟩]⟩,
  ⟨0x06000004, 0, 1, [⟨23, 16, .ro, 0⟩, ⟨8, 8, .ro, 0⟩, ⟨2, 0, .ro, 0⟩]⟩,
  ⟨0x06001000, 4, 1, [⟨18, 0, .ro, 0x00060000⟩]⟩,
  ⟨0x06001004, 4, 1, [⟨31, 30, .ro, 0⟩, ⟨18, 0, .ro, 0⟩]⟩,
  ⟨0x06001008, 4, 1, [⟨19, 0, .ro, 0⟩]⟩,
  ⟨0x06001040, 4, 8, [⟨31, 16, .rw, 0x00001000⟩, ⟨15, 0, .rw, 0⟩]⟩,
  ⟨0x06001100, 4, 1, [⟨18, 0, .ro, 0⟩]⟩,
  ⟨0x06001104, 4, 1, [⟨18, 0, .ro, 0⟩]⟩,
  ⟨0x06001108, 4, 1, [⟨18, 0, .ro, 0⟩]⟩,
  ⟨0x0600110C, 4, 1, [⟨31, 31, .ro, 0⟩, ⟨30, 30, .w1c, 0⟩, ⟨29, 27, .ro, 0⟩, ⟨23, 16, .ro, 0⟩]⟩,
  ⟨0x06001110, 0, 1, [⟨31, 0, .ro, 0⟩]⟩,
  ⟨0x06001114, 0, 1, [⟨15, 0, .ro, 0⟩]⟩,
  ⟨0x06001200, 0, 1, [⟨31, 0, .ro, 0⟩]⟩,
  ⟨0x06001204, 0, 1, [⟨31, 0, .ro, 0⟩]⟩,
  ⟨0x06001208, 0, 1, [⟨31, 0, .ro, 0⟩]⟩,
  ⟨0x0600120C, 0, 1, [⟨31, 0, .ro, 0⟩]⟩,
  ⟨0x06001210, 0, 1, [⟨31, 0, .ro, 0⟩]⟩,
  ⟨0x06001214, 0, 1, [⟨31, 0, .ro, 0⟩]⟩,
  ⟨0x06001218, 0, 1, [⟨31, 0, .ro, 0⟩]⟩,
  ⟨0x0600121C, 0, 1, [⟨31, 0, .ro, 0⟩]⟩,
  ⟨0x06001220, 0, 1, [⟨31, 0, .ro, 0⟩]⟩,
  ⟨0x06001224, 0, 1, [⟨31, 0, .ro, 0⟩]⟩,
  ⟨0x06001228, 0, 1, [⟨31, 0, .ro, 0⟩]⟩,
  ⟨0x0600122C, 0, 1, [⟨31, 0, .ro, 0⟩]⟩,
  ⟨0x06001230, 0, 1, [⟨31, 0, .ro, 0⟩]⟩,
  ⟨0x06001234, 0, 1, [⟨31, 0, .ro, 0⟩]⟩,
  ⟨0x06001238, 0, 1, [⟨31, 0, .ro, 0⟩]⟩,
  ⟨0x0600123C, 0, 1, [⟨31, 0, .ro, 0⟩]⟩,
  ⟨0x06001240, 0, 1, [⟨31, 0, .ro, 0⟩]⟩,
  ⟨0x06001244, 0, 1, [⟨31, 0, .ro, 0⟩]⟩,
  ⟨0x06001248, 0, 1, [⟨31, 0, .ro, 0⟩]⟩,
  ⟨0x0600124C, 0, 1, [⟨31, 0, .ro, 0⟩]⟩]

/-- Words of EGU, in the order of the spec's tables (part 0). -/
def eguRows0 : List WordRow := [
  ⟨0x07000000, 0, 1, [⟨31, 24, .ro, 0x00000010⟩, ⟨23, 16, .ro, 1⟩, ⟨7, 0, .ro, 7⟩]⟩,
  ⟨0x07000004, 0, 1, [⟨23, 16, .ro, 0⟩, ⟨8, 8, .ro, 0⟩, ⟨2, 0, .ro, 0⟩]⟩,
  ⟨0x07100000, 4, 65536, [⟨31, 31, .sl, 0⟩, ⟨30, 29, .sl, 0⟩, ⟨5, 0, .sl, 0⟩]⟩,
  ⟨0x07008000, 16, 64, [⟨22, 0, .rw, 0⟩]⟩,
  ⟨0x07008004, 16, 64, [⟨22, 0, .rw, 0⟩]⟩,
  ⟨0x07008008, 16, 64, [⟨26, 16, .sl, 1⟩, ⟨15, 0, .rw, 2⟩]⟩,
  ⟨0x0700800C, 16, 64, [⟨31, 31, .sl, 0⟩, ⟨30, 16, .sl, 1⟩, ⟨12, 0, .sl, 0x00000010⟩]⟩,
  ⟨0x07008400, 4, 1, [⟨31, 28, .wo, 0⟩, ⟨15, 0, .wo, 0⟩]⟩,
  ⟨0x07008408, 0, 1, [⟨31, 0, .rw, 0⟩]⟩,
  ⟨0x0700840C, 0, 1, [⟨31, 0, .rw, 0⟩]⟩,
  ⟨0x07008410, 4, 1, [⟨31, 31, .ro, 0⟩, ⟨30, 30, .ro, 0⟩, ⟨3, 0, .ro, 0⟩]⟩,
  ⟨0x07008418, 0, 1, [⟨31, 0, .ro, 0⟩]⟩,
  ⟨0x0700841C, 0, 1, [⟨31, 0, .ro, 0⟩]⟩,
  ⟨0x07008420, 0, 1, [⟨31, 0, .ro, 0⟩]⟩,
  ⟨0x07008424, 0, 1, [⟨31, 0, .ro, 0⟩]⟩,
  ⟨0x07008500, 4, 1, [⟨4, 4, .ro, 0⟩, ⟨3, 3, .ro, 0⟩, ⟨2, 2, .ro, 0⟩, ⟨1, 1, .ro, 0⟩, ⟨0, 0, .ro, 0⟩]⟩,
  ⟨0x07008504, 4, 1, [⟨31, 31, .sl, 0⟩, ⟨27, 16, .sl, 0x00000010⟩, ⟨15, 0, .sl, 0x000007D0⟩]⟩,
  ⟨0x07008508, 4, 1, [⟨0, 0, .rw, 0⟩]⟩,
  ⟨0x07008600, 4, 1, [⟨16, 16, .rw, 1⟩, ⟨15, 0, .rw, 0⟩]⟩,
  ⟨0x07008700, 0, 1, [⟨31, 0, .ro, 0⟩]⟩,
  ⟨0x07008704, 0, 1, [⟨31, 0, .ro, 0⟩]⟩,
  ⟨0x07008708, 0, 1, [⟨31, 0, .ro, 0⟩]⟩,
  ⟨0x0700870C, 0, 1, [⟨31, 0, .ro, 0⟩]⟩,
  ⟨0x07008710, 0, 1, [⟨31, 0, .ro, 0⟩]⟩,
  ⟨0x07008714, 0, 1, [⟨31, 0, .ro, 0⟩]⟩,
  ⟨0x07008718, 0, 1, [⟨31, 0, .ro, 0⟩]⟩,
  ⟨0x0700871C, 0, 1, [⟨31, 0, .ro, 0⟩]⟩,
  ⟨0x07001100, 4, 1, [⟨31, 31, .ro, 0⟩, ⟨8, 8, .w1c, 0⟩, ⟨0, 0, .w1s, 0⟩]⟩,
  ⟨0x07001108, 0, 1, [⟨31, 0, .rw, 0⟩]⟩,
  ⟨0x0700110C, 0, 1, [⟨15, 0, .rw, 0⟩]⟩,
  ⟨0x07001110, 4, 1, [⟨31, 28, .ro, 0⟩, ⟨4, 0, .ro, 0⟩]⟩,
  ⟨0x07001200, 4, 35, [⟨31, 31, .rw, 0⟩, ⟨13, 0, .rw, 0⟩]⟩,
  ⟨0x07002000, 4, 256, [⟨18, 0, .rw, 0⟩]⟩,
  ⟨0x07002400, 4, 256, [⟨31, 16, .rw, 0x0000FFFF⟩, ⟨15, 0, .rw, 0x0000FFFF⟩]⟩,
  ⟨0x07002800, 4, 256, [⟨31, 0, .ro, 0⟩]⟩,
  ⟨0x07001300, 0, 1, [⟨31, 12, .rw, 0⟩]⟩,
  ⟨0x07001304, 0, 1, [⟨31, 0, .rw, 0⟩]⟩,
  ⟨0x07001308, 4, 1, [⟨31, 31, .rw, 0⟩, ⟨27, 24, .rw, 4⟩]⟩,
  ⟨0x0700130C, 4, 1, [⟨31, 0, .rw, 0xFFFFFFFF⟩]⟩,
  ⟨0x07001310, 4, 1, [⟨31, 0, .ro, 0⟩]⟩]

/-- Words of EGU, in the order of the spec's tables (part 1). -/
def eguRows1 : List WordRow := [
  ⟨0x07001314, 4, 1, [⟨31, 0, .rw, 0⟩]⟩,
  ⟨0x07001400, 0, 1, [⟨31, 0, .ro, 0⟩]⟩,
  ⟨0x07001404, 0, 1, [⟨31, 0, .ro, 0⟩]⟩,
  ⟨0x07001408, 0, 1, [⟨31, 0, .ro, 0⟩]⟩,
  ⟨0x0700140C, 0, 1, [⟨31, 0, .ro, 0⟩]⟩,
  ⟨0x07001410, 0, 1, [⟨31, 0, .ro, 0⟩]⟩,
  ⟨0x07001414, 0, 1, [⟨31, 0, .ro, 0⟩]⟩,
  ⟨0x07001418, 0, 1, [⟨31, 0, .ro, 0⟩]⟩,
  ⟨0x0700141C, 0, 1, [⟨31, 0, .ro, 0⟩]⟩,
  ⟨0x07001420, 0, 1, [⟨31, 0, .ro, 0⟩]⟩,
  ⟨0x07001424, 0, 1, [⟨31, 0, .ro, 0⟩]⟩,
  ⟨0x07001428, 0, 1, [⟨31, 0, .ro, 0⟩]⟩,
  ⟨0x0700142C, 0, 1, [⟨31, 0, .ro, 0⟩]⟩,
  ⟨0x07001430, 0, 1, [⟨31, 0, .ro, 0⟩]⟩,
  ⟨0x07001434, 0, 1, [⟨31, 0, .ro, 0⟩]⟩,
  ⟨0x07200000, 16, 16384, [⟨31, 31, .rw, 0⟩, ⟨30, 30, .rw, 0⟩, ⟨29, 16, .rw, 0⟩, ⟨15, 15, .rw, 0⟩, ⟨11, 0, .rw, 0⟩]⟩,
  ⟨0x07200004, 16, 16384, [⟨31, 26, .rw, 0⟩, ⟨18, 0, .rw, 0⟩]⟩,
  ⟨0x07200008, 16, 16384, [⟨31, 30, .rw, 0⟩, ⟨29, 27, .rw, 0⟩, ⟨23, 0, .rw, 0⟩]⟩,
  ⟨0x0720000C, 16, 16384, [⟨23, 0, .rw, 0⟩]⟩,
  ⟨0x07004000, 4, 2048, [⟨31, 31, .rw, 0⟩, ⟨28, 16, .rw, 0⟩, ⟨7, 0, .rw, 0⟩]⟩,
  ⟨0x07006000, 4, 2048, [⟨31, 0, .ro, 0⟩]⟩,
  ⟨0x07240000, 4, 32768, [⟨31, 0, .ro, 0⟩]⟩,
  ⟨0x07260004, 8, 4096, [⟨31, 31, .rw, 0⟩, ⟨30, 30, .rw, 0⟩, ⟨29, 16, .rw, 0⟩, ⟨15, 15, .rw, 0⟩, ⟨13, 0, .rw, 0⟩]⟩]

/-- All words of EGU. -/
def eguRows : List WordRow := eguRows0 ++ eguRows1

/-- Words of CKU, in the order of the spec's tables. -/
def ckuRows : List WordRow := [
  ⟨0x08000000, 0, 1, [⟨31, 24, .ro, 0x00000010⟩, ⟨23, 16, .ro, 1⟩, ⟨7, 0, .ro, 8⟩]⟩,
  ⟨0x08000004, 0, 1, [⟨23, 16, .ro, 0⟩, ⟨8, 8, .ro, 0⟩, ⟨2, 0, .ro, 0⟩]⟩,
  ⟨0x08001000, 4, 1, [⟨31, 28, .wo, 0⟩, ⟨15, 0, .wo, 0⟩]⟩,
  ⟨0x08001004, 4, 1, [⟨30, 24, .rw, 0⟩, ⟨19, 16, .rw, 0⟩, ⟨11, 0, .rw, 0⟩]⟩,
  ⟨0x08001008, 0, 1, [⟨31, 0, .rw, 0⟩]⟩,
  ⟨0x0800100C, 0, 1, [⟨15, 0, .rw, 0⟩]⟩,
  ⟨0x08001010, 4, 1, [⟨31, 31, .ro, 0⟩, ⟨3, 0, .ro, 0⟩]⟩,
  ⟨0x08001020, 4, 1, [⟨15, 0, .ro, 0⟩]⟩,
  ⟨0x08001100, 4, 24, [⟨31, 0, .wo, 0⟩]⟩,
  ⟨0x08001200, 4, 25, [⟨31, 0, .ro, 0⟩]⟩,
  ⟨0x08001400, 4, 32, [⟨31, 31, .sl, 0⟩, ⟨30, 30, .sl, 0⟩, ⟨29, 24, .rw, 0⟩, ⟨13, 0, .rw, 0⟩]⟩,
  ⟨0x08001500, 0, 1, [⟨31, 0, .ro, 0⟩]⟩,
  ⟨0x08001504, 0, 1, [⟨31, 0, .ro, 0⟩]⟩,
  ⟨0x08001508, 0, 1, [⟨31, 0, .ro, 0⟩]⟩,
  ⟨0x0800150C, 0, 1, [⟨31, 0, .ro, 0⟩]⟩,
  ⟨0x08001510, 0, 1, [⟨31, 0, .ro, 0⟩]⟩,
  ⟨0x08001514, 0, 1, [⟨31, 0, .ro, 0⟩]⟩,
  ⟨0x08001518, 0, 1, [⟨31, 0, .ro, 0⟩]⟩,
  ⟨0x0800151C, 0, 1, [⟨31, 0, .ro, 0⟩]⟩,
  ⟨0x08001520, 0, 1, [⟨31, 0, .ro, 0⟩]⟩,
  ⟨0x08001524, 0, 1, [⟨31, 0, .ro, 0⟩]⟩,
  ⟨0x08001528, 0, 1, [⟨31, 0, .ro, 0⟩]⟩,
  ⟨0x0800152C, 0, 1, [⟨31, 0, .ro, 0⟩]⟩,
  ⟨0x08001530, 0, 1, [⟨31, 0, .ro, 0⟩]⟩,
  ⟨0x08001534, 0, 1, [⟨31, 0, .ro, 0⟩]⟩,
  ⟨0x08001538, 0, 1, [⟨31, 0, .ro, 0⟩]⟩,
  ⟨0x0800153C, 0, 1, [⟨31, 0, .ro, 0⟩]⟩,
  ⟨0x08001540, 0, 1, [⟨31, 0, .ro, 0⟩]⟩,
  ⟨0x08001544, 0, 1, [⟨31, 0, .ro, 0⟩]⟩,
  ⟨0x08400000, 32, 16384, [⟨31, 31, .rw, 0⟩, ⟨30, 28, .rw, 0⟩, ⟨27, 27, .rw, 0⟩, ⟨26, 26, .rw, 0⟩, ⟨15, 0, .rw, 0⟩]⟩,
  ⟨0x08400004, 32, 16384, [⟨31, 0, .rw, 0⟩]⟩,
  ⟨0x08400008, 32, 16384, [⟨31, 0, .rw, 0⟩]⟩,
  ⟨0x0840000C, 32, 16384, [⟨31, 0, .rw, 0⟩]⟩,
  ⟨0x08400010, 32, 16384, [⟨31, 0, .rw, 0⟩]⟩,
  ⟨0x08400018, 32, 16384, [⟨31, 0, .rw, 0⟩]⟩,
  ⟨0x0840001C, 32, 16384, [⟨31, 0, .rw, 0⟩]⟩,
  ⟨0x08500000, 16, 65536, [⟨31, 30, .ro, 0⟩, ⟨29, 27, .ro, 0⟩, ⟨26, 25, .ro, 0⟩, ⟨24, 17, .ro, 0⟩, ⟨15, 12, .ro, 0⟩, ⟨11, 0, .ro, 0⟩]⟩,
  ⟨0x08500008, 16, 65536, [⟨31, 0, .ro, 0⟩]⟩,
  ⟨0x0850000C, 16, 65536, [⟨15, 0, .ro, 0⟩]⟩,
  ⟨0x08480000, 4, 4096, [⟨31, 0, .rw, 0⟩]⟩]

/-- Words of HGC, in the order of the spec's tables (part 0). -/
def hgcRows0 : List WordRow := [
  ⟨0x09000000, 0, 1, [⟨31, 24, .ro, 0x00000010⟩, ⟨23, 16, .ro, 1⟩, ⟨7, 0, .ro, 9⟩]⟩,
  ⟨0x09000004, 0, 1, [⟨23, 16, .ro, 0⟩, ⟨8, 8, .ro, 0⟩, ⟨2, 0, .ro, 0⟩]⟩,
  ⟨0x09001000, 4, 1, [⟨31, 30, .sl, 0⟩, ⟨29, 28, .sl, 0⟩, ⟨27, 27, .sl, 0⟩, ⟨26, 26, .sl, 0⟩, ⟨22, 16, .sl, 6⟩, ⟨15, 0, .sl, 0⟩]⟩,
  ⟨0x09001004, 4, 1, [⟨31, 28, .ro, 2⟩, ⟨27, 24, .sl, 0⟩, ⟨12, 0, .sl, 0⟩]⟩,
  ⟨0x09001008, 0, 1, [⟨31, 0, .sl, 0⟩]⟩,
  ⟨0x0900100C, 0, 1, [⟨15, 0, .sl, 0⟩]⟩,
  ⟨0x09001010, 0, 1, [⟨31, 0, .sl, 0⟩]⟩,
  ⟨0x09001014, 0, 1, [⟨15, 0, .sl, 0⟩]⟩,
  ⟨0x09001018, 0, 1, [⟨31, 0, .sl, 0⟩]⟩,
  ⟨0x0900101C, 0, 1, [⟨15, 0, .sl, 0⟩]⟩,
  ⟨0x09001020, 8, 4, [⟨31, 0, .sl, 0⟩]⟩,
  ⟨0x09001024, 8, 4, [⟨31, 31, .sl, 0⟩, ⟨28, 24, .sl, 0⟩, ⟨15, 0, .sl, 0⟩]⟩,
  ⟨0x09001040, 4, 1, [⟨31, 24, .ro, 0⟩, ⟨23, 16, .ro, 0⟩, ⟨15, 10, .ro, 1⟩, ⟨9, 9, .ro, 0⟩, ⟨7, 4, .ro, 0⟩, ⟨2, 0, .ro, 0⟩]⟩,
  ⟨0x09001048, 0, 1, [⟨31, 0, .ro, 0⟩]⟩,
  ⟨0x0900104C, 0, 1, [⟨15, 0, .ro, 0⟩]⟩,
  ⟨0x09001050, 0, 1, [⟨31, 0, .ro, 0⟩]⟩,
  ⟨0x09001054, 0, 1, [⟨15, 0, .ro, 0⟩]⟩,
  ⟨0x09001058, 4, 1, [⟨8, 8, .ro, 0⟩, ⟨7, 0, .ro, 0⟩]⟩,
  ⟨0x09001060, 0, 1, [⟨31, 0, .ro, 0⟩]⟩,
  ⟨0x09001064, 0, 1, [⟨15, 0, .ro, 0⟩]⟩,
  ⟨0x09001070, 4, 1, [⟨3, 3, .w1s, 0⟩, ⟨2, 2, .rw, 0⟩, ⟨1, 1, .w1s, 0⟩, ⟨0, 0, .rw, 0⟩]⟩,
  ⟨0x09001078, 4, 1, [⟨31, 0, .ro, 0⟩]⟩,
  ⟨0x09001100, 0, 1, [⟨31, 0, .ro, 0⟩]⟩,
  ⟨0x09001104, 0, 1, [⟨31, 0, .ro, 0⟩]⟩,
  ⟨0x09001108, 0, 1, [⟨31, 0, .ro, 0⟩]⟩,
  ⟨0x0900110C, 0, 1, [⟨31, 0, .ro, 0⟩]⟩,
  ⟨0x09001110, 0, 1, [⟨31, 0, .ro, 0⟩]⟩,
  ⟨0x09001114, 0, 1, [⟨31, 0, .ro, 0⟩]⟩,
  ⟨0x09001118, 0, 1, [⟨31, 0, .ro, 0⟩]⟩,
  ⟨0x0900111C, 0, 1, [⟨31, 0, .ro, 0⟩]⟩,
  ⟨0x09001120, 0, 1, [⟨31, 0, .ro, 0⟩]⟩,
  ⟨0x09001124, 0, 1, [⟨31, 0, .ro, 0⟩]⟩,
  ⟨0x09001128, 0, 1, [⟨31, 0, .ro, 0⟩]⟩,
  ⟨0x0900112C, 0, 1, [⟨31, 0, .ro, 0⟩]⟩,
  ⟨0x09001130, 0, 1, [⟨31, 0, .ro, 0⟩]⟩,
  ⟨0x09001134, 0, 1, [⟨31, 0, .ro, 0⟩]⟩,
  ⟨0x09001138, 0, 1, [⟨31, 0, .ro, 0⟩]⟩,
  ⟨0x0900113C, 0, 1, [⟨31, 0, .ro, 0⟩]⟩,
  ⟨0x09001140, 0, 1, [⟨31, 0, .ro, 0⟩]⟩,
  ⟨0x09001144, 0, 1, [⟨31, 0, .ro, 0⟩]⟩]

/-- Words of HGC, in the order of the spec's tables (part 1). -/
def hgcRows1 : List WordRow := [
  ⟨0x09001148, 0, 1, [⟨31, 0, .ro, 0⟩]⟩,
  ⟨0x0900114C, 0, 1, [⟨31, 0, .ro, 0⟩]⟩,
  ⟨0x09001150, 0, 1, [⟨31, 0, .ro, 0⟩]⟩,
  ⟨0x09001154, 0, 1, [⟨31, 0, .ro, 0⟩]⟩,
  ⟨0x09001158, 0, 1, [⟨31, 0, .ro, 0⟩]⟩,
  ⟨0x0900115C, 0, 1, [⟨31, 0, .ro, 0⟩]⟩,
  ⟨0x09002000, 4, 7184, [⟨31, 0, .ro, 0⟩]⟩]

/-- All words of HGC. -/
def hgcRows : List WordRow := hgcRows0 ++ hgcRows1

/-- Words of HIU, in the order of the spec's tables. -/
def hiuRows : List WordRow := [
  ⟨0x0A000000, 0, 1, [⟨31, 24, .ro, 0x00000010⟩, ⟨23, 16, .ro, 1⟩, ⟨7, 0, .ro, 0x0000000A⟩]⟩,
  ⟨0x0A000004, 0, 1, [⟨23, 16, .ro, 0⟩, ⟨8, 8, .ro, 0⟩, ⟨2, 0, .ro, 0⟩]⟩,
  ⟨0x0A001000, 4, 1, [⟨26, 24, .sl, 6⟩, ⟨20, 16, .sl, 0x00000010⟩, ⟨10, 8, .sl, 4⟩, ⟨4, 0, .sl, 8⟩]⟩,
  ⟨0x0A001004, 4, 1, [⟨31, 31, .ro, 0⟩, ⟨30, 30, .ro, 0⟩, ⟨29, 29, .ro, 0⟩, ⟨26, 24, .ro, 0⟩, ⟨20, 16, .ro, 0⟩]⟩,
  ⟨0x0A001008, 4, 1, [⟨31, 31, .ro, 1⟩, ⟨19, 16, .ro, 0⟩, ⟨15, 0, .ro, 1⟩]⟩,
  ⟨0x0A00100C, 4, 1, [⟨15, 0, .wo, 0⟩]⟩,
  ⟨0x0A001010, 4, 1, [⟨31, 31, .rw, 0⟩, ⟨15, 0, .rw, 0x000003E8⟩]⟩,
  ⟨0x0A001014, 4, 1, [⟨31, 0, .wo, 0⟩]⟩,
  ⟨0x0A001018, 0, 1, [⟨31, 0, .ro, 0⟩]⟩,
  ⟨0x0A00101C, 0, 1, [⟨15, 0, .ro, 0⟩]⟩,
  ⟨0x0A001020, 4, 1, [⟨28, 16, .rw, 0x00000100⟩, ⟨9, 0, .rw, 0x00000080⟩]⟩,
  ⟨0x0A001024, 4, 1, [⟨28, 16, .ro, 0x00000100⟩, ⟨12, 0, .ro, 0⟩]⟩,
  ⟨0x0A001028, 4, 1, [⟨12, 0, .rc, 0⟩]⟩,
  ⟨0x0A001030, 4, 1, [⟨0, 0, .ro, 0⟩]⟩,
  ⟨0x0A001034, 4, 1, [⟨31, 31, .ro, 0⟩, ⟨30, 30, .w1c, 0⟩, ⟨29, 28, .ro, 0⟩]⟩,
  ⟨0x0A001100, 0, 1, [⟨31, 0, .ro, 0⟩]⟩,
  ⟨0x0A001104, 0, 1, [⟨31, 0, .ro, 0⟩]⟩,
  ⟨0x0A001108, 0, 1, [⟨31, 0, .ro, 0⟩]⟩,
  ⟨0x0A00110C, 0, 1, [⟨31, 0, .ro, 0⟩]⟩,
  ⟨0x0A001110, 0, 1, [⟨31, 0, .ro, 0⟩]⟩,
  ⟨0x0A001114, 0, 1, [⟨31, 0, .ro, 0⟩]⟩,
  ⟨0x0A001118, 0, 1, [⟨31, 0, .ro, 0⟩]⟩,
  ⟨0x0A00111C, 0, 1, [⟨31, 0, .ro, 0⟩]⟩,
  ⟨0x0A001120, 0, 1, [⟨31, 0, .ro, 0⟩]⟩,
  ⟨0x0A001124, 0, 1, [⟨31, 0, .ro, 0⟩]⟩,
  ⟨0x0A001128, 0, 1, [⟨31, 0, .ro, 0⟩]⟩,
  ⟨0x0A00112C, 0, 1, [⟨31, 0, .ro, 0⟩]⟩,
  ⟨0x0A001130, 0, 1, [⟨31, 0, .ro, 0⟩]⟩,
  ⟨0x0A001134, 0, 1, [⟨31, 0, .ro, 0⟩]⟩,
  ⟨0x0A010000, 4, 8192, [⟨31, 0, .rw, 0⟩]⟩,
  ⟨0x0A018000, 4, 64, [⟨31, 0, .ro, 0⟩]⟩]

/-- Words of TTU, in the order of the spec's tables (part 0). -/
def ttuRows0 : List WordRow := [
  ⟨0x0B000000, 0, 1, [⟨31, 24, .ro, 0x00000010⟩, ⟨23, 16, .ro, 1⟩, ⟨7, 0, .ro, 0x0000000B⟩]⟩,
  ⟨0x0B000004, 0, 1, [⟨23, 16, .ro, 0⟩, ⟨8, 8, .ro, 0⟩, ⟨2, 0, .ro, 0⟩]⟩,
  ⟨0x0B001000, 4, 1, [⟨31, 28, .wo, 0⟩, ⟨22, 18, .wo, 0⟩, ⟨11, 0, .wo, 0⟩]⟩,
  ⟨0x0B001008, 0, 1, [⟨31, 12, .rw, 0⟩]⟩,
  ⟨0x0B00100C, 0, 1, [⟨15, 0, .rw, 0⟩]⟩,
  ⟨0x0B001010, 0, 1, [⟨31, 3, .rw, 0⟩]⟩,
  ⟨0x0B001014, 0, 1, [⟨31, 0, .rw, 0⟩]⟩,
  ⟨0x0B001018, 4, 1, [⟨31, 31, .ro, 0⟩, ⟨30, 30, .ro, 0⟩, ⟨29, 29, .w1c, 0⟩]⟩,
  ⟨0x0B00101C, 4, 1, [⟨31, 0, .ro, 0⟩]⟩,
  ⟨0x0B001100, 4, 1, [⟨31, 28, .wo, 0⟩, ⟨11, 0, .wo, 0⟩]⟩,
  ⟨0x0B001104, 4, 1, [⟨31, 31, .ro, 0⟩, ⟨30, 30, .ro, 0⟩, ⟨29, 29, .ro, 0⟩, ⟨3, 0, .ro, 0⟩]⟩,
  ⟨0x0B001200, 4, 1, [⟨31, 28, .wo, 0⟩, ⟨27, 24, .wo, 0⟩, ⟨11, 0, .wo, 0⟩]⟩,
  ⟨0x0B001204, 4, 1, [⟨31, 0, .rw, 0⟩]⟩,
  ⟨0x0B001208, 4, 1, [⟨31, 31, .ro, 0⟩, ⟨3, 0, .ro, 0⟩]⟩,
  ⟨0x0B001240, 4, 8, [⟨31, 0, .sl, 0⟩]⟩,
  ⟨0x0B001300, 0, 1, [⟨31, 0, .ro, 0⟩]⟩,
  ⟨0x0B001304, 0, 1, [⟨31, 28, .ro, 0⟩, ⟨27, 16, .ro, 0⟩, ⟨15, 0, .ro, 0⟩]⟩,
  ⟨0x0B002200, 4, 1, [⟨11, 0, .wo, 0⟩]⟩,
  ⟨0x0B002204, 4, 1, [⟨11, 0, .wo, 0⟩]⟩,
  ⟨0x0B002000, 4, 128, [⟨31, 0, .ro, 0⟩]⟩,
  ⟨0x0B002400, 4, 128, [⟨31, 0, .ro, 0⟩]⟩,
  ⟨0x0B001400, 0, 1, [⟨31, 0, .ro, 0⟩]⟩,
  ⟨0x0B001404, 0, 1, [⟨31, 0, .ro, 0⟩]⟩,
  ⟨0x0B001408, 0, 1, [⟨31, 0, .ro, 0⟩]⟩,
  ⟨0x0B00140C, 0, 1, [⟨31, 0, .ro, 0⟩]⟩,
  ⟨0x0B001410, 0, 1, [⟨31, 0, .ro, 0⟩]⟩,
  ⟨0x0B001414, 0, 1, [⟨31, 0, .ro, 0⟩]⟩,
  ⟨0x0B001418, 0, 1, [⟨31, 0, .ro, 0⟩]⟩,
  ⟨0x0B00141C, 0, 1, [⟨31, 0, .ro, 0⟩]⟩,
  ⟨0x0B001420, 0, 1, [⟨31, 0, .ro, 0⟩]⟩,
  ⟨0x0B001424, 0, 1, [⟨31, 0, .ro, 0⟩]⟩,
  ⟨0x0B001428, 0, 1, [⟨31, 0, .ro, 0⟩]⟩,
  ⟨0x0B00142C, 0, 1, [⟨31, 0, .ro, 0⟩]⟩,
  ⟨0x0B100000, 32, 4096, [⟨31, 31, .rw, 0⟩, ⟨30, 29, .rw, 0⟩, ⟨28, 28, .rw, 0⟩, ⟨27, 27, .ro, 0⟩, ⟨23, 0, .rw, 0⟩]⟩,
  ⟨0x0B100008, 32, 4096, [⟨31, 12, .rw, 0⟩]⟩,
  ⟨0x0B10000C, 32, 4096, [⟨31, 0, .rw, 0⟩]⟩,
  ⟨0x0B100010, 32, 4096, [⟨31, 12, .rw, 0⟩]⟩,
  ⟨0x0B100014, 32, 4096, [⟨31, 0, .rw, 0⟩]⟩,
  ⟨0x0B100018, 32, 4096, [⟨31, 12, .rw, 0⟩]⟩,
  ⟨0x0B10001C, 32, 4096, [⟨31, 0, .rw, 0⟩]⟩]

/-- Words of TTU, in the order of the spec's tables (part 1). -/
def ttuRows1 : List WordRow := [
  ⟨0x0B200000, 4, 65536, [⟨31, 0, .ro, 0⟩]⟩,
  ⟨0x0B300000, 4, 73728, [⟨31, 0, .ro, 0⟩]⟩]

/-- All words of TTU. -/
def ttuRows : List WordRow := ttuRows0 ++ ttuRows1

/-- Words of QE, in the order of the spec's tables. -/
def qeRows : List WordRow := [
  ⟨0x0C000000, 0, 1, [⟨31, 24, .ro, 0x00000010⟩, ⟨23, 16, .ro, 1⟩, ⟨7, 0, .ro, 0x0000000C⟩]⟩,
  ⟨0x0C000004, 0, 1, [⟨23, 16, .ro, 0⟩, ⟨8, 8, .ro, 0⟩, ⟨2, 0, .ro, 0⟩]⟩,
  ⟨0x0C001000, 4, 14, [⟨31, 31, .rw, 0⟩, ⟨16, 0, .rw, 0⟩]⟩,
  ⟨0x0C001040, 4, 1, [⟨31, 0, .ro, 0⟩]⟩,
  ⟨0x0C001100, 0, 1, [⟨31, 0, .ro, 0⟩]⟩,
  ⟨0x0C001104, 0, 1, [⟨31, 0, .ro, 0⟩]⟩,
  ⟨0x0C001108, 0, 1, [⟨31, 0, .ro, 0⟩]⟩,
  ⟨0x0C00110C, 0, 1, [⟨31, 0, .ro, 0⟩]⟩,
  ⟨0x0C001110, 0, 1, [⟨31, 0, .ro, 0⟩]⟩,
  ⟨0x0C001114, 0, 1, [⟨31, 0, .ro, 0⟩]⟩,
  ⟨0x0C001118, 0, 1, [⟨31, 0, .ro, 0⟩]⟩,
  ⟨0x0C00111C, 0, 1, [⟨31, 0, .ro, 0⟩]⟩,
  ⟨0x0C001120, 0, 1, [⟨31, 0, .ro, 0⟩]⟩,
  ⟨0x0C001124, 0, 1, [⟨31, 0, .ro, 0⟩]⟩,
  ⟨0x0C001128, 0, 1, [⟨31, 0, .ro, 0⟩]⟩,
  ⟨0x0C00112C, 0, 1, [⟨31, 0, .ro, 0⟩]⟩,
  ⟨0x0C001130, 0, 1, [⟨31, 0, .ro, 0⟩]⟩,
  ⟨0x0C001134, 0, 1, [⟨31, 0, .ro, 0⟩]⟩,
  ⟨0x0C001138, 0, 1, [⟨31, 0, .ro, 0⟩]⟩,
  ⟨0x0C00113C, 0, 1, [⟨31, 0, .ro, 0⟩]⟩,
  ⟨0x0C001140, 0, 1, [⟨31, 0, .ro, 0⟩]⟩,
  ⟨0x0C001144, 0, 1, [⟨31, 0, .ro, 0⟩]⟩,
  ⟨0x0C400000, 64, 131072, [⟨31, 31, .rw, 0⟩, ⟨30, 30, .ro, 1⟩, ⟨29, 27, .rw, 0⟩, ⟨26, 26, .rw, 0⟩, ⟨24, 20, .rw, 4⟩, ⟨12, 0, .rw, 0⟩]⟩,
  ⟨0x0C400004, 64, 131072, [⟨31, 24, .rw, 1⟩, ⟨22, 16, .rw, 1⟩, ⟨10, 0, .rw, 0⟩]⟩,
  ⟨0x0C400008, 64, 131072, [⟨31, 12, .rw, 0⟩]⟩,
  ⟨0x0C40000C, 64, 131072, [⟨31, 0, .rw, 0⟩]⟩,
  ⟨0x0C400010, 64, 131072, [⟨31, 3, .rw, 0⟩]⟩,
  ⟨0x0C400014, 64, 131072, [⟨31, 0, .rw, 0⟩]⟩,
  ⟨0x0C400018, 64, 131072, [⟨31, 20, .rw, 0⟩, ⟨16, 0, .rw, 0⟩]⟩,
  ⟨0x0C40001C, 64, 131072, [⟨17, 17, .rw, 0⟩, ⟨16, 0, .rw, 0⟩]⟩,
  ⟨0x0C400020, 64, 131072, [⟨31, 31, .ro, 1⟩, ⟨30, 30, .ro, 0⟩, ⟨29, 29, .ro, 0⟩, ⟨28, 28, .ro, 0⟩]⟩,
  ⟨0x0C400024, 64, 131072, [⟨31, 0, .ro, 0⟩]⟩,
  ⟨0x0C400028, 64, 131072, [⟨31, 0, .ro, 0⟩]⟩,
  ⟨0x0C40002C, 64, 131072, [⟨31, 0, .ro, 0⟩]⟩,
  ⟨0x0C400030, 64, 131072, [⟨31, 0, .ro, 0⟩]⟩,
  ⟨0x0C400034, 64, 131072, [⟨16, 0, .ro, 0⟩]⟩]

/-- Words of SIE, in the order of the spec's tables (part 0). -/
def sieRows0 : List WordRow := [
  ⟨0x0D000000, 0, 1, [⟨31, 24, .ro, 0x00000010⟩, ⟨23, 16, .ro, 1⟩, ⟨7, 0, .ro, 0x0000000D⟩]⟩,
  ⟨0x0D000004, 0, 1, [⟨23, 16, .ro, 0⟩, ⟨8, 8, .ro, 0⟩, ⟨2, 0, .ro, 0⟩]⟩,
  ⟨0x0D001000, 4, 1, [⟨15, 0, .rw, 0x00001388⟩]⟩,
  ⟨0x0D001100, 4, 1, [⟨31, 28, .wo, 0⟩, ⟨12, 0, .wo, 0⟩]⟩,
  ⟨0x0D001104, 4, 1, [⟨31, 31, .ro, 0⟩, ⟨30, 28, .ro, 0⟩, ⟨15, 0, .ro, 0⟩]⟩,
  ⟨0x0D001200, 4, 1, [⟨31, 31, .sl, 0⟩, ⟨10, 8, .sl, 5⟩, ⟨3, 0, .sl, 8⟩]⟩,
  ⟨0x0D001204, 4, 1, [⟨3, 3, .rw, 0⟩, ⟨1, 1, .w1s, 0⟩, ⟨0, 0, .w1s, 0⟩]⟩,
  ⟨0x0D001208, 4, 1, [⟨31, 31, .ro, 0⟩, ⟨30, 30, .ro, 0⟩, ⟨29, 29, .w1c, 0⟩, ⟨28, 28, .w1c, 0⟩, ⟨27, 27, .w1c, 0⟩, ⟨26, 26, .w1c, 0⟩, ⟨18, 16, .ro, 0⟩, ⟨15, 12, .ro, 0⟩, ⟨2, 0, .ro, 0⟩]⟩,
  ⟨0x0D001300, 4, 1, [⟨31, 28, .wo, 0⟩, ⟨5, 0, .wo, 0⟩]⟩,
  ⟨0x0D001308, 0, 1, [⟨31, 0, .rw, 0⟩]⟩,
  ⟨0x0D00130C, 0, 1, [⟨15, 0, .rw, 0⟩]⟩,
  ⟨0x0D001310, 4, 1, [⟨3, 0, .ro, 0⟩]⟩,
  ⟨0x0D001400, 0, 1, [⟨31, 0, .ro, 0⟩]⟩,
  ⟨0x0D001404, 0, 1, [⟨31, 0, .ro, 0⟩]⟩,
  ⟨0x0D001408, 0, 1, [⟨31, 0, .ro, 0⟩]⟩,
  ⟨0x0D00140C, 0, 1, [⟨31, 0, .ro, 0⟩]⟩,
  ⟨0x0D001410, 0, 1, [⟨31, 0, .ro, 0⟩]⟩,
  ⟨0x0D001414, 0, 1, [⟨31, 0, .ro, 0⟩]⟩,
  ⟨0x0D001418, 0, 1, [⟨31, 0, .ro, 0⟩]⟩,
  ⟨0x0D00141C, 0, 1, [⟨31, 0, .ro, 0⟩]⟩,
  ⟨0x0D001420, 0, 1, [⟨31, 0, .ro, 0⟩]⟩,
  ⟨0x0D001424, 0, 1, [⟨31, 0, .ro, 0⟩]⟩,
  ⟨0x0D001428, 0, 1, [⟨31, 0, .ro, 0⟩]⟩,
  ⟨0x0D00142C, 0, 1, [⟨31, 0, .ro, 0⟩]⟩,
  ⟨0x0D001430, 0, 1, [⟨31, 0, .ro, 0⟩]⟩,
  ⟨0x0D001434, 0, 1, [⟨31, 0, .ro, 0⟩]⟩,
  ⟨0x0D001438, 0, 1, [⟨31, 0, .ro, 0⟩]⟩,
  ⟨0x0D00143C, 0, 1, [⟨31, 0, .ro, 0⟩]⟩,
  ⟨0x0D100000, 64, 8192, [⟨31, 29, .ro, 0⟩, ⟨28, 28, .rw, 0⟩, ⟨27, 27, .rw, 0⟩, ⟨26, 26, .rw, 0⟩, ⟨23, 12, .rw, 0⟩, ⟨11, 0, .rw, 0⟩]⟩,
  ⟨0x0D100004, 64, 8192, [⟨31, 16, .rw, 0⟩, ⟨15, 0, .rw, 0⟩]⟩,
  ⟨0x0D100008, 64, 8192, [⟨31, 0, .rw, 0⟩]⟩,
  ⟨0x0D10000C, 64, 8192, [⟨31, 0, .rw, 0⟩]⟩,
  ⟨0x0D100010, 64, 8192, [⟨31, 0, .rw, 0⟩]⟩,
  ⟨0x0D100014, 64, 8192, [⟨31, 0, .rw, 0⟩]⟩,
  ⟨0x0D100018, 64, 8192, [⟨31, 0, .rw, 0⟩]⟩,
  ⟨0x0D10001C, 64, 8192, [⟨31, 0, .rw, 0⟩]⟩,
  ⟨0x0D100020, 64, 8192, [⟨31, 0, .rw, 0⟩]⟩,
  ⟨0x0D100024, 64, 8192, [⟨31, 0, .rw, 0⟩]⟩,
  ⟨0x0D100028, 64, 8192, [⟨31, 16, .rw, 0⟩, ⟨15, 0, .rw, 0⟩]⟩,
  ⟨0x0D10002C, 64, 8192, [⟨31, 24, .rw, 0⟩, ⟨13, 0, .rw, 0x000005B4⟩]⟩]

/-- Words of SIE, in the order of the spec's tables (part 1). -/
def sieRows1 : List WordRow := [
  ⟨0x0D100030, 64, 8192, [⟨31, 28, .rw, 0⟩, ⟨27, 24, .rw, 9⟩, ⟨7, 0, .ro, 0⟩]⟩,
  ⟨0x0D180000, 32, 64, [⟨31, 31, .rw, 0⟩, ⟨30, 30, .rw, 0⟩, ⟨29, 28, .ro, 0⟩, ⟨27, 24, .rw, 9⟩, ⟨11, 0, .rw, 0⟩]⟩,
  ⟨0x0D180004, 32, 64, [⟨31, 0, .rw, 0⟩]⟩,
  ⟨0x0D180008, 32, 64, [⟨15, 0, .rw, 0⟩]⟩,
  ⟨0x0D180010, 32, 64, [⟨31, 0, .ro, 0⟩]⟩,
  ⟨0x0D180014, 32, 64, [⟨31, 0, .ro, 0⟩]⟩,
  ⟨0x0D190000, 256, 64, [⟨31, 29, .ro, 0⟩, ⟨28, 28, .rw, 0⟩, ⟨27, 26, .rw, 0⟩, ⟨23, 18, .rw, 0⟩, ⟨17, 12, .rw, 2⟩, ⟨11, 0, .rw, 0⟩]⟩,
  ⟨0x0D190004, 256, 64, [⟨6, 0, .rw, 0⟩]⟩,
  ⟨0x0D190008, 256, 64, [⟨31, 0, .rw, 0⟩]⟩,
  ⟨0x0D19000C, 256, 64, [⟨31, 0, .rw, 0⟩]⟩,
  ⟨0x0D190010, 256, 64, [⟨31, 0, .rw, 0⟩]⟩,
  ⟨0x0D190014, 256, 64, [⟨31, 0, .rw, 0⟩]⟩,
  ⟨0x0D190018, 256, 64, [⟨31, 0, .ro, 0⟩]⟩,
  ⟨0x0D190020, 256, 64, [⟨31, 0, .rw, 0⟩]⟩,
  ⟨0x0D190024, 256, 64, [⟨31, 0, .rw, 0⟩]⟩,
  ⟨0x0D190028, 256, 64, [⟨31, 0, .rw, 0⟩]⟩,
  ⟨0x0D19002C, 256, 64, [⟨31, 0, .rw, 0⟩]⟩,
  ⟨0x0D190030, 256, 64, [⟨31, 0, .rw, 0⟩]⟩,
  ⟨0x0D190034, 256, 64, [⟨31, 0, .rw, 0⟩]⟩,
  ⟨0x0D190038, 256, 64, [⟨31, 0, .rw, 0⟩]⟩,
  ⟨0x0D19003C, 256, 64, [⟨31, 0, .rw, 0⟩]⟩,
  ⟨0x0D190040, 256, 64, [⟨31, 0, .rw, 0⟩]⟩,
  ⟨0x0D190044, 256, 64, [⟨31, 0, .rw, 0⟩]⟩,
  ⟨0x0D190048, 256, 64, [⟨31, 0, .rw, 0⟩]⟩,
  ⟨0x0D19004C, 256, 64, [⟨31, 0, .rw, 0⟩]⟩,
  ⟨0x0D190050, 256, 64, [⟨31, 0, .rw, 0⟩]⟩,
  ⟨0x0D190054, 256, 64, [⟨31, 0, .rw, 0⟩]⟩,
  ⟨0x0D190058, 256, 64, [⟨31, 0, .rw, 0⟩]⟩,
  ⟨0x0D19005C, 256, 64, [⟨31, 0, .rw, 0⟩]⟩,
  ⟨0x0D190060, 256, 64, [⟨31, 0, .rw, 0⟩]⟩,
  ⟨0x0D190064, 256, 64, [⟨31, 0, .rw, 0⟩]⟩,
  ⟨0x0D190068, 256, 64, [⟨31, 0, .rw, 0⟩]⟩,
  ⟨0x0D19006C, 256, 64, [⟨31, 0, .rw, 0⟩]⟩,
  ⟨0x0D190070, 256, 64, [⟨31, 0, .rw, 0⟩]⟩,
  ⟨0x0D190074, 256, 64, [⟨31, 0, .rw, 0⟩]⟩,
  ⟨0x0D190078, 256, 64, [⟨31, 0, .rw, 0⟩]⟩,
  ⟨0x0D19007C, 256, 64, [⟨31, 0, .rw, 0⟩]⟩,
  ⟨0x0D190080, 256, 64, [⟨31, 0, .rw, 0⟩]⟩,
  ⟨0x0D190084, 256, 64, [⟨31, 0, .rw, 0⟩]⟩,
  ⟨0x0D190088, 256, 64, [⟨31, 0, .rw, 0⟩]⟩]

/-- Words of SIE, in the order of the spec's tables (part 2). -/
def sieRows2 : List WordRow := [
  ⟨0x0D19008C, 256, 64, [⟨31, 0, .rw, 0⟩]⟩,
  ⟨0x0D190090, 256, 64, [⟨31, 0, .rw, 0⟩]⟩,
  ⟨0x0D190094, 256, 64, [⟨31, 0, .rw, 0⟩]⟩,
  ⟨0x0D190098, 256, 64, [⟨31, 0, .rw, 0⟩]⟩,
  ⟨0x0D19009C, 256, 64, [⟨31, 0, .rw, 0⟩]⟩]

/-- All words of SIE. -/
def sieRows : List WordRow := sieRows0 ++ sieRows1 ++ sieRows2

/-- Words of mbx, in the order of the spec's tables. -/
def mbxRows : List WordRow := [
  ⟨0x10000000, 4, 4194304, [⟨31, 0, .rw, 0⟩]⟩]

/-- Words of pcuWindow, in the order of the spec's tables. -/
def pcuWindowRows : List WordRow := [
  ⟨0x11000000, 4, 2162688, [⟨31, 0, .rw, 0⟩]⟩]

/-- Words of ftuWindow, in the order of the spec's tables. -/
def ftuWindowRows : List WordRow := [
  ⟨0x12000000, 128, 65536, [⟨31, 31, .ro, 0⟩, ⟨30, 30, .ro, 0⟩, ⟨29, 28, .ro, 0⟩, ⟨27, 27, .ro, 0⟩, ⟨25, 24, .rw, 0⟩, ⟨23, 21, .rw, 0⟩, ⟨20, 18, .rw, 0⟩, ⟨17, 16, .rw, 0⟩, ⟨15, 14, .rw, 0⟩, ⟨11, 0, .rw, 0⟩]⟩,
  ⟨0x12000004, 128, 65536, [⟨31, 24, .rw, 0⟩, ⟨23, 16, .rw, 0⟩, ⟨15, 12, .rw, 0⟩, ⟨11, 8, .rw, 0⟩, ⟨7, 0, .rw, 0⟩]⟩,
  ⟨0x12000008, 128, 65536, [⟨31, 29, .rw, 0⟩, ⟨16, 0, .rw, 0⟩]⟩,
  ⟨0x1200000C, 128, 65536, [⟨28, 16, .rw, 0⟩, ⟨12, 0, .rw, 0⟩]⟩,
  ⟨0x12000010, 128, 65536, [⟨31, 31, .rw, 0⟩, ⟨30, 29, .rw, 0⟩, ⟨28, 16, .rw, 0⟩]⟩,
  ⟨0x12000014, 128, 65536, [⟨16, 0, .rw, 0⟩]⟩,
  ⟨0x12000018, 128, 65536, [⟨31, 16, .rw, 0⟩, ⟨15, 0, .rw, 0⟩]⟩,
  ⟨0x1200001C, 128, 65536, [⟨31, 16, .rw, 0⟩, ⟨15, 0, .rw, 0⟩]⟩,
  ⟨0x12000020, 128, 65536, [⟨31, 0, .rw, 0⟩]⟩,
  ⟨0x12000024, 128, 65536, [⟨31, 31, .rw, 0⟩, ⟨6, 0, .rw, 0⟩]⟩,
  ⟨0x12000028, 128, 65536, [⟨31, 0, .rw, 0⟩]⟩,
  ⟨0x12000040, 128, 65536, [⟨31, 0, .ro, 0⟩]⟩,
  ⟨0x12000044, 128, 65536, [⟨31, 0, .ro, 0⟩]⟩,
  ⟨0x12000048, 128, 65536, [⟨31, 0, .ro, 0⟩]⟩,
  ⟨0x1200004C, 128, 65536, [⟨31, 0, .ro, 0⟩]⟩,
  ⟨0x12000050, 128, 65536, [⟨31, 0, .rw, 0⟩]⟩,
  ⟨0x12000054, 128, 65536, [⟨31, 0, .rw, 0⟩]⟩,
  ⟨0x12000058, 128, 65536, [⟨31, 0, .rw, 0⟩]⟩,
  ⟨0x1200005C, 128, 65536, [⟨31, 0, .rw, 0⟩]⟩,
  ⟨0x12000060, 128, 65536, [⟨31, 0, .rw, 0⟩]⟩,
  ⟨0x12000064, 128, 65536, [⟨31, 0, .rw, 0⟩]⟩,
  ⟨0x12000068, 128, 65536, [⟨31, 0, .rw, 0⟩]⟩,
  ⟨0x1200006C, 128, 65536, [⟨31, 0, .rw, 0⟩]⟩,
  ⟨0x12000070, 128, 65536, [⟨31, 0, .rw, 0⟩]⟩,
  ⟨0x12000074, 128, 65536, [⟨8, 8, .ro, 0⟩, ⟨7, 0, .ro, 0⟩]⟩,
  ⟨0x12000078, 128, 65536, [⟨15, 0, .ro, 0⟩]⟩,
  ⟨0x12800000, 16, 65536, [⟨31, 31, .rw, 0⟩, ⟨30, 28, .rw, 0⟩, ⟨16, 0, .rw, 0⟩]⟩,
  ⟨0x12800004, 16, 65536, [⟨31, 16, .rw, 0⟩, ⟨3, 3, .rw, 0⟩, ⟨2, 0, .rw, 0⟩]⟩,
  ⟨0x12900000, 4, 1835008, [⟨31, 0, .rw, 0⟩]⟩]

/-- Words of fpuWindow, in the order of the spec's tables. -/
def fpuWindowRows : List WordRow := [
  ⟨0x13240000, 8, 8192, [⟨6, 0, .rw, 0⟩]⟩,
  ⟨0x13240004, 8, 8192, [⟨15, 0, .ro, 0⟩]⟩,
  ⟨0x13400000, 8, 524288, [⟨31, 31, .rw, 0⟩, ⟨30, 30, .rw, 0⟩, ⟨29, 17, .rw, 0⟩, ⟨16, 0, .rw, 0⟩]⟩,
  ⟨0x13400004, 8, 524288, [⟨31, 16, .rw, 0⟩]⟩,
  ⟨0x13200000, 32, 8192, [⟨31, 31, .ro, 0⟩, ⟨30, 30, .ro, 0⟩, ⟨11, 0, .rw, 0⟩]⟩,
  ⟨0x13200004, 32, 8192, [⟨28, 16, .rw, 0⟩, ⟨15, 0, .rw, 0⟩]⟩,
  ⟨0x13200008, 32, 8192, [⟨30, 24, .rw, 0⟩, ⟨16, 0, .rw, 0⟩]⟩,
  ⟨0x1320000C, 32, 8192, [⟨31, 0, .rw, 0⟩]⟩,
  ⟨0x13200010, 32, 8192, [⟨31, 0, .rw, 0⟩]⟩,
  ⟨0x13200014, 32, 8192, [⟨31, 0, .rw, 0⟩]⟩,
  ⟨0x13200018, 32, 8192, [⟨31, 0, .rw, 0⟩]⟩,
  ⟨0x13000000, 16, 131072, [⟨29, 24, .rw, 0⟩, ⟨21, 16, .rw, 0⟩, ⟨15, 0, .rw, 0⟩]⟩,
  ⟨0x13000004, 16, 131072, [⟨24, 0, .rw, 0⟩]⟩,
  ⟨0x13000008, 16, 131072, [⟨31, 31, .ro, 0⟩, ⟨24, 0, .ro, 0⟩]⟩,
  ⟨0x13250000, 4, 442368, [⟨31, 0, .ro, 0⟩]⟩,
  ⟨0x13800000, 4, 2097152, [⟨31, 0, .ro, 0⟩]⟩]

/-- Words of vf, in the order of the spec's tables. -/
def vfRows : List WordRow := [
  ⟨0x20009400, 0, 1, [⟨24, 0, .wo, 0⟩]⟩,
  ⟨0x20009404, 0, 1, [⟨16, 0, .wo, 0⟩]⟩,
  ⟨0x20009408, 4, 1, [⟨31, 0, .rc, 0⟩]⟩,
  ⟨0x20009000, 4, 1, [⟨16, 16, .w1c, 0⟩, ⟨9, 9, .ro, 0⟩, ⟨8, 8, .ro, 0⟩, ⟨1, 1, .w1s, 0⟩, ⟨0, 0, .w1s, 0⟩]⟩,
  ⟨0x20009008, 4, 1, [⟨31, 0, .rc, 0⟩]⟩,
  ⟨0x20009100, 4, 1, [⟨12, 0, .rw, 0⟩]⟩,
  ⟨0x20009108, 4, 1, [⟨31, 31, .rw, 0⟩, ⟨16, 0, .rw, 0⟩]⟩,
  ⟨0x20009800, 4, 256, [⟨31, 0, .rw, 0⟩]⟩,
  ⟨0x20009C00, 4, 2, [⟨31, 0, .ro, 0⟩]⟩]

/-- The rows that may hold key `k`: the unit of PF0 BAR0, the window group of PF0 BAR2, or the VF space. -/
def rowsFor (k : Nat) : List WordRow :=
  match k / 0x1000000 with
  | 0 => supRows
  | 1 => teRows
  | 2 => pxcRows
  | 3 => pcuRows
  | 4 => ftuRows
  | 5 => rtuRows
  | 6 => fpuRows
  | 7 => eguRows
  | 8 => ckuRows
  | 9 => hgcRows
  | 10 => hiuRows
  | 11 => ttuRows
  | 12 => qeRows
  | 13 => sieRows
  | 16 => mbxRows
  | 17 => pcuWindowRows
  | 18 => ftuWindowRows
  | 19 => fpuWindowRows
  | _ => if 0x20000000 ≤ k then vfRows else []

/-- The words whose reset value is not 0: (first key, stride, count, value). -/
def supResets : List (Nat × Nat × Nat × Nat) := [
  (0, 0, 1, 0x10010000),
  (0x00001000, 4, 1, 0x00010100),
  (0x00001408, 4, 1, 0x00001000),
  (0x00001644, 4, 1, 0x00000064),
  (0x00001610, 0, 1, 1),
  (0x00001024, 0, 1, 1)]

def teResets : List (Nat × Nat × Nat × Nat) := [
  (0x01000000, 0, 1, 0x10010001),
  (0x01001010, 4, 1, 0x0F000001),
  (0x01001018, 4, 1, 0x003C0064),
  (0x0100101C, 4, 1, 0x0000000A),
  (0x01001020, 4, 1, 0x000007D0),
  (0x01001030, 4, 1, 0x00FF0000)]

def pxcResets : List (Nat × Nat × Nat × Nat) := [
  (0x02000000, 0, 1, 0x10010002),
  (0x02001000, 4, 8, 0x000E4000),
  (0x02001100, 4, 32, 0x000005EE),
  (0x02001300, 4, 32, 1),
  (0x02001400, 4, 32, 0x00FAC688),
  (0x02001500, 4, 32, 0x007D03E8),
  (0x02001700, 4, 1, 0x0064000A),
  (0x02001804, 4, 1, 0xFFFFFFFF)]

def pcuResets : List (Nat × Nat × Nat × Nat) := [
  (0x03000000, 0, 1, 0x10010003),
  (0x03001000, 4, 1, 0x88B5C2CF),
  (0x0300101C, 4, 1, 0x00400100)]

def ftuResets : List (Nat × Nat × Nat × Nat) := [
  (0x04000000, 0, 1, 0x10010004),
  (0x04001000, 4, 1, 0x80FA04B0),
  (0x04001300, 4, 32, 0x40000000)]

def rtuResets : List (Nat × Nat × Nat × Nat) := [
  (0x05000000, 0, 1, 0x10010005),
  (0x05400008, 256, 32768, 0xFFFFFFFF),
  (0x0540000C, 256, 32768, 0xFF000000)]

def fpuResets : List (Nat × Nat × Nat × Nat) := [
  (0x06000000, 0, 1, 0x10010006),
  (0x06001000, 4, 1, 0x00060000),
  (0x06001040, 4, 8, 0x10000000)]

def eguResets : List (Nat × Nat × Nat × Nat) := [
  (0x07000000, 0, 1, 0x10010007),
  (0x07008008, 16, 64, 0x00010002),
  (0x0700800C, 16, 64, 0x00010010),
  (0x07008504, 4, 1, 0x001007D0),
  (0x07008600, 4, 1, 0x00010000),
  (0x07002400, 4, 256, 0xFFFFFFFF),
  (0x07001308, 4, 1, 0x04000000),
  (0x0700130C, 4, 1, 0xFFFFFFFF)]

def ckuResets : List (Nat × Nat × Nat × Nat) := [
  (0x08000000, 0, 1, 0x10010008)]

def hgcResets : List (Nat × Nat × Nat × Nat) := [
  (0x09000000, 0, 1, 0x10010009),
  (0x09001000, 4, 1, 0x00060000),
  (0x09001004, 4, 1, 0x20000000),
  (0x09001040, 4, 1, 0x00000400)]

def hiuResets : List (Nat × Nat × Nat × Nat) := [
  (0x0A000000, 0, 1, 0x1001000A),
  (0x0A001000, 4, 1, 0x06100408),
  (0x0A001008, 4, 1, 0x80000001),
  (0x0A001010, 4, 1, 0x000003E8),
  (0x0A001020, 4, 1, 0x01000080),
  (0x0A001024, 4, 1, 0x01000000)]

def ttuResets : List (Nat × Nat × Nat × Nat) := [
  (0x0B000000, 0, 1, 0x1001000B)]

def qeResets : List (Nat × Nat × Nat × Nat) := [
  (0x0C000000, 0, 1, 0x1001000C),
  (0x0C400000, 64, 131072, 0x40400000),
  (0x0C400004, 64, 131072, 0x01010000),
  (0x0C400020, 64, 131072, 0x80000000)]

def sieResets : List (Nat × Nat × Nat × Nat) := [
  (0x0D000000, 0, 1, 0x1001000D),
  (0x0D001000, 4, 1, 0x00001388),
  (0x0D001200, 4, 1, 0x00000508),
  (0x0D10002C, 64, 8192, 0x000005B4),
  (0x0D100030, 64, 8192, 0x09000000),
  (0x0D180000, 32, 64, 0x09000000),
  (0x0D190000, 256, 64, 0x00002000)]

/-- The non-zero resets that may apply to key `k`. -/
def resetsFor (k : Nat) : List (Nat × Nat × Nat × Nat) :=
  match k / 0x1000000 with
  | 0 => supResets
  | 1 => teResets
  | 2 => pxcResets
  | 3 => pcuResets
  | 4 => ftuResets
  | 5 => rtuResets
  | 6 => fpuResets
  | 7 => eguResets
  | 8 => ckuResets
  | 9 => hgcResets
  | 10 => hiuResets
  | 11 => ttuResets
  | 12 => qeResets
  | 13 => sieResets
  | _ => []

/-- The low words of the 64-bit registers and of the NAME_LO / NAME_HI pairs (R13): first key, stride, count. -/
def pairRows0 : List (Nat × Nat × Nat) := [(0x00001018, 0, 1), (0x01001000, 0, 1), (0x01001040, 8, 4), (0x01001108, 0, 1), (0x01001400, 0, 1), (0x01001408, 0, 1), (0x01001410, 0, 1), (0x01001418, 0, 1), (0x01001420, 0, 1), (0x01001428, 0, 1), (0x03001010, 0, 1), (0x03001100, 8, 5), (0x03001128, 0, 1), (0x03001130, 0, 1), (0x03001138, 0, 1), (0x03001140, 0, 1), (0x04001200, 0, 1), (0x04001500, 0, 1), (0x04001508, 0, 1), (0x04001510, 0, 1), (0x04001518, 0, 1), (0x04001520, 0, 1), (0x04001528, 0, 1), (0x04001530, 0, 1), (0x04001538, 0, 1), (0x04001540, 0, 1), (0x04001548, 0, 1), (0x06001110, 0, 1), (0x06001200, 0, 1), (0x06001208, 0, 1), (0x06001210, 0, 1), (0x06001218, 0, 1), (0x06001220, 0, 1), (0x06001228, 0, 1), (0x06001230, 0, 1), (0x06001238, 0, 1), (0x06001240, 0, 1), (0x06001248, 0, 1), (0x20009400, 0, 1), (0x07008408, 0, 1)]

/-- The low words of the 64-bit registers and of the NAME_LO / NAME_HI pairs (R13): first key, stride, count. -/
def pairRows1 : List (Nat × Nat × Nat) := [(0x07008418, 0, 1), (0x07008420, 0, 1), (0x07008700, 0, 1), (0x07008708, 0, 1), (0x07008710, 0, 1), (0x07008718, 0, 1), (0x07001108, 0, 1), (0x07001300, 0, 1), (0x07001400, 0, 1), (0x07001408, 0, 1), (0x07001410, 0, 1), (0x07001418, 0, 1), (0x07001420, 0, 1), (0x07001428, 0, 1), (0x07001430, 0, 1), (0x05001200, 0, 1), (0x05001208, 0, 1), (0x05001210, 0, 1), (0x05001218, 0, 1), (0x05001220, 0, 1), (0x08001008, 0, 1), (0x08001500, 0, 1), (0x08001508, 0, 1), (0x08001510, 0, 1), (0x08001518, 0, 1), (0x08001520, 0, 1), (0x08001528, 0, 1), (0x08001530, 0, 1), (0x08001538, 0, 1), (0x08001540, 0, 1), (0x02001808, 0, 1), (0x00001308, 0, 1), (0x09001008, 0, 1), (0x09001010, 0, 1), (0x09001018, 0, 1), (0x09001020, 8, 4), (0x09001048, 0, 1), (0x09001050, 0, 1), (0x09001060, 0, 1), (0x09001100, 0, 1)]

/-- The low words of the 64-bit registers and of the NAME_LO / NAME_HI pairs (R13): first key, stride, count. -/
def pairRows2 : List (Nat × Nat × Nat) := [(0x09001108, 0, 1), (0x09001110, 0, 1), (0x09001118, 0, 1), (0x09001120, 0, 1), (0x09001128, 0, 1), (0x09001130, 0, 1), (0x09001138, 0, 1), (0x09001140, 0, 1), (0x09001148, 0, 1), (0x09001150, 0, 1), (0x09001158, 0, 1), (0x0A001018, 0, 1), (0x0A001100, 0, 1), (0x0A001108, 0, 1), (0x0A001110, 0, 1), (0x0A001118, 0, 1), (0x0A001120, 0, 1), (0x0A001128, 0, 1), (0x0A001130, 0, 1), (0x0B001008, 0, 1), (0x0B001010, 0, 1), (0x0B001300, 0, 1), (0x0B001400, 0, 1), (0x0B001408, 0, 1), (0x0B001410, 0, 1), (0x0B001418, 0, 1), (0x0B001420, 0, 1), (0x0B001428, 0, 1), (0x0C001100, 0, 1), (0x0C001108, 0, 1), (0x0C001110, 0, 1), (0x0C001118, 0, 1), (0x0C001120, 0, 1), (0x0C001128, 0, 1), (0x0C001130, 0, 1), (0x0C001138, 0, 1), (0x0C001140, 0, 1), (0x0D001308, 0, 1), (0x0D001400, 0, 1), (0x0D001408, 0, 1)]

/-- The low words of the 64-bit registers and of the NAME_LO / NAME_HI pairs (R13): first key, stride, count. -/
def pairRows3 : List (Nat × Nat × Nat) := [(0x0D001410, 0, 1), (0x0D001418, 0, 1), (0x0D001420, 0, 1), (0x0D001428, 0, 1), (0x0D001430, 0, 1), (0x0D001438, 0, 1), (0x00001500, 0, 1), (0x00001508, 0, 1), (0x00001510, 0, 1), (0x00001518, 0, 1)]

/-- The low words of all pairs (R13). -/
def pairRows : List (Nat × Nat × Nat) := pairRows0 ++ pairRows1 ++ pairRows2 ++ pairRows3

end Sys2Proof.Machine

namespace Sys2Proof.Machine.Reg

abbrev UNIT_ID (i : Nat) : Field := ⟨0 + 16777216 * i, 31, 0⟩
abbrev UNIT_FAULT (i : Nat) : Field := ⟨4 + 16777216 * i, 23, 16⟩
abbrev UNIT_SEALED (i : Nat) : Field := ⟨4 + 16777216 * i, 8, 8⟩
abbrev UNIT_STATE (i : Nat) : Field := ⟨4 + 16777216 * i, 2, 0⟩
abbrev SUP_BOOT_STATUS_TIER : Field := ⟨0x00001000, 29, 28⟩
abbrev SUP_BOOT_STATUS_STAGE : Field := ⟨0x00001000, 27, 24⟩
abbrev SUP_BOOT_STATUS_SLOT_A_RESULT : Field := ⟨0x00001000, 23, 16⟩
abbrev SUP_BOOT_STATUS_SLOT_B_RESULT : Field := ⟨0x00001000, 15, 8⟩
abbrev SUP_BOOT_STATUS_SLOT : Field := ⟨0x00001000, 1, 0⟩
abbrev SUP_BOOT_CTL_SKIP_B : Field := ⟨0x00001004, 5, 5⟩
abbrev SUP_BOOT_CTL_SKIP_A : Field := ⟨0x00001004, 4, 4⟩
abbrev SUP_BOOT_CTL_FORCE_RECOVERY : Field := ⟨0x00001004, 1, 1⟩
abbrev SUP_BOOT_CTL_PREFER : Field := ⟨0x00001004, 0, 0⟩
abbrev SUP_FW_VERSION_SV : Field := ⟨0x00001008, 31, 0⟩
abbrev SUP_FW_VERSION_SV_VERSION : Field := ⟨0x00001008, 31, 0⟩
abbrev SUP_FW_VERSION_SAFE : Field := ⟨0x0000100C, 31, 0⟩
abbrev SUP_FW_VERSION_SAFE_VERSION : Field := ⟨0x0000100C, 31, 0⟩
abbrev SUP_IMAGE_SEQ : Field := ⟨0x00001010, 31, 0⟩
abbrev SUP_IMAGE_SEQ_SEQ : Field := ⟨0x00001010, 31, 0⟩
abbrev SUP_SEAL_STATE : Field := ⟨0x00001014, 13, 0⟩
abbrev SUP_SEAL_STATE_SEALED : Field := ⟨0x00001014, 13, 0⟩
abbrev SUP_HBM_FILL_LO : Field := ⟨0x00001018, 31, 0⟩
abbrev SUP_HBM_FILL_LO_FILLED : Field := ⟨0x00001018, 31, 0⟩
abbrev SUP_HBM_FILL_HI : Field := ⟨0x0000101C, 31, 0⟩
abbrev SUP_HBM_FILL_HI_FILLED : Field := ⟨0x0000101C, 31, 0⟩
abbrev SUP_OTP_STATUS_MIN_SECVER : Field := ⟨0x00001024, 22, 16⟩
abbrev SUP_OTP_STATUS_KEY_FUSED : Field := ⟨0x00001024, 1, 1⟩
abbrev SUP_OTP_STATUS_OTP_OK : Field := ⟨0x00001024, 0, 0⟩
abbrev SUP_OTP_CMD : Field := ⟨0x00001028, 1, 0⟩
abbrev SUP_OTP_CMD_OP : Field := ⟨0x00001028, 1, 0⟩
abbrev SUP_FLASH_CTL_BUSY : Field := ⟨0x00001040, 31, 31⟩
abbrev SUP_FLASH_CTL_ERR : Field := ⟨0x00001040, 23, 16⟩
abbrev SUP_FLASH_CTL_OP : Field := ⟨0x00001040, 3, 0⟩
abbrev SUP_FLASH_ADDR : Field := ⟨0x00001044, 31, 0⟩
abbrev SUP_FLASH_ADDR_ADDR : Field := ⟨0x00001044, 31, 0⟩
abbrev SUP_FLASH_BUF (i : Nat) : Field := ⟨0x00001100 + 4 * i, 31, 0⟩
abbrev TE_TICK_LO : Field := ⟨0x01001000, 31, 0⟩
abbrev TE_TICK_LO_TICK : Field := ⟨0x01001000, 31, 0⟩
abbrev TE_TICK_HI : Field := ⟨0x01001004, 15, 0⟩
abbrev TE_TICK_HI_TICK : Field := ⟨0x01001004, 15, 0⟩
abbrev TE_OFFSET : Field := ⟨0x01001008, 31, 0⟩
abbrev TE_OFFSET_OFFSET : Field := ⟨0x01001008, 31, 0⟩
abbrev TE_CFG_RESERVE_PCT : Field := ⟨0x01001010, 29, 24⟩
abbrev TE_CFG_DOMAIN : Field := ⟨0x01001010, 23, 16⟩
abbrev TE_CFG_ROLE : Field := ⟨0x01001010, 13, 12⟩
abbrev TE_CFG_PPS_EN : Field := ⟨0x01001010, 9, 9⟩
abbrev TE_CFG_REF10_EN : Field := ⟨0x01001010, 8, 8⟩
abbrev TE_CFG_PROFILE : Field := ⟨0x01001010, 5, 4⟩
abbrev TE_CFG_PERIOD : Field := ⟨0x01001010, 2, 0⟩
abbrev TE_PTP_PORTS : Field := ⟨0x01001014, 31, 0⟩
abbrev TE_PTP_PORTS_PORTS : Field := ⟨0x01001014, 31, 0⟩
abbrev TE_LOCK_CFG_HOLDOVER_S : Field := ⟨0x01001018, 31, 16⟩
abbrev TE_LOCK_CFG_LOCK_NS : Field := ⟨0x01001018, 15, 0⟩
abbrev TE_STEP_CFG : Field := ⟨0x0100101C, 9, 0⟩
abbrev TE_STEP_CFG_STEP_LIMIT_MS : Field := ⟨0x0100101C, 9, 0⟩
abbrev TE_WINDOW_CFG : Field := ⟨0x01001020, 12, 0⟩
abbrev TE_WINDOW_CFG_LEAD_NS : Field := ⟨0x01001020, 12, 0⟩
abbrev TE_SYNC_STATE_PORT : Field := ⟨0x01001030, 23, 16⟩
abbrev TE_SYNC_STATE_GM_INDEX : Field := ⟨0x01001030, 11, 10⟩
abbrev TE_SYNC_STATE_PPS_OK : Field := ⟨0x01001030, 9, 9⟩
abbrev TE_SYNC_STATE_REF10_OK : Field := ⟨0x01001030, 8, 8⟩
abbrev TE_SYNC_STATE_MEDIA_RUN : Field := ⟨0x01001030, 4, 4⟩
abbrev TE_SYNC_STATE_STATE : Field := ⟨0x01001030, 2, 0⟩
abbrev TE_PTP_OFFSET : Field := ⟨0x01001034, 31, 0⟩
abbrev TE_PTP_OFFSET_OFFSET : Field := ⟨0x01001034, 31, 0⟩
abbrev TE_FREQ_ADJ : Field := ⟨0x01001038, 31, 0⟩
abbrev TE_FREQ_ADJ_PPB : Field := ⟨0x01001038, 31, 0⟩
abbrev TE_CTL : Field := ⟨0x0100103C, 0, 0⟩
abbrev TE_CTL_RESTEP : Field := ⟨0x0100103C, 0, 0⟩
abbrev TE_GM_ID (i : Nat) : Field := ⟨0x01001040 + 8 * i, 63, 0⟩
abbrev TE_GM_ID_CLOCK_ID (i : Nat) : Field := ⟨0x01001040 + 8 * i, 63, 0⟩
abbrev TE_PTP_DISCARD : Field := ⟨0x01001060, 31, 0⟩
abbrev TE_ADMIT_CMD_OP : Field := ⟨0x01001100, 31, 28⟩
abbrev TE_ADMIT_CMD_ID : Field := ⟨0x01001100, 15, 0⟩
abbrev TE_ADMIT_TICK : Field := ⟨0x01001108, 47, 0⟩
abbrev TE_ADMIT_TICK_TICK : Field := ⟨0x01001108, 47, 0⟩
abbrev TE_ADMIT_STATUS_BUSY : Field := ⟨0x01001110, 31, 31⟩
abbrev TE_ADMIT_STATUS_ROW : Field := ⟨0x01001110, 23, 16⟩
abbrev TE_ADMIT_STATUS_RESULT : Field := ⟨0x01001110, 3, 0⟩
abbrev TE_LEDGER_CAP (i : Nat) : Field := ⟨0x01001200 + 4 * i, 31, 0⟩
abbrev TE_LEDGER_CAP_CAP (i : Nat) : Field := ⟨0x01001200 + 4 * i, 31, 0⟩
abbrev TE_LEDGER_USED (i : Nat) : Field := ⟨0x01001300 + 4 * i, 31, 0⟩
abbrev TE_LEDGER_USED_USED (i : Nat) : Field := ⟨0x01001300 + 4 * i, 31, 0⟩
abbrev TE_LATE : Field := ⟨0x01001400, 63, 0⟩
abbrev TE_EARLY : Field := ⟨0x01001408, 63, 0⟩
abbrev TE_FUTURE : Field := ⟨0x01001410, 63, 0⟩
abbrev TE_INCOMPLETE : Field := ⟨0x01001418, 63, 0⟩
abbrev TE_OVERRUN : Field := ⟨0x01001420, 63, 0⟩
abbrev TE_UNADMITTED : Field := ⟨0x01001428, 63, 0⟩
abbrev PCU_EME_CFG_ETYPE : Field := ⟨0x03001000, 31, 16⟩
abbrev PCU_EME_CFG_UDP_PORT : Field := ⟨0x03001000, 15, 0⟩
abbrev PCU_TBL_VERSION : Field := ⟨0x03001004, 15, 0⟩
abbrev PCU_TBL_VERSION_CUR : Field := ⟨0x03001004, 15, 0⟩
abbrev PCU_TBL_CTL_BUSY : Field := ⟨0x03001008, 31, 31⟩
abbrev PCU_TBL_CTL_LOST : Field := ⟨0x03001008, 8, 8⟩
abbrev PCU_TBL_CTL_COMMIT : Field := ⟨0x03001008, 0, 0⟩
abbrev PCU_TBL_STATUS_RESULT : Field := ⟨0x0300100C, 31, 28⟩
abbrev PCU_TBL_STATUS_ERR_FUNC : Field := ⟨0x0300100C, 11, 0⟩
abbrev PCU_TBL_COMMIT_TICK : Field := ⟨0x03001010, 47, 0⟩
abbrev PCU_TBL_COMMIT_TICK_TICK : Field := ⟨0x03001010, 47, 0⟩
abbrev PCU_HOST_COPY_RING : Field := ⟨0x03001018, 16, 0⟩
abbrev PCU_HOST_COPY_RING_RING : Field := ⟨0x03001018, 16, 0⟩
abbrev PCU_COPY_LIMIT_SUP_PER_TICK : Field := ⟨0x0300101C, 31, 16⟩
abbrev PCU_COPY_LIMIT_HOST_PER_TICK : Field := ⟨0x0300101C, 15, 0⟩
abbrev PCU_MIRROR_SESS_EN (i : Nat) : Field := ⟨0x03001040 + 4 * i, 31, 31⟩
abbrev PCU_MIRROR_SESS_DKIND (i : Nat) : Field := ⟨0x03001040 + 4 * i, 30, 30⟩
abbrev PCU_MIRROR_SESS_TC (i : Nat) : Field := ⟨0x03001040 + 4 * i, 29, 27⟩
abbrev PCU_MIRROR_SESS_DEST (i : Nat) : Field := ⟨0x03001040 + 4 * i, 16, 0⟩
abbrev PCU_SRC_VRF (i : Nat) : Field := ⟨0x03001400 + 4 * i, 11, 0⟩
abbrev PCU_SRC_VRF_VRF (i : Nat) : Field := ⟨0x03001400 + 4 * i, 11, 0⟩
abbrev PCU_PARSE_ERR (i : Nat) : Field := ⟨0x03001100 + 8 * i, 63, 0⟩
abbrev PCU_EME_BAD_VERSION : Field := ⟨0x03001128, 63, 0⟩
abbrev PCU_NO_MATCH : Field := ⟨0x03001130, 63, 0⟩
abbrev PCU_COPY_DROP : Field := ⟨0x03001138, 63, 0⟩
abbrev PCU_REPLICA_FIX : Field := ⟨0x03001140, 63, 0⟩
abbrev PCU_REORDER_HWM (i : Nat) : Field := ⟨0x03001200 + 4 * i, 12, 0⟩
abbrev PCU_REORDER_HWM_HWM (i : Nat) : Field := ⟨0x03001200 + 4 * i, 12, 0⟩
abbrev FTU_AGE_CFG_AGE_EN : Field := ⟨0x04001000, 31, 31⟩
abbrev FTU_AGE_CFG_AGE_UNIT_MS : Field := ⟨0x04001000, 25, 16⟩
abbrev FTU_AGE_CFG_AGE_LIMIT : Field := ⟨0x04001000, 10, 0⟩
abbrev FTU_AGE_NOW : Field := ⟨0x04001004, 11, 0⟩
abbrev FTU_AGE_NOW_NOW : Field := ⟨0x04001004, 11, 0⟩
abbrev FTU_LPM_OP_ADDR (i : Nat) : Field := ⟨0x04001100 + 4 * i, 31, 0⟩
abbrev FTU_LPM_OP_ADDR_ADDR (i : Nat) : Field := ⟨0x04001100 + 4 * i, 31, 0⟩
abbrev FTU_LPM_OP_KEY_FAM : Field := ⟨0x04001110, 31, 31⟩
abbrev FTU_LPM_OP_KEY_LEN : Field := ⟨0x04001110, 23, 16⟩
abbrev FTU_LPM_OP_KEY_VRF : Field := ⟨0x04001110, 11, 0⟩
abbrev FTU_LPM_OP_DATA : Field := ⟨0x04001114, 15, 0⟩
abbrev FTU_LPM_OP_DATA_NH : Field := ⟨0x04001114, 15, 0⟩
abbrev FTU_LPM_OP_CMD : Field := ⟨0x04001118, 31, 28⟩
abbrev FTU_LPM_OP_CMD_OP : Field := ⟨0x04001118, 31, 28⟩
abbrev FTU_LPM_OP_STATUS_BUSY : Field := ⟨0x0400111C, 31, 31⟩
abbrev FTU_LPM_OP_STATUS_STAGED_VALID : Field := ⟨0x0400111C, 30, 30⟩
abbrev FTU_LPM_OP_STATUS_COMMITTED_VALID : Field := ⟨0x0400111C, 29, 29⟩
abbrev FTU_LPM_OP_STATUS_RESULT : Field := ⟨0x0400111C, 3, 0⟩
abbrev FTU_MAC_OP_KEY_VLAN : Field := ⟨0x04001200, 59, 48⟩
abbrev FTU_MAC_OP_KEY_MAC : Field := ⟨0x04001200, 47, 0⟩
abbrev FTU_MAC_OP_DATA_KIND : Field := ⟨0x04001208, 31, 30⟩
abbrev FTU_MAC_OP_DATA_TARGET : Field := ⟨0x04001208, 16, 0⟩
abbrev FTU_MAC_OP_CMD_OP : Field := ⟨0x0400120C, 31, 28⟩
abbrev FTU_MAC_OP_CMD_PIPE : Field := ⟨0x0400120C, 27, 26⟩
abbrev FTU_MAC_OP_CMD_BY_VLAN : Field := ⟨0x0400120C, 25, 25⟩
abbrev FTU_MAC_OP_CMD_BY_PORT : Field := ⟨0x0400120C, 24, 24⟩
abbrev FTU_MAC_OP_CMD_PORT : Field := ⟨0x0400120C, 20, 16⟩
abbrev FTU_MAC_OP_STATUS_BUSY : Field := ⟨0x04001210, 31, 31⟩
abbrev FTU_MAC_OP_STATUS_ENTRY : Field := ⟨0x04001210, 27, 26⟩
abbrev FTU_MAC_OP_STATUS_AGE : Field := ⟨0x04001210, 23, 12⟩
abbrev FTU_MAC_OP_STATUS_RESULT : Field := ⟨0x04001210, 3, 0⟩
abbrev FTU_PORT_CFG_LEARN_EN (i : Nat) : Field := ⟨0x04001300 + 4 * i, 31, 31⟩
abbrev FTU_PORT_CFG_AUTO_FLUSH (i : Nat) : Field := ⟨0x04001300 + 4 * i, 30, 30⟩
abbrev FTU_PORT_CFG_STATIC_MOVE_DROP (i : Nat) : Field := ⟨0x04001300 + 4 * i, 29, 29⟩
abbrev FTU_LPM_SLOTS : Field := ⟨0x04001400, 20, 0⟩
abbrev FTU_MAC_STATIC_SLOTS : Field := ⟨0x04001404, 20, 0⟩
abbrev FTU_MAC_LEARNED (i : Nat) : Field := ⟨0x04001408 + 4 * i, 20, 0⟩
abbrev FTU_CHANGES : Field := ⟨0x04001418, 20, 0⟩
abbrev FTU_LPM_MISS : Field := ⟨0x04001500, 63, 0⟩
abbrev FTU_RECIRC : Field := ⟨0x04001508, 63, 0⟩
abbrev FTU_BAD_LOOKUP : Field := ⟨0x04001510, 63, 0⟩
abbrev FTU_MAC_MISS : Field := ⟨0x04001518, 63, 0⟩
abbrev FTU_MAC_MOVE : Field := ⟨0x04001520, 63, 0⟩
abbrev FTU_STATIC_MOVE : Field := ⟨0x04001528, 63, 0⟩
abbrev FTU_LEARN_FULL : Field := ⟨0x04001530, 63, 0⟩
abbrev FTU_AGED : Field := ⟨0x04001538, 63, 0⟩
abbrev FTU_SHADOW_FIX : Field := ⟨0x04001540, 63, 0⟩
abbrev FTU_ECC_DROP : Field := ⟨0x04001548, 63, 0⟩
abbrev FPU_FREE : Field := ⟨0x06001000, 18, 0⟩
abbrev FPU_FREE_FREE : Field := ⟨0x06001000, 18, 0⟩
abbrev FPU_MISUSE_LAST_KIND : Field := ⟨0x06001004, 31, 30⟩
abbrev FPU_MISUSE_LAST_CELL : Field := ⟨0x06001004, 18, 0⟩
abbrev FPU_PLEACH_STATUS : Field := ⟨0x06001008, 19, 0⟩
abbrev FPU_PLEACH_STATUS_LAST_DONE : Field := ⟨0x06001008, 19, 0⟩
abbrev FPU_CLASS_CFG_MAX (i : Nat) : Field := ⟨0x06001040 + 4 * i, 31, 16⟩
abbrev FPU_CLASS_CFG_MIN (i : Nat) : Field := ⟨0x06001040 + 4 * i, 15, 0⟩
abbrev FPU_AUDIT_FREE : Field := ⟨0x06001100, 18, 0⟩
abbrev FPU_AUDIT_FREE_CELLS : Field := ⟨0x06001100, 18, 0⟩
abbrev FPU_AUDIT_QUEUED : Field := ⟨0x06001104, 18, 0⟩
abbrev FPU_AUDIT_QUEUED_CELLS : Field := ⟨0x06001104, 18, 0⟩
abbrev FPU_AUDIT_TRANSIT : Field := ⟨0x06001108, 18, 0⟩
abbrev FPU_AUDIT_TRANSIT_CELLS : Field := ⟨0x06001108, 18, 0⟩
abbrev FPU_AUDIT_STATUS_OK : Field := ⟨0x0600110C, 31, 31⟩
abbrev FPU_AUDIT_STATUS_FAIL : Field := ⟨0x0600110C, 30, 30⟩
abbrev FPU_AUDIT_STATUS_BOOKS : Field := ⟨0x0600110C, 29, 27⟩
abbrev FPU_AUDIT_STATUS_CONSEC : Field := ⟨0x0600110C, 23, 16⟩
abbrev FPU_AUDIT_TICK : Field := ⟨0x06001110, 47, 0⟩
abbrev FPU_AUDIT_TICK_TICK : Field := ⟨0x06001110, 47, 0⟩
abbrev FPU_DOUBLE_FREE : Field := ⟨0x06001200, 63, 0⟩
abbrev FPU_FOREIGN_FREE : Field := ⟨0x06001208, 63, 0⟩
abbrev FPU_PUSHOUT : Field := ⟨0x06001210, 63, 0⟩
abbrev FPU_TAIL_DROP : Field := ⟨0x06001218, 63, 0⟩
abbrev FPU_MEDIA_NOCELL : Field := ⟨0x06001220, 63, 0⟩
abbrev FPU_LEAK_FIX : Field := ⟨0x06001228, 63, 0⟩
abbrev FPU_AUDIT_FAIL : Field := ⟨0x06001230, 63, 0⟩
abbrev FPU_LIST_LOCKED : Field := ⟨0x06001238, 63, 0⟩
abbrev FPU_BAD_LIST : Field := ⟨0x06001240, 63, 0⟩
abbrev FPU_PLEACH_UNFORMED : Field := ⟨0x06001248, 63, 0⟩
abbrev FPU_VF_GAIN_TERM (v : Nat) : Field := ⟨0x20009400 + 0x10000 * v, 48, 32⟩
abbrev FPU_VF_GAIN_GAIN (v : Nat) : Field := ⟨0x20009400 + 0x10000 * v, 24, 0⟩
abbrev FPU_VF_GAIN_REFUSED (v : Nat) : Field := ⟨0x20009408 + 0x10000 * v, 31, 0⟩
abbrev EGU_GUARD_MAP_SPK (i : Nat) : Field := ⟨0x07100000 + 4 * i, 31, 31⟩
abbrev EGU_GUARD_MAP_CLASS (i : Nat) : Field := ⟨0x07100000 + 4 * i, 30, 29⟩
abbrev EGU_GUARD_MAP_PROFILE (i : Nat) : Field := ⟨0x07100000 + 4 * i, 5, 0⟩
abbrev EGU_GUARD_PEAK (i : Nat) : Field := ⟨0x07008000 + 16 * i, 22, 0⟩
abbrev EGU_GUARD_PEAK_PEAK_LIMIT (i : Nat) : Field := ⟨0x07008000 + 16 * i, 22, 0⟩
abbrev EGU_GUARD_DC (i : Nat) : Field := ⟨0x07008004 + 16 * i, 22, 0⟩
abbrev EGU_GUARD_DC_DC_LIMIT (i : Nat) : Field := ⟨0x07008004 + 16 * i, 22, 0⟩
abbrev EGU_GUARD_STUCK_DC_N (i : Nat) : Field := ⟨0x07008008 + 16 * i, 26, 16⟩
abbrev EGU_GUARD_STUCK_STUCK_K (i : Nat) : Field := ⟨0x07008008 + 16 * i, 15, 0⟩
abbrev EGU_GUARD_POLICY_REARM_AUTO (i : Nat) : Field := ⟨0x0700800C + 16 * i, 31, 31⟩
abbrev EGU_GUARD_POLICY_REARM_M (i : Nat) : Field := ⟨0x0700800C + 16 * i, 30, 16⟩
abbrev EGU_GUARD_POLICY_RAMP_R (i : Nat) : Field := ⟨0x0700800C + 16 * i, 12, 0⟩
abbrev EGU_GUARD_CMD_OP : Field := ⟨0x07008400, 31, 28⟩
abbrev EGU_GUARD_CMD_FLOW : Field := ⟨0x07008400, 15, 0⟩
abbrev EGU_GUARD_CH_MASK : Field := ⟨0x07008408, 63, 0⟩
abbrev EGU_GUARD_CH_MASK_MASK : Field := ⟨0x07008408, 63, 0⟩
abbrev EGU_GUARD_STATUS_BUSY : Field := ⟨0x07008410, 31, 31⟩
abbrev EGU_GUARD_STATUS_FAILED : Field := ⟨0x07008410, 30, 30⟩
abbrev EGU_GUARD_STATUS_RESULT : Field := ⟨0x07008410, 3, 0⟩
abbrev EGU_GUARD_Q_OFF : Field := ⟨0x07008418, 63, 0⟩
abbrev EGU_GUARD_Q_OFF_CHANNELS : Field := ⟨0x07008418, 63, 0⟩
abbrev EGU_GUARD_Q_DISAGREE : Field := ⟨0x07008420, 63, 0⟩
abbrev EGU_GUARD_Q_DISAGREE_CHANNELS : Field := ⟨0x07008420, 63, 0⟩
abbrev EGU_OVR_STATUS_ACTIVE : Field := ⟨0x07008500, 4, 4⟩
abbrev EGU_OVR_STATUS_REMOTE : Field := ⟨0x07008500, 3, 3⟩
abbrev EGU_OVR_STATUS_LOCAL : Field := ⟨0x07008500, 2, 2⟩
abbrev EGU_OVR_STATUS_PIN_B : Field := ⟨0x07008500, 1, 1⟩
abbrev EGU_OVR_STATUS_PIN_A : Field := ⟨0x07008500, 0, 0⟩
abbrev EGU_OVR_CFG_REMOTE_EN : Field := ⟨0x07008504, 31, 31⟩
abbrev EGU_OVR_CFG_REMOTE_TICKS : Field := ⟨0x07008504, 27, 16⟩
abbrev EGU_OVR_CFG_RELEASE_MS : Field := ⟨0x07008504, 15, 0⟩
abbrev EGU_OVR_CTL : Field := ⟨0x07008508, 0, 0⟩
abbrev EGU_OVR_CTL_FORCE : Field := ⟨0x07008508, 0, 0⟩
abbrev EGU_SIDEBAND_AMP_HOLD : Field := ⟨0x07008600, 16, 16⟩
abbrev EGU_SIDEBAND_GPIO : Field := ⟨0x07008600, 15, 0⟩
abbrev EGU_GUARD_TRIPS : Field := ⟨0x07008700, 63, 0⟩
abbrev EGU_GUARD_DISAGREES : Field := ⟨0x07008708, 63, 0⟩
abbrev EGU_LIMIT_REFUSED : Field := ⟨0x07008710, 63, 0⟩
abbrev EGU_OVR_ACTIVATIONS : Field := ⟨0x07008718, 63, 0⟩
abbrev EGU_GATE_CTL_BUSY : Field := ⟨0x07001100, 31, 31⟩
abbrev EGU_GATE_CTL_LOST : Field := ⟨0x07001100, 8, 8⟩
abbrev EGU_GATE_CTL_COMMIT : Field := ⟨0x07001100, 0, 0⟩
abbrev EGU_GATE_COMMIT_TICK : Field := ⟨0x07001108, 47, 0⟩
abbrev EGU_GATE_COMMIT_TICK_TICK : Field := ⟨0x07001108, 47, 0⟩
abbrev EGU_GATE_STATUS_RESULT : Field := ⟨0x07001110, 31, 28⟩
abbrev EGU_GATE_STATUS_ERR_PORT : Field := ⟨0x07001110, 4, 0⟩
abbrev EGU_SRC_POLICER_EN (i : Nat) : Field := ⟨0x07001200 + 4 * i, 31, 31⟩
abbrev EGU_SRC_POLICER_POLICER (i : Nat) : Field := ⟨0x07001200 + 4 * i, 13, 0⟩
abbrev EGU_CBS_SLOPE (i : Nat) : Field := ⟨0x07002000 + 4 * i, 18, 0⟩
abbrev EGU_CBS_SLOPE_IDLE_SLOPE (i : Nat) : Field := ⟨0x07002000 + 4 * i, 18, 0⟩
abbrev EGU_CBS_LIMIT_HI_CREDIT (i : Nat) : Field := ⟨0x07002400 + 4 * i, 31, 16⟩
abbrev EGU_CBS_LIMIT_LO_CREDIT (i : Nat) : Field := ⟨0x07002400 + 4 * i, 15, 0⟩
abbrev EGU_CBS_CREDIT (i : Nat) : Field := ⟨0x07002800 + 4 * i, 31, 0⟩
abbrev EGU_CBS_CREDIT_CREDIT (i : Nat) : Field := ⟨0x07002800 + 4 * i, 31, 0⟩
abbrev EGU_TELEM_BASE : Field := ⟨0x07001300, 63, 12⟩
abbrev EGU_TELEM_BASE_ADDR : Field := ⟨0x07001300, 63, 12⟩
abbrev EGU_TELEM_CFG_EN : Field := ⟨0x07001308, 31, 31⟩
abbrev EGU_TELEM_CFG_LOG2_SIZE : Field := ⟨0x07001308, 27, 24⟩
abbrev EGU_TELEM_PORTS : Field := ⟨0x0700130C, 31, 0⟩
abbrev EGU_TELEM_PORTS_PORTS : Field := ⟨0x0700130C, 31, 0⟩
abbrev EGU_TELEM_PROD : Field := ⟨0x07001310, 31, 0⟩
abbrev EGU_TELEM_PROD_PROD : Field := ⟨0x07001310, 31, 0⟩
abbrev EGU_TELEM_CONS : Field := ⟨0x07001314, 31, 0⟩
abbrev EGU_TELEM_CONS_CONS : Field := ⟨0x07001314, 31, 0⟩
abbrev EGU_FLUSHED : Field := ⟨0x07001400, 63, 0⟩
abbrev EGU_GATE_DROP : Field := ⟨0x07001408, 63, 0⟩
abbrev EGU_POL_YELLOW : Field := ⟨0x07001410, 63, 0⟩
abbrev EGU_POL_RED : Field := ⟨0x07001418, 63, 0⟩
abbrev EGU_TELEM_OVERFLOW : Field := ⟨0x07001420, 63, 0⟩
abbrev EGU_TELEM_LOST : Field := ⟨0x07001428, 63, 0⟩
abbrev EGU_MAP_REFUSED : Field := ⟨0x07001430, 63, 0⟩
abbrev RTU_PROG_CMD_OP : Field := ⟨0x05001000, 31, 28⟩
abbrev RTU_PROG_CMD_INDEX : Field := ⟨0x05001000, 14, 0⟩
abbrev RTU_PROG_STATUS_BUSY : Field := ⟨0x05001004, 31, 31⟩
abbrev RTU_PROG_STATUS_RESULT : Field := ⟨0x05001004, 3, 0⟩
abbrev RTU_PROG_BUF (i : Nat) : Field := ⟨0x05001100 + 4 * i, 31, 0⟩
abbrev RTU_TTL_EXPIRED : Field := ⟨0x05001200, 63, 0⟩
abbrev RTU_MTU_DROP : Field := ⟨0x05001208, 63, 0⟩
abbrev RTU_DECAP_DROP : Field := ⟨0x05001210, 63, 0⟩
abbrev RTU_BAD_PROG : Field := ⟨0x05001218, 63, 0⟩
abbrev RTU_PROG_LOCKED : Field := ⟨0x05001220, 63, 0⟩
abbrev CKU_KEY_CMD_OP : Field := ⟨0x08001000, 31, 28⟩
abbrev CKU_KEY_CMD_SLOT : Field := ⟨0x08001000, 15, 0⟩
abbrev CKU_KEY_ARG_LEN : Field := ⟨0x08001004, 30, 24⟩
abbrev CKU_KEY_ARG_KEK : Field := ⟨0x08001004, 19, 16⟩
abbrev CKU_KEY_ARG_FUNC : Field := ⟨0x08001004, 11, 0⟩
abbrev CKU_KEY_TICK : Field := ⟨0x08001008, 47, 0⟩
abbrev CKU_KEY_TICK_TICK : Field := ⟨0x08001008, 47, 0⟩
abbrev CKU_KEY_STATUS_BUSY : Field := ⟨0x08001010, 31, 31⟩
abbrev CKU_KEY_STATUS_RESULT : Field := ⟨0x08001010, 3, 0⟩
abbrev CKU_KEK_STATE : Field := ⟨0x08001020, 15, 0⟩
abbrev CKU_KEK_STATE_LOADED : Field := ⟨0x08001020, 15, 0⟩
abbrev CKU_KEY_BUF (i : Nat) : Field := ⟨0x08001100 + 4 * i, 31, 0⟩
abbrev CKU_DEV_PUB (i : Nat) : Field := ⟨0x08001200 + 4 * i, 31, 0⟩
abbrev CKU_MSEC_PORT_EN (i : Nat) : Field := ⟨0x08001400 + 4 * i, 31, 31⟩
abbrev CKU_MSEC_PORT_UNCTRL (i : Nat) : Field := ⟨0x08001400 + 4 * i, 30, 30⟩
abbrev CKU_MSEC_PORT_THRESH_LOG2 (i : Nat) : Field := ⟨0x08001400 + 4 * i, 29, 24⟩
abbrev CKU_MSEC_PORT_TX_SA (i : Nat) : Field := ⟨0x08001400 + 4 * i, 13, 0⟩
abbrev CKU_AUTH_FAIL : Field := ⟨0x08001500, 63, 0⟩
abbrev CKU_REPLAY_DROP : Field := ⟨0x08001508, 63, 0⟩
abbrev CKU_NO_SA : Field := ⟨0x08001510, 63, 0⟩
abbrev CKU_KEY_EMPTY : Field := ⟨0x08001518, 63, 0⟩
abbrev CKU_NONCE_REFUSED : Field := ⟨0x08001520, 63, 0⟩
abbrev CKU_LENGTH_ERR : Field := ⟨0x08001528, 63, 0⟩
abbrev CKU_PN_EXHAUSTED : Field := ⟨0x08001530, 63, 0⟩
abbrev CKU_SA_REFUSED : Field := ⟨0x08001538, 63, 0⟩
abbrev CKU_UNTAGGED_DROP : Field := ⟨0x08001540, 63, 0⟩
abbrev PXC_QUAD_CFG_TX_POL (i : Nat) : Field := ⟨0x02001000 + 4 * i, 27, 24⟩
abbrev PXC_QUAD_CFG_RX_POL (i : Nat) : Field := ⟨0x02001000 + 4 * i, 23, 20⟩
abbrev PXC_QUAD_CFG_LANE_ORDER (i : Nat) : Field := ⟨0x02001000 + 4 * i, 19, 12⟩
abbrev PXC_QUAD_CFG_MODE (i : Nat) : Field := ⟨0x02001000 + 4 * i, 2, 0⟩
abbrev PXC_PORT_CFG_SPEED (i : Nat) : Field := ⟨0x02001100 + 4 * i, 31, 28⟩
abbrev PXC_PORT_CFG_FEC (i : Nat) : Field := ⟨0x02001100 + 4 * i, 27, 26⟩
abbrev PXC_PORT_CFG_CT_BASE (i : Nat) : Field := ⟨0x02001100 + 4 * i, 23, 21⟩
abbrev PXC_PORT_CFG_MTU (i : Nat) : Field := ⟨0x02001100 + 4 * i, 13, 0⟩
abbrev PXC_PORT_STATUS_CLASS_PAUSED (i : Nat) : Field := ⟨0x02001200 + 4 * i, 31, 24⟩
abbrev PXC_PORT_STATUS_PORT_PAUSED (i : Nat) : Field := ⟨0x02001200 + 4 * i, 23, 23⟩
abbrev PXC_PORT_STATUS_CT_STEP (i : Nat) : Field := ⟨0x02001200 + 4 * i, 22, 20⟩
abbrev PXC_PORT_STATUS_OBS_POL (i : Nat) : Field := ⟨0x02001200 + 4 * i, 19, 16⟩
abbrev PXC_PORT_STATUS_REASON (i : Nat) : Field := ⟨0x02001200 + 4 * i, 11, 8⟩
abbrev PXC_PORT_STATUS_STATE (i : Nat) : Field := ⟨0x02001200 + 4 * i, 2, 0⟩
abbrev PXC_VLAN_CFG_RX_STRIP (i : Nat) : Field := ⟨0x02001300 + 4 * i, 31, 31⟩
abbrev PXC_VLAN_CFG_STAG (i : Nat) : Field := ⟨0x02001300 + 4 * i, 30, 30⟩
abbrev PXC_VLAN_CFG_EG_TAG (i : Nat) : Field := ⟨0x02001300 + 4 * i, 29, 28⟩
abbrev PXC_VLAN_CFG_MEDIA_PCP (i : Nat) : Field := ⟨0x02001300 + 4 * i, 26, 24⟩
abbrev PXC_VLAN_CFG_DEF_PCP (i : Nat) : Field := ⟨0x02001300 + 4 * i, 22, 20⟩
abbrev PXC_VLAN_CFG_PVID (i : Nat) : Field := ⟨0x02001300 + 4 * i, 11, 0⟩
abbrev PXC_PCP_MAP (i : Nat) : Field := ⟨0x02001400 + 4 * i, 23, 0⟩
abbrev PXC_PCP_MAP_PCP (i : Nat) : Field := ⟨0x02001400 + 4 * i, 23, 0⟩
abbrev PXC_PAUSE_CFG_MODE (i : Nat) : Field := ⟨0x02001500 + 4 * i, 31, 30⟩
abbrev PXC_PAUSE_CFG_WD_US (i : Nat) : Field := ⟨0x02001500 + 4 * i, 29, 12⟩
abbrev PXC_PAUSE_CFG_HOLDOFF_MS (i : Nat) : Field := ⟨0x02001500 + 4 * i, 11, 0⟩
abbrev PXC_PTP_ASYM (i : Nat) : Field := ⟨0x02001600 + 4 * i, 31, 0⟩
abbrev PXC_PTP_ASYM_ASYM_NS (i : Nat) : Field := ⟨0x02001600 + 4 * i, 31, 0⟩
abbrev PXC_LINK_CFG_UP_HOLD_MS : Field := ⟨0x02001700, 31, 16⟩
abbrev PXC_LINK_CFG_FAULT_US : Field := ⟨0x02001700, 15, 0⟩
abbrev PXC_STATS_CTL_BUSY : Field := ⟨0x02001800, 31, 31⟩
abbrev PXC_STATS_CTL_TICK_ALIGN : Field := ⟨0x02001800, 1, 1⟩
abbrev PXC_STATS_CTL_SNAP : Field := ⟨0x02001800, 0, 0⟩
abbrev PXC_STATS_PORTS : Field := ⟨0x02001804, 31, 0⟩
abbrev PXC_STATS_PORTS_PORTS : Field := ⟨0x02001804, 31, 0⟩
abbrev PXC_STATS_SNAP_TICK : Field := ⟨0x02001808, 47, 0⟩
abbrev PXC_STATS_SNAP_TICK_TICK : Field := ⟨0x02001808, 47, 0⟩
abbrev PXC_STATS_SNAP_OFFSET : Field := ⟨0x02001810, 31, 0⟩
abbrev PXC_STATS_SNAP_OFFSET_OFFSET : Field := ⟨0x02001810, 31, 0⟩
abbrev SUP_MGMT_CFG_REG_EN : Field := ⟨0x00001300, 31, 31⟩
abbrev SUP_MGMT_CFG_MODE : Field := ⟨0x00001300, 1, 0⟩
abbrev SUP_MGMT_STATUS_UP : Field := ⟨0x00001304, 31, 31⟩
abbrev SUP_MGMT_STATUS_REASON : Field := ⟨0x00001304, 11, 8⟩
abbrev SUP_MGMT_MAC : Field := ⟨0x00001308, 47, 0⟩
abbrev SUP_MGMT_MAC_MAC : Field := ⟨0x00001308, 47, 0⟩
abbrev HGC_CFG_ROLE : Field := ⟨0x09001000, 31, 30⟩
abbrev HGC_CFG_PARTY : Field := ⟨0x09001000, 29, 28⟩
abbrev HGC_CFG_FALLBACK_TX : Field := ⟨0x09001000, 27, 27⟩
abbrev HGC_CFG_PINS_EN : Field := ⟨0x09001000, 26, 26⟩
abbrev HGC_CFG_LEASE_L : Field := ⟨0x09001000, 22, 16⟩
abbrev HGC_CFG_PAIR_ID : Field := ⟨0x09001000, 15, 0⟩
abbrev HGC_TIMING_GAP_G : Field := ⟨0x09001004, 31, 28⟩
abbrev HGC_TIMING_WIT_KEK : Field := ⟨0x09001004, 27, 24⟩
abbrev HGC_TIMING_REQ_SLOT : Field := ⟨0x09001004, 12, 0⟩
abbrev HGC_SELF_ID : Field := ⟨0x09001008, 47, 0⟩
abbrev HGC_SELF_ID_ID : Field := ⟨0x09001008, 47, 0⟩
abbrev HGC_PARTNER_ID : Field := ⟨0x09001010, 47, 0⟩
abbrev HGC_PARTNER_ID_ID : Field := ⟨0x09001010, 47, 0⟩
abbrev HGC_WITNESS_ID : Field := ⟨0x09001018, 47, 0⟩
abbrev HGC_WITNESS_ID_ID : Field := ⟨0x09001018, 47, 0⟩
abbrev HGC_WIT_PATH_EN (i : Nat) : Field := ⟨0x09001020 + 8 * i, 63, 63⟩
abbrev HGC_WIT_PATH_PORT (i : Nat) : Field := ⟨0x09001020 + 8 * i, 60, 56⟩
abbrev HGC_WIT_PATH_DST_MAC (i : Nat) : Field := ⟨0x09001020 + 8 * i, 47, 0⟩
abbrev HGC_STATE_EPOCH : Field := ⟨0x09001040, 31, 24⟩
abbrev HGC_STATE_AGREED_VER : Field := ⟨0x09001040, 23, 16⟩
abbrev HGC_STATE_NOT_FIT : Field := ⟨0x09001040, 15, 10⟩
abbrev HGC_STATE_LINK_UP : Field := ⟨0x09001040, 9, 9⟩
abbrev HGC_STATE_FENCE_CAUSE : Field := ⟨0x09001040, 7, 4⟩
abbrev HGC_STATE_STATE : Field := ⟨0x09001040, 2, 0⟩
abbrev HGC_LEASE_END : Field := ⟨0x09001048, 47, 0⟩
abbrev HGC_LEASE_END_TICK : Field := ⟨0x09001048, 47, 0⟩
abbrev HGC_LAST_TX : Field := ⟨0x09001050, 47, 0⟩
abbrev HGC_LAST_TX_TICK : Field := ⟨0x09001050, 47, 0⟩
abbrev HGC_EPOCH_AON_VALID : Field := ⟨0x09001058, 8, 8⟩
abbrev HGC_EPOCH_AON_LAST_EPOCH : Field := ⟨0x09001058, 7, 0⟩
abbrev HGC_WIT_HWM : Field := ⟨0x09001060, 47, 0⟩
abbrev HGC_WIT_HWM_TICK : Field := ⟨0x09001060, 47, 0⟩
abbrev HGC_CTL_LAYER : Field := ⟨0x09001070, 3, 3⟩
abbrev HGC_CTL_HOLD : Field := ⟨0x09001070, 2, 2⟩
abbrev HGC_CTL_RELEASE : Field := ⟨0x09001070, 1, 1⟩
abbrev HGC_CTL_FENCE : Field := ⟨0x09001070, 0, 0⟩
abbrev HGC_CMD_SEQ : Field := ⟨0x09001078, 31, 0⟩
abbrev HGC_CMD_SEQ_SEQ : Field := ⟨0x09001078, 31, 0⟩
abbrev HGC_WIT_SENT : Field := ⟨0x09001100, 63, 0⟩
abbrev HGC_WIT_GRANTS : Field := ⟨0x09001108, 63, 0⟩
abbrev HGC_WIT_DENIES : Field := ⟨0x09001110, 63, 0⟩
abbrev HGC_WIT_BAD : Field := ⟨0x09001118, 63, 0⟩
abbrev HGC_SHADOW_MATCH : Field := ⟨0x09001120, 63, 0⟩
abbrev HGC_SHADOW_MISMATCH : Field := ⟨0x09001128, 63, 0⟩
abbrev HGC_SHADOW_EXCLUDED : Field := ⟨0x09001130, 63, 0⟩
abbrev HGC_SHADOW_MISSING : Field := ⟨0x09001138, 63, 0⟩
abbrev HGC_REPLAY_TICKS : Field := ⟨0x09001140, 63, 0⟩
abbrev HGC_REPLAY_DROPPED : Field := ⟨0x09001148, 63, 0⟩
abbrev HGC_LOCAL_REFUSED : Field := ⟨0x09001150, 63, 0⟩
abbrev HGC_TAKEOVERS : Field := ⟨0x09001158, 63, 0⟩
abbrev HIU_LINK_CFG_MAX_SPEED : Field := ⟨0x0A001000, 26, 24⟩
abbrev HIU_LINK_CFG_MAX_WIDTH : Field := ⟨0x0A001000, 20, 16⟩
abbrev HIU_LINK_CFG_MIN_SPEED : Field := ⟨0x0A001000, 10, 8⟩
abbrev HIU_LINK_CFG_MIN_WIDTH : Field := ⟨0x0A001000, 4, 0⟩
abbrev HIU_LINK_STATUS_UP : Field := ⟨0x0A001004, 31, 31⟩
abbrev HIU_LINK_STATUS_FLIT : Field := ⟨0x0A001004, 30, 30⟩
abbrev HIU_LINK_STATUS_BELOW_MIN : Field := ⟨0x0A001004, 29, 29⟩
abbrev HIU_LINK_STATUS_SPEED : Field := ⟨0x0A001004, 26, 24⟩
abbrev HIU_LINK_STATUS_WIDTH : Field := ⟨0x0A001004, 20, 16⟩
abbrev HIU_HOST_STATE_MODE : Field := ⟨0x0A001008, 31, 31⟩
abbrev HIU_HOST_STATE_CAUSE : Field := ⟨0x0A001008, 19, 16⟩
abbrev HIU_HOST_STATE_SESSION : Field := ⟨0x0A001008, 15, 0⟩
abbrev HIU_ADOPT : Field := ⟨0x0A00100C, 15, 0⟩
abbrev HIU_ADOPT_SESSION : Field := ⟨0x0A00100C, 15, 0⟩
abbrev HIU_WDOG_CFG_WDOG_EN : Field := ⟨0x0A001010, 31, 31⟩
abbrev HIU_WDOG_CFG_WDOG_MS : Field := ⟨0x0A001010, 15, 0⟩
abbrev HIU_WDOG_KICK : Field := ⟨0x0A001014, 31, 0⟩
abbrev HIU_WDOG_KICK_KICK : Field := ⟨0x0A001014, 31, 0⟩
abbrev HIU_STANDALONE_TICK : Field := ⟨0x0A001018, 47, 0⟩
abbrev HIU_STANDALONE_TICK_TICK : Field := ⟨0x0A001018, 47, 0⟩
abbrev HIU_TAG_CFG_VF_CAP : Field := ⟨0x0A001020, 28, 16⟩
abbrev HIU_TAG_CFG_WALK_RESERVE : Field := ⟨0x0A001020, 9, 0⟩
abbrev HIU_TAG_STATUS_LIMIT : Field := ⟨0x0A001024, 28, 16⟩
abbrev HIU_TAG_STATUS_OUTSTANDING : Field := ⟨0x0A001024, 12, 0⟩
abbrev HIU_TAG_HWM : Field := ⟨0x0A001028, 12, 0⟩
abbrev HIU_TAG_HWM_HWM : Field := ⟨0x0A001028, 12, 0⟩
abbrev HIU_INTX_STATUS : Field := ⟨0x0A001030, 0, 0⟩
abbrev HIU_INTX_STATUS_PENDING : Field := ⟨0x0A001030, 0, 0⟩
abbrev HIU_AUDIT_STATUS_OK : Field := ⟨0x0A001034, 31, 31⟩
abbrev HIU_AUDIT_STATUS_FAIL : Field := ⟨0x0A001034, 30, 30⟩
abbrev HIU_AUDIT_STATUS_BOOKS : Field := ⟨0x0A001034, 29, 28⟩
abbrev HIU_CPL_TIMEOUT : Field := ⟨0x0A001100, 63, 0⟩
abbrev HIU_CPL_ERROR : Field := ⟨0x0A001108, 63, 0⟩
abbrev HIU_LINK_LOST_REQ : Field := ⟨0x0A001110, 63, 0⟩
abbrev HIU_DMA_BLOCKED : Field := ⟨0x0A001118, 63, 0⟩
abbrev HIU_ADOPT_REFUSED : Field := ⟨0x0A001120, 63, 0⟩
abbrev HIU_STANDALONE_ENTRIES : Field := ⟨0x0A001128, 63, 0⟩
abbrev HIU_AUDIT_FAIL : Field := ⟨0x0A001130, 63, 0⟩
abbrev TTU_INV_CMD_SCOPE : Field := ⟨0x0B001000, 31, 28⟩
abbrev TTU_INV_CMD_LOG2_PAGES : Field := ⟨0x0B001000, 22, 18⟩
abbrev TTU_INV_CMD_FUNC : Field := ⟨0x0B001000, 11, 0⟩
abbrev TTU_INV_ADDR : Field := ⟨0x0B001008, 47, 12⟩
abbrev TTU_INV_ADDR_ADDR : Field := ⟨0x0B001008, 47, 12⟩
abbrev TTU_INV_CPL_ADDR : Field := ⟨0x0B001010, 63, 3⟩
abbrev TTU_INV_CPL_ADDR_ADDR : Field := ⟨0x0B001010, 63, 3⟩
abbrev TTU_INV_STATUS_BUSY : Field := ⟨0x0B001018, 31, 31⟩
abbrev TTU_INV_STATUS_DONE : Field := ⟨0x0B001018, 30, 30⟩
abbrev TTU_INV_STATUS_LOST : Field := ⟨0x0B001018, 29, 29⟩
abbrev TTU_INV_SEQ : Field := ⟨0x0B00101C, 31, 0⟩
abbrev TTU_INV_SEQ_SEQ : Field := ⟨0x0B00101C, 31, 0⟩
abbrev TTU_LOG_CMD_OP : Field := ⟨0x0B001100, 31, 28⟩
abbrev TTU_LOG_CMD_FUNC : Field := ⟨0x0B001100, 11, 0⟩
abbrev TTU_LOG_STATUS_BUSY : Field := ⟨0x0B001104, 31, 31⟩
abbrev TTU_LOG_STATUS_DONE : Field := ⟨0x0B001104, 30, 30⟩
abbrev TTU_LOG_STATUS_OUT_RANGE : Field := ⟨0x0B001104, 29, 29⟩
abbrev TTU_LOG_STATUS_RESULT : Field := ⟨0x0B001104, 3, 0⟩
abbrev TTU_POOL_CMD_OP : Field := ⟨0x0B001200, 31, 28⟩
abbrev TTU_POOL_CMD_KIND : Field := ⟨0x0B001200, 27, 24⟩
abbrev TTU_POOL_CMD_FUNC : Field := ⟨0x0B001200, 11, 0⟩
abbrev TTU_POOL_ARG : Field := ⟨0x0B001204, 31, 0⟩
abbrev TTU_POOL_ARG_ARG : Field := ⟨0x0B001204, 31, 0⟩
abbrev TTU_POOL_STATUS_BUSY : Field := ⟨0x0B001208, 31, 31⟩
abbrev TTU_POOL_STATUS_RESULT : Field := ⟨0x0B001208, 3, 0⟩
abbrev TTU_POOL_CAP (i : Nat) : Field := ⟨0x0B001240 + 4 * i, 31, 0⟩
abbrev TTU_POOL_CAP_CAP (i : Nat) : Field := ⟨0x0B001240 + 4 * i, 31, 0⟩
abbrev TTU_FAULT_LAST_KIND : Field := ⟨0x0B001300, 63, 60⟩
abbrev TTU_FAULT_LAST_FUNC : Field := ⟨0x0B001300, 59, 48⟩
abbrev TTU_FAULT_LAST_ADDR : Field := ⟨0x0B001300, 47, 0⟩
abbrev TTU_MBX_SEND : Field := ⟨0x0B002200, 11, 0⟩
abbrev TTU_MBX_SEND_VF : Field := ⟨0x0B002200, 11, 0⟩
abbrev TTU_MBX_ACK : Field := ⟨0x0B002204, 11, 0⟩
abbrev TTU_MBX_ACK_VF : Field := ⟨0x0B002204, 11, 0⟩
abbrev TTU_MBX_TO_PF (i : Nat) : Field := ⟨0x0B002000 + 4 * i, 31, 0⟩
abbrev TTU_MBX_TO_PF_PENDING (i : Nat) : Field := ⟨0x0B002000 + 4 * i, 31, 0⟩
abbrev TTU_MBX_TO_VF (i : Nat) : Field := ⟨0x0B002400 + 4 * i, 31, 0⟩
abbrev TTU_MBX_TO_VF_PENDING (i : Nat) : Field := ⟨0x0B002400 + 4 * i, 31, 0⟩
abbrev TTU_VF_MBX_ERR_LEN (v : Nat) : Field := ⟨0x20009000 + 0x10000 * v, 16, 16⟩
abbrev TTU_VF_MBX_TO_VF_PENDING (v : Nat) : Field := ⟨0x20009000 + 0x10000 * v, 9, 9⟩
abbrev TTU_VF_MBX_TO_PF_PENDING (v : Nat) : Field := ⟨0x20009000 + 0x10000 * v, 8, 8⟩
abbrev TTU_VF_MBX_ACK (v : Nat) : Field := ⟨0x20009000 + 0x10000 * v, 1, 1⟩
abbrev TTU_VF_MBX_SEND (v : Nat) : Field := ⟨0x20009000 + 0x10000 * v, 0, 0⟩
abbrev TTU_VF_FAULTS (v : Nat) : Field := ⟨0x20009008 + 0x10000 * v, 31, 0⟩
abbrev TTU_TLB_HIT : Field := ⟨0x0B001400, 63, 0⟩
abbrev TTU_TLB_MISS : Field := ⟨0x0B001408, 63, 0⟩
abbrev TTU_FAULTS : Field := ⟨0x0B001410, 63, 0⟩
abbrev TTU_LOG_OUTRANGE : Field := ⟨0x0B001418, 63, 0⟩
abbrev TTU_MBX_LOCKED : Field := ⟨0x0B001420, 63, 0⟩
abbrev TTU_CELL_DROP : Field := ⟨0x0B001428, 63, 0⟩
abbrev QE_PF_EVQ_EN (i : Nat) : Field := ⟨0x0C001000 + 4 * i, 31, 31⟩
abbrev QE_PF_EVQ_RING (i : Nat) : Field := ⟨0x0C001000 + 4 * i, 16, 0⟩
abbrev QE_ARB_ASEQ : Field := ⟨0x0C001040, 31, 0⟩
abbrev QE_ARB_ASEQ_ASEQ : Field := ⟨0x0C001040, 31, 0⟩
abbrev QE_DB_DISCARDED : Field := ⟨0x0C001100, 63, 0⟩
abbrev QE_REREADS : Field := ⟨0x0C001108, 63, 0⟩
abbrev QE_RX_NO_BUF : Field := ⟨0x0C001110, 63, 0⟩
abbrev QE_RX_TOO_BIG : Field := ⟨0x0C001118, 63, 0⟩
abbrev QE_RX_CQ_FULL : Field := ⟨0x0C001120, 63, 0⟩
abbrev QE_BAD_DESC : Field := ⟨0x0C001128, 63, 0⟩
abbrev QE_BUF_FAULT : Field := ⟨0x0C001130, 63, 0⟩
abbrev QE_EVT_NOQUEUE : Field := ⟨0x0C001138, 63, 0⟩
abbrev QE_ARB_LOST : Field := ⟨0x0C001140, 63, 0⟩
abbrev QE_VF_RING_SEL (v : Nat) : Field := ⟨0x20009100 + 0x10000 * v, 12, 0⟩
abbrev QE_VF_RING_SEL_DB (v : Nat) : Field := ⟨0x20009100 + 0x10000 * v, 12, 0⟩
abbrev QE_VF_EVQ_EN (v : Nat) : Field := ⟨0x20009108 + 0x10000 * v, 31, 31⟩
abbrev QE_VF_EVQ_RING (v : Nat) : Field := ⟨0x20009108 + 0x10000 * v, 16, 0⟩
abbrev SIE_CFG : Field := ⟨0x0D001000, 15, 0⟩
abbrev SIE_CFG_CMD_TIMEOUT_MS : Field := ⟨0x0D001000, 15, 0⟩
abbrev SIE_CONN_CMD_OP : Field := ⟨0x0D001100, 31, 28⟩
abbrev SIE_CONN_CMD_CONN : Field := ⟨0x0D001100, 12, 0⟩
abbrev SIE_CONN_STATUS_BUSY : Field := ⟨0x0D001104, 31, 31⟩
abbrev SIE_CONN_STATUS_RESULT : Field := ⟨0x0D001104, 30, 28⟩
abbrev SIE_CONN_STATUS_CONNECT_STATUS : Field := ⟨0x0D001104, 15, 0⟩
abbrev SIE_SLOT_CFG_POLICY : Field := ⟨0x0D001200, 31, 31⟩
abbrev SIE_SLOT_CFG_SPEED : Field := ⟨0x0D001200, 10, 8⟩
abbrev SIE_SLOT_CFG_WIDTH : Field := ⟨0x0D001200, 3, 0⟩
abbrev SIE_SLOT_CTL_ATTN_IND : Field := ⟨0x0D001204, 3, 3⟩
abbrev SIE_SLOT_CTL_REMOVE : Field := ⟨0x0D001204, 1, 1⟩
abbrev SIE_SLOT_CTL_POWER_ON : Field := ⟨0x0D001204, 0, 0⟩
abbrev SIE_SLOT_STATUS_PRESENT : Field := ⟨0x0D001208, 31, 31⟩
abbrev SIE_SLOT_STATUS_DLL_ACTIVE : Field := ⟨0x0D001208, 30, 30⟩
abbrev SIE_SLOT_STATUS_PWR_FAULT : Field := ⟨0x0D001208, 29, 29⟩
abbrev SIE_SLOT_STATUS_BUTTON : Field := ⟨0x0D001208, 28, 28⟩
abbrev SIE_SLOT_STATUS_PRESENCE_CHG : Field := ⟨0x0D001208, 27, 27⟩
abbrev SIE_SLOT_STATUS_DLL_CHG : Field := ⟨0x0D001208, 26, 26⟩
abbrev SIE_SLOT_STATUS_SPEED : Field := ⟨0x0D001208, 18, 16⟩
abbrev SIE_SLOT_STATUS_WIDTH : Field := ⟨0x0D001208, 15, 12⟩
abbrev SIE_SLOT_STATUS_STATE : Field := ⟨0x0D001208, 2, 0⟩
abbrev SIE_REC_CMD_OP : Field := ⟨0x0D001300, 31, 28⟩
abbrev SIE_REC_CMD_REC : Field := ⟨0x0D001300, 5, 0⟩
abbrev SIE_REC_TICK : Field := ⟨0x0D001308, 47, 0⟩
abbrev SIE_REC_TICK_TICK : Field := ⟨0x0D001308, 47, 0⟩
abbrev SIE_REC_STATUS : Field := ⟨0x0D001310, 3, 0⟩
abbrev SIE_REC_STATUS_RESULT : Field := ⟨0x0D001310, 3, 0⟩
abbrev SIE_CMD_DONE : Field := ⟨0x0D001400, 63, 0⟩
abbrev SIE_CMD_ERR : Field := ⟨0x0D001408, 63, 0⟩
abbrev SIE_TCP_RETX : Field := ⟨0x0D001410, 63, 0⟩
abbrev SIE_DIGEST_ERR : Field := ⟨0x0D001418, 63, 0⟩
abbrev SIE_SLOT_UR : Field := ⟨0x0D001420, 63, 0⟩
abbrev SIE_SLOT_SURPRISE : Field := ⟨0x0D001428, 63, 0⟩
abbrev SIE_REC_CHUNKS : Field := ⟨0x0D001430, 63, 0⟩
abbrev SIE_REC_DROPPED : Field := ⟨0x0D001438, 63, 0⟩
abbrev SUP_SAFETY_STATUS_SAFE_STOP : Field := ⟨0x00001400, 31, 31⟩
abbrev SUP_SAFETY_STATUS_CAUSE : Field := ⟨0x00001400, 23, 16⟩
abbrev SUP_SAFETY_STATUS_SVC_RESTARTS : Field := ⟨0x00001400, 15, 8⟩
abbrev SUP_SAFETY_STATUS_SVC_HALTED : Field := ⟨0x00001400, 0, 0⟩
abbrev SUP_SAFETY_AGE_BIST_AGE : Field := ⟨0x00001404, 31, 16⟩
abbrev SUP_SAFETY_AGE_SCRUB_AGE : Field := ⟨0x00001404, 15, 0⟩
abbrev SUP_TRACK_CFG : Field := ⟨0x00001408, 14, 0⟩
abbrev SUP_TRACK_CFG_MEDIA_RESERVE : Field := ⟨0x00001408, 14, 0⟩
abbrev SUP_TRACK_STATUS_HWM : Field := ⟨0x0000140C, 30, 16⟩
abbrev SUP_TRACK_STATUS_HELD : Field := ⟨0x0000140C, 14, 0⟩
abbrev SUP_HLOG_PROD : Field := ⟨0x00001410, 31, 0⟩
abbrev SUP_HLOG_PROD_PROD : Field := ⟨0x00001410, 31, 0⟩
abbrev SUP_ECC_CORR : Field := ⟨0x00001500, 63, 0⟩
abbrev SUP_ECC_UNCORR : Field := ⟨0x00001508, 63, 0⟩
abbrev SUP_TRACK_AUDIT_FAIL : Field := ⟨0x00001510, 63, 0⟩
abbrev SUP_BOOK_FIX : Field := ⟨0x00001518, 63, 0⟩
abbrev SUP_RESET_CTL_OP : Field := ⟨0x00001600, 31, 28⟩
abbrev SUP_RESET_CTL_CONFIRM : Field := ⟨0x00001600, 27, 16⟩
abbrev SUP_RESET_CTL_UNIT : Field := ⟨0x00001600, 3, 0⟩
abbrev SUP_RESET_STATUS_BUSY : Field := ⟨0x00001604, 31, 31⟩
abbrev SUP_RESET_STATUS_RESULT : Field := ⟨0x00001604, 27, 24⟩
abbrev SUP_RESET_CAUSE_BOOT : Field := ⟨0x00001608, 15, 8⟩
abbrev SUP_RESET_CAUSE_CAUSE : Field := ⟨0x00001608, 7, 0⟩
abbrev SUP_PWR_STATE (i : Nat) : Field := ⟨0x00001610 + 4 * i, 31, 0⟩
abbrev SUP_PWR_STATE_ON (i : Nat) : Field := ⟨0x00001610 + 4 * i, 31, 0⟩
abbrev SUP_CLK_STATUS_REFCLK_OK : Field := ⟨0x00001630, 31, 31⟩
abbrev SUP_CLK_STATUS_LOCKED : Field := ⟨0x00001630, 16, 0⟩
abbrev SUP_TEMP_SENSOR : Field := ⟨0x00001640, 19, 16⟩
abbrev SUP_TEMP_MAX_C : Field := ⟨0x00001640, 15, 8⟩
abbrev SUP_TEMP_PEAK_C : Field := ⟨0x00001640, 7, 0⟩
abbrev SUP_TEMP_CFG : Field := ⟨0x00001644, 7, 0⟩
abbrev SUP_TEMP_CFG_WARN_C : Field := ⟨0x00001644, 7, 0⟩
abbrev FLOW_ADMITTED (i : Nat) : Field := ⟨0x12000000 + 128 * i, 31, 31⟩
abbrev FLOW_PENDING (i : Nat) : Field := ⟨0x12000000 + 128 * i, 30, 30⟩
abbrev FLOW_CLASS (i : Nat) : Field := ⟨0x12000000 + 128 * i, 29, 28⟩
abbrev FLOW_SPK (i : Nat) : Field := ⟨0x12000000 + 128 * i, 27, 27⟩
abbrev FLOW_HOLD (i : Nat) : Field := ⟨0x12000000 + 128 * i, 25, 24⟩
abbrev FLOW_CARR_IN (i : Nat) : Field := ⟨0x12000000 + 128 * i, 23, 21⟩
abbrev FLOW_CARR_OUT (i : Nat) : Field := ⟨0x12000000 + 128 * i, 20, 18⟩
abbrev FLOW_ENC_IN (i : Nat) : Field := ⟨0x12000000 + 128 * i, 17, 16⟩
abbrev FLOW_ENC_OUT (i : Nat) : Field := ⟨0x12000000 + 128 * i, 15, 14⟩
abbrev FLOW_FUNC (i : Nat) : Field := ⟨0x12000000 + 128 * i, 11, 0⟩
abbrev FLOW_CH_PER_PKT (i : Nat) : Field := ⟨0x12000004 + 128 * i, 31, 24⟩
abbrev FLOW_SPP (i : Nat) : Field := ⟨0x12000004 + 128 * i, 23, 16⟩
abbrev FLOW_RATE (i : Nat) : Field := ⟨0x12000004 + 128 * i, 15, 12⟩
abbrev FLOW_FORMAT (i : Nat) : Field := ⟨0x12000004 + 128 * i, 11, 8⟩
abbrev FLOW_CHANNELS (i : Nat) : Field := ⟨0x12000004 + 128 * i, 7, 0⟩
abbrev FLOW_SRC_KIND (i : Nat) : Field := ⟨0x12000008 + 128 * i, 31, 29⟩
abbrev FLOW_SRC (i : Nat) : Field := ⟨0x12000008 + 128 * i, 16, 0⟩
abbrev FLOW_CLOSE_SLOT (i : Nat) : Field := ⟨0x1200000C + 128 * i, 28, 16⟩
abbrev FLOW_OPEN_SLOT (i : Nat) : Field := ⟨0x1200000C + 128 * i, 12, 0⟩
abbrev FLOW_EG_LIST (i : Nat) : Field := ⟨0x12000010 + 128 * i, 31, 31⟩
abbrev FLOW_EG_KIND (i : Nat) : Field := ⟨0x12000010 + 128 * i, 30, 29⟩
abbrev FLOW_EG_SLOT (i : Nat) : Field := ⟨0x12000010 + 128 * i, 28, 16⟩
abbrev FLOW_EG_TARGET (i : Nat) : Field := ⟨0x12000014 + 128 * i, 16, 0⟩
abbrev FLOW_REWRITE (i : Nat) : Field := ⟨0x12000018 + 128 * i, 31, 16⟩
abbrev FLOW_OUT_FLOW_ID (i : Nat) : Field := ⟨0x12000018 + 128 * i, 15, 0⟩
abbrev FLOW_KEY_OUT (i : Nat) : Field := ⟨0x1200001C + 128 * i, 31, 16⟩
abbrev FLOW_KEY_IN (i : Nat) : Field := ⟨0x1200001C + 128 * i, 15, 0⟩
abbrev FLOW_RTP_SSRC (i : Nat) : Field := ⟨0x12000020 + 128 * i, 31, 0⟩
abbrev FLOW_SSRC_CHECK (i : Nat) : Field := ⟨0x12000024 + 128 * i, 31, 31⟩
abbrev FLOW_RTP_PT (i : Nat) : Field := ⟨0x12000024 + 128 * i, 6, 0⟩
abbrev FLOW_MEDIA_OFFSET (i : Nat) : Field := ⟨0x12000028 + 128 * i, 31, 0⟩
abbrev FLOW_RX_PKTS (i : Nat) : Field := ⟨0x12000040 + 128 * i, 63, 0⟩
abbrev FLOW_TX_PKTS (i : Nat) : Field := ⟨0x12000048 + 128 * i, 63, 0⟩
abbrev FLOW_LATE (i : Nat) : Field := ⟨0x12000050 + 128 * i, 31, 0⟩
abbrev FLOW_EARLY (i : Nat) : Field := ⟨0x12000054 + 128 * i, 31, 0⟩
abbrev FLOW_FUTURE (i : Nat) : Field := ⟨0x12000058 + 128 * i, 31, 0⟩
abbrev FLOW_UNADMITTED (i : Nat) : Field := ⟨0x1200005C + 128 * i, 31, 0⟩
abbrev FLOW_INCOMPLETE (i : Nat) : Field := ⟨0x12000060 + 128 * i, 31, 0⟩
abbrev FLOW_MISMATCH (i : Nat) : Field := ⟨0x12000064 + 128 * i, 31, 0⟩
abbrev FLOW_DUPLICATE (i : Nat) : Field := ⟨0x12000068 + 128 * i, 31, 0⟩
abbrev FLOW_STALE_EPOCH (i : Nat) : Field := ⟨0x1200006C + 128 * i, 31, 0⟩
abbrev FLOW_HELD (i : Nat) : Field := ⟨0x12000070 + 128 * i, 31, 0⟩
abbrev FLOW_RX_EPOCH_VALID (i : Nat) : Field := ⟨0x12000074 + 128 * i, 8, 8⟩
abbrev FLOW_RX_EPOCH (i : Nat) : Field := ⟨0x12000074 + 128 * i, 7, 0⟩
abbrev FLOW_RX_SEQ (i : Nat) : Field := ⟨0x12000078 + 128 * i, 15, 0⟩
abbrev NH_VALID (i : Nat) : Field := ⟨0x12800000 + 16 * i, 31, 31⟩
abbrev NH_KIND (i : Nat) : Field := ⟨0x12800000 + 16 * i, 30, 28⟩
abbrev NH_TARGET (i : Nat) : Field := ⟨0x12800000 + 16 * i, 16, 0⟩
abbrev NH_REWRITE (i : Nat) : Field := ⟨0x12800004 + 16 * i, 31, 16⟩
abbrev NH_TC_SET (i : Nat) : Field := ⟨0x12800004 + 16 * i, 3, 3⟩
abbrev NH_TC (i : Nat) : Field := ⟨0x12800004 + 16 * i, 2, 0⟩
abbrev LISTH_COUNT (i : Nat) : Field := ⟨0x13240000 + 8 * i, 6, 0⟩
abbrev LISTH_MEDIA_REFS (i : Nat) : Field := ⟨0x13240004 + 8 * i, 15, 0⟩
abbrev LISTM_VALID (i : Nat) : Field := ⟨0x13400000 + 8 * i, 31, 31⟩
abbrev LISTM_KIND (i : Nat) : Field := ⟨0x13400000 + 8 * i, 30, 30⟩
abbrev LISTM_EG_SLOT (i : Nat) : Field := ⟨0x13400000 + 8 * i, 29, 17⟩
abbrev LISTM_TARGET (i : Nat) : Field := ⟨0x13400000 + 8 * i, 16, 0⟩
abbrev LISTM_REWRITE (i : Nat) : Field := ⟨0x13400004 + 8 * i, 31, 16⟩
abbrev POINT_ADMITTED (i : Nat) : Field := ⟨0x13200000 + 32 * i, 31, 31⟩
abbrev POINT_PENDING (i : Nat) : Field := ⟨0x13200000 + 32 * i, 30, 30⟩
abbrev POINT_FUNC (i : Nat) : Field := ⟨0x13200000 + 32 * i, 11, 0⟩
abbrev POINT_ORDER (i : Nat) : Field := ⟨0x13200004 + 32 * i, 28, 16⟩
abbrev POINT_OUT_FLOW (i : Nat) : Field := ⟨0x13200004 + 32 * i, 15, 0⟩
abbrev POINT_TERM_COUNT (i : Nat) : Field := ⟨0x13200008 + 32 * i, 30, 24⟩
abbrev POINT_TERM_BASE (i : Nat) : Field := ⟨0x13200008 + 32 * i, 16, 0⟩
abbrev POINT_SAT (i : Nat) : Field := ⟨0x1320000C + 32 * i, 31, 0⟩
abbrev POINT_HELD_TERMS (i : Nat) : Field := ⟨0x13200010 + 32 * i, 31, 0⟩
abbrev POINT_IN_CONV (i : Nat) : Field := ⟨0x13200014 + 32 * i, 31, 0⟩
abbrev POINT_UNFORMED (i : Nat) : Field := ⟨0x13200018 + 32 * i, 31, 0⟩
abbrev TERM_OUT_CH (i : Nat) : Field := ⟨0x13000000 + 16 * i, 29, 24⟩
abbrev TERM_IN_CH (i : Nat) : Field := ⟨0x13000000 + 16 * i, 21, 16⟩
abbrev TERM_IN_FLOW (i : Nat) : Field := ⟨0x13000000 + 16 * i, 15, 0⟩
abbrev TERM_GAIN (i : Nat) : Field := ⟨0x13000004 + 16 * i, 24, 0⟩
abbrev TERM_PEND (i : Nat) : Field := ⟨0x13000008 + 16 * i, 31, 31⟩
abbrev TERM_PEND_GAIN (i : Nat) : Field := ⟨0x13000008 + 16 * i, 24, 0⟩
abbrev SHAPER_EN (i : Nat) : Field := ⟨0x07200000 + 16 * i, 31, 31⟩
abbrev SHAPER_KIND (i : Nat) : Field := ⟨0x07200000 + 16 * i, 30, 30⟩
abbrev SHAPER_PARENT (i : Nat) : Field := ⟨0x07200000 + 16 * i, 29, 16⟩
abbrev SHAPER_PARENT_EN (i : Nat) : Field := ⟨0x07200000 + 16 * i, 15, 15⟩
abbrev SHAPER_FUNC (i : Nat) : Field := ⟨0x07200000 + 16 * i, 11, 0⟩
abbrev SHAPER_OVERHEAD (i : Nat) : Field := ⟨0x07200004 + 16 * i, 31, 26⟩
abbrev SHAPER_RATE (i : Nat) : Field := ⟨0x07200004 + 16 * i, 18, 0⟩
abbrev SHAPER_YACT (i : Nat) : Field := ⟨0x07200008 + 16 * i, 31, 30⟩
abbrev SHAPER_YCLASS (i : Nat) : Field := ⟨0x07200008 + 16 * i, 29, 27⟩
abbrev SHAPER_BURST (i : Nat) : Field := ⟨0x07200008 + 16 * i, 23, 0⟩
abbrev SHAPER_EBS (i : Nat) : Field := ⟨0x0720000C + 16 * i, 23, 0⟩
abbrev SA_VALID (i : Nat) : Field := ⟨0x08400000 + 32 * i, 31, 31⟩
abbrev SA_KIND (i : Nat) : Field := ⟨0x08400000 + 32 * i, 30, 28⟩
abbrev SA_MODE (i : Nat) : Field := ⟨0x08400000 + 32 * i, 27, 27⟩
abbrev SA_GMAC (i : Nat) : Field := ⟨0x08400000 + 32 * i, 26, 26⟩
abbrev SA_KEY (i : Nat) : Field := ⟨0x08400000 + 32 * i, 15, 0⟩
abbrev SA_SPI_SSCI (i : Nat) : Field := ⟨0x08400004 + 32 * i, 31, 0⟩
abbrev SA_PN (i : Nat) : Field := ⟨0x08400008 + 32 * i, 63, 0⟩
abbrev SA_REPLAY_WIN (i : Nat) : Field := ⟨0x08400010 + 32 * i, 31, 0⟩
abbrev SA_SCI (i : Nat) : Field := ⟨0x08400018 + 32 * i, 63, 0⟩
abbrev SLOT_STATE (i : Nat) : Field := ⟨0x08500000 + 16 * i, 31, 30⟩
abbrev SLOT_USAGE (i : Nat) : Field := ⟨0x08500000 + 16 * i, 29, 27⟩
abbrev SLOT_KEYLEN (i : Nat) : Field := ⟨0x08500000 + 16 * i, 26, 25⟩
abbrev SLOT_GEN (i : Nat) : Field := ⟨0x08500000 + 16 * i, 24, 17⟩
abbrev SLOT_KEK (i : Nat) : Field := ⟨0x08500000 + 16 * i, 15, 12⟩
abbrev SLOT_FUNC (i : Nat) : Field := ⟨0x08500000 + 16 * i, 11, 0⟩
abbrev SLOT_SWITCH_TICK (i : Nat) : Field := ⟨0x08500008 + 16 * i, 47, 0⟩
abbrev CTX_VALID (i : Nat) : Field := ⟨0x0B100000 + 32 * i, 31, 31⟩
abbrev CTX_MODE (i : Nat) : Field := ⟨0x0B100000 + 32 * i, 30, 29⟩
abbrev CTX_LOG_EN (i : Nat) : Field := ⟨0x0B100000 + 32 * i, 28, 28⟩
abbrev CTX_LOG_PHASE (i : Nat) : Field := ⟨0x0B100000 + 32 * i, 27, 27⟩
abbrev CTX_LOG_WORDS (i : Nat) : Field := ⟨0x0B100000 + 32 * i, 23, 0⟩
abbrev CTX_ROOT (i : Nat) : Field := ⟨0x0B100008 + 32 * i, 63, 12⟩
abbrev CTX_LOG_A (i : Nat) : Field := ⟨0x0B100010 + 32 * i, 63, 12⟩
abbrev CTX_LOG_B (i : Nat) : Field := ⟨0x0B100018 + 32 * i, 63, 12⟩
abbrev RING_ENABLE (i : Nat) : Field := ⟨0x0C400000 + 64 * i, 31, 31⟩
abbrev RING_IDLE (i : Nat) : Field := ⟨0x0C400000 + 64 * i, 30, 30⟩
abbrev RING_TYPE (i : Nat) : Field := ⟨0x0C400000 + 64 * i, 29, 27⟩
abbrev RING_MEDIA (i : Nat) : Field := ⟨0x0C400000 + 64 * i, 26, 26⟩
abbrev RING_LOG2_SIZE (i : Nat) : Field := ⟨0x0C400000 + 64 * i, 24, 20⟩
abbrev RING_DB (i : Nat) : Field := ⟨0x0C400000 + 64 * i, 12, 0⟩
abbrev RING_WEIGHT (i : Nat) : Field := ⟨0x0C400004 + 64 * i, 31, 24⟩
abbrev RING_BURST (i : Nat) : Field := ⟨0x0C400004 + 64 * i, 22, 16⟩
abbrev RING_VECTOR (i : Nat) : Field := ⟨0x0C400004 + 64 * i, 10, 0⟩
abbrev RING_BASE (i : Nat) : Field := ⟨0x0C400008 + 64 * i, 63, 12⟩
abbrev RING_HEAD_ADDR (i : Nat) : Field := ⟨0x0C400010 + 64 * i, 63, 3⟩
abbrev RING_MOD_US (i : Nat) : Field := ⟨0x0C400018 + 64 * i, 31, 20⟩
abbrev RING_LINK (i : Nat) : Field := ⟨0x0C400018 + 64 * i, 16, 0⟩
abbrev RING_EQ_EN (i : Nat) : Field := ⟨0x0C40001C + 64 * i, 17, 17⟩
abbrev RING_EQ (i : Nat) : Field := ⟨0x0C40001C + 64 * i, 16, 0⟩
abbrev RING_PHASE (i : Nat) : Field := ⟨0x0C400020 + 64 * i, 31, 31⟩
abbrev RING_ARMED (i : Nat) : Field := ⟨0x0C400020 + 64 * i, 30, 30⟩
abbrev RING_REREAD (i : Nat) : Field := ⟨0x0C400020 + 64 * i, 29, 29⟩
abbrev RING_ERR_STOP (i : Nat) : Field := ⟨0x0C400020 + 64 * i, 28, 28⟩
abbrev RING_NEXT (i : Nat) : Field := ⟨0x0C400024 + 64 * i, 31, 0⟩
abbrev RING_DONE (i : Nat) : Field := ⟨0x0C400028 + 64 * i, 31, 0⟩
abbrev RING_LOST (i : Nat) : Field := ⟨0x0C40002C + 64 * i, 31, 0⟩
abbrev RING_FIRST_LOST (i : Nat) : Field := ⟨0x0C400030 + 64 * i, 31, 0⟩
abbrev RING_RING (i : Nat) : Field := ⟨0x0C400034 + 64 * i, 16, 0⟩
abbrev CONN_STATE (i : Nat) : Field := ⟨0x0D100000 + 64 * i, 31, 29⟩
abbrev CONN_FAM (i : Nat) : Field := ⟨0x0D100000 + 64 * i, 28, 28⟩
abbrev CONN_HDGST (i : Nat) : Field := ⟨0x0D100000 + 64 * i, 27, 27⟩
abbrev CONN_DDGST (i : Nat) : Field := ⟨0x0D100000 + 64 * i, 26, 26⟩
abbrev CONN_VRF (i : Nat) : Field := ⟨0x0D100000 + 64 * i, 23, 12⟩
abbrev CONN_FUNC (i : Nat) : Field := ⟨0x0D100000 + 64 * i, 11, 0⟩
abbrev CONN_LPORT (i : Nat) : Field := ⟨0x0D100004 + 64 * i, 31, 16⟩
abbrev CONN_RPORT (i : Nat) : Field := ⟨0x0D100004 + 64 * i, 15, 0⟩
abbrev CONN_LADDR (i : Nat) : Field := ⟨0x0D100008 + 64 * i, 63, 0⟩
abbrev CONN_RADDR (i : Nat) : Field := ⟨0x0D100018 + 64 * i, 63, 0⟩
abbrev CONN_QID (i : Nat) : Field := ⟨0x0D100028 + 64 * i, 31, 16⟩
abbrev CONN_CNTLID (i : Nat) : Field := ⟨0x0D100028 + 64 * i, 15, 0⟩
abbrev CONN_QSIZE (i : Nat) : Field := ⟨0x0D10002C + 64 * i, 31, 24⟩
abbrev CONN_MSS (i : Nat) : Field := ⟨0x0D10002C + 64 * i, 13, 0⟩
abbrev CONN_RCV_WND_LOG2 (i : Nat) : Field := ⟨0x0D100030 + 64 * i, 31, 28⟩
abbrev CONN_LBA_SHIFT (i : Nat) : Field := ⟨0x0D100030 + 64 * i, 27, 24⟩
abbrev CONN_DOWN_CAUSE (i : Nat) : Field := ⟨0x0D100030 + 64 * i, 7, 0⟩
abbrev NS_VALID (i : Nat) : Field := ⟨0x0D180000 + 32 * i, 31, 31⟩
abbrev NS_ENC (i : Nat) : Field := ⟨0x0D180000 + 32 * i, 30, 30⟩
abbrev NS_PRESENT (i : Nat) : Field := ⟨0x0D180000 + 32 * i, 29, 28⟩
abbrev NS_LBA_SHIFT (i : Nat) : Field := ⟨0x0D180000 + 32 * i, 27, 24⟩
abbrev NS_FUNC (i : Nat) : Field := ⟨0x0D180000 + 32 * i, 11, 0⟩
abbrev NS_NSID (i : Nat) : Field := ⟨0x0D180004 + 32 * i, 31, 0⟩
abbrev NS_KEY (i : Nat) : Field := ⟨0x0D180008 + 32 * i, 15, 0⟩
abbrev NS_NSZE (i : Nat) : Field := ⟨0x0D180010 + 32 * i, 63, 0⟩
abbrev REC_STATE (i : Nat) : Field := ⟨0x0D190000 + 256 * i, 31, 29⟩
abbrev REC_WRAP (i : Nat) : Field := ⟨0x0D190000 + 256 * i, 28, 28⟩
abbrev REC_CHUNK_LOG2 (i : Nat) : Field := ⟨0x0D190000 + 256 * i, 27, 26⟩
abbrev REC_NS (i : Nat) : Field := ⟨0x0D190000 + 256 * i, 23, 18⟩
abbrev REC_STAGE (i : Nat) : Field := ⟨0x0D190000 + 256 * i, 17, 12⟩
abbrev REC_FUNC (i : Nat) : Field := ⟨0x0D190000 + 256 * i, 11, 0⟩
abbrev REC_FLOWS (i : Nat) : Field := ⟨0x0D190004 + 256 * i, 6, 0⟩
abbrev REC_START_LBA (i : Nat) : Field := ⟨0x0D190008 + 256 * i, 63, 0⟩
abbrev REC_LBAS (i : Nat) : Field := ⟨0x0D190010 + 256 * i, 63, 0⟩
abbrev REC_SESSION (i : Nat) : Field := ⟨0x0D190018 + 256 * i, 31, 0⟩
abbrev REC_FLOW_LIST (i : Nat) : Field := ⟨0x0D190020 + 256 * i, 31, 0⟩
abbrev PROG_VALID (i : Nat) : Field := ⟨0x05400000 + 256 * i, 31, 31⟩
abbrev PROG_ENCAP (i : Nat) : Field := ⟨0x05400000 + 256 * i, 30, 28⟩
abbrev PROG_DECAP (i : Nat) : Field := ⟨0x05400000 + 256 * i, 27, 26⟩
abbrev PROG_L2_REPLACE (i : Nat) : Field := ⟨0x05400000 + 256 * i, 25, 25⟩
abbrev PROG_TPL_LEN (i : Nat) : Field := ⟨0x05400000 + 256 * i, 23, 16⟩
abbrev PROG_TTL_OP (i : Nat) : Field := ⟨0x05400000 + 256 * i, 15, 14⟩
abbrev PROG_TTL_TRAP (i : Nat) : Field := ⟨0x05400000 + 256 * i, 13, 13⟩
abbrev PROG_DF (i : Nat) : Field := ⟨0x05400000 + 256 * i, 12, 12⟩
abbrev PROG_OUTER_CSUM (i : Nat) : Field := ⟨0x05400000 + 256 * i, 11, 11⟩
abbrev PROG_ENTROPY (i : Nat) : Field := ⟨0x05400000 + 256 * i, 10, 10⟩
abbrev PROG_MTU_TRAP (i : Nat) : Field := ⟨0x05400000 + 256 * i, 9, 9⟩
abbrev PROG_DSCP_COPY (i : Nat) : Field := ⟨0x05400000 + 256 * i, 8, 8⟩
abbrev PROG_VLAN_OP (i : Nat) : Field := ⟨0x05400004 + 256 * i, 31, 30⟩
abbrev PROG_PCP (i : Nat) : Field := ⟨0x05400004 + 256 * i, 29, 27⟩
abbrev PROG_VID (i : Nat) : Field := ⟨0x05400004 + 256 * i, 23, 12⟩
abbrev PROG_TTL_VAL (i : Nat) : Field := ⟨0x05400004 + 256 * i, 7, 0⟩
abbrev PROG_OUT_L3 (i : Nat) : Field := ⟨0x05400008 + 256 * i, 31, 24⟩
abbrev PROG_OUT_L4 (i : Nat) : Field := ⟨0x05400008 + 256 * i, 23, 16⟩
abbrev PROG_IN_L3 (i : Nat) : Field := ⟨0x05400008 + 256 * i, 15, 8⟩
abbrev PROG_IN_L4 (i : Nat) : Field := ⟨0x05400008 + 256 * i, 7, 0⟩
abbrev PROG_TUN (i : Nat) : Field := ⟨0x0540000C + 256 * i, 31, 24⟩
abbrev PROG_ESP_SA (i : Nat) : Field := ⟨0x0540000C + 256 * i, 15, 0⟩
abbrev PROG_MEDIA_REFS (i : Nat) : Field := ⟨0x05400010 + 256 * i, 15, 0⟩

end Sys2Proof.Machine.Reg
end

