-- ==== Sys2Proof/Machine/Sparse.lean ====
section
/-! DEFINITION. Sparse stores in one canonical form: keys strictly rising, and no entry equal to what an unlisted
key reads as. Registers and windows, flash and HBM are held so. Also plain association lists, for tables with
few live entries. -/

namespace Sys2Proof.Machine

/-- Read key `k`; an unlisted key reads as `d k`. -/
def Sparse.get {w : Nat} (d : Nat → BitVec w) : List (Nat × BitVec w) → Nat → BitVec w
  | [], k => d k
  | (a, v) :: l, k => if k = a then v else if k < a then d k else Sparse.get d l k

/-- Put an entry at the head of a tail, or leave it out where it equals the unlisted value. -/
def Sparse.cons {w : Nat} (d : Nat → BitVec w) (k : Nat) (v : BitVec w) (l : List (Nat × BitVec w)) :
    List (Nat × BitVec w) :=
  if v = d k then l else (k, v) :: l

/-- Write key `k`, keeping the canonical form. -/
def Sparse.set {w : Nat} (d : Nat → BitVec w) : List (Nat × BitVec w) → Nat → BitVec w → List (Nat × BitVec w)
  | [], k, v => Sparse.cons d k v []
  | (a, x) :: l, k, v =>
    if k < a then Sparse.cons d k v ((a, x) :: l)
    else if k = a then Sparse.cons d k v l
    else (a, x) :: Sparse.set d l k v

/-- The canonical form above a bound: every key is at least `lo`, keys rise, no entry is the unlisted value. -/
def Sparse.wfFrom {w : Nat} (d : Nat → BitVec w) : Nat → List (Nat × BitVec w) → Bool
  | _, [] => true
  | lo, (a, v) :: l => decide (lo ≤ a) && decide (v ≠ d a) && Sparse.wfFrom d (a + 1) l

/-- The canonical form. -/
def Sparse.wf {w : Nat} (d : Nat → BitVec w) (l : List (Nat × BitVec w)) : Bool := Sparse.wfFrom d 0 l

/-- The entry of an association list. -/
def Assoc.get? {α : Type} (l : List (Nat × α)) (k : Nat) : Option α :=
  (l.find? (fun p => p.1 == k)).map (·.2)

/-- The entry of an association list, or a given value. -/
def Assoc.getD {α : Type} (l : List (Nat × α)) (k : Nat) (d : α) : α := (Assoc.get? l k).getD d

/-- Remove an entry. -/
def Assoc.erase {α : Type} (l : List (Nat × α)) (k : Nat) : List (Nat × α) := l.filter (fun p => p.1 != k)

/-- Put an entry, keys ascending where they were. -/
def Assoc.set {α : Type} : List (Nat × α) → Nat → α → List (Nat × α)
  | [], k, v => [(k, v)]
  | (a, x) :: l, k, v =>
    if k < a then (k, v) :: (a, x) :: l
    else if k = a then (k, v) :: l
    else (a, x) :: Assoc.set l k v

end Sys2Proof.Machine
end

