-- ==== Sys2Proof/Machine/State.lean ====
section
/-! DEFINITION. The state of the CK9620: every register and window word in one sparse store, and, unit by unit, the
state that no register shows; the command queue; what has left the block. Plain data throughout. -/

namespace Sys2Proof.Machine

/-- The faults of the model. No command of the CK9620 stops the block: every row of the table has an effect,
so no meaning raises this one; it is there because the interface asks for a type. Safe. -/
inductive Fault where
  /-- raised by no meaning -/
  | none
deriving DecidableEq, Repr

/-- The refusals of the model. -/
inductive Refusal where
  /-- a command without a meaning yet, raised by the dispatch alone. Safe: nothing is claimed of it. -/
  | notModelled (mnemonic : String)
deriving DecidableEq, Repr

/-- The completion that a requester got last (R9). -/
inductive Reply where
  | unsupported
  /-- Request Retry Status of a configuration request (R53) -/
  | retry
  | done
  | data (v : Nat)
deriving DecidableEq, Repr

/-- Where an event goes (R395). -/
inductive EvDest where
  /-- PF0's queue of the source unit -/
  | pf
  /-- the default queue of VF `v` -/
  | vf (v : Nat)
  /-- a notice or error of ring `r` -/
  | ring (r : Nat)
deriving DecidableEq, Repr

/-- An event in its unit's store, ahead of the arbiter (R394). -/
structure Event where
  unit : Nat
  type : Nat
  func : Nat
  dest : EvDest
  payload : Nat
deriving DecidableEq, Repr

/-- The holding registers of one requester for one pair (R13). -/
structure Hold where
  who : Requester
  /-- key of the pair's low word -/
  key : Nat
  /-- captured high half -/
  capHi : Option Nat
  /-- held low half of a write -/
  wrLo : Option Nat
deriving DecidableEq, Repr

/-- What leaves the block. -/
inductive Out where
  /-- a frame on a network port; `good` is false where it was ended with a bad FCS -/
  | frame (port : Nat) (bytes : Bytes) (good : Bool)
  /-- a PTP message of TE (R65) -/
  | ptp (port : Nat) (kind : PtpKind) (bytes : Bytes)
  /-- a posted write to host memory, at its host address, and whether it carries Relaxed Ordering (R333) -/
  | dma (func addr : Nat) (bytes : Bytes) (relaxed : Bool)
  /-- the marks that TTU ORs into a 64-bit word of a dirty bitmap (R361) -/
  | dmaOr (func addr : Nat) (marks : Nat)
  /-- a read request to host memory under a tag, and whether it carries Relaxed Ordering (R333, R336) -/
  | dmaRead (func addr len tag : Nat) (relaxed : Bool)
  /-- an MSI-X message, or the assertion (true) or deassertion of INTA -/
  | msix (func vector : Nat)
  | intx (on : Bool)
  /-- a frame of the management port -/
  | mgmt (bytes : Bytes)
  /-- a frame handed to SUP: a trap, a copy, or one whose destination it is (R119, R144, R160) -/
  | sup (bytes : Bytes)
  /-- a slot of the witness bus, and the bits that the unit drives in it (R303) -/
  | witness (slot : Nat) (bits : List Bool)
  /-- a frame of the hedge link: its link sequence number, its kind and its body (R317) -/
  | hedge (link kind : Nat) (body : List Nat)
  | carry (link seq tick : Nat) (op : CarriedOp)
  /-- what the active sends to a unit that layers: its state, and what the settle phase begins with (R324) -/
  | bulk (link : Nat) (m : BulkMsg)
  | settle (link : Nat) (m : SettleMsg)
  /-- a command to the drive in the record slot -/
  | nvme (opcode ns lba blocks : Nat) (data : Bytes)
  /-- CC.SHN of that drive is written for a normal shutdown (R412) -/
  | driveShutdown
  /-- the completion with Unsupported Request of a request of that drive (R409) -/
  | driveUr
deriving DecidableEq, Repr

/-- One section-map entry (R39). -/
structure Section where
  type : Nat
  unit : Nat
  version : Nat
  offset : Nat
  length : Nat
  digest : Nat
deriving DecidableEq, Repr

/-- What the ROM has read of the header and map of the slot it accepted (R37, R39, R44): the boot goes on from these, whatever the
flash holds later. -/
structure BootImage where
  map : List Section
  secver : Nat
  commit : Bool
  flashLog2 : Nat
deriving DecidableEq, Repr

def BootImage.none : BootImage := ⟨[], 0, false, 0⟩

/-- What waits while the service cores restart (R427): a write or a read of a register, or a register frame. -/
inductive SvcWait where
  | write (who : Requester) (key size v : Nat)
  | read (who : Requester) (key size : Nat)
  | frame (bytes : Bytes)
deriving DecidableEq, Repr

/-- SUP's hidden state. -/
structure SupState where
  /-- flash bytes; an unlisted byte reads 0xFF (PRESUMED, log entry 7) -/
  flash : List (Nat × Byte)
  /-- the flash operation in progress: OP and address (R63) -/
  flashOp : Option (Nat × Nat)
  /-- the owner-key hash in OTP, once fused (R62) -/
  otpKey : Option (BitVec 384)
  /-- the minimum security version in OTP (R61) -/
  otpSecver : Nat
  /-- the result of the OTP sense check at VAUX application -/
  otpOk : Bool
  /-- the MAC address fused for the management port (R292) -/
  otpMac : Nat
  /-- the device secret in OTP (R246) -/
  deviceSecret : BitVec 384
  /-- every on-die SRAM is zeroed (R46) -/
  sramReady : Bool
  /-- the accepted slot, 0 A or 1 B -/
  bootSlot : Option Nat
  /-- the header and map of that slot, as accepted -/
  image : BootImage
  /-- the mode in which the flash is read: XSPI_MODE and XSPI_DUMMY (R36, R44) -/
  flashMode : Nat × Nat
  /-- both firmwares run (R50) -/
  firmware : Bool
  /-- the booted image declares role PAIR, and HGC has not taken the role yet (R52) -/
  imagePair : Bool
  /-- units of the load order already loaded -/
  loaded : Nat
  /-- initial flows and points of the image (R82) -/
  initFlows : List Nat
  initPoints : List Nat
  /-- VAUX is on; this is its first main-rail power-up since it came (R450) -/
  vaux : Bool
  vauxFresh : Bool
  /-- POR_N is low; a main rail has tripped (R446, R450, R467) -/
  porLow : Bool
  railTrip : Bool
  /-- regions still to fill, the next first; meaningful once the fill has begun -/
  fillOrder : List Nat
  filling : Bool
  /-- unfilled regions with a write held for them, the last to come first (R48) -/
  hbmHeld : List Nat
  /-- an accepted WARM reset awaits the tick boundary, or the unit held in RESET (R451, R452) -/
  warmDue : Bool
  unitReset : Option Nat
  /-- service cores restarting, the ticks of the restarts within the last hour, and what waits for their end (R427) -/
  svcRestarting : Bool
  svcTimes : List Nat
  svcHeld : List SvcWait
  /-- ns, counted at tick boundaries, since the last full scrub pass and the last BIST rotation (R432, R433) -/
  scrubNs : Nat
  bistNs : Nat
  /-- TEMP_WARN has been raised and MAX_C has not fallen to WARN_C − 5 since (R470) -/
  tempWarned : Bool
  /-- the last reply to each of the four most recent sources of register frames (R294): source, sequence, bytes -/
  frameReplies : List (Nat × Nat × Bytes)
  /-- tracker differences of the last audits, consecutive failures of each book, and those of a repaired book since its repair
  (R437, R438) -/
  trackDiff : Int
  bookFails : List (Nat × Nat)
  bookFixed : List (Nat × Nat)
deriving DecidableEq, Repr

/-- A pending change of the topiary (R78, R80). `tick` none: the first tick of R68. -/
structure Change where
  isPoint : Bool
  id : Nat
  add : Bool
  tick : Option Nat
deriving DecidableEq, Repr

/-- What an admitted or pending flow or point books: ledger rows, egress time by port as (port, offset, ns), and what it counts in
pools as (function, kind, units) (R73, R75, R364). -/
structure Booking where
  isPoint : Bool
  id : Nat
  rows : List (Nat × Nat)
  egress : List (Nat × Nat × Nat)
  pools : List (Nat × Nat × Nat)
deriving DecidableEq, Repr

/-- TE's hidden state. -/
structure TeState where
  /-- the frequency estimates of the last consecutive Sync messages within LOCK_NS, newest first, at most 16 (R67) -/
  goodFreqs : List Int
  /-- the servo's last frequency estimate, in ppb -/
  freqEst : Int
  /-- consecutive Sync messages beyond STEP_LIMIT_MS -/
  badRun : Nat
  /-- Announce data sets held, by index of TE_GM_ID × 256 + port (R66) -/
  announces : List (Nat × List Nat)
  /-- the selected grandmaster -/
  gm : Option Nat
  /-- PTP ports in FAULTY -/
  faulty : List Nat
  /-- mismatch rows: row × 256 + port, and the tick it last applied (R66) -/
  mismatch : List (Nat × Nat)
  /-- the row of the 10 MHz input applies (R66) -/
  refAbsent : Bool
  /-- the row of the 1PPS input applies (R66) -/
  ppsBad : Bool
  /-- STATE has become LOCKED since the last reset or restep (R68) -/
  wasLocked : Bool
  /-- ports whose last two-step Sync awaits its Follow_Up (R65) -/
  awaiting : List Nat
  /-- egress timestamps of event messages, in 2^-16 ns: port × 16 + kind, and the last one (R289) -/
  sent : List (Nat × Nat)
  /-- pending additions and removals -/
  changes : List Change
  /-- the bookings of each admitted or pending flow or point -/
  books : List Booking
  /-- home pipelines that LANE_MAP declares: ring number, or 131,072 for the hedge link, and pipeline (R17) -/
  homes : List (Nat × Nat)
  /-- effective tick of each admission in force -/
  since : List (Bool × Nat × Nat)
deriving DecidableEq, Repr

/-- One accepted media packet of a tick: its index, its sample bytes and its EME flags. -/
structure RxPkt where
  tick : Nat
  index : Nat
  samples : Bytes
  flags : Nat
  /-- its frame handle in the buffer -/
  handle : Nat
deriving DecidableEq, Repr

/-- The running state of an admitted flow (R84, R100, R104, R105). -/
structure FlowRt where
  rx : List RxPkt
  /-- ticks marked held -/
  held : List Nat
  /-- (tick, index) pairs accepted at step 2, whatever became of them after (R98) -/
  seen : List (Nat × Nat)
  /-- last valid sample of each channel, as bit patterns; empty before any valid tick -/
  lastX : List Nat
  /-- the last tick formed was valid -/
  lastValid : Bool
  /-- the last tick in which an epoch was adopted, and RX_EPOCH as it stood before, none where it was not valid (R100) -/
  epochWas : Option (Nat × Option Nat)
deriving DecidableEq, Repr

/-- A copy of an outbound tick in the tick hold (R163): the flow, the tick, the destination with its egress offset and
rewrite program, the samples by sample instant and channel, and the EME flags of R94. -/
structure Copy where
  flow : Nat
  outTick : Nat
  toRing : Bool
  target : Nat
  offset : Nat
  rewrite : Nat
  samples : List (List Nat)
  flags : Nat
  /-- this is the flow's first destination in list order -/
  first : Bool
  /-- the tick was sent under the hold policy, or an input or term of it was held (R320) -/
  heldIn : Bool
  /-- the next packet index to send -/
  next : Nat
  /-- frame handles whose cells the copy holds, by index where the packets came from the network or a host ring -/
  handles : List Nat
deriving DecidableEq, Repr

/-- The media path between reception and egress. -/
structure MediaState where
  flows : List (Nat × FlowRt)
  copies : List Copy
deriving DecidableEq, Repr

def MediaState.reset : MediaState where
  flows := []
  copies := []

/-- When a received frame began: the local ns of its first bit, and PXC's timestamp of it in units of 2^-16 ns (R288). -/
structure Stamp where
  began : Nat
  read : Nat
deriving DecidableEq, Repr

/-- The stamp of a frame that came from no MAC port. -/
def Stamp.none : Stamp := ⟨0, 0⟩

/-- A head in the distributor, ahead of a pipeline (R107, R128, R129). -/
structure HeadIn where
  src : Nat
  func : Nat
  /-- the frame without FCS, its stripped tag removed; for a host media packet, the EME packet -/
  frame : Bytes
  /-- length of the frame before the FCS, counted without any VLAN tag -/
  untagged : Nat
  vlan : Nat
  pcp : Nat
  macsec : Bool
  /-- MAC FCS and MACsec check have passed so far -/
  good : Bool
  /-- the MACsec check failed (R265) -/
  authBad : Bool
  media : Bool
  /-- INTERNAL carriage: a host TX media ring, and its number -/
  ring : Option Nat
  /-- the class that a TX descriptor gives (R377) -/
  tc : Option Nat
  pipe : Nat
  seq : Nat
  /-- PXC's timestamp of the frame (R288, R289) -/
  stamp : Stamp
deriving DecidableEq, Repr

/-- A best-effort head after step 6, waiting in the reorder stage; `work` is empty for the marker of a discarded head
(R130). Each piece of work is a frame with the destinations it goes to. -/
structure Release where
  src : Nat
  seq : Nat
  pipe : Nat
  /-- frame handles to send, in order -/
  handles : List Nat
deriving DecidableEq, Repr

/-- PCU's hidden state. -/
structure PcuState where
  queue : List HeadIn
  /-- next sequence number and rotating pipeline pointer of each source (R129) -/
  nextSeq : List (Nat × Nat)
  pointer : List (Nat × Nat)
  /-- the next sequence number each source releases (R130) -/
  released : List (Nat × Nat)
  reorder : List Release
  /-- the PARSE_GRAPH section in force -/
  graph : Bytes
  /-- a commit that passed its checks: its effective tick, none for the first cycle after the checks (R124) -/
  commit : Option (Option Nat)
  /-- a commit took effect and the old bank is not yet synchronised (R125) -/
  syncDue : Bool
  /-- copies made in this tick: to SUP, to the host ring (R122) -/
  supCopies : Nat
  hostCopies : Nat
  /-- WRITE_LOST was raised for this commit (R126) -/
  lostRaised : Bool
  /-- entries of the staging and of the committed bank that are the image's own (R364) -/
  imageStaged : List Nat
  imageNow : List Nat
deriving DecidableEq, Repr

def PcuState.reset : PcuState where
  queue := []
  nextSeq := []
  pointer := []
  released := []
  reorder := []
  graph := []
  commit := none
  syncDue := false
  supCopies := 0
  hostCopies := 0
  lostRaised := false
  imageStaged := []
  imageNow := []

/-- One learned MAC slot of one pipeline (R145). -/
structure MacLearned where
  pipe : Nat
  bucket : Nat
  way : Nat
  vlan : Nat
  mac : Nat
  port : Nat
  stamp : Nat
deriving DecidableEq, Repr

/-- FTU's hidden state. -/
structure FtuState where
  lpm : List LpmSlot
  macStatic : List MacStatic
  macLearned : List MacLearned
  /-- the change list: table × 2^24 + index (R138) -/
  changes : List Nat
  /-- port flushes queued, and the flush that runs: none of a port is the manager's (R150) -/
  flushQueue : List Nat
  flushing : Option (Option Nat)
  /-- a manager's flush that waits for a port flush to end: its VLAN and its port (R150) -/
  flushHeld : Option (Option Nat × Option Nat)
  /-- flows held from a tick onward after an escalation (R155) -/
  shadowHeld : List (Nat × Nat)
  /-- the HBM region of the shadow (R154) -/
  shadow : Option Nat
  /-- pipeline copies of shadowed records, where a fault has made one differ from what was written: table × 2^24 + index, pipeline,
  words; every other copy of a record is as written (R135, R137) -/
  copies : List (Nat × Nat × List Nat)
  /-- shadow records, where a fault has made one differ: key, words, CRC-32C; every other record is as written, with the CRC-32C of
  its words (R154) -/
  shadows : List (Nat × List Nat × Nat)
deriving DecidableEq, Repr

def FtuState.reset : FtuState where
  lpm := []
  macStatic := []
  macLearned := []
  changes := []
  flushQueue := []
  flushing := none
  flushHeld := none
  shadowHeld := []
  shadow := none
  copies := []
  shadows := []

/-- What a parse-graph walk has found (R110, R111). -/
structure Walk where
  /-- where the next header begins, and nodes visited -/
  off : Nat
  visits : Nat
  dmac : Nat
  etype : Nat
  vlan : Nat
  pcp : Nat
  pflags : Nat
  sip : Nat
  dip : Nat
  proto : Nat
  dscp : Nat
  tun : Nat
  sport : Nat
  dport : Nat
  flex : Nat
  /-- the EME header -/
  eme : Option Nat
  /-- the first and the last IP header, and how many -/
  firstIp : Option Nat
  lastIp : Option Nat
  ips : Nat
  /-- where the last IP datagram ends -/
  ipEnd : Nat
  /-- the last UDP or TCP header -/
  l4 : Option Nat
  /-- the tunnel boundary: kind of the node, its header, and the header after it (R237) -/
  tunnel : Option (Nat × Nat × Nat)
  /-- the DECRYPT node at which the outer pass stopped: its header, KIND and DEFAULT_NEXT -/
  decrypt : Option (Nat × Nat × Nat)
  /-- the next-header value of the last IP header or extension header, whatever its KEY_LAYER -/
  nextHdr : Nat
  /-- the outer IP datagram is a fragment (R237) -/
  outerFrag : Bool
deriving DecidableEq, Repr

def Walk.empty : Walk where
  off := 0
  visits := 0
  dmac := 0
  etype := 0
  vlan := 0
  pcp := 0
  pflags := 0
  sip := 0
  dip := 0
  proto := 0
  dscp := 0
  tun := 0
  sport := 0
  dport := 0
  flex := 0
  eme := none
  firstIp := none
  lastIp := none
  ips := 0
  ipEnd := 0
  l4 := none
  tunnel := none
  decrypt := none
  nextHdr := 0
  outerFrag := false

/-- Where a copy of a frame goes (R160). -/
inductive Target where
  | port (p : Nat)
  | hedge
  | ring (r : Nat)
  | sup
  | sie
  | pleach
deriving DecidableEq, Repr

/-- A destination of a best-effort frame: where, in which class, under which rewrite program. -/
structure FrameDest where
  target : Target
  tc : Nat
  rewrite : Nat
deriving DecidableEq, Repr

/-- A frame in the buffer (R166): its handle's cell chain with the GEN of each cell, copy count and bytes. -/
structure Frame where
  src : Nat
  func : Nat
  pipe : Nat
  /-- without FCS, after decryption -/
  bytes : Bytes
  /-- the FCS and every check of decryption hold -/
  good : Bool
  /-- decryption failed its tag or ICV (R265) -/
  authBad : Bool
  media : Bool
  walk : Walk
  chain : List (Nat × Nat)
  copies : Nat
  /-- functions whose CELLS pool the frame's cells are charged to (R364) -/
  charged : List Nat
  /-- length by which a policer judges the frame (R220) -/
  reserved : Nat
  /-- the destinations of the original, then those of copies and mirrors -/
  dests : List FrameDest
  copyDests : List FrameDest
  /-- its receive timestamp (R289) -/
  stamp : Stamp
  /-- header cells of its copies, each with its GEN (R230) -/
  heads : List (Nat × Nat)
deriving DecidableEq, Repr

/-- One cell of the buffer (R166). -/
structure Cell where
  owner : Nat
  gen : Nat
  allocated : Bool
deriving DecidableEq, Repr

/-- A descriptor in a pipeline's virtual output queues (R161): of kind MEDIA or BE, unicast, or multicast with its remaining
destinations; the receive timestamp travels with it (R289). -/
structure Desc where
  pipe : Nat
  media : Bool
  mcast : Bool
  handle : Nat
  dests : List FrameDest
  stamp : Stamp
deriving DecidableEq, Repr

/-- What FPU keeps of a pleach term (R180). -/
structure TermRt where
  /-- last valid sample, in its input's format -/
  lastX : Nat
  /-- the last tick was valid -/
  lastValid : Bool
deriving DecidableEq, Repr

/-- FPU's hidden state. -/
structure FpuState where
  /-- ramp tick of each pending gain change (R182) -/
  gains : List (Nat × Nat)
  /-- live frame handles -/
  frames : List (Nat × Frame)
  /-- cells that are not free with GEN 0 and owner 0 -/
  cells : List (Nat × Cell)
  /-- frame handles that a fault has lost -/
  lostHandles : Nat
  /-- descriptors in the pipelines, each queue oldest first -/
  voq : List Desc
  /-- descriptors in the destinations' input stages: destination number and descriptor, oldest first (R163) -/
  inputs : List (Nat × Desc)
  /-- grant, accept and multicast-turn pointers of R161, where not 0 -/
  gp : List (Nat × Nat)
  ap : List (Nat × Nat)
  mcturn : List (Nat × Nat)
  /-- fabric credits of a (pipeline × 64 + destination) pair, where not 16 (R163) -/
  credits : List (Nat × Nat)
  /-- pairs whose credit book has failed, and how often in a row -/
  creditFails : List (Nat × Nat)
  /-- the difference of the last audit of the cell book, where it failed -/
  cellDiff : Option Int
  /-- a leak sweep runs (R173) -/
  sweeping : Bool
  terms : List (Nat × TermRt)
  /-- points of which a scrubber has found a record or a last sample uncorrectable: their next sum cannot be formed (R181, R431) -/
  badPoints : List Nat
  /-- offset at which the pleach engine finishes the sums it works on, shown in LAST_DONE after the tick (R177) -/
  lastDone : Nat
deriving DecidableEq, Repr

def FpuState.reset : FpuState where
  gains := []
  frames := []
  cells := []
  lostHandles := 0
  voq := []
  inputs := []
  gp := []
  ap := []
  mcturn := []
  credits := []
  creditFails := []
  cellDiff := none
  sweeping := false
  terms := []
  badPoints := []
  lastDone := 0

/-- One channel of a guarded flow (R187 to R194), with what each calculator keeps (R189). -/
structure GuardChannel where
  /-- 0 ARMED, 1 RAMP_DOWN, 2 MUTED, 3 RAMP_UP -/
  state : Nat
  /-- the ramp position, RAMP_R while ARMED -/
  pos : Nat
  /-- 0 a check, 1 DISAGREE, 2 FAULT -/
  cause : Nat
  /-- calculator A: the per-tick sums it subtracts, newest first, its running sum, its run counter, the last sample's raw
  bits, and its verdict on the last tick: bit 0 peak, bit 1 DC, bit 2 stuck (R189) -/
  ringA : List Int
  sumA : Int
  runA : Nat
  lastA : Nat
  verdictA : Nat
  /-- calculator B: its ring of per-tick sums, the sum it formed of them, the media-clock index of the run's first sample,
  the last sample's raw bits, and its verdict (R189) -/
  ringB : List Int
  sumB : Int
  startB : Option Nat
  lastB : Nat
  verdictB : Nat
  /-- consecutive clean ticks -/
  clean : Nat
deriving DecidableEq, Repr

/-- A guarded flow's evaluated outbound tick: what left the guard, and the channels outside ARMED in it. -/
structure GuardTick where
  flow : Nat
  tick : Nat
  samples : List (List Nat)
  flagged : List Nat
deriving DecidableEq, Repr

/-- A frame in a class queue (R207), or in the shaper stage under its leaf. -/
structure Queued where
  port : Nat
  handle : Nat
  dest : FrameDest
  /-- local PTP time in ns at which it joined, and since when it has stood at the head -/
  joined : Nat
  headSince : Nat
  cut : Bool
  /-- local time in ns at which it reached EGU -/
  arrived : Nat
  /-- what EGU returns at its end: policer, whether to the excess bucket, millibits (R220) -/
  debt : Option (Nat × Bool × Nat)
deriving DecidableEq, Repr

/-- What an ESP transform captured (R258): the key's plaintext, sequence number, SPI, and the SA's GMAC and mode. -/
structure EspKey where
  plain : Bytes
  pn : Nat
  spi : Nat
  gmac : Bool
  transport : Bool
deriving DecidableEq, Repr

/-- What a MACsec transform captured (R261, R262). -/
structure MacKey where
  plain : Bytes
  pn : Nat
  an : Nat
  ssci : Nat
  sci : Nat
deriving DecidableEq, Repr

/-- The transforms of step 10 on a frame, none where it has none. -/
structure Seals where
  esp : Option EspKey
  mac : Option MacKey
deriving DecidableEq, Repr

/-- A media packet in transmission, of which the override may still zero words (R198): its flow, rewrite program and
identification, its header, its samples ahead of the override and after it, its payload key with tag length, and its
transforms. -/
structure TxMedia where
  flow : Nat
  /-- its outbound tick and index, and whether it is the copy that the recorder takes (R416) -/
  tick : Nat
  index : Nat
  first : Bool
  rewrite : Nat
  ident : Nat
  rtp : Bool
  header : Bytes
  plain : Bytes
  body : Bytes
  key : Option (Bytes × Nat)
  seals : Seals
  /-- the override has had its effect on it -/
  edged : Bool
deriving DecidableEq, Repr

/-- A transmission in progress on a port. -/
structure Tx where
  /-- the frame handle its release goes to -/
  handle : Option Nat
  /-- class of a best-effort frame; none for media and for HGC's and TE's own frames -/
  cls : Option Nat
  bytes : Bytes
  good : Bool
  cut : Bool
  /-- when it began and how long it occupies the port, in ns -/
  start : Nat
  wire : Nat
  /-- its header cell (R230), and what its policer is owed (R220) -/
  head : Option (Nat × Nat)
  debt : Option (Nat × Bool × Nat)
  media : Option TxMedia
deriving DecidableEq, Repr

/-- A frame that has reached QE and waits for an RX buffer (R379, R387). -/
structure RxItem where
  ring : Nat
  /-- its frame in the buffer -/
  handle : Option Nat
  /-- the bytes to write: a frame without FCS, or a media packet in INTERNAL carriage -/
  bytes : Bytes
  media : Bool
  /-- the walk of a best-effort frame -/
  walk : Walk
  src : Nat
  /-- the frame's class; none for media -/
  tc : Option Nat
  authBad : Bool
  /-- its header cell (R230) -/
  head : Option (Nat × Nat)
deriving DecidableEq, Repr

/-- An entry that QE has taken from a TX, RX or SUBMIT ring and that is not yet covered by HEAD or given back. -/
structure Taken where
  seq : Nat
  entry : Bytes
  done : Bool
deriving DecidableEq, Repr

/-- What a ring holds beside its context (R382, R384, R397). -/
structure RingRt where
  /-- a doorbelled fetch waits for a turn -/
  waiting : Bool
  fetching : Bool
  /-- entries left in the turn granted -/
  turn : Nat
  /-- reads of the fetch whose data has not come back yet -/
  ahead : Nat
  /-- oldest first -/
  taken : List Taken
  /-- the ring's interrupt request under INTx -/
  request : Bool
  /-- local PTP time in ns of the last signal -/
  signalled : Option Nat
  /-- the work was abandoned: nothing more is written for it (R390) -/
  abandoned : Bool
deriving DecidableEq, Repr

/-- QE's hidden state. -/
structure QeState where
  rings : List (Nat × RingRt)
  /-- frames and media packets that wait for an RX buffer -/
  rxWait : List RxItem
  /-- host media packets read and not yet delivered: ring, sequence, EME packet -/
  mediaWait : List (Nat × Nat × Bytes × Bool)
  /-- the round of R386: credit left and burst of each ring, and the pointer -/
  credits : List (Nat × Nat × Nat)
  ptr : Nat
  /-- where the arbiter's round robin over the units stands (R394) -/
  evPtr : Nat
  /-- ASEQ of the last event lost to each queue -/
  lastLost : List (Nat × Nat)
deriving DecidableEq, Repr

def QeState.reset : QeState where
  rings := []
  rxWait := []
  mediaWait := []
  credits := []
  ptr := 0
  evPtr := 0
  lastLost := []

/-- EGU's hidden state. -/
structure EguState where
  guard : List (Nat × List GuardChannel)
  guardTicks : List GuardTick
  /-- consecutive outbound ticks with a disagreement, and channels that disagreed in this one (R190) -/
  disagreeRun : Nat
  disagreed : Nat
  /-- channels, as flow and number, of which a scrubber has found a calculator's store uncorrectable since the last exchange (R431) -/
  badStores : List (Nat × Nat)
  /-- accepted manual re-arms: flow, tick, channel mask -/
  rearms : List (Nat × Nat × Nat)
  /-- accepted lower limits: register key, value, tick (R196) -/
  limits : List (Nat × Nat × Nat)
  /-- the remote override's first and last tick (R200) -/
  remote : Option (Nat × Nat)
  /-- FORCE as it acts, and a written value with the tick of its write (R203) -/
  forced : Bool
  forceNext : Option (Bool × Nat)
  /-- local time in ns of the falling edge that activated the local override (R198) -/
  edgeAt : Nat
  /-- OVR_PIN_DISAGREE was raised for the differing state of the pins (R203) -/
  disagreeRaised : Bool
  /-- media copies discarded at step 9 because their egress was blocked, a count that no register shows (R24) -/
  blocked : Nat
  /-- the last outbound tick in which the override was active: programme samples resume after it (R201) -/
  ovrTick : Option Nat
  /-- outbound ticks within which the override changed (R202) -/
  ovrEdges : List Nat
  /-- a PROGRAM packet of a tick that overlaps an active override is discarded (R429) -/
  pathFault : Bool
  /-- the override stage has been seen to fail on a packet (R429) -/
  stageBad : Bool
  /-- the two sideband registers, and accepted writes: value and tick (R204, R430) -/
  sideA : Nat
  sideB : Nat
  sideFault : Bool
  sidePending : List (Nat × Nat)
  /-- class queues, each oldest first, and the shaper stage by leaf (R207, R219) -/
  queues : List Queued
  shaper : List (Nat × Queued)
  shaperPtr : Nat
  /-- credit of a (port × 8 + class) queue in bits × 2^16, and the time it stands for (R215) -/
  credits : List (Nat × Int)
  creditAt : Nat
  /-- bucket and excess levels of an instance in millibits, where not full since its last write, and their time (R217) -/
  levels : List (Nat × Int × Int)
  levelAt : Nat
  tx : List (Nat × Tx)
  /-- cut-through frames without an underrun, by port (R280) -/
  ctRun : List (Nat × Nat)
  /-- effective tick of an accepted gate commit, and one that has switched and awaits its copy (R213) -/
  gateTick : Option Nat
  gateDone : Option Nat
  /-- per (port × 8 + class): longest delay in ns and frames begun in this tick (R223) -/
  begun : List (Nat × Nat × Nat)
  telemSeq : Nat
  /-- local time in ns at which EGU last advanced CONS of the telemetry ring (R225) -/
  consAt : Option Nat
deriving DecidableEq, Repr

def EguState.reset : EguState where
  guard := []
  guardTicks := []
  disagreeRun := 0
  disagreed := 0
  badStores := []
  rearms := []
  limits := []
  remote := none
  forced := false
  forceNext := none
  edgeAt := 0
  disagreeRaised := false
  blocked := 0
  ovrTick := none
  ovrEdges := []
  pathFault := false
  stageBad := false
  sideA := 0x10000
  sideB := 0x10000
  sideFault := false
  sidePending := []
  queues := []
  shaper := []
  shaperPtr := 0
  credits := []
  creditAt := 0
  levels := []
  levelAt := 0
  tx := []
  ctRun := []
  gateTick := none
  gateDone := none
  begun := []
  telemSeq := 0
  consAt := none

/-- A data-key slot's key material: the unwrapped plaintext of each half, which half is in force, and pending changes
(R248 to R252). -/
structure KeySlot where
  half0 : Bytes
  half1 : Bytes
  /-- true: half 1 is in force -/
  second : Bool
  /-- the key half not in force still serves ticks before SWITCH_TICK (R251) -/
  rewriteTick : Option Nat
  eraseTick : Option Nat
  blob : Bytes
  /-- the blob of a pending rewrite, and its KEK slot -/
  newBlob : Bytes
  newKek : Nat
  /-- the tick of the last switch (R249) -/
  lastTick : Nat
deriving DecidableEq, Repr

/-- The nonce guard of a GCM_MEDIA slot (R256). -/
structure NonceGuard where
  epoch : Nat
  liveHwm : Option Nat
  firstLive : Option Nat
  replayHwm : Option Nat
deriving DecidableEq, Repr

/-- CKU's hidden state. -/
structure CkuState where
  keks : List (Nat × Bytes)
  slots : List (Nat × KeySlot)
  guards : List (Nat × NonceGuard)
  /-- anti-replay of an SA: accepted sequence numbers within the window of its PN (R260) -/
  seen : List (Nat × List Nat)
  /-- SAs that have raised PN_THRESHOLD or PN_EXHAUSTED (R267) -/
  noted : List (Nat × Nat)
deriving DecidableEq, Repr

def CkuState.reset : CkuState where
  keks := []
  slots := []
  guards := []
  seen := []
  noted := []

/-- PXC's hidden state. -/
structure PxcState where
  /-- writes of VLAN_CFG and PCP_MAP that await their tick: key, value, tick (R282) -/
  pending : List (Nat × Nat × Nat)
  /-- pauses in force: port × 16 + class, 8 for the port; up to when, in ns, it is counted in TX_PAUSED_NS (R284) -/
  paused : List (Nat × Nat)
  /-- hold-offs in force (R285) -/
  holdoff : List Nat
  /-- ports whose diagnostic receiver runs (R275) -/
  diag : List Nat
  /-- the tick in which the snapshot was requested (R291) -/
  snapTick : Nat
  /-- fault CLOCK has stopped every MAC transmitter (R428, R449) -/
  txStopped : Bool
deriving DecidableEq, Repr

def PxcState.reset : PxcState where
  pending := []
  paused := []
  holdoff := []
  diag := []
  snapTick := 0
  txStopped := false

/-- RTU's hidden state: the identification counter of each program, where not 0 (R235). -/
structure RtuState where
  ident : List (Nat × Nat)
deriving DecidableEq, Repr

def RtuState.reset : RtuState where
  ident := []

/-- A media packet in the backlog, as it left step 9 (R315). -/
structure BacklogPkt where
  tick : Nat
  flow : Nat
  index : Nat
  toRing : Bool
  /-- the port, or the ring -/
  port : Nat
  offset : Nat
  rewrite : Nat
  samples : List Nat
  flags : Nat
deriving DecidableEq, Repr

/-- A digest record (R320); `crc` is the register of its CRC-32C while packets are added. -/
structure Digest where
  flow : Nat
  tick : Nat
  heldIn : Bool
  edge : Bool
  notSent : Bool
  crc : Nat
deriving DecidableEq, Repr

/-- What a witness keeps of a pair beside its window (R306, R307). -/
structure WitPair where
  pair : Nat
  /-- the tick of PRIMARY's last FIT request -/
  fitTick : Option Nat
  /-- parties whose HOLDING request arrived in the restart window -/
  holding : List Nat
  /-- the last FIT flag that each member reported -/
  fits : List (Nat × Bool)
deriving DecidableEq, Repr

/-- HGC's hidden state. -/
structure HgcState where
  /-- what the HEDGE section declares beside the registers (R297): SHOW_HASH, the backlog's HBM regions, and, for a witness, the
  identity of each party of each pair -/
  showHash : Nat
  regions : List Nat
  members : List (Nat × Nat × Nat)
  /-- VER_MIN and VER_MAX of the firmware (R327) -/
  verMin : Nat
  verMax : Nat
  /-- link sequence number of the next hedge frame (R317) -/
  linkSeq : Nat
  /-- the pair was refused while a held cause kept the unit FENCED (R309, R327) -/
  refused : Bool
  /-- CMD_SEQ of the partner's last heartbeat (R326) -/
  heardSeq : Nat
  /-- CMD_SEQ of the last carried command that changed an item (R325) -/
  sent : List (CarriedItem × Nat)
  /-- held fence causes in force (R309) -/
  heldCauses : List Nat
  /-- SEQ of the last message sent (R299), and what was sent at the TICK of HGC_WIT_HWM: pair, type, target (R300) -/
  seq : Nat
  sentNow : List (Nat × Nat × Nat)
  /-- last accepted SEQ, by pair × 4 + sender (R304) -/
  accepted : List (Nat × Nat)
  /-- own requests, newest first, at most four: TICK and SEQ -/
  requests : List (Nat × Nat)
  /-- consecutive requests without a reply -/
  unanswered : Nat
  /-- WITNESS_LOST was raised and no reply has come since -/
  witLost : Bool
  /-- the conditions of R328: an own request sent, a grant that named another party, a HELLO with state ACTIVE -/
  requested : Bool
  grantOther : Bool
  helloActive : Bool
  /-- FALLBACK has taken its epoch -/
  fallbackOn : Bool
  /-- the partner's state and epoch as last heard -/
  partner : Option (Nat × Nat)
  /-- the epoch last seen in a heartbeat of the partner, which the loss of the link leaves (R313) -/
  partnerEpoch : Option Nat
  /-- a heartbeat of an ACTIVE partner has arrived since this unit last entered STANDBY (R315) -/
  partnerActive : Bool
  /-- the first outbound tick of live transmission after a takeover -/
  liveFrom : Nat
  /-- the last outbound tick fully begun by this unit (R315) -/
  lastTx : Nat
  /-- packets of the last 64 outbound ticks -/
  backlog : List BacklogPkt
  /-- a replay: first missed tick and tick of the takeover; and the packets due in this tick -/
  replay : Option (Nat × Nat)
  replayDue : List BacklogPkt
  digests : List Digest
  /-- the last outbound tick whose records were compared with the active's (R321) -/
  compared : Nat
  /-- consecutive mismatching ticks of a flow and the last of them, and the tick of its last SHADOW_MISMATCH -/
  runs : List (Nat × Nat × Nat)
  raised : List (Nat × Nat)
  /-- flows that mismatched in this second -/
  second : List Nat
  /-- phase of layering: 0 BULK, 1 DELTA, 2 SETTLE (R324) -/
  layer : Option Nat
  /-- CMD_SEQ of each word that BULK brought (R325) -/
  items : List (Nat × Nat)
  /-- CMD_SEQ of the other items that BULK brought (R325) -/
  itemSeqs : List (CarriedItem × Nat)
  /-- key slots whose blob has failed, and which the manager must rewrite first (R431) -/
  badKeys : List Nat
  settleTick : Nat
  /-- STATE, NOT_FIT and FEATURES_DOWN as last reported (R323) -/
  health : Nat × Nat × Nat
  wit : List WitPair
  /-- WIT_CLK is down -/
  clkDown : Bool
deriving DecidableEq, Repr

def HgcState.reset : HgcState where
  showHash := 0
  regions := []
  members := []
  verMin := 0
  verMax := 0
  linkSeq := 0
  refused := false
  heardSeq := 0
  sent := []
  heldCauses := []
  seq := 0
  sentNow := []
  accepted := []
  requests := []
  unanswered := 0
  witLost := false
  requested := false
  grantOther := false
  helloActive := false
  fallbackOn := false
  partner := none
  partnerEpoch := none
  partnerActive := false
  liveFrom := 0
  lastTx := 0
  backlog := []
  replay := none
  replayDue := []
  digests := []
  compared := 0
  runs := []
  raised := []
  second := []
  layer := none
  items := []
  itemSeqs := []
  badKeys := []
  settleTick := 0
  health := (0, 0, 0)
  wit := []
  clkDown := false

/-- A cached translation of a function (R355): the page's input and host base, its size, and the leaf's permissions. -/
structure TlbEntry where
  func : Nat
  base : Nat
  log2 : Nat
  host : Nat
  read : Bool
  write : Bool
deriving DecidableEq, Repr

/-- TTU's hidden state. The walk cache shows only in which table entries a walk reads, which are operands. -/
structure TtuState where
  /-- newest first -/
  tlb : List TlbEntry
  /-- cached marks: function, phase, word of the bitmap, marks (R361) -/
  marks : List (Nat × Bool × Nat × Nat)
  /-- functions with a mark out of range since their last sync -/
  outRange : List Nat
  /-- table entries that are not leaves, newest first: function, host address, entry (R355) -/
  walkCache : List (Nat × Nat × Nat)
  /-- the invalidation that runs: tags of the reads in scope, translated before it, that have not ended (R357) -/
  inv : Option (List Nat)
  /-- VFs under an FLR that waits for their requests to end (R349, R359) -/
  flr : List Nat
  /-- the sync that runs, and those that a cleared LOG_EN has queued behind it: function, and OUT_RANGE of the period it
  closes (R362, R363) -/
  sync : List (Nat × Bool)
  /-- table entries that the walks of the running command read, one list a walk; empty between commands (the model's own) -/
  walks : List (List (Option (BitVec 64)))
deriving DecidableEq, Repr

def TtuState.reset : TtuState where
  tlb := []
  walkCache := []
  marks := []
  outRange := []
  inv := none
  flr := []
  sync := []
  walks := []

/-- Who a read of host memory is for, and so who hears that it failed (R338): the fetch of a ring's entry, the payload of a TX
entry, or the data of a storage command, each by ring and sequence. -/
inductive ReadUse where
  | fetch (ring seq : Nat)
  | payload (ring seq : Nat)
  | command (ring seq : Nat)
deriving DecidableEq, Repr

/-- A read request: its function, input and host address, length, and whether an invalidation waits for it (R336, R357). -/
structure ReadReq where
  func : Nat
  addr : Nat
  host : Nat
  len : Nat
  use : ReadUse
  inv : Bool
deriving DecidableEq, Repr

/-- HIU's hidden state. -/
structure HiuState where
  /-- outstanding read tags, each with its request (R336) -/
  tags : List (Nat × ReadReq)
  /-- reads that wait for a tag, and where the round robin over functions stands (R337) -/
  queue : List ReadReq
  rr : Nat
  /-- the flow-control credits of the host link, for posted, non-posted and completion headers and data in turn: advertised, held,
  and consumed by TLPs not yet returned (R339) -/
  fc : List (Nat × Nat × Nat)
  /-- functions in D3hot (R349) -/
  vfD3 : List Nat
  /-- PERST# is asserted -/
  perst : Bool
  /-- local time in ns at which the host watchdog started last (R346) -/
  kicked : Nat
  /-- the difference of the last audit of the tag book, where it failed (R339) -/
  tagDiff : Option Int
deriving DecidableEq, Repr

def HiuState.reset : HiuState where
  tags := []
  queue := []
  rr := 0
  fc := List.replicate 6 (0, 0, 0)
  vfD3 := []
  perst := true
  kicked := 0
  tagDiff := none

/-- A packet that the recorder has taken (R416). -/
structure Tap where
  flow : Nat
  tick : Nat
  index : Nat
  samples : Bytes
  flags : Nat
deriving DecidableEq, Repr

/-- The XTS operations of a storage command that have not run (R415): namespace ID and data-unit size of the command, the half that
its first operation captured, the next LBA, the data not transformed yet, that of a WRITE transformed already, and Dword 0. -/
structure XtsRun where
  nsid : Nat
  size : Nat
  second : Bool
  half : Bytes
  lba : Nat
  rest : Bytes
  done : Bytes
  dw0 : Nat
deriving DecidableEq, Repr

/-- A storage command in flight (R400 to R405). -/
structure StorCmd where
  /-- the SUBMIT ring and sequence of its entry -/
  ring : Nat
  seq : Nat
  /-- TKIND: a namespace, or a connection -/
  ns : Bool
  handle : Nat
  /-- identifier towards the target -/
  cid : Nat
  opc : Nat
  slba : Nat
  nlb : Nat
  buf : Nat
  /-- bytes of the transfer, and bytes moved -/
  len : Nat
  moved : Nat
  /-- it has completed towards its ring, and the target has not answered it yet -/
  closed : Bool
  /-- the owner of its ring, for which the buffer is accessed (R354) -/
  func : Nat
  /-- the XTS operations left (R415) -/
  xts : Option XtsRun
deriving DecidableEq, Repr

/-- The TCP state of a connection that is not CLOSED (R404). -/
structure ConnRt where
  /-- oldest unacknowledged and next sequence to send; the bytes from the former on; the SYN and the FIN count as one each -/
  una : Nat
  nxt : Nat
  buf : Bytes
  syn : Bool
  fin : Bool
  /-- the peer's FIN has arrived -/
  peerFin : Bool
  /-- next sequence expected, and the peer's last timestamp -/
  rcv : Nat
  tsRecent : Nat
  /-- the peer's window and scale, and the segment size -/
  wnd : Nat
  scale : Nat
  mss : Nat
  cwnd : Nat
  ssthresh : Nat
  dups : Nat
  recover : Option Nat
  /-- consecutive timeouts of the oldest segment -/
  timeouts : Nat
  /-- the FIN has been sent -/
  finSent : Bool
  /-- the digests in force, and CPDA (R403) -/
  hdgst : Bool
  ddgst : Bool
  cpda : Nat
  /-- the Fabrics Connect has been sent -/
  connecting : Bool
deriving DecidableEq, Repr

/-- A recording that is not IDLE (R416 to R420). -/
structure RecRt where
  index : Nat
  /-- effective tick of START; of STOP, where one is set -/
  start : Nat
  stop : Option Nat
  /-- chunks due so far: the next CHUNK_SEQ -/
  seq : Nat
  /-- size of a chunk in 4 KiB blocks, and HBM units held -/
  blocks : Nat
  units : Nat
  /-- chunks staged, oldest first: their writes under way -/
  staged : List Nat
deriving DecidableEq, Repr

/-- SIE's hidden state. -/
structure SieState where
  /-- packets staged for the recordings -/
  taps : List Tap
  commands : List StorCmd
  conns : List (Nat × ConnRt)
  /-- OPENs of each connection so far -/
  opens : List (Nat × Nat)
  recs : List RecRt
  /-- the 5 s removal window runs; CC.SHN has been written (R412) -/
  removal : Bool
  shn : Bool
deriving DecidableEq, Repr

def SieState.reset : SieState where
  taps := []
  commands := []
  conns := []
  opens := []
  recs := []
  removal := false
  shn := false

/-- The state of the block. -/
structure State where
  /-- every register and window word; an unlisted word holds its reset value -/
  regs : List (Nat × Word)
  /-- the commands that wait, first in first out -/
  pending : List Instr
  /-- how many free values have been taken (DESIGN CHOICE, log entry 6; the model's own field) -/
  free : Nat
  reply : Option Reply
  /-- what has left the block, newest first (DESIGN CHOICE, log entry 5; the model's own field) -/
  out : List Out
  /-- every unit's event store, oldest first (R394) -/
  events : List Event
  /-- what was raised in this tick under an at-most-once-per-tick rule -/
  once : List Nat
  holds : List Hold
  sup : SupState
  te : TeState
  hgc : HgcState
  media : MediaState
  pcu : PcuState
  ftu : FtuState
  fpu : FpuState
  egu : EguState
  cku : CkuState
  pxc : PxcState
  rtu : RtuState
  hiu : HiuState
  ttu : TtuState
  qe : QeState
  sie : SieState
deriving DecidableEq, Repr

/-- Reset values of configuration space that are not zero: Relaxed Ordering enabled and Max Read Request Size 512 in PF0's Device
Control, and System Page Size 4 KiB (PRESUMED from the PCI Express family, log entry 110). -/
def configReset (f off : Nat) : Nat := if f = 0 && off == 0x68 then 0x2010 else if f = 0 && off == 0x1A0 then 1 else 0

/-- The reset value of every word (R10, and the rules of the units' chapters). -/
def resetWord (k : Nat) : Word :=
  if 0x05400000 ≤ k && k < 0x05400100 then
    -- R233: program 0 is VALID with every other field zero
    if k = 0x05400000 then 0x80000000 else 0
  else if 0x07004000 ≤ k && k < 0x07008000 then
    -- R212: the committed list of a port holds one entry that opens every class
    if k % 256 = 0 then 0x800000FF else 0
  else if 0x0B300000 ≤ k && k < 0x0B348000 then 0x80008000
  else if 0x0C400000 ≤ k && k < 0x0CC00000 && k % 64 = 52 then BitVec.ofNat 32 ((k - 0x0C400000) / 64)
  else if 0x0A010000 ≤ k && k < 0x0A018000 then if k % 16 = 12 then 1 else 0
  else if 0x40000000 ≤ k then BitVec.ofNat 32 (configReset ((k - 0x40000000) / 0x1000) (k % 0x1000))
  else if 0x20000000 ≤ k then
    if 0x9800 ≤ k % 0x10000 && k % 0x10000 < 0x9C00 && k % 16 = 12 then 1 else 0
  else
    match (resetsFor k).find? (fun r =>
        r.1 ≤ k && (if r.2.1 = 0 then k == r.1 else (k - r.1) % r.2.1 == 0 && (k - r.1) / r.2.1 < r.2.2.1)) with
    | some r => BitVec.ofNat 32 r.2.2.2
    | none => 0

/-- An unlisted flash byte (PRESUMED, log entry 7). -/
def flashBlank (_ : Nat) : Byte := 0xFF

/-- SUP after reset: VAUX applied and POR_N released, boot not begun. -/
def SupState.reset : SupState where
  flash := []
  flashOp := none
  otpKey := none
  otpSecver := 0
  otpOk := true
  otpMac := 0
  deviceSecret := 0
  sramReady := false
  bootSlot := none
  image := BootImage.none
  flashMode := (0, 0)
  firmware := false
  imagePair := false
  loaded := 0
  initFlows := []
  initPoints := []
  vaux := true
  vauxFresh := true
  porLow := false
  railTrip := false
  fillOrder := []
  filling := false
  hbmHeld := []
  warmDue := false
  unitReset := none
  svcRestarting := false
  svcTimes := []
  svcHeld := []
  scrubNs := 0
  bistNs := 0
  tempWarned := false
  frameReplies := []
  trackDiff := 0
  bookFails := []
  bookFixed := []

def TeState.reset : TeState where
  goodFreqs := []
  freqEst := 0
  badRun := 0
  announces := []
  gm := none
  faulty := []
  mismatch := []
  refAbsent := false
  ppsBad := false
  wasLocked := false
  awaiting := []
  sent := []
  changes := []
  books := []
  homes := []
  since := []

/-- The machine right after reset: every register at its reset value, memory with nothing listed, an empty queue. -/
def State.reset : State where
  regs := []
  pending := []
  free := 0
  reply := none
  out := []
  events := []
  once := []
  holds := []
  sup := SupState.reset
  te := TeState.reset
  hgc := HgcState.reset
  media := MediaState.reset
  pcu := PcuState.reset
  ftu := FtuState.reset
  fpu := FpuState.reset
  egu := EguState.reset
  cku := CkuState.reset
  pxc := PxcState.reset
  rtu := RtuState.reset
  hiu := HiuState.reset
  ttu := TtuState.reset
  qe := QeState.reset
  sie := SieState.reset

end Sys2Proof.Machine
end

