-- ==== Sys2Proof/Machine/Ops.lean ====
section
/-! DEFINITION. The shared operations over State: registers and fields, counters, free values, events, the health log,
unit states and the service tier, and fencing. -/

namespace Sys2Proof.Machine

/-- A command that completes. -/
abbrev ok (s : State) : Host.Outcome State Fault Refusal := .next s

/-! ## Registers -/

/-- The value of one word. -/
def State.rd (s : State) (k : Nat) : Nat := (Sparse.get resetWord s.regs k).toNat

/-- `s` with one word set, by the device or by an accepted write. -/
def State.wr (s : State) (k v : Nat) : State :=
  { s with regs := Sparse.set resetWord s.regs k (BitVec.ofNat 32 v) }

/-- `s` with every word of `area` at its reset value. -/
def State.resetWords (s : State) (area : Nat → Bool) : State :=
  { s with regs := s.regs.filter (fun p => !area p.1) }

/-- The value of a field; one that reaches above bit 31 takes in the next word (R13). -/
def State.get (s : State) (f : Field) : Nat :=
  if f.hi < 32 then bits (s.rd f.key) f.lo (f.hi + 1 - f.lo)
  else bits (s.rd f.key + 2 ^ 32 * s.rd (f.key + 4)) f.lo (f.hi + 1 - f.lo)

/-- `s` with a field set, the rest of its words kept. -/
def State.put (s : State) (f : Field) (v : Nat) : State :=
  if f.hi < 32 then s.wr f.key (setBits (s.rd f.key) f.lo (f.hi + 1 - f.lo) v)
  else
    let w := setBits (s.rd f.key + 2 ^ 32 * s.rd (f.key + 4)) f.lo (f.hi + 1 - f.lo) v
    (s.wr f.key (w % 2 ^ 32)).wr (f.key + 4) (w / 2 ^ 32)

/-- A one-bit field as a Boolean. -/
def State.flag (s : State) (f : Field) : Bool := s.get f == 1

/-- Count one in a counter of 64 bits, which never wraps (R439). -/
def State.bump (s : State) (f : Field) : State := s.put f (s.get f + 1)

/-- Count `n` in a 64-bit counter. -/
def State.bumpBy (s : State) (f : Field) (n : Nat) : State := s.put f (s.get f + n)

/-- Count one in a counter that holds at its greatest value (R91, R439). -/
def State.bumpSat (s : State) (f : Field) : State :=
  if s.get f + 1 < 2 ^ (f.hi + 1 - f.lo) then s.put f (s.get f + 1) else s

/-- Set each word of a list. -/
def State.wrAll (s : State) (l : List (Nat × Nat)) : State := l.foldl (fun s p => s.wr p.1 p.2) s

/-- `n` words from key `k`. -/
def State.rdWords (s : State) (k n : Nat) : List Nat := (List.range n).map (fun i => s.rd (k + 4 * i))

/-- The words of a list written from key `k`. -/
def State.wrWords (s : State) (k : Nat) : List Nat → State
  | [] => s
  | v :: l => (s.wr k v).wrWords (k + 4) l

/-- Let a change apply where a condition holds. -/
def State.when (s : State) (b : Bool) (f : State → State) : State := if b then f s else s

/-- The main rails are up and POR_N is released: outside the always-on island something is clocked (R446). -/
def State.powered (s : State) : Bool := s.sup.vaux && !s.sup.porLow && !s.sup.railTrip

/-- Something leaves the block. -/
def State.emit (s : State) (o : Out) : State := { s with out := o :: s.out }

/-- Take the next free value (DESIGN CHOICE, log entry 6): a value the spec leaves open. -/
def State.takeFree (s : State) : Nat × State := (Config.freeValue s.free, { s with free := s.free + 1 })

/-! ## Pipeline copies -/

/-- The word at `k` of a window that shows a pipeline's copy of a record of FTU, where a fault has made the copy differ: words 0 to
10 of a flow entry show pipeline 0's (R135, R157). -/
def State.copyWord (s : State) (k : Nat) : Option Nat :=
  let get := fun (table index pipe i : Nat) =>
    (s.ftu.copies.find? (fun x => x.1 == table * 0x1000000 + index && x.2.1 == pipe)).map (fun x => x.2.2.getD i 0)
  let now := if s.rd 0x03001004 % 2 = 0 then 0 else 1
  if 0x12000000 ≤ k && k < 0x12800000 && k % 128 < 44 then get 0 ((k - 0x12000000) / 128) 0 (k % 128 / 4)
  else if 0x12A00000 ≤ k && k < 0x12E00000 && k % 16 < 8 then
    get 2 ((k - 0x12A00000) % 0x100000 / 16) ((k - 0x12A00000) / 0x100000) (2 * now + k % 16 / 4)
  else if 0x12E00000 ≤ k && k < 0x12E10000 then get 4 ((k - 0x12E00000) % 0x4000 / 4) ((k - 0x12E00000) / 0x4000) now
  else none

/-! ## Time -/

/-- The tick counter (R70), its place in TE_TICK_LO and TE_TICK_HI. -/
abbrev Reg.TE_TICK : Field := ⟨0x01001000, 47, 0⟩

/-- The current tick. -/
def State.tick (s : State) : Nat := s.get Reg.TE_TICK

/-- The current offset in ns. -/
def State.offset (s : State) : Nat := s.get Reg.TE_OFFSET

/-- The tick period in half microseconds: 125, 250, 500, 1000, 2000 (R86). -/
def State.halfMicros (s : State) : Nat := 125 * 2 ^ s.get Reg.TE_CFG_PERIOD

/-- The tick period T in ns (R6). -/
def State.period (s : State) : Nat := 500 * s.halfMicros

/-- Local PTP time in ns. -/
def State.localNs (s : State) : Nat := s.tick * s.period + s.offset

/-- Samples per tick for a rate code (R71, R87). -/
def State.samples (s : State) (rate : Nat) : Nat := 3 * 2 ^ s.get Reg.TE_CFG_PERIOD * 2 ^ rate

/-- `part` of `whole` in percent, rounded up: the reserve (R18, R75). -/
def reserveOf (whole pct : Nat) : Nat := ceilDiv (whole * pct) 100

/-- Keys that hold the tick counter: a read of TE_TICK_LO captures TE_OFFSET as well (R70). -/
def tickLoKey : Nat := 0x01001000
def offsetKey : Nat := 0x01001008

/-! ## Units -/

/-- The unit numbers of R8. -/
inductive Unit' where
  | sup | te | pxc | pcu | ftu | rtu | fpu | egu | cku | hgc | hiu | ttu | qe | sie
deriving DecidableEq, Repr

/-- A unit's number (R8). -/
def Unit'.num : Unit' → Nat
  | .sup => 0 | .te => 1 | .pxc => 2 | .pcu => 3 | .ftu => 4 | .rtu => 5 | .fpu => 6
  | .egu => 7 | .cku => 8 | .hgc => 9 | .hiu => 10 | .ttu => 11 | .qe => 12 | .sie => 13

/-- The unit is in RUN (R30). -/
def State.running (s : State) (u : Unit') : Bool := s.get (Reg.UNIT_STATE u.num) == 2

/-- Role PAIR, and the hedge states of R298. -/
def State.pairRole (s : State) : Bool := s.get Reg.HGC_CFG_ROLE == 1
def State.hedgeState (s : State) : Nat := s.get Reg.HGC_STATE_STATE
def State.active (s : State) : Bool := s.hedgeState == 4
/-- The unit holds the lease: state ACTIVE with LEASE_END ahead (R305, R34). -/
def State.holdsLease (s : State) : Bool := s.active && s.tick < s.get Reg.HGC_LEASE_END
/-- The unit may transmit media at step 11 (R34, R52, R57, R298): SOLO and WITNESS do, unless the image declares role PAIR and
HGC has not loaded it, a member under its lease from its first live tick on, FALLBACK under R328, but for a held cause (R311). -/
def State.mayTransmit (s : State) : Bool :=
  match s.hedgeState with
  | 0 => !s.pairRole && !s.sup.imagePair
  | 4 => s.running .hgc && s.holdsLease && s.hgc.liveFrom ≤ s.tick
  | 6 => s.running .hgc && s.flag Reg.HGC_CFG_FALLBACK_TX && !s.hgc.helloActive && s.hgc.requested && !s.hgc.grantOther &&
      s.hgc.heldCauses.isEmpty
  | 7 => true
  | _ => false

/-- ATTACHED (MODE 0); reset is standalone (R343). -/
def State.attached (s : State) : Bool := !s.flag Reg.HIU_HOST_STATE_MODE

/-! ## Events and the health log -/

/-- The payload of R393: fields in order, each at the next multiple of 8 bits. -/
def payloadAt : Nat → List (Nat × Nat) → Nat
  | _, [] => 0
  | at_, (w, v) :: l => v % 2 ^ w * 2 ^ at_ + payloadAt (at_ + (w + 7) / 8 * 8) l

def payload (l : List (Nat × Nat)) : Nat := payloadAt 0 l

/-- How many events a unit holds ahead of the arbiter. -/
def State.eventsOf (s : State) (u : Nat) : Nat := (s.events.filter (fun e => e.unit == u)).length

/-- Put an event into its unit's store of 1,024; one that finds it full is lost and counted, and ARB_LOST is raised
to PF0 once per tick, and is counted like any other where QE's own store is full (R394). -/
def State.raiseEvent (s : State) (e : Event) : State :=
  if s.eventsOf e.unit < 1024 then { s with events := s.events ++ [e] }
  else
    let s := s.bump Reg.QE_ARB_LOST
    let key := 0xA0000
    if s.once.contains key then s
    else if 1024 ≤ s.eventsOf 12 then { s.bump Reg.QE_ARB_LOST with once := key :: s.once }
    else { s with once := key :: s.once,
                  events := s.events ++ [⟨12, 5, 0, .pf, payload [(8, e.unit), (32, s.get Reg.QE_ARB_LOST)]⟩] }

/-- Raise an event of unit `u` to PF0. -/
def State.raise (s : State) (u : Unit') (type : Nat) (fields : List (Nat × Nat)) : State :=
  s.raiseEvent ⟨u.num, type, 0, .pf, payload fields⟩

/-- Raise an event of unit `u` that concerns function `f` to PF0. -/
def State.raiseFor (s : State) (u : Unit') (type f : Nat) (fields : List (Nat × Nat)) : State :=
  s.raiseEvent ⟨u.num, type, f, .pf, payload fields⟩

/-- Do something at most once in this tick, under a key of its own. -/
def State.oncePerTick (s : State) (key : Nat) (f : State → State) : State :=
  if s.once.contains key then s else f { s with once := key :: s.once }

/-- The tick a record carries: 0 before TE runs, since the counter stands at 0 until then; the last tick while TE does not run again
(R441). -/
def State.logTick (s : State) : Nat := s.tick

/-- Enter a record in the health log (R441, R442); `u` is 255 where no unit is concerned. -/
def State.hlog (s : State) (type u pay : Nat) : State :=
  let n := s.get Reg.SUP_HLOG_PROD
  let k := 0x8000 + 32 * (n % 1024)
  let t := s.logTick
  (s.wrWords k [n, type + u * 2 ^ 16 + s.get Reg.SUP_RESET_CAUSE_BOOT * 2 ^ 24, t % 2 ^ 32, t / 2 ^ 32,
    pay % 2 ^ 32, pay / 2 ^ 32 % 2 ^ 32, pay / 2 ^ 64 % 2 ^ 32, pay / 2 ^ 96 % 2 ^ 32]).put Reg.SUP_HLOG_PROD (n + 1)

/-- An uncorrectable error in a memory of unit `u` (R431, R436): counted, recorded, and raised at most once per tick. `memory` is
the row of R431's table. -/
def State.eccUncorr (s : State) (u memory : Nat) : State :=
  let what := [(8, u), (8, Config.memoryCode memory)]
  ((s.bump Reg.SUP_ECC_UNCORR).hlog 14 u (payload what)).oncePerTick 0x007 (fun s => s.raise .sup 7 what)

/-! ## The service tier and faults -/

/-- MAC port `p` exists in the lane map (R271). -/
def State.portExists (s : State) (p : Nat) : Bool :=
  p < 32 && match s.get (Reg.PXC_QUAD_CFG_MODE (p / 4)) with
    | 1 => p % 4 == 0
    | 2 => p % 2 == 0
    | 3 | 4 => true
    | _ => false

/-- The rate of a port in units of Gb/s, by its SPEED code (R272). -/
def State.portRate (s : State) (p : Nat) : Nat :=
  match s.get (Reg.PXC_PORT_CFG_SPEED p) with
  | 6 => 400 | 5 => 200 | 4 => 100 | 3 => 50 | 2 => 25 | 1 => 10 | _ => 0

/-- The tier that the unit states give (R55, R56). -/
def State.tierNow (s : State) : Nat :=
  let t1 := s.running .sup && s.running .te && s.running .pxc && (List.range 32).any s.portExists &&
    s.running .pcu && s.running .ftu && s.running .fpu && s.running .egu
  if t1 && s.running .hiu && s.running .ttu && s.running .qe then 2 else if t1 then 1 else 0

/-- The units that tier 1 and media transmission need (R55, R57), but for CKU, which only encrypted media needs: TE to EGU,
and HGC. -/
def mediaUnit (u : Nat) : Bool := (1 ≤ u && u ≤ 7) || u == 9

/-- TIER shows tier 0 (R55, R56). -/
def State.tierZero (s : State) : Bool := s.get Reg.SUP_BOOT_STATUS_TIER == 0

/-- NOT_FIT.UNIT_DOWN (R322, R453): HGC, CKU or a tier-1 unit not in RUN, or a reset accepted that stops media. -/
def State.refreshFit (s : State) : State :=
  let down := !(s.running .hgc && s.running .cku && 1 ≤ s.tierNow) || s.sup.warmDue || s.sup.unitReset.any mediaUnit
  if s.pairRole then s.put Reg.HGC_STATE_NOT_FIT (setBits (s.get Reg.HGC_STATE_NOT_FIT) 1 1 (bit down)) else s

/-- EGU_SIDEBAND (R204): AMP_HOLD in bit 16, GPIO in [15:0]. -/
abbrev Reg.EGU_SIDEBAND_ALL : Field := ⟨0x07008600, 16, 0⟩

/-- AMP_HOLD and the GPIO outputs take values (R204); once their two registers have differed they keep the last agreed value
(R430). -/
def State.driveSideband (s : State) (v : Nat) : State :=
  if s.egu.sideFault then s
  else ({ s with egu := { s.egu with sideA := v, sideB := v } } : State).put Reg.EGU_SIDEBAND_ALL v

/-- Recompute TIER; a change is logged, and raised when QE is in RUN (R56). In tier 0 AMP_HOLD drives 1 and every GPIO 0
(R204). -/
def State.retier (s : State) : State :=
  let old := s.get Reg.SUP_BOOT_STATUS_TIER
  let new := s.tierNow
  let s := s.refreshFit
  if old = new then s
  else
    let s := (s.put Reg.SUP_BOOT_STATUS_TIER new).hlog 3 255 (payload [(8, old), (8, new)])
    let s := s.when (new = 0) (fun s => s.driveSideband 0x10000)
    s.when (s.running .qe) (fun s => s.raise .sup 3 [(8, old), (8, new)])

/-- A unit changes STATE, and TIER follows. -/
def State.setUnit (s : State) (u st : Nat) : State := (s.put (Reg.UNIT_STATE u) st).retier

/-- A unit's fault: FAULT holds the first, each is logged, and the change from 0 is raised (R434). -/
def State.fault (s : State) (u : Nat) (code : Nat) : State :=
  if s.get (Reg.UNIT_FAULT u) = 0 then
    ((s.put (Reg.UNIT_FAULT u) code).hlog 12 u (payload [(8, u), (8, code)])).raise .sup 5 [(8, u), (8, code)]
  else s.hlog 12 u (payload [(8, u), (8, code)])

/-- First power domain and number of domains of a unit (R443). -/
def powerDomains : Nat → Nat × Nat
  | 0 => (1, 5) | 1 => (6, 2) | 2 => (8, 40) | 3 => (48, 8) | 4 => (56, 8) | 5 => (64, 4) | 6 => (68, 15)
  | 7 => (83, 8) | 8 => (91, 16) | 9 => (107, 9) | 10 => (116, 17) | 11 => (133, 2) | 12 => (135, 2)
  | 13 => (137, 9) | _ => (0, 0)

/-- Power domain `d` is switched (R443). -/
def State.setPower (s : State) (d : Nat) (on : Bool) : State :=
  s.wr (0x1610 + 4 * (d / 32)) (setBits (s.rd (0x1610 + 4 * (d / 32))) (d % 32) 1 (bit on))

/-- The lanes of MODE that some port uses: all four, but for OFF (R271, R444). -/
def State.laneOn (s : State) (lane : Nat) : Bool := s.get (Reg.PXC_QUAD_CFG_MODE (lane / 4)) != 0

/-- Switch a unit's domains (R444); a lane or quad domain of a quad whose MODE is OFF stays off, and so do the hedge lanes of a
unit whose role is not PAIR (DEDUCED, log entry 19). -/
def State.powerUnit (s : State) (u : Nat) (on : Bool) : State :=
  let (first, n) := powerDomains u
  forEach (List.range n) s (fun i s =>
    let d := first + i
    if u = 2 && on then
      s.setPower d (if d < 40 then s.laneOn (d - 8) else s.laneOn (4 * (d - 40)))
    else if u = 9 && on && i < 8 then s.setPower d (s.pairRole || s.sup.imagePair)
    else s.setPower d on)

/-- A unit enters FAILED with a fault code, and its power domains are turned off (R51, R433, R434, R444). -/
def State.failUnit (s : State) (u code : Nat) : State :=
  ((s.fault u code).setUnit u 3).powerUnit u false

/-! ## Fencing (R309, R310) -/

/-- Write the epoch record of the always-on island (R310, R313). -/
def State.keepEpoch (s : State) : State :=
  (s.put Reg.HGC_EPOCH_AON_VALID 1).put Reg.HGC_EPOCH_AON_LAST_EPOCH (s.get Reg.HGC_STATE_EPOCH)

/-- NOT_FIT.NOT_LAYERED: set while the state is neither STANDBY nor FENCED with a cause that is not held (R322). -/
def State.refreshLayered (s : State) : State :=
  let c := s.get Reg.HGC_STATE_FENCE_CAUSE
  let good := s.hedgeState == 3 || (s.hedgeState == 5 && (c == 1 || c == 2 || c == 7))
  s.put Reg.HGC_STATE_NOT_FIT (setBits (s.get Reg.HGC_STATE_NOT_FIT) 0 1 (bit (!good)))

/-- The held causes of R309. -/
def heldCause (c : Nat) : Bool := c == 3 || c == 4 || c == 5 || c == 6

/-- The items that a carried command changes. -/
def carriedItems (op : CarriedOp) : List CarriedItem :=
  match op with
  | .words l => l.map (fun x => .word x.1)
  | .admission p id => [.object p id]
  | .remove p id => [.object p id]
  | .tblCommit => [.versioned]
  | .lpm _ fam vrf len addr _ => [.pfx fam vrf len addr]
  | .macStatic _ vlan mac _ _ => [.mac vlan mac]
  | .gain term _ => [.gain term]
  | .rearm flow _ => [.guard flow]
  | .limit key _ => [.limit key]
  | .sideband _ => [.sideband]
  | .gateCommit => [.gates]
  | .key _ slot _ _ => [.slot slot]
  | .keyErase slot => [.slot slot]
  | .vlan key _ => [.vlan key]

/-- The unit sends a frame on the hedge link, under the link's next sequence number (R317). -/
def State.sendLink (s : State) (frame : Nat → Out) : State :=
  ({ s with hgc := { s.hgc with linkSeq := (s.hgc.linkSeq + 1) % 2 ^ 32 } } : State).emit (frame s.hgc.linkSeq)

/-- The items that a carried command changes were last changed by command `n` (R325). -/
def State.noteSent (s : State) (n : Nat) (op : CarriedOp) : State :=
  let l := carriedItems op
  { s with hgc := { s.hgc with sent := l.map (fun i => (i, n)) ++ s.hgc.sent.filter (fun x => !l.contains x.1) } }

/-- A carried command (R318, R325): the active numbers it and carries it with its effective tick, 0 for one that acts at once; the
link carries it while it is up and the unit attends to it. In standalone mode nothing is carried until a manager adopts the device
(R348; that a local command still acts here meanwhile is DEDUCED, log entry 112). -/
def State.carry (s : State) (tick : Nat) (op : CarriedOp) : State :=
  if s.pairRole && s.active && s.attached then
    let n := (s.get Reg.HGC_CMD_SEQ + 1) % 2 ^ 32
    ((s.put Reg.HGC_CMD_SEQ n).noteSent n op).sendLink (fun k => .carry k n tick op)
  else s

/-- R318: in role PAIR a local write that would start or stage a carried command is discarded, counted and raised
where the unit is not ACTIVE. Otherwise the command runs. -/
def State.localOnly (s : State) (run : State → State) : State :=
  if s.pairRole && !s.active then (s.bump Reg.HGC_LOCAL_REFUSED).oncePerTick 0x90B (fun s => s.raise .hgc 11 []) else run s

end Sys2Proof.Machine
end

