-- ==== Sys2Proof/Machine/Flows.lean ====
section
/-! DEFINITION. What a flow-table entry says: geometry, carriage, destinations, frame lengths (R87 to R97, R164, R232),
the running state of flows, and the pools (R364). -/

namespace Sys2Proof.Machine

/-- Bytes per sample of a format code (R87). -/
def sampleBytes : Nat → Nat
  | 0 => 2 | 1 => 3 | 2 => 4 | 3 => 4 | _ => 0

/-- The geometry of a tick of a flow (R89). -/
structure Geometry where
  channels : Nat
  perPkt : Nat
  spp : Nat
  samples : Nat
  format : Nat
deriving DecidableEq, Repr

def State.geometry (s : State) (f : Nat) : Geometry :=
  ⟨s.get (Reg.FLOW_CHANNELS f), s.get (Reg.FLOW_CH_PER_PKT f), s.get (Reg.FLOW_SPP f),
    s.samples (s.get (Reg.FLOW_RATE f)), s.get (Reg.FLOW_FORMAT f)⟩

/-- Channel groups G, sample blocks B and packets per tick P (R89). -/
def Geometry.groups (g : Geometry) : Nat := ceilDiv g.channels g.perPkt
def Geometry.blocks (g : Geometry) : Nat := g.samples / g.spp
def Geometry.packets (g : Geometry) : Nat := g.groups * g.blocks

/-- Channels of packet `i` (R89). -/
def Geometry.width (g : Geometry) (i : Nat) : Nat := min g.perPkt (g.channels - i % g.groups * g.perPkt)

/-- Sample-byte length of packet `i` (R89). -/
def Geometry.bytes (g : Geometry) (i : Nat) : Nat := g.width i * g.spp * sampleBytes g.format

/-- Bytes of the payload tag for an ENC code (R90, R93). -/
def tagBytes : Nat → Nat
  | 1 => 16 | 2 => 8 | _ => 0

/-- CLOSE and OPEN offsets of a flow in ns (R72, R90). -/
def State.closeOf (s : State) (f : Nat) : Nat := 250 * s.get (Reg.FLOW_CLOSE_SLOT f)
def State.openOf (s : State) (f : Nat) : Nat := 250 * s.get (Reg.FLOW_OPEN_SLOT f)

/-- A destination of a flow: kind (host ring or MAC port), target, egress offset, rewrite program. -/
structure Dest where
  toRing : Bool
  target : Nat
  offset : Nat
  rewrite : Nat
deriving DecidableEq, Repr

/-- Keys of the committed replication lists (R184). -/
def listHead (l : Nat) : Nat := 0x13250000 + 8 * l
def listMember (l m : Nat) : Nat := 0x13800000 + 512 * l + 8 * m

/-- The valid members of a list among its first COUNT slots, in slot order (R164). -/
def State.listDests (s : State) (l : Nat) : List Dest :=
  if 8191 < l then []
  else (List.range (min 64 (bits (s.rd (listHead l)) 0 7))).filterMap (fun m =>
    let w := s.rd (listMember l m)
    if bitAt w 31 then some ⟨bitAt w 30, bits w 0 17, 250 * bits w 17 13, s.rd (listMember l m + 4) / 65536⟩ else none)

/-- The destinations of a flow, in list order (R90, R164). -/
def State.dests (s : State) (f : Nat) : List Dest :=
  if s.flag (Reg.FLOW_EG_LIST f) then s.listDests (s.get (Reg.FLOW_EG_TARGET f))
  else [⟨s.get (Reg.FLOW_EG_KIND f) == 1, s.get (Reg.FLOW_EG_TARGET f), 250 * s.get (Reg.FLOW_EG_SLOT f),
    s.get (Reg.FLOW_REWRITE f)⟩]

/-- Header bytes ahead of the sample bytes on the wire, with no tag and no tunnel (R96). -/
def carriageBytes : Nat → Nat
  | 0 => 14 + 20 + 8 + 16
  | 1 => 14 + 40 + 8 + 16
  | 2 => 14 + 16
  | 3 => 14 + 20 + 8 + 12
  | _ => 16

/-- A port runs MACsec (R261). -/
def State.macsecOn (s : State) (p : Nat) : Bool := s.flag (Reg.CKU_MSEC_PORT_EN p)

/-- Byte `i` of a program's template (R232). -/
def State.template (s : State) (g i : Nat) : Nat := bits (s.rd (0x05400000 + 256 * g + 32 + i / 4 * 4)) (8 * (i % 4)) 8

def State.templateBytes (s : State) (g : Nat) : Bytes :=
  (List.range (s.get (Reg.PROG_TPL_LEN g))).map (fun i => BitVec.ofNat 8 (s.template g i))

/-- Length of the IP header at a template offset: 40 for version 6, else 20. -/
def State.tplIpLen (s : State) (g off : Nat) : Nat := if s.template g off / 16 = 6 then 40 else 20

/-- The template's IP header that ESP follows under program `g` (R258): the outer one in tunnel mode, the last in transport
mode. 0xFF: absent. -/
def State.espTplL3 (s : State) (g : Nat) : Nat :=
  let inner := s.get (Reg.PROG_IN_L3 g)
  if s.flag (Reg.SA_MODE (s.get (Reg.PROG_ESP_SA g))) || inner = 0xFF then s.get (Reg.PROG_OUT_L3 g) else inner

/-- ESP overhead of a copy `len` bytes long without FCS under program `g` (R258): the protected part runs from after
the IP header that precedes ESP, and is padded to a 4-byte boundary. -/
def State.espBytes (s : State) (g len : Nat) : Nat :=
  if s.get (Reg.PROG_ESP_SA g) = 0 then 0
  else
    let off := s.espTplL3 g
    let head := if off = 0xFF then 34 else off + s.tplIpLen g off
    34 + (4 - (len - head + 2) % 4) % 4

/-- A tag's TPID. -/
def isTpid (v : Nat) : Bool := v == 0x8100 || v == 0x88A8

/-- Bytes by which the tag of R240 and R282 changes a media copy, whose headers the program's template gives. -/
def State.tagOut (s : State) (p g : Nat) : Int :=
  match s.get (Reg.PROG_VLAN_OP g) with
  | 1 => 4
  | 2 => if isTpid (256 * s.template g 12 + s.template g 13) then -4 else 0
  | _ => if s.get (Reg.PXC_VLAN_CFG_EG_TAG p) = 1 then 4 else 0

/-- The Ethernet minimum before the FCS (R97). -/
def padTo60 (n : Nat) : Nat := max n 60

/-- Frame length, FCS included, of outbound packet `i` of flow `f` on port `p` under program `g` (R75, R97, R241). -/
def State.frameOut (s : State) (f p g i : Nat) : Nat :=
  let geo := s.geometry f
  let head := s.get (Reg.PROG_TPL_LEN g) + (if s.get (Reg.FLOW_CARR_OUT f) = 3 then 12 else 16)
  let len := head + geo.bytes i + tagBytes (s.get (Reg.FLOW_ENC_OUT f))
  let len := len + s.espBytes g len
  let len := padTo60 ((len : Int) + s.tagOut p g).toNat
  len + (if s.macsecOn p then 32 else 0) + 4

/-- Frame length, FCS included, of inbound packet `i` of flow `f` from port `p` (R75). -/
def State.frameIn (s : State) (f p i : Nat) : Nat :=
  padTo60 (carriageBytes (s.get (Reg.FLOW_CARR_IN f)) + (s.geometry f).bytes i + tagBytes (s.get (Reg.FLOW_ENC_IN f)))
    + (if s.macsecOn p then 32 else 0) + 4

/-- EME length of packet `i` in INTERNAL carriage (R75). -/
def State.emeLen (s : State) (f i enc : Nat) : Nat := 16 + (s.geometry f).bytes i + tagBytes enc

/-- Home pipeline of the hedge link, at which a mirrored packet enters (R17): what LANE_MAP declares, or 0. -/
def State.hedgePipe (s : State) : Nat := (Assoc.get? s.te.homes 131072).getD 0

/-- A unit in LAYERING or STANDBY has its host media over the hedge link (R319). -/
def State.mirrors (s : State) : Bool := s.pairRole && (s.hedgeState == 2 || s.hedgeState == 3)

/-- Home pipeline of a flow's source (R17): its ingress port, its host TX media ring, or the hedge link where the packets of that
ring come over it. -/
def State.homePipe (s : State) (kind src : Nat) : Nat :=
  if kind = 0 then src / 8 % 4 else if s.mirrors then s.hedgePipe else (Assoc.get? s.te.homes src).getD (src % 4)

/-! ## Running state of flows -/

def FlowRt.empty : FlowRt := ⟨[], [], [], [], false, none⟩

def State.rt (s : State) (f : Nat) : FlowRt := Assoc.getD s.media.flows f FlowRt.empty

def State.setRt (s : State) (f : Nat) (r : FlowRt) : State :=
  { s with media := { s.media with flows := Assoc.set s.media.flows f r } }

def State.dropRt (s : State) (f : Nat) : State :=
  { s with media := { s.media with flows := Assoc.erase s.media.flows f } }

/-- The pending change of a flow or point. -/
def State.changeOf (s : State) (isPoint : Bool) (id : Nat) : Option Change :=
  s.te.changes.find? (fun c => c.isPoint == isPoint && c.id == id)

/-- The change that governs flow `f`: its own, or that of the point whose output it is (R92). -/
def State.flowChange (s : State) (f : Nat) : Option Change :=
  if s.get (Reg.FLOW_SRC_KIND f) = 2 then s.changeOf true (s.get (Reg.FLOW_SRC f)) else s.changeOf false f

/-- Flow `f` is in force and admitted since tick `t` or before. -/
def State.sinceBefore (s : State) (f t : Nat) : Bool :=
  s.flag (Reg.FLOW_ADMITTED f) &&
  (match s.te.since.find? (fun x => if s.get (Reg.FLOW_SRC_KIND f) = 2 then x.1 && x.2.1 == s.get (Reg.FLOW_SRC f)
      else !x.1 && x.2.1 == f) with
    | some x => x.2.2 ≤ t
    | none => true)

/-- Flow `f` is admitted for tick `t`: from its effective tick, also while that lies ahead (R79), until a removal's (R80). -/
def State.admittedAt (s : State) (f t : Nat) : Bool :=
  match s.flowChange f with
  | none => s.sinceBefore f t
  | some c =>
    if c.add then s.sinceBefore f t || (match c.tick with | some r => r ≤ t | none => false)
    else s.sinceBefore f t && (match c.tick with | some r => t < r | none => true)

/-- The admitted flows (their entries have ADMITTED set), ascending. -/
def State.admittedFlows (s : State) : List Nat :=
  (s.regs.filter (fun p => 0x12000000 ≤ p.1 && p.1 < 0x12800000 && p.1 % 128 == 0 && bitAt p.2.toNat 31)).map
    (fun p => (p.1 - 0x12000000) / 128)

/-- The admitted points, ascending. -/
def State.admittedPoints (s : State) : List Nat :=
  (s.regs.filter (fun p => 0x13200000 ≤ p.1 && p.1 < 0x13240000 && p.1 % 32 == 0 && bitAt p.2.toNat 31)).map
    (fun p => (p.1 - 0x13200000) / 32)

/-! ## Pools (R364, R365) -/

/-- LIMIT and USED of function `f` for kind `k` (R372). -/
def poolLimit (f k : Nat) : Field := ⟨0x0B200000 + 64 * f + 8 * k, 31, 0⟩
def poolUsed (f k : Nat) : Field := ⟨0x0B200004 + 64 * f + 8 * k, 31, 0⟩

def State.poolRoom (s : State) (f k n : Nat) : Bool := s.get (poolUsed f k) + n ≤ s.get (poolLimit f k)
def State.poolTake (s : State) (f k n : Nat) : State := s.put (poolUsed f k) (s.get (poolUsed f k) + n)
def State.poolGive (s : State) (f k n : Nat) : State := s.put (poolUsed f k) (s.get (poolUsed f k) - n)

/-! ## Books under audit (R437) -/

/-- A failed audit of a book. The second failure in a row of a book that has no repair, and the second since its repair of one that
has, set AUDIT_PERSIST in the auditing unit; a book that balances starts over (R437). -/
def State.bookAudit (s : State) (book u : Nat) (failed hasRepair : Bool) : State :=
  let n := if failed then Assoc.getD s.sup.bookFails book 0 + 1 else 0
  let since := (Assoc.get? s.sup.bookFixed book).map (· + 1)
  let fixed := match since with
    | some m => if failed then Assoc.set s.sup.bookFixed book m else Assoc.erase s.sup.bookFixed book
    | none => s.sup.bookFixed
  let s := { s with sup := { s.sup with
    bookFails := if n = 0 then Assoc.erase s.sup.bookFails book else Assoc.set s.sup.bookFails book n
    bookFixed := fixed } }
  s.when (if hasRepair then failed && since == some 2 else n == 2) (fun s => s.fault u 6)

/-- What the device offers of a kind: CAP. -/
def State.poolCap (s : State) (k : Nat) : Nat := s.get (Reg.TTU_POOL_CAP_CAP k)

/-- The sum of LIMIT of a kind over all functions. -/
def State.limitSum (s : State) (k : Nat) : Nat :=
  sumOf (s.regs.filter (fun p => 0x0B200000 ≤ p.1 && p.1 < 0x0B240000 && p.1 % 64 == 8 * k)) (fun p => p.2.toNat)

/-- A pool is out of balance: USED above LIMIT, which CELLS and a pair are allowed, or ΣLIMIT above CAP (R437). -/
def State.poolsBad (s : State) : Bool :=
  (List.range 8).any (fun k => s.poolCap k < s.limitSum k) ||
    (!s.pairRole && s.regs.any (fun p => 0x0B200000 ≤ p.1 && p.1 < 0x0B240000 && p.1 % 8 == 4 && p.1 % 64 != 52 &&
      s.rd (p.1 - 4) < p.2.toNat))

/-- TTU's audit of the pools. The checks of one tick count as one audit, at its end (R437; DESIGN CHOICE, log entry 108). -/
def State.auditPools (s : State) : State := s.bookAudit 512 11 (s.running .ttu && s.poolsBad) false

/-- Objects of a function enter its pools, or leave them. -/
def State.takePools (s : State) (l : List (Nat × Nat × Nat)) : State := l.foldl (fun s x => s.poolTake x.1 x.2.1 x.2.2) s
def State.givePools (s : State) (l : List (Nat × Nat × Nat)) : State := l.foldl (fun s x => s.poolGive x.1 x.2.1 x.2.2) s

/-- A book has been repaired: the audits from now on are those after its repair. -/
def State.bookRepaired (s : State) (book : Nat) : State :=
  if (Assoc.get? s.sup.bookFixed book).isSome then s
  else { s with sup := { s.sup with bookFixed := Assoc.set s.sup.bookFixed book 0 } }

/-- The owner of a ring, none where FREE (R371). -/
def ringOwnerField (r : Nat) : Field := ⟨0x0B300000 + r / 2 * 4, 16 * (r % 2) + 15, 16 * (r % 2)⟩
def State.ringOwner (s : State) (r : Nat) : Option Nat :=
  let w := s.get (ringOwnerField r)
  if bitAt w 15 then none else some (w % 4096)

/-- The owner of a shaper instance, none where FREE. -/
def shaperOwnerField (k : Nat) : Field := ⟨0x0B340000 + k / 2 * 4, 16 * (k % 2) + 15, 16 * (k % 2)⟩
def State.shaperOwner (s : State) (k : Nat) : Option Nat :=
  let w := s.get (shaperOwnerField k)
  if bitAt w 15 then none else some (w % 4096)

/-! ## Ring errors and tracker entries -/

/-- RING_ERROR to a ring's owner, at most once per ring, kind and tick (R391); to PF0 where the ring has no owner. -/
def State.ringError (s : State) (r kind seq : Nat) : State :=
  s.oncePerTick (0xC00000000 + 16 * r + kind) (fun s =>
    s.raiseEvent ⟨12, 4, (s.ringOwner r).getD 0, if s.ringOwner r = none then .pf else .ring r, payload [(17, r), (8, kind), (32, seq)]⟩)

/-! ## HBM (R48) -/

/-- The place of region `k` in SUP_HBM_FILL. -/
def fillBit (k : Nat) : Field := ⟨0x1018 + 4 * (k / 32), k % 32, k % 32⟩

/-- A write to HBM region `k`: one to an unfilled region is held, and the region moves to the head of the fill order. What HBM
holds stands in the state of the unit that keeps it there (DESIGN CHOICE, log entry 33). -/
def State.hbmWrite (s : State) (k : Nat) : State :=
  if s.flag (fillBit k) then s
  else { s with sup := { s.sup with
    hbmHeld := k :: s.sup.hbmHeld.filter (· != k)
    fillOrder := if s.sup.fillOrder.contains k then k :: s.sup.fillOrder.filter (· != k) else s.sup.fillOrder } }

/-- A read of HBM region `k`: whether its data is good. An unfilled region gives poisoned data, with HBM_UNFILLED_READ. -/
def State.hbmRead (s : State) (k : Nat) : Bool × State :=
  if s.flag (fillBit k) then (true, s) else (false, s.raise .sup 4 [(8, k)])

/-- FTU writes its shadow in the operation that it records (R154). -/
def State.shadowWrite (s : State) : State := match s.ftu.shadow with | some k => s.hbmWrite k | none => s

/-- A permitted write of a record reaches all four copies and the shadow (R135, R138, R154). -/
def State.recordWritten (s : State) (table index : Nat) : State :=
  let k := table * 0x1000000 + index
  ({ s with ftu := { s.ftu with copies := s.ftu.copies.filter (fun x => x.1 != k), shadows := Assoc.erase s.ftu.shadows k } }).shadowWrite

/-- The copy of a pipeline that a fault has made differ (R155). -/
def State.badCopy (s : State) (table index pipe : Nat) : Option (List Nat) :=
  (s.ftu.copies.find? (fun x => x.1 == table * 0x1000000 + index && x.2.1 == pipe)).map (·.2.2)

/-- FTU reads its shadow: whether the record is good. -/
def State.shadowRead (s : State) : Bool × State := match s.ftu.shadow with | some k => s.hbmRead k | none => (true, s)

/-! ## The tracker -/

/-- An operation takes a tracker entry (R438). -/
def State.trackTake (s : State) : State :=
  let n := s.get Reg.SUP_TRACK_STATUS_HELD + 1
  let s := s.put Reg.SUP_TRACK_STATUS_HELD n
  s.when (s.get Reg.SUP_TRACK_STATUS_HWM < n) (fun s => s.put Reg.SUP_TRACK_STATUS_HWM n)

def State.trackGive (s : State) : State := s.put Reg.SUP_TRACK_STATUS_HELD (s.get Reg.SUP_TRACK_STATUS_HELD - 1)

/-- An operation of CKU, or a walk of TTU, takes an entry and returns it as it ends, within the command that needs it; one that has
to wait for an entry shows only by when it ends (R438; DESIGN CHOICE, log entry 66). -/
def State.trackPulse (s : State) : State :=
  let n := min 16384 (s.get Reg.SUP_TRACK_STATUS_HELD + 1)
  s.when (s.get Reg.SUP_TRACK_STATUS_HWM < n) (fun s => s.put Reg.SUP_TRACK_STATUS_HWM n)

/-- An operation outside media steps 3 and 10 finds an entry it may take. Entries that a fault has lost are in no one's hands. -/
def State.trackFree (s : State) : Bool := s.get Reg.SUP_TRACK_STATUS_HELD + s.sup.trackDiff.natAbs + s.get Reg.SUP_TRACK_CFG_MEDIA_RESERVE < 16384

end Sys2Proof.Machine
end

