-- ==== Sys2Proof/Machine/Credit.lean ====
section
/-! DEFINITION. What moves with time in EGU: gate lists, credits and bucket levels, brought to the present before anything that
they depend on changes (R212, R215, R217). -/

namespace Sys2Proof.Machine

/-! ## Buckets of a shaper instance (R217, R220) -/

def State.bucketFull (s : State) (k : Nat) : Int × Int :=
  ((s.get (Reg.SHAPER_BURST k) * 8000 : Nat), if s.flag (Reg.SHAPER_KIND k) then (s.get (Reg.SHAPER_EBS k) * 8000 : Nat) else 0)

def State.level (s : State) (k : Nat) : Int × Int := (Assoc.get? s.egu.levels k).getD (s.bucketFull k)

/-- The levels of one of the 16,384 instances take values, shown in bytes, truncated. -/
def State.setLevel (s : State) (k : Nat) (v : Int × Int) : State :=
  if 16383 < k then s
  else
  let s := { s with egu := { s.egu with levels := if v = s.bucketFull k then Assoc.erase s.egu.levels k else Assoc.set s.egu.levels k v } }
  (s.wr (0x07240000 + 8 * k) (ofSigned 32 (truncDiv v.1 8000))).wr (0x07240004 + 8 * k) (ofSigned 32 (truncDiv v.2 8000))

/-! ## Pauses in force (R284) -/

/-- Key of a pause: class 8 stands for the port. -/
def pauseKey (p c : Nat) : Nat := 16 * p + c

def State.isPaused (s : State) (p c : Nat) : Bool := (Assoc.get? s.pxc.paused (pauseKey p c)).isSome

/-! ## Gate lists (R212) -/

def gateStaged (p i : Nat) : Nat := 0x07004000 + 256 * p + 4 * i
def gateNow (p i : Nat) : Nat := 0x07006000 + 256 * p + 4 * i

/-- Entries of a list from index `i`, as (start in ns, mask), up to LAST. -/
def State.gateFrom (s : State) (key : Nat → Nat) : Nat → Nat → List (Nat × Nat)
  | 0, _ => []
  | n + 1, i =>
    let w := s.rd (key i)
    (250 * bits w 16 13, w % 256) :: (if bitAt w 31 then [] else s.gateFrom key n (i + 1))

/-- The committed list of port `p`. -/
def State.gateList (s : State) (p : Nat) : List (Nat × Nat) := s.gateFrom (gateNow p) 64 0

/-- Class `c`'s gate is open at offset `o` of a tick. -/
def gateOpen (l : List (Nat × Nat)) (c o : Nat) : Bool :=
  match (l.filter (fun e => e.1 ≤ o)).getLast? with
  | some e => bitAt e.2 c
  | none => false

/-- The first offset after `o` at which the gate closes, across the tick boundary; none where no entry closes it
(R212). -/
def gateClose (l : List (Nat × Nat)) (c o t : Nat) : Option Nat :=
  match l.find? (fun e => o < e.1 && !bitAt e.2 c) with
  | some e => some e.1
  | none => (l.find? (fun e => !bitAt e.2 c)).map (fun e => e.1 + t)

/-- How long the gate is open in the first `o` ns of a tick. -/
def openUpTo (c o : Nat) : List (Nat × Nat) → Nat
  | [] => 0
  | [e] => if bitAt e.2 c then o - e.1 else 0
  | e :: e' :: l => (if bitAt e.2 c then min o e'.1 - e.1 else 0) + openUpTo c o (e' :: l)

/-- How long class `c`'s gate of port `p` is open between two times in ns. -/
def State.openNs (s : State) (p c a b : Nat) : Nat :=
  let l := s.gateList p
  let t := s.period
  let upTo := fun x => x / t * openUpTo c t l + openUpTo c (x % t) l
  upTo b - upTo a

/-! ## Credit (R215) -/

/-- The credit of queue `i` = 8p + c, one of 256, in bits × 2^16. -/
def State.credit (s : State) (i : Nat) : Int := Assoc.getD s.egu.credits i 0

def State.setCredit (s : State) (i : Nat) (v : Int) : State :=
  if 255 < i then s
  else ({ s with egu := { s.egu with credits := if v = 0 then Assoc.erase s.egu.credits i else Assoc.set s.egu.credits i v } }).put
    (Reg.EGU_CBS_CREDIT_CREDIT i) (ofSigned 32 (truncDiv v 65536))

/-- `n` updates of 4 ns at a slope in Mb/s: the rounding of an update to 16 fraction bits is open, so each may round up or
down (DESIGN CHOICE, log entry 6). -/
def State.slope (s : State) (mbps n : Nat) : Nat × State :=
  let per := mbps * 262144
  if per % 1000 = 0 then (per / 1000 * n, s)
  else
    let (v, s) := s.takeFree
    (per / 1000 * n + v % (n + 1), s)

/-- One queue's credit moves on by `n` updates with its gate open. A negative credit recovers to 0 while the class does not
send, as the standard's algorithm has it. -/
def State.moveCredit (s : State) (i n : Nat) : State :=
  let p := i / 8
  let c := i % 8
  let idle := s.get (Reg.EGU_CBS_SLOPE_IDLE_SLOPE i)
  let old := s.credit i
  let tx := Assoc.get? s.egu.tx p
  let mine := match tx with | some t => t.cls == some c | none => false
  let waiting := s.egu.queues.any (fun q => q.port == p && q.dest.tc == c)
  if s.isPaused p c then s
  else
    let (v, s) :=
      if mine then
        let (d, s) := s.slope (s.portRate p * 1000 - idle) n
        (old - d, s)
      else if (waiting && tx.isSome) || old < 0 then
        let (d, s) := s.slope idle n
        (if waiting && tx.isSome then old + d else min 0 (old + d), s)
      else (old, s)
    let hi : Int := s.get (Reg.EGU_CBS_LIMIT_HI_CREDIT i) * 8 * 65536
    let lo : Int := s.get (Reg.EGU_CBS_LIMIT_LO_CREDIT i) * 8 * 65536
    let v := max (-lo) (min hi v)
    s.setCredit i (if !waiting && !mine && 0 < v then 0 else v)

/-- Queues whose shaper is on. -/
def State.shapedQueues (s : State) : List Nat :=
  (s.regs.filter (fun x => 0x07002000 ≤ x.1 && x.1 < 0x07002400 && x.2.toNat % 2 ^ 19 != 0)).map (fun x => (x.1 - 0x07002000) / 4)

/-! ## Buckets (R217) -/

/-- A bucket gains RATE millibits per ns; a policer's excess bucket takes what the first cannot hold (RFC 2697). -/
def State.fillLevel (s : State) (k dt : Nat) : State :=
  let (a, b) := s.level k
  let (fa, fb) := s.bucketFull k
  let a' := a + (s.get (Reg.SHAPER_RATE k) * dt : Nat)
  s.setLevel k (min fa a', min fb (b + max 0 (a' - fa)))

/-- Credits and levels move on to the current time. -/
def State.settle (s : State) : State :=
  let now := s.localNs
  let dt := now - s.egu.levelAt
  let s := (s.egu.levels.map (·.1)).foldl (fun s k => s.fillLevel k dt) s
  let a := s.egu.creditAt
  let b := now / 4 * 4
  let s := s.shapedQueues.foldl (fun s i => s.moveCredit i (s.openNs (i / 8) (i % 8) a b / 4)) s
  { s with egu := { s.egu with levelAt := now, creditAt := b } }

/-- What a frame reserved and did not use returns to the bucket it was debited from, whose level is brought to the present first
(R217, R220). -/
def State.payDebt (s : State) (d : Option (Nat × Bool × Nat)) : State :=
  match d with
  | none => s
  | some (k, excess, n) =>
    let s := s.settle
    let (a, b) := s.level k
    let (fa, fb) := s.bucketFull k
    s.setLevel k (if excess then (a, min fb (b + n)) else (min fa (a + n), b))

/-! ## Statistics that move with time (R290) -/

/-- Counter slot `i` of port `p`, live and in the shadow bank. -/
def statField (p i : Nat) : Field := ⟨0x02008000 + 256 * p + 8 * i, 63, 0⟩
def shadowField (p i : Nat) : Field := ⟨0x0200A000 + 256 * p + 8 * i, 63, 0⟩

def State.stat (s : State) (p i n : Nat) : State := s.bumpBy (statField p i) n

/-- TX_PAUSED_NS takes in the time since it was last counted. -/
def State.accruePause (s : State) (p : Nat) : State :=
  match Assoc.get? s.pxc.paused (pauseKey p 8) with
  | some t => ({ s with pxc := { s.pxc with paused := Assoc.set s.pxc.paused (pauseKey p 8) s.localNs } }).stat p 21 (s.localNs - t)
  | none => s

end Sys2Proof.Machine
end

