-- ==== Sys2Proof/Machine/Buffer.lean ====
section
/-! DEFINITION. The shared buffer: cells, frame handles, admission and push-out (R160 to R173), and the queued cells of a
class queue. -/

namespace Sys2Proof.Machine

/-- Cells and frame handles of the device (R166, R172). -/
def cellCount : Nat := 393216
def handleCount : Nat := 262144

def State.cell (s : State) (c : Nat) : Cell := Assoc.getD s.fpu.cells c ⟨0, 0, false⟩

def State.setCell (s : State) (c : Nat) (x : Cell) : State :=
  { s with fpu := { s.fpu with cells := if x = ⟨0, 0, false⟩ then Assoc.erase s.fpu.cells c else Assoc.set s.fpu.cells c x } }

/-- The first `k` free cells, lowest first: which free cells an allocation takes is open (DESIGN CHOICE, log entry 21). -/
def State.freeList (s : State) (k : Nat) : List Nat :=
  ((List.range (min cellCount (s.fpu.cells.length + k))).filter (fun c => !(s.cell c).allocated)).take k

def State.freeCount (s : State) : Nat := s.get Reg.FPU_FREE

def State.frame? (s : State) (h : Nat) : Option Frame := Assoc.get? s.fpu.frames h

def State.setFrame (s : State) (h : Nat) (f : Frame) : State :=
  { s with fpu := { s.fpu with frames := Assoc.set s.fpu.frames h f } }

/-- The lowest free frame handle (DESIGN CHOICE, log entry 21). -/
def State.newHandle (s : State) : Option Nat :=
  if handleCount ≤ s.fpu.frames.length + s.fpu.lostHandles then none
  else findBelow (s.fpu.frames.length + 1) (fun h => (s.frame? h).isNone)

/-- Allocate `k` cells to handle `h`: each cell's GEN advances mod 64 (R166). -/
def State.takeCells (s : State) (h k : Nat) : List (Nat × Nat) × State :=
  let cs := s.freeList k
  let s' := cs.foldl (fun s c => s.setCell c ⟨h, ((s.cell c).gen + 1) % 64, true⟩) s
  (cs.map (fun c => (c, (s'.cell c).gen)), s'.put Reg.FPU_FREE (s.freeCount - cs.length))

/-- misuse() (R167): at most one CELL_MISUSE per tick. -/
def State.misuse (s : State) (c kind : Nat) : State :=
  let s := (s.put Reg.FPU_MISUSE_LAST_KIND kind).put Reg.FPU_MISUSE_LAST_CELL c
  s.oncePerTick 0x601 (fun s => s.raise .fpu 1 [(32, c), (8, kind)])

/-- free_cell(c, h, g) (R167). -/
def State.freeCell (s : State) (c h g : Nat) : State :=
  let x := s.cell c
  if !x.allocated then (s.bump Reg.FPU_DOUBLE_FREE).misuse c 1
  else if x.owner != h || x.gen != g then (s.bump Reg.FPU_FOREIGN_FREE).misuse c 2
  else (s.setCell c { x with allocated := false }).put Reg.FPU_FREE (s.freeCount + 1)

/-- One copy of a frame is released; at zero copies its cells are freed and the handle returns (R166). -/
def State.releaseCopy (s : State) (h : Nat) : State :=
  match s.frame? h with
  | none => s
  | some f =>
    if 1 < f.copies then s.setFrame h { f with copies := f.copies - 1 }
    else
      let s := f.charged.foldl (fun (s : State) v => s.poolGive v 6 (f.chain.length + f.heads.length)) s
      let s := (f.chain ++ f.heads).foldl (fun s x => s.freeCell x.1 h x.2) s
      { s with fpu := { s.fpu with frames := Assoc.erase s.fpu.frames h } }

/-- A frame leaves the buffer whatever copies are due. -/
def State.freeFrame (s : State) (h : Nat) : State :=
  match s.frame? h with
  | none => s
  | some f => (s.setFrame h { f with copies := 1 }).releaseCopy h

def State.releaseMaybe (s : State) (h : Option Nat) : State := match h with | some h => s.releaseCopy h | none => s

/-! ## Header cells (R230) -/

/-- The header cell of a copy of frame `h`, chained ahead of its bytes. With no cell free the copy goes without one: the spec
gives no refusal (DESIGN CHOICE, log entry 92). -/
def State.takeHead (s : State) (h : Nat) : Option (Nat × Nat) × State :=
  if s.freeCount = 0 then (none, s)
  else match s.frame? h with
    | none => (none, s)
    | some f =>
      let (cs, s) := s.takeCells h 1
      match cs.head? with
      | none => (none, s)
      | some c => (some c, (f.charged.foldl (fun (s : State) v => s.poolTake v 6 1) s).setFrame h { f with heads := c :: f.heads })

/-- The header cell of a copy, taken where the copy writes header bytes. -/
def State.takeHeadIf (s : State) (h : Option Nat) (writes : Bool) : Option (Nat × Nat) × State :=
  match h with
  | some h => if writes then s.takeHead h else (none, s)
  | none => (none, s)

/-- A copy's header cell is freed. -/
def State.dropCell (s : State) (h : Option Nat) (c : Option (Nat × Nat)) : State :=
  match h, c with
  | some h, some c =>
    let s := match s.frame? h with
      | some f => (f.charged.foldl (fun (s : State) v => s.poolGive v 6 1) s).setFrame h { f with heads := f.heads.erase c }
      | none => s
    s.freeCell c.1 h c.2
  | _, _ => s

/-- A copy that may have a header cell is released. -/
def State.releaseWith (s : State) (h : Option Nat) (c : Option (Nat × Nat)) : State := (s.dropCell h c).releaseMaybe h

/-! ## Reserved cells (R169) -/

/-- Bytes of a frame that are in the buffer: a frame of a MAC port comes in at the port's rate from its first bit on, and it is
whole where local time has been stepped back behind that (DESIGN CHOICE, log entry 96). -/
def State.bytesIn (s : State) (f : Frame) : Nat :=
  let all := f.bytes.length + 4
  if f.src < 32 && f.stamp.began ≤ s.localNs then min all ((s.localNs - f.stamp.began) * s.portRate f.src / 8) else all

/-- The cells that a frame's bytes fill. -/
def Frame.filled (f : Frame) : Nat := ceilDiv (f.bytes.length + 4) 256

/-- A frame whose end has come holds reserved cells that were not written. -/
def State.overReserved (s : State) (f : Frame) : Bool := f.filled < f.chain.length && f.bytes.length + 4 ≤ s.bytesIn f

/-- Cells that were reserved and not written return to the pool at the frame's end (R169). -/
def State.trimFrame (s : State) (h : Nat) : State :=
  match s.frame? h with
  | none => s
  | some f =>
    if s.overReserved f then
      let rest := f.chain.drop f.filled
      let s := f.charged.foldl (fun (s : State) v => s.poolGive v 6 rest.length) s
      let s := rest.foldl (fun s x => s.freeCell x.1 h x.2) s
      s.setFrame h { f with chain := f.chain.take f.filled }
    else s

/-- Every frame whose end has come gives its unwritten cells back. -/
def State.trimFrames (s : State) : State :=
  ((s.fpu.frames.filter (fun x => s.overReserved x.2)).map (fun (x : Nat × Frame) => x.1)).foldl (fun s h => s.trimFrame h) s

/-- A read of a credit, of the level window, of TX_PAUSED_NS, of FREE or of the pools shows the present (R169, R215, R217, R290). -/
def State.settleFor (s : State) (k : Nat) : State :=
  if 0x02008000 ≤ k && k < 0x0200A000 && k % 256 / 8 = 21 then s.accruePause ((k - 0x02008000) / 256)
  else if (0x07002800 ≤ k && k < 0x07002C00) || (0x07240000 ≤ k && k < 0x07260000) then s.settle
  else if k = Reg.FPU_FREE.key || (0x0B200000 ≤ k && k < 0x0B240000) then s.trimFrames
  else s

/-! ## Sharing the buffer (R169, R170) -/

/-- Fabric destination number (R160). -/
def Target.num : Target → Nat
  | .port p => p | .hedge => 32 | .ring _ => 33 | .sup => 34 | .sie => 35 | .pleach => 36

/-- Cells of a frame. -/
def State.cellsOf (s : State) (h : Nat) : Nat :=
  match s.frame? h with
  | some f => f.chain.length
  | none => 0

/-- Frames that count against the queue of port `p` and class `c`, the shaper stage's included (R207), oldest first. -/
def State.queueOf (s : State) (p c : Nat) : List Queued :=
  (s.egu.queues.filter (fun q => q.port == p && q.dest.tc == c)) ++
    (s.egu.shaper.map (·.2)).filter (fun q => q.port == p && q.dest.tc == c)

def State.queuedCells (s : State) (p c : Nat) : Nat := sumOf (s.queueOf p c) (fun q => s.cellsOf q.handle)

/-- Cells queued in a class queue alone, the shaper stage's left out (R223). -/
def State.classCells (s : State) (p c : Nat) : Nat :=
  sumOf (s.egu.queues.filter (fun q => q.port == p && q.dest.tc == c)) (fun q => s.cellsOf q.handle)

/-- MIN and MAX of a class in cells (R184). -/
def State.classMin (s : State) (c : Nat) : Nat := 8 * s.get (Reg.FPU_CLASS_CFG_MIN c)
def State.classMax (s : State) (c : Nat) : Nat := 8 * s.get (Reg.FPU_CLASS_CFG_MAX c)

/-- The frames of one class that wait at the HOST destination for their rings (R160, R169). -/
def State.hostQueue (s : State) (c : Nat) : List RxItem :=
  s.qe.rxWait.filter (fun w => !w.media && w.tc == some c && w.handle.isSome)

/-- Cells queued toward a fabric destination in class `c` (R169): of a MAC port, or of HOST. SUP and SIE take a frame as it comes. -/
def State.destCells (s : State) (d c : Nat) : Nat :=
  if d < 32 then s.queuedCells d c else if d = 33 then sumOf (s.hostQueue c) (fun w => s.cellsOf (w.handle.getD 0)) else 0

/-- The head of a class queue. -/
def State.headOf (s : State) (p c : Nat) : Option Queued := s.egu.queues.find? (fun q => q.port == p && q.dest.tc == c)

/-- After a change, a frame newly at the head of its queue stands there from now. -/
def State.newHead (s : State) (p c : Nat) (old : Option Queued) : State :=
  match s.headOf p c with
  | none => s
  | some q => if old = some q then s
    else { s with egu := { s.egu with queues := s.egu.queues.map (fun x => if x = q then { x with headSince := s.localNs } else x) } }

/-- Remove one queued frame, by identity of port, class, handle and time of joining, and release its copy. A frame that it leaves at
the head stands there from now (R210). -/
def State.dropQueued (s : State) (q : Queued) : State :=
  let s := s.settle
  let old := s.headOf q.port q.dest.tc
  let s : State := { s with egu := { s.egu with
      queues := s.egu.queues.filter (· != q)
      shaper := s.egu.shaper.filter (fun x => x.2 != q) } }
  ((s.newHead q.port q.dest.tc old).payDebt q.debt).releaseCopy q.handle

/-- The queues that push-out may choose from, for a head of class `c` (8 stands for media): lowest class, then most
cells, then lowest destination (R170). -/
def State.victimQueue (s : State) (c : Nat) : Option (Nat × Nat) :=
  let all := (s.egu.queues ++ s.egu.shaper.map (·.2)).map (fun q => (q.port, q.dest.tc)) ++
    (List.range 8).filterMap (fun k => if (s.hostQueue k).isEmpty then none else some (33, k))
  let ok := all.eraseDups.filter (fun x => x.2 < c && (c == 8 || s.classMin x.2 < s.destCells x.1 x.2))
  ok.foldl (fun best x =>
    match best with
    | none => some x
    | some b =>
      if x.2 < b.2 || (x.2 == b.2 && (s.destCells b.1 b.2 < s.destCells x.1 x.2 ||
          (s.destCells b.1 b.2 == s.destCells x.1 x.2 && x.1 < b.1))) then some x else some b) none

/-- The frame that came last among those of a queue. -/
def newestOf (l : List Queued) : Option Queued :=
  l.foldl (fun (b : Option Queued) q => match b with
    | none => some q
    | some x => if x.arrived ≤ q.arrived then some q else some x) none

/-- The newest frame of queue `c` of destination `d` is evicted; none where it has none (R170). -/
def State.evictNewest (s : State) (d c : Nat) : Option State :=
  if d = 33 then (s.hostQueue c).getLast?.map (fun w =>
    ({ s with qe := { s.qe with rxWait := s.qe.rxWait.erase w } } : State).releaseWith w.handle w.head)
  else (newestOf (s.queueOf d c)).map s.dropQueued

/-- Push out until `k` cells are free, at most `n` victims (R170). -/
def State.pushOut (s : State) (c k : Nat) : Nat → State
  | 0 => s
  | n + 1 =>
    if k ≤ s.freeCount then s
    else match s.victimQueue c with
      | none => s
      | some (p, v) =>
        match s.evictNewest p v with
        | none => s
        | some s => (s.bump Reg.FPU_PUSHOUT).pushOut c k n

/-- The admission of R170 for a head of class `c`, 8 for media, toward the queues `qs` of its destinations: none where it is
dropped. The CELLS limit of each function charged comes first (R365). -/
def State.admitHead (s : State) (qs : List (Nat × Nat)) (c k : Nat) (charged : List Nat) : Option Nat × State :=
  let s := s.trimFrames
  if charged.any (fun v => !s.poolRoom v 6 k) then (none, s.bump (Reg.TTU_CELL_DROP))
  else if c < 8 && qs.any (fun q => s.classMax q.2 < s.destCells q.1 q.2 + k) then (none, s.bump Reg.FPU_TAIL_DROP)
  else
    let s := s.pushOut c k (if c = 8 then 16 else 4)
    let drop := fun (s : State) => s.bump (if c = 8 then Reg.FPU_MEDIA_NOCELL else Reg.FPU_TAIL_DROP)
    if s.freeCount < k then (none, drop s)
    else match s.newHandle with
      | none => (none, drop s)
      | some h => (some h, s)

/-- Put an admitted frame under its handle, with the cells it reserves: those of the MTU where its length is not known yet, else
those of its bytes (R169). -/
def State.storeFrame (s : State) (h : Nat) (f : Frame) : State :=
  let (chain, s) := s.takeCells h (ceilDiv (max f.reserved (f.bytes.length + 4)) 256)
  let s := f.charged.foldl (fun (s : State) v => s.poolTake v 6 chain.length) s
  (s.setFrame h { f with chain := chain }).trimFrame h

/-- Destinations that descriptors of frame `h` have not reached yet. -/
def State.awaited (s : State) (h : Nat) : Nat :=
  sumOf ((s.fpu.voq ++ s.fpu.inputs.map (·.2)).filter (fun d => d.handle == h)) (fun d => d.dests.length)

/-- A descriptor of frame `h` stands in a destination queue, a tick hold or the pleach input references (R172). -/
def State.arrived (s : State) (h : Nat) (f : Frame) : Bool :=
  s.egu.queues.any (fun q => q.handle == h) || s.egu.shaper.any (fun x => x.2.handle == h) || s.qe.rxWait.any (fun w => w.handle == some h)
    || s.media.copies.any (fun c => (c.handles.drop c.next).contains h)
    || (s.media.flows.any (fun x => x.2.rx.any (fun p => p.handle == h)) && (f.dests.isEmpty || s.awaited h < f.dests.length))

/-- QUEUED and TRANSIT: the cells of the frames of which a descriptor stands queued, and those of every other frame, in the
pipelines, in the fabric or in transmission (R172). -/
def State.queuedTotal (s : State) : Nat := sumOf s.fpu.frames (fun x => if s.arrived x.1 x.2 then x.2.chain.length + x.2.heads.length else 0)

def State.transitCells (s : State) : Nat := sumOf s.fpu.frames (fun x => if s.arrived x.1 x.2 then 0 else x.2.chain.length + x.2.heads.length)

/-- LEAK_FIX (R173): the leak sweep completes. Every allocated cell whose OWNER names a free handle, or a live handle whose
chain does not hold it, is freed; handles that own nothing return (R437). -/
def execLeakFix (s : State) : Host.Outcome State Fault Refusal :=
  if !s.fpu.sweeping then ok s
  else
    let lost := s.fpu.cells.filter (fun x => x.2.allocated &&
      !(match s.frame? x.2.owner with
        | some f => (f.chain ++ f.heads).any (fun y => y.1 == x.1)
        | none => false))
    let s := lost.foldl (fun s x => (s.setCell x.1 { x.2 with allocated := false }).put Reg.FPU_FREE (s.freeCount + 1)) s
    let s := { s with fpu := { s.fpu with sweeping := false, lostHandles := 0 } }
    let s := (s.bookRepaired 1).bookRepaired 2
    ok ((s.bumpBy Reg.FPU_LEAK_FIX lost.length).raise .fpu 3 [(32, lost.length)])

/-- Fabric credits that a pair holds (R163). -/
def State.creditOf (s : State) (p d : Nat) : Nat := Assoc.getD s.fpu.credits (p * 64 + d) 16

def State.setFabricCredit (s : State) (k n : Nat) : State :=
  { s with fpu := { s.fpu with credits := if n = 16 then Assoc.erase s.fpu.credits k else Assoc.set s.fpu.credits k n } }

/-- A descriptor takes a credit of its pair as it is sent, and the destination returns it (R163). -/
def State.takeCredit (s : State) (p d : Nat) : State := s.setFabricCredit (p * 64 + d) (s.creditOf p d - 1)
def State.giveCredit (s : State) (p d : Nat) : State := s.setFabricCredit (p * 64 + d) (s.creditOf p d + 1)

/-- Every MEDIA descriptor has crossed the fabric by the end of its tick, since the whole crossing lies within 0.8 us (R163). -/
def State.crossMedia (s : State) : State :=
  let s := (s.fpu.inputs.filter (fun x => x.2.media)).foldl (fun s x => s.giveCredit x.2.pipe x.1) s
  { s with fpu := { s.fpu with voq := s.fpu.voq.filter (fun x => !x.media), inputs := s.fpu.inputs.filter (fun x => !x.2.media) } }

/-- Everything that was received or formed is dropped, and nothing of it is used (R55, R69). -/
def State.dropMedia (s : State) : State :=
  let s := s.crossMedia
  let sent := s.media.copies.flatMap (fun c => c.handles.drop c.next)
  let gone := s.media.flows.flatMap (fun (p : Nat × FlowRt) => p.2.rx.map (·.handle))
  let s := sent.foldl (fun s h => s.releaseCopy h) s
  let s := (gone.filter (fun h => !sent.contains h)).foldl (fun s h => s.freeFrame h) s
  { s with media := { s.media with
      copies := []
      flows := s.media.flows.map (fun (p : Nat × FlowRt) => (p.1, { p.2 with rx := [], held := [], seen := [] })) } }

/-- Descriptors of a pair in the destination's input stage. -/
def State.staged (s : State) (k : Nat) : Nat := (s.fpu.inputs.filter (fun x => x.2.pipe * 64 + x.1 == k)).length

/-- The credit book of a pair: held, and in the input stage (R172). A pair that is not listed has 16 and none. -/
def State.creditBook (s : State) (k : Nat) : Nat := Assoc.getD s.fpu.credits k 16 + s.staged k
def State.creditPairs (s : State) : List Nat :=
  (s.fpu.credits.map (fun (x : Nat × Nat) => x.1) ++ s.fpu.inputs.map (fun (x : Nat × Desc) => x.2.pipe * 64 + x.1)).eraseDups

/-- CREDIT_RESET (R173): a credit pair whose book has failed twice is reset to 16, its input stage being empty. -/
def execCreditReset (pipe : Fin 4) (dest : Fin 37) (s : State) : Host.Outcome State Fault Refusal :=
  let k := pipe.val * 64 + dest.val
  if 2 ≤ Assoc.getD s.fpu.creditFails k 0 && s.staged k = 0 then
    ok (({ s with fpu := { s.fpu with credits := Assoc.erase s.fpu.credits k, creditFails := Assoc.erase s.fpu.creditFails k } } :
      State).bookRepaired (8 + k))
  else ok s

end Sys2Proof.Machine
end

