-- ==== Sys2Proof/Machine/Pcie.lean ====
section
/-! DEFINITION. The configuration space of the PCIe endpoint: its words, what a read shows and what a write changes (R331 to
R335, R340 to R342, R349). The spec names the capabilities and the fields; their places are those of a PCI Express type 0
function, with the capabilities in an order of the model's own (PRESUMED, log entry 110). -/

namespace Sys2Proof.Machine

/-! ## Fields -/

/-- Key of a configuration word: 4 KiB a function. -/
def cfgKey (f off : Nat) : Nat := 0x40000000 + f * 0x1000 + off

/-- Memory Space Enable of PF0, and Interrupt Disable (R335, R340). -/
abbrev cfgMse : Field := ⟨0x40000004, 1, 1⟩
abbrev cfgIntxOff : Field := ⟨0x40000004, 10, 10⟩
/-- MSI-X Enable and Function Mask (R340, R341). -/
abbrev cfgMsixOn (f : Nat) : Field := ⟨cfgKey f 0x50, 31, 31⟩
abbrev cfgMsixMask (f : Nat) : Field := ⟨cfgKey f 0x50, 30, 30⟩
/-- Device Control of PF0, which serves every function: Enable Relaxed Ordering, Max Payload Size, Max Read Request Size (R331,
R333). -/
abbrev cfgRelaxed : Field := ⟨0x40000068, 4, 4⟩
abbrev cfgPayload : Field := ⟨0x40000068, 7, 5⟩
abbrev cfgReadSize : Field := ⟨0x40000068, 14, 12⟩
/-- Device Control 2: the Completion Timeout Value and 10-Bit Tag Requester Enable (R336, R338). -/
abbrev cfgCplTimeout : Field := ⟨0x40000088, 3, 0⟩
abbrev cfgTenBit : Field := ⟨0x40000088, 12, 12⟩
/-- The SR-IOV capability: VF Enable, VF Memory Space Enable, NumVFs (R334, R335). -/
abbrev cfgVfOn : Field := ⟨0x40000188, 0, 0⟩
abbrev cfgVfMse : Field := ⟨0x40000188, 3, 3⟩
abbrev cfgNumVfs : Field := ⟨0x40000190, 15, 0⟩

/-- The Uncorrectable Error Status bits of AER that a failed read sets (R338): Completion Timeout, Completer Abort, Unsupported
Request. -/
inductive AerError where
  | timeout | abort | unsupported
deriving DecidableEq, Repr

def AerError.place : AerError → Nat
  | .timeout => 14 | .abort => 15 | .unsupported => 20

/-- An error is logged through AER of the function it concerns (R338). -/
def State.logAer (s : State) (f : Nat) (e : AerError) : State := s.put ⟨cfgKey f 0x104, e.place, e.place⟩ 1

/-! ## Functions -/

/-- A host configuration request completes with Request Retry Status: HIU has not reached RUN (R53). -/
def State.configRetry (s : State) : Bool := !s.running .hiu

/-- TotalVFs of the SR-IOV capability: 0 until TTU and QE are in RUN, then the 4,095 VFs (R15, R53). -/
def State.totalVfs (s : State) : Nat := if s.running .ttu && s.running .qe then 4095 else 0

/-- VF `v` exists: VF Enable is 1, and its number is within NumVFs and TotalVFs (R334). -/
def State.vfExists (s : State) (v : Nat) : Bool := v != 0 && s.flag cfgVfOn && v ≤ s.get cfgNumVfs && v ≤ s.totalVfs

/-- How function `f` takes interrupts: the first of MSI-X, INTx (PF0 only) and none that its configuration enables (R340). -/
def State.mechanism (s : State) (f : Nat) : IntMech :=
  if s.flag (cfgMsixOn f) then .msix else if f = 0 && !s.flag cfgIntxOff then .intx else .none

/-- Max Payload Size and Max Read Request Size as the host has set them, at most 512 bytes and 4 KiB (R331, R336). -/
def State.maxPayload (s : State) : Nat := min 512 (128 * 2 ^ s.get cfgPayload)
def State.maxRead (s : State) : Nat := min 4096 (128 * 2 ^ s.get cfgReadSize)

/-- LIMIT of the tag pool by link mode (R336). -/
def tagLimit (flit tenBit : Bool) : Nat := if flit then 4096 else if tenBit then 768 else 256

/-- LIMIT follows the link mode. -/
def State.setTagLimit (s : State) : State :=
  s.put Reg.HIU_TAG_STATUS_LIMIT (tagLimit (s.flag Reg.HIU_LINK_STATUS_FLIT) (s.flag cfgTenBit))

/-! ## Words -/

/-- The device serial number: SUP_MGMT_MAC padded as EUI-64 (R331). -/
def State.serialNumber (s : State) : Nat :=
  let m := s.get Reg.SUP_MGMT_MAC
  m / 2 ^ 24 * 2 ^ 40 + 0xFFFE * 2 ^ 24 + m % 2 ^ 24

/-- The bits of a word that no write changes: headers of capabilities, what the device offers, and what it shows. -/
def State.cfgFixed (s : State) (f off : Nat) : Nat :=
  match off with
  | 0x00 => if f = 0 then Config.pcieId % 2 ^ 32 else 0xFFFFFFFF
  | 0x04 => 0x00100000
  | 0x08 => Config.pcieId / 2 ^ 32 % 2 ^ 24 * 2 ^ 8
  | 0x10 => if f = 0 then 4 else 0
  | 0x18 => if f = 0 then 4 else 0
  | 0x34 => 0x40
  | 0x3C => if f = 0 then 0x100 else 0
  -- power management: D0 and D3hot, No_Soft_Reset (R331, R349)
  | 0x40 => 0x00035001
  | 0x44 => if s.hiu.vfD3.contains f then 0xB else 8
  -- MSI-X: 2,048 vectors on PF0, 64 on a VF (R341)
  | 0x50 => if f = 0 then 0x07FF6011 else 0x003F6011
  | 0x54 => if f = 0 then 0x0A010000 else 0x9800
  | 0x58 => if f = 0 then 0x0A018000 else 0x9C00
  -- PCI Express endpoint, Flit mode; Max Payload Size 512, FLR; no ASPM (R331)
  | 0x60 => 0x80020010
  | 0x64 => 0x10008022
  | 0x6C => s.get Reg.HIU_LINK_CFG_MAX_SPEED + s.get Reg.HIU_LINK_CFG_MAX_WIDTH * 2 ^ 4
  | 0x70 => s.get Reg.HIU_LINK_STATUS_SPEED * 2 ^ 16 + s.get Reg.HIU_LINK_STATUS_WIDTH * 2 ^ 20
  -- Completion Timeout ranges A to D, 10-Bit Tag Requester; the link speeds for training (R331, R338)
  | 0x84 => 0x0002000F
  | 0x8C => 2 ^ (s.get Reg.HIU_LINK_CFG_MAX_SPEED + 1) - 2
  -- AER, ARI, Device Serial Number, SR-IOV (R331, R334)
  | 0x100 => 0x15020001
  | 0x150 => 0x1601000E
  | 0x160 => if f = 0 then 0x18010003 else 0x00010003
  | 0x164 => s.serialNumber % 2 ^ 32
  | 0x168 => s.serialNumber / 2 ^ 32
  | 0x180 => if f = 0 then 0x00010010 else 0
  | 0x18C => if f = 0 then s.totalVfs * 2 ^ 16 + s.totalVfs else 0
  | 0x194 => if f = 0 then 0x00010001 else 0
  | 0x198 => if f = 0 then (Config.pcieId / 2 ^ 16 + 1) % 2 ^ 16 * 2 ^ 16 else 0
  | 0x19C => if f = 0 then 1 else 0
  | 0x1A4 => if f = 0 then 4 else 0
  | _ => 0

/-- The bits of a word that a write sets, and those that it clears by writing 1. The Device Control and Command bits that a VF
shares with PF0 are PF0's. -/
def cfgMasks (f off : Nat) : Nat × Nat :=
  match off with
  | 0x04 => (if f = 0 then 0x546 else 4, 0)
  | 0x10 => (if f = 0 then 0xF0000000 else 0, 0)
  | 0x14 => (if f = 0 then 0xFFFFFFFF else 0, 0)
  | 0x18 => (if f = 0 then 0xFC000000 else 0, 0)
  | 0x1C => (if f = 0 then 0xFFFFFFFF else 0, 0)
  | 0x50 => (0xC0000000, 0)
  | 0x68 => (if f = 0 then 0x70FF else 0, 0)
  | 0x88 => (if f = 0 then 0x100F else 0, 0)
  | 0x104 => (0, 0x0010C000)
  | 0x108 => (0x0010C000, 0)
  | 0x10C => (0x0010C000, 0)
  | 0x188 => (if f = 0 then 0x19 else 0, 0)
  | 0x190 => (if f = 0 then 0xFFFF else 0, 0)
  | 0x1A4 => (if f = 0 then 0xFFFF0000 else 0, 0)
  | 0x1A8 => (if f = 0 then 0xFFFFFFFF else 0, 0)
  | _ => (0, 0)

/-- A configuration word as it reads. -/
def State.cfgRead (s : State) (f off : Nat) : Nat := s.rd (cfgKey f off) ||| s.cfgFixed f off

/-- A configuration word takes a written value; NumVFs keeps its value while VF Enable is 1. -/
def State.cfgPut (s : State) (f off v : Nat) : State :=
  let w := s.rd (cfgKey f off)
  let (rw, rc) := cfgMasks f off
  if off = 0x190 && s.flag cfgVfOn then s
  else s.wr (cfgKey f off) (((w - (w &&& rw)) ||| (v &&& rw)) - (w &&& v &&& rc))

/-- The configuration space of a function returns to reset (R344, R349). -/
def State.resetConfig (s : State) (f : Nat) : State := s.resetWords (fun k => inRange k (cfgKey f 0) 0x1000)

/-! ## Who reaches the device (R334, R335, R344) -/

/-- The host's memory requests reach the function: the link is up, HIU serves it, the function exists and its Memory Space Enable,
or VF MSE, is 1. What comes from inside the device always does. -/
def State.served (s : State) : Requester → Bool
  | .pf0 => s.running .hiu && s.flag Reg.HIU_LINK_STATUS_UP && s.flag cfgMse
  | .vf v => s.running .hiu && s.flag Reg.HIU_LINK_STATUS_UP && s.vfExists v && s.flag cfgVfMse
  | _ => true

/-- A request can arrive at all. -/
def State.arrives (s : State) : Requester → Bool
  | .pf0 => s.flag Reg.HIU_LINK_STATUS_UP
  | .vf _ => s.flag Reg.HIU_LINK_STATUS_UP
  | _ => true

/-! ## Flow-control credits (R339) -/

/-- Credits that a TLP consumes, by credit type: a unit of data is 16 bytes. -/
def tlpCost : Out → List Nat
  | .dma _ _ l _ => [1, ceilDiv l.length 16, 0, 0, 0, 0]
  | .dmaOr _ _ _ => [1, 1, 0, 0, 0, 0]
  | .msix _ _ => [1, 1, 0, 0, 0, 0]
  | .intx _ => [1, 0, 0, 0, 0, 0]
  | .dmaRead _ _ _ _ _ => [0, 0, 1, 0, 0, 0]
  | _ => []

/-- Credits consumed by TLPs return to the device. -/
def fcReturn (l : List (Nat × Nat × Nat)) : List (Nat × Nat × Nat) := l.map (fun x => (x.1, x.2.1 + x.2.2, 0))

/-- Credits move from held to consumed. A TLP that has to wait for credits leaves once those consumed before it have returned, and
shows only by when it leaves (DESIGN CHOICE, log entry 111). -/
def fcSpend (l : List (Nat × Nat × Nat)) (cost : List Nat) : List (Nat × Nat × Nat) :=
  let short := (l.zip cost).any (fun x => decide (x.1.2.1 < x.2))
  let l := if short then fcReturn l else l
  l.zipIdx.map (fun x => let n := min x.1.2.1 (cost.getD x.2 0); (x.1.1, x.1.2.1 - n, x.1.2.2 + n))

/-- A TLP leaves for the host. -/
def State.sendHost (s : State) (o : Out) : State :=
  ({ s with hiu := { s.hiu with fc := fcSpend s.hiu.fc (tlpCost o) } }).emit o

end Sys2Proof.Machine
end

