-- ==== Sys2Proof/Machine/Access.lean ====
section
/-! DEFINITION. Register accesses: sizes and alignment (R9), access types (R10), seals (R12), pairs (R13), hidden
units (R30, R53, R58), the VF spaces (R32, R33) and what waits for the service cores (R427). -/

namespace Sys2Proof.Machine

/-- The key of a byte address; a VF's mailbox window is the same SRAM as in PF0 BAR2 (R33). -/
def keyOf (a : Addr) : Option Nat :=
  match a.space with
  | .bar0 => if a.off < 0x10000000 then some a.off else none
  | .bar2 => if a.off < 0x04000000 then some (0x10000000 + a.off) else none
  | .vf v =>
    if 0x10000 ≤ a.off then none
    else if 0x8000 ≤ a.off && a.off < 0x9000 then some (0x10000000 + v * 0x1000 + (a.off - 0x8000))
    else some (0x20000000 + v * 0x10000 + a.off)
  | .config _ => none

/-- The unit that owns a key (R8, R31); VF spaces are TTU's. -/
def unitOfKey (k : Nat) : Nat :=
  match k / 0x1000000 with
  | 16 => 11 | 17 => 3 | 18 => 4 | 19 => 6
  | n => if n < 14 then n else 11

/-- The row that describes a word. -/
def rowOf (k : Nat) : Option WordRow :=
  let k := if 0x20000000 ≤ k then 0x20000000 + k % 0x10000 else k
  (rowsFor k).find? (fun r =>
    r.base ≤ k && (if r.stride = 0 then k == r.base else (k - r.base) % r.stride == 0 && (k - r.base) / r.stride < r.count))

/-- `k` is the low word of a 64-bit register or of a pair (R13). -/
def isPairLow (k : Nat) : Bool :=
  let k := if 0x20000000 ≤ k then 0x20000000 + k % 0x10000 else k
  pairRows.any (fun r =>
    r.1 ≤ k && (if r.2.1 = 0 then k == r.1 else (k - r.1) % r.2.1 == 0 && (k - r.1) / r.2.1 < r.2.2))

/-- The requester's function number in a record. -/
def requesterFunc : Requester → Nat
  | .vf v => v
  | _ => 0

/-- Not a tenant: PF0, SUP firmware, or a register frame they serve. -/
def isManager : Requester → Bool
  | .vf _ => false
  | _ => true

/-- A requester reaches a space: PF0 and SUP firmware both BARs of PF0, a register frame PF0 BAR0 (R293), a VF its
own BAR (R8). -/
def reaches : Requester → Space → Bool
  | .vf v, .vf w => v == w && v.val != 0
  | .vf _, _ => false
  | .frame, .bar0 => true
  | .frame, _ => false
  | _, .vf _ => false
  | _, .config _ => false
  | _, _ => true

/-- The word is shown: registers above 0x1000 of a unit OFF or LOADING are hidden, and in tier 0 recovery PF0 BAR0
shows SUP alone (R30, R53, R58). -/
def State.shows (s : State) (k : Nat) : Bool :=
  let u := unitOfKey k
  let st := s.get (Reg.UNIT_STATE u)
  let recovery := s.get Reg.SUP_BOOT_STATUS_STAGE == 4
  u == 0 ||
    (!recovery && (k % 0x1000000 < 0x1000 && k < 0x0E000000 || (st != 0 && st != 1))
      && (k < 0x20000000 || (s.running .ttu && s.running .qe)))

/-- The manager may write the register at `k`: its requests are served, and the unit shows it. -/
def State.mayWrite (s : State) (r : Requester) (k : Nat) : Bool := isManager r && s.served r && s.shows k

/-- SUP registers above 0x1000 wait while the service cores restart (R427). -/
def State.waits (s : State) (k : Nat) : Bool := s.sup.svcRestarting && unitOfKey k == 0 && 0x1000 ≤ k

/-- The ring of function `f` with doorbell index `d` (R388): owner map entries that are not FREE are listed words. -/
def State.vfRing (s : State) (f d : Nat) : Option Nat :=
  if f = 0 then none else (s.regs.flatMap (fun p =>
    if 0x0B300000 ≤ p.1 && p.1 < 0x0B340000 then
      [((p.1 - 0x0B300000) / 2, p.2.toNat % 65536), ((p.1 - 0x0B300000) / 2 + 1, p.2.toNat / 65536)]
    else [])).findSome? (fun p =>
      if p.2 / 0x8000 == 0 && p.2 % 4096 == f && s.get (Reg.RING_DB p.1) == d then some p.1 else none)

/-- The key that a word of QE_VF_CTX shows (R388), others unchanged; none where the VF has no such ring. -/
def State.ctxKey (s : State) (k : Nat) : Option Nat :=
  if 0x20000000 ≤ k && 0x9140 ≤ k % 0x10000 && k % 0x10000 < 0x9180 then
    let v := (k - 0x20000000) / 0x10000
    (s.vfRing v (s.get (Reg.QE_VF_RING_SEL v))).map (fun r => 0x0C400000 + 64 * r + (k % 0x10000 - 0x9140))
  else some k

/-- The value a read of one word returns: write-only fields read 0, and so does what is not there (R9, R10). -/
def State.readWord (s : State) (k : Nat) : Nat :=
  match s.ctxKey k with
  | none => 0
  | some k =>
    if !s.shows k then 0
    else match rowOf k with
      | none => 0
      | some r => r.fields.foldl (fun v f =>
          match f.acc with
          | .wo => v
          | _ => setBits v f.lo (f.hi + 1 - f.lo) (bits ((s.copyWord k).getD (s.rd k)) f.lo (f.hi + 1 - f.lo))) 0

/-- The clear-on-read fields of a word, cleared by a read (R10). -/
def State.clearRc (s : State) (k : Nat) : State :=
  if !s.shows k then s
  else match rowOf k with
    | none => s
    | some r =>
      if r.fields.any (fun f => f.acc == .rc) then
        s.wr k (r.fields.foldl (fun v f => if f.acc == .rc then setBits v f.lo (f.hi + 1 - f.lo) 0 else v) (s.rd k))
      else s

/-- One requester's holding registers for a pair. -/
def State.holdOf (s : State) (who : Requester) (k : Nat) : Hold :=
  (s.holds.find? (fun h => h.who == who && h.key == k)).getD ⟨who, k, none, none⟩

def State.setHold (s : State) (h : Hold) : State :=
  let l := s.holds.filter (fun x => !(x.who == h.who && x.key == h.key))
  { s with holds := if h.capHi.isNone && h.wrLo.isNone then l else h :: l }

/-- The pairs of two 32-bit registers NAME_LO and NAME_HI, SUP_HBM_FILL and TE_TICK; every other pair is one 64-bit register
(R9, R13). -/
def isSplitPair (k : Nat) : Bool := k == 0x1018 || k == tickLoKey

/-- The words at `k` and `k + 4` hold one 64-bit register, which a 64-bit access reaches at once (R9, R13). -/
def isWide (k : Nat) : Bool := isPairLow k && !isSplitPair k

/-- A 32-bit read: a low word captures its high word, and a high word returns the capture (R13, R70). -/
def State.read32 (s : State) (who : Requester) (k : Nat) : Nat × State :=
  if isPairLow k then
    let s' := s.setHold { s.holdOf who k with capHi := some (s.readWord (k + 4)) }
    let s' := if k = tickLoKey then s'.setHold { s'.holdOf who offsetKey with capHi := some (s.readWord offsetKey) } else s'
    (s.readWord k, s'.clearRc k)
  else
    let pk := if k = offsetKey then offsetKey else k - 4
    if (k = offsetKey || (4 ≤ k && isPairLow (k - 4))) && s.shows k then
      match (s.holdOf who pk).capHi with
      | some v => (v, s.setHold { s.holdOf who pk with capHi := none })
      | none => (s.readWord k, s.clearRc k)
    else (s.readWord k, s.clearRc k)

/-- A configuration request is answered by HIU itself: Request Retry Status until it runs, Unsupported Request of a function that
does not exist; none arrives while the link is down (R53, R334, R344). None where the request is to be carried out. -/
def State.configReply (s : State) (who : Requester) (f off size : Nat) : Option (Option Reply) :=
  if who != .pf0 || !s.flag Reg.HIU_LINK_STATUS_UP then some none
  else if s.configRetry then some (some .retry)
  else if (f != 0 && !s.vfExists f) || size != 4 || off % 4 != 0 then some (some .unsupported)
  else none

/-- A read of a register by its key: a 64-bit read of a 64-bit register is one atomic access, any other two 32-bit reads, the lower
first (R9). -/
def State.readKey (s : State) (who : Requester) (k size : Nat) : State :=
  if size = 4 then
    let (v, s) := s.read32 who k
    { s with reply := some (.data v) }
  else if isWide k then
    let v := s.readWord k + 2 ^ 32 * s.readWord (k + 4)
    { (s.clearRc k).clearRc (k + 4) with reply := some (.data v) }
  else
    let (lo, s) := s.read32 who k
    let (hi, s) := s.read32 who (k + 4)
    { s with reply := some (.data (lo + 2 ^ 32 * hi)) }

/-- An access waits for the service cores (R427). -/
def State.holdAccess (s : State) (x : SvcWait) : State := { s with sup := { s.sup with svcHeld := s.sup.svcHeld ++ [x] } }

/-- A memory access is turned away: none arrives while the link is down (R344); it completes with Unsupported Request where its
function does not exist or its Memory Space Enable is 0 (R334, R335), and where it is no aligned access of 4 or 8 bytes (R9). -/
def State.refuseAccess (s : State) (who : Requester) (a : Addr) (size : Nat) : Option (Option Reply) :=
  if !s.arrives who then some none
  else if !s.served who || !(size == 4 && a.off % 4 == 0 || size == 8 && a.off % 8 == 0) then some (some .unsupported)
  else none

/-- A configuration word is read. -/
def State.configRead (s : State) (who : Requester) (f off size : Nat) : State :=
  { s with reply := (s.configReply who f off size).getD (some (.data (s.cfgRead f off))) }

/-- A read of 4 or 8 bytes, naturally aligned; any other access completes with Unsupported Request (R9). -/
def State.busRead (s : State) (who : Requester) (a : Addr) (size : Nat) : State :=
  match a.space with
  | .config f => s.configRead who f a.off size
  | _ =>
    match s.refuseAccess who a size with
    | some reply => { s with reply := reply }
    | none =>
      if !reaches who a.space then { s with reply := some (.data 0) }
      else match keyOf a with
        | none => { s with reply := some (.data 0) }
        | some k =>
          let s := s.settleFor k
          if s.waits k then { s.holdAccess (.read who k size) with reply := none } else s.readKey who k size

/-- One field of a written word, by its access type (R10); a sealed SL field keeps its value (R12). -/
def writeField (isSealed : Bool) (v : Nat) (w : Nat) (f : FieldRow) : Nat :=
  let n := f.hi + 1 - f.lo
  let old := bits w f.lo n
  let new := bits v f.lo n
  match f.acc with
  | .rw => setBits w f.lo n new
  | .sl => if isSealed then w else setBits w f.lo n new
  | .w1c => setBits w f.lo n (old - (old &&& new))
  | .w1s => setBits w f.lo n (old ||| new)
  | .ro | .wo | .rc => w

/-- The write would change a sealed field (R12). -/
def sealBreak (isSealed : Bool) (v w : Nat) (r : WordRow) : Bool :=
  isSealed && r.fields.any (fun f => f.acc == .sl && bits v f.lo (f.hi + 1 - f.lo) != bits w f.lo (f.hi + 1 - f.lo))

/-- A SEAL_WRITE record, with the register and the requesting function, and the event (R12). -/
def State.sealWrite (s : State) (who : Requester) (k : Nat) : State :=
  let p := [(32, k), (12, requesterFunc who)]
  (s.hlog 2 (unitOfKey k) (payload p)).raise .sup 2 []

/-- The unit of the word is sealed (R12). -/
def State.sealedAt (s : State) (k : Nat) : Bool := s.flag (Reg.UNIT_SEALED (unitOfKey k))

/-- A write of `v` to the word would change a sealed field of it (R12). -/
def State.breaksSeal (s : State) (k v : Nat) : Bool :=
  s.shows k && (rowOf k).any (fun r => sealBreak (s.sealedAt k) v (s.rd k) r)

/-- A word under a write, field by field by their access types, or as it was (R9, R10). -/
def State.setWord (s : State) (k v : Nat) : State :=
  if !s.shows k then s
  else match rowOf k with
    | none => s
    | some r => s.wr k (r.fields.foldl (writeField (s.sealedAt k) v) (s.rd k))

/-- A write to one word takes effect under its access types, or is discarded; one that would change a sealed field is
recorded (R9, R10, R12). -/
def State.writeWord (s : State) (who : Requester) (k v : Nat) : State :=
  if s.breaksSeal k v then (s.setWord k v).sealWrite who k else s.setWord k v

/-- A write of a 64-bit register, both halves together: one write, and so one record where it meets a seal (R12). -/
def State.writePair (s : State) (who : Requester) (k v : Nat) : State :=
  let s' := (s.setWord k (v % 2 ^ 32)).setWord (k + 4) (v / 2 ^ 32)
  if s.breaksSeal k (v % 2 ^ 32) || s.breaksSeal (k + 4) (v / 2 ^ 32) then s'.sealWrite who k else s'

/-- A 32-bit write under the pair rules, given what a write of a word and of a whole 64-bit register does: a low half
is held, and the high half commits it, or changes the high half alone (R13). -/
def State.write32Via (s : State) (who : Requester) (word pair : Nat → Nat → State → State) (k v : Nat) : State :=
  if isPairLow k then s.setHold { s.holdOf who k with wrLo := some v }
  else if 4 ≤ k && isPairLow (k - 4) then
    match (s.holdOf who (k - 4)).wrLo with
    | some lo => pair (k - 4) (lo + 2 ^ 32 * v) (s.setHold { s.holdOf who (k - 4) with wrLo := none })
    | none => pair (k - 4) (s.rd (k - 4) + 2 ^ 32 * v) s
  else word k v s

/-- An entry of EGU's function map, which a 64-bit access writes whole (R218). -/
def isMapEntry (k : Nat) : Bool := 0x07260000 ≤ k && k < 0x07268000 && k % 8 == 0

/-- An aligned write of 4 or 8 bytes at a key: a 64-bit write is one access to a 64-bit register, else two of 32 bits. -/
def State.writeKeyVia (s : State) (who : Requester) (word pair : Nat → Nat → State → State) (k size v : Nat) : State :=
  if size = 4 then s.write32Via who word pair k (v % 2 ^ 32)
  else if isWide k || isMapEntry k then pair k v s
  else (s.write32Via who word pair k (v % 2 ^ 32)).write32Via who word pair (k + 4) (v / 2 ^ 32)

/-- A write of 4 or 8 bytes under R9; `config` writes a word of configuration space. -/
def State.busWriteVia (s : State) (who : Requester) (word pair : Nat → Nat → State → State) (config : Nat → Nat → Nat → State → State)
    (a : Addr) (size v : Nat) : State :=
  match a.space with
  | .config f =>
    match s.configReply who f a.off size with
    | some reply => { s with reply := reply }
    | none => config f a.off (v % 2 ^ 32) { s with reply := some .done }
  | _ =>
    match s.refuseAccess who a size with
    | some reply => { s with reply := reply }
    | none =>
      if !reaches who a.space then { s with reply := some .done }
      else match keyOf a with
        | none => { s with reply := some .done }
        | some k =>
          let s : State := { s with reply := some .done }
          if s.waits k then s.holdAccess (.write who k size v) else s.writeKeyVia who word pair k size v

/-- READ_CLEAR (R10, R11): a read of a word with clear-on-read fields returns them and clears them. -/
def execReadClear (r : Requester) (a : Addr) (size : Nat) (s : State) : Host.Outcome State Fault Refusal :=
  ok (s.busRead r a size)

/-- PAIR_LO_READ (R13, R70): the read captures the high half, and for TE_TICK_LO the offset. -/
def execPairLoRead (r : Requester) (a : Addr) (s : State) : Host.Outcome State Fault Refusal :=
  ok (s.busRead r a 4)

end Sys2Proof.Machine
end

