-- ==== Sys2Proof/Machine/Time.lean ====
section
/-! DEFINITION. PTP, the synchronisation states and the media start (R64 to R70). -/

namespace Sys2Proof.Machine

/-- Synchronisation states (R67): 0 ACQUIRING, 1 LOCKED, 2 HOLDOVER, 3 FREE_RUN, 4 TIME_FAULT. -/
def State.syncState (s : State) : Nat := s.get Reg.TE_SYNC_STATE_STATE
def State.mediaRun (s : State) : Bool := s.flag Reg.TE_SYNC_STATE_MEDIA_RUN

/-- The moment of a command within its tick: the offset moves on, never back, once TE runs. -/
def State.moment (s : State) (o : Nat) : State :=
  if s.running .te then s.put Reg.TE_OFFSET (max s.offset (min o (s.period - 1))) else s

/-- 0 ABSENT, 1 DOWN, 2 HOLD, 3 UP (R274). -/
def State.portState (s : State) (p : Nat) : Nat := s.get (Reg.PXC_PORT_STATUS_STATE p)
def State.portUp (s : State) (p : Nat) : Bool := s.portState p == 3

/-- PXC's timestamp of a moment that is now, in units of 2^-16 ns: its error is within ±4 ns, and free within that (R288). -/
def State.stampNow (s : State) : Nat × State :=
  let (v, s) := s.takeFree
  (Int.toNat ((65536 * s.localNs : Nat) + (v % 524289 : Nat) - 262144 : Int), s)

/-- The stamp of a frame whose first bit is at a port now. -/
def State.rxStamp (s : State) : Stamp × State := let (v, s) := s.stampNow; (⟨s.localNs, v⟩, s)

/-- A local time that was noted before a step of `d` ns, as it stands after it. -/
def shiftNs (d : Int) (t : Nat) : Nat := Int.toNat (t + d)

/-- The local times that a queued frame carries. -/
def Queued.shift (d : Int) (q : Queued) : Queued :=
  { q with joined := shiftNs d q.joined, headSince := shiftNs d q.headSince, arrived := shiftNs d q.arrived }

/-- Local time steps, and every interval under way goes on: each time that was noted moves with the step (R69, R70). -/
def State.stepTime (s : State) (tick offset : Nat) : State :=
  let s := s.settle
  let old := s.localNs
  let s := (s.put Reg.TE_TICK tick).put Reg.TE_OFFSET offset
  let d : Int := (s.localNs : Int) - old
  { s with
    egu := { s.egu with
      queues := s.egu.queues.map (Queued.shift d)
      shaper := s.egu.shaper.map (fun x => (x.1, x.2.shift d))
      tx := s.egu.tx.map (fun x => (x.1, { x.2 with start := shiftNs d x.2.start }))
      edgeAt := shiftNs d s.egu.edgeAt, creditAt := s.localNs / 4 * 4, levelAt := s.localNs
      consAt := s.egu.consAt.map (shiftNs d) }
    pxc := { s.pxc with paused := s.pxc.paused.map (fun x => (x.1, shiftNs d x.2)) }
    qe := { s.qe with rings := s.qe.rings.map (fun x => (x.1, { x.2 with signalled := x.2.signalled.map (shiftNs d) })) }
    hiu := { s.hiu with kicked := shiftNs d s.hiu.kicked }
    sup := { s.sup with svcTimes := s.sup.svcTimes.map (shiftNs d) } }

/-- Set local time. -/
def State.setLocalNs (s : State) (ns : Nat) : State := s.stepTime (ns / s.period) (ns % s.period)

/-- NOT_FIT.TIME: TE is neither LOCKED nor HOLDOVER (R322). -/
def State.refreshTime (s : State) : State :=
  if s.pairRole then
    s.put Reg.HGC_STATE_NOT_FIT (setBits (s.get Reg.HGC_STATE_NOT_FIT) 2 1 (bit (!(s.syncState == 1 || s.syncState == 2))))
  else s

/-- A change of STATE, with its event (R86). -/
def State.setSync (s : State) (st : Nat) : State :=
  let s := (s.put Reg.TE_SYNC_STATE_STATE st).refreshTime
  match st with
  | 1 => ({ s with te := { s.te with wasLocked := true } }).raise .te 1 []
  | 2 => s.raise .te 2 []
  | 3 => s.raise .te 3 []
  | 4 => s.raise .te 4 []
  | _ => s

/-- A row of R66 applies: a TIME_MISMATCH record when it begins to, and again only after 10 s of absence. -/
def State.mismatchRow (s : State) (row port : Nat) : State :=
  let key := row * 256 + port
  let fresh := match Assoc.get? s.te.mismatch key with
    | none => true
    | some t => 10000000000 ≤ (s.tick - t) * s.period
  let s := { s with te := { s.te with mismatch := Assoc.set s.te.mismatch key s.tick } }
  s.when fresh (fun s => s.hlog 18 1 (payload [(8, row), (8, port)]))

/-- A PTP message is ignored and counted (R65, R66). -/
def State.ptpDiscard (s : State) : State := s.bumpSat Reg.TE_PTP_DISCARD

/-- The intervals TE accepts, by kind (R65). -/
def intervalOk (m : PtpMsg) : Bool :=
  match m.kind with
  | .sync | .followUp => decide (-7 ≤ m.logInterval) && decide (m.logInterval ≤ 1)
  | .announce => decide (-3 ≤ m.logInterval) && decide (m.logInterval ≤ 3)
  | _ => decide (-7 ≤ m.logInterval) && decide (m.logInterval ≤ 5)

/-- The index of TE_GM_ID that lists a grandmaster; an entry of 0 is unused (R66). -/
def State.gmIndex (s : State) (g : Nat) : Option Nat :=
  (List.range 4).find? (fun i => s.get (Reg.TE_GM_ID i) == g && g != 0)

/-- The data-set order of the best master clock algorithm: members compared in turn, the lower better (PRESUMED, the
profiles' own standard; PRESUMED, log entry 11). -/
def datasetLt : List Nat → List Nat → Bool
  | a :: l, b :: r => if a < b then true else if b < a then false else datasetLt l r
  | [], _ :: _ => true
  | _, [] => false

/-- TE hears and speaks on the port: it takes part in PTP, and it is UP (R65, R274). -/
def State.ptpPort (s : State) (p : Nat) : Bool :=
  bitAt (s.get Reg.TE_PTP_PORTS) p && s.running .te && s.running .pxc && s.portUp p

/-- The best of the Announce data sets held, of equals the one held longest. -/
def bestAnnounce : List (Nat × List Nat) → Option (Nat × List Nat)
  | [] => none
  | a :: l => match bestAnnounce l with
    | none => some a
    | some b => if datasetLt b.2 a.2 then some b else some a

/-- The port takes part in PTP and is UP; one that is FAULTY takes no part (R65, R66). -/
def State.ptpHears (s : State) (p : Nat) : Bool := s.ptpPort p && !s.te.faulty.contains p

/-- The profile's algorithm runs among the Announce messages held on ports that take part: PORT is the selection's, and GM_CHANGE
is raised at each change of the grandmaster (R66). Where none is left, GM_INDEX and the payload keep the last index (R86 gives them
no other value; DESIGN CHOICE, log entry 11). -/
def State.runBmca (s : State) : State :=
  let best := (bestAnnounce (s.te.announces.filter (fun x => s.ptpHears (x.1 % 256)))).map (·.1)
  let new := best.map (· / 256)
  let s := s.put Reg.TE_SYNC_STATE_PORT (match best with | some k => k % 256 | none => 0xFF)
  if new = s.te.gm then s
  else
    let s := { s with te := { s.te with gm := new } }
    let s := match new with | some g => s.put Reg.TE_SYNC_STATE_GM_INDEX g | none => s
    s.raise .te 5 [(8, s.get Reg.TE_SYNC_STATE_GM_INDEX)]

/-- What TE has heard on port `p` is forgotten: the port is back in the profile's initial state, and the algorithm runs without it
(R66, R274). -/
def State.forgetPort (s : State) (p : Nat) : State :=
  if s.te.announces.any (fun x => x.1 % 256 == p) || s.te.awaiting.contains p then
    ({ s with te := { s.te with announces := s.te.announces.filter (fun x => x.1 % 256 != p)
                                awaiting := s.te.awaiting.filter (· != p) } } : State).runBmca
  else s

/-- The frequency estimates of 16 messages differ by less than 0.1 ppm (R67). -/
def freqSteady (l : List Int) : Bool := l.all (fun a => l.all (fun b => decide (a - b < 100)))

/-- TE_FREQ_ADJ: the estimate plus an offset correction that the servo chooses within 100 ppm, a value the spec leaves
open (R68, R86; DESIGN CHOICE, log entry 12). -/
def State.steer (s : State) : State :=
  let (v, s) := s.takeFree
  s.put Reg.TE_FREQ_ADJ (ofSigned 32 (s.te.freqEst + ((v % 200001 : Nat) : Int) - 100000))

/-- In HOLDOVER and FREE_RUN time runs on the last estimate, and a 10 MHz input in use steers it, by an amount that the spec leaves
open (R67; DESIGN CHOICE, log entry 12). -/
def State.coast (s : State) : State :=
  if s.flag Reg.TE_SYNC_STATE_REF10_OK then s.steer else s.put Reg.TE_FREQ_ADJ (ofSigned 32 s.te.freqEst)

/-- In ACQUIRING TE may step local time by the measured offset; whether it does is open (R67, R70; DESIGN CHOICE, log entry 12). -/
def State.mayStep (s : State) (off : Int) : State :=
  let (v, s) := s.takeFree
  if v % 2 = 1 then s.setLocalNs (Int.toNat ((s.localNs : Int) - off)) else s

/-- The offset that a port's messages show, less the port's delay asymmetry (R288; the sign is IEEE 1588's, PRESUMED, log entry
95). -/
def State.offsetAt (s : State) (port : Nat) (off : Int) : Int := off - toSigned 32 (s.get (Reg.PXC_PTP_ASYM_ASYM_NS port))

/-- A usable Sync message: the offset and the estimate are taken, and the criteria of LOCKED and TIME_FAULT run. -/
def State.usableSync (s : State) (off ppb : Int) : State :=
  let s := s.put Reg.TE_PTP_OFFSET (ofSigned 32 (clampInt (2 ^ 31 - 1) off))
  if s.syncState = 4 then s
  else
    let lock := (s.get Reg.TE_LOCK_CFG_LOCK_NS : Int)
    let limit := (s.get Reg.TE_STEP_CFG_STEP_LIMIT_MS : Int) * 1000000
    let mag : Int := Int.natAbs off
    let good := if mag ≤ lock then (ppb :: s.te.goodFreqs).take 16 else []
    let bad := if s.mediaRun && limit < mag then s.te.badRun + 1 else 0
    let s := { s with te := { s.te with goodFreqs := good, badRun := bad, freqEst := ppb } }
    if 16 ≤ bad then
      (s.put Reg.TE_FREQ_ADJ (ofSigned 32 ppb)).setSync 4
    else
      let s := if s.syncState = 0 && !s.mediaRun then s.mayStep off else s
      let s := s.steer
      if s.syncState != 1 && good.length = 16 && freqSteady good then s.setSync 1 else s

/-- The profile measures peer delay: P2P_DEFAULT and GPTP (R64). -/
def peerDelay (profile : Nat) : Bool := profile == 1 || profile == 2

/-- A kind belongs to the delay mechanism that the profile does not use (R64, R66). -/
def otherMechanism (profile : Nat) : PtpKind → Bool
  | .delayReq | .delayResp => peerDelay profile
  | .pdelayReq | .pdelayResp | .pdelayRespFollowUp => !peerDelay profile
  | _ => false

/-- The transports of a profile (R64). Which of them a port declares stands in no field that the spec gives, so every one of the
profile's is taken (DESIGN CHOICE, log entry 95). -/
def transportOk (profile : Nat) : PtpTransport → Bool
  | .ethernet => profile != 3
  | .udp4 => profile != 2
  | .udp6 => profile < 2

/-- Port `p`'s next Follow_Up does, or does not, complete a Sync. -/
def State.awaitFollowUp (s : State) (p : Nat) (on : Bool) : State :=
  let l := s.te.awaiting.filter (· != p)
  { s with te := { s.te with awaiting := if on then p :: l else l } }

/-- PTP_MESSAGE_RECEIVED (R64 to R67). A message on a port that takes no part in PTP, or over another transport than the profile's,
is best-effort traffic and leaves TE as it was. A signalling TLV that gPTP requires is taken and changes nothing that the spec
names. -/
def execPtpMessageReceived (port : Fin 32) (m : PtpMsg) (s : State) : Host.Outcome State Fault Refusal :=
  let profile := s.get Reg.TE_CFG_PROFILE
  if !s.ptpPort port || !transportOk profile m.transport then ok s
  else if m.domain.val != s.get Reg.TE_CFG_DOMAIN then ok (s.ptpDiscard.mismatchRow 0 port)
  else if otherMechanism profile m.kind then
    let s := s.ptpDiscard.mismatchRow 2 port
    ok (if s.te.faulty.contains port.val then s
      else ({ s with te := { s.te with faulty := port.val :: s.te.faulty } } : State).forgetPort port)
  else if m.unsupported || !intervalOk m then ok s.ptpDiscard
  else if s.te.faulty.contains port.val then ok s
  else match m.kind with
    | .announce =>
      match s.gmIndex m.gmId.toNat with
      | none => ok (s.ptpDiscard.mismatchRow 1 port)
      | some g =>
        ok ({ s with te := { s.te with announces := Assoc.set s.te.announces (g * 256 + port.val) m.dataset } }).runBmca
    | .sync =>
      match s.gmIndex m.gmId.toNat with
      | none => ok s
      | some g =>
        if s.te.gm != some g then ok s
        else if m.twoStep then ok (s.awaitFollowUp port true)
        else ok (s.usableSync (s.offsetAt port m.offsetNs) m.ppb)
    | .followUp =>
      match s.gmIndex m.gmId.toNat with
      | none => ok s
      | some g =>
        if s.te.gm = some g && s.te.awaiting.contains port.val then
          ok ((s.awaitFollowUp port false).usableSync (s.offsetAt port m.offsetNs) m.ppb)
        else ok s
    | .management => ok s.ptpDiscard
    | .signaling => ok (if profile = 2 then s else s.ptpDiscard)
    | _ => ok s

/-- LOCKED is lost to HOLDOVER. In every state the runs of 16 consecutive Sync messages start over, that of the lock criterion and
that beyond STEP_LIMIT_MS alike: whether a timeout breaks them the spec does not say (R67; DESIGN CHOICE, log entry 12). -/
def State.loseLock (s : State) : State :=
  let s := { s with te := { s.te with goodFreqs := [], badRun := 0 } }
  if s.syncState = 1 then s.coast.setSync 2 else s

/-- SYNC_TIMEOUT (R67): no usable Sync for 3 Sync intervals. -/
def execSyncTimeout (s : State) : Host.Outcome State Fault Refusal := ok s.loseLock

/-- ANNOUNCE_TIMEOUT (R67): the Announce messages of grandmaster `gm` have timed out; with none listed left, or with
the selected one lost, Sync messages are no longer usable. -/
def execAnnounceTimeout (gm : Fin 4) (s : State) : Host.Outcome State Fault Refusal :=
  let was := s.te.gm
  let s := ({ s with te := { s.te with announces := s.te.announces.filter (fun x => x.1 / 256 != gm.val) } }).runBmca
  ok (if was = some gm.val && s.te.gm.isNone then s.loseLock else s)

/-- HOLDOVER_EXPIRY (R67): HOLDOVER has lasted HOLDOVER_S seconds. -/
def execHoldoverExpiry (s : State) : Host.Outcome State Fault Refusal :=
  ok (if s.syncState = 2 then s.setSync 3 else s)

/-- DELAY_MECHANISM_CLEAR (R66): the FAULTY port takes part in PTP again, from the profile's initial state: nothing that it heard
before stands. -/
def execDelayMechanismClear (port : Fin 32) (s : State) : Host.Outcome State Fault Refusal :=
  ok { s with te := { s.te with faulty := s.te.faulty.filter (· != port.val) } }

/-- HOLDOVER or FREE_RUN goes on with or without the 10 MHz input (R67). -/
def State.recoast (s : State) : State := s.when (s.syncState = 2 || s.syncState = 3) State.coast

/-- REF10_LOSS (R66): the declared 10 MHz input is absent or out of range. Its row begins to apply, and REF_LOSS is raised where
REF10_OK falls (R86). -/
def execRef10Loss (s : State) : Host.Outcome State Fault Refusal :=
  if s.flag Reg.TE_CFG_REF10_EN && !s.te.refAbsent then
    let was := s.flag Reg.TE_SYNC_STATE_REF10_OK
    let s := { s.put Reg.TE_SYNC_STATE_REF10_OK 0 with te := { s.te with refAbsent := true } }
    ok ((s.mismatchRow 3 0xFF).when was (fun s => (s.raise .te 6 []).recoast))
  else ok s

/-- The row of the 10 MHz input ceases to apply; its 10 s run from now (R66). -/
def State.refBack (s : State) : State :=
  if s.te.refAbsent then
    { s with te := { s.te with refAbsent := false, mismatch := Assoc.set s.te.mismatch (3 * 256 + 0xFF) s.tick } }
  else s

/-- REF10_RETURN (R66): the declared input is within 50 ppm again. -/
def execRef10Return (s : State) : Host.Outcome State Fault Refusal :=
  if s.flag Reg.TE_CFG_REF10_EN then
    let was := s.flag Reg.TE_SYNC_STATE_REF10_OK
    ok ((s.refBack.put Reg.TE_SYNC_STATE_REF10_OK 1).when (!was) State.recoast)
  else ok s

/-- The 1PPS input fails its check (R66). -/
def State.ppsFail (s : State) : State :=
  let s := s.mismatchRow 4 0xFF
  let s : State := { s with te := { s.te with ppsBad := true } }
  if s.flag Reg.TE_SYNC_STATE_PPS_OK then (s.put Reg.TE_SYNC_STATE_PPS_OK 0).raise .te 6 [] else s

/-- The 1PPS input passes its check: where its row applied, the 10 s of its absence run from now (R66). -/
def State.ppsGood (s : State) : State :=
  let s := if s.te.ppsBad then
      { s with te := { s.te with ppsBad := false, mismatch := Assoc.set s.te.mismatch (4 * 256 + 0xFF) s.tick } }
    else s
  s.put Reg.TE_SYNC_STATE_PPS_OK 1

/-- PPS_EDGE (R66): an edge `errorNs` from the PTP second boundary, judged while LOCKED. -/
def execPpsEdge (errorNs : Int) (s : State) : Host.Outcome State Fault Refusal :=
  if s.flag Reg.TE_CFG_PPS_EN && s.syncState = 1 then
    ok (if Int.natAbs errorNs ≤ 1000 then s.ppsGood else s.ppsFail)
  else ok s

/-- PPS_ABSENT (R66): no edge at a PTP second boundary while LOCKED. -/
def execPpsAbsent (s : State) : Host.Outcome State Fault Refusal :=
  if s.flag Reg.TE_CFG_PPS_EN && s.syncState = 1 then ok s.ppsFail else ok s

/-- MEDIA_START (R68, R82): at the first tick boundary after STATE has become LOCKED, media runs; the image's flows and points take
this tick as their effective tick; RESTEP clears, with no second TIME_LOCK, and what was admitted at a higher tick before it stays
admitted (R69; DEDUCED, log entry 22). -/
def execMediaStart (s : State) : Host.Outcome State Fault Refusal :=
  if (s.te.wasLocked || s.syncState = 1) && !s.mediaRun then
    let s := (s.put Reg.TE_SYNC_STATE_MEDIA_RUN 1).put Reg.TE_CTL_RESTEP 0
    let t := s.tick
    ok { s with te := { s.te with
      changes := s.te.changes.map (fun c => { c with tick := some (c.tick.getD t) })
      since := s.te.since.map (fun x => (x.1, x.2.1, min x.2.2 t)) } }
  else ok s

/-- RESTEP (R69): the write of TE_CTL is accepted only in TIME_FAULT, and not while the unit holds the lease. -/
def execRestep (r : Requester) (s : State) : Host.Outcome State Fault Refusal :=
  if !s.mayWrite r Reg.TE_CTL_RESTEP.key then ok s
  else ok (if s.syncState = 4 && !s.holdsLease then s.put Reg.TE_CTL_RESTEP 1 else s)

/-- RESTEP_STEP (R69): at the next tick boundary media stops, MEDIA_RUN clears, and TE steps to the grandmaster's time
and enters ACQUIRING. Nothing received or formed before the step is used after it. -/
def execRestepStep (newTick : Fin 281474976710656) (newOffset : Nat) (s : State) : Host.Outcome State Fault Refusal :=
  if s.flag Reg.TE_CTL_RESTEP && s.mediaRun then
    let s := (s.put Reg.TE_SYNC_STATE_MEDIA_RUN 0).stepTime newTick (newOffset % s.period)
    let s := s.dropMedia
    ok ({ s with te := { s.te with goodFreqs := [], badRun := 0, wasLocked := false } }.setSync 0)
  else ok s

end Sys2Proof.Machine
end

