-- ==== Sys2Proof/Machine/Topiary.lean ====
section
/-! DEFINITION. The topiary: ledger, admission and removal at run time, windows closing (R72 to R85, R92, R176, R233,
R255, R387). -/

namespace Sys2Proof.Machine

/-- Ledger words (R75, R86). -/
def State.cap (s : State) (row : Nat) : Nat := s.get (Reg.TE_LEDGER_CAP row)
def State.used (s : State) (row : Nat) : Nat := s.get (Reg.TE_LEDGER_USED row)

/-- The capacities of every row (R75): set when TE is sealed, and the ports' rows from the lane map. -/
def State.capacities (s : State) : List (Nat × Nat) :=
  let pct := s.get Reg.TE_CFG_RESERVE_PCT
  let t := s.period
  let cyc := t * 3 / 2
  -- C = T x 3.2 Tb/s / 512 bits
  let c := t * 3200 / 512
  (List.range 4).map (fun p => (p, cyc - reserveOf cyc pct)) ++
  [(4, 65536), (5, 131072), (6, c - reserveOf c pct), (7, 0)] ++
  (List.range 32).map (fun p => (8 + p, if s.portExists p then t - reserveOf t pct else 0))

def State.setCapacities (s : State) : State :=
  s.capacities.foldl (fun s p => s.put (Reg.TE_LEDGER_CAP p.1) p.2) s

/-- Sum of per-packet figures over a tick's packets. -/
def perPacket (g : Geometry) (f : Nat → Nat) : Nat := sumOf (List.range g.packets) f

/-- Cipher units of one transform of one packet (R75). -/
def cipherUnits (frame : Nat) : Nat := ceilDiv (frame - 4) 64

/-- Egress time of flow `f` on a port destination: the sum of its packets' occupancies (R75). -/
def State.occupancy (s : State) (f : Nat) (d : Dest) : Nat :=
  perPacket (s.geometry f) (fun i =>
    let wire := s.frameOut f d.target d.rewrite i + 20
    ceilDiv (wire * 8) (s.portRate d.target))

/-- Cipher units of flow `f` on egress, one destination (R75). -/
def State.cipherOut (s : State) (f : Nat) (d : Dest) : Nat :=
  let enc := s.get (Reg.FLOW_ENC_OUT f)
  let n := bit (enc != 0) + (if d.toRing then 0 else bit (s.get (Reg.PROG_ESP_SA d.rewrite) != 0) + bit (s.macsecOn d.target))
  perPacket (s.geometry f) (fun i =>
    n * (if d.toRing then ceilDiv (s.emeLen f i enc) 64 else cipherUnits (s.frameOut f d.target d.rewrite i)))

/-- Cipher units of flow `f` on ingress (R75). -/
def State.cipherIn (s : State) (f : Nat) : Nat :=
  let enc := s.get (Reg.FLOW_ENC_IN f)
  let src := s.get (Reg.FLOW_SRC f)
  match s.get (Reg.FLOW_SRC_KIND f) with
  | 0 =>
    let n := bit (enc != 0) + bit (s.macsecOn src)
    perPacket (s.geometry f) (fun i => n * cipherUnits (s.frameIn f src i))
  | 1 => perPacket (s.geometry f) (fun i => bit (enc != 0) * ceilDiv (s.emeLen f i enc) 64)
  | _ => 0

/-- Add an amount to a row of a list. -/
def addRow (l : List (Nat × Nat)) (row n : Nat) : List (Nat × Nat) :=
  if n = 0 then l else Assoc.set l row (Assoc.getD l row 0 + n)

/-- What a flow, or a point with its output flow, counts in pools: a flow in its function's FLOWS, a point's terms in its function's
PLEACH_TERMS; the image's own objects in PF0's (R364, R365, R174). -/
def State.poolsOf (s : State) (isPoint image : Bool) (id f : Nat) : List (Nat × Nat × Nat) :=
  (if image then 0 else s.get (Reg.FLOW_FUNC f), 1, 1) ::
    (if isPoint then [(if image then 0 else s.get (Reg.POINT_FUNC id), 5, s.get (Reg.POINT_TERM_COUNT id))] else [])

/-- What flow `f` books (R73, R75). -/
def State.flowBooking (s : State) (f : Nat) : Booking :=
  let kind := s.get (Reg.FLOW_SRC_KIND f)
  let ds := s.dests f
  let eg := ds.filterMap (fun d => if d.toRing then none else some (d.target, d.offset, s.occupancy f d))
  let rows := [(4, 1)]
  let rows := if kind = 2 then rows else addRow rows (s.homePipe kind (s.get (Reg.FLOW_SRC f))) (s.geometry f).packets
  let rows := addRow rows 6 (s.cipherIn f + sumOf ds (s.cipherOut f))
  ⟨false, f, eg.foldl (fun l e => addRow l (8 + e.1) e.2.2) rows, eg, s.poolsOf false false f f⟩

/-- Term units of a point at its output's rate (R15, R176). -/
def State.pointUnits (s : State) (p : Nat) : Nat :=
  s.get (Reg.POINT_TERM_COUNT p) * 2 ^ s.get (Reg.FLOW_RATE (s.get (Reg.POINT_OUT_FLOW p)))

/-- What point `p` books, its output flow included (R176). -/
def State.pointBooking (s : State) (p : Nat) : Booking :=
  let b := s.flowBooking (s.get (Reg.POINT_OUT_FLOW p))
  ⟨true, p, addRow b.rows 5 (s.pointUnits p), b.egress, s.poolsOf true false p (s.get (Reg.POINT_OUT_FLOW p))⟩

/-- What a flow or point books; `image` says that it is the image's own (R364). -/
def State.bookingOf (s : State) (isPoint image : Bool) (id : Nat) : Booking :=
  let b := if isPoint then s.pointBooking id else s.flowBooking id
  if image then { b with pools := s.poolsOf isPoint true id id } else b

/-- The bookings follow the pipelines that the media now takes (R17): each is made again, and the ledger with them. -/
def State.rebook (s : State) : State :=
  let go := fun (s : State) (b : Booking) =>
    let now := (s.bookingOf b.isPoint false b.id).rows
    let s := b.rows.foldl (fun s p => s.put (Reg.TE_LEDGER_USED p.1) (s.get (Reg.TE_LEDGER_USED p.1) - p.2)) s
    let s := now.foldl (fun s p => s.put (Reg.TE_LEDGER_USED p.1) (s.get (Reg.TE_LEDGER_USED p.1) + p.2)) s
    { s with te := { s.te with books := s.te.books.map (fun x => if x = b then { b with rows := now } else x) } }
  s.te.books.foldl go s

/-! ## Fencing (R309) -/

/-- A cause of R309 occurs: an ACTIVE member fences and keeps its epoch; a member in FORMING or STANDBY that meets a
held cause enters FENCED as well; a fenced unit takes a held cause over one that is not (DESIGN CHOICE, log entry 20). The
bookings follow where the media of the host no longer comes over the hedge link (R17, R319). -/
def State.fence (s : State) (cause : Nat) : State :=
  let st := s.hedgeState
  if !s.pairRole then s
  else
    let s := s.when (heldCause cause && !s.hgc.heldCauses.contains cause) (fun s =>
      { s with hgc := { s.hgc with heldCauses := cause :: s.hgc.heldCauses } })
    if st == 4 || (heldCause cause && (st == 1 || st == 3)) then
      let s := s.when (st == 4) State.keepEpoch
      let s := ((s.put Reg.HGC_STATE_STATE 5).put Reg.HGC_STATE_FENCE_CAUSE cause).refreshLayered
      ((s.put Reg.HGC_CTL_RELEASE 0).raise .hgc 4 [(8, cause)]).when (st == 3) State.rebook
    else if st == 5 && heldCause cause && !heldCause (s.get Reg.HGC_STATE_FENCE_CAUSE) then
      (s.put Reg.HGC_STATE_FENCE_CAUSE cause).refreshLayered
    else s

/-! ## Constraints -/

/-- Guard map entry of a flow (R186). -/
def State.guardMap (s : State) (f : Nat) : Nat := s.rd (0x07100000 + 4 * f)

/-- The rewrite programs a network-port flow needs (R233). -/
def State.programOk (s : State) (f g : Nat) : Bool :=
  g < 32768 && s.flag (Reg.PROG_VALID g) && s.flag (Reg.PROG_L2_REPLACE g) &&
    (s.get (Reg.FLOW_CARR_OUT f) == 2 || (s.get (Reg.PROG_OUT_L3 g) != 0xFF && s.get (Reg.PROG_OUT_L4 g) != 0xFF))

/-- An encrypted flow's key slot may serve it (R255). -/
def State.keyServes (s : State) (slot func : Nat) : Bool :=
  (s.get (Reg.SLOT_STATE slot) == 1 || s.get (Reg.SLOT_STATE slot) == 2) && s.get (Reg.SLOT_USAGE slot) == 1 &&
    (s.get (Reg.SLOT_FUNC slot) == func || s.get (Reg.SLOT_FUNC slot) == 0)

/-- Flows admitted or pending. -/
def State.liveFlows (s : State) : List Nat :=
  (s.regs.filter (fun p => 0x12000000 ≤ p.1 && p.1 < 0x12800000 && p.1 % 128 == 0 &&
    (bitAt p.2.toNat 31 || bitAt p.2.toNat 30))).map (fun p => (p.1 - 0x12000000) / 128)

/-- R92, R233 and R255 for flow `f`, with the egress bound `close` of R73. -/
def State.flowEntryOk (s : State) (f close : Nat) : Bool :=
  let g := s.geometry f
  let kind := s.get (Reg.FLOW_SRC_KIND f)
  let cin := s.get (Reg.FLOW_CARR_IN f)
  let cout := s.get (Reg.FLOW_CARR_OUT f)
  let src := s.get (Reg.FLOW_SRC f)
  let enc := s.get (Reg.FLOW_ENC_OUT f)
  let ein := s.get (Reg.FLOW_ENC_IN f)
  let func := s.get (Reg.FLOW_FUNC f)
  let list := s.flag (Reg.FLOW_EG_LIST f)
  let ds := s.dests f
  let rtpOk := g.format ≤ 1 && g.perPkt == g.channels && 96 ≤ s.get (Reg.FLOW_RTP_PT f)
  1 ≤ g.channels && g.channels ≤ 64 && 1 ≤ g.perPkt && g.perPkt ≤ g.channels && g.format ≤ 3
    && s.get (Reg.FLOW_RATE f) ≤ 2 && s.get (Reg.FLOW_HOLD f) ≤ 2 && kind ≤ 2 && cin ≤ 4 && cout ≤ 4
    && (list || s.get (Reg.FLOW_EG_KIND f) ≤ 1)
    && (1 ≤ g.spp && g.samples % g.spp == 0) && g.packets ≤ 256
    && (cin != 3 || (rtpOk && ein == 0)) && (cout != 3 || (rtpOk && enc == 0))
    && (kind != 0 || (s.portExists src && cin != 4))
    && (!list || s.get (Reg.FLOW_EG_TARGET f) ≤ 8191)
    && (kind != 0 || (List.range g.packets).all (fun i => s.frameIn f src i ≤ s.get (Reg.PXC_PORT_CFG_MTU src)))
    && ds.all (fun d => d.rewrite < 32768 && s.flag (Reg.PROG_VALID d.rewrite) &&
        (d.toRing || (s.portExists d.target && cout != 4 && s.programOk f d.rewrite &&
          (List.range g.packets).all (fun i => s.frameOut f d.target d.rewrite i ≤ s.get (Reg.PXC_PORT_CFG_MTU d.target)))))
    && !(bitAt (s.guardMap f) 31 && s.get (Reg.FLOW_HOLD f) == 1)
    && ds.all (fun d => close ≤ d.offset && d.offset < s.period)
    && (kind == 2 || (s.openOf f < s.closeOf f && s.closeOf f ≤ s.period))
    && (ein == 0 || s.keyServes (s.get (Reg.FLOW_KEY_IN f)) func)
    && (enc == 0 || (s.keyServes (s.get (Reg.FLOW_KEY_OUT f)) func && !list &&
        s.liveFlows.all (fun x => x == f || s.get (Reg.FLOW_ENC_OUT x) == 0
          || s.get (Reg.FLOW_KEY_OUT x) != s.get (Reg.FLOW_KEY_OUT f)
          || s.get (Reg.FLOW_OUT_FLOW_ID x) != s.get (Reg.FLOW_OUT_FLOW_ID f))))

/-- The latest CLOSE among a point's terms; a term whose input is a pleach output contributes none (R176). -/
def State.pointClose (s : State) (p : Nat) : Nat :=
  (List.range (s.get (Reg.POINT_TERM_COUNT p))).foldl (fun a i =>
    let f := s.get (Reg.TERM_IN_FLOW (s.get (Reg.POINT_TERM_BASE p) + i))
    if s.get (Reg.FLOW_SRC_KIND f) = 2 then a else max a (s.closeOf f)) 0

/-- Points admitted or pending. -/
def State.livePoints (s : State) : List Nat :=
  (s.regs.filter (fun p => 0x13200000 ≤ p.1 && p.1 < 0x13240000 && p.1 % 32 == 0 &&
    (bitAt p.2.toNat 31 || bitAt p.2.toNat 30))).map (fun p => (p.1 - 0x13200000) / 32)

/-- R176 for point `p`. -/
def State.pointEntryOk (s : State) (p : Nat) : Bool :=
  let n := s.get (Reg.POINT_TERM_COUNT p)
  let base := s.get (Reg.POINT_TERM_BASE p)
  let o := s.get (Reg.POINT_OUT_FLOW p)
  1 ≤ n && n ≤ 64 && base + n ≤ 131072
    && s.livePoints.all (fun q => q == p || !termsMeet base n (s.get (Reg.POINT_TERM_BASE q)) (s.get (Reg.POINT_TERM_COUNT q)))
    && s.get (Reg.FLOW_SRC_KIND o) == 2 && s.get (Reg.FLOW_SRC o) == p
    && s.flowEntryOk o (s.pointClose p)
    && (List.range n).all (fun i => s.get (Reg.TERM_OUT_CH (base + i)) < s.get (Reg.FLOW_CHANNELS o))
where
  /-- two term ranges overlap -/
  termsMeet (a n b m : Nat) : Bool := a < b + m && b < a + n

/-- The units a flow uses are all in RUN (R57, R78). -/
def State.unitsUp (s : State) (f : Nat) : Bool :=
  let kind := s.get (Reg.FLOW_SRC_KIND f)
  let ds := s.dests f
  let netIn := kind == 0
  let netOut := ds.any (fun d => !d.toRing)
  let ring := kind == 1 || ds.any (·.toRing)
  let cipher := s.get (Reg.FLOW_ENC_IN f) != 0 || s.get (Reg.FLOW_ENC_OUT f) != 0
    || (netIn && s.macsecOn (s.get (Reg.FLOW_SRC f)))
    || ds.any (fun d => !d.toRing && (s.macsecOn d.target || s.get (Reg.PROG_ESP_SA d.rewrite) != 0))
  s.running .te && s.running .pcu && s.running .ftu && s.running .fpu && s.running .egu
    && (!(netIn || netOut) || (s.running .pxc && s.running .rtu))
    && (!cipher || s.running .cku) && (!ring || (s.running .ttu && s.running .qe))

/-- The named media rings belong to the flow's function and have MEDIA 1 and the right TYPE (R387). -/
def State.ringsOk (s : State) (f : Nat) : Bool :=
  let func := s.get (Reg.FLOW_FUNC f)
  let good := fun r type => r < 131072 && s.ringOwner r == some func && s.flag (Reg.RING_MEDIA r) && s.get (Reg.RING_TYPE r) == type
  (s.get (Reg.FLOW_SRC_KIND f) != 1 || good (s.get (Reg.FLOW_SRC f)) 0)
    && (s.dests f).all (fun d => !d.toRing || good d.target 1)

/-- The pools have room (R365). -/
def State.poolsOk (s : State) (l : List (Nat × Nat × Nat)) : Bool := l.all (fun x => s.poolRoom x.1 x.2.1 x.2.2)

/-- The longest frame of the port on the wire, in ns (R76). -/
def State.longestFrame (s : State) (p : Nat) : Nat :=
  ceilDiv ((s.get (Reg.PXC_PORT_CFG_MTU p) + 20) * 8) (s.portRate p)

/-- The drain check of port `p` with the bookings `l` (R76). -/
def State.drainOk (s : State) (p : Nat) (l : List (Nat × Nat × Nat)) : Bool :=
  let mine := l.filter (fun e => e.1 == p)
  mine.all (fun e => e.2.1 + sumOf (mine.filter (fun x => e.2.1 ≤ x.2.1)) (·.2.2) + s.longestFrame p ≤ s.period)

/-- The results of R81. -/
inductive AdmitResult where
  | ok (tick : Nat) (b : Booking)
  | fail (code row : Nat)
deriving DecidableEq, Repr

/-- The check of R78, to its first failure. FLOW_BUSY is for a pending change of the same flow or point; an output flow that is
pending with another point breaks R176. The drain check visits the egress ports in the order of the destination list (the spec gives
none: DESIGN CHOICE, log entry 100). -/
def State.admitCheckFor (s : State) (isPoint image : Bool) (id want : Nat) : AdmitResult :=
  let f := if isPoint then s.get (Reg.POINT_OUT_FLOW id) else id
  let admitted := if isPoint then s.flag (Reg.POINT_ADMITTED id) || s.flag (Reg.FLOW_ADMITTED f) else s.flag (Reg.FLOW_ADMITTED id)
  let entryOk := if isPoint then s.pointEntryOk id
    else s.get (Reg.FLOW_SRC_KIND id) != 2 && s.flowEntryOk id (s.closeOf id)
  if (s.changeOf isPoint id).isSome || (!isPoint && s.flag (Reg.FLOW_PENDING f)) then .fail 5 0
  else if admitted || s.flag (Reg.FLOW_PENDING f) || !entryOk then .fail 3 0
  else if !s.unitsUp f then .fail 7 0
  else if !s.ringsOk f then .fail 3 0
  else if !s.poolsOk (s.poolsOf isPoint image id f) then .fail 2 0
  else
    let b := s.bookingOf isPoint image id
    match ([4, 0, 1, 2, 3, 5, 6] ++ (List.range 32).map (8 + ·)).find? (fun r =>
        s.cap r < s.used r + Assoc.getD b.rows r 0) with
    | some r => .fail 1 r
    | none =>
      let all := b.egress ++ s.te.books.flatMap (·.egress)
      match (b.egress.map (·.1)).eraseDups.find? (fun p => !s.drainOk p all) with
      | some p => .fail 1 (8 + p)
      | none =>
        let earliest := s.tick + 2
        if want = 0 then .ok earliest b
        else if want < earliest then .fail 4 0
        else .ok want b

/-- The check of an admission that the manager asks for. -/
def State.admitCheck (s : State) (isPoint : Bool) (id want : Nat) : AdmitResult := s.admitCheckFor isPoint false id want

/-- The books change: each row's USED takes in an amount. -/
def State.bookRows (s : State) (l : List (Nat × Nat)) : State :=
  l.foldl (fun s p => s.put (Reg.TE_LEDGER_USED p.1) (s.used p.1 + p.2)) s

def State.unbookRows (s : State) (l : List (Nat × Nat)) : State :=
  l.foldl (fun s p => s.put (Reg.TE_LEDGER_USED p.1) (s.used p.1 - p.2)) s

/-- MEDIA_REFS of the lists and programs a flow names rise or fall by one (R165, R232). -/
def State.mediaRefs (s : State) (f : Nat) (up : Bool) : State :=
  let move := fun (n : Nat) => if up then n + 1 else n - 1
  let s := if s.flag (Reg.FLOW_EG_LIST f) then
      let r := Reg.LISTH_MEDIA_REFS (s.get (Reg.FLOW_EG_TARGET f))
      let s := s.put r (move (s.get r))
      s.wr (listHead (s.get (Reg.FLOW_EG_TARGET f)) + 4) (s.get r)
    else s
  ((s.dests f).map (·.rewrite)).eraseDups.foldl (fun s g =>
    if g = 0 then s else s.put (Reg.PROG_MEDIA_REFS g) (move (s.get (Reg.PROG_MEDIA_REFS g)))) s

/-- The bit of a flow or a point in its down bitmap (R323, R330). -/
def downFlowBit (f : Nat) : Field := ⟨0x09004000 + 4 * (f / 32), f % 32, f % 32⟩
def downPointBit (p : Nat) : Field := ⟨0x09006000 + 4 * (p / 32), p % 32, p % 32⟩

/-- A flow, or a point and its output flow, is set or cleared in the down bitmaps (R323). -/
def State.markDown (s : State) (isPoint : Bool) (id : Nat) (down : Bool) : State :=
  if isPoint then (s.put (downPointBit id) (bit down)).put (downFlowBit (s.get (Reg.POINT_OUT_FLOW id))) (bit down)
  else s.put (downFlowBit id) (bit down)

/-- schedule_add (R78): the bookings enter USED, PENDING is set, TE copies SPK and CLASS from the guard map (R186), and what is
placed is down no longer (R323). -/
def State.scheduleAdd (s : State) (isPoint : Bool) (id : Nat) (tick : Option Nat) (b : Booking) : State :=
  let f := if isPoint then s.get (Reg.POINT_OUT_FLOW id) else id
  let s := s.bookRows b.rows
  let s := s.mediaRefs f true
  let s := ((s.takePools b.pools).markDown isPoint id false).when isPoint (fun s => s.put (Reg.POINT_PENDING id) 1)
  let w := s.guardMap f
  let s := ((s.put (Reg.FLOW_SPK f) (bits w 31 1)).put (Reg.FLOW_CLASS f) (bits w 29 2)).put (Reg.FLOW_PENDING f) 1
  { s with te := { s.te with books := s.te.books ++ [b], changes := s.te.changes ++ [⟨isPoint, id, true, tick⟩] } }

/-- An admission command completes: RESULT and ROW, BUSY 0, ADMIT_DONE (R77, R81). -/
def State.admitDone (s : State) (code row id : Nat) : State :=
  let s := ((s.put Reg.TE_ADMIT_STATUS_RESULT code).put Reg.TE_ADMIT_STATUS_ROW row).put Reg.TE_ADMIT_STATUS_BUSY 0
  s.raise .te 7 [(8, code), (8, row), (16, id)]

/-- Only PF0 and SUP firmware, or a register frame it serves, can add or remove (R77). -/
def State.mayAdmit (s : State) (r : Requester) : Bool := s.mayWrite r Reg.TE_ADMIT_CMD_OP.key

/-- ADD_FLOW and ADD_POINT (R78, R176), carried to the standby when accepted (R82, R318). -/
def State.admitOne (s : State) (isPoint : Bool) (id : Nat) : State :=
  match s.admitCheck isPoint id (s.get Reg.TE_ADMIT_TICK) with
  | .fail code row => s.admitDone code row id
  | .ok t b =>
    (((s.scheduleAdd isPoint id (some t) b).put Reg.TE_ADMIT_TICK t).carry t (.admission isPoint id)).admitDone 0 0 id

/-- schedule the removal at tick `t` (R80). -/
def State.scheduleRemove (s : State) (isPoint : Bool) (id t : Nat) : State :=
  let f := if isPoint then s.get (Reg.POINT_OUT_FLOW id) else id
  let s := (s.put (Reg.FLOW_PENDING f) 1).when isPoint (fun s => s.put (Reg.POINT_PENDING id) 1)
  { s with te := { s.te with changes := s.te.changes ++ [⟨isPoint, id, false, some t⟩] } }

/-- REMOVE_FLOW and REMOVE_POINT (R80). -/
def State.removeCmd (s : State) (isPoint : Bool) (id : Nat) : State :=
  let want := s.get Reg.TE_ADMIT_TICK
  let earliest := s.tick + 2
  let t := if want = 0 then earliest else want
  let admitted := if isPoint then s.flag (Reg.POINT_ADMITTED id) else s.flag (Reg.FLOW_ADMITTED id)
  if (s.changeOf isPoint id).isSome || (!isPoint && s.flag (Reg.FLOW_PENDING id)) then s.admitDone 5 0 id
  else if !isPoint && s.get (Reg.FLOW_SRC_KIND id) = 2 then s.admitDone 3 0 id
  else if !admitted then s.admitDone 6 0 id
  else if t < earliest then s.admitDone 4 0 id
  else (((s.scheduleRemove isPoint id t).put Reg.TE_ADMIT_TICK t).carry t (.remove isPoint id)).admitDone 0 0 id

/-- ADD_FLOW (R78). -/
def execAddFlow (r : Requester) (id : Fin 65536) (s : State) : Host.Outcome State Fault Refusal :=
  ok (if s.mayAdmit r then s.localOnly (fun s => s.admitOne false id) else s)

/-- ADD_POINT (R176). -/
def execAddPoint (r : Requester) (id : Fin 8192) (s : State) : Host.Outcome State Fault Refusal :=
  ok (if s.mayAdmit r then s.localOnly (fun s => s.admitOne true id) else s)

/-- REMOVE_FLOW (R80). -/
def execRemoveFlow (r : Requester) (id : Fin 65536) (s : State) : Host.Outcome State Fault Refusal :=
  ok (if s.mayAdmit r then s.localOnly (fun s => s.removeCmd false id) else s)

/-- REMOVE_POINT (R80). -/
def execRemovePoint (r : Requester) (id : Fin 8192) (s : State) : Host.Outcome State Fault Refusal :=
  ok (if s.mayAdmit r then s.localOnly (fun s => s.removeCmd true id) else s)

/-- CHECK (R78): the steps of ADD_FLOW but its last two; TE_ADMIT_TICK is left as it was, since setting it is one of those two
(DEDUCED, log entry 100). -/
def execCheckFlow (r : Requester) (id : Fin 65536) (s : State) : Host.Outcome State Fault Refusal :=
  if s.mayAdmit r then
    match s.admitCheck false id (s.get Reg.TE_ADMIT_TICK) with
    | .fail code row => ok (s.admitDone code row id)
    | .ok _ _ => ok (s.admitDone 0 0 id)
  else ok s

/-- ADMISSION_EFFECTIVE (R79): at its effective tick an addition takes effect. Without a pending addition that is due,
nothing happens. -/
def execAdmissionEffective (isPoint : Bool) (id : Fin 65536) (s : State) : Host.Outcome State Fault Refusal :=
  match s.changeOf isPoint id with
  | some ⟨_, _, true, some t⟩ =>
    if s.tick < t then ok s
    else
      let f := if isPoint then s.get (Reg.POINT_OUT_FLOW id) else id.val
      let s := ((s.put (Reg.FLOW_ADMITTED f) 1).put (Reg.FLOW_PENDING f) 0).when isPoint
        (fun s => (s.put (Reg.POINT_ADMITTED id) 1).put (Reg.POINT_PENDING id) 0)
      ok ({ s with te := { s.te with
        changes := s.te.changes.filter (fun c => !(c.isPoint == isPoint && c.id == id.val))
        since := (isPoint, id.val, t) :: s.te.since } })
  | _ => ok s

/-- What a removal's release gives back (R80, R100): bookings, pools, references, and the flow's running state. -/
def State.release (s : State) (isPoint : Bool) (id : Nat) : State :=
  let f := if isPoint then s.get (Reg.POINT_OUT_FLOW id) else id
  let b := (s.te.books.find? (fun b => b.isPoint == isPoint && b.id == id)).getD ⟨isPoint, id, [], [], []⟩
  let s := (s.unbookRows b.rows).givePools b.pools
  let s := s.mediaRefs f false
  let s := s.when isPoint (fun s => (s.put (Reg.POINT_ADMITTED id) 0).put (Reg.POINT_PENDING id) 0)
  let s := ((s.put (Reg.FLOW_ADMITTED f) 0).put (Reg.FLOW_PENDING f) 0).put (Reg.FLOW_RX_EPOCH_VALID f) 0
  let s := (s.rt f).rx.foldl (fun s p => s.freeFrame p.handle) s
  let terms := (List.range (s.get (Reg.POINT_TERM_COUNT id))).map (fun i => s.get (Reg.POINT_TERM_BASE id) + i)
  let s := s.when isPoint (fun s => { s with fpu := { s.fpu with terms := s.fpu.terms.filter (fun x => !terms.contains x.1) } })
  let s : State := { s with egu := { s.egu with guard := Assoc.erase s.egu.guard f }
                            ftu := { s.ftu with shadowHeld := Assoc.erase s.ftu.shadowHeld f } }
  { s with te := { s.te with
    books := s.te.books.filter (fun b => !(b.isPoint == isPoint && b.id == id))
    changes := s.te.changes.filter (fun c => !(c.isPoint == isPoint && c.id == id))
    since := s.te.since.filter (fun x => !(x.1 == isPoint && x.2.1 == id)) } }.dropRt f

/-- REMOVAL_RELEASE (R80): at tick t + 2 the removed bookings return to the ledger. -/
def execRemovalRelease (isPoint : Bool) (id : Fin 65536) (s : State) : Host.Outcome State Fault Refusal :=
  match s.changeOf isPoint id with
  | some ⟨_, _, false, some t⟩ => if s.tick < t + 2 then ok s else ok (s.release isPoint id)
  | _ => ok s

/-- The packets that arrived for tick `t`: how many distinct indexes. -/
def FlowRt.count (r : FlowRt) (t : Nat) : Nat := ((r.rx.filter (fun p => p.tick == t)).map (·.index)).eraseDups.length

/-- Tick `t` of flow `f` is marked held and what arrived of it is discarded (R84). -/
def State.markHeld (s : State) (f t : Nat) : State :=
  let r := s.rt f
  let s := (r.rx.filter (fun p => p.tick == t)).foldl (fun s p => s.freeFrame p.handle) s
  s.setRt f { r with rx := r.rx.filter (fun p => p.tick != t), held := t :: r.held }

/-- The window of flow `f` closes in this tick (R84): a tick that lacks packets is held, and counted INCOMPLETE but for a
host flow in standalone mode (R344). -/
def State.closeWindow (s : State) (f : Nat) : State :=
  let r := s.rt f
  if s.mediaRun && s.admittedAt f s.tick && s.get (Reg.FLOW_SRC_KIND f) != 2 && !r.held.contains s.tick
      && r.count s.tick < (s.geometry f).packets then
    let gone := s.get (Reg.FLOW_SRC_KIND f) == 1 && !s.attached && r.count s.tick == 0
    let s := if gone then s else (s.bumpSat (Reg.FLOW_INCOMPLETE f)).bump Reg.TE_INCOMPLETE
    s.markHeld f s.tick
  else s

/-- WINDOW_CLOSE (R84). -/
def execWindowClose (flow : Fin 65536) (s : State) : Host.Outcome State Fault Refusal :=
  ok ((s.moment (s.closeOf flow.val)).closeWindow flow.val)

/-- MEDIA_OVERRUN (R85): media of an outbound tick that has ended without its transmission is discarded and counted, and
one event is raised for the tick. -/
def execMediaOverrun (s : State) : Host.Outcome State Fault Refusal :=
  let late := s.media.copies.filter (fun c => c.outTick < s.tick && !c.toRing)
  match late with
  | [] => ok s
  | c :: _ =>
    let s := { s with media := { s.media with copies := s.media.copies.filter (fun c => !(c.outTick < s.tick && !c.toRing)) } }
    let n := sumOf late (fun c => (s.geometry c.flow).packets - c.next)
    let s := late.foldl (fun s c => (c.handles.drop c.next).foldl (fun s h => s.releaseCopy h) s) s
    ok ((s.bumpBy Reg.TE_OVERRUN n).raise .te 9 [(48, c.outTick)])

/-- LEDGER_AUDIT (R437): USED of every row against the sum of the bookings; a row found wrong is recomputed, with a
BOOK_FIX record. `found` is what the audit reads in rows that a fault has changed. -/
def execLedgerAudit (found : List (Fin 40 × Word)) (s : State) : Host.Outcome State Fault Refusal :=
  let s := found.foldl (fun s p => s.put (Reg.TE_LEDGER_USED p.1) p.2.toNat) s
  let sum := fun r => sumOf s.te.books (fun b => Assoc.getD b.rows r 0)
  let bad := (List.range 40).filter (fun r => s.used r != sum r)
  let s' := bad.foldl (fun s r => s.put (Reg.TE_LEDGER_USED r) (sum r)) s
  let s' := s'.when (!bad.isEmpty) (fun s => (s.bump Reg.SUP_BOOK_FIX).hlog 17 1 (payload [(8, bad.headD 0)]))
  ok ((s'.bookAudit 7 1 (!bad.isEmpty) true).when (!bad.isEmpty) (fun s => s.bookRepaired 7))

end Sys2Proof.Machine
end

