-- ==== Sys2Proof/Machine/Versioned.lean ====
section
/-! DEFINITION. The versioned set of PCU, FTU and FPU (R116 to R132, R137 to R158, R164, R165): staging, commits,
prefixes, MAC entries, the replica and shadow compares; flow entries, points, terms and gains (R90, R91, R174, R175, R182). -/

namespace Sys2Proof.Machine

/-! ## Banks -/

/-- Keys of the committed defaults and of the committed RTP map, which no window shows. -/
def committedDefaults : Nat := 0x11D00000
def committedRtp : Nat := 0x11D10000

/-- The windows of the versioned set: staging base, length, committed bases (R131, R157, R184). -/
def bankWindows : List (Nat × Nat × List Nat) :=
  [(0x11000000, 0x100000, [0x11400000, 0x11500000, 0x11600000, 0x11700000]),
   (0x11100000, 0x400, [committedDefaults]),
   (0x11101000, 0x2000, [committedRtp]),
   (0x12800000, 0x100000, [0x12A00000, 0x12B00000, 0x12C00000, 0x12D00000]),
   (0x12900000, 0x4000, [0x12E00000, 0x12E04000, 0x12E08000, 0x12E0C000]),
   (0x13240000, 0x10000, [0x13250000]),
   (0x13400000, 0x400000, [0x13800000])]

/-- The listed words of a window, relative to its base. -/
def State.rangeWords (s : State) (base len : Nat) : List (Nat × Nat) :=
  (s.regs.filter (fun p => inRange p.1 base len)).map (fun p => (p.1 - base, p.2.toNat))

/-- Replace a window's words by others. -/
def State.putRange (s : State) (base len : Nat) (l : List (Nat × Nat)) : State :=
  l.foldl (fun s p => s.wr (base + p.1) p.2) (s.resetWords (fun k => inRange k base len))

/-- The word at `off` of the window at `base` belongs to a replication list that admitted flows name (R165). -/
def State.lockedWord (s : State) (base off : Nat) : Bool :=
  (base == 0x13240000 && s.get (Reg.LISTH_MEDIA_REFS (off / 8)) != 0) || (base == 0x13400000 && s.get (Reg.LISTH_MEDIA_REFS (off / 512)) != 0)

/-- The staging bank of one window becomes the committed bank, and the old committed bank the staging bank (R124). A list with
MEDIA_REFS keeps what is committed, in both banks: a change staged before the flow was admitted would else alter its destinations,
and the spec does not say what becomes of it (R165; DESIGN CHOICE, log entry 98). -/
def State.swapBank (s : State) (locked : Nat → Nat → Bool) (w : Nat × Nat × List Nat) : State :=
  let old := s.rangeWords (w.2.2.headD 0) w.2.1
  let staged := (s.rangeWords w.1 w.2.1).filter (fun x => !locked w.1 x.1) ++ old.filter (fun x => locked w.1 x.1)
  (w.2.2.foldl (fun s b => s.putRange b w.2.1 staged) s).putRange w.1 w.2.1 old

/-- The staging bank becomes equal to the committed bank (R125). -/
def State.syncBank (s : State) (w : Nat × Nat × List Nat) : State :=
  s.putRange w.1 w.2.1 (s.rangeWords (w.2.2.headD 0) w.2.1)

/-- A commit is between its write of COMMIT and COMMIT_DONE (R126). -/
def State.tblBusy (s : State) : Bool := s.flag Reg.PCU_TBL_CTL_BUSY

/-- A staged write or commit write that meets a commit: LOST, and WRITE_LOST once per commit (R126). -/
def State.writeLost (s : State) : State :=
  let s := s.put Reg.PCU_TBL_CTL_LOST 1
  if s.pcu.lostRaised then s else ({ s with pcu := { s.pcu with lostRaised := true } }).raise .pcu 3 []

/-- Only PF0 and SUP firmware reach PF0 BAR2 (R8, R123), where the owner of the window shows it (R30). -/
def State.reachesBar2 (s : State) (r : Requester) (k : Nat) : Bool := s.shows k && (r == .pf0 || r == .sup) && s.served r

/-- A staged write of the word at `k` under R123, R126 and R318. -/
def State.stage (s : State) (r : Requester) (k : Nat) (run : State → State) : State :=
  if !s.reachesBar2 r k then s
  else s.localOnly (fun s => if s.tblBusy then s.writeLost else run s)

/-- FUNC of a classifier entry's ACTION in a bank (R118). -/
def State.entryFunc (s : State) (base i : Nat) : Nat := s.rd (base + 128 * i + 120) % 4096

/-- The function that an entry of a bank counts against: PF0 for one that is the image's own (R364). -/
def State.entryOwner (s : State) (base i : Nat) : Nat :=
  if (if base = 0x11000000 then s.pcu.imageStaged else s.pcu.imageNow).contains i then 0 else s.entryFunc base i

/-- The valid staged entries that count against function `f`. -/
def State.stagedEntries (s : State) (base f : Nat) : List Nat :=
  (s.rangeWords base 0x100000).filterMap (fun p =>
    if p.1 % 128 == 124 && bitAt p.2 31 && s.entryOwner base (p.1 / 128) == f then some (p.1 / 128) else none)

/-- A staged entry that the manager writes is the image's own no longer (R364). -/
def State.disown (s : State) (i : Nat) : State := { s with pcu := { s.pcu with imageStaged := s.pcu.imageStaged.filter (· != i) } }

/-- USED of CLS_ENTRIES: entries valid in either bank, counted once (R364). -/
def State.recountClassifier (s : State) (f : Nat) : State :=
  let l := (s.stagedEntries 0x11000000 f ++ s.stagedEntries 0x11400000 f).eraseDups
  s.put (poolUsed f 3) l.length

/-- A word of staged entry `i` takes a value, and the functions that it counts against and counted against are charged (R364). -/
def State.stageEntry (s : State) (i k w : Nat) : State :=
  let f := s.entryOwner 0x11000000 i
  let s := (s.wr k w).disown i
  (s.recountClassifier f).recountClassifier (s.entryOwner 0x11000000 i)

/-- A word as the staging bank holds it: bits 17:12 of an ACTION word are reserved and read 0 (R118). -/
def stagedWord (k v : Nat) : Nat :=
  if (inRange k 0x11000000 0x100000 && k % 128 == 120) || (inRange k 0x11100000 0x400 && k % 8 == 0) then v / 2 ^ 18 * 2 ^ 18 + v % 2 ^ 12
  else v

/-- STAGED_WRITE (R123): a write to a PCU write window lands in the staging bank of all four pipelines. -/
def execStagedWrite (r : Requester) (off : Nat) (v : Word) (s : State) : Host.Outcome State Fault Refusal :=
  let k := 0x10000000 + off / 4 * 4
  if inRange k 0x11000000 0x100000 || inRange k 0x11100000 0x400 || inRange k 0x11101000 0x2000 then
    ok (s.stage r k (fun s =>
      let i := (k - 0x11000000) / 128
      let w := stagedWord k v.toNat
      let s := if inRange k 0x11000000 0x100000 then s.stageEntry i k w else s.wr k w
      s.carry 0 (.words [(k, BitVec.ofNat 32 w)])))
  else ok s

/-- FTU's change list takes an index, or is full (R138). -/
def State.noteChange (s : State) (table index : Nat) : Option State :=
  let c := table * 0x1000000 + index
  if s.ftu.changes.contains c then some (s.recordWritten table index)
  else if 4096 ≤ s.ftu.changes.length then none
  else some ((({ s with ftu := { s.ftu with changes := c :: s.ftu.changes } }).put Reg.FTU_CHANGES
    (s.ftu.changes.length + 1)).recordWritten table index)

/-- FTU_WINDOW_WRITE (R138, R157): a write to the next-hop or flood window is staged and recorded in the change list; one
that would overflow the list has no effect. -/
def execFtuWindowWrite (r : Requester) (off : Nat) (v : Word) (s : State) : Host.Outcome State Fault Refusal :=
  let k := 0x10000000 + off / 4 * 4
  let land := fun table index mask => ok (s.stage r k (fun s =>
    match s.noteChange table index with
    | none => s
    | some s => (s.wr k (mask v.toNat)).carry 0 (.words [(k, BitVec.ofNat 32 (mask v.toNat))])))
  if inRange k 0x12800000 0x100000 then
    let i := (k - 0x12800000) / 16
    match k % 16 / 4 with
    | 0 => land 2 i (fun v => bits v 28 4 * 2 ^ 28 + v % 2 ^ 17)
    | 1 => land 2 i (fun v => bits v 16 16 * 2 ^ 16 + v % 16)
    | _ => ok (s.stage r k id)
  else if inRange k 0x12900000 0x4000 then
    land 4 ((k - 0x12900000) / 4) (fun v => bits v 31 1 * 2 ^ 31 + v % 2 ^ 17)
  else ok s

/-- LIST_WRITE (R165, R184): a staged write to a replication list lands, or is discarded while MEDIA_REFS is not 0. -/
def execListWrite (r : Requester) (off : Nat) (v : Word) (s : State) : Host.Outcome State Fault Refusal :=
  let k := 0x10000000 + off / 4 * 4
  let head := inRange k 0x13240000 0x10000
  if head || inRange k 0x13400000 0x400000 then
    let l := if head then (k - 0x13240000) / 8 else (k - 0x13400000) / 512
    if !s.reachesBar2 r k then ok s
    else ok (s.localOnly (fun s =>
      if s.get (Reg.LISTH_MEDIA_REFS l) != 0 then s.bump Reg.FPU_LIST_LOCKED
      else if s.tblBusy then s.writeLost
      else
        let v' := if head then (if k % 8 = 0 then v.toNat % 128 else s.rd k)
          else if k % 8 = 0 then v.toNat else v.toNat / 65536 * 65536
        (s.wr k v').carry 0 (.words [(k, BitVec.ofNat 32 v')])))
  else ok s

/-! ## Commits (R124, R125) -/

/-- The functions with a valid staged entry, ascending. -/
def State.classifierFuncs (s : State) : List Nat :=
  (((s.rangeWords 0x11000000 0x100000).filterMap (fun p =>
    if p.1 % 128 == 124 && bitAt p.2 31 then some (s.entryOwner 0x11000000 (p.1 / 128)) else none)).eraseDups).mergeSort

/-- A commit is refused: RESULT, BUSY and COMMIT clear, COMMIT_REFUSED. -/
def State.commitRefused (s : State) (code f : Nat) : State :=
  let s := ((s.put Reg.PCU_TBL_STATUS_RESULT code).put Reg.PCU_TBL_STATUS_ERR_FUNC f).put Reg.PCU_TBL_CTL_BUSY 0
  (s.put Reg.PCU_TBL_CTL_COMMIT 0).raise .pcu 2 [(8, code), (12, f)]

/-- COMMIT (R124): the staged set is checked and the version change scheduled. -/
def execTblCommit (r : Requester) (s : State) : Host.Outcome State Fault Refusal :=
  if !s.mayWrite r Reg.PCU_TBL_CTL_COMMIT.key then ok s
  else ok (s.localOnly (fun s =>
      if s.tblBusy then s.writeLost
      else
        let s := { (s.put Reg.PCU_TBL_CTL_BUSY 1).put Reg.PCU_TBL_CTL_COMMIT 1 with pcu := { s.pcu with lostRaised := false } }
        match s.classifierFuncs.find? (fun f =>
            s.get (poolLimit f 3) < (s.stagedEntries 0x11000000 f).length) with
        | some f => s.commitRefused 1 f
        | none =>
          let want := s.get Reg.PCU_TBL_COMMIT_TICK
          let earliest := s.tick + 2
          if s.pairRole then
            if want != 0 && want < earliest then s.commitRefused 2 0
            else
              let t := if want = 0 then earliest else want
              ({ s with pcu := { s.pcu with commit := some (some t) } }).carry t .tblCommit
          else { s with pcu := { s.pcu with commit := some none } }))

/-- The per-bank slots of FTU change places (R137). -/
def FtuState.swap (f : FtuState) : FtuState :=
  { f with
    lpm := f.lpm.map (fun x => { x with stagedValid := x.validNow, stagedNh := x.nhNow, validNow := x.stagedValid, nhNow := x.stagedNh })
    macStatic := f.macStatic.map (fun x => { x with
      stagedValid := x.validNow, stagedKind := x.kindNow, stagedTarget := x.targetNow
      validNow := x.stagedValid, kindNow := x.stagedKind, targetNow := x.stagedTarget }) }

/-- COMMIT_EFFECTIVE (R124): at its cycle CUR increments in all four pipelines, and heads read the new bank. -/
def execTblCommitEffective (s : State) : Host.Outcome State Fault Refusal :=
  match s.pcu.commit with
  | none => ok s
  | some t =>
    if s.tick < t.getD 0 then ok s
    else
      let s := bankWindows.foldl (fun t w => t.swapBank s.lockedWord w) s
      let s := s.put Reg.PCU_TBL_VERSION (s.get Reg.PCU_TBL_VERSION + 1)
      let s := (s.put Reg.PCU_TBL_STATUS_RESULT 0).put Reg.PCU_TBL_STATUS_ERR_FUNC 0
      ok { s with ftu := s.ftu.swap, pcu := { s.pcu with
        commit := none, syncDue := true, imageStaged := s.pcu.imageNow, imageNow := s.pcu.imageStaged } }

/-- Slots valid in neither bank are free again after the synchronisation (R139). -/
def FtuState.sync (f : FtuState) : FtuState :=
  { f with
    changes := []
    lpm := (f.lpm.filter (·.validNow)).map (fun x => { x with stagedValid := x.validNow, stagedNh := x.nhNow })
    macStatic := (f.macStatic.filter (·.validNow)).map (fun x => { x with
      stagedValid := x.validNow, stagedKind := x.kindNow, stagedTarget := x.targetNow }) }

/-- The slot counts that FTU shows (R159). -/
def State.countSlots (s : State) : State :=
  let s := (s.put Reg.FTU_LPM_SLOTS s.ftu.lpm.length).put Reg.FTU_MAC_STATIC_SLOTS s.ftu.macStatic.length
  let s := s.put Reg.FTU_CHANGES s.ftu.changes.length
  (List.range 4).foldl (fun s p => s.put (Reg.FTU_MAC_LEARNED p) (s.ftu.macLearned.filter (·.pipe == p)).length) s

/-- COMMIT_SYNC (R125): the staged entries are copied into the old bank, BUSY clears and COMMIT_DONE is raised. -/
def execTblCommitSync (s : State) : Host.Outcome State Fault Refusal :=
  if !s.pcu.syncDue then ok s
  else
    let funcs := (List.range 4096).filter (fun f => s.get (poolUsed f 3) != 0)
    let s := bankWindows.foldl (fun s w => s.syncBank w) s
    let s := s.ftu.changes.foldl (fun s c => s.recordWritten (c / 0x1000000) (c % 0x1000000)) s
    let s := { s with ftu := s.ftu.sync, pcu := { s.pcu with syncDue := false, lostRaised := false, imageStaged := s.pcu.imageNow } }
    let s := funcs.foldl (fun s f => s.recountClassifier f) s
    let s := (s.countSlots.put Reg.PCU_TBL_CTL_BUSY 0).put Reg.PCU_TBL_CTL_COMMIT 0
    ok (s.raise .pcu 1 [(16, s.get Reg.PCU_TBL_VERSION)])

/-- Committed entry `i` of pipeline `p` (R131). -/
def committedEntry (p i : Nat) : Nat := 0x11400000 + 0x100000 * p + 128 * i

/-- The compare of the four committed copies of an entry (R132): one copy that differs from three is rewritten; a split makes the
entry invalid everywhere. -/
def State.replicaCompare (s : State) (entry : Nat) : State :=
  let copy := fun p => s.rdWords (committedEntry p entry) 32
  if (List.range 4).all (fun p => copy p == copy 0) then s
  else match (List.range 4).find? (fun p => 3 ≤ ((List.range 4).filter (fun q => copy q == copy p)).length) with
    | some p =>
      let s' := (List.range 4).foldl (fun s q => s.wrWords (committedEntry q entry) (copy p)) s
      (s'.bump Reg.PCU_REPLICA_FIX).raise .pcu 4 [(16, entry), (1, 0)]
    | none =>
      let clear := fun (s : State) k => s.wr k (clearBit (s.rd k) 31)
      let s := (List.range 4).foldl (fun s q => clear s (committedEntry q entry + 124)) s
      let f := s.entryOwner 0x11000000 entry
      let g := s.entryOwner 0x11400000 entry
      let s := ((clear s (0x11000000 + 128 * entry + 124)).recountClassifier f).recountClassifier g
      (s.raise .pcu 4 [(16, entry), (1, 1)]).fault 3 4

/-- REPLICA_COMPARE (R132). `found` is what a fault has left in words of the copies. -/
def execReplicaCompare (entry : Fin 8192) (found : List (Fin 4 × Fin 32 × Word)) (s : State) : Host.Outcome State Fault Refusal :=
  ok ((found.foldl (fun s x => s.wr (committedEntry x.1 entry + 4 * x.2.1.val) x.2.2.toNat) s).replicaCompare entry)

/-- The copy of pipeline `pipe` cannot be read, and so equals no other: the entry is repaired under R132 (R431). -/
def State.replicaRepair (s : State) (pipe entry : Nat) : State :=
  (s.wr (committedEntry pipe entry) (s.rd (committedEntry pipe entry) ^^^ 1)).replicaCompare entry

/-! ## CRC-32C -/

/-- Eight steps of the reflected CRC-32C register. -/
def crcByte : Nat → Nat → Nat
  | 0, c => c
  | n + 1, c => crcByte n (if c % 2 = 1 then (c / 2) ^^^ 0x82F63B78 else c / 2)

/-- CRC-32C of a byte string. -/
def crc32c (l : Bytes) : Nat :=
  (l.foldl (fun c b => crcByte 8 (c ^^^ b.toNat)) 0xFFFFFFFF) ^^^ 0xFFFFFFFF

/-- The two candidate buckets of a key (R141, R145). -/
def buckets (key : Bytes) (n : Nat) : List Nat := [crc32c key % n, crc32c (key ++ [0x5A]) % n]

/-- The candidate (bucket, way) slots of a key in the order an insert tries them. -/
def candidates (key : Bytes) (n : Nat) : List (Nat × Nat) :=
  ((buckets key n).flatMap (fun b => (List.range 8).map (fun w => (b, w)))).eraseDups

/-! ## Prefixes (R141, R142, R158) -/

def famBits (fam : Nat) : Nat := if fam = 0 then 32 else 128

/-- The 20-byte key of a prefix (R141). -/
def lpmKey (vrf fam len addr : Nat) : Bytes :=
  toBE 2 vrf ++ [BitVec.ofNat 8 fam, BitVec.ofNat 8 len] ++ toBE 16 addr

/-- The address with the bits beyond the length cleared. -/
def maskAddr (fam len a : Nat) : Nat := a / 2 ^ (famBits fam - len) * 2 ^ (famBits fam - len)

/-- The arguments of the LPM operation registers: FAM, VRF, LEN, address, NH. -/
structure LpmArg where
  fam : Nat
  vrf : Nat
  len : Nat
  addr : Nat
  nh : Nat
deriving DecidableEq, Repr

/-- The argument of an LPM operation. Of an IPv4 prefix the address is word 0: words 1 to 3 are not read, and are no BAD_ARG where
they are not zero (the spec does not say: DESIGN CHOICE, log entry 109). -/
def State.lpmArg (s : State) : LpmArg :=
  let w := s.rdWords 0x04001100 4
  let fam := s.get Reg.FTU_LPM_OP_KEY_FAM
  let a := w.getD 0 0 + (if fam = 0 then 0 else w.getD 1 0 * 2 ^ 32 + w.getD 2 0 * 2 ^ 64 + w.getD 3 0 * 2 ^ 96)
  ⟨fam, s.get Reg.FTU_LPM_OP_KEY_VRF, s.get Reg.FTU_LPM_OP_KEY_LEN, a, s.get Reg.FTU_LPM_OP_DATA⟩

def LpmArg.bad (a : LpmArg) : Bool := famBits a.fam < a.len || maskAddr a.fam a.len a.addr != a.addr

def lpmIs (x : LpmSlot) (a : LpmArg) : Bool :=
  x.fam == a.fam && x.vrf == a.vrf && x.len == a.len && x.addr == a.addr

def lpmIndex (x : LpmSlot) : Nat := x.bucket * 8 + x.way

/-- Write one prefix slot into the staging bank. -/
def State.putLpm (s : State) (x : LpmSlot) : State :=
  ({ s with ftu := { s.ftu with lpm := x :: s.ftu.lpm.filter (fun y => lpmIndex y != lpmIndex x) } }).countSlots

/-- INSERT's result and state (R141, R142): arguments, then the length filter, a slot, the change list (DESIGN CHOICE, log entry
13). -/
def State.lpmInsertOp (s : State) (a : LpmArg) : Nat × State :=
  if a.bad then (4, s)
  else
    let lens := ((s.ftu.lpm.filter (fun x => x.stagedValid && x.fam == a.fam && x.vrf == a.vrf)).map (·.len)).eraseDups
    if !lens.contains a.len && 32 ≤ lens.length then (2, s)
    else match s.ftu.lpm.find? (lpmIs · a) with
      | some x =>
        match s.noteChange 1 (lpmIndex x) with
        | none => (6, s)
        | some s => (0, s.putLpm { x with stagedValid := true, stagedNh := a.nh })
      | none =>
        match (candidates (lpmKey a.vrf a.fam a.len a.addr) 131072).find? (fun c =>
            !s.ftu.lpm.any (fun x => x.bucket == c.1 && x.way == c.2)) with
        | none => (1, s)
        | some c =>
          match s.noteChange 1 (c.1 * 8 + c.2) with
          | none => (6, s)
          | some s => (0, s.putLpm ⟨c.1, c.2, a.fam, a.vrf, a.len, a.addr, true, a.nh, false, 0⟩)

def State.lpmDeleteOp (s : State) (a : LpmArg) : Nat × State :=
  if a.bad then (4, s)
  else match s.ftu.lpm.find? (fun x => lpmIs x a && x.stagedValid) with
    | none => (3, s)
    | some x =>
      match s.noteChange 1 (lpmIndex x) with
      | none => (6, s)
      | some s =>
        if x.validNow then (0, s.putLpm { x with stagedValid := false })
        else (0, ({ s with ftu := { s.ftu with lpm := s.ftu.lpm.filter (fun y => lpmIndex y != lpmIndex x) } }).countSlots)

/-- An operation of the LPM block under R139 and R158: BUSY_COMMIT first, with LOST; WRITE_LOST is for window and commit writes
(R126). -/
def State.lpmOp (s : State) (run : State → Nat × State) : State :=
  if s.tblBusy then (s.put Reg.FTU_LPM_OP_STATUS_RESULT 5).put Reg.PCU_TBL_CTL_LOST 1
  else
    let (code, s) := run s
    s.put Reg.FTU_LPM_OP_STATUS_RESULT code


/-- LPM_INSERT (R141). -/
def execLpmInsert (r : Requester) (s : State) : Host.Outcome State Fault Refusal :=
  if !s.mayWrite r Reg.FTU_LPM_OP_CMD_OP.key then ok s
  else ok (s.localOnly (fun s => s.lpmOp (fun s =>
    let a := s.lpmArg
    let (c, s) := s.lpmInsertOp a
    (c, if c = 0 then s.carry 0 (.lpm true a.fam a.vrf a.len a.addr a.nh) else s))))

/-- LPM_DELETE (R158). -/
def execLpmDelete (r : Requester) (s : State) : Host.Outcome State Fault Refusal :=
  if !s.mayWrite r Reg.FTU_LPM_OP_CMD_OP.key then ok s
  else ok (s.localOnly (fun s => s.lpmOp (fun s =>
    let a := s.lpmArg
    let (c, s) := s.lpmDeleteOp a
    (c, if c = 0 then s.carry 0 (.lpm false a.fam a.vrf a.len a.addr a.nh) else s))))

/-- LPM_READ (R158): the staged next hop and the validity in both banks. Of a prefix that is in neither, NH of FTU_LPM_OP_DATA keeps
what was written to it: the spec gives no value (R158; DESIGN CHOICE, log entry 109). -/
def execLpmRead (r : Requester) (s : State) : Host.Outcome State Fault Refusal :=
  if !s.mayWrite r Reg.FTU_LPM_OP_CMD_OP.key then ok s
  else ok (s.lpmOp (fun s =>
    let a := s.lpmArg
    if a.bad then (4, s)
    else match s.ftu.lpm.find? (lpmIs · a) with
      | none => (0, (s.put Reg.FTU_LPM_OP_STATUS_STAGED_VALID 0).put Reg.FTU_LPM_OP_STATUS_COMMITTED_VALID 0)
      | some x => (0, ((s.put Reg.FTU_LPM_OP_STATUS_STAGED_VALID (bit x.stagedValid)).put
          Reg.FTU_LPM_OP_STATUS_COMMITTED_VALID (bit x.validNow)).put Reg.FTU_LPM_OP_DATA x.stagedNh)))

/-! ## MAC entries (R145 to R153) -/

/-- The 8-byte key of a MAC entry (R145). -/
def macKey (vlan mac : Nat) : Bytes := toBE 2 vlan ++ toBE 6 mac

def macCandidates (vlan mac : Nat) : List (Nat × Nat) := candidates (macKey vlan mac) 32768

/-- Age of a learned slot, and expiry (R152). -/
def State.macAge (s : State) (x : MacLearned) : Nat := (s.get Reg.FTU_AGE_NOW + 4096 - x.stamp) % 4096
def State.macExpired (s : State) (x : MacLearned) : Bool :=
  s.flag Reg.FTU_AGE_CFG_AGE_EN && s.get Reg.FTU_AGE_CFG_AGE_LIMIT ≤ s.macAge x

def MacLearned.at (x : MacLearned) (p : Nat) (c : Nat × Nat) : Bool := x.pipe == p && x.bucket == c.1 && x.way == c.2
def staticAt (x : MacStatic) (c : Nat × Nat) : Bool := x.bucket == c.1 && x.way == c.2

/-- A slot is free in pipeline `p`: no static slot, no learned slot. -/
def State.macFree (s : State) (p : Nat) (c : Nat × Nat) : Bool :=
  !s.ftu.macStatic.any (staticAt · c) && !s.ftu.macLearned.any (fun x => x.at p c)

/-- The oldest learned slot of a pipeline among candidates, the first in table order among equals. -/
def State.oldestLearned (s : State) (p : Nat) (cs : List (Nat × Nat)) : Option MacLearned :=
  (s.ftu.macLearned.filter (fun y => cs.any (fun c => y.at p c))).foldl (fun (b : Option MacLearned) y =>
    match b with
    | none => some y
    | some z => if s.macAge z < s.macAge y then some y else some z) none

/-- A static slot's place, the same in all four tables (R145): the first candidate free in all of them; else the oldest learned
candidate of the lowest pipeline that has none free; else, where each pipeline has some candidate free but none is free in all, the
first that holds no static slot. Its learned slots are evicted. R148 says neither whose oldest is taken where several pipelines are
full, nor which candidate in that last case (DESIGN CHOICE, log entry 99). -/
def State.staticPlace (s : State) (vlan mac : Nat) : Option (Nat × Nat) :=
  let cs := macCandidates vlan mac
  let open_ := cs.filter (fun c => !s.ftu.macStatic.any (staticAt · c))
  match cs.find? (fun c => (List.range 4).all (fun p => s.macFree p c)) with
  | some c => some c
  | none =>
    match (List.range 4).find? (fun p => !cs.any (s.macFree p)) with
    | some p => (s.oldestLearned p open_).map (fun y => (y.bucket, y.way))
    | none => open_.head?

def macIndex (x : MacStatic) : Nat := x.bucket * 8 + x.way

def State.putStatic (s : State) (x : MacStatic) : State :=
  ({ s with ftu := { s.ftu with
    macStatic := x :: s.ftu.macStatic.filter (fun y => macIndex y != macIndex x)
    macLearned := s.ftu.macLearned.filter (fun y => !(y.bucket == x.bucket && y.way == x.way)) } }).countSlots

/-- INSERT_STATIC's result and state (R148). -/
def State.insertStaticOp (s : State) (vlan mac kind target : Nat) : Nat × State :=
  if mac = 0 || bitAt mac 40 then (4, s)
  else match s.ftu.macStatic.find? (fun x => x.vlan == vlan && x.mac == mac) with
    | some x =>
      match s.noteChange 3 (macIndex x) with
      | none => (6, s)
      | some s => (0, s.putStatic { x with stagedValid := true, stagedKind := kind, stagedTarget := target })
    | none =>
      let cleared := { s with ftu := { s.ftu with macLearned := s.ftu.macLearned.filter (fun x => !(x.vlan == vlan && x.mac == mac)) } }
      match cleared.staticPlace vlan mac with
      | none => (1, s)
      | some c =>
        match cleared.noteChange 3 (c.1 * 8 + c.2) with
        | none => (6, s)
        | some s => (0, s.putStatic ⟨c.1, c.2, vlan, mac, true, kind, target, false, 0, 0⟩)

def State.deleteStaticOp (s : State) (vlan mac : Nat) : Nat × State :=
  match s.ftu.macStatic.find? (fun x => x.vlan == vlan && x.mac == mac && x.stagedValid) with
  | none => (3, s)
  | some x =>
    match s.noteChange 3 (macIndex x) with
    | none => (6, s)
    | some s =>
      if x.validNow then (0, s.putStatic { x with stagedValid := false })
      else (0, ({ s with ftu := { s.ftu with macStatic := s.ftu.macStatic.filter (fun y => macIndex y != macIndex x) } }).countSlots)

/-- A write to the MAC block while its BUSY is 1 is discarded; during a commit it is refused (R139, R158). -/
def State.macOp (s : State) (run : State → Nat × State) : State :=
  if s.flag Reg.FTU_MAC_OP_STATUS_BUSY then s
  else if s.tblBusy then (s.put Reg.FTU_MAC_OP_STATUS_RESULT 5).put Reg.PCU_TBL_CTL_LOST 1
  else
    let (code, s) := run s
    s.put Reg.FTU_MAC_OP_STATUS_RESULT code

/-- INSERT_STATIC (R148). -/
def execInsertStatic (r : Requester) (s : State) : Host.Outcome State Fault Refusal :=
  if !s.mayWrite r Reg.FTU_MAC_OP_CMD_OP.key then ok s
  else ok (s.localOnly (fun s => s.macOp (fun s =>
    let vlan := s.get Reg.FTU_MAC_OP_KEY_VLAN
    let mac := s.get Reg.FTU_MAC_OP_KEY_MAC
    let kind := s.get Reg.FTU_MAC_OP_DATA_KIND
    let target := s.get Reg.FTU_MAC_OP_DATA_TARGET
    let (c, s) := s.insertStaticOp vlan mac kind target
    (c, if c = 0 then s.carry 0 (.macStatic true vlan mac kind target) else s))))

/-- DELETE_STATIC (R148). -/
def execDeleteStatic (r : Requester) (s : State) : Host.Outcome State Fault Refusal :=
  if !s.mayWrite r Reg.FTU_MAC_OP_CMD_OP.key then ok s
  else ok (s.localOnly (fun s => s.macOp (fun s =>
    let vlan := s.get Reg.FTU_MAC_OP_KEY_VLAN
    let mac := s.get Reg.FTU_MAC_OP_KEY_MAC
    let (c, s) := s.deleteStaticOp vlan mac
    (c, if c = 0 then s.carry 0 (.macStatic false vlan mac 0 0) else s))))

/-- What a READ of the MAC table shows of the entry it finds. -/
def State.macShow (s : State) (entry age kind target : Nat) : State :=
  (((s.put Reg.FTU_MAC_OP_STATUS_ENTRY entry).put Reg.FTU_MAC_OP_STATUS_AGE age).put
    Reg.FTU_MAC_OP_DATA_KIND kind).put Reg.FTU_MAC_OP_DATA_TARGET target

/-- MAC_READ (R158, R159): the slot of a key in one pipeline. -/
def execMacRead (r : Requester) (pipe : Fin 4) (s : State) : Host.Outcome State Fault Refusal :=
  if !s.mayWrite r Reg.FTU_MAC_OP_CMD_OP.key then ok s
  else ok (s.macOp (fun s =>
    let vlan := s.get Reg.FTU_MAC_OP_KEY_VLAN
    let mac := s.get Reg.FTU_MAC_OP_KEY_MAC
    match s.ftu.macStatic.find? (fun x => x.vlan == vlan && x.mac == mac) with
    | some x => (0, s.macShow (if x.validNow then 3 else 2) 0 x.stagedKind x.stagedTarget)
    | none =>
      match s.ftu.macLearned.find? (fun x => x.pipe == pipe.val && x.vlan == vlan && x.mac == mac) with
      | some x => (0, s.macShow 1 (s.macAge x) 0 x.port)
      | none => (0, s.macShow 0 0 0 0)))

/-- Remove the learned slots that a flush selects (R150). -/
def State.flushLearned (s : State) (vlan port : Option Nat) : State :=
  ({ s with ftu := { s.ftu with macLearned := s.ftu.macLearned.filter (fun x =>
    !((match vlan with | some v => x.vlan == v | none => true) && (match port with | some p => x.port == p | none => true))) } }).countSlots

/-- The manager's flush starts. -/
def State.startFlush (s : State) (vlan port : Option Nat) : State :=
  let s := s.flushLearned vlan port
  { s with ftu := { s.ftu with flushing := some none, flushHeld := none } }

/-- FLUSH (R150): the manager's flush visits every slot as it starts (DESIGN CHOICE, log entry 14) and runs until MAC_FLUSH_DONE.
One that meets a running port flush waits for its end, with BUSY set. -/
def execMacFlush (r : Requester) (byVlan byPort : Bool) (port : Fin 32) (s : State) : Host.Outcome State Fault Refusal :=
  if !s.mayWrite r Reg.FTU_MAC_OP_CMD_OP.key || s.flag Reg.FTU_MAC_OP_STATUS_BUSY then ok s
  else if s.tblBusy then ok ((s.put Reg.FTU_MAC_OP_STATUS_RESULT 5).put Reg.PCU_TBL_CTL_LOST 1)
  else
    let vlan := if byVlan then some (s.get Reg.FTU_MAC_OP_KEY_VLAN) else none
    let port := if byPort then some port.val else none
    let s := s.put Reg.FTU_MAC_OP_STATUS_BUSY 1
    ok (if s.ftu.flushing.isSome then { s with ftu := { s.ftu with flushHeld := some (vlan, port) } } else s.startFlush vlan port)

/-- MAC_FLUSH_DONE (R150). -/
def execMacFlushDone (s : State) : Host.Outcome State Fault Refusal :=
  match s.ftu.flushing with
  | some none =>
    let s := { s with ftu := { s.ftu with flushing := none } }
    ok (((s.put Reg.FTU_MAC_OP_STATUS_BUSY 0).put Reg.FTU_MAC_OP_STATUS_RESULT 0).raise .ftu 4 [])
  | _ => ok s

/-- AUTO_FLUSH_START (R150): the next queued port flush starts between manager operations. -/
def execAutoFlushStart (s : State) : Host.Outcome State Fault Refusal :=
  match s.ftu.flushing, s.ftu.flushQueue with
  | none, p :: rest =>
    let s := s.flushLearned none (some p)
    ok { s with ftu := { s.ftu with flushing := some (some p), flushQueue := rest } }
  | _, _ => ok s

/-- PORT_FLUSH (R150): the automatic flush completes, and a manager's flush that waited for it starts. -/
def execPortFlush (s : State) : Host.Outcome State Fault Refusal :=
  match s.ftu.flushing with
  | some (some p) =>
    let s := ({ s with ftu := { s.ftu with flushing := none } } : State).raise .ftu 5 [(8, p)]
    ok (match s.ftu.flushHeld with | some (vlan, port) => s.startFlush vlan port | none => s)
  | _ => ok s

/-- AGE_CLOCK_STEP (R152, R153): the age clock advances, and at each half-wrap a sweeper pass removes expired slots. -/
def execAgeClockStep (s : State) : Host.Outcome State Fault Refusal :=
  if !s.powered then ok s
  else
  let now := (s.get Reg.FTU_AGE_NOW + 1) % 4096
  let s := s.put Reg.FTU_AGE_NOW now
  if now % 2048 = 0 then
    let gone := (s.ftu.macLearned.filter s.macExpired).length
    let keep := s.ftu.macLearned.filter (fun x => !s.macExpired x)
    ok (({ s with ftu := { s.ftu with macLearned := keep } }).countSlots.bumpBy Reg.FTU_AGED gone)
  else ok s

/-- Escalation makes a versioned record invalid in both banks (R155). -/
def State.invalidate (s : State) (table index : Nat) : State :=
  match table with
  | 1 => ({ s with ftu := { s.ftu with lpm := s.ftu.lpm.filter (fun x => lpmIndex x != index) } }).countSlots
  | 2 => [0x12800000, 0x12A00000, 0x12B00000, 0x12C00000,
      0x12D00000].foldl (fun s b => s.wr (b + 16 * index) (clearBit (s.rd (b + 16 * index)) 31)) s
  | 3 => ({ s with ftu := { s.ftu with macStatic := s.ftu.macStatic.filter (fun x => macIndex x != index) } }).countSlots
  | 4 => [0x12900000, 0x12E00000, 0x12E04000, 0x12E08000,
      0x12E0C000].foldl (fun s b => s.wr (b + 4 * index) (clearBit (s.rd (b + 4 * index)) 31)) s
  -- a flow that is held already stays so from its first tick on
  | _ => if (Assoc.get? s.ftu.shadowHeld index).isSome then s
    else { s with ftu := { s.ftu with shadowHeld := Assoc.set s.ftu.shadowHeld index (s.tick + 1) } }

/-! ### The records that the shadow holds (R154) -/

/-- Both banks of a record in the order of the hardware's banks, of which a version v reads v mod 2 (R137). -/
def State.bankOrder (s : State) (staged now : List Nat) : List Nat :=
  if s.get Reg.PCU_TBL_VERSION % 2 = 0 then now ++ staged else staged ++ now

/-- The words of a record as written (R154): words 0 to 10 of a flow entry; of a versioned record its key and both banks, none where
the slot is free. The spec does not lay the shadow out (DESIGN CHOICE, log entry 101). -/
def State.recordWords (s : State) (table index : Nat) : List Nat :=
  match table with
  | 0 => s.rdWords (0x12000000 + 128 * index) 11
  | 1 => match s.ftu.lpm.find? (fun x => lpmIndex x == index) with
    | some x => [x.fam, x.vrf, x.len, x.addr] ++ s.bankOrder [bit x.stagedValid, x.stagedNh] [bit x.validNow, x.nhNow]
    | none => []
  | 2 => s.bankOrder (s.rdWords (0x12800000 + 16 * index) 2) (s.rdWords (0x12A00000 + 16 * index) 2)
  | 3 => match s.ftu.macStatic.find? (fun x => macIndex x == index) with
    | some x => [x.vlan, x.mac] ++ s.bankOrder [bit x.stagedValid, x.stagedKind, x.stagedTarget] [bit x.validNow, x.kindNow, x.targetNow]
    | none => []
  | _ => s.bankOrder [s.rd (0x12900000 + 4 * index)] [s.rd (0x12E00000 + 4 * index)]

/-- The CRC-32C of a shadow record's words, each taken as 16 bytes (DESIGN CHOICE, log entry 101). -/
def recordCrc (l : List Nat) : Nat := crc32c (l.flatMap (toLE 16))

/-- A pipeline's copy of a record, and the shadow record with its CRC-32C. -/
def State.copyOf (s : State) (table index pipe : Nat) : List Nat := (s.badCopy table index pipe).getD (s.recordWords table index)
def State.shadowOf (s : State) (table index : Nat) : List Nat × Nat :=
  match Assoc.get? s.ftu.shadows (table * 0x1000000 + index) with
  | some x => x
  | none => (s.recordWords table index, recordCrc (s.recordWords table index))

/-- A pipeline's copy takes words. -/
def State.setCopy (s : State) (table index pipe : Nat) (l : List Nat) : State :=
  let k := table * 0x1000000 + index
  let rest := s.ftu.copies.filter (fun x => !(x.1 == k && x.2.1 == pipe))
  { s with ftu := { s.ftu with copies := if l = s.recordWords table index then rest else (k, pipe, l) :: rest } }

/-- What a fault has left stands in the copies and the shadow. -/
def State.takeFault (s : State) (table index : Nat) (found : RecordFault) : State :=
  let s := found.copies.foldl (fun s x => s.setCopy table index x.1 x.2) s
  match found.shadow with
  | some x => { s with ftu := { s.ftu with shadows := Assoc.set s.ftu.shadows (table * 0x1000000 + index) x } }
  | none => s

/-- The bank of `l`, a record's words behind its `n` words of key, that is staged or in force. -/
def State.bankOf (s : State) (l : List Nat) (n : Nat) (staged : Bool) : List Nat :=
  let b := l.drop n
  let h := b.length / 2
  if (s.get Reg.PCU_TBL_VERSION % 2 = 0) = (staged = true) then b.drop h else b.take h

/-- A record becomes `l`: what was written is as the good shadow record, or as three copies that agree, have it. -/
def State.setRecord (s : State) (table index : Nat) (l : List Nat) : State :=
  if l = s.recordWords table index then s
  else match table with
  | 0 => s.wrWords (0x12000000 + 128 * index) (l.take 11)
  | 1 =>
    let rest := s.ftu.lpm.filter (fun x => lpmIndex x != index)
    let a := s.bankOf l 4 true
    let b := s.bankOf l 4 false
    let x : LpmSlot := ⟨index / 8, index % 8, l.getD 0 0, l.getD 1 0, l.getD 2 0, l.getD 3 0, a.getD 0 0 == 1, a.getD 1 0,
        b.getD 0 0 == 1, b.getD 1 0⟩
    ({ s with ftu := { s.ftu with lpm := if l.isEmpty then rest else x :: rest } } : State).countSlots
  | 2 => [0x12A00000, 0x12B00000, 0x12C00000, 0x12D00000].foldl (fun s w => s.wrWords (w + 16 * index) ((s.bankOf l 0 false).take 2))
      (s.wrWords (0x12800000 + 16 * index) ((s.bankOf l 0 true).take 2))
  | 3 =>
    let rest := s.ftu.macStatic.filter (fun x => macIndex x != index)
    let a := s.bankOf l 2 true
    let b := s.bankOf l 2 false
    let x : MacStatic := ⟨index / 8, index % 8, l.getD 0 0, l.getD 1 0, a.getD 0 0 == 1, a.getD 1 0, a.getD 2 0,
      b.getD 0 0 == 1, b.getD 1 0, b.getD 2 0⟩
    ({ s with ftu := { s.ftu with macStatic := if l.isEmpty then rest else x :: rest } } : State).countSlots
  | _ => [0x12E00000, 0x12E04000, 0x12E08000, 0x12E0C000].foldl (fun s w => s.wrWords (w + 4 * index) ((s.bankOf l 0 false).take 1))
      (s.wrWords (0x12900000 + 4 * index) ((s.bankOf l 0 true).take 1))

/-- The compare of a record's four copies with its shadow record (R155): copies that differ from a good one are rewritten; a bad or
poisoned one is rewritten from three copies that agree; otherwise the record escalates. The payload names the first pipeline whose
copy differs from the record, 0 where none does (DESIGN CHOICE, log entry 101). -/
def State.compareRecord (s : State) (table index : Nat) (poisoned : Bool) : State :=
  -- poisoned data is an uncorrectable error of HBM (R431)
  let s := s.when poisoned (fun s => s.eccUncorr 4 12)
  let (filled, s) := s.shadowRead
  let (w, crc) := s.shadowOf table index
  let copy := fun p => s.copyOf table index p
  let good := filled && !poisoned && crc == recordCrc w
  let major := (List.range 4).find? (fun p => 3 ≤ ((List.range 4).filter (fun q => copy q == copy p)).length)
  let base := if good then w else match major with | some p => copy p | none => s.recordWords table index
  let differing := (List.range 4).filter (fun p => copy p != base)
  let note := fun (s : State) esc => s.raise .ftu 1 [(8, table), (32, index), (8, differing.headD 0), (1, esc)]
  if good then
    if differing.isEmpty then s
    else note (((s.setRecord table index w).recordWritten table index).bumpBy Reg.FTU_SHADOW_FIX differing.length) 0
  else match major with
    | some p =>
      let s := (s.setRecord table index (copy p)).recordWritten table index
      note (differing.foldl (fun s q => s.setCopy table index q (copy q)) s) 0
    | none =>
      let s := s.invalidate table index
      (note (if table = 0 then s else s.recordWritten table index) 1).fault 4 5

/-- SHADOW_COMPARE (R155): one record, and what faults have left of it. `poisoned` says that HBM reads its shadow record as poisoned
data. -/
def execShadowCompare (table : Fin 5) (index : Nat) (poisoned : Bool) (found : RecordFault) (s : State) : Host.Outcome State Fault Refusal :=
  ok (s.when s.powered (fun s => (s.takeFault table index found).compareRecord table index poisoned))

/-- The copy of pipeline `pipe` of a record cannot be read, and so equals no other: the record is repaired under R155 (R156, R431). -/
def State.recordRepair (s : State) (pipe table index : Nat) (poisoned : Bool) : State :=
  let s := if (s.badCopy table index pipe).isSome then s else s.setCopy table index pipe [0, 0, 0]
  s.compareRecord table index poisoned

/-- A lookup in pipeline `pipe` reads an uncorrectable error (R136, R156): its head is counted in FTU_ECC_DROP, and FTU repairs the
record at once, a learned slot by removal. -/
def State.eccDrop (s : State) (pipe table index : Nat) (found : RecordFault) (poisoned : Bool) : State :=
  let s := (s.eccUncorr 4 2).bump Reg.FTU_ECC_DROP
  if 5 ≤ table then
    ({ s with ftu := { s.ftu with macLearned := s.ftu.macLearned.filter (fun y => !y.at pipe (index / 8, index % 8)) } } : State).countSlots
  else (s.takeFault table index found).recordRepair pipe table index poisoned

/-- No fault but the one that is read. -/
def noFault : RecordFault := ⟨[], none⟩

/-! ## Flow entries, points, terms, gains -/

/-- The bits of configuration word `w` of a flow entry that a write reaches (R90). -/
def flowMask : Nat → Nat
  | 0 => 0x03FFCFFF | 1 => 0xFFFFFFFF | 2 => 0xE001FFFF | 3 => 0x1FFF1FFF | 4 => 0xFFFF0000 | 5 => 0x0001FFFF
  | 6 => 0xFFFFFFFF | 7 => 0xFFFFFFFF | 8 => 0xFFFFFFFF | 9 => 0x8000007F | 10 => 0xFFFFFFFF | _ => 0

/-- A masked write: the bits of the mask from `v`, the others kept. -/
def maskWrite (old v mask : Nat) : Nat := (old - (old &&& mask)) + (v &&& mask)

/-- A write of word `i` of flow entry `f` has reached all four copies and the shadow (R135): of a copy that differs, the other words
still do. -/
def State.flowWritten (s : State) (f i w : Nat) : State :=
  let now := s.recordWords 0 f
  let copies := (s.ftu.copies.map (fun x => if x.1 = f then (x.1, x.2.1, x.2.2.set i w) else x)).filter (fun x => !(x.1 = f && x.2.2 = now))
  ({ s with ftu := { s.ftu with copies := copies, shadows := Assoc.erase s.ftu.shadows f } } : State).shadowWrite

/-- FLOW_ENTRY_WRITE (R91): words 0 to 10 only while ADMITTED and PENDING are 0; any write of a 32-bit counter clears it;
other words are discarded. -/
def execFlowEntryWrite (r : Requester) (flow : Fin 65536) (word : Fin 32) (v : Word) (s : State) : Host.Outcome State Fault Refusal :=
  let f := flow.val
  let k := 0x12000000 + 128 * f + 4 * word.val
  if !s.reachesBar2 r k then ok s
  else if word.val ≤ 10 then
    ok (s.localOnly (fun s =>
      if s.flag (Reg.FLOW_ADMITTED f) || s.flag (Reg.FLOW_PENDING f) then s
      else
        let w := maskWrite (s.rd k) v.toNat (flowMask word)
        ((s.wr k w).flowWritten f word w).carry 0 (.words [(k, BitVec.ofNat 32 w)])))
  else if 20 ≤ word.val && word.val ≤ 28 then ok (s.wr k 0)
  else ok s

/-- Configuration bits of a point entry (R174). -/
def pointMask : Nat → Nat
  | 0 => 0xFFF | 1 => 0x1FFFFFFF | 2 => 0x7F01FFFF | _ => 0

/-- POINT_WRITE (R174): words 0 to 2 only while ADMITTED and PENDING are 0; a counter write clears it. -/
def execPointWrite (r : Requester) (point : Fin 8192) (word : Fin 8) (v : Word) (s : State) : Host.Outcome State Fault Refusal :=
  let p := point.val
  let k := 0x13200000 + 32 * p + 4 * word.val
  if !s.reachesBar2 r k then ok s
  else if word.val ≤ 2 then
    ok (s.localOnly (fun s =>
      if s.flag (Reg.POINT_ADMITTED p) || s.flag (Reg.POINT_PENDING p) then s
      else
        let w := maskWrite (s.rd k) v.toNat (pointMask word)
        (s.wr k w).carry 0 (.words [(k, BitVec.ofNat 32 w)])))
  else if word.val ≤ 6 then ok (s.wr k 0)
  else ok s

/-- The admitted or pending point whose term range holds term `i`. -/
def State.pointOfTerm (s : State) (i : Nat) : Option Nat :=
  s.livePoints.find? (fun p =>
    s.get (Reg.POINT_TERM_BASE p) ≤ i && i < s.get (Reg.POINT_TERM_BASE p) + s.get (Reg.POINT_TERM_COUNT p))

/-- TERM_WRITE (R175): word 0 of a term record, under the write rule of its point. -/
def execTermWrite (r : Requester) (term : Fin 131072) (v : Word) (s : State) : Host.Outcome State Fault Refusal :=
  let k := 0x13000000 + 16 * term.val
  if !s.reachesBar2 r k then ok s
  else ok (s.localOnly (fun s =>
    if (s.pointOfTerm term).isSome then s
    else
      let w := maskWrite (s.rd k) v.toNat 0x3F3FFFFF
      (s.wr k w).carry 0 (.words [(k, BitVec.ofNat 32 w)])))

/-- The point's removal has passed its last sum (R182): requests are discarded until the release. -/
def State.gainClosed (s : State) (p : Nat) : Bool :=
  match s.changeOf true p with
  | some ⟨_, _, false, some t⟩ => t ≤ s.tick
  | _ => false

/-- A requested change: PEND and PEND_GAIN, with the ramp tick kept where one is pending (R182). -/
def State.requestGain (s : State) (i gain ramp : Nat) : State :=
  let pend := s.flag (Reg.TERM_PEND i)
  let s := (s.put (Reg.TERM_PEND i) 1).put (Reg.TERM_PEND_GAIN i) gain
  if pend then s else { s with fpu := { s.fpu with gains := Assoc.set s.fpu.gains i ramp } }

/-- An accepted request, carried with the ramp tick that it has (R182, R318). -/
def State.acceptGain (s : State) (i g : Nat) : State :=
  let s := s.requestGain i g (s.tick + 2)
  let t := Assoc.getD s.fpu.gains i (s.tick + 2)
  s.carry t (.gain i (BitVec.ofNat 32 g))

/-- GAIN_REQUEST (R182): PF0's write of GAIN sets it at once while its point is not admitted, else requests a change. -/
def execGainRequest (r : Requester) (term : Fin 131072) (v : Word) (s : State) : Host.Outcome State Fault Refusal :=
  let i := term.val
  let g := v.toNat % 2 ^ 25
  if !s.reachesBar2 r 0x13000000 then ok s
  else ok (s.localOnly (fun s =>
    match s.pointOfTerm i with
    | some p =>
      if s.flag (Reg.POINT_ADMITTED p) then
        if s.gainClosed p then s else s.acceptGain i g
      else (s.put (Reg.TERM_GAIN i) g).carry 0 (.words [(0x13000004 + 16 * i, BitVec.ofNat 32 g)])
    | none => (s.put (Reg.TERM_GAIN i) g).carry 0 (.words [(0x13000004 + 16 * i, BitVec.ofNat 32 g)])))

/-- VF_GAIN_REQUEST (R182): accepted only for a term of an admitted point whose FUNC is the VF, else counted. -/
def execVfGainRequest (v : Fin 4096) (term : Fin 131072) (gain : Word) (s : State) : Host.Outcome State Fault Refusal :=
  let i := term.val
  let refuse := fun (s : State) => s.bumpSat (Reg.FPU_VF_GAIN_REFUSED v)
  if !s.served (.vf v) || !s.shows 0x20000000 || !s.shows 0x06001000 then ok s
  else match s.pointOfTerm i with
  | some p =>
    if s.flag (Reg.POINT_ADMITTED p) && s.get (Reg.POINT_FUNC p) == v.val then
      ok (s.localOnly (fun s =>
        if s.gainClosed p then refuse s
        else
          let g := gain.toNat % 2 ^ 25
          s.acceptGain i g))
    else ok (refuse s)
  | none => ok (refuse s)

end Sys2Proof.Machine
end

