-- ==== Sys2Proof/Machine/HedgePath.lean ====
section
/-! DEFINITION. What every outbound media packet meets of HGC and of the recorder: the epoch, the digest, the backlog and
the recorder's copy (R315, R320, R416). -/

namespace Sys2Proof.Machine

/-- The epoch of outbound packets: 0 but in role PAIR (R100, R296). -/
def State.sendEpoch (s : State) : Nat := if s.pairRole then s.get Reg.HGC_STATE_EPOCH else 0

/-- A unit in FALLBACK that transmits takes its epoch, one above the last, and records it (R328). -/
def State.takeFallbackEpoch (s : State) : State :=
  if s.hedgeState = 6 && s.mayTransmit && !s.hgc.fallbackOn then
    let s := s.put Reg.HGC_STATE_EPOCH ((s.get Reg.HGC_EPOCH_AON_LAST_EPOCH + 1) % 256)
    { s.keepEpoch with hgc := { s.hgc with fallbackOn := true } }
  else s

/-- The digest record of flow `f` in outbound tick `m` begins as the tick is formed, with HELD_IN (R320). -/
def State.noteDigest (s : State) (f m : Nat) (heldIn : Bool) : State :=
  if s.pairRole then
    { s with hgc := { s.hgc with
      digests := ⟨f, m, heldIn, false, false, 0xFFFFFFFF⟩ :: s.hgc.digests.filter (fun d => !(d.flow == f && d.tick == m)) } }
  else s

/-- The unit's digest records of tick `n`, OVR_EDGE among their marks (R320). -/
def State.digestsOf (s : State) (n : Nat) : List Digest :=
  (s.hgc.digests.filter (·.tick == n)).map (fun d => { d with edge := s.egu.ovrEdges.contains n })

/-- The covered bytes of a packet enter the digest record of its flow-tick; a copy discarded at step 9 marks it NOT_SENT. -/
def State.digestPacket (s : State) (f m : Nat) (heldIn notSent : Bool) (l : Bytes) : State :=
  if !s.pairRole then s
  else
    let is := fun (d : Digest) => d.flow == f && d.tick == m
    let d := (s.hgc.digests.find? is).getD ⟨f, m, heldIn, false, false, 0xFFFFFFFF⟩
    let d := { d with
      notSent := d.notSent || notSent
      crc := l.foldl (fun c b => crcByte 8 (c ^^^ b.toNat)) d.crc }
    { s with hgc := { s.hgc with digests := d :: s.hgc.digests.filter (fun x => !is x) } }

/-- A member in STANDBY or ACTIVE keeps the packet for 64 ticks (R315). -/
def State.keepBacklog (s : State) (p : BacklogPkt) : State :=
  if s.pairRole && (s.hedgeState == 3 || s.hedgeState == 4) then
    { s with hgc := { s.hgc with backlog := s.hgc.backlog ++ [p] } }
  else s

/-- Recordings that run and list flow `f` (R416, R417). -/
def State.recordingsOf (s : State) (f : Nat) : List Nat :=
  (List.range 64).filter (fun k =>
    (s.get (Reg.REC_STATE k) == 2 || s.get (Reg.REC_STATE k) == 3) &&
      (List.range (min 64 (s.get (Reg.REC_FLOWS k)))).any (fun q => bits (s.rd (0x0D190020 + 256 * k + q / 2 * 4)) (16 * (q % 2)) 16 == f))

/-- The recorder takes its copy of a packet as it leaves step 9 (R416). -/
def State.tap (s : State) (t : Tap) : State :=
  if s.running .sie && !(s.recordingsOf t.flow).isEmpty then { s with sie := { s.sie with taps := s.sie.taps ++ [t] } } else s

/-- An edge of an override pin within a packet in transmission changes what leaves step 9: the recorder's copy and the backlog's
hold the samples as they are sent (R315, R416). -/
def State.retake (s : State) (x : TxMedia) (toRing : Bool) (target : Nat) (samples : Bytes) (vals : List Nat) : State :=
  let tap := fun (t : Tap) => if x.first && t.flow == x.flow && t.tick == x.tick && t.index == x.index then { t with samples := samples } else t
  let pkt := fun (p : BacklogPkt) => if p.flow == x.flow && p.tick == x.tick && p.index == x.index && p.toRing == toRing && p.port == target
    then { p with samples := vals } else p
  { s with sie := { s.sie with taps := s.sie.taps.map tap }
           hgc := { s.hgc with backlog := s.hgc.backlog.map pkt } }

end Sys2Proof.Machine
end

