-- ==== Sys2Proof/Machine/Dma.lean ====
section
/-! DEFINITION. Access to host memory: translation (R351 to R355), dirty marks (R360, R361), read tags (R336 to R338), and what
is refused while no manager has adopted the device (R344, R345). -/

namespace Sys2Proof.Machine

/-! ## Read tags (R336, R337) -/

/-- Function `func` may take a tag now; walks alone may use the reserve. -/
def State.tagFree (s : State) (func : Nat) : Bool :=
  s.hiu.tags.length + (s.hiu.tagDiff.getD 0).natAbs + s.get Reg.HIU_TAG_CFG_WALK_RESERVE < s.get Reg.HIU_TAG_STATUS_LIMIT &&
    (func == 0 || (s.hiu.tags.filter (·.2.func == func)).length < s.get Reg.HIU_TAG_CFG_VF_CAP)

/-- OUTSTANDING and the high-water mark follow the pool. -/
def State.countTags (s : State) : State :=
  let n := s.hiu.tags.length
  let s := s.put Reg.HIU_TAG_STATUS_OUTSTANDING n
  s.when (s.get Reg.HIU_TAG_HWM < n) (fun s => s.put Reg.HIU_TAG_HWM n)

/-- The first tag number in use: a 10-bit tag field is sent with values from 256 on (R336). -/
def State.tagBase (s : State) : Nat := if !s.flag Reg.HIU_LINK_STATUS_FLIT && s.flag cfgTenBit then 256 else 0

/-- The lowest tag that no request holds. -/
def State.newTag (s : State) : Nat :=
  s.tagBase + (findBelow 4096 (fun t => !s.hiu.tags.any (·.1 == s.tagBase + t))).getD 0

/-- A read of TTU, for a table entry or a dirty-log word, holds a tag until it has ended, which is within the step: the high-water
mark sees it (R336, R337; DESIGN CHOICE, log entry 105). -/
def State.readAtOnce (s : State) (func host : Nat) : State :=
  (s.put Reg.HIU_TAG_HWM_HWM (max (s.get Reg.HIU_TAG_HWM_HWM) (s.get Reg.HIU_TAG_STATUS_OUTSTANDING + 1))).sendHost
    (.dmaRead func host 8 s.newTag false)

/-! ## Translation -/

/-- A fault of kind `k` (R353). -/
def State.transFault (s : State) (func addr k : Nat) : State :=
  let s := s.bump Reg.TTU_FAULTS
  let s := s.when (func != 0) (fun s => s.bumpSat (Reg.TTU_VF_FAULTS func))
  let s := ((s.put Reg.TTU_FAULT_LAST_KIND k).put Reg.TTU_FAULT_LAST_FUNC func).put Reg.TTU_FAULT_LAST_ADDR addr
  s.oncePerTick (0xB1000 + func) (fun s => s.raiseFor .ttu 1 func [(12, func), (8, k), (36, addr / 4096)])

/-- What a walk finds: a fault kind, or the leaf. -/
inductive Leaf where
  | fault (k : Nat)
  | page (log2 host : Nat) (read write : Bool)
deriving DecidableEq, Repr

/-- Reserved bits of a table entry (R352). -/
def entryReserved (e : Nat) : Bool := bits e 52 12 != 0 || bits e 8 4 != 0 || bits e 3 4 != 0

/-- A leaf answers an access: its permission, or a fault. -/
def permit (write r w : Bool) : Nat := if write then (if w then 0 else 6) else (if r then 0 else 5)

/-- Keep a translation; the TLB holds 16,384. -/
def State.cacheLeaf (s : State) (e : TlbEntry) : State :=
  { s with ttu := { s.ttu with tlb := (e :: s.ttu.tlb).take 16384 } }

/-- The cached entry that maps an address; one may have been evicted, which is open (R355). -/
def State.tlbLookup (s : State) (func addr : Nat) : Option TlbEntry × State :=
  match s.ttu.tlb.find? (fun e => e.func == func && e.base ≤ addr && addr < e.base + 2 ^ e.log2) with
  | none => (none, s)
  | some e =>
    let (v, s) := s.takeFree
    if v % 2 = 0 then (some e, s)
    else (none, { s with ttu := { s.ttu with tlb := s.ttu.tlb.filter (· != e) } })

/-- An entry that TTU reads from host memory under the function's Requester ID: what it finds is the next of the walk at hand; one
not supplied reads as not present (R354). -/
def State.readTable (s : State) (func host : Nat) : Option (BitVec 64) × State :=
  let w := s.ttu.walks.headD []
  let s := s.readAtOnce func host
  (w.headD (some 0), { s with ttu := { s.ttu with walks := w.drop 1 :: s.ttu.walks.drop 1 } })

/-- A table entry: from the walk cache, where it may have been evicted, which is open, or from host memory (R355). -/
def State.tableEntry (s : State) (func host : Nat) : Option (BitVec 64) × State :=
  match s.ttu.walkCache.find? (fun c => c.1 == func && c.2.1 == host) with
  | none => s.readTable func host
  | some c =>
    let (v, s) := s.takeFree
    if v % 2 = 0 then (some (BitVec.ofNat 64 c.2.2), s)
    else ({ s with ttu := { s.ttu with walkCache := s.ttu.walkCache.filter (· != c) } }).readTable func host

/-- Keep a table entry that is not a leaf; the walk cache holds 2,048. -/
def State.cacheTable (s : State) (func host e : Nat) : State :=
  { s with ttu := { s.ttu with
    walkCache := ((func, host, e) :: s.ttu.walkCache.filter (fun c => !(c.1 == func && c.2.1 == host))).take 2048 } }

/-- A walk from level `n` − 1 down, in the table at `table` (R352). -/
def walkTables (func addr : Nat) : Nat → Nat → State → Leaf × State
  | 0, _, s => (.fault 3, s)
  | n + 1, table, s =>
    let log2 := 12 + 9 * n
    let host := table + 8 * (addr / 2 ^ log2 % 512)
    let (e, s) := s.tableEntry func host
    match e with
    | none => (.fault 7, s)
    | some e =>
      let e := e.toNat
      let leaf := n == 0 || bitAt e 7
      if !bitAt e 0 then (.fault 3, s)
      else if entryReserved e || (n == 3 && bitAt e 7) then (.fault 4, s)
      else if leaf then
        if bits e 12 (log2 - 12) != 0 then (.fault 4, s)
        else (.page log2 (bits e 12 40 * 4096) (bitAt e 1) (bitAt e 2), s)
      else walkTables func addr n (bits e 12 40 * 4096) (s.cacheTable func host e)

/-- The host address of an access within one 4 KiB page, none where it faults. A walk takes the next of the command's. -/
def State.translate (s : State) (func addr len : Nat) (write : Bool) : Option Nat × State :=
  let fault := fun (s : State) k => (none, s.transFault func addr k)
  if !s.flag (Reg.CTX_VALID func) || s.get (Reg.CTX_MODE func) = 0 then fault s 1
  else if 2 ^ 48 < addr + len then fault s 2
  else if s.get (Reg.CTX_MODE func) = 2 then (some addr, s)
  else match s.tlbLookup func addr with
    | (some e, s) =>
      let s := s.bump Reg.TTU_TLB_HIT
      if permit write e.read e.write != 0 then fault s (permit write e.read e.write)
      else (some (e.host + (addr - e.base)), s)
    | (none, s) =>
      let (leaf, s) := walkTables func addr 4 (4096 * s.get (Reg.CTX_ROOT func)) (s.bump Reg.TTU_TLB_MISS).trackPulse
      let s : State := { s with ttu := { s.ttu with walks := s.ttu.walks.drop 1 } }
      match leaf with
      | .fault k => fault s k
      | .page log2 host r wr =>
        if permit write r wr != 0 then fault s (permit write r wr)
        else
          let base := addr / 2 ^ log2 * 2 ^ log2
          (some (host + (addr - base)), s.cacheLeaf ⟨func, base, log2, host, r, wr⟩)

/-- A write of function `func` marks its granule (R360). -/
def State.markDirty (s : State) (func addr : Nat) : State :=
  if func = 0 || !s.flag (Reg.CTX_LOG_EN func) then s
  else
    let g := addr / 4096
    let word := g / 64
    let phase := s.flag (Reg.CTX_LOG_PHASE func)
    if s.get (Reg.CTX_LOG_WORDS func) ≤ word then
      { s.bump Reg.TTU_LOG_OUTRANGE with ttu := { s.ttu with outRange := (func :: s.ttu.outRange).eraseDups } }
    else
      let is := fun (x : Nat × Bool × Nat × Nat) => x.1 == func && x.2.1 == phase && x.2.2.1 == word
      let old := match s.ttu.marks.find? is with | some x => x.2.2.2 | none => 0
      { s with ttu := { s.ttu with marks := (func, phase, word, setBit old (g % 64)) :: s.ttu.marks.filter (fun x => !is x) } }

/-! ## Requests -/

/-- Function `f` issues no requests now: it is in D3hot, or under an FLR (R349). -/
def State.asleep (s : State) (f : Nat) : Bool := s.hiu.vfD3.contains f || s.ttu.flr.contains f

/-- Requests of function `func` leave the device: TTU and HIU run, the device is ATTACHED and the function is not in D3hot.
One refused at HIU is counted (R345). -/
def State.dmaOpen (s : State) (func : Nat) : Bool × State :=
  if !s.attached || !s.running .hiu then (false, s.bump Reg.HIU_DMA_BLOCKED)
  else (s.running .ttu && !s.asleep func, s)

/-- A marked word goes back to its bitmap, under PF0's context: TTU reads the word, ORs its marks in and writes it (R361); in
standalone mode the write is refused like any (R345, DEDUCED, log entry 34). -/
def State.writeMark (s : State) (x : Nat × Bool × Nat × Nat) : State :=
  match s.dmaOpen 0 with
  | (false, s) => s
  | (true, s) =>
    let base := 4096 * (if x.2.1 then s.get (Reg.CTX_LOG_B x.1) else s.get (Reg.CTX_LOG_A x.1))
    match s.translate 0 (base + 8 * x.2.2.1) 8 false with
    | (none, s) => s
    | (some h, s) =>
      match (s.readAtOnce 0 h).translate 0 (base + 8 * x.2.2.1) 8 true with
      | (some h, s) => s.sendHost (.dmaOr 0 h x.2.2.2)
      | (none, s) => s

/-- The mark cache holds 4,096 words: what exceeds it is written back, oldest first, once a tag is free for its reads (R337). -/
def State.spillMarks (s : State) : State :=
  let old := s.ttu.marks.drop 4096
  if !s.tagFree 0 then s
  else old.reverse.foldl (fun s x => s.writeMark x) { s with ttu := { s.ttu with marks := s.ttu.marks.take 4096 } }

/-- A posted write: how many bytes leave, in pieces of at most Max Payload Size that cross no 4 KiB boundary. `n` bounds the
pieces. -/
def State.writePieces (s : State) (relaxed : Bool) (func addr : Nat) (l : Bytes) : Nat → Nat × State
  | 0 => (0, s)
  | n + 1 =>
    if l.isEmpty then (0, s)
    else
      let k := min (min l.length (4096 - addr % 4096)) s.maxPayload
      match s.translate func addr k true with
      | (none, s) => (0, s)
      | (some h, s) =>
        let s := (s.markDirty func addr).sendHost (.dma func h (l.take k) relaxed)
        let (m, s) := s.writePieces relaxed func (addr + k) (l.drop k) n
        (k + m, s)

/-- Pieces that a transfer of `n` bytes takes at most. -/
def pieceBound (n : Nat) : Nat := n / 128 + n / 4096 + 3

/-- A write of `l` for function `func`: whether all of it left, and how many bytes did. -/
def State.dmaWriteBy (s : State) (relaxed : Bool) (func addr : Nat) (l : Bytes) : (Bool × Nat) × State :=
  match s.dmaOpen func with
  | (false, s) => ((false, 0), s)
  | (true, s) =>
    let (n, s) := s.writePieces relaxed func addr l (pieceBound l.length)
    ((n == l.length, n), s.spillMarks)

/-- A write that publishes work to the host: it never carries Relaxed Ordering (R333). -/
def State.dmaWrite (s : State) (func addr : Nat) (l : Bytes) : (Bool × Nat) × State := s.dmaWriteBy false func addr l

/-- A payload write into an RX buffer, with Relaxed Ordering where the host has enabled it (R333). -/
def State.dmaPayload (s : State) (func addr : Nat) (l : Bytes) : (Bool × Nat) × State := s.dmaWriteBy (s.flag cfgRelaxed) func addr l

/-! ## Reads -/

/-- The read is of payload, which may carry Relaxed Ordering (R333). -/
def ReadUse.payload? : ReadUse → Bool
  | .fetch _ _ => false
  | .payload _ _ => true
  | .command _ _ => true

/-- Waiting reads take tags, round robin across functions, at most `n`. -/
def State.pumpReads (s : State) : Nat → State
  | 0 => s
  | n + 1 =>
    let ready := s.hiu.queue.filter (fun q => s.tagFree q.func && !s.asleep q.func)
    let funcs := ready.map (·.func)
    let pick := match (funcs.filter (fun f => s.hiu.rr ≤ f)).min? with | some f => some f | none => funcs.min?
    match pick.bind (fun f => ready.find? (·.func == f)) with
    | none => s
    | some q =>
      let t := s.newTag
      let s := { s with hiu := { s.hiu with tags := s.hiu.tags ++ [(t, q)], queue := s.hiu.queue.erase q, rr := q.func + 1 } }
      let s := s.when q.inv (fun s => { s with ttu := { s.ttu with inv := s.ttu.inv.map (t :: ·) } })
      (s.countTags.sendHost (.dmaRead q.func q.host q.len t (q.use.payload? && s.flag cfgRelaxed))).pumpReads n

/-- Requests of a function are outstanding. -/
def State.outstanding (s : State) (f : Nat) : Bool := s.hiu.tags.any (·.2.func == f)

/-- A tag returns to the pool; an invalidation no longer waits for its read. -/
def State.freeTag (s : State) (t : Nat) : State :=
  let s : State := { s with hiu := { s.hiu with tags := s.hiu.tags.filter (fun x => x.1 != t) } }
  ({ s with ttu := { s.ttu with inv := s.ttu.inv.map (fun (l : List Nat) => l.filter (· != t)) } }).countTags

/-- Read requests for `len` bytes, in pieces of at most Max Read Request Size that cross no 4 KiB boundary: false where one faults. -/
def State.readPieces (s : State) (use : ReadUse) (func addr len : Nat) : Nat → Bool × State
  | 0 => (true, s)
  | n + 1 =>
    if len = 0 then (true, s)
    else
      let k := min (min len (4096 - addr % 4096)) s.maxRead
      match s.translate func addr k false with
      | (none, s) => (false, s)
      | (some h, s) =>
        ({ s with hiu := { s.hiu with queue := s.hiu.queue ++ [⟨func, addr, h, k, use, false⟩] } } : State).readPieces use func
          (addr + k) (len - k) n

/-- A read for function `func`: false where it is refused or faults. -/
def State.dmaRead (s : State) (use : ReadUse) (func addr len : Nat) : Bool × State :=
  match s.dmaOpen func with
  | (false, s) => (false, s)
  | (true, s) =>
    let (b, s) := s.readPieces use func addr len (pieceBound len)
    (b, s.pumpReads s.hiu.queue.length)

/-- Run with the walks of a command at hand. -/
def State.withWalks (s : State) (w : List Walk8) (run : State → State) : State :=
  let s := run { s with ttu := { s.ttu with walks := w } }
  { s with ttu := { s.ttu with walks := [] } }

end Sys2Proof.Machine
end

