-- ==== Sys2Proof/Machine/Override.lean ====
section
/-! DEFINITION. The priority override and the sideband outputs (R197 to R204, R429, R430). -/

namespace Sys2Proof.Machine

/-! ## The override -/

/-- The remote override's span covers outbound tick `m` (R200). -/
def State.remoteOn (s : State) (m : Nat) : Bool :=
  match s.egu.remote with
  | some (a, b) => a ≤ m && m ≤ b
  | none => false

/-- The override is active (R200), as EGU_OVR_STATUS shows it. -/
def State.overridden (s : State) : Bool := s.flag Reg.EGU_OVR_STATUS_ACTIVE

/-- The local override acts by now: the edge that activated it has come (R198). -/
def State.localActs (s : State) : Bool := s.flag Reg.EGU_OVR_STATUS_LOCAL && s.egu.edgeAt ≤ s.localNs

/-- The edge that activates the local override is still to come in this tick: ns from now. -/
def State.edgeIn (s : State) : Option Nat :=
  if s.flag Reg.EGU_OVR_STATUS_LOCAL && s.localNs < s.egu.edgeAt then some (s.egu.edgeAt - s.localNs) else none

/-- FORCE acts in tick `m`: a written value from the first tick after its write (R203). -/
def State.forceOn (s : State) (m : Nat) : Bool :=
  match s.egu.forceNext with
  | some (v, t) => if t < m then v else s.egu.forced
  | none => s.egu.forced

/-- The override acts now, in tick `m`: local, remote or FORCE (R200). -/
def State.activeIn (s : State) (m : Nat) : Bool := s.localActs || s.remoteOn m || s.forceOn m

/-- The override acts in tick `m` from here on: it is active, or has been active in the tick (R201). -/
def State.zeroedTick (s : State) (m : Nat) : Bool := s.activeIn m || (s.egu.ovrTick == some m && s.edgeIn.isNone)

/-- A source of the override: pin A, pin B, remote, FORCE. -/
inductive OvrSource where
  | pinA | pinB | remote | force
deriving DecidableEq, Repr

def OvrSource.num : OvrSource → Nat
  | .pinA => 0 | .pinB => 1 | .remote => 2 | .force => 3

/-- ACTIVE follows the three causes (R200): OVR_ON, with its source in a code that the spec does not give (DESIGN CHOICE, log
entry 94), and OVR_OFF are raised at its changes (R201). `within` marks a change inside the tick (R202). -/
def State.refreshOverride (s : State) (src : OvrSource) (within : Bool) : State :=
  let on := s.flag Reg.EGU_OVR_STATUS_LOCAL || s.flag Reg.EGU_OVR_STATUS_REMOTE || s.egu.forced
  let was := s.overridden
  let s := if on && !was then
      ((s.put Reg.EGU_OVR_STATUS_ACTIVE 1).bump Reg.EGU_OVR_ACTIVATIONS).raise .egu 8 [(8, Config.ovrSource src.num)]
    else if !on && was then (s.put Reg.EGU_OVR_STATUS_ACTIVE 0).raise .egu 9 []
    else s
  s.when (within && on != was) (fun s => { s with egu := { s.egu with ovrEdges := (s.tick :: s.egu.ovrEdges).eraseDups } })

/-- The local override begins at an edge `e` ns from now (R198). -/
def State.startLocal (s : State) (pinB : Bool) (e : Nat) : State :=
  if s.flag Reg.EGU_OVR_STATUS_LOCAL then s
  else
    let s := { s.put Reg.EGU_OVR_STATUS_LOCAL 1 with egu := { s.egu with edgeAt := s.localNs + e, ovrTick := some s.tick } }
    s.refreshOverride (if pinB then .pinB else .pinA) true

/-- EGU enters RUN with a pin low, or with both high (R198). -/
def State.pinsAtRun (s : State) : State :=
  if s.flag Reg.EGU_OVR_STATUS_PIN_A then s.startLocal false 0
  else if s.flag Reg.EGU_OVR_STATUS_PIN_B then s.startLocal true 0 else s

/-- An EME packet accepted in tick `n` that carries OVR activates or extends the remote override (R200). -/
def State.remoteOverride (s : State) (n : Nat) : State :=
  if s.flag Reg.EGU_OVR_CFG_REMOTE_EN then
    let last := n + s.get Reg.EGU_OVR_CFG_REMOTE_TICKS
    let span := match s.egu.remote with
      | some (a, b) => if n ≤ b then (a, max b last) else (n + 1, last)
      | none => (n + 1, last)
    { s with egu := { s.egu with remote := some span } }
  else s

/-- What the override does at a tick boundary: the remote span begins, and a tick in which the override acts is noted
(R200, R201). -/
def State.overrideTick (s : State) : State :=
  let s := s.when (s.remoteOn s.tick) (fun s => s.put Reg.EGU_OVR_STATUS_REMOTE 1)
  let s := s.refreshOverride .remote false
  let s := s.when (s.activeIn s.tick) (fun s => { s with egu := { s.egu with ovrTick := some s.tick } })
  { s with egu := { s.egu with ovrEdges := s.egu.ovrEdges.filter (fun t => s.tick < t + 4) } }

/-- An override pin's place in EGU_OVR_STATUS: A, or B. -/
def pinField (b : Bool) : Field := if b then Reg.EGU_OVR_STATUS_PIN_B else Reg.EGU_OVR_STATUS_PIN_A

/-- A pin changes: any differing state of the pins that stood ends (R203). -/
def State.setPin (s : State) (pinB low : Bool) : State :=
  if s.flag (pinField pinB) == low then s
  else { s.put (pinField pinB) (bit low) with egu := { s.egu with disagreeRaised := false } }

/-- OVERRIDE_PIN_RISE (R201): RELEASE_MS runs from the moment both pins are high. -/
def execOverridePinRise (pinB : Bool) (offset : Nat) (s : State) : Host.Outcome State Fault Refusal :=
  ok ((s.moment offset).setPin pinB false)

/-- OVERRIDE_RELEASE (R201): both pins have been high for RELEASE_MS, and the local override ends. -/
def execOverrideRelease (offset : Nat) (s : State) : Host.Outcome State Fault Refusal :=
  let s := s.moment offset
  if s.flag Reg.EGU_OVR_STATUS_PIN_A || s.flag Reg.EGU_OVR_STATUS_PIN_B then ok s
  else ok ((s.put Reg.EGU_OVR_STATUS_LOCAL 0).refreshOverride .pinA true)

/-- REMOTE_OVERRIDE_END (R200, R201): the span's last tick has passed. -/
def execRemoteOverrideEnd (s : State) : Host.Outcome State Fault Refusal :=
  match s.egu.remote with
  | some (_, b) =>
    if b < s.tick then
      let s := { s with egu := { s.egu with remote := none } }
      ok ((s.put Reg.EGU_OVR_STATUS_REMOTE 0).refreshOverride .remote false)
    else ok s
  | none => ok s

/-- FORCE_WRITE (R203): the manager requests the override on or off; until it acts the register keeps the value in force
(R10). -/
def State.writeForce (s : State) (r : Requester) (v : Nat) : State :=
  if s.mayWrite r 0x07008508 then { s with egu := { s.egu with forceNext := some (bitAt v 0, s.tick) } } else s

def execForceWrite (r : Requester) (force : Bool) (s : State) : Host.Outcome State Fault Refusal :=
  ok (s.writeForce r (bit force))

/-- FORCE_EFFECTIVE (R203): at the first tick that begins after the write, FORCE's override begins or ends. -/
def execForceEffective (s : State) : Host.Outcome State Fault Refusal :=
  match s.egu.forceNext with
  | none => ok s
  | some (v, t) =>
    if s.tick ≤ t then ok s
    else
      ok ({ s.put Reg.EGU_OVR_CTL_FORCE (bit v) with egu := { s.egu with forced := v, forceNext := none } }.refreshOverride .force false)

/-- OVR_PIN_DISAGREE (R203): a differing state of the pins has held for more than 100 ms. It is raised once in that state and
names the low pin, in a code the spec does not give (DESIGN CHOICE, log entry 94). -/
def execOvrPinDisagree (s : State) : Host.Outcome State Fault Refusal :=
  let a := s.flag Reg.EGU_OVR_STATUS_PIN_A
  if a != s.flag Reg.EGU_OVR_STATUS_PIN_B && !s.egu.disagreeRaised then
    ok ({ s with egu := { s.egu with disagreeRaised := true } }.raise .egu 10 [(8, Config.ovrSource (if a then OvrSource.pinA else .pinB).num)])
  else ok s

/-! ## Sideband -/

/-- An accepted write waits for its tick (R204). -/
def State.acceptSideband (s : State) (v tick : Nat) : State :=
  { s with egu := { s.egu with sidePending := s.egu.sidePending ++ [(v % 2 ^ 17, tick)] } }

/-- SIDEBAND_WRITE (R204, R430): scheduled for tick + 2 and carried; discarded after a mismatch. -/
def State.writeSideband (s : State) (r : Requester) (v : Nat) : State :=
  if s.egu.sideFault || !s.mayWrite r 0x07008600 then s
  else s.localOnly (fun s =>
    let t := s.tick + 2
    (s.acceptSideband v t).carry t (.sideband (BitVec.ofNat 32 (v % 2 ^ 17))))

def execSidebandWrite (r : Requester) (v : Word) (s : State) : Host.Outcome State Fault Refusal :=
  ok (s.writeSideband r v.toNat)

/-- SIDEBAND_EFFECTIVE (R204): the outputs take the values whose tick has come, in the order written. -/
def execSidebandEffective (s : State) : Host.Outcome State Fault Refusal :=
  match s.egu.sidePending with
  | (v, t) :: rest =>
    if s.tick < t then ok s
    else
      let s : State := { s with egu := { s.egu with sidePending := rest } }
      ok (if s.tierZero then s else s.driveSideband v)
  | [] => ok s

/-- SIDEBAND_MISMATCH (R430): a fault has changed one of the two registers; the outputs keep the last agreed value, and
writes are dropped until a COLD reset. -/
def execSidebandMismatch (inB : Bool) (v : BitVec 17) (s : State) : Host.Outcome State Fault Refusal :=
  if !s.powered then ok s
  else
  let s := if inB then { s with egu := { s.egu with sideB := v.toNat } } else { s with egu := { s.egu with sideA := v.toNat } }
  if s.egu.sideA = s.egu.sideB then ok s
  else ok ({ s with egu := { s.egu with sideFault := true, sidePending := [] } }.fault 7 0x0A)

end Sys2Proof.Machine
end

