-- ==== Sys2Proof/Machine/CipherPath.lean ====
section
/-! DEFINITION. CKU's transforms on packets and frames: keys captured (R251, R252), EME payloads and the nonce guard (R254,
R256, R257), ESP (R258, R260), MACsec (R261 to R263), lengths and packet numbers (R265 to R267), IP checksums (R235). -/

namespace Sys2Proof.Machine

/-! ## Checksums -/

/-- The ones' complement sum of a byte string's 16-bit words, folded. -/
def onesSum : Bytes → Nat → Nat
  | [], a => a
  | [x], a => let t := a + x.toNat * 256; t % 65536 + t / 65536
  | x :: y :: l, a => let t := a + x.toNat * 256 + y.toNat; onesSum l (t % 65536 + t / 65536)

/-- The internet checksum. -/
def inetSum (l : Bytes) : Nat := 65535 - onesSum l 0 % 65536

/-- The IPv4 header at an offset with its checksum computed. -/
def fixIp4 (l : Bytes) (off : Nat) : Bytes :=
  let n := 4 * (beAt l off 1 % 16)
  let h := overlay (sliceB l off n) 10 [0, 0]
  overlay l (off + 10) (toBE 2 (inetSum h))

def ipVersion (l : Bytes) (off : Nat) : Nat := beAt l off 1 / 16

/-- Length of the IP header at an offset, extension headers of version 6 left out. -/
def ipHeadLen (l : Bytes) (off : Nat) : Nat := if ipVersion l off = 6 then 40 else 4 * (beAt l off 1 % 16)

/-- The protocol byte of the IP header at an offset. -/
def ipProtoAt (l : Bytes) (off : Nat) : Nat := if ipVersion l off = 6 then off + 6 else off + 9

/-- The IP header at an offset given its length fields and protocol anew: the datagram runs to `stop`. -/
def setIpLen (l : Bytes) (off stop : Nat) : Bytes :=
  if ipVersion l off = 6 then overlay l (off + 4) (toBE 2 (stop - off - 40))
  else fixIp4 (overlay l (off + 2) (toBE 2 (stop - off))) off

def setIpProto (l : Bytes) (off p : Nat) : Bytes := overlay l (ipProtoAt l off) (toBE 1 p)

/-- The pseudo-header sum and the sum of a UDP datagram, for the UDP header at `u` under the IP header at `i`. -/
def udpSum (l : Bytes) (i u : Nat) : Nat :=
  let n := beAt l (u + 4) 2
  let a := if ipVersion l i = 6 then sliceB l (i + 8) 32 else sliceB l (i + 12) 8
  onesSum (a ++ toBE 2 17 ++ toBE 2 n ++ sliceB l u n) 0

/-- A UDP checksum as sent: 0 is sent as 0xFFFF. -/
def udpChecksum (l : Bytes) (i u : Nat) : Nat :=
  let c := 65535 - udpSum (overlay l (u + 6) [0, 0]) i u % 65536
  if c = 0 then 65535 else c

/-- A received UDP checksum fails R97: a non-zero one that does not verify, or a zero one over IPv6. -/
def udpBad (l : Bytes) (i u : Nat) : Bool :=
  if beAt l (u + 6) 2 = 0 then ipVersion l i == 6 else udpSum l i u % 65535 != 0

/-! ## Keys -/

def State.keySlot (s : State) (k : Nat) : Option KeySlot := Assoc.get? s.cku.slots k

def KeySlot.half (k : KeySlot) (second : Bool) : Bytes := if second then k.half1 else k.half0

/-- The slot may be captured: LOADED or PENDING, and not from the first cycle of an erase's tick on (R252, R253). -/
def State.slotLive (s : State) (k : Nat) : Bool :=
  (s.get (Reg.SLOT_STATE k) == 1 || s.get (Reg.SLOT_STATE k) == 2) &&
    !(s.keySlot k).any (fun x => x.eraseTick.any (fun t => decide (t ≤ s.tick)))

/-- The half of a GCM_MEDIA slot that serves tick `t` (R251). -/
def State.mediaHalf (s : State) (k t : Nat) : Option Bytes :=
  match s.keySlot k with
  | none => none
  | some x =>
    if !s.slotLive k then none
    else match x.rewriteTick with
      | some r => some (x.half (if r ≤ t then !x.second else x.second))
      | none =>
        let other := x.half (!x.second)
        some (if t < s.get (Reg.SLOT_SWITCH_TICK k) && !other.isEmpty then other else x.half x.second)

/-- The half in force. -/
def State.halfInForce (s : State) (k : Nat) : Option Bytes :=
  match s.keySlot k with
  | none => none
  | some x => if s.slotLive k then some (x.half x.second) else none

/-- Salt and key of a plaintext (R248). -/
def saltOf (p : Bytes) : Bytes := sliceB p 4 12
def keyOfBlob (p : Bytes) : Bytes := p.drop 16

/-- A media flow may capture slot `k` (R252, R255). -/
def State.mediaSlotOk (s : State) (k f : Nat) : Bool :=
  s.slotLive k && s.get (Reg.SLOT_USAGE k) == 1 &&
    (s.get (Reg.SLOT_FUNC k) == s.get (Reg.FLOW_FUNC f) || s.get (Reg.SLOT_FUNC k) == 0)

/-- An authentication failure: counted, and raised at most once per tick with its kind and the SA or flow; `kind` is that of
Config.authKind (R265). -/
def State.authFail (s : State) (kind id : Nat) : State :=
  (s.bump Reg.CKU_AUTH_FAIL).oncePerTick 0x805 (fun s => s.raise .cku 5 [(8, Config.authKind kind), (16, id)])

/-! ## Media payloads -/

/-- The nonce of R254, from the header as sent and the slot's salt. -/
def emeNonce (hdr p : Bytes) : Bytes := sliceB hdr 2 2 ++ sliceB hdr 4 1 ++ sliceB hdr 6 6 ++ sliceB hdr 5 1 ++ sliceB p 4 2

/-- Decrypt at step 3 (R257): the samples, or none where the packet is discarded. -/
def State.emeDecrypt (s : State) (f t : Nat) (hdr body : Bytes) (enc : Nat) : Option Bytes × State :=
  let k := s.get (Reg.FLOW_KEY_IN f)
  match if s.mediaSlotOk k f && s.running .cku then s.mediaHalf k t else none with
  | none => (none, s.bump Reg.CKU_KEY_EMPTY)
  | some p =>
    let s := s.trackPulse
    let n := emeNonce hdr p
    let tag := tagBytes enc
    let ct := body.take (body.length - tag)
    let good := tag == 0 || (Config.gcmTag (keyOfBlob p) n hdr ct).take tag == body.drop (body.length - tag)
    if good then (some (Config.gcmDecrypt (keyOfBlob p) n hdr ct), s) else (none, s.authFail 0 f)

/-- The nonce guard (R256): whether it refuses, and the guard after. -/
def nonceGuard (g : Option NonceGuard) (ep m : Nat) (replay : Bool) : Bool × NonceGuard :=
  let fresh : NonceGuard := ⟨ep, none, none, none⟩
  let start := match g with
    | none => some fresh
    | some g => if serialNewer 8 ep g.epoch then some fresh else if ep = g.epoch then some g else none
  match start with
  | none => (true, g.getD fresh)
  | some g =>
    let below := fun (x : Option Nat) => match x with | some v => decide (m < v) | none => false
    if !replay then
      if below g.liveHwm || (match g.replayHwm with | some v => decide (m ≤ v) | none => false) then (true, g)
      else (false, { g with firstLive := some (g.firstLive.getD m), liveHwm := some m })
    else if below g.replayHwm || (match g.firstLive with | some v => decide (v ≤ m) | none => false) then (true, g)
    else (false, { g with replayHwm := some m })

/-- The key and tag length under which flow `f` encrypts at step 10 in outbound tick `m` of epoch `ep`, or none where the packet
is discarded (R256). -/
def State.emeCapture (s : State) (f ep m : Nat) (replay : Bool) : Option (Bytes × Nat) × State :=
  let k := s.get (Reg.FLOW_KEY_OUT f)
  match if s.mediaSlotOk k f && s.running .cku then s.mediaHalf k m else none with
  | none => (none, s.bump Reg.CKU_KEY_EMPTY)
  | some p =>
    let s := s.trackPulse
    let (no, g) := nonceGuard (Assoc.get? s.cku.guards k) ep m replay
    let s := { s with cku := { s.cku with guards := Assoc.set s.cku.guards k g } }
    if no then (none, (s.bump Reg.CKU_NONCE_REFUSED).oncePerTick 0x806 (fun s => s.raise .cku 6 []))
    else (some (p, tagBytes (s.get (Reg.FLOW_ENC_OUT f))), s)

/-- The payload on the wire, from the header as sent and the samples (R254). -/
def emeSeal (k : Bytes × Nat) (hdr body : Bytes) : Bytes :=
  let n := emeNonce hdr k.1
  let ct := Config.gcmEncrypt (keyOfBlob k.1) n hdr body
  ct ++ (Config.gcmTag (keyOfBlob k.1) n hdr ct).take k.2

/-! ## Packet numbers -/

/-- A packet-number event, once for each SA and kind (R265). -/
def State.pnNote (s : State) (sa kind : Nat) : State :=
  if s.cku.noted.contains (sa, kind) then s
  else ({ s with cku := { s.cku with noted := (sa, kind) :: s.cku.noted } } : State).raise .cku kind [(16, sa)]

/-- The next number of a TX SA: none where it is exhausted (R267). PN 0 stands for a number past 2^64 − 1. -/
def State.takePn (s : State) (sa : Nat) (thresh : Nat) : Option Nat × State :=
  let pn := s.get (Reg.SA_PN sa)
  if pn = 0 then (none, (s.bump Reg.CKU_PN_EXHAUSTED).pnNote sa 8)
  else
    let s := s.put (Reg.SA_PN sa) (pn + 1)
    (some pn, if thresh != 0 && 2 ^ thresh ≤ pn + 1 then s.pnNote sa 7 else s)

/-- A valid SA of a kind. -/
def State.saIs (s : State) (sa kind : Nat) : Bool :=
  0 < sa && sa < 16384 && s.flag (Reg.SA_VALID sa) && s.get (Reg.SA_KIND sa) == kind

/-! ## ESP -/

/-- Past the extension headers that ESP follows: hop-by-hop, routing and fragment, and destination options ahead of one of
them (PRESUMED, RFC 8200's order, log entry 93). From the byte that names the next header and the offset of that header:
the last such byte, and where the last such header ends. -/
def extEnd (l : Bytes) : Nat → Nat → Nat → Nat × Nat
  | 0, nh, o => (nh, o)
  | n + 1, nh, o =>
    let past := o + 8 * (beAt l (o + 1) 1 + 1)
    let kind := beAt l nh 1
    if kind = 0 || kind = 43 then extEnd l n o past
    else if kind = 44 then extEnd l n o (o + 8)
    else if kind = 60 && [0, 43, 44].contains (beAt l o 1) then extEnd l n o past
    else (nh, o)

/-- Where ESP goes behind the IP header at `ip`: the byte that will name it, and its offset. -/
def espPlace (l : Bytes) (ip : Nat) (transport : Bool) : Nat × Nat :=
  if transport && ipVersion l ip = 6 then extEnd l 8 (ip + 6) (ip + 40) else (ipProtoAt l ip, ip + ipHeadLen l ip)

/-- End of the datagram of the IP header at `ip`, within the frame; what follows it is Ethernet padding. -/
def datagramEnd (l : Bytes) (ip : Nat) : Nat :=
  min l.length (if ipVersion l ip = 6 then ip + 40 + beAt l (ip + 4) 2 else ip + beAt l (ip + 2) 2)

/-- Padding of an ESP payload of `n` bytes to a 4-byte boundary with its trailer. -/
def espPad (n : Nat) : Nat := (4 - (n + 2) % 4) % 4

/-- Length of a frame after ESP. -/
def espLen (l : Bytes) (ip : Nat) (transport : Bool) : Nat :=
  let head := (espPlace l ip transport).2
  let n := datagramEnd l ip - head
  head + 16 + n + espPad n + 2 + 16

/-- What an ESP_OUT SA applies to the next copy; none drops it (R258, R260). -/
def State.espCapture (s : State) (sa : Nat) : Option EspKey × State :=
  if !s.saIs sa 0 then (none, s.bump Reg.CKU_NO_SA)
  else match if s.running .cku then s.halfInForce (s.get (Reg.SA_KEY sa)) else none with
    | none => (none, s.bump Reg.CKU_KEY_EMPTY)
    | some p =>
      match s.trackPulse.takePn sa 0 with
      | (none, s) => (none, s)
      | (some pn, s) => (some ⟨p, pn, s.get (Reg.SA_SPI_SSCI sa), s.flag (Reg.SA_GMAC sa), !s.flag (Reg.SA_MODE sa)⟩, s)

/-- ESP outbound (R258) behind the IP header at `ip`; none where a limit of R266 forbids it. Under RFC 4543 the whole payload is
AAD, and so is bound by AAD's 256 bytes (DEDUCED, log entry 93). -/
def espSeal (k : EspKey) (l : Bytes) (ip : Nat) : Option Bytes :=
  let (nh, head) := espPlace l ip k.transport
  let data := sliceB l head (datagramEnd l ip - head)
  let pad := espPad data.length
  let pt := data ++ (List.range pad).map (fun i => BitVec.ofNat 8 (i + 1)) ++ [BitVec.ofNat 8 pad, BitVec.ofNat 8 (beAt l nh 1)]
  let spi := toBE 4 k.spi
  let iv := toBE 8 k.pn
  let nonce := sliceB k.plain 4 4 ++ iv
  if 16384 < pt.length || (k.gmac && 256 < 20 + pt.length) then none
  else
    let ct := if k.gmac then pt else Config.gcmEncrypt (keyOfBlob k.plain) nonce (spi ++ iv) pt
    let icv := if k.gmac then Config.gcmTag (keyOfBlob k.plain) nonce (spi ++ iv ++ iv ++ pt) []
      else Config.gcmTag (keyOfBlob k.plain) nonce (spi ++ iv) ct
    let l' := overlay (l.take head) nh (toBE 1 50) ++ spi ++ iv.drop 4 ++ iv ++ ct ++ icv
    some (setIpLen l' ip l'.length)

/-- The byte that names the header at `at_`, behind the IP header at `ip`: in the IP header itself, or in the last extension header
ahead of it. -/
def nameAt (l : Bytes) (at_ : Nat) : Nat → Nat → Nat → Nat
  | 0, nh, _ => nh
  | n + 1, nh, o =>
    if at_ ≤ o then nh
    else
      let kind := beAt l nh 1
      nameAt l at_ n o (o + (if kind = 44 then 8 else if kind = 51 then 4 * (beAt l (o + 1) 1 + 2) else 8 * (beAt l (o + 1) 1 + 1)))

/-- The byte that names the ESP header at `esp` (R258). -/
def espNamed (l : Bytes) (ip esp : Nat) : Nat := if ipVersion l ip = 6 then nameAt l esp 16 (ip + 6) (ip + 40) else ip + 9

/-- What an inbound ESP packet comes to (R260, R265, R266). -/
inductive EspIn where
  /-- the frame is dropped -/
  | drop
  /-- checked: the frame with ESP removed, the offset at which the inner walk resumes, and whether the ICV verified -/
  | done (l : Bytes) (at_ : Nat) (good : Bool)

/-- ESP inbound (R258, R260): `ip` is the IP header before ESP, `esp` the ESP header, `stop` the datagram's end. -/
def State.espIn (s : State) (l : Bytes) (ip esp stop : Nat) : EspIn × State :=
  let spi := beAt l esp 4
  let sa := spi % 16384
  if !s.saIs sa 1 || s.get (Reg.SA_SPI_SSCI sa) != spi then (.drop, s.bump Reg.CKU_NO_SA)
  else if stop < esp + 34 then (.drop, s.bump Reg.CKU_LENGTH_ERR)
  else
    let iv := sliceB l (esp + 8) 8
    let seq := ofBE iv
    let top := s.get (Reg.SA_PN sa)
    let seen := Assoc.getD s.cku.seen sa []
    if top = 2 ^ 64 - 1 || seq = top || seq + 1024 ≤ top || seen.contains seq then (.drop, s.bump Reg.CKU_REPLAY_DROP)
    else match if s.running .cku then s.halfInForce (s.get (Reg.SA_KEY sa)) else none with
      | none => (.drop, s.bump Reg.CKU_KEY_EMPTY)
      | some p =>
        let s := s.trackPulse
        let gmac := s.flag (Reg.SA_GMAC sa)
        let aad := toBE 4 spi ++ iv
        let nonce := sliceB p 4 4 ++ iv
        let ct := sliceB l (esp + 16) (stop - 32 - esp)
        let icv := sliceB l (stop - 16) 16
        let tag := if gmac then Config.gcmTag (keyOfBlob p) nonce (aad ++ iv ++ ct) [] else Config.gcmTag (keyOfBlob p) nonce aad ct
        let pt := if gmac then ct else Config.gcmDecrypt (keyOfBlob p) nonce aad ct
        let good := decide (tag = icv)
        let pad := beAt pt (pt.length - 2) 1
        let next := beAt pt (pt.length - 1) 1
        if (good && pt.length < pad + 2) || 16384 < ct.length || (gmac && 256 < 20 + ct.length) then (.drop, s.bump Reg.CKU_LENGTH_ERR)
        else
          let data := pt.take (pt.length - pad - 2)
          let s := if good then
              let top' := max top seq
              { s.put (Reg.SA_PN sa) top' with cku := { s.cku with
                seen := Assoc.set s.cku.seen sa ((seq :: seen).filter (fun x => top' < x + 1024)) } }
            else s.authFail 1 sa
          let l' := if s.flag (Reg.SA_MODE sa) then l.take ip ++ data ++ l.drop stop
            else
              let m := overlay (l.take esp ++ data) (espNamed l ip esp) (toBE 1 next)
              setIpLen m ip m.length ++ l.drop stop
          (.done l' (if s.flag (Reg.SA_MODE sa) then ip else esp) good, s)

/-! ## MACsec -/

/-- Frames that pass a MACsec port unprotected: EAPOL and PTP with UNCTRL (R263). -/
def State.uncontrolled (s : State) (p etype : Nat) : Bool :=
  s.flag (Reg.CKU_MSEC_PORT_UNCTRL p) && (etype == 0x888E || etype == 0x88F7)

/-- The 12-byte XPN nonce: the salt against SSCI and PN. -/
def xpnNonce (p : Bytes) (ssci pn : Nat) : Bytes :=
  List.zipWith (fun a b => a ^^^ b) (saltOf p) (toBE 4 ssci ++ toBE 8 pn)

/-- What MACsec applies to the next frame of a port, whose EtherType is `etype` (R262): none drops the frame, and `some none`
leaves it as it is. The AN that stands for an SA is not in the table, so it is free. -/
def State.macCapture (s : State) (port etype : Nat) : Option (Option MacKey) × State :=
  if !s.macsecOn port || s.uncontrolled port etype then (some none, s)
  else
    let sa := s.get (Reg.CKU_MSEC_PORT_TX_SA port)
    if !s.saIs sa 2 then (none, s.bump Reg.CKU_NO_SA)
    else match if s.running .cku then s.halfInForce (s.get (Reg.SA_KEY sa)) else none with
      | none => (none, s.bump Reg.CKU_KEY_EMPTY)
      | some p =>
        match s.trackPulse.takePn sa (s.get (Reg.CKU_MSEC_PORT_THRESH_LOG2 port)) with
        | (none, s) => (none, s)
        | (some pn, s) =>
          let (an, s) := s.takeFree
          (some (some ⟨p, pn, an % 4, s.get (Reg.SA_SPI_SSCI sa), s.get (Reg.SA_SCI sa)⟩), s)

/-- The protected frame (R261). -/
def macSeal (k : MacKey) (l : Bytes) : Bytes :=
  let data := l.drop 12
  let sl := if data.length < 48 then data.length else 0
  let aad := l.take 12 ++ toBE 2 0x88E5 ++ toBE 1 (0x2C + k.an) ++ toBE 1 sl ++ toBE 4 (k.pn % 2 ^ 32) ++ toBE 8 k.sci
  let n := xpnNonce k.plain k.ssci k.pn
  let ct := Config.gcmEncrypt (keyOfBlob k.plain) n aad data
  aad ++ ct ++ Config.gcmTag (keyOfBlob k.plain) n aad ct

/-- MACsec egress (R262): the frame as it leaves, or none where it is dropped. -/
def State.macsecOut (s : State) (port : Nat) (l : Bytes) : Option Bytes × State :=
  match s.macCapture port (beAt l 12 2) with
  | (none, s) => (none, s)
  | (some k, s) => (some (match k with | some k => macSeal k l | none => l), s)

/-- Octets of secure data behind a SecTAG whose short length octet is `sl`, for `n` octets that follow it; none where 802.1AE
forbids the pair (R266): SL below 48 with its two reserved bits 0, and 0 only with 48 octets or more. -/
def secureLen (sl n : Nat) : Option Nat :=
  if sl = 0 then (if 64 ≤ n then some (n - 16) else none) else if sl < 48 && sl + 16 ≤ n then some sl else none

/-- The SA of an RX secure channel's AN on a port (R270). -/
def State.rxSa (s : State) (port sci an : Nat) : Option Nat :=
  let base := fun e => 0x08480000 + 512 * port + 32 * e
  match (List.range 16).find? (fun e => bitAt (s.rd (base e)) 31 && s.rd (base e + 8) + 2 ^ 32 * s.rd (base e + 12) == sci) with
  | none => none
  | some e => some (bits (s.rd (base e + 16 + 4 * (an / 2))) (16 * (an % 2)) 14)

/-- MACsec ingress at step 1 (R262, R263): none drops the frame; otherwise the frame, whether it was protected, and
whether its ICV verified. The PN's high half is recovered from the SA's PN, as XPN does. -/
def State.macsecIn (s : State) (port : Nat) (l : Bytes) : Option (Bytes × Bool × Bool) × State :=
  let at_ := if beAt l 12 2 == 0x88E5 then 12 else if beAt l 16 2 == 0x88E5 && beAt l 12 2 != 0x88E5 &&
    (beAt l 12 2 == 0x8100 || beAt l 12 2 == 0x88A8) then 16 else 0
  if at_ = 0 then
    if s.uncontrolled port (beAt l 12 2) then (some (l, false, true), s) else (none, s.bump Reg.CKU_UNTAGGED_DROP)
  else
    let tci := beAt l (at_ + 2) 1
    let sl := beAt l (at_ + 3) 1
    let low := beAt l (at_ + 4) 4
    let sci := beAt l (at_ + 8) 8
    let body := l.drop (at_ + 16)
    -- SC 1, E and C 1; V, ES and SCB 0: a SecTAG out of the profile is counted as SC 0 is (DESIGN CHOICE, log entry 93)
    if tci / 4 != 0x0B then (none, s.bump Reg.CKU_NO_SA)
    else match secureLen sl body.length with
    | none => (none, s.bump Reg.CKU_LENGTH_ERR)
    | some n =>
      match s.rxSa port sci (tci % 4) with
      | none => (none, s.bump Reg.CKU_NO_SA)
      | some sa =>
        if !s.saIs sa 3 then (none, s.bump Reg.CKU_NO_SA)
        else
          let top := s.get (Reg.SA_PN sa)
          let hi := top / 2 ^ 32
          let guess := hi * 2 ^ 32 + low
          let pn := if guess + 2 ^ 31 < top then guess + 2 ^ 32 else guess
          -- a number recovered past 2^64 - 1 is none that the SA may take
          if pn + s.get (Reg.SA_REPLAY_WIN sa) < top || top = 2 ^ 64 - 1 || 2 ^ 64 ≤ pn then (none, s.bump Reg.CKU_REPLAY_DROP)
          else match if s.running .cku then s.halfInForce (s.get (Reg.SA_KEY sa)) else none with
            | none => (none, s.bump Reg.CKU_KEY_EMPTY)
            | some p =>
              let s := s.trackPulse
              let ct := body.take n
              let aad := l.take 12 ++ sliceB l at_ 16
              let nonce := xpnNonce p (s.get (Reg.SA_SPI_SSCI sa)) pn
              let good := decide (Config.gcmTag (keyOfBlob p) nonce aad ct = sliceB body n 16)
              let plain := l.take at_ ++ Config.gcmDecrypt (keyOfBlob p) nonce aad ct
              let s := if good then s.put (Reg.SA_PN sa) (max top pn) else s.authFail 2 sa
              (some (plain, true, good), s)

end Sys2Proof.Machine
end

