-- ==== Sys2Proof/Machine/Parse.lean ====
section
/-! DEFINITION. The parse graph, the classifier key and the first match (R108 to R121, R127, R128). -/

namespace Sys2Proof.Machine

/-! ## The graph (R109) -/

def nodeAt (_g : Bytes) (i : Nat) : Nat := 16 + 32 * i
def nodeCount (g : Bytes) : Nat := leAt g 0 2
def edgeCount (g : Bytes) : Nat := leAt g 2 2
def edgeAt (g : Bytes) (j : Nat) : Nat := 16 + 32 * nodeCount g + 12 * j

/-- The graph's limits (R109, R110): nodes and edges, widths, and every edge and DEFAULT_NEXT naming a node of it. -/
def graphOk (g : Bytes) : Bool :=
  let n := nodeCount g
  let e := edgeCount g
  let nextOk := fun v => v < n || v == 0xFE || v == 0xFF
  n ≤ 128 && e ≤ 1024 && 16 + 32 * n + 12 * e ≤ g.length && leAt g 4 1 < n && leAt g 5 1 < n
    && (List.range n).all (fun i =>
      let b := nodeAt g i
      leAt g b 1 ≤ 12 && leAt g (b + 6) 1 ≤ 7 && [0, 1, 2, 4, 8].contains (leAt g (b + 7) 1)
        && leAt g (b + 9) 1 ≤ 32 && leAt g (b + 11) 1 ≤ 32 && leAt g (b + 14) 1 ≤ 16
        && leAt g (b + 12) 2 + leAt g (b + 14) 1 ≤ e && nextOk (leAt g (b + 15) 1)
        && (leAt g b 1 != 12 || bitAt (leAt g (b + 1) 1) 1))
    && (List.range e).all (fun j => nextOk (leAt g (edgeAt g j + 8) 1))

/-- The first `n` bits from byte `i`, right-aligned. -/
def leadBits (l : Bytes) (i n : Nat) : Nat :=
  let k := (n + 7) / 8
  beAt l i k / 2 ^ (8 * k - n)

/-! ## One node (R110 to R113) -/

def setFlag (w b : Nat) (v : Bool) : Nat := setBits w b 1 (bit v)

/-- The key fields that a header of a kind fills (R111), at its offset. -/
def fillKey (kind : Nat) (l : Bytes) (o : Nat) (w : Walk) : Walk :=
  match kind with
  | 1 => { w with dmac := beAt l o 6, etype := beAt l (o + 12) 2 }
  | 2 => { w with vlan := beAt l o 2 % 4096, pcp := beAt l o 1 / 32, etype := beAt l (o + 2) 2, pflags := setFlag w.pflags 0 true }
  | 3 =>
    let fr := beAt l (o + 6) 2
    let pf := setFlag (setFlag (setFlag w.pflags 1 true) 5 (bitAt fr 13 || fr % 8192 != 0)) 6 (5 < beAt l o 1 % 16)
    { w with sip := beAt l (o + 12) 4, dip := beAt l (o + 16) 4, proto := beAt l (o + 9) 1, dscp := beAt l (o + 1) 1 / 4, pflags := pf }
  | 4 => { w with sip := beAt l (o + 8) 16, dip := beAt l (o + 24) 16, proto := beAt l (o + 6) 1,
                  dscp := beAt l o 2 / 64 % 64, pflags := setFlag w.pflags 2 true }
  | 5 =>
    let frag := w.nextHdr == 44 && beAt l (o + 2) 2 % 8 % 2 + beAt l (o + 2) 2 / 8 != 0
    { w with proto := beAt l o 1, pflags := if frag then setFlag (setFlag w.pflags 6 true) 5 true else setFlag w.pflags 6 true }
  | 6 => { w with sport := beAt l o 2, dport := beAt l (o + 2) 2, pflags := setFlag w.pflags 3 true }
  | 7 => { w with sport := beAt l o 2, dport := beAt l (o + 2) 2, pflags := setFlag w.pflags 4 true }
  | 8 => { w with pflags := setFlag w.pflags 8 true }
  | 9 | 10 => { w with tun := beAt l (o + 4) 3, pflags := setFlag w.pflags 7 true }
  | 11 =>
    let f := beAt l o 2
    let at_ := o + 4 + (if bitAt f 15 then 4 else 0)
    { w with tun := if bitAt f 13 then beAt l (at_ + 1) 3 else 0, pflags := setFlag w.pflags 7 true }
  | _ => w

/-- An IPv4 header, or an IPv6 fragment header, of a datagram that is not whole. -/
def isFragment (l : Bytes) (o : Nat) : Bool := bitAt (beAt l (o + 6) 2) 13 || beAt l (o + 6) 2 % 8192 != 0
def isFragment6 (l : Bytes) (o : Nat) : Bool := beAt l (o + 2) 2 % 2 + beAt l (o + 2) 2 / 8 != 0

/-- What the walk notes of a header whatever its KEY_LAYER: where headers lie, and the tunnel boundary (R237). An ESP node sets
PFLAGS.TUNNEL whether or not its KEY_LAYER is set: R111 says of it that it fills no key field and sets the flag, and not whether
the flag waits for KEY_LAYER (DESIGN CHOICE, log entry 109). -/
def noteHeader (kind : Nat) (l : Bytes) (o len : Nat) (w : Walk) : Walk :=
  let ip := fun (w : Walk) stop => { w with
    firstIp := some (w.firstIp.getD o), lastIp := some o, ips := w.ips + 1, ipEnd := stop
    tunnel := if w.ips = 1 && w.tunnel.isNone then some (4, w.lastIp.getD 0, o) else w.tunnel }
  match kind with
  | 3 => { ip w (o + beAt l (o + 2) 2) with nextHdr := beAt l (o + 9) 1, outerFrag := if w.ips = 0 then isFragment l o else w.outerFrag }
  | 4 => { ip w (o + 40 + beAt l (o + 4) 2) with nextHdr := beAt l (o + 6) 1 }
  | 5 => { w with nextHdr := beAt l o 1,
                  outerFrag := w.outerFrag || (w.ips == 1 && w.nextHdr == 44 && isFragment6 l o) }
  | 6 | 7 => { w with l4 := some o }
  | 8 => { w with eme := some o }
  | 9 => { w with tunnel := some (1, o, o + len) }
  | 10 => { w with tunnel := some (2, o, o + len) }
  | 11 => { w with tunnel := some (3, o, o + len) }
  | 12 => { w with pflags := setFlag w.pflags 7 true }
  | _ => w

/-- A length rule of BAD_LENGTH that a header breaks (R113); `long` says the frame, counted without any VLAN tag, is
longer than 60 bytes before the FCS. -/
def badLength (kind : Nat) (l : Bytes) (o : Nat) (long : Bool) (w : Walk) : Bool :=
  let ip := fun stop => l.length < stop || (stop < l.length && long)
  match kind with
  | 3 => ip (o + beAt l (o + 2) 2)
  | 4 => ip (o + 40 + beAt l (o + 4) 2)
  | 6 => w.lastIp.isSome && o + beAt l (o + 4) 2 != w.ipEnd
  | _ => false

/-- One node of the walk: the walk with the header taken in and the next node's code, or a failure code of R113. Where several
failures meet at one node the first in this order is reported: TOO_DEEP, a length byte beyond the frame (HEAD_OVERRUN), a len of 0
(BAD_LENGTH), HEAD_OVERRUN, the other lengths, BAD_CHECKSUM. The spec gives no order (R113; DESIGN CHOICE, log entry 103). -/
def visitNode (g l : Bytes) (long : Bool) (node : Nat) (w : Walk) : Except Nat (Walk × Nat) :=
  if 16 ≤ w.visits then .error 2
  else
    let b := nodeAt g node
    let f := fun i n => leAt g (b + i) n
    let o := w.off
    let kind := f 0 1
    let flags := f 1 1
    if l.length ≤ o + f 4 1 && f 7 1 != 0 then .error 1
    else
      let len := f 2 2 + ((beAt l (o + f 4 1) 1 &&& f 5 1) / 2 ^ f 6 1) * f 7 1
      let reach := max (o + len) (max (if f 9 1 = 0 then 0 else o + f 8 1 + (f 9 1 + 7) / 8) (if f 11 1 = 0 then 0 else
          o + f 10 1 + (f 11 1 + 7) / 8))
      if len = 0 then .error 4
      else if 256 < o + len || l.length < reach then .error 1
      else if badLength kind l o long w then .error 4
      else if kind = 3 && bitAt flags 2 && onesSum (sliceB l o (4 * (beAt l o 1 % 16))) 0 != 65535 then .error 5
      else
        let w' := if bitAt flags 0 then fillKey kind l o w else w
        let w' := noteHeader kind l o len w'
        let sel := leadBits l (o + f 8 1) (f 9 1)
        let edge := if f 9 1 = 0 then none else (List.range (f 14 1)).find? (fun k =>
          let e := edgeAt g (f 12 2 + k)
          (sel &&& leAt g (e + 4) 4) == leAt g e 4)
        let next := match edge with
          | some k => leAt g (edgeAt g (f 12 2 + k) + 8) 1
          | none => f 15 1
        let w' := { w' with visits := w.visits + 1, off := o + len,
                            flex := if f 11 1 = 0 then w.flex else leadBits l (o + f 10 1) (f 11 1) }
        if bitAt flags 1 then .ok ({ w' with decrypt := some (o, kind, f 15 1) }, 0xFF)
        else .ok (w', next)

/-- The walk from a next code (R110): it ends at 0xFF, and 0xFE fails with NO_EDGE. -/
def walkGraph (g l : Bytes) (long : Bool) : Nat → Nat → Walk → Except Nat Walk
  | 0, _, _ => .error 2
  | n + 1, code, w =>
    if code = 0xFF then .ok w
    else if code = 0xFE then .error 3
    else match visitNode g l long code w with
      | .error c => .error c
      | .ok (w, next) => walkGraph g l long n next w

/-- The inner pass (R108): the walk resumes at the DECRYPT node's DEFAULT_NEXT and runs to its end. Step 3 comes once in a pass:
the walk goes past a further DECRYPT node, undecrypted, at that node's DEFAULT_NEXT, which the spec does not say (DESIGN CHOICE,
log entry 109). -/
def walkInner (g l : Bytes) (long : Bool) : Nat → Walk → Except Nat Walk
  | 0, _ => .error 2
  | n + 1, w =>
    match w.decrypt with
    | none => .ok w
    | some (_, _, next) =>
      match walkGraph g l long 18 next { w with decrypt := none } with
      | .error c => .error c
      | .ok w => walkInner g l long n w

/-! ## The key (R114, R115) -/

/-- Fields of the key, most significant first, as (width, value). -/
def keyFields (src func vrf : Nat) (w : Walk) : List (Nat × Nat) :=
  [(6, src), (12, func), (12, vrf), (12, w.pflags), (12, w.vlan), (3, w.pcp), (1, 0), (16, w.etype), (48, w.dmac),
   (8, w.proto), (6, w.dscp), (24, w.tun), (128, w.sip), (128, w.dip), (16, w.sport), (16, w.dport), (32, w.flex)]

/-- The 480-bit key. -/
def packKey (l : List (Nat × Nat)) : Nat := l.foldl (fun a p => a * 2 ^ p.1 + p.2 % 2 ^ p.1) 0

/-- A little-endian value of `n` words. -/
def State.wordsVal (s : State) (k : Nat) : Nat → Nat
  | 0 => 0
  | n + 1 => s.rd k + 2 ^ 32 * s.wordsVal (k + 4) n

/-- The lowest valid committed entry of pipeline `p` that matches (R117). -/
def State.classify (s : State) (p key : Nat) : Option Nat :=
  let base := 0x11400000 + 0x100000 * p
  (s.regs.filterMap (fun x =>
    if base ≤ x.1 && x.1 < base + 0x100000 && x.1 % 128 == 124 && bitAt x.2.toNat 31 then some ((x.1 - base) / 128) else none)).find?
    (fun i => (key ^^^ s.wordsVal (base + 128 * i) 15) &&& s.wordsVal (base + 128 * i + 60) 15 == 0)

/-- The ACTION of a committed entry, and a committed default of a source: 0 NO_MATCH, 1 PARSE_FAIL (R118, R121, R131). -/
def State.entryAction (s : State) (p i : Nat) : Nat := s.wordsVal (0x11400000 + 0x100000 * p + 128 * i + 120) 2
def State.defaultAction (s : State) (src which : Nat) : Nat := s.wordsVal (0x11D00000 + 16 * src + 8 * which) 2

/-- The flow is admitted, now or from the next tick on, whose first packets may come early (R79, R127). -/
def State.rtpOpen (s : State) (f : Nat) : Bool := s.flag (Reg.FLOW_ADMITTED f) || s.admittedAt f (s.tick + 1)

/-- The RTP map entry that an IPv4 UDP head matches, whose flow is admitted (R127). -/
def State.rtpFlow (s : State) (dip dport : Nat) : Option Nat :=
  (s.regs.filterMap (fun x =>
    if 0x11D10000 ≤ x.1 && x.1 < 0x11D12000 && x.1 % 8 == 0 && x.2.toNat / 65536 != 0 then some x.1 else none)).findSome? (fun k =>
      if s.rd k / 65536 == dport && s.rd (k + 4) == dip && s.rtpOpen (s.rd k % 65536) then some (s.rd k % 65536) else none)

/-! ## The distributor's look (R128) -/

/-- Offset of the EtherType past at most two VLAN tags. -/
def etypeOff (l : Bytes) : Nat :=
  let tag := fun o => beAt l o 2 == 0x8100 || beAt l o 2 == 0x88A8
  if tag 12 then (if tag 16 then 20 else 16) else 12

/-- The outer IP header of an Ethernet frame and the offset past it, where a UDP header stands there: of the fragments of a
datagram it stands in the first alone. -/
def outerUdp (l : Bytes) : Option (Nat × Nat) :=
  let e := etypeOff l
  let i := e + 2
  if beAt l e 2 = 0x0800 && beAt l (i + 9) 1 = 17 && beAt l (i + 6) 2 % 8192 = 0 then some (i, i + 4 * (beAt l i 1 % 16))
  else if beAt l e 2 = 0x86DD && beAt l (i + 6) 1 = 17 then some (i, i + 40)
  else none

/-- The distributor takes the head for media. -/
def State.looksMedia (s : State) (l : Bytes) : Bool :=
  beAt l (etypeOff l) 2 == s.get Reg.PCU_EME_CFG_ETYPE ||
  (match outerUdp l with
    | some (i, u) => beAt l (u + 2) 2 == s.get Reg.PCU_EME_CFG_UDP_PORT ||
        (ipVersion l i == 4 && (s.rtpFlow (beAt l (i + 16) 4) (beAt l (u + 2) 2)).isSome)
    | none => false)

end Sys2Proof.Machine
end

