-- ==== Sys2Proof/Machine/Media.lean ====
section
/-! DEFINITION. The receive side of media: the checks of R98, epochs (R100), RTP placement (R101, R102), the verdict (R83),
decryption at step 3, and the entry into the buffer at step 7. -/

namespace Sys2Proof.Machine

/-! ## Verdict and epoch -/

/-- Count a verdict in the flow and in TE's total (R83). -/
def State.countVerdict (s : State) (flow dev : Field) : State := (s.bumpSat flow).bump dev

/-- The verdict of R83 for tick `t` of flow `f`, at the current tick and offset: accepted or not. -/
def State.verdict (s : State) (f t : Nat) : Bool × State :=
  let n := s.tick
  let o := s.offset
  let late := fun (s : State) => (false, s.countVerdict (Reg.FLOW_LATE f) Reg.TE_LATE)
  let early := fun (s : State) => s.countVerdict (Reg.FLOW_EARLY f) Reg.TE_EARLY
  if !s.admittedAt f t then (false, s.countVerdict (Reg.FLOW_UNADMITTED f) Reg.TE_UNADMITTED)
  else if t = n then
    if s.closeOf f ≤ o then late s
    else if o < s.openOf f then (true, early s) else (true, s)
  else if t = n + 1 && s.period - s.get Reg.TE_WINDOW_CFG_LEAD_NS ≤ o then (true, early s)
  else if n < t then (false, s.countVerdict (Reg.FLOW_FUTURE f) Reg.TE_FUTURE)
  else late s

/-- RX_EPOCH, none where none is valid (R100). -/
def State.rxEpoch (s : State) (f : Nat) : Option Nat :=
  if s.flag (Reg.FLOW_RX_EPOCH_VALID f) then some (s.get (Reg.FLOW_RX_EPOCH f)) else none

/-- RX_EPOCH as it stood before any epoch was adopted in this tick (R100). -/
def State.epochBefore (s : State) (f : Nat) : Option Nat :=
  match (s.rt f).epochWas with
  | some (t, e) => if t = s.tick then e else s.rxEpoch f
  | none => s.rxEpoch f

/-- An epoch is newer than an adopted one, or none has been adopted (R99, R100). -/
def epochNewer (ep : Nat) (old : Option Nat) : Bool :=
  match old with | some e => serialNewer 8 ep e | none => true

/-- The epoch is stale: neither RX_EPOCH nor newer than it, nor newer than it stood before this tick's adoptions (R100). -/
def State.epochStale (s : State) (f ep : Nat) : Bool :=
  s.rxEpoch f != some ep && !epochNewer ep (s.rxEpoch f) && !epochNewer ep (s.epochBefore f)

/-- A newer epoch of an accepted and authenticated packet is adopted; of two in a tick the later adoption stands (R100). -/
def State.adoptEpoch (s : State) (f ep : Nat) : State :=
  if epochNewer ep (s.rxEpoch f) || epochNewer ep (s.epochBefore f) then
    let s := s.setRt f { s.rt f with epochWas := some (s.tick, s.epochBefore f) }
    (s.put (Reg.FLOW_RX_EPOCH f) ep).put (Reg.FLOW_RX_EPOCH_VALID f) 1
  else s

/-- A mismatch of flow `f` (R98). -/
def State.mismatch (s : State) (f : Nat) : State := s.bumpSat (Reg.FLOW_MISMATCH f)

/-- The packet's place was taken already, or it is taken now (R98). -/
def State.placed (s : State) (f t i : Nat) : Bool × State :=
  let r := s.rt f
  if r.seen.contains (t, i) then (false, s.bumpSat (Reg.FLOW_DUPLICATE f))
  else (true, s.setRt f { r with seen := (t, i) :: r.seen })

/-- What the checks of step 2 leave of a media head: its flow, tick, index, EME flags, the EME header, the payload with any
tag, and the payload's offset in the frame. -/
structure Accepted where
  flow : Nat
  tick : Nat
  index : Nat
  flags : Nat
  epoch : Option Nat
  header : Bytes
  body : Bytes
  at_ : Nat

/-- Verdict and duplicate check, last of all (R98, R83); RX_PKTS counts what passes. -/
def State.judge (s : State) (a : Accepted) : Option Accepted × State :=
  match s.verdict a.flow a.tick with
  | (false, s) => (none, s)
  | (true, s) =>
    match s.placed a.flow a.tick a.index with
    | (false, s) => (none, s)
    | (true, s) => (some a, s.bump (Reg.FLOW_RX_PKTS a.flow))

/-- receive_checks (R98) of an EME packet whose header lies at `e`; `untagged` is the frame's length before the FCS without
VLAN tags, and decides whether padding is allowed (R97). -/
def State.receiveChecks (s : State) (l : Bytes) (w : Walk) (e untagged : Nat) : Option Accepted × State :=
  let h := sliceB l e 16
  let f := beAt h 2 2
  let flags := beAt h 0 2 % 4096
  let i := beAt h 5 1
  let g := s.geometry f
  let enc := s.get (Reg.FLOW_ENC_IN f)
  let need := 16 + g.bytes i + tagBytes enc
  let udp := match w.l4 with | some u => u + 8 == e | none => false
  let bad := match w.l4, w.lastIp with | some u, some p => udp && udpBad l p u | _, _ => false
  let stop := if w.ips = 0 then l.length else w.ipEnd
  let pad := !udp && untagged ≤ 60
  if beAt h 0 1 / 16 ≠ 1 then (none, s.bump Reg.PCU_EME_BAD_VERSION)
  else if !(s.flag (Reg.FLOW_ADMITTED f) || s.flag (Reg.FLOW_PENDING f)) then
    (none, s.countVerdict (Reg.FLOW_UNADMITTED f) Reg.TE_UNADMITTED)
  else if bad then (none, s.mismatch f)
  else if g.packets ≤ i then (none, s.mismatch f)
  else if beAt h 12 1 != g.width i || beAt h 14 1 != g.spp || beAt h 13 1 / 16 != g.format
      || beAt h 13 1 % 16 != s.get (Reg.FLOW_RATE f) then (none, s.mismatch f)
  else if bitAt flags 7 != (enc != 0) then (none, s.mismatch f)
  else if bitAt flags 6 != (i + 1 == g.packets) then (none, s.mismatch f)
  else if stop - e < need then (none, s.mismatch f)
  else if need < stop - e && !pad then (none, s.mismatch f)
  else if s.epochStale f (beAt h 4 1) then (none, s.bumpSat (Reg.FLOW_STALE_EPOCH f))
  else s.judge ⟨f, beAt h 6 6, i, flags, some (beAt h 4 1), h, sliceB l (e + 16) (need - 16), e + 16⟩

/-- The media-clock sample of the moment, at the flow's rate (R71). -/
def State.sampleNow (s : State) (f : Nat) : Nat :=
  let n := (s.geometry f).samples
  s.tick * n + s.offset * n / s.period

/-- The media-clock sample of an RTP timestamp, the nearest to the present one (R102). -/
def State.rtpSample (s : State) (f ts : Nat) : Int :=
  let now := s.sampleNow f
  let a := (ts + 2 ^ 32 - s.get (Reg.FLOW_MEDIA_OFFSET f)) % 2 ^ 32
  now + toSigned 32 (a + 2 ^ 32 - now % 2 ^ 32)

/-- An RTP packet of flow `f` behind the UDP header at `u` (R97, R101, R102). P set with a padding count of 0 is no padding, and a
packet that R98 refuses as a duplicate moves neither RX_SEQ nor RX_PKTS: the spec says neither (DESIGN CHOICE, log entry 91). -/
def State.receiveRtp (s : State) (l : Bytes) (f i u : Nat) : Option Accepted × State :=
  let g := s.geometry f
  let r := u + 8
  let b0 := beAt l r 1
  let head := 12 + 4 * (b0 % 16)
  let head := if bitAt b0 4 then head + 4 + 4 * beAt l (r + head + 2) 2 else head
  let stop := u + beAt l (u + 4) 2
  let padLen := if bitAt b0 5 then beAt l (stop - 1) 1 else 0
  let body := sliceB l (r + head) (stop - padLen - (r + head))
  let k : Int := s.rtpSample f (beAt l (r + 4) 4)
  if udpBad l i u then (none, s.mismatch f)
  else if b0 / 64 ≠ 2 || beAt l (r + 1) 1 % 128 != s.get (Reg.FLOW_RTP_PT f)
      || (s.flag (Reg.FLOW_SSRC_CHECK f) && beAt l (r + 8) 4 != s.get (Reg.FLOW_RTP_SSRC f))
      || stop < r + head + padLen || body.length != g.channels * g.spp * sampleBytes g.format then (none, s.mismatch f)
  else if k % (g.spp : Int) ≠ 0 then (none, s.mismatch f)
  -- a tick before tick 0 is before every effective tick (R83)
  else if k < 0 then (none, s.countVerdict (Reg.FLOW_UNADMITTED f) Reg.TE_UNADMITTED)
  else
    let n := k.toNat
    match s.judge ⟨f, n / g.samples, n % g.samples / g.spp, 0, none, [], body, r + head⟩ with
    | (none, s) => (none, s)
    | (some x, s) =>
      let seq := beAt l (r + 2) 2
      (some x, s.when (serialNewer 16 seq (s.get (Reg.FLOW_RX_SEQ f))) (fun s => s.put (Reg.FLOW_RX_SEQ f) seq))

/-! ## Steps 3 to 7 -/

/-- Step 3 (R257, R100, R200): the plaintext samples; then the epoch is adopted, and OVR acts from the local tick of acceptance. -/
def State.mediaPayload (s : State) (a : Accepted) : Option Bytes × State :=
  let enc := s.get (Reg.FLOW_ENC_IN a.flow)
  let (p, s) := if enc = 0 || a.epoch.isNone then (some a.body, s)
    else s.emeDecrypt a.flow a.tick a.header a.body enc
  match p with
  | none => (none, s)
  | some x =>
    let s := match a.epoch with | some ep => s.adoptEpoch a.flow ep | none => s
    (some x, s.when (bitAt a.flags 11) (fun s => s.remoteOverride s.tick))

/-- Some admitted point has flow `f` as the input of a term. -/
def State.feedsPoint (s : State) (f : Nat) : Bool :=
  s.admittedPoints.any (fun p => (List.range (s.get (Reg.POINT_TERM_COUNT p))).any (fun i =>
    s.get (Reg.TERM_IN_FLOW (s.get (Reg.POINT_TERM_BASE p) + i)) == f))

/-- Functions whose CELLS pool a media packet of flow `f` is charged to: the sender of a host flow, and the owners of the
rings it goes to (R364). -/
def State.mediaCharged (s : State) (f : Nat) : List Nat :=
  let src := if s.get (Reg.FLOW_SRC_KIND f) = 1 then [s.get (Reg.FLOW_FUNC f)] else []
  (src ++ (s.dests f).filterMap (fun d => if d.toRing then s.ringOwner d.target else none)).eraseDups

/-- The flow passes steps 6 and 8 (R57, R229): RTU runs, or its source and every destination are of INTERNAL carriage. -/
def State.rtuServes (s : State) (f : Nat) : Bool :=
  s.running .rtu || (s.get (Reg.FLOW_SRC_KIND f) != 0 && (s.dests f).all (·.toRing))

/-- The fabric destinations of a packet of flow `f` (R160, R162): those of the flow, and the pleach engine's references. -/
def State.mediaTargets (s : State) (f : Nat) : List FrameDest :=
  (s.dests f).map (fun d => (⟨if d.toRing then .ring d.target else .port d.target, 0, d.rewrite⟩ : FrameDest)) ++
    (if s.feedsPoint f then [⟨.pleach, 0, 0⟩] else [])

/-- Step 7: the packet's cells, its record for the tick it belongs to, and its MEDIA descriptor in pipeline `pipe` (R23, R161,
R163, R170). It is released once by each destination and once by the pleach engine. -/
def State.bufferMedia (s : State) (a : Accepted) (pipe : Nat) (stamp : Stamp) (l samples : Bytes) : State :=
  let f := a.flow
  let charged := s.mediaCharged f
  match s.admitHead [] 8 (ceilDiv (l.length + 4) 256) charged with
  | (none, s) => s
  | (some h, s) =>
    let ds := s.mediaTargets f
    let s := s.storeFrame h ⟨0, 0, pipe, l, true, false, true, Walk.empty, [], max ds.length 1, charged, 0, ds, [], stamp, []⟩
    let s := if ds.isEmpty then s
      else { s with fpu := { s.fpu with voq := s.fpu.voq ++ [⟨pipe, true, ds.length != 1, h, ds, stamp⟩] } }
    let r := s.rt f
    s.setRt f { r with rx := r.rx ++ [⟨a.tick, a.index, samples, a.flags, h⟩] }

end Sys2Proof.Machine
end

