-- ==== Sys2Proof/Machine/Ports.lean ====
section
/-! DEFINITION. PXC: link states and reasons, pause, VLAN configuration, statistics, the management port's link (R271 to
R295). -/

namespace Sys2Proof.Machine

/-! ## Statistics (R290) -/

/-- A frame counted by its destination address: group address other than broadcast, or broadcast. -/
def State.statCast (s : State) (p mcast : Nat) (l : Bytes) : State :=
  if beAt l 0 6 = 2 ^ 48 - 1 then s.stat p (mcast + 1) 1 else if beAt l 0 1 % 2 = 1 then s.stat p mcast 1 else s

/-- What PCS and FEC have counted (R290). -/
def State.statLine (s : State) (p : Nat) (e : LineReport) : State :=
  ((s.stat p 9 e.corrected).stat p 10 e.uncorrected).stat p 11 e.pcs

/-- A frame received whole with a good FCS; `l` has none (R290). -/
def State.statRx (s : State) (p : Nat) (l : Bytes) : State :=
  ((s.stat p 0 (l.length + 4)).stat p 1 1).statCast p 2 l

/-! ## Link states (R274 to R276) -/

/-- The MAC sends Remote Fault: its port exists, PXC runs, and the port is not UP (R274). -/
def State.remoteFault (s : State) (p : Nat) : Bool := s.running .pxc && s.portState p != 0 && !s.portUp p

/-- REASON and OBS_POL take a value; a change to one of 4, 5, 6, a difference from the image, is logged and raised
(R275). -/
def State.setReason (s : State) (p reason pol : Nat) : State :=
  let old := s.get (Reg.PXC_PORT_STATUS_REASON p)
  let pol := if reason = 4 then pol else 0
  let s := (s.put (Reg.PXC_PORT_STATUS_REASON p) reason).put (Reg.PXC_PORT_STATUS_OBS_POL p) pol
  let pay := [(8, p), (8, reason), (8, pol)]
  s.when (old != reason && (reason == 4 || reason == 5 || reason == 6))
    (fun s => (s.hlog 6 2 (payload pay)).raise .pxc 3 pay)

/-- LINK_LOCK (R274): a DOWN port locks in its declared mode. -/
def execLinkLock (port : Fin 32) (s : State) : Host.Outcome State Fault Refusal :=
  if s.running .pxc && s.portState port = 1 then
    ok ({ s with pxc := { s.pxc with diag := s.pxc.diag.filter (· != port.val) } }.put (Reg.PXC_PORT_STATUS_STATE port) 2)
  else ok s

/-- LINK_UP (R274, R276): UP_HOLD_MS clean in HOLD. -/
def execLinkUp (port : Fin 32) (s : State) : Host.Outcome State Fault Refusal :=
  if s.running .pxc && s.portState port = 2 then
    ok (((s.put (Reg.PXC_PORT_STATUS_STATE port) 3).setReason port 0 0).raise .pxc 1 [(8, port.val)])
  else ok s

/-- LOCK_ATTEMPT_FAIL (R275): the attempt has lasted 500 ms, and the diagnostic receiver runs. -/
def execLockAttemptFail (port : Fin 32) (s : State) : Host.Outcome State Fault Refusal :=
  if s.running .pxc && s.portState port = 1 && !s.pxc.diag.contains port.val then
    ok { s with pxc := { s.pxc with diag := port.val :: s.pxc.diag } }
  else ok s

/-- DIAGNOSTIC_DONE (R275): what the diagnostic names, REASON `reason` + 1, and the lanes it saw inverted. -/
def execDiagnosticDone (port : Fin 32) (reason : Fin 9) (obsPol : Fin 16) (s : State) : Host.Outcome State Fault Refusal :=
  if s.pxc.diag.contains port.val then
    ok ({ s with pxc := { s.pxc with diag := s.pxc.diag.filter (· != port.val) } }.setReason port (reason.val + 1) obsPol)
  else ok s

/-- HOLD_LOCK_LOSS (R276): a port in HOLD returns to DOWN; nothing is raised or counted but its REASON. -/
def execHoldLockLoss (port : Fin 32) (reason : Fin 9) (s : State) : Host.Outcome State Fault Refusal :=
  if s.portState port = 2 then ok ((s.put (Reg.PXC_PORT_STATUS_STATE port) 1).setReason port (reason.val + 1) 0)
  else ok s

/-! ## Pause (R284, R285, R287) -/

/-- The bit that shows a pause. -/
def pauseField (p c : Nat) : Field :=
  if c = 8 then Reg.PXC_PORT_STATUS_PORT_PAUSED p else ⟨(Reg.PXC_PORT_STATUS_CLASS_PAUSED p).key, 24 + c, 24 + c⟩

/-- A pause begins; one in force goes on with its new time. -/
def State.startPause (s : State) (p c : Nat) : State :=
  if s.isPaused p c then s
  else
    let s := s.settle
    ({ s with pxc := { s.pxc with paused := Assoc.set s.pxc.paused (pauseKey p c) s.localNs } }).put (pauseField p c) 1

def State.endPause (s : State) (p c : Nat) : State :=
  if s.isPaused p c then
    let s := s.settle.when (c = 8) (fun s => s.accruePause p)
    ({ s with pxc := { s.pxc with paused := Assoc.erase s.pxc.paused (pauseKey p c) } }).put (pauseField p c) 0
  else s

/-- One pause time for the port or a class: 0 quanta end the pause. -/
def State.pauseFor (s : State) (p c quanta : Nat) : State :=
  if quanta = 0 then s.endPause p c else s.startPause p c

/-- A MAC control frame's effect (R284, R285): `body` runs from its opcode. A hold-off ignores what would pause. -/
def State.macControl (s : State) (p : Nat) (body : Bytes) : State :=
  let s := s.stat p 7 1
  let op := beAt body 0 2
  match s.get (Reg.PXC_PAUSE_CFG_MODE p) with
  | 0 => if op = 1 || op = 0x101 then s.stat p 8 1 else s
  | 1 =>
    if op = 1 then
      let q := beAt body 2 2
      if q != 0 && s.pxc.holdoff.contains (pauseKey p 8) then s.stat p 8 1 else s.pauseFor p 8 q
    else s
  | 2 =>
    if op = 0x101 then
      let named := (List.range 8).filter (fun c => bitAt (beAt body 2 2) c)
      let quanta := fun c => beAt body (4 + 2 * c) 2
      let held := fun c => quanta c != 0 && s.pxc.holdoff.contains (pauseKey p c)
      let s := if named.any held then s.stat p 8 1 else s
      (named.filter (fun c => !held c)).foldl (fun s c => s.pauseFor p c (quanta c)) s
    else s
  | _ => s

/-- PAUSE_FRAME (R284): a MAC control frame with opcode `op`; `enable` is PFC's class-enable vector and `quanta` its
eight times, of which PAUSE has the first alone. -/
def execPauseFrame (port : Fin 32) (offset : Nat) (op : BitVec 16) (enable : BitVec 16) (quanta : List (BitVec 16)) (s : State) :
    Host.Outcome State Fault Refusal :=
  let s := s.moment offset
  if s.running .pxc && s.portUp port then
    let q := quanta.flatMap (fun x => toBE 2 x.toNat)
    let body := toBE 2 op.toNat ++ (if op = 1 then q else toBE 2 enable.toNat ++ q)
    let frame := toBE 6 0x0180C2000001 ++ toBE 6 0 ++ toBE 2 0x8808 ++ body
    ok ((s.statRx port (frame ++ zeros (60 - frame.length))).macControl port body)
  else ok s

/-- PAUSE_END (R284): the quanta of a pause run out; class 8 is the port. -/
def execPauseEnd (port : Fin 32) (cls : Fin 9) (offset : Nat) (s : State) : Host.Outcome State Fault Refusal :=
  ok ((s.moment offset).endPause port cls)

/-- PAUSE_STORM (R285): a pause has held for WD_US; it ends, and the hold-off begins. -/
def execPauseStorm (port : Fin 32) (cls : Fin 9) (offset : Nat) (s : State) : Host.Outcome State Fault Refusal :=
  let s := s.moment offset
  if s.isPaused port cls then
    let s := s.endPause port cls
    let s := { s with pxc := { s.pxc with holdoff := (pauseKey port cls :: s.pxc.holdoff).eraseDups } }
    ok ((s.stat port 23 1).raise .pxc 4 [(8, port.val), (8, if cls.val = 8 then 0xFF else cls.val)])
  else ok s

/-- PAUSE_HOLDOFF_END (R285). -/
def execPauseHoldoffEnd (port : Fin 32) (cls : Fin 9) (s : State) : Host.Outcome State Fault Refusal :=
  ok { s with pxc := { s.pxc with holdoff := s.pxc.holdoff.filter (· != pauseKey port cls) } }

/-- Every pause of a port ends (R287). -/
def State.clearPauses (s : State) (p : Nat) : State := (List.range 9).foldl (fun s c => s.endPause p c) s

/-- PAUSE_MODE_WRITE (R284, R287): a word with MODE 3, WD_US below 100 or HOLDOFF_MS 0 is discarded whole; a mode that no
longer honours a pause ends it. -/
def State.writePause (s : State) (r : Requester) (p v : Nat) : State :=
  let k := (Reg.PXC_PAUSE_CFG_MODE p).key
  if !s.mayWrite r k || bits v 30 2 = 3 || bits v 12 18 < 100 || bits v 0 12 = 0 then s
  else
    let s := s.writeWord r k v
    let s := if bits v 30 2 = 1 then s else s.endPause p 8
    if bits v 30 2 = 2 then s else (List.range 8).foldl (fun s c => s.endPause p c) s

def execPauseModeWrite (r : Requester) (port : Fin 32) (v : Word) (s : State) : Host.Outcome State Fault Refusal :=
  ok (s.writePause r port v.toNat)

/-! ## Going down (R276, R208) -/

/-- EGU discards the frames that wait toward a port (R208). -/
def State.flushPort (s : State) (p : Nat) : State :=
  let gone := (s.egu.queues ++ s.egu.shaper.map (·.2)).filter (fun q => q.port == p)
  gone.foldl (fun s q => (s.dropQueued q).bump Reg.EGU_FLUSHED) s

/-- A frame whose transmission had begun stops at once (R276). -/
def State.abortTx (s : State) (p : Nat) : State :=
  match Assoc.get? s.egu.tx p with
  | none => s
  | some t =>
    let s := s.settle
    let s := { s with egu := { s.egu with tx := Assoc.erase s.egu.tx p } }
    ((s.stat p 20 1).payDebt t.debt).releaseWith t.handle t.head

/-- The link of port `p` has gone down: under AUTO_FLUSH a flush by that port joins the queue. Where one of the port still waits
there, it and its PORT_FLUSH answer for both: the spec does not say whether a second is queued (R150; DESIGN CHOICE, log entry 99). -/
def State.autoFlush (s : State) (p : Nat) : State :=
  if s.flag (Reg.FTU_PORT_CFG_AUTO_FLUSH p) && !s.ftu.flushQueue.contains p then
    { s with ftu := { s.ftu with flushQueue := s.ftu.flushQueue ++ [p] } }
  else s

/-- An UP port goes DOWN (R276, R287, R150). -/
def State.portDown (s : State) (p reason : Nat) : State :=
  let s := ((s.settle.put (Reg.PXC_PORT_STATUS_STATE p) 1).stat p 22 1).clearPauses p
  let s := (s.setReason p reason 0).raise .pxc 2 [(8, p), (8, reason)]
  (((s.abortTx p).flushPort p).autoFlush p).forgetPort p

/-- LINK_DOWN (R276): REASON is `reason` + 1. -/
def execLinkDown (port : Fin 32) (reason : Fin 9) (offset : Nat) (s : State) : Host.Outcome State Fault Refusal :=
  let s := s.moment offset
  if s.portUp port then ok (s.portDown port (reason.val + 1)) else ok s

/-! ## Configuration -/

/-- CT_BASE_WRITE (R280): the word of PXC_PORT_CFG; a CT_BASE of 7 discards it, and a CT_BASE written sets CT_STEP. -/
def State.writeCtBase (s : State) (r : Requester) (p v : Nat) : State :=
  let k := (Reg.PXC_PORT_CFG_CT_BASE p).key
  if !s.mayWrite r k || bits v 21 3 = 7 then s
  else (s.writeWord r k v).put (Reg.PXC_PORT_STATUS_CT_STEP p) (bits v 21 3)

def execCtBaseWrite (r : Requester) (port : Fin 32) (v : Word) (s : State) : Host.Outcome State Fault Refusal :=
  ok (s.writeCtBase r port v.toNat)

/-- The key of PXC_VLAN_CFG or PXC_PCP_MAP of a port, and the bits a write can change. -/
def vlanKey (pcp : Bool) (p : Nat) : Nat := if pcp then (Reg.PXC_PCP_MAP_PCP p).key else (Reg.PXC_VLAN_CFG_PVID p).key
def vlanMask (pcp : Bool) : Nat := if pcp then 0xFFFFFF else 0xF7700FFF

def State.acceptVlan (s : State) (key v tick : Nat) : State :=
  { s with pxc := { s.pxc with pending := s.pxc.pending ++ [(key, v, tick)] } }

/-- VLAN_CFG_WRITE (R282): scheduled for tick + 2, and carried. -/
def State.writeVlan (s : State) (r : Requester) (pcp : Bool) (p v : Nat) : State :=
  let k := vlanKey pcp p
  if !s.mayWrite r k || (!pcp && 2 ≤ bits v 28 2) then s
  else s.localOnly (fun s =>
    let w := v &&& vlanMask pcp
    (s.acceptVlan k w (s.tick + 2)).carry (s.tick + 2) (.vlan k (BitVec.ofNat 32 w)))

def execVlanCfgWrite (r : Requester) (port : Fin 32) (pcp : Bool) (v : Word) (s : State) : Host.Outcome State Fault Refusal :=
  ok (s.writeVlan r pcp port v.toNat)

/-- VLAN_CFG_EFFECTIVE (R282): the first accepted write whose tick has come takes effect. -/
def execVlanCfgEffective (s : State) : Host.Outcome State Fault Refusal :=
  match s.pxc.pending with
  | (k, v, t) :: rest => if s.tick < t then ok s else ok ({ s with pxc := { s.pxc with pending := rest } }.wr k v)
  | [] => ok s

/-! ## Snapshots (R291) -/

/-- SNAP: the request; discarded while BUSY. -/
def State.snap (s : State) (r : Requester) : State :=
  if !s.mayWrite r Reg.PXC_STATS_CTL_BUSY.key || s.flag Reg.PXC_STATS_CTL_BUSY then s
  else { (s.put Reg.PXC_STATS_CTL_BUSY 1).put Reg.PXC_STATS_CTL_SNAP 1 with pxc := { s.pxc with snapTick := s.tick } }

def execSnap (r : Requester) (s : State) : Host.Outcome State Fault Refusal := ok (s.snap r)

/-- STATS_DONE: the selected ports' slots are copied, with TICK_ALIGN in the first cycle of a later tick. -/
def execStatsDone (s : State) : Host.Outcome State Fault Refusal :=
  let align := s.flag Reg.PXC_STATS_CTL_TICK_ALIGN
  if !s.flag Reg.PXC_STATS_CTL_BUSY || (align && s.tick ≤ s.pxc.snapTick) then ok s
  else
    let ports := onesOf (s.get Reg.PXC_STATS_PORTS) 32
    let s := ports.foldl (fun s p => (s.accruePause p)) s
    let s := ports.foldl (fun s p => (List.range 32).foldl (fun s i => s.put (shadowField p i) (s.get (statField p i))) s) s
    let s := (s.put Reg.PXC_STATS_SNAP_TICK_TICK s.tick).put Reg.PXC_STATS_SNAP_OFFSET_OFFSET (if align then 0 else s.offset)
    ok (((s.put Reg.PXC_STATS_CTL_BUSY 0).put Reg.PXC_STATS_CTL_SNAP 0).raise .pxc 6 [])

/-! ## The management port (R292) -/

/-- MGMT_LINK_CHANGE: the link comes up, or goes down with a reason, of which 10 is an SGMII speed that differs from the
declared one. -/
def execMgmtLinkChange (up : Bool) (reason : Fin 11) (s : State) : Host.Outcome State Fault Refusal :=
  if !s.powered then ok s
  else
  let was := s.flag Reg.SUP_MGMT_STATUS_UP
  let old := s.get Reg.SUP_MGMT_STATUS_REASON
  if up then
    ok (((s.put Reg.SUP_MGMT_STATUS_UP 1).put Reg.SUP_MGMT_STATUS_REASON 0).when (!was) (fun s => s.raise .pxc 1 [(8, 0xFF)]))
  else if reason.val = 10 && s.get Reg.SUP_MGMT_CFG_MODE = 0 then ok s
  else
    let s := (s.put Reg.SUP_MGMT_STATUS_UP 0).put Reg.SUP_MGMT_STATUS_REASON reason
    let s := s.when was (fun s => s.raise .pxc 2 [(8, 0xFF), (8, reason.val)])
    let pay := [(8, 0xFF), (8, reason.val), (8, 0)]
    ok (s.when ((reason.val = 10 || (4 ≤ reason.val && reason.val ≤ 6)) &&
      old != reason.val) (fun s => (s.hlog 6 0 (payload pay)).raise .pxc 3 pay))

end Sys2Proof.Machine
end

