-- ==== Sys2Proof/Machine/Ingress.lean ====
section
/-! DEFINITION. From the MAC to the fabric: receive checks, the distributor, a head's passage through a pipeline, forwarding
and learning, copies and mirrors, the reorder stage (R107 to R130, R134 to R147, R277 to R283). -/

namespace Sys2Proof.Machine

/-! ## The distributor (R128 to R130) -/

/-- Best-effort heads of a source between the distributor and the reorder output. -/
def State.inFlight (s : State) (src : Nat) : Nat :=
  (s.pcu.queue.filter (fun h => h.src == src && !h.media && h.pipe < 4)).length + (s.pcu.reorder.filter (·.src == src)).length

/-- The pipeline that takes the next best-effort head of a source, one with fewer than 32 heads from its pointer on. -/
def State.nextPipe (s : State) (src : Nat) : Option Nat :=
  let p0 := Assoc.getD s.pcu.pointer src 0
  ((List.range 4).map (fun i => (p0 + i) % 4)).find? (fun p => (s.pcu.queue.filter (·.pipe == p)).length < 32)

/-- The head at place `i` of the queue, still waiting ahead of the distributor (`pipe` 4), is given its number and
pipeline, if no earlier head of its source waits and there is room (R129). -/
def State.pumpOne (s : State) (i : Nat) : State :=
  match s.pcu.queue[i]? with
  | none => s
  | some h =>
    if h.pipe != 4 || (s.pcu.queue.take i).any (fun x => x.pipe == 4 && x.src == h.src) || 4096 ≤ s.inFlight h.src then s
    else match s.nextPipe h.src with
      | none => s
      | some p =>
        let n := Assoc.getD s.pcu.nextSeq h.src 0
        let s := { s with pcu := { s.pcu with
          queue := s.pcu.queue.set i { h with pipe := p, seq := n }
          nextSeq := Assoc.set s.pcu.nextSeq h.src ((n + 1) % 65536)
          pointer := Assoc.set s.pcu.pointer h.src ((p + 1) % 4) } }
        let m := s.inFlight h.src
        s.when (s.get (Reg.PCU_REORDER_HWM_HWM h.src) < m) (fun s => s.put (Reg.PCU_REORDER_HWM_HWM h.src) m)

def State.pump (s : State) : State := (List.range s.pcu.queue.length).foldl (fun s i => s.pumpOne i) s

/-- A head enters the distributor; media goes to its home pipeline at once. -/
def State.distribute (s : State) (h : HeadIn) (home : Nat) : State :=
  ({ s with pcu := { s.pcu with queue := s.pcu.queue ++ [if h.media then { h with pipe := home } else { h with pipe := 4 }] } }).pump

/-! ## FRAME_ARRIVAL -/

/-- How many VLAN tags follow the addresses of a frame. -/
def tagCount (l : Bytes) : Nat := (etypeOff l - 12) / 4

/-- RX_STRIP (R281): the frame, and the VLAN ID and PCP handed to PCU. An untagged frame's are PVID and DEF_PCP, as R281 has it;
R114 says 0 without a tag, and the two conflict (DESIGN CHOICE, log entry 109). -/
def State.stripTag (s : State) (p : Nat) (l : Bytes) : (Bytes × Nat × Nat) × State :=
  let pvid := s.get (Reg.PXC_VLAN_CFG_PVID p)
  let def_ := s.get (Reg.PXC_VLAN_CFG_DEF_PCP p)
  let tpid := if s.flag (Reg.PXC_VLAN_CFG_STAG p) then 0x88A8 else 0x8100
  if s.flag (Reg.PXC_VLAN_CFG_RX_STRIP p) && beAt l 12 2 == tpid then
    let tci := beAt l 14 2
    ((l.take 12 ++ l.drop 16, if tci % 4096 = 0 then pvid else tci % 4096, tci / 8192), s.stat p 12 1)
  else ((l, pvid, def_), s)

/-- A PTP message of a profile: EtherType 0x88F7, or UDP to port 319 or 320 (R64; both numbers are PTP's own, PRESUMED, log entry
95). -/
def isPtp (profile : Nat) (l : Bytes) : Bool :=
  if beAt l (etypeOff l) 2 = 0x88F7 then transportOk profile .ethernet
  else match outerUdp l with
    | some (i, u) => (beAt l (u + 2) 2 == 319 || beAt l (u + 2) 2 == 320) &&
        transportOk profile (if ipVersion l i = 4 then .udp4 else .udp6)
    | none => false

/-- A frame past the MAC (R128, R277, R281, R283, R302): the tag, MACsec, and what PCU hands to HGC or TE. -/
def State.receive (s : State) (p : Nat) (l : Bytes) (good : Bool) : State :=
  let (stamp, s) := s.rxStamp
  let ((l, vid, pcp), s) := s.stripTag p l
  let (m, s) := if s.macsecOn p then s.macsecIn p l else (some (l, false, true), s)
  match m with
  | none => s
  | some (l, secured, auth) =>
    let ptp := bitAt (s.get Reg.TE_PTP_PORTS) p && isPtp (s.get Reg.TE_CFG_PROFILE) l
    if good && auth && (beAt l (etypeOff l) 2 = 0x88B7 || ptp) then s
    else
      let media := s.looksMedia l
      -- media is only ever discarded where its FCS or MACsec check fails (R278, R265)
      if !s.running .pcu || (media && !(good && auth)) then s
      else s.distribute ⟨p, 0, l, l.length - 4 * tagCount l, vid, pcp, secured, good, !auth, media, none, none, 0, 0, stamp⟩ (s.homePipe 0 p)

/-- FRAME_ARRIVAL (R277, R278, R284, R288, R290): a frame whose first bit is at the port now; `frame` is the frame without its FCS,
`line` says whether the FCS is good, and what PCS and FEC count. A frame beyond the MTU is cut off and errored. -/
def execFrameArrival (port : Fin 32) (offset : Nat) (frame : Bytes) (line : LineReport) (s : State) : Host.Outcome State Fault Refusal :=
  let s := s.moment offset
  let p := port.val
  let len := frame.length + 4
  let tooLong := decide (s.get (Reg.PXC_PORT_CFG_MTU p) < len)
  let s := s.when (s.running .pxc) (fun s => s.statLine p line)
  if !(s.running .pxc && s.portUp p) then ok s
  else if len < 64 then ok (s.stat p 5 1)
  else
    let good := line.fcsOk && !tooLong
    let s := if tooLong then s.stat p 6 1 else if line.fcsOk then s.statRx p frame else s.stat p 4 1
    if beAt frame 12 2 = 0x8808 then ok (if good then s.macControl p (frame.drop 14) else s)
    else ok (s.receive p (if tooLong then frame.take (s.get (Reg.PXC_PORT_CFG_MTU p) - 4) else frame) good)

/-! ## Lookups (R134 to R147) -/

/-- What forwarding decides for a best-effort head: destinations, none where it is dropped. -/
structure Forward where
  dests : List FrameDest
  /-- the head is trapped to SUP, or goes to it as next hop -/
  tc : Nat

/-- A destination from KIND 0 MAC port or 1 host RX ring. -/
def targetOf (kind target : Nat) : Target := if kind = 1 then .ring target else .port target

/-- The members of a list as best-effort destinations, a flood without its ingress port (R146, R162, R164). -/
def State.listTargets (s : State) (l tc : Nat) (skip : Option Nat) : List FrameDest × State :=
  if 8191 < l then ([], s.bump Reg.FPU_BAD_LIST)
  else ((s.listDests l).filterMap (fun d =>
    if !d.toRing && skip == some d.target then none else some ⟨targetOf (bit d.toRing) d.target, tc, d.rewrite⟩), s)

/-- The lengths at which a VRF and family hold a valid committed prefix, longest first (R142). -/
def State.lengths (s : State) (vrf fam : Nat) : List Nat :=
  ((List.range 129).filter (fun n => s.ftu.lpm.any (fun x => x.validNow && x.vrf == vrf && x.fam == fam && x.len == n))).reverse

/-- lpm_lookup (R142, R143): the slot that holds the next hop's index, the probe that hit, and how many probes there were. -/
def State.lpmLookup (s : State) (vrf fam a : Nat) : Option LpmSlot × State :=
  let lens := s.lengths vrf fam
  let hit := lens.findIdx? (fun n => s.ftu.lpm.any (fun x =>
    x.validNow && x.vrf == vrf && x.fam == fam && x.len == n && x.addr == maskAddr fam n a))
  let probes := match hit with | some i => i + 1 | none => lens.length
  let s := s.bumpBy Reg.FTU_RECIRC ((probes - 1) / 8)
  match hit with
  | none => (none, s.bump Reg.FTU_LPM_MISS)
  | some i =>
    let n := lens.getD i 0
    (s.ftu.lpm.find? (fun x => x.validNow && x.vrf == vrf && x.fam == fam && x.len == n && x.addr == maskAddr fam n a), s)

/-- The egress of KIND, TARGET and REWRITE in the coding of next hops: 3 and 5 to 7 drop, 4 goes to SUP (R144). -/
def State.egressOf (s : State) (kind target rewrite tc : Nat) : List FrameDest × State :=
  match kind with
  | 0 => ([⟨.port target, tc, rewrite⟩], s)
  | 1 => ([⟨.ring target, tc, rewrite⟩], s)
  | 2 => s.listTargets target tc none
  | 4 => ([⟨.sup, tc, rewrite⟩], s)
  | _ => ([], s)

/-- LOOKUP 1 (R142, R144), in the tables of the head's pipeline. A copy there that a fault has made differ cannot be corrected, and
its head is dropped (R156; here and below, DESIGN CHOICE, log entry 101). -/
def State.forwardLpm (s : State) (pipe vrf tc : Nat) (w : Walk) : List FrameDest × State :=
  let fam := if bitAt w.pflags 2 then 1 else 0
  if !bitAt w.pflags 1 && !bitAt w.pflags 2 then ([], s.bump Reg.FTU_LPM_MISS)
  else match s.lpmLookup vrf fam w.dip with
    | (none, s) => ([], s)
    | (some x, s) =>
      let n := x.nhNow
      let w0 := s.rd (0x12A00000 + 0x100000 * pipe + 16 * n)
      let w1 := s.rd (0x12A00004 + 0x100000 * pipe + 16 * n)
      if (s.badCopy 1 (lpmIndex x) pipe).isSome then ([], s.eccDrop pipe 1 (lpmIndex x) noFault false)
      else if (s.badCopy 2 n pipe).isSome then ([], s.eccDrop pipe 2 n noFault false)
      else if !bitAt w0 31 then ([], s.bump Reg.FTU_BAD_LOOKUP)
      else s.egressOf (bits w0 28 3) (bits w0 0 17) (w1 / 65536) (if bitAt w1 3 then w1 % 8 else tc)

/-- An unexpired learned slot, or a static slot valid in the committed bank, as KIND and TARGET (R146). -/
def State.macLookup (s : State) (pipe vlan mac : Nat) : Option (Nat × Nat) :=
  match s.ftu.macStatic.find? (fun x => x.validNow && x.vlan == vlan && x.mac == mac) with
  | some x => some (x.kindNow, x.targetNow)
  | none => (s.ftu.macLearned.find? (fun x => x.pipe == pipe && x.vlan == vlan && x.mac == mac && !s.macExpired x)).map
      (fun x => (0, x.port))

/-- LOOKUP 2 (R146): the entry's egress, or the VLAN's flood list without the ingress port. -/
def State.forwardMac (s : State) (pipe src tc : Nat) (w : Walk) : List FrameDest × State :=
  match (s.ftu.macStatic.find? (fun x => x.vlan == w.vlan && x.mac == w.dmac && (s.badCopy 3 (macIndex x) pipe).isSome)) with
  | some x => ([], s.eccDrop pipe 3 (macIndex x) noFault false)
  | none =>
  match s.macLookup pipe w.vlan w.dmac with
  | some (3, _) => ([], s)
  | some (k, t) => s.egressOf k t 0 tc
  | none =>
    let s := s.bump Reg.FTU_MAC_MISS
    let f := s.rd (0x12E00000 + 0x4000 * pipe + 4 * w.vlan)
    if (s.badCopy 4 w.vlan pipe).isSome then ([], s.eccDrop pipe 4 w.vlan noFault false)
    else if bitAt f 31 then s.listTargets (bits f 0 17) tc (some src) else ([], s)

/-- learn (R147): the state, and whether the head is dropped. An expired slot of another key counts as free (R152). One of this key
is found and refreshed in place, counting FTU_MAC_MOVE where its port differs: whether expiry hides it from find_any the spec does
not say (DESIGN CHOICE, log entry 109). -/
def State.learn (s : State) (pipe vlan smac port : Nat) : Bool × State :=
  match s.ftu.macStatic.find? (fun x => x.vlan == vlan && x.mac == smac) with
  | some x =>
    if x.validNow && !(x.kindNow == 0 && x.targetNow == port) then
      (s.flag (Reg.FTU_PORT_CFG_STATIC_MOVE_DROP port),
        (s.bump Reg.FTU_STATIC_MOVE).oncePerTick 0x402 (fun s => s.raise .ftu 2 []))
    else (false, s)
  | none =>
    let now := s.get Reg.FTU_AGE_NOW
    let put := fun (s : State) (x : MacLearned) (place : MacLearned → Bool) =>
      ({ s with ftu := { s.ftu with macLearned := x :: s.ftu.macLearned.filter (fun y => !place y) } }).countSlots
    let mine := fun (y : MacLearned) => y.pipe == pipe && y.vlan == vlan && y.mac == smac
    match s.ftu.macLearned.find? mine with
    | some x =>
      let s := s.when (x.port != port) (fun s => s.bump Reg.FTU_MAC_MOVE)
      (false, put s { x with port := port, stamp := now } mine)
    | none =>
      let cs := macCandidates vlan smac
      let free := cs.find? (fun c => s.macFree pipe c || s.ftu.macLearned.any (fun y => y.at pipe c && s.macExpired y))
      let oldest := s.oldestLearned pipe cs
      match free, oldest with
      | some c, _ => (false, put s ⟨pipe, c.1, c.2, vlan, smac, port, now⟩ (fun y => y.at pipe c))
      | none, some z => (false, put s ⟨pipe, z.bucket, z.way, vlan, smac, port, now⟩ (fun y => y.at pipe (z.bucket, z.way)))
      | none, none => (false, (s.bump Reg.FTU_LEARN_FULL).oncePerTick 0x403 (fun s => s.raise .ftu 3 []))

/-- Learning from a head (R147): the destinations that are left to it. SMAC is taken from bytes 6 to 11 of the frame, the outer
Ethernet header's, also where the key's Ethernet layer is an inner one: the spec does not say whose it is (DESIGN CHOICE, log entry
109). -/
def State.learnHead (s : State) (h : HeadIn) (l : Bytes) (w : Walk) (ds : List FrameDest) : List FrameDest × State :=
  let smac := beAt l 6 6
  if h.src < 32 && s.flag (Reg.FTU_PORT_CFG_LEARN_EN h.src) && smac != 0 && !bitAt (beAt l 6 1) 0 then
    let (drop, s) := s.learn h.pipe w.vlan smac h.src
    (if drop then [] else ds, s)
  else (ds, s)

/-- The destinations a FORWARD action gives a best-effort head (R134). -/
def State.forward (s : State) (h : HeadIn) (a : Nat) (w : Walk) : List FrameDest × State :=
  let tc := bits a 48 3
  match bits a 51 2 with
  | 0 => ([], s.bump Reg.FTU_BAD_LOOKUP)
  | 1 => s.forwardLpm h.pipe (bits a 36 12) tc w
  | 2 => s.forwardMac h.pipe h.src tc w
  | _ => ([⟨targetOf (bits a 18 1) (bits a 19 17), tc, 0⟩], s)

/-! ## Copies (R119, R122) -/

/-- A copy under a cap per tick. -/
def State.capped (s : State) (made cap : Nat) (note : State → State) : Bool × State :=
  let (yes, s) := if made < cap then (true, note s) else (false, s.bump Reg.PCU_COPY_DROP)
  (yes, s.when (cap ≤ made + bit yes) (fun s => s.oncePerTick 0x305 (fun s => s.raise .pcu 5 [])))

/-- The copies that an action orders. -/
def State.copies (s : State) (a : Nat) : List FrameDest × State :=
  let tc := bits a 48 3
  let (sup, s) := if bitAt a 59 then
      s.capped s.pcu.supCopies (s.get Reg.PCU_COPY_LIMIT_SUP_PER_TICK)
        (fun s => { s with pcu := { s.pcu with supCopies := s.pcu.supCopies + 1 } })
    else (false, s)
  let (host, s) := if bitAt a 58 then
      s.capped s.pcu.hostCopies (s.get Reg.PCU_COPY_LIMIT_HOST_PER_TICK)
        (fun s => { s with pcu := { s.pcu with hostCopies := s.pcu.hostCopies + 1 } })
    else (false, s)
  let m := bits a 53 4
  let mirror := bitAt a 57 && s.flag (Reg.PCU_MIRROR_SESS_EN m)
  ((if sup then [⟨.sup, tc, 0⟩] else []) ++ (if host then [⟨.ring (s.get Reg.PCU_HOST_COPY_RING), tc, 0⟩] else []) ++
    (if mirror then [⟨targetOf (s.get (Reg.PCU_MIRROR_SESS_DKIND m)) (s.get (Reg.PCU_MIRROR_SESS_DEST m)),
      s.get (Reg.PCU_MIRROR_SESS_TC m), 0⟩] else []), s)

/-! ## The action of a head (R117, R121) -/

/-- The action of a head whose key is complete: its entry's, counted there, or the source's NO_MATCH. -/
def State.actionOf (s : State) (h : HeadIn) (w : Walk) : Nat × State :=
  let key := packKey (keyFields h.src h.func (s.get (Reg.PCU_SRC_VRF_VRF h.src)) w)
  match s.classify h.pipe key with
  | some i => (s.entryAction h.pipe i, s.bump ⟨0x11800000 + 0x10000 * h.pipe + 8 * i, 63, 0⟩)
  | none => (s.defaultAction h.src 0, s.bump Reg.PCU_NO_MATCH)

/-- The error of a lookup in the classifier, an entry, and one in FTU's tables. -/
def classFault (b : Option LookupFault) : Option Nat := b.bind (fun e => if e.table = 6 then some (e.index % 8192) else none)
def ftuFault (b : Option LookupFault) : Option LookupFault := b.filter (fun e => e.table != 6)

/-- The action of a head that meets `b` in its lookup: a classifier copy that cannot be read gives the source's PARSE_FAIL, and the
entry is repaired (R121, R431). -/
def State.lookupAction (s : State) (h : HeadIn) (w : Walk) (b : Option LookupFault) : Nat × State :=
  match classFault b with
  | some e => (s.defaultAction h.src 1, (s.eccUncorr 3 1).replicaRepair h.pipe e)
  | none => s.actionOf h w

def isForward (a : Nat) : Bool := bits a 60 3 == 1

/-! ## Into the buffer (R166, R169, R170) -/

/-- The rate of a head's ingress, in Gb/s; none for a source other than a MAC port. -/
def State.ingressRate (s : State) (src : Nat) : Option Nat := if src < 32 then some (s.portRate src) else none

/-- R26 as far as a head can meet it: a network port no faster than the ingress, with nothing queued. -/
def State.mayCut (s : State) (src : Nat) (d : FrameDest) : Bool :=
  match d.target, s.ingressRate src with
  | .port p, some r => s.portRate p ≤ r && !s.egu.queues.any (fun q => q.port == p && q.dest.tc == d.tc)
  | _, _ => false

/-- Functions whose CELLS pool a best-effort frame is charged to (R364). -/
def State.frameCharged (s : State) (h : HeadIn) (ds : List FrameDest) : List Nat :=
  ((if h.src = 33 then [h.func] else []) ++ ds.filterMap (fun d =>
    match d.target with | .ring r => s.ringOwner r | _ => none)).eraseDups

/-- A head's frame with its destinations enters the buffer: its handle, or none where it is dropped. R170 admits a head of one
class; that of a head whose copies differ in class is the greatest of theirs (DESIGN CHOICE, log entry 109). -/
def State.admitFrame (s : State) (h : HeadIn) (w : Walk) (good authBad : Bool) (l : Bytes) (ds cs : List FrameDest) : Option Nat × State :=
  let all := ds ++ cs
  if all.isEmpty then (none, s)
  else
    let cut := all.any (s.mayCut h.src)
    let len := if cut then s.get (Reg.PXC_PORT_CFG_MTU h.src) else l.length + 4
    let charged := s.frameCharged h all
    let qs := all.map (fun d => (d.target.num, d.tc))
    match s.admitHead qs ((all.map (·.tc)).foldl max 0) (ceilDiv len 256) charged with
    | (none, s) => (none, s)
    | (some n, s) => (some n, s.storeFrame n ⟨h.src, h.func, h.pipe, l, good, authBad, false, w, [], all.length, charged, len, ds,
        cs, h.stamp, []⟩)

/-- The descriptors of a frame enter its pipeline's queues: one multicast, or unicasts (R161, R162). -/
def State.enqueueFrame (s : State) (n : Nat) : State :=
  match s.frame? n with
  | none => s
  | some f =>
    let uni := fun (d : FrameDest) => (⟨f.pipe, false, false, n, [d], f.stamp⟩ : Desc)
    let main := if f.dests.length = 1 then f.dests.map uni else if f.dests.isEmpty then [] else [⟨f.pipe, false, true, n, f.dests, f.stamp⟩]
    { s with fpu := { s.fpu with voq := s.fpu.voq ++ main ++ f.copyDests.map uni } }

/-! ## The reorder stage (R130) -/

/-- Heads that were discarded give up their places. -/
def State.skipMarkers (s : State) (src : Nat) : Nat → State
  | 0 => s
  | k + 1 =>
    let n := Assoc.getD s.pcu.released src 0
    if s.pcu.reorder.any (fun r => r.src == src && r.seq == n && r.handles.isEmpty) then
      ({ s with pcu := { s.pcu with
          reorder := s.pcu.reorder.filter (fun r => !(r.src == src && r.seq == n))
          released := Assoc.set s.pcu.released src ((n + 1) % 65536) } }).skipMarkers src k
    else s

/-- A best-effort head leaves its pipeline with what it sends. -/
def State.toReorder (s : State) (h : HeadIn) (handle : Option Nat) : State :=
  let s := { s with pcu := { s.pcu with reorder := s.pcu.reorder ++ [(⟨h.src, h.seq, h.pipe, handle.toList⟩ : Release)] } }
  (s.skipMarkers h.src s.pcu.reorder.length).pump

/-- REORDER_RELEASE (R130): the next head of a source goes to the fabric. -/
def execReorderRelease (src : Fin 35) (s : State) : Host.Outcome State Fault Refusal :=
  let n := Assoc.getD s.pcu.released src 0
  match s.pcu.reorder.find? (fun r => r.src == src.val && r.seq == n) with
  | none => ok s
  | some r =>
    let s := { s with pcu := { s.pcu with
      reorder := s.pcu.reorder.filter (fun x => !(x.src == src.val && x.seq == n))
      released := Assoc.set s.pcu.released src ((n + 1) % 65536) } }
    let s := r.handles.foldl (fun s h => s.enqueueFrame h) s
    ok ((s.skipMarkers src s.pcu.reorder.length).pump)

/-! ## PIPELINE_HEAD_ACCEPT -/

/-- Bits of PFLAGS that stand before the walk: MEDIA and MACSEC (R115). -/
def startWalk (h : HeadIn) : Walk :=
  { Walk.empty with vlan := h.vlan, pcp := h.pcp, pflags := bit h.media * 2 ^ 10 + bit h.macsec * 2 ^ 11 }

/-- A parse failure is counted under its code, PCU_PARSE_ERR1 to 5 (R113). -/
def State.parseFailed (s : State) (c : Nat) : State := s.bump (Reg.PCU_PARSE_ERR (c - 1))

/-- A TCP head of a storage connection that is not CLOSED goes to SIE ahead of classification (R404, R406). -/
def State.sieTakes (s : State) (src : Nat) (l : Bytes) (w : Walk) : Bool :=
  bitAt w.pflags 4 && (s.regs.filter (fun x => 0x0D100000 ≤ x.1 && x.1 < 0x0D180000 && x.1 % 64 == 0 && x.2.toNat / 2 ^ 29 != 0)).any
    (fun x =>
      let c := (x.1 - 0x0D100000) / 64
      let addr := fun k => s.rd k + 2 ^ 32 * s.rd (k + 4) + 2 ^ 64 * (s.rd (k + 8) + 2 ^ 32 * s.rd (k + 12))
      w.lastIp.any (fun o => ipVersion l o == if s.flag (Reg.CONN_FAM c) then 6 else 4) &&
        s.get (Reg.CONN_VRF c) == s.get (Reg.PCU_SRC_VRF_VRF src) && s.get (Reg.CONN_LPORT c) == w.dport && s.get (Reg.CONN_RPORT c) == w.sport &&
        addr (Reg.CONN_LADDR c).key == w.dip && addr (Reg.CONN_RADDR c).key == w.sip)

/-- The class of a host frame: its action word gives one, and so does its TX descriptor, and the spec does not say which
stands; it is one of the two (DESIGN CHOICE, log entry 30). -/
def State.classed (s : State) (h : HeadIn) (a : Nat) : Nat × State :=
  match h.tc with
  | none => (a, s)
  | some c =>
    let (v, s) := s.takeFree
    (if v % 2 = 0 then a else setBits a 48 3 c, s)

/-- The action of a best-effort head takes effect: copies, forwarding, the buffer. -/
def State.runAction (s : State) (h : HeadIn) (w : Walk) (good authBad : Bool) (l : Bytes) (a : Nat)
    (tableBad : Option LookupFault) : Option Nat × State :=
  let (a, s) := s.classed h a
  let (cs, s) := s.copies a
  let (ds, s) := if !isForward a then ([], s)
    else match ftuFault tableBad with
      | some e => ([], s.eccDrop h.pipe e.table e.index e.found e.poisoned)
      | none => s.forward h a w
  -- a head learns whatever its own lookup has read (R147)
  let (ds, s) := if isForward a && bits a 51 2 == 2 then s.learnHead h l w ds else (ds, s)
  s.admitFrame h w good authBad l ds cs

/-- A frame whose walk fails: counted, and the source's parse-error action decides (R113). -/
def State.failHead (s : State) (h : HeadIn) (c : Nat) (l : Bytes) (tableBad : Option LookupFault) : Option Nat × State :=
  (s.parseFailed c).runAction h Walk.empty h.good h.authBad l (s.defaultAction h.src 1) tableBad

/-- Step 3 of a best-effort head: the frame, whether every check of it holds, and the walk to resume; none where CKU drops it.
An ESP header behind an IP header is decrypted, and any other DECRYPT node leaves the frame as it is (R108, R259). -/
def State.decryptHead (s : State) (l : Bytes) (w : Walk) : Option (Bytes × Bool × Walk) × State :=
  match w.decrypt, w.lastIp with
  | some (o, 12, _), some ip =>
    match s.espIn l ip o w.ipEnd with
    | (.drop, s) => (none, s)
    | (.done l' at_ good, s) =>
      let stop := ip + (if ipVersion l' ip = 6 then 40 + beAt l' (ip + 4) 2 else beAt l' (ip + 2) 2)
      (some (l', good, { w with off := at_, ipEnd := stop }), s)
  | _, _ => (some (l, true, w), s)

/-- The outer pass over a head: host media packets start at their own node (R108, R109). -/
def State.outerWalk (s : State) (h : HeadIn) : Except Nat Walk :=
  let g := s.pcu.graph
  walkGraph g h.frame (decide (60 < h.untagged)) 18 (if h.ring.isSome then leAt g 5 1 else leAt g 4 1) (startWalk h)

/-- Steps 2 to 7 of a best-effort head: the handle of what it sends. A TCP head of a storage connection goes to SIE, in class 0,
which the spec does not give (DESIGN CHOICE, log entry 92). -/
def State.passHead (s : State) (h : HeadIn) (tableBad : Option LookupFault) : Option Nat × State :=
  match s.outerWalk h with
  | .error c => s.failHead h c h.frame tableBad
  | .ok w =>
    match s.decryptHead h.frame w with
    | (none, s) => (none, s)
    | (some (l, good, w), s) =>
      let h := { h with authBad := h.authBad || !good }
      match walkInner s.pcu.graph l (decide (60 < h.untagged)) 18 w with
      | .error c => s.failHead h c l tableBad
      | .ok w =>
        if s.sieTakes h.src l w then s.admitFrame h w h.good h.authBad l [⟨.sie, 0, 0⟩] []
        else
          let (a, s) := s.lookupAction h w tableBad
          s.runAction h w h.good h.authBad l a tableBad

/-- What a media head is: an EME packet, an RTP packet of a flow, or neither. -/
inductive MediaKind where
  | eme (e : Nat)
  | rtp (flow ip udp : Nat)
  | other

/-- The kind of a parsed media head (R98, R127). One that reaches an EME node and also matches the RTP map is an EME packet, with
PFLAGS.RTP clear: the spec does not say which it is (DESIGN CHOICE, log entry 109). -/
def State.mediaKind (s : State) (l : Bytes) (w : Walk) : MediaKind :=
  match w.eme with
  | some e => .eme e
  | none =>
    match outerUdp l with
    | some (i, u) => if ipVersion l i = 4 then
        (match s.rtpFlow (beAt l (i + 16) 4) (beAt l (u + 2) 2) with
          | some f => .rtp f i u
          | none => .other)
      else .other
    | none => .other

/-- Steps 4 to 7 of an accepted media packet, of payload `x` and plaintext frame `l`, whose walk is complete (R120, R134 to R136,
R163). -/
def State.passMedia (s : State) (h : HeadIn) (w : Walk) (a : Accepted) (l x : Bytes) (tableBad : Option LookupFault) : State :=
  let (act, s) := s.lookupAction h w tableBad
  let (cs, s) := s.copies act
  let s := match s.admitFrame h w true false l [] cs with
    | (some n, s) => s.enqueueFrame n
    | (none, s) => s
  let bad := match ftuFault tableBad with
    | some e => some (e.found, e.poisoned)
    | none => (s.badCopy 0 a.flow h.pipe).map (fun _ => (noFault, false))
  if !isForward act then s
  else match bad with
  | some (f, poisoned) => s.eccDrop h.pipe 0 a.flow f poisoned
  | none => if !s.rtuServes a.flow || !s.running .ftu || !s.running .fpu || s.tierZero then s
  else s.bufferMedia a h.pipe h.stamp l x

/-- A head that goes on joins the fabric's queues. -/
def State.enqueueOpt (s : State) : Option Nat → State
  | some n => s.enqueueFrame n
  | none => s

/-- A media head that its checks at step 2 have answered. One whose inner pass fails is not treated as media: no verdict is taken
of it, and it goes on as it came, under PARSE_FAIL (R113). -/
def State.enterMedia (s : State) (h : HeadIn) (w : Walk) (tableBad : Option LookupFault) (r : Option Accepted × State) : State :=
  match r with
  | (none, t) => t
  | (some a, t) =>
    match t.mediaPayload a with
    | (none, t) => t
    | (some x, t) =>
      let l := h.frame.take a.at_ ++ x
      match walkInner s.pcu.graph l (decide (60 < h.untagged)) 18 w with
      | .error c =>
        let (n, s) := s.failHead h c l tableBad
        s.enqueueOpt n
      | .ok w => t.passMedia h w a l x tableBad

/-- A media head at step 2 (R98, R101, R113): one that is no media after all goes on as best-effort, without a place in the
reorder stage. -/
def State.acceptMedia (s : State) (h : HeadIn) (tableBad : Option LookupFault) : State :=
  let l := h.frame
  match s.outerWalk h with
  | .error c =>
    let (n, s) := s.failHead h c l tableBad
    s.enqueueOpt n
  | .ok w =>
    match s.mediaKind l w with
    | .other =>
      let (n, s) := s.passHead h tableBad
      s.enqueueOpt n
    | .eme e =>
      s.enterMedia h w tableBad (s.receiveChecks l w e h.untagged)
    | .rtp f i u => s.enterMedia h { w with pflags := setFlag w.pflags 9 true } tableBad (s.receiveRtp l f i u)

/-- Tick `t` of flow `f` is the present one and its ingress window is open (R72, R83). -/
def State.insideWindow (s : State) (f t : Nat) : Bool :=
  s.admittedAt f t && t == s.tick && s.openOf f ≤ s.offset && s.offset < s.closeOf f

/-- A head is media inside its open ingress window (R19). -/
def State.headOpen (s : State) (h : HeadIn) : Bool :=
  h.media && (match s.outerWalk h with
    | .error _ => false
    | .ok w =>
      match s.mediaKind h.frame w with
      | .other => false
      | .eme e => s.insideWindow (beAt h.frame (e + 2) 2) (beAt h.frame (e + 6) 6)
      | .rtp f _ u =>
        let k := s.rtpSample f (beAt h.frame (u + 12) 4)
        decide (0 ≤ k) && s.insideWindow f (k.toNat / (s.geometry f).samples))

/-- The head that pipeline `p` takes next: media inside its window first, otherwise the oldest; the spec orders no others
(R19; DESIGN CHOICE, log entry 92). -/
def State.nextHead (s : State) (p : Nat) : Option Nat :=
  match s.pcu.queue.findIdx? (fun h => h.pipe == p && s.headOpen h) with
  | some i => some i
  | none => s.pcu.queue.findIdx? (fun h => h.pipe == p)

/-- PIPELINE_HEAD_ACCEPT (R19, R21, R108, R128): pipeline `pipe` takes a head. `tableBad` is the uncorrectable error that
its lookup reads, for a media head one in its flow's entry or the classifier's (R136, R156, R431). -/
def execPipelineHeadAccept (pipe : Fin 4) (offset : Nat) (tableBad : Option LookupFault) (s : State) : Host.Outcome State Fault Refusal :=
  let s := s.moment offset
  match s.nextHead pipe with
  | none => ok s
  | some i =>
    match s.pcu.queue[i]? with
    | none => ok s
    | some h =>
      let s := ({ s with pcu := { s.pcu with queue := s.pcu.queue.eraseIdx i } })
      if h.media then ok (s.pump.acceptMedia h tableBad)
      else
        let (n, s) := s.passHead h tableBad
        ok (s.toReorder h n)

end Sys2Proof.Machine
end

