-- ==== Sys2Proof/Machine/Queues.lean ====
section
/-! DEFINITION. The Queue Engine: rings, doorbells and fetches, completions, the fetch arbiter, media rings, ring contexts,
the event arbiter and its records, signals (R340 to R342, R373 to R398). -/

namespace Sys2Proof.Machine

/-! ## Rings (R373 to R375) -/

def RingRt.empty : RingRt := ⟨false, false, 0, 0, [], false, none, false⟩

def State.ring (s : State) (r : Nat) : RingRt := Assoc.getD s.qe.rings r RingRt.empty

def State.setRing (s : State) (r : Nat) (x : RingRt) : State :=
  { s with qe := { s.qe with rings := Assoc.set s.qe.rings r x } }

def State.ringOn (s : State) (r : Nat) : Bool := s.flag (Reg.RING_ENABLE r)
def State.ringType (s : State) (r : Nat) : Nat := s.get (Reg.RING_TYPE r)
def State.ringMedia (s : State) (r : Nat) : Bool := s.flag (Reg.RING_MEDIA r)
def State.ringSize (s : State) (r : Nat) : Nat := 2 ^ s.get (Reg.RING_LOG2_SIZE r)

/-- Bytes of an entry or record of a ring (R373). -/
def entryBytes : Nat → Nat
  | 2 => 64 | 4 => 32 | _ => 16

/-- The phase of sequence `q` (R375). -/
def State.phaseOf (s : State) (r q : Nat) : Nat :=
  if s.ringType r = 2 then 1 else (q / s.ringSize r + 1) % 2

/-- Input address of the slot of sequence `q` (R374). -/
def State.slotAddr (s : State) (r q : Nat) : Nat :=
  4096 * s.get (Reg.RING_BASE r) + q % s.ringSize r * entryBytes (s.ringType r)

/-- The function that a ring's accesses are made for (R354). -/
def State.ringFunc (s : State) (r : Nat) : Nat := (s.ringOwner r).getD 0

/-- NEXT or PROD moves, and PHASE with it (R388). -/
def State.setNext (s : State) (r q : Nat) : State :=
  (s.put (Reg.RING_NEXT r) q).put (Reg.RING_PHASE r) (s.phaseOf r (q % 2 ^ 32))

/-- Function `f` may make requests now; work of one that may not waits (R344, R349). -/
def State.mayDma (s : State) (f : Nat) : Bool :=
  s.attached && s.running .hiu && s.running .ttu && !s.asleep f

/-- The enabled rings, ascending. -/
def State.ringsOn (s : State) : List Nat :=
  (s.regs.filter (fun p => 0x0C400000 ≤ p.1 && p.1 < 0x0CC00000 && p.1 % 64 == 0 && bitAt p.2.toNat 31)).map
    (fun p => (p.1 - 0x0C400000) / 64)

/-- The rings with work: enabled, or disabled and not idle yet (R390). -/
def State.ringsBusy (s : State) : List Nat :=
  s.ringsOn ++ (s.qe.rings.map (·.1)).filter (fun r => !s.ringOn r && !s.flag (Reg.RING_IDLE r))

/-- The ring is served by the fetch arbiter (R386). -/
def State.arbitrated (s : State) (r : Nat) : Bool := (s.ringType r == 0 && !s.ringMedia r) || s.ringType r == 2

/-! ## Interrupts (R340 to R342) -/

/-- PENDING is the OR of PF0's interrupt requests, and INTA follows it. -/
def State.refreshIntx (s : State) : State :=
  let on := s.qe.rings.any (fun x => x.2.request)
  if s.flag Reg.HIU_INTX_STATUS_PENDING == on then s else (s.put Reg.HIU_INTX_STATUS_PENDING (bit on)).sendHost (.intx on)

def State.setRequest (s : State) (r : Nat) (b : Bool) : State := (s.setRing r { s.ring r with request := b }).refreshIntx

/-- Vector control word and pending bit of vector `v` of function `f` (R341). -/
def vectorControl (f v : Nat) : Field :=
  if f = 0 then ⟨0x0A01000C + 16 * v, 0, 0⟩ else ⟨0x20000000 + f * 0x10000 + 0x980C + 16 * v, 0, 0⟩
def vectorPending (f v : Nat) : Field :=
  if f = 0 then ⟨0x0A018000 + v / 32 * 4, v % 32, v % 32⟩ else ⟨0x20000000 + f * 0x10000 + 0x9C00 + v / 32 * 4, v % 32, v % 32⟩

/-- Vectors of a function. -/
def vectorCount (f : Nat) : Nat := if f = 0 then 2048 else 64

/-- Vector `v` of function `f` fires: its message leaves, or waits in the PBA while the vector or its function is masked. No message
leaves in standalone mode: the vector stays pending (R344, DEDUCED, log entry 34). -/
def State.fireVector (s : State) (f v : Nat) : State :=
  if s.flag (cfgMsixMask f) || s.flag (vectorControl f v) || !s.attached then s.put (vectorPending f v) 1 else s.sendHost (.msix f v)

/-- A pending message of vector `v` of function `f` is sent once, where nothing masks it any more (R341). -/
def State.sendPending (s : State) (f v : Nat) : State :=
  if s.flag (vectorPending f v) && !s.flag (cfgMsixMask f) && !s.flag (vectorControl f v) && s.attached then
    (s.put (vectorPending f v) 0).sendHost (.msix f v)
  else s

/-- The signal of an EVENT ring by the mechanism of its owner (R340, R397). -/
def State.signal (s : State) (r : Nat) : State :=
  let f := s.ringFunc r
  match s.mechanism f with
    | .msix => s.fireVector f (s.get (Reg.RING_VECTOR r))
    | .intx => s.setRequest r true
    | .none => s

/-- EVENT_SIGNAL (R397): an armed EVENT ring with records to read signals, no earlier than MOD_US after the last signal. One of a VF
in D3hot stays armed, and signals after the return to D0 (R349). -/
def execEventSignal (ring : Fin 131072) (_ : Unit) (offset : Nat) (s : State) : Host.Outcome State Fault Refusal :=
  let s := s.moment offset
  let r := ring.val
  let early := match (s.ring r).signalled with
    | some t => decide (s.localNs < t + 1000 * s.get (Reg.RING_MOD_US r))
    | none => false
  if !s.running .qe || !s.ringOn r || s.ringType r != 4 || !s.flag (Reg.RING_ARMED r) || s.asleep (s.ringFunc r)
      || s.get (Reg.RING_NEXT r) == s.get (Reg.RING_DONE r) || early then ok s
  else
    let s := s.put (Reg.RING_ARMED r) 0
    ok ((s.setRing r { s.ring r with signalled := some s.localNs }).signal r)

/-- A notice of a ring to its owner, which clears ARMED (R397): 2 RING_NOTIFY with DONE, 3 CQ_NOTIFY with PROD. -/
def State.notify (s : State) (r type : Nat) : State :=
  let v := s.get (if type = 2 then Reg.RING_DONE r else Reg.RING_NEXT r)
  (s.put (Reg.RING_ARMED r) 0).raiseEvent ⟨12, type, s.ringFunc r, .ring r, payload [(17, r), (32, v)]⟩

/-! ## Fetching (R382, R386, R387) -/

/-- A ring stops taking new work (R390): its doorbells and fetches end. -/
def State.stopRing (s : State) (r : Nat) : State :=
  let s := (s.put (Reg.RING_ENABLE r) 0).put (Reg.RING_REREAD r) 0
  s.setRing r { s.ring r with waiting := false, fetching := false, turn := 0, ahead := 0 }

/-- FETCH_FAIL of the entry with sequence `q` (R391). -/
def State.fetchFail (s : State) (r q : Nat) : State :=
  ((s.stopRing r).put (Reg.RING_ERR_STOP r) 1).ringError r 6 (q % 2 ^ 32)

/-- Read requests for `n` entries from sequence `q`, one request an entry (R376). -/
def State.readEntries (s : State) (r q : Nat) : Nat → State
  | 0 => s
  | n + 1 =>
    match s.dmaRead (.fetch r q) (s.ringFunc r) (s.slotAddr r q) (entryBytes (s.ringType r)) with
    | (true, s) => (s.setRing r { s.ring r with ahead := (s.ring r).ahead + 1 }).readEntries r (q + 1) n
    | (false, s) => s.fetchFail r q

/-- A fetch starts: `n` entries are read ahead. -/
def State.startFetch (s : State) (r turn n : Nat) : State :=
  (s.setRing r { s.ring r with waiting := false, fetching := true, turn := turn, ahead := 0 }).readEntries r (s.get (Reg.RING_NEXT r)) n

/-- The ring that a doorbell rings: PF0's doorbell by ring number, a VF's by DB; the ring is the writer's and enabled (R381). -/
def State.bellRing (s : State) (who : Requester) (d : Nat) : Option Nat :=
  match who with
  | .vf v => if v.val = 0 then none else s.ringsOn.find? (fun r => s.ringOwner r == some v.val && s.get (Reg.RING_DB r) == d)
  | _ => if d < 131072 && s.ringOwner d == some 0 && s.ringOn d then some d else none

/-- A doorbell on a TX, RX or SUBMIT ring (R382): sticky while a fetch runs; a ring of the arbiter waits for a turn. -/
def State.fetchBell (s : State) (r : Nat) (arm : Bool) : State :=
  let s := s.when arm (fun s => s.put (Reg.RING_ARMED r) 1)
  if (s.ring r).fetching then (s.put (Reg.RING_REREAD r) 1).bump Reg.QE_REREADS
  else if s.arbitrated r || !s.mayDma (s.ringFunc r) then s.setRing r { s.ring r with waiting := true }
  else s.startFetch r 0 1

/-- A doorbell on a COMPLETE or EVENT ring (R383, R397). The spec does not say which sequence BAD_DOORBELL concerns. -/
def State.consumeBell (s : State) (r : Nat) (arm : Bool) (value : Nat) : State :=
  let prod := s.get (Reg.RING_NEXT r)
  let back := (prod + 2 ^ 32 - value % 2 ^ 24) % 2 ^ 24
  let lag := (prod + 2 ^ 32 - s.get (Reg.RING_DONE r)) % 2 ^ 32
  if lag < back then
    let (v, s) := s.takeFree
    (s.bump Reg.QE_DB_DISCARDED).ringError r 4 v
  else
    let s := s.put (Reg.RING_DONE r) (prod + 2 ^ 32 - back)
    if !arm then s
    else if s.ringType r = 3 && back != 0 then s.notify r 3
    else s.put (Reg.RING_ARMED r) 1

/-- A doorbell (R381, R342). -/
def State.doorbell (s : State) (who : Requester) (d : Nat) (arm : Bool) (value : Nat) : State :=
  if !s.running .qe || !s.served who || !s.shows 0x0C200000 then s
  else match s.bellRing who d with
    | none => s.bump Reg.QE_DB_DISCARDED
    | some r =>
      let s := if (s.ring r).request then s.setRequest r false else s
      if s.ringType r ≤ 2 then s.fetchBell r arm else s.consumeBell r arm value

/-- DOORBELL_FETCH (R381, R382): a doorbell on a TX, RX or SUBMIT ring. `db` is the ring for PF0 and the doorbell index for a
VF; the value is ignored there. -/
def execDoorbellFetch (r : Requester) (db : Fin 131072) (arm : Bool) (value : BitVec 24) (walks : List Walk8) (s : State) :
    Host.Outcome State Fault Refusal :=
  ok (s.withWalks walks (fun s => s.doorbell r db arm value.toNat))

/-- DOORBELL_CONSUME (R381, R383): a doorbell on a COMPLETE or EVENT ring. -/
def execDoorbellConsume (r : Requester) (db : Fin 131072) (arm : Bool) (value : BitVec 24) (s : State) : Host.Outcome State Fault Refusal :=
  ok (s.doorbell r db arm value.toNat)

/-- The first ring from the pointer on, with wrap, that waits and has credit (R386). -/
def State.turnRing (s : State) : Option (Nat × Nat × Nat) :=
  let can := s.qe.credits.filter (fun c =>
    0 < c.2.1 && 0 < c.2.2 && s.ringOn c.1 && (s.ring c.1).waiting && !(s.ring c.1).fetching && s.mayDma (s.ringFunc c.1))
  match can.find? (fun c => s.qe.ptr ≤ c.1) with | some c => some c | none => can.head?

/-- A new round: every enabled ring of the arbiter gets its WEIGHT; BURST is taken with it. -/
def State.newRound (s : State) : State :=
  let l := (s.ringsOn.filter s.arbitrated).map (fun r => (r, s.get (Reg.RING_WEIGHT r), s.get (Reg.RING_BURST r)))
  { s with qe := { s.qe with credits := l } }

/-- WRR_TURN (R386): the arbiter grants the next turn, in a new round where no ring can take one in this. -/
def execWrrTurn (walks : List Walk8) (s : State) : Host.Outcome State Fault Refusal :=
  if !s.running .qe then ok s
  else
    let s := if s.turnRing.isNone then s.newRound else s
    match s.turnRing with
    | none => ok s
    | some (r, credit, burst) =>
      let n := min burst credit
      ok (({ s with qe := { s.qe with ptr := r + 1 } }).withWalks walks (fun s => s.startFetch r n n))

/-- Ticks ahead of its own at which a host media packet is taken (R387). -/
def State.horizon (s : State) : Nat :=
  if s.pairRole then s.get Reg.HGC_CFG_LEASE_L + s.get Reg.HGC_TIMING_GAP_G + 1 else 2

/-- The OWN bit of an entry, bit 63 of its last word. -/
def ownOf (e : Bytes) : Nat := beAt e.reverse 0 1 / 128

/-- A descriptor breaks a bound or sets a reserved bit (R377, R378, R391). -/
def badEntry (type : Nat) (e : Bytes) : Bool :=
  let w := leAt e 8 8
  match type with
  | 0 => bits w 59 4 != 0 || bits w 14 42 != 0 || bits w 0 14 < 14 || 9212 < bits w 0 14
  | 1 => bits w 14 49 != 0 || bits w 0 14 < 64 || 9216 < bits w 0 14
  | _ => bits (leAt e 56 8) 48 15 != 0 || leAt e 28 4 != 0

/-- An entry is done; one of a SUBMIT ring leaves the ring at once. -/
def State.entryDone (s : State) (r q : Nat) : State :=
  let x := s.ring r
  s.setRing r { x with taken := x.taken.map (fun t => if t.seq = q then { t with done := true } else t) }

/-- Take the entry at NEXT (R382); one that breaks a rule is done at once (R391). A SUBMIT command holds a tracker entry. -/
def State.takeEntry (s : State) (r : Nat) (e : Bytes) : State :=
  let q := s.get (Reg.RING_NEXT r)
  let x := s.ring r
  let bad := badEntry (s.ringType r) e
  let s := s.setRing r { x with turn := x.turn - 1, taken := x.taken ++ [⟨q, e, bad⟩] }
  let l := s.qe.credits.map (fun c => if c.1 = r then (c.1, c.2.1 - 1, c.2.2) else c)
  let s : State := { s with qe := { s.qe with credits := l } }
  let s := s.setNext r (q + 1)
  if bad then
    let s := (s.bump Reg.QE_BAD_DESC).ringError r 1 q
    if s.ringType r = 2 then
      let x := s.ring r
      (s.setRing r { x with taken := x.taken.filter (fun t => t.seq != q) }).bumpSat (Reg.RING_DONE r)
    else s
  else s.when (s.ringType r == 2) State.trackTake

/-- The slot at NEXT of a SUBMIT ring still holds a command in flight, or no tracker entry is free for it (R382, R438). -/
def State.submitStops (s : State) (r : Nat) : Bool :=
  s.ringType r == 2 &&
    ((s.ring r).taken.any (fun t => t.seq % s.ringSize r == s.get (Reg.RING_NEXT r) % s.ringSize r) || !s.trackFree)

/-- The data of one entry comes back: taken; or the fetch stops there, to re-read it where REREAD is set. `tick` is the TICK of
the packet that a media TX entry names. -/
def State.fetchOne (s : State) (r : Nat) (e : Option Bytes) (tick : Nat) : State :=
  let x := s.ring r
  if !x.fetching then s
  else
    let s := s.setRing r { x with ahead := x.ahead - 1 }
    match e with
    | none => s.fetchFail r (s.get (Reg.RING_NEXT r))
    | some e =>
      let e := sliceB (e ++ zeros 64) 0 (entryBytes (s.ringType r))
      let owned := ownOf e == s.phaseOf r (s.get (Reg.RING_NEXT r))
      let far := owned && s.ringType r == 0 && s.ringMedia r && decide (s.tick + s.horizon < tick)
      if !owned || s.submitStops r || far then
        if s.flag (Reg.RING_REREAD r) then
          ((s.put (Reg.RING_REREAD r) 0).setRing r { s.ring r with ahead := 0 }).readEntries r (s.get (Reg.RING_NEXT r)) 1
        else
          let again := far || (owned && s.ringType r == 2 && !s.trackFree)
          s.setRing r { s.ring r with fetching := false, turn := 0, ahead := 0, waiting := again }
      else
        let s := s.takeEntry r e
        if s.arbitrated r && (s.ring r).turn = 0 then s.setRing r { s.ring r with fetching := false, ahead := 0, waiting := true }
        else if (s.ring r).ahead = 0 then s.readEntries r (s.get (Reg.RING_NEXT r)) 1
        else s

/-- DESCRIPTOR_FETCH (R382): data returns for a fetch, entry by entry, none where a read failed; with each entry of a media TX
ring the TICK of its packet. An RX ring with a frame waiting is fetched on demand (R386). -/
def execDescriptorFetch (ring : Fin 131072) (entries : List (Option Bytes × Nat)) (walks : List Walk8) (s : State) :
    Host.Outcome State Fault Refusal :=
  let r := ring.val
  if !s.running .qe || !s.ringOn r || !s.mayDma (s.ringFunc r) then ok s
  else
    ok (s.withWalks walks (fun s =>
      let demand := !(s.ring r).fetching && ((s.ringType r == 1 && s.qe.rxWait.any (·.ring == r)) || ((s.ring r).waiting && !s.arbitrated r))
      let s := if demand then s.startFetch r 0 1 else s
      entries.foldl (fun s e => s.fetchOne r e.1 e.2) s))

/-! ## TX (R377, R387) -/

/-- LEN, or SIZE, of a descriptor. -/
def lenOf (e : Bytes) : Nat := bits (leAt e 8 8) 0 14

/-- A host packet or frame is mirrored to the standby (R319). -/
def State.mirror (s : State) (r q : Nat) (l : Bytes) : State :=
  s.when (s.pairRole && s.active) (fun s => s.sendLink (fun k => .hedge k 3 ([r, q] ++ l.map (·.toNat))))

/-- TX_FRAME_READ (R377, R387, R391): the frame of the oldest entry not yet read arrives, `data` none where a buffer access
failed. -/
def execTxFrameRead (ring : Fin 131072) (data : Option Bytes) (walks : List Walk8) (s : State) : Host.Outcome State Fault Refusal :=
  let r := ring.val
  let x := s.ring r
  let f := s.ringFunc r
  match x.taken.find? (fun t => !t.done && !s.qe.mediaWait.any (fun m => m.1 == r && m.2.1 == t.seq && !m.2.2.2)) with
  | none => ok s
  | some t =>
    if !s.running .qe || s.ringType r != 0 || x.abandoned || !s.mayDma f then ok s
    else
      ok (s.withWalks walks (fun s =>
        match s.dmaRead (.payload r t.seq) f (leAt t.entry 0 8) (lenOf t.entry), data with
        | (true, s), some l =>
          let l := sliceB (l ++ zeros 9216) 0 (lenOf t.entry)
          if s.ringMedia r then
            ({ s with qe := { s.qe with mediaWait := s.qe.mediaWait ++ [(r, t.seq, l, false)] } }).mirror r t.seq l
          else
            (s.entryDone r t.seq).distribute
              ⟨33, f, l, l.length - 4 * tagCount l, 0, 0, false, true, false, s.looksMedia l, none,
                some (bits (leAt t.entry 8 8) 56 3), 0, 0, .none⟩ (s.homePipe 1 r)
        | (_, s), _ => ((s.entryDone r t.seq).bump Reg.QE_BUF_FAULT).ringError r 2 t.seq))

/-- The window of tick `t` of flow `f` has opened, or nothing will be opened for it (R72, R83). -/
def State.windowOpen (s : State) (f t : Nat) : Bool :=
  !s.flag (Reg.FLOW_ADMITTED f) || t < s.tick || (t == s.tick && s.openOf f ≤ s.offset)

/-- The flow that a waiting packet names is sourced from its ring (R387). -/
def State.ownPacket (s : State) (m : Nat × Nat × Bytes × Bool) : Bool :=
  let f := beAt m.2.2.1 2 2
  s.get (Reg.FLOW_SRC_KIND f) == 1 && s.get (Reg.FLOW_SRC f) == m.1

/-- A waiting packet goes to step 2 now: its flow's window is open, or its flow is not the ring's (R387). -/
def State.deliverable (s : State) (m : Nat × Nat × Bytes × Bool) : Bool :=
  !s.ownPacket m || s.windowOpen (beAt m.2.2.1 2 2) (beAt m.2.2.1 6 6)

/-- MEDIA_TX_DELIVER (R387): the oldest packet of a host media ring whose flow's window is open goes to step 2; one whose
flow does not come from this ring is discarded. A packet mirrored over the hedge link enters from HEDGE, in the link's home
pipeline (R17, R107). -/
def execMediaTxDeliver (ring : Fin 131072) (offset : Nat) (s : State) : Host.Outcome State Fault Refusal :=
  let s := s.moment offset
  let r := ring.val
  match s.qe.mediaWait.find? (fun m => m.1 == r && s.deliverable m) with
  | none => ok s
  | some m =>
    let l := m.2.2.1
    let hedge := m.2.2.2
    if !s.running .qe then ok s
    else
      let s := { s with qe := { s.qe with mediaWait := s.qe.mediaWait.erase m } }
      let s := if hedge then s else s.entryDone r m.2.1
      if !s.ownPacket m then ok (if hedge then s else (s.bump Reg.QE_BAD_DESC).ringError r 1 m.2.1)
      else ok (s.distribute ⟨if hedge then 32 else 33, s.ringFunc r, l, max 61 l.length, 0, 0, false, true, false, true, some r,
        none, 0, 0, .none⟩
        (if hedge then s.hedgePipe else s.homePipe 1 r))

/-! ## Completion (R379, R384, R385) -/

/-- Write an entry or record: first all but its last word, then that word (R376). -/
def State.writeEntry (s : State) (r q : Nat) (l : Bytes) : State :=
  let n := l.length - 8
  let (_, s) := s.dmaWrite (s.ringFunc r) (s.slotAddr r q) (l.take n)
  let (_, s) := s.dmaWrite (s.ringFunc r) (s.slotAddr r q + n) (l.drop n)
  s

/-- A COMPLETE or EVENT ring holds no more records (R383). -/
def State.ringFull (s : State) (r : Nat) : Bool :=
  s.ringSize r ≤ (s.get (Reg.RING_NEXT r) + 2 ^ 32 - s.get (Reg.RING_DONE r)) % 2 ^ 32

/-- Write a record whose words below the last are `l`, and whose last word but for OWN is `last`; PROD moves. -/
def State.writeRecord (s : State) (r : Nat) (l : List Nat) (last : Nat) : State :=
  let q := s.get (Reg.RING_NEXT r)
  let s := s.writeEntry r q (l.flatMap (toLE 8) ++ toLE 8 (setBits last 63 1 (s.phaseOf r q)))
  s.setNext r (q + 1)

/-- The COMPLETE record of an RX entry (R379); the class of a media packet, and the source of one that a point made, are not
given. -/
def State.completeRx (s : State) (r q : Nat) (w : RxItem) (len : Nat) (err : Bool) : State :=
  let c := s.get (Reg.RING_LINK r)
  let (tc, s) := match w.tc with | some t => (t, s) | none => s.takeFree
  let (src, s) := if w.src < 64 then (w.src, s) else s.takeFree
  let hold := w.media && bitAt (beAt w.bytes 0 2) 10
  let last := payload [(14, len)] + tc % 8 * 2 ^ 16 + src % 64 * 2 ^ 50 + bit err * 2 ^ 60 + bit hold * 2 ^ 61 + bit w.authBad * 2 ^ 62
  let s := s.writeRecord c [q * 2 ^ 32 + r] last
  s.when (s.flag (Reg.RING_ARMED c)) (fun s => s.notify c 3)

/-- An item gives up its place in the buffer. -/
def State.dropRx (s : State) (w : RxItem) : State := s.releaseWith w.handle w.head

/-- A frame or packet that cannot have a buffer (R391). -/
def State.rxFail (s : State) (r : Nat) (w : RxItem) (kind seq : Nat) (count : Field) : State :=
  ((s.dropRx w).bump count).when (s.ringOn r) (fun s => s.ringError r kind seq)

/-- Ring `x` is of TYPE `type` and has the owner of ring `r`. -/
def State.sameOwner (s : State) (r x type : Nat) : Bool :=
  x < 131072 && s.ringType x == type && s.ringOwner x == s.ringOwner r

/-- The frame `w` goes to ring `r` (R378, R379, R390, R391). A COMPLETE ring that has passed to another owner since takes no record
(R3). -/
def State.rxWrite (s : State) (r : Nat) (w : RxItem) : State :=
  let c := s.get (Reg.RING_LINK r)
  let noBuf := fun (s : State) => s.rxFail r w 8 (s.get (Reg.RING_NEXT r)) Reg.QE_RX_NO_BUF
  if !s.ringOn r || s.ringType r != 1 || s.ringMedia r != w.media || !s.mayDma (s.ringFunc r) then noBuf s
  else match (s.ring r).taken.find? (fun t => !t.done) with
    | none => noBuf s
    | some t =>
      if !s.ringOn c || !s.sameOwner r c 3 || s.ringFull c then s.rxFail r w 7 t.seq Reg.QE_RX_CQ_FULL
      else if lenOf t.entry < w.bytes.length then s.rxFail r w 3 t.seq Reg.QE_RX_TOO_BIG
      else
        let ((good, n), s) := s.dmaPayload (s.ringFunc r) (leAt t.entry 0 8) w.bytes
        let s := s.when (!good) (fun s => (s.bump Reg.QE_BUF_FAULT).ringError r 2 t.seq)
        ((s.completeRx r t.seq w n (!good)).entryDone r t.seq).dropRx w

/-- HOST_RX_WRITE (R378, R379): the oldest frame or packet that waits for ring `ring`. While a fetch of the ring runs it waits
for the buffer that the fetch may bring. -/
def execHostRxWrite (ring : Fin 131072) (walks : List Walk8) (s : State) : Host.Outcome State Fault Refusal :=
  let r := ring.val
  match s.qe.rxWait.find? (·.ring == r) with
  | none => ok s
  | some w =>
    if !s.running .qe || ((s.ring r).fetching && !(s.ring r).taken.any (fun t => !t.done)) then ok s
    else
      let s := { s with qe := { s.qe with rxWait := s.qe.rxWait.erase w } }
      ok (s.withWalks walks (fun s => s.rxWrite r w))

/-- How many entries are done ahead of the first that is not. -/
def doneCount (l : List Taken) : Nat := (l.takeWhile (·.done)).length

/-- Publish HEAD (R384); an armed ring raises RING_NOTIFY after it (R397). -/
def State.publishHead (s : State) (r : Nat) : State :=
  let x := s.ring r
  let n := doneCount x.taken
  let head := (s.get (Reg.RING_DONE r) + n) % 2 ^ 32
  let s := s.setRing r { x with taken := x.taken.drop n }
  let (_, s) := s.dmaWrite (s.ringFunc r) (8 * s.get (Reg.RING_HEAD_ADDR r)) (toLE 8 head)
  let s := s.put (Reg.RING_DONE r) head
  s.when (s.flag (Reg.RING_ARMED r)) (fun s => s.notify r 2)

/-- HEAD_PUBLISH (R384): entries are done that HEAD does not cover. -/
def execHeadPublish (ring : Fin 131072) (walks : List Walk8) (s : State) : Host.Outcome State Fault Refusal :=
  let r := ring.val
  if !s.running .qe || 1 < s.ringType r || (s.ring r).abandoned || doneCount (s.ring r).taken = 0
      || !s.mayDma (s.ringFunc r) then ok s
  else ok (s.withWalks walks (fun s => s.publishHead r))

/-- SUBMIT_COMPLETE (R385): a completed command's entry is overwritten in place, OWN 0, and the slot is software's again. -/
def execSubmitComplete (ring : Fin 131072) (walks : List Walk8) (s : State) : Host.Outcome State Fault Refusal :=
  let r := ring.val
  let x := s.ring r
  match x.taken.find? (·.done) with
  | none => ok s
  | some t =>
    if !s.running .qe || s.ringType r != 2 || x.abandoned || !s.mayDma (s.ringFunc r) then ok s
    else
      ok (s.withWalks walks (fun s =>
        let s := (s.setRing r { x with taken := x.taken.erase t }).writeEntry r t.seq t.entry
        let s := s.put (Reg.RING_DONE r) (s.get (Reg.RING_DONE r) + 1)
        s.when (s.flag (Reg.RING_ARMED r)) (fun s => s.notify r 2)))

/-! ## The ring context (R388 to R390) -/

/-- The fields of a context word that a write may change: low bit, width, writable at any time, writable by a VF. -/
def contextFields : Nat → List (Nat × Nat × Bool × Bool)
  | 0 => [(27, 3, false, false), (26, 1, false, false), (20, 5, false, true), (0, 13, false, false)]
  | 1 => [(24, 8, true, false), (16, 7, true, false), (0, 11, true, true)]
  | 2 => [(12, 20, false, true)]
  | 3 => [(0, 32, false, true)]
  | 4 => [(3, 29, false, true)]
  | 5 => [(0, 32, false, true)]
  | 6 => [(20, 12, true, true), (0, 17, false, true)]
  | 7 => [(17, 1, true, true), (0, 17, true, true)]
  | _ => []

/-- Why a context may not be enabled (R389). LINK is judged on RX rings and VECTOR on EVENT rings, which have them. -/
def State.badContext (s : State) (r : Nat) : Bool :=
  let type := s.ringType r
  let f := s.ringFunc r
  (s.ringOwner r).isNone || 5 ≤ type || (s.ringMedia r && 2 ≤ type)
    || (type ≤ 1 && s.get (Reg.RING_HEAD_ADDR r) == 0)
    || (type == 1 && !s.sameOwner r (s.get (Reg.RING_LINK r)) 3)
    || (s.flag (Reg.RING_EQ_EN r) && !s.sameOwner r (s.get (Reg.RING_EQ r)) 4)
    || (type == 4 && vectorCount f ≤ s.get (Reg.RING_VECTOR r))
    || (f != 0 && s.ringsOn.any (fun x => x != r && s.ringOwner x == some f && s.get (Reg.RING_DB x) == s.get (Reg.RING_DB r)))

/-- A write of ENABLE 1 (R389). The spec does not say which sequence BAD_CTX concerns. -/
def State.ringEnable (s : State) (r : Nat) : State :=
  if s.ringOn r || !s.flag (Reg.RING_IDLE r) then s
  else if s.badContext r then
    let (v, s) := s.takeFree
    s.ringError r 5 v
  else
    let s := ((s.put (Reg.RING_ENABLE r) 1).put (Reg.RING_IDLE r) 0).put (Reg.RING_DONE r) 0
    let s := ((s.put (Reg.RING_ARMED r) 0).put (Reg.RING_REREAD r) 0).put (Reg.RING_ERR_STOP r) 0
    (s.setNext r 0).setRing r { RingRt.empty with request := (s.ring r).request, signalled := (s.ring r).signalled }

/-- A write of ENABLE 0: the ring drains (R390). -/
def State.ringDisable (s : State) (r : Nat) : State := if s.ringOn r then s.stopRing r else s

/-- The requester may write the context of ring `r`: the manager, or its owner through QE_VF_CTX (R388). -/
def State.reachesRing (s : State) (who : Requester) (r : Nat) : Bool :=
  match who with
  | .vf v => s.served who && s.shows 0x20000000 && s.vfRing v (s.get (Reg.QE_VF_RING_SEL v)) == some r
  | w => s.mayWrite w 0x0C400000

/-- A write of one context word, ENABLE included (R388). -/
def State.writeContext (s : State) (who : Requester) (r word v : Nat) : State :=
  if !s.reachesRing who r then s
  else
    let still := !s.ringOn r && s.flag (Reg.RING_IDLE r)
    let k := 0x0C400000 + 64 * r + 4 * word
    let w := (contextFields word).foldl (fun w f =>
      if (f.2.2.1 || still) && (f.2.2.2 || isManager who) then setBits w f.1 f.2.1 (bits v f.1 f.2.1) else w) (s.rd k)
    let s := s.wr k w
    if word = 0 then (if bitAt v 31 then s.ringEnable r else s.ringDisable r) else s

/-- RING_CONTEXT_WRITE (R388). -/
def execRingContextWrite (r : Requester) (ring : Fin 131072) (word : Fin 16) (v : Word) (s : State) : Host.Outcome State Fault Refusal :=
  ok (s.writeContext r ring word v.toNat)

/-- RING_ENABLE (R389). -/
def execRingEnable (r : Requester) (ring : Fin 131072) (s : State) : Host.Outcome State Fault Refusal :=
  ok (if s.reachesRing r ring then s.ringEnable ring else s)

/-- RING_DISABLE (R390). -/
def execRingDisable (r : Requester) (ring : Fin 131072) (s : State) : Host.Outcome State Fault Refusal :=
  ok (if s.reachesRing r ring then s.ringDisable ring else s)

/-- RING_IDLE (R390): the work taken has completed and no frame waits for the ring, or it was abandoned and the function's requests
have ended. -/
def execRingIdle (ring : Fin 131072) (walks : List Walk8) (s : State) : Host.Outcome State Fault Refusal :=
  let r := ring.val
  let x := s.ring r
  let type := s.ringType r
  if s.ringOn r || s.flag (Reg.RING_IDLE r) || s.qe.rxWait.any (·.ring == r) then ok s
  else if x.abandoned then
    if s.outstanding (s.ringFunc r) then ok s
    else ok ((s.setRing r { x with abandoned := false }).put (Reg.RING_IDLE r) 1)
  else if (type == 0 && x.taken.any (fun t => !t.done)) || (type == 2 && !x.taken.isEmpty) then ok s
  else
    let s := s.when (type ≤ 1) (fun s => s.withWalks walks (fun s => s.publishHead r))
    ok ((s.setRing r { s.ring r with taken := [] }).put (Reg.RING_IDLE r) 1)

/-- Disable a ring and abandon its work without writing anything (R344, R349, R390). Host media packets already read stay; a
sequence above 32 bits marks them as no longer of an entry of the ring. -/
def State.abandonRing (s : State) (r : Nat) : State :=
  if !s.ringOn r && s.flag (Reg.RING_IDLE r) then s
  else
    let gone := s.qe.rxWait.filter (·.ring == r)
    let s : State := { s with qe := { s.qe with
      rxWait := s.qe.rxWait.filter (fun w => w.ring != r)
      mediaWait := s.qe.mediaWait.map (fun m => if m.1 = r && m.2.1 < 2 ^ 32 then (m.1, m.2.1 + 2 ^ 32, m.2.2) else m) } }
    let s := gone.foldl (fun s w => s.dropRx w) s
    let n := if s.ringType r = 2 then (s.ring r).taken.length else 0
    let s := (List.range n).foldl (fun s _ => s.trackGive) s
    let s := s.stopRing r
    s.setRing r { s.ring r with taken := [], abandoned := true }

/-! ## The event arbiter (R392 to R396) -/

/-- The queue an event goes to, none where the register that names it names none (R395). -/
def State.queueFor (s : State) (e : Event) : Option Nat :=
  let pf := fun u => (s.flag (Reg.QE_PF_EVQ_EN u), s.get (Reg.QE_PF_EVQ_RING u), 0)
  let vf := fun v => (s.flag (Reg.QE_VF_EVQ_EN v), s.get (Reg.QE_VF_EVQ_RING v), v)
  let (en, q, f) := match e.dest with
    | .pf => pf e.unit
    | .vf v => vf v
    | .ring r =>
      let f := s.ringFunc r
      if s.flag (Reg.RING_EQ_EN r) then (true, s.get (Reg.RING_EQ r), f) else if f = 0 then pf 12 else vf f
  if en && q < 131072 && s.ringType q == 4 && s.ringOwner q == some f then some q else none

/-- Write an event record (R392). -/
def State.writeEvent (s : State) (q aseq func unit type pay : Nat) : State :=
  s.writeRecord q [aseq * 2 ^ 32 + func % 4096 * 2 ^ 16 + unit * 2 ^ 8 + type, s.tick, pay % 2 ^ 64] (pay / 2 ^ 64 % 2 ^ 56)

/-- A queue takes records: enabled, with room, the device ATTACHED and its owner awake. -/
def State.queueReady (s : State) (q : Nat) : Bool := s.ringOn q && !s.ringFull q && s.attached && s.mayDma (s.ringFunc q)

/-- One OVERFLOW record into a ready queue with losses (R396). -/
def State.overflow (s : State) (q : Nat) : State :=
  if !s.queueReady q || s.get (Reg.RING_LOST q) = 0 then s
  else
    let s := s.writeEvent q (Assoc.getD s.qe.lastLost q 0) (s.ringFunc q) 12 1
      (payload [(32, s.get (Reg.RING_LOST q)), (32, s.get (Reg.RING_FIRST_LOST q))])
    (s.put (Reg.RING_LOST q) 0).put (Reg.RING_FIRST_LOST q) 0

/-- OVERFLOW (R396). -/
def execEventOverflow (ring : Fin 131072) (walks : List Walk8) (s : State) : Host.Outcome State Fault Refusal :=
  ok (if s.running .qe && s.ringType ring == 4 then s.withWalks walks (fun s => s.overflow ring) else s)

/-- An event is lost to queue `q` (R396). -/
def State.loseEvent (s : State) (q aseq : Nat) : State :=
  let s := if s.get (Reg.RING_LOST q) = 0 then s.put (Reg.RING_FIRST_LOST q) aseq else s
  let s := s.bumpSat (Reg.RING_LOST q)
  { s with qe := { s.qe with lastLost := Assoc.set s.qe.lastLost q aseq } }

/-- The unit whose turn it is among those that hold events, and its oldest event (R394). -/
def State.nextEvent (s : State) : Option Event :=
  let pick := ((List.range 14).map (fun i => (s.qe.evPtr + i) % 14)).find? (fun u => s.events.any (·.unit == u))
  pick.bind (fun u => s.events.find? (·.unit == u))

/-- EVENT_GRANT (R394): one event is granted, numbered, and written or lost. -/
def execEventGrant (walks : List Walk8) (s : State) : Host.Outcome State Fault Refusal :=
  if !s.running .qe then ok s
  else match s.nextEvent with
    | none => ok s
    | some e =>
      let a := s.get Reg.QE_ARB_ASEQ
      let s := { s with events := s.events.erase e, qe := { s.qe with evPtr := (e.unit + 1) % 14 } }
      let s := s.put Reg.QE_ARB_ASEQ (a + 1)
      match s.queueFor e with
      | none => ok (s.bump Reg.QE_EVT_NOQUEUE)
      | some q =>
        ok (s.withWalks walks (fun s =>
          let s := s.overflow q
          if s.queueReady q then s.writeEvent q a e.func e.unit e.type e.payload else s.loseEvent q a))

end Sys2Proof.Machine
end

