-- ==== Sys2Proof/Machine/Storage.lean ====
section
/-! DEFINITION. The Storage Initiator Engine: commands and their status, NVMe/TCP connections, and the namespaces of the
record-slot drive (R400 to R408, R414, R415). -/

namespace Sys2Proof.Machine

/-! ## Commands (R400 to R402) -/

/-- Connection or namespace entry, from the bytes of an entry. -/
def entryIsNs (e : Bytes) : Bool := beAt e 1 1 == 1

/-- STATUS of a device error (R402). -/
def deviceError (code : Nat) : Nat := 2 * 2 ^ 14 + code

/-- STATUS of an NVMe completion with its status code type and code. -/
def nvmeStatus (sct sc : Nat) : Nat := if sct % 8 = 0 && sc % 256 = 0 then 0 else 2 ^ 14 + sct % 8 * 2 ^ 11 + sc % 256

/-- A completed entry (R380, R385, R400): its result, STATUS, and OWN 0. -/
def resultEntry (e : Bytes) (status dw0 bytes : Nat) : Bytes :=
  let e := overlay (overlay (overlay e 32 (toLE 4 dw0)) 36 (toLE 4 bytes)) 40 (zeros 16)
  overlay e 56 (toLE 8 (leAt e 56 4 + status * 2 ^ 32))

/-- The entry of a command completes, where its ring still holds it; counted (R422). -/
def State.completeEntry (s : State) (r q status dw0 bytes : Nat) : State :=
  let x := s.ring r
  if x.abandoned || !x.taken.any (fun t => t.seq == q && !t.done) then s
  else
    let s := s.setRing r { x with taken := x.taken.map (fun t =>
      if t.seq = q then { t with entry := resultEntry t.entry status dw0 bytes, done := true } else t) }
    let s := (s.bump Reg.SIE_CMD_DONE).trackGive
    s.when (2 ^ 14 ≤ status) (fun s => s.bump Reg.SIE_CMD_ERR)

def State.setCommands (s : State) (l : List StorCmd) : State := { s with sie := { s.sie with commands := l } }

/-- Add to a command's bytes moved. -/
def State.moveBytes (s : State) (c : StorCmd) (n : Nat) : State :=
  s.setCommands (s.sie.commands.map (fun x => if x = c then { x with moved := x.moved + n } else x))

/-- A command completes while its target may still answer: its identifier stays taken. -/
def State.finishEarly (s : State) (c : StorCmd) (status : Nat) : State :=
  if c.closed then s
  else (s.setCommands (s.sie.commands.map (fun x => if x = c then { x with closed := true } else x))).completeEntry c.ring c.seq status 0 c.moved

/-- A command completes and leaves. -/
def State.finish (s : State) (c : StorCmd) (status dw0 : Nat) : State :=
  let s := s.setCommands (s.sie.commands.erase c)
  if c.closed then s else s.completeEntry c.ring c.seq status dw0 c.moved

/-- Every command of a target completes with a device error. -/
def State.finishAll (s : State) (p : StorCmd → Bool) (code : Nat) : State :=
  (s.sie.commands.filter p).foldl (fun s c => s.finish c (deviceError code) 0) s

/-- The command of a target with an identifier. -/
def State.commandOf (s : State) (ns : Bool) (handle cid : Nat) : Option StorCmd :=
  s.sie.commands.find? (fun c => c.ns == ns && (ns || c.handle == handle) && c.cid == cid)

/-- The lowest identifier free towards a target. -/
def State.newCid (s : State) (ns : Bool) (handle : Nat) : Nat :=
  (findBelow 65536 (fun i => (s.commandOf ns handle i).isNone)).getD 0

/-- The oldest SUBMIT entry that SIE has not looked at. -/
def State.nextSubmit (s : State) (r : Nat) : Option Taken :=
  (s.ring r).taken.find? (fun t => !t.done && !s.sie.commands.any (fun c => c.ring == r && c.seq == t.seq))

/-- LBAs `a` to `a + n` of entry `i` touch the region of a recording that is not IDLE, on the same namespace (R401). -/
def State.recordingThere (s : State) (i a n : Nat) (skip : Option Nat) : Bool :=
  (List.range 64).any (fun k => some k != skip && s.get (Reg.REC_STATE k) != 0
    && s.get (Reg.NS_NSID (s.get (Reg.REC_NS k))) == s.get (Reg.NS_NSID i)
    && a < s.get (Reg.REC_START_LBA k) + s.get (Reg.REC_LBAS k) && s.get (Reg.REC_START_LBA k) < a + n)

/-- The checks of R401, in order: 0, or a device code. -/
def State.commandCheck (s : State) (e : Bytes) (owner : Nat) : Nat :=
  let opc := beAt e 0 1
  let ns := entryIsNs e
  let h := leAt e 2 2
  let nlb := leAt e 4 4
  let slba := leAt e 8 8
  let shift := if ns then s.get (Reg.NS_LBA_SHIFT h) else s.get (Reg.CONN_LBA_SHIFT h)
  let len := nlb * 2 ^ shift
  if 2 < opc || 1 < beAt e 1 1 then 1
  else if (if ns then 63 < h || s.get (Reg.NS_FUNC h) != owner
      else 8191 < h || s.get (Reg.CONN_FUNC h) != owner) then 2
  else if (if ns then !s.flag (Reg.NS_VALID h) || s.get (Reg.NS_PRESENT h) != 1 || s.get Reg.SIE_SLOT_STATUS_STATE != 5 else
    s.get (Reg.CONN_STATE h) != 3) then 3
  else if opc != 0 && (len < 1 || 131072 < len) then 4
  else if ns && opc != 0 && s.get (Reg.NS_NSZE h) < slba + nlb then 5
  else if ns && opc == 1 && s.recordingThere h slba nlb none then 6
  else 0

/-! ## XTS on a namespace (R415) -/

/-- The slot of a namespace, where an operation may capture it (R251, R252, R414). -/
def State.xtsSlot (s : State) (i : Nat) : Option KeySlot :=
  let k := s.get (Reg.NS_KEY i)
  if s.running .cku && s.slotLive k && s.get (Reg.SLOT_USAGE k) == 4 &&
      (s.get (Reg.SLOT_FUNC k) == s.get (Reg.NS_FUNC i) || s.get (Reg.SLOT_FUNC k) == 0) then s.keySlot k
  else none

/-- Transform data of entry `i` from LBA `a` on, block by block, under one key. `n` bounds the blocks. -/
def xtsBlocks (key : Bytes) (enc : Bool) (i size : Nat) : Nat → Nat → Bytes → Bytes
  | 0, _, _ => []
  | n + 1, a, l => if l.isEmpty then [] else Config.xts key (i * 2 ^ 64 + a) enc (l.take size) ++ xtsBlocks key enc i size n (a + 1) (l.drop size)

/-- The first XTS operation of a transfer of blocks of `size` bytes: what it makes of the data, the data as it is where the entry
has ENC 0, with the operations left; or the device code of the refusal: 11 where the slot gives no key, 4 where CKU transforms no
such data unit (R264, R266; the spec gives that refusal no code: DESIGN CHOICE, log entry 69). An operation has at most 32 data
units. -/
def State.xtsBegin (s : State) (i : Nat) (enc : Bool) (nsid size lba dw0 : Nat) (l : Bytes) : Except Nat (Bytes × Option XtsRun) × State :=
  if !s.flag (Reg.NS_ENC i) then (.ok (l, none), s)
  else if size != 512 && size != 4096 then (.error 4, s.bump Reg.CKU_LENGTH_ERR)
  else match s.xtsSlot i with
    | none => (.error 11, s.bump Reg.CKU_KEY_EMPTY)
    | some k =>
      let half := k.half k.second
      let out := xtsBlocks (keyOfBlob half) enc i size 32 lba (l.take (32 * size))
      let rest := l.drop (32 * size)
      (.ok (out, if rest.isEmpty then none else some ⟨nsid, size, k.second, half, lba + 32, rest, if enc then out else [], dw0⟩), s.trackPulse)

/-- The slot still holds the half that the first operation captured (R415). -/
def State.xtsHolds (s : State) (i : Nat) (x : XtsRun) : Bool := (s.xtsSlot i).any (fun k => k.half x.second == x.half)

/-! ## TCP (R404) -/

def State.conn? (s : State) (c : Nat) : Option ConnRt := Assoc.get? s.sie.conns c
def State.setConn (s : State) (c : Nat) (x : ConnRt) : State := { s with sie := { s.sie with conns := Assoc.set s.sie.conns c x } }
def State.dropConn (s : State) (c : Nat) : State := { s with sie := { s.sie with conns := Assoc.erase s.sie.conns c } }

/-- A segment goes through the pipelines as source HOST, for the connection's owner (R404). `flags` are TCP's: 1 FIN, 2 SYN,
4 RST, 16 ACK. The timestamp that SIE sends is not given. -/
def State.sendTcp (s : State) (c : Nat) (x : ConnRt) (seq flags : Nat) (l : Bytes) : State :=
  let (ts, s) := s.takeFree
  let wide := fun (f : Field) => s.get f + 2 ^ 64 * s.get ⟨f.key + 8, 63, 0⟩
  let syn := bitAt flags 1
  let frame := Config.tcpFrame [s.get (Reg.CONN_FAM c), wide (Reg.CONN_LADDR c), wide (Reg.CONN_RADDR c), s.get (Reg.CONN_LPORT c),
    s.get (Reg.CONN_RPORT c), seq % 2 ^ 32, if bitAt flags 4 then x.rcv else 0, flags, 2 ^ (s.get (Reg.CONN_RCV_WND_LOG2 c) + 16),
    if syn then s.get (Reg.CONN_MSS c) else 0, ts % 2 ^ 32, if bitAt flags 4 then x.tsRecent else 0] l
  s.distribute ⟨33, s.get (Reg.CONN_FUNC c), frame, frame.length, 0, 0, false, true, false, false, none, none, 0, 0, .none⟩ 0

/-- A bare acknowledgement. -/
def State.sendAck (s : State) (c : Nat) : State :=
  match s.conn? c with | none => s | some x => s.sendTcp c x x.nxt 16 []

/-- Bytes in flight. -/
def ConnRt.flight (x : ConnRt) : Nat := (x.nxt + 2 ^ 32 - x.una) % 2 ^ 32

/-- Data that the windows allow goes out, segment by segment; a FIN follows the last byte. -/
def State.pumpTcp (s : State) (c : Nat) : Nat → State
  | 0 => s
  | n + 1 =>
    match s.conn? c with
    | none => s
    | some x =>
      if x.syn then s
      else
        let sent := x.flight
        let room := min x.cwnd x.wnd - sent
        let l := (x.buf.drop sent).take (min x.mss room)
        if !l.isEmpty then
          ((s.setConn c { x with nxt := (x.nxt + l.length) % 2 ^ 32 }).sendTcp c x x.nxt 16 l).pumpTcp c n
        else if x.fin && !x.finSent && sent = x.buf.length then
          (s.setConn c { x with nxt := (x.nxt + 1) % 2 ^ 32, finSent := true }).sendTcp c x x.nxt 17 []
        else s

/-- Queue bytes of a PDU and send. -/
def State.sendPdu (s : State) (c kind : Nat) (fields : List Nat) (l : Bytes) : State :=
  match s.conn? c with
  | none => s
  | some x =>
    let b := x.buf ++ Config.pdu kind fields l
    (s.setConn c { x with buf := b }).pumpTcp c (b.length + 1)

/-- Queue a PDU of a command, with the digests in force and the alignment that the controller asked for (R403). -/
def State.sendCommandPdu (s : State) (c kind : Nat) (fields : List Nat) (l : Bytes) : State :=
  match s.conn? c with
  | none => s
  | some x => s.sendPdu c kind (fields ++ [bit x.hdgst, bit x.ddgst, x.cpda]) l

/-- PDU types of NVMe/TCP. -/
def pduIcReq : Nat := 0
def pduH2cTermReq : Nat := 2
def pduCapsuleCmd : Nat := 4
def pduH2cData : Nat := 6

/-- The oldest segment is sent again (R404). -/
def State.resend (s : State) (c : Nat) (x : ConnRt) : State :=
  let s := s.bump Reg.SIE_TCP_RETX
  if x.syn then s.sendTcp c x x.una 2 []
  else
    let l := x.buf.take (min x.mss x.flight)
    s.sendTcp c x x.una (if l.isEmpty && x.finSent then 17 else 16) l

/-- The connection fails with a cause (R407): commands complete with TARGET_DOWN, CONN_DOWN is raised. -/
def State.failConn (s : State) (c cause : Nat) : State :=
  let s := s.finishAll (fun x => !x.ns && x.handle == c) 3
  let s := ((s.dropConn c).put (Reg.CONN_STATE c) 5).put (Reg.CONN_DOWN_CAUSE c) cause
  s.raiseFor .sie 2 (s.get (Reg.CONN_FUNC c)) [(16, c), (8, cause)]

/-- RST is sent, then the connection fails. -/
def State.resetConn (s : State) (c cause : Nat) : State :=
  let s := match s.conn? c with | some x => s.sendTcp c x x.nxt 4 [] | none => s
  s.failConn c cause

/-- H2CTermReq, RST, and the cause (R405). -/
def State.termConn (s : State) (c cause : Nat) : State := (s.sendPdu c pduH2cTermReq [] []).resetConn c cause

/-- A graceful close has ended on both sides (R407). -/
def State.closeWhenDone (s : State) (c : Nat) : State :=
  match s.conn? c with
  | some x => if x.finSent && x.flight = 0 && x.buf.isEmpty && x.peerFin && s.get (Reg.CONN_STATE c) == 4 then
      ((s.dropConn c).put (Reg.CONN_STATE c) 0).put (Reg.CONN_DOWN_CAUSE c) 0 else s
  | none => s

/-- A connection in CLOSING has no command in flight left: FIN (R407). -/
def State.finWhenIdle (s : State) (c : Nat) : State :=
  match s.conn? c with
  | some x =>
    if s.get (Reg.CONN_STATE c) == 4 && !x.fin && !s.sie.commands.any (fun m => !m.ns && m.handle == c) then
      (s.setConn c { x with fin := true }).pumpTcp c (x.buf.length + 2)
    else s
  | none => s

/-- A field of R406 is invalid. -/
def State.badConn (s : State) (c : Nat) : Bool :=
  let q := s.get (Reg.CONN_QSIZE c)
  let m := s.get (Reg.CONN_MSS c)
  q < 2 || 128 < q || m < 536 || 9000 < m || 8 < s.get (Reg.CONN_RCV_WND_LOG2 c) || s.get (Reg.CONN_QID c) == 0
    || (s.get (Reg.CONN_LBA_SHIFT c) != 9 && s.get (Reg.CONN_LBA_SHIFT c) != 12)

/-- A command of SIE_CONN_CMD by its OP (R407, R422): 1 OPEN, 2 CLOSE, 3 ABORT. A CLOSE before the peer has answered the SYN
ends the connection at once: there is nothing to send a FIN to (DEDUCED, log entry 68). -/
def State.connCmd (s : State) (r : Requester) (op c : Nat) : State :=
  if !s.mayWrite r Reg.SIE_CONN_CMD_OP.key || !s.running .sie || 8191 < c then s
  else
    let st := s.get (Reg.CONN_STATE c)
    let res := fun (s : State) (n : Nat) => s.put Reg.SIE_CONN_STATUS_RESULT n
    match op with
    | 1 =>
      if st != 0 && st != 5 then res s 1
      else if s.badConn c then res s 2
      else
        let n := Assoc.getD s.sie.opens c 0
        let i := Config.isn c n % 2 ^ 32
        let x : ConnRt := ⟨i, (i + 1) % 2 ^ 32, [], true, false, false, 0, 0, 0, 0, s.get (Reg.CONN_MSS c), 0, 2 ^ 32, 0, none, 0,
            false, false, false, 0, false⟩
        let s : State := { s with sie := { s.sie with opens := Assoc.set s.sie.opens c (n + 1) } }
        res (((s.setConn c x).put (Reg.CONN_STATE c) 1).sendTcp c x i 2 []) 0
    | 2 => if st = 1 then res (((s.dropConn c).put (Reg.CONN_STATE c) 0).put (Reg.CONN_DOWN_CAUSE c) 0) 0
      else if 2 ≤ st && st ≤ 3 then res ((s.put (Reg.CONN_STATE c) 4).finWhenIdle c) 0 else res s 0
    | 3 => if 1 ≤ st && st ≤ 4 then res (s.resetConn c 6) 0 else res s 0
    | _ => s

/-- OPEN (R407). -/
def execOpenConn (r : Requester) (c : Fin 8192) (s : State) : Host.Outcome State Fault Refusal := ok (s.connCmd r 1 c)
/-- CLOSE (R407). -/
def execCloseConn (r : Requester) (c : Fin 8192) (s : State) : Host.Outcome State Fault Refusal := ok (s.connCmd r 2 c)
/-- ABORT (R407). -/
def execAbortConn (r : Requester) (c : Fin 8192) (s : State) : Host.Outcome State Fault Refusal := ok (s.connCmd r 3 c)

/-- A TCP segment as SIE reads it: sequence, acknowledgement, window field, SYN and FIN, timestamps (value, echo), the MSS and
window scale of a SYN, payload. -/
def State.takeSegment (s : State) (c : Nat) (m : TcpSegment) : State :=
  match s.conn? c with
  | none => s
  | some x =>
    if s.get (Reg.CONN_STATE c) == 1 then
      -- the SYN-ACK
      if !m.syn || m.ack != x.nxt then s
      else if m.ts.isNone then s.resetConn c 4
      else
        let mss := min (s.get (Reg.CONN_MSS c)) m.mss - 12
        let y := { x with una := x.nxt, syn := false, rcv := (m.seq + 1) % 2 ^ 32, tsRecent := m.ts.getD 0, wnd := m.window,
                          scale := m.scale, mss := mss, cwnd := 10 * mss, timeouts := 0 }
        (((s.setConn c y).put (Reg.CONN_STATE c) 2).sendAck c).sendPdu c pduIcReq
          [s.get (Reg.CONN_HDGST c), s.get (Reg.CONN_DDGST c)] []
    else match m.ts with
      | none => s
      | some ts =>
        if serialNewer 32 x.tsRecent ts then s.sendAck c
        else
          -- the acknowledgement
          let acked := (m.ack + 2 ^ 32 - x.una) % 2 ^ 32
          let fresh := decide (1 ≤ acked ∧ acked ≤ x.flight)
          let dup := acked == 0 && m.payload.isEmpty && x.flight != 0 && !m.fin
          let x := { x with wnd := m.window * 2 ^ x.scale, tsRecent := if serialNewer 32 m.seq x.rcv then x.tsRecent else ts }
          let y := if fresh then
              let buf := x.buf.drop (min acked x.buf.length)
              let part := match x.recover with | some q => serialNewer 32 q m.ack | none => false
              { x with una := m.ack, buf := buf, timeouts := 0, dups := 0,
                       recover := if part then x.recover else none,
                       cwnd := if part then x.cwnd - acked + (if x.mss ≤ acked then x.mss else 0) else if x.recover.isSome then x.ssthresh
                         else if x.cwnd < x.ssthresh then x.cwnd + min acked x.mss else x.cwnd + max 1 (x.mss * x.mss / x.cwnd) }
            else if dup then
              let y := { x with dups := x.dups + 1 }
              if y.dups = 3 && y.recover.isNone then
                let h := max (x.flight / 2) (2 * x.mss)
                { y with ssthresh := h, cwnd := h + 3 * x.mss, recover := some x.nxt }
              else if y.recover.isSome then { y with cwnd := y.cwnd + x.mss }
              else y
            else x
          let s := s.setConn c y
          let again := (dup && y.dups == 3 && x.recover.isNone) || (fresh && y.recover.isSome)
          let s := s.when again (fun s => s.resend c y)
          -- the data
          let len := m.payload.length + bit m.fin
          let s := if len = 0 then s
            else if m.seq = y.rcv then
              (s.setConn c { y with rcv := (y.rcv + len) % 2 ^ 32, peerFin := y.peerFin || m.fin }).sendAck c
            else s.sendAck c
          let s := s.pumpTcp c (y.buf.length + 2)
          if m.fin && m.seq == y.rcv && s.get (Reg.CONN_STATE c) != 4 then s.failConn c 4 else s.closeWhenDone c

/-- TCP_SEGMENT (R404). -/
def execTcpSegment (c : Fin 8192) (m : TcpSegment) (s : State) : Host.Outcome State Fault Refusal :=
  ok (if s.running .sie then s.takeSegment c m else s)

/-- TCP_RETRANSMIT_TIMEOUT (R404): the twelfth in a row fails the connection. -/
def execTcpRetransmitTimeout (c : Fin 8192) (s : State) : Host.Outcome State Fault Refusal :=
  match s.conn? c with
  | none => ok s
  | some x =>
    if !s.running .sie || x.flight = 0 then ok s
    else if 12 ≤ x.timeouts + 1 then ok (s.failConn c 1)
    else
      let y := { x with timeouts := x.timeouts + 1, ssthresh := max (x.flight / 2) (2 * x.mss), cwnd := x.mss, dups := 0, recover := none }
      ok ((s.setConn c y).resend c y)

/-- PEER_RST (R407, R421): judged against the connection in force. -/
def execPeerRst (c : Fin 8192) (seq ack : Word) (s : State) : Host.Outcome State Fault Refusal :=
  match s.conn? c with
  | none => ok s
  | some x =>
    let fits := if x.syn then ack.toNat == x.nxt
      else (seq.toNat + 2 ^ 32 - x.rcv) % 2 ^ 32 < 2 ^ (s.get (Reg.CONN_RCV_WND_LOG2 c) + 16)
    ok (if s.running .sie && fits then s.failConn c 2 else s)

/-! ## PDUs (R403, R405, R407) -/

/-- The command identifier of the Fabrics Connect: the lowest, with no other command in flight (DESIGN CHOICE, log entry 68). -/
def connectCid : Nat := 0

/-- ICRESP (R403): the Fabrics Connect follows; an answer that does not fit the profile, or that turns a digest on which was not
requested, is a protocol error (DEDUCED, log entry 68). -/
def execIcresp (c : Fin 8192) (m : IcResp) (s : State) : Host.Outcome State Fault Refusal :=
  match s.conn? c with
  | none => ok s
  | some x =>
    if !s.running .sie || s.get (Reg.CONN_STATE c) != 2 || x.connecting then ok s
    else if !m.good || (m.hdgst && !s.flag (Reg.CONN_HDGST c)) || (m.ddgst && !s.flag (Reg.CONN_DDGST c)) then ok (s.termConn c 4)
    else ok ((s.setConn c { x with connecting := true, hdgst := m.hdgst, ddgst := m.ddgst, cpda := m.cpda }).sendCommandPdu c pduCapsuleCmd
      [0x7F, connectCid, s.get (Reg.CONN_QID c), s.get (Reg.CONN_CNTLID c), s.get (Reg.CONN_QSIZE c) - 1] [])

/-- The Fabrics Connect completes (R407). -/
def State.connectDone (s : State) (c status : Nat) : State :=
  if status = 0 then (s.put (Reg.CONN_STATE c) 3).raiseFor .sie 1 (s.get (Reg.CONN_FUNC c)) [(16, c)]
  else (s.put Reg.SIE_CONN_STATUS_CONNECT_STATUS status).resetConn c 5

/-- The Connect of connection `c` is under way. -/
def State.connectWaits (s : State) (c : Nat) : Bool :=
  s.running .sie && s.get (Reg.CONN_STATE c) == 2 && (match s.conn? c with | some x => x.connecting | none => false)

/-- CONN_UP (R407): the Connect completes with an NVMe status. -/
def execConnUp (c : Fin 8192) (status : BitVec 16) (s : State) : Host.Outcome State Fault Refusal :=
  ok (if s.connectWaits c then s.connectDone c status.toNat else s)

/-- The connection takes PDUs: in ICREQ none of a command but the Connect is in flight (R405). -/
def State.connServes (s : State) (c : Nat) : Bool :=
  s.running .sie && 2 ≤ s.get (Reg.CONN_STATE c) && s.get (Reg.CONN_STATE c) ≤ 4

/-- A header digest fails where the connection has one (R403, R405). -/
def State.hdrBad (s : State) (c : Nat) (hdrOk : Bool) : Bool := !hdrOk && (s.conn? c).any (·.hdgst)

/-- CAPSULE_RESP (R403, R405). -/
def execCapsuleResp (c : Fin 8192) (cid : BitVec 16) (hdrOk : Bool) (sct : Fin 8) (sc : BitVec 8) (dw0 : Word) (s : State) :
    Host.Outcome State Fault Refusal :=
  if s.connectWaits c then
    ok (if s.hdrBad c hdrOk then s.termConn c 3 else if cid.toNat != connectCid then s.termConn c 4 else
      s.connectDone c (nvmeStatus sct sc.toNat % 2 ^ 14))
  else if !s.connServes c then ok s
  else if s.hdrBad c hdrOk then ok (s.termConn c 3)
  else match s.commandOf false c cid.toNat with
    | none => ok (s.termConn c 4)
    | some x => ok ((s.finish x (nvmeStatus sct sc.toNat) dw0.toNat).finWhenIdle c)

/-- C2H_DATA (R405): payload at an offset of the command's buffer; `dataOk` is the data digest's verdict, and `success` says
that the last PDU stands for the completion. -/
def execC2hData (c : Fin 8192) (cid : BitVec 16) (off : Nat) (payload : Bytes) (hdrOk dataOk last success : Bool)
    (walks : List Walk8) (s : State) : Host.Outcome State Fault Refusal :=
  if !s.connServes c then ok s
  else if s.hdrBad c hdrOk then ok (s.termConn c 3)
  else match s.commandOf false c cid.toNat with
    | none => ok (s.termConn c 4)
    | some x =>
      if x.opc != 2 || x.len < off + payload.length then ok (s.termConn c 4)
      else
        let s := if x.closed then s
          else s.withWalks walks (fun s =>
            let ((good, n), s) := s.dmaWrite x.func (x.buf + off) payload
            let s := s.moveBytes x n
            match s.commandOf false c cid.toNat with
            | none => s
            | some x =>
              if !good then s.finishEarly x (deviceError 7)
              else if !dataOk && (s.conn? c).any (·.ddgst) then (s.bump Reg.SIE_DIGEST_ERR).finishEarly x (deviceError 8)
              else s)
        if last && success then
          match s.commandOf false c cid.toNat with
          | some x => ok ((s.finish x 0 0).finWhenIdle c)
          | none => ok s
        else ok s

/-- READY_TO_TRANSFER (R403, R405): H2CData with the bytes asked for, with the buffer's bytes, none where their read failed. -/
def execReadyToTransfer (c : Fin 8192) (cid ttag : BitVec 16) (off len : Nat) (found : R2tFound) (walks : List Walk8)
    (s : State) :
    Host.Outcome State Fault Refusal :=
  if !s.connServes c then ok s
  else if s.hdrBad c found.hdrOk then ok (s.termConn c 3)
  else match s.commandOf false c cid.toNat with
    | none => ok (s.termConn c 4)
    | some x =>
      if x.opc != 1 || x.len < off + len then ok (s.termConn c 4)
      else if x.closed then ok s
      else
        ok (s.withWalks walks (fun s =>
          match s.dmaRead (.command x.ring x.seq) x.func (x.buf + off) len, found.data with
          | (true, s), some l => (s.moveBytes x len).sendCommandPdu c pduH2cData [cid.toNat, ttag.toNat, off, len] (sliceB (l ++ zeros len) 0 len)
          | (_, s), _ => s.finishEarly x (deviceError 7)))

/-- C2H_TERM_REQ (R405): a termination request, or a malformed PDU. -/
def execC2hTermReq (c : Fin 8192) (s : State) : Host.Outcome State Fault Refusal :=
  ok (if s.running .sie && 2 ≤ s.get (Reg.CONN_STATE c) && s.get (Reg.CONN_STATE c) ≤ 4 then s.termConn c 4 else s)

/-- CONN_CONTEXT_WRITE (R406): words 0 to 12, only while CLOSED. -/
def State.writeConn (s : State) (r : Requester) (c word v : Nat) : State :=
  if s.get (Reg.CONN_STATE c) != 0 || !isManager r || !s.served r then s else s.writeWord r (0x0D100000 + 64 * c + 4 * word) v

def execConnContextWrite (r : Requester) (c : Fin 8192) (word : Fin 16) (v : Word) (s : State) : Host.Outcome State Fault Refusal :=
  ok (s.writeConn r c word v.toNat)

/-! ## Issue -/

/-- What a command moves: its length in bytes. -/
def State.commandLen (s : State) (e : Bytes) : Nat :=
  if beAt e 0 1 = 0 then 0
  else leAt e 4 4 * 2 ^ (if entryIsNs e then s.get (Reg.NS_LBA_SHIFT (leAt e 2 2)) else s.get (Reg.CONN_LBA_SHIFT (leAt e 2 2)))

/-- Commands in flight on a connection have reached its depth (R403). -/
def State.connBusy (s : State) (c : Nat) : Bool :=
  min 127 (s.get (Reg.CONN_QSIZE c) - 1) ≤ (s.sie.commands.filter (fun x => !x.ns && x.handle == c)).length

/-- The data-unit size of a command: the LBA size of its target. -/
def StorCmd.unitSize (x : StorCmd) : Nat := x.len / x.nlb

/-- The XTS operations left are set down with the command (R415). -/
def State.setXts (s : State) (x : StorCmd) (run : Option XtsRun) : State :=
  s.setCommands (s.sie.commands.map (fun y => if y = x then { y with xts := run } else y))

/-- A command to a namespace is given to the drive; the data of a WRITE is read from the host and transformed first, which the
operations after the first do at the next tick boundary (R415; DESIGN CHOICE, log entry 69). -/
def State.issueNs (s : State) (x : StorCmd) (data : Option Bytes) : State :=
  let i := x.handle
  let s := s.setCommands (s.sie.commands ++ [x])
  let nsid := s.get (Reg.NS_NSID i)
  match x.opc with
  | 1 =>
    match s.dmaRead (.command x.ring x.seq) x.func x.buf x.len, data with
    | (true, s), some l =>
      match s.xtsBegin i true nsid x.unitSize x.slba 0 (sliceB (l ++ zeros x.len) 0 x.len) with
      | (.ok (l, none), s) => (s.emit (.nvme 1 nsid x.slba x.nlb l)).moveBytes x x.len
      | (.ok (_, some run), s) => s.setXts x (some run)
      | (.error code, s) => s.finish x (deviceError code) 0
    | (_, s), _ => s.finish x (deviceError 7) 0
  | op => s.emit (.nvme op nsid x.slba (if op = 0 then 0 else x.nlb) [])

/-- A command to a connection goes out in a CapsuleCmd. -/
def State.issueConn (s : State) (x : StorCmd) (nsid : Nat) : State :=
  (s.setCommands (s.sie.commands ++ [x])).sendCommandPdu x.handle pduCapsuleCmd
    [x.opc, x.cid, nsid, x.slba, if x.opc = 0 then 0 else x.nlb, x.len] []

/-- The next SUBMIT entry of a ring, where its OPC is `opc` or none of the three, is checked and issued (R400, R401). -/
def State.issueNext (s : State) (r opc : Nat) (data : Option Bytes) : State :=
  if !s.running .sie || !s.running .qe || s.ringType r != 2 then s
  else match s.nextSubmit r with
    | none => s
    | some t =>
      let e := t.entry
      if beAt e 0 1 != opc && beAt e 0 1 ≤ 2 then s
      else match s.commandCheck e (s.ringFunc r) with
        | 0 =>
          let ns := entryIsNs e
          let h := leAt e 2 2
          if !ns && s.connBusy h then s
          else
            let x : StorCmd := ⟨r, t.seq, ns, h, s.newCid ns h, opc, leAt e 8 8, leAt e 4 4, leAt e 16 8, s.commandLen e, 0,
                false, s.ringFunc r, none⟩
            if ns then s.issueNs x data else s.issueConn x (leAt e 24 4)
        | code => s.completeEntry r t.seq (deviceError code) 0 0

/-- NVME_FLUSH (R400). -/
def execNvmeFlush (ring : Fin 131072) (s : State) : Host.Outcome State Fault Refusal := ok (s.issueNext ring 0 none)

/-- NVME_WRITE (R400): `data` is the host buffer as read, none where the read failed; a connection reads it later (R403). -/
def execNvmeWrite (ring : Fin 131072) (data : Option Bytes) (walks : List Walk8) (s : State) : Host.Outcome State Fault Refusal :=
  ok (s.withWalks walks (fun s => s.issueNext ring 1 data))

/-- NVME_READ (R400). -/
def execNvmeRead (ring : Fin 131072) (s : State) : Host.Outcome State Fault Refusal := ok (s.issueNext ring 2 none)

/-- No command to the drive is in flight: no NS command, and no WRITE of a recording's chunk. -/
def State.driveIdle (s : State) : Bool := !s.sie.commands.any (·.ns) && s.sie.recs.all (·.staged.isEmpty)

/-- CC.SHN is written (R412). -/
def State.shutDrive (s : State) : State := ({ s with sie := { s.sie with shn := true } }).emit .driveShutdown

/-- CC.SHN is written once no command is in flight in REMOVING (R412). -/
def State.shutdownWhenIdle (s : State) : State :=
  if s.get Reg.SIE_SLOT_STATUS_STATE == 6 && !s.sie.shn && s.driveIdle then s.shutDrive else s

/-- Data of a READ goes to the host buffer of its ring's owner, behind what has gone there (R400, R415). -/
def State.readPart (s : State) (x : StorCmd) (l : Bytes) : Bool × State :=
  let ((good, n), s) := s.dmaWrite x.func (x.buf + x.moved) l
  (good, s.moveBytes x n)

/-- The XTS operations of a command after its first (R415): refused where the slot has been emptied, is being erased or has lost the
half captured; those of a WRITE end in its command to the drive, those of a READ in its completion. -/
def State.xtsRest (s : State) (x : StorCmd) (run : XtsRun) : State :=
  if x.closed then (s.finish x 0 run.dw0).shutdownWhenIdle
  else if !s.xtsHolds x.handle run then ((s.bump Reg.CKU_KEY_EMPTY).finish x (deviceError 11) 0).shutdownWhenIdle
  else
    let s := s.trackPulse
    let l := xtsBlocks (keyOfBlob run.half) (x.opc == 1) x.handle run.size run.rest.length run.lba run.rest
    if x.opc = 1 then
      let s := (s.setXts x none).emit (.nvme 1 run.nsid x.slba x.nlb (run.done ++ l))
      s.moveBytes { x with xts := none } x.len
    else
      let (good, s) := (s.setXts x none).readPart { x with xts := none } l
      match s.commandOf true 0 x.cid with
      | none => s
      | some x => (s.finish x (if good then 0 else deviceError 7) run.dw0).shutdownWhenIdle

/-- The XTS operations that wait run (R415). -/
def State.xtsRun (s : State) : State :=
  s.sie.commands.foldl (fun s x => match x.xts with | some run => s.xtsRest x run | none => s) s

/-- STORAGE_COMPLETE (R402, R415): the drive completes a namespace command; `data` is what a READ brought. -/
def execStorageComplete (cid : BitVec 16) (sct : Fin 8) (sc : BitVec 8) (dw0 : Word) (data : Bytes) (walks : List Walk8) (s : State) :
    Host.Outcome State Fault Refusal :=
  match s.commandOf true 0 cid.toNat with
  | none => ok s
  | some x =>
    let st := nvmeStatus sct sc.toNat
    if !s.running .sie then ok s
    else if x.xts.isSome then ok s
    else if x.opc != 2 || st != 0 || x.closed then ok ((s.finish x st dw0.toNat).shutdownWhenIdle)
    else match s.xtsBegin x.handle false 0 x.unitSize x.slba dw0.toNat (sliceB (data ++ zeros x.len) 0 x.len) with
      | (.error code, s) => ok ((s.finish x (deviceError code) 0).shutdownWhenIdle)
      | (.ok (l, run), s) =>
        ok (s.withWalks walks (fun s =>
          let (good, s) := s.readPart x l
          match s.commandOf true 0 cid.toNat with
          | none => s
          | some x =>
            if good && run.isSome then s.setXts x run
            else (s.finish x (if good then 0 else deviceError 7) dw0.toNat).shutdownWhenIdle))

/-- STORAGE_CMD_TIMEOUT (R402, R407): a command completes with TIMEOUT; one of a connection aborts it. -/
def execStorageCmdTimeout (ns : Bool) (handle : Fin 8192) (cid : BitVec 16) (s : State) : Host.Outcome State Fault Refusal :=
  match s.commandOf ns handle cid.toNat with
  | none => ok s
  | some x =>
    if !s.running .sie then ok s
    else if ns then ok (s.finishEarly x (deviceError 9))
    else ok ((s.finish x (deviceError 9) 0).resetConn handle 8)

/-- The connections that are not CLOSED. -/
def State.openConns (s : State) : List Nat :=
  (s.regs.filter (fun x => 0x0D100000 ≤ x.1 && x.1 < 0x0D180000 && x.1 % 64 == 0 && x.2.toNat / 2 ^ 29 != 0)).map
    (fun x => (x.1 - 0x0D100000) / 64)

/-- Standalone mode (R408): every connection that is not CLOSED is aborted, and its commands abandoned. -/
def State.storageStandalone (s : State) : State :=
  let conns := s.openConns
  let s := s.setCommands (s.sie.commands.filter (·.ns))
  conns.foldl (fun s c => s.resetConn c 7) s

/-! ## Namespaces (R414) -/

/-- NAMESPACE_WRITE (R414). -/
def State.writeNamespace (s : State) (r : Requester) (i word v : Nat) : State :=
  if !isManager r || !s.served r || (s.flag (Reg.NS_VALID i) && s.get Reg.SIE_SLOT_STATUS_STATE == 5) then s
  else s.writeWord r (0x0D180000 + 32 * i + 4 * word) v

def execNamespaceWrite (r : Requester) (ns : Fin 64) (word : Fin 8) (v : Word) (s : State) : Host.Outcome State Fault Refusal :=
  ok (s.writeNamespace r ns word v.toNat)

end Sys2Proof.Machine
end

