-- ==== Sys2Proof/Machine/Shaping.lean ====
section
/-! DEFINITION. EGU's gate commands, credit-based shapers, shaper instances, policers and function map, and the telemetry
ring's controls (R213 to R222, R225, R226). -/

namespace Sys2Proof.Machine

/-! ## Gate commands (R213, R214) -/

/-- GATE_LIST_WRITE: word `i` of the staging window. -/
def State.writeGate (s : State) (r : Requester) (i v : Nat) : State :=
  let k := 0x07004000 + 4 * i
  if !s.mayWrite r k then s
  else s.localOnly (fun s =>
    if s.flag Reg.EGU_GATE_CTL_BUSY then s.put Reg.EGU_GATE_CTL_LOST 1
    else
      let s := s.writeWord r k v
      s.carry 0 (.words [(k, BitVec.ofNat 32 (s.rd k))]))

def execGateListWrite (r : Requester) (word : Fin 2048) (v : Word) (s : State) : Host.Outcome State Fault Refusal :=
  ok (s.writeGate r word v.toNat)

/-- Starts rise strictly below a limit. -/
def rising : Nat → List (Nat × Nat) → Bool
  | _, [] => true
  | lo, e :: l => lo ≤ e.1 && rising (e.1 + 1) l

/-- The check of R213 on a staged list. -/
def State.gateListOk (s : State) (p : Nat) : Bool :=
  let l := s.gateFrom (gateStaged p) 64 0
  (l.headD (1, 0)).1 == 0 && rising 0 l && l.all (fun e => e.1 < s.period) &&
    bitAt (s.rd (gateStaged p (l.length - 1))) 31

/-- A refused commit (R213). -/
def State.gateRefused (s : State) (code port : Nat) : State :=
  let s := (s.put Reg.EGU_GATE_STATUS_RESULT code).put Reg.EGU_GATE_STATUS_ERR_PORT port
  ((s.put Reg.EGU_GATE_CTL_BUSY 0).put Reg.EGU_GATE_CTL_COMMIT 0).raise .egu 12 [(8, code), (8, port)]

/-- GATE_COMMIT (R213). -/
def State.gateCommit (s : State) (r : Requester) : State :=
  if !s.mayWrite r 0x07001100 then s
  else s.localOnly (fun s =>
    if s.flag Reg.EGU_GATE_CTL_BUSY then s.put Reg.EGU_GATE_CTL_LOST 1
    else
      let s := (s.put Reg.EGU_GATE_CTL_BUSY 1).put Reg.EGU_GATE_CTL_COMMIT 1
      match findBelow 32 (fun p => !s.gateListOk p) with
      | some p => s.gateRefused 1 p
      | none =>
        let want := s.get Reg.EGU_GATE_COMMIT_TICK
        let earliest := s.tick + 2
        if want != 0 && want < earliest then s.gateRefused 2 0
        else
          let t := if want = 0 then earliest else want
          let s := (s.put Reg.EGU_GATE_COMMIT_TICK t).put Reg.EGU_GATE_STATUS_RESULT 0
          ({ s with egu := { s.egu with gateTick := some t } }).carry t .gateCommit)

def execGateCommit (r : Requester) (s : State) : Host.Outcome State Fault Refusal := ok (s.gateCommit r)

/-- At the start of tick t the banks switch (R213). -/
def State.switchGates (s : State) : State :=
  match s.egu.gateTick with
  | some t => if t ≤ s.tick then s.settle.wrWords 0x07006000 ((List.range 2048).map (fun i => s.rd (0x07004000 + 4 * i))) else s
  | none => s

/-- GATE_COMMIT_DONE (R213): the banks have switched; the new committed bank is copied into the staging bank, which has not changed
since, as writes while BUSY are discarded. -/
def execGateCommitDone (s : State) : Host.Outcome State Fault Refusal :=
  match s.egu.gateTick with
  | none => ok s
  | some t =>
    if s.tick < t then ok s
    else
      let s := s.switchGates
      let s : State := { s with egu := { s.egu with gateTick := none } }
      ok (((s.put Reg.EGU_GATE_CTL_BUSY 0).put Reg.EGU_GATE_CTL_COMMIT 0).raise .egu 11 [(48, t)])

/-! ## Credit-based shaper commands (R216) -/

/-- CBS_SLOPE_WRITE. -/
def State.writeSlope (s : State) (r : Requester) (i v : Nat) : State :=
  let k := (Reg.EGU_CBS_SLOPE_IDLE_SLOPE i).key
  let p := i / 8
  let others := sumOf ((List.range 8).filter (fun c => 8 * p + c != i)) (fun c => s.get (Reg.EGU_CBS_SLOPE_IDLE_SLOPE (8 * p + c)))
  if !s.mayWrite r k || s.portRate p * 1000 < others + v % 2 ^ 19 then s
  else (s.settle.writeWord r k v).setCredit i 0

def execCbsSlopeWrite (r : Requester) (queue : Fin 256) (v : Word) (s : State) : Host.Outcome State Fault Refusal :=
  ok (s.writeSlope r queue v.toNat)

/-- CBS_LIMIT_WRITE. -/
def State.writeCreditLimit (s : State) (r : Requester) (i v : Nat) : State :=
  let k := (Reg.EGU_CBS_LIMIT_HI_CREDIT i).key
  if !s.mayWrite r k then s else (s.settle.writeWord r k v).setCredit i 0

def execCbsLimitWrite (r : Requester) (queue : Fin 256) (v : Word) (s : State) : Host.Outcome State Fault Refusal :=
  ok (s.writeCreditLimit r queue v.toNat)

/-! ## Instances and the function map (R217, R218, R221, R222) -/

/-- The chain of nodes from a node up, itself first, over at most `n` of them. -/
def State.chain (s : State) : Nat → Nat → List Nat
  | 0, _ => []
  | n + 1, k => k :: (if s.flag (Reg.SHAPER_PARENT_EN k) then s.chain n (s.get (Reg.SHAPER_PARENT k)) else [])

/-- Instances with a word 0 other than zero. -/
def State.instances (s : State) : List Nat :=
  (s.regs.filter (fun x => 0x07200000 ≤ x.1 && x.1 < 0x07240000 && x.1 % 16 == 0)).map (fun x => (x.1 - 0x07200000) / 16)

/-- Node `j` has a parent. -/
def State.hasParent (s : State) (j : Nat) : Bool := !s.flag (Reg.SHAPER_KIND j) && s.flag (Reg.SHAPER_PARENT_EN j)

/-- The parent of node `j` is a node of the node's own function or PF0 (R222). -/
def State.parentOk (s : State) (j : Nat) : Bool :=
  let p := s.get (Reg.SHAPER_PARENT j)
  !s.flag (Reg.SHAPER_KIND p) && (s.shaperOwner p == some (s.get (Reg.SHAPER_FUNC j)) || s.shaperOwner p == some 0)

/-- R222 for what a write to instance `k` touches: its own parent, the nodes whose parent it is, and the chains it stands in, which
have at most three nodes, so that none is a cycle. -/
def State.hierarchyOk (s : State) (k : Nat) : Bool :=
  s.instances.all (fun j =>
    !s.hasParent j ||
    ((!(j == k || s.get (Reg.SHAPER_PARENT j) == k) || s.parentOk j) && (!(s.chain 4 j).contains k || (s.chain 4 j).length ≤ 3)))

def State.mapRefused (s : State) : State := s.bump Reg.EGU_MAP_REFUSED

/-- SHAPER_INSTANCE_WRITE: a word of an instance; its levels become full (R221). -/
def State.writeInstance (s : State) (r : Requester) (k word v : Nat) : State :=
  let key := 0x07200000 + 16 * k + 4 * word
  if !s.mayWrite r key then s
  else
    let s := s.settle
    let s' := s.writeWord r key v
    if s'.shaperOwner k != some (s'.get (Reg.SHAPER_FUNC k)) || !s'.hierarchyOk k then s.mapRefused
    else s'.setLevel k (s'.bucketFull k)

def execShaperInstanceWrite (r : Requester) (inst : Fin 16384) (word : Fin 4) (v : Word) (s : State) : Host.Outcome State Fault Refusal :=
  ok (s.writeInstance r inst word v.toNat)

/-- The function map entry of a function (R218). -/
def State.mapEntry (s : State) (f : Nat) : Nat := s.rd (0x07260000 + 8 * f) + 2 ^ 32 * s.rd (0x07260004 + 8 * f)

def mapShape (e : Nat) : Bool := bitAt e 63
def mapPerClass (e : Nat) : Bool := bitAt e 62
def mapLeaf (e : Nat) : Nat := bits e 48 14
def mapPol (e : Nat) : Option Nat := if bitAt e 47 then some (bits e 32 14) else none

/-- The leaf of a class. -/
def leafOf (e c : Nat) : Nat := mapLeaf e + (if mapPerClass e then c else 0)

/-- R222 for an entry of function `f`. -/
def State.mapEntryOk (s : State) (f e : Nat) : Bool :=
  let mine := fun k => k < 16384 && s.shaperOwner k == some f
  (!mapPerClass e || mapLeaf e + 7 < 16384)
    && (!mapShape e || (if mapPerClass e then (List.range 8).all (fun c => mine (mapLeaf e + c)) else mine (mapLeaf e)))
    && (match mapPol e with | some p => mine p | none => true)

/-- FUNCTION_MAP_WRITE: one word of an entry; the entry it would make is checked. -/
def State.writeMapWord (s : State) (r : Requester) (f word v : Nat) : State :=
  let key := 0x07260000 + 8 * f + 4 * word
  if !s.mayWrite r key then s
  else
    let s' := s.settle.writeWord r key v
    if s'.mapEntryOk f (s'.mapEntry f) then s' else s.mapRefused

/-- A write of the whole 64-bit entry. -/
def State.writeMap (s : State) (r : Requester) (f v : Nat) : State :=
  let key := 0x07260000 + 8 * f
  if !s.mayWrite r key then s
  else
    let s' := s.settle.writePair r key v
    if s'.mapEntryOk f (s'.mapEntry f) then s' else s.mapRefused

def execFunctionMapWrite (r : Requester) (func : Fin 4096) (v : BitVec 64) (s : State) : Host.Outcome State Fault Refusal :=
  ok (s.writeMap r func v.toNat)

/-! ## Telemetry controls (R225, R226) -/

/-- TELEM_ENABLE: a write of EGU_TELEM_CFG. LOG2_SIZE is written only while EN is 0; a value out of range discards the
write. EN from 0 to 1 zeroes PROD, CONS and SEQ. -/
def State.writeTelemCfg (s : State) (r : Requester) (v : Nat) : State :=
  let k := Reg.EGU_TELEM_CFG_EN.key
  let size := bits v 24 4
  if !s.mayWrite r k || size < 4 || 14 < size then s
  else if s.flag Reg.EGU_TELEM_CFG_EN then s.put Reg.EGU_TELEM_CFG_EN (bits v 31 1)
  else
    let s := s.writeWord r k v
    if bitAt v 31 then
      { (s.put Reg.EGU_TELEM_PROD 0).put Reg.EGU_TELEM_CONS 0 with egu := { s.egu with telemSeq := 0, consAt := none } }
    else s

def execTelemEnable (r : Requester) (v : Word) (s : State) : Host.Outcome State Fault Refusal :=
  ok (s.writeTelemCfg r v.toNat)

/-- TELEM_CONS_WRITE (R225): where EGU advanced CONS in the same cycle, the newer value under R99 stands. The model takes one
nanosecond of local time for a cycle (DEDUCED, log entry 83). -/
def State.writeTelemCons (s : State) (r : Requester) (v : Nat) : State :=
  let old := s.get Reg.EGU_TELEM_CONS
  if s.egu.consAt == some s.localNs && v % 2 ^ 32 != old && !serialNewer 32 (v % 2 ^ 32) old then s
  else s.writeWord r Reg.EGU_TELEM_CONS.key v

def execTelemConsWrite (r : Requester) (v : Word) (s : State) : Host.Outcome State Fault Refusal :=
  ok (if s.mayWrite r Reg.EGU_TELEM_CONS.key then s.writeTelemCons r v.toNat else s)

end Sys2Proof.Machine
end

