-- ==== Sys2Proof/Machine/Tenancy.lean ====
section
/-! DEFINITION. The Tenant Translation Unit's commands: contexts, invalidation, dirty logging, pools, mailboxes (R351, R356 to
R370). -/

namespace Sys2Proof.Machine

/-! ## Dirty-log syncs (R362, R363) -/

/-- The sync at the head of the queue starts: LOG_PHASE toggles, and the period it closes ends. -/
def State.startSync (s : State) (f : Nat) : State :=
  let s := (s.put (Reg.CTX_LOG_PHASE f) (1 - s.get (Reg.CTX_LOG_PHASE f))).put Reg.TTU_LOG_STATUS_BUSY 1
  { s.put Reg.TTU_LOG_STATUS_DONE 0 with ttu := { s.ttu with
      sync := s.ttu.sync ++ [(f, s.ttu.outRange.contains f)], outRange := s.ttu.outRange.filter (· != f) } }

/-- The marks that a sync of `f` writes back: those of the phase that is over; all, once LOG_EN is clear. -/
def State.syncMarks (s : State) (f : Nat) (x : Nat × Bool × Nat × Nat) : Bool :=
  x.1 == f && (!s.flag (Reg.CTX_LOG_EN f) || x.2.1 != s.flag (Reg.CTX_LOG_PHASE f))

/-- The running sync ends (R362). -/
def State.endSync (s : State) : State :=
  match s.ttu.sync with
  | [] => s
  | (f, out) :: rest =>
    let mine := s.ttu.marks.filter (s.syncMarks f)
    let s : State := { s with ttu := { s.ttu with sync := rest, marks := s.ttu.marks.filter (fun x => !s.syncMarks f x) } }
    let s := mine.reverse.foldl (fun s x => s.writeMark x) s
    let s := (s.put Reg.TTU_LOG_STATUS_OUT_RANGE (bit out)).put Reg.TTU_LOG_STATUS_RESULT 0
    let s := (s.put Reg.TTU_LOG_STATUS_DONE 1).put Reg.TTU_LOG_STATUS_BUSY (bit (!rest.isEmpty))
    s.raiseFor .ttu 3 f [(12, f), (1, bit out)]

/-- LOG_SYNC (R362, R363). -/
def State.logSync (s : State) (r : Requester) (f : Nat) : State :=
  if !s.mayWrite r Reg.TTU_LOG_CMD_OP.key || s.flag Reg.TTU_LOG_STATUS_BUSY then s
  else if s.flag (Reg.CTX_LOG_EN f) then s.startSync f
  else (s.put Reg.TTU_LOG_STATUS_DONE 1).put Reg.TTU_LOG_STATUS_RESULT 1

def execLogSync (r : Requester) (func : Fin 4096) (s : State) : Host.Outcome State Fault Refusal := ok (s.logSync r func)

/-- LOG_SYNC_DONE (R362): the cached words of the old phase have been written back, which their reads let wait for a tag (R337). -/
def execLogSyncDone (walks : List Walk8) (s : State) : Host.Outcome State Fault Refusal :=
  ok (if s.running .ttu && s.tagFree 0 then s.withWalks walks (fun s => s.endSync) else s)

/-! ## Contexts (R351) -/

/-- A write of one context word. -/
def State.writeCtx (s : State) (r : Requester) (f word v : Nat) : State :=
  let k := 0x0B100000 + 32 * f + 4 * word
  if !s.mayWrite r k then s
  else
    let logging := s.flag (Reg.CTX_LOG_EN f)
    match word with
    | 0 =>
      let mode := bits v 29 2
      if mode = 3 || (mode = 2 && f != 0) then s
      else
        let on := f != 0 && bitAt v 28
        let s := (s.put (Reg.CTX_VALID f) (bits v 31 1)).put (Reg.CTX_MODE f) mode
        let s := s.when (!logging) (fun s => s.put (Reg.CTX_LOG_WORDS f) (bits v 0 24))
        let s := s.put (Reg.CTX_LOG_EN f) (bit on)
        if on && !logging then s.put (Reg.CTX_LOG_PHASE f) 0
        else if !on && logging then s.startSync f
        else s
    | 2 | 3 => s.writeWord r k v
    | 4 | 5 | 6 | 7 => if logging then s else s.writeWord r k v
    | _ => s

/-- CONTEXT_WRITE (R351, R362, R363). -/
def execContextWrite (r : Requester) (func : Fin 4096) (word : Fin 8) (v : Word) (s : State) : Host.Outcome State Fault Refusal :=
  ok (s.writeCtx r func word v.toNat)

/-! ## Invalidation (R356, R357) -/

/-- Remove the cached leaves of a scope, and the table entries of its functions (R356). -/
def State.dropEntries (s : State) (inScope : TlbEntry → Bool) (funcs : Nat → Bool) : State :=
  { s with ttu := { s.ttu with tlb := s.ttu.tlb.filter (fun e => !inScope e), walkCache := s.ttu.walkCache.filter (fun c => !funcs c.1) } }

/-- A command starts (R357): `funcs` says whose table entries it removes, and `reads` which reads, translated before it, it waits
for. -/
def State.startInv (s : State) (r : Requester) (inScope : TlbEntry → Bool) (funcs : Nat → Bool) (reads : ReadReq → Bool) : State :=
  if !s.mayWrite r Reg.TTU_INV_CMD_SCOPE.key then s
  else if s.flag Reg.TTU_INV_STATUS_BUSY then s.put Reg.TTU_INV_STATUS_LOST 1
  else
    let s := (s.bump Reg.TTU_INV_SEQ_SEQ).trackTake
    let s := ((s.put Reg.TTU_INV_STATUS_BUSY 1).put Reg.TTU_INV_STATUS_DONE 0).dropEntries inScope funcs
    { s with ttu := { s.ttu with inv := some ((s.hiu.tags.filter (fun t => reads t.2)).map (·.1)) }
             hiu := { s.hiu with queue := s.hiu.queue.map (fun q => { q with inv := reads q }) } }

/-- The entry maps part of a range of input addresses. -/
def TlbEntry.meets (e : TlbEntry) (base len : Nat) : Bool := e.base < base + len && base < e.base + 2 ^ e.log2

/-- The read is of a part of a range of input addresses. -/
def ReadReq.meets (q : ReadReq) (base len : Nat) : Bool := q.addr < base + len && base < q.addr + q.len

/-- INV_ALL (R356). -/
def execInvAll (r : Requester) (s : State) : Host.Outcome State Fault Refusal :=
  ok (s.startInv r (fun _ => true) (fun _ => true) (fun _ => true))

/-- INV_FUNC (R356). -/
def execInvFunc (r : Requester) (func : Fin 4096) (s : State) : Host.Outcome State Fault Refusal :=
  ok (s.startInv r (fun e => e.func == func.val) (fun f => f == func.val) (fun q => q.func == func.val))

/-- INV_RANGE (R356): the range starts at TTU_INV_ADDR and holds 2^LOG2_PAGES pages of 4 KiB. -/
def State.invRange (s : State) (r : Requester) (func log2 : Nat) : State :=
  let base := 4096 * s.get Reg.TTU_INV_ADDR_ADDR
  let len := 4096 * 2 ^ log2
  s.startInv r (fun e => e.func == func && e.meets base len) (fun f => f == func) (fun q => q.func == func && q.meets base len)

/-- A write of TTU_INV_CMD whose SCOPE names no command is discarded; while a command runs it sets LOST, as any write does (R356). -/
def State.invOther (s : State) (r : Requester) : State :=
  if s.mayWrite r Reg.TTU_INV_CMD_SCOPE.key && s.flag Reg.TTU_INV_STATUS_BUSY then s.put Reg.TTU_INV_STATUS_LOST 1 else s

def execInvRange (r : Requester) (func : Fin 4096) (log2 : Fin 32) (s : State) : Host.Outcome State Fault Refusal :=
  ok (s.invRange r func log2)

/-- INV_DONE (R357): every read in scope has ended; the completion word is written, DONE is set. A command waits behind the
invalidation that an FLR runs (R359). -/
def execInvDone (walks : List Walk8) (s : State) : Host.Outcome State Fault Refusal :=
  if s.ttu.inv != some [] || s.hiu.queue.any (·.inv) || !s.ttu.flr.isEmpty then ok s
  else
    let a := 8 * s.get Reg.TTU_INV_CPL_ADDR_ADDR
    let q := s.get Reg.TTU_INV_SEQ_SEQ
    let s : State := { s with ttu := { s.ttu with inv := none } }
    let s := s.when (a != 0 && s.attached) (fun s => s.withWalks walks (fun s => (s.dmaWrite 0 a (toLE 8 (2 ^ 63 + q))).2))
    let s := ((s.put Reg.TTU_INV_STATUS_BUSY 0).put Reg.TTU_INV_STATUS_DONE 1).trackGive
    ok (s.raise .ttu 2 [(32, q)])

/-! ## Pools (R364 to R367) -/

/-- Rings, or instances, in a kind that is assigned one by one. -/
def assignable : Nat → Nat
  | 0 => 131072 | 4 => 16384 | _ => 0

def ownerField (k i : Nat) : Field := if k = 0 then ringOwnerField i else shaperOwnerField i
def State.ownerOf (s : State) (k i : Nat) : Option Nat := if k = 0 then s.ringOwner i else s.shaperOwner i

/-- An instance has a frame waiting at it or at a leaf below it (R222), or is named by a function-map entry or a source
policer (R367). -/
def State.instanceHeld (s : State) (k : Nat) : Bool :=
  s.egu.shaper.any (fun x => (s.chain 4 x.1).contains k)
    || (List.range 4096).any (fun f =>
        let e := s.mapEntry f
        (mapShape e && (mapLeaf e == k || (mapPerClass e && mapLeaf e ≤ k && k < mapLeaf e + 8))) || mapPol e == some k)
    || (List.range 35).any (fun i => s.flag (Reg.EGU_SRC_POLICER_EN i) && s.get (Reg.EGU_SRC_POLICER_POLICER i) == k)

/-- The resource is quiesced (R367). -/
def State.quiesced (s : State) (k i : Nat) : Bool :=
  if k = 0 then !s.flag (Reg.RING_ENABLE i) && s.flag (Reg.RING_IDLE i) else !s.instanceHeld i

/-- The result of a pool command, and the state it makes (R366). -/
def State.poolOp (s : State) (op k f : Nat) : Nat × State :=
  let a := s.get Reg.TTU_POOL_ARG_ARG
  match op with
  | 1 =>
    if 7 < k then (6, s)
    else if s.poolCap k < s.limitSum k - s.get (poolLimit f k) + a then (1, s)
    else if k != 6 && a < s.get (poolUsed f k) then (2, s)
    else (0, s.put (poolLimit f k) a)
  | 2 =>
    if assignable k ≤ a then (6, s)
    else if (s.ownerOf k a).isSome then (3, s)
    else if s.get (poolLimit f k) ≤ s.get (poolUsed f k) then (4, s)
    else
      let s := (s.put (ownerField k a) f).poolTake f k 1
      (0, s.when (k == 4) (fun s => s.put (Reg.SHAPER_FUNC a) f))
  | 3 =>
    if assignable k ≤ a then (6, s)
    else if !s.quiesced k a then (2, s)
    else match s.ownerOf k a with
      | none => (5, s)
      | some g => (0, (s.put (ownerField k a) 0x8000).poolGive g k 1)
  | _ => (6, s)

/-- A pool command runs (R366). -/
def State.poolCmd (s : State) (r : Requester) (op k f : Nat) : State :=
  if !s.mayWrite r Reg.TTU_POOL_CMD_OP.key then s
  else
    let (res, s) := s.poolOp op k f
    (s.put Reg.TTU_POOL_STATUS_RESULT res).raiseFor .ttu 4 f [(8, op), (8, k), (12, f), (8, res)]

/-- SET_LIMIT (R366): ARG is the limit. -/
def execSetLimit (r : Requester) (kind : Fin 16) (func : Fin 4096) (s : State) : Host.Outcome State Fault Refusal :=
  ok (s.poolCmd r 1 kind func)

/-- ASSIGN (R366): ARG is the ring or instance. -/
def execPoolAssign (r : Requester) (kind : Fin 16) (func : Fin 4096) (s : State) : Host.Outcome State Fault Refusal :=
  ok (s.poolCmd r 2 kind func)

/-- RECLAIM (R366, R367). -/
def execPoolReclaim (r : Requester) (kind : Fin 16) (func : Fin 4096) (s : State) : Host.Outcome State Fault Refusal :=
  ok (s.poolCmd r 3 kind func)

/-! ## Mailboxes (R368 to R370) -/

/-- Pending bit of a half of VF `v`, in the manager's registers and in the VF's own. -/
def pendingBit (toVf : Bool) (v : Nat) : Field :=
  ⟨(if toVf then 0x0B002400 else 0x0B002000) + v / 32 * 4, v % 32, v % 32⟩

def State.halfPending (s : State) (toVf : Bool) (v : Nat) : Bool := s.flag (pendingBit toVf v)

def State.setHalf (s : State) (toVf : Bool) (v : Nat) (b : Bool) : State :=
  (s.put (pendingBit toVf v) (bit b)).put (if toVf then Reg.TTU_VF_MBX_TO_VF_PENDING v else Reg.TTU_VF_MBX_TO_PF_PENDING v) (bit b)

/-- Key of the first word of a half. -/
def halfKey (toVf : Bool) (v : Nat) : Nat := 0x10000000 + 0x1000 * v + (if toVf then 0x800 else 0)

/-- A SEND (R369): the device stamps FROM and TICK. Only a VF has a place for ERR_LEN. -/
def State.mbxSend (s : State) (toVf : Bool) (v : Nat) : State :=
  let k := halfKey toVf v
  if v = 0 || s.halfPending toVf v then s
  else if 2032 < s.rd k % 65536 then s.when (!toVf) (fun s => s.put (Reg.TTU_VF_MBX_ERR_LEN v) 1)
  else
    let s := (s.wr (k + 8) (if toVf then 0 else v)).wr (k + 12) (s.tick % 2 ^ 32)
    (s.setHalf toVf v true).raiseEvent ⟨11, 5, v, if toVf then .vf v else .pf, payload [(12, v), (8, bit toVf)]⟩

/-- An ACK (R369): the event goes to the sender. -/
def State.mbxAck (s : State) (toVf : Bool) (v : Nat) : State :=
  if v = 0 || !s.halfPending toVf v then s
  else (s.setHalf toVf v false).raiseEvent ⟨11, 6, v, if toVf then .pf else .vf v, payload [(12, v), (8, bit toVf)]⟩

/-- The VF's requests are served, and its own registers are shown: TTU and QE run. -/
def State.vfShown (s : State) (v : Nat) : Bool := s.served (.vf (Fin.ofNat 4096 v)) && s.shows 0x20000000

/-- MBX_SEND_TO_PF: VF `v` writes SEND. -/
def execMbxSendToPf (v : Fin 4096) (s : State) : Host.Outcome State Fault Refusal :=
  ok (if s.vfShown v then s.mbxSend false v else s)

/-- MBX_SEND_TO_VF: a write of TTU_MBX_SEND. -/
def execMbxSendToVf (r : Requester) (v : Fin 4096) (s : State) : Host.Outcome State Fault Refusal :=
  ok (if s.mayWrite r Reg.TTU_MBX_SEND.key then s.mbxSend true v else s)

/-- MBX_ACK_BY_PF: a write of TTU_MBX_ACK. -/
def execMbxAckByPf (r : Requester) (v : Fin 4096) (s : State) : Host.Outcome State Fault Refusal :=
  ok (if s.mayWrite r Reg.TTU_MBX_ACK.key then s.mbxAck false v else s)

/-- MBX_ACK_BY_VF: VF `v` writes ACK. -/
def execMbxAckByVf (v : Fin 4096) (s : State) : Host.Outcome State Fault Refusal :=
  ok (if s.vfShown v then s.mbxAck true v else s)

/-- The requester is the sender of a half. -/
def isSender (toVf : Bool) (v : Nat) : Requester → Bool
  | .vf w => !toVf && w.val == v
  | .frame => false
  | _ => toVf

/-- A write to word `i` of the window of VF `v` (R368, R369). -/
def State.writeMailbox (s : State) (r : Requester) (v i x : Nat) : State :=
  let toVf := decide (512 ≤ i)
  if v = 0 || !isSender toVf v r || !s.served r || !s.running .ttu then s
  else if s.halfPending toVf v then s.bump Reg.TTU_MBX_LOCKED
  else s.wr (0x10000000 + 0x1000 * v + 4 * i) x

/-- MAILBOX_WRITE (R368, R369). -/
def execMailboxWrite (r : Requester) (v : Fin 4096) (word : Fin 1024) (x : Word) (s : State) : Host.Outcome State Fault Refusal :=
  ok (s.writeMailbox r v word x.toNat)

end Sys2Proof.Machine
end

