-- ==== Sys2Proof/Machine/Adoption.lean ====
section
/-! DEFINITION. The host interface: the link, standalone mode and adoption, the watchdog, function resets, read completions,
unmasking (R332, R334, R338, R341, R343 to R349). -/

namespace Sys2Proof.Machine

/-! ## Function resets (R349, R359, R370) -/

/-- Words of the FLR domain of VF `v` return to reset (R341, R372, R399); the pending bits of its mailbox show the halves,
which are of domain COLD (DESIGN CHOICE, log entry 32). -/
def State.resetVfWords (s : State) (v : Nat) : State :=
  let p := s.halfPending false v
  let q := s.halfPending true v
  let s := s.resetWords (fun k => inRange k (0x20000000 + v * 0x10000) 0x10000)
  (s.put (Reg.TTU_VF_MBX_TO_PF_PENDING v) (bit p)).put (Reg.TTU_VF_MBX_TO_VF_PENDING v) (bit q)

/-- An FLR of VF `v` ends, no request of it being outstanding: its translations go, its FLR-domain registers, MSI-X table and
configuration space return to reset, and its mailbox is zeroed (R349, R359, R370). -/
def State.finishFlr (s : State) (v : Nat) : State :=
  let s := s.dropEntries (fun e => e.func == v) (fun f => f == v)
  let s : State := { s with ttu := { s.ttu with flr := s.ttu.flr.filter (· != v) }, hiu := { s.hiu with vfD3 := s.hiu.vfD3.filter (· != v) } }
  let s := s.resetWords (fun k => inRange k (0x10000000 + v * 0x1000) 0x1000)
  let s := (s.setHalf false v false).setHalf true v false
  ((s.resetVfWords v).resetConfig v).raiseFor .ttu 7 v []

/-- Each FLR whose requests have ended ends. -/
def State.endFlrs (s : State) : State := (s.ttu.flr.filter (fun v => !s.outstanding v)).foldl (fun s v => s.finishFlr v) s

/-- An FLR of VF `v` (R349): every queue of it is disabled and its work abandoned, reads that have not been issued are dropped, and
HIU waits for the outstanding ones. -/
def State.vfFlr (s : State) (v : Nat) : State :=
  if v = 0 then s
  else
    let rings := s.ringsBusy.filter (fun r => s.ringOwner r == some v)
    let s := rings.foldl (fun s r => s.abandonRing r) s
    let s := s.setCommands (s.sie.commands.map (fun c => if rings.contains c.ring then { c with closed := true } else c))
    let s : State := { s with hiu := { s.hiu with queue := s.hiu.queue.filter (fun q => q.func != v) }
                              ttu := { s.ttu with flr := v :: s.ttu.flr.filter (· != v) } }
    s.endFlrs

/-! ## Standalone mode (R343, R344) -/

/-- Every outstanding request fails at once, and its tag returns (R338); an invalidation has nothing left to wait for (R359). -/
def State.failReads (s : State) : State :=
  let n := s.hiu.tags.length
  let s : State := { s with hiu := { s.hiu with tags := [], queue := [] }, ttu := { s.ttu with inv := s.ttu.inv.map (fun _ => []) } }
  ((s.countTags).bumpBy Reg.HIU_LINK_LOST_REQ n).endFlrs

/-- Standalone mode begins with a cause: SESSION counts, and the host's work ends (R343, R344). -/
def State.beginStandalone (s : State) (cause : Nat) : State :=
    let s := (s.put Reg.HIU_HOST_STATE_SESSION (s.get Reg.HIU_HOST_STATE_SESSION + 1)).put Reg.HIU_HOST_STATE_CAUSE cause
    let s := (s.put Reg.HIU_STANDALONE_TICK_TICK s.tick).bump Reg.HIU_STANDALONE_ENTRIES
    let s := s.hlog 9 10 (payload [(8, cause), (16, s.get Reg.HIU_HOST_STATE_SESSION)])
    let s := s.failReads
    let s := s.ringsBusy.foldl (fun s r => s.abandonRing r) s
    let s := s.storageStandalone
    let s := s.setCommands (s.sie.commands.map (fun c => { c with closed := true }))
    s.put Reg.HIU_HOST_STATE_MODE 1

/-- The device enters standalone mode with a cause; in it, a further cause only shows in CAUSE. -/
def State.enterStandalone (s : State) (cause : Nat) : State :=
  if s.attached then s.beginStandalone cause else s.put Reg.HIU_HOST_STATE_CAUSE cause

/-- VFs that have a word away from its reset value. -/
def State.vfsTouched (s : State) : List Nat :=
  ((s.regs.filter (fun x => inRange x.1 0x20000000 0x10000000)).map (fun x => (x.1 - 0x20000000) / 0x10000)).eraseDups

/-- PERST#, Hot Reset or a PF0 FLR resets the configuration space and the FLR-domain registers of every function, PF0's MSI-X table
among them, and with its requests INTA returns to 0 (R342, R344). -/
def State.resetFunctions (s : State) : State :=
  let s := s.vfsTouched.foldl (fun s v => s.resetVfWords v) s
  let s := s.resetWords (fun k => inRange k 0x0A010000 0x10000 || 0x40000000 ≤ k)
  let s : State := { s with hiu := { s.hiu with vfD3 := [] }
                            qe := { s.qe with rings := s.qe.rings.map (fun x => (x.1, { x.2 with request := false })) } }
  s.refreshIntx.setTagLimit

/-- The link is down: no credits are advertised. -/
def State.linkGone (s : State) : State :=
  let s : State := { s with hiu := { s.hiu with fc := HiuState.reset.fc } }
  ((((s.put Reg.HIU_LINK_STATUS_UP 0).put Reg.HIU_LINK_STATUS_FLIT 0).put Reg.HIU_LINK_STATUS_SPEED 0).put Reg.HIU_LINK_STATUS_WIDTH 0).put
    Reg.HIU_LINK_STATUS_BELOW_MIN 0

/-- PERST_ASSERT (R343, R344). -/
def execPerstAssert (s : State) : Host.Outcome State Fault Refusal :=
  let s : State := { s with hiu := { s.hiu with perst := true } }
  ok (s.when s.powered (fun s => (s.enterStandalone 2).linkGone.resetFunctions))

/-- PERST_DEASSERT (R53): training may begin. -/
def execPerstDeassert (s : State) : Host.Outcome State Fault Refusal := ok { s with hiu := { s.hiu with perst := false } }

/-- PF0_FLR (R343, R344). -/
def execPf0Flr (s : State) : Host.Outcome State Fault Refusal :=
  ok (s.when s.powered (fun s => (s.enterStandalone 4).resetFunctions))

/-- A function enters D3hot. -/
def State.enterD3 (s : State) (f : Nat) : State := { s with hiu := { s.hiu with vfD3 := f :: s.hiu.vfD3.filter (· != f) } }

/-- PF0_D3 (R343, R349). -/
def execPf0D3 (s : State) : Host.Outcome State Fault Refusal := ok (s.when s.powered (fun s => (s.enterStandalone 5).enterD3 0))

/-! ## The link (R332, R336) -/

/-- The link is up at a speed and width; it never exceeds what is declared (R60). `flit` is the
mode negotiated, which 64 GT/s implies and speeds below 16 GT/s exclude (R331), and `fc` the credits that the host advertises. -/
def State.linkAt (s : State) (speed width : Nat) (flit : Bool) (fc : FcCredits) : State :=
  let speed := min speed (s.get Reg.HIU_LINK_CFG_MAX_SPEED)
  let width := min width (s.get Reg.HIU_LINK_CFG_MAX_WIDTH)
  let flit := speed == 6 || (flit && 4 ≤ speed)
  let below := speed < s.get Reg.HIU_LINK_CFG_MIN_SPEED || width < s.get Reg.HIU_LINK_CFG_MIN_WIDTH
  let s := ((s.put Reg.HIU_LINK_STATUS_UP 1).put Reg.HIU_LINK_STATUS_FLIT (bit flit)).put Reg.HIU_LINK_STATUS_BELOW_MIN (bit below)
  let s := (s.put Reg.HIU_LINK_STATUS_SPEED speed).put Reg.HIU_LINK_STATUS_WIDTH width
  let all := [fc.posted.1, fc.posted.2, fc.nonPosted.1, fc.nonPosted.2, fc.completion.1, fc.completion.2]
  let s : State := { s.setTagLimit with hiu := { s.hiu with fc := all.map (fun n => (n, n, 0)) } }
  if below then
    let p := [(8, speed), (8, width)]
    ((s.raise .hiu 2 p).hlog 11 10 (payload p)).enterStandalone 6
  else s

/-- LINK_TRAINED (R53, R332). -/
def execLinkTrained (speed : Fin 7) (width : Fin 17) (flit : Bool) (fc : FcCredits) (s : State) : Host.Outcome State Fault Refusal :=
  ok (if s.running .hiu && !s.hiu.perst && speed.val != 0 then s.linkAt speed width flit fc else s)

/-- LINK_RETRAINED (R332, R350): speed or width changes, raised while ATTACHED. -/
def execLinkRetrained (speed : Fin 7) (width : Fin 17) (flit : Bool) (fc : FcCredits) (s : State) : Host.Outcome State Fault Refusal :=
  if !s.running .hiu || !s.flag Reg.HIU_LINK_STATUS_UP || speed.val = 0 then ok s
  else
    let changed := speed.val != s.get Reg.HIU_LINK_STATUS_SPEED || width.val != s.get Reg.HIU_LINK_STATUS_WIDTH
    let s := s.when (s.attached && changed) (fun s => s.raise .hiu 3 [])
    ok ((s.linkAt speed width flit fc).pumpReads s.hiu.queue.length)

/-! ## Watchdog and adoption (R346, R347) -/

/-- The watchdog starts its interval. -/
def State.startWatchdog (s : State) : State := { s with hiu := { s.hiu with kicked := s.localNs } }

/-- WATCHDOG_EXPIRY (R346): no kick for WDOG_MS while ATTACHED. -/
def execWatchdogExpiry (offset : Nat) (s : State) : Host.Outcome State Fault Refusal :=
  let s := s.moment offset
  let expired := decide (s.hiu.kicked + 1000000 * s.get Reg.HIU_WDOG_CFG_WDOG_MS ≤ s.localNs) || !s.running .te
  ok (if s.attached && s.flag Reg.HIU_WDOG_CFG_WDOG_EN && expired then s.enterStandalone 3 else s)

/-- WDOG_KICK (R346). -/
def State.wdogKick (s : State) (r : Requester) : State :=
  if s.mayWrite r Reg.HIU_WDOG_KICK.key then s.startWatchdog else s

def execWdogKick (r : Requester) (offset : Nat) (s : State) : Host.Outcome State Fault Refusal := ok ((s.moment offset).wdogKick r)

/-- A write of HIU_WDOG_CFG: WDOG_MS below 10 discards it. -/
def State.writeWdogCfg (s : State) (r : Requester) (v : Nat) : State :=
  if v % 65536 < 10 then s
  else
    let on := s.flag Reg.HIU_WDOG_CFG_WDOG_EN
    let s := s.writeWord r Reg.HIU_WDOG_CFG_WDOG_EN.key v
    s.when (!on && s.flag Reg.HIU_WDOG_CFG_WDOG_EN) State.startWatchdog

/-- ADOPT (R347): the SESSION matches, the link meets R332, and a standalone period is there to end. A trigger of R343 that meets
the write stands: SESSION increments, and the write is refused as stale (R348). -/
def State.adopt (s : State) (r : Requester) (session : Nat) (meets : Option Nat) : State :=
  match s.mayWrite r Reg.HIU_ADOPT.key, meets with
  | false, none => s
  | false, some cause => s.enterStandalone cause
  | true, some cause => (s.beginStandalone cause).bump Reg.HIU_ADOPT_REFUSED
  | true, none =>
  if session != s.get Reg.HIU_HOST_STATE_SESSION then s.bump Reg.HIU_ADOPT_REFUSED
  else if s.attached || !s.flag Reg.HIU_LINK_STATUS_UP || s.flag Reg.HIU_LINK_STATUS_BELOW_MIN then s
  else
    let spent := s.tick - s.get Reg.HIU_STANDALONE_TICK_TICK
    let p := [(8, s.get Reg.HIU_HOST_STATE_CAUSE), (16, session), (32, spent)]
    (((s.put Reg.HIU_HOST_STATE_MODE 0).hlog 10 10 (payload p)).raise .hiu 1 p).startWatchdog

def execAdopt (r : Requester) (m : Adoption) (s : State) : Host.Outcome State Fault Refusal :=
  ok (s.adopt r m.session.toNat (m.meets.map (·.val)))

/-! ## Function resets and power states (R334, R349) -/

/-- VF_FLR (R349). -/
def execVfFlr (v : Fin 4096) (s : State) : Host.Outcome State Fault Refusal := ok (s.when s.powered (fun s => s.vfFlr v))

/-- A written SR-IOV control word (R334, R335): a clear of VF Enable resets every VF that exists before it takes effect. -/
def State.vfControl (s : State) (v : Nat) : State :=
  let n := if s.flag cfgVfOn && !bitAt v 0 then min 4095 (s.get cfgNumVfs) else 0
  ((List.range n).foldl (fun s i => s.vfFlr (i + 1)) s).cfgPut 0 0x188 v

/-- VF_ENABLE_CLEAR (R334, R349): the host writes the SR-IOV control word, VF Enable being 0 in it. -/
def execVfEnableClear (control : Word) (s : State) : Host.Outcome State Fault Refusal :=
  ok (s.when s.powered (fun s => s.vfControl (control.toNat / 2 * 2)))

/-- VF_D3 (R349). -/
def execVfD3 (v : Fin 4096) (s : State) : Host.Outcome State Fault Refusal :=
  ok (s.when (s.powered && v.val != 0) (fun s => s.enterD3 v))

/-- The function is in D0 again, and its reads that wait go on; No_Soft_Reset is 1 (R349). -/
def State.returnD0 (s : State) (f : Nat) : State :=
  let s : State := { s with hiu := { s.hiu with vfD3 := s.hiu.vfD3.filter (· != f) } }
  s.pumpReads s.hiu.queue.length

/-- RETURN_TO_D0 (R349). -/
def execReturnToD0 (v : Fin 4096) (s : State) : Host.Outcome State Fault Refusal := ok (s.returnD0 v)

/-! ## Reads and interrupts (R338, R341) -/

/-- A failed request is reported to its requester, which decides the consequence (R338): the ring's fetch fails, the TX frame is
refused, or the storage command completes with BUF_FAULT, where its data has not come another way. -/
def State.readFailed (s : State) (q : ReadReq) : State :=
  match q.use with
  | .fetch r n => if s.ringOn r && (s.ring r).fetching && !(s.ring r).taken.any (fun t => t.seq == n) then s.fetchFail r n else s
  | .payload r n =>
    if (s.ring r).taken.any (fun t => t.seq == n && !t.done) && !s.qe.mediaWait.any (fun m => m.1 == r && m.2.1 == n) then
      ((s.entryDone r n).bump Reg.QE_BUF_FAULT).ringError r 2 n
    else s
  | .command r n =>
    match s.sie.commands.find? (fun c => c.ring == r && c.seq == n) with
    | some c => s.finishEarly c (deviceError 7)
    | none => s

/-- A read ends, and whoever waited for its tag or its end goes on. -/
def State.readEnds (s : State) (tag : Nat) : State :=
  let s := (s.freeTag tag).endFlrs
  s.pumpReads s.hiu.queue.length

/-- READ_COMPLETION (R338): 0 the last completion, 1 UR, 2 poisoned, 3 CA; UR and CA are logged through AER. One for a tag that no
request holds is discarded. -/
def execReadCompletion (tag : Fin 4096) (status : Fin 4) (s : State) : Host.Outcome State Fault Refusal :=
  match s.hiu.tags.find? (·.1 == tag.val) with
  | none => ok s
  | some (_, q) =>
    if status.val = 0 then ok (s.readEnds tag)
    else
      let s := s.bump Reg.HIU_CPL_ERROR
      let s := s.when (status.val == 1) (fun s => s.logAer q.func .unsupported)
      let s := s.when (status.val == 3) (fun s => s.logAer q.func .abort)
      ok ((s.readFailed q).readEnds tag)

/-- COMPLETION_TIMEOUT (R338): no completion within the Completion Timeout Value. -/
def execCompletionTimeout (tag : Fin 4096) (s : State) : Host.Outcome State Fault Refusal :=
  match s.hiu.tags.find? (·.1 == tag.val) with
  | none => ok s
  | some (_, q) =>
    let s := ((s.bump Reg.HIU_CPL_TIMEOUT).logAer q.func .timeout).oncePerTick 0xA04 (fun s => s.raise .hiu 4 [])
    ok ((s.readFailed q).readEnds tag)

/-- The mask of vector `v` of function `f` is cleared, and its pending message goes out (R341). -/
def State.unmaskVector (s : State) (f v : Nat) : State :=
  if vectorCount f ≤ v || !s.running .hiu || s.hiu.vfD3.contains f then s else (s.put (vectorControl f v) 0).sendPending f v

/-- The Function Mask of `f` is cleared, and its pending messages go out, ascending (R341). -/
def State.unmaskFunction (s : State) (f : Nat) : State :=
  if !s.running .hiu || s.hiu.vfD3.contains f then s
  else (List.range (vectorCount f)).foldl (fun s v => s.sendPending f v) (s.put (cfgMsixMask f) 0)

/-- MSIX_UNMASK (R341): vector `vector` of function `func` is unmasked, or its Function Mask is cleared. -/
def execMsixUnmask (func : Fin 4096) (vector : Fin 2048) (whole : Bool) (s : State) : Host.Outcome State Fault Refusal :=
  ok (if whole then s.unmaskFunction func else s.unmaskVector func vector)

/-! ## Writes of configuration space (R331 to R335) -/

/-- A written configuration word of function `f`: FLR, the power state, the SR-IOV control word, the Function Mask and the tag mode
act; the rest is held. -/
def State.configWrite (f off v : Nat) (s : State) : State :=
  match off with
  | 0x44 => if v % 4 = 3 then (if f = 0 then (s.enterStandalone 5).enterD3 0 else s.enterD3 f) else if v % 4 = 0 then s.returnD0 f else s
  | 0x50 =>
    let masked := s.flag (cfgMsixMask f)
    let s := s.cfgPut f 0x50 v
    s.when (masked && !bitAt v 30) (fun s => s.unmaskFunction f)
  | 0x68 =>
    let s := s.cfgPut f 0x68 v
    if !bitAt v 15 then s else if f = 0 then (s.enterStandalone 4).resetFunctions else s.vfFlr f
  | 0x88 => (s.cfgPut f 0x88 v).setTagLimit
  | 0x188 => if f = 0 then s.vfControl v else s
  | _ => s.cfgPut f off v

end Sys2Proof.Machine
end

