-- ==== Sys2Proof/Machine/Boot.lean ====
section
/-! DEFINITION. Power, cold start, slot selection, flash, OTP and the HBM fill (R35 to R63, R446 to R450, R461). -/

namespace Sys2Proof.Machine

/-! ## Flash -/

def State.flashByte (s : State) (a : Nat) : Byte := Sparse.get flashBlank s.sup.flash a

/-- `n` flash bytes from address `a`. -/
def State.flashBytes (s : State) (a n : Nat) : Bytes := (List.range n).map (fun i => s.flashByte (a + i))

/-- Write bytes to flash from address `a`. -/
def State.flashPut (s : State) (a : Nat) (l : Bytes) : State :=
  { s with sup := { s.sup with flash :=
      (l.foldl (fun (p : Nat × List (Nat × Byte)) b => (p.1 + 1, Sparse.set flashBlank p.2 p.1 b)) (a, s.sup.flash)).2 } }

/-- `n` bytes whose values the spec leaves open. -/
def State.freeBytes (s : State) : Nat → Bytes × State
  | 0 => ([], s)
  | n + 1 =>
    let (v, s) := s.takeFree
    let (l, s) := s.freeBytes n
    (BitVec.ofNat 8 v :: l, s)

/-- The bytes that a flash operation cut short, or failed by the device, was writing hold no stated value (R461). -/
def State.flashSpoil (s : State) (op a : Nat) : State :=
  let n := if op = 2 then 256 else if op = 3 then 65536 else 0
  let (l, s) := s.freeBytes n
  s.flashPut a l

/-! ## Image header, section map and compatibility (R37 to R43) -/

/-- Flash offset of a slot: 0 A, 1 B (R35). -/
def slotBase (slot : Nat) : Nat := slot * 0x01000000

/-- A little-endian header field of a slot. -/
def State.hdr (s : State) (slot off n : Nat) : Nat := ofLE (s.flashBytes (slotBase slot + off) n)

/-- Section `i` of a slot; the digest is big-endian as SHA-384 writes it. -/
def State.sectionAt (s : State) (slot i : Nat) : Section :=
  let b := 512 + 80 * i
  ⟨s.hdr slot b 2, s.hdr slot (b + 2) 1, s.hdr slot (b + 4) 4, s.hdr slot (b + 8) 4, s.hdr slot (b + 12) 4,
    ofBE (s.flashBytes (slotBase slot + b + 0x20) 48)⟩

def State.sections (s : State) (slot : Nat) : List Section :=
  (List.range (s.hdr slot 0x16 2)).map (s.sectionAt slot)

def State.findSection (s : State) (slot type : Nat) : Option Section :=
  (s.sections slot).find? (fun e => e.type == type)

def State.sectionBytes (s : State) (slot : Nat) (e : Section) : Bytes := s.flashBytes (slotBase slot + e.offset) e.length

/-- The unit that a section type belongs to (R40). -/
def typeUnit : Nat → Nat
  | 4 | 5 => 2
  | 6 | 7 => 1
  | 8 | 0xC => 4
  | 9 => 6
  | 0xA | 0xB => 3
  | 0xD => 7
  | 0xE => 8
  | 0xF => 9
  | 0x10 => 11
  | _ => 0

/-- The section of a type that the accepted map holds. -/
def State.bootSection (s : State) (type : Nat) : Option Section := s.sup.image.map.find? (fun e => e.type == type)

/-- The section's SHA-384 equals its map entry (R38, R45). -/
def State.digestOk (s : State) (slot : Nat) (e : Section) : Bool :=
  (Config.sha384 (s.sectionBytes slot e)).toNat == e.digest

/-- The required section types (R40). -/
def requiredTypes : List Nat := [1, 2, 3, 4, 5, 6, 7, 8, 0xA, 0xB, 0xD, 0x10]

def rangesMeet (a n b m : Nat) : Bool := a < b + m && b < a + n

/-- The refusal that the section map earns (R41), 0 for none: a missing required type first. The spec states no refusal for an entry
whose UNIT is not its TYPE's, whose OFFSET is not a multiple of 4,096, whose LENGTH is 0 or whose reserved bytes are not zero, nor
for a firmware entry whose VERSION is not the header's: the model accepts them (R39, R40; DESIGN CHOICE, log entry 89). -/
def State.mapFault (s : State) (slot : Nat) : Nat :=
  let l := s.sections slot
  let imageLen := s.hdr slot 8 4
  let head := 512 + 80 * l.length + 96
  if requiredTypes.any (fun t => !l.any (fun e => e.type == t)) then 0x05
  else if l.any (fun e => e.type == 0 || 0x10 < e.type)
      || l.any (fun e => 1 < (l.filter (fun x => x.type == e.type)).length)
      || l.any (fun e => imageLen < e.offset + e.length)
      || l.any (fun e => e.offset < head)
      || (List.range l.length).any (fun i => (List.range i).any (fun j =>
          match l[i]?, l[j]? with
          | some a, some b => rangesMeet a.offset a.length b.offset b.length
          | _, _ => false)) then 0x04
  else 0

/-- The COMPAT section names the header's firmware pairing for this silicon revision (R42, R43). As many entries are read as its
head counts, a count of 0 or above 4,096 included: the spec states no outcome for it (DESIGN CHOICE, log entry 89). -/
def State.pairingTested (s : State) (slot : Nat) (c : Bytes) : Bool :=
  let sirev := s.get ⟨0, 31, 24⟩
  (List.range (leAt c 0 4)).any (fun i =>
    let b := 16 + 16 * i
    leAt c b 4 == s.hdr slot 0x20 4 && leAt c (b + 4) 4 == s.hdr slot 0x24 4
      && leAt c (b + 8) 1 ≤ sirev && sirev ≤ leAt c (b + 9) 1)

/-- The bytes of the header that R37 reserves. -/
def reservedHeader : List Nat :=
  (List.range 5).map (0x2B + ·) ++ (List.range 4).map (0x4C + ·) ++ (List.range 335).map (0xB1 + ·)

/-- A header whose fields leave the ranges of R37, which R45 calls malformed (DEDUCED, log entry 89). -/
def State.headerBad (s : State) (slot : Nat) : Bool :=
  let h := s.hdr slot
  0x01000000 < h 8 4 || 127 < h 0x10 2 || 1 < h 0x12 2 || h 0x16 2 == 0 || 64 < h 0x16 2 || h 0x18 4 != 512
    || (h 0x28 1 != 0 && (h 0x29 1 < 4 || 30 < h 0x29 1)) || reservedHeader.any (fun o => h o 1 != 0)

/-- The refusal code of one slot, 0 where it is accepted: the checks of R44 in their order. -/
def State.slotResult (s : State) (slot : Nat) (readFails : Bool) : Nat :=
  let h := s.hdr slot
  let sirev := s.get ⟨0, 31, 24⟩
  let key := s.flashBytes (slotBase slot + 0x50) 97
  let sigOff := 512 + 80 * h 0x16 2
  if s.flag (if slot = 0 then Reg.SUP_BOOT_CTL_SKIP_A else Reg.SUP_BOOT_CTL_SKIP_B) then 0x02
  else if h 0 4 != 0xC9620A1E then 0x03
  else if h 4 2 != 1 || h 6 2 != 512 || h 0x1C 4 != sigOff then 0x04
  else if 2 < h 0x28 1 || h 0x2A 1 < 25 || 31 < h 0x2A 1 || s.headerBad slot then 0x04
  else match (if s.sup.otpOk then s.sup.otpKey else none) with
    | none => 0x06
    | some k =>
      if Config.sha384 key != k then 0x07
      else if !Config.ecdsaVerify key (s.flashBytes (slotBase slot) sigOff) (s.flashBytes (slotBase slot + sigOff) 96) then 0x08
      else if h 0x10 2 < s.sup.otpSecver then 0x09
      else if sirev < h 0x14 1 || h 0x15 1 < sirev then 0x0A
      else if (List.range 14).any (fun u =>
          let r := s.get ⟨u * 0x1000000, 23, 16⟩
          r < h (0x30 + 2 * u) 1 || h (0x31 + 2 * u) 1 < r) then 0x0B
      else if s.mapFault slot != 0 then s.mapFault slot
      else if readFails then 0x0E
      else match s.findSection slot 3 with
        | none => 0x05
        | some e =>
          if !s.digestOk slot e then 0x0D
          else if !s.pairingTested slot (s.sectionBytes slot e) then 0x0C
          else 0

/-! ## Power and the COLD reset -/

/-- The words of domain AON (R446, R441): every other word returns to its reset value at a COLD reset. -/
def isAon (k : Nat) : Bool :=
  k == 0x1000 || k == 0x1004 || k == 0x1024 || k == 0x1300 || k == 0x1308 || k == 0x130C || k == 0x1410 || k == 0x1608
  || (0x8000 ≤ k && k < 0x10000) || k == 0x09001058 || k == 0x09001060 || k == 0x09001064
  || (0x09009000 ≤ k && k < 0x09009040)

/-- SUP_OTP_STATUS as the OTP sense finds it (R61, R62). -/
def State.senseOtp (s : State) : State :=
  ((s.put Reg.SUP_OTP_STATUS_MIN_SECVER s.sup.otpSecver).put Reg.SUP_OTP_STATUS_KEY_FUSED (bit s.sup.otpKey.isSome)).put
    Reg.SUP_OTP_STATUS_OTP_OK (bit s.sup.otpOk)

/-- The slot that was booted, where tier 0 does not lift its protection (R63). -/
def State.protectedSlot (s : State) : Option Nat := if s.tierZero then none else s.sup.bootSlot

/-- The bytes of flash that operations may reach: 2^FLASH_LOG2 of the booted image, 32 MiB in tier 0. -/
def State.flashLimit (s : State) : Nat :=
  match s.protectedSlot with
  | some _ => 2 ^ s.sup.image.flashLog2
  | none => 0x02000000

/-- ERR of an operation before the device is asked: ALIGN, RANGE, PROTECTED, in this order (DESIGN CHOICE, log entry 10). -/
def State.flashErr (s : State) (op a : Nat) : Nat :=
  if a % (if op = 3 then 65536 else 256) != 0 then 2
  else if s.flashLimit ≤ a then 3
  else if op != 1 && s.protectedSlot == some (a / 0x01000000) then 1
  else 0

/-- What survives a COLD reset beside domain AON: flash, OTP, the power pins; and the model's own fields. -/
def State.coldKeep (s : State) : State :=
  { State.reset with
    regs := s.regs.filter (fun p => isAon p.1)
    pending := s.pending, free := s.free, reply := s.reply, out := s.out
    hgc := { HgcState.reset with seq := s.hgc.seq, heldCauses := s.hgc.heldCauses.filter (· == 3) }
    hiu := { HiuState.reset with perst := s.hiu.perst }
    sup := { SupState.reset with
      flash := s.sup.flash, otpKey := s.sup.otpKey, otpSecver := s.sup.otpSecver, otpOk := s.sup.otpOk
      otpMac := s.sup.otpMac, deviceSecret := s.sup.deviceSecret
      vaux := s.sup.vaux, vauxFresh := s.sup.vauxFresh, porLow := s.sup.porLow, railTrip := s.sup.railTrip } }

/-- CKU derives the device key pair from the fused secret: its public half stands in CKU_DEV_PUB, 97 bytes (R246). -/
def State.derivePublic (s : State) : State :=
  let b := (Config.p384Public (Config.devicePrivate s.sup.deviceSecret)).take 97
  (List.range 25).foldl (fun s i => s.wr (0x08001200 + 4 * i) (leAt b (4 * i) 4)) s

/-- Nothing outside the always-on island runs while POR_N is low or a main rail is down: no unit is in RUN and no ball is driven.
The flash operation in progress is cut short (R446, R454, R461). -/
def State.hold (s : State) : State :=
  (match s.sup.flashOp with
    | some (op, a) => if s.flashErr op a = 0 then s.flashSpoil op a else s
    | none => s).coldKeep

/-- A COLD reset (R450): every domain but AON returns to reset, BOOT counts, CAUSE names the source, and the ROM
rewrites SUP_BOOT_STATUS (R63). The flash operation in progress is cut short (R461). -/
def State.coldReset (s : State) (cause : Nat) : State :=
  let s := s.hold.derivePublic
  let boot := s.get Reg.SUP_RESET_CAUSE_BOOT
  let s := ((s.put Reg.SUP_RESET_CAUSE_BOOT (boot + 1)).put Reg.SUP_RESET_CAUSE_CAUSE cause)
  s.wr 0x1000 0x00010100

/-- VAUX_APPLY (R450, R446): the first application of VAUX resets domain AON, empties the health log and senses OTP.
The main rails are off, so POR_N is low. -/
def execVauxApply (otpOk : Bool) (s : State) : Host.Outcome State Fault Refusal :=
  let c := s.coldKeep
  let s' := { c with regs := [], sup := { c.sup with vaux := true, vauxFresh := true, porLow := true, railTrip := false, otpOk := otpOk } }
  let s' := s'.senseOtp
  ok ((s'.wr 0x1308 (s'.sup.otpMac % 2 ^ 32)).wr 0x130C (s'.sup.otpMac / 2 ^ 32 % 2 ^ 16))

/-- VAUX_LOSS (R461, R447): VAUX below 1.5 V voids the AON contents, which then stand at their reset values until the
VAUX reset of its recovery (DEDUCED, log entry 9). -/
def execVauxLoss (s : State) : Host.Outcome State Fault Refusal :=
  let s := s.resetWords isAon
  ok { s with sup := { s.sup with vaux := false } }

/-- POR_N_ASSERT (R446, R454): POR_N is low, and the device is held; the COLD reset runs from its release. -/
def execPorNAssert (s : State) : Host.Outcome State Fault Refusal :=
  let s := s.hold
  ok { s with sup := { s.sup with porLow := true } }

/-- POR_N_RELEASE (R450): the COLD reset runs, with CAUSE 0 at the first power-up since VAUX came, 1 otherwise. -/
def execPorNRelease (s : State) : Host.Outcome State Fault Refusal :=
  let cause := if s.sup.vauxFresh then 0 else 1
  ok (State.coldReset { s with sup := { s.sup with porLow := false, vauxFresh := false, railTrip := false } } cause)

/-- RAIL_MONITOR_TRIP (R461): it acts as an assertion of POR_N. -/
def execRailMonitorTrip (s : State) : Host.Outcome State Fault Refusal :=
  let s := s.hold
  ok { s with sup := { s.sup with railTrip := true } }

/-- RAILS_RESTORED (R461): the rails have held tolerance for 1 ms after a trip, and the COLD reset runs, unless POR_N
itself is still low. -/
def execRailsRestored (s : State) : Host.Outcome State Fault Refusal :=
  if s.sup.railTrip then
    let s := { s with sup := { s.sup with railTrip := false } }
    ok (if s.sup.porLow then s else s.coldReset 1)
  else ok s

/-- PLL `k` locks (R448, R449). -/
def State.lockPll (s : State) (k : Nat) : State :=
  s.put Reg.SUP_CLK_STATUS_LOCKED (setBits (s.get Reg.SUP_CLK_STATUS_LOCKED) k 1 1)

/-- SRAM_INIT_DONE (R46): every on-die SRAM holds zero, which is what unlisted words hold. By then REFCLK is good and the CORE,
TIMEBASE, MEDIA and MGMT PLLs are locked (R54). -/
def execSramInitDone (s : State) : Host.Outcome State Fault Refusal :=
  if !s.powered then ok s
  else
  let s : State := { s with sup := { s.sup with sramReady := true } }
  ok (((((s.put Reg.SUP_CLK_STATUS_REFCLK_OK 1).lockPll 0).lockPll 1).lockPll 2).lockPll 16)

/-- Both SKIP bits clear when a boot reaches STAGE RUN or RECOVERY (R51). -/
def State.clearSkips (s : State) : State := (s.put Reg.SUP_BOOT_CTL_SKIP_A 0).put Reg.SUP_BOOT_CTL_SKIP_B 0

/-- RECOVERY_ENTRY (R58): tier 0, with SUP and, for PF0, HIU serving, in domains that are on (R444). -/
def State.enterRecovery (s : State) : State :=
  let s := ((s.powerUnit 0 true).powerUnit 10 true).lockPll 7
  ((((s.put Reg.SUP_BOOT_STATUS_STAGE 4).put Reg.SUP_BOOT_STATUS_TIER 0).put (Reg.UNIT_STATE 0) 2).put (Reg.UNIT_STATE 10) 2).clearSkips

/-- The result field of a slot in SUP_BOOT_STATUS. -/
def slotField (slot : Nat) : Field :=
  if slot = 0 then Reg.SUP_BOOT_STATUS_SLOT_A_RESULT else Reg.SUP_BOOT_STATUS_SLOT_B_RESULT

/-- A slot's refusal: in SUP_BOOT_STATUS and as a BOOT_REFUSED record, whose payload of slot (0 A, 1 B) and code is the model's
layout, and which a skipped slot gets too (R45; DESIGN CHOICE, log entry 89). The flash is read in 1S-1S-1S again (R44). -/
def State.refuseSlot (s : State) (slot code : Nat) : State :=
  let s : State := { s with sup := { s.sup with flashMode := (0, 0) } }
  (s.put (slotField slot) code).hlog 1 0 (payload [(8, slot), (8, code)])

/-- A slot is accepted: the flash stays in the slot's mode, and SUP shows what it booted (R44, R63). -/
def State.acceptSlot (s : State) (slot : Nat) : State :=
  let s := ((s.put (slotField slot) 0).put Reg.SUP_BOOT_STATUS_SLOT (slot + 1)).put Reg.SUP_BOOT_STATUS_STAGE 2
  let s := (s.put Reg.SUP_FW_VERSION_SV (s.hdr slot 0x20 4)).put Reg.SUP_FW_VERSION_SAFE (s.hdr slot 0x24 4)
  let s := s.put Reg.SUP_IMAGE_SEQ (s.hdr slot 0xC 4)
  { s with sup := { s.sup with
    bootSlot := some slot, flashMode := (s.hdr slot 0x28 1, s.hdr slot 0x29 1)
    image := ⟨s.sections slot, s.hdr slot 0x10 2, bitAt (s.hdr slot 0x12 2) 0, s.hdr slot 0x2A 1⟩ } }

/-- SELECT_SLOT (R44): the slot PREFER names first, then the other; the first that passes every check is booted, and
with none, or with FORCE_RECOVERY set, tier 0 follows. It has no effect before the SRAM is zeroed or once a slot was
chosen in this boot (R46). -/
def execSelectSlot (readFailA readFailB : Bool) (s : State) : Host.Outcome State Fault Refusal :=
  if !s.sup.sramReady || s.sup.bootSlot.isSome || s.get Reg.SUP_BOOT_STATUS_STAGE == 4 then ok s
  else
    let s := s.put Reg.SUP_BOOT_STATUS_STAGE 1
    if s.flag Reg.SUP_BOOT_CTL_FORCE_RECOVERY then ok ((s.put Reg.SUP_BOOT_CTL_FORCE_RECOVERY 0).enterRecovery)
    else
      let first := s.get Reg.SUP_BOOT_CTL_PREFER
      let other := 1 - first
      let fails := fun slot => if slot = 0 then readFailA else readFailB
      let r1 := s.slotResult first (fails first)
      if r1 = 0 then ok (s.acceptSlot first)
      else
        let s := s.refuseSlot first r1
        let r2 := s.slotResult other (fails other)
        if r2 = 0 then ok (s.acceptSlot other) else ok ((s.refuseSlot other r2).enterRecovery)

/-- SLOT_RETRY (R51, R36): SKIP is set for the booted slot, the code is recorded, and a COLD reset starts the boot over. -/
def State.slotRetry (s : State) (code : Nat) : State :=
  match s.sup.bootSlot with
  | none => s
  | some slot =>
    let s := s.put (if slot = 0 then Reg.SUP_BOOT_CTL_SKIP_A else Reg.SUP_BOOT_CTL_SKIP_B) 1
    (s.refuseSlot slot code).coldReset 4

/-- FIRMWARE_LOAD (R50): both firmware sections are loaded and checked, and the safety firmware's self-test must pass. A read
that fails in the declared mode refuses the slot (R36). `pair`: the HEDGE section declares role PAIR (R52). -/
def execFirmwareLoad (found : FirmwareFound) (s : State) : Host.Outcome State Fault Refusal :=
  match s.sup.bootSlot with
  | none => ok s
  | some slot =>
    if s.sup.firmware then ok s
    else match s.bootSection 1, s.bootSection 2 with
      | some sv, some safe =>
        if found.readFail then ok (s.slotRetry 0x0E)
        else if !s.digestOk slot sv || !s.digestOk slot safe then ok (s.slotRetry 0x0D)
        else if !found.selftestOk then ok (s.slotRetry 0x0F)
        else ok { s with sup := { s.sup with firmware := true, imagePair := found.pair && (s.bootSection 0xF).isSome } }
      | _, _ => ok (s.slotRetry 0x0D)

/-! ## HBM (R47, R48) -/

/-- HBM_FILL_START (R47): the HBM PHY is trained, so both stacks' domains are on (R443) and their PLLs locked, and the fill begins:
regions with a write held, those of table-overflow space, then the rest, in ascending order. -/
def execHbmFillStart (overflow : List (Fin 64)) (s : State) : Host.Outcome State Fault Refusal :=
  if s.sup.filling || !s.powered then ok s
  else
    let first := (List.range 64).filter (fun k => overflow.any (fun o => o.val == k))
    let rest := (List.range 64).filter (fun k => !overflow.any (fun o => o.val == k))
    let held := s.sup.hbmHeld
    let order := held ++ (first ++ rest).filter (fun k => !held.contains k)
    let s : State := { s with sup := { s.sup with filling := true, fillOrder := order } }
    ok ((((s.setPower 146 true).setPower 147 true).lockPll 3).lockPll 4)

/-- HBM_REGION_FILLED (R47, R48): the region at the head of the order is zero, its bit is set, and what was written to it
meanwhile takes effect. -/
def execHbmRegionFilled (s : State) : Host.Outcome State Fault Refusal :=
  match s.sup.fillOrder with
  | [] => ok s
  | k :: rest =>
    ok (({ s with sup := { s.sup with fillOrder := rest, hbmHeld := s.sup.hbmHeld.filter (· != k) } } : State).put (fillBit k) 1)

/-! ## OTP and flash operations (R62, R63) -/

/-- SUP_OTP_CMD is accepted (R62). -/
def State.fuseOpen (s : State) : Bool := s.get Reg.SUP_BOOT_STATUS_STAGE == 4 && !s.flag Reg.SUP_OTP_STATUS_KEY_FUSED

/-- A write of SUP_OTP_CMD outside R62 is discarded and logged with its OP (R62; the payload is the model's, log entry 24). -/
def State.fuseRefused (s : State) (op : Nat) : State := s.hlog 16 0 (payload [(8, op)])

/-- Fuse the key hash from a slot's header, only in RECOVERY with the key unfused; otherwise the write is discarded and
logged (R62). -/
def State.fuseKey (s : State) (slot : Nat) : State :=
  if s.fuseOpen && s.sup.otpKey.isNone then
    let h := Config.sha384 (s.flashBytes (slotBase slot + 0x50) 97)
    ({ s with sup := { s.sup with otpKey := some h } }).put Reg.SUP_OTP_STATUS_KEY_FUSED 1
  else s.fuseRefused (slot + 1)

def execFuseKeyHashA (s : State) : Host.Outcome State Fault Refusal := ok (s.when s.powered (fun s => s.fuseKey 0))
def execFuseKeyHashB (s : State) : Host.Outcome State Fault Refusal := ok (s.when s.powered (fun s => s.fuseKey 1))

/-- A flash operation starts while BUSY is 0 (R63). -/
def State.flashStart (s : State) (op : Nat) : State :=
  if s.flag Reg.SUP_FLASH_CTL_BUSY || !s.powered then s
  else ({ s with sup := { s.sup with flashOp := some (op, s.get Reg.SUP_FLASH_ADDR) } }).put Reg.SUP_FLASH_CTL_BUSY 1

def execRead256 (s : State) : Host.Outcome State Fault Refusal := ok (s.flashStart 1)
def execProgram256 (s : State) : Host.Outcome State Fault Refusal := ok (s.flashStart 2)
def execErase64k (s : State) : Host.Outcome State Fault Refusal := ok (s.flashStart 3)

/-- FLASH_DONE (R63): the operation ends, ERR is set, BUSY clears, and FLASH_DONE is raised when QE is in RUN. -/
def execFlashDone (deviceOk : Bool) (s : State) : Host.Outcome State Fault Refusal :=
  match s.sup.flashOp with
  | none => ok s
  | some (op, a) =>
    let err := if s.flashErr op a != 0 then s.flashErr op a else if deviceOk then 0 else 4
    let s :=
      if err = 0 then
        if op = 1 then s.wrWords 0x1100 ((List.range 64).map (fun i => ofLE (s.flashBytes (a + 4 * i) 4)))
        else if op = 2 then s.flashPut a ((s.rdWords 0x1100 64).flatMap (toLE 4))
        else s.flashPut a (List.replicate 65536 0xFF)
      else if err = 4 then
        if op = 1 then
          let (l, s) := s.freeBytes 256
          s.wrWords 0x1100 ((List.range 64).map (fun i => leAt l (4 * i) 4))
        else s.flashSpoil op a
      else s
    let s := { s with sup := { s.sup with flashOp := none } }
    let s := (s.put Reg.SUP_FLASH_CTL_BUSY 0).put Reg.SUP_FLASH_CTL_ERR err
    ok (s.when (s.running .qe) (fun s => s.raise .sup 1 []))

end Sys2Proof.Machine
end

