-- ==== Sys2Proof/Machine/Samples.lean ====
section
/-! DEFINITION. Sample arithmetic: the formats of R87, binary32 held as exact integers, ramps (R105), the conversions of
the pleach engine (R178), the guard's comparisons and clamp (R187, R193). -/

namespace Sys2Proof.Machine

/-- Bits of a sample of a format. -/
def sampleBits : Nat → Nat
  | 0 => 16 | 1 => 24 | _ => 32

/-- The quotient rounded to nearest, ties to even. -/
def rneDiv (a b : Nat) : Nat :=
  let q := a / b
  let r := a % b
  if b < 2 * r || (2 * r == b && q % 2 == 1) then q + 1 else q

/-- The same for a signed dividend. -/
def rneDivInt (a : Int) (b : Nat) : Int :=
  if 0 ≤ a then (rneDiv a.natAbs b : Nat) else -((rneDiv a.natAbs b : Nat) : Int)

/-! ## binary32 -/

/-- Exponent and fraction fields, and sign. -/
def fpExp (v : Nat) : Nat := bits v 23 8
def fpMant (v : Nat) : Nat := bits v 0 23
def fpNeg (v : Nat) : Bool := bitAt v 31
def fpNan (v : Nat) : Bool := fpExp v == 255 && fpMant v != 0
def fpInf (v : Nat) : Bool := fpExp v == 255 && fpMant v == 0

/-- The magnitude of a finite value in units of 2^-149. -/
def fpMag (v : Nat) : Nat :=
  if fpExp v = 0 then fpMant v else (fpMant v + 2 ^ 23) * 2 ^ (fpExp v - 1)

/-- A finite value in units of 2^-149. -/
def fpNum (v : Nat) : Int := if fpNeg v then -(fpMag v : Int) else fpMag v

/-- The pattern of num / den × 2^-149 with a sign, rounded to nearest, ties to even. -/
def fpRound (neg : Bool) (num den : Nat) : Nat :=
  let q := num / den
  let k := if q < 2 ^ 24 then 0 else log2f q - 23
  let p := min 0x7F800000 (k * 2 ^ 23 + rneDiv num (den * 2 ^ k))
  (if neg then 2 ^ 31 else 0) + p

/-- R105: a NaN operand of a ramp product is +0, and an infinity ±1.0. -/
def fpTame (v : Nat) : Nat :=
  if fpNan v then 0 else if fpInf v then (if fpNeg v then 0xBF800000 else 0x3F800000) else v

/-! ## Ramps (R105) -/

/-- A sample times num / den: truncated toward zero for integers, nearest-even for FP32. -/
def scaleSample (fmt x num den : Nat) : Nat :=
  if fmt = 3 then
    let v := fpTame x
    fpRound (fpNeg v) (fpMag v * num) den
  else ofSigned (sampleBits fmt) (truncDiv (toSigned (sampleBits fmt) x * num) den)

/-! ## The pleach engine's conversions (R178) -/

/-- A value held within 24 bits, and whether it had to be. -/
def sat24 (i : Int) : Int × Bool :=
  if i < -(2 ^ 23) then (-(2 ^ 23), true) else if 2 ^ 23 - 1 < i then (2 ^ 23 - 1, true) else (i, false)

/-- Stage 1: a sample as a 24-bit value, and whether it saturated or was a NaN. -/
def toQ24 (fmt x : Nat) : Int × Bool :=
  match fmt with
  | 0 => (toSigned 16 x * 256, false)
  | 1 => (toSigned 24 x, false)
  | 2 => sat24 (rneDivInt (toSigned 32 x) 256)
  | _ =>
    if fpNan x then (0, true)
    else if fpInf x then (if fpNeg x then -(2 ^ 23) else 2 ^ 23 - 1, true)
    else sat24 (rneDivInt (fpNum x) (2 ^ 126))

/-- Stage 4: an accumulator in the output's format, and whether it saturated. -/
def fromAcc (fmt : Nat) (a : Int) : Nat × Bool :=
  if fmt = 3 then
    let p := fpRound (decide (a < 0)) (a.natAbs * 2 ^ 106) 1
    if 0x3F800000 < p % 2 ^ 31 then ((if a < 0 then 0xBF800000 else 0x3F800000), true) else (p, false)
  else
    let w := sampleBits fmt
    let v := rneDivInt a (2 ^ (44 - w))
    if v < -(2 ^ (w - 1)) then (2 ^ (w - 1), true)
    else if 2 ^ (w - 1) - 1 < v then (2 ^ (w - 1) - 1, true)
    else (ofSigned w v, false)

/-- The gain of sample `j` of a ramp tick (R179). -/
def rampGain (old new : Int) (j s : Nat) : Int := old + truncDiv ((new - old) * (j + 1)) s

/-! ## The guard (R187, R193) -/

/-- The peak check: |v| × 2^23 exceeds the limit, compared exactly. -/
def peakOver (fmt x limit : Nat) : Bool :=
  if fmt = 3 then fpExp x == 255 || limit * 2 ^ 126 < fpMag x
  else limit * 2 ^ (sampleBits fmt - 1) < (toSigned (sampleBits fmt) x).natAbs * 2 ^ 23

/-- The binary32 values whose exact sum a sample is, as calculator B holds it (R189): an integer sample scaled exactly, L32
as the sample with bits [7:0] cleared and bits [7:0] alone. -/
def partsB (fmt x : Nat) : List Nat :=
  let f := fun (w : Nat) (i : Int) => fpRound (decide (i < 0)) (i.natAbs * 2 ^ (150 - w)) 1
  match fmt with
  | 0 => [f 16 (toSigned 16 x)]
  | 1 => [f 24 (toSigned 24 x)]
  | 2 => [f 32 (toSigned 32 x - (x % 256 : Nat)), f 32 (x % 256 : Nat)]
  | _ => [x]

/-- The exact sum of finite binary32 values, in units of 2^-149. -/
def sumB (l : List Nat) : Int := l.foldl (fun a v => a + fpNum v) 0

/-- Calculator B's peak check: its binary32 values against PEAK_LIMIT × 2^-23 (R189). -/
def peakOverB (fmt x limit : Nat) : Bool :=
  let l := partsB fmt x
  l.any (fun v => fpExp v == 255) || limit * 2 ^ 126 < (sumB l).natAbs

/-- Calculator B's guard value: its binary32 values scaled, and rounded to nearest, ties to even (R189). -/
def qB (fmt x : Nat) : Int :=
  let l := partsB fmt x
  if l.any fpNan then 0
  else if l.any fpInf then (if l.any fpNeg then -(2 ^ 23) else 2 ^ 23 - 1)
  else (sat24 (rneDivInt (sumB l) (2 ^ 126))).1

/-- Partial sums added in sign-magnitude: the magnitudes of each sign apart (R189). -/
def smSum (l : List Int) : Int :=
  let p := l.foldl (fun a i => if 0 ≤ i then a + i.natAbs else a) 0
  let n := l.foldl (fun a i => if i < 0 then a + i.natAbs else a) 0
  if n ≤ p then ((p - n : Nat) : Int) else -((n - p : Nat) : Int)

/-- A sample counts as zero for the stuck check. -/
def stuckZero (fmt x : Nat) : Bool := if fmt = 3 then x % 2 ^ 31 == 0 else x == 0

/-- LIM: the largest magnitude that passes the peak check exactly. -/
def guardLim (fmt limit : Nat) : Nat :=
  match fmt with
  | 0 => limit / 256
  | 1 => limit
  | 2 => limit * 256 + 255
  | _ => fpRound false (limit * 2 ^ 126) 1

/-- clamp(x, −LIM, +LIM); a NaN becomes 0. -/
def guardClamp (fmt x limit : Nat) : Nat :=
  if fmt = 3 then
    if fpNan x then 0
    else if fpInf x || limit * 2 ^ 126 < fpMag x then (if fpNeg x then 2 ^ 31 else 0) + guardLim 3 limit
    else x
  else ofSigned (sampleBits fmt) (clampInt (guardLim fmt limit) (toSigned (sampleBits fmt) x))

/-! ## Sample bytes (R88) -/

/-- The samples of a payload, most significant byte first. -/
def samplesOf (n : Nat) : Nat → Bytes → List Nat
  | 0, _ => []
  | k + 1, l => ofBE (l.take n) :: samplesOf n k (l.drop n)

/-- Their bytes. -/
def bytesOf (fmt : Nat) (l : List Nat) : Bytes := l.flatMap (toBE (sampleBits fmt / 8))

end Sys2Proof.Machine
end

