-- ==== Sys2Proof/Machine/Guard.lean ====
section
/-! DEFINITION. The level guard: checks, calculators, ramps, re-arming and the lowerable limits (R185 to R196, R206). -/

namespace Sys2Proof.Machine

/-- A profile's limits as a channel meets them (R187). -/
structure GuardLimits where
  peak : Nat
  dc : Nat
  dcN : Nat
  stuck : Nat
  rampR : Nat
  fmt : Nat
  /-- samples per tick of the flow -/
  perTick : Nat
deriving DecidableEq, Repr

def State.guardProfile (s : State) (f : Nat) : Nat := s.get (Reg.EGU_GUARD_MAP_PROFILE f)

def State.guardLimits (s : State) (f : Nat) : GuardLimits :=
  let p := s.guardProfile f
  ⟨s.get (Reg.EGU_GUARD_PEAK_PEAK_LIMIT p), s.get (Reg.EGU_GUARD_DC_DC_LIMIT p), s.get (Reg.EGU_GUARD_STUCK_DC_N p),
    s.get (Reg.EGU_GUARD_STUCK_STUCK_K p), s.get (Reg.EGU_GUARD_POLICY_RAMP_R p), (s.geometry f).format, (s.geometry f).samples⟩

/-- A flow is guarded exactly when its SPK is 1 (R186). -/
def State.guarded (s : State) (f : Nat) : Bool := s.flag (Reg.FLOW_SPK f)

/-- Zero history and ARMED (R188). -/
def GuardChannel.fresh (rampR : Nat) : GuardChannel where
  state := 0
  pos := rampR
  cause := 0
  ringA := []
  sumA := 0
  runA := 0
  lastA := 0
  verdictA := 0
  ringB := []
  sumB := 0
  startB := none
  lastB := 0
  verdictB := 0
  clean := 0

/-- The channels of a guarded flow. -/
def State.guardChannels (s : State) (f : Nat) : List GuardChannel :=
  (Assoc.get? s.egu.guard f).getD
    (List.replicate (s.geometry f).channels (GuardChannel.fresh (s.guardLimits f).rampR))

def State.setGuard (s : State) (f : Nat) (l : List GuardChannel) : State :=
  { s with egu := { s.egu with guard := Assoc.set s.egu.guard f l } }

/-- Calculator A's stuck check over samples: its run counter, the last sample, and the longest run that holds a sample of
the tick (R187, R189). -/
structure StuckA where
  run : Nat
  last : Nat
  longest : Nat
deriving DecidableEq, Repr

/-- One sample in A: the counter is incremented on each identical sample. -/
def StuckA.step (fmt : Nat) (r : StuckA) (x : Nat) : StuckA :=
  let run := if stuckZero fmt x then 0 else if x = r.last then r.run + 1 else 1
  ⟨run, x, max r.longest run⟩

/-- Calculator B's stuck check: the media-clock index of the run's first sample, the last sample, and whether the check is
violated (R189). -/
structure StuckB where
  start : Option Nat
  last : Nat
  tooLong : Bool
deriving DecidableEq, Repr

/-- One sample in B, with its media-clock index: the index difference is compared with STUCK_K. -/
def StuckB.step (fmt limit : Nat) (r : StuckB) (idx x : Nat) : StuckB :=
  if stuckZero fmt x then ⟨none, x, r.tooLong⟩
  else
    let first := match r.start with | some i => if x = r.last then i else idx | none => idx
    ⟨some first, x, r.tooLong || decide (limit < idx + 1 - first)⟩

/-- One tick of a channel through calculator A (R187 to R189). Without samples the tick counts as zeros and ends a run. -/
def GuardChannel.judgeA (g : GuardLimits) (xs : Option (List Nat)) (c : GuardChannel) : GuardChannel :=
  let l := xs.getD []
  let sum : Int := l.foldl (fun a x => a + (toQ24 g.fmt x).1) 0
  let full := g.dcN ≤ c.ringA.length
  let sumA := c.sumA + sum - (if full then c.ringA.getLastD 0 else 0)
  let r := match xs with
    | none => (⟨0, 0, 0⟩ : StuckA)
    | some l => l.foldl (StuckA.step g.fmt) ⟨c.runA, c.lastA, 0⟩
  let peak := l.any (fun x => peakOver g.fmt x g.peak)
  let dc := decide (g.dc * g.dcN * g.perTick < sumA.natAbs)
  { c with ringA := (sum :: c.ringA).take g.dcN, sumA := sumA, runA := r.run, lastA := r.last
           verdictA := bit peak + 2 * bit dc + 4 * bit (decide (g.stuck < r.longest)) }

/-- The same tick, outbound tick `m`, through calculator B. -/
def GuardChannel.judgeB (g : GuardLimits) (m : Nat) (xs : Option (List Nat)) (c : GuardChannel) : GuardChannel :=
  let l := xs.getD []
  let ring := (l.foldl (fun a x => a + qB g.fmt x) 0 :: c.ringB).take g.dcN
  let total := smSum ring
  let r := match xs with
    | none => (⟨none, 0, false⟩ : StuckB)
    | some l => (l.foldl (fun (p : Nat × StuckB) x => (p.1 + 1, p.2.step g.fmt g.stuck p.1 x))
        (m * g.perTick, ⟨c.startB, c.lastB, false⟩)).2
  let peak := l.any (fun x => peakOverB g.fmt x g.peak)
  let dc := decide (g.dc * g.dcN * g.perTick < total.natAbs)
  { c with ringB := ring, sumB := total, startB := r.start, lastB := r.last
           verdictB := bit peak + 2 * bit dc + 4 * bit r.tooLong }

/-- The samples of one channel's tick through both calculators: the channel's history after, and the checks violated, bit
0 peak, bit 1 DC, bit 2 stuck. A check that either calculator finds violated is a violation (DESIGN CHOICE, log entry 102:
without a fault both find the same). -/
def GuardChannel.judge (g : GuardLimits) (m : Nat) (xs : Option (List Nat)) (c : GuardChannel) : GuardChannel × Nat :=
  let c := (c.judgeA g xs).judgeB g m xs
  (c, c.verdictA ||| c.verdictB)

/-- A difference that the exchange finds between the calculators of a channel at the end of outbound tick `m`: in a verdict,
the DC sum or the stuck-run length (R189). -/
def GuardChannel.differs (g : GuardLimits) (m : Nat) (c : GuardChannel) : Bool :=
  c.verdictA != c.verdictB || c.sumA != c.sumB ||
    c.runA != (match c.startB with | some i => (m + 1) * g.perTick - i | none => 0)

/-- A violation with a cause meets the channel's state (R193, R195). -/
def GuardChannel.trip (cause : Nat) (c : GuardChannel) : GuardChannel :=
  if c.state = 0 || c.state = 3 then { c with state := 1, cause := cause, clean := 0 }
  else { c with cause := max c.cause cause, clean := 0 }

/-- guard_sample (R193): the channel after, the sample sent, and whether it was outside ARMED. -/
def guardSample (g : GuardLimits) (c : GuardChannel) (x : Nat) : GuardChannel × Nat × Bool :=
  if c.state = 0 then (c, x, false)
  else
    let pos := if c.state = 1 then c.pos - 1 else if c.state = 3 then c.pos + 1 else c.pos
    let y := scaleSample g.fmt (guardClamp g.fmt x g.peak) pos g.rampR
    let st := if c.state = 1 && pos = 0 then 2 else if c.state = 3 && g.rampR ≤ pos then 0 else c.state
    ({ c with state := st, pos := if c.state = 2 then 0 else pos }, if c.state = 2 then 0 else y, true)

/-- A tick's samples of a channel through the ramp. -/
def guardRun (g : GuardLimits) : GuardChannel → List Nat → GuardChannel × List (Nat × Bool)
  | c, [] => (c, [])
  | c, x :: l =>
    let (c', y, out) := guardSample g c x
    let (c'', r) := guardRun g c' l
    (c'', (y, out) :: r)

/-- Column `c` of samples held by sample instant. -/
def column (l : List (List Nat)) (c : Nat) : List Nat := l.map (fun row => row.getD c 0)

/-- Channel `c` of a flow evaluated for outbound tick `m`: channel, checks violated, samples sent. -/
def guardEval (g : GuardLimits) (m : Nat) (samples : Option (List (List Nat))) (c : Nat) (ch : GuardChannel) :
    GuardChannel × Nat × List (Nat × Bool) :=
  let xs := samples.map (fun l => column l c)
  let (ch, checks) := ch.judge g m xs
  let ch := if checks = 0 then { ch with clean := ch.clean + 1 } else ch.trip 0
  let (ch, out) := guardRun g ch (xs.getD (List.replicate g.perTick 0))
  (ch, checks, out)

/-- Rows of samples from columns. -/
def rowsOf (cols : List (List Nat)) (n : Nat) : List (List Nat) :=
  (List.range n).map (fun j => cols.map (fun c => c.getD j 0))

/-- The mask of the numbers in a list. -/
def maskOf (l : List Nat) : Nat := l.foldl (fun a i => setBit a i) 0

/-- The key under which GUARD_TRIP of a flow is raised once per tick. -/
def tripKey (f : Nat) : Nat := 0x700000000 + f

/-- Channels of flow `f` trip: counted, and GUARD_TRIP raised at most once per flow and tick (R193, R205). -/
def State.guardTrips (s : State) (f : Nat) (channels : List Nat) (checks : Nat) : State :=
  if channels.isEmpty then s
  else
    let s := s.bumpBy Reg.EGU_GUARD_TRIPS channels.length
    -- a violation cancels an accepted re-arm of its channel (R195)
    let hit := s.egu.rearms.any (fun x => x.1 == f && channels.any (bitAt x.2.2))
    let s := { s with egu := { s.egu with rearms := s.egu.rearms.map (fun (x : Nat × Nat × Nat) =>
      if x.1 = f then (x.1, x.2.1, channels.foldl clearBit x.2.2) else x) } }
    let s := s.when hit (fun s => s.raise .egu 5 [])
    s.oncePerTick (tripKey f) (fun s => s.raise .egu 1 [(16, f), (64, maskOf channels), (8, checks)])

/-- All S samples of every channel of a guarded flow are evaluated for outbound tick `m` (R187, R193); what left the guard
is kept for the flow's packets of the tick. -/
def State.guardTick (s : State) (f m : Nat) (samples : Option (List (List Nat))) : State :=
  let g := s.guardLimits f
  let chs := s.guardChannels f
  let res := (List.range chs.length).map (fun c => guardEval g m samples c (chs.getD c (GuardChannel.fresh g.rampR)))
  let bad := (List.range res.length).filter (fun c => match res[c]? with | some r => r.2.1 != 0 | none => false)
  let checks := res.foldl (fun a r => a ||| r.2.1) 0
  let s := s.setGuard f (res.map (·.1))
  let s := s.guardTrips f bad checks
  let cols := res.map (fun r => r.2.2.map (·.1))
  let flagged := (List.range res.length).flatMap (fun c =>
    (List.range g.perTick).filterMap (fun j =>
      match (res[c]?).bind (fun r => r.2.2[j]?) with
      | some (_, true) => some (j * 64 + c)
      | _ => none))
  let t : GuardTick := ⟨f, m, rowsOf cols g.perTick, flagged⟩
  { s with egu := { s.egu with guardTicks := t :: s.egu.guardTicks.filter (fun x => !(x.flow == f)) } }

def State.guardTick? (s : State) (f m : Nat) : Option GuardTick :=
  s.egu.guardTicks.find? (fun x => x.flow == f && x.tick == m)

/-- Guard failure (R190, R191): every channel of every guarded flow falls to silence with cause FAULT. -/
def State.guardFail (s : State) (code : Nat) : State :=
  let s := s.raise .egu 3 []
  if s.flag Reg.EGU_GUARD_STATUS_FAILED then s
  else
    let s := (s.put Reg.EGU_GUARD_STATUS_FAILED 1).fault 7 code
    let flows := s.admittedFlows.filter s.guarded
    let down := fun (c : GuardChannel) => if c.state = 0 || c.state = 3 then { c with state := 1, cause := 2 } else { c with cause := 2 }
    let s := flows.foldl (fun s f => s.setGuard f ((s.guardChannels f).map down)) s
    { s with egu := { s.egu with rearms := [] } }

/-- The channels of a flow on which the two comparisons of tick `m` disagree; `found` are those that a fault has made differ. -/
def State.disagreeing (s : State) (m : Nat) (found : List (Nat × Nat)) (f : Nat) : List Nat :=
  (List.range (s.geometry f).channels).filter (fun c =>
    found.contains (f, c) || (match (Assoc.get? s.egu.guard f).bind (fun l => l[c]?) with
      | some ch => (s.guardTick? f m).isSome && ch.differs (s.guardLimits f) m
      | none => false))

/-- The channels `l` of a flow disagree: they trip and ramp (R190). -/
def State.guardDisagree (s : State) (f : Nat) (l : List Nat) : State :=
  if l.isEmpty then s
  else
    let chs := s.guardChannels f
    let s := s.setGuard f ((List.range chs.length).map (fun c =>
      let ch := chs.getD c (GuardChannel.fresh 0)
      if l.contains c then ch.trip 1 else ch))
    let s := s.guardTrips f l 0
    (s.bumpBy Reg.EGU_GUARD_DISAGREES l.length).raise .egu 2 [(16, f), (64, maskOf l)]

/-- The end of outbound tick `m` (R188 to R190): guarded flows that sent nothing count zeros; the calculators exchange
verdicts, and `found` names channels in which a fault has made them differ; so does an uncorrectable word of a calculator's store
(R431). A disagreement is a violation from the next tick's sample 0 on. -/
def State.guardExchange (s : State) (m : Nat) (found : List (Nat × Nat)) : State :=
  let found := found ++ s.egu.badStores
  let s := { s with egu := { s.egu with badStores := [] } }
  let flows := s.admittedFlows.filter s.guarded
  let s := flows.foldl (fun s f =>
    if s.admittedAt f (m - 1) && (s.guardTick? f m).isNone then s.guardTick f m none else s) s
  let n := sumOf flows (fun f => (s.disagreeing m found f).length)
  let s := flows.foldl (fun s f => s.guardDisagree f (s.disagreeing m found f)) s
  let run := if n = 0 then 0 else s.egu.disagreeRun + 1
  let s := { s with egu := { s.egu with disagreeRun := run, disagreed := n } }
  let s := if (8 ≤ n || 4 ≤ run) && !s.flag Reg.EGU_GUARD_STATUS_FAILED then s.guardFail 7 else s
  { s with egu := { s.egu with guardTicks := s.egu.guardTicks.filter (fun x => m < x.tick) } }

/-! ## Re-arming (R194, R195, R206) -/

/-- Channels enter RAMP_UP. -/
def State.rampUp (s : State) (f : Nat) (ok : Nat → GuardChannel → Bool) : State :=
  let chs := s.guardChannels f
  let up := (List.range chs.length).filter (fun c => match chs[c]? with | some ch => ch.state == 2 && ok c ch | none => false)
  if up.isEmpty then s
  else (s.setGuard f ((List.range chs.length).map (fun c =>
    let ch := chs.getD c (GuardChannel.fresh 0)
    if up.contains c then { ch with state := 3, pos := 0, cause := 0 } else ch))).raise .egu 4 []

/-- AUTO_REARM (R194): channels muted by a check ramp up in the tick after their REARM_M-th clean tick. -/
def execAutoRearm (flow : Fin 65536) (s : State) : Host.Outcome State Fault Refusal :=
  let p := s.guardProfile flow
  if s.guarded flow && s.flag (Reg.EGU_GUARD_POLICY_REARM_AUTO p) && !s.flag Reg.EGU_GUARD_STATUS_FAILED then
    ok (s.rampUp flow (fun _ c => c.cause == 0 && s.get (Reg.EGU_GUARD_POLICY_REARM_M p) ≤ c.clean))
  else ok s

/-- The result of a REARM of flow `f` for a channel mask, in the order of R206. -/
def State.rearmResult (s : State) (f mask : Nat) : Nat :=
  let chs := s.guardChannels f
  let sel := (List.range chs.length).filterMap (fun c => if bitAt mask c then chs[c]? else none)
  if !s.guarded f then 1
  else if s.flag Reg.EGU_GUARD_STATUS_FAILED then 2
  else if sel.any (fun c => c.state != 2) then 3
  else if sel.any (fun c => c.clean == 0) then 4
  else 0

def State.scheduleRearm (s : State) (f mask tick : Nat) : State :=
  { s with egu := { s.egu with rearms := s.egu.rearms ++ [(f, tick, mask)] } }

/-- REARM (R194): the manager's command. -/
def State.rearmCmd (s : State) (r : Requester) (f : Nat) : State :=
  if !s.mayWrite r 0x07008400 then s
  else s.localOnly (fun s =>
    let mask := s.get Reg.EGU_GUARD_CH_MASK % 2 ^ (s.geometry f).channels
    let code := s.rearmResult f mask
    let s := s.put Reg.EGU_GUARD_STATUS_RESULT code
    if code = 0 then
      let t := s.tick + 2
      (s.scheduleRearm f mask t).carry t (.rearm f mask)
    else s.raise .egu 5 [])

def execRearm (r : Requester) (flow : Fin 65536) (s : State) : Host.Outcome State Fault Refusal :=
  ok (s.rearmCmd r flow)

/-- REARM_EFFECTIVE (R194): at its tick an accepted re-arm starts RAMP_UP in the channels it still holds. -/
def execRearmEffective (flow : Fin 65536) (s : State) : Host.Outcome State Fault Refusal :=
  let due := s.egu.rearms.filter (fun x => x.1 == flow.val && x.2.1 ≤ s.tick)
  let mask := due.foldl (fun a x => a ||| x.2.2) 0
  let s := { s with egu := { s.egu with rearms := s.egu.rearms.filter (fun x => !(x.1 == flow.val && x.2.1 ≤ s.tick)) } }
  ok (if s.flag Reg.EGU_GUARD_STATUS_FAILED then s else s.rampUp flow (fun c _ => bitAt mask c))

/-- QUERY (R206). -/
def State.guardQueryCmd (s : State) (r : Requester) (f : Nat) : State :=
  if !s.mayWrite r 0x07008400 then s
  else
    let chs := if s.guarded f then s.guardChannels f else []
    let pick := fun (p : GuardChannel → Bool) => maskOf ((List.range chs.length).filter (fun c =>
      match chs[c]? with | some ch => p ch | none => false))
    ((s.put Reg.EGU_GUARD_STATUS_RESULT (bit (!s.guarded f))).put Reg.EGU_GUARD_Q_OFF (pick (fun c => c.state != 0))).put
      Reg.EGU_GUARD_Q_DISAGREE (pick (fun c => c.state != 0 && c.cause == 1))

def execGuardQuery (r : Requester) (flow : Fin 65536) (s : State) : Host.Outcome State Fault Refusal :=
  ok (s.guardQueryCmd r flow)

/-! ## Limits (R196) -/

/-- The lowerable field of a profile: 0 PEAK_LIMIT, 1 DC_LIMIT, 2 STUCK_K. -/
def limitField (p which : Nat) : Field :=
  if which = 0 then Reg.EGU_GUARD_PEAK_PEAK_LIMIT p else if which = 1 then Reg.EGU_GUARD_DC_DC_LIMIT p
  else Reg.EGU_GUARD_STUCK_STUCK_K p

/-- The least value of the field. -/
def limitFloor (which : Nat) : Nat := if which = 0 then 1 else if which = 1 then 0 else 2

/-- An accepted lower limit waits for its tick. -/
def State.acceptLimit (s : State) (key v tick : Nat) : State :=
  { s with egu := { s.egu with limits := s.egu.limits.filter (fun x => x.1 != key) ++ [(key, v, tick)] } }

/-- LIMIT_WRITE (R196): accepted only where it raises nothing; a write that meets a pending one keeps its tick. The SL
field of the same word is written until EGU is sealed, and refused under R12 after. -/
def State.writeLimit (s : State) (r : Requester) (p which v : Nat) : State :=
  let f := limitField p which
  if !s.mayWrite r f.key then s
  else
    let new := bits v f.lo (f.hi + 1 - f.lo)
    let s := s.when (which = 2 && s.flag (Reg.UNIT_SEALED 7) && bits v 16 11 != s.get (Reg.EGU_GUARD_STUCK_DC_N p))
      (fun s => s.sealWrite r f.key)
    let pend := s.egu.limits.find? (fun x => x.1 == f.key)
    let cap := match pend with | some x => min x.2.1 (s.get f) | none => s.get f
    if cap < new then
      ((s.bump Reg.EGU_LIMIT_REFUSED).hlog 8 7 0).raise .egu 7 []
    else if new < limitFloor which then s.bump Reg.EGU_LIMIT_REFUSED
    else s.localOnly (fun s =>
      let s := s.when (which = 2 && !s.flag (Reg.UNIT_SEALED 7)) (fun s => s.put (Reg.EGU_GUARD_STUCK_DC_N p) (bits v 16 11))
      let t := match pend with | some x => x.2.2 | none => s.tick + 2
      (s.acceptLimit f.key new t).carry t (.limit f.key (BitVec.ofNat 32 new)))

def execLimitWrite (r : Requester) (profile : Fin 64) (which : Fin 3) (v : Word) (s : State) : Host.Outcome State Fault Refusal :=
  ok (s.writeLimit r profile which v.toNat)

/-- LIMIT_LOWERED (R196): an accepted limit takes effect at its tick. -/
def execLimitLowered (profile : Fin 64) (which : Fin 3) (s : State) : Host.Outcome State Fault Refusal :=
  let f := limitField profile which
  match s.egu.limits.find? (fun x => x.1 == f.key && x.2.2 ≤ s.tick) with
  | none => ok s
  | some x =>
    let old := s.get f
    let s := { s with egu := { s.egu with limits := s.egu.limits.filter (fun y => y.1 != f.key) } }
    let s := s.put f x.2.1
    ok (s.when (x.2.1 < old) (fun s => s.raise .egu 6 []))

end Sys2Proof.Machine
end

