-- ==== Sys2Proof/Machine/Form.lean ====
section
/-! DEFINITION. What a tick boundary forms: switched outbound ticks, hold policies (R104, R105), the pleach sums (R176 to
R182), and the audits of the buffer (R172, R173). -/

namespace Sys2Proof.Machine

/-! ## Ticks as samples (R88, R89) -/

/-- The samples of a tick from those of its packets, by sample instant and channel. -/
def Geometry.assemble (g : Geometry) (pk : List (List Nat)) : List (List Nat) :=
  (List.range g.samples).map (fun j => (List.range g.channels).map (fun c =>
    let i := j / g.spp * g.groups + c / g.perPkt
    (pk.getD i []).getD (j % g.spp * g.width i + c % g.perPkt) 0))

/-- The samples of packet `i` of a tick, in the order sent. -/
def Geometry.packet (g : Geometry) (rows : List (List Nat)) (i : Nat) : List Nat :=
  (List.range g.spp).flatMap (fun j =>
    let row := rows.getD (i / g.groups * g.spp + j) []
    (List.range (g.width i)).map (fun k => row.getD (i % g.groups * g.perPkt + k) 0))

/-- The packets that arrived for tick `n`, by index. -/
def State.packetsOf (s : State) (f n : Nat) : List RxPkt :=
  (List.range (s.geometry f).packets).filterMap (fun i => (s.rt f).rx.find? (fun p => p.tick == n && p.index == i))

/-- The flow is held in tick `n` after an escalation of its record (R155). -/
def State.shadowHolds (s : State) (f n : Nat) : Bool := (Assoc.get? s.ftu.shadowHeld f).any (fun t => decide (t ≤ n))

/-- Tick `n` of an inbound flow is valid: whole, and not held (R84, R104, R155). -/
def State.tickValid (s : State) (f n : Nat) : Bool :=
  !(s.rt f).held.contains n && (s.packetsOf f n).length == (s.geometry f).packets && !s.shadowHolds f n

/-- The samples of an inbound tick by channel, none where it is held. -/
def State.inputTick (s : State) (f n : Nat) : Option (List (List Nat)) :=
  let g := s.geometry f
  if s.tickValid f n then
    let rows := g.assemble ((s.packetsOf f n).map (fun p =>
      samplesOf (sampleBits g.format / 8) (p.samples.length / (sampleBits g.format / 8)) p.samples))
    some ((List.range g.channels).map (fun c => column rows c))
  else none

/-! ## Hold policies -/

/-- One tick under hold policy 0 SILENCE, 1 HOLD_LAST or 2 DROP: what is sent, by channel, none where nothing is; the last
valid samples; whether the tick was valid (R104, R105). -/
def holdStep (policy fmt n s : Nat) (lastX : List Nat) (lastValid : Bool) (tick : Option (List (List Nat))) :
    Option (List (List Nat)) × List Nat × Bool :=
  match tick with
  | some cs =>
    let ramp := fun (l : List Nat) => (List.range l.length).map (fun j => scaleSample fmt (l.getD j 0) (j + 1) s)
    (some (if policy = 0 && !lastValid then cs.map ramp else cs), cs.map (fun l => l.getLastD 0), true)
  | none =>
    let x := (List.range n).map (fun c => lastX.getD c 0)
    let out :=
      if policy = 0 then
        some (if lastValid then x.map (fun v => (List.range s).map (fun j => scaleSample fmt v (s - 1 - j) s))
              else x.map (fun _ => List.replicate s 0))
      else if policy = 1 then some (x.map (fun v => List.replicate s v))
      else none
    (out, x, false)

/-- A flow's tick, sent in tick `m`, under its hold policy; a held tick is counted in HELD, and the digest record of tick `m`
begins (R105, R320). -/
def State.flowStep (s : State) (f m : Nat) (tick : Option (List (List Nat))) (heldIn : Bool) : Option (List (List Nat)) × State :=
  let g := s.geometry f
  let r := s.rt f
  let (out, x, v) := holdStep (s.get (Reg.FLOW_HOLD f)) g.format g.channels g.samples r.lastX r.lastValid tick
  (out, (s.setRt f { r with lastX := x, lastValid := v }).when tick.isNone (fun s => s.bumpSat (Reg.FLOW_HELD f))
    |>.noteDigest f m (heldIn || tick.isNone))

/-! ## Switched flows -/

/-- The EME flag HOLD (R94). -/
def holdFlag : Nat := 0x400

/-- The copies of an outbound tick `m` of flow `f`, one for each destination. -/
def State.copiesOf (s : State) (f m : Nat) (rows : List (List Nat)) (flags : Nat) (heldIn : Bool) (handles : List Nat) : List Copy :=
  ((s.dests f).zipIdx).map (fun x => (⟨f, m, x.1.toRing, x.1.target, x.1.offset, x.1.rewrite, rows, flags, x.2 == 0, heldIn, 0, handles⟩ : Copy))

def State.addCopies (s : State) (l : List Copy) : State :=
  { s with media := { s.media with copies := s.media.copies ++ l } }

/-- A frame keeps `n` copies, or leaves the buffer. -/
def State.keepCopies (s : State) (h n : Nat) : State :=
  match s.frame? h with
  | none => s
  | some f => if n = 0 then s.freeFrame h else s.setFrame h { f with copies := n }

/-- Inbound tick `n` of a switched flow becomes outbound tick n + 1 (R28, R95). -/
def State.formSwitched (s : State) (f n : Nat) : State :=
  let g := s.geometry f
  let tick := s.inputTick f n
  let pk := if tick.isSome then s.packetsOf f n else []
  let held := tick.isNone || pk.any (fun p => bitAt p.flags 10)
  let hs := pk.map (·.handle)
  let (out, s) := s.flowStep f (n + 1) tick false
  match out with
  | none => s
  | some cols =>
    let l := s.copiesOf f (n + 1) (rowsOf cols g.samples) (if held then holdFlag else 0) tick.isNone hs
    hs.foldl (fun s h => s.keepCopies h l.length) (s.addCopies l)

/-! ## Pleach points -/

/-- How term `i` stands in input tick `n` of an output at rate code `rate`: absent under R176. -/
def State.termAbsent (s : State) (i n rate : Nat) : Bool :=
  let f := s.get (Reg.TERM_IN_FLOW i)
  !s.admittedAt f n || s.get (Reg.FLOW_SRC_KIND f) == 2 || s.get (Reg.FLOW_RATE f) != rate ||
    (s.geometry f).channels ≤ s.get (Reg.TERM_IN_CH i)

/-- The gains of term `i` in the S samples of input tick `n` (R179). -/
def State.termGains (s : State) (i n S : Nat) : List Int :=
  let old := toSigned 25 (s.get (Reg.TERM_GAIN i))
  let new := toSigned 25 (s.get (Reg.TERM_PEND_GAIN i))
  let ramps := s.flag (Reg.TERM_PEND i) && (Assoc.get? s.fpu.gains i).any (fun t => decide (t ≤ n))
  (List.range S).map (fun j => if ramps then rampGain old new j S else old)

/-- What a term contributes to a sum. -/
structure TermSum where
  ch : Nat
  products : List Int
  held : Bool
  absent : Bool
  conv : Nat

/-- Term `i` in the sum of input tick `n`: its products, and its hold state after (R178 to R180). -/
def State.termTick (s : State) (i n rate : Nat) (S : Nat) : TermSum × State :=
  let ch := s.get (Reg.TERM_OUT_CH i)
  let put := fun (t : Option TermRt) => { s with fpu := { s.fpu with terms := match t with
    | some t => Assoc.set s.fpu.terms i t
    | none => Assoc.erase s.fpu.terms i } }
  if s.termAbsent i n rate then (⟨ch, [], false, true, 0⟩, put none)
  else
    let f := s.get (Reg.TERM_IN_FLOW i)
    let fmt := s.get (Reg.FLOW_FORMAT f)
    let t := Assoc.getD s.fpu.terms i ⟨0, false⟩
    let tick := (s.inputTick f n).map (fun cs => [cs.getD (s.get (Reg.TERM_IN_CH i)) []])
    let (out, x, v) := holdStep (s.get (Reg.FLOW_HOLD f)) fmt 1 S [t.lastX] t.lastValid tick
    let qs := ((out.getD []).headD []).map (toQ24 fmt)
    (⟨ch, List.zipWith (fun q g => q.1 * g) qs (s.termGains i n S), tick.isNone, false, (qs.filter (·.2)).length⟩,
      put (some ⟨x.headD 0, v⟩))

/-- The terms of a point in ascending index. -/
def State.termsOf (s : State) (p : Nat) : List Nat :=
  (List.range (s.get (Reg.POINT_TERM_COUNT p))).map (fun i => s.get (Reg.POINT_TERM_BASE p) + i)

def State.sumTerms (s : State) (n rate S : Nat) : List Nat → List TermSum × State
  | [] => ([], s)
  | i :: l =>
    let (t, s) := s.termTick i n rate S
    let (r, s) := s.sumTerms n rate S l
    (t :: r, s)

/-- Add to a 32-bit counter that holds at its greatest value (R174). -/
def State.bumpSatBy (s : State) (f : Field) (n : Nat) : State := s.put f (min (2 ^ 32 - 1) (s.get f + n))

/-- A ramp tick has been evaluated: GAIN reads the new gain (R179). -/
def State.settleGain (s : State) (i n : Nat) : State :=
  if s.flag (Reg.TERM_PEND i) && (Assoc.get? s.fpu.gains i).any (fun t => decide (t ≤ n)) then
    let s := ((s.put (Reg.TERM_GAIN i) (s.get (Reg.TERM_PEND_GAIN i))).put (Reg.TERM_PEND i) 0).put (Reg.TERM_PEND_GAIN i) 0
    { s with fpu := { s.fpu with gains := Assoc.erase s.fpu.gains i } }
  else s

/-- A pending change is discarded once the last sum before a removal has been evaluated (R182). -/
def State.dropGain (s : State) (i : Nat) : State :=
  let s := (s.put (Reg.TERM_PEND i) 0).put (Reg.TERM_PEND_GAIN i) 0
  { s with fpu := { s.fpu with gains := Assoc.erase s.fpu.gains i } }

/-- The cells of an outbound pleach tick: a handle for each packet, or none where one cannot be had. -/
def State.storeOutput (s : State) (f copies : Nat) : List Bytes → List Nat → Option (List Nat) × State
  | [], hs => (some hs.reverse, s)
  | l :: ls, hs =>
    let charged := s.mediaCharged f
    match s.admitHead [] 8 (ceilDiv (l.length + 4) 256) charged with
    | (none, s) => (none, hs.foldl (fun s h => s.freeFrame h) s)
    | (some h, s) =>
      (s.storeFrame h ⟨0, 0, 0, l, true, false, true, Walk.empty, [], copies, charged, 0, [], [], .none, []⟩).storeOutput f copies ls (h :: hs)

/-- Send an outbound tick of a pleach output, formed from `tick` or held where it is none, or where its record escalated (R155). -/
def State.sendOutput (s : State) (f m : Nat) (tick : Option (List (List Nat))) (flags : Nat) (heldIn : Bool) : State :=
  let g := s.geometry f
  let nd := (s.dests f).length
  let tick := if s.shadowHolds f m then none else tick
  let (hs, s) := match tick with
    | none => (none, s)
    | some cols =>
      let rows := rowsOf cols g.samples
      s.storeOutput f nd (if nd = 0 then [] else
        (List.range g.packets).map (fun i => zeros 16 ++ bytesOf g.format (g.packet rows i))) []
  -- a packet that found no cells makes its tick a held one (R170)
  let tick := if hs.isSome then tick else none
  let (out, s) := s.flowStep f m tick heldIn
  match out with
  | none => s
  | some cols =>
    s.addCopies (s.copiesOf f m (rowsOf cols g.samples) (if tick.isNone then holdFlag else flags) (heldIn || tick.isNone) (hs.getD []))

/-- The sum of input tick `n` of point `p` (R177 to R181). -/
def State.formPoint (s : State) (p n : Nat) (unformed : Bool) : State :=
  let f := s.get (Reg.POINT_OUT_FLOW p)
  let g := s.geometry f
  let terms := s.termsOf p
  let s :=
    if unformed then
      let s := (s.bumpSat (Reg.POINT_UNFORMED p)).bump Reg.FPU_PLEACH_UNFORMED
      (s.raise .fpu 4 [(16, p), (48, n)]).sendOutput f (n + 2) none 0 true
    else
      let (ts, s) := s.sumTerms n (s.get (Reg.FLOW_RATE f)) g.samples terms
      let acc := fun c j => ((ts.filter (fun t => t.ch == c)).map (fun t => t.products.getD j 0)).foldl (· + ·) (0 : Int)
      let cols := (List.range g.channels).map (fun c => (List.range g.samples).map (fun j => fromAcc g.format (acc c j)))
      let s := s.bumpSatBy (Reg.POINT_SAT p) (sumOf cols (fun l => (l.filter (·.2)).length))
      let s := s.bumpSatBy (Reg.POINT_HELD_TERMS p) (ts.filter (fun t => t.held || t.absent)).length
      let s := s.bumpSatBy (Reg.POINT_IN_CONV p) (sumOf ts (·.conv))
      let s := terms.foldl (fun s i => s.settleGain i n) s
      s.sendOutput f (n + 2) (some (cols.map (fun l => l.map (·.1)))) (if ts.all (fun t => t.held || t.absent) then holdFlag else 0)
        (ts.any (·.held))
  if s.admittedAt f (n + 1) then s else terms.foldl (fun s i => s.dropGain i) s

/-- Points in the order of evaluation. -/
def State.pointOrder (s : State) : List Nat :=
  (s.admittedPoints).mergeSort (fun a b =>
    s.get (Reg.POINT_ORDER a) < s.get (Reg.POINT_ORDER b) || (s.get (Reg.POINT_ORDER a) == s.get (Reg.POINT_ORDER b) && a ≤ b))

/-- Everything that arrived in tick `n` is sent on or discarded, and the sums of tick `n` are formed. `unformed` names points
whose sum meets an uncorrectable error (R181, R431), as does that of a point whose record a scrubber has found bad. -/
def State.formTick (s : State) (n : Nat) (unformed : List Nat) : State :=
  let s := unformed.foldl (fun s _ => s.eccUncorr 6 3) s.crossMedia
  let unformed := unformed ++ s.fpu.badPoints
  let s := { s with fpu := { s.fpu with badPoints := [] } }
  let points := s.pointOrder.filter (fun p => s.admittedAt (s.get (Reg.POINT_OUT_FLOW p)) n)
  -- terms read the inputs before the switched flows let them go
  let s := points.foldl (fun s p => s.formPoint p n (unformed.contains p)) s
  let flows := s.admittedFlows.filter (fun f => s.get (Reg.FLOW_SRC_KIND f) != 2)
  let held := s.media.copies.flatMap (·.handles)
  let s := (flows.filter (fun f => s.admittedAt f n)).foldl (fun s f => s.formSwitched f n) s
  let kept := s.media.copies.flatMap (·.handles)
  let old := s.media.flows.flatMap (fun (x : Nat × FlowRt) => (x.2.rx.filter (fun p => p.tick ≤ n)).map (·.handle))
  let s := (old.filter (fun h => !kept.contains h && !held.contains h)).foldl (fun s h => s.freeFrame h) s
  -- the engine's finish, shown a tick later (R177, R184)
  let products := sumOf points (fun p => s.get (Reg.POINT_TERM_COUNT p) * (s.geometry (s.get (Reg.POINT_OUT_FLOW p))).samples)
  let s := s.put Reg.FPU_PLEACH_STATUS_LAST_DONE s.fpu.lastDone
  let (v, s) := s.takeFree
  let done := if points.isEmpty then 0 else ceilDiv (products * 1000000) 6291456 + v % 101
  { s with
    fpu := { s.fpu with lastDone := done }
    media := { s.media with flows := s.media.flows.map (fun (x : Nat × FlowRt) => (x.1, { x.2 with
      rx := x.2.rx.filter (fun p => n < p.tick)
      held := x.2.held.filter (fun t => n < t)
      seen := x.2.seen.filter (fun y => n < y.1) })) } }

/-! ## Audits (R172, R173, R437) -/

/-- AUDIT_FAIL of a book: 0 cells, 1 handles, 2 credits (codes of BOOKS in FPU_AUDIT_STATUS). -/
def State.auditFail (s : State) (book : Nat) (diff : Int) : State :=
  s.raise .fpu 2 [(8, book), (32, ofSigned 32 diff), (48, s.tick)]

/-- FPU's audit in the first cycle of a tick. `lost` are free cells that a fault has taken, `lostHandles` handles it has
taken, and `credits` pairs (pipeline × 64 + destination) whose credits it has changed. -/
def State.auditBuffer (s : State) (lost : List Nat) (lostHandles : Nat) (credits : List (Nat × Nat)) : State :=
  let s := lost.foldl (fun s c =>
    if (s.cell c).allocated then s
    else (s.setCell c { s.cell c with allocated := true }).put Reg.FPU_FREE (s.freeCount - 1)) s
  let s := { s with fpu := { s.fpu with
    lostHandles := s.fpu.lostHandles + lostHandles
    credits := credits.foldl (fun (l : List (Nat × Nat)) (x : Nat × Nat) =>
      if x.2 = 16 then Assoc.erase l x.1 else Assoc.set l x.1 x.2) s.fpu.credits } }
  let s := s.trimFrames
  let free := s.freeCount
  let queued := s.queuedTotal
  let transit := s.transitCells
  let diff : Int := (free + queued + transit : Nat) - (cellCount : Int)
  let wasSweeping := s.fpu.sweeping
  let cellsBad := diff != 0 && !wasSweeping
  let handlesBad := s.fpu.lostHandles != 0
  let creditsBad : List Nat := s.creditPairs.filter (fun k => s.creditBook k != 16)
  let anyBad := cellsBad || handlesBad || !creditsBad.isEmpty
  let s := ((s.put Reg.FPU_AUDIT_FREE free).put Reg.FPU_AUDIT_QUEUED queued).put Reg.FPU_AUDIT_TRANSIT transit
  let s := s.put Reg.FPU_AUDIT_TICK s.tick
  let s := (s.put Reg.FPU_AUDIT_STATUS_OK (bit (!anyBad))).put Reg.FPU_AUDIT_STATUS_BOOKS
    (bit (!creditsBad.isEmpty) * 4 + bit handlesBad * 2 + bit cellsBad)
  let s := if anyBad then
      let s := (s.put Reg.FPU_AUDIT_STATUS_FAIL 1).bump Reg.FPU_AUDIT_FAIL
      let s := s.put Reg.FPU_AUDIT_STATUS_CONSEC (min 255 (s.get Reg.FPU_AUDIT_STATUS_CONSEC + 1))
      let s := s.when cellsBad (fun s => s.auditFail 0 diff)
      let s := s.when handlesBad (fun s => s.auditFail 1 (-(s.fpu.lostHandles : Int)))
      creditsBad.foldl (fun s k => s.auditFail 2 ((s.creditBook k : Int) - 16)) s
    else s.put Reg.FPU_AUDIT_STATUS_CONSEC 0
  let again := cellsBad && s.fpu.cellDiff == some diff
  let s := { s with fpu := { s.fpu with
    cellDiff := if cellsBad then some diff else none
    sweeping := s.fpu.sweeping || again || (handlesBad && Assoc.getD s.sup.bookFails 2 0 = 1)
    creditFails := creditsBad.map (fun k => (k, Assoc.getD s.fpu.creditFails k 0 + 1)) } }
  -- during a leak sweep the cell book may be out of balance (R437)
  let s := (if wasSweeping then s else s.bookAudit 1 6 cellsBad true).bookAudit 2 6 handlesBad true
  let pairs := (creditsBad ++ s.sup.bookFixed.filterMap (fun (x : Nat × Nat) => if 8 ≤ x.1 && x.1 < 512 then some (x.1 - 8) else none)).eraseDups
  pairs.foldl (fun s k => s.bookAudit (8 + k) 6 (creditsBad.contains k) true) s

end Sys2Proof.Machine
end

