-- ==== Sys2Proof/Machine/Rewrite.lean ====
section
/-! DEFINITION. RTU: the EME and RTP headers of outbound media, the rewrite programs on copies, lengths and the MTU
(R93, R97, R103, R229 to R241). -/

namespace Sys2Proof.Machine

/-! ## Headers of media -/

/-- The EME header (R93). -/
def emeHeader (flags flow epoch idx tick k fmt rate spp : Nat) : Bytes :=
  toBE 2 (0x1000 + flags % 4096) ++ toBE 2 flow ++ toBE 1 epoch ++ toBE 1 idx ++ toBE 6 tick ++ toBE 1 k ++
    toBE 1 (fmt % 16 * 16 + rate % 16) ++ toBE 1 spp ++ [0]

/-- The RTP header of outbound tick `m` and block `b` of flow `f` (R101, R103). -/
def State.rtpHeader (s : State) (f m b : Nat) : Bytes :=
  let g := s.geometry f
  toBE 1 0x80 ++ toBE 1 (s.get (Reg.FLOW_RTP_PT f)) ++ toBE 2 (m * g.blocks + b) ++
    toBE 4 (m * g.samples + b * g.spp + s.get (Reg.FLOW_MEDIA_OFFSET f)) ++ toBE 4 (s.get (Reg.FLOW_RTP_SSRC f))

/-! ## Fields that RTU computes over a template's headers (R235) -/

/-- An offset of a program, none where absent. -/
def offsetOf (v : Nat) : Option Nat := if v = 0xFF then none else some v

/-- Length of the GRE header at an offset. -/
def greLen (l : Bytes) (o : Nat) : Nat :=
  let f := beAt l o 2
  4 + (if bitAt f 15 then 4 else 0) + (if bitAt f 13 then 4 else 0)

/-- The hash of ENTROPY over the IP header at `i` (R232). -/
def entropyPort (l : Bytes) (i : Nat) : Nat :=
  let six := ipVersion l i = 6
  let p := if six then beAt l (i + 6) 1 else beAt l (i + 9) 1
  let u := i + ipHeadLen l i
  let ports := p == 6 || p == 17
  0xC000 + Config.entropy (if six then beAt l (i + 8) 16 else beAt l (i + 12) 4) (if six then beAt l (i + 24) 16 else beAt l (i + 16) 4) p
    (if ports then beAt l u 2 else 0) (if ports then beAt l (u + 2) 2 else 0) % 16384

/-- DSCP of the IP header at an offset. -/
def dscpAt (l : Bytes) (i : Nat) : Nat := if ipVersion l i = 6 then beAt l i 2 / 64 % 64 else beAt l (i + 1) 1 / 4

/-- EtherType of the IP header at an offset. -/
def ipEtype (l : Bytes) (o : Nat) : Nat := if ipVersion l o = 6 then 0x86DD else 0x0800

/-- The computed fields but for the checksums over payload. `eme` is the EtherType of a payload that begins with no IP header: that
of EME content, where the template is a media flow's, or the frame's own; `port` an outer UDP source port under ENTROPY; `dscp` the
inner DSCP; `ident` the identification in force. -/
def State.fillHeaders (s : State) (g : Nat) (eme : Option Nat) (port dscp : Option Nat) (ident : Nat) (l : Bytes) : Bytes :=
  let stop := l.length
  let tpl := s.get (Reg.PROG_TPL_LEN g)
  let encap := s.get (Reg.PROG_ENCAP g)
  let outL3 := offsetOf (s.get (Reg.PROG_OUT_L3 g))
  let outL4 := offsetOf (s.get (Reg.PROG_OUT_L4 g))
  let inL3 := offsetOf (s.get (Reg.PROG_IN_L3 g))
  let inL4 := offsetOf (s.get (Reg.PROG_IN_L4 g))
  let set2 := fun (l : Bytes) o v => overlay l o (toBE 2 v)
  -- GRE: the protocol type, by whether an Ethernet header follows, or an IP header of the template's or of the payload
  let greEnd := match outL4 with | some o => o + greLen l o | none => tpl
  let teb := encap = 3 && greEnd < tpl && inL3 != some greEnd
  let l := if encap = 3 then
      match outL4 with
      | some o => set2 l (o + 2) (if teb then 0x6558 else if greEnd < tpl then ipEtype l greEnd else eme.getD (ipEtype l tpl))
      | none => l
    else l
  -- VXLAN: the I flag
  let l := if encap = 1 then
      match offsetOf (s.get (Reg.PROG_TUN g)) with
      | some o => overlay l o (toBE 1 (setBit (beAt l o 1) 3))
      | none => l
    else l
  -- the last Ethernet header in the template
  let inner := encap = 1 || encap = 2 || teb
  let next := if inner then inL3.getD tpl else outL3.getD tpl
  let etype := if next = tpl then eme.getD (ipEtype l next) else ipEtype l next
  let l := if s.flag (Reg.PROG_L2_REPLACE g) && 2 ≤ next then set2 l (next - 2) etype else l
  -- UDP lengths and ports
  let udp := fun (l : Bytes) (o : Option Nat) => match o with | some o => set2 l (o + 4) (stop - o) | none => l
  let l := if encap = 3 || encap = 4 then l else udp l outL4
  let l := udp l inL4
  let l := match (if encap = 3 || encap = 4 then none else port), outL4 with | some p, some o => set2 l o p | _, _ => l
  -- IP lengths, identification, DF, DSCP
  let df := s.flag (Reg.PROG_DF g)
  let ip := fun (l : Bytes) (o : Option Nat) (outer : Bool) => match o with
    | none => l
    | some o =>
      let l := match dscp with
        | some d => if outer && s.flag (Reg.PROG_DSCP_COPY g) then
            if ipVersion l o = 6 then set2 l o (beAt l o 2 / 4096 * 4096 + d * 64 + beAt l o 2 % 64)
            else overlay l (o + 1) (toBE 1 (d * 4 + beAt l (o + 1) 1 % 4))
          else l
        | none => l
      let l := if ipVersion l o = 6 then l
        else
          let l := set2 l (o + 4) (if df then 0 else ident)
          if outer then set2 l (o + 6) (setBits (beAt l (o + 6) 2) 14 1 (bit df)) else l
      setIpLen l o stop
  ip (ip l inL3 false) outL3 true

/-- The media content's own UDP header under program `g`. -/
def State.mediaL4 (s : State) (g : Nat) : Option Nat :=
  offsetOf (if s.get (Reg.PROG_ENCAP g) = 0 then s.get (Reg.PROG_OUT_L4 g) else s.get (Reg.PROG_IN_L4 g))

/-- Put one UDP checksum, or zero. -/
def putUdpSum (l : Bytes) (l3 l4 : Option Nat) (v4 : Bool) : Bytes :=
  match l3, l4 with
  | some i, some u =>
    if ipVersion l i = 6 || v4 then overlay l (u + 6) (toBE 2 (udpChecksum l i u)) else overlay l (u + 6) [0, 0]
  | _, _ => l

/-- The checksum of the template's outer UDP or GRE header: UDP over IPv6 always, over IPv4 where `v4` says so; GRE where its C
flag is set (R235). -/
def State.outerSum (s : State) (g : Nat) (v4 : Bool) (l : Bytes) : Bytes :=
  let encap := s.get (Reg.PROG_ENCAP g)
  let outL4 := offsetOf (s.get (Reg.PROG_OUT_L4 g))
  if encap = 3 then
    match outL4 with
    | some o =>
      if bitAt (beAt l o 2) 15 then
        let l := overlay l (o + 4) [0, 0]
        overlay l (o + 4) (toBE 2 (inetSum (l.drop o)))
      else l
    | none => l
  else if encap = 4 then l
  else putUdpSum l (offsetOf (s.get (Reg.PROG_OUT_L3 g))) outL4 v4

/-- The checksums over payload (R235): UDP over IPv6 always, outer UDP over IPv4 under OUTER_CSUM, EME over IPv4 never;
GRE where its C flag is set. `media` tells a media flow's own UDP header, `rtp` that it carries RTP. -/
def State.fillChecksums (s : State) (g : Nat) (media rtp : Bool) (l : Bytes) : Bytes :=
  let l := putUdpSum l (offsetOf (s.get (Reg.PROG_IN_L3 g))) (offsetOf (s.get (Reg.PROG_IN_L4 g))) false
  s.outerSum g (s.flag (Reg.PROG_OUTER_CSUM g) && !(media && s.get (Reg.PROG_ENCAP g) = 0 && !rtp)) l

/-- Some checksum that RTU completes covers the sample bytes of a media frame (R199, R236). -/
def State.checksumCovers (s : State) (g : Nat) (rtp : Bool) (l : Bytes) : Bool :=
  let encap := s.get (Reg.PROG_ENCAP g)
  let six := fun (o : Option Nat) => match o with | some i => ipVersion l i == 6 | none => false
  let outL3 := offsetOf (s.get (Reg.PROG_OUT_L3 g))
  let outL4 := offsetOf (s.get (Reg.PROG_OUT_L4 g))
  let outCsum := s.flag (Reg.PROG_OUTER_CSUM g)
  (six (offsetOf (s.get (Reg.PROG_IN_L3 g))) && (offsetOf (s.get (Reg.PROG_IN_L4 g))).isSome) ||
  (if encap = 3 then (match outL4 with | some o => bitAt (beAt l o 2) 15 | none => false)
   else if encap = 4 then false
   else outL4.isSome && outL3.isSome && (six outL3 || (outCsum && (encap != 0 || rtp))))

/-- The identification of a program's next copy: 0 with DF, else the program's counter, which advances (R235). -/
def State.takeIdent (s : State) (g : Nat) : Nat × State :=
  if s.flag (Reg.PROG_DF g) then (0, s)
  else
    let n := Assoc.getD s.rtu.ident g 0
    (n, { s with rtu := { s.rtu with ident := Assoc.set s.rtu.ident g ((n + 1) % 65536) } })

/-- Both UDP ports before EME are the EME port (R97, R235). -/
def State.emePorts (s : State) (g : Nat) (l : Bytes) : Bytes :=
  match s.mediaL4 g with
  | some u => overlay l u (toBE 2 (s.get Reg.PCU_EME_CFG_UDP_PORT) ++ toBE 2 (s.get Reg.PCU_EME_CFG_UDP_PORT))
  | none => l

/-- A media frame toward a network port before step 10, without padding: template, media header, payload. -/
def State.mediaFrame (s : State) (g ident : Nat) (rtp : Bool) (head body : Bytes) : Bytes :=
  let l := s.templateBytes g ++ head ++ body
  let l := if rtp then l else s.emePorts g l
  let inner := if s.get (Reg.PROG_ENCAP g) = 0 then none else offsetOf (s.get (Reg.PROG_IN_L3 g))
  let port := if s.flag (Reg.PROG_ENTROPY g) then inner.map (entropyPort l) else none
  s.fillHeaders g (some (s.get Reg.PCU_EME_CFG_ETYPE)) port (inner.map (dscpAt l)) ident l

/-! ## Rewriting best-effort copies (R232 to R240) -/

/-- What a decapsulation leaves (R237). -/
inductive Decap where
  | drop
  /-- a GENEVE frame with the O flag, which goes to SUP -/
  | toSup
  /-- the remaining bytes, and whether they begin with an Ethernet header -/
  | ok (l : Bytes) (eth : Bool)

/-- The IP header behind an Ethernet header. -/
def ipBehind (l : Bytes) : Option Nat :=
  let e := (let tag := fun o => beAt l o 2 == 0x8100 || beAt l o 2 == 0x88A8
            if tag 12 then (if tag 16 then 20 else 16) else 12)
  if beAt l e 2 = 0x0800 || beAt l e 2 = 0x86DD then some (e + 2) else none

/-- The end of a frame's outer IP packet, ahead of any Ethernet padding. -/
def outerEnd (l : Bytes) : Nat := match ipBehind l with | some i => datagramEnd l i | none => l.length

/-- Remove one tunnel level (R237). A GRE checksum covers the outer packet's payload, from the GRE header to the packet's end. -/
def decapsulate (l : Bytes) (w : Walk) (l2 : Bool) : Decap :=
  match w.tunnel with
  | none => .drop
  | some (kind, o, after) =>
    let frag := w.outerFrag
    let done := fun eth => if frag || (!eth && !l2) then Decap.drop else .ok (l.drop after) eth
    match kind with
    | 1 => if !bitAt (beAt l o 1) 3 || bitAt (beAt l o 1) 2 then .drop else done true
    | 2 =>
      let b1 := beAt l (o + 1) 1
      if bitAt b1 7 then .toSup
      else if beAt l o 1 / 64 != 0 || beAt l (o + 2) 2 != 0x6558 || bitAt b1 6 then .drop
      else done true
    | 3 =>
      let f := beAt l o 2
      let p := beAt l (o + 2) 2
      if bitAt f 12 || f % 8 != 0 || !(p == 0x0800 || p == 0x86DD || p == 0x6558) then .drop
      else if bitAt f 15 && onesSum ((l.take (outerEnd l)).drop o) 0 != 65535 then .drop
      else done (p == 0x6558)
    | _ => done false

/-- RFC 1624: a checksum after a 16-bit word changed from `a` to `b`. -/
def updateSum (c a b : Nat) : Nat :=
  let fold := fun n => n % 65536 + n / 65536
  65535 - fold (fold ((65535 - c) + (65535 - a) + b)) % 65536

/-- TTL or hop limit of the IP header at an offset set to a value (R239). -/
def setTtl (l : Bytes) (i v : Nat) : Bytes :=
  if ipVersion l i = 6 then overlay l (i + 7) (toBE 1 v)
  else
    let old := beAt l (i + 8) 2
    let new := v * 256 + old % 256
    overlay (overlay l (i + 8) (toBE 2 new)) (i + 10) (toBE 2 (updateSum (beAt l (i + 10) 2) old new))

def ttlOf (l : Bytes) (i : Nat) : Nat := if ipVersion l i = 6 then beAt l (i + 7) 1 else beAt l (i + 8) 1

/-- What a copy comes to at step 8. -/
inductive Rewritten where
  | badProg | decapDrop | toSup
  /-- TTL expired; whether it is trapped -/
  | expired (trap : Bool)
  /-- the bytes before step 10 and before any tag of step 11 -/
  | ok (l : Bytes)

/-- A program may be used (R233). -/
def State.progValid (s : State) (g : Nat) : Bool := g < 32768 && s.flag (Reg.PROG_VALID g)

/-- Run program `g` on a best-effort frame (R232): decapsulation, TTL, the template in place of the frame's Ethernet
header or ahead of it, and the computed fields. -/
def State.rewriteFrame (s : State) (g ident : Nat) (l : Bytes) (w : Walk) : Rewritten :=
  if !s.progValid g then .badProg
  else if g = 0 then .ok l
  else
    let l2 := s.flag (Reg.PROG_L2_REPLACE g)
    let d := if s.get (Reg.PROG_DECAP g) = 1 then decapsulate l w l2 else .ok l true
    match d with
    | .drop => .decapDrop
    | .toSup => .toSup
    | .ok l eth =>
      let ip := if eth then ipBehind l else some 0
      let op := s.get (Reg.PROG_TTL_OP g)
      let expired := match ip with | some i => op == 1 && ttlOf l i ≤ 1 | none => false
      if expired then .expired (s.flag (Reg.PROG_TTL_TRAP g))
      else
        let l := match ip with
          | some i => if op = 1 then setTtl l i (ttlOf l i - 1) else if op = 2 then setTtl l i (s.get (Reg.PROG_TTL_VAL g)) else l
          | none => l
        let own := if eth then (match ip with
            | some i => i
            | none => (let tag := fun o => beAt l o 2 == 0x8100 || beAt l o 2 == 0x88A8
                       if tag 12 then (if tag 16 then 22 else 18) else 14)) else 0
        let cut := if l2 then own else 0
        let rest := l.drop cut
        let inner := ip.map (fun i => i - cut)
        let dscp := inner.map (dscpAt rest)
        let port := if s.flag (Reg.PROG_ENTROPY g) then inner.map (entropyPort rest) else none
        let m := s.templateBytes g ++ rest
        if s.get (Reg.PROG_TPL_LEN g) = 0 then .ok m
        else
          let etKeep := if l2 && ip.isNone && eth then some (beAt l (own - 2) 2) else none
          .ok (s.fillChecksums g false false (s.fillHeaders g etKeep port dscp ident m))

/-! ## Tags of step 11 (R240, R282) -/

/-- Insert a tag after the addresses. -/
def pushTag (l : Bytes) (tpid vid pcp : Nat) : Bytes :=
  l.take 12 ++ toBE 2 tpid ++ toBE 2 (pcp % 8 * 8192 + vid % 4096) ++ l.drop 12

/-- Remove the outermost tag. -/
def popTag (l : Bytes) : Bytes :=
  if isTpid (beAt l 12 2) then l.take 12 ++ l.drop 16 else l

def State.portTpid (s : State) (p : Nat) : Nat := if s.flag (Reg.PXC_VLAN_CFG_STAG p) then 0x88A8 else 0x8100

/-- PCP of a tag the port inserts: MEDIA_PCP, or PCP_MAP of the class. -/
def State.portPcp (s : State) (p : Nat) (tc : Option Nat) : Nat :=
  match tc with
  | none => s.get (Reg.PXC_VLAN_CFG_MEDIA_PCP p)
  | some c => bits (s.get (Reg.PXC_PCP_MAP_PCP p)) (3 * c) 3

/-- A POP, ahead of the transforms: the outermost tag present after the rewrite goes (R240). -/
def State.popOut (s : State) (g : Nat) (l : Bytes) : Bytes := if s.get (Reg.PROG_VLAN_OP g) = 2 then popTag l else l

/-- The tag that PXC inserts as a copy leaves port `p` under program `g` (R240, R282). -/
def State.tagFrame (s : State) (p g : Nat) (tc : Option Nat) (l : Bytes) : Bytes :=
  match s.get (Reg.PROG_VLAN_OP g) with
  | 1 => pushTag l (s.portTpid p) (s.get (Reg.PROG_VID g)) (s.get (Reg.PROG_PCP g))
  | 2 => l
  | _ => if s.get (Reg.PXC_VLAN_CFG_EG_TAG p) = 1 then pushTag l (s.portTpid p) (s.get (Reg.PXC_VLAN_CFG_PVID p)) (s.portPcp p tc) else l

/-- Zeros up to a length. -/
def padZeros (l : Bytes) (n : Nat) : Bytes := l ++ zeros (n - l.length)

/-! ## The transforms of step 10 (R236, R258, R262) -/

/-- The template's last IP header: what precedes a media copy's payload. -/
def State.tplLastIp (s : State) (g : Nat) : Option Nat :=
  (offsetOf (s.get (Reg.PROG_IN_L3 g))).orElse (fun _ => offsetOf (s.get (Reg.PROG_OUT_L3 g)))

/-- The last IP header of a best-effort copy that program `g` made of frame `f`: the frame's own where it has stayed, or the
template's. The bytes from it on keep their distance from the end. -/
def State.lastIp (s : State) (g : Nat) (f : Frame) (l : Bytes) : Option Nat :=
  (f.walk.lastIp.bind (fun i => if s.get (Reg.PROG_TPL_LEN g) + f.bytes.length ≤ i + l.length then
    some (i + l.length - f.bytes.length) else none)).orElse
    (fun _ => s.tplLastIp g)

/-- The IP header that ESP follows: in transport mode the last, in tunnel mode the one at OUT_L3 (R258). -/
def State.espIp (s : State) (g : Nat) (transport : Bool) (last : Option Nat) : Option Nat :=
  if transport then last else offsetOf (s.get (Reg.PROG_OUT_L3 g))

/-- The outer headers of the template, ahead of an IP header at `ip` that ESP follows in transport mode, count the bytes it
added, and CKU completes their checksums over the bytes as sent (R236). -/
def State.espOuter (s : State) (g ip : Nat) (l : Bytes) : Bytes :=
  match offsetOf (s.get (Reg.PROG_OUT_L3 g)) with
  | none => l
  | some o =>
    if ip ≤ o || s.get (Reg.PROG_ENCAP g) = 0 then l
    else
      let l := setIpLen l o l.length
      let l := match offsetOf (s.get (Reg.PROG_OUT_L4 g)) with
        | some u => if s.get (Reg.PROG_ENCAP g) ≤ 2 then overlay l (u + 4) (toBE 2 (l.length - u)) else l
        | none => l
      s.outerSum g (s.flag (Reg.PROG_OUTER_CSUM g)) l

/-- ESP on a copy; none where a limit of R266 forbids it, or where the copy has no IP header to follow, which the spec does not
address (DESIGN CHOICE, log entry 93). -/
def State.espFrame (s : State) (g : Nat) (k : EspKey) (last : Option Nat) (l : Bytes) : Option Bytes :=
  match s.espIp g k.transport last with
  | none => none
  | some ip => (espSeal k l ip).map (fun l => if k.transport then s.espOuter g ip l else l)

/-- The keys and numbers that step 10 captures for a frame `l` toward port `p` under program `g`; none drops it. -/
def State.capture (s : State) (p g : Nat) (l : Bytes) : Option Seals × State :=
  let sa := s.get (Reg.PROG_ESP_SA g)
  let (e, s) := if sa = 0 then (some none, s) else (match s.espCapture sa with | (none, s) => (none, s) | (some k, s) => (some (some k), s))
  match e with
  | none => (none, s)
  | some e =>
    match s.macCapture p (beAt (s.popOut g l) 12 2) with
    | (none, s) => (none, s)
    | (some m, s) => (some ⟨e, m⟩, s)

/-- ESP, POP, padding, MACsec and the pushed tag of a copy toward port `p` under program `g`. -/
def State.sealFrame (s : State) (p g : Nat) (tc : Option Nat) (k : Seals) (last : Option Nat) (l : Bytes) : Option Bytes :=
  match (match k.esp with | none => some l | some e => s.espFrame g e last l) with
  | none => none
  | some l =>
    let l := s.popOut g l
    let grow := (s.tagFrame p g tc l).length - l.length
    let l := padZeros l (60 - grow)
    some (s.tagFrame p g tc (match k.mac with | some m => macSeal m l | none => l))

/-- Steps 10 and 11 of a copy: none where it is dropped. -/
def State.portFrame (s : State) (p g : Nat) (tc last : Option Nat) (l : Bytes) : Option Bytes × State :=
  match s.capture p g l with
  | (none, s) => (none, s)
  | (some k, s) =>
    match s.sealFrame p g tc k last l with
    | none => (none, s.bump Reg.CKU_LENGTH_ERR)
    | some l => (some l, s)

/-- A copy's final length, FCS included: rewrite, ESP, MACsec, tag (R241). -/
def State.finalLength (s : State) (p g : Nat) (last : Option Nat) (l : Bytes) : Nat :=
  let sa := s.get (Reg.PROG_ESP_SA g)
  let transport := !s.flag (Reg.SA_MODE sa)
  let n := if sa = 0 then l.length else (match s.espIp g transport last with | some ip => espLen l ip transport | none => l.length)
  let tag : Int := match s.get (Reg.PROG_VLAN_OP g) with
    | 1 => 4
    | 2 => if isTpid (beAt l 12 2) then -4 else 0
    | _ => if s.get (Reg.PXC_VLAN_CFG_EG_TAG p) = 1 then 4 else 0
  padTo60 ((n : Int) + tag).toNat + (if s.macsecOn p then 32 else 0) + 4

end Sys2Proof.Machine
end

