-- ==== Sys2Proof/Machine/Egress.lean ====
section
/-! DEFINITION. From the pipelines to the wire: the fabric scheduler (R160 to R163), policing, class queues and the shaper
stage (R207 to R220), best-effort and media egress (R85, R93, R197 to R202, R229 to R241, R276 to R280). -/

namespace Sys2Proof.Machine

/-! ## Steps 10 and 11 of any copy -/

/-- Time on the wire of a frame of `len` bytes with its FCS, in ns (R75). -/
def State.wireNs (s : State) (p len : Nat) : Nat := ceilDiv ((len + 20) * 8) (s.portRate p)

/-- A frame to transmit: its handle and header cell, its class, and its bytes. -/
def Tx.new (handle cls : Option Nat) (bytes : Bytes) (good cut : Bool) : Tx := ⟨handle, cls, bytes, good, cut, 0, 0, none, none, none⟩

/-- A port begins to send, from now. -/
def State.startTx (s : State) (p : Nat) (t : Tx) : State :=
  { s with egu := { s.egu with tx := Assoc.set s.egu.tx p { t with start := s.localNs, wire := s.wireNs p (t.bytes.length + 4) } } }

/-- A port can begin a frame. -/
def State.portIdle (s : State) (p : Nat) : Bool :=
  s.running .egu && s.running .pxc && s.portUp p && (Assoc.get? s.egu.tx p).isNone && !s.isPaused p 8 && !s.pxc.txStopped

/-! ## Policing (R220) -/

/-- The policer of a frame, if any (R218). -/
def State.policerOf (s : State) (f : Frame) : Option Nat :=
  if f.src = 33 then mapPol (s.mapEntry f.func)
  else if f.src < 35 && s.flag (Reg.EGU_SRC_POLICER_EN f.src) then some (s.get (Reg.EGU_SRC_POLICER_POLICER f.src))
  else none

/-- A frame meets policer `k` (R220): its class after, none where it is discarded, and what its policer owes it. The reserved length
is judged and debited; the part that the frame did not use returns when it ends. -/
def State.police (s : State) (k : Nat) (f : Frame) (tc : Nat) : Option Nat × Option (Nat × Bool × Nat) × State :=
  if !s.flag (Reg.SHAPER_EN k) then (some tc, none, s)
  else
    let overhead := s.get (Reg.SHAPER_OVERHEAD k)
    let want := (f.reserved + overhead) * 8000
    let rest := want - (f.bytes.length + 4 + overhead) * 8000
    let owed := fun (excess : Bool) => if rest = 0 then none else some (k, excess, rest)
    let (a, b) := s.level k
    if s.get (Reg.SHAPER_RATE k) = 0 then (none, none, s.bump Reg.EGU_POL_RED)
    else if (want : Int) ≤ a then (some tc, owed false, s.setLevel k (a - want, b))
    else if (want : Int) ≤ b then
      match s.get (Reg.SHAPER_YACT k) with
      | 0 => (some tc, owed true, (s.setLevel k (a, b - want)).bump Reg.EGU_POL_YELLOW)
      | 1 => (some (s.get (Reg.SHAPER_YCLASS k)), owed true, (s.setLevel k (a, b - want)).bump Reg.EGU_POL_YELLOW)
      | _ => (none, none, (s.setLevel k (a, b - (want - rest))).bump Reg.EGU_POL_RED)
    else (none, none, s.bump Reg.EGU_POL_RED)

/-! ## Class queues -/

/-- A frame joins its class queue. -/
def State.joinQueue (s : State) (q : Queued) : State :=
  let old := s.headOf q.port q.dest.tc
  ({ s with egu := { s.egu with queues := s.egu.queues ++ [{ q with joined := s.localNs, headSince := s.localNs }] } }).newHead
    q.port q.dest.tc old

/-- The final length of a copy, FCS included; its length before where it cannot be rewritten. -/
def State.lengthOut (s : State) (p g : Nat) (f : Frame) : Nat :=
  match s.rewriteFrame g 0 f.bytes f.walk with
  | .ok l => s.finalLength p g (s.lastIp g f l) l
  | _ => f.bytes.length + 4

/-- R26 and R241: the copy may leave cut-through. -/
def State.cutOk (s : State) (f : Frame) (d : FrameDest) (p : Nat) : Bool :=
  let g := d.rewrite
  s.mayCut f.src d &&
    decide (s.get (Reg.PXC_PORT_CFG_MTU f.src) + s.lengthOut p g f ≤ s.get (Reg.PXC_PORT_CFG_MTU p) + (f.bytes.length + 4)) &&
    !(0 < s.get (Reg.PROG_TPL_LEN g) && s.checksumCovers g true (s.templateBytes g))

/-- A copy reaches EGU (R208, R218, R220). -/
def State.joinEgress (s : State) (h p : Nat) (d : FrameDest) : State :=
  match s.frame? h with
  | none => s
  | some f =>
    let s := s.settle
    if !s.portUp p then (s.bump Reg.EGU_FLUSHED).releaseCopy h
    else
      let (tc, debt, s) := match s.policerOf f with
        | some k => s.police k f d.tc
        | none => (some d.tc, none, s)
      match tc with
      | none => s.releaseCopy h
      | some tc =>
        let d := { d with tc := tc }
        let e := s.mapEntry f.func
        if f.src = 33 && mapShape e then
          if !f.good || f.authBad then (s.payDebt debt).releaseCopy h
          else { s with egu := { s.egu with shaper := s.egu.shaper ++ [(leafOf e tc, ⟨p, h, d, s.localNs, s.localNs, false, s.localNs, debt⟩)] } }
        else
          let cut := s.cutOk f d p
          -- stored and forwarded frames that arrived bad are discarded before transmission (R265, R278)
          if (!f.good || f.authBad) && !cut then (s.payDebt debt).releaseCopy h
          else s.joinQueue ⟨p, h, d, 0, 0, cut, s.localNs, debt⟩

/-! ## Step 8 of a best-effort copy -/

/-- A frame that step 8 hands to SUP whole, as it stood ahead of the rewrite (R237, R239, R241; which bytes they are the spec does
not say: DESIGN CHOICE, log entry 92). -/
def State.trap (s : State) (f : Frame) : State := s.when (f.good && !f.authBad) (fun s => s.emit (.sup f.bytes))

/-- A GENEVE frame with the O flag goes to SUP under the cap of COPY_SUP (R122, R237). -/
def State.trapCapped (s : State) (f : Frame) : State :=
  let (yes, s) := s.capped s.pcu.supCopies (s.get Reg.PCU_COPY_LIMIT_SUP_PER_TICK)
    (fun s => { s with pcu := { s.pcu with supCopies := s.pcu.supCopies + 1 } })
  if yes then s.trap f else s

/-- Program `g` on a best-effort copy: its bytes ahead of step 10, none where it is dropped. Program 0 changes nothing, so only
another program needs RTU. -/
def State.runProgram (s : State) (g : Nat) (f : Frame) : Option Bytes × State :=
  if g != 0 && !s.running .rtu then (none, s)
  else
    let (ident, s) := if s.progValid g && g != 0 then s.takeIdent g else (0, s)
    match s.rewriteFrame g ident f.bytes f.walk with
    | .badProg => (none, s.bump Reg.RTU_BAD_PROG)
    | .decapDrop => (none, s.bump Reg.RTU_DECAP_DROP)
    | .toSup => (none, s.trapCapped f)
    | .expired trap => (none, (s.bump Reg.RTU_TTL_EXPIRED).when trap (fun s => s.trap f))
    | .ok l => (some l, s)

/-- A program writes header bytes, a template's or a changed TTL with its checksum, so that its copies take a header cell (R230,
R239). -/
def State.writesHeader (s : State) (g : Nat) : Bool := g != 0 && (s.get (Reg.PROG_TPL_LEN g) != 0 || s.get (Reg.PROG_TTL_OP g) != 0)

/-- What step 8 and ESP make of a best-effort copy toward a host ring or SUP, none where they discard it. -/
def State.hostBytes (s : State) (g : Nat) (f : Frame) : Option Bytes × State :=
  match s.runProgram g f with
  | (none, s) => (none, s)
  | (some l, s) =>
    if g = 0 || s.get (Reg.PROG_ESP_SA g) = 0 then (some l, s)
    else match s.espCapture (s.get (Reg.PROG_ESP_SA g)) with
      | (none, s) => (none, s)
      | (some k, s) => match s.espFrame g k (s.lastIp g f l) l with
        | none => (none, s.bump Reg.CKU_LENGTH_ERR)
        | some l => (some l, s)

/-- A copy reaches its destination; one for a disabled ring is discarded and counted, in standalone mode as blocked egress (R344,
R390). No frame names HEDGE or PLEACH as its destination but media, whose copies the tick hold
keeps (R163). -/
def State.deliver (s : State) (h : Nat) (d : FrameDest) : State :=
  match d.target with
  | .port p => s.joinEgress h p d
  | .ring r =>
    match s.frame? h with
    | none => s
    | some f =>
      if !f.good then s.releaseCopy h
      else if !s.flag (Reg.RING_ENABLE r) then (s.when s.attached (fun s => s.bump Reg.QE_RX_NO_BUF)).releaseCopy h
      else match s.hostBytes d.rewrite f with
        | (none, s) => s.releaseCopy h
        | (some l, s) =>
          let (c, s) := s.takeHeadIf (some h) (s.writesHeader d.rewrite)
          { s with qe := { s.qe with rxWait := s.qe.rxWait ++ [⟨r, some h, l, false, f.walk, f.src, some d.tc, f.authBad, c⟩] } }
  | .sup =>
    match s.frame? h with
    | none => s
    | some f =>
      if !f.good || f.authBad then s.releaseCopy h
      else match s.hostBytes d.rewrite f with
        | (none, s) => s.releaseCopy h
        | (some l, s) =>
          let (c, s) := s.takeHeadIf (some h) (s.writesHeader d.rewrite)
          (s.emit (.sup l)).releaseWith (some h) c
  | .sie | .hedge | .pleach => s.releaseCopy h

/-! ## The fabric scheduler (R161, R163) -/

/-- The heads of a pipeline's queue toward a destination, and of its multicast queue, of a kind: MEDIA where `k` holds. -/
def State.uniHead (s : State) (p d : Nat) (k : Bool) : Option Desc :=
  s.fpu.voq.find? (fun x => x.pipe == p && x.media == k && !x.mcast && x.dests.any (fun t => t.target.num == d))
def State.mcHead (s : State) (p : Nat) (k : Bool) : Option Desc := s.fpu.voq.find? (fun x => x.pipe == p && x.media == k && x.mcast)

def Desc.reaches (x : Desc) (d : Nat) : Bool := x.dests.any (fun t => t.target.num == d)

/-- Pipeline `p` requests destination `d` for a kind, and holds a credit for it. -/
def State.requests (s : State) (p d : Nat) (k : Bool) : Bool :=
  0 < s.creditOf p d && ((s.uniHead p d k).isSome || (match s.mcHead p k with | some x => x.reaches d | none => false))

/-- The first of a cyclic order from `start` that satisfies a predicate. -/
def firstFrom (n start : Nat) (p : Nat → Bool) : Option Nat := ((List.range n).map (fun i => (start + i) % n)).find? p

/-- A match of a cycle: a descriptor's pipeline, a destination, whether it is the multicast head, and its kind. -/
structure Match where
  pipe : Nat
  dest : Nat
  mcast : Bool
  media : Bool
deriving DecidableEq, Repr

/-- In the first iteration the destinations `ds` move their pointers past pipeline `p`. -/
def State.advGrant (s : State) (first : Bool) (p : Nat) (ds : List Nat) : State :=
  if first then { s with fpu := { s.fpu with gp := ds.foldl (fun l d => Assoc.set l d ((p + 1) % 4)) s.fpu.gp } } else s

/-- Pipeline `p`, which requested for kind `k`, accepts among the destinations `mine` that granted it. -/
def State.accept (s : State) (first : Bool) (m : List Match) (p : Nat) (k : Bool) (mine : List Nat) : List Match × State :=
  if mine.isEmpty then (m, s)
  else
    let mc := match s.mcHead p k with | some x => mine.filter x.reaches | none => []
    let uni := mine.filter (fun d => (s.uniHead p d k).isSome)
    if !mc.isEmpty && (Assoc.getD s.fpu.mcturn p 0 == 1 || uni.isEmpty) then
      (m ++ mc.map (fun d => ⟨p, d, true, k⟩),
        ({ s with fpu := { s.fpu with mcturn := Assoc.set s.fpu.mcturn p 0 } } : State).advGrant first p mc)
    else match firstFrom 37 (Assoc.getD s.fpu.ap p 0) (fun d => uni.contains d) with
      | none => (m, s)
      | some d =>
        let s := if mc.isEmpty then s else { s with fpu := { s.fpu with mcturn := Assoc.set s.fpu.mcturn p 1 } }
        let s := s.advGrant first p [d]
        let s := if first then { s with fpu := { s.fpu with ap := Assoc.set s.fpu.ap p ((d + 1) % 37) } } else s
        (m ++ [⟨p, d, false, k⟩], s)

/-- One iteration of request, grant and accept: a pipeline with a MEDIA request to a free destination requests for MEDIA alone,
and a destination grants MEDIA first. -/
def State.iterate (s : State) (first : Bool) (m : List Match) : List Match × State :=
  let freeP := fun p => !m.any (fun x => x.pipe == p)
  let freeD := fun d => !m.any (fun x => x.dest == d)
  let kind := fun p => (List.range 37).any (fun d => freeD d && s.requests p d true)
  let asks := fun p d => freeP p && s.requests p d (kind p)
  let grant := fun d =>
    if !freeD d then none
    else
      let from_ := firstFrom 4 (Assoc.getD s.fpu.gp d 0)
      if (List.range 4).any (fun p => asks p d && kind p) then from_ (fun p => asks p d && kind p) else from_ (fun p => asks p d)
  let grants := (List.range 37).filterMap (fun d => (grant d).map (fun p => (p, d)))
  (List.range 4).foldl (fun (a : List Match × State) p =>
    a.2.accept first a.1 p (kind p) ((grants.filter (fun x => x.1 == p)).map (·.2))) (m, s)

/-- One match takes a credit and moves its descriptor to the destination's input stage, or strikes the destination from a
multicast (R162, R163). -/
def State.moveMatch (s : State) (x : Match) : State :=
  match (if x.mcast then s.mcHead x.pipe x.media else s.uniHead x.pipe x.dest x.media) with
  | none => s
  | some q =>
    let (now, rest) := q.dests.partition (fun t => t.target.num == x.dest)
    let voq := if rest.isEmpty then s.fpu.voq.erase q else s.fpu.voq.map (fun y => if y = q then { q with dests := rest } else y)
    ({ s with fpu := { s.fpu with voq := voq, inputs := s.fpu.inputs ++ [(x.dest, { q with dests := now })] } } : State).takeCredit x.pipe x.dest

/-- A destination moves a descriptor from its input stage into its queue, and returns the credit: a best-effort copy goes on,
and media waits in the tick hold (R163). -/
def State.drainInput (s : State) (x : Nat × Desc) : State :=
  let s := s.giveCredit x.2.pipe x.1
  if x.2.media then s else x.2.dests.foldl (fun s t => s.deliver x.2.handle t) s

/-- The input stages empty. -/
def State.drainInputs (s : State) : State :=
  s.fpu.inputs.foldl (fun s x => s.drainInput x) { s with fpu := { s.fpu with inputs := [] } }

/-- FABRIC_TRANSFER (R161 to R163): the destinations take what the last cycle brought to their input stages, and one cycle of the
scheduler runs. When a destination empties its stage the spec does not say (DESIGN CHOICE, log entry 92). -/
def execFabricTransfer (offset : Nat) (s : State) : Host.Outcome State Fault Refusal :=
  let s := s.moment offset
  if !s.running .fpu then ok s
  else
    let (m, s) := s.drainInputs.iterate true []
    let (m, s) := s.iterate false m
    ok (m.foldl (fun s x => s.moveMatch x) s)

/-! ## The shaper stage (R219) -/

/-- The nodes of a leaf's chain that limit it, each with what it debits for a frame of `len` bytes, in millibits. -/
def State.debits (s : State) (leaf len : Nat) : List (Nat × Int) :=
  ((s.chain 3 leaf).filter (fun k => s.flag (Reg.SHAPER_EN k))).map (fun k => (k, (((len + s.get (Reg.SHAPER_OVERHEAD k)) * 8000 : Nat) : Int)))

/-- The head of a leaf's FIFO is eligible. -/
def State.eligible (s : State) (leaf : Nat) : Option (Queued × List (Nat × Int)) :=
  match s.egu.shaper.find? (fun x => x.1 == leaf) with
  | none => none
  | some (_, q) =>
    match s.frame? q.handle with
    | none => none
    | some f =>
      let ds := s.debits leaf (s.lengthOut q.port q.dest.rewrite f)
      if ds.all (fun x => s.get (Reg.SHAPER_RATE x.1) != 0 && x.2 ≤ (s.level x.1).1) then some (q, ds) else none

/-- Release up to `n` heads in round-robin order of leaf index. -/
def State.releaseHeads (s : State) : Nat → State
  | 0 => s
  | n + 1 =>
    let leaves := ((s.egu.shaper.map (fun (x : Nat × Queued) => x.1)).eraseDups).filter (fun k => (s.eligible k).isSome)
    let after := (leaves.filter (fun k => s.egu.shaperPtr ≤ k)).mergeSort
    match (after ++ leaves.mergeSort).head? with
    | none => s
    | some k =>
      match s.eligible k with
      | none => s
      | some (q, ds) =>
        let s := ds.foldl (fun s x => s.setLevel x.1 ((s.level x.1).1 - x.2, (s.level x.1).2)) s
        let s := { s with egu := { s.egu with shaper := s.egu.shaper.erase (k, q), shaperPtr := k + 1 } }
        (s.joinQueue q).releaseHeads n

/-- SHAPER_RELEASE (R219): one cycle of the tenant hierarchy. -/
def execShaperRelease (offset : Nat) (s : State) : Host.Outcome State Fault Refusal :=
  if s.running .egu then ok ((s.moment offset).settle.releaseHeads 4) else ok (s.moment offset)

/-! ## The port scheduler (R209, R210) -/

/-- The next media egress offset booked on port `p` after `now`, in ns from the start of this tick. -/
def State.nextMedia (s : State) (p now : Nat) : Option Nat :=
  let l := ((s.te.books.flatMap (·.egress)).filter (fun e => e.1 == p)).map (·.2.1)
  let after := l.map (fun o => if now < o then o else o + s.period)
  after.foldl (fun (b : Option Nat) o => match b with | none => some o | some x => some (min x o)) none

/-- Media is due on port `p`. -/
def State.mediaDue (s : State) (p : Nat) : Bool :=
  s.media.copies.any (fun c => !c.toRing && c.target == p && c.outTick == s.tick && c.offset ≤ s.offset)

/-- A frame of HGC's own: a witness frame (R302). -/
def State.isWitness (s : State) (q : Queued) : Bool :=
  match s.frame? q.handle with | some f => f.src == 36 | none => false

/-- Something `w` ns long that begins now ends before the next booked media on the port. -/
def State.fits (s : State) (p w : Nat) : Bool :=
  match s.nextMedia p s.offset with | some nm => s.offset + w ≤ nm | none => true

/-- The bytes before transmission begins, by CT_STEP; at step 6 the whole frame (R280). -/
def ctBytes (step whole : Nat) : Nat := if step < 6 then min (256 * 2 ^ step) whole else whole

/-- Enough of a copy's frame is in the buffer to begin it: what CT_STEP asks for a cut-through start, else all of it (R26, R280). -/
def State.ready (s : State) (p : Nat) (q : Queued) (cutStart : Bool) : Bool :=
  match s.frame? q.handle with
  | none => true
  | some f =>
    let all := f.bytes.length + 4
    decide ((if q.cut && cutStart then ctBytes (s.get (Reg.PXC_PORT_STATUS_CT_STEP p)) all else all) ≤ s.bytesIn f)

/-- next_frame of R209, for a cut-through start or a start of a whole frame. A fenced unit sends witness frames alone (R310). -/
def State.nextFrame (s : State) (p : Nat) (cutStart : Bool) : Option Queued :=
  let gates := s.gateList p
  let now := s.offset
  (List.range 8).reverse.findSome? (fun c =>
    match s.headOf p c with
    | none => none
    | some q =>
      let len := match s.frame? q.handle with
        | some f => if q.cut && cutStart then s.get (Reg.PXC_PORT_CFG_MTU f.src) else s.lengthOut p q.dest.rewrite f
        | none => 64
      let w := s.wireNs p len
      if !gateOpen gates c now || s.isPaused p c || !s.ready p q cutStart then none
      else if s.get (Reg.EGU_CBS_SLOPE_IDLE_SLOPE (8 * p + c)) != 0 && s.credit (8 * p + c) < 0 then none
      else if !s.fits p w then none
      else if (match gateClose gates c now s.period with | some t => decide (t < now + w) | none => false) then none
      else if s.hedgeState = 5 && !s.isWitness q then none
      else some q)

/-- A frame leaves its class queue and is discarded under a counter. -/
def State.dropHead (s : State) (q : Queued) (count : State → State) : State := (count s).dropQueued q

/-- What a copy becomes on the wire, none where steps 8 to 11 discard it; one beyond the egress MTU is trapped under MTU_TRAP
(R241). -/
def State.copyBytes (s : State) (q : Queued) (f : Frame) : Option Bytes × State :=
  let g := q.dest.rewrite
  match s.runProgram g f with
  | (none, s) => (none, s)
  | (some l, s) =>
    let last := s.lastIp g f l
    if s.get (Reg.PXC_PORT_CFG_MTU q.port) < s.finalLength q.port g last l then
      (none, (s.bump Reg.RTU_MTU_DROP).when (s.flag (Reg.PROG_MTU_TRAP g)) (fun s => s.trap f))
    else s.portFrame q.port g (some q.dest.tc) last l

/-- EGU notes a frame that begins, for telemetry (R223). -/
def State.noteBegun (s : State) (q : Queued) : State :=
  let k := 8 * q.port + q.dest.tc
  let (d, n) := Assoc.getD s.egu.begun k (0, 0)
  { s with egu := { s.egu with begun := Assoc.set s.egu.begun k (max d (s.localNs - q.joined), n + 1) } }

/-- The head `q` begins, cut-through or whole, or is discarded. -/
def State.beginFrame (s : State) (q : Queued) (cut : Bool) : State :=
  match s.frame? q.handle with
  | none => s.dropHead q id
  | some f =>
    match s.copyBytes q f with
    | (none, s) => s.dropHead q id
    | (some l, s) =>
      let old := s.headOf q.port q.dest.tc
      let (c, s) := s.takeHeadIf (some q.handle) (s.writesHeader q.dest.rewrite)
      let s := (s.noteBegun q).startTx q.port
        { Tx.new (some q.handle) (some q.dest.tc) l (f.good && !f.authBad) cut with head := c, debt := q.debt }
      ({ s with egu := { s.egu with queues := s.egu.queues.erase q } }).newHead q.port q.dest.tc old

/-! ## Media frames (steps 8 to 11) -/

/-- The EME or RTP header of packet `i` of flow `f` in outbound tick `m` (R93, R103). -/
def State.mediaHeader (s : State) (f m i flags : Nat) (rtp : Bool) : Bytes :=
  let g := s.geometry f
  if rtp then s.rtpHeader f m (i / g.groups)
  else
    let flags := flags + (if s.get (Reg.FLOW_ENC_OUT f) != 0 then 0x80 else 0) + (if i + 1 = g.packets then 0x40 else 0)
    emeHeader flags (s.get (Reg.FLOW_OUT_FLOW_ID f)) s.sendEpoch i m (g.width i) g.format (s.get (Reg.FLOW_RATE f)) g.spp

/-- The payload key of a packet of flow `f` in tick `m`: none where the cipher discards the packet, `some none` where nothing is
encrypted. -/
def State.payloadKey (s : State) (f m : Nat) (rtp replay : Bool) : Option (Option (Bytes × Nat)) × State :=
  if rtp || s.get (Reg.FLOW_ENC_OUT f) = 0 then (some none, s)
  else match s.emeCapture f s.sendEpoch m replay with
    | (none, s) => (none, s)
    | (some k, s) => (some (some k), s)

/-- The payload as it leaves. -/
def sealedBody (k : Option (Bytes × Nat)) (h body : Bytes) : Bytes := match k with | some k => emeSeal k h body | none => body

/-- CKU completes the checksums over the packet's samples: encrypted payload, or ESP in transport mode (R236). -/
def TxMedia.late (x : TxMedia) : Bool := x.key.isSome || (match x.seals.esp with | some e => e.transport | none => false)

/-- The frame of a media packet toward port `p` ahead of steps 10 and 11: RTU's checksums stand over the samples as they were
ahead of the override, and CKU's over the bytes as sent (R235, R236). -/
def State.mediaInner (s : State) (x : TxMedia) : Bytes :=
  let build := fun body => s.fillChecksums x.rewrite true x.rtp (s.mediaFrame x.rewrite x.ident x.rtp x.header body)
  let body := sealedBody x.key x.header x.body
  if x.late then build body
  else
    let at_ := s.get (Reg.PROG_TPL_LEN x.rewrite) + x.header.length
    overlay (build x.plain) at_ body

/-- The frame of a media packet on port `p`; none where a limit of R266 forbids it. -/
def State.mediaBytes (s : State) (p : Nat) (x : TxMedia) : Option Bytes :=
  s.sealFrame p x.rewrite none x.seals (s.tplLastIp x.rewrite) (s.mediaInner x)

/-- The zeroing changed bytes under a checksum that RTU had completed, so that the packet ends with a bad FCS (R199). -/
def State.spoiled (s : State) (x : TxMedia) : Bool :=
  x.body != x.plain && !x.late && s.checksumCovers x.rewrite x.rtp (s.templateBytes x.rewrite)

/-- A media packet's captures toward port `p`: identification, then the transforms; none where it is dropped. -/
def State.sealMedia (s : State) (p : Nat) (x : TxMedia) : Option TxMedia × State :=
  let (ident, s) := s.takeIdent x.rewrite
  let x := { x with ident := ident }
  match s.capture p x.rewrite (s.mediaInner x) with
  | (none, s) => (none, s)
  | (some k, s) => (some { x with seals := k }, s)

/-- The samples of a packet of a PROGRAM flow in outbound tick `m` under the override: zero while it acts or has acted in the
tick, ramped in over the first tick after it (R200, R201). -/
def State.overrideSamples (s : State) (g : Geometry) (m i : Nat) (vals : List Nat) : List Nat :=
  if s.zeroedTick m then vals.map (fun _ => 0)
  else if s.egu.ovrTick == some (m - 1) && 1 ≤ m then
    let w := g.width i
    (List.range vals.length).map (fun k =>
      scaleSample g.format (vals.getD k 0) (i / g.groups * g.spp + k / w + 1) g.samples)
  else vals

/-- When the word of sample byte `j` enters step 10, in ns after the packet's first word. `at_` is where the sample bytes lie in the
frame. -/
def wordNs (rate at_ j : Nat) : Nat := (at_ + j) / 64 * 512 / rate

/-- The first word of the frame in which the override checker meets a non-zero sample byte (R429): of the words that enter step 10
at 10 ns or more after an edge `e`, or of every word where the override acts from sample 0. -/
def checkerSees (rate at_ : Nat) (e : Option Nat) (l : Bytes) : Option Nat :=
  ((List.range l.length).find? (fun j => (match e with | some e => decide (e + 10 ≤ wordNs rate at_ j) | none => true) && l.getD j 0 != 0)).map
    (fun j => (at_ + j) / 64)

/-- The checker has met a word that the stage failed to zero: OVERRIDE_PATH (R429). -/
def State.pathFails (s : State) : State := ({ s with egu := { s.egu with pathFault := true } }).fault 7 9

/-- An edge `e` ns after the packet's first word: the bytes of words that enter 10 ns later or more are zero; a word that
enters within 10 ns of the edge is zeroed or passed whole (R198). -/
def State.zeroAfter (s : State) (rate at_ e : Nat) : Bytes → Bytes × State :=
  fun l =>
    let (v, s) := s.takeFree
    let zero := fun j =>
      let t := wordNs rate at_ j
      e + 10 ≤ t || (e ≤ t && v % 2 == 1)
    ((List.range l.length).map (fun j => if zero j then 0 else l.getD j 0), s)

/-- Where the first sample byte of a packet lies ahead of any tag. -/
def State.sampleAt (s : State) (x : TxMedia) : Nat := s.get (Reg.PROG_TPL_LEN x.rewrite) + x.header.length

/-- Override CLASS of a flow: 0 NONE, 1 PROGRAM, 2 PRIORITY. -/
def State.classOf (s : State) (f : Nat) : Nat := s.get (Reg.FLOW_CLASS f)

/-- SAFE_STOP discards the flow at step 9 (R426). -/
def State.safeStops (s : State) (f : Nat) : Bool :=
  s.flag Reg.SUP_SAFETY_STATUS_SAFE_STOP && (s.classOf f == 1 || (s.guarded f && s.classOf f == 0))

/-- Step 9 discards the packet: SAFE_STOP (R426), or an override path that has failed (R429). -/
def State.step9Stops (s : State) (f m : Nat) : Bool :=
  s.safeStops f || (s.egu.pathFault && s.classOf f == 1 && (s.zeroedTick m || s.edgeIn.isSome))

/-- A packet of PROGRAM samples `plain` that the stage should have zeroed from sample 0 on: the word at which the checker ends it,
where the stage fails (R429). -/
def State.stageFails (s : State) (f at_ : Nat) (plain : List Nat) : Option Nat :=
  checkerSees 1 at_ none (bytesOf (s.geometry f).format plain)

/-- Buffers that a media RX ring owns and that no waiting packet has taken (R387); a disabled ring takes none (R390). -/
def State.rxOwned (s : State) (r : Nat) : Nat :=
  match Assoc.get? s.qe.rings r with
  | none => 0
  | some x => if !s.flag (Reg.RING_ENABLE r) then 0 else
      (x.taken.filter (fun t => !t.done)).length - (s.qe.rxWait.filter (fun w => w.ring == r)).length

/-- The copy that leaves next toward a port or a ring: by offset, flow, index (R208). -/
def State.nextCopy (s : State) (toRing : Bool) (target : Nat) : Option Copy :=
  (s.media.copies.filter (fun c => c.toRing == toRing && c.target == target && c.outTick == s.tick && c.offset ≤ s.offset)).foldl
    (fun (b : Option Copy) c => match b with
      | none => some c
      | some x => if c.offset < x.offset || (c.offset == x.offset && (c.flow < x.flow || (c.flow == x.flow && c.next < x.next)))
          then some c else some x) none

/-- A copy's next packet has been dealt with; the copy goes when it was the last. -/
def State.advanceCopy (s : State) (c : Copy) : State :=
  let c' := { c with next := c.next + 1 }
  { s with media := { s.media with copies :=
      if (s.geometry c.flow).packets ≤ c'.next then s.media.copies.erase c else s.media.copies.map (fun x => if x = c then c' else x) } }

/-- The frame handle of a copy's packet; `handleCount`, which names no frame, where an uncorrectable error has taken it (R431). -/
def Copy.handle (c : Copy) : Option Nat := c.handles[c.next]?

/-- A media packet in transmission on port `p` meets an edge at local time `e`: the words of a PROGRAM flow that are still to
enter step 10 are zeroed (R198). -/
def State.edgeTx (s : State) (e p : Nat) : State :=
  match Assoc.get? s.egu.tx p with
  | none => s
  | some t =>
    match t.media with
    | none => s
    | some x =>
      if s.classOf x.flow != 1 || x.edged then s
      else
        let (body, s) := s.zeroAfter (s.portRate p) (s.sampleAt x) (e - t.start) x.body
        let x := { x with body := body, edged := true }
        let w := sampleBits (s.geometry x.flow).format / 8
        let s := s.retake x false p body (samplesOf w (body.length / w) body)
        let t := { t with bytes := (s.mediaBytes p x).getD t.bytes, good := t.good && !s.spoiled x, media := some x }
        { s with egu := { s.egu with tx := Assoc.set s.egu.tx p t } }

/-- A falling edge of an override pin, `e` ns from now: the local override begins, in every PROGRAM packet in transmission too
(R198). -/
def State.pinFalls (s : State) (pinB : Bool) (e : Nat) : State :=
  let was := s.flag Reg.EGU_OVR_STATUS_LOCAL
  let s := s.setPin pinB true
  if !s.running .egu || was then s
  else
    let s := s.startLocal pinB e
    (s.egu.tx.map (·.1)).foldl (fun s p => s.edgeTx s.egu.edgeAt p) s

/-- OVERRIDE_PIN_FALL (R198): a recognised low level on either pin activates the local override while EGU runs. -/
def execOverridePinFall (pinB : Bool) (offset : Nat) (s : State) : Host.Outcome State Fault Refusal :=
  ok ((s.moment offset).pinFalls pinB 0)

/-- A media packet begins on a port. `bad` ends the frame with a bad FCS, and the checker ends it ahead of the word `word` (R279,
R429). The packet takes its header cell (R230). -/
def State.transmit (s : State) (p : Nat) (h : Option Nat) (x : TxMedia) (l : Bytes) (bad : Bool) (word : Option Nat) : State :=
  let (c, s) := s.takeHeadIf h true
  let l := match word with | some w => l.take (64 * w) | none => l
  let media := if word.isSome then none else some x
  (s.bump (Reg.FLOW_TX_PKTS x.flow)).startTx p { Tx.new h none l (!(bad || word.isSome)) false with head := c, media := media }

/-- Step 11 of a media packet on a port: transmit under the lease, or discard (R34). -/
def State.step11 (s : State) (p : Nat) (h : Option Nat) (x : TxMedia) (l : Bytes) (bad : Bool) (word : Option Nat) : State :=
  if s.mayTransmit then s.transmit p h x l bad word else s.releaseMaybe h

/-- A packet in INTERNAL carriage reaches its media RX ring (R387). -/
def State.toMediaRing (s : State) (f ring : Nat) (h : Option Nat) (l : Bytes) : State :=
  let src := if s.get (Reg.FLOW_SRC_KIND f) = 0 then s.get (Reg.FLOW_SRC f) else if s.get (Reg.FLOW_SRC_KIND f) = 1 then 33 else 64
  let (cell, s) := (s.bump (Reg.FLOW_TX_PKTS f)).takeHeadIf h true
  { s with qe := { s.qe with rxWait := s.qe.rxWait ++ [⟨ring, h, l, true, Walk.empty, src, none, false, cell⟩] } }

/-- Steps 10 and 11 of a media packet that nothing stops: encrypted, digested at the entry to step 11, and out on its port or to
its host ring. `plain` and `body` are its samples ahead of the override and after it; `word` is where the override checker ends it
(R429); a packet toward a host ring, which no MAC sends, is not delivered then (DESIGN CHOICE, log entry 29). -/
def State.sendContent (s : State) (c : Copy) (plain body : Bytes) (flags : Nat) (rtp : Bool) (word : Option Nat) (edged : Bool) : State :=
  let f := c.flow
  let m := c.outTick
  let h := c.handle
  let s := s.when word.isSome State.pathFails
  match s.payloadKey f m rtp false with
  | (none, s) => s.releaseMaybe h
  | (some k, s) =>
    let hd := s.mediaHeader f m c.next flags rtp
    let l := hd ++ sealedBody k hd body
    let digest := fun (s : State) => s.when c.first (fun s => s.digestPacket f m c.heldIn false l)
    if c.toRing then
      let s := digest s
      if s.mayTransmit && word.isNone then s.toMediaRing f c.target h l else s.releaseMaybe h
    else
      match s.sealMedia c.target ⟨f, m, c.next, c.first, c.rewrite, 0, rtp, hd, plain, body, k, ⟨none, none⟩, edged⟩ with
      | (none, s) => s.releaseMaybe h
      | (some x, s) =>
        match s.mediaBytes c.target x with
        | none => (s.bump Reg.CKU_LENGTH_ERR).releaseMaybe h
        | some l => (digest s).step11 c.target h x l (s.spoiled x) word

/-- The egress of a copy is blocked (R24): its port not UP, its host gone, or its ring without an owned buffer. -/
def State.egressBlocked (s : State) (c : Copy) : Bool :=
  if c.toRing then !s.attached || s.rxOwned c.target = 0 else !(s.running .pxc && s.portUp c.target)

/-- A copy that SAFE_STOP or a blocked egress discards is counted as step 9 discards it: in a count that the spec gives no
register, and for a ring without a buffer under R387 too (R24, R426; DESIGN CHOICE, log entry 29). -/
def State.countBlocked (s : State) (c : Copy) : State :=
  let s := { s with egu := { s.egu with blocked := s.egu.blocked + 1 } }
  s.when (c.toRing && s.attached && s.egressBlocked c) (fun s =>
    (s.bump Reg.QE_RX_NO_BUF).when (s.flag (Reg.RING_ENABLE c.target)) (fun s => s.ringError c.target 8 (s.get (Reg.RING_NEXT c.target))))

/-- One media packet through steps 8 to 11. `edge` is a falling edge of an override pin (B, or A) and how many ns after the
packet's first word it comes; `stageBad` says that the override stage fails to zero the packet (R429). -/
def State.sendPacket (s : State) (c : Copy) (edge : Option (Bool × Nat)) (stageBad : Bool) : State :=
  let f := c.flow
  let m := c.outTick
  let i := c.next
  let g := s.geometry f
  let h := c.handle
  let s := s.advanceCopy c
  let gt := s.guardTick? f m
  let rows := match gt with | some t => t.samples | none => c.samples
  let plain := g.packet rows i
  let guardFlag := match gt with
    | some t => t.flagged.any (fun x => (x / 64) / g.spp == i / g.groups && x % 64 / g.perPkt == i % g.groups)
    | none => false
  let program := s.classOf f == 1
  let whole := s.zeroedTick m
  let vals := if program then s.overrideSamples g m i plain else plain
  let flags := c.flags + (if s.activeIn m then 0x800 else 0) + (if guardFlag then 0x200 else 0)
  let rtp := !c.toRing && s.get (Reg.FLOW_CARR_OUT f) == 3
  let stops := s.step9Stops f m
  let bytes := bytesOf g.format vals
  -- RTU's checksums stand over the samples that the override's zeroing meets; a ramp is no zeroing (R199)
  let before := if whole then bytesOf g.format plain else bytes
  -- a falling edge within the packet: this command's, or one that came with a packet of another port
  let e := match edge with | some (_, e) => some e | none => s.edgeIn
  let cut := if program && !c.toRing && !whole then e else none
  let first := s.get (Reg.PROG_TPL_LEN c.rewrite) + (if rtp then 12 else 16)
  let word := if !(stageBad && program) then none else if whole then s.stageFails f first plain
    else if cut.isSome then checkerSees (s.portRate c.target) first cut bytes else none
  let s := s.when stageBad (fun s => { s with egu := { s.egu with stageBad := true } })
  let (body, s) := match cut with
    | some e => s.zeroAfter (s.portRate c.target) first e bytes
    | none => (bytes, s)
  let sent := samplesOf (sampleBits g.format / 8) vals.length body
  let s := match edge with | some (b, e) => s.pinFalls b e | none => s
  let s := s.when c.first (fun s => s.tap ⟨f, m, i, body, flags⟩)
  let s := s.keepBacklog ⟨m, f, i, c.toRing, c.target, c.offset, c.rewrite, sent, flags⟩
  if stops || s.egressBlocked c then
    let s := s.when (!stops || s.safeStops f) (fun s => s.countBlocked c)
    (s.when c.first (fun s => s.digestPacket f m c.heldIn true [])).releaseMaybe h
  else
    s.takeFallbackEpoch.sendContent c before body flags rtp word (whole || e.isSome)


/-! ## Replay (R315) -/

/-- A replayed packet passes the override of step 9 again and leaves under the epoch in force, on its port or to its host ring
(R315, R429). Step 9 discards and counts one that SAFE_STOP stops (R426). -/
def State.sendReplay (s : State) (b : BacklogPkt) : State :=
  if s.step9Stops b.flow s.tick then
    s.when (s.safeStops b.flow) (fun s => { s with egu := { s.egu with blocked := s.egu.blocked + 1 } })
  else
  let g := s.geometry b.flow
  let vals := if s.classOf b.flow = 1 then s.overrideSamples g s.tick b.index b.samples else b.samples
  let whole := s.zeroedTick s.tick
  let plain := bytesOf g.format (if whole then b.samples else vals)
  let flags := b.flags % 0x800 - (if bitAt b.flags 8 then 0x100 else 0) + 0x100 + (if s.activeIn s.tick then 0x800 else 0)
  let rtp := !b.toRing && s.get (Reg.FLOW_CARR_OUT b.flow) == 3
  let first := (if b.toRing then 0 else s.get (Reg.PROG_TPL_LEN b.rewrite)) + (if rtp then 12 else 16)
  let word := if s.egu.stageBad && s.classOf b.flow = 1 && whole then s.stageFails b.flow first b.samples else none
  let s := s.when word.isSome State.pathFails
  match s.payloadKey b.flow b.tick rtp true with
  | (none, s) => s
  | (some k, s) =>
    let hd := s.mediaHeader b.flow b.tick b.index flags rtp
    let body := bytesOf g.format vals
    if b.toRing then
      if word.isNone then s.toMediaRing b.flow b.port none (hd ++ sealedBody k hd body) else s
    else
      match s.sealMedia b.port ⟨b.flow, b.tick, b.index, false, b.rewrite, 0, rtp, hd, plain, body, k, ⟨none, none⟩, whole⟩ with
      | (none, s) => s
      | (some x, s) =>
        match s.mediaBytes b.port x with
        | none => s.bump Reg.CKU_LENGTH_ERR
        | some l => s.transmit b.port none x l (s.spoiled x) word

/-- The next replayed packet of a port, or of a host ring. -/
def State.nextReplay (s : State) (toRing : Bool) (p : Nat) : Option BacklogPkt :=
  s.hgc.replayDue.find? (fun b => b.toRing == toRing && b.port == p)

/-- A packet may be replayed: the unit holds the lease, from the takeover's own tick on (R34, R55, R315). -/
def State.mayReplay (s : State) : Bool := s.running .hgc && s.holdsLease && !s.tierZero

/-- A replayed packet goes, once. -/
def State.replay (s : State) (b : BacklogPkt) : State :=
  ({ s with hgc := { s.hgc with replayDue := s.hgc.replayDue.erase b } }).sendReplay b

/-- A replayed packet toward a host ring goes where no live copy is due there, to a buffer that the ring owns (R24, R315). -/
def State.replayRing (s : State) (r : Nat) : State :=
  match s.nextReplay true r with
  | some b => if s.mayReplay && s.attached && s.rxOwned r != 0 then s.replay b else s
  | none => s

/-- MEDIA_EGRESS (R208, R229, R191, R198): at its booked offset EGU releases the next media packet toward a port, or a host RX
ring; with no live copy due there, a ring takes the next packet of a replay. `outputBad` says that a calculator finds a sample that
breaks the guard (R191). Below tier 1 no media leaves (R55). -/
def execMediaEgress (toRing : Bool) (target : Fin 131072) (offset : Nat) (edge : Option (Bool × Nat)) (outputBad stageBad : Bool) (s : State) :
    Host.Outcome State Fault Refusal :=
  let s := s.moment offset
  if !s.running .egu || s.tierZero || (!toRing && ((Assoc.get? s.egu.tx target).isSome || s.isPaused target 8 || s.pxc.txStopped)) then ok s
  else match s.nextCopy toRing target with
    | none => ok (if toRing then s.replayRing target else s)
    | some c =>
      let s := s.settle
      let s := if s.guarded c.flow && (s.guardTick? c.flow c.outTick).isNone then s.guardTick c.flow c.outTick (some c.samples) else s
      if !s.rtuServes c.flow then ok ((s.advanceCopy c).releaseMaybe c.handle)
      else if c.handle = some handleCount then
        ok ((s.when c.first (fun s => s.digestPacket c.flow c.outTick c.heldIn true [])).advanceCopy c)
      else if outputBad && s.guarded c.flow then
        ok (((s.when c.first (fun s => s.digestPacket c.flow c.outTick c.heldIn true [])).advanceCopy c).releaseMaybe c.handle |>.guardFail 8)
      else ok (s.sendPacket c edge stageBad)

/-! ## Commands of the wire -/

/-- BE_FRAME_START (R209): the port scheduler picks a frame; packets of a replay come ahead of every class. -/
def execBeFrameStart (port : Fin 32) (offset : Nat) (s : State) : Host.Outcome State Fault Refusal :=
  let s := s.moment offset
  let p := port.val
  if !s.portIdle p || s.mediaDue p then ok s
  else
    let s := s.settle
    let replay := match s.nextReplay false p with
      | some b => if s.mayReplay && s.fits p (s.wireNs p (s.frameOut b.flow p b.rewrite b.index)) then some b else none
      | none => none
    match replay with
    | some b => ok (s.replay b)
    | none =>
      match s.nextFrame p false with
      | none => ok s
      | some q =>
        -- a frame that turned out bad is discarded before its transmission begins
        match s.frame? q.handle with
        | some f => ok (if !f.good || f.authBad then s.dropHead q id else s.beginFrame q false)
        | none => ok (s.dropHead q id)

/-- CUT_THROUGH_START (R26, R278, R280): the head begins once the bytes of the port's step are in the buffer, or once it has ended;
one that is then held whole and turned out bad is discarded. -/
def execCutThroughStart (port : Fin 32) (offset : Nat) (s : State) : Host.Outcome State Fault Refusal :=
  let s := s.moment offset
  let p := port.val
  if !s.portIdle p || s.mediaDue p then ok s
  else
    let s := s.settle
    match s.nextFrame p true with
    | none => ok s
    | some q =>
      let whole := match s.frame? q.handle with
        | some f => (!f.good || f.authBad) && f.bytes.length + 4 ≤ s.bytesIn f
        | none => false
      ok (if !q.cut then s else if whole then s.dropHead q id else s.beginFrame q true)

/-- Statistics of a frame sent, by its bytes without FCS (R290). -/
def State.statTx (s : State) (p : Nat) (t : Tx) : State :=
  let s := if t.good then ((s.stat p 13 (t.bytes.length + 4)).stat p 14 1).statCast p 15 t.bytes else s.stat p 18 1
  s.when t.cls.isNone (fun s => s.stat p 17 1)

/-- PTP's number of a kind of message. -/
def PtpKind.code : PtpKind → Nat
  | .sync => 0 | .delayReq => 1 | .pdelayReq => 2 | .pdelayResp => 3 | .followUp => 8 | .delayResp => 9
  | .pdelayRespFollowUp => 10 | .announce => 11 | .signaling => 12 | .management => 13

/-- The kinds that TE sends on a port (R64, R65): the profile's delay mechanism; as a boundary clock, on every port but the one that
receives, what a master port sends while a grandmaster is selected; signalling under GPTP alone, and management never. Which of the
profile's kinds an ordinary clock and each port state send is IEEE 1588's (PRESUMED, log entry 95). -/
def State.sendsPtp (s : State) (p : Nat) (kind : PtpKind) : Bool :=
  let profile := s.get Reg.TE_CFG_PROFILE
  let slave := s.get Reg.TE_SYNC_STATE_PORT == p
  let master := s.get Reg.TE_CFG_ROLE == 1 && s.te.gm.isSome && !slave
  !otherMechanism profile kind && (match kind with
    | .sync | .followUp | .announce | .delayResp => master
    | .delayReq => slave
    | .pdelayReq | .pdelayResp | .pdelayRespFollowUp => true
    | .signaling => profile == 2
    | .management => false)

/-- A PTP event message gets its egress timestamp, which reaches TE (R288, R289). -/
def State.stampPtp (s : State) (p : Nat) (kind : PtpKind) : State :=
  match kind with
  | .sync | .delayReq | .pdelayReq | .pdelayResp =>
    let (v, s) := s.stampNow
    { s with te := { s.te with sent := Assoc.set s.te.sent (16 * p + PtpKind.code kind) v } }
  | _ => s

/-- The timestamp that a message carries: of the event message it follows, where it follows one. -/
def State.ptpTime (s : State) (p : Nat) (kind : PtpKind) : Nat :=
  match kind with
  | .followUp => Assoc.getD s.te.sent (16 * p) 0
  | .pdelayRespFollowUp => Assoc.getD s.te.sent (16 * p + 3) 0
  | _ => 0

/-- The transport of what TE sends on a port: 0 Ethernet, 1 UDP/IPv4, 2 UDP/IPv6. GPTP and AES67_MEDIA have one each; under the
default profiles the port's is declared where the spec gives no field, and it is the implementation's (R64; DESIGN CHOICE, log
entry 95). -/
def State.ptpTransport (s : State) (p : Nat) : Nat :=
  match s.get Reg.TE_CFG_PROFILE with
  | 2 => 0
  | 3 => 1
  | _ => Config.ptpTransport p % 3

/-- PTP_MESSAGE_SEND (R65, R262, R284, R288 to R290): TE transmits on an UP port that takes part and is not FAULTY, and that PAUSE
has not stopped; the unit need hold no lease (R310). On a MACsec port the frame is protected, and dropped with it. -/
def execPtpMessageSend (port : Fin 32) (kind : PtpKind) (s : State) : Host.Outcome State Fault Refusal :=
  let p := port.val
  if s.ptpPort p && !s.te.faulty.contains p && s.sendsPtp p kind && s.running .egu && !s.isPaused p 8 && !s.pxc.txStopped then
    let l := Config.ptpFrame [p, PtpKind.code kind, s.get Reg.TE_CFG_PROFILE, s.ptpTransport p, s.get Reg.TE_CFG_DOMAIN, s.ptpTime p kind]
    match s.macsecOut p l with
    | (none, s) => ok s
    | (some l, s) =>
      let s := (s.stampPtp p kind).emit (.ptp p kind l)
      ok (((s.stat p 13 (l.length + 4)).stat p 14 1).statCast p 15 l)
  else ok s

/-- TX_COMPLETE (R166): a frame whose time on the wire is over has gone, and its copy is released. -/
def execTxComplete (port : Fin 32) (offset : Nat) (s : State) : Host.Outcome State Fault Refusal :=
  let s := s.moment offset
  match Assoc.get? s.egu.tx port with
  | none => ok s
  | some t =>
    if s.localNs < t.start + t.wire then ok s
    else
      let s := s.settle
      let run := Assoc.getD s.egu.ctRun port 0
      let s := { s with egu := { s.egu with
        tx := Assoc.erase s.egu.tx port
        ctRun := if t.cut then Assoc.set s.egu.ctRun port (run + 1) else s.egu.ctRun } }
      ok ((((s.emit (.frame port t.bytes t.good)).statTx port t).payDebt t.debt).releaseWith t.handle t.head)

/-- Bytes of a frame that have left since it began, after the preamble. -/
def State.bytesSent (s : State) (p : Nat) (t : Tx) : Nat := (s.localNs - t.start) * s.portRate p / 8 - 8

/-- A frame in transmission is ended under R279. -/
def State.endFrame (s : State) (p : Nat) (t : Tx) : State :=
  let s := { s with egu := { s.egu with tx := Assoc.erase s.egu.tx p } }
  (((s.emit (.frame p (t.bytes.take (s.bytesSent p t)) false)).stat p 18 1).payDebt t.debt).releaseWith t.handle t.head

/-- CT_STEP takes a value, with its event (R280). -/
def State.setStep (s : State) (p v : Nat) : State :=
  if s.get (Reg.PXC_PORT_STATUS_CT_STEP p) = v then s
  else (s.put (Reg.PXC_PORT_STATUS_CT_STEP p) v).raise .pxc 5 [(8, p), (8, v)]

/-- TX_UNDERRUN (R279, R280). -/
def execTxUnderrun (port : Fin 32) (offset : Nat) (s : State) : Host.Outcome State Fault Refusal :=
  let s := s.moment offset
  let p := port.val
  match Assoc.get? s.egu.tx p with
  | none => ok s
  | some t =>
    let s := (s.settle.endFrame p t).stat p 19 1
    let s := { s with egu := { s.egu with ctRun := Assoc.erase s.egu.ctRun p } }
    ok (s.oncePerTick (0x20500 + p) (fun s => s.setStep p (min 6 (s.get (Reg.PXC_PORT_STATUS_CT_STEP p) + 1))))

/-- CT_STEP_DECAY (R280): after 65,536 cut-through frames without an underrun. -/
def execCtStepDecay (port : Fin 32) (s : State) : Host.Outcome State Fault Refusal :=
  let p := port.val
  if Assoc.getD s.egu.ctRun p 0 < 65536 then ok s
  else
    let step := s.get (Reg.PXC_PORT_STATUS_CT_STEP p)
    let s := { s with egu := { s.egu with ctRun := Assoc.erase s.egu.ctRun p } }
    ok (s.setStep p (max (min step (s.get (Reg.PXC_PORT_CFG_CT_BASE p))) (step - 1)))

/-- HEAD_OF_QUEUE_TIMEOUT (R210): a frame that has stood at the head of its class queue for T is discarded. -/
def execHeadOfQueueTimeout (port : Fin 32) (cls : Fin 8) (offset : Nat) (s : State) : Host.Outcome State Fault Refusal :=
  let s := s.moment offset
  match s.headOf port cls with
  | none => ok s
  | some q => if s.localNs < q.headSince + s.period then ok s else ok (s.settle.dropHead q (fun s => s.bump Reg.EGU_GATE_DROP))

end Sys2Proof.Machine
end

