-- ==== Sys2Proof/Machine/Keys.lean ====
section
/-! DEFINITION. CKU's key commands, slot switches and erasures (R248 to R253), and the security-association tables (R259,
R262, R270). -/

namespace Sys2Proof.Machine

/-- Bytes `n` of the key buffer: byte 4i + j in bits [8j+7:8j] of word i. -/
def State.keyBuf (s : State) (n : Nat) : Bytes := ((s.rdWords 0x08001100 24).flatMap (toLE 4)).take n

/-- A plaintext that R248 accepts. -/
def blobOk (p : Bytes) : Bool :=
  let usage := beAt p 0 1
  let keylen := beAt p 1 1
  let salt := sliceB p 4 12
  let unused := match usage with
    | 1 => salt.drop 2
    | 2 => salt.drop 4
    | 3 => []
    | _ => salt
  1 ≤ usage && usage ≤ 4 && keylen ≤ 2 && ((usage == 4) == (keylen == 2))
    && p.length == (match keylen with | 0 => 32 | 1 => 48 | _ => 80)
    && beAt p 2 2 == 0 && unused.all (· == 0)
    && (usage != 4 || sliceB p 16 32 != sliceB p 48 32)

/-- Security associations that are VALID. -/
def State.validSas (s : State) : List Nat :=
  (s.regs.filter (fun p => 0x08400000 ≤ p.1 && p.1 < 0x08480000 && p.1 % 32 == 0 && bitAt p.2.toNat 31)).map
    (fun p => (p.1 - 0x08400000) / 32)

/-- A VALID SA names the slot (R250). -/
def State.slotInUse (s : State) (slot : Nat) : Bool := s.validSas.any (fun k => s.get (Reg.SA_KEY k) == slot)

/-- An erase is pending or runs (R252). -/
def State.erasing (s : State) (slot : Nat) : Bool :=
  s.get (Reg.SLOT_STATE slot) == 3 || (match s.keySlot slot with | some k => k.eraseTick.isSome | none => false)

/-- A rewrite is pending, or the tick of the last switch has not passed (R251). -/
def State.switching (s : State) (slot : Nat) : Bool :=
  s.get (Reg.SLOT_STATE slot) == 2 ||
    (match s.keySlot slot with | some k => !(k.half (!k.second)).isEmpty && s.tick < s.get (Reg.SLOT_SWITCH_TICK slot) + 1 | none => false)

/-- The effective tick that a command requests: the earliest for 0 (R251). -/
def State.keyTick (s : State) : Nat :=
  if s.get Reg.CKU_KEY_TICK_TICK = 0 then s.tick + 2 else s.get Reg.CKU_KEY_TICK_TICK

/-- The unwrapped key blob of a command. -/
def State.keyPlain (s : State) (kek : Nat) (blob : Bytes) : Option Bytes :=
  (Assoc.get? s.cku.keks kek).bind (fun k => Config.keyUnwrap k blob)

/-- The end of a command: RESULT, the buffer zeroed, KEY_DONE (R250, R268). -/
def State.keyDone (s : State) (op slot result : Nat) : State :=
  ((s.put Reg.CKU_KEY_STATUS_RESULT result).wrWords 0x08001100 (List.replicate 24 0)).raise .cku 1
    [(8, op), (8, result), (16, slot)]

def State.setSlot (s : State) (slot : Nat) (k : KeySlot) : State :=
  { s with cku := { s.cku with slots := Assoc.set s.cku.slots slot k } }

/-- A load takes effect: half 0, GEN 0, LOADED at once, and a nonce guard that starts afresh (R250, R252, R256). -/
def State.loadSlot (s : State) (slot kek func : Nat) (plain blob : Bytes) : State :=
  let s := (s.setSlot slot ⟨plain, [], false, none, none, blob, [], 0, 0⟩).put (Reg.SLOT_SWITCH_TICK slot) 0
  let s := { s with cku := { s.cku with guards := Assoc.erase s.cku.guards slot } }
  ((((((s.put (Reg.SLOT_STATE slot) 1).put (Reg.SLOT_USAGE slot) (beAt plain 0 1)).put (Reg.SLOT_KEYLEN slot)
    (beAt plain 1 1)).put (Reg.SLOT_GEN slot) 0).put (Reg.SLOT_KEK slot) kek).put (Reg.SLOT_FUNC slot) func).poolTake func 2 1

/-- A rewrite is scheduled: the key into the half not in force, PENDING (R250, R251). -/
def State.scheduleRewrite (s : State) (slot kek t : Nat) (plain blob : Bytes) : State :=
  match s.keySlot slot with
  | none => s
  | some k =>
    let k := if k.second then { k with half0 := plain } else { k with half1 := plain }
    ((s.setSlot slot { k with rewriteTick := some t, newBlob := blob, newKek := kek }).put (Reg.SLOT_STATE slot) 2).put
      (Reg.SLOT_SWITCH_TICK slot) t

/-- An erase is scheduled, and a pending rewrite is discarded (R252): SWITCH_TICK is the last switch's again (R249). -/
def State.scheduleErase (s : State) (slot t : Nat) : State :=
  match s.keySlot slot with
  | none => s
  | some k =>
    let k := if k.rewriteTick.isNone then k else if k.second then { k with half0 := [] } else { k with half1 := [] }
    (s.setSlot slot { k with rewriteTick := none, newBlob := [], eraseTick := some t }).when k.rewriteTick.isSome
      (fun s => s.put (Reg.SLOT_SWITCH_TICK slot) k.lastTick)

/-- The result of a LOAD under the checks of R250. -/
def State.loadResult (s : State) (slot kek func len : Nat) (blob : Bytes) : Nat :=
  if len != 40 && len != 56 && len != 88 then 3
  else if !(Assoc.get? s.cku.keks kek).isSome then 2
  else if s.get (Reg.SLOT_STATE slot) != 0 then 4
  else if !s.poolRoom func 2 1 then 9
  else match s.keyPlain kek blob with
    | none => 1
    | some p => if blobOk p && p.length + 8 == len then 0 else 3

/-- The result of a REWRITE under the checks of R250. -/
def State.rewriteResult (s : State) (slot kek len : Nat) (blob : Bytes) : Nat :=
  let usage := s.get (Reg.SLOT_USAGE slot)
  if len != 40 && len != 56 && len != 88 then 3
  else if !(Assoc.get? s.cku.keks kek).isSome then 2
  else if s.get (Reg.SLOT_STATE slot) = 0 then 5
  else if s.erasing slot || s.switching slot then 6
  else if s.keyTick < s.tick + 2 then 10
  else if (usage == 2 || usage == 3) && s.slotInUse slot then 7
  else match s.keyPlain kek blob with
    | none => 1
    | some p =>
      if !(blobOk p && p.length + 8 == len) then 3
      else if beAt p 0 1 != usage || beAt p 1 1 != s.get (Reg.SLOT_KEYLEN slot) then 8
      else 0

/-- The result of an ERASE. -/
def State.eraseResult (s : State) (slot : Nat) : Nat :=
  if s.get (Reg.SLOT_STATE slot) = 0 then 5
  else if s.erasing slot then 6
  else if s.keyTick < s.tick + 2 then 10
  else 0

/-- CKU_KEY_CMD, or the write that starts a command: only a manager issues one (R250), and only the active of a pair
(R318). -/
def State.keyCommand (s : State) (r : Requester) (run : State → State) : State :=
  if s.mayWrite r Reg.CKU_KEY_CMD_OP.key && s.running .cku then s.localOnly run else s

/-- A LOAD of CKU_KEY_CMD. -/
def State.keyLoad (s : State) (r : Requester) (slot : Nat) : State :=
  s.keyCommand r (fun s =>
    let len := s.get Reg.CKU_KEY_ARG_LEN
    let kek := s.get Reg.CKU_KEY_ARG_KEK
    let func := s.get Reg.CKU_KEY_ARG_FUNC
    let blob := s.keyBuf len
    let res := s.loadResult slot kek func len blob
    let s := if res != 0 then s else
      match s.keyPlain kek blob with
      | none => s
      | some p => ((s.trackPulse.loadSlot slot kek func p blob).put Reg.CKU_KEY_TICK_TICK s.tick).carry 0
          (.key false slot (s.rd Reg.CKU_KEY_ARG_LEN.key) blob)
    s.keyDone 1 slot res)

/-- KEY_LOAD (R250). -/
def execKeyLoad (r : Requester) (slot : Fin 65536) (s : State) : Host.Outcome State Fault Refusal :=
  ok (s.keyLoad r slot.val)

/-- A REWRITE of CKU_KEY_CMD. -/
def State.keyRewrite (s : State) (r : Requester) (slot : Nat) : State :=
  s.keyCommand r (fun s =>
    let len := s.get Reg.CKU_KEY_ARG_LEN
    let kek := s.get Reg.CKU_KEY_ARG_KEK
    let blob := s.keyBuf len
    let res := s.rewriteResult slot kek len blob
    let t := s.keyTick
    let s := if res != 0 then s else
      match s.keyPlain kek blob with
      | none => s
      | some p => ((s.trackPulse.scheduleRewrite slot kek t p blob).put Reg.CKU_KEY_TICK_TICK t).carry t
          (.key true slot (s.rd Reg.CKU_KEY_ARG_LEN.key) blob)
    s.keyDone 2 slot res)

/-- KEY_REWRITE (R250, R251). -/
def execKeyRewrite (r : Requester) (slot : Fin 65536) (s : State) : Host.Outcome State Fault Refusal :=
  ok (s.keyRewrite r slot.val)

/-- An ERASE of CKU_KEY_CMD. -/
def State.keyErase (s : State) (r : Requester) (slot : Nat) : State :=
  s.keyCommand r (fun s =>
    let res := s.eraseResult slot
    let t := s.keyTick
    let s := if res != 0 then s else
      ((s.scheduleErase slot t).put Reg.CKU_KEY_TICK_TICK t).carry t (.keyErase slot)
    s.keyDone 3 slot res)

/-- KEY_ERASE (R252). -/
def execKeyErase (r : Requester) (slot : Fin 65536) (s : State) : Host.Outcome State Fault Refusal :=
  ok (s.keyErase r slot.val)

/-- The switch of a pending rewrite whose tick has come (R251, R256). -/
def State.keySwitch (s : State) (slot : Nat) : State :=
  match s.keySlot slot with
  | none => s
  | some k =>
    match k.rewriteTick with
    | none => s
    | some t =>
      if s.tick < t then s
      else
        let gen := (s.get (Reg.SLOT_GEN slot) + 1) % 256
        let s := s.setSlot slot { k with second := !k.second, rewriteTick := none, blob := k.newBlob, newBlob := [], lastTick := t }
        let s := { s with cku := { s.cku with guards := Assoc.erase s.cku.guards slot } }
        let s := (((s.put (Reg.SLOT_GEN slot) gen).put (Reg.SLOT_SWITCH_TICK slot) t).put (Reg.SLOT_STATE slot) 1).put
          (Reg.SLOT_KEK slot) k.newKek
        s.raise .cku 2 [(16, slot), (8, gen), (48, t)]

/-- KEY_SWITCHED (R251): at the start of the switch tick. -/
def execKeySwitched (slot : Fin 65536) (s : State) : Host.Outcome State Fault Refusal := ok (s.keySwitch slot.val)

/-- The start of the erase tick (R252). -/
def State.eraseStart (s : State) (slot : Nat) : State :=
  match s.keySlot slot with
  | none => s
  | some k =>
    match k.eraseTick with
    | none => s
    | some t => if s.tick < t then s else s.put (Reg.SLOT_STATE slot) 3

/-- ERASE_START (R252): ERASING, and no new operation captures the slot. -/
def execEraseStart (slot : Fin 65536) (s : State) : Host.Outcome State Fault Refusal := ok (s.eraseStart slot.val)

/-- KEY_ERASED (R252): the tracker holds no operation of the slot any more; both halves and the blob are zeroed, and the
slot returns to its pool. -/
def execKeyErased (slot : Fin 65536) (s : State) : Host.Outcome State Fault Refusal :=
  if s.get (Reg.SLOT_STATE slot.val) != 3 then ok s
  else
    let s := { s with cku := { s.cku with slots := Assoc.erase s.cku.slots slot.val } }
    let s := ((s.put (Reg.SLOT_STATE slot.val) 0).put (Reg.SLOT_SWITCH_TICK slot.val) 0).poolGive (s.get (Reg.SLOT_FUNC slot.val)) 2 1
    ok (s.raise .cku 3 [])

/-! ## Security associations -/

/-- The USAGE that a KIND asks for (R259). -/
def kindUsage (k : Nat) : Nat := if k < 2 then 2 else 3

/-- A write that sets VALID is refused (R259), given word 0 as written. -/
def State.saRefused (s : State) (sa w : Nat) : Bool :=
  let kind := bits w 28 3
  let slot := bits w 0 16
  3 < kind || !s.slotLive slot || s.get (Reg.SLOT_USAGE slot) != kindUsage kind
    || (kind == 1 && s.get (Reg.SA_SPI_SSCI sa) % 2 ^ 14 != sa)
    || ((kind == 0 || kind == 2) && s.get (Reg.SA_PN sa) == 0)

/-- A write of word `word` of SA `sa`: words change only while VALID is 0; with VALID 1 only VALID can be cleared. An SA
that becomes VALID starts a new replay window and may raise its notices again. -/
def State.writeSa (s : State) (r : Requester) (sa word v : Nat) : State :=
  let k := 0x08400000 + 32 * sa + 4 * word
  if !s.mayWrite r k then s
  else if s.flag (Reg.SA_VALID sa) then
    if word = 0 && !bitAt v 31 then s.put (Reg.SA_VALID sa) 0 else s
  else if word = 0 && bitAt v 31 then
    if s.saRefused sa v then s.bump Reg.CKU_SA_REFUSED
    else
      { s.writeWord r k v with cku := { s.cku with seen := Assoc.erase s.cku.seen sa, noted := s.cku.noted.filter (·.1 != sa) } }
  else if word = 0 && 3 < bits v 28 3 then s
  else s.writeWord r k v

/-- SA_WRITE (R259). -/
def execSaWrite (r : Requester) (sa : Fin 16384) (word : Fin 8) (v : Word) (s : State) : Host.Outcome State Fault Refusal :=
  ok (s.writeSa r sa.val word.val v.toNat)

/-- A write of word `w` of the RX SC window, eight words to an entry (R270): an entry changes only while VALID is 0. -/
def State.writeRxSc (s : State) (r : Requester) (w v : Nat) : State :=
  let k := 0x08480000 + 4 * w
  let head := 0x08480000 + 32 * (w / 8)
  if !s.mayWrite r k then s
  else if bitAt (s.rd head) 31 then if k = head && !bitAt v 31 then s.wr head (clearBit (s.rd head) 31) else s
  else match w % 8 with
    | 0 => s.wr k (bits v 31 1 * 2 ^ 31)
    | 2 | 3 => s.wr k v
    | 4 | 5 => s.wr k (bits v 0 14 + bits v 16 14 * 2 ^ 16)
    | _ => s

/-- RX_SC_WRITE (R270): port, entry and word. -/
def execRxScWrite (r : Requester) (port : Fin 32) (entry : Fin 16) (word : Fin 8) (v : Word) (s : State) :
    Host.Outcome State Fault Refusal :=
  ok (s.writeRxSc r (128 * port.val + 8 * entry.val + word.val) v.toNat)

/-- TX_SA_WRITE (R262): CKU_MSEC_PORT, whose EN and UNCTRL are sealed. Frames from the next one on take the new TX_SA. -/
def execTxSaWrite (r : Requester) (port : Fin 32) (v : Word) (s : State) : Host.Outcome State Fault Refusal :=
  if s.mayWrite r (Reg.CKU_MSEC_PORT_TX_SA port.val).key then
    ok (s.writeWord r (Reg.CKU_MSEC_PORT_TX_SA port.val).key v.toNat)
  else ok s

end Sys2Proof.Machine
end

