-- ==== Sys2Proof/Machine/Programs.lean ====
section
/-! DEFINITION. The rewrite programs' commands (R232 to R234, R243). -/

namespace Sys2Proof.Machine

/-- Word `i` of RTU_PROG_BUF. -/
def State.progBuf (s : State) (i : Nat) : Nat := s.rd (0x05001100 + 4 * i)

/-- An offset of a program is absent or lies below TPL_LEN (R234). -/
def offsetOk (tpl o : Nat) : Bool := o == 0xFF || o < tpl

/-- The buffer holds a program without a refused value (R232, R234). -/
def State.progOk (s : State) : Bool :=
  let w0 := s.progBuf 0
  let w1 := s.progBuf 1
  let w2 := s.progBuf 2
  let w3 := s.progBuf 3
  let tpl := bits w0 16 8
  bits w0 28 3 ≤ 4 && bits w0 26 2 ≤ 1 && bits w0 14 2 ≤ 2 && bits w1 30 2 ≤ 2 && tpl ≤ 224
    && [bits w2 24 8, bits w2 16 8, bits w2 8 8, bits w2 0 8, bits w3 24 8].all (offsetOk tpl)
    && (bits w0 28 3 == 0 || bitAt w0 25)

/-- The reserved bits of the control words read 0 (R9, R232). -/
def progMask (i v : Nat) : Nat :=
  match i with
  | 0 => v - bits v 24 1 * 2 ^ 24 - v % 2 ^ 8
  | 1 => bits v 27 5 * 2 ^ 27 + bits v 12 12 * 2 ^ 12 + v % 2 ^ 8
  | 3 => bits v 24 8 * 2 ^ 24 + v % 2 ^ 16
  | 4 | 5 | 6 | 7 => 0
  | _ => v

/-- The first result of R243 that applies to a write of program `k`. -/
def State.progResult (s : State) (k : Nat) : Nat :=
  if k = 0 then 1 else if s.get (Reg.PROG_MEDIA_REFS k) != 0 then 2 else if !s.progOk then 3 else 0

/-- PROG_WRITE (R234): program `index` is replaced whole from the buffer, or the write is refused; an accepted write is
carried to the standby (R318). -/
def execProgWrite (r : Requester) (index : Fin 32768) (s : State) : Host.Outcome State Fault Refusal :=
  if !s.mayWrite r Reg.RTU_PROG_CMD_OP.key then ok s
  else ok (s.localOnly (fun s =>
      let code := s.progResult index
      let s := s.put Reg.RTU_PROG_STATUS_RESULT code
      if code = 0 then
        let base := 0x05400000 + 256 * index.val
        let l := (List.range 64).map (fun i => progMask i (s.progBuf i))
        (s.wrWords base l).carry 0 (.words ((List.range 64).map (fun i => (base + 4 * i, BitVec.ofNat 32 (l.getD i 0)))))
      else s.when (code = 2) (fun s => s.bump Reg.RTU_PROG_LOCKED)))

/-- PROG_READ (R234): program `index` is copied into RTU_PROG_BUF. -/
def execProgRead (r : Requester) (index : Fin 32768) (s : State) : Host.Outcome State Fault Refusal :=
  if !s.mayWrite r Reg.RTU_PROG_CMD_OP.key then ok s
  else
    ok ((s.wrWords 0x05001100 (s.rdWords (0x05400000 + 256 * index.val) 64)).put Reg.RTU_PROG_STATUS_RESULT 0)

end Sys2Proof.Machine
end

