-- ==== Sys2Proof/Machine/Witness.lean ====
section
/-! DEFINITION. The witness protocol, the lease, fencing and takeover (R299 to R315, R329). -/

namespace Sys2Proof.Machine

/-! ## Messages (R299, R300) -/

/-- A witness message. -/
structure WitMsg where
  type : Nat
  pair : Nat
  sender : Nat
  target : Nat
  epoch : Nat
  flags : Nat
  tick : Nat
  refTick : Nat
  seq : Nat
  refSeq : Nat
  leaseL : Nat
deriving DecidableEq, Repr

/-- Bytes 0 to 31. -/
def WitMsg.head (m : WitMsg) : Bytes :=
  toBE 1 1 ++ toBE 1 m.type ++ toBE 2 m.pair ++ toBE 1 m.sender ++ toBE 1 m.target ++ toBE 1 m.epoch ++ toBE 1 m.flags ++
    toBE 6 m.tick ++ toBE 6 m.refTick ++ toBE 4 m.seq ++ toBE 4 m.refSeq ++ toBE 1 m.leaseL ++ zeros 3

/-- The fields of a received message, whatever its VERSION. -/
def witParse (l : Bytes) : WitMsg :=
  ⟨beAt l 1 1, beAt l 2 2, beAt l 4 1, beAt l 5 1, beAt l 6 1, beAt l 7 1, beAt l 8 6, beAt l 14 6, beAt l 20 4, beAt l 24 4,
    beAt l 28 1⟩

/-- The key of a pair: HKDF of the KEK in the declared slot; none where that slot holds no key, or CKU, which keeps it, is
not in RUN (R300). -/
def State.witKey (s : State) (pair : Nat) : Option Bytes :=
  if !s.running .cku then none
  else (Assoc.get? s.cku.keks (s.get Reg.HGC_TIMING_WIT_KEK)).map (fun k =>
    Config.hkdf k ([0x43, 0x4B, 0x39, 0x36, 0x32, 0x30, 0x2D, 0x57, 0x49, 0x54] ++ toBE 2 pair))

/-- The TAG: AES-GMAC over bytes 0 to 31 under the nonce of R300. -/
def witTag (key : Bytes) (m : WitMsg) (head : Bytes) : Bytes :=
  Config.gcmTag key (toBE 2 m.pair ++ toBE 1 m.sender ++ toBE 1 m.target ++ toBE 1 m.type ++ toBE 6 m.tick ++ [0]) head []

/-- The party of this unit: 0 the witness. -/
def State.party (s : State) : Nat := if s.pairRole then s.get Reg.HGC_CFG_PARTY else 0

/-- R300: a message of a type to a target may go once in a tick, and only above the mark: the TICK must be above
HGC_WIT_HWM, or be the tick whose messages set it. -/
def State.witMaySend (s : State) (pair type target : Nat) : Bool :=
  s.get Reg.HGC_WIT_HWM < s.tick ||
    (s.get Reg.HGC_WIT_HWM == s.tick && !s.hgc.sentNow.isEmpty && !s.hgc.sentNow.contains (pair, type, target))

/-- A frame of HGC's own joins class 7 of a port, exempt from every policer (R302). -/
def State.ownFrame (s : State) (p : Nat) (l : Bytes) : State :=
  if !(s.running .fpu && s.portUp p) then s
  else match s.admitHead [(p, 7)] 7 1 [] with
    | (none, s) => s
    | (some h, s) =>
      let s := s.storeFrame h ⟨36, 0, 0, l, true, false, false, Walk.empty, [], 1, [], 0, [], [], .none, []⟩
      s.joinQueue ⟨p, h, ⟨.port p, 7, 0⟩, 0, 0, false, s.localNs, none⟩

/-- The frame form of a message, from the unit's own identity. -/
def State.witFrame (s : State) (dst : Nat) (l : Bytes) : Bytes := toBE 6 dst ++ toBE 6 s.sup.otpMac ++ toBE 2 0x88B7 ++ l

/-- The enabled paths: port and destination (R302). -/
def State.witPaths (s : State) : List (Nat × Nat) :=
  (List.range 4).filterMap (fun i =>
    if s.flag (Reg.HGC_WIT_PATH_EN i) then some (s.get (Reg.HGC_WIT_PATH_PORT i), s.get (Reg.HGC_WIT_PATH_DST_MAC i)) else none)

/-- What the owner of a slot drives on WIT_DAT (R303): a start bit of 0, then the message, most significant bit first, then its
CRC-32C, whose bit order is the message's (DEDUCED, log entry 104). -/
def busBits (l : Bytes) : List Bool :=
  false :: (l ++ toBE 4 (crc32c l)).flatMap (fun b => (List.range 8).reverse.map (fun i => b.getLsbD i))

/-- The slot of a sender's message to a target (R303): 0 PRIMARY, 1 SECONDARY, 2 and 3 the witness, to PRIMARY and to SECONDARY. -/
def busSlot (sender target : Nat) : Nat := if sender = 0 then target + 1 else sender - 1

/-- Send a message on the pins, on every enabled path, and on the path `back` of the request that it answers. A witness drives the
pins for one pair, that of HGC_CFG.PAIR_ID (R303; which pair is DEDUCED, log entry 104). -/
def State.witSend (s : State) (pair type target epoch flags refTick refSeq : Nat) (back : Option (Nat × Nat)) : State :=
  match s.witKey pair with
  | none => s
  | some key =>
    if !s.witMaySend pair type target then s
    else
      let seq := (s.hgc.seq + 1) % 2 ^ 32
      let m : WitMsg := ⟨type, pair, s.party, target, epoch, flags, s.tick, refTick, seq, refSeq, s.get Reg.HGC_CFG_LEASE_L⟩
      let l := m.head ++ (witTag key m m.head).take 16
      let old := if s.get Reg.HGC_WIT_HWM = s.tick then s.hgc.sentNow else []
      let s := { s.put Reg.HGC_WIT_HWM s.tick with hgc := { s.hgc with seq := seq, sentNow := (pair, type, target) :: old } }
      let s := s.bump Reg.HGC_WIT_SENT
      let pins := s.flag Reg.HGC_CFG_PINS_EN && !s.hgc.clkDown && pair == s.get Reg.HGC_CFG_PAIR_ID
      let s := s.when pins (fun s => s.emit (.witness (busSlot s.party target) (busBits l)))
      let paths := (s.witPaths ++ back.toList).eraseDups
      paths.foldl (fun s x => s.ownFrame x.1 (s.witFrame x.2 l)) s

/-! ## Reception (R303, R304) -/

def State.witBad (s : State) : State := s.bump Reg.HGC_WIT_BAD

/-- The index of a pair in the witness window (R330). -/
def State.witPair (s : State) (pair : Nat) : Option Nat := findBelow 16 (fun k => bits (s.rd (0x09008000 + 16 * k)) 0 16 == pair)

/-- The checks of R304 but the one on SEQ: the message, or none where it is discarded and counted. -/
def State.witCheck (s : State) (via : WitVia) (l : Bytes) : Option WitMsg × State :=
  let m := witParse l
  let crcOk := match via with | .pins _ c => c.toNat == crc32c l | .frame _ => true
  let known := if s.pairRole then m.pair == s.get Reg.HGC_CFG_PAIR_ID else (s.witPair m.pair).isSome
  let near := m.tick ≤ s.tick + 1 && s.tick ≤ m.tick + 1
  match s.witKey m.pair with
  | none => (none, s.witBad)
  | some key =>
    if crcOk && l.length == 48 && beAt l 0 1 == 1 && known && near && 1 ≤ m.type && m.type ≤ 5
        && l.drop 32 == (witTag key m (l.take 32)).take 16 then (some m, s)
    else (none, s.witBad)

/-- The SEQ is newer than the last accepted from its sender, and is accepted (R304, R99). -/
def State.witFresh (s : State) (m : WitMsg) : Option State :=
  let k := 4 * m.pair + m.sender % 4
  let new := match Assoc.get? s.hgc.accepted k with
    | some q => serialNewer 32 m.seq q
    | none => true
  if new then some { s with hgc := { s.hgc with accepted := Assoc.set s.hgc.accepted k m.seq } } else none

/-- The unit takes witness messages: HGC runs in role PAIR or WITNESS, and the pins are in use where one comes by them. -/
def State.witListens (s : State) (via : WitVia) : Bool :=
  s.running .hgc && (s.pairRole || s.hedgeState == 7) &&
    (match via with | .pins _ _ => s.flag Reg.HGC_CFG_PINS_EN && !s.hgc.clkDown | .frame p => s.portUp p)

/-- Take a message of type `type` addressed to this unit; `run` gives its effect. A message of another party's is noticed
through `other` alone. -/
def State.witTake (s : State) (via : WitVia) (l : Bytes) (type : Nat) (other : WitMsg → State → State) (run : WitMsg → State → State) :
    State :=
  if !s.witListens via then s
  else match s.witCheck via l with
    | (none, s) => s
    | (some m, s) =>
      if m.type != type then s
      else if m.target != s.party then other m s
      else match s.witFresh m with
        | none => s.witBad
        | some s => run m s

/-! ## Fencing (R309 to R311) -/

/-- Every media frame in transmission ends under R279. -/
def State.endMedia (s : State) : State :=
  let s := s.settle
  s.egu.tx.foldl (fun s x => if x.2.cls.isNone then s.endFrame x.1 x.2 else s) s

/-- A fence in hardware (R311): no further byte of media leaves a port, whether the unit transmits under its lease or in FALLBACK. -/
def State.fenceHard (s : State) (cause : Nat) : State :=
  let was := s.active || s.hedgeState == 6
  let s := s.fence cause
  if was then s.endMedia else s

/-- A held cause ends. -/
def State.endCause (s : State) (cause : Nat) : State :=
  { s with hgc := { s.hgc with heldCauses := s.hgc.heldCauses.filter (· != cause) } }

/-- FENCE_IN_FALL (R311): FENCE_IN_N has been low for 20 ns. -/
def execFenceInFall (offset : Nat) (s : State) : Host.Outcome State Fault Refusal :=
  let s := (s.moment offset).endCause 3
  if s.pairRole then ok (s.fenceHard 3) else ok { s with hgc := { s.hgc with heldCauses := 3 :: s.hgc.heldCauses } }

/-- FENCE_IN_RISE (R309): the held cause ends; the unit then leaves FENCED under R326. -/
def execFenceInRise (offset : Nat) (s : State) : Host.Outcome State Fault Refusal := ok ((s.moment offset).endCause 3)

/-- FENCE (R311): addressed to a unit that is not ACTIVE, it keeps that unit from bidding until it is released. -/
def execWitFence (via : WitVia) (offset : Nat) (msg : Bytes) (s : State) : Host.Outcome State Fault Refusal :=
  ok ((s.moment offset).witTake via msg 5 (fun _ s => s) (fun m s => if m.sender = 0 && s.pairRole then s.fenceHard 4 else s))

/-- HGC_CTL.FENCE (R309). -/
def State.writeFence (s : State) (r : Requester) (v : Bool) : State :=
  if !s.mayWrite r 0x09001070 then s
  else
    let old := s.flag Reg.HGC_CTL_FENCE
    let s := s.put Reg.HGC_CTL_FENCE (bit v)
    if v && !old then s.fence 5 else if !v then s.endCause 5 else s

/-- HGC_FENCE_WRITE (R309). -/
def execHgcFenceWrite (r : Requester) (v : Bool) (s : State) : Host.Outcome State Fault Refusal := ok (s.writeFence r v)

/-- HGC_CTL.RELEASE (R312): a planned handover of the active. -/
def State.writeRelease (s : State) (r : Requester) : State :=
  if s.mayWrite r 0x09001070 && s.pairRole && s.active then s.put Reg.HGC_CTL_RELEASE 1 else s

/-- HGC_RELEASE_WRITE (R312). -/
def execHgcReleaseWrite (r : Requester) (s : State) : Host.Outcome State Fault Refusal := ok (s.writeRelease r)

/-- HGC_CTL.LAYER (R324). -/
def State.writeLayer (s : State) (r : Requester) : State :=
  if s.mayWrite r 0x09001070 then s.put Reg.HGC_CTL_LAYER 1 else s

/-- HGC_LAYER_WRITE. -/
def execHgcLayerWrite (r : Requester) (s : State) : Host.Outcome State Fault Refusal := ok (s.writeLayer r)

/-- HGC_CTL.HOLD sets NOT_FIT.HOLD (R322). -/
def State.writeHold (s : State) (r : Requester) (v : Bool) : State :=
  if s.mayWrite r 0x09001070 then
    let s := s.put Reg.HGC_CTL_HOLD (bit v)
    s.put Reg.HGC_STATE_NOT_FIT (setBits (s.get Reg.HGC_STATE_NOT_FIT) 5 1 (bit v))
  else s

/-- HGC_HOLD_WRITE. -/
def execHgcHoldWrite (r : Requester) (v : Bool) (s : State) : Host.Outcome State Fault Refusal := ok (s.writeHold r v)

/-! ## The member's side of the lease (R305, R307, R312) -/

/-- TE is LOCKED or in HOLDOVER (R307). -/
def State.timeOk (s : State) : Bool := s.syncState == 1 || s.syncState == 2

/-- The FIT flag of a request. NOT_LAYERED does not count while FORMING, or no pair could form (R306, R322, R326). -/
def State.fitFlag (s : State) : Bool :=
  let n := s.get Reg.HGC_STATE_NOT_FIT
  (if s.hedgeState = 1 then n / 2 else n) == 0

/-- The epoch of a member's request: the newer of its LAST_EPOCH and the partner's as last heard (R313). -/
def State.requestEpoch (s : State) : Nat :=
  let own := s.get Reg.HGC_EPOCH_AON_LAST_EPOCH
  match s.hgc.partnerEpoch with
  | some e => if serialNewer 8 e own then e else own
  | none => own

/-- A RELEASE has gone in this tick, in place of its REQUEST (R312). -/
def State.releaseSent (s : State) : Bool :=
  s.get Reg.HGC_WIT_HWM == s.tick && s.hgc.sentNow.contains (s.get Reg.HGC_CFG_PAIR_ID, 4, 0)

/-- REQUEST_SEND (R305): at offset REQ_SLOT × 250 ns of every tick, but one of a RELEASE. -/
def execRequestSend (s : State) : Host.Outcome State Fault Refusal :=
  let s := s.moment (250 * s.get Reg.HGC_TIMING_REQ_SLOT)
  if !(s.pairRole && s.running .hgc && s.timeOk) || s.releaseSent then ok s
  else
    let sent := s.get Reg.HGC_WIT_SENT
    let s := s.witSend (s.get Reg.HGC_CFG_PAIR_ID) 1 0 s.requestEpoch (bit s.active + 2 * bit s.fitFlag) 0 0 none
    if s.get Reg.HGC_WIT_SENT = sent then ok s
    else ok { s with hgc := { s.hgc with
      requests := ((s.tick, s.hgc.seq) :: s.hgc.requests).take 4
      unanswered := s.hgc.unanswered + 1
      requested := true } }

/-- The packets of a missed tick, in ascending flow and index (R315). -/
def State.backlogOf (s : State) (t : Nat) : List BacklogPkt :=
  (s.hgc.backlog.filter (·.tick == t)).mergeSort (fun a b => a.flow < b.flow || (a.flow == b.flow && a.index ≤ b.index))

/-- One missed tick falls due in this tick, once. -/
def State.replayNow (s : State) (t : Nat) : State :=
  s.oncePerTick 0x9E0 (fun s =>
    { s.bump Reg.HGC_REPLAY_TICKS with hgc := { s.hgc with replayDue := s.backlogOf t } })

/-- take_over (R315). -/
def State.takeOver (s : State) (e : Nat) : State :=
  let k := s.tick
  let first := if s.hedgeState == 1 || !s.hgc.partnerActive then k + 1 else max (s.get Reg.HGC_LAST_TX + 1) (k - 63)
  let s := ((s.put Reg.HGC_STATE_EPOCH e).keepEpoch.put Reg.HGC_STATE_STATE 4).put Reg.HGC_STATE_FENCE_CAUSE 0
  let s := (s.refreshLayered.bump Reg.HGC_TAKEOVERS).rebook
  let s := { s with hgc := { s.hgc with
    liveFrom := k + 1, layer := none, replay := if first ≤ k then some (first, k) else none } }
  let s := s.raise .hgc 3 [(8, e), (48, first)]
  if first ≤ k then s.replayNow first else s

/-- A reply names one of the last four requests. -/
def State.answers (s : State) (m : WitMsg) : Bool := s.hgc.requests.contains (m.refTick, m.refSeq)

/-- A reply without FENCE ends a BUS cause (R309), and the witness is heard. -/
def State.heard (s : State) : State :=
  { s.endCause 4 with hgc := { (s.endCause 4).hgc with unanswered := 0, witLost := false } }

/-- A unit under a held cause, or in FALLBACK, takes no lease (R309, R311). -/
def State.mayTakeOver (s : State) : Bool := s.hedgeState != 6 && s.hgc.heldCauses.isEmpty

/-- GRANT (R305). One that names another party counts against R328. -/
def execWitGrant (via : WitVia) (offset : Nat) (msg : Bytes) (s : State) : Host.Outcome State Fault Refusal :=
  ok ((s.moment offset).witTake via msg 2
    (fun m s => if m.target != 0 then { s with hgc := { s.hgc with grantOther := true } } else s)
    (fun m s =>
      if !(s.pairRole && m.sender = 0 && s.answers m) then s
      else
        let s := (s.bump Reg.HGC_WIT_GRANTS).heard
        if !s.active && !s.mayTakeOver then s
        else
          let s := if s.active then s else s.takeOver m.epoch
          s.put Reg.HGC_LEASE_END (max (s.get Reg.HGC_LEASE_END) (m.refTick + min (s.get Reg.HGC_CFG_LEASE_L) m.leaseL))))

/-- DENY (R305): it fences an ACTIVE member with cause DENIED. -/
def execWitDeny (via : WitVia) (offset : Nat) (msg : Bytes) (s : State) : Host.Outcome State Fault Refusal :=
  ok ((s.moment offset).witTake via msg 3 (fun _ s => s) (fun m s =>
    if !(s.pairRole && m.sender = 0 && s.answers m) then s
    else
      let s := (s.bump Reg.HGC_WIT_DENIES).heard
      if s.active then s.fence 2 else s))

/-- LEASE_EXPIRY (R305): at a tick boundary with tick_now at or beyond LEASE_END. -/
def execLeaseExpiry (s : State) : Host.Outcome State Fault Refusal :=
  if s.active && s.get Reg.HGC_LEASE_END ≤ s.tick then ok (s.fence 1) else ok s

/-- HANDOVER (R312): the active fences with cause LEASE and sends RELEASE in place of REQUEST. -/
def execHandover (s : State) : Host.Outcome State Fault Refusal :=
  if s.pairRole && s.active && s.flag Reg.HGC_CTL_RELEASE then
    ok ((s.fence 1).witSend (s.get Reg.HGC_CFG_PAIR_ID) 4 0 (s.get Reg.HGC_STATE_EPOCH) 0 0 0 none)
  else ok s

/-- WITNESS_LOST (R329): no reply to three consecutive requests. -/
def execWitnessLost (s : State) : Host.Outcome State Fault Refusal :=
  if 3 ≤ s.hgc.unanswered && !s.hgc.witLost then
    ok ({ s with hgc := { s.hgc with witLost := true } }.raise .hgc 10 [])
  else ok s

/-! ## The witness (R306, R307, R312, R313) -/

/-- Fields of a pair in the witness window. -/
def witHolder (k : Nat) : Field := ⟨0x09008000 + 16 * k, 17, 16⟩
def witRestart (k : Nat) : Field := ⟨0x09008000 + 16 * k, 18, 18⟩
def witEpoch (k : Nat) : Field := ⟨0x09008000 + 16 * k, 31, 24⟩
def witEnd (k : Nat) : Field := ⟨0x09008008 + 16 * k, 47, 0⟩
def witValid (k : Nat) : Field := ⟨0x09009000 + 4 * k, 8, 8⟩

/-- The witness sets a pair's EPOCH, and keeps it in its epoch store. -/
def State.setWitEpoch (s : State) (k e : Nat) : State :=
  (s.put (witEpoch k) e).wr (0x09009000 + 4 * k) (0x100 + e % 256)

/-- next_epoch (R313). -/
def nextEpoch (e p : Nat) : Nat := ((if serialNewer 8 p e then p else e) + 1) % 256

/-- The pair's epoch, or the request's own where the witness has lost it (R330, R447). -/
def State.keptEpoch (s : State) (k p : Nat) : Nat := if s.flag (witValid k) then s.get (witEpoch k) else p

def State.witOf (s : State) (pair : Nat) : WitPair := (s.hgc.wit.find? (·.pair == pair)).getD ⟨pair, none, [], []⟩

def State.setWit (s : State) (w : WitPair) : State :=
  { s with hgc := { s.hgc with wit := w :: s.hgc.wit.filter (fun x => x.pair != w.pair) } }

/-- What on_request (R306) answers: GRANT or DENY, and the pair's holder after. -/
def State.onRequest (s : State) (k : Nat) (m : WitMsg) : Bool × State :=
  let r := s.tick
  let l := s.get Reg.HGC_CFG_LEASE_L
  let p := m.sender
  let h := s.get (witHolder k)
  let holding := bitAt m.flags 0
  let fit := bitAt m.flags 1
  let w := s.witOf m.pair
  let s := s.setWit { w with
    fitTick := if p = 1 && fit then some r else w.fitTick
    holding := if holding && s.flag (witRestart k) then (p :: w.holding).eraseDups else w.holding
    fits := Assoc.set w.fits p fit }
  let give := fun (s : State) => (true, (s.put (witHolder k) p).put (witEnd k) (r + l))
  if !s.timeOk then (false, s)
  else if p = h then
    if holding && m.epoch == s.get (witEpoch k) then (true, s.put (witEnd k) (max (s.get (witEnd k)) (r + l)))
    else (false, s)
  else if s.flag (witRestart k) then
    if holding && !w.holding.any (· != p) then give (s.setWitEpoch k m.epoch) else (false, s)
  else if h != 0 && r < s.get (witEnd k) + s.get Reg.HGC_TIMING_GAP_G then (false, s)
  else if !fit then (false, s)
  else if p = 2 && h = 0 && (match w.fitTick with | some t => decide (r ≤ t + l) | none => false) then (false, s)
  else give (s.setWitEpoch k (nextEpoch (s.keptEpoch k m.epoch) m.epoch))

/-- Where a reply goes back to: the port and source of the request. -/
def WitVia.back (source : BitVec 48) : WitVia → Option (Nat × Nat)
  | .pins _ _ => none
  | .frame p => some (p.val, source.toNat)

/-- The SENDER of a message matches the identity that the witness's image declares for that party (R297): the source address of its
frame; on the bus the party's own slot, which no one else drives (R303; DEDUCED, log entry 104). -/
def State.senderKnown (s : State) (via : WitVia) (source : BitVec 48) (m : WitMsg) : Bool :=
  match via with
  | .pins slot _ => slot.val + 1 == m.sender
  | .frame _ => s.hgc.members.contains (m.pair, m.sender, source.toNat)

/-- REQUEST (R306), from the source address `source` where it comes in a frame. -/
def execWitRequest (via : WitVia) (offset : Nat) (source : BitVec 48) (msg : Bytes) (s : State) : Host.Outcome State Fault Refusal :=
  ok ((s.moment offset).witTake via msg 1 (fun _ s => s) (fun m s =>
    match (if s.hedgeState = 7 && s.senderKnown via source m && (m.sender == 1 || m.sender == 2) then s.witPair m.pair else none) with
    | none => s
    | some k =>
      let (yes, s) := s.onRequest k m
      s.witSend m.pair (if yes then 2 else 3) m.sender (s.get (witEpoch k)) (4 * bit (s.flag (witRestart k))) m.tick m.seq
        (WitVia.back source via)))

/-- RELEASE (R312): from the HOLDER, it sets W_END to the witness's tick. -/
def execWitRelease (via : WitVia) (offset : Nat) (source : BitVec 48) (msg : Bytes) (s : State) : Host.Outcome State Fault Refusal :=
  ok ((s.moment offset).witTake via msg 4 (fun _ s => s) (fun m s =>
    match (if s.hedgeState = 7 && s.senderKnown via source m then s.witPair m.pair else none) with
    | none => s
    | some k => if m.sender = s.get (witHolder k) && m.sender != 0 then s.put (witEnd k) s.tick else s))

/-- RESTART_WINDOW_END (R307): L + G ticks after the witness's start. -/
def execRestartWindowEnd (s : State) : Host.Outcome State Fault Refusal :=
  let s := (List.range 16).foldl (fun s k => s.put (witRestart k) 0) s
  ok { s with hgc := { s.hgc with wit := s.hgc.wit.map (fun w => { w with holding := [] }) } }

/-- REPLAY_TICK (R315): in tick k + j the packets of missed tick first + j fall due. -/
def execReplayTick (s : State) : Host.Outcome State Fault Refusal :=
  match s.hgc.replay with
  | none => ok s
  | some (first, k) =>
    let t := first + (s.tick - k)
    if s.active && k < s.tick && t ≤ k then ok (s.replayNow t) else ok s

/-- At a tick boundary, replayed packets that have not begun are discarded, and the last missed tick's end raises
REPLAY_DONE (R315, R329). `n` is the tick that ends. -/
def State.endReplayTick (s : State) (n : Nat) : State :=
  let s := s.bumpBy Reg.HGC_REPLAY_DROPPED s.hgc.replayDue.length
  let s := { s with hgc := { s.hgc with replayDue := [] } }
  match s.hgc.replay with
  | none => s
  | some (first, k) =>
    if s.active && first + (n - k) < k then s
    else ({ s with hgc := { s.hgc with replay := none } }).when s.active (fun s => s.raise .hgc 5 [])

end Sys2Proof.Machine
end

