-- ==== Sys2Proof/Machine/Hedge.lean ====
section
/-! DEFINITION. The hedge link: HELLO, heartbeats and the shadow compare, carried commands, the host mirror, layering, the
health report and the return from FENCED (R317 to R328). -/

namespace Sys2Proof.Machine

/-- The unit is a member of a pair with HGC in RUN. -/
def State.member (s : State) : Bool := s.pairRole && s.running .hgc

/-- The partner is ACTIVE as last heard. -/
def State.partnerIsActive (s : State) : Bool := match s.hgc.partner with | some (st, _) => st == 4 | none => false

/-- A state of R298, with what follows from it; the bookings follow where the media of the host takes other pipelines now (R17). -/
def State.setHedge (s : State) (st : Nat) : State :=
  let was := s.mirrors
  let s := ((s.put Reg.HGC_STATE_STATE st).put Reg.HGC_STATE_FENCE_CAUSE 0).refreshLayered
  let s : State := { s with hgc := { s.hgc with
    partnerActive := s.hgc.partnerActive && st != 3
    compared := if st = 3 then s.tick else s.hgc.compared
    layer := if st = 2 then s.hgc.layer else none } }
  if s.mirrors = was then s else s.rebook

/-- The unit takes FALLBACK (R298). -/
def State.fallBack (s : State) : State :=
  let s := s.setHedge 6
  { s with hgc := { s.hgc with refused := false } }

/-- A fenced unit whose cause is no longer held leaves FENCED: to FALLBACK where the pair was refused meanwhile (R327), to STANDBY
where it has missed no command, those that the partner's heartbeat counts among them, and its partner is ACTIVE under a newer
epoch, to FORMING where no partner is ACTIVE; otherwise it layers (R326). A unit that meets a held cause while STANDBY or FORMING
is fenced (R309). -/
def State.leaveFenced (s : State) : State :=
  if !s.member then s
  else if s.hedgeState = 5 && s.hgc.heldCauses.isEmpty then
    if s.hgc.refused then s.fallBack
    else match s.hgc.partner with
    | some (4, e) =>
      if !bitAt (s.get Reg.HGC_STATE_NOT_FIT) 3 && !serialNewer 32 s.hgc.heardSeq (s.get Reg.HGC_CMD_SEQ) &&
          serialNewer 8 e (s.get Reg.HGC_EPOCH_AON_LAST_EPOCH) then s.setHedge 3 else s
    | _ => s.setHedge 1
  else match s.hgc.heldCauses with
    | c :: _ => if s.hedgeState = 1 || s.hedgeState = 3 then s.fence c else s
    | [] => s

/-! ## Bring-up (R317, R327) -/

/-- A refusal: a record and an event with the reason; a unit that is not ACTIVE takes FALLBACK (R297, R327), at once, or where a
held cause keeps it FENCED once that ends (R309; DEDUCED, log entry 20). -/
def State.pairRefused (s : State) (reason : Nat) : State :=
  let v := Config.pairReason reason
  let s := (s.hlog 7 9 (payload [(8, v)])).raise .hgc 2 [(8, v)]
  let s := s.put Reg.HGC_STATE_AGREED_VER 0
  if s.active then s
  else if s.hedgeState = 5 && !s.hgc.heldCauses.isEmpty then { s with hgc := { s.hgc with refused := true } }
  else s.fallBack

/-- HEDGE_LINK_UP (R317, R327): LINK_UP; the link numbers its frames from `link` on, and the unit sends HELLO with its firmware's
version range and its image's SHOW_HASH. -/
def execHedgeLinkUp (verMin verMax : Fin 256) (link : Word) (s : State) : Host.Outcome State Fault Refusal :=
  if !s.member then ok s
  else
    let s := s.put Reg.HGC_STATE_LINK_UP 1
    let s : State := { s with hgc := { s.hgc with verMin := verMin, verMax := verMax, linkSeq := link.toNat } }
    ok (s.sendLink (fun k => .hedge k 0 [verMin, verMax, s.hgc.showHash, s.get Reg.HGC_CFG_PAIR_ID, s.get Reg.HGC_SELF_ID,
      s.get Reg.HGC_CFG_PARTY,
      s.hedgeState, s.get Reg.HGC_STATE_EPOCH]))

/-- Why a pair is refused, by the list of R327: the first that applies, where several do (DESIGN CHOICE, log entry 104). -/
def State.helloFault (s : State) (verMin ver : Nat) (showHash : BitVec 384) (m : HelloMsg) : Option Nat :=
  if ver < verMin || ver < s.hgc.verMin then some 0
  else if showHash.toNat != s.hgc.showHash then some 1
  else if m.pairId != s.get Reg.HGC_CFG_PAIR_ID || m.selfId != s.get Reg.HGC_PARTNER_ID || !(m.party == 1 || m.party == 2)
      || s.get Reg.HGC_SELF_ID != s.sup.otpMac then some 2
  else if m.party == s.get Reg.HGC_CFG_PARTY then some 3
  else none

/-- HELLO (R327): the partner's version range, its SHOW_HASH and the rest of its HELLO, against the unit's own. -/
def execHello (verMin verMax : Fin 256) (showHash : BitVec 384) (m : HelloMsg) (s : State) : Host.Outcome State Fault Refusal :=
  if !(s.member && s.flag Reg.HGC_STATE_LINK_UP) then ok s
  else
    let s := { s with hgc := { s.hgc with helloActive := s.hgc.helloActive || m.state == 4 } }
    let ver := min verMax.val s.hgc.verMax
    match s.helloFault verMin ver showHash m with
    | some reason => ok (s.pairRefused reason)
    | none => ok ((s.put Reg.HGC_STATE_AGREED_VER ver).raise .hgc 1 [(8, ver)])

/-- PARTNER_LOST (R317): the link is down, and bring-up starts again. Layering that it cuts starts over. -/
def execPartnerLost (s : State) : Host.Outcome State Fault Refusal :=
  if !(s.member && s.flag Reg.HGC_STATE_LINK_UP) then ok s
  else
    let s := (s.put Reg.HGC_STATE_LINK_UP 0).put Reg.HGC_STATE_AGREED_VER 0
    let s := { s with hgc := { s.hgc with partner := none } }
    let s := s.raise .hgc 9 []
    ok (if s.hedgeState = 2 then (s.setHedge 1).leaveFenced else s)

/-! ## Carried commands (R318) -/

/-- COMMAND_GAP (R318, R322). -/
def State.setGap (s : State) (b : Bool) : State :=
  s.put Reg.HGC_STATE_NOT_FIT (setBits (s.get Reg.HGC_STATE_NOT_FIT) 3 1 (bit b))

/-- A carried change of a table entry, in the list of changes while it has room. -/
def State.changed (s : State) (table index : Nat) : State :=
  match s.noteChange table index with
  | some s => s
  | none => s

/-- A carried word lands, with what the unit notes of it: the FTU change list, the classifier's pool. -/
def State.applyWord (s : State) (k v : Nat) : State :=
  let s' := s.wr k v
  if inRange k 0x12800000 0x100000 then s'.changed 2 ((k - 0x12800000) / 16)
  else if inRange k 0x12900000 0x4000 then s'.changed 4 ((k - 0x12900000) / 4)
  else if inRange k 0x11000000 0x100000 then s.stageEntry ((k - 0x11000000) / 128) k v
  else if inRange k 0x12000000 0x800000 && k % 128 < 44 then s'.flowWritten ((k - 0x12000000) / 128) (k % 128 / 4) v
  else s'

/-- USED of the counted kinds follows what the bulk transfer has brought: flows and terms by their bookings, key slots, classifier
entries. Rings, instances, cells and HBM are the unit's own (R364). -/
def State.recountPools (s : State) : State :=
  let s := s.resetWords (fun k => 0x0B200000 ≤ k && k < 0x0B240000 && (k % 64 == 12 || k % 64 == 20 || k % 64 == 28 || k % 64 == 44))
  let s := s.te.books.foldl (fun s b => s.takePools b.pools) s
  let s := s.cku.slots.foldl (fun s x => s.poolTake (s.get (Reg.SLOT_FUNC x.1)) 2 1) s
  let now := (s.rangeWords 0x11400000 0x100000).filterMap (fun p =>
    if p.1 % 128 == 124 && bitAt p.2 31 then some (s.entryOwner 0x11400000 (p.1 / 128)) else none)
  (s.classifierFuncs ++ now).eraseDups.foldl (fun s f => s.recountClassifier f) s

/-- A key slot's blob is in order, or has failed (R431). -/
def State.noteKey (s : State) (slot : Nat) (bad : Bool) : State :=
  let l := s.hgc.badKeys.filter (· != slot)
  { s with hgc := { s.hgc with badKeys := if bad then slot :: l else l } }

/-- The standby applies a command as the active accepted it, without repeating the checks, for effective tick `t`. A key
blob that does not unwrap here cannot be applied. -/
def State.applyCarried (s : State) (t : Nat) (op : CarriedOp) : State :=
  match op with
  | .words l => l.foldl (fun s x => s.applyWord x.1 x.2.toNat) s
  | .admission p id => s.scheduleAdd p id (some t) (if p then s.pointBooking id else s.flowBooking id)
  | .remove p id => s.scheduleRemove p id t
  | .tblCommit =>
    { (s.put Reg.PCU_TBL_CTL_BUSY 1).put Reg.PCU_TBL_CTL_COMMIT 1 with pcu := { s.pcu with commit := some (some t), lostRaised := false } }
  | .lpm ins fam vrf len addr nh =>
    (if ins then s.lpmInsertOp ⟨fam, vrf, len, addr, nh⟩ else s.lpmDeleteOp ⟨fam, vrf, len, addr, nh⟩).2
  | .macStatic ins vlan mac kind target =>
    (if ins then s.insertStaticOp vlan mac kind target else s.deleteStaticOp vlan mac).2
  | .gain term v => s.requestGain term v.toNat t
  | .rearm flow mask => s.scheduleRearm flow mask t
  | .limit key v => s.acceptLimit key v.toNat t
  | .sideband v => s.acceptSideband v.toNat t
  | .gateCommit =>
    { ((s.put Reg.EGU_GATE_CTL_BUSY 1).put Reg.EGU_GATE_CTL_COMMIT 1).put Reg.EGU_GATE_COMMIT_TICK
      t with egu := { s.egu with gateTick := some t } }
  | .key rewrite slot arg blob =>
    match s.keyPlain (bits arg 16 4) blob with
    | none => s.setGap true
    | some p =>
      if rewrite then (s.noteKey slot false).scheduleRewrite slot (bits arg 16 4) t p blob
      else (s.noteKey slot false).loadSlot slot (bits arg 16 4) (arg % 4096) p blob
  | .keyErase slot => (s.noteKey slot false).scheduleErase slot t
  | .vlan key v => s.acceptVlan key v.toNat t

/-- CMD_SEQ of the last command that changed the item of a command before BULK read it; 0 for none. -/
def State.itemSeq (s : State) (op : CarriedOp) : Option Nat :=
  match op with
  | .words l => l.findSome? (fun x => Assoc.get? s.hgc.items x.1)
  | _ => (s.hgc.itemSeqs.find? (fun p => (carriedItems op).contains p.1)).map (·.2)

/-- CARRIED_COMMAND (R318, R325): `tick` is the effective tick, 0 for a command that acts at once. A unit in BULK takes the
command again in DELTA. -/
def execCarriedCommand (seq : Word) (tick : Fin 281474976710656) (op : CarriedOp) (s : State) : Host.Outcome State Fault Refusal :=
  if !s.member || s.active || s.hgc.layer == some 0 then ok s
  else
    let q := seq.toNat
    let last := s.get Reg.HGC_CMD_SEQ
    if !serialNewer 32 q last then ok s
    else
      let late := tick.val != 0 && tick.val ≤ s.tick
      let s := if q != (last + 1) % 2 ^ 32 || late then s.setGap true else s
      let s := s.put Reg.HGC_CMD_SEQ q
      match s.itemSeq op with
      | some old => ok (if serialNewer 32 q old then s.applyCarried tick op else s)
      | none => ok (s.applyCarried tick op)

/-- HOST_MIRROR (R319): the standby holds a mirrored host TX media packet until its tick's window. -/
def execHostMirror (ring : Fin 131072) (seq : Nat) (pkt : Bytes) (s : State) : Host.Outcome State Fault Refusal :=
  if s.member && (s.hedgeState == 3 || (s.hedgeState == 2 && s.hgc.layer == some 2)) then
    ok { s with qe := { s.qe with mediaWait := s.qe.mediaWait ++ [(ring.val, seq, pkt, true)] } }
  else ok s

/-! ## Heartbeats and the shadow (R321) -/

/-- The outcome of a flow-tick that mismatches: three in a row raise SHADOW_MISMATCH, once per flow and second. -/
def State.shadowRun (s : State) (f m : Nat) (bad : Bool) : State :=
  if !bad then { s with hgc := { s.hgc with runs := Assoc.erase s.hgc.runs f } }
  else
    let old := Assoc.getD s.hgc.runs f (0, 0)
    let n := if old.2 + 1 = m then old.1 + 1 else 1
    let s := { s with hgc := { s.hgc with runs := Assoc.set s.hgc.runs f (n, m), second := (f :: s.hgc.second).eraseDups } }
    let recent := match Assoc.get? s.hgc.raised f with | some t => decide ((s.tick - t) * s.period < 1000000000) | none => false
    if 3 ≤ n && !recent then
      ({ s with hgc := { s.hgc with raised := Assoc.set s.hgc.raised f s.tick } }).raise .hgc 6 [(16, f), (48, m)]
    else s

/-- The compare of one flow-tick: own record, active's record. The outcomes are tried in the order of R321's table; a record that
only the active has is a mismatch (DEDUCED, log entry 104). -/
def State.compare (s : State) (m f : Nat) (own : Option Digest) (his : Option DigestRec) : State :=
  match own, his with
  | none, none => s
  | some d, none => s.bump (if d.heldIn || d.edge || d.notSent then Reg.HGC_SHADOW_EXCLUDED else Reg.HGC_SHADOW_MISSING)
  | none, some h =>
    if h.heldIn || h.edge || h.notSent then s.bump Reg.HGC_SHADOW_EXCLUDED else (s.bump Reg.HGC_SHADOW_MISMATCH).shadowRun f m true
  | some d, some h =>
    if d.heldIn || d.edge || d.notSent || h.heldIn || h.edge || h.notSent then s.bump Reg.HGC_SHADOW_EXCLUDED
    else if d.crc ^^^ 0xFFFFFFFF = h.crc then (s.bump Reg.HGC_SHADOW_MATCH).shadowRun f m false
    else (s.bump Reg.HGC_SHADOW_MISMATCH).shadowRun f m true

/-- The shadow compare of tick `m`. -/
def State.shadow (s : State) (m : Nat) (l : List DigestRec) : State :=
  let s : State := { s with hgc := { s.hgc with compared := m } }
  let own := s.digestsOf m
  let flows := (own.map (·.flow) ++ l.map (·.flow)).eraseDups
  flows.foldl (fun s f => s.compare m f (own.find? (·.flow == f)) (l.find? (·.flow == f))) s

/-- HEARTBEAT (R309, R320, R321, R323): the partner's state, its last tick, its record, and the shadow compare. -/
def execHeartbeat (offset : Nat) (m : HeartbeatMsg) (s : State) : Host.Outcome State Fault Refusal :=
  let s := s.moment offset
  if !(s.member && s.flag Reg.HGC_STATE_LINK_UP) then ok s
  else
    let st := s.hedgeState
    let s := { s with hgc := { s.hgc with
      partner := some (m.state, m.epoch), partnerEpoch := some m.epoch
      heardSeq := m.cmdSeq, partnerActive := s.hgc.partnerActive || (m.state == 4 && st == 3) } }
    let s := s.wrWords 0x09002040 ((m.record.take 16).map (·.toNat))
    if m.state != 4 then ok s
    else if st = 4 then ok (if serialNewer 8 m.epoch (s.get Reg.HGC_STATE_EPOCH) then s.fence 7 else s)
    else
      let s := s.put Reg.HGC_LAST_TX m.lastTx
      let s := s.when (1 ≤ st && st ≤ 3) (fun s => s.put Reg.HGC_STATE_EPOCH m.epoch)
      ok (s.when (st = 3) (fun s => s.shadow m.tick m.digests))

/-- At the end of tick `n` a standby has compared the records of tick n − 1; where no heartbeat brought them, the active has none
(R321). -/
def State.shadowMissed (s : State) (n : Nat) : State :=
  if s.hedgeState = 3 && 1 ≤ n && s.hgc.compared < n - 1 then s.shadow (n - 1) [] else s

/-- The active's heartbeat of tick n + 1 carries its digest records of tick n and its health record (R321, R323). -/
def State.sendHeartbeat (s : State) (n : Nat) : State :=
  if !(s.member && s.flag Reg.HGC_STATE_LINK_UP) then s
  else
    let recs := (s.digestsOf n).flatMap (fun d =>
      [d.flow * 2 ^ 48 + bit d.heldIn * 2 ^ 47 + bit d.edge * 2 ^ 46 + bit d.notSent * 2 ^ 45 + (d.crc ^^^ 0xFFFFFFFF)])
    s.sendLink (fun k => .hedge k 1
      ([s.hedgeState, s.get Reg.HGC_STATE_EPOCH, s.hgc.lastTx, s.get Reg.HGC_CMD_SEQ, n] ++ s.rdWords 0x09002000 16 ++ recs))

/-- Backlog and digests older than 64 ticks are gone (R315). -/
def State.pruneHedge (s : State) : State :=
  { s with hgc := { s.hgc with
    backlog := s.hgc.backlog.filter (fun p => s.tick < p.tick + 64)
    digests := s.hgc.digests.filter (fun d => s.tick < d.tick + 4) } }

/-! ## Layering (R324 to R326) -/

/-- The unit may layer: it is FORMING or fenced with no cause held and finds an ACTIVE partner, or it is a standby that the
manager makes layer. -/
def State.mayLayer (s : State) : Bool :=
  s.member && s.flag Reg.HGC_STATE_LINK_UP && s.partnerIsActive &&
    (match s.hedgeState with
      | 1 => true
      | 3 => s.flag Reg.HGC_CTL_LAYER
      | 5 => s.hgc.heldCauses.isEmpty
      | _ => false)

/-- CMD_SEQ of the last command that changed a word, 0 where none has (R325). -/
def State.sentSeq (s : State) (i : CarriedItem) : Nat := ((s.hgc.sent.find? (fun x => x.1 == i)).map (·.2)).getD 0

/-- The registers and windows that the bulk transfer holds (R324): the flow table, points and terms, both banks of the versioned
set and CUR, rewrite programs, gate lists, guard limits, slot records, the ledger, VLAN configuration. -/
def bulkWindows : List (Nat × Nat) :=
  bankWindows.flatMap (fun w => (w.1, w.2.1) :: w.2.2.map (fun b => (b, w.2.1))) ++
    [(0x12000000, 0x800000), (0x13000000, 0x240000), (Reg.PCU_TBL_VERSION.key, 4), (0x05400000, 0x800000), (0x07004000, 0x4000),
      (0x07008000, 0x400), (0x08500000, 0x100000), (0x01001300, 0xA0), (0x02001300, 0x180)]

/-- What the active sends to a unit that layers (R324, R325), each item with the CMD_SEQ of the last command that changed it. -/
def State.bulkMsg (s : State) : BulkMsg where
  seq := s.get Reg.HGC_CMD_SEQ
  words := (s.regs.filter (fun x => bulkWindows.any (fun w => inRange x.1 w.1 w.2))).map (fun x => (x.1, x.2, s.sentSeq (.word x.1)))
  seqs := s.hgc.sent.filter (fun x => match x.1 with | .word _ => false | _ => true)
  admitted := s.te.since
  changes := s.te.changes.map (fun c => (c.isPoint, c.id, c.add, c.tick.getD 0))
  gains := s.fpu.gains
  limits := s.egu.limits
  lpm := s.ftu.lpm
  macStatic := s.ftu.macStatic
  keys := s.cku.slots.map (fun x => (x.1, x.2.blob))
  keyCommands := s.cku.slots.flatMap (fun x =>
    (match x.2.rewriteTick with | some t => [(t, .key true x.1 (x.2.newKek * 2 ^ 16) x.2.newBlob)] | none => []) ++
      (match x.2.eraseTick with | some t => [(t, .keyErase x.1)] | none => []))
  guards := s.egu.guard.map (fun x => (x.1, x.2.map (fun c => (c.state, c.pos, c.cause))))
  sideband := s.egu.sideA
  epoch := s.get Reg.HGC_STATE_EPOCH

/-- LAYER_BULK (R324): the unit begins to layer; an active sends its state. -/
def execLayerBulk (s : State) : Host.Outcome State Fault Refusal :=
  if s.member && s.active && s.flag Reg.HGC_STATE_LINK_UP then ok (s.sendLink (fun k => .bulk k s.bulkMsg))
  else if s.mayLayer then
    let s := (s.setHedge 2).setGap false
    ok { s with hgc := { s.hgc with layer := some 0, items := [], itemSeqs := [], badKeys := [] } }
  else ok s

/-- A key blob of the bulk transfer, under the KEK its slot record names; one that fails keeps the unit in LAYERING (R431). -/
def State.layerKey (s : State) (slot : Nat) (blob : Bytes) : State :=
  let last := if s.get (Reg.SLOT_STATE slot) = 2 then 0 else s.get (Reg.SLOT_SWITCH_TICK slot)
  match s.keyPlain (s.get (Reg.SLOT_KEK slot)) blob with
  | none => (s.setSlot slot ⟨[], [], false, none, none, blob, [], 0, last⟩).noteKey slot true
  | some p => s.setSlot slot ⟨p, [], false, none, none, blob, [], 0, last⟩

/-- A guard channel as the active has it, with no history yet. -/
def layerChannel (c : Nat × Nat × Nat) : GuardChannel :=
  { GuardChannel.fresh c.2.1 with state := c.1, pos := c.2.1, cause := c.2.2 }

/-- A command on a key slot, of which a bulk transfer brings those that were pending (R253, R325). -/
def isKeyOp : CarriedOp → Bool
  | .key _ _ _ _ | .keyErase _ => true
  | _ => false

/-- BULK_DONE (R324, R325): everything the bulk transfer brings is in place, and DELTA begins. -/
def execBulkDone (m : BulkMsg) (s : State) : Host.Outcome State Fault Refusal :=
  if s.hgc.layer != some 0 then ok s
  else
    let s := m.words.foldl (fun s x => s.wr x.1 x.2.1.toNat) s
    -- an object that the image names is its own (R364)
    let books := m.admitted.map (fun x => s.bookingOf x.1 ((if x.1 then s.sup.initPoints else s.sup.initFlows).contains x.2.1) x.2.1)
    let s := { s with
      te := { s.te with
        books := books
        since := m.admitted
        changes := m.changes.map (fun (x : Bool × Nat × Bool × Nat) => (⟨x.1, x.2.1, x.2.2.1, some x.2.2.2⟩ : Change)) }
      fpu := { s.fpu with gains := m.gains }
      ftu := { s.ftu with lpm := m.lpm, macStatic := m.macStatic, changes := [], copies := [], shadows := [] }
      egu := { s.egu with
        limits := m.limits, sidePending := []
        guard := m.guards.map (fun (x : Nat × List (Nat × Nat × Nat)) => (x.1, x.2.map layerChannel)) }
      hgc := { s.hgc with layer := some 1, items := m.words.map (fun (x : Nat × Word × Nat) => (x.1, x.2.2)), itemSeqs := m.seqs } }
    let s := m.keys.foldl (fun s x => s.layerKey x.1 x.2) s.shadowWrite
    -- the old blob and then the command (R253, R325)
    let s := (m.keyCommands.filter (fun x => isKeyOp x.2)).foldl (fun s x => s.applyCarried x.1 x.2) s.recountPools
    let s := (s.driveSideband (m.sideband % 2 ^ 17)).countSlots
    ok ((s.put Reg.HGC_STATE_EPOCH m.epoch).put Reg.HGC_CMD_SEQ m.seq)

/-- The active names the tick boundary at which SETTLE begins, the one that the present tick began with, and sends the hold states
and last samples of the tick before it (R324; which boundary it names the spec does not say, DESIGN CHOICE, log entry 104). -/
def State.settleMsg (s : State) : SettleMsg where
  tick := s.tick
  flows := s.admittedFlows.map (fun f => (f, (s.rt f).lastValid, (s.rt f).lastX))
  terms := s.fpu.terms.map (fun x => (x.1, x.2.lastValid, x.2.lastX))

/-- DELTA_DONE (R324): the unit holds the active's current CMD_SEQ, and SETTLE begins at the tick the active names, with the
hold states and last samples of the tick before it; the active sends them. -/
def execDeltaDone (m : SettleMsg) (s : State) : Host.Outcome State Fault Refusal :=
  if s.member && s.active && s.flag Reg.HGC_STATE_LINK_UP then ok (s.sendLink (fun k => .settle k s.settleMsg))
  else if s.hgc.layer != some 1 then ok s
  else
    let s := m.flows.foldl (fun s x => s.setRt x.1 { s.rt x.1 with lastX := x.2.2, lastValid := x.2.1 }) s
    ok { s with
      fpu := { s.fpu with terms := m.terms.foldl (fun l (x : Nat × Bool × Nat) => Assoc.set l x.1 (⟨x.2.2, x.2.1⟩ : TermRt)) s.fpu.terms }
      hgc := { s.hgc with layer := some 2, settleTick := m.tick } }

/-- The largest DC_N of the guard profiles, at most 1,024 (R324). -/
def State.settleTicks (s : State) : Nat :=
  min 1024 ((List.range 64).foldl (fun a p => max a (s.get (Reg.EGU_GUARD_STUCK_DC_N p))) 0)

/-- LAYER_DONE (R324, R431): SETTLE has lasted its ticks, no key blob has failed, and the unit is STANDBY; at the active, the
event alone. -/
def execLayerDone (s : State) : Host.Outcome State Fault Refusal :=
  if !s.member then ok s
  else if s.active then ok (s.raise .hgc 7 [])
  else if s.hgc.layer == some 2 && s.hgc.badKeys.isEmpty && s.hgc.settleTick + s.settleTicks ≤ s.tick then
    let s := (s.setHedge 3).put Reg.HGC_CTL_LAYER 0
    let s := { s with hgc := { s.hgc with items := [], itemSeqs := [] } }
    ok (s.raise .hgc 7 []).leaveFenced
  else ok s

/-! ## The health report (R323, R57) -/

/-- The features that the unit states take down (R57). -/
def State.featuresDown (s : State) : Nat :=
  let off := fun (u : Unit') => !s.running u
  bit (off .cku) * 0xF + bit (off .sie) * 0x70 + bit (off .rtu) * 0x380 + bit (s.pairRole && off .hgc) * 0x400

/-- Flow `f` uses a feature that is down (R57): encryption of its payload, of a MACsec port or of an ESP program that it takes, or
RTU. -/
def State.usesDown (s : State) (f : Nat) : Bool :=
  let sealed := (s.get (Reg.FLOW_SRC_KIND f) == 0 && s.macsecOn (s.get (Reg.FLOW_SRC f))) ||
    (s.dests f).any (fun d => !d.toRing && (s.macsecOn d.target || (d.rewrite != 0 && s.get (Reg.PROG_ESP_SA d.rewrite) != 0)))
  (!s.running .cku && (s.get (Reg.FLOW_ENC_IN f) != 0 || s.get (Reg.FLOW_ENC_OUT f) != 0 || sealed)) || !s.rtuServes f

/-- Admitted flows and points are down while a feature they use is. -/
def State.refreshDown (s : State) : State :=
  let s := s.admittedFlows.foldl (fun s f => s.put (downFlowBit f) (bit (s.usesDown f))) s
  s.admittedPoints.foldl (fun s p => s.put (downPointBit p) (bit (s.usesDown (s.get (Reg.POINT_OUT_FLOW p))))) s

/-- How many bits of a window are set. -/
def State.countBits (s : State) (base len : Nat) : Nat :=
  sumOf (s.regs.filter (fun p => base ≤ p.1 && p.1 < base + len)) (fun p => popCount p.2.toNat 32)

/-- HEALTH_REPORT (R323): the record of the unit; raised on a change of STATE, NOT_FIT or FEATURES_DOWN. -/
def execHealthReport (s : State) : Host.Outcome State Fault Refusal :=
  if !s.running .hgc then ok s
  else
    let s := s.refreshDown
    let st := s.hedgeState
    let fit := s.get Reg.HGC_STATE_NOT_FIT
    let feat := s.featuresDown
    let units := (List.range 14).foldl (fun a u => a + bit (s.get (Reg.UNIT_STATE u) == 2) * 2 ^ u) 0
    let mm := s.get Reg.HGC_SHADOW_MISMATCH
    let s := s.wrWords 0x09002000 [s.tick % 2 ^ 32, s.tick / 2 ^ 32,
      st + s.get Reg.HGC_STATE_FENCE_CAUSE * 2 ^ 8 + s.get Reg.HGC_STATE_EPOCH * 2 ^ 16 + fit * 2 ^ 24, units + feat * 2 ^ 16,
      s.countBits 0x09004000 0x2000, s.countBits 0x09006000 0x400, mm % 2 ^ 32, mm / 2 ^ 32, s.hgc.second.length,
      s.get Reg.SUP_SAFETY_AGE_BIST_AGE, s.get Reg.SUP_SAFETY_AGE_SCRUB_AGE, s.get Reg.HGC_CMD_SEQ, 0, 0, 0, 0]
    let changed := s.hgc.health != (st, fit, feat)
    let s := { s with hgc := { s.hgc with health := (st, fit, feat), second := if changed then s.hgc.second else [] } }
    ok (s.when changed (fun s => s.raise .hgc 8 []))

/-! ## The witness clock (R466) -/

/-- WIT_CLK_LOSS: the pin form is down. -/
def execWitClkLoss (s : State) : Host.Outcome State Fault Refusal := ok { s with hgc := { s.hgc with clkDown := true } }

/-- WIT_CLK_RECOVERED: after 100 consecutive good periods the pin form resumes. -/
def execWitClkRecovered (s : State) : Host.Outcome State Fault Refusal := ok { s with hgc := { s.hgc with clkDown := false } }

end Sys2Proof.Machine
end

