-- ==== Sys2Proof/Machine/Slot.lean ====
section
/-! DEFINITION. The record slot and its hot-plug control, and the hardware recorder (R409 to R413, R416 to R421). -/

namespace Sys2Proof.Machine

/-! ## The slot's states (R410) -/

def State.slotState (s : State) : Nat := s.get Reg.SIE_SLOT_STATUS_STATE

/-- The balls of R409 that the state drives: REC_PWREN, the release of REC_PERST_N, and the power indicator's three values
(0 off, 1 blinks, 2 on). Both outputs are 0 while POR_N is low, or a rail monitor holds it so (R461, R462). -/
def State.recPwren (s : State) : Bool := !(s.sup.porLow || s.sup.railTrip) && 2 ≤ s.slotState && s.slotState ≤ 6
def State.recPerstReleased (s : State) : Bool := !(s.sup.porLow || s.sup.railTrip) && 3 ≤ s.slotState && s.slotState ≤ 6
def State.recPowerLed (s : State) : Nat :=
  match s.slotState with
  | 2 | 3 | 4 | 6 => 1
  | 5 => if s.sie.removal then 1 else 2
  | _ => 0
/-- The attention indicator: 2 on, 1 blinks, 0 off (R410). -/
def State.recAttnLed (s : State) : Nat := if s.slotState = 7 then 2 else s.get Reg.SIE_SLOT_CTL_ATTN_IND

/-- The slot leaves for a state in which the drive is unpowered: link and namespaces show no drive (R414). -/
def State.slotDark (s : State) (st : Nat) : State :=
  let s := s.when (s.flag Reg.SIE_SLOT_STATUS_DLL_ACTIVE) (fun s => s.put Reg.SIE_SLOT_STATUS_DLL_CHG 1)
  let s := ((s.put Reg.SIE_SLOT_STATUS_DLL_ACTIVE 0).put Reg.SIE_SLOT_STATUS_SPEED 0).put Reg.SIE_SLOT_STATUS_WIDTH 0
  let s := (List.range 64).foldl (fun s i => s.put (Reg.NS_PRESENT i) 0) s
  let s : State := { s with sie := { s.sie with removal := false, shn := false } }
  s.put Reg.SIE_SLOT_STATUS_STATE st

/-- The slot enters FAULT (R410, R422): 1 training, 2 power fault, 3 controller. -/
def State.slotFault (s : State) (cause : Nat) : State :=
  ((s.slotDark 7).put Reg.SIE_SLOT_CTL_POWER_ON 0).raise .sie 7 [(8, cause)]

/-- The link trains, or the drive serves. -/
def State.driveUp (s : State) : Bool := 3 ≤ s.slotState && s.slotState ≤ 6

/-- The drive is gone (R413): commands in flight complete with DRIVE_GONE. -/
def State.driveGone (s : State) : State :=
  ((s.finishAll (fun c => c.ns) 10).bump Reg.SIE_SLOT_SURPRISE).raise .sie 6 []

/-- The slot is powered (R410, R411). -/
def State.slotPower (s : State) : State := s.put Reg.SIE_SLOT_STATUS_STATE 2

/-- A command of the slot runs while SIE does. -/
def State.onSlot (s : State) (f : State → State) : Host.Outcome State Fault Refusal := ok (if s.running .sie then f s else s)

/-- DRIVE_REQUEST_UR (R409): the request completes with Unsupported Request. -/
def execDriveRequestUr (s : State) : Host.Outcome State Fault Refusal := s.onSlot (fun s => (s.bump Reg.SIE_SLOT_UR).emit .driveUr)

/-- Presence changed. -/
def State.presence (s : State) (b : Bool) : State :=
  ((s.put Reg.SIE_SLOT_STATUS_PRESENT (bit b)).put Reg.SIE_SLOT_STATUS_PRESENCE_CHG 1).raise .sie 3 [(1, bit b)]

/-- PRESENCE_STABLE (R411): a presence stable for 100 ms. REMOVE is cleared in OFF (R422). -/
def execPresenceStable (s : State) : Host.Outcome State Fault Refusal :=
  s.onSlot (fun s =>
    if s.flag Reg.SIE_SLOT_STATUS_PRESENT then s
    else
      let s := s.presence true
      if s.slotState != 0 then s
      else if s.flag Reg.SIE_SLOT_CFG_POLICY then (s.put Reg.SIE_SLOT_STATUS_STATE 1).put Reg.SIE_SLOT_CTL_REMOVE 0
      else s.slotPower)

/-- PRESENCE_LOST (R411, R413). -/
def execPresenceLost (s : State) : Host.Outcome State Fault Refusal :=
  s.onSlot (fun s =>
    if !s.flag Reg.SIE_SLOT_STATUS_PRESENT then s
    else
      let s := s.presence false
      let s := s.when s.driveUp State.driveGone
      s.slotDark 0)

/-- Removal starts (R412). -/
def State.startRemoval (s : State) : State :=
  ({ s.put Reg.SIE_SLOT_STATUS_STATE 6 with sie := { s.sie with removal := false, shn := false } }).shutdownWhenIdle

/-- ATTENTION_BUTTON (R412). -/
def execAttentionButton (s : State) : Host.Outcome State Fault Refusal :=
  s.onSlot (fun s =>
    let s := (s.put Reg.SIE_SLOT_STATUS_BUTTON 1).raise .sie 4 []
    if s.slotState = 5 then { s with sie := { s.sie with removal := !s.sie.removal } } else s)

/-- REMOVAL_WINDOW_END (R412). -/
def execRemovalWindowEnd (s : State) : Host.Outcome State Fault Refusal :=
  s.onSlot (fun s => if s.sie.removal && s.slotState == 5 then s.startRemoval else s)

/-- POWER_ON (R411). -/
def State.powerOn (s : State) (r : Requester) : State :=
  if !s.mayWrite r Reg.SIE_SLOT_CTL_POWER_ON.key || !s.running .sie then s
  else if s.slotState = 1 || (s.slotState = 7 && s.flag Reg.SIE_SLOT_STATUS_PRESENT) then
    (s.put Reg.SIE_SLOT_CTL_POWER_ON 1).slotPower
  else s

def execPowerOn (r : Requester) (s : State) : Host.Outcome State Fault Refusal := ok (s.powerOn r)

/-- REMOVE (R412). -/
def State.slotRemove (s : State) (r : Requester) : State :=
  if s.mayWrite r Reg.SIE_SLOT_CTL_REMOVE.key && s.running .sie && s.slotState == 5 then
    (s.put Reg.SIE_SLOT_CTL_REMOVE 1).startRemoval
  else s

def execSlotRemove (r : Requester) (s : State) : Host.Outcome State Fault Refusal := ok (s.slotRemove r)

/-- POWER_FAULT (R410, R413). -/
def execPowerFault (s : State) : Host.Outcome State Fault Refusal :=
  s.onSlot (fun s =>
    let s := s.put Reg.SIE_SLOT_STATUS_PWR_FAULT 1
    if s.slotState = 2 then s.slotFault 2
    else if s.driveUp then s.driveGone.slotFault 2
    else s)

/-- SLOT_PERST_RELEASE (R410): 100 ms of reset are over. -/
def execSlotPerstRelease (s : State) : Host.Outcome State Fault Refusal :=
  s.onSlot (fun s => if s.slotState = 2 then s.put Reg.SIE_SLOT_STATUS_STATE 3 else s)

/-- SLOT_TRAINING_DONE (R410, R411): the link reaches a speed and width, 0 where it does not train; below what is declared the
slot enters FAULT. -/
def execSlotTrainingDone (speed : Fin 6) (width : Fin 9) (s : State) : Host.Outcome State Fault Refusal :=
  s.onSlot (fun s =>
    if s.slotState != 3 then s
    else if speed.val < s.get Reg.SIE_SLOT_CFG_SPEED || width.val < s.get Reg.SIE_SLOT_CFG_WIDTH then s.slotFault 1
    else
      let s := ((s.put Reg.SIE_SLOT_STATUS_DLL_ACTIVE 1).put Reg.SIE_SLOT_STATUS_DLL_CHG 1).put Reg.SIE_SLOT_STATUS_STATE 4
      (s.put Reg.SIE_SLOT_STATUS_SPEED (s.get Reg.SIE_SLOT_CFG_SPEED)).put Reg.SIE_SLOT_STATUS_WIDTH (s.get Reg.SIE_SLOT_CFG_WIDTH))

/-- An entry is matched against the drive's active namespaces (R414). LBA_SHIFT is 9 or 12; an entry with another value matches no
format (DEDUCED, log entry 69). -/
def State.matchNs (s : State) (l : List DriveNs) (i : Nat) : State :=
  if !s.flag (Reg.NS_VALID i) then s.put (Reg.NS_PRESENT i) 0
  else match l.find? (fun n => n.nsid == s.get (Reg.NS_NSID i)) with
    | none => s.put (Reg.NS_PRESENT i) 2
    | some n =>
      let s := s.put (Reg.NS_NSZE i) n.nsze
      if n.shift = s.get (Reg.NS_LBA_SHIFT i) && (n.shift == 9 || n.shift == 12) && !n.metadata then s.put (Reg.NS_PRESENT i) 1
      else (s.put (Reg.NS_PRESENT i) 3).raise .sie 8 [(8, i)]

/-- IDENTIFY_DONE (R410, R414). -/
def execIdentifyDone (namespaces : List DriveNs) (s : State) : Host.Outcome State Fault Refusal :=
  s.onSlot (fun s =>
    if s.slotState != 4 then s
    else
      let s := (List.range 64).foldl (fun s i => s.matchNs namespaces i) s
      ((s.put Reg.SIE_SLOT_STATUS_STATE 5).put Reg.SIE_SLOT_CTL_POWER_ON 0).raise .sie 5 [])

/-- CAP_TO_EXPIRY (R410). -/
def execCapToExpiry (s : State) : Host.Outcome State Fault Refusal :=
  s.onSlot (fun s => if s.slotState = 4 then s.slotFault 3 else s)

/-- REMOVAL_DRAIN_TIMEOUT (R412): the commands left complete with DRIVE_GONE, and CC.SHN is written. -/
def execRemovalDrainTimeout (s : State) : Host.Outcome State Fault Refusal :=
  s.onSlot (fun s => if s.slotState = 6 && !s.sie.shn then (s.finishAll (fun c => c.ns) 10).shutDrive else s)

/-- SHUTDOWN_COMPLETE (R412): or its 10 s are over. -/
def execShutdownComplete (s : State) : Host.Outcome State Fault Refusal :=
  s.onSlot (fun s => if s.slotState = 6 && s.sie.shn then (s.slotDark 1).put Reg.SIE_SLOT_CTL_REMOVE 0 else s)

/-- SLOT_LINK_DOWN (R413). The spec names no cause of SLOT_FAULT for it: the cause is free. -/
def execSlotLinkDown (s : State) : Host.Outcome State Fault Refusal :=
  s.onSlot (fun s =>
    if s.driveUp then
      let (v, s) := s.takeFree
      s.driveGone.slotFault (v % 256)
    else s)

/-! ## Recordings (R416 to R420) -/

/-- CHUNK_TICKS (R417). -/
def State.chunkTicks (s : State) (k : Nat) : Nat := 8 * 2 ^ s.get (Reg.REC_CHUNK_LOG2 k)

/-- The flow list of a recording. -/
def State.recFlows (s : State) (k : Nat) : List Nat :=
  (List.range (min 64 (s.get (Reg.REC_FLOWS k)))).map (fun q => bits (s.rd (0x0D190020 + 256 * k + q / 2 * 4)) (16 * (q % 2)) 16)

/-- Bytes that a flow contributes per tick (R418). -/
def State.recBytes (s : State) (f : Nat) : Nat :=
  let g := s.geometry f
  g.channels * g.samples * sampleBytes g.format

/-- Bytes of data in a chunk. -/
def State.chunkData (s : State) (k : Nat) : Nat := s.chunkTicks k * sumOf (s.recFlows k) s.recBytes

/-- The size of a chunk in 4 KiB blocks. -/
def State.chunkBlocks (s : State) (k : Nat) : Nat := 1 + ceilDiv (s.chunkData k) 4096

/-- 2 MiB units of staging. -/
def State.recUnits (s : State) (k : Nat) : Nat := ceilDiv (s.get (Reg.REC_STAGE k) * s.chunkBlocks k * 4096) 2097152

def State.recRt (s : State) (k : Nat) : Option RecRt := s.sie.recs.find? (·.index == k)
def State.setRec (s : State) (x : RecRt) : State :=
  { s with sie := { s.sie with recs := x :: s.sie.recs.filter (fun y => y.index != x.index) } }

/-- START is refused with BAD_REC (R417). -/
def State.badRec (s : State) (k : Nat) : Bool :=
  let i := s.get (Reg.REC_NS k)
  let n := s.get (Reg.REC_FLOWS k)
  let a := s.get (Reg.REC_START_LBA k)
  let l := s.get (Reg.REC_LBAS k)
  s.get (Reg.NS_PRESENT i) != 1 || s.get (Reg.NS_LBA_SHIFT i) != 12 || s.get (Reg.NS_FUNC i) != s.get (Reg.REC_FUNC k)
    || n < 1 || 64 < n || l < s.chunkBlocks k || s.get (Reg.NS_NSZE i) < a + l || s.recordingThere i a l (some k)

/-- The first chunk boundary at or after a tick (R420). -/
def chunkBoundary (ct t : Nat) : Nat := ceilDiv t ct * ct

/-- Of two STOPs the earlier takes effect, and the recording is STOPPING then. -/
def stopAt (old : Option Nat) (t : Nat) : Nat := match old with | some u => min u t | none => t

/-- A command of SIE_REC_CMD by its OP: 1 START, 2 STOP (R420). -/
def State.recCmd (s : State) (r : Requester) (op k : Nat) : State :=
  if !s.mayWrite r Reg.SIE_REC_CMD_OP.key || !s.running .sie || 63 < k || (op != 1 && op != 2) then s
  else
    let want := s.get Reg.SIE_REC_TICK_TICK
    let st := s.get (Reg.REC_STATE k)
    let res := fun (s : State) (n : Nat) => s.put Reg.SIE_REC_STATUS_RESULT n
    let t := chunkBoundary (s.chunkTicks k) (if want = 0 then s.tick + 2 else want)
    let late := want != 0 && want < s.tick + 2
    if (op = 1 && st != 0) || (op = 2 && st = 0) then res s 4
    else if op = 1 && s.badRec k then res s 1
    else if op = 1 && !s.poolRoom (s.get (Reg.REC_FUNC k)) 7 (s.recUnits k) then res s 2
    else if late then res s 3
    else if op = 1 then
      let u := s.recUnits k
      let s := (s.put (Reg.REC_STATE k) 1).poolTake (s.get (Reg.REC_FUNC k)) 7 u
      res ((s.setRec ⟨k, t, none, 0, s.chunkBlocks k, u, []⟩).put Reg.SIE_REC_TICK_TICK t) 0
    else match s.recRt k with
      | none => res s 4
      | some x => res ((s.setRec { x with stop := some (stopAt x.stop t) }).put Reg.SIE_REC_TICK_TICK t) 0

/-- START (R417, R420). -/
def execRecStart (r : Requester) (rec_ : Fin 64) (s : State) : Host.Outcome State Fault Refusal := ok (s.recCmd r 1 rec_)
/-- STOP (R420). -/
def execRecStop (r : Requester) (rec_ : Fin 64) (s : State) : Host.Outcome State Fault Refusal := ok (s.recCmd r 2 rec_)

/-- REC_STARTED (R420): the effective tick has come. -/
def execRecStarted (rec_ : Fin 64) (s : State) : Host.Outcome State Fault Refusal :=
  let k := rec_.val
  match s.recRt k with
  | none => ok s
  | some x =>
    if !s.running .sie || s.get (Reg.REC_STATE k) != 1 || s.tick < x.start then ok s
    else
      let s := (s.put (Reg.REC_STATE k) 2).put (Reg.REC_SESSION k) (s.get (Reg.REC_SESSION k) + 1)
      ok (s.raise .sie 9 [(8, k), (32, s.get (Reg.REC_SESSION k)), (48, x.start)])

/-- Every chunk before the stop is due, and none is staged: the recording is IDLE again (R420). The last CHUNK_SEQ of a
recording that has had no chunk is not given. -/
def State.recIdle (s : State) (k : Nat) : State :=
  match s.recRt k with
  | none => s
  | some x =>
    let open_ := match x.stop with | some t => decide (x.start + (x.seq + 1) * s.chunkTicks k ≤ t) | none => false
    if s.get (Reg.REC_STATE k) != 3 || !x.staged.isEmpty || open_ then s
    else
      let s := (s.put (Reg.REC_STATE k) 0).poolGive (s.get (Reg.REC_FUNC k)) 7 x.units
      let s : State := { s with sie := { s.sie with recs := s.sie.recs.filter (fun y => y.index != k) } }
      let (last, s) := if x.seq = 0 then s.takeFree else (x.seq - 1, s)
      s.raise .sie 10 [(8, k), (64, last)]

/-- STOP_EFFECTIVE (R420). -/
def execStopEffective (rec_ : Fin 64) (s : State) : Host.Outcome State Fault Refusal :=
  let k := rec_.val
  match (s.recRt k).bind (·.stop) with
  | none => ok s
  | some t =>
    let st := s.get (Reg.REC_STATE k)
    if !s.running .sie || s.tick < t || (st != 1 && st != 2) then ok s
    else ok ((s.put (Reg.REC_STATE k) 3).recIdle k)

/-! ## Chunks (R418, R419) -/

/-- What the recorder has of flow `f` in tick `t`: its samples, zeros where it has none, and its status. A packet that carried
both HOLD and GUARD shows one of the two; which is free. -/
def State.recTick (s : State) (f t : Nat) : (Bytes × Nat) × State :=
  let g := s.geometry f
  let pk := s.sie.taps.filter (fun x => x.flow == f && x.tick == t)
  if pk.isEmpty then ((zeros (s.recBytes f), 3), s)
  else
    let parts := (List.range g.packets).map (fun i =>
      match pk.find? (fun x => x.index == i) with
      | some x => samplesOf (sampleBytes g.format) (g.width i * g.spp) x.samples
      | none => [])
    let hold := pk.any (fun x => bitAt x.flags 10)
    let guard := pk.any (fun x => bitAt x.flags 9)
    let (v, s) := if hold && guard then s.takeFree else (0, s)
    ((((g.assemble parts).flatMap (fun row => bytesOf g.format row)), if hold && guard then 1 + v % 2 else if guard then 2 else
      if hold then 1 else 0), s)

/-- Data and statuses of a chunk, tick by tick and flow by flow. -/
def State.chunkBody (s : State) (k first : Nat) : (Bytes × List (Nat × Nat)) × State :=
  (List.range (s.chunkTicks k)).foldl (fun a t =>
    ((s.recFlows k).zipIdx).foldl (fun (a : (Bytes × List (Nat × Nat)) × State) fq =>
      let ((l, st), s) := a.2.recTick fq.1 (first + t)
      ((a.1.1 ++ l, a.1.2 ++ [(2 * (64 * t + fq.2), st)]), s)) a) (([], []), s)

/-- The header of a chunk (R418). -/
def State.chunkHeader (s : State) (k seq first : Nat) (data : Bytes) (st : List (Nat × Nat)) : Bytes :=
  let desc := (s.recFlows k).flatMap (fun f =>
    let g := s.geometry f
    toLE 2 f ++ toLE 1 g.channels ++ toLE 1 (g.format * 16 + s.get (Reg.FLOW_RATE f)) ++ toLE 4 (s.recBytes f))
  let status := toLE 1024 (sumOf st (fun x => x.2 * 2 ^ x.1))
  let h := toLE 4 0x434B5243 ++ toLE 2 1 ++ toLE 1 (s.get (Reg.REC_FLOWS k)) ++ toLE 1 (s.chunkTicks k) ++ toLE 2 k
    ++ toLE 1 (s.get Reg.TE_CFG_PERIOD) ++ [0] ++ toLE 4 (s.get (Reg.REC_SESSION k)) ++ toLE 8 seq ++ toLE 8 first
    ++ toLE 4 data.length ++ toLE 4 (crc32c data) ++ zeros 24
  let h := sliceB (h ++ desc ++ zeros 576) 0 576 ++ status ++ zeros 2492
  h ++ toLE 4 (crc32c h)

/-- Split a chunk into WRITE commands of at most 32 blocks, each of them one XTS operation (R415). `n` bounds them. -/
def State.writeChunk (s : State) (i nsid lba : Nat) (l : Bytes) : Nat → State
  | 0 => s
  | n + 1 =>
    if l.isEmpty then s
    else match s.xtsBegin i true nsid 4096 lba 0 (l.take 131072) with
      | (.ok (d, _), s) => (s.emit (.nvme 1 nsid lba (d.length / 4096) d)).writeChunk i nsid (lba + 32) (l.drop 131072) n
      | (.error _, s) => s

/-- A chunk is dropped (R419). -/
def State.dropChunk (s : State) : State :=
  (s.bump Reg.SIE_REC_DROPPED).oncePerTick 0xD0B (fun s => s.raise .sie 11 [])

/-- The next chunk of recording `k` is due. -/
def State.chunkDueNow (s : State) (x : RecRt) (k : Nat) : State :=
  let ct := s.chunkTicks k
  let first := x.start + x.seq * ct
  let i := s.get (Reg.REC_NS k)
  let slots := s.get (Reg.REC_LBAS k) / x.blocks
  let lba := s.get (Reg.REC_START_LBA k) + x.seq % slots * x.blocks
  let ((data, st), s) := s.chunkBody k first
  let whole := s.chunkHeader k x.seq first data st ++ data
  let whole := whole ++ zeros (4096 * x.blocks - whole.length)
  let room := x.staged.length < s.get (Reg.REC_STAGE k) && s.slotState == 5 && s.get (Reg.NS_PRESENT i) == 1
  let next := { x with seq := x.seq + 1 }
  let keyed := !s.flag (Reg.NS_ENC i) || (s.xtsSlot i).isSome
  let s :=
    if !room then (s.setRec next).dropChunk
    else if !keyed then ((s.bump Reg.CKU_KEY_EMPTY).setRec next).dropChunk
    else (s.writeChunk i (s.get (Reg.NS_NSID i)) lba whole x.blocks).setRec { next with staged := x.staged ++ [x.seq] }
  let s : State := { s with sie := { s.sie with taps := s.sie.taps.filter (fun t => s.tick < t.tick + 130) } }
  let s := s.when (!s.flag (Reg.REC_WRAP k) && slots ≤ x.seq + 1 && s.get (Reg.REC_STATE k) == 2)
    (fun s => (s.put (Reg.REC_STATE k) 3).setRec { (s.recRt k).getD next with stop := some (first + ct) })
  s.recIdle k

/-- CHUNK_DUE (R418 to R420): the tick after a chunk's last has begun. -/
def execChunkDue (rec_ : Fin 64) (s : State) : Host.Outcome State Fault Refusal :=
  let k := rec_.val
  match s.recRt k with
  | none => ok s
  | some x =>
    let stop := x.start + (x.seq + 1) * s.chunkTicks k
    let inRun := s.get (Reg.REC_STATE k) == 2 || s.get (Reg.REC_STATE k) == 3
    let before := match x.stop with | some t => decide (stop ≤ t) | none => true
    if s.running .sie && inRun && before && decide (stop ≤ s.tick) then ok (s.chunkDueNow x k) else ok s

/-- CHUNK_WRITTEN (R419): the writes of a recording's oldest staged chunk complete, or one fails. -/
def execChunkWritten (rec_ : Fin 64) (good : Bool) (s : State) : Host.Outcome State Fault Refusal :=
  let k := rec_.val
  match s.recRt k with
  | none => ok s
  | some x =>
    if !s.running .sie || x.staged.isEmpty then ok s
    else
      let s := s.setRec { x with staged := x.staged.drop 1 }
      let s := if good then s.bump Reg.SIE_REC_CHUNKS else s.dropChunk
      ok (s.recIdle k).shutdownWhenIdle

/-- RECORDING_WRITE (R417): words 0 to 7 and the flow list, only while IDLE. -/
def State.writeRecording (s : State) (r : Requester) (k word v : Nat) : State :=
  if s.get (Reg.REC_STATE k) != 0 || !isManager r || !s.served r then s else s.writeWord r (0x0D190000 + 256 * k + 4 * word) v

def execRecordingWrite (r : Requester) (rec_ : Fin 64) (word : Fin 64) (v : Word) (s : State) : Host.Outcome State Fault Refusal :=
  ok (s.writeRecording r rec_ word v.toNat)

end Sys2Proof.Machine
end

