-- ==== Sys2Proof/Machine/Faults.lean ====
section
/-! DEFINITION. Single faults: SAFE_STOP, the service cores, scrubbing, BIST, temperature (R426 to R434, R449, R469, R470),
and the WARM and UNIT resets (R450 to R454). -/

namespace Sys2Proof.Machine

/-! ## SAFE_STOP (R426) -/

/-- SAFE_STOP is entered with a fault code; in it, a further fault is only entered under R434. -/
def State.safeStop (s : State) (code : Nat) : State :=
  if s.flag Reg.SUP_SAFETY_STATUS_SAFE_STOP then s.fault 0 code
  else
    let s := ((s.put Reg.SUP_SAFETY_STATUS_SAFE_STOP 1).put Reg.SUP_SAFETY_STATUS_CAUSE code).hlog 13 0 (payload [(8, code)])
    ((s.raise .sup 6 [(8, code)]).fault 0 code).fence 6

/-- LOCKSTEP_MISMATCH (R426). -/
def execLockstepMismatch (s : State) : Host.Outcome State Fault Refusal := ok (s.when s.powered (fun s => s.safeStop 0x0B))

/-- SAFETY_WDOG_EXPIRY (R426). -/
def execSafetyWdogExpiry (s : State) : Host.Outcome State Fault Refusal := ok (s.when s.powered (fun s => s.safeStop 0x0C))

/-- SAFE_STOP for which R434 lists no code: CAUSE and FAULT take a free value. -/
def State.safeStopFree (s : State) : State :=
  let (v, s) := s.takeFree
  s.safeStop (1 + v % 16)

/-- SAFETY_ORDER (R426). -/
def execSafetyOrder (s : State) : Host.Outcome State Fault Refusal := ok (s.when s.powered State.safeStopFree)

/-- THERMAL_TRIP (R469). -/
def execThermalTrip (s : State) : Host.Outcome State Fault Refusal := ok (s.when s.powered (fun s => s.safeStop 0x0F))

/-- CLOCK_FAULT (R449, R428): PLL `pll` is out of lock, or REFCLK is bad. Every MAC transmitter stops at once. -/
def execClockFault (pll : Option (Fin 17)) (s : State) : Host.Outcome State Fault Refusal :=
  if !s.powered then ok s
  else
  let s := match pll with
    | some k => s.put Reg.SUP_CLK_STATUS_LOCKED (setBits (s.get Reg.SUP_CLK_STATUS_LOCKED) k 1 0)
    | none => s.put Reg.SUP_CLK_STATUS_REFCLK_OK 0
  let s := (List.range 32).foldl (fun s p => s.abortTx p) s
  ok (({ s with pxc := { s.pxc with txStopped := true } } : State).safeStop 0x0E)

/-! ## The service cores (R427) -/

/-- An hour in ns. -/
def hourNs : Nat := 3600000000000

/-- The service cores restart alone, or are held stopped after three restarts within one hour. -/
def State.restartService (s : State) : State :=
  if s.flag Reg.SUP_SAFETY_STATUS_SVC_HALTED || s.sup.svcRestarting then s
  else
    let recent := s.sup.svcTimes.filter (fun t => s.localNs < t + hourNs)
    if 3 ≤ recent.length then (s.put Reg.SUP_SAFETY_STATUS_SVC_HALTED 1).fault 0 0x0D
    else
      let s : State := { s with sup := { s.sup with svcRestarting := true, svcTimes := s.localNs :: recent } }
      ((s.bumpSat Reg.SUP_SAFETY_STATUS_SVC_RESTARTS).hlog 15 0 0).raise .sup 8 []

/-- SERVICE_HEARTBEAT_MISSED (R427). -/
def execServiceHeartbeatMissed (s : State) : Host.Outcome State Fault Refusal := ok (s.when s.powered State.restartService)

/-- The wait of a held access may time out: a read of `size` bytes, or, where none waits, a register frame. -/
def SvcWait.reads (size : Nat) : SvcWait → Bool
  | .read _ _ n => n == size
  | _ => false
def SvcWait.isFrame : SvcWait → Bool
  | .frame _ => true
  | _ => false

/-- SERVICE_WAIT_TIMEOUT (R427): the oldest waiting read of `size` bytes completes with all ones and without a side effect; where
no such read waits, the oldest waiting register frame is not answered. -/
def execServiceWaitTimeout (size : Nat) (s : State) : Host.Outcome State Fault Refusal :=
  match s.sup.svcHeld.find? (SvcWait.reads size), s.sup.svcHeld.find? SvcWait.isFrame with
  | some x, _ => ok { s with reply := some (.data (2 ^ (8 * size) - 1)), sup := { s.sup with svcHeld := s.sup.svcHeld.erase x } }
  | none, some x => ok { s with sup := { s.sup with svcHeld := s.sup.svcHeld.erase x } }
  | none, none => ok s

/-! ## Temperature (R469, R470) -/

/-- A reading in °C, two's complement. -/
def celsius (b : BitVec 8) : Int := b.toInt

/-- The hottest of the twelve sensors, the lowest-numbered among equals. -/
def hottest (l : List (BitVec 8)) : Option (Nat × BitVec 8) :=
  (((List.range 12).zip l).foldl (fun (a : Option (Nat × BitVec 8)) x =>
    match a with
    | none => some x
    | some y => if celsius y.2 < celsius x.2 then some x else some y) none)

/-- TEMP_WARN is raised where MAX_C has reached WARN_C, and again only after it has fallen to WARN_C − 5 (R470). -/
def State.tempCheck (s : State) : State :=
  let c := celsius (BitVec.ofNat 8 (s.get Reg.SUP_TEMP_MAX_C))
  let warn : Int := s.get Reg.SUP_TEMP_CFG_WARN_C
  if warn ≤ c && !s.sup.tempWarned then
    ({ s with sup := { s.sup with tempWarned := true } } : State).raise .sup 10
      [(8, s.get Reg.SUP_TEMP_MAX_C), (8, s.get Reg.SUP_TEMP_SENSOR)]
  else if c ≤ warn - 5 then { s with sup := { s.sup with tempWarned := false } }
  else s

/-- TEMP_UPDATE (R470): the readings of the twelve sensors. -/
def execTempUpdate (temps : List (BitVec 8)) (s : State) : Host.Outcome State Fault Refusal :=
  match hottest temps with
  | none => ok s
  | some (i, c) =>
    let peak := BitVec.ofNat 8 (s.get Reg.SUP_TEMP_PEAK_C)
    let s := (s.put Reg.SUP_TEMP_MAX_C c.toNat).put Reg.SUP_TEMP_SENSOR i
    ok (s.put Reg.SUP_TEMP_PEAK_C (if celsius peak < celsius c then c.toNat else peak.toNat)).tempCheck

/-- A write of WARN_C: outside 60 to 110 it is discarded (R470). A threshold at or below MAX_C is reached at once (DEDUCED, log
entry 76). -/
def State.writeWarn (s : State) (r : Requester) (v : Nat) : State :=
  if 60 ≤ v % 256 && v % 256 ≤ 110 then (s.writeWord r 0x1644 v).tempCheck else s

/-! ## What a unit's datapath holds (R451, R452) -/

/-- Every frame leaves the buffer, and its books start over balanced. -/
def State.clearBuffer (s : State) : State :=
  let s := s.egu.tx.foldl (fun s x => if x.2.handle.isSome then s.abortTx x.1 else s) s
  let s := (s.egu.queues ++ s.egu.shaper.map (·.2)).foldl (fun s q => s.dropQueued q) s
  let s := (s.fpu.frames.map (·.1)).foldl (fun s h => s.freeFrame h) s
  let s : State := { s with
    media := MediaState.reset
    pcu := { s.pcu with reorder := s.pcu.reorder.map (fun x => { x with handles := [] }) }
    egu := { s.egu with queues := [], shaper := [] }
    qe := { s.qe with rxWait := s.qe.rxWait.filter (fun w => w.handle.isNone) }
    fpu := { FpuState.reset with
      gains := s.fpu.gains
      cells := (s.fpu.cells.map (fun x => (x.1, { x.2 with owner := 0, allocated := false }))).filter (fun x => x.2.gen != 0) } }
  s.put Reg.FPU_FREE cellCount

/-- PCU's heads (R107, R130). -/
def State.clearHeads (s : State) : State :=
  let s := (s.pcu.reorder.flatMap (·.handles)).foldl (fun s h => s.freeFrame h) s
  { s with pcu := { s.pcu with queue := [], nextSeq := [], pointer := [], released := [], reorder := [] } }

/-- EGU: nothing waits or is sent, guard failure clears, and every channel of every guarded flow is MUTED with zero history,
to be left by a manual re-arm alone (R452). The override and FORCE stay. -/
def State.clearEgress (s : State) : State :=
  let s := (s.egu.credits.map (fun (x : Nat × Int) => x.1)).foldl (fun s i => s.setCredit i 0) s
  let s := (List.range 32).foldl (fun s p => s.abortTx p) s
  let s := (s.egu.queues ++ s.egu.shaper.map (·.2)).foldl (fun s q => s.dropQueued q) s
  let muted := fun f => List.replicate (s.geometry f).channels { GuardChannel.fresh 0 with state := 2, cause := 2 }
  let s : State := { s with egu := { s.egu with
    guard := (s.admittedFlows.filter s.guarded).map (fun f => (f, muted f))
    guardTicks := [], disagreeRun := 0, disagreed := 0, badStores := [], rearms := []
    credits := [], begun := [], ctRun := [] } }
  s.put Reg.EGU_GUARD_STATUS_FAILED 0

/-- PXC: pauses and hold-offs end, and no frame is in transmission. -/
def State.clearPorts (s : State) : State :=
  let s := (List.range 32).foldl (fun s p => (s.abortTx p).clearPauses p) s
  { s with pxc := { s.pxc with holdoff := [], diag := [] } }

/-- HGC: what it has under way is dropped; a unit that was layered must layer again (R453). -/
def State.clearHedge (s : State) : State :=
  let st := s.hedgeState
  let s : State := { s with hgc := { s.hgc with
    requests := [], unanswered := 0, witLost := false, partner := none, partnerEpoch := none, partnerActive := false
    backlog := [], replay := none, replayDue := [], digests := [], runs := [], second := [], layer := none
    items := [], itemSeqs := [], badKeys := [] } }
  if st = 2 || st = 3 then s.setHedge 1 else s.when (st == 5) (fun s => s.setGap true)

/-- TTU: cached translations go, an invalidation or a sync ends without a result. The dirty marks stay. -/
def State.clearTranslation (s : State) : State :=
  let s := s.when s.ttu.inv.isSome State.trackGive
  let s : State := { s with ttu := { s.ttu with tlb := [], walkCache := [], inv := none, sync := [] } }
  (s.put Reg.TTU_INV_STATUS_BUSY 0).put Reg.TTU_LOG_STATUS_BUSY 0

/-- QE: every ring is disabled and its work abandoned, as under R344. -/
def State.clearQueues (s : State) : State :=
  let s := s.ringsBusy.foldl (fun s r => s.abandonRing r) s
  { s with qe := { s.qe with mediaWait := [], credits := [], ptr := 0 } }

/-- SIE: commands end without a result, connections are aborted with cause ABORT, recordings return to IDLE with their
staged chunks dropped (R451). -/
def State.clearStorage (s : State) : State :=
  let s := s.setCommands []
  let up := s.openConns.filter (fun c => s.get (Reg.CONN_STATE c) != 5)
  let s := up.foldl (fun s c => s.failConn c 6) s
  let s := s.sie.recs.foldl (fun s x => (s.put (Reg.REC_STATE x.index) 0).poolGive (s.get (Reg.REC_FUNC x.index)) 7 x.units) s
  { s with sie := { s.sie with recs := [], taps := [] } }

/-- TE: ACQUIRING, with MEDIA_RUN 0 (R451). -/
def State.clearTime (s : State) : State :=
  let s : State := { s with te := { s.te with goodFreqs := [], badRun := 0, wasLocked := false, awaiting := [] } }
  (s.put Reg.TE_SYNC_STATE_MEDIA_RUN 0).setSync 0

/-- Unit `u` loses its datapath state. -/
def State.clearUnit (s : State) (u : Nat) : State :=
  let s : State := { s with events := s.events.filter (fun e => u == 0 || e.unit != u) }
  match u with
  | 1 => s.clearTime
  | 2 => s.clearPorts
  | 3 => s.clearHeads
  | 5 => { s with rtu := RtuState.reset }
  | 6 => s.clearBuffer
  | 7 => s.clearEgress
  | 9 => s.clearHedge
  | 10 => s.enterStandalone 7
  | 11 => s.clearTranslation
  | 12 => s.clearQueues
  | 13 => s.clearStorage
  | _ => s

/-! ## A unit leaves RUN (R51, R57, R433, R434) -/

/-- The flows that need RTU or CKU and lose it leave the topiary, those of points with their points, and are down (R57, R323). -/
def State.dropFeature (s : State) (flows : List Nat) : State :=
  flows.foldl (fun s f =>
    match s.admittedPoints.find? (fun p => s.get (Reg.POINT_OUT_FLOW p) == f) with
    | some p => (if (s.changeOf true p).isSome then s else s.scheduleRemove true p (s.tick + 2)).markDown true p true
    | none => (if (s.changeOf false f).isSome then s else s.scheduleRemove false f (s.tick + 2)).markDown false f true) s

/-- PXC is not in RUN: no port is UP, and EGU holds nothing toward one. A link that goes down so is flushed under AUTO_FLUSH
(R150). The ports are DOWN with REASON NONE, as before a first attempt, and no LINK_DOWN is raised, since the unit that raises it
does not run (R208, R274; DESIGN CHOICE, log entry 97). -/
def State.portsDark (s : State) : State :=
  ((List.range 32).filter (fun p => s.portState p != 0)).foldl (fun s p =>
    let was := s.portUp p
    let s := ((s.flushPort p).put (Reg.PXC_PORT_STATUS_STATE p) 1).put (Reg.PXC_PORT_STATUS_REASON p) 0
    s.when was (fun s => (s.autoFlush p).forgetPort p)) s

/-- What of a unit's ports and drive goes down with it (R55, R57). The record slot's drive is unpowered, and its presence is
detected again when SIE runs (DESIGN CHOICE, log entry 97). -/
def State.unitDark (s : State) (u : Nat) : State :=
  match u with
  | 2 => s.portsDark
  | 13 => (s.slotDark 0).put Reg.SIE_SLOT_STATUS_PRESENT 0
  | _ => s

/-- Unit `u` leaves RUN by `go`, and what depends on it goes down; below tier 1 there is no media (R55). -/
def State.leaveRun (s : State) (u : Nat) (go : State → State) : State :=
  let up := if u = 5 || u = 8 then s.admittedFlows.filter s.unitsUp else []
  let s := ((go s).clearUnit u).unitDark u
  let s := s.when s.tierZero State.dropMedia
  s.dropFeature (up.filter (fun f => !s.unitsUp f))

/-- Some admitted flow cannot run without CKU. -/
def State.cipherNeeded (s : State) : Bool :=
  let off := s.put (Reg.UNIT_STATE 8) 3
  s.admittedFlows.any (fun f => s.unitsUp f && !off.unitsUp f)

/-- Tier 1 or the media that runs needs unit `u` (R55, R57, R453). -/
def State.mediaNeeds (s : State) (u : Nat) : Bool := mediaUnit u || (u == 8 && s.cipherNeeded)

/-- Unit `u` enters FAILED in RUN. On the active of a pair HGC releases the lease where media goes down (R433). -/
def State.loseUnit (s : State) (u code : Nat) : State :=
  let release := s.pairRole && s.active && s.mediaNeeds u
  let s := s.leaveRun u (fun s => s.failUnit u code)
  s.when release (fun s => s.put Reg.HGC_CTL_RELEASE 1)

/-- BIST has failed: NOT_FIT.BIST stays set until a COLD reset (R322). -/
def State.bistFail (s : State) (u : Nat) : State :=
  let s := s.loseUnit u 1
  s.put Reg.HGC_STATE_NOT_FIT (setBits (s.get Reg.HGC_STATE_NOT_FIT) 4 1 1)

/-- BIST_SLICE (R433): a slice of unit `u` runs; `rotation` says that it completes a rotation of every slice. -/
def execBistSlice (u : Fin 14) (pass rotation : Bool) (s : State) : Host.Outcome State Fault Refusal :=
  if s.get (Reg.UNIT_STATE u) != 2 then ok s
  else
    let s := if pass then s else s.bistFail u
    ok (s.when rotation (fun s =>
      ({ s with sup := { s.sup with bistNs := 0 } } : State).put Reg.SUP_SAFETY_AGE_BIST_AGE 0))

/-! ## The PCIe core (R343, R344, R434) -/

/-- DL_DOWN (R343, R344): the host link goes down. An uncorrectable internal error of the PCIe core takes HIU to FAILED with it
(R434). -/
def execDlDown (how : LinkLoss) (s : State) : Host.Outcome State Fault Refusal :=
  if !s.powered then ok s
  else match how with
    | .down => ok (s.enterStandalone 1).linkGone
    | .hotReset => ok ((s.enterStandalone 1).linkGone.resetFunctions)
    | .fatal => ok ((s.when (s.running .hiu) (fun s => s.loseUnit 10 0x10)).enterStandalone 7).linkGone

/-! ## Scrubbing (R431, R432) -/

/-- The unit that owns a memory, for the payload of ECC_UNCORR. -/
def scrubUnit : ScrubPlace → Nat
  | .frame _ | .pleach _ => 6
  | .classifier _ _ => 3
  | .ftuRecord _ _ _ | .learned _ _ _ => 4
  | .guardStore _ _ => 7
  | .keySlot _ | .sa _ => 8
  | .tlb _ _ => 11
  | .ring _ => 12
  | .safetyCode | .serviceCode => 0
  | .unitState u => u
  | .backlog _ _ _ => 9
  | .chunk _ => 13

/-- The memory that it is, as a row of R431's table. -/
def scrubMemory : ScrubPlace → Nat
  | .frame _ => 0
  | .classifier _ _ => 1
  | .ftuRecord _ _ _ | .learned _ _ _ => 2
  | .pleach _ => 3
  | .guardStore _ _ => 4
  | .keySlot _ => 5
  | .sa _ => 6
  | .tlb _ _ => 7
  | .ring _ => 8
  | .safetyCode => 9
  | .serviceCode => 10
  | .unitState _ => 11
  | .backlog _ _ _ | .chunk _ => 12

/-- A frame of the buffer is lost wherever it stands: a cut-through transmission of it is ended, and its cells are returned
(R431). -/
def State.loseFrame (s : State) (h : Nat) : State :=
  let s := s.settle
  let s := s.egu.tx.foldl (fun s x => if x.2.handle == some h then
    (if x.2.cut then s.endFrame x.1 x.2 else s.abortTx x.1) else s) s
  let mine := (s.egu.queues ++ s.egu.shaper.map (·.2)).filter (fun q => q.handle == h)
  let heads := mine.map (fun q => (q.port, q.dest.tc, s.headOf q.port q.dest.tc))
  let s := mine.foldl (fun s q => s.payDebt q.debt) s
  let s := (s.fpu.inputs.filter (fun x => x.2.handle == h)).foldl (fun s x => s.giveCredit x.2.pipe x.1) s
  let s : State := { s with
    media := { s.media with
      flows := s.media.flows.map (fun (x : Nat × FlowRt) => (x.1, { x.2 with rx := x.2.rx.filter (fun p => p.handle != h) }))
      copies := s.media.copies.map (fun c => { c with handles := c.handles.map (fun x => if x = h then handleCount else x) }) }
    pcu := { s.pcu with reorder := s.pcu.reorder.map (fun r => { r with handles := r.handles.filter (· != h) }) }
    egu := { s.egu with queues := s.egu.queues.filter (fun q => q.handle != h)
                        shaper := s.egu.shaper.filter (fun q => q.2.handle != h) }
    fpu := { s.fpu with voq := s.fpu.voq.filter (fun d => d.handle != h), inputs := s.fpu.inputs.filter (fun x => x.2.handle != h) }
    qe := { s.qe with rxWait := s.qe.rxWait.filter (fun w => w.handle != some h) } }
  let s := heads.foldl (fun s x => s.newHead x.1 x.2.1 x.2.2) s
  s.freeFrame h

/-- An uncorrectable error of unit `u`'s own state (R431): in RUN or in a reset, which then ends, the unit enters FAILED. A unit
that loads has its load's outcome; one that is OFF or FAILED has no state to lose. -/
def State.stateBad (s : State) (u : Nat) : State :=
  match s.get (Reg.UNIT_STATE u) with
  | 2 => s.loseUnit u 3
  | 4 =>
    let s : State := { s with sup := { s.sup with unitReset := none } }
    (s.put Reg.SUP_RESET_STATUS_BUSY (bit s.sup.warmDue)).loseUnit u 3
  | _ => s

/-- What the owner of an uncorrectable word does with it (R431). -/
def State.scrubBad (s : State) : ScrubPlace → State
  | .frame h => s.loseFrame h
  | .learned pipe bucket way =>
    let kept := s.ftu.macLearned.filter (fun x => !(x.pipe == pipe && x.bucket == bucket && x.way == way))
    ({ s with ftu := { s.ftu with macLearned := kept } } : State).countSlots
  | .keySlot slot =>
    if s.slotLive slot then
      let s := s.scheduleErase slot s.tick
      s.eraseStart slot
    else s
  | .sa k => s.put (Reg.SA_VALID k) 0
  | .tlb func base => s.dropEntries (fun e => e.func == func && e.base == base) (fun _ => false)
  | .ring r => if s.ringOn r then s.fetchFail r (s.get (Reg.RING_NEXT r)) else s
  | .safetyCode => s.safeStopFree
  | .serviceCode => s.restartService
  | .unitState u => s.stateBad u
  | .backlog tick flow index =>
    if s.hgc.backlog.any (fun p => p.tick == tick && p.flow == flow && p.index == index) then
      let s := s.bump Reg.HGC_REPLAY_DROPPED
      { s with hgc := { s.hgc with
        backlog := s.hgc.backlog.filter (fun p => !(p.tick == tick && p.flow == flow && p.index == index)) } }
    else s
  | .chunk k =>
    match s.recRt k with
    | some x => if x.staged.isEmpty then s else ((s.setRec { x with staged := x.staged.drop 1 }).dropChunk).recIdle k
    | none => s
  | .classifier pipe entry => s.replicaRepair pipe entry
  | .ftuRecord table index pipe => s.recordRepair pipe table index false
  -- the engine and the calculators meet the word in their next sum and exchange (R181, R190)
  | .pleach point => { s with fpu := { s.fpu with badPoints := point.val :: s.fpu.badPoints.filter (· != point.val) } }
  | .guardStore flow ch => { s with egu := { s.egu with badStores := (flow.val, ch.val) :: s.egu.badStores.filter (· != (flow.val, ch.val)) } }

/-- SCRUB_VISIT (R432, R431): what the scrubber finds, and whether the visit completes a pass over both kinds of memory. -/
def execScrubVisit (found : ScrubFind) (pass : Bool) (s : State) : Host.Outcome State Fault Refusal :=
  let s := match found with
    | .clean => s
    | .corrected => s.bump Reg.SUP_ECC_CORR
    | .bad p => (s.eccUncorr (scrubUnit p) (scrubMemory p)).scrubBad p
  ok (s.when pass (fun s =>
    ({ s with sup := { s.sup with scrubNs := 0 } } : State).put Reg.SUP_SAFETY_AGE_SCRUB_AGE 0))

/-! ## Resets (R450 to R454) -/

/-- A reset command is confirmed, by one who may write SUP_RESET_CTL. -/
def State.resetAllowed (s : State) (r : Requester) (confirm : Nat) : Bool :=
  s.mayWrite r Reg.SUP_RESET_CTL_OP.key && confirm == 0xC96

def State.resetResult (s : State) (code : Nat) : State := s.put Reg.SUP_RESET_STATUS_RESULT code

def State.resetBusy (s : State) : Bool := s.sup.warmDue || s.sup.unitReset.isSome

/-- RESET_COLD (R450): never refused; it takes over from a WARM or UNIT reset (R454). -/
def State.resetCold (s : State) (r : Requester) (confirm : Nat) : State :=
  if s.resetAllowed r confirm then s.coldReset (if r = .frame then 3 else 2) else s

def execResetCold (r : Requester) (confirm : Fin 4096) (s : State) : Host.Outcome State Fault Refusal :=
  ok (s.resetCold r confirm)

/-- RESET_WARM (R451, R453, R454): refused while the unit is ACTIVE; accepted during a UNIT reset, which it covers. -/
def State.resetWarm (s : State) (r : Requester) (confirm : Nat) : State :=
  if !s.resetAllowed r confirm || s.sup.warmDue then s
  else if s.pairRole && s.active then s.resetResult 1
  else
    let s : State := { s with sup := { s.sup with warmDue := true } }
    ((s.resetResult 0).put Reg.SUP_RESET_STATUS_BUSY 1).refreshFit

def execResetWarm (r : Requester) (confirm : Fin 4096) (s : State) : Host.Outcome State Fault Refusal :=
  ok (s.resetWarm r confirm)

/-- RESET_UNIT (R452, R453). A unit that the image leaves OFF, or that is still loading, has nothing to reset. -/
def State.resetUnit (s : State) (r : Requester) (confirm u : Nat) : State :=
  if !s.resetAllowed r confirm || s.resetBusy then s
  else if u = 0 || 13 < u then s.resetResult 2
  else if s.pairRole && s.active && s.mediaNeeds u then s.resetResult 1
  else if s.get (Reg.UNIT_STATE u) < 2 then s.resetResult 0
  else
    let s : State := { s with sup := { s.sup with unitReset := some u } }
    let s := (s.resetResult 0).put Reg.SUP_RESET_STATUS_BUSY 1
    s.leaveRun u (fun s => (s.powerUnit u true).setUnit u 4)

def execResetUnit (r : Requester) (confirm : Fin 4096) (unit : Fin 16) (s : State) : Host.Outcome State Fault Refusal :=
  ok (s.resetUnit r confirm unit)

/-- UNIT_RESET_DONE (R452): the unit's BIST slices have run. -/
def execUnitResetDone (bistOk : Bool) (s : State) : Host.Outcome State Fault Refusal :=
  match s.sup.unitReset with
  | none => ok s
  | some u =>
    let s : State := { s with sup := { s.sup with unitReset := none } }
    let s := s.put Reg.SUP_RESET_STATUS_BUSY (bit s.sup.warmDue)
    ok (if bistOk then (s.setUnit u 2).when (u = 7) State.pinsAtRun else s.bistFail u)

/-- WARM_RESET_EFFECTIVE (R451): the datapath is cleared, the books start over, and the reset completes. HIU keeps its link
and MODE; only its tags are free. A UNIT reset that ran is covered (R454). EGU samples the override pins again (R452). -/
def execWarmResetEffective (s : State) : Host.Outcome State Fault Refusal :=
  if !s.sup.warmDue then ok s
  else
    let s := [12, 13, 11, 7, 2, 3, 6, 5, 1, 4, 8, 9].foldl (fun s u => s.clearUnit u) s
    let s : State := { s with
      events := s.events.filter (fun e => e.unit == 0)
      hiu := { s.hiu with tags := [], queue := [], tagDiff := none }
      pcu := { s.pcu with reorder := [] }
      qe := { s.qe with rxWait := [] } }
    let s := s.endFlrs.countTags.put Reg.SUP_TRACK_STATUS_HELD 0
    let covered := s.sup.unitReset
    let s : State := { s with sup := { s.sup with warmDue := false, unitReset := none, trackDiff := 0, bookFails := [] } }
    let s := s.put Reg.SUP_RESET_STATUS_BUSY 0
    let s := match covered with | some u => s.setUnit u 2 | none => s.refreshFit
    ok (s.when (s.running .egu) State.pinsAtRun)

end Sys2Proof.Machine
end

