-- ==== Sys2Proof/Machine/Load.lean ====
section
/-! DEFINITION. Loading the units from the image (R50 to R52, R82, R154, R247, R272, R296, R364). -/

namespace Sys2Proof.Machine

/-- The fixed order of loading (R50). -/
def loadOrder : List Nat := [0, 10, 1, 2, 3, 4, 5, 6, 7, 8, 9, 11, 12, 13]

/-! ## What a unit's load refuses -/

/-- SPEED and FEC of a port under its quad's MODE (R271, R272), and its MTU. -/
def State.portOk (s : State) (p : Nat) : Bool :=
  let speed := s.get (Reg.PXC_PORT_CFG_SPEED p)
  let fec := s.get (Reg.PXC_PORT_CFG_FEC p)
  let mtu := s.get (Reg.PXC_PORT_CFG_MTU p)
  let fits := match s.get (Reg.PXC_QUAD_CFG_MODE (p / 4)) with
    | 1 => speed == 6
    | 2 => speed == 5
    | 3 => speed == 4
    | 4 => 1 ≤ speed && speed ≤ 3
    | _ => false
  let fecOk := if 3 ≤ speed then fec == 3 else if speed = 2 then fec != 3 else fec ≤ 1
  fits && fecOk && 64 ≤ mtu && mtu ≤ 9216

/-- The lane map (R271, R272), and the PTP ports it must hold. -/
def State.lanesOk (s : State) : Bool :=
  let ports := (List.range 32).filter s.portExists
  (List.range 8).all (fun q => s.get (Reg.PXC_QUAD_CFG_MODE q) ≤ 4) && ports.all s.portOk &&
    sumOf ports s.portRate ≤ 1600 && (onesOf (s.get Reg.TE_PTP_PORTS) 32).all s.portExists

def laneWidth (n : Nat) : Bool := [1, 2, 4, 8, 16].contains n

/-- The device capacities of the pools (R364). -/
def poolCapacity (k : Nat) : Nat := [131072, 65536, 65536, 8192, 16384, 131072, 393216, 16384].getD k 0

/-- The words just loaded are ones that unit `u` accepts. RESERVE_PCT is not among the checks: what an image with a reserve outside
5 to 50 % does is not stated, and the model uses the value as written (R18; DESIGN CHOICE, log entry 90). -/
def State.loadFits (s : State) (u : Nat) (part : ImagePart) (graph : Bytes) : Bool :=
  match u with
  | 1 => s.get Reg.TE_CFG_PERIOD ≤ 4 && s.get Reg.TE_CFG_ROLE ≤ 1
  | 2 => s.lanesOk && part.ports.all (fun p => s.portExists p)
  | 3 => graphOk graph
  | 7 => (s.rangeWords 0x07100000 0x40000).all (fun x => bits x.2 29 2 != 3)
  | 8 => (List.range 32).all (fun p => !s.macsecOn p || 2 ≤ s.get (Reg.PXC_PORT_CFG_SPEED p))
  | 9 => s.get Reg.HGC_CFG_ROLE ≤ 2 &&
      (s.get Reg.HGC_CFG_ROLE == 0 || (3 ≤ s.get Reg.HGC_CFG_LEASE_L && s.get Reg.HGC_CFG_LEASE_L ≤ 64))
  | 10 =>
    let hi := s.get Reg.HIU_LINK_CFG_MAX_SPEED
    let lo := s.get Reg.HIU_LINK_CFG_MIN_SPEED
    1 ≤ hi && hi ≤ 6 && 4 ≤ lo && lo ≤ 6 && laneWidth (s.get Reg.HIU_LINK_CFG_MAX_WIDTH) &&
      laneWidth (s.get Reg.HIU_LINK_CFG_MIN_WIDTH) && s.get Reg.HIU_LINK_CFG_MIN_WIDTH ≤ s.get Reg.HIU_LINK_CFG_MAX_WIDTH
  | 11 => (List.range 8).all (fun k => s.poolCap k ≤ poolCapacity k && s.limitSum k ≤ s.poolCap k)
  | 13 => 1 ≤ s.get Reg.SIE_SLOT_CFG_SPEED && s.get Reg.SIE_SLOT_CFG_SPEED ≤ 5
  | _ => true

/-! ## What a unit's load starts -/

/-- Both banks of a unit's part of the versioned set hold the image's entries. -/
def State.loadBanks (s : State) (u : Nat) : State :=
  (bankWindows.filter (fun w => unitOfKey w.1 == u)).foldl (fun s w =>
    let l := s.rangeWords w.1 w.2.1
    w.2.2.foldl (fun s b => s.putRange b w.2.1 l) s) s

/-- A KEK_BLOBS entry that fails (R247). -/
def State.kekFail (s : State) (slot : Nat) : State := (s.hlog 5 8 (payload [(8, slot)])).raise .cku 4 []

/-- The 10 info bytes "CK9620-KEK" (R247). -/
def kekInfo : Bytes := [0x43, 0x4B, 0x39, 0x36, 0x32, 0x30, 0x2D, 0x4B, 0x45, 0x4B]

/-- The KEK of a 144-byte KEK_BLOBS entry, or none (R247): the wrapping key comes of the ECDH secret of EPHEMERAL, 97 bytes at
offset 4, and the device private key; it unwraps BLOB, 40 bytes at offset 104. -/
def State.kekOf (s : State) (e : Bytes) : Option Bytes :=
  (Config.ecdh (Config.devicePrivate s.sup.deviceSecret) (sliceB e 4 97)).bind fun secret =>
    Config.keyUnwrap (Config.hkdf secret kekInfo) (sliceB e 104 40)

/-- KEK_BLOBS (R247): two entries that name one slot both fail. -/
def State.loadKeks (s : State) (b : Bytes) : State :=
  let n := beAt b 0 1
  let l := (List.range n).map (fun i => sliceB b (16 + 144 * i) 144)
  let slotOf := fun (e : Bytes) => beAt e 0 1
  l.foldl (fun s e =>
    let k := slotOf e
    let alone := decide ((l.filter (fun x => slotOf x == k)).length = 1) && k < 16
    match if alone then s.kekOf e else none with
    | some kek =>
      ({ s with cku := { s.cku with keks := Assoc.set s.cku.keks k kek } } : State).put Reg.CKU_KEK_STATE_LOADED
        (setBits (s.get Reg.CKU_KEK_STATE_LOADED) k 1 1)
    | none => s.kekFail k) s

/-- HGC takes its role (R296, R297, R307, R309): a member forms, or is fenced under a held cause, or in FALLBACK where it is not
the unit that the image names; a witness opens its restart window. Without a HEDGE section the role is SOLO: loadUnit has put it
there before (R40). -/
def State.startHedge (s : State) : State :=
  match s.get Reg.HGC_CFG_ROLE with
  | 1 =>
    let s := s.setHedge 1
    let s := s.refreshTime
    if s.get Reg.HGC_SELF_ID != s.sup.otpMac then s.pairRefused 2
    else
      let causes := s.hgc.heldCauses ++ (if s.flag Reg.SUP_SAFETY_STATUS_SAFE_STOP then [6] else [])
      causes.foldl (fun s c => s.fence c) s
  | 2 =>
    (List.range 16).foldl (fun s k =>
      (s.put (witRestart k) 1).put (witEpoch k) (s.rd (0x09009000 + 4 * k) % 256)) (s.put Reg.HGC_STATE_STATE 7)
  | _ => s

/-- What follows from the words of unit `u`. -/
def State.loadStarts (s : State) (u : Nat) (part : ImagePart) (graph keks : Bytes) : State :=
  match u with
  | 1 => s.setCapacities
  | 2 =>
    let s : State := { s with te := { s.te with homes := part.homes.map (fun x => (x.1, x.2.val)) } }
    let s := (List.range 8).foldl (fun s q => if s.get (Reg.PXC_QUAD_CFG_MODE q) = 0 then s else s.lockPll (8 + q)) s
    let s := ((List.range 32).filter s.portExists).foldl (fun s p =>
      (s.put (Reg.PXC_PORT_STATUS_STATE p) 1).put (Reg.PXC_PORT_STATUS_CT_STEP p) (s.get (Reg.PXC_PORT_CFG_CT_BASE p))) s
    s.setCapacities.powerUnit 2 true
  | 3 =>
    let s : State := { s with pcu := { s.pcu with graph := graph } }
    let own := (s.rangeWords 0x11000000 0x100000).filterMap (fun p => if p.1 % 128 == 124 then some (p.1 / 128) else none)
    let s : State := { s with pcu := { s.pcu with imageStaged := own, imageNow := own } }
    s.classifierFuncs.foldl (fun s f => s.recountClassifier f) (s.loadBanks 3)
  | 4 =>
    let lpm := part.lpm.map (fun x => { x with stagedValid := true, validNow := true, nhNow := x.stagedNh })
    let mac := part.macStatic.map (fun x =>
      { x with stagedValid := true, validNow := true, kindNow := x.stagedKind, targetNow := x.stagedTarget })
    let s : State := { s with ftu := { s.ftu with lpm := lpm, macStatic := mac }
                              sup := { s.sup with initFlows := part.flows.map (·.val) } }
    (s.loadBanks 4).countSlots
  | 6 => ({ s with sup := { s.sup with initPoints := part.points.map (·.val) } } : State).loadBanks 6
  | 8 => s.loadKeks keks
  | 9 =>
    let s : State := { s with
      sup := { s.sup with imagePair := false }
      hgc := { s.hgc with
        showHash := part.showHash.toNat
        regions := part.regions.map (·.val)
        members := part.members.map (fun x => (x.1, x.2.1, x.2.2.toNat)) } }
    ((if s.pairRole then s.lockPll 5 else s).powerUnit 9 true).startHedge
  | 10 => s.lockPll 7
  | 13 => s.lockPll 6
  | _ => s

/-! ## The end of the load -/

/-- An initial flow or point is admitted for the first tick of R68, or not placed (R82). -/
def State.placeInitial (s : State) (isPoint : Bool) (id : Nat) : State :=
  match s.admitCheckFor isPoint true id 0 with
  | .ok _ b => s.scheduleAdd isPoint id none b
  | .fail _ row =>
    let p := [(16, id), (8, row)]
    ((s.hlog 4 1 (payload p)).raise .te 8 []).put (if isPoint then downPointBit id else downFlowBit id) 1

/-- Every unit is loaded: the initial admissions run, SECVER is committed, and STAGE is RUN (R51, R61, R82). -/
def State.finishLoad (s : State) : State :=
  let s := (s.sup.initFlows.mergeSort (· ≤ ·)).foldl (fun s f => s.placeInitial false f) s
  let s := (s.sup.initPoints.mergeSort (· ≤ ·)).foldl (fun s p => s.placeInitial true p) s
  let secver := s.sup.image.secver
  let s := if s.sup.image.commit && s.sup.otpSecver < secver then
      ({ s with sup := { s.sup with otpSecver := secver } } : State).put Reg.SUP_OTP_STATUS_MIN_SECVER secver
    else s
  (s.put Reg.SUP_BOOT_STATUS_STAGE 3).clearSkips

/-- A word of the image that unit `u` may be given: its own registers above 0x1000 and its windows; PXC's lane map also carries
SUP_MGMT_CFG (R292). -/
def imageWord (u k : Nat) : Bool :=
  (unitOfKey k == u && k < 0x20000000 && (0x10000000 ≤ k || 0x1000 ≤ k % 0x1000000)) || (u == 2 && k == 0x1300)

/-- A section of unit `u` that the booted slot holds. -/
def State.unitSection (s : State) (slot type : Nat) : Bytes :=
  match s.bootSection type with | some e => s.sectionBytes slot e | none => []

/-- FTU takes its shadow's region, and its records of the tables are written there (R154). -/
def State.takeShadow (s : State) (part : ImagePart) : State :=
  ({ s with ftu := { s.ftu with shadow := part.shadow.map (·.val) } } : State).shadowWrite

/-- Load unit `u`: BIST, sections, words, seal, RUN. -/
def State.loadUnit (s : State) (slot u : Nat) (bistOk loadOk : Bool) (part : ImagePart) : State :=
  let s := (s.powerUnit u true).setUnit u 1
  let s := s.when (u == 4) (fun s => s.takeShadow part)
  if !bistOk then
    let s := s.failUnit u 1
    s.put Reg.HGC_STATE_NOT_FIT (setBits (s.get Reg.HGC_STATE_NOT_FIT) 4 1 1)
  else
    let graph := s.unitSection slot 0xA
    let s := s.wrAll ((part.words.filter (fun x => imageWord u x.1)).map (fun x => (x.1, x.2.toNat)))
    let s := s.when (u == 9 && (s.bootSection 0xF).isNone) (fun s => s.put Reg.HGC_CFG_ROLE 0)
    if !loadOk || !s.loadFits u part graph || (u == 4 && part.shadow.isNone) then s.failUnit u 2
    else
      let s := s.loadStarts u part graph (s.unitSection slot 0xE)
      let s := (s.put (Reg.UNIT_SEALED u) 1).put Reg.SUP_SEAL_STATE_SEALED (setBits (s.get Reg.SUP_SEAL_STATE_SEALED) u 1 1)
      ((s.setUnit u 2).when (u == 9) State.refreshFit).when (u == 7) State.pinsAtRun

/-- The HBM regions in which a unit keeps tables (R48): FTU's shadow (R154); those of HGC's backlog and SIE's chunks, whose place
the spec does not give and the section names (log entry 33). -/
def unitRegions (part : ImagePart) (u : Nat) : List (Fin 64) :=
  if u = 4 then part.shadow.toList else if u = 9 || u = 13 then part.regions else []

/-- UNIT_LOAD (R50, R51): the next unit of the order; a digest that fails, or a read that fails in the declared mode (R36), retries
the other slot. A unit that keeps tables in HBM stays LOADING, to be loaded again, while its regions are not filled, since it is
not sealed before (R48). -/
def execUnitLoad (u : Fin 14) (used bistOk loadOk : Bool) (part : ImagePart) (s : State) : Host.Outcome State Fault Refusal :=
  match s.sup.bootSlot with
  | none => ok s
  | some slot =>
    if !s.sup.firmware || loadOrder[s.sup.loaded]? != some u.val then ok s
    else if used && bistOk && part.readFail then ok (s.slotRetry 0x0E)
    else if used && bistOk && s.sup.image.map.any (fun e => typeUnit e.type == u.val && !s.digestOk slot e) then ok (s.slotRetry 0x0D)
    else if used && bistOk && loadOk && (unitRegions part u).any (fun k => !s.flag (fillBit k)) then
      ok (((s.powerUnit u true).setUnit u 1).when (u.val == 4) (fun s => s.takeShadow part))
    else
      let s := if used then s.loadUnit slot u bistOk loadOk part else s.powerUnit u false
      let s : State := { s with sup := { s.sup with loaded := s.sup.loaded + 1 } }
      ok (if s.sup.loaded = 14 then s.finishLoad else s)

end Sys2Proof.Machine
end

