-- ==== Sys2Proof/Machine/Registers.lean ====
section
/-! DEFINITION. What a register write does, whatever its register (R9, R10): a register whose write is a command runs that
command; the others take their value, or discard it. Register writes, pair writes, register frames (R293, R294) and the
writes held for the service cores (R427). -/

namespace Sys2Proof.Machine

/-- The state a command leaves. -/
def State.after (s : State) (o : Host.Outcome State Fault Refusal) : State := match o with | .next t => t | _ => s

/-- Bits 31:28 of a command register. -/
def opOf (v : Nat) : Nat := v / 2 ^ 28

/-! ## PF0 BAR0 -/

def State.writeSup (s : State) (r : Requester) (k v : Nat) : State :=
  if k = 0x1028 then
    if v % 4 = 1 then s.fuseKey 0
    else if v % 4 = 2 then s.fuseKey 1
    else if s.fuseOpen then s
    else s.fuseRefused (v % 4)
  else if k = 0x1040 then (if 1 ≤ v % 16 && v % 16 ≤ 3 then s.flashStart (v % 16) else s)
  else if k = 0x1600 then
    match opOf v with
    | 1 => s.resetCold r (bits v 16 12)
    | 2 => s.resetWarm r (bits v 16 12)
    | 3 => s.resetUnit r (bits v 16 12) (v % 16)
    | _ => s
  else if k = 0x1644 then s.writeWarn r v
  else if (k = 0x1044 || inRange k 0x1100 0x100) && s.flag Reg.SUP_FLASH_CTL_BUSY then s
  else s.writeWord r k v

/-- A write in TE's space. ADD_POINT and REMOVE_POINT take the ID of TE_ADMIT_CMD modulo 8,192 (R86; the spec does not say what a
greater ID does: DESIGN CHOICE, log entry 100). -/
def State.writeTe (s : State) (r : Requester) (k v : Nat) : State :=
  if k = 0x0100103C then (if bitAt v 0 then s.after (execRestep r s) else s)
  else if k = 0x01001100 then
    match opOf v with
    | 1 => s.after (execAddFlow r (Fin.ofNat 65536 v) s)
    | 2 => s.after (execRemoveFlow r (Fin.ofNat 65536 v) s)
    | 3 => s.after (execAddPoint r (Fin.ofNat 8192 v) s)
    | 4 => s.after (execRemovePoint r (Fin.ofNat 8192 v) s)
    | 5 => s.after (execCheckFlow r (Fin.ofNat 65536 v) s)
    | _ => s
  else s.writeWord r k v

def State.writePxc (s : State) (r : Requester) (k v : Nat) : State :=
  let p := k % 0x100 / 4
  if inRange k 0x02001100 0x80 then s.writeCtBase r p v
  else if inRange k 0x02001300 0x80 then s.writeVlan r false p v
  else if inRange k 0x02001400 0x80 then s.writeVlan r true p v
  else if inRange k 0x02001500 0x80 then s.writePause r p v
  else if k = 0x02001700 then
    if 1 ≤ v / 65536 && v / 65536 ≤ 1000 && 1 ≤ v % 65536 && v % 65536 ≤ 1000 then s.writeWord r k v else s
  else if k = 0x02001800 then
    if s.flag Reg.PXC_STATS_CTL_BUSY then s
    else
      let s := s.put Reg.PXC_STATS_CTL_TICK_ALIGN (bits v 1 1)
      if bitAt v 0 then s.snap r else s
  else if k = 0x02001804 && s.flag Reg.PXC_STATS_CTL_BUSY then s
  else s.writeWord r k v

/-- The control word of a commit: LOST clears where 1 is written, COMMIT starts one. -/
def State.commitWord (s : State) (lost : Field) (v : Nat) (go : State → State) : State :=
  let s := if bitAt v 8 then s.put lost 0 else s
  if bitAt v 0 then go s else s

def State.writePcu (s : State) (r : Requester) (k v : Nat) : State :=
  if k = 0x03001008 then s.commitWord Reg.PCU_TBL_CTL_LOST v (fun s => s.after (execTblCommit r s)) else s.writeWord r k v

def State.writeFtu (s : State) (r : Requester) (k v : Nat) : State :=
  if k = 0x04001000 then
    let u := bits v 16 10
    let l := bits v 0 11
    if 1 ≤ u && u ≤ 1000 && 1 ≤ l && l ≤ 1900 then s.writeWord r k v else s
  else if k = 0x04001118 then
    match opOf v with
    | 1 => s.after (execLpmInsert r s)
    | 2 => s.after (execLpmDelete r s)
    | 3 => s.after (execLpmRead r s)
    | _ => s
  else if k = 0x0400120C then
    match opOf v with
    | 1 => s.after (execInsertStatic r s)
    | 2 => s.after (execDeleteStatic r s)
    | 3 => s.after (execMacRead r (Fin.ofNat 4 (bits v 26 2)) s)
    | 4 => s.after (execMacFlush r (bitAt v 25) (bitAt v 24) (Fin.ofNat 32 (bits v 16 5)) s)
    | _ => s
  else if k = 0x04001208 && s.flag Reg.FTU_MAC_OP_STATUS_BUSY then s
  else s.writeWord r k v

def State.writeRtu (s : State) (r : Requester) (k v : Nat) : State :=
  if k = 0x05001000 then
    match opOf v with
    | 1 => s.after (execProgWrite r (Fin.ofNat 32768 v) s)
    | 2 => s.after (execProgRead r (Fin.ofNat 32768 v) s)
    | _ => s
  else if 0x05400000 ≤ k then s
  else s.writeWord r k v

def State.writeFpu (s : State) (r : Requester) (k v : Nat) : State :=
  if inRange k 0x06001040 0x20 && v / 65536 < v % 65536 then s else s.writeWord r k v

def State.writeEgu (s : State) (r : Requester) (k v : Nat) : State :=
  if inRange k 0x07008000 0x400 then
    if k % 16 / 4 = 3 then s.writeWord r k v else s.writeLimit r ((k - 0x07008000) / 16) (k % 16 / 4) v
  else if k = 0x07008400 then
    match opOf v with
    | 1 => s.rearmCmd r (v % 65536)
    | 2 => s.guardQueryCmd r (v % 65536)
    | _ => s
  else if k = 0x07008508 then s.writeForce r v
  else if k = 0x07008600 then s.writeSideband r v
  else if k = 0x07001100 then s.commitWord Reg.EGU_GATE_CTL_LOST v (fun s => s.gateCommit r)
  else if k = 0x07001308 then s.writeTelemCfg r v
  else if k = 0x07001314 then s.writeTelemCons r v
  else if inRange k 0x07002000 0x400 then s.writeSlope r ((k - 0x07002000) / 4) v
  else if inRange k 0x07002400 0x400 then s.writeCreditLimit r ((k - 0x07002400) / 4) v
  else if inRange k 0x07004000 0x2000 then s.writeGate r ((k - 0x07004000) / 4) v
  else if inRange k 0x07200000 0x40000 then s.writeInstance r ((k - 0x07200000) / 16) (k % 16 / 4) v
  else if inRange k 0x07260000 0x8000 then s.writeMapWord r ((k - 0x07260000) / 8) (k % 8 / 4) v
  else s.writeWord r k v

def State.writeCku (s : State) (r : Requester) (k v : Nat) : State :=
  if k = 0x08001000 then
    match opOf v with
    | 1 => s.keyLoad r (v % 65536)
    | 2 => s.keyRewrite r (v % 65536)
    | 3 => s.keyErase r (v % 65536)
    | _ => s
  else if inRange k 0x08001100 0x60 then s.wr k v
  else if inRange k 0x08400000 0x80000 then s.writeSa r ((k - 0x08400000) / 32) (k % 32 / 4) v
  else if inRange k 0x08480000 0x4000 then s.writeRxSc r ((k - 0x08480000) / 4) v
  else s.writeWord r k v

def State.writeHgc (s : State) (r : Requester) (k v : Nat) : State :=
  if k = 0x09001070 then
    let s := (s.writeFence r (bitAt v 0)).writeHold r (bitAt v 2)
    let s := if bitAt v 1 then s.writeRelease r else s
    if bitAt v 3 then s.writeLayer r else s
  else s.writeWord r k v

/-- Vector Control of an MSI-X entry: where the mask bit clears, a pending message may go out (R341). -/
def State.writeVector (s : State) (r : Requester) (func vec k v : Nat) : State :=
  let s' := s.writeWord r k v
  s'.when (bitAt (s.rd k) 0 && !bitAt v 0 && !s.hiu.vfD3.contains func) (fun s => s.sendPending func vec)

def State.writeHiu (s : State) (r : Requester) (k v : Nat) : State :=
  if k = 0x0A00100C then s.adopt r (v % 65536) none
  else if k = 0x0A001010 then s.writeWdogCfg r v
  else if k = 0x0A001014 then s.wdogKick r
  else if k = 0x0A001020 then
    let cap := bits v 16 13
    let w := bits v 0 10
    if 1 ≤ cap && cap ≤ 4096 && 16 ≤ w && w ≤ 512 then s.writeWord r k v else s
  else if inRange k 0x0A010000 0x8000 && k % 16 = 12 then s.writeVector r 0 ((k - 0x0A010000) / 16) k v
  else s.writeWord r k v

def State.writeTtu (s : State) (r : Requester) (k v : Nat) : State :=
  let f := v % 4096
  if k = 0x0B001000 then
    match opOf v with
    | 1 => s.after (execInvAll r s)
    | 2 => s.after (execInvFunc r (Fin.ofNat 4096 f) s)
    | 3 => s.invRange r f (bits v 18 5)
    | _ => s.invOther r
  else if k = 0x0B001100 then (if opOf v = 1 then s.logSync r f else s)
  else if k = 0x0B001200 then s.poolCmd r (opOf v) (bits v 24 4) f
  else if k = 0x0B002200 then s.after (execMbxSendToVf r (Fin.ofNat 4096 f) s)
  else if k = 0x0B002204 then s.after (execMbxAckByPf r (Fin.ofNat 4096 f) s)
  else if inRange k 0x0B100000 0x20000 then s.writeCtx r ((k - 0x0B100000) / 32) (k % 32 / 4) v
  else s.writeWord r k v

def State.writeQe (s : State) (r : Requester) (k v : Nat) : State :=
  if inRange k 0x0C200000 0x80000 then s.doorbell r ((k - 0x0C200000) / 4) (bitAt v 31) (v % 2 ^ 24)
  else if inRange k 0x0C400000 0x800000 then s.writeContext r ((k - 0x0C400000) / 64) (k % 64 / 4) v
  else s.writeWord r k v

def State.writeSie (s : State) (r : Requester) (k v : Nat) : State :=
  if k = 0x0D001000 then (if 10 ≤ v % 65536 && v % 65536 ≤ 60000 then s.writeWord r k v else s)
  else if k = 0x0D001100 then (if 1 ≤ opOf v && opOf v ≤ 3 then s.connCmd r (opOf v) (v % 8192) else s)
  else if k = 0x0D001204 then
    let s := s.put Reg.SIE_SLOT_CTL_ATTN_IND (bits v 3 1)
    let s := if bitAt v 0 then s.powerOn r else s
    if bitAt v 1 then s.slotRemove r else s
  else if k = 0x0D001300 then (if 1 ≤ opOf v && opOf v ≤ 2 then s.recCmd r (opOf v) (v % 64) else s)
  else if inRange k 0x0D100000 0x80000 then s.writeConn r ((k - 0x0D100000) / 64) (k % 64 / 4) v
  else if inRange k 0x0D180000 0x800 then s.writeNamespace r ((k - 0x0D180000) / 32) (k % 32 / 4) v
  else if inRange k 0x0D190000 0x4000 then s.writeRecording r ((k - 0x0D190000) / 256) (k % 256 / 4) v
  else s.writeWord r k v

/-! ## PF0 BAR2, and the VF spaces -/

def State.writeBar2 (s : State) (r : Requester) (k v : Nat) : State :=
  let off := k - 0x10000000
  let x := BitVec.ofNat 32 v
  if k < 0x11000000 then s.writeMailbox r (off / 0x1000) (off % 0x1000 / 4) v
  else if k < 0x12000000 then s.after (execStagedWrite r off x s)
  else if k < 0x12800000 then s.after (execFlowEntryWrite r (Fin.ofNat 65536 ((k - 0x12000000) / 128)) (Fin.ofNat 32 (k % 128 / 4)) x s)
  else if k < 0x13000000 then s.after (execFtuWindowWrite r off x s)
  else if k < 0x13200000 then
    let t := Fin.ofNat 131072 ((k - 0x13000000) / 16)
    match k % 16 / 4 with
    | 0 => s.after (execTermWrite r t x s)
    | 1 => s.after (execGainRequest r t x s)
    | _ => s
  else if k < 0x13240000 then s.after (execPointWrite r (Fin.ofNat 8192 ((k - 0x13200000) / 32)) (Fin.ofNat 8 (k % 32 / 4)) x s)
  else s.after (execListWrite r off x s)

/-- Registers of VF `f`, written by the VF itself. -/
def State.writeVf (s : State) (r : Requester) (f k v : Nat) : State :=
  let o := k % 0x10000
  if !s.shows k then s
  else if o < 0x8000 then s.doorbell r (o / 4) (bitAt v 31) (v % 2 ^ 24)
  else if o = 0x9000 then
    let s := if bitAt v 16 then s.put (Reg.TTU_VF_MBX_ERR_LEN f) 0 else s
    let s := if bitAt v 0 then s.mbxSend false f else s
    if bitAt v 1 then s.mbxAck true f else s
  else if 0x9140 ≤ o && o < 0x9180 then
    match s.vfRing f (s.get (Reg.QE_VF_RING_SEL f)) with
    | some q => s.writeContext r q ((o - 0x9140) / 4) v
    | none => s
  else if 0x9800 ≤ o && o < 0x9C00 && o % 16 = 12 then s.writeVector r f ((o - 0x9800) / 16) k v
  else s.writeWord r k v

/-- A write of one word. The manager reaches PF0's two spaces, a VF its own (R8); a hidden register discards it (R30). -/
def State.routeWord (r : Requester) (k v : Nat) (s : State) : State :=
  if 0x20000000 ≤ k then s.writeVf r ((k - 0x20000000) / 0x10000) k v
  else if 0x10000000 ≤ k then s.writeBar2 r k v
  else if !s.mayWrite r k then s
  else match k / 0x1000000 with
    | 0 => s.writeSup r k v
    | 1 => s.writeTe r k v
    | 2 => s.writePxc r k v
    | 3 => s.writePcu r k v
    | 4 => s.writeFtu r k v
    | 5 => s.writeRtu r k v
    | 6 => s.writeFpu r k v
    | 7 => s.writeEgu r k v
    | 8 => s.writeCku r k v
    | 9 => s.writeHgc r k v
    | 10 => s.writeHiu r k v
    | 11 => s.writeTtu r k v
    | 12 => s.writeQe r k v
    | _ => s.writeSie r k v

/-- A write of a whole 64-bit register or pair. -/
def State.routePair (r : Requester) (k v : Nat) (s : State) : State :=
  if 0x20000000 ≤ k && k % 0x10000 = 0x9400 then
    let s := (s.wr k (v % 2 ^ 32)).wr (k + 4) (v / 2 ^ 32)
    s.after (execVfGainRequest (Fin.ofNat 4096 ((k - 0x20000000) / 0x10000)) (Fin.ofNat 131072 (v / 2 ^ 32)) (BitVec.ofNat 32 v) s)
  else if k < 0x20000000 && !s.mayWrite r k then s
  else if isMapEntry k then s.writeMap r ((k - 0x07260000) / 8) v
  else if k = 0x03001010 && s.tblBusy then s.writeLost
  else if k = 0x07001108 && s.flag Reg.EGU_GATE_CTL_BUSY then s.put Reg.EGU_GATE_CTL_LOST 1
  else if k = 0x07001300 && s.flag Reg.EGU_TELEM_CFG_EN then s
  else if (k = 0x0B001008 || k = 0x0B001010) && s.flag Reg.TTU_INV_STATUS_BUSY then s.put Reg.TTU_INV_STATUS_LOST 1
  else if k = 0x04001200 && s.flag Reg.FTU_MAC_OP_STATUS_BUSY then s
  else s.writePair r k v

/-- A write at a key by 4 or 8 bytes. -/
def State.writeKey (s : State) (r : Requester) (k size v : Nat) : State :=
  s.writeKeyVia r (State.routeWord r) (State.routePair r) k size v

/-- A write on the bus. -/
def State.busWrite (s : State) (r : Requester) (a : Addr) (size v : Nat) : State :=
  s.busWriteVia r (State.routeWord r) (State.routePair r) State.configWrite a size v

/-- REGISTER_WRITE (R9, R10). `walks` serves a write that is a doorbell. -/
def execRegisterWrite (r : Requester) (a : Addr) (size : Nat) (v : BitVec 64) (walks : List Walk8) (s : State) :
    Host.Outcome State Fault Refusal :=
  ok (s.withWalks walks (fun s => s.busWrite r a size v.toNat))

/-- PAIR_LO_WRITE (R13): the low half is held. -/
def execPairLoWrite (r : Requester) (a : Addr) (v : Word) (s : State) : Host.Outcome State Fault Refusal :=
  ok (s.busWrite r a 4 v.toNat)

/-- PAIR_HI_WRITE (R13): a held low half is committed with it, or the high half alone changes. -/
def execPairHiWrite (r : Requester) (a : Addr) (v : Word) (s : State) : Host.Outcome State Fault Refusal :=
  ok (s.busWrite r a 4 v.toNat)

/-! ## Register frames (R293, R294) -/

/-- The management port keeps the frame: untagged, addressed to SUP_MGMT_MAC or broadcast (R292). -/
def State.mgmtKeeps (s : State) (l : Bytes) : Bool :=
  (beAt l 0 6 == s.get Reg.SUP_MGMT_MAC || beAt l 0 6 == 2 ^ 48 - 1) && tagCount l == 0

/-- A register frame: kept, and of EtherType 0x88B6 (R292, R293). -/
def State.frameMine (s : State) (l : Bytes) : Bool := 26 ≤ l.length && s.mgmtKeeps l && beAt l 12 2 == 0x88B6

/-- Any other frame that the management port keeps enters the distributor from source SUP (R107, R292); the spec gives it no
home pipeline for media, and it takes pipeline 0 (DESIGN CHOICE, log entry 92). -/
def State.mgmtFrame (s : State) (l : Bytes) : State :=
  if s.flag Reg.SUP_MGMT_STATUS_UP && s.running .pcu && s.mgmtKeeps l && 60 ≤ l.length then
    s.distribute ⟨34, 0, l, l.length, 0, 0, false, true, false, s.looksMedia l, none, none, 0, 0, .none⟩ 0
  else s

/-- In tier 0, or with the service cores held stopped, only SUP's registers are served (R294, R58, R427). -/
def State.framesSupOnly (s : State) : Bool :=
  s.tierZero || s.flag Reg.SUP_SAFETY_STATUS_SVC_HALTED

/-- Register frames are served in tier 0, by the recovery monitor or by the supervisor firmware once it runs, and in tiers 1
and 2 by that firmware with REG_EN (R293). -/
def State.framesServed (s : State) : Bool :=
  s.flag Reg.SUP_MGMT_STATUS_UP &&
    (s.get Reg.SUP_BOOT_STATUS_STAGE == 4 || (s.sup.firmware && (s.tierZero || s.flag Reg.SUP_MGMT_CFG_REG_EN)))

/-- STATUS of a request, 0 where it is served. -/
def State.frameStatus (s : State) (p : Bytes) : Nat :=
  let op := beAt p 1 1
  let addr := beAt p 4 4
  let n := beAt p 8 1
  if beAt p 0 1 != 1 then 1
  else if op != 1 && op != 2 then 2
  else if n = 0 || 64 < n || (op = 2 && p.length < 12 + 4 * n) then 3
  else if addr % 4 != 0 || 0x10000000 < addr + 4 * n || (s.framesSupOnly && 0x1000000 < addr + 4 * n) then 4
  else 0

/-- `n` words read from a key on, one 32-bit access each. -/
def State.frameRead (s : State) (k : Nat) : Nat → List Nat × State
  | 0 => ([], s)
  | n + 1 =>
    let (v, s) := (s.settleFor k).read32 .frame k
    let (l, s) := s.frameRead (k + 4) n
    (v :: l, s)

/-- Words written from a key on; a COLD reset among them ends the frame. -/
def State.frameWrite (s : State) (k : Nat) : List Nat → State
  | [] => s
  | v :: l =>
    let t := s.writeKey .frame k 4 v
    if t.get Reg.SUP_RESET_CAUSE_BOOT = s.get Reg.SUP_RESET_CAUSE_BOOT then t.frameWrite (k + 4) l else t

/-- A response leaves, and is kept for its source. -/
def State.frameReply (s : State) (src seq : Nat) (l : Bytes) : State :=
  let kept := (src, seq, l) :: (s.sup.frameReplies.filter (fun x => x.1 != src)).take 3
  let s : State := { s with sup := { s.sup with frameReplies := kept } }
  if s.pxc.txStopped then s else s.emit (.mgmt l)

/-- A register frame, from its destination address on and without FCS: a repeat of the kept request is answered as before,
any other is served. -/
def State.serveFrame (s : State) (l : Bytes) : State :=
  if beAt l 12 2 != 0x88B6 then s.mgmtFrame l
  else if !s.framesServed || !s.frameMine l then s
  else if s.sup.svcRestarting then s.holdAccess (.frame l)
  else
    let src := beAt l 6 6
    let p := l.drop 14
    let seq := beAt p 2 2
    match s.sup.frameReplies.find? (fun x => x.1 == src && x.2.1 == seq) with
    | some x => s.frameReply src seq x.2.2
    | none =>
      let op := beAt p 1 1
      let n := beAt p 8 1
      let k := beAt p 4 4
      let st := s.frameStatus p
      let boot := s.get Reg.SUP_RESET_CAUSE_BOOT
      let (data, s) :=
        if st != 0 then ([], s)
        else if op = 1 then s.frameRead k n
        else ([], s.frameWrite k ((List.range n).map (fun i => beAt p (12 + 4 * i) 4)))
      if s.get Reg.SUP_RESET_CAUSE_BOOT != boot then s
      else
        let head := toBE 6 src ++ toBE 6 (s.get Reg.SUP_MGMT_MAC) ++ toBE 2 0x88B6
        let body := toBE 1 1 ++ toBE 1 (op + 0x80) ++ sliceB p 2 7 ++ toBE 1 st ++ [0, 0] ++ data.flatMap (toBE 4)
        let all := head ++ body
        s.frameReply src seq (all ++ List.replicate (60 - all.length) 0)

/-- REG_FRAME_READ (R294). -/
def execRegFrameRead (frame : Bytes) (s : State) : Host.Outcome State Fault Refusal := ok (s.serveFrame frame)

/-- REG_FRAME_WRITE (R294). `walks` serves doorbells among the words. -/
def execRegFrameWrite (frame : Bytes) (walks : List Walk8) (s : State) : Host.Outcome State Fault Refusal :=
  ok (s.withWalks walks (fun s => s.serveFrame frame))

/-! ## The service cores run again (R427) -/

/-- An access that has waited is carried out. -/
def State.serveHeld (s : State) : SvcWait → State
  | .write who k size v => s.writeKey who k size v
  | .read who k size => s.readKey who k size
  | .frame l => s.serveFrame l

/-- SERVICE_RESTART: what has waited is served, in order. -/
def execServiceRestart (s : State) : Host.Outcome State Fault Refusal :=
  if !s.sup.svcRestarting then ok s
  else
    let held := s.sup.svcHeld
    let s : State := { s with sup := { s.sup with svcRestarting := false, svcHeld := [] } }
    ok (held.foldl (fun s x => s.serveHeld x) s)

end Sys2Proof.Machine
end

