-- ==== Sys2Proof/Machine/Tick.lean ====
section
/-! DEFINITION. The tick boundary (R70): what every unit does in the first cycle of a tick, and its audits (R173, R223 to R225,
R339, R437, R438). -/

namespace Sys2Proof.Machine

/-! ## Audits of HIU and SUP -/

/-- A fault takes held credits of a type of the host link. -/
def fcLose (l : List (Nat × Nat × Nat)) (x : Nat × Nat) : List (Nat × Nat × Nat) :=
  l.zipIdx.map (fun c => if c.2 = x.1 then (c.1.1, c.1.2.1 - x.2, c.1.2.2) else c.1)

/-- The differences of the credit books of the host link, type by type: held and consumed against advertised (R339). -/
def fcDiffs (l : List (Nat × Nat × Nat)) : List Int :=
  (l.map (fun c => ((c.2.1 + c.2.2 : Nat) : Int) - (c.1 : Int))).filter (· != 0)

/-- HIU's audit (R339): lost tags, and the credit books, which are not audited while the link is down. A tag book that fails twice
with one difference gets its untracked tags back. The host returns the credits consumed in a tick by its end (DESIGN CHOICE, log
entry 111). -/
def State.auditHost (s : State) (lost : Nat) (credits : List (Nat × Nat)) : State :=
  if !s.running .hiu then s
  else
    let s : State := { s with hiu := { s.hiu with fc := credits.foldl fcLose s.hiu.fc } }
    let wrong := fcDiffs s.hiu.fc
    let old := s.hiu.tagDiff.getD 0
    let diff := old - (lost : Int)
    let tagsBad := diff != 0
    let credBad := !wrong.isEmpty && s.flag Reg.HIU_LINK_STATUS_UP
    let again := tagsBad && diff == old
    let s : State := { s with hiu := { s.hiu with tagDiff := if tagsBad && !again then some diff else none, fc := fcReturn s.hiu.fc } }
    let s := (s.put Reg.HIU_AUDIT_STATUS_OK (bit (!(tagsBad || credBad)))).put Reg.HIU_AUDIT_STATUS_BOOKS (bit tagsBad + 2 * bit credBad)
    let s := s.when (tagsBad || credBad) (fun s => (s.put Reg.HIU_AUDIT_STATUS_FAIL 1).bump Reg.HIU_AUDIT_FAIL)
    let s := s.when tagsBad (fun s => s.raise .hiu 5 [(8, 0), (32, ofSigned 32 diff)])
    let s := s.when credBad (fun s => wrong.foldl (fun s d => s.raise .hiu 5 [(8, 1), (32, ofSigned 32 d)]) s)
    ((s.bookAudit 4 10 tagsBad true).when again (fun s => s.bookRepaired 4)).bookAudit 5 10 credBad false

/-- SUP's audit of the tracker (R438). -/
def State.auditTracker (s : State) (lost : Nat) : State :=
  let old := s.sup.trackDiff
  let diff := old - (lost : Int)
  let bad := diff != 0
  let s : State := { s with sup := { s.sup with trackDiff := if diff = old then 0 else diff } }
  let s := s.when bad (fun s => (s.bump Reg.SUP_TRACK_AUDIT_FAIL).raise .sup 9 [(32, ofSigned 32 diff)])
  (s.bookAudit 6 0 bad true).when (bad && diff == old) (fun s => s.bookRepaired 6)

/-! ## Telemetry (R223 to R225) -/

/-- The entry of port `p` and class `c`: zero for a port not sampled. -/
def State.telemEntry (s : State) (p c : Nat) : Bytes :=
  if bitAt (s.get Reg.EGU_TELEM_PORTS) p then
    let (d, n) := Assoc.getD s.egu.begun (8 * p + c) (0, 0)
    toLE 8 (min (s.classCells p c) (2 ^ 19 - 1) * 2 ^ 45 + min (ceilDiv d 64) 0x1FFFFF * 2 ^ 24 + min n (2 ^ 24 - 1))
  else zeros 8

/-- Bytes 4 to 2,111 of the record of tick `n`. -/
def State.telemBody (s : State) (n : Nat) : Bytes :=
  zeros 4 ++ toLE 8 n ++ toLE 4 (s.get Reg.EGU_TELEM_PORTS) ++ toLE 4 (s.get Reg.EGU_TELEM_OVERFLOW) ++
    toLE 4 (s.get Reg.EGU_TELEM_LOST) ++ zeros 36 ++
    (List.range 32).flatMap (fun p => (List.range 8).flatMap (fun c => s.telemEntry p c))

/-- A record that cannot be written. -/
def State.telemLost (s : State) : State := (s.bump Reg.EGU_TELEM_LOST).oncePerTick 0x70E (fun s => s.raise .egu 14 [])

/-- The next write overwrites the oldest unread record. -/
def State.telemOverflow (s : State) (slots : Nat) : State :=
  let prod := s.get Reg.EGU_TELEM_PROD
  if (prod + 2 ^ 32 - s.get Reg.EGU_TELEM_CONS) % 2 ^ 32 < slots then s
  else
    let s : State := { s with egu := { s.egu with consAt := some s.localNs } }
    ((s.bump Reg.EGU_TELEM_OVERFLOW).put Reg.EGU_TELEM_CONS ((prod + 2 ^ 32 - slots + 1) % 2 ^ 32)).oncePerTick 0x70D
      (fun s => s.raise .egu 13 [])

/-- One part of a record, while the earlier ones left. -/
def State.telemWrite (s : State) (go : Bool) (addr : Nat) (l : Bytes) : Bool × State :=
  if go then
    let ((b, _), s) := s.dmaWrite 0 addr l
    (b, s)
  else (false, s)

/-- The record of tick `n`: SEQ_WORD with WRITING, the body, SEQ_WORD without; then PROD. -/
def State.telemRecord (s : State) (n : Nat) (busy : Bool) : State :=
  let seq := (s.egu.telemSeq + 1) % 2 ^ 31
  let s : State := { s with egu := { s.egu with telemSeq := seq } }
  if busy || !s.running .qe then s.telemLost
  else
    let slots := 2 ^ s.get Reg.EGU_TELEM_CFG_LOG2_SIZE
    let s := s.when (s.attached && s.running .hiu) (fun s => s.telemOverflow slots)
    let prod := s.get Reg.EGU_TELEM_PROD
    let base := 4096 * s.get Reg.EGU_TELEM_BASE_ADDR + 4096 * (prod % slots)
    let (a, s) := s.telemWrite true base (toLE 4 (2 ^ 31 + seq))
    let (b, s) := s.telemWrite a (base + 4) (s.telemBody n)
    let (c, s) := s.telemWrite b base (toLE 4 seq)
    if c then s.put Reg.EGU_TELEM_PROD ((prod + 1) % 2 ^ 32) else s.telemLost

/-- The telemetry sample in the first cycle of a tick, describing tick `n`. -/
def State.telemetry (s : State) (n : Nat) (i : TickInput) : State :=
  let s := s.when (s.running .egu && s.flag Reg.EGU_TELEM_CFG_EN) (fun s => s.telemRecord n i.telemBusy)
  { s with egu := { s.egu with begun := [] } }

/-- The writes to host memory at a boundary: the telemetry sample, and the XTS operations of storage commands that wait (R225,
R415). -/
def State.boundaryWrites (s : State) (n : Nat) (i : TickInput) : State :=
  s.withWalks i.walks (fun s => (s.telemetry n i).when (s.running .sie) State.xtsRun)

/-! ## The boundary -/

/-- The windows that have not closed yet, and the guard's exchange, at the end of tick `n`. -/
def State.endTick (s : State) (n : Nat) (i : TickInput) : State :=
  let s := s.when s.mediaRun (fun s => s.admittedFlows.foldl (fun s f => s.closeWindow f) s)
  let s := s.when (s.running .egu) (fun s => s.guardExchange n i.guards)
  let s := (s.endReplayTick n).shadowMissed n
  s.when (s.active && s.hgc.liveFrom ≤ n) (fun s => { s with hgc := { s.hgc with lastTx := n } })

/-- The counter of tick `n` moves on. -/
def State.nextTick (s : State) (n : Nat) : State :=
  let s := (s.put Reg.TE_TICK (n + 1)).put Reg.TE_OFFSET 0
  { s with once := [], pcu := { s.pcu with supCopies := 0, hostCopies := 0 } }

/-- Copies to host rings of an outbound tick that is over leave the tick hold; those of ports stay for MEDIA_OVERRUN. -/
def State.dropRingCopies (s : State) : State :=
  let late := s.media.copies.filter (fun c => c.outTick < s.tick && c.toRing)
  let s : State := { s with media := { s.media with copies := s.media.copies.filter (fun c => !(c.outTick < s.tick && c.toRing)) } }
  late.foldl (fun s c => (c.handles.drop c.next).foldl (fun s h => s.releaseCopy h) s) s

/-- The ages of the last scrub pass and BIST rotation, in seconds (R432, R433). -/
def State.countAges (s : State) : State :=
  let a := s.sup.scrubNs + s.period
  let b := s.sup.bistNs + s.period
  let s : State := { s with sup := { s.sup with scrubNs := a, bistNs := b } }
  (s.put Reg.SUP_SAFETY_AGE_SCRUB_AGE (min 0xFFFF (a / 1000000000))).put Reg.SUP_SAFETY_AGE_BIST_AGE (min 0xFFFF (b / 1000000000))

/-- What the first cycle of a tick holds after tick `n`. Media is formed in tier 1 and above (R55). -/
def State.beginTick (s : State) (n : Nat) (i : TickInput) : State :=
  let s := s.switchGates
  let s := s.when (s.running .fpu) (fun s => s.auditBuffer i.lostCells i.lostHandles i.credits)
  let s := ((s.auditHost i.lostTags i.pcieCredits).auditTracker i.lostEntries).auditPools
  let s := (s.boundaryWrites n i).leaveFenced.sendHeartbeat n
  let s := s.when (s.running .egu) State.overrideTick
  let s := s.when (s.mediaRun && s.running .fpu && !s.tierZero) (fun s => (s.formTick n i.unformed).dropRingCopies)
  let s := (List.range 32).foldl (fun s p => s.accruePause p) s
  s.countAges.pruneHedge

/-- TICK_BOUNDARY (R70): the tick counter moves on, and the per-tick work of every unit starts. There are no ticks while TE is not
in RUN; the command then stands for one tick period of time, in which the ages of the last scrub pass and BIST rotation go on
(R432, R433; DESIGN CHOICE, log entry 108). -/
def execTickBoundary (i : TickInput) (s : State) : Host.Outcome State Fault Refusal :=
  if !s.running .te then ok ((s.when (s.running .sup) State.countAges).withWalks i.walks (fun s => s.when (s.running .sie) State.xtsRun))
  else
    let n := s.tick
    ok (((s.endTick n i).nextTick n).beginTick n i)

end Sys2Proof.Machine
end

