-- ==== Sys2Proof/Machine/Dispatch.lean ====
section
/-! DEFINITION. The dispatch: one arm per command, each one direct call of its meaning. -/

namespace Sys2Proof.Machine

/-- The effect of a command on everything but the queue. -/
def exec (i : Instr) (s : State) : Host.Outcome State Fault Refusal :=
  match i with
  | .registerWrite r a size v walks => Sys2Proof.Machine.execRegisterWrite r a size v walks s
  | .readClear r a size => Sys2Proof.Machine.execReadClear r a size s
  | .pairLoRead r a => Sys2Proof.Machine.execPairLoRead r a s
  | .pairLoWrite r a v => Sys2Proof.Machine.execPairLoWrite r a v s
  | .pairHiWrite r a v => Sys2Proof.Machine.execPairHiWrite r a v s
  | .mailboxWrite r v word x => Sys2Proof.Machine.execMailboxWrite r v word x s
  | .vauxApply otpOk => Sys2Proof.Machine.execVauxApply otpOk s
  | .vauxLoss => Sys2Proof.Machine.execVauxLoss s
  | .porNAssert => Sys2Proof.Machine.execPorNAssert s
  | .porNRelease => Sys2Proof.Machine.execPorNRelease s
  | .railMonitorTrip => Sys2Proof.Machine.execRailMonitorTrip s
  | .sramInitDone => Sys2Proof.Machine.execSramInitDone s
  | .selectSlot readFailA readFailB => Sys2Proof.Machine.execSelectSlot readFailA readFailB s
  | .firmwareLoad found => Sys2Proof.Machine.execFirmwareLoad found s
  | .unitLoad u used bistOk loadOk part => Sys2Proof.Machine.execUnitLoad u used bistOk loadOk part s
  | .hbmFillStart overflow => Sys2Proof.Machine.execHbmFillStart overflow s
  | .hbmRegionFilled => Sys2Proof.Machine.execHbmRegionFilled s
  | .fuseKeyHashA => Sys2Proof.Machine.execFuseKeyHashA s
  | .fuseKeyHashB => Sys2Proof.Machine.execFuseKeyHashB s
  | .read256 => Sys2Proof.Machine.execRead256 s
  | .program256 => Sys2Proof.Machine.execProgram256 s
  | .erase64k => Sys2Proof.Machine.execErase64k s
  | .flashDone deviceOk => Sys2Proof.Machine.execFlashDone deviceOk s
  | .ptpMessageReceived port m => Sys2Proof.Machine.execPtpMessageReceived port m s
  | .ptpMessageSend port kind => Sys2Proof.Machine.execPtpMessageSend port kind s
  | .syncTimeout => Sys2Proof.Machine.execSyncTimeout s
  | .announceTimeout gm => Sys2Proof.Machine.execAnnounceTimeout gm s
  | .holdoverExpiry => Sys2Proof.Machine.execHoldoverExpiry s
  | .delayMechanismClear port => Sys2Proof.Machine.execDelayMechanismClear port s
  | .ref10Loss => Sys2Proof.Machine.execRef10Loss s
  | .ppsEdge errorNs => Sys2Proof.Machine.execPpsEdge errorNs s
  | .tickBoundary x => Sys2Proof.Machine.execTickBoundary x s
  | .mediaStart => Sys2Proof.Machine.execMediaStart s
  | .restep r => Sys2Proof.Machine.execRestep r s
  | .restepStep newTick newOffset => Sys2Proof.Machine.execRestepStep newTick newOffset s
  | .addFlow r id => Sys2Proof.Machine.execAddFlow r id s
  | .removeFlow r id => Sys2Proof.Machine.execRemoveFlow r id s
  | .addPoint r id => Sys2Proof.Machine.execAddPoint r id s
  | .removePoint r id => Sys2Proof.Machine.execRemovePoint r id s
  | .checkFlow r id => Sys2Proof.Machine.execCheckFlow r id s
  | .admissionEffective isPoint id => Sys2Proof.Machine.execAdmissionEffective isPoint id s
  | .removalRelease isPoint id => Sys2Proof.Machine.execRemovalRelease isPoint id s
  | .windowClose flow => Sys2Proof.Machine.execWindowClose flow s
  | .mediaOverrun => Sys2Proof.Machine.execMediaOverrun s
  | .ledgerAudit found => Sys2Proof.Machine.execLedgerAudit found s
  | .frameArrival port offset frame line => Sys2Proof.Machine.execFrameArrival port offset frame line s
  | .pipelineHeadAccept pipe offset tableBad => Sys2Proof.Machine.execPipelineHeadAccept pipe offset tableBad s
  | .reorderRelease src => Sys2Proof.Machine.execReorderRelease src s
  | .fabricTransfer offset => Sys2Proof.Machine.execFabricTransfer offset s
  | .mediaEgress toRing target offset edge outputBad stageBad => Sys2Proof.Machine.execMediaEgress toRing target offset edge outputBad stageBad s
  | .beFrameStart port offset => Sys2Proof.Machine.execBeFrameStart port offset s
  | .cutThroughStart port offset => Sys2Proof.Machine.execCutThroughStart port offset s
  | .txComplete port offset => Sys2Proof.Machine.execTxComplete port offset s
  | .txUnderrun port offset => Sys2Proof.Machine.execTxUnderrun port offset s
  | .ctStepDecay port => Sys2Proof.Machine.execCtStepDecay port s
  | .headOfQueueTimeout port cls offset => Sys2Proof.Machine.execHeadOfQueueTimeout port cls offset s
  | .stagedWrite r off v => Sys2Proof.Machine.execStagedWrite r off v s
  | .tblCommit r => Sys2Proof.Machine.execTblCommit r s
  | .tblCommitEffective => Sys2Proof.Machine.execTblCommitEffective s
  | .tblCommitSync => Sys2Proof.Machine.execTblCommitSync s
  | .replicaCompare entry found => Sys2Proof.Machine.execReplicaCompare entry found s
  | .flowEntryWrite r flow word v => Sys2Proof.Machine.execFlowEntryWrite r flow word v s
  | .ftuWindowWrite r off v => Sys2Proof.Machine.execFtuWindowWrite r off v s
  | .lpmInsert r => Sys2Proof.Machine.execLpmInsert r s
  | .lpmDelete r => Sys2Proof.Machine.execLpmDelete r s
  | .lpmRead r => Sys2Proof.Machine.execLpmRead r s
  | .insertStatic r => Sys2Proof.Machine.execInsertStatic r s
  | .deleteStatic r => Sys2Proof.Machine.execDeleteStatic r s
  | .macRead r pipe => Sys2Proof.Machine.execMacRead r pipe s
  | .macFlush r byVlan byPort port => Sys2Proof.Machine.execMacFlush r byVlan byPort port s
  | .macFlushDone => Sys2Proof.Machine.execMacFlushDone s
  | .autoFlushStart => Sys2Proof.Machine.execAutoFlushStart s
  | .portFlush => Sys2Proof.Machine.execPortFlush s
  | .ageClockStep => Sys2Proof.Machine.execAgeClockStep s
  | .shadowCompare table index poisoned found => Sys2Proof.Machine.execShadowCompare table index poisoned found s
  | .pointWrite r point word v => Sys2Proof.Machine.execPointWrite r point word v s
  | .termWrite r term v => Sys2Proof.Machine.execTermWrite r term v s
  | .gainRequest r term v => Sys2Proof.Machine.execGainRequest r term v s
  | .vfGainRequest v term gain => Sys2Proof.Machine.execVfGainRequest v term gain s
  | .listWrite r off v => Sys2Proof.Machine.execListWrite r off v s
  | .leakFix => Sys2Proof.Machine.execLeakFix s
  | .creditReset pipe dest => Sys2Proof.Machine.execCreditReset pipe dest s
  | .autoRearm flow => Sys2Proof.Machine.execAutoRearm flow s
  | .rearm r flow => Sys2Proof.Machine.execRearm r flow s
  | .rearmEffective flow => Sys2Proof.Machine.execRearmEffective flow s
  | .guardQuery r flow => Sys2Proof.Machine.execGuardQuery r flow s
  | .limitWrite r profile which v => Sys2Proof.Machine.execLimitWrite r profile which v s
  | .limitLowered profile which => Sys2Proof.Machine.execLimitLowered profile which s
  | .overridePinFall pinB offset => Sys2Proof.Machine.execOverridePinFall pinB offset s
  | .overridePinRise pinB offset => Sys2Proof.Machine.execOverridePinRise pinB offset s
  | .overrideRelease offset => Sys2Proof.Machine.execOverrideRelease offset s
  | .remoteOverrideEnd => Sys2Proof.Machine.execRemoteOverrideEnd s
  | .forceWrite r force => Sys2Proof.Machine.execForceWrite r force s
  | .forceEffective => Sys2Proof.Machine.execForceEffective s
  | .ovrPinDisagree => Sys2Proof.Machine.execOvrPinDisagree s
  | .sidebandWrite r v => Sys2Proof.Machine.execSidebandWrite r v s
  | .sidebandEffective => Sys2Proof.Machine.execSidebandEffective s
  | .sidebandMismatch inB v => Sys2Proof.Machine.execSidebandMismatch inB v s
  | .gateListWrite r word v => Sys2Proof.Machine.execGateListWrite r word v s
  | .gateCommit r => Sys2Proof.Machine.execGateCommit r s
  | .gateCommitDone => Sys2Proof.Machine.execGateCommitDone s
  | .cbsSlopeWrite r queue v => Sys2Proof.Machine.execCbsSlopeWrite r queue v s
  | .cbsLimitWrite r queue v => Sys2Proof.Machine.execCbsLimitWrite r queue v s
  | .shaperInstanceWrite r inst word v => Sys2Proof.Machine.execShaperInstanceWrite r inst word v s
  | .functionMapWrite r func v => Sys2Proof.Machine.execFunctionMapWrite r func v s
  | .shaperRelease offset => Sys2Proof.Machine.execShaperRelease offset s
  | .telemEnable r v => Sys2Proof.Machine.execTelemEnable r v s
  | .telemConsWrite r v => Sys2Proof.Machine.execTelemConsWrite r v s
  | .progWrite r index => Sys2Proof.Machine.execProgWrite r index s
  | .progRead r index => Sys2Proof.Machine.execProgRead r index s
  | .keyLoad r slot => Sys2Proof.Machine.execKeyLoad r slot s
  | .keyRewrite r slot => Sys2Proof.Machine.execKeyRewrite r slot s
  | .keyErase r slot => Sys2Proof.Machine.execKeyErase r slot s
  | .keySwitched slot => Sys2Proof.Machine.execKeySwitched slot s
  | .eraseStart slot => Sys2Proof.Machine.execEraseStart slot s
  | .keyErased slot => Sys2Proof.Machine.execKeyErased slot s
  | .saWrite r sa word v => Sys2Proof.Machine.execSaWrite r sa word v s
  | .rxScWrite r port entry word v => Sys2Proof.Machine.execRxScWrite r port entry word v s
  | .txSaWrite r port v => Sys2Proof.Machine.execTxSaWrite r port v s
  | .linkLock port => Sys2Proof.Machine.execLinkLock port s
  | .linkUp port => Sys2Proof.Machine.execLinkUp port s
  | .lockAttemptFail port => Sys2Proof.Machine.execLockAttemptFail port s
  | .diagnosticDone port reason obsPol => Sys2Proof.Machine.execDiagnosticDone port reason obsPol s
  | .linkDown port reason offset => Sys2Proof.Machine.execLinkDown port reason offset s
  | .pauseFrame port offset op enable quanta => Sys2Proof.Machine.execPauseFrame port offset op enable quanta s
  | .pauseEnd port cls offset => Sys2Proof.Machine.execPauseEnd port cls offset s
  | .pauseStorm port cls offset => Sys2Proof.Machine.execPauseStorm port cls offset s
  | .pauseHoldoffEnd port cls => Sys2Proof.Machine.execPauseHoldoffEnd port cls s
  | .pauseModeWrite r port v => Sys2Proof.Machine.execPauseModeWrite r port v s
  | .ctBaseWrite r port v => Sys2Proof.Machine.execCtBaseWrite r port v s
  | .vlanCfgWrite r port pcp v => Sys2Proof.Machine.execVlanCfgWrite r port pcp v s
  | .vlanCfgEffective => Sys2Proof.Machine.execVlanCfgEffective s
  | .snap r => Sys2Proof.Machine.execSnap r s
  | .statsDone => Sys2Proof.Machine.execStatsDone s
  | .regFrameRead frame => Sys2Proof.Machine.execRegFrameRead frame s
  | .regFrameWrite frame walks => Sys2Proof.Machine.execRegFrameWrite frame walks s
  | .mgmtLinkChange up reason => Sys2Proof.Machine.execMgmtLinkChange up reason s
  | .requestSend => Sys2Proof.Machine.execRequestSend s
  | .witRequest via offset source msg => Sys2Proof.Machine.execWitRequest via offset source msg s
  | .witRelease via offset source msg => Sys2Proof.Machine.execWitRelease via offset source msg s
  | .witGrant via offset msg => Sys2Proof.Machine.execWitGrant via offset msg s
  | .witDeny via offset msg => Sys2Proof.Machine.execWitDeny via offset msg s
  | .witFence via offset msg => Sys2Proof.Machine.execWitFence via offset msg s
  | .leaseExpiry => Sys2Proof.Machine.execLeaseExpiry s
  | .fenceInFall offset => Sys2Proof.Machine.execFenceInFall offset s
  | .fenceInRise offset => Sys2Proof.Machine.execFenceInRise offset s
  | .hgcFenceWrite r v => Sys2Proof.Machine.execHgcFenceWrite r v s
  | .hgcReleaseWrite r => Sys2Proof.Machine.execHgcReleaseWrite r s
  | .handover => Sys2Proof.Machine.execHandover s
  | .hgcLayerWrite r => Sys2Proof.Machine.execHgcLayerWrite r s
  | .hgcHoldWrite r v => Sys2Proof.Machine.execHgcHoldWrite r v s
  | .restartWindowEnd => Sys2Proof.Machine.execRestartWindowEnd s
  | .witnessLost => Sys2Proof.Machine.execWitnessLost s
  | .replayTick => Sys2Proof.Machine.execReplayTick s
  | .hello verMin verMax showHash m => Sys2Proof.Machine.execHello verMin verMax showHash m s
  | .heartbeat offset m => Sys2Proof.Machine.execHeartbeat offset m s
  | .carriedCommand seq tick op => Sys2Proof.Machine.execCarriedCommand seq tick op s
  | .hostMirror ring seq pkt => Sys2Proof.Machine.execHostMirror ring seq pkt s
  | .layerBulk => Sys2Proof.Machine.execLayerBulk s
  | .bulkDone m => Sys2Proof.Machine.execBulkDone m s
  | .deltaDone m => Sys2Proof.Machine.execDeltaDone m s
  | .layerDone => Sys2Proof.Machine.execLayerDone s
  | .partnerLost => Sys2Proof.Machine.execPartnerLost s
  | .healthReport => Sys2Proof.Machine.execHealthReport s
  | .linkTrained speed width flit fc => Sys2Proof.Machine.execLinkTrained speed width flit fc s
  | .linkRetrained speed width flit fc => Sys2Proof.Machine.execLinkRetrained speed width flit fc s
  | .dlDown how => Sys2Proof.Machine.execDlDown how s
  | .perstAssert => Sys2Proof.Machine.execPerstAssert s
  | .perstDeassert => Sys2Proof.Machine.execPerstDeassert s
  | .pf0Flr => Sys2Proof.Machine.execPf0Flr s
  | .pf0D3 => Sys2Proof.Machine.execPf0D3 s
  | .vfFlr v => Sys2Proof.Machine.execVfFlr v s
  | .vfD3 v => Sys2Proof.Machine.execVfD3 v s
  | .vfEnableClear control => Sys2Proof.Machine.execVfEnableClear control s
  | .watchdogExpiry offset => Sys2Proof.Machine.execWatchdogExpiry offset s
  | .wdogKick r offset => Sys2Proof.Machine.execWdogKick r offset s
  | .adopt r m => Sys2Proof.Machine.execAdopt r m s
  | .readCompletion tag status => Sys2Proof.Machine.execReadCompletion tag status s
  | .completionTimeout tag => Sys2Proof.Machine.execCompletionTimeout tag s
  | .msixUnmask func vector whole => Sys2Proof.Machine.execMsixUnmask func vector whole s
  | .contextWrite r func word v => Sys2Proof.Machine.execContextWrite r func word v s
  | .invAll r => Sys2Proof.Machine.execInvAll r s
  | .invFunc r func => Sys2Proof.Machine.execInvFunc r func s
  | .invRange r func log2 => Sys2Proof.Machine.execInvRange r func log2 s
  | .invDone walks => Sys2Proof.Machine.execInvDone walks s
  | .logSync r func => Sys2Proof.Machine.execLogSync r func s
  | .logSyncDone walks => Sys2Proof.Machine.execLogSyncDone walks s
  | .setLimit r kind func => Sys2Proof.Machine.execSetLimit r kind func s
  | .poolAssign r kind func => Sys2Proof.Machine.execPoolAssign r kind func s
  | .poolReclaim r kind func => Sys2Proof.Machine.execPoolReclaim r kind func s
  | .mbxSendToPf v => Sys2Proof.Machine.execMbxSendToPf v s
  | .mbxSendToVf r v => Sys2Proof.Machine.execMbxSendToVf r v s
  | .mbxAckByPf r v => Sys2Proof.Machine.execMbxAckByPf r v s
  | .mbxAckByVf v => Sys2Proof.Machine.execMbxAckByVf v s
  | .doorbellFetch r db arm value walks => Sys2Proof.Machine.execDoorbellFetch r db arm value walks s
  | .doorbellConsume r db arm value => Sys2Proof.Machine.execDoorbellConsume r db arm value s
  | .wrrTurn walks => Sys2Proof.Machine.execWrrTurn walks s
  | .descriptorFetch ring entries walks => Sys2Proof.Machine.execDescriptorFetch ring entries walks s
  | .txFrameRead ring data walks => Sys2Proof.Machine.execTxFrameRead ring data walks s
  | .hostRxWrite ring walks => Sys2Proof.Machine.execHostRxWrite ring walks s
  | .headPublish ring walks => Sys2Proof.Machine.execHeadPublish ring walks s
  | .mediaTxDeliver ring offset => Sys2Proof.Machine.execMediaTxDeliver ring offset s
  | .submitComplete ring walks => Sys2Proof.Machine.execSubmitComplete ring walks s
  | .ringContextWrite r ring word v => Sys2Proof.Machine.execRingContextWrite r ring word v s
  | .ringEnable r ring => Sys2Proof.Machine.execRingEnable r ring s
  | .ringDisable r ring => Sys2Proof.Machine.execRingDisable r ring s
  | .ringIdle ring walks => Sys2Proof.Machine.execRingIdle ring walks s
  | .eventGrant walks => Sys2Proof.Machine.execEventGrant walks s
  | .eventOverflow ring walks => Sys2Proof.Machine.execEventOverflow ring walks s
  | .eventSignal ring x offset => Sys2Proof.Machine.execEventSignal ring x offset s
  | .nvmeFlush ring => Sys2Proof.Machine.execNvmeFlush ring s
  | .nvmeWrite ring data walks => Sys2Proof.Machine.execNvmeWrite ring data walks s
  | .nvmeRead ring => Sys2Proof.Machine.execNvmeRead ring s
  | .storageComplete cid sct sc dw0 data walks => Sys2Proof.Machine.execStorageComplete cid sct sc dw0 data walks s
  | .storageCmdTimeout ns handle cid => Sys2Proof.Machine.execStorageCmdTimeout ns handle cid s
  | .openConn r c => Sys2Proof.Machine.execOpenConn r c s
  | .closeConn r c => Sys2Proof.Machine.execCloseConn r c s
  | .abortConn r c => Sys2Proof.Machine.execAbortConn r c s
  | .connUp c status => Sys2Proof.Machine.execConnUp c status s
  | .tcpSegment c m => Sys2Proof.Machine.execTcpSegment c m s
  | .tcpRetransmitTimeout c => Sys2Proof.Machine.execTcpRetransmitTimeout c s
  | .peerRst c seq ack => Sys2Proof.Machine.execPeerRst c seq ack s
  | .icresp c m => Sys2Proof.Machine.execIcresp c m s
  | .capsuleResp c cid hdrOk sct sc dw0 => Sys2Proof.Machine.execCapsuleResp c cid hdrOk sct sc dw0 s
  | .c2hData c cid off payload hdrOk dataOk last success walks => Sys2Proof.Machine.execC2hData c cid off payload hdrOk dataOk last success walks s
  | .readyToTransfer c cid ttag off len found walks => Sys2Proof.Machine.execReadyToTransfer c cid ttag off len found walks s
  | .c2hTermReq c => Sys2Proof.Machine.execC2hTermReq c s
  | .driveRequestUr => Sys2Proof.Machine.execDriveRequestUr s
  | .presenceStable => Sys2Proof.Machine.execPresenceStable s
  | .presenceLost => Sys2Proof.Machine.execPresenceLost s
  | .attentionButton => Sys2Proof.Machine.execAttentionButton s
  | .removalWindowEnd => Sys2Proof.Machine.execRemovalWindowEnd s
  | .powerOn r => Sys2Proof.Machine.execPowerOn r s
  | .slotRemove r => Sys2Proof.Machine.execSlotRemove r s
  | .powerFault => Sys2Proof.Machine.execPowerFault s
  | .slotPerstRelease => Sys2Proof.Machine.execSlotPerstRelease s
  | .slotTrainingDone speed width => Sys2Proof.Machine.execSlotTrainingDone speed width s
  | .identifyDone namespaces => Sys2Proof.Machine.execIdentifyDone namespaces s
  | .shutdownComplete => Sys2Proof.Machine.execShutdownComplete s
  | .slotLinkDown => Sys2Proof.Machine.execSlotLinkDown s
  | .namespaceWrite r ns word v => Sys2Proof.Machine.execNamespaceWrite r ns word v s
  | .recordingWrite r rec_ word v => Sys2Proof.Machine.execRecordingWrite r rec_ word v s
  | .recStart r rec_ => Sys2Proof.Machine.execRecStart r rec_ s
  | .recStop r rec_ => Sys2Proof.Machine.execRecStop r rec_ s
  | .recStarted rec_ => Sys2Proof.Machine.execRecStarted rec_ s
  | .stopEffective rec_ => Sys2Proof.Machine.execStopEffective rec_ s
  | .chunkDue rec_ => Sys2Proof.Machine.execChunkDue rec_ s
  | .chunkWritten rec_ good => Sys2Proof.Machine.execChunkWritten rec_ good s
  | .lockstepMismatch => Sys2Proof.Machine.execLockstepMismatch s
  | .safetyWdogExpiry => Sys2Proof.Machine.execSafetyWdogExpiry s
  | .safetyOrder => Sys2Proof.Machine.execSafetyOrder s
  | .thermalTrip => Sys2Proof.Machine.execThermalTrip s
  | .clockFault pll => Sys2Proof.Machine.execClockFault pll s
  | .serviceHeartbeatMissed => Sys2Proof.Machine.execServiceHeartbeatMissed s
  | .serviceRestart => Sys2Proof.Machine.execServiceRestart s
  | .scrubVisit found pass => Sys2Proof.Machine.execScrubVisit found pass s
  | .bistSlice u pass rotation => Sys2Proof.Machine.execBistSlice u pass rotation s
  | .tempUpdate temps => Sys2Proof.Machine.execTempUpdate temps s
  | .resetCold r confirm => Sys2Proof.Machine.execResetCold r confirm s
  | .resetWarm r confirm => Sys2Proof.Machine.execResetWarm r confirm s
  | .resetUnit r confirm unit => Sys2Proof.Machine.execResetUnit r confirm unit s
  | .warmResetEffective => Sys2Proof.Machine.execWarmResetEffective s
  | .unitResetDone bistOk => Sys2Proof.Machine.execUnitResetDone bistOk s
  | .ref10Return => Sys2Proof.Machine.execRef10Return s
  | .ppsAbsent => Sys2Proof.Machine.execPpsAbsent s
  | .holdLockLoss port reason => Sys2Proof.Machine.execHoldLockLoss port reason s
  | .hedgeLinkUp verMin verMax link => Sys2Proof.Machine.execHedgeLinkUp verMin verMax link s
  | .witClkLoss => Sys2Proof.Machine.execWitClkLoss s
  | .witClkRecovered => Sys2Proof.Machine.execWitClkRecovered s
  | .returnToD0 v => Sys2Proof.Machine.execReturnToD0 v s
  | .capToExpiry => Sys2Proof.Machine.execCapToExpiry s
  | .removalDrainTimeout => Sys2Proof.Machine.execRemovalDrainTimeout s
  | .railsRestored => Sys2Proof.Machine.execRailsRestored s
  | .serviceWaitTimeout size => Sys2Proof.Machine.execServiceWaitTimeout size s
  | .connContextWrite r c word v => Sys2Proof.Machine.execConnContextWrite r c word v s

end Sys2Proof.Machine
end

