-- ==== Sys2Proof/WellFormed.lean ====
section
/-! DEFINITION. Which commands are well formed: operands that the interface they come by can carry. The machine gives every
command its meaning, well formed or not; the check says which terms stand for something outside the block. -/

namespace Sys2Proof

/-- An offset within a tick, whose period is at most 1 ms (R6). -/
def okOffset (o : Nat) : Bool := o < 1000000

/-- The bytes of one register access. -/
def okSize (n : Nat) : Bool := [1, 2, 4, 8].contains n

/-- A byte offset within PF0 BAR2, whose windows span 256 MiB (R8). -/
def okWindow (off : Nat) : Bool := off < 268435456

/-- A frame is not longer than any port or link carries. -/
def okFrame (b : Bytes) : Bool := b.length ≤ 16384

/-- A walk reads at most one entry a level (R352). -/
def okWalks (l : List Walk8) : Bool := l.all (fun w => w.length ≤ 4)

def isTick (t : Nat) : Bool := t < 281474976710656
def isFlow (f : Nat) : Bool := f < 65536
def isPoint (p : Nat) : Bool := p < 8192
/-- A flow's or a point's number. -/
def isObject (point : Bool) (i : Nat) : Bool := if point then isPoint i else isFlow i

def LpmSlot.wf (x : LpmSlot) : Bool := x.fam < 2 && x.len ≤ 128 && x.addr < 2 ^ 128
def MacStatic.wf (x : MacStatic) : Bool := x.vlan < 4096 && x.mac < 2 ^ 48

/-- Ring numbers that LANE_MAP declares, 131072 standing for the hedge link (R17). -/
def ImagePart.wf (p : ImagePart) : Bool :=
  p.words.all (fun x => x.1 % 4 == 0) && p.lpm.all LpmSlot.wf && p.macStatic.all MacStatic.wf && p.homes.all (fun x => x.1 ≤ 131072)

def HelloMsg.wf (m : HelloMsg) : Bool :=
  m.pairId < 65536 && m.selfId < 2 ^ 48 && m.party < 4 && m.state < 8 && m.epoch < 256

def DigestRec.wf (d : DigestRec) : Bool := isFlow d.flow && d.crc < 2 ^ 32

def HeartbeatMsg.wf (m : HeartbeatMsg) : Bool :=
  m.state < 8 && m.epoch < 256 && isTick m.lastTx && m.cmdSeq < 2 ^ 32 && isTick m.tick && m.digests.all DigestRec.wf &&
    m.record.length == 16

def CarriedOp.wf : CarriedOp → Bool
  | .words l => l.all (fun x => x.1 % 4 == 0)
  | .admission p id => isObject p id
  | .remove p id => isObject p id
  | .tblCommit => true
  | .lpm _ fam _ len addr _ => fam < 2 && len ≤ 128 && addr < 2 ^ 128
  | .macStatic _ v m _ _ => v < 4096 && m < 2 ^ 48
  | .gain term _ => term < 131072
  | .rearm flow mask => isFlow flow && mask < 2 ^ 64
  | .limit k _ => k % 4 == 0
  | .sideband _ => true
  | .gateCommit => true
  | .key _ slot _ _ => slot < 65536
  | .keyErase slot => slot < 65536
  | .vlan k _ => k % 4 == 0

def BulkMsg.wf (m : BulkMsg) : Bool :=
  m.seq < 2 ^ 32 && m.words.all (fun x => x.1 % 4 == 0 && x.2.2 < 2 ^ 32) && m.seqs.all (fun x => x.2 < 2 ^ 32) &&
    m.admitted.all (fun x => isObject x.1 x.2.1 && isTick x.2.2) &&
    m.changes.all (fun x => isObject x.1 x.2.1) && m.lpm.all LpmSlot.wf && m.macStatic.all MacStatic.wf &&
    m.keys.all (fun x => x.1 < 65536) && m.keyCommands.all (fun x => isTick x.1 && x.2.wf) &&
      m.guards.all (fun x => isFlow x.1 && x.2.length ≤ 64) && m.epoch < 256

def SettleMsg.wf (m : SettleMsg) : Bool :=
  isTick m.tick && m.flows.all (fun x => isFlow x.1) && m.terms.all (fun x => x.1 < 131072)

def TcpSegment.wf (m : TcpSegment) : Bool :=
  m.seq < 2 ^ 32 && m.ack < 2 ^ 32 && m.window < 65536 && m.ts.all (fun t => t < 2 ^ 32) && m.mss < 65536 && m.scale < 256

def DriveNs.wf (n : DriveNs) : Bool := n.shift < 32

def ScrubPlace.wf : ScrubPlace → Bool
  | .frame handle => handle < 262144
  | .learned pipe _ way => pipe < 4 && way < 8
  | .tlb func _ => func < 4096
  | .backlog tick flow _ => isTick tick && isFlow flow
  | .classifier _ _ => true
  | .ftuRecord _ index _ => index < 1048576
  | .pleach _ => true
  | .guardStore _ _ => true
  | .keySlot _ => true
  | .sa _ => true
  | .ring _ => true
  | .safetyCode => true
  | .serviceCode => true
  | .unitState _ => true
  | .chunk _ => true

def ScrubFind.wf : ScrubFind → Bool
  | .bad p => p.wf
  | .clean => true
  | .corrected => true

def TickInput.wf (i : TickInput) : Bool :=
  i.guards.all (fun x => isFlow x.1 && x.2 < 64) && i.unformed.all isPoint && i.lostCells.all (fun c => c < 393216) &&
    i.lostHandles ≤ 262144 && i.credits.all (fun x => x.1 / 64 < 4 && x.1 % 64 < 37) && i.lostTags ≤ 4096 &&
      i.pcieCredits.all (fun x => x.1 < 6) &&
    i.lostEntries ≤ 16384 && okWalks i.walks

/-- Words of a record and its shadow are 32-bit words. -/
def RecordFault.wf (x : RecordFault) : Bool :=
  let words := fun (l : List Nat) => l.length ≤ 16 && l.all (fun w => w < 2 ^ 32)
  x.copies.all (fun c => words c.2) && x.shadow.all (fun r => words r.1 && r.2 < 2 ^ 32)

def LookupFault.wf (x : LookupFault) : Bool := x.index < 1048576 && x.found.wf

/-- A command is well formed. -/
def Instr.wf : Instr → Bool
  | .registerWrite _ _ size _ walks => okSize size && okWalks walks
  | .readClear _ _ size => okSize size
  | .pairLoRead _ _ => true
  | .pairLoWrite _ _ _ => true
  | .pairHiWrite _ _ _ => true
  | .mailboxWrite _ _ _ _ => true
  | .vauxApply _ => true
  | .vauxLoss => true
  | .porNAssert => true
  | .porNRelease => true
  | .railMonitorTrip => true
  | .sramInitDone => true
  | .selectSlot _ _ => true
  | .firmwareLoad _ => true
  | .unitLoad _ _ _ _ part => part.wf
  | .hbmFillStart _ => true
  | .hbmRegionFilled => true
  | .fuseKeyHashA => true
  | .fuseKeyHashB => true
  | .read256 => true
  | .program256 => true
  | .erase64k => true
  | .flashDone _ => true
  | .ptpMessageReceived _ m => decide (-128 ≤ m.logInterval) && decide (m.logInterval < 128)
  | .ptpMessageSend _ _ => true
  | .syncTimeout => true
  | .announceTimeout _ => true
  | .holdoverExpiry => true
  | .delayMechanismClear _ => true
  | .ref10Loss => true
  | .ppsEdge _ => true
  | .tickBoundary x => x.wf
  | .mediaStart => true
  | .restep _ => true
  | .restepStep _ newOffset => okOffset newOffset
  | .addFlow _ _ => true
  | .removeFlow _ _ => true
  | .addPoint _ _ => true
  | .removePoint _ _ => true
  | .checkFlow _ _ => true
  | .admissionEffective _ _ => true
  | .removalRelease _ _ => true
  | .windowClose _ => true
  | .mediaOverrun => true
  | .ledgerAudit _ => true
  | .frameArrival _ offset frame _ => okOffset offset && okFrame frame
  | .pipelineHeadAccept _ offset tableBad => okOffset offset && tableBad.all LookupFault.wf
  | .reorderRelease _ => true
  | .fabricTransfer offset => okOffset offset
  | .mediaEgress _ _ offset edge _ _ => okOffset offset && edge.all (fun e => okOffset e.2)
  | .beFrameStart _ offset => okOffset offset
  | .cutThroughStart _ offset => okOffset offset
  | .txComplete _ offset => okOffset offset
  | .txUnderrun _ offset => okOffset offset
  | .ctStepDecay _ => true
  | .headOfQueueTimeout _ _ offset => okOffset offset
  | .stagedWrite _ off _ => okWindow off
  | .tblCommit _ => true
  | .tblCommitEffective => true
  | .tblCommitSync => true
  | .replicaCompare _ _ => true
  | .flowEntryWrite _ _ _ _ => true
  | .ftuWindowWrite _ off _ => okWindow off
  | .lpmInsert _ => true
  | .lpmDelete _ => true
  | .lpmRead _ => true
  | .insertStatic _ => true
  | .deleteStatic _ => true
  | .macRead _ _ => true
  | .macFlush _ _ _ _ => true
  | .macFlushDone => true
  | .autoFlushStart => true
  | .portFlush => true
  | .ageClockStep => true
  | .shadowCompare _ index _ found => index < 1048576 && found.wf
  | .pointWrite _ _ _ _ => true
  | .termWrite _ _ _ => true
  | .gainRequest _ _ _ => true
  | .vfGainRequest _ _ _ => true
  | .listWrite _ off _ => okWindow off
  | .leakFix => true
  | .creditReset _ _ => true
  | .autoRearm _ => true
  | .rearm _ _ => true
  | .rearmEffective _ => true
  | .guardQuery _ _ => true
  | .limitWrite _ _ _ _ => true
  | .limitLowered _ _ => true
  | .overridePinFall _ offset => okOffset offset
  | .overridePinRise _ offset => okOffset offset
  | .overrideRelease offset => okOffset offset
  | .remoteOverrideEnd => true
  | .forceWrite _ _ => true
  | .forceEffective => true
  | .ovrPinDisagree => true
  | .sidebandWrite _ _ => true
  | .sidebandEffective => true
  | .sidebandMismatch _ _ => true
  | .gateListWrite _ _ _ => true
  | .gateCommit _ => true
  | .gateCommitDone => true
  | .cbsSlopeWrite _ _ _ => true
  | .cbsLimitWrite _ _ _ => true
  | .shaperInstanceWrite _ _ _ _ => true
  | .functionMapWrite _ _ _ => true
  | .shaperRelease offset => okOffset offset
  | .telemEnable _ _ => true
  | .telemConsWrite _ _ => true
  | .progWrite _ _ => true
  | .progRead _ _ => true
  | .keyLoad _ _ => true
  | .keyRewrite _ _ => true
  | .keyErase _ _ => true
  | .keySwitched _ => true
  | .eraseStart _ => true
  | .keyErased _ => true
  | .saWrite _ _ _ _ => true
  | .rxScWrite _ _ _ _ _ => true
  | .txSaWrite _ _ _ => true
  | .linkLock _ => true
  | .linkUp _ => true
  | .lockAttemptFail _ => true
  | .diagnosticDone _ _ _ => true
  | .linkDown _ _ offset => okOffset offset
  | .pauseFrame _ offset _ _ quanta => okOffset offset && quanta.length == 8
  | .pauseEnd _ _ offset => okOffset offset
  | .pauseStorm _ _ offset => okOffset offset
  | .pauseHoldoffEnd _ _ => true
  | .pauseModeWrite _ _ _ => true
  | .ctBaseWrite _ _ _ => true
  | .vlanCfgWrite _ _ _ _ => true
  | .vlanCfgEffective => true
  | .snap _ => true
  | .statsDone => true
  | .regFrameRead frame => okFrame frame
  | .regFrameWrite frame walks => okFrame frame && okWalks walks
  | .mgmtLinkChange _ _ => true
  | .requestSend => true
  | .witRequest _ offset _ msg => okOffset offset && okFrame msg
  | .witRelease _ offset _ msg => okOffset offset && okFrame msg
  | .witGrant _ offset msg => okOffset offset && okFrame msg
  | .witDeny _ offset msg => okOffset offset && okFrame msg
  | .witFence _ offset msg => okOffset offset && okFrame msg
  | .leaseExpiry => true
  | .fenceInFall offset => okOffset offset
  | .fenceInRise offset => okOffset offset
  | .hgcFenceWrite _ _ => true
  | .hgcReleaseWrite _ => true
  | .handover => true
  | .hgcLayerWrite _ => true
  | .hgcHoldWrite _ _ => true
  | .restartWindowEnd => true
  | .witnessLost => true
  | .replayTick => true
  | .hello _ _ _ m => m.wf
  | .heartbeat offset m => okOffset offset && m.wf
  | .carriedCommand _ _ op => op.wf
  | .hostMirror _ seq pkt => seq < 16777216 && okFrame pkt
  | .layerBulk => true
  | .bulkDone m => m.wf
  | .deltaDone m => m.wf
  | .layerDone => true
  | .partnerLost => true
  | .healthReport => true
  | .linkTrained _ _ _ _ => true
  | .linkRetrained _ _ _ _ => true
  | .dlDown _ => true
  | .perstAssert => true
  | .perstDeassert => true
  | .pf0Flr => true
  | .pf0D3 => true
  | .vfFlr _ => true
  | .vfD3 _ => true
  | .vfEnableClear _ => true
  | .watchdogExpiry offset => okOffset offset
  | .wdogKick _ offset => okOffset offset
  | .adopt _ _ => true
  | .readCompletion _ _ => true
  | .completionTimeout _ => true
  | .msixUnmask _ _ _ => true
  | .contextWrite _ _ _ _ => true
  | .invAll _ => true
  | .invFunc _ _ => true
  | .invRange _ _ _ => true
  | .invDone walks => okWalks walks
  | .logSync _ _ => true
  | .logSyncDone walks => okWalks walks
  | .setLimit _ _ _ => true
  | .poolAssign _ _ _ => true
  | .poolReclaim _ _ _ => true
  | .mbxSendToPf _ => true
  | .mbxSendToVf _ _ => true
  | .mbxAckByPf _ _ => true
  | .mbxAckByVf _ => true
  | .doorbellFetch _ _ _ _ walks => okWalks walks
  | .doorbellConsume _ _ _ _ => true
  | .wrrTurn walks => okWalks walks
  | .descriptorFetch _ entries walks => entries.all (fun e => e.1.all (fun b => b.length ≤ 64) && e.2 < 281474976710656) && okWalks walks
  | .txFrameRead _ _ walks => okWalks walks
  | .hostRxWrite _ walks => okWalks walks
  | .headPublish _ walks => okWalks walks
  | .mediaTxDeliver _ offset => okOffset offset
  | .submitComplete _ walks => okWalks walks
  | .ringContextWrite _ _ _ _ => true
  | .ringEnable _ _ => true
  | .ringDisable _ _ => true
  | .ringIdle _ walks => okWalks walks
  | .eventGrant walks => okWalks walks
  | .eventOverflow _ walks => okWalks walks
  | .eventSignal _ _ offset => okOffset offset
  | .nvmeFlush _ => true
  | .nvmeWrite _ _ walks => okWalks walks
  | .nvmeRead _ => true
  | .storageComplete _ _ _ _ _ walks => okWalks walks
  | .storageCmdTimeout _ _ _ => true
  | .openConn _ _ => true
  | .closeConn _ _ => true
  | .abortConn _ _ => true
  | .connUp _ _ => true
  | .tcpSegment _ m => m.wf
  | .tcpRetransmitTimeout _ => true
  | .peerRst _ _ _ => true
  | .icresp _ _ => true
  | .capsuleResp _ _ _ _ _ _ => true
  | .c2hData _ _ off _ _ _ _ _ walks => off < 4294967296 && okWalks walks
  | .readyToTransfer _ _ _ off len _ walks => off < 4294967296 && len < 4294967296 && okWalks walks
  | .c2hTermReq _ => true
  | .driveRequestUr => true
  | .presenceStable => true
  | .presenceLost => true
  | .attentionButton => true
  | .removalWindowEnd => true
  | .powerOn _ => true
  | .slotRemove _ => true
  | .powerFault => true
  | .slotPerstRelease => true
  | .slotTrainingDone _ _ => true
  | .identifyDone namespaces => namespaces.all DriveNs.wf
  | .shutdownComplete => true
  | .slotLinkDown => true
  | .namespaceWrite _ _ _ _ => true
  | .recordingWrite _ _ _ _ => true
  | .recStart _ _ => true
  | .recStop _ _ => true
  | .recStarted _ => true
  | .stopEffective _ => true
  | .chunkDue _ => true
  | .chunkWritten _ _ => true
  | .lockstepMismatch => true
  | .safetyWdogExpiry => true
  | .safetyOrder => true
  | .thermalTrip => true
  | .clockFault _ => true
  | .serviceHeartbeatMissed => true
  | .serviceRestart => true
  | .scrubVisit found _ => found.wf
  | .bistSlice _ _ _ => true
  | .tempUpdate temps => temps.length == 12
  | .resetCold _ _ => true
  | .resetWarm _ _ => true
  | .resetUnit _ _ _ => true
  | .warmResetEffective => true
  | .unitResetDone _ => true
  | .ref10Return => true
  | .ppsAbsent => true
  | .holdLockLoss _ _ => true
  | .hedgeLinkUp _ _ _ => true
  | .witClkLoss => true
  | .witClkRecovered => true
  | .returnToD0 _ => true
  | .capToExpiry => true
  | .removalDrainTimeout => true
  | .railsRestored => true
  | .serviceWaitTimeout size => okSize size
  | .connContextWrite _ _ _ _ => true

end Sys2Proof
end

