-- ==== Sys2Proof/Safety.lean ====
section
/-! DEFINITION. What counts as a safe run, in the terms that statements use: the canonical form of the stores, a run that never
stops, and how much of the state a command has changed. -/

namespace Sys2Proof.Machine

/-- Both stores are in canonical form: keys rise and no entry equals what an unlisted key reads as. -/
def State.canon (s : State) : Bool :=
  Sparse.wf resetWord s.regs && Sparse.wf flashBlank s.sup.flash

/-- What every command keeps, from `s` to `t`: the queue of waiting commands is not its to change; the stores stay canonical; what
has left the block stays as it left, and free values are taken in order; the device's identity is fused for good, a fused
owner-key hash is never changed or lost, and the least SECVER never falls (R37, R45, R62). -/
structure Keeps (s t : State) : Prop where
  pending : t.pending = s.pending
  canon : s.canon = true → t.canon = true
  out : s.out <:+ t.out
  free : s.free ≤ t.free
  mac : t.sup.otpMac = s.sup.otpMac
  secret : t.sup.deviceSecret = s.sup.deviceSecret
  fused : s.sup.otpKey.isSome = true → t.sup.otpKey = s.sup.otpKey
  secver : s.sup.otpSecver ≤ t.sup.otpSecver

/-- The command completes on `s`, with what `P` says of the next state. -/
def completes (c : Instr) (s : State) (P : State → Prop) : Prop := ∃ t, exec c s = .next t ∧ P t

/-- A run is safe while it takes next states alone. -/
def safe : Nat → State → Prop
  | 0, _ => True
  | n + 1, s => ∃ t, step s = .next t ∧ safe n t

/-- No register or window word outside `area` has changed. -/
def onlyWords (area : Nat → Bool) (s t : State) : Prop := ∀ k, area k = false → t.rd k = s.rd k

/-- The words that the fields `l` stand in. -/
def words (l : List Field) (k : Nat) : Bool := l.any (fun f => k == f.key || (decide (32 ≤ f.hi) && k == f.key + 4))

/-- The health log and its counter of records (R441). -/
def logWord (k : Nat) : Bool := inRange k 0x8000 0x8000 || words [Reg.SUP_HLOG_PROD] k

/-- The words in which EGU shows its credits and bucket levels, which move with time (R215, R217). -/
def settleWord (k : Nat) : Bool := inRange k 0x07002800 0x400 || inRange k 0x07240000 0x20000

/-- `u`, where EGU's credits and levels, and the free values their rounding takes, are as in `t` (R215). -/
def settled (u t : State) : State :=
  { u with
    egu := { u.egu with credits := t.egu.credits, levels := t.egu.levels, creditAt := t.egu.creditAt, levelAt := t.egu.levelAt }
    free := t.free }

/-- `u`, where TE has taken a message or stepped local time as in `t`: what EGU and the timers hold moves with local time (R69). -/
def timeStepped (u t : State) : State :=
  { u with
    te := t.te, free := t.free, egu := t.egu
    pxc := { u.pxc with paused := t.pxc.paused }, qe := { u.qe with rings := t.qe.rings }
    hiu := { u.hiu with kicked := t.hiu.kicked }, sup := { u.sup with svcTimes := t.sup.svcTimes } }

/-- From `s` to `t` registers change in `area` alone, and all else is as in `u`. -/
structure QuietFrame (area : Nat → Bool) (s u t : State) : Prop where
  words : onlyWords area s t
  rest : t = { u with regs := t.regs }

/-- The same where events are raised: the event stores lose nothing they held, and QE's count of lost events may rise. -/
structure NoisyFrame (area : Nat → Bool) (s u t : State) : Prop where
  words : onlyWords (fun k => area k || words [Reg.QE_ARB_LOST] k) s t
  kept : s.events <+: t.events
  rest : t = { u with regs := t.regs, events := t.events, once := t.once }

/-- The event that PF0 is to get stands last in its unit's store, where the store had room (R393, R394). -/
def posted (s t : State) (u : Unit') (type : Nat) (fields : List (Nat × Nat)) : Prop :=
  s.eventsOf u.num < 1024 → t.events = s.events ++ [⟨u.num, type, 0, .pf, payload fields⟩]

/-- The same for any event, whomever it is for. -/
def postedAs (s t : State) (e : Event) : Prop := s.eventsOf e.unit < 1024 → t.events = s.events ++ [e]

/-- PF0's requests leave as they are: the device is ATTACHED, HIU and TTU run, PF0 is awake, its context is in bypass, and no mark
of the dirty log waits (R351, R344). -/
def State.direct (s : State) : Bool :=
  s.attached && s.running .hiu && s.running .ttu && !s.asleep 0 && s.flag (Reg.CTX_VALID 0) &&
    s.get (Reg.CTX_MODE 0) == 2 && s.ttu.marks.isEmpty

/-- `n` bytes at `a` lie in one 4 KiB page of the input address space of 48 bits (R352, R353). -/
def onePage (a n : Nat) : Bool := decide (a % 4096 + n ≤ 4096) && decide (a + n ≤ 2 ^ 48)

/-- No read waits for a tag, and one is free for PF0 (R337). -/
def State.tagReady (s : State) : Bool := s.hiu.queue.isEmpty && s.tagFree 0

/-- PF0 owns ring `r`, and its slot of sequence `q` can be reached (R371, R374). -/
def State.slotReady (s : State) (r q : Nat) : Bool :=
  s.ringOwner r == some 0 && onePage (s.slotAddr r q) (entryBytes (s.ringType r))

end Sys2Proof.Machine
end

