-- ==== Sys2Proof/Certificates/Slice0/Obligations.lean ====
section
/-! DEFINITION. The statements for the provers. -/

open Sys2Proof Sys2Proof.Machine

/-- SYNC_TIMEOUT, ANNOUNCE_TIMEOUT, HOLDOVER_EXPIRY and the checks of the 10 MHz and 1PPS inputs complete: the state and the
flag that R66 and R67 give, the event, and nothing else but the servo's own counts and its steering of frequency. That GM_CHANGE
shows the last index where no grandmaster is left is the model's choice (log entry 11). -/
def Obligations.SyncLossCommandsComplete : Prop := ∀ s : State, s.canon = true →
  (s.syncState = 1 → completes .syncTimeout s fun t => t.syncState = 2 ∧ posted s t .te 2 [] ∧
    NoisyFrame (words [Reg.TE_SYNC_STATE_STATE, Reg.TE_FREQ_ADJ, Reg.HGC_STATE_NOT_FIT]) s
      { s with te := { s.te with goodFreqs := [], badRun := 0 }, free := t.free } t) ∧
  (s.syncState = 1 → s.flag Reg.TE_SYNC_STATE_REF10_OK = false → completes .syncTimeout s fun t =>
    t.get Reg.TE_FREQ_ADJ = ofSigned 32 s.te.freqEst) ∧
  (∀ gm : Fin 4, s.te.gm = some gm.val → s.te.announces.all (fun x => x.1 / 256 == gm.val) = true → s.syncState = 1 →
    completes (.announceTimeout gm) s fun t => t.te.gm = none ∧ t.te.announces = [] ∧ t.syncState = 2 ∧
      t.get Reg.TE_SYNC_STATE_PORT = 0xFF ∧
      (s.eventsOf 1 < 1023 → t.events = s.events ++
        [⟨1, 5, 0, .pf, payload [(8, s.get Reg.TE_SYNC_STATE_GM_INDEX)]⟩, ⟨1, 2, 0, .pf, payload []⟩]) ∧
      NoisyFrame (words [Reg.TE_SYNC_STATE_STATE, Reg.TE_FREQ_ADJ, Reg.HGC_STATE_NOT_FIT]) s
        { s with te := t.te, free := t.free } t) ∧
  (s.syncState = 2 → completes .holdoverExpiry s fun t => t.syncState = 3 ∧ posted s t .te 3 [] ∧
    NoisyFrame (words [Reg.TE_SYNC_STATE_STATE, Reg.HGC_STATE_NOT_FIT]) s s t) ∧
  (s.flag Reg.TE_CFG_REF10_EN = true →
    (s.te.refAbsent = false → s.flag Reg.TE_SYNC_STATE_REF10_OK = true → completes .ref10Loss s fun t =>
      t.flag Reg.TE_SYNC_STATE_REF10_OK = false ∧ t.te.refAbsent = true ∧ posted s t .te 6 [] ∧
      NoisyFrame (fun k => words [Reg.TE_SYNC_STATE_REF10_OK, Reg.TE_FREQ_ADJ] k || logWord k) s { s with te := t.te } t) ∧
    (s.te.refAbsent = false → s.flag Reg.TE_SYNC_STATE_REF10_OK = false → completes .ref10Loss s fun t => t.events = s.events) ∧
    (completes .ref10Return s fun t => t.flag Reg.TE_SYNC_STATE_REF10_OK = true ∧ (s.te.refAbsent = false ∨ t.te.refAbsent = false) ∧
      QuietFrame (words [Reg.TE_SYNC_STATE_REF10_OK, Reg.TE_FREQ_ADJ]) s { s with te := t.te, free := t.free } t)) ∧
  (s.flag Reg.TE_CFG_PPS_EN = true → s.syncState = 1 →
    (∀ e : Int, Int.natAbs e ≤ 1000 → completes (.ppsEdge e) s fun t => t.flag Reg.TE_SYNC_STATE_PPS_OK = true ∧
      QuietFrame (words [Reg.TE_SYNC_STATE_PPS_OK]) s { s with te := t.te } t) ∧
    (∀ e : Int, 1000 < Int.natAbs e → s.flag Reg.TE_SYNC_STATE_PPS_OK = true → completes (.ppsEdge e) s fun t =>
      t.flag Reg.TE_SYNC_STATE_PPS_OK = false ∧ posted s t .te 6 []) ∧
    (s.flag Reg.TE_SYNC_STATE_PPS_OK = true → completes .ppsAbsent s fun t =>
      t.flag Reg.TE_SYNC_STATE_PPS_OK = false ∧ posted s t .te 6 [] ∧
      NoisyFrame (fun k => words [Reg.TE_SYNC_STATE_PPS_OK] k || logWord k) s { s with te := t.te } t))

/-- The commands of the PTP exchange, the media start and RESTEP complete (R65 to R70). -/
def Obligations.TimeCommandsComplete : Prop := ∀ s : State, s.canon = true →
  (∀ (p : Fin 32) (m : PtpMsg) (g : Nat), s.ptpPort p = true → transportOk (s.get Reg.TE_CFG_PROFILE) m.transport = true →
    m.domain.val = s.get Reg.TE_CFG_DOMAIN → m.twoStep = false → m.unsupported = false → intervalOk m = true → p.val ∉ s.te.faulty →
    s.gmIndex m.gmId.toNat = some g → s.te.gm = some g → m.kind = .sync → s.syncState ≠ 4 →
    completes (.ptpMessageReceived p m) s fun t =>
      t.get Reg.TE_PTP_OFFSET = ofSigned 32 (clampInt (2 ^ 31 - 1) (s.offsetAt p m.offsetNs)) ∧ t.te.freqEst = m.ppb ∧
      (s.syncState ≠ 0 → NoisyFrame (words [Reg.TE_PTP_OFFSET, Reg.TE_FREQ_ADJ, Reg.TE_SYNC_STATE_STATE, Reg.HGC_STATE_NOT_FIT]) s
        { s with te := t.te, free := t.free } t) ∧
      NoisyFrame (fun k => words [Reg.TE_PTP_OFFSET, Reg.TE_FREQ_ADJ, Reg.TE_SYNC_STATE_STATE, Reg.HGC_STATE_NOT_FIT, Reg.TE_TICK,
        Reg.TE_OFFSET] k || settleWord k) s (timeStepped s t) t) ∧
  (∀ (p : Fin 32) (kind : PtpKind) (l : Bytes) (u : State), s.ptpPort p = true → p.val ∉ s.te.faulty → s.sendsPtp p kind = true →
    s.running .egu = true → s.isPaused p 8 = false → s.pxc.txStopped = false →
    s.macsecOut p (Config.ptpFrame [p, PtpKind.code kind, s.get Reg.TE_CFG_PROFILE, s.ptpTransport p, s.get Reg.TE_CFG_DOMAIN,
      s.ptpTime p kind]) = (some l, u) →
    completes (.ptpMessageSend p kind) s fun t => t.out = .ptp p kind l :: u.out ∧
      (kind = .sync → ∃ v, Assoc.get? t.te.sent (16 * p) = some v ∧ v ≤ 65536 * u.localNs + 262144 ∧
        65536 * u.localNs ≤ v + 262144) ∧
      QuietFrame (words [statField p 13, statField p 14, statField p 15, statField p 16]) u
        { u with out := t.out, free := t.free, te := { u.te with sent := t.te.sent } } t) ∧
  (∀ p : Fin 32, completes (.delayMechanismClear p) s fun t => p.val ∉ t.te.faulty ∧
    (∀ q, q ≠ p.val → (q ∈ t.te.faulty ↔ q ∈ s.te.faulty)) ∧
    t = { s with te := { s.te with faulty := t.te.faulty } }) ∧
  (s.te.wasLocked = true ∨ s.syncState = 1 → s.mediaRun = false → completes .mediaStart s fun t => t.mediaRun = true ∧
    t.get Reg.TE_CTL_RESTEP = 0 ∧ t.te.changes.all (fun c => c.tick.isSome) = true ∧ t.te.changes.length = s.te.changes.length ∧
    t.te.since = s.te.since.map (fun x => (x.1, x.2.1, min x.2.2 s.tick)) ∧
    QuietFrame (words [Reg.TE_SYNC_STATE_MEDIA_RUN, Reg.TE_CTL_RESTEP]) s
      { s with te := { s.te with changes := t.te.changes, since := t.te.since } } t) ∧
  (∀ r : Requester, s.mayWrite r Reg.TE_CTL_RESTEP.key = true → s.syncState = 4 → s.holdsLease = false →
    completes (.restep r) s fun t => t.flag Reg.TE_CTL_RESTEP = true ∧ QuietFrame (words [Reg.TE_CTL_RESTEP]) s s t) ∧
  (∀ (tick : Fin 281474976710656) (o : Nat), s.flag Reg.TE_CTL_RESTEP = true → s.mediaRun = true → s.media.flows = [] →
    s.media.copies = [] → completes (.restepStep tick o) s fun t => t.tick = tick.val ∧ t.offset = o % s.period ∧
      t.mediaRun = false ∧ t.syncState = 0 ∧
      t.te = { s.te with goodFreqs := [], badRun := 0, wasLocked := false } ∧
      QuietFrame (fun k => words [Reg.TE_SYNC_STATE_STATE, Reg.TE_TICK, Reg.TE_OFFSET, Reg.HGC_STATE_NOT_FIT] k || settleWord k) s
        { timeStepped s t with fpu := t.fpu } t)

/-- The topiary's commands complete (R77 to R80, R176): an admission that passes every check books its rows and is pending until
its tick; a removal is pending until two ticks after its own; CHECK says what ADD_FLOW would, and changes nothing else. -/
def Obligations.AdmissionCommandsComplete : Prop := ∀ s : State, s.canon = true → ∀ r : Requester, s.mayAdmit r = true →
  (∀ (id : Fin 65536) (t : Nat) (b : Booking), s.pairRole = false → s.admitCheck false id (s.get Reg.TE_ADMIT_TICK) = .ok t b →
    completes (.addFlow r id) s fun s' => s'.flag (Reg.FLOW_PENDING id) = true ∧
      s'.te.changes = s.te.changes ++ [⟨false, id, true, some t⟩] ∧ s'.te.books = s.te.books ++ [b] ∧
      s'.get Reg.TE_ADMIT_STATUS_RESULT = 0 ∧ s'.get Reg.TE_ADMIT_TICK = t % 2 ^ 48 ∧ posted s s' .te 7 [(8, 0), (8, 0), (16, id)]) ∧
  (∀ (id : Fin 8192) (t : Nat) (b : Booking), s.pairRole = false → s.admitCheck true id (s.get Reg.TE_ADMIT_TICK) = .ok t b →
    completes (.addPoint r id) s fun s' => s'.flag (Reg.FLOW_PENDING (s.get (Reg.POINT_OUT_FLOW id))) = true ∧
      s'.te.changes = s.te.changes ++ [⟨true, id, true, some t⟩] ∧ s'.te.books = s.te.books ++ [b] ∧
      s'.get Reg.TE_ADMIT_STATUS_RESULT = 0 ∧ posted s s' .te 7 [(8, 0), (8, 0), (16, id)]) ∧
  (∀ id : Fin 65536, s.pairRole = false → s.changeOf false id = none → s.flag (Reg.FLOW_PENDING id) = false →
    s.get (Reg.FLOW_SRC_KIND id) ≠ 2 → s.flag (Reg.FLOW_ADMITTED id) = true → s.get Reg.TE_ADMIT_TICK = 0 →
    s.tick + 2 < 2 ^ 48 →
    completes (.removeFlow r id) s fun s' => s'.flag (Reg.FLOW_PENDING id) = true ∧
      s'.te.changes = s.te.changes ++ [⟨false, id, false, some (s.tick + 2)⟩] ∧ s'.get Reg.TE_ADMIT_TICK = s.tick + 2 ∧
      s'.get Reg.TE_ADMIT_STATUS_RESULT = 0 ∧
      NoisyFrame (words [Reg.FLOW_PENDING id, Reg.TE_ADMIT_TICK, Reg.TE_ADMIT_STATUS_RESULT]) s { s with te := s'.te } s') ∧
  (∀ id : Fin 8192, s.pairRole = false → s.changeOf true id = none → s.flag (Reg.POINT_ADMITTED id) = true →
    s.get Reg.TE_ADMIT_TICK = 0 →
    completes (.removePoint r id) s fun s' => s'.flag (Reg.POINT_PENDING id) = true ∧
      s'.flag (Reg.FLOW_PENDING (s.get (Reg.POINT_OUT_FLOW id))) = true ∧
      s'.te.changes = s.te.changes ++ [⟨true, id, false, some (s.tick + 2)⟩] ∧ s'.get Reg.TE_ADMIT_STATUS_RESULT = 0) ∧
  (∀ (id : Fin 65536) (code row : Nat), s.admitCheck false id (s.get Reg.TE_ADMIT_TICK) = .fail code row →
    completes (.checkFlow r id) s fun s' => s'.get Reg.TE_ADMIT_STATUS_RESULT = code % 16 ∧
      s'.get Reg.TE_ADMIT_STATUS_ROW = row % 256 ∧ posted s s' .te 7 [(8, code), (8, row), (16, id)] ∧
      NoisyFrame (words [Reg.TE_ADMIT_STATUS_RESULT]) s s s') ∧
  (∀ (id : Fin 65536) (t : Nat) (b : Booking), s.admitCheck false id (s.get Reg.TE_ADMIT_TICK) = .ok t b →
    completes (.checkFlow r id) s fun s' => s'.get Reg.TE_ADMIT_STATUS_RESULT = 0 ∧
      NoisyFrame (words [Reg.TE_ADMIT_STATUS_RESULT]) s s s')

/-- What happens to flows at a tick completes (R79, R80, R84, R85): an addition takes effect, a removal is released two ticks
after its own, the window of a flow that nothing arrived for closes held and counted, and media whose outbound tick has ended is
discarded and counted. -/
def Obligations.FlowTickCommandsComplete : Prop := ∀ s : State, s.canon = true →
  (∀ (id : Fin 65536) (t : Nat), s.changeOf false id = some ⟨false, id, true, some t⟩ → t ≤ s.tick →
    completes (.admissionEffective false id) s fun s' => s'.flag (Reg.FLOW_ADMITTED id) = true ∧
      s'.flag (Reg.FLOW_PENDING id) = false ∧ s'.changeOf false id = none ∧ s'.te.since = (false, id.val, t) :: s.te.since ∧
      QuietFrame (words [Reg.FLOW_ADMITTED id]) s { s with te := s'.te } s') ∧
  (∀ (id : Fin 65536) (t : Nat), s.changeOf false id = some ⟨false, id, false, some t⟩ → t + 2 ≤ s.tick →
    completes (.removalRelease false id) s fun s' => s'.changeOf false id = none ∧
      s'.te.books = s.te.books.filter (fun b => !(b.isPoint == false && b.id == id.val))) ∧
  (∀ id : Fin 65536, s.mediaRun = true → s.admittedAt id s.tick = true →
    s.get (Reg.FLOW_SRC_KIND id) = 0 → (s.rt id).rx = [] → s.tick ∉ (s.rt id).held → 0 < (s.geometry id).packets →
    completes (.windowClose id) s fun s' => s.tick ∈ (s'.rt id).held ∧
      s'.get Reg.TE_INCOMPLETE = (s.get Reg.TE_INCOMPLETE + 1) % 2 ^ 64 ∧
      QuietFrame (words [Reg.TE_OFFSET, Reg.FLOW_INCOMPLETE id, Reg.TE_INCOMPLETE]) s { s with media := s'.media } s') ∧
  (∀ c : Copy, s.media.copies = [c] → c.outTick < s.tick → c.toRing = false → c.handles = [] →
    completes .mediaOverrun s fun s' => s'.media.copies = [] ∧
      s'.get Reg.TE_OVERRUN = (s.get Reg.TE_OVERRUN + ((s.geometry c.flow).packets - c.next)) % 2 ^ 64 ∧
      posted s s' .te 9 [(48, c.outTick)] ∧ NoisyFrame (words [Reg.TE_OVERRUN]) s { s with media := s'.media } s')

/-- The audit of the ledger (R437): whatever a fault has changed, every row reads the sum of the bookings after it. -/
def Obligations.LedgerAuditRepairs : Prop := ∀ (s : State) (found : List (Fin 40 × Word)), s.canon = true →
  completes (.ledgerAudit found) s fun t => t.te = s.te ∧
    ∀ row, row < 40 → t.used row = sumOf s.te.books (fun b => Assoc.getD b.rows row 0) % 2 ^ 32

/-- The tick counter moves on by one, and the offset starts over, at each boundary once TE is in RUN (R70).
Where the spec leaves it open it rests on the model's choice of log entry 84. -/
def Obligations.TickBoundaryCounts : Prop := ∀ (s : State) (i : TickInput), s.canon = true → s.running .te = true →
  completes (.tickBoundary i) s fun t => t.tick = (s.tick + 1) % 2 ^ 48 ∧ t.offset = 0

/-- What happens to a frame on its way in completes (R128, R130, R163, R277): a good frame of a port that is up joins the
distributor as it arrived, a head leaves its pipeline with what its passage gave it, the reorder stage lets a source's next head go,
and the fabric moves a descriptor under a credit to its destination's input stage, from which an enabled ring takes it. When that is
the spec does not say: the next cycle is the model's choice (log entry 92). -/
def Obligations.IngressCommandsComplete : Prop := ∀ s : State, s.canon = true →
  (∀ (p : Fin 32) (o : Nat) (l : Bytes) (line : LineReport), line.fcsOk = true → s.running .pxc = true → s.running .pcu = true →
    s.portUp p = true →
    60 ≤ l.length → l.length + 4 ≤ s.get (Reg.PXC_PORT_CFG_MTU p) → beAt l 12 2 ≠ 0x8808 → beAt l (etypeOff l) 2 ≠ 0x88B7 →
    (bitAt (s.get Reg.TE_PTP_PORTS) p && isPtp (s.get Reg.TE_CFG_PROFILE) l) = false →
      s.flag (Reg.PXC_VLAN_CFG_RX_STRIP p) = false → s.macsecOn p = false →
    completes (.frameArrival p o l line) s fun t => t.pcu.queue.length = s.pcu.queue.length + 1 ∧
      (∃ h ∈ t.pcu.queue, h.src = p.val ∧ h.frame = l ∧ h.good = true ∧ h.stamp.began = (s.moment o).localNs) ∧
      t.get (statField p 1) = (s.get (statField p 1) + 1) % 2 ^ 64) ∧
  (∀ (pipe : Fin 4) (o : Nat) (bad : Option LookupFault) (h : HeadIn) (n : Nat) (u : State), s.pcu.queue = [h] → h.pipe = pipe.val →
    h.media = false →
    State.passHead { s.moment o with pcu := { s.pcu with queue := [] } } h bad = (some n, u) → u.pcu.reorder = [] →
    completes (.pipelineHeadAccept pipe o bad) s fun t => t.pcu.reorder = [⟨h.src, h.seq, h.pipe, [n]⟩] ∧
      t.fpu = u.fpu ∧ t.egu = u.egu ∧ t.out = u.out) ∧
  (∀ (src : Fin 35) (n : Nat) (pipe : Nat) (f : Frame) (d : FrameDest),
    s.pcu.reorder = [⟨src, Assoc.getD s.pcu.released src 0, pipe, [n]⟩] → s.frame? n = some f → f.dests = [d] → f.copyDests = [] →
    completes (.reorderRelease src) s fun t => t.fpu = { s.fpu with voq := s.fpu.voq ++ [⟨f.pipe, false, false, n, [d], f.stamp⟩] } ∧
      t.pcu.reorder = [] ∧ Assoc.get? t.pcu.released src = some ((Assoc.getD s.pcu.released src 0 + 1) % 65536)) ∧
  (∀ (o : Nat) (p : Fin 4) (h r tc g : Nat) (st : Stamp), s.running .fpu = true → s.fpu.inputs = [] →
    s.fpu.voq = [⟨p, false, false, h, [⟨.ring r, tc, g⟩], st⟩] → 0 < s.creditOf p 33 →
    completes (.fabricTransfer o) s fun t => t.fpu.voq = [] ∧
      t.fpu.inputs = [(33, ⟨p, false, false, h, [⟨.ring r, tc, g⟩], st⟩)] ∧ t.creditOf p 33 + 1 = s.creditOf p 33 ∧
      QuietFrame (words [Reg.TE_OFFSET]) s { s with fpu := t.fpu } t) ∧
  (∀ (o : Nat) (p : Fin 4) (h r tc : Nat) (st : Stamp) (f : Frame), s.running .fpu = true → s.fpu.voq = [] →
    s.fpu.inputs = [(33, ⟨p, false, false, h, [⟨.ring r, tc, 0⟩], st⟩)] → s.frame? h = some f → f.good = true →
      s.flag (Reg.RING_ENABLE r) = true →
    completes (.fabricTransfer o) s fun t => t.fpu.inputs = [] ∧ t.creditOf p 33 = s.creditOf p 33 + 1 ∧
      t.qe.rxWait = s.qe.rxWait ++ [⟨r, some h, f.bytes, false, f.walk, f.src, some tc, f.authBad, none⟩] ∧
      QuietFrame (words [Reg.TE_OFFSET]) s { s with fpu := t.fpu, qe := t.qe } t)

/-- What happens to a frame on its way out completes (R166, R208 to R210, R219, R229, R279, R280). -/
def Obligations.EgressCommandsComplete : Prop := ∀ s : State, s.canon = true → ∀ o : Nat,
  (∀ (r : Fin 131072) (c : Copy) (out bad : Bool), s.running .egu = true → s.media.copies = [c] → c.toRing = true → c.target = r.val →
    c.outTick = s.tick → c.offset ≤ s.offset → c.first = false → c.handles = [] → c.next + 1 = (s.geometry c.flow).packets →
    s.rtuServes c.flow = true → s.guarded c.flow = false → s.classOf c.flow = 0 → s.get (Reg.FLOW_ENC_OUT c.flow) = 0 →
    s.attached = true → 0 < s.rxOwned r → s.tierZero = false → s.mayTransmit = true → s.hedgeState = 0 →
    completes (.mediaEgress true r o none out bad) s fun t => t.media.copies = [] ∧
      t.get (Reg.FLOW_TX_PKTS c.flow) = (s.get (Reg.FLOW_TX_PKTS c.flow) + 1) % 2 ^ 64 ∧
      t.qe.rxWait.length = s.qe.rxWait.length + 1) ∧
  (∀ (p : Fin 32) (q : Queued) (f : Frame) (l : Bytes) (v : State) (c : Option (Nat × Nat)) (u : State),
    (s.moment o).portIdle p = true → (s.moment o).mediaDue p = false → s.hgc.replayDue = [] →
    (s.moment o).settle.nextFrame p false = some q →
    (s.moment o).settle.frame? q.handle = some f → f.good = true → f.authBad = false →
    (s.moment o).settle.copyBytes q f = (some l, v) → v.takeHeadIf (some q.handle) (v.writesHeader q.dest.rewrite) = (c, u) →
    completes (.beFrameStart p o) s fun t =>
      Assoc.get? t.egu.tx q.port = some ⟨some q.handle, some q.dest.tc, l, true, false, u.localNs, u.wireNs q.port (l.length + 4),
        c, q.debt, none⟩ ∧
      t.egu.queues.length = (u.egu.queues.erase q).length ∧ t.regs = u.regs ∧ t.fpu = u.fpu) ∧
  (∀ (p : Fin 32) (q : Queued) (f : Frame) (l : Bytes) (v : State) (c : Option (Nat × Nat)) (u : State),
    (s.moment o).portIdle p = true → (s.moment o).mediaDue p = false →
    (s.moment o).settle.nextFrame p true = some q → q.cut = true → (s.moment o).settle.frame? q.handle = some f →
    (f.good = true ∧ f.authBad = false ∨ (s.moment o).settle.bytesIn f < f.bytes.length + 4) →
    (s.moment o).settle.copyBytes q f = (some l, v) → v.takeHeadIf (some q.handle) (v.writesHeader q.dest.rewrite) = (c, u) →
    completes (.cutThroughStart p o) s fun t =>
      Assoc.get? t.egu.tx q.port = some ⟨some q.handle, some q.dest.tc, l, f.good && !f.authBad, true, u.localNs,
        u.wireNs q.port (l.length + 4), c, q.debt, none⟩ ∧
      t.egu.queues.length = (u.egu.queues.erase q).length ∧ t.regs = u.regs ∧ t.fpu = u.fpu) ∧
  (∀ (p : Fin 32) (x : Tx), Assoc.get? s.egu.tx p = some x → x.start + x.wire ≤ (s.moment o).localNs →
    completes (.txComplete p o) s fun t => Assoc.get? t.egu.tx p = none ∧ t.out = .frame p x.bytes x.good :: s.out) ∧
  (∀ (p : Fin 32) (x : Tx), Assoc.get? s.egu.tx p = some x → 0x20500 + p.val ∉ s.once →
    completes (.txUnderrun p o) s fun t => Assoc.get? t.egu.tx p = none ∧
      t.out = .frame p (x.bytes.take ((s.moment o).bytesSent p x)) false :: s.out ∧
      t.get (Reg.PXC_PORT_STATUS_CT_STEP p) = min 6 (s.get (Reg.PXC_PORT_STATUS_CT_STEP p) + 1)) ∧
  (∀ (p : Fin 32), 65536 ≤ Assoc.getD s.egu.ctRun p 0 →
    s.get (Reg.PXC_PORT_CFG_CT_BASE p) < s.get (Reg.PXC_PORT_STATUS_CT_STEP p) →
    completes (.ctStepDecay p) s fun t =>
      t.get (Reg.PXC_PORT_STATUS_CT_STEP p) = s.get (Reg.PXC_PORT_STATUS_CT_STEP p) - 1 ∧
      posted s t .pxc 5 [(8, p), (8, s.get (Reg.PXC_PORT_STATUS_CT_STEP p) - 1)] ∧
      NoisyFrame (words [Reg.PXC_PORT_STATUS_CT_STEP p]) s { s with egu := { s.egu with ctRun := Assoc.erase s.egu.ctRun p } } t) ∧
  (∀ (p : Fin 32) (c : Fin 8) (q : Queued), s.headOf p c = some q → q.headSince + s.period ≤ (s.moment o).localNs →
    completes (.headOfQueueTimeout p c o) s fun t => t.egu.queues.length = (s.egu.queues.filter (· != q)).length ∧
      t.get Reg.EGU_GATE_DROP = (s.get Reg.EGU_GATE_DROP + 1) % 2 ^ 64) ∧
  (∀ (k : Nat) (q : Queued) (ds : List (Nat × Int)), s.running .egu = true → s.egu.shaper = [(k, q)] →
    (s.moment o).settle.eligible k = some (q, ds) →
    completes (.shaperRelease o) s fun t => t.egu.shaper = [] ∧ t.egu.queues.length = s.egu.queues.length + 1)

/-- The link commands of the MAC ports complete (R274 to R276). LINK_LOCK takes a DOWN port to HOLD and ends its diagnosis; LINK_UP
takes a HOLD port to UP, with REASON 0 and the event LINK_UP; LOCK_ATTEMPT_FAIL starts the diagnosis, and DIAGNOSTIC_DONE ends it
with its REASON, the event LINK_MISMATCH being raised where the REASON is a new one of 4 to 6; HOLD_LOCK_LOSS takes a HOLD port to
DOWN with its REASON and the same event; LINK_DOWN takes an UP port to DOWN with its REASON, counts it, ends its pauses and raises
the event LINK_DOWN. -/
def Obligations.LinkCommandsComplete : Prop := ∀ s : State, s.canon = true → s.running .pxc = true → ∀ p : Fin 32,
  (s.portState p = 1 → completes (.linkLock p) s fun t => t.portState p = 2 ∧
    QuietFrame (words [Reg.PXC_PORT_STATUS_STATE p]) s
      { s with pxc := { s.pxc with diag := s.pxc.diag.filter (· != p.val) } } t) ∧
  (s.portState p = 2 → completes (.linkUp p) s fun t => t.portState p = 3 ∧ t.get (Reg.PXC_PORT_STATUS_REASON p) = 0 ∧
    t.get (Reg.PXC_PORT_STATUS_OBS_POL p) = 0 ∧ posted s t .pxc 1 [(8, p)] ∧
    NoisyFrame (words [Reg.PXC_PORT_STATUS_STATE p]) s s t) ∧
  (s.portState p = 1 → p.val ∉ s.pxc.diag → completes (.lockAttemptFail p) s fun t =>
    t = { s with pxc := { s.pxc with diag := p.val :: s.pxc.diag } }) ∧
  (∀ (reason : Fin 9) (pol : Fin 16), p.val ∈ s.pxc.diag → completes (.diagnosticDone p reason pol) s fun t =>
    t.get (Reg.PXC_PORT_STATUS_REASON p) = reason + 1 ∧
    t.get (Reg.PXC_PORT_STATUS_OBS_POL p) = (if reason.val = 3 then pol.val else 0) ∧ p.val ∉ t.pxc.diag ∧
    (3 ≤ reason.val → reason.val ≤ 5 → s.get (Reg.PXC_PORT_STATUS_REASON p) ≠ reason.val + 1 →
      posted s t .pxc 3 [(8, p), (8, reason.val + 1), (8, if reason.val = 3 then pol.val else 0)]) ∧
    NoisyFrame (fun k => words [Reg.PXC_PORT_STATUS_REASON p] k || logWord k) s { s with pxc := t.pxc } t) ∧
  (∀ reason : Fin 9, s.portState p = 2 → completes (.holdLockLoss p reason) s fun t => t.portState p = 1 ∧
    t.get (Reg.PXC_PORT_STATUS_REASON p) = reason + 1 ∧
    (3 ≤ reason.val → reason.val ≤ 5 → s.get (Reg.PXC_PORT_STATUS_REASON p) ≠ reason.val + 1 →
      posted s t .pxc 3 [(8, p), (8, reason.val + 1), (8, 0)]) ∧
    NoisyFrame (fun k => words [Reg.PXC_PORT_STATUS_REASON p] k || logWord k) s s t) ∧
  (∀ (reason : Fin 9) (o : Nat), s.portUp p = true → Assoc.get? s.egu.tx p = none → s.egu.queues = [] → s.egu.shaper = [] →
    completes (.linkDown p reason o) s fun t => t.portState p = 1 ∧ t.get (Reg.PXC_PORT_STATUS_REASON p) = reason + 1 ∧
      t.get (statField p 22) = (s.get (statField p 22) + 1) % 2 ^ 64 ∧ (∀ c, c ≤ 8 → t.isPaused p c = false) ∧ t.fpu = s.fpu ∧
      (s.eventsOf 2 < 1023 → (⟨2, 2, 0, .pf, payload [(8, p), (8, reason.val + 1)]⟩ : Event) ∈ t.events))

/-- The pause commands complete (R284, R285, R287): a PAUSE frame pauses the port it names, and its end, its storm and the
end of the hold-off undo that. -/
def Obligations.PauseCommandsComplete : Prop := ∀ s : State, s.canon = true → ∀ (p : Fin 32) (o : Nat),
  (∀ (n : BitVec 16), s.running .pxc = true → s.portUp p = true → s.get (Reg.PXC_PAUSE_CFG_MODE p) = 1 → n ≠ 0 →
    pauseKey p 8 ∉ s.pxc.holdoff → s.isPaused p 8 = false → completes (.pauseFrame p o 1 0 [n]) s fun t =>
      t.isPaused p 8 = true ∧ t.get (Reg.PXC_PORT_STATUS_PORT_PAUSED p) = 1 ∧
      t.get (statField p 7) = (s.get (statField p 7) + 1) % 2 ^ 64 ∧
      QuietFrame (fun k => words ([Reg.TE_OFFSET, Reg.PXC_PORT_STATUS_PORT_PAUSED p, statField p 0, statField p 1, statField p 2,
        statField p 3, statField p 7]) k || settleWord k) s (settled { s with pxc := { s.pxc with paused := t.pxc.paused } } t) t) ∧
  (∀ c : Fin 9, s.isPaused p c = true → completes (.pauseEnd p c o) s fun t => t.isPaused p c = false ∧
    t.get (pauseField p c) = 0 ∧
    QuietFrame (fun k => words ([Reg.TE_OFFSET, Reg.PXC_PORT_STATUS_PORT_PAUSED p, statField p 21]) k || settleWord k) s
      (settled { s with pxc := { s.pxc with paused := t.pxc.paused } } t) t) ∧
  (∀ c : Fin 9, s.isPaused p c = true → completes (.pauseStorm p c o) s fun t => t.isPaused p c = false ∧
    pauseKey p c ∈ t.pxc.holdoff ∧ t.get (statField p 23) = (s.get (statField p 23) + 1) % 2 ^ 64 ∧
    posted s t .pxc 4 [(8, p), (8, if c.val = 8 then 0xFF else c)]) ∧
  (∀ c : Fin 9, completes (.pauseHoldoffEnd p c) s fun t => pauseKey p c ∉ t.pxc.holdoff ∧
    t = { s with pxc := { s.pxc with holdoff := t.pxc.holdoff } }) ∧
  (∀ (r : Requester) (v : Word), s.mayWrite r (Reg.PXC_PAUSE_CFG_MODE p).key = true → bits v.toNat 30 2 = 0 →
    100 ≤ bits v.toNat 12 18 → bits v.toNat 0 12 ≠ 0 → completes (.pauseModeWrite r p v) s fun t =>
      t.rd (Reg.PXC_PAUSE_CFG_MODE p).key = v.toNat ∧ ∀ c, c ≤ 8 → t.isPaused p c = false)

/-- The configuration and statistics commands of PXC complete (R280, R282, R291, R292). -/
def Obligations.PortConfigCommandsComplete : Prop := ∀ s : State, s.canon = true →
  (∀ (r : Requester) (p : Fin 32) (v : Word), s.mayWrite r (Reg.PXC_PORT_CFG_CT_BASE p).key = true → bits v.toNat 21 3 ≠ 7 →
    s.flag (Reg.UNIT_SEALED 2) = false → completes (.ctBaseWrite r p v) s fun t =>
      t.get (Reg.PXC_PORT_STATUS_CT_STEP p) = bits v.toNat 21 3 ∧ t.get (Reg.PXC_PORT_CFG_CT_BASE p) = bits v.toNat 21 3 ∧
      QuietFrame (words [Reg.PXC_PORT_STATUS_CT_STEP p, Reg.PXC_PORT_CFG_CT_BASE p]) s s t) ∧
  (∀ (r : Requester) (p : Fin 32) (pcp : Bool) (v : Word), s.mayWrite r (vlanKey pcp p) = true → (pcp = false → bits v.toNat 28 2 < 2) →
    s.pairRole = false → completes (.vlanCfgWrite r p pcp v) s fun t =>
      t = { s with pxc := { s.pxc with pending := s.pxc.pending ++ [(vlanKey pcp p, v.toNat &&& vlanMask pcp, s.tick + 2)] } }) ∧
  (∀ (k v at_ : Nat) (rest : List (Nat × Nat × Nat)), s.pxc.pending = (k, v, at_) :: rest → at_ ≤ s.tick → v < 2 ^ 32 →
    completes .vlanCfgEffective s fun t => t.rd k = v ∧
      QuietFrame (fun j => j == k) s { s with pxc := { s.pxc with pending := rest } } t) ∧
  (∀ r : Requester, s.mayWrite r Reg.PXC_STATS_CTL_BUSY.key = true → s.flag Reg.PXC_STATS_CTL_BUSY = false →
    completes (.snap r) s fun t => t.flag Reg.PXC_STATS_CTL_BUSY = true ∧ t.flag Reg.PXC_STATS_CTL_SNAP = true ∧
      QuietFrame (words [Reg.PXC_STATS_CTL_BUSY]) s { s with pxc := { s.pxc with snapTick := s.tick } } t) ∧
  (∀ p : Fin 32, s.flag Reg.PXC_STATS_CTL_BUSY = true → s.flag Reg.PXC_STATS_CTL_TICK_ALIGN = false →
    s.get Reg.PXC_STATS_PORTS = 2 ^ p.val → s.isPaused p 8 = false → completes .statsDone s fun t =>
      (∀ i, i < 32 → t.get (shadowField p i) = s.get (statField p i)) ∧ t.flag Reg.PXC_STATS_CTL_BUSY = false ∧
      t.get Reg.PXC_STATS_SNAP_TICK_TICK = s.tick ∧ t.get Reg.PXC_STATS_SNAP_OFFSET_OFFSET = s.offset ∧ posted s t .pxc 6 []) ∧
  (∀ reason : Fin 11,
    (s.powered = true → completes (.mgmtLinkChange true reason) s fun t => t.flag Reg.SUP_MGMT_STATUS_UP = true ∧
      t.get Reg.SUP_MGMT_STATUS_REASON = 0 ∧ NoisyFrame (words [Reg.SUP_MGMT_STATUS_UP]) s s t) ∧
    (s.powered = true → reason.val ≠ 10 ∨ s.get Reg.SUP_MGMT_CFG_MODE ≠ 0 → completes (.mgmtLinkChange false reason) s fun t =>
      t.flag Reg.SUP_MGMT_STATUS_UP = false ∧ t.get Reg.SUP_MGMT_STATUS_REASON = reason ∧
      (s.flag Reg.SUP_MGMT_STATUS_UP = false → 4 ≤ reason.val → reason.val ≤ 6 → s.get Reg.SUP_MGMT_STATUS_REASON ≠ reason.val →
        posted s t .pxc 3 [(8, 0xFF), (8, reason), (8, 0)]) ∧
      NoisyFrame (fun k => words [Reg.SUP_MGMT_STATUS_UP] k || logWord k) s s t))

/-- The commands of the power pins complete (R446 to R450, R454, R461): while POR_N is low or a rail is down the words of domain
AON stand and all others are at reset. After a COLD reset every word outside domain AON reads its reset value but CKU_DEV_PUB,
which holds the public key derived from the fused secret (R246), BOOT has counted and CAUSE names the source; flash and OTP stay. -/
def Obligations.PowerCommandsComplete : Prop := ∀ s : State, s.canon = true →
  (∀ ok : Bool, completes (.vauxApply ok) s fun t => t.sup.vaux = true ∧ t.sup.porLow = true ∧ t.sup.otpOk = ok ∧
    t.sup.flash = s.sup.flash ∧ t.get Reg.SUP_OTP_STATUS_OTP_OK = (if ok then 1 else 0) ∧ t.rd 0x1308 = s.sup.otpMac % 2 ^ 32 ∧
    ∀ k, k ≠ 0x1024 → k ≠ 0x1308 → k ≠ 0x130C → t.rd k = (resetWord k).toNat) ∧
  (completes .vauxLoss s fun t => (∀ k, isAon k = true → t.rd k = (resetWord k).toNat) ∧
    QuietFrame isAon s { s with sup := { s.sup with vaux := false } } t) ∧
  (completes .porNAssert s fun t => t = { s.hold with sup := { s.hold.sup with porLow := true } } ∧
    (∀ k, t.rd k = if isAon k then s.rd k else (resetWord k).toNat) ∧ (s.sup.flashOp = none → t.sup.flash = s.sup.flash)) ∧
  (completes .railMonitorTrip s fun t => t = { s.hold with sup := { s.hold.sup with railTrip := true } } ∧
    (∀ k, t.rd k = if isAon k then s.rd k else (resetWord k).toNat) ∧ (s.sup.flashOp = none → t.sup.flash = s.sup.flash)) ∧
  (s.sup.flashOp = none → completes .porNRelease s fun t => t.sup.porLow = false ∧
    t.get Reg.SUP_RESET_CAUSE_BOOT = (s.get Reg.SUP_RESET_CAUSE_BOOT + 1) % 256 ∧
    t.get Reg.SUP_RESET_CAUSE_CAUSE = (if s.sup.vauxFresh then 0 else 1) ∧ t.rd 0x1000 = 0x10100 ∧
    (∀ k, isAon k = false → inRange k 0x08001200 0x64 = false → t.rd k = (resetWord k).toNat) ∧
    (∀ i, i < 25 → t.rd (0x08001200 + 4 * i) =
      leAt ((Config.p384Public (Config.devicePrivate s.sup.deviceSecret)).take 97) (4 * i) 4) ∧
    (∀ k, isAon k = true → k ≠ 0x1000 → k ≠ 0x1608 → t.rd k = s.rd k) ∧
    t.sup.flash = s.sup.flash ∧ t.sup.otpKey = s.sup.otpKey ∧ t.fpu = FpuState.reset ∧ t.media = MediaState.reset) ∧
  (s.sup.flashOp = none → s.sup.railTrip = true → s.sup.porLow = false → completes .railsRestored s fun t =>
    t.sup.railTrip = false ∧ t.get Reg.SUP_RESET_CAUSE_CAUSE = 1 ∧
    t.get Reg.SUP_RESET_CAUSE_BOOT = (s.get Reg.SUP_RESET_CAUSE_BOOT + 1) % 256 ∧
    (∀ k, isAon k = false → inRange k 0x08001200 0x64 = false → t.rd k = (resetWord k).toNat) ∧ t.sup.flash = s.sup.flash) ∧
  (s.powered = true → completes .sramInitDone s fun t => t.sup.sramReady = true ∧ t.get Reg.SUP_CLK_STATUS_REFCLK_OK = 1 ∧
    (∀ i ∈ [0, 1, 2, 16], bitAt (t.get Reg.SUP_CLK_STATUS_LOCKED) i = true) ∧
    QuietFrame (words [Reg.SUP_CLK_STATUS_LOCKED]) s { s with sup := { s.sup with sramReady := true } } t)

/-- The commands of the boot, the HBM fill, OTP and the flash controller complete (R44, R47, R50, R62, R63). -/
def Obligations.BootCommandsComplete : Prop := ∀ s : State, s.canon = true →
  (∀ a b : Bool, s.sup.sramReady = true → s.sup.bootSlot = none → s.get Reg.SUP_BOOT_STATUS_STAGE ≠ 4 →
    (s.flag Reg.SUP_BOOT_CTL_FORCE_RECOVERY = true → completes (.selectSlot a b) s fun t =>
      t.get Reg.SUP_BOOT_STATUS_STAGE = 4 ∧ t.flag Reg.SUP_BOOT_CTL_FORCE_RECOVERY = false ∧ t.running .sup = true) ∧
    (∀ p r : Nat, s.flag Reg.SUP_BOOT_CTL_FORCE_RECOVERY = false → s.get Reg.SUP_BOOT_CTL_PREFER = p →
      State.slotResult (s.put Reg.SUP_BOOT_STATUS_STAGE 1) p (if p = 0 then a else b) = r →
      completes (.selectSlot a b) s fun t => t.sup.flash = s.sup.flash ∧
        (r = 0 → t.get Reg.SUP_BOOT_STATUS_STAGE = 2 ∧ t.sup.bootSlot = some p ∧ t.get Reg.SUP_BOOT_STATUS_SLOT = p + 1) ∧
        (r ≠ 0 → t.get (slotField p) = r % 256 ∧ t.sup.bootSlot ≠ some p))) ∧
  (∀ (slot : Nat) (sv safe : Section) (pair : Bool), s.sup.bootSlot = some slot → s.sup.firmware = false → s.bootSection 1 = some sv →
    s.bootSection 2 = some safe → completes (.firmwareLoad ⟨false, true, pair⟩) s fun t =>
      (s.digestOk slot sv = true → s.digestOk slot safe = true → t = { s with
        sup := { s.sup with firmware := true, imagePair := pair && (s.bootSection 0xF).isSome } }) ∧
      (s.digestOk slot sv = false ∨ s.digestOk slot safe = false → t.sup.bootSlot = none ∧
        t.flag (if slot = 0 then Reg.SUP_BOOT_CTL_SKIP_A else Reg.SUP_BOOT_CTL_SKIP_B) = true)) ∧
  (∀ l : List (Fin 64), s.sup.filling = false → s.powered = true → completes (.hbmFillStart l) s fun t => t.sup.filling = true ∧
    (∀ k, k < 64 → k ∈ t.sup.fillOrder) ∧ bitAt (t.get Reg.SUP_CLK_STATUS_LOCKED) 3 = true ∧
    QuietFrame (fun k => words [Reg.SUP_CLK_STATUS_LOCKED] k || k == 0x1620) s { s with sup := t.sup } t) ∧
  (∀ (k : Nat) (rest : List Nat), k < 64 → s.sup.fillOrder = k :: rest → completes .hbmRegionFilled s fun t =>
    t.flag (fillBit k) = true ∧ t.sup.fillOrder = rest ∧ k ∉ t.sup.hbmHeld ∧
    QuietFrame (words [fillBit k]) s { s with sup := t.sup } t) ∧
  (s.powered = true → s.get Reg.SUP_BOOT_STATUS_STAGE = 4 → s.flag Reg.SUP_OTP_STATUS_KEY_FUSED = false → s.sup.otpKey = none →
    (completes .fuseKeyHashA s fun t => t.sup.otpKey = some (Config.sha384 (s.flashBytes 0x50 97)) ∧
      t.flag Reg.SUP_OTP_STATUS_KEY_FUSED = true ∧
      QuietFrame (words [Reg.SUP_OTP_STATUS_KEY_FUSED]) s { s with sup := t.sup } t) ∧
    (completes .fuseKeyHashB s fun t => t.sup.otpKey = some (Config.sha384 (s.flashBytes 0x1000050 97)) ∧
      t.flag Reg.SUP_OTP_STATUS_KEY_FUSED = true ∧
      QuietFrame (words [Reg.SUP_OTP_STATUS_KEY_FUSED]) s { s with sup := t.sup } t)) ∧
  (s.powered = true → s.flag Reg.SUP_FLASH_CTL_BUSY = false → ∀ c ∈ [(1, Instr.read256), (2, .program256), (3, .erase64k)],
    completes c.2 s fun t => t.flag Reg.SUP_FLASH_CTL_BUSY = true ∧
      QuietFrame (words [Reg.SUP_FLASH_CTL_BUSY]) s { s with sup := { s.sup with flashOp := some (c.1, s.get Reg.SUP_FLASH_ADDR) } } t)

/-- FLASH_DONE (R63): a program or an erase changes the bytes at its address and no other; a read fills the buffer; an operation
that is refused leaves the flash untouched; BUSY clears with ERR. -/
def Obligations.FlashDoneBytes : Prop := ∀ (s : State) (a : Nat), s.canon = true →
  (s.sup.flashOp = some (2, a) → s.flashErr 2 a = 0 → completes (.flashDone true) s fun t =>
    (∀ x, t.flashByte x = if a ≤ x ∧ x < a + 256
      then BitVec.ofNat 8 (s.rd (0x1100 + (x - a) / 4 * 4) / 256 ^ ((x - a) % 4)) else s.flashByte x) ∧
    t.flag Reg.SUP_FLASH_CTL_BUSY = false ∧ t.get Reg.SUP_FLASH_CTL_ERR = 0 ∧
    NoisyFrame (words [Reg.SUP_FLASH_CTL_BUSY]) s { s with sup := t.sup } t) ∧
  (s.sup.flashOp = some (3, a) → s.flashErr 3 a = 0 → completes (.flashDone true) s fun t =>
    (∀ x, t.flashByte x = if a ≤ x ∧ x < a + 65536 then 0xFF else s.flashByte x) ∧ t.flag Reg.SUP_FLASH_CTL_BUSY = false ∧
    NoisyFrame (words [Reg.SUP_FLASH_CTL_BUSY]) s { s with sup := t.sup } t) ∧
  (s.sup.flashOp = some (1, a) → s.flashErr 1 a = 0 → completes (.flashDone true) s fun t =>
    (∀ i, i < 64 → t.rd (0x1100 + 4 * i) = ofLE (s.flashBytes (a + 4 * i) 4)) ∧ t.sup.flash = s.sup.flash ∧
    t.flag Reg.SUP_FLASH_CTL_BUSY = false ∧
    NoisyFrame (fun k => words [Reg.SUP_FLASH_CTL_BUSY] k || inRange k 0x1100 0x100) s { s with sup := t.sup } t) ∧
  (∀ (op : Nat) (device : Bool), s.sup.flashOp = some (op, a) → s.flashErr op a ≠ 0 → completes (.flashDone device) s fun t =>
    t.sup.flash = s.sup.flash ∧ t.get Reg.SUP_FLASH_CTL_ERR = s.flashErr op a ∧ t.flag Reg.SUP_FLASH_CTL_BUSY = false)

/-- Register accesses of PF0 complete while the link is up and its Memory Space Enable is 1 (R9, R10, R13, R335, R344). A read of
an aligned word answers the word, as credits, levels, pause times and free cells stand at present (R169, R215, R217, R290), and
clears what a read clears; the low word of a 64-bit register captures the high word for its reader; a write takes effect field by
field under each field's access type; a low half is held, and the high half commits both. -/
def Obligations.RegisterAccessesComplete : Prop := ∀ s : State, s.canon = true → s.sup.svcRestarting = false →
    s.served .pf0 = true →
  (∀ k, k < 0x10000000 → k % 4 = 0 → isPairLow k = false → isPairLow (k - 4) = false → k ≠ offsetKey →
    completes (.readClear .pf0 ⟨.bar0, k⟩ 4) s fun t => t.reply = some (.data ((s.settleFor k).readWord k)) ∧
      t.rd k = ((s.settleFor k).clearRc k).rd k ∧ (settleWord k = false → inRange k 0x02008000 0x2000 = false → k ≠ Reg.FPU_FREE.key →
        inRange k 0x0B200000 0x40000 = false → s.settleFor k = s) ∧
      QuietFrame (fun j => j == k) (s.settleFor k) { s.settleFor k with reply := t.reply } t) ∧
  (∀ k, k < 0x10000000 → k % 4 = 0 → isPairLow k = true → k ≠ tickLoKey →
    completes (.pairLoRead .pf0 ⟨.bar0, k⟩) s fun t => t.reply = some (.data ((s.settleFor k).readWord k)) ∧
      (t.holdOf .pf0 k).capHi = some ((s.settleFor k).readWord (k + 4))) ∧
  (∀ (k : Nat) (v : BitVec 64) (w : List Walk8), k / 0x1000000 = 6 → k % 4 = 0 → inRange k 0x06001040 0x20 = false →
    isPairLow k = false → isPairLow (k - 4) = false →
    completes (.registerWrite .pf0 ⟨.bar0, k⟩ 4 v w) s fun t => t.reply = some .done ∧
      t.rd k = (match (if s.shows k then rowOf k else none) with
        | some row => row.fields.foldl (writeField (s.flag (Reg.UNIT_SEALED 6)) (v.toNat % 2 ^ 32)) (s.rd k) % 2 ^ 32
        | none => s.rd k) ∧
      NoisyFrame (fun j => j == k || logWord j) s { s with reply := some .done, ttu := { s.ttu with walks := [] } } t) ∧
  (∀ (k : Nat) (v : Word), k < 0x10000000 → k % 4 = 0 → isPairLow k = true →
    completes (.pairLoWrite .pf0 ⟨.bar0, k⟩ v) s fun t => (t.holdOf .pf0 k).wrLo = some v.toNat ∧
      t = { s with reply := some .done, holds := t.holds }) ∧
  (∀ (lo : Nat) (v : Word), s.mayWrite .pf0 0x01001108 = true → (s.holdOf .pf0 0x01001108).wrLo = some lo → lo < 2 ^ 32 →
    completes (.pairHiWrite .pf0 ⟨.bar0, 0x0100110C⟩ v) s fun t => t.get Reg.TE_ADMIT_TICK = (lo + 2 ^ 32 * v.toNat) % 2 ^ 48 ∧
      (t.holdOf .pf0 0x01001108).wrLo = none ∧
      QuietFrame (words [Reg.TE_ADMIT_TICK]) s { s with reply := some .done, holds := t.holds } t)

/-- The frames of the management port and the return of the service cores complete (R293, R294, R427): a request that is new gets
one response with its status, a read gets its words, and a write is served; once the service cores run again nothing is held; a read
that has waited for them 1 ms completes with all ones, and a frame that has is not answered. -/
def Obligations.ServiceAccessesComplete : Prop := ∀ s : State, s.canon = true →
  (∀ l : Bytes, s.framesServed = true → s.sup.svcRestarting = false → s.frameMine l = true → s.pxc.txStopped = false → beAt l 15 1 = 1 →
    s.sup.frameReplies.find? (fun x => x.1 == beAt l 6 6 && x.2.1 == beAt l 16 2) = none →
    completes (.regFrameRead l) s fun t => ∃ r : Bytes, t.out = .mgmt r :: s.out ∧ beAt r 0 6 = beAt l 6 6 ∧
      beAt r 16 2 = beAt l 16 2 ∧ beAt r 23 1 = s.frameStatus (l.drop 14) ∧
      (s.frameStatus (l.drop 14) = 0 → beAt r 26 4 = ((s.settleFor (beAt l 18 4)).read32 .frame (beAt l 18 4)).1 % 2 ^ 32)) ∧
  (∀ (l : Bytes) (w : List Walk8), s.framesServed = true → s.sup.svcRestarting = false → s.frameMine l = true →
    s.pxc.txStopped = false → beAt l 15 1 = 2 →
    s.sup.frameReplies.find? (fun x => x.1 == beAt l 6 6 && x.2.1 == beAt l 16 2) = none → beAt l 22 1 = 1 →
    s.frameStatus (l.drop 14) = 0 → beAt l 18 4 / 0x1000000 = 6 → inRange (beAt l 18 4) 0x06001040 0x20 = false →
    isPairLow (beAt l 18 4) = false → isPairLow (beAt l 18 4 - 4) = false →
    completes (.regFrameWrite l w) s fun t => (∃ r : Bytes, t.out = .mgmt r :: s.out ∧ beAt r 23 1 = 0) ∧
      t.rd (beAt l 18 4) = (match (if s.shows (beAt l 18 4) then rowOf (beAt l 18 4) else none) with
        | some row => row.fields.foldl (writeField (s.flag (Reg.UNIT_SEALED 6)) (beAt l 26 4)) (s.rd (beAt l 18 4)) % 2 ^ 32
        | none => s.rd (beAt l 18 4))) ∧
  (s.sup.svcRestarting = true → s.sup.svcHeld = [] → completes .serviceRestart s fun t =>
    t = { s with sup := { s.sup with svcRestarting := false } }) ∧
  (∀ (size : Nat) (x : SvcWait),
    (s.sup.svcHeld.find? (SvcWait.reads size) = some x → completes (.serviceWaitTimeout size) s fun t =>
      t = { s with reply := some (.data (2 ^ (8 * size) - 1)), sup := { s.sup with svcHeld := s.sup.svcHeld.erase x } }) ∧
    (s.sup.svcHeld.find? (SvcWait.reads size) = none → s.sup.svcHeld.find? SvcWait.isFrame = some x →
      completes (.serviceWaitTimeout size) s fun t => t = { s with sup := { s.sup with svcHeld := s.sup.svcHeld.erase x } }))

/-- Single faults complete (R426 to R434, R449, R469, R470): a cause of SAFE_STOP sets it, names itself and fences an ACTIVE member;
a service fault restarts the service cores alone; readings, scrub visits and BIST slices are shown and counted. -/
def Obligations.FaultCommandsComplete : Prop := ∀ s : State, s.canon = true →
  (s.powered = true → s.flag Reg.SUP_SAFETY_STATUS_SAFE_STOP = false →
    ∀ c ∈ [(0x0B, Instr.lockstepMismatch), (0x0C, .safetyWdogExpiry), (0x0F, .thermalTrip)], completes c.2 s fun t =>
      t.flag Reg.SUP_SAFETY_STATUS_SAFE_STOP = true ∧ t.get Reg.SUP_SAFETY_STATUS_CAUSE = c.1 ∧
      (s.get (Reg.UNIT_FAULT 0) = 0 → t.get (Reg.UNIT_FAULT 0) = c.1) ∧
      (s.pairRole = true → s.active = true → t.hedgeState = 5 ∧ t.get Reg.HGC_STATE_FENCE_CAUSE = 6)) ∧
  (s.powered = true → s.flag Reg.SUP_SAFETY_STATUS_SAFE_STOP = false → completes .safetyOrder s fun t =>
    t.flag Reg.SUP_SAFETY_STATUS_SAFE_STOP = true ∧ t.free = s.free + 1) ∧
  (∀ k : Fin 17, s.powered = true → s.flag Reg.SUP_SAFETY_STATUS_SAFE_STOP = false → completes (.clockFault (some k)) s fun t =>
    t.flag Reg.SUP_SAFETY_STATUS_SAFE_STOP = true ∧ t.get Reg.SUP_SAFETY_STATUS_CAUSE = 0x0E ∧ t.pxc.txStopped = true ∧
    bitAt (t.get Reg.SUP_CLK_STATUS_LOCKED) k = false ∧ ∀ p, p < 32 → Assoc.get? t.egu.tx p = none) ∧
  (s.powered = true → s.flag Reg.SUP_SAFETY_STATUS_SVC_HALTED = false → s.sup.svcRestarting = false →
    ((s.sup.svcTimes.filter (fun x => s.localNs < x + hourNs)).length < 3 → completes .serviceHeartbeatMissed s fun t =>
      t.sup.svcRestarting = true ∧
      t.get Reg.SUP_SAFETY_STATUS_SVC_RESTARTS = min (s.get Reg.SUP_SAFETY_STATUS_SVC_RESTARTS + 1) 255 ∧ posted s t .sup 8 [] ∧
      NoisyFrame (fun k => words [Reg.SUP_SAFETY_STATUS_SVC_RESTARTS] k || logWord k) s { s with sup := t.sup } t) ∧
    (3 ≤ (s.sup.svcTimes.filter (fun x => s.localNs < x + hourNs)).length → completes .serviceHeartbeatMissed s fun t =>
      t.flag Reg.SUP_SAFETY_STATUS_SVC_HALTED = true ∧ t.sup = s.sup)) ∧
  (∀ (l : List (BitVec 8)) (i : Nat) (c : BitVec 8), hottest l = some (i, c) → completes (.tempUpdate l) s fun t =>
    t.get Reg.SUP_TEMP_MAX_C = c.toNat ∧ t.get Reg.SUP_TEMP_SENSOR = i ∧
    ((s.get Reg.SUP_TEMP_CFG_WARN_C : Int) ≤ celsius c → s.sup.tempWarned = false →
      posted s t .sup 10 [(8, c.toNat), (8, i)] ∧ t.sup.tempWarned = true) ∧
    NoisyFrame (words [Reg.SUP_TEMP_MAX_C]) s { s with sup := t.sup } t) ∧
  (completes (.scrubVisit .corrected true) s fun t =>
    t.get Reg.SUP_ECC_CORR = (s.get Reg.SUP_ECC_CORR + 1) % 2 ^ 64 ∧ t.get Reg.SUP_SAFETY_AGE_SCRUB_AGE = 0 ∧
    QuietFrame (words [Reg.SUP_ECC_CORR, Reg.SUP_SAFETY_AGE_SCRUB_AGE]) s { s with sup := { s.sup with scrubNs := 0 } } t) ∧
  (∀ u : Fin 14, s.get (Reg.UNIT_STATE u) = 2 → completes (.bistSlice u true true) s fun t =>
    t.get Reg.SUP_SAFETY_AGE_BIST_AGE = 0 ∧
    QuietFrame (words [Reg.SUP_SAFETY_AGE_BIST_AGE]) s { s with sup := { s.sup with bistNs := 0 } } t)

/-- The reset commands and the load of a unit complete (R50, R450 to R454): a unit that passes its checks is sealed and in RUN, one
whose BIST fails is FAILED. -/
def Obligations.ResetCommandsComplete : Prop := ∀ s : State, s.canon = true →
  (∀ (r : Requester), s.mayWrite r Reg.SUP_RESET_CTL_OP.key = true →
    (s.sup.flashOp = none → completes (.resetCold r 0xC96) s fun t =>
      t.get Reg.SUP_RESET_CAUSE_CAUSE = (if r = .frame then 3 else 2) ∧
      t.get Reg.SUP_RESET_CAUSE_BOOT = (s.get Reg.SUP_RESET_CAUSE_BOOT + 1) % 256 ∧
      (∀ k, isAon k = false → inRange k 0x08001200 0x64 = false → t.rd k = (resetWord k).toNat) ∧ t.sup.flash = s.sup.flash) ∧
    (s.sup.warmDue = false → s.pairRole = false → completes (.resetWarm r 0xC96) s fun t => t.sup.warmDue = true ∧
      t.flag Reg.SUP_RESET_STATUS_BUSY = true ∧ t.get Reg.SUP_RESET_STATUS_RESULT = 0 ∧
      QuietFrame (words [Reg.SUP_RESET_STATUS_BUSY]) s { s with sup := { s.sup with warmDue := true } } t) ∧
    (∀ u : Fin 16, s.resetBusy = false → s.pairRole = false → 0 < u.val → u.val < 14 → 2 ≤ s.get (Reg.UNIT_STATE u) →
      completes (.resetUnit r 0xC96 u) s fun t => t.sup.unitReset = some u.val ∧ t.get (Reg.UNIT_STATE u) = 4 ∧
        t.flag Reg.SUP_RESET_STATUS_BUSY = true ∧ t.get Reg.SUP_RESET_STATUS_RESULT = 0) ∧
    (∀ u : Fin 16, s.resetBusy = false → u.val = 0 ∨ 13 < u.val → completes (.resetUnit r 0xC96 u) s fun t =>
      t.get Reg.SUP_RESET_STATUS_RESULT = 2 ∧ QuietFrame (words [Reg.SUP_RESET_STATUS_RESULT]) s s t)) ∧
  (s.sup.warmDue = true → completes .warmResetEffective s fun t => t.sup.warmDue = false ∧ t.sup.unitReset = none ∧
    t.flag Reg.SUP_RESET_STATUS_BUSY = false ∧ t.hiu.tags = [] ∧ t.qe.rxWait = [] ∧ t.pcu.reorder = []) ∧
  (∀ u, 0 < u → u < 14 → s.sup.unitReset = some u → completes (.unitResetDone true) s fun t => t.sup.unitReset = none ∧
    t.get (Reg.UNIT_STATE u) = 2 ∧ t.get Reg.SUP_RESET_STATUS_BUSY = (if s.sup.warmDue then 1 else 0)) ∧
  (∀ (u : Fin 14) (slot : Nat) (part : ImagePart), s.sup.bootSlot = some slot → s.sup.firmware = true →
    loadOrder[s.sup.loaded]? = some u.val → s.sup.loaded < 13 →
    (∀ l : Bool, completes (.unitLoad u true false l part) s fun t => t.get (Reg.UNIT_STATE u) = 3 ∧
      t.flag (Reg.UNIT_SEALED u) = s.flag (Reg.UNIT_SEALED u) ∧ t.sup.loaded = s.sup.loaded + 1) ∧
    (u.val ∈ [5, 6, 12] → s.sup.image.map.all (fun e => typeUnit e.type != u.val || s.digestOk slot e) = true →
      part.readFail = false → completes (.unitLoad u true true true part) s fun t => t.get (Reg.UNIT_STATE u) = 2 ∧
        t.flag (Reg.UNIT_SEALED u) = true ∧
        t.sup.loaded = s.sup.loaded + 1))

/-- Staged writes and writes of configuration windows complete (R91, R123, R138, R157, R165, R174, R175, R182): the word that a
write reaches takes its value under its mask, a change list takes the index, a gain is set at once or requested, and nothing else
changes; a write that its rule discards leaves the device as it was. -/
def Obligations.WindowWritesComplete : Prop := ∀ s : State, s.canon = true → s.pairRole = false → ∀ (r : Requester) (v : Word),
  (∀ off k : Nat, k = 0x10000000 + off / 4 * 4 → s.reachesBar2 r k = true → s.tblBusy = false →
    (inRange k 0x11100000 0x400 || inRange k 0x11101000 0x2000) = true → completes (.stagedWrite r off v) s fun t =>
      t.rd k = stagedWord k v.toNat ∧ QuietFrame (fun j => j == k) s s t) ∧
  (∀ off k : Nat, k = 0x10000000 + off / 4 * 4 → s.reachesBar2 r k = true → s.tblBusy = true → s.pcu.lostRaised = false →
    inRange k 0x11000000 0x100000 = true → completes (.stagedWrite r off v) s fun t =>
      t.rd k = s.rd k ∧ t.flag Reg.PCU_TBL_CTL_LOST = true ∧ posted s t .pcu 3 [] ∧
      NoisyFrame (words [Reg.PCU_TBL_CTL_LOST]) s { s with pcu := { s.pcu with lostRaised := true } } t) ∧
  (∀ off k : Nat, k = 0x10000000 + off / 4 * 4 → s.reachesBar2 r k = true → s.tblBusy = false →
    inRange k 0x12900000 0x4000 = true → s.ftu.changes.contains (0x4000000 + (k - 0x12900000) / 4) = true →
    completes (.ftuWindowWrite r off v) s fun t => t.rd k = bits v.toNat 31 1 * 2 ^ 31 + v.toNat % 2 ^ 17 ∧
      QuietFrame (fun j => j == k) s (s.recordWritten 4 ((k - 0x12900000) / 4)) t) ∧
  (∀ off k : Nat, k = 0x10000000 + off / 4 * 4 → s.reachesBar2 r k = true → s.tblBusy = false →
    inRange k 0x12800000 0x100000 = true → k % 16 = 0 → 4096 ≤ s.ftu.changes.length →
    s.ftu.changes.contains (0x2000000 + (k - 0x12800000) / 16) = false → completes (.ftuWindowWrite r off v) s fun t => t = s) ∧
  (∀ l : Nat, l < 8192 → s.reachesBar2 r (0x13240000 + 8 * l) = true →
    (s.get (Reg.LISTH_MEDIA_REFS l) = 0 → s.tblBusy = false → completes (.listWrite r (0x3240000 + 8 * l) v) s fun t =>
      t.rd (0x13240000 + 8 * l) = v.toNat % 128 ∧ QuietFrame (fun j => j == 0x13240000 + 8 * l) s s t) ∧
    (s.get (Reg.LISTH_MEDIA_REFS l) ≠ 0 → completes (.listWrite r (0x3240000 + 8 * l) v) s fun t =>
      t.get Reg.FPU_LIST_LOCKED = (s.get Reg.FPU_LIST_LOCKED + 1) % 2 ^ 64 ∧ QuietFrame (words [Reg.FPU_LIST_LOCKED]) s s t)) ∧
  (∀ (f : Fin 65536) (w : Fin 32) (k : Nat), k = 0x12000000 + 128 * f.val + 4 * w.val → s.reachesBar2 r k = true →
    (w.val ≤ 10 → s.flag (Reg.FLOW_ADMITTED f) = false → s.flag (Reg.FLOW_PENDING f) = false →
      completes (.flowEntryWrite r f w v) s fun t => t.rd k = maskWrite (s.rd k) v.toNat (flowMask w) ∧
        QuietFrame (fun j => j == k) s
          ((s.wr k (maskWrite (s.rd k) v.toNat (flowMask w))).flowWritten f w (maskWrite (s.rd k) v.toNat (flowMask w))) t) ∧
    (w.val ≤ 10 → (s.flag (Reg.FLOW_ADMITTED f) || s.flag (Reg.FLOW_PENDING f)) = true →
      completes (.flowEntryWrite r f w v) s fun t => t = s) ∧
    (20 ≤ w.val → w.val ≤ 28 → completes (.flowEntryWrite r f w v) s fun t => t.rd k = 0 ∧ QuietFrame (fun j => j == k) s s t)) ∧
  (∀ (p : Fin 8192) (w : Fin 8) (k : Nat), k = 0x13200000 + 32 * p.val + 4 * w.val → s.reachesBar2 r k = true → w.val ≤ 2 →
    s.flag (Reg.POINT_ADMITTED p) = false → s.flag (Reg.POINT_PENDING p) = false → completes (.pointWrite r p w v) s fun t =>
      t.rd k = maskWrite (s.rd k) v.toNat (pointMask w) ∧ QuietFrame (fun j => j == k) s s t) ∧
  (∀ (i : Fin 131072) (k : Nat), k = 0x13000000 + 16 * i.val → s.reachesBar2 r k = true → s.pointOfTerm i = none →
    completes (.termWrite r i v) s fun t => t.rd k = maskWrite (s.rd k) v.toNat 0x3F3FFFFF ∧
      QuietFrame (fun j => j == k) s s t) ∧
  (∀ i : Fin 131072, s.reachesBar2 r 0x13000000 = true →
    (s.pointOfTerm i = none → completes (.gainRequest r i v) s fun t => t.get (Reg.TERM_GAIN i) = v.toNat % 2 ^ 25 ∧
      QuietFrame (words [Reg.TERM_GAIN i]) s s t) ∧
    (∀ p, s.pointOfTerm i = some p → s.flag (Reg.POINT_ADMITTED p) = true → s.gainClosed p = false →
      s.flag (Reg.TERM_PEND i) = false → completes (.gainRequest r i v) s fun t => t.flag (Reg.TERM_PEND i) = true ∧
        t.get (Reg.TERM_PEND_GAIN i) = v.toNat % 2 ^ 25 ∧ Assoc.get? t.fpu.gains i = some (s.tick + 2) ∧
        QuietFrame (words [Reg.TERM_PEND i]) s { s with fpu := { s.fpu with gains := t.fpu.gains } } t)) ∧
  (∀ (f : Fin 4096) (i : Fin 131072) (p : Nat), s.served (.vf f) = true → s.shows 0x20000000 = true → s.shows 0x06001000 = true →
    s.pointOfTerm i = some p →
    (s.flag (Reg.POINT_ADMITTED p) = true → s.get (Reg.POINT_FUNC p) = f.val → s.gainClosed p = false →
      s.flag (Reg.TERM_PEND i) = false → completes (.vfGainRequest f i v) s fun t => t.flag (Reg.TERM_PEND i) = true ∧
        t.get (Reg.TERM_PEND_GAIN i) = v.toNat % 2 ^ 25 ∧ Assoc.get? t.fpu.gains i = some (s.tick + 2) ∧
        QuietFrame (words [Reg.TERM_PEND i]) s { s with fpu := { s.fpu with gains := t.fpu.gains } } t) ∧
    (s.get (Reg.POINT_FUNC p) ≠ f.val → completes (.vfGainRequest f i v) s fun t =>
      t.get (Reg.FPU_VF_GAIN_REFUSED f) = min (s.get (Reg.FPU_VF_GAIN_REFUSED f) + 1) (2 ^ 32 - 1) ∧
      QuietFrame (words [Reg.FPU_VF_GAIN_REFUSED f]) s s t))

/-- The commit of the versioned set completes (R124, R125): COMMIT checks and schedules it, at its cycle every staging bank and its
committed banks change places, but for the lists that admitted flows name (R165; the model's choice of log entry 98), and the
synchronisation copies the new set back. -/
def Obligations.CommitSwapsBanks : Prop := ∀ s : State, s.canon = true →
  (∀ r : Requester, s.mayWrite r Reg.PCU_TBL_CTL_COMMIT.key = true → s.pairRole = false → s.tblBusy = false →
    (s.classifierFuncs.find? (fun f => s.get (poolLimit f 3) < (s.stagedEntries 0x11000000 f).length) = none →
      completes (.tblCommit r) s fun t => t.tblBusy = true ∧ t.pcu.commit = some none ∧
        QuietFrame (words [Reg.PCU_TBL_CTL_BUSY]) s { s with pcu := t.pcu } t) ∧
    (∀ f, s.classifierFuncs.find? (fun f => s.get (poolLimit f 3) < (s.stagedEntries 0x11000000 f).length) = some f → f < 4096 →
      completes (.tblCommit r) s fun t => t.tblBusy = false ∧ t.get Reg.PCU_TBL_STATUS_RESULT = 1 ∧
        t.get Reg.PCU_TBL_STATUS_ERR_FUNC = f ∧ posted s t .pcu 2 [(8, 1), (12, f)] ∧ t.pcu.commit = s.pcu.commit ∧
        NoisyFrame (words [Reg.PCU_TBL_CTL_BUSY, Reg.PCU_TBL_STATUS_RESULT]) s { s with pcu := t.pcu } t)) ∧
  (∀ at_ : Option Nat, s.pcu.commit = some at_ → at_.getD 0 ≤ s.tick → completes .tblCommitEffective s fun t =>
    t.get Reg.PCU_TBL_VERSION = (s.get Reg.PCU_TBL_VERSION + 1) % 2 ^ 16 ∧ t.get Reg.PCU_TBL_STATUS_RESULT = 0 ∧
    (∀ w ∈ bankWindows, ∀ d, d < w.2.1 → t.rd (w.1 + d) = s.rd (w.2.2.headD 0 + d) ∧
      ∀ b ∈ w.2.2, t.rd (b + d) = s.rd (if s.lockedWord w.1 d then w.2.2.headD 0 + d else w.1 + d)) ∧
    QuietFrame (fun k => decide (0x11000000 ≤ k ∧ k < 0x14000000) || words [Reg.PCU_TBL_VERSION, Reg.PCU_TBL_STATUS_RESULT] k) s
      { s with ftu := s.ftu.swap, pcu := { s.pcu with commit := none, syncDue := true } } t) ∧
  (s.pcu.syncDue = true → completes .tblCommitSync s fun t =>
    t.tblBusy = false ∧ t.flag Reg.PCU_TBL_CTL_COMMIT = false ∧ t.pcu.syncDue = false ∧
    (∀ w ∈ bankWindows, ∀ d, d < w.2.1 → t.rd (w.1 + d) = s.rd (w.2.2.headD 0 + d)) ∧
    posted s t .pcu 1 [(16, s.get Reg.PCU_TBL_VERSION)])

/-- The compares of the replicas and of the shadow complete (R132, R155): one copy that a fault has changed is rewritten from the
three that agree; differing copies are rewritten from a good shadow record, and a record that nothing can restore becomes invalid. -/
def Obligations.ComparesRepair : Prop := ∀ s : State, s.canon = true →
  (∀ (e : Fin 8192) (p : Fin 4) (i : Fin 32) (x : Word), (∀ q, q < 4 → ∀ i, i < 32 →
      s.rd (committedEntry q e + 4 * i) = s.rd (committedEntry 0 e + 4 * i)) → x.toNat ≠ s.rd (committedEntry p e + 4 * i.val) →
    completes (.replicaCompare e [(p, i, x)]) s fun t => t.get Reg.PCU_REPLICA_FIX = (s.get Reg.PCU_REPLICA_FIX + 1) % 2 ^ 64 ∧
      posted s t .pcu 4 [(16, e), (1, 0)] ∧ NoisyFrame (words [Reg.PCU_REPLICA_FIX]) s s t) ∧
  (∀ e : Fin 8192, (∀ q, q < 4 → ∀ i, i < 32 → s.rd (committedEntry q e + 4 * i) = s.rd (committedEntry 0 e + 4 * i)) →
    completes (.replicaCompare e []) s fun t => t = s) ∧
  (∀ (table : Fin 5) (index : Nat), s.powered = true → s.ftu.shadow = none → Assoc.get? s.ftu.shadows (table * 0x1000000 + index) = none →
    (∀ q, q < 4 → s.badCopy table index q = none) →
    (∀ (p : Fin 4) (l : List Nat), l ≠ s.recordWords table index → completes (.shadowCompare table index false ⟨[(p, l)], none⟩) s fun t =>
      t.get Reg.FTU_SHADOW_FIX = (s.get Reg.FTU_SHADOW_FIX + 1) % 2 ^ 64 ∧
      posted s t .ftu 1 [(8, table), (32, index), (8, p), (1, 0)] ∧ (∀ q, q < 4 → t.badCopy table index q = none) ∧
      NoisyFrame (words [Reg.FTU_SHADOW_FIX]) s { s with ftu := t.ftu } t) ∧
    completes (.shadowCompare table index false noFault) s fun t => t = s) ∧
  (∀ (index : Nat) (p q : Fin 4) (a b : List Nat), s.powered = true → p ≠ q → s.ftu.shadow = none → index < 4096 →
    (∀ q, q < 4 → s.badCopy 4 index q = none) →
    a ≠ s.recordWords 4 index → b ≠ s.recordWords 4 index → completes (.shadowCompare 4 index true ⟨[(p, a), (q, b)], none⟩) s fun t =>
    (∀ b ∈ [0x12900000, 0x12E00000, 0x12E04000, 0x12E08000, 0x12E0C000], t.rd (b + 4 * index) = s.rd (b + 4 * index) % 2 ^ 31) ∧
    (s.get (Reg.UNIT_FAULT 4) = 0 → t.get (Reg.UNIT_FAULT 4) = 5))

/-- The table operations of FTU complete (R141, R148, R150, R152, R158): an inserted prefix or static entry is found by a read,
a deleted one is not, and the flushes and the age clock do what they say. -/
def Obligations.TableOperationsComplete : Prop := ∀ s : State, s.canon = true → ∀ r : Requester,
  (s.mayWrite r Reg.FTU_LPM_OP_CMD_OP.key = true → s.pairRole = false → s.tblBusy = false → s.lpmArg.bad = false →
    (∀ x, s.ftu.lpm.find? (lpmIs · s.lpmArg) = some x → s.ftu.changes.contains (0x1000000 + lpmIndex x) = true →
      ((s.ftu.lpm.any (fun y => y.stagedValid && y.fam == s.lpmArg.fam && y.vrf == s.lpmArg.vrf && y.len == s.lpmArg.len)) = true →
        completes (.lpmInsert r) s fun t => t.get Reg.FTU_LPM_OP_STATUS_RESULT = 0 ∧
          t.ftu.lpm.find? (lpmIs · s.lpmArg) = some { x with stagedValid := true, stagedNh := s.lpmArg.nh }) ∧
      (x.stagedValid = true → x.validNow = true → completes (.lpmDelete r) s fun t => t.get Reg.FTU_LPM_OP_STATUS_RESULT = 0 ∧
        t.ftu.lpm.find? (lpmIs · s.lpmArg) = some { x with stagedValid := false }) ∧
      completes (.lpmRead r) s fun t => t.get Reg.FTU_LPM_OP_STATUS_RESULT = 0 ∧
        t.flag Reg.FTU_LPM_OP_STATUS_STAGED_VALID = x.stagedValid ∧ t.flag Reg.FTU_LPM_OP_STATUS_COMMITTED_VALID = x.validNow ∧
        t.get Reg.FTU_LPM_OP_DATA = x.stagedNh % 2 ^ 16 ∧
        QuietFrame (words [Reg.FTU_LPM_OP_STATUS_RESULT, Reg.FTU_LPM_OP_DATA]) s s t) ∧
    (s.ftu.lpm.find? (lpmIs · s.lpmArg) = none →
      (completes (.lpmDelete r) s fun t => t.get Reg.FTU_LPM_OP_STATUS_RESULT = 3 ∧
        QuietFrame (words [Reg.FTU_LPM_OP_STATUS_RESULT]) s s t) ∧
      completes (.lpmRead r) s fun t => t.get Reg.FTU_LPM_OP_STATUS_RESULT = 0 ∧
        t.flag Reg.FTU_LPM_OP_STATUS_STAGED_VALID = false ∧ t.flag Reg.FTU_LPM_OP_STATUS_COMMITTED_VALID = false ∧
        QuietFrame (words [Reg.FTU_LPM_OP_STATUS_RESULT]) s s t)) ∧
  (s.mayWrite r Reg.FTU_MAC_OP_CMD_OP.key = true → s.flag Reg.FTU_MAC_OP_STATUS_BUSY = false → s.tblBusy = false →
    (s.pairRole = false → s.ftu.macStatic = [] → s.ftu.macLearned = [] → s.ftu.changes = [] → s.get Reg.FTU_MAC_OP_KEY_MAC ≠ 0 →
      bitAt (s.get Reg.FTU_MAC_OP_KEY_MAC) 40 = false → completes (.insertStatic r) s fun t =>
        t.get Reg.FTU_MAC_OP_STATUS_RESULT = 0 ∧ t.get Reg.FTU_MAC_STATIC_SLOTS = 1 ∧
        ∃ c, (macCandidates (s.get Reg.FTU_MAC_OP_KEY_VLAN) (s.get Reg.FTU_MAC_OP_KEY_MAC)).head? = some c ∧
          t.ftu.macStatic = [⟨c.1, c.2, s.get Reg.FTU_MAC_OP_KEY_VLAN, s.get Reg.FTU_MAC_OP_KEY_MAC, true,
            s.get Reg.FTU_MAC_OP_DATA_KIND, s.get Reg.FTU_MAC_OP_DATA_TARGET, false, 0, 0⟩]) ∧
    (∀ x : MacStatic, s.pairRole = false → s.ftu.macStatic = [x] → x.vlan = s.get Reg.FTU_MAC_OP_KEY_VLAN →
      x.mac = s.get Reg.FTU_MAC_OP_KEY_MAC → x.stagedValid = true → x.validNow = false →
      s.ftu.changes.contains (0x3000000 + macIndex x) = true → completes (.deleteStatic r) s fun t =>
        t.ftu.macStatic = [] ∧ t.get Reg.FTU_MAC_OP_STATUS_RESULT = 0 ∧ t.get Reg.FTU_MAC_STATIC_SLOTS = 0) ∧
    (∀ pipe : Fin 4, completes (.macRead r pipe) s fun t => t.get Reg.FTU_MAC_OP_STATUS_RESULT = 0 ∧
      (s.ftu.macStatic = [] → ∀ x, s.ftu.macLearned.find? (fun x => x.pipe == pipe.val && x.vlan == s.get Reg.FTU_MAC_OP_KEY_VLAN &&
        x.mac == s.get Reg.FTU_MAC_OP_KEY_MAC) = some x → t.get Reg.FTU_MAC_OP_STATUS_ENTRY = 1 ∧
        t.get Reg.FTU_MAC_OP_STATUS_AGE = s.macAge x ∧ t.get Reg.FTU_MAC_OP_DATA_TARGET = x.port % 2 ^ 17) ∧
      QuietFrame (words [Reg.FTU_MAC_OP_STATUS_RESULT, Reg.FTU_MAC_OP_DATA_KIND]) s s t) ∧
    (∀ (byVlan byPort : Bool) (port : Fin 32), s.ftu.flushing ≠ none → completes (.macFlush r byVlan byPort port) s fun t =>
      t.flag Reg.FTU_MAC_OP_STATUS_BUSY = true ∧ QuietFrame (words [Reg.FTU_MAC_OP_STATUS_BUSY]) s
        { s with ftu := { s.ftu with flushHeld := some (if byVlan then some (s.get Reg.FTU_MAC_OP_KEY_VLAN) else none,
          if byPort then some port.val else none) } } t) ∧
    (∀ (byVlan byPort : Bool) (port : Fin 32), s.ftu.flushing = none → completes (.macFlush r byVlan byPort port) s fun t =>
      t.flag Reg.FTU_MAC_OP_STATUS_BUSY = true ∧ t.ftu.flushing = some none ∧ t.ftu.macStatic = s.ftu.macStatic ∧
      t.ftu.macLearned = s.ftu.macLearned.filter (fun x =>
        !((!byVlan || x.vlan == s.get Reg.FTU_MAC_OP_KEY_VLAN) && (!byPort || x.port == port.val))))) ∧
  (s.ftu.flushing = some none → completes .macFlushDone s fun t => t.ftu.flushing = none ∧
    t.flag Reg.FTU_MAC_OP_STATUS_BUSY = false ∧ t.get Reg.FTU_MAC_OP_STATUS_RESULT = 0 ∧ posted s t .ftu 4 [] ∧
    NoisyFrame (words [Reg.FTU_MAC_OP_STATUS_BUSY]) s { s with ftu := { s.ftu with flushing := none } } t) ∧
  (∀ (p : Nat) (rest : List Nat), s.ftu.flushing = none → s.ftu.flushQueue = p :: rest → completes .autoFlushStart s fun t =>
    t.ftu.flushing = some (some p) ∧ t.ftu.flushQueue = rest ∧ t.ftu.macLearned = s.ftu.macLearned.filter (fun x => x.port != p)) ∧
  (∀ p : Nat, s.ftu.flushing = some (some p) → s.ftu.flushHeld = none → completes .portFlush s fun t => t.ftu.flushing = none ∧
    posted s t .ftu 5 [(8, p)] ∧ NoisyFrame (fun _ => false) s { s with ftu := { s.ftu with flushing := none } } t) ∧
  (∀ (p : Nat) (vlan port : Option Nat), s.ftu.flushing = some (some p) → s.ftu.flushHeld = some (vlan, port) →
    completes .portFlush s fun t => t.ftu.flushing = some none ∧ t.ftu.flushHeld = none ∧ posted s t .ftu 5 [(8, p)] ∧
      t.ftu.macLearned = s.ftu.macLearned.filter (fun x =>
        !((match vlan with | some v => x.vlan == v | none => true) && (match port with | some p => x.port == p | none => true)))) ∧
  (s.powered = true → (s.get Reg.FTU_AGE_NOW + 1) % 2048 ≠ 0 → completes .ageClockStep s fun t =>
    t.get Reg.FTU_AGE_NOW = (s.get Reg.FTU_AGE_NOW + 1) % 4096 ∧ QuietFrame (words [Reg.FTU_AGE_NOW]) s s t) ∧
  (s.powered = true → (s.get Reg.FTU_AGE_NOW + 1) % 2048 = 0 → completes .ageClockStep s fun t =>
    t.get Reg.FTU_AGE_NOW = (s.get Reg.FTU_AGE_NOW + 1) % 4096 ∧ t.ftu.macLearned = s.ftu.macLearned.filter (fun x => !t.macExpired x))

/-- The repairs of the buffer complete (R173): a sweep frees every cell that no live frame holds and counts it; a credit pair that
has failed twice is reset to 16 once its input stage is empty, and no other pair changes. -/
def Obligations.BufferRepairsComplete : Prop := ∀ s : State, s.canon = true →
  (s.fpu.sweeping = true → (∀ x ∈ s.fpu.cells, x.2.allocated = true →
      (s.frame? x.2.owner).any (fun f => (f.chain ++ f.heads).any (fun y => y.1 == x.1)) = true) → completes .leakFix s fun t =>
    t.fpu = { s.fpu with sweeping := false, lostHandles := 0 } ∧ posted s t .fpu 3 [(32, 0)] ∧
    NoisyFrame (fun _ => false) s { s with fpu := t.fpu, sup := { s.sup with bookFixed := t.sup.bookFixed } } t) ∧
  (∀ (c : Nat) (x : Cell), s.fpu.sweeping = true → s.fpu.cells = [(c, x)] → x.allocated = true → s.frame? x.owner = none →
    completes .leakFix s fun t => t.cell c = { x with allocated := false } ∧ t.fpu.frames = s.fpu.frames ∧
      t.get Reg.FPU_FREE = (s.get Reg.FPU_FREE + 1) % 2 ^ 19 ∧ t.get Reg.FPU_LEAK_FIX = (s.get Reg.FPU_LEAK_FIX + 1) % 2 ^ 64 ∧
      posted s t .fpu 3 [(32, 1)] ∧ NoisyFrame (words [Reg.FPU_FREE, Reg.FPU_LEAK_FIX]) s
        { s with fpu := t.fpu, sup := { s.sup with bookFixed := t.sup.bookFixed } } t) ∧
  (∀ (p : Fin 4) (d : Fin 37), s.staged (p.val * 64 + d.val) ≠ 0 → completes (.creditReset p d) s fun t => t = s) ∧
  (∀ (p : Fin 4) (d : Fin 37), 2 ≤ Assoc.getD s.fpu.creditFails (p.val * 64 + d.val) 0 → s.staged (p.val * 64 + d.val) = 0 →
    completes (.creditReset p d) s fun t =>
    t.creditOf p d = 16 ∧ Assoc.getD t.fpu.creditFails (p.val * 64 + d.val) 0 = 0 ∧
    (∀ q e, q * 64 + e ≠ p.val * 64 + d.val → t.creditOf q e = s.creditOf q e) ∧
    t = { s with fpu := { s.fpu with credits := t.fpu.credits, creditFails := t.fpu.creditFails },
                 sup := { s.sup with bookFixed := t.sup.bookFixed } })

/-- The guard's commands complete (R194 to R196, R206): muted channels that are due ramp up from sample 0, a re-arm is checked and
waits for its tick, a query shows the channels, and a limit is only ever lowered. -/
def Obligations.GuardCommandsComplete : Prop := ∀ s : State, s.canon = true →
  (∀ f : Fin 65536, s.guarded f = true → s.flag (Reg.EGU_GUARD_POLICY_REARM_AUTO (s.guardProfile f)) = true →
    s.flag Reg.EGU_GUARD_STATUS_FAILED = false →
    (∃ ch ∈ s.guardChannels f, ch.state = 2 ∧ ch.cause = 0 ∧ s.get (Reg.EGU_GUARD_POLICY_REARM_M (s.guardProfile f)) ≤ ch.clean) →
    completes (.autoRearm f) s fun t => t.guardChannels f = (s.guardChannels f).map (fun ch =>
        if ch.state = 2 ∧ ch.cause = 0 ∧ s.get (Reg.EGU_GUARD_POLICY_REARM_M (s.guardProfile f)) ≤ ch.clean
        then { ch with state := 3, pos := 0, cause := 0 } else ch) ∧
      posted s t .egu 4 [] ∧ NoisyFrame (fun _ => false) s { s with egu := { s.egu with guard := t.egu.guard } } t) ∧
  (∀ (r : Requester) (f : Fin 65536) (mask : Nat), s.mayWrite r 0x07008400 = true → s.pairRole = false →
    mask = s.get Reg.EGU_GUARD_CH_MASK % 2 ^ (s.geometry f).channels →
    (s.rearmResult f mask = 0 → completes (.rearm r f) s fun t => t.get Reg.EGU_GUARD_STATUS_RESULT = 0 ∧
      QuietFrame (words [Reg.EGU_GUARD_STATUS_RESULT]) s
        { s with egu := { s.egu with rearms := s.egu.rearms ++ [(f.val, s.tick + 2, mask)] } } t) ∧
    (s.rearmResult f mask ≠ 0 → completes (.rearm r f) s fun t =>
      t.get Reg.EGU_GUARD_STATUS_RESULT = s.rearmResult f mask ∧ posted s t .egu 5 [] ∧
      NoisyFrame (words [Reg.EGU_GUARD_STATUS_RESULT]) s s t)) ∧
  (∀ (f : Fin 65536) (mask at_ : Nat), s.egu.rearms = [(f.val, at_, mask)] → at_ ≤ s.tick →
    s.flag Reg.EGU_GUARD_STATUS_FAILED = false → (s.guardChannels f).zipIdx.any (fun x => x.1.state == 2 && bitAt mask x.2) = true →
    completes (.rearmEffective f) s fun t => t.guardChannels f = (s.guardChannels f).mapIdx (fun c ch =>
        if ch.state = 2 ∧ bitAt mask c = true then { ch with state := 3, pos := 0, cause := 0 } else ch) ∧
      posted s t .egu 4 [] ∧ NoisyFrame (fun _ => false) s { s with egu := { s.egu with guard := t.egu.guard, rearms := [] } } t) ∧
  (∀ (r : Requester) (f : Fin 65536), s.mayWrite r 0x07008400 = true → s.guarded f = true → completes (.guardQuery r f) s fun t =>
    t.get Reg.EGU_GUARD_STATUS_RESULT = 0 ∧
    (∀ c ch, c < 64 → (s.guardChannels f)[c]? = some ch → bitAt (t.get Reg.EGU_GUARD_Q_OFF) c = (ch.state != 0) ∧
      bitAt (t.get Reg.EGU_GUARD_Q_DISAGREE) c = (ch.state != 0 && ch.cause == 1)) ∧
    QuietFrame (words [Reg.EGU_GUARD_STATUS_RESULT, Reg.EGU_GUARD_Q_OFF, Reg.EGU_GUARD_Q_DISAGREE]) s s t) ∧
  (∀ (r : Requester) (p : Fin 64) (which : Fin 3) (v : Word) (f : Field) (new : Nat), f = limitField p which →
    new = bits v.toNat f.lo (f.hi + 1 - f.lo) → s.mayWrite r f.key = true → s.pairRole = false → s.egu.limits = [] →
    (limitFloor which ≤ new → new ≤ s.get f →
      (which.val ≠ 2 ∨ bits v.toNat 16 11 = s.get (Reg.EGU_GUARD_STUCK_DC_N p) → completes (.limitWrite r p which v) s fun t =>
        t = { s with egu := { s.egu with limits := [(f.key, new, s.tick + 2)] } }) ∧
      (which.val = 2 → s.flag (Reg.UNIT_SEALED 7) = false → completes (.limitWrite r p which v) s fun t =>
        t.get (Reg.EGU_GUARD_STUCK_DC_N p) = bits v.toNat 16 11 ∧ t.get f = s.get f ∧
        QuietFrame (words [f]) s { s with egu := { s.egu with limits := [(f.key, new, s.tick + 2)] } } t) ∧
      (which.val = 2 → s.flag (Reg.UNIT_SEALED 7) = true → bits v.toNat 16 11 ≠ s.get (Reg.EGU_GUARD_STUCK_DC_N p) →
        completes (.limitWrite r p which v) s fun t => posted s t .sup 2 [] ∧
          NoisyFrame logWord s { s with egu := { s.egu with limits := [(f.key, new, s.tick + 2)] } } t)) ∧
    (s.get f < new → s.flag (Reg.UNIT_SEALED 7) = false → completes (.limitWrite r p which v) s fun t =>
      t.get Reg.EGU_LIMIT_REFUSED = (s.get Reg.EGU_LIMIT_REFUSED + 1) % 2 ^ 64 ∧ posted s t .egu 7 [] ∧
      NoisyFrame (fun k => words [Reg.EGU_LIMIT_REFUSED] k || logWord k) s s t)) ∧
  (∀ (p : Fin 64) (which : Fin 3) (f : Field) (v at_ : Nat), f = limitField p which → s.egu.limits = [(f.key, v, at_)] →
    at_ ≤ s.tick → v < s.get f → completes (.limitLowered p which) s fun t => t.get f = v ∧ posted s t .egu 6 [] ∧
      NoisyFrame (words [f]) s { s with egu := { s.egu with limits := [] } } t)

/-- The priority override's commands complete (R198 to R203): a pin or FORCE activates it, programme in transmission is cut
by the edge, and it ends when its last cause does. The code of a source is free (log entry 94). -/
def Obligations.OverrideCommandsComplete : Prop := ∀ s : State, s.canon = true →
  (∀ (b : Bool) (o : Nat), s.running .egu = true → s.overridden = false → s.flag Reg.EGU_OVR_STATUS_LOCAL = false →
    completes (.overridePinFall b o) s fun t =>
    t.flag (pinField b) = true ∧ t.flag Reg.EGU_OVR_STATUS_LOCAL = true ∧ t.overridden = true ∧
    t.get Reg.EGU_OVR_ACTIVATIONS = (s.get Reg.EGU_OVR_ACTIVATIONS + 1) % 2 ^ 64 ∧ t.egu.edgeAt = t.localNs ∧
    posted s t .egu 8 [(8, Config.ovrSource (if b then 1 else 0))] ∧
    (∀ p x m, Assoc.get? t.egu.tx p = some x → x.media = some m → s.classOf m.flow = 1 → m.edged = true) ∧
    (s.egu.tx = [] → t.egu.tx = [] ∧ t.free = s.free) ∧
    NoisyFrame (words [Reg.TE_OFFSET, Reg.EGU_OVR_STATUS_LOCAL, Reg.EGU_OVR_ACTIVATIONS]) s
      { s with
        free := t.free, sie := { s.sie with taps := t.sie.taps }, hgc := { s.hgc with backlog := t.hgc.backlog },
        egu := { s.egu with
        ovrTick := some s.tick, ovrEdges := t.egu.ovrEdges, edgeAt := t.egu.edgeAt, tx := t.egu.tx,
        disagreeRaised := t.egu.disagreeRaised } } t) ∧
  (∀ (b : Bool) (o : Nat), completes (.overridePinRise b o) s fun t => t.flag (pinField b) = false ∧
    (t.flag Reg.EGU_OVR_STATUS_LOCAL = s.flag Reg.EGU_OVR_STATUS_LOCAL) ∧
    QuietFrame (words [Reg.TE_OFFSET, pinField b]) s { s with egu := { s.egu with disagreeRaised := t.egu.disagreeRaised } } t) ∧
  (∀ o : Nat, s.flag Reg.EGU_OVR_STATUS_PIN_A = false → s.flag Reg.EGU_OVR_STATUS_PIN_B = false → s.overridden = true →
    s.flag Reg.EGU_OVR_STATUS_REMOTE = false → s.egu.forced = false → completes (.overrideRelease o) s fun t =>
      t.flag Reg.EGU_OVR_STATUS_LOCAL = false ∧ t.overridden = false ∧ posted s t .egu 9 [] ∧
      NoisyFrame (words [Reg.TE_OFFSET, Reg.EGU_OVR_STATUS_LOCAL]) s
        { s with egu := { s.egu with ovrTick := t.egu.ovrTick, ovrEdges := t.egu.ovrEdges } } t) ∧
  (∀ a b : Nat, s.egu.remote = some (a, b) → b < s.tick → s.overridden = true → s.flag Reg.EGU_OVR_STATUS_LOCAL = false →
    s.egu.forced = false → completes .remoteOverrideEnd s fun t => t.egu.remote = none ∧
      t.flag Reg.EGU_OVR_STATUS_REMOTE = false ∧ t.overridden = false ∧ posted s t .egu 9 [] ∧
      NoisyFrame (words [Reg.EGU_OVR_STATUS_REMOTE]) s { s with egu := { s.egu with remote := none } } t) ∧
  (∀ (r : Requester) (on : Bool), s.mayWrite r 0x07008508 = true → completes (.forceWrite r on) s fun t =>
    t = { s with egu := { s.egu with forceNext := some (on, s.tick) } }) ∧
  (∀ w : Nat, w < s.tick →
    (s.overridden = false → s.egu.forceNext = some (true, w) → completes .forceEffective s fun t =>
      t.flag Reg.EGU_OVR_CTL_FORCE = true ∧ t.overridden = true ∧
      t.get Reg.EGU_OVR_ACTIVATIONS = (s.get Reg.EGU_OVR_ACTIVATIONS + 1) % 2 ^ 64 ∧ posted s t .egu 8 [(8, Config.ovrSource 3)] ∧
      NoisyFrame (words [Reg.EGU_OVR_CTL_FORCE, Reg.EGU_OVR_STATUS_ACTIVE, Reg.EGU_OVR_ACTIVATIONS]) s
        { s with egu := { s.egu with forced := true, forceNext := none } } t) ∧
    (s.overridden = true → s.egu.forceNext = some (false, w) → s.flag Reg.EGU_OVR_STATUS_LOCAL = false →
      s.flag Reg.EGU_OVR_STATUS_REMOTE = false → completes .forceEffective s fun t =>
        t.flag Reg.EGU_OVR_CTL_FORCE = false ∧ t.overridden = false ∧ posted s t .egu 9 [] ∧
        NoisyFrame (words [Reg.EGU_OVR_CTL_FORCE, Reg.EGU_OVR_STATUS_ACTIVE]) s
          { s with egu := { s.egu with forced := false, forceNext := none } } t)) ∧
  (s.flag Reg.EGU_OVR_STATUS_PIN_A ≠ s.flag Reg.EGU_OVR_STATUS_PIN_B →
    (s.egu.disagreeRaised = false → completes .ovrPinDisagree s fun t =>
      posted s t .egu 10 [(8, Config.ovrSource (if s.flag Reg.EGU_OVR_STATUS_PIN_A then 0 else 1))] ∧
      NoisyFrame (fun _ => false) s { s with egu := { s.egu with disagreeRaised := true } } t) ∧
    (s.egu.disagreeRaised = true → completes .ovrPinDisagree s fun t => t = s))

/-- The sideband's commands complete (R204, R430): a write waits for two ticks, both registers and the outputs then take it but in
tier 0, and a difference between the registers holds the outputs for good. -/
def Obligations.SidebandCommandsComplete : Prop := ∀ s : State, s.canon = true →
  (∀ (r : Requester) (v : Word), s.egu.sideFault = false → s.mayWrite r 0x07008600 = true → s.pairRole = false →
    completes (.sidebandWrite r v) s fun t =>
      t = { s with egu := { s.egu with sidePending := s.egu.sidePending ++ [(v.toNat % 2 ^ 17, s.tick + 2)] } }) ∧
  (∀ (r : Requester) (v : Word), s.egu.sideFault = true → completes (.sidebandWrite r v) s fun t => t = s) ∧
  (∀ (v at_ : Nat) (rest : List (Nat × Nat)), s.egu.sidePending = (v, at_) :: rest → at_ ≤ s.tick → v < 2 ^ 17 →
    (s.tierZero = true → completes .sidebandEffective s fun t => t = { s with egu := { s.egu with sidePending := rest } }) ∧
    (s.tierZero = false → s.egu.sideFault = false → completes .sidebandEffective s fun t => t.get Reg.EGU_SIDEBAND_ALL = v ∧
      QuietFrame (words [Reg.EGU_SIDEBAND_ALL]) s { s with egu := { s.egu with sidePending := rest, sideA := v, sideB := v } } t)) ∧
  (∀ (b : Bool) (v : BitVec 17), s.powered = true → s.egu.sideA = s.egu.sideB → v.toNat ≠ s.egu.sideA →
    completes (.sidebandMismatch b v) s fun t =>
    t.egu.sideFault = true ∧ t.egu.sidePending = [] ∧ t.get Reg.EGU_SIDEBAND_ALL = s.get Reg.EGU_SIDEBAND_ALL ∧
    (if b then t.egu.sideA else t.egu.sideB) = s.egu.sideA ∧ (s.get (Reg.UNIT_FAULT 7) = 0 → t.get (Reg.UNIT_FAULT 7) = 0x0A) ∧
    NoisyFrame (fun k => words [Reg.UNIT_FAULT 7] k || logWord k) s { s with egu := t.egu } t)

/-- The gate lists' commands complete (R213, R214): the fields of a staged word land, a commit checks the 32 lists and is scheduled
or names the first port that fails, and at its tick the committed lists equal the staged ones. -/
def Obligations.GateCommandsComplete : Prop := ∀ s : State, s.canon = true →
  (∀ (r : Requester) (i : Fin 2048) (v : Word), s.mayWrite r (0x07004000 + 4 * i.val) = true → s.pairRole = false →
    (s.flag Reg.EGU_GATE_CTL_BUSY = false → completes (.gateListWrite r i v) s fun t =>
      (∀ x ∈ [(31, 1), (16, 13), (0, 8)],
        bits (t.rd (0x07004000 + 4 * i.val)) x.1 x.2 = bits v.toNat x.1 x.2) ∧
      (∀ x ∈ [(29, 2), (8, 8)],
        bits (t.rd (0x07004000 + 4 * i.val)) x.1 x.2 = bits (s.rd (0x07004000 + 4 * i.val)) x.1 x.2) ∧
          QuietFrame (fun k => k == 0x07004000 + 4 * i.val) s s t) ∧
    (s.flag Reg.EGU_GATE_CTL_BUSY = true → completes (.gateListWrite r i v) s fun t =>
      t.flag Reg.EGU_GATE_CTL_LOST = true ∧ QuietFrame (words [Reg.EGU_GATE_CTL_LOST]) s s t)) ∧
  (∀ r : Requester, s.mayWrite r 0x07001100 = true → s.pairRole = false → s.flag Reg.EGU_GATE_CTL_BUSY = false →
    ((∀ p, p < 32 → s.gateListOk p = true) → s.get Reg.EGU_GATE_COMMIT_TICK = 0 → s.tick + 2 < 2 ^ 48 →
      completes (.gateCommit r) s fun t => t.flag Reg.EGU_GATE_CTL_BUSY = true ∧ t.get Reg.EGU_GATE_STATUS_RESULT = 0 ∧
        t.get Reg.EGU_GATE_COMMIT_TICK = s.tick + 2 ∧
        QuietFrame (words [Reg.EGU_GATE_CTL_BUSY, Reg.EGU_GATE_STATUS_RESULT, Reg.EGU_GATE_COMMIT_TICK]) s
          { s with egu := { s.egu with gateTick := some (s.tick + 2) } } t) ∧
    (∀ p, p < 32 → s.gateListOk p = false → (∀ q, q < p → s.gateListOk q = true) → completes (.gateCommit r) s fun t =>
      t.flag Reg.EGU_GATE_CTL_BUSY = false ∧ t.get Reg.EGU_GATE_STATUS_RESULT = 1 ∧ t.get Reg.EGU_GATE_STATUS_ERR_PORT = p ∧
      posted s t .egu 12 [(8, 1), (8, p)] ∧
      NoisyFrame (words [Reg.EGU_GATE_CTL_BUSY, Reg.EGU_GATE_STATUS_RESULT]) s s t)) ∧
  (∀ at_ : Nat, s.egu.gateTick = some at_ → at_ ≤ s.tick → completes .gateCommitDone s fun t => t.egu.gateTick = none ∧
    (∀ i, i < 2048 → t.rd (0x07006000 + 4 * i) = s.rd (0x07004000 + 4 * i) ∧
      t.rd (0x07004000 + 4 * i) = s.rd (0x07004000 + 4 * i)) ∧
    t.flag Reg.EGU_GATE_CTL_BUSY = false ∧ posted s t .egu 11 [(48, at_)])

/-- The commands of the instances, the function map and the telemetry ring complete (R218, R221, R222, R225, R226): an instance of
a function that TTU has granted it to, in a hierarchy that keeps R222, takes the word and starts with full buckets; an entry of the
map that names granted instances is taken field by field; a write that R222 refuses is counted and changes nothing; the telemetry
ring starts over where EN rises, and CONS takes its value unless EGU has advanced it further in the same cycle. -/
def Obligations.ShaperCommandsComplete : Prop := ∀ s : State, s.canon = true → ∀ r : Requester,
  (∀ (k : Fin 16384) (w : Fin 4) (v : Word) (key : Nat) (u : State), key = 0x07200000 + 16 * k.val + 4 * w.val →
    s.mayWrite r key = true → u = s.settle.writeWord r key v.toNat →
    (u.shaperOwner k = some (u.get (Reg.SHAPER_FUNC k)) → u.hierarchyOk k = true → completes (.shaperInstanceWrite r k w v) s fun t =>
      t.rd key = u.rd key ∧ t.level k = t.bucketFull k ∧ QuietFrame (fun j => settleWord j || j == key) s (settled s t) t) ∧
    (u.shaperOwner k ≠ some (u.get (Reg.SHAPER_FUNC k)) ∨ u.hierarchyOk k = false → completes (.shaperInstanceWrite r k w v) s fun t =>
      t.get Reg.EGU_MAP_REFUSED = (s.get Reg.EGU_MAP_REFUSED + 1) % 2 ^ 64 ∧
      QuietFrame (fun j => settleWord j || words [Reg.EGU_MAP_REFUSED] j) s (settled s t) t)) ∧
  (∀ (f : Fin 4096) (v : BitVec 64) (key : Nat), key = 0x07260000 + 8 * f.val → s.mayWrite r key = true →
    (s.mapEntryOk f v.toNat = true → completes (.functionMapWrite r f v) s fun t =>
      (∀ x ∈ [(63, 1), (62, 1), (48, 14), (47, 1), (32, 14)], bits (t.mapEntry f) x.1 x.2 = bits v.toNat x.1 x.2) ∧
      t.rd key = s.rd key ∧ QuietFrame (fun j => settleWord j || j == key + 4) s (settled s t) t) ∧
    (s.mapEntryOk f v.toNat = false → completes (.functionMapWrite r f v) s fun t =>
      t.get Reg.EGU_MAP_REFUSED = (s.get Reg.EGU_MAP_REFUSED + 1) % 2 ^ 64 ∧ QuietFrame (words [Reg.EGU_MAP_REFUSED]) s s t)) ∧
  (∀ (v : Word) (size : Nat), s.mayWrite r 0x07001308 = true → size = bits v.toNat 24 4 →
    (size < 4 ∨ 14 < size → completes (.telemEnable r v) s fun t => t = s) ∧
    (4 ≤ size → size ≤ 14 → s.flag Reg.EGU_TELEM_CFG_EN = true → completes (.telemEnable r v) s fun t =>
      t.flag Reg.EGU_TELEM_CFG_EN = bitAt v.toNat 31 ∧ t.get Reg.EGU_TELEM_CFG_LOG2_SIZE = s.get Reg.EGU_TELEM_CFG_LOG2_SIZE ∧
      QuietFrame (words [Reg.EGU_TELEM_CFG_EN]) s s t) ∧
    (4 ≤ size → size ≤ 14 → s.flag Reg.EGU_TELEM_CFG_EN = false → bitAt v.toNat 31 = true → completes (.telemEnable r v) s fun t =>
      t.flag Reg.EGU_TELEM_CFG_EN = true ∧ t.get Reg.EGU_TELEM_CFG_LOG2_SIZE = size ∧
      t.get Reg.EGU_TELEM_PROD = 0 ∧ t.get Reg.EGU_TELEM_CONS = 0 ∧
      QuietFrame (words [Reg.EGU_TELEM_CFG_EN, Reg.EGU_TELEM_PROD, Reg.EGU_TELEM_CONS]) s
        { s with egu := { s.egu with telemSeq := 0, consAt := none } } t) ∧
    (4 ≤ size → size ≤ 14 → s.flag Reg.EGU_TELEM_CFG_EN = false → bitAt v.toNat 31 = false → completes (.telemEnable r v) s fun t =>
      t.flag Reg.EGU_TELEM_CFG_EN = false ∧ t.get Reg.EGU_TELEM_CFG_LOG2_SIZE = size ∧
      QuietFrame (words [Reg.EGU_TELEM_CFG_EN]) s s t)) ∧
  (∀ (v : Word) (old : Nat), s.mayWrite r 0x07001314 = true → old = s.get Reg.EGU_TELEM_CONS →
    (s.egu.consAt ≠ some s.localNs ∨ serialNewer 32 v.toNat old = true → completes (.telemConsWrite r v) s fun t =>
      t.get Reg.EGU_TELEM_CONS = v.toNat ∧ QuietFrame (words [Reg.EGU_TELEM_CONS]) s s t) ∧
    (s.egu.consAt = some s.localNs → serialNewer 32 v.toNat old = false → completes (.telemConsWrite r v) s fun t => t = s))

/-- The rewrite programs' commands complete (R234, R243): an accepted program replaces all 64 words, its reserved bits reading 0; a
program that media uses is not changed; a read copies the program into the buffer. -/
def Obligations.ProgramCommandsComplete : Prop := ∀ s : State, s.canon = true → ∀ (r : Requester) (k : Fin 32768),
  s.mayWrite r Reg.RTU_PROG_CMD_OP.key = true →
  (s.pairRole = false → s.progResult k = 0 → completes (.progWrite r k) s fun t =>
    (∀ i, i < 64 → t.rd (0x05400000 + 256 * k.val + 4 * i) = progMask i (s.progBuf i)) ∧
    t.get Reg.RTU_PROG_STATUS_RESULT = 0 ∧
    QuietFrame (fun j => inRange j (0x05400000 + 256 * k.val) 256 || words [Reg.RTU_PROG_STATUS_RESULT] j) s s t) ∧
  (s.pairRole = false → s.progResult k = 2 → completes (.progWrite r k) s fun t => t.get Reg.RTU_PROG_STATUS_RESULT = 2 ∧
    t.get Reg.RTU_PROG_LOCKED = (s.get Reg.RTU_PROG_LOCKED + 1) % 2 ^ 64 ∧
    QuietFrame (words [Reg.RTU_PROG_STATUS_RESULT, Reg.RTU_PROG_LOCKED]) s s t) ∧
  completes (.progRead r k) s fun t => (∀ i, i < 64 → t.progBuf i = s.rd (0x05400000 + 256 * k.val + 4 * i)) ∧
    t.get Reg.RTU_PROG_STATUS_RESULT = 0 ∧
    QuietFrame (fun j => inRange j 0x05001100 256 || words [Reg.RTU_PROG_STATUS_RESULT] j) s s t

/-- Writes of the credit-based shaper (R216): a write to EGU_CBS_SLOPE or EGU_CBS_LIMIT of a queue takes its values and sets the
queue's credit to 0, whatever stood there; a slope that would make the sum of the eight of its port exceed the port rate is
discarded whole. -/
def Obligations.CreditShaperWrites : Prop := ∀ s : State, s.canon = true → ∀ r : Requester,
  (∀ (i : Fin 256) (v : Word) (others : Nat), s.mayWrite r (0x07002000 + 4 * i.val) = true →
    others = sumOf ((List.range 8).filter (fun c => 8 * (i.val / 8) + c != i.val))
      (fun c => s.get (Reg.EGU_CBS_SLOPE_IDLE_SLOPE (8 * (i.val / 8) + c))) →
    (others + v.toNat % 2 ^ 19 ≤ s.portRate (i.val / 8) * 1000 → completes (.cbsSlopeWrite r i v) s fun t =>
      t.get (Reg.EGU_CBS_SLOPE_IDLE_SLOPE i) = v.toNat % 2 ^ 19 ∧ t.credit i = 0 ∧ t.get (Reg.EGU_CBS_CREDIT_CREDIT i) = 0) ∧
    (s.portRate (i.val / 8) * 1000 < others + v.toNat % 2 ^ 19 → completes (.cbsSlopeWrite r i v) s fun t => t = s)) ∧
  (∀ (i : Fin 256) (v : Word), s.mayWrite r (0x07002400 + 4 * i.val) = true → completes (.cbsLimitWrite r i v) s fun t =>
    t.get (Reg.EGU_CBS_LIMIT_HI_CREDIT i) = bits v.toNat 16 16 ∧ t.get (Reg.EGU_CBS_LIMIT_LO_CREDIT i) = bits v.toNat 0 16 ∧
    t.credit i = 0)

/-- The key commands complete (R250 to R252): a load that passes its checks fills half 0 of the slot and charges its pool, a
rewrite waits for its tick and then puts the other half in force, an erase empties the slot and gives it back; every command ends
with RESULT, a zeroed buffer and KEY_DONE. What a blob unwraps to rests on AES key wrap, which the model leaves uninterpreted, so
it stands in the results. Where the spec leaves it open it rests on the model's choice of log entry 45. -/
def Obligations.KeyCommandsComplete : Prop := ∀ s : State, s.canon = true → ∀ slot : Fin 65536,
  (∀ (r : Requester) (len kek func : Nat) (blob : Bytes), s.mayWrite r Reg.CKU_KEY_CMD_OP.key = true → s.running .cku = true →
    s.pairRole = false → len = s.get Reg.CKU_KEY_ARG_LEN → kek = s.get Reg.CKU_KEY_ARG_KEK → func = s.get Reg.CKU_KEY_ARG_FUNC →
    blob = s.keyBuf len →
    (completes (.keyLoad r slot) s fun t => t.get Reg.CKU_KEY_STATUS_RESULT = s.loadResult slot kek func len blob ∧
      (∀ i, i < 24 → t.get (Reg.CKU_KEY_BUF i) = 0) ∧
      (∀ p, s.loadResult slot kek func len blob = 0 → s.keyPlain kek blob = some p →
      t.keySlot slot = some ⟨p, [], false, none, none, blob, [], 0, 0⟩ ∧ t.get (Reg.SLOT_SWITCH_TICK slot) = 0 ∧ t.get (Reg.SLOT_STATE slot) = 1 ∧
      t.get (Reg.SLOT_USAGE slot) = beAt p 0 1 ∧ t.get (Reg.SLOT_KEYLEN slot) = beAt p 1 1 ∧ t.get (Reg.SLOT_GEN slot) = 0 ∧
      t.get (Reg.SLOT_KEK slot) = kek ∧ t.get (Reg.SLOT_FUNC slot) = func ∧
      t.get (poolUsed func 2) = s.get (poolUsed func 2) + 1 ∧ posted s t .cku 1 [(8, 1), (8, 0), (16, slot)] ∧
      NoisyFrame (fun k => inRange k 0x08001100 96 ||
        words [Reg.SLOT_STATE slot, Reg.SLOT_SWITCH_TICK slot, poolUsed func 2, Reg.CKU_KEY_STATUS_RESULT, Reg.CKU_KEY_TICK_TICK,
          Reg.SUP_TRACK_STATUS_HWM] k) s { s with cku := t.cku } t) ∧
      (s.loadResult slot kek func len blob ≠ 0 →
        NoisyFrame (fun k => inRange k 0x08001100 96 || words [Reg.CKU_KEY_STATUS_RESULT] k) s s t)) ∧
    (∀ k : KeySlot, s.keySlot slot = some k → completes (.keyRewrite r slot) s fun t =>
      t.get Reg.CKU_KEY_STATUS_RESULT = s.rewriteResult slot kek len blob ∧ (∀ i, i < 24 → t.get (Reg.CKU_KEY_BUF i) = 0) ∧
      (∀ p, s.rewriteResult slot kek len blob = 0 → s.keyPlain kek blob = some p → t.get (Reg.SLOT_STATE slot) = 2 ∧
        t.get (Reg.SLOT_SWITCH_TICK slot) = s.keyTick % 2 ^ 48 ∧
        t.keySlot slot = some { k with
          half0 := (if k.second then p else k.half0), half1 := (if k.second then k.half1 else p),
          rewriteTick := some s.keyTick, newBlob := blob, newKek := kek })) ∧
    (∀ k : KeySlot, s.eraseResult slot = 0 → s.keySlot slot = some k → completes (.keyErase r slot) s fun t =>
      t.keySlot slot = some { k with
        half0 := (if k.rewriteTick.isSome && k.second then [] else k.half0),
        half1 := (if k.rewriteTick.isSome && !k.second then [] else k.half1),
        rewriteTick := none, newBlob := [], eraseTick := some s.keyTick } ∧ t.get (Reg.SLOT_STATE slot) = s.get (Reg.SLOT_STATE slot) ∧
      t.get (Reg.SLOT_SWITCH_TICK slot) = (if k.rewriteTick.isSome then k.lastTick % 2 ^ 48 else s.get (Reg.SLOT_SWITCH_TICK slot)) ∧
      t.get Reg.CKU_KEY_STATUS_RESULT = 0)) ∧
  (∀ (k : KeySlot) (at_ : Nat), s.keySlot slot = some k → k.rewriteTick = some at_ → at_ ≤ s.tick →
    completes (.keySwitched slot) s fun t =>
      t.keySlot slot = some { k with second := !k.second, rewriteTick := none, blob := k.newBlob, newBlob := [], lastTick := at_ } ∧
      Assoc.get? t.cku.guards slot = none ∧ t.get (Reg.SLOT_STATE slot) = 1 ∧
      t.get (Reg.SLOT_GEN slot) = (s.get (Reg.SLOT_GEN slot) + 1) % 256 ∧ t.get (Reg.SLOT_KEK slot) = k.newKek % 16 ∧
      posted s t .cku 2 [(16, slot), (8, (s.get (Reg.SLOT_GEN slot) + 1) % 256), (48, at_)] ∧
      NoisyFrame (words [Reg.SLOT_STATE slot, Reg.SLOT_SWITCH_TICK slot]) s { s with cku := t.cku } t) ∧
  (∀ (k : KeySlot) (at_ : Nat), s.keySlot slot = some k → k.eraseTick = some at_ → at_ ≤ s.tick →
    completes (.eraseStart slot) s fun t => t.get (Reg.SLOT_STATE slot) = 3 ∧ QuietFrame (words [Reg.SLOT_STATE slot]) s s t) ∧
  (s.get (Reg.SLOT_STATE slot) = 3 → completes (.keyErased slot) s fun t => t.keySlot slot = none ∧
    t.get (Reg.SLOT_STATE slot) = 0 ∧
    t.get (poolUsed (s.get (Reg.SLOT_FUNC slot)) 2) = s.get (poolUsed (s.get (Reg.SLOT_FUNC slot)) 2) - 1 ∧
    posted s t .cku 3 [] ∧
    NoisyFrame (words [Reg.SLOT_STATE slot, Reg.SLOT_SWITCH_TICK slot, poolUsed (s.get (Reg.SLOT_FUNC slot)) 2]) s
      { s with cku := { s.cku with slots := Assoc.erase s.cku.slots slot } } t)

/-- The security-association tables' commands complete (R259, R262, R270): words change only while VALID is 0, VALID is set only
where the entry passes its checks, and a VALID entry can only lose VALID.
Where the spec leaves it open it rests on the model's choice of log entry 46. -/
def Obligations.AssociationWritesComplete : Prop := ∀ s : State, s.canon = true → ∀ (r : Requester) (v : Word),
  (∀ (sa : Fin 16384), s.mayWrite r (0x08400000 + 32 * sa.val) = true →
    (s.flag (Reg.SA_VALID sa) = false → completes (.saWrite r sa 1 v) s fun t => t.get (Reg.SA_SPI_SSCI sa) = v.toNat ∧
      QuietFrame (words [Reg.SA_SPI_SSCI sa]) s s t) ∧
    (s.flag (Reg.SA_VALID sa) = false → bitAt v.toNat 31 = true → s.saRefused sa v.toNat = false →
      completes (.saWrite r sa 0 v) s fun t => t.flag (Reg.SA_VALID sa) = true ∧ t.get (Reg.SA_KIND sa) = bits v.toNat 28 3 ∧
        t.get (Reg.SA_KEY sa) = v.toNat % 2 ^ 16 ∧ Assoc.get? t.cku.seen sa = none ∧
        QuietFrame (words [Reg.SA_VALID sa]) s { s with cku := { s.cku with seen := t.cku.seen, noted := t.cku.noted } } t) ∧
    (s.flag (Reg.SA_VALID sa) = false → bitAt v.toNat 31 = true → s.saRefused sa v.toNat = true →
      completes (.saWrite r sa 0 v) s fun t => t.get Reg.CKU_SA_REFUSED = (s.get Reg.CKU_SA_REFUSED + 1) % 2 ^ 64 ∧
        QuietFrame (words [Reg.CKU_SA_REFUSED]) s s t) ∧
    (s.flag (Reg.SA_VALID sa) = true → bitAt v.toNat 31 = false → completes (.saWrite r sa 0 v) s fun t =>
      t.flag (Reg.SA_VALID sa) = false ∧ t.get (Reg.SA_KEY sa) = s.get (Reg.SA_KEY sa) ∧
      QuietFrame (words [Reg.SA_VALID sa]) s s t)) ∧
  (∀ (sa : Fin 16384) (w : Fin 8), s.flag (Reg.SA_VALID sa) = true → (w.val ≠ 0 ∨ bitAt v.toNat 31 = true) →
    completes (.saWrite r sa w v) s fun t => t = s) ∧
  (∀ (p : Fin 32) (e : Fin 16) (k : Nat), k = 0x08480000 + 512 * p.val + 32 * e.val → s.mayWrite r (k + 8) = true →
    (bitAt (s.rd k) 31 = false → completes (.rxScWrite r p e 2 v) s fun t => t.rd (k + 8) = v.toNat ∧
      QuietFrame (fun j => j == k + 8) s s t) ∧
    (bitAt (s.rd k) 31 = true → completes (.rxScWrite r p e 2 v) s fun t => t = s)) ∧
  (∀ p : Fin 32, s.mayWrite r (Reg.CKU_MSEC_PORT_TX_SA p).key = true → s.flag (Reg.UNIT_SEALED 8) = true →
    completes (.txSaWrite r p v) s fun t => t.get (Reg.CKU_MSEC_PORT_TX_SA p) = v.toNat % 2 ^ 14 ∧
      t.get (Reg.CKU_MSEC_PORT_EN p) = s.get (Reg.CKU_MSEC_PORT_EN p) ∧
      NoisyFrame (fun k => words [Reg.CKU_MSEC_PORT_TX_SA p] k || logWord k) s s t)

/-- The witness protocol's commands complete (R304 to R307, R312): a member sends its request; the witness extends the holder's
lease, gives a free pair to a fit party and takes a release; a member extends its lease or takes over under a GRANT, and fences
under a DENY or a FENCE; what fails the checks of R304 is counted and does nothing. Whether a tag is right rests on AES-GCM, which
the model leaves uninterpreted, so the effects are stated under `witCheck`. Where the spec leaves it open it rests on the model's
choice of log entries 52 and 104. -/
def Obligations.LeaseCommandsComplete : Prop := ∀ s : State, s.canon = true →
  (s.pairRole = true → s.running .hgc = true → s.timeOk = true → (s.witKey (s.get Reg.HGC_CFG_PAIR_ID)).isSome = true →
    s.get Reg.HGC_WIT_HWM < s.tick → s.flag Reg.HGC_CFG_PINS_EN = true → s.hgc.clkDown = false → s.witPaths = [] →
    completes .requestSend s fun t => ∃ l : Bytes, t.out = .witness (busSlot s.party 0) (busBits l) :: s.out ∧ beAt l 1 1 = 1 ∧
      beAt l 8 6 = s.tick ∧
      beAt l 20 4 = (s.hgc.seq + 1) % 2 ^ 32 ∧ t.hgc.seq = (s.hgc.seq + 1) % 2 ^ 32 ∧ t.hgc.unanswered = s.hgc.unanswered + 1 ∧
      t.get Reg.HGC_WIT_SENT = (s.get Reg.HGC_WIT_SENT + 1) % 2 ^ 64 ∧ t.get Reg.HGC_WIT_HWM = s.tick ∧
      QuietFrame (words [Reg.TE_OFFSET, Reg.HGC_WIT_HWM, Reg.HGC_WIT_SENT]) s { s with hgc := t.hgc, out := t.out } t) ∧
  (∀ (via : WitVia) (o : Nat) (source : BitVec 48) (msg : Bytes) (m : WitMsg), m = witParse msg → (s.moment o).witListens via = true →
    ((s.moment o).witFresh m).isSome = true → m.target = s.party →
    s.tick + 200 < 2 ^ 48 → m.refTick + 200 < 2 ^ 48 →
    (∀ k, m.type = 1 → s.hedgeState = 7 → s.timeOk = true → s.senderKnown via source m = true → (m.sender = 1 ∨ m.sender = 2) →
      s.witPair m.pair = some k →
      s.witPaths = [] → WitVia.back source via = none →
      (m.sender = s.get (witHolder k) → bitAt m.flags 0 = true → m.epoch = s.get (witEpoch k) →
        completes (.witRequest via o source msg) s fun t =>
        ((s.moment o).witCheck via msg).1 = some m →
          t.get (witEnd k) = max (s.get (witEnd k)) (s.tick + s.get Reg.HGC_CFG_LEASE_L) ∧
          t.get (witHolder k) = s.get (witHolder k) ∧ t.get (witEpoch k) = s.get (witEpoch k)) ∧
      (s.get (witHolder k) = 0 → s.flag (witRestart k) = false → bitAt m.flags 1 = true → m.sender = 1 →
        completes (.witRequest via o source msg) s fun t =>
        ((s.moment o).witCheck via msg).1 = some m → t.get (witHolder k) = 1 ∧
          t.get (witEpoch k) = nextEpoch (s.keptEpoch k m.epoch) m.epoch ∧ t.flag (witValid k) = true ∧
          t.get (witEnd k) = s.tick + s.get Reg.HGC_CFG_LEASE_L)) ∧
    (∀ k, m.type = 4 → s.hedgeState = 7 → s.senderKnown via source m = true → s.witPair m.pair = some k →
      m.sender = s.get (witHolder k) → m.sender ≠ 0 →
      completes (.witRelease via o source msg) s fun t =>
        ((s.moment o).witCheck via msg).1 = some m → t.get (witEnd k) = s.tick ∧ t.get (witHolder k) = s.get (witHolder k)) ∧
    (m.type = 2 → s.pairRole = true → m.sender = 0 → s.answers m = true →
      (s.active = true → completes (.witGrant via o msg) s fun t =>
        ((s.moment o).witCheck via msg).1 = some m → t.active = true ∧ t.hgc.unanswered = 0 ∧
        t.get Reg.HGC_WIT_GRANTS = (s.get Reg.HGC_WIT_GRANTS + 1) % 2 ^ 64 ∧
        t.get Reg.HGC_LEASE_END = max (s.get Reg.HGC_LEASE_END) (m.refTick + min (s.get Reg.HGC_CFG_LEASE_L) m.leaseL) ∧
        QuietFrame (words [Reg.TE_OFFSET, Reg.HGC_WIT_GRANTS, Reg.HGC_LEASE_END]) s { s with hgc := t.hgc } t) ∧
      (s.hedgeState = 3 → (∀ c ∈ s.hgc.heldCauses, c = 4) → completes (.witGrant via o msg) s fun t =>
        ((s.moment o).witCheck via msg).1 = some m → t.active = true ∧ t.get Reg.HGC_STATE_EPOCH = m.epoch % 256 ∧
        t.get Reg.HGC_EPOCH_AON_LAST_EPOCH = m.epoch % 256 ∧ t.hgc.liveFrom = s.tick + 1 ∧
        t.get Reg.HGC_TAKEOVERS = (s.get Reg.HGC_TAKEOVERS + 1) % 2 ^ 64 ∧
        t.get Reg.HGC_LEASE_END = max (s.get Reg.HGC_LEASE_END) (m.refTick + min (s.get Reg.HGC_CFG_LEASE_L) m.leaseL))) ∧
    (m.type = 3 → s.pairRole = true → m.sender = 0 → s.answers m = true → s.active = true →
      completes (.witDeny via o msg) s fun t =>
        ((s.moment o).witCheck via msg).1 = some m → t.hedgeState = 5 ∧ t.get Reg.HGC_STATE_FENCE_CAUSE = 2 ∧
        t.get Reg.HGC_WIT_DENIES = (s.get Reg.HGC_WIT_DENIES + 1) % 2 ^ 64 ∧
        t.get Reg.HGC_EPOCH_AON_LAST_EPOCH = s.get Reg.HGC_STATE_EPOCH ∧ posted s t .hgc 4 [(8, 2)]) ∧
    (m.type = 5 → s.pairRole = true → m.sender = 0 → s.active = true → s.egu.tx = [] → s.egu.levels = [] →
      completes (.witFence via o msg) s fun t =>
        ((s.moment o).witCheck via msg).1 = some m → t.hedgeState = 5 ∧ t.get Reg.HGC_STATE_FENCE_CAUSE = 4 ∧
        4 ∈ t.hgc.heldCauses ∧ posted s t .hgc 4 [(8, 4)])) ∧
  (∀ (via : WitVia) (o : Nat) (source : BitVec 48) (msg : Bytes), (s.moment o).witListens via = true →
    ∀ c ∈ [Instr.witRequest via o source msg, .witRelease via o source msg, .witGrant via o msg, .witDeny via o msg, .witFence via o msg],
      completes c s fun t => ((s.moment o).witCheck via msg).1 = none →
        t.get Reg.HGC_WIT_BAD = (s.get Reg.HGC_WIT_BAD + 1) % 2 ^ 64 ∧
        QuietFrame (words [Reg.TE_OFFSET, Reg.HGC_WIT_BAD]) s s t) ∧
  (s.pairRole = true → s.active = true → s.get Reg.HGC_LEASE_END ≤ s.tick → completes .leaseExpiry s fun t =>
    t.hedgeState = 5 ∧ t.get Reg.HGC_STATE_FENCE_CAUSE = 1 ∧ t.get Reg.HGC_EPOCH_AON_LAST_EPOCH = s.get Reg.HGC_STATE_EPOCH ∧
    posted s t .hgc 4 [(8, 1)] ∧
    NoisyFrame (words [Reg.HGC_STATE_STATE, Reg.HGC_EPOCH_AON_VALID, Reg.HGC_CTL_RELEASE]) s s t) ∧
  (3 ≤ s.hgc.unanswered → s.hgc.witLost = false → completes .witnessLost s fun t => t.hgc.witLost = true ∧ posted s t .hgc 10 [] ∧
    NoisyFrame (fun _ => false) s { s with hgc := { s.hgc with witLost := true } } t)

/-- Fencing by pin and by the manager, the planned handover, and what else HGC_CTL and the witness's start bring complete (R307,
R309, R311, R312, R315, R322, R324). -/
def Obligations.FenceCommandsComplete : Prop := ∀ s : State, s.canon = true →
  (∀ o : Nat, s.pairRole = true → s.active = true → s.egu.tx = [] → s.egu.levels = [] →
    completes (.fenceInFall o) s fun t => t.hedgeState = 5 ∧ t.get Reg.HGC_STATE_FENCE_CAUSE = 3 ∧ 3 ∈ t.hgc.heldCauses ∧
      posted s t .hgc 4 [(8, 3)]) ∧
  (∀ o : Nat, completes (.fenceInRise o) s fun t => 3 ∉ t.hgc.heldCauses ∧ t.hedgeState = s.hedgeState ∧
    (∀ c, c ≠ 3 → (c ∈ t.hgc.heldCauses ↔ c ∈ s.hgc.heldCauses)) ∧
    QuietFrame (words [Reg.TE_OFFSET]) s { s with hgc := { s.hgc with heldCauses := t.hgc.heldCauses } } t) ∧
  (∀ r : Requester, s.mayWrite r 0x09001070 = true →
    (s.pairRole = true → s.active = true → s.flag Reg.HGC_CTL_FENCE = false → completes (.hgcFenceWrite r true) s fun t =>
      t.flag Reg.HGC_CTL_FENCE = true ∧ t.hedgeState = 5 ∧ t.get Reg.HGC_STATE_FENCE_CAUSE = 5 ∧ posted s t .hgc 4 [(8, 5)] ∧
      NoisyFrame (words [Reg.HGC_STATE_STATE, Reg.HGC_EPOCH_AON_VALID, Reg.HGC_CTL_FENCE]) s
        { s with hgc := { s.hgc with heldCauses := t.hgc.heldCauses } } t) ∧
    (completes (.hgcFenceWrite r false) s fun t => t.flag Reg.HGC_CTL_FENCE = false ∧ 5 ∉ t.hgc.heldCauses ∧
      QuietFrame (words [Reg.HGC_CTL_FENCE]) s { s with hgc := { s.hgc with heldCauses := t.hgc.heldCauses } } t) ∧
    (s.pairRole = true → s.active = true → completes (.hgcReleaseWrite r) s fun t => t.flag Reg.HGC_CTL_RELEASE = true ∧
      QuietFrame (words [Reg.HGC_CTL_RELEASE]) s s t) ∧
    (completes (.hgcLayerWrite r) s fun t => t.flag Reg.HGC_CTL_LAYER = true ∧ QuietFrame (words [Reg.HGC_CTL_LAYER]) s s t) ∧
    (∀ v : Bool, completes (.hgcHoldWrite r v) s fun t => t.flag Reg.HGC_CTL_HOLD = v ∧
      bitAt (t.get Reg.HGC_STATE_NOT_FIT) 5 = v ∧ (∀ i, i < 5 →
        bitAt (t.get Reg.HGC_STATE_NOT_FIT) i = bitAt (s.get Reg.HGC_STATE_NOT_FIT) i) ∧
      QuietFrame (words [Reg.HGC_CTL_HOLD, Reg.HGC_STATE_NOT_FIT]) s s t)) ∧
  (s.pairRole = true → s.active = true → s.flag Reg.HGC_CTL_RELEASE = true → s.witPaths = [] → completes .handover s fun t =>
    t.hedgeState = 5 ∧ t.get Reg.HGC_STATE_FENCE_CAUSE = 1 ∧ t.flag Reg.HGC_CTL_RELEASE = false ∧
    t.get Reg.HGC_EPOCH_AON_LAST_EPOCH = s.get Reg.HGC_STATE_EPOCH) ∧
  (completes .restartWindowEnd s fun t => (∀ k, k < 16 → t.flag (witRestart k) = false ∧
      t.get (witHolder k) = s.get (witHolder k) ∧ t.get (witEpoch k) = s.get (witEpoch k)) ∧
    (∀ w ∈ t.hgc.wit, w.holding = []) ∧
    QuietFrame (fun k => inRange k 0x09008000 0x100) s { s with hgc := { s.hgc with wit := t.hgc.wit } } t) ∧
  (∀ first k : Nat, s.hgc.replay = some (first, k) → s.active = true → k < s.tick → first + (s.tick - k) ≤ k → 0x9E0 ∉ s.once →
    completes .replayTick s fun t => t.hgc.replayDue = s.backlogOf (first + (s.tick - k)) ∧
      t.get Reg.HGC_REPLAY_TICKS = (s.get Reg.HGC_REPLAY_TICKS + 1) % 2 ^ 64 ∧
      QuietFrame (words [Reg.HGC_REPLAY_TICKS]) s { s with hgc := { s.hgc with replayDue := t.hgc.replayDue }, once := t.once } t)

/-- The hedge link's commands complete (R317 to R321, R327, R466): bring-up, the agreed version or the refusal, the loss of the
partner, carried commands in their order, the mirror, the heartbeat with the compare of digests, and the witness clock. The refusal
and the loss of the partner are stated where TE has booked nothing, since a unit that leaves LAYERING or STANDBY books its media
again (R17). -/
def Obligations.HedgeLinkCommandsComplete : Prop := ∀ s : State, s.canon = true → s.pairRole = true → s.running .hgc = true →
  (∀ (a b : Fin 256) (k : Word), completes (.hedgeLinkUp a b k) s fun t => t.flag Reg.HGC_STATE_LINK_UP = true ∧
    t.out = .hedge k.toNat 0 [a, b, s.hgc.showHash, s.get Reg.HGC_CFG_PAIR_ID, s.get Reg.HGC_SELF_ID, s.get Reg.HGC_CFG_PARTY, s.hedgeState,
      s.get Reg.HGC_STATE_EPOCH] :: s.out ∧ QuietFrame (words [Reg.HGC_STATE_LINK_UP]) s
      { s with out := t.out, hgc := { s.hgc with verMin := a, verMax := b, linkSeq := (k.toNat + 1) % 2 ^ 32 } } t) ∧
  (s.flag Reg.HGC_STATE_LINK_UP = true →
    (∀ (a b : Fin 256) (h : BitVec 384) (m : HelloMsg), a.val ≤ min b.val s.hgc.verMax → s.hgc.verMin ≤ min b.val s.hgc.verMax →
      h.toNat = s.hgc.showHash → m.pairId = s.get Reg.HGC_CFG_PAIR_ID → m.selfId = s.get Reg.HGC_PARTNER_ID →
      (m.party = 1 ∨ m.party = 2) → m.party ≠ s.get Reg.HGC_CFG_PARTY → s.get Reg.HGC_SELF_ID = s.sup.otpMac →
      completes (.hello a b h m) s fun t => t.get Reg.HGC_STATE_AGREED_VER = min b.val s.hgc.verMax % 256 ∧
        posted s t .hgc 1 [(8, min b.val s.hgc.verMax)] ∧ t.hedgeState = s.hedgeState ∧
        NoisyFrame (words [Reg.HGC_STATE_AGREED_VER]) s { s with hgc := { s.hgc with helloActive := t.hgc.helloActive } } t) ∧
    (∀ (a b : Fin 256) (h : BitVec 384) (m : HelloMsg) (vers declared : Bool) (reason : Nat),
      vers = decide (a.val ≤ min b.val s.hgc.verMax ∧ s.hgc.verMin ≤ min b.val s.hgc.verMax) →
      declared = decide (m.pairId = s.get Reg.HGC_CFG_PAIR_ID ∧ m.selfId = s.get Reg.HGC_PARTNER_ID ∧ (m.party = 1 ∨ m.party = 2) ∧
        s.get Reg.HGC_SELF_ID = s.sup.otpMac) →
      (vers = false ∧ reason = 0) ∨ (vers = true ∧ h.toNat ≠ s.hgc.showHash ∧ reason = 1) ∨
        (vers = true ∧ h.toNat = s.hgc.showHash ∧ declared = false ∧ reason = 2) ∨
        (vers = true ∧ h.toNat = s.hgc.showHash ∧ declared = true ∧ m.party = s.get Reg.HGC_CFG_PARTY ∧ reason = 3) →
      s.active = false → s.te.books = [] → (s.hedgeState = 5 → s.hgc.heldCauses = []) →
        completes (.hello a b h m) s fun t => t.hedgeState = 6 ∧ t.get Reg.HGC_STATE_AGREED_VER = 0 ∧
        posted s t .hgc 2 [(8, Config.pairReason reason)] ∧
        NoisyFrame (fun k => words [Reg.HGC_STATE_STATE, Reg.HGC_STATE_AGREED_VER] k || logWord k) s { s with hgc := t.hgc } t) ∧
    ((s.hedgeState = 2 → s.hgc.heldCauses = [] ∧ s.te.books = []) → completes .partnerLost s fun t =>
      t.flag Reg.HGC_STATE_LINK_UP = false ∧ t.get Reg.HGC_STATE_AGREED_VER = 0 ∧
      t.hgc.partner = none ∧ t.hedgeState = (if s.hedgeState = 2 then 1 else s.hedgeState) ∧ posted s t .hgc 9 [] ∧
      NoisyFrame (words [Reg.HGC_STATE_STATE]) s { s with hgc := t.hgc } t) ∧
    (∀ (c : Nat) (rest : List Nat), s.hedgeState = 2 → s.hgc.heldCauses = c :: rest → heldCause c = true →
      completes .partnerLost s fun t => t.flag Reg.HGC_STATE_LINK_UP = false ∧ t.get Reg.HGC_STATE_AGREED_VER = 0 ∧
        t.hgc.partner = none ∧ t.hedgeState = 5 ∧ t.get Reg.HGC_STATE_FENCE_CAUSE = c) ∧
    (∀ (o : Nat) (m : HeartbeatMsg), s.hedgeState = 3 → m.state = 4 → m.epoch < 256 → m.lastTx < 2 ^ 48 → m.digests = [] →
      (∀ d ∈ s.hgc.digests, d.tick ≠ m.tick) → completes (.heartbeat o m) s fun t =>
        t.hgc.partner = some (4, m.epoch) ∧ t.hgc.partnerActive = true ∧ t.get Reg.HGC_STATE_EPOCH = m.epoch ∧
        t.get Reg.HGC_LAST_TX = m.lastTx ∧ t.hedgeState = 3 ∧
        (∀ i w, i < 16 → m.record[i]? = some w → t.rd (0x09002040 + 4 * i) = w.toNat) ∧
        QuietFrame (fun k => inRange k 0x09002040 64 || words [Reg.TE_OFFSET, Reg.HGC_STATE_EPOCH, Reg.HGC_LAST_TX] k) s
          { s with hgc := { s.hgc with
            partner := some (4, m.epoch), partnerEpoch := some m.epoch, heardSeq := m.cmdSeq, partnerActive := true, compared := m.tick } } t) ∧
    (∀ (o : Nat) (m : HeartbeatMsg) (d : Digest) (x : DigestRec), s.hedgeState = 3 → m.state = 4 → m.digests = [x] →
      s.hgc.digests = [d] → d.tick = m.tick → d.flow = x.flow → d.heldIn = false → s.egu.ovrEdges.contains m.tick = false → d.notSent = false →
      x.heldIn = false → x.edge = false → x.notSent = false →
      (d.crc ^^^ 0xFFFFFFFF = x.crc → completes (.heartbeat o m) s fun t =>
        t.get Reg.HGC_SHADOW_MATCH = (s.get Reg.HGC_SHADOW_MATCH + 1) % 2 ^ 64 ∧
        t.get Reg.HGC_SHADOW_MISMATCH = s.get Reg.HGC_SHADOW_MISMATCH) ∧
      (d.crc ^^^ 0xFFFFFFFF ≠ x.crc → completes (.heartbeat o m) s fun t =>
        t.get Reg.HGC_SHADOW_MISMATCH = (s.get Reg.HGC_SHADOW_MISMATCH + 1) % 2 ^ 64 ∧
        t.get Reg.HGC_SHADOW_MATCH = s.get Reg.HGC_SHADOW_MATCH)) ∧
    (∀ (o : Nat) (m : HeartbeatMsg), s.active = true → m.state = 4 → serialNewer 8 m.epoch (s.get Reg.HGC_STATE_EPOCH) = true →
      completes (.heartbeat o m) s fun t => t.hedgeState = 5 ∧ t.get Reg.HGC_STATE_FENCE_CAUSE = 7 ∧ posted s t .hgc 4 [(8, 7)])) ∧
  (∀ (q : Word) (at_ : Fin 281474976710656), s.active = false → s.hgc.layer ≠ some 0 → (at_.val = 0 ∨ s.tick < at_.val) →
    q.toNat = (s.get Reg.HGC_CMD_SEQ + 1) % 2 ^ 32 →
    (∀ (k : Nat) (v : Word), Assoc.get? s.hgc.items k = none → 0x12000000 ≤ k → k < 0x12800000 →
      completes (.carriedCommand q at_ (.words [(k, v)])) s fun t => t.rd k = v.toNat ∧ t.get Reg.HGC_CMD_SEQ = q.toNat ∧
        QuietFrame (fun j => j == k || words [Reg.HGC_CMD_SEQ] j) s
          (if k % 128 < 44 then (s.wr k v.toNat).flowWritten ((k - 0x12000000) / 128) (k % 128 / 4) v.toNat else s) t) ∧
    (∀ (k : Nat) (v : Word), (∀ x ∈ s.hgc.itemSeqs, x.1 ≠ .limit k) → completes (.carriedCommand q at_ (.limit k v)) s fun t =>
      t.egu.limits = s.egu.limits.filter (fun x => x.1 != k) ++ [(k, v.toNat, at_.val)] ∧ t.get Reg.HGC_CMD_SEQ = q.toNat ∧
      QuietFrame (words [Reg.HGC_CMD_SEQ]) s { s with egu := { s.egu with limits := t.egu.limits } } t)) ∧
  (∀ (ring : Fin 131072) (seq : Nat) (pkt : Bytes), s.hedgeState = 3 → completes (.hostMirror ring seq pkt) s fun t =>
    t = { s with qe := { s.qe with mediaWait := s.qe.mediaWait ++ [(ring.val, seq, pkt, true)] } }) ∧
  (completes .witClkLoss s fun t => t = { s with hgc := { s.hgc with clkDown := true } }) ∧
  (completes .witClkRecovered s fun t => t = { s with hgc := { s.hgc with clkDown := false } })

/-- Layering and the health report complete (R323, R324): BULK, DELTA and SETTLE follow one another, and the unit that has settled
is STANDBY; the record shows the state, the fitness, the units and the counts. What BULK and SETTLE bring is stated of a unit that
is not ACTIVE; its change of state, where TE has booked nothing (R17). -/
def Obligations.LayeringCommandsComplete : Prop := ∀ s : State, s.canon = true →
  (s.mayLayer = true → s.te.books = [] → completes .layerBulk s fun t => t.hedgeState = 2 ∧ t.hgc.layer = some 0 ∧ t.hgc.items = [] ∧
    bitAt (t.get Reg.HGC_STATE_NOT_FIT) 3 = false ∧ QuietFrame (words [Reg.HGC_STATE_STATE]) s { s with hgc := t.hgc } t) ∧
  (∀ m : BulkMsg, s.hgc.layer = some 0 → m.seq < 2 ^ 32 → m.epoch < 256 → completes (.bulkDone m) s fun t => t.hgc.layer = some 1 ∧
    t.get Reg.HGC_CMD_SEQ = m.seq ∧ t.get Reg.HGC_STATE_EPOCH = m.epoch ∧ t.te.since = m.admitted ∧ t.fpu.gains = m.gains ∧
    t.ftu.lpm = m.lpm ∧ t.ftu.macStatic = m.macStatic ∧ t.egu.limits = m.limits ∧ t.te.books.length = m.admitted.length ∧
    t.hgc.items = m.words.map (fun x => (x.1, x.2.2)) ∧ t.hgc.itemSeqs = m.seqs) ∧
  (∀ m : SettleMsg, s.active = false → s.hgc.layer = some 1 → completes (.deltaDone m) s fun t =>
    t = { s with hgc := { s.hgc with layer := some 2, settleTick := m.tick }, fpu := { s.fpu with terms := t.fpu.terms },
                 media := { s.media with flows := t.media.flows } }) ∧
  (s.pairRole = true → s.running .hgc = true →
    (s.active = true → completes .layerDone s fun t => posted s t .hgc 7 [] ∧ NoisyFrame (fun _ => false) s s t) ∧
    (s.hedgeState = 2 → s.hgc.layer = some 2 → s.hgc.badKeys = [] → s.hgc.settleTick + s.settleTicks ≤ s.tick →
      s.hgc.heldCauses = [] → completes .layerDone s fun t => t.hedgeState = 3 ∧ t.flag Reg.HGC_CTL_LAYER = false ∧
        t.hgc.layer = none ∧ posted s t .hgc 7 [] ∧
      NoisyFrame (words [Reg.HGC_STATE_STATE, Reg.HGC_CTL_LAYER]) s { s with hgc := t.hgc } t) ∧
    (∀ (c : Nat) (rest : List Nat), s.active = false → s.hgc.layer = some 2 → s.hgc.badKeys = [] →
      s.hgc.settleTick + s.settleTicks ≤ s.tick → s.hgc.heldCauses = c :: rest → heldCause c = true → completes .layerDone s fun t =>
        t.hedgeState = 5 ∧ t.get Reg.HGC_STATE_FENCE_CAUSE = c ∧ t.hgc.layer = none)) ∧
  (s.running .hgc = true → s.admittedFlows = [] → s.admittedPoints = [] → completes .healthReport s fun t =>
    t.rd 0x09002000 = s.tick % 2 ^ 32 ∧ t.rd 0x09002004 = s.tick / 2 ^ 32 ∧
    bits (t.rd 0x09002008) 0 8 = s.hedgeState ∧ bits (t.rd 0x09002008) 8 8 = s.get Reg.HGC_STATE_FENCE_CAUSE ∧
    bits (t.rd 0x09002008) 16 8 = s.get Reg.HGC_STATE_EPOCH ∧ bits (t.rd 0x09002008) 24 8 = s.get Reg.HGC_STATE_NOT_FIT ∧
    t.rd 0x09002010 = s.countBits 0x09004000 0x2000 % 2 ^ 32 ∧ t.rd 0x09002014 = s.countBits 0x09006000 0x400 % 2 ^ 32 ∧
    t.rd 0x0900202C = s.get Reg.HGC_CMD_SEQ ∧
    t.hgc.health = (s.hedgeState, s.get Reg.HGC_STATE_NOT_FIT, s.featuresDown) ∧
    (s.hgc.health ≠ t.hgc.health → posted s t .hgc 8 []) ∧
    NoisyFrame (fun k => inRange k 0x09002000 64) s { s with hgc := t.hgc } t)

/-- The commands that put the device into standalone mode complete while it is powered (R343, R344, R346, R349), with no ring at
work and no connection open: the session, the cause and the tick are noted, no tag is held any more, and a reset of the function
returns its MSI-X registers and the configuration space. The host link comes up at what it was trained to, with the credits that
the host advertises (R332, R336, R339); the places of the configuration words are the model's (log entry 110). -/
def Obligations.StandaloneCommandsComplete : Prop := ∀ s : State, s.canon = true → s.ringsBusy = [] → s.openConns = [] →
  (s.attached = true → s.powered = true → ∀ c ∈ [(1, Instr.dlDown .down), (1, .dlDown .hotReset), (2, .perstAssert), (4, .pf0Flr), (5, .pf0D3)],
    completes c.2 s fun t => t.attached = false ∧ t.get Reg.HIU_HOST_STATE_CAUSE = c.1 ∧
      t.get Reg.HIU_HOST_STATE_SESSION = (s.get Reg.HIU_HOST_STATE_SESSION + 1) % 2 ^ 16 ∧
      t.get Reg.HIU_STANDALONE_TICK_TICK = s.tick ∧
      t.get Reg.HIU_STANDALONE_ENTRIES = (s.get Reg.HIU_STANDALONE_ENTRIES + 1) % 2 ^ 64 ∧
      t.hiu.tags = [] ∧ t.hiu.queue = [] ∧ t.get Reg.HIU_LINK_LOST_REQ =
        (s.get Reg.HIU_LINK_LOST_REQ + s.hiu.tags.length) % 2 ^ 64 ∧
      (c.2 ≠ .pf0D3 → c.2 ≠ .pf0Flr → t.flag Reg.HIU_LINK_STATUS_UP = false) ∧
      (c.2 ≠ .pf0D3 → c.2 ≠ .dlDown .down → ∀ k, (0x0A010000 ≤ k ∧ k < 0x0A020000) ∨ 0x40000000 ≤ k → t.rd k = (resetWord k).toNat)) ∧
  (s.attached = true → s.powered = true → s.running .hiu = true → completes (.dlDown .fatal) s fun t => t.attached = false ∧
    t.get Reg.HIU_HOST_STATE_CAUSE = 7 ∧ t.get (Reg.UNIT_STATE 10) = 3 ∧ t.flag Reg.HIU_LINK_STATUS_UP = false) ∧
  (s.attached = false → s.powered = true → completes .pf0D3 s fun t => t.get Reg.HIU_HOST_STATE_CAUSE = 5 ∧
    QuietFrame (words [Reg.HIU_HOST_STATE_CAUSE]) s { s with hiu := { s.hiu with vfD3 := 0 :: s.hiu.vfD3.filter (· != 0) } } t) ∧
  (∀ o : Nat, s.attached = true → s.flag Reg.HIU_WDOG_CFG_WDOG_EN = true →
    s.hiu.kicked + 1000000 * s.get Reg.HIU_WDOG_CFG_WDOG_MS ≤ (s.moment o).localNs →
    completes (.watchdogExpiry o) s fun t => t.attached = false ∧ t.get Reg.HIU_HOST_STATE_CAUSE = 3 ∧
      t.get Reg.HIU_HOST_STATE_SESSION = (s.get Reg.HIU_HOST_STATE_SESSION + 1) % 2 ^ 16 ∧
      t.get Reg.HIU_STANDALONE_TICK_TICK = s.tick) ∧
  (∀ o : Nat, s.attached = true → s.running .te = true →
    (s.moment o).localNs < s.hiu.kicked + 1000000 * s.get Reg.HIU_WDOG_CFG_WDOG_MS →
    completes (.watchdogExpiry o) s fun t => t = s.moment o) ∧
  (∀ (speed : Fin 7) (width : Fin 17) (flit : Bool) (fc : FcCredits), s.running .hiu = true → speed.val ≠ 0 →
    speed.val ≤ s.get Reg.HIU_LINK_CFG_MAX_SPEED → width.val ≤ s.get Reg.HIU_LINK_CFG_MAX_WIDTH →
    s.get Reg.HIU_LINK_CFG_MIN_SPEED ≤ speed.val → s.get Reg.HIU_LINK_CFG_MIN_WIDTH ≤ width.val →
    (s.hiu.perst = false → completes (.linkTrained speed width flit fc) s fun t => t.flag Reg.HIU_LINK_STATUS_UP = true ∧
      t.get Reg.HIU_LINK_STATUS_SPEED = speed ∧ t.get Reg.HIU_LINK_STATUS_WIDTH = width ∧
      t.flag Reg.HIU_LINK_STATUS_BELOW_MIN = false ∧
      t.flag Reg.HIU_LINK_STATUS_FLIT = (speed.val == 6 || (flit && decide (4 ≤ speed.val))) ∧
      t.get Reg.HIU_TAG_STATUS_LIMIT = tagLimit (speed.val == 6 || (flit && decide (4 ≤ speed.val))) (s.flag cfgTenBit) ∧
      t.hiu.fc = [fc.posted.1, fc.posted.2, fc.nonPosted.1, fc.nonPosted.2, fc.completion.1, fc.completion.2].map (fun n => (n, n, 0)) ∧
      QuietFrame (words [Reg.HIU_LINK_STATUS_UP, Reg.HIU_TAG_STATUS_LIMIT]) s { s with hiu := { s.hiu with fc := t.hiu.fc } } t) ∧
    (s.flag Reg.HIU_LINK_STATUS_UP = true → s.attached = true → speed.val ≠ s.get Reg.HIU_LINK_STATUS_SPEED → s.hiu.queue = [] →
      completes (.linkRetrained speed width flit fc) s fun t => t.get Reg.HIU_LINK_STATUS_SPEED = speed ∧
        t.get Reg.HIU_LINK_STATUS_WIDTH = width ∧ t.attached = true ∧ posted s t .hiu 3 [] ∧
        NoisyFrame (words [Reg.HIU_LINK_STATUS_UP, Reg.HIU_TAG_STATUS_LIMIT]) s { s with hiu := { s.hiu with fc := t.hiu.fc } } t)) ∧
  (completes .perstDeassert s fun t => t = { s with hiu := { s.hiu with perst := false } })

/-- Adoption, the watchdog's kick, the resets and power states of VFs, read completions and unmasking complete (R334, R338, R341,
R346 to R349). A failed read is stated of a fetch whose ring has been disabled meanwhile, which has no one left to tell; the place
of AER's status word is the model's (log entry 110). -/
def Obligations.HostCommandsComplete : Prop := ∀ s : State, s.canon = true →
  (∀ (r : Requester) (o : Nat), s.mayWrite r Reg.HIU_WDOG_KICK.key = true → completes (.wdogKick r o) s fun t =>
    t.hiu.kicked = (s.moment o).localNs ∧
    QuietFrame (words [Reg.TE_OFFSET]) s { s with hiu := { s.hiu with kicked := t.hiu.kicked } } t) ∧
  (∀ (r : Requester) (m : Adoption) (n : BitVec 16), m.session = n → s.mayWrite r Reg.HIU_ADOPT.key = true →
    (m.meets = none → n.toNat = s.get Reg.HIU_HOST_STATE_SESSION → s.attached = false → s.flag Reg.HIU_LINK_STATUS_UP = true →
      s.flag Reg.HIU_LINK_STATUS_BELOW_MIN = false → completes (.adopt r m) s fun t => t.attached = true ∧
        t.hiu.kicked = s.localNs ∧ t.get Reg.HIU_HOST_STATE_SESSION = s.get Reg.HIU_HOST_STATE_SESSION ∧
        posted s t .hiu 1 [(8, s.get Reg.HIU_HOST_STATE_CAUSE), (16, n.toNat), (32, s.tick - s.get Reg.HIU_STANDALONE_TICK_TICK)] ∧
        NoisyFrame (fun k => words [Reg.HIU_HOST_STATE_MODE] k || logWord k) s { s with hiu := { s.hiu with kicked := s.localNs } } t) ∧
    (m.meets = none → n.toNat ≠ s.get Reg.HIU_HOST_STATE_SESSION → completes (.adopt r m) s fun t =>
      t.get Reg.HIU_ADOPT_REFUSED = (s.get Reg.HIU_ADOPT_REFUSED + 1) % 2 ^ 64 ∧
      QuietFrame (words [Reg.HIU_ADOPT_REFUSED]) s s t) ∧
    (∀ c : Fin 8, m.meets = some c → s.ringsBusy = [] → s.openConns = [] → completes (.adopt r m) s fun t =>
      t.attached = false ∧ t.get Reg.HIU_HOST_STATE_CAUSE = c ∧
      t.get Reg.HIU_HOST_STATE_SESSION = (s.get Reg.HIU_HOST_STATE_SESSION + 1) % 2 ^ 16 ∧
      t.get Reg.HIU_ADOPT_REFUSED = (s.get Reg.HIU_ADOPT_REFUSED + 1) % 2 ^ 64)) ∧
  (∀ v : Fin 4096, v.val ≠ 0 → s.powered = true → s.ringsBusy = [] → s.ttu.flr = [] →
    (s.outstanding v = true → completes (.vfFlr v) s fun t => t.ttu.flr = [v.val] ∧ t.regs = s.regs ∧ ∀ q ∈ t.hiu.queue, q.func ≠ v.val) ∧
    (s.outstanding v = false → completes (.vfFlr v) s fun t =>
    v.val ∉ t.hiu.vfD3 ∧ t.ttu.tlb = s.ttu.tlb.filter (fun e => !(e.func == v.val)) ∧
    (∀ toVf, t.halfPending toVf v = false) ∧
    (∀ k, inRange k (0x10000000 + v.val * 0x1000) 0x1000 = true ∨ inRange k (cfgKey v 0) 0x1000 = true → t.rd k = (resetWord k).toNat) ∧
    (∀ k, inRange k (0x20000000 + v.val * 0x10000) 0x10000 = true → k ≠ 0x20009000 + 0x10000 * v.val → t.rd k = (resetWord k).toNat) ∧
    postedAs s t ⟨11, 7, v, .pf, 0⟩)) ∧
  (∀ w : Word, s.powered = true → s.ringsBusy = [] → s.hiu.tags = [] → s.ttu.flr = [] → completes (.vfEnableClear w) s fun t =>
    t.flag cfgVfOn = false ∧ t.get cfgNumVfs = s.get cfgNumVfs ∧ (s.flag cfgVfOn = true →
      ∀ v, 1 ≤ v → v ≤ s.get cfgNumVfs → v < 4096 → v ∉ t.hiu.vfD3 ∧ ∀ e ∈ t.ttu.tlb, e.func ≠ v)) ∧
  (∀ v : Fin 4096, v.val ≠ 0 → s.powered = true → completes (.vfD3 v) s fun t => v.val ∈ t.hiu.vfD3 ∧ (∀ w, w ∈ s.hiu.vfD3 → w ∈ t.hiu.vfD3) ∧
    t = { s with hiu := { s.hiu with vfD3 := t.hiu.vfD3 } }) ∧
  (∀ v : Fin 4096, s.hiu.queue = [] → completes (.returnToD0 v) s fun t => v.val ∉ t.hiu.vfD3 ∧
    t = { s with hiu := { s.hiu with vfD3 := s.hiu.vfD3.filter (· != v.val) } }) ∧
  (∀ (tag : Fin 4096) (q : ReadReq), s.hiu.tags.find? (·.1 == tag.val) = some (tag.val, q) → s.hiu.queue = [] → s.ttu.flr = [] →
    (completes (.readCompletion tag 0) s fun t => t.hiu.tags = s.hiu.tags.filter (fun x => x.1 != tag.val) ∧
      t.get Reg.HIU_TAG_STATUS_OUTSTANDING = t.hiu.tags.length % 2 ^ 13 ∧
      QuietFrame (words [Reg.HIU_TAG_STATUS_OUTSTANDING, Reg.HIU_TAG_HWM]) s
        { s with hiu := { s.hiu with tags := t.hiu.tags }, ttu := { s.ttu with inv := t.ttu.inv } } t) ∧
    (∀ (r n : Nat) (st : Fin 4), q.use = .fetch r n → s.ringOn r = false → st.val ≠ 0 → completes (.readCompletion tag st) s fun t =>
      t.hiu.tags = s.hiu.tags.filter (fun x => x.1 != tag.val) ∧
      t.get Reg.HIU_CPL_ERROR = (s.get Reg.HIU_CPL_ERROR + 1) % 2 ^ 64 ∧
      (st.val = 1 → bitAt (t.rd (cfgKey q.func 0x104)) 20 = true) ∧ (st.val = 3 → bitAt (t.rd (cfgKey q.func 0x104)) 15 = true) ∧
      QuietFrame (fun k => k == cfgKey q.func 0x104 || words [Reg.HIU_TAG_STATUS_OUTSTANDING, Reg.HIU_TAG_HWM, Reg.HIU_CPL_ERROR] k) s
        { s with hiu := { s.hiu with tags := t.hiu.tags }, ttu := { s.ttu with inv := t.ttu.inv } } t) ∧
    (∀ r n : Nat, q.use = .fetch r n → s.ringOn r = false → 0xA04 ∉ s.once →
      completes (.completionTimeout tag) s fun t => t.hiu.tags = s.hiu.tags.filter (fun x => x.1 != tag.val) ∧
      t.get Reg.HIU_CPL_TIMEOUT = (s.get Reg.HIU_CPL_TIMEOUT + 1) % 2 ^ 64 ∧ posted s t .hiu 4 [] ∧
      bitAt (t.rd (cfgKey q.func 0x104)) 14 = true ∧
      NoisyFrame (fun k => k == cfgKey q.func 0x104 || words [Reg.HIU_TAG_STATUS_OUTSTANDING, Reg.HIU_TAG_HWM, Reg.HIU_CPL_TIMEOUT] k) s
        { s with hiu := { s.hiu with tags := t.hiu.tags }, ttu := { s.ttu with inv := t.ttu.inv } } t)) ∧
  (∀ (f : Fin 4096) (v : Fin 2048), v.val < vectorCount f → s.running .hiu = true → s.hiu.vfD3.contains f.val = false →
    (s.flag (vectorPending f v) = true → s.attached = true → s.flag (cfgMsixMask f) = false → completes (.msixUnmask f v false) s fun t =>
      t.flag (vectorControl f v) = false ∧ t.flag (vectorPending f v) = false ∧
      QuietFrame (words [vectorControl f v, vectorPending f v]) s
        { s with out := .msix f v :: s.out, hiu := { s.hiu with fc := t.hiu.fc } } t) ∧
    (s.flag (vectorPending f v) = false ∨ s.flag (cfgMsixMask f) = true → completes (.msixUnmask f v false) s fun t =>
      t.flag (vectorControl f v) = false ∧ QuietFrame (words [vectorControl f v]) s s t) ∧
    ((∀ w, w < 2048 → s.flag (vectorPending f w) = false) → completes (.msixUnmask f v true) s fun t => t.flag (cfgMsixMask f) = false ∧
      QuietFrame (words [cfgMsixMask f]) s s t))

/-- TTU's commands complete (R351, R356, R357, R362, R363): a context write takes effect, an invalidation removes exactly the
entries of its scope and ends with DONE, and a sync toggles the phase and ends with DONE. -/
def Obligations.TranslationCommandsComplete : Prop := ∀ s : State, s.canon = true →
  (∀ (r : Requester) (f : Fin 4096) (v : Word), s.mayWrite r (0x0B100000 + 32 * f.val) = true → bits v.toNat 29 2 ≠ 3 →
    (bits v.toNat 29 2 = 2 → f.val = 0) →
    (s.flag (Reg.CTX_LOG_EN f) = false → completes (.contextWrite r f 0 v) s fun t => t.get (Reg.CTX_VALID f) = bits v.toNat 31 1 ∧
      t.get (Reg.CTX_MODE f) = bits v.toNat 29 2 ∧ t.get (Reg.CTX_LOG_WORDS f) = bits v.toNat 0 24 ∧
      t.flag (Reg.CTX_LOG_EN f) = (f.val != 0 && bitAt v.toNat 28) ∧
      QuietFrame (words [Reg.CTX_VALID f]) s s t) ∧
    (s.flag (Reg.CTX_LOG_EN f) = true → bitAt v.toNat 28 = false → completes (.contextWrite r f 0 v) s fun t =>
      t.flag (Reg.CTX_LOG_EN f) = false ∧ t.flag Reg.TTU_LOG_STATUS_BUSY = true ∧
      t.flag (Reg.CTX_LOG_PHASE f) = !s.flag (Reg.CTX_LOG_PHASE f) ∧
      t.ttu.sync = s.ttu.sync ++ [(f.val, s.ttu.outRange.contains f.val)] ∧
      QuietFrame (words [Reg.CTX_VALID f, Reg.TTU_LOG_STATUS_BUSY]) s { s with ttu := t.ttu } t)) ∧
  (∀ r : Requester, s.mayWrite r Reg.TTU_INV_CMD_SCOPE.key = true →
    (s.flag Reg.TTU_INV_STATUS_BUSY = false →
      (completes (.invAll r) s fun t => t.ttu.tlb = [] ∧ t.ttu.walkCache = [] ∧ t.ttu.inv = some (s.hiu.tags.map (·.1)) ∧
        t.flag Reg.TTU_INV_STATUS_BUSY = true ∧ t.flag Reg.TTU_INV_STATUS_DONE = false ∧
        t.get Reg.TTU_INV_SEQ_SEQ = (s.get Reg.TTU_INV_SEQ_SEQ + 1) % 2 ^ 32 ∧
        QuietFrame (words [Reg.TTU_INV_STATUS_BUSY, Reg.TTU_INV_SEQ_SEQ, Reg.SUP_TRACK_STATUS_HELD]) s
          { s with ttu := t.ttu, hiu := { s.hiu with queue := t.hiu.queue } } t) ∧
      (∀ f : Fin 4096, completes (.invFunc r f) s fun t => t.ttu.tlb = s.ttu.tlb.filter (fun e => e.func != f.val) ∧
        t.ttu.walkCache = s.ttu.walkCache.filter (fun c => c.1 != f.val) ∧
        t.ttu.inv = some ((s.hiu.tags.filter (fun x => x.2.func == f.val)).map (·.1)) ∧ t.flag Reg.TTU_INV_STATUS_BUSY = true ∧
        t.get Reg.TTU_INV_SEQ_SEQ = (s.get Reg.TTU_INV_SEQ_SEQ + 1) % 2 ^ 32) ∧
      (∀ (f : Fin 4096) (n : Fin 32), completes (.invRange r f n) s fun t => t.flag Reg.TTU_INV_STATUS_BUSY = true ∧
        t.ttu.tlb = s.ttu.tlb.filter (fun e => !(e.func == f.val &&
          e.meets (4096 * s.get Reg.TTU_INV_ADDR_ADDR) (4096 * 2 ^ n.val))))) ∧
    (s.flag Reg.TTU_INV_STATUS_BUSY = true → completes (.invAll r) s fun t => t.flag Reg.TTU_INV_STATUS_LOST = true ∧
      t.ttu.tlb = s.ttu.tlb ∧ QuietFrame (words [Reg.TTU_INV_STATUS_LOST]) s s t)) ∧
  (∀ w : List Walk8, s.ttu.inv = some [] → s.hiu.queue = [] → s.ttu.flr = [] → s.get Reg.TTU_INV_CPL_ADDR_ADDR = 0 →
    completes (.invDone w) s fun t =>
    t.ttu.inv = none ∧ t.flag Reg.TTU_INV_STATUS_BUSY = false ∧ t.flag Reg.TTU_INV_STATUS_DONE = true ∧
    t.get Reg.SUP_TRACK_STATUS_HELD = s.get Reg.SUP_TRACK_STATUS_HELD - 1 ∧ posted s t .ttu 2 [(32, s.get Reg.TTU_INV_SEQ_SEQ)] ∧
    NoisyFrame (words [Reg.TTU_INV_STATUS_BUSY, Reg.SUP_TRACK_STATUS_HELD]) s { s with ttu := { s.ttu with inv := none } } t) ∧
  (∀ (r : Requester) (f : Fin 4096), s.mayWrite r Reg.TTU_LOG_CMD_OP.key = true → s.flag Reg.TTU_LOG_STATUS_BUSY = false →
    (s.flag (Reg.CTX_LOG_EN f) = true → completes (.logSync r f) s fun t => t.flag Reg.TTU_LOG_STATUS_BUSY = true ∧
      t.flag Reg.TTU_LOG_STATUS_DONE = false ∧ t.flag (Reg.CTX_LOG_PHASE f) = !s.flag (Reg.CTX_LOG_PHASE f) ∧
      t.ttu.marks = s.ttu.marks ∧
      QuietFrame (words [Reg.CTX_LOG_PHASE f, Reg.TTU_LOG_STATUS_BUSY]) s { s with ttu := t.ttu } t) ∧
    (s.flag (Reg.CTX_LOG_EN f) = false → completes (.logSync r f) s fun t => t.get Reg.TTU_LOG_STATUS_RESULT = 1 ∧
      t.flag Reg.TTU_LOG_STATUS_DONE = true ∧ QuietFrame (words [Reg.TTU_LOG_STATUS_DONE]) s s t)) ∧
  (∀ (w : List Walk8) (f : Nat) (out : Bool), f < 4096 → s.running .ttu = true → s.ttu.sync = [(f, out)] → s.ttu.marks = [] →
    completes (.logSyncDone w) s fun t => t.ttu.sync = [] ∧ t.flag Reg.TTU_LOG_STATUS_BUSY = false ∧
      t.flag Reg.TTU_LOG_STATUS_DONE = true ∧ t.flag Reg.TTU_LOG_STATUS_OUT_RANGE = out ∧ t.get Reg.TTU_LOG_STATUS_RESULT = 0 ∧
      postedAs s t ⟨11, 3, f, .pf, payload [(12, f), (1, if out then 1 else 0)]⟩ ∧
      NoisyFrame (words [Reg.TTU_LOG_STATUS_BUSY]) s { s with ttu := { s.ttu with sync := [], walks := [] } } t)

/-- The pool commands complete (R366, R367): a limit that fits is set, a FREE ring or instance goes to a function with room, and a
quiesced one comes back; a limit that does not fit changes nothing but RESULT. -/
def Obligations.PoolCommandsComplete : Prop := ∀ s : State, s.canon = true → ∀ (r : Requester) (f : Fin 4096) (a : Nat),
  s.mayWrite r Reg.TTU_POOL_CMD_OP.key = true → a = s.get Reg.TTU_POOL_ARG_ARG →
  (∀ k : Fin 16, k.val < 8 →
    (s.limitSum k - s.get (poolLimit f k) + a ≤ s.poolCap k → s.get (poolUsed f k) ≤ a → completes (.setLimit r k f) s fun t =>
      t.get (poolLimit f k) = a ∧ t.get Reg.TTU_POOL_STATUS_RESULT = 0 ∧
      postedAs s t ⟨11, 4, f, .pf, payload [(8, 1), (8, k), (12, f), (8, 0)]⟩ ∧
      NoisyFrame (words [poolLimit f k, Reg.TTU_POOL_STATUS_RESULT]) s s t) ∧
    (s.poolCap k < s.limitSum k - s.get (poolLimit f k) + a → completes (.setLimit r k f) s fun t =>
      t.get Reg.TTU_POOL_STATUS_RESULT = 1 ∧ t.get (poolLimit f k) = s.get (poolLimit f k) ∧
      NoisyFrame (words [Reg.TTU_POOL_STATUS_RESULT]) s s t)) ∧
  (∀ k : Fin 16, k.val = 0 ∨ k.val = 4 → a < assignable k → s.ownerOf k a = none → s.get (poolUsed f k) < s.get (poolLimit f k) →
    completes (.poolAssign r k f) s fun t => t.ownerOf k a = some f.val ∧ t.get (poolUsed f k) = s.get (poolUsed f k) + 1 ∧
      t.get Reg.TTU_POOL_STATUS_RESULT = 0) ∧
  (∀ (k : Fin 16) (g : Nat), k.val = 0 ∨ k.val = 4 → a < assignable k → s.quiesced k a = true → s.ownerOf k a = some g →
    completes (.poolReclaim r k f) s fun t => t.ownerOf k a = none ∧ t.get (poolUsed g k) = s.get (poolUsed g k) - 1 ∧
      t.get Reg.TTU_POOL_STATUS_RESULT = 0)

/-- The mailboxes' commands complete (R368 to R370): a SEND stamps FROM and TICK and marks the half pending, an ACK frees it, and a
write to a pending half is refused and counted. -/
def Obligations.MailboxCommandsComplete : Prop := ∀ s : State, s.canon = true → ∀ v : Fin 4096, v.val ≠ 0 →
  (s.vfShown v = true → s.halfPending false v = false → s.rd (halfKey false v) % 65536 ≤ 2032 → completes (.mbxSendToPf v) s fun t =>
    t.halfPending false v = true ∧ t.flag (Reg.TTU_VF_MBX_TO_PF_PENDING v) = true ∧ t.rd (halfKey false v + 8) = v.val ∧
    t.rd (halfKey false v + 12) = s.tick % 2 ^ 32 ∧ postedAs s t ⟨11, 5, v, .pf, payload [(12, v), (8, 0)]⟩ ∧
    NoisyFrame (fun k => k == halfKey false v + 8 || k == halfKey false v + 12 ||
      words [pendingBit false v, Reg.TTU_VF_MBX_TO_PF_PENDING v] k) s s t) ∧
  (∀ r : Requester, s.mayWrite r Reg.TTU_MBX_SEND.key = true → s.halfPending true v = false →
    s.rd (halfKey true v) % 65536 ≤ 2032 → completes (.mbxSendToVf r v) s fun t =>
      t.halfPending true v = true ∧ t.flag (Reg.TTU_VF_MBX_TO_VF_PENDING v) = true ∧ t.rd (halfKey true v + 8) = 0 ∧
      t.rd (halfKey true v + 12) = s.tick % 2 ^ 32 ∧ postedAs s t ⟨11, 5, v, .vf v, payload [(12, v), (8, 1)]⟩) ∧
  (∀ r : Requester, s.mayWrite r Reg.TTU_MBX_ACK.key = true → s.halfPending false v = true → completes (.mbxAckByPf r v) s fun t =>
    t.halfPending false v = false ∧ t.flag (Reg.TTU_VF_MBX_TO_PF_PENDING v) = false ∧
    postedAs s t ⟨11, 6, v, .vf v, payload [(12, v), (8, 0)]⟩ ∧
    NoisyFrame (words [pendingBit false v, Reg.TTU_VF_MBX_TO_PF_PENDING v]) s s t) ∧
  (s.vfShown v = true → s.halfPending true v = true → completes (.mbxAckByVf v) s fun t => t.halfPending true v = false ∧
    t.flag (Reg.TTU_VF_MBX_TO_VF_PENDING v) = false ∧ postedAs s t ⟨11, 6, v, .pf, payload [(12, v), (8, 1)]⟩ ∧
    NoisyFrame (words [pendingBit true v, Reg.TTU_VF_MBX_TO_VF_PENDING v]) s s t) ∧
  (∀ (i : Fin 1024) (x : Word), s.running .ttu = true → s.served (.vf v) = true → i.val < 512 →
    (s.halfPending false v = false → completes (.mailboxWrite (.vf v) v i x) s fun t =>
      t.rd (0x10000000 + 0x1000 * v.val + 4 * i.val) = x.toNat ∧
      QuietFrame (fun k => k == 0x10000000 + 0x1000 * v.val + 4 * i.val) s s t) ∧
    (s.halfPending false v = true → completes (.mailboxWrite (.vf v) v i x) s fun t =>
      t.get Reg.TTU_MBX_LOCKED = (s.get Reg.TTU_MBX_LOCKED + 1) % 2 ^ 64 ∧ QuietFrame (words [Reg.TTU_MBX_LOCKED]) s s t) ∧
    (∀ w : Fin 4096, w ≠ v → completes (.mailboxWrite (.vf w) v i x) s fun t => t = s))

/-- Doorbells, turns and fetches of PF0's rings complete (R381 to R383, R386): a ring of the arbiter waits for its turn, another
reads its next entry, one that is fetching reads again, and a consumer's doorbell moves DONE or is discarded. PF0's requests are
served while the host link is up and Memory Space Enable is set (R335). Where the spec leaves it open it rests on the model's
choice of log entry 63. -/
def Obligations.DoorbellCommandsComplete : Prop := ∀ s : State, s.canon = true → s.running .qe = true →
  (s.shows 0x0C200000 = true → s.served .pf0 = true →
    ∀ (r : Fin 131072) (arm : Bool) (v : BitVec 24) (w : List Walk8) (x : RingRt), x = s.ring r →
    x.request = false →
    ((s.ringOwner r ≠ some 0 ∨ s.ringOn r = false) → completes (.doorbellFetch .pf0 r arm v w) s fun t =>
      t.get Reg.QE_DB_DISCARDED = (s.get Reg.QE_DB_DISCARDED + 1) % 2 ^ 64 ∧
      QuietFrame (words [Reg.QE_DB_DISCARDED]) s { s with ttu := { s.ttu with walks := [] } } t) ∧
    (s.slotReady r (s.get (Reg.RING_NEXT r)) = true → s.ringOn r = true → s.ringType r ≤ 2 →
      (x.fetching = true → completes (.doorbellFetch .pf0 r arm v w) s fun t => t.flag (Reg.RING_REREAD r) = true ∧
        t.flag (Reg.RING_ARMED r) = (arm || s.flag (Reg.RING_ARMED r)) ∧
        t.get Reg.QE_REREADS = (s.get Reg.QE_REREADS + 1) % 2 ^ 64 ∧
        QuietFrame (words [Reg.RING_REREAD r, Reg.QE_REREADS]) s { s with ttu := { s.ttu with walks := [] } } t) ∧
      (x.fetching = false → s.arbitrated r = true → completes (.doorbellFetch .pf0 r arm v w) s fun t =>
        t.ring r = { x with waiting := true } ∧ t.flag (Reg.RING_ARMED r) = (arm || s.flag (Reg.RING_ARMED r)) ∧
        QuietFrame (words [Reg.RING_ARMED r]) s
          { s with qe := { s.qe with rings := t.qe.rings }, ttu := { s.ttu with walks := [] } } t) ∧
      (x.fetching = false → s.arbitrated r = false → s.direct = true → s.tagReady = true →
        completes (.doorbellFetch .pf0 r arm v w) s fun t =>
          t.ring r = { x with waiting := false, fetching := true, turn := 0, ahead := 1 } ∧
          t.out = .dmaRead 0 (s.slotAddr r (s.get (Reg.RING_NEXT r))) (entryBytes (s.ringType r)) s.newTag false :: s.out ∧
          t.hiu.tags = s.hiu.tags ++ [(s.newTag, ⟨0, s.slotAddr r (s.get (Reg.RING_NEXT r)), s.slotAddr r (s.get (Reg.RING_NEXT r)),
            entryBytes (s.ringType r), .fetch r (s.get (Reg.RING_NEXT r)), false⟩)])) ∧
    (∀ (d : BitVec 24) (back prod : Nat), prod = s.get (Reg.RING_NEXT r) → back = (prod + 2 ^ 32 - d.toNat) % 2 ^ 24 →
      s.ringOwner r = some 0 → s.ringOn r = true → 3 ≤ s.ringType r →
      (back ≤ (prod + 2 ^ 32 - s.get (Reg.RING_DONE r)) % 2 ^ 32 → (s.ringType r = 4 ∨ arm = false ∨ back = 0) →
        completes (.doorbellConsume .pf0 r arm d) s fun t => t.get (Reg.RING_DONE r) = (prod + 2 ^ 32 - back) % 2 ^ 32 ∧
          t.flag (Reg.RING_ARMED r) = (arm || s.flag (Reg.RING_ARMED r)) ∧
          QuietFrame (words [Reg.RING_DONE r, Reg.RING_ARMED r]) s s t) ∧
      (back ≤ (prod + 2 ^ 32 - s.get (Reg.RING_DONE r)) % 2 ^ 32 → s.ringType r = 3 → back ≠ 0 →
        completes (.doorbellConsume .pf0 r true d) s fun t => t.get (Reg.RING_DONE r) = (prod + 2 ^ 32 - back) % 2 ^ 32 ∧
          t.flag (Reg.RING_ARMED r) = false ∧ postedAs s t ⟨12, 3, 0, .ring r, payload [(17, r), (32, prod)]⟩ ∧
          NoisyFrame (words [Reg.RING_DONE r, Reg.RING_ARMED r]) s s t) ∧
      ((prod + 2 ^ 32 - s.get (Reg.RING_DONE r)) % 2 ^ 32 < back → completes (.doorbellConsume .pf0 r arm d) s fun t =>
        t.get Reg.QE_DB_DISCARDED = (s.get Reg.QE_DB_DISCARDED + 1) % 2 ^ 64 ∧
        NoisyFrame (words [Reg.QE_DB_DISCARDED]) s { s with free := s.free + 1 } t))) ∧
  (∀ (r credit burst : Nat) (w : List Walk8), s.turnRing = some (r, credit, burst) → min burst credit = 1 → s.direct = true →
    s.tagReady = true → s.slotReady r (s.get (Reg.RING_NEXT r)) = true → completes (.wrrTurn w) s fun t => t.qe.ptr = r + 1 ∧
      t.ring r = { s.ring r with waiting := false, fetching := true, turn := 1, ahead := 1 } ∧
      t.out = .dmaRead 0 (s.slotAddr r (s.get (Reg.RING_NEXT r))) (entryBytes (s.ringType r)) s.newTag false :: s.out) ∧
  (∀ w : List Walk8, s.turnRing = none → s.newRound.turnRing = none → completes (.wrrTurn w) s fun t => t = s.newRound) ∧
  (∀ (r : Fin 131072) (e e' : Bytes) (tick q : Nat) (w : List Walk8), q = s.get (Reg.RING_NEXT r) → s.ringOn r = true →
    s.mayDma (s.ringFunc r) = true → s.ringType r = 0 → s.ringMedia r = false → (s.ring r).fetching = true →
    e' = sliceB (e ++ zeros 64) 0 16 →
    (ownOf e' = s.phaseOf r q → badEntry 0 e' = false → (s.ring r).turn = 1 →
      completes (.descriptorFetch r [(some e, tick)] w) s fun t =>
        (t.ring r).taken = (s.ring r).taken ++ [⟨q, e', false⟩] ∧ (t.ring r).fetching = false ∧ (t.ring r).waiting = true ∧
        t.get (Reg.RING_NEXT r) = (q + 1) % 2 ^ 32 ∧
        QuietFrame (words [Reg.RING_NEXT r, Reg.RING_PHASE r]) s
          { s with qe := { s.qe with rings := t.qe.rings, credits := t.qe.credits }, ttu := { s.ttu with walks := [] } } t) ∧
    (ownOf e' ≠ s.phaseOf r q → s.flag (Reg.RING_REREAD r) = false → completes (.descriptorFetch r [(some e, tick)] w) s fun t =>
      t.ring r = { s.ring r with fetching := false, turn := 0, ahead := 0, waiting := false } ∧
      t = { s with qe := { s.qe with rings := t.qe.rings }, ttu := { s.ttu with walks := [] } }))

/-- The work of PF0's rings completes (R376 to R379, R384, R385, R387): a frame or packet to send is read and goes on its way, a
frame received is written to its buffer and then its record, HEAD is written, and a completed command's entry is overwritten, each
with its last word after the rest. A frame's own bytes go in one request where they fit (R331, R336), and they alone may carry
Relaxed Ordering (R333). -/
def Obligations.RingWorkCompletes : Prop := ∀ s : State, s.canon = true → s.running .qe = true → s.direct = true → ∀ (r : Fin 131072)
  (w : List Walk8), s.ringOwner r = some 0 →
  (∀ (k : Taken) (l : Bytes), (s.ring r).taken.find? (fun t => !t.done &&
    !s.qe.mediaWait.any (fun m => m.1 == r.val && m.2.1 == t.seq && !m.2.2.2))
      = some k → s.ringType r = 0 → (s.ring r).abandoned = false → onePage (leAt k.entry 0 8) (lenOf k.entry) = true →
      0 < lenOf k.entry → lenOf k.entry ≤ s.maxRead → s.tagReady = true → s.pcu.queue = [] → s.pairRole = false →
    (s.ringMedia r = false → completes (.txFrameRead r (some l) w) s fun t =>
      t.out = .dmaRead 0 (leAt k.entry 0 8) (lenOf k.entry) s.newTag (s.flag cfgRelaxed) :: s.out ∧
      (t.ring r).taken = (s.ring r).taken.map (fun x => if x.seq = k.seq then { x with done := true } else x) ∧
      t.pcu.queue.map (·.frame) = [sliceB (l ++ zeros 9216) 0 (lenOf k.entry)]) ∧
    (s.ringMedia r = true → completes (.txFrameRead r (some l) w) s fun t =>
      t.out = .dmaRead 0 (leAt k.entry 0 8) (lenOf k.entry) s.newTag (s.flag cfgRelaxed) :: s.out ∧
      t.qe.mediaWait = s.qe.mediaWait ++ [(r.val, k.seq, sliceB (l ++ zeros 9216) 0 (lenOf k.entry), false)] ∧
      t.qe.rings = s.qe.rings ∧ t.pcu = s.pcu)) ∧
  (∀ (m : Nat × Nat × Bytes × Bool) (f o : Nat),
    s.qe.mediaWait.find? (fun m => m.1 == r.val && (s.moment o).deliverable m) = some m → f = beAt m.2.2.1 2 2 →
    s.get (Reg.FLOW_SRC_KIND f) = 1 → s.get (Reg.FLOW_SRC f) = r.val →
    s.pcu.queue = [] → completes (.mediaTxDeliver r o) s fun t => t.qe.mediaWait = s.qe.mediaWait.erase m ∧
      (t.ring r).taken = (s.ring r).taken.map (fun x => if x.seq = m.2.1 ∧ m.2.2.2 = false then { x with done := true } else x) ∧
      t.pcu.queue.map (·.frame) = [m.2.2.1]) ∧
  (∀ (x : RxItem) (k : Taken) (c tc : Nat), s.qe.rxWait.find? (·.ring == r.val) = some x → x.media = false → x.tc = some tc →
    x.src < 64 → x.handle = none → s.ringOn r = true → s.ringType r = 1 → s.ringMedia r = false →
    (s.ring r).taken.find? (fun t => !t.done) = some k → c = s.get (Reg.RING_LINK r) → s.ringOn c = true → s.sameOwner r c 3 = true →
    s.ringFull c = false → s.slotReady c (s.get (Reg.RING_NEXT c)) = true → s.flag (Reg.RING_ARMED c) = false →
    x.bytes ≠ [] → x.bytes.length ≤ lenOf k.entry → x.bytes.length ≤ s.maxPayload → onePage (leAt k.entry 0 8) x.bytes.length = true →
    completes (.hostRxWrite r w) s fun t => t.qe.rxWait = s.qe.rxWait.erase x ∧
      t.out = .dma 0 (s.slotAddr c (s.get (Reg.RING_NEXT c)) + 8) (toLE 8 (setBits (x.bytes.length + tc % 8 * 2 ^ 16 +
          x.src * 2 ^ 50 + bit x.authBad * 2 ^ 62) 63 1 (s.phaseOf c (s.get (Reg.RING_NEXT c))))) false
        :: .dma 0 (s.slotAddr c (s.get (Reg.RING_NEXT c))) (toLE 8 (k.seq * 2 ^ 32 + r)) false
        :: .dma 0 (leAt k.entry 0 8) x.bytes (s.flag cfgRelaxed) :: s.out ∧
      (t.ring r).taken = (s.ring r).taken.map (fun y => if y.seq = k.seq then { y with done := true } else y) ∧
      t.get (Reg.RING_NEXT c) = (s.get (Reg.RING_NEXT c) + 1) % 2 ^ 32 ∧
      QuietFrame (words [Reg.RING_NEXT c, Reg.RING_PHASE c]) s
        { s with qe := t.qe, out := t.out, ttu := { s.ttu with walks := [] }, hiu := { s.hiu with fc := t.hiu.fc } } t) ∧
  (∀ n head : Nat, s.ringType r ≤ 1 → (s.ring r).abandoned = false → n = doneCount (s.ring r).taken → n ≠ 0 →
    head = (s.get (Reg.RING_DONE r) + n) % 2 ^ 32 → 8 * s.get (Reg.RING_HEAD_ADDR r) < 2 ^ 48 → s.flag (Reg.RING_ARMED r) = false →
    completes (.headPublish r w) s fun t => t.get (Reg.RING_DONE r) = head ∧
      t.out = .dma 0 (8 * s.get (Reg.RING_HEAD_ADDR r)) (toLE 8 head) false :: s.out ∧ (t.ring r).taken = (s.ring r).taken.drop n ∧
      QuietFrame (words [Reg.RING_DONE r]) s { s with
        qe := { s.qe with rings := t.qe.rings }, out := t.out, ttu := { s.ttu with walks := [] }, hiu := { s.hiu with fc := t.hiu.fc } } t) ∧
  (∀ (k : Taken) (a : Nat), s.ringType r = 2 → (s.ring r).abandoned = false → (s.ring r).taken.find? (·.done) = some k →
    k.entry.length = 64 → a = s.slotAddr r k.seq → onePage a 64 = true → s.flag (Reg.RING_ARMED r) = false →
    completes (.submitComplete r w) s fun t => (t.ring r).taken = (s.ring r).taken.erase k ∧
      t.get (Reg.RING_DONE r) = (s.get (Reg.RING_DONE r) + 1) % 2 ^ 32 ∧
      t.out = .dma 0 (a + 56) (k.entry.drop 56) false :: .dma 0 a (k.entry.take 56) false :: s.out ∧
      QuietFrame (words [Reg.RING_DONE r]) s { s with
        qe := { s.qe with rings := t.qe.rings }, out := t.out, ttu := { s.ttu with walks := [] }, hiu := { s.hiu with fc := t.hiu.fc } } t)

/-- The ring context's commands complete (R388 to R390): a still ring takes a write, a running one keeps what a write may not
change, a sound context is enabled with its indices at 0 and PHASE 1, and one that breaks a rule raises an error of kind 5; a
disabled ring stops, and is idle once its work is over and no frame waits for it. Where the spec leaves it open it rests on the
model's choice of log entry 62. -/
def Obligations.RingCommandsComplete : Prop := ∀ s : State, s.canon = true → ∀ (q : Requester) (r : Fin 131072),
  (s.reachesRing q r = true →
    (∀ v : Word, s.ringOn r = false → s.flag (Reg.RING_IDLE r) = true → ∀ i : Fin 16, i.val = 3 ∨ i.val = 5 →
      completes (.ringContextWrite q r i v) s fun t => t.rd (0x0C400000 + 64 * r.val + 4 * i.val) = v.toNat ∧
        QuietFrame (fun k => k == 0x0C400000 + 64 * r.val + 4 * i.val) s s t) ∧
    (∀ v : Word, (s.ringOn r = true ∨ s.flag (Reg.RING_IDLE r) = false) → ∀ i : Fin 16, i.val ∈ [2, 3, 4, 5] →
      completes (.ringContextWrite q r i v) s fun t => t = s) ∧
    (s.ringOn r = false → s.flag (Reg.RING_IDLE r) = true →
      (s.badContext r = false → completes (.ringEnable q r) s fun t => t.ringOn r = true ∧ t.flag (Reg.RING_IDLE r) = false ∧
        t.get (Reg.RING_NEXT r) = 0 ∧ t.get (Reg.RING_DONE r) = 0 ∧ t.flag (Reg.RING_PHASE r) = true ∧
        t.flag (Reg.RING_ARMED r) = false ∧ t.flag (Reg.RING_ERR_STOP r) = false ∧ (t.ring r).taken = [] ∧
        QuietFrame (words [Reg.RING_ENABLE r, Reg.RING_PHASE r, Reg.RING_NEXT r, Reg.RING_DONE r]) s
          { s with qe := { s.qe with rings := t.qe.rings } } t) ∧
      (s.badContext r = true → completes (.ringEnable q r) s fun t => t.ringOn r = false ∧
        NoisyFrame (fun _ => false) s { s with free := s.free + 1 } t ∧
        (0xC00000000 + 16 * r.val + 5 ∉ s.once → s.ringOwner r ≠ none →
          postedAs s t ⟨12, 4, (s.ringOwner r).getD 0, .ring r, payload [(17, r), (8, 5), (32, Config.freeValue s.free)]⟩))) ∧
    (s.ringOn r = true → completes (.ringDisable q r) s fun t => t.ringOn r = false ∧ (t.ring r).fetching = false ∧
      (t.ring r).waiting = false ∧ (t.ring r).taken = (s.ring r).taken ∧
      QuietFrame (words [Reg.RING_ENABLE r, Reg.RING_REREAD r]) s { s with qe := { s.qe with rings := t.qe.rings } } t)) ∧
  (s.ringOn r = false → s.flag (Reg.RING_IDLE r) = false → s.qe.rxWait.any (·.ring == r.val) = false → ∀ w : List Walk8,
    ((s.ring r).abandoned = false → 3 ≤ s.ringType r → completes (.ringIdle r w) s fun t => t.flag (Reg.RING_IDLE r) = true ∧
      (t.ring r).taken = [] ∧ QuietFrame (words [Reg.RING_IDLE r]) s { s with qe := { s.qe with rings := t.qe.rings } } t) ∧
    ((s.ring r).abandoned = true → s.outstanding (s.ringFunc r) = false → completes (.ringIdle r w) s fun t =>
      t.flag (Reg.RING_IDLE r) = true ∧ (t.ring r).abandoned = false ∧
      QuietFrame (words [Reg.RING_IDLE r]) s { s with qe := { s.qe with rings := t.qe.rings } } t))

/-- The event arbiter's commands complete (R392 to R397): an event is numbered and written to its queue, or counted where it has
none; losses are reported in one record; an armed queue with records signals once. -/
def Obligations.EventCommandsComplete : Prop := ∀ s : State, s.canon = true → s.running .qe = true →
  (∀ (e : Event) (w : List Walk8), s.nextEvent = some e → e.dest = .pf →
    (s.queueFor e = none → completes (.eventGrant w) s fun t => t.events = s.events.erase e ∧
      t.get Reg.QE_ARB_ASEQ = (s.get Reg.QE_ARB_ASEQ + 1) % 2 ^ 32 ∧
      t.get Reg.QE_EVT_NOQUEUE = (s.get Reg.QE_EVT_NOQUEUE + 1) % 2 ^ 64 ∧
      QuietFrame (words [Reg.QE_ARB_ASEQ, Reg.QE_EVT_NOQUEUE]) s
        { s with events := s.events.erase e, qe := { s.qe with evPtr := (e.unit + 1) % 14 } } t) ∧
    (∀ (q a p : Nat), s.queueFor e = some q → s.queueReady q = true → s.get (Reg.RING_LOST q) = 0 → s.direct = true →
      a = s.slotAddr q (s.get (Reg.RING_NEXT q)) → p = s.phaseOf q (s.get (Reg.RING_NEXT q)) → onePage a 32 = true →
      completes (.eventGrant w) s fun t => t.events = s.events.erase e ∧
        t.get Reg.QE_ARB_ASEQ = (s.get Reg.QE_ARB_ASEQ + 1) % 2 ^ 32 ∧
        t.get (Reg.RING_NEXT q) = (s.get (Reg.RING_NEXT q) + 1) % 2 ^ 32 ∧
        t.out = .dma 0 (a + 24) (toLE 8 (setBits (e.payload / 2 ^ 64 % 2 ^ 56) 63 1 p)) false ::
          .dma 0 a (toLE 8 (s.get Reg.QE_ARB_ASEQ * 2 ^ 32 + e.func % 4096 * 2 ^ 16 + e.unit * 2 ^ 8 + e.type) ++ toLE 8 s.tick ++
            toLE 8 (e.payload % 2 ^ 64)) false :: s.out ∧
        QuietFrame (words [Reg.QE_ARB_ASEQ, Reg.RING_NEXT q, Reg.RING_PHASE q]) s
          { s with events := s.events.erase e, qe := { s.qe with evPtr := (e.unit + 1) % 14 }, out := t.out,
                   ttu := { s.ttu with walks := [] }, hiu := { s.hiu with fc := t.hiu.fc } } t)) ∧
  (∀ (q : Fin 131072) (w : List Walk8), s.ringType q = 4 → s.queueReady q = true → s.ringOwner q = some 0 → s.direct = true →
    s.get (Reg.RING_LOST q) ≠ 0 → completes (.eventOverflow q w) s fun t => t.get (Reg.RING_LOST q) = 0 ∧
      t.get (Reg.RING_FIRST_LOST q) = 0 ∧ t.get (Reg.RING_NEXT q) = (s.get (Reg.RING_NEXT q) + 1) % 2 ^ 32) ∧
  (∀ (q : Fin 131072) (o : Nat), s.ringOn q = true → s.ringType q = 4 →
    (s.flag (Reg.RING_ARMED q) = true → s.get (Reg.RING_NEXT q) ≠ s.get (Reg.RING_DONE q) → (s.ring q).signalled = none →
      s.ringOwner q = some 0 → s.asleep 0 = false → s.attached = true →
      (s.mechanism 0 = .intx → s.flag Reg.HIU_INTX_STATUS_PENDING = false → completes (.eventSignal q () o) s fun t =>
        t.flag (Reg.RING_ARMED q) = false ∧ t.out = .intx true :: s.out ∧ t.flag Reg.HIU_INTX_STATUS_PENDING = true ∧
        (t.ring q).request = true) ∧
      (s.mechanism 0 = .msix → s.flag (cfgMsixMask 0) = false → s.flag (vectorControl 0 (s.get (Reg.RING_VECTOR q))) = false →
      completes (.eventSignal q () o) s fun t => t.flag (Reg.RING_ARMED q) = false ∧
        t.out = .msix 0 (s.get (Reg.RING_VECTOR q)) :: s.out ∧ (t.ring q).signalled = some (s.moment o).localNs ∧
        QuietFrame (words [Reg.RING_ARMED q, Reg.TE_OFFSET]) s
          { s with qe := { s.qe with rings := t.qe.rings }, out := t.out, hiu := { s.hiu with fc := t.hiu.fc } } t)) ∧
    (s.flag (Reg.RING_ARMED q) = false → completes (.eventSignal q () o) s fun t => t = s.moment o))

/-- SIE's commands on SUBMIT entries and their completion (R400 to R402, R415): an entry that a check refuses completes with its
device error, one to a namespace goes to the drive, one to a connection joins its commands, and a completion fills the entry in.
Where data moves, it is stated of a transfer that one request of the host link carries (R331, R336). -/
def Obligations.StorageCommandsComplete : Prop := ∀ s : State, s.canon = true → s.running .sie = true →
  (∀ (r : Fin 131072) (k : Taken) (w : List Walk8), s.running .qe = true → s.ringType r = 2 → s.nextSubmit r = some k →
    (∀ (code : Nat) (c : Nat × Instr), c ∈ [(0, Instr.nvmeFlush r), (1, .nvmeWrite r none w), (2, .nvmeRead r)] →
      beAt k.entry 0 1 = c.1 ∨ 2 < beAt k.entry 0 1 → s.commandCheck k.entry (s.ringFunc r) = code → code ≠ 0 →
      (s.ring r).abandoned = false → completes c.2 s fun t =>
        (t.ring r).taken = (s.ring r).taken.map (fun x =>
          if x.seq = k.seq then { x with entry := resultEntry x.entry (deviceError code) 0 0, done := true } else x) ∧
        t.get Reg.SIE_CMD_DONE = (s.get Reg.SIE_CMD_DONE + 1) % 2 ^ 64 ∧ t.get Reg.SIE_CMD_ERR = (s.get Reg.SIE_CMD_ERR + 1) % 2 ^ 64 ∧
        QuietFrame (words [Reg.SIE_CMD_DONE, Reg.SIE_CMD_ERR, Reg.SUP_TRACK_STATUS_HELD]) s
          { s with qe := { s.qe with rings := t.qe.rings }, ttu := { s.ttu with walks := t.ttu.walks } } t) ∧
    (∀ h : Nat, h = leAt k.entry 2 2 → s.commandCheck k.entry (s.ringFunc r) = 0 → entryIsNs k.entry = true →
      (∀ c ∈ [(0, Instr.nvmeFlush r), (2, .nvmeRead r)], beAt k.entry 0 1 = c.1 → completes c.2 s fun t =>
        t.sie.commands = s.sie.commands ++ [⟨r, k.seq, true, h, s.newCid true h, c.1, leAt k.entry 8 8, leAt k.entry 4 4,
          leAt k.entry 16 8, s.commandLen k.entry, 0, false, s.ringFunc r, none⟩] ∧
        t = { s with sie := { s.sie with commands := t.sie.commands },
                     out := .nvme c.1 (s.get (Reg.NS_NSID h)) (leAt k.entry 8 8) (if c.1 = 0 then 0 else leAt k.entry 4 4) [] :: s.out }) ∧
      (∀ l : Bytes, beAt k.entry 0 1 = 1 → s.ringOwner r = some 0 → s.flag (Reg.NS_ENC h) = false → s.direct = true →
        s.tagReady = true → onePage (leAt k.entry 16 8) (s.commandLen k.entry) = true → s.commandLen k.entry ≤ s.maxRead →
        completes (.nvmeWrite r (some l) w) s fun t =>
          t.out = .nvme 1 (s.get (Reg.NS_NSID h)) (leAt k.entry 8 8) (leAt k.entry 4 4)
              (sliceB (l ++ zeros (s.commandLen k.entry)) 0 (s.commandLen k.entry)) ::
            .dmaRead 0 (leAt k.entry 16 8) (s.commandLen k.entry) s.newTag (s.flag cfgRelaxed) :: s.out)) ∧
    (∀ h : Nat, h = leAt k.entry 2 2 → s.commandCheck k.entry (s.ringFunc r) = 0 → entryIsNs k.entry = false → s.connBusy h = false →
      ∀ (d : Option Bytes), ∀ c ∈ [(0, Instr.nvmeFlush r), (1, .nvmeWrite r d w), (2, .nvmeRead r)], beAt k.entry 0 1 = c.1 →
        completes c.2 s fun t => t.sie.commands = s.sie.commands ++ [⟨r, k.seq, false, h, s.newCid false h, c.1, leAt k.entry 8 8,
          leAt k.entry 4 4, leAt k.entry 16 8, s.commandLen k.entry, 0, false, s.ringFunc r, none⟩] ∧ t.out = s.out)) ∧
  (∀ (cid : BitVec 16) (x : StorCmd) (dw0 : Word) (w : List Walk8), s.commandOf true 0 cid.toNat = some x → x.closed = false → x.xts = none →
    s.slotState ≠ 6 → (s.ring x.ring).abandoned = false →
    (s.ring x.ring).taken.any (fun k => k.seq == x.seq && !k.done) = true →
    (∀ (sct : Fin 8) (sc : BitVec 8) (data : Bytes), x.opc ≠ 2 → completes (.storageComplete cid sct sc dw0 data w) s fun t =>
      t.sie.commands = s.sie.commands.erase x ∧
      (t.ring x.ring).taken = (s.ring x.ring).taken.map (fun k => if k.seq = x.seq then
        { k with entry := resultEntry k.entry (nvmeStatus sct sc.toNat) dw0.toNat x.moved, done := true } else k) ∧
      QuietFrame (words [Reg.SIE_CMD_DONE, Reg.SIE_CMD_ERR, Reg.SUP_TRACK_STATUS_HELD]) s
        { s with qe := { s.qe with rings := t.qe.rings }, sie := { s.sie with commands := t.sie.commands } } t) ∧
    (∀ data : Bytes, x.opc = 2 → s.flag (Reg.NS_ENC x.handle) = false → x.func = 0 → s.direct = true →
      0 < x.len → onePage (x.buf + x.moved) x.len = true → x.len ≤ s.maxPayload → completes (.storageComplete cid 0 0 dw0 data w) s fun t =>
        t.out = .dma 0 (x.buf + x.moved) (sliceB (data ++ zeros x.len) 0 x.len) false :: s.out ∧
        (t.ring x.ring).taken = (s.ring x.ring).taken.map (fun k => if k.seq = x.seq then
          { k with entry := resultEntry k.entry 0 dw0.toNat (x.moved + x.len), done := true } else k)) ∧
    (∀ handle : Fin 8192, completes (.storageCmdTimeout true handle cid) s fun t =>
      t.sie.commands = s.sie.commands.map (fun c => if c = x then { c with closed := true } else c) ∧
      (t.ring x.ring).taken = (s.ring x.ring).taken.map (fun k => if k.seq = x.seq then
        { k with entry := resultEntry k.entry (deviceError 9) 0 x.moved, done := true } else k))) ∧
  (∀ (c : Fin 8192) (cid : BitVec 16) (x : StorCmd), s.commandOf false c cid.toNat = some x → s.pcu.queue = [] →
    completes (.storageCmdTimeout false c cid) s fun t => t.get (Reg.CONN_STATE c) = 5 ∧ t.get (Reg.CONN_DOWN_CAUSE c) = 8 ∧
      t.conn? c = none ∧ ∀ m ∈ t.sie.commands, m.ns = true ∨ m.handle ≠ c.val)

/-- The commands of a connection's life complete (R406, R407, R414): OPEN starts a handshake or names what is wrong, CLOSE waits
for the commands in flight (before the handshake it ends the connection at once: log entry 68, the model's reading), ABORT and a
reset end it with their cause, and contexts and namespaces are written while they may be. Where the spec leaves it open it rests on
the model's choice of log entry 68. -/
def Obligations.ConnectionCommandsComplete : Prop := ∀ s : State, s.canon = true → ∀ (q : Requester) (c : Fin 8192),
  (s.mayWrite q Reg.SIE_CONN_CMD_OP.key = true → s.running .sie = true → s.pcu.queue = [] →
    (s.get (Reg.CONN_STATE c) = 0 ∨ s.get (Reg.CONN_STATE c) = 5 →
      (s.badConn c = false → completes (.openConn q c) s fun t => t.get (Reg.CONN_STATE c) = 1 ∧
        t.get Reg.SIE_CONN_STATUS_RESULT = 0 ∧ ∃ x, t.conn? c = some x ∧ x.syn = true ∧ x.nxt = (x.una + 1) % 2 ^ 32 ∧
          x.mss = s.get (Reg.CONN_MSS c)) ∧
      (s.badConn c = true → completes (.openConn q c) s fun t => t.get Reg.SIE_CONN_STATUS_RESULT = 2 ∧
        QuietFrame (words [Reg.SIE_CONN_STATUS_RESULT]) s s t)) ∧
    (1 ≤ s.get (Reg.CONN_STATE c) → s.get (Reg.CONN_STATE c) ≤ 4 → completes (.openConn q c) s fun t =>
      t.get Reg.SIE_CONN_STATUS_RESULT = 1 ∧ QuietFrame (words [Reg.SIE_CONN_STATUS_RESULT]) s s t) ∧
    (s.get (Reg.CONN_STATE c) = 1 → completes (.closeConn q c) s fun t => t.get (Reg.CONN_STATE c) = 0 ∧
      t.get (Reg.CONN_DOWN_CAUSE c) = 0 ∧ t.get Reg.SIE_CONN_STATUS_RESULT = 0 ∧ t.conn? c = none) ∧
    (2 ≤ s.get (Reg.CONN_STATE c) → s.get (Reg.CONN_STATE c) ≤ 3 →
      (s.sie.commands.any (fun m => !m.ns && m.handle == c.val) = true → completes (.closeConn q c) s fun t =>
        t.get (Reg.CONN_STATE c) = 4 ∧ t.get Reg.SIE_CONN_STATUS_RESULT = 0 ∧
        QuietFrame (words [Reg.CONN_STATE c, Reg.SIE_CONN_STATUS_RESULT]) s s t) ∧
      (∀ x : ConnRt, s.sie.commands.any (fun m => !m.ns && m.handle == c.val) = false → s.conn? c = some x → x.syn = false →
        x.fin = false → x.finSent = false → x.buf = [] → x.flight = 0 → completes (.closeConn q c) s fun t => t.get (Reg.CONN_STATE c) = 4 ∧
          t.conn? c = some { x with fin := true, finSent := true, nxt := (x.nxt + 1) % 2 ^ 32 })) ∧
    (1 ≤ s.get (Reg.CONN_STATE c) → s.get (Reg.CONN_STATE c) ≤ 4 → completes (.abortConn q c) s fun t =>
      t.get (Reg.CONN_STATE c) = 5 ∧ t.get (Reg.CONN_DOWN_CAUSE c) = 6 ∧ t.get Reg.SIE_CONN_STATUS_RESULT = 0 ∧ t.conn? c = none ∧
      (∀ m ∈ t.sie.commands, m.ns = true ∨ m.handle ≠ c.val) ∧
      postedAs s t ⟨13, 2, s.get (Reg.CONN_FUNC c), .pf, payload [(16, c), (8, 6)]⟩)) ∧
  (s.connectWaits c = true →
    (completes (.connUp c 0) s fun t => t.get (Reg.CONN_STATE c) = 3 ∧
      postedAs s t ⟨13, 1, s.get (Reg.CONN_FUNC c), .pf, payload [(16, c)]⟩ ∧ NoisyFrame (words [Reg.CONN_STATE c]) s s t) ∧
    (∀ v : BitVec 16, v ≠ 0 → completes (.connUp c v) s fun t => t.get (Reg.CONN_STATE c) = 5 ∧
      t.get (Reg.CONN_DOWN_CAUSE c) = 5 ∧ t.conn? c = none)) ∧
  (∀ (x : ConnRt) (seq ack : Word), s.conn? c = some x → s.running .sie = true → x.syn = false →
    ((seq.toNat + 2 ^ 32 - x.rcv) % 2 ^ 32 < 2 ^ (s.get (Reg.CONN_RCV_WND_LOG2 c) + 16) → completes (.peerRst c seq ack) s fun t =>
      t.get (Reg.CONN_STATE c) = 5 ∧ t.get (Reg.CONN_DOWN_CAUSE c) = 2 ∧ t.conn? c = none) ∧
    (2 ^ (s.get (Reg.CONN_RCV_WND_LOG2 c) + 16) ≤ (seq.toNat + 2 ^ 32 - x.rcv) % 2 ^ 32 → completes (.peerRst c seq ack) s fun t =>
      t = s)) ∧
  (isManager q = true → s.served q = true → s.shows 0x0D100000 = true → ∀ v : Word,
    (∀ w : Fin 16, 2 ≤ w.val → w.val ≤ 9 →
      (s.get (Reg.CONN_STATE c) = 0 → completes (.connContextWrite q c w v) s fun t =>
        t.rd (0x0D100000 + 64 * c.val + 4 * w.val) = v.toNat ∧ QuietFrame (fun k => k == 0x0D100000 + 64 * c.val + 4 * w.val) s s t) ∧
      (s.get (Reg.CONN_STATE c) ≠ 0 → completes (.connContextWrite q c w v) s fun t => t = s)) ∧
    (∀ n : Fin 64, (s.flag (Reg.NS_VALID n) = false ∨ s.slotState ≠ 5) → completes (.namespaceWrite q n 1 v) s fun t =>
      t.get (Reg.NS_NSID n) = v.toNat ∧ QuietFrame (words [Reg.NS_NSID n]) s s t) ∧
    (∀ (n : Fin 64) (w : Fin 8), s.flag (Reg.NS_VALID n) = true → s.slotState = 5 → completes (.namespaceWrite q n w v) s fun t =>
      t = s))

/-- What arrives on a connection completes (R403 to R405): the handshake, data in order, the PDUs of a command, and what ends the
connection.
Where the spec leaves it open it rests on the model's choice of log entry 67. -/
def Obligations.TransportCommandsComplete : Prop := ∀ s : State, s.canon = true → s.running .sie = true → ∀ (c : Fin 8192),
  (∀ (x : ConnRt) (m : TcpSegment) (ts : Nat), s.conn? c = some x → m.ts = some ts →
    (s.get (Reg.CONN_STATE c) = 1 → m.syn = true → m.ack = x.nxt → s.pcu.queue = [] → completes (.tcpSegment c m) s fun t =>
      t.get (Reg.CONN_STATE c) = 2 ∧ ∃ y, t.conn? c = some y ∧ y.una = x.nxt ∧ y.syn = false ∧ y.rcv = (m.seq + 1) % 2 ^ 32 ∧
        y.tsRecent = ts ∧ y.mss = min (s.get (Reg.CONN_MSS c)) m.mss - 12) ∧
    (s.get (Reg.CONN_STATE c) ≠ 1 → serialNewer 32 x.tsRecent ts = false → m.seq = x.rcv → m.payload ≠ [] → m.fin = false →
      (m.ack + 2 ^ 32 - x.una) % 2 ^ 32 = 0 → x.fin = false → completes (.tcpSegment c m) s fun t =>
        ∃ y, t.conn? c = some y ∧ y.rcv = (x.rcv + m.payload.length) % 2 ^ 32 ∧ y.tsRecent = ts ∧
          y.wnd = m.window * 2 ^ x.scale)) ∧
  (∀ x : ConnRt, s.conn? c = some x →
    (x.flight ≠ 0 → s.pcu.queue = [] →
      (x.timeouts < 11 → completes (.tcpRetransmitTimeout c) s fun t =>
        t.get Reg.SIE_TCP_RETX = (s.get Reg.SIE_TCP_RETX + 1) % 2 ^ 64 ∧
        t.conn? c = some { x with timeouts := x.timeouts + 1, ssthresh := max (x.flight / 2) (2 * x.mss), cwnd := x.mss, dups := 0,
                                  recover := none }) ∧
      (x.timeouts = 11 → completes (.tcpRetransmitTimeout c) s fun t => t.get (Reg.CONN_STATE c) = 5 ∧
        t.get (Reg.CONN_DOWN_CAUSE c) = 1 ∧ t.conn? c = none)) ∧
    (s.get (Reg.CONN_STATE c) = 2 → x.connecting = false →
      (∀ m : IcResp, m.good = true → (m.hdgst = true → s.flag (Reg.CONN_HDGST c) = true) →
        (m.ddgst = true → s.flag (Reg.CONN_DDGST c) = true) → completes (.icresp c m) s fun t =>
          ∃ y, t.conn? c = some y ∧ y.connecting = true ∧ y.hdgst = m.hdgst ∧ y.ddgst = m.ddgst ∧ y.cpda = m.cpda.val) ∧
      (∀ m : IcResp, m.good = false → completes (.icresp c m) s fun t => t.get (Reg.CONN_STATE c) = 5 ∧ t.get (Reg.CONN_DOWN_CAUSE c) = 4 ∧
        t.conn? c = none))) ∧
  (2 ≤ s.get (Reg.CONN_STATE c) → s.get (Reg.CONN_STATE c) ≤ 4 → completes (.c2hTermReq c) s fun t => t.get (Reg.CONN_STATE c) = 5 ∧
    t.get (Reg.CONN_DOWN_CAUSE c) = 4 ∧ t.conn? c = none) ∧
  (s.get (Reg.CONN_STATE c) = 3 → ∀ (cid : BitVec 16) (x : StorCmd), s.commandOf false c cid.toNat = some x → x.closed = false →
    (∀ (sct : Fin 8) (sc : BitVec 8) (dw0 : Word), (s.ring x.ring).abandoned = false →
      (s.ring x.ring).taken.any (fun k => k.seq == x.seq && !k.done) = true →
      completes (.capsuleResp c cid true sct sc dw0) s fun t => t.sie.commands = s.sie.commands.erase x ∧
        (t.ring x.ring).taken = (s.ring x.ring).taken.map (fun k => if k.seq = x.seq then
          { k with entry := resultEntry k.entry (nvmeStatus sct sc.toNat) dw0.toNat x.moved, done := true } else k) ∧
        QuietFrame (words [Reg.SIE_CMD_DONE, Reg.SIE_CMD_ERR, Reg.SUP_TRACK_STATUS_HELD]) s
          { s with qe := { s.qe with rings := t.qe.rings }, sie := { s.sie with commands := t.sie.commands } } t) ∧
    (∀ (off : Nat) (w : List Walk8) (success : Bool), x.func = 0 → s.direct = true →
      (∀ l : Bytes, x.opc = 2 → off + l.length ≤ x.len → l ≠ [] → onePage (x.buf + off) l.length = true → l.length ≤ s.maxPayload →
        completes (.c2hData c cid off l true true false success w) s fun t => t.out = .dma 0 (x.buf + off) l false :: s.out ∧
          t.sie.commands = s.sie.commands.map (fun y => if y = x then { y with moved := y.moved + l.length } else y) ∧
          t = { s with out := t.out, sie := { s.sie with commands := t.sie.commands }, ttu := { s.ttu with walks := [] },
                       hiu := { s.hiu with fc := t.hiu.fc } }) ∧
      (∀ (ttag : BitVec 16) (len : Nat) (l : Bytes), x.opc = 1 → off + len ≤ x.len → 0 < len → onePage (x.buf + off) len = true →
        len ≤ s.maxRead → s.tagReady = true → completes (.readyToTransfer c cid ttag off len ⟨true, some l⟩ w) s fun t =>
          t.out = .dmaRead 0 (x.buf + off) len s.newTag (s.flag cfgRelaxed) :: s.out ∧
          t.sie.commands = s.sie.commands.map (fun y => if y = x then { y with moved := y.moved + len } else y))))

/-- The record slot's commands complete (R409 to R414). A request of the drive is answered with Unsupported Request and counted.
Each other input, in the slot state named with it, takes the slot to the state named, with the status bits and the events that are
stated for it; where the drive goes, SIE holds no command of it any more. What those commands complete with is not stated here.
Where the spec leaves it open it rests on the model's choice of log entry 70. -/
def Obligations.SlotCommandsComplete : Prop := ∀ s : State, s.canon = true → s.running .sie = true →
  (completes .driveRequestUr s fun t => t.get Reg.SIE_SLOT_UR = (s.get Reg.SIE_SLOT_UR + 1) % 2 ^ 64 ∧
    QuietFrame (words [Reg.SIE_SLOT_UR]) s { s with out := .driveUr :: s.out } t) ∧
  (s.flag Reg.SIE_SLOT_STATUS_PRESENT = false → s.slotState = 0 → completes .presenceStable s fun t =>
    t.flag Reg.SIE_SLOT_STATUS_PRESENT = true ∧ t.flag Reg.SIE_SLOT_STATUS_PRESENCE_CHG = true ∧
    t.slotState = (if s.flag Reg.SIE_SLOT_CFG_POLICY then 1 else 2) ∧
    (s.flag Reg.SIE_SLOT_CFG_POLICY = true → t.flag Reg.SIE_SLOT_CTL_REMOVE = false) ∧ posted s t .sie 3 [(1, 1)] ∧
    NoisyFrame (words [Reg.SIE_SLOT_STATUS_STATE, Reg.SIE_SLOT_CTL_REMOVE]) s s t) ∧
  (s.flag Reg.SIE_SLOT_STATUS_PRESENT = false → s.slotState ≠ 0 → completes .presenceStable s fun t =>
    t.flag Reg.SIE_SLOT_STATUS_PRESENT = true ∧ t.flag Reg.SIE_SLOT_STATUS_PRESENCE_CHG = true ∧ t.slotState = s.slotState ∧
    posted s t .sie 3 [(1, 1)] ∧ NoisyFrame (words [Reg.SIE_SLOT_STATUS_STATE]) s s t) ∧
  (s.flag Reg.SIE_SLOT_STATUS_PRESENT = true → s.driveUp = false → completes .presenceLost s fun t =>
    t.flag Reg.SIE_SLOT_STATUS_PRESENT = false ∧ t.slotState = 0 ∧ posted s t .sie 3 [(1, 0)]) ∧
  (s.flag Reg.SIE_SLOT_STATUS_PRESENT = true → s.driveUp = true → completes .presenceLost s fun t =>
    t.flag Reg.SIE_SLOT_STATUS_PRESENT = false ∧ t.slotState = 0 ∧ (∀ m ∈ t.sie.commands, m.ns = false) ∧
    t.get Reg.SIE_SLOT_SURPRISE = (s.get Reg.SIE_SLOT_SURPRISE + 1) % 2 ^ 64 ∧
    (s.eventsOf 13 < 1023 → t.events = s.events ++ [⟨13, 3, 0, .pf, payload [(1, 0)]⟩, ⟨13, 6, 0, .pf, payload []⟩])) ∧
  (s.slotState = 5 → completes .attentionButton s fun t => t.flag Reg.SIE_SLOT_STATUS_BUTTON = true ∧
    t.sie = { s.sie with removal := !s.sie.removal } ∧ posted s t .sie 4 [] ∧
    NoisyFrame (words [Reg.SIE_SLOT_STATUS_BUTTON]) s { s with sie := t.sie } t) ∧
  (s.slotState = 5 → s.driveIdle = true →
    (s.sie.removal = true → completes .removalWindowEnd s fun t => t.slotState = 6 ∧
      QuietFrame (words [Reg.SIE_SLOT_STATUS_STATE]) s
        { s with sie := { s.sie with removal := false, shn := true }, out := .driveShutdown :: s.out } t) ∧
    (∀ q : Requester, s.mayWrite q Reg.SIE_SLOT_CTL_REMOVE.key = true → completes (.slotRemove q) s fun t => t.slotState = 6 ∧
      t.flag Reg.SIE_SLOT_CTL_REMOVE = true ∧ t.out = .driveShutdown :: s.out ∧ t.sie.shn = true)) ∧
  (s.slotState = 5 → s.driveIdle = false →
    (s.sie.removal = true → completes .removalWindowEnd s fun t => t.slotState = 6 ∧
      QuietFrame (words [Reg.SIE_SLOT_STATUS_STATE]) s { s with sie := { s.sie with removal := false, shn := false } } t) ∧
    (∀ q : Requester, s.mayWrite q Reg.SIE_SLOT_CTL_REMOVE.key = true → completes (.slotRemove q) s fun t => t.slotState = 6 ∧
      t.flag Reg.SIE_SLOT_CTL_REMOVE = true ∧ QuietFrame (words [Reg.SIE_SLOT_STATUS_STATE, Reg.SIE_SLOT_CTL_REMOVE]) s
        { s with sie := { s.sie with removal := false, shn := false } } t)) ∧
  (∀ q : Requester, s.mayWrite q Reg.SIE_SLOT_CTL_POWER_ON.key = true →
    (s.slotState = 1 ∨ (s.slotState = 7 ∧ s.flag Reg.SIE_SLOT_STATUS_PRESENT = true)) → completes (.powerOn q) s fun t =>
      t.slotState = 2 ∧ t.flag Reg.SIE_SLOT_CTL_POWER_ON = true ∧
      QuietFrame (words [Reg.SIE_SLOT_CTL_POWER_ON, Reg.SIE_SLOT_STATUS_STATE]) s s t) ∧
  (s.slotState = 2 →
    (completes .slotPerstRelease s fun t => t.slotState = 3 ∧ QuietFrame (words [Reg.SIE_SLOT_STATUS_STATE]) s s t) ∧
    (completes .powerFault s fun t => t.slotState = 7 ∧ t.flag Reg.SIE_SLOT_STATUS_PWR_FAULT = true ∧
      t.flag Reg.SIE_SLOT_CTL_POWER_ON = false ∧ posted s t .sie 7 [(8, 2)])) ∧
  (s.slotState = 3 → ∀ (speed : Fin 6) (width : Fin 9),
    (s.get Reg.SIE_SLOT_CFG_SPEED ≤ speed.val → s.get Reg.SIE_SLOT_CFG_WIDTH ≤ width.val → completes (.slotTrainingDone speed width) s
      fun t => t.slotState = 4 ∧ t.flag Reg.SIE_SLOT_STATUS_DLL_ACTIVE = true ∧ t.flag Reg.SIE_SLOT_STATUS_DLL_CHG = true ∧
        t.get Reg.SIE_SLOT_STATUS_SPEED = s.get Reg.SIE_SLOT_CFG_SPEED ∧ t.get Reg.SIE_SLOT_STATUS_WIDTH = s.get Reg.SIE_SLOT_CFG_WIDTH ∧
        QuietFrame (words [Reg.SIE_SLOT_STATUS_STATE]) s s t) ∧
    (speed.val < s.get Reg.SIE_SLOT_CFG_SPEED → completes (.slotTrainingDone speed width) s fun t => t.slotState = 7 ∧
      t.flag Reg.SIE_SLOT_CTL_POWER_ON = false ∧ posted s t .sie 7 [(8, 1)])) ∧
  (s.slotState = 4 →
    (∀ l : List DriveNs, completes (.identifyDone l) s fun t => t.slotState = 5 ∧ t.flag Reg.SIE_SLOT_CTL_POWER_ON = false ∧
      ∀ i : Fin 64, (s.flag (Reg.NS_VALID i) = false → t.get (Reg.NS_PRESENT i) = 0) ∧
        (s.flag (Reg.NS_VALID i) = true → l.find? (fun n => n.nsid == s.get (Reg.NS_NSID i)) = none → t.get (Reg.NS_PRESENT i) = 2) ∧
        (∀ n, s.flag (Reg.NS_VALID i) = true → l.find? (fun n => n.nsid == s.get (Reg.NS_NSID i)) = some n →
          n.shift = s.get (Reg.NS_LBA_SHIFT i) → n.metadata = false →
          t.get (Reg.NS_PRESENT i) = 1 ∧ t.get (Reg.NS_NSZE i) = n.nsze % 2 ^ 64)) ∧
    (completes .capToExpiry s fun t => t.slotState = 7 ∧ t.flag Reg.SIE_SLOT_CTL_POWER_ON = false ∧ posted s t .sie 7 [(8, 3)])) ∧
  (s.slotState = 6 →
    (s.sie.shn = false → completes .removalDrainTimeout s fun t => (∀ m ∈ t.sie.commands, m.ns = false) ∧ t.sie.shn = true ∧
      t.out = .driveShutdown :: s.out) ∧
    (s.sie.shn = true → completes .shutdownComplete s fun t => t.slotState = 1 ∧ t.flag Reg.SIE_SLOT_CTL_REMOVE = false ∧
      t.flag Reg.SIE_SLOT_STATUS_DLL_ACTIVE = false)) ∧
  (s.driveUp = true → ∀ c ∈ [(Instr.powerFault, 2), (.slotLinkDown, Config.freeValue s.free % 256)], completes c.1 s fun t =>
    t.slotState = 7 ∧ (∀ m ∈ t.sie.commands, m.ns = false) ∧ t.flag Reg.SIE_SLOT_CTL_POWER_ON = false ∧
    t.get Reg.SIE_SLOT_SURPRISE = (s.get Reg.SIE_SLOT_SURPRISE + 1) % 2 ^ 64 ∧
    (s.eventsOf 13 < 1023 → t.events = s.events ++ [⟨13, 6, 0, .pf, payload []⟩, ⟨13, 7, 0, .pf, payload [(8, c.2)]⟩]))

/-- The recorder's commands complete (R417, R419, R420): START and STOP take effect at a chunk boundary or name why not, a recording
runs from its tick and ends with its units returned, and a chunk that is due is staged or dropped and counted. -/
def Obligations.RecorderCommandsComplete : Prop := ∀ s : State, s.canon = true → ∀ (k : Fin 64),
  (∀ (q : Requester) (w : Fin 64) (v : Word), isManager q = true → s.served q = true → s.shows 0x0D190000 = true →
    (s.get (Reg.REC_STATE k) = 0 → 2 ≤ w.val → w.val ≤ 5 → completes (.recordingWrite q k w v) s fun t =>
      t.rd (0x0D190000 + 256 * k.val + 4 * w.val) = v.toNat ∧
      QuietFrame (fun j => j == 0x0D190000 + 256 * k.val + 4 * w.val) s s t) ∧
    (s.get (Reg.REC_STATE k) ≠ 0 → completes (.recordingWrite q k w v) s fun t => t = s)) ∧
  (∀ (q : Requester) (f u at_ : Nat), s.mayWrite q Reg.SIE_REC_CMD_OP.key = true → s.running .sie = true → f = s.get (Reg.REC_FUNC k) →
    u = s.recUnits k → at_ = chunkBoundary (s.chunkTicks k) (s.tick + 2) → s.get Reg.SIE_REC_TICK_TICK = 0 →
    (s.get (Reg.REC_STATE k) = 0 →
      (s.badRec k = true → completes (.recStart q k) s fun t => t.get Reg.SIE_REC_STATUS_RESULT = 1 ∧
        QuietFrame (words [Reg.SIE_REC_STATUS_RESULT]) s s t) ∧
      (s.badRec k = false → s.poolRoom f 7 u = false → completes (.recStart q k) s fun t => t.get Reg.SIE_REC_STATUS_RESULT = 2 ∧
        QuietFrame (words [Reg.SIE_REC_STATUS_RESULT]) s s t) ∧
      (s.badRec k = false → s.poolRoom f 7 u = true → completes (.recStart q k) s fun t => t.get Reg.SIE_REC_STATUS_RESULT = 0 ∧
        t.get (Reg.REC_STATE k) = 1 ∧ t.get (poolUsed f 7) = s.get (poolUsed f 7) + u ∧
        t.get Reg.SIE_REC_TICK_TICK = at_ % 2 ^ 48 ∧ t.recRt k = some ⟨k, at_, none, 0, s.chunkBlocks k, u, []⟩) ∧
      (completes (.recStop q k) s fun t => t.get Reg.SIE_REC_STATUS_RESULT = 4 ∧ QuietFrame (words [Reg.SIE_REC_STATUS_RESULT]) s s t)) ∧
    (∀ x : RecRt, s.get (Reg.REC_STATE k) ≠ 0 → s.recRt k = some x → completes (.recStop q k) s fun t =>
      t.get Reg.SIE_REC_STATUS_RESULT = 0 ∧ t.recRt k = some { x with stop := some (stopAt x.stop at_) } ∧
      QuietFrame (words [Reg.SIE_REC_STATUS_RESULT, Reg.SIE_REC_TICK_TICK]) s { s with sie := { s.sie with recs := t.sie.recs } } t)) ∧
  (∀ x : RecRt, s.recRt k = some x → s.running .sie = true →
    (s.get (Reg.REC_STATE k) = 1 → x.start ≤ s.tick → completes (.recStarted k) s fun t => t.get (Reg.REC_STATE k) = 2 ∧
      t.get (Reg.REC_SESSION k) = (s.get (Reg.REC_SESSION k) + 1) % 2 ^ 32 ∧
      posted s t .sie 9 [(8, k), (32, (s.get (Reg.REC_SESSION k) + 1) % 2 ^ 32), (48, x.start)] ∧
      NoisyFrame (words [Reg.REC_STATE k, Reg.REC_SESSION k]) s s t) ∧
    (∀ at_ : Nat, x.stop = some at_ → at_ ≤ s.tick → at_ < x.start + (x.seq + 1) * s.chunkTicks k → x.staged = [] →
      s.get (Reg.REC_STATE k) = 2 → completes (.stopEffective k) s fun t => t.get (Reg.REC_STATE k) = 0 ∧ t.recRt k = none ∧
        t.get (poolUsed (s.get (Reg.REC_FUNC k)) 7) = s.get (poolUsed (s.get (Reg.REC_FUNC k)) 7) - x.units ∧
        (1 ≤ x.seq → posted s t .sie 10 [(8, k), (64, x.seq - 1)])) ∧
    (∀ at_ : Nat, x.stop = some at_ → at_ ≤ s.tick → x.start + (x.seq + 1) * s.chunkTicks k ≤ at_ →
      s.get (Reg.REC_STATE k) = 2 → completes (.stopEffective k) s fun t => t.get (Reg.REC_STATE k) = 3 ∧
        QuietFrame (words [Reg.REC_STATE k]) s s t) ∧
    (s.get (Reg.REC_STATE k) = 2 → x.stop = none → x.start + (x.seq + 1) * s.chunkTicks k ≤ s.tick → s.get (Reg.REC_STAGE k) = 0 →
      s.flag (Reg.REC_WRAP k) = true → 0xD0B ∉ s.once → completes (.chunkDue k) s fun t =>
        t.get Reg.SIE_REC_DROPPED = (s.get Reg.SIE_REC_DROPPED + 1) % 2 ^ 64 ∧ t.recRt k = some { x with seq := x.seq + 1 } ∧
        posted s t .sie 11 []) ∧
    (s.get (Reg.REC_STATE k) = 2 → x.stop = none → x.start + (x.seq + 1) * s.chunkTicks k ≤ s.tick →
      x.staged.length < s.get (Reg.REC_STAGE k) → s.slotState = 5 → s.get (Reg.NS_PRESENT (s.get (Reg.REC_NS k))) = 1 →
      s.flag (Reg.NS_ENC (s.get (Reg.REC_NS k))) = false → s.flag (Reg.REC_WRAP k) = true → completes (.chunkDue k) s fun t =>
        t.recRt k = some { x with seq := x.seq + 1, staged := x.staged ++ [x.seq] } ∧ s.out <:+ t.out ∧
        t.get Reg.SIE_REC_DROPPED = s.get Reg.SIE_REC_DROPPED ∧ t.events = s.events) ∧
    (∀ (n : Nat) (l : List Nat), x.staged = n :: l → s.get (Reg.REC_STATE k) = 2 → s.slotState ≠ 6 → completes (.chunkWritten k true) s fun t =>
      t.get Reg.SIE_REC_CHUNKS = (s.get Reg.SIE_REC_CHUNKS + 1) % 2 ^ 64 ∧ t.recRt k = some { x with staged := l } ∧
      QuietFrame (words [Reg.SIE_REC_CHUNKS]) s { s with sie := { s.sie with recs := t.sie.recs } } t))

/-- A step runs the command at the front of the queue, with the queue's rest in the state; on an empty queue the block idles (the
model's choice, log entry 1). -/
def Obligations.StepRunsFront : Prop :=
  (∀ (c : Instr) (s : State) (rest : List Instr), step { s with pending := c :: rest } = exec c { s with pending := rest }) ∧
  (∀ s : State, s.pending = [] → step s = .next s)

/-- The machine right after reset: no command waits, every register and window word reads as its reset value, the device is in
standalone mode in its first session (R343) and no unit has left OFF (R30), the stores are canonical, no translation, command or
event is held. Where the spec leaves it open it rests on the model's choice of log entries 2, 3 and 4. -/
def Obligations.ResetLeavesResetValues : Prop :=
  State.reset.pending = [] ∧ State.reset.canon = true ∧ (∀ k, State.reset.rd k = (resetWord k).toNat) ∧
  State.reset.attached = false ∧ (∀ u : Fin 14, State.reset.get (Reg.UNIT_STATE u) = 0) ∧
  State.reset.get Reg.HIU_HOST_STATE_SESSION = 1 ∧ State.reset.tick = 0 ∧ State.reset.mediaRun = false ∧
  State.reset.slotState = 0 ∧ State.reset.ringsOn = [] ∧ State.reset.openConns = [] ∧ State.reset.events = [] ∧
  State.reset.ttu.tlb = [] ∧ State.reset.hiu.tags = [] ∧ State.reset.sie.commands = [] ∧
  (∀ c : Fin 8192, State.reset.get (Reg.CONN_STATE c) = 0) ∧ (∀ k : Fin 64, State.reset.get (Reg.REC_STATE k) = 0) ∧
  (∀ r : Fin 131072, State.reset.flag (Reg.RING_IDLE r) = true)

/-- No command ever stops the block, in any state: each has an effect, or none, and the queue goes on. -/
def Obligations.NoCommandStops : Prop := (∀ (c : Instr) (s : State), ∃ t, exec c s = .next t) ∧ ∀ (n : Nat) (s : State), safe n s

/-- Every command, in every state, leaves the queue alone, keeps the stores canonical, takes back nothing that has left the block,
takes free values in order, and changes no fused identity and no lower SECVER (R37, R45, R62). -/
def Obligations.EveryCommandKeeps : Prop := ∀ (c : Instr) (s t : State), exec c s = .next t → Keeps s t

/-- Every step keeps the canonical form of the stores, and takes exactly the front command from the queue. -/
def Obligations.EveryStepKeepsCanon : Prop := ∀ s t : State, step s = .next t →
  t.pending = s.pending.tail ∧ (s.canon = true → t.canon = true) ∧ s.out <:+ t.out ∧ s.free ≤ t.free ∧
    t.sup.otpMac = s.sup.otpMac ∧ s.sup.otpSecver ≤ t.sup.otpSecver

/-- In role PAIR a unit that is not ACTIVE refuses every local command that would decide a media output: it is counted, PF0 is told
once per tick, and nothing else changes (R318).
Where the spec leaves it open it rests on the model's choice of log entry 57. -/
def Obligations.LocalCommandsRefused : Prop := ∀ s : State, s.canon = true → s.pairRole = true → s.active = false →
  ∀ (r : Requester) (f : Fin 65536) (p : Fin 8192) (k : Fin 32768) (i : Fin 131072) (g : Fin 2048) (w : Fin 11) (v : Word)
    (key : Nat) (c : Instr),
  (key, c) ∈ [(Reg.TE_ADMIT_CMD_OP.key, Instr.addFlow r f), (Reg.TE_ADMIT_CMD_OP.key, .removeFlow r f),
    (Reg.TE_ADMIT_CMD_OP.key, .addPoint r p), (Reg.TE_ADMIT_CMD_OP.key, .removePoint r p), (Reg.PCU_TBL_CTL_COMMIT.key, .tblCommit r),
    (Reg.FTU_LPM_OP_CMD_OP.key, .lpmInsert r), (Reg.FTU_LPM_OP_CMD_OP.key, .lpmDelete r), (Reg.FTU_MAC_OP_CMD_OP.key, .insertStatic r),
    (Reg.FTU_MAC_OP_CMD_OP.key, .deleteStatic r), (Reg.RTU_PROG_CMD_OP.key, .progWrite r k), (0x07001100, .gateCommit r),
    (0x07004000 + 4 * g.val, .gateListWrite r g v)] ++
    (if s.running .cku then [(Reg.CKU_KEY_CMD_OP.key, Instr.keyLoad r f), (Reg.CKU_KEY_CMD_OP.key, .keyRewrite r f),
      (Reg.CKU_KEY_CMD_OP.key, .keyErase r f)] else []) ++
    (if r = .pf0 ∨ r = .sup then [(0x12000000 + 128 * f.val + 4 * w.val, Instr.flowEntryWrite r f (w.castLE (by omega)) v),
      (0x13000000 + 16 * i.val, .termWrite r i v), (0x13000000, .gainRequest r i v)] else []) →
  s.mayWrite r key = true → completes c s fun t =>
    t.get Reg.HGC_LOCAL_REFUSED = (s.get Reg.HGC_LOCAL_REFUSED + 1) % 2 ^ 64 ∧
    (0x90B ∉ s.once → posted s t .hgc 11 []) ∧ NoisyFrame (words [Reg.HGC_LOCAL_REFUSED]) s s t

/-- A DMA that any unit requests in standalone mode is refused at HIU and counted in HIU_DMA_BLOCKED, and nothing leaves the device
for it: the write of any bytes, the read of any length, and the write-back of a dirty-log word (R345). -/
def Obligations.StandaloneRefusesDma : Prop := ∀ s : State, s.attached = false →
  (∀ (f a : Nat) (l : Bytes), s.dmaWrite f a l = ((false, 0), s.bump Reg.HIU_DMA_BLOCKED)) ∧
  (∀ (f a : Nat) (l : Bytes), s.dmaPayload f a l = ((false, 0), s.bump Reg.HIU_DMA_BLOCKED)) ∧
  (∀ (u : ReadUse) (f a n : Nat), s.dmaRead u f a n = (false, s.bump Reg.HIU_DMA_BLOCKED)) ∧
  (∀ x, s.writeMark x = s.bump Reg.HIU_DMA_BLOCKED) ∧
  (s.bump Reg.HIU_DMA_BLOCKED).out = s.out ∧
  (s.canon = true → (s.bump Reg.HIU_DMA_BLOCKED).get Reg.HIU_DMA_BLOCKED = (s.get Reg.HIU_DMA_BLOCKED + 1) % 2 ^ 64 ∧
    (s.bump Reg.HIU_DMA_BLOCKED).attached = false)

/-- The OWN bit of an entry is bit 63 of its last 8-byte word; the phase of sequence q is 1 on even laps and 0 on odd laps, on
every ring type except SUBMIT, where it is always 1 (R375). -/
def Obligations.RingPhase : Prop :=
  (∀ (e : Bytes) (n : Nat), e.length = 8 * n + 8 → ownOf e = bits (leAt e (8 * n) 8) 63 1) ∧
  (∀ (s : State) (r q lap : Nat), lap = q / 2 ^ s.get (Reg.RING_LOG2_SIZE r) →
    (s.ringType r ≠ 2 → (lap % 2 = 0 → s.phaseOf r q = 1) ∧ (lap % 2 = 1 → s.phaseOf r q = 0)) ∧
    (s.ringType r = 2 → s.phaseOf r q = 1))

/-- The tick counter holds the floor of local PTP time over T, 48 bits wide (R70), and the offset the rest. -/
def Obligations.TickCounter : Prop := ∀ (s : State) (ns : Nat), s.canon = true →
  (s.setLocalNs ns).tick = ns / s.period % 2 ^ 48 ∧ (s.setLocalNs ns).offset = ns % s.period ∧ (s.setLocalNs ns).period = s.period ∧
  (ns / s.period < 2 ^ 48 → (s.setLocalNs ns).localNs = ns)

/-- Serial-number arithmetic on n-bit fields: newer, equal, and older with the value at half the range (R99). -/
def Obligations.SerialNumbers : Prop := ∀ n a b d : Nat, 0 < n → a < 2 ^ n → b < 2 ^ n → d = (a + 2 ^ n - b) % 2 ^ n →
  (serialNewer n a b = true ↔ 1 ≤ d ∧ d ≤ 2 ^ (n - 1) - 1) ∧
  (2 ^ (n - 1) + 1 ≤ d → serialNewer n b a = true ∧ serialNewer n a b = false) ∧
  (d = 0 ↔ a = b) ∧ (d = 2 ^ (n - 1) → serialNewer n a b = false)
end

