-- ==== Sys2Proof/Laws/Assoc.lean ====
section
/-! SUPPORT. What an association list reads after an entry is set or erased. -/

namespace Sys2Proof.Machine

theorem Assoc.get?_nil {α : Type} (k : Nat) : Assoc.get? ([] : List (Nat × α)) k = none := rfl

theorem Assoc.get?_cons {α : Type} (a : Nat) (x : α) (l : List (Nat × α)) (k : Nat) :
    Assoc.get? ((a, x) :: l) k = if a = k then some x else Assoc.get? l k := by
  unfold Assoc.get?
  by_cases h : a = k <;> simp [h]

theorem Assoc.get?_set_same {α : Type} (l : List (Nat × α)) (k : Nat) (v : α) : Assoc.get? (Assoc.set l k v) k = some v := by
  induction l with
  | nil => simp [Assoc.set, Assoc.get?_cons]
  | cons p l ih =>
    obtain ⟨a, x⟩ := p
    unfold Assoc.set
    split
    · simp [Assoc.get?_cons]
    · split
      · simp [Assoc.get?_cons]
      · rename_i h1 h2; rw [Assoc.get?_cons, if_neg (by omega), ih]

theorem Assoc.get?_set_ne {α : Type} (l : List (Nat × α)) {j k : Nat} (v : α) (h : j ≠ k) :
    Assoc.get? (Assoc.set l k v) j = Assoc.get? l j := by
  induction l with
  | nil => simp [Assoc.set, Assoc.get?_cons, Ne.symm h]
  | cons p l ih =>
    obtain ⟨a, x⟩ := p
    unfold Assoc.set
    split
    · simp [Assoc.get?_cons, Ne.symm h]
    · split
      · rename_i h2; subst h2; simp [Assoc.get?_cons, Ne.symm h]
      · rw [Assoc.get?_cons, Assoc.get?_cons, ih]

theorem Assoc.get?_erase_same {α : Type} (l : List (Nat × α)) (k : Nat) : Assoc.get? (Assoc.erase l k) k = none := by
  induction l with
  | nil => rfl
  | cons p l ih =>
    obtain ⟨a, x⟩ := p
    unfold Assoc.erase at ih ⊢
    by_cases h : a = k
    · simp [h, ih]
    · simp [h, Assoc.get?_cons, ih]

theorem Assoc.get?_erase_ne {α : Type} (l : List (Nat × α)) {j k : Nat} (h : j ≠ k) :
    Assoc.get? (Assoc.erase l k) j = Assoc.get? l j := by
  induction l with
  | nil => rfl
  | cons p l ih =>
    obtain ⟨a, x⟩ := p
    unfold Assoc.erase at ih ⊢
    by_cases e : a = k
    · simp [e, ih, Assoc.get?_cons, Ne.symm h]
    · simp [e, Assoc.get?_cons, ih]

end Sys2Proof.Machine
end

