-- ==== Sys2Proof/Laws/Sparse.lean ====
section
/-! SUPPORT. Laws of the sparse stores: what a write reads back, what it leaves alone, and that every operation keeps the
canonical form, under which equal stores are equal lists. -/

namespace Sys2Proof.Machine

variable {w : Nat} {d : Nat → BitVec w}

/-- The canonical form does not depend on a lower bound that is lower still. -/
theorem Sparse.wfFrom_mono {l : List (Nat × BitVec w)} {a b : Nat} (h : b ≤ a) (hl : Sparse.wfFrom d a l = true) :
    Sparse.wfFrom d b l = true := by
  cases l with
  | nil => rfl
  | cons p l => simp only [Sparse.wfFrom, Bool.and_eq_true, decide_eq_true_eq] at hl ⊢; exact ⟨⟨by omega, hl.1.2⟩, hl.2⟩

/-- Below its bound a canonical store reads as unlisted. -/
theorem Sparse.get_below {l : List (Nat × BitVec w)} {a k : Nat} (hl : Sparse.wfFrom d a l = true) (h : k < a) :
    Sparse.get d l k = d k := by
  cases l with
  | nil => rfl
  | cons p l =>
    simp only [Sparse.wfFrom, Bool.and_eq_true, decide_eq_true_eq] at hl
    simp only [Sparse.get]
    rw [if_neg (by omega), if_pos (by omega)]

theorem Sparse.get_cons_same {l : List (Nat × BitVec w)} {k : Nat} {v : BitVec w} (hl : Sparse.wfFrom d (k + 1) l = true) :
    Sparse.get d (Sparse.cons d k v l) k = v := by
  unfold Sparse.cons
  split
  · rename_i h; rw [Sparse.get_below hl (by omega), h]
  · simp [Sparse.get]

theorem Sparse.get_cons_ne {l : List (Nat × BitVec w)} {k j : Nat} {v : BitVec w} (hl : Sparse.wfFrom d (k + 1) l = true)
    (h : j ≠ k) : Sparse.get d (Sparse.cons d k v l) j = Sparse.get d l j := by
  unfold Sparse.cons
  split
  · rfl
  · simp only [Sparse.get, if_neg h]
    split
    · rw [Sparse.get_below hl (by omega)]
    · rfl

/-- What was written is read back. -/
theorem Sparse.get_set_same {l : List (Nat × BitVec w)} {a k : Nat} {v : BitVec w} (hl : Sparse.wfFrom d a l = true) :
    Sparse.get d (Sparse.set d l k v) k = v := by
  induction l generalizing a with
  | nil => exact Sparse.get_cons_same rfl
  | cons p l ih =>
    obtain ⟨b, x⟩ := p
    simp only [Sparse.wfFrom, Bool.and_eq_true, decide_eq_true_eq] at hl
    simp only [Sparse.set]
    split
    · exact Sparse.get_cons_same (by simp only [Sparse.wfFrom, Bool.and_eq_true, decide_eq_true_eq]; exact ⟨⟨by omega, hl.1.2⟩, hl.2⟩)
    · split
      · subst_vars; exact Sparse.get_cons_same hl.2
      · simp only [Sparse.get]; rw [if_neg (by assumption), if_neg (by assumption)]; exact ih hl.2

/-- Every other key reads as before. -/
theorem Sparse.get_set_ne {l : List (Nat × BitVec w)} {a k j : Nat} {v : BitVec w} (hl : Sparse.wfFrom d a l = true) (h : j ≠ k) :
    Sparse.get d (Sparse.set d l k v) j = Sparse.get d l j := by
  induction l generalizing a with
  | nil => exact Sparse.get_cons_ne rfl h
  | cons p l ih =>
    obtain ⟨b, x⟩ := p
    simp only [Sparse.wfFrom, Bool.and_eq_true, decide_eq_true_eq] at hl
    simp only [Sparse.set]
    split
    · exact Sparse.get_cons_ne (by simp only [Sparse.wfFrom, Bool.and_eq_true, decide_eq_true_eq]; exact ⟨⟨by omega, hl.1.2⟩, hl.2⟩) h
    · split
      · subst_vars
        rw [Sparse.get_cons_ne hl.2 h]
        simp only [Sparse.get]
        rw [if_neg h]
        split
        · rw [Sparse.get_below hl.2 (by omega)]
        · rfl
      · simp only [Sparse.get]; rw [ih hl.2]

theorem Sparse.wfFrom_cons {l : List (Nat × BitVec w)} {a k : Nat} {v : BitVec w} (hl : Sparse.wfFrom d (k + 1) l = true)
    (h : a ≤ k) : Sparse.wfFrom d a (Sparse.cons d k v l) = true := by
  unfold Sparse.cons
  split
  · exact Sparse.wfFrom_mono (by omega) hl
  · rename_i hv; simp only [Sparse.wfFrom, Bool.and_eq_true, decide_eq_true_eq]; exact ⟨⟨h, hv⟩, hl⟩

theorem Sparse.wfFrom_set {l : List (Nat × BitVec w)} {a k : Nat} {v : BitVec w} (hl : Sparse.wfFrom d a l = true) :
    Sparse.wfFrom d (min a k) (Sparse.set d l k v) = true := by
  induction l generalizing a with
  | nil => exact Sparse.wfFrom_cons rfl (by omega)
  | cons p l ih =>
    obtain ⟨b, x⟩ := p
    simp only [Sparse.wfFrom, Bool.and_eq_true, decide_eq_true_eq] at hl
    simp only [Sparse.set]
    split
    · exact Sparse.wfFrom_cons
        (by simp only [Sparse.wfFrom, Bool.and_eq_true, decide_eq_true_eq]; exact ⟨⟨by omega, hl.1.2⟩, hl.2⟩) (by omega)
    · split
      · subst_vars; exact Sparse.wfFrom_cons hl.2 (by omega)
      · simp only [Sparse.wfFrom, Bool.and_eq_true, decide_eq_true_eq]
        exact ⟨⟨by omega, hl.1.2⟩, Sparse.wfFrom_mono (by omega) (ih hl.2)⟩

/-- A write keeps the canonical form. -/
theorem Sparse.wf_set {l : List (Nat × BitVec w)} {k : Nat} {v : BitVec w} (hl : Sparse.wf d l = true) :
    Sparse.wf d (Sparse.set d l k v) = true := Sparse.wfFrom_mono (by omega) (Sparse.wfFrom_set hl)

/-- Taking entries away keeps the canonical form. -/
theorem Sparse.wfFrom_filter {l : List (Nat × BitVec w)} {a : Nat} (p : Nat × BitVec w → Bool) (hl : Sparse.wfFrom d a l = true) :
    Sparse.wfFrom d a (l.filter p) = true := by
  induction l generalizing a with
  | nil => rfl
  | cons x l ih =>
    simp only [Sparse.wfFrom, Bool.and_eq_true, decide_eq_true_eq] at hl
    simp only [List.filter]
    split
    · simp only [Sparse.wfFrom, Bool.and_eq_true, decide_eq_true_eq]; exact ⟨hl.1, ih hl.2⟩
    · exact Sparse.wfFrom_mono (by omega) (ih hl.2)

theorem Sparse.wf_filter {l : List (Nat × BitVec w)} (p : Nat × BitVec w → Bool) (hl : Sparse.wf d l = true) :
    Sparse.wf d (l.filter p) = true := Sparse.wfFrom_filter p hl

theorem Sparse.get_head {l : List (Nat × BitVec w)} {b k : Nat} {x : BitVec w} :
    Sparse.get d ((b, x) :: l) k = if k = b then x else if k < b then d k else Sparse.get d l k := rfl

/-- Equal stores are equal lists. -/
theorem Sparse.ext {l m : List (Nat × BitVec w)} {a : Nat} (hl : Sparse.wfFrom d a l = true) (hm : Sparse.wfFrom d a m = true)
    (h : ∀ k, Sparse.get d l k = Sparse.get d m k) : l = m := by
  induction l generalizing a m with
  | nil =>
    cases m with
    | nil => rfl
    | cons q m =>
      obtain ⟨c, y⟩ := q
      simp only [Sparse.wfFrom, Bool.and_eq_true, decide_eq_true_eq] at hm
      have hc := h c
      rw [Sparse.get_head, if_pos rfl] at hc
      exact absurd hc.symm hm.1.2
  | cons p l ih =>
    obtain ⟨b, x⟩ := p
    simp only [Sparse.wfFrom, Bool.and_eq_true, decide_eq_true_eq] at hl
    cases m with
    | nil =>
      have hb := h b
      rw [Sparse.get_head, if_pos rfl] at hb
      exact absurd hb hl.1.2
    | cons q m =>
      obtain ⟨c, y⟩ := q
      simp only [Sparse.wfFrom, Bool.and_eq_true, decide_eq_true_eq] at hm
      rcases Nat.lt_trichotomy b c with hbc | hbc | hbc
      · have hb := h b
        rw [Sparse.get_head, Sparse.get_head, if_pos rfl, if_neg (by omega), if_pos hbc] at hb
        exact absurd hb hl.1.2
      · subst hbc
        have hx := h b
        rw [Sparse.get_head, Sparse.get_head, if_pos rfl, if_pos rfl] at hx
        subst hx
        rw [ih hl.2 hm.2 (fun k => by
          have hk := h k
          rw [Sparse.get_head, Sparse.get_head] at hk
          by_cases h1 : k ≤ b
          · rw [Sparse.get_below hl.2 (by omega), Sparse.get_below hm.2 (by omega)]
          · rw [if_neg (by omega), if_neg (by omega), if_neg (by omega), if_neg (by omega)] at hk; exact hk)]
      · have hc := h c
        rw [Sparse.get_head, Sparse.get_head, if_pos rfl, if_neg (by omega), if_pos hbc] at hc
        exact absurd hc.symm hm.1.2

end Sys2Proof.Machine
end

