-- ==== Sys2Proof/Laws/State.lean ====
section
/-! SUPPORT. What each shared update of State leaves as it was, field by field, so that no later proof unfolds a record
update; all true by unfolding. -/

namespace Sys2Proof.Machine

/-! ## Words and fields -/

@[simp] theorem State.wr_pending (s : State) (k v : Nat) : (s.wr k v).pending = s.pending := rfl
@[simp] theorem State.wr_free (s : State) (k v : Nat) : (s.wr k v).free = s.free := rfl
@[simp] theorem State.wr_reply (s : State) (k v : Nat) : (s.wr k v).reply = s.reply := rfl
@[simp] theorem State.wr_out (s : State) (k v : Nat) : (s.wr k v).out = s.out := rfl
@[simp] theorem State.wr_events (s : State) (k v : Nat) : (s.wr k v).events = s.events := rfl
@[simp] theorem State.wr_once (s : State) (k v : Nat) : (s.wr k v).once = s.once := rfl
@[simp] theorem State.wr_holds (s : State) (k v : Nat) : (s.wr k v).holds = s.holds := rfl
@[simp] theorem State.wr_sup (s : State) (k v : Nat) : (s.wr k v).sup = s.sup := rfl
@[simp] theorem State.wr_te (s : State) (k v : Nat) : (s.wr k v).te = s.te := rfl
@[simp] theorem State.wr_hgc (s : State) (k v : Nat) : (s.wr k v).hgc = s.hgc := rfl
@[simp] theorem State.wr_media (s : State) (k v : Nat) : (s.wr k v).media = s.media := rfl
@[simp] theorem State.wr_pcu (s : State) (k v : Nat) : (s.wr k v).pcu = s.pcu := rfl
@[simp] theorem State.wr_ftu (s : State) (k v : Nat) : (s.wr k v).ftu = s.ftu := rfl
@[simp] theorem State.wr_fpu (s : State) (k v : Nat) : (s.wr k v).fpu = s.fpu := rfl
@[simp] theorem State.wr_egu (s : State) (k v : Nat) : (s.wr k v).egu = s.egu := rfl
@[simp] theorem State.wr_cku (s : State) (k v : Nat) : (s.wr k v).cku = s.cku := rfl
@[simp] theorem State.wr_pxc (s : State) (k v : Nat) : (s.wr k v).pxc = s.pxc := rfl
@[simp] theorem State.wr_rtu (s : State) (k v : Nat) : (s.wr k v).rtu = s.rtu := rfl
@[simp] theorem State.wr_hiu (s : State) (k v : Nat) : (s.wr k v).hiu = s.hiu := rfl
@[simp] theorem State.wr_ttu (s : State) (k v : Nat) : (s.wr k v).ttu = s.ttu := rfl
@[simp] theorem State.wr_qe (s : State) (k v : Nat) : (s.wr k v).qe = s.qe := rfl
@[simp] theorem State.wr_sie (s : State) (k v : Nat) : (s.wr k v).sie = s.sie := rfl

@[simp] theorem State.put_pending (s : State) (f : Field) (v : Nat) : (s.put f v).pending = s.pending := by unfold State.put; split <;> rfl
@[simp] theorem State.put_free (s : State) (f : Field) (v : Nat) : (s.put f v).free = s.free := by unfold State.put; split <;> rfl
@[simp] theorem State.put_reply (s : State) (f : Field) (v : Nat) : (s.put f v).reply = s.reply := by unfold State.put; split <;> rfl
@[simp] theorem State.put_out (s : State) (f : Field) (v : Nat) : (s.put f v).out = s.out := by unfold State.put; split <;> rfl
@[simp] theorem State.put_events (s : State) (f : Field) (v : Nat) : (s.put f v).events = s.events := by unfold State.put; split <;> rfl
@[simp] theorem State.put_once (s : State) (f : Field) (v : Nat) : (s.put f v).once = s.once := by unfold State.put; split <;> rfl
@[simp] theorem State.put_holds (s : State) (f : Field) (v : Nat) : (s.put f v).holds = s.holds := by unfold State.put; split <;> rfl
@[simp] theorem State.put_sup (s : State) (f : Field) (v : Nat) : (s.put f v).sup = s.sup := by unfold State.put; split <;> rfl
@[simp] theorem State.put_te (s : State) (f : Field) (v : Nat) : (s.put f v).te = s.te := by unfold State.put; split <;> rfl
@[simp] theorem State.put_hgc (s : State) (f : Field) (v : Nat) : (s.put f v).hgc = s.hgc := by unfold State.put; split <;> rfl
@[simp] theorem State.put_media (s : State) (f : Field) (v : Nat) : (s.put f v).media = s.media := by unfold State.put; split <;> rfl
@[simp] theorem State.put_pcu (s : State) (f : Field) (v : Nat) : (s.put f v).pcu = s.pcu := by unfold State.put; split <;> rfl
@[simp] theorem State.put_ftu (s : State) (f : Field) (v : Nat) : (s.put f v).ftu = s.ftu := by unfold State.put; split <;> rfl
@[simp] theorem State.put_fpu (s : State) (f : Field) (v : Nat) : (s.put f v).fpu = s.fpu := by unfold State.put; split <;> rfl
@[simp] theorem State.put_egu (s : State) (f : Field) (v : Nat) : (s.put f v).egu = s.egu := by unfold State.put; split <;> rfl
@[simp] theorem State.put_cku (s : State) (f : Field) (v : Nat) : (s.put f v).cku = s.cku := by unfold State.put; split <;> rfl
@[simp] theorem State.put_pxc (s : State) (f : Field) (v : Nat) : (s.put f v).pxc = s.pxc := by unfold State.put; split <;> rfl
@[simp] theorem State.put_rtu (s : State) (f : Field) (v : Nat) : (s.put f v).rtu = s.rtu := by unfold State.put; split <;> rfl
@[simp] theorem State.put_hiu (s : State) (f : Field) (v : Nat) : (s.put f v).hiu = s.hiu := by unfold State.put; split <;> rfl
@[simp] theorem State.put_ttu (s : State) (f : Field) (v : Nat) : (s.put f v).ttu = s.ttu := by unfold State.put; split <;> rfl
@[simp] theorem State.put_qe (s : State) (f : Field) (v : Nat) : (s.put f v).qe = s.qe := by unfold State.put; split <;> rfl
@[simp] theorem State.put_sie (s : State) (f : Field) (v : Nat) : (s.put f v).sie = s.sie := by unfold State.put; split <;> rfl

@[simp] theorem State.bump_pending (s : State) (f : Field) : (s.bump f).pending = s.pending := State.put_pending s _ _
@[simp] theorem State.bump_free (s : State) (f : Field) : (s.bump f).free = s.free := State.put_free s _ _
@[simp] theorem State.bump_reply (s : State) (f : Field) : (s.bump f).reply = s.reply := State.put_reply s _ _
@[simp] theorem State.bump_out (s : State) (f : Field) : (s.bump f).out = s.out := State.put_out s _ _
@[simp] theorem State.bump_events (s : State) (f : Field) : (s.bump f).events = s.events := State.put_events s _ _
@[simp] theorem State.bump_once (s : State) (f : Field) : (s.bump f).once = s.once := State.put_once s _ _
@[simp] theorem State.bump_holds (s : State) (f : Field) : (s.bump f).holds = s.holds := State.put_holds s _ _
@[simp] theorem State.bump_sup (s : State) (f : Field) : (s.bump f).sup = s.sup := State.put_sup s _ _
@[simp] theorem State.bump_te (s : State) (f : Field) : (s.bump f).te = s.te := State.put_te s _ _
@[simp] theorem State.bump_hgc (s : State) (f : Field) : (s.bump f).hgc = s.hgc := State.put_hgc s _ _
@[simp] theorem State.bump_media (s : State) (f : Field) : (s.bump f).media = s.media := State.put_media s _ _
@[simp] theorem State.bump_pcu (s : State) (f : Field) : (s.bump f).pcu = s.pcu := State.put_pcu s _ _
@[simp] theorem State.bump_ftu (s : State) (f : Field) : (s.bump f).ftu = s.ftu := State.put_ftu s _ _
@[simp] theorem State.bump_fpu (s : State) (f : Field) : (s.bump f).fpu = s.fpu := State.put_fpu s _ _
@[simp] theorem State.bump_egu (s : State) (f : Field) : (s.bump f).egu = s.egu := State.put_egu s _ _
@[simp] theorem State.bump_cku (s : State) (f : Field) : (s.bump f).cku = s.cku := State.put_cku s _ _
@[simp] theorem State.bump_pxc (s : State) (f : Field) : (s.bump f).pxc = s.pxc := State.put_pxc s _ _
@[simp] theorem State.bump_rtu (s : State) (f : Field) : (s.bump f).rtu = s.rtu := State.put_rtu s _ _
@[simp] theorem State.bump_hiu (s : State) (f : Field) : (s.bump f).hiu = s.hiu := State.put_hiu s _ _
@[simp] theorem State.bump_ttu (s : State) (f : Field) : (s.bump f).ttu = s.ttu := State.put_ttu s _ _
@[simp] theorem State.bump_qe (s : State) (f : Field) : (s.bump f).qe = s.qe := State.put_qe s _ _
@[simp] theorem State.bump_sie (s : State) (f : Field) : (s.bump f).sie = s.sie := State.put_sie s _ _

@[simp] theorem State.bumpBy_pending (s : State) (f : Field) (n : Nat) : (s.bumpBy f n).pending = s.pending := State.put_pending s _ _
@[simp] theorem State.bumpBy_free (s : State) (f : Field) (n : Nat) : (s.bumpBy f n).free = s.free := State.put_free s _ _
@[simp] theorem State.bumpBy_reply (s : State) (f : Field) (n : Nat) : (s.bumpBy f n).reply = s.reply := State.put_reply s _ _
@[simp] theorem State.bumpBy_out (s : State) (f : Field) (n : Nat) : (s.bumpBy f n).out = s.out := State.put_out s _ _
@[simp] theorem State.bumpBy_events (s : State) (f : Field) (n : Nat) : (s.bumpBy f n).events = s.events := State.put_events s _ _
@[simp] theorem State.bumpBy_once (s : State) (f : Field) (n : Nat) : (s.bumpBy f n).once = s.once := State.put_once s _ _
@[simp] theorem State.bumpBy_holds (s : State) (f : Field) (n : Nat) : (s.bumpBy f n).holds = s.holds := State.put_holds s _ _
@[simp] theorem State.bumpBy_sup (s : State) (f : Field) (n : Nat) : (s.bumpBy f n).sup = s.sup := State.put_sup s _ _
@[simp] theorem State.bumpBy_te (s : State) (f : Field) (n : Nat) : (s.bumpBy f n).te = s.te := State.put_te s _ _
@[simp] theorem State.bumpBy_hgc (s : State) (f : Field) (n : Nat) : (s.bumpBy f n).hgc = s.hgc := State.put_hgc s _ _
@[simp] theorem State.bumpBy_media (s : State) (f : Field) (n : Nat) : (s.bumpBy f n).media = s.media := State.put_media s _ _
@[simp] theorem State.bumpBy_pcu (s : State) (f : Field) (n : Nat) : (s.bumpBy f n).pcu = s.pcu := State.put_pcu s _ _
@[simp] theorem State.bumpBy_ftu (s : State) (f : Field) (n : Nat) : (s.bumpBy f n).ftu = s.ftu := State.put_ftu s _ _
@[simp] theorem State.bumpBy_fpu (s : State) (f : Field) (n : Nat) : (s.bumpBy f n).fpu = s.fpu := State.put_fpu s _ _
@[simp] theorem State.bumpBy_egu (s : State) (f : Field) (n : Nat) : (s.bumpBy f n).egu = s.egu := State.put_egu s _ _
@[simp] theorem State.bumpBy_cku (s : State) (f : Field) (n : Nat) : (s.bumpBy f n).cku = s.cku := State.put_cku s _ _
@[simp] theorem State.bumpBy_pxc (s : State) (f : Field) (n : Nat) : (s.bumpBy f n).pxc = s.pxc := State.put_pxc s _ _
@[simp] theorem State.bumpBy_rtu (s : State) (f : Field) (n : Nat) : (s.bumpBy f n).rtu = s.rtu := State.put_rtu s _ _
@[simp] theorem State.bumpBy_hiu (s : State) (f : Field) (n : Nat) : (s.bumpBy f n).hiu = s.hiu := State.put_hiu s _ _
@[simp] theorem State.bumpBy_ttu (s : State) (f : Field) (n : Nat) : (s.bumpBy f n).ttu = s.ttu := State.put_ttu s _ _
@[simp] theorem State.bumpBy_qe (s : State) (f : Field) (n : Nat) : (s.bumpBy f n).qe = s.qe := State.put_qe s _ _
@[simp] theorem State.bumpBy_sie (s : State) (f : Field) (n : Nat) : (s.bumpBy f n).sie = s.sie := State.put_sie s _ _

@[simp] theorem State.bumpSat_pending (s : State) (f : Field) : (s.bumpSat f).pending = s.pending := by unfold State.bumpSat; split <;> simp
@[simp] theorem State.bumpSat_free (s : State) (f : Field) : (s.bumpSat f).free = s.free := by unfold State.bumpSat; split <;> simp
@[simp] theorem State.bumpSat_reply (s : State) (f : Field) : (s.bumpSat f).reply = s.reply := by unfold State.bumpSat; split <;> simp
@[simp] theorem State.bumpSat_out (s : State) (f : Field) : (s.bumpSat f).out = s.out := by unfold State.bumpSat; split <;> simp
@[simp] theorem State.bumpSat_events (s : State) (f : Field) : (s.bumpSat f).events = s.events := by unfold State.bumpSat; split <;> simp
@[simp] theorem State.bumpSat_once (s : State) (f : Field) : (s.bumpSat f).once = s.once := by unfold State.bumpSat; split <;> simp
@[simp] theorem State.bumpSat_holds (s : State) (f : Field) : (s.bumpSat f).holds = s.holds := by unfold State.bumpSat; split <;> simp
@[simp] theorem State.bumpSat_sup (s : State) (f : Field) : (s.bumpSat f).sup = s.sup := by unfold State.bumpSat; split <;> simp
@[simp] theorem State.bumpSat_te (s : State) (f : Field) : (s.bumpSat f).te = s.te := by unfold State.bumpSat; split <;> simp
@[simp] theorem State.bumpSat_hgc (s : State) (f : Field) : (s.bumpSat f).hgc = s.hgc := by unfold State.bumpSat; split <;> simp
@[simp] theorem State.bumpSat_media (s : State) (f : Field) : (s.bumpSat f).media = s.media := by unfold State.bumpSat; split <;> simp
@[simp] theorem State.bumpSat_pcu (s : State) (f : Field) : (s.bumpSat f).pcu = s.pcu := by unfold State.bumpSat; split <;> simp
@[simp] theorem State.bumpSat_ftu (s : State) (f : Field) : (s.bumpSat f).ftu = s.ftu := by unfold State.bumpSat; split <;> simp
@[simp] theorem State.bumpSat_fpu (s : State) (f : Field) : (s.bumpSat f).fpu = s.fpu := by unfold State.bumpSat; split <;> simp
@[simp] theorem State.bumpSat_egu (s : State) (f : Field) : (s.bumpSat f).egu = s.egu := by unfold State.bumpSat; split <;> simp
@[simp] theorem State.bumpSat_cku (s : State) (f : Field) : (s.bumpSat f).cku = s.cku := by unfold State.bumpSat; split <;> simp
@[simp] theorem State.bumpSat_pxc (s : State) (f : Field) : (s.bumpSat f).pxc = s.pxc := by unfold State.bumpSat; split <;> simp
@[simp] theorem State.bumpSat_rtu (s : State) (f : Field) : (s.bumpSat f).rtu = s.rtu := by unfold State.bumpSat; split <;> simp
@[simp] theorem State.bumpSat_hiu (s : State) (f : Field) : (s.bumpSat f).hiu = s.hiu := by unfold State.bumpSat; split <;> simp
@[simp] theorem State.bumpSat_ttu (s : State) (f : Field) : (s.bumpSat f).ttu = s.ttu := by unfold State.bumpSat; split <;> simp
@[simp] theorem State.bumpSat_qe (s : State) (f : Field) : (s.bumpSat f).qe = s.qe := by unfold State.bumpSat; split <;> simp
@[simp] theorem State.bumpSat_sie (s : State) (f : Field) : (s.bumpSat f).sie = s.sie := by unfold State.bumpSat; split <;> simp

/-! ## Lists of words -/

@[simp] theorem State.wrWords_pending (s : State) (k : Nat) (l : List Nat) : (s.wrWords k l).pending = s.pending := by
  induction l generalizing s k with
  | nil => rfl
  | cons v l ih => exact ih (s.wr k v) (k + 4)
@[simp] theorem State.wrWords_free (s : State) (k : Nat) (l : List Nat) : (s.wrWords k l).free = s.free := by
  induction l generalizing s k with
  | nil => rfl
  | cons v l ih => exact ih (s.wr k v) (k + 4)
@[simp] theorem State.wrWords_reply (s : State) (k : Nat) (l : List Nat) : (s.wrWords k l).reply = s.reply := by
  induction l generalizing s k with
  | nil => rfl
  | cons v l ih => exact ih (s.wr k v) (k + 4)
@[simp] theorem State.wrWords_out (s : State) (k : Nat) (l : List Nat) : (s.wrWords k l).out = s.out := by
  induction l generalizing s k with
  | nil => rfl
  | cons v l ih => exact ih (s.wr k v) (k + 4)
@[simp] theorem State.wrWords_events (s : State) (k : Nat) (l : List Nat) : (s.wrWords k l).events = s.events := by
  induction l generalizing s k with
  | nil => rfl
  | cons v l ih => exact ih (s.wr k v) (k + 4)
@[simp] theorem State.wrWords_once (s : State) (k : Nat) (l : List Nat) : (s.wrWords k l).once = s.once := by
  induction l generalizing s k with
  | nil => rfl
  | cons v l ih => exact ih (s.wr k v) (k + 4)
@[simp] theorem State.wrWords_holds (s : State) (k : Nat) (l : List Nat) : (s.wrWords k l).holds = s.holds := by
  induction l generalizing s k with
  | nil => rfl
  | cons v l ih => exact ih (s.wr k v) (k + 4)
@[simp] theorem State.wrWords_sup (s : State) (k : Nat) (l : List Nat) : (s.wrWords k l).sup = s.sup := by
  induction l generalizing s k with
  | nil => rfl
  | cons v l ih => exact ih (s.wr k v) (k + 4)
@[simp] theorem State.wrWords_te (s : State) (k : Nat) (l : List Nat) : (s.wrWords k l).te = s.te := by
  induction l generalizing s k with
  | nil => rfl
  | cons v l ih => exact ih (s.wr k v) (k + 4)
@[simp] theorem State.wrWords_hgc (s : State) (k : Nat) (l : List Nat) : (s.wrWords k l).hgc = s.hgc := by
  induction l generalizing s k with
  | nil => rfl
  | cons v l ih => exact ih (s.wr k v) (k + 4)
@[simp] theorem State.wrWords_media (s : State) (k : Nat) (l : List Nat) : (s.wrWords k l).media = s.media := by
  induction l generalizing s k with
  | nil => rfl
  | cons v l ih => exact ih (s.wr k v) (k + 4)
@[simp] theorem State.wrWords_pcu (s : State) (k : Nat) (l : List Nat) : (s.wrWords k l).pcu = s.pcu := by
  induction l generalizing s k with
  | nil => rfl
  | cons v l ih => exact ih (s.wr k v) (k + 4)
@[simp] theorem State.wrWords_ftu (s : State) (k : Nat) (l : List Nat) : (s.wrWords k l).ftu = s.ftu := by
  induction l generalizing s k with
  | nil => rfl
  | cons v l ih => exact ih (s.wr k v) (k + 4)
@[simp] theorem State.wrWords_fpu (s : State) (k : Nat) (l : List Nat) : (s.wrWords k l).fpu = s.fpu := by
  induction l generalizing s k with
  | nil => rfl
  | cons v l ih => exact ih (s.wr k v) (k + 4)
@[simp] theorem State.wrWords_egu (s : State) (k : Nat) (l : List Nat) : (s.wrWords k l).egu = s.egu := by
  induction l generalizing s k with
  | nil => rfl
  | cons v l ih => exact ih (s.wr k v) (k + 4)
@[simp] theorem State.wrWords_cku (s : State) (k : Nat) (l : List Nat) : (s.wrWords k l).cku = s.cku := by
  induction l generalizing s k with
  | nil => rfl
  | cons v l ih => exact ih (s.wr k v) (k + 4)
@[simp] theorem State.wrWords_pxc (s : State) (k : Nat) (l : List Nat) : (s.wrWords k l).pxc = s.pxc := by
  induction l generalizing s k with
  | nil => rfl
  | cons v l ih => exact ih (s.wr k v) (k + 4)
@[simp] theorem State.wrWords_rtu (s : State) (k : Nat) (l : List Nat) : (s.wrWords k l).rtu = s.rtu := by
  induction l generalizing s k with
  | nil => rfl
  | cons v l ih => exact ih (s.wr k v) (k + 4)
@[simp] theorem State.wrWords_hiu (s : State) (k : Nat) (l : List Nat) : (s.wrWords k l).hiu = s.hiu := by
  induction l generalizing s k with
  | nil => rfl
  | cons v l ih => exact ih (s.wr k v) (k + 4)
@[simp] theorem State.wrWords_ttu (s : State) (k : Nat) (l : List Nat) : (s.wrWords k l).ttu = s.ttu := by
  induction l generalizing s k with
  | nil => rfl
  | cons v l ih => exact ih (s.wr k v) (k + 4)
@[simp] theorem State.wrWords_qe (s : State) (k : Nat) (l : List Nat) : (s.wrWords k l).qe = s.qe := by
  induction l generalizing s k with
  | nil => rfl
  | cons v l ih => exact ih (s.wr k v) (k + 4)
@[simp] theorem State.wrWords_sie (s : State) (k : Nat) (l : List Nat) : (s.wrWords k l).sie = s.sie := by
  induction l generalizing s k with
  | nil => rfl
  | cons v l ih => exact ih (s.wr k v) (k + 4)

/-! ## Outputs, free values, events and the log -/

@[simp] theorem State.emit_regs (s : State) (o : Out) : (s.emit o).regs = s.regs := rfl
@[simp] theorem State.emit_pending (s : State) (o : Out) : (s.emit o).pending = s.pending := rfl
@[simp] theorem State.emit_free (s : State) (o : Out) : (s.emit o).free = s.free := rfl
@[simp] theorem State.emit_reply (s : State) (o : Out) : (s.emit o).reply = s.reply := rfl
@[simp] theorem State.emit_events (s : State) (o : Out) : (s.emit o).events = s.events := rfl
@[simp] theorem State.emit_once (s : State) (o : Out) : (s.emit o).once = s.once := rfl
@[simp] theorem State.emit_holds (s : State) (o : Out) : (s.emit o).holds = s.holds := rfl
@[simp] theorem State.emit_sup (s : State) (o : Out) : (s.emit o).sup = s.sup := rfl
@[simp] theorem State.emit_te (s : State) (o : Out) : (s.emit o).te = s.te := rfl
@[simp] theorem State.emit_hgc (s : State) (o : Out) : (s.emit o).hgc = s.hgc := rfl
@[simp] theorem State.emit_media (s : State) (o : Out) : (s.emit o).media = s.media := rfl
@[simp] theorem State.emit_pcu (s : State) (o : Out) : (s.emit o).pcu = s.pcu := rfl
@[simp] theorem State.emit_ftu (s : State) (o : Out) : (s.emit o).ftu = s.ftu := rfl
@[simp] theorem State.emit_fpu (s : State) (o : Out) : (s.emit o).fpu = s.fpu := rfl
@[simp] theorem State.emit_egu (s : State) (o : Out) : (s.emit o).egu = s.egu := rfl
@[simp] theorem State.emit_cku (s : State) (o : Out) : (s.emit o).cku = s.cku := rfl
@[simp] theorem State.emit_pxc (s : State) (o : Out) : (s.emit o).pxc = s.pxc := rfl
@[simp] theorem State.emit_rtu (s : State) (o : Out) : (s.emit o).rtu = s.rtu := rfl
@[simp] theorem State.emit_hiu (s : State) (o : Out) : (s.emit o).hiu = s.hiu := rfl
@[simp] theorem State.emit_ttu (s : State) (o : Out) : (s.emit o).ttu = s.ttu := rfl
@[simp] theorem State.emit_qe (s : State) (o : Out) : (s.emit o).qe = s.qe := rfl
@[simp] theorem State.emit_sie (s : State) (o : Out) : (s.emit o).sie = s.sie := rfl

@[simp] theorem State.takeFree_regs (s : State) : (s.takeFree.2).regs = s.regs := rfl
@[simp] theorem State.takeFree_pending (s : State) : (s.takeFree.2).pending = s.pending := rfl
@[simp] theorem State.takeFree_reply (s : State) : (s.takeFree.2).reply = s.reply := rfl
@[simp] theorem State.takeFree_out (s : State) : (s.takeFree.2).out = s.out := rfl
@[simp] theorem State.takeFree_events (s : State) : (s.takeFree.2).events = s.events := rfl
@[simp] theorem State.takeFree_once (s : State) : (s.takeFree.2).once = s.once := rfl
@[simp] theorem State.takeFree_holds (s : State) : (s.takeFree.2).holds = s.holds := rfl
@[simp] theorem State.takeFree_sup (s : State) : (s.takeFree.2).sup = s.sup := rfl
@[simp] theorem State.takeFree_te (s : State) : (s.takeFree.2).te = s.te := rfl
@[simp] theorem State.takeFree_hgc (s : State) : (s.takeFree.2).hgc = s.hgc := rfl
@[simp] theorem State.takeFree_media (s : State) : (s.takeFree.2).media = s.media := rfl
@[simp] theorem State.takeFree_pcu (s : State) : (s.takeFree.2).pcu = s.pcu := rfl
@[simp] theorem State.takeFree_ftu (s : State) : (s.takeFree.2).ftu = s.ftu := rfl
@[simp] theorem State.takeFree_fpu (s : State) : (s.takeFree.2).fpu = s.fpu := rfl
@[simp] theorem State.takeFree_egu (s : State) : (s.takeFree.2).egu = s.egu := rfl
@[simp] theorem State.takeFree_cku (s : State) : (s.takeFree.2).cku = s.cku := rfl
@[simp] theorem State.takeFree_pxc (s : State) : (s.takeFree.2).pxc = s.pxc := rfl
@[simp] theorem State.takeFree_rtu (s : State) : (s.takeFree.2).rtu = s.rtu := rfl
@[simp] theorem State.takeFree_hiu (s : State) : (s.takeFree.2).hiu = s.hiu := rfl
@[simp] theorem State.takeFree_ttu (s : State) : (s.takeFree.2).ttu = s.ttu := rfl
@[simp] theorem State.takeFree_qe (s : State) : (s.takeFree.2).qe = s.qe := rfl
@[simp] theorem State.takeFree_sie (s : State) : (s.takeFree.2).sie = s.sie := rfl

@[simp] theorem State.raiseEvent_pending (s : State) (e : Event) : (s.raiseEvent e).pending = s.pending := by
  unfold State.raiseEvent; split
  · rfl
  · dsimp only; split
    · simp
    · split <;> simp
@[simp] theorem State.raiseEvent_free (s : State) (e : Event) : (s.raiseEvent e).free = s.free := by
  unfold State.raiseEvent; split
  · rfl
  · dsimp only; split
    · simp
    · split <;> simp
@[simp] theorem State.raiseEvent_reply (s : State) (e : Event) : (s.raiseEvent e).reply = s.reply := by
  unfold State.raiseEvent; split
  · rfl
  · dsimp only; split
    · simp
    · split <;> simp
@[simp] theorem State.raiseEvent_out (s : State) (e : Event) : (s.raiseEvent e).out = s.out := by
  unfold State.raiseEvent; split
  · rfl
  · dsimp only; split
    · simp
    · split <;> simp
@[simp] theorem State.raiseEvent_holds (s : State) (e : Event) : (s.raiseEvent e).holds = s.holds := by
  unfold State.raiseEvent; split
  · rfl
  · dsimp only; split
    · simp
    · split <;> simp
@[simp] theorem State.raiseEvent_sup (s : State) (e : Event) : (s.raiseEvent e).sup = s.sup := by
  unfold State.raiseEvent; split
  · rfl
  · dsimp only; split
    · simp
    · split <;> simp
@[simp] theorem State.raiseEvent_te (s : State) (e : Event) : (s.raiseEvent e).te = s.te := by
  unfold State.raiseEvent; split
  · rfl
  · dsimp only; split
    · simp
    · split <;> simp
@[simp] theorem State.raiseEvent_hgc (s : State) (e : Event) : (s.raiseEvent e).hgc = s.hgc := by
  unfold State.raiseEvent; split
  · rfl
  · dsimp only; split
    · simp
    · split <;> simp
@[simp] theorem State.raiseEvent_media (s : State) (e : Event) : (s.raiseEvent e).media = s.media := by
  unfold State.raiseEvent; split
  · rfl
  · dsimp only; split
    · simp
    · split <;> simp
@[simp] theorem State.raiseEvent_pcu (s : State) (e : Event) : (s.raiseEvent e).pcu = s.pcu := by
  unfold State.raiseEvent; split
  · rfl
  · dsimp only; split
    · simp
    · split <;> simp
@[simp] theorem State.raiseEvent_ftu (s : State) (e : Event) : (s.raiseEvent e).ftu = s.ftu := by
  unfold State.raiseEvent; split
  · rfl
  · dsimp only; split
    · simp
    · split <;> simp
@[simp] theorem State.raiseEvent_fpu (s : State) (e : Event) : (s.raiseEvent e).fpu = s.fpu := by
  unfold State.raiseEvent; split
  · rfl
  · dsimp only; split
    · simp
    · split <;> simp
@[simp] theorem State.raiseEvent_egu (s : State) (e : Event) : (s.raiseEvent e).egu = s.egu := by
  unfold State.raiseEvent; split
  · rfl
  · dsimp only; split
    · simp
    · split <;> simp
@[simp] theorem State.raiseEvent_cku (s : State) (e : Event) : (s.raiseEvent e).cku = s.cku := by
  unfold State.raiseEvent; split
  · rfl
  · dsimp only; split
    · simp
    · split <;> simp
@[simp] theorem State.raiseEvent_pxc (s : State) (e : Event) : (s.raiseEvent e).pxc = s.pxc := by
  unfold State.raiseEvent; split
  · rfl
  · dsimp only; split
    · simp
    · split <;> simp
@[simp] theorem State.raiseEvent_rtu (s : State) (e : Event) : (s.raiseEvent e).rtu = s.rtu := by
  unfold State.raiseEvent; split
  · rfl
  · dsimp only; split
    · simp
    · split <;> simp
@[simp] theorem State.raiseEvent_hiu (s : State) (e : Event) : (s.raiseEvent e).hiu = s.hiu := by
  unfold State.raiseEvent; split
  · rfl
  · dsimp only; split
    · simp
    · split <;> simp
@[simp] theorem State.raiseEvent_ttu (s : State) (e : Event) : (s.raiseEvent e).ttu = s.ttu := by
  unfold State.raiseEvent; split
  · rfl
  · dsimp only; split
    · simp
    · split <;> simp
@[simp] theorem State.raiseEvent_qe (s : State) (e : Event) : (s.raiseEvent e).qe = s.qe := by
  unfold State.raiseEvent; split
  · rfl
  · dsimp only; split
    · simp
    · split <;> simp
@[simp] theorem State.raiseEvent_sie (s : State) (e : Event) : (s.raiseEvent e).sie = s.sie := by
  unfold State.raiseEvent; split
  · rfl
  · dsimp only; split
    · simp
    · split <;> simp

@[simp] theorem State.raise_pending (s : State) (u : Unit') (t : Nat) (l : List (Nat × Nat)) : (s.raise u t l).pending = s.pending := State.raiseEvent_pending s _
@[simp] theorem State.raise_free (s : State) (u : Unit') (t : Nat) (l : List (Nat × Nat)) : (s.raise u t l).free = s.free := State.raiseEvent_free s _
@[simp] theorem State.raise_reply (s : State) (u : Unit') (t : Nat) (l : List (Nat × Nat)) : (s.raise u t l).reply = s.reply := State.raiseEvent_reply s _
@[simp] theorem State.raise_out (s : State) (u : Unit') (t : Nat) (l : List (Nat × Nat)) : (s.raise u t l).out = s.out := State.raiseEvent_out s _
@[simp] theorem State.raise_holds (s : State) (u : Unit') (t : Nat) (l : List (Nat × Nat)) : (s.raise u t l).holds = s.holds := State.raiseEvent_holds s _
@[simp] theorem State.raise_sup (s : State) (u : Unit') (t : Nat) (l : List (Nat × Nat)) : (s.raise u t l).sup = s.sup := State.raiseEvent_sup s _
@[simp] theorem State.raise_te (s : State) (u : Unit') (t : Nat) (l : List (Nat × Nat)) : (s.raise u t l).te = s.te := State.raiseEvent_te s _
@[simp] theorem State.raise_hgc (s : State) (u : Unit') (t : Nat) (l : List (Nat × Nat)) : (s.raise u t l).hgc = s.hgc := State.raiseEvent_hgc s _
@[simp] theorem State.raise_media (s : State) (u : Unit') (t : Nat) (l : List (Nat × Nat)) : (s.raise u t l).media = s.media := State.raiseEvent_media s _
@[simp] theorem State.raise_pcu (s : State) (u : Unit') (t : Nat) (l : List (Nat × Nat)) : (s.raise u t l).pcu = s.pcu := State.raiseEvent_pcu s _
@[simp] theorem State.raise_ftu (s : State) (u : Unit') (t : Nat) (l : List (Nat × Nat)) : (s.raise u t l).ftu = s.ftu := State.raiseEvent_ftu s _
@[simp] theorem State.raise_fpu (s : State) (u : Unit') (t : Nat) (l : List (Nat × Nat)) : (s.raise u t l).fpu = s.fpu := State.raiseEvent_fpu s _
@[simp] theorem State.raise_egu (s : State) (u : Unit') (t : Nat) (l : List (Nat × Nat)) : (s.raise u t l).egu = s.egu := State.raiseEvent_egu s _
@[simp] theorem State.raise_cku (s : State) (u : Unit') (t : Nat) (l : List (Nat × Nat)) : (s.raise u t l).cku = s.cku := State.raiseEvent_cku s _
@[simp] theorem State.raise_pxc (s : State) (u : Unit') (t : Nat) (l : List (Nat × Nat)) : (s.raise u t l).pxc = s.pxc := State.raiseEvent_pxc s _
@[simp] theorem State.raise_rtu (s : State) (u : Unit') (t : Nat) (l : List (Nat × Nat)) : (s.raise u t l).rtu = s.rtu := State.raiseEvent_rtu s _
@[simp] theorem State.raise_hiu (s : State) (u : Unit') (t : Nat) (l : List (Nat × Nat)) : (s.raise u t l).hiu = s.hiu := State.raiseEvent_hiu s _
@[simp] theorem State.raise_ttu (s : State) (u : Unit') (t : Nat) (l : List (Nat × Nat)) : (s.raise u t l).ttu = s.ttu := State.raiseEvent_ttu s _
@[simp] theorem State.raise_qe (s : State) (u : Unit') (t : Nat) (l : List (Nat × Nat)) : (s.raise u t l).qe = s.qe := State.raiseEvent_qe s _
@[simp] theorem State.raise_sie (s : State) (u : Unit') (t : Nat) (l : List (Nat × Nat)) : (s.raise u t l).sie = s.sie := State.raiseEvent_sie s _

@[simp] theorem State.raiseFor_pending (s : State) (u : Unit') (t f : Nat) (l : List (Nat × Nat)) : (s.raiseFor u t f l).pending = s.pending := State.raiseEvent_pending s _
@[simp] theorem State.raiseFor_free (s : State) (u : Unit') (t f : Nat) (l : List (Nat × Nat)) : (s.raiseFor u t f l).free = s.free := State.raiseEvent_free s _
@[simp] theorem State.raiseFor_reply (s : State) (u : Unit') (t f : Nat) (l : List (Nat × Nat)) : (s.raiseFor u t f l).reply = s.reply := State.raiseEvent_reply s _
@[simp] theorem State.raiseFor_out (s : State) (u : Unit') (t f : Nat) (l : List (Nat × Nat)) : (s.raiseFor u t f l).out = s.out := State.raiseEvent_out s _
@[simp] theorem State.raiseFor_holds (s : State) (u : Unit') (t f : Nat) (l : List (Nat × Nat)) : (s.raiseFor u t f l).holds = s.holds := State.raiseEvent_holds s _
@[simp] theorem State.raiseFor_sup (s : State) (u : Unit') (t f : Nat) (l : List (Nat × Nat)) : (s.raiseFor u t f l).sup = s.sup := State.raiseEvent_sup s _
@[simp] theorem State.raiseFor_te (s : State) (u : Unit') (t f : Nat) (l : List (Nat × Nat)) : (s.raiseFor u t f l).te = s.te := State.raiseEvent_te s _
@[simp] theorem State.raiseFor_hgc (s : State) (u : Unit') (t f : Nat) (l : List (Nat × Nat)) : (s.raiseFor u t f l).hgc = s.hgc := State.raiseEvent_hgc s _
@[simp] theorem State.raiseFor_media (s : State) (u : Unit') (t f : Nat) (l : List (Nat × Nat)) : (s.raiseFor u t f l).media = s.media := State.raiseEvent_media s _
@[simp] theorem State.raiseFor_pcu (s : State) (u : Unit') (t f : Nat) (l : List (Nat × Nat)) : (s.raiseFor u t f l).pcu = s.pcu := State.raiseEvent_pcu s _
@[simp] theorem State.raiseFor_ftu (s : State) (u : Unit') (t f : Nat) (l : List (Nat × Nat)) : (s.raiseFor u t f l).ftu = s.ftu := State.raiseEvent_ftu s _
@[simp] theorem State.raiseFor_fpu (s : State) (u : Unit') (t f : Nat) (l : List (Nat × Nat)) : (s.raiseFor u t f l).fpu = s.fpu := State.raiseEvent_fpu s _
@[simp] theorem State.raiseFor_egu (s : State) (u : Unit') (t f : Nat) (l : List (Nat × Nat)) : (s.raiseFor u t f l).egu = s.egu := State.raiseEvent_egu s _
@[simp] theorem State.raiseFor_cku (s : State) (u : Unit') (t f : Nat) (l : List (Nat × Nat)) : (s.raiseFor u t f l).cku = s.cku := State.raiseEvent_cku s _
@[simp] theorem State.raiseFor_pxc (s : State) (u : Unit') (t f : Nat) (l : List (Nat × Nat)) : (s.raiseFor u t f l).pxc = s.pxc := State.raiseEvent_pxc s _
@[simp] theorem State.raiseFor_rtu (s : State) (u : Unit') (t f : Nat) (l : List (Nat × Nat)) : (s.raiseFor u t f l).rtu = s.rtu := State.raiseEvent_rtu s _
@[simp] theorem State.raiseFor_hiu (s : State) (u : Unit') (t f : Nat) (l : List (Nat × Nat)) : (s.raiseFor u t f l).hiu = s.hiu := State.raiseEvent_hiu s _
@[simp] theorem State.raiseFor_ttu (s : State) (u : Unit') (t f : Nat) (l : List (Nat × Nat)) : (s.raiseFor u t f l).ttu = s.ttu := State.raiseEvent_ttu s _
@[simp] theorem State.raiseFor_qe (s : State) (u : Unit') (t f : Nat) (l : List (Nat × Nat)) : (s.raiseFor u t f l).qe = s.qe := State.raiseEvent_qe s _
@[simp] theorem State.raiseFor_sie (s : State) (u : Unit') (t f : Nat) (l : List (Nat × Nat)) : (s.raiseFor u t f l).sie = s.sie := State.raiseEvent_sie s _

@[simp] theorem State.hlog_pending (s : State) (t u p : Nat) : (s.hlog t u p).pending = s.pending := by simp [State.hlog]
@[simp] theorem State.hlog_free (s : State) (t u p : Nat) : (s.hlog t u p).free = s.free := by simp [State.hlog]
@[simp] theorem State.hlog_reply (s : State) (t u p : Nat) : (s.hlog t u p).reply = s.reply := by simp [State.hlog]
@[simp] theorem State.hlog_out (s : State) (t u p : Nat) : (s.hlog t u p).out = s.out := by simp [State.hlog]
@[simp] theorem State.hlog_events (s : State) (t u p : Nat) : (s.hlog t u p).events = s.events := by simp [State.hlog]
@[simp] theorem State.hlog_once (s : State) (t u p : Nat) : (s.hlog t u p).once = s.once := by simp [State.hlog]
@[simp] theorem State.hlog_holds (s : State) (t u p : Nat) : (s.hlog t u p).holds = s.holds := by simp [State.hlog]
@[simp] theorem State.hlog_sup (s : State) (t u p : Nat) : (s.hlog t u p).sup = s.sup := by simp [State.hlog]
@[simp] theorem State.hlog_te (s : State) (t u p : Nat) : (s.hlog t u p).te = s.te := by simp [State.hlog]
@[simp] theorem State.hlog_hgc (s : State) (t u p : Nat) : (s.hlog t u p).hgc = s.hgc := by simp [State.hlog]
@[simp] theorem State.hlog_media (s : State) (t u p : Nat) : (s.hlog t u p).media = s.media := by simp [State.hlog]
@[simp] theorem State.hlog_pcu (s : State) (t u p : Nat) : (s.hlog t u p).pcu = s.pcu := by simp [State.hlog]
@[simp] theorem State.hlog_ftu (s : State) (t u p : Nat) : (s.hlog t u p).ftu = s.ftu := by simp [State.hlog]
@[simp] theorem State.hlog_fpu (s : State) (t u p : Nat) : (s.hlog t u p).fpu = s.fpu := by simp [State.hlog]
@[simp] theorem State.hlog_egu (s : State) (t u p : Nat) : (s.hlog t u p).egu = s.egu := by simp [State.hlog]
@[simp] theorem State.hlog_cku (s : State) (t u p : Nat) : (s.hlog t u p).cku = s.cku := by simp [State.hlog]
@[simp] theorem State.hlog_pxc (s : State) (t u p : Nat) : (s.hlog t u p).pxc = s.pxc := by simp [State.hlog]
@[simp] theorem State.hlog_rtu (s : State) (t u p : Nat) : (s.hlog t u p).rtu = s.rtu := by simp [State.hlog]
@[simp] theorem State.hlog_hiu (s : State) (t u p : Nat) : (s.hlog t u p).hiu = s.hiu := by simp [State.hlog]
@[simp] theorem State.hlog_ttu (s : State) (t u p : Nat) : (s.hlog t u p).ttu = s.ttu := by simp [State.hlog]
@[simp] theorem State.hlog_qe (s : State) (t u p : Nat) : (s.hlog t u p).qe = s.qe := by simp [State.hlog]
@[simp] theorem State.hlog_sie (s : State) (t u p : Nat) : (s.hlog t u p).sie = s.sie := by simp [State.hlog]

end Sys2Proof.Machine
end

