-- ==== Sys2Proof/Laws/Registers.lean ====
section
/-! SUPPORT. What a register reads after a write of a field: the words of the register file as one row of bits. -/

namespace Sys2Proof.Machine

/-! ## Bits of a value -/

theorem bits_testBit (w lo n i : Nat) : (bits w lo n).testBit i = (decide (i < n) && w.testBit (lo + i)) := by
  simp [bits, Nat.testBit_mod_two_pow, Nat.testBit_div_two_pow, Nat.add_comm]

theorem bits_lt (w lo n : Nat) : bits w lo n < 2 ^ n := Nat.mod_lt _ (by positivity)

theorem setBits_testBit (w lo n v i : Nat) :
    (setBits w lo n v).testBit i = if i < lo then w.testBit i else if i < lo + n then v.testBit (i - lo) else w.testBit i := by
  have h1 : w % 2 ^ lo < 2 ^ lo := Nat.mod_lt _ (by positivity)
  have h2 : v % 2 ^ n * 2 ^ lo + w % 2 ^ lo < 2 ^ (lo + n) := by
    have : v % 2 ^ n < 2 ^ n := Nat.mod_lt _ (by positivity)
    have : (v % 2 ^ n + 1) * 2 ^ lo ≤ 2 ^ n * 2 ^ lo := Nat.mul_le_mul_right _ (by omega)
    rw [Nat.add_mul] at this
    rw [Nat.pow_add, Nat.mul_comm (2 ^ lo)]
    omega
  unfold setBits
  rw [Nat.add_assoc, Nat.mul_comm, Nat.testBit_two_pow_mul_add _ h2, Nat.mul_comm, Nat.testBit_two_pow_mul_add _ h1]
  simp only [Nat.testBit_mod_two_pow, Nat.testBit_div_two_pow]
  by_cases a : i < lo
  · simp [a, show i < lo + n by omega]
  · by_cases b : i < lo + n
    · simp [a, b, show i - lo < n by omega]
    · simp only [a, b, if_false]; congr 1; omega

/-! ## Words -/

/-- The register file is canonical. -/
theorem canon_regs {s : State} (h : s.canon = true) : Sparse.wf resetWord s.regs = true := by
  simp only [State.canon, Bool.and_eq_true] at h; exact h.1

theorem rd_lt (s : State) (k : Nat) : s.rd k < 2 ^ 32 := BitVec.isLt _

theorem rd_wr_same {s : State} {k v : Nat} (h : s.canon = true) : (s.wr k v).rd k = v % 2 ^ 32 := by
  simp [State.rd, State.wr, Sparse.get_set_same (canon_regs h)]

theorem rd_wr_ne {s : State} {k j v : Nat} (h : s.canon = true) (hj : j ≠ k) : (s.wr k v).rd j = s.rd j := by
  simp [State.rd, State.wr, Sparse.get_set_ne (canon_regs h) hj]

theorem canon_wr {s : State} {k v : Nat} (h : s.canon = true) : (s.wr k v).canon = true := by
  simp only [State.canon, Bool.and_eq_true] at h ⊢
  exact ⟨Sparse.wf_set h.1, h.2⟩

theorem canon_put {s : State} {f : Field} {v : Nat} (h : s.canon = true) : (s.put f v).canon = true := by
  unfold State.put
  split
  · exact canon_wr h
  · exact canon_wr (canon_wr h)

/-! ## The row of bits -/

/-- Bit `n` of the register file, 32 to a word. -/
def State.row (s : State) (n : Nat) : Bool := (s.rd (4 * (n / 32))).testBit (n % 32)

/-- A field stands in whole words and is at most 64 bits long. -/
def Field.ok (f : Field) : Bool := f.key % 4 == 0 && f.lo ≤ f.hi && f.hi < 64

/-- First bit of a field in the row. -/
def Field.at (f : Field) : Nat := 8 * f.key + f.lo

/-- Its width. -/
def Field.width (f : Field) : Nat := f.hi + 1 - f.lo

theorem get_testBit {s : State} {f : Field} (hf : f.ok = true) (i : Nat) :
    (s.get f).testBit i = (decide (i < f.width) && s.row (f.at + i)) := by
  simp only [Field.ok, Bool.and_eq_true, beq_iff_eq, decide_eq_true_eq] at hf
  unfold State.get State.row Field.at Field.width
  split
  · rw [bits_testBit]
    by_cases a : i < f.hi + 1 - f.lo
    · rw [show 4 * ((8 * f.key + f.lo + i) / 32) = f.key by omega, show (8 * f.key + f.lo + i) % 32 = f.lo + i by omega]
    · simp [a]
  · rw [bits_testBit]
    by_cases a : i < f.hi + 1 - f.lo
    · rw [Nat.add_comm (s.rd f.key), Nat.testBit_two_pow_mul_add _ (rd_lt s f.key)]
      split
      · rw [show 4 * ((8 * f.key + f.lo + i) / 32) = f.key by omega, show (8 * f.key + f.lo + i) % 32 = f.lo + i by omega]
      · rw [show 4 * ((8 * f.key + f.lo + i) / 32) = f.key + 4 by omega,
          show (8 * f.key + f.lo + i) % 32 = f.lo + i - 32 by omega]
    · simp [a]

theorem row_wr {s : State} {k v n : Nat} (h : s.canon = true) (hk : k % 4 = 0) :
    (s.wr k v).row n = if n / 32 = k / 4 then v.testBit (n % 32) else s.row n := by
  unfold State.row
  split
  · rw [show 4 * (n / 32) = k by omega, rd_wr_same h, Nat.testBit_mod_two_pow]
    simp [show n % 32 < 32 by omega]
  · rw [rd_wr_ne h (by omega)]

theorem row_rd (s : State) (k i : Nat) (hk : k % 4 = 0) (hi : i < 32) : (s.rd k).testBit i = s.row (8 * k + i) := by
  unfold State.row
  rw [show 4 * ((8 * k + i) / 32) = k by omega, show (8 * k + i) % 32 = i by omega]

/-- A write of a field changes its bits of the row and no other. -/
theorem row_put {s : State} {f : Field} {v n : Nat} (h : s.canon = true) (hf : f.ok = true) :
    (s.put f v).row n = if f.at ≤ n ∧ n < f.at + f.width then v.testBit (n - f.at) else s.row n := by
  simp only [Field.ok, Bool.and_eq_true, beq_iff_eq, decide_eq_true_eq] at hf
  unfold State.put Field.at Field.width
  split
  · rw [row_wr h hf.1.1, setBits_testBit]
    by_cases a : n / 32 = f.key / 4
    · rw [if_pos a]
      rw [row_rd s _ _ hf.1.1 (by omega), show 8 * f.key + n % 32 = n by omega]
      split
      · rw [if_neg (by omega)]
      · split
        · rw [if_pos (by omega)]; congr 1; omega
        · rw [if_neg (by omega)]
    · rw [if_neg a, if_neg (by omega)]
  · dsimp only
    rw [row_wr (canon_wr h) (by omega)]
    have hw : ∀ j, j < 64 → (s.rd f.key + 2 ^ 32 * s.rd (f.key + 4)).testBit j = s.row (8 * f.key + j) := by
      intro j hj
      rw [Nat.add_comm, Nat.testBit_two_pow_mul_add _ (rd_lt s f.key)]
      split
      · exact row_rd s _ _ hf.1.1 (by omega)
      · rw [row_rd s _ _ (by omega) (by omega)]; congr 1; omega
    split
    · rename_i a
      rw [Nat.testBit_div_two_pow, setBits_testBit]
      rw [hw _ (by omega), show 8 * f.key + (n % 32 + 32) = n by omega]
      split
      · rw [if_neg (by omega)]
      · split
        · rw [if_pos (by omega)]; congr 1; omega
        · rw [if_neg (by omega)]
    · rename_i a
      rw [row_wr h hf.1.1]
      split
      · rename_i b
        rw [Nat.testBit_mod_two_pow, setBits_testBit]
        rw [hw _ (by omega), show 8 * f.key + n % 32 = n by omega]
        simp only [show n % 32 < 32 by omega, decide_true, Bool.true_and]
        split
        · rw [if_neg (by omega)]
        · split
          · rw [if_pos (by omega)]; congr 1; omega
          · rw [if_neg (by omega)]
      · rw [if_neg (by omega)]

/-! ## What statements and proofs use -/

/-- Two fields share no bit. -/
def Field.apart (f g : Field) : Prop := f.at + f.width ≤ g.at ∨ g.at + g.width ≤ f.at

theorem get_lt (s : State) (f : Field) : s.get f < 2 ^ f.width := by
  unfold State.get Field.width; split <;> exact bits_lt _ _ _

/-- A written field reads back, modulo its width. -/
theorem get_put_same {s : State} {f : Field} {v : Nat} (h : s.canon = true) (hf : f.ok = true) :
    (s.put f v).get f = v % 2 ^ f.width := by
  apply Nat.eq_of_testBit_eq
  intro i
  rw [get_testBit hf, row_put h hf, Nat.testBit_mod_two_pow]
  by_cases a : i < f.width
  · simp [a]
  · simp [a]

/-- A field apart from the written one reads as before. -/
theorem get_put_apart {s : State} {f g : Field} {v : Nat} (h : s.canon = true) (hf : f.ok = true) (hg : g.ok = true)
    (ha : Field.apart f g) : (s.put f v).get g = s.get g := by
  apply Nat.eq_of_testBit_eq
  intro i
  rw [get_testBit hg, get_testBit hg, row_put h hf]
  by_cases a : i < g.width
  · simp only [a, decide_true, Bool.true_and]
    rw [if_neg]
    rcases ha with ha | ha <;> omega
  · simp [a]

/-- A word apart from the written field reads as before. -/
theorem rd_put_ne {s : State} {f : Field} {v k : Nat} (h : s.canon = true) (h1 : k ≠ f.key) (h2 : f.hi < 32 ∨ k ≠ f.key + 4) :
    (s.put f v).rd k = s.rd k := by
  unfold State.put
  split
  · exact rd_wr_ne h h1
  · dsimp only
    rw [rd_wr_ne (canon_wr h) (by omega), rd_wr_ne h h1]

/-- Reading depends on the register file alone. -/
theorem rd_congr {s t : State} (h : t.regs = s.regs) (k : Nat) : t.rd k = s.rd k := by simp [State.rd, h]

theorem get_congr {s t : State} (h : t.regs = s.regs) (f : Field) : t.get f = s.get f := by
  simp [State.get, rd_congr h]

end Sys2Proof.Machine
end

