-- ==== Sys2Proof/Laws/Clock.lean ====
section
/-! SUPPORT. The first cycle of a tick leaves the tick counter and the offset as `nextTick` set them (R70). -/

set_option linter.all false
set_option simprocs false

namespace Sys2Proof.Machine

/-- The words of TE_TICK and TE_OFFSET are as they were, and the stores stay canonical. -/
structure SameClock (s t : State) : Prop where
  canon : s.canon = true → t.canon = true
  lo : s.canon = true → t.rd 0x01001000 = s.rd 0x01001000
  hi : s.canon = true → t.rd 0x01001004 = s.rd 0x01001004
  offset : s.canon = true → t.rd 0x01001008 = s.rd 0x01001008

/-- A field away from those words. -/
def OffClock (f : Field) : Prop := 0x01001008 < f.key ∨ f.key + 4 < 0x01001000

theorem SameClock.refl (s : State) : SameClock s s := ⟨id, fun _ => rfl, fun _ => rfl, fun _ => rfl⟩

theorem SameClock.trans {a b c : State} (h : SameClock a b) (g : SameClock b c) : SameClock a c :=
  ⟨fun x => g.canon (h.canon x), fun x => (g.lo (h.canon x)).trans (h.lo x), fun x => (g.hi (h.canon x)).trans (h.hi x),
    fun x => (g.offset (h.canon x)).trans (h.offset x)⟩

theorem SameClock.same {a b c : State} (h : SameClock a b) (e : c.regs = b.regs) (e2 : c.sup.flash = b.sup.flash) : SameClock a c :=
  h.trans ⟨fun x => by simp only [State.canon, e, e2] at x ⊢; exact x, fun _ => rd_congr e _, fun _ => rd_congr e _, fun _ => rd_congr e _⟩

theorem clock_wr {s₀ s : State} {k v : Nat} (hk : SameClock s₀ s) (h : 0x01001008 < k ∨ k < 0x01001000) : SameClock s₀ (s.wr k v) :=
  hk.trans ⟨fun c => canon_wr c, fun c => rd_wr_ne c (by omega), fun c => rd_wr_ne c (by omega), fun c => rd_wr_ne c (by omega)⟩

theorem clock_put {s₀ s : State} {f : Field} {v : Nat} (hk : SameClock s₀ s) (h : OffClock f) : SameClock s₀ (s.put f v) := by
  unfold OffClock at h
  unfold State.put; split
  · exact clock_wr hk (by omega)
  · exact clock_wr (clock_wr hk (by omega)) (by omega)

theorem clock_bump {s₀ s : State} {f : Field} (hk : SameClock s₀ s) (h : OffClock f) : SameClock s₀ (s.bump f) := clock_put hk h
theorem clock_bumpBy {s₀ s : State} {f : Field} {n : Nat} (hk : SameClock s₀ s) (h : OffClock f) : SameClock s₀ (s.bumpBy f n) := clock_put hk h
theorem clock_bumpSatBy {s₀ s : State} {f : Field} {n : Nat} (hk : SameClock s₀ s) (h : OffClock f) : SameClock s₀ (s.bumpSatBy f n) :=
  clock_put hk h
theorem clock_bumpSat {s₀ s : State} {f : Field} (hk : SameClock s₀ s) (h : OffClock f) : SameClock s₀ (s.bumpSat f) := by
  unfold State.bumpSat; split
  · exact clock_put hk h
  · exact hk

theorem offClock_of {f : Field} (h : 0x01001008 < f.key ∨ f.key + 4 < 0x01001000) : OffClock f := h

theorem offClock_unitFault (u : Nat) : OffClock (Reg.UNIT_FAULT u) := by
  show _ < _ ∨ _ < _
  simp only [Reg.UNIT_FAULT]; omega

theorem clock_wrWords {s₀ s : State} {k : Nat} {l : List Nat} (hk : SameClock s₀ s) (h : 0x01001008 < k ∨ k + 4 * l.length ≤ 0x01001000) :
    SameClock s₀ (s.wrWords k l) := by
  induction l generalizing s k with
  | nil => exact hk
  | cons v l ih =>
    simp only [List.length_cons] at h
    exact ih (clock_wr hk (by omega)) (by omega)

theorem clock_hlog {s₀ s : State} {type u pay : Nat} (hk : SameClock s₀ s) : SameClock s₀ (s.hlog type u pay) := by
  unfold State.hlog
  refine clock_put (clock_wrWords hk (.inr ?_)) (.inr (by decide))
  have := Nat.mod_lt (s.get Reg.SUP_HLOG_PROD) (show 0 < 1024 by decide)
  simp only [List.length_cons, List.length_nil]; omega

theorem clock_ite {s₀ a b : State} {c : Prop} [Decidable c] (ha : SameClock s₀ a) (hb : SameClock s₀ b) : SameClock s₀ (if c then a else b) := by
  split <;> assumption

theorem clock_foldl {α : Type} {s₀ s : State} {l : List α} {f : State → α → State} (h : SameClock s₀ s)
    (hf : ∀ s x, SameClock s₀ s → SameClock s₀ (f s x)) : SameClock s₀ (l.foldl f s) := by
  induction l generalizing s with
  | nil => exact h
  | cons x l ih => exact ih (hf s x h)

theorem clock_forEach {α : Type} {s₀ s : State} {l : List α} {f : α → State → State} (h : SameClock s₀ s)
    (hf : ∀ s x, SameClock s₀ s → SameClock s₀ (f x s)) : SameClock s₀ (forEach l s f) := clock_foldl h hf

theorem clock_foldl_snd {α β : Type} {s₀ : State} {a : β × State} {l : List α} {f : β × State → α → β × State} (h : SameClock s₀ a.2)
    (hf : ∀ a x, SameClock s₀ a.2 → SameClock s₀ (f a x).2) : SameClock s₀ (l.foldl f a).2 := by
  induction l generalizing a with
  | nil => exact h
  | cons x l ih => exact ih (hf a x h)

theorem clock_when {s₀ s : State} {b : Bool} {f : State → State} (h : SameClock s₀ s) (hf : ∀ s, SameClock s₀ s → SameClock s₀ (f s)) :
    SameClock s₀ (s.when b f) := by
  unfold State.when; split
  · exact hf s h
  · exact h

theorem clock_pair {α : Type} {s₀ t : State} {a : α} {x : α × State} (h : SameClock s₀ x.2) (e : x = (a, t)) : SameClock s₀ t := by
  subst e; exact h

theorem clock_mk {s₀ s : State} (h : SameClock s₀ s) {pending free reply out events once holds te hgc media pcu ftu fpu egu cku pxc rtu hiu ttu qe sie} :
    SameClock s₀ ⟨s.regs, pending, free, reply, out, events, once, holds, s.sup, te, hgc, media, pcu, ftu, fpu, egu, cku, pxc, rtu,
      hiu, ttu, qe, sie⟩ := h.same rfl rfl

theorem clock_mk_sup {s₀ s : State} (h : SameClock s₀ s) {pending free reply out events once holds sup te hgc media pcu ftu fpu egu cku pxc rtu hiu ttu qe sie}
    (e : sup.flash = s.sup.flash) :
    SameClock s₀ ⟨s.regs, pending, free, reply, out, events, once, holds, sup, te, hgc, media, pcu, ftu, fpu, egu, cku, pxc, rtu,
      hiu, ttu, qe, sie⟩ := h.same rfl e

theorem clock_emit {s₀ s : State} {o : Out} (h : SameClock s₀ s) : SameClock s₀ (s.emit o) := h.same rfl rfl
theorem clock_takeFree {s₀ s : State} (h : SameClock s₀ s) : SameClock s₀ s.takeFree.2 := h.same rfl rfl
theorem clock_takeFree_eq {s₀ s : State} {a} {t : State} (e : s.takeFree = (a, t)) (h : SameClock s₀ s) : SameClock s₀ t := by
  have := clock_takeFree h; rw [e] at this; exact this
/-- Where it answers a state, its clock is `s`'s. -/
structure SameClockM (s : State) (o : Option State) : Prop where
  of : ∀ t, o = some t → SameClock s t

theorem clockM_none {s₀ : State} : SameClockM s₀ none := ⟨fun _ e => nomatch e⟩
theorem clockM_some {s₀ s : State} (h : SameClock s₀ s) : SameClockM s₀ (some s) := ⟨fun _ e => by cases e; exact h⟩

theorem clock_id {s₀ s : State} (h : SameClock s₀ s) : SameClock s₀ (id s) := h

theorem clock_stat {s₀ : State} {s : State} {p : Nat} {i : Nat} {n : Nat} (hk : SameClock s₀ s) : SameClock s₀ (State.stat s p i n) := by
  unfold State.stat
  (repeat' (first | (with_reducible refine offClock_of ?_; exact .inl (Nat.lt_add_right _ (Nat.lt_add_right _ (by decide)))) | (with_reducible assumption) | (with_reducible apply clock_bumpBy)))

theorem clock_accruePause {s₀ : State} {s : State} {p : Nat} (hk : SameClock s₀ s) : SameClock s₀ (State.accruePause s p) := by
  unfold State.accruePause
  (repeat' (first | (with_reducible assumption) | (with_reducible apply clock_stat) | (fail_if_no_progress with_reducible apply clock_mk) | (split)))

theorem clock_setLevel {s₀ : State} {s : State} {k : Nat} {v : Int × Int} (hk : SameClock s₀ s) : SameClock s₀ (State.setLevel s k v) := by
  unfold State.setLevel
  split
  · exact hk
  · exact clock_wr (clock_wr (clock_mk hk) (.inl (by omega))) (.inl (by omega))

theorem clock_fillLevel {s₀ : State} {s : State} {k : Nat} {dt : Nat} (hk : SameClock s₀ s) : SameClock s₀ (State.fillLevel s k dt) := by
  unfold State.fillLevel
  (repeat' (first | (with_reducible assumption) | (with_reducible apply clock_setLevel)))

theorem clock_slope {s₀ : State} {s : State} {mbps : Nat} {n : Nat} (hk : SameClock s₀ s) : SameClock s₀ (State.slope s mbps n).2 := by
  unfold State.slope
  (repeat' (first | (with_reducible assumption) | (with_reducible apply clock_takeFree) | (extract_lets -underBinder +onlyGivenNames sx; clear_value sx) | (dsimp -zeta only) | (split)))
theorem clock_slope_eq {s₀ : State} {s : State} {mbps : Nat} {n : Nat} {ra rt} (he : State.slope s mbps n = (ra, rt)) (hk : SameClock s₀ s) : SameClock s₀ rt := by
  have := clock_slope (s := s) (mbps := mbps) (n := n) hk; rw [he] at this; exact this

theorem clock_setCredit {s₀ : State} {s : State} {i : Nat} {v : Int} (hk : SameClock s₀ s) : SameClock s₀ (State.setCredit s i v) := by
  unfold State.setCredit
  (repeat' (first | (with_reducible refine offClock_of ?_; exact .inl (Nat.lt_add_right _ (by decide))) | (with_reducible assumption) | (with_reducible apply clock_ite) | (with_reducible apply clock_put) | (fail_if_no_progress with_reducible apply clock_mk)))

theorem clock_moveCredit {s₀ : State} {s : State} {i : Nat} {n : Nat} (hk : SameClock s₀ s) : SameClock s₀ (State.moveCredit s i n) := by
  unfold State.moveCredit
  (repeat' (first | (with_reducible assumption) | (with_reducible apply clock_ite) | (with_reducible apply clock_slope) | (with_reducible apply clock_setCredit) | (dsimp -zeta only) | (split)))

theorem clock_settle {s₀ : State} {s : State} (hk : SameClock s₀ s) : SameClock s₀ (State.settle s) := by
  unfold State.settle
  (repeat' (first | (intro) | (with_reducible assumption) | (with_reducible apply clock_fillLevel) | (with_reducible apply clock_moveCredit) | (fail_if_no_progress with_reducible apply clock_mk) | (with_reducible apply clock_foldl)))

theorem clock_poolGive {s₀ : State} {s : State} {f : Nat} {k : Nat} {n : Nat} (hk : SameClock s₀ s) : SameClock s₀ (State.poolGive s f k n) := by
  unfold State.poolGive
  (repeat' (first | (with_reducible refine offClock_of ?_; exact .inl (Nat.lt_add_right _ (Nat.lt_add_right _ (by decide)))) | (with_reducible assumption) | (with_reducible apply clock_put)))

theorem clock_oncePerTick {s₀ : State} {s : State} {key : Nat} {f : State → State} (hk : SameClock s₀ s) (hk_f : ∀ (x0 : State), SameClock s₀ x0 → SameClock s₀ (f x0)) : SameClock s₀ (State.oncePerTick s key f) := by
  unfold State.oncePerTick
  (repeat' (first | (with_reducible assumption) | (with_reducible apply clock_ite) | (with_reducible apply hk_f) | (fail_if_no_progress with_reducible apply clock_mk)))

theorem clock_raiseEvent {s₀ : State} {s : State} {e : Event} (hk : SameClock s₀ s) : SameClock s₀ (State.raiseEvent s e) := by
  unfold State.raiseEvent
  (repeat' (first | (with_reducible refine offClock_of ?_; exact .inl (by decide)) | (with_reducible assumption) | (with_reducible apply clock_ite) | (with_reducible apply clock_bump) | (fail_if_no_progress with_reducible apply clock_mk)))

theorem clock_raise {s₀ : State} {s : State} {u : Unit'} {type : Nat} {fields : List (Nat × Nat)} (hk : SameClock s₀ s) : SameClock s₀ (State.raise s u type fields) := by
  unfold State.raise
  (repeat' (first | (with_reducible assumption) | (with_reducible apply clock_raiseEvent)))

theorem clock_misuse {s₀ : State} {s : State} {c : Nat} {kind : Nat} (hk : SameClock s₀ s) : SameClock s₀ (State.misuse s c kind) := by
  unfold State.misuse
  (repeat' (first | (with_reducible refine offClock_of ?_; exact .inl (by decide)) | (intro) | (with_reducible assumption) | (with_reducible apply clock_put) | (with_reducible apply clock_oncePerTick) | (with_reducible apply clock_raise)))

theorem clock_setCell {s₀ : State} {s : State} {c : Nat} {x : Cell} (hk : SameClock s₀ s) : SameClock s₀ (State.setCell s c x) := by
  unfold State.setCell
  (repeat' (first | (with_reducible assumption) | (fail_if_no_progress with_reducible apply clock_mk)))

theorem clock_freeCell {s₀ : State} {s : State} {c : Nat} {h : Nat} {g : Nat} (hk : SameClock s₀ s) : SameClock s₀ (State.freeCell s c h g) := by
  unfold State.freeCell
  (repeat' (first | (with_reducible refine offClock_of ?_; exact .inl (by decide)) | (with_reducible assumption) | (with_reducible apply clock_ite) | (with_reducible apply clock_misuse) | (with_reducible apply clock_bump) | (with_reducible apply clock_put) | (with_reducible apply clock_setCell)))

theorem clock_setFrame {s₀ : State} {s : State} {h : Nat} {f : Frame} (hk : SameClock s₀ s) : SameClock s₀ (State.setFrame s h f) := by
  unfold State.setFrame
  (repeat' (first | (with_reducible assumption) | (fail_if_no_progress with_reducible apply clock_mk)))

theorem clock_trimFrame {s₀ : State} {s : State} {h : Nat} (hk : SameClock s₀ s) : SameClock s₀ (State.trimFrame s h) := by
  unfold State.trimFrame
  (repeat' (first | (intro) | (with_reducible assumption) | (with_reducible apply clock_ite) | (with_reducible apply clock_poolGive) | (with_reducible apply clock_freeCell) | (with_reducible apply clock_setFrame) | (with_reducible apply clock_foldl) | (split)))

theorem clock_trimFrames {s₀ : State} {s : State} (hk : SameClock s₀ s) : SameClock s₀ (State.trimFrames s) := by
  unfold State.trimFrames
  (repeat' (first | (intro) | (with_reducible assumption) | (with_reducible apply clock_trimFrame) | (with_reducible apply clock_foldl)))

theorem clock_raiseFor {s₀ : State} {s : State} {u : Unit'} {type : Nat} {f : Nat} {fields : List (Nat × Nat)} (hk : SameClock s₀ s) : SameClock s₀ (State.raiseFor s u type f fields) := by
  unfold State.raiseFor
  (repeat' (first | (with_reducible assumption) | (with_reducible apply clock_raiseEvent)))

theorem clock_releaseCopy {s₀ : State} {s : State} {h : Nat} (hk : SameClock s₀ s) : SameClock s₀ (State.releaseCopy s h) := by
  unfold State.releaseCopy
  (repeat' (first | (intro) | (with_reducible assumption) | (with_reducible apply clock_ite) | (with_reducible apply clock_setFrame) | (with_reducible apply clock_poolGive) | (with_reducible apply clock_freeCell) | (fail_if_no_progress with_reducible apply clock_mk) | (with_reducible apply clock_foldl) | (split)))

theorem clock_releaseMaybe {s₀ : State} {s : State} {h : Option Nat} (hk : SameClock s₀ s) : SameClock s₀ (State.releaseMaybe s h) := by
  unfold State.releaseMaybe
  (repeat' (first | (with_reducible assumption) | (with_reducible apply clock_releaseCopy) | (split)))

theorem clock_dropCell {s₀ : State} {s : State} {h : Option Nat} {c : Option (Nat × Nat)} (hk : SameClock s₀ s) : SameClock s₀ (State.dropCell s h c) := by
  unfold State.dropCell
  (repeat' (first | (intro) | (with_reducible assumption) | (with_reducible apply clock_setFrame) | (with_reducible apply clock_poolGive) | (with_reducible apply clock_freeCell) | (with_reducible apply clock_foldl) | (split)))

theorem clock_releaseWith {s₀ : State} {s : State} {h : Option Nat} {c : Option (Nat × Nat)} (hk : SameClock s₀ s) : SameClock s₀ (State.releaseWith s h c) := by
  unfold State.releaseWith
  (repeat' (first | (with_reducible assumption) | (with_reducible apply clock_releaseMaybe) | (with_reducible apply clock_dropCell)))

theorem clock_trackGive {s₀ : State} {s : State} (hk : SameClock s₀ s) : SameClock s₀ (State.trackGive s) := by
  unfold State.trackGive
  (repeat' (first | (with_reducible refine offClock_of ?_; exact .inr (by decide)) | (with_reducible assumption) | (with_reducible apply clock_put)))

theorem clock_setRing {s₀ : State} {s : State} {r : Nat} {x : RingRt} (hk : SameClock s₀ s) : SameClock s₀ (State.setRing s r x) := by
  unfold State.setRing
  (repeat' (first | (with_reducible assumption) | (fail_if_no_progress with_reducible apply clock_mk)))

theorem clock_setCommands {s₀ : State} {s : State} {l : List StorCmd} (hk : SameClock s₀ s) : SameClock s₀ (State.setCommands s l) := by
  unfold State.setCommands
  (repeat' (first | (with_reducible assumption) | (fail_if_no_progress with_reducible apply clock_mk)))

theorem clock_completeEntry {s₀ : State} {s : State} {r : Nat} {q : Nat} {status : Nat} {dw0 : Nat} {bytes : Nat} (hk : SameClock s₀ s) : SameClock s₀ (State.completeEntry s r q status dw0 bytes) := by
  unfold State.completeEntry
  (repeat' (first | (with_reducible refine offClock_of ?_; exact .inl (by decide)) | (intro) | (with_reducible assumption) | (with_reducible apply clock_ite) | (with_reducible apply clock_when) | (with_reducible apply clock_setRing) | (with_reducible apply clock_trackGive) | (with_reducible apply clock_bump)))

theorem clock_finish {s₀ : State} {s : State} {c : StorCmd} {status : Nat} {dw0 : Nat} (hk : SameClock s₀ s) : SameClock s₀ (State.finish s c status dw0) := by
  unfold State.finish
  (repeat' (first | (with_reducible assumption) | (with_reducible apply clock_ite) | (with_reducible apply clock_setCommands) | (with_reducible apply clock_completeEntry)))

theorem clock_sendHost {s₀ : State} {s : State} {o : Out} (hk : SameClock s₀ s) : SameClock s₀ (State.sendHost s o) := by
  unfold State.sendHost
  (repeat' (first | (with_reducible assumption) | (with_reducible apply clock_emit) | (fail_if_no_progress with_reducible apply clock_mk)))

theorem clock_payDebt {s₀ : State} {s : State} {d : Option (Nat × Bool × Nat)} (hk : SameClock s₀ s) : SameClock s₀ (State.payDebt s d) := by
  unfold State.payDebt
  (repeat' (first | (with_reducible assumption) | (with_reducible apply clock_settle) | (with_reducible apply clock_setLevel) | (dsimp -zeta only) | (split)))

theorem clock_newHead {s₀ : State} {s : State} {p : Nat} {c : Nat} {old : Option Queued} (hk : SameClock s₀ s) : SameClock s₀ (State.newHead s p c old) := by
  unfold State.newHead
  (repeat' (first | (with_reducible assumption) | (with_reducible apply clock_ite) | (fail_if_no_progress with_reducible apply clock_mk) | (split)))

theorem clock_dropQueued {s₀ : State} {s : State} {q : Queued} (hk : SameClock s₀ s) : SameClock s₀ (State.dropQueued s q) := by
  unfold State.dropQueued
  (repeat' (first | (with_reducible assumption) | (with_reducible apply clock_settle) | (with_reducible apply clock_releaseCopy) | (with_reducible apply clock_payDebt) | (with_reducible apply clock_newHead) | (fail_if_no_progress with_reducible apply clock_mk)))

theorem clock_evictNewest {s₀ : State} {s : State} {d : Nat} {c : Nat} (hk : SameClock s₀ s) : SameClockM s₀ (State.evictNewest s d c) := by
  unfold State.evictNewest
  split
  · cases (s.hostQueue c).getLast? with
    | none => exact clockM_none
    | some w => exact clockM_some (clock_releaseWith (clock_mk hk))
  · cases newestOf (s.queueOf d c) with
    | none => exact clockM_none
    | some q => exact clockM_some (clock_dropQueued hk)
theorem clock_evictNewest_eq {s₀ : State} {s : State} {d : Nat} {c : Nat} {rt} (he : State.evictNewest s d c = some rt) (hk : SameClock s₀ s) : SameClock s₀ rt :=
  (clock_evictNewest hk).of _ he

theorem clock_pushOut {s₀ : State} {s : State} {c : Nat} {k : Nat} {a3 : Nat} (hk : SameClock s₀ s) : SameClock s₀ (State.pushOut s c k a3) := by
  induction a3 generalizing s c k with
  | zero => unfold State.pushOut; (repeat' (first | (with_reducible refine offClock_of ?_; exact .inl (by decide)) | (with_reducible assumption) | (with_reducible apply clock_ite) | (with_reducible apply clock_evictNewest_eq (by assumption)) | (with_reducible apply clock_bump) | (split)))
  | succ n ih => unfold State.pushOut; (repeat' (first | (with_reducible apply ih) | (with_reducible refine offClock_of ?_; exact .inl (by decide)) | (with_reducible assumption) | (with_reducible apply clock_ite) | (with_reducible apply clock_evictNewest_eq (by assumption)) | (with_reducible apply clock_bump) | (split)))

theorem clock_admitHead {s₀ : State} {s : State} {qs : List (Nat × Nat)} {c : Nat} {k : Nat} {charged : List Nat} (hk : SameClock s₀ s) :
    SameClock s₀ (State.admitHead s qs c k charged).2 := by
  have hd : ∀ t, SameClock s₀ t → SameClock s₀ (t.bump (if c = 8 then Reg.FPU_MEDIA_NOCELL else Reg.FPU_TAIL_DROP)) := by
    intro t h; split <;> exact clock_bump h (.inl (by decide))
  unfold State.admitHead
  extract_lets -underBinder +onlyGivenNames u0
  have hk : SameClock s₀ u0 := clock_trimFrames hk
  clear_value u0
  have hp := clock_pushOut (c := c) (k := k) (a3 := if c = 8 then 16 else 4) hk
  by_cases h1 : (charged.any fun v => !u0.poolRoom v 6 k) = true
  · rw [if_pos h1]; exact clock_bump (f := Reg.TTU_CELL_DROP) hk (.inl (by decide))
  rw [if_neg h1]
  by_cases h2 : (c < 8 && qs.any fun q => decide (u0.classMax q.2 < u0.destCells q.1 q.2 + k)) = true
  · rw [if_pos h2]; exact clock_bump (f := Reg.FPU_TAIL_DROP) hk (.inl (by decide))
  rw [if_neg h2]
  dsimp only
  generalize u0.pushOut c k (if c = 8 then 16 else 4) = u at hp ⊢
  by_cases h3 : u.freeCount < k
  · rw [if_pos h3]; exact hd _ hp
  rw [if_neg h3]
  cases u.newHandle with
  | none => exact hd _ hp
  | some h => exact hp
theorem clock_admitHead_eq {s₀ : State} {s : State} {qs : List (Nat × Nat)} {c : Nat} {k : Nat} {charged : List Nat} {ra rt} (he : State.admitHead s qs c k charged = (ra, rt)) (hk : SameClock s₀ s) : SameClock s₀ rt := by
  have := clock_admitHead (s := s) (qs := qs) (c := c) (k := k) (charged := charged) hk; rw [he] at this; exact this

theorem clock_setFabricCredit {s₀ : State} {s : State} {k : Nat} {n : Nat} (hk : SameClock s₀ s) : SameClock s₀ (State.setFabricCredit s k n) := by
  unfold State.setFabricCredit
  (repeat' (first | (with_reducible assumption) | (fail_if_no_progress with_reducible apply clock_mk)))

theorem clock_giveCredit {s₀ : State} {s : State} {p : Nat} {d : Nat} (hk : SameClock s₀ s) : SameClock s₀ (State.giveCredit s p d) := by
  unfold State.giveCredit
  (repeat' (first | (with_reducible assumption) | (with_reducible apply clock_setFabricCredit)))

theorem clock_crossMedia {s₀ : State} {s : State} (hk : SameClock s₀ s) : SameClock s₀ (State.crossMedia s) := by
  unfold State.crossMedia
  (repeat' (first | (intro) | (with_reducible assumption) | (with_reducible apply clock_giveCredit) | (fail_if_no_progress with_reducible apply clock_mk) | (with_reducible apply clock_foldl)))

theorem clock_freeFrame {s₀ : State} {s : State} {h : Nat} (hk : SameClock s₀ s) : SameClock s₀ (State.freeFrame s h) := by
  unfold State.freeFrame
  (repeat' (first | (with_reducible assumption) | (with_reducible apply clock_releaseCopy) | (with_reducible apply clock_setFrame) | (split)))

theorem clock_takeCells {s₀ : State} {s : State} {h : Nat} {k : Nat} (hk : SameClock s₀ s) : SameClock s₀ (State.takeCells s h k).2 := by
  unfold State.takeCells
  (repeat' (first | (with_reducible refine offClock_of ?_; exact .inl (by decide)) | (intro) | (with_reducible assumption) | (with_reducible apply clock_setCell) | (with_reducible apply clock_put) | (with_reducible apply clock_foldl)))
theorem clock_takeCells_eq {s₀ : State} {s : State} {h : Nat} {k : Nat} {ra rt} (he : State.takeCells s h k = (ra, rt)) (hk : SameClock s₀ s) : SameClock s₀ rt := by
  have := clock_takeCells (s := s) (h := h) (k := k) hk; rw [he] at this; exact this

theorem clock_poolTake {s₀ : State} {s : State} {f : Nat} {k : Nat} {n : Nat} (hk : SameClock s₀ s) : SameClock s₀ (State.poolTake s f k n) := by
  unfold State.poolTake
  (repeat' (first | (with_reducible refine offClock_of ?_; exact .inl (Nat.lt_add_right _ (Nat.lt_add_right _ (by decide)))) | (with_reducible assumption) | (with_reducible apply clock_put)))

theorem clock_storeFrame {s₀ : State} {s : State} {h : Nat} {f : Frame} (hk : SameClock s₀ s) : SameClock s₀ (State.storeFrame s h f) := by
  unfold State.storeFrame
  (repeat' (first | (intro) | (with_reducible assumption) | (with_reducible apply clock_takeCells) | (with_reducible apply clock_poolTake) | (with_reducible apply clock_trimFrame) | (with_reducible apply clock_setFrame) | (with_reducible apply clock_foldl)))

theorem clock_bookRepaired {s₀ : State} {s : State} {book : Nat} (hk : SameClock s₀ s) : SameClock s₀ (State.bookRepaired s book) := by
  unfold State.bookRepaired
  (repeat' (first | (with_reducible assumption) | (with_reducible apply clock_ite) | (exact clock_mk_sup (by with_reducible assumption) rfl)))

theorem clock_trackPulse {s₀ : State} {s : State} (hk : SameClock s₀ s) : SameClock s₀ (State.trackPulse s) := by
  unfold State.trackPulse
  (repeat' (first | (with_reducible refine offClock_of ?_; exact .inr (by decide)) | (intro) | (with_reducible assumption) | (with_reducible apply clock_when) | (with_reducible apply clock_put)))

theorem clock_withWalks {s₀ : State} {s : State} {w : List Walk8} {run : State → State} (hk : SameClock s₀ s) (hk_run : ∀ (x0 : State), SameClock s₀ x0 → SameClock s₀ (run x0)) : SameClock s₀ (State.withWalks s w run) := by
  unfold State.withWalks
  (repeat' (first | (with_reducible assumption) | (with_reducible apply hk_run) | (fail_if_no_progress with_reducible apply clock_mk)))

theorem clock_dmaOpen {s₀ : State} {s : State} {func : Nat} (hk : SameClock s₀ s) : SameClock s₀ (State.dmaOpen s func).2 := by
  unfold State.dmaOpen
  (repeat' (first | (with_reducible refine offClock_of ?_; exact .inl (by decide)) | (with_reducible assumption) | (with_reducible apply clock_bump) | (split)))
theorem clock_dmaOpen_eq {s₀ : State} {s : State} {func : Nat} {ra rt} (he : State.dmaOpen s func = (ra, rt)) (hk : SameClock s₀ s) : SameClock s₀ rt := by
  have := clock_dmaOpen (s := s) (func := func) hk; rw [he] at this; exact this

theorem clock_transFault {s₀ : State} {s : State} {func : Nat} {addr : Nat} {k : Nat} (hk : SameClock s₀ s) : SameClock s₀ (State.transFault s func addr k) := by
  unfold State.transFault
  (repeat' (first | (with_reducible refine offClock_of ?_; exact .inl (by decide)) | (with_reducible refine offClock_of ?_; exact .inl (Nat.lt_add_right _ (by decide))) | (intro) | (with_reducible assumption) | (with_reducible apply clock_when) | (with_reducible apply clock_bump) | (with_reducible apply clock_bumpSat) | (with_reducible apply clock_put) | (with_reducible apply clock_oncePerTick) | (with_reducible apply clock_raiseFor)))

theorem clock_tlbLookup {s₀ : State} {s : State} {func : Nat} {addr : Nat} (hk : SameClock s₀ s) : SameClock s₀ (State.tlbLookup s func addr).2 := by
  unfold State.tlbLookup
  (repeat' (first | (with_reducible assumption) | (with_reducible apply clock_takeFree) | (fail_if_no_progress with_reducible apply clock_mk) | (extract_lets -underBinder +onlyGivenNames sx; clear_value sx) | (dsimp -zeta only) | (split)))
theorem clock_tlbLookup_eq {s₀ : State} {s : State} {func : Nat} {addr : Nat} {ra rt} (he : State.tlbLookup s func addr = (ra, rt)) (hk : SameClock s₀ s) : SameClock s₀ rt := by
  have := clock_tlbLookup (s := s) (func := func) (addr := addr) hk; rw [he] at this; exact this

theorem clock_readAtOnce {s₀ : State} {s : State} {func : Nat} {host : Nat} (hk : SameClock s₀ s) : SameClock s₀ (State.readAtOnce s func host) := by
  unfold State.readAtOnce
  (repeat' (first | (with_reducible refine offClock_of ?_; exact .inl (by decide)) | (with_reducible assumption) | (with_reducible apply clock_sendHost) | (with_reducible apply clock_put)))

theorem clock_readTable {s₀ : State} {s : State} {func : Nat} {host : Nat} (hk : SameClock s₀ s) : SameClock s₀ (State.readTable s func host).2 := by
  unfold State.readTable
  (repeat' (first | (with_reducible assumption) | (with_reducible apply clock_readAtOnce) | (fail_if_no_progress with_reducible apply clock_mk)))
theorem clock_readTable_eq {s₀ : State} {s : State} {func : Nat} {host : Nat} {ra rt} (he : State.readTable s func host = (ra, rt)) (hk : SameClock s₀ s) : SameClock s₀ rt := by
  have := clock_readTable (s := s) (func := func) (host := host) hk; rw [he] at this; exact this

theorem clock_tableEntry {s₀ : State} {s : State} {func : Nat} {host : Nat} (hk : SameClock s₀ s) : SameClock s₀ (State.tableEntry s func host).2 := by
  unfold State.tableEntry
  (repeat' (first | (with_reducible assumption) | (with_reducible apply clock_readTable) | (with_reducible apply clock_takeFree) | (fail_if_no_progress with_reducible apply clock_mk) | (extract_lets -underBinder +onlyGivenNames sx; clear_value sx) | (dsimp -zeta only) | (split)))
theorem clock_tableEntry_eq {s₀ : State} {s : State} {func : Nat} {host : Nat} {ra rt} (he : State.tableEntry s func host = (ra, rt)) (hk : SameClock s₀ s) : SameClock s₀ rt := by
  have := clock_tableEntry (s := s) (func := func) (host := host) hk; rw [he] at this; exact this

theorem clock_cacheTable {s₀ : State} {s : State} {func : Nat} {host : Nat} {e : Nat} (hk : SameClock s₀ s) : SameClock s₀ (State.cacheTable s func host e) := by
  unfold State.cacheTable
  (repeat' (first | (with_reducible assumption) | (fail_if_no_progress with_reducible apply clock_mk)))

theorem clock_walkTables {s₀ : State} {func : Nat} {addr : Nat} {a2 : Nat} {a3 : Nat} {a4 : State} (hk : SameClock s₀ a4) : SameClock s₀ (walkTables func addr a2 a3 a4).2 := by
  induction a2 generalizing a3 a4 with
  | zero => exact hk
  | succ n ih =>
    unfold walkTables
    extract_lets log2 host
    split
    rename_i e s' he
    have h' : SameClock s₀ s' := clock_tableEntry_eq he hk
    split
    · exact h'
    · extract_lets e2 leaf
      (repeat' split) <;> first | exact h' | exact ih (clock_cacheTable h')
theorem clock_walkTables_eq {s₀ : State} {func : Nat} {addr : Nat} {a2 : Nat} {a3 : Nat} {a4 : State} {ra rt} (he : walkTables func addr a2 a3 a4 = (ra, rt)) (hk : SameClock s₀ a4) : SameClock s₀ rt := by
  have := clock_walkTables (func := func) (addr := addr) (a2 := a2) (a3 := a3) (a4 := a4) hk; rw [he] at this; exact this

theorem clock_cacheLeaf {s₀ : State} {s : State} {e : TlbEntry} (hk : SameClock s₀ s) : SameClock s₀ (State.cacheLeaf s e) := by
  unfold State.cacheLeaf
  (repeat' (first | (with_reducible assumption) | (fail_if_no_progress with_reducible apply clock_mk)))

theorem clock_translate {s₀ : State} {s : State} {func : Nat} {addr : Nat} {len : Nat} {write : Bool} (hk : SameClock s₀ s) : SameClock s₀ (State.translate s func addr len write).2 := by
  unfold State.translate
  (repeat' (first | (with_reducible refine offClock_of ?_; exact .inl (by decide)) | (intro) | (with_reducible assumption) | (with_reducible apply clock_transFault) | (with_reducible apply clock_tlbLookup_eq (by assumption)) | (with_reducible apply clock_bump) | (with_reducible apply clock_walkTables) | (with_reducible apply clock_trackPulse) | (with_reducible apply clock_cacheLeaf) | (fail_if_no_progress with_reducible apply clock_mk) | (extract_lets -underBinder +onlyGivenNames sx; refine (have kx : SameClock s₀ sx := ?_; ?_); dsimp -zeta only [sx]; rotate_left; clear_value sx; rotate_right) | (extract_lets -underBinder +onlyGivenNames sx; refine (have kx : ∀ a b, SameClock s₀ a → SameClock s₀ (sx a b).2 := ?_; ?_); dsimp -zeta only [sx]; rotate_left; clear_value sx; rotate_right) | (extract_lets -underBinder +onlyGivenNames sx; clear_value sx) | (with_reducible apply_assumption (exfalso := false) (symm := false)) | (dsimp -zeta only) | (split)))
theorem clock_translate_eq {s₀ : State} {s : State} {func : Nat} {addr : Nat} {len : Nat} {write : Bool} {ra rt} (he : State.translate s func addr len write = (ra, rt)) (hk : SameClock s₀ s) : SameClock s₀ rt := by
  have := clock_translate (s := s) (func := func) (addr := addr) (len := len) (write := write) hk; rw [he] at this; exact this

theorem clock_sendLink {s₀ : State} {s : State} {frame : Nat → Out} (hk : SameClock s₀ s) : SameClock s₀ (State.sendLink s frame) := by
  unfold State.sendLink
  (repeat' (first | (with_reducible assumption) | (with_reducible apply clock_emit) | (fail_if_no_progress with_reducible apply clock_mk)))

theorem clock_refreshLayered {s₀ : State} {s : State} (hk : SameClock s₀ s) : SameClock s₀ (State.refreshLayered s) := by
  unfold State.refreshLayered
  (repeat' (first | (with_reducible refine offClock_of ?_; exact .inl (by decide)) | (with_reducible assumption) | (with_reducible apply clock_put)))

theorem clock_rebook {s₀ : State} {s : State} (hk : SameClock s₀ s) : SameClock s₀ (State.rebook s) := by
  unfold State.rebook
  (repeat' (first | (with_reducible refine offClock_of ?_; exact .inl (Nat.lt_add_right _ (by decide))) | (intro) | (with_reducible assumption) | (with_reducible apply clock_put) | (fail_if_no_progress with_reducible apply clock_mk) | (with_reducible apply clock_foldl)))

theorem clock_setHedge {s₀ : State} {s : State} {st : Nat} (hk : SameClock s₀ s) : SameClock s₀ (State.setHedge s st) := by
  unfold State.setHedge
  (repeat' (first | (with_reducible refine offClock_of ?_; exact .inl (by decide)) | (with_reducible assumption) | (with_reducible apply clock_ite) | (with_reducible apply clock_refreshLayered) | (with_reducible apply clock_put) | (with_reducible apply clock_rebook) | (fail_if_no_progress with_reducible apply clock_mk)))

theorem clock_keepEpoch {s₀ : State} {s : State} (hk : SameClock s₀ s) : SameClock s₀ (State.keepEpoch s) := by
  unfold State.keepEpoch
  (repeat' (first | (with_reducible refine offClock_of ?_; exact .inl (by decide)) | (with_reducible assumption) | (with_reducible apply clock_put)))

theorem clock_fence {s₀ : State} {s : State} {cause : Nat} (hk : SameClock s₀ s) : SameClock s₀ (State.fence s cause) := by
  unfold State.fence
  (repeat' (first | (with_reducible refine offClock_of ?_; exact .inl (by decide)) | (intro) | (with_reducible assumption) | (with_reducible apply clock_ite) | (with_reducible apply clock_when) | (with_reducible apply clock_keepEpoch) | (with_reducible apply clock_refreshLayered) | (with_reducible apply clock_put) | (with_reducible apply clock_raise) | (with_reducible apply clock_rebook) | (fail_if_no_progress with_reducible apply clock_mk)))

theorem clock_shutDrive {s₀ : State} {s : State} (hk : SameClock s₀ s) : SameClock s₀ (State.shutDrive s) := by
  unfold State.shutDrive
  (repeat' (first | (with_reducible assumption) | (with_reducible apply clock_emit) | (fail_if_no_progress with_reducible apply clock_mk)))

theorem clock_shutdownWhenIdle {s₀ : State} {s : State} (hk : SameClock s₀ s) : SameClock s₀ (State.shutdownWhenIdle s) := by
  unfold State.shutdownWhenIdle
  (repeat' (first | (with_reducible assumption) | (with_reducible apply clock_ite) | (with_reducible apply clock_shutDrive)))

theorem clock_fault {s₀ : State} {s : State} {u : Nat} {code : Nat} (hk : SameClock s₀ s) : SameClock s₀ (State.fault s u code) := by
  unfold State.fault
  (repeat' (first | (with_reducible exact offClock_unitFault _) | (with_reducible assumption) | (with_reducible apply clock_ite) | (with_reducible apply clock_raise) | (with_reducible apply clock_hlog) | (with_reducible apply clock_put)))

theorem clock_fallBack {s₀ : State} {s : State} (hk : SameClock s₀ s) : SameClock s₀ (State.fallBack s) := by
  unfold State.fallBack
  (repeat' (first | (with_reducible assumption) | (with_reducible apply clock_setHedge) | (fail_if_no_progress with_reducible apply clock_mk)))

theorem clock_refreshOverride {s₀ : State} {s : State} {src : OvrSource} {within : Bool} (hk : SameClock s₀ s) : SameClock s₀ (State.refreshOverride s src within) := by
  unfold State.refreshOverride
  (repeat' (first | (with_reducible refine offClock_of ?_; exact .inl (by decide)) | (intro) | (with_reducible assumption) | (with_reducible apply clock_ite) | (with_reducible apply clock_when) | (with_reducible apply clock_raise) | (with_reducible apply clock_bump) | (with_reducible apply clock_put) | (fail_if_no_progress with_reducible apply clock_mk)))

theorem clock_countAges {s₀ : State} {s : State} (hk : SameClock s₀ s) : SameClock s₀ (State.countAges s) := by
  unfold State.countAges
  (repeat' (first | (with_reducible refine offClock_of ?_; exact .inr (by decide)) | (with_reducible apply clock_put) | (exact clock_mk_sup (by with_reducible assumption) rfl)))

theorem clock_setXts {s₀ : State} {s : State} {x : StorCmd} {run : Option XtsRun} (hk : SameClock s₀ s) : SameClock s₀ (State.setXts s x run) := by
  unfold State.setXts
  (repeat' (first | (with_reducible assumption) | (with_reducible apply clock_setCommands)))

theorem clock_moveBytes {s₀ : State} {s : State} {c : StorCmd} {n : Nat} (hk : SameClock s₀ s) : SameClock s₀ (State.moveBytes s c n) := by
  unfold State.moveBytes
  (repeat' (first | (with_reducible assumption) | (with_reducible apply clock_setCommands)))

theorem clock_markDirty {s₀ : State} {s : State} {func : Nat} {addr : Nat} (hk : SameClock s₀ s) : SameClock s₀ (State.markDirty s func addr) := by
  unfold State.markDirty
  (repeat' (first | (with_reducible refine offClock_of ?_; exact .inl (by decide)) | (with_reducible assumption) | (with_reducible apply clock_ite) | (with_reducible apply clock_bump) | (fail_if_no_progress with_reducible apply clock_mk)))

theorem clock_writePieces {s₀ : State} {s : State} {relaxed : Bool} {func : Nat} {addr : Nat} {l : Bytes} {a5 : Nat} (hk : SameClock s₀ s) : SameClock s₀ (State.writePieces s relaxed func addr l a5).2 := by
  induction a5 generalizing s relaxed func addr l with
  | zero => unfold State.writePieces; (repeat' (first | (with_reducible assumption) | (with_reducible apply clock_translate_eq (by assumption)) | (with_reducible apply clock_sendHost) | (with_reducible apply clock_markDirty) | (extract_lets -underBinder +onlyGivenNames sx; clear_value sx) | (dsimp -zeta only) | (split)))
  | succ n ih => unfold State.writePieces; (repeat' (first | (with_reducible apply ih) | (with_reducible refine clock_pair (ih ?_) (by with_reducible assumption)) | (with_reducible assumption) | (with_reducible apply clock_translate_eq (by assumption)) | (with_reducible apply clock_sendHost) | (with_reducible apply clock_markDirty) | (extract_lets -underBinder +onlyGivenNames sx; clear_value sx) | (dsimp -zeta only) | (split)))
theorem clock_writePieces_eq {s₀ : State} {s : State} {relaxed : Bool} {func : Nat} {addr : Nat} {l : Bytes} {a5 : Nat} {ra rt} (he : State.writePieces s relaxed func addr l a5 = (ra, rt)) (hk : SameClock s₀ s) : SameClock s₀ rt := by
  have := clock_writePieces (s := s) (relaxed := relaxed) (func := func) (addr := addr) (l := l) (a5 := a5) hk; rw [he] at this; exact this

theorem clock_writeMark {s₀ : State} {s : State} {x : Nat × Bool × Nat × Nat} (hk : SameClock s₀ s) : SameClock s₀ (State.writeMark s x) := by
  unfold State.writeMark
  (repeat' (first | (with_reducible assumption) | (with_reducible apply clock_dmaOpen_eq (by assumption)) | (with_reducible apply clock_translate_eq (by assumption)) | (with_reducible apply clock_readAtOnce) | (with_reducible apply clock_sendHost) | (extract_lets -underBinder +onlyGivenNames sx; clear_value sx) | (split)))

theorem clock_spillMarks {s₀ : State} {s : State} (hk : SameClock s₀ s) : SameClock s₀ (State.spillMarks s) := by
  unfold State.spillMarks
  (repeat' (first | (intro) | (with_reducible assumption) | (with_reducible apply clock_ite) | (with_reducible apply clock_writeMark) | (fail_if_no_progress with_reducible apply clock_mk) | (with_reducible apply clock_foldl)))

theorem clock_dmaWriteBy {s₀ : State} {s : State} {relaxed : Bool} {func : Nat} {addr : Nat} {l : Bytes} (hk : SameClock s₀ s) : SameClock s₀ (State.dmaWriteBy s relaxed func addr l).2 := by
  unfold State.dmaWriteBy
  (repeat' (first | (with_reducible assumption) | (with_reducible apply clock_dmaOpen_eq (by assumption)) | (with_reducible apply clock_writePieces) | (with_reducible apply clock_spillMarks) | (dsimp -zeta only) | (split)))
theorem clock_dmaWriteBy_eq {s₀ : State} {s : State} {relaxed : Bool} {func : Nat} {addr : Nat} {l : Bytes} {ra rt} (he : State.dmaWriteBy s relaxed func addr l = (ra, rt)) (hk : SameClock s₀ s) : SameClock s₀ rt := by
  have := clock_dmaWriteBy (s := s) (relaxed := relaxed) (func := func) (addr := addr) (l := l) hk; rw [he] at this; exact this

theorem clock_dmaWrite {s₀ : State} {s : State} {func : Nat} {addr : Nat} {l : Bytes} (hk : SameClock s₀ s) : SameClock s₀ (State.dmaWrite s func addr l).2 := by
  unfold State.dmaWrite
  (repeat' (first | (with_reducible assumption) | (with_reducible apply clock_dmaWriteBy)))
theorem clock_dmaWrite_eq {s₀ : State} {s : State} {func : Nat} {addr : Nat} {l : Bytes} {ra rt} (he : State.dmaWrite s func addr l = (ra, rt)) (hk : SameClock s₀ s) : SameClock s₀ rt := by
  have := clock_dmaWrite (s := s) (func := func) (addr := addr) (l := l) hk; rw [he] at this; exact this

theorem clock_readPart {s₀ : State} {s : State} {x : StorCmd} {l : Bytes} (hk : SameClock s₀ s) : SameClock s₀ (State.readPart s x l).2 := by
  unfold State.readPart
  (repeat' (first | (with_reducible assumption) | (with_reducible apply clock_dmaWrite) | (with_reducible apply clock_moveBytes)))
theorem clock_readPart_eq {s₀ : State} {s : State} {x : StorCmd} {l : Bytes} {ra rt} (he : State.readPart s x l = (ra, rt)) (hk : SameClock s₀ s) : SameClock s₀ rt := by
  have := clock_readPart (s := s) (x := x) (l := l) hk; rw [he] at this; exact this

theorem clock_xtsRest {s₀ : State} {s : State} {x : StorCmd} {run : XtsRun} (hk : SameClock s₀ s) : SameClock s₀ (State.xtsRest s x run) := by
  unfold State.xtsRest
  (repeat' (first | (with_reducible refine offClock_of ?_; exact .inl (by decide)) | (with_reducible assumption) | (with_reducible apply clock_ite) | (with_reducible apply clock_shutdownWhenIdle) | (with_reducible apply clock_finish) | (with_reducible apply clock_bump) | (with_reducible apply clock_trackPulse) | (with_reducible apply clock_emit) | (with_reducible apply clock_setXts) | (with_reducible apply clock_moveBytes) | (with_reducible apply clock_readPart) | (dsimp -zeta only) | (split)))

theorem clock_xtsRun {s₀ : State} {s : State} (hk : SameClock s₀ s) : SameClock s₀ (State.xtsRun s) := by
  unfold State.xtsRun
  (repeat' (first | (intro) | (with_reducible assumption) | (with_reducible apply clock_xtsRest) | (with_reducible apply clock_foldl) | (split)))

theorem clock_switchGates {s₀ : State} {s : State} (hk : SameClock s₀ s) : SameClock s₀ (State.switchGates s) := by
  unfold State.switchGates
  split
  · split
    · exact clock_wrWords (clock_settle hk) (.inl (by decide))
    · exact hk
  · exact hk

theorem clock_auditFail {s₀ : State} {s : State} {book : Nat} {diff : Int} (hk : SameClock s₀ s) : SameClock s₀ (State.auditFail s book diff) := by
  unfold State.auditFail
  (repeat' (first | (with_reducible assumption) | (with_reducible apply clock_raise)))

theorem clock_bookAudit {s₀ : State} {s : State} {book : Nat} {u : Nat} {failed : Bool} {hasRepair : Bool} (hk : SameClock s₀ s) : SameClock s₀ (State.bookAudit s book u failed hasRepair) := by
  unfold State.bookAudit
  (repeat' (first | (intro) | (with_reducible assumption) | (with_reducible apply clock_when) | (with_reducible apply clock_fault) | (exact clock_mk_sup (by with_reducible assumption) rfl)))

theorem clock_auditBuffer {s₀ : State} {s : State} {lost : List Nat} {lostHandles : Nat} {credits : List (Nat × Nat)} (hk : SameClock s₀ s) : SameClock s₀ (State.auditBuffer s lost lostHandles credits) := by
  unfold State.auditBuffer
  (repeat' (first | (with_reducible refine offClock_of ?_; exact .inl (by decide)) | (intro) | (with_reducible assumption) | (with_reducible apply clock_ite) | (with_reducible apply clock_when) | (with_reducible apply clock_put) | (with_reducible apply clock_setCell) | (with_reducible apply clock_trimFrames) | (with_reducible apply clock_bump) | (with_reducible apply clock_auditFail) | (with_reducible apply clock_bookAudit) | (fail_if_no_progress with_reducible apply clock_mk) | (with_reducible apply clock_foldl)))

theorem clock_auditPools {s₀ : State} {s : State} (hk : SameClock s₀ s) : SameClock s₀ (State.auditPools s) := by
  unfold State.auditPools
  (repeat' (first | (with_reducible assumption) | (with_reducible apply clock_bookAudit)))

theorem clock_auditTracker {s₀ : State} {s : State} {lost : Nat} (hk : SameClock s₀ s) : SameClock s₀ (State.auditTracker s lost) := by
  unfold State.auditTracker
  (repeat' (first | (with_reducible refine offClock_of ?_; exact .inr (by decide)) | (intro) | (with_reducible assumption) | (with_reducible apply clock_when) | (with_reducible apply clock_raise) | (with_reducible apply clock_bump) | (with_reducible apply clock_bookAudit) | (with_reducible apply clock_bookRepaired) | (exact clock_mk_sup (by with_reducible assumption) rfl)))

theorem clock_auditHost {s₀ : State} {s : State} {lost : Nat} {credits : List (Nat × Nat)} (hk : SameClock s₀ s) : SameClock s₀ (State.auditHost s lost credits) := by
  unfold State.auditHost
  (repeat' (first | (with_reducible refine offClock_of ?_; exact .inl (by decide)) | (intro) | (with_reducible assumption) | (with_reducible apply clock_ite) | (with_reducible apply clock_when) | (with_reducible apply clock_put) | (with_reducible apply clock_bump) | (with_reducible apply clock_raise) | (with_reducible apply clock_bookAudit) | (with_reducible apply clock_bookRepaired) | (fail_if_no_progress with_reducible apply clock_mk) | (with_reducible apply clock_foldl)))

theorem clock_sendHeartbeat {s₀ : State} {s : State} {n : Nat} (hk : SameClock s₀ s) : SameClock s₀ (State.sendHeartbeat s n) := by
  unfold State.sendHeartbeat
  (repeat' (first | (with_reducible assumption) | (with_reducible apply clock_ite) | (with_reducible apply clock_sendLink)))

theorem clock_leaveFenced {s₀ : State} {s : State} (hk : SameClock s₀ s) : SameClock s₀ (State.leaveFenced s) := by
  unfold State.leaveFenced
  (repeat' (first | (with_reducible assumption) | (with_reducible apply clock_ite) | (with_reducible apply clock_fallBack) | (with_reducible apply clock_setHedge) | (with_reducible apply clock_fence) | (split)))

theorem clock_telemLost {s₀ : State} {s : State} (hk : SameClock s₀ s) : SameClock s₀ (State.telemLost s) := by
  unfold State.telemLost
  (repeat' (first | (with_reducible refine offClock_of ?_; exact .inl (by decide)) | (intro) | (with_reducible assumption) | (with_reducible apply clock_oncePerTick) | (with_reducible apply clock_bump) | (with_reducible apply clock_raise)))

theorem clock_telemOverflow {s₀ : State} {s : State} {slots : Nat} (hk : SameClock s₀ s) : SameClock s₀ (State.telemOverflow s slots) := by
  unfold State.telemOverflow
  (repeat' (first | (with_reducible refine offClock_of ?_; exact .inl (by decide)) | (intro) | (with_reducible assumption) | (with_reducible apply clock_ite) | (with_reducible apply clock_oncePerTick) | (with_reducible apply clock_put) | (with_reducible apply clock_bump) | (with_reducible apply clock_raise) | (fail_if_no_progress with_reducible apply clock_mk)))

theorem clock_telemWrite {s₀ : State} {s : State} {go : Bool} {addr : Nat} {l : Bytes} (hk : SameClock s₀ s) : SameClock s₀ (State.telemWrite s go addr l).2 := by
  unfold State.telemWrite
  (repeat' (first | (with_reducible assumption) | (with_reducible apply clock_dmaWrite) | (dsimp -zeta only) | (split)))
theorem clock_telemWrite_eq {s₀ : State} {s : State} {go : Bool} {addr : Nat} {l : Bytes} {ra rt} (he : State.telemWrite s go addr l = (ra, rt)) (hk : SameClock s₀ s) : SameClock s₀ rt := by
  have := clock_telemWrite (s := s) (go := go) (addr := addr) (l := l) hk; rw [he] at this; exact this

theorem clock_telemRecord {s₀ : State} {s : State} {n : Nat} {busy : Bool} (hk : SameClock s₀ s) : SameClock s₀ (State.telemRecord s n busy) := by
  unfold State.telemRecord
  (repeat' (first | (with_reducible refine offClock_of ?_; exact .inl (by decide)) | (intro) | (with_reducible assumption) | (with_reducible apply clock_ite) | (with_reducible apply clock_when) | (with_reducible apply clock_telemLost) | (with_reducible apply clock_telemOverflow) | (with_reducible apply clock_telemWrite) | (with_reducible apply clock_put) | (fail_if_no_progress with_reducible apply clock_mk)))

theorem clock_telemetry {s₀ : State} {s : State} {n : Nat} {i : TickInput} (hk : SameClock s₀ s) : SameClock s₀ (State.telemetry s n i) := by
  unfold State.telemetry
  (repeat' (first | (intro) | (with_reducible assumption) | (with_reducible apply clock_when) | (with_reducible apply clock_telemRecord) | (fail_if_no_progress with_reducible apply clock_mk)))

theorem clock_boundaryWrites {s₀ : State} {s : State} {n : Nat} {i : TickInput} (hk : SameClock s₀ s) : SameClock s₀ (State.boundaryWrites s n i) := by
  unfold State.boundaryWrites
  (repeat' (first | (intro) | (with_reducible assumption) | (with_reducible apply clock_when) | (with_reducible apply clock_withWalks) | (with_reducible apply clock_telemetry) | (with_reducible apply clock_xtsRun)))

theorem clock_overrideTick {s₀ : State} {s : State} (hk : SameClock s₀ s) : SameClock s₀ (State.overrideTick s) := by
  unfold State.overrideTick
  (repeat' (first | (with_reducible refine offClock_of ?_; exact .inl (by decide)) | (intro) | (with_reducible assumption) | (with_reducible apply clock_when) | (with_reducible apply clock_put) | (with_reducible apply clock_refreshOverride) | (fail_if_no_progress with_reducible apply clock_mk)))

theorem clock_dropRingCopies {s₀ : State} {s : State} (hk : SameClock s₀ s) : SameClock s₀ (State.dropRingCopies s) := by
  unfold State.dropRingCopies
  (repeat' (first | (intro) | (with_reducible assumption) | (with_reducible apply clock_releaseCopy) | (fail_if_no_progress with_reducible apply clock_mk) | (with_reducible apply clock_foldl)))

theorem clock_eccUncorr {s₀ : State} {s : State} {u : Nat} {memory : Nat} (hk : SameClock s₀ s) : SameClock s₀ (State.eccUncorr s u memory) := by
  unfold State.eccUncorr
  (repeat' (first | (with_reducible refine offClock_of ?_; exact .inr (by decide)) | (intro) | (with_reducible assumption) | (with_reducible apply clock_oncePerTick) | (with_reducible apply clock_hlog) | (with_reducible apply clock_bump) | (with_reducible apply clock_raise)))

theorem clock_storeOutput {s₀ : State} {s : State} {f : Nat} {copies : Nat} {a3 : List Bytes} {a4 : List Nat} (hk : SameClock s₀ s) : SameClock s₀ (State.storeOutput s f copies a3 a4).2 := by
  induction a3 generalizing s f copies a4 with
  | nil => unfold State.storeOutput; (repeat' (first | (intro) | (with_reducible assumption) | (with_reducible apply clock_admitHead_eq (by assumption)) | (with_reducible apply clock_freeFrame) | (with_reducible apply clock_storeFrame) | (with_reducible apply clock_foldl) | (extract_lets -underBinder +onlyGivenNames sx; clear_value sx) | (split)))
  | cons _ _ ih => unfold State.storeOutput; (repeat' (first | (with_reducible apply ih) | (with_reducible refine clock_pair (ih ?_) (by with_reducible assumption)) | (intro) | (with_reducible assumption) | (with_reducible apply clock_admitHead_eq (by assumption)) | (with_reducible apply clock_freeFrame) | (with_reducible apply clock_storeFrame) | (with_reducible apply clock_foldl) | (extract_lets -underBinder +onlyGivenNames sx; clear_value sx) | (split)))
theorem clock_storeOutput_eq {s₀ : State} {s : State} {f : Nat} {copies : Nat} {a3 : List Bytes} {a4 : List Nat} {ra rt} (he : State.storeOutput s f copies a3 a4 = (ra, rt)) (hk : SameClock s₀ s) : SameClock s₀ rt := by
  have := clock_storeOutput (s := s) (f := f) (copies := copies) (a3 := a3) (a4 := a4) hk; rw [he] at this; exact this

theorem clock_noteDigest {s₀ : State} {s : State} {f : Nat} {m : Nat} {heldIn : Bool} (hk : SameClock s₀ s) : SameClock s₀ (State.noteDigest s f m heldIn) := by
  unfold State.noteDigest
  (repeat' (first | (with_reducible assumption) | (with_reducible apply clock_ite) | (fail_if_no_progress with_reducible apply clock_mk)))

theorem clock_setRt {s₀ : State} {s : State} {f : Nat} {r : FlowRt} (hk : SameClock s₀ s) : SameClock s₀ (State.setRt s f r) := by
  unfold State.setRt
  (repeat' (first | (with_reducible assumption) | (fail_if_no_progress with_reducible apply clock_mk)))

theorem clock_flowStep {s₀ : State} {s : State} {f : Nat} {m : Nat} {tick : Option (List (List Nat))} {heldIn : Bool} (hk : SameClock s₀ s) : SameClock s₀ (State.flowStep s f m tick heldIn).2 := by
  unfold State.flowStep
  (repeat' (first | (with_reducible refine offClock_of ?_; exact .inl (Nat.lt_add_right _ (by decide))) | (intro) | (with_reducible assumption) | (with_reducible apply clock_when) | (with_reducible apply clock_noteDigest) | (with_reducible apply clock_setRt) | (with_reducible apply clock_bumpSat)))
theorem clock_flowStep_eq {s₀ : State} {s : State} {f : Nat} {m : Nat} {tick : Option (List (List Nat))} {heldIn : Bool} {ra rt} (he : State.flowStep s f m tick heldIn = (ra, rt)) (hk : SameClock s₀ s) : SameClock s₀ rt := by
  have := clock_flowStep (s := s) (f := f) (m := m) (tick := tick) (heldIn := heldIn) hk; rw [he] at this; exact this

theorem clock_addCopies {s₀ : State} {s : State} {l : List Copy} (hk : SameClock s₀ s) : SameClock s₀ (State.addCopies s l) := by
  unfold State.addCopies
  (repeat' (first | (with_reducible assumption) | (fail_if_no_progress with_reducible apply clock_mk)))

theorem clock_sendOutput {s₀ : State} {s : State} {f : Nat} {m : Nat} {tick : Option (List (List Nat))} {flags : Nat} {heldIn : Bool} (hk : SameClock s₀ s) : SameClock s₀ (State.sendOutput s f m tick flags heldIn) := by
  unfold State.sendOutput
  (repeat' (first | (with_reducible assumption) | (with_reducible apply clock_storeOutput) | (with_reducible apply clock_flowStep) | (with_reducible apply clock_addCopies) | (extract_lets -underBinder +onlyGivenNames sx; clear_value sx) | (dsimp -zeta only) | (split)))

theorem clock_termTick {s₀ : State} {s : State} {i : Nat} {n : Nat} {rate : Nat} {S : Nat} (hk : SameClock s₀ s) : SameClock s₀ (State.termTick s i n rate S).2 := by
  unfold State.termTick
  (repeat' (first | (intro) | (with_reducible assumption) | (fail_if_no_progress with_reducible apply clock_mk) | (extract_lets -underBinder +onlyGivenNames sx; refine (have kx : ∀ a, SameClock s₀ (sx a) := ?_; ?_); dsimp -zeta only [sx]; rotate_left; clear_value sx; rotate_right) | (extract_lets -underBinder +onlyGivenNames sx; clear_value sx) | (with_reducible apply_assumption (exfalso := false) (symm := false)) | (dsimp -zeta only) | (split)))
theorem clock_termTick_eq {s₀ : State} {s : State} {i : Nat} {n : Nat} {rate : Nat} {S : Nat} {ra rt} (he : State.termTick s i n rate S = (ra, rt)) (hk : SameClock s₀ s) : SameClock s₀ rt := by
  have := clock_termTick (s := s) (i := i) (n := n) (rate := rate) (S := S) hk; rw [he] at this; exact this

theorem clock_sumTerms {s₀ : State} {s : State} {n : Nat} {rate : Nat} {S : Nat} {a4 : List Nat} (hk : SameClock s₀ s) : SameClock s₀ (State.sumTerms s n rate S a4).2 := by
  induction a4 generalizing s n rate S with
  | nil => unfold State.sumTerms; (repeat' (first | (with_reducible assumption) | (with_reducible apply clock_termTick)))
  | cons _ _ ih => unfold State.sumTerms; (repeat' (first | (with_reducible apply ih) | (with_reducible refine clock_pair (ih ?_) (by with_reducible assumption)) | (with_reducible assumption) | (with_reducible apply clock_termTick)))
theorem clock_sumTerms_eq {s₀ : State} {s : State} {n : Nat} {rate : Nat} {S : Nat} {a4 : List Nat} {ra rt} (he : State.sumTerms s n rate S a4 = (ra, rt)) (hk : SameClock s₀ s) : SameClock s₀ rt := by
  have := clock_sumTerms (s := s) (n := n) (rate := rate) (S := S) (a4 := a4) hk; rw [he] at this; exact this

theorem clock_settleGain {s₀ : State} {s : State} {i : Nat} {n : Nat} (hk : SameClock s₀ s) : SameClock s₀ (State.settleGain s i n) := by
  unfold State.settleGain
  (repeat' (first | (with_reducible refine offClock_of ?_; exact .inl (Nat.lt_add_right _ (by decide))) | (with_reducible assumption) | (with_reducible apply clock_ite) | (with_reducible apply clock_put) | (fail_if_no_progress with_reducible apply clock_mk)))

theorem clock_dropGain {s₀ : State} {s : State} {i : Nat} (hk : SameClock s₀ s) : SameClock s₀ (State.dropGain s i) := by
  unfold State.dropGain
  (repeat' (first | (with_reducible refine offClock_of ?_; exact .inl (Nat.lt_add_right _ (by decide))) | (with_reducible assumption) | (with_reducible apply clock_put) | (fail_if_no_progress with_reducible apply clock_mk)))

theorem clock_formPoint {s₀ : State} {s : State} {p : Nat} {n : Nat} {unformed : Bool} (hk : SameClock s₀ s) : SameClock s₀ (State.formPoint s p n unformed) := by
  unfold State.formPoint
  (repeat' (first | (with_reducible refine offClock_of ?_; exact .inl (by decide)) | (with_reducible refine offClock_of ?_; exact .inl (Nat.lt_add_right _ (by decide))) | (intro) | (with_reducible assumption) | (with_reducible apply clock_ite) | (with_reducible apply clock_bump) | (with_reducible apply clock_bumpSat) | (with_reducible apply clock_sendOutput) | (with_reducible apply clock_raise) | (with_reducible apply clock_sumTerms) | (with_reducible apply clock_bumpSatBy) | (with_reducible apply clock_settleGain) | (with_reducible apply clock_dropGain) | (with_reducible apply clock_foldl)))

theorem clock_keepCopies {s₀ : State} {s : State} {h : Nat} {n : Nat} (hk : SameClock s₀ s) : SameClock s₀ (State.keepCopies s h n) := by
  unfold State.keepCopies
  (repeat' (first | (with_reducible assumption) | (with_reducible apply clock_ite) | (with_reducible apply clock_freeFrame) | (with_reducible apply clock_setFrame) | (split)))

theorem clock_formSwitched {s₀ : State} {s : State} {f : Nat} {n : Nat} (hk : SameClock s₀ s) : SameClock s₀ (State.formSwitched s f n) := by
  unfold State.formSwitched
  (repeat' (first | (intro) | (with_reducible assumption) | (with_reducible apply clock_flowStep) | (with_reducible apply clock_keepCopies) | (with_reducible apply clock_addCopies) | (with_reducible apply clock_foldl) | (extract_lets -underBinder +onlyGivenNames sx; clear_value sx) | (dsimp -zeta only) | (split)))

theorem clock_formTick {s₀ : State} {s : State} {n : Nat} {unformed : List Nat} (hk : SameClock s₀ s) : SameClock s₀ (State.formTick s n unformed) := by
  unfold State.formTick
  (repeat' (first | (with_reducible refine offClock_of ?_; exact .inl (by decide)) | (intro) | (with_reducible assumption) | (with_reducible apply clock_eccUncorr) | (with_reducible apply clock_crossMedia) | (with_reducible apply clock_formPoint) | (with_reducible apply clock_formSwitched) | (with_reducible apply clock_freeFrame) | (with_reducible apply clock_put) | (with_reducible apply clock_takeFree) | (fail_if_no_progress with_reducible apply clock_mk) | (with_reducible apply clock_foldl)))

theorem clock_pruneHedge {s₀ : State} {s : State} (hk : SameClock s₀ s) : SameClock s₀ (State.pruneHedge s) := by
  unfold State.pruneHedge
  (repeat' (first | (with_reducible assumption) | (fail_if_no_progress with_reducible apply clock_mk)))

theorem clock_beginTick {s₀ : State} {s : State} {n : Nat} {i : TickInput} (hk : SameClock s₀ s) : SameClock s₀ (State.beginTick s n i) := by
  unfold State.beginTick
  (repeat' (first | (intro) | (with_reducible assumption) | (with_reducible apply clock_when) | (with_reducible apply clock_switchGates) | (with_reducible apply clock_auditBuffer) | (with_reducible apply clock_auditPools) | (with_reducible apply clock_auditTracker) | (with_reducible apply clock_auditHost) | (with_reducible apply clock_sendHeartbeat) | (with_reducible apply clock_leaveFenced) | (with_reducible apply clock_boundaryWrites) | (with_reducible apply clock_overrideTick) | (with_reducible apply clock_dropRingCopies) | (with_reducible apply clock_formTick) | (with_reducible apply clock_accruePause) | (with_reducible apply clock_pruneHedge) | (with_reducible apply clock_countAges) | (with_reducible apply clock_foldl)))

end Sys2Proof.Machine
end

