-- ==== Sys2Proof/Laws/Keeps.lean ====
section
/-! SUPPORT. `Keeps`, through the updates that every command is made of. -/

namespace Sys2Proof.Machine

theorem Keeps.refl (s : State) : Keeps s s :=
  ⟨rfl, id, List.suffix_refl _, Nat.le_refl _, rfl, rfl, fun _ => rfl, Nat.le_refl _⟩

theorem Keeps.trans {a b c : State} (h : Keeps a b) (g : Keeps b c) : Keeps a c :=
  ⟨g.pending.trans h.pending, fun x => g.canon (h.canon x), h.out.trans g.out, h.free.trans g.free, g.mac.trans h.mac,
    g.secret.trans h.secret, fun x => (g.fused (by rw [h.fused x]; exact x)).trans (h.fused x), h.secver.trans g.secver⟩

/-- An update that touches none of what is kept. -/
theorem Keeps.same {a b c : State} (h : Keeps a b) (e1 : c.regs = b.regs) (e2 : c.pending = b.pending) (e3 : c.out = b.out)
    (e4 : c.free = b.free) (e5 : c.sup.flash = b.sup.flash) (e6 : c.sup.otpMac = b.sup.otpMac)
    (e7 : c.sup.deviceSecret = b.sup.deviceSecret) (e8 : c.sup.otpKey = b.sup.otpKey) (e9 : c.sup.otpSecver = b.sup.otpSecver) :
    Keeps a c := by
  refine h.trans ⟨e2, ?_, ?_, ?_, e6, e7, fun _ => e8, ?_⟩
  · intro hb; simp only [State.canon, e1, e5] at hb ⊢; exact hb
  · rw [e3]
  · exact Nat.le_of_eq e4.symm
  · exact Nat.le_of_eq e9.symm

structure KeepsO (s : State) (o : Host.Outcome State Fault Refusal) : Prop where
  of : ∀ t, o = .next t → Keeps s t
structure KeepsM (s : State) (o : Option State) : Prop where
  of : ∀ t, o = some t → Keeps s t

theorem keepsM_none {s₀ : State} : KeepsM s₀ none := ⟨fun _ e => nomatch e⟩
theorem keepsM_some {s₀ s : State} (h : Keeps s₀ s) : KeepsM s₀ (some s) := ⟨fun _ e => by cases e; exact h⟩

theorem keepsO_ok {s₀ s : State} (h : Keeps s₀ s) : KeepsO s₀ (ok s) := ⟨fun _ e => by cases e; exact h⟩

theorem keeps_ite {s₀ a b : State} {c : Prop} [Decidable c] (ha : Keeps s₀ a) (hb : Keeps s₀ b) : Keeps s₀ (if c then a else b) := by
  split <;> assumption

theorem keepsO_ite {s₀ : State} {a b : Host.Outcome State Fault Refusal} {c : Prop} [Decidable c] (ha : KeepsO s₀ a) (hb : KeepsO s₀ b) :
    KeepsO s₀ (if c then a else b) := by
  split <;> assumption

theorem keeps_foldl {α : Type} {s₀ s : State} {l : List α} {f : State → α → State} (h : Keeps s₀ s)
    (hf : ∀ s x, Keeps s₀ s → Keeps s₀ (f s x)) : Keeps s₀ (l.foldl f s) := by
  induction l generalizing s with
  | nil => exact h
  | cons x l ih => exact ih (hf s x h)

theorem keeps_forEach {α : Type} {s₀ s : State} {l : List α} {f : α → State → State} (h : Keeps s₀ s)
    (hf : ∀ s x, Keeps s₀ s → Keeps s₀ (f x s)) : Keeps s₀ (forEach l s f) := keeps_foldl h hf

theorem keeps_when {s₀ s : State} {b : Bool} {f : State → State} (h : Keeps s₀ s) (hf : ∀ s, Keeps s₀ s → Keeps s₀ (f s)) :
    Keeps s₀ (s.when b f) := by
  unfold State.when; split
  · exact hf s h
  · exact h

theorem keeps_pair {α : Type} {s₀ t : State} {a : α} {x : α × State} (h : Keeps s₀ x.2) (e : x = (a, t)) : Keeps s₀ t := by
  subst e; exact h

theorem keeps_mk {s₀ s : State} (h : Keeps s₀ s) {reply events once holds te hgc media pcu ftu fpu egu cku pxc rtu hiu ttu qe sie} :
    Keeps s₀ ⟨s.regs, s.pending, s.free, reply, s.out, events, once, holds, s.sup, te, hgc, media, pcu, ftu, fpu, egu, cku, pxc, rtu,
      hiu, ttu, qe, sie⟩ := h.same rfl rfl rfl rfl rfl rfl rfl rfl rfl

theorem keeps_wr {s₀ s : State} {k v : Nat} (h : Keeps s₀ s) : Keeps s₀ (s.wr k v) :=
  h.trans ⟨rfl, fun c => canon_wr c, List.suffix_refl _, Nat.le_refl _, rfl, rfl, fun _ => rfl, Nat.le_refl _⟩

theorem keeps_put {s₀ s : State} {f : Field} {v : Nat} (h : Keeps s₀ s) : Keeps s₀ (s.put f v) := by
  unfold State.put; split
  · exact keeps_wr h
  · exact keeps_wr (keeps_wr h)

theorem keeps_emit {s₀ s : State} {o : Out} (h : Keeps s₀ s) : Keeps s₀ (s.emit o) :=
  h.trans ⟨rfl, id, List.suffix_cons _ _, Nat.le_refl _, rfl, rfl, fun _ => rfl, Nat.le_refl _⟩

theorem keeps_takeFree {s₀ s : State} (h : Keeps s₀ s) : Keeps s₀ s.takeFree.2 :=
  h.trans ⟨rfl, id, List.suffix_refl _, Nat.le_succ _, rfl, rfl, fun _ => rfl, Nat.le_refl _⟩

theorem keeps_takeFree_eq {s₀ s : State} {a} {t : State} (e : s.takeFree = (a, t)) (h : Keeps s₀ s) : Keeps s₀ t := by
  have := keeps_takeFree h; rw [e] at this; exact this

theorem keeps_wrWords {s₀ s : State} {k : Nat} {l : List Nat} (h : Keeps s₀ s) : Keeps s₀ (s.wrWords k l) := by
  induction l generalizing s k with
  | nil => exact h
  | cons v l ih => exact ih (keeps_wr h)

theorem keeps_mk_sup {s₀ s : State} (h : Keeps s₀ s) {reply events once holds te hgc media pcu ftu fpu egu cku pxc rtu hiu ttu qe sie}
    {flashOp otpOk sramReady bootSlot image flashMode firmware imagePair loaded initFlows initPoints vaux vauxFresh porLow railTrip fillOrder filling hbmHeld warmDue unitReset svcRestarting svcTimes svcHeld scrubNs bistNs tempWarned frameReplies trackDiff bookFails bookFixed} :
    Keeps s₀ ⟨s.regs, s.pending, s.free, reply, s.out, events, once, holds, ⟨s.sup.flash, flashOp, s.sup.otpKey, s.sup.otpSecver, otpOk, s.sup.otpMac, s.sup.deviceSecret, sramReady, bootSlot, image, flashMode, firmware, imagePair, loaded, initFlows, initPoints, vaux, vauxFresh, porLow, railTrip, fillOrder, filling, hbmHeld, warmDue, unitReset, svcRestarting, svcTimes, svcHeld, scrubNs, bistNs, tempWarned, frameReplies, trackDiff, bookFails, bookFixed⟩, te, hgc, media, pcu, ftu, fpu, egu, cku, pxc, rtu,
      hiu, ttu, qe, sie⟩ := h.same rfl rfl rfl rfl rfl rfl rfl rfl rfl

theorem keeps_flash {s₀ s t : State} {fl : List (Nat × Byte)} (hk : Keeps s₀ s) (hf : Sparse.wf flashBlank s.sup.flash = true → Sparse.wf flashBlank fl = true)
    (e : t = { s with sup := { s.sup with flash := fl } }) : Keeps s₀ t := by
  subst e
  refine hk.trans ⟨rfl, fun h => ?_, List.suffix_refl _, Nat.le_refl _, rfl, rfl, fun _ => rfl, Nat.le_refl _⟩
  simp only [State.canon, Bool.and_eq_true] at h ⊢
  exact ⟨h.1, hf h.2⟩

theorem keeps_regs {s₀ s : State} {l : List (Nat × Word)} (hk : Keeps s₀ s) (hf : Sparse.wf resetWord s.regs = true → Sparse.wf resetWord l = true) : Keeps s₀ { s with regs := l } := by
  refine hk.trans ⟨rfl, fun h => ?_, List.suffix_refl _, Nat.le_refl _, rfl, rfl, fun _ => rfl, Nat.le_refl _⟩
  simp only [State.canon, Bool.and_eq_true] at h ⊢
  exact ⟨hf h.1, h.2⟩

theorem keeps_id {s₀ s : State} (h : Keeps s₀ s) : Keeps s₀ (id s) := h

theorem keeps_foldl_snd {α β : Type} {s₀ : State} {a : β × State} {l : List α} {f : β × State → α → β × State} (h : Keeps s₀ a.2)
    (hf : ∀ a x, Keeps s₀ a.2 → Keeps s₀ (f a x).2) : Keeps s₀ (l.foldl f a).2 := by
  induction l generalizing a with
  | nil => exact h
  | cons x l ih => exact ih (hf a x h)

theorem keeps_resetWords {s₀ s : State} {p : Nat → Bool} (h : Keeps s₀ s) : Keeps s₀ (s.resetWords p) :=
  keeps_regs h (Sparse.wf_filter _)

end Sys2Proof.Machine
end

