-- ==== Sys2Proof/Laws/KeepsOps.lean ====
section
/-! SUPPORT. `Keeps`, for every function of Machine/Ops.lean. -/

set_option linter.all false
set_option simprocs false

namespace Sys2Proof.Machine

theorem keeps_bumpBy {s₀ : State} {s : State} {f : Field} {n : Nat} (hk : Keeps s₀ s) : Keeps s₀ (State.bumpBy s f n) := by
  unfold State.bumpBy
  (repeat' (first | (with_reducible assumption) | (with_reducible apply keeps_put) | (dsimp -zeta only)))

theorem keeps_oncePerTick {s₀ : State} {s : State} {key : Nat} {f : State → State} (hk : Keeps s₀ s) (hk_f : ∀ (x0 : State), Keeps s₀ x0 → Keeps s₀ (f x0)) : Keeps s₀ (State.oncePerTick s key f) := by
  unfold State.oncePerTick
  (repeat' (first | (intro) | (with_reducible assumption) | (with_reducible apply keeps_ite) | (with_reducible apply hk_f) | (fail_if_no_progress with_reducible apply keeps_mk) | (with_reducible apply_assumption (exfalso := false) (symm := false)) | (dsimp -zeta only) | (split)))

theorem keeps_bump {s₀ : State} {s : State} {f : Field} (hk : Keeps s₀ s) : Keeps s₀ (State.bump s f) := by
  unfold State.bump
  (repeat' (first | (with_reducible assumption) | (with_reducible apply keeps_put) | (dsimp -zeta only)))

theorem keeps_raiseEvent {s₀ : State} {s : State} {e : Event} (hk : Keeps s₀ s) : Keeps s₀ (State.raiseEvent s e) := by
  unfold State.raiseEvent
  (repeat' (first | (intro) | (with_reducible assumption) | (with_reducible apply keeps_ite) | (with_reducible apply keeps_bump) | (fail_if_no_progress with_reducible apply keeps_mk) | (extract_lets -underBinder +onlyGivenNames sx; refine (have kx : Keeps s₀ sx := ?_; ?_); dsimp -zeta only [sx]; rotate_left; clear_value sx; rotate_right) | (extract_lets -underBinder +onlyGivenNames sx; refine (have kx : Keeps s₀ sx.2 := ?_; ?_); dsimp -zeta only [sx]; rotate_left; clear_value sx; rotate_right) | (extract_lets -underBinder +onlyGivenNames sx; clear_value sx) | (dsimp -zeta only) | (split)))

theorem keeps_raise {s₀ : State} {s : State} {u : Unit'} {type : Nat} {fields : List (Nat × Nat)} (hk : Keeps s₀ s) : Keeps s₀ (State.raise s u type fields) := by
  unfold State.raise
  (repeat' (first | (with_reducible assumption) | (with_reducible apply keeps_raiseEvent) | (dsimp -zeta only)))

theorem keeps_hlog {s₀ : State} {s : State} {type : Nat} {u : Nat} {pay : Nat} (hk : Keeps s₀ s) : Keeps s₀ (State.hlog s type u pay) := by
  unfold State.hlog
  (repeat' (first | (with_reducible assumption) | (with_reducible apply keeps_put) | (with_reducible apply keeps_wrWords) | (extract_lets -underBinder +onlyGivenNames sx; refine (have kx : Keeps s₀ sx := ?_; ?_); dsimp -zeta only [sx]; rotate_left; clear_value sx; rotate_right) | (extract_lets -underBinder +onlyGivenNames sx; refine (have kx : Keeps s₀ sx.2 := ?_; ?_); dsimp -zeta only [sx]; rotate_left; clear_value sx; rotate_right) | (extract_lets -underBinder +onlyGivenNames sx; clear_value sx) | (dsimp -zeta only)))

theorem keeps_raiseFor {s₀ : State} {s : State} {u : Unit'} {type : Nat} {f : Nat} {fields : List (Nat × Nat)} (hk : Keeps s₀ s) : Keeps s₀ (State.raiseFor s u type f fields) := by
  unfold State.raiseFor
  (repeat' (first | (with_reducible assumption) | (with_reducible apply keeps_raiseEvent) | (dsimp -zeta only)))

theorem keeps_setPower {s₀ : State} {s : State} {d : Nat} {on : Bool} (hk : Keeps s₀ s) : Keeps s₀ (State.setPower s d on) := by
  unfold State.setPower
  (repeat' (first | (with_reducible assumption) | (with_reducible apply keeps_wr) | (dsimp -zeta only)))

theorem keeps_powerUnit {s₀ : State} {s : State} {u : Nat} {on : Bool} (hk : Keeps s₀ s) : Keeps s₀ (State.powerUnit s u on) := by
  unfold State.powerUnit
  (repeat' (first | (intro) | (with_reducible assumption) | (with_reducible apply keeps_ite) | (with_reducible apply keeps_setPower) | (with_reducible apply keeps_forEach) | (with_reducible apply keeps_pair (by with_reducible assumption) (by with_reducible assumption)) | (extract_lets -underBinder +onlyGivenNames sx; refine (have kx : Keeps s₀ sx := ?_; ?_); dsimp -zeta only [sx]; rotate_left; clear_value sx; rotate_right) | (extract_lets -underBinder +onlyGivenNames sx; refine (have kx : Keeps s₀ sx.2 := ?_; ?_); dsimp -zeta only [sx]; rotate_left; clear_value sx; rotate_right) | (extract_lets -underBinder +onlyGivenNames sx; clear_value sx) | (dsimp -zeta only) | (split)))

theorem keeps_bumpSat {s₀ : State} {s : State} {f : Field} (hk : Keeps s₀ s) : Keeps s₀ (State.bumpSat s f) := by
  unfold State.bumpSat
  (repeat' (first | (with_reducible assumption) | (with_reducible apply keeps_ite) | (with_reducible apply keeps_put) | (dsimp -zeta only) | (split)))

theorem keeps_localOnly {s₀ : State} {s : State} {run : State → State} (hk : Keeps s₀ s) (hk_run : ∀ (x0 : State), Keeps s₀ x0 → Keeps s₀ (run x0)) : Keeps s₀ (State.localOnly s run) := by
  unfold State.localOnly
  (repeat' (first | (intro) | (with_reducible assumption) | (with_reducible apply keeps_ite) | (with_reducible apply hk_run) | (with_reducible apply keeps_oncePerTick) | (with_reducible apply keeps_bump) | (with_reducible apply keeps_raise) | (with_reducible apply_assumption (exfalso := false) (symm := false)) | (dsimp -zeta only) | (split)))

theorem keeps_sendLink {s₀ : State} {s : State} {frame : Nat → Out} (hk : Keeps s₀ s) : Keeps s₀ (State.sendLink s frame) := by
  unfold State.sendLink
  (repeat' (first | (intro) | (with_reducible assumption) | (with_reducible apply keeps_emit) | (fail_if_no_progress with_reducible apply keeps_mk) | (dsimp -zeta only)))

theorem keeps_noteSent {s₀ : State} {s : State} {n : Nat} {op : CarriedOp} (hk : Keeps s₀ s) : Keeps s₀ (State.noteSent s n op) := by
  unfold State.noteSent
  (repeat' (first | (intro) | (with_reducible assumption) | (fail_if_no_progress with_reducible apply keeps_mk) | (extract_lets -underBinder +onlyGivenNames sx; refine (have kx : Keeps s₀ sx := ?_; ?_); dsimp -zeta only [sx]; rotate_left; clear_value sx; rotate_right) | (extract_lets -underBinder +onlyGivenNames sx; refine (have kx : Keeps s₀ sx.2 := ?_; ?_); dsimp -zeta only [sx]; rotate_left; clear_value sx; rotate_right) | (extract_lets -underBinder +onlyGivenNames sx; clear_value sx) | (dsimp -zeta only)))

theorem keeps_carry {s₀ : State} {s : State} {tick : Nat} {op : CarriedOp} (hk : Keeps s₀ s) : Keeps s₀ (State.carry s tick op) := by
  unfold State.carry
  (repeat' (first | (intro) | (with_reducible assumption) | (with_reducible apply keeps_ite) | (with_reducible apply keeps_sendLink) | (with_reducible apply keeps_noteSent) | (with_reducible apply keeps_put) | (extract_lets -underBinder +onlyGivenNames sx; refine (have kx : Keeps s₀ sx := ?_; ?_); dsimp -zeta only [sx]; rotate_left; clear_value sx; rotate_right) | (extract_lets -underBinder +onlyGivenNames sx; refine (have kx : Keeps s₀ sx.2 := ?_; ?_); dsimp -zeta only [sx]; rotate_left; clear_value sx; rotate_right) | (extract_lets -underBinder +onlyGivenNames sx; clear_value sx) | (dsimp -zeta only) | (split)))

theorem keeps_refreshFit {s₀ : State} {s : State} (hk : Keeps s₀ s) : Keeps s₀ (State.refreshFit s) := by
  unfold State.refreshFit
  (repeat' (first | (with_reducible assumption) | (with_reducible apply keeps_ite) | (with_reducible apply keeps_put) | (extract_lets -underBinder +onlyGivenNames sx; refine (have kx : Keeps s₀ sx := ?_; ?_); dsimp -zeta only [sx]; rotate_left; clear_value sx; rotate_right) | (extract_lets -underBinder +onlyGivenNames sx; refine (have kx : Keeps s₀ sx.2 := ?_; ?_); dsimp -zeta only [sx]; rotate_left; clear_value sx; rotate_right) | (extract_lets -underBinder +onlyGivenNames sx; clear_value sx) | (dsimp -zeta only) | (split)))

theorem keeps_refreshLayered {s₀ : State} {s : State} (hk : Keeps s₀ s) : Keeps s₀ (State.refreshLayered s) := by
  unfold State.refreshLayered
  (repeat' (first | (with_reducible assumption) | (with_reducible apply keeps_put) | (extract_lets -underBinder +onlyGivenNames sx; refine (have kx : Keeps s₀ sx := ?_; ?_); dsimp -zeta only [sx]; rotate_left; clear_value sx; rotate_right) | (extract_lets -underBinder +onlyGivenNames sx; refine (have kx : Keeps s₀ sx.2 := ?_; ?_); dsimp -zeta only [sx]; rotate_left; clear_value sx; rotate_right) | (extract_lets -underBinder +onlyGivenNames sx; clear_value sx) | (dsimp -zeta only) | (split)))

theorem keeps_driveSideband {s₀ : State} {s : State} {v : Nat} (hk : Keeps s₀ s) : Keeps s₀ (State.driveSideband s v) := by
  unfold State.driveSideband
  (repeat' (first | (intro) | (with_reducible assumption) | (with_reducible apply keeps_ite) | (with_reducible apply keeps_put) | (fail_if_no_progress with_reducible apply keeps_mk) | (dsimp -zeta only) | (split)))

theorem keeps_retier {s₀ : State} {s : State} (hk : Keeps s₀ s) : Keeps s₀ (State.retier s) := by
  unfold State.retier
  (repeat' (first | (intro) | (with_reducible assumption) | (with_reducible apply keeps_ite) | (with_reducible apply keeps_when) | (with_reducible apply keeps_refreshFit) | (with_reducible apply keeps_hlog) | (with_reducible apply keeps_put) | (with_reducible apply keeps_driveSideband) | (with_reducible apply keeps_raise) | (extract_lets -underBinder +onlyGivenNames sx; refine (have kx : Keeps s₀ sx := ?_; ?_); dsimp -zeta only [sx]; rotate_left; clear_value sx; rotate_right) | (extract_lets -underBinder +onlyGivenNames sx; refine (have kx : Keeps s₀ sx.2 := ?_; ?_); dsimp -zeta only [sx]; rotate_left; clear_value sx; rotate_right) | (extract_lets -underBinder +onlyGivenNames sx; clear_value sx) | (dsimp -zeta only) | (split)))

theorem keeps_setUnit {s₀ : State} {s : State} {u : Nat} {st : Nat} (hk : Keeps s₀ s) : Keeps s₀ (State.setUnit s u st) := by
  unfold State.setUnit
  (repeat' (first | (with_reducible assumption) | (with_reducible apply keeps_retier) | (with_reducible apply keeps_put) | (dsimp -zeta only)))

theorem keeps_keepEpoch {s₀ : State} {s : State} (hk : Keeps s₀ s) : Keeps s₀ (State.keepEpoch s) := by
  unfold State.keepEpoch
  (repeat' (first | (with_reducible assumption) | (with_reducible apply keeps_put) | (dsimp -zeta only)))

theorem keeps_fault {s₀ : State} {s : State} {u : Nat} {code : Nat} (hk : Keeps s₀ s) : Keeps s₀ (State.fault s u code) := by
  unfold State.fault
  (repeat' (first | (with_reducible assumption) | (with_reducible apply keeps_ite) | (with_reducible apply keeps_raise) | (with_reducible apply keeps_hlog) | (with_reducible apply keeps_put) | (dsimp -zeta only) | (split)))

theorem keeps_failUnit {s₀ : State} {s : State} {u : Nat} {code : Nat} (hk : Keeps s₀ s) : Keeps s₀ (State.failUnit s u code) := by
  unfold State.failUnit
  (repeat' (first | (with_reducible assumption) | (with_reducible apply keeps_powerUnit) | (with_reducible apply keeps_setUnit) | (with_reducible apply keeps_fault) | (dsimp -zeta only)))

theorem keeps_wrAll {s₀ : State} {s : State} {l : List (Nat × Nat)} (hk : Keeps s₀ s) : Keeps s₀ (State.wrAll s l) := by
  unfold State.wrAll
  (repeat' (first | (intro) | (with_reducible assumption) | (with_reducible apply keeps_wr) | (with_reducible apply keeps_foldl) | (dsimp -zeta only)))

theorem keeps_eccUncorr {s₀ : State} {s : State} {u : Nat} {memory : Nat} (hk : Keeps s₀ s) : Keeps s₀ (State.eccUncorr s u memory) := by
  unfold State.eccUncorr
  (repeat' (first | (intro) | (with_reducible assumption) | (with_reducible apply keeps_oncePerTick) | (with_reducible apply keeps_hlog) | (with_reducible apply keeps_bump) | (with_reducible apply keeps_raise) | (extract_lets -underBinder +onlyGivenNames sx; refine (have kx : Keeps s₀ sx := ?_; ?_); dsimp -zeta only [sx]; rotate_left; clear_value sx; rotate_right) | (extract_lets -underBinder +onlyGivenNames sx; refine (have kx : Keeps s₀ sx.2 := ?_; ?_); dsimp -zeta only [sx]; rotate_left; clear_value sx; rotate_right) | (extract_lets -underBinder +onlyGivenNames sx; clear_value sx) | (dsimp -zeta only)))

end Sys2Proof.Machine
end

