-- ==== Sys2Proof/Laws/KeepsCredit.lean ====
section
/-! SUPPORT. `Keeps`, for every function of Machine/Credit.lean. -/

set_option linter.all false
set_option simprocs false

namespace Sys2Proof.Machine

theorem keeps_stat {s₀ : State} {s : State} {p : Nat} {i : Nat} {n : Nat} (hk : Keeps s₀ s) : Keeps s₀ (State.stat s p i n) := by
  unfold State.stat
  (repeat' (first | (with_reducible assumption) | (with_reducible apply keeps_bumpBy)))

theorem keeps_accruePause {s₀ : State} {s : State} {p : Nat} (hk : Keeps s₀ s) : Keeps s₀ (State.accruePause s p) := by
  unfold State.accruePause
  (repeat' (first | (with_reducible assumption) | (with_reducible apply keeps_stat) | (fail_if_no_progress with_reducible apply keeps_mk) | (split)))

theorem keeps_setLevel {s₀ : State} {s : State} {k : Nat} {v : Int × Int} (hk : Keeps s₀ s) : Keeps s₀ (State.setLevel s k v) := by
  unfold State.setLevel
  (repeat' (first | (with_reducible assumption) | (with_reducible apply keeps_ite) | (with_reducible apply keeps_wr) | (fail_if_no_progress with_reducible apply keeps_mk)))

theorem keeps_fillLevel {s₀ : State} {s : State} {k : Nat} {dt : Nat} (hk : Keeps s₀ s) : Keeps s₀ (State.fillLevel s k dt) := by
  unfold State.fillLevel; split; split; exact keeps_setLevel hk

theorem keeps_slope {s₀ : State} {s : State} {mbps : Nat} {n : Nat} (hk : Keeps s₀ s) : Keeps s₀ (State.slope s mbps n).2 := by
  unfold State.slope
  (repeat' (first | (with_reducible assumption) | (with_reducible apply keeps_takeFree) | (extract_lets -underBinder +onlyGivenNames sx; clear_value sx) | (dsimp -zeta only) | (split)))
theorem keeps_slope_eq {s₀ : State} {s : State} {mbps : Nat} {n : Nat} {ra rt} (he : State.slope s mbps n = (ra, rt)) (hk : Keeps s₀ s) : Keeps s₀ rt := by
  have := keeps_slope (s := s) (mbps := mbps) (n := n) hk; rw [he] at this; exact this

theorem keeps_setCredit {s₀ : State} {s : State} {i : Nat} {v : Int} (hk : Keeps s₀ s) : Keeps s₀ (State.setCredit s i v) := by
  unfold State.setCredit
  (repeat' (first | (with_reducible assumption) | (with_reducible apply keeps_ite) | (with_reducible apply keeps_put) | (fail_if_no_progress with_reducible apply keeps_mk)))

theorem keeps_moveCredit {s₀ : State} {s : State} {i : Nat} {n : Nat} (hk : Keeps s₀ s) : Keeps s₀ (State.moveCredit s i n) := by
  unfold State.moveCredit
  (repeat' (first | (with_reducible assumption) | (with_reducible apply keeps_ite) | (with_reducible apply keeps_slope) | (with_reducible apply keeps_setCredit) | (dsimp -zeta only) | (split)))

theorem keeps_settle {s₀ : State} {s : State} (hk : Keeps s₀ s) : Keeps s₀ (State.settle s) := by
  unfold State.settle
  (repeat' (first | (intro) | (with_reducible assumption) | (with_reducible apply keeps_fillLevel) | (with_reducible apply keeps_moveCredit) | (fail_if_no_progress with_reducible apply keeps_mk) | (with_reducible apply keeps_foldl)))

theorem keeps_payDebt {s₀ : State} {s : State} {d : Option (Nat × Bool × Nat)} (hk : Keeps s₀ s) : Keeps s₀ (State.payDebt s d) := by
  unfold State.payDebt
  (repeat' (first | (with_reducible assumption) | (with_reducible apply keeps_settle) | (with_reducible apply keeps_setLevel) | (dsimp -zeta only) | (split)))

end Sys2Proof.Machine
end

