-- ==== Sys2Proof/Laws/KeepsFlows.lean ====
section
/-! SUPPORT. `Keeps`, for every function of Machine/Flows.lean. -/

set_option linter.all false
set_option simprocs false

namespace Sys2Proof.Machine

theorem keeps_poolGive {s₀ : State} {s : State} {f : Nat} {k : Nat} {n : Nat} (hk : Keeps s₀ s) : Keeps s₀ (State.poolGive s f k n) := by
  unfold State.poolGive
  (repeat' (first | (with_reducible assumption) | (with_reducible apply keeps_put)))

theorem keeps_trackGive {s₀ : State} {s : State} (hk : Keeps s₀ s) : Keeps s₀ (State.trackGive s) := by
  unfold State.trackGive
  (repeat' (first | (with_reducible assumption) | (with_reducible apply keeps_put)))

theorem keeps_ringError {s₀ : State} {s : State} {r : Nat} {kind : Nat} {seq : Nat} (hk : Keeps s₀ s) : Keeps s₀ (State.ringError s r kind seq) := by
  unfold State.ringError
  (repeat' (first | (intro) | (with_reducible assumption) | (with_reducible apply keeps_oncePerTick) | (with_reducible apply keeps_raiseEvent)))

theorem keeps_poolTake {s₀ : State} {s : State} {f : Nat} {k : Nat} {n : Nat} (hk : Keeps s₀ s) : Keeps s₀ (State.poolTake s f k n) := by
  unfold State.poolTake
  (repeat' (first | (with_reducible assumption) | (with_reducible apply keeps_put)))

theorem keeps_bookRepaired {s₀ : State} {s : State} {book : Nat} (hk : Keeps s₀ s) : Keeps s₀ (State.bookRepaired s book) := by
  unfold State.bookRepaired
  (repeat' (first | (with_reducible assumption) | (with_reducible apply keeps_ite) | (fail_if_no_progress with_reducible apply keeps_mk_sup)))

theorem keeps_trackPulse {s₀ : State} {s : State} (hk : Keeps s₀ s) : Keeps s₀ (State.trackPulse s) := by
  unfold State.trackPulse
  (repeat' (first | (intro) | (with_reducible assumption) | (with_reducible apply keeps_when) | (with_reducible apply keeps_put)))

theorem keeps_hbmWrite {s₀ : State} {s : State} {k : Nat} (hk : Keeps s₀ s) : Keeps s₀ (State.hbmWrite s k) := by
  unfold State.hbmWrite
  (repeat' (first | (with_reducible assumption) | (with_reducible apply keeps_ite) | (fail_if_no_progress with_reducible apply keeps_mk_sup)))

theorem keeps_shadowWrite {s₀ : State} {s : State} (hk : Keeps s₀ s) : Keeps s₀ (State.shadowWrite s) := by
  unfold State.shadowWrite
  (repeat' (first | (with_reducible assumption) | (with_reducible apply keeps_hbmWrite) | (split)))

theorem keeps_recordWritten {s₀ : State} {s : State} {table : Nat} {index : Nat} (hk : Keeps s₀ s) : Keeps s₀ (State.recordWritten s table index) := by
  unfold State.recordWritten
  (repeat' (first | (with_reducible assumption) | (with_reducible apply keeps_shadowWrite) | (fail_if_no_progress with_reducible apply keeps_mk)))

theorem keeps_takePools {s₀ : State} {s : State} {l : List (Nat × Nat × Nat)} (hk : Keeps s₀ s) : Keeps s₀ (State.takePools s l) := by
  unfold State.takePools
  (repeat' (first | (intro) | (with_reducible assumption) | (with_reducible apply keeps_poolTake) | (with_reducible apply keeps_foldl)))

theorem keeps_trackTake {s₀ : State} {s : State} (hk : Keeps s₀ s) : Keeps s₀ (State.trackTake s) := by
  unfold State.trackTake
  (repeat' (first | (intro) | (with_reducible assumption) | (with_reducible apply keeps_when) | (with_reducible apply keeps_put)))

theorem keeps_bookAudit {s₀ : State} {s : State} {book : Nat} {u : Nat} {failed : Bool} {hasRepair : Bool} (hk : Keeps s₀ s) : Keeps s₀ (State.bookAudit s book u failed hasRepair) := by
  unfold State.bookAudit
  (repeat' (first | (intro) | (with_reducible assumption) | (with_reducible apply keeps_when) | (with_reducible apply keeps_fault) | (fail_if_no_progress with_reducible apply keeps_mk_sup)))

theorem keeps_auditPools {s₀ : State} {s : State} (hk : Keeps s₀ s) : Keeps s₀ (State.auditPools s) := by
  unfold State.auditPools
  (repeat' (first | (with_reducible assumption) | (with_reducible apply keeps_bookAudit)))

theorem keeps_setRt {s₀ : State} {s : State} {f : Nat} {r : FlowRt} (hk : Keeps s₀ s) : Keeps s₀ (State.setRt s f r) := by
  unfold State.setRt
  (repeat' (first | (with_reducible assumption) | (fail_if_no_progress with_reducible apply keeps_mk)))

theorem keeps_givePools {s₀ : State} {s : State} {l : List (Nat × Nat × Nat)} (hk : Keeps s₀ s) : Keeps s₀ (State.givePools s l) := by
  unfold State.givePools
  (repeat' (first | (intro) | (with_reducible assumption) | (with_reducible apply keeps_poolGive) | (with_reducible apply keeps_foldl)))

theorem keeps_dropRt {s₀ : State} {s : State} {f : Nat} (hk : Keeps s₀ s) : Keeps s₀ (State.dropRt s f) := by
  unfold State.dropRt
  (repeat' (first | (with_reducible assumption) | (fail_if_no_progress with_reducible apply keeps_mk)))

theorem keeps_hbmRead {s₀ : State} {s : State} {k : Nat} (hk : Keeps s₀ s) : Keeps s₀ (State.hbmRead s k).2 := by
  unfold State.hbmRead
  (repeat' (first | (with_reducible assumption) | (with_reducible apply keeps_raise) | (split)))
theorem keeps_hbmRead_eq {s₀ : State} {s : State} {k : Nat} {ra rt} (he : State.hbmRead s k = (ra, rt)) (hk : Keeps s₀ s) : Keeps s₀ rt := by
  have := keeps_hbmRead (s := s) (k := k) hk; rw [he] at this; exact this

theorem keeps_shadowRead {s₀ : State} {s : State} (hk : Keeps s₀ s) : Keeps s₀ (State.shadowRead s).2 := by
  unfold State.shadowRead
  (repeat' (first | (with_reducible assumption) | (with_reducible apply keeps_hbmRead) | (split)))
theorem keeps_shadowRead_eq {s₀ : State} {s : State} {ra rt} (he : State.shadowRead s = (ra, rt)) (hk : Keeps s₀ s) : Keeps s₀ rt := by
  have := keeps_shadowRead (s := s) hk; rw [he] at this; exact this

end Sys2Proof.Machine
end

