-- ==== Sys2Proof/Laws/KeepsBuffer.lean ====
section
/-! SUPPORT. `Keeps`, for every function of Machine/Buffer.lean. -/

set_option linter.all false
set_option simprocs false

namespace Sys2Proof.Machine

theorem keeps_misuse {s₀ : State} {s : State} {c : Nat} {kind : Nat} (hk : Keeps s₀ s) : Keeps s₀ (State.misuse s c kind) := by
  unfold State.misuse
  (repeat' (first | (intro) | (with_reducible assumption) | (with_reducible apply keeps_put) | (with_reducible apply keeps_oncePerTick) | (with_reducible apply keeps_raise)))

theorem keeps_setCell {s₀ : State} {s : State} {c : Nat} {x : Cell} (hk : Keeps s₀ s) : Keeps s₀ (State.setCell s c x) := by
  unfold State.setCell
  (repeat' (first | (with_reducible assumption) | (fail_if_no_progress with_reducible apply keeps_mk)))

theorem keeps_freeCell {s₀ : State} {s : State} {c : Nat} {h : Nat} {g : Nat} (hk : Keeps s₀ s) : Keeps s₀ (State.freeCell s c h g) := by
  unfold State.freeCell
  (repeat' (first | (with_reducible assumption) | (with_reducible apply keeps_ite) | (with_reducible apply keeps_misuse) | (with_reducible apply keeps_bump) | (with_reducible apply keeps_put) | (with_reducible apply keeps_setCell)))

theorem keeps_setFrame {s₀ : State} {s : State} {h : Nat} {f : Frame} (hk : Keeps s₀ s) : Keeps s₀ (State.setFrame s h f) := by
  unfold State.setFrame
  (repeat' (first | (with_reducible assumption) | (fail_if_no_progress with_reducible apply keeps_mk)))

theorem keeps_trimFrame {s₀ : State} {s : State} {h : Nat} (hk : Keeps s₀ s) : Keeps s₀ (State.trimFrame s h) := by
  unfold State.trimFrame
  (repeat' (first | (intro) | (with_reducible assumption) | (with_reducible apply keeps_ite) | (with_reducible apply keeps_poolGive) | (with_reducible apply keeps_freeCell) | (with_reducible apply keeps_setFrame) | (with_reducible apply keeps_foldl) | (split)))

theorem keeps_trimFrames {s₀ : State} {s : State} (hk : Keeps s₀ s) : Keeps s₀ (State.trimFrames s) := by
  unfold State.trimFrames
  (repeat' (first | (intro) | (with_reducible assumption) | (with_reducible apply keeps_trimFrame) | (with_reducible apply keeps_foldl)))

theorem keeps_settleFor {s₀ : State} {s : State} {k : Nat} (hk : Keeps s₀ s) : Keeps s₀ (State.settleFor s k) := by
  unfold State.settleFor
  (repeat' (first | (with_reducible assumption) | (with_reducible apply keeps_ite) | (with_reducible apply keeps_accruePause) | (with_reducible apply keeps_settle) | (with_reducible apply keeps_trimFrames)))

theorem keeps_releaseCopy {s₀ : State} {s : State} {h : Nat} (hk : Keeps s₀ s) : Keeps s₀ (State.releaseCopy s h) := by
  unfold State.releaseCopy
  (repeat' (first | (intro) | (with_reducible assumption) | (with_reducible apply keeps_ite) | (with_reducible apply keeps_setFrame) | (with_reducible apply keeps_poolGive) | (with_reducible apply keeps_freeCell) | (fail_if_no_progress with_reducible apply keeps_mk) | (with_reducible apply keeps_foldl) | (split)))

theorem keeps_releaseMaybe {s₀ : State} {s : State} {h : Option Nat} (hk : Keeps s₀ s) : Keeps s₀ (State.releaseMaybe s h) := by
  unfold State.releaseMaybe
  (repeat' (first | (with_reducible assumption) | (with_reducible apply keeps_releaseCopy) | (split)))

theorem keeps_dropCell {s₀ : State} {s : State} {h : Option Nat} {c : Option (Nat × Nat)} (hk : Keeps s₀ s) : Keeps s₀ (State.dropCell s h c) := by
  unfold State.dropCell
  (repeat' (first | (intro) | (with_reducible assumption) | (with_reducible apply keeps_setFrame) | (with_reducible apply keeps_poolGive) | (with_reducible apply keeps_freeCell) | (with_reducible apply keeps_foldl) | (split)))

theorem keeps_releaseWith {s₀ : State} {s : State} {h : Option Nat} {c : Option (Nat × Nat)} (hk : Keeps s₀ s) : Keeps s₀ (State.releaseWith s h c) := by
  unfold State.releaseWith
  (repeat' (first | (with_reducible assumption) | (with_reducible apply keeps_releaseMaybe) | (with_reducible apply keeps_dropCell)))

theorem keeps_newHead {s₀ : State} {s : State} {p : Nat} {c : Nat} {old : Option Queued} (hk : Keeps s₀ s) : Keeps s₀ (State.newHead s p c old) := by
  unfold State.newHead
  (repeat' (first | (with_reducible assumption) | (with_reducible apply keeps_ite) | (fail_if_no_progress with_reducible apply keeps_mk) | (split)))

theorem keeps_dropQueued {s₀ : State} {s : State} {q : Queued} (hk : Keeps s₀ s) : Keeps s₀ (State.dropQueued s q) := by
  unfold State.dropQueued
  (repeat' (first | (with_reducible assumption) | (with_reducible apply keeps_settle) | (with_reducible apply keeps_releaseCopy) | (with_reducible apply keeps_payDebt) | (with_reducible apply keeps_newHead) | (fail_if_no_progress with_reducible apply keeps_mk)))

theorem keeps_evictNewest {s₀ : State} {s : State} {d : Nat} {c : Nat} (hk : Keeps s₀ s) : KeepsM s₀ (State.evictNewest s d c) := by
  unfold State.evictNewest
  split
  · cases (s.hostQueue c).getLast? with
    | none => exact keepsM_none
    | some w => exact keepsM_some (keeps_releaseWith (keeps_mk hk))
  · cases newestOf (s.queueOf d c) with
    | none => exact keepsM_none
    | some q => exact keepsM_some (keeps_dropQueued hk)
theorem keeps_evictNewest_eq {s₀ : State} {s : State} {d : Nat} {c : Nat} {rt} (he : State.evictNewest s d c = some rt) (hk : Keeps s₀ s) : Keeps s₀ rt := by
  have := keeps_evictNewest (s := s) (d := d) (c := c) hk; rw [he] at this; exact this.of _ rfl

theorem keeps_pushOut {s₀ : State} {s : State} {c : Nat} {k : Nat} {a3 : Nat} (hk : Keeps s₀ s) : Keeps s₀ (State.pushOut s c k a3) := by
  induction a3 generalizing s c k with
  | zero => unfold State.pushOut; (repeat' (first | (with_reducible assumption) | (with_reducible apply keeps_ite) | (with_reducible apply keeps_evictNewest_eq (by assumption)) | (with_reducible apply keeps_bump) | (split)))
  | succ n ih => unfold State.pushOut; (repeat' (first | (with_reducible apply ih) | (with_reducible assumption) | (with_reducible apply keeps_ite) | (with_reducible apply keeps_evictNewest_eq (by assumption)) | (with_reducible apply keeps_bump) | (split)))

theorem keeps_admitHead {s₀ : State} {s : State} {qs : List (Nat × Nat)} {c : Nat} {k : Nat} {charged : List Nat} (hk : Keeps s₀ s) : Keeps s₀ (State.admitHead s qs c k charged).2 := by
  unfold State.admitHead
  (repeat' (first | (intro) | (with_reducible assumption) | (with_reducible apply keeps_trimFrames) | (with_reducible apply keeps_bump) | (with_reducible apply keeps_pushOut) | (extract_lets -underBinder +onlyGivenNames sx; refine (have kx : Keeps s₀ sx := ?_; ?_); dsimp -zeta only [sx]; rotate_left; clear_value sx; rotate_right) | (extract_lets -underBinder +onlyGivenNames sx; refine (have kx : ∀ a, Keeps s₀ a → Keeps s₀ (sx a) := ?_; ?_); dsimp -zeta only [sx]; rotate_left; clear_value sx; rotate_right) | (with_reducible apply_assumption (exfalso := false) (symm := false)) | (split)))
theorem keeps_admitHead_eq {s₀ : State} {s : State} {qs : List (Nat × Nat)} {c : Nat} {k : Nat} {charged : List Nat} {ra rt} (he : State.admitHead s qs c k charged = (ra, rt)) (hk : Keeps s₀ s) : Keeps s₀ rt := by
  have := keeps_admitHead (s := s) (qs := qs) (c := c) (k := k) (charged := charged) hk; rw [he] at this; exact this

theorem keeps_setFabricCredit {s₀ : State} {s : State} {k : Nat} {n : Nat} (hk : Keeps s₀ s) : Keeps s₀ (State.setFabricCredit s k n) := by
  unfold State.setFabricCredit
  (repeat' (first | (with_reducible assumption) | (fail_if_no_progress with_reducible apply keeps_mk)))

theorem keeps_giveCredit {s₀ : State} {s : State} {p : Nat} {d : Nat} (hk : Keeps s₀ s) : Keeps s₀ (State.giveCredit s p d) := by
  unfold State.giveCredit
  (repeat' (first | (with_reducible assumption) | (with_reducible apply keeps_setFabricCredit)))

theorem keeps_crossMedia {s₀ : State} {s : State} (hk : Keeps s₀ s) : Keeps s₀ (State.crossMedia s) := by
  unfold State.crossMedia
  (repeat' (first | (intro) | (with_reducible assumption) | (with_reducible apply keeps_giveCredit) | (fail_if_no_progress with_reducible apply keeps_mk) | (with_reducible apply keeps_foldl)))

theorem keeps_freeFrame {s₀ : State} {s : State} {h : Nat} (hk : Keeps s₀ s) : Keeps s₀ (State.freeFrame s h) := by
  unfold State.freeFrame
  (repeat' (first | (with_reducible assumption) | (with_reducible apply keeps_releaseCopy) | (with_reducible apply keeps_setFrame) | (split)))

theorem keeps_dropMedia {s₀ : State} {s : State} (hk : Keeps s₀ s) : Keeps s₀ (State.dropMedia s) := by
  unfold State.dropMedia
  (repeat' (first | (intro) | (with_reducible assumption) | (with_reducible apply keeps_crossMedia) | (with_reducible apply keeps_releaseCopy) | (with_reducible apply keeps_freeFrame) | (fail_if_no_progress with_reducible apply keeps_mk) | (with_reducible apply keeps_foldl)))

theorem keeps_takeCells {s₀ : State} {s : State} {h : Nat} {k : Nat} (hk : Keeps s₀ s) : Keeps s₀ (State.takeCells s h k).2 := by
  unfold State.takeCells
  (repeat' (first | (intro) | (with_reducible assumption) | (with_reducible apply keeps_setCell) | (with_reducible apply keeps_put) | (with_reducible apply keeps_foldl)))
theorem keeps_takeCells_eq {s₀ : State} {s : State} {h : Nat} {k : Nat} {ra rt} (he : State.takeCells s h k = (ra, rt)) (hk : Keeps s₀ s) : Keeps s₀ rt := by
  have := keeps_takeCells (s := s) (h := h) (k := k) hk; rw [he] at this; exact this

theorem keeps_storeFrame {s₀ : State} {s : State} {h : Nat} {f : Frame} (hk : Keeps s₀ s) : Keeps s₀ (State.storeFrame s h f) := by
  unfold State.storeFrame
  (repeat' (first | (intro) | (with_reducible assumption) | (with_reducible apply keeps_takeCells) | (with_reducible apply keeps_poolTake) | (with_reducible apply keeps_trimFrame) | (with_reducible apply keeps_setFrame) | (with_reducible apply keeps_foldl)))

theorem keeps_takeCredit {s₀ : State} {s : State} {p : Nat} {d : Nat} (hk : Keeps s₀ s) : Keeps s₀ (State.takeCredit s p d) := by
  unfold State.takeCredit
  (repeat' (first | (with_reducible assumption) | (with_reducible apply keeps_setFabricCredit)))

theorem keeps_takeHead {s₀ : State} {s : State} {h : Nat} (hk : Keeps s₀ s) : Keeps s₀ (State.takeHead s h).2 := by
  unfold State.takeHead
  (repeat' (first | (intro) | (with_reducible assumption) | (with_reducible apply keeps_takeCells) | (with_reducible apply keeps_setFrame) | (with_reducible apply keeps_poolTake) | (with_reducible apply keeps_foldl) | (dsimp -zeta only) | (split)))
theorem keeps_takeHead_eq {s₀ : State} {s : State} {h : Nat} {ra rt} (he : State.takeHead s h = (ra, rt)) (hk : Keeps s₀ s) : Keeps s₀ rt := by
  have := keeps_takeHead (s := s) (h := h) hk; rw [he] at this; exact this

theorem keeps_takeHeadIf {s₀ : State} {s : State} {h : Option Nat} {writes : Bool} (hk : Keeps s₀ s) : Keeps s₀ (State.takeHeadIf s h writes).2 := by
  unfold State.takeHeadIf
  (repeat' (first | (with_reducible assumption) | (with_reducible apply keeps_takeHead) | (split)))
theorem keeps_takeHeadIf_eq {s₀ : State} {s : State} {h : Option Nat} {writes : Bool} {ra rt} (he : State.takeHeadIf s h writes = (ra, rt)) (hk : Keeps s₀ s) : Keeps s₀ rt := by
  have := keeps_takeHeadIf (s := s) (h := h) (writes := writes) hk; rw [he] at this; exact this

theorem keeps_execCreditReset {s₀ : State} {pipe : Fin 4} {dest : Fin 37} {s : State} (hk : Keeps s₀ s) : KeepsO s₀ (execCreditReset pipe dest s) := by
  unfold execCreditReset
  (repeat' (first | (with_reducible assumption) | (with_reducible apply keepsO_ok) | (with_reducible apply keepsO_ite) | (with_reducible apply keeps_bookRepaired) | (fail_if_no_progress with_reducible apply keeps_mk)))

theorem keeps_execLeakFix {s₀ : State} {s : State} (hk : Keeps s₀ s) : KeepsO s₀ (execLeakFix s) := by
  unfold execLeakFix
  (repeat' (first | (intro) | (with_reducible assumption) | (with_reducible apply keepsO_ok) | (with_reducible apply keepsO_ite) | (with_reducible apply keeps_put) | (with_reducible apply keeps_setCell) | (with_reducible apply keeps_bookRepaired) | (with_reducible apply keeps_raise) | (with_reducible apply keeps_bumpBy) | (fail_if_no_progress with_reducible apply keeps_mk) | (with_reducible apply keeps_foldl)))

end Sys2Proof.Machine
end

