-- ==== Sys2Proof/Laws/KeepsAccess.lean ====
section
/-! SUPPORT. `Keeps`, for every function of Machine/Access.lean. -/

set_option linter.all false
set_option simprocs false

namespace Sys2Proof.Machine

theorem keeps_configRead {s₀ : State} {s : State} {who : Requester} {f : Nat} {off : Nat} {size : Nat} (hk : Keeps s₀ s) : Keeps s₀ (State.configRead s who f off size) := by
  unfold State.configRead
  (repeat' (first | (with_reducible assumption) | (fail_if_no_progress with_reducible apply keeps_mk)))

theorem keeps_holdAccess {s₀ : State} {s : State} {x : SvcWait} (hk : Keeps s₀ s) : Keeps s₀ (State.holdAccess s x) := by
  unfold State.holdAccess
  (repeat' (first | (with_reducible assumption) | (fail_if_no_progress with_reducible apply keeps_mk_sup)))

theorem keeps_setHold {s₀ : State} {s : State} {h : Hold} (hk : Keeps s₀ s) : Keeps s₀ (State.setHold s h) := by
  unfold State.setHold
  (repeat' (first | (with_reducible assumption) | (fail_if_no_progress with_reducible apply keeps_mk)))

theorem keeps_clearRc {s₀ : State} {s : State} {k : Nat} (hk : Keeps s₀ s) : Keeps s₀ (State.clearRc s k) := by
  unfold State.clearRc
  (repeat' (first | (with_reducible assumption) | (with_reducible apply keeps_ite) | (with_reducible apply keeps_wr) | (split)))

theorem keeps_read32 {s₀ : State} {s : State} {who : Requester} {k : Nat} (hk : Keeps s₀ s) : Keeps s₀ (State.read32 s who k).2 := by
  unfold State.read32
  (repeat' (first | (with_reducible assumption) | (with_reducible apply keeps_ite) | (with_reducible apply keeps_setHold) | (with_reducible apply keeps_clearRc) | (extract_lets -underBinder +onlyGivenNames sx; refine (have kx : Keeps s₀ sx := ?_; ?_); dsimp -zeta only [sx]; rotate_left; clear_value sx; rotate_right) | (extract_lets -underBinder +onlyGivenNames sx; clear_value sx) | (split)))
theorem keeps_read32_eq {s₀ : State} {s : State} {who : Requester} {k : Nat} {ra rt} (he : State.read32 s who k = (ra, rt)) (hk : Keeps s₀ s) : Keeps s₀ rt := by
  have := keeps_read32 (s := s) (who := who) (k := k) hk; rw [he] at this; exact this

theorem keeps_readKey {s₀ : State} {s : State} {who : Requester} {k : Nat} {size : Nat} (hk : Keeps s₀ s) : Keeps s₀ (State.readKey s who k size) := by
  unfold State.readKey
  (repeat' (first | (with_reducible assumption) | (with_reducible apply keeps_ite) | (with_reducible apply keeps_read32) | (with_reducible apply keeps_clearRc) | (fail_if_no_progress with_reducible apply keeps_mk)))

theorem keeps_busRead {s₀ : State} {s : State} {who : Requester} {a : Addr} {size : Nat} (hk : Keeps s₀ s) : Keeps s₀ (State.busRead s who a size) := by
  unfold State.busRead
  (repeat' (first | (with_reducible assumption) | (with_reducible apply keeps_ite) | (with_reducible apply keeps_configRead) | (with_reducible apply keeps_settleFor) | (with_reducible apply keeps_holdAccess) | (with_reducible apply keeps_readKey) | (fail_if_no_progress with_reducible apply keeps_mk) | (split)))

theorem keeps_write32Via {s₀ : State} {s : State} {who : Requester} {word : Nat → Nat → State → State} {pair : Nat → Nat → State → State} {k : Nat} {v : Nat} (hk : Keeps s₀ s) (hk_word : ∀ (x0 : Nat) (x1 : Nat) (x2 : State), Keeps s₀ x2 → Keeps s₀ (word x0 x1 x2)) (hk_pair : ∀ (x0 : Nat) (x1 : Nat) (x2 : State), Keeps s₀ x2 → Keeps s₀ (pair x0 x1 x2)) : Keeps s₀ (State.write32Via s who word pair k v) := by
  unfold State.write32Via
  (repeat' (first | (with_reducible assumption) | (with_reducible apply keeps_ite) | (with_reducible apply hk_word) | (with_reducible apply hk_pair) | (with_reducible apply keeps_setHold) | (split)))

theorem keeps_writeKeyVia {s₀ : State} {s : State} {who : Requester} {word : Nat → Nat → State → State} {pair : Nat → Nat → State → State} {k : Nat} {size : Nat} {v : Nat} (hk : Keeps s₀ s) (hk_word : ∀ (x0 : Nat) (x1 : Nat) (x2 : State), Keeps s₀ x2 → Keeps s₀ (word x0 x1 x2)) (hk_pair : ∀ (x0 : Nat) (x1 : Nat) (x2 : State), Keeps s₀ x2 → Keeps s₀ (pair x0 x1 x2)) : Keeps s₀ (State.writeKeyVia s who word pair k size v) := by
  unfold State.writeKeyVia
  (repeat' (first | (intro) | (with_reducible assumption) | (with_reducible apply keeps_ite) | (with_reducible apply hk_word) | (with_reducible apply hk_pair) | (with_reducible apply keeps_write32Via)))

theorem keeps_busWriteVia {s₀ : State} {s : State} {who : Requester} {word : Nat → Nat → State → State} {pair : Nat → Nat → State → State} {config : Nat → Nat → Nat → State → State} {a : Addr} {size : Nat} {v : Nat} (hk : Keeps s₀ s) (hk_word : ∀ (x0 : Nat) (x1 : Nat) (x2 : State), Keeps s₀ x2 → Keeps s₀ (word x0 x1 x2)) (hk_pair : ∀ (x0 : Nat) (x1 : Nat) (x2 : State), Keeps s₀ x2 → Keeps s₀ (pair x0 x1 x2)) (hk_config : ∀ (x0 : Nat) (x1 : Nat) (x2 : Nat) (x3 : State), Keeps s₀ x3 → Keeps s₀ (config x0 x1 x2 x3)) : Keeps s₀ (State.busWriteVia s who word pair config a size v) := by
  unfold State.busWriteVia
  (repeat' (first | (intro) | (with_reducible assumption) | (with_reducible apply keeps_ite) | (with_reducible apply hk_word) | (with_reducible apply hk_pair) | (with_reducible apply hk_config) | (with_reducible apply keeps_holdAccess) | (with_reducible apply keeps_writeKeyVia) | (fail_if_no_progress with_reducible apply keeps_mk) | (split)))

theorem keeps_sealWrite {s₀ : State} {s : State} {who : Requester} {k : Nat} (hk : Keeps s₀ s) : Keeps s₀ (State.sealWrite s who k) := by
  unfold State.sealWrite
  (repeat' (first | (with_reducible assumption) | (with_reducible apply keeps_raise) | (with_reducible apply keeps_hlog)))

theorem keeps_setWord {s₀ : State} {s : State} {k : Nat} {v : Nat} (hk : Keeps s₀ s) : Keeps s₀ (State.setWord s k v) := by
  unfold State.setWord
  (repeat' (first | (with_reducible assumption) | (with_reducible apply keeps_ite) | (with_reducible apply keeps_wr) | (split)))

theorem keeps_writePair {s₀ : State} {s : State} {who : Requester} {k : Nat} {v : Nat} (hk : Keeps s₀ s) : Keeps s₀ (State.writePair s who k v) := by
  unfold State.writePair
  (repeat' (first | (with_reducible assumption) | (with_reducible apply keeps_ite) | (with_reducible apply keeps_setWord) | (with_reducible apply keeps_sealWrite)))

theorem keeps_writeWord {s₀ : State} {s : State} {who : Requester} {k : Nat} {v : Nat} (hk : Keeps s₀ s) : Keeps s₀ (State.writeWord s who k v) := by
  unfold State.writeWord
  (repeat' (first | (with_reducible assumption) | (with_reducible apply keeps_ite) | (with_reducible apply keeps_sealWrite) | (with_reducible apply keeps_setWord)))

theorem keeps_execPairLoRead {s₀ : State} {r : Requester} {a : Addr} {s : State} (hk : Keeps s₀ s) : KeepsO s₀ (execPairLoRead r a s) := by
  unfold execPairLoRead
  (repeat' (first | (with_reducible assumption) | (with_reducible apply keepsO_ok) | (with_reducible apply keeps_busRead)))

theorem keeps_execReadClear {s₀ : State} {r : Requester} {a : Addr} {size : Nat} {s : State} (hk : Keeps s₀ s) : KeepsO s₀ (execReadClear r a size s) := by
  unfold execReadClear
  (repeat' (first | (with_reducible assumption) | (with_reducible apply keepsO_ok) | (with_reducible apply keeps_busRead)))

end Sys2Proof.Machine
end

