-- ==== Sys2Proof/Laws/KeepsPcie.lean ====
section
/-! SUPPORT. `Keeps`, for every function of Machine/Pcie.lean. -/

set_option linter.all false
set_option simprocs false

namespace Sys2Proof.Machine

theorem keeps_resetConfig {s₀ : State} {s : State} {f : Nat} (hk : Keeps s₀ s) : Keeps s₀ (State.resetConfig s f) := by
  unfold State.resetConfig
  (repeat' (first | (with_reducible assumption) | (with_reducible apply keeps_resetWords)))

theorem keeps_sendHost {s₀ : State} {s : State} {o : Out} (hk : Keeps s₀ s) : Keeps s₀ (State.sendHost s o) := by
  unfold State.sendHost
  (repeat' (first | (with_reducible assumption) | (with_reducible apply keeps_emit) | (fail_if_no_progress with_reducible apply keeps_mk)))

theorem keeps_cfgPut {s₀ : State} {s : State} {f : Nat} {off : Nat} {v : Nat} (hk : Keeps s₀ s) : Keeps s₀ (State.cfgPut s f off v) := by
  unfold State.cfgPut
  (repeat' (first | (with_reducible assumption) | (with_reducible apply keeps_ite) | (with_reducible apply keeps_wr)))

theorem keeps_setTagLimit {s₀ : State} {s : State} (hk : Keeps s₀ s) : Keeps s₀ (State.setTagLimit s) := by
  unfold State.setTagLimit
  (repeat' (first | (with_reducible assumption) | (with_reducible apply keeps_put)))

theorem keeps_logAer {s₀ : State} {s : State} {f : Nat} {e : AerError} (hk : Keeps s₀ s) : Keeps s₀ (State.logAer s f e) := by
  unfold State.logAer
  (repeat' (first | (with_reducible assumption) | (with_reducible apply keeps_put)))

end Sys2Proof.Machine
end

