-- ==== Sys2Proof/Laws/KeepsDma.lean ====
section
/-! SUPPORT. `Keeps`, for every function of Machine/Dma.lean. -/

set_option linter.all false
set_option simprocs false

namespace Sys2Proof.Machine

theorem keeps_countTags {s₀ : State} {s : State} (hk : Keeps s₀ s) : Keeps s₀ (State.countTags s) := by
  unfold State.countTags
  (repeat' (first | (intro) | (with_reducible assumption) | (with_reducible apply keeps_when) | (with_reducible apply keeps_put)))

theorem keeps_pumpReads {s₀ : State} {s : State} {a1 : Nat} (hk : Keeps s₀ s) : Keeps s₀ (State.pumpReads s a1) := by
  induction a1 generalizing s with
  | zero => unfold State.pumpReads; (repeat' (first | (intro) | (with_reducible assumption) | (with_reducible apply keeps_when) | (with_reducible apply keeps_sendHost) | (with_reducible apply keeps_countTags) | (fail_if_no_progress with_reducible apply keeps_mk) | (extract_lets -underBinder +onlyGivenNames sx; clear_value sx) | (split)))
  | succ n ih => unfold State.pumpReads; (repeat' (first | (with_reducible apply ih) | (intro) | (with_reducible assumption) | (with_reducible apply keeps_when) | (with_reducible apply keeps_sendHost) | (with_reducible apply keeps_countTags) | (fail_if_no_progress with_reducible apply keeps_mk) | (extract_lets -underBinder +onlyGivenNames sx; clear_value sx) | (split)))

theorem keeps_freeTag {s₀ : State} {s : State} {t : Nat} (hk : Keeps s₀ s) : Keeps s₀ (State.freeTag s t) := by
  unfold State.freeTag
  (repeat' (first | (with_reducible assumption) | (with_reducible apply keeps_countTags) | (fail_if_no_progress with_reducible apply keeps_mk)))

theorem keeps_withWalks {s₀ : State} {s : State} {w : List Walk8} {run : State → State} (hk : Keeps s₀ s) (hk_run : ∀ (x0 : State), Keeps s₀ x0 → Keeps s₀ (run x0)) : Keeps s₀ (State.withWalks s w run) := by
  unfold State.withWalks
  (repeat' (first | (with_reducible assumption) | (with_reducible apply hk_run) | (fail_if_no_progress with_reducible apply keeps_mk)))

theorem keeps_dmaOpen {s₀ : State} {s : State} {func : Nat} (hk : Keeps s₀ s) : Keeps s₀ (State.dmaOpen s func).2 := by
  unfold State.dmaOpen
  (repeat' (first | (with_reducible assumption) | (with_reducible apply keeps_bump) | (split)))
theorem keeps_dmaOpen_eq {s₀ : State} {s : State} {func : Nat} {ra rt} (he : State.dmaOpen s func = (ra, rt)) (hk : Keeps s₀ s) : Keeps s₀ rt := by
  have := keeps_dmaOpen (s := s) (func := func) hk; rw [he] at this; exact this

theorem keeps_transFault {s₀ : State} {s : State} {func : Nat} {addr : Nat} {k : Nat} (hk : Keeps s₀ s) : Keeps s₀ (State.transFault s func addr k) := by
  unfold State.transFault
  (repeat' (first | (intro) | (with_reducible assumption) | (with_reducible apply keeps_when) | (with_reducible apply keeps_bump) | (with_reducible apply keeps_bumpSat) | (with_reducible apply keeps_put) | (with_reducible apply keeps_oncePerTick) | (with_reducible apply keeps_raiseFor)))

theorem keeps_tlbLookup {s₀ : State} {s : State} {func : Nat} {addr : Nat} (hk : Keeps s₀ s) : Keeps s₀ (State.tlbLookup s func addr).2 := by
  unfold State.tlbLookup
  (repeat' (first | (with_reducible assumption) | (with_reducible apply keeps_takeFree) | (fail_if_no_progress with_reducible apply keeps_mk) | (extract_lets -underBinder +onlyGivenNames sx; clear_value sx) | (dsimp -zeta only) | (split)))
theorem keeps_tlbLookup_eq {s₀ : State} {s : State} {func : Nat} {addr : Nat} {ra rt} (he : State.tlbLookup s func addr = (ra, rt)) (hk : Keeps s₀ s) : Keeps s₀ rt := by
  have := keeps_tlbLookup (s := s) (func := func) (addr := addr) hk; rw [he] at this; exact this

theorem keeps_readAtOnce {s₀ : State} {s : State} {func : Nat} {host : Nat} (hk : Keeps s₀ s) : Keeps s₀ (State.readAtOnce s func host) := by
  unfold State.readAtOnce
  (repeat' (first | (with_reducible assumption) | (with_reducible apply keeps_sendHost) | (with_reducible apply keeps_put)))

theorem keeps_readTable {s₀ : State} {s : State} {func : Nat} {host : Nat} (hk : Keeps s₀ s) : Keeps s₀ (State.readTable s func host).2 := by
  unfold State.readTable
  (repeat' (first | (with_reducible assumption) | (with_reducible apply keeps_readAtOnce) | (fail_if_no_progress with_reducible apply keeps_mk)))
theorem keeps_readTable_eq {s₀ : State} {s : State} {func : Nat} {host : Nat} {ra rt} (he : State.readTable s func host = (ra, rt)) (hk : Keeps s₀ s) : Keeps s₀ rt := by
  have := keeps_readTable (s := s) (func := func) (host := host) hk; rw [he] at this; exact this

theorem keeps_tableEntry {s₀ : State} {s : State} {func : Nat} {host : Nat} (hk : Keeps s₀ s) : Keeps s₀ (State.tableEntry s func host).2 := by
  unfold State.tableEntry
  (repeat' (first | (with_reducible assumption) | (with_reducible apply keeps_readTable) | (with_reducible apply keeps_takeFree) | (fail_if_no_progress with_reducible apply keeps_mk) | (extract_lets -underBinder +onlyGivenNames sx; clear_value sx) | (dsimp -zeta only) | (split)))
theorem keeps_tableEntry_eq {s₀ : State} {s : State} {func : Nat} {host : Nat} {ra rt} (he : State.tableEntry s func host = (ra, rt)) (hk : Keeps s₀ s) : Keeps s₀ rt := by
  have := keeps_tableEntry (s := s) (func := func) (host := host) hk; rw [he] at this; exact this

theorem keeps_cacheTable {s₀ : State} {s : State} {func : Nat} {host : Nat} {e : Nat} (hk : Keeps s₀ s) : Keeps s₀ (State.cacheTable s func host e) := by
  unfold State.cacheTable
  (repeat' (first | (with_reducible assumption) | (fail_if_no_progress with_reducible apply keeps_mk)))

theorem keeps_walkTables {s₀ : State} {func : Nat} {addr : Nat} {a2 : Nat} {a3 : Nat} {a4 : State} (hk : Keeps s₀ a4) : Keeps s₀ (walkTables func addr a2 a3 a4).2 := by
  induction a2 generalizing a3 a4 with
  | zero => exact hk
  | succ n ih =>
    unfold walkTables
    extract_lets log2 host
    split
    rename_i e s' he
    have h' : Keeps s₀ s' := keeps_tableEntry_eq he hk
    split
    · exact h'
    · extract_lets e2 leaf
      (repeat' split) <;> first | exact h' | exact ih (keeps_cacheTable h')
theorem keeps_walkTables_eq {s₀ : State} {func : Nat} {addr : Nat} {a2 : Nat} {a3 : Nat} {a4 : State} {ra rt} (he : walkTables func addr a2 a3 a4 = (ra, rt)) (hk : Keeps s₀ a4) : Keeps s₀ rt := by
  have := keeps_walkTables (func := func) (addr := addr) (a2 := a2) (a3 := a3) (a4 := a4) hk; rw [he] at this; exact this

theorem keeps_cacheLeaf {s₀ : State} {s : State} {e : TlbEntry} (hk : Keeps s₀ s) : Keeps s₀ (State.cacheLeaf s e) := by
  unfold State.cacheLeaf
  (repeat' (first | (with_reducible assumption) | (fail_if_no_progress with_reducible apply keeps_mk)))

theorem keeps_translate {s₀ : State} {s : State} {func : Nat} {addr : Nat} {len : Nat} {write : Bool} (hk : Keeps s₀ s) : Keeps s₀ (State.translate s func addr len write).2 := by
  unfold State.translate
  (repeat' (first | (intro) | (with_reducible assumption) | (with_reducible apply keeps_transFault) | (with_reducible apply keeps_tlbLookup_eq (by assumption)) | (with_reducible apply keeps_bump) | (with_reducible apply keeps_walkTables) | (with_reducible apply keeps_trackPulse) | (with_reducible apply keeps_cacheLeaf) | (fail_if_no_progress with_reducible apply keeps_mk) | (extract_lets -underBinder +onlyGivenNames sx; refine (have kx : Keeps s₀ sx := ?_; ?_); dsimp -zeta only [sx]; rotate_left; clear_value sx; rotate_right) | (extract_lets -underBinder +onlyGivenNames sx; refine (have kx : ∀ a b, Keeps s₀ a → Keeps s₀ (sx a b).2 := ?_; ?_); dsimp -zeta only [sx]; rotate_left; clear_value sx; rotate_right) | (extract_lets -underBinder +onlyGivenNames sx; clear_value sx) | (with_reducible apply_assumption (exfalso := false) (symm := false)) | (dsimp -zeta only) | (split)))
theorem keeps_translate_eq {s₀ : State} {s : State} {func : Nat} {addr : Nat} {len : Nat} {write : Bool} {ra rt} (he : State.translate s func addr len write = (ra, rt)) (hk : Keeps s₀ s) : Keeps s₀ rt := by
  have := keeps_translate (s := s) (func := func) (addr := addr) (len := len) (write := write) hk; rw [he] at this; exact this

theorem keeps_readPieces {s₀ : State} {s : State} {use : ReadUse} {func : Nat} {addr : Nat} {len : Nat} {a5 : Nat} (hk : Keeps s₀ s) : Keeps s₀ (State.readPieces s use func addr len a5).2 := by
  induction a5 generalizing s use func addr len with
  | zero => unfold State.readPieces; (repeat' (first | (with_reducible assumption) | (with_reducible apply keeps_translate_eq (by assumption)) | (fail_if_no_progress with_reducible apply keeps_mk) | (extract_lets -underBinder +onlyGivenNames sx; clear_value sx) | (split)))
  | succ n ih => unfold State.readPieces; (repeat' (first | (with_reducible apply ih) | (with_reducible refine keeps_pair (ih ?_) (by with_reducible assumption)) | (with_reducible assumption) | (with_reducible apply keeps_translate_eq (by assumption)) | (fail_if_no_progress with_reducible apply keeps_mk) | (extract_lets -underBinder +onlyGivenNames sx; clear_value sx) | (split)))
theorem keeps_readPieces_eq {s₀ : State} {s : State} {use : ReadUse} {func : Nat} {addr : Nat} {len : Nat} {a5 : Nat} {ra rt} (he : State.readPieces s use func addr len a5 = (ra, rt)) (hk : Keeps s₀ s) : Keeps s₀ rt := by
  have := keeps_readPieces (s := s) (use := use) (func := func) (addr := addr) (len := len) (a5 := a5) hk; rw [he] at this; exact this

theorem keeps_dmaRead {s₀ : State} {s : State} {use : ReadUse} {func : Nat} {addr : Nat} {len : Nat} (hk : Keeps s₀ s) : Keeps s₀ (State.dmaRead s use func addr len).2 := by
  unfold State.dmaRead
  (repeat' (first | (with_reducible assumption) | (with_reducible apply keeps_dmaOpen_eq (by assumption)) | (with_reducible apply keeps_readPieces) | (with_reducible apply keeps_pumpReads) | (dsimp -zeta only) | (split)))
theorem keeps_dmaRead_eq {s₀ : State} {s : State} {use : ReadUse} {func : Nat} {addr : Nat} {len : Nat} {ra rt} (he : State.dmaRead s use func addr len = (ra, rt)) (hk : Keeps s₀ s) : Keeps s₀ rt := by
  have := keeps_dmaRead (s := s) (use := use) (func := func) (addr := addr) (len := len) hk; rw [he] at this; exact this

theorem keeps_markDirty {s₀ : State} {s : State} {func : Nat} {addr : Nat} (hk : Keeps s₀ s) : Keeps s₀ (State.markDirty s func addr) := by
  unfold State.markDirty
  (repeat' (first | (with_reducible assumption) | (with_reducible apply keeps_ite) | (with_reducible apply keeps_bump) | (fail_if_no_progress with_reducible apply keeps_mk)))

theorem keeps_writePieces {s₀ : State} {s : State} {relaxed : Bool} {func : Nat} {addr : Nat} {l : Bytes} {a5 : Nat} (hk : Keeps s₀ s) : Keeps s₀ (State.writePieces s relaxed func addr l a5).2 := by
  induction a5 generalizing s relaxed func addr l with
  | zero => unfold State.writePieces; (repeat' (first | (with_reducible assumption) | (with_reducible apply keeps_translate_eq (by assumption)) | (with_reducible apply keeps_sendHost) | (with_reducible apply keeps_markDirty) | (extract_lets -underBinder +onlyGivenNames sx; clear_value sx) | (dsimp -zeta only) | (split)))
  | succ n ih => unfold State.writePieces; (repeat' (first | (with_reducible apply ih) | (with_reducible refine keeps_pair (ih ?_) (by with_reducible assumption)) | (with_reducible assumption) | (with_reducible apply keeps_translate_eq (by assumption)) | (with_reducible apply keeps_sendHost) | (with_reducible apply keeps_markDirty) | (extract_lets -underBinder +onlyGivenNames sx; clear_value sx) | (dsimp -zeta only) | (split)))
theorem keeps_writePieces_eq {s₀ : State} {s : State} {relaxed : Bool} {func : Nat} {addr : Nat} {l : Bytes} {a5 : Nat} {ra rt} (he : State.writePieces s relaxed func addr l a5 = (ra, rt)) (hk : Keeps s₀ s) : Keeps s₀ rt := by
  have := keeps_writePieces (s := s) (relaxed := relaxed) (func := func) (addr := addr) (l := l) (a5 := a5) hk; rw [he] at this; exact this

theorem keeps_writeMark {s₀ : State} {s : State} {x : Nat × Bool × Nat × Nat} (hk : Keeps s₀ s) : Keeps s₀ (State.writeMark s x) := by
  unfold State.writeMark
  (repeat' (first | (with_reducible assumption) | (with_reducible apply keeps_dmaOpen_eq (by assumption)) | (with_reducible apply keeps_translate_eq (by assumption)) | (with_reducible apply keeps_readAtOnce) | (with_reducible apply keeps_sendHost) | (extract_lets -underBinder +onlyGivenNames sx; clear_value sx) | (split)))

theorem keeps_spillMarks {s₀ : State} {s : State} (hk : Keeps s₀ s) : Keeps s₀ (State.spillMarks s) := by
  unfold State.spillMarks
  (repeat' (first | (intro) | (with_reducible assumption) | (with_reducible apply keeps_ite) | (with_reducible apply keeps_writeMark) | (fail_if_no_progress with_reducible apply keeps_mk) | (with_reducible apply keeps_foldl)))

theorem keeps_dmaWriteBy {s₀ : State} {s : State} {relaxed : Bool} {func : Nat} {addr : Nat} {l : Bytes} (hk : Keeps s₀ s) : Keeps s₀ (State.dmaWriteBy s relaxed func addr l).2 := by
  unfold State.dmaWriteBy
  (repeat' (first | (with_reducible assumption) | (with_reducible apply keeps_dmaOpen_eq (by assumption)) | (with_reducible apply keeps_writePieces) | (with_reducible apply keeps_spillMarks) | (dsimp -zeta only) | (split)))
theorem keeps_dmaWriteBy_eq {s₀ : State} {s : State} {relaxed : Bool} {func : Nat} {addr : Nat} {l : Bytes} {ra rt} (he : State.dmaWriteBy s relaxed func addr l = (ra, rt)) (hk : Keeps s₀ s) : Keeps s₀ rt := by
  have := keeps_dmaWriteBy (s := s) (relaxed := relaxed) (func := func) (addr := addr) (l := l) hk; rw [he] at this; exact this

theorem keeps_dmaWrite {s₀ : State} {s : State} {func : Nat} {addr : Nat} {l : Bytes} (hk : Keeps s₀ s) : Keeps s₀ (State.dmaWrite s func addr l).2 := by
  unfold State.dmaWrite
  (repeat' (first | (with_reducible assumption) | (with_reducible apply keeps_dmaWriteBy)))
theorem keeps_dmaWrite_eq {s₀ : State} {s : State} {func : Nat} {addr : Nat} {l : Bytes} {ra rt} (he : State.dmaWrite s func addr l = (ra, rt)) (hk : Keeps s₀ s) : Keeps s₀ rt := by
  have := keeps_dmaWrite (s := s) (func := func) (addr := addr) (l := l) hk; rw [he] at this; exact this

theorem keeps_dmaPayload {s₀ : State} {s : State} {func : Nat} {addr : Nat} {l : Bytes} (hk : Keeps s₀ s) : Keeps s₀ (State.dmaPayload s func addr l).2 := by
  unfold State.dmaPayload
  (repeat' (first | (with_reducible assumption) | (with_reducible apply keeps_dmaWriteBy)))
theorem keeps_dmaPayload_eq {s₀ : State} {s : State} {func : Nat} {addr : Nat} {l : Bytes} {ra rt} (he : State.dmaPayload s func addr l = (ra, rt)) (hk : Keeps s₀ s) : Keeps s₀ rt := by
  have := keeps_dmaPayload (s := s) (func := func) (addr := addr) (l := l) hk; rw [he] at this; exact this

end Sys2Proof.Machine
end

