-- ==== Sys2Proof/Laws/KeepsCipherPath.lean ====
section
/-! SUPPORT. `Keeps`, for every function of Machine/CipherPath.lean. -/

set_option linter.all false
set_option simprocs false

namespace Sys2Proof.Machine

theorem keeps_authFail {s₀ : State} {s : State} {kind : Nat} {id : Nat} (hk : Keeps s₀ s) : Keeps s₀ (State.authFail s kind id) := by
  unfold State.authFail
  (repeat' (first | (intro) | (with_reducible assumption) | (with_reducible apply keeps_oncePerTick) | (with_reducible apply keeps_bump) | (with_reducible apply keeps_raise)))

theorem keeps_emeCapture {s₀ : State} {s : State} {f : Nat} {ep : Nat} {m : Nat} {replay : Bool} (hk : Keeps s₀ s) : Keeps s₀ (State.emeCapture s f ep m replay).2 := by
  unfold State.emeCapture
  (repeat' (first | (intro) | (with_reducible assumption) | (with_reducible apply keeps_bump) | (with_reducible apply keeps_trackPulse) | (with_reducible apply keeps_oncePerTick) | (with_reducible apply keeps_raise) | (fail_if_no_progress with_reducible apply keeps_mk) | (extract_lets -underBinder +onlyGivenNames sx; refine (have kx : Keeps s₀ sx := ?_; ?_); dsimp -zeta only [sx]; rotate_left; clear_value sx; rotate_right) | (extract_lets -underBinder +onlyGivenNames sx; clear_value sx) | (dsimp -zeta only) | (split)))
theorem keeps_emeCapture_eq {s₀ : State} {s : State} {f : Nat} {ep : Nat} {m : Nat} {replay : Bool} {ra rt} (he : State.emeCapture s f ep m replay = (ra, rt)) (hk : Keeps s₀ s) : Keeps s₀ rt := by
  have := keeps_emeCapture (s := s) (f := f) (ep := ep) (m := m) (replay := replay) hk; rw [he] at this; exact this

theorem keeps_emeDecrypt {s₀ : State} {s : State} {f : Nat} {t : Nat} {hdr : Bytes} {body : Bytes} {enc : Nat} (hk : Keeps s₀ s) : Keeps s₀ (State.emeDecrypt s f t hdr body enc).2 := by
  unfold State.emeDecrypt
  (repeat' (first | (with_reducible assumption) | (with_reducible apply keeps_bump) | (with_reducible apply keeps_trackPulse) | (with_reducible apply keeps_authFail) | (extract_lets -underBinder +onlyGivenNames sx; refine (have kx : Keeps s₀ sx := ?_; ?_); dsimp -zeta only [sx]; rotate_left; clear_value sx; rotate_right) | (extract_lets -underBinder +onlyGivenNames sx; clear_value sx) | (split)))
theorem keeps_emeDecrypt_eq {s₀ : State} {s : State} {f : Nat} {t : Nat} {hdr : Bytes} {body : Bytes} {enc : Nat} {ra rt} (he : State.emeDecrypt s f t hdr body enc = (ra, rt)) (hk : Keeps s₀ s) : Keeps s₀ rt := by
  have := keeps_emeDecrypt (s := s) (f := f) (t := t) (hdr := hdr) (body := body) (enc := enc) hk; rw [he] at this; exact this

theorem keeps_pnNote {s₀ : State} {s : State} {sa : Nat} {kind : Nat} (hk : Keeps s₀ s) : Keeps s₀ (State.pnNote s sa kind) := by
  unfold State.pnNote
  (repeat' (first | (with_reducible assumption) | (with_reducible apply keeps_ite) | (with_reducible apply keeps_raise) | (fail_if_no_progress with_reducible apply keeps_mk)))

theorem keeps_takePn {s₀ : State} {s : State} {sa : Nat} {thresh : Nat} (hk : Keeps s₀ s) : Keeps s₀ (State.takePn s sa thresh).2 := by
  unfold State.takePn
  (repeat' (first | (with_reducible assumption) | (with_reducible apply keeps_ite) | (with_reducible apply keeps_pnNote) | (with_reducible apply keeps_bump) | (with_reducible apply keeps_put) | (extract_lets -underBinder +onlyGivenNames sx; refine (have kx : Keeps s₀ sx := ?_; ?_); dsimp -zeta only [sx]; rotate_left; clear_value sx; rotate_right) | (extract_lets -underBinder +onlyGivenNames sx; clear_value sx) | (split)))
theorem keeps_takePn_eq {s₀ : State} {s : State} {sa : Nat} {thresh : Nat} {ra rt} (he : State.takePn s sa thresh = (ra, rt)) (hk : Keeps s₀ s) : Keeps s₀ rt := by
  have := keeps_takePn (s := s) (sa := sa) (thresh := thresh) hk; rw [he] at this; exact this

theorem keeps_espCapture {s₀ : State} {s : State} {sa : Nat} (hk : Keeps s₀ s) : Keeps s₀ (State.espCapture s sa).2 := by
  unfold State.espCapture
  (repeat' (first | (with_reducible assumption) | (with_reducible apply keeps_bump) | (with_reducible apply keeps_takePn_eq (by assumption)) | (with_reducible apply keeps_trackPulse) | (split)))
theorem keeps_espCapture_eq {s₀ : State} {s : State} {sa : Nat} {ra rt} (he : State.espCapture s sa = (ra, rt)) (hk : Keeps s₀ s) : Keeps s₀ rt := by
  have := keeps_espCapture (s := s) (sa := sa) hk; rw [he] at this; exact this

theorem keeps_espIn {s₀ : State} {s : State} {l : Bytes} {ip : Nat} {esp : Nat} {stop : Nat} (hk : Keeps s₀ s) : Keeps s₀ (State.espIn s l ip esp stop).2 := by
  unfold State.espIn
  (repeat' (first | (with_reducible assumption) | (with_reducible apply keeps_ite) | (with_reducible apply keeps_bump) | (with_reducible apply keeps_trackPulse) | (with_reducible apply keeps_put) | (with_reducible apply keeps_authFail) | (fail_if_no_progress with_reducible apply keeps_mk) | (extract_lets -underBinder +onlyGivenNames sx; refine (have kx : Keeps s₀ sx := ?_; ?_); dsimp -zeta only [sx]; rotate_left; clear_value sx; rotate_right) | (extract_lets -underBinder +onlyGivenNames sx; clear_value sx) | (split)))
theorem keeps_espIn_eq {s₀ : State} {s : State} {l : Bytes} {ip : Nat} {esp : Nat} {stop : Nat} {ra rt} (he : State.espIn s l ip esp stop = (ra, rt)) (hk : Keeps s₀ s) : Keeps s₀ rt := by
  have := keeps_espIn (s := s) (l := l) (ip := ip) (esp := esp) (stop := stop) hk; rw [he] at this; exact this

theorem keeps_macCapture {s₀ : State} {s : State} {port : Nat} {etype : Nat} (hk : Keeps s₀ s) : Keeps s₀ (State.macCapture s port etype).2 := by
  unfold State.macCapture
  (repeat' (first | (with_reducible assumption) | (with_reducible apply keeps_bump) | (with_reducible apply keeps_takePn_eq (by assumption)) | (with_reducible apply keeps_trackPulse) | (with_reducible apply keeps_takeFree) | (extract_lets -underBinder +onlyGivenNames sx; clear_value sx) | (dsimp -zeta only) | (split)))
theorem keeps_macCapture_eq {s₀ : State} {s : State} {port : Nat} {etype : Nat} {ra rt} (he : State.macCapture s port etype = (ra, rt)) (hk : Keeps s₀ s) : Keeps s₀ rt := by
  have := keeps_macCapture (s := s) (port := port) (etype := etype) hk; rw [he] at this; exact this

theorem keeps_macsecIn {s₀ : State} {s : State} {port : Nat} {l : Bytes} (hk : Keeps s₀ s) : Keeps s₀ (State.macsecIn s port l).2 := by
  unfold State.macsecIn
  (repeat' (first | (with_reducible assumption) | (with_reducible apply keeps_ite) | (with_reducible apply keeps_bump) | (with_reducible apply keeps_trackPulse) | (with_reducible apply keeps_put) | (with_reducible apply keeps_authFail) | (extract_lets -underBinder +onlyGivenNames sx; clear_value sx) | (split)))
theorem keeps_macsecIn_eq {s₀ : State} {s : State} {port : Nat} {l : Bytes} {ra rt} (he : State.macsecIn s port l = (ra, rt)) (hk : Keeps s₀ s) : Keeps s₀ rt := by
  have := keeps_macsecIn (s := s) (port := port) (l := l) hk; rw [he] at this; exact this

theorem keeps_macsecOut {s₀ : State} {s : State} {port : Nat} {l : Bytes} (hk : Keeps s₀ s) : Keeps s₀ (State.macsecOut s port l).2 := by
  unfold State.macsecOut
  (repeat' (first | (with_reducible assumption) | (with_reducible apply keeps_macCapture_eq (by assumption)) | (split)))
theorem keeps_macsecOut_eq {s₀ : State} {s : State} {port : Nat} {l : Bytes} {ra rt} (he : State.macsecOut s port l = (ra, rt)) (hk : Keeps s₀ s) : Keeps s₀ rt := by
  have := keeps_macsecOut (s := s) (port := port) (l := l) hk; rw [he] at this; exact this

end Sys2Proof.Machine
end

