-- ==== Sys2Proof/Laws/KeepsTime.lean ====
section
/-! SUPPORT. `Keeps`, for every function of Machine/Time.lean. -/

set_option linter.all false
set_option simprocs false

namespace Sys2Proof.Machine

theorem keeps_moment {s₀ : State} {s : State} {o : Nat} (hk : Keeps s₀ s) : Keeps s₀ (State.moment s o) := by
  unfold State.moment
  (repeat' (first | (with_reducible assumption) | (with_reducible apply keeps_ite) | (with_reducible apply keeps_put)))

theorem keeps_runBmca {s₀ : State} {s : State} (hk : Keeps s₀ s) : Keeps s₀ (State.runBmca s) := by
  unfold State.runBmca
  (repeat' (first | (with_reducible assumption) | (with_reducible apply keeps_ite) | (with_reducible apply keeps_put) | (with_reducible apply keeps_raise) | (fail_if_no_progress with_reducible apply keeps_mk) | (split)))

theorem keeps_forgetPort {s₀ : State} {s : State} {p : Nat} (hk : Keeps s₀ s) : Keeps s₀ (State.forgetPort s p) := by
  unfold State.forgetPort
  (repeat' (first | (with_reducible assumption) | (with_reducible apply keeps_ite) | (with_reducible apply keeps_runBmca) | (fail_if_no_progress with_reducible apply keeps_mk)))

theorem keeps_refreshTime {s₀ : State} {s : State} (hk : Keeps s₀ s) : Keeps s₀ (State.refreshTime s) := by
  unfold State.refreshTime
  (repeat' (first | (with_reducible assumption) | (with_reducible apply keeps_ite) | (with_reducible apply keeps_put)))

theorem keeps_setSync {s₀ : State} {s : State} {st : Nat} (hk : Keeps s₀ s) : Keeps s₀ (State.setSync s st) := by
  unfold State.setSync
  (repeat' (first | (with_reducible assumption) | (with_reducible apply keeps_refreshTime) | (with_reducible apply keeps_put) | (with_reducible apply keeps_raise) | (fail_if_no_progress with_reducible apply keeps_mk) | (extract_lets -underBinder +onlyGivenNames sx; refine (have kx : Keeps s₀ sx := ?_; ?_); dsimp -zeta only [sx]; rotate_left; clear_value sx; rotate_right) | (split)))

theorem keeps_execRestep {s₀ : State} {r : Requester} {s : State} (hk : Keeps s₀ s) : KeepsO s₀ (execRestep r s) := by
  unfold execRestep
  (repeat' (first | (with_reducible assumption) | (with_reducible apply keepsO_ok) | (with_reducible apply keeps_ite) | (with_reducible apply keepsO_ite) | (with_reducible apply keeps_put)))

theorem keeps_mismatchRow {s₀ : State} {s : State} {row : Nat} {port : Nat} (hk : Keeps s₀ s) : Keeps s₀ (State.mismatchRow s row port) := by
  unfold State.mismatchRow
  (repeat' (first | (intro) | (with_reducible assumption) | (with_reducible apply keeps_when) | (with_reducible apply keeps_hlog) | (fail_if_no_progress with_reducible apply keeps_mk)))

theorem keeps_ptpDiscard {s₀ : State} {s : State} (hk : Keeps s₀ s) : Keeps s₀ (State.ptpDiscard s) := by
  unfold State.ptpDiscard
  (repeat' (first | (with_reducible assumption) | (with_reducible apply keeps_bumpSat)))

theorem keeps_awaitFollowUp {s₀ : State} {s : State} {p : Nat} {on : Bool} (hk : Keeps s₀ s) : Keeps s₀ (State.awaitFollowUp s p on) := by
  unfold State.awaitFollowUp
  (repeat' (first | (with_reducible assumption) | (fail_if_no_progress with_reducible apply keeps_mk)))

theorem keeps_stepTime {s₀ : State} {s : State} {tick : Nat} {offset : Nat} (hk : Keeps s₀ s) : Keeps s₀ (State.stepTime s tick offset) := by
  unfold State.stepTime
  (repeat' (first | (with_reducible assumption) | (with_reducible apply keeps_settle) | (with_reducible apply keeps_put) | (fail_if_no_progress with_reducible apply keeps_mk_sup)))

theorem keeps_setLocalNs {s₀ : State} {s : State} {ns : Nat} (hk : Keeps s₀ s) : Keeps s₀ (State.setLocalNs s ns) := by
  unfold State.setLocalNs
  (repeat' (first | (with_reducible assumption) | (with_reducible apply keeps_stepTime)))

theorem keeps_mayStep {s₀ : State} {s : State} {off : Int} (hk : Keeps s₀ s) : Keeps s₀ (State.mayStep s off) := by
  unfold State.mayStep
  (repeat' (first | (with_reducible assumption) | (with_reducible apply keeps_ite) | (with_reducible apply keeps_takeFree) | (with_reducible apply keeps_setLocalNs)))

theorem keeps_steer {s₀ : State} {s : State} (hk : Keeps s₀ s) : Keeps s₀ (State.steer s) := by
  unfold State.steer
  (repeat' (first | (with_reducible assumption) | (with_reducible apply keeps_takeFree) | (with_reducible apply keeps_put)))

theorem keeps_usableSync {s₀ : State} {s : State} {off : Int} {ppb : Int} (hk : Keeps s₀ s) : Keeps s₀ (State.usableSync s off ppb) := by
  unfold State.usableSync
  (repeat' (first | (with_reducible assumption) | (with_reducible apply keeps_ite) | (with_reducible apply keeps_put) | (with_reducible apply keeps_setSync) | (with_reducible apply keeps_mayStep) | (with_reducible apply keeps_steer) | (fail_if_no_progress with_reducible apply keeps_mk)))

theorem keeps_execPtpMessageReceived {s₀ : State} {port : Fin 32} {m : PtpMsg} {s : State} (hk : Keeps s₀ s) : KeepsO s₀ (execPtpMessageReceived port m s) := by
  unfold execPtpMessageReceived
  (repeat' (first | (with_reducible assumption) | (with_reducible apply keepsO_ok) | (with_reducible apply keeps_ite) | (with_reducible apply keepsO_ite) | (with_reducible apply keeps_mismatchRow) | (with_reducible apply keeps_ptpDiscard) | (with_reducible apply keeps_forgetPort) | (with_reducible apply keeps_runBmca) | (with_reducible apply keeps_awaitFollowUp) | (with_reducible apply keeps_usableSync) | (fail_if_no_progress with_reducible apply keeps_mk) | (split)))

theorem keeps_stampNow {s₀ : State} {s : State} (hk : Keeps s₀ s) : Keeps s₀ (State.stampNow s).2 := by
  unfold State.stampNow
  (repeat' (first | (with_reducible assumption) | (with_reducible apply keeps_takeFree)))
theorem keeps_stampNow_eq {s₀ : State} {s : State} {ra rt} (he : State.stampNow s = (ra, rt)) (hk : Keeps s₀ s) : Keeps s₀ rt := by
  have := keeps_stampNow (s := s) hk; rw [he] at this; exact this

theorem keeps_coast {s₀ : State} {s : State} (hk : Keeps s₀ s) : Keeps s₀ (State.coast s) := by
  unfold State.coast
  (repeat' (first | (with_reducible assumption) | (with_reducible apply keeps_ite) | (with_reducible apply keeps_steer) | (with_reducible apply keeps_put)))

theorem keeps_loseLock {s₀ : State} {s : State} (hk : Keeps s₀ s) : Keeps s₀ (State.loseLock s) := by
  unfold State.loseLock
  (repeat' (first | (with_reducible assumption) | (with_reducible apply keeps_ite) | (with_reducible apply keeps_setSync) | (with_reducible apply keeps_coast) | (fail_if_no_progress with_reducible apply keeps_mk)))

theorem keeps_execSyncTimeout {s₀ : State} {s : State} (hk : Keeps s₀ s) : KeepsO s₀ (execSyncTimeout s) := by
  unfold execSyncTimeout
  (repeat' (first | (with_reducible assumption) | (with_reducible apply keepsO_ok) | (with_reducible apply keeps_loseLock)))

theorem keeps_execAnnounceTimeout {s₀ : State} {gm : Fin 4} {s : State} (hk : Keeps s₀ s) : KeepsO s₀ (execAnnounceTimeout gm s) := by
  unfold execAnnounceTimeout
  (repeat' (first | (with_reducible assumption) | (with_reducible apply keepsO_ok) | (with_reducible apply keeps_ite) | (with_reducible apply keeps_runBmca) | (with_reducible apply keeps_loseLock) | (fail_if_no_progress with_reducible apply keeps_mk)))

theorem keeps_execHoldoverExpiry {s₀ : State} {s : State} (hk : Keeps s₀ s) : KeepsO s₀ (execHoldoverExpiry s) := by
  unfold execHoldoverExpiry
  (repeat' (first | (with_reducible assumption) | (with_reducible apply keepsO_ok) | (with_reducible apply keeps_ite) | (with_reducible apply keeps_setSync)))

theorem keeps_execDelayMechanismClear {s₀ : State} {port : Fin 32} {s : State} (hk : Keeps s₀ s) : KeepsO s₀ (execDelayMechanismClear port s) := by
  unfold execDelayMechanismClear
  (repeat' (first | (with_reducible assumption) | (with_reducible apply keepsO_ok) | (fail_if_no_progress with_reducible apply keeps_mk)))

theorem keeps_recoast {s₀ : State} {s : State} (hk : Keeps s₀ s) : Keeps s₀ (State.recoast s) := by
  unfold State.recoast
  (repeat' (first | (with_reducible assumption) | (with_reducible apply keeps_when) | (with_reducible apply keeps_coast)))

theorem keeps_execRef10Loss {s₀ : State} {s : State} (hk : Keeps s₀ s) : KeepsO s₀ (execRef10Loss s) := by
  unfold execRef10Loss
  (repeat' (first | (intro) | (with_reducible assumption) | (with_reducible apply keepsO_ok) | (with_reducible apply keepsO_ite) | (with_reducible apply keeps_when) | (with_reducible apply keeps_put) | (with_reducible apply keeps_mismatchRow) | (with_reducible apply keeps_recoast) | (with_reducible apply keeps_raise) | (fail_if_no_progress with_reducible apply keeps_mk)))

theorem keeps_ppsGood {s₀ : State} {s : State} (hk : Keeps s₀ s) : Keeps s₀ (State.ppsGood s) := by
  unfold State.ppsGood
  (repeat' (first | (with_reducible assumption) | (with_reducible apply keeps_ite) | (with_reducible apply keeps_put) | (fail_if_no_progress with_reducible apply keeps_mk)))

theorem keeps_ppsFail {s₀ : State} {s : State} (hk : Keeps s₀ s) : Keeps s₀ (State.ppsFail s) := by
  unfold State.ppsFail
  (repeat' (first | (with_reducible assumption) | (with_reducible apply keeps_ite) | (with_reducible apply keeps_mismatchRow) | (with_reducible apply keeps_raise) | (with_reducible apply keeps_put) | (fail_if_no_progress with_reducible apply keeps_mk)))

theorem keeps_execPpsEdge {s₀ : State} {errorNs : Int} {s : State} (hk : Keeps s₀ s) : KeepsO s₀ (execPpsEdge errorNs s) := by
  unfold execPpsEdge
  (repeat' (first | (with_reducible assumption) | (with_reducible apply keepsO_ok) | (with_reducible apply keeps_ite) | (with_reducible apply keepsO_ite) | (with_reducible apply keeps_ppsGood) | (with_reducible apply keeps_ppsFail)))

theorem keeps_execMediaStart {s₀ : State} {s : State} (hk : Keeps s₀ s) : KeepsO s₀ (execMediaStart s) := by
  unfold execMediaStart
  (repeat' (first | (with_reducible assumption) | (with_reducible apply keepsO_ok) | (with_reducible apply keepsO_ite) | (with_reducible apply keeps_put) | (fail_if_no_progress with_reducible apply keeps_mk)))

theorem keeps_execRestepStep {s₀ : State} {newTick : Fin 281474976710656} {newOffset : Nat} {s : State} (hk : Keeps s₀ s) : KeepsO s₀ (execRestepStep newTick newOffset s) := by
  unfold execRestepStep
  (repeat' (first | (with_reducible assumption) | (with_reducible apply keepsO_ok) | (with_reducible apply keepsO_ite) | (with_reducible apply keeps_stepTime) | (with_reducible apply keeps_put) | (with_reducible apply keeps_dropMedia) | (with_reducible apply keeps_setSync) | (fail_if_no_progress with_reducible apply keeps_mk)))

theorem keeps_rxStamp {s₀ : State} {s : State} (hk : Keeps s₀ s) : Keeps s₀ (State.rxStamp s).2 := by
  unfold State.rxStamp
  (repeat' (first | (with_reducible assumption) | (with_reducible apply keeps_stampNow)))
theorem keeps_rxStamp_eq {s₀ : State} {s : State} {ra rt} (he : State.rxStamp s = (ra, rt)) (hk : Keeps s₀ s) : Keeps s₀ rt := by
  have := keeps_rxStamp (s := s) hk; rw [he] at this; exact this

theorem keeps_refBack {s₀ : State} {s : State} (hk : Keeps s₀ s) : Keeps s₀ (State.refBack s) := by
  unfold State.refBack
  (repeat' (first | (with_reducible assumption) | (with_reducible apply keeps_ite) | (fail_if_no_progress with_reducible apply keeps_mk)))

theorem keeps_execRef10Return {s₀ : State} {s : State} (hk : Keeps s₀ s) : KeepsO s₀ (execRef10Return s) := by
  unfold execRef10Return
  (repeat' (first | (with_reducible assumption) | (with_reducible apply keepsO_ok) | (with_reducible apply keepsO_ite) | (with_reducible apply keeps_when) | (with_reducible apply keeps_put) | (with_reducible apply keeps_refBack) | (with_reducible apply keeps_recoast)))

theorem keeps_execPpsAbsent {s₀ : State} {s : State} (hk : Keeps s₀ s) : KeepsO s₀ (execPpsAbsent s) := by
  unfold execPpsAbsent
  (repeat' (first | (with_reducible assumption) | (with_reducible apply keepsO_ok) | (with_reducible apply keepsO_ite) | (with_reducible apply keeps_ppsFail)))

end Sys2Proof.Machine
end

