-- ==== Sys2Proof/Laws/KeepsOverride.lean ====
section
/-! SUPPORT. `Keeps`, for every function of Machine/Override.lean. -/

set_option linter.all false
set_option simprocs false

namespace Sys2Proof.Machine

theorem keeps_writeForce {s₀ : State} {s : State} {r : Requester} {v : Nat} (hk : Keeps s₀ s) : Keeps s₀ (State.writeForce s r v) := by
  unfold State.writeForce
  (repeat' (first | (with_reducible assumption) | (with_reducible apply keeps_ite) | (fail_if_no_progress with_reducible apply keeps_mk)))

theorem keeps_acceptSideband {s₀ : State} {s : State} {v : Nat} {tick : Nat} (hk : Keeps s₀ s) : Keeps s₀ (State.acceptSideband s v tick) := by
  unfold State.acceptSideband
  (repeat' (first | (with_reducible assumption) | (fail_if_no_progress with_reducible apply keeps_mk)))

theorem keeps_writeSideband {s₀ : State} {s : State} {r : Requester} {v : Nat} (hk : Keeps s₀ s) : Keeps s₀ (State.writeSideband s r v) := by
  unfold State.writeSideband
  (repeat' (first | (intro) | (with_reducible assumption) | (with_reducible apply keeps_ite) | (with_reducible apply keeps_localOnly) | (with_reducible apply keeps_carry) | (with_reducible apply keeps_acceptSideband)))

theorem keeps_refreshOverride {s₀ : State} {s : State} {src : OvrSource} {within : Bool} (hk : Keeps s₀ s) : Keeps s₀ (State.refreshOverride s src within) := by
  unfold State.refreshOverride
  (repeat' (first | (intro) | (with_reducible assumption) | (with_reducible apply keeps_ite) | (with_reducible apply keeps_when) | (with_reducible apply keeps_raise) | (with_reducible apply keeps_bump) | (with_reducible apply keeps_put) | (fail_if_no_progress with_reducible apply keeps_mk)))

theorem keeps_startLocal {s₀ : State} {s : State} {pinB : Bool} {e : Nat} (hk : Keeps s₀ s) : Keeps s₀ (State.startLocal s pinB e) := by
  unfold State.startLocal
  (repeat' (first | (with_reducible assumption) | (with_reducible apply keeps_ite) | (with_reducible apply keeps_put) | (with_reducible apply keeps_refreshOverride) | (fail_if_no_progress with_reducible apply keeps_mk)))

theorem keeps_pinsAtRun {s₀ : State} {s : State} (hk : Keeps s₀ s) : Keeps s₀ (State.pinsAtRun s) := by
  unfold State.pinsAtRun
  (repeat' (first | (with_reducible assumption) | (with_reducible apply keeps_ite) | (with_reducible apply keeps_startLocal)))

theorem keeps_overrideTick {s₀ : State} {s : State} (hk : Keeps s₀ s) : Keeps s₀ (State.overrideTick s) := by
  unfold State.overrideTick
  (repeat' (first | (intro) | (with_reducible assumption) | (with_reducible apply keeps_when) | (with_reducible apply keeps_put) | (with_reducible apply keeps_refreshOverride) | (fail_if_no_progress with_reducible apply keeps_mk)))

theorem keeps_remoteOverride {s₀ : State} {s : State} {n : Nat} (hk : Keeps s₀ s) : Keeps s₀ (State.remoteOverride s n) := by
  unfold State.remoteOverride
  (repeat' (first | (with_reducible assumption) | (with_reducible apply keeps_ite) | (fail_if_no_progress with_reducible apply keeps_mk)))

theorem keeps_setPin {s₀ : State} {s : State} {pinB : Bool} {low : Bool} (hk : Keeps s₀ s) : Keeps s₀ (State.setPin s pinB low) := by
  unfold State.setPin
  (repeat' (first | (with_reducible assumption) | (with_reducible apply keeps_ite) | (with_reducible apply keeps_put) | (fail_if_no_progress with_reducible apply keeps_mk)))

theorem keeps_execOverridePinRise {s₀ : State} {pinB : Bool} {offset : Nat} {s : State} (hk : Keeps s₀ s) : KeepsO s₀ (execOverridePinRise pinB offset s) := by
  unfold execOverridePinRise
  (repeat' (first | (with_reducible assumption) | (with_reducible apply keepsO_ok) | (with_reducible apply keeps_setPin) | (with_reducible apply keeps_moment)))

theorem keeps_execOverrideRelease {s₀ : State} {offset : Nat} {s : State} (hk : Keeps s₀ s) : KeepsO s₀ (execOverrideRelease offset s) := by
  unfold execOverrideRelease
  (repeat' (first | (with_reducible assumption) | (with_reducible apply keepsO_ok) | (with_reducible apply keepsO_ite) | (with_reducible apply keeps_moment) | (with_reducible apply keeps_refreshOverride) | (with_reducible apply keeps_put)))

theorem keeps_execRemoteOverrideEnd {s₀ : State} {s : State} (hk : Keeps s₀ s) : KeepsO s₀ (execRemoteOverrideEnd s) := by
  unfold execRemoteOverrideEnd
  (repeat' (first | (with_reducible assumption) | (with_reducible apply keepsO_ok) | (with_reducible apply keepsO_ite) | (with_reducible apply keeps_refreshOverride) | (with_reducible apply keeps_put) | (fail_if_no_progress with_reducible apply keeps_mk) | (split)))

theorem keeps_execForceWrite {s₀ : State} {r : Requester} {force : Bool} {s : State} (hk : Keeps s₀ s) : KeepsO s₀ (execForceWrite r force s) := by
  unfold execForceWrite
  (repeat' (first | (with_reducible assumption) | (with_reducible apply keepsO_ok) | (with_reducible apply keeps_writeForce)))

theorem keeps_execForceEffective {s₀ : State} {s : State} (hk : Keeps s₀ s) : KeepsO s₀ (execForceEffective s) := by
  unfold execForceEffective
  (repeat' (first | (with_reducible assumption) | (with_reducible apply keepsO_ok) | (with_reducible apply keepsO_ite) | (with_reducible apply keeps_refreshOverride) | (with_reducible apply keeps_put) | (fail_if_no_progress with_reducible apply keeps_mk) | (split)))

theorem keeps_execOvrPinDisagree {s₀ : State} {s : State} (hk : Keeps s₀ s) : KeepsO s₀ (execOvrPinDisagree s) := by
  unfold execOvrPinDisagree
  (repeat' (first | (with_reducible assumption) | (with_reducible apply keepsO_ok) | (with_reducible apply keepsO_ite) | (with_reducible apply keeps_raise) | (fail_if_no_progress with_reducible apply keeps_mk)))

theorem keeps_execSidebandWrite {s₀ : State} {r : Requester} {v : Word} {s : State} (hk : Keeps s₀ s) : KeepsO s₀ (execSidebandWrite r v s) := by
  unfold execSidebandWrite
  (repeat' (first | (with_reducible assumption) | (with_reducible apply keepsO_ok) | (with_reducible apply keeps_writeSideband)))

theorem keeps_execSidebandEffective {s₀ : State} {s : State} (hk : Keeps s₀ s) : KeepsO s₀ (execSidebandEffective s) := by
  unfold execSidebandEffective
  (repeat' (first | (with_reducible assumption) | (with_reducible apply keepsO_ok) | (with_reducible apply keeps_ite) | (with_reducible apply keepsO_ite) | (with_reducible apply keeps_driveSideband) | (fail_if_no_progress with_reducible apply keeps_mk) | (split)))

theorem keeps_execSidebandMismatch {s₀ : State} {inB : Bool} {v : BitVec 17} {s : State} (hk : Keeps s₀ s) : KeepsO s₀ (execSidebandMismatch inB v s) := by
  unfold execSidebandMismatch
  (repeat' (first | (with_reducible assumption) | (with_reducible apply keepsO_ok) | (with_reducible apply keeps_ite) | (with_reducible apply keepsO_ite) | (with_reducible apply keeps_fault) | (fail_if_no_progress with_reducible apply keeps_mk)))

end Sys2Proof.Machine
end

