-- ==== Sys2Proof/Laws/KeepsMedia.lean ====
section
/-! SUPPORT. `Keeps`, for every function of Machine/Media.lean. -/

set_option linter.all false
set_option simprocs false

namespace Sys2Proof.Machine

theorem keeps_adoptEpoch {s₀ : State} {s : State} {f : Nat} {ep : Nat} (hk : Keeps s₀ s) : Keeps s₀ (State.adoptEpoch s f ep) := by
  unfold State.adoptEpoch
  (repeat' (first | (with_reducible assumption) | (with_reducible apply keeps_ite) | (with_reducible apply keeps_setRt) | (with_reducible apply keeps_put)))

theorem keeps_mediaPayload {s₀ : State} {s : State} {a : Accepted} (hk : Keeps s₀ s) : Keeps s₀ (State.mediaPayload s a).2 := by
  unfold State.mediaPayload
  (repeat' (first | (intro) | (with_reducible assumption) | (with_reducible apply keeps_when) | (with_reducible apply keeps_emeDecrypt) | (with_reducible apply keeps_adoptEpoch) | (with_reducible apply keeps_remoteOverride) | (extract_lets -underBinder +onlyGivenNames sx; clear_value sx) | (dsimp -zeta only) | (split)))
theorem keeps_mediaPayload_eq {s₀ : State} {s : State} {a : Accepted} {ra rt} (he : State.mediaPayload s a = (ra, rt)) (hk : Keeps s₀ s) : Keeps s₀ rt := by
  have := keeps_mediaPayload (s := s) (a := a) hk; rw [he] at this; exact this

theorem keeps_bufferMedia {s₀ : State} {s : State} {a : Accepted} {pipe : Nat} {stamp : Stamp} {l : Bytes} {samples : Bytes} (hk : Keeps s₀ s) : Keeps s₀ (State.bufferMedia s a pipe stamp l samples) := by
  unfold State.bufferMedia
  (repeat' (first | (with_reducible assumption) | (with_reducible apply keeps_ite) | (with_reducible apply keeps_admitHead_eq (by assumption)) | (with_reducible apply keeps_storeFrame) | (with_reducible apply keeps_setRt) | (fail_if_no_progress with_reducible apply keeps_mk) | (extract_lets -underBinder +onlyGivenNames sx; clear_value sx) | (split)))

theorem keeps_countVerdict {s₀ : State} {s : State} {flow : Field} {dev : Field} (hk : Keeps s₀ s) : Keeps s₀ (State.countVerdict s flow dev) := by
  unfold State.countVerdict
  (repeat' (first | (with_reducible assumption) | (with_reducible apply keeps_bump) | (with_reducible apply keeps_bumpSat)))

theorem keeps_mismatch {s₀ : State} {s : State} {f : Nat} (hk : Keeps s₀ s) : Keeps s₀ (State.mismatch s f) := by
  unfold State.mismatch
  (repeat' (first | (with_reducible assumption) | (with_reducible apply keeps_bumpSat)))

theorem keeps_verdict {s₀ : State} {s : State} {f : Nat} {t : Nat} (hk : Keeps s₀ s) : Keeps s₀ (State.verdict s f t).2 := by
  unfold State.verdict
  (repeat' (first | (intro) | (with_reducible assumption) | (with_reducible apply keeps_countVerdict) | (extract_lets -underBinder +onlyGivenNames sx; refine (have kx : ∀ a, Keeps s₀ a → Keeps s₀ (sx a) := ?_; ?_); dsimp -zeta only [sx]; rotate_left; clear_value sx; rotate_right) | (extract_lets -underBinder +onlyGivenNames sx; refine (have kx : ∀ a, Keeps s₀ a → Keeps s₀ (sx a).2 := ?_; ?_); dsimp -zeta only [sx]; rotate_left; clear_value sx; rotate_right) | (extract_lets -underBinder +onlyGivenNames sx; clear_value sx) | (with_reducible apply_assumption (exfalso := false) (symm := false)) | (split)))
theorem keeps_verdict_eq {s₀ : State} {s : State} {f : Nat} {t : Nat} {ra rt} (he : State.verdict s f t = (ra, rt)) (hk : Keeps s₀ s) : Keeps s₀ rt := by
  have := keeps_verdict (s := s) (f := f) (t := t) hk; rw [he] at this; exact this

theorem keeps_placed {s₀ : State} {s : State} {f : Nat} {t : Nat} {i : Nat} (hk : Keeps s₀ s) : Keeps s₀ (State.placed s f t i).2 := by
  unfold State.placed
  (repeat' (first | (with_reducible assumption) | (with_reducible apply keeps_bumpSat) | (with_reducible apply keeps_setRt) | (extract_lets -underBinder +onlyGivenNames sx; clear_value sx) | (split)))
theorem keeps_placed_eq {s₀ : State} {s : State} {f : Nat} {t : Nat} {i : Nat} {ra rt} (he : State.placed s f t i = (ra, rt)) (hk : Keeps s₀ s) : Keeps s₀ rt := by
  have := keeps_placed (s := s) (f := f) (t := t) (i := i) hk; rw [he] at this; exact this

theorem keeps_judge {s₀ : State} {s : State} {a : Accepted} (hk : Keeps s₀ s) : Keeps s₀ (State.judge s a).2 := by
  unfold State.judge
  (repeat' (first | (with_reducible assumption) | (with_reducible apply keeps_verdict_eq (by assumption)) | (with_reducible apply keeps_placed_eq (by assumption)) | (with_reducible apply keeps_bump) | (split)))
theorem keeps_judge_eq {s₀ : State} {s : State} {a : Accepted} {ra rt} (he : State.judge s a = (ra, rt)) (hk : Keeps s₀ s) : Keeps s₀ rt := by
  have := keeps_judge (s := s) (a := a) hk; rw [he] at this; exact this

theorem keeps_receiveChecks {s₀ : State} {s : State} {l : Bytes} {w : Walk} {e : Nat} {untagged : Nat} (hk : Keeps s₀ s) : Keeps s₀ (State.receiveChecks s l w e untagged).2 := by
  unfold State.receiveChecks
  (repeat' (first | (with_reducible assumption) | (with_reducible apply keeps_bump) | (with_reducible apply keeps_countVerdict) | (with_reducible apply keeps_mismatch) | (with_reducible apply keeps_bumpSat) | (with_reducible apply keeps_judge) | (extract_lets -underBinder +onlyGivenNames sx; clear_value sx) | (split)))
theorem keeps_receiveChecks_eq {s₀ : State} {s : State} {l : Bytes} {w : Walk} {e : Nat} {untagged : Nat} {ra rt} (he : State.receiveChecks s l w e untagged = (ra, rt)) (hk : Keeps s₀ s) : Keeps s₀ rt := by
  have := keeps_receiveChecks (s := s) (l := l) (w := w) (e := e) (untagged := untagged) hk; rw [he] at this; exact this

theorem keeps_receiveRtp {s₀ : State} {s : State} {l : Bytes} {f : Nat} {i : Nat} {u : Nat} (hk : Keeps s₀ s) : Keeps s₀ (State.receiveRtp s l f i u).2 := by
  unfold State.receiveRtp
  (repeat' (first | (intro) | (with_reducible assumption) | (with_reducible apply keeps_when) | (with_reducible apply keeps_mismatch) | (with_reducible apply keeps_countVerdict) | (with_reducible apply keeps_judge_eq (by assumption)) | (with_reducible apply keeps_put) | (extract_lets -underBinder +onlyGivenNames sx; clear_value sx) | (split)))
theorem keeps_receiveRtp_eq {s₀ : State} {s : State} {l : Bytes} {f : Nat} {i : Nat} {u : Nat} {ra rt} (he : State.receiveRtp s l f i u = (ra, rt)) (hk : Keeps s₀ s) : Keeps s₀ rt := by
  have := keeps_receiveRtp (s := s) (l := l) (f := f) (i := i) (u := u) hk; rw [he] at this; exact this

end Sys2Proof.Machine
end

