-- ==== Sys2Proof/Laws/KeepsPorts.lean ====
section
/-! SUPPORT. `Keeps`, for every function of Machine/Ports.lean. -/

set_option linter.all false
set_option simprocs false

namespace Sys2Proof.Machine

theorem keeps_flushPort {s₀ : State} {s : State} {p : Nat} (hk : Keeps s₀ s) : Keeps s₀ (State.flushPort s p) := by
  unfold State.flushPort
  (repeat' (first | (intro) | (with_reducible assumption) | (with_reducible apply keeps_bump) | (with_reducible apply keeps_dropQueued) | (with_reducible apply keeps_foldl)))

theorem keeps_autoFlush {s₀ : State} {s : State} {p : Nat} (hk : Keeps s₀ s) : Keeps s₀ (State.autoFlush s p) := by
  unfold State.autoFlush
  (repeat' (first | (with_reducible assumption) | (with_reducible apply keeps_ite) | (fail_if_no_progress with_reducible apply keeps_mk)))

theorem keeps_endPause {s₀ : State} {s : State} {p : Nat} {c : Nat} (hk : Keeps s₀ s) : Keeps s₀ (State.endPause s p c) := by
  unfold State.endPause
  (repeat' (first | (intro) | (with_reducible assumption) | (with_reducible apply keeps_ite) | (with_reducible apply keeps_when) | (with_reducible apply keeps_settle) | (with_reducible apply keeps_accruePause) | (with_reducible apply keeps_put) | (fail_if_no_progress with_reducible apply keeps_mk)))

theorem keeps_clearPauses {s₀ : State} {s : State} {p : Nat} (hk : Keeps s₀ s) : Keeps s₀ (State.clearPauses s p) := by
  unfold State.clearPauses
  (repeat' (first | (intro) | (with_reducible assumption) | (with_reducible apply keeps_endPause) | (with_reducible apply keeps_foldl)))

theorem keeps_abortTx {s₀ : State} {s : State} {p : Nat} (hk : Keeps s₀ s) : Keeps s₀ (State.abortTx s p) := by
  unfold State.abortTx
  (repeat' (first | (with_reducible assumption) | (with_reducible apply keeps_settle) | (with_reducible apply keeps_releaseWith) | (with_reducible apply keeps_payDebt) | (with_reducible apply keeps_stat) | (fail_if_no_progress with_reducible apply keeps_mk) | (split)))

theorem keeps_writeCtBase {s₀ : State} {s : State} {r : Requester} {p : Nat} {v : Nat} (hk : Keeps s₀ s) : Keeps s₀ (State.writeCtBase s r p v) := by
  unfold State.writeCtBase
  (repeat' (first | (with_reducible assumption) | (with_reducible apply keeps_ite) | (with_reducible apply keeps_put) | (with_reducible apply keeps_writeWord)))

theorem keeps_acceptVlan {s₀ : State} {s : State} {key : Nat} {v : Nat} {tick : Nat} (hk : Keeps s₀ s) : Keeps s₀ (State.acceptVlan s key v tick) := by
  unfold State.acceptVlan
  (repeat' (first | (with_reducible assumption) | (fail_if_no_progress with_reducible apply keeps_mk)))

theorem keeps_writeVlan {s₀ : State} {s : State} {r : Requester} {pcp : Bool} {p : Nat} {v : Nat} (hk : Keeps s₀ s) : Keeps s₀ (State.writeVlan s r pcp p v) := by
  unfold State.writeVlan
  (repeat' (first | (intro) | (with_reducible assumption) | (with_reducible apply keeps_ite) | (with_reducible apply keeps_localOnly) | (with_reducible apply keeps_carry) | (with_reducible apply keeps_acceptVlan)))

theorem keeps_writePause {s₀ : State} {s : State} {r : Requester} {p : Nat} {v : Nat} (hk : Keeps s₀ s) : Keeps s₀ (State.writePause s r p v) := by
  unfold State.writePause
  (repeat' (first | (intro) | (with_reducible assumption) | (with_reducible apply keeps_ite) | (with_reducible apply keeps_writeWord) | (with_reducible apply keeps_endPause) | (with_reducible apply keeps_foldl)))

theorem keeps_snap {s₀ : State} {s : State} {r : Requester} (hk : Keeps s₀ s) : Keeps s₀ (State.snap s r) := by
  unfold State.snap
  (repeat' (first | (with_reducible assumption) | (with_reducible apply keeps_ite) | (with_reducible apply keeps_put) | (fail_if_no_progress with_reducible apply keeps_mk)))

theorem keeps_statCast {s₀ : State} {s : State} {p : Nat} {mcast : Nat} {l : Bytes} (hk : Keeps s₀ s) : Keeps s₀ (State.statCast s p mcast l) := by
  unfold State.statCast
  (repeat' (first | (with_reducible assumption) | (with_reducible apply keeps_ite) | (with_reducible apply keeps_stat)))

theorem keeps_statLine {s₀ : State} {s : State} {p : Nat} {e : LineReport} (hk : Keeps s₀ s) : Keeps s₀ (State.statLine s p e) := by
  unfold State.statLine
  (repeat' (first | (with_reducible assumption) | (with_reducible apply keeps_stat)))

theorem keeps_statRx {s₀ : State} {s : State} {p : Nat} {l : Bytes} (hk : Keeps s₀ s) : Keeps s₀ (State.statRx s p l) := by
  unfold State.statRx
  (repeat' (first | (with_reducible assumption) | (with_reducible apply keeps_statCast) | (with_reducible apply keeps_stat)))

theorem keeps_startPause {s₀ : State} {s : State} {p : Nat} {c : Nat} (hk : Keeps s₀ s) : Keeps s₀ (State.startPause s p c) := by
  unfold State.startPause
  (repeat' (first | (with_reducible assumption) | (with_reducible apply keeps_ite) | (with_reducible apply keeps_settle) | (with_reducible apply keeps_put) | (fail_if_no_progress with_reducible apply keeps_mk)))

theorem keeps_pauseFor {s₀ : State} {s : State} {p : Nat} {c : Nat} {quanta : Nat} (hk : Keeps s₀ s) : Keeps s₀ (State.pauseFor s p c quanta) := by
  unfold State.pauseFor
  (repeat' (first | (with_reducible assumption) | (with_reducible apply keeps_ite) | (with_reducible apply keeps_endPause) | (with_reducible apply keeps_startPause)))

theorem keeps_macControl {s₀ : State} {s : State} {p : Nat} {body : Bytes} (hk : Keeps s₀ s) : Keeps s₀ (State.macControl s p body) := by
  unfold State.macControl
  (repeat' (first | (intro) | (with_reducible assumption) | (with_reducible apply keeps_ite) | (with_reducible apply keeps_stat) | (with_reducible apply keeps_pauseFor) | (with_reducible apply keeps_foldl) | (extract_lets -underBinder +onlyGivenNames sx; refine (have kx : Keeps s₀ sx := ?_; ?_); dsimp -zeta only [sx]; rotate_left; clear_value sx; rotate_right) | (extract_lets -underBinder +onlyGivenNames sx; clear_value sx) | (split)))

theorem keeps_execLinkLock {s₀ : State} {port : Fin 32} {s : State} (hk : Keeps s₀ s) : KeepsO s₀ (execLinkLock port s) := by
  unfold execLinkLock
  (repeat' (first | (with_reducible assumption) | (with_reducible apply keepsO_ok) | (with_reducible apply keepsO_ite) | (with_reducible apply keeps_put) | (fail_if_no_progress with_reducible apply keeps_mk)))

theorem keeps_setReason {s₀ : State} {s : State} {p : Nat} {reason : Nat} {pol : Nat} (hk : Keeps s₀ s) : Keeps s₀ (State.setReason s p reason pol) := by
  unfold State.setReason
  (repeat' (first | (intro) | (with_reducible assumption) | (with_reducible apply keeps_when) | (with_reducible apply keeps_put) | (with_reducible apply keeps_raise) | (with_reducible apply keeps_hlog)))

theorem keeps_execLinkUp {s₀ : State} {port : Fin 32} {s : State} (hk : Keeps s₀ s) : KeepsO s₀ (execLinkUp port s) := by
  unfold execLinkUp
  (repeat' (first | (with_reducible assumption) | (with_reducible apply keepsO_ok) | (with_reducible apply keepsO_ite) | (with_reducible apply keeps_raise) | (with_reducible apply keeps_setReason) | (with_reducible apply keeps_put)))

theorem keeps_execLockAttemptFail {s₀ : State} {port : Fin 32} {s : State} (hk : Keeps s₀ s) : KeepsO s₀ (execLockAttemptFail port s) := by
  unfold execLockAttemptFail
  (repeat' (first | (with_reducible assumption) | (with_reducible apply keepsO_ok) | (with_reducible apply keepsO_ite) | (fail_if_no_progress with_reducible apply keeps_mk)))

theorem keeps_execDiagnosticDone {s₀ : State} {port : Fin 32} {reason : Fin 9} {obsPol : Fin 16} {s : State} (hk : Keeps s₀ s) : KeepsO s₀ (execDiagnosticDone port reason obsPol s) := by
  unfold execDiagnosticDone
  (repeat' (first | (with_reducible assumption) | (with_reducible apply keepsO_ok) | (with_reducible apply keepsO_ite) | (with_reducible apply keeps_setReason) | (fail_if_no_progress with_reducible apply keeps_mk)))

theorem keeps_portDown {s₀ : State} {s : State} {p : Nat} {reason : Nat} (hk : Keeps s₀ s) : Keeps s₀ (State.portDown s p reason) := by
  unfold State.portDown
  (repeat' (first | (with_reducible assumption) | (with_reducible apply keeps_clearPauses) | (with_reducible apply keeps_stat) | (with_reducible apply keeps_put) | (with_reducible apply keeps_settle) | (with_reducible apply keeps_raise) | (with_reducible apply keeps_setReason) | (with_reducible apply keeps_forgetPort) | (with_reducible apply keeps_autoFlush) | (with_reducible apply keeps_flushPort) | (with_reducible apply keeps_abortTx)))

theorem keeps_execLinkDown {s₀ : State} {port : Fin 32} {reason : Fin 9} {offset : Nat} {s : State} (hk : Keeps s₀ s) : KeepsO s₀ (execLinkDown port reason offset s) := by
  unfold execLinkDown
  (repeat' (first | (with_reducible assumption) | (with_reducible apply keepsO_ok) | (with_reducible apply keepsO_ite) | (with_reducible apply keeps_moment) | (with_reducible apply keeps_portDown)))

theorem keeps_execPauseFrame {s₀ : State} {port : Fin 32} {offset : Nat} {op : BitVec 16} {enable : BitVec 16} {quanta : List (BitVec 16)} {s : State} (hk : Keeps s₀ s) : KeepsO s₀ (execPauseFrame port offset op enable quanta s) := by
  unfold execPauseFrame
  (repeat' (first | (with_reducible assumption) | (with_reducible apply keepsO_ok) | (with_reducible apply keepsO_ite) | (with_reducible apply keeps_moment) | (with_reducible apply keeps_macControl) | (with_reducible apply keeps_statRx)))

theorem keeps_execPauseEnd {s₀ : State} {port : Fin 32} {cls : Fin 9} {offset : Nat} {s : State} (hk : Keeps s₀ s) : KeepsO s₀ (execPauseEnd port cls offset s) := by
  unfold execPauseEnd
  (repeat' (first | (with_reducible assumption) | (with_reducible apply keepsO_ok) | (with_reducible apply keeps_endPause) | (with_reducible apply keeps_moment)))

theorem keeps_execPauseStorm {s₀ : State} {port : Fin 32} {cls : Fin 9} {offset : Nat} {s : State} (hk : Keeps s₀ s) : KeepsO s₀ (execPauseStorm port cls offset s) := by
  unfold execPauseStorm
  (repeat' (first | (with_reducible assumption) | (with_reducible apply keepsO_ok) | (with_reducible apply keepsO_ite) | (with_reducible apply keeps_moment) | (with_reducible apply keeps_endPause) | (with_reducible apply keeps_raise) | (with_reducible apply keeps_stat) | (fail_if_no_progress with_reducible apply keeps_mk)))

theorem keeps_execPauseHoldoffEnd {s₀ : State} {port : Fin 32} {cls : Fin 9} {s : State} (hk : Keeps s₀ s) : KeepsO s₀ (execPauseHoldoffEnd port cls s) := by
  unfold execPauseHoldoffEnd
  (repeat' (first | (with_reducible assumption) | (with_reducible apply keepsO_ok) | (fail_if_no_progress with_reducible apply keeps_mk)))

theorem keeps_execPauseModeWrite {s₀ : State} {r : Requester} {port : Fin 32} {v : Word} {s : State} (hk : Keeps s₀ s) : KeepsO s₀ (execPauseModeWrite r port v s) := by
  unfold execPauseModeWrite
  (repeat' (first | (with_reducible assumption) | (with_reducible apply keepsO_ok) | (with_reducible apply keeps_writePause)))

theorem keeps_execCtBaseWrite {s₀ : State} {r : Requester} {port : Fin 32} {v : Word} {s : State} (hk : Keeps s₀ s) : KeepsO s₀ (execCtBaseWrite r port v s) := by
  unfold execCtBaseWrite
  (repeat' (first | (with_reducible assumption) | (with_reducible apply keepsO_ok) | (with_reducible apply keeps_writeCtBase)))

theorem keeps_execVlanCfgWrite {s₀ : State} {r : Requester} {port : Fin 32} {pcp : Bool} {v : Word} {s : State} (hk : Keeps s₀ s) : KeepsO s₀ (execVlanCfgWrite r port pcp v s) := by
  unfold execVlanCfgWrite
  (repeat' (first | (with_reducible assumption) | (with_reducible apply keepsO_ok) | (with_reducible apply keeps_writeVlan)))

theorem keeps_execVlanCfgEffective {s₀ : State} {s : State} (hk : Keeps s₀ s) : KeepsO s₀ (execVlanCfgEffective s) := by
  unfold execVlanCfgEffective
  (repeat' (first | (with_reducible assumption) | (with_reducible apply keepsO_ok) | (with_reducible apply keepsO_ite) | (with_reducible apply keeps_wr) | (fail_if_no_progress with_reducible apply keeps_mk) | (split)))

theorem keeps_execSnap {s₀ : State} {r : Requester} {s : State} (hk : Keeps s₀ s) : KeepsO s₀ (execSnap r s) := by
  unfold execSnap
  (repeat' (first | (with_reducible assumption) | (with_reducible apply keepsO_ok) | (with_reducible apply keeps_snap)))

theorem keeps_execStatsDone {s₀ : State} {s : State} (hk : Keeps s₀ s) : KeepsO s₀ (execStatsDone s) := by
  unfold execStatsDone
  (repeat' (first | (intro) | (with_reducible assumption) | (with_reducible apply keepsO_ok) | (with_reducible apply keepsO_ite) | (with_reducible apply keeps_accruePause) | (with_reducible apply keeps_put) | (with_reducible apply keeps_raise) | (with_reducible apply keeps_foldl)))

theorem keeps_execMgmtLinkChange {s₀ : State} {up : Bool} {reason : Fin 11} {s : State} (hk : Keeps s₀ s) : KeepsO s₀ (execMgmtLinkChange up reason s) := by
  unfold execMgmtLinkChange
  (repeat' (first | (intro) | (with_reducible assumption) | (with_reducible apply keepsO_ok) | (with_reducible apply keepsO_ite) | (with_reducible apply keeps_when) | (with_reducible apply keeps_put) | (with_reducible apply keeps_raise) | (with_reducible apply keeps_hlog)))

theorem keeps_execHoldLockLoss {s₀ : State} {port : Fin 32} {reason : Fin 9} {s : State} (hk : Keeps s₀ s) : KeepsO s₀ (execHoldLockLoss port reason s) := by
  unfold execHoldLockLoss
  (repeat' (first | (with_reducible assumption) | (with_reducible apply keepsO_ok) | (with_reducible apply keepsO_ite) | (with_reducible apply keeps_setReason) | (with_reducible apply keeps_put)))

end Sys2Proof.Machine
end

