-- ==== Sys2Proof/Laws/KeepsVersioned.lean ====
section
/-! SUPPORT. `Keeps`, for every function of Machine/Versioned.lean. -/

set_option linter.all false
set_option simprocs false

namespace Sys2Proof.Machine

theorem keeps_writeLost {s₀ : State} {s : State} (hk : Keeps s₀ s) : Keeps s₀ (State.writeLost s) := by
  unfold State.writeLost
  (repeat' (first | (with_reducible assumption) | (with_reducible apply keeps_ite) | (with_reducible apply keeps_put) | (with_reducible apply keeps_raise) | (fail_if_no_progress with_reducible apply keeps_mk)))

theorem keeps_stage {s₀ : State} {s : State} {r : Requester} {k : Nat} {run : State → State} (hk : Keeps s₀ s) (hk_run : ∀ (x0 : State), Keeps s₀ x0 → Keeps s₀ (run x0)) : Keeps s₀ (State.stage s r k run) := by
  unfold State.stage
  (repeat' (first | (intro) | (with_reducible assumption) | (with_reducible apply keeps_ite) | (with_reducible apply hk_run) | (with_reducible apply keeps_localOnly) | (with_reducible apply keeps_writeLost)))

theorem keeps_disown {s₀ : State} {s : State} {i : Nat} (hk : Keeps s₀ s) : Keeps s₀ (State.disown s i) := by
  unfold State.disown
  (repeat' (first | (with_reducible assumption) | (fail_if_no_progress with_reducible apply keeps_mk)))

theorem keeps_recountClassifier {s₀ : State} {s : State} {f : Nat} (hk : Keeps s₀ s) : Keeps s₀ (State.recountClassifier s f) := by
  unfold State.recountClassifier
  (repeat' (first | (with_reducible assumption) | (with_reducible apply keeps_put)))

theorem keeps_stageEntry {s₀ : State} {s : State} {i : Nat} {k : Nat} {w : Nat} (hk : Keeps s₀ s) : Keeps s₀ (State.stageEntry s i k w) := by
  unfold State.stageEntry
  (repeat' (first | (with_reducible assumption) | (with_reducible apply keeps_disown) | (with_reducible apply keeps_wr) | (with_reducible apply keeps_recountClassifier)))

theorem keeps_execStagedWrite {s₀ : State} {r : Requester} {off : Nat} {v : Word} {s : State} (hk : Keeps s₀ s) : KeepsO s₀ (execStagedWrite r off v s) := by
  unfold execStagedWrite
  (repeat' (first | (intro) | (with_reducible assumption) | (with_reducible apply keepsO_ok) | (with_reducible apply keeps_ite) | (with_reducible apply keepsO_ite) | (with_reducible apply keeps_stage) | (with_reducible apply keeps_stageEntry) | (with_reducible apply keeps_wr) | (with_reducible apply keeps_carry)))

theorem keeps_flowWritten {s₀ : State} {s : State} {f : Nat} {i : Nat} {w : Nat} (hk : Keeps s₀ s) : Keeps s₀ (State.flowWritten s f i w) := by
  unfold State.flowWritten
  (repeat' (first | (with_reducible assumption) | (with_reducible apply keeps_shadowWrite) | (fail_if_no_progress with_reducible apply keeps_mk)))

theorem keeps_execFlowEntryWrite {s₀ : State} {r : Requester} {flow : Fin 65536} {word : Fin 32} {v : Word} {s : State} (hk : Keeps s₀ s) : KeepsO s₀ (execFlowEntryWrite r flow word v s) := by
  unfold execFlowEntryWrite
  (repeat' (first | (intro) | (with_reducible assumption) | (with_reducible apply keepsO_ok) | (with_reducible apply keeps_ite) | (with_reducible apply keepsO_ite) | (with_reducible apply keeps_localOnly) | (with_reducible apply keeps_carry) | (with_reducible apply keeps_flowWritten) | (with_reducible apply keeps_wr)))

theorem keeps_noteChange {s₀ : State} {s : State} {table : Nat} {index : Nat} (hk : Keeps s₀ s) : KeepsM s₀ (State.noteChange s table index) := by
  unfold State.noteChange
  (repeat' (first | (with_reducible assumption) | (with_reducible apply keepsM_none) | (with_reducible apply keepsM_some) | (with_reducible apply keeps_recordWritten) | (with_reducible apply keeps_put) | (fail_if_no_progress with_reducible apply keeps_mk) | (extract_lets -underBinder +onlyGivenNames sx; clear_value sx) | (split)))
theorem keeps_noteChange_eq {s₀ : State} {s : State} {table : Nat} {index : Nat} {rt} (he : State.noteChange s table index = some rt) (hk : Keeps s₀ s) : Keeps s₀ rt := by
  have := keeps_noteChange (s := s) (table := table) (index := index) hk; rw [he] at this; exact this.of _ rfl

theorem keeps_execFtuWindowWrite {s₀ : State} {r : Requester} {off : Nat} {v : Word} {s : State} (hk : Keeps s₀ s) : KeepsO s₀ (execFtuWindowWrite r off v s) := by
  unfold execFtuWindowWrite
  (repeat' (first | (intro) | (with_reducible assumption) | (with_reducible apply keepsO_ok) | (with_reducible apply keepsO_ite) | (with_reducible apply keeps_stage) | (with_reducible apply keeps_noteChange_eq (by assumption)) | (with_reducible apply keeps_carry) | (with_reducible apply keeps_wr) | (with_reducible apply keeps_id) | (extract_lets -underBinder +onlyGivenNames sx; clear_value sx) | (dsimp -zeta only) | (split)))

theorem keeps_execTermWrite {s₀ : State} {r : Requester} {term : Fin 131072} {v : Word} {s : State} (hk : Keeps s₀ s) : KeepsO s₀ (execTermWrite r term v s) := by
  unfold execTermWrite
  (repeat' (first | (intro) | (with_reducible assumption) | (with_reducible apply keepsO_ok) | (with_reducible apply keeps_ite) | (with_reducible apply keepsO_ite) | (with_reducible apply keeps_localOnly) | (with_reducible apply keeps_carry) | (with_reducible apply keeps_wr)))

theorem keeps_requestGain {s₀ : State} {s : State} {i : Nat} {gain : Nat} {ramp : Nat} (hk : Keeps s₀ s) : Keeps s₀ (State.requestGain s i gain ramp) := by
  unfold State.requestGain
  (repeat' (first | (with_reducible assumption) | (with_reducible apply keeps_ite) | (with_reducible apply keeps_put) | (fail_if_no_progress with_reducible apply keeps_mk)))

theorem keeps_acceptGain {s₀ : State} {s : State} {i : Nat} {g : Nat} (hk : Keeps s₀ s) : Keeps s₀ (State.acceptGain s i g) := by
  unfold State.acceptGain
  (repeat' (first | (with_reducible assumption) | (with_reducible apply keeps_requestGain) | (with_reducible apply keeps_carry)))

theorem keeps_execGainRequest {s₀ : State} {r : Requester} {term : Fin 131072} {v : Word} {s : State} (hk : Keeps s₀ s) : KeepsO s₀ (execGainRequest r term v s) := by
  unfold execGainRequest
  (repeat' (first | (intro) | (with_reducible assumption) | (with_reducible apply keepsO_ok) | (with_reducible apply keeps_ite) | (with_reducible apply keepsO_ite) | (with_reducible apply keeps_localOnly) | (with_reducible apply keeps_acceptGain) | (with_reducible apply keeps_carry) | (with_reducible apply keeps_put) | (split)))

theorem keeps_execPointWrite {s₀ : State} {r : Requester} {point : Fin 8192} {word : Fin 8} {v : Word} {s : State} (hk : Keeps s₀ s) : KeepsO s₀ (execPointWrite r point word v s) := by
  unfold execPointWrite
  (repeat' (first | (intro) | (with_reducible assumption) | (with_reducible apply keepsO_ok) | (with_reducible apply keeps_ite) | (with_reducible apply keepsO_ite) | (with_reducible apply keeps_localOnly) | (with_reducible apply keeps_carry) | (with_reducible apply keeps_wr)))

theorem keeps_execListWrite {s₀ : State} {r : Requester} {off : Nat} {v : Word} {s : State} (hk : Keeps s₀ s) : KeepsO s₀ (execListWrite r off v s) := by
  unfold execListWrite
  (repeat' (first | (intro) | (with_reducible assumption) | (with_reducible apply keepsO_ok) | (with_reducible apply keeps_ite) | (with_reducible apply keepsO_ite) | (with_reducible apply keeps_localOnly) | (with_reducible apply keeps_bump) | (with_reducible apply keeps_writeLost) | (with_reducible apply keeps_carry) | (with_reducible apply keeps_wr)))

theorem keeps_commitRefused {s₀ : State} {s : State} {code : Nat} {f : Nat} (hk : Keeps s₀ s) : Keeps s₀ (State.commitRefused s code f) := by
  unfold State.commitRefused
  (repeat' (first | (with_reducible assumption) | (with_reducible apply keeps_put) | (with_reducible apply keeps_raise)))

theorem keeps_execTblCommit {s₀ : State} {r : Requester} {s : State} (hk : Keeps s₀ s) : KeepsO s₀ (execTblCommit r s) := by
  unfold execTblCommit
  (repeat' (first | (intro) | (with_reducible assumption) | (with_reducible apply keepsO_ok) | (with_reducible apply keeps_ite) | (with_reducible apply keepsO_ite) | (with_reducible apply keeps_localOnly) | (with_reducible apply keeps_writeLost) | (with_reducible apply keeps_put) | (with_reducible apply keeps_commitRefused) | (with_reducible apply keeps_carry) | (fail_if_no_progress with_reducible apply keeps_mk) | (extract_lets -underBinder +onlyGivenNames sx; refine (have kx : Keeps s₀ sx := ?_; ?_); dsimp -zeta only [sx]; rotate_left; clear_value sx; rotate_right) | (extract_lets -underBinder +onlyGivenNames sx; clear_value sx) | (split)))

theorem keeps_lpmOp {s₀ : State} {s : State} {run : State → Nat × State} (hk : Keeps s₀ s) (hk_run : ∀ (x0 : State), Keeps s₀ x0 → Keeps s₀ ((run x0).2)) : Keeps s₀ (State.lpmOp s run) := by
  unfold State.lpmOp
  (repeat' (first | (with_reducible assumption) | (with_reducible apply keeps_ite) | (with_reducible apply hk_run) | (with_reducible apply keeps_put)))

theorem keeps_countSlots {s₀ : State} {s : State} (hk : Keeps s₀ s) : Keeps s₀ (State.countSlots s) := by
  unfold State.countSlots
  (repeat' (first | (intro) | (with_reducible assumption) | (with_reducible apply keeps_put) | (with_reducible apply keeps_foldl)))

theorem keeps_putLpm {s₀ : State} {s : State} {x : LpmSlot} (hk : Keeps s₀ s) : Keeps s₀ (State.putLpm s x) := by
  unfold State.putLpm
  (repeat' (first | (with_reducible assumption) | (with_reducible apply keeps_countSlots) | (fail_if_no_progress with_reducible apply keeps_mk)))

theorem keeps_lpmInsertOp {s₀ : State} {s : State} {a : LpmArg} (hk : Keeps s₀ s) : Keeps s₀ (State.lpmInsertOp s a).2 := by
  unfold State.lpmInsertOp
  (repeat' (first | (with_reducible assumption) | (with_reducible apply keeps_noteChange_eq (by assumption)) | (with_reducible apply keeps_putLpm) | (extract_lets -underBinder +onlyGivenNames sx; clear_value sx) | (split)))
theorem keeps_lpmInsertOp_eq {s₀ : State} {s : State} {a : LpmArg} {ra rt} (he : State.lpmInsertOp s a = (ra, rt)) (hk : Keeps s₀ s) : Keeps s₀ rt := by
  have := keeps_lpmInsertOp (s := s) (a := a) hk; rw [he] at this; exact this

theorem keeps_execLpmInsert {s₀ : State} {r : Requester} {s : State} (hk : Keeps s₀ s) : KeepsO s₀ (execLpmInsert r s) := by
  unfold execLpmInsert
  (repeat' (first | (intro) | (with_reducible assumption) | (with_reducible apply keepsO_ok) | (with_reducible apply keeps_ite) | (with_reducible apply keepsO_ite) | (with_reducible apply keeps_localOnly) | (with_reducible apply keeps_lpmOp) | (with_reducible apply keeps_lpmInsertOp) | (with_reducible apply keeps_carry)))

theorem keeps_lpmDeleteOp {s₀ : State} {s : State} {a : LpmArg} (hk : Keeps s₀ s) : Keeps s₀ (State.lpmDeleteOp s a).2 := by
  unfold State.lpmDeleteOp
  (repeat' (first | (with_reducible assumption) | (with_reducible apply keeps_noteChange_eq (by assumption)) | (with_reducible apply keeps_putLpm) | (with_reducible apply keeps_countSlots) | (fail_if_no_progress with_reducible apply keeps_mk) | (split)))
theorem keeps_lpmDeleteOp_eq {s₀ : State} {s : State} {a : LpmArg} {ra rt} (he : State.lpmDeleteOp s a = (ra, rt)) (hk : Keeps s₀ s) : Keeps s₀ rt := by
  have := keeps_lpmDeleteOp (s := s) (a := a) hk; rw [he] at this; exact this

theorem keeps_execLpmDelete {s₀ : State} {r : Requester} {s : State} (hk : Keeps s₀ s) : KeepsO s₀ (execLpmDelete r s) := by
  unfold execLpmDelete
  (repeat' (first | (intro) | (with_reducible assumption) | (with_reducible apply keepsO_ok) | (with_reducible apply keeps_ite) | (with_reducible apply keepsO_ite) | (with_reducible apply keeps_localOnly) | (with_reducible apply keeps_lpmOp) | (with_reducible apply keeps_lpmDeleteOp) | (with_reducible apply keeps_carry)))

theorem keeps_execLpmRead {s₀ : State} {r : Requester} {s : State} (hk : Keeps s₀ s) : KeepsO s₀ (execLpmRead r s) := by
  unfold execLpmRead
  (repeat' (first | (intro) | (with_reducible assumption) | (with_reducible apply keepsO_ok) | (with_reducible apply keepsO_ite) | (with_reducible apply keeps_lpmOp) | (with_reducible apply keeps_put) | (extract_lets -underBinder +onlyGivenNames sx; clear_value sx) | (split)))

theorem keeps_macOp {s₀ : State} {s : State} {run : State → Nat × State} (hk : Keeps s₀ s) (hk_run : ∀ (x0 : State), Keeps s₀ x0 → Keeps s₀ ((run x0).2)) : Keeps s₀ (State.macOp s run) := by
  unfold State.macOp
  (repeat' (first | (with_reducible assumption) | (with_reducible apply keeps_ite) | (with_reducible apply hk_run) | (with_reducible apply keeps_put)))

theorem keeps_putStatic {s₀ : State} {s : State} {x : MacStatic} (hk : Keeps s₀ s) : Keeps s₀ (State.putStatic s x) := by
  unfold State.putStatic
  (repeat' (first | (with_reducible assumption) | (with_reducible apply keeps_countSlots) | (fail_if_no_progress with_reducible apply keeps_mk)))

theorem keeps_insertStaticOp {s₀ : State} {s : State} {vlan : Nat} {mac : Nat} {kind : Nat} {target : Nat} (hk : Keeps s₀ s) : Keeps s₀ (State.insertStaticOp s vlan mac kind target).2 := by
  unfold State.insertStaticOp
  (repeat' (first | (with_reducible assumption) | (with_reducible apply keeps_noteChange_eq (by assumption)) | (with_reducible apply keeps_putStatic) | (fail_if_no_progress with_reducible apply keeps_mk) | (extract_lets -underBinder +onlyGivenNames sx; refine (have kx : Keeps s₀ sx := ?_; ?_); dsimp -zeta only [sx]; rotate_left; clear_value sx; rotate_right) | (extract_lets -underBinder +onlyGivenNames sx; clear_value sx) | (split)))
theorem keeps_insertStaticOp_eq {s₀ : State} {s : State} {vlan : Nat} {mac : Nat} {kind : Nat} {target : Nat} {ra rt} (he : State.insertStaticOp s vlan mac kind target = (ra, rt)) (hk : Keeps s₀ s) : Keeps s₀ rt := by
  have := keeps_insertStaticOp (s := s) (vlan := vlan) (mac := mac) (kind := kind) (target := target) hk; rw [he] at this; exact this

theorem keeps_execInsertStatic {s₀ : State} {r : Requester} {s : State} (hk : Keeps s₀ s) : KeepsO s₀ (execInsertStatic r s) := by
  unfold execInsertStatic
  (repeat' (first | (intro) | (with_reducible assumption) | (with_reducible apply keepsO_ok) | (with_reducible apply keeps_ite) | (with_reducible apply keepsO_ite) | (with_reducible apply keeps_localOnly) | (with_reducible apply keeps_macOp) | (with_reducible apply keeps_insertStaticOp) | (with_reducible apply keeps_carry)))

theorem keeps_deleteStaticOp {s₀ : State} {s : State} {vlan : Nat} {mac : Nat} (hk : Keeps s₀ s) : Keeps s₀ (State.deleteStaticOp s vlan mac).2 := by
  unfold State.deleteStaticOp
  (repeat' (first | (with_reducible assumption) | (with_reducible apply keeps_noteChange_eq (by assumption)) | (with_reducible apply keeps_putStatic) | (with_reducible apply keeps_countSlots) | (fail_if_no_progress with_reducible apply keeps_mk) | (split)))
theorem keeps_deleteStaticOp_eq {s₀ : State} {s : State} {vlan : Nat} {mac : Nat} {ra rt} (he : State.deleteStaticOp s vlan mac = (ra, rt)) (hk : Keeps s₀ s) : Keeps s₀ rt := by
  have := keeps_deleteStaticOp (s := s) (vlan := vlan) (mac := mac) hk; rw [he] at this; exact this

theorem keeps_execDeleteStatic {s₀ : State} {r : Requester} {s : State} (hk : Keeps s₀ s) : KeepsO s₀ (execDeleteStatic r s) := by
  unfold execDeleteStatic
  (repeat' (first | (intro) | (with_reducible assumption) | (with_reducible apply keepsO_ok) | (with_reducible apply keeps_ite) | (with_reducible apply keepsO_ite) | (with_reducible apply keeps_localOnly) | (with_reducible apply keeps_macOp) | (with_reducible apply keeps_deleteStaticOp) | (with_reducible apply keeps_carry)))

theorem keeps_macShow {s₀ : State} {s : State} {entry : Nat} {age : Nat} {kind : Nat} {target : Nat} (hk : Keeps s₀ s) : Keeps s₀ (State.macShow s entry age kind target) := by
  unfold State.macShow
  (repeat' (first | (with_reducible assumption) | (with_reducible apply keeps_put)))

theorem keeps_execMacRead {s₀ : State} {r : Requester} {pipe : Fin 4} {s : State} (hk : Keeps s₀ s) : KeepsO s₀ (execMacRead r pipe s) := by
  unfold execMacRead
  (repeat' (first | (intro) | (with_reducible assumption) | (with_reducible apply keepsO_ok) | (with_reducible apply keepsO_ite) | (with_reducible apply keeps_macOp) | (with_reducible apply keeps_macShow) | (extract_lets -underBinder +onlyGivenNames sx; clear_value sx) | (split)))

theorem keeps_flushLearned {s₀ : State} {s : State} {vlan : Option Nat} {port : Option Nat} (hk : Keeps s₀ s) : Keeps s₀ (State.flushLearned s vlan port) := by
  unfold State.flushLearned
  (repeat' (first | (with_reducible assumption) | (with_reducible apply keeps_countSlots) | (fail_if_no_progress with_reducible apply keeps_mk)))

theorem keeps_startFlush {s₀ : State} {s : State} {vlan : Option Nat} {port : Option Nat} (hk : Keeps s₀ s) : Keeps s₀ (State.startFlush s vlan port) := by
  unfold State.startFlush
  (repeat' (first | (with_reducible assumption) | (with_reducible apply keeps_flushLearned) | (fail_if_no_progress with_reducible apply keeps_mk)))

theorem keeps_execMacFlush {s₀ : State} {r : Requester} {byVlan : Bool} {byPort : Bool} {port : Fin 32} {s : State} (hk : Keeps s₀ s) : KeepsO s₀ (execMacFlush r byVlan byPort port s) := by
  unfold execMacFlush
  (repeat' (first | (with_reducible assumption) | (with_reducible apply keepsO_ok) | (with_reducible apply keeps_ite) | (with_reducible apply keepsO_ite) | (with_reducible apply keeps_put) | (with_reducible apply keeps_startFlush) | (fail_if_no_progress with_reducible apply keeps_mk)))

theorem keeps_execVfGainRequest {s₀ : State} {v : Fin 4096} {term : Fin 131072} {gain : Word} {s : State} (hk : Keeps s₀ s) : KeepsO s₀ (execVfGainRequest v term gain s) := by
  unfold execVfGainRequest
  (repeat' (first | (intro) | (with_reducible assumption) | (with_reducible apply keepsO_ok) | (with_reducible apply keeps_ite) | (with_reducible apply keepsO_ite) | (with_reducible apply keeps_bumpSat) | (with_reducible apply keeps_localOnly) | (with_reducible apply keeps_acceptGain) | (dsimp -zeta only) | (split)))

theorem keeps_putRange {s₀ : State} {s : State} {base : Nat} {len : Nat} {l : List (Nat × Nat)} (hk : Keeps s₀ s) : Keeps s₀ (State.putRange s base len l) := by
  unfold State.putRange
  (repeat' (first | (intro) | (with_reducible assumption) | (with_reducible apply keeps_wr) | (with_reducible apply keeps_resetWords) | (with_reducible apply keeps_foldl)))

theorem keeps_setCopy {s₀ : State} {s : State} {table : Nat} {index : Nat} {pipe : Nat} {l : List Nat} (hk : Keeps s₀ s) : Keeps s₀ (State.setCopy s table index pipe l) := by
  unfold State.setCopy
  (repeat' (first | (with_reducible assumption) | (fail_if_no_progress with_reducible apply keeps_mk)))

theorem keeps_setRecord {s₀ : State} {s : State} {table : Nat} {index : Nat} {l : List Nat} (hk : Keeps s₀ s) : Keeps s₀ (State.setRecord s table index l) := by
  unfold State.setRecord
  (repeat' (first | (intro) | (with_reducible assumption) | (with_reducible apply keeps_ite) | (with_reducible apply keeps_wrWords) | (with_reducible apply keeps_countSlots) | (fail_if_no_progress with_reducible apply keeps_mk) | (with_reducible apply keeps_foldl) | (split)))

theorem keeps_invalidate {s₀ : State} {s : State} {table : Nat} {index : Nat} (hk : Keeps s₀ s) : Keeps s₀ (State.invalidate s table index) := by
  unfold State.invalidate
  (repeat' (first | (intro) | (with_reducible assumption) | (with_reducible apply keeps_ite) | (with_reducible apply keeps_countSlots) | (with_reducible apply keeps_wr) | (fail_if_no_progress with_reducible apply keeps_mk) | (with_reducible apply keeps_foldl) | (split)))

theorem keeps_compareRecord {s₀ : State} {s : State} {table : Nat} {index : Nat} {poisoned : Bool} (hk : Keeps s₀ s) : Keeps s₀ (State.compareRecord s table index poisoned) := by
  unfold State.compareRecord
  (repeat' (first | (intro) | (with_reducible assumption) | (with_reducible apply keeps_ite) | (with_reducible apply keeps_when) | (with_reducible apply keeps_eccUncorr) | (with_reducible apply keeps_shadowRead) | (with_reducible apply keeps_raise) | (with_reducible apply keeps_bumpBy) | (with_reducible apply keeps_recordWritten) | (with_reducible apply keeps_setRecord) | (with_reducible apply keeps_setCopy) | (with_reducible apply keeps_invalidate) | (with_reducible apply keeps_fault) | (with_reducible apply keeps_foldl) | (dsimp -zeta only) | (split)))

theorem keeps_recordRepair {s₀ : State} {s : State} {pipe : Nat} {table : Nat} {index : Nat} {poisoned : Bool} (hk : Keeps s₀ s) : Keeps s₀ (State.recordRepair s pipe table index poisoned) := by
  unfold State.recordRepair
  (repeat' (first | (with_reducible assumption) | (with_reducible apply keeps_ite) | (with_reducible apply keeps_setCopy) | (with_reducible apply keeps_compareRecord)))

theorem keeps_takeFault {s₀ : State} {s : State} {table : Nat} {index : Nat} {found : RecordFault} (hk : Keeps s₀ s) : Keeps s₀ (State.takeFault s table index found) := by
  unfold State.takeFault
  (repeat' (first | (intro) | (with_reducible assumption) | (with_reducible apply keeps_setCopy) | (fail_if_no_progress with_reducible apply keeps_mk) | (with_reducible apply keeps_foldl) | (extract_lets -underBinder +onlyGivenNames sx; refine (have kx : Keeps s₀ sx := ?_; ?_); dsimp -zeta only [sx]; rotate_left; clear_value sx; rotate_right) | (split)))

theorem keeps_eccDrop {s₀ : State} {s : State} {pipe : Nat} {table : Nat} {index : Nat} {found : RecordFault} {poisoned : Bool} (hk : Keeps s₀ s) : Keeps s₀ (State.eccDrop s pipe table index found poisoned) := by
  unfold State.eccDrop
  (repeat' (first | (with_reducible assumption) | (with_reducible apply keeps_ite) | (with_reducible apply keeps_bump) | (with_reducible apply keeps_eccUncorr) | (with_reducible apply keeps_countSlots) | (with_reducible apply keeps_recordRepair) | (with_reducible apply keeps_takeFault) | (fail_if_no_progress with_reducible apply keeps_mk)))

theorem keeps_replicaCompare {s₀ : State} {s : State} {entry : Nat} (hk : Keeps s₀ s) : Keeps s₀ (State.replicaCompare s entry) := by
  unfold State.replicaCompare
  (repeat' (first | (intro) | (with_reducible assumption) | (with_reducible apply keeps_ite) | (with_reducible apply keeps_wrWords) | (with_reducible apply keeps_raise) | (with_reducible apply keeps_bump) | (with_reducible apply keeps_wr) | (with_reducible apply keeps_recountClassifier) | (with_reducible apply keeps_fault) | (with_reducible apply keeps_foldl) | (dsimp -zeta only) | (split)))

theorem keeps_replicaRepair {s₀ : State} {s : State} {pipe : Nat} {entry : Nat} (hk : Keeps s₀ s) : Keeps s₀ (State.replicaRepair s pipe entry) := by
  unfold State.replicaRepair
  (repeat' (first | (with_reducible assumption) | (with_reducible apply keeps_replicaCompare) | (with_reducible apply keeps_wr)))

theorem keeps_swapBank {s₀ : State} {s : State} {locked : Nat → Nat → Bool} {w : Nat × Nat × List Nat} (hk : Keeps s₀ s) : Keeps s₀ (State.swapBank s locked w) := by
  unfold State.swapBank
  (repeat' (first | (intro) | (with_reducible assumption) | (with_reducible apply keeps_putRange) | (with_reducible apply keeps_foldl)))

theorem keeps_execTblCommitEffective {s₀ : State} {s : State} (hk : Keeps s₀ s) : KeepsO s₀ (execTblCommitEffective s) := by
  unfold execTblCommitEffective
  (repeat' (first | (intro) | (with_reducible assumption) | (with_reducible apply keepsO_ok) | (with_reducible apply keepsO_ite) | (with_reducible apply keeps_swapBank) | (with_reducible apply keeps_put) | (fail_if_no_progress with_reducible apply keeps_mk) | (with_reducible apply keeps_foldl) | (split)))

theorem keeps_syncBank {s₀ : State} {s : State} {w : Nat × Nat × List Nat} (hk : Keeps s₀ s) : Keeps s₀ (State.syncBank s w) := by
  unfold State.syncBank
  (repeat' (first | (with_reducible assumption) | (with_reducible apply keeps_putRange)))

theorem keeps_execTblCommitSync {s₀ : State} {s : State} (hk : Keeps s₀ s) : KeepsO s₀ (execTblCommitSync s) := by
  unfold execTblCommitSync
  (repeat' (first | (intro) | (with_reducible assumption) | (with_reducible apply keepsO_ok) | (with_reducible apply keepsO_ite) | (with_reducible apply keeps_syncBank) | (with_reducible apply keeps_recordWritten) | (with_reducible apply keeps_recountClassifier) | (with_reducible apply keeps_put) | (with_reducible apply keeps_countSlots) | (with_reducible apply keeps_raise) | (fail_if_no_progress with_reducible apply keeps_mk) | (with_reducible apply keeps_foldl)))

theorem keeps_execReplicaCompare {s₀ : State} {entry : Fin 8192} {found : List (Fin 4 × Fin 32 × Word)} {s : State} (hk : Keeps s₀ s) : KeepsO s₀ (execReplicaCompare entry found s) := by
  unfold execReplicaCompare
  (repeat' (first | (intro) | (with_reducible assumption) | (with_reducible apply keepsO_ok) | (with_reducible apply keeps_replicaCompare) | (with_reducible apply keeps_wr) | (with_reducible apply keeps_foldl)))

theorem keeps_execMacFlushDone {s₀ : State} {s : State} (hk : Keeps s₀ s) : KeepsO s₀ (execMacFlushDone s) := by
  unfold execMacFlushDone
  (repeat' (first | (with_reducible assumption) | (with_reducible apply keepsO_ok) | (with_reducible apply keeps_raise) | (with_reducible apply keeps_put) | (fail_if_no_progress with_reducible apply keeps_mk) | (split)))

theorem keeps_execAutoFlushStart {s₀ : State} {s : State} (hk : Keeps s₀ s) : KeepsO s₀ (execAutoFlushStart s) := by
  unfold execAutoFlushStart
  (repeat' (first | (with_reducible assumption) | (with_reducible apply keepsO_ok) | (with_reducible apply keeps_flushLearned) | (fail_if_no_progress with_reducible apply keeps_mk) | (split)))

theorem keeps_execPortFlush {s₀ : State} {s : State} (hk : Keeps s₀ s) : KeepsO s₀ (execPortFlush s) := by
  unfold execPortFlush
  (repeat' (first | (with_reducible assumption) | (with_reducible apply keepsO_ok) | (with_reducible apply keeps_raise) | (with_reducible apply keeps_startFlush) | (fail_if_no_progress with_reducible apply keeps_mk) | (extract_lets -underBinder +onlyGivenNames sx; clear_value sx) | (split)))

theorem keeps_execAgeClockStep {s₀ : State} {s : State} (hk : Keeps s₀ s) : KeepsO s₀ (execAgeClockStep s) := by
  unfold execAgeClockStep
  (repeat' (first | (with_reducible assumption) | (with_reducible apply keepsO_ok) | (with_reducible apply keepsO_ite) | (with_reducible apply keeps_put) | (with_reducible apply keeps_bumpBy) | (with_reducible apply keeps_countSlots) | (fail_if_no_progress with_reducible apply keeps_mk)))

theorem keeps_execShadowCompare {s₀ : State} {table : Fin 5} {index : Nat} {poisoned : Bool} {found : RecordFault} {s : State} (hk : Keeps s₀ s) : KeepsO s₀ (execShadowCompare table index poisoned found s) := by
  unfold execShadowCompare
  (repeat' (first | (intro) | (with_reducible assumption) | (with_reducible apply keepsO_ok) | (with_reducible apply keeps_when) | (with_reducible apply keeps_compareRecord) | (with_reducible apply keeps_takeFault)))

end Sys2Proof.Machine
end

