-- ==== Sys2Proof/Laws/KeepsIngress.lean ====
section
/-! SUPPORT. `Keeps`, for every function of Machine/Ingress.lean. -/

set_option linter.all false
set_option simprocs false

namespace Sys2Proof.Machine

theorem keeps_pumpOne {s₀ : State} {s : State} {i : Nat} (hk : Keeps s₀ s) : Keeps s₀ (State.pumpOne s i) := by
  unfold State.pumpOne
  (repeat' (first | (intro) | (with_reducible assumption) | (with_reducible apply keeps_ite) | (with_reducible apply keeps_when) | (with_reducible apply keeps_put) | (fail_if_no_progress with_reducible apply keeps_mk) | (split)))

theorem keeps_pump {s₀ : State} {s : State} (hk : Keeps s₀ s) : Keeps s₀ (State.pump s) := by
  unfold State.pump
  (repeat' (first | (intro) | (with_reducible assumption) | (with_reducible apply keeps_pumpOne) | (with_reducible apply keeps_foldl)))

theorem keeps_distribute {s₀ : State} {s : State} {h : HeadIn} {home : Nat} (hk : Keeps s₀ s) : Keeps s₀ (State.distribute s h home) := by
  unfold State.distribute
  (repeat' (first | (with_reducible assumption) | (with_reducible apply keeps_pump) | (fail_if_no_progress with_reducible apply keeps_mk)))

theorem keeps_stripTag {s₀ : State} {s : State} {p : Nat} {l : Bytes} (hk : Keeps s₀ s) : Keeps s₀ (State.stripTag s p l).2 := by
  unfold State.stripTag
  (repeat' (first | (with_reducible assumption) | (with_reducible apply keeps_stat) | (extract_lets -underBinder +onlyGivenNames sx; clear_value sx) | (split)))
theorem keeps_stripTag_eq {s₀ : State} {s : State} {p : Nat} {l : Bytes} {ra rt} (he : State.stripTag s p l = (ra, rt)) (hk : Keeps s₀ s) : Keeps s₀ rt := by
  have := keeps_stripTag (s := s) (p := p) (l := l) hk; rw [he] at this; exact this

theorem keeps_receive {s₀ : State} {s : State} {p : Nat} {l : Bytes} {good : Bool} (hk : Keeps s₀ s) : Keeps s₀ (State.receive s p l good) := by
  unfold State.receive
  (repeat' (first | (with_reducible assumption) | (with_reducible apply keeps_ite) | (with_reducible apply keeps_rxStamp) | (with_reducible apply keeps_stripTag) | (with_reducible apply keeps_macsecIn) | (with_reducible apply keeps_distribute) | (dsimp -zeta only) | (split)))

theorem keeps_execFrameArrival {s₀ : State} {port : Fin 32} {offset : Nat} {frame : Bytes} {line : LineReport} {s : State} (hk : Keeps s₀ s) : KeepsO s₀ (execFrameArrival port offset frame line s) := by
  unfold execFrameArrival
  (repeat' (first | (intro) | (with_reducible assumption) | (with_reducible apply keepsO_ok) | (with_reducible apply keeps_ite) | (with_reducible apply keepsO_ite) | (with_reducible apply keeps_when) | (with_reducible apply keeps_moment) | (with_reducible apply keeps_statLine) | (with_reducible apply keeps_stat) | (with_reducible apply keeps_statRx) | (with_reducible apply keeps_macControl) | (with_reducible apply keeps_receive)))

theorem keeps_classed {s₀ : State} {s : State} {h : HeadIn} {a : Nat} (hk : Keeps s₀ s) : Keeps s₀ (State.classed s h a).2 := by
  unfold State.classed
  (repeat' (first | (with_reducible assumption) | (with_reducible apply keeps_takeFree) | (dsimp -zeta only) | (split)))
theorem keeps_classed_eq {s₀ : State} {s : State} {h : HeadIn} {a : Nat} {ra rt} (he : State.classed s h a = (ra, rt)) (hk : Keeps s₀ s) : Keeps s₀ rt := by
  have := keeps_classed (s := s) (h := h) (a := a) hk; rw [he] at this; exact this

theorem keeps_capped {s₀ : State} {s : State} {made : Nat} {cap : Nat} {note : State → State} (hk : Keeps s₀ s) (hk_note : ∀ (x0 : State), Keeps s₀ x0 → Keeps s₀ (note x0)) : Keeps s₀ (State.capped s made cap note).2 := by
  unfold State.capped
  (repeat' (first | (intro) | (with_reducible assumption) | (with_reducible apply keeps_when) | (with_reducible apply hk_note) | (with_reducible apply keeps_bump) | (with_reducible apply keeps_oncePerTick) | (with_reducible apply keeps_raise) | (split)))
theorem keeps_capped_eq {s₀ : State} {s : State} {made : Nat} {cap : Nat} {note : State → State} {ra rt} (he : State.capped s made cap note = (ra, rt)) (hk : Keeps s₀ s) (hk_note : ∀ (x0 : State), Keeps s₀ x0 → Keeps s₀ (note x0)) : Keeps s₀ rt := by
  have := keeps_capped (s := s) (made := made) (cap := cap) (note := note) hk hk_note; rw [he] at this; exact this

theorem keeps_copies {s₀ : State} {s : State} {a : Nat} (hk : Keeps s₀ s) : Keeps s₀ (State.copies s a).2 := by
  unfold State.copies
  (repeat' (first | (intro) | (with_reducible assumption) | (with_reducible apply keeps_capped) | (fail_if_no_progress with_reducible apply keeps_mk) | (extract_lets -underBinder +onlyGivenNames sx; clear_value sx) | (dsimp -zeta only) | (split)))
theorem keeps_copies_eq {s₀ : State} {s : State} {a : Nat} {ra rt} (he : State.copies s a = (ra, rt)) (hk : Keeps s₀ s) : Keeps s₀ rt := by
  have := keeps_copies (s := s) (a := a) hk; rw [he] at this; exact this

theorem keeps_lpmLookup {s₀ : State} {s : State} {vrf : Nat} {fam : Nat} {a : Nat} (hk : Keeps s₀ s) : Keeps s₀ (State.lpmLookup s vrf fam a).2 := by
  unfold State.lpmLookup
  (repeat' (first | (with_reducible assumption) | (with_reducible apply keeps_bumpBy) | (with_reducible apply keeps_bump) | (extract_lets -underBinder +onlyGivenNames sx; refine (have kx : Keeps s₀ sx := ?_; ?_); dsimp -zeta only [sx]; rotate_left; clear_value sx; rotate_right) | (extract_lets -underBinder +onlyGivenNames sx; clear_value sx) | (split)))
theorem keeps_lpmLookup_eq {s₀ : State} {s : State} {vrf : Nat} {fam : Nat} {a : Nat} {ra rt} (he : State.lpmLookup s vrf fam a = (ra, rt)) (hk : Keeps s₀ s) : Keeps s₀ rt := by
  have := keeps_lpmLookup (s := s) (vrf := vrf) (fam := fam) (a := a) hk; rw [he] at this; exact this

theorem keeps_listTargets {s₀ : State} {s : State} {l : Nat} {tc : Nat} {skip : Option Nat} (hk : Keeps s₀ s) : Keeps s₀ (State.listTargets s l tc skip).2 := by
  unfold State.listTargets
  (repeat' (first | (with_reducible assumption) | (with_reducible apply keeps_bump) | (split)))
theorem keeps_listTargets_eq {s₀ : State} {s : State} {l : Nat} {tc : Nat} {skip : Option Nat} {ra rt} (he : State.listTargets s l tc skip = (ra, rt)) (hk : Keeps s₀ s) : Keeps s₀ rt := by
  have := keeps_listTargets (s := s) (l := l) (tc := tc) (skip := skip) hk; rw [he] at this; exact this

theorem keeps_egressOf {s₀ : State} {s : State} {kind : Nat} {target : Nat} {rewrite : Nat} {tc : Nat} (hk : Keeps s₀ s) : Keeps s₀ (State.egressOf s kind target rewrite tc).2 := by
  unfold State.egressOf
  (repeat' (first | (with_reducible assumption) | (with_reducible apply keeps_listTargets) | (split)))
theorem keeps_egressOf_eq {s₀ : State} {s : State} {kind : Nat} {target : Nat} {rewrite : Nat} {tc : Nat} {ra rt} (he : State.egressOf s kind target rewrite tc = (ra, rt)) (hk : Keeps s₀ s) : Keeps s₀ rt := by
  have := keeps_egressOf (s := s) (kind := kind) (target := target) (rewrite := rewrite) (tc := tc) hk; rw [he] at this; exact this

theorem keeps_forwardLpm {s₀ : State} {s : State} {pipe : Nat} {vrf : Nat} {tc : Nat} {w : Walk} (hk : Keeps s₀ s) : Keeps s₀ (State.forwardLpm s pipe vrf tc w).2 := by
  unfold State.forwardLpm
  (repeat' (first | (with_reducible assumption) | (with_reducible apply keeps_bump) | (with_reducible apply keeps_lpmLookup_eq (by assumption)) | (with_reducible apply keeps_eccDrop) | (with_reducible apply keeps_egressOf) | (extract_lets -underBinder +onlyGivenNames sx; clear_value sx) | (split)))
theorem keeps_forwardLpm_eq {s₀ : State} {s : State} {pipe : Nat} {vrf : Nat} {tc : Nat} {w : Walk} {ra rt} (he : State.forwardLpm s pipe vrf tc w = (ra, rt)) (hk : Keeps s₀ s) : Keeps s₀ rt := by
  have := keeps_forwardLpm (s := s) (pipe := pipe) (vrf := vrf) (tc := tc) (w := w) hk; rw [he] at this; exact this

theorem keeps_forwardMac {s₀ : State} {s : State} {pipe : Nat} {src : Nat} {tc : Nat} {w : Walk} (hk : Keeps s₀ s) : Keeps s₀ (State.forwardMac s pipe src tc w).2 := by
  unfold State.forwardMac
  (repeat' (first | (with_reducible assumption) | (with_reducible apply keeps_eccDrop) | (with_reducible apply keeps_egressOf) | (with_reducible apply keeps_bump) | (with_reducible apply keeps_listTargets) | (extract_lets -underBinder +onlyGivenNames sx; refine (have kx : Keeps s₀ sx := ?_; ?_); dsimp -zeta only [sx]; rotate_left; clear_value sx; rotate_right) | (extract_lets -underBinder +onlyGivenNames sx; clear_value sx) | (split)))
theorem keeps_forwardMac_eq {s₀ : State} {s : State} {pipe : Nat} {src : Nat} {tc : Nat} {w : Walk} {ra rt} (he : State.forwardMac s pipe src tc w = (ra, rt)) (hk : Keeps s₀ s) : Keeps s₀ rt := by
  have := keeps_forwardMac (s := s) (pipe := pipe) (src := src) (tc := tc) (w := w) hk; rw [he] at this; exact this

theorem keeps_forward {s₀ : State} {s : State} {h : HeadIn} {a : Nat} {w : Walk} (hk : Keeps s₀ s) : Keeps s₀ (State.forward s h a w).2 := by
  unfold State.forward
  (repeat' (first | (with_reducible assumption) | (with_reducible apply keeps_bump) | (with_reducible apply keeps_forwardLpm) | (with_reducible apply keeps_forwardMac) | (extract_lets -underBinder +onlyGivenNames sx; clear_value sx) | (split)))
theorem keeps_forward_eq {s₀ : State} {s : State} {h : HeadIn} {a : Nat} {w : Walk} {ra rt} (he : State.forward s h a w = (ra, rt)) (hk : Keeps s₀ s) : Keeps s₀ rt := by
  have := keeps_forward (s := s) (h := h) (a := a) (w := w) hk; rw [he] at this; exact this

theorem keeps_learn {s₀ : State} {s : State} {pipe : Nat} {vlan : Nat} {smac : Nat} {port : Nat} (hk : Keeps s₀ s) : Keeps s₀ (State.learn s pipe vlan smac port).2 := by
  unfold State.learn
  (repeat' (first | (intro) | (with_reducible assumption) | (with_reducible apply keeps_when) | (with_reducible apply keeps_oncePerTick) | (with_reducible apply keeps_bump) | (with_reducible apply keeps_raise) | (with_reducible apply keeps_countSlots) | (fail_if_no_progress with_reducible apply keeps_mk) | (extract_lets -underBinder +onlyGivenNames sx; refine (have kx : Keeps s₀ sx := ?_; ?_); dsimp -zeta only [sx]; rotate_left; clear_value sx; rotate_right) | (extract_lets -underBinder +onlyGivenNames sx; refine (have kx : ∀ a b c, Keeps s₀ a → Keeps s₀ (sx a b c) := ?_; ?_); dsimp -zeta only [sx]; rotate_left; clear_value sx; rotate_right) | (extract_lets -underBinder +onlyGivenNames sx; clear_value sx) | (with_reducible apply_assumption (exfalso := false) (symm := false)) | (split)))
theorem keeps_learn_eq {s₀ : State} {s : State} {pipe : Nat} {vlan : Nat} {smac : Nat} {port : Nat} {ra rt} (he : State.learn s pipe vlan smac port = (ra, rt)) (hk : Keeps s₀ s) : Keeps s₀ rt := by
  have := keeps_learn (s := s) (pipe := pipe) (vlan := vlan) (smac := smac) (port := port) hk; rw [he] at this; exact this

theorem keeps_learnHead {s₀ : State} {s : State} {h : HeadIn} {l : Bytes} {w : Walk} {ds : List FrameDest} (hk : Keeps s₀ s) : Keeps s₀ (State.learnHead s h l w ds).2 := by
  unfold State.learnHead
  (repeat' (first | (with_reducible assumption) | (with_reducible apply keeps_learn) | (extract_lets -underBinder +onlyGivenNames sx; clear_value sx) | (dsimp -zeta only) | (split)))
theorem keeps_learnHead_eq {s₀ : State} {s : State} {h : HeadIn} {l : Bytes} {w : Walk} {ds : List FrameDest} {ra rt} (he : State.learnHead s h l w ds = (ra, rt)) (hk : Keeps s₀ s) : Keeps s₀ rt := by
  have := keeps_learnHead (s := s) (h := h) (l := l) (w := w) (ds := ds) hk; rw [he] at this; exact this

theorem keeps_admitFrame {s₀ : State} {s : State} {h : HeadIn} {w : Walk} {good : Bool} {authBad : Bool} {l : Bytes} {ds : List FrameDest} {cs : List FrameDest} (hk : Keeps s₀ s) : Keeps s₀ (State.admitFrame s h w good authBad l ds cs).2 := by
  unfold State.admitFrame
  (repeat' (first | (with_reducible assumption) | (with_reducible apply keeps_admitHead_eq (by assumption)) | (with_reducible apply keeps_storeFrame) | (extract_lets -underBinder +onlyGivenNames sx; clear_value sx) | (split)))
theorem keeps_admitFrame_eq {s₀ : State} {s : State} {h : HeadIn} {w : Walk} {good : Bool} {authBad : Bool} {l : Bytes} {ds : List FrameDest} {cs : List FrameDest} {ra rt} (he : State.admitFrame s h w good authBad l ds cs = (ra, rt)) (hk : Keeps s₀ s) : Keeps s₀ rt := by
  have := keeps_admitFrame (s := s) (h := h) (w := w) (good := good) (authBad := authBad) (l := l) (ds := ds) (cs := cs) hk; rw [he] at this; exact this

theorem keeps_runAction {s₀ : State} {s : State} {h : HeadIn} {w : Walk} {good : Bool} {authBad : Bool} {l : Bytes} {a : Nat} {tableBad : Option LookupFault} (hk : Keeps s₀ s) : Keeps s₀ (State.runAction s h w good authBad l a tableBad).2 := by
  unfold State.runAction
  (repeat' (first | (with_reducible assumption) | (with_reducible apply keeps_classed) | (with_reducible apply keeps_copies) | (with_reducible apply keeps_eccDrop) | (with_reducible apply keeps_forward) | (with_reducible apply keeps_learnHead) | (with_reducible apply keeps_admitFrame) | (dsimp -zeta only) | (split)))
theorem keeps_runAction_eq {s₀ : State} {s : State} {h : HeadIn} {w : Walk} {good : Bool} {authBad : Bool} {l : Bytes} {a : Nat} {tableBad : Option LookupFault} {ra rt} (he : State.runAction s h w good authBad l a tableBad = (ra, rt)) (hk : Keeps s₀ s) : Keeps s₀ rt := by
  have := keeps_runAction (s := s) (h := h) (w := w) (good := good) (authBad := authBad) (l := l) (a := a) (tableBad := tableBad) hk; rw [he] at this; exact this

theorem keeps_parseFailed {s₀ : State} {s : State} {c : Nat} (hk : Keeps s₀ s) : Keeps s₀ (State.parseFailed s c) := by
  unfold State.parseFailed
  (repeat' (first | (with_reducible assumption) | (with_reducible apply keeps_bump)))

theorem keeps_failHead {s₀ : State} {s : State} {h : HeadIn} {c : Nat} {l : Bytes} {tableBad : Option LookupFault} (hk : Keeps s₀ s) : Keeps s₀ (State.failHead s h c l tableBad).2 := by
  unfold State.failHead
  (repeat' (first | (with_reducible assumption) | (with_reducible apply keeps_runAction) | (with_reducible apply keeps_parseFailed)))
theorem keeps_failHead_eq {s₀ : State} {s : State} {h : HeadIn} {c : Nat} {l : Bytes} {tableBad : Option LookupFault} {ra rt} (he : State.failHead s h c l tableBad = (ra, rt)) (hk : Keeps s₀ s) : Keeps s₀ rt := by
  have := keeps_failHead (s := s) (h := h) (c := c) (l := l) (tableBad := tableBad) hk; rw [he] at this; exact this

theorem keeps_enqueueFrame {s₀ : State} {s : State} {n : Nat} (hk : Keeps s₀ s) : Keeps s₀ (State.enqueueFrame s n) := by
  unfold State.enqueueFrame
  (repeat' (first | (with_reducible assumption) | (fail_if_no_progress with_reducible apply keeps_mk) | (split)))

theorem keeps_enqueueOpt {s₀ : State} {s : State} {a1 : Option Nat} (hk : Keeps s₀ s) : Keeps s₀ (State.enqueueOpt s a1) := by
  unfold State.enqueueOpt
  (repeat' (first | (with_reducible assumption) | (with_reducible apply keeps_enqueueFrame) | (split)))

theorem keeps_decryptHead {s₀ : State} {s : State} {l : Bytes} {w : Walk} (hk : Keeps s₀ s) : Keeps s₀ (State.decryptHead s l w).2 := by
  unfold State.decryptHead
  (repeat' (first | (with_reducible assumption) | (with_reducible apply keeps_espIn_eq (by assumption)) | (split)))
theorem keeps_decryptHead_eq {s₀ : State} {s : State} {l : Bytes} {w : Walk} {ra rt} (he : State.decryptHead s l w = (ra, rt)) (hk : Keeps s₀ s) : Keeps s₀ rt := by
  have := keeps_decryptHead (s := s) (l := l) (w := w) hk; rw [he] at this; exact this

theorem keeps_actionOf {s₀ : State} {s : State} {h : HeadIn} {w : Walk} (hk : Keeps s₀ s) : Keeps s₀ (State.actionOf s h w).2 := by
  unfold State.actionOf
  (repeat' (first | (with_reducible assumption) | (with_reducible apply keeps_bump) | (extract_lets -underBinder +onlyGivenNames sx; clear_value sx) | (split)))
theorem keeps_actionOf_eq {s₀ : State} {s : State} {h : HeadIn} {w : Walk} {ra rt} (he : State.actionOf s h w = (ra, rt)) (hk : Keeps s₀ s) : Keeps s₀ rt := by
  have := keeps_actionOf (s := s) (h := h) (w := w) hk; rw [he] at this; exact this

theorem keeps_lookupAction {s₀ : State} {s : State} {h : HeadIn} {w : Walk} {b : Option LookupFault} (hk : Keeps s₀ s) : Keeps s₀ (State.lookupAction s h w b).2 := by
  unfold State.lookupAction
  (repeat' (first | (with_reducible assumption) | (with_reducible apply keeps_replicaRepair) | (with_reducible apply keeps_eccUncorr) | (with_reducible apply keeps_actionOf) | (split)))
theorem keeps_lookupAction_eq {s₀ : State} {s : State} {h : HeadIn} {w : Walk} {b : Option LookupFault} {ra rt} (he : State.lookupAction s h w b = (ra, rt)) (hk : Keeps s₀ s) : Keeps s₀ rt := by
  have := keeps_lookupAction (s := s) (h := h) (w := w) (b := b) hk; rw [he] at this; exact this

theorem keeps_passHead {s₀ : State} {s : State} {h : HeadIn} {tableBad : Option LookupFault} (hk : Keeps s₀ s) : Keeps s₀ (State.passHead s h tableBad).2 := by
  unfold State.passHead
  (repeat' (first | (with_reducible assumption) | (with_reducible apply keeps_failHead) | (with_reducible apply keeps_decryptHead_eq (by assumption)) | (with_reducible apply keeps_admitFrame) | (with_reducible apply keeps_lookupAction) | (with_reducible apply keeps_runAction) | (extract_lets -underBinder +onlyGivenNames sx; clear_value sx) | (dsimp -zeta only) | (split)))
theorem keeps_passHead_eq {s₀ : State} {s : State} {h : HeadIn} {tableBad : Option LookupFault} {ra rt} (he : State.passHead s h tableBad = (ra, rt)) (hk : Keeps s₀ s) : Keeps s₀ rt := by
  have := keeps_passHead (s := s) (h := h) (tableBad := tableBad) hk; rw [he] at this; exact this

theorem keeps_passMedia {s₀ : State} {s : State} {h : HeadIn} {w : Walk} {a : Accepted} {l : Bytes} {x : Bytes} {tableBad : Option LookupFault} (hk : Keeps s₀ s) : Keeps s₀ (State.passMedia s h w a l x tableBad) := by
  unfold State.passMedia
  (repeat' (first | (with_reducible assumption) | (with_reducible apply keeps_ite) | (with_reducible apply keeps_lookupAction) | (with_reducible apply keeps_copies) | (with_reducible apply keeps_admitFrame_eq (by assumption)) | (with_reducible apply keeps_enqueueFrame) | (with_reducible apply keeps_eccDrop) | (with_reducible apply keeps_bufferMedia) | (split)))

theorem keeps_enterMedia {s₀ : State} {s : State} {h : HeadIn} {w : Walk} {tableBad : Option LookupFault} {r : Option Accepted × State} (hk : Keeps s₀ s) (hr : Keeps s₀ r.2) : Keeps s₀ (State.enterMedia s h w tableBad r) := by
  unfold State.enterMedia
  split
  · exact hr
  · split
    · rename_i he; exact keeps_mediaPayload_eq he hr
    · rename_i he
      have h' := keeps_mediaPayload_eq he hr
      extract_lets l
      split
      · split
        rename_i he; exact keeps_enqueueOpt (keeps_failHead_eq he hk)
      · exact keeps_passMedia h'

theorem keeps_acceptMedia {s₀ : State} {s : State} {h : HeadIn} {tableBad : Option LookupFault} (hk : Keeps s₀ s) : Keeps s₀ (State.acceptMedia s h tableBad) := by
  unfold State.acceptMedia
  (repeat' (first | (with_reducible assumption) | (with_reducible apply keeps_failHead) | (with_reducible apply keeps_enqueueOpt) | (with_reducible apply keeps_passHead) | (with_reducible apply keeps_enterMedia) | (with_reducible apply keeps_receiveChecks) | (with_reducible apply keeps_receiveRtp) | (extract_lets -underBinder +onlyGivenNames sx; clear_value sx) | (dsimp -zeta only) | (split)))

theorem keeps_skipMarkers {s₀ : State} {s : State} {src : Nat} {a2 : Nat} (hk : Keeps s₀ s) : Keeps s₀ (State.skipMarkers s src a2) := by
  induction a2 generalizing s src with
  | zero => unfold State.skipMarkers; (repeat' (first | (with_reducible assumption) | (with_reducible apply keeps_ite) | (fail_if_no_progress with_reducible apply keeps_mk)))
  | succ n ih => unfold State.skipMarkers; (repeat' (first | (with_reducible apply ih) | (with_reducible assumption) | (with_reducible apply keeps_ite) | (fail_if_no_progress with_reducible apply keeps_mk)))

theorem keeps_toReorder {s₀ : State} {s : State} {h : HeadIn} {handle : Option Nat} (hk : Keeps s₀ s) : Keeps s₀ (State.toReorder s h handle) := by
  unfold State.toReorder
  (repeat' (first | (with_reducible assumption) | (with_reducible apply keeps_pump) | (with_reducible apply keeps_skipMarkers) | (fail_if_no_progress with_reducible apply keeps_mk)))

theorem keeps_execPipelineHeadAccept {s₀ : State} {pipe : Fin 4} {offset : Nat} {tableBad : Option LookupFault} {s : State} (hk : Keeps s₀ s) : KeepsO s₀ (execPipelineHeadAccept pipe offset tableBad s) := by
  unfold execPipelineHeadAccept
  (repeat' (first | (with_reducible assumption) | (with_reducible apply keepsO_ok) | (with_reducible apply keepsO_ite) | (with_reducible apply keeps_moment) | (with_reducible apply keeps_acceptMedia) | (with_reducible apply keeps_pump) | (with_reducible apply keeps_passHead) | (with_reducible apply keeps_toReorder) | (fail_if_no_progress with_reducible apply keeps_mk) | (extract_lets -underBinder +onlyGivenNames sx; refine (have kx : Keeps s₀ sx := ?_; ?_); dsimp -zeta only [sx]; rotate_left; clear_value sx; rotate_right) | (dsimp -zeta only) | (split)))

theorem keeps_execReorderRelease {s₀ : State} {src : Fin 35} {s : State} (hk : Keeps s₀ s) : KeepsO s₀ (execReorderRelease src s) := by
  unfold execReorderRelease
  (repeat' (first | (intro) | (with_reducible assumption) | (with_reducible apply keepsO_ok) | (with_reducible apply keeps_enqueueFrame) | (with_reducible apply keeps_pump) | (with_reducible apply keeps_skipMarkers) | (fail_if_no_progress with_reducible apply keeps_mk) | (with_reducible apply keeps_foldl) | (extract_lets -underBinder +onlyGivenNames sx; clear_value sx) | (split)))

end Sys2Proof.Machine
end

