-- ==== Sys2Proof/Laws/KeepsQueues.lean ====
section
/-! SUPPORT. `Keeps`, for every function of Machine/Queues.lean. -/

set_option linter.all false
set_option simprocs false

namespace Sys2Proof.Machine

theorem keeps_dropRx {s₀ : State} {s : State} {w : RxItem} (hk : Keeps s₀ s) : Keeps s₀ (State.dropRx s w) := by
  unfold State.dropRx
  (repeat' (first | (with_reducible assumption) | (with_reducible apply keeps_releaseWith)))

theorem keeps_setRing {s₀ : State} {s : State} {r : Nat} {x : RingRt} (hk : Keeps s₀ s) : Keeps s₀ (State.setRing s r x) := by
  unfold State.setRing
  (repeat' (first | (with_reducible assumption) | (fail_if_no_progress with_reducible apply keeps_mk)))

theorem keeps_stopRing {s₀ : State} {s : State} {r : Nat} (hk : Keeps s₀ s) : Keeps s₀ (State.stopRing s r) := by
  unfold State.stopRing
  (repeat' (first | (with_reducible assumption) | (with_reducible apply keeps_put) | (with_reducible apply keeps_setRing)))

theorem keeps_abandonRing {s₀ : State} {s : State} {r : Nat} (hk : Keeps s₀ s) : Keeps s₀ (State.abandonRing s r) := by
  unfold State.abandonRing
  (repeat' (first | (intro) | (with_reducible assumption) | (with_reducible apply keeps_ite) | (with_reducible apply keeps_dropRx) | (with_reducible apply keeps_trackGive) | (with_reducible apply keeps_stopRing) | (with_reducible apply keeps_setRing) | (fail_if_no_progress with_reducible apply keeps_mk) | (with_reducible apply keeps_foldl)))

theorem keeps_sendPending {s₀ : State} {s : State} {f : Nat} {v : Nat} (hk : Keeps s₀ s) : Keeps s₀ (State.sendPending s f v) := by
  unfold State.sendPending
  (repeat' (first | (with_reducible assumption) | (with_reducible apply keeps_ite) | (with_reducible apply keeps_sendHost) | (with_reducible apply keeps_put)))

theorem keeps_refreshIntx {s₀ : State} {s : State} (hk : Keeps s₀ s) : Keeps s₀ (State.refreshIntx s) := by
  unfold State.refreshIntx
  (repeat' (first | (with_reducible assumption) | (with_reducible apply keeps_ite) | (with_reducible apply keeps_sendHost) | (with_reducible apply keeps_put)))

theorem keeps_fetchFail {s₀ : State} {s : State} {r : Nat} {q : Nat} (hk : Keeps s₀ s) : Keeps s₀ (State.fetchFail s r q) := by
  unfold State.fetchFail
  (repeat' (first | (with_reducible assumption) | (with_reducible apply keeps_ringError) | (with_reducible apply keeps_put) | (with_reducible apply keeps_stopRing)))

theorem keeps_entryDone {s₀ : State} {s : State} {r : Nat} {q : Nat} (hk : Keeps s₀ s) : Keeps s₀ (State.entryDone s r q) := by
  unfold State.entryDone
  (repeat' (first | (with_reducible assumption) | (with_reducible apply keeps_setRing)))

theorem keeps_setRequest {s₀ : State} {s : State} {r : Nat} {b : Bool} (hk : Keeps s₀ s) : Keeps s₀ (State.setRequest s r b) := by
  unfold State.setRequest
  (repeat' (first | (with_reducible assumption) | (with_reducible apply keeps_refreshIntx) | (with_reducible apply keeps_setRing)))

theorem keeps_readEntries {s₀ : State} {s : State} {r : Nat} {q : Nat} {a3 : Nat} (hk : Keeps s₀ s) : Keeps s₀ (State.readEntries s r q a3) := by
  induction a3 generalizing s r q with
  | zero => unfold State.readEntries; (repeat' (first | (with_reducible assumption) | (with_reducible apply keeps_dmaRead_eq (by assumption)) | (with_reducible apply keeps_setRing) | (with_reducible apply keeps_fetchFail) | (split)))
  | succ n ih => unfold State.readEntries; (repeat' (first | (with_reducible apply ih) | (with_reducible assumption) | (with_reducible apply keeps_dmaRead_eq (by assumption)) | (with_reducible apply keeps_setRing) | (with_reducible apply keeps_fetchFail) | (split)))

theorem keeps_startFetch {s₀ : State} {s : State} {r : Nat} {turn : Nat} {n : Nat} (hk : Keeps s₀ s) : Keeps s₀ (State.startFetch s r turn n) := by
  unfold State.startFetch
  (repeat' (first | (with_reducible assumption) | (with_reducible apply keeps_readEntries) | (with_reducible apply keeps_setRing)))

theorem keeps_fetchBell {s₀ : State} {s : State} {r : Nat} {arm : Bool} (hk : Keeps s₀ s) : Keeps s₀ (State.fetchBell s r arm) := by
  unfold State.fetchBell
  (repeat' (first | (intro) | (with_reducible assumption) | (with_reducible apply keeps_ite) | (with_reducible apply keeps_when) | (with_reducible apply keeps_put) | (with_reducible apply keeps_bump) | (with_reducible apply keeps_setRing) | (with_reducible apply keeps_startFetch)))

theorem keeps_notify {s₀ : State} {s : State} {r : Nat} {type : Nat} (hk : Keeps s₀ s) : Keeps s₀ (State.notify s r type) := by
  unfold State.notify
  (repeat' (first | (with_reducible assumption) | (with_reducible apply keeps_raiseEvent) | (with_reducible apply keeps_put)))

theorem keeps_consumeBell {s₀ : State} {s : State} {r : Nat} {arm : Bool} {value : Nat} (hk : Keeps s₀ s) : Keeps s₀ (State.consumeBell s r arm value) := by
  unfold State.consumeBell
  (repeat' (first | (with_reducible assumption) | (with_reducible apply keeps_ite) | (with_reducible apply keeps_takeFree) | (with_reducible apply keeps_ringError) | (with_reducible apply keeps_bump) | (with_reducible apply keeps_put) | (with_reducible apply keeps_notify)))

theorem keeps_doorbell {s₀ : State} {s : State} {who : Requester} {d : Nat} {arm : Bool} {value : Nat} (hk : Keeps s₀ s) : Keeps s₀ (State.doorbell s who d arm value) := by
  unfold State.doorbell
  (repeat' (first | (with_reducible assumption) | (with_reducible apply keeps_ite) | (with_reducible apply keeps_bump) | (with_reducible apply keeps_setRequest) | (with_reducible apply keeps_fetchBell) | (with_reducible apply keeps_consumeBell) | (split)))

theorem keeps_setNext {s₀ : State} {s : State} {r : Nat} {q : Nat} (hk : Keeps s₀ s) : Keeps s₀ (State.setNext s r q) := by
  unfold State.setNext
  (repeat' (first | (with_reducible assumption) | (with_reducible apply keeps_put)))

theorem keeps_ringEnable {s₀ : State} {s : State} {r : Nat} (hk : Keeps s₀ s) : Keeps s₀ (State.ringEnable s r) := by
  unfold State.ringEnable
  (repeat' (first | (with_reducible assumption) | (with_reducible apply keeps_ite) | (with_reducible apply keeps_takeFree) | (with_reducible apply keeps_ringError) | (with_reducible apply keeps_put) | (with_reducible apply keeps_setRing) | (with_reducible apply keeps_setNext)))

theorem keeps_ringDisable {s₀ : State} {s : State} {r : Nat} (hk : Keeps s₀ s) : Keeps s₀ (State.ringDisable s r) := by
  unfold State.ringDisable
  (repeat' (first | (with_reducible assumption) | (with_reducible apply keeps_ite) | (with_reducible apply keeps_stopRing)))

theorem keeps_writeContext {s₀ : State} {s : State} {who : Requester} {r : Nat} {word : Nat} {v : Nat} (hk : Keeps s₀ s) : Keeps s₀ (State.writeContext s who r word v) := by
  unfold State.writeContext
  (repeat' (first | (with_reducible assumption) | (with_reducible apply keeps_ite) | (with_reducible apply keeps_wr) | (with_reducible apply keeps_ringEnable) | (with_reducible apply keeps_ringDisable)))

theorem keeps_execDoorbellFetch {s₀ : State} {r : Requester} {db : Fin 131072} {arm : Bool} {value : BitVec 24} {walks : List Walk8} {s : State} (hk : Keeps s₀ s) : KeepsO s₀ (execDoorbellFetch r db arm value walks s) := by
  unfold execDoorbellFetch
  (repeat' (first | (intro) | (with_reducible assumption) | (with_reducible apply keepsO_ok) | (with_reducible apply keeps_withWalks) | (with_reducible apply keeps_doorbell)))

theorem keeps_execDoorbellConsume {s₀ : State} {r : Requester} {db : Fin 131072} {arm : Bool} {value : BitVec 24} {s : State} (hk : Keeps s₀ s) : KeepsO s₀ (execDoorbellConsume r db arm value s) := by
  unfold execDoorbellConsume
  (repeat' (first | (with_reducible assumption) | (with_reducible apply keepsO_ok) | (with_reducible apply keeps_doorbell)))

theorem keeps_newRound {s₀ : State} {s : State} (hk : Keeps s₀ s) : Keeps s₀ (State.newRound s) := by
  unfold State.newRound
  (repeat' (first | (with_reducible assumption) | (fail_if_no_progress with_reducible apply keeps_mk)))

theorem keeps_execWrrTurn {s₀ : State} {walks : List Walk8} {s : State} (hk : Keeps s₀ s) : KeepsO s₀ (execWrrTurn walks s) := by
  unfold execWrrTurn
  (repeat' (first | (intro) | (with_reducible assumption) | (with_reducible apply keepsO_ok) | (with_reducible apply keeps_ite) | (with_reducible apply keepsO_ite) | (with_reducible apply keeps_newRound) | (with_reducible apply keeps_withWalks) | (with_reducible apply keeps_startFetch) | (fail_if_no_progress with_reducible apply keeps_mk) | (extract_lets -underBinder +onlyGivenNames sx; refine (have kx : Keeps s₀ sx := ?_; ?_); dsimp -zeta only [sx]; rotate_left; clear_value sx; rotate_right) | (split)))

theorem keeps_takeEntry {s₀ : State} {s : State} {r : Nat} {e : Bytes} (hk : Keeps s₀ s) : Keeps s₀ (State.takeEntry s r e) := by
  unfold State.takeEntry
  (repeat' (first | (intro) | (with_reducible assumption) | (with_reducible apply keeps_ite) | (with_reducible apply keeps_when) | (with_reducible apply keeps_setRing) | (with_reducible apply keeps_setNext) | (with_reducible apply keeps_ringError) | (with_reducible apply keeps_bump) | (with_reducible apply keeps_bumpSat) | (with_reducible apply keeps_trackTake) | (fail_if_no_progress with_reducible apply keeps_mk)))

theorem keeps_fetchOne {s₀ : State} {s : State} {r : Nat} {e : Option Bytes} {tick : Nat} (hk : Keeps s₀ s) : Keeps s₀ (State.fetchOne s r e tick) := by
  unfold State.fetchOne
  (repeat' (first | (with_reducible assumption) | (with_reducible apply keeps_ite) | (with_reducible apply keeps_setRing) | (with_reducible apply keeps_fetchFail) | (with_reducible apply keeps_readEntries) | (with_reducible apply keeps_put) | (with_reducible apply keeps_takeEntry) | (extract_lets -underBinder +onlyGivenNames sx; refine (have kx : Keeps s₀ sx := ?_; ?_); dsimp -zeta only [sx]; rotate_left; clear_value sx; rotate_right) | (split)))

theorem keeps_execDescriptorFetch {s₀ : State} {ring : Fin 131072} {entries : List (Option Bytes × Nat)} {walks : List Walk8} {s : State} (hk : Keeps s₀ s) : KeepsO s₀ (execDescriptorFetch ring entries walks s) := by
  unfold execDescriptorFetch
  (repeat' (first | (intro) | (with_reducible assumption) | (with_reducible apply keepsO_ok) | (with_reducible apply keeps_ite) | (with_reducible apply keepsO_ite) | (with_reducible apply keeps_withWalks) | (with_reducible apply keeps_startFetch) | (with_reducible apply keeps_fetchOne) | (with_reducible apply keeps_foldl)))

theorem keeps_mirror {s₀ : State} {s : State} {r : Nat} {q : Nat} {l : Bytes} (hk : Keeps s₀ s) : Keeps s₀ (State.mirror s r q l) := by
  unfold State.mirror
  (repeat' (first | (intro) | (with_reducible assumption) | (with_reducible apply keeps_when) | (with_reducible apply keeps_sendLink)))

theorem keeps_execTxFrameRead {s₀ : State} {ring : Fin 131072} {data : Option Bytes} {walks : List Walk8} {s : State} (hk : Keeps s₀ s) : KeepsO s₀ (execTxFrameRead ring data walks s) := by
  unfold execTxFrameRead
  (repeat' (first | (intro) | (with_reducible assumption) | (with_reducible apply keepsO_ok) | (with_reducible apply keeps_ite) | (with_reducible apply keepsO_ite) | (with_reducible apply keeps_withWalks) | (with_reducible apply keeps_dmaRead_eq (by assumption)) | (with_reducible apply keeps_mirror) | (with_reducible apply keeps_distribute) | (with_reducible apply keeps_entryDone) | (with_reducible apply keeps_ringError) | (with_reducible apply keeps_bump) | (fail_if_no_progress with_reducible apply keeps_mk) | (extract_lets -underBinder +onlyGivenNames sx; clear_value sx) | (split)))

theorem keeps_rxFail {s₀ : State} {s : State} {r : Nat} {w : RxItem} {kind : Nat} {seq : Nat} {count : Field} (hk : Keeps s₀ s) : Keeps s₀ (State.rxFail s r w kind seq count) := by
  unfold State.rxFail
  (repeat' (first | (intro) | (with_reducible assumption) | (with_reducible apply keeps_when) | (with_reducible apply keeps_bump) | (with_reducible apply keeps_dropRx) | (with_reducible apply keeps_ringError)))

theorem keeps_writeEntry {s₀ : State} {s : State} {r : Nat} {q : Nat} {l : Bytes} (hk : Keeps s₀ s) : Keeps s₀ (State.writeEntry s r q l) := by
  unfold State.writeEntry
  (repeat' (first | (with_reducible assumption) | (with_reducible apply keeps_dmaWrite)))

theorem keeps_writeRecord {s₀ : State} {s : State} {r : Nat} {l : List Nat} {last : Nat} (hk : Keeps s₀ s) : Keeps s₀ (State.writeRecord s r l last) := by
  unfold State.writeRecord
  (repeat' (first | (with_reducible assumption) | (with_reducible apply keeps_writeEntry) | (with_reducible apply keeps_setNext)))

theorem keeps_completeRx {s₀ : State} {s : State} {r : Nat} {q : Nat} {w : RxItem} {len : Nat} {err : Bool} (hk : Keeps s₀ s) : Keeps s₀ (State.completeRx s r q w len err) := by
  unfold State.completeRx
  (repeat' (first | (intro) | (with_reducible assumption) | (with_reducible apply keeps_when) | (with_reducible apply keeps_takeFree) | (with_reducible apply keeps_writeRecord) | (with_reducible apply keeps_notify) | (dsimp -zeta only) | (split)))

theorem keeps_rxWrite {s₀ : State} {s : State} {r : Nat} {w : RxItem} (hk : Keeps s₀ s) : Keeps s₀ (State.rxWrite s r w) := by
  unfold State.rxWrite
  (repeat' (first | (intro) | (with_reducible assumption) | (with_reducible apply keeps_ite) | (with_reducible apply keeps_when) | (with_reducible apply keeps_rxFail) | (with_reducible apply keeps_dmaPayload) | (with_reducible apply keeps_ringError) | (with_reducible apply keeps_bump) | (with_reducible apply keeps_dropRx) | (with_reducible apply keeps_entryDone) | (with_reducible apply keeps_completeRx) | (dsimp -zeta only) | (split)))

theorem keeps_execHostRxWrite {s₀ : State} {ring : Fin 131072} {walks : List Walk8} {s : State} (hk : Keeps s₀ s) : KeepsO s₀ (execHostRxWrite ring walks s) := by
  unfold execHostRxWrite
  (repeat' (first | (intro) | (with_reducible assumption) | (with_reducible apply keepsO_ok) | (with_reducible apply keepsO_ite) | (with_reducible apply keeps_withWalks) | (with_reducible apply keeps_rxWrite) | (fail_if_no_progress with_reducible apply keeps_mk) | (extract_lets -underBinder +onlyGivenNames sx; clear_value sx) | (split)))

theorem keeps_publishHead {s₀ : State} {s : State} {r : Nat} (hk : Keeps s₀ s) : Keeps s₀ (State.publishHead s r) := by
  unfold State.publishHead
  (repeat' (first | (intro) | (with_reducible assumption) | (with_reducible apply keeps_when) | (with_reducible apply keeps_setRing) | (with_reducible apply keeps_dmaWrite) | (with_reducible apply keeps_put) | (with_reducible apply keeps_notify)))

theorem keeps_execHeadPublish {s₀ : State} {ring : Fin 131072} {walks : List Walk8} {s : State} (hk : Keeps s₀ s) : KeepsO s₀ (execHeadPublish ring walks s) := by
  unfold execHeadPublish
  (repeat' (first | (intro) | (with_reducible assumption) | (with_reducible apply keepsO_ok) | (with_reducible apply keepsO_ite) | (with_reducible apply keeps_withWalks) | (with_reducible apply keeps_publishHead)))

theorem keeps_execMediaTxDeliver {s₀ : State} {ring : Fin 131072} {offset : Nat} {s : State} (hk : Keeps s₀ s) : KeepsO s₀ (execMediaTxDeliver ring offset s) := by
  unfold execMediaTxDeliver
  (repeat' (first | (with_reducible assumption) | (with_reducible apply keepsO_ok) | (with_reducible apply keeps_ite) | (with_reducible apply keepsO_ite) | (with_reducible apply keeps_moment) | (with_reducible apply keeps_entryDone) | (with_reducible apply keeps_ringError) | (with_reducible apply keeps_bump) | (with_reducible apply keeps_distribute) | (fail_if_no_progress with_reducible apply keeps_mk) | (extract_lets -underBinder +onlyGivenNames sx; refine (have kx : Keeps s₀ sx := ?_; ?_); dsimp -zeta only [sx]; rotate_left; clear_value sx; rotate_right) | (extract_lets -underBinder +onlyGivenNames sx; clear_value sx) | (split)))

theorem keeps_execSubmitComplete {s₀ : State} {ring : Fin 131072} {walks : List Walk8} {s : State} (hk : Keeps s₀ s) : KeepsO s₀ (execSubmitComplete ring walks s) := by
  unfold execSubmitComplete
  (repeat' (first | (intro) | (with_reducible assumption) | (with_reducible apply keepsO_ok) | (with_reducible apply keepsO_ite) | (with_reducible apply keeps_when) | (with_reducible apply keeps_withWalks) | (with_reducible apply keeps_writeEntry) | (with_reducible apply keeps_setRing) | (with_reducible apply keeps_put) | (with_reducible apply keeps_notify) | (extract_lets -underBinder +onlyGivenNames sx; clear_value sx) | (split)))

theorem keeps_execRingContextWrite {s₀ : State} {r : Requester} {ring : Fin 131072} {word : Fin 16} {v : Word} {s : State} (hk : Keeps s₀ s) : KeepsO s₀ (execRingContextWrite r ring word v s) := by
  unfold execRingContextWrite
  (repeat' (first | (with_reducible assumption) | (with_reducible apply keepsO_ok) | (with_reducible apply keeps_writeContext)))

theorem keeps_execRingEnable {s₀ : State} {r : Requester} {ring : Fin 131072} {s : State} (hk : Keeps s₀ s) : KeepsO s₀ (execRingEnable r ring s) := by
  unfold execRingEnable
  (repeat' (first | (with_reducible assumption) | (with_reducible apply keepsO_ok) | (with_reducible apply keeps_ite) | (with_reducible apply keeps_ringEnable)))

theorem keeps_execRingDisable {s₀ : State} {r : Requester} {ring : Fin 131072} {s : State} (hk : Keeps s₀ s) : KeepsO s₀ (execRingDisable r ring s) := by
  unfold execRingDisable
  (repeat' (first | (with_reducible assumption) | (with_reducible apply keepsO_ok) | (with_reducible apply keeps_ite) | (with_reducible apply keeps_ringDisable)))

theorem keeps_execRingIdle {s₀ : State} {ring : Fin 131072} {walks : List Walk8} {s : State} (hk : Keeps s₀ s) : KeepsO s₀ (execRingIdle ring walks s) := by
  unfold execRingIdle
  (repeat' (first | (intro) | (with_reducible assumption) | (with_reducible apply keepsO_ok) | (with_reducible apply keepsO_ite) | (with_reducible apply keeps_when) | (with_reducible apply keeps_put) | (with_reducible apply keeps_setRing) | (with_reducible apply keeps_withWalks) | (with_reducible apply keeps_publishHead)))

theorem keeps_writeEvent {s₀ : State} {s : State} {q : Nat} {aseq : Nat} {func : Nat} {unit : Nat} {type : Nat} {pay : Nat} (hk : Keeps s₀ s) : Keeps s₀ (State.writeEvent s q aseq func unit type pay) := by
  unfold State.writeEvent
  (repeat' (first | (with_reducible assumption) | (with_reducible apply keeps_writeRecord)))

theorem keeps_overflow {s₀ : State} {s : State} {q : Nat} (hk : Keeps s₀ s) : Keeps s₀ (State.overflow s q) := by
  unfold State.overflow
  (repeat' (first | (with_reducible assumption) | (with_reducible apply keeps_ite) | (with_reducible apply keeps_writeEvent) | (with_reducible apply keeps_put)))

theorem keeps_loseEvent {s₀ : State} {s : State} {q : Nat} {aseq : Nat} (hk : Keeps s₀ s) : Keeps s₀ (State.loseEvent s q aseq) := by
  unfold State.loseEvent
  (repeat' (first | (with_reducible assumption) | (with_reducible apply keeps_ite) | (with_reducible apply keeps_put) | (with_reducible apply keeps_bumpSat) | (fail_if_no_progress with_reducible apply keeps_mk)))

theorem keeps_execEventGrant {s₀ : State} {walks : List Walk8} {s : State} (hk : Keeps s₀ s) : KeepsO s₀ (execEventGrant walks s) := by
  unfold execEventGrant
  (repeat' (first | (intro) | (with_reducible assumption) | (with_reducible apply keepsO_ok) | (with_reducible apply keeps_ite) | (with_reducible apply keepsO_ite) | (with_reducible apply keeps_put) | (with_reducible apply keeps_bump) | (with_reducible apply keeps_withWalks) | (with_reducible apply keeps_overflow) | (with_reducible apply keeps_writeEvent) | (with_reducible apply keeps_loseEvent) | (fail_if_no_progress with_reducible apply keeps_mk) | (extract_lets -underBinder +onlyGivenNames sx; refine (have kx : Keeps s₀ sx := ?_; ?_); dsimp -zeta only [sx]; rotate_left; clear_value sx; rotate_right) | (extract_lets -underBinder +onlyGivenNames sx; clear_value sx) | (split)))

theorem keeps_execEventOverflow {s₀ : State} {ring : Fin 131072} {walks : List Walk8} {s : State} (hk : Keeps s₀ s) : KeepsO s₀ (execEventOverflow ring walks s) := by
  unfold execEventOverflow
  (repeat' (first | (intro) | (with_reducible assumption) | (with_reducible apply keepsO_ok) | (with_reducible apply keeps_ite) | (with_reducible apply keeps_withWalks) | (with_reducible apply keeps_overflow)))

theorem keeps_fireVector {s₀ : State} {s : State} {f : Nat} {v : Nat} (hk : Keeps s₀ s) : Keeps s₀ (State.fireVector s f v) := by
  unfold State.fireVector
  (repeat' (first | (with_reducible assumption) | (with_reducible apply keeps_ite) | (with_reducible apply keeps_put) | (with_reducible apply keeps_sendHost)))

theorem keeps_signal {s₀ : State} {s : State} {r : Nat} (hk : Keeps s₀ s) : Keeps s₀ (State.signal s r) := by
  unfold State.signal
  (repeat' (first | (with_reducible assumption) | (with_reducible apply keeps_fireVector) | (with_reducible apply keeps_setRequest) | (extract_lets -underBinder +onlyGivenNames sx; clear_value sx) | (split)))

theorem keeps_execEventSignal {s₀ : State} {ring : Fin 131072} {a1 : Unit} {offset : Nat} {s : State} (hk : Keeps s₀ s) : KeepsO s₀ (execEventSignal ring a1 offset s) := by
  unfold execEventSignal
  (repeat' (first | (with_reducible assumption) | (with_reducible apply keepsO_ok) | (with_reducible apply keepsO_ite) | (with_reducible apply keeps_moment) | (with_reducible apply keeps_put) | (with_reducible apply keeps_signal) | (with_reducible apply keeps_setRing)))

end Sys2Proof.Machine
end

