-- ==== Sys2Proof/Laws/KeepsStorage.lean ====
section
/-! SUPPORT. `Keeps`, for every function of Machine/Storage.lean. -/

set_option linter.all false
set_option simprocs false

namespace Sys2Proof.Machine

theorem keeps_setCommands {s₀ : State} {s : State} {l : List StorCmd} (hk : Keeps s₀ s) : Keeps s₀ (State.setCommands s l) := by
  unfold State.setCommands
  (repeat' (first | (with_reducible assumption) | (fail_if_no_progress with_reducible apply keeps_mk)))

theorem keeps_sendTcp {s₀ : State} {s : State} {c : Nat} {x : ConnRt} {seq : Nat} {flags : Nat} {l : Bytes} (hk : Keeps s₀ s) : Keeps s₀ (State.sendTcp s c x seq flags l) := by
  unfold State.sendTcp
  (repeat' (first | (with_reducible assumption) | (with_reducible apply keeps_takeFree) | (with_reducible apply keeps_distribute)))

theorem keeps_completeEntry {s₀ : State} {s : State} {r : Nat} {q : Nat} {status : Nat} {dw0 : Nat} {bytes : Nat} (hk : Keeps s₀ s) : Keeps s₀ (State.completeEntry s r q status dw0 bytes) := by
  unfold State.completeEntry
  (repeat' (first | (intro) | (with_reducible assumption) | (with_reducible apply keeps_ite) | (with_reducible apply keeps_when) | (with_reducible apply keeps_setRing) | (with_reducible apply keeps_trackGive) | (with_reducible apply keeps_bump)))

theorem keeps_finish {s₀ : State} {s : State} {c : StorCmd} {status : Nat} {dw0 : Nat} (hk : Keeps s₀ s) : Keeps s₀ (State.finish s c status dw0) := by
  unfold State.finish
  (repeat' (first | (with_reducible assumption) | (with_reducible apply keeps_ite) | (with_reducible apply keeps_setCommands) | (with_reducible apply keeps_completeEntry)))

theorem keeps_finishAll {s₀ : State} {s : State} {p : StorCmd → Bool} {code : Nat} (hk : Keeps s₀ s) : Keeps s₀ (State.finishAll s p code) := by
  unfold State.finishAll
  (repeat' (first | (intro) | (with_reducible assumption) | (with_reducible apply keeps_finish) | (with_reducible apply keeps_foldl)))

theorem keeps_dropConn {s₀ : State} {s : State} {c : Nat} (hk : Keeps s₀ s) : Keeps s₀ (State.dropConn s c) := by
  unfold State.dropConn
  (repeat' (first | (with_reducible assumption) | (fail_if_no_progress with_reducible apply keeps_mk)))

theorem keeps_failConn {s₀ : State} {s : State} {c : Nat} {cause : Nat} (hk : Keeps s₀ s) : Keeps s₀ (State.failConn s c cause) := by
  unfold State.failConn
  (repeat' (first | (with_reducible assumption) | (with_reducible apply keeps_finishAll) | (with_reducible apply keeps_put) | (with_reducible apply keeps_dropConn) | (with_reducible apply keeps_raiseFor)))

theorem keeps_resetConn {s₀ : State} {s : State} {c : Nat} {cause : Nat} (hk : Keeps s₀ s) : Keeps s₀ (State.resetConn s c cause) := by
  unfold State.resetConn
  (repeat' (first | (with_reducible assumption) | (with_reducible apply keeps_sendTcp) | (with_reducible apply keeps_failConn) | (split)))

theorem keeps_storageStandalone {s₀ : State} {s : State} (hk : Keeps s₀ s) : Keeps s₀ (State.storageStandalone s) := by
  unfold State.storageStandalone
  (repeat' (first | (intro) | (with_reducible assumption) | (with_reducible apply keeps_setCommands) | (with_reducible apply keeps_resetConn) | (with_reducible apply keeps_foldl)))

theorem keeps_finishEarly {s₀ : State} {s : State} {c : StorCmd} {status : Nat} (hk : Keeps s₀ s) : Keeps s₀ (State.finishEarly s c status) := by
  unfold State.finishEarly
  (repeat' (first | (with_reducible assumption) | (with_reducible apply keeps_ite) | (with_reducible apply keeps_completeEntry) | (with_reducible apply keeps_setCommands)))

theorem keeps_setConn {s₀ : State} {s : State} {c : Nat} {x : ConnRt} (hk : Keeps s₀ s) : Keeps s₀ (State.setConn s c x) := by
  unfold State.setConn
  (repeat' (first | (with_reducible assumption) | (fail_if_no_progress with_reducible apply keeps_mk)))

theorem keeps_pumpTcp {s₀ : State} {s : State} {c : Nat} {a2 : Nat} (hk : Keeps s₀ s) : Keeps s₀ (State.pumpTcp s c a2) := by
  induction a2 generalizing s c with
  | zero => unfold State.pumpTcp; (repeat' (first | (with_reducible assumption) | (with_reducible apply keeps_ite) | (with_reducible apply keeps_sendTcp) | (with_reducible apply keeps_setConn) | (split)))
  | succ n ih => unfold State.pumpTcp; (repeat' (first | (with_reducible apply ih) | (with_reducible assumption) | (with_reducible apply keeps_ite) | (with_reducible apply keeps_sendTcp) | (with_reducible apply keeps_setConn) | (split)))

theorem keeps_finWhenIdle {s₀ : State} {s : State} {c : Nat} (hk : Keeps s₀ s) : Keeps s₀ (State.finWhenIdle s c) := by
  unfold State.finWhenIdle
  (repeat' (first | (with_reducible assumption) | (with_reducible apply keeps_ite) | (with_reducible apply keeps_pumpTcp) | (with_reducible apply keeps_setConn) | (split)))

theorem keeps_connCmd {s₀ : State} {s : State} {r : Requester} {op : Nat} {c : Nat} (hk : Keeps s₀ s) : Keeps s₀ (State.connCmd s r op c) := by
  unfold State.connCmd
  (repeat' (first | (intro) | (with_reducible assumption) | (with_reducible apply keeps_ite) | (with_reducible apply keeps_put) | (with_reducible apply keeps_sendTcp) | (with_reducible apply keeps_setConn) | (with_reducible apply keeps_dropConn) | (with_reducible apply keeps_finWhenIdle) | (with_reducible apply keeps_resetConn) | (fail_if_no_progress with_reducible apply keeps_mk) | (extract_lets -underBinder +onlyGivenNames sx; refine (have kx : Keeps s₀ sx := ?_; ?_); dsimp -zeta only [sx]; rotate_left; clear_value sx; rotate_right) | (extract_lets -underBinder +onlyGivenNames sx; refine (have kx : ∀ a b, Keeps s₀ a → Keeps s₀ (sx a b) := ?_; ?_); dsimp -zeta only [sx]; rotate_left; clear_value sx; rotate_right) | (extract_lets -underBinder +onlyGivenNames sx; clear_value sx) | (with_reducible apply_assumption (exfalso := false) (symm := false)) | (split)))

theorem keeps_shutDrive {s₀ : State} {s : State} (hk : Keeps s₀ s) : Keeps s₀ (State.shutDrive s) := by
  unfold State.shutDrive
  (repeat' (first | (with_reducible assumption) | (with_reducible apply keeps_emit) | (fail_if_no_progress with_reducible apply keeps_mk)))

theorem keeps_shutdownWhenIdle {s₀ : State} {s : State} (hk : Keeps s₀ s) : Keeps s₀ (State.shutdownWhenIdle s) := by
  unfold State.shutdownWhenIdle
  (repeat' (first | (with_reducible assumption) | (with_reducible apply keeps_ite) | (with_reducible apply keeps_shutDrive)))

theorem keeps_writeConn {s₀ : State} {s : State} {r : Requester} {c : Nat} {word : Nat} {v : Nat} (hk : Keeps s₀ s) : Keeps s₀ (State.writeConn s r c word v) := by
  unfold State.writeConn
  (repeat' (first | (with_reducible assumption) | (with_reducible apply keeps_ite) | (with_reducible apply keeps_writeWord)))

theorem keeps_writeNamespace {s₀ : State} {s : State} {r : Requester} {i : Nat} {word : Nat} {v : Nat} (hk : Keeps s₀ s) : Keeps s₀ (State.writeNamespace s r i word v) := by
  unfold State.writeNamespace
  (repeat' (first | (with_reducible assumption) | (with_reducible apply keeps_ite) | (with_reducible apply keeps_writeWord)))

theorem keeps_setXts {s₀ : State} {s : State} {x : StorCmd} {run : Option XtsRun} (hk : Keeps s₀ s) : Keeps s₀ (State.setXts s x run) := by
  unfold State.setXts
  (repeat' (first | (with_reducible assumption) | (with_reducible apply keeps_setCommands)))

theorem keeps_moveBytes {s₀ : State} {s : State} {c : StorCmd} {n : Nat} (hk : Keeps s₀ s) : Keeps s₀ (State.moveBytes s c n) := by
  unfold State.moveBytes
  (repeat' (first | (with_reducible assumption) | (with_reducible apply keeps_setCommands)))

theorem keeps_readPart {s₀ : State} {s : State} {x : StorCmd} {l : Bytes} (hk : Keeps s₀ s) : Keeps s₀ (State.readPart s x l).2 := by
  unfold State.readPart
  (repeat' (first | (with_reducible assumption) | (with_reducible apply keeps_dmaWrite) | (with_reducible apply keeps_moveBytes)))
theorem keeps_readPart_eq {s₀ : State} {s : State} {x : StorCmd} {l : Bytes} {ra rt} (he : State.readPart s x l = (ra, rt)) (hk : Keeps s₀ s) : Keeps s₀ rt := by
  have := keeps_readPart (s := s) (x := x) (l := l) hk; rw [he] at this; exact this

theorem keeps_xtsRest {s₀ : State} {s : State} {x : StorCmd} {run : XtsRun} (hk : Keeps s₀ s) : Keeps s₀ (State.xtsRest s x run) := by
  unfold State.xtsRest
  (repeat' (first | (with_reducible assumption) | (with_reducible apply keeps_ite) | (with_reducible apply keeps_shutdownWhenIdle) | (with_reducible apply keeps_finish) | (with_reducible apply keeps_bump) | (with_reducible apply keeps_trackPulse) | (with_reducible apply keeps_emit) | (with_reducible apply keeps_setXts) | (with_reducible apply keeps_moveBytes) | (with_reducible apply keeps_readPart) | (dsimp -zeta only) | (split)))

theorem keeps_xtsRun {s₀ : State} {s : State} (hk : Keeps s₀ s) : Keeps s₀ (State.xtsRun s) := by
  unfold State.xtsRun
  (repeat' (first | (intro) | (with_reducible assumption) | (with_reducible apply keeps_xtsRest) | (with_reducible apply keeps_foldl) | (split)))

theorem keeps_xtsBegin {s₀ : State} {s : State} {i : Nat} {enc : Bool} {nsid : Nat} {size : Nat} {lba : Nat} {dw0 : Nat} {l : Bytes} (hk : Keeps s₀ s) : Keeps s₀ (State.xtsBegin s i enc nsid size lba dw0 l).2 := by
  unfold State.xtsBegin
  (repeat' (first | (with_reducible assumption) | (with_reducible apply keeps_bump) | (with_reducible apply keeps_trackPulse) | (split)))
theorem keeps_xtsBegin_eq {s₀ : State} {s : State} {i : Nat} {enc : Bool} {nsid : Nat} {size : Nat} {lba : Nat} {dw0 : Nat} {l : Bytes} {ra rt} (he : State.xtsBegin s i enc nsid size lba dw0 l = (ra, rt)) (hk : Keeps s₀ s) : Keeps s₀ rt := by
  have := keeps_xtsBegin (s := s) (i := i) (enc := enc) (nsid := nsid) (size := size) (lba := lba) (dw0 := dw0) (l := l) hk; rw [he] at this; exact this

theorem keeps_issueNs {s₀ : State} {s : State} {x : StorCmd} {data : Option Bytes} (hk : Keeps s₀ s) : Keeps s₀ (State.issueNs s x data) := by
  unfold State.issueNs
  (repeat' (first | (with_reducible assumption) | (with_reducible apply keeps_setCommands) | (with_reducible apply keeps_dmaRead_eq (by assumption)) | (with_reducible apply keeps_xtsBegin_eq (by assumption)) | (with_reducible apply keeps_moveBytes) | (with_reducible apply keeps_emit) | (with_reducible apply keeps_setXts) | (with_reducible apply keeps_finish) | (extract_lets -underBinder +onlyGivenNames sx; refine (have kx : Keeps s₀ sx := ?_; ?_); dsimp -zeta only [sx]; rotate_left; clear_value sx; rotate_right) | (extract_lets -underBinder +onlyGivenNames sx; clear_value sx) | (split)))

theorem keeps_sendPdu {s₀ : State} {s : State} {c : Nat} {kind : Nat} {fields : List Nat} {l : Bytes} (hk : Keeps s₀ s) : Keeps s₀ (State.sendPdu s c kind fields l) := by
  unfold State.sendPdu
  (repeat' (first | (with_reducible assumption) | (with_reducible apply keeps_pumpTcp) | (with_reducible apply keeps_setConn) | (split)))

theorem keeps_sendCommandPdu {s₀ : State} {s : State} {c : Nat} {kind : Nat} {fields : List Nat} {l : Bytes} (hk : Keeps s₀ s) : Keeps s₀ (State.sendCommandPdu s c kind fields l) := by
  unfold State.sendCommandPdu
  (repeat' (first | (with_reducible assumption) | (with_reducible apply keeps_sendPdu) | (split)))

theorem keeps_issueConn {s₀ : State} {s : State} {x : StorCmd} {nsid : Nat} (hk : Keeps s₀ s) : Keeps s₀ (State.issueConn s x nsid) := by
  unfold State.issueConn
  (repeat' (first | (with_reducible assumption) | (with_reducible apply keeps_sendCommandPdu) | (with_reducible apply keeps_setCommands)))

theorem keeps_issueNext {s₀ : State} {s : State} {r : Nat} {opc : Nat} {data : Option Bytes} (hk : Keeps s₀ s) : Keeps s₀ (State.issueNext s r opc data) := by
  unfold State.issueNext
  (repeat' (first | (with_reducible assumption) | (with_reducible apply keeps_ite) | (with_reducible apply keeps_issueNs) | (with_reducible apply keeps_issueConn) | (with_reducible apply keeps_completeEntry) | (split)))

theorem keeps_execNvmeFlush {s₀ : State} {ring : Fin 131072} {s : State} (hk : Keeps s₀ s) : KeepsO s₀ (execNvmeFlush ring s) := by
  unfold execNvmeFlush
  (repeat' (first | (with_reducible assumption) | (with_reducible apply keepsO_ok) | (with_reducible apply keeps_issueNext)))

theorem keeps_execNvmeWrite {s₀ : State} {ring : Fin 131072} {data : Option Bytes} {walks : List Walk8} {s : State} (hk : Keeps s₀ s) : KeepsO s₀ (execNvmeWrite ring data walks s) := by
  unfold execNvmeWrite
  (repeat' (first | (intro) | (with_reducible assumption) | (with_reducible apply keepsO_ok) | (with_reducible apply keeps_withWalks) | (with_reducible apply keeps_issueNext)))

theorem keeps_execNvmeRead {s₀ : State} {ring : Fin 131072} {s : State} (hk : Keeps s₀ s) : KeepsO s₀ (execNvmeRead ring s) := by
  unfold execNvmeRead
  (repeat' (first | (with_reducible assumption) | (with_reducible apply keepsO_ok) | (with_reducible apply keeps_issueNext)))

theorem keeps_execStorageComplete {s₀ : State} {cid : BitVec 16} {sct : Fin 8} {sc : BitVec 8} {dw0 : Word} {data : Bytes} {walks : List Walk8} {s : State} (hk : Keeps s₀ s) : KeepsO s₀ (execStorageComplete cid sct sc dw0 data walks s) := by
  unfold execStorageComplete
  (repeat' (first | (intro) | (with_reducible assumption) | (with_reducible apply keepsO_ok) | (with_reducible apply keeps_ite) | (with_reducible apply keepsO_ite) | (with_reducible apply keeps_shutdownWhenIdle) | (with_reducible apply keeps_finish) | (with_reducible apply keeps_xtsBegin_eq (by assumption)) | (with_reducible apply keeps_withWalks) | (with_reducible apply keeps_readPart) | (with_reducible apply keeps_setXts) | (dsimp -zeta only) | (split)))

theorem keeps_execStorageCmdTimeout {s₀ : State} {ns : Bool} {handle : Fin 8192} {cid : BitVec 16} {s : State} (hk : Keeps s₀ s) : KeepsO s₀ (execStorageCmdTimeout ns handle cid s) := by
  unfold execStorageCmdTimeout
  (repeat' (first | (with_reducible assumption) | (with_reducible apply keepsO_ok) | (with_reducible apply keepsO_ite) | (with_reducible apply keeps_finishEarly) | (with_reducible apply keeps_resetConn) | (with_reducible apply keeps_finish) | (split)))

theorem keeps_execOpenConn {s₀ : State} {r : Requester} {c : Fin 8192} {s : State} (hk : Keeps s₀ s) : KeepsO s₀ (execOpenConn r c s) := by
  unfold execOpenConn
  (repeat' (first | (with_reducible assumption) | (with_reducible apply keepsO_ok) | (with_reducible apply keeps_connCmd)))

theorem keeps_execCloseConn {s₀ : State} {r : Requester} {c : Fin 8192} {s : State} (hk : Keeps s₀ s) : KeepsO s₀ (execCloseConn r c s) := by
  unfold execCloseConn
  (repeat' (first | (with_reducible assumption) | (with_reducible apply keepsO_ok) | (with_reducible apply keeps_connCmd)))

theorem keeps_execAbortConn {s₀ : State} {r : Requester} {c : Fin 8192} {s : State} (hk : Keeps s₀ s) : KeepsO s₀ (execAbortConn r c s) := by
  unfold execAbortConn
  (repeat' (first | (with_reducible assumption) | (with_reducible apply keepsO_ok) | (with_reducible apply keeps_connCmd)))

theorem keeps_connectDone {s₀ : State} {s : State} {c : Nat} {status : Nat} (hk : Keeps s₀ s) : Keeps s₀ (State.connectDone s c status) := by
  unfold State.connectDone
  (repeat' (first | (with_reducible assumption) | (with_reducible apply keeps_ite) | (with_reducible apply keeps_raiseFor) | (with_reducible apply keeps_put) | (with_reducible apply keeps_resetConn)))

theorem keeps_execConnUp {s₀ : State} {c : Fin 8192} {status : BitVec 16} {s : State} (hk : Keeps s₀ s) : KeepsO s₀ (execConnUp c status s) := by
  unfold execConnUp
  (repeat' (first | (with_reducible assumption) | (with_reducible apply keepsO_ok) | (with_reducible apply keeps_ite) | (with_reducible apply keeps_connectDone)))

theorem keeps_sendAck {s₀ : State} {s : State} {c : Nat} (hk : Keeps s₀ s) : Keeps s₀ (State.sendAck s c) := by
  unfold State.sendAck
  (repeat' (first | (with_reducible assumption) | (with_reducible apply keeps_sendTcp) | (split)))

theorem keeps_resend {s₀ : State} {s : State} {c : Nat} {x : ConnRt} (hk : Keeps s₀ s) : Keeps s₀ (State.resend s c x) := by
  unfold State.resend
  (repeat' (first | (with_reducible assumption) | (with_reducible apply keeps_ite) | (with_reducible apply keeps_bump) | (with_reducible apply keeps_sendTcp)))

theorem keeps_closeWhenDone {s₀ : State} {s : State} {c : Nat} (hk : Keeps s₀ s) : Keeps s₀ (State.closeWhenDone s c) := by
  unfold State.closeWhenDone
  (repeat' (first | (with_reducible assumption) | (with_reducible apply keeps_ite) | (with_reducible apply keeps_put) | (with_reducible apply keeps_dropConn) | (split)))

theorem keeps_takeSegment {s₀ : State} {s : State} {c : Nat} {m : TcpSegment} (hk : Keeps s₀ s) : Keeps s₀ (State.takeSegment s c m) := by
  unfold State.takeSegment
  (repeat' (first | (intro) | (with_reducible assumption) | (with_reducible apply keeps_ite) | (with_reducible apply keeps_when) | (with_reducible apply keeps_resetConn) | (with_reducible apply keeps_sendPdu) | (with_reducible apply keeps_sendAck) | (with_reducible apply keeps_put) | (with_reducible apply keeps_setConn) | (with_reducible apply keeps_resend) | (with_reducible apply keeps_pumpTcp) | (with_reducible apply keeps_failConn) | (with_reducible apply keeps_closeWhenDone) | (split)))

theorem keeps_execTcpSegment {s₀ : State} {c : Fin 8192} {m : TcpSegment} {s : State} (hk : Keeps s₀ s) : KeepsO s₀ (execTcpSegment c m s) := by
  unfold execTcpSegment
  (repeat' (first | (with_reducible assumption) | (with_reducible apply keepsO_ok) | (with_reducible apply keeps_ite) | (with_reducible apply keeps_takeSegment)))

theorem keeps_execTcpRetransmitTimeout {s₀ : State} {c : Fin 8192} {s : State} (hk : Keeps s₀ s) : KeepsO s₀ (execTcpRetransmitTimeout c s) := by
  unfold execTcpRetransmitTimeout
  (repeat' (first | (with_reducible assumption) | (with_reducible apply keepsO_ok) | (with_reducible apply keepsO_ite) | (with_reducible apply keeps_failConn) | (with_reducible apply keeps_resend) | (with_reducible apply keeps_setConn) | (split)))

theorem keeps_execPeerRst {s₀ : State} {c : Fin 8192} {seq : Word} {ack : Word} {s : State} (hk : Keeps s₀ s) : KeepsO s₀ (execPeerRst c seq ack s) := by
  unfold execPeerRst
  (repeat' (first | (with_reducible assumption) | (with_reducible apply keepsO_ok) | (with_reducible apply keeps_ite) | (with_reducible apply keeps_failConn) | (split)))

theorem keeps_termConn {s₀ : State} {s : State} {c : Nat} {cause : Nat} (hk : Keeps s₀ s) : Keeps s₀ (State.termConn s c cause) := by
  unfold State.termConn
  (repeat' (first | (with_reducible assumption) | (with_reducible apply keeps_resetConn) | (with_reducible apply keeps_sendPdu)))

theorem keeps_execIcresp {s₀ : State} {c : Fin 8192} {m : IcResp} {s : State} (hk : Keeps s₀ s) : KeepsO s₀ (execIcresp c m s) := by
  unfold execIcresp
  (repeat' (first | (with_reducible assumption) | (with_reducible apply keepsO_ok) | (with_reducible apply keepsO_ite) | (with_reducible apply keeps_termConn) | (with_reducible apply keeps_sendCommandPdu) | (with_reducible apply keeps_setConn) | (split)))

theorem keeps_execCapsuleResp {s₀ : State} {c : Fin 8192} {cid : BitVec 16} {hdrOk : Bool} {sct : Fin 8} {sc : BitVec 8} {dw0 : Word} {s : State} (hk : Keeps s₀ s) : KeepsO s₀ (execCapsuleResp c cid hdrOk sct sc dw0 s) := by
  unfold execCapsuleResp
  (repeat' (first | (with_reducible assumption) | (with_reducible apply keepsO_ok) | (with_reducible apply keeps_ite) | (with_reducible apply keepsO_ite) | (with_reducible apply keeps_termConn) | (with_reducible apply keeps_connectDone) | (with_reducible apply keeps_finWhenIdle) | (with_reducible apply keeps_finish) | (split)))

theorem keeps_execC2hData {s₀ : State} {c : Fin 8192} {cid : BitVec 16} {off : Nat} {payload : Bytes} {hdrOk : Bool} {dataOk : Bool} {last : Bool} {success : Bool} {walks : List Walk8} {s : State} (hk : Keeps s₀ s) : KeepsO s₀ (execC2hData c cid off payload hdrOk dataOk last success walks s) := by
  unfold execC2hData
  (repeat' (first | (intro) | (with_reducible assumption) | (with_reducible apply keepsO_ok) | (with_reducible apply keeps_ite) | (with_reducible apply keepsO_ite) | (with_reducible apply keeps_termConn) | (with_reducible apply keeps_withWalks) | (with_reducible apply keeps_dmaWrite) | (with_reducible apply keeps_moveBytes) | (with_reducible apply keeps_finishEarly) | (with_reducible apply keeps_bump) | (with_reducible apply keeps_finWhenIdle) | (with_reducible apply keeps_finish) | (extract_lets -underBinder +onlyGivenNames sx; refine (have kx : Keeps s₀ sx := ?_; ?_); dsimp -zeta only [sx]; rotate_left; clear_value sx; rotate_right) | (dsimp -zeta only) | (split)))

theorem keeps_execReadyToTransfer {s₀ : State} {c : Fin 8192} {cid : BitVec 16} {ttag : BitVec 16} {off : Nat} {len : Nat} {found : R2tFound} {walks : List Walk8} {s : State} (hk : Keeps s₀ s) : KeepsO s₀ (execReadyToTransfer c cid ttag off len found walks s) := by
  unfold execReadyToTransfer
  (repeat' (first | (intro) | (with_reducible assumption) | (with_reducible apply keepsO_ok) | (with_reducible apply keepsO_ite) | (with_reducible apply keeps_termConn) | (with_reducible apply keeps_withWalks) | (with_reducible apply keeps_dmaRead_eq (by assumption)) | (with_reducible apply keeps_sendCommandPdu) | (with_reducible apply keeps_moveBytes) | (with_reducible apply keeps_finishEarly) | (split)))

theorem keeps_execC2hTermReq {s₀ : State} {c : Fin 8192} {s : State} (hk : Keeps s₀ s) : KeepsO s₀ (execC2hTermReq c s) := by
  unfold execC2hTermReq
  (repeat' (first | (with_reducible assumption) | (with_reducible apply keepsO_ok) | (with_reducible apply keeps_ite) | (with_reducible apply keeps_termConn)))

theorem keeps_execNamespaceWrite {s₀ : State} {r : Requester} {ns : Fin 64} {word : Fin 8} {v : Word} {s : State} (hk : Keeps s₀ s) : KeepsO s₀ (execNamespaceWrite r ns word v s) := by
  unfold execNamespaceWrite
  (repeat' (first | (with_reducible assumption) | (with_reducible apply keepsO_ok) | (with_reducible apply keeps_writeNamespace)))

theorem keeps_execConnContextWrite {s₀ : State} {r : Requester} {c : Fin 8192} {word : Fin 16} {v : Word} {s : State} (hk : Keeps s₀ s) : KeepsO s₀ (execConnContextWrite r c word v s) := by
  unfold execConnContextWrite
  (repeat' (first | (with_reducible assumption) | (with_reducible apply keepsO_ok) | (with_reducible apply keeps_writeConn)))

end Sys2Proof.Machine
end

