-- ==== Sys2Proof/Laws/KeepsTenancy.lean ====
section
/-! SUPPORT. `Keeps`, for every function of Machine/Tenancy.lean. -/

set_option linter.all false
set_option simprocs false

namespace Sys2Proof.Machine

theorem keeps_dropEntries {s₀ : State} {s : State} {inScope : TlbEntry → Bool} {funcs : Nat → Bool} (hk : Keeps s₀ s) : Keeps s₀ (State.dropEntries s inScope funcs) := by
  unfold State.dropEntries
  (repeat' (first | (with_reducible assumption) | (fail_if_no_progress with_reducible apply keeps_mk)))

theorem keeps_setHalf {s₀ : State} {s : State} {toVf : Bool} {v : Nat} {b : Bool} (hk : Keeps s₀ s) : Keeps s₀ (State.setHalf s toVf v b) := by
  unfold State.setHalf
  (repeat' (first | (with_reducible assumption) | (with_reducible apply keeps_put)))

theorem keeps_mbxSend {s₀ : State} {s : State} {toVf : Bool} {v : Nat} (hk : Keeps s₀ s) : Keeps s₀ (State.mbxSend s toVf v) := by
  unfold State.mbxSend
  (repeat' (first | (intro) | (with_reducible assumption) | (with_reducible apply keeps_ite) | (with_reducible apply keeps_when) | (with_reducible apply keeps_put) | (with_reducible apply keeps_wr) | (with_reducible apply keeps_raiseEvent) | (with_reducible apply keeps_setHalf)))

theorem keeps_mbxAck {s₀ : State} {s : State} {toVf : Bool} {v : Nat} (hk : Keeps s₀ s) : Keeps s₀ (State.mbxAck s toVf v) := by
  unfold State.mbxAck
  (repeat' (first | (with_reducible assumption) | (with_reducible apply keeps_ite) | (with_reducible apply keeps_raiseEvent) | (with_reducible apply keeps_setHalf)))

theorem keeps_writeMailbox {s₀ : State} {s : State} {r : Requester} {v : Nat} {i : Nat} {x : Nat} (hk : Keeps s₀ s) : Keeps s₀ (State.writeMailbox s r v i x) := by
  unfold State.writeMailbox
  (repeat' (first | (with_reducible assumption) | (with_reducible apply keeps_ite) | (with_reducible apply keeps_bump) | (with_reducible apply keeps_wr)))

theorem keeps_startInv {s₀ : State} {s : State} {r : Requester} {inScope : TlbEntry → Bool} {funcs : Nat → Bool} {reads : ReadReq → Bool} (hk : Keeps s₀ s) : Keeps s₀ (State.startInv s r inScope funcs reads) := by
  unfold State.startInv
  (repeat' (first | (with_reducible assumption) | (with_reducible apply keeps_ite) | (with_reducible apply keeps_put) | (with_reducible apply keeps_trackTake) | (with_reducible apply keeps_bump) | (with_reducible apply keeps_dropEntries) | (fail_if_no_progress with_reducible apply keeps_mk)))

theorem keeps_execInvAll {s₀ : State} {r : Requester} {s : State} (hk : Keeps s₀ s) : KeepsO s₀ (execInvAll r s) := by
  unfold execInvAll
  (repeat' (first | (with_reducible assumption) | (with_reducible apply keepsO_ok) | (with_reducible apply keeps_startInv)))

theorem keeps_execInvFunc {s₀ : State} {r : Requester} {func : Fin 4096} {s : State} (hk : Keeps s₀ s) : KeepsO s₀ (execInvFunc r func s) := by
  unfold execInvFunc
  (repeat' (first | (with_reducible assumption) | (with_reducible apply keepsO_ok) | (with_reducible apply keeps_startInv)))

theorem keeps_invRange {s₀ : State} {s : State} {r : Requester} {func : Nat} {log2 : Nat} (hk : Keeps s₀ s) : Keeps s₀ (State.invRange s r func log2) := by
  unfold State.invRange
  (repeat' (first | (with_reducible assumption) | (with_reducible apply keeps_startInv)))

theorem keeps_invOther {s₀ : State} {s : State} {r : Requester} (hk : Keeps s₀ s) : Keeps s₀ (State.invOther s r) := by
  unfold State.invOther
  (repeat' (first | (with_reducible assumption) | (with_reducible apply keeps_ite) | (with_reducible apply keeps_put)))

theorem keeps_startSync {s₀ : State} {s : State} {f : Nat} (hk : Keeps s₀ s) : Keeps s₀ (State.startSync s f) := by
  unfold State.startSync
  (repeat' (first | (with_reducible assumption) | (with_reducible apply keeps_put) | (fail_if_no_progress with_reducible apply keeps_mk)))

theorem keeps_logSync {s₀ : State} {s : State} {r : Requester} {f : Nat} (hk : Keeps s₀ s) : Keeps s₀ (State.logSync s r f) := by
  unfold State.logSync
  (repeat' (first | (with_reducible assumption) | (with_reducible apply keeps_ite) | (with_reducible apply keeps_startSync) | (with_reducible apply keeps_put)))

theorem keeps_poolOp {s₀ : State} {s : State} {op : Nat} {k : Nat} {f : Nat} (hk : Keeps s₀ s) : Keeps s₀ (State.poolOp s op k f).2 := by
  unfold State.poolOp
  (repeat' (first | (intro) | (with_reducible assumption) | (with_reducible apply keeps_when) | (with_reducible apply keeps_put) | (with_reducible apply keeps_poolTake) | (with_reducible apply keeps_poolGive) | (extract_lets -underBinder +onlyGivenNames sx; refine (have kx : Keeps s₀ sx := ?_; ?_); dsimp -zeta only [sx]; rotate_left; clear_value sx; rotate_right) | (extract_lets -underBinder +onlyGivenNames sx; clear_value sx) | (split)))
theorem keeps_poolOp_eq {s₀ : State} {s : State} {op : Nat} {k : Nat} {f : Nat} {ra rt} (he : State.poolOp s op k f = (ra, rt)) (hk : Keeps s₀ s) : Keeps s₀ rt := by
  have := keeps_poolOp (s := s) (op := op) (k := k) (f := f) hk; rw [he] at this; exact this

theorem keeps_poolCmd {s₀ : State} {s : State} {r : Requester} {op : Nat} {k : Nat} {f : Nat} (hk : Keeps s₀ s) : Keeps s₀ (State.poolCmd s r op k f) := by
  unfold State.poolCmd
  (repeat' (first | (with_reducible assumption) | (with_reducible apply keeps_ite) | (with_reducible apply keeps_poolOp) | (with_reducible apply keeps_raiseFor) | (with_reducible apply keeps_put)))

theorem keeps_execMbxSendToVf {s₀ : State} {r : Requester} {v : Fin 4096} {s : State} (hk : Keeps s₀ s) : KeepsO s₀ (execMbxSendToVf r v s) := by
  unfold execMbxSendToVf
  (repeat' (first | (with_reducible assumption) | (with_reducible apply keepsO_ok) | (with_reducible apply keeps_ite) | (with_reducible apply keeps_mbxSend)))

theorem keeps_execMbxAckByPf {s₀ : State} {r : Requester} {v : Fin 4096} {s : State} (hk : Keeps s₀ s) : KeepsO s₀ (execMbxAckByPf r v s) := by
  unfold execMbxAckByPf
  (repeat' (first | (with_reducible assumption) | (with_reducible apply keepsO_ok) | (with_reducible apply keeps_ite) | (with_reducible apply keeps_mbxAck)))

theorem keeps_writeCtx {s₀ : State} {s : State} {r : Requester} {f : Nat} {word : Nat} {v : Nat} (hk : Keeps s₀ s) : Keeps s₀ (State.writeCtx s r f word v) := by
  unfold State.writeCtx
  (repeat' (first | (intro) | (with_reducible assumption) | (with_reducible apply keeps_ite) | (with_reducible apply keeps_when) | (with_reducible apply keeps_put) | (with_reducible apply keeps_startSync) | (with_reducible apply keeps_writeWord) | (extract_lets -underBinder +onlyGivenNames sx; clear_value sx) | (split)))

theorem keeps_execMailboxWrite {s₀ : State} {r : Requester} {v : Fin 4096} {word : Fin 1024} {x : Word} {s : State} (hk : Keeps s₀ s) : KeepsO s₀ (execMailboxWrite r v word x s) := by
  unfold execMailboxWrite
  (repeat' (first | (with_reducible assumption) | (with_reducible apply keepsO_ok) | (with_reducible apply keeps_writeMailbox)))

theorem keeps_execContextWrite {s₀ : State} {r : Requester} {func : Fin 4096} {word : Fin 8} {v : Word} {s : State} (hk : Keeps s₀ s) : KeepsO s₀ (execContextWrite r func word v s) := by
  unfold execContextWrite
  (repeat' (first | (with_reducible assumption) | (with_reducible apply keepsO_ok) | (with_reducible apply keeps_writeCtx)))

theorem keeps_execInvRange {s₀ : State} {r : Requester} {func : Fin 4096} {log2 : Fin 32} {s : State} (hk : Keeps s₀ s) : KeepsO s₀ (execInvRange r func log2 s) := by
  unfold execInvRange
  (repeat' (first | (with_reducible assumption) | (with_reducible apply keepsO_ok) | (with_reducible apply keeps_invRange)))

theorem keeps_execInvDone {s₀ : State} {walks : List Walk8} {s : State} (hk : Keeps s₀ s) : KeepsO s₀ (execInvDone walks s) := by
  unfold execInvDone
  (repeat' (first | (intro) | (with_reducible assumption) | (with_reducible apply keepsO_ok) | (with_reducible apply keepsO_ite) | (with_reducible apply keeps_when) | (with_reducible apply keeps_withWalks) | (with_reducible apply keeps_dmaWrite) | (with_reducible apply keeps_trackGive) | (with_reducible apply keeps_put) | (with_reducible apply keeps_raise) | (fail_if_no_progress with_reducible apply keeps_mk)))

theorem keeps_execLogSync {s₀ : State} {r : Requester} {func : Fin 4096} {s : State} (hk : Keeps s₀ s) : KeepsO s₀ (execLogSync r func s) := by
  unfold execLogSync
  (repeat' (first | (with_reducible assumption) | (with_reducible apply keepsO_ok) | (with_reducible apply keeps_logSync)))

theorem keeps_endSync {s₀ : State} {s : State} (hk : Keeps s₀ s) : Keeps s₀ (State.endSync s) := by
  unfold State.endSync
  (repeat' (first | (intro) | (with_reducible assumption) | (with_reducible apply keeps_writeMark) | (with_reducible apply keeps_put) | (with_reducible apply keeps_raiseFor) | (fail_if_no_progress with_reducible apply keeps_mk) | (with_reducible apply keeps_foldl) | (split)))

theorem keeps_execLogSyncDone {s₀ : State} {walks : List Walk8} {s : State} (hk : Keeps s₀ s) : KeepsO s₀ (execLogSyncDone walks s) := by
  unfold execLogSyncDone
  (repeat' (first | (intro) | (with_reducible assumption) | (with_reducible apply keepsO_ok) | (with_reducible apply keeps_ite) | (with_reducible apply keeps_withWalks) | (with_reducible apply keeps_endSync)))

theorem keeps_execSetLimit {s₀ : State} {r : Requester} {kind : Fin 16} {func : Fin 4096} {s : State} (hk : Keeps s₀ s) : KeepsO s₀ (execSetLimit r kind func s) := by
  unfold execSetLimit
  (repeat' (first | (with_reducible assumption) | (with_reducible apply keepsO_ok) | (with_reducible apply keeps_poolCmd)))

theorem keeps_execPoolAssign {s₀ : State} {r : Requester} {kind : Fin 16} {func : Fin 4096} {s : State} (hk : Keeps s₀ s) : KeepsO s₀ (execPoolAssign r kind func s) := by
  unfold execPoolAssign
  (repeat' (first | (with_reducible assumption) | (with_reducible apply keepsO_ok) | (with_reducible apply keeps_poolCmd)))

theorem keeps_execPoolReclaim {s₀ : State} {r : Requester} {kind : Fin 16} {func : Fin 4096} {s : State} (hk : Keeps s₀ s) : KeepsO s₀ (execPoolReclaim r kind func s) := by
  unfold execPoolReclaim
  (repeat' (first | (with_reducible assumption) | (with_reducible apply keepsO_ok) | (with_reducible apply keeps_poolCmd)))

theorem keeps_execMbxSendToPf {s₀ : State} {v : Fin 4096} {s : State} (hk : Keeps s₀ s) : KeepsO s₀ (execMbxSendToPf v s) := by
  unfold execMbxSendToPf
  (repeat' (first | (with_reducible assumption) | (with_reducible apply keepsO_ok) | (with_reducible apply keeps_ite) | (with_reducible apply keeps_mbxSend)))

theorem keeps_execMbxAckByVf {s₀ : State} {v : Fin 4096} {s : State} (hk : Keeps s₀ s) : KeepsO s₀ (execMbxAckByVf v s) := by
  unfold execMbxAckByVf
  (repeat' (first | (with_reducible assumption) | (with_reducible apply keepsO_ok) | (with_reducible apply keeps_ite) | (with_reducible apply keeps_mbxAck)))

end Sys2Proof.Machine
end

