-- ==== Sys2Proof/Laws/KeepsAdoption.lean ====
section
/-! SUPPORT. `Keeps`, for every function of Machine/Adoption.lean. -/

set_option linter.all false
set_option simprocs false

namespace Sys2Proof.Machine

theorem keeps_resetVfWords {s₀ : State} {s : State} {v : Nat} (hk : Keeps s₀ s) : Keeps s₀ (State.resetVfWords s v) := by
  unfold State.resetVfWords
  (repeat' (first | (with_reducible assumption) | (with_reducible apply keeps_resetWords) | (with_reducible apply keeps_put)))

theorem keeps_finishFlr {s₀ : State} {s : State} {v : Nat} (hk : Keeps s₀ s) : Keeps s₀ (State.finishFlr s v) := by
  unfold State.finishFlr
  (repeat' (first | (with_reducible assumption) | (with_reducible apply keeps_dropEntries) | (with_reducible apply keeps_resetWords) | (with_reducible apply keeps_setHalf) | (with_reducible apply keeps_raiseFor) | (with_reducible apply keeps_resetConfig) | (with_reducible apply keeps_resetVfWords) | (fail_if_no_progress with_reducible apply keeps_mk)))

theorem keeps_endFlrs {s₀ : State} {s : State} (hk : Keeps s₀ s) : Keeps s₀ (State.endFlrs s) := by
  unfold State.endFlrs
  (repeat' (first | (intro) | (with_reducible assumption) | (with_reducible apply keeps_finishFlr) | (with_reducible apply keeps_foldl)))

theorem keeps_failReads {s₀ : State} {s : State} (hk : Keeps s₀ s) : Keeps s₀ (State.failReads s) := by
  unfold State.failReads
  (repeat' (first | (with_reducible assumption) | (with_reducible apply keeps_endFlrs) | (with_reducible apply keeps_bumpBy) | (with_reducible apply keeps_countTags) | (fail_if_no_progress with_reducible apply keeps_mk)))

theorem keeps_beginStandalone {s₀ : State} {s : State} {cause : Nat} (hk : Keeps s₀ s) : Keeps s₀ (State.beginStandalone s cause) := by
  unfold State.beginStandalone
  (repeat' (first | (intro) | (with_reducible assumption) | (with_reducible apply keeps_put) | (with_reducible apply keeps_bump) | (with_reducible apply keeps_hlog) | (with_reducible apply keeps_failReads) | (with_reducible apply keeps_abandonRing) | (with_reducible apply keeps_storageStandalone) | (with_reducible apply keeps_setCommands) | (with_reducible apply keeps_foldl)))

theorem keeps_enterStandalone {s₀ : State} {s : State} {cause : Nat} (hk : Keeps s₀ s) : Keeps s₀ (State.enterStandalone s cause) := by
  unfold State.enterStandalone
  (repeat' (first | (with_reducible assumption) | (with_reducible apply keeps_ite) | (with_reducible apply keeps_beginStandalone) | (with_reducible apply keeps_put)))

theorem keeps_startWatchdog {s₀ : State} {s : State} (hk : Keeps s₀ s) : Keeps s₀ (State.startWatchdog s) := by
  unfold State.startWatchdog
  (repeat' (first | (with_reducible assumption) | (fail_if_no_progress with_reducible apply keeps_mk)))

theorem keeps_adopt {s₀ : State} {s : State} {r : Requester} {session : Nat} {meets : Option Nat} (hk : Keeps s₀ s) : Keeps s₀ (State.adopt s r session meets) := by
  unfold State.adopt
  (repeat' (first | (with_reducible assumption) | (with_reducible apply keeps_ite) | (with_reducible apply keeps_enterStandalone) | (with_reducible apply keeps_bump) | (with_reducible apply keeps_beginStandalone) | (with_reducible apply keeps_startWatchdog) | (with_reducible apply keeps_raise) | (with_reducible apply keeps_hlog) | (with_reducible apply keeps_put) | (dsimp -zeta only) | (split)))

theorem keeps_enterD3 {s₀ : State} {s : State} {f : Nat} (hk : Keeps s₀ s) : Keeps s₀ (State.enterD3 s f) := by
  unfold State.enterD3
  (repeat' (first | (with_reducible assumption) | (fail_if_no_progress with_reducible apply keeps_mk)))

theorem keeps_returnD0 {s₀ : State} {s : State} {f : Nat} (hk : Keeps s₀ s) : Keeps s₀ (State.returnD0 s f) := by
  unfold State.returnD0
  (repeat' (first | (with_reducible assumption) | (with_reducible apply keeps_pumpReads) | (fail_if_no_progress with_reducible apply keeps_mk)))

theorem keeps_unmaskFunction {s₀ : State} {s : State} {f : Nat} (hk : Keeps s₀ s) : Keeps s₀ (State.unmaskFunction s f) := by
  unfold State.unmaskFunction
  (repeat' (first | (intro) | (with_reducible assumption) | (with_reducible apply keeps_ite) | (with_reducible apply keeps_sendPending) | (with_reducible apply keeps_put) | (with_reducible apply keeps_foldl)))

theorem keeps_resetFunctions {s₀ : State} {s : State} (hk : Keeps s₀ s) : Keeps s₀ (State.resetFunctions s) := by
  unfold State.resetFunctions
  (repeat' (first | (intro) | (with_reducible assumption) | (with_reducible apply keeps_resetVfWords) | (with_reducible apply keeps_resetWords) | (with_reducible apply keeps_setTagLimit) | (with_reducible apply keeps_refreshIntx) | (fail_if_no_progress with_reducible apply keeps_mk) | (with_reducible apply keeps_foldl)))

theorem keeps_vfFlr {s₀ : State} {s : State} {v : Nat} (hk : Keeps s₀ s) : Keeps s₀ (State.vfFlr s v) := by
  unfold State.vfFlr
  (repeat' (first | (intro) | (with_reducible assumption) | (with_reducible apply keeps_ite) | (with_reducible apply keeps_abandonRing) | (with_reducible apply keeps_setCommands) | (with_reducible apply keeps_endFlrs) | (fail_if_no_progress with_reducible apply keeps_mk) | (with_reducible apply keeps_foldl)))

theorem keeps_vfControl {s₀ : State} {s : State} {v : Nat} (hk : Keeps s₀ s) : Keeps s₀ (State.vfControl s v) := by
  unfold State.vfControl
  (repeat' (first | (intro) | (with_reducible assumption) | (with_reducible apply keeps_cfgPut) | (with_reducible apply keeps_vfFlr) | (with_reducible apply keeps_foldl)))

theorem keeps_configWrite {s₀ : State} {f : Nat} {off : Nat} {v : Nat} {s : State} (hk : Keeps s₀ s) : Keeps s₀ (State.configWrite f off v s) := by
  unfold State.configWrite
  (repeat' (first | (intro) | (with_reducible assumption) | (with_reducible apply keeps_ite) | (with_reducible apply keeps_when) | (with_reducible apply keeps_enterD3) | (with_reducible apply keeps_enterStandalone) | (with_reducible apply keeps_returnD0) | (with_reducible apply keeps_cfgPut) | (with_reducible apply keeps_unmaskFunction) | (with_reducible apply keeps_resetFunctions) | (with_reducible apply keeps_vfFlr) | (with_reducible apply keeps_setTagLimit) | (with_reducible apply keeps_vfControl) | (split)))

theorem keeps_linkAt {s₀ : State} {s : State} {speed : Nat} {width : Nat} {flit : Bool} {fc : FcCredits} (hk : Keeps s₀ s) : Keeps s₀ (State.linkAt s speed width flit fc) := by
  unfold State.linkAt
  (repeat' (first | (with_reducible assumption) | (with_reducible apply keeps_ite) | (with_reducible apply keeps_put) | (with_reducible apply keeps_setTagLimit) | (with_reducible apply keeps_enterStandalone) | (with_reducible apply keeps_hlog) | (with_reducible apply keeps_raise) | (fail_if_no_progress with_reducible apply keeps_mk)))

theorem keeps_linkGone {s₀ : State} {s : State} (hk : Keeps s₀ s) : Keeps s₀ (State.linkGone s) := by
  unfold State.linkGone
  (repeat' (first | (with_reducible assumption) | (with_reducible apply keeps_put) | (fail_if_no_progress with_reducible apply keeps_mk)))

theorem keeps_readEnds {s₀ : State} {s : State} {tag : Nat} (hk : Keeps s₀ s) : Keeps s₀ (State.readEnds s tag) := by
  unfold State.readEnds
  (repeat' (first | (with_reducible assumption) | (with_reducible apply keeps_endFlrs) | (with_reducible apply keeps_freeTag) | (with_reducible apply keeps_pumpReads)))

theorem keeps_readFailed {s₀ : State} {s : State} {q : ReadReq} (hk : Keeps s₀ s) : Keeps s₀ (State.readFailed s q) := by
  unfold State.readFailed
  (repeat' (first | (with_reducible assumption) | (with_reducible apply keeps_ite) | (with_reducible apply keeps_fetchFail) | (with_reducible apply keeps_ringError) | (with_reducible apply keeps_bump) | (with_reducible apply keeps_entryDone) | (with_reducible apply keeps_finishEarly) | (split)))

theorem keeps_unmaskVector {s₀ : State} {s : State} {f : Nat} {v : Nat} (hk : Keeps s₀ s) : Keeps s₀ (State.unmaskVector s f v) := by
  unfold State.unmaskVector
  (repeat' (first | (with_reducible assumption) | (with_reducible apply keeps_ite) | (with_reducible apply keeps_sendPending) | (with_reducible apply keeps_put)))

theorem keeps_wdogKick {s₀ : State} {s : State} {r : Requester} (hk : Keeps s₀ s) : Keeps s₀ (State.wdogKick s r) := by
  unfold State.wdogKick
  (repeat' (first | (with_reducible assumption) | (with_reducible apply keeps_ite) | (with_reducible apply keeps_startWatchdog)))

theorem keeps_writeWdogCfg {s₀ : State} {s : State} {r : Requester} {v : Nat} (hk : Keeps s₀ s) : Keeps s₀ (State.writeWdogCfg s r v) := by
  unfold State.writeWdogCfg
  (repeat' (first | (with_reducible assumption) | (with_reducible apply keeps_ite) | (with_reducible apply keeps_when) | (with_reducible apply keeps_writeWord) | (with_reducible apply keeps_startWatchdog)))

theorem keeps_execAdopt {s₀ : State} {r : Requester} {m : Adoption} {s : State} (hk : Keeps s₀ s) : KeepsO s₀ (execAdopt r m s) := by
  unfold execAdopt
  (repeat' (first | (with_reducible assumption) | (with_reducible apply keepsO_ok) | (with_reducible apply keeps_adopt)))

theorem keeps_execCompletionTimeout {s₀ : State} {tag : Fin 4096} {s : State} (hk : Keeps s₀ s) : KeepsO s₀ (execCompletionTimeout tag s) := by
  unfold execCompletionTimeout
  (repeat' (first | (intro) | (with_reducible assumption) | (with_reducible apply keepsO_ok) | (with_reducible apply keeps_oncePerTick) | (with_reducible apply keeps_logAer) | (with_reducible apply keeps_bump) | (with_reducible apply keeps_raise) | (with_reducible apply keeps_readEnds) | (with_reducible apply keeps_readFailed) | (split)))

theorem keeps_execLinkRetrained {s₀ : State} {speed : Fin 7} {width : Fin 17} {flit : Bool} {fc : FcCredits} {s : State} (hk : Keeps s₀ s) : KeepsO s₀ (execLinkRetrained speed width flit fc s) := by
  unfold execLinkRetrained
  (repeat' (first | (intro) | (with_reducible assumption) | (with_reducible apply keepsO_ok) | (with_reducible apply keepsO_ite) | (with_reducible apply keeps_when) | (with_reducible apply keeps_raise) | (with_reducible apply keeps_pumpReads) | (with_reducible apply keeps_linkAt)))

theorem keeps_execLinkTrained {s₀ : State} {speed : Fin 7} {width : Fin 17} {flit : Bool} {fc : FcCredits} {s : State} (hk : Keeps s₀ s) : KeepsO s₀ (execLinkTrained speed width flit fc s) := by
  unfold execLinkTrained
  (repeat' (first | (with_reducible assumption) | (with_reducible apply keepsO_ok) | (with_reducible apply keeps_ite) | (with_reducible apply keeps_linkAt)))

theorem keeps_execMsixUnmask {s₀ : State} {func : Fin 4096} {vector : Fin 2048} {whole : Bool} {s : State} (hk : Keeps s₀ s) : KeepsO s₀ (execMsixUnmask func vector whole s) := by
  unfold execMsixUnmask
  (repeat' (first | (with_reducible assumption) | (with_reducible apply keepsO_ok) | (with_reducible apply keeps_ite) | (with_reducible apply keeps_unmaskFunction) | (with_reducible apply keeps_unmaskVector)))

theorem keeps_execPerstAssert {s₀ : State} {s : State} (hk : Keeps s₀ s) : KeepsO s₀ (execPerstAssert s) := by
  unfold execPerstAssert
  (repeat' (first | (intro) | (with_reducible assumption) | (with_reducible apply keepsO_ok) | (with_reducible apply keeps_when) | (with_reducible apply keeps_resetFunctions) | (with_reducible apply keeps_linkGone) | (with_reducible apply keeps_enterStandalone) | (fail_if_no_progress with_reducible apply keeps_mk)))

theorem keeps_execPerstDeassert {s₀ : State} {s : State} (hk : Keeps s₀ s) : KeepsO s₀ (execPerstDeassert s) := by
  unfold execPerstDeassert
  (repeat' (first | (with_reducible assumption) | (with_reducible apply keepsO_ok) | (fail_if_no_progress with_reducible apply keeps_mk)))

theorem keeps_execPf0D3 {s₀ : State} {s : State} (hk : Keeps s₀ s) : KeepsO s₀ (execPf0D3 s) := by
  unfold execPf0D3
  (repeat' (first | (intro) | (with_reducible assumption) | (with_reducible apply keepsO_ok) | (with_reducible apply keeps_when) | (with_reducible apply keeps_enterD3) | (with_reducible apply keeps_enterStandalone)))

theorem keeps_execPf0Flr {s₀ : State} {s : State} (hk : Keeps s₀ s) : KeepsO s₀ (execPf0Flr s) := by
  unfold execPf0Flr
  (repeat' (first | (intro) | (with_reducible assumption) | (with_reducible apply keepsO_ok) | (with_reducible apply keeps_when) | (with_reducible apply keeps_resetFunctions) | (with_reducible apply keeps_enterStandalone)))

theorem keeps_execReadCompletion {s₀ : State} {tag : Fin 4096} {status : Fin 4} {s : State} (hk : Keeps s₀ s) : KeepsO s₀ (execReadCompletion tag status s) := by
  unfold execReadCompletion
  (repeat' (first | (intro) | (with_reducible assumption) | (with_reducible apply keepsO_ok) | (with_reducible apply keepsO_ite) | (with_reducible apply keeps_when) | (with_reducible apply keeps_readEnds) | (with_reducible apply keeps_bump) | (with_reducible apply keeps_logAer) | (with_reducible apply keeps_readFailed) | (split)))

theorem keeps_execReturnToD0 {s₀ : State} {v : Fin 4096} {s : State} (hk : Keeps s₀ s) : KeepsO s₀ (execReturnToD0 v s) := by
  unfold execReturnToD0
  (repeat' (first | (with_reducible assumption) | (with_reducible apply keepsO_ok) | (with_reducible apply keeps_returnD0)))

theorem keeps_execVfD3 {s₀ : State} {v : Fin 4096} {s : State} (hk : Keeps s₀ s) : KeepsO s₀ (execVfD3 v s) := by
  unfold execVfD3
  (repeat' (first | (intro) | (with_reducible assumption) | (with_reducible apply keepsO_ok) | (with_reducible apply keeps_when) | (with_reducible apply keeps_enterD3)))

theorem keeps_execVfEnableClear {s₀ : State} {control : Word} {s : State} (hk : Keeps s₀ s) : KeepsO s₀ (execVfEnableClear control s) := by
  unfold execVfEnableClear
  (repeat' (first | (intro) | (with_reducible assumption) | (with_reducible apply keepsO_ok) | (with_reducible apply keeps_when) | (with_reducible apply keeps_vfControl)))

theorem keeps_execVfFlr {s₀ : State} {v : Fin 4096} {s : State} (hk : Keeps s₀ s) : KeepsO s₀ (execVfFlr v s) := by
  unfold execVfFlr
  (repeat' (first | (intro) | (with_reducible assumption) | (with_reducible apply keepsO_ok) | (with_reducible apply keeps_when) | (with_reducible apply keeps_vfFlr)))

theorem keeps_execWatchdogExpiry {s₀ : State} {offset : Nat} {s : State} (hk : Keeps s₀ s) : KeepsO s₀ (execWatchdogExpiry offset s) := by
  unfold execWatchdogExpiry
  (repeat' (first | (with_reducible assumption) | (with_reducible apply keepsO_ok) | (with_reducible apply keeps_ite) | (with_reducible apply keeps_moment) | (with_reducible apply keeps_enterStandalone)))

theorem keeps_execWdogKick {s₀ : State} {r : Requester} {offset : Nat} {s : State} (hk : Keeps s₀ s) : KeepsO s₀ (execWdogKick r offset s) := by
  unfold execWdogKick
  (repeat' (first | (with_reducible assumption) | (with_reducible apply keepsO_ok) | (with_reducible apply keeps_wdogKick) | (with_reducible apply keeps_moment)))

end Sys2Proof.Machine
end

