-- ==== Sys2Proof/Laws/KeepsBoot.lean ====
section
/-! SUPPORT. `Keeps`, for every function of Machine/Boot.lean. -/

set_option linter.all false
set_option simprocs false

namespace Sys2Proof.Machine

theorem keeps_acceptSlot {s₀ : State} {s : State} {slot : Nat} (hk : Keeps s₀ s) : Keeps s₀ (State.acceptSlot s slot) := by
  unfold State.acceptSlot
  (repeat' (first | (with_reducible assumption) | (with_reducible apply keeps_put) | (fail_if_no_progress with_reducible apply keeps_mk_sup)))

theorem keeps_clearSkips {s₀ : State} {s : State} (hk : Keeps s₀ s) : Keeps s₀ (State.clearSkips s) := by
  unfold State.clearSkips
  (repeat' (first | (with_reducible assumption) | (with_reducible apply keeps_put)))

theorem keeps_coldKeep {s₀ : State} {s : State} (hk : Keeps s₀ s) : Keeps s₀ (State.coldKeep s) := by
  refine hk.trans ⟨rfl, fun h => ?_, List.suffix_refl _, Nat.le_refl _, rfl, rfl, fun _ => rfl, Nat.le_refl _⟩
  simp only [State.canon, Bool.and_eq_true] at h ⊢
  exact ⟨Sparse.wf_filter _ h.1, h.2⟩

theorem keeps_derivePublic {s₀ : State} {s : State} (hk : Keeps s₀ s) : Keeps s₀ (State.derivePublic s) := by
  unfold State.derivePublic
  (repeat' (first | (intro) | (with_reducible assumption) | (with_reducible apply keeps_wr) | (with_reducible apply keeps_foldl)))

theorem keeps_freeBytes {s₀ : State} {s : State} {a1 : Nat} (hk : Keeps s₀ s) : Keeps s₀ (State.freeBytes s a1).2 := by
  induction a1 generalizing s with
  | zero => unfold State.freeBytes; (repeat' (first | (with_reducible assumption) | (with_reducible apply keeps_takeFree)))
  | succ n ih => unfold State.freeBytes; (repeat' (first | (with_reducible apply ih) | (with_reducible refine keeps_pair (ih ?_) (by with_reducible assumption)) | (with_reducible assumption) | (with_reducible apply keeps_takeFree)))
theorem keeps_freeBytes_eq {s₀ : State} {s : State} {a1 : Nat} {ra rt} (he : State.freeBytes s a1 = (ra, rt)) (hk : Keeps s₀ s) : Keeps s₀ rt := by
  have := keeps_freeBytes (s := s) (a1 := a1) hk; rw [he] at this; exact this

theorem keeps_flashPut {s₀ : State} {s : State} {a : Nat} {l : Bytes} (hk : Keeps s₀ s) : Keeps s₀ (State.flashPut s a l) := by
  refine keeps_flash hk (fun h => ?_) rfl
  generalize s.sup.flash = fl at h
  induction l generalizing a fl with
  | nil => exact h
  | cons b l ih => exact ih _ (Sparse.wf_set h)

theorem keeps_flashSpoil {s₀ : State} {s : State} {op : Nat} {a : Nat} (hk : Keeps s₀ s) : Keeps s₀ (State.flashSpoil s op a) := by
  unfold State.flashSpoil
  (repeat' (first | (with_reducible assumption) | (with_reducible apply keeps_freeBytes) | (with_reducible apply keeps_flashPut)))

theorem keeps_hold {s₀ : State} {s : State} (hk : Keeps s₀ s) : Keeps s₀ (State.hold s) := by
  unfold State.hold
  (repeat' (first | (with_reducible assumption) | (with_reducible apply keeps_ite) | (with_reducible apply keeps_coldKeep) | (with_reducible apply keeps_flashSpoil) | (split)))

theorem keeps_coldReset {s₀ : State} {s : State} {cause : Nat} (hk : Keeps s₀ s) : Keeps s₀ (State.coldReset s cause) := by
  unfold State.coldReset
  (repeat' (first | (with_reducible assumption) | (with_reducible apply keeps_derivePublic) | (with_reducible apply keeps_hold) | (with_reducible apply keeps_put) | (with_reducible apply keeps_wr)))

theorem keeps_lockPll {s₀ : State} {s : State} {k : Nat} (hk : Keeps s₀ s) : Keeps s₀ (State.lockPll s k) := by
  unfold State.lockPll
  (repeat' (first | (with_reducible assumption) | (with_reducible apply keeps_put)))

theorem keeps_enterRecovery {s₀ : State} {s : State} (hk : Keeps s₀ s) : Keeps s₀ (State.enterRecovery s) := by
  unfold State.enterRecovery
  (repeat' (first | (with_reducible assumption) | (with_reducible apply keeps_lockPll) | (with_reducible apply keeps_powerUnit) | (with_reducible apply keeps_clearSkips) | (with_reducible apply keeps_put)))

theorem keeps_flashStart {s₀ : State} {s : State} {op : Nat} (hk : Keeps s₀ s) : Keeps s₀ (State.flashStart s op) := by
  unfold State.flashStart
  (repeat' (first | (with_reducible assumption) | (with_reducible apply keeps_ite) | (with_reducible apply keeps_put) | (fail_if_no_progress with_reducible apply keeps_mk_sup)))

theorem keeps_fuseRefused {s₀ : State} {s : State} {op : Nat} (hk : Keeps s₀ s) : Keeps s₀ (State.fuseRefused s op) := by
  unfold State.fuseRefused
  (repeat' (first | (with_reducible assumption) | (with_reducible apply keeps_hlog)))

theorem keeps_fuseKey {s₀ : State} {s : State} {slot : Nat} (hk : Keeps s₀ s) : Keeps s₀ (State.fuseKey s slot) := by
  unfold State.fuseKey
  split
  · rename_i h
    refine keeps_put (hk.trans ⟨rfl, id, List.suffix_refl _, Nat.le_refl _, rfl, rfl, fun g => ?_, Nat.le_refl _⟩)
    cases ho : s.sup.otpKey <;> simp_all
  · exact keeps_hlog hk

theorem keeps_refuseSlot {s₀ : State} {s : State} {slot : Nat} {code : Nat} (hk : Keeps s₀ s) : Keeps s₀ (State.refuseSlot s slot code) := by
  unfold State.refuseSlot
  (repeat' (first | (with_reducible assumption) | (with_reducible apply keeps_hlog) | (with_reducible apply keeps_put) | (fail_if_no_progress with_reducible apply keeps_mk_sup)))

theorem keeps_senseOtp {s₀ : State} {s : State} (hk : Keeps s₀ s) : Keeps s₀ (State.senseOtp s) := by
  unfold State.senseOtp
  (repeat' (first | (with_reducible assumption) | (with_reducible apply keeps_put)))

theorem keeps_slotRetry {s₀ : State} {s : State} {code : Nat} (hk : Keeps s₀ s) : Keeps s₀ (State.slotRetry s code) := by
  unfold State.slotRetry
  (repeat' (first | (with_reducible assumption) | (with_reducible apply keeps_put) | (with_reducible apply keeps_coldReset) | (with_reducible apply keeps_refuseSlot) | (split)))

theorem keeps_execErase64k {s₀ : State} {s : State} (hk : Keeps s₀ s) : KeepsO s₀ (execErase64k s) := by
  unfold execErase64k
  (repeat' (first | (with_reducible assumption) | (with_reducible apply keepsO_ok) | (with_reducible apply keeps_flashStart)))

theorem keeps_execFirmwareLoad {s₀ : State} {found : FirmwareFound} {s : State} (hk : Keeps s₀ s) : KeepsO s₀ (execFirmwareLoad found s) := by
  unfold execFirmwareLoad
  (repeat' (first | (with_reducible assumption) | (with_reducible apply keepsO_ok) | (with_reducible apply keepsO_ite) | (with_reducible apply keeps_slotRetry) | (fail_if_no_progress with_reducible apply keeps_mk_sup) | (split)))

theorem keeps_execFlashDone {s₀ : State} {deviceOk : Bool} {s : State} (hk : Keeps s₀ s) : KeepsO s₀ (execFlashDone deviceOk s) := by
  unfold execFlashDone
  (repeat' (first | (intro) | (with_reducible assumption) | (with_reducible apply keepsO_ok) | (with_reducible apply keeps_ite) | (with_reducible apply keeps_when) | (with_reducible apply keeps_wrWords) | (with_reducible apply keeps_flashPut) | (with_reducible apply keeps_freeBytes) | (with_reducible apply keeps_flashSpoil) | (with_reducible apply keeps_put) | (with_reducible apply keeps_raise) | (fail_if_no_progress with_reducible apply keeps_mk_sup) | (dsimp -zeta only) | (split)))

theorem keeps_execFuseKeyHashA {s₀ : State} {s : State} (hk : Keeps s₀ s) : KeepsO s₀ (execFuseKeyHashA s) := by
  unfold execFuseKeyHashA
  (repeat' (first | (intro) | (with_reducible assumption) | (with_reducible apply keepsO_ok) | (with_reducible apply keeps_when) | (with_reducible apply keeps_fuseKey)))

theorem keeps_execFuseKeyHashB {s₀ : State} {s : State} (hk : Keeps s₀ s) : KeepsO s₀ (execFuseKeyHashB s) := by
  unfold execFuseKeyHashB
  (repeat' (first | (intro) | (with_reducible assumption) | (with_reducible apply keepsO_ok) | (with_reducible apply keeps_when) | (with_reducible apply keeps_fuseKey)))

theorem keeps_execHbmFillStart {s₀ : State} {overflow : List (Fin 64)} {s : State} (hk : Keeps s₀ s) : KeepsO s₀ (execHbmFillStart overflow s) := by
  unfold execHbmFillStart
  (repeat' (first | (with_reducible assumption) | (with_reducible apply keepsO_ok) | (with_reducible apply keepsO_ite) | (with_reducible apply keeps_lockPll) | (with_reducible apply keeps_setPower) | (fail_if_no_progress with_reducible apply keeps_mk_sup)))

theorem keeps_execHbmRegionFilled {s₀ : State} {s : State} (hk : Keeps s₀ s) : KeepsO s₀ (execHbmRegionFilled s) := by
  unfold execHbmRegionFilled
  (repeat' (first | (with_reducible assumption) | (with_reducible apply keepsO_ok) | (with_reducible apply keeps_put) | (fail_if_no_progress with_reducible apply keeps_mk_sup) | (split)))

theorem keeps_execPorNAssert {s₀ : State} {s : State} (hk : Keeps s₀ s) : KeepsO s₀ (execPorNAssert s) := by
  unfold execPorNAssert
  (repeat' (first | (with_reducible assumption) | (with_reducible apply keepsO_ok) | (with_reducible apply keeps_hold) | (fail_if_no_progress with_reducible apply keeps_mk_sup)))

theorem keeps_execPorNRelease {s₀ : State} {s : State} (hk : Keeps s₀ s) : KeepsO s₀ (execPorNRelease s) := by
  unfold execPorNRelease
  (repeat' (first | (with_reducible assumption) | (with_reducible apply keepsO_ok) | (with_reducible apply keeps_coldReset) | (fail_if_no_progress with_reducible apply keeps_mk_sup)))

theorem keeps_execProgram256 {s₀ : State} {s : State} (hk : Keeps s₀ s) : KeepsO s₀ (execProgram256 s) := by
  unfold execProgram256
  (repeat' (first | (with_reducible assumption) | (with_reducible apply keepsO_ok) | (with_reducible apply keeps_flashStart)))

theorem keeps_execRailMonitorTrip {s₀ : State} {s : State} (hk : Keeps s₀ s) : KeepsO s₀ (execRailMonitorTrip s) := by
  unfold execRailMonitorTrip
  (repeat' (first | (with_reducible assumption) | (with_reducible apply keepsO_ok) | (with_reducible apply keeps_hold) | (fail_if_no_progress with_reducible apply keeps_mk_sup)))

theorem keeps_execRailsRestored {s₀ : State} {s : State} (hk : Keeps s₀ s) : KeepsO s₀ (execRailsRestored s) := by
  unfold execRailsRestored
  (repeat' (first | (with_reducible assumption) | (with_reducible apply keepsO_ok) | (with_reducible apply keeps_ite) | (with_reducible apply keepsO_ite) | (with_reducible apply keeps_coldReset) | (fail_if_no_progress with_reducible apply keeps_mk_sup)))

theorem keeps_execRead256 {s₀ : State} {s : State} (hk : Keeps s₀ s) : KeepsO s₀ (execRead256 s) := by
  unfold execRead256
  (repeat' (first | (with_reducible assumption) | (with_reducible apply keepsO_ok) | (with_reducible apply keeps_flashStart)))

theorem keeps_execSelectSlot {s₀ : State} {readFailA : Bool} {readFailB : Bool} {s : State} (hk : Keeps s₀ s) : KeepsO s₀ (execSelectSlot readFailA readFailB s) := by
  unfold execSelectSlot
  (repeat' (first | (with_reducible assumption) | (with_reducible apply keepsO_ok) | (with_reducible apply keepsO_ite) | (with_reducible apply keeps_put) | (with_reducible apply keeps_enterRecovery) | (with_reducible apply keeps_acceptSlot) | (with_reducible apply keeps_refuseSlot)))

theorem keeps_execSramInitDone {s₀ : State} {s : State} (hk : Keeps s₀ s) : KeepsO s₀ (execSramInitDone s) := by
  unfold execSramInitDone
  (repeat' (first | (with_reducible assumption) | (with_reducible apply keepsO_ok) | (with_reducible apply keepsO_ite) | (with_reducible apply keeps_lockPll) | (with_reducible apply keeps_put) | (fail_if_no_progress with_reducible apply keeps_mk_sup)))

theorem keeps_execVauxApply {s₀ : State} {otpOk : Bool} {s : State} (hk : Keeps s₀ s) : KeepsO s₀ (execVauxApply otpOk s) := by
  unfold execVauxApply
  apply keepsO_ok
  dsimp only
  refine keeps_wr (keeps_wr (keeps_senseOtp ?_))
  refine (keeps_coldKeep hk).trans ⟨rfl, fun h => ?_, List.suffix_refl _, Nat.le_refl _, rfl, rfl, fun _ => rfl, Nat.le_refl _⟩
  simp only [State.canon, Bool.and_eq_true] at h ⊢
  exact ⟨rfl, h.2⟩

theorem keeps_execVauxLoss {s₀ : State} {s : State} (hk : Keeps s₀ s) : KeepsO s₀ (execVauxLoss s) := by
  unfold execVauxLoss
  (repeat' (first | (with_reducible assumption) | (with_reducible apply keepsO_ok) | (with_reducible apply keeps_resetWords) | (fail_if_no_progress with_reducible apply keeps_mk_sup)))

end Sys2Proof.Machine
end

