-- ==== Sys2Proof/Laws/KeepsGuard.lean ====
section
/-! SUPPORT. `Keeps`, for every function of Machine/Guard.lean. -/

set_option linter.all false
set_option simprocs false

namespace Sys2Proof.Machine

theorem keeps_acceptLimit {s₀ : State} {s : State} {key : Nat} {v : Nat} {tick : Nat} (hk : Keeps s₀ s) : Keeps s₀ (State.acceptLimit s key v tick) := by
  unfold State.acceptLimit
  (repeat' (first | (with_reducible assumption) | (fail_if_no_progress with_reducible apply keeps_mk)))

theorem keeps_writeLimit {s₀ : State} {s : State} {r : Requester} {p : Nat} {which : Nat} {v : Nat} (hk : Keeps s₀ s) : Keeps s₀ (State.writeLimit s r p which v) := by
  unfold State.writeLimit
  (repeat' (first | (intro) | (with_reducible assumption) | (with_reducible apply keeps_ite) | (with_reducible apply keeps_when) | (with_reducible apply keeps_sealWrite) | (with_reducible apply keeps_raise) | (with_reducible apply keeps_hlog) | (with_reducible apply keeps_bump) | (with_reducible apply keeps_localOnly) | (with_reducible apply keeps_put) | (with_reducible apply keeps_carry) | (with_reducible apply keeps_acceptLimit)))

theorem keeps_scheduleRearm {s₀ : State} {s : State} {f : Nat} {mask : Nat} {tick : Nat} (hk : Keeps s₀ s) : Keeps s₀ (State.scheduleRearm s f mask tick) := by
  unfold State.scheduleRearm
  (repeat' (first | (with_reducible assumption) | (fail_if_no_progress with_reducible apply keeps_mk)))

theorem keeps_rearmCmd {s₀ : State} {s : State} {r : Requester} {f : Nat} (hk : Keeps s₀ s) : Keeps s₀ (State.rearmCmd s r f) := by
  unfold State.rearmCmd
  (repeat' (first | (intro) | (with_reducible assumption) | (with_reducible apply keeps_ite) | (with_reducible apply keeps_localOnly) | (with_reducible apply keeps_put) | (with_reducible apply keeps_carry) | (with_reducible apply keeps_scheduleRearm) | (with_reducible apply keeps_raise)))

theorem keeps_guardQueryCmd {s₀ : State} {s : State} {r : Requester} {f : Nat} (hk : Keeps s₀ s) : Keeps s₀ (State.guardQueryCmd s r f) := by
  unfold State.guardQueryCmd
  (repeat' (first | (with_reducible assumption) | (with_reducible apply keeps_ite) | (with_reducible apply keeps_put)))

theorem keeps_setGuard {s₀ : State} {s : State} {f : Nat} {l : List GuardChannel} (hk : Keeps s₀ s) : Keeps s₀ (State.setGuard s f l) := by
  unfold State.setGuard
  (repeat' (first | (with_reducible assumption) | (fail_if_no_progress with_reducible apply keeps_mk)))

theorem keeps_guardTrips {s₀ : State} {s : State} {f : Nat} {channels : List Nat} {checks : Nat} (hk : Keeps s₀ s) : Keeps s₀ (State.guardTrips s f channels checks) := by
  unfold State.guardTrips
  (repeat' (first | (intro) | (with_reducible assumption) | (with_reducible apply keeps_ite) | (with_reducible apply keeps_when) | (with_reducible apply keeps_bumpBy) | (with_reducible apply keeps_raise) | (with_reducible apply keeps_oncePerTick) | (fail_if_no_progress with_reducible apply keeps_mk)))

theorem keeps_guardTick {s₀ : State} {s : State} {f : Nat} {m : Nat} {samples : Option (List (List Nat))} (hk : Keeps s₀ s) : Keeps s₀ (State.guardTick s f m samples) := by
  unfold State.guardTick
  (repeat' (first | (with_reducible assumption) | (with_reducible apply keeps_setGuard) | (with_reducible apply keeps_guardTrips) | (fail_if_no_progress with_reducible apply keeps_mk)))

theorem keeps_guardDisagree {s₀ : State} {s : State} {f : Nat} {l : List Nat} (hk : Keeps s₀ s) : Keeps s₀ (State.guardDisagree s f l) := by
  unfold State.guardDisagree
  (repeat' (first | (with_reducible assumption) | (with_reducible apply keeps_ite) | (with_reducible apply keeps_setGuard) | (with_reducible apply keeps_guardTrips) | (with_reducible apply keeps_raise) | (with_reducible apply keeps_bumpBy)))

theorem keeps_guardFail {s₀ : State} {s : State} {code : Nat} (hk : Keeps s₀ s) : Keeps s₀ (State.guardFail s code) := by
  unfold State.guardFail
  (repeat' (first | (intro) | (with_reducible assumption) | (with_reducible apply keeps_ite) | (with_reducible apply keeps_raise) | (with_reducible apply keeps_fault) | (with_reducible apply keeps_put) | (with_reducible apply keeps_setGuard) | (fail_if_no_progress with_reducible apply keeps_mk) | (with_reducible apply keeps_foldl)))

theorem keeps_guardExchange {s₀ : State} {s : State} {m : Nat} {found : List (Nat × Nat)} (hk : Keeps s₀ s) : Keeps s₀ (State.guardExchange s m found) := by
  unfold State.guardExchange
  (repeat' (first | (intro) | (with_reducible assumption) | (with_reducible apply keeps_ite) | (with_reducible apply keeps_guardTick) | (with_reducible apply keeps_guardDisagree) | (with_reducible apply keeps_guardFail) | (fail_if_no_progress with_reducible apply keeps_mk) | (with_reducible apply keeps_foldl)))

theorem keeps_rampUp {s₀ : State} {s : State} {f : Nat} {ok : Nat → GuardChannel → Bool} (hk : Keeps s₀ s) : Keeps s₀ (State.rampUp s f ok) := by
  unfold State.rampUp
  (repeat' (first | (with_reducible assumption) | (with_reducible apply keeps_ite) | (with_reducible apply keeps_raise) | (with_reducible apply keeps_setGuard)))

theorem keeps_execAutoRearm {s₀ : State} {flow : Fin 65536} {s : State} (hk : Keeps s₀ s) : KeepsO s₀ (execAutoRearm flow s) := by
  unfold execAutoRearm
  (repeat' (first | (with_reducible assumption) | (with_reducible apply keepsO_ok) | (with_reducible apply keepsO_ite) | (with_reducible apply keeps_rampUp)))

theorem keeps_execRearm {s₀ : State} {r : Requester} {flow : Fin 65536} {s : State} (hk : Keeps s₀ s) : KeepsO s₀ (execRearm r flow s) := by
  unfold execRearm
  (repeat' (first | (with_reducible assumption) | (with_reducible apply keepsO_ok) | (with_reducible apply keeps_rearmCmd)))

theorem keeps_execRearmEffective {s₀ : State} {flow : Fin 65536} {s : State} (hk : Keeps s₀ s) : KeepsO s₀ (execRearmEffective flow s) := by
  unfold execRearmEffective
  (repeat' (first | (with_reducible assumption) | (with_reducible apply keepsO_ok) | (with_reducible apply keeps_ite) | (with_reducible apply keeps_rampUp) | (fail_if_no_progress with_reducible apply keeps_mk)))

theorem keeps_execGuardQuery {s₀ : State} {r : Requester} {flow : Fin 65536} {s : State} (hk : Keeps s₀ s) : KeepsO s₀ (execGuardQuery r flow s) := by
  unfold execGuardQuery
  (repeat' (first | (with_reducible assumption) | (with_reducible apply keepsO_ok) | (with_reducible apply keeps_guardQueryCmd)))

theorem keeps_execLimitWrite {s₀ : State} {r : Requester} {profile : Fin 64} {which : Fin 3} {v : Word} {s : State} (hk : Keeps s₀ s) : KeepsO s₀ (execLimitWrite r profile which v s) := by
  unfold execLimitWrite
  (repeat' (first | (with_reducible assumption) | (with_reducible apply keepsO_ok) | (with_reducible apply keeps_writeLimit)))

theorem keeps_execLimitLowered {s₀ : State} {profile : Fin 64} {which : Fin 3} {s : State} (hk : Keeps s₀ s) : KeepsO s₀ (execLimitLowered profile which s) := by
  unfold execLimitLowered
  (repeat' (first | (intro) | (with_reducible assumption) | (with_reducible apply keepsO_ok) | (with_reducible apply keeps_when) | (with_reducible apply keeps_put) | (with_reducible apply keeps_raise) | (fail_if_no_progress with_reducible apply keeps_mk) | (extract_lets -underBinder +onlyGivenNames sx; clear_value sx) | (split)))

end Sys2Proof.Machine
end

