-- ==== Sys2Proof/Laws/KeepsHedgePath.lean ====
section
/-! SUPPORT. `Keeps`, for every function of Machine/HedgePath.lean. -/

set_option linter.all false
set_option simprocs false

namespace Sys2Proof.Machine

theorem keeps_noteDigest {s₀ : State} {s : State} {f : Nat} {m : Nat} {heldIn : Bool} (hk : Keeps s₀ s) : Keeps s₀ (State.noteDigest s f m heldIn) := by
  unfold State.noteDigest
  (repeat' (first | (with_reducible assumption) | (with_reducible apply keeps_ite) | (fail_if_no_progress with_reducible apply keeps_mk)))

theorem keeps_digestPacket {s₀ : State} {s : State} {f : Nat} {m : Nat} {heldIn : Bool} {notSent : Bool} {l : Bytes} (hk : Keeps s₀ s) : Keeps s₀ (State.digestPacket s f m heldIn notSent l) := by
  unfold State.digestPacket
  (repeat' (first | (with_reducible assumption) | (with_reducible apply keeps_ite) | (fail_if_no_progress with_reducible apply keeps_mk)))

theorem keeps_retake {s₀ : State} {s : State} {x : TxMedia} {toRing : Bool} {target : Nat} {samples : Bytes} {vals : List Nat} (hk : Keeps s₀ s) : Keeps s₀ (State.retake s x toRing target samples vals) := by
  unfold State.retake
  (repeat' (first | (with_reducible assumption) | (fail_if_no_progress with_reducible apply keeps_mk)))

theorem keeps_tap {s₀ : State} {s : State} {t : Tap} (hk : Keeps s₀ s) : Keeps s₀ (State.tap s t) := by
  unfold State.tap
  (repeat' (first | (with_reducible assumption) | (with_reducible apply keeps_ite) | (fail_if_no_progress with_reducible apply keeps_mk)))

theorem keeps_keepBacklog {s₀ : State} {s : State} {p : BacklogPkt} (hk : Keeps s₀ s) : Keeps s₀ (State.keepBacklog s p) := by
  unfold State.keepBacklog
  (repeat' (first | (with_reducible assumption) | (with_reducible apply keeps_ite) | (fail_if_no_progress with_reducible apply keeps_mk)))

theorem keeps_takeFallbackEpoch {s₀ : State} {s : State} (hk : Keeps s₀ s) : Keeps s₀ (State.takeFallbackEpoch s) := by
  unfold State.takeFallbackEpoch
  (repeat' (first | (with_reducible assumption) | (with_reducible apply keeps_ite) | (with_reducible apply keeps_put) | (with_reducible apply keeps_keepEpoch) | (fail_if_no_progress with_reducible apply keeps_mk)))

end Sys2Proof.Machine
end

