-- ==== Sys2Proof/Laws/KeepsRewrite.lean ====
section
/-! SUPPORT. `Keeps`, for every function of Machine/Rewrite.lean. -/

set_option linter.all false
set_option simprocs false

namespace Sys2Proof.Machine

theorem keeps_takeIdent {s₀ : State} {s : State} {g : Nat} (hk : Keeps s₀ s) : Keeps s₀ (State.takeIdent s g).2 := by
  unfold State.takeIdent
  (repeat' (first | (with_reducible assumption) | (fail_if_no_progress with_reducible apply keeps_mk) | (extract_lets -underBinder +onlyGivenNames sx; clear_value sx) | (split)))
theorem keeps_takeIdent_eq {s₀ : State} {s : State} {g : Nat} {ra rt} (he : State.takeIdent s g = (ra, rt)) (hk : Keeps s₀ s) : Keeps s₀ rt := by
  have := keeps_takeIdent (s := s) (g := g) hk; rw [he] at this; exact this

theorem keeps_capture {s₀ : State} {s : State} {p : Nat} {g : Nat} {l : Bytes} (hk : Keeps s₀ s) : Keeps s₀ (State.capture s p g l).2 := by
  unfold State.capture
  (repeat' (first | (with_reducible assumption) | (with_reducible apply keeps_espCapture_eq (by assumption)) | (with_reducible apply keeps_macCapture_eq (by assumption)) | (extract_lets -underBinder +onlyGivenNames sx; clear_value sx) | (dsimp -zeta only) | (split)))
theorem keeps_capture_eq {s₀ : State} {s : State} {p : Nat} {g : Nat} {l : Bytes} {ra rt} (he : State.capture s p g l = (ra, rt)) (hk : Keeps s₀ s) : Keeps s₀ rt := by
  have := keeps_capture (s := s) (p := p) (g := g) (l := l) hk; rw [he] at this; exact this

theorem keeps_portFrame {s₀ : State} {s : State} {p : Nat} {g : Nat} {tc : Option Nat} {last : Option Nat} {l : Bytes} (hk : Keeps s₀ s) : Keeps s₀ (State.portFrame s p g tc last l).2 := by
  unfold State.portFrame
  (repeat' (first | (with_reducible assumption) | (with_reducible apply keeps_capture_eq (by assumption)) | (with_reducible apply keeps_bump) | (split)))
theorem keeps_portFrame_eq {s₀ : State} {s : State} {p : Nat} {g : Nat} {tc : Option Nat} {last : Option Nat} {l : Bytes} {ra rt} (he : State.portFrame s p g tc last l = (ra, rt)) (hk : Keeps s₀ s) : Keeps s₀ rt := by
  have := keeps_portFrame (s := s) (p := p) (g := g) (tc := tc) (last := last) (l := l) hk; rw [he] at this; exact this

end Sys2Proof.Machine
end

