-- ==== Sys2Proof/Laws/KeepsEgress.lean ====
section
/-! SUPPORT. `Keeps`, for every function of Machine/Egress.lean. -/

set_option linter.all false
set_option simprocs false

namespace Sys2Proof.Machine

theorem keeps_stampPtp {s₀ : State} {s : State} {p : Nat} {kind : PtpKind} (hk : Keeps s₀ s) : Keeps s₀ (State.stampPtp s p kind) := by
  unfold State.stampPtp
  (repeat' (first | (with_reducible assumption) | (with_reducible apply keeps_stampNow) | (fail_if_no_progress with_reducible apply keeps_mk) | (dsimp -zeta only) | (split)))

theorem keeps_execPtpMessageSend {s₀ : State} {port : Fin 32} {kind : PtpKind} {s : State} (hk : Keeps s₀ s) : KeepsO s₀ (execPtpMessageSend port kind s) := by
  unfold execPtpMessageSend
  (repeat' (first | (with_reducible assumption) | (with_reducible apply keepsO_ok) | (with_reducible apply keepsO_ite) | (with_reducible apply keeps_macsecOut_eq (by assumption)) | (with_reducible apply keeps_emit) | (with_reducible apply keeps_stampPtp) | (with_reducible apply keeps_statCast) | (with_reducible apply keeps_stat) | (extract_lets -underBinder +onlyGivenNames sx; clear_value sx) | (split)))

theorem keeps_advGrant {s₀ : State} {s : State} {first : Bool} {p : Nat} {ds : List Nat} (hk : Keeps s₀ s) : Keeps s₀ (State.advGrant s first p ds) := by
  unfold State.advGrant
  (repeat' (first | (with_reducible assumption) | (with_reducible apply keeps_ite) | (fail_if_no_progress with_reducible apply keeps_mk)))

theorem keeps_accept {s₀ : State} {s : State} {first : Bool} {m : List Match} {p : Nat} {k : Bool} {mine : List Nat} (hk : Keeps s₀ s) : Keeps s₀ (State.accept s first m p k mine).2 := by
  unfold State.accept
  (repeat' (first | (with_reducible assumption) | (with_reducible apply keeps_ite) | (with_reducible apply keeps_advGrant) | (fail_if_no_progress with_reducible apply keeps_mk) | (extract_lets -underBinder +onlyGivenNames sx; clear_value sx) | (split)))
theorem keeps_accept_eq {s₀ : State} {s : State} {first : Bool} {m : List Match} {p : Nat} {k : Bool} {mine : List Nat} {ra rt} (he : State.accept s first m p k mine = (ra, rt)) (hk : Keeps s₀ s) : Keeps s₀ rt := by
  have := keeps_accept (s := s) (first := first) (m := m) (p := p) (k := k) (mine := mine) hk; rw [he] at this; exact this

theorem keeps_iterate {s₀ : State} {s : State} {first : Bool} {m : List Match} (hk : Keeps s₀ s) : Keeps s₀ (State.iterate s first m).2 := by
  unfold State.iterate
  (repeat' (first | (intro) | (with_reducible assumption) | (with_reducible apply keeps_accept) | (with_reducible apply keeps_foldl_snd)))
theorem keeps_iterate_eq {s₀ : State} {s : State} {first : Bool} {m : List Match} {ra rt} (he : State.iterate s first m = (ra, rt)) (hk : Keeps s₀ s) : Keeps s₀ rt := by
  have := keeps_iterate (s := s) (first := first) (m := m) hk; rw [he] at this; exact this

theorem keeps_police {s₀ : State} {s : State} {k : Nat} {f : Frame} {tc : Nat} (hk : Keeps s₀ s) : Keeps s₀ (State.police s k f tc).2.2 := by
  unfold State.police
  (repeat' (first | (with_reducible assumption) | (with_reducible apply keeps_bump) | (with_reducible apply keeps_setLevel) | (extract_lets -underBinder +onlyGivenNames sx; clear_value sx) | (dsimp -zeta only) | (split)))

theorem keeps_joinQueue {s₀ : State} {s : State} {q : Queued} (hk : Keeps s₀ s) : Keeps s₀ (State.joinQueue s q) := by
  unfold State.joinQueue
  (repeat' (first | (with_reducible assumption) | (with_reducible apply keeps_newHead) | (fail_if_no_progress with_reducible apply keeps_mk)))

theorem keeps_joinEgress {s₀ : State} {s : State} {h : Nat} {p : Nat} {d : FrameDest} (hk : Keeps s₀ s) : Keeps s₀ (State.joinEgress s h p d) := by
  unfold State.joinEgress
  (repeat' (first | (with_reducible assumption) | (with_reducible apply keeps_ite) | (with_reducible apply keeps_settle) | (with_reducible apply keeps_releaseCopy) | (with_reducible apply keeps_bump) | (with_reducible apply keeps_police) | (with_reducible apply keeps_payDebt) | (with_reducible apply keeps_joinQueue) | (fail_if_no_progress with_reducible apply keeps_mk) | (dsimp -zeta only) | (split)))

theorem keeps_trap {s₀ : State} {s : State} {f : Frame} (hk : Keeps s₀ s) : Keeps s₀ (State.trap s f) := by
  unfold State.trap
  (repeat' (first | (intro) | (with_reducible assumption) | (with_reducible apply keeps_when) | (with_reducible apply keeps_emit)))

theorem keeps_trapCapped {s₀ : State} {s : State} {f : Frame} (hk : Keeps s₀ s) : Keeps s₀ (State.trapCapped s f) := by
  unfold State.trapCapped
  (repeat' (first | (intro) | (with_reducible assumption) | (with_reducible apply keeps_ite) | (with_reducible apply keeps_capped) | (with_reducible apply keeps_trap) | (fail_if_no_progress with_reducible apply keeps_mk)))

theorem keeps_runProgram {s₀ : State} {s : State} {g : Nat} {f : Frame} (hk : Keeps s₀ s) : Keeps s₀ (State.runProgram s g f).2 := by
  unfold State.runProgram
  (repeat' (first | (intro) | (with_reducible assumption) | (with_reducible apply keeps_when) | (with_reducible apply keeps_takeIdent) | (with_reducible apply keeps_bump) | (with_reducible apply keeps_trapCapped) | (with_reducible apply keeps_trap) | (dsimp -zeta only) | (split)))
theorem keeps_runProgram_eq {s₀ : State} {s : State} {g : Nat} {f : Frame} {ra rt} (he : State.runProgram s g f = (ra, rt)) (hk : Keeps s₀ s) : Keeps s₀ rt := by
  have := keeps_runProgram (s := s) (g := g) (f := f) hk; rw [he] at this; exact this

theorem keeps_hostBytes {s₀ : State} {s : State} {g : Nat} {f : Frame} (hk : Keeps s₀ s) : Keeps s₀ (State.hostBytes s g f).2 := by
  unfold State.hostBytes
  (repeat' (first | (with_reducible assumption) | (with_reducible apply keeps_runProgram_eq (by assumption)) | (with_reducible apply keeps_espCapture_eq (by assumption)) | (with_reducible apply keeps_bump) | (split)))
theorem keeps_hostBytes_eq {s₀ : State} {s : State} {g : Nat} {f : Frame} {ra rt} (he : State.hostBytes s g f = (ra, rt)) (hk : Keeps s₀ s) : Keeps s₀ rt := by
  have := keeps_hostBytes (s := s) (g := g) (f := f) hk; rw [he] at this; exact this

theorem keeps_deliver {s₀ : State} {s : State} {h : Nat} {d : FrameDest} (hk : Keeps s₀ s) : Keeps s₀ (State.deliver s h d) := by
  unfold State.deliver
  (repeat' (first | (intro) | (with_reducible assumption) | (with_reducible apply keeps_ite) | (with_reducible apply keeps_when) | (with_reducible apply keeps_joinEgress) | (with_reducible apply keeps_releaseCopy) | (with_reducible apply keeps_bump) | (with_reducible apply keeps_hostBytes_eq (by assumption)) | (with_reducible apply keeps_takeHeadIf) | (with_reducible apply keeps_releaseWith) | (with_reducible apply keeps_emit) | (fail_if_no_progress with_reducible apply keeps_mk) | (dsimp -zeta only) | (split)))

theorem keeps_drainInput {s₀ : State} {s : State} {x : Nat × Desc} (hk : Keeps s₀ s) : Keeps s₀ (State.drainInput s x) := by
  unfold State.drainInput
  (repeat' (first | (intro) | (with_reducible assumption) | (with_reducible apply keeps_ite) | (with_reducible apply keeps_giveCredit) | (with_reducible apply keeps_deliver) | (with_reducible apply keeps_foldl)))

theorem keeps_drainInputs {s₀ : State} {s : State} (hk : Keeps s₀ s) : Keeps s₀ (State.drainInputs s) := by
  unfold State.drainInputs
  (repeat' (first | (intro) | (with_reducible assumption) | (with_reducible apply keeps_drainInput) | (fail_if_no_progress with_reducible apply keeps_mk) | (with_reducible apply keeps_foldl)))

theorem keeps_moveMatch {s₀ : State} {s : State} {x : Match} (hk : Keeps s₀ s) : Keeps s₀ (State.moveMatch s x) := by
  unfold State.moveMatch
  (repeat' (first | (with_reducible assumption) | (with_reducible apply keeps_takeCredit) | (fail_if_no_progress with_reducible apply keeps_mk) | (dsimp -zeta only) | (split)))

theorem keeps_execFabricTransfer {s₀ : State} {offset : Nat} {s : State} (hk : Keeps s₀ s) : KeepsO s₀ (execFabricTransfer offset s) := by
  unfold execFabricTransfer
  (repeat' (first | (intro) | (with_reducible assumption) | (with_reducible apply keepsO_ok) | (with_reducible apply keepsO_ite) | (with_reducible apply keeps_moment) | (with_reducible apply keeps_iterate) | (with_reducible apply keeps_drainInputs) | (with_reducible apply keeps_moveMatch) | (with_reducible apply keeps_foldl)))

theorem keeps_pathFails {s₀ : State} {s : State} (hk : Keeps s₀ s) : Keeps s₀ (State.pathFails s) := by
  unfold State.pathFails
  (repeat' (first | (with_reducible assumption) | (with_reducible apply keeps_fault) | (fail_if_no_progress with_reducible apply keeps_mk)))

theorem keeps_payloadKey {s₀ : State} {s : State} {f : Nat} {m : Nat} {rtp : Bool} {replay : Bool} (hk : Keeps s₀ s) : Keeps s₀ (State.payloadKey s f m rtp replay).2 := by
  unfold State.payloadKey
  (repeat' (first | (with_reducible assumption) | (with_reducible apply keeps_emeCapture_eq (by assumption)) | (split)))
theorem keeps_payloadKey_eq {s₀ : State} {s : State} {f : Nat} {m : Nat} {rtp : Bool} {replay : Bool} {ra rt} (he : State.payloadKey s f m rtp replay = (ra, rt)) (hk : Keeps s₀ s) : Keeps s₀ rt := by
  have := keeps_payloadKey (s := s) (f := f) (m := m) (rtp := rtp) (replay := replay) hk; rw [he] at this; exact this

theorem keeps_toMediaRing {s₀ : State} {s : State} {f : Nat} {ring : Nat} {h : Option Nat} {l : Bytes} (hk : Keeps s₀ s) : Keeps s₀ (State.toMediaRing s f ring h l) := by
  unfold State.toMediaRing
  (repeat' (first | (with_reducible assumption) | (with_reducible apply keeps_takeHeadIf) | (with_reducible apply keeps_bump) | (fail_if_no_progress with_reducible apply keeps_mk)))

theorem keeps_sealMedia {s₀ : State} {s : State} {p : Nat} {x : TxMedia} (hk : Keeps s₀ s) : Keeps s₀ (State.sealMedia s p x).2 := by
  unfold State.sealMedia
  (repeat' (first | (with_reducible assumption) | (with_reducible apply keeps_takeIdent) | (with_reducible apply keeps_capture_eq (by assumption)) | (extract_lets -underBinder +onlyGivenNames sx; clear_value sx) | (dsimp -zeta only) | (split)))
theorem keeps_sealMedia_eq {s₀ : State} {s : State} {p : Nat} {x : TxMedia} {ra rt} (he : State.sealMedia s p x = (ra, rt)) (hk : Keeps s₀ s) : Keeps s₀ rt := by
  have := keeps_sealMedia (s := s) (p := p) (x := x) hk; rw [he] at this; exact this

theorem keeps_startTx {s₀ : State} {s : State} {p : Nat} {t : Tx} (hk : Keeps s₀ s) : Keeps s₀ (State.startTx s p t) := by
  unfold State.startTx
  (repeat' (first | (with_reducible assumption) | (fail_if_no_progress with_reducible apply keeps_mk)))

theorem keeps_transmit {s₀ : State} {s : State} {p : Nat} {h : Option Nat} {x : TxMedia} {l : Bytes} {bad : Bool} {word : Option Nat} (hk : Keeps s₀ s) : Keeps s₀ (State.transmit s p h x l bad word) := by
  unfold State.transmit
  (repeat' (first | (with_reducible assumption) | (with_reducible apply keeps_takeHeadIf) | (with_reducible apply keeps_startTx) | (with_reducible apply keeps_bump)))

theorem keeps_sendReplay {s₀ : State} {s : State} {b : BacklogPkt} (hk : Keeps s₀ s) : Keeps s₀ (State.sendReplay s b) := by
  unfold State.sendReplay
  (repeat' (first | (intro) | (with_reducible assumption) | (with_reducible apply keeps_ite) | (with_reducible apply keeps_when) | (with_reducible apply keeps_pathFails) | (with_reducible apply keeps_payloadKey_eq (by assumption)) | (with_reducible apply keeps_toMediaRing) | (with_reducible apply keeps_sealMedia_eq (by assumption)) | (with_reducible apply keeps_bump) | (with_reducible apply keeps_transmit) | (fail_if_no_progress with_reducible apply keeps_mk) | (extract_lets -underBinder +onlyGivenNames sx; refine (have kx : Keeps s₀ sx := ?_; ?_); dsimp -zeta only [sx]; rotate_left; clear_value sx; rotate_right) | (extract_lets -underBinder +onlyGivenNames sx; clear_value sx) | (split)))

theorem keeps_replay {s₀ : State} {s : State} {b : BacklogPkt} (hk : Keeps s₀ s) : Keeps s₀ (State.replay s b) := by
  unfold State.replay
  (repeat' (first | (with_reducible assumption) | (with_reducible apply keeps_sendReplay) | (fail_if_no_progress with_reducible apply keeps_mk)))

theorem keeps_replayRing {s₀ : State} {s : State} {r : Nat} (hk : Keeps s₀ s) : Keeps s₀ (State.replayRing s r) := by
  unfold State.replayRing
  (repeat' (first | (with_reducible assumption) | (with_reducible apply keeps_ite) | (with_reducible apply keeps_replay) | (split)))

theorem keeps_advanceCopy {s₀ : State} {s : State} {c : Copy} (hk : Keeps s₀ s) : Keeps s₀ (State.advanceCopy s c) := by
  unfold State.advanceCopy
  (repeat' (first | (with_reducible assumption) | (fail_if_no_progress with_reducible apply keeps_mk)))

theorem keeps_zeroAfter {s₀ : State} {s : State} {rate : Nat} {at_ : Nat} {e : Nat} {a4 : Bytes} (hk : Keeps s₀ s) : Keeps s₀ (State.zeroAfter s rate at_ e a4).2 := by
  unfold State.zeroAfter
  (repeat' (first | (with_reducible assumption) | (with_reducible apply keeps_takeFree)))
theorem keeps_zeroAfter_eq {s₀ : State} {s : State} {rate : Nat} {at_ : Nat} {e : Nat} {a4 : Bytes} {ra rt} (he : State.zeroAfter s rate at_ e a4 = (ra, rt)) (hk : Keeps s₀ s) : Keeps s₀ rt := by
  have := keeps_zeroAfter (s := s) (rate := rate) (at_ := at_) (e := e) (a4 := a4) hk; rw [he] at this; exact this

theorem keeps_edgeTx {s₀ : State} {s : State} {e : Nat} {p : Nat} (hk : Keeps s₀ s) : Keeps s₀ (State.edgeTx s e p) := by
  unfold State.edgeTx
  (repeat' (first | (with_reducible assumption) | (with_reducible apply keeps_ite) | (with_reducible apply keeps_zeroAfter) | (with_reducible apply keeps_retake) | (fail_if_no_progress with_reducible apply keeps_mk) | (dsimp -zeta only) | (split)))

theorem keeps_pinFalls {s₀ : State} {s : State} {pinB : Bool} {e : Nat} (hk : Keeps s₀ s) : Keeps s₀ (State.pinFalls s pinB e) := by
  unfold State.pinFalls
  (repeat' (first | (intro) | (with_reducible assumption) | (with_reducible apply keeps_ite) | (with_reducible apply keeps_setPin) | (with_reducible apply keeps_startLocal) | (with_reducible apply keeps_edgeTx) | (with_reducible apply keeps_foldl)))

theorem keeps_countBlocked {s₀ : State} {s : State} {c : Copy} (hk : Keeps s₀ s) : Keeps s₀ (State.countBlocked s c) := by
  unfold State.countBlocked
  (repeat' (first | (intro) | (with_reducible assumption) | (with_reducible apply keeps_when) | (with_reducible apply keeps_bump) | (with_reducible apply keeps_ringError) | (fail_if_no_progress with_reducible apply keeps_mk)))

theorem keeps_step11 {s₀ : State} {s : State} {p : Nat} {h : Option Nat} {x : TxMedia} {l : Bytes} {bad : Bool} {word : Option Nat} (hk : Keeps s₀ s) : Keeps s₀ (State.step11 s p h x l bad word) := by
  unfold State.step11
  (repeat' (first | (with_reducible assumption) | (with_reducible apply keeps_ite) | (with_reducible apply keeps_transmit) | (with_reducible apply keeps_releaseMaybe)))

theorem keeps_sendContent {s₀ : State} {s : State} {c : Copy} {plain : Bytes} {body : Bytes} {flags : Nat} {rtp : Bool} {word : Option Nat} {edged : Bool} (hk : Keeps s₀ s) : Keeps s₀ (State.sendContent s c plain body flags rtp word edged) := by
  unfold State.sendContent
  (repeat' (first | (intro) | (with_reducible assumption) | (with_reducible apply keeps_ite) | (with_reducible apply keeps_when) | (with_reducible apply keeps_pathFails) | (with_reducible apply keeps_payloadKey_eq (by assumption)) | (with_reducible apply keeps_releaseMaybe) | (with_reducible apply keeps_digestPacket) | (with_reducible apply keeps_toMediaRing) | (with_reducible apply keeps_sealMedia_eq (by assumption)) | (with_reducible apply keeps_bump) | (with_reducible apply keeps_step11) | (extract_lets -underBinder +onlyGivenNames sx; refine (have kx : Keeps s₀ sx := ?_; ?_); dsimp -zeta only [sx]; rotate_left; clear_value sx; rotate_right) | (extract_lets -underBinder +onlyGivenNames sx; clear_value sx) | (dsimp -zeta only) | (split)))

theorem keeps_sendPacket {s₀ : State} {s : State} {c : Copy} {edge : Option (Bool × Nat)} {stageBad : Bool} (hk : Keeps s₀ s) : Keeps s₀ (State.sendPacket s c edge stageBad) := by
  unfold State.sendPacket
  (repeat' (first | (intro) | (with_reducible assumption) | (with_reducible apply keeps_ite) | (with_reducible apply keeps_when) | (with_reducible apply keeps_advanceCopy) | (with_reducible apply keeps_zeroAfter) | (with_reducible apply keeps_pinFalls) | (with_reducible apply keeps_tap) | (with_reducible apply keeps_keepBacklog) | (with_reducible apply keeps_countBlocked) | (with_reducible apply keeps_releaseMaybe) | (with_reducible apply keeps_digestPacket) | (with_reducible apply keeps_sendContent) | (with_reducible apply keeps_takeFallbackEpoch) | (fail_if_no_progress with_reducible apply keeps_mk) | (dsimp -zeta only) | (split)))

theorem keeps_execMediaEgress {s₀ : State} {toRing : Bool} {target : Fin 131072} {offset : Nat} {edge : Option (Bool × Nat)} {outputBad : Bool} {stageBad : Bool} {s : State} (hk : Keeps s₀ s) : KeepsO s₀ (execMediaEgress toRing target offset edge outputBad stageBad s) := by
  unfold execMediaEgress
  (repeat' (first | (intro) | (with_reducible assumption) | (with_reducible apply keepsO_ok) | (with_reducible apply keeps_ite) | (with_reducible apply keepsO_ite) | (with_reducible apply keeps_when) | (with_reducible apply keeps_moment) | (with_reducible apply keeps_replayRing) | (with_reducible apply keeps_settle) | (with_reducible apply keeps_guardTick) | (with_reducible apply keeps_releaseMaybe) | (with_reducible apply keeps_advanceCopy) | (with_reducible apply keeps_digestPacket) | (with_reducible apply keeps_guardFail) | (with_reducible apply keeps_sendPacket) | (split)))

theorem keeps_dropHead {s₀ : State} {s : State} {q : Queued} {count : State → State} (hk : Keeps s₀ s) (hk_count : ∀ (x0 : State), Keeps s₀ x0 → Keeps s₀ (count x0)) : Keeps s₀ (State.dropHead s q count) := by
  unfold State.dropHead
  (repeat' (first | (with_reducible assumption) | (with_reducible apply hk_count) | (with_reducible apply keeps_dropQueued)))

theorem keeps_copyBytes {s₀ : State} {s : State} {q : Queued} {f : Frame} (hk : Keeps s₀ s) : Keeps s₀ (State.copyBytes s q f).2 := by
  unfold State.copyBytes
  (repeat' (first | (intro) | (with_reducible assumption) | (with_reducible apply keeps_when) | (with_reducible apply keeps_runProgram_eq (by assumption)) | (with_reducible apply keeps_bump) | (with_reducible apply keeps_trap) | (with_reducible apply keeps_portFrame) | (extract_lets -underBinder +onlyGivenNames sx; clear_value sx) | (split)))
theorem keeps_copyBytes_eq {s₀ : State} {s : State} {q : Queued} {f : Frame} {ra rt} (he : State.copyBytes s q f = (ra, rt)) (hk : Keeps s₀ s) : Keeps s₀ rt := by
  have := keeps_copyBytes (s := s) (q := q) (f := f) hk; rw [he] at this; exact this

theorem keeps_noteBegun {s₀ : State} {s : State} {q : Queued} (hk : Keeps s₀ s) : Keeps s₀ (State.noteBegun s q) := by
  unfold State.noteBegun
  (repeat' (first | (with_reducible assumption) | (fail_if_no_progress with_reducible apply keeps_mk)))

theorem keeps_beginFrame {s₀ : State} {s : State} {q : Queued} {cut : Bool} (hk : Keeps s₀ s) : Keeps s₀ (State.beginFrame s q cut) := by
  unfold State.beginFrame
  (repeat' (first | (intro) | (with_reducible assumption) | (with_reducible apply keeps_dropHead) | (with_reducible apply keeps_copyBytes_eq (by assumption)) | (with_reducible apply keeps_takeHeadIf) | (with_reducible apply keeps_startTx) | (with_reducible apply keeps_noteBegun) | (with_reducible apply keeps_newHead) | (fail_if_no_progress with_reducible apply keeps_mk) | (with_reducible apply keeps_id) | (dsimp -zeta only) | (split)))

theorem keeps_execBeFrameStart {s₀ : State} {port : Fin 32} {offset : Nat} {s : State} (hk : Keeps s₀ s) : KeepsO s₀ (execBeFrameStart port offset s) := by
  unfold execBeFrameStart
  (repeat' (first | (intro) | (with_reducible assumption) | (with_reducible apply keepsO_ok) | (with_reducible apply keeps_ite) | (with_reducible apply keepsO_ite) | (with_reducible apply keeps_moment) | (with_reducible apply keeps_settle) | (with_reducible apply keeps_replay) | (with_reducible apply keeps_dropHead) | (with_reducible apply keeps_beginFrame) | (with_reducible apply keeps_id) | (extract_lets -underBinder +onlyGivenNames sx; refine (have kx : Keeps s₀ sx := ?_; ?_); dsimp -zeta only [sx]; rotate_left; clear_value sx; rotate_right) | (extract_lets -underBinder +onlyGivenNames sx; clear_value sx) | (split)))

theorem keeps_execCutThroughStart {s₀ : State} {port : Fin 32} {offset : Nat} {s : State} (hk : Keeps s₀ s) : KeepsO s₀ (execCutThroughStart port offset s) := by
  unfold execCutThroughStart
  (repeat' (first | (intro) | (with_reducible assumption) | (with_reducible apply keepsO_ok) | (with_reducible apply keeps_ite) | (with_reducible apply keepsO_ite) | (with_reducible apply keeps_moment) | (with_reducible apply keeps_settle) | (with_reducible apply keeps_dropHead) | (with_reducible apply keeps_beginFrame) | (with_reducible apply keeps_id) | (extract_lets -underBinder +onlyGivenNames sx; refine (have kx : Keeps s₀ sx := ?_; ?_); dsimp -zeta only [sx]; rotate_left; clear_value sx; rotate_right) | (split)))

theorem keeps_statTx {s₀ : State} {s : State} {p : Nat} {t : Tx} (hk : Keeps s₀ s) : Keeps s₀ (State.statTx s p t) := by
  unfold State.statTx
  (repeat' (first | (intro) | (with_reducible assumption) | (with_reducible apply keeps_ite) | (with_reducible apply keeps_when) | (with_reducible apply keeps_statCast) | (with_reducible apply keeps_stat)))

theorem keeps_execTxComplete {s₀ : State} {port : Fin 32} {offset : Nat} {s : State} (hk : Keeps s₀ s) : KeepsO s₀ (execTxComplete port offset s) := by
  unfold execTxComplete
  (repeat' (first | (with_reducible assumption) | (with_reducible apply keepsO_ok) | (with_reducible apply keepsO_ite) | (with_reducible apply keeps_moment) | (with_reducible apply keeps_settle) | (with_reducible apply keeps_releaseWith) | (with_reducible apply keeps_payDebt) | (with_reducible apply keeps_statTx) | (with_reducible apply keeps_emit) | (fail_if_no_progress with_reducible apply keeps_mk) | (extract_lets -underBinder +onlyGivenNames sx; refine (have kx : Keeps s₀ sx := ?_; ?_); dsimp -zeta only [sx]; rotate_left; clear_value sx; rotate_right) | (split)))

theorem keeps_endFrame {s₀ : State} {s : State} {p : Nat} {t : Tx} (hk : Keeps s₀ s) : Keeps s₀ (State.endFrame s p t) := by
  unfold State.endFrame
  (repeat' (first | (with_reducible assumption) | (with_reducible apply keeps_releaseWith) | (with_reducible apply keeps_payDebt) | (with_reducible apply keeps_stat) | (with_reducible apply keeps_emit) | (fail_if_no_progress with_reducible apply keeps_mk)))

theorem keeps_setStep {s₀ : State} {s : State} {p : Nat} {v : Nat} (hk : Keeps s₀ s) : Keeps s₀ (State.setStep s p v) := by
  unfold State.setStep
  (repeat' (first | (with_reducible assumption) | (with_reducible apply keeps_ite) | (with_reducible apply keeps_raise) | (with_reducible apply keeps_put)))

theorem keeps_execTxUnderrun {s₀ : State} {port : Fin 32} {offset : Nat} {s : State} (hk : Keeps s₀ s) : KeepsO s₀ (execTxUnderrun port offset s) := by
  unfold execTxUnderrun
  (repeat' (first | (intro) | (with_reducible assumption) | (with_reducible apply keepsO_ok) | (with_reducible apply keeps_moment) | (with_reducible apply keeps_stat) | (with_reducible apply keeps_endFrame) | (with_reducible apply keeps_settle) | (with_reducible apply keeps_oncePerTick) | (with_reducible apply keeps_setStep) | (fail_if_no_progress with_reducible apply keeps_mk) | (extract_lets -underBinder +onlyGivenNames sx; refine (have kx : Keeps s₀ sx := ?_; ?_); dsimp -zeta only [sx]; rotate_left; clear_value sx; rotate_right) | (extract_lets -underBinder +onlyGivenNames sx; clear_value sx) | (split)))

theorem keeps_execCtStepDecay {s₀ : State} {port : Fin 32} {s : State} (hk : Keeps s₀ s) : KeepsO s₀ (execCtStepDecay port s) := by
  unfold execCtStepDecay
  (repeat' (first | (with_reducible assumption) | (with_reducible apply keepsO_ok) | (with_reducible apply keepsO_ite) | (with_reducible apply keeps_setStep) | (fail_if_no_progress with_reducible apply keeps_mk)))

theorem keeps_execHeadOfQueueTimeout {s₀ : State} {port : Fin 32} {cls : Fin 8} {offset : Nat} {s : State} (hk : Keeps s₀ s) : KeepsO s₀ (execHeadOfQueueTimeout port cls offset s) := by
  unfold execHeadOfQueueTimeout
  (repeat' (first | (intro) | (with_reducible assumption) | (with_reducible apply keepsO_ok) | (with_reducible apply keepsO_ite) | (with_reducible apply keeps_moment) | (with_reducible apply keeps_dropHead) | (with_reducible apply keeps_settle) | (with_reducible apply keeps_bump) | (extract_lets -underBinder +onlyGivenNames sx; refine (have kx : Keeps s₀ sx := ?_; ?_); dsimp -zeta only [sx]; rotate_left; clear_value sx; rotate_right) | (split)))

theorem keeps_execOverridePinFall {s₀ : State} {pinB : Bool} {offset : Nat} {s : State} (hk : Keeps s₀ s) : KeepsO s₀ (execOverridePinFall pinB offset s) := by
  unfold execOverridePinFall
  (repeat' (first | (with_reducible assumption) | (with_reducible apply keepsO_ok) | (with_reducible apply keeps_pinFalls) | (with_reducible apply keeps_moment)))

theorem keeps_releaseHeads {s₀ : State} {s : State} {a1 : Nat} (hk : Keeps s₀ s) : Keeps s₀ (State.releaseHeads s a1) := by
  induction a1 generalizing s with
  | zero => unfold State.releaseHeads; (repeat' (first | (intro) | (with_reducible assumption) | (with_reducible apply keeps_setLevel) | (with_reducible apply keeps_joinQueue) | (fail_if_no_progress with_reducible apply keeps_mk) | (with_reducible apply keeps_foldl) | (extract_lets -underBinder +onlyGivenNames sx; clear_value sx) | (split)))
  | succ n ih => unfold State.releaseHeads; (repeat' (first | (with_reducible apply ih) | (intro) | (with_reducible assumption) | (with_reducible apply keeps_setLevel) | (with_reducible apply keeps_joinQueue) | (fail_if_no_progress with_reducible apply keeps_mk) | (with_reducible apply keeps_foldl) | (extract_lets -underBinder +onlyGivenNames sx; clear_value sx) | (split)))

theorem keeps_execShaperRelease {s₀ : State} {offset : Nat} {s : State} (hk : Keeps s₀ s) : KeepsO s₀ (execShaperRelease offset s) := by
  unfold execShaperRelease
  (repeat' (first | (with_reducible assumption) | (with_reducible apply keepsO_ok) | (with_reducible apply keepsO_ite) | (with_reducible apply keeps_releaseHeads) | (with_reducible apply keeps_settle) | (with_reducible apply keeps_moment)))

end Sys2Proof.Machine
end

