-- ==== Sys2Proof/Laws/KeepsKeys.lean ====
section
/-! SUPPORT. `Keeps`, for every function of Machine/Keys.lean. -/

set_option linter.all false
set_option simprocs false

namespace Sys2Proof.Machine

theorem keeps_keyCommand {s₀ : State} {s : State} {r : Requester} {run : State → State} (hk : Keeps s₀ s) (hk_run : ∀ (x0 : State), Keeps s₀ x0 → Keeps s₀ (run x0)) : Keeps s₀ (State.keyCommand s r run) := by
  unfold State.keyCommand
  (repeat' (first | (intro) | (with_reducible assumption) | (with_reducible apply keeps_ite) | (with_reducible apply hk_run) | (with_reducible apply keeps_localOnly)))

theorem keeps_setSlot {s₀ : State} {s : State} {slot : Nat} {k : KeySlot} (hk : Keeps s₀ s) : Keeps s₀ (State.setSlot s slot k) := by
  unfold State.setSlot
  (repeat' (first | (with_reducible assumption) | (fail_if_no_progress with_reducible apply keeps_mk)))

theorem keeps_loadSlot {s₀ : State} {s : State} {slot : Nat} {kek : Nat} {func : Nat} {plain : Bytes} {blob : Bytes} (hk : Keeps s₀ s) : Keeps s₀ (State.loadSlot s slot kek func plain blob) := by
  unfold State.loadSlot
  (repeat' (first | (with_reducible assumption) | (with_reducible apply keeps_put) | (with_reducible apply keeps_setSlot) | (with_reducible apply keeps_poolTake) | (fail_if_no_progress with_reducible apply keeps_mk)))

theorem keeps_keyDone {s₀ : State} {s : State} {op : Nat} {slot : Nat} {result : Nat} (hk : Keeps s₀ s) : Keeps s₀ (State.keyDone s op slot result) := by
  unfold State.keyDone
  (repeat' (first | (with_reducible assumption) | (with_reducible apply keeps_raise) | (with_reducible apply keeps_wrWords) | (with_reducible apply keeps_put)))

theorem keeps_keyLoad {s₀ : State} {s : State} {r : Requester} {slot : Nat} (hk : Keeps s₀ s) : Keeps s₀ (State.keyLoad s r slot) := by
  unfold State.keyLoad
  (repeat' (first | (intro) | (with_reducible assumption) | (with_reducible apply keeps_ite) | (with_reducible apply keeps_keyCommand) | (with_reducible apply keeps_carry) | (with_reducible apply keeps_put) | (with_reducible apply keeps_loadSlot) | (with_reducible apply keeps_trackPulse) | (with_reducible apply keeps_keyDone) | (dsimp -zeta only) | (split)))

theorem keeps_scheduleRewrite {s₀ : State} {s : State} {slot : Nat} {kek : Nat} {t : Nat} {plain : Bytes} {blob : Bytes} (hk : Keeps s₀ s) : Keeps s₀ (State.scheduleRewrite s slot kek t plain blob) := by
  unfold State.scheduleRewrite
  (repeat' (first | (with_reducible assumption) | (with_reducible apply keeps_put) | (with_reducible apply keeps_setSlot) | (split)))

theorem keeps_keyRewrite {s₀ : State} {s : State} {r : Requester} {slot : Nat} (hk : Keeps s₀ s) : Keeps s₀ (State.keyRewrite s r slot) := by
  unfold State.keyRewrite
  (repeat' (first | (intro) | (with_reducible assumption) | (with_reducible apply keeps_ite) | (with_reducible apply keeps_keyCommand) | (with_reducible apply keeps_carry) | (with_reducible apply keeps_put) | (with_reducible apply keeps_scheduleRewrite) | (with_reducible apply keeps_trackPulse) | (with_reducible apply keeps_keyDone) | (dsimp -zeta only) | (split)))

theorem keeps_scheduleErase {s₀ : State} {s : State} {slot : Nat} {t : Nat} (hk : Keeps s₀ s) : Keeps s₀ (State.scheduleErase s slot t) := by
  unfold State.scheduleErase
  (repeat' (first | (intro) | (with_reducible assumption) | (with_reducible apply keeps_when) | (with_reducible apply keeps_setSlot) | (with_reducible apply keeps_put) | (split)))

theorem keeps_keyErase {s₀ : State} {s : State} {r : Requester} {slot : Nat} (hk : Keeps s₀ s) : Keeps s₀ (State.keyErase s r slot) := by
  unfold State.keyErase
  (repeat' (first | (intro) | (with_reducible assumption) | (with_reducible apply keeps_ite) | (with_reducible apply keeps_keyCommand) | (with_reducible apply keeps_carry) | (with_reducible apply keeps_put) | (with_reducible apply keeps_scheduleErase) | (with_reducible apply keeps_keyDone)))

theorem keeps_writeSa {s₀ : State} {s : State} {r : Requester} {sa : Nat} {word : Nat} {v : Nat} (hk : Keeps s₀ s) : Keeps s₀ (State.writeSa s r sa word v) := by
  unfold State.writeSa
  (repeat' (first | (with_reducible assumption) | (with_reducible apply keeps_ite) | (with_reducible apply keeps_put) | (with_reducible apply keeps_bump) | (with_reducible apply keeps_writeWord) | (fail_if_no_progress with_reducible apply keeps_mk)))

theorem keeps_writeRxSc {s₀ : State} {s : State} {r : Requester} {w : Nat} {v : Nat} (hk : Keeps s₀ s) : Keeps s₀ (State.writeRxSc s r w v) := by
  unfold State.writeRxSc
  (repeat' (first | (with_reducible assumption) | (with_reducible apply keeps_ite) | (with_reducible apply keeps_wr) | (split)))

theorem keeps_execKeyLoad {s₀ : State} {r : Requester} {slot : Fin 65536} {s : State} (hk : Keeps s₀ s) : KeepsO s₀ (execKeyLoad r slot s) := by
  unfold execKeyLoad
  (repeat' (first | (with_reducible assumption) | (with_reducible apply keepsO_ok) | (with_reducible apply keeps_keyLoad)))

theorem keeps_execKeyRewrite {s₀ : State} {r : Requester} {slot : Fin 65536} {s : State} (hk : Keeps s₀ s) : KeepsO s₀ (execKeyRewrite r slot s) := by
  unfold execKeyRewrite
  (repeat' (first | (with_reducible assumption) | (with_reducible apply keepsO_ok) | (with_reducible apply keeps_keyRewrite)))

theorem keeps_execKeyErase {s₀ : State} {r : Requester} {slot : Fin 65536} {s : State} (hk : Keeps s₀ s) : KeepsO s₀ (execKeyErase r slot s) := by
  unfold execKeyErase
  (repeat' (first | (with_reducible assumption) | (with_reducible apply keepsO_ok) | (with_reducible apply keeps_keyErase)))

theorem keeps_keySwitch {s₀ : State} {s : State} {slot : Nat} (hk : Keeps s₀ s) : Keeps s₀ (State.keySwitch s slot) := by
  unfold State.keySwitch
  (repeat' (first | (with_reducible assumption) | (with_reducible apply keeps_ite) | (with_reducible apply keeps_setSlot) | (with_reducible apply keeps_put) | (with_reducible apply keeps_raise) | (fail_if_no_progress with_reducible apply keeps_mk) | (split)))

theorem keeps_execKeySwitched {s₀ : State} {slot : Fin 65536} {s : State} (hk : Keeps s₀ s) : KeepsO s₀ (execKeySwitched slot s) := by
  unfold execKeySwitched
  (repeat' (first | (with_reducible assumption) | (with_reducible apply keepsO_ok) | (with_reducible apply keeps_keySwitch)))

theorem keeps_eraseStart {s₀ : State} {s : State} {slot : Nat} (hk : Keeps s₀ s) : Keeps s₀ (State.eraseStart s slot) := by
  unfold State.eraseStart
  (repeat' (first | (with_reducible assumption) | (with_reducible apply keeps_ite) | (with_reducible apply keeps_put) | (split)))

theorem keeps_execEraseStart {s₀ : State} {slot : Fin 65536} {s : State} (hk : Keeps s₀ s) : KeepsO s₀ (execEraseStart slot s) := by
  unfold execEraseStart
  (repeat' (first | (with_reducible assumption) | (with_reducible apply keepsO_ok) | (with_reducible apply keeps_eraseStart)))

theorem keeps_execKeyErased {s₀ : State} {slot : Fin 65536} {s : State} (hk : Keeps s₀ s) : KeepsO s₀ (execKeyErased slot s) := by
  unfold execKeyErased
  (repeat' (first | (with_reducible assumption) | (with_reducible apply keepsO_ok) | (with_reducible apply keepsO_ite) | (with_reducible apply keeps_poolGive) | (with_reducible apply keeps_put) | (with_reducible apply keeps_raise) | (fail_if_no_progress with_reducible apply keeps_mk)))

theorem keeps_execSaWrite {s₀ : State} {r : Requester} {sa : Fin 16384} {word : Fin 8} {v : Word} {s : State} (hk : Keeps s₀ s) : KeepsO s₀ (execSaWrite r sa word v s) := by
  unfold execSaWrite
  (repeat' (first | (with_reducible assumption) | (with_reducible apply keepsO_ok) | (with_reducible apply keeps_writeSa)))

theorem keeps_execRxScWrite {s₀ : State} {r : Requester} {port : Fin 32} {entry : Fin 16} {word : Fin 8} {v : Word} {s : State} (hk : Keeps s₀ s) : KeepsO s₀ (execRxScWrite r port entry word v s) := by
  unfold execRxScWrite
  (repeat' (first | (with_reducible assumption) | (with_reducible apply keepsO_ok) | (with_reducible apply keeps_writeRxSc)))

theorem keeps_execTxSaWrite {s₀ : State} {r : Requester} {port : Fin 32} {v : Word} {s : State} (hk : Keeps s₀ s) : KeepsO s₀ (execTxSaWrite r port v s) := by
  unfold execTxSaWrite
  (repeat' (first | (with_reducible assumption) | (with_reducible apply keepsO_ok) | (with_reducible apply keepsO_ite) | (with_reducible apply keeps_writeWord)))

end Sys2Proof.Machine
end

