-- ==== Sys2Proof/Laws/KeepsTopiary.lean ====
section
/-! SUPPORT. `Keeps`, for every function of Machine/Topiary.lean. -/

set_option linter.all false
set_option simprocs false

namespace Sys2Proof.Machine

theorem keeps_rebook {s₀ : State} {s : State} (hk : Keeps s₀ s) : Keeps s₀ (State.rebook s) := by
  unfold State.rebook
  (repeat' (first | (intro) | (with_reducible assumption) | (with_reducible apply keeps_put) | (fail_if_no_progress with_reducible apply keeps_mk) | (with_reducible apply keeps_foldl)))

theorem keeps_markDown {s₀ : State} {s : State} {isPoint : Bool} {id : Nat} {down : Bool} (hk : Keeps s₀ s) : Keeps s₀ (State.markDown s isPoint id down) := by
  unfold State.markDown
  (repeat' (first | (with_reducible assumption) | (with_reducible apply keeps_ite) | (with_reducible apply keeps_put)))

theorem keeps_scheduleRemove {s₀ : State} {s : State} {isPoint : Bool} {id : Nat} {t : Nat} (hk : Keeps s₀ s) : Keeps s₀ (State.scheduleRemove s isPoint id t) := by
  unfold State.scheduleRemove
  (repeat' (first | (intro) | (with_reducible assumption) | (with_reducible apply keeps_when) | (with_reducible apply keeps_put) | (fail_if_no_progress with_reducible apply keeps_mk)))

theorem keeps_admitDone {s₀ : State} {s : State} {code : Nat} {row : Nat} {id : Nat} (hk : Keeps s₀ s) : Keeps s₀ (State.admitDone s code row id) := by
  unfold State.admitDone
  (repeat' (first | (with_reducible assumption) | (with_reducible apply keeps_put) | (with_reducible apply keeps_raise)))

theorem keeps_bookRows {s₀ : State} {s : State} {l : List (Nat × Nat)} (hk : Keeps s₀ s) : Keeps s₀ (State.bookRows s l) := by
  unfold State.bookRows
  (repeat' (first | (intro) | (with_reducible assumption) | (with_reducible apply keeps_put) | (with_reducible apply keeps_foldl)))

theorem keeps_mediaRefs {s₀ : State} {s : State} {f : Nat} {up : Bool} (hk : Keeps s₀ s) : Keeps s₀ (State.mediaRefs s f up) := by
  unfold State.mediaRefs
  (repeat' (first | (intro) | (with_reducible assumption) | (with_reducible apply keeps_ite) | (with_reducible apply keeps_put) | (with_reducible apply keeps_wr) | (with_reducible apply keeps_foldl)))

theorem keeps_scheduleAdd {s₀ : State} {s : State} {isPoint : Bool} {id : Nat} {tick : Option Nat} {b : Booking} (hk : Keeps s₀ s) : Keeps s₀ (State.scheduleAdd s isPoint id tick b) := by
  unfold State.scheduleAdd
  (repeat' (first | (intro) | (with_reducible assumption) | (with_reducible apply keeps_when) | (with_reducible apply keeps_bookRows) | (with_reducible apply keeps_mediaRefs) | (with_reducible apply keeps_markDown) | (with_reducible apply keeps_takePools) | (with_reducible apply keeps_put) | (fail_if_no_progress with_reducible apply keeps_mk)))

theorem keeps_admitOne {s₀ : State} {s : State} {isPoint : Bool} {id : Nat} (hk : Keeps s₀ s) : Keeps s₀ (State.admitOne s isPoint id) := by
  unfold State.admitOne
  (repeat' (first | (with_reducible assumption) | (with_reducible apply keeps_admitDone) | (with_reducible apply keeps_carry) | (with_reducible apply keeps_put) | (with_reducible apply keeps_scheduleAdd) | (split)))

theorem keeps_execAddFlow {s₀ : State} {r : Requester} {id : Fin 65536} {s : State} (hk : Keeps s₀ s) : KeepsO s₀ (execAddFlow r id s) := by
  unfold execAddFlow
  (repeat' (first | (intro) | (with_reducible assumption) | (with_reducible apply keepsO_ok) | (with_reducible apply keeps_ite) | (with_reducible apply keeps_localOnly) | (with_reducible apply keeps_admitOne)))

theorem keeps_removeCmd {s₀ : State} {s : State} {isPoint : Bool} {id : Nat} (hk : Keeps s₀ s) : Keeps s₀ (State.removeCmd s isPoint id) := by
  unfold State.removeCmd
  (repeat' (first | (with_reducible assumption) | (with_reducible apply keeps_ite) | (with_reducible apply keeps_admitDone) | (with_reducible apply keeps_carry) | (with_reducible apply keeps_put) | (with_reducible apply keeps_scheduleRemove)))

theorem keeps_execRemoveFlow {s₀ : State} {r : Requester} {id : Fin 65536} {s : State} (hk : Keeps s₀ s) : KeepsO s₀ (execRemoveFlow r id s) := by
  unfold execRemoveFlow
  (repeat' (first | (intro) | (with_reducible assumption) | (with_reducible apply keepsO_ok) | (with_reducible apply keeps_ite) | (with_reducible apply keeps_localOnly) | (with_reducible apply keeps_removeCmd)))

theorem keeps_execAddPoint {s₀ : State} {r : Requester} {id : Fin 8192} {s : State} (hk : Keeps s₀ s) : KeepsO s₀ (execAddPoint r id s) := by
  unfold execAddPoint
  (repeat' (first | (intro) | (with_reducible assumption) | (with_reducible apply keepsO_ok) | (with_reducible apply keeps_ite) | (with_reducible apply keeps_localOnly) | (with_reducible apply keeps_admitOne)))

theorem keeps_execRemovePoint {s₀ : State} {r : Requester} {id : Fin 8192} {s : State} (hk : Keeps s₀ s) : KeepsO s₀ (execRemovePoint r id s) := by
  unfold execRemovePoint
  (repeat' (first | (intro) | (with_reducible assumption) | (with_reducible apply keepsO_ok) | (with_reducible apply keeps_ite) | (with_reducible apply keeps_localOnly) | (with_reducible apply keeps_removeCmd)))

theorem keeps_execCheckFlow {s₀ : State} {r : Requester} {id : Fin 65536} {s : State} (hk : Keeps s₀ s) : KeepsO s₀ (execCheckFlow r id s) := by
  unfold execCheckFlow
  (repeat' (first | (with_reducible assumption) | (with_reducible apply keepsO_ok) | (with_reducible apply keepsO_ite) | (with_reducible apply keeps_admitDone) | (split)))

theorem keeps_fence {s₀ : State} {s : State} {cause : Nat} (hk : Keeps s₀ s) : Keeps s₀ (State.fence s cause) := by
  unfold State.fence
  (repeat' (first | (intro) | (with_reducible assumption) | (with_reducible apply keeps_ite) | (with_reducible apply keeps_when) | (with_reducible apply keeps_keepEpoch) | (with_reducible apply keeps_refreshLayered) | (with_reducible apply keeps_put) | (with_reducible apply keeps_raise) | (with_reducible apply keeps_rebook) | (fail_if_no_progress with_reducible apply keeps_mk)))

theorem keeps_setCapacities {s₀ : State} {s : State} (hk : Keeps s₀ s) : Keeps s₀ (State.setCapacities s) := by
  unfold State.setCapacities
  (repeat' (first | (intro) | (with_reducible assumption) | (with_reducible apply keeps_put) | (with_reducible apply keeps_foldl)))

theorem keeps_markHeld {s₀ : State} {s : State} {f : Nat} {t : Nat} (hk : Keeps s₀ s) : Keeps s₀ (State.markHeld s f t) := by
  unfold State.markHeld
  (repeat' (first | (intro) | (with_reducible assumption) | (with_reducible apply keeps_freeFrame) | (with_reducible apply keeps_setRt) | (with_reducible apply keeps_foldl)))

theorem keeps_closeWindow {s₀ : State} {s : State} {f : Nat} (hk : Keeps s₀ s) : Keeps s₀ (State.closeWindow s f) := by
  unfold State.closeWindow
  (repeat' (first | (with_reducible assumption) | (with_reducible apply keeps_ite) | (with_reducible apply keeps_bump) | (with_reducible apply keeps_bumpSat) | (with_reducible apply keeps_markHeld)))

theorem keeps_execAdmissionEffective {s₀ : State} {isPoint : Bool} {id : Fin 65536} {s : State} (hk : Keeps s₀ s) : KeepsO s₀ (execAdmissionEffective isPoint id s) := by
  unfold execAdmissionEffective
  (repeat' (first | (intro) | (with_reducible assumption) | (with_reducible apply keepsO_ok) | (with_reducible apply keepsO_ite) | (with_reducible apply keeps_when) | (with_reducible apply keeps_put) | (fail_if_no_progress with_reducible apply keeps_mk) | (split)))

theorem keeps_unbookRows {s₀ : State} {s : State} {l : List (Nat × Nat)} (hk : Keeps s₀ s) : Keeps s₀ (State.unbookRows s l) := by
  unfold State.unbookRows
  (repeat' (first | (intro) | (with_reducible assumption) | (with_reducible apply keeps_put) | (with_reducible apply keeps_foldl)))

theorem keeps_release {s₀ : State} {s : State} {isPoint : Bool} {id : Nat} (hk : Keeps s₀ s) : Keeps s₀ (State.release s isPoint id) := by
  unfold State.release
  (repeat' (first | (intro) | (with_reducible assumption) | (with_reducible apply keeps_when) | (with_reducible apply keeps_givePools) | (with_reducible apply keeps_unbookRows) | (with_reducible apply keeps_mediaRefs) | (with_reducible apply keeps_put) | (with_reducible apply keeps_freeFrame) | (with_reducible apply keeps_dropRt) | (fail_if_no_progress with_reducible apply keeps_mk) | (with_reducible apply keeps_foldl)))

theorem keeps_execRemovalRelease {s₀ : State} {isPoint : Bool} {id : Fin 65536} {s : State} (hk : Keeps s₀ s) : KeepsO s₀ (execRemovalRelease isPoint id s) := by
  unfold execRemovalRelease
  (repeat' (first | (with_reducible assumption) | (with_reducible apply keepsO_ok) | (with_reducible apply keepsO_ite) | (with_reducible apply keeps_release) | (split)))

theorem keeps_execWindowClose {s₀ : State} {flow : Fin 65536} {s : State} (hk : Keeps s₀ s) : KeepsO s₀ (execWindowClose flow s) := by
  unfold execWindowClose
  (repeat' (first | (with_reducible assumption) | (with_reducible apply keepsO_ok) | (with_reducible apply keeps_closeWindow) | (with_reducible apply keeps_moment)))

theorem keeps_execMediaOverrun {s₀ : State} {s : State} (hk : Keeps s₀ s) : KeepsO s₀ (execMediaOverrun s) := by
  unfold execMediaOverrun
  (repeat' (first | (intro) | (with_reducible assumption) | (with_reducible apply keepsO_ok) | (with_reducible apply keeps_releaseCopy) | (with_reducible apply keeps_raise) | (with_reducible apply keeps_bumpBy) | (fail_if_no_progress with_reducible apply keeps_mk) | (with_reducible apply keeps_foldl) | (extract_lets -underBinder +onlyGivenNames sx; clear_value sx) | (split)))

theorem keeps_execLedgerAudit {s₀ : State} {found : List (Fin 40 × Word)} {s : State} (hk : Keeps s₀ s) : KeepsO s₀ (execLedgerAudit found s) := by
  unfold execLedgerAudit
  (repeat' (first | (intro) | (with_reducible assumption) | (with_reducible apply keepsO_ok) | (with_reducible apply keeps_when) | (with_reducible apply keeps_put) | (with_reducible apply keeps_hlog) | (with_reducible apply keeps_bump) | (with_reducible apply keeps_bookAudit) | (with_reducible apply keeps_bookRepaired) | (with_reducible apply keeps_foldl)))

end Sys2Proof.Machine
end

