-- ==== Sys2Proof/Laws/KeepsHedge.lean ====
section
/-! SUPPORT. `Keeps`, for every function of Machine/Hedge.lean. -/

set_option linter.all false
set_option simprocs false

namespace Sys2Proof.Machine

theorem keeps_setHedge {s₀ : State} {s : State} {st : Nat} (hk : Keeps s₀ s) : Keeps s₀ (State.setHedge s st) := by
  unfold State.setHedge
  (repeat' (first | (with_reducible assumption) | (with_reducible apply keeps_ite) | (with_reducible apply keeps_refreshLayered) | (with_reducible apply keeps_put) | (with_reducible apply keeps_rebook) | (fail_if_no_progress with_reducible apply keeps_mk)))

theorem keeps_setGap {s₀ : State} {s : State} {b : Bool} (hk : Keeps s₀ s) : Keeps s₀ (State.setGap s b) := by
  unfold State.setGap
  (repeat' (first | (with_reducible assumption) | (with_reducible apply keeps_put)))

theorem keeps_fallBack {s₀ : State} {s : State} (hk : Keeps s₀ s) : Keeps s₀ (State.fallBack s) := by
  unfold State.fallBack
  (repeat' (first | (with_reducible assumption) | (with_reducible apply keeps_setHedge) | (fail_if_no_progress with_reducible apply keeps_mk)))

theorem keeps_pairRefused {s₀ : State} {s : State} {reason : Nat} (hk : Keeps s₀ s) : Keeps s₀ (State.pairRefused s reason) := by
  unfold State.pairRefused
  (repeat' (first | (with_reducible assumption) | (with_reducible apply keeps_ite) | (with_reducible apply keeps_raise) | (with_reducible apply keeps_hlog) | (with_reducible apply keeps_put) | (with_reducible apply keeps_fallBack) | (fail_if_no_progress with_reducible apply keeps_mk)))

theorem keeps_sendHeartbeat {s₀ : State} {s : State} {n : Nat} (hk : Keeps s₀ s) : Keeps s₀ (State.sendHeartbeat s n) := by
  unfold State.sendHeartbeat
  (repeat' (first | (with_reducible assumption) | (with_reducible apply keeps_ite) | (with_reducible apply keeps_sendLink)))

theorem keeps_leaveFenced {s₀ : State} {s : State} (hk : Keeps s₀ s) : Keeps s₀ (State.leaveFenced s) := by
  unfold State.leaveFenced
  (repeat' (first | (with_reducible assumption) | (with_reducible apply keeps_ite) | (with_reducible apply keeps_fallBack) | (with_reducible apply keeps_setHedge) | (with_reducible apply keeps_fence) | (split)))

theorem keeps_pruneHedge {s₀ : State} {s : State} (hk : Keeps s₀ s) : Keeps s₀ (State.pruneHedge s) := by
  unfold State.pruneHedge
  (repeat' (first | (with_reducible assumption) | (fail_if_no_progress with_reducible apply keeps_mk)))

theorem keeps_shadowRun {s₀ : State} {s : State} {f : Nat} {m : Nat} {bad : Bool} (hk : Keeps s₀ s) : Keeps s₀ (State.shadowRun s f m bad) := by
  unfold State.shadowRun
  (repeat' (first | (with_reducible assumption) | (with_reducible apply keeps_ite) | (with_reducible apply keeps_raise) | (fail_if_no_progress with_reducible apply keeps_mk)))

theorem keeps_compare {s₀ : State} {s : State} {m : Nat} {f : Nat} {own : Option Digest} {his : Option DigestRec} (hk : Keeps s₀ s) : Keeps s₀ (State.compare s m f own his) := by
  unfold State.compare
  (repeat' (first | (with_reducible assumption) | (with_reducible apply keeps_ite) | (with_reducible apply keeps_bump) | (with_reducible apply keeps_shadowRun) | (split)))

theorem keeps_shadow {s₀ : State} {s : State} {m : Nat} {l : List DigestRec} (hk : Keeps s₀ s) : Keeps s₀ (State.shadow s m l) := by
  unfold State.shadow
  (repeat' (first | (intro) | (with_reducible assumption) | (with_reducible apply keeps_compare) | (fail_if_no_progress with_reducible apply keeps_mk) | (with_reducible apply keeps_foldl)))

theorem keeps_shadowMissed {s₀ : State} {s : State} {n : Nat} (hk : Keeps s₀ s) : Keeps s₀ (State.shadowMissed s n) := by
  unfold State.shadowMissed
  (repeat' (first | (with_reducible assumption) | (with_reducible apply keeps_ite) | (with_reducible apply keeps_shadow)))

theorem keeps_execHello {s₀ : State} {verMin : Fin 256} {verMax : Fin 256} {showHash : BitVec 384} {m : HelloMsg} {s : State} (hk : Keeps s₀ s) : KeepsO s₀ (execHello verMin verMax showHash m s) := by
  unfold execHello
  (repeat' (first | (with_reducible assumption) | (with_reducible apply keepsO_ok) | (with_reducible apply keepsO_ite) | (with_reducible apply keeps_pairRefused) | (with_reducible apply keeps_raise) | (with_reducible apply keeps_put) | (fail_if_no_progress with_reducible apply keeps_mk) | (extract_lets -underBinder +onlyGivenNames sx; refine (have kx : Keeps s₀ sx := ?_; ?_); dsimp -zeta only [sx]; rotate_left; clear_value sx; rotate_right) | (extract_lets -underBinder +onlyGivenNames sx; clear_value sx) | (split)))

theorem keeps_execHeartbeat {s₀ : State} {offset : Nat} {m : HeartbeatMsg} {s : State} (hk : Keeps s₀ s) : KeepsO s₀ (execHeartbeat offset m s) := by
  unfold execHeartbeat
  (repeat' (first | (intro) | (with_reducible assumption) | (with_reducible apply keepsO_ok) | (with_reducible apply keeps_ite) | (with_reducible apply keepsO_ite) | (with_reducible apply keeps_when) | (with_reducible apply keeps_moment) | (with_reducible apply keeps_wrWords) | (with_reducible apply keeps_fence) | (with_reducible apply keeps_put) | (with_reducible apply keeps_shadow) | (fail_if_no_progress with_reducible apply keeps_mk)))

theorem keeps_changed {s₀ : State} {s : State} {table : Nat} {index : Nat} (hk : Keeps s₀ s) : Keeps s₀ (State.changed s table index) := by
  unfold State.changed
  (repeat' (first | (with_reducible assumption) | (with_reducible apply keeps_noteChange_eq (by assumption)) | (split)))

theorem keeps_applyWord {s₀ : State} {s : State} {k : Nat} {v : Nat} (hk : Keeps s₀ s) : Keeps s₀ (State.applyWord s k v) := by
  unfold State.applyWord
  (repeat' (first | (with_reducible assumption) | (with_reducible apply keeps_ite) | (with_reducible apply keeps_wr) | (with_reducible apply keeps_changed) | (with_reducible apply keeps_stageEntry) | (with_reducible apply keeps_flowWritten)))

theorem keeps_noteKey {s₀ : State} {s : State} {slot : Nat} {bad : Bool} (hk : Keeps s₀ s) : Keeps s₀ (State.noteKey s slot bad) := by
  unfold State.noteKey
  (repeat' (first | (with_reducible assumption) | (fail_if_no_progress with_reducible apply keeps_mk)))

theorem keeps_applyCarried {s₀ : State} {s : State} {t : Nat} {op : CarriedOp} (hk : Keeps s₀ s) : Keeps s₀ (State.applyCarried s t op) := by
  unfold State.applyCarried
  (repeat' (first | (intro) | (with_reducible assumption) | (with_reducible apply keeps_ite) | (with_reducible apply keeps_applyWord) | (with_reducible apply keeps_scheduleAdd) | (with_reducible apply keeps_scheduleRemove) | (with_reducible apply keeps_put) | (with_reducible apply keeps_lpmInsertOp) | (with_reducible apply keeps_lpmDeleteOp) | (with_reducible apply keeps_insertStaticOp) | (with_reducible apply keeps_deleteStaticOp) | (with_reducible apply keeps_requestGain) | (with_reducible apply keeps_scheduleRearm) | (with_reducible apply keeps_acceptLimit) | (with_reducible apply keeps_acceptSideband) | (with_reducible apply keeps_setGap) | (with_reducible apply keeps_scheduleRewrite) | (with_reducible apply keeps_noteKey) | (with_reducible apply keeps_loadSlot) | (with_reducible apply keeps_scheduleErase) | (with_reducible apply keeps_acceptVlan) | (fail_if_no_progress with_reducible apply keeps_mk) | (with_reducible apply keeps_foldl) | (split)))

theorem keeps_execCarriedCommand {s₀ : State} {seq : Word} {tick : Fin 281474976710656} {op : CarriedOp} {s : State} (hk : Keeps s₀ s) : KeepsO s₀ (execCarriedCommand seq tick op s) := by
  unfold execCarriedCommand
  (repeat' (first | (with_reducible assumption) | (with_reducible apply keepsO_ok) | (with_reducible apply keeps_ite) | (with_reducible apply keepsO_ite) | (with_reducible apply keeps_setGap) | (with_reducible apply keeps_put) | (with_reducible apply keeps_applyCarried) | (extract_lets -underBinder +onlyGivenNames sx; refine (have kx : Keeps s₀ sx := ?_; ?_); dsimp -zeta only [sx]; rotate_left; clear_value sx; rotate_right) | (extract_lets -underBinder +onlyGivenNames sx; clear_value sx) | (split)))

theorem keeps_execHostMirror {s₀ : State} {ring : Fin 131072} {seq : Nat} {pkt : Bytes} {s : State} (hk : Keeps s₀ s) : KeepsO s₀ (execHostMirror ring seq pkt s) := by
  unfold execHostMirror
  (repeat' (first | (with_reducible assumption) | (with_reducible apply keepsO_ok) | (with_reducible apply keepsO_ite) | (fail_if_no_progress with_reducible apply keeps_mk)))

theorem keeps_execLayerBulk {s₀ : State} {s : State} (hk : Keeps s₀ s) : KeepsO s₀ (execLayerBulk s) := by
  unfold execLayerBulk
  (repeat' (first | (with_reducible assumption) | (with_reducible apply keepsO_ok) | (with_reducible apply keepsO_ite) | (with_reducible apply keeps_sendLink) | (with_reducible apply keeps_setGap) | (with_reducible apply keeps_setHedge) | (fail_if_no_progress with_reducible apply keeps_mk)))

theorem keeps_layerKey {s₀ : State} {s : State} {slot : Nat} {blob : Bytes} (hk : Keeps s₀ s) : Keeps s₀ (State.layerKey s slot blob) := by
  unfold State.layerKey
  (repeat' (first | (with_reducible assumption) | (with_reducible apply keeps_noteKey) | (with_reducible apply keeps_setSlot) | (extract_lets -underBinder +onlyGivenNames sx; clear_value sx) | (split)))

theorem keeps_recountPools {s₀ : State} {s : State} (hk : Keeps s₀ s) : Keeps s₀ (State.recountPools s) := by
  unfold State.recountPools
  (repeat' (first | (intro) | (with_reducible assumption) | (with_reducible apply keeps_resetWords) | (with_reducible apply keeps_takePools) | (with_reducible apply keeps_poolTake) | (with_reducible apply keeps_recountClassifier) | (with_reducible apply keeps_foldl)))

theorem keeps_execBulkDone {s₀ : State} {m : BulkMsg} {s : State} (hk : Keeps s₀ s) : KeepsO s₀ (execBulkDone m s) := by
  unfold execBulkDone
  (repeat' (first | (intro) | (with_reducible assumption) | (with_reducible apply keepsO_ok) | (with_reducible apply keepsO_ite) | (with_reducible apply keeps_wr) | (with_reducible apply keeps_layerKey) | (with_reducible apply keeps_shadowWrite) | (with_reducible apply keeps_applyCarried) | (with_reducible apply keeps_recountPools) | (with_reducible apply keeps_countSlots) | (with_reducible apply keeps_driveSideband) | (with_reducible apply keeps_put) | (fail_if_no_progress with_reducible apply keeps_mk) | (with_reducible apply keeps_foldl)))

theorem keeps_execDeltaDone {s₀ : State} {m : SettleMsg} {s : State} (hk : Keeps s₀ s) : KeepsO s₀ (execDeltaDone m s) := by
  unfold execDeltaDone
  (repeat' (first | (intro) | (with_reducible assumption) | (with_reducible apply keepsO_ok) | (with_reducible apply keepsO_ite) | (with_reducible apply keeps_sendLink) | (with_reducible apply keeps_setRt) | (fail_if_no_progress with_reducible apply keeps_mk) | (with_reducible apply keeps_foldl)))

theorem keeps_execLayerDone {s₀ : State} {s : State} (hk : Keeps s₀ s) : KeepsO s₀ (execLayerDone s) := by
  unfold execLayerDone
  (repeat' (first | (with_reducible assumption) | (with_reducible apply keepsO_ok) | (with_reducible apply keepsO_ite) | (with_reducible apply keeps_raise) | (with_reducible apply keeps_put) | (with_reducible apply keeps_setHedge) | (with_reducible apply keeps_leaveFenced) | (fail_if_no_progress with_reducible apply keeps_mk)))

theorem keeps_execPartnerLost {s₀ : State} {s : State} (hk : Keeps s₀ s) : KeepsO s₀ (execPartnerLost s) := by
  unfold execPartnerLost
  (repeat' (first | (with_reducible assumption) | (with_reducible apply keepsO_ok) | (with_reducible apply keeps_ite) | (with_reducible apply keepsO_ite) | (with_reducible apply keeps_put) | (with_reducible apply keeps_raise) | (with_reducible apply keeps_leaveFenced) | (with_reducible apply keeps_setHedge) | (fail_if_no_progress with_reducible apply keeps_mk)))

theorem keeps_refreshDown {s₀ : State} {s : State} (hk : Keeps s₀ s) : Keeps s₀ (State.refreshDown s) := by
  unfold State.refreshDown
  (repeat' (first | (intro) | (with_reducible assumption) | (with_reducible apply keeps_put) | (with_reducible apply keeps_foldl)))

theorem keeps_execHealthReport {s₀ : State} {s : State} (hk : Keeps s₀ s) : KeepsO s₀ (execHealthReport s) := by
  unfold execHealthReport
  (repeat' (first | (intro) | (with_reducible assumption) | (with_reducible apply keepsO_ok) | (with_reducible apply keepsO_ite) | (with_reducible apply keeps_when) | (with_reducible apply keeps_refreshDown) | (with_reducible apply keeps_wrWords) | (with_reducible apply keeps_raise) | (fail_if_no_progress with_reducible apply keeps_mk)))

theorem keeps_execHedgeLinkUp {s₀ : State} {verMin : Fin 256} {verMax : Fin 256} {link : Word} {s : State} (hk : Keeps s₀ s) : KeepsO s₀ (execHedgeLinkUp verMin verMax link s) := by
  unfold execHedgeLinkUp
  (repeat' (first | (with_reducible assumption) | (with_reducible apply keepsO_ok) | (with_reducible apply keepsO_ite) | (with_reducible apply keeps_put) | (with_reducible apply keeps_sendLink) | (fail_if_no_progress with_reducible apply keeps_mk)))

theorem keeps_execWitClkLoss {s₀ : State} {s : State} (hk : Keeps s₀ s) : KeepsO s₀ (execWitClkLoss s) := by
  unfold execWitClkLoss
  (repeat' (first | (with_reducible assumption) | (with_reducible apply keepsO_ok) | (fail_if_no_progress with_reducible apply keeps_mk)))

theorem keeps_execWitClkRecovered {s₀ : State} {s : State} (hk : Keeps s₀ s) : KeepsO s₀ (execWitClkRecovered s) := by
  unfold execWitClkRecovered
  (repeat' (first | (with_reducible assumption) | (with_reducible apply keepsO_ok) | (fail_if_no_progress with_reducible apply keeps_mk)))

end Sys2Proof.Machine
end

