-- ==== Sys2Proof/Laws/KeepsSlot.lean ====
section
/-! SUPPORT. `Keeps`, for every function of Machine/Slot.lean. -/

set_option linter.all false
set_option simprocs false

namespace Sys2Proof.Machine

theorem keeps_slotDark {s₀ : State} {s : State} {st : Nat} (hk : Keeps s₀ s) : Keeps s₀ (State.slotDark s st) := by
  unfold State.slotDark
  (repeat' (first | (intro) | (with_reducible assumption) | (with_reducible apply keeps_when) | (with_reducible apply keeps_put) | (fail_if_no_progress with_reducible apply keeps_mk) | (with_reducible apply keeps_foldl)))

theorem keeps_slotPower {s₀ : State} {s : State} (hk : Keeps s₀ s) : Keeps s₀ (State.slotPower s) := by
  unfold State.slotPower
  (repeat' (first | (with_reducible assumption) | (with_reducible apply keeps_put)))

theorem keeps_powerOn {s₀ : State} {s : State} {r : Requester} (hk : Keeps s₀ s) : Keeps s₀ (State.powerOn s r) := by
  unfold State.powerOn
  (repeat' (first | (with_reducible assumption) | (with_reducible apply keeps_ite) | (with_reducible apply keeps_slotPower) | (with_reducible apply keeps_put)))

theorem keeps_startRemoval {s₀ : State} {s : State} (hk : Keeps s₀ s) : Keeps s₀ (State.startRemoval s) := by
  unfold State.startRemoval
  (repeat' (first | (with_reducible assumption) | (with_reducible apply keeps_shutdownWhenIdle) | (with_reducible apply keeps_put) | (fail_if_no_progress with_reducible apply keeps_mk)))

theorem keeps_slotRemove {s₀ : State} {s : State} {r : Requester} (hk : Keeps s₀ s) : Keeps s₀ (State.slotRemove s r) := by
  unfold State.slotRemove
  (repeat' (first | (with_reducible assumption) | (with_reducible apply keeps_ite) | (with_reducible apply keeps_startRemoval) | (with_reducible apply keeps_put)))

theorem keeps_setRec {s₀ : State} {s : State} {x : RecRt} (hk : Keeps s₀ s) : Keeps s₀ (State.setRec s x) := by
  unfold State.setRec
  (repeat' (first | (with_reducible assumption) | (fail_if_no_progress with_reducible apply keeps_mk)))

theorem keeps_recCmd {s₀ : State} {s : State} {r : Requester} {op : Nat} {k : Nat} (hk : Keeps s₀ s) : Keeps s₀ (State.recCmd s r op k) := by
  unfold State.recCmd
  (repeat' (first | (with_reducible assumption) | (with_reducible apply keeps_ite) | (with_reducible apply keeps_put) | (with_reducible apply keeps_poolTake) | (with_reducible apply keeps_setRec) | (dsimp -zeta only) | (split)))

theorem keeps_writeRecording {s₀ : State} {s : State} {r : Requester} {k : Nat} {word : Nat} {v : Nat} (hk : Keeps s₀ s) : Keeps s₀ (State.writeRecording s r k word v) := by
  unfold State.writeRecording
  (repeat' (first | (with_reducible assumption) | (with_reducible apply keeps_ite) | (with_reducible apply keeps_writeWord)))

theorem keeps_onSlot {s₀ : State} {s : State} {f : State → State} (hk : Keeps s₀ s) (hk_f : ∀ (x0 : State), Keeps s₀ x0 → Keeps s₀ (f x0)) : KeepsO s₀ (State.onSlot s f) := by
  unfold State.onSlot
  (repeat' (first | (with_reducible assumption) | (with_reducible apply keepsO_ok) | (with_reducible apply keeps_ite) | (with_reducible apply hk_f)))

theorem keeps_execDriveRequestUr {s₀ : State} {s : State} (hk : Keeps s₀ s) : KeepsO s₀ (execDriveRequestUr s) := by
  unfold execDriveRequestUr
  (repeat' (first | (intro) | (with_reducible assumption) | (with_reducible apply keeps_onSlot) | (with_reducible apply keeps_emit) | (with_reducible apply keeps_bump)))

theorem keeps_presence {s₀ : State} {s : State} {b : Bool} (hk : Keeps s₀ s) : Keeps s₀ (State.presence s b) := by
  unfold State.presence
  (repeat' (first | (with_reducible assumption) | (with_reducible apply keeps_raise) | (with_reducible apply keeps_put)))

theorem keeps_execPresenceStable {s₀ : State} {s : State} (hk : Keeps s₀ s) : KeepsO s₀ (execPresenceStable s) := by
  unfold execPresenceStable
  (repeat' (first | (intro) | (with_reducible assumption) | (with_reducible apply keeps_ite) | (with_reducible apply keeps_onSlot) | (with_reducible apply keeps_presence) | (with_reducible apply keeps_put) | (with_reducible apply keeps_slotPower)))

theorem keeps_driveGone {s₀ : State} {s : State} (hk : Keeps s₀ s) : Keeps s₀ (State.driveGone s) := by
  unfold State.driveGone
  (repeat' (first | (with_reducible assumption) | (with_reducible apply keeps_raise) | (with_reducible apply keeps_bump) | (with_reducible apply keeps_finishAll)))

theorem keeps_execPresenceLost {s₀ : State} {s : State} (hk : Keeps s₀ s) : KeepsO s₀ (execPresenceLost s) := by
  unfold execPresenceLost
  (repeat' (first | (intro) | (with_reducible assumption) | (with_reducible apply keeps_ite) | (with_reducible apply keeps_when) | (with_reducible apply keeps_onSlot) | (with_reducible apply keeps_presence) | (with_reducible apply keeps_driveGone) | (with_reducible apply keeps_slotDark)))

theorem keeps_execAttentionButton {s₀ : State} {s : State} (hk : Keeps s₀ s) : KeepsO s₀ (execAttentionButton s) := by
  unfold execAttentionButton
  (repeat' (first | (intro) | (with_reducible assumption) | (with_reducible apply keeps_ite) | (with_reducible apply keeps_onSlot) | (with_reducible apply keeps_raise) | (with_reducible apply keeps_put) | (fail_if_no_progress with_reducible apply keeps_mk)))

theorem keeps_execRemovalWindowEnd {s₀ : State} {s : State} (hk : Keeps s₀ s) : KeepsO s₀ (execRemovalWindowEnd s) := by
  unfold execRemovalWindowEnd
  (repeat' (first | (intro) | (with_reducible assumption) | (with_reducible apply keeps_ite) | (with_reducible apply keeps_onSlot) | (with_reducible apply keeps_startRemoval)))

theorem keeps_execPowerOn {s₀ : State} {r : Requester} {s : State} (hk : Keeps s₀ s) : KeepsO s₀ (execPowerOn r s) := by
  unfold execPowerOn
  (repeat' (first | (with_reducible assumption) | (with_reducible apply keepsO_ok) | (with_reducible apply keeps_powerOn)))

theorem keeps_execSlotRemove {s₀ : State} {r : Requester} {s : State} (hk : Keeps s₀ s) : KeepsO s₀ (execSlotRemove r s) := by
  unfold execSlotRemove
  (repeat' (first | (with_reducible assumption) | (with_reducible apply keepsO_ok) | (with_reducible apply keeps_slotRemove)))

theorem keeps_slotFault {s₀ : State} {s : State} {cause : Nat} (hk : Keeps s₀ s) : Keeps s₀ (State.slotFault s cause) := by
  unfold State.slotFault
  (repeat' (first | (with_reducible assumption) | (with_reducible apply keeps_raise) | (with_reducible apply keeps_put) | (with_reducible apply keeps_slotDark)))

theorem keeps_execPowerFault {s₀ : State} {s : State} (hk : Keeps s₀ s) : KeepsO s₀ (execPowerFault s) := by
  unfold execPowerFault
  (repeat' (first | (intro) | (with_reducible assumption) | (with_reducible apply keeps_ite) | (with_reducible apply keeps_onSlot) | (with_reducible apply keeps_put) | (with_reducible apply keeps_slotFault) | (with_reducible apply keeps_driveGone)))

theorem keeps_execSlotPerstRelease {s₀ : State} {s : State} (hk : Keeps s₀ s) : KeepsO s₀ (execSlotPerstRelease s) := by
  unfold execSlotPerstRelease
  (repeat' (first | (intro) | (with_reducible assumption) | (with_reducible apply keeps_ite) | (with_reducible apply keeps_onSlot) | (with_reducible apply keeps_put)))

theorem keeps_execSlotTrainingDone {s₀ : State} {speed : Fin 6} {width : Fin 9} {s : State} (hk : Keeps s₀ s) : KeepsO s₀ (execSlotTrainingDone speed width s) := by
  unfold execSlotTrainingDone
  (repeat' (first | (intro) | (with_reducible assumption) | (with_reducible apply keeps_ite) | (with_reducible apply keeps_onSlot) | (with_reducible apply keeps_slotFault) | (with_reducible apply keeps_put)))

theorem keeps_matchNs {s₀ : State} {s : State} {l : List DriveNs} {i : Nat} (hk : Keeps s₀ s) : Keeps s₀ (State.matchNs s l i) := by
  unfold State.matchNs
  (repeat' (first | (with_reducible assumption) | (with_reducible apply keeps_ite) | (with_reducible apply keeps_put) | (with_reducible apply keeps_raise) | (split)))

theorem keeps_execIdentifyDone {s₀ : State} {namespaces : List DriveNs} {s : State} (hk : Keeps s₀ s) : KeepsO s₀ (execIdentifyDone namespaces s) := by
  unfold execIdentifyDone
  (repeat' (first | (intro) | (with_reducible assumption) | (with_reducible apply keeps_ite) | (with_reducible apply keeps_onSlot) | (with_reducible apply keeps_matchNs) | (with_reducible apply keeps_raise) | (with_reducible apply keeps_put) | (with_reducible apply keeps_foldl)))

theorem keeps_execShutdownComplete {s₀ : State} {s : State} (hk : Keeps s₀ s) : KeepsO s₀ (execShutdownComplete s) := by
  unfold execShutdownComplete
  (repeat' (first | (intro) | (with_reducible assumption) | (with_reducible apply keeps_ite) | (with_reducible apply keeps_onSlot) | (with_reducible apply keeps_put) | (with_reducible apply keeps_slotDark)))

theorem keeps_execSlotLinkDown {s₀ : State} {s : State} (hk : Keeps s₀ s) : KeepsO s₀ (execSlotLinkDown s) := by
  unfold execSlotLinkDown
  (repeat' (first | (intro) | (with_reducible assumption) | (with_reducible apply keeps_ite) | (with_reducible apply keeps_onSlot) | (with_reducible apply keeps_takeFree) | (with_reducible apply keeps_slotFault) | (with_reducible apply keeps_driveGone)))

theorem keeps_execRecordingWrite {s₀ : State} {r : Requester} {rec_ : Fin 64} {word : Fin 64} {v : Word} {s : State} (hk : Keeps s₀ s) : KeepsO s₀ (execRecordingWrite r rec_ word v s) := by
  unfold execRecordingWrite
  (repeat' (first | (with_reducible assumption) | (with_reducible apply keepsO_ok) | (with_reducible apply keeps_writeRecording)))

theorem keeps_execRecStart {s₀ : State} {r : Requester} {rec_ : Fin 64} {s : State} (hk : Keeps s₀ s) : KeepsO s₀ (execRecStart r rec_ s) := by
  unfold execRecStart
  (repeat' (first | (with_reducible assumption) | (with_reducible apply keepsO_ok) | (with_reducible apply keeps_recCmd)))

theorem keeps_execRecStop {s₀ : State} {r : Requester} {rec_ : Fin 64} {s : State} (hk : Keeps s₀ s) : KeepsO s₀ (execRecStop r rec_ s) := by
  unfold execRecStop
  (repeat' (first | (with_reducible assumption) | (with_reducible apply keepsO_ok) | (with_reducible apply keeps_recCmd)))

theorem keeps_execRecStarted {s₀ : State} {rec_ : Fin 64} {s : State} (hk : Keeps s₀ s) : KeepsO s₀ (execRecStarted rec_ s) := by
  unfold execRecStarted
  (repeat' (first | (with_reducible assumption) | (with_reducible apply keepsO_ok) | (with_reducible apply keepsO_ite) | (with_reducible apply keeps_put) | (with_reducible apply keeps_raise) | (extract_lets -underBinder +onlyGivenNames sx; clear_value sx) | (split)))

theorem keeps_recIdle {s₀ : State} {s : State} {k : Nat} (hk : Keeps s₀ s) : Keeps s₀ (State.recIdle s k) := by
  unfold State.recIdle
  (repeat' (first | (with_reducible assumption) | (with_reducible apply keeps_ite) | (with_reducible apply keeps_poolGive) | (with_reducible apply keeps_put) | (with_reducible apply keeps_takeFree) | (with_reducible apply keeps_raise) | (fail_if_no_progress with_reducible apply keeps_mk) | (extract_lets -underBinder +onlyGivenNames sx; clear_value sx) | (dsimp -zeta only) | (split)))

theorem keeps_execStopEffective {s₀ : State} {rec_ : Fin 64} {s : State} (hk : Keeps s₀ s) : KeepsO s₀ (execStopEffective rec_ s) := by
  unfold execStopEffective
  (repeat' (first | (with_reducible assumption) | (with_reducible apply keepsO_ok) | (with_reducible apply keepsO_ite) | (with_reducible apply keeps_recIdle) | (with_reducible apply keeps_put) | (extract_lets -underBinder +onlyGivenNames sx; clear_value sx) | (split)))

theorem keeps_recTick {s₀ : State} {s : State} {f : Nat} {t : Nat} (hk : Keeps s₀ s) : Keeps s₀ (State.recTick s f t).2 := by
  unfold State.recTick
  (repeat' (first | (with_reducible assumption) | (with_reducible apply keeps_takeFree) | (extract_lets -underBinder +onlyGivenNames sx; clear_value sx) | (dsimp -zeta only) | (split)))
theorem keeps_recTick_eq {s₀ : State} {s : State} {f : Nat} {t : Nat} {ra rt} (he : State.recTick s f t = (ra, rt)) (hk : Keeps s₀ s) : Keeps s₀ rt := by
  have := keeps_recTick (s := s) (f := f) (t := t) hk; rw [he] at this; exact this

theorem keeps_chunkBody {s₀ : State} {s : State} {k : Nat} {first : Nat} (hk : Keeps s₀ s) : Keeps s₀ (State.chunkBody s k first).2 := by
  unfold State.chunkBody
  (repeat' (first | (intro) | (with_reducible assumption) | (with_reducible apply keeps_recTick) | (with_reducible apply keeps_foldl_snd)))
theorem keeps_chunkBody_eq {s₀ : State} {s : State} {k : Nat} {first : Nat} {ra rt} (he : State.chunkBody s k first = (ra, rt)) (hk : Keeps s₀ s) : Keeps s₀ rt := by
  have := keeps_chunkBody (s := s) (k := k) (first := first) hk; rw [he] at this; exact this

theorem keeps_dropChunk {s₀ : State} {s : State} (hk : Keeps s₀ s) : Keeps s₀ (State.dropChunk s) := by
  unfold State.dropChunk
  (repeat' (first | (intro) | (with_reducible assumption) | (with_reducible apply keeps_oncePerTick) | (with_reducible apply keeps_bump) | (with_reducible apply keeps_raise)))

theorem keeps_writeChunk {s₀ : State} {s : State} {i : Nat} {nsid : Nat} {lba : Nat} {l : Bytes} {a5 : Nat} (hk : Keeps s₀ s) : Keeps s₀ (State.writeChunk s i nsid lba l a5) := by
  induction a5 generalizing s i nsid lba l with
  | zero => unfold State.writeChunk; (repeat' (first | (with_reducible assumption) | (with_reducible apply keeps_ite) | (with_reducible apply keeps_xtsBegin_eq (by assumption)) | (with_reducible apply keeps_emit) | (split)))
  | succ n ih => unfold State.writeChunk; (repeat' (first | (with_reducible apply ih) | (with_reducible assumption) | (with_reducible apply keeps_ite) | (with_reducible apply keeps_xtsBegin_eq (by assumption)) | (with_reducible apply keeps_emit) | (split)))

theorem keeps_chunkDueNow {s₀ : State} {s : State} {x : RecRt} {k : Nat} (hk : Keeps s₀ s) : Keeps s₀ (State.chunkDueNow s x k) := by
  unfold State.chunkDueNow
  (repeat' (first | (intro) | (with_reducible assumption) | (with_reducible apply keeps_ite) | (with_reducible apply keeps_when) | (with_reducible apply keeps_chunkBody) | (with_reducible apply keeps_dropChunk) | (with_reducible apply keeps_setRec) | (with_reducible apply keeps_bump) | (with_reducible apply keeps_writeChunk) | (with_reducible apply keeps_put) | (with_reducible apply keeps_recIdle) | (fail_if_no_progress with_reducible apply keeps_mk)))

theorem keeps_execChunkDue {s₀ : State} {rec_ : Fin 64} {s : State} (hk : Keeps s₀ s) : KeepsO s₀ (execChunkDue rec_ s) := by
  unfold execChunkDue
  (repeat' (first | (with_reducible assumption) | (with_reducible apply keepsO_ok) | (with_reducible apply keepsO_ite) | (with_reducible apply keeps_chunkDueNow) | (extract_lets -underBinder +onlyGivenNames sx; clear_value sx) | (split)))

theorem keeps_execChunkWritten {s₀ : State} {rec_ : Fin 64} {good : Bool} {s : State} (hk : Keeps s₀ s) : KeepsO s₀ (execChunkWritten rec_ good s) := by
  unfold execChunkWritten
  (repeat' (first | (with_reducible assumption) | (with_reducible apply keepsO_ok) | (with_reducible apply keeps_ite) | (with_reducible apply keepsO_ite) | (with_reducible apply keeps_setRec) | (with_reducible apply keeps_bump) | (with_reducible apply keeps_dropChunk) | (with_reducible apply keeps_shutdownWhenIdle) | (with_reducible apply keeps_recIdle) | (extract_lets -underBinder +onlyGivenNames sx; clear_value sx) | (split)))

theorem keeps_execCapToExpiry {s₀ : State} {s : State} (hk : Keeps s₀ s) : KeepsO s₀ (execCapToExpiry s) := by
  unfold execCapToExpiry
  (repeat' (first | (intro) | (with_reducible assumption) | (with_reducible apply keeps_ite) | (with_reducible apply keeps_onSlot) | (with_reducible apply keeps_slotFault)))

theorem keeps_execRemovalDrainTimeout {s₀ : State} {s : State} (hk : Keeps s₀ s) : KeepsO s₀ (execRemovalDrainTimeout s) := by
  unfold execRemovalDrainTimeout
  (repeat' (first | (intro) | (with_reducible assumption) | (with_reducible apply keeps_ite) | (with_reducible apply keeps_onSlot) | (with_reducible apply keeps_shutDrive) | (with_reducible apply keeps_finishAll)))

end Sys2Proof.Machine
end

