-- ==== Sys2Proof/Laws/KeepsFaults.lean ====
section
/-! SUPPORT. `Keeps`, for every function of Machine/Faults.lean. -/

set_option linter.all false
set_option simprocs false

namespace Sys2Proof.Machine

theorem keeps_resetCold {s₀ : State} {s : State} {r : Requester} {confirm : Nat} (hk : Keeps s₀ s) : Keeps s₀ (State.resetCold s r confirm) := by
  unfold State.resetCold
  (repeat' (first | (with_reducible assumption) | (with_reducible apply keeps_ite) | (with_reducible apply keeps_coldReset)))

theorem keeps_resetResult {s₀ : State} {s : State} {code : Nat} (hk : Keeps s₀ s) : Keeps s₀ (State.resetResult s code) := by
  unfold State.resetResult
  (repeat' (first | (with_reducible assumption) | (with_reducible apply keeps_put)))

theorem keeps_resetWarm {s₀ : State} {s : State} {r : Requester} {confirm : Nat} (hk : Keeps s₀ s) : Keeps s₀ (State.resetWarm s r confirm) := by
  unfold State.resetWarm
  (repeat' (first | (with_reducible assumption) | (with_reducible apply keeps_ite) | (with_reducible apply keeps_resetResult) | (with_reducible apply keeps_refreshFit) | (with_reducible apply keeps_put) | (fail_if_no_progress with_reducible apply keeps_mk_sup)))

theorem keeps_portsDark {s₀ : State} {s : State} (hk : Keeps s₀ s) : Keeps s₀ (State.portsDark s) := by
  unfold State.portsDark
  (repeat' (first | (intro) | (with_reducible assumption) | (with_reducible apply keeps_when) | (with_reducible apply keeps_put) | (with_reducible apply keeps_flushPort) | (with_reducible apply keeps_forgetPort) | (with_reducible apply keeps_autoFlush) | (with_reducible apply keeps_foldl)))

theorem keeps_unitDark {s₀ : State} {s : State} {u : Nat} (hk : Keeps s₀ s) : Keeps s₀ (State.unitDark s u) := by
  unfold State.unitDark
  (repeat' (first | (with_reducible assumption) | (with_reducible apply keeps_portsDark) | (with_reducible apply keeps_put) | (with_reducible apply keeps_slotDark) | (split)))

theorem keeps_clearTime {s₀ : State} {s : State} (hk : Keeps s₀ s) : Keeps s₀ (State.clearTime s) := by
  unfold State.clearTime
  (repeat' (first | (with_reducible assumption) | (with_reducible apply keeps_setSync) | (with_reducible apply keeps_put) | (fail_if_no_progress with_reducible apply keeps_mk)))

theorem keeps_clearPorts {s₀ : State} {s : State} (hk : Keeps s₀ s) : Keeps s₀ (State.clearPorts s) := by
  unfold State.clearPorts
  (repeat' (first | (intro) | (with_reducible assumption) | (with_reducible apply keeps_clearPauses) | (with_reducible apply keeps_abortTx) | (fail_if_no_progress with_reducible apply keeps_mk) | (with_reducible apply keeps_foldl)))

theorem keeps_clearHeads {s₀ : State} {s : State} (hk : Keeps s₀ s) : Keeps s₀ (State.clearHeads s) := by
  unfold State.clearHeads
  (repeat' (first | (intro) | (with_reducible assumption) | (with_reducible apply keeps_freeFrame) | (fail_if_no_progress with_reducible apply keeps_mk) | (with_reducible apply keeps_foldl)))

theorem keeps_clearBuffer {s₀ : State} {s : State} (hk : Keeps s₀ s) : Keeps s₀ (State.clearBuffer s) := by
  unfold State.clearBuffer
  (repeat' (first | (intro) | (with_reducible assumption) | (with_reducible apply keeps_ite) | (with_reducible apply keeps_abortTx) | (with_reducible apply keeps_dropQueued) | (with_reducible apply keeps_freeFrame) | (with_reducible apply keeps_put) | (fail_if_no_progress with_reducible apply keeps_mk) | (with_reducible apply keeps_foldl)))

theorem keeps_clearEgress {s₀ : State} {s : State} (hk : Keeps s₀ s) : Keeps s₀ (State.clearEgress s) := by
  unfold State.clearEgress
  (repeat' (first | (intro) | (with_reducible assumption) | (with_reducible apply keeps_setCredit) | (with_reducible apply keeps_abortTx) | (with_reducible apply keeps_dropQueued) | (with_reducible apply keeps_put) | (fail_if_no_progress with_reducible apply keeps_mk) | (with_reducible apply keeps_foldl)))

theorem keeps_clearHedge {s₀ : State} {s : State} (hk : Keeps s₀ s) : Keeps s₀ (State.clearHedge s) := by
  unfold State.clearHedge
  (repeat' (first | (intro) | (with_reducible assumption) | (with_reducible apply keeps_ite) | (with_reducible apply keeps_when) | (with_reducible apply keeps_setHedge) | (with_reducible apply keeps_setGap) | (fail_if_no_progress with_reducible apply keeps_mk)))

theorem keeps_clearTranslation {s₀ : State} {s : State} (hk : Keeps s₀ s) : Keeps s₀ (State.clearTranslation s) := by
  unfold State.clearTranslation
  (repeat' (first | (intro) | (with_reducible assumption) | (with_reducible apply keeps_when) | (with_reducible apply keeps_trackGive) | (with_reducible apply keeps_put) | (fail_if_no_progress with_reducible apply keeps_mk)))

theorem keeps_clearQueues {s₀ : State} {s : State} (hk : Keeps s₀ s) : Keeps s₀ (State.clearQueues s) := by
  unfold State.clearQueues
  (repeat' (first | (intro) | (with_reducible assumption) | (with_reducible apply keeps_abandonRing) | (fail_if_no_progress with_reducible apply keeps_mk) | (with_reducible apply keeps_foldl)))

theorem keeps_clearStorage {s₀ : State} {s : State} (hk : Keeps s₀ s) : Keeps s₀ (State.clearStorage s) := by
  unfold State.clearStorage
  (repeat' (first | (intro) | (with_reducible assumption) | (with_reducible apply keeps_setCommands) | (with_reducible apply keeps_failConn) | (with_reducible apply keeps_poolGive) | (with_reducible apply keeps_put) | (fail_if_no_progress with_reducible apply keeps_mk) | (with_reducible apply keeps_foldl)))

theorem keeps_clearUnit {s₀ : State} {s : State} {u : Nat} (hk : Keeps s₀ s) : Keeps s₀ (State.clearUnit s u) := by
  unfold State.clearUnit
  (repeat' (first | (with_reducible assumption) | (with_reducible apply keeps_clearTime) | (with_reducible apply keeps_clearPorts) | (with_reducible apply keeps_clearHeads) | (with_reducible apply keeps_clearBuffer) | (with_reducible apply keeps_clearEgress) | (with_reducible apply keeps_clearHedge) | (with_reducible apply keeps_enterStandalone) | (with_reducible apply keeps_clearTranslation) | (with_reducible apply keeps_clearQueues) | (with_reducible apply keeps_clearStorage) | (fail_if_no_progress with_reducible apply keeps_mk) | (extract_lets -underBinder +onlyGivenNames sx; refine (have kx : Keeps s₀ sx := ?_; ?_); dsimp -zeta only [sx]; rotate_left; clear_value sx; rotate_right) | (split)))

theorem keeps_dropFeature {s₀ : State} {s : State} {flows : List Nat} (hk : Keeps s₀ s) : Keeps s₀ (State.dropFeature s flows) := by
  unfold State.dropFeature
  (repeat' (first | (intro) | (with_reducible assumption) | (with_reducible apply keeps_ite) | (with_reducible apply keeps_markDown) | (with_reducible apply keeps_scheduleRemove) | (with_reducible apply keeps_foldl) | (split)))

theorem keeps_leaveRun {s₀ : State} {s : State} {u : Nat} {go : State → State} (hk : Keeps s₀ s) (hk_go : ∀ (x0 : State), Keeps s₀ x0 → Keeps s₀ (go x0)) : Keeps s₀ (State.leaveRun s u go) := by
  unfold State.leaveRun
  (repeat' (first | (intro) | (with_reducible assumption) | (with_reducible apply keeps_when) | (with_reducible apply hk_go) | (with_reducible apply keeps_unitDark) | (with_reducible apply keeps_clearUnit) | (with_reducible apply keeps_dropMedia) | (with_reducible apply keeps_dropFeature)))

theorem keeps_resetUnit {s₀ : State} {s : State} {r : Requester} {confirm : Nat} {u : Nat} (hk : Keeps s₀ s) : Keeps s₀ (State.resetUnit s r confirm u) := by
  unfold State.resetUnit
  (repeat' (first | (intro) | (with_reducible assumption) | (with_reducible apply keeps_ite) | (with_reducible apply keeps_resetResult) | (with_reducible apply keeps_put) | (with_reducible apply keeps_leaveRun) | (with_reducible apply keeps_setUnit) | (with_reducible apply keeps_powerUnit) | (fail_if_no_progress with_reducible apply keeps_mk_sup)))

theorem keeps_tempCheck {s₀ : State} {s : State} (hk : Keeps s₀ s) : Keeps s₀ (State.tempCheck s) := by
  unfold State.tempCheck
  (repeat' (first | (with_reducible assumption) | (with_reducible apply keeps_ite) | (with_reducible apply keeps_raise) | (fail_if_no_progress with_reducible apply keeps_mk_sup)))

theorem keeps_writeWarn {s₀ : State} {s : State} {r : Requester} {v : Nat} (hk : Keeps s₀ s) : Keeps s₀ (State.writeWarn s r v) := by
  unfold State.writeWarn
  (repeat' (first | (with_reducible assumption) | (with_reducible apply keeps_ite) | (with_reducible apply keeps_tempCheck) | (with_reducible apply keeps_writeWord)))

theorem keeps_loseUnit {s₀ : State} {s : State} {u : Nat} {code : Nat} (hk : Keeps s₀ s) : Keeps s₀ (State.loseUnit s u code) := by
  unfold State.loseUnit
  (repeat' (first | (intro) | (with_reducible assumption) | (with_reducible apply keeps_when) | (with_reducible apply keeps_leaveRun) | (with_reducible apply keeps_failUnit) | (with_reducible apply keeps_put)))

theorem keeps_execDlDown {s₀ : State} {how : LinkLoss} {s : State} (hk : Keeps s₀ s) : KeepsO s₀ (execDlDown how s) := by
  unfold execDlDown
  (repeat' (first | (intro) | (with_reducible assumption) | (with_reducible apply keepsO_ok) | (with_reducible apply keepsO_ite) | (with_reducible apply keeps_when) | (with_reducible apply keeps_linkGone) | (with_reducible apply keeps_enterStandalone) | (with_reducible apply keeps_resetFunctions) | (with_reducible apply keeps_loseUnit) | (split)))

theorem keeps_safeStop {s₀ : State} {s : State} {code : Nat} (hk : Keeps s₀ s) : Keeps s₀ (State.safeStop s code) := by
  unfold State.safeStop
  (repeat' (first | (with_reducible assumption) | (with_reducible apply keeps_ite) | (with_reducible apply keeps_fault) | (with_reducible apply keeps_hlog) | (with_reducible apply keeps_put) | (with_reducible apply keeps_fence) | (with_reducible apply keeps_raise)))

theorem keeps_execLockstepMismatch {s₀ : State} {s : State} (hk : Keeps s₀ s) : KeepsO s₀ (execLockstepMismatch s) := by
  unfold execLockstepMismatch
  (repeat' (first | (intro) | (with_reducible assumption) | (with_reducible apply keepsO_ok) | (with_reducible apply keeps_when) | (with_reducible apply keeps_safeStop)))

theorem keeps_execSafetyWdogExpiry {s₀ : State} {s : State} (hk : Keeps s₀ s) : KeepsO s₀ (execSafetyWdogExpiry s) := by
  unfold execSafetyWdogExpiry
  (repeat' (first | (intro) | (with_reducible assumption) | (with_reducible apply keepsO_ok) | (with_reducible apply keeps_when) | (with_reducible apply keeps_safeStop)))

theorem keeps_safeStopFree {s₀ : State} {s : State} (hk : Keeps s₀ s) : Keeps s₀ (State.safeStopFree s) := by
  unfold State.safeStopFree
  (repeat' (first | (with_reducible assumption) | (with_reducible apply keeps_takeFree) | (with_reducible apply keeps_safeStop)))

theorem keeps_execSafetyOrder {s₀ : State} {s : State} (hk : Keeps s₀ s) : KeepsO s₀ (execSafetyOrder s) := by
  unfold execSafetyOrder
  (repeat' (first | (with_reducible assumption) | (with_reducible apply keepsO_ok) | (with_reducible apply keeps_when) | (with_reducible apply keeps_safeStopFree)))

theorem keeps_execThermalTrip {s₀ : State} {s : State} (hk : Keeps s₀ s) : KeepsO s₀ (execThermalTrip s) := by
  unfold execThermalTrip
  (repeat' (first | (intro) | (with_reducible assumption) | (with_reducible apply keepsO_ok) | (with_reducible apply keeps_when) | (with_reducible apply keeps_safeStop)))

theorem keeps_execClockFault {s₀ : State} {pll : Option (Fin 17)} {s : State} (hk : Keeps s₀ s) : KeepsO s₀ (execClockFault pll s) := by
  unfold execClockFault
  (repeat' (first | (intro) | (with_reducible assumption) | (with_reducible apply keepsO_ok) | (with_reducible apply keepsO_ite) | (with_reducible apply keeps_put) | (with_reducible apply keeps_abortTx) | (with_reducible apply keeps_safeStop) | (fail_if_no_progress with_reducible apply keeps_mk) | (with_reducible apply keeps_foldl) | (split)))

theorem keeps_restartService {s₀ : State} {s : State} (hk : Keeps s₀ s) : Keeps s₀ (State.restartService s) := by
  unfold State.restartService
  (repeat' (first | (with_reducible assumption) | (with_reducible apply keeps_ite) | (with_reducible apply keeps_fault) | (with_reducible apply keeps_put) | (with_reducible apply keeps_raise) | (with_reducible apply keeps_hlog) | (with_reducible apply keeps_bumpSat) | (fail_if_no_progress with_reducible apply keeps_mk_sup)))

theorem keeps_execServiceHeartbeatMissed {s₀ : State} {s : State} (hk : Keeps s₀ s) : KeepsO s₀ (execServiceHeartbeatMissed s) := by
  unfold execServiceHeartbeatMissed
  (repeat' (first | (with_reducible assumption) | (with_reducible apply keepsO_ok) | (with_reducible apply keeps_when) | (with_reducible apply keeps_restartService)))

theorem keeps_loseFrame {s₀ : State} {s : State} {h : Nat} (hk : Keeps s₀ s) : Keeps s₀ (State.loseFrame s h) := by
  unfold State.loseFrame
  (repeat' (first | (intro) | (with_reducible assumption) | (with_reducible apply keeps_ite) | (with_reducible apply keeps_settle) | (with_reducible apply keeps_endFrame) | (with_reducible apply keeps_abortTx) | (with_reducible apply keeps_payDebt) | (with_reducible apply keeps_giveCredit) | (with_reducible apply keeps_newHead) | (with_reducible apply keeps_freeFrame) | (fail_if_no_progress with_reducible apply keeps_mk) | (with_reducible apply keeps_foldl)))

theorem keeps_stateBad {s₀ : State} {s : State} {u : Nat} (hk : Keeps s₀ s) : Keeps s₀ (State.stateBad s u) := by
  unfold State.stateBad
  (repeat' (first | (with_reducible assumption) | (with_reducible apply keeps_loseUnit) | (with_reducible apply keeps_put) | (fail_if_no_progress with_reducible apply keeps_mk_sup) | (split)))

theorem keeps_scrubBad {s₀ : State} {s : State} {a1 : ScrubPlace} (hk : Keeps s₀ s) : Keeps s₀ (State.scrubBad s a1) := by
  unfold State.scrubBad
  (repeat' (first | (with_reducible assumption) | (with_reducible apply keeps_ite) | (with_reducible apply keeps_loseFrame) | (with_reducible apply keeps_countSlots) | (with_reducible apply keeps_scheduleErase) | (with_reducible apply keeps_eraseStart) | (with_reducible apply keeps_put) | (with_reducible apply keeps_dropEntries) | (with_reducible apply keeps_fetchFail) | (with_reducible apply keeps_safeStopFree) | (with_reducible apply keeps_restartService) | (with_reducible apply keeps_stateBad) | (with_reducible apply keeps_bump) | (with_reducible apply keeps_recIdle) | (with_reducible apply keeps_dropChunk) | (with_reducible apply keeps_setRec) | (with_reducible apply keeps_replicaRepair) | (with_reducible apply keeps_recordRepair) | (fail_if_no_progress with_reducible apply keeps_mk) | (split)))

theorem keeps_execScrubVisit {s₀ : State} {found : ScrubFind} {pass : Bool} {s : State} (hk : Keeps s₀ s) : KeepsO s₀ (execScrubVisit found pass s) := by
  unfold execScrubVisit
  (repeat' (first | (intro) | (with_reducible assumption) | (with_reducible apply keepsO_ok) | (with_reducible apply keeps_when) | (with_reducible apply keeps_bump) | (with_reducible apply keeps_scrubBad) | (with_reducible apply keeps_eccUncorr) | (with_reducible apply keeps_put) | (fail_if_no_progress with_reducible apply keeps_mk_sup) | (split)))

theorem keeps_bistFail {s₀ : State} {s : State} {u : Nat} (hk : Keeps s₀ s) : Keeps s₀ (State.bistFail s u) := by
  unfold State.bistFail
  (repeat' (first | (with_reducible assumption) | (with_reducible apply keeps_loseUnit) | (with_reducible apply keeps_put)))

theorem keeps_execBistSlice {s₀ : State} {u : Fin 14} {pass : Bool} {rotation : Bool} {s : State} (hk : Keeps s₀ s) : KeepsO s₀ (execBistSlice u pass rotation s) := by
  unfold execBistSlice
  (repeat' (first | (intro) | (with_reducible assumption) | (with_reducible apply keepsO_ok) | (with_reducible apply keeps_ite) | (with_reducible apply keepsO_ite) | (with_reducible apply keeps_when) | (with_reducible apply keeps_bistFail) | (with_reducible apply keeps_put) | (fail_if_no_progress with_reducible apply keeps_mk_sup)))

theorem keeps_execTempUpdate {s₀ : State} {temps : List (BitVec 8)} {s : State} (hk : Keeps s₀ s) : KeepsO s₀ (execTempUpdate temps s) := by
  unfold execTempUpdate
  (repeat' (first | (with_reducible assumption) | (with_reducible apply keepsO_ok) | (with_reducible apply keeps_put) | (with_reducible apply keeps_tempCheck) | (split)))

theorem keeps_execResetCold {s₀ : State} {r : Requester} {confirm : Fin 4096} {s : State} (hk : Keeps s₀ s) : KeepsO s₀ (execResetCold r confirm s) := by
  unfold execResetCold
  (repeat' (first | (with_reducible assumption) | (with_reducible apply keepsO_ok) | (with_reducible apply keeps_resetCold)))

theorem keeps_execResetWarm {s₀ : State} {r : Requester} {confirm : Fin 4096} {s : State} (hk : Keeps s₀ s) : KeepsO s₀ (execResetWarm r confirm s) := by
  unfold execResetWarm
  (repeat' (first | (with_reducible assumption) | (with_reducible apply keepsO_ok) | (with_reducible apply keeps_resetWarm)))

theorem keeps_execResetUnit {s₀ : State} {r : Requester} {confirm : Fin 4096} {unit : Fin 16} {s : State} (hk : Keeps s₀ s) : KeepsO s₀ (execResetUnit r confirm unit s) := by
  unfold execResetUnit
  (repeat' (first | (with_reducible assumption) | (with_reducible apply keepsO_ok) | (with_reducible apply keeps_resetUnit)))

theorem keeps_execWarmResetEffective {s₀ : State} {s : State} (hk : Keeps s₀ s) : KeepsO s₀ (execWarmResetEffective s) := by
  unfold execWarmResetEffective
  (repeat' (first | (intro) | (with_reducible assumption) | (with_reducible apply keepsO_ok) | (with_reducible apply keepsO_ite) | (with_reducible apply keeps_when) | (with_reducible apply keeps_clearUnit) | (with_reducible apply keeps_put) | (with_reducible apply keeps_countTags) | (with_reducible apply keeps_endFlrs) | (with_reducible apply keeps_setUnit) | (with_reducible apply keeps_refreshFit) | (with_reducible apply keeps_pinsAtRun) | (fail_if_no_progress with_reducible apply keeps_mk) | (fail_if_no_progress with_reducible apply keeps_mk_sup) | (with_reducible apply keeps_foldl) | (extract_lets -underBinder +onlyGivenNames sx; clear_value sx) | (split)))

theorem keeps_execUnitResetDone {s₀ : State} {bistOk : Bool} {s : State} (hk : Keeps s₀ s) : KeepsO s₀ (execUnitResetDone bistOk s) := by
  unfold execUnitResetDone
  (repeat' (first | (intro) | (with_reducible assumption) | (with_reducible apply keepsO_ok) | (with_reducible apply keeps_ite) | (with_reducible apply keeps_when) | (with_reducible apply keeps_put) | (with_reducible apply keeps_setUnit) | (with_reducible apply keeps_pinsAtRun) | (with_reducible apply keeps_bistFail) | (fail_if_no_progress with_reducible apply keeps_mk_sup) | (split)))

theorem keeps_execServiceWaitTimeout {s₀ : State} {size : Nat} {s : State} (hk : Keeps s₀ s) : KeepsO s₀ (execServiceWaitTimeout size s) := by
  unfold execServiceWaitTimeout
  (repeat' (first | (with_reducible assumption) | (with_reducible apply keepsO_ok) | (fail_if_no_progress with_reducible apply keeps_mk_sup) | (split)))

end Sys2Proof.Machine
end

