-- ==== Sys2Proof/Laws/KeepsForm.lean ====
section
/-! SUPPORT. `Keeps`, for every function of Machine/Form.lean. -/

set_option linter.all false
set_option simprocs false

namespace Sys2Proof.Machine

theorem keeps_auditFail {s₀ : State} {s : State} {book : Nat} {diff : Int} (hk : Keeps s₀ s) : Keeps s₀ (State.auditFail s book diff) := by
  unfold State.auditFail
  (repeat' (first | (with_reducible assumption) | (with_reducible apply keeps_raise)))

theorem keeps_auditBuffer {s₀ : State} {s : State} {lost : List Nat} {lostHandles : Nat} {credits : List (Nat × Nat)} (hk : Keeps s₀ s) : Keeps s₀ (State.auditBuffer s lost lostHandles credits) := by
  unfold State.auditBuffer
  (repeat' (first | (intro) | (with_reducible assumption) | (with_reducible apply keeps_ite) | (with_reducible apply keeps_when) | (with_reducible apply keeps_put) | (with_reducible apply keeps_setCell) | (with_reducible apply keeps_trimFrames) | (with_reducible apply keeps_bump) | (with_reducible apply keeps_auditFail) | (with_reducible apply keeps_bookAudit) | (fail_if_no_progress with_reducible apply keeps_mk) | (with_reducible apply keeps_foldl)))

theorem keeps_storeOutput {s₀ : State} {s : State} {f : Nat} {copies : Nat} {a3 : List Bytes} {a4 : List Nat} (hk : Keeps s₀ s) : Keeps s₀ (State.storeOutput s f copies a3 a4).2 := by
  induction a3 generalizing s f copies a4 with
  | nil => unfold State.storeOutput; (repeat' (first | (intro) | (with_reducible assumption) | (with_reducible apply keeps_admitHead_eq (by assumption)) | (with_reducible apply keeps_freeFrame) | (with_reducible apply keeps_storeFrame) | (with_reducible apply keeps_foldl) | (extract_lets -underBinder +onlyGivenNames sx; clear_value sx) | (split)))
  | cons _ _ ih => unfold State.storeOutput; (repeat' (first | (with_reducible apply ih) | (with_reducible refine keeps_pair (ih ?_) (by with_reducible assumption)) | (intro) | (with_reducible assumption) | (with_reducible apply keeps_admitHead_eq (by assumption)) | (with_reducible apply keeps_freeFrame) | (with_reducible apply keeps_storeFrame) | (with_reducible apply keeps_foldl) | (extract_lets -underBinder +onlyGivenNames sx; clear_value sx) | (split)))
theorem keeps_storeOutput_eq {s₀ : State} {s : State} {f : Nat} {copies : Nat} {a3 : List Bytes} {a4 : List Nat} {ra rt} (he : State.storeOutput s f copies a3 a4 = (ra, rt)) (hk : Keeps s₀ s) : Keeps s₀ rt := by
  have := keeps_storeOutput (s := s) (f := f) (copies := copies) (a3 := a3) (a4 := a4) hk; rw [he] at this; exact this

theorem keeps_flowStep {s₀ : State} {s : State} {f : Nat} {m : Nat} {tick : Option (List (List Nat))} {heldIn : Bool} (hk : Keeps s₀ s) : Keeps s₀ (State.flowStep s f m tick heldIn).2 := by
  unfold State.flowStep
  (repeat' (first | (intro) | (with_reducible assumption) | (with_reducible apply keeps_when) | (with_reducible apply keeps_noteDigest) | (with_reducible apply keeps_setRt) | (with_reducible apply keeps_bumpSat)))
theorem keeps_flowStep_eq {s₀ : State} {s : State} {f : Nat} {m : Nat} {tick : Option (List (List Nat))} {heldIn : Bool} {ra rt} (he : State.flowStep s f m tick heldIn = (ra, rt)) (hk : Keeps s₀ s) : Keeps s₀ rt := by
  have := keeps_flowStep (s := s) (f := f) (m := m) (tick := tick) (heldIn := heldIn) hk; rw [he] at this; exact this

theorem keeps_addCopies {s₀ : State} {s : State} {l : List Copy} (hk : Keeps s₀ s) : Keeps s₀ (State.addCopies s l) := by
  unfold State.addCopies
  (repeat' (first | (with_reducible assumption) | (fail_if_no_progress with_reducible apply keeps_mk)))

theorem keeps_sendOutput {s₀ : State} {s : State} {f : Nat} {m : Nat} {tick : Option (List (List Nat))} {flags : Nat} {heldIn : Bool} (hk : Keeps s₀ s) : Keeps s₀ (State.sendOutput s f m tick flags heldIn) := by
  unfold State.sendOutput
  (repeat' (first | (with_reducible assumption) | (with_reducible apply keeps_storeOutput) | (with_reducible apply keeps_flowStep) | (with_reducible apply keeps_addCopies) | (extract_lets -underBinder +onlyGivenNames sx; clear_value sx) | (dsimp -zeta only) | (split)))

theorem keeps_termTick {s₀ : State} {s : State} {i : Nat} {n : Nat} {rate : Nat} {S : Nat} (hk : Keeps s₀ s) : Keeps s₀ (State.termTick s i n rate S).2 := by
  unfold State.termTick
  (repeat' (first | (intro) | (with_reducible assumption) | (fail_if_no_progress with_reducible apply keeps_mk) | (extract_lets -underBinder +onlyGivenNames sx; refine (have kx : ∀ a, Keeps s₀ (sx a) := ?_; ?_); dsimp -zeta only [sx]; rotate_left; clear_value sx; rotate_right) | (extract_lets -underBinder +onlyGivenNames sx; clear_value sx) | (with_reducible apply_assumption (exfalso := false) (symm := false)) | (dsimp -zeta only) | (split)))
theorem keeps_termTick_eq {s₀ : State} {s : State} {i : Nat} {n : Nat} {rate : Nat} {S : Nat} {ra rt} (he : State.termTick s i n rate S = (ra, rt)) (hk : Keeps s₀ s) : Keeps s₀ rt := by
  have := keeps_termTick (s := s) (i := i) (n := n) (rate := rate) (S := S) hk; rw [he] at this; exact this

theorem keeps_sumTerms {s₀ : State} {s : State} {n : Nat} {rate : Nat} {S : Nat} {a4 : List Nat} (hk : Keeps s₀ s) : Keeps s₀ (State.sumTerms s n rate S a4).2 := by
  induction a4 generalizing s n rate S with
  | nil => unfold State.sumTerms; (repeat' (first | (with_reducible assumption) | (with_reducible apply keeps_termTick)))
  | cons _ _ ih => unfold State.sumTerms; (repeat' (first | (with_reducible apply ih) | (with_reducible refine keeps_pair (ih ?_) (by with_reducible assumption)) | (with_reducible assumption) | (with_reducible apply keeps_termTick)))
theorem keeps_sumTerms_eq {s₀ : State} {s : State} {n : Nat} {rate : Nat} {S : Nat} {a4 : List Nat} {ra rt} (he : State.sumTerms s n rate S a4 = (ra, rt)) (hk : Keeps s₀ s) : Keeps s₀ rt := by
  have := keeps_sumTerms (s := s) (n := n) (rate := rate) (S := S) (a4 := a4) hk; rw [he] at this; exact this

theorem keeps_bumpSatBy {s₀ : State} {s : State} {f : Field} {n : Nat} (hk : Keeps s₀ s) : Keeps s₀ (State.bumpSatBy s f n) := by
  unfold State.bumpSatBy
  (repeat' (first | (with_reducible assumption) | (with_reducible apply keeps_put)))

theorem keeps_settleGain {s₀ : State} {s : State} {i : Nat} {n : Nat} (hk : Keeps s₀ s) : Keeps s₀ (State.settleGain s i n) := by
  unfold State.settleGain
  (repeat' (first | (with_reducible assumption) | (with_reducible apply keeps_ite) | (with_reducible apply keeps_put) | (fail_if_no_progress with_reducible apply keeps_mk)))

theorem keeps_dropGain {s₀ : State} {s : State} {i : Nat} (hk : Keeps s₀ s) : Keeps s₀ (State.dropGain s i) := by
  unfold State.dropGain
  (repeat' (first | (with_reducible assumption) | (with_reducible apply keeps_put) | (fail_if_no_progress with_reducible apply keeps_mk)))

theorem keeps_formPoint {s₀ : State} {s : State} {p : Nat} {n : Nat} {unformed : Bool} (hk : Keeps s₀ s) : Keeps s₀ (State.formPoint s p n unformed) := by
  unfold State.formPoint
  (repeat' (first | (intro) | (with_reducible assumption) | (with_reducible apply keeps_ite) | (with_reducible apply keeps_bump) | (with_reducible apply keeps_bumpSat) | (with_reducible apply keeps_sendOutput) | (with_reducible apply keeps_raise) | (with_reducible apply keeps_sumTerms) | (with_reducible apply keeps_bumpSatBy) | (with_reducible apply keeps_settleGain) | (with_reducible apply keeps_dropGain) | (with_reducible apply keeps_foldl)))

theorem keeps_keepCopies {s₀ : State} {s : State} {h : Nat} {n : Nat} (hk : Keeps s₀ s) : Keeps s₀ (State.keepCopies s h n) := by
  unfold State.keepCopies
  (repeat' (first | (with_reducible assumption) | (with_reducible apply keeps_ite) | (with_reducible apply keeps_freeFrame) | (with_reducible apply keeps_setFrame) | (split)))

theorem keeps_formSwitched {s₀ : State} {s : State} {f : Nat} {n : Nat} (hk : Keeps s₀ s) : Keeps s₀ (State.formSwitched s f n) := by
  unfold State.formSwitched
  (repeat' (first | (intro) | (with_reducible assumption) | (with_reducible apply keeps_flowStep) | (with_reducible apply keeps_keepCopies) | (with_reducible apply keeps_addCopies) | (with_reducible apply keeps_foldl) | (extract_lets -underBinder +onlyGivenNames sx; clear_value sx) | (dsimp -zeta only) | (split)))

theorem keeps_formTick {s₀ : State} {s : State} {n : Nat} {unformed : List Nat} (hk : Keeps s₀ s) : Keeps s₀ (State.formTick s n unformed) := by
  unfold State.formTick
  (repeat' (first | (intro) | (with_reducible assumption) | (with_reducible apply keeps_eccUncorr) | (with_reducible apply keeps_crossMedia) | (with_reducible apply keeps_formPoint) | (with_reducible apply keeps_formSwitched) | (with_reducible apply keeps_freeFrame) | (with_reducible apply keeps_put) | (with_reducible apply keeps_takeFree) | (fail_if_no_progress with_reducible apply keeps_mk) | (with_reducible apply keeps_foldl)))

end Sys2Proof.Machine
end

