-- ==== Sys2Proof/Laws/KeepsLoad.lean ====
section
/-! SUPPORT. `Keeps`, for every function of Machine/Load.lean. -/

set_option linter.all false
set_option simprocs false

namespace Sys2Proof.Machine

theorem keeps_takeShadow {s₀ : State} {s : State} {part : ImagePart} (hk : Keeps s₀ s) : Keeps s₀ (State.takeShadow s part) := by
  unfold State.takeShadow
  (repeat' (first | (with_reducible assumption) | (with_reducible apply keeps_shadowWrite) | (fail_if_no_progress with_reducible apply keeps_mk)))

theorem keeps_loadBanks {s₀ : State} {s : State} {u : Nat} (hk : Keeps s₀ s) : Keeps s₀ (State.loadBanks s u) := by
  unfold State.loadBanks
  (repeat' (first | (intro) | (with_reducible assumption) | (with_reducible apply keeps_putRange) | (with_reducible apply keeps_foldl)))

theorem keeps_kekFail {s₀ : State} {s : State} {slot : Nat} (hk : Keeps s₀ s) : Keeps s₀ (State.kekFail s slot) := by
  unfold State.kekFail
  (repeat' (first | (with_reducible assumption) | (with_reducible apply keeps_raise) | (with_reducible apply keeps_hlog)))

theorem keeps_loadKeks {s₀ : State} {s : State} {b : Bytes} (hk : Keeps s₀ s) : Keeps s₀ (State.loadKeks s b) := by
  unfold State.loadKeks
  (repeat' (first | (intro) | (with_reducible assumption) | (with_reducible apply keeps_put) | (with_reducible apply keeps_kekFail) | (fail_if_no_progress with_reducible apply keeps_mk) | (with_reducible apply keeps_foldl) | (extract_lets -underBinder +onlyGivenNames sx; clear_value sx) | (split)))

theorem keeps_startHedge {s₀ : State} {s : State} (hk : Keeps s₀ s) : Keeps s₀ (State.startHedge s) := by
  unfold State.startHedge
  (repeat' (first | (intro) | (with_reducible assumption) | (with_reducible apply keeps_ite) | (with_reducible apply keeps_setHedge) | (with_reducible apply keeps_refreshTime) | (with_reducible apply keeps_pairRefused) | (with_reducible apply keeps_fence) | (with_reducible apply keeps_put) | (with_reducible apply keeps_foldl) | (split)))

theorem keeps_loadStarts {s₀ : State} {s : State} {u : Nat} {part : ImagePart} {graph : Bytes} {keks : Bytes} (hk : Keeps s₀ s) : Keeps s₀ (State.loadStarts s u part graph keks) := by
  unfold State.loadStarts
  (repeat' (first | (intro) | (with_reducible assumption) | (with_reducible apply keeps_ite) | (with_reducible apply keeps_setCapacities) | (with_reducible apply keeps_lockPll) | (with_reducible apply keeps_put) | (with_reducible apply keeps_powerUnit) | (with_reducible apply keeps_recountClassifier) | (with_reducible apply keeps_loadBanks) | (with_reducible apply keeps_countSlots) | (with_reducible apply keeps_loadKeks) | (with_reducible apply keeps_startHedge) | (fail_if_no_progress with_reducible apply keeps_mk) | (fail_if_no_progress with_reducible apply keeps_mk_sup) | (with_reducible apply keeps_foldl) | (split)))

theorem keeps_loadUnit {s₀ : State} {s : State} {slot : Nat} {u : Nat} {bistOk : Bool} {loadOk : Bool} {part : ImagePart} (hk : Keeps s₀ s) : Keeps s₀ (State.loadUnit s slot u bistOk loadOk part) := by
  unfold State.loadUnit
  (repeat' (first | (intro) | (with_reducible assumption) | (with_reducible apply keeps_ite) | (with_reducible apply keeps_when) | (with_reducible apply keeps_setUnit) | (with_reducible apply keeps_powerUnit) | (with_reducible apply keeps_takeShadow) | (with_reducible apply keeps_failUnit) | (with_reducible apply keeps_put) | (with_reducible apply keeps_wrAll) | (with_reducible apply keeps_loadStarts) | (with_reducible apply keeps_refreshFit) | (with_reducible apply keeps_pinsAtRun)))

theorem keeps_placeInitial {s₀ : State} {s : State} {isPoint : Bool} {id : Nat} (hk : Keeps s₀ s) : Keeps s₀ (State.placeInitial s isPoint id) := by
  unfold State.placeInitial
  (repeat' (first | (with_reducible assumption) | (with_reducible apply keeps_scheduleAdd) | (with_reducible apply keeps_put) | (with_reducible apply keeps_raise) | (with_reducible apply keeps_hlog) | (split)))

theorem keeps_finishLoad {s₀ : State} {s : State} (hk : Keeps s₀ s) : Keeps s₀ (State.finishLoad s) := by
  unfold State.finishLoad
  extract_lets a b secver _ c
  have hb : Keeps s₀ b := keeps_foldl (keeps_foldl hk fun _ _ => keeps_placeInitial) fun _ _ => keeps_placeInitial
  refine keeps_clearSkips (keeps_put (?_ : Keeps s₀ c))
  by_cases h : (b.sup.image.commit && decide (b.sup.otpSecver < secver)) = true
  · simp only [c, if_pos h]
    simp only [Bool.and_eq_true, decide_eq_true_eq] at h
    exact keeps_put (hb.trans ⟨rfl, id, List.suffix_refl _, Nat.le_refl _, rfl, rfl, fun _ => rfl, Nat.le_of_lt h.2⟩)
  · simp only [c, if_neg h]; exact hb

theorem keeps_execUnitLoad {s₀ : State} {u : Fin 14} {used : Bool} {bistOk : Bool} {loadOk : Bool} {part : ImagePart} {s : State} (hk : Keeps s₀ s) : KeepsO s₀ (execUnitLoad u used bistOk loadOk part s) := by
  unfold execUnitLoad
  (repeat' (first | (intro) | (with_reducible assumption) | (with_reducible apply keepsO_ok) | (with_reducible apply keeps_ite) | (with_reducible apply keepsO_ite) | (with_reducible apply keeps_when) | (with_reducible apply keeps_slotRetry) | (with_reducible apply keeps_setUnit) | (with_reducible apply keeps_powerUnit) | (with_reducible apply keeps_takeShadow) | (with_reducible apply keeps_loadUnit) | (with_reducible apply keeps_finishLoad) | (fail_if_no_progress with_reducible apply keeps_mk_sup) | (split)))

end Sys2Proof.Machine
end

