-- ==== Sys2Proof/Laws/KeepsPrograms.lean ====
section
/-! SUPPORT. `Keeps`, for every function of Machine/Programs.lean. -/

set_option linter.all false
set_option simprocs false

namespace Sys2Proof.Machine

theorem keeps_execProgWrite {s₀ : State} {r : Requester} {index : Fin 32768} {s : State} (hk : Keeps s₀ s) : KeepsO s₀ (execProgWrite r index s) := by
  unfold execProgWrite
  (repeat' (first | (intro) | (with_reducible assumption) | (with_reducible apply keepsO_ok) | (with_reducible apply keeps_ite) | (with_reducible apply keepsO_ite) | (with_reducible apply keeps_when) | (with_reducible apply keeps_localOnly) | (with_reducible apply keeps_put) | (with_reducible apply keeps_carry) | (with_reducible apply keeps_wrWords) | (with_reducible apply keeps_bump)))

theorem keeps_execProgRead {s₀ : State} {r : Requester} {index : Fin 32768} {s : State} (hk : Keeps s₀ s) : KeepsO s₀ (execProgRead r index s) := by
  unfold execProgRead
  (repeat' (first | (with_reducible assumption) | (with_reducible apply keepsO_ok) | (with_reducible apply keepsO_ite) | (with_reducible apply keeps_put) | (with_reducible apply keeps_wrWords)))

end Sys2Proof.Machine
end

