-- ==== Sys2Proof/Laws/KeepsShaping.lean ====
section
/-! SUPPORT. `Keeps`, for every function of Machine/Shaping.lean. -/

set_option linter.all false
set_option simprocs false

namespace Sys2Proof.Machine

theorem keeps_gateRefused {s₀ : State} {s : State} {code : Nat} {port : Nat} (hk : Keeps s₀ s) : Keeps s₀ (State.gateRefused s code port) := by
  unfold State.gateRefused
  (repeat' (first | (with_reducible assumption) | (with_reducible apply keeps_put) | (with_reducible apply keeps_raise)))

theorem keeps_gateCommit {s₀ : State} {s : State} {r : Requester} (hk : Keeps s₀ s) : Keeps s₀ (State.gateCommit s r) := by
  unfold State.gateCommit
  (repeat' (first | (intro) | (with_reducible assumption) | (with_reducible apply keeps_ite) | (with_reducible apply keeps_localOnly) | (with_reducible apply keeps_put) | (with_reducible apply keeps_gateRefused) | (with_reducible apply keeps_carry) | (fail_if_no_progress with_reducible apply keeps_mk) | (extract_lets -underBinder +onlyGivenNames sx; refine (have kx : Keeps s₀ sx := ?_; ?_); dsimp -zeta only [sx]; rotate_left; clear_value sx; rotate_right) | (split)))

theorem keeps_writeTelemCfg {s₀ : State} {s : State} {r : Requester} {v : Nat} (hk : Keeps s₀ s) : Keeps s₀ (State.writeTelemCfg s r v) := by
  unfold State.writeTelemCfg
  (repeat' (first | (with_reducible assumption) | (with_reducible apply keeps_ite) | (with_reducible apply keeps_put) | (with_reducible apply keeps_writeWord) | (fail_if_no_progress with_reducible apply keeps_mk)))

theorem keeps_writeTelemCons {s₀ : State} {s : State} {r : Requester} {v : Nat} (hk : Keeps s₀ s) : Keeps s₀ (State.writeTelemCons s r v) := by
  unfold State.writeTelemCons
  (repeat' (first | (with_reducible assumption) | (with_reducible apply keeps_ite) | (with_reducible apply keeps_writeWord)))

theorem keeps_writeSlope {s₀ : State} {s : State} {r : Requester} {i : Nat} {v : Nat} (hk : Keeps s₀ s) : Keeps s₀ (State.writeSlope s r i v) := by
  unfold State.writeSlope
  (repeat' (first | (with_reducible assumption) | (with_reducible apply keeps_ite) | (with_reducible apply keeps_setCredit) | (with_reducible apply keeps_writeWord) | (with_reducible apply keeps_settle)))

theorem keeps_writeCreditLimit {s₀ : State} {s : State} {r : Requester} {i : Nat} {v : Nat} (hk : Keeps s₀ s) : Keeps s₀ (State.writeCreditLimit s r i v) := by
  unfold State.writeCreditLimit
  (repeat' (first | (with_reducible assumption) | (with_reducible apply keeps_ite) | (with_reducible apply keeps_setCredit) | (with_reducible apply keeps_writeWord) | (with_reducible apply keeps_settle)))

theorem keeps_writeGate {s₀ : State} {s : State} {r : Requester} {i : Nat} {v : Nat} (hk : Keeps s₀ s) : Keeps s₀ (State.writeGate s r i v) := by
  unfold State.writeGate
  (repeat' (first | (intro) | (with_reducible assumption) | (with_reducible apply keeps_ite) | (with_reducible apply keeps_localOnly) | (with_reducible apply keeps_put) | (with_reducible apply keeps_writeWord) | (with_reducible apply keeps_carry)))

theorem keeps_mapRefused {s₀ : State} {s : State} (hk : Keeps s₀ s) : Keeps s₀ (State.mapRefused s) := by
  unfold State.mapRefused
  (repeat' (first | (with_reducible assumption) | (with_reducible apply keeps_bump)))

theorem keeps_writeInstance {s₀ : State} {s : State} {r : Requester} {k : Nat} {word : Nat} {v : Nat} (hk : Keeps s₀ s) : Keeps s₀ (State.writeInstance s r k word v) := by
  unfold State.writeInstance
  (repeat' (first | (with_reducible assumption) | (with_reducible apply keeps_ite) | (with_reducible apply keeps_settle) | (with_reducible apply keeps_writeWord) | (with_reducible apply keeps_mapRefused) | (with_reducible apply keeps_setLevel)))

theorem keeps_writeMapWord {s₀ : State} {s : State} {r : Requester} {f : Nat} {word : Nat} {v : Nat} (hk : Keeps s₀ s) : Keeps s₀ (State.writeMapWord s r f word v) := by
  unfold State.writeMapWord
  (repeat' (first | (with_reducible assumption) | (with_reducible apply keeps_ite) | (with_reducible apply keeps_writeWord) | (with_reducible apply keeps_settle) | (with_reducible apply keeps_mapRefused)))

theorem keeps_writeMap {s₀ : State} {s : State} {r : Requester} {f : Nat} {v : Nat} (hk : Keeps s₀ s) : Keeps s₀ (State.writeMap s r f v) := by
  unfold State.writeMap
  (repeat' (first | (with_reducible assumption) | (with_reducible apply keeps_ite) | (with_reducible apply keeps_writePair) | (with_reducible apply keeps_settle) | (with_reducible apply keeps_mapRefused)))

theorem keeps_switchGates {s₀ : State} {s : State} (hk : Keeps s₀ s) : Keeps s₀ (State.switchGates s) := by
  unfold State.switchGates
  (repeat' (first | (with_reducible assumption) | (with_reducible apply keeps_ite) | (with_reducible apply keeps_wrWords) | (with_reducible apply keeps_settle) | (split)))

theorem keeps_execGateListWrite {s₀ : State} {r : Requester} {word : Fin 2048} {v : Word} {s : State} (hk : Keeps s₀ s) : KeepsO s₀ (execGateListWrite r word v s) := by
  unfold execGateListWrite
  (repeat' (first | (with_reducible assumption) | (with_reducible apply keepsO_ok) | (with_reducible apply keeps_writeGate)))

theorem keeps_execGateCommit {s₀ : State} {r : Requester} {s : State} (hk : Keeps s₀ s) : KeepsO s₀ (execGateCommit r s) := by
  unfold execGateCommit
  (repeat' (first | (with_reducible assumption) | (with_reducible apply keepsO_ok) | (with_reducible apply keeps_gateCommit)))

theorem keeps_execGateCommitDone {s₀ : State} {s : State} (hk : Keeps s₀ s) : KeepsO s₀ (execGateCommitDone s) := by
  unfold execGateCommitDone
  (repeat' (first | (with_reducible assumption) | (with_reducible apply keepsO_ok) | (with_reducible apply keepsO_ite) | (with_reducible apply keeps_switchGates) | (with_reducible apply keeps_raise) | (with_reducible apply keeps_put) | (fail_if_no_progress with_reducible apply keeps_mk) | (split)))

theorem keeps_execCbsSlopeWrite {s₀ : State} {r : Requester} {queue : Fin 256} {v : Word} {s : State} (hk : Keeps s₀ s) : KeepsO s₀ (execCbsSlopeWrite r queue v s) := by
  unfold execCbsSlopeWrite
  (repeat' (first | (with_reducible assumption) | (with_reducible apply keepsO_ok) | (with_reducible apply keeps_writeSlope)))

theorem keeps_execCbsLimitWrite {s₀ : State} {r : Requester} {queue : Fin 256} {v : Word} {s : State} (hk : Keeps s₀ s) : KeepsO s₀ (execCbsLimitWrite r queue v s) := by
  unfold execCbsLimitWrite
  (repeat' (first | (with_reducible assumption) | (with_reducible apply keepsO_ok) | (with_reducible apply keeps_writeCreditLimit)))

theorem keeps_execShaperInstanceWrite {s₀ : State} {r : Requester} {inst : Fin 16384} {word : Fin 4} {v : Word} {s : State} (hk : Keeps s₀ s) : KeepsO s₀ (execShaperInstanceWrite r inst word v s) := by
  unfold execShaperInstanceWrite
  (repeat' (first | (with_reducible assumption) | (with_reducible apply keepsO_ok) | (with_reducible apply keeps_writeInstance)))

theorem keeps_execFunctionMapWrite {s₀ : State} {r : Requester} {func : Fin 4096} {v : BitVec 64} {s : State} (hk : Keeps s₀ s) : KeepsO s₀ (execFunctionMapWrite r func v s) := by
  unfold execFunctionMapWrite
  (repeat' (first | (with_reducible assumption) | (with_reducible apply keepsO_ok) | (with_reducible apply keeps_writeMap)))

theorem keeps_execTelemEnable {s₀ : State} {r : Requester} {v : Word} {s : State} (hk : Keeps s₀ s) : KeepsO s₀ (execTelemEnable r v s) := by
  unfold execTelemEnable
  (repeat' (first | (with_reducible assumption) | (with_reducible apply keepsO_ok) | (with_reducible apply keeps_writeTelemCfg)))

theorem keeps_execTelemConsWrite {s₀ : State} {r : Requester} {v : Word} {s : State} (hk : Keeps s₀ s) : KeepsO s₀ (execTelemConsWrite r v s) := by
  unfold execTelemConsWrite
  (repeat' (first | (with_reducible assumption) | (with_reducible apply keepsO_ok) | (with_reducible apply keeps_ite) | (with_reducible apply keeps_writeTelemCons)))

end Sys2Proof.Machine
end

