-- ==== Sys2Proof/Laws/KeepsWitness.lean ====
section
/-! SUPPORT. `Keeps`, for every function of Machine/Witness.lean. -/

set_option linter.all false
set_option simprocs false

namespace Sys2Proof.Machine

theorem keeps_writeHold {s₀ : State} {s : State} {r : Requester} {v : Bool} (hk : Keeps s₀ s) : Keeps s₀ (State.writeHold s r v) := by
  unfold State.writeHold
  (repeat' (first | (with_reducible assumption) | (with_reducible apply keeps_ite) | (with_reducible apply keeps_put)))

theorem keeps_endCause {s₀ : State} {s : State} {cause : Nat} (hk : Keeps s₀ s) : Keeps s₀ (State.endCause s cause) := by
  unfold State.endCause
  (repeat' (first | (with_reducible assumption) | (fail_if_no_progress with_reducible apply keeps_mk)))

theorem keeps_writeFence {s₀ : State} {s : State} {r : Requester} {v : Bool} (hk : Keeps s₀ s) : Keeps s₀ (State.writeFence s r v) := by
  unfold State.writeFence
  (repeat' (first | (with_reducible assumption) | (with_reducible apply keeps_ite) | (with_reducible apply keeps_put) | (with_reducible apply keeps_fence) | (with_reducible apply keeps_endCause)))

theorem keeps_writeRelease {s₀ : State} {s : State} {r : Requester} (hk : Keeps s₀ s) : Keeps s₀ (State.writeRelease s r) := by
  unfold State.writeRelease
  (repeat' (first | (with_reducible assumption) | (with_reducible apply keeps_ite) | (with_reducible apply keeps_put)))

theorem keeps_writeLayer {s₀ : State} {s : State} {r : Requester} (hk : Keeps s₀ s) : Keeps s₀ (State.writeLayer s r) := by
  unfold State.writeLayer
  (repeat' (first | (with_reducible assumption) | (with_reducible apply keeps_ite) | (with_reducible apply keeps_put)))

theorem keeps_endReplayTick {s₀ : State} {s : State} {n : Nat} (hk : Keeps s₀ s) : Keeps s₀ (State.endReplayTick s n) := by
  unfold State.endReplayTick
  (repeat' (first | (intro) | (with_reducible assumption) | (with_reducible apply keeps_ite) | (with_reducible apply keeps_when) | (with_reducible apply keeps_bumpBy) | (with_reducible apply keeps_raise) | (fail_if_no_progress with_reducible apply keeps_mk) | (extract_lets -underBinder +onlyGivenNames sx; refine (have kx : Keeps s₀ sx := ?_; ?_); dsimp -zeta only [sx]; rotate_left; clear_value sx; rotate_right) | (extract_lets -underBinder +onlyGivenNames sx; clear_value sx) | (split)))

theorem keeps_ownFrame {s₀ : State} {s : State} {p : Nat} {l : Bytes} (hk : Keeps s₀ s) : Keeps s₀ (State.ownFrame s p l) := by
  unfold State.ownFrame
  (repeat' (first | (with_reducible assumption) | (with_reducible apply keeps_ite) | (with_reducible apply keeps_admitHead_eq (by assumption)) | (with_reducible apply keeps_storeFrame) | (with_reducible apply keeps_joinQueue) | (split)))

theorem keeps_witSend {s₀ : State} {s : State} {pair : Nat} {type : Nat} {target : Nat} {epoch : Nat} {flags : Nat} {refTick : Nat} {refSeq : Nat} {back : Option (Nat × Nat)} (hk : Keeps s₀ s) : Keeps s₀ (State.witSend s pair type target epoch flags refTick refSeq back) := by
  unfold State.witSend
  (repeat' (first | (intro) | (with_reducible assumption) | (with_reducible apply keeps_ite) | (with_reducible apply keeps_when) | (with_reducible apply keeps_put) | (with_reducible apply keeps_bump) | (with_reducible apply keeps_emit) | (with_reducible apply keeps_ownFrame) | (fail_if_no_progress with_reducible apply keeps_mk) | (with_reducible apply keeps_foldl) | (split)))

theorem keeps_execRequestSend {s₀ : State} {s : State} (hk : Keeps s₀ s) : KeepsO s₀ (execRequestSend s) := by
  unfold execRequestSend
  (repeat' (first | (with_reducible assumption) | (with_reducible apply keepsO_ok) | (with_reducible apply keepsO_ite) | (with_reducible apply keeps_moment) | (with_reducible apply keeps_witSend) | (fail_if_no_progress with_reducible apply keeps_mk)))

theorem keeps_witBad {s₀ : State} {s : State} (hk : Keeps s₀ s) : Keeps s₀ (State.witBad s) := by
  unfold State.witBad
  (repeat' (first | (with_reducible assumption) | (with_reducible apply keeps_bump)))

theorem keeps_witCheck {s₀ : State} {s : State} {via : WitVia} {l : Bytes} (hk : Keeps s₀ s) : Keeps s₀ (State.witCheck s via l).2 := by
  unfold State.witCheck
  (repeat' (first | (with_reducible assumption) | (with_reducible apply keeps_witBad) | (extract_lets -underBinder +onlyGivenNames sx; clear_value sx) | (split)))
theorem keeps_witCheck_eq {s₀ : State} {s : State} {via : WitVia} {l : Bytes} {ra rt} (he : State.witCheck s via l = (ra, rt)) (hk : Keeps s₀ s) : Keeps s₀ rt := by
  have := keeps_witCheck (s := s) (via := via) (l := l) hk; rw [he] at this; exact this

theorem keeps_witFresh {s₀ : State} {s : State} {m : WitMsg} (hk : Keeps s₀ s) : KeepsM s₀ (State.witFresh s m) := by
  unfold State.witFresh
  (repeat' (first | (with_reducible assumption) | (with_reducible apply keepsM_none) | (with_reducible apply keepsM_some) | (fail_if_no_progress with_reducible apply keeps_mk) | (extract_lets -underBinder +onlyGivenNames sx; clear_value sx) | (split)))
theorem keeps_witFresh_eq {s₀ : State} {s : State} {m : WitMsg} {rt} (he : State.witFresh s m = some rt) (hk : Keeps s₀ s) : Keeps s₀ rt := by
  have := keeps_witFresh (s := s) (m := m) hk; rw [he] at this; exact this.of _ rfl

theorem keeps_witTake {s₀ : State} {s : State} {via : WitVia} {l : Bytes} {type : Nat} {other : WitMsg → State → State} {run : WitMsg → State → State} (hk : Keeps s₀ s) (hk_other : ∀ (x0 : WitMsg) (x1 : State), Keeps s₀ x1 → Keeps s₀ (other x0 x1)) (hk_run : ∀ (x0 : WitMsg) (x1 : State), Keeps s₀ x1 → Keeps s₀ (run x0 x1)) : Keeps s₀ (State.witTake s via l type other run) := by
  unfold State.witTake
  (repeat' (first | (with_reducible assumption) | (with_reducible apply keeps_ite) | (with_reducible apply hk_other) | (with_reducible apply hk_run) | (with_reducible apply keeps_witCheck_eq (by assumption)) | (with_reducible apply keeps_witFresh_eq (by assumption)) | (with_reducible apply keeps_witBad) | (split)))

theorem keeps_setWit {s₀ : State} {s : State} {w : WitPair} (hk : Keeps s₀ s) : Keeps s₀ (State.setWit s w) := by
  unfold State.setWit
  (repeat' (first | (with_reducible assumption) | (fail_if_no_progress with_reducible apply keeps_mk)))

theorem keeps_setWitEpoch {s₀ : State} {s : State} {k : Nat} {e : Nat} (hk : Keeps s₀ s) : Keeps s₀ (State.setWitEpoch s k e) := by
  unfold State.setWitEpoch
  (repeat' (first | (with_reducible assumption) | (with_reducible apply keeps_wr) | (with_reducible apply keeps_put)))

theorem keeps_onRequest {s₀ : State} {s : State} {k : Nat} {m : WitMsg} (hk : Keeps s₀ s) : Keeps s₀ (State.onRequest s k m).2 := by
  unfold State.onRequest
  (repeat' (first | (intro) | (with_reducible assumption) | (with_reducible apply keeps_setWit) | (with_reducible apply keeps_put) | (with_reducible apply keeps_setWitEpoch) | (extract_lets -underBinder +onlyGivenNames sx; refine (have kx : Keeps s₀ sx := ?_; ?_); dsimp -zeta only [sx]; rotate_left; clear_value sx; rotate_right) | (extract_lets -underBinder +onlyGivenNames sx; refine (have kx : ∀ a, Keeps s₀ a → Keeps s₀ (sx a).2 := ?_; ?_); dsimp -zeta only [sx]; rotate_left; clear_value sx; rotate_right) | (extract_lets -underBinder +onlyGivenNames sx; clear_value sx) | (with_reducible apply_assumption (exfalso := false) (symm := false)) | (split)))
theorem keeps_onRequest_eq {s₀ : State} {s : State} {k : Nat} {m : WitMsg} {ra rt} (he : State.onRequest s k m = (ra, rt)) (hk : Keeps s₀ s) : Keeps s₀ rt := by
  have := keeps_onRequest (s := s) (k := k) (m := m) hk; rw [he] at this; exact this

theorem keeps_execWitRequest {s₀ : State} {via : WitVia} {offset : Nat} {source : BitVec 48} {msg : Bytes} {s : State} (hk : Keeps s₀ s) : KeepsO s₀ (execWitRequest via offset source msg s) := by
  unfold execWitRequest
  (repeat' (first | (intro) | (with_reducible assumption) | (with_reducible apply keepsO_ok) | (with_reducible apply keeps_witTake) | (with_reducible apply keeps_moment) | (with_reducible apply keeps_onRequest) | (with_reducible apply keeps_witSend) | (dsimp -zeta only) | (split)))

theorem keeps_execWitRelease {s₀ : State} {via : WitVia} {offset : Nat} {source : BitVec 48} {msg : Bytes} {s : State} (hk : Keeps s₀ s) : KeepsO s₀ (execWitRelease via offset source msg s) := by
  unfold execWitRelease
  (repeat' (first | (intro) | (with_reducible assumption) | (with_reducible apply keepsO_ok) | (with_reducible apply keeps_ite) | (with_reducible apply keeps_witTake) | (with_reducible apply keeps_moment) | (with_reducible apply keeps_put) | (split)))

theorem keeps_heard {s₀ : State} {s : State} (hk : Keeps s₀ s) : Keeps s₀ (State.heard s) := by
  unfold State.heard
  (repeat' (first | (with_reducible assumption) | (with_reducible apply keeps_endCause) | (fail_if_no_progress with_reducible apply keeps_mk)))

theorem keeps_replayNow {s₀ : State} {s : State} {t : Nat} (hk : Keeps s₀ s) : Keeps s₀ (State.replayNow s t) := by
  unfold State.replayNow
  (repeat' (first | (intro) | (with_reducible assumption) | (with_reducible apply keeps_oncePerTick) | (with_reducible apply keeps_bump) | (fail_if_no_progress with_reducible apply keeps_mk)))

theorem keeps_takeOver {s₀ : State} {s : State} {e : Nat} (hk : Keeps s₀ s) : Keeps s₀ (State.takeOver s e) := by
  unfold State.takeOver
  (repeat' (first | (with_reducible assumption) | (with_reducible apply keeps_ite) | (with_reducible apply keeps_put) | (with_reducible apply keeps_keepEpoch) | (with_reducible apply keeps_rebook) | (with_reducible apply keeps_bump) | (with_reducible apply keeps_refreshLayered) | (with_reducible apply keeps_raise) | (with_reducible apply keeps_replayNow) | (fail_if_no_progress with_reducible apply keeps_mk)))

theorem keeps_execWitGrant {s₀ : State} {via : WitVia} {offset : Nat} {msg : Bytes} {s : State} (hk : Keeps s₀ s) : KeepsO s₀ (execWitGrant via offset msg s) := by
  unfold execWitGrant
  (repeat' (first | (intro) | (with_reducible assumption) | (with_reducible apply keepsO_ok) | (with_reducible apply keeps_ite) | (with_reducible apply keeps_witTake) | (with_reducible apply keeps_moment) | (with_reducible apply keeps_heard) | (with_reducible apply keeps_bump) | (with_reducible apply keeps_takeOver) | (with_reducible apply keeps_put) | (fail_if_no_progress with_reducible apply keeps_mk)))

theorem keeps_execWitDeny {s₀ : State} {via : WitVia} {offset : Nat} {msg : Bytes} {s : State} (hk : Keeps s₀ s) : KeepsO s₀ (execWitDeny via offset msg s) := by
  unfold execWitDeny
  (repeat' (first | (intro) | (with_reducible assumption) | (with_reducible apply keepsO_ok) | (with_reducible apply keeps_ite) | (with_reducible apply keeps_witTake) | (with_reducible apply keeps_moment) | (with_reducible apply keeps_heard) | (with_reducible apply keeps_bump) | (with_reducible apply keeps_fence)))

theorem keeps_endMedia {s₀ : State} {s : State} (hk : Keeps s₀ s) : Keeps s₀ (State.endMedia s) := by
  unfold State.endMedia
  (repeat' (first | (intro) | (with_reducible assumption) | (with_reducible apply keeps_ite) | (with_reducible apply keeps_settle) | (with_reducible apply keeps_endFrame) | (with_reducible apply keeps_foldl)))

theorem keeps_fenceHard {s₀ : State} {s : State} {cause : Nat} (hk : Keeps s₀ s) : Keeps s₀ (State.fenceHard s cause) := by
  unfold State.fenceHard
  (repeat' (first | (with_reducible assumption) | (with_reducible apply keeps_ite) | (with_reducible apply keeps_fence) | (with_reducible apply keeps_endMedia)))

theorem keeps_execWitFence {s₀ : State} {via : WitVia} {offset : Nat} {msg : Bytes} {s : State} (hk : Keeps s₀ s) : KeepsO s₀ (execWitFence via offset msg s) := by
  unfold execWitFence
  (repeat' (first | (intro) | (with_reducible assumption) | (with_reducible apply keepsO_ok) | (with_reducible apply keeps_ite) | (with_reducible apply keeps_witTake) | (with_reducible apply keeps_moment) | (with_reducible apply keeps_fenceHard)))

theorem keeps_execLeaseExpiry {s₀ : State} {s : State} (hk : Keeps s₀ s) : KeepsO s₀ (execLeaseExpiry s) := by
  unfold execLeaseExpiry
  (repeat' (first | (with_reducible assumption) | (with_reducible apply keepsO_ok) | (with_reducible apply keepsO_ite) | (with_reducible apply keeps_fence)))

theorem keeps_execFenceInFall {s₀ : State} {offset : Nat} {s : State} (hk : Keeps s₀ s) : KeepsO s₀ (execFenceInFall offset s) := by
  unfold execFenceInFall
  (repeat' (first | (with_reducible assumption) | (with_reducible apply keepsO_ok) | (with_reducible apply keepsO_ite) | (with_reducible apply keeps_endCause) | (with_reducible apply keeps_moment) | (with_reducible apply keeps_fenceHard) | (fail_if_no_progress with_reducible apply keeps_mk)))

theorem keeps_execFenceInRise {s₀ : State} {offset : Nat} {s : State} (hk : Keeps s₀ s) : KeepsO s₀ (execFenceInRise offset s) := by
  unfold execFenceInRise
  (repeat' (first | (with_reducible assumption) | (with_reducible apply keepsO_ok) | (with_reducible apply keeps_endCause) | (with_reducible apply keeps_moment)))

theorem keeps_execHgcFenceWrite {s₀ : State} {r : Requester} {v : Bool} {s : State} (hk : Keeps s₀ s) : KeepsO s₀ (execHgcFenceWrite r v s) := by
  unfold execHgcFenceWrite
  (repeat' (first | (with_reducible assumption) | (with_reducible apply keepsO_ok) | (with_reducible apply keeps_writeFence)))

theorem keeps_execHgcReleaseWrite {s₀ : State} {r : Requester} {s : State} (hk : Keeps s₀ s) : KeepsO s₀ (execHgcReleaseWrite r s) := by
  unfold execHgcReleaseWrite
  (repeat' (first | (with_reducible assumption) | (with_reducible apply keepsO_ok) | (with_reducible apply keeps_writeRelease)))

theorem keeps_execHandover {s₀ : State} {s : State} (hk : Keeps s₀ s) : KeepsO s₀ (execHandover s) := by
  unfold execHandover
  (repeat' (first | (with_reducible assumption) | (with_reducible apply keepsO_ok) | (with_reducible apply keepsO_ite) | (with_reducible apply keeps_witSend) | (with_reducible apply keeps_fence)))

theorem keeps_execHgcLayerWrite {s₀ : State} {r : Requester} {s : State} (hk : Keeps s₀ s) : KeepsO s₀ (execHgcLayerWrite r s) := by
  unfold execHgcLayerWrite
  (repeat' (first | (with_reducible assumption) | (with_reducible apply keepsO_ok) | (with_reducible apply keeps_writeLayer)))

theorem keeps_execHgcHoldWrite {s₀ : State} {r : Requester} {v : Bool} {s : State} (hk : Keeps s₀ s) : KeepsO s₀ (execHgcHoldWrite r v s) := by
  unfold execHgcHoldWrite
  (repeat' (first | (with_reducible assumption) | (with_reducible apply keepsO_ok) | (with_reducible apply keeps_writeHold)))

theorem keeps_execRestartWindowEnd {s₀ : State} {s : State} (hk : Keeps s₀ s) : KeepsO s₀ (execRestartWindowEnd s) := by
  unfold execRestartWindowEnd
  (repeat' (first | (intro) | (with_reducible assumption) | (with_reducible apply keepsO_ok) | (with_reducible apply keeps_put) | (fail_if_no_progress with_reducible apply keeps_mk) | (with_reducible apply keeps_foldl)))

theorem keeps_execWitnessLost {s₀ : State} {s : State} (hk : Keeps s₀ s) : KeepsO s₀ (execWitnessLost s) := by
  unfold execWitnessLost
  (repeat' (first | (with_reducible assumption) | (with_reducible apply keepsO_ok) | (with_reducible apply keepsO_ite) | (with_reducible apply keeps_raise) | (fail_if_no_progress with_reducible apply keeps_mk)))

theorem keeps_execReplayTick {s₀ : State} {s : State} (hk : Keeps s₀ s) : KeepsO s₀ (execReplayTick s) := by
  unfold execReplayTick
  (repeat' (first | (with_reducible assumption) | (with_reducible apply keepsO_ok) | (with_reducible apply keepsO_ite) | (with_reducible apply keeps_replayNow) | (split)))

end Sys2Proof.Machine
end

