-- ==== Sys2Proof/Laws/KeepsRegisters.lean ====
section
/-! SUPPORT. `Keeps`, for every function of Machine/Registers.lean. -/

set_option linter.all false
set_option simprocs false

namespace Sys2Proof.Machine

theorem keeps_writeVector {s₀ : State} {s : State} {r : Requester} {func : Nat} {vec : Nat} {k : Nat} {v : Nat} (hk : Keeps s₀ s) : Keeps s₀ (State.writeVector s r func vec k v) := by
  unfold State.writeVector
  (repeat' (first | (intro) | (with_reducible assumption) | (with_reducible apply keeps_when) | (with_reducible apply keeps_writeWord) | (with_reducible apply keeps_sendPending)))

theorem keeps_writeVf {s₀ : State} {s : State} {r : Requester} {f : Nat} {k : Nat} {v : Nat} (hk : Keeps s₀ s) : Keeps s₀ (State.writeVf s r f k v) := by
  unfold State.writeVf
  (repeat' (first | (with_reducible assumption) | (with_reducible apply keeps_ite) | (with_reducible apply keeps_doorbell) | (with_reducible apply keeps_put) | (with_reducible apply keeps_mbxSend) | (with_reducible apply keeps_mbxAck) | (with_reducible apply keeps_writeContext) | (with_reducible apply keeps_writeVector) | (with_reducible apply keeps_writeWord) | (split)))

theorem keeps_after {s₀ : State} {s : State} {o : Host.Outcome State Fault Refusal} (hk : Keeps s₀ s) (ho : KeepsO s₀ o) : Keeps s₀ (State.after s o) := by
  cases o with
  | next t => exact ho.of t rfl
  | fault _ => exact hk
  | refused _ => exact hk

theorem keeps_writeBar2 {s₀ : State} {s : State} {r : Requester} {k : Nat} {v : Nat} (hk : Keeps s₀ s) : Keeps s₀ (State.writeBar2 s r k v) := by
  unfold State.writeBar2
  (repeat' (first | (with_reducible assumption) | (with_reducible apply keeps_ite) | (with_reducible apply keeps_writeMailbox) | (with_reducible apply keeps_after) | (with_reducible apply keeps_execStagedWrite) | (with_reducible apply keeps_execFlowEntryWrite) | (with_reducible apply keeps_execFtuWindowWrite) | (with_reducible apply keeps_execTermWrite) | (with_reducible apply keeps_execGainRequest) | (with_reducible apply keeps_execPointWrite) | (with_reducible apply keeps_execListWrite) | (extract_lets -underBinder +onlyGivenNames sx; clear_value sx) | (split)))

theorem keeps_writeSup {s₀ : State} {s : State} {r : Requester} {k : Nat} {v : Nat} (hk : Keeps s₀ s) : Keeps s₀ (State.writeSup s r k v) := by
  unfold State.writeSup
  (repeat' (first | (with_reducible assumption) | (with_reducible apply keeps_ite) | (with_reducible apply keeps_fuseKey) | (with_reducible apply keeps_fuseRefused) | (with_reducible apply keeps_flashStart) | (with_reducible apply keeps_resetCold) | (with_reducible apply keeps_resetWarm) | (with_reducible apply keeps_resetUnit) | (with_reducible apply keeps_writeWarn) | (with_reducible apply keeps_writeWord) | (split)))

theorem keeps_writeTe {s₀ : State} {s : State} {r : Requester} {k : Nat} {v : Nat} (hk : Keeps s₀ s) : Keeps s₀ (State.writeTe s r k v) := by
  unfold State.writeTe
  (repeat' (first | (with_reducible assumption) | (with_reducible apply keeps_ite) | (with_reducible apply keeps_after) | (with_reducible apply keeps_execRestep) | (with_reducible apply keeps_execAddFlow) | (with_reducible apply keeps_execRemoveFlow) | (with_reducible apply keeps_execAddPoint) | (with_reducible apply keeps_execRemovePoint) | (with_reducible apply keeps_execCheckFlow) | (with_reducible apply keeps_writeWord) | (split)))

theorem keeps_writePxc {s₀ : State} {s : State} {r : Requester} {k : Nat} {v : Nat} (hk : Keeps s₀ s) : Keeps s₀ (State.writePxc s r k v) := by
  unfold State.writePxc
  (repeat' (first | (with_reducible assumption) | (with_reducible apply keeps_ite) | (with_reducible apply keeps_writeCtBase) | (with_reducible apply keeps_writeVlan) | (with_reducible apply keeps_writePause) | (with_reducible apply keeps_writeWord) | (with_reducible apply keeps_put) | (with_reducible apply keeps_snap)))

theorem keeps_commitWord {s₀ : State} {s : State} {lost : Field} {v : Nat} {go : State → State} (hk : Keeps s₀ s) (hk_go : ∀ (x0 : State), Keeps s₀ x0 → Keeps s₀ (go x0)) : Keeps s₀ (State.commitWord s lost v go) := by
  unfold State.commitWord
  (repeat' (first | (with_reducible assumption) | (with_reducible apply keeps_ite) | (with_reducible apply hk_go) | (with_reducible apply keeps_put)))

theorem keeps_writePcu {s₀ : State} {s : State} {r : Requester} {k : Nat} {v : Nat} (hk : Keeps s₀ s) : Keeps s₀ (State.writePcu s r k v) := by
  unfold State.writePcu
  (repeat' (first | (intro) | (with_reducible assumption) | (with_reducible apply keeps_ite) | (with_reducible apply keeps_commitWord) | (with_reducible apply keeps_after) | (with_reducible apply keeps_execTblCommit) | (with_reducible apply keeps_writeWord)))

theorem keeps_writeFtu {s₀ : State} {s : State} {r : Requester} {k : Nat} {v : Nat} (hk : Keeps s₀ s) : Keeps s₀ (State.writeFtu s r k v) := by
  unfold State.writeFtu
  (repeat' (first | (with_reducible assumption) | (with_reducible apply keeps_ite) | (with_reducible apply keeps_writeWord) | (with_reducible apply keeps_after) | (with_reducible apply keeps_execLpmInsert) | (with_reducible apply keeps_execLpmDelete) | (with_reducible apply keeps_execLpmRead) | (with_reducible apply keeps_execInsertStatic) | (with_reducible apply keeps_execDeleteStatic) | (with_reducible apply keeps_execMacRead) | (with_reducible apply keeps_execMacFlush) | (split)))

theorem keeps_writeRtu {s₀ : State} {s : State} {r : Requester} {k : Nat} {v : Nat} (hk : Keeps s₀ s) : Keeps s₀ (State.writeRtu s r k v) := by
  unfold State.writeRtu
  (repeat' (first | (with_reducible assumption) | (with_reducible apply keeps_ite) | (with_reducible apply keeps_after) | (with_reducible apply keeps_execProgWrite) | (with_reducible apply keeps_execProgRead) | (with_reducible apply keeps_writeWord) | (split)))

theorem keeps_writeFpu {s₀ : State} {s : State} {r : Requester} {k : Nat} {v : Nat} (hk : Keeps s₀ s) : Keeps s₀ (State.writeFpu s r k v) := by
  unfold State.writeFpu
  (repeat' (first | (with_reducible assumption) | (with_reducible apply keeps_ite) | (with_reducible apply keeps_writeWord)))

theorem keeps_writeEgu {s₀ : State} {s : State} {r : Requester} {k : Nat} {v : Nat} (hk : Keeps s₀ s) : Keeps s₀ (State.writeEgu s r k v) := by
  unfold State.writeEgu
  (repeat' (first | (intro) | (with_reducible assumption) | (with_reducible apply keeps_ite) | (with_reducible apply keeps_writeWord) | (with_reducible apply keeps_writeLimit) | (with_reducible apply keeps_rearmCmd) | (with_reducible apply keeps_guardQueryCmd) | (with_reducible apply keeps_writeForce) | (with_reducible apply keeps_writeSideband) | (with_reducible apply keeps_commitWord) | (with_reducible apply keeps_gateCommit) | (with_reducible apply keeps_writeTelemCfg) | (with_reducible apply keeps_writeTelemCons) | (with_reducible apply keeps_writeSlope) | (with_reducible apply keeps_writeCreditLimit) | (with_reducible apply keeps_writeGate) | (with_reducible apply keeps_writeInstance) | (with_reducible apply keeps_writeMapWord) | (split)))

theorem keeps_writeCku {s₀ : State} {s : State} {r : Requester} {k : Nat} {v : Nat} (hk : Keeps s₀ s) : Keeps s₀ (State.writeCku s r k v) := by
  unfold State.writeCku
  (repeat' (first | (with_reducible assumption) | (with_reducible apply keeps_ite) | (with_reducible apply keeps_keyLoad) | (with_reducible apply keeps_keyRewrite) | (with_reducible apply keeps_keyErase) | (with_reducible apply keeps_wr) | (with_reducible apply keeps_writeSa) | (with_reducible apply keeps_writeRxSc) | (with_reducible apply keeps_writeWord) | (split)))

theorem keeps_writeHgc {s₀ : State} {s : State} {r : Requester} {k : Nat} {v : Nat} (hk : Keeps s₀ s) : Keeps s₀ (State.writeHgc s r k v) := by
  unfold State.writeHgc
  (repeat' (first | (with_reducible assumption) | (with_reducible apply keeps_ite) | (with_reducible apply keeps_writeHold) | (with_reducible apply keeps_writeFence) | (with_reducible apply keeps_writeRelease) | (with_reducible apply keeps_writeLayer) | (with_reducible apply keeps_writeWord)))

theorem keeps_writeHiu {s₀ : State} {s : State} {r : Requester} {k : Nat} {v : Nat} (hk : Keeps s₀ s) : Keeps s₀ (State.writeHiu s r k v) := by
  unfold State.writeHiu
  (repeat' (first | (with_reducible assumption) | (with_reducible apply keeps_ite) | (with_reducible apply keeps_adopt) | (with_reducible apply keeps_writeWdogCfg) | (with_reducible apply keeps_wdogKick) | (with_reducible apply keeps_writeWord) | (with_reducible apply keeps_writeVector)))

theorem keeps_writeTtu {s₀ : State} {s : State} {r : Requester} {k : Nat} {v : Nat} (hk : Keeps s₀ s) : Keeps s₀ (State.writeTtu s r k v) := by
  unfold State.writeTtu
  (repeat' (first | (with_reducible assumption) | (with_reducible apply keeps_ite) | (with_reducible apply keeps_after) | (with_reducible apply keeps_execInvAll) | (with_reducible apply keeps_execInvFunc) | (with_reducible apply keeps_invRange) | (with_reducible apply keeps_invOther) | (with_reducible apply keeps_logSync) | (with_reducible apply keeps_poolCmd) | (with_reducible apply keeps_execMbxSendToVf) | (with_reducible apply keeps_execMbxAckByPf) | (with_reducible apply keeps_writeCtx) | (with_reducible apply keeps_writeWord) | (split)))

theorem keeps_writeQe {s₀ : State} {s : State} {r : Requester} {k : Nat} {v : Nat} (hk : Keeps s₀ s) : Keeps s₀ (State.writeQe s r k v) := by
  unfold State.writeQe
  (repeat' (first | (with_reducible assumption) | (with_reducible apply keeps_ite) | (with_reducible apply keeps_doorbell) | (with_reducible apply keeps_writeContext) | (with_reducible apply keeps_writeWord)))

theorem keeps_writeSie {s₀ : State} {s : State} {r : Requester} {k : Nat} {v : Nat} (hk : Keeps s₀ s) : Keeps s₀ (State.writeSie s r k v) := by
  unfold State.writeSie
  (repeat' (first | (with_reducible assumption) | (with_reducible apply keeps_ite) | (with_reducible apply keeps_writeWord) | (with_reducible apply keeps_connCmd) | (with_reducible apply keeps_put) | (with_reducible apply keeps_powerOn) | (with_reducible apply keeps_slotRemove) | (with_reducible apply keeps_recCmd) | (with_reducible apply keeps_writeConn) | (with_reducible apply keeps_writeNamespace) | (with_reducible apply keeps_writeRecording)))

theorem keeps_routeWord {s₀ : State} {r : Requester} {k : Nat} {v : Nat} {s : State} (hk : Keeps s₀ s) : Keeps s₀ (State.routeWord r k v s) := by
  unfold State.routeWord
  (repeat' (first | (with_reducible assumption) | (with_reducible apply keeps_ite) | (with_reducible apply keeps_writeVf) | (with_reducible apply keeps_writeBar2) | (with_reducible apply keeps_writeSup) | (with_reducible apply keeps_writeTe) | (with_reducible apply keeps_writePxc) | (with_reducible apply keeps_writePcu) | (with_reducible apply keeps_writeFtu) | (with_reducible apply keeps_writeRtu) | (with_reducible apply keeps_writeFpu) | (with_reducible apply keeps_writeEgu) | (with_reducible apply keeps_writeCku) | (with_reducible apply keeps_writeHgc) | (with_reducible apply keeps_writeHiu) | (with_reducible apply keeps_writeTtu) | (with_reducible apply keeps_writeQe) | (with_reducible apply keeps_writeSie) | (split)))

theorem keeps_routePair {s₀ : State} {r : Requester} {k : Nat} {v : Nat} {s : State} (hk : Keeps s₀ s) : Keeps s₀ (State.routePair r k v s) := by
  unfold State.routePair
  (repeat' (first | (with_reducible assumption) | (with_reducible apply keeps_ite) | (with_reducible apply keeps_wr) | (with_reducible apply keeps_after) | (with_reducible apply keeps_execVfGainRequest) | (with_reducible apply keeps_writeMap) | (with_reducible apply keeps_writeLost) | (with_reducible apply keeps_put) | (with_reducible apply keeps_writePair)))

theorem keeps_busWrite {s₀ : State} {s : State} {r : Requester} {a : Addr} {size : Nat} {v : Nat} (hk : Keeps s₀ s) : Keeps s₀ (State.busWrite s r a size v) := by
  unfold State.busWrite
  (repeat' (first | (with_reducible assumption) | (with_reducible apply keeps_busWriteVia) | (with_reducible apply keeps_routeWord) | (with_reducible apply keeps_routePair) | (with_reducible apply keeps_configWrite)))

theorem keeps_execRegisterWrite {s₀ : State} {r : Requester} {a : Addr} {size : Nat} {v : BitVec 64} {walks : List Walk8} {s : State} (hk : Keeps s₀ s) : KeepsO s₀ (execRegisterWrite r a size v walks s) := by
  unfold execRegisterWrite
  (repeat' (first | (intro) | (with_reducible assumption) | (with_reducible apply keepsO_ok) | (with_reducible apply keeps_withWalks) | (with_reducible apply keeps_busWrite)))

theorem keeps_execPairLoWrite {s₀ : State} {r : Requester} {a : Addr} {v : Word} {s : State} (hk : Keeps s₀ s) : KeepsO s₀ (execPairLoWrite r a v s) := by
  unfold execPairLoWrite
  (repeat' (first | (with_reducible assumption) | (with_reducible apply keepsO_ok) | (with_reducible apply keeps_busWrite)))

theorem keeps_execPairHiWrite {s₀ : State} {r : Requester} {a : Addr} {v : Word} {s : State} (hk : Keeps s₀ s) : KeepsO s₀ (execPairHiWrite r a v s) := by
  unfold execPairHiWrite
  (repeat' (first | (with_reducible assumption) | (with_reducible apply keepsO_ok) | (with_reducible apply keeps_busWrite)))

theorem keeps_mgmtFrame {s₀ : State} {s : State} {l : Bytes} (hk : Keeps s₀ s) : Keeps s₀ (State.mgmtFrame s l) := by
  unfold State.mgmtFrame
  (repeat' (first | (with_reducible assumption) | (with_reducible apply keeps_ite) | (with_reducible apply keeps_distribute)))

theorem keeps_frameReply {s₀ : State} {s : State} {src : Nat} {seq : Nat} {l : Bytes} (hk : Keeps s₀ s) : Keeps s₀ (State.frameReply s src seq l) := by
  unfold State.frameReply
  (repeat' (first | (with_reducible assumption) | (with_reducible apply keeps_ite) | (with_reducible apply keeps_emit) | (fail_if_no_progress with_reducible apply keeps_mk_sup)))

theorem keeps_frameRead {s₀ : State} {s : State} {k : Nat} {a2 : Nat} (hk : Keeps s₀ s) : Keeps s₀ (State.frameRead s k a2).2 := by
  induction a2 generalizing s k with
  | zero => unfold State.frameRead; (repeat' (first | (with_reducible assumption) | (with_reducible apply keeps_read32) | (with_reducible apply keeps_settleFor)))
  | succ n ih => unfold State.frameRead; (repeat' (first | (with_reducible apply ih) | (with_reducible refine keeps_pair (ih ?_) (by with_reducible assumption)) | (with_reducible assumption) | (with_reducible apply keeps_read32) | (with_reducible apply keeps_settleFor)))
theorem keeps_frameRead_eq {s₀ : State} {s : State} {k : Nat} {a2 : Nat} {ra rt} (he : State.frameRead s k a2 = (ra, rt)) (hk : Keeps s₀ s) : Keeps s₀ rt := by
  have := keeps_frameRead (s := s) (k := k) (a2 := a2) hk; rw [he] at this; exact this

theorem keeps_writeKey {s₀ : State} {s : State} {r : Requester} {k : Nat} {size : Nat} {v : Nat} (hk : Keeps s₀ s) : Keeps s₀ (State.writeKey s r k size v) := by
  unfold State.writeKey
  (repeat' (first | (with_reducible assumption) | (with_reducible apply keeps_writeKeyVia) | (with_reducible apply keeps_routeWord) | (with_reducible apply keeps_routePair)))

theorem keeps_frameWrite {s₀ : State} {s : State} {k : Nat} {a2 : List Nat} (hk : Keeps s₀ s) : Keeps s₀ (State.frameWrite s k a2) := by
  induction a2 generalizing s k with
  | nil => unfold State.frameWrite; (repeat' (first | (with_reducible assumption) | (with_reducible apply keeps_ite) | (with_reducible apply keeps_writeKey)))
  | cons _ _ ih => unfold State.frameWrite; (repeat' (first | (with_reducible apply ih) | (with_reducible assumption) | (with_reducible apply keeps_ite) | (with_reducible apply keeps_writeKey)))

theorem keeps_serveFrame {s₀ : State} {s : State} {l : Bytes} (hk : Keeps s₀ s) : Keeps s₀ (State.serveFrame s l) := by
  unfold State.serveFrame
  (repeat' (first | (with_reducible assumption) | (with_reducible apply keeps_ite) | (with_reducible apply keeps_mgmtFrame) | (with_reducible apply keeps_holdAccess) | (with_reducible apply keeps_frameReply) | (with_reducible apply keeps_frameRead) | (with_reducible apply keeps_frameWrite) | (extract_lets -underBinder +onlyGivenNames sx; clear_value sx) | (dsimp -zeta only) | (split)))

theorem keeps_execRegFrameRead {s₀ : State} {frame : Bytes} {s : State} (hk : Keeps s₀ s) : KeepsO s₀ (execRegFrameRead frame s) := by
  unfold execRegFrameRead
  (repeat' (first | (with_reducible assumption) | (with_reducible apply keepsO_ok) | (with_reducible apply keeps_serveFrame)))

theorem keeps_execRegFrameWrite {s₀ : State} {frame : Bytes} {walks : List Walk8} {s : State} (hk : Keeps s₀ s) : KeepsO s₀ (execRegFrameWrite frame walks s) := by
  unfold execRegFrameWrite
  (repeat' (first | (intro) | (with_reducible assumption) | (with_reducible apply keepsO_ok) | (with_reducible apply keeps_withWalks) | (with_reducible apply keeps_serveFrame)))

theorem keeps_serveHeld {s₀ : State} {s : State} {a1 : SvcWait} (hk : Keeps s₀ s) : Keeps s₀ (State.serveHeld s a1) := by
  unfold State.serveHeld
  (repeat' (first | (with_reducible assumption) | (with_reducible apply keeps_writeKey) | (with_reducible apply keeps_readKey) | (with_reducible apply keeps_serveFrame) | (split)))

theorem keeps_execServiceRestart {s₀ : State} {s : State} (hk : Keeps s₀ s) : KeepsO s₀ (execServiceRestart s) := by
  unfold execServiceRestart
  (repeat' (first | (intro) | (with_reducible assumption) | (with_reducible apply keepsO_ok) | (with_reducible apply keepsO_ite) | (with_reducible apply keeps_serveHeld) | (fail_if_no_progress with_reducible apply keeps_mk_sup) | (with_reducible apply keeps_foldl)))

end Sys2Proof.Machine
end

