-- ==== Sys2Proof/Laws/KeepsTick.lean ====
section
/-! SUPPORT. `Keeps`, for every function of Machine/Tick.lean. -/

set_option linter.all false
set_option simprocs false

namespace Sys2Proof.Machine

theorem keeps_countAges {s₀ : State} {s : State} (hk : Keeps s₀ s) : Keeps s₀ (State.countAges s) := by
  unfold State.countAges
  (repeat' (first | (with_reducible assumption) | (with_reducible apply keeps_put) | (fail_if_no_progress with_reducible apply keeps_mk_sup)))

theorem keeps_auditTracker {s₀ : State} {s : State} {lost : Nat} (hk : Keeps s₀ s) : Keeps s₀ (State.auditTracker s lost) := by
  unfold State.auditTracker
  (repeat' (first | (intro) | (with_reducible assumption) | (with_reducible apply keeps_when) | (with_reducible apply keeps_raise) | (with_reducible apply keeps_bump) | (with_reducible apply keeps_bookAudit) | (with_reducible apply keeps_bookRepaired) | (fail_if_no_progress with_reducible apply keeps_mk_sup)))

theorem keeps_auditHost {s₀ : State} {s : State} {lost : Nat} {credits : List (Nat × Nat)} (hk : Keeps s₀ s) : Keeps s₀ (State.auditHost s lost credits) := by
  unfold State.auditHost
  (repeat' (first | (intro) | (with_reducible assumption) | (with_reducible apply keeps_ite) | (with_reducible apply keeps_when) | (with_reducible apply keeps_put) | (with_reducible apply keeps_bump) | (with_reducible apply keeps_raise) | (with_reducible apply keeps_bookAudit) | (with_reducible apply keeps_bookRepaired) | (fail_if_no_progress with_reducible apply keeps_mk) | (with_reducible apply keeps_foldl)))

theorem keeps_telemLost {s₀ : State} {s : State} (hk : Keeps s₀ s) : Keeps s₀ (State.telemLost s) := by
  unfold State.telemLost
  (repeat' (first | (intro) | (with_reducible assumption) | (with_reducible apply keeps_oncePerTick) | (with_reducible apply keeps_bump) | (with_reducible apply keeps_raise)))

theorem keeps_telemOverflow {s₀ : State} {s : State} {slots : Nat} (hk : Keeps s₀ s) : Keeps s₀ (State.telemOverflow s slots) := by
  unfold State.telemOverflow
  (repeat' (first | (intro) | (with_reducible assumption) | (with_reducible apply keeps_ite) | (with_reducible apply keeps_oncePerTick) | (with_reducible apply keeps_put) | (with_reducible apply keeps_bump) | (with_reducible apply keeps_raise) | (fail_if_no_progress with_reducible apply keeps_mk)))

theorem keeps_telemWrite {s₀ : State} {s : State} {go : Bool} {addr : Nat} {l : Bytes} (hk : Keeps s₀ s) : Keeps s₀ (State.telemWrite s go addr l).2 := by
  unfold State.telemWrite
  (repeat' (first | (with_reducible assumption) | (with_reducible apply keeps_dmaWrite) | (dsimp -zeta only) | (split)))
theorem keeps_telemWrite_eq {s₀ : State} {s : State} {go : Bool} {addr : Nat} {l : Bytes} {ra rt} (he : State.telemWrite s go addr l = (ra, rt)) (hk : Keeps s₀ s) : Keeps s₀ rt := by
  have := keeps_telemWrite (s := s) (go := go) (addr := addr) (l := l) hk; rw [he] at this; exact this

theorem keeps_telemRecord {s₀ : State} {s : State} {n : Nat} {busy : Bool} (hk : Keeps s₀ s) : Keeps s₀ (State.telemRecord s n busy) := by
  unfold State.telemRecord
  (repeat' (first | (intro) | (with_reducible assumption) | (with_reducible apply keeps_ite) | (with_reducible apply keeps_when) | (with_reducible apply keeps_telemLost) | (with_reducible apply keeps_telemOverflow) | (with_reducible apply keeps_telemWrite) | (with_reducible apply keeps_put) | (fail_if_no_progress with_reducible apply keeps_mk)))

theorem keeps_telemetry {s₀ : State} {s : State} {n : Nat} {i : TickInput} (hk : Keeps s₀ s) : Keeps s₀ (State.telemetry s n i) := by
  unfold State.telemetry
  (repeat' (first | (intro) | (with_reducible assumption) | (with_reducible apply keeps_when) | (with_reducible apply keeps_telemRecord) | (fail_if_no_progress with_reducible apply keeps_mk)))

theorem keeps_boundaryWrites {s₀ : State} {s : State} {n : Nat} {i : TickInput} (hk : Keeps s₀ s) : Keeps s₀ (State.boundaryWrites s n i) := by
  unfold State.boundaryWrites
  (repeat' (first | (intro) | (with_reducible assumption) | (with_reducible apply keeps_when) | (with_reducible apply keeps_withWalks) | (with_reducible apply keeps_telemetry) | (with_reducible apply keeps_xtsRun)))

theorem keeps_dropRingCopies {s₀ : State} {s : State} (hk : Keeps s₀ s) : Keeps s₀ (State.dropRingCopies s) := by
  unfold State.dropRingCopies
  (repeat' (first | (intro) | (with_reducible assumption) | (with_reducible apply keeps_releaseCopy) | (fail_if_no_progress with_reducible apply keeps_mk) | (with_reducible apply keeps_foldl)))

theorem keeps_beginTick {s₀ : State} {s : State} {n : Nat} {i : TickInput} (hk : Keeps s₀ s) : Keeps s₀ (State.beginTick s n i) := by
  unfold State.beginTick
  (repeat' (first | (intro) | (with_reducible assumption) | (with_reducible apply keeps_when) | (with_reducible apply keeps_switchGates) | (with_reducible apply keeps_auditBuffer) | (with_reducible apply keeps_auditPools) | (with_reducible apply keeps_auditTracker) | (with_reducible apply keeps_auditHost) | (with_reducible apply keeps_sendHeartbeat) | (with_reducible apply keeps_leaveFenced) | (with_reducible apply keeps_boundaryWrites) | (with_reducible apply keeps_overrideTick) | (with_reducible apply keeps_dropRingCopies) | (with_reducible apply keeps_formTick) | (with_reducible apply keeps_accruePause) | (with_reducible apply keeps_pruneHedge) | (with_reducible apply keeps_countAges) | (with_reducible apply keeps_foldl)))

theorem keeps_nextTick {s₀ : State} {s : State} {n : Nat} (hk : Keeps s₀ s) : Keeps s₀ (State.nextTick s n) := by
  unfold State.nextTick
  (repeat' (first | (with_reducible assumption) | (with_reducible apply keeps_put) | (fail_if_no_progress with_reducible apply keeps_mk)))

theorem keeps_endTick {s₀ : State} {s : State} {n : Nat} {i : TickInput} (hk : Keeps s₀ s) : Keeps s₀ (State.endTick s n i) := by
  unfold State.endTick
  (repeat' (first | (intro) | (with_reducible assumption) | (with_reducible apply keeps_when) | (with_reducible apply keeps_closeWindow) | (with_reducible apply keeps_guardExchange) | (with_reducible apply keeps_shadowMissed) | (with_reducible apply keeps_endReplayTick) | (fail_if_no_progress with_reducible apply keeps_mk) | (with_reducible apply keeps_foldl)))

theorem keeps_execTickBoundary {s₀ : State} {i : TickInput} {s : State} (hk : Keeps s₀ s) : KeepsO s₀ (execTickBoundary i s) := by
  unfold execTickBoundary
  (repeat' (first | (intro) | (with_reducible assumption) | (with_reducible apply keepsO_ok) | (with_reducible apply keepsO_ite) | (with_reducible apply keeps_when) | (with_reducible apply keeps_withWalks) | (with_reducible apply keeps_countAges) | (with_reducible apply keeps_xtsRun) | (with_reducible apply keeps_beginTick) | (with_reducible apply keeps_nextTick) | (with_reducible apply keeps_endTick)))

end Sys2Proof.Machine
end

