-- ==== Sys2Proof/Laws/RegFile.lean ====
section
/-! SUPPORT. The register file apart from the rest of State: reads of a state rest on its register file alone, and each shared
operation changes the register file by a chain of field writes. -/

namespace Sys2Proof.Machine

/-- A field read from a register file. -/
def rget (r : List (Nat × Word)) (f : Field) : Nat :=
  if f.hi < 32 then bits (Sparse.get resetWord r f.key).toNat f.lo (f.hi + 1 - f.lo)
  else bits ((Sparse.get resetWord r f.key).toNat + 2 ^ 32 * (Sparse.get resetWord r (f.key + 4)).toNat) f.lo (f.hi + 1 - f.lo)

/-- A word of a register file. -/
def rword (r : List (Nat × Word)) (k : Nat) : Nat := (Sparse.get resetWord r k).toNat

/-- A word written. -/
def rset (r : List (Nat × Word)) (k v : Nat) : List (Nat × Word) := Sparse.set resetWord r k (BitVec.ofNat 32 v)

/-- A field written to a register file. -/
def rput (r : List (Nat × Word)) (f : Field) (v : Nat) : List (Nat × Word) :=
  if f.hi < 32 then rset r f.key (setBits (rword r f.key) f.lo (f.hi + 1 - f.lo) v)
  else
    let w := setBits (rword r f.key + 2 ^ 32 * rword r (f.key + 4)) f.lo (f.hi + 1 - f.lo) v
    rset (rset r f.key (w % 2 ^ 32)) (f.key + 4) (w / 2 ^ 32)

/-- The register file is in canonical form. -/
abbrev rwf (r : List (Nat × Word)) : Prop := Sparse.wf resetWord r = true

theorem get_rget (s : State) (f : Field) : s.get f = rget s.regs f := rfl
theorem rd_rword (s : State) (k : Nat) : s.rd k = rword s.regs k := rfl
theorem regs_wr (s : State) (k v : Nat) : (s.wr k v).regs = rset s.regs k v := rfl
theorem regs_put (s : State) (f : Field) (v : Nat) : (s.put f v).regs = rput s.regs f v := by
  unfold State.put rput; split <;> rfl

theorem rwf_of {s : State} (h : s.canon = true) : rwf s.regs := canon_regs h
theorem rwf_rset {r : List (Nat × Word)} {k v : Nat} (h : rwf r) : rwf (rset r k v) := Sparse.wf_set h
theorem rwf_rput {r : List (Nat × Word)} {f : Field} {v : Nat} (h : rwf r) : rwf (rput r f v) := by
  unfold rput; split
  · exact rwf_rset h
  · exact rwf_rset (rwf_rset h)

/-- A state with a given register file, to carry a law of states over to register files. -/
theorem rget_rput_same {r : List (Nat × Word)} {f : Field} {v : Nat} (h : rwf r) (hf : f.ok = true) :
    rget (rput r f v) f = v % 2 ^ f.width := by
  have := get_put_same (s := { State.reset with regs := r }) (f := f) (v := v) (by simpa [State.canon] using ⟨h, by decide⟩) hf
  rwa [get_rget, regs_put] at this

theorem rget_rput_apart {r : List (Nat × Word)} {f g : Field} {v : Nat} (h : rwf r) (hf : f.ok = true) (hg : g.ok = true)
    (ha : Field.apart f g) : rget (rput r f v) g = rget r g := by
  have := get_put_apart (s := { State.reset with regs := r }) (f := f) (g := g) (v := v) (by simpa [State.canon] using ⟨h, by decide⟩) hf hg ha
  simpa only [get_rget, regs_put] using this

theorem rword_rset_same {r : List (Nat × Word)} {k v : Nat} (h : rwf r) : rword (rset r k v) k = v % 2 ^ 32 := by
  simp [rword, rset, Sparse.get_set_same h]

theorem rword_rset_ne {r : List (Nat × Word)} {k j v : Nat} (h : rwf r) (hj : j ≠ k) : rword (rset r k v) j = rword r j := by
  simp [rword, rset, Sparse.get_set_ne h hj]

theorem rword_rput_ne {r : List (Nat × Word)} {f : Field} {v k : Nat} (h : rwf r) (h1 : k ≠ f.key) (h2 : f.hi < 32 ∨ k ≠ f.key + 4) :
    rword (rput r f v) k = rword r k := by
  unfold rput; split
  · exact rword_rset_ne h h1
  · dsimp only; rw [rword_rset_ne (rwf_rset h) (by omega), rword_rset_ne h h1]

theorem rget_lt (r : List (Nat × Word)) (f : Field) : rget r f < 2 ^ f.width := by
  unfold rget Field.width; split <;> exact bits_lt _ _ _

end Sys2Proof.Machine
end

