-- ==== Sys2Proof/Laws/Within.lean ====
section
/-! SUPPORT. Which words an update can change: `Within area s t`, through the shared operations; what raising an event does. The
frames of Safety follow from it by `quietFrame` and `noisyFrame`. -/

namespace Sys2Proof.Machine

/-! ## Raising an event (R393, R394) -/

theorem put_rest (s : State) (f : Field) (v : Nat) : s.put f v = { s with regs := rput s.regs f v } := by
  unfold State.put rput; split <;> rfl

theorem raiseEvent_rest (s : State) (e : Event) :
    s.raiseEvent e = { s with regs := (s.raiseEvent e).regs, events := (s.raiseEvent e).events, once := (s.raiseEvent e).once } := by
  unfold State.raiseEvent State.bump
  split
  · rfl
  · dsimp only; split
    · simp only [put_rest]
    · split <;> simp only [put_rest]

theorem raiseEvent_kept (s : State) (e : Event) : s.events <+: (s.raiseEvent e).events := by
  unfold State.raiseEvent State.bump
  split
  · exact List.prefix_append _ _
  · dsimp only; split
    · simp
    · split <;> simp

theorem raiseEvent_room (s : State) (e : Event) (h : s.eventsOf e.unit < 1024) : s.raiseEvent e = { s with events := s.events ++ [e] } := by
  unfold State.raiseEvent; rw [if_pos h]

/-! ## Words back at reset -/

theorem Sparse.get_filter_in {w : Nat} {d : Nat → BitVec w} {l : List (Nat × BitVec w)} {p : Nat → Bool} {k : Nat} (h : p k = true) :
    Sparse.get d (l.filter (fun x => !p x.1)) k = d k := by
  induction l with
  | nil => rfl
  | cons x l ih =>
    rw [List.filter_cons]
    split
    · rename_i hx
      obtain ⟨a, v⟩ := x
      rw [Sparse.get_head, if_neg (by rintro rfl; simp [h] at hx), ih, ite_self]
    · exact ih

theorem Sparse.get_filter_out {w : Nat} {d : Nat → BitVec w} {l : List (Nat × BitVec w)} {p : Nat → Bool} {a k : Nat}
    (hl : Sparse.wfFrom d a l = true) (h : p k = false) : Sparse.get d (l.filter (fun x => !p x.1)) k = Sparse.get d l k := by
  induction l generalizing a with
  | nil => rfl
  | cons x l ih =>
    obtain ⟨b, v⟩ := x
    simp only [Sparse.wfFrom, Bool.and_eq_true] at hl
    rw [List.filter_cons, Sparse.get_head]
    split
    · rw [Sparse.get_head, ih hl.2]
    · rename_i hx
      rw [if_neg (by rintro rfl; simp [h] at hx), ih hl.2]
      split
      · exact Sparse.get_below hl.2 (by omega)
      · rfl

theorem rd_resetWords {s : State} {area : Nat → Bool} {k : Nat} (hc : s.canon = true) :
    (s.resetWords area).rd k = if area k then (resetWord k).toNat else s.rd k := by
  unfold State.rd State.resetWords
  split
  · rename_i h; rw [Sparse.get_filter_in h]
  · rename_i h; rw [Sparse.get_filter_out (canon_regs hc) (by simpa using h)]

/-! ## Where words change -/

/-- From `s` to `t`: canonical stays canonical, no word outside `area` changes, and no event store loses an event. -/
structure Within (area : Nat → Bool) (s t : State) : Prop where
  canon : s.canon = true → t.canon = true
  words : s.canon = true → onlyWords area s t
  kept : s.events <+: t.events

theorem Within.refl {area : Nat → Bool} (s : State) : Within area s s := ⟨id, fun _ _ _ => rfl, List.prefix_refl _⟩

theorem Within.trans {area : Nat → Bool} {a b c : State} (h : Within area a b) (g : Within area b c) : Within area a c :=
  ⟨fun x => g.canon (h.canon x), fun x k hk => (g.words (h.canon x) k hk).trans (h.words x k hk), h.kept.trans g.kept⟩

theorem Within.mono {area more : Nat → Bool} {s t : State} (h : Within area s t) (hm : ∀ k, area k = true → more k = true) : Within more s t :=
  ⟨h.canon, fun c k hk => h.words c k (by cases ha : area k with
    | false => rfl
    | true => rw [hm k ha] at hk; cases hk), h.kept⟩

theorem within_same {area : Nat → Bool} {s₀ s t : State} (h : Within area s₀ s) (h1 : t.regs = s.regs) (h2 : t.events = s.events)
    (h3 : t.sup.flash = s.sup.flash) : Within area s₀ t :=
  ⟨fun c => by have := h.canon c; simp only [State.canon, h1, h3] at this ⊢; exact this,
    fun c k hk => by rw [← h.words c k hk]; exact rd_congr h1 k, h2 ▸ h.kept⟩

theorem within_wr {area : Nat → Bool} {s₀ s : State} {k v : Nat} (h : Within area s₀ s) (h1 : area k = true) : Within area s₀ (s.wr k v) := by
  refine ⟨fun c => canon_wr (h.canon c), fun c j hj => ?_, by simpa using h.kept⟩
  rw [rd_wr_ne (h.canon c), h.words c j hj]
  rintro rfl; simp [h1] at hj

theorem within_put {area : Nat → Bool} {s₀ s : State} {f : Field} {v : Nat} (h : Within area s₀ s) (h1 : area f.key = true)
    (h2 : f.hi < 32 ∨ area (f.key + 4) = true) : Within area s₀ (s.put f v) := by
  refine ⟨fun c => canon_put (h.canon c), fun c k hk => ?_, by simpa using h.kept⟩
  rw [rd_put_ne (h.canon c), h.words c k hk]
  · rintro rfl; simp [h1] at hk
  · rcases h2 with h2 | h2
    · exact .inl h2
    · right; rintro rfl; simp [h2] at hk

theorem within_wrWords {area : Nat → Bool} {s₀ s : State} {k : Nat} {l : List Nat} (h : Within area s₀ s)
    (h1 : ∀ i < l.length, area (k + 4 * i) = true) : Within area s₀ (s.wrWords k l) := by
  induction l generalizing s k with
  | nil => exact h
  | cons v l ih =>
    refine ih (within_wr h (h1 0 (by simp))) fun i hi => ?_
    have := h1 (i + 1) (by simpa using hi)
    rwa [show k + 4 * (i + 1) = k + 4 + 4 * i from by omega] at this

theorem within_hlog {area : Nat → Bool} {s₀ s : State} {type u pay : Nat} (h : Within area s₀ s) (h1 : ∀ k, logWord k = true → area k = true) :
    Within area s₀ (s.hlog type u pay) := by
  unfold State.hlog
  refine within_put (within_wrWords h fun i hi => h1 _ ?_) (h1 _ (by decide)) (.inl (by decide))
  have := Nat.mod_lt (s.get Reg.SUP_HLOG_PROD) (show 0 < 1024 by decide)
  simp only [List.length_cons, List.length_nil] at hi
  simp only [logWord, inRange, Bool.or_eq_true, Bool.and_eq_true, decide_eq_true_eq]
  left; omega

theorem within_raiseEvent {area : Nat → Bool} {s₀ s : State} {e : Event} (h : Within area s₀ s) (h1 : area Reg.QE_ARB_LOST.key = true)
    (h2 : area (Reg.QE_ARB_LOST.key + 4) = true) : Within area s₀ (s.raiseEvent e) := by
  unfold State.raiseEvent State.bump
  have hp := within_put (f := Reg.QE_ARB_LOST) (v := s.get Reg.QE_ARB_LOST + 1) h h1 (.inr h2)
  split
  · exact ⟨h.canon, h.words, h.kept.trans (List.prefix_append _ _)⟩
  · dsimp only; split
    · exact hp
    · split
      · have hq := within_put (f := Reg.QE_ARB_LOST) (v := (s.put Reg.QE_ARB_LOST (s.get Reg.QE_ARB_LOST + 1)).get Reg.QE_ARB_LOST + 1)
          hp h1 (.inr h2)
        exact ⟨hq.canon, hq.words, hq.kept⟩
      · exact ⟨hp.canon, hp.words, hp.kept.trans (List.prefix_append _ _)⟩

theorem within_raise {area : Nat → Bool} {s₀ s : State} {u : Unit'} {ty : Nat} {l : List (Nat × Nat)} (h : Within area s₀ s)
    (h1 : area Reg.QE_ARB_LOST.key = true) (h2 : area (Reg.QE_ARB_LOST.key + 4) = true) : Within area s₀ (s.raise u ty l) :=
  within_raiseEvent h h1 h2

theorem within_ite {area : Nat → Bool} {s₀ a b : State} {c : Prop} [Decidable c] (ha : Within area s₀ a) (hb : Within area s₀ b) :
    Within area s₀ (if c then a else b) := by split <;> assumption

theorem within_when {area : Nat → Bool} {s₀ s : State} {b : Bool} {f : State → State} (h : Within area s₀ s) (hf : Within area s₀ (f s)) :
    Within area s₀ (s.when b f) := by unfold State.when; split <;> assumption

theorem within_foldl {α : Type} {area : Nat → Bool} {s₀ s : State} {l : List α} {f : State → α → State} (h : Within area s₀ s)
    (hf : ∀ s x, Within area s₀ s → Within area s₀ (f s x)) : Within area s₀ (l.foldl f s) := by
  induction l generalizing s with
  | nil => exact h
  | cons x l ih => exact ih (hf s x h)

theorem quietFrame {area : Nat → Bool} {s u t : State} (hc : s.canon = true) (h : Within area s t) (e : t = { u with regs := t.regs }) :
    QuietFrame area s u t := ⟨h.words hc, e⟩

theorem noisyFrame {area : Nat → Bool} {s u t : State} (hc : s.canon = true) (h : Within (fun k => area k || words [Reg.QE_ARB_LOST] k) s t)
    (e : t = { u with regs := t.regs, events := t.events, once := t.once }) : NoisyFrame area s u t := ⟨h.words hc, h.kept, e⟩

end Sys2Proof.Machine
end

