-- ==== Sys2Proof/Tests/Slice0.lean ====
section
/-! SUPPORT. Tests: ill-formed terms that the check refuses, single steps whose results the spec gives, and for each statement states
and operands that meet its hypotheses. -/

namespace Sys2Proof.Tests

open Sys2Proof Sys2Proof.Machine

set_option Elab.async false

/-- `s` with fields set. -/
def puts (s : State) (l : List (Field × Nat)) : State := l.foldl (fun s p => s.put p.1 p.2) s

/-- Fields set on the machine right after reset. -/
def off (l : List (Field × Nat)) : State := puts State.reset l

/-- Fields set on a machine whose units are all in RUN, in tick 100, LOCKED, and whose host link is up. -/
def on (l : List (Field × Nat)) : State :=
  puts (puts (puts State.reset ((List.range 14).map (fun u => (Reg.UNIT_STATE u, 2))))
    [(Reg.TE_TICK, 100), (Reg.TE_SYNC_STATE_STATE, 1), (Reg.HIU_LINK_STATUS_UP, 1), (cfgMse, 1), (Reg.SUP_BOOT_STATUS_TIER, 3)]) l

/-! A unit's hidden state set. -/

def onSup (s : State) (f : SupState → SupState) : State := { s with sup := f s.sup }
def onTe (s : State) (f : TeState → TeState) : State := { s with te := f s.te }
def onHgc (s : State) (f : HgcState → HgcState) : State := { s with hgc := f s.hgc }
def onMedia (s : State) (f : MediaState → MediaState) : State := { s with media := f s.media }
def onPcu (s : State) (f : PcuState → PcuState) : State := { s with pcu := f s.pcu }
def onFtu (s : State) (f : FtuState → FtuState) : State := { s with ftu := f s.ftu }
def onFpu (s : State) (f : FpuState → FpuState) : State := { s with fpu := f s.fpu }
def onEgu (s : State) (f : EguState → EguState) : State := { s with egu := f s.egu }
def onCku (s : State) (f : CkuState → CkuState) : State := { s with cku := f s.cku }
def onPxc (s : State) (f : PxcState → PxcState) : State := { s with pxc := f s.pxc }
def onRtu (s : State) (f : RtuState → RtuState) : State := { s with rtu := f s.rtu }
def onHiu (s : State) (f : HiuState → HiuState) : State := { s with hiu := f s.hiu }
def onTtu (s : State) (f : TtuState → TtuState) : State := { s with ttu := f s.ttu }
def onQe (s : State) (f : QeState → QeState) : State := { s with qe := f s.qe }
def onSie (s : State) (f : SieState → SieState) : State := { s with sie := f s.sie }

/-- A pair whose first part is something, taken apart. -/
theorem some_pair {α β : Type} {x : Option (List α) × β} (h : x.1.isSome = true) : x = (some (x.1.getD []), x.2) := by
  rcases x with ⟨_ | a, b⟩
  · cases h
  · rfl

/-- What holds of the next state of a command. -/
def after (c : Instr) (s : State) (p : State → Bool) : Bool :=
  match exec c s with
  | .next t => p t
  | .fault _ => false
  | .refused _ => false

/-! ## Ill-formed terms -/

theorem test_wf_refuses_offset : (Instr.fabricTransfer 1000000).wf = false := by decide
theorem test_wf_refuses_access_size : (Instr.readClear .pf0 ⟨.bar0, 0⟩ 3).wf = false := by decide
theorem test_wf_refuses_window : (Instr.stagedWrite .pf0 268435456 0).wf = false := by decide
theorem test_wf_refuses_frame : (Instr.regFrameRead (zeros 16385)).wf = false := by decide +kernel
theorem test_wf_refuses_walk : (Instr.wrrTurn [[none, none, none, none, none]]).wf = false := by decide
theorem test_wf_refuses_shadow_index : (Instr.shadowCompare 0 1048576 false ⟨[], none⟩).wf = false := by decide
theorem test_wf_refuses_record_fault : [(⟨[(0, [4294967296])], none⟩ : RecordFault), ⟨[(0, List.replicate 17 0)], none⟩,
    ⟨[], some ([], 4294967296)⟩].all (fun x => !(Instr.shadowCompare 0 0 false x).wf) = true := by decide
theorem test_wf_refuses_lookup_fault : (Instr.pipelineHeadAccept 0 0 (some ⟨6, 1048576, noFault, false⟩)).wf = false := by decide
theorem test_wf_refuses_ptp_interval :
    (Instr.ptpMessageReceived 0 ⟨.announce, .ethernet, false, 0, 128, false, 0, [], 0, 0⟩).wf = false := by decide
theorem test_wf_refuses_image : [
    (⟨[(2, 0)], [], [], [], [], [], none, [], 0, [], [], false⟩ : ImagePart),
    ⟨[], [⟨0, 0, 2, 0, 0, 0, false, 0, false, 0⟩], [], [], [], [], none, [], 0, [], [], false⟩,
    ⟨[], [], [⟨0, 0, 4096, 0, false, 0, 0, false, 0, 0⟩], [], [], [], none, [], 0, [], [], false⟩,
    ⟨[], [], [], [], [], [(131073, 0)], none, [], 0, [], [], false⟩].all (fun p => !(Instr.unitLoad 1 true true true p).wf) = true := by decide
theorem test_wf_refuses_tick_input : [
    (⟨[(65536, 0)], [], [], 0, [], 0, 0, [], false, []⟩ : TickInput), ⟨[(0, 64)], [], [], 0, [], 0, 0, [], false, []⟩,
    ⟨[], [8192], [], 0, [], 0, 0, [], false, []⟩, ⟨[], [], [393216], 0, [], 0, 0, [], false, []⟩,
    ⟨[], [], [], 262145, [], 0, 0, [], false, []⟩, ⟨[], [], [], 0, [(256, 0)], 0, 0, [], false, []⟩,
    ⟨[], [], [], 0, [(37, 0)], 0, 0, [], false, []⟩, ⟨[], [], [], 0, [], 4097, 0, [], false, []⟩,
    ⟨[], [], [], 0, [], 0, 16385, [], false, []⟩, ⟨[], [], [], 0, [], 0, 0, [], false, [[none, none, none, none, none]]⟩].all
    (fun x => !(Instr.tickBoundary x).wf) = true := by decide
theorem test_wf_refuses_scrub_place : [ScrubPlace.frame 262144, .ftuRecord 0 1048576 0, .learned 4 0 0, .learned 0 0 8, .tlb 4096 0,
    .backlog 281474976710656 0 0, .backlog 0 65536 0].all (fun p => !(Instr.scrubVisit (.bad p) false).wf) = true := by decide
theorem test_wf_refuses_carried : [CarriedOp.words [(1, 0)], .admission true 8192, .remove false 65536, .lpm true 2 0 0 0 0,
    .macStatic true 4096 0 0 0, .gain 131072 0, .rearm 65536 0, .limit 2 0, .key false 65536 0 [], .keyErase 65536,
    .vlan 3 0].all (fun o => !(Instr.carriedCommand 0 0 o).wf) = true := by decide
theorem test_wf_refuses_hello :
    (Instr.hello 0 0 0 ⟨65536, 0, 0, 0, 0⟩).wf = false := by decide
theorem test_wf_refuses_heartbeat : [(⟨0, 0, 0, 0, 0, [], []⟩ : HeartbeatMsg), ⟨8, 0, 0, 0, 0, [], List.replicate 16 0⟩,
    ⟨0, 0, 0, 0, 0, [⟨65536, false, false, false, 0⟩], List.replicate 16 0⟩].all (fun m => !(Instr.heartbeat 0 m).wf) = true := by
  decide
theorem test_wf_refuses_bulk : (Instr.bulkDone ⟨0, [(3, 0, 0)], [], [], [], [], [], [], [], [], [], [], 0, 0⟩).wf = false := by decide
theorem test_wf_refuses_settle : (Instr.deltaDone ⟨0, [], [(131072, false, 0)]⟩).wf = false := by decide
theorem test_wf_refuses_segment : (Instr.tcpSegment 0 ⟨0, 0, 65536, false, false, none, 0, 0, []⟩).wf = false := by decide
theorem test_wf_refuses_namespace : (Instr.identifyDone [⟨1, 32, false, 0⟩]).wf = false := by decide
theorem test_wf_refuses_pause : (Instr.pauseFrame 0 0 0 0 []).wf = false := by decide
theorem test_wf_refuses_host_mirror : (Instr.hostMirror 0 16777216 []).wf = false := by decide
theorem test_wf_refuses_temperatures : (Instr.tempUpdate []).wf = false := by decide
theorem test_wf_refuses_entry : (Instr.descriptorFetch 0 [(none, 281474976710656)] []).wf = false := by decide
theorem test_wf_refuses_pdu : (Instr.readyToTransfer 0 0 0 0 4294967296 ⟨true, none⟩ []).wf = false := by decide

/-! ## Single steps -/

/-- No row of the table gives bits, so no word spells a command. -/
theorem test_no_word_spells_a_command : decodeTableWord 32 0xFFFFFFFF = none := by decide

/-- The empty queue idles (DESIGN CHOICE, log entry 1). -/
theorem test_empty_queue_idles : step State.reset = .next State.reset := rfl

/-- R99: half the range apart, neither value is newer. -/
theorem test_serial_half_range : serialNewer 8 128 0 = false ∧ serialNewer 8 0 128 = false ∧ serialNewer 8 127 0 = true := by decide

/-- R409: an unsupported request of the drive is counted, and the counter wraps. -/
theorem test_drive_ur_counter_wraps :
    after .driveRequestUr (on [(Reg.SIE_SLOT_UR, 0xFFFFFFFFFFFFFFFF)]) (fun t => t.get Reg.SIE_SLOT_UR == 0) = true := by decide +kernel

/-- R411: a present drive is powered at once where the policy is 0, and waits for PF0 where it is 1. -/
theorem test_presence_powers :
    after .presenceStable (on []) (fun t => t.slotState == 2) = true ∧
    after .presenceStable (on [(Reg.SIE_SLOT_CFG_POLICY, 1)]) (fun t => t.slotState == 1) = true := by decide +kernel

/-- R345: nothing leaves the device as DMA in standalone mode. -/
theorem test_standalone_blocks_dma : ((on []).dmaRead (.fetch 0 0) 0 4096 16).1 = false ∧
    ((on []).dmaRead (.fetch 0 0) 0 4096 16).2.get Reg.HIU_DMA_BLOCKED = 1 := by decide +kernel

/-- R318: a STANDBY refuses a local ADD, and counts it. -/
theorem test_standby_refuses_add :
    after (.addFlow .pf0 0) (on [(Reg.HGC_CFG_ROLE, 1), (Reg.HGC_STATE_STATE, 3)]) (fun t => t.get Reg.HGC_LOCAL_REFUSED == 1) = true := by
  decide +kernel

/-- R402: a status code of type 0 and value 0 is success, and a device error stands above bit 14. -/
theorem test_storage_status : nvmeStatus 0 0 = 0 ∧ deviceError 9 = 0x8009 := by decide

/-! ## Witnesses

For each statement with hypotheses, states and operands that meet them, clause by clause, at ends of their ranges. -/

theorem witness_SyncLossCommandsComplete :
    (∃ (s : State), s.canon = true ∧ s.syncState = 1) ∧
    (∃ (s : State), s.canon = true ∧ s.syncState = 1 ∧ s.flag Reg.TE_SYNC_STATE_REF10_OK = false) ∧
    (∃ (s : State) (gm : Fin 4), s.canon = true ∧ s.te.gm = some gm.val ∧ s.te.announces.all (fun x => x.1 / 256 == gm.val) =
      true ∧ s.syncState = 1) ∧
    (∃ (s : State), s.canon = true ∧ s.syncState = 2) ∧
    (∃ (s : State), s.canon = true ∧ s.flag Reg.TE_CFG_REF10_EN = true ∧ s.te.refAbsent = false ∧ s.flag
      Reg.TE_SYNC_STATE_REF10_OK = true) ∧
    (∃ (s : State), s.canon = true ∧ s.flag Reg.TE_CFG_REF10_EN = true ∧ s.te.refAbsent = false ∧ s.flag
      Reg.TE_SYNC_STATE_REF10_OK = false) ∧
    (∃ (s : State), s.canon = true ∧ s.flag Reg.TE_CFG_REF10_EN = true) ∧
    (∃ (s : State) (e : Int), s.canon = true ∧ s.flag Reg.TE_CFG_PPS_EN = true ∧ s.syncState = 1 ∧ Int.natAbs e ≤ 1000) ∧
    (∃ (s : State) (e : Int), s.canon = true ∧ s.flag Reg.TE_CFG_PPS_EN = true ∧ s.syncState = 1 ∧ 1000 < Int.natAbs e ∧ s.flag
      Reg.TE_SYNC_STATE_PPS_OK = true) ∧
    (∃ (s : State), s.canon = true ∧ s.flag Reg.TE_CFG_PPS_EN = true ∧ s.syncState = 1 ∧ s.flag Reg.TE_SYNC_STATE_PPS_OK = true)
      :=
  ⟨⟨on [], by decide +kernel⟩,
    ⟨on [], by decide +kernel⟩,
    ⟨(onTe (on []) fun x => { x with gm := some 3, announces := [(3 * 256, [])] }), 3, by decide +kernel⟩,
    ⟨on [(Reg.TE_SYNC_STATE_STATE, 2)], by decide +kernel⟩,
    ⟨on [(Reg.TE_CFG_REF10_EN, 1), (Reg.TE_SYNC_STATE_REF10_OK, 1)], by decide +kernel⟩,
    ⟨on [(Reg.TE_CFG_REF10_EN, 1)], by decide +kernel⟩,
    ⟨on [(Reg.TE_CFG_REF10_EN, 1)], by decide +kernel⟩,
    ⟨on [(Reg.TE_CFG_PPS_EN, 1)], -1000, by decide +kernel⟩,
    ⟨on [(Reg.TE_CFG_PPS_EN, 1), (Reg.TE_SYNC_STATE_PPS_OK, 1)], 1001, by decide +kernel⟩,
    ⟨on [(Reg.TE_CFG_PPS_EN, 1), (Reg.TE_SYNC_STATE_PPS_OK, 1)], by decide +kernel⟩⟩

theorem witness_TimeCommandsComplete :
    (∃ (s : State) (p : Fin 32) (m : PtpMsg) (g : Nat), s.canon = true ∧ s.ptpPort p = true ∧ transportOk (s.get
      Reg.TE_CFG_PROFILE) m.transport = true ∧ m.domain.val = s.get Reg.TE_CFG_DOMAIN ∧ m.twoStep = false ∧ m.unsupported =
      false ∧ intervalOk m = true ∧ p.val ∉ s.te.faulty ∧ s.gmIndex m.gmId.toNat = some g ∧ s.te.gm = some g ∧ m.kind = .sync ∧
      s.syncState ≠ 4) ∧
    (∃ (s : State) (p : Fin 32) (kind : PtpKind) (l : Bytes) (u : State), s.canon = true ∧ s.ptpPort p = true ∧ p.val ∉
      s.te.faulty ∧ s.sendsPtp p kind = true ∧ s.running .egu = true ∧ s.isPaused p 8 = false ∧ s.pxc.txStopped = false ∧
      s.macsecOut p (Config.ptpFrame [p, PtpKind.code kind, s.get Reg.TE_CFG_PROFILE, s.ptpTransport p, s.get Reg.TE_CFG_DOMAIN,
      s.ptpTime p kind]) = (some l, u)) ∧
    (∃ (s : State), s.canon = true) ∧
    (∃ (s : State), s.canon = true ∧ (s.te.wasLocked = true ∨ s.syncState = 1) ∧ s.mediaRun = false) ∧
    (∃ (s : State) (r : Requester), s.canon = true ∧ s.mayWrite r Reg.TE_CTL_RESTEP.key = true ∧ s.syncState = 4 ∧ s.holdsLease
      = false) ∧
    (∃ (s : State), s.canon = true ∧ s.flag Reg.TE_CTL_RESTEP = true ∧ s.mediaRun = true ∧ s.media.flows = [] ∧ s.media.copies =
      []) :=
  ⟨⟨(onTe (on [(Reg.PXC_QUAD_CFG_MODE 7, 4), (Reg.PXC_PORT_STATUS_STATE 31, 3), (Reg.PXC_PORT_CFG_SPEED 31, 6),
    (Reg.PXC_PORT_CFG_MTU 31, 1522), (⟨gateNow 31 0, 31, 0⟩, 0x800000FF), (Reg.TE_PTP_PORTS, 0x80000000), (Reg.TE_GM_ID 3,
    0xFFFFFFFFFFFFFFFF), (Reg.TE_CFG_ROLE, 1)]) fun x => { x with gm := some 3 }), 31, ⟨.sync, .ethernet, false, 0, -7, false,
    0xFFFFFFFFFFFFFFFF, [], -2147483648, 5⟩, 3, by decide +kernel⟩,
    ⟨(onTe (on [(Reg.PXC_QUAD_CFG_MODE 7, 4), (Reg.PXC_PORT_STATUS_STATE 31, 3), (Reg.PXC_PORT_CFG_SPEED 31, 6),
      (Reg.PXC_PORT_CFG_MTU 31, 1522), (⟨gateNow 31 0, 31, 0⟩, 0x800000FF), (Reg.TE_PTP_PORTS, 0x80000000), (Reg.TE_GM_ID 3,
      0xFFFFFFFFFFFFFFFF), (Reg.TE_CFG_ROLE, 1)]) fun x => { x with gm := some 3 }), 31, .sync, (((onTe (on
      [(Reg.PXC_QUAD_CFG_MODE 7, 4), (Reg.PXC_PORT_STATUS_STATE 31, 3), (Reg.PXC_PORT_CFG_SPEED 31, 6), (Reg.PXC_PORT_CFG_MTU
      31, 1522), (⟨gateNow 31 0, 31, 0⟩, 0x800000FF), (Reg.TE_PTP_PORTS, 0x80000000), (Reg.TE_GM_ID 3, 0xFFFFFFFFFFFFFFFF),
      (Reg.TE_CFG_ROLE, 1)]) fun x => { x with gm := some 3 })).macsecOut 31 (Config.ptpFrame [31, PtpKind.code .sync, ((onTe
      (on [(Reg.PXC_QUAD_CFG_MODE 7, 4), (Reg.PXC_PORT_STATUS_STATE 31, 3), (Reg.PXC_PORT_CFG_SPEED 31, 6),
      (Reg.PXC_PORT_CFG_MTU 31, 1522), (⟨gateNow 31 0, 31, 0⟩, 0x800000FF), (Reg.TE_PTP_PORTS, 0x80000000), (Reg.TE_GM_ID 3,
      0xFFFFFFFFFFFFFFFF), (Reg.TE_CFG_ROLE, 1)]) fun x => { x with gm := some 3 })).get Reg.TE_CFG_PROFILE, ((onTe (on
      [(Reg.PXC_QUAD_CFG_MODE 7, 4), (Reg.PXC_PORT_STATUS_STATE 31, 3), (Reg.PXC_PORT_CFG_SPEED 31, 6), (Reg.PXC_PORT_CFG_MTU
      31, 1522), (⟨gateNow 31 0, 31, 0⟩, 0x800000FF), (Reg.TE_PTP_PORTS, 0x80000000), (Reg.TE_GM_ID 3, 0xFFFFFFFFFFFFFFFF),
      (Reg.TE_CFG_ROLE, 1)]) fun x => { x with gm := some 3 })).ptpTransport 31, ((onTe (on [(Reg.PXC_QUAD_CFG_MODE 7, 4),
      (Reg.PXC_PORT_STATUS_STATE 31, 3), (Reg.PXC_PORT_CFG_SPEED 31, 6), (Reg.PXC_PORT_CFG_MTU 31, 1522), (⟨gateNow 31 0, 31,
      0⟩, 0x800000FF), (Reg.TE_PTP_PORTS, 0x80000000), (Reg.TE_GM_ID 3, 0xFFFFFFFFFFFFFFFF), (Reg.TE_CFG_ROLE, 1)]) fun x =>
      { x with gm := some 3 })).get Reg.TE_CFG_DOMAIN, ((onTe (on [(Reg.PXC_QUAD_CFG_MODE 7, 4), (Reg.PXC_PORT_STATUS_STATE 31,
      3), (Reg.PXC_PORT_CFG_SPEED 31, 6), (Reg.PXC_PORT_CFG_MTU 31, 1522), (⟨gateNow 31 0, 31, 0⟩, 0x800000FF),
      (Reg.TE_PTP_PORTS, 0x80000000), (Reg.TE_GM_ID 3, 0xFFFFFFFFFFFFFFFF), (Reg.TE_CFG_ROLE, 1)]) fun x =>
      { x with gm := some 3 })).ptpTime 31 .sync])).1.getD [], (((onTe (on [(Reg.PXC_QUAD_CFG_MODE 7, 4),
      (Reg.PXC_PORT_STATUS_STATE 31, 3), (Reg.PXC_PORT_CFG_SPEED 31, 6), (Reg.PXC_PORT_CFG_MTU 31, 1522), (⟨gateNow 31 0, 31,
      0⟩, 0x800000FF), (Reg.TE_PTP_PORTS, 0x80000000), (Reg.TE_GM_ID 3, 0xFFFFFFFFFFFFFFFF), (Reg.TE_CFG_ROLE, 1)]) fun x =>
      { x with gm := some 3 })).macsecOut 31 (Config.ptpFrame [31, PtpKind.code .sync, ((onTe (on [(Reg.PXC_QUAD_CFG_MODE 7, 4),
      (Reg.PXC_PORT_STATUS_STATE 31, 3), (Reg.PXC_PORT_CFG_SPEED 31, 6), (Reg.PXC_PORT_CFG_MTU 31, 1522), (⟨gateNow 31 0, 31,
      0⟩, 0x800000FF), (Reg.TE_PTP_PORTS, 0x80000000), (Reg.TE_GM_ID 3, 0xFFFFFFFFFFFFFFFF), (Reg.TE_CFG_ROLE, 1)]) fun x =>
      { x with gm := some 3 })).get Reg.TE_CFG_PROFILE, ((onTe (on [(Reg.PXC_QUAD_CFG_MODE 7, 4), (Reg.PXC_PORT_STATUS_STATE 31,
      3), (Reg.PXC_PORT_CFG_SPEED 31, 6), (Reg.PXC_PORT_CFG_MTU 31, 1522), (⟨gateNow 31 0, 31, 0⟩, 0x800000FF),
      (Reg.TE_PTP_PORTS, 0x80000000), (Reg.TE_GM_ID 3, 0xFFFFFFFFFFFFFFFF), (Reg.TE_CFG_ROLE, 1)]) fun x =>
      { x with gm := some 3 })).ptpTransport 31, ((onTe (on [(Reg.PXC_QUAD_CFG_MODE 7, 4), (Reg.PXC_PORT_STATUS_STATE 31, 3),
      (Reg.PXC_PORT_CFG_SPEED 31, 6), (Reg.PXC_PORT_CFG_MTU 31, 1522), (⟨gateNow 31 0, 31, 0⟩, 0x800000FF), (Reg.TE_PTP_PORTS,
      0x80000000), (Reg.TE_GM_ID 3, 0xFFFFFFFFFFFFFFFF), (Reg.TE_CFG_ROLE, 1)]) fun x => { x with gm := some 3 })).get
      Reg.TE_CFG_DOMAIN, ((onTe (on [(Reg.PXC_QUAD_CFG_MODE 7, 4), (Reg.PXC_PORT_STATUS_STATE 31, 3), (Reg.PXC_PORT_CFG_SPEED
      31, 6), (Reg.PXC_PORT_CFG_MTU 31, 1522), (⟨gateNow 31 0, 31, 0⟩, 0x800000FF), (Reg.TE_PTP_PORTS, 0x80000000),
      (Reg.TE_GM_ID 3, 0xFFFFFFFFFFFFFFFF), (Reg.TE_CFG_ROLE, 1)]) fun x => { x with gm := some 3 })).ptpTime 31 .sync])).2,
      by decide +kernel, by decide +kernel, by decide +kernel, by decide +kernel, by decide +kernel, by decide +kernel,
      by decide +kernel, some_pair (by decide +kernel)⟩,
    ⟨(onTe (on [(Reg.PXC_QUAD_CFG_MODE 7, 4), (Reg.PXC_PORT_STATUS_STATE 31, 3), (Reg.PXC_PORT_CFG_SPEED 31, 6),
      (Reg.PXC_PORT_CFG_MTU 31, 1522), (⟨gateNow 31 0, 31, 0⟩, 0x800000FF), (Reg.TE_PTP_PORTS, 0x80000000), (Reg.TE_GM_ID 3,
      0xFFFFFFFFFFFFFFFF), (Reg.TE_CFG_ROLE, 1)]) fun x => { x with faulty := [31, 0] }), by decide +kernel⟩,
    ⟨(onTe (on []) fun x => { x with changes := [⟨true, 4, false, none⟩] }), by decide +kernel⟩,
    ⟨on [(Reg.TE_SYNC_STATE_STATE, 4)], .pf0, by decide +kernel⟩,
    ⟨on [(Reg.TE_CTL_RESTEP, 1), (Reg.TE_SYNC_STATE_MEDIA_RUN, 1)], by decide +kernel⟩⟩

theorem witness_AdmissionCommandsComplete :
    (∃ (s : State) (r : Requester) (id : Fin 65536) (t : Nat) (b : Booking), s.canon = true ∧ s.mayAdmit r = true ∧ s.pairRole =
      false ∧ s.admitCheck false id (s.get Reg.TE_ADMIT_TICK) = .ok t b) ∧
    (∃ (s : State) (r : Requester) (id : Fin 8192) (t : Nat) (b : Booking), s.canon = true ∧ s.mayAdmit r = true ∧ s.pairRole =
      false ∧ s.admitCheck true id (s.get Reg.TE_ADMIT_TICK) = .ok t b) ∧
    (∃ (s : State) (r : Requester) (id : Fin 65536), s.canon = true ∧ s.mayAdmit r = true ∧ s.pairRole = false ∧ s.changeOf
      false id = none ∧ s.flag (Reg.FLOW_PENDING id) = false ∧ s.get (Reg.FLOW_SRC_KIND id) ≠ 2 ∧ s.flag (Reg.FLOW_ADMITTED id)
      = true ∧ s.get Reg.TE_ADMIT_TICK = 0 ∧ s.tick + 2 < 2 ^ 48) ∧
    (∃ (s : State) (r : Requester) (id : Fin 8192), s.canon = true ∧ s.mayAdmit r = true ∧ s.pairRole = false ∧ s.changeOf true
      id = none ∧ s.flag (Reg.POINT_ADMITTED id) = true ∧ s.get Reg.TE_ADMIT_TICK = 0) ∧
    (∃ (s : State) (r : Requester) (id : Fin 65536) (code : Nat) (row : Nat), s.canon = true ∧ s.mayAdmit r = true ∧
      s.admitCheck false id (s.get Reg.TE_ADMIT_TICK) = .fail code row) ∧
    (∃ (s : State) (r : Requester) (id : Fin 65536) (t : Nat) (b : Booking), s.canon = true ∧ s.mayAdmit r = true ∧ s.admitCheck
      false id (s.get Reg.TE_ADMIT_TICK) = .ok t b) :=
  ⟨⟨(on [(Reg.FLOW_SRC_KIND 65535, 1), (Reg.FLOW_SRC 65535, 3), (Reg.FLOW_EG_KIND 65535, 1), (Reg.FLOW_EG_TARGET 65535, 4),
    (Reg.FLOW_CHANNELS 65535, 2), (Reg.FLOW_CH_PER_PKT 65535, 2), (Reg.FLOW_SPP 65535, 3), (Reg.FLOW_OPEN_SLOT 65535, 0),
    (Reg.FLOW_CLOSE_SLOT 65535, 10), (Reg.FLOW_EG_SLOT 65535, 249), (ringOwnerField 3, 0), (Reg.RING_MEDIA 3, 1),
    (ringOwnerField 4, 0), (Reg.RING_MEDIA 4, 1), (Reg.RING_TYPE 4, 1), (Reg.PROG_VALID 0, 1), (poolLimit 0 1, 9), (poolLimit 0
    5, 9)]).setCapacities, .pf0, 65535, 102, ((on [(Reg.FLOW_SRC_KIND 65535, 1), (Reg.FLOW_SRC 65535, 3), (Reg.FLOW_EG_KIND
    65535, 1), (Reg.FLOW_EG_TARGET 65535, 4), (Reg.FLOW_CHANNELS 65535, 2), (Reg.FLOW_CH_PER_PKT 65535, 2), (Reg.FLOW_SPP 65535,
    3), (Reg.FLOW_OPEN_SLOT 65535, 0), (Reg.FLOW_CLOSE_SLOT 65535, 10), (Reg.FLOW_EG_SLOT 65535, 249), (ringOwnerField 3, 0),
    (Reg.RING_MEDIA 3, 1), (ringOwnerField 4, 0), (Reg.RING_MEDIA 4, 1), (Reg.RING_TYPE 4, 1), (Reg.PROG_VALID 0, 1), (poolLimit
    0 1, 9), (poolLimit 0 5, 9)]).setCapacities).flowBooking 65535, by decide +kernel⟩,
    ⟨(on [(Reg.FLOW_SRC_KIND 65535, 1), (Reg.FLOW_SRC 65535, 3), (Reg.FLOW_EG_KIND 65535, 1), (Reg.FLOW_EG_TARGET 65535, 4),
      (Reg.FLOW_CHANNELS 65535, 2), (Reg.FLOW_CH_PER_PKT 65535, 2), (Reg.FLOW_SPP 65535, 3), (Reg.FLOW_OPEN_SLOT 65535, 0),
      (Reg.FLOW_CLOSE_SLOT 65535, 10), (Reg.FLOW_EG_SLOT 65535, 249), (Reg.FLOW_SRC_KIND 7, 2), (Reg.FLOW_SRC 7, 8191),
      (Reg.FLOW_EG_KIND 7, 1), (Reg.FLOW_EG_TARGET 7, 4), (Reg.FLOW_CHANNELS 7, 2), (Reg.FLOW_CH_PER_PKT 7, 2), (Reg.FLOW_SPP 7,
      3), (Reg.FLOW_OPEN_SLOT 7, 0), (Reg.FLOW_CLOSE_SLOT 7, 10), (Reg.FLOW_EG_SLOT 7, 249), (ringOwnerField 3, 0),
      (Reg.RING_MEDIA 3, 1), (ringOwnerField 4, 0), (Reg.RING_MEDIA 4, 1), (Reg.RING_TYPE 4, 1), (Reg.PROG_VALID 0, 1),
      (poolLimit 0 1, 9), (poolLimit 0 5, 9), (Reg.POINT_OUT_FLOW 8191, 7), (Reg.POINT_TERM_COUNT 8191, 1), (Reg.POINT_TERM_BASE
      8191, 131071), (Reg.TERM_IN_FLOW 131071, 65535)]).setCapacities, .pf0, 8191, 102, ((on [(Reg.FLOW_SRC_KIND 65535, 1),
      (Reg.FLOW_SRC 65535, 3), (Reg.FLOW_EG_KIND 65535, 1), (Reg.FLOW_EG_TARGET 65535, 4), (Reg.FLOW_CHANNELS 65535, 2),
      (Reg.FLOW_CH_PER_PKT 65535, 2), (Reg.FLOW_SPP 65535, 3), (Reg.FLOW_OPEN_SLOT 65535, 0), (Reg.FLOW_CLOSE_SLOT 65535, 10),
      (Reg.FLOW_EG_SLOT 65535, 249), (Reg.FLOW_SRC_KIND 7, 2), (Reg.FLOW_SRC 7, 8191), (Reg.FLOW_EG_KIND 7, 1),
      (Reg.FLOW_EG_TARGET 7, 4), (Reg.FLOW_CHANNELS 7, 2), (Reg.FLOW_CH_PER_PKT 7, 2), (Reg.FLOW_SPP 7, 3), (Reg.FLOW_OPEN_SLOT
      7, 0), (Reg.FLOW_CLOSE_SLOT 7, 10), (Reg.FLOW_EG_SLOT 7, 249), (ringOwnerField 3, 0), (Reg.RING_MEDIA 3, 1),
      (ringOwnerField 4, 0), (Reg.RING_MEDIA 4, 1), (Reg.RING_TYPE 4, 1), (Reg.PROG_VALID 0, 1), (poolLimit 0 1, 9), (poolLimit
      0 5, 9), (Reg.POINT_OUT_FLOW 8191, 7), (Reg.POINT_TERM_COUNT 8191, 1), (Reg.POINT_TERM_BASE 8191, 131071),
      (Reg.TERM_IN_FLOW 131071, 65535)]).setCapacities).pointBooking 8191, by decide +kernel⟩,
    ⟨on [(Reg.FLOW_ADMITTED 65535, 1), (Reg.FLOW_SRC_KIND 65535, 1)], .sup, 65535, by decide +kernel⟩,
    ⟨on [(Reg.POINT_ADMITTED 8191, 1), (Reg.POINT_OUT_FLOW 8191, 7)], .sup, 8191, by decide +kernel⟩,
    ⟨on [], .pf0, 0, 3, 0, by decide +kernel⟩,
    ⟨(on [(Reg.FLOW_SRC_KIND 65535, 1), (Reg.FLOW_SRC 65535, 3), (Reg.FLOW_EG_KIND 65535, 1), (Reg.FLOW_EG_TARGET 65535, 4),
      (Reg.FLOW_CHANNELS 65535, 2), (Reg.FLOW_CH_PER_PKT 65535, 2), (Reg.FLOW_SPP 65535, 3), (Reg.FLOW_OPEN_SLOT 65535, 0),
      (Reg.FLOW_CLOSE_SLOT 65535, 10), (Reg.FLOW_EG_SLOT 65535, 249), (ringOwnerField 3, 0), (Reg.RING_MEDIA 3, 1),
      (ringOwnerField 4, 0), (Reg.RING_MEDIA 4, 1), (Reg.RING_TYPE 4, 1), (Reg.PROG_VALID 0, 1), (poolLimit 0 1, 9), (poolLimit
      0 5, 9)]).setCapacities, .pf0, 65535, 102, ((on [(Reg.FLOW_SRC_KIND 65535, 1), (Reg.FLOW_SRC 65535, 3), (Reg.FLOW_EG_KIND
      65535, 1), (Reg.FLOW_EG_TARGET 65535, 4), (Reg.FLOW_CHANNELS 65535, 2), (Reg.FLOW_CH_PER_PKT 65535, 2), (Reg.FLOW_SPP
      65535, 3), (Reg.FLOW_OPEN_SLOT 65535, 0), (Reg.FLOW_CLOSE_SLOT 65535, 10), (Reg.FLOW_EG_SLOT 65535, 249), (ringOwnerField
      3, 0), (Reg.RING_MEDIA 3, 1), (ringOwnerField 4, 0), (Reg.RING_MEDIA 4, 1), (Reg.RING_TYPE 4, 1), (Reg.PROG_VALID 0, 1),
      (poolLimit 0 1, 9), (poolLimit 0 5, 9)]).setCapacities).flowBooking 65535, by decide +kernel⟩⟩

theorem witness_FlowTickCommandsComplete :
    (∃ (s : State) (id : Fin 65536) (t : Nat), s.canon = true ∧ s.changeOf false id = some ⟨false, id, true, some t⟩ ∧ t ≤
      s.tick) ∧
    (∃ (s : State) (id : Fin 65536) (t : Nat), s.canon = true ∧ s.changeOf false id = some ⟨false, id, false, some t⟩ ∧ t + 2 ≤
      s.tick) ∧
    (∃ (s : State) (id : Fin 65536), s.canon = true ∧ s.mediaRun = true ∧ s.admittedAt id s.tick = true ∧ s.get
      (Reg.FLOW_SRC_KIND id) = 0 ∧ (s.rt id).rx = [] ∧ s.tick ∉ (s.rt id).held ∧ 0 < (s.geometry id).packets) ∧
    (∃ (s : State) (c : Copy), s.canon = true ∧ s.media.copies = [c] ∧ c.outTick < s.tick ∧ c.toRing = false ∧ c.handles = [])
      :=
  ⟨⟨(onTe (on [(Reg.FLOW_PENDING 65535, 1)]) fun x => { x with changes := [⟨false, 65535, true, some 100⟩] }), 65535, 100,
    by decide +kernel⟩,
    ⟨(onTe (on [(Reg.FLOW_PENDING 65535, 1)]) fun x => { x with changes := [⟨false, 65535, false, some 98⟩] }), 65535, 98,
      by decide +kernel⟩,
    ⟨on [(Reg.FLOW_SRC_KIND 65535, 0), (Reg.FLOW_EG_KIND 65535, 1), (Reg.FLOW_EG_TARGET 65535, 4), (Reg.FLOW_CHANNELS 65535, 2),
      (Reg.FLOW_CH_PER_PKT 65535, 2), (Reg.FLOW_SPP 65535, 3), (Reg.FLOW_OPEN_SLOT 65535, 0), (Reg.FLOW_CLOSE_SLOT 65535, 10),
      (Reg.FLOW_EG_SLOT 65535, 249), (Reg.FLOW_ADMITTED 65535, 1), (Reg.TE_SYNC_STATE_MEDIA_RUN, 1)], 65535, by decide +kernel⟩,
    ⟨(onMedia (on [(Reg.FLOW_SRC_KIND 65535, 1), (Reg.FLOW_SRC 65535, 3), (Reg.FLOW_EG_KIND 65535, 1), (Reg.FLOW_EG_TARGET
      65535, 4), (Reg.FLOW_CHANNELS 65535, 2), (Reg.FLOW_CH_PER_PKT 65535, 2), (Reg.FLOW_SPP 65535, 3), (Reg.FLOW_OPEN_SLOT
      65535, 0), (Reg.FLOW_CLOSE_SLOT 65535, 10), (Reg.FLOW_EG_SLOT 65535, 249)]) fun x =>
      { x with copies := [⟨65535, 99, false, 0, 0, 0, [], 0, true, false, 0, []⟩] }), ⟨65535, 99, false, 0, 0, 0, [], 0, true,
      false, 0, []⟩, by decide +kernel⟩⟩

theorem witness_LedgerAuditRepairs :
    (∃ (s : State), s.canon = true) :=
  ⟨on [], by decide +kernel⟩

theorem witness_TickBoundaryCounts :
    (∃ (s : State), s.canon = true ∧ s.running .te = true) :=
  ⟨on [(Reg.TE_TICK, 281474976710655)], by decide +kernel⟩

theorem witness_IngressCommandsComplete :
    (∃ (s : State) (p : Fin 32) (l : Bytes) (line : LineReport), s.canon = true ∧ line.fcsOk = true ∧ s.running .pxc = true ∧
      s.running .pcu = true ∧ s.portUp p = true ∧ 60 ≤ l.length ∧ l.length + 4 ≤ s.get (Reg.PXC_PORT_CFG_MTU p) ∧ beAt l 12 2 ≠
      0x8808 ∧ beAt l (etypeOff l) 2 ≠ 0x88B7 ∧ (bitAt (s.get Reg.TE_PTP_PORTS) p && isPtp (s.get Reg.TE_CFG_PROFILE) l) = false
      ∧ s.flag (Reg.PXC_VLAN_CFG_RX_STRIP p) = false ∧ s.macsecOn p = false) ∧
    (∃ (s : State) (pipe : Fin 4) (o : Nat) (bad : Option LookupFault) (h : HeadIn) (n : Nat) (u : State), s.canon = true ∧
      s.pcu.queue = [h] ∧ h.pipe = pipe.val ∧ h.media = false ∧ State.passHead
      { s.moment o with pcu := { s.pcu with queue := [] } } h bad = (some n, u) ∧ u.pcu.reorder = []) ∧
    (∃ (s : State) (src : Fin 35) (n : Nat) (pipe : Nat) (f : Frame) (d : FrameDest), s.canon = true ∧ s.pcu.reorder = [⟨src,
      Assoc.getD s.pcu.released src 0, pipe, [n]⟩] ∧ s.frame? n = some f ∧ f.dests = [d] ∧ f.copyDests = []) ∧
    (∃ (s : State) (p : Fin 4) (h : Nat) (r : Nat) (tc : Nat) (g : Nat) (st : Stamp), s.canon = true ∧ s.running .fpu = true ∧
      s.fpu.inputs = [] ∧ s.fpu.voq = [⟨p, false, false, h, [⟨.ring r, tc, g⟩], st⟩] ∧ 0 < s.creditOf p 33) ∧
    (∃ (s : State) (p : Fin 4) (h : Nat) (r : Nat) (tc : Nat) (st : Stamp) (f : Frame), s.canon = true ∧ s.running .fpu = true ∧
      s.fpu.voq = [] ∧ s.fpu.inputs = [(33, ⟨p, false, false, h, [⟨.ring r, tc, 0⟩], st⟩)] ∧ s.frame? h = some f ∧ f.good = true
      ∧ s.flag (Reg.RING_ENABLE r) = true) :=
  ⟨⟨on [(Reg.PXC_QUAD_CFG_MODE 7, 4), (Reg.PXC_PORT_STATUS_STATE 31, 3), (Reg.PXC_PORT_CFG_SPEED 31, 6), (Reg.PXC_PORT_CFG_MTU
    31, 1522), (⟨gateNow 31 0, 31, 0⟩, 0x800000FF)], 31, zeros 1518, ⟨true, 0, 0, 0⟩, by decide +kernel⟩,
    ⟨(onPcu (on [(⟨0x11D00210, 63, 0⟩, 0x0800000000000000), (Reg.PCU_COPY_LIMIT_SUP_PER_TICK, 1), (poolLimit 0 6, 1)]) fun x =>
      { x with queue := [⟨33, 0, zeros 60, 60, 0, 0, false, true, false, false, none, none, 3, 7, ⟨5, 6⟩⟩], graph := [0, 0, 0, 0, 0xFF] }),
      3, 0, none, ⟨33, 0, zeros 60, 60, 0, 0, false, true, false, false, none, none, 3, 7, ⟨5, 6⟩⟩, 0, (State.passHead
      { ((onPcu (on [(⟨0x11D00210, 63, 0⟩, 0x0800000000000000), (Reg.PCU_COPY_LIMIT_SUP_PER_TICK, 1), (poolLimit 0 6, 1)]) fun x => { x with queue := [⟨33, 0, zeros 60, 60, 0, 0, false, true, false, false, none, none, 3, 7, ⟨5, 6⟩⟩], graph := [0, 0, 0, 0, 0xFF] })).moment 0 with pcu := { ((onPcu (on [(⟨0x11D00210, 63, 0⟩, 0x0800000000000000), (Reg.PCU_COPY_LIMIT_SUP_PER_TICK, 1), (poolLimit 0 6, 1)]) fun x => { x with queue := [⟨33, 0, zeros 60, 60, 0, 0, false, true, false, false, none, none, 3, 7, ⟨5, 6⟩⟩], graph := [0, 0, 0, 0, 0xFF] })).pcu with queue := [] } }
      ⟨33, 0, zeros 60, 60, 0, 0, false, true, false, false, none, none, 3, 7, ⟨5, 6⟩⟩ none).2, by decide +kernel⟩,
    ⟨(onFpu (onPcu (on []) fun x => { x with reorder := [⟨34, 65535, 3, [9]⟩], released := [(34, 65535)] }) fun x =>
      { x with frames := [(9, (⟨0, 0, 0, zeros 60, true, false, false, Walk.empty, [], 1, [], 64, [⟨.port 3, 7, 0⟩], [], ⟨0, 0⟩, []⟩ : Frame))] }),
      34, 9, 3, (⟨0, 0, 0, zeros 60, true, false, false, Walk.empty, [], 1, [], 64, [⟨.port 3, 7, 0⟩], [], ⟨0, 0⟩, []⟩ : Frame),
      ⟨.port 3, 7, 0⟩, by decide +kernel⟩,
    ⟨(onFpu (on []) fun x =>
      { x with voq := [⟨3, false, false, 9, [⟨.ring 131071, 7, 0⟩], ⟨5, 6⟩⟩], frames := [(9, (⟨0, 0, 0, zeros 60, true, false, false, Walk.empty, [], 1, [], 64, [], [], ⟨0, 0⟩, []⟩ : Frame))] }),
      3, 9, 131071, 7, 0, ⟨5, 6⟩, by decide +kernel⟩,
    ⟨(onFpu (on [(Reg.RING_ENABLE 131071, 1)]) fun x =>
      { x with inputs := [(33, ⟨3, false, false, 9, [⟨.ring 131071, 7, 0⟩], ⟨5, 6⟩⟩)], frames := [(9, (⟨0, 0, 0, zeros 60, true, false, false, Walk.empty, [], 1, [], 64, [], [], ⟨0, 0⟩, []⟩ : Frame))], credits := [(3 * 64 + 33, 0)] }),
      3, 9, 131071, 7, ⟨5, 6⟩, (⟨0, 0, 0, zeros 60, true, false, false, Walk.empty, [], 1, [], 64, [], [], ⟨0, 0⟩, []⟩ : Frame),
      by decide +kernel⟩⟩

theorem witness_EgressCommandsComplete :
    (∃ (s : State) (r : Fin 131072) (c : Copy), s.canon = true ∧ s.running .egu = true ∧ s.media.copies = [c] ∧ c.toRing = true
      ∧ c.target = r.val ∧ c.outTick = s.tick ∧ c.offset ≤ s.offset ∧ c.first = false ∧ c.handles = [] ∧ c.next + 1 =
      (s.geometry c.flow).packets ∧ s.rtuServes c.flow = true ∧ s.guarded c.flow = false ∧ s.classOf c.flow = 0 ∧ s.get
      (Reg.FLOW_ENC_OUT c.flow) = 0 ∧ s.attached = true ∧ 0 < s.rxOwned r ∧ s.tierZero = false ∧ s.mayTransmit = true ∧
      s.hedgeState = 0) ∧
    (∃ (s : State) (o : Nat) (p : Fin 32) (q : Queued) (f : Frame) (l : Bytes) (v : State) (c : Option (Nat × Nat)) (u : State),
      s.canon = true ∧ (s.moment o).portIdle p = true ∧ (s.moment o).mediaDue p = false ∧ s.hgc.replayDue = [] ∧ (s.moment
      o).settle.nextFrame p false = some q ∧ (s.moment o).settle.frame? q.handle = some f ∧ f.good = true ∧ f.authBad = false ∧
      (s.moment o).settle.copyBytes q f = (some l, v) ∧ v.takeHeadIf (some q.handle) (v.writesHeader q.dest.rewrite) = (c, u)) ∧
    (∃ (s : State) (o : Nat) (p : Fin 32) (q : Queued) (f : Frame) (l : Bytes) (v : State) (c : Option (Nat × Nat)) (u : State),
      s.canon = true ∧ (s.moment o).portIdle p = true ∧ (s.moment o).mediaDue p = false ∧ (s.moment o).settle.nextFrame p true =
      some q ∧ q.cut = true ∧ (s.moment o).settle.frame? q.handle = some f ∧ ((f.good = true ∧ f.authBad = false ∨ (s.moment
      o).settle.bytesIn f < f.bytes.length + 4)) ∧ (s.moment o).settle.copyBytes q f = (some l, v) ∧ v.takeHeadIf (some
      q.handle) (v.writesHeader q.dest.rewrite) = (c, u)) ∧
    (∃ (s : State) (o : Nat) (p : Fin 32) (x : Tx), s.canon = true ∧ Assoc.get? s.egu.tx p = some x ∧ x.start + x.wire ≤
      (s.moment o).localNs) ∧
    (∃ (s : State) (p : Fin 32) (x : Tx), s.canon = true ∧ Assoc.get? s.egu.tx p = some x ∧ 0x20500 + p.val ∉ s.once) ∧
    (∃ (s : State) (p : Fin 32), s.canon = true ∧ 65536 ≤ Assoc.getD s.egu.ctRun p 0 ∧ s.get (Reg.PXC_PORT_CFG_CT_BASE p) <
      s.get (Reg.PXC_PORT_STATUS_CT_STEP p)) ∧
    (∃ (s : State) (o : Nat) (p : Fin 32) (c : Fin 8) (q : Queued), s.canon = true ∧ s.headOf p c = some q ∧ q.headSince +
      s.period ≤ (s.moment o).localNs) ∧
    (∃ (s : State) (o : Nat) (k : Nat) (q : Queued) (ds : List (Nat × Int)), s.canon = true ∧ s.running .egu = true ∧
      s.egu.shaper = [(k, q)] ∧ (s.moment o).settle.eligible k = some (q, ds)) :=
  ⟨⟨(onQe (onMedia (on [(Reg.FLOW_SRC_KIND 65535, 1), (Reg.FLOW_SRC 65535, 3), (Reg.FLOW_EG_KIND 65535, 1), (Reg.FLOW_EG_TARGET
    65535, 4), (Reg.FLOW_CHANNELS 65535, 2), (Reg.FLOW_CH_PER_PKT 65535, 2), (Reg.FLOW_SPP 65535, 3), (Reg.FLOW_OPEN_SLOT 65535,
    0), (Reg.FLOW_CLOSE_SLOT 65535, 10), (Reg.FLOW_EG_SLOT 65535, 249), (Reg.HIU_HOST_STATE_MODE, 0), (Reg.RING_ENABLE 131071,
    1)]) fun x =>
    { x with copies := [(⟨65535, 100, true, 131071, 0, 0, [[1, 2], [3, 4], [5, 6]], 0, false, false, 1, []⟩ : Copy)] }) fun x =>
    { x with rings := [(131071, { RingRt.empty with taken := [⟨0, zeros 16, false⟩] })] }), 131071, (⟨65535, 100, true, 131071,
    0, 0, [[1, 2], [3, 4], [5, 6]], 0, false, false, 1, []⟩ : Copy), by decide +kernel⟩,
    ⟨(onFpu (onEgu (on [(Reg.PXC_QUAD_CFG_MODE 7, 4), (Reg.PXC_PORT_STATUS_STATE 31, 3), (Reg.PXC_PORT_CFG_SPEED 31, 6),
      (Reg.PXC_PORT_CFG_MTU 31, 1522), (⟨gateNow 31 0, 31, 0⟩, 0x800000FF)]) fun x =>
      { x with queues := [(⟨31, 9, ⟨.port 31, 7, 0⟩, 0, 0, false, 0, none⟩ : Queued)] }) fun x =>
      { x with frames := [(9, (⟨31, 0, 0, zeros 60, true, false, false, Walk.empty, [], 1, [], 64, [⟨.port 31, 7, 0⟩], [], ⟨0, 0⟩, []⟩ : Frame))] }),
      5, 31, (⟨31, 9, ⟨.port 31, 7, 0⟩, 0, 0, false, 0, none⟩ : Queued), (⟨31, 0, 0, zeros 60, true, false, false, Walk.empty,
      [], 1, [], 64, [⟨.port 31, 7, 0⟩], [], ⟨0, 0⟩, []⟩ : Frame), zeros 60, ((((onFpu (onEgu (on [(Reg.PXC_QUAD_CFG_MODE 7, 4),
      (Reg.PXC_PORT_STATUS_STATE 31, 3), (Reg.PXC_PORT_CFG_SPEED 31, 6), (Reg.PXC_PORT_CFG_MTU 31, 1522), (⟨gateNow 31 0, 31,
      0⟩, 0x800000FF)]) fun x => { x with queues := [(⟨31, 9, ⟨.port 31, 7, 0⟩, 0, 0, false, 0, none⟩ : Queued)] }) fun x =>
      { x with frames := [(9, (⟨31, 0, 0, zeros 60, true, false, false, Walk.empty, [], 1, [], 64, [⟨.port 31, 7, 0⟩], [], ⟨0, 0⟩, []⟩ : Frame))] })).moment
      5).settle.copyBytes (⟨31, 9, ⟨.port 31, 7, 0⟩, 0, 0, false, 0, none⟩ : Queued) (⟨31, 0, 0, zeros 60, true, false, false,
      Walk.empty, [], 1, [], 64, [⟨.port 31, 7, 0⟩], [], ⟨0, 0⟩, []⟩ : Frame)).2, none, ((((onFpu (onEgu (on
      [(Reg.PXC_QUAD_CFG_MODE 7, 4), (Reg.PXC_PORT_STATUS_STATE 31, 3), (Reg.PXC_PORT_CFG_SPEED 31, 6), (Reg.PXC_PORT_CFG_MTU
      31, 1522), (⟨gateNow 31 0, 31, 0⟩, 0x800000FF)]) fun x =>
      { x with queues := [(⟨31, 9, ⟨.port 31, 7, 0⟩, 0, 0, false, 0, none⟩ : Queued)] }) fun x =>
      { x with frames := [(9, (⟨31, 0, 0, zeros 60, true, false, false, Walk.empty, [], 1, [], 64, [⟨.port 31, 7, 0⟩], [], ⟨0, 0⟩, []⟩ : Frame))] })).moment
      5).settle.copyBytes (⟨31, 9, ⟨.port 31, 7, 0⟩, 0, 0, false, 0, none⟩ : Queued) (⟨31, 0, 0, zeros 60, true, false, false,
      Walk.empty, [], 1, [], 64, [⟨.port 31, 7, 0⟩], [], ⟨0, 0⟩, []⟩ : Frame)).2, by decide +kernel⟩,
    ⟨(onFpu (onEgu (on [(Reg.PXC_QUAD_CFG_MODE 7, 4), (Reg.PXC_PORT_STATUS_STATE 31, 3), (Reg.PXC_PORT_CFG_SPEED 31, 6),
      (Reg.PXC_PORT_CFG_MTU 31, 1522), (⟨gateNow 31 0, 31, 0⟩, 0x800000FF)]) fun x =>
      { x with queues := [(⟨31, 9, ⟨.port 31, 7, 0⟩, 0, 0, true, 0, none⟩ : Queued)] }) fun x =>
      { x with frames := [(9, (⟨31, 0, 0, zeros 60, true, false, false, Walk.empty, [], 1, [], 64, [⟨.port 31, 7, 0⟩], [], ⟨0, 0⟩, []⟩ : Frame))] }),
      5, 31, (⟨31, 9, ⟨.port 31, 7, 0⟩, 0, 0, true, 0, none⟩ : Queued), (⟨31, 0, 0, zeros 60, true, false, false, Walk.empty,
      [], 1, [], 64, [⟨.port 31, 7, 0⟩], [], ⟨0, 0⟩, []⟩ : Frame), zeros 60, ((((onFpu (onEgu (on [(Reg.PXC_QUAD_CFG_MODE 7, 4),
      (Reg.PXC_PORT_STATUS_STATE 31, 3), (Reg.PXC_PORT_CFG_SPEED 31, 6), (Reg.PXC_PORT_CFG_MTU 31, 1522), (⟨gateNow 31 0, 31,
      0⟩, 0x800000FF)]) fun x => { x with queues := [(⟨31, 9, ⟨.port 31, 7, 0⟩, 0, 0, true, 0, none⟩ : Queued)] }) fun x =>
      { x with frames := [(9, (⟨31, 0, 0, zeros 60, true, false, false, Walk.empty, [], 1, [], 64, [⟨.port 31, 7, 0⟩], [], ⟨0, 0⟩, []⟩ : Frame))] })).moment
      5).settle.copyBytes (⟨31, 9, ⟨.port 31, 7, 0⟩, 0, 0, true, 0, none⟩ : Queued) (⟨31, 0, 0, zeros 60, true, false, false,
      Walk.empty, [], 1, [], 64, [⟨.port 31, 7, 0⟩], [], ⟨0, 0⟩, []⟩ : Frame)).2, none, ((((onFpu (onEgu (on
      [(Reg.PXC_QUAD_CFG_MODE 7, 4), (Reg.PXC_PORT_STATUS_STATE 31, 3), (Reg.PXC_PORT_CFG_SPEED 31, 6), (Reg.PXC_PORT_CFG_MTU
      31, 1522), (⟨gateNow 31 0, 31, 0⟩, 0x800000FF)]) fun x =>
      { x with queues := [(⟨31, 9, ⟨.port 31, 7, 0⟩, 0, 0, true, 0, none⟩ : Queued)] }) fun x =>
      { x with frames := [(9, (⟨31, 0, 0, zeros 60, true, false, false, Walk.empty, [], 1, [], 64, [⟨.port 31, 7, 0⟩], [], ⟨0, 0⟩, []⟩ : Frame))] })).moment
      5).settle.copyBytes (⟨31, 9, ⟨.port 31, 7, 0⟩, 0, 0, true, 0, none⟩ : Queued) (⟨31, 0, 0, zeros 60, true, false, false,
      Walk.empty, [], 1, [], 64, [⟨.port 31, 7, 0⟩], [], ⟨0, 0⟩, []⟩ : Frame)).2, by decide +kernel⟩,
    ⟨(onFpu (onEgu (on []) fun x =>
      { x with tx := [(31, (⟨some 9, some 7, zeros 60, true, false, 0, 100, none, none, none⟩ : Tx))] }) fun x =>
      { x with frames := [(9, (⟨31, 0, 0, zeros 60, true, false, false, Walk.empty, [], 1, [], 64, [⟨.port 31, 7, 0⟩], [], ⟨0, 0⟩, []⟩ : Frame))] }),
      0, 31, (⟨some 9, some 7, zeros 60, true, false, 0, 100, none, none, none⟩ : Tx), by decide +kernel⟩,
    ⟨(onFpu (onEgu (on []) fun x =>
      { x with tx := [(31, (⟨some 9, some 7, zeros 60, true, false, 0, 100, none, none, none⟩ : Tx))] }) fun x =>
      { x with frames := [(9, (⟨31, 0, 0, zeros 60, true, false, false, Walk.empty, [], 1, [], 64, [⟨.port 31, 7, 0⟩], [], ⟨0, 0⟩, []⟩ : Frame))] }),
      31, (⟨some 9, some 7, zeros 60, true, false, 0, 100, none, none, none⟩ : Tx), by decide +kernel⟩,
    ⟨(onEgu (on [(Reg.PXC_PORT_STATUS_CT_STEP 31, 6)]) fun x => { x with ctRun := [(31, 65536)] }), 31, by decide +kernel⟩,
    ⟨(onFpu (onEgu (on [(Reg.PXC_QUAD_CFG_MODE 7, 4), (Reg.PXC_PORT_STATUS_STATE 31, 3), (Reg.PXC_PORT_CFG_SPEED 31, 6),
      (Reg.PXC_PORT_CFG_MTU 31, 1522), (⟨gateNow 31 0, 31, 0⟩, 0x800000FF)]) fun x =>
      { x with queues := [(⟨31, 9, ⟨.port 31, 7, 0⟩, 0, 0, false, 0, none⟩ : Queued)] }) fun x =>
      { x with frames := [(9, (⟨31, 0, 0, zeros 60, true, false, false, Walk.empty, [], 1, [], 64, [⟨.port 31, 7, 0⟩], [], ⟨0, 0⟩, []⟩ : Frame))] }),
      0, 31, 7, (⟨31, 9, ⟨.port 31, 7, 0⟩, 0, 0, false, 0, none⟩ : Queued), by decide +kernel⟩,
    ⟨(onFpu (onEgu (on [(Reg.PXC_QUAD_CFG_MODE 7, 4), (Reg.PXC_PORT_STATUS_STATE 31, 3), (Reg.PXC_PORT_CFG_SPEED 31, 6),
      (Reg.PXC_PORT_CFG_MTU 31, 1522), (⟨gateNow 31 0, 31, 0⟩, 0x800000FF), (Reg.SHAPER_EN 16383, 1), (Reg.SHAPER_RATE 16383,
      1), (Reg.SHAPER_BURST 16383, 64)]) fun x =>
      { x with shaper := [(16383, (⟨31, 9, ⟨.port 31, 7, 0⟩, 0, 0, false, 0, none⟩ : Queued))] }) fun x =>
      { x with frames := [(9, (⟨31, 0, 0, zeros 60, true, false, false, Walk.empty, [], 1, [], 64, [⟨.port 31, 7, 0⟩], [], ⟨0, 0⟩, []⟩ : Frame))] }),
      0, 16383, (⟨31, 9, ⟨.port 31, 7, 0⟩, 0, 0, false, 0, none⟩ : Queued), [(16383, 512000)], by decide +kernel⟩⟩

theorem witness_LinkCommandsComplete :
    (∃ (s : State) (p : Fin 32), s.canon = true ∧ s.running .pxc = true ∧ s.portState p = 1) ∧
    (∃ (s : State) (p : Fin 32), s.canon = true ∧ s.running .pxc = true ∧ s.portState p = 2) ∧
    (∃ (s : State) (p : Fin 32), s.canon = true ∧ s.running .pxc = true ∧ s.portState p = 1 ∧ p.val ∉ s.pxc.diag) ∧
    (∃ (s : State) (p : Fin 32), s.canon = true ∧ s.running .pxc = true ∧ p.val ∈ s.pxc.diag) ∧
    (∃ (s : State) (p : Fin 32), s.canon = true ∧ s.running .pxc = true ∧ s.portState p = 2) ∧
    (∃ (s : State) (p : Fin 32), s.canon = true ∧ s.running .pxc = true ∧ s.portUp p = true ∧ Assoc.get? s.egu.tx p = none ∧
      s.egu.queues = [] ∧ s.egu.shaper = []) :=
  ⟨⟨on [(Reg.PXC_PORT_STATUS_STATE 31, 1)], 31, by decide +kernel⟩,
    ⟨on [(Reg.PXC_PORT_STATUS_STATE 31, 2)], 31, by decide +kernel⟩,
    ⟨on [(Reg.PXC_PORT_STATUS_STATE 31, 1)], 31, by decide +kernel⟩,
    ⟨(onPxc (on [(Reg.PXC_PORT_STATUS_STATE 31, 1)]) fun x => { x with diag := [31] }), 31, by decide +kernel⟩,
    ⟨on [(Reg.PXC_PORT_STATUS_STATE 31, 2)], 31, by decide +kernel⟩,
    ⟨on [(Reg.PXC_PORT_STATUS_STATE 31, 3)], 31, by decide +kernel⟩⟩

theorem witness_PauseCommandsComplete :
    (∃ (s : State) (p : Fin 32) (n : BitVec 16), s.canon = true ∧ s.running .pxc = true ∧ s.portUp p = true ∧ s.get
      (Reg.PXC_PAUSE_CFG_MODE p) = 1 ∧ n ≠ 0 ∧ pauseKey p 8 ∉ s.pxc.holdoff ∧ s.isPaused p 8 = false) ∧
    (∃ (s : State) (p : Fin 32) (c : Fin 9), s.canon = true ∧ s.isPaused p c = true) ∧
    (∃ (s : State) (p : Fin 32) (c : Fin 9), s.canon = true ∧ s.isPaused p c = true) ∧
    (∃ (s : State), s.canon = true) ∧
    (∃ (s : State) (p : Fin 32) (r : Requester) (v : Word), s.canon = true ∧ s.mayWrite r (Reg.PXC_PAUSE_CFG_MODE p).key = true
      ∧ bits v.toNat 30 2 = 0 ∧ 100 ≤ bits v.toNat 12 18 ∧ bits v.toNat 0 12 ≠ 0) :=
  ⟨⟨on [(Reg.PXC_PORT_STATUS_STATE 31, 3), (Reg.PXC_PAUSE_CFG_MODE 31, 1)], 31, 1, by decide +kernel⟩,
    ⟨(onPxc (on [(Reg.PXC_PORT_STATUS_STATE 31, 3), (pauseField 31 8, 1)]) fun x => { x with paused := [(pauseKey 31 8, 0)] }),
      31, 8, by decide +kernel⟩,
    ⟨(onPxc (on [(Reg.PXC_PORT_STATUS_STATE 31, 3), (pauseField 31 0, 1)]) fun x => { x with paused := [(pauseKey 31 0, 0)] }),
      31, 0, by decide +kernel⟩,
    ⟨(onPxc (on []) fun x => { x with holdoff := [pauseKey 31 8] }), by decide +kernel⟩,
    ⟨on [], 31, .pf0, 0x00064001, by decide +kernel⟩⟩

theorem witness_PortConfigCommandsComplete :
    (∃ (s : State) (r : Requester) (p : Fin 32) (v : Word), s.canon = true ∧ s.mayWrite r (Reg.PXC_PORT_CFG_CT_BASE p).key =
      true ∧ bits v.toNat 21 3 ≠ 7 ∧ s.flag (Reg.UNIT_SEALED 2) = false) ∧
    (∃ (s : State) (r : Requester) (p : Fin 32) (pcp : Bool) (v : Word), s.canon = true ∧ s.mayWrite r (vlanKey pcp p) = true ∧
      ((pcp = false → bits v.toNat 28 2 < 2)) ∧ s.pairRole = false) ∧
    (∃ (s : State) (k : Nat) (v : Nat) (at_ : Nat) (rest : List (Nat × Nat × Nat)), s.canon = true ∧ s.pxc.pending = (k, v, at_)
      :: rest ∧ at_ ≤ s.tick ∧ v < 2 ^ 32) ∧
    (∃ (s : State) (r : Requester), s.canon = true ∧ s.mayWrite r Reg.PXC_STATS_CTL_BUSY.key = true ∧ s.flag
      Reg.PXC_STATS_CTL_BUSY = false) ∧
    (∃ (s : State) (p : Fin 32), s.canon = true ∧ s.flag Reg.PXC_STATS_CTL_BUSY = true ∧ s.flag Reg.PXC_STATS_CTL_TICK_ALIGN =
      false ∧ s.get Reg.PXC_STATS_PORTS = 2 ^ p.val ∧ s.isPaused p 8 = false) ∧
    (∃ (s : State), s.canon = true ∧ s.powered = true) ∧
    (∃ (s : State) (reason : Fin 11), s.canon = true ∧ s.powered = true ∧ (reason.val ≠ 10 ∨ s.get Reg.SUP_MGMT_CFG_MODE ≠ 0))
      :=
  ⟨⟨on [], .pf0, 31, 0x00C00000, by decide +kernel⟩,
    ⟨on [], .pf0, 31, false, 0x10000FFF, by decide +kernel⟩,
    ⟨(onPxc (on []) fun x => { x with pending := [((Reg.PXC_VLAN_CFG_PVID 31).key, 4294967295, 100)] }), (Reg.PXC_VLAN_CFG_PVID
      31).key, 4294967295, 100, [], by decide +kernel⟩,
    ⟨on [], .sup, by decide +kernel⟩,
    ⟨on [(Reg.PXC_STATS_CTL_BUSY, 1), (Reg.PXC_STATS_PORTS, 0x80000000), (statField 31 0, 7)], 31, by decide +kernel⟩,
    ⟨on [], by decide +kernel⟩,
    ⟨on [], 9, by decide +kernel⟩⟩

theorem witness_PowerCommandsComplete :
    (∃ (s : State), s.canon = true) ∧
    (∃ (s : State), s.canon = true) ∧
    (∃ (s : State), s.canon = true) ∧
    (∃ (s : State), s.canon = true) ∧
    (∃ (s : State), s.canon = true ∧ s.sup.flashOp = none) ∧
    (∃ (s : State), s.canon = true ∧ s.sup.flashOp = none ∧ s.sup.railTrip = true ∧ s.sup.porLow = false) ∧
    (∃ (s : State), s.canon = true ∧ s.powered = true) :=
  ⟨⟨on [], by decide +kernel⟩,
    ⟨on [], by decide +kernel⟩,
    ⟨on [], by decide +kernel⟩,
    ⟨on [], by decide +kernel⟩,
    ⟨on [], by decide +kernel⟩,
    ⟨(onSup (on []) fun x => { x with railTrip := true, porLow := false }), by decide +kernel⟩,
    ⟨on [], by decide +kernel⟩⟩

theorem witness_BootCommandsComplete :
    (∃ (s : State), s.canon = true ∧ s.sup.sramReady = true ∧ s.sup.bootSlot = none ∧ s.get Reg.SUP_BOOT_STATUS_STAGE ≠ 4 ∧
      s.flag Reg.SUP_BOOT_CTL_FORCE_RECOVERY = true) ∧
    (∃ (s : State) (a : Bool) (b : Bool) (p : Nat) (r : Nat), s.canon = true ∧ s.sup.sramReady = true ∧ s.sup.bootSlot = none ∧
      s.get Reg.SUP_BOOT_STATUS_STAGE ≠ 4 ∧ s.flag Reg.SUP_BOOT_CTL_FORCE_RECOVERY = false ∧ s.get Reg.SUP_BOOT_CTL_PREFER = p ∧
      State.slotResult (s.put Reg.SUP_BOOT_STATUS_STAGE 1) p (if p = 0 then a else b) = r) ∧
    (∃ (s : State) (slot : Nat) (sv : Section) (safe : Section), s.canon = true ∧ s.sup.bootSlot = some slot ∧ s.sup.firmware =
      false ∧ s.bootSection 1 = some sv ∧ s.bootSection 2 = some safe) ∧
    (∃ (s : State), s.canon = true ∧ s.sup.filling = false ∧ s.powered = true) ∧
    (∃ (s : State) (k : Nat) (rest : List Nat), s.canon = true ∧ k < 64 ∧ s.sup.fillOrder = k :: rest) ∧
    (∃ (s : State), s.canon = true ∧ s.powered = true ∧ s.get Reg.SUP_BOOT_STATUS_STAGE = 4 ∧ s.flag
      Reg.SUP_OTP_STATUS_KEY_FUSED = false ∧ s.sup.otpKey = none) ∧
    (∃ (s : State), s.canon = true ∧ s.powered = true ∧ s.get Reg.SUP_BOOT_STATUS_STAGE = 4 ∧ s.flag
      Reg.SUP_OTP_STATUS_KEY_FUSED = false ∧ s.sup.otpKey = none) ∧
    (∃ (s : State) (c : Nat × Instr), s.canon = true ∧ s.powered = true ∧ s.flag Reg.SUP_FLASH_CTL_BUSY = false ∧ c ∈ [(1,
      Instr.read256), (2, .program256), (3, .erase64k)]) :=
  ⟨⟨(onSup (off [(Reg.SUP_BOOT_CTL_FORCE_RECOVERY, 1)]) fun x => { x with sramReady := true, bootSlot := none }),
    by decide +kernel⟩,
    ⟨(onSup (off [(Reg.SUP_BOOT_CTL_PREFER, 1)]) fun x => { x with sramReady := true, bootSlot := none }), true, true, 1, 3,
      by decide +kernel⟩,
    ⟨(onSup (off []) fun x => { x with bootSlot := some 0, image := ⟨[⟨1, 0, 0, 0, 0, 0⟩, ⟨2, 0, 0, 0, 0, 0⟩], 0, false, 0⟩ }),
      0, (((onSup (off []) fun x =>
      { x with bootSlot := some 0, image := ⟨[⟨1, 0, 0, 0, 0, 0⟩, ⟨2, 0, 0, 0, 0, 0⟩], 0, false, 0⟩ })).bootSection 1).getD ⟨0,
      0, 0, 0, 0, 0⟩, (((onSup (off []) fun x =>
      { x with bootSlot := some 0, image := ⟨[⟨1, 0, 0, 0, 0, 0⟩, ⟨2, 0, 0, 0, 0, 0⟩], 0, false, 0⟩ })).bootSection 2).getD ⟨0,
      0, 0, 0, 0, 0⟩, by decide +kernel⟩,
    ⟨off [], by decide +kernel⟩,
    ⟨(onSup (off []) fun x => { x with fillOrder := [63, 0] }), 63, [0], by decide +kernel⟩,
    ⟨(onSup (off [(Reg.SUP_BOOT_STATUS_STAGE, 4)]) fun x => { x with otpKey := none }), by decide +kernel⟩,
    ⟨(onSup (off [(Reg.SUP_BOOT_STATUS_STAGE, 4)]) fun x => { x with otpKey := none }), by decide +kernel⟩,
    ⟨off [], (3, .erase64k), by decide +kernel⟩⟩

theorem witness_FlashDoneBytes :
    (∃ (s : State) (a : Nat), s.canon = true ∧ s.sup.flashOp = some (2, a) ∧ s.flashErr 2 a = 0) ∧
    (∃ (s : State) (a : Nat), s.canon = true ∧ s.sup.flashOp = some (3, a) ∧ s.flashErr 3 a = 0) ∧
    (∃ (s : State) (a : Nat), s.canon = true ∧ s.sup.flashOp = some (1, a) ∧ s.flashErr 1 a = 0) ∧
    (∃ (s : State) (a : Nat) (op : Nat), s.canon = true ∧ s.sup.flashOp = some (op, a) ∧ s.flashErr op a ≠ 0) :=
  ⟨⟨(onSup (off [(Reg.SUP_FLASH_CTL_BUSY, 1)]) fun x => { x with flashOp := some (2, 0x01000000) }), 0x01000000,
    by decide +kernel⟩,
    ⟨(onSup (off [(Reg.SUP_FLASH_CTL_BUSY, 1)]) fun x => { x with flashOp := some (3, 0x01000000) }), 0x01000000,
      by decide +kernel⟩,
    ⟨(onSup (off [(Reg.SUP_FLASH_CTL_BUSY, 1)]) fun x => { x with flashOp := some (1, 0x01000000) }), 0x01000000,
      by decide +kernel⟩,
    ⟨(onSup (off [(Reg.SUP_FLASH_CTL_BUSY, 1)]) fun x => { x with flashOp := some (3, 0x01000001) }), 0x01000001, 3,
      by decide +kernel⟩⟩

theorem witness_RegisterAccessesComplete :
    (∃ (s : State) (k : _), s.canon = true ∧ s.sup.svcRestarting = false ∧ s.served .pf0 = true ∧ k < 0x10000000 ∧ k % 4 = 0 ∧
      isPairLow k = false ∧ isPairLow (k - 4) = false ∧ k ≠ offsetKey) ∧
    (∃ (s : State) (k : _), s.canon = true ∧ s.sup.svcRestarting = false ∧ s.served .pf0 = true ∧ k < 0x10000000 ∧ k % 4 = 0 ∧
      isPairLow k = true ∧ k ≠ tickLoKey) ∧
    (∃ (s : State) (k : Nat), s.canon = true ∧ s.sup.svcRestarting = false ∧ s.served .pf0 = true ∧ k / 0x1000000 = 6 ∧ k % 4 =
      0 ∧ inRange k 0x06001040 0x20 = false ∧ isPairLow k = false ∧ isPairLow (k - 4) = false) ∧
    (∃ (s : State) (k : Nat), s.canon = true ∧ s.sup.svcRestarting = false ∧ s.served .pf0 = true ∧ k < 0x10000000 ∧ k % 4 = 0 ∧
      isPairLow k = true) ∧
    (∃ (s : State) (lo : Nat), s.canon = true ∧ s.sup.svcRestarting = false ∧ s.served .pf0 = true ∧ s.mayWrite .pf0 0x01001108
      = true ∧ (s.holdOf .pf0 0x01001108).wrLo = some lo ∧ lo < 2 ^ 32) :=
  ⟨⟨on [(Reg.SUP_ECC_CORR, 5)], 0x0FFFFFFC, by decide +kernel⟩,
    ⟨on [], 0x01001040, by decide +kernel⟩,
    ⟨on [], 0x06001000, by decide +kernel⟩,
    ⟨on [], 0x01001000, by decide +kernel⟩,
    ⟨{ on [] with holds := [{ who := .pf0, key := 0x01001108, capHi := none, wrLo := some 4294967295 }] }, 4294967295,
      by decide +kernel⟩⟩

theorem witness_ServiceAccessesComplete :
    (∃ (s : State) (l : Bytes), s.canon = true ∧ s.framesServed = true ∧ s.sup.svcRestarting = false ∧ s.frameMine l = true ∧
      s.pxc.txStopped = false ∧ beAt l 15 1 = 1 ∧ s.sup.frameReplies.find? (fun x => x.1 == beAt l 6 6 && x.2.1 == beAt l 16 2)
      = none) ∧
    (∃ (s : State) (l : Bytes), s.canon = true ∧ s.framesServed = true ∧ s.sup.svcRestarting = false ∧ s.frameMine l = true ∧
      s.pxc.txStopped = false ∧ beAt l 15 1 = 2 ∧ s.sup.frameReplies.find? (fun x => x.1 == beAt l 6 6 && x.2.1 == beAt l 16 2)
      = none ∧ beAt l 22 1 = 1 ∧ s.frameStatus (l.drop 14) = 0 ∧ beAt l 18 4 / 0x1000000 = 6 ∧ inRange (beAt l 18 4) 0x06001040
      0x20 = false ∧ isPairLow (beAt l 18 4) = false ∧ isPairLow (beAt l 18 4 - 4) = false) ∧
    (∃ (s : State), s.canon = true ∧ s.sup.svcRestarting = true ∧ s.sup.svcHeld = []) ∧
    (∃ (s : State) (size : Nat) (x : SvcWait), s.canon = true ∧ s.sup.svcHeld.find? (SvcWait.reads size) = some x) ∧
    (∃ (s : State) (size : Nat) (x : SvcWait), s.canon = true ∧ s.sup.svcHeld.find? (SvcWait.reads size) = none ∧
      s.sup.svcHeld.find? SvcWait.isFrame = some x) :=
  ⟨⟨(onSup (on [(Reg.SUP_BOOT_STATUS_TIER, 2), (Reg.SUP_MGMT_STATUS_UP, 1), (Reg.SUP_MGMT_CFG_REG_EN, 1)]) fun x =>
    { x with firmware := true }), [0xFF, 0xFF, 0xFF, 0xFF, 0xFF, 0xFF, 1, 2, 3, 4, 5, 6, 0x88, 0xB6, 1, 1, 0, 7, 6, 0, 16, 0, 1,
    0, 0, 0, 1, 2, 3, 4], by decide +kernel⟩,
    ⟨(onSup (on [(Reg.SUP_BOOT_STATUS_TIER, 2), (Reg.SUP_MGMT_STATUS_UP, 1), (Reg.SUP_MGMT_CFG_REG_EN, 1)]) fun x =>
      { x with firmware := true }), [0xFF, 0xFF, 0xFF, 0xFF, 0xFF, 0xFF, 1, 2, 3, 4, 5, 6, 0x88, 0xB6, 1, 2, 0, 7, 6, 0, 16, 0,
      1, 0, 0, 0, 1, 2, 3, 4], by decide +kernel⟩,
    ⟨(onSup (on []) fun x => { x with svcRestarting := true }), by decide +kernel⟩,
    ⟨(onSup (on []) fun x => { x with svcRestarting := true, svcHeld := [.frame [1], .read .pf0 16777216 8] }), 8, .read .pf0
      16777216 8, by decide +kernel⟩,
    ⟨(onSup (on []) fun x => { x with svcRestarting := true, svcHeld := [.read .pf0 16777216 4, .frame [1]] }), 8, .frame [1],
      by decide +kernel⟩⟩

theorem witness_FaultCommandsComplete :
    (∃ (s : State) (c : Nat × Instr), s.canon = true ∧ s.powered = true ∧ s.flag Reg.SUP_SAFETY_STATUS_SAFE_STOP = false ∧ c ∈
      [(0x0B, Instr.lockstepMismatch), (0x0C, .safetyWdogExpiry), (0x0F, .thermalTrip)]) ∧
    (∃ (s : State), s.canon = true ∧ s.powered = true ∧ s.flag Reg.SUP_SAFETY_STATUS_SAFE_STOP = false) ∧
    (∃ (s : State), s.canon = true ∧ s.powered = true ∧ s.flag Reg.SUP_SAFETY_STATUS_SAFE_STOP = false) ∧
    (∃ (s : State), s.canon = true ∧ s.powered = true ∧ s.flag Reg.SUP_SAFETY_STATUS_SVC_HALTED = false ∧ s.sup.svcRestarting =
      false ∧ (s.sup.svcTimes.filter (fun x => s.localNs < x + hourNs)).length < 3) ∧
    (∃ (s : State), s.canon = true ∧ s.powered = true ∧ s.flag Reg.SUP_SAFETY_STATUS_SVC_HALTED = false ∧ s.sup.svcRestarting =
      false ∧ 3 ≤ (s.sup.svcTimes.filter (fun x => s.localNs < x + hourNs)).length) ∧
    (∃ (s : State) (l : List (BitVec 8)) (i : Nat) (c : BitVec 8), s.canon = true ∧ hottest l = some (i, c)) ∧
    (∃ (s : State), s.canon = true) ∧
    (∃ (s : State) (u : Fin 14), s.canon = true ∧ s.get (Reg.UNIT_STATE u) = 2) :=
  ⟨⟨on [], (0x0F, .thermalTrip), by decide +kernel⟩,
    ⟨on [], by decide +kernel⟩,
    ⟨on [], by decide +kernel⟩,
    ⟨on [], by decide +kernel⟩,
    ⟨(onSup (on []) fun x => { x with svcTimes := [12500000, 12500000, 12500000] }), by decide +kernel⟩,
    ⟨on [], [1, 0x7F], 1, 0x7F, by decide +kernel⟩,
    ⟨on [], by decide +kernel⟩,
    ⟨on [], 13, by decide +kernel⟩⟩

theorem witness_ResetCommandsComplete :
    (∃ (s : State) (r : Requester), s.canon = true ∧ s.mayWrite r Reg.SUP_RESET_CTL_OP.key = true ∧ s.sup.flashOp = none) ∧
    (∃ (s : State) (r : Requester), s.canon = true ∧ s.mayWrite r Reg.SUP_RESET_CTL_OP.key = true ∧ s.sup.warmDue = false ∧
      s.pairRole = false) ∧
    (∃ (s : State) (r : Requester) (u : Fin 16), s.canon = true ∧ s.mayWrite r Reg.SUP_RESET_CTL_OP.key = true ∧ s.resetBusy =
      false ∧ s.pairRole = false ∧ 0 < u.val ∧ u.val < 14 ∧ 2 ≤ s.get (Reg.UNIT_STATE u)) ∧
    (∃ (s : State) (r : Requester) (u : Fin 16), s.canon = true ∧ s.mayWrite r Reg.SUP_RESET_CTL_OP.key = true ∧ s.resetBusy =
      false ∧ (u.val = 0 ∨ 13 < u.val)) ∧
    (∃ (s : State), s.canon = true ∧ s.sup.warmDue = true) ∧
    (∃ (s : State) (u : _), s.canon = true ∧ 0 < u ∧ u < 14 ∧ s.sup.unitReset = some u) ∧
    (∃ (s : State) (u : Fin 14) (slot : Nat), s.canon = true ∧ s.sup.bootSlot = some slot ∧ s.sup.firmware = true ∧
      loadOrder[s.sup.loaded]? = some u.val ∧ s.sup.loaded < 13) ∧
    (∃ (s : State) (u : Fin 14) (slot : Nat) (part : ImagePart), s.canon = true ∧ s.sup.bootSlot = some slot ∧ s.sup.firmware =
      true ∧ loadOrder[s.sup.loaded]? = some u.val ∧ s.sup.loaded < 13 ∧ u.val ∈ [5, 6, 12] ∧ s.sup.image.map.all (fun e =>
      typeUnit e.type != u.val || s.digestOk slot e) = true ∧ part.readFail = false) :=
  ⟨⟨on [], .frame, by decide +kernel⟩,
    ⟨on [], .pf0, by decide +kernel⟩,
    ⟨on [], .pf0, 13, by decide +kernel⟩,
    ⟨on [], .pf0, 14, by decide +kernel⟩,
    ⟨(onSup (on []) fun x => { x with warmDue := true }), by decide +kernel⟩,
    ⟨(onSup (on [(Reg.UNIT_STATE 13, 4)]) fun x => { x with unitReset := some 13 }), 13, by decide +kernel⟩,
    ⟨(onSup (off []) fun x =>
      { x with bootSlot := some 1, firmware := true, loaded := 12, flash := [(0x01000016, 0), (0x01000017, 0)] }), 12, 1,
      by decide +kernel⟩,
    ⟨(onSup (off []) fun x =>
      { x with bootSlot := some 1, firmware := true, loaded := 12, flash := [(0x01000016, 0), (0x01000017, 0)] }), 12, 1, (⟨[],
      [], [], [], [], [], none, [], 0, [], [], false⟩ : ImagePart), by decide +kernel⟩⟩

theorem witness_WindowWritesComplete :
    (∃ (s : State) (r : Requester) (off : Nat) (k : Nat), s.canon = true ∧ s.pairRole = false ∧ k = 0x10000000 + off / 4 * 4 ∧
      s.reachesBar2 r k = true ∧ s.tblBusy = false ∧ (inRange k 0x11100000 0x400 || inRange k 0x11101000 0x2000) = true) ∧
    (∃ (s : State) (r : Requester) (off : Nat) (k : Nat), s.canon = true ∧ s.pairRole = false ∧ k = 0x10000000 + off / 4 * 4 ∧
      s.reachesBar2 r k = true ∧ s.tblBusy = true ∧ s.pcu.lostRaised = false ∧ inRange k 0x11000000 0x100000 = true) ∧
    (∃ (s : State) (r : Requester) (off : Nat) (k : Nat), s.canon = true ∧ s.pairRole = false ∧ k = 0x10000000 + off / 4 * 4 ∧
      s.reachesBar2 r k = true ∧ s.tblBusy = false ∧ inRange k 0x12900000 0x4000 = true ∧ s.ftu.changes.contains (0x4000000 + (k
      - 0x12900000) / 4) = true) ∧
    (∃ (s : State) (r : Requester) (off : Nat) (k : Nat), s.canon = true ∧ s.pairRole = false ∧ k = 0x10000000 + off / 4 * 4 ∧
      s.reachesBar2 r k = true ∧ s.tblBusy = false ∧ inRange k 0x12800000 0x100000 = true ∧ k % 16 = 0 ∧ 4096 ≤
      s.ftu.changes.length ∧ s.ftu.changes.contains (0x2000000 + (k - 0x12800000) / 16) = false) ∧
    (∃ (s : State) (r : Requester) (l : Nat), s.canon = true ∧ s.pairRole = false ∧ l < 8192 ∧ s.reachesBar2 r (0x13240000 + 8 *
      l) = true ∧ s.get (Reg.LISTH_MEDIA_REFS l) = 0 ∧ s.tblBusy = false) ∧
    (∃ (s : State) (r : Requester) (l : Nat), s.canon = true ∧ s.pairRole = false ∧ l < 8192 ∧ s.reachesBar2 r (0x13240000 + 8 *
      l) = true ∧ s.get (Reg.LISTH_MEDIA_REFS l) ≠ 0) ∧
    (∃ (s : State) (r : Requester) (f : Fin 65536) (w : Fin 32) (k : Nat), s.canon = true ∧ s.pairRole = false ∧ k = 0x12000000
      + 128 * f.val + 4 * w.val ∧ s.reachesBar2 r k = true ∧ w.val ≤ 10 ∧ s.flag (Reg.FLOW_ADMITTED f) = false ∧ s.flag
      (Reg.FLOW_PENDING f) = false) ∧
    (∃ (s : State) (r : Requester) (f : Fin 65536) (w : Fin 32) (k : Nat), s.canon = true ∧ s.pairRole = false ∧ k = 0x12000000
      + 128 * f.val + 4 * w.val ∧ s.reachesBar2 r k = true ∧ w.val ≤ 10 ∧ (s.flag (Reg.FLOW_ADMITTED f) || s.flag
      (Reg.FLOW_PENDING f)) = true) ∧
    (∃ (s : State) (r : Requester) (f : Fin 65536) (w : Fin 32) (k : Nat), s.canon = true ∧ s.pairRole = false ∧ k = 0x12000000
      + 128 * f.val + 4 * w.val ∧ s.reachesBar2 r k = true ∧ 20 ≤ w.val ∧ w.val ≤ 28) ∧
    (∃ (s : State) (r : Requester) (p : Fin 8192) (w : Fin 8) (k : Nat), s.canon = true ∧ s.pairRole = false ∧ k = 0x13200000 +
      32 * p.val + 4 * w.val ∧ s.reachesBar2 r k = true ∧ w.val ≤ 2 ∧ s.flag (Reg.POINT_ADMITTED p) = false ∧ s.flag
      (Reg.POINT_PENDING p) = false) ∧
    (∃ (s : State) (r : Requester) (i : Fin 131072) (k : Nat), s.canon = true ∧ s.pairRole = false ∧ k = 0x13000000 + 16 * i.val
      ∧ s.reachesBar2 r k = true ∧ s.pointOfTerm i = none) ∧
    (∃ (s : State) (r : Requester) (i : Fin 131072), s.canon = true ∧ s.pairRole = false ∧ s.reachesBar2 r 0x13000000 = true ∧
      s.pointOfTerm i = none) ∧
    (∃ (s : State) (r : Requester) (i : Fin 131072) (p : _), s.canon = true ∧ s.pairRole = false ∧ s.reachesBar2 r 0x13000000 =
      true ∧ s.pointOfTerm i = some p ∧ s.flag (Reg.POINT_ADMITTED p) = true ∧ s.gainClosed p = false ∧ s.flag (Reg.TERM_PEND i)
      = false) ∧
    (∃ (s : State) (f : Fin 4096) (i : Fin 131072) (p : Nat), s.canon = true ∧ s.pairRole = false ∧ s.served (.vf f) = true ∧
      s.shows 0x20000000 = true ∧ s.shows 0x06001000 = true ∧ s.pointOfTerm i = some p ∧ s.flag (Reg.POINT_ADMITTED p) = true ∧
      s.get (Reg.POINT_FUNC p) = f.val ∧ s.gainClosed p = false ∧ s.flag (Reg.TERM_PEND i) = false) ∧
    (∃ (s : State) (f : Fin 4096) (i : Fin 131072) (p : Nat), s.canon = true ∧ s.pairRole = false ∧ s.served (.vf f) = true ∧
      s.shows 0x20000000 = true ∧ s.shows 0x06001000 = true ∧ s.pointOfTerm i = some p ∧ s.get (Reg.POINT_FUNC p) ≠ f.val) :=
  ⟨⟨on [], .pf0, 0x1102FFF, 0x11102FFC, by decide +kernel⟩,
    ⟨on [(Reg.PCU_TBL_CTL_BUSY, 1)], .pf0, 0x1000000, 0x11000000, by decide +kernel⟩,
    ⟨(onFtu (on []) fun x => { x with changes := [0x4000FFF] }), .sup, 0x2903FFC, 0x12903FFC, by decide +kernel⟩,
    ⟨(onFtu (on []) fun x => { x with changes := (List.range 4096) }), .pf0, 0x2800000, 0x12800000, by decide +kernel⟩,
    ⟨on [], .pf0, 8191, by decide +kernel⟩,
    ⟨on [(Reg.LISTH_MEDIA_REFS 8191, 1)], .pf0, 8191, by decide +kernel⟩,
    ⟨on [], .pf0, 65535, 10, 0x127FFFA8, by decide +kernel⟩,
    ⟨on [(Reg.FLOW_PENDING 65535, 1)], .pf0, 65535, 10, 0x127FFFA8, by decide +kernel⟩,
    ⟨on [(⟨0x12000050, 31, 0⟩, 7)], .pf0, 0, 20, 0x12000050, by decide +kernel⟩,
    ⟨on [], .pf0, 8191, 2, 0x1323FFE8, by decide +kernel⟩,
    ⟨on [], .pf0, 131071, 0x131FFFF0, by decide +kernel⟩,
    ⟨on [], .pf0, 131071, by decide +kernel⟩,
    ⟨on [(Reg.POINT_ADMITTED 8191, 1), (Reg.POINT_TERM_COUNT 8191, 1), (Reg.POINT_TERM_BASE 8191, 131071)], .pf0, 131071, 8191,
      by decide +kernel⟩,
    ⟨on [(Reg.POINT_ADMITTED 8191, 1), (Reg.POINT_TERM_COUNT 8191, 1), (Reg.POINT_TERM_BASE 8191, 131071), (Reg.POINT_FUNC 8191,
      4095), (cfgVfOn, 1), (cfgVfMse, 1), (cfgNumVfs, 4095)], 4095, 131071, 8191, by decide +kernel⟩,
    ⟨on [(Reg.POINT_ADMITTED 8191, 1), (Reg.POINT_TERM_COUNT 8191, 1), (Reg.POINT_TERM_BASE 8191, 131071), (Reg.POINT_FUNC 8191,
      4095), (cfgVfOn, 1), (cfgVfMse, 1), (cfgNumVfs, 4095)], 4094, 131071, 8191, by decide +kernel⟩⟩

theorem witness_CommitSwapsBanks :
    (∃ (s : State) (r : Requester), s.canon = true ∧ s.mayWrite r Reg.PCU_TBL_CTL_COMMIT.key = true ∧ s.pairRole = false ∧
      s.tblBusy = false ∧ s.classifierFuncs.find? (fun f => s.get (poolLimit f 3) < (s.stagedEntries 0x11000000 f).length) =
      none) ∧
    (∃ (s : State) (r : Requester) (f : _), s.canon = true ∧ s.mayWrite r Reg.PCU_TBL_CTL_COMMIT.key = true ∧ s.pairRole = false
      ∧ s.tblBusy = false ∧ s.classifierFuncs.find? (fun f => s.get (poolLimit f 3) < (s.stagedEntries 0x11000000 f).length) =
      some f ∧ f < 4096) ∧
    (∃ (s : State) (at_ : Option Nat), s.canon = true ∧ s.pcu.commit = some at_ ∧ at_.getD 0 ≤ s.tick) ∧
    (∃ (s : State), s.canon = true ∧ s.pcu.syncDue = true) :=
  ⟨⟨on [], .pf0, by decide +kernel⟩,
    ⟨on [(⟨0x110FFFFC, 31, 0⟩, 0x80000000), (⟨0x110FFFF8, 31, 0⟩, 4095)], .pf0, 4095, by decide +kernel⟩,
    ⟨(onPcu (on [(⟨0x11000000, 31, 0⟩, 5), (⟨0x11400000, 31, 0⟩, 6)]) fun x => { x with commit := some (some 100) }), some 100,
      by decide +kernel⟩,
    ⟨(onPcu (on [(Reg.PCU_TBL_CTL_BUSY, 1)]) fun x => { x with syncDue := true }), by decide +kernel⟩⟩

theorem witness_ComparesRepair :
    (∃ (s : State) (e : Fin 8192) (p : Fin 4) (i : Fin 32) (x : Word), s.canon = true ∧ ((∀ q, q < 4 → ∀ i, i < 32 → s.rd
      (committedEntry q e + 4 * i) = s.rd (committedEntry 0 e + 4 * i))) ∧ x.toNat ≠ s.rd (committedEntry p e + 4 * i.val)) ∧
    (∃ (s : State) (e : Fin 8192), s.canon = true ∧ ((∀ q, q < 4 → ∀ i, i < 32 → s.rd (committedEntry q e + 4 * i) = s.rd
      (committedEntry 0 e + 4 * i)))) ∧
    (∃ (s : State) (table : Fin 5) (index : Nat) (l : List Nat), s.canon = true ∧ s.powered = true ∧ s.ftu.shadow = none ∧
      Assoc.get? s.ftu.shadows (table * 0x1000000 + index) = none ∧ ((∀ q, q < 4 → s.badCopy table index q = none)) ∧ l ≠
      s.recordWords table index) ∧
    (∃ (s : State) (table : Fin 5) (index : Nat), s.canon = true ∧ s.powered = true ∧ s.ftu.shadow = none ∧ Assoc.get?
      s.ftu.shadows (table * 0x1000000 + index) = none ∧ ((∀ q, q < 4 → s.badCopy table index q = none))) ∧
    (∃ (s : State) (index : Nat) (p : Fin 4) (q : Fin 4) (a : List Nat) (b : List Nat), s.canon = true ∧ s.powered = true ∧ p ≠
      q ∧ s.ftu.shadow = none ∧ index < 4096 ∧ ((∀ q, q < 4 → s.badCopy 4 index q = none)) ∧ a ≠ s.recordWords 4 index ∧ b ≠
      s.recordWords 4 index) :=
  ⟨⟨on [], 8191, 3, 31, 0xFFFFFFFF, by decide +kernel⟩,
    ⟨on [], 8191, by decide +kernel⟩,
    ⟨on [], 4, 4095, [1], by decide +kernel⟩,
    ⟨on [], 4, 4095, by decide +kernel⟩,
    ⟨on [(⟨0x12903FFC, 31, 0⟩, 0x80000001)], 4095, 0, 3, [1], [2], by decide +kernel⟩⟩

theorem witness_TableOperationsComplete :
    (∃ (s : State) (r : Requester) (x : _), s.canon = true ∧ s.mayWrite r Reg.FTU_LPM_OP_CMD_OP.key = true ∧ s.pairRole = false
      ∧ s.tblBusy = false ∧ s.lpmArg.bad = false ∧ s.ftu.lpm.find? (lpmIs · s.lpmArg) = some x ∧ s.ftu.changes.contains
      (0x1000000 + lpmIndex x) = true ∧ (s.ftu.lpm.any (fun y => y.stagedValid && y.fam == s.lpmArg.fam && y.vrf == s.lpmArg.vrf
      && y.len == s.lpmArg.len)) = true) ∧
    (∃ (s : State) (r : Requester) (x : _), s.canon = true ∧ s.mayWrite r Reg.FTU_LPM_OP_CMD_OP.key = true ∧ s.pairRole = false
      ∧ s.tblBusy = false ∧ s.lpmArg.bad = false ∧ s.ftu.lpm.find? (lpmIs · s.lpmArg) = some x ∧ s.ftu.changes.contains
      (0x1000000 + lpmIndex x) = true ∧ x.stagedValid = true ∧ x.validNow = true) ∧
    (∃ (s : State) (r : Requester) (x : _), s.canon = true ∧ s.mayWrite r Reg.FTU_LPM_OP_CMD_OP.key = true ∧ s.pairRole = false
      ∧ s.tblBusy = false ∧ s.lpmArg.bad = false ∧ s.ftu.lpm.find? (lpmIs · s.lpmArg) = some x ∧ s.ftu.changes.contains
      (0x1000000 + lpmIndex x) = true) ∧
    (∃ (s : State) (r : Requester), s.canon = true ∧ s.mayWrite r Reg.FTU_LPM_OP_CMD_OP.key = true ∧ s.pairRole = false ∧
      s.tblBusy = false ∧ s.lpmArg.bad = false ∧ s.ftu.lpm.find? (lpmIs · s.lpmArg) = none) ∧
    (∃ (s : State) (r : Requester), s.canon = true ∧ s.mayWrite r Reg.FTU_LPM_OP_CMD_OP.key = true ∧ s.pairRole = false ∧
      s.tblBusy = false ∧ s.lpmArg.bad = false ∧ s.ftu.lpm.find? (lpmIs · s.lpmArg) = none) ∧
    (∃ (s : State) (r : Requester), s.canon = true ∧ s.mayWrite r Reg.FTU_MAC_OP_CMD_OP.key = true ∧ s.flag
      Reg.FTU_MAC_OP_STATUS_BUSY = false ∧ s.tblBusy = false ∧ s.pairRole = false ∧ s.ftu.macStatic = [] ∧ s.ftu.macLearned = []
      ∧ s.ftu.changes = [] ∧ s.get Reg.FTU_MAC_OP_KEY_MAC ≠ 0 ∧ bitAt (s.get Reg.FTU_MAC_OP_KEY_MAC) 40 = false) ∧
    (∃ (s : State) (r : Requester) (x : MacStatic), s.canon = true ∧ s.mayWrite r Reg.FTU_MAC_OP_CMD_OP.key = true ∧ s.flag
      Reg.FTU_MAC_OP_STATUS_BUSY = false ∧ s.tblBusy = false ∧ s.pairRole = false ∧ s.ftu.macStatic = [x] ∧ x.vlan = s.get
      Reg.FTU_MAC_OP_KEY_VLAN ∧ x.mac = s.get Reg.FTU_MAC_OP_KEY_MAC ∧ x.stagedValid = true ∧ x.validNow = false ∧
      s.ftu.changes.contains (0x3000000 + macIndex x) = true) ∧
    (∃ (s : State) (r : Requester), s.canon = true ∧ s.mayWrite r Reg.FTU_MAC_OP_CMD_OP.key = true ∧ s.flag
      Reg.FTU_MAC_OP_STATUS_BUSY = false ∧ s.tblBusy = false) ∧
    (∃ (s : State) (r : Requester), s.canon = true ∧ s.mayWrite r Reg.FTU_MAC_OP_CMD_OP.key = true ∧ s.flag
      Reg.FTU_MAC_OP_STATUS_BUSY = false ∧ s.tblBusy = false ∧ s.ftu.flushing ≠ none) ∧
    (∃ (s : State) (r : Requester), s.canon = true ∧ s.mayWrite r Reg.FTU_MAC_OP_CMD_OP.key = true ∧ s.flag
      Reg.FTU_MAC_OP_STATUS_BUSY = false ∧ s.tblBusy = false ∧ s.ftu.flushing = none) ∧
    (∃ (s : State), s.canon = true ∧ s.ftu.flushing = some none) ∧
    (∃ (s : State) (p : Nat) (rest : List Nat), s.canon = true ∧ s.ftu.flushing = none ∧ s.ftu.flushQueue = p :: rest) ∧
    (∃ (s : State) (p : Nat), s.canon = true ∧ s.ftu.flushing = some (some p) ∧ s.ftu.flushHeld = none) ∧
    (∃ (s : State) (p : Nat) (vlan : Option Nat) (port : Option Nat), s.canon = true ∧ s.ftu.flushing = some (some p) ∧
      s.ftu.flushHeld = some (vlan, port)) ∧
    (∃ (s : State), s.canon = true ∧ s.powered = true ∧ (s.get Reg.FTU_AGE_NOW + 1) % 2048 ≠ 0) ∧
    (∃ (s : State), s.canon = true ∧ s.powered = true ∧ (s.get Reg.FTU_AGE_NOW + 1) % 2048 = 0) :=
  ⟨⟨(onFtu (on [(⟨0x04001100, 31, 0⟩, 0xFFFFFFFF), (⟨0x04001104, 31, 0⟩, 0xFFFFFFFF), (⟨0x04001108, 31, 0⟩, 0xFFFFFFFF),
    (⟨0x0400110C, 31, 0⟩, 0xFFFFFFFF), (Reg.FTU_LPM_OP_KEY_FAM, 1), (Reg.FTU_LPM_OP_KEY_VRF, 4095), (Reg.FTU_LPM_OP_KEY_LEN,
    128)]) fun x =>
    { x with lpm := [(⟨5, 7, 1, 4095, 128, 0xFFFFFFFFFFFFFFFFFFFFFFFFFFFFFFFF, true, 9, false, 0⟩ : LpmSlot)], changes := [0x1000000 + 47] }),
    .pf0, (⟨5, 7, 1, 4095, 128, 0xFFFFFFFFFFFFFFFFFFFFFFFFFFFFFFFF, true, 9, false, 0⟩ : LpmSlot), by decide +kernel⟩,
    ⟨(onFtu (on [(⟨0x04001100, 31, 0⟩, 0xFFFFFFFF), (⟨0x04001104, 31, 0⟩, 0xFFFFFFFF), (⟨0x04001108, 31, 0⟩, 0xFFFFFFFF),
      (⟨0x0400110C, 31, 0⟩, 0xFFFFFFFF), (Reg.FTU_LPM_OP_KEY_FAM, 1), (Reg.FTU_LPM_OP_KEY_VRF, 4095), (Reg.FTU_LPM_OP_KEY_LEN,
      128)]) fun x =>
      { x with lpm := [(⟨5, 7, 1, 4095, 128, 0xFFFFFFFFFFFFFFFFFFFFFFFFFFFFFFFF, true, 9, true, 0⟩ : LpmSlot)], changes := [0x1000000 + 47] }),
      .pf0, (⟨5, 7, 1, 4095, 128, 0xFFFFFFFFFFFFFFFFFFFFFFFFFFFFFFFF, true, 9, true, 0⟩ : LpmSlot), by decide +kernel⟩,
    ⟨(onFtu (on [(⟨0x04001100, 31, 0⟩, 0xFFFFFFFF), (⟨0x04001104, 31, 0⟩, 0xFFFFFFFF), (⟨0x04001108, 31, 0⟩, 0xFFFFFFFF),
      (⟨0x0400110C, 31, 0⟩, 0xFFFFFFFF), (Reg.FTU_LPM_OP_KEY_FAM, 1), (Reg.FTU_LPM_OP_KEY_VRF, 4095), (Reg.FTU_LPM_OP_KEY_LEN,
      128)]) fun x =>
      { x with lpm := [(⟨5, 7, 1, 4095, 128, 0xFFFFFFFFFFFFFFFFFFFFFFFFFFFFFFFF, true, 9, false, 0⟩ : LpmSlot)], changes := [0x1000000 + 47] }),
      .pf0, (⟨5, 7, 1, 4095, 128, 0xFFFFFFFFFFFFFFFFFFFFFFFFFFFFFFFF, true, 9, false, 0⟩ : LpmSlot), by decide +kernel⟩,
    ⟨on [(⟨0x04001100, 31, 0⟩, 0xFFFFFFFF), (⟨0x04001104, 31, 0⟩, 0xFFFFFFFF), (⟨0x04001108, 31, 0⟩, 0xFFFFFFFF), (⟨0x0400110C,
      31, 0⟩, 0xFFFFFFFF), (Reg.FTU_LPM_OP_KEY_FAM, 1), (Reg.FTU_LPM_OP_KEY_VRF, 4095), (Reg.FTU_LPM_OP_KEY_LEN, 128)], .pf0,
      by decide +kernel⟩,
    ⟨on [(⟨0x04001100, 31, 0⟩, 0xFFFFFFFF), (⟨0x04001104, 31, 0⟩, 0xFFFFFFFF), (⟨0x04001108, 31, 0⟩, 0xFFFFFFFF), (⟨0x0400110C,
      31, 0⟩, 0xFFFFFFFF), (Reg.FTU_LPM_OP_KEY_FAM, 1), (Reg.FTU_LPM_OP_KEY_VRF, 4095), (Reg.FTU_LPM_OP_KEY_LEN, 128)], .pf0,
      by decide +kernel⟩,
    ⟨on [(Reg.FTU_MAC_OP_KEY_VLAN, 4094), (Reg.FTU_MAC_OP_KEY_MAC, 0xFEFFFFFFFFFF)], .pf0, by decide +kernel⟩,
    ⟨(onFtu (on [(Reg.FTU_MAC_OP_KEY_VLAN, 4094), (Reg.FTU_MAC_OP_KEY_MAC, 0xFEFFFFFFFFFF)]) fun x =>
      { x with macStatic := [(⟨5, 3, 4094, 0xFEFFFFFFFFFF, true, 0, 9, false, 0, 0⟩ : MacStatic)], changes := [0x3000000 + (5 * 4 + 3), 0x3000000 + (5 * 8 + 3)] }),
      .pf0, (⟨5, 3, 4094, 0xFEFFFFFFFFFF, true, 0, 9, false, 0, 0⟩ : MacStatic), by decide +kernel⟩,
    ⟨on [(Reg.FTU_MAC_OP_KEY_VLAN, 4094), (Reg.FTU_MAC_OP_KEY_MAC, 0xFEFFFFFFFFFF)], .pf0, by decide +kernel⟩,
    ⟨(onFtu (on [(Reg.FTU_MAC_OP_KEY_VLAN, 4094), (Reg.FTU_MAC_OP_KEY_MAC, 0xFEFFFFFFFFFF)]) fun x =>
      { x with flushing := some (some 31) }), .pf0, by decide +kernel⟩,
    ⟨on [(Reg.FTU_MAC_OP_KEY_VLAN, 4094), (Reg.FTU_MAC_OP_KEY_MAC, 0xFEFFFFFFFFFF)], .pf0, by decide +kernel⟩,
    ⟨(onFtu (on []) fun x => { x with flushing := some none }), by decide +kernel⟩,
    ⟨(onFtu (on []) fun x => { x with flushQueue := [31, 0] }), 31, [0], by decide +kernel⟩,
    ⟨(onFtu (on []) fun x => { x with flushing := some (some 31) }), 31, by decide +kernel⟩,
    ⟨(onFtu (on []) fun x => { x with flushing := some (some 31), flushHeld := some (some 4094, none) }), 31, some 4094, none,
      by decide +kernel⟩,
    ⟨on [], by decide +kernel⟩,
    ⟨on [(Reg.FTU_AGE_NOW, 4095)], by decide +kernel⟩⟩

theorem witness_BufferRepairsComplete :
    (∃ (s : State), s.canon = true ∧ s.fpu.sweeping = true ∧ ((∀ x ∈ s.fpu.cells, x.2.allocated = true → (s.frame?
      x.2.owner).any (fun f => (f.chain ++ f.heads).any (fun y => y.1 == x.1)) = true))) ∧
    (∃ (s : State) (c : Nat) (x : Cell), s.canon = true ∧ s.fpu.sweeping = true ∧ s.fpu.cells = [(c, x)] ∧ x.allocated = true ∧
      s.frame? x.owner = none) ∧
    (∃ (s : State) (p : Fin 4) (d : Fin 37), s.canon = true ∧ s.staged (p.val * 64 + d.val) ≠ 0) ∧
    (∃ (s : State) (p : Fin 4) (d : Fin 37), s.canon = true ∧ 2 ≤ Assoc.getD s.fpu.creditFails (p.val * 64 + d.val) 0 ∧ s.staged
      (p.val * 64 + d.val) = 0) :=
  ⟨⟨(onFpu (on []) fun x =>
    { x with sweeping := true, cells := [(393215, ⟨9, 1, true⟩)], frames := [(9, (⟨0, 0, 0, zeros 60, true, false, false, Walk.empty, [(393215, 1)], 1, [], 64, [], [], ⟨0, 0⟩, []⟩ : Frame))] }),
    by decide +kernel⟩,
    ⟨(onFpu (on []) fun x => { x with sweeping := true, cells := [(393215, (⟨262143, 63, true⟩ : Cell))] }), 393215, (⟨262143,
      63, true⟩ : Cell), by decide +kernel⟩,
    ⟨(onFpu (on []) fun x => { x with inputs := [(36, ⟨3, false, false, 9, [⟨.pleach, 7, 0⟩], ⟨0, 0⟩⟩)] }), 3, 36,
      by decide +kernel⟩,
    ⟨(onFpu (on []) fun x => { x with creditFails := [(228, 2)], credits := [(228, 3)] }), 3, 36, by decide +kernel⟩⟩

theorem witness_GuardCommandsComplete :
    (∃ (s : State) (f : Fin 65536), s.canon = true ∧ s.guarded f = true ∧ s.flag (Reg.EGU_GUARD_POLICY_REARM_AUTO
      (s.guardProfile f)) = true ∧ s.flag Reg.EGU_GUARD_STATUS_FAILED = false ∧ ((∃ ch ∈ s.guardChannels f, ch.state = 2 ∧
      ch.cause = 0 ∧ s.get (Reg.EGU_GUARD_POLICY_REARM_M (s.guardProfile f)) ≤ ch.clean))) ∧
    (∃ (s : State) (r : Requester) (f : Fin 65536) (mask : Nat), s.canon = true ∧ s.mayWrite r 0x07008400 = true ∧ s.pairRole =
      false ∧ mask = s.get Reg.EGU_GUARD_CH_MASK % 2 ^ (s.geometry f).channels ∧ s.rearmResult f mask = 0) ∧
    (∃ (s : State) (r : Requester) (f : Fin 65536) (mask : Nat), s.canon = true ∧ s.mayWrite r 0x07008400 = true ∧ s.pairRole =
      false ∧ mask = s.get Reg.EGU_GUARD_CH_MASK % 2 ^ (s.geometry f).channels ∧ s.rearmResult f mask ≠ 0) ∧
    (∃ (s : State) (f : Fin 65536) (mask : Nat) (at_ : Nat), s.canon = true ∧ s.egu.rearms = [(f.val, at_, mask)] ∧ at_ ≤ s.tick
      ∧ s.flag Reg.EGU_GUARD_STATUS_FAILED = false ∧ (s.guardChannels f).zipIdx.any (fun x => x.1.state == 2 && bitAt mask x.2)
      = true) ∧
    (∃ (s : State) (r : Requester) (f : Fin 65536), s.canon = true ∧ s.mayWrite r 0x07008400 = true ∧ s.guarded f = true) ∧
    (∃ (s : State) (r : Requester) (p : Fin 64) (which : Fin 3) (v : Word) (f : Field) (new : Nat), s.canon = true ∧ f =
      limitField p which ∧ new = bits v.toNat f.lo (f.hi + 1 - f.lo) ∧ s.mayWrite r f.key = true ∧ s.pairRole = false ∧
      s.egu.limits = [] ∧ limitFloor which ≤ new ∧ new ≤ s.get f ∧ (which.val ≠ 2 ∨ bits v.toNat 16 11 = s.get
      (Reg.EGU_GUARD_STUCK_DC_N p))) ∧
    (∃ (s : State) (r : Requester) (p : Fin 64) (which : Fin 3) (v : Word) (f : Field) (new : Nat), s.canon = true ∧ f =
      limitField p which ∧ new = bits v.toNat f.lo (f.hi + 1 - f.lo) ∧ s.mayWrite r f.key = true ∧ s.pairRole = false ∧
      s.egu.limits = [] ∧ limitFloor which ≤ new ∧ new ≤ s.get f ∧ which.val = 2 ∧ s.flag (Reg.UNIT_SEALED 7) = false) ∧
    (∃ (s : State) (r : Requester) (p : Fin 64) (which : Fin 3) (v : Word) (f : Field) (new : Nat), s.canon = true ∧ f =
      limitField p which ∧ new = bits v.toNat f.lo (f.hi + 1 - f.lo) ∧ s.mayWrite r f.key = true ∧ s.pairRole = false ∧
      s.egu.limits = [] ∧ limitFloor which ≤ new ∧ new ≤ s.get f ∧ which.val = 2 ∧ s.flag (Reg.UNIT_SEALED 7) = true ∧ bits
      v.toNat 16 11 ≠ s.get (Reg.EGU_GUARD_STUCK_DC_N p)) ∧
    (∃ (s : State) (r : Requester) (p : Fin 64) (which : Fin 3) (v : Word) (f : Field) (new : Nat), s.canon = true ∧ f =
      limitField p which ∧ new = bits v.toNat f.lo (f.hi + 1 - f.lo) ∧ s.mayWrite r f.key = true ∧ s.pairRole = false ∧
      s.egu.limits = [] ∧ s.get f < new ∧ s.flag (Reg.UNIT_SEALED 7) = false) ∧
    (∃ (s : State) (p : Fin 64) (which : Fin 3) (f : Field) (v : Nat) (at_ : Nat), s.canon = true ∧ f = limitField p which ∧
      s.egu.limits = [(f.key, v, at_)] ∧ at_ ≤ s.tick ∧ v < s.get f) :=
  ⟨⟨(onEgu (on [(Reg.FLOW_SPK 65535, 1), (Reg.FLOW_CHANNELS 65535, 1), (Reg.EGU_GUARD_POLICY_REARM_AUTO 0, 1),
    (Reg.EGU_GUARD_POLICY_REARM_M 0, 5)]) fun x =>
    { x with guard := [(65535, [(⟨2, 0, 0, [], 0, 0, 0, 0, [], 0, none, 0, 0, 5⟩ : GuardChannel)])] }), 65535,
    by decide +kernel⟩,
    ⟨(onEgu (on [(Reg.FLOW_SPK 65535, 1), (Reg.FLOW_CHANNELS 65535, 1), (Reg.EGU_GUARD_CH_MASK, 0xFFFFFFFFFFFFFFFF)]) fun x =>
      { x with guard := [(65535, [(⟨2, 0, 0, [], 0, 0, 0, 0, [], 0, none, 0, 0, 1⟩ : GuardChannel)])] }), .pf0, 65535, 1,
      by decide +kernel⟩,
    ⟨on [], .pf0, 65535, 0, by decide +kernel⟩,
    ⟨(onEgu (on [(Reg.FLOW_SPK 65535, 1), (Reg.FLOW_CHANNELS 65535, 1)]) fun x =>
      { x with guard := [(65535, [(⟨2, 0, 0, [], 0, 0, 0, 0, [], 0, none, 0, 0, 1⟩ : GuardChannel)])], rearms := [(65535, 100, 1)] }),
      65535, 1, 100, by decide +kernel⟩,
    ⟨(onEgu (on [(Reg.FLOW_SPK 65535, 1), (Reg.FLOW_CHANNELS 65535, 1)]) fun x =>
      { x with guard := [(65535, [(⟨3, 0, 0, [], 0, 0, 0, 0, [], 0, none, 0, 0, 0⟩ : GuardChannel)])] }), .pf0, 65535,
      by decide +kernel⟩,
    ⟨on [(limitField 63 0, 7)], .pf0, 63, 0, 1, limitField 63 0, 1, by decide +kernel⟩,
    ⟨on [(limitField 63 2, 7)], .pf0, 63, 2, 0x07FF0002, limitField 63 2, 2, by decide +kernel⟩,
    ⟨on [(limitField 63 2, 7), (Reg.UNIT_SEALED 7, 1)], .pf0, 63, 2, 0x07FF0007, limitField 63 2, 7, by decide +kernel⟩,
    ⟨on [], .pf0, 63, 2, 0xFFFFFFFF, limitField 63 2, bits 0xFFFFFFFF (limitField 63 2).lo ((limitField 63 2).hi + 1 -
      (limitField 63 2).lo), by decide +kernel⟩,
    ⟨(onEgu (on [(limitField 63 1, 7)]) fun x => { x with limits := [((limitField 63 1).key, 6, 100)] }), 63, 1, limitField 63
      1, 6, 100, by decide +kernel⟩⟩

theorem witness_OverrideCommandsComplete :
    (∃ (s : State), s.canon = true ∧ s.running .egu = true ∧ s.overridden = false ∧ s.flag Reg.EGU_OVR_STATUS_LOCAL = false) ∧
    (∃ (s : State), s.canon = true) ∧
    (∃ (s : State), s.canon = true ∧ s.flag Reg.EGU_OVR_STATUS_PIN_A = false ∧ s.flag Reg.EGU_OVR_STATUS_PIN_B = false ∧
      s.overridden = true ∧ s.flag Reg.EGU_OVR_STATUS_REMOTE = false ∧ s.egu.forced = false) ∧
    (∃ (s : State) (a : Nat) (b : Nat), s.canon = true ∧ s.egu.remote = some (a, b) ∧ b < s.tick ∧ s.overridden = true ∧ s.flag
      Reg.EGU_OVR_STATUS_LOCAL = false ∧ s.egu.forced = false) ∧
    (∃ (s : State) (r : Requester), s.canon = true ∧ s.mayWrite r 0x07008508 = true) ∧
    (∃ (s : State) (w : Nat), s.canon = true ∧ w < s.tick ∧ s.overridden = false ∧ s.egu.forceNext = some (true, w)) ∧
    (∃ (s : State) (w : Nat), s.canon = true ∧ w < s.tick ∧ s.overridden = true ∧ s.egu.forceNext = some (false, w) ∧ s.flag
      Reg.EGU_OVR_STATUS_LOCAL = false ∧ s.flag Reg.EGU_OVR_STATUS_REMOTE = false) ∧
    (∃ (s : State), s.canon = true ∧ s.flag Reg.EGU_OVR_STATUS_PIN_A ≠ s.flag Reg.EGU_OVR_STATUS_PIN_B ∧ s.egu.disagreeRaised =
      false) ∧
    (∃ (s : State), s.canon = true ∧ s.flag Reg.EGU_OVR_STATUS_PIN_A ≠ s.flag Reg.EGU_OVR_STATUS_PIN_B ∧ s.egu.disagreeRaised =
      true) :=
  ⟨⟨on [], by decide +kernel⟩,
    ⟨on [], by decide +kernel⟩,
    ⟨on [(Reg.EGU_OVR_STATUS_LOCAL, 1), (Reg.EGU_OVR_STATUS_ACTIVE, 1)], by decide +kernel⟩,
    ⟨(onEgu (on [(Reg.EGU_OVR_STATUS_REMOTE, 1), (Reg.EGU_OVR_STATUS_ACTIVE, 1)]) fun x => { x with remote := some (90, 99) }),
      90, 99, by decide +kernel⟩,
    ⟨on [], .pf0, by decide +kernel⟩,
    ⟨(onEgu (on []) fun x => { x with forceNext := some (true, 99) }), 99, by decide +kernel⟩,
    ⟨(onEgu (on [(Reg.EGU_OVR_CTL_FORCE, 1), (Reg.EGU_OVR_STATUS_ACTIVE, 1)]) fun x =>
      { x with forced := true, forceNext := some (false, 99) }), 99, by decide +kernel⟩,
    ⟨on [(Reg.EGU_OVR_STATUS_PIN_A, 1)], by decide +kernel⟩,
    ⟨(onEgu (on [(Reg.EGU_OVR_STATUS_PIN_B, 1)]) fun x => { x with disagreeRaised := true }), by decide +kernel⟩⟩

theorem witness_SidebandCommandsComplete :
    (∃ (s : State) (r : Requester), s.canon = true ∧ s.egu.sideFault = false ∧ s.mayWrite r 0x07008600 = true ∧ s.pairRole =
      false) ∧
    (∃ (s : State), s.canon = true ∧ s.egu.sideFault = true) ∧
    (∃ (s : State) (v : Nat) (at_ : Nat) (rest : List (Nat × Nat)), s.canon = true ∧ s.egu.sidePending = (v, at_) :: rest ∧ at_
      ≤ s.tick ∧ v < 2 ^ 17 ∧ s.tierZero = true) ∧
    (∃ (s : State) (v : Nat) (at_ : Nat) (rest : List (Nat × Nat)), s.canon = true ∧ s.egu.sidePending = (v, at_) :: rest ∧ at_
      ≤ s.tick ∧ v < 2 ^ 17 ∧ s.tierZero = false ∧ s.egu.sideFault = false) ∧
    (∃ (s : State) (v : BitVec 17), s.canon = true ∧ s.powered = true ∧ s.egu.sideA = s.egu.sideB ∧ v.toNat ≠ s.egu.sideA) :=
  ⟨⟨on [], .pf0, by decide +kernel⟩,
    ⟨(onEgu (on []) fun x => { x with sideFault := true }), by decide +kernel⟩,
    ⟨(onEgu (on [(Reg.SUP_BOOT_STATUS_TIER, 0)]) fun x => { x with sidePending := [(131071, 100)] }), 131071, 100, [],
      by decide +kernel⟩,
    ⟨(onEgu (on [(Reg.SUP_BOOT_STATUS_TIER, 1)]) fun x => { x with sidePending := [(131071, 100)] }), 131071, 100, [],
      by decide +kernel⟩,
    ⟨on [], 0x1FFFF, by decide +kernel⟩⟩

theorem witness_GateCommandsComplete :
    (∃ (s : State) (r : Requester) (i : Fin 2048), s.canon = true ∧ s.mayWrite r (0x07004000 + 4 * i.val) = true ∧ s.pairRole =
      false ∧ s.flag Reg.EGU_GATE_CTL_BUSY = false) ∧
    (∃ (s : State) (r : Requester) (i : Fin 2048), s.canon = true ∧ s.mayWrite r (0x07004000 + 4 * i.val) = true ∧ s.pairRole =
      false ∧ s.flag Reg.EGU_GATE_CTL_BUSY = true) ∧
    (∃ (s : State) (r : Requester), s.canon = true ∧ s.mayWrite r 0x07001100 = true ∧ s.pairRole = false ∧ s.flag
      Reg.EGU_GATE_CTL_BUSY = false ∧ ((∀ p, p < 32 → s.gateListOk p = true)) ∧ s.get Reg.EGU_GATE_COMMIT_TICK = 0 ∧ s.tick + 2
      < 2 ^ 48) ∧
    (∃ (s : State) (r : Requester) (p : _), s.canon = true ∧ s.mayWrite r 0x07001100 = true ∧ s.pairRole = false ∧ s.flag
      Reg.EGU_GATE_CTL_BUSY = false ∧ p < 32 ∧ s.gateListOk p = false ∧ ((∀ q, q < p → s.gateListOk q = true))) ∧
    (∃ (s : State) (at_ : Nat), s.canon = true ∧ s.egu.gateTick = some at_ ∧ at_ ≤ s.tick) :=
  ⟨⟨on [], .pf0, 2047, by decide +kernel⟩,
    ⟨on [(Reg.EGU_GATE_CTL_BUSY, 1)], .pf0, 2047, by decide +kernel⟩,
    ⟨on [(⟨gateStaged 0 0, 31, 31⟩, 1), (⟨gateStaged 1 0, 31, 31⟩, 1), (⟨gateStaged 2 0, 31, 31⟩, 1), (⟨gateStaged 3 0, 31, 31⟩,
      1), (⟨gateStaged 4 0, 31, 31⟩, 1), (⟨gateStaged 5 0, 31, 31⟩, 1), (⟨gateStaged 6 0, 31, 31⟩, 1), (⟨gateStaged 7 0, 31,
      31⟩, 1), (⟨gateStaged 8 0, 31, 31⟩, 1), (⟨gateStaged 9 0, 31, 31⟩, 1), (⟨gateStaged 10 0, 31, 31⟩, 1), (⟨gateStaged 11 0,
      31, 31⟩, 1), (⟨gateStaged 12 0, 31, 31⟩, 1), (⟨gateStaged 13 0, 31, 31⟩, 1), (⟨gateStaged 14 0, 31, 31⟩, 1), (⟨gateStaged
      15 0, 31, 31⟩, 1), (⟨gateStaged 16 0, 31, 31⟩, 1), (⟨gateStaged 17 0, 31, 31⟩, 1), (⟨gateStaged 18 0, 31, 31⟩, 1),
      (⟨gateStaged 19 0, 31, 31⟩, 1), (⟨gateStaged 20 0, 31, 31⟩, 1), (⟨gateStaged 21 0, 31, 31⟩, 1), (⟨gateStaged 22 0, 31,
      31⟩, 1), (⟨gateStaged 23 0, 31, 31⟩, 1), (⟨gateStaged 24 0, 31, 31⟩, 1), (⟨gateStaged 25 0, 31, 31⟩, 1), (⟨gateStaged 26
      0, 31, 31⟩, 1), (⟨gateStaged 27 0, 31, 31⟩, 1), (⟨gateStaged 28 0, 31, 31⟩, 1), (⟨gateStaged 29 0, 31, 31⟩, 1),
      (⟨gateStaged 30 0, 31, 31⟩, 1), (⟨gateStaged 31 0, 31, 31⟩, 1)], .pf0, by decide +kernel⟩,
    ⟨on [(⟨gateStaged 31 0, 31, 0⟩, 0x80010000)], .pf0, 31, by decide +kernel⟩,
    ⟨(onEgu (on [(Reg.EGU_GATE_CTL_BUSY, 1), (⟨gateStaged 31 63, 31, 31⟩, 1)]) fun x => { x with gateTick := some 100 }), 100,
      by decide +kernel⟩⟩

theorem witness_ShaperCommandsComplete :
    (∃ (s : State) (r : Requester) (k : Fin 16384) (w : Fin 4) (v : Word) (key : Nat) (u : State), s.canon = true ∧ key =
      0x07200000 + 16 * k.val + 4 * w.val ∧ s.mayWrite r key = true ∧ u = s.settle.writeWord r key v.toNat ∧ u.shaperOwner k =
      some (u.get (Reg.SHAPER_FUNC k)) ∧ u.hierarchyOk k = true) ∧
    (∃ (s : State) (r : Requester) (k : Fin 16384) (w : Fin 4) (v : Word) (key : Nat) (u : State), s.canon = true ∧ key =
      0x07200000 + 16 * k.val + 4 * w.val ∧ s.mayWrite r key = true ∧ u = s.settle.writeWord r key v.toNat ∧ (u.shaperOwner k ≠
      some (u.get (Reg.SHAPER_FUNC k)) ∨ u.hierarchyOk k = false)) ∧
    (∃ (s : State) (r : Requester) (f : Fin 4096) (v : BitVec 64) (key : Nat), s.canon = true ∧ key = 0x07260000 + 8 * f.val ∧
      s.mayWrite r key = true ∧ s.mapEntryOk f v.toNat = true) ∧
    (∃ (s : State) (r : Requester) (f : Fin 4096) (v : BitVec 64) (key : Nat), s.canon = true ∧ key = 0x07260000 + 8 * f.val ∧
      s.mayWrite r key = true ∧ s.mapEntryOk f v.toNat = false) ∧
    (∃ (s : State) (r : Requester) (v : Word) (size : Nat), s.canon = true ∧ s.mayWrite r 0x07001308 = true ∧ size = bits
      v.toNat 24 4 ∧ (size < 4 ∨ 14 < size)) ∧
    (∃ (s : State) (r : Requester) (v : Word) (size : Nat), s.canon = true ∧ s.mayWrite r 0x07001308 = true ∧ size = bits
      v.toNat 24 4 ∧ 4 ≤ size ∧ size ≤ 14 ∧ s.flag Reg.EGU_TELEM_CFG_EN = true) ∧
    (∃ (s : State) (r : Requester) (v : Word) (size : Nat), s.canon = true ∧ s.mayWrite r 0x07001308 = true ∧ size = bits
      v.toNat 24 4 ∧ 4 ≤ size ∧ size ≤ 14 ∧ s.flag Reg.EGU_TELEM_CFG_EN = false ∧ bitAt v.toNat 31 = true) ∧
    (∃ (s : State) (r : Requester) (v : Word) (size : Nat), s.canon = true ∧ s.mayWrite r 0x07001308 = true ∧ size = bits
      v.toNat 24 4 ∧ 4 ≤ size ∧ size ≤ 14 ∧ s.flag Reg.EGU_TELEM_CFG_EN = false ∧ bitAt v.toNat 31 = false) ∧
    (∃ (s : State) (r : Requester) (v : Word) (old : Nat), s.canon = true ∧ s.mayWrite r 0x07001314 = true ∧ old = s.get
      Reg.EGU_TELEM_CONS ∧ (s.egu.consAt ≠ some s.localNs ∨ serialNewer 32 v.toNat old = true)) ∧
    (∃ (s : State) (r : Requester) (v : Word) (old : Nat), s.canon = true ∧ s.mayWrite r 0x07001314 = true ∧ old = s.get
      Reg.EGU_TELEM_CONS ∧ s.egu.consAt = some s.localNs ∧ serialNewer 32 v.toNat old = false) :=
  ⟨⟨on [(shaperOwnerField 16383, 4095), (Reg.SHAPER_FUNC 16383, 4095)], .pf0, 16383, 2, 0xFFFFFF, 119799800, ((on
    [(shaperOwnerField 16383, 4095), (Reg.SHAPER_FUNC 16383, 4095)]).settle.writeWord .pf0 (0x07200000 + 16 * 16383 + 4 * 2)
    0xFFFFFF), by decide +kernel⟩,
    ⟨on [(Reg.SHAPER_EN 16383, 1), (Reg.SHAPER_PARENT_EN 16383, 1)], .pf0, 16383, 2, 0xFFFFFF, 119799800, ((on [(Reg.SHAPER_EN
      16383, 1), (Reg.SHAPER_PARENT_EN 16383, 1)]).settle.writeWord .pf0 (0x07200000 + 16 * 16383 + 4 * 2) 0xFFFFFF),
      by decide +kernel⟩,
    ⟨on [(shaperOwnerField 16383, 4095)], .pf0, 4095, 0xBFFFBFFFFFFFFFFF, 0x07267FF8, by decide +kernel⟩,
    ⟨on [], .pf0, 4095, 0xFFFFFFFFFFFFFFFF, 0x07267FF8, by decide +kernel⟩,
    ⟨on [], .pf0, 0x8F000000, 15, by decide +kernel⟩,
    ⟨on [(Reg.EGU_TELEM_CFG_EN, 1)], .pf0, 0x0E000000, 14, by decide +kernel⟩,
    ⟨on [], .pf0, 0x84000000, 4, by decide +kernel⟩,
    ⟨on [], .pf0, 0x04000000, 4, by decide +kernel⟩,
    ⟨(onEgu (on [(Reg.EGU_TELEM_CONS, 5)]) fun x => { x with consAt := some (on []).localNs }), .pf0, 0x80000004, 5,
      by decide +kernel⟩,
    ⟨(onEgu (on [(Reg.EGU_TELEM_CONS, 5)]) fun x => { x with consAt := some (on []).localNs }), .pf0, 0x80000005, 5,
      by decide +kernel⟩⟩

theorem witness_ProgramCommandsComplete :
    (∃ (s : State) (r : Requester) (k : Fin 32768), s.canon = true ∧ s.mayWrite r Reg.RTU_PROG_CMD_OP.key = true ∧ s.pairRole =
      false ∧ s.progResult k = 0) ∧
    (∃ (s : State) (r : Requester) (k : Fin 32768), s.canon = true ∧ s.mayWrite r Reg.RTU_PROG_CMD_OP.key = true ∧ s.pairRole =
      false ∧ s.progResult k = 2) ∧
    (∃ (s : State) (r : Requester), s.canon = true ∧ s.mayWrite r Reg.RTU_PROG_CMD_OP.key = true) :=
  ⟨⟨on [(⟨0x05001100, 31, 0⟩, 0x00E00000), (⟨0x05001108, 31, 0⟩, 0xFFFFFFDF), (⟨0x0500110C, 31, 0⟩, 0xFF000000)], .pf0, 32767,
    by decide +kernel⟩,
    ⟨on [(Reg.PROG_MEDIA_REFS 32767, 1)], .pf0, 32767, by decide +kernel⟩,
    ⟨on [], .pf0, by decide +kernel⟩⟩

theorem witness_CreditShaperWrites :
    (∃ (s : State) (r : Requester) (i : Fin 256) (v : Word) (others : Nat), s.canon = true ∧ s.mayWrite r (0x07002000 + 4 *
      i.val) = true ∧ others = sumOf ((List.range 8).filter (fun c => 8 * (i.val / 8) + c != i.val)) (fun c => s.get
      (Reg.EGU_CBS_SLOPE_IDLE_SLOPE (8 * (i.val / 8) + c))) ∧ others + v.toNat % 2 ^ 19 ≤ s.portRate (i.val / 8) * 1000) ∧
    (∃ (s : State) (r : Requester) (i : Fin 256) (v : Word) (others : Nat), s.canon = true ∧ s.mayWrite r (0x07002000 + 4 *
      i.val) = true ∧ others = sumOf ((List.range 8).filter (fun c => 8 * (i.val / 8) + c != i.val)) (fun c => s.get
      (Reg.EGU_CBS_SLOPE_IDLE_SLOPE (8 * (i.val / 8) + c))) ∧ s.portRate (i.val / 8) * 1000 < others + v.toNat % 2 ^ 19) ∧
    (∃ (s : State) (r : Requester) (i : Fin 256), s.canon = true ∧ s.mayWrite r (0x07002400 + 4 * i.val) = true) :=
  ⟨⟨on [(Reg.PXC_PORT_CFG_SPEED 31, 6), (Reg.EGU_CBS_SLOPE_IDLE_SLOPE 248, 1)], .pf0, 255, 399999, 1, by decide +kernel⟩,
    ⟨on [(Reg.PXC_PORT_CFG_SPEED 31, 6), (Reg.EGU_CBS_SLOPE_IDLE_SLOPE 248, 1)], .pf0, 255, 400000, 1, by decide +kernel⟩,
    ⟨on [], .pf0, 255, by decide +kernel⟩⟩

theorem witness_KeyCommandsComplete :
    (∃ (s : State) (r : Requester) (len : Nat) (kek : Nat) (func : Nat) (blob : Bytes), s.canon = true ∧ s.mayWrite r
      Reg.CKU_KEY_CMD_OP.key = true ∧ s.running .cku = true ∧ s.pairRole = false ∧ len = s.get Reg.CKU_KEY_ARG_LEN ∧ kek = s.get
      Reg.CKU_KEY_ARG_KEK ∧ func = s.get Reg.CKU_KEY_ARG_FUNC ∧ blob = s.keyBuf len) ∧
    (∃ (s : State) (slot : Fin 65536) (r : Requester) (len : Nat) (kek : Nat) (func : Nat) (blob : Bytes) (k : KeySlot), s.canon
      = true ∧ s.mayWrite r Reg.CKU_KEY_CMD_OP.key = true ∧ s.running .cku = true ∧ s.pairRole = false ∧ len = s.get
      Reg.CKU_KEY_ARG_LEN ∧ kek = s.get Reg.CKU_KEY_ARG_KEK ∧ func = s.get Reg.CKU_KEY_ARG_FUNC ∧ blob = s.keyBuf len ∧
      s.keySlot slot = some k) ∧
    (∃ (s : State) (slot : Fin 65536) (r : Requester) (len : Nat) (kek : Nat) (func : Nat) (blob : Bytes) (k : KeySlot), s.canon
      = true ∧ s.mayWrite r Reg.CKU_KEY_CMD_OP.key = true ∧ s.running .cku = true ∧ s.pairRole = false ∧ len = s.get
      Reg.CKU_KEY_ARG_LEN ∧ kek = s.get Reg.CKU_KEY_ARG_KEK ∧ func = s.get Reg.CKU_KEY_ARG_FUNC ∧ blob = s.keyBuf len ∧
      s.eraseResult slot = 0 ∧ s.keySlot slot = some k) ∧
    (∃ (s : State) (slot : Fin 65536) (k : KeySlot) (at_ : Nat), s.canon = true ∧ s.keySlot slot = some k ∧ k.rewriteTick = some
      at_ ∧ at_ ≤ s.tick) ∧
    (∃ (s : State) (slot : Fin 65536) (k : KeySlot) (at_ : Nat), s.canon = true ∧ s.keySlot slot = some k ∧ k.eraseTick = some
      at_ ∧ at_ ≤ s.tick) ∧
    (∃ (s : State) (slot : Fin 65536), s.canon = true ∧ s.get (Reg.SLOT_STATE slot) = 3) :=
  ⟨⟨(onCku (on [(Reg.CKU_KEY_ARG_LEN, 40), (Reg.CKU_KEY_ARG_KEK, 15), (Reg.CKU_KEY_ARG_FUNC, 4095), (poolLimit 4095 2, 1),
    (⟨0x08001108, 31, 0⟩, 1)]) fun x => { x with keks := [(15, zeros 32)] }), .pf0, 40, 15, 4095, ((onCku (on
    [(Reg.CKU_KEY_ARG_LEN, 40), (Reg.CKU_KEY_ARG_KEK, 15), (Reg.CKU_KEY_ARG_FUNC, 4095), (poolLimit 4095 2, 1), (⟨0x08001108,
    31, 0⟩, 1)]) fun x => { x with keks := [(15, zeros 32)] })).keyBuf 40, by decide +kernel⟩,
    ⟨(onCku (on [(Reg.CKU_KEY_ARG_LEN, 40), (Reg.CKU_KEY_ARG_KEK, 15), (Reg.CKU_KEY_ARG_FUNC, 4095), (poolLimit 4095 2, 1),
      (⟨0x08001108, 31, 0⟩, 1), (Reg.SLOT_STATE 65535, 1), (Reg.SLOT_USAGE 65535, 1), (Reg.SLOT_KEYLEN 65535, 0)]) fun x =>
      { x with keks := [(15, zeros 32)], slots := [(65535, (⟨zeros 32, [], false, none, none, [], [], 0, 0⟩ : KeySlot))] }),
      65535, .pf0, 40, 15, 4095, ((onCku (on [(Reg.CKU_KEY_ARG_LEN, 40), (Reg.CKU_KEY_ARG_KEK, 15), (Reg.CKU_KEY_ARG_FUNC,
      4095), (poolLimit 4095 2, 1), (⟨0x08001108, 31, 0⟩, 1), (Reg.SLOT_STATE 65535, 1), (Reg.SLOT_USAGE 65535, 1),
      (Reg.SLOT_KEYLEN 65535, 0)]) fun x =>
      { x with keks := [(15, zeros 32)], slots := [(65535, (⟨zeros 32, [], false, none, none, [], [], 0, 0⟩ : KeySlot))] })).keyBuf
      40, (⟨zeros 32, [], false, none, none, [], [], 0, 0⟩ : KeySlot), by decide +kernel⟩,
    ⟨(onCku (on [(Reg.CKU_KEY_ARG_LEN, 40), (Reg.CKU_KEY_ARG_KEK, 15), (Reg.CKU_KEY_ARG_FUNC, 4095), (poolLimit 4095 2, 1),
      (⟨0x08001108, 31, 0⟩, 1), (Reg.SLOT_STATE 65535, 1), (Reg.SLOT_USAGE 65535, 1), (Reg.SLOT_KEYLEN 65535, 0)]) fun x =>
      { x with keks := [(15, zeros 32)], slots := [(65535, (⟨zeros 32, [], false, none, none, [], [], 0, 0⟩ : KeySlot))] }),
      65535, .pf0, 40, 15, 4095, ((onCku (on [(Reg.CKU_KEY_ARG_LEN, 40), (Reg.CKU_KEY_ARG_KEK, 15), (Reg.CKU_KEY_ARG_FUNC,
      4095), (poolLimit 4095 2, 1), (⟨0x08001108, 31, 0⟩, 1), (Reg.SLOT_STATE 65535, 1), (Reg.SLOT_USAGE 65535, 1),
      (Reg.SLOT_KEYLEN 65535, 0)]) fun x =>
      { x with keks := [(15, zeros 32)], slots := [(65535, (⟨zeros 32, [], false, none, none, [], [], 0, 0⟩ : KeySlot))] })).keyBuf
      40, (⟨zeros 32, [], false, none, none, [], [], 0, 0⟩ : KeySlot), by decide +kernel⟩,
    ⟨(onCku (on [(Reg.SLOT_STATE 65535, 2), (Reg.SLOT_GEN 65535, 255)]) fun x =>
      { x with slots := [(65535, (⟨zeros 32, zeros 32, false, some 100, none, [], zeros 40, 14, 0⟩ : KeySlot))] }), 65535,
      (⟨zeros 32, zeros 32, false, some 100, none, [], zeros 40, 14, 0⟩ : KeySlot), 100, by decide +kernel⟩,
    ⟨(onCku (on [(Reg.SLOT_STATE 65535, 1)]) fun x =>
      { x with slots := [(65535, (⟨zeros 32, [], false, none, some 100, [], [], 0, 0⟩ : KeySlot))] }), 65535, (⟨zeros 32, [],
      false, none, some 100, [], [], 0, 0⟩ : KeySlot), 100, by decide +kernel⟩,
    ⟨(onCku (on [(Reg.SLOT_STATE 65535, 3), (Reg.SLOT_FUNC 65535, 4095), (poolUsed 4095 2, 1)]) fun x =>
      { x with slots := [(65535, (⟨zeros 32, [], false, none, none, [], [], 0, 0⟩ : KeySlot))] }), 65535, by decide +kernel⟩⟩

theorem witness_AssociationWritesComplete :
    (∃ (s : State) (r : Requester) (sa : Fin 16384), s.canon = true ∧ s.mayWrite r (0x08400000 + 32 * sa.val) = true ∧ s.flag
      (Reg.SA_VALID sa) = false) ∧
    (∃ (s : State) (r : Requester) (v : Word) (sa : Fin 16384), s.canon = true ∧ s.mayWrite r (0x08400000 + 32 * sa.val) = true
      ∧ s.flag (Reg.SA_VALID sa) = false ∧ bitAt v.toNat 31 = true ∧ s.saRefused sa v.toNat = false) ∧
    (∃ (s : State) (r : Requester) (v : Word) (sa : Fin 16384), s.canon = true ∧ s.mayWrite r (0x08400000 + 32 * sa.val) = true
      ∧ s.flag (Reg.SA_VALID sa) = false ∧ bitAt v.toNat 31 = true ∧ s.saRefused sa v.toNat = true) ∧
    (∃ (s : State) (r : Requester) (v : Word) (sa : Fin 16384), s.canon = true ∧ s.mayWrite r (0x08400000 + 32 * sa.val) = true
      ∧ s.flag (Reg.SA_VALID sa) = true ∧ bitAt v.toNat 31 = false) ∧
    (∃ (s : State) (v : Word) (sa : Fin 16384) (w : Fin 8), s.canon = true ∧ s.flag (Reg.SA_VALID sa) = true ∧ ((w.val ≠ 0 ∨
      bitAt v.toNat 31 = true))) ∧
    (∃ (s : State) (r : Requester) (p : Fin 32) (e : Fin 16) (k : Nat), s.canon = true ∧ k = 0x08480000 + 512 * p.val + 32 *
      e.val ∧ s.mayWrite r (k + 8) = true ∧ bitAt (s.rd k) 31 = false) ∧
    (∃ (s : State) (r : Requester) (p : Fin 32) (e : Fin 16) (k : Nat), s.canon = true ∧ k = 0x08480000 + 512 * p.val + 32 *
      e.val ∧ s.mayWrite r (k + 8) = true ∧ bitAt (s.rd k) 31 = true) ∧
    (∃ (s : State) (r : Requester) (p : Fin 32), s.canon = true ∧ s.mayWrite r (Reg.CKU_MSEC_PORT_TX_SA p).key = true ∧ s.flag
      (Reg.UNIT_SEALED 8) = true) :=
  ⟨⟨on [], .pf0, 16383, by decide +kernel⟩,
    ⟨on [(Reg.SA_SPI_SSCI 16383, 16383), (Reg.SLOT_STATE 65535, 1), (Reg.SLOT_USAGE 65535, 2)], .pf0, 0x9000FFFF, 16383,
      by decide +kernel⟩,
    ⟨on [], .pf0, 0xFFFFFFFF, 16383, by decide +kernel⟩,
    ⟨on [(Reg.SA_VALID 16383, 1), (⟨(Reg.SA_VALID 16383).key, 15, 0⟩, 65535)], .pf0, 0x7FFFFFFF, 16383, by decide +kernel⟩,
    ⟨on [(Reg.SA_VALID 16383, 1)], 0x7FFFFFFF, 16383, 7, by decide +kernel⟩,
    ⟨on [], .pf0, 31, 15, 0x08483FE0, by decide +kernel⟩,
    ⟨on [(⟨0x08483FE0, 31, 31⟩, 1)], .pf0, 31, 15, 0x08483FE0, by decide +kernel⟩,
    ⟨on [(Reg.UNIT_SEALED 8, 1)], .pf0, 31, by decide +kernel⟩⟩

theorem witness_LeaseCommandsComplete :
    (∃ (s : State), s.canon = true ∧ s.pairRole = true ∧ s.running .hgc = true ∧ s.timeOk = true ∧ (s.witKey (s.get
      Reg.HGC_CFG_PAIR_ID)).isSome = true ∧ s.get Reg.HGC_WIT_HWM < s.tick ∧ s.flag Reg.HGC_CFG_PINS_EN = true ∧ s.hgc.clkDown =
      false ∧ s.witPaths = []) ∧
    (∃ (s : State) (via : WitVia) (o : Nat) (source : BitVec 48) (msg : Bytes) (m : WitMsg) (k : _), s.canon = true ∧ m =
      witParse msg ∧ (s.moment o).witListens via = true ∧ ((s.moment o).witFresh m).isSome = true ∧ m.target = s.party ∧ s.tick
      + 200 < 2 ^ 48 ∧ m.refTick + 200 < 2 ^ 48 ∧ m.type = 1 ∧ s.hedgeState = 7 ∧ s.timeOk = true ∧ s.senderKnown via source m =
      true ∧ ((m.sender = 1 ∨ m.sender = 2)) ∧ s.witPair m.pair = some k ∧ s.witPaths = [] ∧ WitVia.back source via = none ∧
      m.sender = s.get (witHolder k) ∧ bitAt m.flags 0 = true ∧ m.epoch = s.get (witEpoch k)) ∧
    (∃ (s : State) (via : WitVia) (o : Nat) (source : BitVec 48) (msg : Bytes) (m : WitMsg) (k : _), s.canon = true ∧ m =
      witParse msg ∧ (s.moment o).witListens via = true ∧ ((s.moment o).witFresh m).isSome = true ∧ m.target = s.party ∧ s.tick
      + 200 < 2 ^ 48 ∧ m.refTick + 200 < 2 ^ 48 ∧ m.type = 1 ∧ s.hedgeState = 7 ∧ s.timeOk = true ∧ s.senderKnown via source m =
      true ∧ ((m.sender = 1 ∨ m.sender = 2)) ∧ s.witPair m.pair = some k ∧ s.witPaths = [] ∧ WitVia.back source via = none ∧
      s.get (witHolder k) = 0 ∧ s.flag (witRestart k) = false ∧ bitAt m.flags 1 = true ∧ m.sender = 1) ∧
    (∃ (s : State) (via : WitVia) (o : Nat) (source : BitVec 48) (msg : Bytes) (m : WitMsg) (k : _), s.canon = true ∧ m =
      witParse msg ∧ (s.moment o).witListens via = true ∧ ((s.moment o).witFresh m).isSome = true ∧ m.target = s.party ∧ s.tick
      + 200 < 2 ^ 48 ∧ m.refTick + 200 < 2 ^ 48 ∧ m.type = 4 ∧ s.hedgeState = 7 ∧ s.senderKnown via source m = true ∧ s.witPair
      m.pair = some k ∧ m.sender = s.get (witHolder k) ∧ m.sender ≠ 0) ∧
    (∃ (s : State) (via : WitVia) (o : Nat) (msg : Bytes) (m : WitMsg), s.canon = true ∧ m = witParse msg ∧ (s.moment
      o).witListens via = true ∧ ((s.moment o).witFresh m).isSome = true ∧ m.target = s.party ∧ s.tick + 200 < 2 ^ 48 ∧
      m.refTick + 200 < 2 ^ 48 ∧ m.type = 2 ∧ s.pairRole = true ∧ m.sender = 0 ∧ s.answers m = true ∧ s.active = true) ∧
    (∃ (s : State) (via : WitVia) (o : Nat) (msg : Bytes) (m : WitMsg), s.canon = true ∧ m = witParse msg ∧ (s.moment
      o).witListens via = true ∧ ((s.moment o).witFresh m).isSome = true ∧ m.target = s.party ∧ s.tick + 200 < 2 ^ 48 ∧
      m.refTick + 200 < 2 ^ 48 ∧ m.type = 2 ∧ s.pairRole = true ∧ m.sender = 0 ∧ s.answers m = true ∧ s.hedgeState = 3 ∧ ((∀ c ∈
      s.hgc.heldCauses, c = 4))) ∧
    (∃ (s : State) (via : WitVia) (o : Nat) (msg : Bytes) (m : WitMsg), s.canon = true ∧ m = witParse msg ∧ (s.moment
      o).witListens via = true ∧ ((s.moment o).witFresh m).isSome = true ∧ m.target = s.party ∧ s.tick + 200 < 2 ^ 48 ∧
      m.refTick + 200 < 2 ^ 48 ∧ m.type = 3 ∧ s.pairRole = true ∧ m.sender = 0 ∧ s.answers m = true ∧ s.active = true) ∧
    (∃ (s : State) (via : WitVia) (o : Nat) (msg : Bytes) (m : WitMsg), s.canon = true ∧ m = witParse msg ∧ (s.moment
      o).witListens via = true ∧ ((s.moment o).witFresh m).isSome = true ∧ m.target = s.party ∧ s.tick + 200 < 2 ^ 48 ∧
      m.refTick + 200 < 2 ^ 48 ∧ m.type = 5 ∧ s.pairRole = true ∧ m.sender = 0 ∧ s.active = true ∧ s.egu.tx = [] ∧ s.egu.levels
      = []) ∧
    (∃ (s : State) (via : WitVia) (o : Nat) (source : BitVec 48) (msg : Bytes) (c : Instr), s.canon = true ∧ (s.moment
      o).witListens via = true ∧ c ∈ [Instr.witRequest via o source msg, .witRelease via o source msg, .witGrant via o msg,
      .witDeny via o msg, .witFence via o msg]) ∧
    (∃ (s : State), s.canon = true ∧ s.pairRole = true ∧ s.active = true ∧ s.get Reg.HGC_LEASE_END ≤ s.tick) ∧
    (∃ (s : State), s.canon = true ∧ 3 ≤ s.hgc.unanswered ∧ s.hgc.witLost = false) :=
  ⟨⟨(onHgc (onCku (on [(Reg.HGC_CFG_ROLE, 1), (Reg.HGC_CFG_PAIR_ID, 7), (Reg.HGC_CFG_PARTY, 1), (Reg.HGC_CFG_LEASE_L, 4),
    (Reg.HGC_CFG_PINS_EN, 1), (Reg.HGC_STATE_STATE, 4)]) fun x => { x with keks := [(0, zeros 32)] }) fun x =>
    { x with requests := [(99, 9)] }), by decide +kernel⟩,
    ⟨(onCku (on [(Reg.HGC_STATE_STATE, 7), (Reg.HGC_CFG_PINS_EN, 1), (Reg.HGC_CFG_LEASE_L, 4), (⟨0x090080F0, 15, 0⟩, 7),
      (witHolder 15, 2), (witEpoch 15, 255)]) fun x => { x with keks := [(0, zeros 32)] }), .pins 1 0, 5, 0, [1, 1, 0, 7, 2, 0,
      255, 1, 0, 0, 0, 0, 0, 100, 0, 0, 0, 0, 0, 0, 0, 0, 0, 1, 0, 0, 0, 0, 4, 0, 0, 0, 0, 0, 0, 0, 0, 0, 0, 0, 0, 0, 0, 0, 0,
      0, 0, 0], witParse [1, 1, 0, 7, 2, 0, 255, 1, 0, 0, 0, 0, 0, 100, 0, 0, 0, 0, 0, 0, 0, 0, 0, 1, 0, 0, 0, 0, 4, 0, 0, 0, 0,
      0, 0, 0, 0, 0, 0, 0, 0, 0, 0, 0, 0, 0, 0, 0], 15, by decide +kernel⟩,
    ⟨(onCku (on [(Reg.HGC_STATE_STATE, 7), (Reg.HGC_CFG_PINS_EN, 1), (Reg.HGC_CFG_LEASE_L, 4), (⟨0x090080F0, 15, 0⟩, 7)]) fun x
      => { x with keks := [(0, zeros 32)] }), .pins 0 0, 5, 0, [1, 1, 0, 7, 1, 0, 0, 2, 0, 0, 0, 0, 0, 100, 0, 0, 0, 0, 0, 0, 0,
      0, 0, 1, 0, 0, 0, 0, 4, 0, 0, 0, 0, 0, 0, 0, 0, 0, 0, 0, 0, 0, 0, 0, 0, 0, 0, 0], witParse [1, 1, 0, 7, 1, 0, 0, 2, 0, 0,
      0, 0, 0, 100, 0, 0, 0, 0, 0, 0, 0, 0, 0, 1, 0, 0, 0, 0, 4, 0, 0, 0, 0, 0, 0, 0, 0, 0, 0, 0, 0, 0, 0, 0, 0, 0, 0, 0], 15,
      by decide +kernel⟩,
    ⟨(onCku (on [(Reg.HGC_STATE_STATE, 7), (Reg.HGC_CFG_PINS_EN, 1), (Reg.HGC_CFG_LEASE_L, 4), (⟨0x090080F0, 15, 0⟩, 7),
      (witHolder 15, 1)]) fun x => { x with keks := [(0, zeros 32)] }), .pins 0 0, 5, 0, [1, 4, 0, 7, 1, 0, 0, 0, 0, 0, 0, 0, 0,
      100, 0, 0, 0, 0, 0, 0, 0, 0, 0, 1, 0, 0, 0, 0, 4, 0, 0, 0, 0, 0, 0, 0, 0, 0, 0, 0, 0, 0, 0, 0, 0, 0, 0, 0], witParse [1,
      4, 0, 7, 1, 0, 0, 0, 0, 0, 0, 0, 0, 100, 0, 0, 0, 0, 0, 0, 0, 0, 0, 1, 0, 0, 0, 0, 4, 0, 0, 0, 0, 0, 0, 0, 0, 0, 0, 0, 0,
      0, 0, 0, 0, 0, 0, 0], 15, by decide +kernel⟩,
    ⟨(onHgc (onCku (on [(Reg.HGC_CFG_ROLE, 1), (Reg.HGC_CFG_PAIR_ID, 7), (Reg.HGC_CFG_PARTY, 1), (Reg.HGC_CFG_LEASE_L, 4),
      (Reg.HGC_CFG_PINS_EN, 1), (Reg.HGC_STATE_STATE, 4)]) fun x => { x with keks := [(0, zeros 32)] }) fun x =>
      { x with requests := [(99, 9)] }), .pins 0 0, 5, [1, 2, 0, 7, 0, 1, 0, 0, 0, 0, 0, 0, 0, 100, 0, 0, 0, 0, 0, 99, 0, 0, 0,
      1, 0, 0, 0, 9, 4, 0, 0, 0, 0, 0, 0, 0, 0, 0, 0, 0, 0, 0, 0, 0, 0, 0, 0, 0], witParse [1, 2, 0, 7, 0, 1, 0, 0, 0, 0, 0, 0,
      0, 100, 0, 0, 0, 0, 0, 99, 0, 0, 0, 1, 0, 0, 0, 9, 4, 0, 0, 0, 0, 0, 0, 0, 0, 0, 0, 0, 0, 0, 0, 0, 0, 0, 0, 0],
      by decide +kernel⟩,
    ⟨(onHgc (onCku (on [(Reg.HGC_CFG_ROLE, 1), (Reg.HGC_CFG_PAIR_ID, 7), (Reg.HGC_CFG_PARTY, 1), (Reg.HGC_CFG_LEASE_L, 4),
      (Reg.HGC_CFG_PINS_EN, 1), (Reg.HGC_STATE_STATE, 3)]) fun x => { x with keks := [(0, zeros 32)] }) fun x =>
      { x with requests := [(99, 9)] }), .pins 0 0, 5, [1, 2, 0, 7, 0, 1, 255, 0, 0, 0, 0, 0, 0, 100, 0, 0, 0, 0, 0, 99, 0, 0,
      0, 1, 0, 0, 0, 9, 4, 0, 0, 0, 0, 0, 0, 0, 0, 0, 0, 0, 0, 0, 0, 0, 0, 0, 0, 0], witParse [1, 2, 0, 7, 0, 1, 255, 0, 0, 0,
      0, 0, 0, 100, 0, 0, 0, 0, 0, 99, 0, 0, 0, 1, 0, 0, 0, 9, 4, 0, 0, 0, 0, 0, 0, 0, 0, 0, 0, 0, 0, 0, 0, 0, 0, 0, 0, 0],
      by decide +kernel⟩,
    ⟨(onHgc (onCku (on [(Reg.HGC_CFG_ROLE, 1), (Reg.HGC_CFG_PAIR_ID, 7), (Reg.HGC_CFG_PARTY, 1), (Reg.HGC_CFG_LEASE_L, 4),
      (Reg.HGC_CFG_PINS_EN, 1), (Reg.HGC_STATE_STATE, 4)]) fun x => { x with keks := [(0, zeros 32)] }) fun x =>
      { x with requests := [(99, 9)] }), .pins 0 0, 5, [1, 3, 0, 7, 0, 1, 0, 0, 0, 0, 0, 0, 0, 100, 0, 0, 0, 0, 0, 99, 0, 0, 0,
      1, 0, 0, 0, 9, 4, 0, 0, 0, 0, 0, 0, 0, 0, 0, 0, 0, 0, 0, 0, 0, 0, 0, 0, 0], witParse [1, 3, 0, 7, 0, 1, 0, 0, 0, 0, 0, 0,
      0, 100, 0, 0, 0, 0, 0, 99, 0, 0, 0, 1, 0, 0, 0, 9, 4, 0, 0, 0, 0, 0, 0, 0, 0, 0, 0, 0, 0, 0, 0, 0, 0, 0, 0, 0],
      by decide +kernel⟩,
    ⟨(onHgc (onCku (on [(Reg.HGC_CFG_ROLE, 1), (Reg.HGC_CFG_PAIR_ID, 7), (Reg.HGC_CFG_PARTY, 1), (Reg.HGC_CFG_LEASE_L, 4),
      (Reg.HGC_CFG_PINS_EN, 1), (Reg.HGC_STATE_STATE, 4)]) fun x => { x with keks := [(0, zeros 32)] }) fun x =>
      { x with requests := [(99, 9)] }), .pins 0 0, 5, [1, 5, 0, 7, 0, 1, 0, 0, 0, 0, 0, 0, 0, 100, 0, 0, 0, 0, 0, 0, 0, 0, 0,
      1, 0, 0, 0, 0, 4, 0, 0, 0, 0, 0, 0, 0, 0, 0, 0, 0, 0, 0, 0, 0, 0, 0, 0, 0], witParse [1, 5, 0, 7, 0, 1, 0, 0, 0, 0, 0, 0,
      0, 100, 0, 0, 0, 0, 0, 0, 0, 0, 0, 1, 0, 0, 0, 0, 4, 0, 0, 0, 0, 0, 0, 0, 0, 0, 0, 0, 0, 0, 0, 0, 0, 0, 0, 0],
      by decide +kernel⟩,
    ⟨(onHgc (onCku (on [(Reg.HGC_CFG_ROLE, 1), (Reg.HGC_CFG_PAIR_ID, 7), (Reg.HGC_CFG_PARTY, 1), (Reg.HGC_CFG_LEASE_L, 4),
      (Reg.HGC_CFG_PINS_EN, 1), (Reg.HGC_STATE_STATE, 4)]) fun x => { x with keks := [(0, zeros 32)] }) fun x =>
      { x with requests := [(99, 9)] }), .pins 0 0, 5, 0, [1, 5, 0, 7, 0, 1, 0, 0, 0, 0, 0, 0, 0, 100, 0, 0, 0, 0, 0, 0, 0, 0,
      0, 1, 0, 0, 0, 0, 4, 0, 0, 0, 0, 0, 0, 0, 0, 0, 0, 0, 0, 0, 0, 0, 0, 0, 0, 0], .witFence (.pins 0 0) 5 [1, 5, 0, 7, 0, 1,
      0, 0, 0, 0, 0, 0, 0, 100, 0, 0, 0, 0, 0, 0, 0, 0, 0, 1, 0, 0, 0, 0, 4, 0, 0, 0, 0, 0, 0, 0, 0, 0, 0, 0, 0, 0, 0, 0, 0, 0,
      0, 0], by decide +kernel⟩,
    ⟨(onHgc (onCku (on [(Reg.HGC_CFG_ROLE, 1), (Reg.HGC_CFG_PAIR_ID, 7), (Reg.HGC_CFG_PARTY, 1), (Reg.HGC_CFG_LEASE_L, 4),
      (Reg.HGC_CFG_PINS_EN, 1), (Reg.HGC_STATE_STATE, 4), (Reg.HGC_LEASE_END, 100)]) fun x =>
      { x with keks := [(0, zeros 32)] }) fun x => { x with requests := [(99, 9)] }), by decide +kernel⟩,
    ⟨(onHgc (on []) fun x => { x with unanswered := 3 }), by decide +kernel⟩⟩

theorem witness_FenceCommandsComplete :
    (∃ (s : State), s.canon = true ∧ s.pairRole = true ∧ s.active = true ∧ s.egu.tx = [] ∧ s.egu.levels = []) ∧
    (∃ (s : State), s.canon = true) ∧
    (∃ (s : State) (r : Requester), s.canon = true ∧ s.mayWrite r 0x09001070 = true ∧ s.pairRole = true ∧ s.active = true ∧
      s.flag Reg.HGC_CTL_FENCE = false) ∧
    (∃ (s : State) (r : Requester), s.canon = true ∧ s.mayWrite r 0x09001070 = true) ∧
    (∃ (s : State) (r : Requester), s.canon = true ∧ s.mayWrite r 0x09001070 = true ∧ s.pairRole = true ∧ s.active = true) ∧
    (∃ (s : State) (r : Requester), s.canon = true ∧ s.mayWrite r 0x09001070 = true) ∧
    (∃ (s : State) (r : Requester), s.canon = true ∧ s.mayWrite r 0x09001070 = true) ∧
    (∃ (s : State), s.canon = true ∧ s.pairRole = true ∧ s.active = true ∧ s.flag Reg.HGC_CTL_RELEASE = true ∧ s.witPaths = [])
      ∧
    (∃ (s : State), s.canon = true) ∧
    (∃ (s : State) (first : Nat) (k : Nat), s.canon = true ∧ s.hgc.replay = some (first, k) ∧ s.active = true ∧ k < s.tick ∧
      first + (s.tick - k) ≤ k ∧ 0x9E0 ∉ s.once) :=
  ⟨⟨(onHgc (onCku (on [(Reg.HGC_CFG_ROLE, 1), (Reg.HGC_CFG_PAIR_ID, 7), (Reg.HGC_CFG_PARTY, 1), (Reg.HGC_CFG_LEASE_L, 4),
    (Reg.HGC_CFG_PINS_EN, 1), (Reg.HGC_STATE_STATE, 4)]) fun x => { x with keks := [(0, zeros 32)] }) fun x =>
    { x with requests := [(99, 9)] }), by decide +kernel⟩,
    ⟨(onHgc (onCku (on [(Reg.HGC_CFG_ROLE, 1), (Reg.HGC_CFG_PAIR_ID, 7), (Reg.HGC_CFG_PARTY, 1), (Reg.HGC_CFG_LEASE_L, 4),
      (Reg.HGC_CFG_PINS_EN, 1), (Reg.HGC_STATE_STATE, 5)]) fun x => { x with keks := [(0, zeros 32)] }) fun x =>
      { x with requests := [(99, 9)], heldCauses := [3, 5] }), by decide +kernel⟩,
    ⟨(onHgc (onCku (on [(Reg.HGC_CFG_ROLE, 1), (Reg.HGC_CFG_PAIR_ID, 7), (Reg.HGC_CFG_PARTY, 1), (Reg.HGC_CFG_LEASE_L, 4),
      (Reg.HGC_CFG_PINS_EN, 1), (Reg.HGC_STATE_STATE, 4)]) fun x => { x with keks := [(0, zeros 32)] }) fun x =>
      { x with requests := [(99, 9)] }), .pf0, by decide +kernel⟩,
    ⟨(onHgc (onCku (on [(Reg.HGC_CFG_ROLE, 1), (Reg.HGC_CFG_PAIR_ID, 7), (Reg.HGC_CFG_PARTY, 1), (Reg.HGC_CFG_LEASE_L, 4),
      (Reg.HGC_CFG_PINS_EN, 1), (Reg.HGC_STATE_STATE, 4)]) fun x => { x with keks := [(0, zeros 32)] }) fun x =>
      { x with requests := [(99, 9)] }), .pf0, by decide +kernel⟩,
    ⟨(onHgc (onCku (on [(Reg.HGC_CFG_ROLE, 1), (Reg.HGC_CFG_PAIR_ID, 7), (Reg.HGC_CFG_PARTY, 1), (Reg.HGC_CFG_LEASE_L, 4),
      (Reg.HGC_CFG_PINS_EN, 1), (Reg.HGC_STATE_STATE, 4)]) fun x => { x with keks := [(0, zeros 32)] }) fun x =>
      { x with requests := [(99, 9)] }), .pf0, by decide +kernel⟩,
    ⟨(onHgc (onCku (on [(Reg.HGC_CFG_ROLE, 1), (Reg.HGC_CFG_PAIR_ID, 7), (Reg.HGC_CFG_PARTY, 1), (Reg.HGC_CFG_LEASE_L, 4),
      (Reg.HGC_CFG_PINS_EN, 1), (Reg.HGC_STATE_STATE, 3)]) fun x => { x with keks := [(0, zeros 32)] }) fun x =>
      { x with requests := [(99, 9)] }), .pf0, by decide +kernel⟩,
    ⟨(onHgc (onCku (on [(Reg.HGC_CFG_ROLE, 1), (Reg.HGC_CFG_PAIR_ID, 7), (Reg.HGC_CFG_PARTY, 1), (Reg.HGC_CFG_LEASE_L, 4),
      (Reg.HGC_CFG_PINS_EN, 1), (Reg.HGC_STATE_STATE, 3)]) fun x => { x with keks := [(0, zeros 32)] }) fun x =>
      { x with requests := [(99, 9)] }), .pf0, by decide +kernel⟩,
    ⟨(onHgc (onCku (on [(Reg.HGC_CFG_ROLE, 1), (Reg.HGC_CFG_PAIR_ID, 7), (Reg.HGC_CFG_PARTY, 1), (Reg.HGC_CFG_LEASE_L, 4),
      (Reg.HGC_CFG_PINS_EN, 1), (Reg.HGC_STATE_STATE, 4), (Reg.HGC_CTL_RELEASE, 1)]) fun x =>
      { x with keks := [(0, zeros 32)] }) fun x => { x with requests := [(99, 9)] }), by decide +kernel⟩,
    ⟨on [(Reg.HGC_STATE_STATE, 7), (Reg.HGC_CFG_PINS_EN, 1), (Reg.HGC_CFG_LEASE_L, 4), (⟨0x090080F0, 15, 0⟩, 7), (witRestart 15,
      1)], by decide +kernel⟩,
    ⟨(onHgc (onCku (on [(Reg.HGC_CFG_ROLE, 1), (Reg.HGC_CFG_PAIR_ID, 7), (Reg.HGC_CFG_PARTY, 1), (Reg.HGC_CFG_LEASE_L, 4),
      (Reg.HGC_CFG_PINS_EN, 1), (Reg.HGC_STATE_STATE, 4)]) fun x => { x with keks := [(0, zeros 32)] }) fun x =>
      { x with requests := [(99, 9)], replay := some (90, 98) }), 90, 98, by decide +kernel⟩⟩

theorem witness_HedgeLinkCommandsComplete :
    (∃ (s : State), s.canon = true ∧ s.pairRole = true ∧ s.running .hgc = true) ∧
    (∃ (s : State) (a : Fin 256) (b : Fin 256) (h : BitVec 384) (m : HelloMsg), s.canon = true ∧ s.pairRole = true ∧ s.running
      .hgc = true ∧ s.flag Reg.HGC_STATE_LINK_UP = true ∧ a.val ≤ min b.val s.hgc.verMax ∧ s.hgc.verMin ≤ min b.val s.hgc.verMax
      ∧ h.toNat = s.hgc.showHash ∧ m.pairId = s.get Reg.HGC_CFG_PAIR_ID ∧ m.selfId = s.get Reg.HGC_PARTNER_ID ∧ ((m.party = 1 ∨
      m.party = 2)) ∧ m.party ≠ s.get Reg.HGC_CFG_PARTY ∧ s.get Reg.HGC_SELF_ID = s.sup.otpMac) ∧
    (∃ (s : State) (a : Fin 256) (b : Fin 256) (h : BitVec 384) (m : HelloMsg) (vers : Bool) (declared : Bool) (reason : Nat),
      s.canon = true ∧ s.pairRole = true ∧ s.running .hgc = true ∧ s.flag Reg.HGC_STATE_LINK_UP = true ∧ vers = decide (a.val ≤
      min b.val s.hgc.verMax ∧ s.hgc.verMin ≤ min b.val s.hgc.verMax) ∧ (declared = decide (m.pairId = s.get Reg.HGC_CFG_PAIR_ID
      ∧ m.selfId = s.get Reg.HGC_PARTNER_ID ∧ (m.party = 1 ∨ m.party = 2) ∧ s.get Reg.HGC_SELF_ID = s.sup.otpMac)) ∧ ((vers =
      false ∧ reason = 0) ∨ (vers = true ∧ h.toNat ≠ s.hgc.showHash ∧ reason = 1) ∨ (vers = true ∧ h.toNat = s.hgc.showHash ∧
      declared = false ∧ reason = 2) ∨ (vers = true ∧ h.toNat = s.hgc.showHash ∧ declared = true ∧ m.party = s.get
      Reg.HGC_CFG_PARTY ∧ reason = 3)) ∧ s.active = false ∧ s.te.books = [] ∧ ((s.hedgeState = 5 → s.hgc.heldCauses = []))) ∧
    (∃ (s : State), s.canon = true ∧ s.pairRole = true ∧ s.running .hgc = true ∧ s.flag Reg.HGC_STATE_LINK_UP = true ∧
      ((s.hedgeState = 2 → s.hgc.heldCauses = [] ∧ s.te.books = []))) ∧
    (∃ (s : State) (c : Nat) (rest : List Nat), s.canon = true ∧ s.pairRole = true ∧ s.running .hgc = true ∧ s.flag
      Reg.HGC_STATE_LINK_UP = true ∧ s.hedgeState = 2 ∧ s.hgc.heldCauses = c :: rest ∧ heldCause c = true) ∧
    (∃ (s : State) (m : HeartbeatMsg), s.canon = true ∧ s.pairRole = true ∧ s.running .hgc = true ∧ s.flag Reg.HGC_STATE_LINK_UP
      = true ∧ s.hedgeState = 3 ∧ m.state = 4 ∧ m.epoch < 256 ∧ m.lastTx < 2 ^ 48 ∧ m.digests = [] ∧ ((∀ d ∈ s.hgc.digests,
      d.tick ≠ m.tick))) ∧
    (∃ (s : State) (m : HeartbeatMsg) (d : Digest) (x : DigestRec), s.canon = true ∧ s.pairRole = true ∧ s.running .hgc = true ∧
      s.flag Reg.HGC_STATE_LINK_UP = true ∧ s.hedgeState = 3 ∧ m.state = 4 ∧ m.digests = [x] ∧ s.hgc.digests = [d] ∧ d.tick =
      m.tick ∧ d.flow = x.flow ∧ d.heldIn = false ∧ s.egu.ovrEdges.contains m.tick = false ∧ d.notSent = false ∧ x.heldIn =
      false ∧ x.edge = false ∧ x.notSent = false ∧ d.crc ^^^ 0xFFFFFFFF = x.crc) ∧
    (∃ (s : State) (m : HeartbeatMsg) (d : Digest) (x : DigestRec), s.canon = true ∧ s.pairRole = true ∧ s.running .hgc = true ∧
      s.flag Reg.HGC_STATE_LINK_UP = true ∧ s.hedgeState = 3 ∧ m.state = 4 ∧ m.digests = [x] ∧ s.hgc.digests = [d] ∧ d.tick =
      m.tick ∧ d.flow = x.flow ∧ d.heldIn = false ∧ s.egu.ovrEdges.contains m.tick = false ∧ d.notSent = false ∧ x.heldIn =
      false ∧ x.edge = false ∧ x.notSent = false ∧ d.crc ^^^ 0xFFFFFFFF ≠ x.crc) ∧
    (∃ (s : State) (m : HeartbeatMsg), s.canon = true ∧ s.pairRole = true ∧ s.running .hgc = true ∧ s.flag Reg.HGC_STATE_LINK_UP
      = true ∧ s.active = true ∧ m.state = 4 ∧ serialNewer 8 m.epoch (s.get Reg.HGC_STATE_EPOCH) = true) ∧
    (∃ (s : State) (q : Word) (at_ : Fin 281474976710656) (k : Nat), s.canon = true ∧ s.pairRole = true ∧ s.running .hgc = true
      ∧ s.active = false ∧ s.hgc.layer ≠ some 0 ∧ ((at_.val = 0 ∨ s.tick < at_.val)) ∧ q.toNat = (s.get Reg.HGC_CMD_SEQ + 1) % 2
      ^ 32 ∧ Assoc.get? s.hgc.items k = none ∧ 0x12000000 ≤ k ∧ k < 0x12800000) ∧
    (∃ (s : State) (q : Word) (at_ : Fin 281474976710656) (k : Nat), s.canon = true ∧ s.pairRole = true ∧ s.running .hgc = true
      ∧ s.active = false ∧ s.hgc.layer ≠ some 0 ∧ ((at_.val = 0 ∨ s.tick < at_.val)) ∧ q.toNat = (s.get Reg.HGC_CMD_SEQ + 1) % 2
      ^ 32 ∧ ((∀ x ∈ s.hgc.itemSeqs, x.1 ≠ .limit k))) ∧
    (∃ (s : State), s.canon = true ∧ s.pairRole = true ∧ s.running .hgc = true ∧ s.hedgeState = 3) ∧
    (∃ (s : State), s.canon = true ∧ s.pairRole = true ∧ s.running .hgc = true) ∧
    (∃ (s : State), s.canon = true ∧ s.pairRole = true ∧ s.running .hgc = true) :=
  ⟨⟨(onHgc (onCku (on [(Reg.HGC_CFG_ROLE, 1), (Reg.HGC_CFG_PAIR_ID, 7), (Reg.HGC_CFG_PARTY, 1), (Reg.HGC_CFG_LEASE_L, 4),
    (Reg.HGC_CFG_PINS_EN, 1), (Reg.HGC_STATE_STATE, 1)]) fun x => { x with keks := [(0, zeros 32)] }) fun x =>
    { x with requests := [(99, 9)], verMin := 1, verMax := 4, showHash := 9 }), by decide +kernel⟩,
    ⟨(onSup ((onHgc (onCku (on [(Reg.HGC_CFG_ROLE, 1), (Reg.HGC_CFG_PAIR_ID, 7), (Reg.HGC_CFG_PARTY, 1), (Reg.HGC_CFG_LEASE_L,
      4), (Reg.HGC_CFG_PINS_EN, 1), (Reg.HGC_STATE_STATE, 1), (Reg.HGC_STATE_LINK_UP, 1), (Reg.HGC_PARTNER_ID, 0x5),
      (Reg.HGC_SELF_ID, 0xFFFFFFFFFFFF)]) fun x => { x with keks := [(0, zeros 32)] }) fun x =>
      { x with requests := [(99, 9)], verMin := 1, verMax := 4, showHash := 9 })) fun x => { x with otpMac := 0xFFFFFFFFFFFF }),
      3, 255, 9, (⟨7, 0x5, 2, 1, 0⟩ : HelloMsg), by decide +kernel⟩,
    ⟨(onHgc (onCku (on [(Reg.HGC_CFG_ROLE, 1), (Reg.HGC_CFG_PAIR_ID, 7), (Reg.HGC_CFG_PARTY, 1), (Reg.HGC_CFG_LEASE_L, 4),
      (Reg.HGC_CFG_PINS_EN, 1), (Reg.HGC_STATE_STATE, 1), (Reg.HGC_STATE_LINK_UP, 1)]) fun x =>
      { x with keks := [(0, zeros 32)] }) fun x => { x with requests := [(99, 9)], verMin := 1, verMax := 4, showHash := 9 }),
      0, 255, 9, (⟨8, 0x5, 2, 1, 0⟩ : HelloMsg), true, false, 2, by decide +kernel⟩,
    ⟨(onHgc (onCku (on [(Reg.HGC_CFG_ROLE, 1), (Reg.HGC_CFG_PAIR_ID, 7), (Reg.HGC_CFG_PARTY, 1), (Reg.HGC_CFG_LEASE_L, 4),
      (Reg.HGC_CFG_PINS_EN, 1), (Reg.HGC_STATE_STATE, 3), (Reg.HGC_STATE_LINK_UP, 1)]) fun x =>
      { x with keks := [(0, zeros 32)] }) fun x => { x with requests := [(99, 9)] }), by decide +kernel⟩,
    ⟨(onHgc (onCku (on [(Reg.HGC_CFG_ROLE, 1), (Reg.HGC_CFG_PAIR_ID, 7), (Reg.HGC_CFG_PARTY, 1), (Reg.HGC_CFG_LEASE_L, 4),
      (Reg.HGC_CFG_PINS_EN, 1), (Reg.HGC_STATE_STATE, 2), (Reg.HGC_STATE_LINK_UP, 1)]) fun x =>
      { x with keks := [(0, zeros 32)] }) fun x => { x with requests := [(99, 9)], heldCauses := [3, 5] }), 3, [5],
      by decide +kernel⟩,
    ⟨(onHgc (onCku (on [(Reg.HGC_CFG_ROLE, 1), (Reg.HGC_CFG_PAIR_ID, 7), (Reg.HGC_CFG_PARTY, 1), (Reg.HGC_CFG_LEASE_L, 4),
      (Reg.HGC_CFG_PINS_EN, 1), (Reg.HGC_STATE_STATE, 3), (Reg.HGC_STATE_LINK_UP, 1)]) fun x =>
      { x with keks := [(0, zeros 32)] }) fun x => { x with requests := [(99, 9)] }), (⟨4, 0, 98, 0, 99, [], []⟩ :
      HeartbeatMsg), by decide +kernel⟩,
    ⟨(onHgc (onCku (on [(Reg.HGC_CFG_ROLE, 1), (Reg.HGC_CFG_PAIR_ID, 7), (Reg.HGC_CFG_PARTY, 1), (Reg.HGC_CFG_LEASE_L, 4),
      (Reg.HGC_CFG_PINS_EN, 1), (Reg.HGC_STATE_STATE, 3), (Reg.HGC_STATE_LINK_UP, 1)]) fun x =>
      { x with keks := [(0, zeros 32)] }) fun x =>
      { x with requests := [(99, 9)], digests := [(⟨9, 99, false, false, false, 0⟩ : Digest)] }), (⟨4, 0, 98, 0, 99, [(⟨9,
      false, false, false, 0xFFFFFFFF⟩ : DigestRec)], []⟩ : HeartbeatMsg), (⟨9, 99, false, false, false, 0⟩ : Digest), (⟨9,
      false, false, false, 0xFFFFFFFF⟩ : DigestRec), by decide +kernel⟩,
    ⟨(onHgc (onCku (on [(Reg.HGC_CFG_ROLE, 1), (Reg.HGC_CFG_PAIR_ID, 7), (Reg.HGC_CFG_PARTY, 1), (Reg.HGC_CFG_LEASE_L, 4),
      (Reg.HGC_CFG_PINS_EN, 1), (Reg.HGC_STATE_STATE, 3), (Reg.HGC_STATE_LINK_UP, 1)]) fun x =>
      { x with keks := [(0, zeros 32)] }) fun x =>
      { x with requests := [(99, 9)], digests := [(⟨9, 99, false, false, false, 0⟩ : Digest)] }), (⟨4, 0, 98, 0, 99, [(⟨9,
      false, false, false, 0⟩ : DigestRec)], []⟩ : HeartbeatMsg), (⟨9, 99, false, false, false, 0⟩ : Digest), (⟨9, false, false,
      false, 0⟩ : DigestRec), by decide +kernel⟩,
    ⟨(onHgc (onCku (on [(Reg.HGC_CFG_ROLE, 1), (Reg.HGC_CFG_PAIR_ID, 7), (Reg.HGC_CFG_PARTY, 1), (Reg.HGC_CFG_LEASE_L, 4),
      (Reg.HGC_CFG_PINS_EN, 1), (Reg.HGC_STATE_STATE, 4), (Reg.HGC_STATE_LINK_UP, 1)]) fun x =>
      { x with keks := [(0, zeros 32)] }) fun x => { x with requests := [(99, 9)] }), (⟨4, 127, 98, 0, 99, [], []⟩ :
      HeartbeatMsg), by decide +kernel⟩,
    ⟨(onHgc (onCku (on [(Reg.HGC_CFG_ROLE, 1), (Reg.HGC_CFG_PAIR_ID, 7), (Reg.HGC_CFG_PARTY, 1), (Reg.HGC_CFG_LEASE_L, 4),
      (Reg.HGC_CFG_PINS_EN, 1), (Reg.HGC_STATE_STATE, 3), (Reg.HGC_CMD_SEQ, 0xFFFFFFFF)]) fun x =>
      { x with keks := [(0, zeros 32)] }) fun x => { x with requests := [(99, 9)] }), 0, 101, 0x127FFFFC, by decide +kernel⟩,
    ⟨(onHgc (onCku (on [(Reg.HGC_CFG_ROLE, 1), (Reg.HGC_CFG_PAIR_ID, 7), (Reg.HGC_CFG_PARTY, 1), (Reg.HGC_CFG_LEASE_L, 4),
      (Reg.HGC_CFG_PINS_EN, 1), (Reg.HGC_STATE_STATE, 3)]) fun x => { x with keks := [(0, zeros 32)] }) fun x =>
      { x with requests := [(99, 9)] }), 1, 0, (limitField 63 0).key, by decide +kernel⟩,
    ⟨(onHgc (onCku (on [(Reg.HGC_CFG_ROLE, 1), (Reg.HGC_CFG_PAIR_ID, 7), (Reg.HGC_CFG_PARTY, 1), (Reg.HGC_CFG_LEASE_L, 4),
      (Reg.HGC_CFG_PINS_EN, 1), (Reg.HGC_STATE_STATE, 3)]) fun x => { x with keks := [(0, zeros 32)] }) fun x =>
      { x with requests := [(99, 9)] }), by decide +kernel⟩,
    ⟨(onHgc (onCku (on [(Reg.HGC_CFG_ROLE, 1), (Reg.HGC_CFG_PAIR_ID, 7), (Reg.HGC_CFG_PARTY, 1), (Reg.HGC_CFG_LEASE_L, 4),
      (Reg.HGC_CFG_PINS_EN, 1), (Reg.HGC_STATE_STATE, 3)]) fun x => { x with keks := [(0, zeros 32)] }) fun x =>
      { x with requests := [(99, 9)] }), by decide +kernel⟩,
    ⟨(onHgc (onCku (on [(Reg.HGC_CFG_ROLE, 1), (Reg.HGC_CFG_PAIR_ID, 7), (Reg.HGC_CFG_PARTY, 1), (Reg.HGC_CFG_LEASE_L, 4),
      (Reg.HGC_CFG_PINS_EN, 1), (Reg.HGC_STATE_STATE, 3)]) fun x => { x with keks := [(0, zeros 32)] }) fun x =>
      { x with requests := [(99, 9)] }), by decide +kernel⟩⟩

theorem witness_LayeringCommandsComplete :
    (∃ (s : State), s.canon = true ∧ s.mayLayer = true ∧ s.te.books = []) ∧
    (∃ (s : State) (m : BulkMsg), s.canon = true ∧ s.hgc.layer = some 0 ∧ m.seq < 2 ^ 32 ∧ m.epoch < 256) ∧
    (∃ (s : State), s.canon = true ∧ s.active = false ∧ s.hgc.layer = some 1) ∧
    (∃ (s : State), s.canon = true ∧ s.pairRole = true ∧ s.running .hgc = true ∧ s.active = true) ∧
    (∃ (s : State), s.canon = true ∧ s.pairRole = true ∧ s.running .hgc = true ∧ s.hedgeState = 2 ∧ s.hgc.layer = some 2 ∧
      s.hgc.badKeys = [] ∧ s.hgc.settleTick + s.settleTicks ≤ s.tick ∧ s.hgc.heldCauses = []) ∧
    (∃ (s : State) (c : Nat) (rest : List Nat), s.canon = true ∧ s.pairRole = true ∧ s.running .hgc = true ∧ s.active = false ∧
      s.hgc.layer = some 2 ∧ s.hgc.badKeys = [] ∧ s.hgc.settleTick + s.settleTicks ≤ s.tick ∧ s.hgc.heldCauses = c :: rest ∧
      heldCause c = true) ∧
    (∃ (s : State), s.canon = true ∧ s.running .hgc = true ∧ s.admittedFlows = [] ∧ s.admittedPoints = []) :=
  ⟨⟨(onHgc ((onHgc (onCku (on [(Reg.HGC_CFG_ROLE, 1), (Reg.HGC_CFG_PAIR_ID, 7), (Reg.HGC_CFG_PARTY, 1), (Reg.HGC_CFG_LEASE_L,
    4), (Reg.HGC_CFG_PINS_EN, 1), (Reg.HGC_STATE_STATE, 1), (Reg.HGC_STATE_LINK_UP, 1)]) fun x =>
    { x with keks := [(0, zeros 32)] }) fun x => { x with requests := [(99, 9)] })) fun x =>
    { x with partner := some (4, 9), partnerActive := true }), by decide +kernel⟩,
    ⟨(onHgc (onCku (on [(Reg.HGC_CFG_ROLE, 1), (Reg.HGC_CFG_PAIR_ID, 7), (Reg.HGC_CFG_PARTY, 1), (Reg.HGC_CFG_LEASE_L, 4),
      (Reg.HGC_CFG_PINS_EN, 1), (Reg.HGC_STATE_STATE, 2), (Reg.HGC_STATE_LINK_UP, 1)]) fun x =>
      { x with keks := [(0, zeros 32)] }) fun x => { x with requests := [(99, 9)], layer := some 0 }), ⟨4294967295, [], [], [],
      [], [], [], [], [], [], [], [], 0, 255⟩, by decide +kernel⟩,
    ⟨(onHgc (onCku (on [(Reg.HGC_CFG_ROLE, 1), (Reg.HGC_CFG_PAIR_ID, 7), (Reg.HGC_CFG_PARTY, 1), (Reg.HGC_CFG_LEASE_L, 4),
      (Reg.HGC_CFG_PINS_EN, 1), (Reg.HGC_STATE_STATE, 2), (Reg.HGC_STATE_LINK_UP, 1)]) fun x =>
      { x with keks := [(0, zeros 32)] }) fun x => { x with requests := [(99, 9)], layer := some 1 }), by decide +kernel⟩,
    ⟨(onHgc (onCku (on [(Reg.HGC_CFG_ROLE, 1), (Reg.HGC_CFG_PAIR_ID, 7), (Reg.HGC_CFG_PARTY, 1), (Reg.HGC_CFG_LEASE_L, 4),
      (Reg.HGC_CFG_PINS_EN, 1), (Reg.HGC_STATE_STATE, 4)]) fun x => { x with keks := [(0, zeros 32)] }) fun x =>
      { x with requests := [(99, 9)] }), by decide +kernel⟩,
    ⟨(onHgc (onCku (on [(Reg.TE_TICK, 2000), (Reg.HGC_CFG_ROLE, 1), (Reg.HGC_CFG_PAIR_ID, 7), (Reg.HGC_CFG_PARTY, 1),
      (Reg.HGC_CFG_LEASE_L, 4), (Reg.HGC_CFG_PINS_EN, 1), (Reg.HGC_STATE_STATE, 2), (Reg.HGC_STATE_LINK_UP, 1)]) fun x =>
      { x with keks := [(0, zeros 32)] }) fun x => { x with requests := [(99, 9)], layer := some 2, settleTick := 100 }),
      by decide +kernel⟩,
    ⟨(onHgc (onCku (on [(Reg.TE_TICK, 2000), (Reg.HGC_CFG_ROLE, 1), (Reg.HGC_CFG_PAIR_ID, 7), (Reg.HGC_CFG_PARTY, 1),
      (Reg.HGC_CFG_LEASE_L, 4), (Reg.HGC_CFG_PINS_EN, 1), (Reg.HGC_STATE_STATE, 2), (Reg.HGC_STATE_LINK_UP, 1)]) fun x =>
      { x with keks := [(0, zeros 32)] }) fun x =>
      { x with requests := [(99, 9)], layer := some 2, settleTick := 100, heldCauses := [3, 5] }), 3, [5], by decide +kernel⟩,
    ⟨(onHgc (onCku (on [(Reg.HGC_CFG_ROLE, 1), (Reg.HGC_CFG_PAIR_ID, 7), (Reg.HGC_CFG_PARTY, 1), (Reg.HGC_CFG_LEASE_L, 4),
      (Reg.HGC_CFG_PINS_EN, 1), (Reg.HGC_STATE_STATE, 4)]) fun x => { x with keks := [(0, zeros 32)] }) fun x =>
      { x with requests := [(99, 9)] }), by decide +kernel⟩⟩

theorem witness_StandaloneCommandsComplete :
    (∃ (s : State) (c : Nat × Instr), s.canon = true ∧ s.ringsBusy = [] ∧ s.openConns = [] ∧ s.attached = true ∧ s.powered =
      true ∧ c ∈ [(1, Instr.dlDown .down), (1, .dlDown .hotReset), (2, .perstAssert), (4, .pf0Flr), (5, .pf0D3)]) ∧
    (∃ (s : State), s.canon = true ∧ s.ringsBusy = [] ∧ s.openConns = [] ∧ s.attached = true ∧ s.powered = true ∧ s.running .hiu
      = true) ∧
    (∃ (s : State), s.canon = true ∧ s.ringsBusy = [] ∧ s.openConns = [] ∧ s.attached = false ∧ s.powered = true) ∧
    (∃ (s : State) (o : Nat), s.canon = true ∧ s.ringsBusy = [] ∧ s.openConns = [] ∧ s.attached = true ∧ s.flag
      Reg.HIU_WDOG_CFG_WDOG_EN = true ∧ s.hiu.kicked + 1000000 * s.get Reg.HIU_WDOG_CFG_WDOG_MS ≤ (s.moment o).localNs) ∧
    (∃ (s : State) (o : Nat), s.canon = true ∧ s.ringsBusy = [] ∧ s.openConns = [] ∧ s.attached = true ∧ s.running .te = true ∧
      (s.moment o).localNs < s.hiu.kicked + 1000000 * s.get Reg.HIU_WDOG_CFG_WDOG_MS) ∧
    (∃ (s : State) (speed : Fin 7) (width : Fin 17), s.canon = true ∧ s.ringsBusy = [] ∧ s.openConns = [] ∧ s.running .hiu =
      true ∧ speed.val ≠ 0 ∧ speed.val ≤ s.get Reg.HIU_LINK_CFG_MAX_SPEED ∧ width.val ≤ s.get Reg.HIU_LINK_CFG_MAX_WIDTH ∧ s.get
      Reg.HIU_LINK_CFG_MIN_SPEED ≤ speed.val ∧ s.get Reg.HIU_LINK_CFG_MIN_WIDTH ≤ width.val ∧ s.hiu.perst = false) ∧
    (∃ (s : State) (speed : Fin 7) (width : Fin 17), s.canon = true ∧ s.ringsBusy = [] ∧ s.openConns = [] ∧ s.running .hiu =
      true ∧ speed.val ≠ 0 ∧ speed.val ≤ s.get Reg.HIU_LINK_CFG_MAX_SPEED ∧ width.val ≤ s.get Reg.HIU_LINK_CFG_MAX_WIDTH ∧ s.get
      Reg.HIU_LINK_CFG_MIN_SPEED ≤ speed.val ∧ s.get Reg.HIU_LINK_CFG_MIN_WIDTH ≤ width.val ∧ s.flag Reg.HIU_LINK_STATUS_UP =
      true ∧ s.attached = true ∧ speed.val ≠ s.get Reg.HIU_LINK_STATUS_SPEED ∧ s.hiu.queue = []) ∧
    (∃ (s : State), s.canon = true ∧ s.ringsBusy = [] ∧ s.openConns = []) :=
  ⟨⟨on [(Reg.HIU_HOST_STATE_MODE, 0), (Reg.HIU_HOST_STATE_SESSION, 65535)], (5, .pf0D3), by decide +kernel⟩,
    ⟨on [(Reg.HIU_HOST_STATE_MODE, 0)], by decide +kernel⟩,
    ⟨on [], by decide +kernel⟩,
    ⟨on [(Reg.HIU_HOST_STATE_MODE, 0), (Reg.HIU_WDOG_CFG_WDOG_EN, 1), (Reg.HIU_WDOG_CFG_WDOG_MS, 12)], 0, by decide +kernel⟩,
    ⟨on [(Reg.HIU_HOST_STATE_MODE, 0), (Reg.HIU_WDOG_CFG_WDOG_EN, 1), (Reg.HIU_WDOG_CFG_WDOG_MS, 13)], 0, by decide +kernel⟩,
    ⟨(onHiu (on [(Reg.HIU_LINK_CFG_MAX_SPEED, 6), (Reg.HIU_LINK_CFG_MAX_WIDTH, 16), (Reg.HIU_LINK_CFG_MIN_SPEED, 4),
      (Reg.HIU_LINK_CFG_MIN_WIDTH, 16)]) fun x => { x with perst := false }), 6, 16, by decide +kernel⟩,
    ⟨on [(Reg.HIU_LINK_CFG_MAX_SPEED, 6), (Reg.HIU_LINK_CFG_MAX_WIDTH, 16), (Reg.HIU_LINK_CFG_MIN_SPEED, 4),
      (Reg.HIU_LINK_CFG_MIN_WIDTH, 16), (Reg.HIU_HOST_STATE_MODE, 0), (Reg.HIU_LINK_STATUS_UP, 1), (Reg.HIU_LINK_STATUS_SPEED,
      5), (Reg.HIU_LINK_STATUS_WIDTH, 16)], 4, 16, by decide +kernel⟩,
    ⟨on [], by decide +kernel⟩⟩

theorem witness_HostCommandsComplete :
    (∃ (s : State) (r : Requester), s.canon = true ∧ s.mayWrite r Reg.HIU_WDOG_KICK.key = true) ∧
    (∃ (s : State) (r : Requester) (m : Adoption) (n : BitVec 16), s.canon = true ∧ m.session = n ∧ s.mayWrite r
      Reg.HIU_ADOPT.key = true ∧ m.meets = none ∧ n.toNat = s.get Reg.HIU_HOST_STATE_SESSION ∧ s.attached = false ∧ s.flag
      Reg.HIU_LINK_STATUS_UP = true ∧ s.flag Reg.HIU_LINK_STATUS_BELOW_MIN = false) ∧
    (∃ (s : State) (r : Requester) (m : Adoption) (n : BitVec 16), s.canon = true ∧ m.session = n ∧ s.mayWrite r
      Reg.HIU_ADOPT.key = true ∧ m.meets = none ∧ n.toNat ≠ s.get Reg.HIU_HOST_STATE_SESSION) ∧
    (∃ (s : State) (r : Requester) (m : Adoption) (n : BitVec 16) (c : Fin 8), s.canon = true ∧ m.session = n ∧ s.mayWrite r
      Reg.HIU_ADOPT.key = true ∧ m.meets = some c ∧ s.ringsBusy = [] ∧ s.openConns = []) ∧
    (∃ (s : State) (v : Fin 4096), s.canon = true ∧ v.val ≠ 0 ∧ s.powered = true ∧ s.ringsBusy = [] ∧ s.ttu.flr = [] ∧
      s.outstanding v = true) ∧
    (∃ (s : State) (v : Fin 4096), s.canon = true ∧ v.val ≠ 0 ∧ s.powered = true ∧ s.ringsBusy = [] ∧ s.ttu.flr = [] ∧
      s.outstanding v = false) ∧
    (∃ (s : State), s.canon = true ∧ s.powered = true ∧ s.ringsBusy = [] ∧ s.hiu.tags = [] ∧ s.ttu.flr = []) ∧
    (∃ (s : State) (v : Fin 4096), s.canon = true ∧ v.val ≠ 0 ∧ s.powered = true) ∧
    (∃ (s : State), s.canon = true ∧ s.hiu.queue = []) ∧
    (∃ (s : State) (tag : Fin 4096) (q : ReadReq), s.canon = true ∧ s.hiu.tags.find? (·.1 == tag.val) = some (tag.val, q) ∧
      s.hiu.queue = [] ∧ s.ttu.flr = []) ∧
    (∃ (s : State) (tag : Fin 4096) (q : ReadReq) (r : Nat) (n : Nat) (st : Fin 4), s.canon = true ∧ s.hiu.tags.find? (·.1 ==
      tag.val) = some (tag.val, q) ∧ s.hiu.queue = [] ∧ s.ttu.flr = [] ∧ q.use = .fetch r n ∧ s.ringOn r = false ∧ st.val ≠ 0) ∧
    (∃ (s : State) (tag : Fin 4096) (q : ReadReq) (r : Nat) (n : Nat), s.canon = true ∧ s.hiu.tags.find? (·.1 == tag.val) = some
      (tag.val, q) ∧ s.hiu.queue = [] ∧ s.ttu.flr = [] ∧ q.use = .fetch r n ∧ s.ringOn r = false ∧ 0xA04 ∉ s.once) ∧
    (∃ (s : State) (f : Fin 4096) (v : Fin 2048), s.canon = true ∧ v.val < vectorCount f ∧ s.running .hiu = true ∧
      s.hiu.vfD3.contains f.val = false ∧ s.flag (vectorPending f v) = true ∧ s.attached = true ∧ s.flag (cfgMsixMask f) =
      false) ∧
    (∃ (s : State) (f : Fin 4096) (v : Fin 2048), s.canon = true ∧ v.val < vectorCount f ∧ s.running .hiu = true ∧
      s.hiu.vfD3.contains f.val = false ∧ (s.flag (vectorPending f v) = false ∨ s.flag (cfgMsixMask f) = true)) ∧
    (∃ (s : State) (f : Fin 4096) (v : Fin 2048), s.canon = true ∧ v.val < vectorCount f ∧ s.running .hiu = true ∧
      s.hiu.vfD3.contains f.val = false ∧ ((∀ w, w < 2048 → s.flag (vectorPending f w) = false))) :=
  ⟨⟨on [], .pf0, by decide +kernel⟩,
    ⟨on [(Reg.HIU_HOST_STATE_SESSION, 65535), (Reg.HIU_LINK_STATUS_UP, 1)], .pf0, ⟨65535, none⟩, 65535, by decide +kernel⟩,
    ⟨on [], .pf0, ⟨65535, none⟩, 65535, by decide +kernel⟩,
    ⟨on [(Reg.HIU_HOST_STATE_MODE, 0)], .pf0, ⟨0, some 2⟩, 0, 2, by decide +kernel⟩,
    ⟨(onHiu (on []) fun x => { x with tags := [(9, (⟨4095, 4096, 8192, 64, .fetch 7 3, false⟩ : ReadReq))] }), 4095,
      by decide +kernel⟩,
    ⟨(onTtu (onHiu (on []) fun x => { x with vfD3 := [4095, 1] }) fun x =>
      { x with tlb := [⟨4095, 0, 12, 0, true, true⟩, ⟨1, 0, 12, 0, true, true⟩] }), 4095, by decide +kernel⟩,
    ⟨(onTtu (onHiu (on [(cfgVfOn, 1), (cfgNumVfs, 4)]) fun x => { x with vfD3 := [4095, 1] }) fun x =>
      { x with tlb := [⟨4095, 0, 12, 0, true, true⟩, ⟨1, 0, 12, 0, true, true⟩] }), by decide +kernel⟩,
    ⟨on [], 4095, by decide +kernel⟩,
    ⟨(onHiu (on []) fun x => { x with vfD3 := [4095, 1] }), by decide +kernel⟩,
    ⟨(onHiu (on []) fun x =>
      { x with tags := [(4095, (⟨7, 4096, 8192, 64, .fetch 7 3, false⟩ : ReadReq)), (0, (⟨9, 4096, 8192, 64, .fetch 7 3, false⟩ : ReadReq))] }),
      4095, (⟨7, 4096, 8192, 64, .fetch 7 3, false⟩ : ReadReq), by decide +kernel⟩,
    ⟨(onHiu (on []) fun x =>
      { x with tags := [(4095, (⟨7, 4096, 8192, 64, .fetch 7 3, false⟩ : ReadReq)), (0, (⟨9, 4096, 8192, 64, .fetch 7 3, false⟩ : ReadReq))] }),
      4095, (⟨7, 4096, 8192, 64, .fetch 7 3, false⟩ : ReadReq), 7, 3, 1, by decide +kernel⟩,
    ⟨(onHiu (on []) fun x =>
      { x with tags := [(4095, (⟨7, 4096, 8192, 64, .fetch 7 3, false⟩ : ReadReq)), (0, (⟨9, 4096, 8192, 64, .fetch 7 3, false⟩ : ReadReq))] }),
      4095, (⟨7, 4096, 8192, 64, .fetch 7 3, false⟩ : ReadReq), 7, 3, by decide +kernel⟩,
    ⟨on [(Reg.HIU_HOST_STATE_MODE, 0), (vectorPending 0 2047, 1)], 0, 2047, by decide +kernel⟩,
    ⟨on [(vectorPending 4095 0, 1), (cfgMsixMask 4095, 1)], 4095, 0, by decide +kernel⟩,
    ⟨on [(cfgMsixMask 4095, 1)], 4095, 0, by decide +kernel⟩⟩

theorem witness_TranslationCommandsComplete :
    (∃ (s : State) (r : Requester) (f : Fin 4096) (v : Word), s.canon = true ∧ s.mayWrite r (0x0B100000 + 32 * f.val) = true ∧
      bits v.toNat 29 2 ≠ 3 ∧ ((bits v.toNat 29 2 = 2 → f.val = 0)) ∧ s.flag (Reg.CTX_LOG_EN f) = false) ∧
    (∃ (s : State) (r : Requester) (f : Fin 4096) (v : Word), s.canon = true ∧ s.mayWrite r (0x0B100000 + 32 * f.val) = true ∧
      bits v.toNat 29 2 ≠ 3 ∧ ((bits v.toNat 29 2 = 2 → f.val = 0)) ∧ s.flag (Reg.CTX_LOG_EN f) = true ∧ bitAt v.toNat 28 =
      false) ∧
    (∃ (s : State) (r : Requester), s.canon = true ∧ s.mayWrite r Reg.TTU_INV_CMD_SCOPE.key = true ∧ s.flag
      Reg.TTU_INV_STATUS_BUSY = false) ∧
    (∃ (s : State) (r : Requester), s.canon = true ∧ s.mayWrite r Reg.TTU_INV_CMD_SCOPE.key = true ∧ s.flag
      Reg.TTU_INV_STATUS_BUSY = false) ∧
    (∃ (s : State) (r : Requester), s.canon = true ∧ s.mayWrite r Reg.TTU_INV_CMD_SCOPE.key = true ∧ s.flag
      Reg.TTU_INV_STATUS_BUSY = false) ∧
    (∃ (s : State) (r : Requester), s.canon = true ∧ s.mayWrite r Reg.TTU_INV_CMD_SCOPE.key = true ∧ s.flag
      Reg.TTU_INV_STATUS_BUSY = true) ∧
    (∃ (s : State), s.canon = true ∧ s.ttu.inv = some [] ∧ s.hiu.queue = [] ∧ s.ttu.flr = [] ∧ s.get Reg.TTU_INV_CPL_ADDR_ADDR =
      0) ∧
    (∃ (s : State) (r : Requester) (f : Fin 4096), s.canon = true ∧ s.mayWrite r Reg.TTU_LOG_CMD_OP.key = true ∧ s.flag
      Reg.TTU_LOG_STATUS_BUSY = false ∧ s.flag (Reg.CTX_LOG_EN f) = true) ∧
    (∃ (s : State) (r : Requester) (f : Fin 4096), s.canon = true ∧ s.mayWrite r Reg.TTU_LOG_CMD_OP.key = true ∧ s.flag
      Reg.TTU_LOG_STATUS_BUSY = false ∧ s.flag (Reg.CTX_LOG_EN f) = false) ∧
    (∃ (s : State) (f : Nat) (out : Bool), s.canon = true ∧ f < 4096 ∧ s.running .ttu = true ∧ s.ttu.sync = [(f, out)] ∧
      s.ttu.marks = []) :=
  ⟨⟨on [], .pf0, 4095, 0xBFFFFFFF, by decide +kernel⟩,
    ⟨on [(Reg.CTX_LOG_EN 4095, 1)], .pf0, 4095, 0xA0000000, by decide +kernel⟩,
    ⟨(onHiu (onTtu (on []) fun x => { x with tlb := [⟨4095, 0x1000, 12, 0, true, true⟩, ⟨1, 0, 12, 0, true, true⟩] }) fun x =>
      { x with tags := [(4095, (⟨7, 4096, 8192, 64, .fetch 7 3, false⟩ : ReadReq))] }), .pf0, by decide +kernel⟩,
    ⟨(onTtu (on []) fun x => { x with tlb := [⟨4095, 0x1000, 12, 0, true, true⟩, ⟨1, 0, 12, 0, true, true⟩] }), .pf0,
      by decide +kernel⟩,
    ⟨(onTtu (on [(Reg.TTU_INV_ADDR_ADDR, 1)]) fun x =>
      { x with tlb := [⟨4095, 0x1000, 12, 0, true, true⟩, ⟨1, 0, 12, 0, true, true⟩] }), .pf0, by decide +kernel⟩,
    ⟨on [(Reg.TTU_INV_STATUS_BUSY, 1)], .sup, by decide +kernel⟩,
    ⟨(onTtu (on [(Reg.TTU_INV_STATUS_BUSY, 1)]) fun x => { x with inv := some [] }), by decide +kernel⟩,
    ⟨on [(Reg.CTX_LOG_EN 4095, 1)], .pf0, 4095, by decide +kernel⟩,
    ⟨on [], .pf0, 4095, by decide +kernel⟩,
    ⟨(onTtu (on [(Reg.TTU_LOG_STATUS_BUSY, 1)]) fun x => { x with sync := [(4095, true)] }), 4095, true, by decide +kernel⟩⟩

theorem witness_PoolCommandsComplete :
    (∃ (s : State) (r : Requester) (f : Fin 4096) (a : Nat) (k : Fin 16), s.canon = true ∧ s.mayWrite r Reg.TTU_POOL_CMD_OP.key
      = true ∧ a = s.get Reg.TTU_POOL_ARG_ARG ∧ k.val < 8 ∧ s.limitSum k - s.get (poolLimit f k) + a ≤ s.poolCap k ∧ s.get
      (poolUsed f k) ≤ a) ∧
    (∃ (s : State) (r : Requester) (f : Fin 4096) (a : Nat) (k : Fin 16), s.canon = true ∧ s.mayWrite r Reg.TTU_POOL_CMD_OP.key
      = true ∧ a = s.get Reg.TTU_POOL_ARG_ARG ∧ k.val < 8 ∧ s.poolCap k < s.limitSum k - s.get (poolLimit f k) + a) ∧
    (∃ (s : State) (r : Requester) (f : Fin 4096) (a : Nat) (k : Fin 16), s.canon = true ∧ s.mayWrite r Reg.TTU_POOL_CMD_OP.key
      = true ∧ a = s.get Reg.TTU_POOL_ARG_ARG ∧ (k.val = 0 ∨ k.val = 4) ∧ a < assignable k ∧ s.ownerOf k a = none ∧ s.get
      (poolUsed f k) < s.get (poolLimit f k)) ∧
    (∃ (s : State) (r : Requester) (a : Nat) (k : Fin 16) (g : Nat), s.canon = true ∧ s.mayWrite r Reg.TTU_POOL_CMD_OP.key =
      true ∧ a = s.get Reg.TTU_POOL_ARG_ARG ∧ (k.val = 0 ∨ k.val = 4) ∧ a < assignable k ∧ s.quiesced k a = true ∧ s.ownerOf k a
      = some g) :=
  ⟨⟨on [(Reg.TTU_POOL_ARG_ARG, 7), (Reg.TTU_POOL_CAP_CAP 7, 9), (poolLimit 1 7, 2), (poolUsed 4095 7, 7)], .pf0, 4095, 7, 7,
    by decide +kernel⟩,
    ⟨on [(Reg.TTU_POOL_ARG_ARG, 8), (Reg.TTU_POOL_CAP_CAP 7, 9), (poolLimit 1 7, 2)], .pf0, 4095, 8, 7, by decide +kernel⟩,
    ⟨on [(Reg.TTU_POOL_ARG_ARG, 131071), (poolLimit 4095 0, 1)], .pf0, 4095, 131071, 0, by decide +kernel⟩,
    ⟨on [(Reg.TTU_POOL_ARG_ARG, 131071), (ringOwnerField 131071, 4095), (poolUsed 4095 0, 1)], .pf0, 131071, 0, 4095,
      by decide +kernel⟩⟩

theorem witness_MailboxCommandsComplete :
    (∃ (s : State) (v : Fin 4096), s.canon = true ∧ v.val ≠ 0 ∧ s.vfShown v = true ∧ s.halfPending false v = false ∧ s.rd
      (halfKey false v) % 65536 ≤ 2032) ∧
    (∃ (s : State) (v : Fin 4096) (r : Requester), s.canon = true ∧ v.val ≠ 0 ∧ s.mayWrite r Reg.TTU_MBX_SEND.key = true ∧
      s.halfPending true v = false ∧ s.rd (halfKey true v) % 65536 ≤ 2032) ∧
    (∃ (s : State) (v : Fin 4096) (r : Requester), s.canon = true ∧ v.val ≠ 0 ∧ s.mayWrite r Reg.TTU_MBX_ACK.key = true ∧
      s.halfPending false v = true) ∧
    (∃ (s : State) (v : Fin 4096), s.canon = true ∧ v.val ≠ 0 ∧ s.vfShown v = true ∧ s.halfPending true v = true) ∧
    (∃ (s : State) (v : Fin 4096) (i : Fin 1024), s.canon = true ∧ v.val ≠ 0 ∧ s.running .ttu = true ∧ s.served (.vf v) = true ∧
      i.val < 512 ∧ s.halfPending false v = false) ∧
    (∃ (s : State) (v : Fin 4096) (i : Fin 1024), s.canon = true ∧ v.val ≠ 0 ∧ s.running .ttu = true ∧ s.served (.vf v) = true ∧
      i.val < 512 ∧ s.halfPending false v = true) ∧
    (∃ (s : State) (v : Fin 4096) (i : Fin 1024) (w : Fin 4096), s.canon = true ∧ v.val ≠ 0 ∧ s.running .ttu = true ∧ s.served
      (.vf v) = true ∧ i.val < 512 ∧ w ≠ v) :=
  ⟨⟨on [(⟨halfKey false 4095, 31, 0⟩, 2032), (cfgVfOn, 1), (cfgVfMse, 1), (cfgNumVfs, 4095)], 4095, by decide +kernel⟩,
    ⟨on [(⟨halfKey true 4095, 31, 0⟩, 2032)], 4095, .pf0, by decide +kernel⟩,
    ⟨on [(pendingBit false 4095, 1), (Reg.TTU_VF_MBX_TO_PF_PENDING 4095, 1)], 4095, .pf0, by decide +kernel⟩,
    ⟨on [(pendingBit true 4095, 1), (Reg.TTU_VF_MBX_TO_VF_PENDING 4095, 1), (cfgVfOn, 1), (cfgVfMse, 1), (cfgNumVfs, 4095)],
      4095, by decide +kernel⟩,
    ⟨on [(cfgVfOn, 1), (cfgVfMse, 1), (cfgNumVfs, 4095)], 4095, 511, by decide +kernel⟩,
    ⟨on [(pendingBit false 4095, 1), (cfgVfOn, 1), (cfgVfMse, 1), (cfgNumVfs, 4095)], 4095, 511, by decide +kernel⟩,
    ⟨on [(cfgVfOn, 1), (cfgVfMse, 1), (cfgNumVfs, 4095)], 4095, 511, 1, by decide +kernel⟩⟩

theorem witness_DoorbellCommandsComplete :
    (∃ (s : State) (r : Fin 131072) (x : RingRt), s.canon = true ∧ s.running .qe = true ∧ s.shows 0x0C200000 = true ∧ s.served
      .pf0 = true ∧ x = s.ring r ∧ x.request = false ∧ ((s.ringOwner r ≠ some 0 ∨ s.ringOn r = false))) ∧
    (∃ (s : State) (r : Fin 131072) (x : RingRt), s.canon = true ∧ s.running .qe = true ∧ s.shows 0x0C200000 = true ∧ s.served
      .pf0 = true ∧ x = s.ring r ∧ x.request = false ∧ s.slotReady r (s.get (Reg.RING_NEXT r)) = true ∧ s.ringOn r = true ∧
      s.ringType r ≤ 2 ∧ x.fetching = true) ∧
    (∃ (s : State) (r : Fin 131072) (x : RingRt), s.canon = true ∧ s.running .qe = true ∧ s.shows 0x0C200000 = true ∧ s.served
      .pf0 = true ∧ x = s.ring r ∧ x.request = false ∧ s.slotReady r (s.get (Reg.RING_NEXT r)) = true ∧ s.ringOn r = true ∧
      s.ringType r ≤ 2 ∧ x.fetching = false ∧ s.arbitrated r = true) ∧
    (∃ (s : State) (r : Fin 131072) (x : RingRt), s.canon = true ∧ s.running .qe = true ∧ s.shows 0x0C200000 = true ∧ s.served
      .pf0 = true ∧ x = s.ring r ∧ x.request = false ∧ s.slotReady r (s.get (Reg.RING_NEXT r)) = true ∧ s.ringOn r = true ∧
      s.ringType r ≤ 2 ∧ x.fetching = false ∧ s.arbitrated r = false ∧ s.direct = true ∧ s.tagReady = true) ∧
    (∃ (s : State) (r : Fin 131072) (arm : Bool) (x : RingRt) (d : BitVec 24) (back : Nat) (prod : Nat), s.canon = true ∧
      s.running .qe = true ∧ s.shows 0x0C200000 = true ∧ s.served .pf0 = true ∧ x = s.ring r ∧ x.request = false ∧ prod = s.get
      (Reg.RING_NEXT r) ∧ back = (prod + 2 ^ 32 - d.toNat) % 2 ^ 24 ∧ s.ringOwner r = some 0 ∧ s.ringOn r = true ∧ 3 ≤
      s.ringType r ∧ back ≤ (prod + 2 ^ 32 - s.get (Reg.RING_DONE r)) % 2 ^ 32 ∧ ((s.ringType r = 4 ∨ arm = false ∨ back = 0)))
      ∧
    (∃ (s : State) (r : Fin 131072) (x : RingRt) (d : BitVec 24) (back : Nat) (prod : Nat), s.canon = true ∧ s.running .qe =
      true ∧ s.shows 0x0C200000 = true ∧ s.served .pf0 = true ∧ x = s.ring r ∧ x.request = false ∧ prod = s.get (Reg.RING_NEXT
      r) ∧ back = (prod + 2 ^ 32 - d.toNat) % 2 ^ 24 ∧ s.ringOwner r = some 0 ∧ s.ringOn r = true ∧ 3 ≤ s.ringType r ∧ back ≤
      (prod + 2 ^ 32 - s.get (Reg.RING_DONE r)) % 2 ^ 32 ∧ s.ringType r = 3 ∧ back ≠ 0) ∧
    (∃ (s : State) (r : Fin 131072) (x : RingRt) (d : BitVec 24) (back : Nat) (prod : Nat), s.canon = true ∧ s.running .qe =
      true ∧ s.shows 0x0C200000 = true ∧ s.served .pf0 = true ∧ x = s.ring r ∧ x.request = false ∧ prod = s.get (Reg.RING_NEXT
      r) ∧ back = (prod + 2 ^ 32 - d.toNat) % 2 ^ 24 ∧ s.ringOwner r = some 0 ∧ s.ringOn r = true ∧ 3 ≤ s.ringType r ∧ (prod + 2
      ^ 32 - s.get (Reg.RING_DONE r)) % 2 ^ 32 < back) ∧
    (∃ (s : State) (r : Nat) (credit : Nat) (burst : Nat), s.canon = true ∧ s.running .qe = true ∧ s.turnRing = some (r, credit,
      burst) ∧ min burst credit = 1 ∧ s.direct = true ∧ s.tagReady = true ∧ s.slotReady r (s.get (Reg.RING_NEXT r)) = true) ∧
    (∃ (s : State), s.canon = true ∧ s.running .qe = true ∧ s.turnRing = none ∧ s.newRound.turnRing = none) ∧
    (∃ (s : State) (r : Fin 131072) (e : Bytes) (e' : Bytes) (q : Nat), s.canon = true ∧ s.running .qe = true ∧ q = s.get
      (Reg.RING_NEXT r) ∧ s.ringOn r = true ∧ s.mayDma (s.ringFunc r) = true ∧ s.ringType r = 0 ∧ s.ringMedia r = false ∧
      (s.ring r).fetching = true ∧ e' = sliceB (e ++ zeros 64) 0 16 ∧ ownOf e' = s.phaseOf r q ∧ badEntry 0 e' = false ∧ (s.ring
      r).turn = 1) ∧
    (∃ (s : State) (r : Fin 131072) (e : Bytes) (e' : Bytes) (q : Nat), s.canon = true ∧ s.running .qe = true ∧ q = s.get
      (Reg.RING_NEXT r) ∧ s.ringOn r = true ∧ s.mayDma (s.ringFunc r) = true ∧ s.ringType r = 0 ∧ s.ringMedia r = false ∧
      (s.ring r).fetching = true ∧ e' = sliceB (e ++ zeros 64) 0 16 ∧ ownOf e' ≠ s.phaseOf r q ∧ s.flag (Reg.RING_REREAD r) =
      false) :=
  ⟨⟨on [], 131071, RingRt.empty, by decide +kernel⟩,
    ⟨(onQe (on [(Reg.HIU_HOST_STATE_MODE, 0), (Reg.CTX_VALID 0, 1), (Reg.CTX_MODE 0, 2), (ringOwnerField 131071, 0),
      (Reg.RING_ENABLE 131071, 1), (Reg.RING_TYPE 131071, 2), (Reg.RING_LOG2_SIZE 131071, 4)]) fun x =>
      { x with rings := [(131071, { RingRt.empty with fetching := true })] }), 131071, { RingRt.empty with fetching := true },
      by decide +kernel⟩,
    ⟨on [(Reg.HIU_HOST_STATE_MODE, 0), (Reg.CTX_VALID 0, 1), (Reg.CTX_MODE 0, 2), (ringOwnerField 131071, 0), (Reg.RING_ENABLE
      131071, 1), (Reg.RING_TYPE 131071, 2), (Reg.RING_LOG2_SIZE 131071, 4)], 131071, RingRt.empty, by decide +kernel⟩,
    ⟨on [(Reg.HIU_HOST_STATE_MODE, 0), (Reg.CTX_VALID 0, 1), (Reg.CTX_MODE 0, 2), (ringOwnerField 131071, 0), (Reg.RING_ENABLE
      131071, 1), (Reg.RING_TYPE 131071, 1), (Reg.RING_LOG2_SIZE 131071, 4)], 131071, RingRt.empty, by decide +kernel⟩,
    ⟨on [(Reg.HIU_HOST_STATE_MODE, 0), (Reg.CTX_VALID 0, 1), (Reg.CTX_MODE 0, 2), (ringOwnerField 131071, 0), (Reg.RING_ENABLE
      131071, 1), (Reg.RING_TYPE 131071, 3), (Reg.RING_LOG2_SIZE 131071, 4), (Reg.RING_NEXT 131071, 5), (Reg.RING_DONE 131071,
      3)], 131071, false, RingRt.empty, 4, 1, 5, by decide +kernel⟩,
    ⟨on [(Reg.HIU_HOST_STATE_MODE, 0), (Reg.CTX_VALID 0, 1), (Reg.CTX_MODE 0, 2), (ringOwnerField 131071, 0), (Reg.RING_ENABLE
      131071, 1), (Reg.RING_TYPE 131071, 3), (Reg.RING_LOG2_SIZE 131071, 4), (Reg.RING_NEXT 131071, 5), (Reg.RING_DONE 131071,
      3)], 131071, RingRt.empty, 4, 1, 5, by decide +kernel⟩,
    ⟨on [(Reg.HIU_HOST_STATE_MODE, 0), (Reg.CTX_VALID 0, 1), (Reg.CTX_MODE 0, 2), (ringOwnerField 131071, 0), (Reg.RING_ENABLE
      131071, 1), (Reg.RING_TYPE 131071, 4), (Reg.RING_LOG2_SIZE 131071, 4), (Reg.RING_NEXT 131071, 5), (Reg.RING_DONE 131071,
      3)], 131071, RingRt.empty, 2, 3, 5, by decide +kernel⟩,
    ⟨(onQe (on [(Reg.HIU_HOST_STATE_MODE, 0), (Reg.CTX_VALID 0, 1), (Reg.CTX_MODE 0, 2), (ringOwnerField 131071, 0),
      (Reg.RING_ENABLE 131071, 1), (Reg.RING_TYPE 131071, 0), (Reg.RING_LOG2_SIZE 131071, 4)]) fun x =>
      { x with rings := [(131071, { RingRt.empty with waiting := true })], credits := [(131071, 1, 4)] }), 131071, 1, 4,
      by decide +kernel⟩,
    ⟨on [], by decide +kernel⟩,
    ⟨(onQe (on [(Reg.HIU_HOST_STATE_MODE, 0), (Reg.CTX_VALID 0, 1), (Reg.CTX_MODE 0, 2), (ringOwnerField 131071, 0),
      (Reg.RING_ENABLE 131071, 1), (Reg.RING_TYPE 131071, 0), (Reg.RING_LOG2_SIZE 131071, 4)]) fun x =>
      { x with rings := [(131071, { RingRt.empty with fetching := true, turn := 1, ahead := 1 })] }), 131071, (zeros 8 ++ [64,
      0, 0, 0, 0, 0, 0, 128]), sliceB ((zeros 8 ++ [64, 0, 0, 0, 0, 0, 0, 128]) ++ zeros 64) 0 16, 0, by decide +kernel⟩,
    ⟨(onQe (on [(Reg.HIU_HOST_STATE_MODE, 0), (Reg.CTX_VALID 0, 1), (Reg.CTX_MODE 0, 2), (ringOwnerField 131071, 0),
      (Reg.RING_ENABLE 131071, 1), (Reg.RING_TYPE 131071, 0), (Reg.RING_LOG2_SIZE 131071, 4)]) fun x =>
      { x with rings := [(131071, { RingRt.empty with fetching := true, turn := 1, ahead := 1 })] }), 131071, zeros 16, sliceB
      (zeros 16 ++ zeros 64) 0 16, 0, by decide +kernel⟩⟩

theorem witness_RingWorkCompletes :
    (∃ (s : State) (r : Fin 131072) (k : Taken), s.canon = true ∧ s.running .qe = true ∧ s.direct = true ∧ s.ringOwner r = some
      0 ∧ (s.ring r).taken.find? (fun t => !t.done && !s.qe.mediaWait.any (fun m => m.1 == r.val && m.2.1 == t.seq && !m.2.2.2))
      = some k ∧ s.ringType r = 0 ∧ (s.ring r).abandoned = false ∧ onePage (leAt k.entry 0 8) (lenOf k.entry) = true ∧ 0 < lenOf
      k.entry ∧ lenOf k.entry ≤ s.maxRead ∧ s.tagReady = true ∧ s.pcu.queue = [] ∧ s.pairRole = false ∧ s.ringMedia r = false) ∧
    (∃ (s : State) (r : Fin 131072) (k : Taken), s.canon = true ∧ s.running .qe = true ∧ s.direct = true ∧ s.ringOwner r = some
      0 ∧ (s.ring r).taken.find? (fun t => !t.done && !s.qe.mediaWait.any (fun m => m.1 == r.val && m.2.1 == t.seq && !m.2.2.2))
      = some k ∧ s.ringType r = 0 ∧ (s.ring r).abandoned = false ∧ onePage (leAt k.entry 0 8) (lenOf k.entry) = true ∧ 0 < lenOf
      k.entry ∧ lenOf k.entry ≤ s.maxRead ∧ s.tagReady = true ∧ s.pcu.queue = [] ∧ s.pairRole = false ∧ s.ringMedia r = true) ∧
    (∃ (s : State) (r : Fin 131072) (m : Nat × Nat × Bytes × Bool) (f : Nat) (o : Nat), s.canon = true ∧ s.running .qe = true ∧
      s.direct = true ∧ s.ringOwner r = some 0 ∧ s.qe.mediaWait.find? (fun m => m.1 == r.val && (s.moment o).deliverable m) =
      some m ∧ f = beAt m.2.2.1 2 2 ∧ s.get (Reg.FLOW_SRC_KIND f) = 1 ∧ s.get (Reg.FLOW_SRC f) = r.val ∧ s.pcu.queue = []) ∧
    (∃ (s : State) (r : Fin 131072) (x : RxItem) (k : Taken) (c : Nat) (tc : Nat), s.canon = true ∧ s.running .qe = true ∧
      s.direct = true ∧ s.ringOwner r = some 0 ∧ s.qe.rxWait.find? (·.ring == r.val) = some x ∧ x.media = false ∧ x.tc = some tc
      ∧ x.src < 64 ∧ x.handle = none ∧ s.ringOn r = true ∧ s.ringType r = 1 ∧ s.ringMedia r = false ∧ (s.ring r).taken.find?
      (fun t => !t.done) = some k ∧ c = s.get (Reg.RING_LINK r) ∧ s.ringOn c = true ∧ s.sameOwner r c 3 = true ∧ s.ringFull c =
      false ∧ s.slotReady c (s.get (Reg.RING_NEXT c)) = true ∧ s.flag (Reg.RING_ARMED c) = false ∧ x.bytes ≠ [] ∧ x.bytes.length
      ≤ lenOf k.entry ∧ x.bytes.length ≤ s.maxPayload ∧ onePage (leAt k.entry 0 8) x.bytes.length = true) ∧
    (∃ (s : State) (r : Fin 131072) (n : Nat) (head : Nat), s.canon = true ∧ s.running .qe = true ∧ s.direct = true ∧
      s.ringOwner r = some 0 ∧ s.ringType r ≤ 1 ∧ (s.ring r).abandoned = false ∧ n = doneCount (s.ring r).taken ∧ n ≠ 0 ∧ head =
      (s.get (Reg.RING_DONE r) + n) % 2 ^ 32 ∧ 8 * s.get (Reg.RING_HEAD_ADDR r) < 2 ^ 48 ∧ s.flag (Reg.RING_ARMED r) = false) ∧
    (∃ (s : State) (r : Fin 131072) (k : Taken) (a : Nat), s.canon = true ∧ s.running .qe = true ∧ s.direct = true ∧ s.ringOwner
      r = some 0 ∧ s.ringType r = 2 ∧ (s.ring r).abandoned = false ∧ (s.ring r).taken.find? (·.done) = some k ∧ k.entry.length =
      64 ∧ a = s.slotAddr r k.seq ∧ onePage a 64 = true ∧ s.flag (Reg.RING_ARMED r) = false) :=
  ⟨⟨(onQe (on [(Reg.HIU_HOST_STATE_MODE, 0), (Reg.CTX_VALID 0, 1), (Reg.CTX_MODE 0, 2), (ringOwnerField 131071, 0),
    (Reg.RING_ENABLE 131071, 1), (Reg.RING_TYPE 131071, 0), (Reg.RING_LOG2_SIZE 131071, 4)]) fun x =>
    { x with rings := [(131071, { RingRt.empty with taken := [(⟨7, (zeros 8 ++ [64, 0, 0, 0, 0, 0, 0, 128]), false⟩ : Taken)] })] }),
    131071, (⟨7, (zeros 8 ++ [64, 0, 0, 0, 0, 0, 0, 128]), false⟩ : Taken), by decide +kernel⟩,
    ⟨(onQe (on [(Reg.HIU_HOST_STATE_MODE, 0), (Reg.CTX_VALID 0, 1), (Reg.CTX_MODE 0, 2), (ringOwnerField 131071, 0),
      (Reg.RING_ENABLE 131071, 1), (Reg.RING_TYPE 131071, 0), (Reg.RING_LOG2_SIZE 131071, 4), (Reg.RING_MEDIA 131071, 1)]) fun x
      =>
      { x with rings := [(131071, { RingRt.empty with taken := [(⟨7, (zeros 8 ++ [64, 0, 0, 0, 0, 0, 0, 128]), false⟩ : Taken)] })] }),
      131071, (⟨7, (zeros 8 ++ [64, 0, 0, 0, 0, 0, 0, 128]), false⟩ : Taken), by decide +kernel⟩,
    ⟨(onQe (on [(Reg.HIU_HOST_STATE_MODE, 0), (Reg.CTX_VALID 0, 1), (Reg.CTX_MODE 0, 2), (ringOwnerField 131071, 0),
      (Reg.RING_ENABLE 131071, 1), (Reg.RING_TYPE 131071, 0), (Reg.RING_LOG2_SIZE 131071, 4), (Reg.RING_MEDIA 131071, 1),
      (Reg.FLOW_SRC_KIND 65535, 1), (Reg.FLOW_SRC 65535, 131071), (Reg.FLOW_EG_KIND 65535, 1), (Reg.FLOW_EG_TARGET 65535, 4),
      (Reg.FLOW_CHANNELS 65535, 2), (Reg.FLOW_CH_PER_PKT 65535, 2), (Reg.FLOW_SPP 65535, 3), (Reg.FLOW_OPEN_SLOT 65535, 0),
      (Reg.FLOW_CLOSE_SLOT 65535, 10), (Reg.FLOW_EG_SLOT 65535, 249)]) fun x =>
      { x with rings := [(131071, { RingRt.empty with taken := [(⟨7, (zeros 8 ++ [64, 0, 0, 0, 0, 0, 0, 128]), false⟩ : Taken)] })], mediaWait := [(131071, 7, [0, 0, 255, 255, 0, 0, 0, 0, 0, 0, 0, 100], false)] }),
      131071, (131071, 7, [0, 0, 255, 255, 0, 0, 0, 0, 0, 0, 0, 100], false), 65535, 0, by decide +kernel⟩,
    ⟨(onQe (on [(Reg.HIU_HOST_STATE_MODE, 0), (Reg.CTX_VALID 0, 1), (Reg.CTX_MODE 0, 2), (ringOwnerField 131071, 0),
      (Reg.RING_ENABLE 131071, 1), (Reg.RING_TYPE 131071, 1), (Reg.RING_LOG2_SIZE 131071, 4), (Reg.RING_LINK 131071, 131070),
      (ringOwnerField 131070, 0), (Reg.RING_ENABLE 131070, 1), (Reg.RING_TYPE 131070, 3), (Reg.RING_LOG2_SIZE 131070, 4)]) fun x
      =>
      { x with rings := [(131071, { RingRt.empty with taken := [(⟨7, (zeros 8 ++ [64, 0, 0, 0, 0, 0, 0, 128]), false⟩ : Taken)] })], rxWait := [(⟨131071, none, zeros 64, false, Walk.empty, 63, some 7, false, none⟩ : RxItem)] }),
      131071, (⟨131071, none, zeros 64, false, Walk.empty, 63, some 7, false, none⟩ : RxItem), (⟨7, (zeros 8 ++ [64, 0, 0, 0, 0,
      0, 0, 128]), false⟩ : Taken), 131070, 7, by decide +kernel⟩,
    ⟨(onQe (on [(Reg.HIU_HOST_STATE_MODE, 0), (Reg.CTX_VALID 0, 1), (Reg.CTX_MODE 0, 2), (ringOwnerField 131071, 0),
      (Reg.RING_ENABLE 131071, 1), (Reg.RING_TYPE 131071, 1), (Reg.RING_LOG2_SIZE 131071, 4), (Reg.RING_DONE 131071,
      0xFFFFFFFF), (Reg.RING_HEAD_ADDR 131071, 0x1000)]) fun x =>
      { x with rings := [(131071, { RingRt.empty with taken := [(⟨7, (zeros 8 ++ [64, 0, 0, 0, 0, 0, 0, 128]), true⟩ : Taken)] })] }),
      131071, 1, 0, by decide +kernel⟩,
    ⟨(onQe (on [(Reg.HIU_HOST_STATE_MODE, 0), (Reg.CTX_VALID 0, 1), (Reg.CTX_MODE 0, 2), (ringOwnerField 131071, 0),
      (Reg.RING_ENABLE 131071, 1), (Reg.RING_TYPE 131071, 2), (Reg.RING_LOG2_SIZE 131071, 4)]) fun x =>
      { x with rings := [(131071, { RingRt.empty with taken := [(⟨7, zeros 64, true⟩ : Taken)] })] }), 131071, (⟨7, zeros 64,
      true⟩ : Taken), (on [(Reg.HIU_HOST_STATE_MODE, 0), (Reg.CTX_VALID 0, 1), (Reg.CTX_MODE 0, 2), (ringOwnerField 131071, 0),
      (Reg.RING_ENABLE 131071, 1), (Reg.RING_TYPE 131071, 2), (Reg.RING_LOG2_SIZE 131071, 4)]).slotAddr 131071 7,
      by decide +kernel⟩⟩

theorem witness_RingCommandsComplete :
    (∃ (s : State) (q : Requester) (r : Fin 131072) (i : Fin 16), s.canon = true ∧ s.reachesRing q r = true ∧ s.ringOn r = false
      ∧ s.flag (Reg.RING_IDLE r) = true ∧ (i.val = 3 ∨ i.val = 5)) ∧
    (∃ (s : State) (q : Requester) (r : Fin 131072) (i : Fin 16), s.canon = true ∧ s.reachesRing q r = true ∧ ((s.ringOn r =
      true ∨ s.flag (Reg.RING_IDLE r) = false)) ∧ i.val ∈ [2, 3, 4, 5]) ∧
    (∃ (s : State) (q : Requester) (r : Fin 131072), s.canon = true ∧ s.reachesRing q r = true ∧ s.ringOn r = false ∧ s.flag
      (Reg.RING_IDLE r) = true ∧ s.badContext r = false) ∧
    (∃ (s : State) (q : Requester) (r : Fin 131072), s.canon = true ∧ s.reachesRing q r = true ∧ s.ringOn r = false ∧ s.flag
      (Reg.RING_IDLE r) = true ∧ s.badContext r = true) ∧
    (∃ (s : State) (q : Requester) (r : Fin 131072), s.canon = true ∧ s.reachesRing q r = true ∧ s.ringOn r = true) ∧
    (∃ (s : State) (r : Fin 131072), s.canon = true ∧ s.ringOn r = false ∧ s.flag (Reg.RING_IDLE r) = false ∧ s.qe.rxWait.any
      (·.ring == r.val) = false ∧ (s.ring r).abandoned = false ∧ 3 ≤ s.ringType r) ∧
    (∃ (s : State) (r : Fin 131072), s.canon = true ∧ s.ringOn r = false ∧ s.flag (Reg.RING_IDLE r) = false ∧ s.qe.rxWait.any
      (·.ring == r.val) = false ∧ (s.ring r).abandoned = true ∧ s.outstanding (s.ringFunc r) = false) :=
  ⟨⟨on [(Reg.RING_TYPE 131071, 1)], .pf0, 131071, 5, by decide +kernel⟩,
    ⟨on [(Reg.RING_ENABLE 131071, 1)], .pf0, 131071, 5, by decide +kernel⟩,
    ⟨on [(ringOwnerField 131071, 0), (Reg.RING_TYPE 131071, 3)], .pf0, 131071, by decide +kernel⟩,
    ⟨on [(Reg.RING_TYPE 131071, 3)], .pf0, 131071, by decide +kernel⟩,
    ⟨on [(Reg.RING_ENABLE 131071, 1), (Reg.RING_IDLE 131071, 0)], .pf0, 131071, by decide +kernel⟩,
    ⟨on [(Reg.RING_TYPE 131071, 3), (Reg.RING_IDLE 131071, 0)], 131071, by decide +kernel⟩,
    ⟨(onQe (on [(Reg.RING_TYPE 131071, 2), (Reg.RING_IDLE 131071, 0)]) fun x =>
      { x with rings := [(131071, { RingRt.empty with abandoned := true })] }), 131071, by decide +kernel⟩⟩

theorem witness_EventCommandsComplete :
    (∃ (s : State) (e : Event), s.canon = true ∧ s.running .qe = true ∧ s.nextEvent = some e ∧ e.dest = .pf ∧ s.queueFor e =
      none) ∧
    (∃ (s : State) (e : Event) (q : Nat) (a : Nat) (p : Nat), s.canon = true ∧ s.running .qe = true ∧ s.nextEvent = some e ∧
      e.dest = .pf ∧ s.queueFor e = some q ∧ s.queueReady q = true ∧ s.get (Reg.RING_LOST q) = 0 ∧ s.direct = true ∧ a =
      s.slotAddr q (s.get (Reg.RING_NEXT q)) ∧ p = s.phaseOf q (s.get (Reg.RING_NEXT q)) ∧ onePage a 32 = true) ∧
    (∃ (s : State) (q : Fin 131072), s.canon = true ∧ s.running .qe = true ∧ s.ringType q = 4 ∧ s.queueReady q = true ∧
      s.ringOwner q = some 0 ∧ s.direct = true ∧ s.get (Reg.RING_LOST q) ≠ 0) ∧
    (∃ (s : State) (q : Fin 131072), s.canon = true ∧ s.running .qe = true ∧ s.ringOn q = true ∧ s.ringType q = 4 ∧ s.flag
      (Reg.RING_ARMED q) = true ∧ s.get (Reg.RING_NEXT q) ≠ s.get (Reg.RING_DONE q) ∧ (s.ring q).signalled = none ∧ s.ringOwner
      q = some 0 ∧ s.asleep 0 = false ∧ s.attached = true ∧ s.mechanism 0 = .intx ∧ s.flag Reg.HIU_INTX_STATUS_PENDING = false)
      ∧
    (∃ (s : State) (q : Fin 131072), s.canon = true ∧ s.running .qe = true ∧ s.ringOn q = true ∧ s.ringType q = 4 ∧ s.flag
      (Reg.RING_ARMED q) = true ∧ s.get (Reg.RING_NEXT q) ≠ s.get (Reg.RING_DONE q) ∧ (s.ring q).signalled = none ∧ s.ringOwner
      q = some 0 ∧ s.asleep 0 = false ∧ s.attached = true ∧ s.mechanism 0 = .msix ∧ s.flag (cfgMsixMask 0) = false ∧ s.flag
      (vectorControl 0 (s.get (Reg.RING_VECTOR q))) = false) ∧
    (∃ (s : State) (q : Fin 131072), s.canon = true ∧ s.running .qe = true ∧ s.ringOn q = true ∧ s.ringType q = 4 ∧ s.flag
      (Reg.RING_ARMED q) = false) :=
  ⟨⟨{ (on []) with events := [(⟨13, 1, 0, .pf, 5⟩ : Event)] }, (⟨13, 1, 0, .pf, 5⟩ : Event), by decide +kernel⟩,
    ⟨{ (on [(Reg.HIU_HOST_STATE_MODE, 0), (Reg.CTX_VALID 0, 1), (Reg.CTX_MODE 0, 2), (ringOwnerField 131071, 0), (Reg.RING_ENABLE 131071, 1), (Reg.RING_TYPE 131071, 4), (Reg.RING_LOG2_SIZE 131071, 4), (Reg.RING_NEXT 131071, 0xFFFFFFFF), (Reg.RING_DONE 131071, 0xFFFFFFFE), (Reg.QE_PF_EVQ_EN 13, 1), (Reg.QE_PF_EVQ_RING 13, 131071)]) with events := [(⟨13, 1, 0, .pf, 5⟩ : Event)] },
      (⟨13, 1, 0, .pf, 5⟩ : Event), 131071, (on [(Reg.HIU_HOST_STATE_MODE, 0), (Reg.CTX_VALID 0, 1), (Reg.CTX_MODE 0, 2),
      (ringOwnerField 131071, 0), (Reg.RING_ENABLE 131071, 1), (Reg.RING_TYPE 131071, 4), (Reg.RING_LOG2_SIZE 131071, 4),
      (Reg.RING_NEXT 131071, 0xFFFFFFFF), (Reg.RING_DONE 131071, 0xFFFFFFFE)]).slotAddr 131071 0xFFFFFFFF, 0,
      by decide +kernel⟩,
    ⟨on [(Reg.HIU_HOST_STATE_MODE, 0), (Reg.CTX_VALID 0, 1), (Reg.CTX_MODE 0, 2), (ringOwnerField 131071, 0), (Reg.RING_ENABLE
      131071, 1), (Reg.RING_TYPE 131071, 4), (Reg.RING_LOG2_SIZE 131071, 4), (Reg.RING_NEXT 131071, 0xFFFFFFFF), (Reg.RING_DONE
      131071, 0xFFFFFFFE), (Reg.RING_LOST 131071, 3)], 131071, by decide +kernel⟩,
    ⟨on [(Reg.HIU_HOST_STATE_MODE, 0), (Reg.CTX_VALID 0, 1), (Reg.CTX_MODE 0, 2), (ringOwnerField 131071, 0), (Reg.RING_ENABLE
      131071, 1), (Reg.RING_TYPE 131071, 4), (Reg.RING_LOG2_SIZE 131071, 4), (Reg.RING_NEXT 131071, 0xFFFFFFFF), (Reg.RING_DONE
      131071, 0xFFFFFFFE), (Reg.RING_ARMED 131071, 1), (vectorControl 0 0, 0)], 131071, by decide +kernel⟩,
    ⟨on [(Reg.HIU_HOST_STATE_MODE, 0), (Reg.CTX_VALID 0, 1), (Reg.CTX_MODE 0, 2), (ringOwnerField 131071, 0), (Reg.RING_ENABLE
      131071, 1), (Reg.RING_TYPE 131071, 4), (Reg.RING_LOG2_SIZE 131071, 4), (Reg.RING_NEXT 131071, 0xFFFFFFFF), (Reg.RING_DONE
      131071, 0xFFFFFFFE), (Reg.RING_ARMED 131071, 1), (vectorControl 0 0, 0), (cfgMsixOn 0, 1)], 131071, by decide +kernel⟩,
    ⟨on [(Reg.HIU_HOST_STATE_MODE, 0), (Reg.CTX_VALID 0, 1), (Reg.CTX_MODE 0, 2), (ringOwnerField 131071, 0), (Reg.RING_ENABLE
      131071, 1), (Reg.RING_TYPE 131071, 4), (Reg.RING_LOG2_SIZE 131071, 4), (Reg.RING_NEXT 131071, 0xFFFFFFFF), (Reg.RING_DONE
      131071, 0xFFFFFFFE)], 131071, by decide +kernel⟩⟩

theorem witness_StorageCommandsComplete :
    (∃ (s : State) (r : Fin 131072) (k : Taken) (w : List Walk8) (code : Nat) (c : Nat × Instr), s.canon = true ∧ s.running .sie
      = true ∧ s.running .qe = true ∧ s.ringType r = 2 ∧ s.nextSubmit r = some k ∧ c ∈ [(0, Instr.nvmeFlush r), (1, .nvmeWrite r
      none w), (2, .nvmeRead r)] ∧ (beAt k.entry 0 1 = c.1 ∨ 2 < beAt k.entry 0 1) ∧ s.commandCheck k.entry (s.ringFunc r) =
      code ∧ code ≠ 0 ∧ (s.ring r).abandoned = false) ∧
    (∃ (s : State) (r : Fin 131072) (k : Taken) (h : Nat) (c : Nat × Instr), s.canon = true ∧ s.running .sie = true ∧ s.running
      .qe = true ∧ s.ringType r = 2 ∧ s.nextSubmit r = some k ∧ h = leAt k.entry 2 2 ∧ s.commandCheck k.entry (s.ringFunc r) = 0
      ∧ entryIsNs k.entry = true ∧ c ∈ [(0, Instr.nvmeFlush r), (2, .nvmeRead r)] ∧ beAt k.entry 0 1 = c.1) ∧
    (∃ (s : State) (r : Fin 131072) (k : Taken) (h : Nat), s.canon = true ∧ s.running .sie = true ∧ s.running .qe = true ∧
      s.ringType r = 2 ∧ s.nextSubmit r = some k ∧ h = leAt k.entry 2 2 ∧ s.commandCheck k.entry (s.ringFunc r) = 0 ∧ entryIsNs
      k.entry = true ∧ beAt k.entry 0 1 = 1 ∧ s.ringOwner r = some 0 ∧ s.flag (Reg.NS_ENC h) = false ∧ s.direct = true ∧
      s.tagReady = true ∧ onePage (leAt k.entry 16 8) (s.commandLen k.entry) = true ∧ s.commandLen k.entry ≤ s.maxRead) ∧
    (∃ (s : State) (r : Fin 131072) (k : Taken) (w : List Walk8) (h : Nat) (d : Option Bytes) (c : Nat × Instr), s.canon = true
      ∧ s.running .sie = true ∧ s.running .qe = true ∧ s.ringType r = 2 ∧ s.nextSubmit r = some k ∧ h = leAt k.entry 2 2 ∧
      s.commandCheck k.entry (s.ringFunc r) = 0 ∧ entryIsNs k.entry = false ∧ s.connBusy h = false ∧ c ∈ [(0, Instr.nvmeFlush
      r), (1, .nvmeWrite r d w), (2, .nvmeRead r)] ∧ beAt k.entry 0 1 = c.1) ∧
    (∃ (s : State) (cid : BitVec 16) (x : StorCmd), s.canon = true ∧ s.running .sie = true ∧ s.commandOf true 0 cid.toNat = some
      x ∧ x.closed = false ∧ x.xts = none ∧ s.slotState ≠ 6 ∧ (s.ring x.ring).abandoned = false ∧ (s.ring x.ring).taken.any (fun
      k => k.seq == x.seq && !k.done) = true ∧ x.opc ≠ 2) ∧
    (∃ (s : State) (cid : BitVec 16) (x : StorCmd), s.canon = true ∧ s.running .sie = true ∧ s.commandOf true 0 cid.toNat = some
      x ∧ x.closed = false ∧ x.xts = none ∧ s.slotState ≠ 6 ∧ (s.ring x.ring).abandoned = false ∧ (s.ring x.ring).taken.any (fun
      k => k.seq == x.seq && !k.done) = true ∧ x.opc = 2 ∧ s.flag (Reg.NS_ENC x.handle) = false ∧ x.func = 0 ∧ s.direct = true ∧
      0 < x.len ∧ onePage (x.buf + x.moved) x.len = true ∧ x.len ≤ s.maxPayload) ∧
    (∃ (s : State) (cid : BitVec 16) (x : StorCmd), s.canon = true ∧ s.running .sie = true ∧ s.commandOf true 0 cid.toNat = some
      x ∧ x.closed = false ∧ x.xts = none ∧ s.slotState ≠ 6 ∧ (s.ring x.ring).abandoned = false ∧ (s.ring x.ring).taken.any (fun
      k => k.seq == x.seq && !k.done) = true) ∧
    (∃ (s : State) (c : Fin 8192) (cid : BitVec 16) (x : StorCmd), s.canon = true ∧ s.running .sie = true ∧ s.commandOf false c
      cid.toNat = some x ∧ s.pcu.queue = []) :=
  ⟨⟨(onQe (on [(Reg.HIU_HOST_STATE_MODE, 0), (Reg.CTX_VALID 0, 1), (Reg.CTX_MODE 0, 2), (ringOwnerField 131071, 0),
    (Reg.RING_ENABLE 131071, 1), (Reg.RING_TYPE 131071, 2), (Reg.RING_LOG2_SIZE 131071, 4), (Reg.NS_PRESENT 63, 1),
    (Reg.NS_LBA_SHIFT 63, 12), (Reg.NS_FUNC 63, 0), (Reg.NS_VALID 63, 1), (Reg.NS_NSZE 63, 100), (Reg.NS_NSID 63, 9),
    (Reg.SIE_SLOT_STATUS_STATE, 5), (cfgPayload, 2), (cfgReadSize, 5)]) fun x =>
    { x with rings := [(131071, { RingRt.empty with taken := [(⟨7, ([2, 1, 64, 0, 1, 0, 0, 0, 0, 0, 0, 0, 0, 0, 0, 0, 0, 16, 0, 0, 0, 0, 0, 0] ++ zeros 32 ++ [0, 0, 0, 0, 0, 0, 0, 128]), false⟩ : Taken)] })] }),
    131071, (⟨7, ([2, 1, 64, 0, 1, 0, 0, 0, 0, 0, 0, 0, 0, 0, 0, 0, 0, 16, 0, 0, 0, 0, 0, 0] ++ zeros 32 ++ [0, 0, 0, 0, 0, 0,
    0, 128]), false⟩ : Taken), [], 2, (2, Instr.nvmeRead 131071), by decide +kernel⟩,
    ⟨(onQe (on [(Reg.HIU_HOST_STATE_MODE, 0), (Reg.CTX_VALID 0, 1), (Reg.CTX_MODE 0, 2), (ringOwnerField 131071, 0),
      (Reg.RING_ENABLE 131071, 1), (Reg.RING_TYPE 131071, 2), (Reg.RING_LOG2_SIZE 131071, 4), (Reg.NS_PRESENT 63, 1),
      (Reg.NS_LBA_SHIFT 63, 12), (Reg.NS_FUNC 63, 0), (Reg.NS_VALID 63, 1), (Reg.NS_NSZE 63, 100), (Reg.NS_NSID 63, 9),
      (Reg.SIE_SLOT_STATUS_STATE, 5), (cfgPayload, 2), (cfgReadSize, 5)]) fun x =>
      { x with rings := [(131071, { RingRt.empty with taken := [(⟨7, ([2, 1, 63, 0, 1, 0, 0, 0, 99, 0, 0, 0, 0, 0, 0, 0, 0, 16, 0, 0, 0, 0, 0, 0] ++ zeros 32 ++ [0, 0, 0, 0, 0, 0, 0, 128]), false⟩ : Taken)] })] }),
      131071, (⟨7, ([2, 1, 63, 0, 1, 0, 0, 0, 99, 0, 0, 0, 0, 0, 0, 0, 0, 16, 0, 0, 0, 0, 0, 0] ++ zeros 32 ++ [0, 0, 0, 0, 0,
      0, 0, 128]), false⟩ : Taken), 63, (2, Instr.nvmeRead 131071), by decide +kernel⟩,
    ⟨(onQe (on [(Reg.HIU_HOST_STATE_MODE, 0), (Reg.CTX_VALID 0, 1), (Reg.CTX_MODE 0, 2), (ringOwnerField 131071, 0),
      (Reg.RING_ENABLE 131071, 1), (Reg.RING_TYPE 131071, 2), (Reg.RING_LOG2_SIZE 131071, 4), (Reg.NS_PRESENT 63, 1),
      (Reg.NS_LBA_SHIFT 63, 12), (Reg.NS_FUNC 63, 0), (Reg.NS_VALID 63, 1), (Reg.NS_NSZE 63, 100), (Reg.NS_NSID 63, 9),
      (Reg.SIE_SLOT_STATUS_STATE, 5), (cfgPayload, 2), (cfgReadSize, 5)]) fun x =>
      { x with rings := [(131071, { RingRt.empty with taken := [(⟨7, ([1, 1, 63, 0, 1, 0, 0, 0, 99, 0, 0, 0, 0, 0, 0, 0, 0, 16, 0, 0, 0, 0, 0, 0] ++ zeros 32 ++ [0, 0, 0, 0, 0, 0, 0, 128]), false⟩ : Taken)] })] }),
      131071, (⟨7, ([1, 1, 63, 0, 1, 0, 0, 0, 99, 0, 0, 0, 0, 0, 0, 0, 0, 16, 0, 0, 0, 0, 0, 0] ++ zeros 32 ++ [0, 0, 0, 0, 0,
      0, 0, 128]), false⟩ : Taken), 63, by decide +kernel⟩,
    ⟨(onQe (on [(Reg.HIU_HOST_STATE_MODE, 0), (Reg.CTX_VALID 0, 1), (Reg.CTX_MODE 0, 2), (ringOwnerField 131071, 0),
      (Reg.RING_ENABLE 131071, 1), (Reg.RING_TYPE 131071, 2), (Reg.RING_LOG2_SIZE 131071, 4), (Reg.CONN_STATE 8191, 3),
      (Reg.CONN_LBA_SHIFT 8191, 9), (Reg.CONN_QSIZE 8191, 128), (Reg.CONN_QID 8191, 1), (Reg.CONN_MSS 8191, 1448), (cfgPayload,
      2), (cfgReadSize, 5)]) fun x =>
      { x with rings := [(131071, { RingRt.empty with taken := [(⟨7, ([1, 0, 255, 31, 1, 0, 0, 0, 0, 0, 0, 0, 0, 0, 0, 0, 0, 16, 0, 0, 0, 0, 0, 0] ++ zeros 32 ++ [0, 0, 0, 0, 0, 0, 0, 128]), false⟩ : Taken)] })] }),
      131071, (⟨7, ([1, 0, 255, 31, 1, 0, 0, 0, 0, 0, 0, 0, 0, 0, 0, 0, 0, 16, 0, 0, 0, 0, 0, 0] ++ zeros 32 ++ [0, 0, 0, 0, 0,
      0, 0, 128]), false⟩ : Taken), [], 8191, some (zeros 512), (1, Instr.nvmeWrite 131071 (some (zeros 512)) []),
      by decide +kernel⟩,
    ⟨(onSie (onQe (on [(Reg.HIU_HOST_STATE_MODE, 0), (Reg.CTX_VALID 0, 1), (Reg.CTX_MODE 0, 2), (ringOwnerField 131071, 0),
      (Reg.RING_ENABLE 131071, 1), (Reg.RING_TYPE 131071, 2), (Reg.RING_LOG2_SIZE 131071, 4), (Reg.NS_PRESENT 63, 1),
      (Reg.NS_LBA_SHIFT 63, 12), (Reg.NS_FUNC 63, 0), (Reg.NS_VALID 63, 1), (Reg.NS_NSZE 63, 100), (Reg.NS_NSID 63, 9),
      (Reg.SIE_SLOT_STATUS_STATE, 5), (cfgPayload, 2), (cfgReadSize, 5)]) fun x =>
      { x with rings := [(131071, { RingRt.empty with taken := [(⟨7, ([0, 1, 63, 0, 1, 0, 0, 0, 0, 0, 0, 0, 0, 0, 0, 0, 0, 16, 0, 0, 0, 0, 0, 0] ++ zeros 32 ++ [0, 0, 0, 0, 0, 0, 0, 128]), false⟩ : Taken)] })] })
      fun x => { x with commands := [(⟨131071, 7, true, 63, 0, 0, 0, 1, 4096, 0, 0, false, 0, none⟩ : StorCmd)] }), 0, (⟨131071,
      7, true, 63, 0, 0, 0, 1, 4096, 0, 0, false, 0, none⟩ : StorCmd), by decide +kernel⟩,
    ⟨(onSie (onQe (on [(Reg.HIU_HOST_STATE_MODE, 0), (Reg.CTX_VALID 0, 1), (Reg.CTX_MODE 0, 2), (ringOwnerField 131071, 0),
      (Reg.RING_ENABLE 131071, 1), (Reg.RING_TYPE 131071, 2), (Reg.RING_LOG2_SIZE 131071, 4), (Reg.NS_PRESENT 63, 1),
      (Reg.NS_LBA_SHIFT 63, 12), (Reg.NS_FUNC 63, 0), (Reg.NS_VALID 63, 1), (Reg.NS_NSZE 63, 100), (Reg.NS_NSID 63, 9),
      (Reg.SIE_SLOT_STATUS_STATE, 5), (cfgPayload, 2), (cfgReadSize, 5)]) fun x =>
      { x with rings := [(131071, { RingRt.empty with taken := [(⟨7, ([2, 1, 63, 0, 1, 0, 0, 0, 99, 0, 0, 0, 0, 0, 0, 0, 0, 16, 0, 0, 0, 0, 0, 0] ++ zeros 32 ++ [0, 0, 0, 0, 0, 0, 0, 128]), false⟩ : Taken)] })] })
      fun x => { x with commands := [(⟨131071, 7, true, 63, 0, 2, 0, 1, 4096, 512, 0, false, 0, none⟩ : StorCmd)] }), 0,
      (⟨131071, 7, true, 63, 0, 2, 0, 1, 4096, 512, 0, false, 0, none⟩ : StorCmd), by decide +kernel⟩,
    ⟨(onSie (onQe (on [(Reg.HIU_HOST_STATE_MODE, 0), (Reg.CTX_VALID 0, 1), (Reg.CTX_MODE 0, 2), (ringOwnerField 131071, 0),
      (Reg.RING_ENABLE 131071, 1), (Reg.RING_TYPE 131071, 2), (Reg.RING_LOG2_SIZE 131071, 4), (Reg.NS_PRESENT 63, 1),
      (Reg.NS_LBA_SHIFT 63, 12), (Reg.NS_FUNC 63, 0), (Reg.NS_VALID 63, 1), (Reg.NS_NSZE 63, 100), (Reg.NS_NSID 63, 9),
      (Reg.SIE_SLOT_STATUS_STATE, 5), (cfgPayload, 2), (cfgReadSize, 5)]) fun x =>
      { x with rings := [(131071, { RingRt.empty with taken := [(⟨7, ([0, 1, 63, 0, 1, 0, 0, 0, 0, 0, 0, 0, 0, 0, 0, 0, 0, 16, 0, 0, 0, 0, 0, 0] ++ zeros 32 ++ [0, 0, 0, 0, 0, 0, 0, 128]), false⟩ : Taken)] })] })
      fun x => { x with commands := [(⟨131071, 7, true, 63, 0, 0, 0, 1, 4096, 0, 0, false, 0, none⟩ : StorCmd)] }), 0, (⟨131071,
      7, true, 63, 0, 0, 0, 1, 4096, 0, 0, false, 0, none⟩ : StorCmd), by decide +kernel⟩,
    ⟨(onSie (onQe (on [(Reg.HIU_HOST_STATE_MODE, 0), (Reg.CTX_VALID 0, 1), (Reg.CTX_MODE 0, 2), (ringOwnerField 131071, 0),
      (Reg.RING_ENABLE 131071, 1), (Reg.RING_TYPE 131071, 2), (Reg.RING_LOG2_SIZE 131071, 4), (Reg.CONN_STATE 8191, 3),
      (Reg.CONN_LBA_SHIFT 8191, 9), (Reg.CONN_QSIZE 8191, 128), (Reg.CONN_QID 8191, 1), (Reg.CONN_MSS 8191, 1448), (cfgPayload,
      2), (cfgReadSize, 5)]) fun x =>
      { x with rings := [(131071, { RingRt.empty with taken := [(⟨7, ([0, 0, 255, 31, 1, 0, 0, 0, 0, 0, 0, 0, 0, 0, 0, 0, 0, 16, 0, 0, 0, 0, 0, 0] ++ zeros 32 ++ [0, 0, 0, 0, 0, 0, 0, 128]), false⟩ : Taken)] })] })
      fun x =>
      { x with commands := [(⟨131071, 7, false, 8191, 127, 0, 0, 1, 4096, 0, 0, false, 0, none⟩ : StorCmd)], conns := [(8191, ({ una := 5, nxt := 5, buf := [], syn := false, fin := false, peerFin := false, rcv := 9, tsRecent := 3, wnd := 1000, scale := 1, mss := 1436, cwnd := 14360, ssthresh := 65535, dups := 0, recover := none, timeouts := 0, finSent := false, hdgst := false, ddgst := false, cpda := 0, connecting := false } : ConnRt))] }),
      8191, 127, (⟨131071, 7, false, 8191, 127, 0, 0, 1, 4096, 0, 0, false, 0, none⟩ : StorCmd), by decide +kernel⟩⟩

theorem witness_ConnectionCommandsComplete :
    (∃ (s : State) (q : Requester) (c : Fin 8192), s.canon = true ∧ s.mayWrite q Reg.SIE_CONN_CMD_OP.key = true ∧ s.running .sie
      = true ∧ s.pcu.queue = [] ∧ (s.get (Reg.CONN_STATE c) = 0 ∨ s.get (Reg.CONN_STATE c) = 5) ∧ s.badConn c = false) ∧
    (∃ (s : State) (q : Requester) (c : Fin 8192), s.canon = true ∧ s.mayWrite q Reg.SIE_CONN_CMD_OP.key = true ∧ s.running .sie
      = true ∧ s.pcu.queue = [] ∧ (s.get (Reg.CONN_STATE c) = 0 ∨ s.get (Reg.CONN_STATE c) = 5) ∧ s.badConn c = true) ∧
    (∃ (s : State) (q : Requester) (c : Fin 8192), s.canon = true ∧ s.mayWrite q Reg.SIE_CONN_CMD_OP.key = true ∧ s.running .sie
      = true ∧ s.pcu.queue = [] ∧ 1 ≤ s.get (Reg.CONN_STATE c) ∧ s.get (Reg.CONN_STATE c) ≤ 4) ∧
    (∃ (s : State) (q : Requester) (c : Fin 8192), s.canon = true ∧ s.mayWrite q Reg.SIE_CONN_CMD_OP.key = true ∧ s.running .sie
      = true ∧ s.pcu.queue = [] ∧ s.get (Reg.CONN_STATE c) = 1) ∧
    (∃ (s : State) (q : Requester) (c : Fin 8192), s.canon = true ∧ s.mayWrite q Reg.SIE_CONN_CMD_OP.key = true ∧ s.running .sie
      = true ∧ s.pcu.queue = [] ∧ 2 ≤ s.get (Reg.CONN_STATE c) ∧ s.get (Reg.CONN_STATE c) ≤ 3 ∧ s.sie.commands.any (fun m =>
      !m.ns && m.handle == c.val) = true) ∧
    (∃ (s : State) (q : Requester) (c : Fin 8192) (x : ConnRt), s.canon = true ∧ s.mayWrite q Reg.SIE_CONN_CMD_OP.key = true ∧
      s.running .sie = true ∧ s.pcu.queue = [] ∧ 2 ≤ s.get (Reg.CONN_STATE c) ∧ s.get (Reg.CONN_STATE c) ≤ 3 ∧
      s.sie.commands.any (fun m => !m.ns && m.handle == c.val) = false ∧ s.conn? c = some x ∧ x.syn = false ∧ x.fin = false ∧
      x.finSent = false ∧ x.buf = [] ∧ x.flight = 0) ∧
    (∃ (s : State) (q : Requester) (c : Fin 8192), s.canon = true ∧ s.mayWrite q Reg.SIE_CONN_CMD_OP.key = true ∧ s.running .sie
      = true ∧ s.pcu.queue = [] ∧ 1 ≤ s.get (Reg.CONN_STATE c) ∧ s.get (Reg.CONN_STATE c) ≤ 4) ∧
    (∃ (s : State) (c : Fin 8192), s.canon = true ∧ s.connectWaits c = true) ∧
    (∃ (s : State) (c : Fin 8192) (v : BitVec 16), s.canon = true ∧ s.connectWaits c = true ∧ v ≠ 0) ∧
    (∃ (s : State) (c : Fin 8192) (x : ConnRt) (seq : Word), s.canon = true ∧ s.conn? c = some x ∧ s.running .sie = true ∧ x.syn
      = false ∧ (seq.toNat + 2 ^ 32 - x.rcv) % 2 ^ 32 < 2 ^ (s.get (Reg.CONN_RCV_WND_LOG2 c) + 16)) ∧
    (∃ (s : State) (c : Fin 8192) (x : ConnRt) (seq : Word), s.canon = true ∧ s.conn? c = some x ∧ s.running .sie = true ∧ x.syn
      = false ∧ 2 ^ (s.get (Reg.CONN_RCV_WND_LOG2 c) + 16) ≤ (seq.toNat + 2 ^ 32 - x.rcv) % 2 ^ 32) ∧
    (∃ (s : State) (q : Requester) (c : Fin 8192) (w : Fin 16), s.canon = true ∧ isManager q = true ∧ s.served q = true ∧
      s.shows 0x0D100000 = true ∧ 2 ≤ w.val ∧ w.val ≤ 9 ∧ s.get (Reg.CONN_STATE c) = 0) ∧
    (∃ (s : State) (q : Requester) (c : Fin 8192) (w : Fin 16), s.canon = true ∧ isManager q = true ∧ s.served q = true ∧
      s.shows 0x0D100000 = true ∧ 2 ≤ w.val ∧ w.val ≤ 9 ∧ s.get (Reg.CONN_STATE c) ≠ 0) ∧
    (∃ (s : State) (q : Requester) (n : Fin 64), s.canon = true ∧ isManager q = true ∧ s.served q = true ∧ s.shows 0x0D100000 =
      true ∧ ((s.flag (Reg.NS_VALID n) = false ∨ s.slotState ≠ 5))) ∧
    (∃ (s : State) (q : Requester) (n : Fin 64), s.canon = true ∧ isManager q = true ∧ s.served q = true ∧ s.shows 0x0D100000 =
      true ∧ s.flag (Reg.NS_VALID n) = true ∧ s.slotState = 5) :=
  ⟨⟨(onSie (on [(Reg.CONN_STATE 8191, 5), (Reg.CONN_LBA_SHIFT 8191, 9), (Reg.CONN_QSIZE 8191, 128), (Reg.CONN_QID 8191, 1),
    (Reg.CONN_MSS 8191, 1448), (cfgPayload, 2), (cfgReadSize, 5)]) fun x => { x with commands := [] }), .pf0, 8191,
    by decide +kernel⟩,
    ⟨(onSie (on [(Reg.CONN_STATE 8191, 0), (Reg.CONN_LBA_SHIFT 8191, 9), (Reg.CONN_QSIZE 8191, 128), (Reg.CONN_QID 8191, 1),
      (Reg.CONN_MSS 8191, 1448), (cfgPayload, 2), (cfgReadSize, 5), (Reg.CONN_QSIZE 8191, 129)]) fun x =>
      { x with commands := [] }), .pf0, 8191, by decide +kernel⟩,
    ⟨(onSie (on [(Reg.CONN_STATE 8191, 4), (Reg.CONN_LBA_SHIFT 8191, 9), (Reg.CONN_QSIZE 8191, 128), (Reg.CONN_QID 8191, 1),
      (Reg.CONN_MSS 8191, 1448), (cfgPayload, 2), (cfgReadSize, 5)]) fun x => { x with commands := [] }), .pf0, 8191,
      by decide +kernel⟩,
    ⟨(onSie (on [(Reg.CONN_STATE 8191, 1), (Reg.CONN_LBA_SHIFT 8191, 9), (Reg.CONN_QSIZE 8191, 128), (Reg.CONN_QID 8191, 1),
      (Reg.CONN_MSS 8191, 1448), (cfgPayload, 2), (cfgReadSize, 5)]) fun x =>
      { x with commands := [], conns := [(8191, ({ una := 5, nxt := 5, buf := [], syn := true, fin := false, peerFin := false, rcv := 9, tsRecent := 3, wnd := 1000, scale := 1, mss := 1436, cwnd := 14360, ssthresh := 65535, dups := 0, recover := none, timeouts := 0, finSent := false, hdgst := false, ddgst := false, cpda := 0, connecting := false } : ConnRt))] }),
      .pf0, 8191, by decide +kernel⟩,
    ⟨(onSie (on [(Reg.CONN_STATE 8191, 3), (Reg.CONN_LBA_SHIFT 8191, 9), (Reg.CONN_QSIZE 8191, 128), (Reg.CONN_QID 8191, 1),
      (Reg.CONN_MSS 8191, 1448), (cfgPayload, 2), (cfgReadSize, 5)]) fun x =>
      { x with commands := [(⟨131071, 7, false, 8191, 0, 0, 0, 1, 4096, 0, 0, false, 0, none⟩ : StorCmd)], conns := [(8191, ({ una := 5, nxt := 5, buf := [], syn := false, fin := false, peerFin := false, rcv := 9, tsRecent := 3, wnd := 1000, scale := 1, mss := 1436, cwnd := 14360, ssthresh := 65535, dups := 0, recover := none, timeouts := 0, finSent := false, hdgst := false, ddgst := false, cpda := 0, connecting := false } : ConnRt))] }),
      .pf0, 8191, by decide +kernel⟩,
    ⟨(onSie (on [(Reg.CONN_STATE 8191, 2), (Reg.CONN_LBA_SHIFT 8191, 9), (Reg.CONN_QSIZE 8191, 128), (Reg.CONN_QID 8191, 1),
      (Reg.CONN_MSS 8191, 1448), (cfgPayload, 2), (cfgReadSize, 5)]) fun x =>
      { x with commands := [], conns := [(8191, ({ una := 5, nxt := 5, buf := [], syn := false, fin := false, peerFin := false, rcv := 9, tsRecent := 3, wnd := 1000, scale := 1, mss := 1436, cwnd := 14360, ssthresh := 65535, dups := 0, recover := none, timeouts := 0, finSent := false, hdgst := false, ddgst := false, cpda := 0, connecting := false } : ConnRt))] }),
      .pf0, 8191,
      ({ una := 5, nxt := 5, buf := [], syn := false, fin := false, peerFin := false, rcv := 9, tsRecent := 3, wnd := 1000, scale := 1, mss := 1436, cwnd := 14360, ssthresh := 65535, dups := 0, recover := none, timeouts := 0, finSent := false, hdgst := false, ddgst := false, cpda := 0, connecting := false }
      : ConnRt), by decide +kernel⟩,
    ⟨(onSie (on [(Reg.CONN_STATE 8191, 4), (Reg.CONN_LBA_SHIFT 8191, 9), (Reg.CONN_QSIZE 8191, 128), (Reg.CONN_QID 8191, 1),
      (Reg.CONN_MSS 8191, 1448), (cfgPayload, 2), (cfgReadSize, 5)]) fun x =>
      { x with commands := [(⟨131071, 7, false, 8191, 0, 0, 0, 1, 4096, 0, 0, false, 0, none⟩ : StorCmd), (⟨131071, 7, true, 63, 0, 0, 0, 1, 4096, 0, 0, false, 0, none⟩ : StorCmd)], conns := [(8191, ({ una := 5, nxt := 5, buf := [], syn := false, fin := false, peerFin := false, rcv := 9, tsRecent := 3, wnd := 1000, scale := 1, mss := 1436, cwnd := 14360, ssthresh := 65535, dups := 0, recover := none, timeouts := 0, finSent := false, hdgst := false, ddgst := false, cpda := 0, connecting := false } : ConnRt))] }),
      .pf0, 8191, by decide +kernel⟩,
    ⟨(onSie (on [(Reg.CONN_STATE 8191, 2), (Reg.CONN_LBA_SHIFT 8191, 9), (Reg.CONN_QSIZE 8191, 128), (Reg.CONN_QID 8191, 1),
      (Reg.CONN_MSS 8191, 1448), (cfgPayload, 2), (cfgReadSize, 5)]) fun x =>
      { x with commands := [], conns := [(8191, ({ una := 5, nxt := 5, buf := [], syn := false, fin := false, peerFin := false, rcv := 9, tsRecent := 3, wnd := 1000, scale := 1, mss := 1436, cwnd := 14360, ssthresh := 65535, dups := 0, recover := none, timeouts := 0, finSent := false, hdgst := false, ddgst := false, cpda := 0, connecting := true } : ConnRt))] }),
      8191, by decide +kernel⟩,
    ⟨(onSie (on [(Reg.CONN_STATE 8191, 2), (Reg.CONN_LBA_SHIFT 8191, 9), (Reg.CONN_QSIZE 8191, 128), (Reg.CONN_QID 8191, 1),
      (Reg.CONN_MSS 8191, 1448), (cfgPayload, 2), (cfgReadSize, 5)]) fun x =>
      { x with commands := [], conns := [(8191, ({ una := 5, nxt := 5, buf := [], syn := false, fin := false, peerFin := false, rcv := 9, tsRecent := 3, wnd := 1000, scale := 1, mss := 1436, cwnd := 14360, ssthresh := 65535, dups := 0, recover := none, timeouts := 0, finSent := false, hdgst := false, ddgst := false, cpda := 0, connecting := true } : ConnRt))] }),
      8191, 0xFFFF, by decide +kernel⟩,
    ⟨(onSie (on [(Reg.CONN_STATE 8191, 3), (Reg.CONN_LBA_SHIFT 8191, 9), (Reg.CONN_QSIZE 8191, 128), (Reg.CONN_QID 8191, 1),
      (Reg.CONN_MSS 8191, 1448), (cfgPayload, 2), (cfgReadSize, 5)]) fun x =>
      { x with commands := [], conns := [(8191, ({ una := 5, nxt := 5, buf := [], syn := false, fin := false, peerFin := false, rcv := 4294967295, tsRecent := 3, wnd := 1000, scale := 1, mss := 1436, cwnd := 14360, ssthresh := 65535, dups := 0, recover := none, timeouts := 0, finSent := false, hdgst := false, ddgst := false, cpda := 0, connecting := false } : ConnRt))] }),
      8191,
      ({ una := 5, nxt := 5, buf := [], syn := false, fin := false, peerFin := false, rcv := 4294967295, tsRecent := 3, wnd := 1000, scale := 1, mss := 1436, cwnd := 14360, ssthresh := 65535, dups := 0, recover := none, timeouts := 0, finSent := false, hdgst := false, ddgst := false, cpda := 0, connecting := false }
      : ConnRt), 65534, by decide +kernel⟩,
    ⟨(onSie (on [(Reg.CONN_STATE 8191, 3), (Reg.CONN_LBA_SHIFT 8191, 9), (Reg.CONN_QSIZE 8191, 128), (Reg.CONN_QID 8191, 1),
      (Reg.CONN_MSS 8191, 1448), (cfgPayload, 2), (cfgReadSize, 5)]) fun x =>
      { x with commands := [], conns := [(8191, ({ una := 5, nxt := 5, buf := [], syn := false, fin := false, peerFin := false, rcv := 4294967295, tsRecent := 3, wnd := 1000, scale := 1, mss := 1436, cwnd := 14360, ssthresh := 65535, dups := 0, recover := none, timeouts := 0, finSent := false, hdgst := false, ddgst := false, cpda := 0, connecting := false } : ConnRt))] }),
      8191,
      ({ una := 5, nxt := 5, buf := [], syn := false, fin := false, peerFin := false, rcv := 4294967295, tsRecent := 3, wnd := 1000, scale := 1, mss := 1436, cwnd := 14360, ssthresh := 65535, dups := 0, recover := none, timeouts := 0, finSent := false, hdgst := false, ddgst := false, cpda := 0, connecting := false }
      : ConnRt), 65535, by decide +kernel⟩,
    ⟨(onSie (on [(Reg.CONN_STATE 8191, 0), (Reg.CONN_LBA_SHIFT 8191, 9), (Reg.CONN_QSIZE 8191, 128), (Reg.CONN_QID 8191, 1),
      (Reg.CONN_MSS 8191, 1448), (cfgPayload, 2), (cfgReadSize, 5)]) fun x => { x with commands := [] }), .pf0, 8191, 9,
      by decide +kernel⟩,
    ⟨(onSie (on [(Reg.CONN_STATE 8191, 5), (Reg.CONN_LBA_SHIFT 8191, 9), (Reg.CONN_QSIZE 8191, 128), (Reg.CONN_QID 8191, 1),
      (Reg.CONN_MSS 8191, 1448), (cfgPayload, 2), (cfgReadSize, 5)]) fun x => { x with commands := [] }), .pf0, 8191, 2,
      by decide +kernel⟩,
    ⟨(onSie (on [(Reg.CONN_STATE 8191, 0), (Reg.CONN_LBA_SHIFT 8191, 9), (Reg.CONN_QSIZE 8191, 128), (Reg.CONN_QID 8191, 1),
      (Reg.CONN_MSS 8191, 1448), (cfgPayload, 2), (cfgReadSize, 5), (Reg.NS_VALID 63, 1), (Reg.SIE_SLOT_STATUS_STATE, 4)]) fun x
      => { x with commands := [] }), .pf0, 63, by decide +kernel⟩,
    ⟨(onSie (on [(Reg.CONN_STATE 8191, 0), (Reg.CONN_LBA_SHIFT 8191, 9), (Reg.CONN_QSIZE 8191, 128), (Reg.CONN_QID 8191, 1),
      (Reg.CONN_MSS 8191, 1448), (cfgPayload, 2), (cfgReadSize, 5), (Reg.NS_VALID 63, 1), (Reg.SIE_SLOT_STATUS_STATE, 5)]) fun x
      => { x with commands := [] }), .pf0, 63, by decide +kernel⟩⟩

theorem witness_TransportCommandsComplete :
    (∃ (s : State) (c : Fin 8192) (x : ConnRt) (m : TcpSegment) (ts : Nat), s.canon = true ∧ s.running .sie = true ∧ s.conn? c =
      some x ∧ m.ts = some ts ∧ s.get (Reg.CONN_STATE c) = 1 ∧ m.syn = true ∧ m.ack = x.nxt ∧ s.pcu.queue = []) ∧
    (∃ (s : State) (c : Fin 8192) (x : ConnRt) (m : TcpSegment) (ts : Nat), s.canon = true ∧ s.running .sie = true ∧ s.conn? c =
      some x ∧ m.ts = some ts ∧ s.get (Reg.CONN_STATE c) ≠ 1 ∧ serialNewer 32 x.tsRecent ts = false ∧ m.seq = x.rcv ∧ m.payload
      ≠ [] ∧ m.fin = false ∧ (m.ack + 2 ^ 32 - x.una) % 2 ^ 32 = 0 ∧ x.fin = false) ∧
    (∃ (s : State) (c : Fin 8192) (x : ConnRt), s.canon = true ∧ s.running .sie = true ∧ s.conn? c = some x ∧ x.flight ≠ 0 ∧
      s.pcu.queue = [] ∧ x.timeouts < 11) ∧
    (∃ (s : State) (c : Fin 8192) (x : ConnRt), s.canon = true ∧ s.running .sie = true ∧ s.conn? c = some x ∧ x.flight ≠ 0 ∧
      s.pcu.queue = [] ∧ x.timeouts = 11) ∧
    (∃ (s : State) (c : Fin 8192) (x : ConnRt) (m : IcResp), s.canon = true ∧ s.running .sie = true ∧ s.conn? c = some x ∧ s.get
      (Reg.CONN_STATE c) = 2 ∧ x.connecting = false ∧ m.good = true ∧ ((m.hdgst = true → s.flag (Reg.CONN_HDGST c) = true)) ∧
      ((m.ddgst = true → s.flag (Reg.CONN_DDGST c) = true))) ∧
    (∃ (s : State) (c : Fin 8192) (x : ConnRt) (m : IcResp), s.canon = true ∧ s.running .sie = true ∧ s.conn? c = some x ∧ s.get
      (Reg.CONN_STATE c) = 2 ∧ x.connecting = false ∧ m.good = false) ∧
    (∃ (s : State) (c : Fin 8192), s.canon = true ∧ s.running .sie = true ∧ 2 ≤ s.get (Reg.CONN_STATE c) ∧ s.get (Reg.CONN_STATE
      c) ≤ 4) ∧
    (∃ (s : State) (c : Fin 8192) (cid : BitVec 16) (x : StorCmd), s.canon = true ∧ s.running .sie = true ∧ s.get
      (Reg.CONN_STATE c) = 3 ∧ s.commandOf false c cid.toNat = some x ∧ x.closed = false ∧ (s.ring x.ring).abandoned = false ∧
      (s.ring x.ring).taken.any (fun k => k.seq == x.seq && !k.done) = true) ∧
    (∃ (s : State) (c : Fin 8192) (cid : BitVec 16) (x : StorCmd) (off : Nat) (l : Bytes), s.canon = true ∧ s.running .sie =
      true ∧ s.get (Reg.CONN_STATE c) = 3 ∧ s.commandOf false c cid.toNat = some x ∧ x.closed = false ∧ x.func = 0 ∧ s.direct =
      true ∧ x.opc = 2 ∧ off + l.length ≤ x.len ∧ l ≠ [] ∧ onePage (x.buf + off) l.length = true ∧ l.length ≤ s.maxPayload) ∧
    (∃ (s : State) (c : Fin 8192) (cid : BitVec 16) (x : StorCmd) (off : Nat) (len : Nat), s.canon = true ∧ s.running .sie =
      true ∧ s.get (Reg.CONN_STATE c) = 3 ∧ s.commandOf false c cid.toNat = some x ∧ x.closed = false ∧ x.func = 0 ∧ s.direct =
      true ∧ x.opc = 1 ∧ off + len ≤ x.len ∧ 0 < len ∧ onePage (x.buf + off) len = true ∧ len ≤ s.maxRead ∧ s.tagReady = true)
      :=
  ⟨⟨(onSie (on [(Reg.CONN_STATE 8191, 1), (Reg.CONN_LBA_SHIFT 8191, 9), (Reg.CONN_QSIZE 8191, 128), (Reg.CONN_QID 8191, 1),
    (Reg.CONN_MSS 8191, 1448), (cfgPayload, 2), (cfgReadSize, 5)]) fun x =>
    { x with commands := [], conns := [(8191, ({ una := 4294967295, nxt := 0, buf := [], syn := true, fin := false, peerFin := false, rcv := 9, tsRecent := 3, wnd := 1000, scale := 1, mss := 1436, cwnd := 14360, ssthresh := 65535, dups := 0, recover := none, timeouts := 0, finSent := false, hdgst := false, ddgst := false, cpda := 0, connecting := false } : ConnRt))] }),
    8191,
    ({ una := 4294967295, nxt := 0, buf := [], syn := true, fin := false, peerFin := false, rcv := 9, tsRecent := 3, wnd := 1000, scale := 1, mss := 1436, cwnd := 14360, ssthresh := 65535, dups := 0, recover := none, timeouts := 0, finSent := false, hdgst := false, ddgst := false, cpda := 0, connecting := false }
    : ConnRt),
    ({ seq := 4294967295, ack := 0, window := 65535, syn := true, fin := false, ts := some 4, mss := 1448, scale := 0, payload := [] }
    : TcpSegment), 4, by decide +kernel⟩,
    ⟨(onSie (on [(Reg.CONN_STATE 8191, 3), (Reg.CONN_LBA_SHIFT 8191, 9), (Reg.CONN_QSIZE 8191, 128), (Reg.CONN_QID 8191, 1),
      (Reg.CONN_MSS 8191, 1448), (cfgPayload, 2), (cfgReadSize, 5)]) fun x =>
      { x with commands := [], conns := [(8191, ({ una := 5, nxt := 5, buf := [], syn := false, fin := false, peerFin := false, rcv := 4294967295, tsRecent := 3, wnd := 1000, scale := 1, mss := 1436, cwnd := 14360, ssthresh := 65535, dups := 0, recover := none, timeouts := 0, finSent := false, hdgst := false, ddgst := false, cpda := 0, connecting := false } : ConnRt))] }),
      8191,
      ({ una := 5, nxt := 5, buf := [], syn := false, fin := false, peerFin := false, rcv := 4294967295, tsRecent := 3, wnd := 1000, scale := 1, mss := 1436, cwnd := 14360, ssthresh := 65535, dups := 0, recover := none, timeouts := 0, finSent := false, hdgst := false, ddgst := false, cpda := 0, connecting := false }
      : ConnRt),
      ({ seq := 4294967295, ack := 5, window := 65535, syn := false, fin := false, ts := some 4, mss := 1448, scale := 0, payload := [2] }
      : TcpSegment), 4, by decide +kernel⟩,
    ⟨(onSie (on [(Reg.CONN_STATE 8191, 3), (Reg.CONN_LBA_SHIFT 8191, 9), (Reg.CONN_QSIZE 8191, 128), (Reg.CONN_QID 8191, 1),
      (Reg.CONN_MSS 8191, 1448), (cfgPayload, 2), (cfgReadSize, 5)]) fun x =>
      { x with commands := [], conns := [(8191, ({ una := 5, nxt := 15, buf := zeros 10, syn := false, fin := false, peerFin := false, rcv := 9, tsRecent := 3, wnd := 1000, scale := 1, mss := 1436, cwnd := 14360, ssthresh := 65535, dups := 0, recover := none, timeouts := 10, finSent := false, hdgst := false, ddgst := false, cpda := 0, connecting := false } : ConnRt))] }),
      8191,
      ({ una := 5, nxt := 15, buf := zeros 10, syn := false, fin := false, peerFin := false, rcv := 9, tsRecent := 3, wnd := 1000, scale := 1, mss := 1436, cwnd := 14360, ssthresh := 65535, dups := 0, recover := none, timeouts := 10, finSent := false, hdgst := false, ddgst := false, cpda := 0, connecting := false }
      : ConnRt), by decide +kernel⟩,
    ⟨(onSie (on [(Reg.CONN_STATE 8191, 3), (Reg.CONN_LBA_SHIFT 8191, 9), (Reg.CONN_QSIZE 8191, 128), (Reg.CONN_QID 8191, 1),
      (Reg.CONN_MSS 8191, 1448), (cfgPayload, 2), (cfgReadSize, 5)]) fun x =>
      { x with commands := [], conns := [(8191, ({ una := 5, nxt := 15, buf := zeros 10, syn := false, fin := false, peerFin := false, rcv := 9, tsRecent := 3, wnd := 1000, scale := 1, mss := 1436, cwnd := 14360, ssthresh := 65535, dups := 0, recover := none, timeouts := 11, finSent := false, hdgst := false, ddgst := false, cpda := 0, connecting := false } : ConnRt))] }),
      8191,
      ({ una := 5, nxt := 15, buf := zeros 10, syn := false, fin := false, peerFin := false, rcv := 9, tsRecent := 3, wnd := 1000, scale := 1, mss := 1436, cwnd := 14360, ssthresh := 65535, dups := 0, recover := none, timeouts := 11, finSent := false, hdgst := false, ddgst := false, cpda := 0, connecting := false }
      : ConnRt), by decide +kernel⟩,
    ⟨(onSie (on [(Reg.CONN_STATE 8191, 2), (Reg.CONN_LBA_SHIFT 8191, 9), (Reg.CONN_QSIZE 8191, 128), (Reg.CONN_QID 8191, 1),
      (Reg.CONN_MSS 8191, 1448), (cfgPayload, 2), (cfgReadSize, 5), (Reg.CONN_HDGST 8191, 1)]) fun x =>
      { x with commands := [], conns := [(8191, ({ una := 5, nxt := 5, buf := [], syn := false, fin := false, peerFin := false, rcv := 9, tsRecent := 3, wnd := 1000, scale := 1, mss := 1436, cwnd := 14360, ssthresh := 65535, dups := 0, recover := none, timeouts := 0, finSent := false, hdgst := false, ddgst := false, cpda := 0, connecting := false } : ConnRt))] }),
      8191,
      ({ una := 5, nxt := 5, buf := [], syn := false, fin := false, peerFin := false, rcv := 9, tsRecent := 3, wnd := 1000, scale := 1, mss := 1436, cwnd := 14360, ssthresh := 65535, dups := 0, recover := none, timeouts := 0, finSent := false, hdgst := false, ddgst := false, cpda := 0, connecting := false }
      : ConnRt), ⟨true, 3, true, false⟩, by decide +kernel⟩,
    ⟨(onSie (on [(Reg.CONN_STATE 8191, 2), (Reg.CONN_LBA_SHIFT 8191, 9), (Reg.CONN_QSIZE 8191, 128), (Reg.CONN_QID 8191, 1),
      (Reg.CONN_MSS 8191, 1448), (cfgPayload, 2), (cfgReadSize, 5)]) fun x =>
      { x with commands := [], conns := [(8191, ({ una := 5, nxt := 5, buf := [], syn := false, fin := false, peerFin := false, rcv := 9, tsRecent := 3, wnd := 1000, scale := 1, mss := 1436, cwnd := 14360, ssthresh := 65535, dups := 0, recover := none, timeouts := 0, finSent := false, hdgst := false, ddgst := false, cpda := 0, connecting := false } : ConnRt))] }),
      8191,
      ({ una := 5, nxt := 5, buf := [], syn := false, fin := false, peerFin := false, rcv := 9, tsRecent := 3, wnd := 1000, scale := 1, mss := 1436, cwnd := 14360, ssthresh := 65535, dups := 0, recover := none, timeouts := 0, finSent := false, hdgst := false, ddgst := false, cpda := 0, connecting := false }
      : ConnRt), ⟨false, 0, false, false⟩, by decide +kernel⟩,
    ⟨(onSie (on [(Reg.CONN_STATE 8191, 4), (Reg.CONN_LBA_SHIFT 8191, 9), (Reg.CONN_QSIZE 8191, 128), (Reg.CONN_QID 8191, 1),
      (Reg.CONN_MSS 8191, 1448), (cfgPayload, 2), (cfgReadSize, 5)]) fun x =>
      { x with commands := [], conns := [(8191, ({ una := 5, nxt := 5, buf := [], syn := false, fin := false, peerFin := false, rcv := 9, tsRecent := 3, wnd := 1000, scale := 1, mss := 1436, cwnd := 14360, ssthresh := 65535, dups := 0, recover := none, timeouts := 0, finSent := false, hdgst := false, ddgst := false, cpda := 0, connecting := false } : ConnRt))] }),
      8191, by decide +kernel⟩,
    ⟨(onSie (onQe (on [(Reg.HIU_HOST_STATE_MODE, 0), (Reg.CTX_VALID 0, 1), (Reg.CTX_MODE 0, 2), (ringOwnerField 131071, 0),
      (Reg.RING_ENABLE 131071, 1), (Reg.RING_TYPE 131071, 2), (Reg.RING_LOG2_SIZE 131071, 4), (Reg.CONN_STATE 8191, 3),
      (Reg.CONN_LBA_SHIFT 8191, 9), (Reg.CONN_QSIZE 8191, 128), (Reg.CONN_QID 8191, 1), (Reg.CONN_MSS 8191, 1448), (cfgPayload,
      2), (cfgReadSize, 5)]) fun x =>
      { x with rings := [(131071, { RingRt.empty with taken := [(⟨7, ([0, 0, 255, 31, 1, 0, 0, 0, 0, 0, 0, 0, 0, 0, 0, 0, 0, 16, 0, 0, 0, 0, 0, 0] ++ zeros 32 ++ [0, 0, 0, 0, 0, 0, 0, 128]), false⟩ : Taken)] })] })
      fun x =>
      { x with commands := [(⟨131071, 7, false, 8191, 127, 0, 0, 1, 4096, 0, 0, false, 0, none⟩ : StorCmd)], conns := [(8191, ({ una := 5, nxt := 5, buf := [], syn := false, fin := false, peerFin := false, rcv := 9, tsRecent := 3, wnd := 1000, scale := 1, mss := 1436, cwnd := 14360, ssthresh := 65535, dups := 0, recover := none, timeouts := 0, finSent := false, hdgst := false, ddgst := false, cpda := 0, connecting := false } : ConnRt))] }),
      8191, 127, (⟨131071, 7, false, 8191, 127, 0, 0, 1, 4096, 0, 0, false, 0, none⟩ : StorCmd), by decide +kernel⟩,
    ⟨(onSie (onQe (on [(Reg.HIU_HOST_STATE_MODE, 0), (Reg.CTX_VALID 0, 1), (Reg.CTX_MODE 0, 2), (ringOwnerField 131071, 0),
      (Reg.RING_ENABLE 131071, 1), (Reg.RING_TYPE 131071, 2), (Reg.RING_LOG2_SIZE 131071, 4), (Reg.CONN_STATE 8191, 3),
      (Reg.CONN_LBA_SHIFT 8191, 9), (Reg.CONN_QSIZE 8191, 128), (Reg.CONN_QID 8191, 1), (Reg.CONN_MSS 8191, 1448), (cfgPayload,
      2), (cfgReadSize, 5)]) fun x =>
      { x with rings := [(131071, { RingRt.empty with taken := [(⟨7, ([2, 0, 255, 31, 1, 0, 0, 0, 0, 0, 0, 0, 0, 0, 0, 0, 0, 16, 0, 0, 0, 0, 0, 0] ++ zeros 32 ++ [0, 0, 0, 0, 0, 0, 0, 128]), false⟩ : Taken)] })] })
      fun x =>
      { x with commands := [(⟨131071, 7, false, 8191, 127, 2, 0, 1, 4096, 512, 0, false, 0, none⟩ : StorCmd)], conns := [(8191, ({ una := 5, nxt := 5, buf := [], syn := false, fin := false, peerFin := false, rcv := 9, tsRecent := 3, wnd := 1000, scale := 1, mss := 1436, cwnd := 14360, ssthresh := 65535, dups := 0, recover := none, timeouts := 0, finSent := false, hdgst := false, ddgst := false, cpda := 0, connecting := false } : ConnRt))] }),
      8191, 127, (⟨131071, 7, false, 8191, 127, 2, 0, 1, 4096, 512, 0, false, 0, none⟩ : StorCmd), 511, [7], by decide +kernel⟩,
    ⟨(onSie (onQe (on [(Reg.HIU_HOST_STATE_MODE, 0), (Reg.CTX_VALID 0, 1), (Reg.CTX_MODE 0, 2), (ringOwnerField 131071, 0),
      (Reg.RING_ENABLE 131071, 1), (Reg.RING_TYPE 131071, 2), (Reg.RING_LOG2_SIZE 131071, 4), (Reg.CONN_STATE 8191, 3),
      (Reg.CONN_LBA_SHIFT 8191, 9), (Reg.CONN_QSIZE 8191, 128), (Reg.CONN_QID 8191, 1), (Reg.CONN_MSS 8191, 1448), (cfgPayload,
      2), (cfgReadSize, 5)]) fun x =>
      { x with rings := [(131071, { RingRt.empty with taken := [(⟨7, ([1, 0, 255, 31, 1, 0, 0, 0, 0, 0, 0, 0, 0, 0, 0, 0, 0, 16, 0, 0, 0, 0, 0, 0] ++ zeros 32 ++ [0, 0, 0, 0, 0, 0, 0, 128]), false⟩ : Taken)] })] })
      fun x =>
      { x with commands := [(⟨131071, 7, false, 8191, 127, 1, 0, 1, 4096, 512, 0, false, 0, none⟩ : StorCmd)], conns := [(8191, ({ una := 5, nxt := 5, buf := [], syn := false, fin := false, peerFin := false, rcv := 9, tsRecent := 3, wnd := 1000, scale := 1, mss := 1436, cwnd := 14360, ssthresh := 65535, dups := 0, recover := none, timeouts := 0, finSent := false, hdgst := false, ddgst := false, cpda := 0, connecting := false } : ConnRt))] }),
      8191, 127, (⟨131071, 7, false, 8191, 127, 1, 0, 1, 4096, 512, 0, false, 0, none⟩ : StorCmd), 0, 512, by decide +kernel⟩⟩

theorem witness_SlotCommandsComplete :
    (∃ (s : State), s.canon = true ∧ s.running .sie = true) ∧
    (∃ (s : State), s.canon = true ∧ s.running .sie = true ∧ s.flag Reg.SIE_SLOT_STATUS_PRESENT = false ∧ s.slotState = 0) ∧
    (∃ (s : State), s.canon = true ∧ s.running .sie = true ∧ s.flag Reg.SIE_SLOT_STATUS_PRESENT = false ∧ s.slotState ≠ 0) ∧
    (∃ (s : State), s.canon = true ∧ s.running .sie = true ∧ s.flag Reg.SIE_SLOT_STATUS_PRESENT = true ∧ s.driveUp = false) ∧
    (∃ (s : State), s.canon = true ∧ s.running .sie = true ∧ s.flag Reg.SIE_SLOT_STATUS_PRESENT = true ∧ s.driveUp = true) ∧
    (∃ (s : State), s.canon = true ∧ s.running .sie = true ∧ s.slotState = 5) ∧
    (∃ (s : State), s.canon = true ∧ s.running .sie = true ∧ s.slotState = 5 ∧ s.driveIdle = true ∧ s.sie.removal = true) ∧
    (∃ (s : State) (q : Requester), s.canon = true ∧ s.running .sie = true ∧ s.slotState = 5 ∧ s.driveIdle = true ∧ s.mayWrite q
      Reg.SIE_SLOT_CTL_REMOVE.key = true) ∧
    (∃ (s : State), s.canon = true ∧ s.running .sie = true ∧ s.slotState = 5 ∧ s.driveIdle = false ∧ s.sie.removal = true) ∧
    (∃ (s : State) (q : Requester), s.canon = true ∧ s.running .sie = true ∧ s.slotState = 5 ∧ s.driveIdle = false ∧ s.mayWrite
      q Reg.SIE_SLOT_CTL_REMOVE.key = true) ∧
    (∃ (s : State) (q : Requester), s.canon = true ∧ s.running .sie = true ∧ s.mayWrite q Reg.SIE_SLOT_CTL_POWER_ON.key = true ∧
      ((s.slotState = 1 ∨ (s.slotState = 7 ∧ s.flag Reg.SIE_SLOT_STATUS_PRESENT = true)))) ∧
    (∃ (s : State), s.canon = true ∧ s.running .sie = true ∧ s.slotState = 2) ∧
    (∃ (s : State), s.canon = true ∧ s.running .sie = true ∧ s.slotState = 2) ∧
    (∃ (s : State) (speed : Fin 6) (width : Fin 9), s.canon = true ∧ s.running .sie = true ∧ s.slotState = 3 ∧ s.get
      Reg.SIE_SLOT_CFG_SPEED ≤ speed.val ∧ s.get Reg.SIE_SLOT_CFG_WIDTH ≤ width.val) ∧
    (∃ (s : State) (speed : Fin 6), s.canon = true ∧ s.running .sie = true ∧ s.slotState = 3 ∧ speed.val < s.get
      Reg.SIE_SLOT_CFG_SPEED) ∧
    (∃ (s : State), s.canon = true ∧ s.running .sie = true ∧ s.slotState = 4) ∧
    (∃ (s : State), s.canon = true ∧ s.running .sie = true ∧ s.slotState = 4) ∧
    (∃ (s : State), s.canon = true ∧ s.running .sie = true ∧ s.slotState = 6 ∧ s.sie.shn = false) ∧
    (∃ (s : State), s.canon = true ∧ s.running .sie = true ∧ s.slotState = 6 ∧ s.sie.shn = true) ∧
    (∃ (s : State) (c : Instr × Nat), s.canon = true ∧ s.running .sie = true ∧ s.driveUp = true ∧ c ∈ [(Instr.powerFault, 2),
      (.slotLinkDown, Config.freeValue s.free % 256)]) :=
  ⟨⟨on [(Reg.SIE_SLOT_STATUS_STATE, 5), (Reg.SIE_SLOT_STATUS_PRESENT, 1)], by decide +kernel⟩,
    ⟨on [(Reg.SIE_SLOT_STATUS_STATE, 0), (Reg.SIE_SLOT_STATUS_PRESENT, 0)], by decide +kernel⟩,
    ⟨on [(Reg.SIE_SLOT_STATUS_STATE, 7), (Reg.SIE_SLOT_STATUS_PRESENT, 0)], by decide +kernel⟩,
    ⟨on [(Reg.SIE_SLOT_STATUS_STATE, 7), (Reg.SIE_SLOT_STATUS_PRESENT, 1)], by decide +kernel⟩,
    ⟨(onSie (on [(Reg.SIE_SLOT_STATUS_STATE, 6), (Reg.SIE_SLOT_STATUS_PRESENT, 1)]) fun x =>
      { x with commands := [(⟨131071, 7, true, 63, 0, 0, 0, 1, 4096, 0, 0, false, 0, none⟩ : StorCmd), (⟨131071, 7, false, 8191, 0, 0, 0, 1, 4096, 0, 0, false, 0, none⟩ : StorCmd)] }),
      by decide +kernel⟩,
    ⟨on [(Reg.SIE_SLOT_STATUS_STATE, 5), (Reg.SIE_SLOT_STATUS_PRESENT, 1)], by decide +kernel⟩,
    ⟨(onSie (on [(Reg.SIE_SLOT_STATUS_STATE, 5), (Reg.SIE_SLOT_STATUS_PRESENT, 1)]) fun x => { x with removal := true }),
      by decide +kernel⟩,
    ⟨(onSie (on [(Reg.SIE_SLOT_STATUS_STATE, 5), (Reg.SIE_SLOT_STATUS_PRESENT, 1)]) fun x =>
      { x with commands := [(⟨131071, 7, false, 8191, 0, 0, 0, 1, 4096, 0, 0, false, 0, none⟩ : StorCmd)] }), .pf0,
      by decide +kernel⟩,
    ⟨(onSie (on [(Reg.SIE_SLOT_STATUS_STATE, 5), (Reg.SIE_SLOT_STATUS_PRESENT, 1)]) fun x =>
      { x with removal := true, commands := [(⟨131071, 7, true, 63, 0, 0, 0, 1, 4096, 0, 0, false, 0, none⟩ : StorCmd), (⟨131071, 7, false, 8191, 0, 0, 0, 1, 4096, 0, 0, false, 0, none⟩ : StorCmd)] }),
      by decide +kernel⟩,
    ⟨(onSie (on [(Reg.SIE_SLOT_STATUS_STATE, 5), (Reg.SIE_SLOT_STATUS_PRESENT, 1)]) fun x =>
      { x with commands := [(⟨131071, 7, true, 63, 0, 0, 0, 1, 4096, 0, 0, false, 0, none⟩ : StorCmd), (⟨131071, 7, false, 8191, 0, 0, 0, 1, 4096, 0, 0, false, 0, none⟩ : StorCmd)] }),
      .pf0, by decide +kernel⟩,
    ⟨on [(Reg.SIE_SLOT_STATUS_STATE, 7), (Reg.SIE_SLOT_STATUS_PRESENT, 1)], .pf0, by decide +kernel⟩,
    ⟨on [(Reg.SIE_SLOT_STATUS_STATE, 2), (Reg.SIE_SLOT_STATUS_PRESENT, 1)], by decide +kernel⟩,
    ⟨on [(Reg.SIE_SLOT_STATUS_STATE, 2), (Reg.SIE_SLOT_STATUS_PRESENT, 1)], by decide +kernel⟩,
    ⟨on [(Reg.SIE_SLOT_STATUS_STATE, 3), (Reg.SIE_SLOT_STATUS_PRESENT, 1), (Reg.SIE_SLOT_CFG_SPEED, 5), (Reg.SIE_SLOT_CFG_WIDTH,
      8)], 5, 8, by decide +kernel⟩,
    ⟨on [(Reg.SIE_SLOT_STATUS_STATE, 3), (Reg.SIE_SLOT_STATUS_PRESENT, 1), (Reg.SIE_SLOT_CFG_SPEED, 5), (Reg.SIE_SLOT_CFG_WIDTH,
      8)], 4, by decide +kernel⟩,
    ⟨on [(Reg.SIE_SLOT_STATUS_STATE, 4), (Reg.SIE_SLOT_STATUS_PRESENT, 1), (Reg.NS_VALID 63, 1), (Reg.NS_NSID 63, 9),
      (Reg.NS_LBA_SHIFT 63, 12), (Reg.NS_VALID 0, 1), (Reg.NS_NSID 0, 7)], by decide +kernel⟩,
    ⟨on [(Reg.SIE_SLOT_STATUS_STATE, 4), (Reg.SIE_SLOT_STATUS_PRESENT, 1)], by decide +kernel⟩,
    ⟨(onSie (on [(Reg.SIE_SLOT_STATUS_STATE, 6), (Reg.SIE_SLOT_STATUS_PRESENT, 1)]) fun x =>
      { x with commands := [(⟨131071, 7, true, 63, 0, 0, 0, 1, 4096, 0, 0, false, 0, none⟩ : StorCmd), (⟨131071, 7, false, 8191, 0, 0, 0, 1, 4096, 0, 0, false, 0, none⟩ : StorCmd)] }),
      by decide +kernel⟩,
    ⟨(onSie (on [(Reg.SIE_SLOT_STATUS_STATE, 6), (Reg.SIE_SLOT_STATUS_PRESENT, 1)]) fun x => { x with shn := true }),
      by decide +kernel⟩,
    ⟨(onSie (on [(Reg.SIE_SLOT_STATUS_STATE, 3), (Reg.SIE_SLOT_STATUS_PRESENT, 1)]) fun x =>
      { x with commands := [(⟨131071, 7, true, 63, 0, 0, 0, 1, 4096, 0, 0, false, 0, none⟩ : StorCmd), (⟨131071, 7, false, 8191, 0, 0, 0, 1, 4096, 0, 0, false, 0, none⟩ : StorCmd)] }),
      (.powerFault, 2), by decide +kernel⟩⟩

theorem witness_RecorderCommandsComplete :
    (∃ (s : State) (k : Fin 64) (q : Requester) (w : Fin 64), s.canon = true ∧ isManager q = true ∧ s.served q = true ∧ s.shows
      0x0D190000 = true ∧ s.get (Reg.REC_STATE k) = 0 ∧ 2 ≤ w.val ∧ w.val ≤ 5) ∧
    (∃ (s : State) (k : Fin 64) (q : Requester), s.canon = true ∧ isManager q = true ∧ s.served q = true ∧ s.shows 0x0D190000 =
      true ∧ s.get (Reg.REC_STATE k) ≠ 0) ∧
    (∃ (s : State) (k : Fin 64) (q : Requester) (f : Nat) (u : Nat) (at_ : Nat), s.canon = true ∧ s.mayWrite q
      Reg.SIE_REC_CMD_OP.key = true ∧ s.running .sie = true ∧ f = s.get (Reg.REC_FUNC k) ∧ u = s.recUnits k ∧ at_ =
      chunkBoundary (s.chunkTicks k) (s.tick + 2) ∧ s.get Reg.SIE_REC_TICK_TICK = 0 ∧ s.get (Reg.REC_STATE k) = 0 ∧ s.badRec k =
      true) ∧
    (∃ (s : State) (k : Fin 64) (q : Requester) (f : Nat) (u : Nat) (at_ : Nat), s.canon = true ∧ s.mayWrite q
      Reg.SIE_REC_CMD_OP.key = true ∧ s.running .sie = true ∧ f = s.get (Reg.REC_FUNC k) ∧ u = s.recUnits k ∧ at_ =
      chunkBoundary (s.chunkTicks k) (s.tick + 2) ∧ s.get Reg.SIE_REC_TICK_TICK = 0 ∧ s.get (Reg.REC_STATE k) = 0 ∧ s.badRec k =
      false ∧ s.poolRoom f 7 u = false) ∧
    (∃ (s : State) (k : Fin 64) (q : Requester) (f : Nat) (u : Nat) (at_ : Nat), s.canon = true ∧ s.mayWrite q
      Reg.SIE_REC_CMD_OP.key = true ∧ s.running .sie = true ∧ f = s.get (Reg.REC_FUNC k) ∧ u = s.recUnits k ∧ at_ =
      chunkBoundary (s.chunkTicks k) (s.tick + 2) ∧ s.get Reg.SIE_REC_TICK_TICK = 0 ∧ s.get (Reg.REC_STATE k) = 0 ∧ s.badRec k =
      false ∧ s.poolRoom f 7 u = true) ∧
    (∃ (s : State) (k : Fin 64) (q : Requester) (f : Nat) (u : Nat) (at_ : Nat), s.canon = true ∧ s.mayWrite q
      Reg.SIE_REC_CMD_OP.key = true ∧ s.running .sie = true ∧ f = s.get (Reg.REC_FUNC k) ∧ u = s.recUnits k ∧ at_ =
      chunkBoundary (s.chunkTicks k) (s.tick + 2) ∧ s.get Reg.SIE_REC_TICK_TICK = 0 ∧ s.get (Reg.REC_STATE k) = 0) ∧
    (∃ (s : State) (k : Fin 64) (q : Requester) (f : Nat) (u : Nat) (at_ : Nat) (x : RecRt), s.canon = true ∧ s.mayWrite q
      Reg.SIE_REC_CMD_OP.key = true ∧ s.running .sie = true ∧ f = s.get (Reg.REC_FUNC k) ∧ u = s.recUnits k ∧ at_ =
      chunkBoundary (s.chunkTicks k) (s.tick + 2) ∧ s.get Reg.SIE_REC_TICK_TICK = 0 ∧ s.get (Reg.REC_STATE k) ≠ 0 ∧ s.recRt k =
      some x) ∧
    (∃ (s : State) (k : Fin 64) (x : RecRt), s.canon = true ∧ s.recRt k = some x ∧ s.running .sie = true ∧ s.get (Reg.REC_STATE
      k) = 1 ∧ x.start ≤ s.tick) ∧
    (∃ (s : State) (k : Fin 64) (x : RecRt) (at_ : Nat), s.canon = true ∧ s.recRt k = some x ∧ s.running .sie = true ∧ x.stop =
      some at_ ∧ at_ ≤ s.tick ∧ at_ < x.start + (x.seq + 1) * s.chunkTicks k ∧ x.staged = [] ∧ s.get (Reg.REC_STATE k) = 2) ∧
    (∃ (s : State) (k : Fin 64) (x : RecRt) (at_ : Nat), s.canon = true ∧ s.recRt k = some x ∧ s.running .sie = true ∧ x.stop =
      some at_ ∧ at_ ≤ s.tick ∧ x.start + (x.seq + 1) * s.chunkTicks k ≤ at_ ∧ s.get (Reg.REC_STATE k) = 2) ∧
    (∃ (s : State) (k : Fin 64) (x : RecRt), s.canon = true ∧ s.recRt k = some x ∧ s.running .sie = true ∧ s.get (Reg.REC_STATE
      k) = 2 ∧ x.stop = none ∧ x.start + (x.seq + 1) * s.chunkTicks k ≤ s.tick ∧ s.get (Reg.REC_STAGE k) = 0 ∧ s.flag
      (Reg.REC_WRAP k) = true ∧ 0xD0B ∉ s.once) ∧
    (∃ (s : State) (k : Fin 64) (x : RecRt), s.canon = true ∧ s.recRt k = some x ∧ s.running .sie = true ∧ s.get (Reg.REC_STATE
      k) = 2 ∧ x.stop = none ∧ x.start + (x.seq + 1) * s.chunkTicks k ≤ s.tick ∧ x.staged.length < s.get (Reg.REC_STAGE k) ∧
      s.slotState = 5 ∧ s.get (Reg.NS_PRESENT (s.get (Reg.REC_NS k))) = 1 ∧ s.flag (Reg.NS_ENC (s.get (Reg.REC_NS k))) = false ∧
      s.flag (Reg.REC_WRAP k) = true) ∧
    (∃ (s : State) (k : Fin 64) (x : RecRt) (n : Nat) (l : List Nat), s.canon = true ∧ s.recRt k = some x ∧ s.running .sie =
      true ∧ x.staged = n :: l ∧ s.get (Reg.REC_STATE k) = 2 ∧ s.slotState ≠ 6) :=
  ⟨⟨on [(Reg.REC_STATE 63, 0), (Reg.REC_NS 63, 63), (Reg.REC_FLOWS 63, 1), (Reg.REC_LBAS 63, 99), (Reg.REC_CHUNK_LOG2 63, 0),
    (Reg.REC_STAGE 63, 2), (Reg.REC_WRAP 63, 1), (Reg.NS_PRESENT 63, 1), (Reg.NS_LBA_SHIFT 63, 12), (Reg.NS_FUNC 63, 0),
    (Reg.NS_VALID 63, 1), (Reg.NS_NSZE 63, 100), (Reg.NS_NSID 63, 9), (Reg.SIE_SLOT_STATUS_STATE, 5), (cfgPayload, 2),
    (cfgReadSize, 5)], 63, .pf0, 5, by decide +kernel⟩,
    ⟨on [(Reg.REC_STATE 63, 1), (Reg.REC_NS 63, 63), (Reg.REC_FLOWS 63, 1), (Reg.REC_LBAS 63, 99), (Reg.REC_CHUNK_LOG2 63, 0),
      (Reg.REC_STAGE 63, 2), (Reg.REC_WRAP 63, 1), (Reg.NS_PRESENT 63, 1), (Reg.NS_LBA_SHIFT 63, 12), (Reg.NS_FUNC 63, 0),
      (Reg.NS_VALID 63, 1), (Reg.NS_NSZE 63, 100), (Reg.NS_NSID 63, 9), (Reg.SIE_SLOT_STATUS_STATE, 5), (cfgPayload, 2),
      (cfgReadSize, 5)], 63, .pf0, by decide +kernel⟩,
    ⟨on [(Reg.REC_STATE 63, 0), (Reg.REC_NS 63, 63), (Reg.REC_FLOWS 63, 1), (Reg.REC_LBAS 63, 99), (Reg.REC_CHUNK_LOG2 63, 0),
      (Reg.REC_STAGE 63, 2), (Reg.REC_WRAP 63, 1), (Reg.NS_PRESENT 63, 1), (Reg.NS_LBA_SHIFT 63, 12), (Reg.NS_FUNC 63, 0),
      (Reg.NS_VALID 63, 1), (Reg.NS_NSZE 63, 100), (Reg.NS_NSID 63, 9), (Reg.SIE_SLOT_STATUS_STATE, 5), (cfgPayload, 2),
      (cfgReadSize, 5), (Reg.REC_FLOWS 63, 65)], 63, .pf0, 0, (on [(Reg.REC_STATE 63, 0), (Reg.REC_NS 63, 63), (Reg.REC_FLOWS
      63, 1), (Reg.REC_LBAS 63, 99), (Reg.REC_CHUNK_LOG2 63, 0), (Reg.REC_STAGE 63, 2), (Reg.REC_WRAP 63, 1), (Reg.NS_PRESENT
      63, 1), (Reg.NS_LBA_SHIFT 63, 12), (Reg.NS_FUNC 63, 0), (Reg.NS_VALID 63, 1), (Reg.NS_NSZE 63, 100), (Reg.NS_NSID 63, 9),
      (Reg.SIE_SLOT_STATUS_STATE, 5), (cfgPayload, 2), (cfgReadSize, 5), (Reg.REC_FLOWS 63, 65)]).recUnits 63, chunkBoundary
      ((on [(Reg.REC_STATE 63, 0), (Reg.REC_NS 63, 63), (Reg.REC_FLOWS 63, 1), (Reg.REC_LBAS 63, 99), (Reg.REC_CHUNK_LOG2 63,
      0), (Reg.REC_STAGE 63, 2), (Reg.REC_WRAP 63, 1), (Reg.NS_PRESENT 63, 1), (Reg.NS_LBA_SHIFT 63, 12), (Reg.NS_FUNC 63, 0),
      (Reg.NS_VALID 63, 1), (Reg.NS_NSZE 63, 100), (Reg.NS_NSID 63, 9), (Reg.SIE_SLOT_STATUS_STATE, 5), (cfgPayload, 2),
      (cfgReadSize, 5), (Reg.REC_FLOWS 63, 65)]).chunkTicks 63) ((on [(Reg.REC_STATE 63, 0), (Reg.REC_NS 63, 63), (Reg.REC_FLOWS
      63, 1), (Reg.REC_LBAS 63, 99), (Reg.REC_CHUNK_LOG2 63, 0), (Reg.REC_STAGE 63, 2), (Reg.REC_WRAP 63, 1), (Reg.NS_PRESENT
      63, 1), (Reg.NS_LBA_SHIFT 63, 12), (Reg.NS_FUNC 63, 0), (Reg.NS_VALID 63, 1), (Reg.NS_NSZE 63, 100), (Reg.NS_NSID 63, 9),
      (Reg.SIE_SLOT_STATUS_STATE, 5), (cfgPayload, 2), (cfgReadSize, 5), (Reg.REC_FLOWS 63, 65)]).tick + 2), by decide +kernel⟩,
    ⟨on [(Reg.REC_STATE 63, 0), (Reg.REC_NS 63, 63), (Reg.REC_FLOWS 63, 1), (Reg.REC_LBAS 63, 99), (Reg.REC_CHUNK_LOG2 63, 0),
      (Reg.REC_STAGE 63, 2), (Reg.REC_WRAP 63, 1), (Reg.NS_PRESENT 63, 1), (Reg.NS_LBA_SHIFT 63, 12), (Reg.NS_FUNC 63, 0),
      (Reg.NS_VALID 63, 1), (Reg.NS_NSZE 63, 100), (Reg.NS_NSID 63, 9), (Reg.SIE_SLOT_STATUS_STATE, 5), (cfgPayload, 2),
      (cfgReadSize, 5)], 63, .pf0, 0, (on [(Reg.REC_STATE 63, 0), (Reg.REC_NS 63, 63), (Reg.REC_FLOWS 63, 1), (Reg.REC_LBAS 63,
      99), (Reg.REC_CHUNK_LOG2 63, 0), (Reg.REC_STAGE 63, 2), (Reg.REC_WRAP 63, 1), (Reg.NS_PRESENT 63, 1), (Reg.NS_LBA_SHIFT
      63, 12), (Reg.NS_FUNC 63, 0), (Reg.NS_VALID 63, 1), (Reg.NS_NSZE 63, 100), (Reg.NS_NSID 63, 9),
      (Reg.SIE_SLOT_STATUS_STATE, 5), (cfgPayload, 2), (cfgReadSize, 5)]).recUnits 63, chunkBoundary ((on [(Reg.REC_STATE 63,
      0), (Reg.REC_NS 63, 63), (Reg.REC_FLOWS 63, 1), (Reg.REC_LBAS 63, 99), (Reg.REC_CHUNK_LOG2 63, 0), (Reg.REC_STAGE 63, 2),
      (Reg.REC_WRAP 63, 1), (Reg.NS_PRESENT 63, 1), (Reg.NS_LBA_SHIFT 63, 12), (Reg.NS_FUNC 63, 0), (Reg.NS_VALID 63, 1),
      (Reg.NS_NSZE 63, 100), (Reg.NS_NSID 63, 9), (Reg.SIE_SLOT_STATUS_STATE, 5), (cfgPayload, 2), (cfgReadSize, 5)]).chunkTicks
      63) ((on [(Reg.REC_STATE 63, 0), (Reg.REC_NS 63, 63), (Reg.REC_FLOWS 63, 1), (Reg.REC_LBAS 63, 99), (Reg.REC_CHUNK_LOG2
      63, 0), (Reg.REC_STAGE 63, 2), (Reg.REC_WRAP 63, 1), (Reg.NS_PRESENT 63, 1), (Reg.NS_LBA_SHIFT 63, 12), (Reg.NS_FUNC 63,
      0), (Reg.NS_VALID 63, 1), (Reg.NS_NSZE 63, 100), (Reg.NS_NSID 63, 9), (Reg.SIE_SLOT_STATUS_STATE, 5), (cfgPayload, 2),
      (cfgReadSize, 5)]).tick + 2), by decide +kernel⟩,
    ⟨on [(Reg.REC_STATE 63, 0), (Reg.REC_NS 63, 63), (Reg.REC_FLOWS 63, 1), (Reg.REC_LBAS 63, 99), (Reg.REC_CHUNK_LOG2 63, 0),
      (Reg.REC_STAGE 63, 2), (Reg.REC_WRAP 63, 1), (Reg.NS_PRESENT 63, 1), (Reg.NS_LBA_SHIFT 63, 12), (Reg.NS_FUNC 63, 0),
      (Reg.NS_VALID 63, 1), (Reg.NS_NSZE 63, 100), (Reg.NS_NSID 63, 9), (Reg.SIE_SLOT_STATUS_STATE, 5), (cfgPayload, 2),
      (cfgReadSize, 5), (poolLimit 0 7, 9)], 63, .pf0, 0, (on [(Reg.REC_STATE 63, 0), (Reg.REC_NS 63, 63), (Reg.REC_FLOWS 63,
      1), (Reg.REC_LBAS 63, 99), (Reg.REC_CHUNK_LOG2 63, 0), (Reg.REC_STAGE 63, 2), (Reg.REC_WRAP 63, 1), (Reg.NS_PRESENT 63,
      1), (Reg.NS_LBA_SHIFT 63, 12), (Reg.NS_FUNC 63, 0), (Reg.NS_VALID 63, 1), (Reg.NS_NSZE 63, 100), (Reg.NS_NSID 63, 9),
      (Reg.SIE_SLOT_STATUS_STATE, 5), (cfgPayload, 2), (cfgReadSize, 5), (poolLimit 0 7, 9)]).recUnits 63, chunkBoundary ((on
      [(Reg.REC_STATE 63, 0), (Reg.REC_NS 63, 63), (Reg.REC_FLOWS 63, 1), (Reg.REC_LBAS 63, 99), (Reg.REC_CHUNK_LOG2 63, 0),
      (Reg.REC_STAGE 63, 2), (Reg.REC_WRAP 63, 1), (Reg.NS_PRESENT 63, 1), (Reg.NS_LBA_SHIFT 63, 12), (Reg.NS_FUNC 63, 0),
      (Reg.NS_VALID 63, 1), (Reg.NS_NSZE 63, 100), (Reg.NS_NSID 63, 9), (Reg.SIE_SLOT_STATUS_STATE, 5), (cfgPayload, 2),
      (cfgReadSize, 5), (poolLimit 0 7, 9)]).chunkTicks 63) ((on [(Reg.REC_STATE 63, 0), (Reg.REC_NS 63, 63), (Reg.REC_FLOWS 63,
      1), (Reg.REC_LBAS 63, 99), (Reg.REC_CHUNK_LOG2 63, 0), (Reg.REC_STAGE 63, 2), (Reg.REC_WRAP 63, 1), (Reg.NS_PRESENT 63,
      1), (Reg.NS_LBA_SHIFT 63, 12), (Reg.NS_FUNC 63, 0), (Reg.NS_VALID 63, 1), (Reg.NS_NSZE 63, 100), (Reg.NS_NSID 63, 9),
      (Reg.SIE_SLOT_STATUS_STATE, 5), (cfgPayload, 2), (cfgReadSize, 5), (poolLimit 0 7, 9)]).tick + 2), by decide +kernel⟩,
    ⟨on [(Reg.REC_STATE 63, 0), (Reg.REC_NS 63, 63), (Reg.REC_FLOWS 63, 1), (Reg.REC_LBAS 63, 99), (Reg.REC_CHUNK_LOG2 63, 0),
      (Reg.REC_STAGE 63, 2), (Reg.REC_WRAP 63, 1), (Reg.NS_PRESENT 63, 1), (Reg.NS_LBA_SHIFT 63, 12), (Reg.NS_FUNC 63, 0),
      (Reg.NS_VALID 63, 1), (Reg.NS_NSZE 63, 100), (Reg.NS_NSID 63, 9), (Reg.SIE_SLOT_STATUS_STATE, 5), (cfgPayload, 2),
      (cfgReadSize, 5)], 63, .pf0, 0, (on [(Reg.REC_STATE 63, 0), (Reg.REC_NS 63, 63), (Reg.REC_FLOWS 63, 1), (Reg.REC_LBAS 63,
      99), (Reg.REC_CHUNK_LOG2 63, 0), (Reg.REC_STAGE 63, 2), (Reg.REC_WRAP 63, 1), (Reg.NS_PRESENT 63, 1), (Reg.NS_LBA_SHIFT
      63, 12), (Reg.NS_FUNC 63, 0), (Reg.NS_VALID 63, 1), (Reg.NS_NSZE 63, 100), (Reg.NS_NSID 63, 9),
      (Reg.SIE_SLOT_STATUS_STATE, 5), (cfgPayload, 2), (cfgReadSize, 5)]).recUnits 63, chunkBoundary ((on [(Reg.REC_STATE 63,
      0), (Reg.REC_NS 63, 63), (Reg.REC_FLOWS 63, 1), (Reg.REC_LBAS 63, 99), (Reg.REC_CHUNK_LOG2 63, 0), (Reg.REC_STAGE 63, 2),
      (Reg.REC_WRAP 63, 1), (Reg.NS_PRESENT 63, 1), (Reg.NS_LBA_SHIFT 63, 12), (Reg.NS_FUNC 63, 0), (Reg.NS_VALID 63, 1),
      (Reg.NS_NSZE 63, 100), (Reg.NS_NSID 63, 9), (Reg.SIE_SLOT_STATUS_STATE, 5), (cfgPayload, 2), (cfgReadSize, 5)]).chunkTicks
      63) ((on [(Reg.REC_STATE 63, 0), (Reg.REC_NS 63, 63), (Reg.REC_FLOWS 63, 1), (Reg.REC_LBAS 63, 99), (Reg.REC_CHUNK_LOG2
      63, 0), (Reg.REC_STAGE 63, 2), (Reg.REC_WRAP 63, 1), (Reg.NS_PRESENT 63, 1), (Reg.NS_LBA_SHIFT 63, 12), (Reg.NS_FUNC 63,
      0), (Reg.NS_VALID 63, 1), (Reg.NS_NSZE 63, 100), (Reg.NS_NSID 63, 9), (Reg.SIE_SLOT_STATUS_STATE, 5), (cfgPayload, 2),
      (cfgReadSize, 5)]).tick + 2), by decide +kernel⟩,
    ⟨(onSie (on [(Reg.REC_STATE 63, 3), (Reg.REC_NS 63, 63), (Reg.REC_FLOWS 63, 1), (Reg.REC_LBAS 63, 99), (Reg.REC_CHUNK_LOG2
      63, 0), (Reg.REC_STAGE 63, 2), (Reg.REC_WRAP 63, 1), (Reg.NS_PRESENT 63, 1), (Reg.NS_LBA_SHIFT 63, 12), (Reg.NS_FUNC 63,
      0), (Reg.NS_VALID 63, 1), (Reg.NS_NSZE 63, 100), (Reg.NS_NSID 63, 9), (Reg.SIE_SLOT_STATUS_STATE, 5), (cfgPayload, 2),
      (cfgReadSize, 5)]) fun x => { x with recs := [(⟨63, 92, none, 0, 1, 1, []⟩ : RecRt)] }), 63, .pf0, 0, ((onSie (on
      [(Reg.REC_STATE 63, 3), (Reg.REC_NS 63, 63), (Reg.REC_FLOWS 63, 1), (Reg.REC_LBAS 63, 99), (Reg.REC_CHUNK_LOG2 63, 0),
      (Reg.REC_STAGE 63, 2), (Reg.REC_WRAP 63, 1), (Reg.NS_PRESENT 63, 1), (Reg.NS_LBA_SHIFT 63, 12), (Reg.NS_FUNC 63, 0),
      (Reg.NS_VALID 63, 1), (Reg.NS_NSZE 63, 100), (Reg.NS_NSID 63, 9), (Reg.SIE_SLOT_STATUS_STATE, 5), (cfgPayload, 2),
      (cfgReadSize, 5)]) fun x => { x with recs := [(⟨63, 92, none, 0, 1, 1, []⟩ : RecRt)] })).recUnits 63, chunkBoundary
      (((onSie (on [(Reg.REC_STATE 63, 3), (Reg.REC_NS 63, 63), (Reg.REC_FLOWS 63, 1), (Reg.REC_LBAS 63, 99),
      (Reg.REC_CHUNK_LOG2 63, 0), (Reg.REC_STAGE 63, 2), (Reg.REC_WRAP 63, 1), (Reg.NS_PRESENT 63, 1), (Reg.NS_LBA_SHIFT 63,
      12), (Reg.NS_FUNC 63, 0), (Reg.NS_VALID 63, 1), (Reg.NS_NSZE 63, 100), (Reg.NS_NSID 63, 9), (Reg.SIE_SLOT_STATUS_STATE,
      5), (cfgPayload, 2), (cfgReadSize, 5)]) fun x => { x with recs := [(⟨63, 92, none, 0, 1, 1, []⟩ : RecRt)] })).chunkTicks
      63) (((onSie (on [(Reg.REC_STATE 63, 3), (Reg.REC_NS 63, 63), (Reg.REC_FLOWS 63, 1), (Reg.REC_LBAS 63, 99),
      (Reg.REC_CHUNK_LOG2 63, 0), (Reg.REC_STAGE 63, 2), (Reg.REC_WRAP 63, 1), (Reg.NS_PRESENT 63, 1), (Reg.NS_LBA_SHIFT 63,
      12), (Reg.NS_FUNC 63, 0), (Reg.NS_VALID 63, 1), (Reg.NS_NSZE 63, 100), (Reg.NS_NSID 63, 9), (Reg.SIE_SLOT_STATUS_STATE,
      5), (cfgPayload, 2), (cfgReadSize, 5)]) fun x => { x with recs := [(⟨63, 92, none, 0, 1, 1, []⟩ : RecRt)] })).tick + 2),
      (⟨63, 92, none, 0, 1, 1, []⟩ : RecRt), by decide +kernel⟩,
    ⟨(onSie (on [(Reg.REC_STATE 63, 1), (Reg.REC_NS 63, 63), (Reg.REC_FLOWS 63, 1), (Reg.REC_LBAS 63, 99), (Reg.REC_CHUNK_LOG2
      63, 0), (Reg.REC_STAGE 63, 2), (Reg.REC_WRAP 63, 1), (Reg.NS_PRESENT 63, 1), (Reg.NS_LBA_SHIFT 63, 12), (Reg.NS_FUNC 63,
      0), (Reg.NS_VALID 63, 1), (Reg.NS_NSZE 63, 100), (Reg.NS_NSID 63, 9), (Reg.SIE_SLOT_STATUS_STATE, 5), (cfgPayload, 2),
      (cfgReadSize, 5)]) fun x => { x with recs := [(⟨63, 100, none, 0, 1, 1, []⟩ : RecRt)] }), 63, (⟨63, 100, none, 0, 1, 1,
      []⟩ : RecRt), by decide +kernel⟩,
    ⟨(onSie (on [(Reg.REC_STATE 63, 2), (Reg.REC_NS 63, 63), (Reg.REC_FLOWS 63, 1), (Reg.REC_LBAS 63, 99), (Reg.REC_CHUNK_LOG2
      63, 0), (Reg.REC_STAGE 63, 2), (Reg.REC_WRAP 63, 1), (Reg.NS_PRESENT 63, 1), (Reg.NS_LBA_SHIFT 63, 12), (Reg.NS_FUNC 63,
      0), (Reg.NS_VALID 63, 1), (Reg.NS_NSZE 63, 100), (Reg.NS_NSID 63, 9), (Reg.SIE_SLOT_STATUS_STATE, 5), (cfgPayload, 2),
      (cfgReadSize, 5)]) fun x => { x with recs := [(⟨63, 96, some 100, 0, 1, 1, []⟩ : RecRt)] }), 63, (⟨63, 96, some 100, 0, 1,
      1, []⟩ : RecRt), 100, by decide +kernel⟩,
    ⟨(onSie (on [(Reg.REC_STATE 63, 2), (Reg.REC_NS 63, 63), (Reg.REC_FLOWS 63, 1), (Reg.REC_LBAS 63, 99), (Reg.REC_CHUNK_LOG2
      63, 0), (Reg.REC_STAGE 63, 2), (Reg.REC_WRAP 63, 1), (Reg.NS_PRESENT 63, 1), (Reg.NS_LBA_SHIFT 63, 12), (Reg.NS_FUNC 63,
      0), (Reg.NS_VALID 63, 1), (Reg.NS_NSZE 63, 100), (Reg.NS_NSID 63, 9), (Reg.SIE_SLOT_STATUS_STATE, 5), (cfgPayload, 2),
      (cfgReadSize, 5)]) fun x => { x with recs := [(⟨63, 88, some 100, 0, 1, 1, []⟩ : RecRt)] }), 63, (⟨63, 88, some 100, 0, 1,
      1, []⟩ : RecRt), 100, by decide +kernel⟩,
    ⟨(onSie (on [(Reg.REC_STATE 63, 2), (Reg.REC_NS 63, 63), (Reg.REC_FLOWS 63, 1), (Reg.REC_LBAS 63, 99), (Reg.REC_CHUNK_LOG2
      63, 0), (Reg.REC_STAGE 63, 2), (Reg.REC_WRAP 63, 1), (Reg.NS_PRESENT 63, 1), (Reg.NS_LBA_SHIFT 63, 12), (Reg.NS_FUNC 63,
      0), (Reg.NS_VALID 63, 1), (Reg.NS_NSZE 63, 100), (Reg.NS_NSID 63, 9), (Reg.SIE_SLOT_STATUS_STATE, 5), (cfgPayload, 2),
      (cfgReadSize, 5), (Reg.REC_STAGE 63, 0)]) fun x => { x with recs := [(⟨63, 92, none, 0, 1, 1, []⟩ : RecRt)] }), 63, (⟨63,
      92, none, 0, 1, 1, []⟩ : RecRt), by decide +kernel⟩,
    ⟨(onSie (on [(Reg.REC_STATE 63, 2), (Reg.REC_NS 63, 63), (Reg.REC_FLOWS 63, 1), (Reg.REC_LBAS 63, 99), (Reg.REC_CHUNK_LOG2
      63, 0), (Reg.REC_STAGE 63, 2), (Reg.REC_WRAP 63, 1), (Reg.NS_PRESENT 63, 1), (Reg.NS_LBA_SHIFT 63, 12), (Reg.NS_FUNC 63,
      0), (Reg.NS_VALID 63, 1), (Reg.NS_NSZE 63, 100), (Reg.NS_NSID 63, 9), (Reg.SIE_SLOT_STATUS_STATE, 5), (cfgPayload, 2),
      (cfgReadSize, 5)]) fun x => { x with recs := [(⟨63, 84, none, 1, 1, 1, [0]⟩ : RecRt)] }), 63, (⟨63, 84, none, 1, 1, 1,
      [0]⟩ : RecRt), by decide +kernel⟩,
    ⟨(onSie (on [(Reg.REC_STATE 63, 2), (Reg.REC_NS 63, 63), (Reg.REC_FLOWS 63, 1), (Reg.REC_LBAS 63, 99), (Reg.REC_CHUNK_LOG2
      63, 0), (Reg.REC_STAGE 63, 2), (Reg.REC_WRAP 63, 1), (Reg.NS_PRESENT 63, 1), (Reg.NS_LBA_SHIFT 63, 12), (Reg.NS_FUNC 63,
      0), (Reg.NS_VALID 63, 1), (Reg.NS_NSZE 63, 100), (Reg.NS_NSID 63, 9), (Reg.SIE_SLOT_STATUS_STATE, 5), (cfgPayload, 2),
      (cfgReadSize, 5)]) fun x => { x with recs := [(⟨63, 84, none, 1, 1, 1, [0]⟩ : RecRt)] }), 63, (⟨63, 84, none, 1, 1, 1,
      [0]⟩ : RecRt), 0, [], by decide +kernel⟩⟩

theorem witness_EveryCommandKeeps : ∃ (c : Instr) (s t : State), exec c s = .next t ∧ s.canon = true :=
  ⟨.driveRequestUr, on [], _, rfl, by decide +kernel⟩

theorem witness_EveryStepKeepsCanon : ∃ s t : State, step s = .next t ∧ s.canon = true :=
  ⟨{ (on []) with pending := [.driveRequestUr] }, _, rfl, by decide +kernel⟩

theorem witness_LocalCommandsRefused : ∃ s : State, s.canon = true ∧ s.pairRole = true ∧ s.active = false ∧
    s.running .cku = true ∧ s.mayWrite .pf0 Reg.TE_ADMIT_CMD_OP.key = true ∧ s.mayWrite .pf0 Reg.CKU_KEY_CMD_OP.key = true ∧
    s.mayWrite .pf0 (0x12000000 + 128 * 65535 + 40) = true ∧ s.mayWrite .pf0 (0x13000000 + 16 * 131071) = true ∧
    s.mayWrite .pf0 (0x07004000 + 4 * 2047) = true ∧ s.mayWrite .pf0 Reg.PCU_TBL_CTL_COMMIT.key = true ∧
    s.mayWrite .pf0 Reg.FTU_LPM_OP_CMD_OP.key = true ∧ s.mayWrite .pf0 Reg.FTU_MAC_OP_CMD_OP.key = true ∧
    s.mayWrite .pf0 Reg.RTU_PROG_CMD_OP.key = true ∧ s.mayWrite .pf0 0x07001100 = true ∧ 0x90B ∉ s.once :=
  ⟨on [(Reg.HGC_CFG_ROLE, 1), (Reg.HGC_STATE_STATE, 3)], by decide +kernel⟩

theorem witness_StandaloneRefusesDma : ∃ s : State, s.attached = false ∧ s.canon = true := ⟨on [], by decide +kernel⟩

theorem witness_TickCounter : ∃ (s : State) (ns : Nat), s.canon = true ∧ ns / s.period < 2 ^ 48 ∧ 2 ^ 48 ≤ ns / s.period + 1 :=
  ⟨on [], 281474976710655 * (on []).period, by decide +kernel⟩

theorem witness_RingPhase : (∃ (e : Bytes) (n : Nat), e.length = 8 * n + 8) ∧
    (∃ (s : State) (r q lap : Nat), lap = q / 2 ^ s.get (Reg.RING_LOG2_SIZE r) ∧ s.ringType r ≠ 2 ∧ lap % 2 = 1) ∧
    (∃ (s : State) (r q lap : Nat), lap = q / 2 ^ s.get (Reg.RING_LOG2_SIZE r) ∧ s.ringType r = 2) :=
  ⟨⟨zeros 16, 1, by decide⟩, ⟨on [(Reg.RING_LOG2_SIZE 131071, 4)], 131071, 16, 1, by decide +kernel⟩,
    ⟨on [(Reg.RING_LOG2_SIZE 131071, 4), (Reg.RING_TYPE 131071, 2)], 131071, 15, 0, by decide +kernel⟩⟩

theorem witness_SerialNumbers : ∀ x ∈ [(32, 0, 0, 0), (32, 2147483647, 0, 2147483647), (32, 2147483648, 0, 2147483648),
    (32, 0, 2147483647, 2147483649)], ∃ n a b d : Nat, x = (n, a, b, d) ∧ 0 < n ∧ a < 2 ^ n ∧ b < 2 ^ n ∧ d = (a + 2 ^ n - b) % 2 ^ n :=
  fun x h => ⟨x.1, x.2.1, x.2.2.1, x.2.2.2, rfl, by revert x h; decide⟩

end Sys2Proof.Tests
end

section
/-! PROOFS. The accesses of PF0 to its BAR0 (R9, R10, R13) and the state right after reset: the rules of reads, writes and holding
registers, and the statements that they settle. -/

namespace Sys2Proof.Machine

/-! ## Words right after reset (R10, R452) -/

/-- The row (first key, stride, count, value) of the list of nonzero reset values covers `k`. -/
def resetRowCovers (k : Nat) (r : Nat × Nat × Nat × Nat) : Bool :=
  r.1 ≤ k && (if r.2.1 = 0 then k == r.1 else (k - r.1) % r.2.1 == 0 && (k - r.1) / r.2.1 < r.2.2.1)

/-- Where no rule of its own gives a word's reset value, the unit's list does. -/
theorem resetWord_eq_listed {k : Nat} (h₁ : 0x0B348000 ≤ k) (h₂ : k < 0x20000000) (h₃ : k % 64 ≠ 52) :
    resetWord k = ((resetsFor k).find? (resetRowCovers k)).elim 0 (fun r => BitVec.ofNat 32 r.2.2.2) := by
  unfold resetWord
  iterate 5 rw [if_neg (by simp only [Bool.and_eq_true, decide_eq_true_eq]; omega)]
  rw [if_neg (by omega), if_neg (by omega)]
  split
  next r h => rw [show (resetsFor k).find? (resetRowCovers k) = some r from h, Option.elim_some]
  next h => rw [show (resetsFor k).find? (resetRowCovers k) = none from h, Option.elim_none]

/-- The first word of a connection's context is 0 at reset: no row of SIE's list covers it. -/
theorem resetWord_connContext {c : Nat} (hc : c < 8192) : resetWord (0x0D100000 + 64 * c) = 0 := by
  have hu : (0x0D100000 + 64 * c) / 0x1000000 = 13 := by omega
  have hnone : (resetsFor (0x0D100000 + 64 * c)).find? (resetRowCovers (0x0D100000 + 64 * c)) = none := by
    simp only [resetsFor, hu, sieResets, resetRowCovers, List.find?_eq_none, List.forall_mem_cons]
    simp
    omega
  rw [resetWord_eq_listed (by omega) (by omega) (by omega), hnone, Option.elim_none]

/-- The first word of a ring's context has IDLE set and its size at reset: QE's list gives it (R390). -/
theorem resetWord_ringContext {r : Nat} (hr : r < 131072) : resetWord (0x0C400000 + 64 * r) = 0x40400000 := by
  have hu : (0x0C400000 + 64 * r) / 0x1000000 = 12 := by omega
  have hfirst : (resetsFor (0x0C400000 + 64 * r)).find? (resetRowCovers (0x0C400000 + 64 * r)) =
      some (0x0C400000, 64, 131072, 0x40400000) := by
    have hid : ¬ 0x0C400000 + 64 * r = 0x0C000000 := by omega
    simp [resetsFor, hu, qeResets, resetRowCovers, hr, hid]
  rw [resetWord_eq_listed (by omega) (by omega) (by omega), hfirst]
  rfl

/-- A field within one word reads its bits of the word's reset value right after reset. -/
theorem get_reset {f : Field} (h : f.hi < 32) :
    State.reset.get f = bits (resetWord f.key).toNat f.lo (f.hi + 1 - f.lo) := by
  unfold State.get
  rw [if_pos h]
  rfl

theorem connState_reset (c : Fin 8192) : State.reset.get (Reg.CONN_STATE c) = 0 := by
  rw [get_reset (show 31 < 32 by decide), resetWord_connContext c.isLt]
  exact (by decide : bits (0 : Word).toNat 29 3 = 0)

theorem ringIdle_reset (r : Fin 131072) : State.reset.flag (Reg.RING_IDLE r) = true := by
  unfold State.flag
  rw [get_reset (show 30 < 32 by decide), resetWord_ringContext r.isLt]
  exact (by decide : (bits (0x40400000 : Word).toNat 30 1 == 1) = true)

theorem unitState_reset (u : Fin 14) : State.reset.get (Reg.UNIT_STATE u) = 0 := by
  revert u
  decide

theorem recState_reset (k : Fin 64) : State.reset.get (Reg.REC_STATE k) = 0 := by
  revert k
  decide

/-- Settles O52: right after reset no word is stored, so every read is of a reset value, and the engines hold empty lists. -/
theorem resetLeavesResetValues : Obligations.ResetLeavesResetValues := by
  refine ⟨rfl, ?canon, fun _ => rfl, ?attached, unitState_reset, ?session, ?tick, ?mediaRun, ?slot,
    rfl, rfl, rfl, rfl, rfl, rfl, connState_reset, recState_reset, ringIdle_reset⟩
  all_goals decide

/-! ## An access of PF0 to its BAR0 (R9, R335, R427) -/

/-- A key of BAR0 that SUP owns lies in the first 16 MiB (R8). -/
theorem lt_of_unitOfKey_eq_zero {k : Nat} (hk : k < 0x10000000) (h : unitOfKey k = 0) : k < 0x1000000 := by
  unfold unitOfKey at h
  split at h
  · omega
  · omega
  · omega
  · omega
  · split at h <;> omega

/-- A read of a word that moves with neither time nor the buffer settles nothing (R169, R215, R217, R290). -/
theorem settleFor_eq_self {s : State} {k : Nat} (hset : settleWord k = false) (hstat : inRange k 0x02008000 0x2000 = false)
    (hfree : k ≠ Reg.FPU_FREE.key) (hpool : inRange k 0x0B200000 0x40000 = false) : s.settleFor k = s := by
  simp only [settleWord, inRange, Bool.or_eq_false_iff, Bool.and_eq_false_iff, decide_eq_false_iff_not] at hset hstat hpool
  unfold State.settleFor
  rw [if_neg (by simp only [Bool.and_eq_true, decide_eq_true_eq]; omega),
    if_neg (by simp only [Bool.and_eq_true, Bool.or_eq_true, decide_eq_true_eq]; omega),
    if_neg (by simp only [hfree, Bool.and_eq_true, Bool.or_eq_true, decide_eq_true_eq, false_or]; omega)]

theorem canon_settleFor {s : State} {k : Nat} (hc : s.canon = true) : (s.settleFor k).canon = true :=
  (keeps_settleFor (Keeps.refl s)).canon hc

theorem waits_of_not_restarting {s : State} {k : Nat} (h : s.sup.svcRestarting = false) : s.waits k = false := by
  simp [State.waits, h]

/-- What a read settles stands outside SUP's space, so no read comes to wait by it. -/
theorem waits_settleFor {s : State} {k : Nat} (hk : k < 0x10000000) (h : s.sup.svcRestarting = false) :
    (s.settleFor k).waits k = false := by
  by_cases hu : unitOfKey k = 0
  · have := lt_of_unitOfKey_eq_zero hk hu
    have hself : s.settleFor k = s := by
      apply settleFor_eq_self
      · simp [settleWord, inRange]; omega
      · simp [inRange]; omega
      · simp; omega
      · simp [inRange]; omega
    rw [hself]
    exact waits_of_not_restarting h
  · simp [State.waits, hu]

theorem arrives_of_served {s : State} (h : s.served .pf0 = true) : s.arrives .pf0 = true := by
  simp only [State.served, Bool.and_eq_true] at h
  exact h.1.2

theorem refuseAccess_pf0 {s : State} {k : Nat} (hs : s.served .pf0 = true) (h4 : k % 4 = 0) :
    s.refuseAccess .pf0 ⟨.bar0, k⟩ 4 = none := by
  simp [State.refuseAccess, arrives_of_served hs, hs, h4]

theorem keyOf_bar0 {k : Nat} (hk : k < 0x10000000) : keyOf ⟨.bar0, k⟩ = some k := if_pos hk

/-- PF0's read of an aligned word of BAR0 is carried out, on the settled state. -/
theorem busRead_bar0 {s : State} {k : Nat} (hr : s.sup.svcRestarting = false) (hs : s.served .pf0 = true) (hk : k < 0x10000000)
    (h4 : k % 4 = 0) : s.busRead .pf0 ⟨.bar0, k⟩ 4 =
      { ((s.settleFor k).read32 .pf0 k).2 with reply := some (.data ((s.settleFor k).read32 .pf0 k).1) } := by
  have hreach : reaches .pf0 .bar0 = true := rfl
  simp [State.busRead, refuseAccess_pf0 hs h4, hreach, keyOf_bar0 hk, waits_settleFor hk hr, State.readKey]

/-- PF0's write of an aligned word of BAR0 is carried out under the rules of pairs. -/
theorem busWrite_bar0 {s : State} {k v : Nat} (hr : s.sup.svcRestarting = false) (hs : s.served .pf0 = true) (hk : k < 0x10000000)
    (h4 : k % 4 = 0) : s.busWrite .pf0 ⟨.bar0, k⟩ 4 v =
      ({ s with reply := some .done } : State).write32Via .pf0 (State.routeWord .pf0) (State.routePair .pf0) k (v % 2 ^ 32) := by
  have hreach : reaches .pf0 .bar0 = true := rfl
  have hwait : ({ s with reply := some .done } : State).waits k = false := waits_of_not_restarting hr
  simp [State.busWrite, State.busWriteVia, refuseAccess_pf0 hs h4, hreach, keyOf_bar0 hk, hwait, State.writeKeyVia]

/-! ## Holding registers (R13) -/

@[simp] theorem holdOf_who (s : State) (r : Requester) (k : Nat) : (s.holdOf r k).who = r := by
  unfold State.holdOf
  cases h : s.holds.find? (fun x => x.who == r && x.key == k) with
  | none => rfl
  | some x => simpa using (And.left (by simpa using List.find?_some h) : x.who = r)

@[simp] theorem holdOf_key (s : State) (r : Requester) (k : Nat) : (s.holdOf r k).key = k := by
  unfold State.holdOf
  cases h : s.holds.find? (fun x => x.who == r && x.key == k) with
  | none => rfl
  | some x => simpa using (And.right (by simpa using List.find?_some h) : x.key = k)

/-- A holding register that is set reads back. -/
theorem holdOf_setHold (s : State) (h : Hold) : (s.setHold h).holdOf h.who h.key = h := by
  have hrest : (s.holds.filter (fun x => !(x.who == h.who && x.key == h.key))).find?
      (fun x => x.who == h.who && x.key == h.key) = none := by
    simp only [List.find?_eq_none, List.mem_filter]
    rintro x ⟨-, hx⟩
    rw [Bool.not_eq_true'] at hx
    simp [hx]
  unfold State.setHold State.holdOf
  dsimp only
  split
  next hempty =>
    rw [hrest]
    obtain ⟨who, key, capHi, wrLo⟩ := h
    simp_all
  next => simp

/-! ## Reads (R10, R13) -/

theorem clearRc_cases (s : State) (k : Nat) : s.clearRc k = s ∨ ∃ v, s.clearRc k = s.wr k v := by
  unfold State.clearRc
  split
  · exact .inl rfl
  · split
    · exact .inl rfl
    · split
      · exact .inr ⟨_, rfl⟩
      · exact .inl rfl

theorem within_clearRc {area : Nat → Bool} {s₀ s : State} {k : Nat} (h : Within area s₀ s) (hk : area k = true) :
    Within area s₀ (s.clearRc k) := by
  obtain e | ⟨v, e⟩ := clearRc_cases s k
  · rwa [e]
  · rw [e]; exact within_wr h hk

theorem clearRc_rest (s : State) (k : Nat) : s.clearRc k = { s with regs := (s.clearRc k).regs } := by
  obtain e | ⟨v, e⟩ := clearRc_cases s k
  · rw [e]
  · rw [e]; rfl

theorem read32_plain {s : State} {r : Requester} {k : Nat} (hlow : isPairLow k = false) (hhigh : isPairLow (k - 4) = false)
    (hoff : k ≠ offsetKey) : s.read32 r k = (s.readWord k, s.clearRc k) := by
  simp [State.read32, hlow, hhigh, hoff]

theorem read32_low {s : State} {r : Requester} {k : Nat} (hlow : isPairLow k = true) (htick : k ≠ tickLoKey) :
    s.read32 r k = (s.readWord k, (s.setHold { s.holdOf r k with capHi := some (s.readWord (k + 4)) }).clearRc k) := by
  simp [State.read32, hlow, htick]

theorem holdOf_clearRc (s : State) (r : Requester) (j k : Nat) : (s.clearRc j).holdOf r k = s.holdOf r k := by
  rw [clearRc_rest]; rfl

/-! ## Writes (R9, R10, R12) -/

theorem hlog_rest (s : State) (type u pay : Nat) : s.hlog type u pay = { s with regs := (s.hlog type u pay).regs } := by
  unfold State.hlog
  rw [put_rest]
  rfl

theorem sealWrite_rest (s : State) (r : Requester) (k : Nat) : s.sealWrite r k =
    { s with regs := (s.sealWrite r k).regs, events := (s.sealWrite r k).events, once := (s.sealWrite r k).once } := by
  unfold State.sealWrite State.raise
  dsimp only
  rw [raiseEvent_rest, hlog_rest]

theorem within_sealWrite {area : Nat → Bool} {s₀ s : State} {r : Requester} {k : Nat} (h : Within area s₀ s)
    (hlog : ∀ j, logWord j = true → area j = true) (hlost : ∀ j, words [Reg.QE_ARB_LOST] j = true → area j = true) :
    Within area s₀ (s.sealWrite r k) :=
  within_raise (within_hlog h hlog) (hlost _ (by decide)) (hlost _ (by decide))

/-- A word that takes a write gets its row's fields; one that is hidden, or that no row describes, is left. -/
theorem setWord_eq (s : State) (k v : Nat) : s.setWord k v =
    (if s.shows k then rowOf k else none).elim s fun row => s.wr k (row.fields.foldl (writeField (s.sealedAt k) v) (s.rd k)) := by
  unfold State.setWord
  cases s.shows k with
  | false => rfl
  | true => cases rowOf k <;> rfl

theorem rd_setWord {s : State} (hc : s.canon = true) (k v : Nat) : (s.setWord k v).rd k =
    (if s.shows k then rowOf k else none).elim (s.rd k)
      fun row => row.fields.foldl (writeField (s.sealedAt k) v) (s.rd k) % 2 ^ 32 := by
  rw [setWord_eq]
  cases (if s.shows k then rowOf k else none) with
  | none => rfl
  | some row => exact rd_wr_same hc

theorem setWord_rest (s : State) (k v : Nat) : s.setWord k v = { s with regs := (s.setWord k v).regs } := by
  rw [setWord_eq]
  cases (if s.shows k then rowOf k else none) <;> rfl

theorem within_setWord {area : Nat → Bool} {s₀ s : State} {k v : Nat} (h : Within area s₀ s) (hk : area k = true) :
    Within area s₀ (s.setWord k v) := by
  rw [setWord_eq]
  cases (if s.shows k then rowOf k else none) with
  | none => exact h
  | some row => exact within_wr h hk

theorem writeWord_rest (s : State) (r : Requester) (k v : Nat) : s.writeWord r k v =
    { s with regs := (s.writeWord r k v).regs, events := (s.writeWord r k v).events, once := (s.writeWord r k v).once } := by
  unfold State.writeWord
  split
  · rw [sealWrite_rest, setWord_rest]
  · rw [setWord_rest]

theorem within_writeWord {area : Nat → Bool} {s₀ s : State} {r : Requester} {k v : Nat} (h : Within area s₀ s) (hk : area k = true)
    (hlog : ∀ j, logWord j = true → area j = true) (hlost : ∀ j, words [Reg.QE_ARB_LOST] j = true → area j = true) :
    Within area s₀ (s.writeWord r k v) := by
  unfold State.writeWord
  exact within_ite (within_sealWrite (within_setWord h hk) hlog hlost) (within_setWord h hk)

/-- The record of a write that met a seal stands in other words than the one written. -/
theorem rd_writeWord {s : State} {r : Requester} {k v : Nat} (hc : s.canon = true) (hlog : logWord k = false)
    (hlost : words [Reg.QE_ARB_LOST] k = false) : (s.writeWord r k v).rd k = (s.setWord k v).rd k := by
  have hset : (s.setWord k v).canon = true := (keeps_setWord (Keeps.refl s)).canon hc
  unfold State.writeWord
  split
  · exact (within_sealWrite (area := fun j => logWord j || words [Reg.QE_ARB_LOST] j) (Within.refl _)
      (fun j hj => by simp [hj]) (fun j hj => by simp [hj])).words hset k (by simp [hlog, hlost])
  · rfl

theorem writeWord_hidden {s : State} {r : Requester} {k v : Nat} (h : s.shows k = false) : s.writeWord r k v = s := by
  simp [State.writeWord, State.breaksSeal, setWord_eq, h]

theorem mayWrite_pf0 {s : State} (hs : s.served .pf0 = true) (k : Nat) : s.mayWrite .pf0 k = s.shows k := by
  simp [State.mayWrite, isManager, hs]

/-- A word of FPU that carries no check of its own takes a write as its row says (R9, R10). -/
theorem routeWord_fpu {s : State} {k : Nat} (hs : s.served .pf0 = true) (hk : k / 0x1000000 = 6)
    (hcheck : inRange k 0x06001040 0x20 = false) (v : Nat) : State.routeWord .pf0 k v s = s.writeWord .pf0 k v := by
  unfold State.routeWord
  rw [if_neg (by omega), if_neg (by omega), mayWrite_pf0 hs, hk]
  cases hshow : s.shows k with
  | false => simp [writeWord_hidden hshow]
  | true => simp [State.writeFpu, hcheck]

theorem write32Via_plain {s : State} {r : Requester} {word pair : Nat → Nat → State → State} {k v : Nat}
    (hlow : isPairLow k = false) (hhigh : isPairLow (k - 4) = false) : s.write32Via r word pair k v = word k v s := by
  simp [State.write32Via, hlow, hhigh]

theorem write32Via_low {s : State} {r : Requester} {word pair : Nat → Nat → State → State} {k v : Nat}
    (hlow : isPairLow k = true) : s.write32Via r word pair k v = s.setHold { s.holdOf r k with wrLo := some v } := by
  simp [State.write32Via, hlow]

theorem write32Via_high {s : State} {r : Requester} {word pair : Nat → Nat → State → State} {k lo v : Nat}
    (hlow : isPairLow k = true) (hhigh : isPairLow (k + 4) = false) (hlo : (s.holdOf r k).wrLo = some lo) :
    s.write32Via r word pair (k + 4) v = pair k (lo + 2 ^ 32 * v) (s.setHold { s.holdOf r k with wrLo := none }) := by
  simp [State.write32Via, hlow, hhigh, hlo]

/-! ## The pair TE_ADMIT_TICK -/

/-- What a word shows rests on the units' states and the boot stage alone (R30, R53, R58). -/
theorem shows_wr {s : State} {j v : Nat} (hc : s.canon = true) (hunit : ∀ u, j ≠ 4 + 0x1000000 * u) (hboot : j ≠ 0x1000) (k : Nat) :
    (s.wr j v).shows k = s.shows k := by
  have hstate : ∀ u, (s.wr j v).get (Reg.UNIT_STATE u) = s.get (Reg.UNIT_STATE u) := fun u => by
    simp [State.get, rd_wr_ne hc (hunit u).symm]
  have hstage : (s.wr j v).get Reg.SUP_BOOT_STATUS_STAGE = s.get Reg.SUP_BOOT_STATUS_STAGE := by
    simp [State.get, rd_wr_ne hc hboot.symm]
  simp only [State.shows, State.running, hstate, hstage]

theorem rowOf_admitTick : rowOf 0x01001108 = some ⟨0x01001108, 0, 1, [⟨31, 0, .rw, 0⟩]⟩ := by decide +kernel

theorem rowOf_admitTickHigh : rowOf 0x0100110C = some ⟨0x0100110C, 0, 1, [⟨15, 0, .rw, 0⟩]⟩ := by decide +kernel

/-- The two words of TE_ADMIT_TICK with a 64-bit value written to them. -/
def State.setAdmitTick (s : State) (v : Nat) : State :=
  (s.wr 0x01001108 (setBits (s.rd 0x01001108) 0 32 (bits (v % 2 ^ 32) 0 32))).wr 0x0100110C
    (setBits (s.rd 0x0100110C) 0 16 (bits (v / 2 ^ 32) 0 16))

/-- No field of TE_ADMIT_TICK is sealed: the committed pair is written in both words, and nothing is recorded. -/
theorem writePair_admitTick {s : State} (hc : s.canon = true) (hs : s.shows 0x01001108 = true) (r : Requester) (v : Nat) :
    s.writePair r 0x01001108 v = s.setAdmitTick v := by
  have hhigh : ∀ t : State, t.shows 0x0100110C = t.shows 0x01001108 := fun _ => rfl
  have hopen : ∀ (k w : Nat), k = 0x01001108 ∨ k = 0x0100110C → s.breaksSeal k w = false := by
    rintro k w (rfl | rfl) <;> simp [State.breaksSeal, rowOf_admitTick, rowOf_admitTickHigh, sealBreak]
  have hshow := fun x => shows_wr (v := x) hc (j := 0x01001108) (by omega) (by omega) 0x01001108
  simp [State.writePair, State.setAdmitTick, hopen, setWord_eq, hs, hshow, hhigh, rowOf_admitTick, rowOf_admitTickHigh, writeField,
    rd_wr_ne hc (show 0x0100110C ≠ 0x01001108 by decide)]

theorem routePair_admitTick {s : State} {r : Requester} (hc : s.canon = true) (hm : s.mayWrite r 0x01001108 = true) (v : Nat) :
    State.routePair r 0x01001108 v s = s.setAdmitTick v := by
  have hs : s.shows 0x01001108 = true := by
    simp only [State.mayWrite, Bool.and_eq_true] at hm
    exact hm.2
  rw [← writePair_admitTick hc hs r]
  simp [State.routePair, hm, isMapEntry]

theorem isPairLow_admitTick : isPairLow 0x01001108 = true := by decide +kernel

theorem not_isPairLow_admitTickHigh : isPairLow 0x0100110C = false := by decide +kernel

/-! ## The access commands of PF0 -/

theorem quietFrame_reply_clearRc {s : State} (hc : s.canon = true) (k : Nat) (a : Option Reply) :
    QuietFrame (fun j => j == k) s { s with reply := a } { s.clearRc k with reply := a } := by
  refine quietFrame hc (within_same (within_clearRc (Within.refl s) (beq_self_eq_true k)) rfl rfl rfl) ?_
  rw [clearRc_rest]

theorem sealedAt_fpu {s : State} {k : Nat} (hk : k / 0x1000000 = 6) : s.sealedAt k = s.flag (Reg.UNIT_SEALED 6) := by
  simp [State.sealedAt, unitOfKey, hk]

theorem logWord_fpu {k : Nat} (hk : k / 0x1000000 = 6) : logWord k = false := by
  simp [logWord, inRange, words]
  omega

theorem arbLostWord_fpu {k : Nat} (hk : k / 0x1000000 = 6) : words [Reg.QE_ARB_LOST] k = false := by
  simp [words]
  omega

/-- PF0's write of a word of FPU's space comes to the write of that word alone. -/
theorem busWrite_fpu {s : State} {k : Nat} (hr : s.sup.svcRestarting = false) (hs : s.served .pf0 = true)
    (hk : k / 0x1000000 = 6) (h4 : k % 4 = 0) (hcheck : inRange k 0x06001040 0x20 = false) (hlow : isPairLow k = false)
    (hhigh : isPairLow (k - 4) = false) (v : Nat) :
    s.busWrite .pf0 ⟨.bar0, k⟩ 4 v = ({ s with reply := some .done } : State).writeWord .pf0 k (v % 2 ^ 32) := by
  rw [busWrite_bar0 hr hs (by omega) h4, write32Via_plain hlow hhigh]
  exact routeWord_fpu (s := { s with reply := some .done }) hs hk hcheck _

theorem exec_registerWrite_fpu {s : State} {k : Nat} (hr : s.sup.svcRestarting = false) (hs : s.served .pf0 = true)
    (hk : k / 0x1000000 = 6) (h4 : k % 4 = 0) (hcheck : inRange k 0x06001040 0x20 = false) (hlow : isPairLow k = false)
    (hhigh : isPairLow (k - 4) = false) (v : BitVec 64) (w : List Walk8) :
    exec (.registerWrite .pf0 ⟨.bar0, k⟩ 4 v w) s =
      ok (s.withWalks w fun s => ({ s with reply := some .done } : State).writeWord .pf0 k (v.toNat % 2 ^ 32)) := by
  have hbus := busWrite_fpu (s := { s with ttu := { s.ttu with walks := w } }) hr hs hk h4 hcheck hlow hhigh v.toNat
  change ok (s.withWalks w fun s => s.busWrite .pf0 ⟨.bar0, k⟩ 4 v.toNat) = _
  unfold State.withWalks
  dsimp only at hbus ⊢
  rw [hbus]

theorem noisyFrame_withWalks_writeWord {s : State} (hc : s.canon = true) (r : Requester) (k v : Nat) (w : List Walk8) (a : Option Reply) :
    NoisyFrame (fun j => j == k || logWord j) s { s with reply := a, ttu := { s.ttu with walks := [] } }
      (s.withWalks w fun s => ({ s with reply := a } : State).writeWord r k v) := by
  have hin : Within (fun j => (j == k || logWord j) || words [Reg.QE_ARB_LOST] j) s
      (({ s with reply := a, ttu := { s.ttu with walks := w } } : State).writeWord r k v) :=
    within_writeWord (within_same (Within.refl s) rfl rfl rfl) (by simp) (fun j hj => by simp [hj]) (fun j hj => by simp [hj])
  refine noisyFrame hc (within_same hin rfl rfl rfl) ?_
  unfold State.withWalks
  dsimp only
  rw [writeWord_rest]

theorem rd_withWalks_writeWord_fpu {s : State} (hc : s.canon = true) {k : Nat} (hk : k / 0x1000000 = 6) (r : Requester) (v : Nat)
    (w : List Walk8) (a : Option Reply) : (s.withWalks w fun s => ({ s with reply := a } : State).writeWord r k v).rd k =
      (if s.shows k then rowOf k else none).elim (s.rd k)
        fun row => row.fields.foldl (writeField (s.flag (Reg.UNIT_SEALED 6)) v) (s.rd k) % 2 ^ 32 := by
  rw [← sealedAt_fpu hk]
  exact (rd_writeWord (s := { s with reply := a, ttu := { s.ttu with walks := w } }) hc (logWord_fpu hk) (arbLostWord_fpu hk)).trans
    (rd_setWord (s := { s with reply := a, ttu := { s.ttu with walks := w } }) hc k v)

/-- The high half of TE_ADMIT_TICK commits the low half that its writer has left before it (R13). -/
theorem write32Via_admitTickHigh {s : State} {r : Requester} {lo : Nat} (hc : s.canon = true) (hm : s.mayWrite r 0x01001108 = true)
    (hlo : (s.holdOf r 0x01001108).wrLo = some lo) (v : Nat) :
    s.write32Via r (State.routeWord r) (State.routePair r) 0x0100110C v =
      (s.setHold { s.holdOf r 0x01001108 with wrLo := none }).setAdmitTick (lo + 2 ^ 32 * v) :=
  (write32Via_high isPairLow_admitTick not_isPairLow_admitTickHigh hlo).trans
    (routePair_admitTick (s := s.setHold { s.holdOf r 0x01001108 with wrLo := none }) hc hm _)

theorem exec_pairHiWrite_admitTick {s : State} {lo : Nat} (hc : s.canon = true) (hr : s.sup.svcRestarting = false)
    (hs : s.served .pf0 = true) (hm : s.mayWrite .pf0 0x01001108 = true) (hlo : (s.holdOf .pf0 0x01001108).wrLo = some lo) (v : Word) :
    exec (.pairHiWrite .pf0 ⟨.bar0, 0x0100110C⟩ v) s =
      ok ((({ s with reply := some .done } : State).setHold { s.holdOf .pf0 0x01001108 with wrLo := none }).setAdmitTick
        (lo + 2 ^ 32 * v.toNat)) := by
  have hwrite := busWrite_bar0 (k := 0x0100110C) (v := v.toNat) hr hs (by decide) (by decide)
  rw [Nat.mod_eq_of_lt v.isLt] at hwrite
  exact congrArg ok (hwrite.trans (write32Via_admitTickHigh (s := { s with reply := some .done }) hc hm hlo _))

/-- The pair TE_ADMIT_TICK keeps 48 of the 64 bits written. -/
theorem get_setAdmitTick {s : State} (hc : s.canon = true) (v : Nat) : (s.setAdmitTick v).get Reg.TE_ADMIT_TICK = v % 2 ^ 48 := by
  simp only [State.setAdmitTick, State.get, rd_wr_same (canon_wr hc),
    rd_wr_ne (canon_wr hc) (show 0x01001108 ≠ 0x0100110C by decide), rd_wr_same hc, bits, setBits]
  simp
  omega

theorem within_setAdmitTick {s₀ s : State} (h : Within (words [Reg.TE_ADMIT_TICK]) s₀ s) (v : Nat) :
    Within (words [Reg.TE_ADMIT_TICK]) s₀ (s.setAdmitTick v) :=
  within_wr (within_wr h (by decide)) (by decide)

/-- Settles O15: each access of PF0 comes to one operation on the word or on the pair's holding register, whose result and frame
are known. -/
theorem registerAccessesComplete : Obligations.RegisterAccessesComplete := by
  intro s hc hr hs
  refine ⟨?readWord, ?readLow, ?writeWord, ?writeLow, ?writeHigh⟩
  case readWord =>
    intro k hk h4 hlow hhigh hoff
    have hread := busRead_bar0 hr hs hk h4
    rw [read32_plain hlow hhigh hoff] at hread
    exact ⟨_, congrArg ok hread, rfl, rfl, settleFor_eq_self, quietFrame_reply_clearRc (canon_settleFor hc) k _⟩
  case readLow =>
    intro k hk h4 hlow htick
    have hread := busRead_bar0 hr hs hk h4
    rw [read32_low hlow htick] at hread
    refine ⟨_, congrArg ok hread, rfl, ?_⟩
    have hhold := holdOf_setHold (s.settleFor k)
      { (s.settleFor k).holdOf .pf0 k with capHi := some ((s.settleFor k).readWord (k + 4)) }
    rw [holdOf_who, holdOf_key] at hhold
    exact congrArg Hold.capHi ((holdOf_clearRc _ _ _ _).trans hhold)
  case writeWord =>
    intro k v w hk h4 hcheck hlow hhigh
    refine ⟨_, exec_registerWrite_fpu hr hs hk h4 hcheck hlow hhigh v w, ?_, ?_, noisyFrame_withWalks_writeWord hc _ _ _ _ _⟩
    · exact congrArg State.reply (writeWord_rest _ _ _ _)
    · rw [rd_withWalks_writeWord_fpu hc hk]
      cases (if s.shows k then rowOf k else none) <;> rfl
  case writeLow =>
    intro k v hk h4 hlow
    have hwrite := busWrite_bar0 (v := v.toNat) hr hs hk h4
    rw [write32Via_low hlow, Nat.mod_eq_of_lt v.isLt] at hwrite
    refine ⟨_, congrArg ok hwrite, ?_, rfl⟩
    have hhold := holdOf_setHold { s with reply := some .done } { s.holdOf .pf0 k with wrLo := some v.toNat }
    rw [holdOf_who, holdOf_key] at hhold
    exact congrArg Hold.wrLo hhold
  case writeHigh =>
    intro lo v hm hlo hlt
    have hhold := holdOf_setHold { s with reply := some .done } { s.holdOf .pf0 0x01001108 with wrLo := none }
    rw [holdOf_who, holdOf_key] at hhold
    refine ⟨_, exec_pairHiWrite_admitTick hc hr hs hm hlo v, get_setAdmitTick hc _, congrArg Hold.wrLo hhold, ?_⟩
    refine quietFrame hc (within_setAdmitTick ?_ _) rfl
    exact within_same (Within.refl s) rfl rfl rfl

end Sys2Proof.Machine
end

section
/-! PROOFS. The hedge link and layering where a held cause is waiting: both statements say that the unit ends FENCED whatever TE has
booked, and the bookings, made again on the way (R17), can undo that in a state whose books name no row of the ledger. -/

namespace Sys2Proof.Machine

/-! ## A booking outside the ledger -/

/-- The number of the row whose USED would be the word HGC_STATE, far beyond the ledger's 40 rows (R75). Nothing in `State` keeps a
booking from naming it, and making such a booking again writes the hedge state. -/
def strayRow : Nat := (Reg.HGC_STATE_STATE.key - (Reg.TE_LEDGER_USED 0).key) / 4

/-- A member of a pair at the end of SETTLE, still in LAYERING (state 2), its link up: FENCE_IN_N, cause 3, is held, and the one
booking that TE keeps has an amount of 1 in that row. -/
def layeringWithStrayBook : State :=
  let s := [(Reg.UNIT_STATE 9, 2), (Reg.TE_TICK, 2000), (Reg.HGC_CFG_ROLE, 1), (Reg.HGC_STATE_STATE, 2), (Reg.HGC_STATE_LINK_UP, 1)].foldl
    (fun (s : State) x => s.put x.1 x.2) State.reset
  { s with
    te := { s.te with books := [⟨false, 0, [(strayRow, 1)], [], []⟩] }
    hgc := { s.hgc with layer := some 2, heldCauses := [3] } }

/-- The command completes with the hedge state `st`. -/
def endsInHedgeState (c : Instr) (s : State) (st : Nat) : Bool :=
  match exec c s with
  | .next t => t.hedgeState == st
  | _ => false

theorem hedgeState_of_endsIn {c : Instr} {s t : State} {st : Nat} (h : endsInHedgeState c s st = true) (ht : exec c s = .next t) :
    t.hedgeState = st := by
  unfold endsInHedgeState at h
  rw [ht] at h
  exact beq_iff_eq.mp h

/-- PARTNER_LOST brings the unit to FORMING, state 1, and with that the bookings are made again: the state reads 0 when the held
cause would be looked at, so the unit is not fenced. -/
theorem partnerLost_strayBook : endsInHedgeState .partnerLost layeringWithStrayBook 0 = true := by decide +kernel

/-- LAYER_DONE brings the unit to STANDBY, and the held cause from there to FENCED, state 5; the bookings are made again last, and
the state reads 4, ACTIVE. -/
theorem layerDone_strayBook : endsInHedgeState .layerDone layeringWithStrayBook 4 = true := by decide +kernel

/-! ## The statements -/

/-- Refutes O35: the clause on PARTNER_LOST under a held cause leaves out that TE has booked nothing, which the clause before it
asks for. `layeringWithStrayBook` meets its hypotheses and ends in state 0, where the clause has FENCED. -/
theorem not_hedgeLinkCommandsComplete : ¬ Obligations.HedgeLinkCommandsComplete := by
  intro h
  obtain ⟨-, hlink, -⟩ := h layeringWithStrayBook (by decide +kernel) (by decide +kernel) (by decide +kernel)
  obtain ⟨-, -, -, hheld, -⟩ := hlink (by decide +kernel)
  obtain ⟨t, ht, -, -, -, hfenced, -⟩ := hheld 3 [] (by decide +kernel) rfl rfl
  rw [hedgeState_of_endsIn partnerLost_strayBook ht] at hfenced
  exact absurd hfenced (by decide)

/-- Refutes O36: the clause on LAYER_DONE under a held cause leaves out that TE has booked nothing, though a unit that is fenced out
of STANDBY books its media again. `layeringWithStrayBook` meets its hypotheses and ends in state 4, where the clause has FENCED. -/
theorem not_layeringCommandsComplete : ¬ Obligations.LayeringCommandsComplete := by
  intro h
  obtain ⟨-, -, -, hmember, -⟩ := h layeringWithStrayBook (by decide +kernel)
  obtain ⟨-, -, hheld⟩ := hmember (by decide +kernel) (by decide +kernel)
  obtain ⟨t, ht, hfenced, -⟩ := hheld 3 [] (by decide +kernel) rfl rfl (by decide +kernel) rfl rfl
  rw [hedgeState_of_endsIn layerDone_strayBook ht] at hfenced
  exact absurd hfenced (by decide)

end Sys2Proof.Machine
end

section
/-! PROOFS. Every arm of the dispatch keeps what `Keeps` names (R37, R45, R62), and with it every step. -/

namespace Sys2Proof.Machine

/-- The dispatch, arm by arm: each command's meaning keeps what every command is to keep. -/
theorem keepsO_exec (c : Instr) (s : State) : KeepsO s (exec c s) :=
  match c with
  | .registerWrite .. => keeps_execRegisterWrite (Keeps.refl s)
  | .readClear .. => keeps_execReadClear (Keeps.refl s)
  | .pairLoRead .. => keeps_execPairLoRead (Keeps.refl s)
  | .pairLoWrite .. => keeps_execPairLoWrite (Keeps.refl s)
  | .pairHiWrite .. => keeps_execPairHiWrite (Keeps.refl s)
  | .mailboxWrite .. => keeps_execMailboxWrite (Keeps.refl s)
  | .vauxApply .. => keeps_execVauxApply (Keeps.refl s)
  | .vauxLoss => keeps_execVauxLoss (Keeps.refl s)
  | .porNAssert => keeps_execPorNAssert (Keeps.refl s)
  | .porNRelease => keeps_execPorNRelease (Keeps.refl s)
  | .railMonitorTrip => keeps_execRailMonitorTrip (Keeps.refl s)
  | .sramInitDone => keeps_execSramInitDone (Keeps.refl s)
  | .selectSlot .. => keeps_execSelectSlot (Keeps.refl s)
  | .firmwareLoad .. => keeps_execFirmwareLoad (Keeps.refl s)
  | .unitLoad .. => keeps_execUnitLoad (Keeps.refl s)
  | .hbmFillStart .. => keeps_execHbmFillStart (Keeps.refl s)
  | .hbmRegionFilled => keeps_execHbmRegionFilled (Keeps.refl s)
  | .fuseKeyHashA => keeps_execFuseKeyHashA (Keeps.refl s)
  | .fuseKeyHashB => keeps_execFuseKeyHashB (Keeps.refl s)
  | .read256 => keeps_execRead256 (Keeps.refl s)
  | .program256 => keeps_execProgram256 (Keeps.refl s)
  | .erase64k => keeps_execErase64k (Keeps.refl s)
  | .flashDone .. => keeps_execFlashDone (Keeps.refl s)
  | .ptpMessageReceived .. => keeps_execPtpMessageReceived (Keeps.refl s)
  | .ptpMessageSend .. => keeps_execPtpMessageSend (Keeps.refl s)
  | .syncTimeout => keeps_execSyncTimeout (Keeps.refl s)
  | .announceTimeout .. => keeps_execAnnounceTimeout (Keeps.refl s)
  | .holdoverExpiry => keeps_execHoldoverExpiry (Keeps.refl s)
  | .delayMechanismClear .. => keeps_execDelayMechanismClear (Keeps.refl s)
  | .ref10Loss => keeps_execRef10Loss (Keeps.refl s)
  | .ppsEdge .. => keeps_execPpsEdge (Keeps.refl s)
  | .tickBoundary .. => keeps_execTickBoundary (Keeps.refl s)
  | .mediaStart => keeps_execMediaStart (Keeps.refl s)
  | .restep .. => keeps_execRestep (Keeps.refl s)
  | .restepStep .. => keeps_execRestepStep (Keeps.refl s)
  | .addFlow .. => keeps_execAddFlow (Keeps.refl s)
  | .removeFlow .. => keeps_execRemoveFlow (Keeps.refl s)
  | .addPoint .. => keeps_execAddPoint (Keeps.refl s)
  | .removePoint .. => keeps_execRemovePoint (Keeps.refl s)
  | .checkFlow .. => keeps_execCheckFlow (Keeps.refl s)
  | .admissionEffective .. => keeps_execAdmissionEffective (Keeps.refl s)
  | .removalRelease .. => keeps_execRemovalRelease (Keeps.refl s)
  | .windowClose .. => keeps_execWindowClose (Keeps.refl s)
  | .mediaOverrun => keeps_execMediaOverrun (Keeps.refl s)
  | .ledgerAudit .. => keeps_execLedgerAudit (Keeps.refl s)
  | .frameArrival .. => keeps_execFrameArrival (Keeps.refl s)
  | .pipelineHeadAccept .. => keeps_execPipelineHeadAccept (Keeps.refl s)
  | .reorderRelease .. => keeps_execReorderRelease (Keeps.refl s)
  | .fabricTransfer .. => keeps_execFabricTransfer (Keeps.refl s)
  | .mediaEgress .. => keeps_execMediaEgress (Keeps.refl s)
  | .beFrameStart .. => keeps_execBeFrameStart (Keeps.refl s)
  | .cutThroughStart .. => keeps_execCutThroughStart (Keeps.refl s)
  | .txComplete .. => keeps_execTxComplete (Keeps.refl s)
  | .txUnderrun .. => keeps_execTxUnderrun (Keeps.refl s)
  | .ctStepDecay .. => keeps_execCtStepDecay (Keeps.refl s)
  | .headOfQueueTimeout .. => keeps_execHeadOfQueueTimeout (Keeps.refl s)
  | .stagedWrite .. => keeps_execStagedWrite (Keeps.refl s)
  | .tblCommit .. => keeps_execTblCommit (Keeps.refl s)
  | .tblCommitEffective => keeps_execTblCommitEffective (Keeps.refl s)
  | .tblCommitSync => keeps_execTblCommitSync (Keeps.refl s)
  | .replicaCompare .. => keeps_execReplicaCompare (Keeps.refl s)
  | .flowEntryWrite .. => keeps_execFlowEntryWrite (Keeps.refl s)
  | .ftuWindowWrite .. => keeps_execFtuWindowWrite (Keeps.refl s)
  | .lpmInsert .. => keeps_execLpmInsert (Keeps.refl s)
  | .lpmDelete .. => keeps_execLpmDelete (Keeps.refl s)
  | .lpmRead .. => keeps_execLpmRead (Keeps.refl s)
  | .insertStatic .. => keeps_execInsertStatic (Keeps.refl s)
  | .deleteStatic .. => keeps_execDeleteStatic (Keeps.refl s)
  | .macRead .. => keeps_execMacRead (Keeps.refl s)
  | .macFlush .. => keeps_execMacFlush (Keeps.refl s)
  | .macFlushDone => keeps_execMacFlushDone (Keeps.refl s)
  | .autoFlushStart => keeps_execAutoFlushStart (Keeps.refl s)
  | .portFlush => keeps_execPortFlush (Keeps.refl s)
  | .ageClockStep => keeps_execAgeClockStep (Keeps.refl s)
  | .shadowCompare .. => keeps_execShadowCompare (Keeps.refl s)
  | .pointWrite .. => keeps_execPointWrite (Keeps.refl s)
  | .termWrite .. => keeps_execTermWrite (Keeps.refl s)
  | .gainRequest .. => keeps_execGainRequest (Keeps.refl s)
  | .vfGainRequest .. => keeps_execVfGainRequest (Keeps.refl s)
  | .listWrite .. => keeps_execListWrite (Keeps.refl s)
  | .leakFix => keeps_execLeakFix (Keeps.refl s)
  | .creditReset .. => keeps_execCreditReset (Keeps.refl s)
  | .autoRearm .. => keeps_execAutoRearm (Keeps.refl s)
  | .rearm .. => keeps_execRearm (Keeps.refl s)
  | .rearmEffective .. => keeps_execRearmEffective (Keeps.refl s)
  | .guardQuery .. => keeps_execGuardQuery (Keeps.refl s)
  | .limitWrite .. => keeps_execLimitWrite (Keeps.refl s)
  | .limitLowered .. => keeps_execLimitLowered (Keeps.refl s)
  | .overridePinFall .. => keeps_execOverridePinFall (Keeps.refl s)
  | .overridePinRise .. => keeps_execOverridePinRise (Keeps.refl s)
  | .overrideRelease .. => keeps_execOverrideRelease (Keeps.refl s)
  | .remoteOverrideEnd => keeps_execRemoteOverrideEnd (Keeps.refl s)
  | .forceWrite .. => keeps_execForceWrite (Keeps.refl s)
  | .forceEffective => keeps_execForceEffective (Keeps.refl s)
  | .ovrPinDisagree => keeps_execOvrPinDisagree (Keeps.refl s)
  | .sidebandWrite .. => keeps_execSidebandWrite (Keeps.refl s)
  | .sidebandEffective => keeps_execSidebandEffective (Keeps.refl s)
  | .sidebandMismatch .. => keeps_execSidebandMismatch (Keeps.refl s)
  | .gateListWrite .. => keeps_execGateListWrite (Keeps.refl s)
  | .gateCommit .. => keeps_execGateCommit (Keeps.refl s)
  | .gateCommitDone => keeps_execGateCommitDone (Keeps.refl s)
  | .cbsSlopeWrite .. => keeps_execCbsSlopeWrite (Keeps.refl s)
  | .cbsLimitWrite .. => keeps_execCbsLimitWrite (Keeps.refl s)
  | .shaperInstanceWrite .. => keeps_execShaperInstanceWrite (Keeps.refl s)
  | .functionMapWrite .. => keeps_execFunctionMapWrite (Keeps.refl s)
  | .shaperRelease .. => keeps_execShaperRelease (Keeps.refl s)
  | .telemEnable .. => keeps_execTelemEnable (Keeps.refl s)
  | .telemConsWrite .. => keeps_execTelemConsWrite (Keeps.refl s)
  | .progWrite .. => keeps_execProgWrite (Keeps.refl s)
  | .progRead .. => keeps_execProgRead (Keeps.refl s)
  | .keyLoad .. => keeps_execKeyLoad (Keeps.refl s)
  | .keyRewrite .. => keeps_execKeyRewrite (Keeps.refl s)
  | .keyErase .. => keeps_execKeyErase (Keeps.refl s)
  | .keySwitched .. => keeps_execKeySwitched (Keeps.refl s)
  | .eraseStart .. => keeps_execEraseStart (Keeps.refl s)
  | .keyErased .. => keeps_execKeyErased (Keeps.refl s)
  | .saWrite .. => keeps_execSaWrite (Keeps.refl s)
  | .rxScWrite .. => keeps_execRxScWrite (Keeps.refl s)
  | .txSaWrite .. => keeps_execTxSaWrite (Keeps.refl s)
  | .linkLock .. => keeps_execLinkLock (Keeps.refl s)
  | .linkUp .. => keeps_execLinkUp (Keeps.refl s)
  | .lockAttemptFail .. => keeps_execLockAttemptFail (Keeps.refl s)
  | .diagnosticDone .. => keeps_execDiagnosticDone (Keeps.refl s)
  | .linkDown .. => keeps_execLinkDown (Keeps.refl s)
  | .pauseFrame .. => keeps_execPauseFrame (Keeps.refl s)
  | .pauseEnd .. => keeps_execPauseEnd (Keeps.refl s)
  | .pauseStorm .. => keeps_execPauseStorm (Keeps.refl s)
  | .pauseHoldoffEnd .. => keeps_execPauseHoldoffEnd (Keeps.refl s)
  | .pauseModeWrite .. => keeps_execPauseModeWrite (Keeps.refl s)
  | .ctBaseWrite .. => keeps_execCtBaseWrite (Keeps.refl s)
  | .vlanCfgWrite .. => keeps_execVlanCfgWrite (Keeps.refl s)
  | .vlanCfgEffective => keeps_execVlanCfgEffective (Keeps.refl s)
  | .snap .. => keeps_execSnap (Keeps.refl s)
  | .statsDone => keeps_execStatsDone (Keeps.refl s)
  | .regFrameRead .. => keeps_execRegFrameRead (Keeps.refl s)
  | .regFrameWrite .. => keeps_execRegFrameWrite (Keeps.refl s)
  | .mgmtLinkChange .. => keeps_execMgmtLinkChange (Keeps.refl s)
  | .requestSend => keeps_execRequestSend (Keeps.refl s)
  | .witRequest .. => keeps_execWitRequest (Keeps.refl s)
  | .witRelease .. => keeps_execWitRelease (Keeps.refl s)
  | .witGrant .. => keeps_execWitGrant (Keeps.refl s)
  | .witDeny .. => keeps_execWitDeny (Keeps.refl s)
  | .witFence .. => keeps_execWitFence (Keeps.refl s)
  | .leaseExpiry => keeps_execLeaseExpiry (Keeps.refl s)
  | .fenceInFall .. => keeps_execFenceInFall (Keeps.refl s)
  | .fenceInRise .. => keeps_execFenceInRise (Keeps.refl s)
  | .hgcFenceWrite .. => keeps_execHgcFenceWrite (Keeps.refl s)
  | .hgcReleaseWrite .. => keeps_execHgcReleaseWrite (Keeps.refl s)
  | .handover => keeps_execHandover (Keeps.refl s)
  | .hgcLayerWrite .. => keeps_execHgcLayerWrite (Keeps.refl s)
  | .hgcHoldWrite .. => keeps_execHgcHoldWrite (Keeps.refl s)
  | .restartWindowEnd => keeps_execRestartWindowEnd (Keeps.refl s)
  | .witnessLost => keeps_execWitnessLost (Keeps.refl s)
  | .replayTick => keeps_execReplayTick (Keeps.refl s)
  | .hello .. => keeps_execHello (Keeps.refl s)
  | .heartbeat .. => keeps_execHeartbeat (Keeps.refl s)
  | .carriedCommand .. => keeps_execCarriedCommand (Keeps.refl s)
  | .hostMirror .. => keeps_execHostMirror (Keeps.refl s)
  | .layerBulk => keeps_execLayerBulk (Keeps.refl s)
  | .bulkDone .. => keeps_execBulkDone (Keeps.refl s)
  | .deltaDone .. => keeps_execDeltaDone (Keeps.refl s)
  | .layerDone => keeps_execLayerDone (Keeps.refl s)
  | .partnerLost => keeps_execPartnerLost (Keeps.refl s)
  | .healthReport => keeps_execHealthReport (Keeps.refl s)
  | .linkTrained .. => keeps_execLinkTrained (Keeps.refl s)
  | .linkRetrained .. => keeps_execLinkRetrained (Keeps.refl s)
  | .dlDown .. => keeps_execDlDown (Keeps.refl s)
  | .perstAssert => keeps_execPerstAssert (Keeps.refl s)
  | .perstDeassert => keeps_execPerstDeassert (Keeps.refl s)
  | .pf0Flr => keeps_execPf0Flr (Keeps.refl s)
  | .pf0D3 => keeps_execPf0D3 (Keeps.refl s)
  | .vfFlr .. => keeps_execVfFlr (Keeps.refl s)
  | .vfD3 .. => keeps_execVfD3 (Keeps.refl s)
  | .vfEnableClear .. => keeps_execVfEnableClear (Keeps.refl s)
  | .watchdogExpiry .. => keeps_execWatchdogExpiry (Keeps.refl s)
  | .wdogKick .. => keeps_execWdogKick (Keeps.refl s)
  | .adopt .. => keeps_execAdopt (Keeps.refl s)
  | .readCompletion .. => keeps_execReadCompletion (Keeps.refl s)
  | .completionTimeout .. => keeps_execCompletionTimeout (Keeps.refl s)
  | .msixUnmask .. => keeps_execMsixUnmask (Keeps.refl s)
  | .contextWrite .. => keeps_execContextWrite (Keeps.refl s)
  | .invAll .. => keeps_execInvAll (Keeps.refl s)
  | .invFunc .. => keeps_execInvFunc (Keeps.refl s)
  | .invRange .. => keeps_execInvRange (Keeps.refl s)
  | .invDone .. => keeps_execInvDone (Keeps.refl s)
  | .logSync .. => keeps_execLogSync (Keeps.refl s)
  | .logSyncDone .. => keeps_execLogSyncDone (Keeps.refl s)
  | .setLimit .. => keeps_execSetLimit (Keeps.refl s)
  | .poolAssign .. => keeps_execPoolAssign (Keeps.refl s)
  | .poolReclaim .. => keeps_execPoolReclaim (Keeps.refl s)
  | .mbxSendToPf .. => keeps_execMbxSendToPf (Keeps.refl s)
  | .mbxSendToVf .. => keeps_execMbxSendToVf (Keeps.refl s)
  | .mbxAckByPf .. => keeps_execMbxAckByPf (Keeps.refl s)
  | .mbxAckByVf .. => keeps_execMbxAckByVf (Keeps.refl s)
  | .doorbellFetch .. => keeps_execDoorbellFetch (Keeps.refl s)
  | .doorbellConsume .. => keeps_execDoorbellConsume (Keeps.refl s)
  | .wrrTurn .. => keeps_execWrrTurn (Keeps.refl s)
  | .descriptorFetch .. => keeps_execDescriptorFetch (Keeps.refl s)
  | .txFrameRead .. => keeps_execTxFrameRead (Keeps.refl s)
  | .hostRxWrite .. => keeps_execHostRxWrite (Keeps.refl s)
  | .headPublish .. => keeps_execHeadPublish (Keeps.refl s)
  | .mediaTxDeliver .. => keeps_execMediaTxDeliver (Keeps.refl s)
  | .submitComplete .. => keeps_execSubmitComplete (Keeps.refl s)
  | .ringContextWrite .. => keeps_execRingContextWrite (Keeps.refl s)
  | .ringEnable .. => keeps_execRingEnable (Keeps.refl s)
  | .ringDisable .. => keeps_execRingDisable (Keeps.refl s)
  | .ringIdle .. => keeps_execRingIdle (Keeps.refl s)
  | .eventGrant .. => keeps_execEventGrant (Keeps.refl s)
  | .eventOverflow .. => keeps_execEventOverflow (Keeps.refl s)
  | .eventSignal .. => keeps_execEventSignal (a1 := ()) (Keeps.refl s)
  | .nvmeFlush .. => keeps_execNvmeFlush (Keeps.refl s)
  | .nvmeWrite .. => keeps_execNvmeWrite (Keeps.refl s)
  | .nvmeRead .. => keeps_execNvmeRead (Keeps.refl s)
  | .storageComplete .. => keeps_execStorageComplete (Keeps.refl s)
  | .storageCmdTimeout .. => keeps_execStorageCmdTimeout (Keeps.refl s)
  | .openConn .. => keeps_execOpenConn (Keeps.refl s)
  | .closeConn .. => keeps_execCloseConn (Keeps.refl s)
  | .abortConn .. => keeps_execAbortConn (Keeps.refl s)
  | .connUp .. => keeps_execConnUp (Keeps.refl s)
  | .tcpSegment .. => keeps_execTcpSegment (Keeps.refl s)
  | .tcpRetransmitTimeout .. => keeps_execTcpRetransmitTimeout (Keeps.refl s)
  | .peerRst .. => keeps_execPeerRst (Keeps.refl s)
  | .icresp .. => keeps_execIcresp (Keeps.refl s)
  | .capsuleResp .. => keeps_execCapsuleResp (Keeps.refl s)
  | .c2hData .. => keeps_execC2hData (Keeps.refl s)
  | .readyToTransfer .. => keeps_execReadyToTransfer (Keeps.refl s)
  | .c2hTermReq .. => keeps_execC2hTermReq (Keeps.refl s)
  | .driveRequestUr => keeps_execDriveRequestUr (Keeps.refl s)
  | .presenceStable => keeps_execPresenceStable (Keeps.refl s)
  | .presenceLost => keeps_execPresenceLost (Keeps.refl s)
  | .attentionButton => keeps_execAttentionButton (Keeps.refl s)
  | .removalWindowEnd => keeps_execRemovalWindowEnd (Keeps.refl s)
  | .powerOn .. => keeps_execPowerOn (Keeps.refl s)
  | .slotRemove .. => keeps_execSlotRemove (Keeps.refl s)
  | .powerFault => keeps_execPowerFault (Keeps.refl s)
  | .slotPerstRelease => keeps_execSlotPerstRelease (Keeps.refl s)
  | .slotTrainingDone .. => keeps_execSlotTrainingDone (Keeps.refl s)
  | .identifyDone .. => keeps_execIdentifyDone (Keeps.refl s)
  | .shutdownComplete => keeps_execShutdownComplete (Keeps.refl s)
  | .slotLinkDown => keeps_execSlotLinkDown (Keeps.refl s)
  | .namespaceWrite .. => keeps_execNamespaceWrite (Keeps.refl s)
  | .recordingWrite .. => keeps_execRecordingWrite (Keeps.refl s)
  | .recStart .. => keeps_execRecStart (Keeps.refl s)
  | .recStop .. => keeps_execRecStop (Keeps.refl s)
  | .recStarted .. => keeps_execRecStarted (Keeps.refl s)
  | .stopEffective .. => keeps_execStopEffective (Keeps.refl s)
  | .chunkDue .. => keeps_execChunkDue (Keeps.refl s)
  | .chunkWritten .. => keeps_execChunkWritten (Keeps.refl s)
  | .lockstepMismatch => keeps_execLockstepMismatch (Keeps.refl s)
  | .safetyWdogExpiry => keeps_execSafetyWdogExpiry (Keeps.refl s)
  | .safetyOrder => keeps_execSafetyOrder (Keeps.refl s)
  | .thermalTrip => keeps_execThermalTrip (Keeps.refl s)
  | .clockFault .. => keeps_execClockFault (Keeps.refl s)
  | .serviceHeartbeatMissed => keeps_execServiceHeartbeatMissed (Keeps.refl s)
  | .serviceRestart => keeps_execServiceRestart (Keeps.refl s)
  | .scrubVisit .. => keeps_execScrubVisit (Keeps.refl s)
  | .bistSlice .. => keeps_execBistSlice (Keeps.refl s)
  | .tempUpdate .. => keeps_execTempUpdate (Keeps.refl s)
  | .resetCold .. => keeps_execResetCold (Keeps.refl s)
  | .resetWarm .. => keeps_execResetWarm (Keeps.refl s)
  | .resetUnit .. => keeps_execResetUnit (Keeps.refl s)
  | .warmResetEffective => keeps_execWarmResetEffective (Keeps.refl s)
  | .unitResetDone .. => keeps_execUnitResetDone (Keeps.refl s)
  | .ref10Return => keeps_execRef10Return (Keeps.refl s)
  | .ppsAbsent => keeps_execPpsAbsent (Keeps.refl s)
  | .holdLockLoss .. => keeps_execHoldLockLoss (Keeps.refl s)
  | .hedgeLinkUp .. => keeps_execHedgeLinkUp (Keeps.refl s)
  | .witClkLoss => keeps_execWitClkLoss (Keeps.refl s)
  | .witClkRecovered => keeps_execWitClkRecovered (Keeps.refl s)
  | .returnToD0 .. => keeps_execReturnToD0 (Keeps.refl s)
  | .capToExpiry => keeps_execCapToExpiry (Keeps.refl s)
  | .removalDrainTimeout => keeps_execRemovalDrainTimeout (Keeps.refl s)
  | .railsRestored => keeps_execRailsRestored (Keeps.refl s)
  | .serviceWaitTimeout .. => keeps_execServiceWaitTimeout (Keeps.refl s)
  | .connContextWrite .. => keeps_execConnContextWrite (Keeps.refl s)

/-- Settles O54, by the lemma of each arm of the dispatch. -/
theorem everyCommandKeeps : Obligations.EveryCommandKeeps :=
  fun c s t ht => (keepsO_exec c s).of t ht

/-- Settles O55: an idle step answers the same state, and any other runs the front command, which keeps all of it (O54), with the
queue's rest in the state. -/
theorem everyStepKeepsCanon : Obligations.EveryStepKeepsCanon := by
  intro s t ht
  cases hqueue : s.pending with
  | nil =>
    simp only [step, hqueue, Host.Outcome.next.injEq] at ht
    subst ht
    exact ⟨hqueue, id, List.suffix_refl _, Nat.le_refl _, rfl, Nat.le_refl _⟩
  | cons c rest =>
    simp only [step, hqueue] at ht
    have hkeeps : Keeps { s with pending := rest } t := everyCommandKeeps c _ t ht
    exact ⟨hkeeps.pending, hkeeps.canon, hkeeps.out, hkeeps.free, hkeeps.mac, hkeeps.secver⟩

end Sys2Proof.Machine
end

section
/-! PROOFS. FLASH_DONE (R63): what a flash operation moves and what its end shows. -/

namespace Sys2Proof.Machine

/-! ## Fields after a write -/

/-- Both fields stand in whole words, and they share no bit. -/
def Field.off (f g : Field) : Bool :=
  f.ok && g.ok && (decide (f.at + f.width ≤ g.at) || decide (g.at + g.width ≤ f.at))

theorem get_put_off {s : State} {f g : Field} {v : Nat} (hc : s.canon = true) (h : f.off g = true) : (s.put f v).get g = s.get g := by
  simp only [Field.off, Bool.and_eq_true, Bool.or_eq_true, decide_eq_true_eq] at h
  exact get_put_apart hc h.1.1 h.1.2 h.2

/-- A field whose words an update leaves alone reads as before. -/
theorem Within.get_eq {area : Nat → Bool} {s t : State} {f : Field} (h : Within area s t) (hc : s.canon = true)
    (hlo : area f.key = false) (hhi : area (f.key + 4) = false) : t.get f = s.get f := by
  have hw := h.words hc
  simp only [State.get, hw _ hlo, hw _ hhi]

/-! ## Flash bytes (R63) -/

theorem canon_flash {s : State} (hc : s.canon = true) : Sparse.wf flashBlank s.sup.flash = true := by
  simp only [State.canon, Bool.and_eq_true] at hc
  exact hc.2

theorem flashPut_cons (s : State) (a : Nat) (b : Byte) (l : Bytes) :
    s.flashPut a (b :: l) = (s.flashPut a [b]).flashPut (a + 1) l := rfl

theorem canon_flashPut {s : State} (hc : s.canon = true) (a : Nat) (l : Bytes) : (s.flashPut a l).canon = true :=
  (keeps_flashPut (Keeps.refl s)).canon hc

theorem flashByte_flashPut_one {s : State} (hc : s.canon = true) (a : Nat) (b : Byte) (x : Nat) :
    (s.flashPut a [b]).flashByte x = if x = a then b else s.flashByte x := by
  change Sparse.get flashBlank (Sparse.set flashBlank s.sup.flash a b) x = _
  split
  next h => rw [h, Sparse.get_set_same (canon_flash hc)]
  next h => exact Sparse.get_set_ne (canon_flash hc) h

/-- The bytes written stand from the address on, and every other byte is as it was. -/
theorem flashByte_flashPut {s : State} (hc : s.canon = true) (a : Nat) (l : Bytes) (x : Nat) :
    (s.flashPut a l).flashByte x = if a ≤ x ∧ x < a + l.length then l.getD (x - a) 0 else s.flashByte x := by
  induction l generalizing s a with
  | nil => rw [if_neg (by rw [List.length_nil]; omega)]; rfl
  | cons b l ih =>
    rw [flashPut_cons, ih (canon_flashPut hc a [b]), flashByte_flashPut_one hc, List.length_cons]
    rcases Nat.lt_trichotomy x a with h | h | h
    · rw [if_neg (by omega), if_neg (by omega), if_neg (by omega)]
    · subst h
      rw [if_neg (by omega), if_pos rfl, if_pos (by omega), Nat.sub_self, List.getD_cons_zero]
    · rw [if_neg (show x ≠ a by omega), show x - a = x - (a + 1) + 1 by omega, List.getD_cons_succ]
      exact if_congr (by omega) rfl rfl

theorem toLE_four (v : Nat) : toLE 4 v =
    [BitVec.ofNat 8 v, BitVec.ofNat 8 (v / 256), BitVec.ofNat 8 (v / 256 ^ 2), BitVec.ofNat 8 (v / 256 ^ 3)] := by
  simp only [toLE, Nat.div_div_eq_div_mul, pow_succ, pow_zero, Nat.one_mul, Nat.mul_assoc]

theorem length_flatMap_toLE (l : List Nat) : (l.flatMap (toLE 4)).length = 4 * l.length := by
  induction l with
  | nil => rfl
  | cons v l ih => rw [List.flatMap_cons, List.length_append, ih, toLE_four, List.length_cons]; simp; omega

/-- Byte `i` of words laid out in little-endian order is a byte of word `i / 4`. -/
theorem getD_flatMap_toLE (l : List Nat) (i : Nat) (hi : i < 4 * l.length) :
    (l.flatMap (toLE 4)).getD i 0 = BitVec.ofNat 8 (l.getD (i / 4) 0 / 256 ^ (i % 4)) := by
  induction l generalizing i with
  | nil => simp at hi
  | cons v l ih =>
    rw [List.flatMap_cons, toLE_four]
    match i with
    | 0 | 1 | 2 | 3 => simp
    | i + 4 =>
      have hrest := ih i (by rw [List.length_cons] at hi; omega)
      rw [show (i + 4) / 4 = i / 4 + 1 by omega, show (i + 4) % 4 = i % 4 by omega, List.getD_cons_succ, ← hrest]
      rfl

theorem ofLE_lt (l : Bytes) : ofLE l < 256 ^ l.length := by
  induction l with
  | nil => simp [ofLE]
  | cons b l ih =>
    have hb : b.toNat < 256 := b.isLt
    rw [ofLE, List.length_cons, pow_succ]
    omega

/-- A word of a list written from `k` on reads back. -/
theorem rd_wrWords {s : State} (hc : s.canon = true) (k : Nat) (l : List Nat) (i : Nat) (hi : i < l.length) :
    (s.wrWords k l).rd (k + 4 * i) = l.getD i 0 % 2 ^ 32 := by
  induction l generalizing s k i with
  | nil => simp at hi
  | cons v l ih =>
    change ((s.wr k v).wrWords (k + 4) l).rd (k + 4 * i) = _
    cases i with
    | zero =>
      have hafter : Within (fun j => decide (k < j)) (s.wr k v) ((s.wr k v).wrWords (k + 4) l) :=
        within_wrWords (Within.refl _) fun i _ => by simp; omega
      exact (hafter.words (canon_wr hc) k (by simp)).trans (rd_wr_same hc)
    | succ i =>
      rw [List.length_cons] at hi
      rw [show k + 4 * (i + 1) = k + 4 + 4 * i by omega, ih (canon_wr hc) (k + 4) i (by omega), List.getD_cons_succ]

theorem wrWords_rest (s : State) (k : Nat) (l : List Nat) : ∃ r, s.wrWords k l = { s with regs := r } := by
  induction l generalizing s k with
  | nil => exact ⟨s.regs, rfl⟩
  | cons v l ih =>
    obtain ⟨r, hr⟩ := ih (s.wr k v) (k + 4)
    exact ⟨r, hr⟩

/-! ## FLASH_DONE (R63) -/

/-- What a flash operation moves, where nothing refuses it and the device carries it out. -/
def State.flashMoved (s : State) (op a : Nat) : State :=
  if op = 1 then s.wrWords 0x1100 ((List.range 64).map (fun i => ofLE (s.flashBytes (a + 4 * i) 4)))
  else if op = 2 then s.flashPut a ((s.rdWords 0x1100 64).flatMap (toLE 4))
  else s.flashPut a (List.replicate 65536 0xFF)

/-- How a flash operation ends: BUSY clears, ERR is set, and FLASH_DONE is raised when QE is in RUN. -/
def State.flashEnd (s : State) (err : Nat) : State :=
  let t := ({ s with sup := { s.sup with flashOp := none } } : State)
  let t := (t.put Reg.SUP_FLASH_CTL_BUSY 0).put Reg.SUP_FLASH_CTL_ERR err
  t.when (t.running .qe) (fun t => t.raise .sup 1 [])

theorem exec_flashDone_carried {s : State} {op a : Nat} (hop : s.sup.flashOp = some (op, a)) (herr : s.flashErr op a = 0) :
    exec (.flashDone true) s = ok ((s.flashMoved op a).flashEnd 0) := by
  simp only [exec, execFlashDone, hop, herr, bne_self_eq_false, Bool.false_eq_true, if_false, if_true, State.flashMoved, State.flashEnd]

theorem flashErr_lt (s : State) (op a : Nat) : s.flashErr op a < 4 := by
  unfold State.flashErr
  split_ifs <;> decide

theorem exec_flashDone_refused {s : State} {op a : Nat} (device : Bool) (hop : s.sup.flashOp = some (op, a))
    (herr : s.flashErr op a ≠ 0) : exec (.flashDone device) s = ok (s.flashEnd (s.flashErr op a)) := by
  have hdevice : s.flashErr op a ≠ 4 := by have := flashErr_lt s op a; omega
  simp only [exec, execFlashDone, hop, bne_iff_ne, ne_eq, herr, hdevice, not_false_eq_true, if_true, if_false, State.flashEnd]

theorem flashEnd_sup (s : State) (err : Nat) : (s.flashEnd err).sup = { s.sup with flashOp := none } := by
  unfold State.flashEnd State.when
  dsimp only
  split <;> simp

theorem flashByte_flashEnd (s : State) (err x : Nat) : (s.flashEnd err).flashByte x = s.flashByte x := by
  unfold State.flashByte
  rw [flashEnd_sup]

theorem flashEnd_rest (s : State) (err : Nat) : s.flashEnd err =
    { s with sup := (s.flashEnd err).sup, regs := (s.flashEnd err).regs, events := (s.flashEnd err).events,
             once := (s.flashEnd err).once } := by
  unfold State.flashEnd State.when State.raise
  dsimp only
  split
  · rw [raiseEvent_rest]; simp only [put_rest]
  · simp only [put_rest]

theorem within_flashEnd {area : Nat → Bool} {s₀ s : State} {err : Nat} (h : Within area s₀ s)
    (hctl : area Reg.SUP_FLASH_CTL_BUSY.key = true) (hlost : ∀ j, words [Reg.QE_ARB_LOST] j = true → area j = true) :
    Within area s₀ (s.flashEnd err) := by
  have hput : Within area s₀ ((({ s with sup := { s.sup with flashOp := none } } : State).put Reg.SUP_FLASH_CTL_BUSY 0).put
      Reg.SUP_FLASH_CTL_ERR err) :=
    within_put (within_put (within_same h rfl rfl rfl) hctl (.inl (by decide))) hctl (.inl (by decide))
  exact within_when (f := fun t => t.raise .sup 1 []) hput (within_raise hput (hlost _ (by decide)) (hlost _ (by decide)))

/-- FLASH_CTL shows the operation ended, with its error. -/
theorem flashCtl_flashEnd {s : State} (hc : s.canon = true) (err : Nat) :
    (s.flashEnd err).flag Reg.SUP_FLASH_CTL_BUSY = false ∧ (s.flashEnd err).get Reg.SUP_FLASH_CTL_ERR = err % 256 := by
  have hc' : ({ s with sup := { s.sup with flashOp := none } } : State).canon = true := hc
  have hraised : ∀ (t : State) (f : Field) (b : Bool), t.canon = true → words [Reg.QE_ARB_LOST] f.key = false →
      words [Reg.QE_ARB_LOST] (f.key + 4) = false → (t.when b (fun t => t.raise .sup 1 [])).get f = t.get f := by
    intro t f b ht hlo hhi
    exact (within_when (Within.refl t) (within_raise (Within.refl t) (by decide) (by decide))).get_eq ht hlo hhi
  unfold State.flashEnd State.flag
  dsimp only
  rw [hraised _ _ _ (canon_put (canon_put hc')) (by decide) (by decide), hraised _ _ _ (canon_put (canon_put hc')) (by decide) (by decide),
    get_put_same (canon_put hc') (by decide), get_put_off (canon_put hc') (by decide), get_put_same hc' (by decide)]
  exact ⟨rfl, rfl⟩

theorem canon_flashMoved {s : State} (hc : s.canon = true) (op a : Nat) : (s.flashMoved op a).canon = true := by
  unfold State.flashMoved
  split_ifs
  · exact (keeps_wrWords (Keeps.refl s)).canon hc
  · exact canon_flashPut hc _ _
  · exact canon_flashPut hc _ _

/-- A program or an erase changes flash alone. -/
theorem within_flashPut {area : Nat → Bool} (s : State) (a : Nat) (l : Bytes) : Within area s (s.flashPut a l) :=
  ⟨fun hc => canon_flashPut hc a l, fun _ _ _ => rfl, (Within.refl (area := area) s).kept⟩

theorem noisyFrame_flashEnd_flashPut {s : State} (hc : s.canon = true) (a : Nat) (l : Bytes) (err : Nat) :
    NoisyFrame (words [Reg.SUP_FLASH_CTL_BUSY]) s { s with sup := ((s.flashPut a l).flashEnd err).sup } ((s.flashPut a l).flashEnd err) :=
  noisyFrame hc (within_flashEnd (within_flashPut s a l) (by decide) (fun j hj => by simp [hj])) (flashEnd_rest _ _)

/-- The byte that PROGRAM_256 writes `i` bytes on is byte `i` of the buffer's words. -/
theorem programByte (s : State) (i : Nat) (hi : i < 256) : ((s.rdWords 0x1100 64).flatMap (toLE 4)).getD i 0 =
    BitVec.ofNat 8 (s.rd (0x1100 + i / 4 * 4) / 256 ^ (i % 4)) := by
  have hlen : (s.rdWords 0x1100 64).length = 64 := by simp [State.rdWords]
  have hword : (s.rdWords 0x1100 64).getD (i / 4) 0 = s.rd (0x1100 + i / 4 * 4) := by
    simp [State.rdWords, List.getD, List.getElem?_range (show i / 4 < 64 by omega), Nat.mul_comm]
  rw [getD_flatMap_toLE _ _ (by omega), hword]

theorem length_programBytes (s : State) : ((s.rdWords 0x1100 64).flatMap (toLE 4)).length = 256 := by
  rw [length_flatMap_toLE]
  simp [State.rdWords]

/-- READ_256 fills the buffer: its word `i` takes the four flash bytes from `a + 4 * i` on. -/
theorem rd_flashBuffer {s : State} (hc : s.canon = true) (a i : Nat) (hi : i < 64) :
    (s.wrWords 0x1100 ((List.range 64).map (fun i => ofLE (s.flashBytes (a + 4 * i) 4)))).rd (0x1100 + 4 * i) =
      ofLE (s.flashBytes (a + 4 * i) 4) := by
  have hlt : ofLE (s.flashBytes (a + 4 * i) 4) < 2 ^ 32 := by
    have h := ofLE_lt (s.flashBytes (a + 4 * i) 4)
    rwa [show (s.flashBytes (a + 4 * i) 4).length = 4 by simp [State.flashBytes]] at h
  rw [rd_wrWords hc _ _ _ (by simpa using hi)]
  simpa [List.getD, List.getElem?_range hi] using hlt

/-- Settles O14: what an operation moves is read off `flashByte_flashPut` and `rd_wrWords`; its end touches FLASH_CTL alone. -/
theorem flashDoneBytes : Obligations.FlashDoneBytes := by
  intro s a hc
  refine ⟨?program, ?erase, ?read, ?refused⟩
  case program =>
    intro hop herr
    obtain ⟨hbusy, herr0⟩ := flashCtl_flashEnd (canon_flashMoved hc 2 a) 0
    refine ⟨_, exec_flashDone_carried hop herr, fun x => ?_, hbusy, herr0, noisyFrame_flashEnd_flashPut hc _ _ _⟩
    rw [flashByte_flashEnd]
    refine (flashByte_flashPut hc _ _ _).trans ?_
    rw [length_programBytes]
    exact ite_congr rfl (fun h => programByte s (x - a) (by omega)) fun _ => rfl
  case erase =>
    intro hop herr
    obtain ⟨hbusy, -⟩ := flashCtl_flashEnd (canon_flashMoved hc 3 a) 0
    refine ⟨_, exec_flashDone_carried hop herr, fun x => ?_, hbusy, noisyFrame_flashEnd_flashPut hc _ _ _⟩
    rw [flashByte_flashEnd]
    refine (flashByte_flashPut hc _ _ _).trans ?_
    rw [List.length_replicate]
    exact ite_congr rfl (fun h => List.getD_replicate _ (by omega)) fun _ => rfl
  case read =>
    intro hop herr
    obtain ⟨hbusy, -⟩ := flashCtl_flashEnd (canon_flashMoved hc 1 a) 0
    have hmoved : s.flashMoved 1 a = s.wrWords 0x1100 ((List.range 64).map (fun i => ofLE (s.flashBytes (a + 4 * i) 4))) := rfl
    refine ⟨_, exec_flashDone_carried hop herr, fun i hi => ?_, ?_, hbusy, ?_⟩
    · have hend : Within (fun j => words [Reg.SUP_FLASH_CTL_BUSY] j || words [Reg.QE_ARB_LOST] j) (s.flashMoved 1 a)
          ((s.flashMoved 1 a).flashEnd 0) := within_flashEnd (Within.refl _) (by decide) (fun j hj => by simp [hj])
      rw [hend.words (canon_flashMoved hc 1 a) _ (by simp [words]; omega), hmoved]
      exact rd_flashBuffer hc a i hi
    · rw [flashEnd_sup, hmoved, State.wrWords_sup]
    · refine noisyFrame hc (within_flashEnd ?_ (by decide) fun j hj => by simp [hj]) ?_
      · refine within_wrWords (Within.refl s) fun i hi => ?_
        simp at hi
        simp [inRange]
        omega
      · obtain ⟨r, hr⟩ := wrWords_rest s 0x1100 ((List.range 64).map (fun i => ofLE (s.flashBytes (a + 4 * i) 4)))
        rw [hmoved, hr]
        exact flashEnd_rest _ _
  case refused =>
    intro op device hop herr
    obtain ⟨hbusy, hcode⟩ := flashCtl_flashEnd hc (s.flashErr op a)
    refine ⟨_, exec_flashDone_refused device hop herr, by rw [flashEnd_sup], hcode.trans ?_, hbusy⟩
    have := flashErr_lt s op a
    omega

end Sys2Proof.Machine
end

section
/-! PROOFS. The boot (R44, R47, R50, R51, R58, R62): slot selection, the firmware's load, the HBM fill, OTP and the start of flash
operations; the COLD reset on the way. -/

namespace Sys2Proof.Machine

/-! ## Updates of registers alone -/

/-- From `s` to `t` words of `area` change, and nothing but registers does. -/
structure Writes (area : Nat → Bool) (s t : State) : Prop where
  within : Within area s t
  rest : t = { s with regs := t.regs }

section
variable {area : Nat → Bool} {s₀ s t : State}

theorem Writes.refl (s : State) : Writes area s s := ⟨Within.refl s, rfl⟩

theorem Writes.trans (h : Writes area s₀ s) (g : Writes area s t) : Writes area s₀ t :=
  ⟨h.within.trans g.within, by rw [g.rest, h.rest]⟩

theorem Writes.mono {more : Nat → Bool} (h : Writes area s t) (hm : ∀ k, area k = true → more k = true) : Writes more s t :=
  ⟨h.within.mono hm, h.rest⟩

theorem Writes.sup (h : Writes area s t) : t.sup = s.sup := by rw [h.rest]

theorem Writes.canon (h : Writes area s t) (hc : s.canon = true) : t.canon = true := h.within.canon hc

/-- A field whose words stand outside the area reads as before. -/
theorem Writes.get_eq (h : Writes area s t) (hc : s.canon = true) {f : Field} (hlo : area f.key = false)
    (hhi : area (f.key + 4) = false) : t.get f = s.get f := h.within.get_eq hc hlo hhi

theorem writes_wr (h : Writes area s₀ s) {k v : Nat} (hk : area k = true) : Writes area s₀ (s.wr k v) :=
  ⟨within_wr h.within hk, by rw [h.rest]; rfl⟩

theorem writes_put (h : Writes area s₀ s) {f : Field} {v : Nat} (hlo : area f.key = true)
    (hhi : f.hi < 32 ∨ area (f.key + 4) = true) : Writes area s₀ (s.put f v) :=
  ⟨within_put h.within hlo hhi, by rw [put_rest, h.rest]⟩

theorem writes_ite {a b : State} {c : Prop} [Decidable c] (ha : Writes area s₀ a) (hb : Writes area s₀ b) :
    Writes area s₀ (if c then a else b) := by split <;> assumption

theorem writes_foldl {α : Type} {l : List α} {f : State → α → State} (h : Writes area s₀ s)
    (hf : ∀ s x, x ∈ l → Writes area s₀ s → Writes area s₀ (f s x)) : Writes area s₀ (l.foldl f s) := by
  induction l generalizing s with
  | nil => exact h
  | cons x l ih => exact ih (hf s x (List.mem_cons_self ..) h) fun s y hy => hf s y (List.mem_cons_of_mem _ hy)

end

theorem flag_put_off {s : State} {f g : Field} {v : Nat} (hc : s.canon = true) (h : f.off g = true) :
    (s.put f v).flag g = s.flag g := by rw [State.flag, State.flag, get_put_off hc h]

/-- Fields set one after the other. -/
def State.puts (s : State) (l : List (Field × Nat)) : State := l.foldl (fun s p => s.put p.1 p.2) s

theorem canon_puts {s : State} (hc : s.canon = true) (l : List (Field × Nat)) : (s.puts l).canon = true := by
  induction l generalizing s with
  | nil => exact hc
  | cons p l ih => exact ih (canon_put hc)

theorem puts_sup (s : State) (l : List (Field × Nat)) : (s.puts l).sup = s.sup := by
  induction l generalizing s with
  | nil => rfl
  | cons p l ih => exact (ih _).trans (State.put_sup ..)

/-- A field that shares no bit with those set reads as before. -/
theorem get_puts_off {s : State} (hc : s.canon = true) {l : List (Field × Nat)} {g : Field} (h : l.all (fun p => p.1.off g) = true) :
    (s.puts l).get g = s.get g := by
  induction l generalizing s with
  | nil => rfl
  | cons p l ih =>
    rw [List.all_cons, Bool.and_eq_true] at h
    exact (ih (canon_put hc) h.2).trans (get_put_off hc h.1)

/-- A field reads what was set last. -/
theorem get_puts_last {s : State} (hc : s.canon = true) (l : List (Field × Nat)) {f : Field} {v : Nat} {m : List (Field × Nat)}
    (hf : f.ok = true) (h : m.all (fun p => p.1.off f) = true) : (s.puts (l ++ (f, v) :: m)).get f = v % 2 ^ f.width := by
  have hsplit : s.puts (l ++ (f, v) :: m) = ((s.puts l).put f v).puts m := by simp [State.puts]
  rw [hsplit, get_puts_off (canon_put (canon_puts hc l)) h, get_put_same (canon_puts hc l) hf]

/-! ## Power domains and PLLs (R443, R448) -/

/-- The words of the power domains. -/
def powerWord (k : Nat) : Bool := inRange k 0x1610 0x14

theorem writes_setPower {area : Nat → Bool} {s₀ s : State} {d : Nat} {on : Bool} (h : Writes area s₀ s)
    (hd : area (0x1610 + 4 * (d / 32)) = true) : Writes area s₀ (s.setPower d on) := writes_wr h hd

theorem powerDomains_lt (u : Nat) : (powerDomains u).1 + (powerDomains u).2 ≤ 146 := by
  unfold powerDomains
  split <;> decide

theorem writes_powerUnit (s : State) (u : Nat) (on : Bool) : Writes powerWord s (s.powerUnit u on) := by
  have hdomains := powerDomains_lt u
  unfold State.powerUnit forEach
  refine writes_foldl (Writes.refl s) fun t i hi ht => ?_
  have hi : i < (powerDomains u).2 := List.mem_range.mp hi
  have hword : powerWord (0x1610 + 4 * (((powerDomains u).1 + i) / 32)) = true := by
    simp only [powerWord, inRange, Bool.and_eq_true, decide_eq_true_eq]
    omega
  dsimp only
  exact writes_ite (writes_setPower ht hword) (writes_ite (writes_setPower ht hword) (writes_setPower ht hword))

theorem writes_lockPll {area : Nat → Bool} {s₀ s : State} (h : Writes area s₀ s) {k : Nat}
    (hk : area Reg.SUP_CLK_STATUS_LOCKED.key = true) : Writes area s₀ (s.lockPll k) := writes_put h hk (.inl (by decide))

theorem bitAt_eq_testBit (w i : Nat) : bitAt w i = w.testBit i := by
  rw [bitAt, Nat.testBit_eq_decide_div_mod_eq]
  rfl

/-- LOCKED of PLL `i` after PLL `k` locks. -/
theorem locked_lockPll {s : State} (hc : s.canon = true) (k i : Nat) (hi : i < 17) :
    bitAt ((s.lockPll k).get Reg.SUP_CLK_STATUS_LOCKED) i = (decide (i = k) || bitAt (s.get Reg.SUP_CLK_STATUS_LOCKED) i) := by
  rw [State.lockPll, get_put_same hc (by decide), bitAt_eq_testBit, bitAt_eq_testBit, Nat.testBit_mod_two_pow, setBits_testBit]
  have hw : i < Reg.SUP_CLK_STATUS_LOCKED.width := hi
  rcases Nat.lt_trichotomy i k with h | h | h
  · simp [hw, h, h.ne]
  · subst h; simp [hw]
  · simp [hw, show ¬ i < k by omega, show ¬ i < k + 1 by omega, h.ne']


/-! ## The COLD reset (R450) -/

theorem flashSpoil_regs (s : State) (op a : Nat) : (s.flashSpoil op a).regs = s.regs := by
  have hfree : ∀ (n : Nat) (s : State), (s.freeBytes n).2.regs = s.regs := by
    intro n
    induction n with
    | zero => intro s; rfl
    | succ n ih => intro s; exact ih s.takeFree.2
  exact hfree _ s

theorem hold_regs (s : State) : s.hold.regs = s.regs.filter (fun x => isAon x.1) := by
  unfold State.hold State.coldKeep
  dsimp only
  split
  · split
    · rw [flashSpoil_regs]
    · rfl
  · rfl

theorem canon_hold {s : State} (hc : s.canon = true) : s.hold.canon = true := (keeps_hold (Keeps.refl s)).canon hc

/-- While the device is held, every word outside domain AON reads its reset value. -/
theorem rd_hold {s : State} (hc : s.canon = true) (k : Nat) : s.hold.rd k = if isAon k then s.rd k else (resetWord k).toNat := by
  have hregs : s.hold.regs = (s.resetWords fun k => !isAon k).regs := by simp [hold_regs, State.resetWords]
  rw [rd_congr hregs, rd_resetWords hc]
  cases isAon k <;> rfl

/-- The words that a COLD reset writes itself: CKU_DEV_PUB, SUP_RESET_CAUSE and SUP_BOOT_STATUS. -/
def coldWord (k : Nat) : Bool := inRange k 0x08001200 0x64 || k == 0x1608 || k == 0x1000

theorem writes_derivePublic (s : State) : Writes (fun k => inRange k 0x08001200 0x64) s s.derivePublic := by
  refine writes_foldl (Writes.refl s) fun t i hi ht => writes_wr ht ?_
  rw [List.mem_range] at hi
  simp only [inRange, Bool.and_eq_true, decide_eq_true_eq]
  omega

theorem writes_coldReset (s : State) (cause : Nat) : Writes coldWord s.hold (s.coldReset cause) :=
  writes_wr (writes_put (writes_put ((writes_derivePublic s.hold).mono fun k hk => by simp only [coldWord, hk, Bool.true_or])
    (by decide) (.inl (by decide))) (by decide) (.inl (by decide))) (by decide)

theorem coldReset_sup (s : State) (cause : Nat) : (s.coldReset cause).sup = s.hold.sup := (writes_coldReset s cause).sup

/-- A word of domain AON survives the COLD reset, but for the two that it writes. -/
theorem rd_coldReset_aon {s : State} (hc : s.canon = true) (cause : Nat) {k : Nat} (hk : isAon k = true) (hw : coldWord k = false) :
    (s.coldReset cause).rd k = s.rd k := by
  rw [(writes_coldReset s cause).within.words (canon_hold hc) k hw, rd_hold hc, if_pos hk]

theorem get_coldReset_aon {s : State} (hc : s.canon = true) (cause : Nat) {f : Field} (hhi : f.hi < 32) (hk : isAon f.key = true)
    (hw : coldWord f.key = false) : (s.coldReset cause).get f = s.get f := by
  rw [State.get, State.get, if_pos hhi, if_pos hhi, rd_coldReset_aon hc cause hk hw]

/-! ## Slot selection (R44, R45, R58) -/

/-- The words that a slot's refusal changes: SUP_BOOT_STATUS and the health log. -/
def refusalWord (k : Nat) : Bool := k == 0x1000 || logWord k

theorem slotField_key (slot : Nat) : (slotField slot).key = 0x1000 := by unfold slotField; split <;> rfl

theorem slotField_hi (slot : Nat) : (slotField slot).hi < 32 := by unfold slotField; split <;> decide

theorem within_refuseSlot (s : State) (slot code : Nat) : Within refusalWord s (s.refuseSlot slot code) := by
  refine within_hlog (within_put (within_same (Within.refl s) rfl rfl rfl) ?_ (.inl (slotField_hi slot))) fun k hk => ?_
  · rw [slotField_key]; rfl
  · simp only [refusalWord, hk, Bool.or_true]

theorem refuseSlot_sup (s : State) (slot code : Nat) : (s.refuseSlot slot code).sup = { s.sup with flashMode := (0, 0) } := by
  simp only [State.refuseSlot, State.hlog_sup, State.put_sup]

theorem canon_refuseSlot {s : State} (hc : s.canon = true) (slot code : Nat) : (s.refuseSlot slot code).canon = true :=
  (within_refuseSlot s slot code).canon hc

/-- Entering a record leaves SUP_BOOT_STATUS and SUP_BOOT_CTL as they are. -/
theorem get_hlog {s : State} (hc : s.canon = true) {type u pay : Nat} {f : Field} (hlo : logWord f.key = false)
    (hhi : logWord (f.key + 4) = false) : (s.hlog type u pay).get f = s.get f :=
  (within_hlog (Within.refl s) fun _ hk => hk).get_eq hc hlo hhi

/-- A refusal shows in its slot's result. -/
theorem get_refuseSlot {s : State} (hc : s.canon = true) (slot code : Nat) :
    (s.refuseSlot slot code).get (slotField slot) = code % 256 := by
  have hc' : ({ s with sup := { s.sup with flashMode := (0, 0) } } : State).canon = true := hc
  unfold State.refuseSlot
  rw [get_hlog (canon_put hc') (by rw [slotField_key]; decide) (by rw [slotField_key]; decide)]
  unfold slotField
  split <;> exact get_put_same hc' (by decide)

/-- A refusal leaves the other slot's result. -/
theorem get_refuseSlot_other {s : State} (hc : s.canon = true) {p q : Nat} (hoff : (slotField q).off (slotField p) = true) (code : Nat) :
    (s.refuseSlot q code).get (slotField p) = s.get (slotField p) := by
  have hc' : ({ s with sup := { s.sup with flashMode := (0, 0) } } : State).canon = true := hc
  unfold State.refuseSlot
  rw [get_hlog (canon_put hc') (by rw [slotField_key]; decide) (by rw [slotField_key]; decide)]
  exact get_put_off hc' hoff


theorem acceptSlot_sup (s : State) (slot : Nat) : (s.acceptSlot slot).sup = { s.sup with
    bootSlot := some slot, flashMode := (s.acceptSlot slot).sup.flashMode, image := (s.acceptSlot slot).sup.image } := by
  simp only [State.acceptSlot, State.put_sup]

/-- The fields that an accepted slot sets: its result, what was booted, and the image's versions. -/
theorem acceptSlot_regs (s : State) (slot : Nat) : ∃ sv safe seq, (s.acceptSlot slot).regs =
    (s.puts [(slotField slot, 0), (Reg.SUP_BOOT_STATUS_SLOT, slot + 1), (Reg.SUP_BOOT_STATUS_STAGE, 2),
      (Reg.SUP_FW_VERSION_SV, sv), (Reg.SUP_FW_VERSION_SAFE, safe), (Reg.SUP_IMAGE_SEQ, seq)]).regs := by
  simp only [State.acceptSlot, State.puts, List.foldl_cons, List.foldl_nil]
  exact ⟨_, _, _, rfl⟩

/-- What an accepted slot shows in SUP_BOOT_STATUS. -/
theorem bootStatus_acceptSlot {s : State} (hc : s.canon = true) (slot : Nat) (hslot : slot < 2) :
    (s.acceptSlot slot).get Reg.SUP_BOOT_STATUS_STAGE = 2 ∧ (s.acceptSlot slot).get Reg.SUP_BOOT_STATUS_SLOT = slot + 1 := by
  obtain ⟨sv, safe, seq, hregs⟩ := acceptSlot_regs s slot
  rw [get_congr hregs, get_congr hregs]
  refine ⟨get_puts_last hc [_, _] (by decide) (by simp +decide), (get_puts_last hc [_] (by decide) (by simp +decide)).trans ?_⟩
  exact Nat.mod_eq_of_lt (show slot + 1 < 4 by omega)

/-- The other slot's result stays as the ROM left it. -/
theorem get_acceptSlot_other {s : State} (hc : s.canon = true) {p : Nat} (hp : p < 2) :
    (s.acceptSlot (1 - p)).get (slotField p) = s.get (slotField p) := by
  obtain ⟨sv, safe, seq, hregs⟩ := acceptSlot_regs s (1 - p)
  rw [get_congr hregs]
  obtain rfl | rfl : p = 0 ∨ p = 1 := by omega
  all_goals exact get_puts_off hc (by simp +decide)

/-- SUP and HIU powered, with HIU's PLL locked. -/
def State.recoveryPower (s : State) : State := ((s.powerUnit 0 true).powerUnit 10 true).lockPll 7

theorem writes_recoveryPower (s : State) : Writes (fun k => powerWord k || k == 0x1630) s s.recoveryPower :=
  writes_lockPll (((writes_powerUnit s 0 true).trans (writes_powerUnit _ 10 true)).mono fun k hk => by simp only [hk, Bool.true_or])
    rfl

theorem enterRecovery_eq (s : State) : s.enterRecovery = s.recoveryPower.puts [(Reg.SUP_BOOT_STATUS_STAGE, 4),
    (Reg.SUP_BOOT_STATUS_TIER, 0), (Reg.UNIT_STATE 0, 2), (Reg.UNIT_STATE 10, 2), (Reg.SUP_BOOT_CTL_SKIP_A, 0),
    (Reg.SUP_BOOT_CTL_SKIP_B, 0)] := rfl

theorem enterRecovery_sup (s : State) : s.enterRecovery.sup = s.sup := by
  rw [enterRecovery_eq, puts_sup, (writes_recoveryPower s).sup]

/-- In recovery the device shows tier 0's stage, with SUP in RUN. -/
theorem enterRecovery_shows {s : State} (hc : s.canon = true) :
    s.enterRecovery.get Reg.SUP_BOOT_STATUS_STAGE = 4 ∧ s.enterRecovery.running .sup = true := by
  have hbase := (writes_recoveryPower s).canon hc
  rw [State.running, beq_iff_eq, enterRecovery_eq]
  exact ⟨get_puts_last hbase [] (by decide) (by decide), get_puts_last hbase [_, _] (by decide) (by decide)⟩

/-- Recovery leaves what the ROM has recorded of the slots and the one-shot FORCE_RECOVERY. -/
theorem get_enterRecovery {s : State} (hc : s.canon = true) {f : Field}
    (hf : f ∈ [slotField 0, slotField 1, Reg.SUP_BOOT_CTL_FORCE_RECOVERY]) : s.enterRecovery.get f = s.get f := by
  have hpower := writes_recoveryPower s
  simp only [List.mem_cons, List.not_mem_nil, or_false] at hf
  rw [enterRecovery_eq]
  rcases hf with rfl | rfl | rfl
  all_goals exact (get_puts_off (hpower.canon hc) (by decide)).trans (hpower.get_eq hc (by decide) (by decide))

/-! ## SELECT_SLOT (R44) -/

/-- What the ROM does with the slot other than `p` once it has refused `p` with code `r`. -/
def State.trySecond (s : State) (p r : Nat) (fails : Bool) : State :=
  let s := s.refuseSlot p r
  if s.slotResult (1 - p) fails = 0 then s.acceptSlot (1 - p) else (s.refuseSlot (1 - p) (s.slotResult (1 - p) fails)).enterRecovery

theorem exec_selectSlot_forced {s : State} (a b : Bool) (hsram : s.sup.sramReady = true) (hboot : s.sup.bootSlot = none)
    (hstage : s.get Reg.SUP_BOOT_STATUS_STAGE ≠ 4)
    (hforce : (s.put Reg.SUP_BOOT_STATUS_STAGE 1).flag Reg.SUP_BOOT_CTL_FORCE_RECOVERY = true) :
    exec (.selectSlot a b) s = ok (((s.put Reg.SUP_BOOT_STATUS_STAGE 1).put Reg.SUP_BOOT_CTL_FORCE_RECOVERY 0).enterRecovery) := by
  simp [exec, execSelectSlot, hsram, hboot, hstage, hforce]

theorem exec_selectSlot {s s₁ : State} (a b : Bool) (hsram : s.sup.sramReady = true) (hboot : s.sup.bootSlot = none)
    (hstage : s.get Reg.SUP_BOOT_STATUS_STAGE ≠ 4) (hs₁ : s₁ = s.put Reg.SUP_BOOT_STATUS_STAGE 1)
    (hforce : s₁.flag Reg.SUP_BOOT_CTL_FORCE_RECOVERY = false) {p : Nat} (hp : s₁.get Reg.SUP_BOOT_CTL_PREFER = p) :
    exec (.selectSlot a b) s = ok (if s₁.slotResult p (if p = 0 then a else b) = 0 then s₁.acceptSlot p
      else s₁.trySecond p (s₁.slotResult p (if p = 0 then a else b)) (if 1 - p = 0 then a else b)) := by
  subst hs₁
  have hgo : (!s.sup.sramReady || s.sup.bootSlot.isSome || s.get Reg.SUP_BOOT_STATUS_STAGE == 4) = false := by
    simp [hsram, hboot, hstage]
  simp only [exec, execSelectSlot, hgo, hforce, hp, Bool.false_eq_true, if_false, State.trySecond]
  split_ifs <;> rfl

/-- A slot that is refused first keeps its result, and is not the one that boots. -/
theorem trySecond_refused {s : State} (hc : s.canon = true) {p : Nat} (hp : p < 2) (r : Nat) (fails : Bool)
    (hboot : s.sup.bootSlot = none) : (s.trySecond p r fails).sup.flash = s.sup.flash ∧
      (s.trySecond p r fails).get (slotField p) = r % 256 ∧ (s.trySecond p r fails).sup.bootSlot ≠ some p := by
  have hrefused := canon_refuseSlot hc p r
  unfold State.trySecond
  dsimp only
  split
  · rw [acceptSlot_sup, refuseSlot_sup, get_acceptSlot_other hrefused hp, get_refuseSlot hc]
    refine ⟨rfl, rfl, fun h => ?_⟩
    have := Option.some.inj h
    omega
  · have hboth := canon_refuseSlot hrefused (1 - p) ((s.refuseSlot p r).slotResult (1 - p) fails)
    have hp01 : slotField p ∈ [slotField 0, slotField 1, Reg.SUP_BOOT_CTL_FORCE_RECOVERY] := by
      obtain rfl | rfl : p = 0 ∨ p = 1 := by omega
      all_goals simp
    have hoff : (slotField (1 - p)).off (slotField p) = true := by
      obtain rfl | rfl : p = 0 ∨ p = 1 := by omega
      all_goals decide
    rw [enterRecovery_sup, refuseSlot_sup, refuseSlot_sup, get_enterRecovery hboth hp01, get_refuseSlot_other hrefused hoff,
      get_refuseSlot hc, hboot]
    exact ⟨rfl, rfl, nofun⟩

/-- FORCE_RECOVERY takes the ROM straight to recovery, and is spent by it. -/
theorem selectSlot_forced {s : State} (hc : s.canon = true) (a b : Bool) (hsram : s.sup.sramReady = true)
    (hboot : s.sup.bootSlot = none) (hstage : s.get Reg.SUP_BOOT_STATUS_STAGE ≠ 4)
    (hforce : s.flag Reg.SUP_BOOT_CTL_FORCE_RECOVERY = true) : completes (.selectSlot a b) s fun t =>
      t.get Reg.SUP_BOOT_STATUS_STAGE = 4 ∧ t.flag Reg.SUP_BOOT_CTL_FORCE_RECOVERY = false ∧ t.running .sup = true := by
  have hc₁ := canon_put (f := Reg.SUP_BOOT_STATUS_STAGE) (v := 1) hc
  have hc₂ := canon_put (f := Reg.SUP_BOOT_CTL_FORCE_RECOVERY) (v := 0) hc₁
  obtain ⟨hstage4, hsup⟩ := enterRecovery_shows hc₂
  refine ⟨_, exec_selectSlot_forced a b hsram hboot hstage ?_, hstage4, ?_, hsup⟩
  · rw [flag_put_off hc (by decide), hforce]
  · rw [State.flag, get_enterRecovery hc₂ (by simp), get_put_same hc₁ (by decide)]
    rfl

/-- The slot that PREFER names is booted, or keeps its refusal and is not booted. -/
theorem selectSlot_tried {s : State} (hc : s.canon = true) (a b : Bool) (hsram : s.sup.sramReady = true)
    (hboot : s.sup.bootSlot = none) (hstage : s.get Reg.SUP_BOOT_STATUS_STAGE ≠ 4)
    (hforce : s.flag Reg.SUP_BOOT_CTL_FORCE_RECOVERY = false) (p r : Nat) (hprefer : s.get Reg.SUP_BOOT_CTL_PREFER = p)
    (hr : State.slotResult (s.put Reg.SUP_BOOT_STATUS_STAGE 1) p (if p = 0 then a else b) = r) :
    completes (.selectSlot a b) s fun t => t.sup.flash = s.sup.flash ∧
      (r = 0 → t.get Reg.SUP_BOOT_STATUS_STAGE = 2 ∧ t.sup.bootSlot = some p ∧ t.get Reg.SUP_BOOT_STATUS_SLOT = p + 1) ∧
      (r ≠ 0 → t.get (slotField p) = r % 256 ∧ t.sup.bootSlot ≠ some p) := by
  have hp : p < 2 := hprefer ▸ get_lt s Reg.SUP_BOOT_CTL_PREFER
  have hc₁ := canon_put (f := Reg.SUP_BOOT_STATUS_STAGE) (v := 1) hc
  have hsup₁ : (s.put Reg.SUP_BOOT_STATUS_STAGE 1).sup = s.sup := State.put_sup ..
  refine ⟨_, exec_selectSlot (p := p) a b hsram hboot hstage rfl ?_ ?_, ?_⟩
  · rw [flag_put_off hc (by decide), hforce]
  · rw [get_put_off hc (by decide), hprefer]
  · rw [hr]
    by_cases h0 : r = 0
    · obtain ⟨hstage2, hslot⟩ := bootStatus_acceptSlot hc₁ p hp
      rw [if_pos h0, acceptSlot_sup]
      exact ⟨by rw [hsup₁], fun _ => ⟨hstage2, rfl, hslot⟩, fun h => absurd h0 h⟩
    · obtain ⟨hflash, hcode, hother⟩ := trySecond_refused hc₁ hp r (if 1 - p = 0 then a else b) (by rw [hsup₁, hboot])
      rw [if_neg h0]
      exact ⟨by rw [hflash, hsup₁], fun h => absurd h h0, fun _ => ⟨hcode, hother⟩⟩

/-! ## FIRMWARE_LOAD (R50, R51) -/

/-- SUP_BOOT_CTL's bit that skips a slot. -/
def skipField (slot : Nat) : Field := if slot = 0 then Reg.SUP_BOOT_CTL_SKIP_A else Reg.SUP_BOOT_CTL_SKIP_B

theorem slotRetry_eq {s : State} {slot : Nat} (hslot : s.sup.bootSlot = some slot) (code : Nat) :
    s.slotRetry code = ((s.put (skipField slot) 1).refuseSlot slot code).coldReset 4 := by
  rw [State.slotRetry, hslot]
  rfl

theorem skipField_cases (slot : Nat) : skipField slot = Reg.SUP_BOOT_CTL_SKIP_A ∨ skipField slot = Reg.SUP_BOOT_CTL_SKIP_B := by
  unfold skipField
  split
  · exact .inl rfl
  · exact .inr rfl

/-- SUP_BOOT_CTL stands in domain AON: a skip outlives the record of the refusal and the COLD reset. -/
theorem flag_skip_coldReset {s : State} (hc : s.canon = true) {f : Field} (hf : f ∈ [Reg.SUP_BOOT_CTL_SKIP_A, Reg.SUP_BOOT_CTL_SKIP_B])
    (slot code cause : Nat) : (((s.put f 1).refuseSlot slot code).coldReset cause).flag f = true := by
  have hc₁ := canon_put (f := f) (v := 1) hc
  have hshape : ∀ f ∈ [Reg.SUP_BOOT_CTL_SKIP_A, Reg.SUP_BOOT_CTL_SKIP_B],
      f.key = 0x1004 ∧ f.hi < 32 ∧ f.ok = true ∧ f.width = 1 := by decide
  obtain ⟨hkey, hhi, hok, hwidth⟩ := hshape f hf
  rw [State.flag, get_coldReset_aon (canon_refuseSlot hc₁ slot code) cause hhi (by rw [hkey]; decide) (by rw [hkey]; decide),
    (within_refuseSlot _ slot code).get_eq hc₁ (by rw [hkey]; decide) (by rw [hkey]; decide), get_put_same hc hok, hwidth]
  rfl

/-- After a retry no slot is booted yet, and the one that failed is skipped. -/
theorem slotRetry_skips {s : State} (hc : s.canon = true) {slot : Nat} (hslot : s.sup.bootSlot = some slot) (code : Nat) :
    (s.slotRetry code).sup.bootSlot = none ∧ (s.slotRetry code).flag (skipField slot) = true := by
  have hmem : skipField slot ∈ [Reg.SUP_BOOT_CTL_SKIP_A, Reg.SUP_BOOT_CTL_SKIP_B] := by
    rcases skipField_cases slot with h | h <;> simp [h]
  rw [slotRetry_eq hslot, coldReset_sup]
  exact ⟨rfl, flag_skip_coldReset hc hmem slot code 4⟩

theorem firmwareLoad_checked {s : State} (hc : s.canon = true) {slot : Nat} {sv safe : Section} (pair : Bool)
    (hslot : s.sup.bootSlot = some slot) (hfirmware : s.sup.firmware = false) (hsv : s.bootSection 1 = some sv)
    (hsafe : s.bootSection 2 = some safe) : completes (.firmwareLoad ⟨false, true, pair⟩) s fun t =>
      (s.digestOk slot sv = true → s.digestOk slot safe = true → t = { s with
        sup := { s.sup with firmware := true, imagePair := pair && (s.bootSection 0xF).isSome } }) ∧
      (s.digestOk slot sv = false ∨ s.digestOk slot safe = false → t.sup.bootSlot = none ∧
        t.flag (if slot = 0 then Reg.SUP_BOOT_CTL_SKIP_A else Reg.SUP_BOOT_CTL_SKIP_B) = true) := by
  unfold completes
  simp only [exec, execFirmwareLoad, hslot, hfirmware, hsv, hsafe, Bool.false_eq_true, if_false]
  by_cases hdigest : s.digestOk slot sv = true ∧ s.digestOk slot safe = true
  · obtain ⟨hdsv, hdsafe⟩ := hdigest
    rw [hdsv, hdsafe]
    exact ⟨_, rfl, fun _ _ => rfl, by simp⟩
  · have hbad : (!s.digestOk slot sv || !s.digestOk slot safe) = true := by
      cases h₁ : s.digestOk slot sv <;> cases h₂ : s.digestOk slot safe <;> simp_all
    rw [hbad, if_pos rfl]
    exact ⟨_, rfl, fun h₁ h₂ => absurd ⟨h₁, h₂⟩ hdigest, fun _ => slotRetry_skips hc hslot 0x0D⟩


/-! ## HBM, OTP and the start of flash operations (R47, R62, R63) -/

theorem quietFrame_withSup {area : Nat → Bool} {s t : State} {x : SupState} (hc : s.canon = true)
    (h : Writes area { s with sup := x } t) (hflash : x.flash = s.sup.flash) : QuietFrame area s { s with sup := x } t :=
  ⟨((within_same (t := { s with sup := x }) (Within.refl s) rfl rfl hflash).trans h.within).words hc, h.rest⟩

/-- The same, where the frame names the state of SUP that the command has come to. -/
theorem quietFrame_sup {area : Nat → Bool} {s t : State} {x : SupState} (hc : s.canon = true)
    (h : Writes area { s with sup := x } t) (hflash : x.flash = s.sup.flash) : QuietFrame area s { s with sup := t.sup } t := by
  rw [h.sup]
  exact quietFrame_withSup hc h hflash

/-- SUP comes to the state `x`, and one bit of a register is set. -/
theorem flag_set_withSup {s : State} (hc : s.canon = true) (x : SupState) {f : Field} (hok : f.ok = true) (hwidth : f.width = 1)
    (hlow : f.hi < 32) (hflash : x.flash = s.sup.flash) : (({ s with sup := x } : State).put f 1).flag f = true ∧
      (({ s with sup := x } : State).put f 1).sup = x ∧
      QuietFrame (words [f]) s { s with sup := x } (({ s with sup := x } : State).put f 1) := by
  have hc' : ({ s with sup := x } : State).canon = true := by
    simp only [State.canon, hflash] at hc ⊢
    exact hc
  refine ⟨?_, State.put_sup .., quietFrame_withSup hc (writes_put (Writes.refl _) (by simp [words]) (.inl hlow)) hflash⟩
  rw [State.flag, get_put_same hc' hok, hwidth]
  rfl

/-- The order in which HBM's regions are filled (R47). -/
def State.fillRegions (s : State) (overflow : List (Fin 64)) : List Nat :=
  s.sup.hbmHeld ++ ((List.range 64).filter (fun k => overflow.any (fun o => o.val == k)) ++
    (List.range 64).filter (fun k => !overflow.any (fun o => o.val == k))).filter (fun k => !s.sup.hbmHeld.contains k)

/-- Every region is in the order: held, of table-overflow space, or of the rest. -/
theorem mem_fillRegions (s : State) (overflow : List (Fin 64)) {k : Nat} (hk : k < 64) : k ∈ s.fillRegions overflow := by
  have hrange : k ∈ List.range 64 := List.mem_range.mpr hk
  by_cases hheld : k ∈ s.sup.hbmHeld
  · exact List.mem_append_left _ hheld
  · refine List.mem_append_right _ (List.mem_filter.mpr ⟨?_, by simpa using hheld⟩)
    cases hover : overflow.any (fun o => o.val == k) with
    | true => exact List.mem_append_left _ (List.mem_filter.mpr ⟨hrange, hover⟩)
    | false => exact List.mem_append_right _ (List.mem_filter.mpr ⟨hrange, by rw [hover]; rfl⟩)

theorem exec_hbmFillStart {s : State} (overflow : List (Fin 64)) (hfilling : s.sup.filling = false) (hpowered : s.powered = true) :
    exec (.hbmFillStart overflow) s = ok ((((({ s with sup := { s.sup with filling := true, fillOrder := s.fillRegions overflow } } :
      State).setPower 146 true).setPower 147 true).lockPll 3).lockPll 4) := by
  simp only [exec, execHbmFillStart, hfilling, hpowered, Bool.not_true, Bool.or_self, Bool.false_eq_true, if_false]
  rfl

theorem hbmFillStart_completes {s : State} (hc : s.canon = true) (l : List (Fin 64)) (hfilling : s.sup.filling = false)
    (hpowered : s.powered = true) : completes (.hbmFillStart l) s fun t => t.sup.filling = true ∧
      (∀ k, k < 64 → k ∈ t.sup.fillOrder) ∧ bitAt (t.get Reg.SUP_CLK_STATUS_LOCKED) 3 = true ∧
      QuietFrame (fun k => words [Reg.SUP_CLK_STATUS_LOCKED] k || k == 0x1620) s { s with sup := t.sup } t := by
  refine ⟨_, exec_hbmFillStart l hfilling hpowered, ?_⟩
  generalize hs₁ : ({ s with sup := { s.sup with filling := true, fillOrder := s.fillRegions l } } : State) = s₁
  have hc₁ : s₁.canon = true := by rw [← hs₁]; exact hc
  have hpower : Writes (fun k => words [Reg.SUP_CLK_STATUS_LOCKED] k || k == 0x1620) s₁ ((s₁.setPower 146 true).setPower 147 true) :=
    writes_setPower (writes_setPower (Writes.refl s₁) (by decide)) (by decide)
  have hfirst := writes_lockPll (k := 3) hpower (by decide)
  have hwrites := writes_lockPll (k := 4) hfirst (by decide)
  rw [locked_lockPll (hfirst.canon hc₁) 4 3 (by decide), locked_lockPll (hpower.canon hc₁) 3 3 (by decide)]
  refine ⟨by rw [hwrites.sup, ← hs₁], fun k hk => ?_, rfl, ?_⟩
  · rw [hwrites.sup, ← hs₁]
    exact mem_fillRegions s l hk
  · subst hs₁
    exact quietFrame_sup hc hwrites rfl

theorem hbmRegionFilled_completes {s : State} (hc : s.canon = true) {k : Nat} {rest : List Nat} (horder : s.sup.fillOrder = k :: rest) :
    completes .hbmRegionFilled s fun t => t.flag (fillBit k) = true ∧ t.sup.fillOrder = rest ∧ k ∉ t.sup.hbmHeld ∧
      QuietFrame (words [fillBit k]) s { s with sup := t.sup } t := by
  have hmod : k % 32 < 64 := by omega
  have hok : (fillBit k).ok = true := by simp [Field.ok, fillBit, hmod]
  have hwidth : (fillBit k).width = 1 := Nat.add_sub_cancel_left ..
  unfold completes
  simp only [exec, execHbmRegionFilled, horder]
  obtain ⟨hset, hsup, hframe⟩ := flag_set_withSup hc { s.sup with fillOrder := rest, hbmHeld := s.sup.hbmHeld.filter (· != k) }
    hok hwidth (Nat.mod_lt _ (by decide)) rfl
  exact ⟨_, rfl, hset, by rw [hsup], by rw [hsup]; simp, by rw [hsup]; exact hframe⟩

theorem exec_fuseKey {s : State} {c : Instr} {slot : Nat} (hexec : exec c s = ok (s.when s.powered (fun s => s.fuseKey slot)))
    (hpowered : s.powered = true) (hstage : s.get Reg.SUP_BOOT_STATUS_STAGE = 4)
    (hfused : s.flag Reg.SUP_OTP_STATUS_KEY_FUSED = false) (hkey : s.sup.otpKey = none) :
    exec c s = ok (({ s with sup := { s.sup with otpKey := some (Config.sha384 (s.flashBytes (slotBase slot + 0x50) 97)) } } : State).put
      Reg.SUP_OTP_STATUS_KEY_FUSED 1) := by
  rw [hexec, State.when, hpowered, if_pos rfl]
  simp [State.fuseKey, State.fuseOpen, hstage, hfused, hkey]

theorem fuseKey_completes {s : State} (hc : s.canon = true) {c : Instr} {slot : Nat}
    (hexec : exec c s = ok (s.when s.powered (fun s => s.fuseKey slot)))
    (hpowered : s.powered = true) (hstage : s.get Reg.SUP_BOOT_STATUS_STAGE = 4)
    (hfused : s.flag Reg.SUP_OTP_STATUS_KEY_FUSED = false) (hkey : s.sup.otpKey = none) :
    completes c s fun t => t.sup.otpKey = some (Config.sha384 (s.flashBytes (slotBase slot + 0x50) 97)) ∧
      t.flag Reg.SUP_OTP_STATUS_KEY_FUSED = true ∧
      QuietFrame (words [Reg.SUP_OTP_STATUS_KEY_FUSED]) s { s with sup := t.sup } t := by
  obtain ⟨hset, hsup, hframe⟩ := flag_set_withSup hc
    { s.sup with otpKey := some (Config.sha384 (s.flashBytes (slotBase slot + 0x50) 97)) } (f := Reg.SUP_OTP_STATUS_KEY_FUSED)
    (by decide) (by decide) (by decide) rfl
  exact ⟨_, exec_fuseKey hexec hpowered hstage hfused hkey, by rw [hsup], hset, by rw [hsup]; exact hframe⟩

theorem flashStart_completes {s : State} (hc : s.canon = true) {c : Instr} {op : Nat} (hexec : exec c s = ok (s.flashStart op))
    (hpowered : s.powered = true) (hbusy : s.flag Reg.SUP_FLASH_CTL_BUSY = false) :
    completes c s fun t => t.flag Reg.SUP_FLASH_CTL_BUSY = true ∧
      QuietFrame (words [Reg.SUP_FLASH_CTL_BUSY]) s { s with sup := { s.sup with flashOp := some (op, s.get Reg.SUP_FLASH_ADDR) } } t := by
  have hstart : s.flashStart op = ({ s with sup := { s.sup with flashOp := some (op, s.get Reg.SUP_FLASH_ADDR) } } : State).put
      Reg.SUP_FLASH_CTL_BUSY 1 := by
    simp [State.flashStart, hbusy, hpowered]
  obtain ⟨hset, -, hframe⟩ := flag_set_withSup hc { s.sup with flashOp := some (op, s.get Reg.SUP_FLASH_ADDR) }
    (f := Reg.SUP_FLASH_CTL_BUSY) (by decide) (by decide) (by decide) rfl
  exact ⟨_, hexec.trans (congrArg ok hstart), hset, hframe⟩

/-- Settles O13: clause by clause, each command of the boot by its equation and the fields that it sets. -/
theorem bootCommandsComplete : Obligations.BootCommandsComplete := by
  intro s hc
  refine ⟨?selectSlot, ?firmware, ?fillStart, ?regionFilled, ?fuse, ?flashStart⟩
  case selectSlot =>
    exact fun a b hsram hboot hstage => ⟨selectSlot_forced hc a b hsram hboot hstage,
      fun p r hforce hprefer hr => selectSlot_tried hc a b hsram hboot hstage hforce p r hprefer hr⟩
  case firmware =>
    exact fun slot sv safe pair hslot hfirmware hsv hsafe => firmwareLoad_checked hc pair hslot hfirmware hsv hsafe
  case fillStart => exact fun l hfilling hpowered => hbmFillStart_completes hc l hfilling hpowered
  case regionFilled => exact fun k rest _ horder => hbmRegionFilled_completes hc horder
  case fuse =>
    exact fun hpowered hstage hfused hkey => ⟨fuseKey_completes (slot := 0) hc rfl hpowered hstage hfused hkey,
      fuseKey_completes (slot := 1) hc rfl hpowered hstage hfused hkey⟩
  case flashStart =>
    intro hpowered hbusy c hop
    simp only [List.mem_cons, List.not_mem_nil, or_false] at hop
    rcases hop with rfl | rfl | rfl
    all_goals exact flashStart_completes hc rfl hpowered hbusy

end Sys2Proof.Machine
end

section
/-! PROOFS. RESET_UNIT of HIU (R450, R452): the statement says that the unit ends in RESET whatever PCU holds, and a head that PCU takes
up on the way can undo that in a state where it names no source that there is. -/

namespace Sys2Proof.Machine

/-! ## A head from outside the sources -/

/-- The source number whose high-water mark would be the word of HIU's STATE, far beyond PCU's sources (R130). Nothing in `State` keeps
a queued head from naming it, and as PCU takes the head up it writes that mark. -/
def straySource : Nat := ((Reg.UNIT_STATE 10).key - (Reg.PCU_REORDER_HWM_HWM 0).key) / 4

/-- A head of that source, at pipeline `pipe` or, with 4, ahead of the distributor. -/
def strayHead (pipe : Nat) : HeadIn := ⟨straySource, 0, [], 0, 0, 0, false, true, false, false, none, none, pipe, 0, .none⟩

/-- A connection with nothing sent and nothing received. -/
def silentConn : ConnRt :=
  ⟨0, 0, [], false, false, false, 0, 0, 0, 0, 0, 0, 0, 0, none, 0, false, false, false, 0, false⟩

/-- HIU in RUN and attached, with one connection open, and five heads of that source in PCU: four in a pipeline, one waiting. -/
def attachedWithStrayHeads : State :=
  let s := [(Reg.UNIT_STATE 10, 2), (Reg.HIU_HOST_STATE_MODE, 0), (Reg.CONN_STATE 0, 4)].foldl
    (fun (s : State) x => s.put x.1 x.2) State.reset
  { s with
    pcu := { s.pcu with queue := [strayHead 0, strayHead 0, strayHead 0, strayHead 0, strayHead 4] }
    sie := { s.sie with conns := [(0, silentConn)] } }

/-- The command completes with unit `u` in the state `st`. -/
def endsInUnitState (c : Instr) (s : State) (u st : Nat) : Bool :=
  match exec c s with
  | .next t => t.get (Reg.UNIT_STATE u) == st
  | _ => false

theorem unitState_of_endsIn {c : Instr} {s t : State} {u st : Nat} (h : endsInUnitState c s u st = true) (ht : exec c s = .next t) :
    t.get (Reg.UNIT_STATE u) = st := by
  unfold endsInUnitState at h
  rw [ht] at h
  exact beq_iff_eq.mp h

/-- RESET_UNIT of HIU brings it to RESET, state 4, and its connections to an end; the reset segment that goes out has PCU take up its
waiting heads, and the mark of five heads of the stray source then stands where HIU's state was. -/
theorem resetUnit_strayHeads : endsInUnitState (.resetUnit .frame 0xC96 10) attachedWithStrayHeads 10 5 = true := by decide +kernel

/-- Refutes O18: the clause on RESET_UNIT asks nothing of the heads that wait in PCU. `attachedWithStrayHeads` meets its hypotheses,
and HIU ends with 5 in its STATE, where the clause has 4. -/
theorem not_resetCommandsComplete : ¬ Obligations.ResetCommandsComplete := by
  intro h
  obtain ⟨hreset, -⟩ := h attachedWithStrayHeads (by decide +kernel)
  obtain ⟨-, -, hunit, -⟩ := hreset .frame (by decide +kernel)
  obtain ⟨t, ht, -, hstate, -⟩ := hunit 10 (by decide +kernel) (by decide +kernel) (by decide) (by decide) (by decide +kernel)
  exact absurd ((unitState_of_endsIn resetUnit_strayHeads ht).symm.trans hstate) (by decide)

end Sys2Proof.Machine
end

section
/-! PROOFS. Local time (R69, R70): what brings EGU's credits and levels to the present, a step of local time, and the tick
boundary. -/

namespace Sys2Proof.Machine

/-! ## Credits and levels brought to the present (R215, R217) -/

/-- From `s` to `t` the words that move with time change, and with them EGU's credits and levels and the free values that their
rounding takes. -/
structure Settles (s t : State) : Prop where
  within : Within settleWord s t
  rest : t = { settled s t with regs := t.regs }

theorem Settles.refl (s : State) : Settles s s := ⟨Within.refl s, rfl⟩

theorem Settles.trans {s₀ s t : State} (h : Settles s₀ s) (g : Settles s t) : Settles s₀ t :=
  ⟨h.within.trans g.within, by rw [g.rest, h.rest]; rfl⟩

theorem settles_foldl {α : Type} {f : State → α → State} (l : List α) (hf : ∀ s x, Settles s (f s x)) (s : State) :
    Settles s (l.foldl f s) := by
  induction l generalizing s with
  | nil => exact Settles.refl s
  | cons x l ih => exact (hf s x).trans (ih (f s x))

theorem settles_setLevel (s : State) (k : Nat) (v : Int × Int) : Settles s (s.setLevel k v) := by
  unfold State.setLevel
  split
  · exact Settles.refl s
  · refine ⟨within_wr (within_wr (within_same (Within.refl s) rfl rfl rfl) ?_) ?_, rfl⟩
    all_goals
      simp only [settleWord, inRange, Bool.or_eq_true, Bool.and_eq_true, decide_eq_true_eq]
      omega

theorem settles_setCredit (s : State) (i : Nat) (v : Int) : Settles s (s.setCredit i v) := by
  unfold State.setCredit
  split
  · exact Settles.refl s
  · refine ⟨within_put (within_same (Within.refl s) rfl rfl rfl) ?_ (.inl (show 31 < 32 by decide)), by rw [put_rest]; rfl⟩
    simp only [settleWord, inRange, Bool.or_eq_true, Bool.and_eq_true, decide_eq_true_eq]
    omega

theorem settles_slope (s : State) (mbps n : Nat) : Settles s (s.slope mbps n).2 := by
  unfold State.slope
  extract_lets per
  clear_value per
  split
  · exact Settles.refl s
  · exact ⟨within_same (Within.refl s) rfl rfl rfl, rfl⟩

theorem settles_of_slope {s t : State} {mbps n d : Nat} (h : s.slope mbps n = (d, t)) : Settles s t := by
  have hslope := settles_slope s mbps n
  rwa [h] at hslope

theorem settles_fillLevel (s : State) (k dt : Nat) : Settles s (s.fillLevel k dt) := settles_setLevel s k _

/-- A credit moves by a slope, whose rounding may take a free value, and takes the value it comes to. -/
theorem settles_moveCredit (s : State) (i n : Nat) : Settles s (s.moveCredit i n) := by
  unfold State.moveCredit
  extract_lets p c idle old tx mine waiting
  clear_value mine waiting
  split
  · exact Settles.refl s
  split
  next v t hmoved =>
    have hmoving : Settles s t := by
      split at hmoved
      · split at hmoved
        next hslope => cases hmoved; exact settles_of_slope hslope
      · split at hmoved
        · split at hmoved
          next hslope => cases hmoved; exact settles_of_slope hslope
        · cases hmoved; exact Settles.refl s
    exact hmoving.trans (settles_setCredit t i _)

theorem settles_noted (s : State) (levelAt creditAt : Nat) :
    Settles s { s with egu := { s.egu with levelAt := levelAt, creditAt := creditAt } } :=
  ⟨within_same (Within.refl s) rfl rfl rfl, rfl⟩

/-- Every bucket in use fills, every shaped queue's credit moves, and the time of both is noted. -/
theorem settles_settle (s : State) : Settles s s.settle := by
  have hlevels := settles_foldl (s.egu.levels.map (·.1)) (fun t k => settles_fillLevel t k (s.localNs - s.egu.levelAt)) s
  have hcredits := fun t : State => settles_foldl t.shapedQueues (fun u i =>
    settles_moveCredit u i (u.openNs (i / 8) (i % 8) t.egu.creditAt (s.localNs / 4 * 4) / 4)) t
  exact (hlevels.trans (hcredits _)).trans (settles_noted _ _ _)

/-! ## A step of local time (R69, R70) -/

/-- The words that a step of local time changes: the tick counter, the offset, and what moves with time. -/
def stepWord (k : Nat) : Bool := words [Reg.TE_TICK, Reg.TE_OFFSET] k || settleWord k

/-- Each time that EGU, PXC, QE, HIU and SUP have noted moves by `d` ns. -/
def State.shiftTimes (s : State) (d : Int) : State :=
  { s with
    egu := { s.egu with
      queues := s.egu.queues.map (Queued.shift d)
      shaper := s.egu.shaper.map (fun x => (x.1, x.2.shift d))
      tx := s.egu.tx.map (fun x => (x.1, { x.2 with start := shiftNs d x.2.start }))
      edgeAt := shiftNs d s.egu.edgeAt, creditAt := s.localNs / 4 * 4, levelAt := s.localNs
      consAt := s.egu.consAt.map (shiftNs d) }
    pxc := { s.pxc with paused := s.pxc.paused.map (fun x => (x.1, shiftNs d x.2)) }
    qe := { s.qe with rings := s.qe.rings.map (fun x => (x.1, { x.2 with signalled := x.2.signalled.map (shiftNs d) })) }
    hiu := { s.hiu with kicked := shiftNs d s.hiu.kicked }
    sup := { s.sup with svcTimes := s.sup.svcTimes.map (shiftNs d) } }

/-- The settled state with the tick counter and the offset set. -/
def State.setClock (s : State) (tick offset : Nat) : State := (s.settle.put Reg.TE_TICK tick).put Reg.TE_OFFSET offset

theorem stepTime_eq (s : State) (tick offset : Nat) :
    s.stepTime tick offset = (s.setClock tick offset).shiftTimes ((s.setClock tick offset).localNs - s.settle.localNs) := rfl

theorem shiftTimes_regs (s : State) (d : Int) : (s.shiftTimes d).regs = s.regs := rfl
theorem shiftTimes_te (s : State) (d : Int) : (s.shiftTimes d).te = s.te := rfl

theorem within_shiftTimes {area : Nat → Bool} {s₀ s : State} (h : Within area s₀ s) (d : Int) : Within area s₀ (s.shiftTimes d) :=
  within_same h rfl rfl rfl

theorem shiftTimes_rest (s₀ s : State) (d : Int) (h : s = { settled s₀ s with regs := s.regs }) :
    s.shiftTimes d = { timeStepped s₀ (s.shiftTimes d) with regs := (s.shiftTimes d).regs } := by
  rw [h]
  rfl

theorem setClock_rest (s : State) (tick offset : Nat) :
    s.setClock tick offset = { settled s (s.setClock tick offset) with regs := (s.setClock tick offset).regs } := by
  unfold State.setClock
  rw [put_rest, put_rest, (settles_settle s).rest]
  rfl

/-- A step moves, beside registers, what EGU holds and the times that timers have noted. -/
theorem stepTime_rest (s : State) (tick offset : Nat) :
    s.stepTime tick offset = { timeStepped s (s.stepTime tick offset) with regs := (s.stepTime tick offset).regs } := by
  rw [stepTime_eq]
  exact shiftTimes_rest s _ _ (setClock_rest s tick offset)

theorem within_setClock (s : State) (tick offset : Nat) : Within stepWord s (s.setClock tick offset) :=
  within_put (within_put ((settles_settle s).within.mono fun k hk => by simp only [stepWord, hk, Bool.or_true])
    (by decide) (.inr (by decide))) (by decide) (.inl (by decide))

theorem within_stepTime (s : State) (tick offset : Nat) : Within stepWord s (s.stepTime tick offset) := by
  rw [stepTime_eq]
  exact within_shiftTimes (within_setClock s tick offset) _

theorem stepTime_regs (s : State) (tick offset : Nat) : (s.stepTime tick offset).regs = (s.setClock tick offset).regs := by
  rw [stepTime_eq, shiftTimes_regs]

theorem stepTime_te (s : State) (tick offset : Nat) : (s.stepTime tick offset).te = s.te := by
  rw [stepTime_eq, shiftTimes_te, setClock_rest]
  rfl

theorem canon_settle {s : State} (hc : s.canon = true) : s.settle.canon = true := (settles_settle s).within.canon hc

theorem tick_stepTime {s : State} (hc : s.canon = true) (tick offset : Nat) : (s.stepTime tick offset).tick = tick % 2 ^ 48 := by
  rw [State.tick, get_congr (stepTime_regs s tick offset), State.setClock, get_put_off (canon_put (canon_settle hc)) (by decide),
    get_put_same (canon_settle hc) (by decide)]
  rfl

theorem offset_stepTime {s : State} (hc : s.canon = true) (tick offset : Nat) :
    (s.stepTime tick offset).offset = offset % 2 ^ 32 := by
  rw [State.offset, get_congr (stepTime_regs s tick offset), State.setClock, get_put_same (canon_put (canon_settle hc)) (by decide)]
  rfl

/-- The tick period rests on TE_CFG alone. -/
theorem period_congr {s t : State} (h : t.get Reg.TE_CFG_PERIOD = s.get Reg.TE_CFG_PERIOD) : t.period = s.period := by
  rw [State.period, State.period, State.halfMicros, State.halfMicros, h]

theorem period_pos (s : State) : 0 < s.period := by
  unfold State.period State.halfMicros
  positivity

/-- A period fits the offset's 32 bits, whatever the code in PERIOD. -/
theorem period_le (s : State) : s.period ≤ 8000000 := by
  have hcode : s.get Reg.TE_CFG_PERIOD ≤ 7 := Nat.lt_succ_iff.mp (get_lt s Reg.TE_CFG_PERIOD)
  have hpow : 2 ^ s.get Reg.TE_CFG_PERIOD ≤ 2 ^ 7 := Nat.pow_le_pow_right (by decide) hcode
  unfold State.period State.halfMicros
  omega

theorem mod_period_lt (s : State) (ns : Nat) : ns % s.period < 2 ^ 32 := by
  have hlt := Nat.mod_lt ns (period_pos s)
  have hle := period_le s
  omega

theorem offset_stepTime_mod {s : State} (hc : s.canon = true) (tick ns : Nat) :
    (s.stepTime tick (ns % s.period)).offset = ns % s.period := by
  rw [offset_stepTime hc, Nat.mod_eq_of_lt (mod_period_lt s ns)]

theorem period_stepTime {s : State} (hc : s.canon = true) (tick offset : Nat) : (s.stepTime tick offset).period = s.period :=
  period_congr ((within_stepTime s tick offset).get_eq hc (by decide) (by decide))

/-- Settles O59: a set of local time is a step to the quotient and the remainder by the period, which the step leaves as it was. -/
theorem tickCounter : Obligations.TickCounter := by
  intro s ns hc
  have htick : (s.setLocalNs ns).tick = ns / s.period % 2 ^ 48 := tick_stepTime hc _ _
  have hoffset : (s.setLocalNs ns).offset = ns % s.period := offset_stepTime_mod hc _ _
  have hperiod : (s.setLocalNs ns).period = s.period := period_stepTime hc _ _
  refine ⟨htick, hoffset, hperiod, fun hlt => ?_⟩
  rw [State.localNs, htick, hoffset, hperiod, Nat.mod_eq_of_lt hlt, Nat.mul_comm, Nat.div_add_mod]

/-! ## The tick boundary (R70) -/

theorem SameClock.tick_eq {s t : State} (h : SameClock s t) (hc : s.canon = true) : t.tick = s.tick := by
  have hlo := h.lo hc
  have hhi := h.hi hc
  simp only [State.tick, State.get, hlo, hhi]

theorem SameClock.offset_eq {s t : State} (h : SameClock s t) (hc : s.canon = true) : t.offset = s.offset := by
  rw [State.offset, State.offset, State.get, State.get, if_pos (by decide), if_pos (by decide), h.offset hc]

theorem nextTick_regs (s : State) (n : Nat) : (s.nextTick n).regs = ((s.put Reg.TE_TICK (n + 1)).put Reg.TE_OFFSET 0).regs := rfl

theorem tick_nextTick {s : State} (hc : s.canon = true) (n : Nat) : (s.nextTick n).tick = (n + 1) % 2 ^ 48 := by
  rw [State.tick, get_congr (nextTick_regs s n), get_put_off (canon_put hc) (by decide), get_put_same hc (by decide)]
  rfl

theorem offset_nextTick {s : State} (hc : s.canon = true) (n : Nat) : (s.nextTick n).offset = 0 := by
  rw [State.offset, get_congr (nextTick_regs s n), get_put_same (canon_put hc) (by decide), Nat.zero_mod]

theorem exec_tickBoundary {s : State} (i : TickInput) (hrun : s.running .te = true) :
    exec (.tickBoundary i) s = ok (((s.endTick s.tick i).nextTick s.tick).beginTick s.tick i) := by
  simp only [exec, execTickBoundary, hrun, Bool.not_true, Bool.false_eq_true, if_false]

/-- Settles O6: the end of the tick leaves the stores canonical, the counter then moves on from the tick's own number, and nothing
that the first cycle of the next tick does touches it. -/
theorem tickBoundaryCounts : Obligations.TickBoundaryCounts := by
  intro s i hc hrun
  have hended : (s.endTick s.tick i).canon = true := (keeps_endTick (Keeps.refl s)).canon hc
  have hnext : ((s.endTick s.tick i).nextTick s.tick).canon = true := (keeps_nextTick (Keeps.refl _)).canon hended
  have hclock := clock_beginTick (n := s.tick) (i := i) (SameClock.refl ((s.endTick s.tick i).nextTick s.tick))
  refine ⟨_, exec_tickBoundary i hrun, ?_, ?_⟩
  · exact (hclock.tick_eq hnext).trans (tick_nextTick hended _)
  · exact (hclock.offset_eq hnext).trans (offset_nextTick hended _)

end Sys2Proof.Machine
end

section
/-! PROOFS. The servo of TE (R66, R67): synchronisation states, the loss of Sync and Announce messages, the 10 MHz and 1PPS inputs. -/

namespace Sys2Proof.Machine

/-! ## Updates of TE -/

/-- From `s` to `t` words of `area` change and, where events were lost, QE's count of them; beside registers only TE's own state does,
the free values taken, and what raising events adds. -/
structure TeChange (area : Nat → Bool) (s t : State) : Prop where
  within : Within (fun k => area k || words [Reg.QE_ARB_LOST] k) s t
  rest : t = { s with regs := t.regs, te := t.te, free := t.free, events := t.events, once := t.once }

section
variable {area : Nat → Bool} {s₀ s t : State}

theorem TeChange.refl (s : State) : TeChange area s s := ⟨Within.refl s, rfl⟩

theorem TeChange.trans (h : TeChange area s₀ s) (g : TeChange area s t) : TeChange area s₀ t :=
  ⟨h.within.trans g.within, by rw [g.rest, h.rest]⟩

theorem TeChange.mono {more : Nat → Bool} (h : TeChange area s t) (hm : ∀ k, area k = true → more k = true) : TeChange more s t :=
  ⟨h.within.mono fun k hk => by
    simp only [Bool.or_eq_true] at hk ⊢
    exact hk.imp_left (hm k), h.rest⟩

theorem TeChange.canon (h : TeChange area s t) (hc : s.canon = true) : t.canon = true := h.within.canon hc

/-- A field away from the area and from QE's count reads as before. -/
theorem TeChange.get_eq (h : TeChange area s t) (hc : s.canon = true) {f : Field}
    (hlo : (area f.key || words [Reg.QE_ARB_LOST] f.key) = false)
    (hhi : (area (f.key + 4) || words [Reg.QE_ARB_LOST] (f.key + 4)) = false) : t.get f = s.get f := h.within.get_eq hc hlo hhi

theorem TeChange.noisyFrame (h : TeChange area s t) (hc : s.canon = true) :
    NoisyFrame area s { s with te := t.te, free := t.free } t := Machine.noisyFrame hc h.within h.rest

/-- The same where TE's state is known and no free value was taken. -/
theorem TeChange.noisyFrame_te (h : TeChange area s t) (hc : s.canon = true) (hfree : t.free = s.free) :
    NoisyFrame area s { s with te := t.te } t := by
  have hframe := h.noisyFrame hc
  rw [hfree] at hframe
  exact hframe

/-- The same where TE's state is as it was as well. -/
theorem TeChange.noisyFrame_self (h : TeChange area s t) (hc : s.canon = true) (hfree : t.free = s.free) (hte : t.te = s.te) :
    NoisyFrame area s s t := by
  have hframe := h.noisyFrame_te hc hfree
  rw [hte] at hframe
  exact hframe

theorem teChange_put (h : TeChange area s₀ s) {f : Field} {v : Nat} (hlo : area f.key = true)
    (hhi : f.hi < 32 ∨ area (f.key + 4) = true) : TeChange area s₀ (s.put f v) :=
  ⟨within_put h.within (by rw [hlo]; rfl) (hhi.imp_right fun hk => by rw [hk]; rfl), by rw [put_rest, h.rest]⟩

theorem teChange_raise (h : TeChange area s₀ s) {u : Unit'} {type : Nat} {l : List (Nat × Nat)} :
    TeChange area s₀ (s.raise u type l) :=
  ⟨within_raise h.within (by simp [words]) (by simp [words]), by unfold State.raise; rw [raiseEvent_rest, h.rest]⟩

theorem teChange_withTe (h : TeChange area s₀ s) (x : TeState) : TeChange area s₀ { s with te := x } :=
  ⟨within_same h.within rfl rfl rfl, by rw [h.rest]⟩

theorem teChange_takeFree (h : TeChange area s₀ s) : TeChange area s₀ s.takeFree.2 :=
  ⟨within_same h.within rfl rfl rfl, by rw [h.rest]; rfl⟩

end

theorem words_mono {l m : List Field} (h : l ⊆ m) {k : Nat} (hk : words l k = true) : words m k = true := by
  simp only [words, List.any_eq_true] at hk ⊢
  obtain ⟨f, hf, hkey⟩ := hk
  exact ⟨f, h hf, hkey⟩

/-- An event raised to PF0 after updates that raise none is the one that `posted` names. -/
theorem posted_raise {s t : State} (h : t.events = s.events) (u : Unit') (type : Nat) (l : List (Nat × Nat)) :
    posted s (t.raise u type l) u type l := by
  intro hroom
  have hroom' : t.eventsOf u.num < 1024 := by rw [State.eventsOf, h]; exact hroom
  unfold State.raise
  rw [raiseEvent_room t _ hroom', ← h]

theorem flag_congr {s t : State} {f : Field} (h : t.get f = s.get f) : t.flag f = s.flag f := by rw [State.flag, State.flag, h]

/-- A field of one bit that was set to 0, or to 1. -/
theorem flag_put_same {s : State} {f : Field} (hc : s.canon = true) (hok : f.ok = true) (hwidth : f.width = 1) (v : Nat) :
    (s.put f v).flag f = (v % 2 == 1) := by
  rw [State.flag, get_put_same hc hok, hwidth, pow_one]

theorem ofSigned_lt (n : Nat) (i : Int) : ofSigned n i < 2 ^ n := by
  have hpos : (0 : Int) < 2 ^ n := by positivity
  have hlt := Int.emod_lt_of_pos i hpos
  have hnonneg := Int.emod_nonneg i hpos.ne'
  unfold ofSigned
  zify
  rwa [Int.toNat_of_nonneg hnonneg]

/-! ## Synchronisation states (R67) -/

theorem writes_refreshTime (s : State) : Writes (words [Reg.HGC_STATE_NOT_FIT]) s s.refreshTime := by
  unfold State.refreshTime
  exact writes_ite (writes_put (Writes.refl s) (by decide) (.inl (by decide))) (Writes.refl s)

theorem Writes.teChange {area : Nat → Bool} {s t : State} (h : Writes area s t) : TeChange area s t :=
  ⟨h.within.mono fun k hk => by rw [hk]; rfl, by rw [h.rest]⟩

/-- Once STATE is written, a change of synchronisation state touches NOT_FIT, whether TE was LOCKED, and the events. -/
theorem teChange_setSync (s : State) (st : Nat) :
    TeChange (words [Reg.HGC_STATE_NOT_FIT]) (s.put Reg.TE_SYNC_STATE_STATE st) (s.setSync st) := by
  have hfit := (writes_refreshTime (s.put Reg.TE_SYNC_STATE_STATE st)).teChange
  unfold State.setSync
  dsimp only
  split
  · exact teChange_raise (teChange_withTe hfit _)
  · exact teChange_raise hfit
  · exact teChange_raise hfit
  · exact teChange_raise hfit
  · exact hfit

/-- The words that a change of synchronisation state and the steering of frequency write. -/
def servoWord (k : Nat) : Bool := words [Reg.TE_SYNC_STATE_STATE, Reg.TE_FREQ_ADJ, Reg.HGC_STATE_NOT_FIT] k

theorem teChange_setSync_from {s₀ s : State} {area : Nat → Bool} (h : TeChange area s₀ s) (st : Nat)
    (hstate : area Reg.TE_SYNC_STATE_STATE.key = true) (hfit : ∀ k, words [Reg.HGC_STATE_NOT_FIT] k = true → area k = true) :
    TeChange area s₀ (s.setSync st) :=
  (teChange_put h hstate (.inl (by decide))).trans ((teChange_setSync s st).mono hfit)

theorem syncState_setSync {s : State} (hc : s.canon = true) (st : Nat) : (s.setSync st).syncState = st % 8 := by
  rw [State.syncState, (teChange_setSync s st).get_eq (canon_put hc) (by decide) (by decide), get_put_same hc (by decide)]
  rfl

/-- A field that shares no bit with STATE, and stands away from NOT_FIT, outlives a change of state. -/
theorem get_setSync {s : State} (hc : s.canon = true) (st : Nat) {f : Field} (hoff : Reg.TE_SYNC_STATE_STATE.off f = true)
    (hlo : (words [Reg.HGC_STATE_NOT_FIT] f.key || words [Reg.QE_ARB_LOST] f.key) = false)
    (hhi : (words [Reg.HGC_STATE_NOT_FIT] (f.key + 4) || words [Reg.QE_ARB_LOST] (f.key + 4)) = false) :
    (s.setSync st).get f = s.get f := by
  rw [(teChange_setSync s st).get_eq (canon_put hc) hlo hhi, get_put_off hc hoff]

/-- A state other than ACQUIRING and LOCKED is entered with its event alone. -/
theorem setSync_raises (s : State) {st : Nat} (h : st ∈ [2, 3, 4]) :
    s.setSync st = (s.put Reg.TE_SYNC_STATE_STATE st).refreshTime.raise .te st [] := by
  simp only [List.mem_cons, List.not_mem_nil, or_false] at h
  rcases h with rfl | rfl | rfl <;> rfl

theorem refreshTime_te (s : State) : s.refreshTime.te = s.te := by rw [(writes_refreshTime s).rest]
theorem refreshTime_free (s : State) : s.refreshTime.free = s.free := by rw [(writes_refreshTime s).rest]
theorem refreshTime_events (s : State) : s.refreshTime.events = s.events := by rw [(writes_refreshTime s).rest]

theorem setSync_te (s : State) {st : Nat} (h : st ∈ [2, 3, 4]) : (s.setSync st).te = s.te := by
  rw [setSync_raises s h, State.raise_te, refreshTime_te, State.put_te]

theorem setSync_free (s : State) {st : Nat} (h : st ∈ [2, 3, 4]) : (s.setSync st).free = s.free := by
  rw [setSync_raises s h, State.raise_free, refreshTime_free, State.put_free]

theorem posted_setSync {s₀ s : State} (hevents : s.events = s₀.events) {st : Nat} (h : st ∈ [2, 3, 4]) :
    posted s₀ (s.setSync st) .te st [] := by
  rw [setSync_raises s h]
  exact posted_raise (by rw [refreshTime_events, State.put_events, hevents]) _ _ _

/-! ## Steering (R67, R68) -/

theorem steer_rest (s : State) : s.steer = { s with regs := s.steer.regs, free := s.steer.free } := by
  unfold State.steer
  dsimp only
  rw [put_rest]
  rfl

theorem within_steer (s : State) : Within (words [Reg.TE_FREQ_ADJ]) s s.steer :=
  within_put (within_same (Within.refl s) rfl rfl rfl) (by decide) (.inl (by decide))

/-- Without a 10 MHz input in use, time runs on the last estimate itself. -/
theorem coast_eq_put {s : State} (h : s.flag Reg.TE_SYNC_STATE_REF10_OK = false) :
    s.coast = s.put Reg.TE_FREQ_ADJ (ofSigned 32 s.te.freqEst) := by
  rw [State.coast, h, if_neg Bool.false_ne_true]

theorem coast_rest (s : State) : s.coast = { s with regs := s.coast.regs, free := s.coast.free } := by
  unfold State.coast
  split
  · exact steer_rest s
  · rw [put_rest]

theorem within_coast (s : State) : Within (words [Reg.TE_FREQ_ADJ]) s s.coast := by
  unfold State.coast
  exact within_ite (within_steer s) (within_put (Within.refl s) (by decide) (.inl (by decide)))

theorem coast_te (s : State) : s.coast.te = s.te := by rw [coast_rest]
theorem coast_events (s : State) : s.coast.events = s.events := by rw [coast_rest]

theorem teChange_coast {s₀ s : State} {area : Nat → Bool} (h : TeChange area s₀ s)
    (hadj : ∀ k, words [Reg.TE_FREQ_ADJ] k = true → area k = true) : TeChange area s₀ s.coast :=
  h.trans ⟨(within_coast s).mono fun k hk => by rw [hadj k hk]; rfl, by rw [coast_rest]⟩

theorem teChange_steer {s₀ s : State} {area : Nat → Bool} (h : TeChange area s₀ s)
    (hadj : ∀ k, words [Reg.TE_FREQ_ADJ] k = true → area k = true) : TeChange area s₀ s.steer :=
  h.trans ⟨(within_steer s).mono fun k hk => by rw [hadj k hk]; rfl, by rw [steer_rest]⟩

/-! ## LOCKED is lost (R67) -/

/-- The runs of Sync messages start over. -/
def State.clearRuns (s : State) : State := { s with te := { s.te with goodFreqs := [], badRun := 0 } }

theorem loseLock_eq {s : State} (h : s.syncState = 1) : s.loseLock = s.clearRuns.coast.setSync 2 := if_pos h

theorem canon_coast {s : State} (hc : s.canon = true) : s.coast.canon = true := (within_coast s).canon hc

section
variable {s : State} (hsync : s.syncState = 1)
include hsync

theorem loseLock_te : s.loseLock.te = { s.te with goodFreqs := [], badRun := 0 } := by
  rw [loseLock_eq hsync, setSync_te _ (by decide), coast_te]
  rfl

theorem loseLock_syncState (hc : s.canon = true) : s.loseLock.syncState = 2 := by
  rw [loseLock_eq hsync]
  exact syncState_setSync (canon_coast (s := s.clearRuns) hc) 2

theorem posted_loseLock : posted s s.loseLock .te 2 [] := by
  rw [loseLock_eq hsync]
  exact posted_setSync (coast_events s.clearRuns) (by decide)

theorem teChange_loseLock : TeChange servoWord s s.loseLock := by
  rw [loseLock_eq hsync]
  exact teChange_setSync_from (teChange_coast (teChange_withTe (TeChange.refl s) _) fun _ => words_mono (by simp)) 2 (by decide)
    fun _ => words_mono (by simp)

theorem loseLock_port (hc : s.canon = true) : s.loseLock.get Reg.TE_SYNC_STATE_PORT = s.get Reg.TE_SYNC_STATE_PORT := by
  have hc' : s.clearRuns.canon = true := hc
  rw [loseLock_eq hsync, get_setSync (canon_coast hc') 2 (by decide) (by decide) (by decide)]
  exact (within_coast s.clearRuns).get_eq hc' (by decide) (by decide)

theorem loseLock_freqAdj (hc : s.canon = true) (href : s.flag Reg.TE_SYNC_STATE_REF10_OK = false) :
    s.loseLock.get Reg.TE_FREQ_ADJ = ofSigned 32 s.te.freqEst := by
  have href' : s.clearRuns.flag Reg.TE_SYNC_STATE_REF10_OK = false := href
  have hc' : s.clearRuns.canon = true := hc
  rw [loseLock_eq hsync, get_setSync (canon_coast hc') 2 (by decide) (by decide) (by decide), coast_eq_put href',
    get_put_same hc' (by decide)]
  exact Nat.mod_eq_of_lt (ofSigned_lt 32 _)

end

theorem syncTimeout_frame {s : State} (hc : s.canon = true) (hsync : s.syncState = 1) :
    NoisyFrame servoWord s { s with te := { s.te with goodFreqs := [], badRun := 0 }, free := s.loseLock.free } s.loseLock := by
  have hframe := (teChange_loseLock hsync).noisyFrame hc
  rwa [loseLock_te hsync] at hframe

/-! ## ANNOUNCE_TIMEOUT (R66, R67) -/

/-- No Announce message stands any longer, and no grandmaster is selected. -/
def State.orphaned (s : State) : State :=
  { s.put Reg.TE_SYNC_STATE_PORT 0xFF with te := { s.te with announces := [], gm := none } }

/-- GM_CHANGE is raised as the last grandmaster is lost, with the index that GM_INDEX shows. -/
def State.gmLost (s : State) : State := s.orphaned.raise .te 5 [(8, s.get Reg.TE_SYNC_STATE_GM_INDEX)]

/-- With no Announce message held, the algorithm selects none. -/
theorem runBmca_unheard {s : State} (hc : s.canon = true) {g : Nat} (hgm : s.te.gm = some g) :
    ({ s with te := { s.te with announces := [] } } : State).runBmca = s.gmLost := by
  have hindex : s.orphaned.get Reg.TE_SYNC_STATE_GM_INDEX = s.get Reg.TE_SYNC_STATE_GM_INDEX :=
    get_put_off (f := Reg.TE_SYNC_STATE_PORT) hc (by decide)
  unfold State.runBmca State.gmLost
  simp only [hgm, List.filter_nil, bestAnnounce, Option.map_none, reduceCtorEq, if_false, State.put_te]
  rw [← hindex]
  rfl

theorem canon_gmLost {s : State} (hc : s.canon = true) : s.gmLost.canon = true := by
  have horphaned : s.orphaned.canon = true := canon_put hc
  exact (keeps_raise (Keeps.refl _)).canon horphaned

theorem teChange_gmLost (s : State) : TeChange servoWord s s.gmLost :=
  teChange_raise (teChange_withTe (teChange_put (TeChange.refl s) (by decide) (.inl (by decide))) _)

theorem gmLost_te (s : State) : s.gmLost.te = { s.te with announces := [], gm := none } := by
  rw [State.gmLost, State.raise_te]
  rfl

theorem get_gmLost {s : State} (hc : s.canon = true) {f : Field} (hlo : words [Reg.QE_ARB_LOST] f.key = false)
    (hhi : words [Reg.QE_ARB_LOST] (f.key + 4) = false) : s.gmLost.get f = s.orphaned.get f := by
  have horphaned : s.orphaned.canon = true := canon_put hc
  exact (teChange_raise (TeChange.refl s.orphaned) (area := fun _ => false)).get_eq horphaned (by simp [hlo]) (by simp [hhi])

theorem syncState_gmLost {s : State} (hc : s.canon = true) : s.gmLost.syncState = s.syncState :=
  (get_gmLost hc (by decide) (by decide)).trans (get_put_off (f := Reg.TE_SYNC_STATE_PORT) hc (by decide))

theorem port_gmLost {s : State} (hc : s.canon = true) : s.gmLost.get Reg.TE_SYNC_STATE_PORT = 0xFF :=
  (get_gmLost hc (by decide) (by decide)).trans (get_put_same hc (by decide))

theorem exec_announceTimeout {s : State} (hc : s.canon = true) {gm : Fin 4} (hgm : s.te.gm = some gm.val)
    (hann : s.te.announces.all (fun x => x.1 / 256 == gm.val) = true) : exec (.announceTimeout gm) s = ok s.gmLost.loseLock := by
  have hnone : s.te.announces.filter (fun x => x.1 / 256 != gm.val) = [] := by
    rw [List.filter_eq_nil_iff]
    intro x hx
    simpa using List.all_eq_true.mp hann x hx
  simp only [exec, execAnnounceTimeout, hnone, runBmca_unheard hc hgm]
  simp only [hgm, gmLost_te, decide_true, Option.isNone_none, Bool.and_self, if_true]

/-- The events that the last grandmaster's loss raises, where TE's store has room for both. -/
theorem events_gmLost_loseLock {s : State} (hsync : s.gmLost.syncState = 1) (hroom : s.eventsOf 1 < 1023) :
    s.gmLost.loseLock.events = s.events ++
      [⟨1, 5, 0, .pf, payload [(8, s.get Reg.TE_SYNC_STATE_GM_INDEX)]⟩, ⟨1, 2, 0, .pf, payload []⟩] := by
  have hfirst : s.gmLost.events = s.events ++ [⟨1, 5, 0, .pf, payload [(8, s.get Reg.TE_SYNC_STATE_GM_INDEX)]⟩] :=
    posted_raise (s := s) (t := s.orphaned) (State.put_events ..) .te 5 _ (Nat.lt_succ_of_lt hroom)
  have hroom' : s.gmLost.eventsOf 1 < 1024 := by
    rw [State.eventsOf] at hroom ⊢
    simp only [hfirst, List.filter_append, List.length_append]
    simp
    omega
  rw [posted_loseLock hsync hroom', hfirst, List.append_assoc]
  rfl

/-! ## The 10 MHz input (R66) -/

/-- A mismatch row last applied now. -/
def State.noteMismatch (s : State) (key : Nat) : State :=
  { s with te := { s.te with mismatch := Assoc.set s.te.mismatch key s.tick } }

/-- A row that applies is noted, and recorded where it did not apply before. -/
theorem mismatchRow_eq (s : State) (row port : Nat) : ∃ fresh, s.mismatchRow row port =
    (s.noteMismatch (row * 256 + port)).when fresh (fun s => s.hlog 18 1 (payload [(8, row), (8, port)])) := ⟨_, rfl⟩

theorem mismatchRow_te (s : State) (row port : Nat) :
    (s.mismatchRow row port).te = { s.te with mismatch := Assoc.set s.te.mismatch (row * 256 + port) s.tick } := by
  obtain ⟨fresh, h⟩ := mismatchRow_eq s row port
  rw [h]
  cases fresh with
  | false => rfl
  | true => exact State.hlog_te ..

theorem mismatchRow_rest (s : State) (row port : Nat) :
    s.mismatchRow row port = { s with regs := (s.mismatchRow row port).regs, te := (s.mismatchRow row port).te } := by
  obtain ⟨fresh, h⟩ := mismatchRow_eq s row port
  rw [h]
  cases fresh with
  | false => rfl
  | true => exact hlog_rest ..

theorem within_mismatchRow (s : State) (row port : Nat) : Within logWord s (s.mismatchRow row port) := by
  obtain ⟨fresh, h⟩ := mismatchRow_eq s row port
  have hnoted : Within logWord s (s.noteMismatch (row * 256 + port)) := within_same (Within.refl s) rfl rfl rfl
  rw [h]
  exact within_when hnoted (within_hlog hnoted fun _ hk => hk)

theorem mismatchRow_events (s : State) (row port : Nat) : (s.mismatchRow row port).events = s.events := by rw [mismatchRow_rest]
theorem mismatchRow_free (s : State) (row port : Nat) : (s.mismatchRow row port).free = s.free := by rw [mismatchRow_rest]

theorem teChange_mismatchRow {area : Nat → Bool} {s₀ s : State} (h : TeChange area s₀ s) (row port : Nat)
    (hlog : ∀ k, logWord k = true → area k = true) : TeChange area s₀ (s.mismatchRow row port) :=
  h.trans ⟨(within_mismatchRow s row port).mono fun k hk => by rw [hlog k hk]; rfl, by rw [mismatchRow_rest]⟩

/-- The row of the 10 MHz input begins to apply. -/
def State.refLost (s : State) : State :=
  ({ s.put Reg.TE_SYNC_STATE_REF10_OK 0 with te := { s.te with refAbsent := true } } : State).mismatchRow 3 0xFF

theorem exec_ref10Loss {s : State} (hen : s.flag Reg.TE_CFG_REF10_EN = true) (hpresent : s.te.refAbsent = false) :
    exec .ref10Loss s = ok (s.refLost.when (s.flag Reg.TE_SYNC_STATE_REF10_OK) fun s => (s.raise .te 6 []).recoast) := by
  simp only [exec, execRef10Loss, hen, hpresent, Bool.not_false, Bool.and_self, if_true]
  rfl

theorem refLost_events (s : State) : s.refLost.events = s.events := (mismatchRow_events _ _ _).trans (State.put_events ..)
theorem refLost_free (s : State) : s.refLost.free = s.free := (mismatchRow_free _ _ _).trans (State.put_free ..)
theorem refLost_refAbsent (s : State) : s.refLost.te.refAbsent = true := by rw [State.refLost, mismatchRow_te]

theorem canon_refLost {s : State} (hc : s.canon = true) : s.refLost.canon = true :=
  (within_mismatchRow _ _ _).canon (canon_put (f := Reg.TE_SYNC_STATE_REF10_OK) (v := 0) hc)

theorem ref10Ok_refLost {s : State} (hc : s.canon = true) : s.refLost.flag Reg.TE_SYNC_STATE_REF10_OK = false := by
  have hput : (s.put Reg.TE_SYNC_STATE_REF10_OK 0).flag Reg.TE_SYNC_STATE_REF10_OK = false :=
    flag_put_same hc (by decide) (by decide) 0
  rw [← hput]
  exact flag_congr ((within_mismatchRow _ _ _).get_eq (canon_put (f := Reg.TE_SYNC_STATE_REF10_OK) (v := 0) hc) (by decide) (by decide))

/-- The words that the loss of the 10 MHz input writes. -/
def refWord (k : Nat) : Bool := words [Reg.TE_SYNC_STATE_REF10_OK, Reg.TE_FREQ_ADJ] k || logWord k

theorem teChange_refLost (s : State) : TeChange refWord s s.refLost :=
  teChange_mismatchRow (teChange_withTe (teChange_put (TeChange.refl s) (by decide) (.inl (by decide))) _) _ _
    fun k hk => by simp only [refWord, hk, Bool.or_true]

theorem within_recoast (s : State) : Within (words [Reg.TE_FREQ_ADJ]) s s.recoast := within_when (Within.refl s) (within_coast s)

theorem recoast_rest (s : State) : s.recoast = { s with regs := s.recoast.regs, free := s.recoast.free } := by
  unfold State.recoast State.when
  split
  · exact coast_rest s
  · rfl

theorem recoast_te (s : State) : s.recoast.te = s.te := by rw [recoast_rest]
theorem recoast_events (s : State) : s.recoast.events = s.events := by rw [recoast_rest]

/-- Without the 10 MHz input no free value goes into the steering. -/
theorem recoast_free {s : State} (h : s.flag Reg.TE_SYNC_STATE_REF10_OK = false) : s.recoast.free = s.free := by
  unfold State.recoast State.when
  split
  · rw [coast_eq_put h, State.put_free]
  · rfl

theorem ref10Loss_noticed {s : State} (hc : s.canon = true) (hen : s.flag Reg.TE_CFG_REF10_EN = true) (hpresent : s.te.refAbsent = false)
    (hgood : s.flag Reg.TE_SYNC_STATE_REF10_OK = true) : completes .ref10Loss s fun t =>
      t.flag Reg.TE_SYNC_STATE_REF10_OK = false ∧ t.te.refAbsent = true ∧ posted s t .te 6 [] ∧
      NoisyFrame refWord s { s with te := t.te } t := by
  have hraised := teChange_raise (u := .te) (type := 6) (l := []) (TeChange.refl (area := fun _ => false) s.refLost)
  have hc₁ : (s.refLost.raise .te 6 []).canon = true := hraised.canon (canon_refLost hc)
  have hflag₁ : (s.refLost.raise .te 6 []).flag Reg.TE_SYNC_STATE_REF10_OK = false := by
    rw [← ref10Ok_refLost hc]
    exact flag_congr (hraised.get_eq (canon_refLost hc) (by decide) (by decide))
  have hchange : TeChange refWord s (s.refLost.raise .te 6 []).recoast :=
    (teChange_raise (teChange_refLost s)).trans
      ⟨(within_recoast _).mono fun k hk => by rw [refWord, words_mono (by simp) hk]; rfl, by rw [recoast_rest]⟩
  refine ⟨(s.refLost.raise .te 6 []).recoast, ?_, ?_, ?_, ?_, ?_⟩
  · rw [exec_ref10Loss hen hpresent, hgood]
    rfl
  · rw [← hflag₁]
    exact flag_congr ((within_recoast _).get_eq hc₁ (by decide) (by decide))
  · rw [recoast_te, State.raise_te, refLost_refAbsent]
  · have hposted := posted_raise (refLost_events s) .te 6 []
    unfold posted at hposted ⊢
    rwa [recoast_events]
  · refine hchange.noisyFrame_te hc ?_
    rw [recoast_free hflag₁, State.raise_free, refLost_free]

theorem ref10Loss_unnoticed {s : State} (hen : s.flag Reg.TE_CFG_REF10_EN = true) (hpresent : s.te.refAbsent = false)
    (hbad : s.flag Reg.TE_SYNC_STATE_REF10_OK = false) : completes .ref10Loss s fun t => t.events = s.events := by
  refine ⟨_, exec_ref10Loss hen hpresent, ?_⟩
  rw [hbad]
  exact refLost_events s

theorem refBack_refAbsent (s : State) : s.refBack.te.refAbsent = false := by
  unfold State.refBack
  split
  · rfl
  next h => exact Bool.eq_false_iff.mpr h

theorem refBack_rest (s : State) : s.refBack = { s with te := s.refBack.te } := by
  unfold State.refBack
  split <;> rfl

/-- The 10 MHz input is back: its row ceases to apply, and REF10_OK is set. -/
def State.refFound (s : State) : State := s.refBack.put Reg.TE_SYNC_STATE_REF10_OK 1

theorem exec_ref10Return {s : State} (hen : s.flag Reg.TE_CFG_REF10_EN = true) :
    exec .ref10Return s = ok (s.refFound.when (!s.flag Reg.TE_SYNC_STATE_REF10_OK) State.recoast) := by
  simp only [exec, execRef10Return, hen, if_true, State.refFound]

theorem canon_refBack {s : State} (hc : s.canon = true) : s.refBack.canon = true := by rw [refBack_rest]; exact hc

theorem when_recoast_rest (s : State) (b : Bool) :
    s.when b State.recoast = { s with regs := (s.when b State.recoast).regs, free := (s.when b State.recoast).free } := by
  unfold State.when
  split
  · exact recoast_rest s
  · rfl

theorem ref10Return_completes {s : State} (hc : s.canon = true) (hen : s.flag Reg.TE_CFG_REF10_EN = true) :
    completes .ref10Return s fun t => t.flag Reg.TE_SYNC_STATE_REF10_OK = true ∧ (s.te.refAbsent = false ∨ t.te.refAbsent = false) ∧
      QuietFrame (words [Reg.TE_SYNC_STATE_REF10_OK, Reg.TE_FREQ_ADJ]) s { s with te := t.te, free := t.free } t := by
  have hfound : s.refFound.canon = true := canon_put (canon_refBack hc)
  have hsteered := fun b => within_when (b := b) (Within.refl s.refFound) (within_recoast s.refFound)
  refine ⟨_, exec_ref10Return hen, ?_, .inr ?_, ?_⟩
  · have hset : s.refFound.flag Reg.TE_SYNC_STATE_REF10_OK = true := flag_put_same (canon_refBack hc) (by decide) (by decide) 1
    rw [← hset]
    exact flag_congr ((hsteered _).get_eq hfound (by decide) (by decide))
  · rw [when_recoast_rest, State.refFound, put_rest]
    exact refBack_refAbsent s
  · refine quietFrame hc (Within.trans ?_ ((hsteered _).mono fun _ => words_mono (by simp))) ?_
    · rw [State.refFound, refBack_rest]
      exact within_put (within_same (Within.refl s) rfl rfl rfl) (by decide) (.inl (by decide))
    · rw [when_recoast_rest, State.refFound, put_rest, refBack_rest]

/-! ## The 1PPS input (R66) -/

/-- The row of the 1PPS input ceases to apply; its 10 s run from now. -/
def State.ppsBack (s : State) : State :=
  if s.te.ppsBad then
    { s with te := { s.te with ppsBad := false, mismatch := Assoc.set s.te.mismatch (4 * 256 + 0xFF) s.tick } }
  else s

theorem ppsGood_eq (s : State) : s.ppsGood = s.ppsBack.put Reg.TE_SYNC_STATE_PPS_OK 1 := rfl

theorem ppsBack_rest (s : State) : s.ppsBack = { s with te := s.ppsBack.te } := by
  unfold State.ppsBack
  split <;> rfl

theorem canon_ppsBack {s : State} (hc : s.canon = true) : s.ppsBack.canon = true := by rw [ppsBack_rest]; exact hc

theorem ppsGood_completes {s : State} (hc : s.canon = true) : s.ppsGood.flag Reg.TE_SYNC_STATE_PPS_OK = true ∧
    QuietFrame (words [Reg.TE_SYNC_STATE_PPS_OK]) s { s with te := s.ppsGood.te } s.ppsGood := by
  rw [ppsGood_eq]
  refine ⟨flag_put_same (canon_ppsBack hc) (by decide) (by decide) 1, quietFrame hc ?_ ?_⟩
  · rw [ppsBack_rest]
    exact within_put (within_same (Within.refl s) rfl rfl rfl) (by decide) (.inl (by decide))
  · rw [put_rest, ppsBack_rest]

/-- The words that a failed check of the 1PPS input writes. -/
def ppsWord (k : Nat) : Bool := words [Reg.TE_SYNC_STATE_PPS_OK] k || logWord k

/-- The row of the 1PPS input applies. -/
def State.ppsMissed (s : State) : State :=
  { s.mismatchRow 4 0xFF with te := { (s.mismatchRow 4 0xFF).te with ppsBad := true } }

theorem ppsFail_eq {s : State} (hc : s.canon = true) (hgood : s.flag Reg.TE_SYNC_STATE_PPS_OK = true) :
    s.ppsFail = (s.ppsMissed.put Reg.TE_SYNC_STATE_PPS_OK 0).raise .te 6 [] := by
  have hflag : s.ppsMissed.flag Reg.TE_SYNC_STATE_PPS_OK = true := by
    rw [← hgood]
    exact flag_congr ((within_mismatchRow s 4 0xFF).get_eq hc (by decide) (by decide))
  exact if_pos hflag

theorem ppsFail_lost {s : State} (hc : s.canon = true) (hgood : s.flag Reg.TE_SYNC_STATE_PPS_OK = true) :
    s.ppsFail.flag Reg.TE_SYNC_STATE_PPS_OK = false ∧ posted s s.ppsFail .te 6 [] ∧
      NoisyFrame ppsWord s { s with te := s.ppsFail.te } s.ppsFail := by
  have hc₁ : s.ppsMissed.canon = true := (within_mismatchRow s 4 0xFF).canon hc
  have hraised := teChange_raise (u := .te) (type := 6) (l := [])
    (TeChange.refl (area := fun _ => false) (s.ppsMissed.put Reg.TE_SYNC_STATE_PPS_OK 0))
  have hmissed : TeChange ppsWord s s.ppsMissed := teChange_withTe (teChange_mismatchRow (TeChange.refl s) 4 0xFF
    fun k hk => by simp only [ppsWord, hk, Bool.or_true]) _
  rw [ppsFail_eq hc hgood]
  refine ⟨?_, posted_raise ?_ _ _ _, ?_⟩
  · have hput : (s.ppsMissed.put Reg.TE_SYNC_STATE_PPS_OK 0).flag Reg.TE_SYNC_STATE_PPS_OK = false :=
      flag_put_same hc₁ (by decide) (by decide) 0
    rw [← hput]
    exact flag_congr (hraised.get_eq (canon_put hc₁) (by decide) (by decide))
  · exact (State.put_events ..).trans (mismatchRow_events s 4 0xFF)
  · refine (teChange_raise (teChange_put hmissed (by decide) (.inl (by decide)))).noisyFrame_te hc ?_
    rw [State.raise_free, State.put_free]
    exact mismatchRow_free s 4 0xFF

theorem exec_pps {s : State} (hen : s.flag Reg.TE_CFG_PPS_EN = true) (hsync : s.syncState = 1) :
    exec .ppsAbsent s = ok s.ppsFail ∧ ∀ e, exec (.ppsEdge e) s = ok (if Int.natAbs e ≤ 1000 then s.ppsGood else s.ppsFail) := by
  simp only [exec, execPpsAbsent, execPpsEdge, hen, hsync, decide_true, Bool.and_self, if_true, implies_true, and_self]

/-- Settles O1: clause by clause, each loss by what it does to STATE, to the steering and to the events. -/
theorem syncLossCommandsComplete : Obligations.SyncLossCommandsComplete := by
  intro s hc
  refine ⟨?timeout, ?timeoutAdj, ?announce, ?holdover, ?ref10, ?pps⟩
  case timeout =>
    exact fun hsync => ⟨_, rfl, loseLock_syncState hsync hc, posted_loseLock hsync, syncTimeout_frame hc hsync⟩
  case timeoutAdj => exact fun hsync href => ⟨_, rfl, loseLock_freqAdj hsync hc href⟩
  case announce =>
    intro gm hgm hann hsync
    have hc₁ := canon_gmLost hc
    have hsync₁ : s.gmLost.syncState = 1 := (syncState_gmLost hc).trans hsync
    refine ⟨_, exec_announceTimeout hc hgm hann, ?_, ?_, loseLock_syncState hsync₁ hc₁, ?_, events_gmLost_loseLock hsync₁,
      ((teChange_gmLost s).trans (teChange_loseLock hsync₁)).noisyFrame hc⟩
    · rw [loseLock_te hsync₁, gmLost_te]
    · rw [loseLock_te hsync₁, gmLost_te]
    · rw [loseLock_port hsync₁ hc₁, port_gmLost hc]
  case holdover =>
    intro hsync
    refine ⟨s.setSync 3, congrArg ok (if_pos hsync), syncState_setSync hc 3, posted_setSync rfl (by decide), ?_⟩
    refine TeChange.noisyFrame_self ?_ hc (setSync_free s (by decide)) (setSync_te s (by decide))
    exact teChange_setSync_from (TeChange.refl s) 3 (by decide) fun _ => words_mono (by simp)
  case ref10 =>
    exact fun hen => ⟨ref10Loss_noticed hc hen, ref10Loss_unnoticed hen, ref10Return_completes hc hen⟩
  case pps =>
    intro hen hsync
    obtain ⟨habsent, hedge⟩ := exec_pps hen hsync
    refine ⟨fun e he => ⟨s.ppsGood, (hedge e).trans (congrArg ok (if_pos he)), ppsGood_completes hc⟩, fun e he hgood => ?_,
      fun hgood => ⟨_, habsent, ppsFail_lost hc hgood⟩⟩
    obtain ⟨hflag, hposted, -⟩ := ppsFail_lost hc hgood
    exact ⟨s.ppsFail, (hedge e).trans (congrArg ok (if_neg (by omega))), hflag, hposted⟩

end Sys2Proof.Machine
end

section
/-! PROOFS. The PTP exchange, the media start and RESTEP (R64 to R70, R288, R289). -/

namespace Sys2Proof.Machine

/-! ## Updates under which local time may step -/

/-- From `s` to `t` words of `area` change and, where events were lost, QE's count of them; beside registers TE's own state does, what
moves with a step of local time, and what raising events adds. -/
structure TimeMoves (area : Nat → Bool) (s t : State) : Prop where
  within : Within (fun k => area k || words [Reg.QE_ARB_LOST] k) s t
  rest : t = { timeStepped s t with regs := t.regs, events := t.events, once := t.once }

section
variable {area : Nat → Bool} {s₀ s t : State}

theorem TimeMoves.trans (h : TimeMoves area s₀ s) (g : TimeMoves area s t) : TimeMoves area s₀ t :=
  ⟨h.within.trans g.within, by rw [g.rest, h.rest]; rfl⟩

theorem TimeMoves.mono {more : Nat → Bool} (h : TimeMoves area s t) (hm : ∀ k, area k = true → more k = true) : TimeMoves more s t :=
  ⟨h.within.mono fun k hk => by
    simp only [Bool.or_eq_true] at hk ⊢
    exact hk.imp_left (hm k), h.rest⟩

theorem TeChange.timeMoves (h : TeChange area s t) : TimeMoves area s t := ⟨h.within, by rw [h.rest]; rfl⟩

end

theorem timeMoves_stepTime (s : State) (tick offset : Nat) : TimeMoves stepWord s (s.stepTime tick offset) :=
  ⟨(within_stepTime s tick offset).mono fun k hk => by rw [hk]; rfl, by rw [stepTime_rest]; rfl⟩

/-! ## A usable Sync message (R67) -/

/-- A field that fills no second word reads as before where its one word stands outside the area. -/
theorem Within.get_eq_low {area : Nat → Bool} {s t : State} {f : Field} (h : Within area s t) (hc : s.canon = true)
    (hword : f.hi < 32) (hkey : area f.key = false) : t.get f = s.get f := by
  simp only [State.get, if_pos hword, h.words hc _ hkey]

theorem setSync_freqEst (s : State) (st : Nat) : (s.setSync st).te.freqEst = s.te.freqEst := by
  have hfit : (s.put Reg.TE_SYNC_STATE_STATE st).refreshTime.te = s.te := (refreshTime_te _).trans (State.put_te ..)
  unfold State.setSync
  dsimp only
  split
  all_goals simp only [State.raise_te, hfit]

/-- In ACQUIRING a free value says whether local time steps by the offset. -/
theorem mayStep_eq (s : State) (off : Int) :
    s.mayStep off = s.takeFree.2 ∨ ∃ ns, s.mayStep off = s.takeFree.2.setLocalNs ns := by
  unfold State.mayStep State.takeFree
  dsimp only
  split
  · exact .inr ⟨_, rfl⟩
  · exact .inl rfl

theorem mayStep_te (s : State) (off : Int) : (s.mayStep off).te = s.te := by
  obtain h | ⟨ns, h⟩ := mayStep_eq s off
  · rw [h, State.takeFree_te]
  · rw [h, State.setLocalNs, stepTime_te, State.takeFree_te]

theorem timeMoves_mayStep (s : State) (off : Int) : TimeMoves stepWord s (s.mayStep off) := by
  have hfree : TimeMoves stepWord s s.takeFree.2 := (teChange_takeFree (TeChange.refl s)).timeMoves
  obtain h | ⟨ns, h⟩ := mayStep_eq s off
  · rw [h]; exact hfree
  · rw [h]; exact hfree.trans (timeMoves_stepTime _ _ _)

/-- The offset, the estimate and the runs of Sync messages, as a usable one leaves them before the servo acts on them. -/
def State.noteSync (s : State) (off ppb : Int) (good : List Int) (bad : Nat) : State :=
  { s.put Reg.TE_PTP_OFFSET (ofSigned 32 (clampInt (2 ^ 31 - 1) off)) with
    te := { s.te with goodFreqs := good, badRun := bad, freqEst := ppb } }

/-- What a usable Sync message does outside TIME_FAULT: it is noted; then TE enters TIME_FAULT, or it may step local time, in ACQUIRING
alone, steers the frequency, and may enter LOCKED. -/
theorem usableSync_cases {s : State} (hc : s.canon = true) (off ppb : Int) (hsync : s.syncState ≠ 4) : ∃ good bad,
    s.usableSync off ppb = ((s.noteSync off ppb good bad).put Reg.TE_FREQ_ADJ (ofSigned 32 ppb)).setSync 4 ∨
    ∃ v, (v = s.noteSync off ppb good bad ∨ s.syncState = 0 ∧ v = (s.noteSync off ppb good bad).mayStep off) ∧
      (s.usableSync off ppb = v.steer ∨ s.usableSync off ppb = v.steer.setSync 1) := by
  generalize hresult : s.usableSync off ppb = r
  unfold State.usableSync at hresult
  extract_lets s₁ lock limit mag good bad _ noted stepped steered at hresult
  have hstate : s₁.syncState = s.syncState := get_put_off hc (by decide)
  rw [if_neg (by rw [hstate]; exact hsync)] at hresult
  refine ⟨good, bad, ?_⟩
  split at hresult
  · exact .inl hresult.symm
  · have hnoted : noted = s.noteSync off ppb good bad := rfl
    refine .inr ⟨stepped, ?_, ?_⟩
    · rw [← hnoted]
      by_cases hmay : (noted.syncState = 0 && !noted.mediaRun) = true
      · exact .inr ⟨hstate.symm.trans (of_decide_eq_true (Bool.and_eq_true_iff.mp hmay).1), if_pos hmay⟩
      · exact .inl (if_neg hmay)
    · split at hresult
      · exact .inr hresult.symm
      · exact .inl hresult.symm

/-- The words that a usable Sync message writes without a step of local time, and with one. -/
def syncTeWord (k : Nat) : Bool := words [Reg.TE_PTP_OFFSET, Reg.TE_FREQ_ADJ, Reg.TE_SYNC_STATE_STATE, Reg.HGC_STATE_NOT_FIT] k
def syncWord (k : Nat) : Bool := words [Reg.TE_PTP_OFFSET, Reg.TE_FREQ_ADJ, Reg.TE_SYNC_STATE_STATE, Reg.HGC_STATE_NOT_FIT, Reg.TE_TICK,
  Reg.TE_OFFSET] k || settleWord k

theorem syncWord_of_syncTeWord {k : Nat} (h : syncTeWord k = true) : syncWord k = true := by
  rw [syncWord, words_mono (by simp) h]
  rfl

theorem syncWord_of_stepWord {k : Nat} (h : stepWord k = true) : syncWord k = true := by
  rw [stepWord, Bool.or_eq_true] at h
  rw [syncWord, Bool.or_eq_true]
  exact h.imp_left (words_mono (by simp))

/-- From `s` to `t` a Sync message with this offset and estimate has been taken. -/
structure SyncTaken (off ppb : Int) (s t : State) : Prop where
  offset : t.get Reg.TE_PTP_OFFSET = ofSigned 32 (clampInt (2 ^ 31 - 1) off)
  est : t.te.freqEst = ppb
  unstepped : s.syncState ≠ 0 → TeChange syncTeWord s t
  moves : TimeMoves syncWord s t

section
variable {off ppb : Int} {s t v : State} (hc : s.canon = true)
include hc

theorem syncTaken_noteSync (good : List Int) (bad : Nat) : SyncTaken off ppb s (s.noteSync off ppb good bad) := by
  have hchange : TeChange syncTeWord s (s.noteSync off ppb good bad) :=
    teChange_withTe (teChange_put (TeChange.refl s) (by decide) (.inl (by decide))) _
  refine ⟨?_, rfl, fun _ => hchange, hchange.timeMoves.mono fun _ => syncWord_of_syncTeWord⟩
  exact (get_put_same hc (by decide)).trans (Nat.mod_eq_of_lt (ofSigned_lt 32 _))

theorem SyncTaken.canon (h : SyncTaken off ppb s t) : t.canon = true := h.moves.within.canon hc

/-- The servo's own updates leave the offset and the estimate. -/
theorem SyncTaken.servo (h : SyncTaken off ppb s v) (g : TeChange servoWord v t) (hest : t.te.freqEst = v.te.freqEst) :
    SyncTaken off ppb s t := by
  have hmore : TeChange syncTeWord v t := g.mono fun _ => words_mono (by simp)
  exact ⟨(g.within.get_eq_low (h.canon hc) (by decide) (by decide)).trans h.offset, hest.trans h.est,
    fun hs => (h.unstepped hs).trans hmore, h.moves.trans (hmore.timeMoves.mono fun _ => syncWord_of_syncTeWord)⟩

theorem SyncTaken.mayStep (h : SyncTaken off ppb s v) (hacquiring : s.syncState = 0) : SyncTaken off ppb s (v.mayStep off) := by
  have hstep := timeMoves_mayStep v off
  refine ⟨?_, (by rw [mayStep_te]; exact h.est), fun hs => absurd hacquiring hs,
    h.moves.trans (hstep.mono fun _ => syncWord_of_stepWord)⟩
  rw [hstep.within.get_eq_low (h.canon hc) (by decide) (by decide)]
  exact h.offset

theorem SyncTaken.steer (h : SyncTaken off ppb s v) : SyncTaken off ppb s v.steer :=
  h.servo hc (teChange_steer (TeChange.refl v) fun _ => words_mono (by simp)) (by rw [steer_rest])

theorem SyncTaken.setSync (h : SyncTaken off ppb s v) (st : Nat) : SyncTaken off ppb s (v.setSync st) :=
  h.servo hc (teChange_setSync_from (TeChange.refl v) st (by decide) fun _ => words_mono (by simp)) (setSync_freqEst v st)

theorem syncTaken_usableSync (off ppb : Int) (hsync : s.syncState ≠ 4) : SyncTaken off ppb s (s.usableSync off ppb) := by
  obtain ⟨good, bad, hfault | ⟨v, hv, hlock⟩⟩ := usableSync_cases hc off ppb hsync
  · have hadj : TeChange servoWord (s.noteSync off ppb good bad) ((s.noteSync off ppb good bad).put Reg.TE_FREQ_ADJ (ofSigned 32 ppb)) :=
      teChange_put (TeChange.refl _) (by decide) (.inl (by decide))
    rw [hfault]
    exact ((syncTaken_noteSync hc good bad).servo hc hadj (by rw [State.put_te])).setSync hc 4
  · have hstepped : SyncTaken off ppb s v := by
      obtain rfl | ⟨hacquiring, rfl⟩ := hv
      · exact syncTaken_noteSync hc good bad
      · exact (syncTaken_noteSync hc good bad).mayStep hc hacquiring
    obtain h | h := hlock
    · rw [h]; exact hstepped.steer hc
    · rw [h]; exact (hstepped.steer hc).setSync hc 1

end

/-! ## What TE receives and sends (R65 to R67, R288) -/

/-- A usable Sync message of the selected grandmaster, in one step, on a port that takes part. -/
theorem exec_sync {s : State} {p : Fin 32} {m : PtpMsg} {g : Nat} (hport : s.ptpPort p = true)
    (htransport : transportOk (s.get Reg.TE_CFG_PROFILE) m.transport = true) (hdomain : m.domain.val = s.get Reg.TE_CFG_DOMAIN)
    (hone : m.twoStep = false) (hknown : m.unsupported = false) (hinterval : intervalOk m = true) (hwell : p.val ∉ s.te.faulty)
    (hlisted : s.gmIndex m.gmId.toNat = some g) (hgm : s.te.gm = some g) (hkind : m.kind = .sync) :
    exec (.ptpMessageReceived p m) s = ok (s.usableSync (s.offsetAt p m.offsetNs) m.ppb) := by
  simp [exec, execPtpMessageReceived, hport, htransport, hdomain, hone, hknown, hinterval, hwell, hlisted, hgm, hkind, otherMechanism]

theorem exec_ptpMessageSend {s u : State} {p : Fin 32} {kind : PtpKind} {l : Bytes} (hport : s.ptpPort p = true)
    (hwell : p.val ∉ s.te.faulty) (hsends : s.sendsPtp p kind = true) (hegu : s.running .egu = true) (hpaused : s.isPaused p 8 = false)
    (hstopped : s.pxc.txStopped = false)
    (hout : s.macsecOut p (Config.ptpFrame [p, PtpKind.code kind, s.get Reg.TE_CFG_PROFILE, s.ptpTransport p, s.get Reg.TE_CFG_DOMAIN,
      s.ptpTime p kind]) = (some l, u)) :
    exec (.ptpMessageSend p kind) s =
      ok (((((u.stampPtp p kind).emit (.ptp p kind l)).stat p 13 (l.length + 4)).stat p 14 1).statCast p 15 l) := by
  simp [exec, execPtpMessageSend, hport, hwell, hsends, hegu, hpaused, hstopped, hout]

theorem stampPtp_rest (u : State) (p : Nat) (kind : PtpKind) :
    u.stampPtp p kind = { u with free := (u.stampPtp p kind).free, te := { u.te with sent := (u.stampPtp p kind).te.sent } } := by
  cases kind <;> rfl

/-- A timestamp is off by 4 ns at most, in units of 2^-16 ns (R288). -/
theorem stampNow_bounds (u : State) : u.stampNow.1 ≤ 65536 * u.localNs + 262144 ∧ 65536 * u.localNs ≤ u.stampNow.1 + 262144 := by
  have hstamp : u.stampNow.1 =
      Int.toNat ((65536 * u.localNs : Nat) + (Config.freeValue u.free % 524289 : Nat) - 262144 : Int) := rfl
  have herror : Config.freeValue u.free % 524289 < 524289 := Nat.mod_lt _ (by decide)
  rw [hstamp]
  omega

theorem sent_stampPtp_sync (u : State) (p : Nat) : Assoc.get? (u.stampPtp p .sync).te.sent (16 * p) = some u.stampNow.1 :=
  Assoc.get?_set_same ..

theorem words_key {l : List Field} {f : Field} (h : f ∈ l) : words l f.key = true :=
  List.any_eq_true.mpr ⟨f, h, by simp⟩

theorem words_high {l : List Field} {f : Field} (h : f ∈ l) (hwide : 32 ≤ f.hi) : words l (f.key + 4) = true :=
  List.any_eq_true.mpr ⟨f, h, by simp [hwide]⟩

section
variable {l : List Field} {s₀ s : State} {p i : Nat} (h : Writes (words l) s₀ s)
include h

theorem writes_stat (hmem : statField p i ∈ l) (n : Nat) : Writes (words l) s₀ (s.stat p i n) :=
  writes_put h (words_key hmem) (.inr (words_high hmem (show 32 ≤ 63 by decide)))

theorem writes_statCast (hmulti : statField p i ∈ l) (hbroad : statField p (i + 1) ∈ l) (frame : Bytes) :
    Writes (words l) s₀ (s.statCast p i frame) := by
  unfold State.statCast
  exact writes_ite (writes_stat h hbroad 1) (writes_ite (writes_stat h hmulti 1) h)

end

/-- The counters of a frame sent. -/
theorem writes_sentStats (s : State) (p n : Nat) (frame : Bytes) :
    Writes (words [statField p 13, statField p 14, statField p 15, statField p 16]) s
      (((s.stat p 13 n).stat p 14 1).statCast p 15 frame) :=
  writes_statCast (writes_stat (writes_stat (Writes.refl s) (by simp) n) (by simp) 1) (by simp) (by simp) frame

/-- A PTP message that goes out, its stamp and its counters. -/
theorem ptpMessageSend_frame {s u : State} (hc : u.canon = true) {p : Fin 32} {kind : PtpKind} {l : Bytes}
    (hexec : exec (.ptpMessageSend p kind) s =
      ok (((((u.stampPtp p kind).emit (.ptp p kind l)).stat p 13 (l.length + 4)).stat p 14 1).statCast p 15 l)) :
    completes (.ptpMessageSend p kind) s fun t => t.out = .ptp p kind l :: u.out ∧
      (kind = .sync → ∃ v, Assoc.get? t.te.sent (16 * p) = some v ∧ v ≤ 65536 * u.localNs + 262144 ∧
        65536 * u.localNs ≤ v + 262144) ∧
      QuietFrame (words [statField p 13, statField p 14, statField p 15, statField p 16]) u
        { u with out := t.out, free := t.free, te := { u.te with sent := t.te.sent } } t := by
  have hstamp := stampPtp_rest u p kind
  have hcounted := writes_sentStats ((u.stampPtp p kind).emit (.ptp p kind l)) p (l.length + 4) l
  have hrest := hcounted.rest
  refine ⟨_, hexec, ?_, ?_, quietFrame hc (Within.trans (within_same (Within.refl u) ?_ ?_ ?_) hcounted.within) ?_⟩
  · rw [hrest, hstamp]
    rfl
  · rintro rfl
    exact ⟨u.stampNow.1, by rw [hrest]; exact sent_stampPtp_sync u p, stampNow_bounds u⟩
  · rw [hstamp]; rfl
  · rw [hstamp]; rfl
  · rw [hstamp]; rfl
  · rw [hrest, hstamp]
    rfl

/-! ## The media start (R68, R82) -/

/-- MEDIA_RUN set and RESTEP cleared. -/
def State.mediaStarted (s : State) : State := (s.put Reg.TE_SYNC_STATE_MEDIA_RUN 1).put Reg.TE_CTL_RESTEP 0

theorem writes_mediaStarted (s : State) : Writes (words [Reg.TE_SYNC_STATE_MEDIA_RUN, Reg.TE_CTL_RESTEP]) s s.mediaStarted :=
  writes_put (writes_put (Writes.refl s) (by decide) (.inl (by decide))) (by decide) (.inl (by decide))

/-- The image's changes and flows take the tick. -/
def TeState.startAt (x : TeState) (n : Nat) : TeState :=
  { x with changes := x.changes.map fun c => { c with tick := some (c.tick.getD n) }
           since := x.since.map fun y => (y.1, y.2.1, min y.2.2 n) }

theorem exec_mediaStart {s : State} (hlocked : s.te.wasLocked = true ∨ s.syncState = 1) (hidle : s.mediaRun = false) :
    exec .mediaStart s = ok { s.mediaStarted with te := s.mediaStarted.te.startAt s.mediaStarted.tick } := by
  have hstart : ((s.te.wasLocked || decide (s.syncState = 1)) && !s.mediaRun) = true := by
    simpa [hidle] using hlocked
  exact if_pos hstart

theorem mediaStart_completes {s : State} (hc : s.canon = true) (hlocked : s.te.wasLocked = true ∨ s.syncState = 1)
    (hidle : s.mediaRun = false) : completes .mediaStart s fun t => t.mediaRun = true ∧ t.get Reg.TE_CTL_RESTEP = 0 ∧
      t.te.changes.all (fun c => c.tick.isSome) = true ∧ t.te.changes.length = s.te.changes.length ∧
      t.te.since = s.te.since.map (fun x => (x.1, x.2.1, min x.2.2 s.tick)) ∧
      QuietFrame (words [Reg.TE_SYNC_STATE_MEDIA_RUN, Reg.TE_CTL_RESTEP]) s
        { s with te := { s.te with changes := t.te.changes, since := t.te.since } } t := by
  have hput : (s.put Reg.TE_SYNC_STATE_MEDIA_RUN 1).canon = true := canon_put hc
  have hstarted := writes_mediaStarted s
  have htick : s.mediaStarted.tick = s.tick := hstarted.get_eq hc (by decide) (by decide)
  have hte : s.mediaStarted.te = s.te := by rw [hstarted.rest]
  refine ⟨_, exec_mediaStart hlocked hidle, ?run, ?restep, ?changes, ?length, ?since,
    quietFrame hc (within_same hstarted.within rfl rfl rfl) ?rest⟩
  case run =>
    exact (flag_put_off hput (by decide)).trans (flag_put_same hc (by decide) (by decide) 1)
  case restep => exact get_put_same hput (by decide)
  case changes => simp [TeState.startAt]
  case length => simp [TeState.startAt, hte]
  case since => simp [TeState.startAt, hte, htick]
  case rest =>
    rw [hstarted.rest]
    rfl

theorem restep_completes {s : State} (hc : s.canon = true) (r : Requester) (hmay : s.mayWrite r Reg.TE_CTL_RESTEP.key = true)
    (hsync : s.syncState = 4) (hlease : s.holdsLease = false) : completes (.restep r) s fun t =>
      t.flag Reg.TE_CTL_RESTEP = true ∧ QuietFrame (words [Reg.TE_CTL_RESTEP]) s s t := by
  have hset : Writes (words [Reg.TE_CTL_RESTEP]) s (s.put Reg.TE_CTL_RESTEP 1) :=
    writes_put (Writes.refl s) (by decide) (.inl (by decide))
  refine ⟨s.put Reg.TE_CTL_RESTEP 1, ?_, flag_put_same hc (by decide) (by decide) 1, quietFrame hc hset.within hset.rest⟩
  simp only [exec, execRestep, hmay, hsync, hlease, Bool.not_true, Bool.not_false, Bool.false_eq_true, decide_true, Bool.and_self,
    if_true, if_false]

/-! ## RESTEP (R69) -/

theorem crossMedia_rest (s : State) : s.crossMedia = { s with fpu := s.crossMedia.fpu } := by
  have hgiven : ∀ (l : List (Nat × Desc)) (u : State), u = { s with fpu := u.fpu } →
      l.foldl (fun s x => s.giveCredit x.2.pipe x.1) u = { s with fpu := (l.foldl (fun s x => s.giveCredit x.2.pipe x.1) u).fpu } := by
    intro l
    induction l with
    | nil => exact fun u hu => hu
    | cons x l ih => exact fun u hu => ih _ (by rw [hu]; rfl)
  unfold State.crossMedia
  dsimp only
  rw [hgiven _ s rfl]

/-- Without copies or flows under way, what crosses the fabric is all that a drop of media ends. -/
theorem dropMedia_idle {s : State} (hflows : s.media.flows = []) (hcopies : s.media.copies = []) :
    s.dropMedia = { s with fpu := s.dropMedia.fpu } := by
  have hmedia : s.crossMedia.media = s.media := by rw [crossMedia_rest]
  have hempty : ({ s.media with copies := [], flows := [] } : MediaState) = s.media := by rw [← hflows, ← hcopies]
  unfold State.dropMedia
  simp only [hmedia, hflows, hcopies, List.flatMap_nil, List.filter_nil, List.foldl_nil, List.map_nil, hempty]
  rw [crossMedia_rest]

/-- MEDIA_RUN cleared and local time stepped. -/
def State.mediaStopped (s : State) (tick o : Nat) : State := (s.put Reg.TE_SYNC_STATE_MEDIA_RUN 0).stepTime tick (o % s.period)

/-- Everything received or formed is dropped, and TE is to acquire time anew. -/
def State.acquireAnew (s : State) : State :=
  { s.dropMedia with te := { s.dropMedia.te with goodFreqs := [], badRun := 0, wasLocked := false } }

theorem exec_restepStep {s : State} {tick : Fin 281474976710656} {o : Nat} (hrestep : s.flag Reg.TE_CTL_RESTEP = true)
    (hrun : s.mediaRun = true) : exec (.restepStep tick o) s = ok ((s.mediaStopped tick o).acquireAnew.setSync 0) := by
  have hboth : (s.flag Reg.TE_CTL_RESTEP && s.mediaRun) = true := by rw [hrestep, hrun, Bool.and_self]
  change execRestepStep tick o s = _
  unfold execRestepStep State.acquireAnew State.mediaStopped
  rw [if_pos hboth]

theorem acquireAnew_rest {s : State} (hflows : s.media.flows = []) (hcopies : s.media.copies = []) :
    s.acquireAnew = { s with fpu := s.acquireAnew.fpu, te := { s.te with goodFreqs := [], badRun := 0, wasLocked := false } } := by
  unfold State.acquireAnew
  rw [dropMedia_idle hflows hcopies]

/-- To ACQUIRING no event belongs. -/
theorem writes_setSync_zero (s : State) : Writes (words [Reg.TE_SYNC_STATE_STATE, Reg.HGC_STATE_NOT_FIT]) s (s.setSync 0) :=
  (writes_put (Writes.refl s) (by decide) (.inl (by decide))).trans ((writes_refreshTime _).mono fun _ => words_mono (by simp))

theorem mediaStopped_media (s : State) (tick o : Nat) : (s.mediaStopped tick o).media = s.media := by
  rw [State.mediaStopped, stepTime_rest, put_rest]
  rfl

theorem mediaStopped_te (s : State) (tick o : Nat) : (s.mediaStopped tick o).te = s.te := by
  rw [State.mediaStopped, stepTime_te, State.put_te]

theorem mediaStopped_rest (s : State) (tick o : Nat) :
    s.mediaStopped tick o = { timeStepped s (s.mediaStopped tick o) with regs := (s.mediaStopped tick o).regs } := by
  unfold State.mediaStopped
  rw [stepTime_rest, put_rest]
  rfl

theorem within_mediaStopped (s : State) (tick o : Nat) :
    Within (fun k => words [Reg.TE_SYNC_STATE_MEDIA_RUN] k || stepWord k) s (s.mediaStopped tick o) :=
  (within_put (Within.refl s) (by decide) (.inl (by decide))).trans ((within_stepTime _ tick _).mono fun k hk => by rw [hk, Bool.or_true])

/-- The words that RESTEP_STEP writes. -/
def restepWord (k : Nat) : Bool := words [Reg.TE_SYNC_STATE_STATE, Reg.TE_TICK, Reg.TE_OFFSET, Reg.HGC_STATE_NOT_FIT] k || settleWord k

/-- A state that comes of another by a step of local time, and then by a change of FPU, TE and registers alone. -/
theorem timeStepped_rest {s b d t : State} (hb : b = { timeStepped s b with regs := b.regs })
    (hd : d = { b with fpu := d.fpu, te := d.te }) (ht : t = { d with regs := t.regs }) :
    t = { timeStepped s t with fpu := t.fpu, regs := t.regs } := by
  rw [ht, hd, hb]
  rfl

theorem restepStep_completes {s : State} (hc : s.canon = true) (tick : Fin 281474976710656) (o : Nat)
    (hrestep : s.flag Reg.TE_CTL_RESTEP = true) (hrun : s.mediaRun = true) (hflows : s.media.flows = [])
    (hcopies : s.media.copies = []) : completes (.restepStep tick o) s fun t => t.tick = tick.val ∧ t.offset = o % s.period ∧
      t.mediaRun = false ∧ t.syncState = 0 ∧ t.te = { s.te with goodFreqs := [], badRun := 0, wasLocked := false } ∧
      QuietFrame restepWord s { timeStepped s t with fpu := t.fpu } t := by
  have hput : (s.put Reg.TE_SYNC_STATE_MEDIA_RUN 0).canon = true := canon_put hc
  have hstopped := within_mediaStopped s tick o
  have hc₁ : (s.mediaStopped tick o).canon = true := hstopped.canon hc
  have hmedia := mediaStopped_media s tick o
  have hanew := acquireAnew_rest (s := s.mediaStopped tick o) (by rw [hmedia, hflows]) (by rw [hmedia, hcopies])
  have hkept : Within (fun _ => false) (s.mediaStopped tick o) (s.mediaStopped tick o).acquireAnew :=
    within_same (Within.refl _) (by rw [hanew]) (by rw [hanew]) (by rw [hanew])
  have hfinal := writes_setSync_zero (s.mediaStopped tick o).acquireAnew
  have hstopped' : Within restepWord s (s.mediaStopped tick o) := hstopped.mono fun k hk => by
    rw [stepWord, Bool.or_eq_true, Bool.or_eq_true] at hk
    rw [restepWord, Bool.or_eq_true]
    exact hk.elim (fun h => .inl (words_mono (l := [Reg.TE_SYNC_STATE_STATE]) (by simp) h)) fun h => h.imp_left (words_mono (by simp))
  have hkept' : Within restepWord _ _ := hkept.mono fun _ h => nomatch h
  have hfinal' := hfinal.within.mono (more := restepWord) fun k hk => by rw [restepWord, words_mono (by simp) hk]; rfl
  have hc₂ : (s.mediaStopped tick o).acquireAnew.canon = true := hkept.canon hc₁
  refine ⟨_, exec_restepStep hrestep hrun, ?tick, ?offset, ?run, ?state, ?te, ?frame⟩
  case tick =>
    have htick : (s.mediaStopped tick o).tick = tick.val := (tick_stepTime hput _ _).trans (Nat.mod_eq_of_lt tick.isLt)
    exact ((hfinal.get_eq hc₂ (by decide) (by decide)).trans (hkept.get_eq hc₁ rfl rfl)).trans htick
  case offset =>
    have hoffset : (s.mediaStopped tick o).offset = o % s.period :=
      (offset_stepTime hput _ _).trans (Nat.mod_eq_of_lt (mod_period_lt s o))
    exact ((hfinal.get_eq hc₂ (by decide) (by decide)).trans (hkept.get_eq hc₁ rfl rfl)).trans hoffset
  case run =>
    have hrun : (s.put Reg.TE_SYNC_STATE_MEDIA_RUN 0).flag Reg.TE_SYNC_STATE_MEDIA_RUN = false := flag_put_same hc (by decide) (by decide) 0
    rw [State.mediaRun, State.flag, get_setSync hc₂ 0 (by decide) (by decide) (by decide), hkept.get_eq hc₁ rfl rfl,
      State.mediaStopped, (within_stepTime _ _ _).get_eq hput (by decide) (by decide)]
    exact hrun
  case state => exact syncState_setSync hc₂ 0
  case te => rw [hfinal.rest, hanew, mediaStopped_te]
  case frame =>
    refine quietFrame hc (hstopped'.trans (hkept'.trans hfinal')) (timeStepped_rest (mediaStopped_rest s tick o) ?_ hfinal.rest)
    rw [hanew]

/-- Settles O2: clause by clause; what a usable Sync message does is the sum of what the servo's steps may do. -/
theorem timeCommandsComplete : Obligations.TimeCommandsComplete := by
  intro s hc
  refine ⟨?sync, ?send, ?clear, ?start, ?restep, ?step⟩
  case sync =>
    intro p m g hport htransport hdomain hone hknown hinterval hwell hlisted hgm hkind hsync
    have htaken := syncTaken_usableSync hc (s.offsetAt p m.offsetNs) m.ppb hsync
    exact ⟨_, exec_sync hport htransport hdomain hone hknown hinterval hwell hlisted hgm hkind, htaken.offset, htaken.est,
      fun hacquired => (htaken.unstepped hacquired).noisyFrame hc, noisyFrame hc htaken.moves.within htaken.moves.rest⟩
  case send =>
    intro p kind l u hport hwell hsends hegu hpaused hstopped hout
    have hc₁ : u.canon = true := (keeps_macsecOut_eq hout (Keeps.refl s)).canon hc
    exact ptpMessageSend_frame hc₁ (exec_ptpMessageSend hport hwell hsends hegu hpaused hstopped hout)
  case clear =>
    intro p
    refine ⟨_, rfl, ?_, fun q hq => ?_, rfl⟩
    · simp
    · simp [hq]
  case start => exact mediaStart_completes hc
  case restep => exact restep_completes hc
  case step => exact restepStep_completes hc

end Sys2Proof.Machine
end

section
/-! PROOFS. The topiary's commands (R77 to R81, R176): what an admission and a removal book, and how each command ends. -/

namespace Sys2Proof.Machine

/-! ## An admission command's end (R77, R81) -/

/-- Fields of one word each, all inside the area. -/
theorem writes_puts {area : Nat → Bool} {s₀ s : State} {l : List (Field × Nat)} (h : Writes area s₀ s)
    (hl : l.all (fun p => area p.1.key && decide (p.1.hi < 32)) = true) : Writes area s₀ (s.puts l) := by
  simp only [List.all_eq_true, Bool.and_eq_true, decide_eq_true_eq] at hl
  exact writes_foldl h fun t p hp ht => writes_put ht (hl p hp).1 (.inl (hl p hp).2)

/-- RESULT, ROW and BUSY as an admission command ends. -/
def State.admitStatus (s : State) (code row : Nat) : State :=
  s.puts [(Reg.TE_ADMIT_STATUS_RESULT, code), (Reg.TE_ADMIT_STATUS_ROW, row), (Reg.TE_ADMIT_STATUS_BUSY, 0)]

theorem admitDone_eq (s : State) (code row id : Nat) :
    s.admitDone code row id = (s.admitStatus code row).raise .te 7 [(8, code), (8, row), (16, id)] := rfl

/-- The word of RESULT holds ROW and BUSY as well. -/
theorem writes_admitStatus (s : State) (code row : Nat) : Writes (words [Reg.TE_ADMIT_STATUS_RESULT]) s (s.admitStatus code row) :=
  writes_puts (Writes.refl s) rfl

theorem teChange_admitDone (s : State) (code row id : Nat) :
    TeChange (words [Reg.TE_ADMIT_STATUS_RESULT]) s (s.admitDone code row id) := by
  rw [admitDone_eq]
  exact teChange_raise (writes_admitStatus s code row).teChange

theorem admitDone_te (s : State) (code row id : Nat) : (s.admitDone code row id).te = s.te := by
  rw [admitDone_eq, State.raise_te, (writes_admitStatus s code row).rest]

theorem admitDone_free (s : State) (code row id : Nat) : (s.admitDone code row id).free = s.free := by
  rw [admitDone_eq, State.raise_free, (writes_admitStatus s code row).rest]

theorem posted_admitDone {s₀ s : State} (hevents : s.events = s₀.events) (code row id : Nat) :
    posted s₀ (s.admitDone code row id) .te 7 [(8, code), (8, row), (16, id)] := by
  rw [admitDone_eq]
  exact posted_raise (by rw [(writes_admitStatus s code row).rest, hevents]) _ _ _

/-- The event changes no field but QE's count of what was lost. -/
theorem get_admitDone {s : State} (hc : s.canon = true) (code row id : Nat) {f : Field} (hword : f.hi < 32)
    (hlost : words [Reg.QE_ARB_LOST] f.key = false) : (s.admitDone code row id).get f = (s.admitStatus code row).get f := by
  rw [admitDone_eq]
  have hraised := teChange_raise (u := .te) (type := 7) (l := [(8, code), (8, row), (16, id)])
    (TeChange.refl (area := fun _ => false) (s.admitStatus code row))
  exact hraised.within.get_eq_low ((writes_admitStatus s code row).canon hc) hword (by rw [hlost]; rfl)

theorem result_admitDone {s : State} (hc : s.canon = true) (code row id : Nat) :
    (s.admitDone code row id).get Reg.TE_ADMIT_STATUS_RESULT = code % 16 := by
  rw [get_admitDone hc code row id (by decide) (by decide)]
  exact get_puts_last hc [] (by decide) (by simp only [List.all_cons, List.all_nil]; decide)

theorem row_admitDone {s : State} (hc : s.canon = true) (code row id : Nat) :
    (s.admitDone code row id).get Reg.TE_ADMIT_STATUS_ROW = row % 256 := by
  rw [get_admitDone hc code row id (by decide) (by decide)]
  exact get_puts_last hc [(Reg.TE_ADMIT_STATUS_RESULT, code)] (by decide) (by simp only [List.all_cons, List.all_nil]; decide)

/-! ## CHECK (R78) -/

theorem exec_checkFlow_fail {s : State} {r : Requester} {id : Fin 65536} {code row : Nat} (hmay : s.mayAdmit r = true)
    (hcheck : s.admitCheck false id (s.get Reg.TE_ADMIT_TICK) = .fail code row) :
    exec (.checkFlow r id) s = ok (s.admitDone code row id) := by
  simp only [exec, execCheckFlow, hmay, hcheck, if_true]

theorem exec_checkFlow_ok {s : State} {r : Requester} {id : Fin 65536} {t : Nat} {b : Booking} (hmay : s.mayAdmit r = true)
    (hcheck : s.admitCheck false id (s.get Reg.TE_ADMIT_TICK) = .ok t b) :
    exec (.checkFlow r id) s = ok (s.admitDone 0 0 id) := by
  simp only [exec, execCheckFlow, hmay, hcheck, if_true]

/-- A command that ends at once leaves the rest of the state. -/
theorem noisyFrame_admitDone {s : State} (hc : s.canon = true) (code row id : Nat) :
    NoisyFrame (words [Reg.TE_ADMIT_STATUS_RESULT]) s s (s.admitDone code row id) :=
  (teChange_admitDone s code row id).noisyFrame_self hc (admitDone_free ..) (admitDone_te ..)

/-! ## Booking an admission (R78, R165, R364) -/

/-- Updates of registers alone, wherever they stand. -/
def anyWord (_ : Nat) : Bool := true

theorem writesAny_put {s₀ s : State} (h : Writes anyWord s₀ s) (f : Field) (v : Nat) : Writes anyWord s₀ (s.put f v) :=
  writes_put h rfl (.inr rfl)

theorem writes_when {area : Nat → Bool} {s₀ s : State} {b : Bool} {f : State → State} (h : Writes area s₀ s)
    (hf : Writes area s₀ (f s)) : Writes area s₀ (s.when b f) := writes_ite hf h

section
variable {s₀ s : State} (h : Writes anyWord s₀ s)
include h

theorem writes_bookRows (l : List (Nat × Nat)) : Writes anyWord s₀ (s.bookRows l) :=
  writes_foldl h fun _ _ _ hs => writesAny_put hs _ _

theorem writes_unbookRows (l : List (Nat × Nat)) : Writes anyWord s₀ (s.unbookRows l) :=
  writes_foldl h fun _ _ _ hs => writesAny_put hs _ _

theorem writes_takePools (l : List (Nat × Nat × Nat)) : Writes anyWord s₀ (s.takePools l) :=
  writes_foldl h fun _ _ _ hs => writesAny_put hs _ _

theorem writes_givePools (l : List (Nat × Nat × Nat)) : Writes anyWord s₀ (s.givePools l) :=
  writes_foldl h fun _ _ _ hs => writesAny_put hs _ _

theorem writes_markDown (isPoint : Bool) (id : Nat) (down : Bool) : Writes anyWord s₀ (s.markDown isPoint id down) :=
  writes_ite (writesAny_put (writesAny_put h _ _) _ _) (writesAny_put h _ _)

theorem writes_mediaRefs (f : Nat) (up : Bool) : Writes anyWord s₀ (s.mediaRefs f up) := by
  unfold State.mediaRefs
  dsimp only
  refine writes_foldl (writes_ite (writes_wr (writesAny_put h _ _) rfl) h) fun t g _ ht => ?_
  exact writes_ite ht (writesAny_put ht _ _)

end

/-- The flow that a change of a flow or point moves. -/
def State.changedFlow (s : State) (isPoint : Bool) (id : Nat) : Nat := if isPoint then s.get (Reg.POINT_OUT_FLOW id) else id

/-- The bookings of an admission enter the registers. -/
def State.bookAdd (s : State) (isPoint : Bool) (id f : Nat) (b : Booking) : State :=
  ((((s.bookRows b.rows).mediaRefs f true).takePools b.pools).markDown isPoint id false).when isPoint
    fun s => s.put (Reg.POINT_PENDING id) 1

/-- SPK and CLASS of the guard map's entry (R186). -/
def State.copyClass (s : State) (f : Nat) : State :=
  (s.put (Reg.FLOW_SPK f) (bits (s.guardMap f) 31 1)).put (Reg.FLOW_CLASS f) (bits (s.guardMap f) 29 2)

/-- TE's own state is set. -/
def State.withTe (s : State) (x : TeState) : State := { s with te := x }

section
variable (s : State) (x : TeState)

theorem withTe_events : (s.withTe x).events = s.events := rfl
theorem withTe_free : (s.withTe x).free = s.free := rfl
theorem withTe_te : (s.withTe x).te = x := rfl
theorem withTe_canon : (s.withTe x).canon = s.canon := rfl
theorem withTe_get (f : Field) : (s.withTe x).get f = s.get f := rfl
theorem withTe_flag (f : Field) : (s.withTe x).flag f = s.flag f := rfl

end

/-- A pending change is noted, and the booking of an addition. -/
def TeState.noteChange (x : TeState) (c : Change) : TeState := { x with changes := x.changes ++ [c] }
def TeState.noteBooking (x : TeState) (b : Booking) : TeState := { x with books := x.books ++ [b] }

/-- The registers of an admission, PENDING included. -/
def State.placeFlow (s : State) (isPoint : Bool) (id : Nat) (b : Booking) : State :=
  ((s.bookAdd isPoint id (s.changedFlow isPoint id) b).copyClass (s.changedFlow isPoint id)).put
    (Reg.FLOW_PENDING (s.changedFlow isPoint id)) 1

theorem scheduleAdd_eq (s : State) (isPoint : Bool) (id : Nat) (tick : Option Nat) (b : Booking) :
    s.scheduleAdd isPoint id tick b =
      (s.placeFlow isPoint id b).withTe (((s.placeFlow isPoint id b).te.noteBooking b).noteChange ⟨isPoint, id, true, tick⟩) := rfl

theorem writes_copiedClass (s : State) (isPoint : Bool) (id f : Nat) (b : Booking) :
    Writes anyWord s ((s.bookAdd isPoint id f b).copyClass f) := by
  have hmarked := writes_markDown (writes_takePools (writes_mediaRefs (writes_bookRows (Writes.refl s) b.rows) f true) b.pools)
    isPoint id false
  exact writesAny_put (writesAny_put (writes_when hmarked (writesAny_put hmarked _ _)) _ _) _ _

/-! ## A command that the link may carry (R318) -/

theorem carry_rest (s : State) (tick : Nat) (op : CarriedOp) :
    s.carry tick op = { s with regs := (s.carry tick op).regs, hgc := (s.carry tick op).hgc, out := (s.carry tick op).out } := by
  unfold State.carry
  split
  · unfold State.noteSent State.sendLink State.emit
    dsimp only
    rw [put_rest]
  · rfl

theorem within_carry (s : State) (tick : Nat) (op : CarriedOp) : Within (words [Reg.HGC_CMD_SEQ]) s (s.carry tick op) := by
  unfold State.carry
  dsimp only
  exact within_ite (within_same (within_put (Within.refl s) (by decide) (.inl (by decide))) rfl rfl rfl) (Within.refl s)

theorem carry_alone {s : State} (h : s.pairRole = false) (tick : Nat) (op : CarriedOp) : s.carry tick op = s := by
  rw [State.carry, h]
  rfl

theorem localOnly_alone {s : State} (h : s.pairRole = false) (run : State → State) : s.localOnly run = run s := by
  rw [State.localOnly, h]
  rfl

/-! ## Acceptance (R77, R78, R80) -/

/-- A flow's PENDING stands in the flow table, whatever the flow. -/
theorem flowPending_ok (f : Nat) : (Reg.FLOW_PENDING f).ok = true := by
  simp [Field.ok]
  omega

theorem pointPending_ok (p : Nat) : (Reg.POINT_PENDING p).ok = true := by
  simp [Field.ok]
  omega

/-- The point table stands above the flow table. -/
theorem pointPending_off_flowPending {p f : Nat} (h : f < 2 ^ 16) : (Reg.POINT_PENDING p).off (Reg.FLOW_PENDING f) = true := by
  rw [Field.off, pointPending_ok, flowPending_ok]
  simp [Field.at, Field.width]
  omega

/-- An accepted command: TE_ADMIT_TICK takes the effective tick, the link carries the command, and it ends with RESULT 0. -/
def State.acceptAdmission (s : State) (id t : Nat) (op : CarriedOp) : State := ((s.put Reg.TE_ADMIT_TICK t).carry t op).admitDone 0 0 id

theorem words_false_mono {l m : List Field} (h : l ⊆ m) {k : Nat} (hk : words m k = false) : words l k = false := by
  cases hl : words l k with
  | false => rfl
  | true => rw [words_mono h hl] at hk; cases hk

/-- The words that an acceptance writes. -/
def acceptWord (k : Nat) : Bool := words [Reg.TE_ADMIT_TICK, Reg.HGC_CMD_SEQ, Reg.TE_ADMIT_STATUS_RESULT, Reg.QE_ARB_LOST] k

section
variable (s : State) (id t : Nat) (op : CarriedOp)

theorem acceptAdmission_te : (s.acceptAdmission id t op).te = s.te := by
  rw [State.acceptAdmission, admitDone_te, carry_rest]
  exact State.put_te ..

theorem posted_acceptAdmission {s₀ : State} (hevents : s.events = s₀.events) :
    posted s₀ (s.acceptAdmission id t op) .te 7 [(8, 0), (8, 0), (16, id)] :=
  posted_admitDone (by rw [carry_rest]; exact (State.put_events ..).trans hevents) _ _ _

section
variable {s} (hc : s.canon = true)
include hc

theorem canon_carried : ((s.put Reg.TE_ADMIT_TICK t).carry t op).canon = true := (within_carry _ t op).canon (canon_put hc)

theorem result_acceptAdmission : (s.acceptAdmission id t op).get Reg.TE_ADMIT_STATUS_RESULT = 0 :=
  result_admitDone (canon_carried t op hc) 0 0 id

theorem admitTick_acceptAdmission : (s.acceptAdmission id t op).get Reg.TE_ADMIT_TICK = t % 2 ^ 48 := by
  rw [State.acceptAdmission, (teChange_admitDone _ 0 0 id).get_eq (canon_carried t op hc) (by decide) (by decide),
    (within_carry _ t op).get_eq (canon_put hc) (by decide) (by decide), get_put_same hc (by decide)]
  rfl

/-- A field of one word that acceptance does not write. -/
theorem get_acceptAdmission {f : Field} (hword : f.hi < 32) (hkey : acceptWord f.key = false) :
    (s.acceptAdmission id t op).get f = s.get f := by
  have hdone : words [Reg.TE_ADMIT_STATUS_RESULT, Reg.QE_ARB_LOST] f.key = false := words_false_mono (by simp) hkey
  calc (s.acceptAdmission id t op).get f
      = ((s.put Reg.TE_ADMIT_TICK t).carry t op).get f :=
        (teChange_admitDone _ 0 0 id).within.get_eq_low (canon_carried t op hc) hword
          (Bool.or_eq_false_iff.mpr ⟨words_false_mono (by simp) hdone, words_false_mono (by simp) hdone⟩)
    _ = (s.put Reg.TE_ADMIT_TICK t).get f :=
        (within_carry _ t op).get_eq_low (canon_put hc) hword (words_false_mono (by simp) hkey)
    _ = s.get f := (writes_put (area := words [Reg.TE_ADMIT_TICK]) (Writes.refl s) (by decide) (.inr (by decide))).within.get_eq_low hc
        hword (words_false_mono (by simp) hkey)

theorem flowPending_acceptAdmission (f : Nat) :
    (s.acceptAdmission id t op).flag (Reg.FLOW_PENDING f) = s.flag (Reg.FLOW_PENDING f) :=
  flag_congr (get_acceptAdmission id t op hc (show 30 < 32 by decide) (by simp [acceptWord, words]; omega))

theorem pointPending_acceptAdmission (p : Nat) :
    (s.acceptAdmission id t op).flag (Reg.POINT_PENDING p) = s.flag (Reg.POINT_PENDING p) :=
  flag_congr (get_acceptAdmission id t op hc (show 30 < 32 by decide) (by simp [acceptWord, words]; omega))

end
end

/-! ## ADD_FLOW and ADD_POINT (R78, R176) -/

theorem admitOne_ok {s : State} {isPoint : Bool} {id t : Nat} {b : Booking}
    (hcheck : s.admitCheck isPoint id (s.get Reg.TE_ADMIT_TICK) = .ok t b) :
    s.admitOne isPoint id = (s.scheduleAdd isPoint id (some t) b).acceptAdmission id t (.admission isPoint id) := by
  rw [State.admitOne, hcheck]
  rfl

/-- An admission that passes its check: PENDING, the booking and the change are noted, and the command ends. -/
theorem admitOne_completes {s : State} (hc : s.canon = true) {isPoint : Bool} {id t : Nat} {b : Booking}
    (hcheck : s.admitCheck isPoint id (s.get Reg.TE_ADMIT_TICK) = .ok t b) :
    (s.admitOne isPoint id).flag (Reg.FLOW_PENDING (s.changedFlow isPoint id)) = true ∧
      (s.admitOne isPoint id).te.changes = s.te.changes ++ [⟨isPoint, id, true, some t⟩] ∧
      (s.admitOne isPoint id).te.books = s.te.books ++ [b] ∧ (s.admitOne isPoint id).get Reg.TE_ADMIT_STATUS_RESULT = 0 ∧
      (s.admitOne isPoint id).get Reg.TE_ADMIT_TICK = t % 2 ^ 48 ∧
      posted s (s.admitOne isPoint id) .te 7 [(8, 0), (8, 0), (16, id)] := by
  have hbooked := writes_copiedClass s isPoint id (s.changedFlow isPoint id) b
  have hplaced : Writes anyWord s (s.placeFlow isPoint id b) := writesAny_put hbooked _ 1
  have hadded := scheduleAdd_eq s isPoint id (some t) b
  have hc₁ : (s.scheduleAdd isPoint id (some t) b).canon = true := by
    rw [hadded, withTe_canon, hplaced.canon hc]
  have hevents : (s.scheduleAdd isPoint id (some t) b).events = s.events := by
    rw [hadded, withTe_events, hplaced.rest]
  have hte : (s.scheduleAdd isPoint id (some t) b).te = (s.te.noteBooking b).noteChange ⟨isPoint, id, true, some t⟩ := by
    rw [hadded, withTe_te, hplaced.rest]
  have hflag : (s.scheduleAdd isPoint id (some t) b).flag (Reg.FLOW_PENDING (s.changedFlow isPoint id)) = true := by
    rw [hadded, withTe_flag, State.placeFlow, flag_put_same (hbooked.canon hc) (flowPending_ok _) rfl 1]
    rfl
  rw [admitOne_ok hcheck, acceptAdmission_te, hte]
  exact ⟨(flowPending_acceptAdmission id t _ hc₁ _).trans hflag, rfl, rfl, result_acceptAdmission id t _ hc₁,
    admitTick_acceptAdmission id t _ hc₁, posted_acceptAdmission _ id t _ hevents⟩

/-! ## REMOVE_FLOW and REMOVE_POINT (R80) -/

theorem pairRole_congr {s t : State} (h : t.get Reg.HGC_CFG_ROLE = s.get Reg.HGC_CFG_ROLE) : t.pairRole = s.pairRole := by
  rw [State.pairRole, State.pairRole, h]

/-- Outside a pair nothing is carried. -/
theorem acceptAdmission_alone {s : State} (hc : s.canon = true) (hpair : s.pairRole = false) (id t : Nat) (op : CarriedOp) :
    s.acceptAdmission id t op = (s.put Reg.TE_ADMIT_TICK t).admitDone 0 0 id := by
  have hrole : (s.put Reg.TE_ADMIT_TICK t).pairRole = false :=
    (pairRole_congr (get_put_off hc (by decide))).trans hpair
  rw [State.acceptAdmission, carry_alone hrole]

theorem teChange_acceptAdmission {s : State} (hc : s.canon = true) (hpair : s.pairRole = false) (id t : Nat) (op : CarriedOp) :
    TeChange (words [Reg.TE_ADMIT_TICK, Reg.TE_ADMIT_STATUS_RESULT]) s (s.acceptAdmission id t op) := by
  rw [acceptAdmission_alone hc hpair]
  exact (teChange_put (TeChange.refl s) (by decide) (.inr (by decide))).trans
    ((teChange_admitDone _ 0 0 id).mono fun _ => words_mono (by simp))

/-- PENDING of the flow, and of the point where it is one. -/
def State.pend (s : State) (isPoint : Bool) (id : Nat) : State :=
  (s.put (Reg.FLOW_PENDING (s.changedFlow isPoint id)) 1).when isPoint fun s => s.put (Reg.POINT_PENDING id) 1

theorem pend_flow (s : State) (id : Nat) : s.pend false id = s.put (Reg.FLOW_PENDING id) 1 := by
  simp only [State.pend, State.changedFlow, State.when, Bool.false_eq_true, if_false]

theorem pend_point (s : State) (id : Nat) :
    s.pend true id = (s.put (Reg.FLOW_PENDING (s.get (Reg.POINT_OUT_FLOW id))) 1).put (Reg.POINT_PENDING id) 1 := by
  simp only [State.pend, State.changedFlow, State.when, if_true]

theorem scheduleRemove_eq (s : State) (isPoint : Bool) (id t : Nat) :
    s.scheduleRemove isPoint id t = (s.pend isPoint id).withTe ((s.pend isPoint id).te.noteChange ⟨isPoint, id, false, some t⟩) := rfl

theorem removeCmd_flow {s : State} {id : Nat} (hchange : s.changeOf false id = none) (hpending : s.flag (Reg.FLOW_PENDING id) = false)
    (hkind : s.get (Reg.FLOW_SRC_KIND id) ≠ 2) (hadmitted : s.flag (Reg.FLOW_ADMITTED id) = true) (hsoon : s.get Reg.TE_ADMIT_TICK = 0) :
    s.removeCmd false id = (s.scheduleRemove false id (s.tick + 2)).acceptAdmission id (s.tick + 2) (.remove false id) := by
  simp [State.removeCmd, State.acceptAdmission, hchange, hpending, hkind, hadmitted, hsoon]

theorem removeCmd_point {s : State} {id : Nat} (hchange : s.changeOf true id = none)
    (hadmitted : s.flag (Reg.POINT_ADMITTED id) = true) (hsoon : s.get Reg.TE_ADMIT_TICK = 0) :
    s.removeCmd true id = (s.scheduleRemove true id (s.tick + 2)).acceptAdmission id (s.tick + 2) (.remove true id) := by
  simp [State.removeCmd, State.acceptAdmission, hchange, hadmitted, hsoon]

section
variable {s : State} (hc : s.canon = true) {r : Requester} (hmay : s.mayAdmit r = true) (hpair : s.pairRole = false)
include hc hmay hpair

theorem removeFlow_completes (id : Fin 65536) (hchange : s.changeOf false id = none) (hpending : s.flag (Reg.FLOW_PENDING id) = false)
    (hkind : s.get (Reg.FLOW_SRC_KIND id) ≠ 2) (hadmitted : s.flag (Reg.FLOW_ADMITTED id) = true) (hsoon : s.get Reg.TE_ADMIT_TICK = 0)
    (hlow : s.tick + 2 < 2 ^ 48) : completes (.removeFlow r id) s fun s' => s'.flag (Reg.FLOW_PENDING id) = true ∧
      s'.te.changes = s.te.changes ++ [⟨false, id, false, some (s.tick + 2)⟩] ∧ s'.get Reg.TE_ADMIT_TICK = s.tick + 2 ∧
      s'.get Reg.TE_ADMIT_STATUS_RESULT = 0 ∧
      NoisyFrame (words [Reg.FLOW_PENDING id, Reg.TE_ADMIT_TICK, Reg.TE_ADMIT_STATUS_RESULT]) s { s with te := s'.te } s' := by
  have hremoved := scheduleRemove_eq s false id (s.tick + 2)
  have hpend : Writes (words [Reg.FLOW_PENDING id]) s (s.pend false id) := by
    rw [pend_flow]
    exact writes_put (Writes.refl s) (words_key (by simp)) (.inl (show 30 < 32 by decide))
  have hc₁ : (s.scheduleRemove false id (s.tick + 2)).canon = true := by rw [hremoved, withTe_canon, hpend.canon hc]
  refine ⟨(s.scheduleRemove false id (s.tick + 2)).acceptAdmission id (s.tick + 2) (.remove false id), ?exec, ?pending, ?changes, ?tick,
    result_acceptAdmission id _ _ hc₁, ?frame⟩
  case exec =>
    rw [← removeCmd_flow hchange hpending hkind hadmitted hsoon, ← localOnly_alone hpair fun s => s.removeCmd false id]
    exact congrArg ok (if_pos hmay)
  case pending =>
    have hset : (s.pend false id).flag (Reg.FLOW_PENDING id) = true := by
      rw [pend_flow, flag_put_same hc (flowPending_ok id) rfl 1]
      rfl
    rw [flowPending_acceptAdmission id _ _ hc₁, hremoved, withTe_flag, hset]
  case changes =>
    rw [acceptAdmission_te, hremoved, withTe_te, hpend.rest]
    rfl
  case tick => rw [admitTick_acceptAdmission id _ _ hc₁, Nat.mod_eq_of_lt hlow]
  case frame =>
    have hpair₁ : (s.scheduleRemove false id (s.tick + 2)).pairRole = false := by
      refine (pairRole_congr ?_).trans hpair
      rw [hremoved, withTe_get, hpend.within.get_eq_low hc (by decide) (by simp [words]; omega)]
    have hscheduled : TeChange (words [Reg.FLOW_PENDING id]) s (s.scheduleRemove false id (s.tick + 2)) := by
      rw [hremoved]
      exact teChange_withTe hpend.teChange _
    have hfree : ((s.scheduleRemove false id (s.tick + 2)).acceptAdmission id (s.tick + 2) (.remove false id)).free = s.free := by
      rw [acceptAdmission_alone hc₁ hpair₁, admitDone_free, State.put_free, hremoved, withTe_free, hpend.rest]
    exact ((hscheduled.mono fun _ => words_mono (by simp)).trans
      ((teChange_acceptAdmission hc₁ hpair₁ id _ _).mono fun _ => words_mono (by simp))).noisyFrame_te hc hfree

theorem removePoint_completes (id : Fin 8192) (hchange : s.changeOf true id = none) (hadmitted : s.flag (Reg.POINT_ADMITTED id) = true)
    (hsoon : s.get Reg.TE_ADMIT_TICK = 0) : completes (.removePoint r id) s fun s' => s'.flag (Reg.POINT_PENDING id) = true ∧
      s'.flag (Reg.FLOW_PENDING (s.get (Reg.POINT_OUT_FLOW id))) = true ∧
      s'.te.changes = s.te.changes ++ [⟨true, id, false, some (s.tick + 2)⟩] ∧ s'.get Reg.TE_ADMIT_STATUS_RESULT = 0 := by
  have hremoved := scheduleRemove_eq s true id (s.tick + 2)
  have hflow : (s.put (Reg.FLOW_PENDING (s.get (Reg.POINT_OUT_FLOW id))) 1).canon = true := canon_put hc
  have hpend : Writes anyWord s (s.pend true id) := by
    rw [pend_point]
    exact writesAny_put (writesAny_put (Writes.refl s) _ _) _ _
  have hc₁ : (s.scheduleRemove true id (s.tick + 2)).canon = true := by rw [hremoved, withTe_canon, hpend.canon hc]
  refine ⟨(s.scheduleRemove true id (s.tick + 2)).acceptAdmission id (s.tick + 2) (.remove true id), ?exec, ?point, ?flow, ?changes,
    result_acceptAdmission id _ _ hc₁⟩
  case exec =>
    rw [← removeCmd_point hchange hadmitted hsoon, ← localOnly_alone hpair fun s => s.removeCmd true id]
    exact congrArg ok (if_pos hmay)
  case point =>
    have hset : (s.pend true id).flag (Reg.POINT_PENDING id) = true := by
      rw [pend_point, flag_put_same hflow (pointPending_ok id) rfl 1]
      rfl
    rw [pointPending_acceptAdmission id _ _ hc₁, hremoved, withTe_flag, hset]
  case flow =>
    have hbelow := get_lt s (Reg.POINT_OUT_FLOW id)
    have hset : (s.pend true id).flag (Reg.FLOW_PENDING (s.get (Reg.POINT_OUT_FLOW id))) = true := by
      rw [pend_point, flag_put_off hflow (pointPending_off_flowPending hbelow), flag_put_same hc (flowPending_ok _) rfl 1]
      rfl
    rw [flowPending_acceptAdmission id _ _ hc₁, hremoved, withTe_flag, hset]
  case changes =>
    rw [acceptAdmission_te, hremoved, withTe_te, hpend.rest]
    rfl

end

theorem exec_addFlow {s : State} {r : Requester} (hmay : s.mayAdmit r = true) (hpair : s.pairRole = false) (id : Fin 65536) :
    exec (.addFlow r id) s = ok (s.admitOne false id) := by
  rw [← localOnly_alone hpair fun s => s.admitOne false id]
  exact congrArg ok (if_pos hmay)

theorem exec_addPoint {s : State} {r : Requester} (hmay : s.mayAdmit r = true) (hpair : s.pairRole = false) (id : Fin 8192) :
    exec (.addPoint r id) s = ok (s.admitOne true id) := by
  rw [← localOnly_alone hpair fun s => s.admitOne true id]
  exact congrArg ok (if_pos hmay)

/-- Settles O3: additions by what an accepted admission books, removals by what they leave pending, CHECK by its end alone. -/
theorem admissionCommandsComplete : Obligations.AdmissionCommandsComplete := by
  intro s hc r hmay
  refine ⟨?addFlow, ?addPoint, ?removeFlow, ?removePoint, ?checkFails, ?checkPasses⟩
  case addFlow =>
    exact fun id t b hpair hcheck => ⟨_, exec_addFlow hmay hpair id, admitOne_completes hc hcheck⟩
  case addPoint =>
    intro id t b hpair hcheck
    obtain ⟨hpending, hchanges, hbooks, hresult, -, hposted⟩ := admitOne_completes hc hcheck
    exact ⟨_, exec_addPoint hmay hpair id, hpending, hchanges, hbooks, hresult, hposted⟩
  case removeFlow => exact fun id hpair => removeFlow_completes hc hmay hpair id
  case removePoint => exact fun id hpair => removePoint_completes hc hmay hpair id
  case checkFails =>
    exact fun id code row hcheck => ⟨_, exec_checkFlow_fail hmay hcheck, result_admitDone hc code row id, row_admitDone hc code row id,
      posted_admitDone rfl code row id, noisyFrame_admitDone hc code row id⟩
  case checkPasses =>
    exact fun id t b hcheck => ⟨_, exec_checkFlow_ok hmay hcheck, result_admitDone hc 0 0 id, noisyFrame_admitDone hc 0 0 id⟩

end Sys2Proof.Machine
end

section
/-! PROOFS. What happens to flows at a tick (R79, R80, R84, R85): effective ticks, releases, windows that close, media too late. -/

namespace Sys2Proof.Machine

/-! ## An addition takes effect (R79) -/

theorem changeOf_filter {s : State} {isPoint : Bool} {id : Nat} {l : List Change}
    (h : s.te.changes = l.filter (fun c => !(c.isPoint == isPoint && c.id == id))) : s.changeOf isPoint id = none := by
  rw [State.changeOf, h, List.find?_eq_none]
  intro c hc
  have hkept := (List.mem_filter.mp hc).2
  rwa [Bool.not_eq_true', ← Bool.not_eq_true] at hkept

/-- Updates of registers, and then of TE's own state. -/
theorem quietFrame_withTe {area : Nat → Bool} {s t : State} (hc : s.canon = true) (h : Writes area s t) (x : TeState) :
    QuietFrame area s { s with te := (t.withTe x).te } (t.withTe x) :=
  quietFrame hc (within_same h.within rfl rfl rfl) (by rw [h.rest]; rfl)

/-- ADMITTED is set, and PENDING cleared, in one word. -/
def State.admitted (s : State) (f : Nat) : State := (s.put (Reg.FLOW_ADMITTED f) 1).put (Reg.FLOW_PENDING f) 0

theorem exec_admissionEffective {s : State} {id : Fin 65536} {t : Nat} (hchange : s.changeOf false id = some ⟨false, id, true, some t⟩)
    (hdue : t ≤ s.tick) : ∃ x : TeState, x.changes = s.te.changes.filter (fun c => !(c.isPoint == false && c.id == id.val)) ∧
      x.since = (false, id.val, t) :: s.te.since ∧ exec (.admissionEffective false id) s = ok ((s.admitted id).withTe x) := by
  refine ⟨{ s.te with changes := _, since := _ }, rfl, rfl, ?_⟩
  change execAdmissionEffective false id s = _
  unfold execAdmissionEffective
  rw [hchange]
  dsimp only
  rw [if_neg (Nat.not_lt.mpr hdue)]
  simp only [State.when, Bool.false_eq_true, if_false, State.put_te]
  rfl

theorem flowAdmitted_ok (f : Nat) : (Reg.FLOW_ADMITTED f).ok = true := by
  simp [Field.ok]
  omega

theorem flowPending_off_flowAdmitted (f : Nat) : (Reg.FLOW_PENDING f).off (Reg.FLOW_ADMITTED f) = true := by
  rw [Field.off, flowPending_ok, flowAdmitted_ok]
  simp [Field.at, Field.width]

theorem admissionEffective_completes {s : State} (hc : s.canon = true) (id : Fin 65536) (t : Nat)
    (hchange : s.changeOf false id = some ⟨false, id, true, some t⟩) (hdue : t ≤ s.tick) :
    completes (.admissionEffective false id) s fun s' => s'.flag (Reg.FLOW_ADMITTED id) = true ∧
      s'.flag (Reg.FLOW_PENDING id) = false ∧ s'.changeOf false id = none ∧ s'.te.since = (false, id.val, t) :: s.te.since ∧
      QuietFrame (words [Reg.FLOW_ADMITTED id]) s { s with te := s'.te } s' := by
  obtain ⟨x, hchanges, hsince, hexec⟩ := exec_admissionEffective hchange hdue
  have hput : (s.put (Reg.FLOW_ADMITTED id) 1).canon = true := canon_put hc
  have hkey : words [Reg.FLOW_ADMITTED id] (Reg.FLOW_ADMITTED id).key = true := words_key (by simp)
  have hadmitted : Writes (words [Reg.FLOW_ADMITTED id]) s (s.admitted id) :=
    writes_put (writes_put (Writes.refl s) hkey (.inl (show 31 < 32 by decide))) hkey (.inl (show 30 < 32 by decide))
  refine ⟨_, hexec, ?_, ?_, changeOf_filter hchanges, hsince, quietFrame_withTe hc hadmitted x⟩
  · rw [withTe_flag, State.admitted, flag_put_off hput (flowPending_off_flowAdmitted id), flag_put_same hc (flowAdmitted_ok id) rfl 1]
    rfl
  · rw [withTe_flag, State.admitted, flag_put_same hput (flowPending_ok id) rfl 0]
    rfl

/-! ## A removal is released (R80) -/

theorem te_foldl {α : Type} {f : State → α → State} (hf : ∀ s x, (f s x).te = s.te) (l : List α) (s : State) :
    (l.foldl f s).te = s.te := by
  induction l generalizing s with
  | nil => rfl
  | cons x l ih => exact (ih (f s x)).trans (hf s x)

theorem te_when (s : State) (b : Bool) {f : State → State} (hf : ∀ s, (f s).te = s.te) : (s.when b f).te = s.te := by
  unfold State.when
  split
  · exact hf s
  · rfl

theorem misuse_te (s : State) (c kind : Nat) : (s.misuse c kind).te = s.te := by
  unfold State.misuse State.oncePerTick
  simp only
  split <;> simp

theorem freeCell_te (s : State) (c h g : Nat) : (s.freeCell c h g).te = s.te := by
  unfold State.freeCell
  dsimp only
  split
  · rw [misuse_te, State.bump_te]
  · split
    · rw [misuse_te, State.bump_te]
    · exact State.put_te ..

theorem releaseCopy_te (s : State) (h : Nat) : (s.releaseCopy h).te = s.te := by
  unfold State.releaseCopy
  split
  · rfl
  next f hf =>
    split
    · rfl
    · exact (te_foldl (fun _ _ => freeCell_te ..) _ _).trans (te_foldl (fun _ _ => State.put_te ..) _ _)

theorem freeFrame_te (s : State) (h : Nat) : (s.freeFrame h).te = s.te := by
  unfold State.freeFrame
  split
  · rfl
  · exact releaseCopy_te ..

/-- What a release gives back; the change is pending no longer. -/
theorem release_te (s : State) (isPoint : Bool) (id : Nat) :
    (s.release isPoint id).te.books = s.te.books.filter (fun b => !(b.isPoint == isPoint && b.id == id)) ∧
      (s.release isPoint id).te.changes = s.te.changes.filter (fun c => !(c.isPoint == isPoint && c.id == id)) := by
  unfold State.release
  extract_lets f b unbooked unnamed unpended unadmitted freed terms unmixed
  have hunnamed : Writes anyWord s unnamed := writes_mediaRefs (writes_givePools (writes_unbookRows (Writes.refl s) _) _) _ _
  have hunpended : Writes anyWord s unpended := writes_when hunnamed (writesAny_put (writesAny_put hunnamed _ _) _ _)
  have hunadmitted : Writes anyWord s unadmitted := writesAny_put (writesAny_put (writesAny_put hunpended _ _) _ _) _ _
  have hfreed : freed.te = unadmitted.te := te_foldl (fun _ _ => freeFrame_te ..) _ _
  have hmixed : unmixed.te = freed.te := te_when _ _ fun _ => rfl
  have hunmixed : unmixed.te = s.te := by rw [hmixed, hfreed, hunadmitted.rest]
  constructor
  · change unmixed.te.books.filter _ = _
    rw [hunmixed]
  · change unmixed.te.changes.filter _ = _
    rw [hunmixed]

theorem removalRelease_completes {s : State} (id : Fin 65536) (t : Nat)
    (hchange : s.changeOf false id = some ⟨false, id, false, some t⟩) (hdue : t + 2 ≤ s.tick) :
    completes (.removalRelease false id) s fun s' => s'.changeOf false id = none ∧
      s'.te.books = s.te.books.filter (fun b => !(b.isPoint == false && b.id == id.val)) := by
  obtain ⟨hbooks, hchanges⟩ := release_te s false id
  refine ⟨s.release false id, ?_, changeOf_filter hchanges, hbooks⟩
  change execRemovalRelease false id s = _
  unfold execRemovalRelease
  rw [hchange]
  exact if_neg (Nat.not_lt.mpr hdue)

/-! ## A window closes (R84) -/

/-- The fields that say what flow `f` carries and when it is admitted, and the tick. -/
def flowFields (f : Nat) : List Field :=
  [Reg.FLOW_CHANNELS f, Reg.FLOW_CH_PER_PKT f, Reg.FLOW_SPP f, Reg.FLOW_RATE f, Reg.FLOW_FORMAT f, Reg.FLOW_SRC_KIND f,
    Reg.FLOW_SRC f, Reg.FLOW_ADMITTED f, Reg.TE_CFG_PERIOD, Reg.TE_SYNC_STATE_MEDIA_RUN]

theorem writes_moment (s : State) (o : Nat) : Writes (words [Reg.TE_OFFSET]) s (s.moment o) :=
  writes_ite (writes_put (Writes.refl s) (by decide) (.inl (by decide))) (Writes.refl s)

section
variable {s t : State} {f : Nat} (h : ∀ g ∈ flowFields f, t.get g = s.get g)
include h

theorem geometry_congr : t.geometry f = s.geometry f := by
  simp only [flowFields, List.forall_mem_cons] at h
  simp only [State.geometry, State.samples, h]

theorem admittedAt_congr (hte : t.te = s.te) (n : Nat) : t.admittedAt f n = s.admittedAt f n := by
  simp only [flowFields, List.forall_mem_cons] at h
  simp only [State.admittedAt, State.flowChange, State.sinceBefore, State.changeOf, State.flag, h, hte]

end

/-- The offset within the tick is none of them. -/
theorem flowFields_writes {s t : State} (hc : s.canon = true) (h : Writes (words [Reg.TE_OFFSET]) s t) (f : Nat) :
    ∀ g ∈ flowFields f, t.get g = s.get g := by
  have hread := fun (g : Field) (hword : g.hi < 32) (hkey : words [Reg.TE_OFFSET] g.key = false) =>
    h.within.get_eq_low hc hword hkey
  simp only [flowFields, List.forall_mem_cons]
  refine ⟨?_, ?_, ?_, ?_, ?_, ?_, ?_, ?_, ?_, ?_, by simp⟩
  all_goals exact hread _ (by simp) (by simp [words] <;> omega)

/-- A tick that lacks packets is counted, for the flow and for the device. -/
def State.countIncomplete (s : State) (f : Nat) : State := (s.bumpSat (Reg.FLOW_INCOMPLETE f)).bump Reg.TE_INCOMPLETE

theorem closeWindow_empty {s : State} {f : Nat} (hrun : s.mediaRun = true) (hadmitted : s.admittedAt f s.tick = true)
    (hkind : s.get (Reg.FLOW_SRC_KIND f) = 0) (hrx : (s.rt f).rx = []) (hopen : s.tick ∉ (s.rt f).held)
    (hpackets : 0 < (s.geometry f).packets) : s.closeWindow f = (s.countIncomplete f).markHeld f (s.countIncomplete f).tick := by
  have hcount : (s.rt f).count s.tick = 0 := by simp [FlowRt.count, hrx]
  have hcloses : (s.mediaRun && s.admittedAt f s.tick && s.get (Reg.FLOW_SRC_KIND f) != 2 && !(s.rt f).held.contains s.tick
      && decide ((s.rt f).count s.tick < (s.geometry f).packets)) = true := by
    simp [hrun, hadmitted, hkind, hcount, hopen, hpackets]
  unfold State.closeWindow
  dsimp only
  rw [if_pos hcloses, hkind]
  rfl

theorem markHeld_empty {s : State} {f : Nat} (hrx : (s.rt f).rx = []) (n : Nat) :
    s.markHeld f n = s.setRt f { s.rt f with rx := [], held := n :: (s.rt f).held } := by
  simp only [State.markHeld, hrx, List.filter_nil, List.foldl_nil]

theorem rt_setRt (s : State) (f : Nat) (r : FlowRt) : (s.setRt f r).rt f = r := by
  simp only [State.rt, State.setRt, Assoc.getD, Assoc.get?_set_same, Option.getD_some]

theorem setRt_get (s : State) (f : Nat) (r : FlowRt) (g : Field) : (s.setRt f r).get g = s.get g := rfl

theorem quietFrame_setRt {area : Nat → Bool} {s t : State} (hc : s.canon = true) (h : Writes area s t) (f : Nat) (r : FlowRt) :
    QuietFrame area s { s with media := (t.setRt f r).media } (t.setRt f r) :=
  quietFrame hc (within_same h.within rfl rfl rfl) (by rw [h.rest]; rfl)

theorem writes_bumpSat {area : Nat → Bool} {s₀ s : State} (h : Writes area s₀ s) {f : Field} (hlo : area f.key = true)
    (hhi : f.hi < 32 ∨ area (f.key + 4) = true) : Writes area s₀ (s.bumpSat f) := writes_ite (writes_put h hlo hhi) h

theorem writes_bump {area : Nat → Bool} {s₀ s : State} (h : Writes area s₀ s) {f : Field} (hlo : area f.key = true)
    (hhi : f.hi < 32 ∨ area (f.key + 4) = true) : Writes area s₀ (s.bump f) := writes_put h hlo hhi

theorem writes_countIncomplete {area : Nat → Bool} {s₀ s : State} (h : Writes area s₀ s) (f : Nat)
    (hflow : area (Reg.FLOW_INCOMPLETE f).key = true) (hall : area Reg.TE_INCOMPLETE.key = true)
    (hhigh : area (Reg.TE_INCOMPLETE.key + 4) = true) : Writes area s₀ (s.countIncomplete f) :=
  writes_bump (writes_bumpSat h hflow (.inl (show 31 < 32 by decide))) hall (.inr hhigh)

/-- The window that closes at `t`, a moment within the tick of `s`. -/
theorem closeWindow_counts {s t : State} (hc : s.canon = true) (h : Writes (words [Reg.TE_OFFSET]) s t) {f : Nat}
    (hrun : s.mediaRun = true) (hadmitted : s.admittedAt f s.tick = true) (hkind : s.get (Reg.FLOW_SRC_KIND f) = 0)
    (hrx : (s.rt f).rx = []) (hopen : s.tick ∉ (s.rt f).held) (hpackets : 0 < (s.geometry f).packets) :
    s.tick ∈ ((t.closeWindow f).rt f).held ∧
      (t.closeWindow f).get Reg.TE_INCOMPLETE = (s.get Reg.TE_INCOMPLETE + 1) % 2 ^ 64 ∧
      QuietFrame (words [Reg.TE_OFFSET, Reg.FLOW_INCOMPLETE f, Reg.TE_INCOMPLETE]) s { s with media := (t.closeWindow f).media }
        (t.closeWindow f) := by
  have hfields := flowFields_writes hc h f
  have hte : t.te = s.te := by rw [h.rest]
  have hrt : t.rt f = s.rt f := by rw [h.rest]; rfl
  have htick : t.tick = s.tick := h.get_eq hc (by decide) (by decide)
  have hrun' : t.mediaRun = true := (flag_congr (hfields _ (by simp [flowFields]))).trans hrun
  have hclosed := closeWindow_empty hrun' (by rw [admittedAt_congr hfields hte, htick, hadmitted])
    ((hfields _ (by simp [flowFields])).trans hkind) (hrt ▸ hrx) (by rw [hrt, htick]; exact hopen)
    (by rw [geometry_congr hfields]; exact hpackets)
  have hflow : Writes (words [Reg.TE_OFFSET, Reg.FLOW_INCOMPLETE f]) s (t.bumpSat (Reg.FLOW_INCOMPLETE f)) :=
    writes_bumpSat (h.mono fun _ => words_mono (by simp)) (words_key (by simp)) (.inl (show 31 < 32 by decide))
  have hcounted : Writes (words [Reg.TE_OFFSET, Reg.FLOW_INCOMPLETE f, Reg.TE_INCOMPLETE]) s (t.countIncomplete f) :=
    writes_countIncomplete (h.mono fun _ => words_mono (by simp)) f (words_key (by simp)) (words_key (by simp))
      (words_high (by simp) (by decide))
  have hrx' : ((t.countIncomplete f).rt f).rx = [] := by
    rw [hcounted.rest]
    exact hrx
  rw [hclosed, markHeld_empty hrx']
  refine ⟨?_, ?_, quietFrame_setRt hc hcounted _ _⟩
  · have hnow : (t.countIncomplete f).tick = s.tick := hcounted.get_eq hc (by simp [words]; omega) (by simp [words]; omega)
    rw [rt_setRt, hnow]
    exact List.mem_cons_self ..
  · rw [setRt_get, State.countIncomplete, State.bump, get_put_same (hflow.canon hc) (by decide),
      hflow.get_eq hc (by simp [words]; omega) (by simp [words]; omega)]
    rfl

/-! ## Media too late (R85) -/

/-- The one late copy is discarded. -/
def State.discardCopies (s : State) : State := { s with media := { s.media with copies := [] } }

theorem discardCopies_get (s : State) (f : Field) : s.discardCopies.get f = s.get f := rfl
theorem discardCopies_canon (s : State) : s.discardCopies.canon = s.canon := rfl
theorem discardCopies_events (s : State) : s.discardCopies.events = s.events := rfl
theorem discardCopies_copies (s : State) : s.discardCopies.media.copies = [] := rfl
theorem within_discardCopies {area : Nat → Bool} (s : State) : Within area s s.discardCopies := within_same (Within.refl s) rfl rfl rfl

theorem exec_mediaOverrun {s : State} {c : Copy} (hcopies : s.media.copies = [c]) (hlate : c.outTick < s.tick)
    (hport : c.toRing = false) (hhandles : c.handles = []) : exec .mediaOverrun s =
      ok ((s.discardCopies.bumpBy Reg.TE_OVERRUN ((s.geometry c.flow).packets - c.next)).raise .te 9 [(48, c.outTick)]) := by
  have hdue : [c].filter (fun c => decide (c.outTick < s.tick) && !c.toRing) = [c] := by simp [hlate, hport]
  have hkept : [c].filter (fun c => !(decide (c.outTick < s.tick) && !c.toRing)) = [] := by simp [hlate, hport]
  change execMediaOverrun s = _
  unfold execMediaOverrun
  simp only [hcopies, hdue, hkept, hhandles, sumOf, List.drop_nil, List.foldl_nil, List.foldl_cons, Nat.zero_add]
  rfl

theorem mediaOverrun_completes {s : State} (hc : s.canon = true) (c : Copy) (hcopies : s.media.copies = [c])
    (hlate : c.outTick < s.tick) (hport : c.toRing = false) (hhandles : c.handles = []) :
    completes .mediaOverrun s fun s' => s'.media.copies = [] ∧
      s'.get Reg.TE_OVERRUN = (s.get Reg.TE_OVERRUN + ((s.geometry c.flow).packets - c.next)) % 2 ^ 64 ∧
      posted s s' .te 9 [(48, c.outTick)] ∧ NoisyFrame (words [Reg.TE_OVERRUN]) s { s with media := s'.media } s' := by
  refine ⟨_, exec_mediaOverrun hcopies hlate hport hhandles, ?_⟩
  generalize (s.geometry c.flow).packets - c.next = n
  have hd : s.discardCopies.canon = true := (discardCopies_canon s).trans hc
  have hcounted : TeChange (words [Reg.TE_OVERRUN]) s.discardCopies (s.discardCopies.bumpBy Reg.TE_OVERRUN n) :=
    teChange_put (TeChange.refl _) (by decide) (.inr (by decide))
  have hraised := teChange_raise (u := .te) (type := 9) (l := [(48, c.outTick)])
    (TeChange.refl (area := fun _ => false) (s.discardCopies.bumpBy Reg.TE_OVERRUN n))
  have hchange := hcounted.trans (hraised.mono fun _ h => nomatch h)
  have hevents : (s.discardCopies.bumpBy Reg.TE_OVERRUN n).events = s.events := by rw [State.bumpBy_events, discardCopies_events]
  refine ⟨?_, ?_, posted_raise hevents _ _ _, noisyFrame hc ((within_discardCopies s).trans hchange.within) ?_⟩
  · rw [hchange.rest, discardCopies_copies]
  · rw [hraised.get_eq (hcounted.canon hd) (by decide) (by decide), State.bumpBy, get_put_same hd (by decide), discardCopies_get]
    rfl
  · unfold State.raise State.bumpBy
    rw [raiseEvent_rest, put_rest]
    rfl

/-- Settles O4: clause by clause; the frames of a removed flow go without a change of what TE holds. -/
theorem flowTickCommandsComplete : Obligations.FlowTickCommandsComplete := by
  intro s hc
  refine ⟨admissionEffective_completes hc, removalRelease_completes, ?window, ?overrun⟩
  case window =>
    exact fun id hrun hadmitted hkind hrx hopen hpackets =>
      ⟨_, rfl, closeWindow_counts hc (writes_moment s _) hrun hadmitted hkind hrx hopen hpackets⟩
  case overrun => exact mediaOverrun_completes hc

end Sys2Proof.Machine
end

section
/-! PROOFS. Serial-number arithmetic (R99): the difference of two values of a field, and which of them is newer. -/

namespace Sys2Proof.Machine

/-- The difference modulo `m` without the modulus: it wraps where the subtrahend is the larger. -/
theorem wrappedDiff_eq {m a b : Nat} (ha : a < m) (hb : b < m) : (a + m - b) % m = if b ≤ a then a - b else a + m - b := by
  split
  next hle => rw [show a + m - b = a - b + m by omega, Nat.add_mod_right, Nat.mod_eq_of_lt (by omega)]
  next hgt => exact Nat.mod_eq_of_lt (by omega)

theorem wrappedDiff_eq_zero_iff {m a b : Nat} (ha : a < m) (hb : b < m) : (a + m - b) % m = 0 ↔ a = b := by
  rw [wrappedDiff_eq ha hb]
  split <;> omega

/-- The differences of two distinct values, taken both ways, sum to the modulus. -/
theorem wrappedDiff_swap {m a b : Nat} (ha : a < m) (hb : b < m) (hne : a ≠ b) : (b + m - a) % m = m - (a + m - b) % m := by
  rw [wrappedDiff_eq ha hb, wrappedDiff_eq hb ha]
  rcases Nat.lt_or_gt_of_ne hne with hlt | hgt
  · rw [if_pos hlt.le, if_neg hlt.not_ge]
    omega
  · rw [if_neg hgt.not_ge, if_pos hgt.le]
    omega

theorem serialNewer_iff {n b : Nat} (a : Nat) (hb : b < 2 ^ n) :
    serialNewer n a b = true ↔ 1 ≤ (a + 2 ^ n - b) % 2 ^ n ∧ (a + 2 ^ n - b) % 2 ^ n ≤ 2 ^ (n - 1) - 1 := by
  rw [serialNewer, Nat.mod_eq_of_lt hb, Bool.and_eq_true, decide_eq_true_iff, decide_eq_true_iff]

/-- A value at half the range or beyond it is not newer (R99). -/
theorem serialNewer_eq_false_of_half_le {n a b : Nat} (hb : b < 2 ^ n) (hhalf : 2 ^ (n - 1) ≤ (a + 2 ^ n - b) % 2 ^ n) :
    serialNewer n a b = false := by
  have hpos : 0 < 2 ^ (n - 1) := Nat.two_pow_pos _
  rw [Bool.eq_false_iff, ne_eq, serialNewer_iff a hb]
  omega

/-- Of two values more than half the range apart, the other one is newer: its own difference is below half the range. -/
theorem serialNewer_swap_of_half_lt {n a b : Nat} (hn : 0 < n) (ha : a < 2 ^ n) (hb : b < 2 ^ n)
    (hhalf : 2 ^ (n - 1) < (a + 2 ^ n - b) % 2 ^ n) : serialNewer n b a = true := by
  have hne : a ≠ b := fun h => by
    rw [(wrappedDiff_eq_zero_iff ha hb).mpr h] at hhalf
    exact Nat.not_lt_zero _ hhalf
  have hrange : (a + 2 ^ n - b) % 2 ^ n < 2 ^ n := Nat.mod_lt _ (Nat.two_pow_pos n)
  have htwice : 2 ^ (n - 1) * 2 = 2 ^ n := Nat.two_pow_pred_mul_two hn
  rw [serialNewer_iff b ha, wrappedDiff_swap ha hb hne]
  omega

/-- Settles O60: from the difference of the two values and the difference taken the other way. -/
theorem serialNumbers : Obligations.SerialNumbers := by
  rintro n a b d hn ha hb rfl
  exact ⟨serialNewer_iff a hb,
    fun hbeyond => ⟨serialNewer_swap_of_half_lt hn ha hb hbeyond,
      serialNewer_eq_false_of_half_le hb (Nat.le_of_succ_le hbeyond)⟩,
    wrappedDiff_eq_zero_iff ha hb, fun hhalf => serialNewer_eq_false_of_half_le hb hhalf.ge⟩

end Sys2Proof.Machine
end

section
/-! PROOFS. The commit of the versioned set (R124, R364): the lists of the entries that are the image's own change places with the banks,
which the statement leaves out. -/

namespace Sys2Proof.Machine

theorem pcu_foldl {α : Type} {f : State → α → State} (hf : ∀ s x, (f s x).pcu = s.pcu) (l : List α) (s : State) :
    (l.foldl f s).pcu = s.pcu := by
  induction l generalizing s with
  | nil => rfl
  | cons x l ih => exact (ih (f s x)).trans (hf s x)

theorem putRange_pcu (s : State) (base len : Nat) (l : List (Nat × Nat)) : (s.putRange base len l).pcu = s.pcu := by
  unfold State.putRange
  exact pcu_foldl (fun s p => s.wr_pcu (base + p.1) p.2) l _

theorem swapBank_pcu (locked : Nat → Nat → Bool) (s : State) (w : Nat × Nat × List Nat) : (s.swapBank locked w).pcu = s.pcu :=
  (putRange_pcu _ w.1 w.2.1 _).trans (pcu_foldl (fun s b => putRange_pcu s b w.2.1 _) w.2.2 s)

/-- With the banks the lists of the image's own entries change places (R124, R364). -/
theorem tblCommitEffective_pcu {s : State} {at_ : Option Nat} (hcommit : s.pcu.commit = some at_) (hdue : at_.getD 0 ≤ s.tick) :
    completes .tblCommitEffective s fun t => t.pcu = { s.pcu with
      commit := none, syncDue := true, imageStaged := s.pcu.imageNow, imageNow := s.pcu.imageStaged } := by
  have hbanks : (bankWindows.foldl (fun t w => t.swapBank s.lockedWord w) s).pcu = s.pcu := pcu_foldl (swapBank_pcu s.lockedWord) _ s
  unfold completes
  simp only [exec, execTblCommitEffective, hcommit, if_neg (Nat.not_lt.mpr hdue)]
  exact ⟨_, rfl, by simp only [State.put_pcu, hbanks]⟩

/-- A commit is due. Entry 0 is the image's own in the committed bank, and no longer in the staging bank, where a manager has written
it. -/
def restagedImageEntry : State := { State.reset with pcu := { PcuState.reset with commit := some none, imageNow := [0] } }

/-- Refutes O20: the clause on COMMIT_EFFECTIVE has nothing in PCU change but the commit and the synchronisation that is due, and so
leaves the image's own entries as they were. Those of `restagedImageEntry`, none in the staging bank, come to be entry 0 there. -/
theorem not_commitSwapsBanks : ¬ Obligations.CommitSwapsBanks := by
  intro h
  obtain ⟨-, heffective, -⟩ := h restagedImageEntry (by decide)
  obtain ⟨t, ht, -, -, -, hframe⟩ := heffective none rfl (Nat.zero_le _)
  obtain ⟨u, hu, hpcu⟩ := tblCommitEffective_pcu (s := restagedImageEntry) rfl (Nat.zero_le _)
  obtain rfl := Host.Outcome.next.inj (hu.symm.trans ht)
  have hkept : u.pcu.imageStaged = [] := by rw [hframe.rest]; rfl
  have hswapped : u.pcu.imageStaged = [0] := by rw [hpcu]; rfl
  exact absurd (hkept.symm.trans hswapped) (by decide)

end Sys2Proof.Machine
end

section
/-! PROOFS. A frame toward a host ring (R163, R233): the statement has it handed on whatever the table of programs holds, and where
program 0 is not VALID its copy is discarded. -/

namespace Sys2Proof.Machine

/-- A good frame without cells, of a MAC port, with one copy toward a host ring. -/
def ringFrame : Frame := ⟨0, 0, 0, [], true, false, false, Walk.empty, [], 1, [], 0, [⟨.ring 0, 0, 0⟩], [], ⟨0, 0⟩, []⟩

/-- FPU is in RUN and ring 0 enabled, and in HOST's input stage stands a descriptor of `ringFrame`, rewritten by program 0. That program
is fixed and VALID (R233), but nothing in `State` keeps its word from reading otherwise, and here it reads 0. -/
def ringFrameWithoutProgram : State :=
  let s := [(Reg.UNIT_STATE 6, 2), (Reg.RING_ENABLE 0, 1), (Reg.PROG_VALID 0, 0)].foldl (fun (s : State) x => s.put x.1 x.2) State.reset
  { s with fpu := { s.fpu with
      inputs := [(33, ⟨0, false, false, 0, [⟨.ring 0, 0, 0⟩], ⟨0, 0⟩⟩)]
      frames := [(0, ringFrame)] } }

/-- The command completes, and no frame waits for a ring. -/
def endsWithoutWaiting (c : Instr) (s : State) : Bool :=
  match exec c s with
  | .next t => t.qe.rxWait.isEmpty
  | _ => false

theorem rxWait_of_endsWithoutWaiting {c : Instr} {s t : State} (h : endsWithoutWaiting c s = true) (ht : exec c s = .next t) :
    t.qe.rxWait = [] := by
  unfold endsWithoutWaiting at h
  rw [ht] at h
  exact List.isEmpty_iff.mp h

/-- The copy names a program that is not VALID, and is dropped (R233). -/
theorem fabricTransfer_withoutProgram : endsWithoutWaiting (.fabricTransfer 0) ringFrameWithoutProgram = true := by decide +kernel

/-- Refutes O7: the clause on the fabric's last step asks nothing of program 0, which the copy names. `ringFrameWithoutProgram` meets
its hypotheses, and no frame comes to wait for the ring. -/
theorem not_ingressCommandsComplete : ¬ Obligations.IngressCommandsComplete := by
  intro h
  obtain ⟨-, -, -, -, hring⟩ := h ringFrameWithoutProgram (by decide +kernel)
  obtain ⟨t, ht, -, -, hwaits, -⟩ := hring 0 0 0 0 0 ⟨0, 0⟩ ringFrame (by decide +kernel) rfl rfl rfl rfl (by decide +kernel)
  rw [rxWait_of_endsWithoutWaiting fabricTransfer_withoutProgram ht] at hwaits
  exact absurd hwaits.symm (List.append_ne_nil_of_right_ne_nil _ (List.cons_ne_nil _ _))

end Sys2Proof.Machine
end

section
/-! PROOFS. The compares of FTU's and PCU's copies (R132, R155): what four copies agree on, an entry's replicas, and a record's copies
against its shadow. -/

namespace Sys2Proof.Machine

/-! ## What four copies agree on -/

/-- The first pipeline whose copy three of the four have. -/
def majorityOf (copy : Nat → List Nat) : Option Nat :=
  (List.range 4).find? (fun p => 3 ≤ ((List.range 4).filter (fun q => copy q == copy p)).length)

/-- How many of the four copies read `l`. -/
def copiesOf (copy : Nat → List Nat) (l : List Nat) : Nat := ((List.range 4).filter (fun q => copy q == l)).length

/-- No two values have more than four copies between them. -/
theorem copiesOf_add_le {copy : Nat → List Nat} {l m : List Nat} (h : l ≠ m) : copiesOf copy l + copiesOf copy m ≤ 4 := by
  have hsplit := List.length_eq_length_filter_add (l := List.range 4) (fun q => copy q == m)
  have hother : copiesOf copy l ≤ ((List.range 4).filter (fun q => !(copy q == m))).length :=
    List.Sublist.length_le (List.monotone_filter_right _ fun q hq => by
      rw [beq_iff_eq.mp hq]
      simpa using h)
  rw [List.length_range] at hsplit
  unfold copiesOf at hother ⊢
  omega

/-- The copies that read `l` are counted by any other description of their places. -/
theorem copiesOf_eq {copy : Nat → List Nat} {l : List Nat} {P : Nat → Bool} (h : ∀ q, q < 4 → (copy q = l ↔ P q = true)) :
    copiesOf copy l = ((List.range 4).filter P).length := by
  unfold copiesOf
  rw [List.filter_congr fun q hq => ?_]
  rw [Bool.eq_iff_iff, beq_iff_eq]
  exact h q (List.mem_range.mp hq)

section
variable {copy : Nat → List Nat} {l : List Nat}

/-- Where one copy alone differs, the three that agree have the majority. -/
theorem majorityOf_three {p : Fin 4} (hagree : ∀ q, q < 4 → q ≠ p.val → copy q = l) (hdiffers : copy p ≠ l) :
    ∃ m, majorityOf copy = some m ∧ copy m = l := by
  have hthree : copiesOf copy l = 3 := by
    rw [copiesOf_eq (P := fun q => q != p.val) fun q hq =>
      ⟨fun h => bne_iff_ne.mpr fun e => hdiffers (e ▸ h), fun h => hagree q hq (bne_iff_ne.mp h)⟩]
    exact (by decide : ∀ p : Fin 4, ((List.range 4).filter (fun q => q != p.val)).length = 3) p
  cases hmajority : majorityOf copy with
  | some m =>
    refine ⟨m, rfl, by_contra fun hne => ?_⟩
    have hmost : 3 ≤ copiesOf copy (copy m) :=
      of_decide_eq_true (List.find?_some (p := fun m => decide (3 ≤ copiesOf copy (copy m))) hmajority)
    have := copiesOf_add_le (copy := copy) hne
    omega
  | none =>
    have hnext : (p + 1).val ≠ p.val := (by decide : ∀ p : Fin 4, (p + 1).val ≠ p.val) p
    have hfew := List.find?_eq_none.mp hmajority (p + 1).val (List.mem_range.mpr (p + 1).isLt)
    rw [hagree _ (p + 1).isLt hnext] at hfew
    exact absurd (decide_eq_true hthree.ge) hfew

/-- Two copies against two, or two and two that differ from each other: no majority. -/
theorem majorityOf_split {p q : Fin 4} (hpq : p ≠ q) (hagree : ∀ r, r < 4 → r ≠ p.val → r ≠ q.val → copy r = l) (hp : copy p ≠ l)
    (hq : copy q ≠ l) : majorityOf copy = none := by
  have htwo : copiesOf copy l = 2 := by
    rw [copiesOf_eq (P := fun r => r != p.val && r != q.val) fun r hr => ?_]
    · exact (by decide : ∀ p q : Fin 4, p ≠ q → ((List.range 4).filter (fun r => r != p.val && r != q.val)).length = 2) p q hpq
    · rw [Bool.and_eq_true, bne_iff_ne, bne_iff_ne]
      exact ⟨fun h => ⟨fun e => hp (e ▸ h), fun e => hq (e ▸ h)⟩, fun h => hagree r hr h.1 h.2⟩
  refine List.find?_eq_none.mpr fun r _ hmost => ?_
  have hmost' : 3 ≤ copiesOf copy (copy r) := of_decide_eq_true hmost
  by_cases he : copy r = l
  · rw [he] at hmost'
    omega
  · have := copiesOf_add_le (copy := copy) he
    omega

end

/-! ## A fault found, counted and raised -/

/-- A counter of 64 bits counts `n` and an event is raised, on a state with the registers, the events and the flash of `s`. -/
theorem countedAndRaised {s u : State} (hc : s.canon = true) (hregs : u.regs = s.regs) (hevents : u.events = s.events)
    (hflash : u.sup.flash = s.sup.flash) {f : Field} (hok : f.ok = true) (hwidth : f.width = 64)
    (hlo : words [Reg.QE_ARB_LOST] f.key = false) (hhi : words [Reg.QE_ARB_LOST] (f.key + 4) = false) (n : Nat) (who : Unit')
    (type : Nat) (l : List (Nat × Nat)) :
    ((u.bumpBy f n).raise who type l).get f = (s.get f + n) % 2 ^ 64 ∧ posted s ((u.bumpBy f n).raise who type l) who type l ∧
      NoisyFrame (words [f]) s u ((u.bumpBy f n).raise who type l) := by
  have hsame : Within (words [f]) s u := within_same (Within.refl s) hregs hevents hflash
  have hu := hsame.canon hc
  have hraised : Within (words [Reg.QE_ARB_LOST]) (u.bumpBy f n) ((u.bumpBy f n).raise who type l) :=
    within_raise (Within.refl _) (by decide) (by decide)
  have hcounted : Within (words [f]) s (u.bumpBy f n) := by
    refine within_put hsame (words_key (List.mem_singleton_self f)) ?_
    by_cases hhigh : f.hi < 32
    · exact .inl hhigh
    · exact .inr (words_high (List.mem_singleton_self f) (Nat.le_of_not_lt hhigh))
  refine ⟨?_, posted_raise ((State.put_events ..).trans hevents) who type l, noisyFrame hc ?_ ?_⟩
  · rw [hraised.get_eq (canon_put hu) hlo hhi, State.bumpBy, get_put_same hu hok, hwidth, get_congr hregs]
  · exact (hcounted.mono fun k hk => by simp only [hk, Bool.true_or]).trans (hraised.mono fun k hk => by simp only [hk, Bool.or_true])
  · unfold State.raise State.bumpBy
    rw [raiseEvent_rest, put_rest]

/-! ## Words written back -/

theorem length_rdWords (s : State) (k n : Nat) : (s.rdWords k n).length = n := by simp [State.rdWords]

theorem getD_rdWords (s : State) (k : Nat) {n i : Nat} (hi : i < n) : (s.rdWords k n).getD i 0 = s.rd (k + 4 * i) := by
  simp [State.rdWords, hi]

theorem rdWords_congr {s t : State} {j k n : Nat} (h : ∀ i, i < n → s.rd (j + 4 * i) = t.rd (k + 4 * i)) :
    s.rdWords j n = t.rdWords k n := List.map_congr_left fun i hi => h i (List.mem_range.mp hi)

/-- A state whose words all read as those of `s` is `s`, where nothing but registers has changed. -/
theorem eq_of_rd_eq {s t : State} (hc : s.canon = true) (h : Writes anyWord s t) (hrd : ∀ k, t.rd k = s.rd k) : t = s := by
  have hregs : t.regs = s.regs :=
    Sparse.ext (canon_regs (h.canon hc)) (canon_regs hc) fun k => BitVec.eq_of_toNat_eq (hrd k)
  exact h.rest.trans (by rw [hregs])

theorem writes_wrWords {s₀ s : State} (h : Writes anyWord s₀ s) (k : Nat) (l : List Nat) : Writes anyWord s₀ (s.wrWords k l) := by
  obtain ⟨r, hr⟩ := wrWords_rest s k l
  exact ⟨within_wrWords h.within fun _ _ => rfl, by rw [hr, h.rest]⟩

section
variable {s t : State} {l : List Nat} {j : Nat}

/-- Words written as `s` has them leave what reads as in `s`, and make their own places read so. -/
theorem rd_wrWords_of_agree (ht : t.canon = true) {k : Nat} (hl : ∀ i, i < l.length → l.getD i 0 = s.rd (k + 4 * i))
    (hj : t.rd j = s.rd j ∨ ∃ i, i < l.length ∧ j = k + 4 * i) : (t.wrWords k l).rd j = s.rd j := by
  by_cases hin : ∃ i < l.length, j = k + 4 * i
  · obtain ⟨i, hi, rfl⟩ := hin
    rw [rd_wrWords ht k l i hi, hl i hi, Nat.mod_eq_of_lt (rd_lt s _)]
  · have hout : Within (fun j => decide (∃ i < l.length, j = k + 4 * i)) t (t.wrWords k l) :=
      within_wrWords (Within.refl t) fun i hi => decide_eq_true ⟨i, hi, rfl⟩
    exact (hout.words ht j (decide_eq_false hin)).trans (hj.resolve_right hin)

theorem rd_foldl_wrWords_of_agree (ht : t.canon = true) {places : List Nat} {place : Nat → Nat}
    (hl : ∀ q ∈ places, ∀ i, i < l.length → l.getD i 0 = s.rd (place q + 4 * i))
    (hj : t.rd j = s.rd j ∨ ∃ q ∈ places, ∃ i, i < l.length ∧ j = place q + 4 * i) :
    (places.foldl (fun t q => t.wrWords (place q) l) t).rd j = s.rd j := by
  induction places generalizing t with
  | nil => exact hj.resolve_right fun ⟨_, hq, _⟩ => absurd hq List.not_mem_nil
  | cons q places ih =>
    have hhere := hl q (List.mem_cons_self ..)
    refine ih ((writes_wrWords (Writes.refl t) (place q) l).canon ht) (fun r hr => hl r (List.mem_cons_of_mem _ hr)) ?_
    obtain hread | ⟨r, hr, hplace⟩ := hj
    · exact .inl (rd_wrWords_of_agree ht hhere (.inl hread))
    · obtain rfl | hr := List.mem_cons.mp hr
      · exact .inl (rd_wrWords_of_agree ht hhere (.inr hplace))
      · exact .inr ⟨r, hr, hplace⟩

end

/-! ## REPLICA_COMPARE (R132) -/

theorem replicaCompare_agreed {s : State} {e : Nat}
    (h : ∀ q, q < 4 → s.rdWords (committedEntry q e) 32 = s.rdWords (committedEntry 0 e) 32) :
    s.replicaCompare e = s := by
  unfold State.replicaCompare
  exact if_pos (List.all_eq_true.mpr fun q hq => beq_iff_eq.mpr (h q (List.mem_range.mp hq)))

/-- Three copies that agree rewrite the fourth (R132). -/
theorem replicaCompare_majority {s : State} {e m : Nat} (hm : majorityOf (fun q => s.rdWords (committedEntry q e) 32) = some m)
    (hdiffers : ∃ q < 4, s.rdWords (committedEntry q e) 32 ≠ s.rdWords (committedEntry 0 e) 32) :
    s.replicaCompare e =
      (((List.range 4).foldl (fun t q => t.wrWords (committedEntry q e) (s.rdWords (committedEntry m e) 32)) s).bumpBy
        Reg.PCU_REPLICA_FIX 1).raise .pcu 4 [(16, e), (1, 0)] := by
  obtain ⟨q, hq, hne⟩ := hdiffers
  unfold majorityOf at hm
  unfold State.replicaCompare
  rw [if_neg fun hall => hne (beq_iff_eq.mp (List.all_eq_true.mp hall q (List.mem_range.mpr hq)))]
  simp only [hm]
  rfl

theorem committedEntry_injective {p q e i j : Nat} (hi : i < 32) (hj : j < 32)
    (h : committedEntry p e + 4 * i = committedEntry q e + 4 * j) : p = q ∧ i = j := by
  unfold committedEntry at h
  omega

section
variable {s : State} {e : Fin 8192}

/-- The compare of an entry of which one word of one copy has changed brings it back. -/
theorem replicaCompare_repairs (hc : s.canon = true)
    (hagree : ∀ q, q < 4 → ∀ i, i < 32 → s.rd (committedEntry q e + 4 * i) = s.rd (committedEntry 0 e + 4 * i))
    {p : Fin 4} {i : Fin 32} {x : Word} (hx : x.toNat ≠ s.rd (committedEntry p e + 4 * i.val)) :
    (s.wr (committedEntry p e + 4 * i.val) x.toNat).replicaCompare e =
      (s.bumpBy Reg.PCU_REPLICA_FIX 1).raise .pcu 4 [(16, e), (1, 0)] := by
  let faulty := s.wr (committedEntry p e + 4 * i.val) x.toNat
  have hfaulty : Writes anyWord s faulty := writes_wr (Writes.refl s) rfl
  have hother : ∀ q, q < 4 → q ≠ p.val → faulty.rdWords (committedEntry q e) 32 = s.rdWords (committedEntry 0 e) 32 :=
    fun q hq hqp => rdWords_congr fun j hj =>
      (rd_wr_ne hc fun h => hqp (committedEntry_injective hj i.isLt h).1).trans (hagree q hq j hj)
  have hdiffers : faulty.rdWords (committedEntry p e) 32 ≠ s.rdWords (committedEntry 0 e) 32 := fun h => by
    have hword := congrArg (·.getD i.val 0) h
    simp only [getD_rdWords _ _ i.isLt] at hword
    rw [← hagree p p.isLt i i.isLt, rd_wr_same hc, Nat.mod_eq_of_lt x.isLt] at hword
    exact hx hword
  obtain ⟨m, hm, hmajor⟩ := majorityOf_three (copy := fun q => faulty.rdWords (committedEntry q e) 32) hother hdiffers
  have hsome : ∃ q < 4, faulty.rdWords (committedEntry q e) 32 ≠ faulty.rdWords (committedEntry 0 e) 32 := by
    by_contra hnone
    push Not at hnone
    have hnext : (p + 1).val ≠ p.val := (by decide : ∀ p : Fin 4, (p + 1).val ≠ p.val) p
    exact hdiffers ((hnone p p.isLt).trans ((hnone _ (p + 1).isLt).symm.trans (hother _ (p + 1).isLt hnext)))
  have hback : (List.range 4).foldl (fun t q => t.wrWords (committedEntry q e) (s.rdWords (committedEntry 0 e) 32)) faulty = s := by
    refine eq_of_rd_eq hc (writes_foldl hfaulty fun t q _ ht => writes_wrWords ht _ _) fun j => ?_
    refine rd_foldl_wrWords_of_agree (hfaulty.canon hc) (fun q hq k hk => ?_) ?_
    · rw [length_rdWords] at hk
      rw [getD_rdWords s _ hk, hagree q (List.mem_range.mp hq) k hk]
    · by_cases hj : j = committedEntry p e + 4 * i.val
      · exact .inr ⟨p, List.mem_range.mpr p.isLt, i, by rw [length_rdWords]; exact i.isLt, hj⟩
      · exact .inl (rd_wr_ne hc hj)
  refine (replicaCompare_majority hm hsome).trans ?_
  rw [hmajor, hback]

end

/-! ## A record's copies -/

/-- The copies of a record that are not as it was written. -/
def State.differing (s : State) (table index : Nat) : List Nat :=
  (List.range 4).filter (fun q => s.copyOf table index q != s.recordWords table index)

section
variable {s : State} {table index p q : Nat} {l : List Nat}

theorem recordWords_setCopy (s : State) (table index p : Nat) (l : List Nat) (tbl i : Nat) :
    (s.setCopy table index p l).recordWords tbl i = s.recordWords tbl i := rfl

theorem badCopy_setCopy_same (hl : l ≠ s.recordWords table index) : (s.setCopy table index p l).badCopy table index p = some l := by
  simp [State.setCopy, State.badCopy, hl]

theorem badCopy_setCopy_ne (hq : q ≠ p) : (s.setCopy table index p l).badCopy table index q = s.badCopy table index q := by
  have hrest : ((s.ftu.copies.filter (fun x => !(x.1 == table * 0x1000000 + index && x.2.1 == p))).find?
      (fun x => x.1 == table * 0x1000000 + index && x.2.1 == q)) =
      s.ftu.copies.find? (fun x => x.1 == table * 0x1000000 + index && x.2.1 == q) := by
    rw [List.find?_filter]
    congr 1
    funext x
    by_cases hx : x.2.1 = q
    · simp [hx, hq, beq_eq_decide]
    · simp [hx]
  unfold State.badCopy State.setCopy
  split
  · rw [hrest]
  · rw [List.find?_cons_of_neg (by simp [Ne.symm hq]), hrest]

theorem copyOf_setCopy_same (hl : l ≠ s.recordWords table index) : (s.setCopy table index p l).copyOf table index p = l := by
  rw [State.copyOf, badCopy_setCopy_same hl, Option.getD_some]

theorem copyOf_setCopy_ne (hq : q ≠ p) : (s.setCopy table index p l).copyOf table index q = s.copyOf table index q := by
  rw [State.copyOf, badCopy_setCopy_ne hq, recordWords_setCopy]
  rfl

theorem copyOf_eq (h : s.badCopy table index q = none) : s.copyOf table index q = s.recordWords table index := by
  rw [State.copyOf, h, Option.getD_none]

theorem recordWritten_eq (hshadow : s.ftu.shadow = none) (table index : Nat) : s.recordWritten table index = { s with ftu := { s.ftu with
    copies := s.ftu.copies.filter (fun x => x.1 != table * 0x1000000 + index)
    shadows := Assoc.erase s.ftu.shadows (table * 0x1000000 + index) } } := by
  simp only [State.recordWritten, State.shadowWrite, hshadow]

theorem badCopy_congr {t : State} (h : t.ftu = s.ftu) (table index q : Nat) : t.badCopy table index q = s.badCopy table index q := by
  rw [State.badCopy, State.badCopy, h]

/-- A record that has been written has no copy that differs. -/
theorem badCopy_recordWritten (hshadow : s.ftu.shadow = none) (table index q : Nat) :
    (s.recordWritten table index).badCopy table index q = none := by
  rw [recordWritten_eq hshadow, State.badCopy, Option.map_eq_none_iff, List.find?_eq_none]
  intro x hx
  have hother := (List.mem_filter.mp hx).2
  simp_all

/-! ## SHADOW_COMPARE (R155) -/

/-- A good shadow record rewrites the copies that differ from it; where none does the compare changes nothing. -/
theorem compareRecord_good (hshadow : s.ftu.shadow = none) (hkept : Assoc.get? s.ftu.shadows (table * 0x1000000 + index) = none) :
    s.compareRecord table index false = if (s.differing table index).isEmpty then s else
      ((s.recordWritten table index).bumpBy Reg.FTU_SHADOW_FIX (s.differing table index).length).raise .ftu 1
        [(8, table), (32, index), (8, (s.differing table index).headD 0), (1, 0)] := by
  have hrecord : s.shadowOf table index = (s.recordWords table index, recordCrc (s.recordWords table index)) := by
    rw [State.shadowOf, hkept]
  have hset : s.setRecord table index (s.recordWords table index) = s := if_pos rfl
  simp only [State.compareRecord, State.when, State.shadowRead, hshadow, hrecord, hset, Bool.false_eq_true, if_false, Bool.not_false,
    Bool.and_self, BEq.rfl, if_true]
  rfl

end

/-- Where one copy alone is not as written, it is the one that differs. -/
theorem differing_one {s : State} {table index : Nat} {p : Fin 4} {l : List Nat} (hl : l ≠ s.recordWords table index)
    (hsound : ∀ q, q < 4 → s.badCopy table index q = none) : (s.setCopy table index p l).differing table index = [p.val] := by
  have hplace : ∀ q ∈ List.range 4, ((s.setCopy table index p l).copyOf table index q !=
      (s.setCopy table index p l).recordWords table index) = (q == p.val) := fun q hq => by
    rw [recordWords_setCopy]
    by_cases hqp : q = p.val
    · rw [hqp, copyOf_setCopy_same hl, BEq.rfl, bne_iff_ne.mpr hl]
    · rw [copyOf_setCopy_ne hqp, copyOf_eq (hsound q (List.mem_range.mp hq)), bne_self_eq_false, beq_false_of_ne hqp]
  rw [State.differing, List.filter_congr hplace]
  exact (by decide : ∀ p : Fin 4, (List.range 4).filter (fun q => q == p.val) = [p.val]) p

theorem differing_none {s : State} {table index : Nat} (hsound : ∀ q, q < 4 → s.badCopy table index q = none) :
    s.differing table index = [] :=
  List.filter_eq_nil_iff.mpr fun q hq => by
    rw [copyOf_eq (hsound q (List.mem_range.mp hq)), bne_self_eq_false]
    exact Bool.false_ne_true

theorem exec_shadowCompare {s : State} (hpowered : s.powered = true) (table : Fin 5) (index : Nat) (poisoned : Bool) (found : RecordFault) :
    exec (.shadowCompare table index poisoned found) s = ok ((s.takeFault table index found).compareRecord table index poisoned) := by
  simp only [exec, execShadowCompare, State.when, hpowered, if_true]

/-! ## A record that nothing can restore (R155, R431, R434) -/

/-- The words that an uncorrectable error, its report and a fault's report change. -/
def reportWord (k : Nat) : Bool := words [Reg.SUP_ECC_UNCORR, Reg.QE_ARB_LOST] k || logWord k

theorem within_eccUncorr (s : State) (u memory : Nat) : Within reportWord s (s.eccUncorr u memory) := by
  have hlogged : Within reportWord s ((s.bump Reg.SUP_ECC_UNCORR).hlog 14 u (payload [(8, u), (8, Config.memoryCode memory)])) :=
    within_hlog (within_put (Within.refl s) (by decide) (.inr (by decide))) fun k hk => by simp only [reportWord, hk, Bool.or_true]
  unfold State.eccUncorr State.oncePerTick
  exact within_ite hlogged (within_raise (within_same hlogged rfl rfl rfl) (by decide) (by decide))

theorem eccUncorr_ftu (s : State) (u memory : Nat) : (s.eccUncorr u memory).ftu = s.ftu := by
  unfold State.eccUncorr State.oncePerTick
  dsimp only
  split
  · rw [State.hlog_ftu, State.bump_ftu]
  · rw [State.raise_ftu]
    dsimp only
    rw [State.hlog_ftu, State.bump_ftu]

/-- A flood entry as its words and the version give it. -/
theorem recordWords_flood {s t : State} {index : Nat} (hversion : t.get Reg.PCU_TBL_VERSION = s.get Reg.PCU_TBL_VERSION)
    (hstaged : t.rd (0x12900000 + 4 * index) = s.rd (0x12900000 + 4 * index))
    (hnow : t.rd (0x12E00000 + 4 * index) = s.rd (0x12E00000 + 4 * index)) : t.recordWords 4 index = s.recordWords 4 index := by
  simp only [State.recordWords, State.bankOrder, hversion, hstaged, hnow]

theorem reportWord_window {k : Nat} (hk : 0x12000000 ≤ k) : reportWord k = false := by
  simp [reportWord, logWord, inRange, words]
  omega

/-- Without a good shadow record and without a majority a record escalates (R155). -/
theorem compareRecord_escalates {s : State} {index : Nat} (hshadow : s.ftu.shadow = none)
    (hsplit : majorityOf ((s.eccUncorr 4 12).copyOf 4 index) = none) : s.compareRecord 4 index true =
      ((((s.eccUncorr 4 12).invalidate 4 index).recordWritten 4 index).raise .ftu 1
        [(8, 4), (32, index), (8, ((s.eccUncorr 4 12).differing 4 index).headD 0), (1, 1)]).fault 4 5 := by
  have hshadow' : (s.eccUncorr 4 12).ftu.shadow = none := by rw [eccUncorr_ftu, hshadow]
  unfold majorityOf at hsplit
  unfold State.compareRecord
  simp only [State.when, if_true, State.shadowRead, hshadow', hsplit, Bool.not_true, Bool.and_false, Bool.false_and, Bool.false_eq_true,
    if_false]
  rfl

theorem clearBit_top (x : Nat) : clearBit x 31 % 2 ^ 32 = x % 2 ^ 31 := by
  simp only [clearBit, setBits]
  omega

/-- Bit 31 of a word cleared. -/
def State.clearTop (s : State) (k : Nat) : State := s.wr k (clearBit (s.rd k) 31)

theorem canon_clearTop {s : State} (hc : s.canon = true) (k : Nat) : (s.clearTop k).canon = true := canon_wr hc

theorem rd_clearTop {s : State} (hc : s.canon = true) (k : Nat) : (s.clearTop k).rd k = s.rd k % 2 ^ 31 := by
  rw [State.clearTop, rd_wr_same hc, clearBit_top]

theorem rd_foldl_clearTop {s : State} (hc : s.canon = true) {bases : List Nat} (hdistinct : bases.Nodup) {b : Nat} (hb : b ∈ bases)
    (d : Nat) : (bases.foldl (fun s b => s.clearTop (b + d)) s).rd (b + d) = s.rd (b + d) % 2 ^ 31 := by
  induction bases generalizing s with
  | nil => exact absurd hb List.not_mem_nil
  | cons a bases ih =>
    obtain ⟨hfirst, hdistinct'⟩ := List.nodup_cons.mp hdistinct
    by_cases hin : b ∈ bases
    · have hne : b + d ≠ a + d := fun h => hfirst (Nat.add_right_cancel h ▸ hin)
      rw [List.foldl_cons, ih (canon_clearTop hc _) hdistinct' hin, State.clearTop, rd_wr_ne hc hne]
    · obtain rfl := (List.mem_cons.mp hb).resolve_right hin
      have hrest : Writes (fun k => decide (k ≠ b + d)) (s.clearTop (b + d))
          (bases.foldl (fun s b => s.clearTop (b + d)) (s.clearTop (b + d))) :=
        writes_foldl (Writes.refl _) fun t c hmem ht => writes_wr ht
          (decide_eq_true fun h => hin (Nat.add_right_cancel h ▸ hmem))
      rw [List.foldl_cons, hrest.within.words (canon_clearTop hc _) _ (by simp), rd_clearTop hc]

/-- The five words of a flood entry, less its place (R157). -/
def floodBases : List Nat := [0x12900000, 0x12E00000, 0x12E04000, 0x12E08000, 0x12E0C000]

theorem invalidate_flood (s : State) (index : Nat) : s.invalidate 4 index = floodBases.foldl (fun s b => s.clearTop (b + 4 * index)) s := rfl

theorem writes_invalidate_flood (s : State) (index : Nat) : Writes (fun k => decide (0x12000000 ≤ k)) s (s.invalidate 4 index) := by
  rw [invalidate_flood]
  refine writes_foldl (Writes.refl s) fun t b hb ht => writes_wr ht (decide_eq_true ?_)
  have hwindow : ∀ b ∈ floodBases, 0x12000000 ≤ b := by decide
  exact (hwindow b hb).trans (Nat.le_add_right b _)

theorem within_fault (s : State) (u code : Nat) : Within (fun k => reportWord k || words [Reg.UNIT_FAULT u] k) s (s.fault u code) := by
  have hlogged : ∀ {t : State} (l : List (Nat × Nat)), Within (fun k => reportWord k || words [Reg.UNIT_FAULT u] k) s t →
      Within (fun k => reportWord k || words [Reg.UNIT_FAULT u] k) s (t.hlog 12 u (payload l)) := fun l h =>
    within_hlog h fun k hk => by simp only [reportWord, hk, Bool.or_true, Bool.true_or]
  have hset := within_put (v := code) (Within.refl s) (area := fun k => reportWord k || words [Reg.UNIT_FAULT u] k) (f := Reg.UNIT_FAULT u)
    (by rw [words_key (List.mem_singleton_self _), Bool.or_true]) (.inl (show 23 < 32 by decide))
  unfold State.fault
  exact within_ite (within_raise (hlogged _ hset) rfl rfl) (hlogged _ (Within.refl s))

/-- FAULT of FTU takes the first code (R434). -/
theorem get_fault_ftu {s : State} (hc : s.canon = true) (hfree : s.get (Reg.UNIT_FAULT 4) = 0) (code : Nat) :
    (s.fault 4 code).get (Reg.UNIT_FAULT 4) = code % 2 ^ 8 := by
  have hset : (s.put (Reg.UNIT_FAULT 4) code).canon = true := canon_put hc
  have hraised : ∀ t : State, Within (words [Reg.QE_ARB_LOST]) t (t.raise .sup 5 [(8, 4), (8, code)]) := fun t =>
    within_raise (Within.refl t) (by decide) (by decide)
  rw [State.fault, if_pos hfree, (hraised _).get_eq ((keeps_hlog (Keeps.refl _)).canon hset) (by decide) (by decide),
    get_hlog hset (by decide) (by decide), get_put_same hc (by decide)]
  rfl

section
variable {s : State} {index : Nat}

theorem copyOf_congr {t : State} (hftu : t.ftu = s.ftu) {table q : Nat} (hrecord : t.recordWords table index = s.recordWords table index) :
    t.copyOf table index q = s.copyOf table index q := by
  rw [State.copyOf, State.copyOf, badCopy_congr hftu, hrecord]

/-- Two copies that are not as written leave no majority, whatever an error's report has changed. -/
theorem majorityOf_twoFaults (hc : s.canon = true) {p q : Fin 4} (hpq : p ≠ q) {a b : List Nat}
    (hsound : ∀ r, r < 4 → s.badCopy 4 index r = none) (ha : a ≠ s.recordWords 4 index) (hb : b ≠ s.recordWords 4 index) :
    majorityOf ((((s.setCopy 4 index p a).setCopy 4 index q b).eccUncorr 4 12).copyOf 4 index) = none := by
  let faulty := (s.setCopy 4 index p a).setCopy 4 index q b
  have hreport := within_eccUncorr faulty 4 12
  have hwords : ∀ k, 0x12000000 ≤ k → (faulty.eccUncorr 4 12).rd k = faulty.rd k := fun k hk => hreport.words hc k (reportWord_window hk)
  have hrecord : (faulty.eccUncorr 4 12).recordWords 4 index = faulty.recordWords 4 index :=
    recordWords_flood (hreport.get_eq hc (by decide) (by decide)) (hwords _ (by omega)) (hwords _ (by omega))
  have hcopy : ∀ r, (faulty.eccUncorr 4 12).copyOf 4 index r = faulty.copyOf 4 index r := fun r =>
    copyOf_congr (eccUncorr_ftu faulty 4 12) hrecord
  have hplaces : p.val ≠ q.val := fun h => hpq (Fin.ext h)
  refine majorityOf_split (l := s.recordWords 4 index) hpq (fun r hr hrp hrq => ?_) ?_ ?_
  · rw [hcopy, copyOf_setCopy_ne hrq, copyOf_setCopy_ne hrp, copyOf_eq (hsound r hr)]
  · rwa [hcopy, copyOf_setCopy_ne hplaces, copyOf_setCopy_same ha]
  · rwa [hcopy, copyOf_setCopy_same (s := s.setCopy 4 index p a) hb]

/-- A flood entry that nothing can restore becomes invalid in both banks, and FTU's FAULT says so. -/
theorem shadowCompare_escalates (hc : s.canon = true) (hpowered : s.powered = true) (hshadow : s.ftu.shadow = none) {p q : Fin 4}
    (hpq : p ≠ q) {a b : List Nat} (hsound : ∀ r, r < 4 → s.badCopy 4 index r = none) (ha : a ≠ s.recordWords 4 index)
    (hb : b ≠ s.recordWords 4 index) : completes (.shadowCompare 4 index true ⟨[(p, a), (q, b)], none⟩) s fun t =>
      (∀ b ∈ floodBases, t.rd (b + 4 * index) = s.rd (b + 4 * index) % 2 ^ 31) ∧
      (s.get (Reg.UNIT_FAULT 4) = 0 → t.get (Reg.UNIT_FAULT 4) = 5) := by
  let faulty := (s.setCopy 4 index p a).setCopy 4 index q b
  have hescalates := compareRecord_escalates (s := faulty) hshadow (majorityOf_twoFaults hc hpq hsound ha hb)
  let reported := faulty.eccUncorr 4 12
  have hreported : Within reportWord s reported := (within_same (t := faulty) (Within.refl s) rfl rfl rfl).trans (within_eccUncorr faulty 4 12)
  have hinvalid := writes_invalidate_flood reported index
  have hshadow' : (reported.invalidate 4 index).ftu.shadow = none := by
    rw [hinvalid.rest]
    exact (congrArg FtuState.shadow (eccUncorr_ftu faulty 4 12)).trans hshadow
  let written := (reported.invalidate 4 index).recordWritten 4 index
  have hwritten : Within (words [Reg.QE_ARB_LOST]) (reported.invalidate 4 index) (written.raise .ftu 1
      [(8, 4), (32, index), (8, (reported.differing 4 index).headD 0), (1, 1)]) := by
    have hsame : written = _ := recordWritten_eq hshadow' 4 index
    exact within_raise (within_same (Within.refl _) (by rw [hsame]) (by rw [hsame]) (by rw [hsame])) (by decide) (by decide)
  have hc₁ := hreported.canon hc
  have hc₂ := hinvalid.canon hc₁
  have hc₃ := hwritten.canon hc₂
  refine ⟨_, (exec_shadowCompare hpowered 4 index true _).trans (congrArg ok hescalates), fun b hb => ?_, fun hfree => ?_⟩
  · have hwindow : 0x12000000 ≤ b + 4 * index :=
      ((by decide : ∀ b ∈ floodBases, 0x12000000 ≤ b) b hb).trans (Nat.le_add_right b _)
    have hquiet := reportWord_window hwindow
    have hfault : words [Reg.UNIT_FAULT 4] (b + 4 * index) = false := by
      simp [words]
      omega
    have hlost : words [Reg.QE_ARB_LOST] (b + 4 * index) = false := by
      simp [words]
      omega
    rw [(within_fault _ 4 5).words hc₃ _ (by rw [hquiet, hfault]; rfl), hwritten.words hc₂ _ hlost, invalidate_flood,
      rd_foldl_clearTop hc₁ (by decide) hb, hreported.words hc _ hquiet]
  · refine get_fault_ftu hc₃ ?_ 5
    rw [hwritten.get_eq hc₂ (by decide) (by decide), hinvalid.get_eq hc₁ (by decide) (by decide),
      hreported.get_eq hc (by decide) (by decide), hfree]

end

/-- A copy that differs is rewritten from the good shadow record, counted and reported. -/
theorem shadowCompare_fixes {s : State} (hc : s.canon = true) (hpowered : s.powered = true) (hshadow : s.ftu.shadow = none)
    {table : Fin 5} {index : Nat} (hkept : Assoc.get? s.ftu.shadows (table * 0x1000000 + index) = none)
    (hsound : ∀ q, q < 4 → s.badCopy table index q = none) (p : Fin 4) {l : List Nat} (hl : l ≠ s.recordWords table index) :
    completes (.shadowCompare table index false ⟨[(p, l)], none⟩) s fun t =>
      t.get Reg.FTU_SHADOW_FIX = (s.get Reg.FTU_SHADOW_FIX + 1) % 2 ^ 64 ∧
      posted s t .ftu 1 [(8, table), (32, index), (8, p), (1, 0)] ∧ (∀ q, q < 4 → t.badCopy table index q = none) ∧
      NoisyFrame (words [Reg.FTU_SHADOW_FIX]) s { s with ftu := t.ftu } t := by
  let faulty := s.setCopy table index p l
  let fixed := (faulty.recordWritten table index).bumpBy Reg.FTU_SHADOW_FIX 1
  have hgood := (compareRecord_good (s := faulty) hshadow hkept).trans (by rw [differing_one hl hsound]; rfl :
    _ = fixed.raise .ftu 1 [(8, table), (32, index), (8, p), (1, 0)])
  have hwritten : faulty.recordWritten table index = { s with ftu := (faulty.recordWritten table index).ftu } := by
    rw [recordWritten_eq (s := faulty) hshadow]
    rfl
  have hftu : (fixed.raise .ftu 1 [(8, table), (32, index), (8, p), (1, 0)]).ftu = (faulty.recordWritten table index).ftu :=
    (State.raise_ftu ..).trans (State.put_ftu ..)
  obtain ⟨hfix, hposted, hframe⟩ := countedAndRaised hc (u := faulty.recordWritten table index) (by rw [hwritten])
    (by rw [hwritten]) (by rw [hwritten]) (f := Reg.FTU_SHADOW_FIX) (by decide) (by decide) (by decide) (by decide) 1 .ftu 1
    [(8, table), (32, index), (8, p), (1, 0)]
  refine ⟨_, (exec_shadowCompare hpowered table index false _).trans (congrArg ok hgood), hfix, hposted, fun q _ => ?_, ?_⟩
  · rw [badCopy_congr hftu, badCopy_recordWritten (s := faulty) hshadow]
  · rwa [hftu, ← hwritten]

/-- Settles O21: what the compares change is a counter and an event, or the entry's valid bits and FTU's FAULT. -/
theorem comparesRepair : Obligations.ComparesRepair := by
  intro s hc
  refine ⟨fun e p i x hagree hx => ?_, fun e hagree => ?_, fun table index hpowered hshadow hkept hsound =>
    ⟨fun p l hl => shadowCompare_fixes hc hpowered hshadow hkept hsound p hl, ?_⟩,
    fun index p q a b hpowered hpq hshadow _ hsound ha hb => shadowCompare_escalates hc hpowered hshadow hpq hsound ha hb⟩
  · refine ⟨_, rfl, ?_⟩
    rw [List.foldl_cons, List.foldl_nil, replicaCompare_repairs hc hagree hx]
    exact countedAndRaised hc rfl rfl rfl (by decide) (by decide) (by decide) (by decide) 1 .pcu 4 _
  · exact ⟨_, rfl, replicaCompare_agreed fun q hq => rdWords_congr (hagree q hq)⟩
  · refine ⟨_, exec_shadowCompare hpowered table index false noFault, ?_⟩
    refine (compareRecord_good hshadow hkept).trans ?_
    exact if_pos (by rw [differing_none hsound]; rfl)

end Sys2Proof.Machine
end

section
/-! PROOFS. The table operations of FTU (R141, R148, R150, R152, R158): how a slot is written or freed, what INSERT, DELETE and READ
come to, the flushes and the age clock. -/

namespace Sys2Proof.Machine

/-! ## Fields shown together -/

/-- A field of one bit shows the Boolean that was set last. -/
theorem flag_puts_bit {s : State} (hc : s.canon = true) (l : List (Field × Nat)) {f : Field} {b : Bool} {m : List (Field × Nat)}
    (hf : f.ok = true) (hwidth : f.width = 1) (h : m.all (fun p => p.1.off f) = true) :
    (s.puts (l ++ (f, bit b) :: m)).flag f = b := by
  rw [State.flag, get_puts_last hc l hf h, hwidth]
  cases b <;> rfl

/-- A result of 0 reads back. -/
theorem get_put_zero {s : State} (hc : s.canon = true) {f : Field} (hf : f.ok = true) : (s.put f 0).get f = 0 := by
  rw [get_put_same hc hf, Nat.zero_mod]

/-- Where nothing but registers has changed, the frame says so. -/
theorem Writes.quietFrame {area : Nat → Bool} {s t : State} (h : Writes area s t) (hc : s.canon = true) : QuietFrame area s s t :=
  ⟨h.within.words hc, h.rest⟩

/-! ## FTU's tables and the slot counts (R138, R159) -/

/-- FTU comes to the state `x`. -/
def State.withFtu (s : State) (x : FtuState) : State := { s with ftu := x }

/-- FTU comes to the state `x`, and the slot counts that it shows follow. -/
def State.recount (s : State) (x : FtuState) : State := (s.withFtu x).countSlots

/-- The words of the slot counts. -/
def slotWord (k : Nat) : Bool := inRange k 0x04001400 0x1C

/-- The learned slots of pipeline `p`. -/
def State.learnedIn (s : State) (p : Nat) : Nat := (s.ftu.macLearned.filter (·.pipe == p)).length

section
variable {area : Nat → Bool} {s : State}

@[simp] theorem withFtu_ftu (s : State) (x : FtuState) : (s.withFtu x).ftu = x := rfl
@[simp] theorem withFtu_events (s : State) (x : FtuState) : (s.withFtu x).events = s.events := rfl

theorem within_withFtu (s : State) (x : FtuState) : Within area s (s.withFtu x) := within_same (Within.refl s) rfl rfl rfl

theorem countSlots_eq (s : State) : s.countSlots = s.puts [(Reg.FTU_LPM_SLOTS, s.ftu.lpm.length),
    (Reg.FTU_MAC_STATIC_SLOTS, s.ftu.macStatic.length), (Reg.FTU_CHANGES, s.ftu.changes.length),
    (Reg.FTU_MAC_LEARNED 0, s.learnedIn 0), (Reg.FTU_MAC_LEARNED 1, s.learnedIn 1), (Reg.FTU_MAC_LEARNED 2, s.learnedIn 2),
    (Reg.FTU_MAC_LEARNED 3, s.learnedIn 3)] := by
  have hpipes : List.range 4 = [0, 1, 2, 3] := rfl
  simp only [State.countSlots, State.puts, State.learnedIn, hpipes, List.foldl_cons, List.foldl_nil, State.put_ftu]

theorem writes_countSlots (s : State) : Writes slotWord s s.countSlots := by
  rw [countSlots_eq]
  exact writes_puts (Writes.refl s) rfl

theorem staticSlots_countSlots (hc : s.canon = true) :
    s.countSlots.get Reg.FTU_MAC_STATIC_SLOTS = s.ftu.macStatic.length % 2 ^ 21 := by
  rw [countSlots_eq]
  exact get_puts_last hc [_] (by decide) (by simp only [List.all_cons, List.all_nil]; decide)

theorem recount_rest (s : State) (x : FtuState) : s.recount x = { s.withFtu x with regs := (s.recount x).regs } :=
  (writes_countSlots (s.withFtu x)).rest

@[simp] theorem recount_ftu (s : State) (x : FtuState) : (s.recount x).ftu = x := by rw [recount_rest]; rfl
@[simp] theorem recount_events (s : State) (x : FtuState) : (s.recount x).events = s.events := by rw [recount_rest]; rfl

theorem within_recount (s : State) (x : FtuState) : Within slotWord s (s.recount x) :=
  (within_withFtu s x).trans (writes_countSlots _).within

/-- What changes slot counts alone leaves the role as it was. -/
theorem pairRole_within_slots {t : State} (h : Within slotWord s t) (hc : s.canon = true) : t.pairRole = s.pairRole :=
  pairRole_congr (h.get_eq hc (by decide) (by decide))

end

/-! ## The change list (R138) -/

/-- A change has been noted: of the registers only slot counts have changed, and the static slots stand. -/
structure Noted (s t : State) : Prop where
  within : Within slotWord s t
  macStatic : t.ftu.macStatic = s.ftu.macStatic

theorem noted_recordWritten {s₀ s : State} (h : Noted s₀ s) (table index : Nat) : Noted s₀ (s.recordWritten table index) := by
  have hsame : ∃ copies shadows held order, s.recordWritten table index = { s with
      ftu := { s.ftu with copies := copies, shadows := shadows }, sup := { s.sup with hbmHeld := held, fillOrder := order } } := by
    unfold State.recordWritten State.shadowWrite State.hbmWrite
    dsimp only
    split
    · split <;> exact ⟨_, _, _, _, rfl⟩
    · exact ⟨_, _, _, _, rfl⟩
  obtain ⟨copies, shadows, held, order, hsame⟩ := hsame
  rw [hsame]
  exact ⟨within_same h.within rfl rfl rfl, h.macStatic⟩

/-- An index that is listed, or for which the list has room, is noted. -/
theorem noteChange_noted {s : State} {table index : Nat}
    (h : s.ftu.changes.contains (table * 0x1000000 + index) = true ∨ s.ftu.changes.length < 4096) :
    ∃ t, s.noteChange table index = some t ∧ Noted s t := by
  by_cases hlisted : s.ftu.changes.contains (table * 0x1000000 + index) = true
  · exact ⟨_, if_pos hlisted, noted_recordWritten ⟨Within.refl s, rfl⟩ table index⟩
  · have hroom : ¬ 4096 ≤ s.ftu.changes.length := Nat.not_le.mpr (h.resolve_left hlisted)
    refine ⟨_, (if_neg hlisted).trans (if_neg hroom), noted_recordWritten ⟨?_, ?_⟩ table index⟩
    · exact within_put (within_withFtu s _) (by decide) (.inl (by decide))
    · rw [State.put_ftu]

/-! ## Prefixes (R141, R158) -/

/-- A length that some staged LPM entry of the same family and VRF has is one of the lengths in use. -/
theorem lengths_contains {l : List LpmSlot} {a : LpmArg}
    (h : l.any (fun y => y.stagedValid && y.fam == a.fam && y.vrf == a.vrf && y.len == a.len) = true) :
    (((l.filter (fun x => x.stagedValid && x.fam == a.fam && x.vrf == a.vrf)).map (·.len)).eraseDups).contains a.len = true := by
  obtain ⟨y, hy, hsame⟩ := List.any_eq_true.mp h
  obtain ⟨hkey, hlen⟩ := Bool.and_eq_true_iff.mp hsame
  rw [List.contains_iff_mem, List.mem_eraseDups, List.mem_map]
  exact ⟨y, List.mem_filter.mpr ⟨hy, hkey⟩, beq_iff_eq.mp hlen⟩

/-- The first entry under `p` is the first under `p` and `q`, where it meets `q`. -/
theorem find?_and_of_find? {α : Type} {p q : α → Bool} {l : List α} {x : α} (h : l.find? p = some x) (hq : q x = true) :
    l.find? (fun y => p y && q y) = some x := by
  obtain ⟨hp, before, after, hl, hbefore⟩ := List.find?_eq_some_iff_append.mp h
  refine List.find?_eq_some_iff_append.mpr ⟨by rw [hp, hq]; rfl, before, after, hl, fun y hy => ?_⟩
  rw [(Bool.not_eq_true' _).mp (hbefore y hy)]
  rfl

theorem putLpm_eq (s : State) (x : LpmSlot) :
    s.putLpm x = s.recount { s.ftu with lpm := x :: s.ftu.lpm.filter (fun y => lpmIndex y != lpmIndex x) } := rfl

theorem find?_putLpm (s : State) {x : LpmSlot} {a : LpmArg} (h : lpmIs x a = true) :
    (s.putLpm x).ftu.lpm.find? (lpmIs · a) = some x := by
  rw [putLpm_eq, recount_ftu]
  exact List.find?_cons_of_pos h

/-- Once the slot of an LPM entry has been written, RESULT is 0 and a read finds the slot. -/
theorem putLpm_shows {s t : State} {x : LpmSlot} {a : LpmArg} (hnoted : Noted s t) (hc : s.canon = true) (hpair : s.pairRole = false)
    (hkey : lpmIs x a = true) : (t.putLpm x).pairRole = false ∧
      ((t.putLpm x).put Reg.FTU_LPM_OP_STATUS_RESULT 0).get Reg.FTU_LPM_OP_STATUS_RESULT = 0 ∧
      ((t.putLpm x).put Reg.FTU_LPM_OP_STATUS_RESULT 0).ftu.lpm.find? (lpmIs · a) = some x := by
  have hwithin : Within slotWord s (t.putLpm x) := hnoted.within.trans (within_recount t _)
  refine ⟨(pairRole_within_slots hwithin hc).trans hpair, get_put_zero (hwithin.canon hc) (by decide), ?_⟩
  rw [State.put_ftu, find?_putLpm t hkey]

section
variable {s t : State} {r : Requester} {c : Nat} (hc : s.canon = true) (hmay : s.mayWrite r Reg.FTU_LPM_OP_CMD_OP.key = true)
  (hpair : s.pairRole = false) (hbusy : s.tblBusy = false)

include hmay hpair hbusy in
/-- Outside a pair INSERT does what its operation says, and shows the result. -/
theorem exec_lpmInsert (hop : s.lpmInsertOp s.lpmArg = (c, t)) (halone : t.pairRole = false) :
    exec (.lpmInsert r) s = ok (t.put Reg.FTU_LPM_OP_STATUS_RESULT c) := by
  simp [exec, execLpmInsert, hmay, localOnly_alone hpair, State.lpmOp, hbusy, hop, carry_alone halone]

include hmay hpair hbusy in
/-- Outside a pair DELETE does what its operation says, and shows the result. -/
theorem exec_lpmDelete (hop : s.lpmDeleteOp s.lpmArg = (c, t)) (halone : t.pairRole = false) :
    exec (.lpmDelete r) s = ok (t.put Reg.FTU_LPM_OP_STATUS_RESULT c) := by
  simp [exec, execLpmDelete, hmay, localOnly_alone hpair, State.lpmOp, hbusy, hop, carry_alone halone]

theorem lpmIs_of_found {l : List LpmSlot} {a : LpmArg} {x : LpmSlot} (h : l.find? (lpmIs · a) = some x) : lpmIs x a = true :=
  List.find?_some (p := (lpmIs · a)) h

section
variable {x : LpmSlot} (hgood : s.lpmArg.bad = false) (hfound : s.ftu.lpm.find? (lpmIs · s.lpmArg) = some x)

section
variable (hlisted : s.ftu.changes.contains (0x1000000 + lpmIndex x) = true)

include hc hmay hpair hbusy hgood hfound hlisted in
/-- INSERT of an LPM entry that the table holds. -/
theorem lpmInsert_completes (hlength : s.ftu.lpm.any (fun y => y.stagedValid && y.fam == s.lpmArg.fam && y.vrf == s.lpmArg.vrf &&
      y.len == s.lpmArg.len) = true) :
    completes (.lpmInsert r) s fun t => t.get Reg.FTU_LPM_OP_STATUS_RESULT = 0 ∧
      t.ftu.lpm.find? (lpmIs · s.lpmArg) = some { x with stagedValid := true, stagedNh := s.lpmArg.nh } := by
  have hkey := lpmIs_of_found hfound
  obtain ⟨u, hnote, hnoted⟩ := noteChange_noted (s := s) (table := 1) (.inl hlisted)
  have hop : s.lpmInsertOp s.lpmArg = (0, u.putLpm { x with stagedValid := true, stagedNh := s.lpmArg.nh }) := by
    simp only [State.lpmInsertOp, hgood, lengths_contains hlength, hfound, hnote]
    rfl
  obtain ⟨halone, hshows⟩ := putLpm_shows (x := { x with stagedValid := true, stagedNh := s.lpmArg.nh }) hnoted hc hpair hkey
  exact ⟨_, exec_lpmInsert hmay hpair hbusy hop halone, hshows⟩

include hc hmay hpair hbusy hgood hfound hlisted in
/-- DELETE of an LPM entry that is staged and in force: it stays, no longer staged. -/
theorem lpmDelete_completes (hstaged : x.stagedValid = true) (hnow : x.validNow = true) :
    completes (.lpmDelete r) s fun t => t.get Reg.FTU_LPM_OP_STATUS_RESULT = 0 ∧
      t.ftu.lpm.find? (lpmIs · s.lpmArg) = some { x with stagedValid := false } := by
  have hkey := lpmIs_of_found hfound
  obtain ⟨u, hnote, hnoted⟩ := noteChange_noted (s := s) (table := 1) (.inl hlisted)
  have hop : s.lpmDeleteOp s.lpmArg = (0, u.putLpm { x with stagedValid := false }) := by
    simp only [State.lpmDeleteOp, hgood, find?_and_of_find? hfound hstaged, hnote, hnow]
    rfl
  obtain ⟨halone, hshows⟩ := putLpm_shows (x := { x with stagedValid := false }) hnoted hc hpair hkey
  exact ⟨_, exec_lpmDelete hmay hpair hbusy hop halone, hshows⟩

end

include hmay hbusy hgood hfound in
theorem exec_lpmRead_found : exec (.lpmRead r) s = ok (s.puts [(Reg.FTU_LPM_OP_STATUS_STAGED_VALID, bit x.stagedValid),
    (Reg.FTU_LPM_OP_STATUS_COMMITTED_VALID, bit x.validNow), (Reg.FTU_LPM_OP_DATA, x.stagedNh),
    (Reg.FTU_LPM_OP_STATUS_RESULT, 0)]) := by
  simp only [exec, execLpmRead, hmay, State.lpmOp, hbusy, hgood, hfound]
  rfl

include hc hmay hbusy hgood hfound in
/-- READ shows what is staged of an LPM entry, and in which banks it is valid. -/
theorem lpmRead_found : completes (.lpmRead r) s fun t => t.get Reg.FTU_LPM_OP_STATUS_RESULT = 0 ∧
    t.flag Reg.FTU_LPM_OP_STATUS_STAGED_VALID = x.stagedValid ∧ t.flag Reg.FTU_LPM_OP_STATUS_COMMITTED_VALID = x.validNow ∧
    t.get Reg.FTU_LPM_OP_DATA = x.stagedNh % 2 ^ 16 ∧
    QuietFrame (words [Reg.FTU_LPM_OP_STATUS_RESULT, Reg.FTU_LPM_OP_DATA]) s s t :=
  ⟨_, exec_lpmRead_found hmay hbusy hgood hfound, get_puts_last hc [_, _, _] (by decide) (by simp +decide),
    flag_puts_bit hc [] (by decide) rfl (by simp +decide), flag_puts_bit hc [_] (by decide) rfl (by simp +decide),
    get_puts_last hc [_, _] (by decide) (by simp +decide), (writes_puts (Writes.refl s) rfl).quietFrame hc⟩

end

section
variable (hgood : s.lpmArg.bad = false) (habsent : s.ftu.lpm.find? (lpmIs · s.lpmArg) = none)

include hc hmay hpair hbusy hgood habsent in
/-- DELETE of an LPM entry that the table does not hold. -/
theorem lpmDelete_absent : completes (.lpmDelete r) s fun t => t.get Reg.FTU_LPM_OP_STATUS_RESULT = 3 ∧
    QuietFrame (words [Reg.FTU_LPM_OP_STATUS_RESULT]) s s t := by
  have hnone : s.ftu.lpm.find? (fun y => lpmIs y s.lpmArg && y.stagedValid) = none := by
    simp only [List.find?_eq_none, Bool.and_eq_true] at habsent ⊢
    exact fun y hy h => habsent y hy h.1
  have hop : s.lpmDeleteOp s.lpmArg = (3, s) := by
    simp only [State.lpmDeleteOp, hgood, hnone]
    rfl
  exact ⟨_, exec_lpmDelete hmay hpair hbusy hop hpair, get_put_same hc (by decide),
    (writes_put (Writes.refl s) (by decide) (.inl (by decide))).quietFrame hc⟩

include hmay hbusy hgood habsent in
theorem exec_lpmRead_absent : exec (.lpmRead r) s = ok (s.puts [(Reg.FTU_LPM_OP_STATUS_STAGED_VALID, bit false),
    (Reg.FTU_LPM_OP_STATUS_COMMITTED_VALID, bit false), (Reg.FTU_LPM_OP_STATUS_RESULT, 0)]) := by
  simp only [exec, execLpmRead, hmay, State.lpmOp, hbusy, hgood, habsent]
  rfl

include hc hmay hbusy hgood habsent in
/-- READ of an LPM entry that the table does not hold shows it valid in neither bank. -/
theorem lpmRead_absent : completes (.lpmRead r) s fun t => t.get Reg.FTU_LPM_OP_STATUS_RESULT = 0 ∧
    t.flag Reg.FTU_LPM_OP_STATUS_STAGED_VALID = false ∧ t.flag Reg.FTU_LPM_OP_STATUS_COMMITTED_VALID = false ∧
    QuietFrame (words [Reg.FTU_LPM_OP_STATUS_RESULT]) s s t :=
  ⟨_, exec_lpmRead_absent hmay hbusy hgood habsent, get_puts_last hc [_, _] (by decide) (by simp +decide),
    flag_puts_bit hc [] (by decide) rfl (by simp +decide), flag_puts_bit hc [_] (by decide) rfl (by simp +decide),
    (writes_puts (Writes.refl s) rfl).quietFrame hc⟩

end

end

/-! ## MAC entries (R145, R148, R158) -/

theorem candidates_eq_cons (key : Bytes) (n : Nat) : ∃ rest, candidates key n = (crc32c key % n, 0) :: rest := by
  have hways : List.range 8 = [0, 1, 2, 3, 4, 5, 6, 7] := rfl
  rw [candidates, buckets, List.flatMap_cons, hways, List.map_cons, List.cons_append, List.eraseDups_cons]
  exact ⟨_, rfl⟩

/-- In empty tables a static slot's place is its first candidate. -/
theorem staticPlace_empty {s : State} (hstatic : s.ftu.macStatic = []) (hlearned : s.ftu.macLearned = []) (vlan mac : Nat) :
    s.staticPlace vlan mac = (macCandidates vlan mac).head? := by
  obtain ⟨rest, hcandidates⟩ := candidates_eq_cons (macKey vlan mac) 32768
  have hfree : ∀ p c, s.macFree p c = true := fun p c => by
    rw [State.macFree, hstatic, hlearned]
    rfl
  have hfirst : (macCandidates vlan mac).find? (fun c => (List.range 4).all (fun p => s.macFree p c)) =
      (macCandidates vlan mac).head? := by
    rw [macCandidates, hcandidates]
    exact List.find?_cons_of_pos (List.all_eq_true.mpr fun p _ => hfree p _)
  rw [State.staticPlace, hfirst, macCandidates, hcandidates]
  rfl

theorem putStatic_eq (s : State) (x : MacStatic) : s.putStatic x = s.recount { s.ftu with
    macStatic := x :: s.ftu.macStatic.filter (fun y => macIndex y != macIndex x)
    macLearned := s.ftu.macLearned.filter (fun y => !(y.bucket == x.bucket && y.way == x.way)) } := rfl

/-- Once a static slot has been written or freed, RESULT is 0 and the count of static slots is right. -/
theorem recount_static_shows {s t : State} {x : FtuState} (hnoted : Noted s t) (hc : s.canon = true) (hpair : s.pairRole = false) :
    (t.recount x).pairRole = false ∧ ((t.recount x).put Reg.FTU_MAC_OP_STATUS_RESULT 0).get Reg.FTU_MAC_OP_STATUS_RESULT = 0 ∧
      ((t.recount x).put Reg.FTU_MAC_OP_STATUS_RESULT 0).get Reg.FTU_MAC_STATIC_SLOTS = x.macStatic.length % 2 ^ 21 := by
  have ht := hnoted.within.canon hc
  have hwithin := hnoted.within.trans (within_recount t x)
  have hcounted := hwithin.canon hc
  exact ⟨(pairRole_within_slots hwithin hc).trans hpair, get_put_zero hcounted (by decide),
    (get_put_off hcounted (by decide)).trans (staticSlots_countSlots ((within_withFtu t x (area := slotWord)).canon ht))⟩

/-- INSERT_STATIC of the first MAC entry: it takes the first candidate of its key. -/
theorem insertStaticOp_first {s : State} {vlan mac : Nat} (hstatic : s.ftu.macStatic = []) (hlearned : s.ftu.macLearned = [])
    (hchanges : s.ftu.changes = []) (hmac : mac ≠ 0) (hunicast : bitAt mac 40 = false) (kind target : Nat) :
    ∃ c u, (macCandidates vlan mac).head? = some c ∧ Noted s u ∧
      s.insertStaticOp vlan mac kind target = (0, u.putStatic ⟨c.1, c.2, vlan, mac, true, kind, target, false, 0, 0⟩) := by
  obtain ⟨rest, hcandidates⟩ := candidates_eq_cons (macKey vlan mac) 32768
  have hplace := staticPlace_empty hstatic hlearned vlan mac
  rw [macCandidates, hcandidates, List.head?_cons] at hplace
  obtain ⟨u, hnote, hnoted⟩ := noteChange_noted (s := s) (table := 3) (index := crc32c (macKey vlan mac) % 32768 * 8 + 0)
    (.inr (by rw [hchanges]; decide))
  refine ⟨_, u, by rw [macCandidates, hcandidates, List.head?_cons], hnoted, ?_⟩
  have hcleared : ({ s with ftu := { s.ftu with
      macLearned := s.ftu.macLearned.filter (fun x => !(x.vlan == vlan && x.mac == mac)) } } : State) = s := by
    rw [hlearned, List.filter_nil, ← hlearned]
  have hfind : s.ftu.macStatic.find? (fun x => x.vlan == vlan && x.mac == mac) = none := by rw [hstatic, List.find?_nil]
  simp only [State.insertStaticOp, hmac, hunicast, hfind, hcleared, hplace, hnote]
  rfl

section
variable {s t : State} {r : Requester} {c : Nat} (hc : s.canon = true) (hmay : s.mayWrite r Reg.FTU_MAC_OP_CMD_OP.key = true)
  (hidle : s.flag Reg.FTU_MAC_OP_STATUS_BUSY = false) (hbusy : s.tblBusy = false)

section
variable (hpair : s.pairRole = false)

include hmay hidle hbusy hpair in
/-- Outside a pair INSERT_STATIC does what its operation says, and shows the result. -/
theorem exec_insertStatic (hop : s.insertStaticOp (s.get Reg.FTU_MAC_OP_KEY_VLAN) (s.get Reg.FTU_MAC_OP_KEY_MAC)
      (s.get Reg.FTU_MAC_OP_DATA_KIND) (s.get Reg.FTU_MAC_OP_DATA_TARGET) = (c, t)) (halone : t.pairRole = false) :
    exec (.insertStatic r) s = ok (t.put Reg.FTU_MAC_OP_STATUS_RESULT c) := by
  simp [exec, execInsertStatic, hmay, localOnly_alone hpair, State.macOp, hidle, hbusy, hop, carry_alone halone]

include hmay hidle hbusy hpair in
/-- Outside a pair DELETE_STATIC does what its operation says, and shows the result. -/
theorem exec_deleteStatic (hop : s.deleteStaticOp (s.get Reg.FTU_MAC_OP_KEY_VLAN) (s.get Reg.FTU_MAC_OP_KEY_MAC) = (c, t))
    (halone : t.pairRole = false) : exec (.deleteStatic r) s = ok (t.put Reg.FTU_MAC_OP_STATUS_RESULT c) := by
  simp [exec, execDeleteStatic, hmay, localOnly_alone hpair, State.macOp, hidle, hbusy, hop, carry_alone halone]

include hc hmay hidle hbusy hpair in
theorem insertStatic_first (hstatic : s.ftu.macStatic = []) (hlearned : s.ftu.macLearned = []) (hchanges : s.ftu.changes = [])
    (hmac : s.get Reg.FTU_MAC_OP_KEY_MAC ≠ 0) (hunicast : bitAt (s.get Reg.FTU_MAC_OP_KEY_MAC) 40 = false) :
    completes (.insertStatic r) s fun t => t.get Reg.FTU_MAC_OP_STATUS_RESULT = 0 ∧ t.get Reg.FTU_MAC_STATIC_SLOTS = 1 ∧
      ∃ c, (macCandidates (s.get Reg.FTU_MAC_OP_KEY_VLAN) (s.get Reg.FTU_MAC_OP_KEY_MAC)).head? = some c ∧
        t.ftu.macStatic = [⟨c.1, c.2, s.get Reg.FTU_MAC_OP_KEY_VLAN, s.get Reg.FTU_MAC_OP_KEY_MAC, true,
          s.get Reg.FTU_MAC_OP_DATA_KIND, s.get Reg.FTU_MAC_OP_DATA_TARGET, false, 0, 0⟩] := by
  obtain ⟨c, u, hfirst, hnoted, hop⟩ := insertStaticOp_first (vlan := s.get Reg.FTU_MAC_OP_KEY_VLAN) hstatic hlearned hchanges hmac
    hunicast (s.get Reg.FTU_MAC_OP_DATA_KIND) (s.get Reg.FTU_MAC_OP_DATA_TARGET)
  rw [putStatic_eq, hnoted.macStatic, hstatic, List.filter_nil] at hop
  obtain ⟨halone, hresult, hslots⟩ := recount_static_shows hnoted hc hpair
  refine ⟨_, exec_insertStatic hmay hidle hbusy hpair hop halone, hresult, hslots, c, hfirst, ?_⟩
  rw [State.put_ftu, recount_ftu]

include hc hmay hidle hbusy hpair in
/-- DELETE_STATIC of an entry that is staged alone frees its slot. -/
theorem deleteStatic_only {x : MacStatic} (hstatic : s.ftu.macStatic = [x]) (hvlan : x.vlan = s.get Reg.FTU_MAC_OP_KEY_VLAN)
    (hmac : x.mac = s.get Reg.FTU_MAC_OP_KEY_MAC) (hstaged : x.stagedValid = true) (hnow : x.validNow = false)
    (hlisted : s.ftu.changes.contains (0x3000000 + macIndex x) = true) :
    completes (.deleteStatic r) s fun t =>
      t.ftu.macStatic = [] ∧ t.get Reg.FTU_MAC_OP_STATUS_RESULT = 0 ∧ t.get Reg.FTU_MAC_STATIC_SLOTS = 0 := by
  obtain ⟨u, hnote, hnoted⟩ := noteChange_noted (s := s) (table := 3) (.inl hlisted)
  have hfreed : u.ftu.macStatic.filter (fun y => macIndex y != macIndex x) = [] := by
    rw [hnoted.macStatic, hstatic]
    exact List.filter_cons_of_neg (by simp)
  have hop : s.deleteStaticOp (s.get Reg.FTU_MAC_OP_KEY_VLAN) (s.get Reg.FTU_MAC_OP_KEY_MAC) =
      (0, u.recount { u.ftu with macStatic := [] }) := by
    have hfind : s.ftu.macStatic.find? (fun y => y.vlan == s.get Reg.FTU_MAC_OP_KEY_VLAN && y.mac == s.get Reg.FTU_MAC_OP_KEY_MAC &&
        y.stagedValid) = some x := by
      rw [hstatic]
      exact List.find?_cons_of_pos (by simp [hvlan, hmac, hstaged])
    simp only [State.deleteStaticOp, hfind, hnote, hnow, hfreed]
    rfl
  obtain ⟨halone, hresult, hslots⟩ := recount_static_shows hnoted hc hpair
  refine ⟨_, exec_deleteStatic hmay hidle hbusy hpair hop halone, ?_, hresult, hslots⟩
  rw [State.put_ftu, recount_ftu]

end

/-- What a READ shows, field by field, with its result. -/
theorem macShow_eq (s : State) (entry age kind target : Nat) :
    (s.macShow entry age kind target).put Reg.FTU_MAC_OP_STATUS_RESULT 0 = s.puts [(Reg.FTU_MAC_OP_STATUS_ENTRY, entry),
      (Reg.FTU_MAC_OP_STATUS_AGE, age), (Reg.FTU_MAC_OP_DATA_KIND, kind), (Reg.FTU_MAC_OP_DATA_TARGET, target),
      (Reg.FTU_MAC_OP_STATUS_RESULT, 0)] := by
  simp only [State.macShow, State.puts, List.foldl_cons, List.foldl_nil]

theorem macAge_lt (s : State) (x : MacLearned) : s.macAge x < 2 ^ 12 := Nat.mod_lt _ (by decide)

include hmay hidle hbusy in
/-- READ shows an entry, an age, a kind and a target: those of a learned slot, where no static slot stands before it. -/
theorem exec_macRead (pipe : Fin 4) : ∃ entry age kind target,
    exec (.macRead r pipe) s = ok ((s.macShow entry age kind target).put Reg.FTU_MAC_OP_STATUS_RESULT 0) ∧
    (s.ftu.macStatic = [] → ∀ x, s.ftu.macLearned.find? (fun x => x.pipe == pipe.val && x.vlan == s.get Reg.FTU_MAC_OP_KEY_VLAN &&
      x.mac == s.get Reg.FTU_MAC_OP_KEY_MAC) = some x → entry = 1 ∧ age = s.macAge x ∧ target = x.port) := by
  simp only [exec, execMacRead, hmay, State.macOp, hidle, hbusy, Bool.not_true, Bool.false_eq_true, if_false]
  cases hstatic : s.ftu.macStatic.find? (fun x => x.vlan == s.get Reg.FTU_MAC_OP_KEY_VLAN && x.mac == s.get Reg.FTU_MAC_OP_KEY_MAC) with
  | some x => exact ⟨_, _, _, _, rfl, fun hnone => by simp [hnone] at hstatic⟩
  | none =>
    cases hlearned : s.ftu.macLearned.find? (fun x => x.pipe == pipe.val && x.vlan == s.get Reg.FTU_MAC_OP_KEY_VLAN &&
        x.mac == s.get Reg.FTU_MAC_OP_KEY_MAC) with
    | some x => exact ⟨_, _, _, _, rfl, fun _ y hy => by cases hy; exact ⟨rfl, rfl, rfl⟩⟩
    | none => exact ⟨_, _, _, _, rfl, fun _ y hy => by cases hy⟩

include hc hmay hidle hbusy in
theorem macRead_completes (pipe : Fin 4) : completes (.macRead r pipe) s fun t => t.get Reg.FTU_MAC_OP_STATUS_RESULT = 0 ∧
    (s.ftu.macStatic = [] → ∀ x, s.ftu.macLearned.find? (fun x => x.pipe == pipe.val && x.vlan == s.get Reg.FTU_MAC_OP_KEY_VLAN &&
      x.mac == s.get Reg.FTU_MAC_OP_KEY_MAC) = some x → t.get Reg.FTU_MAC_OP_STATUS_ENTRY = 1 ∧
      t.get Reg.FTU_MAC_OP_STATUS_AGE = s.macAge x ∧ t.get Reg.FTU_MAC_OP_DATA_TARGET = x.port % 2 ^ 17) ∧
    QuietFrame (words [Reg.FTU_MAC_OP_STATUS_RESULT, Reg.FTU_MAC_OP_DATA_KIND]) s s t := by
  obtain ⟨entry, age, kind, target, hexec, hshows⟩ := exec_macRead hmay hidle hbusy pipe
  rw [macShow_eq] at hexec
  refine ⟨_, hexec, get_puts_last hc [_, _, _, _] (by decide) (by simp +decide), fun hstatic x hx => ?_,
    (writes_puts (Writes.refl s) rfl).quietFrame hc⟩
  obtain ⟨rfl, rfl, rfl⟩ := hshows hstatic x hx
  exact ⟨get_puts_last hc [] (by decide) (by simp +decide),
    (get_puts_last hc [_] (by decide) (by simp +decide)).trans (Nat.mod_eq_of_lt (macAge_lt s x)),
    get_puts_last hc [_, _, _] (by decide) (by simp +decide)⟩

end

/-! ## Flushes (R150) -/

/-- A flush by VLAN and port, where they are given, leaves the learned slot `x`. -/
def keptByFlush (vlan port : Option Nat) (x : MacLearned) : Bool := !(vlan.all (x.vlan == ·) && port.all (x.port == ·))

section
variable {s : State}

theorem flushLearned_eq (s : State) (vlan port : Option Nat) :
    s.flushLearned vlan port = s.recount { s.ftu with macLearned := s.ftu.macLearned.filter (keptByFlush vlan port) } := by
  cases vlan <;> cases port <;> rfl

theorem flushLearned_ftu (s : State) (vlan port : Option Nat) :
    (s.flushLearned vlan port).ftu = { s.ftu with macLearned := s.ftu.macLearned.filter (keptByFlush vlan port) } := by
  rw [flushLearned_eq, recount_ftu]

theorem startFlush_eq (s : State) (vlan port : Option Nat) : s.startFlush vlan port =
    (s.flushLearned vlan port).withFtu { (s.flushLearned vlan port).ftu with flushing := some none, flushHeld := none } := rfl

theorem startFlush_ftu (s : State) (vlan port : Option Nat) : (s.startFlush vlan port).ftu = { s.ftu with
    macLearned := s.ftu.macLearned.filter (keptByFlush vlan port), flushing := some none, flushHeld := none } := by
  rw [startFlush_eq, withFtu_ftu, flushLearned_ftu]

theorem startFlush_events (s : State) (vlan port : Option Nat) : (s.startFlush vlan port).events = s.events := by
  rw [startFlush_eq, flushLearned_eq, withFtu_events, recount_events]

theorem within_startFlush (s : State) (vlan port : Option Nat) : Within slotWord s (s.startFlush vlan port) := by
  rw [startFlush_eq, flushLearned_eq]
  exact (within_recount s _).trans (within_withFtu _ _)

section
variable {r : Requester} (hc : s.canon = true) (hmay : s.mayWrite r Reg.FTU_MAC_OP_CMD_OP.key = true)
  (hidle : s.flag Reg.FTU_MAC_OP_STATUS_BUSY = false) (hbusy : s.tblBusy = false) (byVlan byPort : Bool) (port : Fin 32)

include hc hmay hidle hbusy

/-- FLUSH that meets a flush under way waits for its end. -/
theorem macFlush_held (hrunning : s.ftu.flushing ≠ none) : completes (.macFlush r byVlan byPort port) s fun t =>
    t.flag Reg.FTU_MAC_OP_STATUS_BUSY = true ∧ QuietFrame (words [Reg.FTU_MAC_OP_STATUS_BUSY]) s
      { s with ftu := { s.ftu with flushHeld := some (if byVlan then some (s.get Reg.FTU_MAC_OP_KEY_VLAN) else none,
        if byPort then some port.val else none) } } t := by
  have hexec : exec (.macFlush r byVlan byPort port) s = ok ((s.put Reg.FTU_MAC_OP_STATUS_BUSY 1).withFtu { s.ftu with
      flushHeld := some (if byVlan then some (s.get Reg.FTU_MAC_OP_KEY_VLAN) else none, if byPort then some port.val else none) }) := by
    simp [exec, execMacFlush, hmay, hidle, hbusy, Option.isSome_iff_ne_none.mpr hrunning, State.withFtu]
  have hbusyShown : Writes (words [Reg.FTU_MAC_OP_STATUS_BUSY]) s (s.put Reg.FTU_MAC_OP_STATUS_BUSY 1) :=
    writes_put (Writes.refl s) (by decide) (.inl (by decide))
  refine ⟨_, hexec, flag_put_same hc (by decide) rfl 1, (hbusyShown.within.trans (within_withFtu _ _)).words hc, ?_⟩
  rw [State.withFtu, hbusyShown.rest]

/-- FLUSH where none is under way starts at once. -/
theorem macFlush_started (hnone : s.ftu.flushing = none) : completes (.macFlush r byVlan byPort port) s fun t =>
    t.flag Reg.FTU_MAC_OP_STATUS_BUSY = true ∧ t.ftu.flushing = some none ∧ t.ftu.macStatic = s.ftu.macStatic ∧
    t.ftu.macLearned = s.ftu.macLearned.filter (fun x =>
      !((!byVlan || x.vlan == s.get Reg.FTU_MAC_OP_KEY_VLAN) && (!byPort || x.port == port.val))) := by
  have hexec : exec (.macFlush r byVlan byPort port) s = ok ((s.put Reg.FTU_MAC_OP_STATUS_BUSY 1).startFlush
      (if byVlan then some (s.get Reg.FTU_MAC_OP_KEY_VLAN) else none) (if byPort then some port.val else none)) := by
    simp [exec, execMacFlush, hmay, hidle, hbusy, hnone]
  refine ⟨_, hexec, ?_, ?_⟩
  · rw [flag_congr ((within_startFlush _ _ _).get_eq (canon_put hc) (by decide) (by decide))]
    exact flag_put_same hc (by decide) rfl 1
  · rw [startFlush_ftu, State.put_ftu]
    refine ⟨rfl, rfl, List.filter_congr fun x _ => ?_⟩
    cases byVlan <;> cases byPort <;> rfl

end

/-- Of a state that has come from `s` by FTU's and by registers alone, an event that is raised and the frame. -/
theorem raised_withFtu {area : Nat → Bool} {x : FtuState} {t : State} (hc : s.canon = true) (h : Writes area (s.withFtu x) t)
    (u : Unit') (type : Nat) (l : List (Nat × Nat)) :
    posted s (t.raise u type l) u type l ∧ NoisyFrame area s (s.withFtu x) (t.raise u type l) := by
  refine ⟨posted_raise (by rw [h.rest]; rfl) u type l, noisyFrame hc ?_ ?_⟩
  · exact within_raise ((within_withFtu s x).trans (h.within.mono fun k hk => by simp only [hk, Bool.true_or])) (by simp +decide)
      (by simp +decide)
  · rw [State.raise, raiseEvent_rest, h.rest]

/-- The manager's flush has ended: BUSY is clear and RESULT is 0. -/
def State.flushEnded (s : State) : State :=
  (s.withFtu { s.ftu with flushing := none }).puts [(Reg.FTU_MAC_OP_STATUS_BUSY, bit false), (Reg.FTU_MAC_OP_STATUS_RESULT, 0)]

theorem flushEnded_ftu (s : State) : s.flushEnded.ftu = { s.ftu with flushing := none } := by
  simp only [State.flushEnded, State.puts, List.foldl_cons, List.foldl_nil, State.put_ftu, withFtu_ftu]

theorem macFlushDone_completes (hc : s.canon = true) (hrunning : s.ftu.flushing = some none) : completes .macFlushDone s fun t =>
    t.ftu.flushing = none ∧ t.flag Reg.FTU_MAC_OP_STATUS_BUSY = false ∧ t.get Reg.FTU_MAC_OP_STATUS_RESULT = 0 ∧
    posted s t .ftu 4 [] ∧
    NoisyFrame (words [Reg.FTU_MAC_OP_STATUS_BUSY]) s { s with ftu := { s.ftu with flushing := none } } t := by
  have hexec : exec .macFlushDone s = ok (s.flushEnded.raise .ftu 4 []) := by
    simp only [exec, execMacFlushDone, hrunning]
    rfl
  have hbegun : (s.withFtu { s.ftu with flushing := none }).canon = true := (within_withFtu (area := slotWord) s _).canon hc
  have hended : s.flushEnded.canon = true := canon_puts hbegun _
  have hraised : Within (words [Reg.QE_ARB_LOST]) s.flushEnded (s.flushEnded.raise .ftu 4 []) :=
    within_raise (Within.refl _) (by decide) (by decide)
  refine ⟨_, hexec, ?_, ?_, ?_, raised_withFtu hc (writes_puts (Writes.refl _) rfl) _ _ _⟩
  · rw [State.raise_ftu, flushEnded_ftu]
  · rw [flag_congr (hraised.get_eq hended (by decide) (by decide))]
    exact flag_puts_bit hbegun [] (by decide) rfl (by simp +decide)
  · rw [hraised.get_eq hended (by decide) (by decide)]
    exact get_puts_last hbegun [_] (by decide) rfl

theorem autoFlushStart_completes {p : Nat} {rest : List Nat} (hnone : s.ftu.flushing = none) (hqueue : s.ftu.flushQueue = p :: rest) :
    completes .autoFlushStart s fun t => t.ftu.flushing = some (some p) ∧ t.ftu.flushQueue = rest ∧
      t.ftu.macLearned = s.ftu.macLearned.filter (fun x => x.port != p) := by
  have hexec : exec .autoFlushStart s = ok ((s.flushLearned none (some p)).withFtu { (s.flushLearned none (some p)).ftu with
      flushing := some (some p), flushQueue := rest }) := by
    simp only [exec, execAutoFlushStart, hnone, hqueue]
    rfl
  refine ⟨_, hexec, rfl, rfl, ?_⟩
  rw [withFtu_ftu, flushLearned_ftu]
  rfl

theorem portFlush_ends (hc : s.canon = true) {p : Nat} (hrunning : s.ftu.flushing = some (some p)) (hheld : s.ftu.flushHeld = none) :
    completes .portFlush s fun t => t.ftu.flushing = none ∧ posted s t .ftu 5 [(8, p)] ∧
      NoisyFrame (fun _ => false) s { s with ftu := { s.ftu with flushing := none } } t := by
  have hexec : exec .portFlush s = ok ((s.withFtu { s.ftu with flushing := none }).raise .ftu 5 [(8, p)]) := by
    simp only [exec, execPortFlush, hrunning, State.raise_ftu, hheld]
    rfl
  refine ⟨_, hexec, ?_, raised_withFtu hc (Writes.refl _) _ _ _⟩
  rw [State.raise_ftu, withFtu_ftu]

/-- The end of a port flush starts the manager's flush that waited for it. -/
theorem portFlush_startsHeld {p : Nat} {vlan port : Option Nat} (hrunning : s.ftu.flushing = some (some p))
    (hheld : s.ftu.flushHeld = some (vlan, port)) : completes .portFlush s fun t => t.ftu.flushing = some none ∧
      t.ftu.flushHeld = none ∧ posted s t .ftu 5 [(8, p)] ∧
      t.ftu.macLearned = s.ftu.macLearned.filter (keptByFlush vlan port) := by
  have hexec : exec .portFlush s =
      ok (((s.withFtu { s.ftu with flushing := none }).raise .ftu 5 [(8, p)]).startFlush vlan port) := by
    simp only [exec, execPortFlush, hrunning, State.raise_ftu, hheld]
    rfl
  refine ⟨_, hexec, ?_, ?_, fun hroom => ?_, ?_⟩
  · rw [startFlush_ftu]
  · rw [startFlush_ftu]
  · rw [startFlush_events]
    exact posted_raise (withFtu_events s _) .ftu 5 _ hroom
  · rw [startFlush_ftu, State.raise_ftu, withFtu_ftu]

end

/-! ## The age clock (R152, R153) -/

section
variable {s : State} (hc : s.canon = true) (hpowered : s.powered = true)

/-- The age clock has advanced. -/
def State.aged (s : State) : State := s.put Reg.FTU_AGE_NOW ((s.get Reg.FTU_AGE_NOW + 1) % 4096)

theorem ageNow_half (n : Nat) : (n + 1) % 4096 % 2048 = (n + 1) % 2048 := Nat.mod_mod_of_dvd _ (by decide)

include hc in
theorem ageNow_aged : s.aged.get Reg.FTU_AGE_NOW = (s.get Reg.FTU_AGE_NOW + 1) % 4096 := by
  rw [State.aged, get_put_same hc (by decide)]
  exact Nat.mod_mod _ _

theorem macExpired_congr {t : State} (hnow : t.get Reg.FTU_AGE_NOW = s.get Reg.FTU_AGE_NOW)
    (hen : t.get Reg.FTU_AGE_CFG_AGE_EN = s.get Reg.FTU_AGE_CFG_AGE_EN)
    (hlimit : t.get Reg.FTU_AGE_CFG_AGE_LIMIT = s.get Reg.FTU_AGE_CFG_AGE_LIMIT) (x : MacLearned) :
    t.macExpired x = s.macExpired x := by
  rw [State.macExpired, State.macExpired, State.macAge, State.macAge, flag_congr hen, hlimit, hnow]

include hc hpowered in
/-- Between half-wraps the clock advances and nothing else changes. -/
theorem ageClockStep_between (hhalf : (s.get Reg.FTU_AGE_NOW + 1) % 2048 ≠ 0) : completes .ageClockStep s fun t =>
    t.get Reg.FTU_AGE_NOW = (s.get Reg.FTU_AGE_NOW + 1) % 4096 ∧ QuietFrame (words [Reg.FTU_AGE_NOW]) s s t := by
  have hexec : exec .ageClockStep s = ok s.aged := by
    simp [exec, execAgeClockStep, hpowered, hhalf, State.aged]
  exact ⟨_, hexec, ageNow_aged hc, (writes_put (Writes.refl s) (by decide) (.inl (by decide))).quietFrame hc⟩

/-- A sweeper's pass has removed the expired slots and counted them. -/
def State.swept (s : State) : State :=
  (s.recount { s.ftu with macLearned := s.ftu.macLearned.filter (fun x => !s.macExpired x) }).bumpBy Reg.FTU_AGED
    (s.ftu.macLearned.filter s.macExpired).length

theorem within_swept (s : State) : Within (fun k => slotWord k || words [Reg.FTU_AGED] k) s s.swept := by
  have hcounted := within_recount s { s.ftu with macLearned := s.ftu.macLearned.filter (fun x => !s.macExpired x) }
  rw [State.swept, State.bumpBy]
  exact within_put (hcounted.mono fun k hk => by simp only [hk, Bool.true_or]) (by decide) (.inr (by decide))

theorem macLearned_swept (s : State) : s.swept.ftu.macLearned = s.ftu.macLearned.filter (fun x => !s.macExpired x) := by
  rw [State.swept, State.bumpBy_ftu, recount_ftu]

include hc hpowered in
/-- At a half-wrap the sweeper removes what has expired by the new time. -/
theorem ageClockStep_sweeps (hhalf : (s.get Reg.FTU_AGE_NOW + 1) % 2048 = 0) : completes .ageClockStep s fun t =>
    t.get Reg.FTU_AGE_NOW = (s.get Reg.FTU_AGE_NOW + 1) % 4096 ∧
      t.ftu.macLearned = s.ftu.macLearned.filter (fun x => !t.macExpired x) := by
  have hexec : exec .ageClockStep s = ok s.aged.swept := by
    simp only [exec, execAgeClockStep, hpowered, ageNow_half, hhalf, Bool.not_true, Bool.false_eq_true, if_false, if_true]
    rfl
  have hswept := within_swept s.aged
  have haged : s.aged.canon = true := canon_put hc
  have hnow := hswept.get_eq haged (f := Reg.FTU_AGE_NOW) (by decide) (by decide)
  refine ⟨_, hexec, hnow.trans (ageNow_aged hc), ?_⟩
  rw [macLearned_swept, State.aged, State.put_ftu, ← State.aged]
  refine List.filter_congr fun x _ => ?_
  rw [macExpired_congr hnow (hswept.get_eq haged (by decide) (by decide)) (hswept.get_eq haged (by decide) (by decide))]

end

/-- Settles O22: clause by clause, each operation by its equation and by what a recount of the slots leaves alone. -/
theorem tableOperationsComplete : Obligations.TableOperationsComplete := by
  intro s hc r
  refine ⟨fun hmay hpair hbusy hgood => ⟨fun x hfound hlisted => ⟨?_, ?_, ?_⟩, fun habsent => ⟨?_, ?_⟩⟩,
    fun hmay hidle hbusy => ⟨?_, ?_, ?_, ?_, ?_⟩, macFlushDone_completes hc, fun p rest => autoFlushStart_completes,
    fun p => portFlush_ends hc, fun p vlan port hrunning hheld => ?_, ageClockStep_between hc, ageClockStep_sweeps hc⟩
  · exact lpmInsert_completes hc hmay hpair hbusy hgood hfound hlisted
  · exact lpmDelete_completes hc hmay hpair hbusy hgood hfound hlisted
  · exact lpmRead_found hc hmay hbusy hgood hfound
  · exact lpmDelete_absent hc hmay hpair hbusy hgood habsent
  · exact lpmRead_absent hc hmay hbusy hgood habsent
  · exact fun hpair => insertStatic_first hc hmay hidle hbusy hpair
  · exact fun x hpair => deleteStatic_only hc hmay hidle hbusy hpair
  · exact macRead_completes hc hmay hidle hbusy
  · exact macFlush_held hc hmay hidle hbusy
  · exact macFlush_started hc hmay hidle hbusy
  · obtain ⟨t, ht, hflushing, hnoneHeld, hposted, hlearned⟩ := portFlush_startsHeld hrunning hheld
    refine ⟨t, ht, hflushing, hnoneHeld, hposted, hlearned.trans ?_⟩
    cases vlan <;> cases port <;> rfl

end Sys2Proof.Machine
end

section
/-! PROOFS. The repairs of the buffer (R173): the sweep that frees the cells no live frame holds, and the reset of a credit pair. -/

namespace Sys2Proof.Machine

/-! ## A value written back -/

theorem setBits_bits (w lo n : Nat) : setBits w lo n (bits w lo n) = w := by
  apply Nat.eq_of_testBit_eq
  intro i
  rw [setBits_testBit, bits_testBit]
  split
  · rfl
  · split
    · rw [show lo + (i - lo) = i by omega, decide_eq_true (show i - lo < n by omega), Bool.true_and]
    · rfl

theorem wr_rd_self {s : State} (hc : s.canon = true) (k : Nat) : s.wr k (s.rd k) = s := by
  refine eq_of_rd_eq hc (writes_wr (Writes.refl s) rfl) fun j => ?_
  by_cases hj : j = k
  · rw [hj, rd_wr_same hc, Nat.mod_eq_of_lt (rd_lt s k)]
  · exact rd_wr_ne hc hj

/-- A field that takes the value it has changes nothing. -/
theorem put_get_self {s : State} (hc : s.canon = true) (f : Field) : s.put f (s.get f) = s := by
  unfold State.put State.get
  split
  · rw [setBits_bits, wr_rd_self hc]
  · have hlo : (s.rd f.key + 2 ^ 32 * s.rd (f.key + 4)) % 2 ^ 32 = s.rd f.key := by
      rw [Nat.add_mul_mod_self_left, Nat.mod_eq_of_lt (rd_lt s f.key)]
    have hhi : (s.rd f.key + 2 ^ 32 * s.rd (f.key + 4)) / 2 ^ 32 = s.rd (f.key + 4) := by
      rw [Nat.add_mul_div_left _ _ (by positivity), Nat.div_eq_of_lt (rd_lt s f.key), Nat.zero_add]
    dsimp only
    rw [setBits_bits, hlo, hhi, wr_rd_self hc, wr_rd_self hc]

theorem bumpBy_zero {s : State} (hc : s.canon = true) (f : Field) : s.bumpBy f 0 = s := put_get_self hc f

/-! ## LEAK_FIX (R173) -/

/-- A live frame under handle `h` holds cell `c`. -/
def State.holdsCell (s : State) (h c : Nat) : Bool :=
  match s.frame? h with
  | some f => (f.chain ++ f.heads).any (fun y => y.1 == c)
  | none => false

theorem holdsCell_eq (s : State) (h c : Nat) :
    s.holdsCell h c = (s.frame? h).any (fun f => (f.chain ++ f.heads).any (fun y => y.1 == c)) := by
  unfold State.holdsCell
  cases s.frame? h <;> rfl

/-- An allocated cell whose owner is no live frame, or one whose chain does not hold it. -/
def State.isLost (s : State) (x : Nat × Cell) : Bool := x.2.allocated && !s.holdsCell x.2.owner x.1

def State.lostCells (s : State) : List (Nat × Cell) := s.fpu.cells.filter s.isLost

/-- A lost cell is free again. -/
def State.reclaim (s : State) (x : Nat × Cell) : State :=
  (s.setCell x.1 { x.2 with allocated := false }).put Reg.FPU_FREE (s.freeCount + 1)

/-- The sweep is over, and the books of cells and of handles count as repaired. -/
def State.sweepEnded (s : State) : State :=
  (({ s with fpu := { s.fpu with sweeping := false, lostHandles := 0 } } : State).bookRepaired 1).bookRepaired 2

/-- From `s` to `t` words of `area` change and, beside registers, FPU's own state and the count of audits since a repair. -/
structure Repairs (area : Nat → Bool) (s t : State) : Prop where
  within : Within area s t
  rest : t = { s with regs := t.regs, fpu := t.fpu, sup := { s.sup with bookFixed := t.sup.bookFixed } }
  events : t.events = s.events

section
variable {area : Nat → Bool} {s₀ s : State}

theorem Repairs.refl (s : State) : Repairs area s s := ⟨Within.refl s, rfl, rfl⟩

theorem repairs_put (h : Repairs area s₀ s) {f : Field} {v : Nat} (hlo : area f.key = true)
    (hhi : f.hi < 32 ∨ area (f.key + 4) = true) : Repairs area s₀ (s.put f v) :=
  ⟨within_put h.within hlo hhi, by rw [put_rest, h.rest], (State.put_events ..).trans h.events⟩

theorem repairs_bookRepaired (h : Repairs area s₀ s) (book : Nat) : Repairs area s₀ (s.bookRepaired book) := by
  unfold State.bookRepaired
  split
  · exact h
  · exact ⟨within_same h.within rfl rfl rfl, by rw [h.rest], h.events⟩

theorem repairs_withFpu (h : Repairs area s₀ s) (x : FpuState) : Repairs area s₀ { s with fpu := x } :=
  ⟨within_same h.within rfl rfl rfl, by rw [h.rest], h.events⟩

theorem repairs_setCell (h : Repairs area s₀ s) (c : Nat) (x : Cell) : Repairs area s₀ (s.setCell c x) := repairs_withFpu h _

theorem repairs_sweepEnded (h : Repairs area s₀ s) : Repairs area s₀ s.sweepEnded :=
  repairs_bookRepaired (repairs_bookRepaired (repairs_withFpu h _) 1) 2

/-- The event that reports a repair, and the frame. -/
theorem Repairs.raise (h : Repairs area s₀ s) (hc : s₀.canon = true) (u : Unit') (type : Nat) (l : List (Nat × Nat)) :
    posted s₀ (s.raise u type l) u type l ∧ NoisyFrame area s₀
      { s₀ with fpu := (s.raise u type l).fpu, sup := { s₀.sup with bookFixed := (s.raise u type l).sup.bookFixed } }
      (s.raise u type l) := by
  refine ⟨posted_raise h.events u type l, noisyFrame hc ?_ ?_⟩
  · exact within_raise (h.within.mono fun k hk => by simp only [hk, Bool.true_or]) (by simp +decide) (by simp +decide)
  · rw [State.raise, raiseEvent_rest, h.rest]

end

theorem bookRepaired_fpu (s : State) (book : Nat) : (s.bookRepaired book).fpu = s.fpu := by
  unfold State.bookRepaired
  split <;> rfl

theorem sweepEnded_fpu (s : State) : s.sweepEnded.fpu = { s.fpu with sweeping := false, lostHandles := 0 } := by
  rw [State.sweepEnded, bookRepaired_fpu, bookRepaired_fpu]

theorem cell_setCell_same (s : State) (c : Nat) (x : Cell) : (s.setCell c x).cell c = x := by
  unfold State.cell State.setCell Assoc.getD
  split
  next hempty => rw [hempty, Assoc.get?_erase_same]; rfl
  next => rw [Assoc.get?_set_same]; rfl

section
variable {s : State}

theorem exec_leakFix (hsweeping : s.fpu.sweeping = true) : exec .leakFix s =
    ok (((s.lostCells.foldl State.reclaim s).sweepEnded.bumpBy Reg.FPU_LEAK_FIX s.lostCells.length).raise .fpu 3
      [(32, s.lostCells.length)]) := by
  simp only [exec, execLeakFix, hsweeping, Bool.not_true, Bool.false_eq_true, if_false]
  rfl

theorem lostCells_eq_nil (hheld : ∀ x ∈ s.fpu.cells, x.2.allocated = true →
    (s.frame? x.2.owner).any (fun f => (f.chain ++ f.heads).any (fun y => y.1 == x.1)) = true) : s.lostCells = [] := by
  refine List.filter_eq_nil_iff.mpr fun x hx hlost => ?_
  rw [State.isLost, Bool.and_eq_true, Bool.not_eq_true', holdsCell_eq] at hlost
  obtain ⟨halloc, hfree⟩ := hlost
  rw [hheld x hx halloc] at hfree
  cases hfree

theorem lostCells_single {c : Nat} {x : Cell} (hcells : s.fpu.cells = [(c, x)]) (halloc : x.allocated = true)
    (howner : s.frame? x.owner = none) : s.lostCells = [(c, x)] := by
  simp [State.lostCells, State.isLost, holdsCell_eq, hcells, halloc, howner]

variable (hc : s.canon = true)
include hc

/-- Where every allocated cell is held, the sweep frees none. -/
theorem leakFix_nothing (hsweeping : s.fpu.sweeping = true) (hnone : s.lostCells = []) : completes .leakFix s fun t =>
    t.fpu = { s.fpu with sweeping := false, lostHandles := 0 } ∧ posted s t .fpu 3 [(32, 0)] ∧
    NoisyFrame (fun _ => false) s { s with fpu := t.fpu, sup := { s.sup with bookFixed := t.sup.bookFixed } } t := by
  have hended : Repairs (fun _ => false) s s.sweepEnded := repairs_sweepEnded (Repairs.refl s)
  have hexec := exec_leakFix hsweeping
  rw [hnone, List.foldl_nil, List.length_nil, bumpBy_zero (hended.within.canon hc)] at hexec
  exact ⟨_, hexec, by rw [State.raise_fpu, sweepEnded_fpu], hended.raise hc _ _ _⟩

/-- A cell that no live frame holds is freed and counted. -/
theorem leakFix_one {c : Nat} {x : Cell} (hsweeping : s.fpu.sweeping = true) (hlost : s.lostCells = [(c, x)]) :
    completes .leakFix s fun t => t.cell c = { x with allocated := false } ∧ t.fpu.frames = s.fpu.frames ∧
      t.get Reg.FPU_FREE = (s.get Reg.FPU_FREE + 1) % 2 ^ 19 ∧ t.get Reg.FPU_LEAK_FIX = (s.get Reg.FPU_LEAK_FIX + 1) % 2 ^ 64 ∧
      posted s t .fpu 3 [(32, 1)] ∧ NoisyFrame (words [Reg.FPU_FREE, Reg.FPU_LEAK_FIX]) s
        { s with fpu := t.fpu, sup := { s.sup with bookFixed := t.sup.bookFixed } } t := by
  have hexec := exec_leakFix hsweeping
  rw [hlost, List.foldl_cons, List.foldl_nil, List.length_singleton] at hexec
  have hcell : (s.setCell c { x with allocated := false }).canon = true :=
    (repairs_setCell (Repairs.refl (area := fun _ => false) s) c _).within.canon hc
  have hfreed : Repairs (words [Reg.FPU_FREE, Reg.FPU_LEAK_FIX]) s (s.reclaim (c, x)) :=
    repairs_put (repairs_setCell (Repairs.refl s) c _) (by decide) (.inl (by decide))
  have hended : Repairs (fun _ => false) (s.reclaim (c, x)) (s.reclaim (c, x)).sweepEnded := repairs_sweepEnded (Repairs.refl _)
  have hcanon : (s.reclaim (c, x)).sweepEnded.canon = true := hended.within.canon (hfreed.within.canon hc)
  have hraised : Within (words [Reg.QE_ARB_LOST]) ((s.reclaim (c, x)).sweepEnded.bumpBy Reg.FPU_LEAK_FIX 1)
      (((s.reclaim (c, x)).sweepEnded.bumpBy Reg.FPU_LEAK_FIX 1).raise .fpu 3 [(32, 1)]) :=
    within_raise (Within.refl _) (by decide) (by decide)
  have hfpu : (((s.reclaim (c, x)).sweepEnded.bumpBy Reg.FPU_LEAK_FIX 1).raise .fpu 3 [(32, 1)]).fpu =
      { (s.setCell c { x with allocated := false }).fpu with sweeping := false, lostHandles := 0 } := by
    rw [State.raise_fpu, State.bumpBy_fpu, sweepEnded_fpu, State.reclaim, State.put_fpu]
  refine ⟨_, hexec, ?_, ?_, ?_, ?_, (repairs_put (repairs_sweepEnded hfreed) (by decide) (.inr (by decide))).raise hc _ _ _⟩
  · rw [State.cell, hfpu]
    exact cell_setCell_same s c _
  · rw [hfpu]
    rfl
  · rw [hraised.get_eq (canon_put hcanon) (by decide) (by decide), State.bumpBy, get_put_off hcanon (by decide),
      hended.within.get_eq (hfreed.within.canon hc) rfl rfl, State.reclaim, get_put_same hcell (by decide)]
    rfl
  · rw [hraised.get_eq (canon_put hcanon) (by decide) (by decide), State.bumpBy, get_put_same hcanon (by decide),
      hended.within.get_eq (hfreed.within.canon hc) rfl rfl, State.reclaim, get_put_off hcell (by decide)]
    rfl

end

/-! ## CREDIT_RESET (R173) -/

theorem exec_creditReset_staged {s : State} {p : Fin 4} {d : Fin 37} (hstaged : s.staged (p.val * 64 + d.val) ≠ 0) :
    exec (.creditReset p d) s = ok s := by
  simp [exec, execCreditReset, hstaged]

/-- The pair's book starts over: it holds 16 credits, and no failure of it is on record. -/
def State.creditsRestored (s : State) (k : Nat) : State :=
  ({ s with fpu := { s.fpu with credits := Assoc.erase s.fpu.credits k, creditFails := Assoc.erase s.fpu.creditFails k } } :
    State).bookRepaired (8 + k)

theorem exec_creditReset_failed {s : State} {p : Fin 4} {d : Fin 37}
    (hfailed : 2 ≤ Assoc.getD s.fpu.creditFails (p.val * 64 + d.val) 0) (hstaged : s.staged (p.val * 64 + d.val) = 0) :
    exec (.creditReset p d) s = ok (s.creditsRestored (p.val * 64 + d.val)) := by
  simp only [exec, execCreditReset, hfailed, hstaged, decide_true, Bool.and_self, if_true]
  rfl

theorem creditsRestored_fpu (s : State) (k : Nat) : (s.creditsRestored k).fpu =
    { s.fpu with credits := Assoc.erase s.fpu.credits k, creditFails := Assoc.erase s.fpu.creditFails k } := bookRepaired_fpu _ _

theorem creditsRestored_rest (s : State) (k : Nat) : s.creditsRestored k =
    { s with fpu := { s.fpu with
               credits := (s.creditsRestored k).fpu.credits, creditFails := (s.creditsRestored k).fpu.creditFails }
             sup := { s.sup with bookFixed := (s.creditsRestored k).sup.bookFixed } } := by
  unfold State.creditsRestored State.bookRepaired
  split <;> rfl

/-- Settles O23: a sweep by the cells that it finds lost, a credit reset by the one entry that it takes off the books. -/
theorem bufferRepairsComplete : Obligations.BufferRepairsComplete := by
  intro s hc
  refine ⟨fun hsweeping hheld => leakFix_nothing hc hsweeping (lostCells_eq_nil hheld),
    fun c x hsweeping hcells halloc howner => leakFix_one hc hsweeping (lostCells_single hcells halloc howner),
    fun p d hstaged => ⟨s, exec_creditReset_staged hstaged, rfl⟩, fun p d hfailed hstaged =>
      ⟨_, exec_creditReset_failed hfailed hstaged, ?_, ?_, fun q e hother => ?_, creditsRestored_rest s _⟩⟩
  · rw [State.creditOf, creditsRestored_fpu, Assoc.getD, Assoc.get?_erase_same]
    rfl
  · rw [creditsRestored_fpu, Assoc.getD, Assoc.get?_erase_same]
    rfl
  · rw [State.creditOf, creditsRestored_fpu, Assoc.getD, Assoc.get?_erase_ne _ hother]
    rfl

end Sys2Proof.Machine
end

section
/-! PROOFS. How a copy comes to its end (R166, R167, R220), and what stands as a command's moment comes: what each leaves alone. -/

namespace Sys2Proof.Machine

/-! ## The end of a copy (R166, R167, R220) -/

/-- FPU's registers, and the space from the pools on, in which QE's count of lost events stands as well. -/
def bufferWord (k : Nat) : Bool := inRange k 0x06000000 0x1000000 || decide (0x0B200000 ≤ k)

/-- The words that the end of a copy can change: those of the buffer, and what moves with time. -/
def closeWord (k : Nat) : Bool := settleWord k || bufferWord k

/-- From `s` to `t` copies come to their end: EGU's credits and levels are brought to the present, FPU takes cells and handles back,
and CELL_MISUSE may be raised. What is done once in a tick on the way is that event and the report of lost ones (R167, R394). -/
structure Closes (s t : State) : Prop where
  within : Within closeWord s t
  rest : t = { settled s t with regs := t.regs, events := t.events, once := t.once, fpu := t.fpu }
  once : ∀ k ∈ t.once, k ∈ s.once ∨ k = 0x601 ∨ k = 0xA0000

theorem closeWord_of_bufferWord {k : Nat} (h : bufferWord k = true) : closeWord k = true := by rw [closeWord, h, Bool.or_true]

theorem Closes.refl (s : State) : Closes s s := ⟨Within.refl s, rfl, fun _ => .inl⟩

theorem Closes.trans {s₀ s t : State} (h : Closes s₀ s) (g : Closes s t) : Closes s₀ t :=
  ⟨h.within.trans g.within, by rw [g.rest, h.rest]; rfl, fun k hk => (g.once k hk).elim (h.once k) .inr⟩

theorem Settles.closes {s t : State} (h : Settles s t) : Closes s t :=
  ⟨h.within.mono fun k hk => by rw [closeWord, hk, Bool.true_or], by rw [h.rest]; rfl,
    fun k hk => .inl (by rw [h.rest] at hk; exact hk)⟩

theorem closes_foldl {α : Type} {f : State → α → State} (l : List α) (hf : ∀ s x, Closes s (f s x)) (s : State) :
    Closes s (l.foldl f s) := by
  induction l generalizing s with
  | nil => exact Closes.refl s
  | cons x l ih => exact (hf s x).trans (ih (f s x))

theorem closes_put (s : State) {f : Field} (v : Nat) (hlo : bufferWord f.key = true)
    (hhi : f.hi < 32 ∨ bufferWord (f.key + 4) = true) : Closes s (s.put f v) :=
  ⟨within_put (Within.refl s) (closeWord_of_bufferWord hlo) (hhi.imp_right closeWord_of_bufferWord), by rw [put_rest]; rfl,
    fun k hk => .inl (by rwa [State.put_once] at hk)⟩

theorem closes_withFpu (s : State) (x : FpuState) : Closes s { s with fpu := x } :=
  ⟨within_same (Within.refl s) rfl rfl rfl, rfl, fun _ => .inl⟩

theorem raiseEvent_once (s : State) (e : Event) : ∀ k ∈ (s.raiseEvent e).once, k ∈ s.once ∨ k = 0xA0000 := by
  intro k hk
  unfold State.raiseEvent at hk
  split at hk
  · exact .inl hk
  · dsimp only at hk
    split at hk
    · exact .inl (by rwa [State.bump_once] at hk)
    · split at hk <;> simpa [or_comm] using hk

theorem closes_noteOnce (s : State) : Closes s { s with once := 0x601 :: s.once } :=
  ⟨within_same (Within.refl s) rfl rfl rfl, rfl, fun _ hk => (List.mem_cons.mp hk).elim (fun h => .inr (.inl h)) .inl⟩

theorem closes_raise (s : State) (u : Unit') (type : Nat) (l : List (Nat × Nat)) : Closes s (s.raise u type l) :=
  ⟨within_raise (Within.refl s) (by decide) (by decide), by unfold State.raise; rw [raiseEvent_rest]; rfl,
    fun k hk => (raiseEvent_once s _ k hk).imp_right .inr⟩

theorem closes_misuse (s : State) (c kind : Nat) : Closes s (s.misuse c kind) := by
  have hnoted : Closes s ((s.put Reg.FPU_MISUSE_LAST_KIND kind).put Reg.FPU_MISUSE_LAST_CELL c) :=
    (closes_put s kind (by decide) (.inl (by decide))).trans (closes_put _ c (by decide) (.inl (by decide)))
  unfold State.misuse State.oncePerTick
  dsimp only
  split
  · exact hnoted
  · exact (hnoted.trans (closes_noteOnce _)).trans (closes_raise _ .fpu 1 _)

theorem closes_setFrame (s : State) (h : Nat) (f : Frame) : Closes s (s.setFrame h f) := closes_withFpu s _

theorem closes_freeCell (s : State) (c h g : Nat) : Closes s (s.freeCell c h g) := by
  unfold State.freeCell
  dsimp only
  split
  · exact (closes_put s _ (by decide) (.inr (by decide))).trans (closes_misuse _ c 1)
  · split
    · exact (closes_put s _ (by decide) (.inr (by decide))).trans (closes_misuse _ c 2)
    · exact (closes_withFpu s _).trans (closes_put (s.setCell c _) _ (by decide) (.inl (by decide)))

theorem closes_poolGive (s : State) (f k n : Nat) : Closes s (s.poolGive f k n) := by
  have hpools : 0x0B200000 ≤ (poolUsed f k).key := Nat.le_add_right_of_le (Nat.le_add_right_of_le (by decide))
  exact closes_put s _ (by rw [bufferWord, decide_eq_true hpools, Bool.or_true]) (.inl (show 31 < 32 by decide))

theorem closes_releaseCopy (s : State) (h : Nat) : Closes s (s.releaseCopy h) := by
  unfold State.releaseCopy
  split
  · exact Closes.refl s
  next f hf =>
    split
    · exact closes_setFrame s h _
    · exact ((closes_foldl _ (fun t v => closes_poolGive t v 6 _) s).trans
        (closes_foldl _ (fun t (x : Nat × Nat) => closes_freeCell t x.1 h x.2) _)).trans (closes_withFpu _ _)

theorem closes_releaseMaybe (s : State) (h : Option Nat) : Closes s (s.releaseMaybe h) := by
  cases h with
  | none => exact Closes.refl s
  | some h => exact closes_releaseCopy s h

theorem closes_dropCell (s : State) (h : Option Nat) (c : Option (Nat × Nat)) : Closes s (s.dropCell h c) := by
  unfold State.dropCell
  split
  next h c =>
    refine Closes.trans ?_ (closes_freeCell _ c.1 h c.2)
    split
    · exact (closes_foldl _ (fun t v => closes_poolGive t v 6 1) s).trans (closes_setFrame _ h _)
    · exact Closes.refl s
  · exact Closes.refl s

theorem closes_releaseWith (s : State) (h : Option Nat) (c : Option (Nat × Nat)) : Closes s (s.releaseWith h c) :=
  (closes_dropCell s h c).trans (closes_releaseMaybe _ h)

theorem settles_payDebt (s : State) (d : Option (Nat × Bool × Nat)) : Settles s (s.payDebt d) := by
  unfold State.payDebt
  split
  · exact Settles.refl s
  · exact (settles_settle s).trans (settles_setLevel _ _ _)

section
variable {s t : State} (h : Closes s t)
include h

theorem Closes.tx : t.egu.tx = s.egu.tx := by rw [h.rest]; rfl
theorem Closes.queues : t.egu.queues = s.egu.queues := by rw [h.rest]; rfl
theorem Closes.shaper : t.egu.shaper = s.egu.shaper := by rw [h.rest]; rfl
theorem Closes.out : t.out = s.out := by rw [h.rest]; rfl

end

/-! ## A moment of the tick, with all brought to the present -/

/-- The words that change as a command's moment comes: the offset, and what moves with time. -/
def presentWord (k : Nat) : Bool := words [Reg.TE_OFFSET] k || settleWord k

section
variable (s : State) (o : Nat)

theorem moment_egu : (s.moment o).egu = s.egu := by rw [(writes_moment s o).rest]

theorem within_present : Within presentWord s (s.moment o).settle :=
  ((writes_moment s o).within.mono fun k hk => by rw [presentWord, hk, Bool.true_or]).trans
    ((settles_settle _).within.mono fun k hk => by rw [presentWord, hk, Bool.or_true])

theorem present_rest : (s.moment o).settle = { settled s (s.moment o).settle with regs := (s.moment o).settle.regs } := by
  rw [(settles_settle _).rest, (writes_moment s o).rest]
  rfl

end

end Sys2Proof.Machine
end

section
/-! PROOFS. What happens to a frame on its way out (R166, R208 to R210, R219, R229, R279, R280): how a port begins and ends a frame,
the timeout at a queue's head, the shaper stage, and a media packet toward a host ring. -/

namespace Sys2Proof.Machine

/-! ## A frame begins on a port (R209, R280) -/

theorem newHead_rest (s : State) (p c : Nat) (old : Option Queued) :
    s.newHead p c old = { s with egu := { s.egu with queues := (s.newHead p c old).egu.queues } } := by
  unfold State.newHead
  split
  · rfl
  · split <;> rfl

theorem length_queues_newHead (s : State) (p c : Nat) (old : Option Queued) :
    (s.newHead p c old).egu.queues.length = s.egu.queues.length := by
  unfold State.newHead
  split
  · rfl
  · split
    · rfl
    · exact List.length_map _

/-- The transmission of a best-effort copy `q` of frame `f` as the bytes `l`, begun in `u` with the header cell `c`. -/
def State.txOf (u : State) (q : Queued) (f : Frame) (l : Bytes) (c : Option (Nat × Nat)) (cut : Bool) : Tx :=
  ⟨some q.handle, some q.dest.tc, l, f.good && !f.authBad, cut, u.localNs, u.wireNs q.port (l.length + 4), c, q.debt, none⟩

/-- The frame leaves its queue, and its transmission stands on the port. -/
theorem beginFrame_begins {s : State} {q : Queued} {f : Frame} {l : Bytes} {v u : State} {c : Option (Nat × Nat)}
    (hframe : s.frame? q.handle = some f) (hbytes : s.copyBytes q f = (some l, v))
    (hhead : v.takeHeadIf (some q.handle) (v.writesHeader q.dest.rewrite) = (c, u)) (cut : Bool) :
    Assoc.get? (s.beginFrame q cut).egu.tx q.port = some (u.txOf q f l c cut) ∧
      (s.beginFrame q cut).egu.queues.length = (u.egu.queues.erase q).length ∧
      (s.beginFrame q cut).regs = u.regs ∧ (s.beginFrame q cut).fpu = u.fpu := by
  simp only [State.beginFrame, hframe, hbytes, hhead]
  refine ⟨?_, length_queues_newHead _ _ _ _, ?_, ?_⟩
  · rw [newHead_rest]
    exact Assoc.get?_set_same ..
  · rw [newHead_rest]
    rfl
  · rw [newHead_rest]
    rfl

section
variable {s : State} {o : Nat} {p : Fin 32} {q : Queued} {f : Frame} (hidle : (s.moment o).portIdle p = true)
  (hmedia : (s.moment o).mediaDue p = false) (hframe : (s.moment o).settle.frame? q.handle = some f)
include hidle hmedia hframe

theorem exec_beFrameStart (hreplay : s.hgc.replayDue = []) (hnext : (s.moment o).settle.nextFrame p false = some q)
    (hgood : f.good = true) (hauth : f.authBad = false) :
    exec (.beFrameStart p o) s = ok ((s.moment o).settle.beginFrame q false) := by
  have hnone : (s.moment o).settle.nextReplay false p = none := by
    rw [State.nextReplay, present_rest]
    simp [settled, hreplay]
  simp [exec, execBeFrameStart, hidle, hmedia, hnone, hnext, hframe, hgood, hauth]

theorem exec_cutThroughStart (hnext : (s.moment o).settle.nextFrame p true = some q) (hcut : q.cut = true)
    (hstart : f.good = true ∧ f.authBad = false ∨ (s.moment o).settle.bytesIn f < f.bytes.length + 4) :
    exec (.cutThroughStart p o) s = ok ((s.moment o).settle.beginFrame q true) := by
  have hkept : ((!f.good || f.authBad) && decide (f.bytes.length + 4 ≤ (s.moment o).settle.bytesIn f)) = false := by
    rcases hstart with ⟨hgood, hauth⟩ | hcoming
    · simp [hgood, hauth]
    · simp [Nat.not_le.mpr hcoming]
  simp [exec, execCutThroughStart, hidle, hmedia, hnext, hframe, hcut, hkept]

end

/-! ## A frame ends on a port (R166, R279) -/

theorem writesAny_stat {s₀ s : State} (h : Writes anyWord s₀ s) (p i n : Nat) : Writes anyWord s₀ (s.stat p i n) :=
  writesAny_put h (statField p i) _

theorem writes_statTx (s : State) (p : Nat) (x : Tx) : Writes anyWord s (s.statTx p x) := by
  have hsent : Writes anyWord s (((s.stat p 13 (x.bytes.length + 4)).stat p 14 1).statCast p 15 x.bytes) :=
    (writes_sentStats s p _ _).mono fun _ _ => rfl
  unfold State.statTx
  have hcounted := writes_ite (c := x.good = true) hsent (writesAny_stat (Writes.refl s) p 18 1)
  exact writes_when hcounted (writesAny_stat hcounted p 17 1)

/-- The frame has left port `p`, and is counted; `run` counts the port's cut-through frames. -/
def State.txSent (s : State) (p : Nat) (run : List (Nat × Nat)) (x : Tx) : State :=
  (({ s with egu := { s.egu with tx := Assoc.erase s.egu.tx p, ctRun := run } } : State).emit (.frame p x.bytes x.good)).statTx p x

theorem txSent_tx (s : State) (p : Nat) (run : List (Nat × Nat)) (x : Tx) :
    (s.txSent p run x).egu.tx = Assoc.erase s.egu.tx p := by
  rw [State.txSent, (writes_statTx _ p x).rest]
  rfl

theorem txSent_out (s : State) (p : Nat) (run : List (Nat × Nat)) (x : Tx) :
    (s.txSent p run x).out = .frame p x.bytes x.good :: s.out := by
  rw [State.txSent, (writes_statTx _ p x).rest]
  rfl

theorem txComplete_completes {s : State} {o : Nat} {p : Fin 32} {x : Tx} (hx : Assoc.get? s.egu.tx p = some x)
    (hover : x.start + x.wire ≤ (s.moment o).localNs) : completes (.txComplete p o) s fun t =>
      Assoc.get? t.egu.tx p = none ∧ t.out = .frame p x.bytes x.good :: s.out := by
  obtain ⟨run, hexec⟩ : ∃ run, exec (.txComplete p o) s =
      ok ((((s.moment o).settle.txSent p run x).payDebt x.debt).releaseWith x.handle x.head) := by
    simp only [exec, execTxComplete, moment_egu, hx, Nat.not_lt.mpr hover, if_false]
    exact ⟨_, rfl⟩
  have hclosed := (settles_payDebt ((s.moment o).settle.txSent p run x) x.debt).closes.trans (closes_releaseWith _ x.handle x.head)
  refine ⟨_, hexec, ?_, ?_⟩
  · rw [hclosed.tx, txSent_tx, Assoc.get?_erase_same]
  · rw [hclosed.out, txSent_out, present_rest]
    rfl

/-! ## CT_STEP (R280) -/

theorem setStep_rest (s : State) (p v : Nat) :
    s.setStep p v = { s with regs := (s.setStep p v).regs, events := (s.setStep p v).events, once := (s.setStep p v).once } := by
  unfold State.setStep
  split
  · rfl
  · rw [State.raise, raiseEvent_rest, put_rest]

theorem ctStep_setStep {s : State} (hc : s.canon = true) (p : Fin 32) {v : Nat} (hv : v < 8) :
    (s.setStep p v).get (Reg.PXC_PORT_STATUS_CT_STEP p) = v := by
  have hok : (Reg.PXC_PORT_STATUS_CT_STEP p).ok = true := by simp [Field.ok]
  have hraised : Within (words [Reg.QE_ARB_LOST]) (s.put (Reg.PXC_PORT_STATUS_CT_STEP p) v)
      ((s.put (Reg.PXC_PORT_STATUS_CT_STEP p) v).raise .pxc 5 [(8, p.val), (8, v)]) :=
    within_raise (Within.refl _) (by decide) (by decide)
  unfold State.setStep
  split
  next hsame => exact hsame
  next =>
    rw [hraised.get_eq_low (canon_put hc) (show 22 < 32 by decide) (by simp [words]; omega), get_put_same hc hok]
    exact Nat.mod_eq_of_lt hv

/-- CT_STEP comes down by one, above its base. -/
theorem ctStepDecay_completes {s : State} (hc : s.canon = true) (p : Fin 32) (hrun : 65536 ≤ Assoc.getD s.egu.ctRun p 0)
    (hbase : s.get (Reg.PXC_PORT_CFG_CT_BASE p) < s.get (Reg.PXC_PORT_STATUS_CT_STEP p)) :
    completes (.ctStepDecay p) s fun t =>
      t.get (Reg.PXC_PORT_STATUS_CT_STEP p) = s.get (Reg.PXC_PORT_STATUS_CT_STEP p) - 1 ∧
      posted s t .pxc 5 [(8, p), (8, s.get (Reg.PXC_PORT_STATUS_CT_STEP p) - 1)] ∧
      NoisyFrame (words [Reg.PXC_PORT_STATUS_CT_STEP p]) s
        { s with egu := { s.egu with ctRun := Assoc.erase s.egu.ctRun p } } t := by
  have hlt : s.get (Reg.PXC_PORT_STATUS_CT_STEP p) < 8 := get_lt s (Reg.PXC_PORT_STATUS_CT_STEP p)
  have hmax : max (min (s.get (Reg.PXC_PORT_STATUS_CT_STEP p)) (s.get (Reg.PXC_PORT_CFG_CT_BASE p)))
      (s.get (Reg.PXC_PORT_STATUS_CT_STEP p) - 1) = s.get (Reg.PXC_PORT_STATUS_CT_STEP p) - 1 := by omega
  generalize hu : ({ s with egu := { s.egu with ctRun := Assoc.erase s.egu.ctRun p } } : State) = u
  have hstep : u.get (Reg.PXC_PORT_STATUS_CT_STEP p) = s.get (Reg.PXC_PORT_STATUS_CT_STEP p) := by rw [← hu]; rfl
  have hsame : Within (fun _ => false) s u := by rw [← hu]; exact within_same (Within.refl s) rfl rfl rfl
  have hevents : u.events = s.events := by rw [← hu]
  have hexec : exec (.ctStepDecay p) s = ok (u.setStep p (s.get (Reg.PXC_PORT_STATUS_CT_STEP p) - 1)) := by
    rw [← hmax, ← hu]
    simp only [exec, execCtStepDecay, Nat.not_lt.mpr hrun, if_false]
    rfl
  have hset : u.setStep p (s.get (Reg.PXC_PORT_STATUS_CT_STEP p) - 1) =
      (u.put (Reg.PXC_PORT_STATUS_CT_STEP p) (s.get (Reg.PXC_PORT_STATUS_CT_STEP p) - 1)).raise .pxc 5
        [(8, p.val), (8, s.get (Reg.PXC_PORT_STATUS_CT_STEP p) - 1)] := if_neg (by rw [hstep]; omega)
  refine ⟨_, hexec, ctStep_setStep (hsame.canon hc) p (by omega), ?_, noisyFrame hc ?_ (setStep_rest u p _)⟩
  · rw [hset]
    exact posted_raise ((State.put_events ..).trans hevents) _ _ _
  · rw [hset]
    exact within_raise (within_put (hsame.mono fun _ h => nomatch h) (by simp [words]) (.inl (show 22 < 32 by decide)))
      (by simp +decide [words]) (by simp +decide [words])

/-! ## TX_UNDERRUN (R279, R280) -/

/-- The words that an underrun on port `p` can change ahead of CT_STEP. -/
def underrunWord (p k : Nat) : Bool := presentWord k || words [statField p 18, statField p 19] k || closeWord k

/-- The frame on port `p` is ended, and the underrun is counted. -/
def State.underrun (s : State) (p : Nat) (x : Tx) : State :=
  let t := (s.endFrame p x).stat p 19 1
  { t with egu := { t.egu with ctRun := Assoc.erase t.egu.ctRun p } }

section
variable (s : State) (p : Nat) (x : Tx)

/-- The frame has left with a bad FCS after the bytes that were sent, and is counted. -/
def State.cutShort : State :=
  (({ s with egu := { s.egu with tx := Assoc.erase s.egu.tx p } } : State).emit
    (.frame p (x.bytes.take (s.bytesSent p x)) false)).stat p 18 1

theorem closes_endFrame : Closes (s.cutShort p x) (s.endFrame p x) :=
  (settles_payDebt _ x.debt).closes.trans (closes_releaseWith _ x.handle x.head)

theorem within_underrun : Within (underrunWord p) s (s.underrun p x) := by
  have hstat : ∀ {t : State} {i : Nat}, statField p i ∈ [statField p 18, statField p 19] → Within (underrunWord p) s t →
      Within (underrunWord p) s (t.stat p i 1) := fun hi ht =>
    ht.trans ((writes_stat (Writes.refl _) hi 1).within.mono fun k hk => by
      simp only [underrunWord, hk, Bool.or_true, Bool.true_or])
  have hcut : Within (underrunWord p) s (s.cutShort p x) := hstat (by simp) (within_same (Within.refl s) rfl rfl rfl)
  have hended : Within (underrunWord p) s (s.endFrame p x) :=
    hcut.trans ((closes_endFrame s p x).within.mono fun k hk => by simp only [underrunWord, hk, Bool.or_true])
  exact within_same (hstat (by simp) hended) rfl rfl rfl

theorem tx_underrun : (s.underrun p x).egu.tx = Assoc.erase s.egu.tx p := by
  have hended := (closes_endFrame s p x).tx
  simp only [State.underrun, State.stat, State.bumpBy_egu, hended, State.cutShort, State.emit_egu]

theorem out_underrun : (s.underrun p x).out = .frame p (x.bytes.take (s.bytesSent p x)) false :: s.out := by
  have hended := (closes_endFrame s p x).out
  simp only [State.underrun, State.stat, State.bumpBy_out, hended, State.cutShort, State.emit]

theorem once_underrun : ∀ k ∈ (s.underrun p x).once, k ∈ s.once ∨ k = 0x601 ∨ k = 0xA0000 := by
  intro k hk
  have hended := (closes_endFrame s p x).once k
  simp only [State.underrun, State.stat, State.bumpBy_once] at hk
  simpa only [State.cutShort, State.stat, State.bumpBy_once, State.emit_once] using hended hk

end

/-- Something has been done under `key` in this tick. -/
def State.noteOnce (s : State) (key : Nat) : State := { s with once := key :: s.once }

theorem noteOnce_canon (s : State) (key : Nat) : (s.noteOnce key).canon = s.canon := rfl
theorem noteOnce_get (s : State) (key : Nat) (f : Field) : (s.noteOnce key).get f = s.get f := rfl
theorem noteOnce_egu (s : State) (key : Nat) : (s.noteOnce key).egu = s.egu := rfl
theorem noteOnce_out (s : State) (key : Nat) : (s.noteOnce key).out = s.out := rfl

theorem oncePerTick_first {s : State} {key : Nat} (h : key ∉ s.once) (f : State → State) :
    s.oncePerTick key f = f (s.noteOnce key) :=
  if_neg (by simpa using h)

theorem setStep_egu (s : State) (p v : Nat) : (s.setStep p v).egu = s.egu := by rw [setStep_rest]
theorem setStep_out (s : State) (p v : Nat) : (s.setStep p v).out = s.out := by rw [setStep_rest]

/-- A port's first underrun in a tick. -/
theorem exec_txUnderrun_first {s : State} {o : Nat} {p : Fin 32} {x : Tx} (hx : Assoc.get? s.egu.tx p = some x)
    (hfirst : 0x20500 + p.val ∉ ((s.moment o).settle.underrun p x).once) : exec (.txUnderrun p o) s =
      ok ((((s.moment o).settle.underrun p x).noteOnce (0x20500 + p.val)).setStep p
        (min 6 (((s.moment o).settle.underrun p x).get (Reg.PXC_PORT_STATUS_CT_STEP p) + 1))) := by
  have hexec : exec (.txUnderrun p o) s = ok (((s.moment o).settle.underrun p x).oncePerTick (0x20500 + p.val) fun s =>
      s.setStep p (min 6 (s.get (Reg.PXC_PORT_STATUS_CT_STEP p) + 1))) := by
    simp only [exec, execTxUnderrun, moment_egu, hx]
    rfl
  rw [hexec, oncePerTick_first hfirst, noteOnce_get]

/-- How much of a frame has left rests on the clock and on the port's rate, which do not move with the credits. -/
theorem bytesSent_settle {s : State} (hc : s.canon = true) (p : Fin 32) (x : Tx) : s.settle.bytesSent p x = s.bytesSent p x := by
  have hsettled := (settles_settle s).within
  have htick : s.settle.tick = s.tick := hsettled.get_eq hc (by decide) (by decide)
  have hoffset : s.settle.offset = s.offset := hsettled.get_eq hc (by decide) (by decide)
  have hperiod : s.settle.period = s.period := period_congr (hsettled.get_eq hc (by decide) (by decide))
  have hspeed : s.settle.get (Reg.PXC_PORT_CFG_SPEED p) = s.get (Reg.PXC_PORT_CFG_SPEED p) :=
    hsettled.get_eq_low hc (show 31 < 32 by decide) (by simp [settleWord, inRange]; omega)
  simp only [State.bytesSent, State.localNs, State.portRate, htick, hoffset, hperiod, hspeed]

theorem txUnderrun_completes {s : State} (hc : s.canon = true) {o : Nat} {p : Fin 32} {x : Tx} (hx : Assoc.get? s.egu.tx p = some x)
    (honce : 0x20500 + p.val ∉ s.once) : completes (.txUnderrun p o) s fun t => Assoc.get? t.egu.tx p = none ∧
      t.out = .frame p (x.bytes.take ((s.moment o).bytesSent p x)) false :: s.out ∧
      t.get (Reg.PXC_PORT_STATUS_CT_STEP p) = min 6 (s.get (Reg.PXC_PORT_STATUS_CT_STEP p) + 1) := by
  have hended := within_underrun (s.moment o).settle p x
  have hpresent := within_present s o
  have hmoment : (s.moment o).canon = true := (writes_moment s o).canon hc
  have hcanon : ((s.moment o).settle.underrun p x).canon = true := hended.canon (hpresent.canon hc)
  have hfirst : 0x20500 + p.val ∉ ((s.moment o).settle.underrun p x).once := fun hmem => by
    rcases once_underrun _ p x _ hmem with h | h | h
    · rw [present_rest] at h
      exact honce h
    · omega
    · omega
  have hstep : ((s.moment o).settle.underrun p x).get (Reg.PXC_PORT_STATUS_CT_STEP p) = s.get (Reg.PXC_PORT_STATUS_CT_STEP p) := by
    rw [hended.get_eq_low (hpresent.canon hc) (show 22 < 32 by decide)
      (by simp [underrunWord, presentWord, closeWord, bufferWord, settleWord, inRange, words, statField]; omega),
      hpresent.get_eq_low hc (show 22 < 32 by decide) (by simp [presentWord, settleWord, inRange, words]; omega)]
  refine ⟨_, exec_txUnderrun_first hx hfirst, ?_, ?_, ?_⟩
  · rw [setStep_egu, noteOnce_egu, tx_underrun, Assoc.get?_erase_same]
  · rw [setStep_out, noteOnce_out, out_underrun, bytesSent_settle hmoment, present_rest]
    rfl
  · rw [hstep]
    exact ctStep_setStep ((noteOnce_canon ..).trans hcanon) p (by omega)

/-! ## HEAD_OF_QUEUE_TIMEOUT (R210) -/

section
variable (s : State) (q : Queued)

/-- The frame has left its queue, and the next one stands at its head from now. -/
def State.unqueued : State :=
  let t : State := { s.settle with egu := { s.settle.egu with
    queues := s.settle.egu.queues.filter (· != q), shaper := s.settle.egu.shaper.filter (fun x => x.2 != q) } }
  t.newHead q.port q.dest.tc (s.settle.headOf q.port q.dest.tc)

theorem closes_dropQueued : Closes (s.unqueued q) (s.dropQueued q) :=
  (settles_payDebt _ q.debt).closes.trans (closes_releaseCopy _ q.handle)

theorem length_queues_dropQueued : (s.dropQueued q).egu.queues.length = (s.egu.queues.filter (· != q)).length := by
  have hsettled : s.settle.egu.queues = s.egu.queues := (settles_settle s).closes.queues
  rw [(closes_dropQueued s q).queues, State.unqueued, length_queues_newHead, ← hsettled]

theorem within_dropQueued : Within closeWord s (s.dropQueued q) := by
  refine Within.trans (within_same (settles_settle s).closes.within ?_ ?_ ?_) (closes_dropQueued s q).within
  all_goals
    rw [State.unqueued, newHead_rest]

end

theorem headOfQueueTimeout_completes {s : State} (hc : s.canon = true) {p : Fin 32} {c : Fin 8} {o : Nat} {q : Queued}
    (hhead : s.headOf p c = some q) (hdue : q.headSince + s.period ≤ (s.moment o).localNs) :
    completes (.headOfQueueTimeout p c o) s fun t => t.egu.queues.length = (s.egu.queues.filter (· != q)).length ∧
      t.get Reg.EGU_GATE_DROP = (s.get Reg.EGU_GATE_DROP + 1) % 2 ^ 64 := by
  have hpresent := within_present s o
  have hcanon := hpresent.canon hc
  have hhead' : (s.moment o).headOf p c = some q := by rw [State.headOf, moment_egu]; exact hhead
  have hperiod : (s.moment o).period = s.period := period_congr ((writes_moment s o).get_eq hc (by decide) (by decide))
  have hexec : exec (.headOfQueueTimeout p c o) s = ok (((s.moment o).settle.bump Reg.EGU_GATE_DROP).dropQueued q) := by
    simp only [exec, execHeadOfQueueTimeout, hhead', hperiod, Nat.not_lt.mpr hdue, if_false]
    rfl
  refine ⟨_, hexec, ?_, ?_⟩
  · rw [length_queues_dropQueued, State.bump_egu, present_rest]
    rfl
  · have hbumped : ((s.moment o).settle.bump Reg.EGU_GATE_DROP).canon = true := canon_put hcanon
    rw [(within_dropQueued _ q).get_eq hbumped (by decide) (by decide), State.bump, get_put_same hcanon (by decide),
      hpresent.get_eq hc (by decide) (by decide)]
    rfl

/-! ## SHAPER_RELEASE (R219) -/

section
variable {s : State} {k : Nat} {q : Queued} {ds : List (Nat × Int)}

/-- The nodes of a leaf are debited. -/
def State.debited (s : State) (ds : List (Nat × Int)) : State :=
  ds.foldl (fun s x => s.setLevel x.1 ((s.level x.1).1 - x.2, (s.level x.1).2)) s

theorem closes_debited (s : State) (ds : List (Nat × Int)) : Closes s (s.debited ds) :=
  (settles_foldl ds (fun t x => settles_setLevel t x.1 _) s).closes

/-- The leaf's head leaves the shaper stage. -/
def State.leafReleased (s : State) (k : Nat) (q : Queued) (ds : List (Nat × Int)) : State :=
  { s.debited ds with egu := { (s.debited ds).egu with shaper := (s.debited ds).egu.shaper.erase (k, q), shaperPtr := k + 1 } }

theorem shaper_leafReleased (hshaper : s.egu.shaper = [(k, q)]) (ds : List (Nat × Int)) :
    (s.leafReleased k q ds).egu.shaper = [] := by
  rw [State.leafReleased, (closes_debited s ds).shaper, hshaper, List.erase_cons_head]

theorem releaseHeads_empty (hnone : s.egu.shaper = []) (n : Nat) : s.releaseHeads n = s := by
  cases n with
  | zero => rfl
  | succ n => simp [State.releaseHeads, hnone]

theorem shaper_joinQueue (s : State) (q : Queued) : (s.joinQueue q).egu.shaper = s.egu.shaper := by
  rw [State.joinQueue, newHead_rest]

theorem length_queues_joinQueue (s : State) (q : Queued) : (s.joinQueue q).egu.queues.length = s.egu.queues.length + 1 := by
  rw [State.joinQueue, length_queues_newHead]
  exact List.length_append

/-- The head of the one leaf in use is released where it is eligible, and nothing is left to release. -/
theorem releaseHeads_single (hshaper : s.egu.shaper = [(k, q)]) (heligible : s.eligible k = some (q, ds)) (n : Nat) :
    s.releaseHeads (n + 1) = (s.leafReleased k q ds).joinQueue q := by
  have hleaves : ((s.egu.shaper.map (fun (x : Nat × Queued) => x.1)).eraseDups).filter (fun k => (s.eligible k).isSome) = [k] := by
    have honly : ([k] : List Nat).eraseDups = [k] := rfl
    simp [hshaper, honly, heligible]
  have hfirst : (([k].filter (fun k => s.egu.shaperPtr ≤ k)).mergeSort ++ [k].mergeSort).head? = some k := by
    by_cases hptr : s.egu.shaperPtr ≤ k <;> simp [hptr]
  have hdone : ((s.leafReleased k q ds).joinQueue q).releaseHeads n = (s.leafReleased k q ds).joinQueue q :=
    releaseHeads_empty ((shaper_joinQueue _ q).trans (shaper_leafReleased hshaper ds)) n
  rw [← hdone, State.releaseHeads, hleaves]
  simp only [hfirst, heligible]
  rfl

theorem shaperRelease_completes {o : Nat} (hrun : s.running .egu = true) (hshaper : s.egu.shaper = [(k, q)])
    (heligible : (s.moment o).settle.eligible k = some (q, ds)) : completes (.shaperRelease o) s fun t =>
      t.egu.shaper = [] ∧ t.egu.queues.length = s.egu.queues.length + 1 := by
  have hpresent : (s.moment o).settle.egu.shaper = [(k, q)] := by rw [present_rest]; exact hshaper
  have hexec : exec (.shaperRelease o) s = ok (((s.moment o).settle.leafReleased k q ds).joinQueue q) := by
    rw [← releaseHeads_single hpresent heligible 3]
    simp only [exec, execShaperRelease, hrun, if_true]
  refine ⟨_, hexec, (shaper_joinQueue _ q).trans (shaper_leafReleased hpresent ds), ?_⟩
  rw [length_queues_joinQueue, State.leafReleased, (closes_debited _ ds).queues, present_rest]
  rfl

end

/-! ## A media packet toward a host ring (R208, R229, R387) -/

theorem presentWord_window {k : Nat} (hk : 0x12000000 ≤ k) : presentWord k = false := by
  simp [presentWord, settleWord, inRange, words]
  omega

theorem offset_moment {s : State} (hc : s.canon = true) (o : Nat) : s.offset ≤ (s.moment o).offset := by
  unfold State.moment
  split
  · have hoffset : s.offset < 2 ^ 32 := get_lt s Reg.TE_OFFSET
    have hperiod := period_le s
    have hfits : max s.offset (min o (s.period - 1)) < 2 ^ 32 := by omega
    have hread := get_put_same (v := max s.offset (min o (s.period - 1))) hc (show Reg.TE_OFFSET.ok = true by decide)
    exact (le_max_left _ _).trans (hread.trans (Nat.mod_eq_of_lt hfits)).ge
  · exact le_rfl

section
variable {s t : State} (hwindow : ∀ k, 0x12000000 ≤ k → t.rd k = s.rd k)
include hwindow

theorem get_window {f : Field} (hf : 0x12000000 ≤ f.key) : t.get f = s.get f := by
  simp only [State.get, hwindow f.key hf, hwindow (f.key + 4) (by omega)]

theorem listDests_congr (l : Nat) : t.listDests l = s.listDests l := by
  have hhead : t.rd (listHead l) = s.rd (listHead l) := hwindow _ (by unfold listHead; omega)
  have hmember : ∀ m, t.rd (listMember l m) = s.rd (listMember l m) := fun m => hwindow _ (by unfold listMember; omega)
  have hoffset : ∀ m, t.rd (listMember l m + 4) = s.rd (listMember l m + 4) := fun m => hwindow _ (by unfold listMember; omega)
  simp only [State.listDests, hhead, hmember, hoffset]

theorem dests_congr (f : Nat) : t.dests f = s.dests f := by
  have hfield := fun (lo hi word : Nat) (hword : 0x12000000 ≤ word) =>
    get_window hwindow (f := ⟨word + 128 * f, hi, lo⟩) (Nat.le_add_right_of_le hword)
  have hlist : t.get (Reg.FLOW_EG_LIST f) = s.get (Reg.FLOW_EG_LIST f) := hfield _ _ _ (by decide)
  have hkind : t.get (Reg.FLOW_EG_KIND f) = s.get (Reg.FLOW_EG_KIND f) := hfield _ _ _ (by decide)
  have htarget : t.get (Reg.FLOW_EG_TARGET f) = s.get (Reg.FLOW_EG_TARGET f) := hfield _ _ _ (by decide)
  have hslot : t.get (Reg.FLOW_EG_SLOT f) = s.get (Reg.FLOW_EG_SLOT f) := hfield _ _ _ (by decide)
  have hprogram : t.get (Reg.FLOW_REWRITE f) = s.get (Reg.FLOW_REWRITE f) := hfield _ _ _ (by decide)
  simp only [State.dests, flag_congr hlist, listDests_congr hwindow, hkind, htarget, hslot, hprogram]

theorem rtuServes_congr (hrtu : t.running .rtu = s.running .rtu) (f : Nat) : t.rtuServes f = s.rtuServes f := by
  have hkind : t.get (Reg.FLOW_SRC_KIND f) = s.get (Reg.FLOW_SRC_KIND f) := get_window hwindow (Nat.le_add_right_of_le (by decide))
  simp only [State.rtuServes, hrtu, hkind, dests_congr hwindow]

end

theorem rxOwned_congr {s t : State} {r : Nat} (hqe : t.qe = s.qe)
    (henable : t.flag (Reg.RING_ENABLE r) = s.flag (Reg.RING_ENABLE r)) : t.rxOwned r = s.rxOwned r := by
  simp only [State.rxOwned, hqe, henable]

/-- A unit in SOLO transmits unless its image declares role PAIR. -/
theorem mayTransmit_solo {s : State} (h : s.hedgeState = 0) : s.mayTransmit = (!s.pairRole && !s.sup.imagePair) := by
  simp [State.mayTransmit, h]

theorem when_false (s : State) (f : State → State) : s.when false f = s := rfl

theorem keepBacklog_solo {s : State} (h : s.hedgeState = 0) (p : BacklogPkt) : s.keepBacklog p = s := by simp [State.keepBacklog, h]

theorem takeFallbackEpoch_solo {s : State} (h : s.hedgeState = 0) : s.takeFallbackEpoch = s := by simp [State.takeFallbackEpoch, h]

/-- Nothing stops the packets of copy `c` toward its host ring: the flow has no class, no guard and no encryption, the ring owns a
buffer, and the unit, in SOLO, transmits. -/
structure RingOpen (s : State) (c : Copy) : Prop where
  toRing : c.toRing = true
  follows : c.first = false
  handles : c.handles = []
  noClass : s.classOf c.flow = 0
  unguarded : s.guarded c.flow = false
  clear : s.get (Reg.FLOW_ENC_OUT c.flow) = 0
  attached : s.attached = true
  owned : 0 < s.rxOwned c.target
  transmits : s.mayTransmit = true
  solo : s.hedgeState = 0

/-- The registers that this rests on, beside QE's state and what the image declares. -/
def ringFields (c : Copy) : List Field :=
  [Reg.FLOW_CLASS c.flow, Reg.FLOW_SPK c.flow, Reg.FLOW_ENC_OUT c.flow, Reg.HIU_HOST_STATE_MODE, Reg.RING_ENABLE c.target,
    Reg.HGC_CFG_ROLE, Reg.HGC_STATE_STATE]

theorem RingOpen.of_reads {s t : State} {c : Copy} (h : RingOpen s c) (hread : ∀ f ∈ ringFields c, t.get f = s.get f)
    (hqe : t.qe = s.qe) (hsup : t.sup = s.sup) : RingOpen t c := by
  simp only [ringFields, List.forall_mem_cons] at hread
  obtain ⟨hclass, hguard, henc, hmode, henable, hrole, hstate, -⟩ := hread
  have hsolo : t.hedgeState = 0 := hstate.trans h.solo
  refine ⟨h.toRing, h.follows, h.handles, hclass.trans h.noClass, (flag_congr hguard).trans h.unguarded, henc.trans h.clear,
    ?_, ?_, ?_, hsolo⟩
  · rw [State.attached, flag_congr hmode, ← State.attached, h.attached]
  · rw [rxOwned_congr hqe (flag_congr henable)]
    exact h.owned
  · rw [mayTransmit_solo hsolo, pairRole_congr hrole, hsup, ← mayTransmit_solo h.solo]
    exact h.transmits

theorem RingOpen.congr {s t : State} {c : Copy} (h : RingOpen s c) (hregs : t.regs = s.regs) (hqe : t.qe = s.qe)
    (hsup : t.sup = s.sup) : RingOpen t c := h.of_reads (fun f _ => get_congr hregs f) hqe hsup

section
variable {s : State} {c : Copy}

theorem RingOpen.passes (h : RingOpen s c) (m : Nat) : s.step9Stops c.flow m = false := by
  simp [State.step9Stops, State.safeStops, h.noClass, h.unguarded]

theorem RingOpen.notBlocked (h : RingOpen s c) : s.egressBlocked c = false := by
  simp [State.egressBlocked, h.toRing, h.attached, h.owned.ne']

theorem RingOpen.sendContent (h : RingOpen s c) (plain body : Bytes) (flags : Nat) (rtp edged : Bool) :
    s.sendContent c plain body flags rtp none edged = s.toMediaRing c.flow c.target none
      (s.mediaHeader c.flow c.outTick c.next flags rtp ++ body) := by
  have hkey : s.payloadKey c.flow c.outTick rtp false = (some none, s) := by simp [State.payloadKey, h.clear]
  have hhandle : c.handle = none := by simp [Copy.handle, h.handles]
  simp [State.sendContent, State.when, sealedBody, hkey, hhandle, h.toRing, h.follows, h.transmits]

/-- The packet is out of the copy, and the override stage is noted where it fails. -/
def State.packetTaken (s : State) (c : Copy) (stageBad : Bool) : State :=
  (s.advanceCopy c).when stageBad fun s => { s with egu := { s.egu with stageBad := true } }

theorem RingOpen.packetTaken (h : RingOpen s c) (stageBad : Bool) : RingOpen (s.packetTaken c stageBad) c := by
  cases stageBad <;> exact h.congr rfl rfl rfl

theorem RingOpen.sendPacket (h : RingOpen s c) (stageBad : Bool) :
    ∃ l, s.sendPacket c none stageBad = (s.packetTaken c stageBad).toMediaRing c.flow c.target none l := by
  have hadvanced : RingOpen (s.advanceCopy c) c := h.congr rfl rfl rfl
  have htaken := h.packetTaken stageBad
  dsimp only [State.sendPacket]
  generalize hw : (s.advanceCopy c).when stageBad _ = w
  have hsame : s.packetTaken c stageBad = w := hw
  rw [hsame] at htaken ⊢
  simp only [hadvanced.noClass, hadvanced.passes, h.toRing, h.follows, Nat.reduceBEq, Bool.not_true, Bool.and_false, Bool.false_and,
    Bool.false_or, Bool.not_false, if_true, Bool.false_eq_true, if_false, when_false, keepBacklog_solo htaken.solo,
    htaken.notBlocked, takeFallbackEpoch_solo htaken.solo, htaken.sendContent]
  exact ⟨_, rfl⟩

theorem packetTaken_last (hcopies : s.media.copies = [c]) (hlast : c.next + 1 = (s.geometry c.flow).packets) (stageBad : Bool) :
    (s.packetTaken c stageBad).media.copies = [] := by
  have hadvanced : (s.advanceCopy c).media.copies = [] := by simp [State.advanceCopy, hlast, hcopies]
  cases stageBad <;> exact hadvanced

theorem packetTaken_regs (s : State) (c : Copy) (stageBad : Bool) : (s.packetTaken c stageBad).regs = s.regs := by
  cases stageBad <;> rfl

theorem packetTaken_canon (s : State) (c : Copy) (stageBad : Bool) : (s.packetTaken c stageBad).canon = s.canon := by
  cases stageBad <;> rfl

theorem packetTaken_qe (s : State) (c : Copy) (stageBad : Bool) : (s.packetTaken c stageBad).qe = s.qe := by
  cases stageBad <;> rfl

end

/-- The packet of a copy without handles waits for its ring, and is counted. -/
theorem toMediaRing_queues {s : State} (hc : s.canon = true) (f ring : Nat) (l : Bytes) :
    (s.toMediaRing f ring none l).media = s.media ∧
      (s.toMediaRing f ring none l).get (Reg.FLOW_TX_PKTS f) = (s.get (Reg.FLOW_TX_PKTS f) + 1) % 2 ^ 64 ∧
      (s.toMediaRing f ring none l).qe.rxWait.length = s.qe.rxWait.length + 1 := by
  have hok : (Reg.FLOW_TX_PKTS f).ok = true := by simp [Field.ok]; omega
  refine ⟨State.bump_media .., ?_, ?_⟩
  · exact get_put_same hc hok
  · simp [State.toMediaRing, State.takeHeadIf]

section
variable {s : State} {o : Nat} {r : Fin 131072} {c : Copy} (hc : s.canon = true)
include hc

/-- As a moment comes, nothing changes that the copies toward a host ring rest on. -/
theorem RingOpen.present (h : RingOpen s c) : RingOpen (s.moment o).settle c := by
  have hpresent := within_present s o
  refine h.of_reads ?_ (by rw [present_rest]; rfl) (by rw [present_rest]; rfl)
  simp only [ringFields, List.forall_mem_cons]
  refine ⟨?_, ?_, ?_, ?_, ?_, ?_, ?_, by simp⟩
  all_goals exact hpresent.get_eq_low hc (by simp) (by simp [presentWord, settleWord, inRange, words] <;> omega)

theorem geometry_present (f : Nat) : (s.moment o).settle.geometry f = s.geometry f := by
  have hpresent := within_present s o
  refine geometry_congr ?_
  simp only [flowFields, List.forall_mem_cons]
  refine ⟨?_, ?_, ?_, ?_, ?_, ?_, ?_, ?_, ?_, ?_, by simp⟩
  all_goals exact hpresent.get_eq_low hc (by simp) (by simp [presentWord, settleWord, inRange, words] <;> omega)

theorem nextCopy_only (hcopies : s.media.copies = [c]) (hring : c.toRing = true) (htarget : c.target = r.val)
    (htick : c.outTick = s.tick) (hdue : c.offset ≤ s.offset) : (s.moment o).nextCopy true r = some c := by
  have hmoment := writes_moment s o
  have hcopies' : (s.moment o).media.copies = [c] := by rw [hmoment.rest]; exact hcopies
  have htick' : (s.moment o).tick = s.tick := hmoment.get_eq hc (by decide) (by decide)
  have hdue' : c.offset ≤ (s.moment o).offset := hdue.trans (offset_moment hc o)
  simp [State.nextCopy, hcopies', hring, htarget, htick, htick', hdue']

theorem exec_mediaEgress (hrun : s.running .egu = true) (htier : s.tierZero = false) (hnext : (s.moment o).nextCopy true r = some c)
    (h : RingOpen s c) (hserves : s.rtuServes c.flow = true) (out bad : Bool) :
    exec (.mediaEgress true r o none out bad) s = ok ((s.moment o).settle.sendPacket c none bad) := by
  have hmoment := (writes_moment s o).within
  have hpresent := within_present s o
  have hrun' : (s.moment o).running .egu = true := by
    rw [State.running, hmoment.get_eq_low hc (by decide) (by decide)]
    exact hrun
  have htier' : (s.moment o).tierZero = false := by
    rw [State.tierZero, hmoment.get_eq_low hc (by decide) (by decide)]
    exact htier
  have hrtu : (s.moment o).settle.running .rtu = s.running .rtu := by
    rw [State.running, State.running, hpresent.get_eq_low hc (by decide) (by decide)]
  have hserves' : (s.moment o).settle.rtuServes c.flow = true :=
    (rtuServes_congr (fun k hk => hpresent.words hc k (presentWord_window hk)) hrtu c.flow).trans hserves
  have hhandle : c.handle = none := by simp [Copy.handle, h.handles]
  simp [exec, execMediaEgress, hrun', htier', hnext, (h.present hc).unguarded, hserves', hhandle]

/-- The last packet of a copy toward a host ring goes, and with it the copy. -/
theorem mediaEgress_completes (hrun : s.running .egu = true) (hcopies : s.media.copies = [c]) (htarget : c.target = r.val)
    (htick : c.outTick = s.tick) (hdue : c.offset ≤ s.offset) (hlast : c.next + 1 = (s.geometry c.flow).packets)
    (hserves : s.rtuServes c.flow = true) (htier : s.tierZero = false) (h : RingOpen s c) (out bad : Bool) :
    completes (.mediaEgress true r o none out bad) s fun t => t.media.copies = [] ∧
      t.get (Reg.FLOW_TX_PKTS c.flow) = (s.get (Reg.FLOW_TX_PKTS c.flow) + 1) % 2 ^ 64 ∧
      t.qe.rxWait.length = s.qe.rxWait.length + 1 := by
  have hpresent := within_present s o
  have hexec := exec_mediaEgress hc hrun htier (nextCopy_only (o := o) hc hcopies h.toRing htarget htick hdue) h hserves out bad
  obtain ⟨l, hsent⟩ := (h.present (o := o) hc).sendPacket bad
  have htaken : ((s.moment o).settle.packetTaken c bad).canon = true :=
    (packetTaken_canon ..).trans (hpresent.canon hc)
  obtain ⟨hmedia, hcount, hwaits⟩ := toMediaRing_queues htaken c.flow c.target l
  rw [hsent] at hexec
  refine ⟨_, hexec, ?_, ?_, ?_⟩
  · rw [hmedia]
    exact packetTaken_last (by rw [present_rest]; exact hcopies) (by rw [geometry_present hc]; exact hlast) bad
  · rw [hcount, get_congr (packetTaken_regs ..),
      get_window (fun k hk => hpresent.words hc k (presentWord_window hk)) (show 0x12000000 ≤ 0x12000048 + 128 * c.flow by omega)]
  · rw [hwaits, packetTaken_qe, present_rest]
    rfl

end

/-- Settles O8: clause by clause, each by what the command's moment leaves alone and by how a copy ends. -/
theorem egressCommandsComplete : Obligations.EgressCommandsComplete := by
  intro s hc o
  refine ⟨?ring, ?begins, ?cut, fun p x => txComplete_completes, fun p x => txUnderrun_completes hc, ctStepDecay_completes hc,
    fun p c q => headOfQueueTimeout_completes hc, fun k q ds => shaperRelease_completes⟩
  case ring =>
    intro r c out bad hrun hcopies hring htarget htick hdue hfirst hhandles hlast hserves hguard hclass henc hattached howned htier
      hsend hsolo
    exact mediaEgress_completes hc hrun hcopies htarget htick hdue hlast hserves htier
      ⟨hring, hfirst, hhandles, hclass, hguard, henc, hattached, htarget ▸ howned, hsend, hsolo⟩ out bad
  case begins =>
    intro p q f l v c u hidle hmedia hreplay hnext hframe hgood hauth hbytes hhead
    have hbegins := beginFrame_begins hframe hbytes hhead false
    rw [State.txOf, hgood, hauth] at hbegins
    exact ⟨_, exec_beFrameStart hidle hmedia hframe hreplay hnext hgood hauth, hbegins⟩
  case cut =>
    intro p q f l v c u hidle hmedia hnext hcut hframe hstart hbytes hhead
    exact ⟨_, exec_cutThroughStart hidle hmedia hframe hnext hcut hstart, beginFrame_begins hframe hbytes hhead true⟩

end Sys2Proof.Machine
end

section
/-! PROOFS. The sideband's commands (R204, R430), on updates of EGU's own state and of the registers beside it. -/

namespace Sys2Proof.Machine

/-! ## Updates of EGU -/

/-- EGU's own state is set. -/
def State.withEgu (s : State) (x : EguState) : State := { s with egu := x }

section
variable (s : State) (x : EguState)

@[simp] theorem withEgu_egu : (s.withEgu x).egu = x := rfl
@[simp] theorem withEgu_events : (s.withEgu x).events = s.events := rfl
@[simp] theorem withEgu_canon : (s.withEgu x).canon = s.canon := rfl
@[simp] theorem withEgu_get (f : Field) : (s.withEgu x).get f = s.get f := rfl
@[simp] theorem withEgu_flag (f : Field) : (s.withEgu x).flag f = s.flag f := rfl

end

/-- From `s` to `t` words of `area` change and, where events were lost, QE's count of them; beside registers only EGU's own state
does, and what raising events adds. -/
structure EguChange (area : Nat → Bool) (s t : State) : Prop where
  within : Within (fun k => area k || words [Reg.QE_ARB_LOST] k) s t
  rest : t = { s with regs := t.regs, egu := t.egu, events := t.events, once := t.once }

section
variable {area : Nat → Bool} {s₀ s t : State}

theorem EguChange.refl (s : State) : EguChange area s s := ⟨Within.refl s, rfl⟩

theorem EguChange.trans (h : EguChange area s₀ s) (g : EguChange area s t) : EguChange area s₀ t :=
  ⟨h.within.trans g.within, by rw [g.rest, h.rest]⟩

theorem EguChange.mono {more : Nat → Bool} (h : EguChange area s t) (hm : ∀ k, area k = true → more k = true) : EguChange more s t :=
  ⟨h.within.mono fun k hk => by
    simp only [Bool.or_eq_true] at hk ⊢
    exact hk.imp_left (hm k), h.rest⟩

theorem EguChange.canon (h : EguChange area s t) (hc : s.canon = true) : t.canon = true := h.within.canon hc

/-- A field away from the area and from QE's count reads as before. -/
theorem EguChange.get_eq (h : EguChange area s t) (hc : s.canon = true) {f : Field}
    (hlo : (area f.key || words [Reg.QE_ARB_LOST] f.key) = false)
    (hhi : (area (f.key + 4) || words [Reg.QE_ARB_LOST] (f.key + 4)) = false) : t.get f = s.get f := h.within.get_eq hc hlo hhi

theorem EguChange.free (h : EguChange area s t) : t.free = s.free := by rw [h.rest]

/-- The frame, where EGU has come to the state `x`. -/
theorem EguChange.noisyFrame (h : EguChange area s t) (hc : s.canon = true) {x : EguState} (hx : t.egu = x) :
    NoisyFrame area s (s.withEgu x) t := Machine.noisyFrame hc h.within (by rw [h.rest, hx]; rfl)

theorem eguChange_put (h : EguChange area s₀ s) {f : Field} (v : Nat) (hlo : area f.key = true)
    (hhi : f.hi < 32 ∨ area (f.key + 4) = true) : EguChange area s₀ (s.put f v) :=
  ⟨within_put h.within (by rw [hlo]; rfl) (hhi.imp_right fun hk => by rw [hk]; rfl), by rw [put_rest, h.rest]⟩

theorem eguChange_raise (h : EguChange area s₀ s) (u : Unit') (type : Nat) (l : List (Nat × Nat)) :
    EguChange area s₀ (s.raise u type l) :=
  ⟨within_raise h.within (by simp [words]) (by simp [words]), by rw [State.raise, raiseEvent_rest, h.rest]⟩

theorem eguChange_hlog (h : EguChange area s₀ s) (hlog : ∀ k, logWord k = true → area k = true) (type u pay : Nat) :
    EguChange area s₀ (s.hlog type u pay) :=
  ⟨within_hlog h.within fun k hk => by rw [hlog k hk]; rfl, by rw [hlog_rest, h.rest]⟩

theorem eguChange_withEgu (h : EguChange area s₀ s) (x : EguState) : EguChange area s₀ (s.withEgu x) :=
  ⟨within_same h.within rfl rfl rfl, by rw [h.rest]; rfl⟩

theorem Writes.eguChange (h : Writes area s t) : EguChange area s t :=
  ⟨h.within.mono fun k hk => by rw [hk]; rfl, by rw [h.rest]⟩

/-- The frame of a command that writes registers and leaves EGU in the state `x`. -/
theorem Writes.quietFrame_withEgu {x : EguState} (h : Writes area (s.withEgu x) t) (hc : s.canon = true) :
    QuietFrame area s (s.withEgu x) t := ⟨h.within.words hc, h.rest⟩

/-- Raising an event leaves every field as it is but QE's count of lost events. -/
theorem get_raise (hc : s.canon = true) (u : Unit') (type : Nat) (l : List (Nat × Nat)) {f : Field}
    (hlo : words [Reg.QE_ARB_LOST] f.key = false) (hhi : words [Reg.QE_ARB_LOST] (f.key + 4) = false) :
    (s.raise u type l).get f = s.get f :=
  (within_raise (Within.refl s) (area := words [Reg.QE_ARB_LOST]) (by decide) (by decide)).get_eq hc hlo hhi

end

/-! ## A unit's fault (R434) -/

section
variable {area : Nat → Bool} {s₀ s : State}

theorem fault_egu (s : State) (u code : Nat) : (s.fault u code).egu = s.egu := by
  unfold State.fault
  split
  · rw [State.raise_egu, State.hlog_egu, State.put_egu]
  · rw [State.hlog_egu]

theorem eguChange_fault (h : EguChange area s₀ s) (hlog : ∀ k, logWord k = true → area k = true) {u : Nat}
    (hfault : area (Reg.UNIT_FAULT u).key = true) (code : Nat) : EguChange area s₀ (s.fault u code) := by
  unfold State.fault
  split
  · exact eguChange_raise (eguChange_hlog (eguChange_put h code hfault (.inl (show 23 < 32 by decide))) hlog _ _ _) _ _ _
  · exact eguChange_hlog h hlog _ _ _

/-- FAULT of a unit takes the first code. -/
theorem get_fault (hc : s.canon = true) {u : Nat} (hfree : s.get (Reg.UNIT_FAULT u) = 0) (code : Nat) :
    (s.fault u code).get (Reg.UNIT_FAULT u) = code % 2 ^ 8 := by
  have hset : (s.put (Reg.UNIT_FAULT u) code).canon = true := canon_put hc
  have hok : (Reg.UNIT_FAULT u).ok = true := by simp [Field.ok]; omega
  have hlog : logWord (Reg.UNIT_FAULT u).key = false ∧ logWord ((Reg.UNIT_FAULT u).key + 4) = false := by
    constructor <;> simp [logWord, inRange, words] <;> omega
  rw [State.fault, if_pos hfree, get_raise ((keeps_hlog (Keeps.refl _)).canon hset) _ _ _ (by simp [words]; omega) (by simp [words]; omega),
    get_hlog hset hlog.1 hlog.2, get_put_same hc hok]
  rfl

end

/-! ## Writes of EGU_SIDEBAND (R204) -/

section
variable {s : State}

theorem sidebandWrite_pends (hsound : s.egu.sideFault = false) {r : Requester} (hmay : s.mayWrite r 0x07008600 = true)
    (hpair : s.pairRole = false) (v : Word) : exec (.sidebandWrite r v) s = ok (s.acceptSideband v.toNat (s.tick + 2)) := by
  have haccepted : (s.acceptSideband v.toNat (s.tick + 2)).pairRole = false := hpair
  simp only [exec, execSidebandWrite, State.writeSideband, hsound, hmay, Bool.not_true, Bool.or_self, Bool.false_eq_true, if_false,
    localOnly_alone hpair, carry_alone haccepted]

theorem sidebandWrite_dropped (hfault : s.egu.sideFault = true) (r : Requester) (v : Word) : exec (.sidebandWrite r v) s = ok s := by
  simp only [exec, execSidebandWrite, State.writeSideband, hfault, Bool.true_or, if_true]

variable {v at_ : Nat} {rest : List (Nat × Nat)}

/-- A write whose tick has come leaves the list, and drives the outputs but in tier 0 (log entry 94). -/
theorem exec_sidebandEffective (hpending : s.egu.sidePending = (v, at_) :: rest) (hdue : at_ ≤ s.tick) :
    exec .sidebandEffective s = ok (if s.tierZero then s.withEgu { s.egu with sidePending := rest }
      else (s.withEgu { s.egu with sidePending := rest }).driveSideband v) := by
  simp only [exec, execSidebandEffective, hpending, if_neg (Nat.not_lt.mpr hdue)]
  rfl

theorem sidebandEffective_drives (hc : s.canon = true) (hpending : s.egu.sidePending = (v, at_) :: rest) (hdue : at_ ≤ s.tick)
    (hv : v < 2 ^ 17) (htier : s.tierZero = false) (hsound : s.egu.sideFault = false) : completes .sidebandEffective s fun t =>
      t.get Reg.EGU_SIDEBAND_ALL = v ∧ QuietFrame (words [Reg.EGU_SIDEBAND_ALL]) s
        (s.withEgu { s.egu with sidePending := rest, sideA := v, sideB := v }) t := by
  have hdrives : (s.withEgu { s.egu with sidePending := rest }).driveSideband v =
      (s.withEgu { s.egu with sidePending := rest, sideA := v, sideB := v }).put Reg.EGU_SIDEBAND_ALL v := by
    rw [State.driveSideband, withEgu_egu, if_neg (by rw [hsound]; decide)]
    rfl
  refine ⟨_, exec_sidebandEffective hpending hdue, ?_⟩
  rw [if_neg (by rw [htier]; decide), hdrives]
  refine ⟨?_, (writes_put (Writes.refl _) (by decide) (.inl (by decide))).quietFrame_withEgu hc⟩
  rw [get_put_same (by exact hc) (by decide)]
  exact Nat.mod_eq_of_lt hv

/-! ## The two registers of the sideband (R430) -/

/-- What EGU holds of the sideband once a fault has changed one of its registers. -/
def EguState.sideSplit (x : EguState) (inB : Bool) (v : Nat) : EguState :=
  { x with sideA := if inB then x.sideA else v, sideB := if inB then v else x.sideB, sideFault := true, sidePending := [] }

theorem exec_sidebandMismatch (hpowered : s.powered = true) (hsame : s.egu.sideA = s.egu.sideB) {v : BitVec 17}
    (hdiffers : v.toNat ≠ s.egu.sideA) (b : Bool) :
    exec (.sidebandMismatch b v) s = ok ((s.withEgu (s.egu.sideSplit b v.toNat)).fault 7 0x0A) := by
  have hdiffers' : v.toNat ≠ s.egu.sideB := hsame ▸ hdiffers
  cases b
  · simp only [exec, execSidebandMismatch, hpowered, Bool.not_true, Bool.false_eq_true, if_false, if_neg hdiffers']
    rfl
  · simp only [exec, execSidebandMismatch, hpowered, Bool.not_true, Bool.false_eq_true, if_false, if_true, if_neg hdiffers.symm]
    rfl

theorem sidebandMismatch_completes (hc : s.canon = true) (hpowered : s.powered = true) (hsame : s.egu.sideA = s.egu.sideB)
    {v : BitVec 17} (hdiffers : v.toNat ≠ s.egu.sideA) (b : Bool) : completes (.sidebandMismatch b v) s fun t =>
      t.egu.sideFault = true ∧ t.egu.sidePending = [] ∧ t.get Reg.EGU_SIDEBAND_ALL = s.get Reg.EGU_SIDEBAND_ALL ∧
      (if b then t.egu.sideA else t.egu.sideB) = s.egu.sideA ∧ (s.get (Reg.UNIT_FAULT 7) = 0 → t.get (Reg.UNIT_FAULT 7) = 0x0A) ∧
      NoisyFrame (fun k => words [Reg.UNIT_FAULT 7] k || logWord k) s { s with egu := t.egu } t := by
  have hchange : EguChange (fun k => words [Reg.UNIT_FAULT 7] k || logWord k) s
      ((s.withEgu (s.egu.sideSplit b v.toNat)).fault 7 0x0A) :=
    eguChange_fault (eguChange_withEgu (EguChange.refl s) _) (fun k hk => by rw [hk, Bool.or_true]) (by decide) _
  have hsplit : (s.withEgu (s.egu.sideSplit b v.toNat)).canon = true := hc
  refine ⟨_, exec_sidebandMismatch hpowered hsame hdiffers b, ?_, ?_, hchange.get_eq hc (by decide) (by decide), ?_,
    fun hfree => ?_, hchange.noisyFrame hc rfl⟩
  · rw [fault_egu]
    rfl
  · rw [fault_egu]
    rfl
  · rw [fault_egu]
    cases b
    · exact hsame.symm
    · rfl
  · rw [get_fault hsplit hfree]
    rfl

end

/-- Settles O26: clause by clause. That a due write has no effect in tier 0 is the model's choice (log entry 94). -/
theorem sidebandCommandsComplete : Obligations.SidebandCommandsComplete := by
  intro s hc
  refine ⟨?pends, ?dropped, ?due, fun b v hpowered hsame hdiffers => sidebandMismatch_completes hc hpowered hsame hdiffers b⟩
  case pends => exact fun r v hsound hmay hpair => ⟨_, sidebandWrite_pends hsound hmay hpair v, rfl⟩
  case dropped => exact fun r v hfault => ⟨_, sidebandWrite_dropped hfault r v, rfl⟩
  case due =>
    intro v at_ rest hpending hdue hv
    refine ⟨fun htier => ⟨_, exec_sidebandEffective hpending hdue, ?_⟩,
      fun htier hsound => sidebandEffective_drives hc hpending hdue hv htier hsound⟩
    rw [if_pos htier]
    rfl

end Sys2Proof.Machine
end

section
/-! PROOFS. The priority override's commands (R198 to R203): how ACTIVE follows its causes, what a pin's edge does to the packets in
transmission, and what ends the override. -/

namespace Sys2Proof.Machine

/-! ## ACTIVE follows its causes (R200 to R202) -/

/-- The override becomes active, and OVR_ON names the source. -/
def State.ovrOn (s : State) (src : OvrSource) : State :=
  ((s.put Reg.EGU_OVR_STATUS_ACTIVE 1).bump Reg.EGU_OVR_ACTIVATIONS).raise .egu 8 [(8, Config.ovrSource src.num)]

/-- The override ends, with OVR_OFF. -/
def State.ovrOff (s : State) : State := (s.put Reg.EGU_OVR_STATUS_ACTIVE 0).raise .egu 9 []

/-- The tick is marked as one in which the override changed (R202). -/
def State.markEdge (s : State) : State := s.withEgu { s.egu with ovrEdges := (s.tick :: s.egu.ovrEdges).eraseDups }

@[simp] theorem markEdge_flag (s : State) (f : Field) : s.markEdge.flag f = s.flag f := rfl
@[simp] theorem markEdge_overridden (s : State) : s.markEdge.overridden = s.overridden := rfl
@[simp] theorem markEdge_events (s : State) : s.markEdge.events = s.events := rfl

/-- A cause of the override stands: local, remote or FORCE. -/
def State.ovrCause (s : State) : Bool := s.flag Reg.EGU_OVR_STATUS_LOCAL || s.flag Reg.EGU_OVR_STATUS_REMOTE || s.egu.forced

section
variable {area : Nat → Bool} {s₀ s : State}

theorem refreshOverride_on (hcause : s.ovrCause = true) (hidle : s.overridden = false) (src : OvrSource) (within : Bool) :
    s.refreshOverride src within = (s.ovrOn src).when within State.markEdge := by
  unfold State.ovrCause at hcause
  simp only [State.refreshOverride, hcause, hidle]
  cases within <;> rfl

theorem refreshOverride_off (hcause : s.ovrCause = false) (hactive : s.overridden = true) (src : OvrSource) (within : Bool) :
    s.refreshOverride src within = s.ovrOff.when within State.markEdge := by
  unfold State.ovrCause at hcause
  simp only [State.refreshOverride, hcause, hactive]
  cases within <;> rfl

theorem ovrOn_egu (s : State) (src : OvrSource) : (s.ovrOn src).egu = s.egu := by
  rw [State.ovrOn, State.raise_egu, State.bump_egu, State.put_egu]

theorem ovrOff_egu (s : State) : s.ovrOff.egu = s.egu := by rw [State.ovrOff, State.raise_egu, State.put_egu]

theorem eguChange_ovrOn (h : EguChange area s₀ s) (hstatus : area Reg.EGU_OVR_STATUS_ACTIVE.key = true)
    (hcount : area Reg.EGU_OVR_ACTIVATIONS.key = true) (hcountHigh : area (Reg.EGU_OVR_ACTIVATIONS.key + 4) = true)
    (src : OvrSource) : EguChange area s₀ (s.ovrOn src) :=
  eguChange_raise (eguChange_put (eguChange_put h 1 hstatus (.inl (by decide))) _ hcount (.inr hcountHigh)) _ _ _

theorem eguChange_ovrOff (h : EguChange area s₀ s) (hstatus : area Reg.EGU_OVR_STATUS_ACTIVE.key = true) :
    EguChange area s₀ s.ovrOff := eguChange_raise (eguChange_put h 0 hstatus (.inl (by decide))) _ _ _

theorem posted_ovrOn (h : s.events = s₀.events) (src : OvrSource) :
    posted s₀ (s.ovrOn src) .egu 8 [(8, Config.ovrSource src.num)] :=
  posted_raise (((State.bump_events ..).trans (State.put_events ..)).trans h) .egu 8 _

theorem posted_ovrOff (h : s.events = s₀.events) : posted s₀ s.ovrOff .egu 9 [] :=
  posted_raise ((State.put_events ..).trans h) .egu 9 _

variable (hc : s.canon = true)
include hc

theorem overridden_ovrOn (src : OvrSource) : (s.ovrOn src).overridden = true := by
  have hput := canon_put (f := Reg.EGU_OVR_STATUS_ACTIVE) (v := 1) hc
  rw [State.overridden, State.ovrOn, State.bump, flag_congr (get_raise (canon_put hput) _ _ _ (by decide) (by decide)),
    flag_put_off hput (by decide), flag_put_same hc (by decide) rfl]
  rfl

theorem overridden_ovrOff : s.ovrOff.overridden = false := by
  rw [State.overridden, State.ovrOff, flag_congr (get_raise (canon_put hc) _ _ _ (by decide) (by decide)),
    flag_put_same hc (by decide) rfl]
  rfl

theorem activations_ovrOn (src : OvrSource) :
    (s.ovrOn src).get Reg.EGU_OVR_ACTIVATIONS = (s.get Reg.EGU_OVR_ACTIVATIONS + 1) % 2 ^ 64 := by
  have hput := canon_put (f := Reg.EGU_OVR_STATUS_ACTIVE) (v := 1) hc
  rw [State.ovrOn, State.bump, get_raise (canon_put hput) _ _ _ (by decide) (by decide), get_put_same hput (by decide),
    get_put_off hc (by decide)]
  rfl

/-- What is neither ACTIVE nor the count of activations reads as before. -/
theorem get_ovrOn (src : OvrSource) {f : Field} (hactive : Reg.EGU_OVR_STATUS_ACTIVE.off f = true)
    (hcount : Reg.EGU_OVR_ACTIVATIONS.off f = true) (hlo : words [Reg.QE_ARB_LOST] f.key = false)
    (hhi : words [Reg.QE_ARB_LOST] (f.key + 4) = false) : (s.ovrOn src).get f = s.get f := by
  have hput := canon_put (f := Reg.EGU_OVR_STATUS_ACTIVE) (v := 1) hc
  rw [State.ovrOn, State.bump, get_raise (canon_put hput) _ _ _ hlo hhi, get_put_off hput hcount, get_put_off hc hactive]

theorem get_ovrOff {f : Field} (hactive : Reg.EGU_OVR_STATUS_ACTIVE.off f = true) (hlo : words [Reg.QE_ARB_LOST] f.key = false)
    (hhi : words [Reg.QE_ARB_LOST] (f.key + 4) = false) : s.ovrOff.get f = s.get f := by
  rw [State.ovrOff, get_raise (canon_put hc) _ _ _ hlo hhi, get_put_off hc hactive]

end

/-! ## The pins (R198, R203) -/

theorem get_eq_bit {s : State} {f : Field} (hwidth : f.width = 1) : s.get f = bit (s.flag f) := by
  have hlt := get_lt s f
  rw [hwidth] at hlt
  rw [State.flag]
  interval_cases s.get f <;> rfl

/-- EGU's state once a pin has been seen `low`: a differing state that stood ends with a change (R203). -/
def State.pinEgu (s : State) (pinB low : Bool) : EguState :=
  { s.egu with disagreeRaised := s.egu.disagreeRaised && s.flag (pinField pinB) == low }

section
variable {s : State} (b low : Bool)

theorem setPin_eq (hc : s.canon = true) :
    s.setPin b low = (s.put (pinField b) (bit low)).withEgu (s.pinEgu b low) := by
  by_cases hsame : s.flag (pinField b) = low
  · have hput : s.put (pinField b) (bit low) = s := by
      rw [← hsame, ← get_eq_bit (by cases b <;> rfl), put_get_self hc]
    have hegu : s.pinEgu b low = s.egu := by rw [State.pinEgu, hsame, beq_self_eq_true, Bool.and_true]
    rw [hput, hegu, State.setPin, if_pos (beq_iff_eq.mpr hsame)]
    rfl
  · have hegu : s.pinEgu b low = { s.egu with disagreeRaised := false } := by
      rw [State.pinEgu, beq_eq_false_iff_ne.mpr hsame, Bool.and_false]
    rw [hegu, State.setPin, if_neg (by rwa [beq_iff_eq])]
    simp only [put_rest]
    rfl

theorem pinField_ok : (pinField b).ok = true := by cases b <;> decide
theorem pinField_key : (pinField b).key = Reg.EGU_OVR_STATUS_LOCAL.key := by cases b <;> rfl
theorem pinField_word : (pinField b).hi < 32 := by cases b <;> decide

theorem flag_put_pin (hc : s.canon = true) : (s.put (pinField b) (bit low)).flag (pinField b) = low := by
  rw [flag_put_same hc (pinField_ok b) (by cases b <;> rfl)]
  cases low <;> rfl

end

/-! ## OVERRIDE_PIN_RISE (R201) -/

theorem overridePinRise_completes {s : State} (hc : s.canon = true) (b : Bool) (o : Nat) : completes (.overridePinRise b o) s fun t =>
    t.flag (pinField b) = false ∧ (t.flag Reg.EGU_OVR_STATUS_LOCAL = s.flag Reg.EGU_OVR_STATUS_LOCAL) ∧
      QuietFrame (words [Reg.TE_OFFSET, pinField b]) s { s with egu := { s.egu with disagreeRaised := t.egu.disagreeRaised } } t := by
  have hmoment := writes_moment s o
  have hcm := hmoment.canon hc
  have hwrites : Writes (words [Reg.TE_OFFSET, pinField b]) s ((s.moment o).put (pinField b) (bit false)) :=
    writes_put (hmoment.mono fun k hk => words_mono (by simp) hk) (words_key (by simp)) (.inl (pinField_word b))
  refine ⟨_, rfl, ?_⟩
  rw [setPin_eq b false hcm]
  refine ⟨flag_put_pin b false hcm, ?_, hwrites.within.words hc, ?_⟩
  · rw [withEgu_flag, flag_put_off hcm (by cases b <;> decide), flag_congr (hmoment.get_eq hc (by decide) (by decide))]
  · rw [State.withEgu, State.pinEgu, hwrites.rest, moment_egu]

/-! ## An edge meets the packets in transmission (R198) -/

/-- From `s` to `t` an edge meets packets in transmission: what leaves step 9 changes, in the recorder's copies and the backlog too,
and free values are taken. -/
structure EdgeMeets (s t : State) : Prop where
  rest : t = { s with
    free := t.free, sie := { s.sie with taps := t.sie.taps }, hgc := { s.hgc with backlog := t.hgc.backlog }
    egu := { s.egu with tx := t.egu.tx } }

section
variable {s t : State}

theorem EdgeMeets.refl (s : State) : EdgeMeets s s := ⟨rfl⟩

theorem EdgeMeets.trans {u : State} (h : EdgeMeets s t) (g : EdgeMeets t u) : EdgeMeets s u := ⟨by rw [g.rest, h.rest]⟩

theorem EdgeMeets.regs (h : EdgeMeets s t) : t.regs = s.regs := by rw [h.rest]
theorem EdgeMeets.events (h : EdgeMeets s t) : t.events = s.events := by rw [h.rest]
theorem EdgeMeets.get (h : EdgeMeets s t) (f : Field) : t.get f = s.get f := get_congr h.regs f
theorem EdgeMeets.edgeAt (h : EdgeMeets s t) : t.egu.edgeAt = s.egu.edgeAt := by rw [h.rest]

/-- The override has had its effect on the packet of a PROGRAM flow in transmission on port `p`. -/
def State.Edged (s : State) (p : Nat) : Prop :=
  ∀ x m, Assoc.get? s.egu.tx p = some x → x.media = some m → s.classOf m.flow = 1 → m.edged = true

theorem EdgeMeets.edged {p : Nat} (h : EdgeMeets s t) (hedged : s.Edged p)
    (htx : Assoc.get? t.egu.tx p = Assoc.get? s.egu.tx p) : t.Edged p := by
  intro x m hx hm hclass
  rw [State.classOf, h.get] at hclass
  exact hedged x m (htx ▸ hx) hm hclass

/-- The sample bytes of a packet `m` in transmission as an edge at `e` leaves them, and the state then. -/
def State.edgeZeroes (s : State) (e p : Nat) (x : Tx) (m : TxMedia) : Bytes × State :=
  s.zeroAfter (s.portRate p) (s.sampleAt m) (e - x.start) m.body

/-- The packet has met the edge. -/
def State.edgedMedia (s : State) (e p : Nat) (x : Tx) (m : TxMedia) : TxMedia :=
  { m with body := (s.edgeZeroes e p x m).1, edged := true }

/-- What leaves step 9 of the packet is as it is sent. -/
def State.edgeRetaken (s : State) (e p : Nat) (x : Tx) (m : TxMedia) : State :=
  let body := (s.edgeZeroes e p x m).1
  let u := (s.edgeZeroes e p x m).2
  let w := sampleBits (u.geometry m.flow).format / 8
  u.retake (s.edgedMedia e p x m) false p body (samplesOf w (body.length / w) body)

/-- The transmission goes on with the packet's bytes as they now are. -/
def State.edgedTx (s : State) (e p : Nat) (x : Tx) (m : TxMedia) : Tx :=
  let u := s.edgeRetaken e p x m
  let y := s.edgedMedia e p x m
  { x with bytes := (u.mediaBytes p y).getD x.bytes, good := x.good && !u.spoiled y, media := some y }

theorem edgeMeets_edgeRetaken (s : State) (e p : Nat) (x : Tx) (m : TxMedia) : EdgeMeets s (s.edgeRetaken e p x m) := ⟨rfl⟩

theorem edgeRetaken_egu (s : State) (e p : Nat) (x : Tx) (m : TxMedia) : (s.edgeRetaken e p x m).egu = s.egu := rfl

theorem edgeTx_program {e p : Nat} {x : Tx} {m : TxMedia} (hx : Assoc.get? s.egu.tx p = some x) (hm : x.media = some m)
    (hmeets : (s.classOf m.flow != 1 || m.edged) = false) : s.edgeTx e p = (s.edgeRetaken e p x m).withEgu
      { s.egu with tx := Assoc.set s.egu.tx p (s.edgedTx e p x m) } := by
  simp only [State.edgeTx, hx, hm, hmeets, Bool.false_eq_true, if_false]
  rfl

theorem edgeTx_skipped {e p : Nat} {x : Tx} {m : TxMedia} (hx : Assoc.get? s.egu.tx p = some x) (hm : x.media = some m)
    (hskip : (s.classOf m.flow != 1 || m.edged) = true) : s.edgeTx e p = s := by
  simp only [State.edgeTx, hx, hm, hskip, if_true]

/-- On one port: either nothing in transmission there is left to meet the edge, or a packet meets it. -/
theorem edgeTx_cases (s : State) (e p : Nat) : (s.edgeTx e p = s ∧ s.Edged p) ∨ ∃ x m, s.edgeTx e p =
    (s.edgeRetaken e p x m).withEgu { s.egu with tx := Assoc.set s.egu.tx p (s.edgedTx e p x m) } := by
  cases hx : Assoc.get? s.egu.tx p with
  | none => exact .inl ⟨by simp only [State.edgeTx, hx], fun x m hy => by rw [hx] at hy; cases hy⟩
  | some x =>
    cases hm : x.media with
    | none =>
      refine .inl ⟨by simp only [State.edgeTx, hx, hm], fun y m hy hmedia => ?_⟩
      cases hx.symm.trans hy
      rw [hm] at hmedia
      cases hmedia
    | some m =>
      cases hskip : (s.classOf m.flow != 1 || m.edged) with
      | false => exact .inr ⟨x, m, edgeTx_program hx hm hskip⟩
      | true =>
        refine .inl ⟨edgeTx_skipped hx hm hskip, fun y n hy hmedia hclass => ?_⟩
        cases hx.symm.trans hy
        cases hm.symm.trans hmedia
        simpa [hclass] using hskip

variable (e p : Nat)

theorem edgeMeets_edgeTx (s : State) : EdgeMeets s (s.edgeTx e p) := by
  obtain ⟨hsame, -⟩ | ⟨x, m, heq⟩ := edgeTx_cases s e p
  · rw [hsame]
    exact EdgeMeets.refl s
  · rw [heq]
    exact (edgeMeets_edgeRetaken s e p x m).trans ⟨rfl⟩

theorem edged_edgeTx (s : State) : (s.edgeTx e p).Edged p := by
  obtain ⟨hsame, hedged⟩ | ⟨x, m, heq⟩ := edgeTx_cases s e p
  · rwa [hsame]
  · intro y n hy hn _
    rw [heq, withEgu_egu, Assoc.get?_set_same] at hy
    cases hy
    cases hn
    rfl

theorem edgeTx_other {q : Nat} (hq : q ≠ p) (s : State) : Assoc.get? (s.edgeTx e p).egu.tx q = Assoc.get? s.egu.tx q := by
  obtain ⟨hsame, -⟩ | ⟨x, m, heq⟩ := edgeTx_cases s e p
  · rw [hsame]
  · rw [heq, withEgu_egu, Assoc.get?_set_ne _ _ hq]

end

/-- The edge meets what is in transmission on the ports of a list. -/
def State.meetPorts (s : State) (l : List Nat) : State := l.foldl (fun s p => s.edgeTx s.egu.edgeAt p) s

theorem edgeMeets_meetPorts (s : State) (l : List Nat) : EdgeMeets s (s.meetPorts l) := by
  induction l generalizing s with
  | nil => exact EdgeMeets.refl s
  | cons p l ih => exact (edgeMeets_edgeTx _ p s).trans (ih _)

theorem meetPorts_other {l : List Nat} {q : Nat} (hq : q ∉ l) (s : State) :
    Assoc.get? (s.meetPorts l).egu.tx q = Assoc.get? s.egu.tx q := by
  induction l generalizing s with
  | nil => rfl
  | cons p l ih =>
    rw [List.mem_cons, not_or] at hq
    exact (ih hq.2 _).trans (edgeTx_other _ p hq.1 s)

theorem edged_meetPorts {l : List Nat} {q : Nat} (hq : q ∈ l) (s : State) : (s.meetPorts l).Edged q := by
  induction l generalizing s with
  | nil => cases hq
  | cons p l ih =>
    by_cases hlater : q ∈ l
    · exact ih hlater _
    · obtain rfl := (List.mem_cons.mp hq).resolve_right hlater
      exact (edgeMeets_meetPorts _ l).edged (edged_edgeTx _ q s) (meetPorts_other hlater _)

/-- An entry of an association list has its key there. -/
theorem Assoc.mem_keys {α : Type} {l : List (Nat × α)} {k : Nat} {x : α} (h : Assoc.get? l k = some x) : k ∈ l.map (·.1) := by
  obtain ⟨a, hfind, -⟩ := Option.map_eq_some_iff.mp h
  have hkey : (a.1 == k) = true := List.find?_some (p := fun x : Nat × α => x.1 == k) hfind
  exact List.mem_map.mpr ⟨a, List.mem_of_find?_eq_some hfind, beq_iff_eq.mp hkey⟩

/-- The edge meets all that is in transmission. -/
def State.meetAll (s : State) : State := s.meetPorts (s.egu.tx.map (·.1))

theorem edged_meetAll (s : State) (p : Nat) : s.meetAll.Edged p := by
  by_cases hport : p ∈ s.egu.tx.map (·.1)
  · exact edged_meetPorts hport s
  · intro x m hx
    rw [State.meetAll, meetPorts_other hport] at hx
    exact absurd (Assoc.mem_keys hx) hport

/-! ## OVERRIDE_PIN_FALL (R198, R201, R202) -/

/-- The local override has begun, at an edge that is now. -/
def State.localBegun (s : State) : State :=
  (s.put Reg.EGU_OVR_STATUS_LOCAL 1).withEgu { s.egu with edgeAt := s.localNs, ovrTick := some s.tick }

/-- The pin by which the override becomes active. -/
def pinSource (b : Bool) : OvrSource := if b then .pinB else .pinA

theorem num_pinSource (b : Bool) : (pinSource b).num = if b then 1 else 0 := by cases b <;> rfl

/-- The local override has made the override active, within the tick. -/
def State.activated (s : State) (src : OvrSource) : State := (s.localBegun.ovrOn src).markEdge

/-- The words that show the override's state and count its activations. -/
def overrideWord (k : Nat) : Bool := words [Reg.EGU_OVR_STATUS_LOCAL, Reg.EGU_OVR_ACTIVATIONS] k

theorem localNs_congr {s t : State} (htick : t.get Reg.TE_TICK = s.get Reg.TE_TICK) (hoffset : t.get Reg.TE_OFFSET = s.get Reg.TE_OFFSET)
    (hperiod : t.get Reg.TE_CFG_PERIOD = s.get Reg.TE_CFG_PERIOD) : t.localNs = s.localNs := by
  rw [State.localNs, State.localNs, State.tick, htick, period_congr hperiod, State.offset, hoffset]
  rfl

section
variable {s : State} (hc : s.canon = true)

theorem eguChange_localBegun (s : State) : EguChange overrideWord s s.localBegun :=
  eguChange_withEgu (eguChange_put (EguChange.refl s) 1 (by decide) (.inl (by decide))) _

theorem eguChange_activated (s : State) (src : OvrSource) : EguChange overrideWord s (s.activated src) :=
  eguChange_withEgu (eguChange_ovrOn (eguChange_localBegun s) (by decide) (by decide) (by decide) src) _

theorem activated_egu (s : State) (src : OvrSource) : (s.activated src).egu = { s.egu with
    edgeAt := s.localNs, ovrTick := some s.tick, ovrEdges := (s.activated src).egu.ovrEdges } := by
  rw [State.activated, State.markEdge, withEgu_egu, ovrOn_egu]
  rfl

include hc

theorem startLocal_eq (hlocal : s.flag Reg.EGU_OVR_STATUS_LOCAL = false) (hidle : s.overridden = false) (b : Bool) :
    s.startLocal b 0 = s.activated (pinSource b) := by
  have hcause : s.localBegun.ovrCause = true := by
    have hbegun : s.localBegun.flag Reg.EGU_OVR_STATUS_LOCAL = true := flag_put_same hc (by decide) rfl 1
    rw [State.ovrCause, hbegun, Bool.true_or, Bool.true_or]
  have hidle' : s.localBegun.overridden = false := (flag_put_off hc (by decide)).trans hidle
  rw [State.startLocal, if_neg (by rw [hlocal]; decide)]
  exact refreshOverride_on hcause hidle' _ true

theorem overridden_activated (src : OvrSource) : (s.activated src).overridden = true :=
  overridden_ovrOn ((eguChange_localBegun s).canon hc) src

theorem activations_activated (src : OvrSource) :
    (s.activated src).get Reg.EGU_OVR_ACTIVATIONS = (s.get Reg.EGU_OVR_ACTIVATIONS + 1) % 2 ^ 64 := by
  have hcount : s.localBegun.get Reg.EGU_OVR_ACTIVATIONS = s.get Reg.EGU_OVR_ACTIVATIONS := get_put_off hc (by decide)
  rw [← hcount]
  exact activations_ovrOn ((eguChange_localBegun s).canon hc) src

theorem local_activated (src : OvrSource) : (s.activated src).flag Reg.EGU_OVR_STATUS_LOCAL = true := by
  have hbegun : s.localBegun.flag Reg.EGU_OVR_STATUS_LOCAL = true := flag_put_same hc (by decide) rfl 1
  rw [← hbegun]
  exact flag_congr (get_ovrOn ((eguChange_localBegun s).canon hc) src (by decide) (by decide) (by decide) (by decide))

theorem pin_activated (src : OvrSource) (b : Bool) : (s.activated src).flag (pinField b) = s.flag (pinField b) := by
  have hbegun : s.localBegun.flag (pinField b) = s.flag (pinField b) := flag_put_off hc (by cases b <;> decide)
  rw [← hbegun]
  exact flag_congr (get_ovrOn ((eguChange_localBegun s).canon hc) src (by cases b <;> decide) (by cases b <;> decide)
    (by cases b <;> decide) (by cases b <;> decide))

theorem localNs_activated (src : OvrSource) : (s.activated src).localNs = s.localNs := by
  have hread : ∀ f ∈ [Reg.TE_TICK, Reg.TE_OFFSET, Reg.TE_CFG_PERIOD], (s.activated src).get f = s.get f := by
    intro f hf
    refine (eguChange_activated s src).get_eq hc ?_ ?_
    · revert f
      decide
    · revert f
      decide
  exact localNs_congr (hread _ (by simp)) (hread _ (by simp)) (hread _ (by simp))

end

/-- A pin that has fallen, at the command's moment. -/
def State.pinLow (s : State) (b : Bool) (o : Nat) : State :=
  ((s.moment o).put (pinField b) (bit true)).withEgu ((s.moment o).pinEgu b true)

section
variable {s : State} (b : Bool) (o : Nat)

/-- The words that change as a pin falls. -/
def pinFallWord (k : Nat) : Bool := words [Reg.TE_OFFSET, Reg.EGU_OVR_STATUS_LOCAL, Reg.EGU_OVR_ACTIVATIONS] k

theorem eguChange_pinLow (s : State) : EguChange pinFallWord s (s.pinLow b o) := by
  have hmoment := (writes_moment s o).mono (more := pinFallWord) fun k hk => words_mono (by simp) hk
  exact eguChange_withEgu (eguChange_put hmoment.eguChange _ (by rw [pinField_key]; decide) (.inl (pinField_word b))) _

theorem pinLow_egu (s : State) : (s.pinLow b o).egu =
    { s.egu with disagreeRaised := (s.pinLow b o).egu.disagreeRaised } := by
  rw [State.pinLow, withEgu_egu, State.pinEgu, moment_egu]

/-- The pin has fallen, and by it the override has become active. -/
def State.fallen (s : State) (b : Bool) (o : Nat) : State := (s.pinLow b o).activated (pinSource b)

theorem eguChange_fallen (s : State) : EguChange pinFallWord s (s.fallen b o) :=
  (eguChange_pinLow b o s).trans ((eguChange_activated _ _).mono fun k hk => words_mono (by simp) hk)

theorem posted_fallen : posted s (s.fallen b o) .egu 8 [(8, Config.ovrSource (if b then 1 else 0))] := by
  have hevents : (s.pinLow b o).localBegun.events = s.events := by
    rw [State.localBegun, State.pinLow, withEgu_events, State.put_events, withEgu_events, State.put_events, (writes_moment s o).rest]
  rw [← num_pinSource]
  exact posted_ovrOn hevents (pinSource b)

variable (hc : s.canon = true)
include hc

theorem flag_pinLow {f : Field} (hpin : (pinField b).off f = true) (hlo : words [Reg.TE_OFFSET] f.key = false)
    (hhi : words [Reg.TE_OFFSET] (f.key + 4) = false) : (s.pinLow b o).flag f = s.flag f := by
  have hmoment := writes_moment s o
  rw [State.pinLow, withEgu_flag, flag_put_off (hmoment.canon hc) hpin, flag_congr (hmoment.get_eq hc hlo hhi)]

/-- The pin activates the override where EGU runs and no pin had. -/
theorem pinFalls_eq (hrun : s.running .egu = true) (hidle : s.overridden = false)
    (hlocal : s.flag Reg.EGU_OVR_STATUS_LOCAL = false) : (s.moment o).pinFalls b 0 = (s.fallen b o).meetAll := by
  have hchange := eguChange_pinLow b o s
  have hrun' : (s.pinLow b o).running .egu = true := by
    rw [State.running, hchange.get_eq hc (by decide) (by decide)]
    exact hrun
  have hmoment : (s.moment o).flag Reg.EGU_OVR_STATUS_LOCAL = false := by
    rw [flag_congr ((writes_moment s o).get_eq hc (by decide) (by decide)), hlocal]
  have hlocal' : (s.pinLow b o).flag Reg.EGU_OVR_STATUS_LOCAL = false := by
    rw [flag_pinLow b o hc (by cases b <;> decide) (by decide) (by decide), hlocal]
  have hidle' : (s.pinLow b o).overridden = false := by
    rw [State.overridden, flag_pinLow b o hc (by cases b <;> decide) (by decide) (by decide)]
    exact hidle
  have hset : (s.moment o).setPin b true = s.pinLow b o := setPin_eq b true ((writes_moment s o).canon hc)
  simp only [State.pinFalls, hset, hmoment, hrun', Bool.not_true, Bool.or_self, Bool.false_eq_true, if_false,
    startLocal_eq (hchange.canon hc) hlocal' hidle']
  rfl

theorem pin_fallen : (s.fallen b o).flag (pinField b) = true :=
  (pin_activated ((eguChange_pinLow b o s).canon hc) _ b).trans (flag_put_pin b true ((writes_moment s o).canon hc))

theorem activations_fallen : (s.fallen b o).get Reg.EGU_OVR_ACTIVATIONS = (s.get Reg.EGU_OVR_ACTIVATIONS + 1) % 2 ^ 64 := by
  have hpin : (s.pinLow b o).get Reg.EGU_OVR_ACTIVATIONS = (s.moment o).get Reg.EGU_OVR_ACTIVATIONS :=
    get_put_off ((writes_moment s o).canon hc) (by cases b <;> decide)
  rw [← (writes_moment s o).get_eq hc (f := Reg.EGU_OVR_ACTIVATIONS) (by decide) (by decide), ← hpin]
  exact activations_activated ((eguChange_pinLow b o s).canon hc) _

/-- A flow's class stands in the flow table, which none of this writes. -/
theorem classOf_fallen (f : Nat) : (s.fallen b o).classOf f = s.classOf f :=
  (eguChange_fallen b o s).get_eq hc (by simp [pinFallWord, words]; omega) (by simp [pinFallWord, words]; omega)

theorem fallen_egu : (s.fallen b o).egu = { s.egu with
    edgeAt := (s.fallen b o).localNs, ovrTick := some s.tick, ovrEdges := (s.fallen b o).egu.ovrEdges
    disagreeRaised := (s.pinLow b o).egu.disagreeRaised } := by
  have hchange := eguChange_pinLow b o s
  have htick : (s.pinLow b o).tick = s.tick := hchange.get_eq hc (by decide) (by decide)
  have hnow : (s.fallen b o).localNs = (s.pinLow b o).localNs := localNs_activated (hchange.canon hc) _
  rw [hnow, ← htick]
  exact (activated_egu _ _).trans (by rw [pinLow_egu]; rfl)

theorem overridePinFall_completes (hrun : s.running .egu = true) (hidle : s.overridden = false)
    (hlocal : s.flag Reg.EGU_OVR_STATUS_LOCAL = false) : completes (.overridePinFall b o) s fun t =>
    t.flag (pinField b) = true ∧ t.flag Reg.EGU_OVR_STATUS_LOCAL = true ∧ t.overridden = true ∧
    t.get Reg.EGU_OVR_ACTIVATIONS = (s.get Reg.EGU_OVR_ACTIVATIONS + 1) % 2 ^ 64 ∧ t.egu.edgeAt = t.localNs ∧
    posted s t .egu 8 [(8, Config.ovrSource (if b then 1 else 0))] ∧
    (∀ p x m, Assoc.get? t.egu.tx p = some x → x.media = some m → s.classOf m.flow = 1 → m.edged = true) ∧
    (s.egu.tx = [] → t.egu.tx = [] ∧ t.free = s.free) ∧
    NoisyFrame pinFallWord s
      { s with
        free := t.free, sie := { s.sie with taps := t.sie.taps }, hgc := { s.hgc with backlog := t.hgc.backlog },
        egu := { s.egu with
        ovrTick := some s.tick, ovrEdges := t.egu.ovrEdges, edgeAt := t.egu.edgeAt, tx := t.egu.tx,
        disagreeRaised := t.egu.disagreeRaised } } t := by
  have hlow : (s.pinLow b o).canon = true := (eguChange_pinLow b o s).canon hc
  have hfallen := eguChange_fallen b o s
  have hmeets : EdgeMeets (s.fallen b o) (s.fallen b o).meetAll := edgeMeets_meetPorts _ _
  have hegu := fallen_egu b o hc
  refine ⟨_, congrArg ok (pinFalls_eq b o hc hrun hidle hlocal), (flag_congr (hmeets.get _)).trans (pin_fallen b o hc),
    (flag_congr (hmeets.get _)).trans (local_activated hlow _), (flag_congr (hmeets.get _)).trans (overridden_activated hlow _),
    (hmeets.get _).trans (activations_fallen b o hc), ?edge, ?event, ?packets, ?none, ?frame⟩
  case edge =>
    rw [localNs_congr (hmeets.get _) (hmeets.get _) (hmeets.get _), hmeets.edgeAt, hegu]
  case event =>
    intro hroom
    rw [hmeets.events]
    exact posted_fallen b o hroom
  case packets =>
    intro p x m hx hm hclass
    refine edged_meetAll _ p x m hx hm ?_
    rw [State.classOf, hmeets.get]
    exact (classOf_fallen b o hc m.flow).trans hclass
  case none =>
    intro hnone
    have htx : (s.fallen b o).egu.tx = [] := by rw [hegu, hnone]
    have hmeet : (s.fallen b o).meetAll = s.fallen b o := by rw [State.meetAll, htx]; rfl
    rw [hmeet]
    exact ⟨htx, hfallen.free⟩
  case frame =>
    refine noisyFrame hc (within_same hfallen.within hmeets.regs hmeets.events (by rw [hmeets.rest])) ?_
    rw [hmeets.rest, hfallen.rest, hegu]

end

/-! ## The override ends (R200, R201) -/

section
variable {s u : State} {area : Nat → Bool} (hc : s.canon = true)
include hc

/-- The override ends on a state that a command has come to without an event. -/
theorem ovrOff_ends (h : EguChange area s u) (hstatus : area Reg.EGU_OVR_STATUS_ACTIVE.key = true) (hevents : u.events = s.events) :
    u.ovrOff.overridden = false ∧ posted s u.ovrOff .egu 9 [] ∧ NoisyFrame area s (s.withEgu u.egu) u.ovrOff :=
  ⟨overridden_ovrOff (h.canon hc), posted_ovrOff hevents, (eguChange_ovrOff h hstatus).noisyFrame hc (ovrOff_egu u)⟩

/-- The override's state is what it was as the command's moment comes. -/
theorem status_moment (o : Nat) (f : Field) (hf : f.key = 0x07008500) : (s.moment o).flag f = s.flag f :=
  flag_congr ((writes_moment s o).get_eq hc (by rw [hf]; decide) (by rw [hf]; decide))

/-- The local override has ended, at the command's moment. -/
def State.localEnded (s : State) (o : Nat) : State := (s.moment o).put Reg.EGU_OVR_STATUS_LOCAL 0

/-- OVERRIDE_RELEASE: with both pins high the local override ends, and the override with it where it was the last cause. -/
theorem overrideRelease_completes (o : Nat) (hpinA : s.flag Reg.EGU_OVR_STATUS_PIN_A = false)
    (hpinB : s.flag Reg.EGU_OVR_STATUS_PIN_B = false) (hactive : s.overridden = true)
    (hremote : s.flag Reg.EGU_OVR_STATUS_REMOTE = false) (hforce : s.egu.forced = false) : completes (.overrideRelease o) s fun t =>
      t.flag Reg.EGU_OVR_STATUS_LOCAL = false ∧ t.overridden = false ∧ posted s t .egu 9 [] ∧
      NoisyFrame (words [Reg.TE_OFFSET, Reg.EGU_OVR_STATUS_LOCAL]) s
        { s with egu := { s.egu with ovrTick := t.egu.ovrTick, ovrEdges := t.egu.ovrEdges } } t := by
  have hcm := (writes_moment s o).canon hc
  have hwrites : Writes (words [Reg.TE_OFFSET, Reg.EGU_OVR_STATUS_LOCAL]) s (s.localEnded o) :=
    writes_put ((writes_moment s o).mono fun k hk => words_mono (by simp) hk) (by decide) (.inl (by decide))
  have hended := hwrites.canon hc
  have hegu : (s.localEnded o).egu = s.egu := (State.put_egu ..).trans (moment_egu s o)
  have hlocal : (s.localEnded o).flag Reg.EGU_OVR_STATUS_LOCAL = false := flag_put_same hcm (by decide) rfl 0
  have hremote' : (s.localEnded o).flag Reg.EGU_OVR_STATUS_REMOTE = false :=
    (flag_put_off hcm (by decide)).trans ((status_moment hc o _ rfl).trans hremote)
  have hactive' : (s.localEnded o).overridden = true := (flag_put_off hcm (by decide)).trans ((status_moment hc o _ rfl).trans hactive)
  have hcause : (s.localEnded o).ovrCause = false := by rw [State.ovrCause, hlocal, hremote', hegu, hforce]; rfl
  have hexec : exec (.overrideRelease o) s = ok (s.localEnded o).ovrOff.markEdge := by
    simp only [exec, execOverrideRelease, status_moment hc o Reg.EGU_OVR_STATUS_PIN_A rfl, hpinA,
      status_moment hc o Reg.EGU_OVR_STATUS_PIN_B rfl, hpinB, Bool.or_self, Bool.false_eq_true, if_false]
    exact congrArg ok (refreshOverride_off hcause hactive' .pinA true)
  have hchange : EguChange (words [Reg.TE_OFFSET, Reg.EGU_OVR_STATUS_LOCAL]) s (s.localEnded o).ovrOff.markEdge :=
    eguChange_withEgu (eguChange_ovrOff hwrites.eguChange (by decide)) _
  refine ⟨_, hexec, ?_, ?_, fun hroom => ?_, hchange.noisyFrame hc ?_⟩
  · rw [markEdge_flag, flag_congr (get_ovrOff hended (by decide) (by decide) (by decide)), hlocal]
  · rw [markEdge_overridden, overridden_ovrOff hended]
  · rw [markEdge_events]
    exact posted_ovrOff (by rw [hwrites.rest]) hroom
  · rw [State.markEdge, withEgu_egu, ovrOff_egu, hegu]

/-- The remote override has ended. -/
def State.remoteEnded (s : State) : State := (s.withEgu { s.egu with remote := none }).put Reg.EGU_OVR_STATUS_REMOTE 0

/-- REMOTE_OVERRIDE_END: with the last tick of its span past, the remote override ends. -/
theorem remoteOverrideEnd_completes {a b : Nat} (hspan : s.egu.remote = some (a, b)) (hpast : b < s.tick) (hactive : s.overridden = true)
    (hlocal : s.flag Reg.EGU_OVR_STATUS_LOCAL = false) (hforce : s.egu.forced = false) : completes .remoteOverrideEnd s fun t =>
      t.egu.remote = none ∧ t.flag Reg.EGU_OVR_STATUS_REMOTE = false ∧ t.overridden = false ∧ posted s t .egu 9 [] ∧
      NoisyFrame (words [Reg.EGU_OVR_STATUS_REMOTE]) s { s with egu := { s.egu with remote := none } } t := by
  have hbegun : (s.withEgu { s.egu with remote := none }).canon = true := hc
  have hchange : EguChange (words [Reg.EGU_OVR_STATUS_REMOTE]) s s.remoteEnded :=
    eguChange_put (eguChange_withEgu (EguChange.refl s) _) 0 (by decide) (.inl (by decide))
  have hegu : s.remoteEnded.egu = { s.egu with remote := none } := State.put_egu ..
  have hremote : s.remoteEnded.flag Reg.EGU_OVR_STATUS_REMOTE = false := flag_put_same hbegun (by decide) rfl 0
  have hlocal' : s.remoteEnded.flag Reg.EGU_OVR_STATUS_LOCAL = false := (flag_put_off hbegun (by decide)).trans hlocal
  have hactive' : s.remoteEnded.overridden = true := (flag_put_off hbegun (by decide)).trans hactive
  have hcause : s.remoteEnded.ovrCause = false := by rw [State.ovrCause, hlocal', hremote, hegu, hforce]; rfl
  have hexec : exec .remoteOverrideEnd s = ok s.remoteEnded.ovrOff := by
    simp only [exec, execRemoteOverrideEnd, hspan, hpast, if_true]
    exact congrArg ok (refreshOverride_off hcause hactive' .remote false)
  have hends := ovrOff_ends hc hchange (by decide) (State.put_events ..)
  rw [hegu] at hends
  refine ⟨_, hexec, ?_, ?_, hends⟩
  · rw [ovrOff_egu, hegu]
  · exact (flag_congr (get_ovrOff (hchange.canon hc) (by decide) (by decide) (by decide))).trans hremote

end

/-! ## FORCE (R203) -/

section
variable {s : State}

theorem exec_forceWrite {r : Requester} (hmay : s.mayWrite r 0x07008508 = true) (on : Bool) : exec (.forceWrite r on) s =
    ok (s.withEgu { s.egu with forceNext := some (on, s.tick) }) := by
  simp only [exec, execForceWrite, State.writeForce, hmay, if_true]
  cases on <;> rfl

/-- FORCE takes the value that was written, and the write is done with. -/
def State.forceTaken (s : State) (on : Bool) : State :=
  (s.put Reg.EGU_OVR_CTL_FORCE (bit on)).withEgu { s.egu with forced := on, forceNext := none }

theorem exec_forceEffective {on : Bool} {w : Nat} (hnext : s.egu.forceNext = some (on, w)) (hlater : w < s.tick) :
    exec .forceEffective s = ok ((s.forceTaken on).refreshOverride .force false) := by
  simp only [exec, execForceEffective, hnext, if_neg (Nat.not_le.mpr hlater)]
  rfl

theorem forceTaken_events (s : State) (on : Bool) : (s.forceTaken on).events = s.events := by
  rw [State.forceTaken, withEgu_events, State.put_events]

theorem eguChange_forceTaken {area : Nat → Bool} (hforce : area Reg.EGU_OVR_CTL_FORCE.key = true) (on : Bool) :
    EguChange area s (s.forceTaken on) :=
  eguChange_withEgu (eguChange_put (EguChange.refl s) _ hforce (.inl (by decide))) _

variable (hc : s.canon = true)
include hc

theorem force_forceTaken (on : Bool) : (s.forceTaken on).flag Reg.EGU_OVR_CTL_FORCE = on := by
  rw [State.forceTaken, withEgu_flag, flag_put_same hc (by decide) rfl]
  cases on <;> rfl

theorem status_forceTaken (on : Bool) (f : Field) (hf : Reg.EGU_OVR_CTL_FORCE.off f = true) : (s.forceTaken on).flag f = s.flag f :=
  flag_put_off hc hf

/-- FORCE_EFFECTIVE of a written 1: the override becomes active. -/
theorem forceEffective_begins {w : Nat} (hlater : w < s.tick) (hidle : s.overridden = false)
    (hnext : s.egu.forceNext = some (true, w)) : completes .forceEffective s fun t =>
      t.flag Reg.EGU_OVR_CTL_FORCE = true ∧ t.overridden = true ∧
      t.get Reg.EGU_OVR_ACTIVATIONS = (s.get Reg.EGU_OVR_ACTIVATIONS + 1) % 2 ^ 64 ∧ posted s t .egu 8 [(8, Config.ovrSource 3)] ∧
      NoisyFrame (words [Reg.EGU_OVR_CTL_FORCE, Reg.EGU_OVR_STATUS_ACTIVE, Reg.EGU_OVR_ACTIVATIONS]) s
        { s with egu := { s.egu with forced := true, forceNext := none } } t := by
  have hchange : EguChange (words [Reg.EGU_OVR_CTL_FORCE, Reg.EGU_OVR_STATUS_ACTIVE, Reg.EGU_OVR_ACTIVATIONS]) s (s.forceTaken true) :=
    eguChange_forceTaken (by decide) true
  have htaken := hchange.canon hc
  have hidle' : (s.forceTaken true).overridden = false := (status_forceTaken hc true _ (by decide)).trans hidle
  have hcause : (s.forceTaken true).ovrCause = true := Bool.or_true _
  have hcount : (s.forceTaken true).get Reg.EGU_OVR_ACTIVATIONS = s.get Reg.EGU_OVR_ACTIVATIONS := get_put_off hc (by decide)
  have hexec : exec .forceEffective s = ok ((s.forceTaken true).ovrOn .force) :=
    (exec_forceEffective hnext hlater).trans (congrArg ok (refreshOverride_on hcause hidle' .force false))
  refine ⟨_, hexec, ?_, overridden_ovrOn htaken .force, ?_, posted_ovrOn (forceTaken_events s true) .force, ?_⟩
  · exact (flag_congr (get_ovrOn htaken .force (by decide) (by decide) (by decide) (by decide))).trans (force_forceTaken hc true)
  · rw [activations_ovrOn htaken, hcount]
  · exact (eguChange_ovrOn hchange (by decide) (by decide) (by decide) .force).noisyFrame hc (ovrOn_egu _ _)

/-- FORCE_EFFECTIVE of a written 0: the override ends where FORCE was its last cause. -/
theorem forceEffective_ends {w : Nat} (hlater : w < s.tick) (hactive : s.overridden = true)
    (hnext : s.egu.forceNext = some (false, w)) (hlocal : s.flag Reg.EGU_OVR_STATUS_LOCAL = false)
    (hremote : s.flag Reg.EGU_OVR_STATUS_REMOTE = false) : completes .forceEffective s fun t =>
      t.flag Reg.EGU_OVR_CTL_FORCE = false ∧ t.overridden = false ∧ posted s t .egu 9 [] ∧
      NoisyFrame (words [Reg.EGU_OVR_CTL_FORCE, Reg.EGU_OVR_STATUS_ACTIVE]) s
        { s with egu := { s.egu with forced := false, forceNext := none } } t := by
  have hchange : EguChange (words [Reg.EGU_OVR_CTL_FORCE, Reg.EGU_OVR_STATUS_ACTIVE]) s (s.forceTaken false) :=
    eguChange_forceTaken (by decide) false
  have hactive' : (s.forceTaken false).overridden = true := (status_forceTaken hc false _ (by decide)).trans hactive
  have hcause : (s.forceTaken false).ovrCause = false := by
    rw [State.ovrCause, status_forceTaken hc false _ (by decide), status_forceTaken hc false _ (by decide), hlocal, hremote]
    rfl
  have hexec : exec .forceEffective s = ok (s.forceTaken false).ovrOff :=
    (exec_forceEffective hnext hlater).trans (congrArg ok (refreshOverride_off hcause hactive' .force false))
  refine ⟨_, hexec, ?_, ovrOff_ends hc hchange (by decide) (forceTaken_events s false)⟩
  exact (flag_congr (get_ovrOff (hchange.canon hc) (by decide) (by decide) (by decide))).trans (force_forceTaken hc false)

end

/-! ## OVR_PIN_DISAGREE (R203) -/

section
variable {s : State}

theorem ovrPinDisagree_again (hraised : s.egu.disagreeRaised = true) : exec .ovrPinDisagree s = ok s := by
  simp only [exec, execOvrPinDisagree, hraised, Bool.not_true, Bool.and_false, Bool.false_eq_true, if_false]

theorem ovrPinDisagree_raises (hc : s.canon = true)
    (hdiffer : s.flag Reg.EGU_OVR_STATUS_PIN_A ≠ s.flag Reg.EGU_OVR_STATUS_PIN_B) (hfirst : s.egu.disagreeRaised = false) :
    completes .ovrPinDisagree s fun t => posted s t .egu 10 [(8, Config.ovrSource (if s.flag Reg.EGU_OVR_STATUS_PIN_A then 0 else 1))] ∧
      NoisyFrame (fun _ => false) s { s with egu := { s.egu with disagreeRaised := true } } t := by
  have hexec : exec .ovrPinDisagree s = ok ((s.withEgu { s.egu with disagreeRaised := true }).raise .egu 10
      [(8, Config.ovrSource (if s.flag Reg.EGU_OVR_STATUS_PIN_A then 0 else 1))]) := by
    simp only [exec, execOvrPinDisagree, bne_iff_ne.mpr hdiffer, hfirst, Bool.not_false, Bool.and_self, if_true]
    cases s.flag Reg.EGU_OVR_STATUS_PIN_A <;> rfl
  refine ⟨_, hexec, posted_raise (withEgu_events ..) .egu 10 _, ?_⟩
  exact (eguChange_raise (eguChange_withEgu (EguChange.refl s) _) _ _ _).noisyFrame hc (State.raise_egu ..)

end

/-- Settles O25: clause by clause. -/
theorem overrideCommandsComplete : Obligations.OverrideCommandsComplete := by
  intro s hc
  refine ⟨fun b o hrun hidle hlocal => overridePinFall_completes b o hc hrun hidle hlocal,
    fun b o => overridePinRise_completes hc b o,
    fun o hpinA hpinB hactive hremote hforce => overrideRelease_completes hc o hpinA hpinB hactive hremote hforce,
    fun a b hspan hpast hactive hlocal hforce => remoteOverrideEnd_completes hc hspan hpast hactive hlocal hforce,
    fun r on hmay => ⟨_, exec_forceWrite hmay on, rfl⟩, ?force, ?disagree⟩
  case force => exact fun w hlater => ⟨fun hidle hnext => forceEffective_begins hc hlater hidle hnext,
    fun hactive hnext hlocal hremote => forceEffective_ends hc hlater hactive hnext hlocal hremote⟩
  case disagree => exact fun hdiffer => ⟨fun hfirst => ovrPinDisagree_raises hc hdiffer hfirst,
    fun hraised => ⟨_, ovrPinDisagree_again hraised, rfl⟩⟩

end Sys2Proof.Machine
end

section
/-! PROOFS. The level guard's commands (R194 to R196, R206): how channels enter RAMP_UP, what a re-arm and a query report, and how a
limit is lowered. -/

namespace Sys2Proof.Machine

/-! ## Channels enter RAMP_UP (R194) -/

/-- A re-armed channel, at sample 0 of its ramp. -/
def GuardChannel.ramped (ch : GuardChannel) : GuardChannel := { ch with state := 3, pos := 0, cause := 0 }

/-- The muted channels that `ok` selects ramp up. -/
def rampChannels (ok : Nat → GuardChannel → Bool) (chs : List GuardChannel) : List GuardChannel :=
  chs.mapIdx fun c ch => if ch.state = 2 ∧ ok c ch = true then ch.ramped else ch

section
variable {s : State} {f c : Nat} {ch : GuardChannel} {ok : Nat → GuardChannel → Bool}

theorem guardChannels_listed {l : List GuardChannel} (h : Assoc.get? s.egu.guard f = some l) : s.guardChannels f = l := by
  rw [State.guardChannels, h, Option.getD_some]

/-- Where a muted channel is selected, those selected ramp up, and GUARD_REARM is raised. -/
theorem rampUp_eq (hch : (s.guardChannels f)[c]? = some ch) (hmuted : ch.state = 2) (hok : ok c ch = true) :
    s.rampUp f ok = (s.setGuard f (rampChannels ok (s.guardChannels f))).raise .egu 4 [] := by
  obtain ⟨hc, -⟩ := List.getElem?_eq_some_iff.mp hch
  unfold State.rampUp
  dsimp only
  rw [if_neg]
  · congr 2
    refine List.ext_getElem (by simp [rampChannels]) fun i hi _ => ?_
    have hlen : i < (s.guardChannels f).length := by simpa using hi
    simp [rampChannels, hlen, GuardChannel.ramped]
  · simp only [List.isEmpty_iff, List.filter_eq_nil_iff, List.mem_range]
    intro hnone
    have hskipped := hnone c hc
    simp [hch, hmuted, hok] at hskipped

theorem rampUp_completes (hc : s.canon = true) (hch : (s.guardChannels f)[c]? = some ch) (hmuted : ch.state = 2) (hok : ok c ch = true) :
    (s.rampUp f ok).guardChannels f = rampChannels ok (s.guardChannels f) ∧ posted s (s.rampUp f ok) .egu 4 [] ∧
      NoisyFrame (fun _ => false) s (s.withEgu { s.egu with guard := (s.rampUp f ok).egu.guard }) (s.rampUp f ok) := by
  have hegu : (s.rampUp f ok).egu = { s.egu with guard := Assoc.set s.egu.guard f (rampChannels ok (s.guardChannels f)) } := by
    rw [rampUp_eq hch hmuted hok, State.raise_egu, State.setGuard]
  refine ⟨guardChannels_listed (by rw [hegu, Assoc.get?_set_same]), ?_, ?_⟩
  · rw [rampUp_eq hch hmuted hok]
    exact posted_raise (t := s.setGuard f _) rfl .egu 4 []
  · refine EguChange.noisyFrame ?_ hc (by rw [hegu])
    rw [rampUp_eq hch hmuted hok]
    exact eguChange_raise (eguChange_withEgu (EguChange.refl s) _) .egu 4 []

end

/-! ## AUTO_REARM (R194) -/

section
variable {s : State} (f : Fin 65536)

/-- A channel muted by a check has had its profile's count of clean ticks. -/
def State.rearmDue (s : State) (f : Nat) (ch : GuardChannel) : Bool :=
  ch.cause == 0 && s.get (Reg.EGU_GUARD_POLICY_REARM_M (s.guardProfile f)) ≤ ch.clean

theorem exec_autoRearm (hguarded : s.guarded f = true) (hauto : s.flag (Reg.EGU_GUARD_POLICY_REARM_AUTO (s.guardProfile f)) = true)
    (hsound : s.flag Reg.EGU_GUARD_STATUS_FAILED = false) :
    exec (.autoRearm f) s = ok (s.rampUp f fun _ => s.rearmDue f) := by
  simp only [exec, execAutoRearm, hguarded, hauto, hsound, Bool.not_false, Bool.and_self, if_true]
  rfl

theorem rampChannels_due (chs : List GuardChannel) : rampChannels (fun _ => s.rearmDue f) chs = chs.map (fun ch =>
    if ch.state = 2 ∧ ch.cause = 0 ∧ s.get (Reg.EGU_GUARD_POLICY_REARM_M (s.guardProfile f)) ≤ ch.clean
    then { ch with state := 3, pos := 0, cause := 0 } else ch) := by
  refine List.ext_getElem (by simp [rampChannels]) fun i _ _ => ?_
  simp [rampChannels, State.rearmDue, GuardChannel.ramped]

theorem autoRearm_completes (hc : s.canon = true) (hguarded : s.guarded f = true)
    (hauto : s.flag (Reg.EGU_GUARD_POLICY_REARM_AUTO (s.guardProfile f)) = true)
    (hsound : s.flag Reg.EGU_GUARD_STATUS_FAILED = false)
    (hdue : ∃ ch ∈ s.guardChannels f, ch.state = 2 ∧ ch.cause = 0 ∧
      s.get (Reg.EGU_GUARD_POLICY_REARM_M (s.guardProfile f)) ≤ ch.clean) :
    completes (.autoRearm f) s fun t => t.guardChannels f = (s.guardChannels f).map (fun ch =>
        if ch.state = 2 ∧ ch.cause = 0 ∧ s.get (Reg.EGU_GUARD_POLICY_REARM_M (s.guardProfile f)) ≤ ch.clean
        then { ch with state := 3, pos := 0, cause := 0 } else ch) ∧
      posted s t .egu 4 [] ∧ NoisyFrame (fun _ => false) s { s with egu := { s.egu with guard := t.egu.guard } } t := by
  obtain ⟨ch, hmem, hmuted, hcause, hclean⟩ := hdue
  obtain ⟨c, hch⟩ := List.mem_iff_getElem?.mp hmem
  have hok : s.rearmDue f ch = true := by simp [State.rearmDue, hcause, hclean]
  have hramps := rampUp_completes (ok := fun _ => s.rearmDue f) hc hch hmuted hok
  rw [rampChannels_due] at hramps
  exact ⟨_, exec_autoRearm f hguarded hauto hsound, hramps⟩

end

/-! ## REARM (R194, R206) -/

section
variable {s : State} {r : Requester} (f : Fin 65536) {mask : Nat}

theorem rearmResult_lt (s : State) (f mask : Nat) : s.rearmResult f mask < 2 ^ 4 := by
  unfold State.rearmResult
  dsimp only
  split_ifs <;> decide

/-- RESULT shows the re-arm's result. -/
def State.rearmShown (s : State) (f mask : Nat) : State := s.put Reg.EGU_GUARD_STATUS_RESULT (s.rearmResult f mask)

theorem result_rearmShown (hc : s.canon = true) (f mask : Nat) :
    (s.rearmShown f mask).get Reg.EGU_GUARD_STATUS_RESULT = s.rearmResult f mask :=
  (get_put_same hc (by decide)).trans (Nat.mod_eq_of_lt (rearmResult_lt s f mask))

theorem writes_rearmShown (s : State) (f mask : Nat) :
    Writes (words [Reg.EGU_GUARD_STATUS_RESULT]) s (s.rearmShown f mask) :=
  writes_put (Writes.refl s) (by decide) (.inl (by decide))

variable (hmay : s.mayWrite r 0x07008400 = true) (hpair : s.pairRole = false)
  (hmask : mask = s.get Reg.EGU_GUARD_CH_MASK % 2 ^ (s.geometry f).channels)
include hmay hpair hmask

theorem exec_rearm_accepted (hc : s.canon = true) (hresult : s.rearmResult f mask = 0) : exec (.rearm r f) s =
    ok ((s.rearmShown f mask).withEgu { s.egu with rearms := s.egu.rearms ++ [(f.val, s.tick + 2, mask)] }) := by
  have hshown := writes_rearmShown s f mask
  have htick : (s.rearmShown f mask).tick = s.tick := hshown.get_eq hc (by decide) (by decide)
  have hegu : (s.rearmShown f mask).egu = s.egu := by rw [hshown.rest]
  have halone : ((s.rearmShown f mask).scheduleRearm f mask (s.tick + 2)).pairRole = false :=
    (pairRole_congr (hshown.get_eq hc (f := Reg.HGC_CFG_ROLE) (by decide) (by decide))).trans hpair
  have hscheduled : (s.rearmShown f mask).scheduleRearm f mask (s.tick + 2) =
      (s.rearmShown f mask).withEgu { s.egu with rearms := s.egu.rearms ++ [(f.val, s.tick + 2, mask)] } := by
    rw [State.scheduleRearm, hegu]
    rfl
  simp only [exec, execRearm, State.rearmCmd, hmay, Bool.not_true, Bool.false_eq_true, if_false, localOnly_alone hpair, ← hmask,
    if_pos hresult]
  change ok (((s.rearmShown f mask).scheduleRearm f mask ((s.rearmShown f mask).tick + 2)).carry _ _) = _
  rw [htick, carry_alone halone, hscheduled]

theorem exec_rearm_refused (hresult : s.rearmResult f mask ≠ 0) :
    exec (.rearm r f) s = ok ((s.rearmShown f mask).raise .egu 5 []) := by
  simp only [exec, execRearm, State.rearmCmd, hmay, Bool.not_true, Bool.false_eq_true, if_false, localOnly_alone hpair, ← hmask,
    if_neg hresult]
  rfl

theorem rearm_completes (hc : s.canon = true) :
    (s.rearmResult f mask = 0 → completes (.rearm r f) s fun t => t.get Reg.EGU_GUARD_STATUS_RESULT = 0 ∧
      QuietFrame (words [Reg.EGU_GUARD_STATUS_RESULT]) s
        { s with egu := { s.egu with rearms := s.egu.rearms ++ [(f.val, s.tick + 2, mask)] } } t) ∧
    (s.rearmResult f mask ≠ 0 → completes (.rearm r f) s fun t =>
      t.get Reg.EGU_GUARD_STATUS_RESULT = s.rearmResult f mask ∧ posted s t .egu 5 [] ∧
      NoisyFrame (words [Reg.EGU_GUARD_STATUS_RESULT]) s s t) := by
  have hshown := writes_rearmShown s f mask
  have hegu : (s.rearmShown f mask).egu = s.egu := by rw [hshown.rest]
  refine ⟨fun hresult => ⟨_, exec_rearm_accepted f hmay hpair hmask hc hresult, ?_, hshown.within.words hc, ?_⟩,
    fun hresult => ⟨_, exec_rearm_refused f hmay hpair hmask hresult, ?_, posted_raise (by rw [hshown.rest]) .egu 5 [], ?_⟩⟩
  · rw [withEgu_get, result_rearmShown hc, hresult]
  · rw [State.withEgu, hshown.rest]
  · rw [get_raise (hshown.canon hc) _ _ _ (by decide) (by decide), result_rearmShown hc]
  · exact (eguChange_raise hshown.eguChange .egu 5 []).noisyFrame hc ((State.raise_egu ..).trans hegu)

end

/-! ## REARM_EFFECTIVE (R194) -/

section
variable {s : State} (f : Fin 65536) {mask at_ : Nat}

/-- A flow's only re-arm, where its tick has come, leaves the list and lets its channels ramp up. -/
theorem exec_rearmEffective (honly : s.egu.rearms = [(f.val, at_, mask)]) (hdue : at_ ≤ s.tick)
    (hsound : s.flag Reg.EGU_GUARD_STATUS_FAILED = false) :
    exec (.rearmEffective f) s = ok ((s.withEgu { s.egu with rearms := [] }).rampUp f fun c _ => bitAt mask c) := by
  simp only [exec, execRearmEffective, honly, List.filter_cons, List.filter_nil, beq_self_eq_true, hdue, decide_true, Bool.and_self,
    Bool.not_true, Bool.false_eq_true, if_true, if_false, List.foldl_cons, List.foldl_nil, Nat.zero_or]
  exact congrArg ok (if_neg (ne_true_of_eq_false hsound))

theorem rampChannels_mask (chs : List GuardChannel) : rampChannels (fun c _ => bitAt mask c) chs = chs.mapIdx (fun c ch =>
    if ch.state = 2 ∧ bitAt mask c = true then { ch with state := 3, pos := 0, cause := 0 } else ch) := rfl

theorem rearmEffective_completes (hc : s.canon = true) (honly : s.egu.rearms = [(f.val, at_, mask)]) (hdue : at_ ≤ s.tick)
    (hsound : s.flag Reg.EGU_GUARD_STATUS_FAILED = false)
    (hmuted : (s.guardChannels f).zipIdx.any (fun x => x.1.state == 2 && bitAt mask x.2) = true) :
    completes (.rearmEffective f) s fun t => t.guardChannels f = (s.guardChannels f).mapIdx (fun c ch =>
        if ch.state = 2 ∧ bitAt mask c = true then { ch with state := 3, pos := 0, cause := 0 } else ch) ∧
      posted s t .egu 4 [] ∧ NoisyFrame (fun _ => false) s { s with egu := { s.egu with guard := t.egu.guard, rearms := [] } } t := by
  obtain ⟨⟨ch, c⟩, hmem, hselected⟩ := List.any_eq_true.mp hmuted
  obtain ⟨hstate, hbit⟩ := (Bool.and_eq_true _ _).mp hselected
  have hch : ((s.withEgu { s.egu with rearms := [] }).guardChannels f)[c]? = some ch := List.mem_zipIdx_iff_getElem?.mp hmem
  obtain ⟨hchannels, hposted, hframe⟩ :=
    rampUp_completes (ok := fun c _ => bitAt mask c) (by exact hc) hch (beq_iff_eq.mp hstate) hbit
  exact ⟨_, exec_rearmEffective f honly hdue hsound, hchannels, hposted, hframe.words, hframe.kept, hframe.rest⟩

end

/-! ## QUERY (R206) -/

theorem testBit_setBit (w j i : Nat) : (setBit w j).testBit i = (w.testBit i || i == j) := by
  rw [setBit, setBits_testBit]
  obtain hlt | rfl | hgt := Nat.lt_trichotomy i j
  · rw [if_pos hlt, beq_eq_false_iff_ne.mpr hlt.ne, Bool.or_false]
  · simp
  · rw [if_neg (by omega), if_neg (by omega), beq_eq_false_iff_ne.mpr hgt.ne', Bool.or_false]

theorem testBit_maskOf (l : List Nat) (i : Nat) : (maskOf l).testBit i = l.contains i := by
  have hset : ∀ a : Nat, (l.foldl (fun a i => setBit a i) a).testBit i = (a.testBit i || l.contains i) := by
    induction l with
    | nil => simp
    | cons j l ih =>
      intro a
      rw [List.foldl_cons, ih, testBit_setBit, List.contains_cons, Bool.or_assoc]
  rw [maskOf, hset, Nat.zero_testBit, Bool.false_or]

section
variable {s : State} {r : Requester} (f : Fin 65536)

/-- The mask of the flow's channels for which `p` holds. -/
def State.channelMask (s : State) (f : Nat) (p : GuardChannel → Bool) : Nat :=
  maskOf ((List.range (s.guardChannels f).length).filter fun c => (s.guardChannels f)[c]?.any p)

theorem testBit_channelMask {f c : Nat} {ch : GuardChannel} (hch : (s.guardChannels f)[c]? = some ch) (p : GuardChannel → Bool) :
    (s.channelMask f p).testBit c = p ch := by
  obtain ⟨hc, hget⟩ := List.getElem?_eq_some_iff.mp hch
  rw [State.channelMask, testBit_maskOf, Bool.eq_iff_iff]
  simp [hc, hget]

/-- What a query of a guarded flow shows. -/
def State.queryShown (s : State) (f : Nat) : State :=
  s.puts [(Reg.EGU_GUARD_STATUS_RESULT, 0), (Reg.EGU_GUARD_Q_OFF, s.channelMask f fun ch => ch.state != 0),
    (Reg.EGU_GUARD_Q_DISAGREE, s.channelMask f fun ch => ch.state != 0 && ch.cause == 1)]

theorem writes_queryShown (s : State) (f : Nat) :
    Writes (words [Reg.EGU_GUARD_STATUS_RESULT, Reg.EGU_GUARD_Q_OFF, Reg.EGU_GUARD_Q_DISAGREE]) s (s.queryShown f) := by
  have hresult := writes_put (f := Reg.EGU_GUARD_STATUS_RESULT) (v := 0) (Writes.refl s)
    (area := words [Reg.EGU_GUARD_STATUS_RESULT, Reg.EGU_GUARD_Q_OFF, Reg.EGU_GUARD_Q_DISAGREE]) (by decide) (.inl (by decide))
  have hoff := writes_put (f := Reg.EGU_GUARD_Q_OFF) (v := s.channelMask f fun ch => ch.state != 0) hresult (by decide) (.inr (by decide))
  exact writes_put (f := Reg.EGU_GUARD_Q_DISAGREE) hoff (by decide) (.inr (by decide))

theorem exec_guardQuery (hmay : s.mayWrite r 0x07008400 = true) (hguarded : s.guarded f = true) :
    exec (.guardQuery r f) s = ok (s.queryShown f) := by
  simp only [exec, execGuardQuery, State.guardQueryCmd, hmay, hguarded, Bool.not_true, Bool.false_eq_true, if_false, if_true]
  unfold State.queryShown State.channelMask State.puts
  simp only [List.foldl_cons, List.foldl_nil]
  congr! 6 with c c
  all_goals cases (s.guardChannels f)[c]? <;> rfl

theorem guardQuery_completes (hc : s.canon = true) (hmay : s.mayWrite r 0x07008400 = true) (hguarded : s.guarded f = true) :
    completes (.guardQuery r f) s fun t => t.get Reg.EGU_GUARD_STATUS_RESULT = 0 ∧
      (∀ c ch, c < 64 → (s.guardChannels f)[c]? = some ch → bitAt (t.get Reg.EGU_GUARD_Q_OFF) c = (ch.state != 0) ∧
        bitAt (t.get Reg.EGU_GUARD_Q_DISAGREE) c = (ch.state != 0 && ch.cause == 1)) ∧
      QuietFrame (words [Reg.EGU_GUARD_STATUS_RESULT, Reg.EGU_GUARD_Q_OFF, Reg.EGU_GUARD_Q_DISAGREE]) s s t := by
  refine ⟨_, exec_guardQuery f hmay hguarded, get_puts_last hc [] (by decide) (by simp +decide), fun c ch hlow hch => ?_,
    (writes_queryShown s f).quietFrame hc⟩
  have hoff : (s.queryShown f).get Reg.EGU_GUARD_Q_OFF = (s.channelMask f fun ch => ch.state != 0) % 2 ^ 64 :=
    get_puts_last hc [_] (by decide) (by simp +decide)
  have hdisagree : (s.queryShown f).get Reg.EGU_GUARD_Q_DISAGREE =
      (s.channelMask f fun ch => ch.state != 0 && ch.cause == 1) % 2 ^ 64 := get_puts_last hc [_, _] (by decide) rfl
  simp only [hoff, hdisagree, bitAt_eq_testBit, Nat.testBit_mod_two_pow, hlow, decide_true, Bool.true_and, testBit_channelMask hch,
    and_self]

end

/-! ## Limits (R196) -/

section
variable (p : Fin 64) (which : Fin 3)

theorem limitField_key : (limitField p which).key = 0x07008000 + 16 * p + 4 * which := by
  match which with
  | 0 => rfl
  | 1 => exact Nat.add_right_comm 0x07008000 4 _
  | 2 => exact Nat.add_right_comm 0x07008000 8 _

theorem limitField_word : (limitField p which).hi < 32 := by
  match which with
  | 0 => exact (by decide : 22 < 32)
  | 1 => exact (by decide : 22 < 32)
  | 2 => exact (by decide : 15 < 32)

theorem limitField_ok : (limitField p which).ok = true := by
  have hkey := limitField_key p which
  have hword := limitField_word p which
  have hlo : (limitField p which).lo = 0 := by
    match which with
    | 0 => rfl
    | 1 => rfl
    | 2 => rfl
  simp only [Field.ok, hlo, Bool.and_eq_true, beq_iff_eq, decide_eq_true_eq]
  omega

/-- The limits stand away from the registers that any unit's report writes. -/
theorem limitField_apart : logWord (limitField p which).key = false ∧ words [Reg.QE_ARB_LOST] (limitField p which).key = false := by
  rw [limitField_key]
  have hp := p.isLt
  have hwhich := which.isLt
  constructor
  · simp [logWord, inRange, words]
    omega
  · simp [words]
    omega

end

section
variable {s : State} {r : Requester} {p : Fin 64} {which : Fin 3} {v : Word}

/-- The value that a write gives the limit. -/
def newLimit (p which : Nat) (v : Word) : Nat :=
  bits v.toNat (limitField p which).lo ((limitField p which).hi + 1 - (limitField p which).lo)

/-- The write would change DC_N, and EGU is sealed (R12). -/
def State.limitBreaksSeal (s : State) (p which : Nat) (v : Word) : Bool :=
  which = 2 && s.flag (Reg.UNIT_SEALED 7) && bits v.toNat 16 11 != s.get (Reg.EGU_GUARD_STUCK_DC_N p)

/-- A write that breaks the seal is reported. -/
def State.limitChecked (s : State) (r : Requester) (p which : Nat) (v : Word) : State :=
  s.when (s.limitBreaksSeal p which v) fun s => s.sealWrite r (limitField p which).key

/-- DC_N of the same word takes its value until EGU is sealed. -/
def State.dcCountTaken (s : State) (p which : Nat) (v : Word) : State :=
  s.when (which = 2 && !s.flag (Reg.UNIT_SEALED 7)) fun s => s.put (Reg.EGU_GUARD_STUCK_DC_N p) (bits v.toNat 16 11)

/-- What an accepted write comes to, but for the list of limits. -/
def State.limitWritten (s : State) (r : Requester) (p which : Nat) (v : Word) : State :=
  (s.limitChecked r p which v).dcCountTaken p which v

/-- EGU's state, where a write waits and no other does. -/
def State.limitWaiting (s : State) (p which : Nat) (v : Word) : EguState :=
  { s.egu with limits := [((limitField p which).key, newLimit p which v, s.tick + 2)] }

theorem eguChange_limitChecked : EguChange logWord s (s.limitChecked r p which v) := by
  unfold State.limitChecked State.when
  split
  · exact eguChange_raise (eguChange_hlog (EguChange.refl s) (fun _ hk => hk) _ _ _) _ _ _
  · exact EguChange.refl s

theorem limitChecked_egu : (s.limitChecked r p which v).egu = s.egu := by
  unfold State.limitChecked State.when
  split
  · exact (State.raise_egu ..).trans (State.hlog_egu ..)
  · rfl

theorem writes_dcCountTaken : Writes (words [Reg.EGU_GUARD_STUCK_DC_N p]) s (s.dcCountTaken p which v) :=
  writes_when (Writes.refl s) (writes_put (Writes.refl s) (words_key (List.mem_singleton_self _)) (.inl (show 26 < 32 by decide)))

/-- How a write of a limit ends where none waits. -/
theorem writeLimit_eq (hmay : s.mayWrite r (limitField p which).key = true) (hlimits : s.egu.limits = []) : s.writeLimit r p which v.toNat =
    if (s.limitChecked r p which v).get (limitField p which) < newLimit p which v then
      (((s.limitChecked r p which v).bump Reg.EGU_LIMIT_REFUSED).hlog 8 7 0).raise .egu 7 []
    else if newLimit p which v < limitFloor which then (s.limitChecked r p which v).bump Reg.EGU_LIMIT_REFUSED
    else (s.limitChecked r p which v).localOnly fun u =>
      ((u.dcCountTaken p which v).acceptLimit (limitField p which).key (newLimit p which v) ((u.dcCountTaken p which v).tick + 2)).carry
        ((u.dcCountTaken p which v).tick + 2) (.limit (limitField p which).key (BitVec.ofNat 32 (newLimit p which v))) := by
  obtain ⟨u, hu⟩ : ∃ u, s.limitChecked r p which v = u := ⟨_, rfl⟩
  have hnone : u.egu.limits = [] := by rw [← hu, limitChecked_egu, hlimits]
  have hchecked := hu
  unfold State.limitChecked State.limitBreaksSeal at hchecked
  simp only [State.writeLimit, hmay, hchecked, hnone, hu, Bool.not_true, Bool.false_eq_true, if_false, List.find?_nil]
  rfl

theorem get_limitChecked (hc : s.canon = true) : (s.limitChecked r p which v).get (limitField p which) = s.get (limitField p which) := by
  obtain ⟨hlog, hlost⟩ := limitField_apart p which
  exact eguChange_limitChecked.within.get_eq_low hc (limitField_word p which) (by rw [hlog, hlost]; rfl)

/-- A write that leaves DC_N as it is, or that holds none, writes no register. -/
theorem limitWritten_same (hc : s.canon = true) (hcount : which.val ≠ 2 ∨ bits v.toNat 16 11 = s.get (Reg.EGU_GUARD_STUCK_DC_N p)) :
    s.limitWritten r p which v = s := by
  unfold State.limitWritten State.dcCountTaken State.limitChecked State.limitBreaksSeal State.when
  obtain hother | hsame := hcount
  · simp [hother]
  · simp [hsame, put_get_self hc]

theorem limitWritten_unsealed (hstuck : which.val = 2) (hopen : s.flag (Reg.UNIT_SEALED 7) = false) :
    s.limitWritten r p which v = s.put (Reg.EGU_GUARD_STUCK_DC_N p) (bits v.toNat 16 11) := by
  unfold State.limitWritten State.dcCountTaken State.limitChecked State.limitBreaksSeal State.when
  simp [hstuck, hopen]

theorem limitWritten_sealed (hc : s.canon = true) (hstuck : which.val = 2) (hsealed : s.flag (Reg.UNIT_SEALED 7) = true)
    (hdiffers : bits v.toNat 16 11 ≠ s.get (Reg.EGU_GUARD_STUCK_DC_N p)) :
    s.limitWritten r p which v = s.sealWrite r (limitField p which).key := by
  have hbreaks : s.limitChecked r p which v = s.sealWrite r (limitField p which).key := by
    unfold State.limitChecked State.limitBreaksSeal State.when
    simp [hstuck, hsealed, hdiffers]
  have hsealed' : (s.limitChecked r p which v).flag (Reg.UNIT_SEALED 7) = true :=
    (flag_congr (eguChange_limitChecked.get_eq hc (by decide) (by decide))).trans hsealed
  rw [State.limitWritten, State.dcCountTaken, hsealed', Bool.not_true, Bool.and_false, when_false, hbreaks]

/-- A write that would raise the limit is refused, counted, logged and reported. -/
theorem limitWrite_refused (hc : s.canon = true) (hmay : s.mayWrite r (limitField p which).key = true) (hlimits : s.egu.limits = [])
    (hraise : s.get (limitField p which) < newLimit p which v) (hopen : s.flag (Reg.UNIT_SEALED 7) = false) :
    completes (.limitWrite r p which v) s fun t =>
      t.get Reg.EGU_LIMIT_REFUSED = (s.get Reg.EGU_LIMIT_REFUSED + 1) % 2 ^ 64 ∧ posted s t .egu 7 [] ∧
      NoisyFrame (fun k => words [Reg.EGU_LIMIT_REFUSED] k || logWord k) s s t := by
  have hchecked : s.limitChecked r p which v = s := by
    unfold State.limitChecked State.limitBreaksSeal State.when
    simp [hopen]
  have hexec : exec (.limitWrite r p which v) s = ok (((s.bump Reg.EGU_LIMIT_REFUSED).hlog 8 7 0).raise .egu 7 []) := by
    rw [exec, execLimitWrite, writeLimit_eq hmay hlimits, hchecked, if_pos hraise]
  have hcounted : (s.bump Reg.EGU_LIMIT_REFUSED).canon = true := canon_put hc
  have hlogged : EguChange (fun k => words [Reg.EGU_LIMIT_REFUSED] k || logWord k) s ((s.bump Reg.EGU_LIMIT_REFUSED).hlog 8 7 0) :=
    eguChange_hlog (eguChange_put (EguChange.refl s) _ (by decide) (.inr (by decide))) (fun k hk => by rw [hk, Bool.or_true]) _ _ _
  refine ⟨_, hexec, ?_, posted_raise ((State.hlog_events ..).trans (State.put_events ..)) .egu 7 [], ?_⟩
  · rw [get_raise (hlogged.canon hc) _ _ _ (by decide) (by decide), get_hlog hcounted (by decide) (by decide), State.bump,
      get_put_same hc (by decide)]
    rfl
  · refine (eguChange_raise hlogged .egu 7 []).noisyFrame hc ?_
    rw [State.raise_egu, State.hlog_egu, State.bump_egu]

variable (hc : s.canon = true) (hmay : s.mayWrite r (limitField p which).key = true) (hlimits : s.egu.limits = [])
  (hpair : s.pairRole = false) (hfloor : limitFloor which ≤ newLimit p which v)
  (hcap : newLimit p which v ≤ s.get (limitField p which))
include hc hmay hlimits hpair hfloor hcap

/-- An accepted write waits for its tick. -/
theorem exec_limitWrite_accepted : exec (.limitWrite r p which v) s =
    ok ((s.limitWritten r p which v).withEgu (s.limitWaiting p which v)) := by
  have hchecked : EguChange logWord s (s.limitChecked r p which v) := eguChange_limitChecked
  have hcc := hchecked.canon hc
  have hcount : Writes (words [Reg.EGU_GUARD_STUCK_DC_N p]) _ (s.limitWritten r p which v) := writes_dcCountTaken
  have hp := p.isLt
  have hegu : (s.limitWritten r p which v).egu = s.egu := (congrArg State.egu hcount.rest).trans limitChecked_egu
  have htick : (s.limitWritten r p which v).tick = s.tick :=
    (hcount.get_eq hcc (by simp [words]; omega) (by simp [words]; omega)).trans (hchecked.get_eq hc (by decide) (by decide))
  have hrole : (s.limitChecked r p which v).pairRole = false :=
    (pairRole_congr (hchecked.get_eq hc (by decide) (by decide))).trans hpair
  have hrole' : ((s.limitWritten r p which v).withEgu (s.limitWaiting p which v)).pairRole = false :=
    (pairRole_congr (hcount.get_eq hcc (f := Reg.HGC_CFG_ROLE) (by simp [words]; omega) (by simp [words]; omega))).trans hrole
  have hwaits : (s.limitWritten r p which v).acceptLimit (limitField p which).key (newLimit p which v) (s.tick + 2) =
      (s.limitWritten r p which v).withEgu (s.limitWaiting p which v) := by
    rw [State.acceptLimit, hegu, hlimits]
    rfl
  rw [exec, execLimitWrite, writeLimit_eq hmay hlimits, if_neg (by rw [get_limitChecked hc]; omega), if_neg (by omega),
    localOnly_alone hrole, ← State.limitWritten, htick, hwaits, carry_alone hrole']

theorem limitWrite_waits (hcount : which.val ≠ 2 ∨ bits v.toNat 16 11 = s.get (Reg.EGU_GUARD_STUCK_DC_N p)) :
    completes (.limitWrite r p which v) s fun t =>
      t = { s with egu := { s.egu with limits := [((limitField p which).key, newLimit p which v, s.tick + 2)] } } := by
  refine ⟨_, exec_limitWrite_accepted hc hmay hlimits hpair hfloor hcap, ?_⟩
  rw [limitWritten_same hc hcount]
  rfl

/-- Until EGU is sealed DC_N of the same word takes its value, and STUCK_K waits. -/
theorem limitWrite_setsCount (hstuck : which.val = 2) (hopen : s.flag (Reg.UNIT_SEALED 7) = false) :
    completes (.limitWrite r p which v) s fun t =>
      t.get (Reg.EGU_GUARD_STUCK_DC_N p) = bits v.toNat 16 11 ∧ t.get (limitField p which) = s.get (limitField p which) ∧
      QuietFrame (words [limitField p which])
        s { s with egu := { s.egu with limits := [((limitField p which).key, newLimit p which v, s.tick + 2)] } } t := by
  obtain rfl : which = 2 := Fin.ext hstuck
  have hok : (Reg.EGU_GUARD_STUCK_DC_N p).ok = true := by simp [Field.ok]; omega
  have hoff : (Reg.EGU_GUARD_STUCK_DC_N p).off (limitField p (2 : Fin 3)) = true := by
    rw [Field.off, hok, limitField_ok]
    exact (Bool.or_eq_true _ _).mpr (.inr (decide_eq_true (show _ + 16 ≤ _ from le_rfl)))
  refine ⟨_, exec_limitWrite_accepted hc hmay hlimits hpair hfloor hcap, ?_⟩
  rw [limitWritten_unsealed hstuck hopen]
  have hwrites : Writes (words [limitField p (2 : Fin 3)]) s (s.put (Reg.EGU_GUARD_STUCK_DC_N p) (bits v.toNat 16 11)) :=
    writes_put (Writes.refl s) (words_key (f := Reg.EGU_GUARD_STUCK_STUCK_K p) (List.mem_singleton_self _))
      (.inl (show 26 < 32 by decide))
  refine ⟨(get_put_same hc hok).trans (Nat.mod_eq_of_lt (bits_lt ..)), get_put_off hc hoff, hwrites.within.words hc, ?_⟩
  rw [State.withEgu, State.limitWaiting, hwrites.rest]

/-- In a sealed EGU a write that would change DC_N is reported, and STUCK_K of the same word waits all the same. -/
theorem limitWrite_breaksSeal (hstuck : which.val = 2) (hsealed : s.flag (Reg.UNIT_SEALED 7) = true)
    (hdiffers : bits v.toNat 16 11 ≠ s.get (Reg.EGU_GUARD_STUCK_DC_N p)) :
    completes (.limitWrite r p which v) s fun t => posted s t .sup 2 [] ∧ NoisyFrame logWord s
      { s with egu := { s.egu with limits := [((limitField p which).key, newLimit p which v, s.tick + 2)] } } t := by
  refine ⟨_, exec_limitWrite_accepted hc hmay hlimits hpair hfloor hcap, ?_⟩
  rw [limitWritten_sealed hc hstuck hsealed hdiffers]
  have hreported : EguChange logWord s (s.sealWrite r (limitField p which).key) :=
    eguChange_raise (eguChange_hlog (EguChange.refl s) (fun _ hk => hk) _ _ _) _ _ _
  exact ⟨posted_raise (State.hlog_events ..) .sup 2 [], (eguChange_withEgu hreported _).noisyFrame hc rfl⟩

end

/-! ## LIMIT_LOWERED (R196) -/

section
variable {s : State} {p : Fin 64} {which : Fin 3} {v at_ : Nat}

/-- The limit has taken the value that waited, the only one that did. -/
def State.limitLowered (s : State) (p which v : Nat) : State := (s.withEgu { s.egu with limits := [] }).put (limitField p which) v

theorem exec_limitLowered (honly : s.egu.limits = [((limitField p which).key, v, at_)]) (hdue : at_ ≤ s.tick)
    (hlower : v < s.get (limitField p which)) : exec (.limitLowered p which) s = ok ((s.limitLowered p which v).raise .egu 6 []) := by
  simp only [exec, execLimitLowered, honly, List.find?_cons, beq_self_eq_true, hdue, decide_true, Bool.and_self, hlower, List.filter_cons,
    List.filter_nil, bne_self_eq_false, Bool.false_eq_true, if_false]
  rfl

theorem limitLowered_completes (hc : s.canon = true) (honly : s.egu.limits = [((limitField p which).key, v, at_)]) (hdue : at_ ≤ s.tick)
    (hlower : v < s.get (limitField p which)) : completes (.limitLowered p which) s fun t =>
      t.get (limitField p which) = v ∧ posted s t .egu 6 [] ∧
      NoisyFrame (words [limitField p which]) s { s with egu := { s.egu with limits := [] } } t := by
  have hbegun : (s.withEgu { s.egu with limits := [] }).canon = true := hc
  have hset : EguChange (words [limitField p which]) s (s.limitLowered p which v) :=
    eguChange_put (eguChange_withEgu (EguChange.refl s) _) v (words_key (List.mem_singleton_self _)) (.inl (limitField_word p which))
  have hraised : Within (words [Reg.QE_ARB_LOST]) (s.limitLowered p which v) ((s.limitLowered p which v).raise .egu 6 []) :=
    within_raise (Within.refl _) (by decide) (by decide)
  obtain ⟨-, hlost⟩ := limitField_apart p which
  refine ⟨_, exec_limitLowered honly hdue hlower, ?_, posted_raise ((State.put_events ..).trans (withEgu_events ..)) .egu 6 [], ?_⟩
  · rw [hraised.get_eq_low (hset.canon hc) (limitField_word p which) hlost, State.limitLowered,
      get_put_same hbegun (limitField_ok p which), Nat.mod_eq_of_lt (hlower.trans (get_lt s _))]
  · exact (eguChange_raise hset .egu 6 []).noisyFrame hc ((State.raise_egu ..).trans (State.put_egu ..))

end

/-- Settles O24: clause by clause. -/
theorem guardCommandsComplete : Obligations.GuardCommandsComplete := by
  intro s hc
  refine ⟨fun f hguarded hauto hsound hdue => autoRearm_completes f hc hguarded hauto hsound hdue,
    fun r f mask hmay hpair hmask => rearm_completes f hmay hpair hmask hc,
    fun f mask at_ honly hdue hsound hmuted => rearmEffective_completes f hc honly hdue hsound hmuted,
    fun r f hmay hguarded => guardQuery_completes f hc hmay hguarded, ?write, ?lowered⟩
  case write =>
    rintro r p which v _ _ rfl rfl hmay hpair hlimits
    refine ⟨fun hfloor hcap => ⟨?_, ?_, ?_⟩, fun hraise hopen => limitWrite_refused hc hmay hlimits hraise hopen⟩
    · exact fun hcount => limitWrite_waits hc hmay hlimits hpair hfloor hcap hcount
    · exact fun hstuck hopen => limitWrite_setsCount hc hmay hlimits hpair hfloor hcap hstuck hopen
    · exact fun hstuck hsealed hdiffers => limitWrite_breaksSeal hc hmay hlimits hpair hfloor hcap hstuck hsealed hdiffers
  case lowered =>
    rintro p which _ v at_ rfl honly hdue hlower
    exact limitLowered_completes hc honly hdue hlower

end Sys2Proof.Machine
end


section
/-! PROOFS. Writes of EGU's plain words: the rows of its register map that cover a key, and what a word of rw fields shows after
a write (R9, R10). -/

namespace Sys2Proof.Machine

/-! ## The rows of EGU's words -/

/-- The row describes the word at `k`. -/
def WordRow.covers (row : WordRow) (k : Nat) : Bool :=
  row.base ≤ k && (if row.stride = 0 then k == row.base else (k - row.base) % row.stride == 0 && (k - row.base) / row.stride < row.count)

/-- The row describes no word from `lo` up to `hi`. -/
def WordRow.avoids (row : WordRow) (lo hi : Nat) : Bool := hi ≤ row.base || row.base + max 1 (row.stride * row.count) ≤ lo

/-- Every field of the row is a plain rw field. -/
def WordRow.plain (row : WordRow) : Bool := row.fields.all (·.acc == .rw)

section
variable {lo hi k : Nat}

theorem WordRow.not_covers_of_avoids {row : WordRow} (h : row.avoids lo hi = true) (hlo : lo ≤ k) (hhi : k < hi) :
    row.covers k = false := by
  simp only [WordRow.avoids, Bool.or_eq_true, decide_eq_true_eq] at h
  rw [WordRow.covers, Bool.and_eq_false_iff, decide_eq_false_iff_not]
  obtain habove | hbelow := h
  · exact .inl (by omega)
  · refine .inr ?_
    split
    · exact beq_false_of_ne (by omega)
    next hstride =>
      rw [Bool.and_eq_false_iff, decide_eq_false_iff_not, Nat.div_lt_iff_lt_mul (Nat.pos_of_ne_zero hstride), Nat.mul_comm]
      exact .inr (by omega)

theorem rowOf_egu (hk : k / 0x1000000 = 7) : rowOf k = eguRows.find? (·.covers k) := by
  rw [rowOf, if_neg (by omega), rowsFor, hk]
  rfl

variable (hunit : k / 0x1000000 = 7) (hlo : lo ≤ k) (hhi : k < hi)
include hunit hlo hhi

/-- Where one row alone reaches into a range, it describes a word of the range or none does. -/
theorem rowOf_egu_only {row : WordRow} (hrow : row ∈ eguRows) (honly : eguRows.all (fun x => x.avoids lo hi || x == row) = true) :
    rowOf k = if row.covers k then some row else none := by
  have hother : ∀ x ∈ eguRows, x.covers k = true → x = row := fun x hx hcov =>
    (Bool.or_eq_true_iff.mp (List.all_eq_true.mp honly x hx)).elim
      (fun h => absurd hcov (by rw [WordRow.not_covers_of_avoids h hlo hhi]; decide)) eq_of_beq
  rw [rowOf_egu hunit]
  cases hfound : eguRows.find? (·.covers k) with
  | none => rw [if_neg (List.find?_eq_none.mp hfound row hrow)]
  | some x =>
    have hcov : x.covers k = true := List.find?_some (p := (WordRow.covers · k)) hfound
    rw [← hother x (List.mem_of_find?_eq_some hfound) hcov, if_pos hcov]

/-- The rows that reach into a range are plain, and so is the one of any word of the range. -/
theorem rowOf_egu_plain (hplain : eguRows.all (fun x => x.avoids lo hi || x.plain) = true) : (rowOf k).all (·.plain) = true := by
  rw [rowOf_egu hunit]
  cases hfound : eguRows.find? (·.covers k) with
  | none => rfl
  | some x =>
    refine (Bool.or_eq_true_iff.mp (List.all_eq_true.mp hplain x (List.mem_of_find?_eq_some hfound))).resolve_left fun h => ?_
    have hcov : x.covers k = true := List.find?_some (p := (WordRow.covers · k)) hfound
    exact absurd hcov (by rw [WordRow.not_covers_of_avoids h hlo hhi]; decide)

end

/-! ## A write of a plain word (R9, R10) -/

/-- A field of the list takes bit `i` of what is written. -/
def takesBit (fields : List FieldRow) (i : Nat) : Bool := fields.any (fun f => f.lo ≤ i && i ≤ f.hi)

/-- The bits of rw fields are taken from what is written, the others stay. -/
theorem testBit_foldl_writeField {fields : List FieldRow} (hrw : fields.all (·.acc == .rw) = true) (isSealed : Bool) (v w i : Nat) :
    (fields.foldl (writeField isSealed v) w).testBit i = if takesBit fields i then v.testBit i else w.testBit i := by
  induction fields generalizing w with
  | nil => rfl
  | cons f fields ih =>
    rw [List.all_cons, Bool.and_eq_true, beq_iff_eq] at hrw
    have hwritten : (writeField isSealed v w f).testBit i = if f.lo ≤ i && i ≤ f.hi then v.testBit i else w.testBit i := by
      rw [writeField, hrw.1]
      change (setBits w f.lo _ (bits v f.lo _)).testBit i = _
      rw [setBits_testBit, bits_testBit]
      simp only [Bool.and_eq_true, decide_eq_true_eq]
      by_cases hbelow : i < f.lo
      · rw [if_pos hbelow, if_neg (by omega)]
      · rw [if_neg hbelow]
        by_cases hin : i ≤ f.hi
        · rw [if_pos (by omega), if_pos (by omega), decide_eq_true (by omega), Bool.true_and, show f.lo + (i - f.lo) = i by omega]
        · rw [if_neg (by omega), if_neg (by omega)]
    have hsplit : takesBit (f :: fields) i = ((f.lo ≤ i && i ≤ f.hi) || takesBit fields i) := List.any_cons
    rw [List.foldl_cons, ih hrw.2, hwritten, hsplit]
    cases takesBit fields i with
    | true => rw [Bool.or_true, if_pos rfl, if_pos rfl]
    | false => rw [Bool.or_false, if_neg Bool.false_ne_true]

section
variable {s : State} {r : Requester} {k : Nat}

theorem setWord_rowless (hrow : rowOf k = none) (v : Nat) : s.setWord k v = s := by
  rw [setWord_eq, hrow, ite_self, Option.elim_none]

theorem breaksSeal_plain (hplain : (rowOf k).all (·.plain) = true) (v : Nat) : s.breaksSeal k v = false := by
  unfold State.breaksSeal
  cases hrow : rowOf k with
  | none => exact Bool.and_false _
  | some row =>
    rw [hrow, Option.all_some] at hplain
    have hnone : row.fields.any (fun f => f.acc == .sl && bits v f.lo (f.hi + 1 - f.lo) != bits (s.rd k) f.lo (f.hi + 1 - f.lo)) = false :=
      List.any_eq_false.mpr fun f hf => by rw [beq_iff_eq.mp (List.all_eq_true.mp hplain f hf)]; exact Bool.false_ne_true
    rw [Option.any_some, sealBreak, hnone, Bool.and_false, Bool.and_false]

/-- A write of a word without sealed fields breaks no seal. -/
theorem writeWord_plain (hplain : (rowOf k).all (·.plain) = true) (v : Nat) : s.writeWord r k v = s.setWord k v := by
  rw [State.writeWord, breaksSeal_plain hplain, if_neg Bool.false_ne_true]

theorem writes_setWord {area : Nat → Bool} {s₀ : State} (h : Writes area s₀ s) (hk : area k = true) (v : Nat) :
    Writes area s₀ (s.setWord k v) := ⟨within_setWord h.within hk, by rw [setWord_rest, h.rest]⟩

theorem writes_writeWord_plain {area : Nat → Bool} {s₀ : State} (h : Writes area s₀ s) (hk : area k = true)
    (hplain : (rowOf k).all (·.plain) = true) (v : Nat) : Writes area s₀ (s.writeWord r k v) := by
  rw [writeWord_plain hplain]
  exact writes_setWord h hk v

theorem shows_of_mayWrite (h : s.mayWrite r k = true) : s.shows k = true := (Bool.and_eq_true_iff.mp h).2

variable {row : WordRow} (hc : s.canon = true) (hshow : s.shows k = true) (hrow : rowOf k = some row) (hplain : row.plain = true)
include hc hshow hrow hplain

theorem testBit_rd_setWord (v : Nat) {i : Nat} (hi : i < 32) :
    ((s.setWord k v).rd k).testBit i = if takesBit row.fields i then v.testBit i else (s.rd k).testBit i := by
  rw [rd_setWord hc, hshow, if_pos rfl, hrow, Option.elim_some, Nat.testBit_mod_two_pow, decide_eq_true hi, Bool.true_and,
    testBit_foldl_writeField hplain]

/-- Bits that the row's fields take show what was written. -/
theorem bits_setWord_taken (v : Nat) {lo n : Nat} (hn : lo + n ≤ 32) (htaken : ∀ i, i < n → takesBit row.fields (lo + i) = true) :
    bits ((s.setWord k v).rd k) lo n = bits v lo n := by
  apply Nat.eq_of_testBit_eq
  intro i
  rw [bits_testBit, bits_testBit]
  by_cases hi : i < n
  · rw [testBit_rd_setWord hc hshow hrow hplain v (by omega), if_pos (htaken i hi)]
  · rw [decide_eq_false hi, Bool.false_and, Bool.false_and]

/-- Bits that none of the row's fields takes stay. -/
theorem bits_setWord_kept (v : Nat) {lo n : Nat} (hn : lo + n ≤ 32) (hkept : ∀ i, i < n → takesBit row.fields (lo + i) = false) :
    bits ((s.setWord k v).rd k) lo n = bits (s.rd k) lo n := by
  apply Nat.eq_of_testBit_eq
  intro i
  rw [bits_testBit, bits_testBit]
  by_cases hi : i < n
  · rw [testBit_rd_setWord hc hshow hrow hplain v (by omega), if_neg (by rw [hkept i hi]; decide)]
  · rw [decide_eq_false hi, Bool.false_and, Bool.false_and]

end

/-! ## What a word shows, and time -/

/-- What a word shows rests on the units' states and the boot stage alone (R30, R53, R58). -/
theorem shows_settle {s : State} (hc : s.canon = true) (k : Nat) : s.settle.shows k = s.shows k := by
  have hsettled := (settles_settle s).within
  have hstate : ∀ u, s.settle.get (Reg.UNIT_STATE u) = s.get (Reg.UNIT_STATE u) := fun u =>
    hsettled.get_eq_low hc (show 2 < 32 by decide) (by simp [settleWord, inRange]; omega)
  have hstage : s.settle.get Reg.SUP_BOOT_STATUS_STAGE = s.get Reg.SUP_BOOT_STATUS_STAGE := hsettled.get_eq hc (by decide) (by decide)
  simp only [State.shows, State.running, hstate, hstage]

end Sys2Proof.Machine
end

section
/-! PROOFS. Writes of the credit-based shaper (R216): the word of a queue takes its values, and the queue's credit starts over. -/

namespace Sys2Proof.Machine

theorem get_word {s : State} {f : Field} (hword : f.hi < 32) : s.get f = bits (s.rd f.key) f.lo f.width := if_pos hword

/-! ## A queue's credit (R215) -/

theorem cbsCredit_ok (i : Nat) : (Reg.EGU_CBS_CREDIT_CREDIT i).ok = true := by
  simp only [Field.ok, Bool.and_eq_true, beq_iff_eq, decide_eq_true_eq]
  omega

section
variable {s : State} (i : Fin 256)

theorem credit_setCredit_zero : (s.setCredit i 0).credit i = 0 := by
  rw [State.setCredit, if_neg (by omega), State.credit, State.put_egu, if_pos rfl, Assoc.getD, Assoc.get?_erase_same]
  rfl

theorem shownCredit_setCredit_zero (hc : s.canon = true) : (s.setCredit i 0).get (Reg.EGU_CBS_CREDIT_CREDIT i) = 0 := by
  rw [State.setCredit, if_neg (by omega)]
  exact get_put_zero hc (cbsCredit_ok i)

end

/-! ## EGU_CBS_SLOPE and EGU_CBS_LIMIT (R216) -/

/-- A word of queue `i` has taken a write, after all credits came to the present, and the queue's credit is 0. -/
def State.queueWritten (s : State) (r : Requester) (i k v : Nat) : State := (s.settle.writeWord r k v).setCredit i 0

/-- The row of EGU_CBS_SLOPE, and that of EGU_CBS_LIMIT. -/
def slopeRow : WordRow := ⟨0x07002000, 4, 256, [⟨18, 0, .rw, 0⟩]⟩
def creditLimitRow : WordRow := ⟨0x07002400, 4, 256, [⟨31, 16, .rw, 0x0000FFFF⟩, ⟨15, 0, .rw, 0x0000FFFF⟩]⟩

theorem rowOf_slope (i : Fin 256) : rowOf (0x07002000 + 4 * i) = some slopeRow := by
  rw [rowOf_egu_only (lo := 0x07002000) (hi := 0x07002400) (row := slopeRow) (by omega) (by omega) (by omega) (by decide) (by decide),
    if_pos (by simp [WordRow.covers, slopeRow])]

theorem rowOf_creditLimit (i : Fin 256) : rowOf (0x07002400 + 4 * i) = some creditLimitRow := by
  rw [rowOf_egu_only (lo := 0x07002400) (hi := 0x07002800) (row := creditLimitRow) (by omega) (by omega) (by omega) (by decide)
    (by decide), if_pos (by simp [WordRow.covers, creditLimitRow])]

section
variable {s : State} {r : Requester} {i : Fin 256} {v : Word}

theorem exec_cbsSlopeWrite {others : Nat} (hmay : s.mayWrite r (0x07002000 + 4 * i) = true)
    (hothers : others = sumOf ((List.range 8).filter (fun c => 8 * (i.val / 8) + c != i.val))
      (fun c => s.get (Reg.EGU_CBS_SLOPE_IDLE_SLOPE (8 * (i.val / 8) + c)))) :
    exec (.cbsSlopeWrite r i v) s = ok (if s.portRate (i.val / 8) * 1000 < others + v.toNat % 2 ^ 19 then s
      else s.queueWritten r i (0x07002000 + 4 * i) v.toNat) := by
  subst hothers
  simp only [exec, execCbsSlopeWrite, State.writeSlope, hmay, Bool.not_true, Bool.false_or, decide_eq_true_eq]
  rfl

theorem exec_cbsLimitWrite (hmay : s.mayWrite r (0x07002400 + 4 * i) = true) :
    exec (.cbsLimitWrite r i v) s = ok (s.queueWritten r i (0x07002400 + 4 * i) v.toNat) := by
  simp only [exec, execCbsLimitWrite, State.writeCreditLimit, hmay, Bool.not_true, Bool.false_eq_true, if_false]
  rfl

theorem canon_settledWrite (hc : s.canon = true) (k v : Nat) : (s.settle.writeWord r k v).canon = true :=
  (keeps_writeWord (Keeps.refl _)).canon (canon_settle hc)

variable {k : Nat} {row : WordRow} (hc : s.canon = true) (hrow : rowOf k = some row) (hplain : row.plain = true)
include hc hrow hplain

/-- Fields of the word show what was written, wherever credits are shown. -/
theorem bits_queueWritten (hmay : s.mayWrite r k = true) (hset : settleWord k = false) (v : Nat) {lo n : Nat} (hn : lo + n ≤ 32)
    (htaken : ∀ j, j < n → takesBit row.fields (lo + j) = true) : bits ((s.queueWritten r i k v).rd k) lo n = bits v lo n := by
  have hshow : s.settle.shows k = true := (shows_settle hc k).trans (shows_of_mayWrite hmay)
  have hwritten : s.settle.writeWord r k v = s.settle.setWord k v := writeWord_plain (by rw [hrow, Option.all_some, hplain]) v
  rw [State.queueWritten, (settles_setCredit _ i 0).within.words (canon_settledWrite hc k v) k hset, hwritten,
    bits_setWord_taken (canon_settle hc) hshow hrow hplain v hn htaken]

end

/-- Settles O30: the word takes its values by its row, and the credit that the write sets to 0 stands in other words. -/
theorem creditShaperWrites : Obligations.CreditShaperWrites := by
  intro s hc r
  refine ⟨fun i v others hmay hothers => ⟨fun hfits => ?fits, fun hexceeds => ?exceeds⟩, fun i v hmay => ?limit⟩
  case fits =>
    refine ⟨_, exec_cbsSlopeWrite hmay hothers, ?_⟩
    rw [if_neg (Nat.not_lt.mpr hfits)]
    refine ⟨?_, credit_setCredit_zero i, shownCredit_setCredit_zero i (canon_settledWrite hc _ _)⟩
    rw [get_word (show 18 < 32 by decide)]
    exact (bits_queueWritten hc (rowOf_slope i) (by decide) hmay (by simp [settleWord, inRange]; omega) v.toNat
      (lo := 0) (n := 19) (by decide) (by decide)).trans (by rw [bits, pow_zero, Nat.div_one])
  case exceeds => exact ⟨_, exec_cbsSlopeWrite hmay hothers, if_pos hexceeds⟩
  case limit =>
    have hset : settleWord (0x07002400 + 4 * i.val) = false := by simp [settleWord, inRange]; omega
    refine ⟨_, exec_cbsLimitWrite hmay, ?_, ?_, credit_setCredit_zero i⟩
    · rw [get_word (show 31 < 32 by decide)]
      exact bits_queueWritten hc (rowOf_creditLimit i) (by decide) hmay hset v.toNat (lo := 16) (n := 16) (by decide) (by decide)
    · rw [get_word (show 15 < 32 by decide)]
      exact bits_queueWritten hc (rowOf_creditLimit i) (by decide) hmay hset v.toNat (lo := 0) (n := 16) (by decide) (by decide)

end Sys2Proof.Machine
end

section
/-! PROOFS. The gate lists' commands (R213, R214): a word of the staging list, the check and the schedule of a commit, and the switch of
the banks at its tick. -/

namespace Sys2Proof.Machine

/-! ## Words beside EGU's own state -/

/-- The frame of a command that writes registers and sets EGU's own state. -/
theorem Writes.quietFrame_setEgu {area : Nat → Bool} {s t : State} (h : Writes area s t) (hc : s.canon = true) (x : EguState) :
    QuietFrame area s (s.withEgu x) (t.withEgu x) := ⟨h.within.words hc, by rw [h.rest]; rfl⟩

/-! ## GATE_LIST_WRITE (R213) -/

/-- The row of the staging lists. -/
def gateRow : WordRow := ⟨0x07004000, 4, 2048, [⟨31, 31, .rw, 0⟩, ⟨28, 16, .rw, 0⟩, ⟨7, 0, .rw, 0⟩]⟩

theorem rowOf_gateStaged (i : Fin 2048) : rowOf (0x07004000 + 4 * i) = some gateRow := by
  rw [rowOf_egu_only (lo := 0x07004000) (hi := 0x07006000) (row := gateRow) (by omega) (by omega) (by omega) (by decide) (by decide),
    if_pos (by simp [WordRow.covers, gateRow])]

section
variable {s : State} {r : Requester} {i : Fin 2048} {v : Word} (hmay : s.mayWrite r (0x07004000 + 4 * i) = true)
  (hpair : s.pairRole = false)
include hmay hpair

/-- A write while a commit runs is lost, and LOST says so. -/
theorem exec_gateListWrite_lost (hbusy : s.flag Reg.EGU_GATE_CTL_BUSY = true) :
    exec (.gateListWrite r i v) s = ok (s.put Reg.EGU_GATE_CTL_LOST 1) := by
  simp only [exec, execGateListWrite, State.writeGate, hmay, localOnly_alone hpair, hbusy, Bool.not_true, Bool.false_eq_true, if_false,
    if_true]

theorem exec_gateListWrite_taken (hc : s.canon = true) (hidle : s.flag Reg.EGU_GATE_CTL_BUSY = false) :
    exec (.gateListWrite r i v) s = ok (s.setWord (0x07004000 + 4 * i) v.toNat) := by
  have hplain : s.writeWord r (0x07004000 + 4 * i) v.toNat = s.setWord (0x07004000 + 4 * i) v.toNat :=
    writeWord_plain (by rw [rowOf_gateStaged]; decide) _
  have hset : Writes (fun k => k == 0x07004000 + 4 * i.val) s (s.setWord (0x07004000 + 4 * i) v.toNat) :=
    writes_setWord (area := fun k => k == 0x07004000 + 4 * i.val) (Writes.refl s) (beq_self_eq_true _) _
  have hrole : (s.setWord (0x07004000 + 4 * i) v.toNat).pairRole = false :=
    (pairRole_congr (hset.within.get_eq_low hc (by decide) (beq_false_of_ne (by simp; omega)))).trans hpair
  simp only [exec, execGateListWrite, State.writeGate, hmay, localOnly_alone hpair, hidle, Bool.not_true, Bool.false_eq_true, if_false,
    hplain, carry_alone hrole]

end

/-! ## The check of the staged lists (R213) -/

section
variable {s t : State}

theorem gateFrom_congr {key : Nat → Nat} (hrd : ∀ i, t.rd (key i) = s.rd (key i)) (n i : Nat) :
    t.gateFrom key n i = s.gateFrom key n i := by
  induction n generalizing i with
  | zero => rfl
  | succ n ih => simp only [State.gateFrom, hrd, ih]

/-- The check rests on the staging window and the tick period. -/
theorem gateListOk_congr (hrd : ∀ k, 0x07004000 ≤ k → t.rd k = s.rd k) (hperiod : t.period = s.period) (p : Nat) :
    t.gateListOk p = s.gateListOk p := by
  have hstaged : ∀ i, t.rd (gateStaged p i) = s.rd (gateStaged p i) := fun i => hrd _ (by unfold gateStaged; omega)
  simp only [State.gateListOk, gateFrom_congr hstaged, hstaged, hperiod]

end

/-! ## GATE_COMMIT (R213) -/

/-- A commit has begun. -/
def State.gateBegun (s : State) : State := (s.put Reg.EGU_GATE_CTL_BUSY 1).put Reg.EGU_GATE_CTL_COMMIT 1

/-- What a commit that has begun comes to where every list passes: it is refused for a tick too near, or waits for its tick. -/
def State.gateAgreed (s : State) : State :=
  let want := s.get Reg.EGU_GATE_COMMIT_TICK
  let t := if want = 0 then s.tick + 2 else want
  if want != 0 && want < s.tick + 2 then s.gateRefused 2 0
  else
    let s := (s.put Reg.EGU_GATE_COMMIT_TICK t).put Reg.EGU_GATE_STATUS_RESULT 0
    ({ s with egu := { s.egu with gateTick := some t } } : State).carry t .gateCommit

theorem gateAgreed_earliest {s : State} (hany : s.get Reg.EGU_GATE_COMMIT_TICK = 0) {t : Nat} (ht : s.tick + 2 = t) : s.gateAgreed =
    (((s.put Reg.EGU_GATE_COMMIT_TICK t).put Reg.EGU_GATE_STATUS_RESULT 0).withEgu { s.egu with gateTick := some t }).carry t
      .gateCommit := by
  have hegu : ((s.put Reg.EGU_GATE_COMMIT_TICK t).put Reg.EGU_GATE_STATUS_RESULT 0).egu = s.egu :=
    (State.put_egu ..).trans (State.put_egu ..)
  rw [State.gateAgreed, hany, ht, if_pos rfl, bne_self_eq_false, Bool.false_and, if_neg Bool.false_ne_true, ← hegu]
  rfl

/-- The registers of a commit that waits for tick `t`. -/
def State.gateScheduled (s : State) (t : Nat) : State :=
  s.puts [(Reg.EGU_GATE_CTL_BUSY, 1), (Reg.EGU_GATE_CTL_COMMIT, 1), (Reg.EGU_GATE_COMMIT_TICK, t), (Reg.EGU_GATE_STATUS_RESULT, 0)]

/-- The registers of a commit that the list of port `p` has failed. -/
def State.gateFailed (s : State) (p : Nat) : State :=
  s.puts [(Reg.EGU_GATE_CTL_BUSY, 1), (Reg.EGU_GATE_CTL_COMMIT, 1), (Reg.EGU_GATE_STATUS_RESULT, 1), (Reg.EGU_GATE_STATUS_ERR_PORT, p),
    (Reg.EGU_GATE_CTL_BUSY, 0), (Reg.EGU_GATE_CTL_COMMIT, 0)]

section
variable (s : State)

theorem gateScheduled_eq (t : Nat) :
    s.gateScheduled t = (s.gateBegun.put Reg.EGU_GATE_COMMIT_TICK t).put Reg.EGU_GATE_STATUS_RESULT 0 := rfl

theorem writes_gateBegun : Writes (words [Reg.EGU_GATE_CTL_BUSY]) s s.gateBegun :=
  writes_put (writes_put (Writes.refl s) (by decide) (.inl (by decide))) (by decide) (.inl (by decide))

theorem writes_gateFailed (p : Nat) : Writes (words [Reg.EGU_GATE_CTL_BUSY, Reg.EGU_GATE_STATUS_RESULT]) s (s.gateFailed p) :=
  writes_puts (Writes.refl s) rfl

theorem writes_gateScheduled (t : Nat) :
    Writes (words [Reg.EGU_GATE_CTL_BUSY, Reg.EGU_GATE_STATUS_RESULT, Reg.EGU_GATE_COMMIT_TICK]) s (s.gateScheduled t) := by
  have hbegun : Writes _ s s.gateBegun := (writes_gateBegun s).mono (more := words [Reg.EGU_GATE_CTL_BUSY, Reg.EGU_GATE_STATUS_RESULT,
    Reg.EGU_GATE_COMMIT_TICK]) fun _ => words_mono (by simp)
  have htick := writes_put (f := Reg.EGU_GATE_COMMIT_TICK) (v := t) hbegun (by decide) (.inr (by decide))
  exact writes_put (f := Reg.EGU_GATE_STATUS_RESULT) htick (by decide) (.inl (by decide))

end

section
variable {s : State} {r : Requester}

theorem busy_gateScheduled (hc : s.canon = true) (t : Nat) : (s.gateScheduled t).get Reg.EGU_GATE_CTL_BUSY = 1 :=
  get_puts_last hc [] (by decide) (by simp +decide)

theorem busy_gateFailed (hc : s.canon = true) (p : Nat) : (s.gateFailed p).get Reg.EGU_GATE_CTL_BUSY = 0 :=
  get_puts_last hc [_, _, _, _] (by decide) (by simp +decide)

theorem result_gateFailed (hc : s.canon = true) (p : Nat) : (s.gateFailed p).get Reg.EGU_GATE_STATUS_RESULT = 1 :=
  get_puts_last hc [_, _] (by decide) (by simp +decide)

theorem port_gateFailed (hc : s.canon = true) (p : Nat) : (s.gateFailed p).get Reg.EGU_GATE_STATUS_ERR_PORT = p % 32 :=
  get_puts_last hc [_, _, _] (by decide) (by simp +decide)

theorem gateListOk_begun (hc : s.canon = true) (p : Nat) : s.gateBegun.gateListOk p = s.gateListOk p :=
  gateListOk_congr (fun k hk => (writes_gateBegun s).within.words hc k (by simp [words]; omega))
    (period_congr ((writes_gateBegun s).get_eq hc (by decide) (by decide))) p

variable (hmay : s.mayWrite r 0x07001100 = true) (hpair : s.pairRole = false) (hidle : s.flag Reg.EGU_GATE_CTL_BUSY = false)
include hmay hpair hidle

/-- A commit checks the lists and stops at the first that fails. -/
theorem gateCommit_eq : s.gateCommit r =
    (findBelow 32 (fun p => !s.gateBegun.gateListOk p)).elim s.gateBegun.gateAgreed (s.gateBegun.gateRefused 1) := by
  obtain ⟨b, hb⟩ : ∃ b, s.gateBegun = b := ⟨_, rfl⟩
  have hputs := hb
  unfold State.gateBegun at hputs
  simp only [State.gateCommit, hmay, localOnly_alone hpair, hidle, hputs, hb, Bool.not_true, Bool.false_eq_true, if_false]
  cases findBelow 32 (fun p => !b.gateListOk p) with
  | none => rfl
  | some p => rfl

variable (hc : s.canon = true)
include hc

/-- Lists that all pass are scheduled, where no tick is asked for, at the earliest one. -/
theorem exec_gateCommit_scheduled (hlists : ∀ p, p < 32 → s.gateListOk p = true) (hany : s.get Reg.EGU_GATE_COMMIT_TICK = 0) :
    exec (.gateCommit r) s = ok ((s.gateScheduled (s.tick + 2)).withEgu { s.egu with gateTick := some (s.tick + 2) }) := by
  have hbegun := writes_gateBegun s
  have hfound : findBelow 32 (fun p => !s.gateBegun.gateListOk p) = none :=
    List.find?_eq_none.mpr fun p hp => by rw [gateListOk_begun hc, hlists p (List.mem_range.mp hp)]; decide
  have hwant : s.gateBegun.get Reg.EGU_GATE_COMMIT_TICK = 0 := (hbegun.get_eq hc (by decide) (by decide)).trans hany
  have htick : s.gateBegun.tick + 2 = s.tick + 2 := congrArg (· + 2) (hbegun.get_eq hc (by decide) (by decide))
  have hegu : s.gateBegun.egu = s.egu := by rw [hbegun.rest]
  have hrole : ((s.gateScheduled (s.tick + 2)).withEgu { s.egu with gateTick := some (s.tick + 2) }).pairRole = false :=
    (pairRole_congr ((withEgu_get ..).trans ((writes_gateScheduled s _).get_eq hc (by decide) (by decide)))).trans hpair
  rw [exec, execGateCommit, gateCommit_eq hmay hpair hidle, hfound, Option.elim_none, gateAgreed_earliest hwant htick, hegu,
    ← gateScheduled_eq, carry_alone hrole]

/-- The first port whose list fails ends the commit. -/
theorem exec_gateCommit_failed {p : Nat} (hp : p < 32) (hbad : s.gateListOk p = false) (hfirst : ∀ q, q < p → s.gateListOk q = true) :
    exec (.gateCommit r) s = ok ((s.gateFailed p).raise .egu 12 [(8, 1), (8, p)]) := by
  have hfound : findBelow 32 (fun p => !s.gateBegun.gateListOk p) = some p := by
    refine List.find?_range_eq_some.mpr ⟨?_, List.mem_range.mpr hp, fun q hq => ?_⟩
    · rw [gateListOk_begun hc, hbad]; rfl
    · rw [gateListOk_begun hc, hfirst q hq]; rfl
  rw [exec, execGateCommit, gateCommit_eq hmay hpair hidle, hfound]
  rfl

end

/-! ## GATE_COMMIT_DONE (R213) -/

/-- The committed lists as the staged ones stood. -/
def State.gateBankTaken (s : State) : State :=
  s.settle.wrWords 0x07006000 ((List.range 2048).map (fun i => s.rd (0x07004000 + 4 * i)))

/-- No commit waits. -/
def State.gateCleared (s : State) : State := s.withEgu { s.egu with gateTick := none }

/-- The commit is over. -/
def State.gateEnded (s : State) : State := s.gateCleared.puts [(Reg.EGU_GATE_CTL_BUSY, 0), (Reg.EGU_GATE_CTL_COMMIT, 0)]

/-- What the switch changes: the committed lists, and what moves with time. -/
def bankWord (k : Nat) : Bool := settleWord k || inRange k 0x07006000 0x2000

section
variable (s : State)

theorem within_gateBankTaken : Within bankWord s s.gateBankTaken := by
  refine within_wrWords ((settles_settle s).within.mono fun k hk => by rw [bankWord, hk, Bool.true_or]) fun i hi => ?_
  rw [List.length_map, List.length_range] at hi
  simp only [bankWord, inRange, Bool.or_eq_true, Bool.and_eq_true, decide_eq_true_eq]
  omega

theorem gateBankTaken_events : s.gateBankTaken.events = s.events := by
  rw [State.gateBankTaken, State.wrWords_events, (settles_settle s).rest]
  rfl

theorem writes_gateEnded : Writes (words [Reg.EGU_GATE_CTL_BUSY]) s.gateCleared s.gateEnded :=
  writes_puts (Writes.refl _) (by decide)

theorem within_gateEnded : Within (words [Reg.EGU_GATE_CTL_BUSY]) s s.gateEnded :=
  (within_same (t := s.gateCleared) (Within.refl s) rfl rfl rfl).trans (writes_gateEnded s).within

theorem busy_gateEnded (hc : s.canon = true) : s.gateEnded.get Reg.EGU_GATE_CTL_BUSY = 0 :=
  get_puts_last (s := s.gateCleared) hc [] (by decide) (by decide)

theorem gateEnded_egu : s.gateEnded.egu = { s.egu with gateTick := none } := by rw [(writes_gateEnded s).rest]; rfl
theorem gateEnded_events : s.gateEnded.events = s.events := by rw [(writes_gateEnded s).rest]; rfl

end

section
variable {s : State} {at_ : Nat}

/-- Where the commit's tick has come, the banks switch and it ends. -/
theorem exec_gateCommitDone (htick : s.egu.gateTick = some at_) (hdue : at_ ≤ s.tick) :
    exec .gateCommitDone s = ok (s.gateBankTaken.gateEnded.raise .egu 11 [(48, at_)]) := by
  have hswitch : s.switchGates = s.gateBankTaken := by
    simp only [State.switchGates, htick, if_pos hdue, State.gateBankTaken]
  simp only [exec, execGateCommitDone, htick, if_neg (Nat.not_lt.mpr hdue), hswitch]
  generalize s.gateBankTaken = b
  rfl

variable (hc : s.canon = true)
include hc

/-- The end of a commit leaves the lists of both banks. -/
theorem rd_gateDone {k : Nat} (hk : 0x07004000 ≤ k ∧ k < 0x07008000) :
    (s.gateBankTaken.gateEnded.raise .egu 11 [(48, at_)]).rd k = s.gateBankTaken.rd k := by
  have htaken := (within_gateBankTaken s).canon hc
  have hended := within_gateEnded s.gateBankTaken
  have hraised : Within (words [Reg.QE_ARB_LOST]) s.gateBankTaken.gateEnded _ :=
    within_raise (u := .egu) (ty := 11) (l := [(48, at_)]) (Within.refl _) (by decide) (by decide)
  rw [hraised.words (hended.canon htaken) k (by simp [words]; omega), hended.words htaken k (by simp [words]; omega)]

theorem rd_gateBankTaken {i : Nat} (hi : i < 2048) : s.gateBankTaken.rd (0x07006000 + 4 * i) = s.rd (0x07004000 + 4 * i) := by
  rw [State.gateBankTaken, rd_wrWords (canon_settle hc) _ _ i (by simpa using hi), List.getD_eq_getElem _ _ (by simpa using hi),
    List.getElem_map, List.getElem_range, Nat.mod_eq_of_lt (rd_lt ..)]

theorem gateCommitDone_completes (htick : s.egu.gateTick = some at_) (hdue : at_ ≤ s.tick) :
    completes .gateCommitDone s fun t => t.egu.gateTick = none ∧
      (∀ i, i < 2048 → t.rd (0x07006000 + 4 * i) = s.rd (0x07004000 + 4 * i) ∧
        t.rd (0x07004000 + 4 * i) = s.rd (0x07004000 + 4 * i)) ∧
      t.flag Reg.EGU_GATE_CTL_BUSY = false ∧ posted s t .egu 11 [(48, at_)] := by
  have htaken := (within_gateBankTaken s).canon hc
  have hevents := (gateEnded_events s.gateBankTaken).trans (gateBankTaken_events s)
  refine ⟨_, exec_gateCommitDone htick hdue, ?_, fun i hi => ⟨?_, ?_⟩, ?_, posted_raise hevents .egu 11 _⟩
  · rw [State.raise_egu, gateEnded_egu]
  · rw [rd_gateDone hc (by omega), rd_gateBankTaken hc hi]
  · rw [rd_gateDone hc (by omega), (within_gateBankTaken s).words hc _ (by simp [bankWord, settleWord, inRange]; omega)]
  · rw [State.flag, get_raise ((within_gateEnded _).canon htaken) _ _ _ (by decide) (by decide), busy_gateEnded _ htaken]
    rfl

end

/-! ## What the commands of a commit leave (R213) -/

section
variable {s : State} {r : Requester} (hc : s.canon = true)
include hc

theorem gateListWrite_completes {i : Fin 2048} (v : Word) (hmay : s.mayWrite r (0x07004000 + 4 * i.val) = true)
    (hpair : s.pairRole = false) (hidle : s.flag Reg.EGU_GATE_CTL_BUSY = false) : completes (.gateListWrite r i v) s fun t =>
      (∀ x ∈ [(31, 1), (16, 13), (0, 8)], bits (t.rd (0x07004000 + 4 * i.val)) x.1 x.2 = bits v.toNat x.1 x.2) ∧
      (∀ x ∈ [(29, 2), (8, 8)], bits (t.rd (0x07004000 + 4 * i.val)) x.1 x.2 = bits (s.rd (0x07004000 + 4 * i.val)) x.1 x.2) ∧
      QuietFrame (fun k => k == 0x07004000 + 4 * i.val) s s t := by
  have hshow := shows_of_mayWrite hmay
  refine ⟨_, exec_gateListWrite_taken hmay hpair hc hidle, ?_, ?_,
    (writes_setWord (area := fun k => k == 0x07004000 + 4 * i.val) (Writes.refl s) (beq_self_eq_true _) _).quietFrame hc⟩
  · simp only [List.forall_mem_cons, List.not_mem_nil, false_imp_iff, implies_true, and_true]
    exact ⟨bits_setWord_taken hc hshow (rowOf_gateStaged i) (by decide) _ (by decide) (by decide),
      bits_setWord_taken hc hshow (rowOf_gateStaged i) (by decide) _ (by decide) (by decide),
      bits_setWord_taken hc hshow (rowOf_gateStaged i) (by decide) _ (by decide) (by decide)⟩
  · simp only [List.forall_mem_cons, List.not_mem_nil, false_imp_iff, implies_true, and_true]
    exact ⟨bits_setWord_kept hc hshow (rowOf_gateStaged i) (by decide) _ (by decide) (by decide),
      bits_setWord_kept hc hshow (rowOf_gateStaged i) (by decide) _ (by decide) (by decide)⟩

theorem gateListWrite_loses {i : Fin 2048} (v : Word) (hmay : s.mayWrite r (0x07004000 + 4 * i.val) = true)
    (hpair : s.pairRole = false) (hbusy : s.flag Reg.EGU_GATE_CTL_BUSY = true) : completes (.gateListWrite r i v) s fun t =>
      t.flag Reg.EGU_GATE_CTL_LOST = true ∧ QuietFrame (words [Reg.EGU_GATE_CTL_LOST]) s s t :=
  ⟨_, exec_gateListWrite_lost hmay hpair hbusy, flag_put_same hc (by decide) rfl 1,
    (writes_put (Writes.refl s) (by decide) (.inl (by decide))).quietFrame hc⟩

variable (hmay : s.mayWrite r 0x07001100 = true) (hpair : s.pairRole = false) (hidle : s.flag Reg.EGU_GATE_CTL_BUSY = false)
include hmay hpair hidle

theorem gateCommit_schedules (hlists : ∀ p, p < 32 → s.gateListOk p = true) (hany : s.get Reg.EGU_GATE_COMMIT_TICK = 0)
    (hfits : s.tick + 2 < 2 ^ 48) : completes (.gateCommit r) s fun t =>
      t.flag Reg.EGU_GATE_CTL_BUSY = true ∧ t.get Reg.EGU_GATE_STATUS_RESULT = 0 ∧ t.get Reg.EGU_GATE_COMMIT_TICK = s.tick + 2 ∧
      QuietFrame (words [Reg.EGU_GATE_CTL_BUSY, Reg.EGU_GATE_STATUS_RESULT, Reg.EGU_GATE_COMMIT_TICK]) s
        { s with egu := { s.egu with gateTick := some (s.tick + 2) } } t := by
  have hbegun : s.gateBegun.canon = true := (writes_gateBegun s).canon hc
  refine ⟨_, exec_gateCommit_scheduled hmay hpair hidle hc hlists hany, ?busy, ?result, ?tick,
    (writes_gateScheduled s _).quietFrame_setEgu hc _⟩
  case busy => rw [withEgu_flag, State.flag, busy_gateScheduled hc, beq_self_eq_true]
  case result => rw [withEgu_get, gateScheduled_eq, get_put_zero (canon_put hbegun) (by decide)]
  case tick =>
    rw [withEgu_get, gateScheduled_eq, get_put_off (canon_put hbegun) (by decide), get_put_same hbegun (by decide)]
    exact Nat.mod_eq_of_lt hfits

theorem gateCommit_fails {p : Nat} (hp : p < 32) (hbad : s.gateListOk p = false) (hfirst : ∀ q, q < p → s.gateListOk q = true) :
    completes (.gateCommit r) s fun t =>
      t.flag Reg.EGU_GATE_CTL_BUSY = false ∧ t.get Reg.EGU_GATE_STATUS_RESULT = 1 ∧ t.get Reg.EGU_GATE_STATUS_ERR_PORT = p ∧
      posted s t .egu 12 [(8, 1), (8, p)] ∧ NoisyFrame (words [Reg.EGU_GATE_CTL_BUSY, Reg.EGU_GATE_STATUS_RESULT]) s s t := by
  have hwrites := writes_gateFailed s p
  have hfailed : (s.gateFailed p).canon = true := hwrites.canon hc
  have hevents : (s.gateFailed p).events = s.events := by rw [hwrites.rest]
  have hshown : ∀ {f : Field}, f.key = 0x07001100 ∨ f.key = 0x07001110 →
      ((s.gateFailed p).raise .egu 12 [(8, 1), (8, p)]).get f = (s.gateFailed p).get f := fun hkey =>
    get_raise hfailed _ _ _ (by simp [words]; omega) (by simp [words]; omega)
  refine ⟨_, exec_gateCommit_failed hmay hpair hidle hc hp hbad hfirst, ?busy, ?result, ?port, posted_raise hevents .egu 12 _, ?frame⟩
  case busy => rw [State.flag, hshown (.inl rfl), busy_gateFailed hc]; rfl
  case result => rw [hshown (.inr rfl), result_gateFailed hc]
  case port => rw [hshown (.inr rfl), port_gateFailed hc, Nat.mod_eq_of_lt hp]
  case frame =>
    exact (eguChange_raise hwrites.eguChange .egu 12 _).noisyFrame hc ((State.raise_egu ..).trans (by rw [hwrites.rest]))

end

/-- Settles O27: clause by clause. -/
theorem gateCommandsComplete : Obligations.GateCommandsComplete := by
  intro s hc
  refine ⟨fun r i v hmay hpair => ⟨gateListWrite_completes hc v hmay hpair, gateListWrite_loses hc v hmay hpair⟩,
    fun r hmay hpair hidle => ⟨gateCommit_schedules hc hmay hpair hidle,
      fun p hp hbad hfirst => gateCommit_fails hc hmay hpair hidle hp hbad hfirst⟩,
    fun at_ htick hdue => gateCommitDone_completes hc htick hdue⟩

end Sys2Proof.Machine
end

section
/-! PROOFS. The commands of the shaper instances, the function map and the telemetry ring (R218, R221, R222, R225, R226). -/

namespace Sys2Proof.Machine

/-! ## Writes after all levels came to the present -/

/-- The frame of a command that settles first, then writes registers of `area` and may set a level or a credit. -/
theorem Settles.quietFrame {area : Nat → Bool} {s u v t : State} (hsettled : Settles s u) (hwrites : Writes area u v)
    (hset : Settles v t) (hc : s.canon = true) : QuietFrame (fun j => settleWord j || area j) s (settled s t) t := by
  have hwithin := (hsettled.within.mono fun k hk => by rw [hk, Bool.true_or]).trans
    ((hwrites.within.mono fun k hk => by rw [hk, Bool.or_true]).trans
      (hset.within.mono (more := fun j => settleWord j || area j) fun k hk => by rw [hk, Bool.true_or]))
  exact Machine.quietFrame hc hwithin (by rw [hset.rest, hwrites.rest, hsettled.rest]; rfl)

section
variable {s : State}

/-- A refused write is counted. -/
theorem get_mapRefused (hc : s.canon = true) : s.mapRefused.get Reg.EGU_MAP_REFUSED = (s.get Reg.EGU_MAP_REFUSED + 1) % 2 ^ 64 :=
  get_put_same hc (by decide)

theorem writes_mapRefused (s : State) : Writes (words [Reg.EGU_MAP_REFUSED]) s s.mapRefused :=
  writes_bump (Writes.refl s) (by decide) (.inr (by decide))

end

/-! ## SHAPER_INSTANCE_WRITE (R221, R222) -/

/-- The key of word `w` of the shaper or policer `k`. -/
def instanceKey (k w : Nat) : Nat := 0x07200000 + 16 * k + 4 * w

theorem settleWord_instanceKey (k : Fin 16384) (w : Fin 4) : settleWord (instanceKey k w) = false := by
  unfold instanceKey settleWord inRange
  simp only [Bool.or_eq_false_iff, Bool.and_eq_false_iff, decide_eq_false_iff_not]
  omega

theorem rowOf_instanceKey_plain (k : Fin 16384) (w : Fin 4) : (rowOf (instanceKey k w)).all (·.plain) = true := by
  unfold instanceKey
  exact rowOf_egu_plain (lo := 0x07200000) (hi := 0x07240000) (by omega) (by omega) (by omega) (by decide)

/-- Buckets that become full are full. -/
theorem level_setLevel_full (s : State) (k : Fin 16384) :
    (s.setLevel k (s.bucketFull k)).level k = (s.setLevel k (s.bucketFull k)).bucketFull k := by
  have hnone : Assoc.get? (s.setLevel k (s.bucketFull k)).egu.levels k = none := by
    rw [State.setLevel, if_neg (by omega), if_pos rfl]
    exact Assoc.get?_erase_same _ _
  rw [State.level, hnone, Option.getD_none]

section
variable {s u : State} {r : Requester} {k : Fin 16384} {w : Fin 4} {v : Word} (hmay : s.mayWrite r (instanceKey k w) = true)
  (hu : u = s.settle.writeWord r (instanceKey k w) v.toNat)
include hmay hu

theorem exec_shaperInstanceWrite : exec (.shaperInstanceWrite r k w v) s =
    ok (if u.shaperOwner k != some (u.get (Reg.SHAPER_FUNC k)) || !u.hierarchyOk k then s.settle.mapRefused
      else u.setLevel k (u.bucketFull k)) := by
  subst hu
  unfold instanceKey at hmay ⊢
  simp only [exec, execShaperInstanceWrite, State.writeInstance, hmay, Bool.not_true, Bool.false_eq_true, if_false]

variable (hc : s.canon = true)
include hc

theorem shaperInstanceWrite_taken (howner : u.shaperOwner k = some (u.get (Reg.SHAPER_FUNC k))) (hok : u.hierarchyOk k = true) :
    completes (.shaperInstanceWrite r k w v) s fun t => t.rd (instanceKey k w) = u.rd (instanceKey k w) ∧ t.level k = t.bucketFull k ∧
      QuietFrame (fun j => settleWord j || j == instanceKey k w) s (settled s t) t := by
  have hcu : u.canon = true := hu ▸ canon_settledWrite hc _ _
  have hwrites : Writes (fun j => j == instanceKey k w) s.settle u :=
    hu ▸ writes_writeWord_plain (area := fun j => j == instanceKey k w) (Writes.refl _) (beq_self_eq_true _)
      (rowOf_instanceKey_plain k w) _
  have hset := settles_setLevel u k (u.bucketFull k)
  have haccepted : ¬ (u.shaperOwner k != some (u.get (Reg.SHAPER_FUNC k)) || !u.hierarchyOk k) = true := by simp [howner, hok]
  refine ⟨_, exec_shaperInstanceWrite hmay hu, ?_⟩
  rw [if_neg haccepted]
  exact ⟨hset.within.words hcu _ (settleWord_instanceKey k w), level_setLevel_full u k, (settles_settle s).quietFrame hwrites hset hc⟩

theorem shaperInstanceWrite_refused (hbad : u.shaperOwner k ≠ some (u.get (Reg.SHAPER_FUNC k)) ∨ u.hierarchyOk k = false) :
    completes (.shaperInstanceWrite r k w v) s fun t =>
      t.get Reg.EGU_MAP_REFUSED = (s.get Reg.EGU_MAP_REFUSED + 1) % 2 ^ 64 ∧
      QuietFrame (fun j => settleWord j || words [Reg.EGU_MAP_REFUSED] j) s (settled s t) t := by
  have hsettled := settles_settle s
  have hrefused : (u.shaperOwner k != some (u.get (Reg.SHAPER_FUNC k)) || !u.hierarchyOk k) = true := by
    simpa using hbad
  refine ⟨_, exec_shaperInstanceWrite hmay hu, ?_⟩
  rw [if_pos hrefused]
  refine ⟨?_, hsettled.quietFrame (writes_mapRefused _) (Settles.refl _) hc⟩
  rw [get_mapRefused (canon_settle hc), hsettled.within.get_eq hc (by decide) (by decide)]

end

/-! ## FUNCTION_MAP_WRITE (R218, R222) -/

/-- The key of the low word of the entry of function `f`, which holds no field. -/
def mapKey (f : Nat) : Nat := 0x07260000 + 8 * f

/-- The row of the high words of the function map. -/
def mapRow : WordRow :=
  ⟨0x07260004, 8, 4096, [⟨31, 31, .rw, 0⟩, ⟨30, 30, .rw, 0⟩, ⟨29, 16, .rw, 0⟩, ⟨15, 15, .rw, 0⟩, ⟨13, 0, .rw, 0⟩]⟩

/-- The bits of an entry that its fields take, as first bit and width: SHAPE_EN, PER_CLASS, LEAF, POL_EN and POLICER. -/
def mapFields : List (Nat × Nat) := [(63, 1), (62, 1), (48, 14), (47, 1), (32, 14)]

theorem rowOf_map {f : Fin 4096} {k : Nat} (hlo : mapKey f ≤ k) (hhi : k < mapKey f + 8) :
    rowOf k = if mapRow.covers k then some mapRow else none := by
  unfold mapKey at hlo hhi
  exact rowOf_egu_only (lo := 0x07260000) (hi := 0x07268000) (by omega) (by omega) (by omega) (by decide) (by decide)

theorem rowOf_mapLow (f : Fin 4096) : rowOf (mapKey f) = none := by
  have hnot : mapRow.covers (mapKey f) = false := by
    rw [WordRow.covers, Bool.and_eq_false_iff, decide_eq_false_iff_not, if_neg (by decide), Bool.and_eq_false_iff]
    simp only [mapRow, mapKey, beq_eq_false_iff_ne]
    omega
  rw [rowOf_map (f := f) (by omega) (by omega), hnot, if_neg Bool.false_ne_true]

theorem rowOf_mapHigh (f : Fin 4096) : rowOf (mapKey f + 4) = some mapRow := by
  rw [rowOf_map (f := f) (by omega) (by omega), if_pos (by simp [WordRow.covers, mapRow, mapKey])]

theorem bits_div (w m lo n : Nat) : bits (w / 2 ^ m) lo n = bits w (m + lo) n := by
  rw [bits, bits, Nat.div_div_eq_div_mul, ← pow_add]

theorem bitAt_eq_bits (w i : Nat) : bitAt w i = (bits w i 1 == 1) := rfl

/-- EGU shows its registers from 0x1000 on together (R30). -/
theorem shows_egu_congr {s : State} {j k : Nat} (hj : 0x07001000 ≤ j ∧ j < 0x08000000) (hk : 0x07001000 ≤ k ∧ k < 0x08000000) :
    s.shows k = s.shows j := by
  have hshows : ∀ i, 0x07001000 ≤ i ∧ i < 0x08000000 → s.shows i = (!(s.get Reg.SUP_BOOT_STATUS_STAGE == 4) &&
      (s.get (Reg.UNIT_STATE 7) != 0 && s.get (Reg.UNIT_STATE 7) != 1)) := fun i hi => by
    have hunit : unitOfKey i = 7 := by
      rw [unitOfKey, show i / 0x1000000 = 7 by omega]
      rfl
    simp only [State.shows, hunit, decide_eq_false (show ¬ i % 0x1000000 < 0x1000 by omega), decide_eq_true (show i < 0x20000000 by omega)]
    simp
  rw [hshows k hk, hshows j hj]

/-- An entry rests, above its low word, on its high word. -/
theorem bits_mapEntry (s : State) (f lo n : Nat) : bits (s.mapEntry f) (32 + lo) n = bits (s.rd (mapKey f + 4)) lo n := by
  rw [← bits_div, State.mapEntry, Nat.add_mul_div_left _ _ (by positivity), Nat.div_eq_of_lt (rd_lt ..), Nat.zero_add, mapKey,
    show 0x07260000 + 8 * f + 4 = 0x07260004 + 8 * f by omega]

/-- The owners of the instances stand in TTU's map (R371). -/
theorem shaperOwner_congr {s t : State} (hrd : ∀ k, 0x0B340000 ≤ k → t.rd k = s.rd k) (k : Nat) :
    t.shaperOwner k = s.shaperOwner k := by
  have hfield : t.get (shaperOwnerField k) = s.get (shaperOwnerField k) := by
    have hword : (shaperOwnerField k).hi < 32 := by simp only [shaperOwnerField]; omega
    rw [get_word hword, get_word hword, hrd _ (by simp only [shaperOwnerField]; omega)]
  rw [State.shaperOwner, State.shaperOwner, hfield]

/-- The check of an entry rests on its fields and on the owners of the instances. -/
theorem mapEntryOk_congr {s t : State} {e d : Nat} (howner : ∀ k, t.shaperOwner k = s.shaperOwner k)
    (hbits : ∀ x ∈ mapFields, bits d x.1 x.2 = bits e x.1 x.2) (f : Nat) : t.mapEntryOk f d = s.mapEntryOk f e := by
  simp only [mapFields, List.forall_mem_cons, List.not_mem_nil, false_imp_iff, implies_true, and_true] at hbits
  obtain ⟨hshape, hclass, hleaf, hpol, hpolicer⟩ := hbits
  have hshapes : mapShape d = mapShape e := by rw [mapShape, mapShape, bitAt_eq_bits, bitAt_eq_bits, hshape]
  have hclasses : mapPerClass d = mapPerClass e := by rw [mapPerClass, mapPerClass, bitAt_eq_bits, bitAt_eq_bits, hclass]
  have hleaves : mapLeaf d = mapLeaf e := hleaf
  have hpolicers : mapPol d = mapPol e := by rw [mapPol, mapPol, bitAt_eq_bits, bitAt_eq_bits, hpol, hpolicer]
  rw [State.mapEntryOk, State.mapEntryOk, hshapes, hclasses, hleaves, hpolicers]
  simp only [howner]

section
variable {s : State} {r : Requester} {f : Fin 4096} {v : BitVec 64}

/-- The entry's write: no field stands in the low word. -/
def State.mapTaken (s : State) (f v : Nat) : State := s.setWord (mapKey f + 4) (v / 2 ^ 32)

theorem writePair_map (s : State) (r : Requester) (f : Fin 4096) (v : Nat) : s.writePair r (mapKey f) v = s.mapTaken f v := by
  have hlow : ∀ w, s.breaksSeal (mapKey f) w = false := breaksSeal_plain (by rw [rowOf_mapLow]; rfl)
  have hhigh : ∀ w, s.breaksSeal (mapKey f + 4) w = false := breaksSeal_plain (by rw [rowOf_mapHigh]; decide)
  rw [State.writePair, hlow, hhigh, setWord_rowless (rowOf_mapLow f)]
  rfl

theorem writes_mapTaken (s : State) (f v : Nat) : Writes (fun j => j == mapKey f + 4) s (s.mapTaken f v) :=
  writes_setWord (area := fun j => j == mapKey f + 4) (Writes.refl s) (beq_self_eq_true _) _

variable (hc : s.canon = true) (hmay : s.mayWrite r (mapKey f) = true)
include hc hmay

/-- The entry shows the written fields. -/
theorem bits_mapEntry_mapTaken : ∀ x ∈ mapFields, bits ((s.settle.mapTaken f v.toNat).mapEntry f) x.1 x.2 = bits v.toNat x.1 x.2 := by
  have hshow : s.settle.shows (mapKey f + 4) = true := by
    rw [shows_settle hc, shows_egu_congr (j := mapKey f) (by unfold mapKey; omega) (by unfold mapKey; omega)]
    exact shows_of_mayWrite hmay
  have hword : ∀ {lo n : Nat}, lo + n ≤ 32 → (∀ i, i < n → takesBit mapRow.fields (lo + i) = true) →
      bits ((s.settle.mapTaken f v.toNat).mapEntry f) (32 + lo) n = bits v.toNat (32 + lo) n := fun hn htaken => by
    rw [bits_mapEntry, State.mapTaken, bits_setWord_taken (canon_settle hc) hshow (rowOf_mapHigh f) (by decide) _ hn htaken, bits_div]
  simp only [mapFields, List.forall_mem_cons, List.not_mem_nil, false_imp_iff, implies_true, and_true]
  exact ⟨hword (lo := 31) (by decide) (by decide), hword (lo := 30) (by decide) (by decide), hword (lo := 16) (by decide) (by decide),
    hword (lo := 15) (by decide) (by decide), hword (lo := 0) (by decide) (by decide)⟩

theorem exec_functionMapWrite : exec (.functionMapWrite r f v) s =
    ok (if s.mapEntryOk f v.toNat then s.settle.mapTaken f v.toNat else s.mapRefused) := by
  have howner : ∀ k, (s.settle.mapTaken f v.toNat).shaperOwner k = s.shaperOwner k := shaperOwner_congr fun k hk =>
    ((writes_mapTaken _ _ _).within.words (canon_settle hc) k (beq_false_of_ne (by unfold mapKey; omega))).trans
      ((settles_settle s).within.words hc k (by simp [settleWord, inRange]; omega))
  have hcheck := mapEntryOk_congr howner (bits_mapEntry_mapTaken (v := v) hc hmay) f
  have hpair := writePair_map s.settle r f v.toNat
  unfold mapKey at hmay hpair
  simp only [exec, execFunctionMapWrite, State.writeMap, hmay, hpair, hcheck, Bool.not_true, Bool.false_eq_true, if_false]

theorem functionMapWrite_taken (hok : s.mapEntryOk f v.toNat = true) : completes (.functionMapWrite r f v) s fun t =>
    (∀ x ∈ mapFields, bits (t.mapEntry f) x.1 x.2 = bits v.toNat x.1 x.2) ∧ t.rd (mapKey f) = s.rd (mapKey f) ∧
      QuietFrame (fun j => settleWord j || j == mapKey f + 4) s (settled s t) t := by
  have hsettled := settles_settle s
  have hlow : settleWord (mapKey f) = false := by
    unfold mapKey settleWord inRange
    simp only [Bool.or_eq_false_iff, Bool.and_eq_false_iff, decide_eq_false_iff_not]
    omega
  refine ⟨_, exec_functionMapWrite hc hmay, ?_⟩
  rw [if_pos hok]
  refine ⟨bits_mapEntry_mapTaken hc hmay, ?_, hsettled.quietFrame (writes_mapTaken _ _ _) (Settles.refl _) hc⟩
  rw [(writes_mapTaken _ _ _).within.words (canon_settle hc) _ (beq_false_of_ne (by omega)), hsettled.within.words hc _ hlow]

theorem functionMapWrite_refused (hbad : s.mapEntryOk f v.toNat = false) : completes (.functionMapWrite r f v) s fun t =>
    t.get Reg.EGU_MAP_REFUSED = (s.get Reg.EGU_MAP_REFUSED + 1) % 2 ^ 64 ∧ QuietFrame (words [Reg.EGU_MAP_REFUSED]) s s t := by
  refine ⟨_, exec_functionMapWrite hc hmay, ?_⟩
  rw [if_neg (by rw [hbad]; decide)]
  exact ⟨get_mapRefused hc, (writes_mapRefused s).quietFrame hc⟩

end

/-! ## TELEM_ENABLE (R226) -/

theorem get_wholeWord {s : State} (k : Nat) : s.get ⟨k, 31, 0⟩ = s.rd k := by
  rw [get_word (show 31 < 32 by decide)]
  change bits (s.rd k) 0 32 = _
  rw [bits, pow_zero, Nat.div_one, Nat.mod_eq_of_lt (rd_lt ..)]

/-- The row of EGU_TELEM_CFG, and that of EGU_TELEM_CONS. -/
def telemCfgRow : WordRow := ⟨0x07001308, 4, 1, [⟨31, 31, .rw, 0⟩, ⟨27, 24, .rw, 4⟩]⟩
def telemConsRow : WordRow := ⟨0x07001314, 4, 1, [⟨31, 0, .rw, 0⟩]⟩

theorem rowOf_telemCfg : rowOf 0x07001308 = some telemCfgRow := by decide +kernel
theorem rowOf_telemCons : rowOf 0x07001314 = some telemConsRow := by decide +kernel

section
variable {s : State} {r : Requester} {v : Word}

/-- A write of EGU_TELEM_CFG with a size in range, while EN is 0. -/
def State.telemTaken (s : State) (v : Nat) : State := s.setWord 0x07001308 v

/-- The ring starts over. -/
def State.telemRestarted (s : State) : State :=
  ((s.put Reg.EGU_TELEM_PROD 0).put Reg.EGU_TELEM_CONS 0).withEgu { s.egu with telemSeq := 0, consAt := none }

theorem writes_telemTaken (s : State) (v : Nat) : Writes (words [Reg.EGU_TELEM_CFG_EN]) s (s.telemTaken v) :=
  writes_setWord (Writes.refl s) (by decide) _

variable (hmay : s.mayWrite r 0x07001308 = true)
include hmay

theorem en_telemTaken (hc : s.canon = true) : (s.telemTaken v.toNat).flag Reg.EGU_TELEM_CFG_EN = bitAt v.toNat 31 := by
  rw [State.flag, get_word (by decide), bitAt_eq_bits]
  exact congrArg (· == 1) (bits_setWord_taken hc (shows_of_mayWrite hmay) rowOf_telemCfg (by decide) _ (by decide) (by decide))

theorem size_telemTaken (hc : s.canon = true) : (s.telemTaken v.toNat).get Reg.EGU_TELEM_CFG_LOG2_SIZE = bits v.toNat 24 4 := by
  rw [get_word (by decide)]
  exact bits_setWord_taken hc (shows_of_mayWrite hmay) rowOf_telemCfg (by decide) _ (by decide) (by decide)

theorem exec_telemEnable_range (hrange : bits v.toNat 24 4 < 4 ∨ 14 < bits v.toNat 24 4) : exec (.telemEnable r v) s = ok s := by
  have hdrop : (decide (bits v.toNat 24 4 < 4) || decide (14 < bits v.toNat 24 4)) = true := by simpa using hrange
  simp only [exec, execTelemEnable, State.writeTelemCfg, hmay, Bool.not_true, Bool.false_or, hdrop, if_true]

variable (hleast : 4 ≤ bits v.toNat 24 4) (hmost : bits v.toNat 24 4 ≤ 14)
include hleast hmost

theorem exec_telemEnable_on (hon : s.flag Reg.EGU_TELEM_CFG_EN = true) :
    exec (.telemEnable r v) s = ok (s.put Reg.EGU_TELEM_CFG_EN (bits v.toNat 31 1)) := by
  simp only [exec, execTelemEnable, State.writeTelemCfg, hmay, Bool.not_true, Bool.false_or, decide_eq_false (Nat.not_lt.mpr hleast),
    decide_eq_false (Nat.not_lt.mpr hmost), hon, Bool.false_eq_true, if_false, if_true]

theorem exec_telemEnable_off (hoff : s.flag Reg.EGU_TELEM_CFG_EN = false) : exec (.telemEnable r v) s =
    ok (if bitAt v.toNat 31 then (s.telemTaken v.toNat).telemRestarted else s.telemTaken v.toNat) := by
  have hplain : s.writeWord r 0x07001308 v.toNat = s.telemTaken v.toNat := writeWord_plain (by rw [rowOf_telemCfg]; decide) _
  simp only [exec, execTelemEnable, State.writeTelemCfg, hmay, Bool.not_true, Bool.false_or, decide_eq_false (Nat.not_lt.mpr hleast),
    decide_eq_false (Nat.not_lt.mpr hmost), hoff, Bool.false_eq_true, if_false, hplain]
  rfl

variable (hc : s.canon = true)
include hc

/-- While EN is 1 the size is kept. -/
theorem telemEnable_whileOn (hon : s.flag Reg.EGU_TELEM_CFG_EN = true) : completes (.telemEnable r v) s fun t =>
    t.flag Reg.EGU_TELEM_CFG_EN = bitAt v.toNat 31 ∧ t.get Reg.EGU_TELEM_CFG_LOG2_SIZE = s.get Reg.EGU_TELEM_CFG_LOG2_SIZE ∧
      QuietFrame (words [Reg.EGU_TELEM_CFG_EN]) s s t := by
  refine ⟨_, exec_telemEnable_on hmay hleast hmost hon, ?_, get_put_off hc (by decide),
    (writes_put (Writes.refl s) (by decide) (.inl (by decide))).quietFrame hc⟩
  rw [flag_put_same hc (by decide) rfl, bits, pow_one, Nat.mod_mod]
  rfl

variable (hoff : s.flag Reg.EGU_TELEM_CFG_EN = false)
include hoff

/-- EN from 0 to 1 starts the ring over. -/
theorem telemEnable_starts (hen : bitAt v.toNat 31 = true) : completes (.telemEnable r v) s fun t =>
    t.flag Reg.EGU_TELEM_CFG_EN = true ∧ t.get Reg.EGU_TELEM_CFG_LOG2_SIZE = bits v.toNat 24 4 ∧
      t.get Reg.EGU_TELEM_PROD = 0 ∧ t.get Reg.EGU_TELEM_CONS = 0 ∧
      QuietFrame (words [Reg.EGU_TELEM_CFG_EN, Reg.EGU_TELEM_PROD, Reg.EGU_TELEM_CONS]) s
        { s with egu := { s.egu with telemSeq := 0, consAt := none } } t := by
  have hwrites := writes_telemTaken s v.toNat
  have htaken : (s.telemTaken v.toNat).canon = true := hwrites.canon hc
  have hegu : (s.telemTaken v.toNat).egu = s.egu := by rw [hwrites.rest]
  have hkept : ∀ {f : Field}, Reg.EGU_TELEM_PROD.off f = true → Reg.EGU_TELEM_CONS.off f = true →
      (s.telemTaken v.toNat).telemRestarted.get f = (s.telemTaken v.toNat).get f := fun hprod hcons => by
    rw [State.telemRestarted, withEgu_get, get_put_off (canon_put htaken) hcons, get_put_off htaken hprod]
  refine ⟨_, exec_telemEnable_off hmay hleast hmost hoff, ?_⟩
  rw [if_pos hen]
  refine ⟨?en, ?size, ?prod, ?cons, ?frame⟩
  case en => rw [State.flag, hkept (by decide) (by decide), ← State.flag, en_telemTaken hmay hc, hen]
  case size => rw [hkept (by decide) (by decide), size_telemTaken hmay hc]
  case prod => rw [State.telemRestarted, withEgu_get, get_put_off (canon_put htaken) (by decide), get_put_zero htaken (by decide)]
  case cons => rw [State.telemRestarted, withEgu_get, get_put_zero (canon_put htaken) (by decide)]
  case frame =>
    rw [State.telemRestarted, hegu]
    have hcfg := hwrites.mono (more := words [Reg.EGU_TELEM_CFG_EN, Reg.EGU_TELEM_PROD, Reg.EGU_TELEM_CONS]) fun _ =>
      words_mono (by simp)
    have hprod := writes_put (f := Reg.EGU_TELEM_PROD) (v := 0) hcfg (by decide) (.inl (by decide))
    exact (writes_put (f := Reg.EGU_TELEM_CONS) (v := 0) hprod (by decide) (.inl (by decide))).quietFrame_setEgu hc _

theorem telemEnable_staysOff (hen : bitAt v.toNat 31 = false) : completes (.telemEnable r v) s fun t =>
    t.flag Reg.EGU_TELEM_CFG_EN = false ∧ t.get Reg.EGU_TELEM_CFG_LOG2_SIZE = bits v.toNat 24 4 ∧
      QuietFrame (words [Reg.EGU_TELEM_CFG_EN]) s s t := by
  refine ⟨_, exec_telemEnable_off hmay hleast hmost hoff, ?_⟩
  rw [if_neg (by rw [hen]; decide)]
  exact ⟨(en_telemTaken hmay hc).trans hen, size_telemTaken hmay hc, (writes_telemTaken s _).quietFrame hc⟩

end

/-! ## TELEM_CONS_WRITE (R99, R225) -/

section
variable {s : State} {r : Requester} {v : Word} (hmay : s.mayWrite r 0x07001314 = true)
include hmay

/-- CONS takes the written value, unless EGU has advanced it in this cycle to another that is not older. -/
theorem exec_telemConsWrite : exec (.telemConsWrite r v) s =
    ok (if s.egu.consAt == some s.localNs && v.toNat != s.get Reg.EGU_TELEM_CONS && !serialNewer 32 v.toNat (s.get Reg.EGU_TELEM_CONS)
      then s else s.setWord 0x07001314 v.toNat) := by
  have hplain : s.writeWord r 0x07001314 v.toNat = s.setWord 0x07001314 v.toNat := writeWord_plain (by rw [rowOf_telemCons]; decide) _
  simp only [exec, execTelemConsWrite, hmay, if_true, State.writeTelemCons, Nat.mod_eq_of_lt v.isLt, hplain]

variable (hc : s.canon = true)
include hc

theorem cons_setWord : (s.setWord 0x07001314 v.toNat).get Reg.EGU_TELEM_CONS = v.toNat := by
  rw [get_word (by decide)]
  refine (bits_setWord_taken hc (shows_of_mayWrite hmay) rowOf_telemCons (by decide) v.toNat (lo := 0) (n := 32) (by decide)
    (by decide)).trans ?_
  rw [bits, pow_zero, Nat.div_one, Nat.mod_eq_of_lt v.isLt]

theorem telemConsWrite_taken (hfree : s.egu.consAt ≠ some s.localNs ∨ serialNewer 32 v.toNat (s.get Reg.EGU_TELEM_CONS) = true) :
    completes (.telemConsWrite r v) s fun t =>
      t.get Reg.EGU_TELEM_CONS = v.toNat ∧ QuietFrame (words [Reg.EGU_TELEM_CONS]) s s t := by
  refine ⟨_, exec_telemConsWrite hmay, ?_⟩
  rw [if_neg]
  · exact ⟨cons_setWord hmay hc, (writes_setWord (Writes.refl s) (by decide) _).quietFrame hc⟩
  · obtain hother | hnewer := hfree
    · simp [hother]
    · simp [hnewer]

/-- Where EGU's own value stands, a write of the same value changes nothing either. -/
theorem telemConsWrite_yields (hcycle : s.egu.consAt = some s.localNs)
    (holder : serialNewer 32 v.toNat (s.get Reg.EGU_TELEM_CONS) = false) : completes (.telemConsWrite r v) s fun t => t = s := by
  refine ⟨_, exec_telemConsWrite hmay, ?_⟩
  by_cases hsame : v.toNat = s.get Reg.EGU_TELEM_CONS
  · rw [if_neg (by simp [hsame])]
    have hwrites : Writes (fun j => j == 0x07001314) s (s.setWord 0x07001314 v.toNat) :=
      writes_setWord (area := fun j => j == 0x07001314) (Writes.refl s) (by decide) _
    refine eq_of_rd_eq hc (hwrites.mono fun _ _ => rfl) fun j => ?_
    by_cases hj : j = 0x07001314
    · rw [hj, ← get_wholeWord, ← get_wholeWord]
      exact (cons_setWord hmay hc).trans hsame
    · exact hwrites.within.words hc j (beq_false_of_ne hj)
  · rw [if_pos (by simp [hcycle, hsame, holder])]

end

/-- Settles O28: clause by clause. That LEAF and POLICER are checked only where they are in use, and that a cycle is a nanosecond of
local time, are the model's choices (log entries 38 and 83). -/
theorem shaperCommandsComplete : Obligations.ShaperCommandsComplete := by
  intro s hc r
  refine ⟨?instances, ?map, ?telem, ?cons⟩
  case instances =>
    rintro k w v _ u rfl hmay hu
    exact ⟨shaperInstanceWrite_taken hmay hu hc, shaperInstanceWrite_refused hmay hu hc⟩
  case map =>
    rintro f v _ rfl hmay
    exact ⟨functionMapWrite_taken hc hmay, functionMapWrite_refused hc hmay⟩
  case telem =>
    rintro v _ hmay rfl
    exact ⟨fun hrange => ⟨_, exec_telemEnable_range hmay hrange, rfl⟩,
      fun hleast hmost hon => telemEnable_whileOn hmay hleast hmost hc hon,
      fun hleast hmost hoff hen => telemEnable_starts hmay hleast hmost hc hoff hen,
      fun hleast hmost hoff hen => telemEnable_staysOff hmay hleast hmost hc hoff hen⟩
  case cons =>
    rintro v _ hmay rfl
    exact ⟨telemConsWrite_taken hmay hc, telemConsWrite_yields hmay hc⟩

end Sys2Proof.Machine
end

section
/-! PROOFS. The rewrite programs' commands (R232, R234, R243): a program replaced whole from the buffer, a write that is refused, and
a program copied into the buffer. -/

namespace Sys2Proof.Machine

/-! ## A run of words written -/

theorem writes_wrWords_run {area : Nat → Bool} {s₀ s : State} (h : Writes area s₀ s) {k : Nat} {l : List Nat}
    (hl : ∀ i < l.length, area (k + 4 * i) = true) : Writes area s₀ (s.wrWords k l) :=
  ⟨within_wrWords h.within hl, by rw [(writes_wrWords (Writes.refl s) k l).rest, h.rest]⟩

theorem rd_wrWords_map {s : State} (hc : s.canon = true) (k : Nat) {n i : Nat} (hi : i < n) {g : Nat → Nat} (hg : g i < 2 ^ 32) :
    (s.wrWords k ((List.range n).map g)).rd (k + 4 * i) = g i := by
  rw [rd_wrWords hc _ _ i (by simpa using hi), List.getD_eq_getElem _ _ (by simpa using hi), List.getElem_map, List.getElem_range,
    Nat.mod_eq_of_lt hg]

/-! ## Programs and their buffer (R232) -/

/-- The key of program `k`. -/
def progKey (k : Nat) : Nat := 0x05400000 + 256 * k

/-- The words of the program that stands in the buffer. -/
def State.progWords (s : State) : List Nat := (List.range 64).map (fun i => progMask i (s.progBuf i))

/-- Reserved bits that read 0 leave no more than was written. -/
theorem progMask_le (i v : Nat) : progMask i v ≤ v := by
  unfold progMask bits
  split
  case h_1 => omega
  case h_2 => omega
  case h_3 => omega
  case h_8 => exact Nat.le_refl v
  all_goals exact Nat.zero_le v

theorem progMask_lt (s : State) (i : Nat) : progMask i (s.progBuf i) < 2 ^ 32 := (progMask_le i _).trans_lt (rd_lt s _)

/-- A result that is set leaves the buffer. -/
theorem progWords_putResult {s : State} (hc : s.canon = true) (code : Nat) :
    (s.put Reg.RTU_PROG_STATUS_RESULT code).progWords = s.progWords := by
  have hbuf : ∀ i, (s.put Reg.RTU_PROG_STATUS_RESULT code).progBuf i = s.progBuf i := fun i =>
    rd_put_ne hc (by simp; omega) (.inl (by decide))
  simp only [State.progWords, hbuf]

/-! ## PROG_WRITE (R234) -/

/-- Program `k` as the buffer has it, with the result OK. -/
def State.progReplaced (s : State) (k : Nat) : State :=
  (s.put Reg.RTU_PROG_STATUS_RESULT 0).wrWords (progKey k) (s.put Reg.RTU_PROG_STATUS_RESULT 0).progWords

/-- The words that an accepted write of program `k` changes. -/
def progWriteWord (k j : Nat) : Bool := inRange j (progKey k) 256 || words [Reg.RTU_PROG_STATUS_RESULT] j

theorem writes_progReplaced (s : State) (k : Nat) : Writes (progWriteWord k) s (s.progReplaced k) := by
  refine writes_wrWords_run (writes_put (Writes.refl s) (by simp [progWriteWord, words]) (.inl (by decide))) fun i hi => ?_
  rw [State.progWords, List.length_map, List.length_range] at hi
  simp only [progWriteWord, inRange, Bool.or_eq_true, Bool.and_eq_true, decide_eq_true_eq]
  omega

/-- The role in a pair stands in no word of a program. -/
theorem pairRole_progReplaced {s : State} (hc : s.canon = true) (k : Fin 32768) : (s.progReplaced k).pairRole = s.pairRole := by
  have habove : ¬ Reg.HGC_CFG_ROLE.key < progKey k + 256 := by
    rw [show Reg.HGC_CFG_ROLE.key = 0x09001000 from rfl, progKey]
    omega
  have hrole : progWriteWord k Reg.HGC_CFG_ROLE.key = false := by
    rw [progWriteWord, inRange, decide_eq_false habove, Bool.and_false]
    rfl
  exact pairRole_congr ((writes_progReplaced s k).within.get_eq_low hc (by decide) hrole)

section
variable {s : State} {r : Requester} {k : Fin 32768} (hmay : s.mayWrite r Reg.RTU_PROG_CMD_OP.key = true) (hpair : s.pairRole = false)
include hmay hpair

/-- An accepted write replaces the program. -/
theorem exec_progWrite_taken (hc : s.canon = true) (hok : s.progResult k = 0) :
    exec (.progWrite r k) s = ok (s.progReplaced k) := by
  simp only [exec, execProgWrite, hmay, localOnly_alone hpair, hok, Bool.not_true, Bool.false_eq_true, if_false, if_true]
  exact congrArg ok (carry_alone ((pairRole_progReplaced hc k).trans hpair) 0 _)

/-- A write that is refused while media uses the program is counted. -/
theorem exec_progWrite_locked (hlocked : s.progResult k = 2) : exec (.progWrite r k) s =
    ok ((s.put Reg.RTU_PROG_STATUS_RESULT 2).bump Reg.RTU_PROG_LOCKED) := by
  simp only [exec, execProgWrite, hmay, localOnly_alone hpair, hlocked, Bool.not_true, Bool.false_eq_true, if_false]
  rfl

variable (hc : s.canon = true)
include hc

theorem progWrite_taken (hok : s.progResult k = 0) : completes (.progWrite r k) s fun t =>
    (∀ i, i < 64 → t.rd (0x05400000 + 256 * k.val + 4 * i) = progMask i (s.progBuf i)) ∧
    t.get Reg.RTU_PROG_STATUS_RESULT = 0 ∧
    QuietFrame (fun j => inRange j (0x05400000 + 256 * k.val) 256 || words [Reg.RTU_PROG_STATUS_RESULT] j) s s t := by
  have hput : (s.put Reg.RTU_PROG_STATUS_RESULT 0).canon = true := canon_put hc
  have hrun : Within (fun j => decide (0x05400000 ≤ j)) (s.put Reg.RTU_PROG_STATUS_RESULT 0) (s.progReplaced k) :=
    within_wrWords (Within.refl _) fun i _ => decide_eq_true (by unfold progKey; omega)
  refine ⟨_, exec_progWrite_taken hmay hpair hc hok, fun i hi => ?program, ?result, (writes_progReplaced s k).quietFrame hc⟩
  case program =>
    rw [State.progReplaced, progWords_putResult hc]
    exact rd_wrWords_map hput _ hi (progMask_lt s i)
  case result => rw [hrun.get_eq hput (by decide) (by decide), get_put_zero hc (by decide)]

theorem progWrite_locked (hlocked : s.progResult k = 2) : completes (.progWrite r k) s fun t =>
    t.get Reg.RTU_PROG_STATUS_RESULT = 2 ∧ t.get Reg.RTU_PROG_LOCKED = (s.get Reg.RTU_PROG_LOCKED + 1) % 2 ^ 64 ∧
    QuietFrame (words [Reg.RTU_PROG_STATUS_RESULT, Reg.RTU_PROG_LOCKED]) s s t := by
  have hput : (s.put Reg.RTU_PROG_STATUS_RESULT 2).canon = true := canon_put hc
  refine ⟨_, exec_progWrite_locked hmay hpair hlocked, ?result, ?count,
    (writes_bump (writes_put (Writes.refl s) (by decide) (.inl (by decide))) (by decide) (.inr (by decide))).quietFrame hc⟩
  case result => exact (get_put_off hput (by decide)).trans (get_put_same hc (by decide))
  case count =>
    rw [State.bump, get_put_same hput (by decide), get_put_off hc (by decide)]
    rfl

end

/-! ## PROG_READ (R234) -/

/-- The buffer as program `k` stands. -/
def State.progCopied (s : State) (k : Nat) : State := s.wrWords 0x05001100 (s.rdWords (progKey k) 64)

theorem writes_progCopied (s : State) (k : Nat) : Writes (fun j => inRange j 0x05001100 256) s (s.progCopied k) := by
  refine writes_wrWords_run (Writes.refl s) fun i hi => ?_
  rw [length_rdWords] at hi
  simp only [inRange, Bool.and_eq_true, decide_eq_true_eq]
  omega

section
variable {s : State} {r : Requester} {k : Fin 32768} (hmay : s.mayWrite r Reg.RTU_PROG_CMD_OP.key = true)
include hmay

theorem exec_progRead : exec (.progRead r k) s = ok ((s.progCopied k).put Reg.RTU_PROG_STATUS_RESULT 0) := by
  simp only [exec, execProgRead, hmay, Bool.not_true, Bool.false_eq_true, if_false]
  rfl

theorem progRead_copies (hc : s.canon = true) : completes (.progRead r k) s fun t =>
    (∀ i, i < 64 → t.progBuf i = s.rd (0x05400000 + 256 * k.val + 4 * i)) ∧ t.get Reg.RTU_PROG_STATUS_RESULT = 0 ∧
    QuietFrame (fun j => inRange j 0x05001100 256 || words [Reg.RTU_PROG_STATUS_RESULT] j) s s t := by
  have hcopied : (s.progCopied k).canon = true := (writes_progCopied s k).canon hc
  refine ⟨_, exec_progRead hmay, fun i hi => ?buffer, get_put_zero hcopied (by decide), ?frame⟩
  case buffer =>
    have hleft : ((s.progCopied k).put Reg.RTU_PROG_STATUS_RESULT 0).progBuf i = (s.progCopied k).progBuf i :=
      rd_put_ne hcopied (by simp; omega) (.inl (by decide))
    exact hleft.trans (rd_wrWords_map hc _ hi (rd_lt ..))
  case frame =>
    have hwide := (writes_progCopied s k).mono
      (more := fun j => inRange j 0x05001100 256 || words [Reg.RTU_PROG_STATUS_RESULT] j) fun j hj => by rw [hj, Bool.true_or]
    exact (writes_put hwide (by decide) (.inl (by decide))).quietFrame hc

end

/-- Settles O29: a write that is accepted, one that media refuses, and a read, each by what its run of words leaves. -/
theorem programCommandsComplete : Obligations.ProgramCommandsComplete := fun _ hc _ _ hmay =>
  ⟨fun hpair => progWrite_taken hmay hpair hc, fun hpair => progWrite_locked hmay hpair hc, progRead_copies hmay hc⟩

end Sys2Proof.Machine
end

section
/-! PROOFS. The state but for what every update may touch, the audit of the ledger (R437), the front of the queue, DMA in standalone
mode (R345) and the phase of a ring (R375). -/

namespace Sys2Proof.Machine

/-! ## The state but for its registers -/

/-- `s` without its register file: what a chain of register writes leaves. -/
def State.still (s : State) : State := { s with regs := [] }

/-- `s` without its register file and its events: what reports leave too. -/
def State.bare (s : State) : State := { s with regs := [], events := [], once := [] }

section
variable (s : State)

@[simp] theorem still_wr (k v : Nat) : (s.wr k v).still = s.still := rfl
@[simp] theorem still_put (f : Field) (v : Nat) : (s.put f v).still = s.still := by rw [put_rest]; rfl
@[simp] theorem still_bump (f : Field) : (s.bump f).still = s.still := still_put ..
@[simp] theorem still_bumpBy (f : Field) (n : Nat) : (s.bumpBy f n).still = s.still := still_put ..
@[simp] theorem still_hlog (type u pay : Nat) : (s.hlog type u pay).still = s.still := by rw [hlog_rest]; rfl

@[simp] theorem bare_wr (k v : Nat) : (s.wr k v).bare = s.bare := rfl
@[simp] theorem bare_put (f : Field) (v : Nat) : (s.put f v).bare = s.bare := by rw [put_rest]; rfl
@[simp] theorem bare_bump (f : Field) : (s.bump f).bare = s.bare := bare_put ..
@[simp] theorem bare_bumpBy (f : Field) (n : Nat) : (s.bumpBy f n).bare = s.bare := bare_put ..
@[simp] theorem bare_hlog (type u pay : Nat) : (s.hlog type u pay).bare = s.bare := by rw [hlog_rest]; rfl
@[simp] theorem bare_raiseEvent (e : Event) : (s.raiseEvent e).bare = s.bare := by rw [raiseEvent_rest]; rfl
@[simp] theorem bare_raise (u : Unit') (type : Nat) (l : List (Nat × Nat)) : (s.raise u type l).bare = s.bare := bare_raiseEvent ..
@[simp] theorem bare_raiseFor (u : Unit') (type f : Nat) (l : List (Nat × Nat)) : (s.raiseFor u type f l).bare = s.bare :=
  bare_raiseEvent ..
@[simp] theorem bare_fault (u code : Nat) : (s.fault u code).bare = s.bare := by
  unfold State.fault
  split
  · rw [bare_raise, bare_hlog, bare_put]
  · rw [bare_hlog]

end

theorem Writes.still {area : Nat → Bool} {s t : State} (h : Writes area s t) : t.still = s.still := by rw [h.rest]; rfl

theorem Writes.bare {area : Nat → Bool} {s t : State} (h : Writes area s t) : t.bare = s.bare := by rw [h.rest]; rfl

theorem te_of_bare {s t : State} (h : t.bare = s.bare) : t.te = s.te := by
  have := congrArg State.te h
  exact this

/-- Equal but for registers. -/
theorem eq_of_still {t u : State} (h : t.still = u.still) : t = { u with regs := t.regs } :=
  congrArg (fun x : State => { x with regs := t.regs }) h

/-- Equal but for registers and events. -/
theorem eq_of_bare {t u : State} (h : t.bare = u.bare) : t = { u with regs := t.regs, events := t.events, once := t.once } :=
  congrArg (fun x : State => { x with regs := t.regs, events := t.events, once := t.once }) h

theorem quietFrame_of_still {area : Nat → Bool} {s u t : State} (hc : s.canon = true) (h : Within area s t) (e : t.still = u.still) :
    QuietFrame area s u t := quietFrame hc h (eq_of_still e)

theorem noisyFrame_of_bare {area : Nat → Bool} {s u t : State} (hc : s.canon = true)
    (h : Within (fun k => area k || words [Reg.QE_ARB_LOST] k) s t) (e : t.bare = u.bare) : NoisyFrame area s u t :=
  noisyFrame hc h (eq_of_bare e)

/-! ## The ledger's audit (R437) -/

/-- Rows of the ledger set one after the other. -/
def State.setRows (s : State) (rows : List Nat) (v : Nat → Nat) : State :=
  rows.foldl (fun s r => s.put (Reg.TE_LEDGER_USED r) (v r)) s

theorem canon_setRows {s : State} (hc : s.canon = true) (rows : List Nat) (v : Nat → Nat) : (s.setRows rows v).canon = true := by
  induction rows generalizing s with
  | nil => exact hc
  | cons r rows ih => exact ih (canon_put hc)

theorem bare_setRows (s : State) (rows : List Nat) (v : Nat → Nat) : (s.setRows rows v).bare = s.bare := by
  induction rows generalizing s with
  | nil => rfl
  | cons r rows ih => exact (ih _).trans (bare_put ..)

/-- A row reads what was set, and another as before. -/
theorem used_setRows {s : State} (hc : s.canon = true) (rows : List Nat) (v : Nat → Nat) (row : Nat) :
    (s.setRows rows v).used row = if row ∈ rows then v row % 2 ^ 32 else s.used row := by
  induction rows generalizing s with
  | nil => simp [State.setRows]
  | cons r rows ih =>
    have hstep : (s.put (Reg.TE_LEDGER_USED r) (v r)).used row = if row = r then v row % 2 ^ 32 else s.used row := by
      split
      next h =>
        subst h
        exact get_put_same hc (by simp [Field.ok])
      next h =>
        exact get_put_apart hc (by simp [Field.ok]) (by simp [Field.ok]) (by simp [Field.apart, Field.at, Field.width]; omega)
    rw [show s.setRows (r :: rows) v = (s.put (Reg.TE_LEDGER_USED r) (v r)).setRows rows v from rfl, ih (canon_put hc), hstep]
    by_cases hin : row ∈ rows
    · simp [hin]
    · simp [hin]

/-- What the audit notes beside the ledger: the repair's count, the log, and FAULT of TE. -/
def auditWord (k : Nat) : Bool := reportWord k || words [Reg.SUP_BOOK_FIX, Reg.UNIT_FAULT 1] k

/-- An audit moves SUP's books, and may set AUDIT_PERSIST in its unit. -/
theorem bookAudit_cases (s : State) (book u : Nat) (failed hasRepair : Bool) : ∃ x : SupState, x.flash = s.sup.flash ∧
    (s.bookAudit book u failed hasRepair = ({ s with sup := x } : State).fault u 6 ∨
      s.bookAudit book u failed hasRepair = { s with sup := x }) := by
  unfold State.bookAudit State.when
  dsimp only
  refine ⟨_, ?_, ite_eq_or_eq _ _ _⟩
  rfl

theorem within_bookAudit_te {s₀ s : State} (h : Within auditWord s₀ s) (book : Nat) (failed hasRepair : Bool) :
    Within auditWord s₀ (s.bookAudit book 1 failed hasRepair) := by
  obtain ⟨x, hflash, hcases⟩ := bookAudit_cases s book 1 failed hasRepair
  have hbooks : Within auditWord s₀ { s with sup := x } := within_same h rfl rfl hflash
  obtain e | e := hcases
  · refine e ▸ hbooks.trans ((within_fault _ 1 6).mono fun k hk => ?_)
    simp only [auditWord, words, List.any_cons, List.any_nil, Bool.or_false, Bool.or_eq_true] at hk ⊢
    tauto
  · exact e ▸ hbooks

theorem bookAudit_te (s : State) (book u : Nat) (failed hasRepair : Bool) : (s.bookAudit book u failed hasRepair).te = s.te := by
  obtain ⟨x, -, e | e⟩ := bookAudit_cases s book u failed hasRepair
  · rw [e, te_of_bare (bare_fault ..)]
  · rw [e]

theorem bookRepaired_te (s : State) (book : Nat) : (s.bookRepaired book).te = s.te := by
  unfold State.bookRepaired
  split <;> rfl

/-- The end of an audit that has found the rows `bad`: it leaves the ledger alone. -/
theorem auditEnd {s : State} (bad : List Nat) :
    let repaired := s.when (!bad.isEmpty) (fun s => (s.bump Reg.SUP_BOOK_FIX).hlog 17 1 (payload [(8, bad.headD 0)]))
    let t := (repaired.bookAudit 7 1 (!bad.isEmpty) true).when (!bad.isEmpty) (fun s => s.bookRepaired 7)
    Within auditWord s t ∧ t.te = s.te := by
  intro repaired t
  have hnoted : Within auditWord s ((s.bump Reg.SUP_BOOK_FIX).hlog 17 1 (payload [(8, bad.headD 0)])) :=
    within_hlog (within_put (Within.refl s) (by decide) (.inr (by decide))) fun k hk => by simp only [auditWord, reportWord, hk, Bool.or_true, Bool.true_or]
  have hrepaired : Within auditWord s repaired := within_when (Within.refl s) hnoted
  have haudited : Within auditWord s (repaired.bookAudit 7 1 (!bad.isEmpty) true) := within_bookAudit_te hrepaired 7 _ _
  have hended : Within auditWord s ((repaired.bookAudit 7 1 (!bad.isEmpty) true).bookRepaired 7) := by
    unfold State.bookRepaired
    split
    · exact haudited
    · exact within_same haudited rfl rfl rfl
  refine ⟨within_when haudited hended, ?_⟩
  have hte : repaired.te = s.te := by
    simp only [repaired, State.when]
    split
    · rw [State.hlog_te, State.bump_te]
    · rfl
  simp only [t, State.when]
  split
  · rw [bookRepaired_te, bookAudit_te, hte]
  · rw [bookAudit_te, hte]

/-- Settles O5: the rows that differ are set to their sums, the others equal them, and what is noted stands beside the ledger. -/
theorem ledgerAuditRepairs : Obligations.LedgerAuditRepairs := by
  intro s found hc
  let read := found.foldl (fun s p => s.put (Reg.TE_LEDGER_USED p.1) p.2.toNat) s
  have hread : read.canon = true ∧ read.te = s.te := by
    have hkeeps : ∀ (l : List (Fin 40 × Word)) (u : State), u.canon = true →
        (l.foldl (fun s p => s.put (Reg.TE_LEDGER_USED p.1) p.2.toNat) u).canon = true ∧
        (l.foldl (fun s p => s.put (Reg.TE_LEDGER_USED p.1) p.2.toNat) u).te = u.te := by
      intro l
      induction l with
      | nil => exact fun u hu => ⟨hu, rfl⟩
      | cons p l ih => exact fun u hu => ⟨(ih _ (canon_put hu)).1, (ih _ (canon_put hu)).2.trans (State.put_te ..)⟩
    exact hkeeps found s hc
  let sum := fun r => sumOf read.te.books (fun b => Assoc.getD b.rows r 0)
  let bad := (List.range 40).filter (fun r => read.used r != sum r)
  have hset : (read.setRows bad sum).te = read.te := te_of_bare (bare_setRows read bad sum)
  obtain ⟨hwithin, hte⟩ := auditEnd (s := read.setRows bad sum) bad
  refine ⟨_, rfl, hte.trans (hset.trans hread.2), fun row hrow => ?_⟩
  have hleft := hwithin.get_eq (f := Reg.TE_LEDGER_USED row) (canon_setRows hread.1 bad sum)
    (by simp [auditWord, reportWord, logWord, words, inRange]; omega) (by simp [auditWord, reportWord, logWord, words, inRange]; omega)
  have hsum : sum row = sumOf s.te.books (fun b => Assoc.getD b.rows row 0) := by simp only [sum, hread.2]
  refine hleft.trans ((used_setRows hread.1 bad sum row).trans ?_)
  rw [← hsum]
  split
  next => rfl
  next hgood =>
    have heq : read.used row = sum row := by simpa [bad, hrow] using hgood
    rw [← heq]
    exact (Nat.mod_eq_of_lt (get_lt read (Reg.TE_LEDGER_USED row))).symm

/-! ## The front of the queue -/

/-- Settles O51: both halves are the cases of `step`. -/
theorem stepRunsFront : Obligations.StepRunsFront :=
  ⟨fun _ _ _ => rfl, fun s h => by rw [step, h]⟩

/-! ## DMA in standalone mode (R345) -/

theorem dmaOpen_standalone {s : State} (h : s.attached = false) (f : Nat) : s.dmaOpen f = (false, s.bump Reg.HIU_DMA_BLOCKED) := by
  simp [State.dmaOpen, h]

/-- Settles O57: every request asks `dmaOpen` first, which refuses it and counts it. -/
theorem standaloneRefusesDma : Obligations.StandaloneRefusesDma := by
  intro s h
  refine ⟨fun f a l => ?_, fun f a l => ?_, fun u f a n => ?_, fun x => ?_, State.bump_out .., fun hc => ⟨get_put_same hc (by decide), ?_⟩⟩
  · rw [State.dmaWrite, State.dmaWriteBy, dmaOpen_standalone h]
  · rw [State.dmaPayload, State.dmaWriteBy, dmaOpen_standalone h]
  · rw [State.dmaRead, dmaOpen_standalone h]
  · rw [State.writeMark, dmaOpen_standalone h]
  · rw [State.attached, State.bump, flag_put_off hc (by decide)]
    exact h

/-! ## The phase of a ring (R375) -/

theorem ofLE_append (l m : Bytes) : ofLE (l ++ m) = ofLE l + 256 ^ l.length * ofLE m := by
  induction l with
  | nil => simp [ofLE]
  | cons b l ih => simp only [List.cons_append, ofLE, ih, List.length_cons, pow_succ]; ring

/-- OWN stands in the last byte of an entry. -/
theorem ownOf_append (l : Bytes) (b : Byte) : ownOf (l ++ [b]) = b.toNat / 128 := by
  rw [ownOf, List.reverse_append]
  simp [beAt, sliceB, ofBE]

/-- The bit 63 of an 8-byte word is the top bit of its last byte. -/
theorem bits_ofLE_last (l : Bytes) (b : Byte) (h : l.length = 7) : bits (ofLE (l ++ [b])) 63 1 = b.toNat / 128 := by
  have hlow : ofLE l < 256 ^ 7 := h ▸ ofLE_lt l
  have hb := b.isLt
  rw [ofLE_append, h]
  simp only [ofLE, bits]
  omega

/-- Settles O58: OWN is the top bit of an entry's last byte; the phase alternates with the lap. -/
theorem ringPhase : Obligations.RingPhase := by
  refine ⟨fun e n hlen => ?_, fun s r q lap hlap => ⟨fun htype => ?_, fun htype => by rw [State.phaseOf, if_pos htype]⟩⟩
  · obtain rfl | ⟨l, b, rfl⟩ := List.eq_nil_or_concat e
    · simp at hlen
    · rw [List.concat_eq_append] at hlen ⊢
      have hl : l.length = 8 * n + 7 := by simpa using hlen
      have hword : leAt (l ++ [b]) (8 * n) 8 = ofLE (l.drop (8 * n) ++ [b]) := by
        rw [leAt, sliceB, List.take_of_length_le (by simp [hl]; omega), List.drop_append_of_le_length (by omega)]
      rw [ownOf_append, hword, bits_ofLE_last _ _ (by simp [hl])]
  · have hphase : s.phaseOf r q = (lap + 1) % 2 := by rw [State.phaseOf, if_neg htype, hlap]; rfl
    exact ⟨fun heven => by omega, fun hodd => by omega⟩

end Sys2Proof.Machine
end

section
/-! PROOFS. No command stops the block: the meaning of each is a next state in every state. -/

namespace Sys2Proof.Machine

theorem continues_ok (s : State) : ∃ t, ok s = .next t := ⟨s, rfl⟩

theorem continues_execSelectSlot (readFailA readFailB : Bool) (s : State) : ∃ t, execSelectSlot readFailA readFailB s = .next t := by
  unfold execSelectSlot
  repeat' (first | exact continues_ok _ | split | dsimp only)

theorem continues_execPtpMessageReceived (port : Fin 32) (m : PtpMsg) (s : State) : ∃ t, execPtpMessageReceived port m s = .next t := by
  unfold execPtpMessageReceived
  repeat' (first | exact continues_ok _ | split | dsimp only)

theorem continues_execFrameArrival (port : Fin 32) (offset : Nat) (frame : Bytes) (line : LineReport) (s : State) :
    ∃ t, execFrameArrival port offset frame line s = .next t := by
  unfold execFrameArrival
  repeat' (first | exact continues_ok _ | split | dsimp only)

theorem continues_execMediaEgress (toRing : Bool) (target : Fin 131072) (offset : Nat) (edge : Option (Bool × Nat))
    (outputBad stageBad : Bool) (s : State) :
    ∃ t, execMediaEgress toRing target offset edge outputBad stageBad s = .next t := by
  unfold execMediaEgress
  repeat' (first | exact continues_ok _ | split | dsimp only)

theorem continues_execBeFrameStart (port : Fin 32) (offset : Nat) (s : State) : ∃ t, execBeFrameStart port offset s = .next t := by
  unfold execBeFrameStart
  repeat' (first | exact continues_ok _ | split | dsimp only)

theorem continues_execC2hData (c : Fin 8192) (cid : BitVec 16) (off : Nat) (payload : Bytes) (hdrOk dataOk last success : Bool)
    (walks : List Walk8) (s : State) :
    ∃ t, execC2hData c cid off payload hdrOk dataOk last success walks s = .next t := by
  unfold execC2hData
  repeat' (first | exact continues_ok _ | split | dsimp only)

/-- Most meanings are a next state as they stand. The others choose among states by what they read, and each branch is one. -/
theorem exec_continues (c : Instr) (s : State) : ∃ t, exec c s = .next t := by
  cases c
  case sramInitDone | firmwareLoad | unitLoad | hbmFillStart | hbmRegionFilled | flashDone | ptpMessageSend | ref10Loss |
    ppsEdge | tickBoundary | mediaStart | restep | restepStep | checkFlow | admissionEffective | removalRelease |
    mediaOverrun | pipelineHeadAccept | reorderRelease | fabricTransfer | cutThroughStart | txComplete | txUnderrun |
    ctStepDecay | headOfQueueTimeout | stagedWrite | tblCommit | tblCommitEffective | tblCommitSync | flowEntryWrite |
    ftuWindowWrite | lpmInsert | lpmDelete | lpmRead | insertStatic | deleteStatic | macRead | macFlush | macFlushDone |
    autoFlushStart | portFlush | ageClockStep | pointWrite | termWrite | gainRequest | vfGainRequest | listWrite | leakFix |
    creditReset | autoRearm | limitLowered | overrideRelease | remoteOverrideEnd | forceEffective | ovrPinDisagree |
    sidebandEffective | sidebandMismatch | gateCommitDone | shaperRelease | progWrite | progRead | keyErased | txSaWrite |
    linkLock | linkUp | lockAttemptFail | diagnosticDone | linkDown | pauseFrame | pauseStorm | vlanCfgEffective | statsDone
    | mgmtLinkChange | requestSend | leaseExpiry | fenceInFall | handover | witnessLost | replayTick | hello | heartbeat |
    carriedCommand | hostMirror | layerBulk | bulkDone | deltaDone | layerDone | partnerLost | healthReport | linkRetrained |
    dlDown | readCompletion | completionTimeout | invDone | wrrTurn | descriptorFetch | txFrameRead | hostRxWrite |
    headPublish | mediaTxDeliver | submitComplete | ringIdle | eventGrant | eventSignal | storageComplete | storageCmdTimeout
    | tcpRetransmitTimeout | peerRst | icresp | capsuleResp | readyToTransfer | recStarted | stopEffective | chunkDue |
    chunkWritten | clockFault | serviceRestart | bistSlice | tempUpdate | warmResetEffective | unitResetDone | ref10Return |
    ppsAbsent | holdLockLoss | hedgeLinkUp | railsRestored | serviceWaitTimeout =>
    simp only [exec]
    delta execSramInitDone execFirmwareLoad execUnitLoad execHbmFillStart execHbmRegionFilled execFlashDone execPtpMessageSend
      execRef10Loss execPpsEdge execTickBoundary execMediaStart execRestep execRestepStep execCheckFlow
      execAdmissionEffective execRemovalRelease execMediaOverrun execPipelineHeadAccept execReorderRelease execFabricTransfer
      execCutThroughStart execTxComplete execTxUnderrun execCtStepDecay execHeadOfQueueTimeout execStagedWrite execTblCommit
      execTblCommitEffective execTblCommitSync execFlowEntryWrite execFtuWindowWrite execLpmInsert execLpmDelete execLpmRead
      execInsertStatic execDeleteStatic execMacRead execMacFlush execMacFlushDone execAutoFlushStart execPortFlush
      execAgeClockStep execPointWrite execTermWrite execGainRequest execVfGainRequest execListWrite execLeakFix
      execCreditReset execAutoRearm execLimitLowered execOverrideRelease execRemoteOverrideEnd execForceEffective
      execOvrPinDisagree execSidebandEffective execSidebandMismatch execGateCommitDone execShaperRelease execProgWrite
      execProgRead execKeyErased execTxSaWrite execLinkLock execLinkUp execLockAttemptFail execDiagnosticDone execLinkDown
      execPauseFrame execPauseStorm execVlanCfgEffective execStatsDone execMgmtLinkChange execRequestSend execLeaseExpiry
      execFenceInFall execHandover execWitnessLost execReplayTick execHello execHeartbeat execCarriedCommand execHostMirror
      execLayerBulk execBulkDone execDeltaDone execLayerDone execPartnerLost execHealthReport execLinkRetrained execDlDown
      execReadCompletion execCompletionTimeout execInvDone execWrrTurn execDescriptorFetch execTxFrameRead execHostRxWrite
      execHeadPublish execMediaTxDeliver execSubmitComplete execRingIdle execEventGrant execEventSignal execStorageComplete
      execStorageCmdTimeout execTcpRetransmitTimeout execPeerRst execIcresp execCapsuleResp execReadyToTransfer
      execRecStarted execStopEffective execChunkDue execChunkWritten execClockFault execServiceRestart execBistSlice
      execTempUpdate execWarmResetEffective execUnitResetDone execRef10Return execPpsAbsent execHoldLockLoss execHedgeLinkUp
      execRailsRestored execServiceWaitTimeout
    repeat' (first | exact continues_ok _ | split | dsimp only)
  case selectSlot => exact continues_execSelectSlot ..
  case ptpMessageReceived => exact continues_execPtpMessageReceived ..
  case frameArrival => exact continues_execFrameArrival ..
  case mediaEgress => exact continues_execMediaEgress ..
  case beFrameStart => exact continues_execBeFrameStart ..
  case c2hData => exact continues_execC2hData ..
  all_goals exact ⟨_, rfl⟩

theorem step_continues (s : State) : ∃ t, step s = .next t := by
  unfold step
  split
  · exact ⟨s, rfl⟩
  · exact exec_continues ..

theorem safe_always (n : Nat) (s : State) : safe n s := by
  induction n generalizing s with
  | zero => trivial
  | succ n ih =>
    obtain ⟨t, ht⟩ := step_continues s
    exact ⟨t, ht, ih t⟩

/-- Settles O53: no arm of the dispatch answers anything but a next state, so a run never stops. -/
theorem noCommandStops : Obligations.NoCommandStops := ⟨exec_continues, safe_always⟩

end Sys2Proof.Machine
end

section
/-! PROOFS. The power pins (R446 to R450, R454, R461): VAUX, POR_N and the rails; what a COLD reset leaves of flash and OTP. -/

namespace Sys2Proof.Machine

/-- A field away from the word written reads as before. -/
theorem get_wr_off {s : State} {f : Field} {k v : Nat} (hc : s.canon = true) (hlo : f.key ≠ k) (hhi : f.key + 4 ≠ k) :
    (s.wr k v).get f = s.get f := by
  simp only [State.get, rd_wr_ne hc hlo, rd_wr_ne hc hhi]

/-! ## The COLD reset (R450, R454) -/

/-- While the device is held with no flash operation under way, what stays is what a COLD reset keeps. -/
theorem hold_idle {s : State} (h : s.sup.flashOp = none) : s.hold = s.coldKeep := by rw [State.hold, h]

/-- Outside domain AON a COLD reset leaves the reset values, but for CKU_DEV_PUB. -/
theorem rd_coldReset_off {s : State} (hc : s.canon = true) (cause : Nat) {k : Nat} (hk : isAon k = false)
    (hpub : inRange k 0x08001200 0x64 = false) : (s.coldReset cause).rd k = (resetWord k).toNat := by
  have hw : coldWord k = false := by
    have hcause : k ≠ 0x1608 := by rintro rfl; simp [isAon] at hk
    have hboot : k ≠ 0x1000 := by rintro rfl; simp [isAon] at hk
    simp [coldWord, hpub, hcause, hboot]
  rw [(writes_coldReset s cause).within.words (canon_hold hc) k hw, rd_hold hc, hk, if_neg Bool.false_ne_true]

theorem canon_derivePublic {s : State} (hc : s.canon = true) : s.derivePublic.canon = true := (writes_derivePublic s).canon hc

/-- BOOT counts, CAUSE names the source, and SUP_BOOT_STATUS starts over. -/
theorem coldReset_causes {s : State} (hc : s.canon = true) {cause : Nat} (hcause : cause < 256) :
    (s.coldReset cause).get Reg.SUP_RESET_CAUSE_BOOT = (s.get Reg.SUP_RESET_CAUSE_BOOT + 1) % 256 ∧
    (s.coldReset cause).get Reg.SUP_RESET_CAUSE_CAUSE = cause ∧ (s.coldReset cause).rd 0x1000 = 0x10100 := by
  have hh := canon_hold hc
  have hd := canon_derivePublic hh
  have hboot : s.hold.derivePublic.get Reg.SUP_RESET_CAUSE_BOOT = s.get Reg.SUP_RESET_CAUSE_BOOT := by
    rw [(writes_derivePublic s.hold).get_eq hh (by decide) (by decide), State.get, State.get, rd_hold hc]
    rfl
  unfold State.coldReset
  refine ⟨?_, ?_, rd_wr_same (canon_put (canon_put hd))⟩
  · rw [get_wr_off (canon_put (canon_put hd)) (by decide) (by decide), get_put_off (canon_put hd) (by decide),
      get_put_same hd (by decide), hboot]
    rfl
  · rw [get_wr_off (canon_put (canon_put hd)) (by decide) (by decide), get_put_same (canon_put hd) (by decide)]
    exact Nat.mod_eq_of_lt hcause

/-- The words of CKU_DEV_PUB as one list. -/
theorem derivePublic_eq (s : State) : s.derivePublic = s.wrWords 0x08001200
    ((List.range 25).map fun i => leAt ((Config.p384Public (Config.devicePrivate s.sup.deviceSecret)).take 97) (4 * i) 4) := rfl

theorem leAt_four_lt (l : Bytes) (i : Nat) : leAt l i 4 < 2 ^ 32 := by
  have hlen : (sliceB l i 4).length ≤ 4 := by simp [sliceB]
  calc leAt l i 4 < 256 ^ (sliceB l i 4).length := ofLE_lt _
    _ ≤ 256 ^ 4 := Nat.pow_le_pow_right (by decide) hlen

/-- CKU_DEV_PUB holds the public key of the fused secret (R246). -/
theorem rd_coldReset_public {s : State} (hc : s.canon = true) (cause : Nat) {i : Nat} (hi : i < 25) :
    (s.coldReset cause).rd (0x08001200 + 4 * i) =
      leAt ((Config.p384Public (Config.devicePrivate s.hold.sup.deviceSecret)).take 97) (4 * i) 4 := by
  have hh := canon_hold hc
  have hd := canon_derivePublic hh
  unfold State.coldReset
  rw [rd_wr_ne (canon_put (canon_put hd)) (by omega), rd_put_ne (canon_put hd) (by simp; omega) (.inl (by decide)),
    rd_put_ne hd (by simp; omega) (.inl (by decide)), derivePublic_eq, rd_wrWords hh _ _ i (by simpa using hi)]
  rw [List.getD_eq_getElem _ _ (by simpa using hi), List.getElem_map, List.getElem_range]
  exact Nat.mod_eq_of_lt (leAt_four_lt ..)

/-- A COLD reset changes nothing but registers beyond what the hold has left. -/
theorem coldReset_units (s : State) (cause : Nat) (h : s.sup.flashOp = none) :
    (s.coldReset cause).sup = s.coldKeep.sup ∧ (s.coldReset cause).fpu = FpuState.reset ∧ (s.coldReset cause).media = MediaState.reset := by
  rw [(writes_coldReset s cause).rest, hold_idle h]
  exact ⟨rfl, rfl, rfl⟩

/-! ## VAUX (R447, R450, R461) -/

/-- The state as VAUX comes on, before OTP is sensed: every word at reset, the main rails off. -/
def State.vauxOn (s : State) (otpOk : Bool) : State :=
  { s.coldKeep with
    regs := []
    sup := { s.coldKeep.sup with vaux := true, vauxFresh := true, porLow := true, railTrip := false, otpOk := otpOk } }

theorem canon_vauxOn {s : State} (hc : s.canon = true) (otpOk : Bool) : (s.vauxOn otpOk).canon = true := by
  have hflash := canon_flash hc
  change (Sparse.wf resetWord [] && Sparse.wf flashBlank s.sup.flash) = true
  rw [hflash]
  rfl

/-- The words that the OTP sense shows: its status and the fused MAC address. -/
def otpWord (k : Nat) : Bool := k == 0x1024 || k == 0x1308 || k == 0x130C

theorem writes_senseOtp (s : State) : Writes otpWord s s.senseOtp :=
  writes_put (writes_put (writes_put (Writes.refl s) (by decide) (.inl (by decide))) (by decide) (.inl (by decide)))
    (by decide) (.inl (by decide))

theorem get_bit_put {s : State} (hc : s.canon = true) {f : Field} (hok : f.ok = true) (hwidth : f.width = 1) (b : Bool) :
    (s.put f (bit b)).get f = bit b := by
  rw [get_put_same hc hok, hwidth]
  cases b <;> rfl

theorem vauxApply_completes {s : State} (hc : s.canon = true) (otpOk : Bool) : completes (.vauxApply otpOk) s fun t =>
    t.sup.vaux = true ∧ t.sup.porLow = true ∧ t.sup.otpOk = otpOk ∧ t.sup.flash = s.sup.flash ∧
    t.get Reg.SUP_OTP_STATUS_OTP_OK = (if otpOk then 1 else 0) ∧ t.rd 0x1308 = s.sup.otpMac % 2 ^ 32 ∧
    ∀ k, k ≠ 0x1024 → k ≠ 0x1308 → k ≠ 0x130C → t.rd k = (resetWord k).toNat := by
  have hon := canon_vauxOn hc otpOk
  have hsense := writes_senseOtp (s.vauxOn otpOk)
  have hsensed := hsense.canon hon
  have hwrites : ∀ v w, Writes otpWord (s.vauxOn otpOk) (((s.vauxOn otpOk).senseOtp.wr 0x1308 v).wr 0x130C w) := fun v w =>
    writes_wr (writes_wr hsense (by decide)) (by decide)
  have hsup := (hwrites (s.sup.otpMac % 2 ^ 32) (s.sup.otpMac / 2 ^ 32 % 2 ^ 16)).sup
  have hmac : (s.vauxOn otpOk).senseOtp.sup = (s.vauxOn otpOk).sup := hsense.sup
  refine ⟨((s.vauxOn otpOk).senseOtp.wr 0x1308 (s.sup.otpMac % 2 ^ 32)).wr 0x130C (s.sup.otpMac / 2 ^ 32 % 2 ^ 16), ?run,
    congrArg SupState.vaux hsup, congrArg SupState.porLow hsup, congrArg SupState.otpOk hsup, (congrArg SupState.flash hsup).trans rfl,
    ?good, ?address, fun k h1 h2 h3 => (hwrites _ _).within.words hon k (by simp [otpWord, h1, h2, h3])⟩
  case run =>
    change ok (((s.vauxOn otpOk).senseOtp.wr 0x1308 ((s.vauxOn otpOk).senseOtp.sup.otpMac % 2 ^ 32)).wr 0x130C
      ((s.vauxOn otpOk).senseOtp.sup.otpMac / 2 ^ 32 % 2 ^ 16)) = _
    rw [hmac]
    rfl
  case good =>
    rw [get_wr_off (canon_wr hsensed) (by decide) (by decide), get_wr_off hsensed (by decide) (by decide)]
    exact get_bit_put (canon_put (canon_put hon)) (by decide) (by decide) otpOk
  case address => rw [rd_wr_ne (canon_wr hsensed) (by decide), rd_wr_same hsensed, Nat.mod_mod]

theorem vauxLoss_completes {s : State} (hc : s.canon = true) : completes .vauxLoss s fun t =>
    (∀ k, isAon k = true → t.rd k = (resetWord k).toNat) ∧ QuietFrame isAon s { s with sup := { s.sup with vaux := false } } t := by
  have hread : ∀ k, (s.resetWords isAon).rd k = if isAon k then (resetWord k).toNat else s.rd k := fun k => rd_resetWords hc
  exact ⟨_, rfl, fun k hk => (hread k).trans (if_pos hk), fun k hk => (hread k).trans (by rw [hk]; rfl), rfl⟩

/-! ## POR_N and the rails (R446, R454, R461) -/

theorem hold_flash {s : State} (h : s.sup.flashOp = none) : s.hold.sup.flash = s.sup.flash := by rw [hold_idle h]; rfl

theorem porNRelease_completes {s : State} (hc : s.canon = true) (hop : s.sup.flashOp = none) : completes .porNRelease s fun t =>
    t.sup.porLow = false ∧ t.get Reg.SUP_RESET_CAUSE_BOOT = (s.get Reg.SUP_RESET_CAUSE_BOOT + 1) % 256 ∧
    t.get Reg.SUP_RESET_CAUSE_CAUSE = (if s.sup.vauxFresh then 0 else 1) ∧ t.rd 0x1000 = 0x10100 ∧
    (∀ k, isAon k = false → inRange k 0x08001200 0x64 = false → t.rd k = (resetWord k).toNat) ∧
    (∀ i, i < 25 → t.rd (0x08001200 + 4 * i) =
      leAt ((Config.p384Public (Config.devicePrivate s.sup.deviceSecret)).take 97) (4 * i) 4) ∧
    (∀ k, isAon k = true → k ≠ 0x1000 → k ≠ 0x1608 → t.rd k = s.rd k) ∧
    t.sup.flash = s.sup.flash ∧ t.sup.otpKey = s.sup.otpKey ∧ t.fpu = FpuState.reset ∧ t.media = MediaState.reset := by
  let u : State := { s with sup := { s.sup with porLow := false, vauxFresh := false, railTrip := false } }
  have hu : u.canon = true := hc
  have hidle : u.sup.flashOp = none := hop
  obtain ⟨hboot, hcause, hstatus⟩ := coldReset_causes hu (cause := if s.sup.vauxFresh then 0 else 1) (by split <;> decide)
  obtain ⟨hsup, hfpu, hmedia⟩ := coldReset_units u (if s.sup.vauxFresh then 0 else 1) hidle
  refine ⟨_, rfl, congrArg SupState.porLow hsup, hboot, hcause, hstatus, fun k => rd_coldReset_off hu _, fun i hi => ?pubkey,
    fun k hk h0 h8 => rd_coldReset_aon hu _ hk ?kept, (congrArg SupState.flash hsup).trans rfl, (congrArg SupState.otpKey hsup).trans rfl, hfpu, hmedia⟩
  case pubkey => exact (rd_coldReset_public hu _ hi).trans (by rw [hold_idle hidle]; rfl)
  case kept =>
    have hpub : inRange k 0x08001200 0x64 = false := by
      simp only [isAon, Bool.or_eq_true, Bool.and_eq_true, beq_iff_eq, decide_eq_true_eq] at hk
      simp only [inRange, Bool.and_eq_false_iff, decide_eq_false_iff_not]
      omega
    simp [coldWord, hpub, h0, h8]

theorem railsRestored_completes {s : State} (hc : s.canon = true) (hop : s.sup.flashOp = none) (htrip : s.sup.railTrip = true)
    (hpor : s.sup.porLow = false) : completes .railsRestored s fun t =>
    t.sup.railTrip = false ∧ t.get Reg.SUP_RESET_CAUSE_CAUSE = 1 ∧
    t.get Reg.SUP_RESET_CAUSE_BOOT = (s.get Reg.SUP_RESET_CAUSE_BOOT + 1) % 256 ∧
    (∀ k, isAon k = false → inRange k 0x08001200 0x64 = false → t.rd k = (resetWord k).toNat) ∧ t.sup.flash = s.sup.flash := by
  let u : State := { s with sup := { s.sup with railTrip := false } }
  have hu : u.canon = true := hc
  have hrun : exec .railsRestored s = ok (u.coldReset 1) := by
    change (if s.sup.railTrip = true then ok (if s.sup.porLow = true then u else u.coldReset 1) else ok s) = _
    rw [if_pos htrip, if_neg (by rw [hpor]; exact Bool.false_ne_true)]
  obtain ⟨hboot, hcause, -⟩ := coldReset_causes hu (cause := 1) (by decide)
  obtain ⟨hsup, -, -⟩ := coldReset_units u 1 hop
  exact ⟨_, hrun, congrArg SupState.railTrip hsup, hcause, hboot, fun k => rd_coldReset_off hu _, (congrArg SupState.flash hsup).trans rfl⟩

/-! ## The SRAMs are zeroed (R46, R448) -/

theorem sramInitDone_completes {s : State} (hc : s.canon = true) (hpower : s.powered = true) : completes .sramInitDone s fun t =>
    t.sup.sramReady = true ∧ t.get Reg.SUP_CLK_STATUS_REFCLK_OK = 1 ∧
    (∀ i ∈ [0, 1, 2, 16], bitAt (t.get Reg.SUP_CLK_STATUS_LOCKED) i = true) ∧
    QuietFrame (words [Reg.SUP_CLK_STATUS_LOCKED]) s { s with sup := { s.sup with sramReady := true } } t := by
  let u : State := { s with sup := { s.sup with sramReady := true } }
  let r := u.put Reg.SUP_CLK_STATUS_REFCLK_OK 1
  have hr : r.canon = true := canon_put hc
  have hlock : ∀ {t : State} (k : Nat), t.canon = true → (t.lockPll k).canon = true := fun _ => canon_put
  have hrun : exec .sramInitDone s = ok ((((r.lockPll 0).lockPll 1).lockPll 2).lockPll 16) := by
    simp only [exec, execSramInitDone, hpower, Bool.not_true, Bool.false_eq_true, if_false]; rfl
  have hwrites : Writes (words [Reg.SUP_CLK_STATUS_LOCKED]) u ((((r.lockPll 0).lockPll 1).lockPll 2).lockPll 16) :=
    writes_lockPll (writes_lockPll (writes_lockPll (writes_lockPll (writes_put (Writes.refl u) (by decide) (.inl (by decide)))
      (by decide)) (by decide)) (by decide)) (by decide)
  refine ⟨_, hrun, congrArg SupState.sramReady hwrites.sup, ?refclk, fun i hi => ?locked, quietFrame_withSup hc hwrites rfl⟩
  case refclk =>
    have hkept : ∀ {t : State} (k : Nat), t.canon = true →
        (t.lockPll k).get Reg.SUP_CLK_STATUS_REFCLK_OK = t.get Reg.SUP_CLK_STATUS_REFCLK_OK := fun k ht => get_put_off ht (by decide)
    rw [hkept _ (hlock _ (hlock _ (hlock _ hr))), hkept _ (hlock _ (hlock _ hr)), hkept _ (hlock _ hr), hkept _ hr,
      get_put_same (show u.canon = true from hc) (by decide)]
    rfl
  case locked =>
    have hi17 : i < 17 := by simp only [List.mem_cons, List.not_mem_nil, or_false] at hi; omega
    rw [locked_lockPll (hlock _ (hlock _ (hlock _ hr))) _ _ hi17, locked_lockPll (hlock _ (hlock _ hr)) _ _ hi17,
      locked_lockPll (hlock _ hr) _ _ hi17, locked_lockPll hr _ _ hi17]
    simp only [List.mem_cons, List.not_mem_nil, or_false] at hi
    obtain rfl | rfl | rfl | rfl := hi <;> simp

/-- Settles O12: clause by clause. That the words of domain AON stand at reset after a loss of VAUX is the model's choice (log
entry 9), and so is which PLLs SRAM_INIT_DONE finds locked (log entry 22). -/
theorem powerCommandsComplete : Obligations.PowerCommandsComplete := by
  intro s hc
  exact ⟨vauxApply_completes hc, vauxLoss_completes hc, ⟨_, rfl, rfl, fun k => rd_hold hc k, hold_flash⟩,
    ⟨_, rfl, rfl, fun k => rd_hold hc k, hold_flash⟩, porNRelease_completes hc, railsRestored_completes hc, sramInitDone_completes hc⟩

end Sys2Proof.Machine
end

section
/-! PROOFS. Writes of CKU's association tables (R259, R262, R270), and which row of a unit's map describes a word whose rows stand
interleaved. -/

namespace Sys2Proof.Machine

/-! ## The row of a word among interleaved rows -/

/-- The row describes no word from `lo` up to `hi` whose key leaves `r` modulo `m`. -/
def WordRow.misses (row : WordRow) (lo hi m r : Nat) : Bool := row.avoids lo hi || (row.stride == m && row.base % m != r)

theorem WordRow.not_covers_of_misses {row : WordRow} {lo hi m r k : Nat} (h : row.misses lo hi m r = true) (hlo : lo ≤ k) (hhi : k < hi)
    (hm : k % m = r) (hpos : 0 < m) : row.covers k = false := by
  rw [WordRow.misses, Bool.or_eq_true, Bool.and_eq_true, beq_iff_eq, bne_iff_ne] at h
  obtain h | ⟨hstride, hbase⟩ := h
  · exact WordRow.not_covers_of_avoids h hlo hhi
  · rw [WordRow.covers, hstride, if_neg (by omega), Bool.and_eq_false_iff, decide_eq_false_iff_not, Bool.and_eq_false_iff]
    by_cases hle : row.base ≤ k
    · refine .inr (.inl (beq_false_of_ne fun hzero => hbase ?_))
      rw [← hm]
      exact (Nat.modEq_iff_dvd' hle).mpr (Nat.dvd_of_mod_eq_zero hzero)
    · exact .inl hle

/-- The first row that covers a word describes it; those ahead of it miss the word. -/
theorem rowOf_at {rows : List WordRow} {row : WordRow} {lo hi m r k : Nat} (n : Nat) (hrows : rowsFor k = rows) (hk : k < 0x20000000)
    (hrow : rows[n]? = some row) (hmiss : (rows.take n).all (·.misses lo hi m r) = true) (hlo : lo ≤ k) (hhi : k < hi) (hm : k % m = r)
    (hpos : 0 < m) (hcov : row.covers k = true) : rowOf k = some row := by
  have hfind : rowOf k = rows.find? (·.covers k) := by
    rw [rowOf, if_neg (by omega), hrows]
    rfl
  obtain ⟨hlen, hget⟩ := List.getElem?_eq_some_iff.mp hrow
  have hsplit : rows = rows.take n ++ row :: rows.drop (n + 1) := by
    rw [← hget, List.getElem_cons_drop, List.take_append_drop]
  have hnone : (rows.take n).find? (·.covers k) = none := List.find?_eq_none.mpr fun x hx => by
    rw [WordRow.not_covers_of_misses (List.all_eq_true.mp hmiss x hx) hlo hhi hm hpos]
    exact Bool.false_ne_true
  rw [hfind, hsplit, List.find?_append, hnone, Option.none_or]
  exact List.find?_cons_of_pos (p := (WordRow.covers · k)) hcov

/-! ## A write that may meet sealed fields (R12) -/

/-- Under a seal the sealed fields stand, and the others take what is written. -/
theorem foldl_writeField_sealed {fields : List FieldRow} (hacc : fields.all (fun f => f.acc == .rw || f.acc == .sl) = true) (v w : Nat) :
    fields.foldl (writeField true v) w = (fields.filter (·.acc == .rw)).foldl (writeField true v) w := by
  induction fields generalizing w with
  | nil => rfl
  | cons f fields ih =>
    rw [List.all_cons, Bool.and_eq_true, Bool.or_eq_true, beq_iff_eq, beq_iff_eq] at hacc
    obtain ⟨hrw | hsl, hrest⟩ := hacc
    · rw [List.filter_cons_of_pos (by rw [hrw]; rfl), List.foldl_cons, List.foldl_cons, ih hrest]
    · rw [List.filter_cons_of_neg (by rw [hsl]; decide), List.foldl_cons, ih hrest]
      congr 1
      rw [writeField, hsl]
      rfl

section
variable {s : State} {k : Nat} {row : WordRow} (hc : s.canon = true) (hshow : s.shows k = true) (hrow : rowOf k = some row)
  (hacc : row.fields.all (fun f => f.acc == .rw || f.acc == .sl) = true) (hseal : s.sealedAt k = true)
include hc hshow hrow hacc hseal

theorem testBit_rd_setWord_sealed (v : Nat) {i : Nat} (hi : i < 32) : ((s.setWord k v).rd k).testBit i =
    if takesBit (row.fields.filter (·.acc == .rw)) i then v.testBit i else (s.rd k).testBit i := by
  rw [rd_setWord hc, hshow, if_pos rfl, hrow, Option.elim_some, Nat.testBit_mod_two_pow, decide_eq_true hi, Bool.true_and, hseal,
    foldl_writeField_sealed hacc, testBit_foldl_writeField (by simp)]

/-- A field of a word reads what was written where its bits are taken, and what stood there where none is. -/
theorem bits_setWord_sealed (v : Nat) {lo n : Nat} {taken : Bool} (hn : lo + n ≤ 32)
    (htaken : ∀ i, i < n → takesBit (row.fields.filter (·.acc == .rw)) (lo + i) = taken) :
    bits ((s.setWord k v).rd k) lo n = bits (if taken then v else s.rd k) lo n := by
  apply Nat.eq_of_testBit_eq
  intro i
  rw [bits_testBit, bits_testBit]
  by_cases hi : i < n
  · rw [testBit_rd_setWord_sealed hc hshow hrow hacc hseal v (by omega), htaken i hi]
    cases taken <;> rfl
  · rw [decide_eq_false hi, Bool.false_and, Bool.false_and]

end

/-! ## Words of a security association (R259) -/

/-- The row of word 0 of the SAs, and that of word 1. -/
def saRow : WordRow := ⟨0x08400000, 32, 16384, [⟨31, 31, .rw, 0⟩, ⟨30, 28, .rw, 0⟩, ⟨27, 27, .rw, 0⟩, ⟨26, 26, .rw, 0⟩, ⟨15, 0, .rw, 0⟩]⟩
def saSpiRow : WordRow := ⟨0x08400004, 32, 16384, [⟨31, 0, .rw, 0⟩]⟩

theorem rowsFor_cku {k : Nat} (hk : k / 0x1000000 = 8) : rowsFor k = ckuRows := by rw [rowsFor, hk]; rfl

theorem rowOf_sa (sa : Fin 16384) : rowOf (0x08400000 + 32 * sa) = some saRow :=
  rowOf_at (lo := 0x08400000) (hi := 0x08480000) (m := 32) (r := 0) 29 (rowsFor_cku (by omega)) (by omega) (by decide) (by decide)
    (by omega) (by omega) (by omega) (by decide) (by simp [WordRow.covers, saRow])

theorem rowOf_saSpi (sa : Fin 16384) : rowOf (0x08400004 + 32 * sa) = some saSpiRow :=
  rowOf_at (lo := 0x08400000) (hi := 0x08480000) (m := 32) (r := 4) 30 (rowsFor_cku (by omega)) (by omega) (by decide) (by decide)
    (by omega) (by omega) (by omega) (by decide) (by simp [WordRow.covers, saSpiRow])

/-- Which words of CKU's tables show rests on CKU's state alone. -/
theorem mayWrite_cku {s : State} {r : Requester} {j k : Nat} (hj : j / 0x100000 = 0x84) (hk : k / 0x100000 = 0x84) :
    s.mayWrite r j = s.mayWrite r k := by
  have hunit : ∀ {k : Nat}, k / 0x100000 = 0x84 → unitOfKey k = 8 := fun {k} h => by
    rw [unitOfKey, show k / 0x1000000 = 8 by omega]
    rfl
  have hrow : ∀ {k : Nat}, k / 0x100000 = 0x84 → (k % 0x1000000 < 0x1000 && k < 0x0E000000) = false := fun {k} h => by
    rw [Bool.and_eq_false_iff, decide_eq_false_iff_not]
    exact .inl (by omega)
  simp only [State.mayWrite, State.shows, hunit hj, hunit hk, hrow hj, hrow hk, show j < 0x20000000 by omega, show k < 0x20000000 by omega]

section
variable {s : State} {r : Requester} {v : Word} (hc : s.canon = true)

section
variable {sa : Fin 16384} (hmay : s.mayWrite r (0x08400000 + 32 * sa.val) = true)
include hmay

/-- A word of an SA that is not VALID takes a write. -/
theorem exec_saWrite_word (w : Fin 8) (hw : w.val ≠ 0) (hinvalid : s.flag (Reg.SA_VALID sa) = false) :
    exec (.saWrite r sa w v) s = ok (s.writeWord r (0x08400000 + 32 * sa + 4 * w) v.toNat) := by
  have hmay' : s.mayWrite r (0x08400000 + 32 * sa.val + 4 * w.val) = true := by rw [← hmay]; exact mayWrite_cku (by omega) (by omega)
  simp [exec, execSaWrite, State.writeSa, hmay', hinvalid, hw]

/-- Word 0 with VALID: the SA's checks decide. -/
theorem exec_saWrite_valid (hinvalid : s.flag (Reg.SA_VALID sa) = false) (hv : bitAt v.toNat 31 = true) :
    exec (.saWrite r sa 0 v) s = ok (if s.saRefused sa v.toNat then s.bump Reg.CKU_SA_REFUSED
      else { s.writeWord r (0x08400000 + 32 * sa) v.toNat with
        cku := { s.cku with seen := Assoc.erase s.cku.seen sa, noted := s.cku.noted.filter (·.1 != sa.val) } }) := by
  simp [exec, execSaWrite, State.writeSa, hmay, hinvalid, hv]

theorem exec_saWrite_clear (hvalid : s.flag (Reg.SA_VALID sa) = true) (hv : bitAt v.toNat 31 = false) :
    exec (.saWrite r sa 0 v) s = ok (s.put (Reg.SA_VALID sa) 0) := by
  simp [exec, execSaWrite, State.writeSa, hmay, hvalid, hv]

include hc

theorem saWrite_spi (hinvalid : s.flag (Reg.SA_VALID sa) = false) : completes (.saWrite r sa 1 v) s fun t =>
    t.get (Reg.SA_SPI_SSCI sa) = v.toNat ∧ QuietFrame (words [Reg.SA_SPI_SSCI sa]) s s t := by
  have hkey : 0x08400000 + 32 * sa.val + 4 * (1 : Fin 8).val = 0x08400004 + 32 * sa.val := by simp; omega
  have hmay' : s.mayWrite r (0x08400004 + 32 * sa.val) = true := by rw [← hmay]; exact mayWrite_cku (by omega) (by omega)
  refine ⟨_, (exec_saWrite_word hmay 1 (by decide) hinvalid), ?_⟩
  rw [hkey]
  have hplain : (rowOf (0x08400004 + 32 * sa.val)).all (·.plain) = true := by rw [rowOf_saSpi]; rfl
  refine ⟨?_, (writes_writeWord_plain (Writes.refl s) (by simp [words]) hplain _).quietFrame hc⟩
  rw [get_word (show 31 < 32 by decide), writeWord_plain hplain]
  refine (bits_setWord_taken hc (shows_of_mayWrite hmay') (rowOf_saSpi sa) (by decide) v.toNat (lo := 0) (n := 32) (by decide)
    (by decide)).trans ?_
  rw [bits, pow_zero, Nat.div_one, Nat.mod_eq_of_lt v.isLt]

theorem saWrite_sets (hinvalid : s.flag (Reg.SA_VALID sa) = false) (hv : bitAt v.toNat 31 = true) (hok : s.saRefused sa v.toNat = false) :
    completes (.saWrite r sa 0 v) s fun t => t.flag (Reg.SA_VALID sa) = true ∧ t.get (Reg.SA_KIND sa) = bits v.toNat 28 3 ∧
      t.get (Reg.SA_KEY sa) = v.toNat % 2 ^ 16 ∧ Assoc.get? t.cku.seen sa = none ∧
      QuietFrame (words [Reg.SA_VALID sa]) s { s with cku := { s.cku with seen := t.cku.seen, noted := t.cku.noted } } t := by
  have hplain : (rowOf (0x08400000 + 32 * sa.val)).all (·.plain) = true := by rw [rowOf_sa]; rfl
  have htaken : ∀ lo n, lo + n ≤ 32 → (∀ i, i < n → takesBit saRow.fields (lo + i) = true) →
      bits ((s.writeWord r (0x08400000 + 32 * sa.val) v.toNat).rd (0x08400000 + 32 * sa)) lo n = bits v.toNat lo n := fun lo n hn h => by
    rw [writeWord_plain hplain, bits_setWord_taken hc (shows_of_mayWrite hmay) (rowOf_sa sa) (by decide) v.toNat hn h]
  have hwrites : Writes (words [Reg.SA_VALID sa]) s (s.writeWord r (0x08400000 + 32 * sa.val) v.toNat) :=
    writes_writeWord_plain (Writes.refl s) (by simp [words]) hplain _
  refine ⟨_, exec_saWrite_valid hmay hinvalid hv, ?_⟩
  rw [hok, if_neg Bool.false_ne_true]
  refine ⟨?valid, ?kind, ?slot, Assoc.get?_erase_same .., hwrites.within.words hc, ?rest⟩
  case valid =>
    have hbit : bits v.toNat 31 1 = 1 := by simpa [bitAt, bits] using hv
    exact (congrArg (· == 1) ((htaken 31 1 (by decide) (by decide)).trans hbit))
  case kind => exact htaken 28 3 (by decide) (by decide)
  case slot => exact (htaken 0 16 (by decide) (by decide)).trans (by rw [bits, pow_zero, Nat.div_one])
  case rest =>
    exact congrArg (fun x : State => { x with
      cku := { s.cku with seen := Assoc.erase s.cku.seen sa, noted := s.cku.noted.filter (·.1 != sa.val) } }) hwrites.rest

theorem saWrite_refused (hinvalid : s.flag (Reg.SA_VALID sa) = false) (hv : bitAt v.toNat 31 = true) (hbad : s.saRefused sa v.toNat = true) :
    completes (.saWrite r sa 0 v) s fun t => t.get Reg.CKU_SA_REFUSED = (s.get Reg.CKU_SA_REFUSED + 1) % 2 ^ 64 ∧
      QuietFrame (words [Reg.CKU_SA_REFUSED]) s s t := by
  refine ⟨_, exec_saWrite_valid hmay hinvalid hv, ?_⟩
  rw [hbad, if_pos rfl]
  exact ⟨get_put_same hc (by decide), (writes_put (Writes.refl s) (by decide) (.inr (by decide))).quietFrame hc⟩

theorem saWrite_clears (hvalid : s.flag (Reg.SA_VALID sa) = true) (hv : bitAt v.toNat 31 = false) :
    completes (.saWrite r sa 0 v) s fun t => t.flag (Reg.SA_VALID sa) = false ∧ t.get (Reg.SA_KEY sa) = s.get (Reg.SA_KEY sa) ∧
      QuietFrame (words [Reg.SA_VALID sa]) s s t := by
  have hok : (Reg.SA_VALID sa).ok = true := by simp [Field.ok]; omega
  refine ⟨_, exec_saWrite_clear hmay hvalid hv, ?_, ?_, (writes_put (Writes.refl s) (by simp [words]) (.inl (show 31 < 32 by decide))).quietFrame hc⟩
  · rw [State.flag, get_put_zero hc hok]
    rfl
  · exact get_put_apart hc hok (by simp [Field.ok]; omega) (.inr (by simp [Field.at, Field.width]))

end

/-- Of a VALID association only VALID can be cleared. -/
theorem saWrite_held {sa : Fin 16384} {w : Fin 8} (hvalid : s.flag (Reg.SA_VALID sa) = true) (hkeep : w.val ≠ 0 ∨ bitAt v.toNat 31 = true) :
    completes (.saWrite r sa w v) s fun t => t = s := by
  have hstays : (decide (w.val = 0) && !bitAt v.toNat 31) = false := by
    obtain h | h := hkeep
    · rw [decide_eq_false h, Bool.false_and]
    · rw [h, Bool.not_true, Bool.and_false]
  refine ⟨s, ?_, rfl⟩
  simp only [exec, execSaWrite, State.writeSa, hvalid, hstays, if_true, Bool.false_eq_true, if_false, ite_self]

/-! ## RX SCs and TX SAs (R262, R270) -/

theorem rxScWrite_completes {p : Fin 32} {e : Fin 16} {k : Nat} (hk : k = 0x08480000 + 512 * p.val + 32 * e.val)
    (hmay : s.mayWrite r (k + 8) = true) (hc : s.canon = true) :
    (bitAt (s.rd k) 31 = false → completes (.rxScWrite r p e 2 v) s fun t => t.rd (k + 8) = v.toNat ∧ QuietFrame (fun j => j == k + 8) s s t) ∧
    (bitAt (s.rd k) 31 = true → completes (.rxScWrite r p e 2 v) s fun t => t = s) := by
  have hrun : exec (.rxScWrite r p e 2 v) s = ok (if bitAt (s.rd k) 31 then s else s.wr (k + 8) v.toNat) := by
    have hword : 0x08480000 + 4 * (128 * p.val + 8 * e.val + 2) = k + 8 := by omega
    have hhead : 0x08480000 + 32 * ((128 * p.val + 8 * e.val + 2) / 8) = k := by omega
    have hindex : (128 * p.val + 8 * e.val + 2) % 8 = 2 := by omega
    change ok (s.writeRxSc r (128 * p.val + 8 * e.val + 2) v.toNat) = _
    simp [State.writeRxSc, hword, hhead, hmay, hindex]
  refine ⟨fun hfree => ⟨_, hrun, ?_⟩, fun hvalid => ⟨_, hrun, by rw [hvalid, if_pos rfl]⟩⟩
  rw [hfree, if_neg Bool.false_ne_true]
  exact ⟨(rd_wr_same hc).trans (Nat.mod_eq_of_lt v.isLt), (writes_wr (Writes.refl s) (by simp)).quietFrame hc⟩

/-- The row of CKU_MSEC_PORT, whose EN and UNCTRL are sealed. -/
def msecPortRow : WordRow := ⟨0x08001400, 4, 32, [⟨31, 31, .sl, 0⟩, ⟨30, 30, .sl, 0⟩, ⟨29, 24, .rw, 0⟩, ⟨13, 0, .rw, 0⟩]⟩

theorem rowOf_msecPort (p : Fin 32) : rowOf (0x08001400 + 4 * p) = some msecPortRow :=
  rowOf_at (lo := 0x08001400) (hi := 0x08001480) (m := 1) (r := 0) 10 (rowsFor_cku (by omega)) (by omega) (by decide) (by decide)
    (by omega) (by omega) (by omega) (by decide) (by simp [WordRow.covers, msecPortRow])

theorem txSaWrite_completes {p : Fin 32} (hmay : s.mayWrite r (Reg.CKU_MSEC_PORT_TX_SA p).key = true)
    (hseal : s.flag (Reg.UNIT_SEALED 8) = true) (hc : s.canon = true) : completes (.txSaWrite r p v) s fun t =>
    t.get (Reg.CKU_MSEC_PORT_TX_SA p) = v.toNat % 2 ^ 14 ∧ t.get (Reg.CKU_MSEC_PORT_EN p) = s.get (Reg.CKU_MSEC_PORT_EN p) ∧
    NoisyFrame (fun k => words [Reg.CKU_MSEC_PORT_TX_SA p] k || logWord k) s s t := by
  have hsealed : s.sealedAt (0x08001400 + 4 * p.val) = true := by
    have hunit : unitOfKey (0x08001400 + 4 * p.val) = 8 := by
      rw [unitOfKey, show (0x08001400 + 4 * p.val) / 0x1000000 = 8 by omega]
      rfl
    rw [State.sealedAt, hunit]
    exact hseal
  have hread : ∀ {lo n : Nat} (taken : Bool), lo + n ≤ 32 →
      (∀ i, i < n → takesBit (msecPortRow.fields.filter (·.acc == .rw)) (lo + i) = taken) →
      bits ((s.writeWord r (0x08001400 + 4 * p.val) v.toNat).rd (0x08001400 + 4 * p)) lo n =
        bits (if taken then v.toNat else s.rd (0x08001400 + 4 * p)) lo n := fun taken hn h => by
    rw [rd_writeWord hc (by simp [logWord, inRange, words]; omega) (by simp [words]; omega),
      bits_setWord_sealed hc (shows_of_mayWrite hmay) (rowOf_msecPort p) (by decide) hsealed v.toNat hn h]
  have hrun : exec (.txSaWrite r p v) s = ok (s.writeWord r (0x08001400 + 4 * p.val) v.toNat) := by
    change (if s.mayWrite r (Reg.CKU_MSEC_PORT_TX_SA p).key = true then _ else _) = _
    rw [if_pos hmay]
  refine ⟨_, hrun, ?_, ?_, noisyFrame hc ?_ (writeWord_rest ..)⟩
  · exact (hread (lo := 0) (n := 14) true (by decide) (by decide)).trans (by rw [if_pos rfl, bits, pow_zero, Nat.div_one])
  · exact hread (lo := 31) (n := 1) false (by decide) (by decide)
  · exact within_writeWord (Within.refl s) (by simp [words]) (fun j hj => by simp [hj]) (fun j hj => by simp [hj])

end

/-- Settles O32: each write by the row of its word. That setting VALID clears the replay window is the model's choice (log entry 46). -/
theorem associationWritesComplete : Obligations.AssociationWritesComplete := by
  intro s hc r v
  exact ⟨fun sa hmay => ⟨saWrite_spi hc hmay, saWrite_sets hc hmay, saWrite_refused hc hmay, saWrite_clears hc hmay⟩,
    fun sa w => saWrite_held, fun p e k hk hmay => rxScWrite_completes hk hmay hc, fun p hmay hseal => txSaWrite_completes hmay hseal hc⟩

end Sys2Proof.Machine
end

section
/-! PROOFS. The links of the MAC ports (R274 to R276): REASON and its event, pauses that end, and a port that goes down. -/

namespace Sys2Proof.Machine

section
variable {s t : State} (h : t.bare = s.bare)
include h

theorem egu_of_bare : t.egu = s.egu := by
  have := congrArg State.egu h
  exact this

theorem fpu_of_bare : t.fpu = s.fpu := by
  have := congrArg State.fpu h
  exact this

theorem pxc_of_bare : t.pxc = s.pxc := by
  have := congrArg State.pxc h
  exact this

theorem sup_of_bare : t.sup = s.sup := by
  have := congrArg State.sup h
  exact this

end

/-! ## REASON (R275) -/

/-- REASON and OBS_POL of a port as a new reason leaves them. -/
def State.reasonShown (s : State) (p reason pol : Nat) : State :=
  (s.put (Reg.PXC_PORT_STATUS_REASON p) reason).put (Reg.PXC_PORT_STATUS_OBS_POL p) (if reason = 4 then pol else 0)

/-- The words that a new reason changes. -/
def reasonWord (p k : Nat) : Bool := (words [Reg.PXC_PORT_STATUS_REASON p] k || logWord k) || words [Reg.QE_ARB_LOST] k

/-- STATE and REASON of a port share no bit. -/
theorem state_off_reason (p : Fin 32) : (Reg.PXC_PORT_STATUS_STATE p).off (Reg.PXC_PORT_STATUS_REASON p) = true := by
  revert p
  decide

/-- A field of the port's status word. -/
def statusOf (p : Nat) (f : Field) : Prop := f.key = 0x02001200 + 4 * p

/-- The port statistics lie beyond what a new reason changes. -/
theorem reasonWord_stat (p : Fin 32) {k : Nat} (h : 0x02008000 ≤ k) (hk : k < 0x02010000) : reasonWord p k = false := by
  have hp := p.isLt
  rw [Bool.eq_false_iff]
  simp [reasonWord, logWord, inRange, words]
  omega

theorem report_get {u : State} (hc : u.canon = true) {f : Field} {p : Fin 32} (hf : statusOf p f) (unit : Unit') (type event pay : Nat)
    (l : List (Nat × Nat)) : ((u.hlog event 2 pay).raise unit type l).get f = u.get f := by
  have hp := p.isLt
  rw [statusOf] at hf
  have hlog : ∀ i, i < 8 → logWord (f.key + i) = false := fun i hi => by rw [hf]; simp [logWord, inRange, words]; omega
  have hlost : ∀ i, i < 8 → words [Reg.QE_ARB_LOST] (f.key + i) = false := fun i hi => by rw [hf]; simp [words]; omega
  rw [get_raise ((keeps_hlog (Keeps.refl u)).canon hc) unit type l (hlost 0 (by decide)) (hlost 4 (by decide)),
    get_hlog hc (hlog 0 (by decide)) (hlog 4 (by decide))]

theorem setReason_eq (s : State) (p reason pol : Nat) : ∃ pay, s.setReason p reason pol =
    if s.get (Reg.PXC_PORT_STATUS_REASON p) ≠ reason ∧ 4 ≤ reason ∧ reason ≤ 6 then
      ((s.reasonShown p reason pol).hlog 6 2 pay).raise .pxc 3 [(8, p), (8, reason), (8, if reason = 4 then pol else 0)]
    else s.reasonShown p reason pol := by
  refine ⟨payload [(8, p), (8, reason), (8, if reason = 4 then pol else 0)], if_congr ?_ rfl rfl⟩
  simp only [Bool.and_eq_true, bne_iff_ne, Bool.or_eq_true, beq_iff_eq]
  omega

section
variable {s : State} (hc : s.canon = true) {p : Fin 32} {reason pol : Nat}

theorem bare_setReason : (s.setReason p reason pol).bare = s.bare := by
  obtain ⟨pay, h⟩ := setReason_eq s p reason pol
  rw [h]
  split <;> simp [State.reasonShown]

theorem within_setReason {area : Nat → Bool} {s₀ : State} (h : Within area s₀ s) (harea : ∀ k, reasonWord p k = true → area k = true) :
    Within area s₀ (s.setReason p reason pol) := by
  have hkey : reasonWord p (Reg.PXC_PORT_STATUS_REASON p).key = true := by simp [reasonWord, words]
  have hshown : Within area s₀ (s.reasonShown p reason pol) :=
    within_put (within_put h (harea _ hkey) (.inl (show 11 < 32 by decide))) (harea _ hkey) (.inl (show 19 < 32 by decide))
  obtain ⟨pay, e⟩ := setReason_eq s p reason pol
  rw [e]
  exact within_ite (within_raise (within_hlog hshown fun k hk => harea k (by simp [reasonWord, hk]))
    (harea _ (by simp [reasonWord, words])) (harea _ (by simp [reasonWord, words]))) hshown

include hc

theorem canon_reasonShown : (s.reasonShown p reason pol).canon = true := canon_put (canon_put hc)

theorem canon_setReason : (s.setReason p reason pol).canon = true :=
  (within_setReason (area := reasonWord p) (p := p) (Within.refl s) fun _ => id).canon hc

/-- What a field of the status word reads rests on REASON and OBS_POL alone. -/
theorem get_setReason {f : Field} (hf : statusOf p f) : (s.setReason p reason pol).get f = (s.reasonShown p reason pol).get f := by
  obtain ⟨pay, h⟩ := setReason_eq s p reason pol
  rw [h]
  split
  · exact report_get (canon_reasonShown hc) hf ..
  · rfl

theorem reason_setReason (hreason : reason < 16) : (s.setReason p reason pol).get (Reg.PXC_PORT_STATUS_REASON p) = reason := by
  rw [get_setReason hc (f := Reg.PXC_PORT_STATUS_REASON p) rfl, State.reasonShown, get_put_off (canon_put hc) (by revert p; decide), get_put_same hc (by revert p; decide)]
  exact Nat.mod_eq_of_lt hreason

theorem obsPol_setReason (hpol : pol < 16) : (s.setReason p reason pol).get (Reg.PXC_PORT_STATUS_OBS_POL p) = if reason = 4 then pol else 0 := by
  rw [get_setReason hc (f := Reg.PXC_PORT_STATUS_OBS_POL p) rfl, State.reasonShown, get_put_same (canon_put hc) (by revert p; decide)]
  refine Nat.mod_eq_of_lt ?_
  split
  · exact hpol
  · exact Nat.two_pow_pos _

theorem portState_setReason : (s.setReason p reason pol).portState p = s.portState p := by
  rw [State.portState, get_setReason hc (f := Reg.PXC_PORT_STATUS_STATE p) rfl, State.reasonShown, get_put_off (canon_put hc) (by revert p; decide),
    get_put_off hc (by revert p; decide)]
  rfl

omit hc

/-- A difference from the image, where it is new, is raised. -/
theorem posted_setReason {s₀ : State} (hevents : s.events = s₀.events) (hnew : s.get (Reg.PXC_PORT_STATUS_REASON p) ≠ reason)
    (hlo : 4 ≤ reason) (hhi : reason ≤ 6) :
    posted s₀ (s.setReason p reason pol) .pxc 3 [(8, p), (8, reason), (8, if reason = 4 then pol else 0)] := by
  obtain ⟨pay, h⟩ := setReason_eq s p reason pol
  rw [h, if_pos ⟨hnew, hlo, hhi⟩]
  have hshown : ((s.reasonShown p reason pol).hlog 6 2 pay).events = s₀.events := by
    rw [State.hlog_events, State.reasonShown, State.put_events, State.put_events, hevents]
  exact posted_raise hshown _ _ _

/-- At most one event is raised. -/
theorem eventsOf_setReason (u : Nat) (hroom : s.eventsOf 2 < 1024) :
    (s.setReason p reason pol).eventsOf u ≤ s.eventsOf u + 1 := by
  obtain ⟨pay, h⟩ := setReason_eq s p reason pol
  have hshown : (s.reasonShown p reason pol).events = s.events := by simp [State.reasonShown]
  rw [h]
  split
  · have hroom' : (((s.reasonShown p reason pol).hlog 6 2 pay).eventsOf 2) < 1024 := by
      rw [State.eventsOf, State.hlog_events, hshown]; exact hroom
    rw [State.raise, raiseEvent_room _ _ hroom']
    simp only [State.eventsOf, State.hlog_events, hshown, List.filter_append, List.length_append]
    exact Nat.add_le_add_left ((List.length_filter_le ..).trans (by simp)) _
  · rw [State.eventsOf, hshown]
    exact Nat.le_succ _

end

/-! ## LINK_LOCK, LINK_UP and the diagnosis (R274 to R276) -/

section
variable {s : State} (hc : s.canon = true) {p : Fin 32}

theorem portState_put_same (hc : s.canon = true) {v : Nat} (hv : v < 8) : (s.put (Reg.PXC_PORT_STATUS_STATE p) v).portState p = v :=
  (get_put_same hc (by revert p; decide)).trans (Nat.mod_eq_of_lt hv)

include hc

theorem linkLock_completes (hrun : s.running .pxc = true) (hdown : s.portState p = 1) : completes (.linkLock p) s fun t =>
    t.portState p = 2 ∧ QuietFrame (words [Reg.PXC_PORT_STATUS_STATE p]) s
      { s with pxc := { s.pxc with diag := s.pxc.diag.filter (· != p.val) } } t := by
  let u : State := { s with pxc := { s.pxc with diag := s.pxc.diag.filter (· != p.val) } }
  have hexec : exec (.linkLock p) s = ok (u.put (Reg.PXC_PORT_STATUS_STATE p) 2) := by
    change (if (s.running .pxc && decide (s.portState p = 1)) = true then _ else _) = _
    rw [hrun, decide_eq_true hdown]
    rfl
  have hwithin : Within (words [Reg.PXC_PORT_STATUS_STATE p]) s (u.put (Reg.PXC_PORT_STATUS_STATE p) 2) :=
    within_put (within_same (t := u) (Within.refl s) rfl rfl rfl) (by simp [words]) (.inl (show 2 < 32 by decide))
  exact ⟨_, hexec, portState_put_same (show u.canon = true from hc) (by decide), quietFrame_of_still hc hwithin (still_put ..)⟩

theorem linkUp_completes (hrun : s.running .pxc = true) (hhold : s.portState p = 2) : completes (.linkUp p) s fun t =>
    t.portState p = 3 ∧ t.get (Reg.PXC_PORT_STATUS_REASON p) = 0 ∧ t.get (Reg.PXC_PORT_STATUS_OBS_POL p) = 0 ∧
    posted s t .pxc 1 [(8, p)] ∧ NoisyFrame (words [Reg.PXC_PORT_STATUS_STATE p]) s s t := by
  let u := s.put (Reg.PXC_PORT_STATUS_STATE p) 3
  have hu : u.canon = true := canon_put hc
  have hshown : u.setReason p 0 0 = u.reasonShown p 0 0 := by
    obtain ⟨pay, h⟩ := setReason_eq u p 0 0
    rw [h, if_neg (by omega)]
  have hset : (u.setReason p 0 0).canon = true := canon_setReason hu
  have hexec : exec (.linkUp p) s = ok ((u.setReason p 0 0).raise .pxc 1 [(8, p)]) := by
    change (if (s.running .pxc && decide (s.portState p = 2)) = true then _ else _) = _
    rw [hrun, decide_eq_true hhold]
    rfl
  have hread : ∀ {f : Field}, statusOf p f → ((u.setReason p 0 0).raise .pxc 1 [(8, p)]).get f = (u.setReason p 0 0).get f :=
    fun {f} hf => by
      have hlost : ∀ i, i < 8 → words [Reg.QE_ARB_LOST] (f.key + i) = false := fun i hi => by rw [hf]; simp [words]; omega
      exact get_raise hset _ _ _ (hlost 0 (by decide)) (hlost 4 (by decide))
  have hwithin : Within (fun k => words [Reg.PXC_PORT_STATUS_STATE p] k || words [Reg.QE_ARB_LOST] k) s (u.reasonShown p 0 0) :=
    within_put (within_put (within_put (Within.refl s) (by simp [words]) (.inl (show 2 < 32 by decide))) (by simp [words])
      (.inl (show 11 < 32 by decide))) (by simp [words]) (.inl (show 19 < 32 by decide))
  refine ⟨_, hexec, ?_, ?_, ?_, posted_raise ?_ _ _ _, noisyFrame_of_bare hc ?_ ?_⟩
  · exact (hread (f := Reg.PXC_PORT_STATUS_STATE p) rfl).trans ((portState_setReason hu).trans (portState_put_same hc (by decide)))
  · exact (hread (f := Reg.PXC_PORT_STATUS_REASON p) rfl).trans (reason_setReason hu (by decide))
  · exact (hread (f := Reg.PXC_PORT_STATUS_OBS_POL p) rfl).trans (obsPol_setReason hu (by decide))
  · simp [hshown, State.reasonShown, u]
  · rw [hshown]; exact within_raise hwithin (by simp [words]) (by simp [words])
  · rw [bare_raise, bare_setReason, bare_put]

omit hc in
theorem lockAttemptFail_completes (hrun : s.running .pxc = true) (hdown : s.portState p = 1) (hnew : p.val ∉ s.pxc.diag) :
    completes (.lockAttemptFail p) s fun t => t = { s with pxc := { s.pxc with diag := p.val :: s.pxc.diag } } := by
  refine ⟨_, ?_, rfl⟩
  change (if (s.running .pxc && decide (s.portState p = 1) && !s.pxc.diag.contains p.val) = true then _ else _) = _
  rw [hrun, decide_eq_true hdown, if_pos (by simpa using hnew)]

theorem diagnosticDone_completes {reason : Fin 9} {pol : Fin 16} (hdiag : p.val ∈ s.pxc.diag) :
    completes (.diagnosticDone p reason pol) s fun t => t.get (Reg.PXC_PORT_STATUS_REASON p) = reason + 1 ∧
    t.get (Reg.PXC_PORT_STATUS_OBS_POL p) = (if reason.val = 3 then pol.val else 0) ∧ p.val ∉ t.pxc.diag ∧
    (3 ≤ reason.val → reason.val ≤ 5 → s.get (Reg.PXC_PORT_STATUS_REASON p) ≠ reason.val + 1 →
      posted s t .pxc 3 [(8, p), (8, reason.val + 1), (8, if reason.val = 3 then pol.val else 0)]) ∧
    NoisyFrame (fun k => words [Reg.PXC_PORT_STATUS_REASON p] k || logWord k) s { s with pxc := t.pxc } t := by
  let u : State := { s with pxc := { s.pxc with diag := s.pxc.diag.filter (· != p.val) } }
  have hu : u.canon = true := hc
  have hpol : (if reason.val + 1 = 4 then pol.val else 0) = if reason.val = 3 then pol.val else 0 := if_congr (by omega) rfl rfl
  have hexec : exec (.diagnosticDone p reason pol) s = ok (u.setReason p (reason.val + 1) pol) := by
    change (if s.pxc.diag.contains p.val = true then _ else _) = _
    rw [if_pos (by simpa using hdiag)]
  have hbare : (u.setReason p (reason.val + 1) pol).bare = u.bare := bare_setReason
  have hwithin : Within (reasonWord p) s (u.setReason p (reason.val + 1) pol) :=
    within_setReason (within_same (t := u) (Within.refl s) rfl rfl rfl) fun _ => id
  refine ⟨_, hexec, reason_setReason hu (by omega), (obsPol_setReason hu pol.isLt).trans hpol, ?_, fun hlo hhi hnew => ?_,
    noisyFrame_of_bare hc hwithin ?_⟩
  · rw [pxc_of_bare hbare]
    simp [u]
  · rw [← hpol]
    exact posted_setReason (s := u) rfl hnew (by omega) (by omega)
  · rw [hbare, pxc_of_bare hbare]

theorem holdLockLoss_completes {reason : Fin 9} (hhold : s.portState p = 2) : completes (.holdLockLoss p reason) s fun t =>
    t.portState p = 1 ∧ t.get (Reg.PXC_PORT_STATUS_REASON p) = reason + 1 ∧
    (3 ≤ reason.val → reason.val ≤ 5 → s.get (Reg.PXC_PORT_STATUS_REASON p) ≠ reason.val + 1 →
      posted s t .pxc 3 [(8, p), (8, reason.val + 1), (8, 0)]) ∧
    NoisyFrame (fun k => words [Reg.PXC_PORT_STATUS_REASON p] k || logWord k) s s t := by
  let u := s.put (Reg.PXC_PORT_STATUS_STATE p) 1
  have hu : u.canon = true := canon_put hc
  have hexec : exec (.holdLockLoss p reason) s = ok (u.setReason p (reason.val + 1) 0) := by
    change (if s.portState p = 2 then _ else _) = _
    rw [if_pos hhold]
  have hwithin : Within (reasonWord p) s (u.setReason p (reason.val + 1) 0) :=
    within_setReason (within_put (Within.refl s) (by simp [reasonWord, words]) (.inl (show 2 < 32 by decide))) fun _ => id
  refine ⟨_, hexec, (portState_setReason hu).trans (portState_put_same hc (by decide)), reason_setReason hu (by omega),
    fun hlo hhi hnew => ?_, noisyFrame_of_bare hc hwithin (bare_setReason.trans (bare_put ..))⟩
  have hold : u.get (Reg.PXC_PORT_STATUS_REASON p) = s.get (Reg.PXC_PORT_STATUS_REASON p) := get_put_off hc (state_off_reason p)
  have hposted := posted_setReason (p := p) (reason := reason.val + 1) (pol := 0) (s := u) (s₀ := s) (State.put_events ..) (by rw [hold]; exact hnew)
    (by omega) (by omega)
  rwa [ite_self] at hposted

end

/-! ## Pauses (R284, R285) -/

/-- From `s` to `t` pauses and what time moves change, and words of `area`. -/
structure PauseChange (area : Nat → Bool) (s t : State) : Prop where
  within : Within area s t
  rest : t = { settled { s with pxc := { s.pxc with paused := t.pxc.paused } } t with regs := t.regs }

section
variable {area : Nat → Bool} {s₀ s t : State}

theorem PauseChange.refl (s : State) : PauseChange area s s := ⟨Within.refl s, rfl⟩

theorem PauseChange.trans (h : PauseChange area s₀ s) (g : PauseChange area s t) : PauseChange area s₀ t :=
  ⟨h.within.trans g.within, by rw [g.rest, h.rest]; rfl⟩

theorem PauseChange.mono {more : Nat → Bool} (h : PauseChange area s t) (hm : ∀ k, area k = true → more k = true) : PauseChange more s t :=
  ⟨h.within.mono hm, h.rest⟩

theorem Settles.pauseChange (h : Settles s t) : PauseChange settleWord s t := ⟨h.within, by rw [h.rest]; rfl⟩

theorem Writes.pauseChange (h : Writes area s t) : PauseChange area s t := ⟨h.within, by rw [h.rest]; rfl⟩

theorem pauseChange_paused (s : State) (l : List (Nat × Nat)) : PauseChange area s { s with pxc := { s.pxc with paused := l } } :=
  ⟨within_same (Within.refl s) rfl rfl rfl, rfl⟩

theorem PauseChange.quietFrame (h : PauseChange area s t) (hc : s.canon = true) :
    QuietFrame area s (settled { s with pxc := { s.pxc with paused := t.pxc.paused } } t) t := Machine.quietFrame hc h.within h.rest

variable (h : PauseChange area s t)
include h

theorem PauseChange.holdoff : t.pxc.holdoff = s.pxc.holdoff := by rw [h.rest]; rfl
theorem PauseChange.tx : t.egu.tx = s.egu.tx := by rw [h.rest]; rfl
theorem PauseChange.queues : t.egu.queues = s.egu.queues := by rw [h.rest]; rfl
theorem PauseChange.shaper : t.egu.shaper = s.egu.shaper := by rw [h.rest]; rfl
theorem PauseChange.fpu : t.fpu = s.fpu := by rw [h.rest]; rfl
theorem PauseChange.events : t.events = s.events := by rw [h.rest]; rfl

end

/-- The words that the end of a pause changes. -/
def pauseWord (p k : Nat) : Bool := words [Reg.PXC_PORT_STATUS_PORT_PAUSED p, statField p 21] k || settleWord k

theorem pauseField_key (p c : Nat) : (pauseField p c).key = 0x02001200 + 4 * p := by unfold pauseField; split <;> rfl

theorem pauseField_off (p : Fin 32) (c : Fin 9) : (pauseField p c).ok = true ∧ (pauseField p c).hi < 32 ∧ (pauseField p c).width = 1 ∧
    (pauseField p c).off (Reg.PXC_PORT_STATUS_STATE p) = true ∧ (pauseField p c).off (Reg.PXC_PORT_STATUS_REASON p) = true := by
  revert p c
  decide

section
variable {s : State} {p : Fin 32}

/-- The state as a pause ends, its time counted up to now. -/
def State.pauseCounted (s : State) (p c : Nat) : State := s.settle.when (c = 8) (fun s => s.accruePause p)

/-- The state with other pauses. -/
def State.withPaused (s : State) (l : List (Nat × Nat)) : State := { s with pxc := { s.pxc with paused := l } }

theorem get_withPaused (s : State) (l : List (Nat × Nat)) (f : Field) : (s.withPaused l).get f = s.get f := rfl

theorem accruePause_cases (s : State) (p : Nat) : s.accruePause p = s ∨
    ∃ n, s.accruePause p = (s.withPaused (Assoc.set s.pxc.paused (pauseKey p 8) s.localNs)).stat p 21 n ∧ s.isPaused p 8 = true := by
  unfold State.accruePause
  split
  next t ht => exact .inr ⟨_, rfl, by rw [State.isPaused, ht]; rfl⟩
  next => exact .inl rfl



theorem accruePause_change (s : State) (p : Fin 32) : PauseChange (pauseWord p) s (s.accruePause p) := by
  obtain h | ⟨n, h, -⟩ := accruePause_cases s p
  · rw [h]
    exact PauseChange.refl s
  · rw [h]
    exact (pauseChange_paused s _).trans ((writes_stat (Writes.refl _) (List.mem_singleton_self _) n).pauseChange.mono fun k hk => by
      simp only [words, List.any_cons, List.any_nil, Bool.or_false] at hk
      simp [pauseWord, words, hk])

/-- A status field reads as before while a pause's time is counted. -/
theorem get_accruePause {s : State} (hc : s.canon = true) {p : Fin 32} {f : Field} (hstatus : statusOf p f) :
    (s.accruePause p).get f = s.get f := by
  have hp := p.isLt
  rw [statusOf] at hstatus
  obtain h | ⟨n, h, -⟩ := accruePause_cases s p
  · rw [h]
  · rw [h]
    exact (writes_stat (Writes.refl (s.withPaused _)) (List.mem_singleton_self _) n).get_eq hc
      (by rw [hstatus]; simp [words, statField]; omega) (by rw [hstatus]; simp [words, statField]; omega)

theorem pauseCounted_change (s : State) (p : Fin 32) (c : Nat) : PauseChange (pauseWord p) s (s.pauseCounted p c) := by
  have hsettled : PauseChange (pauseWord p) s s.settle :=
    (settles_settle s).pauseChange.mono fun k hk => by rw [pauseWord, hk, Bool.or_true]
  unfold State.pauseCounted State.when
  split
  · exact hsettled.trans (accruePause_change _ p)
  · exact hsettled

theorem endPause_eq {c : Nat} (hpaused : s.isPaused p c = true) : s.endPause p c =
    ((s.pauseCounted p c).withPaused (Assoc.erase (s.pauseCounted p c).pxc.paused (pauseKey p c))).put (pauseField p c) 0 :=
  if_pos hpaused

theorem endPause_change (s : State) (p : Fin 32) (c : Fin 9) : PauseChange (pauseWord p) s (s.endPause p c) := by
  by_cases h : s.isPaused p c = true
  · rw [endPause_eq h]
    refine ((pauseCounted_change s p c).trans (pauseChange_paused _ _)).trans
      (Writes.pauseChange (writes_put (Writes.refl _) ?_ (.inl (pauseField_off p c).2.1)))
    rw [pauseField_key]
    simp [pauseWord, words]
  · rw [State.endPause, if_neg h]
    exact PauseChange.refl s

theorem pauseKey_inj {p c d : Nat} : pauseKey p c = pauseKey p d ↔ c = d := by unfold pauseKey; omega

/-- Counting a pause's time up to now begins and ends none. -/
theorem isPaused_pauseCounted (s : State) (p c d : Nat) : (s.pauseCounted p c).isPaused p d = s.isPaused p d := by
  have hsettled : s.settle.pxc = s.pxc := by rw [(settles_settle s).rest]; rfl
  unfold State.pauseCounted State.when
  split
  · dsimp only
    obtain h | ⟨n, h, hpaused⟩ := accruePause_cases s.settle p
    · rw [h, State.isPaused, hsettled]; rfl
    · rw [h, State.isPaused, State.stat, State.bumpBy, State.put_pxc]
      change (Assoc.get? (Assoc.set s.settle.pxc.paused _ _) _).isSome = _
      by_cases hd : d = 8
      · subst hd
        rw [State.isPaused, hsettled] at hpaused
        rw [Assoc.get?_set_same]
        exact hpaused.symm
      · rw [Assoc.get?_set_ne _ _ (by rw [Ne, pauseKey_inj]; exact hd), State.isPaused, hsettled]
  · rw [State.isPaused, hsettled]; rfl

theorem isPaused_endPause (s : State) (p c d : Nat) : (s.endPause p c).isPaused p d = (d != c && s.isPaused p d) := by
  by_cases h : s.isPaused p c = true
  · rw [State.endPause, if_pos h]
    change (Assoc.get? (State.put _ _ _).pxc.paused _).isSome = _
    rw [State.put_pxc]
    change (Assoc.get? (Assoc.erase (s.pauseCounted p c).pxc.paused (pauseKey p c)) (pauseKey p d)).isSome = _
    by_cases hd : d = c
    · subst hd
      rw [Assoc.get?_erase_same]
      simp
    · rw [Assoc.get?_erase_ne _ (by rw [Ne, pauseKey_inj]; exact hd)]
      have hkept := isPaused_pauseCounted s p c d
      rw [State.isPaused] at hkept
      rw [hkept]
      simp [hd]
  · rw [State.endPause, if_neg h]
    by_cases hd : d = c
    · subst hd
      simpa using h
    · simp [hd]

theorem endPauses_change (l : List Nat) (hl : ∀ c ∈ l, c < 9) (s : State) (p : Fin 32) :
    PauseChange (pauseWord p) s (l.foldl (fun s c => s.endPause p c) s) := by
  induction l generalizing s with
  | nil => exact PauseChange.refl s
  | cons c l ih =>
    exact (endPause_change s p ⟨c, hl c List.mem_cons_self⟩).trans (ih (fun d hd => hl d (List.mem_cons_of_mem _ hd)) _)

theorem isPaused_endPauses (l : List Nat) (s : State) (p d : Nat) :
    (l.foldl (fun s c => s.endPause p c) s).isPaused p d = (!l.contains d && s.isPaused p d) := by
  induction l generalizing s with
  | nil => simp
  | cons c l ih =>
    rw [List.foldl_cons, ih, isPaused_endPause, List.contains_cons]
    rw [Bool.not_or, Bool.and_left_comm, Bool.and_assoc, bne]

theorem clearPauses_change (s : State) (p : Fin 32) : PauseChange (pauseWord p) s (s.clearPauses p) :=
  endPauses_change _ (fun _ => List.mem_range.mp) s p

theorem isPaused_clearPauses (s : State) (p : Nat) {c : Nat} (hc : c < 9) : (s.clearPauses p).isPaused p c = false := by
  rw [State.clearPauses, isPaused_endPauses, List.contains_iff_mem.mpr (List.mem_range.mpr hc)]
  rfl

end

/-! ## LINK_DOWN (R276, R287) -/

/-- The words of TE that forgetting a port changes. -/
def bmcaWord (k : Nat) : Bool := words [Reg.TE_SYNC_STATE_PORT, Reg.TE_SYNC_STATE_GM_INDEX] k

theorem teChange_runBmca (s : State) : TeChange bmcaWord s s.runBmca := by
  unfold State.runBmca
  dsimp only
  generalize bestAnnounce _ = best
  have hport : ∀ v, TeChange bmcaWord s (s.put Reg.TE_SYNC_STATE_PORT v) := fun v =>
    teChange_put (TeChange.refl s) (by decide) (.inl (by decide))
  cases best with
  | none =>
    dsimp only [Option.map_none]
    split
    · exact hport _
    · exact teChange_raise (teChange_withTe (hport _) _)
  | some k =>
    dsimp only [Option.map_some]
    split
    · exact hport _
    · exact teChange_raise (teChange_put (teChange_withTe (hport _) _) (by decide) (.inl (by decide)))

theorem teChange_forgetPort (s : State) (p : Nat) : TeChange bmcaWord s (s.forgetPort p) := by
  unfold State.forgetPort
  split
  · exact (teChange_withTe (TeChange.refl s) _).trans (teChange_runBmca _)
  · exact TeChange.refl s

theorem autoFlush_eq (s : State) (p : Nat) : ∃ x : FtuState, s.autoFlush p = { s with ftu := x } := by
  unfold State.autoFlush
  split
  · exact ⟨_, rfl⟩
  · exact ⟨s.ftu, rfl⟩

theorem abortTx_idle {s : State} {p : Nat} (h : Assoc.get? s.egu.tx p = none) : s.abortTx p = s := by rw [State.abortTx, h]

theorem flushPort_empty {s : State} {p : Nat} (hq : s.egu.queues = []) (hs : s.egu.shaper = []) : s.flushPort p = s := by
  rw [State.flushPort, hq, hs]
  rfl

/-- A port as its link goes down: DOWN, the loss counted, no pause left. -/
def State.linkLost (s : State) (p : Nat) : State := ((s.settle.put (Reg.PXC_PORT_STATUS_STATE p) 1).stat p 22 1).clearPauses p

/-- The words that change as a link goes down. -/
def downWord (p k : Nat) : Bool := words [Reg.PXC_PORT_STATUS_STATE p, statField p 22] k || pauseWord p k

section
variable {s : State} {p : Fin 32}

theorem linkLost_change (s : State) (p : Fin 32) : PauseChange (downWord p) s (s.linkLost p) := by
  have hsettled : PauseChange (downWord p) s s.settle := (settles_settle s).pauseChange.mono fun k hk => by simp [downWord, pauseWord, hk]
  have hcounted : Writes (downWord p) s.settle ((s.settle.put (Reg.PXC_PORT_STATUS_STATE p) 1).stat p 22 1) :=
    writes_put (f := statField p 22) (writes_put (Writes.refl _) (by simp [downWord, words]) (.inl (show 2 < 32 by decide)))
      (by simp [downWord, words]) (.inr (by simp [downWord, words, statField]))
  exact (hsettled.trans hcounted.pauseChange).trans ((clearPauses_change _ p).mono fun k hk => by simp [downWord, hk])

variable (hc : s.canon = true)
include hc

theorem canon_linkLost : (s.linkLost p).canon = true := (linkLost_change s p).within.canon hc

/-- A field of the port's status word reads as before while a pause's time is counted. -/
theorem pauseCounted_get (c : Nat) {f : Field} (hstatus : statusOf p f) : (s.pauseCounted p c).get f = s.get f := by
  have hset : ∀ i, i < 8 → settleWord (f.key + i) = false := fun i hi => by
    have hp := p.isLt
    rw [statusOf] at hstatus
    rw [hstatus]
    simp [settleWord, inRange]
    omega
  have hsettled : s.settle.get f = s.get f := (settles_settle s).within.get_eq hc (hset 0 (by decide)) (hset 4 (by decide))
  unfold State.pauseCounted State.when
  split
  · exact (get_accruePause (canon_settle hc) hstatus).trans hsettled
  · exact hsettled

theorem endPause_get (c : Fin 9) {f : Field} (hstatus : statusOf p f) (hoff : (pauseField p c).off f = true) :
    (s.endPause p c).get f = s.get f := by
  by_cases h : s.isPaused p c = true
  · have hcounted : ((s.pauseCounted p c).withPaused (Assoc.erase (s.pauseCounted p c).pxc.paused (pauseKey p c))).canon = true :=
      (pauseCounted_change s p c).within.canon hc
    rw [endPause_eq h, get_put_off hcounted hoff, get_withPaused]
    exact pauseCounted_get hc c hstatus
  · rw [State.endPause, if_neg h]

/-- A field of the port's status word that shows no pause is left alone as pauses end. -/
theorem endPauses_get (l : List Nat) (hl : ∀ c ∈ l, c < 9) {f : Field} (hstatus : statusOf p f)
    (hoff : ∀ c : Fin 9, (pauseField p c).off f = true) : (l.foldl (fun s c => s.endPause p c) s).get f = s.get f := by
  induction l generalizing s with
  | nil => rfl
  | cons c l ih =>
    exact (ih ((endPause_change s p ⟨c, hl c List.mem_cons_self⟩).within.canon hc) fun d hd => hl d (List.mem_cons_of_mem _ hd)).trans
      (endPause_get hc ⟨c, hl c List.mem_cons_self⟩ hstatus (hoff ⟨c, hl c List.mem_cons_self⟩))

/-- What `linkLost` has counted and shown, before pauses end. -/
theorem linkLost_reads : (s.linkLost p).portState p = 1 ∧ (s.linkLost p).get (statField p 22) = (s.get (statField p 22) + 1) % 2 ^ 64 ∧
    ∀ c, c < 9 → (s.linkLost p).isPaused p c = false := by
  have hp := p.isLt
  have hs := canon_settle hc
  have hput : (s.settle.put (Reg.PXC_PORT_STATUS_STATE p) 1).canon = true := canon_put hs
  have hbase : ((s.settle.put (Reg.PXC_PORT_STATUS_STATE p) 1).stat p 22 1).canon = true := canon_put hput
  have hok : (statField p 22).ok = true := by simp [Field.ok, statField]; omega
  refine ⟨?_, ?_, fun _ hlt => isPaused_clearPauses _ _ hlt⟩
  · refine (endPauses_get hbase _ (fun c hl => List.mem_range.mp hl) (f := Reg.PXC_PORT_STATUS_STATE p) rfl
      fun c => (pauseField_off p c).2.2.2.1).trans ?_
    refine (get_put_apart hput hok (by simp [Field.ok]) (.inr ?_)).trans (portState_put_same hs (by decide))
    simp [statField, Field.at, Field.width]
    omega
  · have hcleared : (s.linkLost p).get (statField p 22) = ((s.settle.put (Reg.PXC_PORT_STATUS_STATE p) 1).stat p 22 1).get (statField p 22) := by
      refine (clearPauses_change _ p).within.get_eq hbase ?_ ?_
      all_goals simp [pauseWord, words, statField, settleWord, inRange]; omega
    have hcount : s.settle.get (statField p 22) = s.get (statField p 22) :=
      (settles_settle s).within.get_eq hc (by simp [statField, settleWord, inRange]; omega) (by simp [statField, settleWord, inRange]; omega)
    rw [hcleared, State.stat, State.bumpBy, get_put_same hput hok,
      get_put_apart hs (by simp [Field.ok]) hok (.inl (by simp [statField, Field.at, Field.width]; omega)), hcount]
    rfl

end

/-- An event raised after updates that raised at most one stands in the store. -/
theorem mem_events_raise {t : State} {u : Unit'} {type : Nat} {l : List (Nat × Nat)} (h : t.eventsOf u.num < 1024) :
    (⟨u.num, type, 0, .pf, payload l⟩ : Event) ∈ (t.raise u type l).events := by
  rw [State.raise, raiseEvent_room _ _ h]
  exact List.mem_append_right _ (List.mem_singleton_self _)

theorem linkDown_completes {s : State} {p : Fin 32} {reason : Fin 9} {o : Nat} (hc : s.canon = true) (hup : s.portUp p = true)
    (htx : Assoc.get? s.egu.tx p = none) (hqueues : s.egu.queues = []) (hshaper : s.egu.shaper = []) :
    completes (.linkDown p reason o) s fun t => t.portState p = 1 ∧ t.get (Reg.PXC_PORT_STATUS_REASON p) = reason + 1 ∧
      t.get (statField p 22) = (s.get (statField p 22) + 1) % 2 ^ 64 ∧ (∀ c, c ≤ 8 → t.isPaused p c = false) ∧ t.fpu = s.fpu ∧
      (s.eventsOf 2 < 1023 → (⟨2, 2, 0, .pf, payload [(8, p), (8, reason.val + 1)]⟩ : Event) ∈ t.events) := by
  have hp := p.isLt
  let m := s.moment o
  have hmoment : Writes (words [Reg.TE_OFFSET]) s m := writes_moment s o
  have hm : m.canon = true := hmoment.canon hc
  let u := (m.linkLost p).setReason p (reason.val + 1) 0
  let v := u.raise .pxc 2 [(8, p), (8, reason.val + 1)]
  have hlost : (m.linkLost p).canon = true := canon_linkLost hm
  have hu : u.canon = true := canon_setReason hlost
  have hubare : v.bare = (m.linkLost p).bare := (bare_raise ..).trans bare_setReason
  have hegu : v.egu = (m.linkLost p).egu := egu_of_bare hubare
  have hchange := linkLost_change m p
  have hmegu : m.egu = s.egu := moment_egu s o
  have hidle : v.abortTx p = v := abortTx_idle (by rw [hegu, hchange.tx, hmegu]; exact htx)
  have hempty : v.flushPort p = v :=
    flushPort_empty (by rw [hegu, hchange.queues, hmegu]; exact hqueues) (by rw [hegu, hchange.shaper, hmegu]; exact hshaper)
  obtain ⟨x, hflush⟩ := autoFlush_eq v p
  have hforget := teChange_forgetPort ({ v with ftu := x } : State) p
  have hexec : exec (.linkDown p reason o) s = ok (({ v with ftu := x } : State).forgetPort p) := by
    have hmup : m.portUp p = true := by
      rw [State.portUp, State.portState, hmoment.get_eq hc (by simp [words]; omega) (by simp [words]; omega)]; exact hup
    change (if m.portUp p = true then ok ((((v.abortTx p).flushPort p).autoFlush p).forgetPort p) else ok m) = _
    rw [if_pos hmup, hidle, hempty, hflush]
  have hv : v.canon = true := (within_raise (area := words [Reg.QE_ARB_LOST]) (Within.refl u) (by decide) (by decide)).canon hu
  have hend : ∀ {f : Field}, bmcaWord f.key = false → bmcaWord (f.key + 4) = false → words [Reg.QE_ARB_LOST] f.key = false →
      words [Reg.QE_ARB_LOST] (f.key + 4) = false → (({ v with ftu := x } : State).forgetPort p).get f = u.get f :=
    fun h1 h2 h3 h4 => (hforget.get_eq hv (by rw [h1, h3]; rfl) (by rw [h2, h4]; rfl)).trans (get_raise hu _ _ _ h3 h4)
  obtain ⟨hstate, hcount, hpaused⟩ := linkLost_reads (p := p) hm
  have hpxc : (({ v with ftu := x } : State).forgetPort p).pxc = (m.linkLost p).pxc := by
    have hsame : v.pxc = (m.linkLost p).pxc := pxc_of_bare hubare
    rw [hforget.rest]
    exact hsame
  refine ⟨_, hexec, ?_, ?_, ?_, fun c hle => ?_, ?_, fun hroom => ?_⟩
  · exact (hend (f := Reg.PXC_PORT_STATUS_STATE p) (by simp [bmcaWord, words]; omega) (by simp [bmcaWord, words]; omega)
      (by simp [words]; omega) (by simp [words]; omega)).trans ((portState_setReason hlost).trans hstate)
  · exact (hend (by simp [bmcaWord, words]; omega) (by simp [bmcaWord, words]; omega)
      (by simp [words]; omega) (by simp [words]; omega)).trans (reason_setReason hlost (by omega))
  · refine (hend (by simp [bmcaWord, words, statField]; omega) (by simp [bmcaWord, words, statField]; omega)
      (by simp [words, statField]; omega) (by simp [words, statField]; omega)).trans ?_
    rw [(within_setReason (area := reasonWord p) (p := p) (Within.refl (m.linkLost p)) fun _ => id).get_eq hlost
      (reasonWord_stat p (by simp [statField]; omega) (by simp [statField]; omega))
      (reasonWord_stat p (by simp [statField]; omega) (by simp [statField]; omega)),
      hcount, hmoment.get_eq hc (by simp [words, statField]; omega) (by simp [words, statField]; omega)]
  · rw [State.isPaused, hpxc]
    exact hpaused c (by omega)
  · have hsame : v.fpu = (m.linkLost p).fpu := fpu_of_bare hubare
    rw [hforget.rest]
    exact hsame.trans (hchange.fpu.trans (by rw [hmoment.rest]))
  · have hevents : (m.linkLost p).events = s.events := hchange.events.trans (by rw [hmoment.rest])
    have hfew : u.eventsOf 2 < 1024 := by
      have hstart : (m.linkLost p).eventsOf 2 = s.eventsOf 2 := by rw [State.eventsOf, State.eventsOf, hevents]
      have hgrown : u.eventsOf 2 ≤ (m.linkLost p).eventsOf 2 + 1 := eventsOf_setReason (p := p) (reason := reason.val + 1) (pol := 0) 2 (show (m.linkLost p).eventsOf 2 < 1024 by omega)
      omega
    exact hforget.within.kept.subset (mem_events_raise hfew)

/-- Settles O9: clause by clause; a port that goes down by what ends its pauses and what TE forgets leave alone. -/
theorem linkCommandsComplete : Obligations.LinkCommandsComplete := by
  intro s hc hrun p
  exact ⟨linkLock_completes hc hrun, linkUp_completes hc hrun, lockAttemptFail_completes hrun,
    fun reason pol => diagnosticDone_completes hc, fun reason => holdLockLoss_completes hc, fun reason o => linkDown_completes hc⟩

end Sys2Proof.Machine
end

section
/-! PROOFS. The pauses of the MAC ports (R284, R285, R287). -/

namespace Sys2Proof.Machine

/-- PXC_PAUSE_CFG of a port. -/
def pauseCfgRow : WordRow := ⟨0x02001500, 4, 32, [⟨31, 30, .rw, 0⟩, ⟨29, 12, .rw, 0x000007D0⟩, ⟨11, 0, .rw, 0x000003E8⟩]⟩

theorem rowsFor_pxc {k : Nat} (hk : k / 0x1000000 = 2) : rowsFor k = pxcRows := by rw [rowsFor, hk]; rfl

theorem rowOf_pauseCfg (p : Fin 32) : rowOf (0x02001500 + 4 * p) = some pauseCfgRow :=
  rowOf_at (lo := 0x02001500) (hi := 0x02001580) (m := 4) (r := 0) 7 (rowsFor_pxc (by omega)) (by omega) (by decide) (by decide)
    (by omega) (by omega) (by omega) (by decide) (by simp [WordRow.covers, pauseCfgRow])

/-- Where a row's fields take every bit of the word, the word reads what was written. -/
theorem rd_setWord_whole {s : State} {k : Nat} {row : WordRow} (hc : s.canon = true) (hshow : s.shows k = true) (hrow : rowOf k = some row)
    (hplain : row.plain = true) (hwhole : ∀ i, i < 32 → takesBit row.fields i = true) {v : Nat} (hv : v < 2 ^ 32) :
    (s.setWord k v).rd k = v := by
  have hbits : ∀ {w : Nat}, w < 2 ^ 32 → bits w 0 32 = w := fun hw => by rw [bits, pow_zero, Nat.div_one, Nat.mod_eq_of_lt hw]
  have htaken := bits_setWord_taken hc hshow hrow hplain v (lo := 0) (n := 32) (by decide) fun i hi => by rw [Nat.zero_add]; exact hwhole i hi
  have hread : bits ((s.setWord k v).rd k) 0 32 = (s.setWord k v).rd k := hbits (BitVec.isLt _)
  rwa [hread, hbits hv] at htaken

theorem portPaused_ok (p : Fin 32) : (Reg.PXC_PORT_STATUS_PORT_PAUSED p).ok = true := by
  revert p
  decide

/-! ## A PAUSE frame (R284) -/

theorem beAt_quanta (n : BitVec 16) (l : Bytes) : beAt (toBE 2 1 ++ (toBE 2 n.toNat ++ l)) 2 2 = n.toNat := by
  have hn := n.isLt
  change (0 * 256 + (BitVec.ofNat 8 (n.toNat / 256)).toNat) * 256 + (BitVec.ofNat 8 n.toNat).toNat = n.toNat
  rw [BitVec.toNat_ofNat, BitVec.toNat_ofNat]
  omega

/-- The body of a PAUSE frame, from its opcode. -/
def pauseBody (n : BitVec 16) : Bytes := toBE 2 1 ++ (toBE 2 n.toNat ++ [])



section
variable {s : State} {p : Fin 32}

theorem writes_statRx (s : State) (p : Nat) (frame : Bytes) :
    Writes (words [statField p 0, statField p 1, statField p 2, statField p 3]) s (s.statRx p frame) :=
  writes_statCast (writes_stat (writes_stat (Writes.refl _) (by simp) _) (by simp) _) (by simp) (by simp) frame

theorem isPaused_of_pxc {s t : State} {p c : Nat} (h : t.pxc = s.pxc) : t.isPaused p c = s.isPaused p c := by
  rw [State.isPaused, State.isPaused, h]

/-- The words that the beginning of a pause changes. -/
def startWord (p k : Nat) : Bool := words [Reg.PXC_PORT_STATUS_PORT_PAUSED p] k || settleWord k

/-- A pause that begins. -/
theorem startPause_eq {c : Nat} (hfree : s.isPaused p c = false) : s.startPause p c =
    (s.settle.withPaused (Assoc.set s.settle.pxc.paused (pauseKey p c) s.settle.localNs)).put (pauseField p c) 1 :=
  if_neg (by rw [hfree]; decide)

theorem isPaused_startPause {c : Nat} (hfree : s.isPaused p c = false) : (s.startPause p c).isPaused p c = true := by
  have hset : Assoc.get? (s.settle.withPaused (Assoc.set s.settle.pxc.paused (pauseKey p c) s.settle.localNs)).pxc.paused (pauseKey p c) =
      some s.settle.localNs := Assoc.get?_set_same ..
  rw [startPause_eq hfree, State.isPaused, State.put_pxc, hset]
  rfl

theorem startPause_change {c : Fin 9} (hfree : s.isPaused p c = false) : PauseChange (startWord p) s (s.startPause p c) := by
  rw [startPause_eq hfree]
  refine (((settles_settle s).pauseChange.mono fun k hk => ?_).trans (pauseChange_paused _ _)).trans
    (Writes.pauseChange (writes_put (Writes.refl _) ?_ (.inl (pauseField_off p c).2.1)))
  · simp [startWord, hk]
  · rw [pauseField_key]
    simp [startWord, words]

theorem startPause_field (hc : s.canon = true) (hfree : s.isPaused p 8 = false) :
    (s.startPause p 8).get (Reg.PXC_PORT_STATUS_PORT_PAUSED p) = 1 := by
  have hset : (s.settle.withPaused (Assoc.set s.settle.pxc.paused (pauseKey p 8) s.settle.localNs)).canon = true := canon_settle hc
  rw [startPause_eq hfree]
  exact get_put_same hset (portPaused_ok p)

/-- Under MODE 1 a PAUSE frame that no hold-off ignores pauses the port. -/
theorem macControl_pause {n : BitVec 16} (hmode : (s.stat p 7 1).get (Reg.PXC_PAUSE_CFG_MODE p) = 1) (hn : n ≠ 0)
    (hfree : pauseKey p 8 ∉ s.pxc.holdoff) : s.macControl p (pauseBody n) = (s.stat p 7 1).startPause p 8 := by
  have hne : n.toNat ≠ 0 := fun h => hn (BitVec.eq_of_toNat_eq h)
  have hop : beAt (pauseBody n) 0 2 = 1 := rfl
  have hquanta : beAt (pauseBody n) 2 2 = n.toNat := beAt_quanta n []
  have hheld : (s.stat p 7 1).pxc.holdoff.contains (pauseKey p 8) = false := by
    rw [State.stat, State.bumpBy, State.put_pxc]; simpa using hfree
  unfold State.macControl
  dsimp only
  rw [hmode, hop, hquanta, hheld]
  simp [State.pauseFor, hne]

/-- A statistic of the port among words that an update does not reach. -/
theorem get_stat_eq {area : Nat → Bool} {s t : State} {p : Fin 32} {i : Nat} (h : Within area s t) (hc : s.canon = true)
    (harea : ∀ k, 0x02008000 + 256 * p.val + 8 * i ≤ k → k < 0x02008000 + 256 * p.val + 8 * i + 8 → area k = false) :
    t.get (statField p i) = s.get (statField p i) :=
  h.get_eq hc (harea _ (by simp [statField]) (by simp [statField])) (harea _ (by simp [statField]) (by simp [statField]))

theorem statField_ok (p i : Nat) : (statField p i).ok = true := by simp [Field.ok, statField]; omega

theorem get_stat_same (hc : s.canon = true) (p i : Nat) : (s.stat p i 1).get (statField p i) = (s.get (statField p i) + 1) % 2 ^ 64 :=
  get_put_same hc (statField_ok p i)

theorem pauseWord_stat {i : Nat} (hi : i < 32) (hne : i ≠ 21) {k : Nat} (hlo : 0x02008000 + 256 * p.val + 8 * i ≤ k)
    (hhi : k < 0x02008000 + 256 * p.val + 8 * i + 8) : pauseWord p k = false := by
  have hp := p.isLt
  rw [Bool.eq_false_iff]
  simp [pauseWord, words, statField, settleWord, inRange]
  omega

theorem startWord_stat {i : Nat} (hi : i < 32) {k : Nat} (hlo : 0x02008000 + 256 * p.val + 8 * i ≤ k)
    (hhi : k < 0x02008000 + 256 * p.val + 8 * i + 8) : startWord p k = false := by
  have hp := p.isLt
  rw [Bool.eq_false_iff]
  simp [startWord, words, settleWord, inRange]
  omega

theorem words_moment_stat {i : Nat} {k : Nat} (hlo : 0x02008000 + 256 * p.val + 8 * i ≤ k) : words [Reg.TE_OFFSET] k = false := by
  rw [Bool.eq_false_iff]
  simp [words]
  omega

variable (hc : s.canon = true)
include hc

theorem pauseFrame_completes {n : BitVec 16} (o : Nat) (hrun : s.running .pxc = true) (hup : s.portUp p = true)
    (hmode : s.get (Reg.PXC_PAUSE_CFG_MODE p) = 1) (hn : n ≠ 0) (hfree : pauseKey p 8 ∉ s.pxc.holdoff) (hnew : s.isPaused p 8 = false) :
    completes (.pauseFrame p o 1 0 [n]) s fun t => t.isPaused p 8 = true ∧ t.get (Reg.PXC_PORT_STATUS_PORT_PAUSED p) = 1 ∧
      t.get (statField p 7) = (s.get (statField p 7) + 1) % 2 ^ 64 ∧
      QuietFrame (fun k => words ([Reg.TE_OFFSET, Reg.PXC_PORT_STATUS_PORT_PAUSED p, statField p 0, statField p 1, statField p 2,
        statField p 3, statField p 7]) k || settleWord k) s (settled { s with pxc := { s.pxc with paused := t.pxc.paused } } t) t := by
  have hp := p.isLt
  let m := s.moment o
  let frame := toBE 6 0x0180C2000001 ++ toBE 6 0 ++ toBE 2 0x8808 ++ pauseBody n
  let u := m.statRx p (frame ++ zeros (60 - frame.length))
  let v := u.stat p 7 1
  have hmoment : Writes (words [Reg.TE_OFFSET]) s m := writes_moment s o
  have hm : m.canon = true := hmoment.canon hc
  have hcounted : Writes (words [statField p 0, statField p 1, statField p 2, statField p 3]) m u := writes_statRx ..
  have hu : u.canon = true := hcounted.canon hm
  have hstat : Writes (words [statField p 7]) u v := writes_stat (Writes.refl u) (by simp) 1
  have hv : v.canon = true := hstat.canon hu
  have hpxc : v.pxc = s.pxc := by rw [hstat.rest, hcounted.rest, hmoment.rest]
  have hupxc : u.pxc = s.pxc := by rw [hcounted.rest, hmoment.rest]
  have hvnew : v.isPaused p 8 = false := (isPaused_of_pxc hpxc).trans hnew
  have hmrun : m.running .pxc = true := by
    rw [State.running, hmoment.get_eq hc (by decide) (by decide)]; exact hrun
  have hmup : m.portUp p = true := by
    rw [State.portUp, State.portState, hmoment.get_eq hc (by simp [words]; omega) (by simp [words]; omega)]; exact hup
  have hmode' : v.get (Reg.PXC_PAUSE_CFG_MODE p) = 1 := by
    rw [hstat.get_eq hu (by simp [words, statField]; omega) (by simp [words, statField]; omega),
      hcounted.get_eq hm (by simp [words, statField]; omega) (by simp [words, statField]; omega), hmoment.get_eq hc (by simp [words]; omega) (by simp [words]; omega), hmode]
  have hexec : exec (.pauseFrame p o 1 0 [n]) s = ok (v.startPause p 8) := by
    change (if (m.running .pxc && m.portUp p) = true then ok (u.macControl p (pauseBody n)) else ok m) = _
    rw [hmrun, hmup, Bool.and_true, if_pos rfl, macControl_pause hmode' hn (by rw [hupxc]; exact hfree)]
  have hpause : PauseChange (startWord p) v (v.startPause p 8) := startPause_change (c := 8) hvnew
  refine ⟨_, hexec, ?_, ?_, ?_, ?_⟩
  · exact isPaused_startPause hvnew
  · exact startPause_field hv hvnew
  · rw [get_stat_eq hpause.within hv fun k => startWord_stat (by decide), get_stat_same hu,
      get_stat_eq hcounted.within hm (fun k hlo hhi => by simp [words, statField]; omega),
      get_stat_eq hmoment.within hc fun k hlo _ => words_moment_stat hlo]
  · have hwords : ∀ {l m : List Field} {k : Nat}, l ⊆ m → words l k = true → (words m k || settleWord k) = true := fun hlm hk => by
      rw [words_mono hlm hk, Bool.true_or]
    refine (((hmoment.pauseChange.mono fun k => hwords (by simp)).trans (hcounted.pauseChange.mono fun k => hwords (by simp))).trans
      (hstat.pauseChange.mono fun k => hwords (by simp)) |>.trans (hpause.mono fun k hk => ?_)).quietFrame hc
    obtain hk | hk := Bool.or_eq_true_iff.mp hk
    · exact hwords (by simp) hk
    · rw [hk, Bool.or_true]

/-! ## How a pause ends (R284, R285, R287) -/

theorem pauseEnd_field {c : Fin 9} (hpaused : s.isPaused p c = true) : (s.endPause p c).get (pauseField p c) = 0 := by
  have hcounted : ((s.pauseCounted p c).withPaused (Assoc.erase (s.pauseCounted p c).pxc.paused (pauseKey p c))).canon = true :=
    (pauseCounted_change s p c).within.canon hc
  rw [endPause_eq hpaused, get_put_same hcounted (pauseField_off p c).1, Nat.zero_mod]

theorem pauseEnd_completes {c : Fin 9} (o : Nat) (hpaused : s.isPaused p c = true) : completes (.pauseEnd p c o) s fun t =>
    t.isPaused p c = false ∧ t.get (pauseField p c) = 0 ∧
    QuietFrame (fun k => words ([Reg.TE_OFFSET, Reg.PXC_PORT_STATUS_PORT_PAUSED p, statField p 21]) k || settleWord k) s
      (settled { s with pxc := { s.pxc with paused := t.pxc.paused } } t) t := by
  have hmoment : Writes (words [Reg.TE_OFFSET]) s (s.moment o) := writes_moment s o
  have hpaused' : (s.moment o).isPaused p c = true := (isPaused_of_pxc (by rw [hmoment.rest])).trans hpaused
  refine ⟨_, rfl, ?_, pauseEnd_field (hmoment.canon hc) hpaused', ?_⟩
  · rw [isPaused_endPause]
    simp
  · refine ((hmoment.pauseChange.mono fun k hk => ?_).trans ((endPause_change _ p c).mono fun k hk => ?_)).quietFrame hc
    · rw [words_mono (by simp) hk, Bool.true_or]
    · obtain hk | hk := Bool.or_eq_true_iff.mp hk
      · rw [words_mono (by simp) hk, Bool.true_or]
      · rw [hk, Bool.or_true]

theorem pauseStorm_completes {c : Fin 9} (o : Nat) (hpaused : s.isPaused p c = true) : completes (.pauseStorm p c o) s fun t =>
    t.isPaused p c = false ∧ pauseKey p c ∈ t.pxc.holdoff ∧ t.get (statField p 23) = (s.get (statField p 23) + 1) % 2 ^ 64 ∧
    posted s t .pxc 4 [(8, p), (8, if c.val = 8 then 0xFF else c)] := by
  have hp := p.isLt
  let m := s.moment o
  let u := m.endPause p c
  let v : State := { u with pxc := { u.pxc with holdoff := (pauseKey p c :: u.pxc.holdoff).eraseDups } }
  have hmoment : Writes (words [Reg.TE_OFFSET]) s m := writes_moment s o
  have hpaused' : m.isPaused p c = true := (isPaused_of_pxc (by rw [hmoment.rest])).trans hpaused
  have hend : PauseChange (pauseWord p) m u := endPause_change m p c
  have hm : m.canon = true := hmoment.canon hc
  have hv : v.canon = true := hend.within.canon hm
  have hexec : exec (.pauseStorm p c o) s = ok ((v.stat p 23 1).raise .pxc 4 [(8, p.val), (8, if c.val = 8 then 0xFF else c.val)]) :=
    if_pos hpaused'
  have hpxc : ((v.stat p 23 1).raise .pxc 4 [(8, p.val), (8, if c.val = 8 then 0xFF else c.val)]).pxc = v.pxc :=
    pxc_of_bare ((bare_raise ..).trans (bare_put ..))
  have hevents : (v.stat p 23 1).events = s.events := by
    rw [State.stat, State.bumpBy, State.put_events]
    exact hend.events.trans (by rw [hmoment.rest])
  refine ⟨_, hexec, ?_, ?_, ?_, posted_raise hevents _ _ _⟩
  · have hsame : v.isPaused p c = u.isPaused p c := rfl
    rw [isPaused_of_pxc hpxc, hsame, isPaused_endPause]
    simp
  · rw [hpxc]
    exact List.mem_eraseDups.mpr List.mem_cons_self
  · have hkept : v.get (statField p 23) = u.get (statField p 23) := rfl
    have hbumped : (v.stat p 23 1).canon = true := canon_put hv
    have hraised := get_raise (f := statField p 23) hbumped .pxc 4
      [(8, p.val), (8, if c.val = 8 then 0xFF else c.val)] (by simp [words, statField]; omega) (by simp [words, statField]; omega)
    rw [hraised, get_stat_same hv, hkept,
      get_stat_eq hend.within hm fun k => pauseWord_stat (by decide) (by decide),
      get_stat_eq hmoment.within hc fun k hlo _ => words_moment_stat hlo]

theorem pauseModeWrite_completes {r : Requester} {v : Word} (hmay : s.mayWrite r (Reg.PXC_PAUSE_CFG_MODE p).key = true)
    (hmode : bits v.toNat 30 2 = 0) (hwd : 100 ≤ bits v.toNat 12 18) (hoff : bits v.toNat 0 12 ≠ 0) :
    completes (.pauseModeWrite r p v) s fun t =>
      t.rd (Reg.PXC_PAUSE_CFG_MODE p).key = v.toNat ∧ ∀ c, c ≤ 8 → t.isPaused p c = false := by
  have hp := p.isLt
  let k := (Reg.PXC_PAUSE_CFG_MODE p).key
  let u := (s.setWord k v.toNat).endPause p 8
  have hplain : (rowOf k).all (·.plain) = true := by rw [show rowOf k = some pauseCfgRow from rowOf_pauseCfg p]; rfl
  have hexec : exec (.pauseModeWrite r p v) s = ok ((List.range 8).foldl (fun s c => s.endPause p c) u) := by
    change ok (s.writePause r p v.toNat) = _
    have hguard : (!s.mayWrite r (0x02001500 + 4 * p) || decide (bits v.toNat 30 2 = 3) || decide (bits v.toNat 12 18 < 100) ||
        decide (bits v.toNat 0 12 = 0)) = false := by
      rw [hmay, hmode]; simpa using ⟨hwd, hoff⟩
    unfold State.writePause
    dsimp only
    rw [hguard, writeWord_plain hplain, hmode]
    rfl
  have hset : (s.setWord k v.toNat).canon = true := (writes_setWord (area := (· == k)) (Writes.refl s) (beq_self_eq_true k) v.toNat).canon hc
  have hchange : PauseChange (pauseWord p) (s.setWord k v.toNat) ((List.range 8).foldl (fun s c => s.endPause p c) u) :=
    (endPause_change _ p 8).trans (endPauses_change _ (fun c hl => Nat.lt_succ_of_lt (List.mem_range.mp hl)) u p)
  refine ⟨_, hexec, ?_, fun c hle => ?_⟩
  · have haway : pauseWord p (0x02001500 + 4 * p) = false := by
      rw [Bool.eq_false_iff]
      simp [pauseWord, words, settleWord, inRange, statField]
      omega
    rw [hchange.within.words hset k haway]
    exact rd_setWord_whole hc (shows_of_mayWrite hmay) (rowOf_pauseCfg p) rfl (by decide) v.isLt
  · rw [isPaused_endPauses, isPaused_endPause]
    by_cases h : c = 8
    · simp [h]
    · rw [List.contains_iff_mem.mpr (List.mem_range.mpr (by omega))]
      rfl

end

/-- Settles O10: clause by clause, each pause by what its beginning or its end changes. -/
theorem pauseCommandsComplete : Obligations.PauseCommandsComplete := by
  intro s hc p o
  refine ⟨fun n => pauseFrame_completes hc o, fun c => pauseEnd_completes hc o, fun c => pauseStorm_completes hc o, fun c => ⟨_, rfl, ?_, rfl⟩,
    fun r v => pauseModeWrite_completes hc⟩
  simp

end Sys2Proof.Machine
end

section
/-! PROOFS. The configuration and the statistics of PXC, and the management port's link (R280, R282, R291, R292). -/

namespace Sys2Proof.Machine

/-! ## CT_BASE (R280) -/

/-- Without a seal a sealed field takes what is written, as a plain one does. -/
theorem foldl_writeField_open {fields : List FieldRow} (hacc : fields.all (fun f => f.acc == .rw || f.acc == .sl) = true) (v w : Nat) :
    fields.foldl (writeField false v) w = (fields.map fun f => { f with acc := .rw }).foldl (writeField false v) w := by
  induction fields generalizing w with
  | nil => rfl
  | cons f fields ih =>
    rw [List.all_cons, Bool.and_eq_true, Bool.or_eq_true, beq_iff_eq, beq_iff_eq] at hacc
    obtain ⟨hf, hrest⟩ := hacc
    have hone : writeField false v w f = writeField false v w { f with acc := .rw } := by
      obtain h | h := hf <;> (rw [writeField, h]; rfl)
    rw [List.map_cons, List.foldl_cons, List.foldl_cons, ih hrest, hone]

section
variable {s : State} {r : Requester} {k : Nat} {row : WordRow}

theorem writeWord_open (hseal : s.sealedAt k = false) (v : Nat) : s.writeWord r k v = s.setWord k v := by
  have hbreaks : s.breaksSeal k v = false := by
    rw [State.breaksSeal, hseal]
    cases rowOf k <;> simp [sealBreak]
  rw [State.writeWord, hbreaks, if_neg Bool.false_ne_true]

/-- A field of a word whose unit is not sealed reads what was written. -/
theorem bits_setWord_open (hc : s.canon = true) (hshow : s.shows k = true) (hrow : rowOf k = some row)
    (hacc : row.fields.all (fun f => f.acc == .rw || f.acc == .sl) = true) (hseal : s.sealedAt k = false) (v : Nat) {lo n : Nat}
    (hn : lo + n ≤ 32) (htaken : ∀ i, i < n → takesBit row.fields (lo + i) = true) :
    bits ((s.setWord k v).rd k) lo n = bits v lo n := by
  apply Nat.eq_of_testBit_eq
  intro i
  rw [bits_testBit, bits_testBit]
  by_cases hi : i < n
  · have hmap : ∀ j, takesBit (row.fields.map fun f => { f with acc := .rw }) j = takesBit row.fields j := fun j => by
      rw [takesBit, takesBit, List.any_map]; rfl
    rw [rd_setWord hc, hshow, if_pos rfl, hrow, Option.elim_some, Nat.testBit_mod_two_pow, decide_eq_true (show lo + i < 32 by omega),
      Bool.true_and, hseal, foldl_writeField_open hacc, testBit_foldl_writeField (by simp), hmap, htaken i hi, if_pos rfl]
  · rw [decide_eq_false hi, Bool.false_and, Bool.false_and]

end

/-- PXC_PORT_CFG of a port. -/
def portCfgRow : WordRow :=
  ⟨0x02001100, 4, 32, [⟨31, 28, .sl, 0⟩, ⟨27, 26, .sl, 0⟩, ⟨23, 21, .rw, 0⟩, ⟨13, 0, .sl, 0x000005EE⟩]⟩

theorem rowOf_portCfg (p : Fin 32) : rowOf (0x02001100 + 4 * p) = some portCfgRow :=
  rowOf_at (lo := 0x02001100) (hi := 0x02001180) (m := 4) (r := 0) 3 (rowsFor_pxc (by omega)) (by omega) (by decide) (by decide)
    (by omega) (by omega) (by omega) (by decide) (by simp [WordRow.covers, portCfgRow])

theorem ctStep_ok (p : Fin 32) : (Reg.PXC_PORT_STATUS_CT_STEP p).ok = true := by
  revert p
  decide

section
variable {s : State} (hc : s.canon = true)
include hc

theorem ctBaseWrite_completes {r : Requester} {p : Fin 32} {v : Word} (hmay : s.mayWrite r (Reg.PXC_PORT_CFG_CT_BASE p).key = true)
    (hbase : bits v.toNat 21 3 ≠ 7) (hopen : s.flag (Reg.UNIT_SEALED 2) = false) : completes (.ctBaseWrite r p v) s fun t =>
      t.get (Reg.PXC_PORT_STATUS_CT_STEP p) = bits v.toNat 21 3 ∧ t.get (Reg.PXC_PORT_CFG_CT_BASE p) = bits v.toNat 21 3 ∧
      QuietFrame (words [Reg.PXC_PORT_STATUS_CT_STEP p, Reg.PXC_PORT_CFG_CT_BASE p]) s s t := by
  have hp := p.isLt
  let k := 0x02001100 + 4 * p.val
  let u := s.setWord k v.toNat
  have hseal : s.sealedAt k = false := by
    rw [State.sealedAt, unitOfKey, show k / 0x1000000 = 2 by omega]; exact hopen
  have hwrite : Writes (words [Reg.PXC_PORT_STATUS_CT_STEP p, Reg.PXC_PORT_CFG_CT_BASE p]) s u :=
    writes_setWord (Writes.refl s) (words_key (f := Reg.PXC_PORT_CFG_CT_BASE p) (by simp)) v.toNat
  have hu : u.canon = true := hwrite.canon hc
  have hexec : exec (.ctBaseWrite r p v) s = ok (u.put (Reg.PXC_PORT_STATUS_CT_STEP p) (bits v.toNat 21 3)) := by
    change ok (if (!s.mayWrite r k || decide (bits v.toNat 21 3 = 7)) = true then s
      else (s.writeWord r k v.toNat).put (Reg.PXC_PORT_STATUS_CT_STEP p) (bits v.toNat 21 3)) = _
    rw [show s.mayWrite r k = true from hmay, decide_eq_false hbase, if_neg (by decide), writeWord_open hseal]
  refine ⟨_, hexec, ?_, ?_, (writes_put hwrite (words_key (by simp)) (.inl (show 22 < 32 by decide))).quietFrame hc⟩
  · rw [get_put_same hu (ctStep_ok p)]
    exact Nat.mod_eq_of_lt (Nat.mod_lt _ (by decide))
  · have hcfg : u.get (Reg.PXC_PORT_CFG_CT_BASE p) = bits v.toNat 21 3 := by
      rw [get_word (show 23 < 32 by decide)]
      exact bits_setWord_open hc (shows_of_mayWrite hmay) (rowOf_portCfg p) (by decide) hseal v.toNat (lo := 21) (n := 3) (by decide) (by decide)
    rw [← hcfg]
    refine get_put_apart hu (ctStep_ok p) (by simp [Field.ok]) (.inr ?_)
    simp [Field.at, Field.width]
    omega

/-! ## VLAN_CFG and PCP_MAP (R282) -/

omit hc in
theorem vlanCfgWrite_completes {r : Requester} {p : Fin 32} {pcp : Bool} {v : Word} (hmay : s.mayWrite r (vlanKey pcp p) = true)
    (hok : pcp = false → bits v.toNat 28 2 < 2) (hpair : s.pairRole = false) : completes (.vlanCfgWrite r p pcp v) s fun t =>
      t = { s with pxc := { s.pxc with pending := s.pxc.pending ++ [(vlanKey pcp p, v.toNat &&& vlanMask pcp, s.tick + 2)] } } := by
  refine ⟨_, ?_, rfl⟩
  have htag : (!pcp && decide (2 ≤ bits v.toNat 28 2)) = false := by
    cases pcp with
    | true => rfl
    | false => simpa using hok rfl
  change ok (if (!s.mayWrite r (vlanKey pcp p) || (!pcp && decide (2 ≤ bits v.toNat 28 2))) = true then s else s.localOnly _) = _
  rw [hmay, htag, if_neg (by decide), localOnly_alone hpair, carry_alone (s := s.acceptVlan _ _ _) hpair]
  rfl

theorem vlanCfgEffective_completes {k v at_ : Nat} {rest : List (Nat × Nat × Nat)} (hfirst : s.pxc.pending = (k, v, at_) :: rest)
    (hdue : at_ ≤ s.tick) (hv : v < 2 ^ 32) : completes .vlanCfgEffective s fun t => t.rd k = v ∧
      QuietFrame (fun j => j == k) s { s with pxc := { s.pxc with pending := rest } } t := by
  let u : State := { s with pxc := { s.pxc with pending := rest } }
  have hexec : exec .vlanCfgEffective s = ok (u.wr k v) := by
    simp only [exec, execVlanCfgEffective, hfirst, if_neg (Nat.not_lt.mpr hdue)]
    rfl
  refine ⟨_, hexec, ?_, quietFrame_of_still hc (within_wr (within_same (t := u) (Within.refl s) rfl rfl rfl) (beq_self_eq_true k)) ?_⟩
  · rw [rd_wr_same (show u.canon = true from hc), Nat.mod_eq_of_lt hv]
  · simp [u]

/-! ## Snapshots (R291) -/

/-- The state with another state of PXC. -/
def State.withPxc (s : State) (x : PxcState) : State := { s with pxc := x }

omit hc in
theorem withPxc_flag (x : PxcState) (f : Field) : (s.withPxc x).flag f = s.flag f := rfl

omit hc in
theorem withPxc_within {area : Nat → Bool} {s₀ : State} (h : Within area s₀ s) (x : PxcState) : Within area s₀ (s.withPxc x) :=
  within_same h rfl rfl rfl

omit hc in
theorem withPxc_still (x : PxcState) : (s.withPxc x).still = s.still.withPxc x := rfl

theorem snap_completes {r : Requester} (hmay : s.mayWrite r Reg.PXC_STATS_CTL_BUSY.key = true)
    (hidle : s.flag Reg.PXC_STATS_CTL_BUSY = false) : completes (.snap r) s fun t =>
      t.flag Reg.PXC_STATS_CTL_BUSY = true ∧ t.flag Reg.PXC_STATS_CTL_SNAP = true ∧
      QuietFrame (words [Reg.PXC_STATS_CTL_BUSY]) s { s with pxc := { s.pxc with snapTick := s.tick } } t := by
  have hexec : exec (.snap r) s = ok (((s.put Reg.PXC_STATS_CTL_BUSY 1).put Reg.PXC_STATS_CTL_SNAP 1).withPxc
      { s.pxc with snapTick := s.tick }) := by
    simp only [exec, execSnap, State.snap, State.withPxc, hmay, hidle, Bool.not_true, Bool.or_false, Bool.false_eq_true, if_false]
  have hbusy := canon_put (f := Reg.PXC_STATS_CTL_BUSY) (v := 1) hc
  have hwrites : Writes (words [Reg.PXC_STATS_CTL_BUSY]) s ((s.put Reg.PXC_STATS_CTL_BUSY 1).put Reg.PXC_STATS_CTL_SNAP 1) :=
    writes_put (writes_put (Writes.refl s) (by decide) (.inl (by decide))) (by decide) (.inl (by decide))
  refine ⟨_, hexec, ?_, ?_, quietFrame_of_still hc (withPxc_within hwrites.within _) ?_⟩
  · rw [withPxc_flag, flag_put_off hbusy (by decide), flag_put_same hc (by decide) (by decide)]
    rfl
  · rw [withPxc_flag, flag_put_same hbusy (by decide) (by decide)]
    rfl
  · rw [withPxc_still, still_put, still_put]
    rfl

end

/-- One port's statistics copied to its snapshot. -/
def State.shadowed (s : State) (p n : Nat) : State := (List.range n).foldl (fun s i => s.put (shadowField p i) (s.get (statField p i))) s

/-- The words of the snapshots. -/
def shadowWord (k : Nat) : Bool := inRange k 0x0200A000 0x2000

section
variable {s : State} {p : Fin 32}

theorem shadowed_succ (s : State) (p n : Nat) : s.shadowed p (n + 1) = (s.shadowed p n).put (shadowField p n) ((s.shadowed p n).get (statField p n)) := by
  rw [State.shadowed, List.range_succ, List.foldl_append]
  rfl

theorem shadowWord_iff {k : Nat} : shadowWord k = true ↔ 0x0200A000 ≤ k ∧ k < 0x0200C000 := by
  simp only [shadowWord, inRange, Bool.and_eq_true, decide_eq_true_eq]

theorem shadowWord_stat {p i j : Nat} (hp : p < 32) (hi : i < 32) (hj : j < 8) : shadowWord (0x02008000 + 256 * p + 8 * i + j) = false := by
  rw [Bool.eq_false_iff, Ne, shadowWord_iff]
  omega

theorem shadow_ok (p n : Nat) : (shadowField p n).ok = true := by simp [Field.ok, shadowField]; omega

theorem writes_shadowed (s : State) (p : Fin 32) {n : Nat} (hn : n ≤ 32) : Writes shadowWord s (s.shadowed p n) := by
  have hp := p.isLt
  induction n with
  | zero => exact Writes.refl s
  | succ n ih =>
    rw [shadowed_succ]
    exact writes_put (ih (by omega)) (shadowWord_iff.mpr (by simp only [shadowField]; omega))
      (.inr (shadowWord_iff.mpr (by simp only [shadowField]; omega)))

variable (hc : s.canon = true)
include hc

/-- Each statistic of the port stands in its snapshot. -/
theorem get_shadowed {n : Nat} (hn : n ≤ 32) {i : Nat} (hi : i < n) : (s.shadowed p n).get (shadowField p i) = s.get (statField p i) := by
  have hp := p.isLt
  induction n with
  | zero => exact absurd hi (Nat.not_lt_zero i)
  | succ n ih =>
    have hbefore := writes_shadowed s p (n := n) (by omega)
    rw [shadowed_succ]
    by_cases h : i = n
    · have hstat : (s.shadowed p n).get (statField p n) = s.get (statField p n) :=
        hbefore.get_eq hc (shadowWord_stat (j := 0) hp (by omega) (by decide)) (shadowWord_stat (j := 4) hp (by omega) (by decide))
      rw [h, get_put_same (hbefore.canon hc) (shadow_ok p n), hstat]
      exact Nat.mod_eq_of_lt (get_lt s (statField p n))
    · rw [get_put_apart (hbefore.canon hc) (shadow_ok p n) (shadow_ok p i) ?_]
      · exact ih (by omega) (by omega)
      · simp [Field.apart, Field.at, Field.width, shadowField]
        omega

omit hc in
theorem onesOf_twoPow {p n : Nat} (h : p < n) : onesOf (2 ^ p) n = [p] := by
  have hbit : ∀ i, bitAt (2 ^ p) i = decide (i = p) := fun i => by
    rw [bitAt_eq_testBit, Nat.testBit_two_pow, decide_eq_decide]
    exact eq_comm
  rw [onesOf]
  induction n with
  | zero => exact absurd h (Nat.not_lt_zero p)
  | succ n ih =>
    rw [List.range_succ, List.filter_append]
    by_cases hlast : p = n
    · subst hlast
      have hbelow : (List.range p).filter (bitAt (2 ^ p)) = [] := List.filter_eq_nil_iff.mpr fun i hi => by
        have := List.mem_range.mp hi
        rw [hbit]
        simpa using Nat.ne_of_lt this
      rw [hbelow, List.filter_cons_of_pos (by rw [hbit]; simp)]
      rfl
    · rw [ih (by omega), List.filter_cons_of_neg (by rw [hbit]; simpa using Ne.symm hlast)]
      rfl

/-- Snapshot of tick and offset, and STATS_CTL at rest. -/
def State.statsShown (s : State) (o : Nat) : State :=
  s.puts [(Reg.PXC_STATS_SNAP_TICK_TICK, s.tick), (Reg.PXC_STATS_SNAP_OFFSET_OFFSET, o), (Reg.PXC_STATS_CTL_BUSY, bit false),
    (Reg.PXC_STATS_CTL_SNAP, 0)]

theorem statsShown_busy (o : Nat) : (s.statsShown o).flag Reg.PXC_STATS_CTL_BUSY = false :=
  flag_puts_bit hc [(Reg.PXC_STATS_SNAP_TICK_TICK, s.tick), (Reg.PXC_STATS_SNAP_OFFSET_OFFSET, o)] (by decide) (by decide) (by decide)

theorem statsShown_tick (o : Nat) : (s.statsShown o).get Reg.PXC_STATS_SNAP_TICK_TICK = s.tick := by
  refine (get_puts_last hc [] (by decide) ?_).trans (Nat.mod_eq_of_lt (get_lt s Reg.TE_TICK))
  simp only [List.all_cons, List.all_nil]
  decide

theorem statsShown_offset : (s.statsShown s.offset).get Reg.PXC_STATS_SNAP_OFFSET_OFFSET = s.offset :=
  (get_puts_last hc [(Reg.PXC_STATS_SNAP_TICK_TICK, s.tick)] (by decide) (by decide)).trans (Nat.mod_eq_of_lt (get_lt s Reg.TE_OFFSET))

omit hc in
theorem off_shadow {f : Field} (hok : f.ok = true) (hlow : f.key + 8 ≤ 0x0200A000) (p i : Nat) : f.off (shadowField p i) = true := by
  have hparts : (f.key % 4 = 0 ∧ f.lo ≤ f.hi) ∧ f.hi < 64 := by
    simpa only [Field.ok, Bool.and_eq_true, beq_iff_eq, decide_eq_true_eq] using hok
  have hbelow : f.at + f.width ≤ (shadowField p i).at := by
    simp only [Field.at, Field.width, shadowField]
    omega
  rw [Field.off, hok, shadow_ok, decide_eq_true hbelow]
  rfl

theorem statsShown_shadow (o p i : Nat) : (s.statsShown o).get (shadowField p i) = s.get (shadowField p i) := by
  refine get_puts_off hc (List.all_eq_true.mpr fun x hx => ?_)
  simp only [List.mem_cons, List.not_mem_nil, or_false] at hx
  obtain rfl | rfl | rfl | rfl := hx
  · exact off_shadow (f := Reg.PXC_STATS_SNAP_TICK_TICK) (by decide) (by decide) p i
  · exact off_shadow (f := Reg.PXC_STATS_SNAP_OFFSET_OFFSET) (by decide) (by decide) p i
  · exact off_shadow (f := Reg.PXC_STATS_CTL_BUSY) (by decide) (by decide) p i
  · exact off_shadow (f := Reg.PXC_STATS_CTL_SNAP) (by decide) (by decide) p i

omit hc in
theorem statsShown_events (o : Nat) : (s.statsShown o).events = s.events := by
  simp only [State.statsShown, State.puts, List.foldl_cons, List.foldl_nil, State.put_events]

omit hc in
theorem exec_statsDone (hbusy : s.flag Reg.PXC_STATS_CTL_BUSY = true) (halign : s.flag Reg.PXC_STATS_CTL_TICK_ALIGN = false)
    (hport : s.get Reg.PXC_STATS_PORTS = 2 ^ p.val) (hfree : s.isPaused p 8 = false) :
    exec .statsDone s = ok (((s.shadowed p 32).statsShown (s.shadowed p 32).offset).raise .pxc 6 []) := by
  have hcount : s.accruePause p = s := by
    obtain h | ⟨n, -, h⟩ := accruePause_cases s p
    · exact h
    · rw [hfree] at h; exact absurd h (by decide)
  simp only [exec, execStatsDone, hbusy, halign, hport, onesOf_twoPow p.isLt, List.foldl_cons, List.foldl_nil, hcount, Bool.not_true,
    Bool.false_and, Bool.or_false, Bool.false_eq_true, if_false, State.statsShown, State.puts, State.shadowed, bit]

theorem statsDone_completes (hbusy : s.flag Reg.PXC_STATS_CTL_BUSY = true) (halign : s.flag Reg.PXC_STATS_CTL_TICK_ALIGN = false)
    (hport : s.get Reg.PXC_STATS_PORTS = 2 ^ p.val) (hfree : s.isPaused p 8 = false) : completes .statsDone s fun t =>
      (∀ i, i < 32 → t.get (shadowField p i) = s.get (statField p i)) ∧ t.flag Reg.PXC_STATS_CTL_BUSY = false ∧
      t.get Reg.PXC_STATS_SNAP_TICK_TICK = s.tick ∧ t.get Reg.PXC_STATS_SNAP_OFFSET_OFFSET = s.offset ∧ posted s t .pxc 6 [] := by
  refine ⟨_, exec_statsDone hbusy halign hport hfree, ?_⟩
  have hcopied : Writes shadowWord s (s.shadowed p 32) := writes_shadowed s p (Nat.le_refl 32)
  have hread : ∀ i, i < 32 → (s.shadowed p 32).get (shadowField p i) = s.get (statField p i) := fun i => get_shadowed hc (Nat.le_refl 32)
  generalize s.shadowed p 32 = u at hcopied hread
  have hu : u.canon = true := hcopied.canon hc
  have htick : u.tick = s.tick := hcopied.get_eq hc (by decide) (by decide)
  have hoffset : u.offset = s.offset := hcopied.get_eq hc (by decide) (by decide)
  have hraised : ∀ {f : Field}, words [Reg.QE_ARB_LOST] f.key = false → words [Reg.QE_ARB_LOST] (f.key + 4) = false →
      ((u.statsShown u.offset).raise .pxc 6 []).get f = (u.statsShown u.offset).get f := fun h1 h2 =>
    get_raise (canon_puts hu _) _ _ _ h1 h2
  refine ⟨fun i hi => ?_, ?_, ?_, ?_, posted_raise ?_ _ _ _⟩
  · have hp := p.isLt
    rw [hraised (by simp [words, shadowField]; omega) (by simp [words, shadowField]; omega), statsShown_shadow hu, hread i hi]
  · rw [State.flag, hraised (by decide) (by decide), ← State.flag, statsShown_busy hu]
  · rw [hraised (by decide) (by decide), statsShown_tick hu, htick]
  · rw [hraised (by decide) (by decide), statsShown_offset hu, hoffset]
  · rw [statsShown_events, hcopied.rest]

end

/-! ## The management port (R292) -/

/-- UP and REASON of the management port. -/
def State.mgmtShown (s : State) (up reason : Nat) : State := (s.put Reg.SUP_MGMT_STATUS_UP up).put Reg.SUP_MGMT_STATUS_REASON reason

section
variable {s : State}

theorem writes_mgmtShown (s : State) (up reason : Nat) : Writes (words [Reg.SUP_MGMT_STATUS_UP]) s (s.mgmtShown up reason) :=
  writes_put (writes_put (Writes.refl s) (by decide) (.inl (by decide))) (by decide) (.inl (by decide))

variable (hc : s.canon = true)
include hc

theorem mgmtShown_up (up reason : Nat) : (s.mgmtShown up reason).flag Reg.SUP_MGMT_STATUS_UP = (up % 2 == 1) := by
  rw [State.mgmtShown, flag_put_off (canon_put hc) (by decide), flag_put_same hc (by decide) (by decide)]

theorem mgmtShown_reason (up : Nat) {reason : Nat} (h : reason < 16) : (s.mgmtShown up reason).get Reg.SUP_MGMT_STATUS_REASON = reason :=
  (get_put_same (canon_put hc) (by decide)).trans (Nat.mod_eq_of_lt h)

end

section
variable {s t : State} {u : Unit'} {type : Nat} {l : List (Nat × Nat)}

/-- An event that may be raised leaves the fields and the state alone. -/
theorem get_when_raise (hc : s.canon = true) (c : Bool) {f : Field} (hlo : words [Reg.QE_ARB_LOST] f.key = false)
    (hhi : words [Reg.QE_ARB_LOST] (f.key + 4) = false) : (s.when c fun s => s.raise u type l).get f = s.get f := by
  cases c with
  | false => rfl
  | true => exact get_raise hc u type l hlo hhi

theorem bare_when_raise (c : Bool) : (s.when c fun s => s.raise u type l).bare = s.bare := by
  cases c with
  | false => rfl
  | true => exact bare_raise ..

theorem within_when_raise {area : Nat → Bool} {s₀ : State} (h : Within area s₀ s) (c : Bool)
    (hlo : area Reg.QE_ARB_LOST.key = true) (hhi : area (Reg.QE_ARB_LOST.key + 4) = true) :
    Within area s₀ (s.when c fun s => s.raise u type l) := by
  cases c with
  | false => exact h
  | true => exact within_raise h hlo hhi

end

/-- A reported difference of the management port (R292), where `c` holds. -/
def State.mgmtReported (s : State) (c : Bool) (reason : Nat) : State :=
  s.when c fun s => (s.hlog 6 0 (payload [(8, 0xFF), (8, reason), (8, 0)])).raise .pxc 3 [(8, 0xFF), (8, reason), (8, 0)]

section
variable {s : State} {c : Bool} {reason : Nat}

theorem bare_mgmtReported : (s.mgmtReported c reason).bare = s.bare := by
  cases c with
  | false => rfl
  | true => exact (bare_raise ..).trans (bare_hlog ..)

theorem within_mgmtReported {area : Nat → Bool} {s₀ : State} (h : Within area s₀ s) (hlog : ∀ k, logWord k = true → area k = true)
    (hlo : area Reg.QE_ARB_LOST.key = true) (hhi : area (Reg.QE_ARB_LOST.key + 4) = true) : Within area s₀ (s.mgmtReported c reason) := by
  cases c with
  | false => exact h
  | true => exact within_raise (within_hlog h hlog) hlo hhi

theorem get_mgmtReported (hc : s.canon = true) {f : Field} (h1 : logWord f.key = false) (h2 : logWord (f.key + 4) = false)
    (h3 : words [Reg.QE_ARB_LOST] f.key = false) (h4 : words [Reg.QE_ARB_LOST] (f.key + 4) = false) :
    (s.mgmtReported c reason).get f = s.get f := by
  cases c with
  | false => rfl
  | true => exact (get_raise ((keeps_hlog (Keeps.refl s)).canon hc) _ _ _ h3 h4).trans (get_hlog hc h1 h2)

theorem posted_mgmtReported {s₀ : State} (h : s.events = s₀.events) :
    posted s₀ (s.mgmtReported true reason) .pxc 3 [(8, 0xFF), (8, reason), (8, 0)] :=
  posted_raise (by rw [State.hlog_events, h]) _ _ _

end

/-- A difference of the management port that is new, or an SGMII speed that is. -/
def mgmtDiffers (reason old : Nat) : Bool := (reason = 10 || (4 ≤ reason && reason ≤ 6)) && old != reason

section
variable {s : State} (hc : s.canon = true) (hpow : s.powered = true) (reason : Fin 11)
include hc hpow

theorem mgmtLinkUp_completes : completes (.mgmtLinkChange true reason) s fun t => t.flag Reg.SUP_MGMT_STATUS_UP = true ∧
    t.get Reg.SUP_MGMT_STATUS_REASON = 0 ∧ NoisyFrame (words [Reg.SUP_MGMT_STATUS_UP]) s s t := by
  have hexec : exec (.mgmtLinkChange true reason) s =
      ok ((s.mgmtShown 1 0).when (!s.flag Reg.SUP_MGMT_STATUS_UP) fun s => s.raise .pxc 1 [(8, 0xFF)]) := by
    simp only [exec, execMgmtLinkChange, hpow, Bool.not_true, Bool.false_eq_true, if_false, if_true, State.mgmtShown]
  have hwrites := writes_mgmtShown s 1 0
  have hshown := hwrites.canon hc
  refine ⟨_, hexec, ?_, ?_, noisyFrame_of_bare hc (within_when_raise (hwrites.within.mono fun k hk => by rw [hk, Bool.true_or]) _
    (by decide) (by decide)) ((bare_when_raise _).trans hwrites.bare)⟩
  · rw [State.flag, get_when_raise hshown _ (by decide) (by decide), ← State.flag, mgmtShown_up hc]
    rfl
  · rw [get_when_raise hshown _ (by decide) (by decide), mgmtShown_reason hc _ (by decide)]

theorem mgmtLinkDown_completes (hmode : reason.val ≠ 10 ∨ s.get Reg.SUP_MGMT_CFG_MODE ≠ 0) :
    completes (.mgmtLinkChange false reason) s fun t => t.flag Reg.SUP_MGMT_STATUS_UP = false ∧
      t.get Reg.SUP_MGMT_STATUS_REASON = reason ∧
      (s.flag Reg.SUP_MGMT_STATUS_UP = false → 4 ≤ reason.val → reason.val ≤ 6 → s.get Reg.SUP_MGMT_STATUS_REASON ≠ reason.val →
        posted s t .pxc 3 [(8, 0xFF), (8, reason), (8, 0)]) ∧
      NoisyFrame (fun k => words [Reg.SUP_MGMT_STATUS_UP] k || logWord k) s s t := by
  have hguard : (decide (reason.val = 10) && decide (s.get Reg.SUP_MGMT_CFG_MODE = 0)) = false := by
    simpa only [Bool.and_eq_false_iff, decide_eq_false_iff_not] using hmode
  have hexec : exec (.mgmtLinkChange false reason) s = ok (((s.mgmtShown 0 reason).when (s.flag Reg.SUP_MGMT_STATUS_UP)
      fun s => s.raise .pxc 2 [(8, 0xFF), (8, reason.val)]).mgmtReported (mgmtDiffers reason (s.get Reg.SUP_MGMT_STATUS_REASON)) reason) := by
    simp only [exec, execMgmtLinkChange, hpow, hguard, Bool.not_true, Bool.false_eq_true, if_false, State.mgmtShown, State.mgmtReported,
      mgmtDiffers]
  have hwrites := writes_mgmtShown s 0 reason
  have hup := mgmtShown_up hc 0 reason.val
  have hreason := mgmtShown_reason hc 0 (show reason.val < 16 by omega)
  refine ⟨_, hexec, ?_⟩
  generalize s.mgmtShown 0 reason = u at hwrites hup hreason
  have hshown := hwrites.canon hc
  have hwithin : Within (fun k => (words [Reg.SUP_MGMT_STATUS_UP] k || logWord k) || words [Reg.QE_ARB_LOST] k) s
      (u.when (s.flag Reg.SUP_MGMT_STATUS_UP) fun s => s.raise .pxc 2 [(8, 0xFF), (8, reason.val)]) :=
    within_when_raise (hwrites.within.mono fun k hk => by rw [hk]; rfl) _ (by decide) (by decide)
  have hu := hwithin.canon hc
  refine ⟨?_, ?_, fun hdown hlo hhi hnew => ?_, noisyFrame_of_bare hc (within_mgmtReported hwithin (fun k hk => by simp [hk]) (by decide)
    (by decide)) (bare_mgmtReported.trans ((bare_when_raise _).trans hwrites.bare))⟩
  · rw [State.flag, get_mgmtReported hu (by decide) (by decide) (by decide) (by decide), get_when_raise hshown _ (by decide) (by decide),
      ← State.flag, hup]
    rfl
  · rw [get_mgmtReported hu (by decide) (by decide) (by decide) (by decide), get_when_raise hshown _ (by decide) (by decide), hreason]
  · have hdiffers : mgmtDiffers reason (s.get Reg.SUP_MGMT_STATUS_REASON) = true := by simp [mgmtDiffers, hlo, hhi, hnew]
    rw [hdiffers, hdown]
    exact posted_mgmtReported (by rw [State.when, if_neg Bool.false_ne_true, hwrites.rest])

end

/-- Settles O11: clause by clause; the snapshot by what its copies leave alone, the management port by its two fields. -/
theorem portConfigCommandsComplete : Obligations.PortConfigCommandsComplete := by
  intro s hc
  exact ⟨fun r p v => ctBaseWrite_completes hc, fun r p pcp v => vlanCfgWrite_completes, fun k v at_ rest => vlanCfgEffective_completes hc,
    fun r => snap_completes hc, fun p => statsDone_completes hc,
    fun reason => ⟨fun hpow => mgmtLinkUp_completes hc hpow reason, fun hpow => mgmtLinkDown_completes hc hpow reason⟩⟩

end Sys2Proof.Machine
end

section
/-! PROOFS. Register frames and accesses that wait for the service cores (R293, R294, R427): what an answer holds, and what reading
and writing words for a frame leaves alone. -/

namespace Sys2Proof.Machine

/-! ## Bytes, most significant first (R7) -/

theorem length_toLE (n v : Nat) : (toLE n v).length = n := by
  induction n generalizing v with
  | zero => rfl
  | succ n ih => rw [toLE, List.length_cons, ih]

theorem length_toBE (n v : Nat) : (toBE n v).length = n := by rw [toBE, List.length_reverse, length_toLE]

theorem ofBE_reverse (l : Bytes) : ofBE l.reverse = ofLE l := by
  induction l with
  | nil => rfl
  | cons b l ih =>
    rw [ofBE, List.reverse_cons, List.foldl_append, ← ofBE, ih, ofLE]
    simp only [List.foldl_cons, List.foldl_nil]
    omega

theorem ofLE_toLE (n v : Nat) : ofLE (toLE n v) = v % 256 ^ n := by
  induction n generalizing v with
  | zero => rw [pow_zero, Nat.mod_one]; rfl
  | succ n ih =>
    have hsplit := Nat.mod_mul (x := v) (a := 256) (b := 256 ^ n)
    rw [toLE, ofLE, ih, BitVec.toNat_ofNat, pow_succ' 256 n, hsplit]

theorem ofBE_toBE (n v : Nat) : ofBE (toBE n v) = v % 256 ^ n := by rw [toBE, ofBE_reverse, ofLE_toLE]

theorem ofBE_lt (l : Bytes) : ofBE l < 256 ^ l.length := by
  rw [← List.reverse_reverse l, ofBE_reverse, List.reverse_reverse, ← List.length_reverse]
  exact ofLE_lt _

theorem beAt_lt (l : Bytes) (i n : Nat) : beAt l i n < 256 ^ n :=
  (ofBE_lt _).trans_le (Nat.pow_le_pow_right (by decide) (List.length_take_le ..))

theorem beAt_drop (l : Bytes) (m i n : Nat) : beAt (l.drop m) i n = beAt l (m + i) n := by rw [beAt, sliceB, List.drop_drop, beAt, sliceB]

theorem beAt_append_left {a b : Bytes} {i n : Nat} (h : i + n ≤ a.length) : beAt (a ++ b) i n = beAt a i n := by
  rw [beAt, sliceB, List.drop_append_of_le_length (by omega), List.take_append_of_le_length (by rw [List.length_drop]; omega), beAt, sliceB]

theorem beAt_append_right {a b : Bytes} {m : Nat} (h : a.length = m) (i n : Nat) : beAt (a ++ b) (m + i) n = beAt b i n := by
  rw [beAt, sliceB, ← h, List.drop_append, List.drop_eq_nil_of_le (by omega), List.nil_append, Nat.add_sub_cancel_left, beAt, sliceB]

theorem beAt_toBE (n v : Nat) (b : Bytes) : beAt (toBE n v ++ b) 0 n = v % 256 ^ n := by
  rw [beAt_append_left (by rw [length_toBE, Nat.zero_add]), beAt, sliceB, List.drop_zero, List.take_of_length_le (by rw [length_toBE]), ofBE_toBE]

/-! ## The answer to a register frame (R294) -/

/-- The answer to a register frame, before its padding. -/
def frameBody (src mac op st : Nat) (q data : Bytes) : Bytes :=
  toBE 6 src ++ toBE 6 mac ++ toBE 2 0x88B6 ++ (toBE 1 1 ++ toBE 1 (op + 0x80) ++ q ++ toBE 1 st ++ [0, 0] ++ data)

/-- The answer to a register frame: its source, the request's fields, its status and its data, padded. -/
def frameAnswer (src mac op st : Nat) (q data : Bytes) : Bytes :=
  frameBody src mac op st q data ++ List.replicate (60 - (frameBody src mac op st q data).length) 0

section
variable {src mac op st : Nat} {q data : Bytes}

theorem frameAnswer_eq : ∃ pad, frameAnswer src mac op st q data = toBE 6 src ++ (toBE 6 mac ++ toBE 2 0x88B6 ++ toBE 1 1 ++
    toBE 1 (op + 0x80)) ++ q ++ (toBE 1 st ++ ([0, 0] ++ (data ++ pad))) :=
  ⟨List.replicate (60 - (frameBody src mac op st q data).length) 0, by rw [frameAnswer, frameBody]; simp only [List.append_assoc]⟩

theorem frameAnswer_src (hsrc : src < 2 ^ 48) : beAt (frameAnswer src mac op st q data) 0 6 = src := by
  obtain ⟨pad, h⟩ := frameAnswer_eq (src := src) (mac := mac) (op := op) (st := st) (q := q) (data := data)
  rw [h]
  simp only [List.append_assoc]
  rw [beAt_toBE]
  exact Nat.mod_eq_of_lt hsrc

/-- The bytes of an answer up to its status. -/
theorem length_answerHead (src mac op : Nat) :
    (toBE 6 src ++ (toBE 6 mac ++ toBE 2 0x88B6 ++ toBE 1 1 ++ toBE 1 (op + 0x80))).length = 16 := by
  simp only [List.length_append, length_toBE]

theorem frameAnswer_seq (hq : q.length = 7) : beAt (frameAnswer src mac op st q data) 16 2 = beAt q 0 2 := by
  obtain ⟨pad, h⟩ := frameAnswer_eq (src := src) (mac := mac) (op := op) (st := st) (q := q) (data := data)
  rw [h, List.append_assoc, beAt_append_right (length_answerHead src mac op) 0 2, beAt_append_left (by omega)]

theorem frameAnswer_tail (hq : q.length = 7) (i n : Nat) : ∃ pad, beAt (frameAnswer src mac op st q data) (23 + i) n =
    beAt (toBE 1 st ++ ([0, 0] ++ (data ++ pad))) i n := by
  obtain ⟨pad, h⟩ := frameAnswer_eq (src := src) (mac := mac) (op := op) (st := st) (q := q) (data := data)
  exact ⟨pad, by rw [h, beAt_append_right (by rw [List.length_append, length_answerHead, hq])]⟩

theorem frameAnswer_status (hq : q.length = 7) (hst : st < 256) : beAt (frameAnswer src mac op st q data) 23 1 = st := by
  obtain ⟨pad, h⟩ := frameAnswer_tail (src := src) (mac := mac) (op := op) (st := st) (data := data) hq 0 1
  rw [h, beAt_toBE]
  exact Nat.mod_eq_of_lt hst

theorem frameAnswer_data (hq : q.length = 7) (v : Nat) (l : List Nat) :
    beAt (frameAnswer src mac op st q ((v :: l).flatMap (toBE 4))) 26 4 = v % 2 ^ 32 := by
  obtain ⟨pad, h⟩ := frameAnswer_tail (src := src) (mac := mac) (op := op) (st := st) (data := (v :: l).flatMap (toBE 4)) hq 3 4
  rw [h, ← List.append_assoc, beAt_append_right (m := 3) (by rw [List.length_append, length_toBE]; rfl) 0 4, List.flatMap_cons,
    List.append_assoc, beAt_toBE]
  norm_num

end

/-! ## What serving a frame's words leaves alone -/

/-- From `s` to `t` the count of boots, what has left the device and the ports' transmitters stand. -/
structure FrameKept (s t : State) : Prop where
  within : Within (· != 0x1608) s t
  out : t.out = s.out
  stopped : t.pxc.txStopped = s.pxc.txStopped

section
variable {s₀ s t : State}

theorem FrameKept.refl (s : State) : FrameKept s s := ⟨Within.refl s, rfl, rfl⟩

theorem FrameKept.trans (h : FrameKept s₀ s) (g : FrameKept s t) : FrameKept s₀ t :=
  ⟨h.within.trans g.within, g.out.trans h.out, g.stopped.trans h.stopped⟩

theorem FrameKept.boot (h : FrameKept s t) (hc : s.canon = true) : t.get Reg.SUP_RESET_CAUSE_BOOT = s.get Reg.SUP_RESET_CAUSE_BOOT :=
  h.within.get_eq_low hc (by decide) (by decide)

theorem frameKept_put (s : State) {f : Field} (v : Nat) (hkey : f.key ≠ 0x1608) (hhigh : f.hi < 32 ∨ f.key + 4 ≠ 0x1608) :
    FrameKept s (s.put f v) :=
  ⟨within_put (Within.refl s) (by simpa using hkey) (hhigh.imp_right fun h => by simpa using h), State.put_out .., by rw [State.put_pxc]⟩

theorem Closes.frameKept (h : Closes s t) : FrameKept s t :=
  ⟨h.within.mono fun k hk => by simpa using fun h => absurd hk (by rw [h]; decide), h.out, by rw [h.rest]; rfl⟩

theorem frameKept_withPaused (s : State) (l : List (Nat × Nat)) : FrameKept s (s.withPaused l) :=
  ⟨within_same (Within.refl s) rfl rfl rfl, rfl, rfl⟩

theorem frameKept_stat (s : State) (p i n : Nat) : FrameKept s (s.stat p i n) :=
  frameKept_put s (f := statField p i) _ (by simp only [statField]; omega) (.inr (by simp only [statField]; omega))

theorem closes_trimFrame (s : State) (h : Nat) : Closes s (s.trimFrame h) := by
  unfold State.trimFrame
  split
  · exact Closes.refl s
  · split
    · exact ((closes_foldl _ (fun t v => closes_poolGive t v 6 _) s).trans
        (closes_foldl _ (fun t (x : Nat × Nat) => closes_freeCell t x.1 h x.2) _)).trans (closes_setFrame _ h _)
    · exact Closes.refl s

theorem frameKept_settleFor (s : State) (k : Nat) : FrameKept s (s.settleFor k) := by
  unfold State.settleFor
  split
  · obtain h | ⟨n, h, -⟩ := accruePause_cases s ((k - 0x02008000) / 256)
    · rw [h]
      exact FrameKept.refl s
    · rw [h]
      exact (frameKept_withPaused s _).trans (frameKept_stat _ _ 21 n)
  · split
    · exact (settles_settle s).closes.frameKept
    · split
      · exact (closes_foldl _ closes_trimFrame s).frameKept
      · exact FrameKept.refl s

/-- The word of CAUSE and BOOT has no field that a read clears. -/
theorem clearRc_boot (s : State) : s.clearRc 0x1608 = s := by
  have hrow : rowOf 0x1608 = some ⟨0x00001608, 4, 1, [⟨15, 8, .ro, 0⟩, ⟨7, 0, .ro, 0⟩]⟩ := by decide +kernel
  unfold State.clearRc
  rw [hrow]
  simp

theorem frameKept_clearRc (s : State) (k : Nat) : FrameKept s (s.clearRc k) := by
  by_cases h : k = 0x1608
  · rw [h, clearRc_boot]
    exact FrameKept.refl s
  · refine ⟨within_clearRc (Within.refl s) (by simpa using h), ?_, ?_⟩ <;> rw [clearRc_rest]

theorem frameKept_setHold (s : State) (x : Hold) : FrameKept s (s.setHold x) := ⟨within_same (Within.refl s) rfl rfl rfl, rfl, rfl⟩

theorem frameKept_read32 (s : State) (who : Requester) (k : Nat) : FrameKept s (s.read32 who k).2 := by
  unfold State.read32
  split
  · refine FrameKept.trans ?_ (frameKept_clearRc _ k)
    dsimp only
    split
    · exact (frameKept_setHold s _).trans (frameKept_setHold _ _)
    · exact frameKept_setHold s _
  · dsimp only
    split
    · split
      · exact frameKept_setHold s _
      · exact frameKept_clearRc s k
    · exact frameKept_clearRc s k

theorem frameKept_frameRead (s : State) (k n : Nat) : FrameKept s (s.frameRead k n).2 := by
  induction n generalizing s k with
  | zero => exact FrameKept.refl s
  | succ n ih => exact ((frameKept_settleFor s k).trans (frameKept_read32 _ .frame k)).trans (ih _ _)

end

theorem frameRead_succ (s : State) (k n : Nat) : (s.frameRead k (n + 1)).1 =
    ((s.settleFor k).read32 .frame k).1 :: (((s.settleFor k).read32 .frame k).2.frameRead (k + 4) n).1 := rfl

/-! ## A register frame that is new (R293, R294) -/

/-- The words that a frame's request reads, and the state after it. -/
def State.frameData (s : State) (p : Bytes) : List Nat × State :=
  if s.frameStatus p != 0 then ([], s)
  else if beAt p 1 1 = 1 then s.frameRead (beAt p 4 4) (beAt p 8 1)
  else ([], s.frameWrite (beAt p 4 4) ((List.range (beAt p 8 1)).map (fun i => beAt p (12 + 4 * i) 4)))

theorem frameReply_out {s : State} (h : s.pxc.txStopped = false) (src seq : Nat) (l : Bytes) :
    (s.frameReply src seq l).out = .mgmt l :: s.out := by
  unfold State.frameReply
  dsimp only
  rw [h]
  rfl

theorem frameReply_rd (s : State) (src seq : Nat) (l : Bytes) (k : Nat) : (s.frameReply src seq l).rd k = s.rd k := by
  unfold State.frameReply
  dsimp only
  split <;> rfl

section
variable {s : State} {l : Bytes} (hserved : s.framesServed = true) (hrun : s.sup.svcRestarting = false) (hmine : s.frameMine l = true)
  (hnew : s.sup.frameReplies.find? (fun x => x.1 == beAt l 6 6 && x.2.1 == beAt l 16 2) = none)
include hmine

theorem frameMine_type : beAt l 12 2 = 0x88B6 := by
  simp only [State.frameMine, Bool.and_eq_true, beq_iff_eq] at hmine
  exact hmine.2

/-- The fields of the request that its answer repeats. -/
theorem length_repeated : (sliceB (l.drop 14) 2 7).length = 7 := by
  simp only [State.frameMine, Bool.and_eq_true, decide_eq_true_eq] at hmine
  rw [sliceB, List.drop_drop, List.length_take, List.length_drop]
  omega

omit hmine in
theorem repeated_seq (l : Bytes) : beAt (sliceB (l.drop 14) 2 7) 0 2 = beAt l 16 2 := by
  rw [beAt, sliceB, sliceB, List.drop_zero, List.take_take, List.drop_drop, beAt, sliceB]
  rfl

include hserved hrun hnew

/-- A new request of one that may ask is served, and answered unless it has restarted the device. -/
theorem serveFrame_new (hboot : (s.frameData (l.drop 14)).2.get Reg.SUP_RESET_CAUSE_BOOT = s.get Reg.SUP_RESET_CAUSE_BOOT) :
    s.serveFrame l = (s.frameData (l.drop 14)).2.frameReply (beAt l 6 6) (beAt l 16 2)
      (frameAnswer (beAt l 6 6) ((s.frameData (l.drop 14)).2.get Reg.SUP_MGMT_MAC) (beAt (l.drop 14) 1 1) (s.frameStatus (l.drop 14))
        (sliceB (l.drop 14) 2 7) ((s.frameData (l.drop 14)).1.flatMap (toBE 4))) := by
  have htype : (beAt l 12 2 != 0x88B6) = false := by rw [frameMine_type hmine]; rfl
  have hseq : beAt (l.drop 14) 2 2 = beAt l 16 2 := beAt_drop ..
  have hpass : ((s.frameData (l.drop 14)).2.get Reg.SUP_RESET_CAUSE_BOOT != s.get Reg.SUP_RESET_CAUSE_BOOT) = false := by
    rw [hboot]
    exact bne_self_eq_false _
  unfold State.serveFrame
  dsimp only
  rw [htype, hserved, hmine, hrun, hseq, hnew]
  change (if ((s.frameData (l.drop 14)).2.get Reg.SUP_RESET_CAUSE_BOOT != s.get Reg.SUP_RESET_CAUSE_BOOT) = true then
    (s.frameData (l.drop 14)).2 else _) = _
  rw [hpass]
  rfl

end

section
variable {s : State} {l : Bytes} (hc : s.canon = true) (hserved : s.framesServed = true) (hrun : s.sup.svcRestarting = false)
  (hmine : s.frameMine l = true) (hopen : s.pxc.txStopped = false)
  (hnew : s.sup.frameReplies.find? (fun x => x.1 == beAt l 6 6 && x.2.1 == beAt l 16 2) = none)

theorem frameStatus_lt (s : State) (p : Bytes) : s.frameStatus p < 256 := by
  unfold State.frameStatus
  dsimp only
  repeat' split
  all_goals decide

/-- A request that is served asks for some word. -/
theorem frameStatus_count {p : Bytes} (h : s.frameStatus p = 0) : beAt p 8 1 ≠ 0 := by
  intro hzero
  simp only [State.frameStatus, hzero, decide_true, Bool.true_or, if_true] at h
  split at h
  · exact absurd h (by decide)
  · split at h <;> exact absurd h (by decide)

include hc hserved hrun hmine hopen hnew

theorem regFrameRead_completes (hop : beAt l 15 1 = 1) : completes (.regFrameRead l) s fun t => ∃ r : Bytes, t.out = .mgmt r :: s.out ∧
    beAt r 0 6 = beAt l 6 6 ∧ beAt r 16 2 = beAt l 16 2 ∧ beAt r 23 1 = s.frameStatus (l.drop 14) ∧
    (s.frameStatus (l.drop 14) = 0 → beAt r 26 4 = ((s.settleFor (beAt l 18 4)).read32 .frame (beAt l 18 4)).1 % 2 ^ 32) := by
  have hop' : beAt (l.drop 14) 1 1 = 1 := (beAt_drop ..).trans hop
  have hkept : FrameKept s (s.frameData (l.drop 14)).2 := by
    unfold State.frameData
    rw [if_pos hop']
    split
    · exact FrameKept.refl s
    · exact frameKept_frameRead ..
  have hq := length_repeated hmine
  refine ⟨_, congrArg ok (serveFrame_new hserved hrun hmine hnew (hkept.boot hc)), _,
    (frameReply_out (hkept.stopped.trans hopen) ..).trans (by rw [hkept.out]), ?_, ?_, ?_, fun hst => ?_⟩
  · exact frameAnswer_src (beAt_lt l 6 6)
  · exact (frameAnswer_seq hq).trans (repeated_seq l)
  · exact frameAnswer_status hq (frameStatus_lt ..)
  · obtain ⟨n, hn⟩ := Nat.exists_eq_succ_of_ne_zero (frameStatus_count hst)
    have hdata : (s.frameData (l.drop 14)).1 = (s.frameRead (beAt l 18 4) (n + 1)).1 := by
      rw [State.frameData, hst, if_neg (by decide), if_pos hop', hn, beAt_drop]
    rw [hdata, frameRead_succ]
    exact frameAnswer_data hq _ _

omit hc hserved hrun hmine hopen hnew

/-- A frame's write of a word of FPU's space comes to the write of that word alone. -/
theorem frameWrite_fpu {k v : Nat} (hk : k / 0x1000000 = 6) (hcheck : inRange k 0x06001040 0x20 = false) (hlow : isPairLow k = false)
    (hhigh : isPairLow (k - 4) = false) (hv : v < 2 ^ 32) : s.frameWrite k [v] = s.writeWord .frame k v := by
  have hroute : State.routeWord .frame k v s = s.writeWord .frame k v := by
    have hmay : s.mayWrite .frame k = s.shows k := by simp [State.mayWrite, isManager, State.served]
    unfold State.routeWord
    rw [if_neg (by omega), if_neg (by omega), hmay, hk]
    cases hshow : s.shows k with
    | false => simp [writeWord_hidden hshow]
    | true => simp [State.writeFpu, hcheck]
  have hkey : s.writeKey .frame k 4 v = s.writeWord .frame k v := by
    rw [State.writeKey, State.writeKeyVia, if_pos rfl, Nat.mod_eq_of_lt hv, write32Via_plain hlow hhigh, hroute]
  simp only [State.frameWrite, hkey, ite_self]

theorem frameKept_writeWord (s : State) (r : Requester) {k : Nat} (hk : k ≠ 0x1608) (v : Nat) : FrameKept s (s.writeWord r k v) := by
  have hwithin : Within (· != 0x1608) s (s.writeWord r k v) := by
    refine within_writeWord (Within.refl s) (by simpa using hk) (fun j hj => ?_) (fun j hj => ?_)
    all_goals simpa using fun h => absurd hj (by rw [h]; decide)
  refine ⟨hwithin, ?_, ?_⟩ <;> rw [writeWord_rest]

section
variable (hk : beAt l 18 4 / 0x1000000 = 6) (hcheck : inRange (beAt l 18 4) 0x06001040 0x20 = false)
  (hlow : isPairLow (beAt l 18 4) = false) (hhigh : isPairLow (beAt l 18 4 - 4) = false)
include hc hserved hrun hmine hnew hk hcheck hlow hhigh

/-- A request that writes one word of FPU's space writes it, and is answered. -/
theorem serveFrame_write (hop : beAt l 15 1 = 2) (hone : beAt l 22 1 = 1) (hst : s.frameStatus (l.drop 14) = 0) :
    ∃ r : Bytes, beAt r 23 1 = 0 ∧ s.serveFrame l =
      (s.writeWord .frame (beAt l 18 4) (beAt l 26 4)).frameReply (beAt l 6 6) (beAt l 16 2) r := by
  have hdata : s.frameData (l.drop 14) = ([], s.writeWord .frame (beAt l 18 4) (beAt l 26 4)) := by
    have hwords : (List.range 1).map (fun i => beAt (l.drop 14) (12 + 4 * i) 4) = [beAt l 26 4] := by
      rw [List.range_one, List.map_singleton, beAt_drop]
    rw [State.frameData, hst, if_neg (by decide), beAt_drop, hop, if_neg (by decide), beAt_drop, beAt_drop, hone, hwords,
      frameWrite_fpu hk hcheck hlow hhigh (beAt_lt l 26 4)]
  have hkept : FrameKept s (s.frameData (l.drop 14)).2 := by
    rw [hdata]
    exact frameKept_writeWord s .frame (by omega) _
  have hserve := serveFrame_new hserved hrun hmine hnew (hkept.boot hc)
  rw [hdata] at hserve
  exact ⟨_, frameAnswer_status (length_repeated hmine) (frameStatus_lt ..) |>.trans hst, hserve⟩

omit hc hserved hrun hmine hnew hk hcheck hlow hhigh in
theorem withWalks_out (s : State) (w : List Walk8) (run : State → State) :
    (s.withWalks w run).out = (run { s with ttu := { s.ttu with walks := w } }).out := rfl

omit hc hserved hrun hmine hnew hk hcheck hlow hhigh in
theorem withWalks_rd (s : State) (w : List Walk8) (run : State → State) (k : Nat) :
    (s.withWalks w run).rd k = (run { s with ttu := { s.ttu with walks := w } }).rd k := rfl

include hopen

theorem regFrameWrite_completes (w : List Walk8) (hop : beAt l 15 1 = 2) (hone : beAt l 22 1 = 1) (hst : s.frameStatus (l.drop 14) = 0) :
    completes (.regFrameWrite l w) s fun t => (∃ r : Bytes, t.out = .mgmt r :: s.out ∧ beAt r 23 1 = 0) ∧
      t.rd (beAt l 18 4) = (if s.shows (beAt l 18 4) then rowOf (beAt l 18 4) else none).elim (s.rd (beAt l 18 4)) fun row =>
        row.fields.foldl (writeField (s.flag (Reg.UNIT_SEALED 6)) (beAt l 26 4)) (s.rd (beAt l 18 4)) % 2 ^ 32 := by
  obtain ⟨r, hr, hserve⟩ := serveFrame_write (s := { s with ttu := { s.ttu with walks := w } }) hc hserved hrun hmine hnew hk hcheck hlow hhigh
    hop hone hst
  have hkept := frameKept_writeWord { s with ttu := { s.ttu with walks := w } } .frame (k := beAt l 18 4) (by omega) (beAt l 26 4)
  refine ⟨_, rfl, ⟨r, ?_, hr⟩, ?_⟩
  · rw [withWalks_out, hserve, frameReply_out (hkept.stopped.trans hopen), hkept.out]
  · rw [withWalks_rd, hserve, frameReply_rd, ← sealedAt_fpu hk]
    exact (rd_writeWord (s := { s with ttu := { s.ttu with walks := w } }) hc (logWord_fpu hk) (arbLostWord_fpu hk)).trans
      (rd_setWord (s := { s with ttu := { s.ttu with walks := w } }) hc _ _)

end

end

/-! ## The service cores (R427) -/

theorem serviceRestart_completes {s : State} (hrun : s.sup.svcRestarting = true) (hheld : s.sup.svcHeld = []) :
    completes .serviceRestart s fun t => t = { s with sup := { s.sup with svcRestarting := false } } := by
  refine ⟨_, ?_, rfl⟩
  simp only [exec, execServiceRestart, hrun, hheld, Bool.not_true, Bool.false_eq_true, if_false, List.foldl_nil]

theorem serviceWaitTimeout_read {s : State} {size : Nat} {x : SvcWait} (h : s.sup.svcHeld.find? (SvcWait.reads size) = some x) :
    completes (.serviceWaitTimeout size) s fun t =>
      t = { s with reply := some (.data (2 ^ (8 * size) - 1)), sup := { s.sup with svcHeld := s.sup.svcHeld.erase x } } := by
  refine ⟨_, ?_, rfl⟩
  simp only [exec, execServiceWaitTimeout, h]

theorem serviceWaitTimeout_frame {s : State} {size : Nat} {x : SvcWait} (hread : s.sup.svcHeld.find? (SvcWait.reads size) = none)
    (h : s.sup.svcHeld.find? SvcWait.isFrame = some x) :
    completes (.serviceWaitTimeout size) s fun t => t = { s with sup := { s.sup with svcHeld := s.sup.svcHeld.erase x } } := by
  refine ⟨_, ?_, rfl⟩
  simp only [exec, execServiceWaitTimeout, hread, h]

/-- Settles O16: an answer's fields are placed by its bytes, and what a request reads or writes restarts nothing. -/
theorem serviceAccessesComplete : Obligations.ServiceAccessesComplete := by
  intro s hc
  refine ⟨fun l hserved hrun hmine hopen hop hnew => regFrameRead_completes hc hserved hrun hmine hopen hnew hop, ?_,
    serviceRestart_completes, fun size x => ⟨serviceWaitTimeout_read, serviceWaitTimeout_frame⟩⟩
  intro l w hserved hrun hmine hopen hop hnew hone hst hk hcheck hlow hhigh
  obtain ⟨t, hexec, hout, hword⟩ := regFrameWrite_completes hc hserved hrun hmine hopen hnew hk hcheck hlow hhigh w hop hone hst
  refine ⟨t, hexec, hout, hword.trans ?_⟩
  cases (if s.shows (beAt l 18 4) then rowOf (beAt l 18 4) else none) <;> rfl

end Sys2Proof.Machine
end

section
/-! PROOFS. Fencing of an ACTIVE member (R309), and what fencing leaves alone in SUP. -/

namespace Sys2Proof.Machine

/-! ## An ACTIVE member fences (R309) -/

/-- The unit with a held cause noted. -/
def State.causeHeld (s : State) (cause : Nat) : State :=
  s.when (heldCause cause && !s.hgc.heldCauses.contains cause) (fun s =>
    { s with hgc := { s.hgc with heldCauses := cause :: s.hgc.heldCauses } })

/-- An ACTIVE member fenced, its event still to be raised. -/
def State.fencedWith (s : State) (cause : Nat) : State :=
  ((((s.causeHeld cause).keepEpoch.put Reg.HGC_STATE_STATE 5).put Reg.HGC_STATE_FENCE_CAUSE cause).refreshLayered).put Reg.HGC_CTL_RELEASE 0

/-- The words that fencing changes. -/
def fenceWord (k : Nat) : Bool := words [Reg.HGC_STATE_STATE, Reg.HGC_EPOCH_AON_VALID, Reg.HGC_CTL_RELEASE] k

section
variable {s : State} {cause : Nat}

theorem fence_active (hpair : s.pairRole = true) (hactive : s.hedgeState = 4) :
    s.fence cause = (s.fencedWith cause).raise .hgc 4 [(8, cause)] := by
  unfold State.fence
  dsimp only
  rw [hpair, hactive]
  rfl

theorem causeHeld_eq (s : State) (cause : Nat) : ∃ l, s.causeHeld cause = { s with hgc := { s.hgc with heldCauses := l } } ∧
    (heldCause cause = true → cause ∈ l) ∧ (heldCause cause = false → l = s.hgc.heldCauses) ∧
    (∀ c, c ≠ cause → (c ∈ l ↔ c ∈ s.hgc.heldCauses)) := by
  unfold State.causeHeld State.when
  by_cases h : heldCause cause = true
  · by_cases hin : cause ∈ s.hgc.heldCauses
    · exact ⟨_, if_neg (by simp [hin]), fun _ => hin, fun _ => rfl, fun _ _ => Iff.rfl⟩
    · exact ⟨_, if_pos (by simp [h, hin]), fun _ => List.mem_cons_self, fun hno => absurd (h.symm.trans hno) (by decide),
        fun c hne => by simp [hne]⟩
  · exact ⟨_, if_neg (by simp [h]), fun hyes => absurd hyes h, fun _ => rfl, fun _ _ => Iff.rfl⟩

theorem refreshLayered_eq (s : State) : ∃ v, s.refreshLayered = s.put Reg.HGC_STATE_NOT_FIT v := ⟨_, rfl⟩

/-- What fencing does to the registers, as a list of fields set. -/
theorem fencedWith_eq (s : State) (cause : Nat) : ∃ v, s.fencedWith cause = (s.causeHeld cause).puts [(Reg.HGC_EPOCH_AON_VALID, 1),
    (Reg.HGC_EPOCH_AON_LAST_EPOCH, s.get Reg.HGC_STATE_EPOCH), (Reg.HGC_STATE_STATE, 5), (Reg.HGC_STATE_FENCE_CAUSE, cause),
    (Reg.HGC_STATE_NOT_FIT, v), (Reg.HGC_CTL_RELEASE, 0)] := by
  obtain ⟨l, hl, -⟩ := causeHeld_eq s cause
  have hepoch : (s.causeHeld cause).get Reg.HGC_STATE_EPOCH = s.get Reg.HGC_STATE_EPOCH := by rw [hl]; rfl
  obtain ⟨v, hv⟩ := refreshLayered_eq (((s.causeHeld cause).keepEpoch.put Reg.HGC_STATE_STATE 5).put Reg.HGC_STATE_FENCE_CAUSE cause)
  refine ⟨v, ?_⟩
  rw [State.fencedWith, hv, State.keepEpoch, hepoch]
  simp only [State.puts, List.foldl_cons, List.foldl_nil]

theorem writes_fencedWith (s : State) (cause : Nat) : Writes fenceWord (s.causeHeld cause) (s.fencedWith cause) := by
  obtain ⟨v, h⟩ := fencedWith_eq s cause
  rw [h]
  exact writes_puts (Writes.refl _) (by simp [fenceWord, words])

variable (hc : s.canon = true)
include hc

theorem canon_causeHeld (cause : Nat) : (s.causeHeld cause).canon = true := by
  obtain ⟨l, hl, -⟩ := causeHeld_eq s cause
  rw [hl]
  exact hc

theorem fencedWith_state : (s.fencedWith cause).hedgeState = 5 := by
  obtain ⟨v, h⟩ := fencedWith_eq s cause
  rw [h]
  exact get_puts_last (canon_causeHeld hc cause) [_, _] (by decide) (by simp only [List.all_cons, List.all_nil]; decide)

theorem fencedWith_cause (hcause : cause < 16) : (s.fencedWith cause).get Reg.HGC_STATE_FENCE_CAUSE = cause := by
  obtain ⟨v, h⟩ := fencedWith_eq s cause
  rw [h]
  exact (get_puts_last (canon_causeHeld hc cause) [_, _, _] (by decide) (by simp only [List.all_cons, List.all_nil]; decide)).trans
    (Nat.mod_eq_of_lt hcause)

theorem fencedWith_lastEpoch : (s.fencedWith cause).get Reg.HGC_EPOCH_AON_LAST_EPOCH = s.get Reg.HGC_STATE_EPOCH := by
  obtain ⟨v, h⟩ := fencedWith_eq s cause
  rw [h]
  exact (get_puts_last (canon_causeHeld hc cause) [_] (by decide) (by simp only [List.all_cons, List.all_nil]; decide)).trans
    (Nat.mod_eq_of_lt (get_lt s Reg.HGC_STATE_EPOCH))

theorem fencedWith_release : (s.fencedWith cause).flag Reg.HGC_CTL_RELEASE = false := by
  obtain ⟨v, h⟩ := fencedWith_eq s cause
  rw [h]
  exact flag_puts_bit (b := false) (canon_causeHeld hc cause) [_, _, _, _, _] (by decide) (by decide) (by decide)

/-- A field clear of the event store's counter reads after the fence as before its event. -/
theorem get_fence (hpair : s.pairRole = true) (hactive : s.hedgeState = 4) {f : Field} (hlo : words [Reg.QE_ARB_LOST] f.key = false)
    (hhi : words [Reg.QE_ARB_LOST] (f.key + 4) = false) : (s.fence cause).get f = (s.fencedWith cause).get f := by
  rw [fence_active hpair hactive]
  exact get_raise ((writes_fencedWith s cause).canon (canon_causeHeld hc cause)) _ _ _ hlo hhi

end

section
variable {s : State} {cause : Nat} (hc : s.canon = true) (hpair : s.pairRole = true) (hactive : s.hedgeState = 4)
include hpair hactive

theorem posted_fence {s₀ : State} (hevents : s.events = s₀.events) : posted s₀ (s.fence cause) .hgc 4 [(8, cause)] := by
  obtain ⟨l, hl, -⟩ := causeHeld_eq s cause
  have hkept : (s.fencedWith cause).events = s₀.events := by rw [(writes_fencedWith s cause).rest, hl]; exact hevents
  rw [fence_active hpair hactive]
  exact posted_raise hkept _ _ _

theorem within_fence {area : Nat → Bool} {s₀ : State} (h : Within area s₀ s) (harea : ∀ k, fenceWord k = true → area k = true)
    (hlost : ∀ k, words [Reg.QE_ARB_LOST] k = true → area k = true) : Within area s₀ (s.fence cause) := by
  obtain ⟨l, hl, -⟩ := causeHeld_eq s cause
  have hheld : Within area s (s.causeHeld cause) := by
    rw [hl]
    exact within_same (Within.refl s) rfl rfl rfl
  rw [fence_active hpair hactive]
  exact within_raise ((h.trans hheld).trans ((writes_fencedWith s cause).within.mono harea)) (hlost _ (by decide)) (hlost _ (by decide))

theorem bare_fence : (s.fence cause).bare = (s.causeHeld cause).bare := by
  rw [fence_active hpair hactive, bare_raise, (writes_fencedWith s cause).bare]

theorem heldCauses_fence (hheld : heldCause cause = true) : cause ∈ (s.fence cause).hgc.heldCauses := by
  obtain ⟨l, hl, hin, -⟩ := causeHeld_eq s cause
  have hhgc : (s.fence cause).hgc = (s.causeHeld cause).hgc := by
    have := congrArg State.hgc (bare_fence (cause := cause) hpair hactive)
    exact this
  rw [hhgc, hl]
  exact hin hheld

include hc

theorem fence_state : (s.fence cause).hedgeState = 5 := (get_fence hc hpair hactive (by decide) (by decide)).trans (fencedWith_state hc)

theorem fence_cause (hcause : cause < 16) : (s.fence cause).get Reg.HGC_STATE_FENCE_CAUSE = cause :=
  (get_fence hc hpair hactive (by decide) (by decide)).trans (fencedWith_cause hc hcause)

theorem fence_lastEpoch : (s.fence cause).get Reg.HGC_EPOCH_AON_LAST_EPOCH = s.get Reg.HGC_STATE_EPOCH :=
  (get_fence hc hpair hactive (by decide) (by decide)).trans (fencedWith_lastEpoch hc)

theorem fence_release : (s.fence cause).flag Reg.HGC_CTL_RELEASE = false := by
  rw [State.flag, get_fence hc hpair hactive (by decide) (by decide)]
  exact fencedWith_release hc

end

/-! ## What fencing leaves alone, whatever the state -/

/-- From `s` to `t` words outside SUP's space may change, events may be raised, and the state of the pair and the bookings. -/
structure FenceChange (s t : State) : Prop where
  within : Within (fun k => decide (0x1000000 ≤ k)) s t
  rest : t = { s with regs := t.regs, events := t.events, once := t.once, hgc := t.hgc, te := t.te }

section
variable {s₀ s t : State}

theorem FenceChange.refl (s : State) : FenceChange s s := ⟨Within.refl s, rfl⟩

theorem FenceChange.trans (h : FenceChange s₀ s) (g : FenceChange s t) : FenceChange s₀ t :=
  ⟨h.within.trans g.within, by rw [g.rest, h.rest]⟩

theorem FenceChange.get (h : FenceChange s t) (hc : s.canon = true) {f : Field} (hf : f.key + 4 < 0x1000000) : t.get f = s.get f :=
  h.within.get_eq hc (decide_eq_false (by omega)) (decide_eq_false (by omega))

theorem FenceChange.free (h : FenceChange s t) : t.free = s.free := by rw [h.rest]
theorem FenceChange.egu (h : FenceChange s t) : t.egu = s.egu := by rw [h.rest]
theorem FenceChange.pxc (h : FenceChange s t) : t.pxc = s.pxc := by rw [h.rest]

theorem fenceChange_put (s : State) {f : Field} (v : Nat) (hf : 0x1000000 ≤ f.key) : FenceChange s (s.put f v) :=
  ⟨within_put (Within.refl s) (decide_eq_true hf) (.inr (decide_eq_true (by omega))), by rw [put_rest]⟩

theorem fenceChange_foldl {α : Type} {f : State → α → State} (hf : ∀ s x, FenceChange s (f s x)) (l : List α) (s : State) :
    FenceChange s (l.foldl f s) := by
  induction l generalizing s with
  | nil => exact FenceChange.refl s
  | cons x l ih => exact (hf s x).trans (ih _)

theorem fenceChange_raise (s : State) (u : Unit') (type : Nat) (l : List (Nat × Nat)) : FenceChange s (s.raise u type l) :=
  ⟨within_raise (Within.refl s) (by decide) (by decide), by unfold State.raise; rw [raiseEvent_rest]⟩

theorem fenceChange_withTe (s : State) (x : TeState) : FenceChange s { s with te := x } := ⟨within_same (Within.refl s) rfl rfl rfl, rfl⟩

theorem fenceChange_withHgc (s : State) (x : HgcState) : FenceChange s { s with hgc := x } := ⟨within_same (Within.refl s) rfl rfl rfl, rfl⟩

theorem fenceChange_when {f : State → State} (s : State) (b : Bool) (h : ∀ s, FenceChange s (f s)) : FenceChange s (s.when b f) := by
  cases b with
  | false => exact FenceChange.refl s
  | true => exact h s

theorem fenceChange_rebook (s : State) : FenceChange s s.rebook := by
  have hrow : ∀ (s : State) (i v : Nat), FenceChange s (s.put (Reg.TE_LEDGER_USED i) v) := fun s i v => fenceChange_put s v (by simp only; omega)
  refine fenceChange_foldl (fun s b => ?_) s.te.books s
  exact ((fenceChange_foldl (fun s (x : Nat × Nat) => hrow s x.1 _) _ s).trans
    (fenceChange_foldl (fun s (x : Nat × Nat) => hrow s x.1 _) _ _)).trans (fenceChange_withTe _ _)

theorem fenceChange_keepEpoch (s : State) : FenceChange s s.keepEpoch :=
  (fenceChange_put s _ (by decide)).trans (fenceChange_put _ _ (by decide))

theorem fenceChange_refreshLayered (s : State) : FenceChange s s.refreshLayered := fenceChange_put s _ (by decide)

theorem fenceChange_fence (s : State) (cause : Nat) : FenceChange s (s.fence cause) := by
  have hheld : FenceChange s (s.causeHeld cause) := by
    obtain ⟨l, hl, -⟩ := causeHeld_eq s cause
    rw [hl]
    exact fenceChange_withHgc s _
  unfold State.fence
  dsimp only
  split
  · exact FenceChange.refl s
  · rw [← State.causeHeld]
    split
    · have hstate := (hheld.trans (fenceChange_when _ (s.hedgeState == 4) fenceChange_keepEpoch)).trans
        (fenceChange_put _ 5 (f := Reg.HGC_STATE_STATE) (by decide))
      have hcause := (hstate.trans (fenceChange_put _ cause (f := Reg.HGC_STATE_FENCE_CAUSE) (by decide))).trans (fenceChange_refreshLayered _)
      exact hcause.trans (((fenceChange_put _ _ (by decide)).trans (fenceChange_raise _ _ _ _)).trans (fenceChange_when _ _ fenceChange_rebook))
    · split
      · exact (hheld.trans (fenceChange_put _ _ (by decide))).trans (fenceChange_refreshLayered _)
      · exact hheld

end

end Sys2Proof.Machine
end

section
/-! PROOFS. Single faults (R426 to R434, R449, R469, R470): SAFE_STOP, the clocks, the service cores, temperature, scrubbing and BIST. -/

namespace Sys2Proof.Machine

/-! ## SAFE_STOP (R426) -/

/-- SAFE_STOP shown with its cause, and recorded. -/
def State.stopShown (s : State) (code : Nat) : State :=
  ((s.put Reg.SUP_SAFETY_STATUS_SAFE_STOP 1).put Reg.SUP_SAFETY_STATUS_CAUSE code).hlog 13 0 (payload [(8, code)])

/-- SAFE_STOP shown, raised and entered as SUP's fault; fencing is still to come. -/
def State.stopEntered (s : State) (code : Nat) : State := ((s.stopShown code).raise .sup 6 [(8, code)]).fault 0 code

/-- The words that the entry of SAFE_STOP changes. -/
def stopWord (k : Nat) : Bool := words [Reg.SUP_SAFETY_STATUS_SAFE_STOP] k || (reportWord k || words [Reg.UNIT_FAULT 0] k)

section
variable {s : State} {code : Nat}

theorem safeStop_eq (h : s.flag Reg.SUP_SAFETY_STATUS_SAFE_STOP = false) (code : Nat) : s.safeStop code = (s.stopEntered code).fence 6 := by
  simp only [State.safeStop, h, Bool.false_eq_true, if_false, State.stopEntered, State.stopShown]

theorem within_stopEntered (s : State) (code : Nat) : Within stopWord s (s.stopEntered code) := by
  have hlog : ∀ k, logWord k = true → stopWord k = true := fun k hk => by simp [stopWord, reportWord, hk]
  have hput : Within stopWord s ((s.put Reg.SUP_SAFETY_STATUS_SAFE_STOP 1).put Reg.SUP_SAFETY_STATUS_CAUSE code) :=
    within_put (within_put (Within.refl s) (by decide) (.inl (by decide))) (by decide) (.inl (by decide))
  exact (within_raise (within_hlog hput hlog) (by decide) (by decide)).trans
    ((within_fault _ 0 code).mono fun k hk => by rw [stopWord, hk, Bool.or_true])

theorem bare_stopEntered (s : State) (code : Nat) : (s.stopEntered code).bare = s.bare := by
  rw [State.stopEntered, bare_fault, bare_raise, State.stopShown, bare_hlog, bare_put, bare_put]

variable (hc : s.canon = true)
include hc

theorem canon_stopShown (code : Nat) : (s.stopShown code).canon = true := (keeps_hlog (Keeps.refl _)).canon (canon_put (canon_put hc))

/-- A field of the safety status is shown past the report and the fault. -/
theorem get_stopEntered {f : Field} (hkey : f.key = 0x1400) (hword : f.hi < 32) : (s.stopEntered code).get f =
    ((s.put Reg.SUP_SAFETY_STATUS_SAFE_STOP 1).put Reg.SUP_SAFETY_STATUS_CAUSE code).get f := by
  have hput : ((s.put Reg.SUP_SAFETY_STATUS_SAFE_STOP 1).put Reg.SUP_SAFETY_STATUS_CAUSE code).canon = true := canon_put (canon_put hc)
  have hrest : Within (fun k => reportWord k || words [Reg.UNIT_FAULT 0] k)
      ((s.put Reg.SUP_SAFETY_STATUS_SAFE_STOP 1).put Reg.SUP_SAFETY_STATUS_CAUSE code) (s.stopEntered code) :=
    (within_raise (within_hlog (Within.refl _) fun k hk => by simp [reportWord, hk]) (by decide) (by decide)).trans (within_fault _ 0 code)
  exact hrest.get_eq_low hput hword (by rw [hkey]; decide)

theorem stopEntered_flag : (s.stopEntered code).flag Reg.SUP_SAFETY_STATUS_SAFE_STOP = true := by
  rw [State.flag, get_stopEntered hc rfl (by decide), ← State.flag, flag_put_off (canon_put hc) (by decide),
    flag_put_same hc (by decide) (by decide)]
  rfl

theorem stopEntered_cause (hcode : code < 256) : (s.stopEntered code).get Reg.SUP_SAFETY_STATUS_CAUSE = code := by
  rw [get_stopEntered hc rfl (by decide), get_put_same (canon_put hc) (by decide)]
  exact Nat.mod_eq_of_lt hcode

theorem stopEntered_fault (hcode : code < 256) (hfree : s.get (Reg.UNIT_FAULT 0) = 0) :
    (s.stopEntered code).get (Reg.UNIT_FAULT 0) = code := by
  have hbefore : ((s.stopShown code).raise .sup 6 [(8, code)]).get (Reg.UNIT_FAULT 0) = 0 := by
    rw [get_raise (canon_stopShown hc code) _ _ _ (by decide) (by decide), State.stopShown,
      get_hlog (canon_put (canon_put hc)) (by decide) (by decide), get_put_off (canon_put hc) (by decide), get_put_off hc (by decide), hfree]
  have hraised : ((s.stopShown code).raise .sup 6 [(8, code)]).canon = true :=
    (within_raise (area := words [Reg.QE_ARB_LOST]) (Within.refl _) (by decide) (by decide)).canon (canon_stopShown hc code)
  rw [State.stopEntered, get_fault hraised hbefore]
  exact Nat.mod_eq_of_lt hcode

theorem stopEntered_hedge : (s.stopEntered code).pairRole = s.pairRole ∧ (s.stopEntered code).hedgeState = s.hedgeState := by
  have hwithin := within_stopEntered s code
  constructor
  · rw [State.pairRole, hwithin.get_eq hc (by decide) (by decide)]; rfl
  · exact hwithin.get_eq hc (by decide) (by decide)

end

section
variable {s : State} {code : Nat} (hc : s.canon = true) (hstop : s.flag Reg.SUP_SAFETY_STATUS_SAFE_STOP = false)
include hstop

theorem safeStop_free : (s.safeStop code).free = s.free := by
  have hsame := congrArg State.free (bare_stopEntered s code)
  rw [safeStop_eq hstop]
  exact (fenceChange_fence _ 6).free.trans hsame

theorem safeStop_egu : (s.safeStop code).egu = s.egu := by
  rw [safeStop_eq hstop, (fenceChange_fence _ 6).egu, egu_of_bare (bare_stopEntered s code)]

theorem safeStop_pxc : (s.safeStop code).pxc = s.pxc := by
  rw [safeStop_eq hstop, (fenceChange_fence _ 6).pxc, pxc_of_bare (bare_stopEntered s code)]

include hc

theorem safeStop_get {f : Field} (hf : f.key + 4 < 0x1000000) : (s.safeStop code).get f = (s.stopEntered code).get f := by
  rw [safeStop_eq hstop]
  exact (fenceChange_fence _ 6).get ((within_stopEntered s code).canon hc) hf

theorem safeStop_flag : (s.safeStop code).flag Reg.SUP_SAFETY_STATUS_SAFE_STOP = true := by
  rw [State.flag, safeStop_get hc hstop (by decide)]
  exact stopEntered_flag hc

theorem safeStop_cause (hcode : code < 256) : (s.safeStop code).get Reg.SUP_SAFETY_STATUS_CAUSE = code :=
  (safeStop_get hc hstop (by decide)).trans (stopEntered_cause hc hcode)

theorem safeStop_completes (hcode : code < 256) : (s.safeStop code).flag Reg.SUP_SAFETY_STATUS_SAFE_STOP = true ∧
    (s.safeStop code).get Reg.SUP_SAFETY_STATUS_CAUSE = code ∧
    (s.get (Reg.UNIT_FAULT 0) = 0 → (s.safeStop code).get (Reg.UNIT_FAULT 0) = code) ∧
    (s.pairRole = true → s.active = true → (s.safeStop code).hedgeState = 5 ∧ (s.safeStop code).get Reg.HGC_STATE_FENCE_CAUSE = 6) := by
  refine ⟨safeStop_flag hc hstop, safeStop_cause hc hstop hcode, fun hfree => ?_, fun hpair hactive => ?_⟩
  · exact (safeStop_get hc hstop (by decide)).trans (stopEntered_fault hc hcode hfree)
  · obtain ⟨hrole, hstate⟩ := stopEntered_hedge (code := code) hc
    have hentered := (within_stopEntered s code).canon hc
    have hfour : (s.stopEntered code).hedgeState = 4 := hstate.trans (eq_of_beq hactive)
    rw [safeStop_eq hstop]
    exact ⟨fence_state hentered (hrole.trans hpair) hfour, fence_cause hentered (hrole.trans hpair) hfour (by decide)⟩

theorem safetyOrder_completes (hpow : s.powered = true) : completes .safetyOrder s fun t =>
    t.flag Reg.SUP_SAFETY_STATUS_SAFE_STOP = true ∧ t.free = s.free + 1 := by
  let u : State := { s with free := s.free + 1 }
  have hexec : exec .safetyOrder s = ok (u.safeStop (1 + Config.freeValue s.free % 16)) := by
    change ok (s.when s.powered State.safeStopFree) = _
    rw [hpow]
    rfl
  exact ⟨_, hexec, safeStop_flag (s := u) hc hstop, safeStop_free (s := u) hstop⟩

end

/-! ## The clocks (R449, R428) -/

section
variable {s : State}

theorem abortTx_change (s : State) (p : Nat) : Within (fun k => decide (0x1000000 ≤ k)) s (s.abortTx p) := by
  have hclose : ∀ {s t : State}, Closes s t → Within (fun k => decide (0x1000000 ≤ k)) s t := fun h => h.within.mono fun k hk => by
    simp only [closeWord, settleWord, bufferWord, inRange, Bool.or_eq_true, Bool.and_eq_true, decide_eq_true_eq] at hk ⊢
    omega
  unfold State.abortTx
  split
  · exact Within.refl s
  · refine Within.trans ?_ (hclose ((settles_payDebt _ _).closes.trans (closes_releaseWith _ _ _)))
    exact within_put (f := statField p 20) (within_same (hclose (settles_settle s).closes) rfl rfl rfl)
      (decide_eq_true (by simp only [statField]; omega)) (.inr (decide_eq_true (by simp only [statField]; omega)))

theorem abortTx_tx (s : State) (p q : Nat) :
    Assoc.get? (s.abortTx p).egu.tx q = if q = p then none else Assoc.get? s.egu.tx q := by
  unfold State.abortTx
  split
  next h =>
    by_cases hq : q = p
    · rw [if_pos hq, hq, h]
    · rw [if_neg hq]
  next x h =>
    dsimp only
    rw [(closes_releaseWith _ _ _).tx, (settles_payDebt _ _).closes.tx, State.stat, State.bumpBy, State.put_egu]
    have hsettled : s.settle.egu.tx = s.egu.tx := (settles_settle s).closes.tx
    change Assoc.get? (Assoc.erase s.settle.egu.tx p) q = _
    rw [hsettled]
    by_cases hq : q = p
    · rw [if_pos hq, hq, Assoc.get?_erase_same]
    · rw [if_neg hq, Assoc.get?_erase_ne _ hq]

theorem abortTxs_change (l : List Nat) (s : State) : Within (fun k => decide (0x1000000 ≤ k)) s (l.foldl (fun s p => s.abortTx p) s) :=
  within_foldl (Within.refl s) fun _ p h => h.trans (abortTx_change _ p)

theorem abortTxs_tx (l : List Nat) (s : State) {q : Nat} (hq : q ∈ l) :
    Assoc.get? (l.foldl (fun s p => s.abortTx p) s).egu.tx q = none := by
  have hidle : ∀ (l : List Nat) (s : State), Assoc.get? s.egu.tx q = none →
      Assoc.get? (l.foldl (fun s p => s.abortTx p) s).egu.tx q = none := fun l => by
    induction l with
    | nil => exact fun s h => h
    | cons p l ih => exact fun s h => ih _ (by rw [abortTx_tx, h, ite_self])
  induction l generalizing s with
  | nil => exact absurd hq (List.not_mem_nil)
  | cons p l ih =>
    by_cases hin : q ∈ l
    · exact ih _ hin
    · have hqp : q = p := (List.mem_cons.mp hq).resolve_right hin
      exact hidle l _ (by rw [abortTx_tx, if_pos hqp])

/-- Every MAC transmitter stopped. -/
def State.txHalted (s : State) : State := { s with pxc := { s.pxc with txStopped := true } }

theorem txHalted_get (s : State) (f : Field) : s.txHalted.get f = s.get f := rfl
theorem txHalted_flag (s : State) (f : Field) : s.txHalted.flag f = s.flag f := rfl

/-- A PLL's bit of LOCKED is lost. -/
theorem lock_lost (hc : s.canon = true) (k : Fin 17) :
    bitAt ((s.put Reg.SUP_CLK_STATUS_LOCKED (setBits (s.get Reg.SUP_CLK_STATUS_LOCKED) k 1 0)).get Reg.SUP_CLK_STATUS_LOCKED) k = false := by
  have hk := k.isLt
  rw [get_put_same hc (by decide), bitAt_eq_testBit, Nat.testBit_mod_two_pow, setBits_testBit]
  simp

theorem clockFault_completes (hc : s.canon = true) (k : Fin 17) (hpow : s.powered = true)
    (hstop : s.flag Reg.SUP_SAFETY_STATUS_SAFE_STOP = false) : completes (.clockFault (some k)) s fun t =>
    t.flag Reg.SUP_SAFETY_STATUS_SAFE_STOP = true ∧ t.get Reg.SUP_SAFETY_STATUS_CAUSE = 0x0E ∧ t.pxc.txStopped = true ∧
    bitAt (t.get Reg.SUP_CLK_STATUS_LOCKED) k = false ∧ ∀ p, p < 32 → Assoc.get? t.egu.tx p = none := by
  have hlost := lock_lost hc k
  have hput := canon_put (f := Reg.SUP_CLK_STATUS_LOCKED) (v := setBits (s.get Reg.SUP_CLK_STATUS_LOCKED) k 1 0) hc
  have hsafe : (s.put Reg.SUP_CLK_STATUS_LOCKED (setBits (s.get Reg.SUP_CLK_STATUS_LOCKED) k 1 0)).flag Reg.SUP_SAFETY_STATUS_SAFE_STOP = false :=
    (flag_put_off hc (by decide)).trans hstop
  have hexec : exec (.clockFault (some k)) s = ok (((List.range 32).foldl (fun s p => s.abortTx p)
      (s.put Reg.SUP_CLK_STATUS_LOCKED (setBits (s.get Reg.SUP_CLK_STATUS_LOCKED) k 1 0))).txHalted.safeStop 0x0E) := by
    change execClockFault (some k) s = _
    unfold execClockFault
    rw [hpow]
    dsimp only
    rw [if_neg (by decide)]
    generalize (List.range 32).foldl (fun (s : State) p => s.abortTx p) _ = v
    rfl
  refine ⟨_, hexec, ?_⟩
  generalize s.put Reg.SUP_CLK_STATUS_LOCKED (setBits (s.get Reg.SUP_CLK_STATUS_LOCKED) k 1 0) = u at hlost hput hsafe
  have hchange := abortTxs_change (List.range 32) u
  have htx : ∀ p, p < 32 → Assoc.get? ((List.range 32).foldl (fun s p => s.abortTx p) u).egu.tx p = none := fun p hp =>
    abortTxs_tx _ u (List.mem_range.mpr hp)
  generalize (List.range 32).foldl (fun s p => s.abortTx p) u = v at hchange htx
  have hv : v.txHalted.canon = true := hchange.canon hput
  have hflag : v.txHalted.flag Reg.SUP_SAFETY_STATUS_SAFE_STOP = false := by
    rw [txHalted_flag, State.flag, hchange.get_eq hput (by decide) (by decide)]
    exact hsafe
  have hlock : v.txHalted.get Reg.SUP_CLK_STATUS_LOCKED = u.get Reg.SUP_CLK_STATUS_LOCKED :=
    (txHalted_get ..).trans (hchange.get_eq hput (by decide) (by decide))
  have hshown := (within_stopEntered v.txHalted 0x0E).get_eq hv (f := Reg.SUP_CLK_STATUS_LOCKED)
    (by decide) (by decide)
  refine ⟨safeStop_flag hv hflag, safeStop_cause hv hflag (by decide), ?_, ?_, fun p hp => ?_⟩
  · rw [safeStop_pxc hflag]
    rfl
  · rw [safeStop_get hv hflag (by decide), hshown, hlock]
    exact hlost
  · rw [safeStop_egu hflag]
    exact htx p hp

end

/-! ## The service cores (R427) -/

/-- The words that a restart of the service cores, or their halt, changes. -/
def serviceWord (k : Nat) : Bool := words [Reg.SUP_SAFETY_STATUS_SVC_RESTARTS] k || logWord k

section
variable {s : State}

theorem within_bumpSat {area : Nat → Bool} {s₀ : State} (h : Within area s₀ s) {f : Field} (hlo : area f.key = true)
    (hhi : f.hi < 32 ∨ area (f.key + 4) = true) : Within area s₀ (s.bumpSat f) := by
  unfold State.bumpSat
  exact within_ite (within_put h hlo hhi) h

theorem bare_bumpSat (f : Field) : (s.bumpSat f).bare = s.bare := by
  unfold State.bumpSat
  split
  · exact bare_put ..
  · rfl

theorem get_bumpSat (hc : s.canon = true) {f : Field} (hok : f.ok = true) :
    (s.bumpSat f).get f = min (s.get f + 1) (2 ^ f.width - 1) := by
  have hlt := get_lt s f
  unfold State.bumpSat
  split
  next h =>
    rw [get_put_same hc hok, Nat.mod_eq_of_lt (b := 2 ^ f.width) h]
    rw [Field.width] at hlt ⊢
    omega
  next h =>
    rw [Field.width] at hlt ⊢
    omega

theorem bumpSat_events (f : Field) : (s.bumpSat f).events = s.events := by
  unfold State.bumpSat
  split
  · exact State.put_events ..
  · rfl

/-- The state with another state of SUP. -/
def State.withSup (s : State) (x : SupState) : State := { s with sup := x }

theorem withSup_get (s : State) (x : SupState) (f : Field) : (s.withSup x).get f = s.get f := rfl
theorem withSup_sup (s : State) (x : SupState) : (s.withSup x).sup = x := rfl
theorem withSup_events (s : State) (x : SupState) : (s.withSup x).events = s.events := rfl

theorem withSup_within {area : Nat → Bool} {s₀ : State} (h : Within area s₀ s) {x : SupState} (hx : x.flash = s.sup.flash) :
    Within area s₀ (s.withSup x) := within_same h rfl rfl hx

variable (hc : s.canon = true) (hpow : s.powered = true) (hhalted : s.flag Reg.SUP_SAFETY_STATUS_SVC_HALTED = false)
  (hrun : s.sup.svcRestarting = false)
include hc hpow hhalted hrun

theorem serviceRestarts_completes (hfew : (s.sup.svcTimes.filter (fun x => s.localNs < x + hourNs)).length < 3) :
    completes .serviceHeartbeatMissed s fun t => t.sup.svcRestarting = true ∧
      t.get Reg.SUP_SAFETY_STATUS_SVC_RESTARTS = min (s.get Reg.SUP_SAFETY_STATUS_SVC_RESTARTS + 1) 255 ∧ posted s t .sup 8 [] ∧
      NoisyFrame (fun k => words [Reg.SUP_SAFETY_STATUS_SVC_RESTARTS] k || logWord k) s { s with sup := t.sup } t := by
  obtain ⟨x, hx, hflash, hexec⟩ : ∃ x : SupState, x.svcRestarting = true ∧ x.flash = s.sup.flash ∧ exec .serviceHeartbeatMissed s =
      ok ((((s.withSup x).bumpSat Reg.SUP_SAFETY_STATUS_SVC_RESTARTS).hlog 15 0 0).raise .sup 8 []) := by
    refine ⟨{ s.sup with svcRestarting := true, svcTimes := s.localNs :: s.sup.svcTimes.filter (fun t => s.localNs < t + hourNs) }, rfl, rfl, ?_⟩
    change ok (s.when s.powered State.restartService) = _
    rw [hpow, State.when, if_pos rfl, State.restartService, hhalted, hrun, if_neg (by decide), if_neg (by omega)]
    rfl
  refine ⟨_, hexec, ?_⟩
  have hu : (s.withSup x).canon = true := (withSup_within (area := serviceWord) (Within.refl s) hflash).canon hc
  have hbump : ((s.withSup x).bumpSat Reg.SUP_SAFETY_STATUS_SVC_RESTARTS).canon = true :=
    (within_bumpSat (area := serviceWord) (Within.refl _) (by decide) (.inl (by decide))).canon hu
  have hlogged := (keeps_hlog (type := 15) (u := 0) (pay := 0) (Keeps.refl _)).canon hbump
  have hbare : ((((s.withSup x).bumpSat Reg.SUP_SAFETY_STATUS_SVC_RESTARTS).hlog 15 0 0).raise .sup 8 []).bare = (s.withSup x).bare :=
    (bare_raise ..).trans ((bare_hlog ..).trans (bare_bumpSat _))
  have hsup := (sup_of_bare hbare).trans (withSup_sup s x)
  refine ⟨?_, ?_, posted_raise ?_ _ _ _, noisyFrame_of_bare hc (within_raise (within_hlog (within_bumpSat (withSup_within (Within.refl s) hflash)
    (by decide) (.inl (by decide))) fun k hk => by simp [hk]) (by decide) (by decide)) ?_⟩
  · rw [hsup, hx]
  · rw [get_raise hlogged _ _ _ (by decide) (by decide), get_hlog hbump (by decide) (by decide), get_bumpSat hu (by decide), withSup_get]
    rfl
  · rw [State.hlog_events, bumpSat_events, withSup_events]
  · rw [hsup, hbare]
    rfl

theorem serviceHalts_completes (hmany : 3 ≤ (s.sup.svcTimes.filter (fun x => s.localNs < x + hourNs)).length) :
    completes .serviceHeartbeatMissed s fun t => t.flag Reg.SUP_SAFETY_STATUS_SVC_HALTED = true ∧ t.sup = s.sup := by
  have hexec : exec .serviceHeartbeatMissed s = ok ((s.put Reg.SUP_SAFETY_STATUS_SVC_HALTED 1).fault 0 0x0D) := by
    change ok (s.when s.powered State.restartService) = _
    rw [hpow, State.when, if_pos rfl, State.restartService, hhalted, hrun, if_neg (by decide), if_pos (by omega)]
  refine ⟨_, hexec, ?_, ?_⟩
  · rw [State.flag, (within_fault _ 0 0x0D).get_eq (canon_put hc) (by decide) (by decide), ← State.flag, flag_put_same hc (by decide) (by decide)]
    rfl
  · exact sup_of_bare ((bare_fault ..).trans (bare_put ..))

end

/-! ## Temperature (R469, R470) -/

/-- The hottest sensor is one of the twelve. -/
theorem hottest_lt {l : List (BitVec 8)} {i : Nat} {c : BitVec 8} (h : hottest l = some (i, c)) : i < 12 := by
  have hmem : ∀ (l : List (Nat × BitVec 8)) (a : Option (Nat × BitVec 8)), (∀ x, a = some x → x.1 < 12) → (∀ x ∈ l, x.1 < 12) →
      ∀ x, l.foldl (fun (a : Option (Nat × BitVec 8)) x =>
        match a with
        | none => some x
        | some y => if celsius y.2 < celsius x.2 then some x else some y) a = some x → x.1 < 12 := fun l => by
    induction l with
    | nil => exact fun a ha _ x hx => ha x hx
    | cons y l ih =>
      refine fun a ha hl x hx => ih _ (fun z hz => ?_) (fun z hz => hl z (List.mem_cons_of_mem _ hz)) x hx
      have hy : y.1 < 12 := hl y List.mem_cons_self
      cases a with
      | none => cases hz; exact hy
      | some w =>
        dsimp only at hz
        split at hz
        · cases hz; exact hy
        · cases hz; exact ha _ rfl
  refine hmem _ none (fun x hx => nomatch hx) (fun x hx => ?_) (i, c) h
  exact List.mem_range.mp (List.of_mem_zip hx).1

/-- MAX_C, the sensor and the peak shown. -/
def State.tempShown (s : State) (c i peak : Nat) : State :=
  s.puts [(Reg.SUP_TEMP_MAX_C, c), (Reg.SUP_TEMP_SENSOR, i), (Reg.SUP_TEMP_PEAK_C, peak)]

section
variable {s : State}

theorem writes_tempShown (s : State) (c i peak : Nat) : Writes (words [Reg.SUP_TEMP_MAX_C]) s (s.tempShown c i peak) :=
  writes_puts (Writes.refl s) (by simp [words])

variable (hc : s.canon = true)
include hc

theorem tempShown_max (c : BitVec 8) (i peak : Nat) : (s.tempShown c.toNat i peak).get Reg.SUP_TEMP_MAX_C = c.toNat :=
  (get_puts_last hc [] (by decide) (by simp only [List.all_cons, List.all_nil]; decide)).trans (Nat.mod_eq_of_lt c.isLt)

theorem tempShown_sensor (c : Nat) {i : Nat} (peak : Nat) (hi : i < 12) : (s.tempShown c i peak).get Reg.SUP_TEMP_SENSOR = i :=
  (get_puts_last hc [_] (by decide) (by simp only [List.all_cons, List.all_nil]; decide)).trans
    (Nat.mod_eq_of_lt (hi.trans (by decide)))

omit hc

/-- What a check of the temperature does: it raises the warning and notes it, forgets it, or does nothing. -/
theorem tempCheck_cases (s : State) : ∃ x : SupState, x.flash = s.sup.flash ∧
    (s.tempCheck = s.withSup x ∨ s.tempCheck = (s.withSup x).raise .sup 10
      [(8, s.get Reg.SUP_TEMP_MAX_C), (8, s.get Reg.SUP_TEMP_SENSOR)]) := by
  unfold State.tempCheck
  dsimp only
  split
  · exact ⟨{ s.sup with tempWarned := true }, rfl, .inr rfl⟩
  · split
    · exact ⟨{ s.sup with tempWarned := false }, rfl, .inl rfl⟩
    · exact ⟨s.sup, rfl, .inl rfl⟩

theorem tempCheck_raises {c : BitVec 8} (hmax : s.get Reg.SUP_TEMP_MAX_C = c.toNat)
    (hreach : (s.get Reg.SUP_TEMP_CFG_WARN_C : Int) ≤ celsius c) (hnew : s.sup.tempWarned = false) :
    s.tempCheck = (s.withSup { s.sup with tempWarned := true }).raise .sup 10
      [(8, s.get Reg.SUP_TEMP_MAX_C), (8, s.get Reg.SUP_TEMP_SENSOR)] := by
  have hbyte : BitVec.ofNat 8 (s.get Reg.SUP_TEMP_MAX_C) = c := by rw [hmax, BitVec.ofNat_toNat, BitVec.setWidth_eq]
  unfold State.tempCheck
  dsimp only
  rw [hbyte, hnew, decide_eq_true hreach]
  rfl

theorem tempUpdate_completes (hc : s.canon = true) {l : List (BitVec 8)} {i : Nat} {c : BitVec 8} (hhot : hottest l = some (i, c)) :
    completes (.tempUpdate l) s fun t =>
    t.get Reg.SUP_TEMP_MAX_C = c.toNat ∧ t.get Reg.SUP_TEMP_SENSOR = i ∧
    ((s.get Reg.SUP_TEMP_CFG_WARN_C : Int) ≤ celsius c → s.sup.tempWarned = false →
      posted s t .sup 10 [(8, c.toNat), (8, i)] ∧ t.sup.tempWarned = true) ∧
    NoisyFrame (words [Reg.SUP_TEMP_MAX_C]) s { s with sup := t.sup } t := by
  obtain ⟨peak, hexec⟩ : ∃ peak, exec (.tempUpdate l) s = ok (s.tempShown c.toNat i peak).tempCheck := by
    refine ⟨if celsius (BitVec.ofNat 8 (s.get Reg.SUP_TEMP_PEAK_C)) < celsius c then c.toNat
      else (BitVec.ofNat 8 (s.get Reg.SUP_TEMP_PEAK_C)).toNat, ?_⟩
    simp only [exec, execTempUpdate, hhot, State.tempShown, State.puts, List.foldl_cons, List.foldl_nil]
  refine ⟨_, hexec, ?_⟩
  have hmax := tempShown_max hc c i peak
  have hsensor := tempShown_sensor hc c.toNat peak (hottest_lt hhot)
  have hwrites := writes_tempShown s c.toNat i peak
  generalize s.tempShown c.toNat i peak = u at hmax hsensor hwrites
  have hwarn : u.get Reg.SUP_TEMP_CFG_WARN_C = s.get Reg.SUP_TEMP_CFG_WARN_C := hwrites.get_eq hc (by decide) (by decide)
  have hsup : u.sup = s.sup := hwrites.sup
  obtain ⟨x, hflash, hcase⟩ := tempCheck_cases u
  have hwithin : Within (fun k => words [Reg.SUP_TEMP_MAX_C] k || words [Reg.QE_ARB_LOST] k) s (u.withSup x) :=
    withSup_within (hwrites.within.mono fun k hk => by rw [hk, Bool.true_or]) hflash
  have hx := hwithin.canon hc
  have hrest : (u.withSup x).bare = ({ s with sup := x } : State).bare := by rw [State.withSup, hwrites.rest]; rfl
  have hread : ∀ f : Field, f = Reg.SUP_TEMP_MAX_C ∨ f = Reg.SUP_TEMP_SENSOR → u.tempCheck.get f = u.get f := fun f hf => by
    obtain h | h := hcase
    · rw [h, withSup_get]
    · rw [h]
      obtain rfl | rfl := hf
      · exact (get_raise hx _ _ _ (by decide) (by decide)).trans (withSup_get ..)
      · exact (get_raise hx _ _ _ (by decide) (by decide)).trans (withSup_get ..)
  refine ⟨(hread _ (.inl rfl)).trans hmax, (hread _ (.inr rfl)).trans hsensor, fun hreach hnew => ?_, ?_⟩
  · rw [tempCheck_raises hmax (by rw [hwarn]; exact hreach) (by rw [hsup]; exact hnew), hmax, hsensor]
    refine ⟨posted_raise (by rw [withSup_events, hwrites.rest]) _ _ _, ?_⟩
    rw [sup_of_bare (bare_raise ..), withSup_sup]
  · obtain h | h := hcase
    · rw [h]
      exact noisyFrame_of_bare hc hwithin hrest
    · rw [h]
      refine noisyFrame_of_bare hc (within_raise hwithin (by decide) (by decide)) ?_
      rw [sup_of_bare (bare_raise ..), withSup_sup, bare_raise, hrest]

/-! ## Scrubbing and BIST (R431 to R433) -/

theorem scrubVisit_completes (hc : s.canon = true) : completes (.scrubVisit .corrected true) s fun t =>
    t.get Reg.SUP_ECC_CORR = (s.get Reg.SUP_ECC_CORR + 1) % 2 ^ 64 ∧ t.get Reg.SUP_SAFETY_AGE_SCRUB_AGE = 0 ∧
    QuietFrame (words [Reg.SUP_ECC_CORR, Reg.SUP_SAFETY_AGE_SCRUB_AGE]) s { s with sup := { s.sup with scrubNs := 0 } } t := by
  have hexec : exec (.scrubVisit .corrected true) s =
      ok (((s.put Reg.SUP_ECC_CORR (s.get Reg.SUP_ECC_CORR + 1)).withSup { (s.put Reg.SUP_ECC_CORR (s.get Reg.SUP_ECC_CORR + 1)).sup with
        scrubNs := 0 }).put Reg.SUP_SAFETY_AGE_SCRUB_AGE 0) := by
    simp only [exec, execScrubVisit, State.when, if_true, State.bump, State.withSup]
  refine ⟨_, hexec, ?_⟩
  have hput := canon_put (f := Reg.SUP_ECC_CORR) (v := s.get Reg.SUP_ECC_CORR + 1) hc
  have hcount := get_put_same (f := Reg.SUP_ECC_CORR) (v := s.get Reg.SUP_ECC_CORR + 1) hc (by decide)
  have hwithin : Within (words [Reg.SUP_ECC_CORR, Reg.SUP_SAFETY_AGE_SCRUB_AGE]) s (s.put Reg.SUP_ECC_CORR (s.get Reg.SUP_ECC_CORR + 1)) :=
    within_put (Within.refl s) (by decide) (.inr (by decide))
  have hstill : (s.put Reg.SUP_ECC_CORR (s.get Reg.SUP_ECC_CORR + 1)).still = s.still := still_put ..
  have hsup : (s.put Reg.SUP_ECC_CORR (s.get Reg.SUP_ECC_CORR + 1)).sup = s.sup := State.put_sup ..
  rw [hsup]
  generalize s.put Reg.SUP_ECC_CORR (s.get Reg.SUP_ECC_CORR + 1) = u at hput hcount hwithin hstill hsup
  have hset : (u.withSup { s.sup with scrubNs := 0 }).canon = true :=
    (withSup_within (area := words []) (Within.refl u) (x := { s.sup with scrubNs := 0 }) (by rw [hsup])).canon hput
  refine ⟨?_, ?_, quietFrame_of_still hc (within_put (withSup_within hwithin (by rw [hsup])) (by decide) (.inl (by decide))) ?_⟩
  · rw [get_put_off hset (by decide), withSup_get, hcount]
    rfl
  · exact get_put_same hset (by decide)
  · rw [still_put]
    exact congrArg (fun v : State => v.withSup { s.sup with scrubNs := 0 }) hstill

theorem bistSlice_completes (hc : s.canon = true) {u : Fin 14} (hrun : s.get (Reg.UNIT_STATE u) = 2) :
    completes (.bistSlice u true true) s fun t => t.get Reg.SUP_SAFETY_AGE_BIST_AGE = 0 ∧
    QuietFrame (words [Reg.SUP_SAFETY_AGE_BIST_AGE]) s { s with sup := { s.sup with bistNs := 0 } } t := by
  have hexec : exec (.bistSlice u true true) s = ok ((s.withSup { s.sup with bistNs := 0 }).put Reg.SUP_SAFETY_AGE_BIST_AGE 0) := by
    change (if (s.get (Reg.UNIT_STATE u) != 2) = true then ok s else _) = _
    rw [hrun, if_neg (by decide)]
    rfl
  have hset : Within (words [Reg.SUP_SAFETY_AGE_BIST_AGE]) s (s.withSup { s.sup with bistNs := 0 }) := withSup_within (Within.refl s) rfl
  refine ⟨_, hexec, get_put_same (hset.canon hc) (by decide), quietFrame_of_still hc (within_put hset (by decide) (.inl (by decide))) ?_⟩
  rw [still_put]
  rfl

end

/-- Settles O17: the causes of SAFE_STOP by its entry and by what fencing leaves alone, the others clause by clause. -/
theorem faultCommandsComplete : Obligations.FaultCommandsComplete := by
  intro s hc
  refine ⟨fun hpow hstop c hin => ?_, fun hpow hstop => safetyOrder_completes hc hstop hpow, fun k => clockFault_completes hc k,
    fun hpow hhalted hrun => ⟨serviceRestarts_completes hc hpow hhalted hrun, serviceHalts_completes hc hpow hhalted hrun⟩,
    fun l i c => tempUpdate_completes hc, scrubVisit_completes hc, fun u => bistSlice_completes hc⟩
  have hwhen : ∀ code, s.when s.powered (fun s => s.safeStop code) = s.safeStop code := fun code => by rw [hpow]; rfl
  simp only [List.mem_cons, List.not_mem_nil, or_false] at hin
  obtain rfl | rfl | rfl := hin
  · exact ⟨_, congrArg ok (hwhen 0x0B), safeStop_completes hc hstop (by decide)⟩
  · exact ⟨_, congrArg ok (hwhen 0x0C), safeStop_completes hc hstop (by decide)⟩
  · exact ⟨_, congrArg ok (hwhen 0x0F), safeStop_completes hc hstop (by decide)⟩

end Sys2Proof.Machine
end

section
/-! PROOFS. Fencing by pin and by the manager, the planned handover, and what else HGC_CTL and the witness's start bring (R307, R309,
R311, R312, R315, R322, R324). -/

namespace Sys2Proof.Machine

/-! ## Held causes (R309) -/

/-- The state with other held causes. -/
def State.withHeld (s : State) (l : List Nat) : State := { s with hgc := { s.hgc with heldCauses := l } }

section
variable {s : State} {l : List Nat}

theorem withHeld_events : (s.withHeld l).events = s.events := rfl
theorem withHeld_egu : (s.withHeld l).egu = s.egu := rfl
theorem withHeld_heldCauses : (s.withHeld l).hgc.heldCauses = l := rfl
theorem withHeld_within {area : Nat → Bool} {s₀ : State} (h : Within area s₀ s) : Within area s₀ (s.withHeld l) := within_same h rfl rfl rfl
theorem endCause_eq (s : State) (c : Nat) : s.endCause c = s.withHeld (s.hgc.heldCauses.filter (· != c)) := rfl

theorem mem_endCause {c d : Nat} : c ∈ (s.endCause d).hgc.heldCauses ↔ c ∈ s.hgc.heldCauses ∧ c ≠ d := by
  rw [endCause_eq, withHeld_heldCauses, List.mem_filter, bne_iff_ne]

end

/-! ## FENCE_IN (R311) -/

section
variable {s : State} (hc : s.canon = true) (o : Nat)

theorem writes_moment_hedge {f : Field} (hc : s.canon = true) (hf : f.key / 0x1000000 = 9) : (s.moment o).get f = s.get f :=
  (writes_moment s o).get_eq hc (by simp [words]; omega) (by simp [words]; omega)

/-- Under no frame in transmission the end of media brings time to the present alone. -/
theorem endMedia_idle (htx : s.egu.tx = []) : s.endMedia = s.settle := by
  have hsettled : s.settle.egu.tx = [] := by rw [(settles_settle s).closes.tx, htx]
  unfold State.endMedia
  dsimp only
  rw [hsettled]
  rfl

/-- Fields of HGC do not move with time. -/
theorem settle_hedge (hc : s.canon = true) {f : Field} (hf : f.key / 0x1000000 = 9) : s.settle.get f = s.get f := by
  refine (settles_settle s).within.get_eq hc ?_ ?_
  all_goals
    rw [Bool.eq_false_iff]
    simp only [settleWord, inRange, ne_eq, Bool.or_eq_true, Bool.and_eq_true, decide_eq_true_eq]
    omega

section
variable {cause : Nat} (hpair : s.pairRole = true) (hactive : s.active = true) (htx : s.egu.tx = []) (hheld : heldCause cause = true)
include hactive htx

/-- An ACTIVE member that fences in hardware with nothing in transmission. -/
theorem fenceHard_idle : s.fenceHard cause = (s.fence cause).settle := by
  have hegu : (s.fence cause).egu.tx = [] := by rw [(fenceChange_fence s cause).egu, htx]
  unfold State.fenceHard
  dsimp only
  rw [hactive, Bool.true_or, if_pos rfl, endMedia_idle hegu]

include hpair hheld

theorem fenceHard_heldCauses : cause ∈ (s.fenceHard cause).hgc.heldCauses := by
  have hhgc : (s.fence cause).settle.hgc = (s.fence cause).hgc := by rw [(settles_settle _).rest]; rfl
  rw [fenceHard_idle hactive htx, hhgc]
  exact heldCauses_fence hpair (eq_of_beq hactive) hheld

omit hheld

theorem posted_fenceHard {s₀ : State} (hevents : s.events = s₀.events) : posted s₀ (s.fenceHard cause) .hgc 4 [(8, cause)] := by
  intro hroom
  have hsettled : (s.fence cause).settle.events = (s.fence cause).events := by rw [(settles_settle _).rest]; rfl
  rw [fenceHard_idle hactive htx, hsettled]
  exact posted_fence hpair (eq_of_beq hactive) hevents hroom

include hc

theorem fenceHard_state : (s.fenceHard cause).hedgeState = 5 := by
  have hfenced : (s.fence cause).canon = true := (fenceChange_fence s cause).within.canon hc
  rw [fenceHard_idle hactive htx, State.hedgeState, settle_hedge hfenced (by decide)]
  exact fence_state hc hpair (eq_of_beq hactive)

theorem fenceHard_cause (hcause : cause < 16) : (s.fenceHard cause).get Reg.HGC_STATE_FENCE_CAUSE = cause := by
  have hfenced : (s.fence cause).canon = true := (fenceChange_fence s cause).within.canon hc
  rw [fenceHard_idle hactive htx, settle_hedge hfenced (by decide)]
  exact fence_cause hc hpair (eq_of_beq hactive) hcause

end

include hc

/-- The role and the state of the pair stand as a moment comes. -/
theorem moment_hedge : (s.moment o).pairRole = s.pairRole ∧ (s.moment o).hedgeState = s.hedgeState := by
  constructor
  · rw [State.pairRole, writes_moment_hedge o hc (by decide)]
    rfl
  · exact writes_moment_hedge o hc (by decide)

theorem fenceInFall_completes (hpair : s.pairRole = true) (hactive : s.active = true) (htx : s.egu.tx = []) :
    completes (.fenceInFall o) s fun t => t.hedgeState = 5 ∧ t.get Reg.HGC_STATE_FENCE_CAUSE = 3 ∧ 3 ∈ t.hgc.heldCauses ∧
      posted s t .hgc 4 [(8, 3)] := by
  obtain ⟨hrole, hstate⟩ := moment_hedge hc o
  have hmoment := writes_moment s o
  have hm : ((s.moment o).endCause 3).canon = true := hmoment.canon hc
  have hpair' : ((s.moment o).endCause 3).pairRole = true := hrole.trans hpair
  have hactive' : ((s.moment o).endCause 3).active = true := by
    change ((s.moment o).hedgeState == 4) = true
    rw [hstate]
    exact hactive
  have htx' : ((s.moment o).endCause 3).egu.tx = [] := by
    rw [endCause_eq, withHeld_egu, moment_egu]
    exact htx
  have hevents : ((s.moment o).endCause 3).events = s.events := by rw [endCause_eq, withHeld_events, hmoment.rest]
  have hexec : exec (.fenceInFall o) s = ok (((s.moment o).endCause 3).fenceHard 3) := if_pos hpair'
  exact ⟨_, hexec, fenceHard_state hm hpair' hactive' htx', fenceHard_cause hm hpair' hactive' htx' (by decide),
    fenceHard_heldCauses hpair' hactive' htx' rfl, posted_fenceHard hpair' hactive' htx' hevents⟩

theorem fenceInRise_completes : completes (.fenceInRise o) s fun t => 3 ∉ t.hgc.heldCauses ∧ t.hedgeState = s.hedgeState ∧
    (∀ c, c ≠ 3 → (c ∈ t.hgc.heldCauses ↔ c ∈ s.hgc.heldCauses)) ∧
    QuietFrame (words [Reg.TE_OFFSET]) s { s with hgc := { s.hgc with heldCauses := t.hgc.heldCauses } } t := by
  have hmoment := writes_moment s o
  have hhgc : (s.moment o).hgc = s.hgc := by rw [hmoment.rest]
  refine ⟨_, rfl, fun h => (mem_endCause.mp h).2 rfl, (moment_hedge hc o).2, fun c hne => ?_, quietFrame_of_still hc
    (withHeld_within hmoment.within) ?_⟩
  · rw [mem_endCause, hhgc, and_iff_left hne]
  · rw [endCause_eq, State.withHeld, hmoment.rest]
    rfl

/-! ## HGC_CTL (R309, R312, R322, R324) -/

omit hc in
theorem withHeld_still (l : List Nat) : (s.withHeld l).still = s.still.withHeld l := rfl

section
variable {r : Requester} (hmay : s.mayWrite r 0x09001070 = true)
include hmay

theorem hgcFenceWrite_fences (hpair : s.pairRole = true) (hactive : s.active = true) (hnew : s.flag Reg.HGC_CTL_FENCE = false) :
    completes (.hgcFenceWrite r true) s fun t =>
      t.flag Reg.HGC_CTL_FENCE = true ∧ t.hedgeState = 5 ∧ t.get Reg.HGC_STATE_FENCE_CAUSE = 5 ∧ posted s t .hgc 4 [(8, 5)] ∧
      NoisyFrame (words [Reg.HGC_STATE_STATE, Reg.HGC_EPOCH_AON_VALID, Reg.HGC_CTL_FENCE]) s
        { s with hgc := { s.hgc with heldCauses := t.hgc.heldCauses } } t := by
  have hexec : exec (.hgcFenceWrite r true) s = ok ((s.put Reg.HGC_CTL_FENCE 1).fence 5) := by
    change ok (s.writeFence r true) = _
    simp only [State.writeFence, hmay, hnew, Bool.not_true, Bool.not_false, Bool.and_self, Bool.false_eq_true, if_false, if_true, bit]
  refine ⟨_, hexec, ?_⟩
  have hflag : (s.put Reg.HGC_CTL_FENCE 1).flag Reg.HGC_CTL_FENCE = true := flag_put_same hc (by decide) (by decide) 1
  have hrole : (s.put Reg.HGC_CTL_FENCE 1).pairRole = true := by rw [State.pairRole, get_put_off hc (by decide)]; exact hpair
  have hstate : (s.put Reg.HGC_CTL_FENCE 1).hedgeState = 4 := (get_put_off hc (by decide)).trans (eq_of_beq hactive)
  have hwrites : Writes (words [Reg.HGC_STATE_STATE, Reg.HGC_EPOCH_AON_VALID, Reg.HGC_CTL_FENCE]) s (s.put Reg.HGC_CTL_FENCE 1) :=
    writes_put (Writes.refl s) (by decide) (.inl (by decide))
  generalize s.put Reg.HGC_CTL_FENCE 1 = u at hflag hrole hstate hwrites
  have hu := hwrites.canon hc
  obtain ⟨l, hl, -⟩ := causeHeld_eq u 5
  have hbare : (u.fence 5).bare = (u.withHeld l).bare := by rw [bare_fence hrole hstate, hl]; rfl
  have hhgc := congrArg State.hgc hbare
  have hheld : (u.fence 5).hgc.heldCauses = l := (congrArg HgcState.heldCauses hhgc).trans rfl
  refine ⟨?_, fence_state hu hrole hstate, fence_cause hu hrole hstate (by decide), posted_fence hrole hstate (by rw [hwrites.rest]),
    noisyFrame_of_bare hc (within_fence hrole hstate (hwrites.within.mono fun k hk => by rw [hk, Bool.true_or]) (fun k hk => ?_)
      fun k hk => by rw [hk, Bool.or_true]) ?_⟩
  · obtain ⟨v, hv⟩ := fencedWith_eq u 5
    rw [State.flag, get_fence hu hrole hstate (by decide) (by decide), hv,
      get_puts_off (canon_causeHeld hu 5) (by simp only [List.all_cons, List.all_nil]; decide), hl]
    exact hflag
  · rw [Bool.or_eq_true]
    exact .inl hk
  · rw [hbare, hheld, State.withHeld, hwrites.rest]
    rfl

theorem hgcFenceWrite_ends : completes (.hgcFenceWrite r false) s fun t => t.flag Reg.HGC_CTL_FENCE = false ∧ 5 ∉ t.hgc.heldCauses ∧
    QuietFrame (words [Reg.HGC_CTL_FENCE]) s { s with hgc := { s.hgc with heldCauses := t.hgc.heldCauses } } t := by
  have hexec : exec (.hgcFenceWrite r false) s = ok ((s.put Reg.HGC_CTL_FENCE 0).endCause 5) := by
    change ok (s.writeFence r false) = _
    simp only [State.writeFence, hmay, Bool.not_true, Bool.not_false, Bool.false_and, Bool.false_eq_true, if_false, if_true, bit]
  refine ⟨_, hexec, ?_, fun h => (mem_endCause.mp h).2 rfl, quietFrame_of_still hc (withHeld_within
    (within_put (Within.refl s) (by decide) (.inl (by decide)))) ?_⟩
  · exact flag_put_same hc (by decide) (by decide) 0
  · rw [endCause_eq, withHeld_still, still_put]
    rfl

theorem hgcReleaseWrite_completes (hpair : s.pairRole = true) (hactive : s.active = true) : completes (.hgcReleaseWrite r) s fun t =>
    t.flag Reg.HGC_CTL_RELEASE = true ∧ QuietFrame (words [Reg.HGC_CTL_RELEASE]) s s t := by
  have hexec : exec (.hgcReleaseWrite r) s = ok (s.put Reg.HGC_CTL_RELEASE 1) := by
    change ok (s.writeRelease r) = _
    simp only [State.writeRelease, hmay, hpair, hactive, Bool.and_self, if_true]
  exact ⟨_, hexec, flag_put_same hc (by decide) (by decide) 1, (writes_put (Writes.refl s) (by decide) (.inl (by decide))).quietFrame hc⟩

theorem hgcLayerWrite_completes : completes (.hgcLayerWrite r) s fun t => t.flag Reg.HGC_CTL_LAYER = true ∧
    QuietFrame (words [Reg.HGC_CTL_LAYER]) s s t :=
  ⟨_, congrArg ok (if_pos hmay), flag_put_same hc (by decide) (by decide) 1,
    (writes_put (Writes.refl s) (by decide) (.inl (by decide))).quietFrame hc⟩

theorem hgcHoldWrite_completes (v : Bool) : completes (.hgcHoldWrite r v) s fun t => t.flag Reg.HGC_CTL_HOLD = v ∧
    bitAt (t.get Reg.HGC_STATE_NOT_FIT) 5 = v ∧
    (∀ i, i < 5 → bitAt (t.get Reg.HGC_STATE_NOT_FIT) i = bitAt (s.get Reg.HGC_STATE_NOT_FIT) i) ∧
    QuietFrame (words [Reg.HGC_CTL_HOLD, Reg.HGC_STATE_NOT_FIT]) s s t := by
  have hheld : (s.put Reg.HGC_CTL_HOLD (bit v)).canon = true := canon_put hc
  have hold : (s.put Reg.HGC_CTL_HOLD (bit v)).get Reg.HGC_STATE_NOT_FIT = s.get Reg.HGC_STATE_NOT_FIT := get_put_off hc (by decide)
  have hflag : (s.put Reg.HGC_CTL_HOLD (bit v)).flag Reg.HGC_CTL_HOLD = v := by
    rw [flag_put_same hc (by decide) (by decide)]
    cases v <;> rfl
  have hwrites : Writes (words [Reg.HGC_CTL_HOLD, Reg.HGC_STATE_NOT_FIT]) s (s.put Reg.HGC_CTL_HOLD (bit v)) :=
    writes_put (Writes.refl s) (by decide) (.inl (by decide))
  refine ⟨_, congrArg ok (if_pos hmay), ?_, ?_, fun i hi => ?_, (writes_put hwrites (by decide) (.inl (by decide))).quietFrame hc⟩
  · rw [flag_put_off hheld (by decide), hflag]
  · rw [get_put_same hheld (by decide), bitAt_eq_testBit, Nat.testBit_mod_two_pow, setBits_testBit]
    cases v <;> rfl
  · rw [get_put_same hheld (by decide), hold, bitAt_eq_testBit, bitAt_eq_testBit, Nat.testBit_mod_two_pow, setBits_testBit,
      decide_eq_true (show i < Reg.HGC_STATE_NOT_FIT.width by simp [Field.width]; omega), Bool.true_and, if_pos hi]

end

end

/-! ## A message of the witness protocol without paths (R300, R302) -/

/-- The words that a message sent changes. -/
def sentWord (k : Nat) : Bool := words [Reg.HGC_WIT_HWM, Reg.HGC_WIT_SENT] k

section
variable {s t : State}

/-- The paths rest on their four registers. -/
theorem witPaths_congr (h : ∀ f : Field, 0x09001020 ≤ f.key → f.key < 0x0900103C → t.get f = s.get f) : t.witPaths = s.witPaths := by
  refine List.filterMap_congr fun i hi => ?_
  have hlt := List.mem_range.mp hi
  rw [State.flag, State.flag, h _ (by simp) (by simp; omega), h _ (by simp) (by simp; omega), h _ (by simp) (by simp; omega)]

theorem witPaths_within {area : Nat → Bool} (h : Within area s t) (hc : s.canon = true)
    (harea : ∀ k, 0x09001020 ≤ k → k < 0x09001040 → area k = false) : t.witPaths = s.witPaths :=
  witPaths_congr fun f hlo hhi => h.get_eq hc (harea _ hlo (by omega)) (harea _ (by omega) (by omega))

/-- The message that goes under a key. -/
def State.witMsg (s : State) (key : Bytes) (pair type target epoch flags refTick refSeq : Nat) : Bytes :=
  let m : WitMsg := ⟨type, pair, s.party, target, epoch, flags, s.tick, refTick, (s.hgc.seq + 1) % 2 ^ 32, refSeq, s.get Reg.HGC_CFG_LEASE_L⟩
  m.head ++ (witTag key m m.head).take 16

/-- What HGC notes of a message sent. -/
def State.witNotes (s : State) (pair type target : Nat) : HgcState :=
  { s.hgc with
    seq := (s.hgc.seq + 1) % 2 ^ 32
    sentNow := (pair, type, target) :: (if s.get Reg.HGC_WIT_HWM = s.tick then s.hgc.sentNow else []) }

/-- The state with another state of HGC. -/
def State.withHgc (s : State) (x : HgcState) : State := { s with hgc := x }

theorem withHgc_get (s : State) (x : HgcState) (f : Field) : (s.withHgc x).get f = s.get f := rfl

/-- A message noted and counted, before it leaves. -/
def State.witCounted (s : State) (x : HgcState) : State := ((s.put Reg.HGC_WIT_HWM s.tick).withHgc x).bump Reg.HGC_WIT_SENT

/-- A message that has left on the pins, where they are in use for its pair. -/
def State.witDriven (s : State) (pair target : Nat) (l : Bytes) : State :=
  s.when (s.flag Reg.HGC_CFG_PINS_EN && !s.hgc.clkDown && pair == s.get Reg.HGC_CFG_PAIR_ID)
    (fun s => s.emit (.witness (busSlot s.party target) (busBits l)))

theorem witSend_eq {key : Bytes} {pair type target : Nat} (hkey : s.witKey pair = some key) (hmay : s.witMaySend pair type target = true)
    (epoch flags refTick refSeq : Nat) (back : Option (Nat × Nat)) :
    s.witSend pair type target epoch flags refTick refSeq back =
      ((((s.witCounted (s.witNotes pair type target)).witDriven pair target
          (s.witMsg key pair type target epoch flags refTick refSeq)).witPaths ++ back.toList).eraseDups).foldl
        (fun u x => u.ownFrame x.1 (u.witFrame x.2 (s.witMsg key pair type target epoch flags refTick refSeq)))
        ((s.witCounted (s.witNotes pair type target)).witDriven pair target (s.witMsg key pair type target epoch flags refTick refSeq)) := by
  unfold State.witSend
  rw [hkey, hmay]
  rfl

theorem witCounted_within (s : State) (x : HgcState) : Within sentWord s (s.witCounted x) := by
  have hput : Within sentWord s (s.put Reg.HGC_WIT_HWM s.tick) := within_put (Within.refl s) (by decide) (.inr (by decide))
  exact within_put (f := Reg.HGC_WIT_SENT) (within_same (t := (s.put Reg.HGC_WIT_HWM s.tick).withHgc x) hput rfl rfl rfl) (by decide)
    (.inr (by decide))

theorem witDriven_within (s : State) (pair target : Nat) (l : Bytes) : Within sentWord s (s.witDriven pair target l) := by
  unfold State.witDriven State.when
  split
  · exact within_same (Within.refl s) rfl rfl rfl
  · exact Within.refl s

/-- Where no path is enabled a message goes on the pins alone. -/
theorem witSend_pins (hc : s.canon = true) (hpaths : s.witPaths = []) {key : Bytes} {pair type target : Nat}
    (hkey : s.witKey pair = some key) (hmay : s.witMaySend pair type target = true) (epoch flags refTick refSeq : Nat) :
    s.witSend pair type target epoch flags refTick refSeq none =
      (s.witCounted (s.witNotes pair type target)).witDriven pair target (s.witMsg key pair type target epoch flags refTick refSeq) := by
  have hwithin := (witCounted_within s (s.witNotes pair type target)).trans
    (witDriven_within _ pair target (s.witMsg key pair type target epoch flags refTick refSeq))
  have hnone : ((s.witCounted (s.witNotes pair type target)).witDriven pair target
      (s.witMsg key pair type target epoch flags refTick refSeq)).witPaths = [] := by
    rw [witPaths_within hwithin hc fun k hlo hhi => by simp [sentWord, words]; omega, hpaths]
  rw [witSend_eq hkey hmay, hnone]
  rfl

theorem witSend_within (hc : s.canon = true) (hpaths : s.witPaths = []) (pair type target epoch flags refTick refSeq : Nat) :
    Within sentWord s (s.witSend pair type target epoch flags refTick refSeq none) := by
  cases hkey : s.witKey pair with
  | none =>
    unfold State.witSend
    rw [hkey]
    exact Within.refl s
  | some key =>
    cases hmay : s.witMaySend pair type target with
    | false =>
      unfold State.witSend
      rw [hkey, hmay]
      exact Within.refl s
    | true =>
      rw [witSend_pins hc hpaths hkey hmay]
      exact (witCounted_within s _).trans (witDriven_within ..)

end

/-! ## The planned handover (R312) -/

section
variable {s : State} (hc : s.canon = true)
include hc

omit hc in
theorem fenceWord_path {k : Nat} (hlo : 0x09001020 ≤ k) (hhi : k < 0x09001040) : (fenceWord k || words [Reg.QE_ARB_LOST] k) = false := by
  simp [fenceWord, words]
  omega

theorem handover_completes (hpair : s.pairRole = true) (hactive : s.active = true) (hrelease : s.flag Reg.HGC_CTL_RELEASE = true)
    (hpaths : s.witPaths = []) : completes .handover s fun t =>
    t.hedgeState = 5 ∧ t.get Reg.HGC_STATE_FENCE_CAUSE = 1 ∧ t.flag Reg.HGC_CTL_RELEASE = false ∧
    t.get Reg.HGC_EPOCH_AON_LAST_EPOCH = s.get Reg.HGC_STATE_EPOCH := by
  have hfour := eq_of_beq hactive
  have hexec : exec .handover s = ok ((s.fence 1).witSend (s.get Reg.HGC_CFG_PAIR_ID) 4 0 (s.get Reg.HGC_STATE_EPOCH) 0 0 0 none) := by
    change (if (s.pairRole && s.active && s.flag Reg.HGC_CTL_RELEASE) = true then _ else _) = _
    rw [hpair, hactive, hrelease]
    rfl
  have hfenced : Within (fun k => fenceWord k || words [Reg.QE_ARB_LOST] k) s (s.fence 1) :=
    within_fence hpair hfour (Within.refl s) (fun k hk => by rw [hk, Bool.true_or]) fun k hk => by rw [hk, Bool.or_true]
  have hf := hfenced.canon hc
  have hnone : (s.fence 1).witPaths = [] := by
    rw [witPaths_within hfenced hc fun k hlo hhi => fenceWord_path hlo hhi, hpaths]
  have hsent := witSend_within hf hnone (s.get Reg.HGC_CFG_PAIR_ID) 4 0 (s.get Reg.HGC_STATE_EPOCH) 0 0 0
  refine ⟨_, hexec, ?_, ?_, ?_, ?_⟩
  · exact (hsent.get_eq hf (by decide) (by decide)).trans (fence_state hc hpair hfour)
  · exact (hsent.get_eq hf (by decide) (by decide)).trans (fence_cause hc hpair hfour (by decide))
  · rw [State.flag, hsent.get_eq hf (by decide) (by decide)]
    exact fence_release hc hpair hfour
  · exact (hsent.get_eq hf (by decide) (by decide)).trans (fence_lastEpoch hc hpair hfour)

/-! ## The witness's start (R307) -/

omit hc in
/-- A field of a pair's words but RESTART. -/
theorem get_put_witRestart (hc : s.canon = true) (j k v : Nat) :
    (s.put (witRestart j) v).get (witHolder k) = s.get (witHolder k) ∧ (s.put (witRestart j) v).get (witEpoch k) = s.get (witEpoch k) := by
  constructor
  all_goals
    refine get_put_apart hc (by simp [Field.ok, witRestart]; omega) (by simp [Field.ok, witHolder, witEpoch]; omega) ?_
    simp only [Field.apart, Field.at, Field.width, witRestart, witHolder, witEpoch]
    omega

omit hc in
theorem inRange_iff {k b n : Nat} : inRange k b n = true ↔ b ≤ k ∧ k < b + n := by
  simp only [inRange, Bool.and_eq_true, decide_eq_true_eq]

/-- RESTART of the pairs of a list cleared. -/
def State.restartsEnded (s : State) (l : List Nat) : State := l.foldl (fun s k => s.put (witRestart k) 0) s

omit hc in
theorem restartsEnded_kept (hc : s.canon = true) (l : List Nat) (k : Nat) :
    (s.restartsEnded l).get (witHolder k) = s.get (witHolder k) ∧ (s.restartsEnded l).get (witEpoch k) = s.get (witEpoch k) := by
  induction l generalizing s with
  | nil => exact ⟨rfl, rfl⟩
  | cons j l ih =>
    obtain ⟨hholder, hepoch⟩ := ih (canon_put (f := witRestart j) (v := 0) hc)
    obtain ⟨hholder', hepoch'⟩ := get_put_witRestart hc j k 0
    exact ⟨hholder.trans hholder', hepoch.trans hepoch'⟩

omit hc in
theorem restartsEnded_clear (hc : s.canon = true) {l : List Nat} {k : Nat} (h : k ∈ l ∨ s.get (witRestart k) = 0) :
    (s.restartsEnded l).get (witRestart k) = 0 := by
  have hok : ∀ j, (witRestart j).ok = true := fun j => by simp [Field.ok, witRestart]; omega
  induction l generalizing s with
  | nil => exact h.resolve_left List.not_mem_nil
  | cons j l ih =>
    refine ih (canon_put hc) ?_
    by_cases hj : k = j
    · rw [hj, get_put_same hc (hok j), Nat.zero_mod]
      exact .inr rfl
    · refine h.imp (fun h => (List.mem_cons.mp h).resolve_left hj) fun h => ?_
      rw [get_put_apart hc (hok j) (hok k) ?_, h]
      simp only [Field.apart, Field.at, Field.width, witRestart]
      omega

omit hc in
theorem writes_restartsEnded (s : State) : Writes (fun k => inRange k 0x09008000 0x100) s (s.restartsEnded (List.range 16)) :=
  writes_foldl (Writes.refl s) fun u k hk hu => writes_put hu (inRange_iff.mpr (by
    have := List.mem_range.mp hk
    simp only [witRestart]
    omega)) (.inl (show 18 < 32 by decide))

omit hc in
theorem withHgc_within {area : Nat → Bool} {s₀ : State} (h : Within area s₀ s) (x : HgcState) : Within area s₀ (s.withHgc x) :=
  within_same h rfl rfl rfl

theorem withHgc_quiet {area : Nat → Bool} {u : State} (h : Writes area s u) (x : List WitPair) :
    QuietFrame area s { s with hgc := { s.hgc with wit := x } } (u.withHgc { u.hgc with wit := x }) := by
  refine quietFrame hc (withHgc_within h.within _) ?_
  rw [State.withHgc, h.rest]

omit hc in
theorem exec_restartWindowEnd (s : State) : exec .restartWindowEnd s =
    ok ((s.restartsEnded (List.range 16)).withHgc { (s.restartsEnded (List.range 16)).hgc with
      wit := (s.restartsEnded (List.range 16)).hgc.wit.map (fun w => { w with holding := [] }) }) := by
  change execRestartWindowEnd s = _
  unfold execRestartWindowEnd
  dsimp only
  rw [← State.restartsEnded]
  generalize s.restartsEnded (List.range 16) = u
  rfl

theorem restartWindowEnd_completes : completes .restartWindowEnd s fun t => (∀ k, k < 16 → t.flag (witRestart k) = false ∧
      t.get (witHolder k) = s.get (witHolder k) ∧ t.get (witEpoch k) = s.get (witEpoch k)) ∧
    (∀ w ∈ t.hgc.wit, w.holding = []) ∧
    QuietFrame (fun k => inRange k 0x09008000 0x100) s { s with hgc := { s.hgc with wit := t.hgc.wit } } t := by
  have hwrites := writes_restartsEnded s
  have hkept := restartsEnded_kept hc (List.range 16)
  have hclear : ∀ k, k < 16 → (s.restartsEnded (List.range 16)).get (witRestart k) = 0 := fun k hk =>
    restartsEnded_clear hc (.inl (List.mem_range.mpr hk))
  refine ⟨_, exec_restartWindowEnd s, ?_⟩
  generalize s.restartsEnded (List.range 16) = u at hwrites hkept hclear
  refine ⟨fun k hk => ⟨?_, ?_⟩, fun w hw => ?_, withHgc_quiet hc hwrites _⟩
  · rw [State.flag, withHgc_get, hclear k hk]
    rfl
  · rw [withHgc_get, withHgc_get]
    exact hkept k
  · obtain ⟨x, -, rfl⟩ := List.mem_map.mp hw
    rfl

/-! ## Replay (R315) -/

/-- A missed tick falls due. -/
def State.replayFallen (s : State) (t : Nat) : State :=
  ((s.noteOnce 0x9E0).bump Reg.HGC_REPLAY_TICKS).withHgc { s.hgc with replayDue := s.backlogOf t }

theorem replayTick_completes {first k : Nat} (hreplay : s.hgc.replay = some (first, k)) (hactive : s.active = true) (hlate : k < s.tick)
    (hmissed : first + (s.tick - k) ≤ k) (hnew : 0x9E0 ∉ s.once) : completes .replayTick s fun t =>
      t.hgc.replayDue = s.backlogOf (first + (s.tick - k)) ∧
      t.get Reg.HGC_REPLAY_TICKS = (s.get Reg.HGC_REPLAY_TICKS + 1) % 2 ^ 64 ∧
      QuietFrame (words [Reg.HGC_REPLAY_TICKS]) s { s with hgc := { s.hgc with replayDue := t.hgc.replayDue }, once := t.once } t := by
  have hexec : exec .replayTick s = ok (s.replayFallen (first + (s.tick - k))) := by
    simp only [exec, execReplayTick, hreplay, hactive, hlate, hmissed, decide_true, Bool.and_self, if_true, State.replayNow,
      oncePerTick_first hnew]
    rfl
  refine ⟨_, hexec, rfl, ?_, ?_⟩
  · exact get_put_same (s := s.noteOnce 0x9E0) hc (by decide)
  · have hwrites : Writes (words [Reg.HGC_REPLAY_TICKS]) (s.noteOnce 0x9E0) ((s.noteOnce 0x9E0).bump Reg.HGC_REPLAY_TICKS) :=
      writes_put (Writes.refl _) (by decide) (.inr (by decide))
    have hnoted : Within (words [Reg.HGC_REPLAY_TICKS]) s (s.noteOnce 0x9E0) := within_same (Within.refl s) rfl rfl rfl
    refine quietFrame hc (within_same (hnoted.trans hwrites.within) rfl rfl rfl) ?_
    rw [State.replayFallen, State.withHgc, hwrites.rest]
    rfl

end

/-- Settles O34: fencing by what an ACTIVE member's fence does, the handover by what a message sent leaves alone, the rest clause by
clause. -/
theorem fenceCommandsComplete : Obligations.FenceCommandsComplete := by
  intro s hc
  exact ⟨fun o hpair hactive htx _ => fenceInFall_completes hc o hpair hactive htx, fun o => fenceInRise_completes hc o,
    fun r hmay => ⟨hgcFenceWrite_fences hc hmay, hgcFenceWrite_ends hc hmay, hgcReleaseWrite_completes hc hmay,
      hgcLayerWrite_completes hc hmay, hgcHoldWrite_completes hc hmay⟩,
    handover_completes hc, restartWindowEnd_completes hc, fun first k => replayTick_completes hc⟩

end Sys2Proof.Machine
end

section
/-! PROOFS. What three statements of the host's side leave out of their hypotheses: a read tag for the words that a dirty-log sync
writes back (R337, R362), whether a FIN has gone (R404, R407), and the LBA sizes that a namespace can match (R414). -/

namespace Sys2Proof.Machine

/-- A predicate of the state in which a command ends. -/
def endsWith (c : Instr) (s : State) (p : State → Bool) : Bool :=
  match exec c s with
  | .next t => p t
  | _ => false

theorem of_endsWith {c : Instr} {s t : State} {p : State → Bool} (h : endsWith c s p = true) (ht : exec c s = .next t) : p t = true := by
  unfold endsWith at h
  rw [ht] at h
  exact h

/-- Fields set in the reset state. -/
def resetWith (l : List (Field × Nat)) : State := l.foldl (fun s x => s.put x.1 x.2) State.reset

/-- TTU runs and a sync is at the head of its queue, but WALK_RESERVE keeps every tag of the pool back. -/
def syncWithoutTag : State :=
  let s := resetWith [(Reg.UNIT_STATE 11, 2), (Reg.HIU_TAG_STATUS_LIMIT, 256), (Reg.HIU_TAG_CFG_WALK_RESERVE, 256)]
  { s with ttu := { s.ttu with sync := [(0, false)] } }

theorem logSyncDone_withoutTag : endsWith (.logSyncDone []) syncWithoutTag (fun t => t.ttu.sync == [(0, false)]) = true := by
  decide +kernel

/-- Refutes O39: the clause on LOG_SYNC_DONE leaves out that a tag is free for PF0, which the reads of the words written back wait for.
In `syncWithoutTag` none is, and the sync stands. -/
theorem not_translationCommandsComplete : ¬ Obligations.TranslationCommandsComplete := by
  intro h
  obtain ⟨-, -, -, -, hdone⟩ := h syncWithoutTag (by decide +kernel)
  obtain ⟨t, ht, hsync, -⟩ := hdone [] 0 false (by decide) (by decide +kernel) rfl rfl
  have hstands := of_endsWith logSyncDone_withoutTag ht
  simp only [hsync] at hstands
  exact absurd hstands (by decide)

/-- The connection of `closingConn`: its FIN has gone and is acknowledged, the peer's has come, and no FIN is wanted any more. -/
def finishedConn : ConnRt :=
  { una := 5, nxt := 5, buf := [], syn := false, fin := false, peerFin := true, rcv := 9, tsRecent := 3, wnd := 1000, scale := 0,
    mss := 1436, cwnd := 14360, ssthresh := 65535, dups := 0, recover := none, timeouts := 0, finSent := true, hdgst := false,
    ddgst := false, cpda := 0, connecting := false }

/-- Connection 0 is CLOSING, and only an acknowledgement away from CLOSED. -/
def closingConn : State :=
  let s := resetWith [(Reg.UNIT_STATE 13, 2), (Reg.CONN_STATE 0, 4)]
  { s with sie := { s.sie with conns := [(0, finishedConn)] } }

/-- One byte in order, which acknowledges nothing new. -/
def lateByte : TcpSegment := { seq := 9, ack := 5, window := 1000, syn := false, fin := false, ts := some 3, mss := 0, scale := 0, payload := [0] }

theorem tcpSegment_closing : endsWith (.tcpSegment 0 lateByte) closingConn (fun t => (t.conn? 0).isNone) = true := by decide +kernel

/-- Refutes O48: the clause on data in order leaves out that no FIN has been sent. In `closingConn` both sides have closed, and the
segment ends the connection, so that no state of it is left to have taken the data. -/
theorem not_transportCommandsComplete : ¬ Obligations.TransportCommandsComplete := by
  intro h
  obtain ⟨hdata, -⟩ := h closingConn (by decide +kernel) (by decide +kernel) 0
  obtain ⟨-, horder⟩ := hdata finishedConn lateByte 3 (by decide +kernel) rfl
  obtain ⟨t, ht, y, hconn, -⟩ := horder (by decide +kernel) (by decide +kernel) rfl (by decide) rfl (by decide) rfl
  have hgone := of_endsWith tcpSegment_closing ht
  simp only [show t.conn? 0 = some y from hconn, Option.isNone_some, Bool.false_eq_true] at hgone

/-- The slot's controller is being identified, and namespace entry 0 is VALID with an LBA_SHIFT of 0. -/
def oddShift : State := resetWith [(Reg.UNIT_STATE 13, 2), (Reg.SIE_SLOT_STATUS_STATE, 4), (Reg.NS_VALID 0, 1), (Reg.NS_LBA_SHIFT 0, 0)]

/-- A namespace that the drive shows with the same LBA size, 1 byte. -/
def oddNs : DriveNs := { nsid := 0, shift := 0, metadata := false, nsze := 0 }

theorem identifyDone_oddShift : endsWith (.identifyDone [oddNs]) oddShift (fun t => t.get (Reg.NS_PRESENT 0) == 3) = true := by
  decide +kernel

/-- Refutes O49: the clause on a namespace that matches its entry leaves out that LBA_SHIFT is 9 or 12. In `oddShift` it is 0 on both
sides, and the entry shows the mismatch, 3, where the clause has 1. -/
theorem not_slotCommandsComplete : ¬ Obligations.SlotCommandsComplete := by
  intro h
  obtain ⟨-, -, -, -, -, -, -, -, -, -, -, hidentify, -⟩ := h oddShift (by decide +kernel) (by decide +kernel)
  obtain ⟨hdone, -⟩ := hidentify (by decide +kernel)
  obtain ⟨t, ht, -, -, hns⟩ := hdone [oddNs]
  obtain ⟨-, -, hmatch⟩ := hns 0
  obtain ⟨hpresent, -⟩ := hmatch oddNs (by decide +kernel) (by decide +kernel) (by decide +kernel) rfl
  have hodd := of_endsWith identifyDone_oddShift ht
  simp only [show t.get (Reg.NS_PRESENT 0) = 1 from hpresent] at hodd
  exact absurd hodd (by decide)

end Sys2Proof.Machine
end

section
/-! PROOFS. The pool commands (R366, R367) and the mailboxes (R368 to R370). -/

namespace Sys2Proof.Machine

section
variable {s t : State} (hc : s.canon = true)

/-! ## Fields of other words, and any event -/

include hc in
/-- A field of another word reads as before. -/
theorem get_put_ne {f g : Field} {v : Nat} (hf : f.hi < 32) (hlo : g.key ≠ f.key) (hhi : g.hi < 32 ∨ g.key + 4 ≠ f.key) :
    (s.put f v).get g = s.get g := by
  unfold State.get
  rw [rd_put_ne hc hlo (.inl hf)]
  split
  · rfl
  · rw [rd_put_ne hc (hhi.resolve_left ‹_›) (.inl hf)]

include hc in
theorem flag_put_ne {f g : Field} {v : Nat} (hf : f.hi < 32) (hlo : g.key ≠ f.key) (hhi : g.hi < 32 ∨ g.key + 4 ≠ f.key) :
    (s.put f v).flag g = s.flag g := by rw [State.flag, get_put_ne hc hf hlo hhi, State.flag]

include hc in
theorem get_raiseEvent (e : Event) {f : Field} (hlo : words [Reg.QE_ARB_LOST] f.key = false)
    (hhi : words [Reg.QE_ARB_LOST] (f.key + 4) = false) : (s.raiseEvent e).get f = s.get f :=
  (within_raiseEvent (Within.refl s) (area := words [Reg.QE_ARB_LOST]) (by decide) (by decide)).get_eq hc hlo hhi

theorem postedAs_raiseEvent (h : t.events = s.events) (e : Event) : postedAs s (t.raiseEvent e) e := by
  intro hroom
  rw [raiseEvent_room t e (by rw [State.eventsOf, h]; exact hroom), ← h]

/-- After a change of words of an area, an event. -/
theorem noisyFrame_raiseEvent (hc : s.canon = true) {area : Nat → Bool} (h : Writes area s t) (e : Event) :
    NoisyFrame area s s (t.raiseEvent e) :=
  noisyFrame_of_bare hc (within_raiseEvent (h.within.mono fun k hk => by rw [hk, Bool.true_or])
    (by rw [Bool.or_eq_true]; exact .inr (by decide)) (by rw [Bool.or_eq_true]; exact .inr (by decide))) (by rw [bare_raiseEvent, h.bare])

theorem arbLost_of_lt {k : Nat} (h : k < Reg.QE_ARB_LOST.key) : words [Reg.QE_ARB_LOST] k = false := by
  simp only [words, List.any_cons, List.any_nil, Bool.or_false, Bool.or_eq_false_iff, Bool.and_eq_false_iff, beq_eq_false_iff_ne] at h ⊢
  omega

/-! ## Pools (R366, R367) -/

/-- A pool command's answer: its result, and the event. -/
def State.poolAnswered (s : State) (op k f res : Nat) : State :=
  (s.put Reg.TTU_POOL_STATUS_RESULT res).raiseFor .ttu 4 f [(8, op), (8, k), (12, f), (8, res)]

theorem poolCmd_eq {r : Requester} {op k f res : Nat} (hmay : s.mayWrite r Reg.TTU_POOL_CMD_OP.key = true)
    (hop : s.poolOp op k f = (res, t)) : s.poolCmd r op k f = t.poolAnswered op k f res := by
  unfold State.poolCmd
  rw [hmay, hop]
  rfl

include hc in
theorem poolAnswered_result (op k f : Nat) {res : Nat} (hres : res < 16) :
    (s.poolAnswered op k f res).get Reg.TTU_POOL_STATUS_RESULT = res := by
  refine (get_raiseEvent (canon_put hc) _ (by decide) (by decide)).trans ?_
  rw [get_put_same hc (by decide)]
  exact Nat.mod_eq_of_lt hres

include hc in
/-- The answer is nothing but the result to TTU's tables. -/
theorem poolAnswered_get (op k f res : Nat) {g : Field} (hlo : 0x0B200000 ≤ g.key) (hhi : g.key + 4 < Reg.QE_ARB_LOST.key) :
    (s.poolAnswered op k f res).get g = s.get g := by
  refine (get_raiseEvent (canon_put hc) _ (arbLost_of_lt (by omega)) (arbLost_of_lt hhi)).trans (get_put_ne hc (by decide) ?_ (.inr ?_))
  · exact ne_of_gt (lt_of_lt_of_le (by decide) hlo)
  · exact ne_of_gt (lt_of_lt_of_le (by decide) (hlo.trans (Nat.le_add_right _ 4)))

theorem poolAnswered_frame (hc : s.canon = true) {area : Nat → Bool} (h : Writes area s t)
    (harea : area Reg.TTU_POOL_STATUS_RESULT.key = true) (op k f res : Nat) : NoisyFrame area s s (t.poolAnswered op k f res) :=
  noisyFrame_raiseEvent hc (writes_put h harea (.inl (by decide))) _

theorem postedAs_poolAnswered {area : Nat → Bool} (h : Writes area s t) (op k f res : Nat) :
    postedAs s (t.poolAnswered op k f res) ⟨11, 4, f, .pf, payload [(8, op), (8, k), (12, f), (8, res)]⟩ :=
  postedAs_raiseEvent (by rw [put_rest, h.rest]) _

theorem poolOp_limit {a k f : Nat} (ha : a = s.get Reg.TTU_POOL_ARG_ARG) (hk : k < 8)
    (hcap : s.limitSum k - s.get (poolLimit f k) + a ≤ s.poolCap k) (hused : s.get (poolUsed f k) ≤ a) :
    s.poolOp 1 k f = (0, s.put (poolLimit f k) a) := by
  simp only [State.poolOp, ← ha, if_neg (show ¬ 7 < k by omega), if_neg (not_lt_of_ge hcap), decide_eq_false (not_lt_of_ge hused),
    Bool.and_false, Bool.false_eq_true, if_false]

theorem poolOp_overLimit {a k f : Nat} (ha : a = s.get Reg.TTU_POOL_ARG_ARG) (hk : k < 8)
    (hcap : s.poolCap k < s.limitSum k - s.get (poolLimit f k) + a) : s.poolOp 1 k f = (1, s) := by
  simp only [State.poolOp, ← ha, if_neg (show ¬ 7 < k by omega), if_pos hcap]

section
variable {r : Requester} {f : Fin 4096} {a : Nat} (hmay : s.mayWrite r Reg.TTU_POOL_CMD_OP.key = true)
  (ha : a = s.get Reg.TTU_POOL_ARG_ARG)
include hc hmay ha

theorem setLimit_sets {k : Fin 16} (hk : k.val < 8) (hcap : s.limitSum k - s.get (poolLimit f k) + a ≤ s.poolCap k)
    (hused : s.get (poolUsed f k) ≤ a) : completes (.setLimit r k f) s fun t =>
      t.get (poolLimit f k) = a ∧ t.get Reg.TTU_POOL_STATUS_RESULT = 0 ∧
      postedAs s t ⟨11, 4, f, .pf, payload [(8, 1), (8, k), (12, f), (8, 0)]⟩ ∧
      NoisyFrame (words [poolLimit f k, Reg.TTU_POOL_STATUS_RESULT]) s s t := by
  have hwrites : Writes (words [poolLimit f k, Reg.TTU_POOL_STATUS_RESULT]) s (s.put (poolLimit f k) a) :=
    writes_put (Writes.refl s) (by simp [words]) (.inl (show 31 < 32 by decide))
  have hput : (s.put (poolLimit f k) a).get (poolLimit f k) = a := by
    rw [get_put_same hc (by simp [Field.ok, poolLimit]; omega)]
    exact Nat.mod_eq_of_lt (by rw [ha]; exact get_lt s _)
  refine ⟨_, congrArg ok (poolCmd_eq hmay (poolOp_limit ha hk hcap hused)), ?_, poolAnswered_result (hwrites.canon hc) _ _ _ (by decide),
    postedAs_poolAnswered hwrites _ _ _ _, poolAnswered_frame hc hwrites (by simp [words]) _ _ _ _⟩
  exact (poolAnswered_get (hwrites.canon hc) _ _ _ _ (by simp only [poolLimit]; omega) (by simp only [poolLimit]; omega)).trans hput

theorem setLimit_refuses {k : Fin 16} (hk : k.val < 8) (hcap : s.poolCap k < s.limitSum k - s.get (poolLimit f k) + a) :
    completes (.setLimit r k f) s fun t => t.get Reg.TTU_POOL_STATUS_RESULT = 1 ∧ t.get (poolLimit f k) = s.get (poolLimit f k) ∧
      NoisyFrame (words [Reg.TTU_POOL_STATUS_RESULT]) s s t :=
  ⟨_, congrArg ok (poolCmd_eq hmay (poolOp_overLimit ha hk hcap)), poolAnswered_result hc _ _ _ (by decide),
    poolAnswered_get hc _ _ _ _ (by simp only [poolLimit]; omega) (by simp only [poolLimit]; omega),
    poolAnswered_frame hc (Writes.refl s) (by decide) _ _ _ _⟩

end

/-! ### Rings and instances -/

/-- An owner field of an assignable kind is no word of the pools, and clear of the shaper's FUNC. -/
theorem ownerField_key {k i : Nat} (hk : k = 0 ∨ k = 4) (hi : i < assignable k) :
    0x0B300000 ≤ (ownerField k i).key ∧ (ownerField k i).key < 0x0B348000 ∧ (ownerField k i).hi < 32 ∧ (ownerField k i).ok = true ∧
      (ownerField k i).width = 16 := by
  obtain rfl | rfl := hk
  · simp only [assignable] at hi
    simp [ownerField, ringOwnerField, Field.ok, Field.width]
    omega
  · simp only [assignable] at hi
    simp [ownerField, shaperOwnerField, Field.ok, Field.width]
    omega

theorem ownerOf_eq {k : Nat} (hk : k = 0 ∨ k = 4) (s : State) (i : Nat) : s.ownerOf k i =
    if bitAt (s.get (ownerField k i)) 15 then none else some (s.get (ownerField k i) % 4096) := by
  obtain rfl | rfl := hk <;> rfl

theorem ownerOf_of_func {k i f : Nat} (hk : k = 0 ∨ k = 4) (hf : f < 4096) (h : s.get (ownerField k i) = f) :
    s.ownerOf k i = some f := by
  have hbit : bitAt f 15 = false := by
    rw [bitAt_eq_testBit]
    exact Nat.testBit_lt_two_pow (by omega)
  rw [ownerOf_eq hk, h, hbit, Nat.mod_eq_of_lt hf]
  rfl

theorem ownerOf_of_free {k i : Nat} (hk : k = 0 ∨ k = 4) (h : s.get (ownerField k i) = 0x8000) : s.ownerOf k i = none := by
  rw [ownerOf_eq hk, h]
  rfl

/-- What ASSIGN changes of the tables. -/
def State.poolAssigned (s : State) (k a f : Nat) : State :=
  ((s.put (ownerField k a) f).poolTake f k 1).when (k == 4) (fun s => s.put (Reg.SHAPER_FUNC a) f)

theorem poolOp_assign {a k f : Nat} (ha : a = s.get Reg.TTU_POOL_ARG_ARG) (hin : a < assignable k) (hfree : s.ownerOf k a = none)
    (hroom : s.get (poolUsed f k) < s.get (poolLimit f k)) : s.poolOp 2 k f = (0, s.poolAssigned k a f) := by
  simp only [State.poolOp, ← ha, if_neg (not_le_of_gt hin), hfree, Option.isSome_none, Bool.false_eq_true, if_false,
    if_neg (not_le_of_gt hroom)]
  rfl

theorem poolOp_reclaim {a k f g : Nat} (ha : a = s.get Reg.TTU_POOL_ARG_ARG) (hin : a < assignable k) (hquiet : s.quiesced k a = true)
    (hown : s.ownerOf k a = some g) : s.poolOp 3 k f = (0, (s.put (ownerField k a) 0x8000).poolGive g k 1) := by
  simp only [State.poolOp, ← ha, if_neg (not_le_of_gt hin), hquiet, hown, Bool.not_true, Bool.false_eq_true, if_false]

section
variable {k : Nat} (hk : k = 0 ∨ k = 4) {a : Nat} (hin : a < assignable k)
include hc hk hin

/-- An owner named, and USED of a function counted anew. -/
theorem ownerUsed_puts {g : Nat} (hg : g < 4096) {v n : Nat} (hv : v < 2 ^ 16) (hn : n < 2 ^ 32) :
    ((s.put (ownerField k a) v).put (poolUsed g k) n).get (ownerField k a) = v ∧
      ((s.put (ownerField k a) v).put (poolUsed g k) n).get (poolUsed g k) = n ∧
      (s.put (ownerField k a) v).get (poolUsed g k) = s.get (poolUsed g k) := by
  obtain ⟨hlo, hhi, hword, hok, hwidth⟩ := ownerField_key hk hin
  have hu : (s.put (ownerField k a) v).canon = true := canon_put hc
  have hused : (poolUsed g k).ok = true := by simp [Field.ok, poolUsed]; omega
  refine ⟨?_, ?_, ?_⟩
  · rw [get_put_ne hu (show 31 < 32 by decide) (by simp only [poolUsed]; omega) (.inl hword), get_put_same hc hok, hwidth, Nat.mod_eq_of_lt hv]
  · rw [get_put_same hu hused]
    exact Nat.mod_eq_of_lt hn
  · exact get_put_ne hc hword (by simp only [poolUsed]; omega) (.inl (show 31 < 32 by decide))

end

section
variable {r : Requester} {f : Fin 4096} {a : Nat} (hmay : s.mayWrite r Reg.TTU_POOL_CMD_OP.key = true)
  (ha : a = s.get Reg.TTU_POOL_ARG_ARG)
include hc hmay ha

theorem poolAssign_completes {k : Fin 16} (hk : k.val = 0 ∨ k.val = 4) (hin : a < assignable k) (hfree : s.ownerOf k a = none)
    (hroom : s.get (poolUsed f k) < s.get (poolLimit f k)) : completes (.poolAssign r k f) s fun t =>
      t.ownerOf k a = some f.val ∧ t.get (poolUsed f k) = s.get (poolUsed f k) + 1 ∧ t.get Reg.TTU_POOL_STATUS_RESULT = 0 := by
  have hlim : s.get (poolLimit f k) < 2 ^ 32 := get_lt s _
  obtain ⟨howner, hused, hkept⟩ := ownerUsed_puts hc hk hin f.isLt (v := f) (n := s.get (poolUsed f k) + 1) (by omega) (by omega)
  obtain ⟨hlo, hhi, -⟩ := ownerField_key hk hin
  have hassigned : s.poolAssigned k a f =
      ((s.put (ownerField k a) f).put (poolUsed f k) (s.get (poolUsed f k) + 1)).when (k.val == 4) (fun s => s.put (Reg.SHAPER_FUNC a) f) := by
    unfold State.poolAssigned State.poolTake
    rw [hkept]
  have hu : ((s.put (ownerField k a) f).put (poolUsed f k) (s.get (poolUsed f k) + 1)).canon = true := canon_put (canon_put hc)
  have hexec := poolCmd_eq (f := f) hmay (poolOp_assign ha hin hfree hroom)
  rw [hassigned] at hexec
  generalize (s.put (ownerField k a) f).put (poolUsed f k) (s.get (poolUsed f k) + 1) = u at hexec howner hused hu
  have hshaper : ∀ g : Field, 0x0B000000 ≤ g.key → g.hi < 32 → (u.when (k.val == 4) (fun s => s.put (Reg.SHAPER_FUNC a) f)).get g = u.get g := by
    intro g hg hword
    unfold State.when
    split
    · rename_i h4
      rw [beq_iff_eq] at h4
      rw [h4] at hin
      exact get_put_ne hu (show 11 < 32 by decide) (by simp only [assignable] at hin ⊢; omega) (.inl hword)
    · rfl
  have hw : (u.when (k.val == 4) (fun s => s.put (Reg.SHAPER_FUNC a) f)).canon = true := by
    unfold State.when
    split
    · exact canon_put hu
    · exact hu
  refine ⟨_, congrArg ok hexec, ownerOf_of_func hk f.isLt ?_, ?_, poolAnswered_result hw _ _ _ (by decide)⟩
  · rw [poolAnswered_get hw _ _ _ _ (by omega) (by simp only; omega), hshaper _ (by omega) (ownerField_key hk hin).2.2.1, howner]
  · rw [poolAnswered_get hw _ _ _ _ (by simp only [poolUsed]; omega) (by simp only [poolUsed]; omega),
      hshaper _ (by simp only [poolUsed]; omega) (show 31 < 32 by decide), hused]

theorem poolReclaim_completes {k : Fin 16} {g : Nat} (hk : k.val = 0 ∨ k.val = 4) (hin : a < assignable k)
    (hquiet : s.quiesced k a = true) (hown : s.ownerOf k a = some g) : completes (.poolReclaim r k f) s fun t =>
      t.ownerOf k a = none ∧ t.get (poolUsed g k) = s.get (poolUsed g k) - 1 ∧ t.get Reg.TTU_POOL_STATUS_RESULT = 0 := by
  have hg : g < 4096 := by
    rw [ownerOf_eq hk] at hown
    split at hown
    · cases hown
    · rw [← Option.some.inj hown]
      exact Nat.mod_lt _ (by decide)
  have hlim : s.get (poolUsed g k) < 2 ^ 32 := get_lt s _
  obtain ⟨howner, hused, hkept⟩ := ownerUsed_puts hc hk hin hg (v := 0x8000) (n := s.get (poolUsed g k) - 1) (by decide) (by omega)
  obtain ⟨hlo, hhi, -⟩ := ownerField_key hk hin
  have hexec := poolCmd_eq (f := f) hmay (poolOp_reclaim ha hin hquiet hown)
  rw [State.poolGive, hkept] at hexec
  have hu : ((s.put (ownerField k a) 0x8000).put (poolUsed g k) (s.get (poolUsed g k) - 1)).canon = true := canon_put (canon_put hc)
  refine ⟨_, congrArg ok hexec, ownerOf_of_free hk ?_, ?_, poolAnswered_result hu _ _ _ (by decide)⟩
  · rw [poolAnswered_get hu _ _ _ _ (by omega) (by simp only; omega), howner]
  · rw [poolAnswered_get hu _ _ _ _ (by simp only [poolUsed]; omega) (by simp only [poolUsed]; omega), hused]

end

end

/-- Settles O40: each operation's change of the tables, and the answer that leaves them alone. -/
theorem poolCommandsComplete : Obligations.PoolCommandsComplete := by
  intro s hc r f a hmay ha
  exact ⟨fun k hk => ⟨setLimit_sets hc hmay ha hk, setLimit_refuses hc hmay ha hk⟩, fun k => poolAssign_completes hc hmay ha,
    fun k g => poolReclaim_completes hc hmay ha⟩

/-! ## Mailboxes (R368 to R370) -/

/-- The pending bit of a half in the VF's own registers. -/
def vfPendingBit (toVf : Bool) (v : Nat) : Field := if toVf then Reg.TTU_VF_MBX_TO_VF_PENDING v else Reg.TTU_VF_MBX_TO_PF_PENDING v

theorem pendingBit_spec (toVf : Bool) {v : Nat} (hv : v < 4096) : 0x0B002000 ≤ (pendingBit toVf v).key ∧ (pendingBit toVf v).key < 0x0B003000 ∧
    (pendingBit toVf v).hi < 32 ∧ (pendingBit toVf v).ok = true ∧ (pendingBit toVf v).width = 1 := by
  cases toVf
  all_goals
    simp [pendingBit, Field.ok, Field.width]
    omega

theorem vfPendingBit_spec (toVf : Bool) (v : Nat) : (vfPendingBit toVf v).key = 0x20009000 + 0x10000 * v ∧ (vfPendingBit toVf v).hi < 32 ∧
    (vfPendingBit toVf v).ok = true ∧ (vfPendingBit toVf v).width = 1 := by
  cases toVf
  all_goals
    simp [vfPendingBit, Field.ok, Field.width]
    omega

section
variable {s t : State} (hc : s.canon = true)

theorem setHalf_eq (s : State) (toVf : Bool) (v : Nat) (b : Bool) :
    s.setHalf toVf v b = (s.put (pendingBit toVf v) (bit b)).put (vfPendingBit toVf v) (bit b) := rfl

theorem writes_setHalf (s : State) (toVf : Bool) {v : Nat} (hv : v < 4096) (b : Bool) :
    Writes (words [pendingBit toVf v, vfPendingBit toVf v]) s (s.setHalf toVf v b) := by
  rw [setHalf_eq]
  exact writes_put (writes_put (Writes.refl s) (words_key (by simp) ) (.inl (pendingBit_spec toVf hv).2.2.1)) (words_key (by simp))
    (.inl (vfPendingBit_spec toVf v).2.1)

include hc in
/-- A half's pending bit shows on both sides. -/
theorem setHalf_shows (toVf : Bool) {v : Nat} (hv : v < 4096) (b : Bool) :
    (s.setHalf toVf v b).halfPending toVf v = b ∧ (s.setHalf toVf v b).flag (vfPendingBit toVf v) = b := by
  obtain ⟨hlo, hhi, hword, hok, hwidth⟩ := pendingBit_spec toVf hv
  obtain ⟨hkey, hword', hok', hwidth'⟩ := vfPendingBit_spec toVf v
  have hbit : (bit b % 2 == 1) = b := by cases b <;> rfl
  constructor
  · rw [State.halfPending, setHalf_eq, flag_put_ne (canon_put hc) hword' (by omega) (.inl hword), flag_put_same hc hok hwidth, hbit]
  · rw [setHalf_eq, flag_put_same (canon_put hc) hok' hwidth', hbit]

/-- A message stamped: FROM and TICK. -/
def State.mbxStamped (s : State) (toVf : Bool) (v : Nat) : State :=
  (s.wr (halfKey toVf v + 8) (if toVf then 0 else v)).wr (halfKey toVf v + 12) (s.tick % 2 ^ 32)

theorem mbxSend_eq {toVf : Bool} {v : Nat} (hv : v ≠ 0) (hfree : s.halfPending toVf v = false) (hlen : s.rd (halfKey toVf v) % 65536 ≤ 2032) :
    s.mbxSend toVf v = ((s.mbxStamped toVf v).setHalf toVf v true).raiseEvent
      ⟨11, 5, v, if toVf then .vf v else .pf, payload [(12, v), (8, bit toVf)]⟩ := by
  unfold State.mbxSend
  dsimp only
  rw [hfree, decide_eq_false hv, Bool.false_or, if_neg Bool.false_ne_true, if_neg (not_lt_of_ge hlen)]
  rfl

theorem mbxAck_eq {toVf : Bool} {v : Nat} (hv : v ≠ 0) (hpending : s.halfPending toVf v = true) :
    s.mbxAck toVf v = (s.setHalf toVf v false).raiseEvent
      ⟨11, 6, v, if toVf then .pf else .vf v, payload [(12, v), (8, bit toVf)]⟩ := by
  unfold State.mbxAck
  rw [hpending, decide_eq_false hv]
  rfl

theorem writes_mbxStamped (s : State) (toVf : Bool) (v : Nat) :
    Writes (fun k => k == halfKey toVf v + 8 || k == halfKey toVf v + 12) s (s.mbxStamped toVf v) :=
  writes_wr (writes_wr (Writes.refl s) (by simp)) (by simp)

include hc in
/-- A message sent: stamped, and pending on both sides. -/
theorem mbxSend_shows (toVf : Bool) {v : Nat} (hv : v < 4096) (e : Event) :
    (((s.mbxStamped toVf v).setHalf toVf v true).raiseEvent e).halfPending toVf v = true ∧
      (((s.mbxStamped toVf v).setHalf toVf v true).raiseEvent e).flag (vfPendingBit toVf v) = true ∧
      (((s.mbxStamped toVf v).setHalf toVf v true).raiseEvent e).rd (halfKey toVf v + 8) = (if toVf then 0 else v) ∧
      (((s.mbxStamped toVf v).setHalf toVf v true).raiseEvent e).rd (halfKey toVf v + 12) = s.tick % 2 ^ 32 := by
  obtain ⟨hlo, hhi, hword, -⟩ := pendingBit_spec toVf hv
  obtain ⟨hkey, -⟩ := vfPendingBit_spec toVf v
  have hu := (writes_mbxStamped s toVf v).canon hc
  have ht : ((s.mbxStamped toVf v).setHalf toVf v true).canon = true := (writes_setHalf _ toVf hv true).canon hu
  obtain ⟨hshown, hshown'⟩ := setHalf_shows hu toVf hv true
  have hhalf : 0x10000000 ≤ halfKey toVf v ∧ halfKey toVf v + 16 ≤ 0x11000000 := by
    cases toVf
    all_goals
      simp [halfKey]
      omega
  have hrd : ∀ k, halfKey toVf v ≤ k → k < halfKey toVf v + 16 →
      (((s.mbxStamped toVf v).setHalf toVf v true).raiseEvent e).rd k = (s.mbxStamped toVf v).rd k := fun k hk hk' => by
    have hraised := (within_raiseEvent (e := e) (Within.refl ((s.mbxStamped toVf v).setHalf toVf v true)) (area := words [Reg.QE_ARB_LOST])
      (by decide) (by decide)).words ht k (by simp [words]; omega)
    have hset := (writes_setHalf (s.mbxStamped toVf v) toVf hv true).within.words hu k
      (by simp [words, hkey, (vfPendingBit_spec toVf v).2.1, hword]; omega)
    rw [hraised, hset]
  have hstamp : (s.wr (halfKey toVf v + 8) (if toVf then 0 else v)).canon = true := canon_wr hc
  refine ⟨?_, ?_, ?_, ?_⟩
  · rw [State.halfPending, State.flag, get_raiseEvent ht _ (arbLost_of_lt (by simp only; omega)) (arbLost_of_lt (by simp only; omega))]
    exact hshown
  · rw [State.flag, get_raiseEvent ht _ (by simp [words]; omega) (by simp [words]; omega)]
    exact hshown'
  · rw [hrd _ (by omega) (by omega), State.mbxStamped, rd_wr_ne hstamp (by omega), rd_wr_same hc]
    cases toVf
    · exact Nat.mod_eq_of_lt (by simp only [Bool.false_eq_true, if_false]; omega)
    · rfl
  · rw [hrd _ (by omega) (by omega), State.mbxStamped, rd_wr_same hstamp, Nat.mod_mod]

theorem writes_mbxSent (s : State) (toVf : Bool) {v : Nat} (hv : v < 4096) :
    Writes (fun k => k == halfKey toVf v + 8 || k == halfKey toVf v + 12 || words [pendingBit toVf v, vfPendingBit toVf v] k) s
      ((s.mbxStamped toVf v).setHalf toVf v true) :=
  ((writes_mbxStamped s toVf v).mono fun k hk => by rw [hk, Bool.true_or]).trans
    ((writes_setHalf _ toVf hv true).mono fun k hk => by rw [hk, Bool.or_true])

include hc in
/-- An ACK shows on both sides. -/
theorem mbxAck_shows (toVf : Bool) {v : Nat} (hv : v < 4096) (e : Event) :
    ((s.setHalf toVf v false).raiseEvent e).halfPending toVf v = false ∧ ((s.setHalf toVf v false).raiseEvent e).flag (vfPendingBit toVf v) = false := by
  obtain ⟨hlo, hhi, hword, -⟩ := pendingBit_spec toVf hv
  obtain ⟨hkey, -⟩ := vfPendingBit_spec toVf v
  have ht := (writes_setHalf s toVf hv false).canon hc
  obtain ⟨hshown, hshown'⟩ := setHalf_shows hc toVf hv false
  constructor
  · rw [State.halfPending, State.flag, get_raiseEvent ht _ (arbLost_of_lt (by simp only; omega)) (arbLost_of_lt (by simp only; omega))]
    exact hshown
  · rw [State.flag, get_raiseEvent ht _ (by simp [words]; omega) (by simp [words]; omega)]
    exact hshown'

/-! ### The commands -/

section
variable {v : Fin 4096} (hv : v.val ≠ 0)
include hc hv

theorem mbxSendToPf_completes (hshown : s.vfShown v = true) (hfree : s.halfPending false v = false)
    (hlen : s.rd (halfKey false v) % 65536 ≤ 2032) : completes (.mbxSendToPf v) s fun t =>
    t.halfPending false v = true ∧ t.flag (Reg.TTU_VF_MBX_TO_PF_PENDING v) = true ∧ t.rd (halfKey false v + 8) = v.val ∧
    t.rd (halfKey false v + 12) = s.tick % 2 ^ 32 ∧ postedAs s t ⟨11, 5, v, .pf, payload [(12, v), (8, 0)]⟩ ∧
    NoisyFrame (fun k => k == halfKey false v + 8 || k == halfKey false v + 12 ||
      words [pendingBit false v, Reg.TTU_VF_MBX_TO_PF_PENDING v] k) s s t := by
  obtain ⟨hpending, hflag, hfrom, htick⟩ := mbxSend_shows hc false v.isLt ⟨11, 5, v, .pf, payload [(12, v), (8, 0)]⟩
  have hsent := writes_mbxSent s false v.isLt
  exact ⟨_, congrArg ok ((if_pos hshown).trans (mbxSend_eq hv hfree hlen)), hpending, hflag, hfrom, htick,
    postedAs_raiseEvent (by rw [hsent.rest]) _, noisyFrame_raiseEvent hc hsent _⟩

theorem mbxSendToVf_completes {r : Requester} (hmay : s.mayWrite r Reg.TTU_MBX_SEND.key = true) (hfree : s.halfPending true v = false)
    (hlen : s.rd (halfKey true v) % 65536 ≤ 2032) : completes (.mbxSendToVf r v) s fun t =>
      t.halfPending true v = true ∧ t.flag (Reg.TTU_VF_MBX_TO_VF_PENDING v) = true ∧ t.rd (halfKey true v + 8) = 0 ∧
      t.rd (halfKey true v + 12) = s.tick % 2 ^ 32 ∧ postedAs s t ⟨11, 5, v, .vf v, payload [(12, v), (8, 1)]⟩ := by
  obtain ⟨hpending, hflag, hfrom, htick⟩ := mbxSend_shows hc true v.isLt ⟨11, 5, v, .vf v, payload [(12, v), (8, 1)]⟩
  exact ⟨_, congrArg ok ((if_pos hmay).trans (mbxSend_eq hv hfree hlen)), hpending, hflag, hfrom, htick,
    postedAs_raiseEvent (by rw [(writes_mbxSent s true v.isLt).rest]) _⟩

theorem mbxAckByPf_completes {r : Requester} (hmay : s.mayWrite r Reg.TTU_MBX_ACK.key = true) (hpending : s.halfPending false v = true) :
    completes (.mbxAckByPf r v) s fun t => t.halfPending false v = false ∧ t.flag (Reg.TTU_VF_MBX_TO_PF_PENDING v) = false ∧
      postedAs s t ⟨11, 6, v, .vf v, payload [(12, v), (8, 0)]⟩ ∧
      NoisyFrame (words [pendingBit false v, Reg.TTU_VF_MBX_TO_PF_PENDING v]) s s t := by
  obtain ⟨hfreed, hflag⟩ := mbxAck_shows hc false v.isLt ⟨11, 6, v, .vf v, payload [(12, v), (8, 0)]⟩
  have hset := writes_setHalf s false v.isLt false
  exact ⟨_, congrArg ok ((if_pos hmay).trans (mbxAck_eq hv hpending)), hfreed, hflag, postedAs_raiseEvent (by rw [hset.rest]) _,
    noisyFrame_raiseEvent hc hset _⟩

theorem mbxAckByVf_completes (hshown : s.vfShown v = true) (hpending : s.halfPending true v = true) :
    completes (.mbxAckByVf v) s fun t => t.halfPending true v = false ∧ t.flag (Reg.TTU_VF_MBX_TO_VF_PENDING v) = false ∧
      postedAs s t ⟨11, 6, v, .pf, payload [(12, v), (8, 1)]⟩ ∧
      NoisyFrame (words [pendingBit true v, Reg.TTU_VF_MBX_TO_VF_PENDING v]) s s t := by
  obtain ⟨hfreed, hflag⟩ := mbxAck_shows hc true v.isLt ⟨11, 6, v, .pf, payload [(12, v), (8, 1)]⟩
  have hset := writes_setHalf s true v.isLt false
  exact ⟨_, congrArg ok ((if_pos hshown).trans (mbxAck_eq hv hpending)), hfreed, hflag, postedAs_raiseEvent (by rw [hset.rest]) _,
    noisyFrame_raiseEvent hc hset _⟩

omit hc hv in
theorem writeMailbox_vf {w i x : Nat} {q : Fin 4096} (hrun : s.running .ttu = true) (hi : i < 512) (hw : w ≠ 0) :
    s.writeMailbox (.vf q) w i x = if !(q.val == w) || !s.served (.vf q) then s
      else if s.halfPending false w then s.bump Reg.TTU_MBX_LOCKED else s.wr (0x10000000 + 0x1000 * w + 4 * i) x := by
  have hown : decide (512 ≤ i) = false := decide_eq_false (not_le_of_gt hi)
  have hsender : isSender false w (.vf q) = (q.val == w) := rfl
  unfold State.writeMailbox
  dsimp only
  rw [hown, decide_eq_false hw, hrun, hsender, Bool.not_true, Bool.or_false, Bool.false_or]

omit hc in
theorem writeMailbox_own {i x : Nat} (hrun : s.running .ttu = true) (hserved : s.served (.vf v) = true) (hi : i < 512) :
    s.writeMailbox (.vf v) v i x =
      if s.halfPending false v then s.bump Reg.TTU_MBX_LOCKED else s.wr (0x10000000 + 0x1000 * v.val + 4 * i) x := by
  rw [writeMailbox_vf hrun hi hv, beq_self_eq_true, hserved, Bool.not_true, Bool.or_self, if_neg Bool.false_ne_true]

section
variable {i : Fin 1024} {x : Word} (hrun : s.running .ttu = true) (hi : i.val < 512)
include hrun hi

theorem mailboxWrite_writes (hserved : s.served (.vf v) = true) (hfree : s.halfPending false v = false) :
    completes (.mailboxWrite (.vf v) v i x) s fun t =>
      t.rd (0x10000000 + 0x1000 * v.val + 4 * i.val) = x.toNat ∧
      QuietFrame (fun k => k == 0x10000000 + 0x1000 * v.val + 4 * i.val) s s t := by
  have hown := writeMailbox_own hv (x := x.toNat) hrun hserved hi
  rw [hfree, if_neg Bool.false_ne_true] at hown
  have hwrites : Writes (fun k => k == 0x10000000 + 0x1000 * v.val + 4 * i.val) s (s.wr (0x10000000 + 0x1000 * v.val + 4 * i.val) x.toNat) :=
    writes_wr (Writes.refl s) (beq_iff_eq.mpr rfl)
  refine ⟨_, congrArg ok hown, ?_, hwrites.quietFrame hc⟩
  rw [rd_wr_same hc, Nat.mod_eq_of_lt x.isLt]

theorem mailboxWrite_locked (hserved : s.served (.vf v) = true) (hpending : s.halfPending false v = true) :
    completes (.mailboxWrite (.vf v) v i x) s fun t =>
      t.get Reg.TTU_MBX_LOCKED = (s.get Reg.TTU_MBX_LOCKED + 1) % 2 ^ 64 ∧ QuietFrame (words [Reg.TTU_MBX_LOCKED]) s s t := by
  have hown := writeMailbox_own hv (x := x.toNat) hrun hserved hi
  rw [hpending, if_pos rfl] at hown
  exact ⟨_, congrArg ok hown, get_put_same hc (by decide), (writes_put (Writes.refl s) (by decide) (.inr (by decide))).quietFrame hc⟩

omit hc in
theorem mailboxWrite_other {w : Fin 4096} (hw : w ≠ v) : completes (.mailboxWrite (.vf w) v i x) s fun t => t = s := by
  have hother : (w.val == v.val) = false := beq_eq_false_iff_ne.mpr fun h => hw (Fin.ext h)
  refine ⟨_, congrArg ok ((writeMailbox_vf hrun hi hv).trans ?_), rfl⟩
  rw [hother, Bool.not_false, Bool.true_or, if_pos rfl]

end

end

end

/-- Settles O41: a half's pending bit on both sides, and what is stamped before it. -/
theorem mailboxCommandsComplete : Obligations.MailboxCommandsComplete := by
  intro s hc v hv
  exact ⟨mbxSendToPf_completes hc hv, fun r => mbxSendToVf_completes hc hv, fun r => mbxAckByPf_completes hc hv, mbxAckByVf_completes hc hv,
    fun i x hrun hserved hi => ⟨mailboxWrite_writes hc hv hrun hi hserved, mailboxWrite_locked hc hv hrun hi hserved,
      fun w => mailboxWrite_other hv hrun hi⟩⟩

end Sys2Proof.Machine
end

section
/-! PROOFS. The ring context (R388 to R390): fields of one table row, the rings' own state, and ring errors (R391). -/

namespace Sys2Proof.Machine

/-! ## Rows of a table -/

/-- A field of another row of its table, `d` bytes on. -/
def Field.up (f : Field) (d : Nat) : Field := ⟨f.key + d, f.hi, f.lo⟩

/-- Fields of one row, set one after the other. -/
def upBy (d : Nat) (l : List (Field × Nat)) : List (Field × Nat) := l.map fun p => (p.1.up d, p.2)

section
variable {s t : State} {f g : Field} {d : Nat} (hd : d % 4 = 0)
include hd

theorem ok_up (hf : f.ok = true) : (f.up d).ok = true := by
  simp only [Field.ok, Field.up, Bool.and_eq_true, beq_iff_eq, decide_eq_true_eq] at hf ⊢
  obtain ⟨⟨hkey, hle⟩, hlt⟩ := hf
  exact ⟨⟨by omega, decide_eq_true hle⟩, decide_eq_true hlt⟩

theorem off_up (h : f.off g = true) : (f.up d).off (g.up d) = true := by
  simp only [Field.off, Bool.and_eq_true, Bool.or_eq_true, decide_eq_true_eq] at h ⊢
  obtain ⟨⟨hf, hg⟩, hapart⟩ := h
  refine ⟨⟨ok_up hd hf, ok_up hd hg⟩, ?_⟩
  simp only [Field.at, Field.width, Field.up] at hapart ⊢
  omega

theorem all_off_upBy {l : List (Field × Nat)} (h : l.all (fun p => p.1.off g) = true) :
    (upBy d l).all (fun p => p.1.off (g.up d)) = true := by
  rw [List.all_eq_true] at h ⊢
  intro p hp
  obtain ⟨q, hq, rfl⟩ := List.mem_map.mp hp
  exact off_up hd (h q hq)

/-- A field of a row reads what was set last. -/
theorem get_puts_upBy (hc : s.canon = true) (l : List (Field × Nat)) {v : Nat} {m : List (Field × Nat)} (hf : f.ok = true)
    (h : m.all (fun p => p.1.off f) = true) : (s.puts (upBy d (l ++ (f, v) :: m))).get (f.up d) = v % 2 ^ f.width := by
  rw [upBy, List.map_append, List.map_cons]
  exact get_puts_last hc (upBy d l) (ok_up hd hf) (all_off_upBy hd h)

omit hd in
theorem writes_puts_upBy {area : Nat → Bool} (h : Writes area t s) {l : List (Field × Nat)}
    (hl : ∀ p ∈ l, area (p.1.key + d) = true ∧ p.1.hi < 32) : Writes area t (s.puts (upBy d l)) := by
  refine writes_puts h ?_
  rw [List.all_eq_true]
  intro p hp
  obtain ⟨q, hq, rfl⟩ := List.mem_map.mp hp
  rw [Bool.and_eq_true, decide_eq_true_eq]
  exact hl q hq

end

/-! ## A ring's own state -/

section
variable {s t : State} {r : Nat} {x : RingRt}

theorem setRing_get (s : State) (r : Nat) (x : RingRt) (f : Field) : (s.setRing r x).get f = s.get f := rfl
theorem setRing_flag (s : State) (r : Nat) (x : RingRt) (f : Field) : (s.setRing r x).flag f = s.flag f := rfl
theorem ringOn_setRing (s : State) (r : Nat) (x : RingRt) (q : Nat) : (s.setRing r x).ringOn q = s.ringOn q := rfl
theorem setRing_canon (s : State) (r : Nat) (x : RingRt) : (s.setRing r x).canon = s.canon := rfl

theorem setRing_within {area : Nat → Bool} (h : Within area s t) (r : Nat) (x : RingRt) : Within area s (t.setRing r x) :=
  within_same h rfl rfl rfl

theorem ring_setRing (s : State) (r : Nat) (x : RingRt) : (s.setRing r x).ring r = x :=
  congrArg (·.getD RingRt.empty) (Assoc.get?_set_same s.qe.rings r x)

theorem Writes.ring {area : Nat → Bool} (h : Writes area s t) (r : Nat) : t.ring r = s.ring r := by rw [h.rest]; rfl

theorem ring_put (s : State) (f : Field) (v r : Nat) : (s.put f v).ring r = s.ring r := by rw [put_rest]; rfl

/-- Words of an area written, and the state of a ring. -/
theorem quietFrame_setRing (hc : s.canon = true) {area : Nat → Bool} (h : Writes area s t) (r : Nat) (x : RingRt) :
    QuietFrame area s { s with qe := { s.qe with rings := (t.setRing r x).qe.rings } } (t.setRing r x) :=
  quietFrame hc (setRing_within h.within r x) (by rw [State.setRing, h.rest])

end

/-! ## Ring errors (R391) -/

/-- The event of a ring error. -/
def State.ringErrorEvent (s : State) (r kind seq : Nat) : Event :=
  ⟨12, 4, (s.ringOwner r).getD 0, if s.ringOwner r = none then .pf else .ring r, payload [(17, r), (8, kind), (32, seq)]⟩

section
variable {s₀ s : State} {r kind : Nat}

theorem ringError_first (h : 0xC00000000 + 16 * r + kind ∉ s.once) (seq : Nat) :
    s.ringError r kind seq = (s.noteOnce (0xC00000000 + 16 * r + kind)).raiseEvent (s.ringErrorEvent r kind seq) :=
  oncePerTick_first h _

theorem ringError_cases (s : State) (r kind seq : Nat) : s.ringError r kind seq = s ∨
    s.ringError r kind seq = (s.noteOnce (0xC00000000 + 16 * r + kind)).raiseEvent (s.ringErrorEvent r kind seq) := by
  unfold State.ringError State.oncePerTick
  split
  · exact .inl rfl
  · exact .inr rfl

theorem within_ringError {area : Nat → Bool} (h : Within area s₀ s) (harea : ∀ k, words [Reg.QE_ARB_LOST] k = true → area k = true)
    (r kind seq : Nat) : Within area s₀ (s.ringError r kind seq) := by
  have hnoted : Within area s₀ (s.noteOnce (0xC00000000 + 16 * r + kind)) := within_same h rfl rfl rfl
  obtain he | he := ringError_cases s r kind seq
  all_goals rw [he]
  · exact h
  · exact within_raiseEvent hnoted (harea _ (by decide)) (harea _ (by decide))

theorem bare_ringError (s : State) (r kind seq : Nat) : (s.ringError r kind seq).bare = s.bare := by
  obtain he | he := ringError_cases s r kind seq
  all_goals rw [he]
  rw [bare_raiseEvent]
  rfl

theorem get_ringError (hc : s.canon = true) (r kind seq : Nat) {f : Field} (hlo : words [Reg.QE_ARB_LOST] f.key = false)
    (hhi : words [Reg.QE_ARB_LOST] (f.key + 4) = false) : (s.ringError r kind seq).get f = s.get f :=
  (within_ringError (Within.refl s) (fun _ h => h) r kind seq).get_eq hc hlo hhi

end

/-! ## Writes of the ring context (R388) -/

section
variable {s : State} {q : Requester} {r : Nat}

theorem setBits_word {w v : Nat} (hw : w < 2 ^ 32) (hv : v < 2 ^ 32) : setBits w 0 32 (bits v 0 32) = v := by
  refine Nat.eq_of_testBit_eq fun i => ?_
  rw [setBits_testBit, bits_testBit]
  by_cases hi : i < 32
  · simp [hi]
  · rw [Nat.testBit_lt_two_pow (hv.trans_le (Nat.pow_le_pow_right (by decide) (not_lt.mp hi)))]
    simp [hi, Nat.testBit_lt_two_pow (hw.trans_le (Nat.pow_le_pow_right (by decide) (not_lt.mp hi)))]

/-- A still ring takes a word of addresses whole. -/
theorem writeContext_still (hreach : s.reachesRing q r = true) (hoff : s.ringOn r = false) (hidle : s.flag (Reg.RING_IDLE r) = true)
    {i v : Nat} (hi : i = 3 ∨ i = 5) (hv : v < 2 ^ 32) : s.writeContext q r i v = s.wr (0x0C400000 + 64 * r + 4 * i) v := by
  have hword : s.rd (0x0C400000 + 64 * r + 4 * i) < 2 ^ 32 := BitVec.isLt _
  unfold State.writeContext
  rw [hreach, hoff, hidle]
  obtain rfl | rfl := hi
  all_goals
    simp only [Bool.not_true, Bool.false_eq_true, if_false, contextFields, List.foldl_cons, List.foldl_nil, Bool.not_false, Bool.and_self,
      Bool.or_true, Bool.true_or, if_true, setBits_word hword hv, OfNat.ofNat_ne_zero]

/-- A ring that is not still keeps its addresses. -/
theorem writeContext_kept (hc : s.canon = true) (hreach : s.reachesRing q r = true)
    (hrun : s.ringOn r = true ∨ s.flag (Reg.RING_IDLE r) = false) {i : Nat} (hi : i ∈ [2, 3, 4, 5]) (v : Nat) :
    s.writeContext q r i v = s := by
  have hstill : (!s.ringOn r && s.flag (Reg.RING_IDLE r)) = false := by
    obtain h | h := hrun
    · rw [h]; rfl
    · rw [h, Bool.and_false]
  unfold State.writeContext
  rw [hreach, hstill]
  simp only [List.mem_cons, List.not_mem_nil, or_false] at hi
  obtain rfl | rfl | rfl | rfl := hi
  all_goals
    simp only [Bool.not_true, Bool.false_eq_true, if_false, contextFields, List.foldl_cons, List.foldl_nil, Bool.or_self, Bool.false_and,
      OfNat.ofNat_ne_zero, wr_rd_self hc]

end

/-! ## ENABLE (R389, R390) -/

section
variable {s : State} {r : Nat}

theorem phaseOf_zero (s : State) (r : Nat) : s.phaseOf r 0 = 1 := by
  unfold State.phaseOf
  rw [Nat.zero_div]
  exact ite_self 1

/-- The fields that an enabled context starts with. -/
def startFields : List (Field × Nat) :=
  [(Reg.RING_ENABLE 0, 1), (Reg.RING_IDLE 0, 0), (Reg.RING_DONE 0, 0), (Reg.RING_ARMED 0, 0), (Reg.RING_REREAD 0, 0),
    (Reg.RING_ERR_STOP 0, 0), (Reg.RING_NEXT 0, 0), (Reg.RING_PHASE 0, 1)]

/-- The state that an enabled ring starts with. -/
def RingRt.started (x : RingRt) : RingRt := { RingRt.empty with request := x.request, signalled := x.signalled }

theorem ringEnable_sound (hoff : s.ringOn r = false) (hidle : s.flag (Reg.RING_IDLE r) = true) (hgood : s.badContext r = false) :
    s.ringEnable r = (s.puts (upBy (64 * r) startFields)).setRing r (s.ring r).started := by
  unfold State.ringEnable
  rw [hoff, hidle, hgood]
  simp only [Bool.not_true, Bool.or_self, Bool.false_eq_true, if_false, State.setNext, Nat.zero_mod, phaseOf_zero, ring_put]
  rfl

theorem ringEnable_bad (hoff : s.ringOn r = false) (hidle : s.flag (Reg.RING_IDLE r) = true) (hbad : s.badContext r = true) :
    s.ringEnable r = ({ s with free := s.free + 1 } : State).ringError r 5 (Config.freeValue s.free) := by
  unfold State.ringEnable
  rw [hoff, hidle, hbad]
  rfl

theorem stopRing_eq (s : State) (r : Nat) : s.stopRing r = ((s.put (Reg.RING_ENABLE r) 0).put (Reg.RING_REREAD r) 0).setRing r
    { s.ring r with waiting := false, fetching := false, turn := 0, ahead := 0 } := by
  unfold State.stopRing
  simp only [ring_put]

theorem writes_stopFields (s : State) (r : Nat) :
    Writes (words [Reg.RING_ENABLE r, Reg.RING_REREAD r]) s ((s.put (Reg.RING_ENABLE r) 0).put (Reg.RING_REREAD r) 0) :=
  writes_put (writes_put (Writes.refl s) (words_key (by simp)) (.inl (show 31 < 32 by decide))) (words_key (by simp))
    (.inl (show 29 < 32 by decide))

variable (hc : s.canon = true) {q : Requester} {ring : Fin 131072}
include hc

theorem ringContextWrite_takes (hreach : s.reachesRing q ring = true) {v : Word} (hoff : s.ringOn ring = false)
    (hidle : s.flag (Reg.RING_IDLE ring) = true) {i : Fin 16} (hi : i.val = 3 ∨ i.val = 5) :
    completes (.ringContextWrite q ring i v) s fun t => t.rd (0x0C400000 + 64 * ring.val + 4 * i.val) = v.toNat ∧
      QuietFrame (fun k => k == 0x0C400000 + 64 * ring.val + 4 * i.val) s s t := by
  have hwrites : Writes (fun k => k == 0x0C400000 + 64 * ring.val + 4 * i.val) s (s.wr (0x0C400000 + 64 * ring.val + 4 * i.val) v.toNat) :=
    writes_wr (Writes.refl s) (beq_iff_eq.mpr rfl)
  refine ⟨_, congrArg ok (writeContext_still hreach hoff hidle hi v.isLt), ?_, hwrites.quietFrame hc⟩
  rw [rd_wr_same hc, Nat.mod_eq_of_lt v.isLt]

theorem ringEnable_starts (hreach : s.reachesRing q ring = true) (hoff : s.ringOn ring = false)
    (hidle : s.flag (Reg.RING_IDLE ring) = true) (hgood : s.badContext ring = false) : completes (.ringEnable q ring) s fun t =>
    t.ringOn ring = true ∧ t.flag (Reg.RING_IDLE ring) = false ∧
      t.get (Reg.RING_NEXT ring) = 0 ∧ t.get (Reg.RING_DONE ring) = 0 ∧ t.flag (Reg.RING_PHASE ring) = true ∧
      t.flag (Reg.RING_ARMED ring) = false ∧ t.flag (Reg.RING_ERR_STOP ring) = false ∧ (t.ring ring).taken = [] ∧
      QuietFrame (words [Reg.RING_ENABLE ring, Reg.RING_PHASE ring, Reg.RING_NEXT ring, Reg.RING_DONE ring]) s
        { s with qe := { s.qe with rings := t.qe.rings } } t := by
  have hd : 64 * ring.val % 4 = 0 := by omega
  have hget : ∀ (l : List (Field × Nat)) (f : Field) (v : Nat) (m : List (Field × Nat)), startFields = l ++ (f, v) :: m →
      f.ok = true → m.all (fun p => p.1.off f) = true → (s.puts (upBy (64 * ring) startFields)).get (f.up (64 * ring)) = v % 2 ^ f.width :=
    fun l f v m hl hf hm => by rw [hl]; exact get_puts_upBy hd hc l hf hm
  have hwrites : Writes (words [Reg.RING_ENABLE ring, Reg.RING_PHASE ring, Reg.RING_NEXT ring, Reg.RING_DONE ring]) s
      (s.puts (upBy (64 * ring) startFields)) := writes_puts_upBy (Writes.refl s) fun p hp => by
    simp only [startFields, List.mem_cons, List.not_mem_nil, or_false] at hp
    obtain rfl | rfl | rfl | rfl | rfl | rfl | rfl | rfl := hp
    all_goals simp [words]
  have henable := hget [] (Reg.RING_ENABLE 0) 1 _ rfl (by decide) (by decide)
  have hidle' := hget [_] (Reg.RING_IDLE 0) 0 _ rfl (by decide) (by decide)
  have hdone := hget [_, _] (Reg.RING_DONE 0) 0 _ rfl (by decide) (by decide)
  have harmed := hget [_, _, _] (Reg.RING_ARMED 0) 0 _ rfl (by decide) (by decide)
  have hstop := hget [_, _, _, _, _] (Reg.RING_ERR_STOP 0) 0 _ rfl (by decide) (by decide)
  have hnext := hget [_, _, _, _, _, _] (Reg.RING_NEXT 0) 0 _ rfl (by decide) (by decide)
  have hphase := hget [_, _, _, _, _, _, _] (Reg.RING_PHASE 0) 1 _ rfl (by decide) (by decide)
  have hsound := ringEnable_sound hoff hidle hgood
  generalize s.puts (upBy (64 * ring) startFields) = u at *
  simp only [Field.up, Nat.mul_zero, Nat.add_zero] at henable hidle' hdone harmed hstop hnext hphase
  refine ⟨_, congrArg ok ((if_pos hreach).trans hsound), ?_, ?_, (setRing_get ..).trans hnext, (setRing_get ..).trans hdone, ?_, ?_, ?_, ?_,
    quietFrame_setRing hc hwrites _ _⟩
  · rw [ringOn_setRing, State.ringOn, State.flag, henable]
    rfl
  · rw [setRing_flag, State.flag, hidle']
    rfl
  · rw [setRing_flag, State.flag, hphase]
    rfl
  · rw [setRing_flag, State.flag, harmed]
    rfl
  · rw [setRing_flag, State.flag, hstop]
    rfl
  · rw [ring_setRing]
    rfl

theorem ringEnable_refuses (hreach : s.reachesRing q ring = true) (hoff : s.ringOn ring = false)
    (hidle : s.flag (Reg.RING_IDLE ring) = true) (hbad : s.badContext ring = true) : completes (.ringEnable q ring) s fun t =>
    t.ringOn ring = false ∧ NoisyFrame (fun _ => false) s { s with free := s.free + 1 } t ∧
      (0xC00000000 + 16 * ring.val + 5 ∉ s.once → s.ringOwner ring ≠ none →
        postedAs s t ⟨12, 4, (s.ringOwner ring).getD 0, .ring ring, payload [(17, ring), (8, 5), (32, Config.freeValue s.free)]⟩) := by
  have hfree : Within (words [Reg.QE_ARB_LOST]) s { s with free := s.free + 1 } := within_same (Within.refl s) rfl rfl rfl
  have hkey : 0x0C400000 ≤ (Reg.RING_ENABLE ring).key := Nat.le_add_right _ _
  refine ⟨_, congrArg ok ((if_pos hreach).trans (ringEnable_bad hoff hidle hbad)), ?_, ?_, fun hnew howner => ?_⟩
  · exact (congrArg (· == 1) (get_ringError (s := { s with free := s.free + 1 }) hc ring 5 _ (f := Reg.RING_ENABLE ring)
      (by simp [words]; omega) (by simp [words]; omega))).trans hoff
  · exact noisyFrame_of_bare hc (within_ringError (hfree.mono fun k hk => hk) (fun k hk => hk) _ _ _) (bare_ringError _ _ _ _)
  · have hevent : ({ s with free := s.free + 1 } : State).ringErrorEvent ring 5 (Config.freeValue s.free) =
        ⟨12, 4, (s.ringOwner ring).getD 0, .ring ring, payload [(17, ring), (8, 5), (32, Config.freeValue s.free)]⟩ :=
      congrArg (fun d => (⟨12, 4, (s.ringOwner ring).getD 0, d, payload [(17, ring), (8, 5), (32, Config.freeValue s.free)]⟩ : Event))
        (if_neg howner)
    rw [ringError_first (s := { s with free := s.free + 1 }) hnew, hevent]
    exact postedAs_raiseEvent (s := s) (t := ({ s with free := s.free + 1 } : State).noteOnce _) rfl _

theorem ringDisable_stops (hreach : s.reachesRing q ring = true) (hon : s.ringOn ring = true) : completes (.ringDisable q ring) s fun t =>
    t.ringOn ring = false ∧ (t.ring ring).fetching = false ∧ (t.ring ring).waiting = false ∧ (t.ring ring).taken = (s.ring ring).taken ∧
      QuietFrame (words [Reg.RING_ENABLE ring, Reg.RING_REREAD ring]) s { s with qe := { s.qe with rings := t.qe.rings } } t := by
  have hwrites := writes_stopFields s ring
  have henable : ((s.put (Reg.RING_ENABLE ring) 0).put (Reg.RING_REREAD ring) 0).ringOn ring = false := by
    rw [State.ringOn, flag_put_ne (canon_put hc) (show 29 < 32 by decide) (by simp) (.inl (show 31 < 32 by decide)),
      flag_put_same hc (by simp [Field.ok]; omega) rfl]
    rfl
  have hstop := stopRing_eq s ring
  generalize (s.put (Reg.RING_ENABLE ring) 0).put (Reg.RING_REREAD ring) 0 = u at *
  refine ⟨_, congrArg ok ((if_pos hreach).trans ((if_pos hon).trans hstop)), (ringOn_setRing ..).trans henable, ?_, ?_, ?_, quietFrame_setRing hc hwrites _ _⟩
  all_goals rw [ring_setRing]

/-! ## RING_IDLE (R390) -/

section
variable (hoff : s.ringOn ring = false) (hidle : s.flag (Reg.RING_IDLE ring) = false)
  (hwait : s.qe.rxWait.any (·.ring == ring.val) = false)

omit hc in
theorem writes_idleField (s : State) (r : Nat) : Writes (words [Reg.RING_IDLE r]) s (s.put (Reg.RING_IDLE r) 1) :=
  writes_put (Writes.refl s) (words_key (by simp)) (.inl (show 30 < 32 by decide))

/-- A ring shown idle, its own state set. -/
theorem idle_shown (r : Nat) (x : RingRt) : ((s.setRing r x).put (Reg.RING_IDLE r) 1).flag (Reg.RING_IDLE r) = true ∧
    ((s.setRing r x).put (Reg.RING_IDLE r) 1).ring r = x ∧
    QuietFrame (words [Reg.RING_IDLE r]) s { s with qe := { s.qe with rings := ((s.setRing r x).put (Reg.RING_IDLE r) 1).qe.rings } }
      ((s.setRing r x).put (Reg.RING_IDLE r) 1) := by
  have hset : (s.setRing r x).canon = true := hc
  have hwithin : Within (words [Reg.RING_IDLE r]) s (s.setRing r x) := setRing_within (Within.refl s) r x
  have hwrites := writes_idleField (s.setRing r x) r
  have hring := ring_setRing s r x
  refine ⟨flag_put_same hset (ok_up (f := Reg.RING_IDLE 0) (d := 64 * r) (by omega) (by decide)) rfl 1, ?_,
    quietFrame hc (hwithin.trans hwrites.within) ?_⟩
  · rw [ring_put, hring]
  · rw [hwrites.rest]
    rfl

include hoff hidle hwait

theorem ringIdle_consumer {w : List Walk8} (hkept : (s.ring ring).abandoned = false) (htype : 3 ≤ s.ringType ring) :
    completes (.ringIdle ring w) s fun t => t.flag (Reg.RING_IDLE ring) = true ∧ (t.ring ring).taken = [] ∧
      QuietFrame (words [Reg.RING_IDLE ring]) s { s with qe := { s.qe with rings := t.qe.rings } } t := by
  have hexec : exec (.ringIdle ring w) s = ok ((s.setRing ring { s.ring ring with taken := [] }).put (Reg.RING_IDLE ring) 1) := by
    have h0 : (s.ringType ring == 0) = false := beq_eq_false_iff_ne.mpr (by omega)
    have h2 : (s.ringType ring == 2) = false := beq_eq_false_iff_ne.mpr (by omega)
    have h1 : decide (s.ringType ring ≤ 1) = false := decide_eq_false (by omega)
    simp only [exec, execRingIdle, hoff, hidle, hwait, hkept, h0, h1, h2, Bool.or_self, Bool.false_and, Bool.false_eq_true, if_false,
      State.when]
  obtain ⟨hshown, hring, hframe⟩ := idle_shown hc ring.val { s.ring ring with taken := [] }
  exact ⟨_, hexec, hshown, by rw [hring], hframe⟩

theorem ringIdle_abandoned {w : List Walk8} (hgone : (s.ring ring).abandoned = true) (hdone : s.outstanding (s.ringFunc ring) = false) :
    completes (.ringIdle ring w) s fun t => t.flag (Reg.RING_IDLE ring) = true ∧ (t.ring ring).abandoned = false ∧
      QuietFrame (words [Reg.RING_IDLE ring]) s { s with qe := { s.qe with rings := t.qe.rings } } t := by
  have hexec : exec (.ringIdle ring w) s = ok ((s.setRing ring { s.ring ring with abandoned := false }).put (Reg.RING_IDLE ring) 1) := by
    simp only [exec, execRingIdle, hoff, hidle, hwait, hgone, hdone, Bool.or_self, Bool.false_eq_true, if_false, if_true]
  obtain ⟨hshown, hring, hframe⟩ := idle_shown hc ring.val { s.ring ring with abandoned := false }
  exact ⟨_, hexec, hshown, by rw [hring], hframe⟩

end

end

/-- Settles O44: the context's words, the fields an enabled ring starts with, and a ring's own state as it stops. -/
theorem ringCommandsComplete : Obligations.RingCommandsComplete := by
  intro s hc q r
  exact ⟨fun hreach => ⟨fun v hoff hidle i hi => ringContextWrite_takes hc hreach hoff hidle hi,
      fun v hrun i hi => ⟨_, congrArg ok (writeContext_kept hc hreach hrun hi _), rfl⟩,
      fun hoff hidle => ⟨ringEnable_starts hc hreach hoff hidle, ringEnable_refuses hc hreach hoff hidle⟩, ringDisable_stops hc hreach⟩,
    fun hoff hidle hwait w => ⟨ringIdle_consumer hc hoff hidle hwait, ringIdle_abandoned hc hoff hidle hwait⟩⟩

end Sys2Proof.Machine
end

section
/-! PROOFS. PF0's requests to host memory where nothing translates them: writes in one piece, reads in one piece (R331, R336, R337,
R352). -/

namespace Sys2Proof.Machine

/-! ## What leaves for the host (R339) -/

section
variable {s t : State} (o : Out)

/-- The credits after a TLP. -/
def State.spentFc (s : State) (o : Out) : HiuState := { s.hiu with fc := fcSpend s.hiu.fc (tlpCost o) }

theorem sendHost_eq (s : State) : s.sendHost o = { s with out := o :: s.out, hiu := s.spentFc o } := rfl
theorem sendHost_get (s : State) (f : Field) : (s.sendHost o).get f = s.get f := rfl
theorem sendHost_flag (s : State) (f : Field) : (s.sendHost o).flag f = s.flag f := rfl
theorem sendHost_out (s : State) : (s.sendHost o).out = o :: s.out := rfl
theorem sendHost_canon (s : State) : (s.sendHost o).canon = s.canon := rfl
theorem sendHost_direct (s : State) : (s.sendHost o).direct = s.direct := rfl
theorem sendHost_maxPayload (s : State) : (s.sendHost o).maxPayload = s.maxPayload := rfl
theorem sendHost_qe (s : State) : (s.sendHost o).qe = s.qe := rfl
theorem sendHost_sie (s : State) : (s.sendHost o).sie = s.sie := rfl
theorem sendHost_ring (s : State) (r : Nat) : (s.sendHost o).ring r = s.ring r := rfl

theorem sendHost_within {area : Nat → Bool} (h : Within area s t) : Within area s (t.sendHost o) := within_same h rfl rfl rfl

end

/-! ## Direct requests (R344, R351) -/

/-- What `direct` says. -/
structure Direct (s : State) : Prop where
  attached : s.attached = true
  hiu : s.running .hiu = true
  ttu : s.running .ttu = true
  awake : s.asleep 0 = false
  valid : s.flag (Reg.CTX_VALID 0) = true
  bypass : s.get (Reg.CTX_MODE 0) = 2
  marks : s.ttu.marks = []

section
variable {s t : State}

theorem direct_iff : s.direct = true ↔ Direct s := by
  simp only [State.direct, Bool.and_eq_true, Bool.not_eq_true', beq_iff_eq, List.isEmpty_iff]
  constructor
  · rintro ⟨⟨⟨⟨⟨⟨h1, h2⟩, h3⟩, h4⟩, h5⟩, h6⟩, h7⟩
    exact ⟨h1, h2, h3, h4, h5, h6, h7⟩
  · rintro ⟨h1, h2, h3, h4, h5, h6, h7⟩
    exact ⟨⟨⟨⟨⟨⟨h1, h2⟩, h3⟩, h4⟩, h5⟩, h6⟩, h7⟩

/-- The words that `direct` looks at. -/
def directWord (k : Nat) : Bool := words [Reg.HIU_HOST_STATE_MODE, Reg.UNIT_STATE 10, Reg.UNIT_STATE 11, Reg.CTX_VALID 0] k

/-- PF0's requests stay direct where the words stand, no function falls asleep and no mark is made. -/
theorem Direct.of_within {area : Nat → Bool} (hd : Direct s) (h : Within area s t) (hc : s.canon = true)
    (harea : ∀ k, directWord k = true → area k = false) (hasleep : t.asleep 0 = s.asleep 0) (hmarks : t.ttu.marks = s.ttu.marks) : Direct t := by
  have hget : ∀ f : Field, directWord f.key = true → f.hi < 32 → t.get f = s.get f := fun f hf hword =>
    h.get_eq_low hc hword (harea _ hf)
  exact {
    attached := by rw [State.attached, State.flag, hget _ (by decide) (by decide)]; exact hd.attached
    hiu := by rw [State.running, hget _ (by decide) (by decide)]; exact hd.hiu
    ttu := by rw [State.running, hget _ (by decide) (by decide)]; exact hd.ttu
    awake := hasleep.trans hd.awake
    valid := by rw [State.flag, hget _ (by decide) (by decide)]; exact hd.valid
    bypass := (hget _ (by decide) (by decide)).trans hd.bypass
    marks := hmarks.trans hd.marks }

theorem Direct.dmaOpen (hd : Direct s) : s.dmaOpen 0 = (true, s) := by
  unfold State.dmaOpen
  rw [hd.attached, hd.hiu, hd.ttu, hd.awake]
  rfl

theorem Direct.mayDma (hd : Direct s) : s.mayDma 0 = true := by
  unfold State.mayDma
  rw [hd.attached, hd.hiu, hd.ttu, hd.awake]
  rfl

theorem Direct.translate (hd : Direct s) {a n : Nat} (h : a + n ≤ 2 ^ 48) (write : Bool) : s.translate 0 a n write = (some a, s) := by
  unfold State.translate
  dsimp only
  rw [hd.valid, hd.bypass, if_neg (by decide), if_neg (not_lt_of_ge h), if_pos rfl]

theorem onePage_iff {a n : Nat} : onePage a n = true ↔ a % 4096 + n ≤ 4096 ∧ a + n ≤ 2 ^ 48 := by
  simp only [onePage, Bool.and_eq_true, decide_eq_true_eq]

theorem markDirty_pf0 (s : State) (a : Nat) : s.markDirty 0 a = s := rfl

theorem spillMarks_none (h : s.ttu.marks = []) : s.spillMarks = s := by
  have hkept : ({ s with ttu := { s.ttu with marks := s.ttu.marks.take 4096 } } : State) = s := by
    have htake : s.ttu.marks.take 4096 = s.ttu.marks := by rw [h]; rfl
    rw [htake]
  unfold State.spillMarks
  rw [hkept, h]
  exact ite_self s

theorem le_maxPayload (s : State) : 128 ≤ s.maxPayload :=
  le_min (by decide) (Nat.le_mul_of_pos_right 128 (Nat.two_pow_pos _))

theorem le_maxRead (s : State) : 128 ≤ s.maxRead :=
  le_min (by decide) (Nat.le_mul_of_pos_right 128 (Nat.two_pow_pos _))

/-- Bytes in one page, at most a payload: one request. -/
theorem Direct.writePieces (hd : Direct s) (relaxed : Bool) {a : Nat} {l : Bytes} (hl : l ≠ []) (hpage : onePage a l.length = true)
    (hmax : l.length ≤ s.maxPayload) (n : Nat) : s.writePieces relaxed 0 a l (n + 2) = (l.length, s.sendHost (.dma 0 a l relaxed)) := by
  obtain ⟨hpage, hspace⟩ := onePage_iff.mp hpage
  have hlen : min (min l.length (4096 - a % 4096)) s.maxPayload = l.length := by omega
  have hempty : l.isEmpty = false := List.isEmpty_eq_false_iff.mpr hl
  have hend : ∀ u : State, u.writePieces relaxed 0 (a + l.length) [] (n + 1) = (0, u) := fun u => rfl
  rw [State.writePieces]
  simp only [hempty, Bool.false_eq_true, if_false, hlen, hd.translate hspace, markDirty_pf0, List.take_length, List.drop_length, hend,
    Nat.add_zero]

theorem Direct.dmaWriteBy (hd : Direct s) (relaxed : Bool) {a : Nat} {l : Bytes} (hl : l ≠ []) (hpage : onePage a l.length = true)
    (hmax : l.length ≤ s.maxPayload) : s.dmaWriteBy relaxed 0 a l = ((true, l.length), s.sendHost (.dma 0 a l relaxed)) := by
  have hsent : (s.sendHost (.dma 0 a l relaxed)).spillMarks = s.sendHost (.dma 0 a l relaxed) := spillMarks_none hd.marks
  unfold State.dmaWriteBy
  rw [hd.dmaOpen]
  simp only [pieceBound, hd.writePieces relaxed hl hpage hmax, beq_self_eq_true, hsent]

theorem Direct.dmaWrite (hd : Direct s) {a : Nat} {l : Bytes} (hl : l ≠ []) (hpage : onePage a l.length = true)
    (hmax : l.length ≤ s.maxPayload) : s.dmaWrite 0 a l = ((true, l.length), s.sendHost (.dma 0 a l false)) := hd.dmaWriteBy false hl hpage hmax

theorem Direct.sendHost (hd : Direct s) (o : Out) : Direct (s.sendHost o) := direct_iff.mp ((sendHost_direct o s).trans (direct_iff.mpr hd))

end

/-! ## Reads (R336, R337) -/

/-- A read takes the next tag, where none waits. -/
def State.tagTaken (s : State) (q : ReadReq) : State :=
  { s with hiu := { s.hiu with tags := s.hiu.tags ++ [(s.newTag, q)], queue := [], rr := q.func + 1 } }

section
variable {s : State}

theorem tagReady_iff : s.tagReady = true ↔ s.hiu.queue = [] ∧ s.tagFree 0 = true := by
  simp only [State.tagReady, Bool.and_eq_true, List.isEmpty_iff]

theorem pumpReads_zero (s : State) : s.pumpReads 0 = s := rfl

/-- The one read that waits goes out. -/
theorem pumpReads_one {q : ReadReq} (hqueue : s.hiu.queue = [q]) (hfree : s.tagFree q.func = true) (hawake : s.asleep q.func = false)
    (hinv : q.inv = false) : s.pumpReads 1 = ((s.tagTaken q).countTags).sendHost
      (.dmaRead q.func q.host q.len s.newTag (q.use.payload? && s.flag cfgRelaxed)) := by
  have hready : [q].filter (fun x => s.tagFree x.func && !s.asleep x.func) = [q] := by
    rw [List.filter_cons, hfree, hawake]
    rfl
  rw [State.pumpReads, hqueue]
  dsimp only
  rw [hready]
  simp only [List.map_cons, List.map_nil, List.filter_cons, List.filter_nil, List.find?_cons]
  by_cases hrr : s.hiu.rr ≤ q.func
  all_goals
    simp only [hrr, decide_true, decide_false, if_true, if_false, Bool.false_eq_true, List.min?_singleton, List.min?_nil, Option.bind_some,
      List.erase_cons_head, beq_self_eq_true, hinv, State.when, pumpReads_zero]
    rfl

theorem writes_countTags (s : State) : Writes (words [Reg.HIU_TAG_STATUS_OUTSTANDING, Reg.HIU_TAG_HWM]) s s.countTags := by
  have hput : Writes (words [Reg.HIU_TAG_STATUS_OUTSTANDING, Reg.HIU_TAG_HWM]) s (s.put Reg.HIU_TAG_STATUS_OUTSTANDING s.hiu.tags.length) :=
    writes_put (Writes.refl s) (by decide) (.inl (by decide))
  unfold State.countTags State.when
  dsimp only
  split
  · exact writes_put hput (by decide) (.inl (by decide))
  · exact hput

/-- A read of PF0, not translated. -/
def directRead (use : ReadUse) (a n : Nat) : ReadReq := ⟨0, a, a, n, use, false⟩

/-- A read of PF0 on its way. -/
def State.readSent (s : State) (use : ReadUse) (a n : Nat) : State :=
  ((s.tagTaken (directRead use a n)).countTags).sendHost (.dmaRead 0 a n s.newTag (use.payload? && s.flag cfgRelaxed))

theorem Direct.readPieces (hd : Direct s) (use : ReadUse) {a n : Nat} (hn : 0 < n) (hpage : onePage a n = true) (hmax : n ≤ s.maxRead) (m : Nat) :
    s.readPieces use 0 a n (m + 2) = (true, { s with hiu := { s.hiu with queue := s.hiu.queue ++ [directRead use a n] } }) := by
  obtain ⟨hpage, hspace⟩ := onePage_iff.mp hpage
  have hlen : min (min n (4096 - a % 4096)) s.maxRead = n := by omega
  rw [State.readPieces]
  simp only [if_neg (Nat.ne_of_gt hn), hlen, hd.translate hspace, Nat.sub_self, State.readPieces, if_true]
  rfl

/-- A read of PF0 in one page, at most a request long, goes out at once where no other waits. -/
theorem Direct.dmaRead (hd : Direct s) (hready : s.tagReady = true) (use : ReadUse) {a n : Nat} (hn : 0 < n) (hpage : onePage a n = true)
    (hmax : n ≤ s.maxRead) : s.dmaRead use 0 a n = (true, s.readSent use a n) := by
  obtain ⟨hqueue, hfree⟩ := tagReady_iff.mp hready
  have hsent := pumpReads_one (s := { s with hiu := { s.hiu with queue := [directRead use a n] } }) (q := directRead use a n) rfl hfree hd.awake rfl
  unfold State.dmaRead
  rw [hd.dmaOpen]
  simp only [pieceBound, hd.readPieces use hn hpage hmax, hqueue, List.nil_append, List.length_singleton, hsent]
  rfl

section
variable (use : ReadUse) (a n : Nat)

theorem readSent_rest (s : State) : s.readSent use a n = { s with
    regs := (s.readSent use a n).regs, out := .dmaRead 0 a n s.newTag (use.payload? && s.flag cfgRelaxed) :: s.out
    hiu := (s.readSent use a n).hiu } := by
  unfold State.readSent
  rw [sendHost_eq, (writes_countTags _).rest]
  rfl

theorem readSent_out (s : State) : (s.readSent use a n).out = .dmaRead 0 a n s.newTag (use.payload? && s.flag cfgRelaxed) :: s.out := by
  rw [readSent_rest]

theorem readSent_tags (s : State) : (s.readSent use a n).hiu.tags = s.hiu.tags ++ [(s.newTag, directRead use a n)] := by
  unfold State.readSent
  rw [sendHost_eq, (writes_countTags _).rest]
  rfl

theorem readSent_qe (s : State) : (s.readSent use a n).qe = s.qe := by rw [readSent_rest]
theorem readSent_pcu (s : State) : (s.readSent use a n).pcu = s.pcu := by rw [readSent_rest]
theorem readSent_ring (s : State) (r : Nat) : (s.readSent use a n).ring r = s.ring r := by rw [State.ring, readSent_qe]; rfl

theorem readSent_within (s : State) : Within (words [Reg.HIU_TAG_STATUS_OUTSTANDING, Reg.HIU_TAG_HWM]) s (s.readSent use a n) := by
  have htaken : Within (words [Reg.HIU_TAG_STATUS_OUTSTANDING, Reg.HIU_TAG_HWM]) s (s.tagTaken (directRead use a n)) :=
    within_same (Within.refl s) rfl rfl rfl
  exact sendHost_within _ (htaken.trans (writes_countTags _).within)

end

end

/-! ## Writes in any number of pieces (R353, R376) -/

/-- The words that PF0's writes may change: TTU's counts and its last fault, and the event store's counter. -/
def dmaWord (k : Nat) : Bool := inRange k 0x0B001000 0x1000 || words [Reg.QE_ARB_LOST] k

/-- What a direct write may do. -/
structure DmaSent (s t : State) : Prop where
  within : Within dmaWord s t
  qe : t.qe = s.qe
  asleep : t.asleep 0 = s.asleep 0
  marks : t.ttu.marks = s.ttu.marks

section
variable {s t u : State}

theorem DmaSent.refl (s : State) : DmaSent s s := ⟨Within.refl s, rfl, rfl, rfl⟩

theorem DmaSent.trans (h : DmaSent s t) (g : DmaSent t u) : DmaSent s u :=
  ⟨h.within.trans g.within, g.qe.trans h.qe, g.asleep.trans h.asleep, g.marks.trans h.marks⟩

theorem DmaSent.direct (h : DmaSent s t) (hc : s.canon = true) (hd : Direct s) : Direct t :=
  hd.of_within h.within hc (fun k hk => by
    rw [Bool.eq_false_iff]
    simp only [directWord, dmaWord, words, inRange, List.any_cons, List.any_nil, Bool.or_false, Bool.or_eq_true, Bool.and_eq_true, beq_iff_eq,
      decide_eq_true_eq, ne_eq] at hk ⊢
    omega) h.asleep h.marks

theorem dmaSent_sendHost (s : State) (o : Out) : DmaSent s (s.sendHost o) := ⟨sendHost_within o (Within.refl s), rfl, rfl, rfl⟩

theorem dmaSent_of_bare (h : Within dmaWord s t) (hbare : t.bare = s.bare) : DmaSent s t := by
  have hqe := congrArg State.qe hbare
  have httu := congrArg State.ttu hbare
  have hhiu := congrArg State.hiu hbare
  exact ⟨h, hqe, by rw [State.asleep, show t.hiu = s.hiu from hhiu, show t.ttu = s.ttu from httu]; rfl,
    congrArg TtuState.marks (show t.ttu = s.ttu from httu)⟩

/-- A fault of PF0 (R353). -/
theorem dmaSent_transFault (s : State) (a k : Nat) : DmaSent s (s.transFault 0 a k) := by
  have hcounted : Writes dmaWord s ((((s.bump Reg.TTU_FAULTS).put Reg.TTU_FAULT_LAST_KIND k).put Reg.TTU_FAULT_LAST_FUNC 0).put
      Reg.TTU_FAULT_LAST_ADDR a) :=
    writes_put (writes_put (writes_put (writes_put (Writes.refl s) (by decide) (.inr (by decide))) (by decide) (.inr (by decide))) (by decide)
      (.inr (by decide))) (by decide) (.inr (by decide))
  unfold State.transFault
  simp only [bne_self_eq_false, State.when, Bool.false_eq_true, if_false]
  generalize (((s.bump Reg.TTU_FAULTS).put Reg.TTU_FAULT_LAST_KIND k).put Reg.TTU_FAULT_LAST_FUNC 0).put Reg.TTU_FAULT_LAST_ADDR a = u at hcounted
  unfold State.oncePerTick
  split
  · exact dmaSent_of_bare hcounted.within hcounted.bare
  · have hnoted : Within dmaWord s (u.noteOnce (0xB1000 + 0)) := within_same hcounted.within rfl rfl rfl
    exact dmaSent_of_bare (within_raiseEvent hnoted (by decide) (by decide)) (by rw [bare_raiseFor]; exact hcounted.bare)

theorem dmaSent_writePieces (hc : s.canon = true) (hd : Direct s) (relaxed : Bool) (a : Nat) (l : Bytes) (n : Nat) :
    DmaSent s (s.writePieces relaxed 0 a l n).2 := by
  induction n generalizing s a l with
  | zero => exact DmaSent.refl s
  | succ n ih =>
    rw [State.writePieces]
    split
    · exact DmaSent.refl s
    · by_cases hspace : a + min (min l.length (4096 - a % 4096)) s.maxPayload ≤ 2 ^ 48
      · simp only [hd.translate hspace, markDirty_pf0]
        exact (dmaSent_sendHost s _).trans (ih (s := s.sendHost _) hc (hd.sendHost _) _ _)
      · have hfault : s.translate 0 a (min (min l.length (4096 - a % 4096)) s.maxPayload) true = (none, s.transFault 0 a 2) := by
          unfold State.translate
          dsimp only
          rw [hd.valid, hd.bypass, if_neg (by decide), if_pos (not_le.mp hspace)]
        simp only [hfault]
        exact dmaSent_transFault s a 2

theorem dmaSent_dmaWrite (hc : s.canon = true) (hd : Direct s) (a : Nat) (l : Bytes) : DmaSent s (s.dmaWrite 0 a l).2 := by
  have hsent := dmaSent_writePieces hc hd false a l (pieceBound l.length)
  unfold State.dmaWrite State.dmaWriteBy
  rw [hd.dmaOpen]
  simp only
  rw [spillMarks_none (hsent.marks.trans hd.marks)]
  exact hsent

end

end Sys2Proof.Machine
end

section
/-! PROOFS. What a ring's configuration gives (R373 to R375), records (R376, R383), and the event arbiter (R392 to R397). -/

namespace Sys2Proof.Machine

/-! ## Walks at hand (R354) -/

/-- The walks of a command at hand. -/
def State.walking (s : State) (w : List Walk8) : State := { s with ttu := { s.ttu with walks := w } }

section
variable {s t : State} (w : List Walk8)

theorem withWalks_eq (s : State) (run : State → State) : s.withWalks w run = (run (s.walking w)).walking [] := rfl
theorem walking_get (s : State) (f : Field) : (s.walking w).get f = s.get f := rfl
theorem walking_flag (s : State) (f : Field) : (s.walking w).flag f = s.flag f := rfl
theorem walking_canon (s : State) : (s.walking w).canon = s.canon := rfl
theorem walking_out (s : State) : (s.walking w).out = s.out := rfl
theorem walking_events (s : State) : (s.walking w).events = s.events := rfl
theorem walking_rd (s : State) (k : Nat) : (s.walking w).rd k = s.rd k := rfl
theorem walking_ring (s : State) (r : Nat) : (s.walking w).ring r = s.ring r := rfl
theorem walking_direct (s : State) : (s.walking w).direct = s.direct := rfl

theorem walking_slotAddr (s : State) (r q : Nat) : (s.walking w).slotAddr r q = s.slotAddr r q := rfl
theorem walking_phaseOf (s : State) (r q : Nat) : (s.walking w).phaseOf r q = s.phaseOf r q := rfl
theorem walking_ringFunc (s : State) (r : Nat) : (s.walking w).ringFunc r = s.ringFunc r := rfl
theorem walking_queueReady (s : State) (q : Nat) : (s.walking w).queueReady q = s.queueReady q := rfl

theorem walking_within {area : Nat → Bool} (h : Within area s t) : Within area s (t.walking w) := within_same h rfl rfl rfl

theorem Direct.walking (hd : Direct s) : Direct (s.walking w) := direct_iff.mp ((walking_direct w s).trans (direct_iff.mpr hd))

end

/-! ## A ring's configuration (R373, R374) -/

/-- The words of a ring's configuration, and of its owner. -/
def ringWord (r k : Nat) : Bool := inRange k (0x0C400000 + 64 * r) 0x20 || k == (ringOwnerField r).key

theorem ringWord_at {r : Nat} (i : Nat) (h : i < 0x20) : ringWord r (0x0C400000 + i + 64 * r) = true := by
  rw [ringWord, inRange_iff.mpr ⟨by omega, by omega⟩]
  rfl

/-- The words of a ring's configuration read the same. -/
structure SameRing (r : Nat) (s t : State) : Prop where
  rd : ∀ k, ringWord r k = true → t.rd k = s.rd k

section
variable {r : Nat} {s t u : State}

theorem SameRing.refl (r : Nat) (s : State) : SameRing r s s := ⟨fun _ _ => rfl⟩

theorem SameRing.trans (h : SameRing r s t) (g : SameRing r t u) : SameRing r s u := ⟨fun k hk => (g.rd k hk).trans (h.rd k hk)⟩

theorem sameRing_of_regs (h : t.regs = s.regs) : SameRing r s t := ⟨fun k _ => rd_congr h k⟩

theorem Within.sameRing {area : Nat → Bool} (h : Within area s t) (hc : s.canon = true) (harea : ∀ k, ringWord r k = true → area k = false) :
    SameRing r s t := ⟨fun k hk => h.words hc k (harea k hk)⟩

theorem SameRing.get (h : SameRing r s t) {f : Field} (hlo : ringWord r f.key = true) (hhi : f.hi < 32 ∨ ringWord r (f.key + 4) = true) :
    t.get f = s.get f := by
  unfold State.get
  rw [h.rd _ hlo]
  split
  · rfl
  · rw [h.rd _ (hhi.resolve_left ‹_›)]

theorem SameRing.owner (h : SameRing r s t) : t.ringOwner r = s.ringOwner r := by
  unfold State.ringOwner
  rw [h.get (by rw [ringWord, beq_self_eq_true, Bool.or_true]) (.inl (show 16 * (r % 2) + 15 < 32 by omega))]

theorem SameRing.func (h : SameRing r s t) : t.ringFunc r = s.ringFunc r := by rw [State.ringFunc, h.owner, State.ringFunc]

theorem SameRing.on (h : SameRing r s t) : t.ringOn r = s.ringOn r := by
  rw [State.ringOn, State.flag, h.get (ringWord_at 0 (by decide)) (.inl (show 31 < 32 by decide))]
  rfl

theorem SameRing.type (h : SameRing r s t) : t.ringType r = s.ringType r :=
  h.get (ringWord_at 0 (by decide)) (.inl (show 29 < 32 by decide))

theorem SameRing.media (h : SameRing r s t) : t.ringMedia r = s.ringMedia r := by
  rw [State.ringMedia, State.flag, h.get (ringWord_at 0 (by decide)) (.inl (show 26 < 32 by decide))]
  rfl

theorem SameRing.size (h : SameRing r s t) : t.ringSize r = s.ringSize r :=
  congrArg (2 ^ ·) (h.get (f := Reg.RING_LOG2_SIZE r) (ringWord_at 0 (by decide)) (.inl (show 24 < 32 by decide)))

theorem SameRing.link (h : SameRing r s t) : t.get (Reg.RING_LINK r) = s.get (Reg.RING_LINK r) :=
  h.get (ringWord_at 0x18 (by decide)) (.inl (show 16 < 32 by decide))

theorem SameRing.vector (h : SameRing r s t) : t.get (Reg.RING_VECTOR r) = s.get (Reg.RING_VECTOR r) :=
  h.get (ringWord_at 4 (by decide)) (.inl (show 10 < 32 by decide))

theorem ringWord_high {i : Nat} (h : i + 4 < 0x20) : ringWord r (0x0C400000 + i + 64 * r + 4) = true := by
  rw [show 0x0C400000 + i + 64 * r + 4 = 0x0C400000 + (i + 4) + 64 * r by omega]
  exact ringWord_at _ h

theorem SameRing.base (h : SameRing r s t) : t.get (Reg.RING_BASE r) = s.get (Reg.RING_BASE r) :=
  h.get (ringWord_at 8 (by decide)) (.inr (ringWord_high (i := 8) (by decide)))

theorem SameRing.slotAddr (h : SameRing r s t) (q : Nat) : t.slotAddr r q = s.slotAddr r q := by
  rw [State.slotAddr, h.base, h.size, h.type, State.slotAddr]

theorem SameRing.phaseOf (h : SameRing r s t) (q : Nat) : t.phaseOf r q = s.phaseOf r q := by
  rw [State.phaseOf, h.type, h.size, State.phaseOf]

theorem SameRing.arbitrated (h : SameRing r s t) : t.arbitrated r = s.arbitrated r := by
  rw [State.arbitrated, h.type, h.media, State.arbitrated]

theorem SameRing.full (h : SameRing r s t) (hnext : t.get (Reg.RING_NEXT r) = s.get (Reg.RING_NEXT r))
    (hdone : t.get (Reg.RING_DONE r) = s.get (Reg.RING_DONE r)) : t.ringFull r = s.ringFull r := by
  rw [State.ringFull, h.size, hnext, hdone, State.ringFull]

theorem ringFunc_pf0 (h : s.ringOwner r = some 0) : s.ringFunc r = 0 := by rw [State.ringFunc, h]; rfl

/-- The words that PF0's writes may change are of no ring. -/
theorem ringWord_dma (hr : r < 131072) : ∀ k, ringWord r k = true → dmaWord k = false := by
  intro k hk
  rw [Bool.eq_false_iff]
  simp only [ringWord, ringOwnerField, dmaWord, words, inRange, List.any_cons, List.any_nil, Bool.or_false, Bool.or_eq_true, Bool.and_eq_true,
    beq_iff_eq, decide_eq_true_eq, ne_eq] at hk ⊢
  omega

theorem DmaSent.sameRing (h : DmaSent s t) (hc : s.canon = true) (hr : r < 131072) : SameRing r s t :=
  h.within.sameRing hc (ringWord_dma hr)

end

/-! ## Entries and records (R376, R383) -/

section
variable {s t : State} {r : Nat}

/-- An entry leaves, its last word after the rest. -/
def State.entrySent (s : State) (r q : Nat) (l : Bytes) : State :=
  (s.sendHost (.dma 0 (s.slotAddr r q) (l.take (l.length - 8)) false)).sendHost
    (.dma 0 (s.slotAddr r q + (l.length - 8)) (l.drop (l.length - 8)) false)

theorem onePage_take {a m n : Nat} (h : onePage a (m + n) = true) : onePage a m = true := by
  rw [onePage_iff] at h ⊢
  omega

theorem onePage_drop {a m n : Nat} (h : onePage a (m + n) = true) : onePage (a + m) n = true := by
  rw [onePage_iff] at h ⊢
  omega

theorem Direct.writeEntry (hd : Direct s) (hpf : s.ringFunc r = 0) (q : Nat) {l : Bytes} (hpage : onePage (s.slotAddr r q) l.length = true)
    (hlo : 8 < l.length) (hhi : l.length ≤ 128) : s.writeEntry r q l = s.entrySent r q l := by
  have hmax := le_maxPayload s
  have htake : (l.take (l.length - 8)).length = l.length - 8 := List.length_take_of_le (by omega)
  have hdrop : (l.drop (l.length - 8)).length = 8 := by rw [List.length_drop]; omega
  rw [show l.length = (l.length - 8) + 8 by omega] at hpage
  have hfirst := hd.dmaWrite (a := s.slotAddr r q) (l := l.take (l.length - 8)) (List.ne_nil_of_length_pos (by omega))
    (by rw [htake]; exact onePage_take hpage) (by omega)
  have hlast := (hd.sendHost (.dma 0 (s.slotAddr r q) (l.take (l.length - 8)) false)).dmaWrite (a := s.slotAddr r q + (l.length - 8))
    (l := l.drop (l.length - 8)) (List.ne_nil_of_length_pos (by omega)) (by rw [hdrop]; exact onePage_drop hpage)
    (by rw [hdrop, sendHost_maxPayload]; omega)
  unfold State.writeEntry
  dsimp only
  rw [hpf, hfirst]
  have hfunc : (s.sendHost (.dma 0 (s.slotAddr r q) (l.take (l.length - 8)) false)).ringFunc r = 0 := hpf
  have hslot : (s.sendHost (.dma 0 (s.slotAddr r q) (l.take (l.length - 8)) false)).slotAddr r q = s.slotAddr r q := rfl
  dsimp only
  rw [hfunc, hslot, hlast]
  rfl

theorem dmaSent_writeEntry (hc : s.canon = true) (hd : Direct s) (hr : r < 131072) (hpf : s.ringFunc r = 0) (q : Nat) (l : Bytes) :
    DmaSent s (s.writeEntry r q l) := by
  unfold State.writeEntry
  dsimp only
  rw [hpf]
  have hfirst := dmaSent_dmaWrite hc hd (s.slotAddr r q) (l.take (l.length - 8))
  generalize s.dmaWrite 0 (s.slotAddr r q) (l.take (l.length - 8)) = x at hfirst ⊢
  rw [(hfirst.sameRing hc hr).func, hpf]
  exact hfirst.trans (dmaSent_dmaWrite (hfirst.within.canon hc) (hfirst.direct hc hd) _ _)

theorem writes_setNext (s : State) (r q : Nat) : Writes (words [Reg.RING_NEXT r, Reg.RING_PHASE r]) s (s.setNext r q) :=
  writes_put (writes_put (Writes.refl s) (words_key (f := Reg.RING_NEXT r) (by simp)) (.inl (show 31 < 32 by decide)))
    (words_key (f := Reg.RING_PHASE r) (by simp)) (.inl (show 31 < 32 by decide))

theorem nextPhase_of_lt {k : Nat} (h : k < 0x0C400000) : words [Reg.RING_NEXT r, Reg.RING_PHASE r] k = false := by
  rw [Bool.eq_false_iff]
  simp only [words, List.any_cons, List.any_nil, Bool.or_false, Bool.or_eq_true, Bool.and_eq_true, beq_iff_eq, decide_eq_true_eq, ne_eq]
  omega

theorem next_setNext (hc : s.canon = true) (r q : Nat) : (s.setNext r q).get (Reg.RING_NEXT r) = q % 2 ^ 32 := by
  unfold State.setNext
  rw [get_put_ne (canon_put hc) (show 31 < 32 by decide) (by show 0x0C400024 + 64 * r ≠ 0x0C400020 + 64 * r; omega) (.inl (show 31 < 32 by decide)),
    get_put_same hc (by simp [Field.ok]; omega)]
  rfl

/-- A record leaves, and PROD moves. -/
def State.recordSent (s : State) (r : Nat) (l : List Nat) (last : Nat) : State :=
  (s.entrySent r (s.get (Reg.RING_NEXT r)) (l.flatMap (toLE 8) ++ toLE 8 (setBits last 63 1 (s.phaseOf r (s.get (Reg.RING_NEXT r)))))).setNext r
    (s.get (Reg.RING_NEXT r) + 1)

theorem length_flatMap_toLE8 (l : List Nat) : (l.flatMap (toLE 8)).length = 8 * l.length := by
  rw [List.length_flatMap, List.map_congr_left (fun v _ => length_toLE 8 v), List.map_const', List.sum_replicate_nat, Nat.mul_comm]

theorem Direct.writeRecord (hd : Direct s) (hpf : s.ringFunc r = 0) {l : List Nat} (last : Nat) (hlo : 0 < l.length) (hhi : l.length ≤ 15)
    (hpage : onePage (s.slotAddr r (s.get (Reg.RING_NEXT r))) (8 * l.length + 8) = true) : s.writeRecord r l last = s.recordSent r l last := by
  have hlen : (l.flatMap (toLE 8) ++ toLE 8 (setBits last 63 1 (s.phaseOf r (s.get (Reg.RING_NEXT r))))).length = 8 * l.length + 8 := by
    rw [List.length_append, length_flatMap_toLE8, length_toLE]
  unfold State.writeRecord State.recordSent
  dsimp only
  rw [hd.writeEntry hpf _ (by rw [hlen]; exact hpage) (by omega) (by omega)]

theorem flatMap_toLE8_three (x y z : Nat) : [x, y, z].flatMap (toLE 8) = toLE 8 x ++ toLE 8 y ++ toLE 8 z := by
  rw [List.flatMap_cons, List.flatMap_cons, List.flatMap_singleton, List.append_assoc]

theorem entrySent_record (s : State) (r q : Nat) (l : List Nat) (last : Nat) :
    s.entrySent r q (l.flatMap (toLE 8) ++ toLE 8 last) = (s.sendHost (.dma 0 (s.slotAddr r q) (l.flatMap (toLE 8)) false)).sendHost
      (.dma 0 (s.slotAddr r q + 8 * l.length) (toLE 8 last) false) := by
  have hlen : (l.flatMap (toLE 8) ++ toLE 8 last).length - 8 = (l.flatMap (toLE 8)).length := by
    rw [List.length_append, length_toLE, Nat.add_sub_cancel]
  unfold State.entrySent
  rw [hlen, List.take_left' rfl, List.drop_left' rfl, length_flatMap_toLE8]

/-- A record of PF0 has left, and PROD has moved. -/
structure RecordGone (r : Nat) (l : List Nat) (last : Nat) (s t : State) : Prop where
  within : Within (words [Reg.RING_NEXT r, Reg.RING_PHASE r]) s t
  rest : t = { s with regs := t.regs, out := t.out, hiu := { s.hiu with fc := t.hiu.fc } }
  out : t.out = .dma 0 (s.slotAddr r (s.get (Reg.RING_NEXT r)) + 8 * l.length)
      (toLE 8 (setBits last 63 1 (s.phaseOf r (s.get (Reg.RING_NEXT r))))) false ::
    .dma 0 (s.slotAddr r (s.get (Reg.RING_NEXT r))) (l.flatMap (toLE 8)) false :: s.out
  next : t.get (Reg.RING_NEXT r) = (s.get (Reg.RING_NEXT r) + 1) % 2 ^ 32

/-- All that a record takes with it, the walks at hand among it. -/
theorem RecordGone.walking_rest {l : List Nat} {last : Nat} {u v : State} {w : List Walk8} (h : RecordGone r l last u t)
    (hu : u = { v.walking w with regs := u.regs }) : t.walking [] = { v with
      regs := (t.walking []).regs, out := (t.walking []).out, ttu := { v.ttu with walks := [] }
      hiu := { v.hiu with fc := (t.walking []).hiu.fc } } := by
  obtain ⟨-, hrest, -, -⟩ := h
  rw [hu] at hrest
  rw [hrest]
  rfl

theorem recordGone_recordSent (hc : s.canon = true) (r : Nat) (l : List Nat) (last : Nat) :
    RecordGone r l last s (s.recordSent r l last) where
  within := (sendHost_within _ (sendHost_within _ (Within.refl s))).trans (writes_setNext _ _ _).within
  rest := by
    unfold State.recordSent
    generalize s.get (Reg.RING_NEXT r) + 1 = n
    rw [(writes_setNext _ r n).rest]
    rfl
  out := by
    unfold State.recordSent
    rw [entrySent_record, (writes_setNext _ _ _).rest]
    rfl
  next := next_setNext (by exact hc) _ _

theorem Direct.recordGone (hd : Direct s) (hc : s.canon = true) (hpf : s.ringFunc r = 0) {l : List Nat} (last : Nat) (hlo : 0 < l.length)
    (hhi : l.length ≤ 15) (hpage : onePage (s.slotAddr r (s.get (Reg.RING_NEXT r))) (8 * l.length + 8) = true) :
    RecordGone r l last s (s.writeRecord r l last) := by
  rw [hd.writeRecord hpf last hlo hhi hpage]
  exact recordGone_recordSent hc r l last

theorem entrySent_get (s : State) (r q : Nat) (l : Bytes) (f : Field) : (s.entrySent r q l).get f = s.get f := rfl
theorem entrySent_canon (s : State) (r q : Nat) (l : Bytes) : (s.entrySent r q l).canon = s.canon := rfl

end

/-! ## Grants of the event arbiter (R394, R395) -/

/-- An event is taken from its unit's store. -/
def State.eventTaken (s : State) (e : Event) : State :=
  { s with events := s.events.erase e, qe := { s.qe with evPtr := (e.unit + 1) % 14 } }

/-- An event is taken and numbered. -/
def State.eventNumbered (s : State) (e : Event) : State :=
  (s.eventTaken e).put Reg.QE_ARB_ASEQ (s.get Reg.QE_ARB_ASEQ + 1)

section
variable {s : State} {e : Event} {q : Nat} (w : List Walk8)

theorem nextEvent_unit (h : s.nextEvent = some e) : e.unit < 14 := by
  unfold State.nextEvent at h
  obtain ⟨u, hpick, hevent⟩ := Option.bind_eq_some_iff.mp h
  obtain ⟨i, -, rfl⟩ := List.mem_map.mp (List.mem_of_find?_eq_some hpick)
  have hunit := List.find?_some hevent
  rw [beq_iff_eq] at hunit
  omega

theorem eventTaken_direct (s : State) (e : Event) : (s.eventTaken e).direct = s.direct := rfl
theorem eventTaken_events (s : State) (e : Event) : (s.eventTaken e).events = s.events.erase e := rfl
theorem eventTaken_out (s : State) (e : Event) : (s.eventTaken e).out = s.out := rfl
theorem eventTaken_rd (s : State) (e : Event) (k : Nat) : (s.eventTaken e).rd k = s.rd k := rfl

theorem writes_eventNumbered (s : State) (e : Event) : Writes (words [Reg.QE_ARB_ASEQ]) (s.eventTaken e) (s.eventNumbered e) :=
  writes_put (Writes.refl _) (by decide) (.inl (by decide))

theorem sameRing_eventNumbered (hc : s.canon = true) (e : Event) (hq : q < 131072) : SameRing q s (s.eventNumbered e) :=
  ⟨fun k hk => (writes_eventNumbered s e).within.words hc k <| by
    rw [Bool.eq_false_iff]
    simp only [ringWord, ringOwnerField, words, inRange, List.any_cons, List.any_nil, Bool.or_false, Bool.or_eq_true, Bool.and_eq_true,
      beq_iff_eq, decide_eq_true_eq, ne_eq] at hk ⊢
    omega⟩

/-- Another field than the numbers' reads as before. -/
theorem eventNumbered_get (hc : s.canon = true) (e : Event) {f : Field} (hlo : f.key ≠ 0x0C001040) (hhi : f.hi < 32 ∨ f.key + 4 ≠ 0x0C001040) :
    (s.eventNumbered e).get f = s.get f := get_put_ne (s := s.eventTaken e) hc (f := Reg.QE_ARB_ASEQ) (by decide) hlo hhi

theorem queueFor_pf (s : State) (hpf : e.dest = .pf) : s.queueFor e =
    if s.flag (Reg.QE_PF_EVQ_EN e.unit) && decide (s.get (Reg.QE_PF_EVQ_RING e.unit) < 131072) &&
        s.ringType (s.get (Reg.QE_PF_EVQ_RING e.unit)) == 4 && s.ringOwner (s.get (Reg.QE_PF_EVQ_RING e.unit)) == some 0
    then some (s.get (Reg.QE_PF_EVQ_RING e.unit)) else none := by
  unfold State.queueFor
  rw [hpf]

theorem queueFor_eventNumbered (hc : s.canon = true) (hnext : s.nextEvent = some e) (hpf : e.dest = .pf) :
    (s.eventNumbered e).queueFor e = s.queueFor e := by
  have hunit := nextEvent_unit hnext
  have hen : (s.eventNumbered e).flag (Reg.QE_PF_EVQ_EN e.unit) = s.flag (Reg.QE_PF_EVQ_EN e.unit) := by
    rw [State.flag, eventNumbered_get hc e (by show 0x0C001000 + 4 * e.unit ≠ 0x0C001040; omega) (.inl (show 31 < 32 by decide)), State.flag]
  have hring : (s.eventNumbered e).get (Reg.QE_PF_EVQ_RING e.unit) = s.get (Reg.QE_PF_EVQ_RING e.unit) :=
    eventNumbered_get hc e (by show 0x0C001000 + 4 * e.unit ≠ 0x0C001040; omega) (.inl (show 16 < 32 by decide))
  have hsame := sameRing_eventNumbered hc e (get_lt s (Reg.QE_PF_EVQ_RING e.unit))
  rw [queueFor_pf _ hpf, queueFor_pf _ hpf, hen, hring, hsame.type, hsame.owner]

theorem queueFor_some (hpf : e.dest = .pf) (h : s.queueFor e = some q) : q < 131072 ∧ s.ringType q = 4 ∧ s.ringOwner q = some 0 := by
  rw [queueFor_pf _ hpf] at h
  split at h
  · obtain rfl := Option.some_inj.mp h
    simp only [Bool.and_eq_true, beq_iff_eq, decide_eq_true_eq] at *
    tauto
  · nomatch h

theorem exec_eventGrant_none (hrun : s.running .qe = true) (hnext : s.nextEvent = some e)
    (hnone : (s.eventNumbered e).queueFor e = none) : exec (.eventGrant w) s = .next ((s.eventNumbered e).bump Reg.QE_EVT_NOQUEUE) := by
  have he : exec (.eventGrant w) s = execEventGrant w s := rfl
  unfold State.eventNumbered State.eventTaken at *
  rw [he]
  unfold execEventGrant
  simp only [hrun, hnext, hnone, Bool.not_true, Bool.false_eq_true, if_false]

theorem exec_eventGrant_queue (hrun : s.running .qe = true) (hnext : s.nextEvent = some e)
    (hqueue : (s.eventNumbered e).queueFor e = some q) (hlost : ((s.eventNumbered e).walking w).get (Reg.RING_LOST q) = 0)
    (hready : ((s.eventNumbered e).walking w).queueReady q = true) : exec (.eventGrant w) s =
      .next ((((s.eventNumbered e).walking w).writeEvent q (s.get Reg.QE_ARB_ASEQ) e.func e.unit e.type e.payload).walking []) := by
  have he : exec (.eventGrant w) s = execEventGrant w s := rfl
  have hover : ((s.eventNumbered e).walking w).overflow q = (s.eventNumbered e).walking w := by
    unfold State.overflow
    rw [hlost, hready]
    rfl
  unfold State.eventNumbered State.eventTaken at *
  rw [he]
  unfold execEventGrant
  simp only [hrun, hnext, hqueue, withWalks_eq, hover, hready, Bool.not_true, Bool.false_eq_true, if_false, if_true]

theorem quietFrame_congr {area : Nat → Bool} {s u t : State} (h : QuietFrame area u u t) (hregs : u.regs = s.regs) : QuietFrame area s u t :=
  ⟨fun k hk => (h.words k hk).trans (rd_congr hregs k), h.rest⟩

theorem eventGrant_none (hc : s.canon = true) (hrun : s.running .qe = true) (hnext : s.nextEvent = some e) (hpf : e.dest = .pf)
    (hnone : s.queueFor e = none) : completes (.eventGrant w) s fun t => t.events = s.events.erase e ∧
      t.get Reg.QE_ARB_ASEQ = (s.get Reg.QE_ARB_ASEQ + 1) % 2 ^ 32 ∧
      t.get Reg.QE_EVT_NOQUEUE = (s.get Reg.QE_EVT_NOQUEUE + 1) % 2 ^ 64 ∧
      QuietFrame (words [Reg.QE_ARB_ASEQ, Reg.QE_EVT_NOQUEUE]) s (s.eventTaken e) t := by
  have hnumbered : (s.eventNumbered e).canon = true := (writes_eventNumbered s e).canon hc
  have hwrites : Writes (words [Reg.QE_ARB_ASEQ, Reg.QE_EVT_NOQUEUE]) (s.eventTaken e) ((s.eventNumbered e).bump Reg.QE_EVT_NOQUEUE) :=
    writes_bump ((writes_eventNumbered s e).mono fun _ hk => words_mono (by simp) hk) (by decide) (.inr (by decide))
  refine ⟨_, exec_eventGrant_none w hrun hnext ((queueFor_eventNumbered hc hnext hpf).trans hnone), ?_, ?_, ?_,
    quietFrame_congr (hwrites.quietFrame hc) rfl⟩
  · rw [hwrites.rest]
    rfl
  · rw [State.bump, get_put_off hnumbered (by decide), State.eventNumbered, get_put_same (s := s.eventTaken e) hc (by decide)]
    rfl
  · rw [State.bump, get_put_same hnumbered (by decide), eventNumbered_get hc e (by decide) (.inr (by decide))]
    rfl

theorem direct_eventNumbered (hc : s.canon = true) (hd : Direct s) (e : Event) : Direct (s.eventNumbered e) :=
  Direct.of_within (s := s.eventTaken e) (direct_iff.mp ((eventTaken_direct s e).trans (direct_iff.mpr hd))) (writes_eventNumbered s e).within hc
    (fun k hk => by
      simp only [directWord, words, List.any_cons, List.any_nil, Bool.or_false, Bool.or_eq_true, Bool.and_eq_true, beq_iff_eq,
        decide_eq_true_eq] at hk
      rw [Bool.eq_false_iff]
      simp only [words, List.any_cons, List.any_nil, Bool.or_false, Bool.or_eq_true, Bool.and_eq_true, beq_iff_eq, decide_eq_true_eq, ne_eq]
      omega)
    (by rw [(writes_eventNumbered s e).rest]; rfl) (by rw [(writes_eventNumbered s e).rest])

theorem eventNumbered_ring (hc : s.canon = true) (e : Event) {f : Field} (hf : 0x0C400000 ≤ f.key) :
    (s.eventNumbered e).get f = s.get f := eventNumbered_get hc e (by omega) (.inr (by omega))

theorem queueReady_eventNumbered (hc : s.canon = true) (hd : Direct s) (hq : q < 131072) (hpf : s.ringOwner q = some 0) :
    (s.eventNumbered e).queueReady q = s.queueReady q := by
  have hsame : SameRing q s (s.eventNumbered e) := sameRing_eventNumbered hc e hq
  have hdirect := direct_eventNumbered hc hd e
  have hfull := hsame.full (eventNumbered_ring hc e (show 0x0C400000 ≤ 0x0C400024 + 64 * q by omega))
    (eventNumbered_ring hc e (show 0x0C400000 ≤ 0x0C400028 + 64 * q by omega))
  rw [State.queueReady, State.queueReady, hsame.on, hfull, hsame.func, ringFunc_pf0 hpf, hdirect.attached, hdirect.mayDma, hd.attached,
    hd.mayDma]

theorem eventGrant_queue (hc : s.canon = true) (hrun : s.running .qe = true) (hnext : s.nextEvent = some e) (hpf : e.dest = .pf) {a p : Nat}
    (hqueue : s.queueFor e = some q) (hready : s.queueReady q = true) (hlost : s.get (Reg.RING_LOST q) = 0) (hd : Direct s)
    (ha : a = s.slotAddr q (s.get (Reg.RING_NEXT q))) (hp : p = s.phaseOf q (s.get (Reg.RING_NEXT q))) (hpage : onePage a 32 = true) :
    completes (.eventGrant w) s fun t => t.events = s.events.erase e ∧
      t.get Reg.QE_ARB_ASEQ = (s.get Reg.QE_ARB_ASEQ + 1) % 2 ^ 32 ∧
      t.get (Reg.RING_NEXT q) = (s.get (Reg.RING_NEXT q) + 1) % 2 ^ 32 ∧
      t.out = .dma 0 (a + 24) (toLE 8 (setBits (e.payload / 2 ^ 64 % 2 ^ 56) 63 1 p)) false ::
        .dma 0 a (toLE 8 (s.get Reg.QE_ARB_ASEQ * 2 ^ 32 + e.func % 4096 * 2 ^ 16 + e.unit * 2 ^ 8 + e.type) ++ toLE 8 s.tick ++
          toLE 8 (e.payload % 2 ^ 64)) false :: s.out ∧
      QuietFrame (words [Reg.QE_ARB_ASEQ, Reg.RING_NEXT q, Reg.RING_PHASE q]) s
        { s.eventTaken e with out := t.out, ttu := { s.ttu with walks := [] }, hiu := { s.hiu with fc := t.hiu.fc } } t := by
  obtain ⟨hq, -, howner⟩ := queueFor_some hpf hqueue
  have hsame : SameRing q s (s.eventNumbered e) := sameRing_eventNumbered hc e hq
  have hdirect := (direct_eventNumbered hc hd e).walking w
  have hcanon : ((s.eventNumbered e).walking w).canon = true := (writes_eventNumbered s e).canon hc
  have hget : ∀ f : Field, 0x0C400000 ≤ f.key → ((s.eventNumbered e).walking w).get f = s.get f :=
    fun f hf => (walking_get w _ f).trans (eventNumbered_ring hc e hf)
  have hnextq := hget (Reg.RING_NEXT q) (show 0x0C400000 ≤ 0x0C400024 + 64 * q by omega)
  have hslot : ∀ n, ((s.eventNumbered e).walking w).slotAddr q n = s.slotAddr q n :=
    fun n => (walking_slotAddr w _ q n).trans (hsame.slotAddr n)
  have hphase : ∀ n, ((s.eventNumbered e).walking w).phaseOf q n = s.phaseOf q n :=
    fun n => (walking_phaseOf w _ q n).trans (hsame.phaseOf n)
  have hfunc : ((s.eventNumbered e).walking w).ringFunc q = 0 :=
    (walking_ringFunc w _ q).trans (hsame.func.trans <| ringFunc_pf0 howner)
  have htick : ((s.eventNumbered e).walking w).tick = s.tick :=
    (walking_get w _ _).trans <| eventNumbered_get hc e (by decide) (.inr (by decide))
  have hexec := exec_eventGrant_queue w hrun hnext ((queueFor_eventNumbered hc hnext hpf).trans hqueue)
    ((hget _ (show 0x0C400000 ≤ 0x0C40002C + 64 * q by omega)).trans hlost)
    ((walking_queueReady w _ q).trans ((queueReady_eventNumbered hc hd hq howner).trans hready))
  have hrest : (s.eventNumbered e).walking w = { (s.eventTaken e).walking w with regs := ((s.eventNumbered e).walking w).regs } := by
    unfold State.walking
    rw [(writes_eventNumbered s e).rest]
  have hnumber : ((s.eventNumbered e).walking w).get Reg.QE_ARB_ASEQ = (s.get Reg.QE_ARB_ASEQ + 1) % 2 ^ 32 :=
    (walking_get w _ _).trans <| get_put_same (s := s.eventTaken e) hc (by decide)
  have hwithin : Within (words [Reg.QE_ARB_ASEQ, Reg.RING_NEXT q, Reg.RING_PHASE q]) (s.eventTaken e) ((s.eventNumbered e).walking w) :=
    (walking_within w (writes_eventNumbered s e).within).mono fun _ hk => words_mono (by simp) hk
  generalize (s.eventNumbered e).walking w = u at *
  rw [State.writeEvent, htick] at hexec
  generalize s.get Reg.QE_ARB_ASEQ * 2 ^ 32 + e.func % 4096 * 2 ^ 16 + e.unit * 2 ^ 8 + e.type = x at hexec ⊢
  generalize e.payload % 2 ^ 64 = z at hexec ⊢
  generalize s.tick = y at hexec ⊢
  have hgone := hdirect.recordGone hcanon hfunc (e.payload / 2 ^ 64 % 2 ^ 56) (l := [x, y, z]) (show 0 < 3 by decide) (show 3 ≤ 15 by decide)
    (by rw [hnextq, hslot, ← ha]; exact hpage)
  generalize u.writeRecord q [x, y, z] (e.payload / 2 ^ 64 % 2 ^ 56) = t at hexec hgone
  have hevents : u.events = s.events.erase e := by rw [hrest, walking_events, eventTaken_events]
  have hout : u.out = s.out := by rw [hrest, walking_out, eventTaken_out]
  refine ⟨_, hexec, ?_, ?_, (walking_get [] t _).trans (hgone.next.trans ?_), ?_, ⟨fun k hk => ?_, ?_⟩⟩
  · rw [walking_events, hgone.rest, hevents]
  · exact (walking_get [] t _).trans ((hgone.within.get_eq_low hcanon (by decide)
      (nextPhase_of_lt (show 0x0C001040 < 0x0C400000 by decide))).trans hnumber)
  · rw [hnextq]
  · rw [walking_out, hgone.out, hnextq, hslot, hphase, ← ha, ← hp, hout, flatMap_toLE8_three, show 8 * [x, y, z].length = 24 from rfl]
  · rw [walking_rd, hgone.within.words hcanon k (words_false_mono (by simp) hk), hwithin.words hc k hk, eventTaken_rd]
  · exact hgone.walking_rest (v := s.eventTaken e) hrest

/-! ## The record of what was lost (R396) -/

theorem next_writeRecord (hc : s.canon = true) (hd : Direct s) (hq : q < 131072) (hpf : s.ringFunc q = 0) (l : List Nat) (last : Nat) :
    (s.writeRecord q l last).canon = true ∧ (s.writeRecord q l last).get (Reg.RING_NEXT q) = (s.get (Reg.RING_NEXT q) + 1) % 2 ^ 32 := by
  have hsent := dmaSent_writeEntry hc hd hq hpf (s.get (Reg.RING_NEXT q))
    (l.flatMap (toLE 8) ++ toLE 8 (setBits last 63 1 (s.phaseOf q (s.get (Reg.RING_NEXT q)))))
  exact ⟨(writes_setNext _ _ _).canon (hsent.within.canon hc), next_setNext (hsent.within.canon hc) _ _⟩

theorem overflow_fields (hc : s.canon = true) (hd : Direct s) (hq : q < 131072) (hpf : s.ringFunc q = 0) (hready : s.queueReady q = true)
    (hlost : s.get (Reg.RING_LOST q) ≠ 0) : (s.overflow q).get (Reg.RING_LOST q) = 0 ∧ (s.overflow q).get (Reg.RING_FIRST_LOST q) = 0 ∧
      (s.overflow q).get (Reg.RING_NEXT q) = (s.get (Reg.RING_NEXT q) + 1) % 2 ^ 32 := by
  unfold State.overflow
  rw [hready, if_neg (by simp [hlost])]
  obtain ⟨hcanon, hnext⟩ := next_writeRecord hc hd hq hpf
    [Assoc.getD s.qe.lastLost q 0 * 2 ^ 32 + s.ringFunc q % 4096 * 2 ^ 16 + 12 * 2 ^ 8 + 1, s.tick,
      payload [(32, s.get (Reg.RING_LOST q)), (32, s.get (Reg.RING_FIRST_LOST q))] % 2 ^ 64]
    (payload [(32, s.get (Reg.RING_LOST q)), (32, s.get (Reg.RING_FIRST_LOST q))] / 2 ^ 64 % 2 ^ 56)
  unfold State.writeEvent
  generalize s.writeRecord q _ _ = t at hcanon hnext
  have hne : ∀ i j : Nat, i ≠ j → i + 64 * q ≠ j + 64 * q := fun i j h => by omega
  refine ⟨?_, get_put_zero (canon_put hcanon) (by simp [Field.ok]; omega), ?_⟩
  · exact (get_put_ne (canon_put hcanon) (show 31 < 32 by decide) (hne _ _ (by decide)) (.inl (show 31 < 32 by decide))).trans
      (get_put_zero hcanon (by simp [Field.ok]; omega))
  · exact (get_put_ne (canon_put hcanon) (show 31 < 32 by decide) (hne _ _ (by decide)) (.inl (show 31 < 32 by decide))).trans
      ((get_put_ne hcanon (show 31 < 32 by decide) (hne _ _ (by decide)) (.inl (show 31 < 32 by decide))).trans hnext)

theorem exec_eventOverflow {q : Fin 131072} (hrun : s.running .qe = true) (htype : s.ringType q = 4) :
    exec (.eventOverflow q w) s = .next (((s.walking w).overflow q).walking []) := by
  have he : exec (.eventOverflow q w) s = execEventOverflow q w s := rfl
  rw [he]
  unfold execEventOverflow
  rw [hrun, htype, withWalks_eq]
  rfl

theorem eventOverflow_reported (hc : s.canon = true) (hrun : s.running .qe = true) {q : Fin 131072} (htype : s.ringType q = 4)
    (hready : s.queueReady q = true) (hpf : s.ringOwner q = some 0) (hd : Direct s) (hlost : s.get (Reg.RING_LOST q) ≠ 0) :
    completes (.eventOverflow q w) s fun t => t.get (Reg.RING_LOST q) = 0 ∧ t.get (Reg.RING_FIRST_LOST q) = 0 ∧
      t.get (Reg.RING_NEXT q) = (s.get (Reg.RING_NEXT q) + 1) % 2 ^ 32 := by
  obtain ⟨hzero, hfirst, hnext⟩ := overflow_fields (s := s.walking w) hc (hd.walking w) q.isLt
    ((walking_ringFunc w s q).trans (ringFunc_pf0 hpf)) ((walking_queueReady w s q).trans hready) (by rw [walking_get]; exact hlost)
  exact ⟨_, exec_eventOverflow w hrun htype, (walking_get [] _ _).trans hzero, (walking_get [] _ _).trans hfirst,
    (walking_get [] _ _).trans (hnext.trans (by rw [walking_get]))⟩

end

/-! ## Signals (R340, R341, R397) -/

/-- A ring has signalled: it is disarmed, and its signal's time noted. -/
def State.signalNoted (s : State) (r : Nat) : State :=
  (s.put (Reg.RING_ARMED r) 0).setRing r { s.ring r with signalled := some s.localNs }

section
variable {s : State} {r : Fin 131072} {o : Nat}

theorem localNs_disarmed (hc : s.canon = true) (r : Nat) : (s.put (Reg.RING_ARMED r) 0).localNs = s.localNs := by
  have hget : ∀ f : Field, f.key < 0x0C000000 → (s.put (Reg.RING_ARMED r) 0).get f = s.get f := fun f hf =>
    get_put_ne hc (show 30 < 32 by decide) (by show f.key ≠ 0x0C400020 + 64 * r; omega) (.inr (by show f.key + 4 ≠ 0x0C400020 + 64 * r; omega))
  exact localNs_congr (hget _ (by decide)) (hget _ (by decide)) (hget _ (by decide))

theorem exec_eventSignal_idle (h : (s.moment o).flag (Reg.RING_ARMED r) = false) :
    exec (.eventSignal r () o) s = .next (s.moment o) := by
  have he : exec (.eventSignal r () o) s = execEventSignal r () o s := rfl
  rw [he]
  unfold execEventSignal
  dsimp only
  rw [h, if_pos (by simp)]

theorem exec_eventSignal (hc : (s.moment o).canon = true) (hrun : (s.moment o).running .qe = true) (hon : (s.moment o).ringOn r = true)
    (htype : (s.moment o).ringType r = 4) (harmed : (s.moment o).flag (Reg.RING_ARMED r) = true)
    (hawake : (s.moment o).asleep ((s.moment o).ringFunc r) = false)
    (hmore : (s.moment o).get (Reg.RING_NEXT r) ≠ (s.moment o).get (Reg.RING_DONE r)) (hfresh : ((s.moment o).ring r).signalled = none) :
    exec (.eventSignal r () o) s = .next (((s.moment o).signalNoted r).signal r) := by
  have he : exec (.eventSignal r () o) s = execEventSignal r () o s := rfl
  rw [he]
  unfold execEventSignal
  generalize s.moment o = u at *
  dsimp only
  rw [hrun, hon, htype, harmed, hawake, hfresh, beq_eq_false_iff_ne.mpr hmore, if_neg (by simp), localNs_disarmed hc, ring_put]
  rfl

/-! ## Which words a signal reads -/

theorem signalNoted_get (hc : s.canon = true) (r : Nat) {f : Field} (hf : f.key < 0x0C000000 ∨ 0x20000000 ≤ f.key) (hr : r < 131072) :
    (s.signalNoted r).get f = s.get f := by
  rw [State.signalNoted, setRing_get]
  exact get_put_ne hc (show 30 < 32 by decide) (by show f.key ≠ 0x0C400020 + 64 * r; omega)
    (.inr (by show f.key + 4 ≠ 0x0C400020 + 64 * r; omega))

theorem signalNoted_armed (hc : s.canon = true) (r : Nat) : (s.signalNoted r).flag (Reg.RING_ARMED r) = false := by
  rw [State.signalNoted, setRing_flag, flag_put_same hc (by simp [Field.ok]; omega) rfl]
  rfl

theorem signalNoted_ring (s : State) (r : Nat) : (s.signalNoted r).ring r = { s.ring r with signalled := some s.localNs } := ring_setRing _ _ _

theorem signalNoted_within (s : State) (r : Nat) : Within (words [Reg.RING_ARMED r]) s (s.signalNoted r) :=
  setRing_within (within_put (Within.refl s) (words_key (f := Reg.RING_ARMED r) (by simp)) (.inl (show 30 < 32 by decide))) r _

theorem signalNoted_rest (s : State) (r : Nat) :
    s.signalNoted r = { s with regs := (s.signalNoted r).regs, qe := { s.qe with rings := (s.signalNoted r).qe.rings } } := by
  unfold State.signalNoted
  rw [put_rest]
  rfl

theorem signalNoted_sameRing (hc : s.canon = true) (r : Fin 131072) : SameRing r s (s.signalNoted r) :=
  (signalNoted_within s r).sameRing hc fun k hk => by
    have hr := r.isLt
    rw [Bool.eq_false_iff]
    simp only [ringWord, ringOwnerField, words, inRange, List.any_cons, List.any_nil, Bool.or_false, Bool.or_eq_true, Bool.and_eq_true,
      beq_iff_eq, decide_eq_true_eq, ne_eq] at hk ⊢
    omega

theorem setRequest_first (h : s.flag Reg.HIU_INTX_STATUS_PENDING = false) (r : Nat) : s.setRequest r true =
    (((s.setRing r { s.ring r with request := true }).put Reg.HIU_INTX_STATUS_PENDING 1).sendHost (.intx true)) := by
  have hany : (s.setRing r { s.ring r with request := true }).qe.rings.any (fun x => x.2.request) = true := by
    obtain ⟨p, hfind, hval⟩ := Option.map_eq_some_iff.mp (Assoc.get?_set_same s.qe.rings r { s.ring r with request := true })
    exact List.any_eq_true.mpr ⟨p, List.mem_of_find?_eq_some hfind, by rw [hval]⟩
  unfold State.setRequest State.refreshIntx
  dsimp only
  rw [hany, setRing_flag, h]
  rfl

theorem mechanism_pf0_congr {t : State} (h : ∀ f : Field, 0x20000000 ≤ f.key → t.get f = s.get f) : t.mechanism 0 = s.mechanism 0 := by
  unfold State.mechanism State.flag
  rw [h _ (by decide), h _ (by decide)]

/-- What a command's moment leaves of the state. -/
theorem moment_get (hc : s.canon = true) (o : Nat) {f : Field} (hf : f.key < 0x01000000 ∨ 0x02000000 ≤ f.key) :
    (s.moment o).get f = s.get f :=
  (writes_moment s o).within.get_eq hc (by rw [Bool.eq_false_iff]; simp [words]; omega) (by rw [Bool.eq_false_iff]; simp [words]; omega)

end

section
variable {s : State} {r : Fin 131072} {o : Nat}

theorem eventSignal_unarmed (hc : s.canon = true) (harmed : s.flag (Reg.RING_ARMED r) = false) :
    completes (.eventSignal r () o) s fun t => t = s.moment o :=
  ⟨_, exec_eventSignal_idle (by rw [State.flag, moment_get hc o (.inr (by show 0x02000000 ≤ 0x0C400020 + 64 * r.val; omega))]; exact harmed), rfl⟩

section
variable (hc : s.canon = true) (hrun : s.running .qe = true) (hon : s.ringOn r = true) (htype : s.ringType r = 4)
  (harmed : s.flag (Reg.RING_ARMED r) = true) (hmore : s.get (Reg.RING_NEXT r) ≠ s.get (Reg.RING_DONE r))
  (hfresh : (s.ring r).signalled = none) (hpf : s.ringOwner r = some 0) (hawake : s.asleep 0 = false)
include hc hrun hon htype harmed hmore hfresh hpf hawake

theorem exec_eventSignal_armed : exec (.eventSignal r () o) s = .next (((s.moment o).signalNoted r).signal r) := by
  have hget : ∀ i : Nat, ∀ h l : Nat, (s.moment o).get ⟨0x0C400000 + i + 64 * r.val, h, l⟩ = s.get ⟨0x0C400000 + i + 64 * r.val, h, l⟩ :=
    fun i h l => moment_get hc o (.inr (by show 0x02000000 ≤ 0x0C400000 + i + 64 * r.val; omega))
  have howner : (s.moment o).ringFunc r = 0 := by
    rw [State.ringFunc, State.ringOwner, moment_get hc o (.inr (by show 0x02000000 ≤ 0x0B300000 + r.val / 2 * 4; omega))]
    exact ringFunc_pf0 hpf
  have hasleep : (s.moment o).asleep 0 = false := by rw [State.asleep, (writes_moment s o).rest]; exact hawake
  refine exec_eventSignal ((writes_moment s o).canon hc) ?_ ?_ ((hget 0 29 27).trans htype) ?_ (by rw [howner]; exact hasleep) ?_ ?_
  · rw [State.running, moment_get hc o (.inr (by decide))]; exact hrun
  · rw [State.ringOn, State.flag, hget 0 31 31]; exact hon
  · rw [State.flag, hget 0x20 30 30]; exact harmed
  · rw [hget 0x24 31 0, hget 0x28 31 0]; exact hmore
  · rw [(writes_moment s o).ring]; exact hfresh

omit hrun hon htype harmed hmore hfresh hpf hawake in
theorem signalNoted_moment_get {f : Field} (hf : 0x0A000000 ≤ f.key) (hf' : f.key < 0x0C000000 ∨ 0x20000000 ≤ f.key) :
    ((s.moment o).signalNoted r).get f = s.get f :=
  (signalNoted_get ((writes_moment s o).canon hc) r hf' r.isLt).trans (moment_get hc o (.inr (by omega)))

omit hrun hon htype harmed hmore hfresh hawake in
theorem signalNoted_moment_func : ((s.moment o).signalNoted r).ringFunc r = 0 := by
  rw [(signalNoted_sameRing ((writes_moment s o).canon hc) r).func, State.ringFunc, State.ringOwner,
    moment_get hc o (.inr (by show 0x02000000 ≤ 0x0B300000 + r.val / 2 * 4; omega))]
  exact ringFunc_pf0 hpf

omit hrun hon htype harmed hmore hfresh hpf hawake in
theorem signalNoted_moment_mechanism : ((s.moment o).signalNoted r).mechanism 0 = s.mechanism 0 :=
  mechanism_pf0_congr fun f hf => signalNoted_moment_get hc (by omega) (.inr hf)

theorem eventSignal_intx (hintx : s.mechanism 0 = .intx) (hpending : s.flag Reg.HIU_INTX_STATUS_PENDING = false) :
    completes (.eventSignal r () o) s fun t => t.flag (Reg.RING_ARMED r) = false ∧ t.out = .intx true :: s.out ∧
      t.flag Reg.HIU_INTX_STATUS_PENDING = true ∧ (t.ring r).request = true := by
  have hcanon := (writes_moment s o).canon hc
  have hexec := exec_eventSignal_armed (o := o) hc hrun hon htype harmed hmore hfresh hpf hawake
  have hpend : ((s.moment o).signalNoted r).flag Reg.HIU_INTX_STATUS_PENDING = false := by
    rw [State.flag, signalNoted_moment_get hc (by decide) (.inl (by decide))]; exact hpending
  have hout : ((s.moment o).signalNoted r).out = s.out := by rw [signalNoted_rest, (writes_moment s o).rest]
  have hdisarmed := signalNoted_armed hcanon r
  have hcanon' := (signalNoted_within (s.moment o) r).canon hcanon
  rw [State.signal, signalNoted_moment_func hc hpf, signalNoted_moment_mechanism hc, hintx] at hexec
  generalize (s.moment o).signalNoted r = u at *
  dsimp only at hexec
  rw [setRequest_first hpend] at hexec
  refine ⟨_, hexec, ?_, ?_, ?_, ?_⟩
  · rw [sendHost_flag, flag_put_ne (by exact hcanon') (by decide) (by show 0x0C400020 + 64 * r.val ≠ 0x0A001030; omega) (.inl (show 30 < 32 by decide)),
      setRing_flag]
    exact hdisarmed
  · rw [sendHost_out, State.put_out, State.setRing, hout]
  · rw [sendHost_flag, flag_put_same (by exact hcanon') (by decide) rfl]
    rfl
  · rw [sendHost_ring, ring_put, ring_setRing]

theorem eventSignal_msix (hattached : s.attached = true) (hmsix : s.mechanism 0 = .msix) (hmask : s.flag (cfgMsixMask 0) = false)
    (hvector : s.flag (vectorControl 0 (s.get (Reg.RING_VECTOR r))) = false) :
    completes (.eventSignal r () o) s fun t => t.flag (Reg.RING_ARMED r) = false ∧
      t.out = .msix 0 (s.get (Reg.RING_VECTOR r)) :: s.out ∧ (t.ring r).signalled = some (s.moment o).localNs ∧
      QuietFrame (words [Reg.RING_ARMED r, Reg.TE_OFFSET]) s
        { s with qe := { s.qe with rings := t.qe.rings }, out := t.out, hiu := { s.hiu with fc := t.hiu.fc } } t := by
  have hcanon := (writes_moment s o).canon hc
  have hexec := exec_eventSignal_armed (o := o) hc hrun hon htype harmed hmore hfresh hpf hawake
  have hget := fun f => signalNoted_moment_get (r := r) (o := o) hc (f := f)
  have hvec : ((s.moment o).signalNoted r).get (Reg.RING_VECTOR r) = s.get (Reg.RING_VECTOR r) :=
    (signalNoted_sameRing hcanon r).vector.trans (moment_get hc o (.inr (by show 0x02000000 ≤ 0x0C400004 + 64 * r.val; omega)))
  have hlt : s.get (Reg.RING_VECTOR r) < 2048 := get_lt s _
  have hdisarmed := signalNoted_armed hcanon r
  have hring := signalNoted_ring (s.moment o) r
  have hwithin : Within (words [Reg.RING_ARMED r, Reg.TE_OFFSET]) s ((s.moment o).signalNoted r) :=
    ((writes_moment s o).within.mono fun _ hk => words_mono (by simp) hk).trans
      ((signalNoted_within _ r).mono fun _ hk => words_mono (by simp) hk)
  have hrest := signalNoted_rest (s.moment o) r
  rw [State.signal, signalNoted_moment_func hc hpf, signalNoted_moment_mechanism hc, hmsix, hvec] at hexec
  have hfire : ((s.moment o).signalNoted r).fireVector 0 (s.get (Reg.RING_VECTOR r)) =
      ((s.moment o).signalNoted r).sendHost (.msix 0 (s.get (Reg.RING_VECTOR r))) := by
    have hattached' : ((s.moment o).signalNoted r).attached = true := by
      rw [State.attached, State.flag, hget _ (by decide) (.inl (by decide))]; exact hattached
    have hmask' : ((s.moment o).signalNoted r).flag (cfgMsixMask 0) = false := by
      rw [State.flag, hget _ (by decide) (.inr (by decide))]; exact hmask
    have hvector' : ((s.moment o).signalNoted r).flag (vectorControl 0 (s.get (Reg.RING_VECTOR r))) = false := by
      rw [State.flag, hget _ (by show 0x0A000000 ≤ 0x0A01000C + 16 * _; omega) (.inl (by show 0x0A01000C + 16 * _ < 0x0C000000; omega))]
      exact hvector
    rw [State.fireVector, hattached', hmask', hvector']
    rfl
  dsimp only at hexec
  rw [hfire] at hexec
  generalize (s.moment o).signalNoted r = u at *
  rw [(writes_moment s o).rest] at hrest
  have hout : u.out = s.out := by rw [hrest]
  refine ⟨_, hexec, ?_, ?_, ?_, quietFrame hc (sendHost_within _ hwithin) ?_⟩
  · exact (sendHost_flag _ _ _).trans hdisarmed
  · rw [sendHost_out, hout]
  · rw [sendHost_ring, hring]
  · rw [sendHost_eq, State.spentFc, hrest]

end

end

/-- Settles O45: an event of PF0 is numbered and written to its queue, or counted; a queue's losses go out in one record; an armed queue
signals once. -/
theorem eventCommandsComplete : Obligations.EventCommandsComplete := by
  unfold Obligations.EventCommandsComplete
  intro s hc hrun
  refine ⟨fun e w hnext hpf => ⟨fun hnone => eventGrant_none w hc hrun hnext hpf hnone,
      fun q a p hqueue hready hlost hd ha hp hpage => eventGrant_queue w hc hrun hnext hpf hqueue hready hlost (direct_iff.mp hd) ha hp hpage⟩,
    fun q w htype hready hpf hd hlost => eventOverflow_reported w hc hrun htype hready hpf (direct_iff.mp hd) hlost,
    fun q o hon htype => ⟨fun harmed hmore hfresh hpf hawake hattached => ⟨fun hintx hpending => ?_, fun hmsix hmask hvector => ?_⟩,
      fun harmed => eventSignal_unarmed hc harmed⟩⟩
  · exact eventSignal_intx hc hrun hon htype harmed hmore hfresh hpf hawake hintx hpending
  · exact eventSignal_msix hc hrun hon htype harmed hmore hfresh hpf hawake hattached hmsix hmask hvector

end Sys2Proof.Machine
end

section
/-! PROOFS. Doorbells, turns and fetches (R381 to R383, R386). -/

namespace Sys2Proof.Machine

/-! ## Frames of a command with walks -/

section
variable {s t u : State} {area : Nat → Bool} (w : List Walk8)

theorem walking_hiu (s : State) : (s.walking w).hiu = s.hiu := rfl

theorem Writes.walking (h : Writes area s t) (w : List Walk8) : Writes area (s.walking w) (t.walking w) :=
  ⟨⟨h.within.canon, h.within.words, h.within.kept⟩, by rw [h.rest]; rfl⟩

theorem quietFrame_walking (hc : s.canon = true) (h : Writes area (s.walking w) u) : QuietFrame area s (s.walking []) (u.walking []) :=
  ⟨fun k hk => h.within.words hc k hk, by rw [h.rest]; rfl⟩

theorem quietFrame_walking_setRing (hc : s.canon = true) (h : Writes area (s.walking w) u) (r : Nat) (x : RingRt) :
    QuietFrame area s { s.walking [] with qe := { s.qe with rings := ((u.setRing r x).walking []).qe.rings } } ((u.setRing r x).walking []) :=
  ⟨fun k hk => h.within.words hc k hk, by rw [h.rest]; rfl⟩

end

/-! ## Doorbells (R381, R382) -/

/-- PF0's doorbells are served. -/
structure BellOpen (s : State) : Prop where
  running : s.running .qe = true
  shows : s.shows 0x0C200000 = true
  served : s.served .pf0 = true

/-- A doorbell that asks for it arms its ring. -/
def State.armedBy (s : State) (r : Nat) (arm : Bool) : State := s.when arm (fun s => s.put (Reg.RING_ARMED r) 1)

section
variable {s : State} {r : Nat} (w : List Walk8)

theorem BellOpen.walking (h : BellOpen s) : BellOpen (s.walking w) := ⟨h.running, h.shows, h.served⟩

theorem bellRing_pf0 (s : State) (r : Fin 131072) :
    s.bellRing .pf0 r = if s.ringOwner r == some 0 && s.ringOn r then some r.val else none := by
  unfold State.bellRing
  rw [show ∀ d : Nat, (if d < 131072 && s.ringOwner d == some 0 && s.ringOn d then some d else none) =
    if d < 131072 && s.ringOwner d == some 0 && s.ringOn d then some d else none from fun _ => rfl, decide_eq_true r.isLt, Bool.true_and]

theorem doorbell_discarded (hopen : BellOpen s) {r : Fin 131072} (h : s.ringOwner r ≠ some 0 ∨ s.ringOn r = false) (arm : Bool) (v : Nat) :
    s.doorbell .pf0 r arm v = s.bump Reg.QE_DB_DISCARDED := by
  have hnone : s.bellRing .pf0 r = none := by
    rw [bellRing_pf0, if_neg]
    obtain h | h := h
    · simp [h]
    · simp [h]
  unfold State.doorbell
  rw [hopen.running, hopen.shows, hopen.served, hnone, if_neg (by decide)]

theorem doorbell_ring (hopen : BellOpen s) {r : Fin 131072} (howner : s.ringOwner r = some 0) (hon : s.ringOn r = true)
    (hrequest : (s.ring r).request = false) (arm : Bool) (v : Nat) :
    s.doorbell .pf0 r arm v = if s.ringType r ≤ 2 then s.fetchBell r arm else s.consumeBell r arm v := by
  have hring : s.bellRing .pf0 r = some r.val := by rw [bellRing_pf0, howner, hon]; rfl
  unfold State.doorbell
  rw [hopen.running, hopen.shows, hopen.served, hring, if_neg (by decide)]
  dsimp only
  rw [hrequest, if_neg Bool.false_ne_true]

theorem writes_armedBy (s : State) (r : Nat) (arm : Bool) : Writes (words [Reg.RING_ARMED r]) s (s.armedBy r arm) :=
  writes_when (Writes.refl s) (writes_put (Writes.refl s) (words_key (f := Reg.RING_ARMED r) (by simp)) (.inl (show 30 < 32 by decide)))

theorem flag_armedBy (hc : s.canon = true) (r : Nat) (arm : Bool) :
    (s.armedBy r arm).flag (Reg.RING_ARMED r) = (arm || s.flag (Reg.RING_ARMED r)) := by
  cases arm
  · rfl
  · exact flag_put_same hc (by simp [Field.ok]; omega) rfl 1

theorem ring_armedBy (s : State) (r : Nat) (arm : Bool) : (s.armedBy r arm).ring r = s.ring r := (writes_armedBy s r arm).ring r

theorem fetchBell_eq (s : State) (r : Nat) (arm : Bool) : s.fetchBell r arm =
    if (s.ring r).fetching then ((s.armedBy r arm).put (Reg.RING_REREAD r) 1).bump Reg.QE_REREADS
    else if (s.armedBy r arm).arbitrated r || !(s.armedBy r arm).mayDma ((s.armedBy r arm).ringFunc r) then
      (s.armedBy r arm).setRing r { s.ring r with waiting := true }
    else (s.armedBy r arm).startFetch r 0 1 := by
  rw [← ring_armedBy s r arm]
  rfl

/-! ## A fetch of one entry (R376, R382) -/

/-- A ring that fetches. -/
def RingRt.fetches (x : RingRt) (turn ahead : Nat) : RingRt := { x with waiting := false, fetching := true, turn := turn, ahead := ahead }

/-- A ring's fetch of one entry is on its way. -/
def State.entryAsked (s : State) (r turn : Nat) : State :=
  ((s.setRing r ((s.ring r).fetches turn 0)).readSent (.fetch r (s.get (Reg.RING_NEXT r))) (s.slotAddr r (s.get (Reg.RING_NEXT r)))
    (entryBytes (s.ringType r))).setRing r ((s.ring r).fetches turn 1)

theorem setRing_direct (s : State) (r : Nat) (x : RingRt) : (s.setRing r x).direct = s.direct := rfl
theorem setRing_tagReady (s : State) (r : Nat) (x : RingRt) : (s.setRing r x).tagReady = s.tagReady := rfl
theorem setRing_newTag (s : State) (r : Nat) (x : RingRt) : (s.setRing r x).newTag = s.newTag := rfl
theorem setRing_out (s : State) (r : Nat) (x : RingRt) : (s.setRing r x).out = s.out := rfl
theorem setRing_hiu (s : State) (r : Nat) (x : RingRt) : (s.setRing r x).hiu = s.hiu := rfl

theorem entryBytes_bounds (type : Nat) : 0 < entryBytes type ∧ entryBytes type ≤ 64 := by
  unfold entryBytes
  split
  all_goals decide

theorem slotReady_iff {q : Nat} : s.slotReady r q = true ↔ s.ringOwner r = some 0 ∧ onePage (s.slotAddr r q) (entryBytes (s.ringType r)) = true := by
  rw [State.slotReady, Bool.and_eq_true, beq_iff_eq]

theorem startFetch_one (hd : Direct s) (hready : s.tagReady = true) (hslot : s.slotReady r (s.get (Reg.RING_NEXT r)) = true) (turn : Nat) :
    s.startFetch r turn 1 = s.entryAsked r turn := by
  obtain ⟨hpf, hpage⟩ := slotReady_iff.mp hslot
  obtain ⟨hlo, hhi⟩ := entryBytes_bounds (s.ringType r)
  have hmax := le_maxRead (s.setRing r ((s.ring r).fetches turn 0))
  have hread := Direct.dmaRead (s := s.setRing r ((s.ring r).fetches turn 0))
    (direct_iff.mp ((setRing_direct s r _).trans (direct_iff.mpr hd))) ((setRing_tagReady s r _).trans hready)
    (.fetch r (s.get (Reg.RING_NEXT r))) hlo hpage (by omega)
  unfold State.startFetch State.readEntries
  have hfunc : (s.setRing r ((s.ring r).fetches turn 0)).ringFunc r = 0 := ringFunc_pf0 hpf
  have hsame : SameRing r s (s.setRing r ((s.ring r).fetches turn 0)) := sameRing_of_regs rfl
  change (match (s.setRing r ((s.ring r).fetches turn 0)).dmaRead (.fetch r (s.get (Reg.RING_NEXT r)))
      ((s.setRing r ((s.ring r).fetches turn 0)).ringFunc r)
      ((s.setRing r ((s.ring r).fetches turn 0)).slotAddr r (s.get (Reg.RING_NEXT r)))
      (entryBytes ((s.setRing r ((s.ring r).fetches turn 0)).ringType r)) with
    | (true, s) => (s.setRing r { s.ring r with ahead := (s.ring r).ahead + 1 }).readEntries r (_ + 1) 0
    | (false, s) => _) = _
  rw [hfunc, hsame.slotAddr, hsame.type, hread]
  dsimp only
  rw [readSent_ring, ring_setRing]
  rfl

theorem entryAsked_ring (s : State) (r turn : Nat) : (s.entryAsked r turn).ring r = (s.ring r).fetches turn 1 := ring_setRing _ _ _

theorem entryAsked_out (s : State) (r turn : Nat) : (s.entryAsked r turn).out =
    .dmaRead 0 (s.slotAddr r (s.get (Reg.RING_NEXT r))) (entryBytes (s.ringType r)) s.newTag false :: s.out := by
  rw [State.entryAsked, setRing_out, readSent_out, setRing_newTag, setRing_out]
  rfl

theorem entryAsked_tags (s : State) (r turn : Nat) : (s.entryAsked r turn).hiu.tags = s.hiu.tags ++
    [(s.newTag, directRead (.fetch r (s.get (Reg.RING_NEXT r))) (s.slotAddr r (s.get (Reg.RING_NEXT r))) (entryBytes (s.ringType r)))] := by
  rw [State.entryAsked, setRing_hiu, readSent_tags, setRing_newTag, setRing_hiu]

theorem entryAsked_ptr (s : State) (r turn : Nat) : (s.entryAsked r turn).qe.ptr = s.qe.ptr := by
  unfold State.entryAsked State.setRing
  rw [readSent_qe]

/-! ## Arming writes one word -/

theorem sameRing_armedBy (hc : s.canon = true) (r : Nat) (arm : Bool) : SameRing r s (s.armedBy r arm) :=
  (writes_armedBy s r arm).within.sameRing hc fun k hk => by
    rw [Bool.eq_false_iff]
    simp only [ringWord, ringOwnerField, words, inRange, List.any_cons, List.any_nil, Bool.or_false, Bool.or_eq_true, Bool.and_eq_true,
      beq_iff_eq, decide_eq_true_eq, ne_eq] at hk ⊢
    omega

theorem armedBy_get (hc : s.canon = true) (r : Nat) (arm : Bool) {f : Field} (h : f.key + 4 < 0x0C400020 + 64 * r ∨ 0x0C400020 + 64 * r < f.key) :
    (s.armedBy r arm).get f = s.get f :=
  (writes_armedBy s r arm).within.get_eq hc
    (by rw [Bool.eq_false_iff]; simp [words]; omega) (by rw [Bool.eq_false_iff]; simp [words]; omega)

theorem armedBy_next (hc : s.canon = true) (r : Nat) (arm : Bool) : (s.armedBy r arm).get (Reg.RING_NEXT r) = s.get (Reg.RING_NEXT r) :=
  (writes_armedBy s r arm).within.get_eq_low hc (show 31 < 32 by decide) (by rw [Bool.eq_false_iff]; simp [words])

theorem direct_armedBy (hc : s.canon = true) (hd : Direct s) (arm : Bool) : Direct (s.armedBy r arm) :=
  hd.of_within (writes_armedBy s r arm).within hc
    (fun k hk => by
      rw [Bool.eq_false_iff]
      simp only [directWord, words, List.any_cons, List.any_nil, Bool.or_false, Bool.or_eq_true, Bool.and_eq_true, beq_iff_eq,
        decide_eq_true_eq, ne_eq] at hk ⊢
      omega)
    (by rw [(writes_armedBy s r arm).rest]; rfl) (by rw [(writes_armedBy s r arm).rest])

theorem tagReady_congr {t : State} (hhiu : t.hiu = s.hiu) (h : ∀ f : Field, f.key / 0x1000000 = 10 → t.get f = s.get f) :
    t.tagReady = s.tagReady := by
  unfold State.tagReady State.tagFree
  rw [hhiu, h _ (by decide), h _ (by decide)]
  rfl

theorem newTag_congr {t : State} (hhiu : t.hiu = s.hiu) (h : ∀ f : Field, f.key / 0x1000000 = 10 ∨ 0x40000000 ≤ f.key → t.get f = s.get f) :
    t.newTag = s.newTag := by
  unfold State.newTag State.tagBase State.flag
  rw [hhiu, h _ (by decide), h _ (by decide)]

theorem exec_doorbellFetch (s : State) (r : Fin 131072) (arm : Bool) (v : BitVec 24) :
    exec (.doorbellFetch .pf0 r arm v w) s = .next (((s.walking w).doorbell .pf0 r arm v.toNat).walking []) := rfl

theorem exec_doorbellConsume (s : State) (r : Fin 131072) (arm : Bool) (v : BitVec 24) :
    exec (.doorbellConsume .pf0 r arm v) s = .next (s.doorbell .pf0 r arm v.toNat) := rfl

end

/-! ## Fields of a ring's row -/

theorem off_of_below {f g : Field} (hf : f.ok = true) (hg : g.ok = true) (h : f.key + 8 ≤ g.key) : f.off g = true := by
  simp only [Field.off, hf, hg, Bool.or_eq_true, decide_eq_true_eq, Bool.true_and]
  simp only [Field.ok, Bool.and_eq_true, beq_iff_eq, decide_eq_true_eq] at hf hg
  simp only [Field.at, Field.width]
  omega

theorem reread_off_armed (r : Nat) : (Reg.RING_REREAD r).off (Reg.RING_ARMED r) = true :=
  off_up (f := Reg.RING_REREAD 0) (g := Reg.RING_ARMED 0) (d := 64 * r) (by omega) (by decide)

theorem ok_reread (r : Nat) : (Reg.RING_REREAD r).ok = true := ok_up (f := Reg.RING_REREAD 0) (d := 64 * r) (by omega) (by decide)
theorem ok_armed (r : Nat) : (Reg.RING_ARMED r).ok = true := ok_up (f := Reg.RING_ARMED 0) (d := 64 * r) (by omega) (by decide)

/-! ## Doorbells of fetched rings complete (R382) -/

section
variable {s : State} {r : Fin 131072} (w : List Walk8) (arm : Bool) (v : BitVec 24) (hc : s.canon = true) (hopen : BellOpen s)
include hc hopen

theorem doorbellFetch_discarded (h : s.ringOwner r ≠ some 0 ∨ s.ringOn r = false) :
    completes (.doorbellFetch .pf0 r arm v w) s fun t => t.get Reg.QE_DB_DISCARDED = (s.get Reg.QE_DB_DISCARDED + 1) % 2 ^ 64 ∧
      QuietFrame (words [Reg.QE_DB_DISCARDED]) s (s.walking []) t := by
  have hexec := exec_doorbellFetch w s r arm v
  rw [doorbell_discarded (hopen.walking w) h] at hexec
  refine ⟨_, hexec, ?_, quietFrame_walking w hc (writes_bump (Writes.refl _) (by decide) (.inr (by decide)))⟩
  rw [walking_get, State.bump, get_put_same (by exact hc) (by decide), walking_get]
  rfl

section
variable (hpf : s.ringOwner r = some 0) (hon : s.ringOn r = true) (hfew : s.ringType r ≤ 2) (hrequest : (s.ring r).request = false)
include hpf hon hfew hrequest

omit hc in
theorem exec_doorbellFetch_bell :
    exec (.doorbellFetch .pf0 r arm v w) s = .next (((s.walking w).fetchBell r arm).walking []) := by
  rw [exec_doorbellFetch, doorbell_ring (hopen.walking w) hpf hon hrequest, if_pos]
  exact hfew

theorem doorbellFetch_rereads (hfetching : (s.ring r).fetching = true) :
    completes (.doorbellFetch .pf0 r arm v w) s fun t => t.flag (Reg.RING_REREAD r) = true ∧
      t.flag (Reg.RING_ARMED r) = (arm || s.flag (Reg.RING_ARMED r)) ∧
      t.get Reg.QE_REREADS = (s.get Reg.QE_REREADS + 1) % 2 ^ 64 ∧
      QuietFrame (words [Reg.RING_REREAD r, Reg.QE_REREADS]) s (s.walking []) t := by
  have hexec := exec_doorbellFetch_bell w arm v hopen hpf hon hfew hrequest
  rw [fetchBell_eq, if_pos (by exact hfetching)] at hexec
  have hcanon : (s.walking w).canon = true := hc
  have harmed := (writes_armedBy (s.walking w) r arm).canon hcanon
  have hreread : (((s.walking w).armedBy r arm).put (Reg.RING_REREAD r) 1).canon = true := canon_put harmed
  refine ⟨_, hexec, ?_, ?_, ?_, quietFrame_walking w hc (writes_bump (writes_put ((writes_armedBy _ r arm).mono fun _ hk => ?_)
    (words_key (f := Reg.RING_REREAD r) (by simp)) (.inl (show 29 < 32 by decide))) (words_key (f := Reg.QE_REREADS) (by simp))
    (.inr (words_high (f := Reg.QE_REREADS) (by simp) (by decide))))⟩
  · rw [walking_flag, State.bump, flag_put_off hreread (off_of_below (by decide) (ok_reread r) (by show 0x0C001108 + 8 ≤ 0x0C400020 + 64 * r.val; omega)),
      flag_put_same harmed (ok_reread r) rfl]
    rfl
  · rw [walking_flag, State.bump, flag_put_off hreread (off_of_below (by decide) (ok_armed r) (by show 0x0C001108 + 8 ≤ 0x0C400020 + 64 * r.val; omega)),
      flag_put_off harmed (reread_off_armed r), flag_armedBy hcanon, walking_flag]
  · rw [walking_get, State.bump, get_put_same hreread (by decide),
      get_put_ne harmed (show 29 < 32 by decide) (by show 0x0C001108 ≠ 0x0C400020 + 64 * r.val; omega)
        (.inr (by show 0x0C00110C ≠ 0x0C400020 + 64 * r.val; omega)),
      armedBy_get hcanon r arm (.inl (by show 0x0C00110C < 0x0C400020 + 64 * r.val; omega)), walking_get]
    rfl
  · simp only [words, List.any_cons, List.any_nil, Bool.or_false, Bool.or_eq_true, Bool.and_eq_true, beq_iff_eq, decide_eq_true_eq] at hk ⊢
    omega

theorem doorbellFetch_waits (hidle : (s.ring r).fetching = false) (hturns : s.arbitrated r = true) :
    completes (.doorbellFetch .pf0 r arm v w) s fun t => t.ring r = { s.ring r with waiting := true } ∧
      t.flag (Reg.RING_ARMED r) = (arm || s.flag (Reg.RING_ARMED r)) ∧
      QuietFrame (words [Reg.RING_ARMED r]) s { s.walking [] with qe := { s.qe with rings := t.qe.rings } } t := by
  have hexec := exec_doorbellFetch_bell w arm v hopen hpf hon hfew hrequest
  have hturns' : ((s.walking w).armedBy r arm).arbitrated r = true := (sameRing_armedBy (s := s.walking w) hc r arm).arbitrated.trans hturns
  rw [fetchBell_eq, if_neg (by rw [walking_ring, hidle]; exact Bool.false_ne_true), hturns', Bool.true_or, if_pos rfl, walking_ring] at hexec
  refine ⟨_, hexec, ?_, ?_, quietFrame_walking_setRing w hc (writes_armedBy _ r arm) r _⟩
  · rw [walking_ring, ring_setRing]
  · rw [walking_flag, setRing_flag, flag_armedBy (by exact hc), walking_flag]

theorem doorbellFetch_reads (hidle : (s.ring r).fetching = false) (hturns : s.arbitrated r = false) (hd : Direct s)
    (hready : s.tagReady = true) (hslot : s.slotReady r (s.get (Reg.RING_NEXT r)) = true) :
    completes (.doorbellFetch .pf0 r arm v w) s fun t => t.ring r = (s.ring r).fetches 0 1 ∧
      t.out = .dmaRead 0 (s.slotAddr r (s.get (Reg.RING_NEXT r))) (entryBytes (s.ringType r)) s.newTag false :: s.out ∧
      t.hiu.tags = s.hiu.tags ++ [(s.newTag,
        directRead (.fetch r (s.get (Reg.RING_NEXT r))) (s.slotAddr r (s.get (Reg.RING_NEXT r))) (entryBytes (s.ringType r)))] := by
  have hexec := exec_doorbellFetch_bell w arm v hopen hpf hon hfew hrequest
  have hsame : SameRing r s ((s.walking w).armedBy r arm) := ⟨(sameRing_armedBy (s := s.walking w) hc r arm).rd⟩
  have hnext : ((s.walking w).armedBy r arm).get (Reg.RING_NEXT r) = s.get (Reg.RING_NEXT r) :=
    (armedBy_next (s := s.walking w) hc r arm).trans (walking_get w s _)
  have hdirect : Direct ((s.walking w).armedBy r arm) := direct_armedBy (s := s.walking w) hc (hd.walking w) arm
  have hget : ∀ f : Field, f.key / 0x1000000 = 10 ∨ 0x40000000 ≤ f.key → ((s.walking w).armedBy r arm).get f = s.get f := fun f hf =>
    (armedBy_get (s := s.walking w) hc r arm (by omega)).trans (walking_get w s f)
  have hhiu : ((s.walking w).armedBy r arm).hiu = s.hiu := by rw [(writes_armedBy _ r arm).rest]; rfl
  have hready' := (tagReady_congr hhiu fun f hf => hget f (.inl hf)).trans hready
  have htag := newTag_congr hhiu hget
  have hout : ((s.walking w).armedBy r arm).out = s.out := by rw [(writes_armedBy _ r arm).rest]; rfl
  rw [fetchBell_eq, if_neg (by rw [walking_ring, hidle]; exact Bool.false_ne_true), hsame.arbitrated, hturns, hsame.func, ringFunc_pf0 hpf,
    hdirect.mayDma, if_neg (by decide), startFetch_one hdirect hready' (by
      rw [slotReady_iff, hsame.owner, hsame.slotAddr, hsame.type, hnext]
      exact slotReady_iff.mp hslot)] at hexec
  have hring : ((s.walking w).armedBy r arm).ring r = s.ring r := (ring_armedBy _ r arm).trans (walking_ring w s r)
  generalize (s.walking w).armedBy r arm = u at *
  refine ⟨_, hexec, ?_, ?_, ?_⟩
  · rw [walking_ring, entryAsked_ring, hring]
  · rw [walking_out, entryAsked_out, hsame.slotAddr, hsame.type, hnext, htag, hout]
  · rw [walking_hiu, entryAsked_tags, hsame.slotAddr, hsame.type, hnext, htag, hhiu]

end

end

/-! ## Doorbells of rings that a host reads (R383, R397) -/

/-- How far behind PROD a doorbell's DONE lies. -/
def State.bellBack (s : State) (r d : Nat) : Nat := (s.get (Reg.RING_NEXT r) + 2 ^ 32 - d % 2 ^ 24) % 2 ^ 24

/-- DONE moves to `back` before PROD. -/
def State.doneMoved (s : State) (r back : Nat) : State := s.put (Reg.RING_DONE r) (s.get (Reg.RING_NEXT r) + 2 ^ 32 - back)

/-- The records that the host has not read. -/
def State.ringLag (s : State) (r : Nat) : Nat := (s.get (Reg.RING_NEXT r) + 2 ^ 32 - s.get (Reg.RING_DONE r)) % 2 ^ 32

section
variable {s : State} {r back : Nat} (arm : Bool) {d : Nat}

theorem consumeBell_discards (hback : s.bellBack r d = back) (h : s.ringLag r < back) : s.consumeBell r arm d =
    (({ s with free := s.free + 1 } : State).bump Reg.QE_DB_DISCARDED).ringError r 4 (Config.freeValue s.free) := by
  subst hback
  unfold State.consumeBell
  dsimp only
  rw [if_pos (by exact h)]
  rfl

theorem writes_doneMoved (s : State) (r back : Nat) : Writes (words [Reg.RING_DONE r]) s (s.doneMoved r back) :=
  writes_put (Writes.refl s) (words_key (f := Reg.RING_DONE r) (by simp)) (.inl (show 31 < 32 by decide))

theorem type_doneMoved (hc : s.canon = true) (r back : Nat) : (s.doneMoved r back).ringType r = s.ringType r :=
  (writes_doneMoved s r back).within.get_eq_low hc (show 29 < 32 by decide) (by rw [Bool.eq_false_iff]; simp [words])

theorem done_doneMoved (hc : s.canon = true) (r back : Nat) :
    (s.doneMoved r back).get (Reg.RING_DONE r) = (s.get (Reg.RING_NEXT r) + 2 ^ 32 - back) % 2 ^ 32 :=
  get_put_same hc (ok_up (f := Reg.RING_DONE 0) (d := 64 * r) (by omega) (by decide))

theorem next_doneMoved (hc : s.canon = true) (r back : Nat) : (s.doneMoved r back).get (Reg.RING_NEXT r) = s.get (Reg.RING_NEXT r) :=
  (writes_doneMoved s r back).within.get_eq_low hc (show 31 < 32 by decide) (by rw [Bool.eq_false_iff]; simp [words])

theorem armed_doneMoved (hc : s.canon = true) (r back : Nat) : (s.doneMoved r back).flag (Reg.RING_ARMED r) = s.flag (Reg.RING_ARMED r) := by
  rw [State.flag, (writes_doneMoved s r back).within.get_eq_low hc (show 30 < 32 by decide) (by rw [Bool.eq_false_iff]; simp [words]), State.flag]

section
variable (hc : s.canon = true)
include hc

theorem consumeBell_notifies (hback : s.bellBack r d = back) (h : back ≤ s.ringLag r) (htype : s.ringType r = 3) (hmore : back ≠ 0) :
    s.consumeBell r true d = (s.doneMoved r back).notify r 3 := by
  have htype' : ((s.doneMoved r back).ringType r = 3 && back != 0) = true := by
    rw [type_doneMoved hc, htype, bne_iff_ne.mpr hmore]
    rfl
  subst hback
  unfold State.consumeBell
  dsimp only
  rw [if_neg (by exact not_lt.mpr h), if_neg (by decide), if_pos (by exact htype')]
  rfl

theorem consumeBell_arms (hback : s.bellBack r d = back) (h : back ≤ s.ringLag r) (hquiet : s.ringType r = 4 ∨ arm = false ∨ back = 0) :
    s.consumeBell r arm d = (s.doneMoved r back).armedBy r arm := by
  have htype' : arm = true → ¬((s.doneMoved r back).ringType r = 3 && back != 0) = true := by
    rintro rfl
    rw [type_doneMoved hc]
    obtain htype | harm | hzero := hquiet
    · simp [htype]
    · nomatch harm
    · simp [hzero]
  rw [State.bellBack] at hback
  rw [State.ringLag] at h
  unfold State.consumeBell
  dsimp only
  rw [hback, if_neg (not_lt.mpr h)]
  unfold State.doneMoved at htype' ⊢
  cases arm with
  | false => rw [Bool.not_false, if_pos rfl, State.armedBy, State.when, if_neg Bool.false_ne_true]
  | true => rw [Bool.not_true, if_neg Bool.false_ne_true, if_neg (htype' rfl), State.armedBy, State.when, if_pos rfl]

end

end

/-- The event of a notice of a COMPLETE ring. -/
def State.completeNotice (s : State) (r : Nat) : Event :=
  ⟨12, 3, s.ringFunc r, .ring r, payload [(17, r), (32, s.get (Reg.RING_NEXT r))]⟩

theorem notify_complete (s : State) (r : Nat) : s.notify r 3 = (s.put (Reg.RING_ARMED r) 0).raiseEvent (s.completeNotice r) := by
  unfold State.notify State.completeNotice
  dsimp only
  rw [if_neg (by decide)]

section
variable {s : State} {r : Fin 131072} {d : BitVec 24} {back : Nat} (hc : s.canon = true) (hopen : BellOpen s) (hpf : s.ringOwner r = some 0)
  (hon : s.ringOn r = true) (hmany : 3 ≤ s.ringType r) (hrequest : (s.ring r).request = false)
  (hback : back = (s.get (Reg.RING_NEXT r) + 2 ^ 32 - d.toNat) % 2 ^ 24)
include hc hopen hpf hon hmany hrequest hback

omit hc hback in
theorem exec_doorbellConsume_bell (arm : Bool) (d : BitVec 24) : exec (.doorbellConsume .pf0 r arm d) s = .next (s.consumeBell r arm d.toNat) := by
  rw [exec_doorbellConsume, doorbell_ring hopen hpf hon hrequest, if_neg (by omega)]

omit hc hopen hpf hon hmany hrequest in
theorem bellBack_eq : s.bellBack r d.toNat = back := by
  rw [State.bellBack, Nat.mod_eq_of_lt d.isLt, hback]

theorem doorbellConsume_arms (arm : Bool) (h : back ≤ s.ringLag r) (hquiet : s.ringType r = 4 ∨ arm = false ∨ back = 0) :
    completes (.doorbellConsume .pf0 r arm d) s fun t =>
      t.get (Reg.RING_DONE r) = (s.get (Reg.RING_NEXT r) + 2 ^ 32 - back) % 2 ^ 32 ∧
      t.flag (Reg.RING_ARMED r) = (arm || s.flag (Reg.RING_ARMED r)) ∧ QuietFrame (words [Reg.RING_DONE r, Reg.RING_ARMED r]) s s t := by
  have hexec := exec_doorbellConsume_bell hopen hpf hon hmany hrequest arm d
  have hcanon := (writes_doneMoved s r back).canon hc
  rw [consumeBell_arms arm hc (bellBack_eq hback) h hquiet] at hexec
  refine ⟨_, hexec, ?_, ?_, (Writes.trans ((writes_doneMoved s r back).mono fun _ hk => words_mono (by simp) hk)
    ((writes_armedBy _ r arm).mono fun _ hk => words_mono (by simp) hk)).quietFrame hc⟩
  · rw [(writes_armedBy _ r arm).within.get_eq_low hcanon (show 31 < 32 by decide) (by rw [Bool.eq_false_iff]; simp [words]), done_doneMoved hc]
  · rw [flag_armedBy hcanon, armed_doneMoved hc]

theorem doorbellConsume_notifies (h : back ≤ s.ringLag r) (htype : s.ringType r = 3) (hmore : back ≠ 0) :
    completes (.doorbellConsume .pf0 r true d) s fun t =>
      t.get (Reg.RING_DONE r) = (s.get (Reg.RING_NEXT r) + 2 ^ 32 - back) % 2 ^ 32 ∧
      t.flag (Reg.RING_ARMED r) = false ∧ postedAs s t ⟨12, 3, 0, .ring r, payload [(17, r), (32, s.get (Reg.RING_NEXT r))]⟩ ∧
      NoisyFrame (words [Reg.RING_DONE r, Reg.RING_ARMED r]) s s t := by
  have hexec := exec_doorbellConsume_bell hopen hpf hon hmany hrequest true d
  have hcanon := (writes_doneMoved s r back).canon hc
  have hfunc : (s.doneMoved r back).ringFunc r = 0 := by
    rw [State.ringFunc, State.ringOwner, (writes_doneMoved s r back).within.get_eq_low hc (show 16 * (r.val % 2) + 15 < 32 by omega)]
    · exact ringFunc_pf0 hpf
    · have hr := r.isLt
      rw [Bool.eq_false_iff]
      simp [words, ringOwnerField]
      omega
  have hevent : (s.doneMoved r back).completeNotice r = ⟨12, 3, 0, .ring r, payload [(17, r), (32, s.get (Reg.RING_NEXT r))]⟩ := by
    rw [State.completeNotice, hfunc, next_doneMoved hc]
  have hwrites : Writes (words [Reg.RING_DONE r, Reg.RING_ARMED r]) s ((s.doneMoved r back).put (Reg.RING_ARMED r) 0) :=
    writes_put ((writes_doneMoved s r back).mono fun _ hk => words_mono (by simp) hk) (words_key (f := Reg.RING_ARMED r) (by simp))
      (.inl (show 30 < 32 by decide))
  have hlost : ∀ i : Nat, words [Reg.QE_ARB_LOST] (0x0C400000 + i + 64 * r.val) = false := fun i => by
    rw [Bool.eq_false_iff]; simp [words]; omega
  have hhigh : ∀ i : Nat, words [Reg.QE_ARB_LOST] (0x0C400000 + i + 64 * r.val + 4) = false := fun i => by
    rw [Bool.eq_false_iff]; simp [words]; omega
  rw [consumeBell_notifies hc (bellBack_eq hback) h htype hmore, notify_complete, hevent] at hexec
  refine ⟨_, hexec, ?_, ?_, postedAs_raiseEvent (by rw [hwrites.rest]) _, noisyFrame_raiseEvent hc hwrites _⟩
  · rw [get_raiseEvent (canon_put hcanon) _ (hlost 0x28) (hhigh 0x28),
      get_put_ne hcanon (show 30 < 32 by decide) (by show 0x0C400028 + 64 * r.val ≠ 0x0C400020 + 64 * r.val; omega) (.inl (show 31 < 32 by decide)),
      done_doneMoved hc]
  · rw [State.flag, get_raiseEvent (canon_put hcanon) _ (hlost 0x20) (hhigh 0x20), get_put_zero hcanon (ok_armed r)]
    rfl

theorem doorbellConsume_discards (arm : Bool) (h : s.ringLag r < back) :
    completes (.doorbellConsume .pf0 r arm d) s fun t => t.get Reg.QE_DB_DISCARDED = (s.get Reg.QE_DB_DISCARDED + 1) % 2 ^ 64 ∧
      NoisyFrame (words [Reg.QE_DB_DISCARDED]) s { s with free := s.free + 1 } t := by
  have hexec := exec_doorbellConsume_bell hopen hpf hon hmany hrequest arm d
  rw [consumeBell_discards arm (bellBack_eq hback) h] at hexec
  have hcount : Writes (words [Reg.QE_DB_DISCARDED]) ({ s with free := s.free + 1 } : State)
      (({ s with free := s.free + 1 } : State).bump Reg.QE_DB_DISCARDED) := writes_bump (Writes.refl _) (by decide) (.inr (by decide))
  refine ⟨_, hexec, ?_, ?_⟩
  · rw [get_ringError (hcount.canon (by exact hc)) _ _ _ (by decide) (by decide), State.bump, get_put_same (by exact hc) (by decide)]
    rfl
  · have hwithin : Within (fun k => words [Reg.QE_DB_DISCARDED] k || words [Reg.QE_ARB_LOST] k) s
        (({ s with free := s.free + 1 } : State).bump Reg.QE_DB_DISCARDED) :=
      Within.trans (b := { s with free := s.free + 1 }) (within_same (Within.refl s) rfl rfl rfl)
        (hcount.within.mono (more := fun k => words [Reg.QE_DB_DISCARDED] k || words [Reg.QE_ARB_LOST] k) fun k hk => by simp only [hk, Bool.true_or])
    exact noisyFrame_of_bare (u := { s with free := s.free + 1 }) hc (within_ringError hwithin (fun k hk => by simp only [hk, Bool.or_true]) _ _ _)
      ((bare_ringError _ _ _ _).trans hcount.bare)

end

/-! ## Turns (R386) -/

/-- The arbiter's pointer has passed a ring. -/
def State.turnTaken (s : State) (r : Nat) : State := { s with qe := { s.qe with ptr := r + 1 } }

section
variable {s : State} {r : Nat} (w : List Walk8)

theorem turnTaken_get (s : State) (r : Nat) (f : Field) : (s.turnTaken r).get f = s.get f := rfl
theorem turnTaken_ring (s : State) (r q : Nat) : (s.turnTaken r).ring q = s.ring q := rfl
theorem turnTaken_out (s : State) (r : Nat) : (s.turnTaken r).out = s.out := rfl
theorem turnTaken_newTag (s : State) (r : Nat) : (s.turnTaken r).newTag = s.newTag := rfl
theorem turnTaken_direct (s : State) (r : Nat) : (s.turnTaken r).direct = s.direct := rfl
theorem walking_newTag (s : State) : (s.walking w).newTag = s.newTag := rfl
theorem walking_ptr (s : State) : (s.walking w).qe.ptr = s.qe.ptr := rfl

theorem exec_wrrTurn (hrun : s.running .qe = true) {credit burst : Nat} (hturn : s.turnRing = some (r, credit, burst))
    (hone : min burst credit = 1) : exec (.wrrTurn w) s = .next ((((s.turnTaken r).walking w).startFetch r 1 1).walking []) := by
  have he : exec (.wrrTurn w) s = execWrrTurn w s := rfl
  rw [he]
  unfold execWrrTurn
  rw [hrun]
  simp only [hturn, Option.isNone_some, Bool.not_true, Bool.false_eq_true, if_false, hone, withWalks_eq, State.turnTaken]

theorem wrrTurn_fetches (hrun : s.running .qe = true) {credit burst : Nat} (hturn : s.turnRing = some (r, credit, burst))
    (hone : min burst credit = 1) (hd : Direct s) (hready : s.tagReady = true) (hslot : s.slotReady r (s.get (Reg.RING_NEXT r)) = true) :
    completes (.wrrTurn w) s fun t => t.qe.ptr = r + 1 ∧ t.ring r = (s.ring r).fetches 1 1 ∧
      t.out = .dmaRead 0 (s.slotAddr r (s.get (Reg.RING_NEXT r))) (entryBytes (s.ringType r)) s.newTag false :: s.out := by
  have hexec := exec_wrrTurn w hrun hturn hone
  have hdirect : Direct ((s.turnTaken r).walking w) := Direct.walking w (direct_iff.mp ((turnTaken_direct s r).trans (direct_iff.mpr hd)))
  rw [startFetch_one hdirect (by exact hready) (by exact hslot)] at hexec
  have hsame : SameRing r s ((s.turnTaken r).walking w) := sameRing_of_regs rfl
  refine ⟨_, hexec, ?_, ?_, ?_⟩
  · rw [walking_ptr, entryAsked_ptr]
    rfl
  · rw [walking_ring, entryAsked_ring, walking_ring, turnTaken_ring]
  · rw [walking_out, entryAsked_out, hsame.slotAddr, hsame.type, walking_get, turnTaken_get, walking_newTag, turnTaken_newTag, walking_out,
      turnTaken_out]

theorem wrrTurn_newRound (hrun : s.running .qe = true) (hnone : s.turnRing = none) (hround : s.newRound.turnRing = none) :
    completes (.wrrTurn w) s fun t => t = s.newRound := by
  have he : exec (.wrrTurn w) s = execWrrTurn w s := rfl
  refine ⟨_, ?_, rfl⟩
  rw [he]
  unfold execWrrTurn
  rw [hrun]
  simp only [hnone, hround, Option.isNone_none, Bool.not_true, Bool.false_eq_true, if_false, if_true]

end

/-! ## Entries that come back (R382) -/

section
variable {s : State} {r : Fin 131072} {e : Bytes} {tick : Nat} (w : List Walk8)

theorem exec_descriptorFetch (hrun : s.running .qe = true) (hon : s.ringOn r = true) (hmay : s.mayDma (s.ringFunc r) = true)
    (hfetching : (s.ring r).fetching = true) :
    exec (.descriptorFetch r [(some e, tick)] w) s = .next (((s.walking w).fetchOne r (some e) tick).walking []) := by
  have he : exec (.descriptorFetch r [(some e, tick)] w) s = execDescriptorFetch r [(some e, tick)] w s := rfl
  rw [he]
  unfold execDescriptorFetch
  dsimp only
  rw [hrun, hon, hmay, if_neg (by decide), withWalks_eq, walking_ring, hfetching, if_neg (by simp)]
  rfl

/-- The entry of a TX ring as it is read. -/
def txEntry (e : Bytes) : Bytes := sliceB (e ++ zeros 64) 0 16

/-- The read that brought an entry is over. -/
def State.readBack (s : State) (r : Nat) : State := s.setRing r { s.ring r with ahead := (s.ring r).ahead - 1 }

theorem readBack_ring (s : State) (r : Nat) : (s.readBack r).ring r = { s.ring r with ahead := (s.ring r).ahead - 1 } := ring_setRing _ _ _

theorem readBack_get (s : State) (r : Nat) (f : Field) : (s.readBack r).get f = s.get f := rfl
theorem readBack_flag (s : State) (r : Nat) (f : Field) : (s.readBack r).flag f = s.flag f := rfl
theorem readBack_canon (s : State) (r : Nat) : (s.readBack r).canon = s.canon := rfl

/-- After an entry taken: a ring of the arbiter waits for its next turn where this one is over. -/
def State.turnOver (s : State) (r : Nat) : State := s.setRing r { s.ring r with fetching := false, ahead := 0, waiting := true }

section
variable (hfetching : (s.ring r).fetching = true) (htype : s.ringType r = 0) (hmedia : s.ringMedia r = false)
include hfetching htype

/-- An entry that software does not own yet ends the fetch. -/
theorem fetchOne_notOwned (hown : ownOf (txEntry e) ≠ s.phaseOf r (s.get (Reg.RING_NEXT r))) (hreread : s.flag (Reg.RING_REREAD r) = false) :
    s.fetchOne r (some e) tick = (s.readBack r).setRing r { s.ring r with fetching := false, turn := 0, ahead := 0, waiting := false } := by
  have hsame : SameRing r s (s.readBack r) := sameRing_of_regs rfl
  have htype' := hsame.type.trans htype
  have howned : (ownOf (txEntry e) == (s.readBack r).phaseOf r ((s.readBack r).get (Reg.RING_NEXT r))) = false := by
    rw [hsame.phaseOf, readBack_get]
    exact beq_eq_false_iff_ne.mpr hown
  have hreread' : (s.readBack r).flag (Reg.RING_REREAD r) = false := (readBack_flag s r _).trans hreread
  have hring := readBack_ring s r
  unfold State.fetchOne
  dsimp only
  rw [if_neg (by rw [hfetching]; decide), show s.setRing r { s.ring r with ahead := (s.ring r).ahead - 1 } = s.readBack r from rfl]
  generalize s.readBack r = u at *
  rw [htype', show sliceB (e ++ zeros 64) 0 (entryBytes 0) = txEntry e from rfl]
  simp only [howned, hreread', hring, Bool.not_false, Bool.true_or, Bool.false_and, Bool.or_self, if_true, Bool.false_eq_true, if_false]

include hmedia

/-- An entry that software owns is taken; it was the turn's last. -/
theorem fetchOne_owned (hown : ownOf (txEntry e) = s.phaseOf r (s.get (Reg.RING_NEXT r)))
    (hturns : ((s.readBack r).takeEntry r (txEntry e)).arbitrated r = true)
    (hlast : (((s.readBack r).takeEntry r (txEntry e)).ring r).turn = 0) :
    s.fetchOne r (some e) tick = ((s.readBack r).takeEntry r (txEntry e)).turnOver r := by
  have hsame : SameRing r s (s.readBack r) := sameRing_of_regs rfl
  have htype' := hsame.type.trans htype
  have hmedia' := hsame.media.trans hmedia
  have hstops : (s.readBack r).submitStops r = false := by rw [State.submitStops, htype']; rfl
  have howned : (ownOf (txEntry e) == (s.readBack r).phaseOf r ((s.readBack r).get (Reg.RING_NEXT r))) = true := by
    rw [hsame.phaseOf, readBack_get]
    exact beq_iff_eq.mpr hown
  unfold State.fetchOne
  dsimp only
  rw [if_neg (by rw [hfetching]; decide), show s.setRing r { s.ring r with ahead := (s.ring r).ahead - 1 } = s.readBack r from rfl]
  generalize s.readBack r = u at *
  rw [htype', show sliceB (e ++ zeros 64) 0 (entryBytes 0) = txEntry e from rfl]
  simp only [howned, hstops, hmedia', hturns, hlast, Bool.not_true, Bool.or_self, Bool.and_false, Bool.false_and, Bool.false_eq_true, if_false,
    decide_true, Bool.and_self, if_true, State.turnOver]

end

/-- A sound entry of a TX ring is taken. -/
def State.txTaken (s : State) (r : Nat) (e : Bytes) : State :=
  { s.setRing r { s.ring r with turn := (s.ring r).turn - 1, taken := (s.ring r).taken ++ [⟨s.get (Reg.RING_NEXT r), e, false⟩] } with
    qe := { (s.setRing r { s.ring r with turn := (s.ring r).turn - 1, taken := (s.ring r).taken ++ [⟨s.get (Reg.RING_NEXT r), e, false⟩] }).qe with
      credits := s.qe.credits.map (fun c => if c.1 = r then (c.1, c.2.1 - 1, c.2.2) else c) } }

theorem takeEntry_sound (hc : s.canon = true) {r : Nat} {e : Bytes} (htype : s.ringType r = 0) (hgood : badEntry 0 e = false) :
    s.takeEntry r e = (s.txTaken r e).setNext r (s.get (Reg.RING_NEXT r) + 1) := by
  have htype' : ((s.txTaken r e).setNext r (s.get (Reg.RING_NEXT r) + 1)).ringType r = 0 :=
    ((writes_setNext (s.txTaken r e) r (s.get (Reg.RING_NEXT r) + 1)).within.get_eq_low (by exact hc) (show 29 < 32 by decide)
      (by rw [Bool.eq_false_iff]; simp [words])).trans htype
  unfold State.takeEntry
  dsimp only
  rw [htype, hgood, if_neg Bool.false_ne_true]
  change ((s.txTaken r e).setNext r (s.get (Reg.RING_NEXT r) + 1)).when
    (((s.txTaken r e).setNext r (s.get (Reg.RING_NEXT r) + 1)).ringType r == 2) State.trackTake = _
  rw [htype', State.when, if_neg (by decide)]

theorem txTaken_ring (s : State) (r : Nat) (e : Bytes) : (s.txTaken r e).ring r =
    { s.ring r with turn := (s.ring r).turn - 1, taken := (s.ring r).taken ++ [⟨s.get (Reg.RING_NEXT r), e, false⟩] } := ring_setRing _ _ _

theorem txTaken_canon (s : State) (r : Nat) (e : Bytes) : (s.txTaken r e).canon = s.canon := rfl
theorem txTaken_regs (s : State) (r : Nat) (e : Bytes) : (s.txTaken r e).regs = s.regs := rfl

theorem sameRing_setNext (hc : s.canon = true) (r q : Nat) : SameRing r s (s.setNext r q) :=
  (writes_setNext s r q).within.sameRing hc fun k hk => by
    rw [Bool.eq_false_iff]
    simp only [ringWord, ringOwnerField, words, inRange, List.any_cons, List.any_nil, Bool.or_false, Bool.or_eq_true, Bool.and_eq_true,
      beq_iff_eq, decide_eq_true_eq, ne_eq] at hk ⊢
    omega

section
variable (hc : s.canon = true) (hrun : s.running .qe = true) (hon : s.ringOn r = true) (hmay : s.mayDma (s.ringFunc r) = true)
  (htype : s.ringType r = 0) (hmedia : s.ringMedia r = false) (hfetching : (s.ring r).fetching = true)
include hc hrun hon hmay htype hmedia hfetching

theorem descriptorFetch_taken (hown : ownOf (txEntry e) = s.phaseOf r (s.get (Reg.RING_NEXT r))) (hgood : badEntry 0 (txEntry e) = false)
    (hlast : (s.ring r).turn = 1) : completes (.descriptorFetch r [(some e, tick)] w) s fun t =>
      (t.ring r).taken = (s.ring r).taken ++ [⟨s.get (Reg.RING_NEXT r), txEntry e, false⟩] ∧ (t.ring r).fetching = false ∧
      (t.ring r).waiting = true ∧ t.get (Reg.RING_NEXT r) = (s.get (Reg.RING_NEXT r) + 1) % 2 ^ 32 ∧
      QuietFrame (words [Reg.RING_NEXT r, Reg.RING_PHASE r]) s
        { s.walking [] with qe := { s.qe with rings := t.qe.rings, credits := t.qe.credits } } t := by
  have hexec := exec_descriptorFetch (e := e) (tick := tick) w hrun hon hmay hfetching
  have htake := takeEntry_sound (s := (s.walking w).readBack r) ((readBack_canon _ _).trans ((walking_canon w s).trans hc)) (e := txEntry e) (by exact htype) hgood
  have hsame : SameRing r s (((s.walking w).readBack r).txTaken r (txEntry e)) := sameRing_of_regs rfl
  have hring : (((s.walking w).readBack r).txTaken r (txEntry e)).ring r = { s.ring r with
      turn := (s.ring r).turn - 1, ahead := (s.ring r).ahead - 1
      taken := (s.ring r).taken ++ [⟨s.get (Reg.RING_NEXT r), txEntry e, false⟩] } := by
    rw [txTaken_ring, readBack_ring, readBack_get, walking_ring, walking_get]
  have hcanon : (((s.walking w).readBack r).txTaken r (txEntry e)).canon = true :=
    (txTaken_canon _ _ _).trans ((readBack_canon _ _).trans ((walking_canon w s).trans hc))
  have hregs : (((s.walking w).readBack r).txTaken r (txEntry e)).regs = s.regs := txTaken_regs _ _ _
  have hrest : ((s.walking w).readBack r).txTaken r (txEntry e) = { s.walking w with
      qe := { s.qe with rings := (((s.walking w).readBack r).txTaken r (txEntry e)).qe.rings
                        credits := (((s.walking w).readBack r).txTaken r (txEntry e)).qe.credits } } := rfl
  rw [readBack_get, walking_get] at htake
  have hfetch := fetchOne_owned (s := s.walking w) (tick := tick) hfetching htype hmedia
    (hown.trans (by rw [walking_get, walking_phaseOf]))
  rw [htake] at hfetch
  generalize ((s.walking w).readBack r).txTaken r (txEntry e) = u at hsame hring hcanon hregs hrest hfetch
  have hwrites := writes_setNext u r (s.get (Reg.RING_NEXT r) + 1)
  have hnext := next_setNext hcanon r (s.get (Reg.RING_NEXT r) + 1)
  have hring' := (hwrites.ring r).trans hring
  have hturns := (hsame.trans (sameRing_setNext hcanon r (s.get (Reg.RING_NEXT r) + 1))).arbitrated
  rw [State.arbitrated, State.arbitrated, htype, hmedia] at hturns
  rw [hfetch hturns (by rw [hring', hlast])] at hexec
  generalize u.setNext r (s.get (Reg.RING_NEXT r) + 1) = t at *
  refine ⟨_, hexec, ?_, ?_, ?_, ?_, ⟨fun k hk => ?_, ?_⟩⟩
  · rw [walking_ring, State.turnOver, ring_setRing, hring']
  · rw [walking_ring, State.turnOver, ring_setRing]
  · rw [walking_ring, State.turnOver, ring_setRing]
  · rw [walking_get, State.turnOver, setRing_get, hnext]
  · exact (hwrites.within.words hcanon k hk).trans (rd_congr hregs k)
  · rw [hwrites.rest, hrest]
    rfl

omit hc hmedia in
theorem descriptorFetch_notOwned (hown : ownOf (txEntry e) ≠ s.phaseOf r (s.get (Reg.RING_NEXT r)))
    (hreread : s.flag (Reg.RING_REREAD r) = false) : completes (.descriptorFetch r [(some e, tick)] w) s fun t =>
      t.ring r = { s.ring r with fetching := false, turn := 0, ahead := 0, waiting := false } ∧
      t = { s.walking [] with qe := { s.qe with rings := t.qe.rings } } := by
  have hexec := exec_descriptorFetch (e := e) (tick := tick) w hrun hon hmay hfetching
  rw [fetchOne_notOwned (s := s.walking w) hfetching htype (by rw [walking_get, walking_phaseOf]; exact hown) hreread] at hexec
  refine ⟨_, hexec, ?_, ?_⟩
  · rw [walking_ring, ring_setRing, walking_ring]
  · rfl

end

end

/-- Settles O42: a doorbell of a fetched ring reads again, waits for a turn or asks for the next entry, and one of a ring that the host reads
moves DONE or is discarded; a turn and an entry that came back go on with the fetch. -/
theorem doorbellCommandsComplete : Obligations.DoorbellCommandsComplete := by
  unfold Obligations.DoorbellCommandsComplete
  intro s hc hrun
  refine ⟨fun hshows hserved r arm v w x hx hrequest => ?_,
    fun r credit burst w hturn hone hd hready hslot => wrrTurn_fetches w hrun hturn hone (direct_iff.mp hd) hready hslot,
    fun w hnone hround => wrrTurn_newRound w hrun hnone hround, fun r e e' tick q w hq hon hmay htype hmedia hfetching he => ?_⟩
  · have hopen : BellOpen s := ⟨hrun, hshows, hserved⟩
    subst hx
    refine ⟨doorbellFetch_discarded w arm v hc hopen, fun hslot hon hfew => ?_, fun d back prod hprod hback hpf hon hmany => ?_⟩
    · have hpf := (slotReady_iff.mp hslot).1
      exact ⟨doorbellFetch_rereads w arm v hc hopen hpf hon hfew hrequest, doorbellFetch_waits w arm v hc hopen hpf hon hfew hrequest,
        fun hidle hturns hd hready => doorbellFetch_reads w arm v hc hopen hpf hon hfew hrequest hidle hturns (direct_iff.mp hd) hready hslot⟩
    · subst hprod
      exact ⟨doorbellConsume_arms hc hopen hpf hon hmany hrequest hback arm, doorbellConsume_notifies hc hopen hpf hon hmany hrequest hback,
        doorbellConsume_discards hc hopen hpf hon hmany hrequest hback arm⟩
  · subst hq he
    exact ⟨descriptorFetch_taken w hc hrun hon hmay htype hmedia hfetching,
      descriptorFetch_notOwned w hrun hon hmay htype hfetching⟩

end Sys2Proof.Machine
end

section
/-! PROOFS. The work of PF0's rings (R376 to R379, R384, R385, R387). -/

namespace Sys2Proof.Machine

/-! ## The distributor keeps the frames that wait (R128, R129) -/

/-- What the distributor may do to the heads that wait: it numbers them and gives them pipelines. -/
structure Pumped (s t : State) : Prop where
  rest : t = { s with regs := t.regs, pcu := t.pcu }
  frames : t.pcu.queue.map (·.frame) = s.pcu.queue.map (·.frame)

section
variable {s t u : State}

theorem Pumped.refl (s : State) : Pumped s s := ⟨rfl, rfl⟩

theorem Pumped.trans (h : Pumped s t) (g : Pumped t u) : Pumped s u := ⟨by rw [g.rest, h.rest], g.frames.trans h.frames⟩

theorem map_set_same {α β : Type} (f : α → β) {l : List α} {i : Nat} {a b : α} (ha : l[i]? = some a) (hb : f b = f a) :
    (l.set i b).map f = l.map f := by
  obtain ⟨hi, rfl⟩ := List.getElem?_eq_some_iff.mp ha
  rw [List.map_set, hb, ← List.getElem_map f (h := by rw [List.length_map]; exact hi), List.set_getElem_self]

/-- A head with its number and pipeline. -/
def State.headAt (s : State) (p : Nat) (h : HeadIn) : HeadIn := { h with pipe := p, seq := Assoc.getD s.pcu.nextSeq h.src 0 }

/-- A head is numbered and given its pipeline. -/
def State.headPlaced (s : State) (i p : Nat) (h : HeadIn) : State :=
  { s with pcu := { s.pcu with
      queue := s.pcu.queue.set i (s.headAt p h)
      nextSeq := Assoc.set s.pcu.nextSeq h.src ((Assoc.getD s.pcu.nextSeq h.src 0 + 1) % 65536)
      pointer := Assoc.set s.pcu.pointer h.src ((p + 1) % 4) } }

theorem pumped_headPlaced {i : Nat} {h : HeadIn} (hi : s.pcu.queue[i]? = some h) (p : Nat) : Pumped s (s.headPlaced i p h) :=
  ⟨rfl, map_set_same (b := s.headAt p h) (·.frame) hi rfl⟩

theorem pumped_put (s : State) (f : Field) (v : Nat) : Pumped s (s.put f v) := by
  rw [put_rest]
  exact ⟨rfl, rfl⟩

theorem pumped_pumpOne (s : State) (i : Nat) : Pumped s (s.pumpOne i) := by
  unfold State.pumpOne
  split
  · exact Pumped.refl s
  · rename_i h hi
    split
    · exact Pumped.refl s
    · split
      · exact Pumped.refl s
      · rename_i p _
        refine (pumped_headPlaced hi p).trans ?_
        change Pumped _ ((s.headPlaced i p h).when _ _)
        unfold State.when
        split
        · exact pumped_put _ _ _
        · exact Pumped.refl _

theorem pumped_foldl (l : List Nat) (s : State) : Pumped s (l.foldl (fun s i => s.pumpOne i) s) := by
  induction l generalizing s with
  | nil => exact Pumped.refl s
  | cons i l ih => exact (pumped_pumpOne s i).trans (ih _)

theorem pumped_pump (s : State) : Pumped s s.pump := pumped_foldl _ s

/-- A frame joins those that wait. -/
theorem distribute_frames (hqueue : s.pcu.queue = []) (h : HeadIn) (home : Nat) :
    (s.distribute h home).pcu.queue.map (·.frame) = [h.frame] := by
  unfold State.distribute
  rw [(pumped_pump _).frames, hqueue]
  split
  all_goals rfl

theorem distribute_rest (s : State) (h : HeadIn) (home : Nat) :
    s.distribute h home = { s with regs := (s.distribute h home).regs, pcu := (s.distribute h home).pcu } := by
  have hpump := (pumped_pump ({ s with pcu := { s.pcu with
    queue := s.pcu.queue ++ [if h.media then { h with pipe := home } else { h with pipe := 4 }] } } : State)).rest
  unfold State.distribute
  generalize State.pump _ = t at hpump
  rw [hpump]

theorem distribute_out (s : State) (h : HeadIn) (home : Nat) : (s.distribute h home).out = s.out := by rw [distribute_rest]
theorem distribute_qe (s : State) (h : HeadIn) (home : Nat) : (s.distribute h home).qe = s.qe := by rw [distribute_rest]
theorem distribute_ring (s : State) (h : HeadIn) (home r : Nat) : (s.distribute h home).ring r = s.ring r := by
  rw [State.ring, distribute_qe]; rfl

end

/-! ## Entries done -/

/-- The entries of a ring, that of sequence `q` done. -/
def takenDone (l : List Taken) (q : Nat) : List Taken := l.map (fun x => if x.seq = q then { x with done := true } else x)

section
variable {s : State} {r : Nat}

theorem entryDone_ring (s : State) (r q : Nat) : (s.entryDone r q).ring r = { s.ring r with taken := takenDone (s.ring r).taken q } :=
  ring_setRing _ _ _

theorem entryDone_out (s : State) (r q : Nat) : (s.entryDone r q).out = s.out := rfl
theorem entryDone_pcu (s : State) (r q : Nat) : (s.entryDone r q).pcu = s.pcu := rfl
theorem entryDone_get (s : State) (r q : Nat) (f : Field) : (s.entryDone r q).get f = s.get f := rfl
theorem entryDone_rd (s : State) (r q k : Nat) : (s.entryDone r q).rd k = s.rd k := rfl
theorem entryDone_rxWait (s : State) (r q : Nat) : (s.entryDone r q).qe.rxWait = s.qe.rxWait := rfl
theorem entryDone_rest (s : State) (r q : Nat) : s.entryDone r q = { s with qe := { s.qe with rings := (s.entryDone r q).qe.rings } } := rfl
theorem walking_qe (w : List Walk8) (s : State) : (s.walking w).qe = s.qe := rfl
theorem walking_pcu (w : List Walk8) (s : State) : (s.walking w).pcu = s.pcu := rfl
theorem walking_tagReady (w : List Walk8) (s : State) : (s.walking w).tagReady = s.tagReady := rfl
theorem walking_maxRead (w : List Walk8) (s : State) : (s.walking w).maxRead = s.maxRead := rfl
theorem walking_maxPayload (w : List Walk8) (s : State) : (s.walking w).maxPayload = s.maxPayload := rfl

end

/-! ## Frames read (R377) -/

/-- The oldest entry not yet read. -/
def State.unread (s : State) (r : Nat) : Option Taken :=
  (s.ring r).taken.find? (fun t => !t.done && !s.qe.mediaWait.any (fun m => m.1 == r && m.2.1 == t.seq && !m.2.2.2))

/-- A media packet read waits for its window. -/
def State.packetWaits (s : State) (r q : Nat) (l : Bytes) : State :=
  { s with qe := { s.qe with mediaWait := s.qe.mediaWait ++ [(r, q, l, false)] } }

/-- The head of a host frame. -/
def State.hostHead (s : State) (k : Taken) (l : Bytes) : HeadIn :=
  ⟨33, 0, l, l.length - 4 * tagCount l, 0, 0, false, true, false, s.looksMedia l, none, some (bits (leAt k.entry 8 8) 56 3), 0, 0, .none⟩

section
variable {s : State} {r : Fin 131072} {k : Taken} {l : Bytes} (w : List Walk8)

section
variable {u : State} (hrun : s.running .qe = true) (hd : Direct s) (hpf : s.ringOwner r = some 0) (hnext : s.unread r = some k)
  (htype : s.ringType r = 0) (hkept : (s.ring r).abandoned = false)
  (hread : (s.walking w).dmaRead (.payload r k.seq) 0 (leAt k.entry 0 8) (lenOf k.entry) = (true, u))
include hrun hd hpf hnext htype hkept hread

theorem exec_txFrameRead_frame (hmedia : u.ringMedia r = false) : exec (.txFrameRead r (some l) w) s = .next
    (((u.entryDone r k.seq).distribute ((u.entryDone r k.seq).hostHead k (sliceB (l ++ zeros 9216) 0 (lenOf k.entry)))
      ((u.entryDone r k.seq).homePipe 1 r)).walking []) := by
  have he : exec (.txFrameRead r (some l) w) s = execTxFrameRead r (some l) w s := rfl
  rw [State.unread] at hnext
  rw [he]
  unfold execTxFrameRead
  simp only [hnext, hrun, htype, hkept, ringFunc_pf0 hpf, hd.mayDma, Bool.not_true, bne_self_eq_false, Bool.or_self, Bool.false_eq_true, if_false,
    withWalks_eq, hread, hmedia]
  rfl

theorem exec_txFrameRead_media (hmedia : u.ringMedia r = true) : exec (.txFrameRead r (some l) w) s = .next
    (((u.packetWaits r k.seq (sliceB (l ++ zeros 9216) 0 (lenOf k.entry))).mirror r k.seq
      (sliceB (l ++ zeros 9216) 0 (lenOf k.entry))).walking []) := by
  have he : exec (.txFrameRead r (some l) w) s = execTxFrameRead r (some l) w s := rfl
  rw [State.unread] at hnext
  rw [he]
  unfold execTxFrameRead
  simp only [hnext, hrun, htype, hkept, ringFunc_pf0 hpf, hd.mayDma, Bool.not_true, bne_self_eq_false, Bool.or_self, Bool.false_eq_true, if_false,
    withWalks_eq, hread, hmedia, if_true]
  rfl

end

theorem readSent_get (hc : s.canon = true) (use : ReadUse) (a n : Nat) {f : Field} (hlo : f.key / 0x1000000 ≠ 10) (hword : f.hi < 32) :
    (s.readSent use a n).get f = s.get f :=
  (readSent_within use a n s).get_eq_low hc hword (by rw [Bool.eq_false_iff]; simp [words]; omega)

theorem readSent_sameRing (hc : s.canon = true) (use : ReadUse) (a n : Nat) (r : Fin 131072) : SameRing r s (s.readSent use a n) :=
  (readSent_within use a n s).sameRing hc fun k hk => by
    have hr := r.isLt
    rw [Bool.eq_false_iff]
    simp only [ringWord, ringOwnerField, words, inRange, List.any_cons, List.any_nil, Bool.or_false, Bool.or_eq_true, Bool.and_eq_true,
      beq_iff_eq, decide_eq_true_eq, ne_eq] at hk ⊢
    omega

theorem packetWaits_pairRole (s : State) (r q : Nat) (l : Bytes) : (s.packetWaits r q l).pairRole = s.pairRole := rfl
theorem packetWaits_out (s : State) (r q : Nat) (l : Bytes) : (s.packetWaits r q l).out = s.out := rfl
theorem packetWaits_pcu (s : State) (r q : Nat) (l : Bytes) : (s.packetWaits r q l).pcu = s.pcu := rfl
theorem packetWaits_rings (s : State) (r q : Nat) (l : Bytes) : (s.packetWaits r q l).qe.rings = s.qe.rings := rfl
theorem packetWaits_mediaWait (s : State) (r q : Nat) (l : Bytes) : (s.packetWaits r q l).qe.mediaWait = s.qe.mediaWait ++ [(r, q, l, false)] := rfl

theorem mirror_single (h : s.pairRole = false) (r q : Nat) (l : Bytes) : s.mirror r q l = s := by
  rw [State.mirror, h, Bool.false_and, State.when, if_neg Bool.false_ne_true]

section
variable (hc : s.canon = true) (hrun : s.running .qe = true) (hd : Direct s) (hpf : s.ringOwner r = some 0) (hnext : s.unread r = some k)
  (htype : s.ringType r = 0) (hkept : (s.ring r).abandoned = false) (hpage : onePage (leAt k.entry 0 8) (lenOf k.entry) = true)
  (hpos : 0 < lenOf k.entry) (hmax : lenOf k.entry ≤ s.maxRead) (hready : s.tagReady = true)
include hc hrun hd hpf hnext htype hkept hpage hpos hmax hready

theorem txFrameRead_frame (hqueue : s.pcu.queue = []) (hmedia : s.ringMedia r = false) : completes (.txFrameRead r (some l) w) s fun t =>
    t.out = .dmaRead 0 (leAt k.entry 0 8) (lenOf k.entry) s.newTag (s.flag cfgRelaxed) :: s.out ∧
    (t.ring r).taken = takenDone (s.ring r).taken k.seq ∧
    t.pcu.queue.map (·.frame) = [sliceB (l ++ zeros 9216) 0 (lenOf k.entry)] := by
  have hread := (hd.walking w).dmaRead ((walking_tagReady w s).trans hready) (.payload r k.seq) hpos hpage (by rw [walking_maxRead]; exact hmax)
  have hmedia' := (readSent_sameRing (s := s.walking w) hc (.payload r k.seq) (leAt k.entry 0 8) (lenOf k.entry) r).media.trans hmedia
  have hexec := exec_txFrameRead_frame (l := l) w hrun hd hpf hnext htype hkept hread hmedia'
  have hout := readSent_out (.payload r k.seq) (leAt k.entry 0 8) (lenOf k.entry) (s.walking w)
  have hring := readSent_ring (.payload r k.seq) (leAt k.entry 0 8) (lenOf k.entry) (s.walking w) r
  have hpcu := readSent_pcu (.payload r k.seq) (leAt k.entry 0 8) (lenOf k.entry) (s.walking w)
  generalize (s.walking w).readSent (.payload r k.seq) (leAt k.entry 0 8) (lenOf k.entry) = u at *
  refine ⟨_, hexec, ?_, ?_, ?_⟩
  · rw [walking_out, distribute_out, entryDone_out, hout, walking_newTag, walking_flag, walking_out]
    rfl
  · rw [walking_ring, distribute_ring, entryDone_ring, hring, walking_ring]
  · rw [walking_pcu, distribute_frames (by rw [entryDone_pcu, hpcu, walking_pcu, hqueue]), State.hostHead]

theorem txFrameRead_media (hsingle : s.pairRole = false) (hmedia : s.ringMedia r = true) : completes (.txFrameRead r (some l) w) s fun t =>
    t.out = .dmaRead 0 (leAt k.entry 0 8) (lenOf k.entry) s.newTag (s.flag cfgRelaxed) :: s.out ∧
    t.qe.mediaWait = s.qe.mediaWait ++ [(r.val, k.seq, sliceB (l ++ zeros 9216) 0 (lenOf k.entry), false)] ∧
    t.qe.rings = s.qe.rings ∧ t.pcu = s.pcu := by
  have hread := (hd.walking w).dmaRead ((walking_tagReady w s).trans hready) (.payload r k.seq) hpos hpage (by rw [walking_maxRead]; exact hmax)
  have hmedia' := (readSent_sameRing (s := s.walking w) hc (.payload r k.seq) (leAt k.entry 0 8) (lenOf k.entry) r).media.trans hmedia
  have hexec := exec_txFrameRead_media (l := l) w hrun hd hpf hnext htype hkept hread hmedia'
  have hout := readSent_out (.payload r k.seq) (leAt k.entry 0 8) (lenOf k.entry) (s.walking w)
  have hqe := readSent_qe (.payload r k.seq) (leAt k.entry 0 8) (lenOf k.entry) (s.walking w)
  have hpcu := readSent_pcu (.payload r k.seq) (leAt k.entry 0 8) (lenOf k.entry) (s.walking w)
  have hrole : ((s.walking w).readSent (.payload r k.seq) (leAt k.entry 0 8) (lenOf k.entry)).pairRole = false := by
    rw [State.pairRole, readSent_get (by exact hc) _ _ _ (by decide) (by decide), walking_get]
    exact hsingle
  generalize (s.walking w).readSent (.payload r k.seq) (leAt k.entry 0 8) (lenOf k.entry) = u at *
  rw [mirror_single (by rw [packetWaits_pairRole]; exact hrole)] at hexec
  refine ⟨_, hexec, ?_, ?_, ?_, ?_⟩
  · rw [walking_out, packetWaits_out, hout, walking_newTag, walking_flag, walking_out]
    rfl
  · rw [walking_qe, packetWaits_mediaWait, hqe, walking_qe]
  · rw [walking_qe, packetWaits_rings, hqe, walking_qe]
  · rw [walking_pcu, packetWaits_pcu, hpcu, walking_pcu]

end

end

/-! ## Media packets delivered (R387) -/

/-- A media packet waits no longer; an entry of its own ring is done. -/
def State.packetGone (s : State) (r : Nat) (m : Nat × Nat × Bytes × Bool) : State :=
  if m.2.2.2 then { s with qe := { s.qe with mediaWait := s.qe.mediaWait.erase m } }
  else ({ s with qe := { s.qe with mediaWait := s.qe.mediaWait.erase m } } : State).entryDone r m.2.1

/-- The head of a media packet. -/
def State.packetHead (s : State) (r : Nat) (m : Nat × Nat × Bytes × Bool) : HeadIn :=
  ⟨if m.2.2.2 then 32 else 33, s.ringFunc r, m.2.2.1, max 61 m.2.2.1.length, 0, 0, false, true, false, true, some r, none, 0, 0, .none⟩

section
variable {s : State} {r : Fin 131072} {m : Nat × Nat × Bytes × Bool} {o : Nat}

theorem packetGone_get (s : State) (r : Nat) (m : Nat × Nat × Bytes × Bool) (f : Field) : (s.packetGone r m).get f = s.get f := by
  unfold State.packetGone
  split
  · rfl
  · rfl

theorem packetGone_pcu (s : State) (r : Nat) (m : Nat × Nat × Bytes × Bool) : (s.packetGone r m).pcu = s.pcu := by
  unfold State.packetGone
  split
  · rfl
  · rfl

theorem packetGone_mediaWait (s : State) (r : Nat) (m : Nat × Nat × Bytes × Bool) : (s.packetGone r m).qe.mediaWait = s.qe.mediaWait.erase m := by
  unfold State.packetGone
  split
  · rfl
  · rfl

theorem packetGone_taken (s : State) (r : Nat) (m : Nat × Nat × Bytes × Bool) : ((s.packetGone r m).ring r).taken =
    (s.ring r).taken.map (fun x => if x.seq = m.2.1 ∧ m.2.2.2 = false then { x with done := true } else x) := by
  unfold State.packetGone
  split
  · rename_i hhedge
    simp only [hhedge, Bool.true_eq_false, and_false, if_false, List.map_id']
    rfl
  · rename_i hown
    rw [entryDone_ring]
    simp only [Bool.eq_false_of_not_eq_true hown, and_true]
    rfl

theorem exec_mediaTxDeliver (hrun : (s.moment o).running .qe = true)
    (hfind : (s.moment o).qe.mediaWait.find? (fun m => m.1 == r.val && (s.moment o).deliverable m) = some m)
    (hown : ((s.moment o).packetGone r m).ownPacket m = true) : exec (.mediaTxDeliver r o) s = .next
      (((s.moment o).packetGone r m).distribute (((s.moment o).packetGone r m).packetHead r m)
        (if m.2.2.2 then ((s.moment o).packetGone r m).hedgePipe else ((s.moment o).packetGone r m).homePipe 1 r)) := by
  have he : exec (.mediaTxDeliver r o) s = execMediaTxDeliver r o s := rfl
  rw [he]
  unfold execMediaTxDeliver
  generalize s.moment o = u at *
  simp only [hfind, hrun, Bool.not_true, Bool.false_eq_true, if_false]
  unfold State.packetGone at hown
  rw [if_neg (by rw [hown]; decide)]
  rfl

theorem mediaTxDeliver_delivers (hc : s.canon = true) (hrun : s.running .qe = true)
    (hfind : s.qe.mediaWait.find? (fun m => m.1 == r.val && (s.moment o).deliverable m) = some m)
    (hkind : s.get (Reg.FLOW_SRC_KIND (beAt m.2.2.1 2 2)) = 1) (hsrc : s.get (Reg.FLOW_SRC (beAt m.2.2.1 2 2)) = r.val)
    (hqueue : s.pcu.queue = []) : completes (.mediaTxDeliver r o) s fun t => t.qe.mediaWait = s.qe.mediaWait.erase m ∧
      (t.ring r).taken = (s.ring r).taken.map (fun x => if x.seq = m.2.1 ∧ m.2.2.2 = false then { x with done := true } else x) ∧
      t.pcu.queue.map (·.frame) = [m.2.2.1] := by
  have hm := List.find?_some hfind
  rw [Bool.and_eq_true, beq_iff_eq] at hm
  have hrest := (writes_moment s o).rest
  have hqe : (s.moment o).qe = s.qe := by rw [hrest]
  have hpcu : (s.moment o).pcu = s.pcu := by rw [hrest]
  have hring := (writes_moment s o).ring r
  have hown : ((s.moment o).packetGone r m).ownPacket m = true := by
    unfold State.ownPacket
    dsimp only
    rw [packetGone_get, packetGone_get, moment_get hc o (.inr (by show 0x02000000 ≤ 0x12000008 + 128 * beAt m.2.2.1 2 2; omega)),
      moment_get hc o (.inr (by show 0x02000000 ≤ 0x12000008 + 128 * beAt m.2.2.1 2 2; omega)), hkind, hsrc, hm.1, beq_self_eq_true, beq_self_eq_true]
    rfl
  have hrun' : (s.moment o).running .qe = true := by rw [State.running, moment_get hc o (.inr (by decide))]; exact hrun
  refine ⟨_, exec_mediaTxDeliver hrun' (by rw [hqe]; exact hfind) hown, ?_, ?_, ?_⟩
  · rw [distribute_qe, packetGone_mediaWait, hqe]
  · rw [distribute_ring, packetGone_taken, hring]
  · rw [distribute_frames (by rw [packetGone_pcu, hpcu, hqueue]), State.packetHead]

end

/-! ## HEAD and SUBMIT entries written (R384, R385) -/

section
variable {s : State} {r : Fin 131072} (w : List Walk8)

theorem writes_setDone (s : State) (r v : Nat) : Writes (words [Reg.RING_DONE r]) s (s.put (Reg.RING_DONE r) v) :=
  writes_put (Writes.refl s) (words_key (f := Reg.RING_DONE r) (by simp)) (.inl (show 31 < 32 by decide))

theorem done_setDone (hc : s.canon = true) (r v : Nat) : (s.put (Reg.RING_DONE r) v).get (Reg.RING_DONE r) = v % 2 ^ 32 :=
  get_put_same hc (ok_up (f := Reg.RING_DONE 0) (d := 64 * r) (by omega) (by decide))

theorem armed_setDone (hc : s.canon = true) (r v : Nat) : (s.put (Reg.RING_DONE r) v).flag (Reg.RING_ARMED r) = s.flag (Reg.RING_ARMED r) := by
  rw [State.flag, (writes_setDone s r v).within.get_eq_low hc (show 30 < 32 by decide) (by rw [Bool.eq_false_iff]; simp [words]), State.flag]

/-- HEAD leaves. -/
def State.headSent (s : State) (r head n : Nat) : State :=
  (s.setRing r { s.ring r with taken := (s.ring r).taken.drop n }).sendHost (.dma 0 (8 * s.get (Reg.RING_HEAD_ADDR r)) (toLE 8 head) false)

theorem publishHead_eq (hc : s.canon = true) (hd : Direct s) (hpf : s.ringFunc r = 0) {n head : Nat} (hn : n = doneCount (s.ring r).taken)
    (hhead : head = (s.get (Reg.RING_DONE r) + n) % 2 ^ 32) (haddr : 8 * s.get (Reg.RING_HEAD_ADDR r) < 2 ^ 48)
    (hunarmed : s.flag (Reg.RING_ARMED r) = false) : s.publishHead r = (s.headSent r head n).put (Reg.RING_DONE r) head := by
  have hwrite := Direct.dmaWrite (s := s.setRing r { s.ring r with taken := (s.ring r).taken.drop n })
    (direct_iff.mp ((setRing_direct s r _).trans (direct_iff.mpr hd))) (a := 8 * s.get (Reg.RING_HEAD_ADDR r)) (l := toLE 8 head)
    (List.ne_nil_of_length_pos (by rw [length_toLE]; decide)) (by rw [length_toLE, onePage_iff]; omega)
    (by rw [length_toLE]; exact (by decide : 8 ≤ 128).trans (le_maxPayload _))
  have harmed : ((s.headSent r head n).put (Reg.RING_DONE r) head).flag (Reg.RING_ARMED r) = false :=
    (armed_setDone (s := s.headSent r head n) hc r head).trans hunarmed
  unfold State.publishHead
  dsimp only
  rw [← hn, ← hhead]
  have hfunc : (s.setRing r { s.ring r with taken := (s.ring r).taken.drop n }).ringFunc r = 0 := hpf
  rw [hfunc, setRing_get, hwrite]
  unfold State.headSent at harmed ⊢
  dsimp only
  rw [harmed, State.when, if_neg Bool.false_ne_true]

theorem exec_headPublish (hrun : s.running .qe = true) (hfew : s.ringType r ≤ 1) (hkept : (s.ring r).abandoned = false)
    (hdone : doneCount (s.ring r).taken ≠ 0) (hmay : s.mayDma (s.ringFunc r) = true) :
    exec (.headPublish r w) s = .next (((s.walking w).publishHead r).walking []) := by
  have he : exec (.headPublish r w) s = execHeadPublish r w s := rfl
  rw [he]
  unfold execHeadPublish
  dsimp only
  rw [hrun, hkept, hmay, decide_eq_false (not_lt.mpr hfew), decide_eq_false hdone, withWalks_eq]
  rfl

theorem headPublish_publishes (hc : s.canon = true) (hrun : s.running .qe = true) (hd : Direct s) (hpf : s.ringOwner r = some 0)
    (hfew : s.ringType r ≤ 1) (hkept : (s.ring r).abandoned = false) {n head : Nat} (hn : n = doneCount (s.ring r).taken) (hpos : n ≠ 0)
    (hhead : head = (s.get (Reg.RING_DONE r) + n) % 2 ^ 32) (haddr : 8 * s.get (Reg.RING_HEAD_ADDR r) < 2 ^ 48)
    (hunarmed : s.flag (Reg.RING_ARMED r) = false) : completes (.headPublish r w) s fun t => t.get (Reg.RING_DONE r) = head ∧
      t.out = .dma 0 (8 * s.get (Reg.RING_HEAD_ADDR r)) (toLE 8 head) false :: s.out ∧ (t.ring r).taken = (s.ring r).taken.drop n ∧
      QuietFrame (words [Reg.RING_DONE r]) s { s.walking [] with
        qe := { s.qe with rings := t.qe.rings }, out := t.out, hiu := { s.hiu with fc := t.hiu.fc } } t := by
  have hexec := exec_headPublish w hrun hfew hkept (by rw [← hn]; exact hpos) (by rw [ringFunc_pf0 hpf]; exact hd.mayDma)
  rw [publishHead_eq (s := s.walking w) hc (hd.walking w) (by rw [walking_ringFunc, ringFunc_pf0 hpf]) (n := n) (head := head)
    (by rw [walking_ring]; exact hn) (by rw [walking_get]; exact hhead) (by rw [walking_get]; exact haddr) (by rw [walking_flag]; exact hunarmed)]
    at hexec
  have hwrites := writes_setDone ((s.walking w).headSent r head n) r head
  have hcanon : ((s.walking w).headSent r head n).canon = true := hc
  have hregs : ((s.walking w).headSent r head n).regs = s.regs := rfl
  have hout : ((s.walking w).headSent r head n).out = .dma 0 (8 * s.get (Reg.RING_HEAD_ADDR r)) (toLE 8 head) false :: s.out := rfl
  have hring : ((s.walking w).headSent r head n).ring r = { s.ring r with taken := (s.ring r).taken.drop n } := by
    rw [State.headSent, sendHost_ring, ring_setRing, walking_ring]
  have hrest : (s.walking w).headSent r head n = { s.walking w with
      qe := { s.qe with rings := ((s.walking w).headSent r head n).qe.rings }, out := ((s.walking w).headSent r head n).out
      hiu := { s.hiu with fc := ((s.walking w).headSent r head n).hiu.fc } } := rfl
  have hdone := done_setDone hcanon r head
  generalize (s.walking w).headSent r head n = u at *
  refine ⟨_, hexec, ?_, ?_, ?_, ⟨fun k hk => ?_, ?_⟩⟩
  · rw [walking_get, hdone, hhead, Nat.mod_mod]
  · rw [walking_out, State.put_out, hout]
  · rw [walking_ring, ring_put, hring]
  · exact (hwrites.within.words hcanon k hk).trans (rd_congr hregs k)
  · rw [hwrites.rest, hrest]
    rfl

/-- A completed command's entry is overwritten. -/
def State.entryBack (s : State) (r : Nat) (k : Taken) : State :=
  (s.setRing r { s.ring r with taken := (s.ring r).taken.erase k }).entrySent r k.seq k.entry

section
variable {k : Taken}

theorem exec_submitComplete (hrun : s.running .qe = true) (htype : s.ringType r = 2) (hkept : (s.ring r).abandoned = false)
    (hfind : (s.ring r).taken.find? (·.done) = some k) (hmay : s.mayDma (s.ringFunc r) = true) {u : State}
    (hwrite : ((s.walking w).setRing r { s.ring r with taken := (s.ring r).taken.erase k }).writeEntry r k.seq k.entry = u)
    (hunarmed : (u.put (Reg.RING_DONE r) (u.get (Reg.RING_DONE r) + 1)).flag (Reg.RING_ARMED r) = false) :
    exec (.submitComplete r w) s = .next ((u.put (Reg.RING_DONE r) (u.get (Reg.RING_DONE r) + 1)).walking []) := by
  have he : exec (.submitComplete r w) s = execSubmitComplete r w s := rfl
  rw [he]
  unfold execSubmitComplete
  simp only [hfind]
  rw [if_neg (by rw [hrun, htype, hkept, hmay]; decide), withWalks_eq]
  simp only [hwrite, hunarmed, State.when, Bool.false_eq_true, if_false]

theorem submitComplete_completes (hc : s.canon = true) (hrun : s.running .qe = true) (hd : Direct s) (hpf : s.ringOwner r = some 0)
    (htype : s.ringType r = 2) (hkept : (s.ring r).abandoned = false) (hfind : (s.ring r).taken.find? (·.done) = some k)
    (hlen : k.entry.length = 64) {a : Nat} (ha : a = s.slotAddr r k.seq) (hpage : onePage a 64 = true)
    (hunarmed : s.flag (Reg.RING_ARMED r) = false) : completes (.submitComplete r w) s fun t => (t.ring r).taken = (s.ring r).taken.erase k ∧
      t.get (Reg.RING_DONE r) = (s.get (Reg.RING_DONE r) + 1) % 2 ^ 32 ∧
      t.out = .dma 0 (a + 56) (k.entry.drop 56) false :: .dma 0 a (k.entry.take 56) false :: s.out ∧
      QuietFrame (words [Reg.RING_DONE r]) s { s.walking [] with
        qe := { s.qe with rings := t.qe.rings }, out := t.out, hiu := { s.hiu with fc := t.hiu.fc } } t := by
  have hsame : SameRing r s ((s.walking w).setRing r { s.ring r with taken := (s.ring r).taken.erase k }) := sameRing_of_regs rfl
  have hwrite : ((s.walking w).setRing r { s.ring r with taken := (s.ring r).taken.erase k }).writeEntry r k.seq k.entry =
      (s.walking w).entryBack r k := by
    refine Direct.writeEntry (direct_iff.mp ((setRing_direct _ r _).trans (direct_iff.mpr (hd.walking w)))) ?_ k.seq ?_ (by omega) (by omega)
    · rw [hsame.func, ringFunc_pf0 hpf]
    · rw [hsame.slotAddr, ← ha, hlen]
      exact hpage
  have hcanon : ((s.walking w).entryBack r k).canon = true := hc
  have hregs : ((s.walking w).entryBack r k).regs = s.regs := rfl
  have hget : ∀ f : Field, ((s.walking w).entryBack r k).get f = s.get f := fun f => rfl
  have hout : ((s.walking w).entryBack r k).out = .dma 0 (s.slotAddr r k.seq + (k.entry.length - 8)) (k.entry.drop (k.entry.length - 8)) false ::
      .dma 0 (s.slotAddr r k.seq) (k.entry.take (k.entry.length - 8)) false :: s.out := rfl
  have hring : ((s.walking w).entryBack r k).ring r = { s.ring r with taken := (s.ring r).taken.erase k } := by
    rw [State.entryBack, State.entrySent, sendHost_ring, sendHost_ring, ring_setRing, walking_ring]
  have hrest : (s.walking w).entryBack r k = { s.walking w with
      qe := { s.qe with rings := ((s.walking w).entryBack r k).qe.rings }, out := ((s.walking w).entryBack r k).out
      hiu := { s.hiu with fc := ((s.walking w).entryBack r k).hiu.fc } } := rfl
  rw [hlen, ← ha] at hout
  generalize (s.walking w).entryBack r k = u at *
  have hwrites := writes_setDone u r (u.get (Reg.RING_DONE r) + 1)
  have hdone := done_setDone hcanon r (u.get (Reg.RING_DONE r) + 1)
  have harmed : u.flag (Reg.RING_ARMED r) = false := by rw [State.flag, hget]; exact hunarmed
  have hexec := exec_submitComplete w hrun htype hkept hfind (by rw [ringFunc_pf0 hpf]; exact hd.mayDma) hwrite
    ((armed_setDone hcanon r _).trans harmed)
  refine ⟨_, hexec, ?_, ?_, ?_, ⟨fun k hk => ?_, ?_⟩⟩
  · rw [walking_ring, ring_put, hring]
  · rw [walking_get, hdone, hget]
  · rw [walking_out, State.put_out, hout]
  · exact (hwrites.within.words hcanon k hk).trans (rd_congr hregs k)
  · rw [hwrites.rest, hrest]
    rfl

end

end

/-! ## Frames written to their buffers (R378, R379) -/

section
variable {s : State} {r : Fin 131072} {x : RxItem} (w : List Walk8)

theorem dropRx_plain (s : State) (h : x.handle = none) : s.dropRx x = s := by
  rw [State.dropRx, h]
  rfl

/-- The last word of a frame's record, but for OWN. -/
def rxLast (x : RxItem) (tc : Nat) : Nat := x.bytes.length + tc % 8 * 2 ^ 16 + x.src * 2 ^ 50 + bit x.authBad * 2 ^ 62

theorem completeRx_eq (s : State) {tc : Nat} (r q : Nat) (hmedia : x.media = false) (htc : x.tc = some tc) (hsrc : x.src < 64) (hlen : x.bytes.length < 2 ^ 14)
    {u : State} (hrecord : s.writeRecord (s.get (Reg.RING_LINK r)) [q * 2 ^ 32 + r] (rxLast x tc) = u)
    (hunarmed : u.flag (Reg.RING_ARMED (s.get (Reg.RING_LINK r))) = false) : s.completeRx r q x x.bytes.length false = u := by
  have hlast : payload [(14, x.bytes.length)] + tc % 8 * 2 ^ 16 + x.src % 64 * 2 ^ 50 + bit false * 2 ^ 60 +
      bit (false && bitAt (beAt x.bytes 0 2) 10) * 2 ^ 61 + bit x.authBad * 2 ^ 62 = rxLast x tc := by
    rw [rxLast, Nat.mod_eq_of_lt hsrc, payload, payloadAt, payloadAt, Nat.mod_eq_of_lt hlen, Bool.false_and]
    simp [bit]
  unfold State.completeRx
  simp only [htc, hsrc, hmedia, if_true, hlast, hrecord, hunarmed, State.when, Bool.false_eq_true, if_false]

/-- A frame waits no longer. -/
def State.rxTaken (s : State) (x : RxItem) : State := { s with qe := { s.qe with rxWait := s.qe.rxWait.erase x } }

/-- Ring `r` has a buffer `k` for a frame, and its COMPLETE ring `c` room for the record. -/
structure RxReady (s : State) (r : Nat) (x : RxItem) (k : Taken) (c : Nat) : Prop where
  on : s.ringOn r = true
  type : s.ringType r = 1
  media : s.ringMedia r = x.media
  buffer : (s.ring r).taken.find? (fun t => !t.done) = some k
  link : s.get (Reg.RING_LINK r) = c
  linkOn : s.ringOn c = true
  linkOwner : s.sameOwner r c 3 = true
  room : s.ringFull c = false
  fits : x.bytes.length ≤ lenOf k.entry

theorem RxReady.of_same {s t : State} {r : Nat} {x : RxItem} {k : Taken} {c : Nat} (h : RxReady s r x k c) (hregs : t.regs = s.regs)
    (hring : t.ring r = s.ring r) : RxReady t r x k c := by
  have hr : SameRing r s t := sameRing_of_regs hregs
  have hlink : SameRing c s t := sameRing_of_regs hregs
  have hget : ∀ f : Field, t.get f = s.get f := fun f => get_congr hregs f
  exact {
    on := hr.on.trans h.on, type := hr.type.trans h.type, media := hr.media.trans h.media, buffer := by rw [hring]; exact h.buffer
    link := (hget _).trans h.link, linkOn := hlink.on.trans h.linkOn
    linkOwner := by rw [State.sameOwner, hlink.type, hlink.owner, hr.owner]; exact h.linkOwner
    room := (hlink.full (hget _) (hget _)).trans h.room, fits := h.fits }

theorem exec_hostRxWrite (hrun : s.running .qe = true) (hfind : s.qe.rxWait.find? (·.ring == r.val) = some x) {k : Taken}
    (hbuffer : (s.ring r).taken.find? (fun t => !t.done) = some k) :
    exec (.hostRxWrite r w) s = .next ((((s.rxTaken x).walking w).rxWrite r x).walking []) := by
  have he : exec (.hostRxWrite r w) s = execHostRxWrite r w s := rfl
  have hany : (s.ring r).taken.any (fun t => !t.done) = true :=
    List.any_eq_true.mpr ⟨k, List.mem_of_find?_eq_some hbuffer, List.find?_some (p := fun t : Taken => !t.done) hbuffer⟩
  rw [he]
  unfold execHostRxWrite
  simp only [hfind, hrun, hany, Bool.not_true, Bool.and_false, Bool.or_self, Bool.false_eq_true, if_false, withWalks_eq, State.rxTaken]

theorem rxWrite_eq {u v y : State} {k : Taken} {c : Nat} (hready : RxReady u r x k c) (hmay : u.mayDma (u.ringFunc r) = true)
    (hwrite : u.dmaPayload (u.ringFunc r) (leAt k.entry 0 8) x.bytes = ((true, x.bytes.length), v))
    (hrecord : v.completeRx r k.seq x x.bytes.length false = y) (hplain : x.handle = none) : u.rxWrite r x = y.entryDone r k.seq := by
  obtain ⟨hon, htype, hmedia, hbuffer, hlink, hlinkOn, howner, hroom, hfits⟩ := hready
  unfold State.rxWrite
  simp only [hon, htype, hmedia, hmay, hbuffer, hlink, hlinkOn, howner, hroom, hwrite, Bool.not_true, bne_self_eq_false, Bool.or_self,
    Bool.false_eq_true, if_false, if_neg (not_lt.mpr hfits), State.when, hrecord, dropRx_plain _ hplain]

/-- The record of a frame. -/
theorem rxRecord_bytes (q : Nat) : [q].flatMap (toLE 8) = toLE 8 q := List.flatMap_singleton ..

theorem phase_off_armed (r : Nat) : (Reg.RING_PHASE r).off (Reg.RING_ARMED r) = true :=
  off_up (f := Reg.RING_PHASE 0) (g := Reg.RING_ARMED 0) (d := 64 * r) (by omega) (by decide)

theorem armed_setNext (hc : s.canon = true) (c q : Nat) (hunarmed : s.flag (Reg.RING_ARMED c) = false) :
    (s.setNext c q).flag (Reg.RING_ARMED c) = false := by
  unfold State.setNext
  rw [flag_put_off (canon_put hc) (phase_off_armed c),
    flag_put_ne hc (show 31 < 32 by decide) (by show 0x0C400020 + 64 * c ≠ 0x0C400024 + 64 * c; omega) (.inl (show 30 < 32 by decide))]
  exact hunarmed

theorem hostRxWrite_writes {k : Taken} {c tc : Nat} (hc : s.canon = true) (hrun : s.running .qe = true) (hd : Direct s)
    (hpf : s.ringOwner r = some 0) (hfind : s.qe.rxWait.find? (·.ring == r.val) = some x) (hmedia : x.media = false) (htc : x.tc = some tc)
    (hsrc : x.src < 64) (hplain : x.handle = none) (hready : RxReady s r x k c)
    (hslot : s.slotReady c (s.get (Reg.RING_NEXT c)) = true) (hunarmed : s.flag (Reg.RING_ARMED c) = false) (hbytes : x.bytes ≠ [])
    (hmax : x.bytes.length ≤ s.maxPayload) (hpage : onePage (leAt k.entry 0 8) x.bytes.length = true) :
    completes (.hostRxWrite r w) s fun t => t.qe.rxWait = s.qe.rxWait.erase x ∧
      t.out = .dma 0 (s.slotAddr c (s.get (Reg.RING_NEXT c)) + 8) (toLE 8 (setBits (x.bytes.length + tc % 8 * 2 ^ 16 +
          x.src * 2 ^ 50 + bit x.authBad * 2 ^ 62) 63 1 (s.phaseOf c (s.get (Reg.RING_NEXT c))))) false
        :: .dma 0 (s.slotAddr c (s.get (Reg.RING_NEXT c))) (toLE 8 (k.seq * 2 ^ 32 + r)) false
        :: .dma 0 (leAt k.entry 0 8) x.bytes (s.flag cfgRelaxed) :: s.out ∧
      (t.ring r).taken = takenDone (s.ring r).taken k.seq ∧
      t.get (Reg.RING_NEXT c) = (s.get (Reg.RING_NEXT c) + 1) % 2 ^ 32 ∧
      QuietFrame (words [Reg.RING_NEXT c, Reg.RING_PHASE c]) s
        { s.walking [] with qe := t.qe, out := t.out, hiu := { s.hiu with fc := t.hiu.fc } } t := by
  obtain ⟨howner, hslotPage⟩ := slotReady_iff.mp hslot
  have hexec := exec_hostRxWrite w hrun hfind hready.buffer
  have hlen : x.bytes.length < 2 ^ 14 := hready.fits.trans_lt (by rw [lenOf, bits]; exact Nat.mod_lt _ (by decide))
  have hregs : ((s.rxTaken x).walking w).regs = s.regs := rfl
  have hready' : RxReady ((s.rxTaken x).walking w) r x k c := hready.of_same hregs rfl
  have hdirect : Direct ((s.rxTaken x).walking w) := Direct.walking w (direct_iff.mp ((show (s.rxTaken x).direct = s.direct from rfl).trans (direct_iff.mpr hd)))
  have hrest : (s.rxTaken x).walking w = { s.walking w with qe := { s.qe with rxWait := s.qe.rxWait.erase x } } := rfl
  have hqe : ((s.rxTaken x).walking w).qe = { s.qe with rxWait := s.qe.rxWait.erase x } := rfl
  have hout : ((s.rxTaken x).walking w).out = s.out := rfl
  have hmax' : x.bytes.length ≤ ((s.rxTaken x).walking w).maxPayload := hmax
  have hcanon : ((s.rxTaken x).walking w).canon = true := hc
  generalize (s.rxTaken x).walking w = u at *
  have hsame : SameRing c s u := sameRing_of_regs hregs
  have hget : ∀ f : Field, u.get f = s.get f := fun f => get_congr hregs f
  have hfunc : u.ringFunc r = 0 := (sameRing_of_regs hregs : SameRing r s u).func.trans (ringFunc_pf0 hpf)
  have hwrite : u.dmaPayload (u.ringFunc r) (leAt k.entry 0 8) x.bytes =
      ((true, x.bytes.length), u.sendHost (.dma 0 (leAt k.entry 0 8) x.bytes (u.flag cfgRelaxed))) := by
    rw [State.dmaPayload, hfunc]
    exact hdirect.dmaWriteBy _ hbytes hpage hmax'
  have hflag : u.flag cfgRelaxed = s.flag cfgRelaxed := by rw [State.flag, hget, State.flag]
  rw [hflag] at hwrite
  have hvdirect := hdirect.sendHost (.dma 0 (leAt k.entry 0 8) x.bytes (s.flag cfgRelaxed))
  have hvget := sendHost_get (.dma 0 (leAt k.entry 0 8) x.bytes (s.flag cfgRelaxed)) u
  have hvsame : SameRing c u (u.sendHost (.dma 0 (leAt k.entry 0 8) x.bytes (s.flag cfgRelaxed))) := sameRing_of_regs rfl
  have hvcanon := (sendHost_canon (.dma 0 (leAt k.entry 0 8) x.bytes (s.flag cfgRelaxed)) u).trans hcanon
  have hvout := sendHost_out (.dma 0 (leAt k.entry 0 8) x.bytes (s.flag cfgRelaxed)) u
  have hvqe := sendHost_qe (.dma 0 (leAt k.entry 0 8) x.bytes (s.flag cfgRelaxed)) u
  have hvwithin : Within (words [Reg.RING_NEXT c, Reg.RING_PHASE c]) u (u.sendHost (.dma 0 (leAt k.entry 0 8) x.bytes (s.flag cfgRelaxed))) :=
    sendHost_within _ (Within.refl u)
  have hvrest := sendHost_eq (.dma 0 (leAt k.entry 0 8) x.bytes (s.flag cfgRelaxed)) u
  rw [State.spentFc] at hvrest
  generalize u.sendHost (.dma 0 (leAt k.entry 0 8) x.bytes (s.flag cfgRelaxed)) = v at *
  have hvc : SameRing c s v := hsame.trans hvsame
  have hvnext : v.get (Reg.RING_NEXT c) = s.get (Reg.RING_NEXT c) := (hvget _).trans (hget _)
  have hvfunc : v.ringFunc c = 0 := hvc.func.trans (ringFunc_pf0 howner)
  have hctype : s.ringType c = 3 := by
    have howned := hready.linkOwner
    rw [State.sameOwner, Bool.and_eq_true, Bool.and_eq_true, beq_iff_eq] at howned
    exact howned.1.2
  rw [hctype] at hslotPage
  have hvpage : onePage (v.slotAddr c (v.get (Reg.RING_NEXT c))) (8 * [k.seq * 2 ^ 32 + r.val].length + 8) = true := by
    rw [hvnext, hvc.slotAddr]
    exact hslotPage
  have hgone := hvdirect.recordGone hvcanon hvfunc (rxLast x tc) (l := [k.seq * 2 ^ 32 + r.val]) (show 0 < 1 by decide) (show 1 ≤ 15 by decide) hvpage
  have harmed : (v.writeRecord c [k.seq * 2 ^ 32 + r.val] (rxLast x tc)).flag (Reg.RING_ARMED c) = false := by
    rw [hvdirect.writeRecord (l := [k.seq * 2 ^ 32 + r.val]) hvfunc _ (show 0 < 1 by decide) (show 1 ≤ 15 by decide) hvpage, State.recordSent]
    exact armed_setNext (by rw [entrySent_canon]; exact hvcanon) c _ (by rw [State.flag, entrySent_get, hvget, hget]; exact hunarmed)
  have hvlink : v.get (Reg.RING_LINK r) = c := (hvget _).trans ((hget _).trans hready.link)
  have hcomplete := fun y hy hz => completeRx_eq v (u := y) r k.seq hmedia htc hsrc hlen hy hz
  rw [hvlink] at hcomplete
  replace hcomplete := hcomplete _ rfl harmed
  generalize v.writeRecord c [k.seq * 2 ^ 32 + r.val] (rxLast x tc) = y at *
  have hyring : y.ring r = s.ring r := by rw [State.ring, hgone.rest, hvqe, hqe]; rfl
  rw [rxWrite_eq hready' (by rw [hfunc]; exact hdirect.mayDma) hwrite hcomplete hplain] at hexec
  refine ⟨_, hexec, ?_, ?_, ?_, ?_, ⟨fun j hj => ?_, ?_⟩⟩
  · rw [walking_qe, entryDone_rxWait, hgone.rest, hvqe, hqe]
  · rw [walking_out, entryDone_out, hgone.out, hvnext, hvc.slotAddr, hvc.phaseOf, hvout, hout, rxRecord_bytes, rxLast]
    rfl
  · rw [walking_ring, entryDone_ring, hyring]
  · rw [walking_get, entryDone_get, hgone.next, hvnext]
  · rw [walking_rd, entryDone_rd, hgone.within.words hvcanon j hj, hvwithin.words hcanon j hj, rd_congr hregs]
  · rw [entryDone_rest, hgone.rest, hvrest, hrest]
    rfl

end

/-- Settles O43: a frame to send is read and distributed or waits for its window; a received one is written with its record; HEAD and
completed SUBMIT entries go out. -/
theorem ringWorkCompletes : Obligations.RingWorkCompletes := by
  unfold Obligations.RingWorkCompletes
  intro s hc hrun hd r w hpf
  rw [direct_iff] at hd
  refine ⟨fun k l hnext htype hkept hpage hpos hmax hready hqueue hsingle => ⟨fun hmedia => ?_, fun hmedia => ?_⟩,
    fun m f o hfind hf hkind hsrc hqueue => ?_, fun x k c tc hfind hmedia htc hsrc hplain hon htype hring hbuffer hlink hlinkOn howner hroom hslot
      hunarmed hbytes hfits hmax hpage => ?_,
    fun n head hfew hkept hn hpos hhead haddr hunarmed => headPublish_publishes w hc hrun hd hpf hfew hkept hn hpos hhead haddr hunarmed,
    fun k a htype hkept hfind hlen ha hpage hunarmed => submitComplete_completes w hc hrun hd hpf htype hkept hfind hlen ha hpage hunarmed⟩
  · exact txFrameRead_frame w hc hrun hd hpf hnext htype hkept hpage hpos hmax hready hqueue hmedia
  · exact txFrameRead_media w hc hrun hd hpf hnext htype hkept hpage hpos hmax hready hsingle hmedia
  · subst hf
    exact mediaTxDeliver_delivers hc hrun hfind hkind hsrc hqueue
  · exact hostRxWrite_writes w hc hrun hd hpf hfind hmedia htc hsrc hplain
      ⟨hon, htype, hring.trans hmedia.symm, hbuffer, hlink.symm, hlinkOn, howner, hroom, hfits⟩ hslot hunarmed hbytes hmax hpage

end Sys2Proof.Machine
end


section
/-! PROOFS. The recorder (R417 to R420). -/

namespace Sys2Proof.Machine

/-! ## Words that take a write whole (R9) -/

/-- A row whose words are read and written whole. -/
def wholeRow (base stride count : Nat) : WordRow := ⟨base, stride, count, [⟨31, 0, .rw, 0⟩]⟩

section
variable {s : State} {r : Requester} {k v : Nat}

theorem writeWord_whole {base stride count : Nat} (hc : s.canon = true) (hshow : s.shows k = true)
    (hrow : rowOf k = some (wholeRow base stride count)) (hv : v < 2 ^ 32) :
    (s.writeWord r k v).rd k = v ∧ QuietFrame (fun j => j == k) s s (s.writeWord r k v) := by
  have hplain : (rowOf k).all (·.plain) = true := by rw [hrow]; rfl
  refine ⟨?_, (writes_writeWord_plain (area := fun j => j == k) (Writes.refl s) (beq_self_eq_true k) hplain v).quietFrame hc⟩
  rw [writeWord_plain hplain]
  refine rd_setWord_whole hc hshow hrow rfl (fun i hi => ?_) hv
  simp only [wholeRow, takesBit, List.any_cons, List.any_nil, Bool.or_false, Bool.and_eq_true, decide_eq_true_eq]
  omega

theorem rowsFor_sie {k : Nat} (hk : k / 0x1000000 = 13) : rowsFor k = sieRows := by rw [rowsFor, hk]; rfl

/-- Which words of SIE's tables show rests on SIE's state alone. -/
theorem shows_sie {j k : Nat} (hj : 0x0D001000 ≤ j ∧ j < 0x0E000000) (hk : 0x0D001000 ≤ k ∧ k < 0x0E000000) : s.shows j = s.shows k := by
  have hunit : ∀ {k : Nat}, 0x0D001000 ≤ k ∧ k < 0x0E000000 → unitOfKey k = 13 := fun {k} h => by
    rw [unitOfKey, show k / 0x1000000 = 13 by omega]
    rfl
  have hrow : ∀ {k : Nat}, 0x0D001000 ≤ k ∧ k < 0x0E000000 → (k % 0x1000000 < 0x1000 && k < 0x0E000000) = false := fun {k} h => by
    rw [Bool.and_eq_false_iff, decide_eq_false_iff_not]
    exact .inl (by omega)
  simp only [State.shows, hunit hj, hunit hk, hrow hj, hrow hk, show j < 0x20000000 by omega, show k < 0x20000000 by omega]

end

/-! ## A recording's words (R417) -/

section
variable {s : State} {k : Fin 64}

theorem rowOf_recWord (k : Fin 64) {w : Nat} (hlo : 2 ≤ w) (hhi : w ≤ 5) :
    rowOf (0x0D190000 + 256 * k + 4 * w) = some (wholeRow (0x0D190000 + 4 * w) 256 64) := by
  have hcov : ∀ w : Nat, w < 64 → (wholeRow (0x0D190000 + 4 * w) 256 64).covers (0x0D190000 + 256 * k + 4 * w) = true := fun w hw => by
    rw [WordRow.covers, wholeRow, if_neg (show ¬256 = 0 by decide)]
    simp only [Bool.and_eq_true, beq_iff_eq, decide_eq_true_eq]
    omega
  have hw : w = 2 ∨ w = 3 ∨ w = 4 ∨ w = 5 := by omega
  obtain rfl | rfl | rfl | rfl := hw
  · exact rowOf_at (lo := 0x0D190000) (hi := 0x0D194000) (m := 256) (r := 8) 48 (rowsFor_sie (by omega)) (by omega) (by decide) (by decide)
      (by omega) (by omega) (by omega) (by decide) (hcov 2 (by decide))
  · exact rowOf_at (lo := 0x0D190000) (hi := 0x0D194000) (m := 256) (r := 12) 49 (rowsFor_sie (by omega)) (by omega) (by decide) (by decide)
      (by omega) (by omega) (by omega) (by decide) (hcov 3 (by decide))
  · exact rowOf_at (lo := 0x0D190000) (hi := 0x0D194000) (m := 256) (r := 16) 50 (rowsFor_sie (by omega)) (by omega) (by decide) (by decide)
      (by omega) (by omega) (by omega) (by decide) (hcov 4 (by decide))
  · exact rowOf_at (lo := 0x0D190000) (hi := 0x0D194000) (m := 256) (r := 20) 51 (rowsFor_sie (by omega)) (by omega) (by decide) (by decide)
      (by omega) (by omega) (by omega) (by decide) (hcov 5 (by decide))

theorem recordingWrite_takes (hc : s.canon = true) {q : Requester} (hmanager : isManager q = true) (hserved : s.served q = true)
    (hshow : s.shows 0x0D190000 = true) (hidle : s.get (Reg.REC_STATE k) = 0) (w : Fin 64) (hlo : 2 ≤ w.val) (hhi : w.val ≤ 5) (v : Word) :
    completes (.recordingWrite q k w v) s fun t => t.rd (0x0D190000 + 256 * k.val + 4 * w.val) = v.toNat ∧
      QuietFrame (fun j => j == 0x0D190000 + 256 * k.val + 4 * w.val) s s t := by
  have hexec : exec (.recordingWrite q k w v) s = .next (s.writeWord q (0x0D190000 + 256 * k.val + 4 * w.val) v.toNat) := by
    have he : exec (.recordingWrite q k w v) s = ok (s.writeRecording q k w v.toNat) := rfl
    rw [he, State.writeRecording, hidle, hmanager, hserved, if_neg (by decide)]
  obtain ⟨hword, hframe⟩ := writeWord_whole (r := q) hc ((shows_sie (by omega) (by omega)).trans hshow) (rowOf_recWord k hlo hhi) v.isLt
  exact ⟨_, hexec, hword, hframe⟩

theorem recordingWrite_refused {q : Requester} (hbusy : s.get (Reg.REC_STATE k) ≠ 0) (w : Fin 64) (v : Word) :
    completes (.recordingWrite q k w v) s fun t => t = s := by
  have he : exec (.recordingWrite q k w v) s = ok (s.writeRecording q k w v.toNat) := rfl
  refine ⟨_, he, ?_⟩
  rw [State.writeRecording, bne_iff_ne.mpr hbusy, Bool.true_or, Bool.true_or, if_pos rfl]

/-! ## Fields of a recording -/

theorem get_put_recState (hc : s.canon = true) {g : Field} (h : (Reg.REC_STATE 0).off g = true) (k v : Nat) :
    (s.put (Reg.REC_STATE k) v).get (g.up (256 * k)) = s.get (g.up (256 * k)) :=
  get_put_off hc (off_up (f := Reg.REC_STATE 0) (d := 256 * k) (by omega) h)

theorem state_put_recState (hc : s.canon = true) (k : Nat) {v : Nat} (hv : v < 8) : (s.put (Reg.REC_STATE k) v).get (Reg.REC_STATE k) = v :=
  (get_put_same hc (ok_up (f := Reg.REC_STATE 0) (d := 256 * k) (by omega) (by decide))).trans (Nat.mod_eq_of_lt hv)

theorem writes_recState (s : State) (k v : Nat) : Writes (words [Reg.REC_STATE k]) s (s.put (Reg.REC_STATE k) v) :=
  writes_put (Writes.refl s) (words_key (f := Reg.REC_STATE k) (by simp)) (.inl (show 31 < 32 by decide))

theorem chunkTicks_put_recState (hc : s.canon = true) (k v : Nat) : (s.put (Reg.REC_STATE k) v).chunkTicks k = s.chunkTicks k :=
  congrArg (fun n => 8 * 2 ^ n) (get_put_recState (g := Reg.REC_CHUNK_LOG2 0) hc (by decide) k v)

theorem func_put_recState (hc : s.canon = true) (k v : Nat) : (s.put (Reg.REC_STATE k) v).get (Reg.REC_FUNC k) = s.get (Reg.REC_FUNC k) :=
  get_put_recState (g := Reg.REC_FUNC 0) hc (by decide) k v

/-! ## What the recorder keeps of a recording -/

theorem setRec_get (s : State) (x : RecRt) (f : Field) : (s.setRec x).get f = s.get f := rfl
theorem setRec_canon (s : State) (x : RecRt) : (s.setRec x).canon = s.canon := rfl
theorem setRec_rd (s : State) (x : RecRt) (j : Nat) : (s.setRec x).rd j = s.rd j := rfl

theorem recRt_index {j : Nat} {x : RecRt} (h : s.recRt j = some x) : x.index = j := beq_iff_eq.mp (List.find?_some (p := fun y : RecRt => y.index == j) h)

theorem recRt_setRec (s : State) {j : Nat} {x : RecRt} (h : x.index = j) : (s.setRec x).recRt j = some x := by
  subst h
  exact List.find?_cons_of_pos (beq_self_eq_true x.index)

theorem recRt_put (s : State) (f : Field) (v j : Nat) : (s.put f v).recRt j = s.recRt j := by rw [put_rest]; rfl

theorem recRt_congr {t : State} (h : t.sie.recs = s.sie.recs) (j : Nat) : t.recRt j = s.recRt j := by rw [State.recRt, h, State.recRt]

/-! ## START and STOP (R420) -/

/-- A recorder's command answers with a result. -/
def State.recAnswered (s : State) (res : Nat) : State := s.put Reg.SIE_REC_STATUS_RESULT res

theorem writes_recAnswered (s : State) (res : Nat) : Writes (words [Reg.SIE_REC_STATUS_RESULT]) s (s.recAnswered res) :=
  writes_put (Writes.refl s) (by decide) (.inl (by decide))

theorem result_recAnswered (hc : s.canon = true) {res : Nat} (h : res < 16) : (s.recAnswered res).get Reg.SIE_REC_STATUS_RESULT = res :=
  (get_put_same hc (by decide)).trans (Nat.mod_eq_of_lt h)

/-- The tick that a START or STOP without a tick of its own gets. -/
def State.nextBoundary (s : State) (k : Nat) : Nat := chunkBoundary (s.chunkTicks k) (s.tick + 2)

theorem chunkBlocks_congr {t : State} {k : Nat} (hticks : t.chunkTicks k = s.chunkTicks k) (hflows : t.get (Reg.REC_FLOWS k) = s.get (Reg.REC_FLOWS k))
    (hlist : ∀ i, t.rd (0x0D190020 + 256 * k + i * 4) = s.rd (0x0D190020 + 256 * k + i * 4))
    (hbytes : ∀ f, ∀ g ∈ flowFields f, t.get g = s.get g) : t.chunkBlocks k = s.chunkBlocks k := by
  have hrec : t.recFlows k = s.recFlows k := by
    unfold State.recFlows
    rw [hflows]
    exact List.map_congr_left fun i _ => by rw [hlist]
  have hbytes' : t.recBytes = s.recBytes := funext fun f => by rw [State.recBytes, geometry_congr (hbytes f), State.recBytes]
  rw [State.chunkBlocks, State.chunkData, hticks, hrec, hbytes', State.chunkBlocks, State.chunkData]

theorem writes_recTaken (s : State) (k f n : Nat) :
    Writes (words [Reg.REC_STATE k, poolUsed f 7]) s ((s.put (Reg.REC_STATE k) 1).poolTake f 7 n) :=
  writes_put ((writes_recState s k 1).mono fun _ hk => words_mono (by simp) hk) (words_key (f := poolUsed f 7) (by simp))
    (.inl (show 31 < 32 by decide))

theorem recTaken_apart {k f j : Nat} (hpool : j ≠ (poolUsed f 7).key) (hstate : j ≠ (Reg.REC_STATE k).key) :
    words [Reg.REC_STATE k, poolUsed f 7] j = false := by
  rw [Bool.eq_false_iff]
  simp [words, poolUsed] at *
  omega

theorem chunkBlocks_armed (hc : s.canon = true) {f : Nat} (hf : f < 2 ^ 12) (n : Nat) :
    ((s.put (Reg.REC_STATE k) 1).poolTake f 7 n).chunkBlocks k = s.chunkBlocks k := by
  have hwrites := writes_recTaken s k f n
  refine chunkBlocks_congr ?_ ?_ (fun i => ?_) (fun g h hh => ?_)
  · refine Eq.trans (congrArg (fun m => 8 * 2 ^ m) ?_) (chunkTicks_put_recState hc k 1)
    exact get_put_ne (canon_put hc) (show 31 < 32 by decide)
      (by show 0x0D190000 + 256 * k.val ≠ 0x0B200004 + 64 * f + 8 * 7; omega) (.inl (show 27 < 32 by decide))
  · exact hwrites.within.get_eq_low hc (show 6 < 32 by decide) (recTaken_apart
      (by show 0x0D190004 + 256 * k.val ≠ 0x0B200004 + 64 * f + 8 * 7; omega) (by show 0x0D190004 + 256 * k.val ≠ 0x0D190000 + 256 * k.val; omega))
  · exact hwrites.within.words hc _ (recTaken_apart
      (by show 0x0D190020 + 256 * k.val + i * 4 ≠ 0x0B200004 + 64 * f + 8 * 7; omega)
      (by show 0x0D190020 + 256 * k.val + i * 4 ≠ 0x0D190000 + 256 * k.val; omega))
  · have hword : h.hi < 32 ∧ (h.key < 0x02000000 ∨ 0x12000000 ≤ h.key) := by
      simp only [flowFields, List.mem_cons, List.not_mem_nil, or_false] at hh
      obtain rfl | rfl | rfl | rfl | rfl | rfl | rfl | rfl | rfl | rfl := hh
      all_goals simp <;> omega
    have hk := k.isLt
    exact hwrites.within.get_eq_low hc hword.1 (recTaken_apart (by show h.key ≠ 0x0B200004 + 64 * f + 8 * 7; omega)
      (by show h.key ≠ 0x0D190000 + 256 * k.val; omega))

/-- A recording is armed: its units are taken and its tick is set. -/
def State.recArmed (s : State) (k : Nat) : State :=
  ((((s.put (Reg.REC_STATE k) 1).poolTake (s.get (Reg.REC_FUNC k)) 7 (s.recUnits k)).setRec
    ⟨k, s.nextBoundary k, none, 0, s.chunkBlocks k, s.recUnits k, []⟩).put Reg.SIE_REC_TICK_TICK (s.nextBoundary k))

/-- A recording's stop is set. -/
def State.recStopped (s : State) (k : Nat) (x : RecRt) : State :=
  (s.setRec { x with stop := some (stopAt x.stop (s.nextBoundary k)) }).put Reg.SIE_REC_TICK_TICK (s.nextBoundary k)

section
variable {q : Requester} (hmay : s.mayWrite q Reg.SIE_REC_CMD_OP.key = true) (hrun : s.running .sie = true)
include hmay hrun

theorem recCmd_wrongState (hidle : s.get (Reg.REC_STATE k) = 0) : s.recCmd q 2 k = s.recAnswered 4 := by
  unfold State.recCmd
  rw [hmay, hrun, if_neg (by simp; omega)]
  dsimp only
  rw [if_pos (by simp [hidle])]
  rfl

theorem recCmd_bad (hidle : s.get (Reg.REC_STATE k) = 0) (hbad : s.badRec k = true) : s.recCmd q 1 k = s.recAnswered 1 := by
  unfold State.recCmd
  rw [hmay, hrun, if_neg (by simp; omega)]
  dsimp only
  rw [if_neg (by simp [hidle]), if_pos (by simp [hbad])]
  rfl

theorem recCmd_full (hidle : s.get (Reg.REC_STATE k) = 0) (hgood : s.badRec k = false)
    (hfull : s.poolRoom (s.get (Reg.REC_FUNC k)) 7 (s.recUnits k) = false) : s.recCmd q 1 k = s.recAnswered 2 := by
  unfold State.recCmd
  rw [hmay, hrun, if_neg (by simp; omega)]
  dsimp only
  rw [if_neg (by simp [hidle]), if_neg (by simp [hgood]), if_pos (by simp [hfull])]
  rfl

theorem recCmd_starts (hc : s.canon = true) (hidle : s.get (Reg.REC_STATE k) = 0) (hgood : s.badRec k = false)
    (hroom : s.poolRoom (s.get (Reg.REC_FUNC k)) 7 (s.recUnits k) = true) (hnow : s.get Reg.SIE_REC_TICK_TICK = 0) :
    s.recCmd q 1 k = (s.recArmed k).recAnswered 0 := by
  unfold State.recCmd
  rw [hmay, hrun, if_neg (by simp; omega)]
  dsimp only
  rw [if_neg (by simp [hidle]), if_neg (by simp [hgood]), if_neg (by simp [hroom]), if_neg (by simp [hnow]), if_pos rfl, hnow, if_pos rfl,
    chunkBlocks_armed hc (get_lt s (Reg.REC_FUNC k))]
  rfl

theorem recCmd_stops {x : RecRt} (hbusy : s.get (Reg.REC_STATE k) ≠ 0) (hx : s.recRt k = some x) (hnow : s.get Reg.SIE_REC_TICK_TICK = 0) :
    s.recCmd q 2 k = (s.recStopped k x).recAnswered 0 := by
  unfold State.recCmd
  rw [hmay, hrun, if_neg (by simp; omega)]
  dsimp only
  rw [if_neg (by simp [hbusy]), if_neg (by simp), if_neg (by simp), if_neg (by simp [hnow]), if_neg (by decide), hx, hnow, if_pos rfl]
  rfl

end

theorem exec_recStart (q : Requester) : exec (.recStart q k) s = .next (s.recCmd q 1 k) := rfl
theorem exec_recStop (q : Requester) : exec (.recStop q k) s = .next (s.recCmd q 2 k) := rfl

theorem completes_recAnswered (hc : s.canon = true) {c : Instr} {res : Nat} (hexec : exec c s = .next (s.recAnswered res)) (hres : res < 16) :
    completes c s fun t => t.get Reg.SIE_REC_STATUS_RESULT = res ∧ QuietFrame (words [Reg.SIE_REC_STATUS_RESULT]) s s t :=
  ⟨_, hexec, result_recAnswered hc hres, (writes_recAnswered s res).quietFrame hc⟩

theorem recAnswered_get (hc : s.canon = true) (res : Nat) {f : Field} (hlo : f.key ≠ 0x0D001310) (hhi : f.hi < 32 ∨ f.key + 4 ≠ 0x0D001310) :
    (s.recAnswered res).get f = s.get f := get_put_ne hc (show 3 < 32 by decide) hlo hhi

theorem recAnswered_recRt (s : State) (res j : Nat) : (s.recAnswered res).recRt j = s.recRt j := recRt_put ..

theorem tickSet_get (hc : s.canon = true) (v : Nat) {f : Field} (hlo : f.key ≠ 0x0D001308) (hhi : f.key ≠ 0x0D00130C) (hword : f.hi < 32) :
    (s.put Reg.SIE_REC_TICK_TICK v).get f = s.get f :=
  (writes_put (area := words [Reg.SIE_REC_TICK_TICK]) (Writes.refl s) (by decide) (.inr (by decide))).within.get_eq_low hc hword (by
    rw [Bool.eq_false_iff]; simp [words]; omega)

/-- Words of other tables and of the recording itself read as when the units were taken. -/
theorem recArmed_get (hc : s.canon = true) (k : Nat) {f : Field} (hlo : f.key ≠ 0x0D001308) (hhi : f.key ≠ 0x0D00130C) (hword : f.hi < 32) :
    (s.recArmed k).get f = ((s.put (Reg.REC_STATE k) 1).poolTake (s.get (Reg.REC_FUNC k)) 7 (s.recUnits k)).get f := by
  have hpool := (writes_recTaken s k (s.get (Reg.REC_FUNC k)) (s.recUnits k)).canon hc
  unfold State.recArmed
  rw [tickSet_get ((setRec_canon _ _).trans hpool) _ hlo hhi hword, setRec_get]

theorem recStart_arms (hc : s.canon = true) {q : Requester} {f u at_ : Nat} (hmay : s.mayWrite q Reg.SIE_REC_CMD_OP.key = true)
    (hrun : s.running .sie = true) (hf : f = s.get (Reg.REC_FUNC k)) (hu : u = s.recUnits k) (hat : at_ = s.nextBoundary k)
    (hidle : s.get (Reg.REC_STATE k) = 0) (hgood : s.badRec k = false) (hroom : s.poolRoom f 7 u = true)
    (hnow : s.get Reg.SIE_REC_TICK_TICK = 0) : completes (.recStart q k) s fun t => t.get Reg.SIE_REC_STATUS_RESULT = 0 ∧
      t.get (Reg.REC_STATE k) = 1 ∧ t.get (poolUsed f 7) = s.get (poolUsed f 7) + u ∧
      t.get Reg.SIE_REC_TICK_TICK = at_ % 2 ^ 48 ∧ t.recRt k = some ⟨k, at_, none, 0, s.chunkBlocks k, u, []⟩ := by
  subst hf hu hat
  have hexec : exec (.recStart q k) s = .next ((s.recArmed k).recAnswered 0) := by
    rw [exec_recStart, recCmd_starts hmay hrun hc hidle hgood hroom hnow]
  have hfunc : s.get (Reg.REC_FUNC k) < 2 ^ 12 := get_lt s _
  have hk := k.isLt
  have hlimit : s.get (poolLimit (s.get (Reg.REC_FUNC k)) 7) < 2 ^ 32 := get_lt s _
  rw [State.poolRoom, decide_eq_true_eq] at hroom
  have hstate : (s.put (Reg.REC_STATE k) 1).canon = true := canon_put hc
  have hpool := (writes_recTaken s k (s.get (Reg.REC_FUNC k)) (s.recUnits k)).canon hc
  have hused : (s.put (Reg.REC_STATE k) 1).get (poolUsed (s.get (Reg.REC_FUNC k)) 7) = s.get (poolUsed (s.get (Reg.REC_FUNC k)) 7) :=
    get_put_ne hc (show 31 < 32 by decide) (by show 0x0B200004 + 64 * s.get (Reg.REC_FUNC k) + 8 * 7 ≠ 0x0D190000 + 256 * k.val; omega)
      (.inl (show 31 < 32 by decide))
  have harmed : (s.recArmed k).canon = true := canon_put ((setRec_canon _ _).trans hpool)
  refine ⟨_, hexec, result_recAnswered harmed (by decide), ?_, ?_, ?_, ?_⟩
  · rw [recAnswered_get harmed 0 (by show 0x0D190000 + 256 * k.val ≠ 0x0D001310; omega) (.inl (show 31 < 32 by decide)),
      recArmed_get hc _ (by show 0x0D190000 + 256 * k.val ≠ 0x0D001308; omega) (by show 0x0D190000 + 256 * k.val ≠ 0x0D00130C; omega)
        (show 31 < 32 by decide), State.poolTake,
      get_put_ne hstate (show 31 < 32 by decide) (by show 0x0D190000 + 256 * k.val ≠ 0x0B200004 + 64 * s.get (Reg.REC_FUNC k) + 8 * 7; omega)
        (.inl (show 31 < 32 by decide)), state_put_recState hc _ (by decide)]
  · rw [recAnswered_get harmed 0 (by show 0x0B200004 + 64 * s.get (Reg.REC_FUNC k) + 8 * 7 ≠ 0x0D001310; omega) (.inl (show 31 < 32 by decide)),
      recArmed_get hc _ (by show 0x0B200004 + 64 * s.get (Reg.REC_FUNC k) + 8 * 7 ≠ 0x0D001308; omega)
        (by show 0x0B200004 + 64 * s.get (Reg.REC_FUNC k) + 8 * 7 ≠ 0x0D00130C; omega) (show 31 < 32 by decide), State.poolTake,
      get_put_same hstate (by simp [Field.ok, poolUsed]; omega), hused]
    exact Nat.mod_eq_of_lt (show _ < 2 ^ 32 by omega)
  · rw [recAnswered_get harmed 0 (by decide) (.inr (by decide)), State.recArmed, get_put_same ((setRec_canon _ _).trans hpool) (by decide)]
    rfl
  · rw [recAnswered_recRt, State.recArmed, recRt_put, recRt_setRec _ rfl]

theorem recStop_stops (hc : s.canon = true) {q : Requester} {at_ : Nat} {x : RecRt} (hmay : s.mayWrite q Reg.SIE_REC_CMD_OP.key = true)
    (hrun : s.running .sie = true) (hat : at_ = s.nextBoundary k) (hbusy : s.get (Reg.REC_STATE k) ≠ 0) (hx : s.recRt k = some x)
    (hnow : s.get Reg.SIE_REC_TICK_TICK = 0) : completes (.recStop q k) s fun t => t.get Reg.SIE_REC_STATUS_RESULT = 0 ∧
      t.recRt k = some { x with stop := some (stopAt x.stop at_) } ∧
      QuietFrame (words [Reg.SIE_REC_STATUS_RESULT, Reg.SIE_REC_TICK_TICK]) s { s with sie := { s.sie with recs := t.sie.recs } } t := by
  subst hat
  have hexec : exec (.recStop q k) s = .next ((s.recStopped k x).recAnswered 0) := by
    rw [exec_recStop, recCmd_stops hmay hrun hbusy hx hnow]
  have hstopped : (s.recStopped k x).canon = true := canon_put ((setRec_canon _ _).trans hc)
  have hwrites : Writes (words [Reg.SIE_REC_STATUS_RESULT, Reg.SIE_REC_TICK_TICK])
      (s.setRec { x with stop := some (stopAt x.stop (s.nextBoundary k)) }) ((s.recStopped k x).recAnswered 0) :=
    Writes.trans (writes_put (Writes.refl _) (by decide) (.inr (by decide)))
      ((writes_recAnswered _ 0).mono fun _ hk => words_mono (by simp) hk)
  refine ⟨_, hexec, result_recAnswered hstopped (by decide), ?_, fun j hj => (hwrites.within.words hc j hj).trans (setRec_rd s _ j), ?_⟩
  · rw [recAnswered_recRt, State.recStopped, recRt_put]
    exact recRt_setRec _ (show x.index = k.val from recRt_index hx)
  · rw [hwrites.rest]
    rfl

/-! ## A recording starts and ends (R420) -/

/-- A recording runs, in its next session. -/
def State.recRuns (s : State) (k : Nat) : State :=
  (s.put (Reg.REC_STATE k) 2).put (Reg.REC_SESSION k) (s.get (Reg.REC_SESSION k) + 1)

theorem session_recRuns (hc : s.canon = true) (k : Nat) :
    (s.recRuns k).get (Reg.REC_SESSION k) = (s.get (Reg.REC_SESSION k) + 1) % 2 ^ 32 :=
  get_put_same (canon_put hc) (ok_up (f := Reg.REC_SESSION 0) (d := 256 * k) (by omega) (by decide))

theorem state_recRuns (hc : s.canon = true) (k : Nat) : (s.recRuns k).get (Reg.REC_STATE k) = 2 :=
  (get_put_ne (canon_put hc) (show 31 < 32 by decide) (by show 0x0D190000 + 256 * k ≠ 0x0D190018 + 256 * k; omega)
    (.inl (show 31 < 32 by decide))).trans (state_put_recState hc k (by decide))

theorem recRow_apart (k i : Nat) : words [Reg.QE_ARB_LOST] (0x0D190000 + i + 256 * k) = false := by
  rw [Bool.eq_false_iff]; simp [words]; omega

theorem exec_recStarted {x : RecRt} (hx : s.recRt k = some x) (hrun : s.running .sie = true) (hstate : s.get (Reg.REC_STATE k) = 1)
    (hdue : x.start ≤ s.tick) : exec (.recStarted k) s = .next ((s.recRuns k).raise .sie 9
      [(8, k), (32, (s.recRuns k).get (Reg.REC_SESSION k)), (48, x.start)]) := by
  have he : exec (.recStarted k) s = execRecStarted k s := rfl
  rw [he]
  unfold execRecStarted
  simp only [hx]
  rw [if_neg (by simp [hrun, hstate, hdue])]
  rfl

theorem recRow_apart_high (k i : Nat) : words [Reg.QE_ARB_LOST] (0x0D190000 + i + 256 * k + 4) = false := by
  rw [Bool.eq_false_iff]; simp [words]; omega

theorem recStarted_runs (hc : s.canon = true) {x : RecRt} (hx : s.recRt k = some x) (hrun : s.running .sie = true)
    (hstate : s.get (Reg.REC_STATE k) = 1) (hdue : x.start ≤ s.tick) : completes (.recStarted k) s fun t => t.get (Reg.REC_STATE k) = 2 ∧
      t.get (Reg.REC_SESSION k) = (s.get (Reg.REC_SESSION k) + 1) % 2 ^ 32 ∧
      posted s t .sie 9 [(8, k), (32, (s.get (Reg.REC_SESSION k) + 1) % 2 ^ 32), (48, x.start)] ∧
      NoisyFrame (words [Reg.REC_STATE k, Reg.REC_SESSION k]) s s t := by
  have hexec := exec_recStarted hx hrun hstate hdue
  have hwrites : Writes (words [Reg.REC_STATE k, Reg.REC_SESSION k]) s (s.recRuns k) :=
    writes_put ((writes_recState s k 2).mono fun _ hk => words_mono (by simp) hk) (words_key (f := Reg.REC_SESSION k) (by simp))
      (.inl (show 31 < 32 by decide))
  have hcanon := hwrites.canon hc
  have hsession := session_recRuns hc k
  have hrunning := state_recRuns hc k
  rw [hsession] at hexec
  generalize s.recRuns k = u at *
  refine ⟨_, hexec, ?_, ?_, posted_raise (by rw [hwrites.rest]) .sie 9 _, noisyFrame_raiseEvent hc hwrites _⟩
  · rw [get_raise hcanon _ _ _ (recRow_apart k 0) (recRow_apart_high k 0), hrunning]
  · rw [get_raise hcanon _ _ _ (recRow_apart k 0x18) (recRow_apart_high k 0x18), hsession]

/-- A recording has a chunk before its stop that is not due yet. -/
def State.chunkOpen (s : State) (k : Nat) (x : RecRt) : Bool := x.stop.any (fun t => decide (x.start + (x.seq + 1) * s.chunkTicks k ≤ t))

theorem recIdle_kept (h : s.get (Reg.REC_STATE k) ≠ 3) : s.recIdle k = s := by
  unfold State.recIdle
  split
  · rfl
  · dsimp only
    rw [bne_iff_ne.mpr h, Bool.true_or, Bool.true_or, if_pos rfl]

theorem recIdle_open {x : RecRt} (hx : s.recRt k = some x) (hopen : s.chunkOpen k x = true) : s.recIdle k = s := by
  unfold State.recIdle
  rw [hx]
  rw [State.chunkOpen] at hopen
  cases hstop : x.stop with
  | none => simp [hstop] at hopen
  | some t =>
    rw [hstop, Option.any_some] at hopen
    simp only [hstop, hopen, Bool.or_true, if_true]

/-- The recorder keeps nothing of a recording; the free values go on from `free`. -/
def State.recForgotten (s : State) (k free : Nat) : State :=
  { s with free := free, sie := { s.sie with recs := s.sie.recs.filter (fun y => y.index != k) } }

theorem recForgotten_get (s : State) (k free : Nat) (f : Field) : (s.recForgotten k free).get f = s.get f := rfl
theorem recForgotten_canon (s : State) (k free : Nat) : (s.recForgotten k free).canon = s.canon := rfl
theorem recForgotten_events (s : State) (k free : Nat) : (s.recForgotten k free).events = s.events := rfl

/-- A recording is over: its units come back. -/
def State.recEnded (s : State) (k : Nat) (x : RecRt) (free : Nat) : State :=
  ((s.put (Reg.REC_STATE k) 0).poolGive (s.get (Reg.REC_FUNC k)) 7 x.units).recForgotten k free

theorem recIdle_ends {x : RecRt} (hx : s.recRt k = some x) (hstate : s.get (Reg.REC_STATE k) = 3) (hstaged : x.staged = [])
    (hclosed : s.chunkOpen k x = false) : ∃ free last, s.recIdle k = (s.recEnded k x free).raise .sie 10 [(8, k), (64, last)] ∧
      (1 ≤ x.seq → last = x.seq - 1) := by
  rw [State.chunkOpen] at hclosed
  unfold State.recIdle
  rw [hx]
  have hends : ∀ o : Bool, o = false → (s.get (Reg.REC_STATE k) != 3 || !x.staged.isEmpty || o) = false := by
    rintro _ rfl
    rw [hstate, hstaged]
    rfl
  dsimp only
  rw [if_neg (by
    rw [hends]
    · exact Bool.false_ne_true
    · cases hstop : x.stop with
      | none => rfl
      | some t =>
        rw [hstop] at hclosed
        exact hclosed)]
  by_cases hseq : x.seq = 0
  · rw [if_pos hseq]
    exact ⟨_, _, rfl, fun h => absurd hseq (by omega)⟩
  · rw [if_neg hseq]
    exact ⟨_, _, rfl, fun _ => rfl⟩

theorem recEnded_get (s : State) (k : Nat) (x : RecRt) (free : Nat) (f : Field) : (s.recEnded k x free).get f =
    ((s.put (Reg.REC_STATE k) 0).poolGive (s.get (Reg.REC_FUNC k)) 7 x.units).get f := recForgotten_get ..

theorem recEnded_canon (s : State) (k : Nat) (x : RecRt) (free : Nat) : (s.recEnded k x free).canon =
    ((s.put (Reg.REC_STATE k) 0).poolGive (s.get (Reg.REC_FUNC k)) 7 x.units).canon := recForgotten_canon ..

theorem recEnded_events (s : State) (k : Nat) (x : RecRt) (free : Nat) : (s.recEnded k x free).events = s.events := by
  rw [State.recEnded, recForgotten_events, State.poolGive, State.put_events, State.put_events]

theorem recEnded_recRt (s : State) (k : Nat) (x : RecRt) (free : Nat) : (s.recEnded k x free).recRt k = none :=
  List.find?_eq_none.mpr fun y hy => by
    have hne := (List.mem_filter.mp hy).2
    rw [bne_iff_ne] at hne
    rw [beq_iff_eq]
    exact hne

theorem recRt_raise (s : State) (u : Unit') (type : Nat) (l : List (Nat × Nat)) (j : Nat) : (s.raise u type l).recRt j = s.recRt j := by
  refine recRt_congr ?_ j
  unfold State.raise
  rw [raiseEvent_rest]

theorem exec_stopEffective {x : RecRt} {at_ : Nat} (hx : s.recRt k = some x) (hrun : s.running .sie = true) (hstop : x.stop = some at_)
    (hdue : at_ ≤ s.tick) (hstate : s.get (Reg.REC_STATE k) = 2) :
    exec (.stopEffective k) s = .next ((s.put (Reg.REC_STATE k) 3).recIdle k) := by
  have he : exec (.stopEffective k) s = execStopEffective k s := rfl
  rw [he]
  unfold execStopEffective
  simp only [hx, Option.bind_some, hstop]
  rw [if_neg (by simp [hrun, hstate, hdue])]

theorem chunkOpen_put_recState (hc : s.canon = true) (v : Nat) (x : RecRt) : (s.put (Reg.REC_STATE k) v).chunkOpen k x = s.chunkOpen k x := by
  rw [State.chunkOpen, chunkTicks_put_recState hc, State.chunkOpen]

theorem stopEffective_ends (hc : s.canon = true) {x : RecRt} {at_ : Nat} (hx : s.recRt k = some x) (hrun : s.running .sie = true)
    (hstop : x.stop = some at_) (hdue : at_ ≤ s.tick) (hlast : at_ < x.start + (x.seq + 1) * s.chunkTicks k) (hstaged : x.staged = [])
    (hstate : s.get (Reg.REC_STATE k) = 2) : completes (.stopEffective k) s fun t => t.get (Reg.REC_STATE k) = 0 ∧ t.recRt k = none ∧
      t.get (poolUsed (s.get (Reg.REC_FUNC k)) 7) = s.get (poolUsed (s.get (Reg.REC_FUNC k)) 7) - x.units ∧
      (1 ≤ x.seq → posted s t .sie 10 [(8, k), (64, x.seq - 1)]) := by
  have hexec := exec_stopEffective hx hrun hstop hdue hstate
  have hcanon : (s.put (Reg.REC_STATE k) 3).canon = true := canon_put hc
  have hclosed : (s.put (Reg.REC_STATE k) 3).chunkOpen k x = false := by
    rw [chunkOpen_put_recState hc, State.chunkOpen, hstop]
    exact decide_eq_false (not_le.mpr hlast)
  have hfunc := func_put_recState hc k 3
  have hlt : s.get (Reg.REC_FUNC k) < 2 ^ 12 := get_lt s _
  have hk := k.isLt
  have hpool : ∀ v, ∀ u : State, u.canon = true →
      (u.put (Reg.REC_STATE k) v).get (poolUsed (s.get (Reg.REC_FUNC k)) 7) = u.get (poolUsed (s.get (Reg.REC_FUNC k)) 7) := fun v u hu =>
    get_put_ne hu (show 31 < 32 by decide) (by show 0x0B200004 + 64 * s.get (Reg.REC_FUNC k) + 8 * 7 ≠ 0x0D190000 + 256 * k.val; omega)
      (.inl (show 31 < 32 by decide))
  have hused := hpool 3 s hc
  obtain ⟨free, last, hidle, hseq⟩ := recIdle_ends ((recRt_put ..).trans hx) (state_put_recState hc k (by decide)) hstaged hclosed
  rw [hidle] at hexec
  have hevents : (s.put (Reg.REC_STATE k) 3).events = s.events := State.put_events ..
  generalize s.put (Reg.REC_STATE k) 3 = u at *
  have hended : ((u.put (Reg.REC_STATE k) 0).poolGive (u.get (Reg.REC_FUNC k)) 7 x.units).canon = true := canon_put (canon_put hcanon)
  have hended' : (u.recEnded k x free).canon = true := (recEnded_canon ..).trans hended
  refine ⟨_, hexec, ?_, ?_, ?_, fun h => ?_⟩
  · rw [get_raise hended' _ _ _ (recRow_apart k 0) (recRow_apart_high k 0), recEnded_get, State.poolGive, hfunc,
      get_put_ne (canon_put hcanon) (show 31 < 32 by decide)
        (by show 0x0D190000 + 256 * k.val ≠ 0x0B200004 + 64 * s.get (Reg.REC_FUNC k) + 8 * 7; omega) (.inl (show 31 < 32 by decide)),
      state_put_recState hcanon _ (by decide)]
  · rw [recRt_raise, recEnded_recRt]
  · have hused' : s.get (poolUsed (s.get (Reg.REC_FUNC k)) 7) < 2 ^ 32 := get_lt s _
    rw [get_raise hended' _ _ _ (arbLost_of_lt (by show 0x0B200004 + 64 * s.get (Reg.REC_FUNC k) + 8 * 7 < 0x0C001140; omega))
        (arbLost_of_lt (by show 0x0B200004 + 64 * s.get (Reg.REC_FUNC k) + 8 * 7 + 4 < 0x0C001140; omega)), recEnded_get, State.poolGive, hfunc,
      get_put_same (canon_put hcanon) (by simp [Field.ok, poolUsed]; omega), hpool 0 u hcanon, hused]
    exact Nat.mod_eq_of_lt (show _ < 2 ^ 32 by omega)
  · rw [hseq h]
    exact posted_raise ((recEnded_events ..).trans hevents) .sie 10 _

theorem stopEffective_stopping (hc : s.canon = true) {x : RecRt} {at_ : Nat} (hx : s.recRt k = some x) (hrun : s.running .sie = true)
    (hstop : x.stop = some at_) (hdue : at_ ≤ s.tick) (hmore : x.start + (x.seq + 1) * s.chunkTicks k ≤ at_)
    (hstate : s.get (Reg.REC_STATE k) = 2) : completes (.stopEffective k) s fun t => t.get (Reg.REC_STATE k) = 3 ∧
      QuietFrame (words [Reg.REC_STATE k]) s s t := by
  have hexec := exec_stopEffective hx hrun hstop hdue hstate
  have hopen : (s.put (Reg.REC_STATE k) 3).chunkOpen k x = true := by
    rw [chunkOpen_put_recState hc, State.chunkOpen, hstop]
    exact decide_eq_true hmore
  rw [recIdle_open ((recRt_put ..).trans hx) hopen] at hexec
  exact ⟨_, hexec, state_put_recState hc k (by decide), (writes_recState s k 3).quietFrame hc⟩

/-! ## Chunks (R418, R419) -/

/-- The state with `n` free values taken. -/
def State.freeAt (s : State) (n : Nat) : State := { s with free := n }

theorem freeAt_self (s : State) : s.freeAt s.free = s := rfl
theorem freeAt_freeAt (s : State) (m n : Nat) : (s.freeAt m).freeAt n = s.freeAt n := rfl
theorem freeAt_get (s : State) (n : Nat) (f : Field) : (s.freeAt n).get f = s.get f := rfl
theorem freeAt_flag (s : State) (n : Nat) (f : Field) : (s.freeAt n).flag f = s.flag f := rfl
theorem freeAt_canon (s : State) (n : Nat) : (s.freeAt n).canon = s.canon := rfl
theorem freeAt_slotState (s : State) (n : Nat) : (s.freeAt n).slotState = s.slotState := rfl
theorem freeAt_events (s : State) (n : Nat) : (s.freeAt n).events = s.events := rfl

theorem recTick_free (s : State) (f t : Nat) : ∃ n, (s.recTick f t).2 = s.freeAt n := by
  unfold State.recTick
  dsimp only
  split
  · exact ⟨_, (freeAt_self s).symm⟩
  · dsimp only
    split
    · exact ⟨_, rfl⟩
    · exact ⟨_, (freeAt_self s).symm⟩

/-- A fold whose steps take free values alone. -/
theorem foldl_free {α β : Type} (step : β × State → α → β × State) (hstep : ∀ a x, ∃ n, (step a x).2 = a.2.freeAt n) (l : List α)
    (a : β × State) : ∃ n, (l.foldl step a).2 = a.2.freeAt n := by
  induction l generalizing a with
  | nil => exact ⟨_, (freeAt_self a.2).symm⟩
  | cons x l ih =>
    obtain ⟨m, hm⟩ := hstep a x
    obtain ⟨n, hn⟩ := ih (step a x)
    exact ⟨n, by rw [List.foldl_cons, hn, hm, freeAt_freeAt]⟩

/-- The data of a chunk leaves all but the free values as it was. -/
theorem chunkBody_free (s : State) (k first : Nat) : ∃ n, (s.chunkBody k first).2 = s.freeAt n := by
  unfold State.chunkBody
  refine foldl_free _ (fun a t => foldl_free _ (fun b fq => ?_) _ a) _ (([], []), s)
  exact recTick_free b.2 fq.1 (first + t)

/-- Packets that no recording can need any more go. -/
def State.tapsKept (s : State) : State := { s with sie := { s.sie with taps := s.sie.taps.filter (fun t => s.tick < t.tick + 130) } }

theorem tapsKept_get (s : State) (f : Field) : s.tapsKept.get f = s.get f := rfl
theorem tapsKept_flag (s : State) (f : Field) : s.tapsKept.flag f = s.flag f := rfl
theorem tapsKept_recRt (s : State) (j : Nat) : s.tapsKept.recRt j = s.recRt j := rfl
theorem tapsKept_events (s : State) : s.tapsKept.events = s.events := rfl
theorem tapsKept_out (s : State) : s.tapsKept.out = s.out := rfl

theorem exec_chunkDue {x : RecRt} (hx : s.recRt k = some x) (hrun : s.running .sie = true) (hstate : s.get (Reg.REC_STATE k) = 2)
    (hstop : x.stop = none) (hdue : x.start + (x.seq + 1) * s.chunkTicks k ≤ s.tick) :
    exec (.chunkDue k) s = .next (s.chunkDueNow x k) := by
  have he : exec (.chunkDue k) s = execChunkDue k s := rfl
  rw [he]
  unfold execChunkDue
  simp only [hx, hstop]
  rw [if_pos (by simp [hrun, hstate, hdue])]

/-- A recording that wraps goes on after a chunk. -/
theorem chunkEnd_wraps (hwrap : s.flag (Reg.REC_WRAP k) = true) (hstate : s.get (Reg.REC_STATE k) ≠ 3) (b : Bool) (f : State → State) :
    State.recIdle (s.when (!s.flag (Reg.REC_WRAP k) && b && s.get (Reg.REC_STATE k) == 2) f) k = s := by
  rw [State.when, hwrap, if_neg (by simp), recIdle_kept hstate]

/-- A chunk with no place is dropped: what is left is the recording's next one. -/
theorem chunkDueNow_drops {x : RecRt} (hfull : s.get (Reg.REC_STAGE k) = 0) {n : Nat}
    (hn : (s.chunkBody k (x.start + x.seq * s.chunkTicks k)).2 = s.freeAt n) {v : State}
    (hv : ((s.freeAt n).setRec { x with seq := x.seq + 1 }).dropChunk.tapsKept = v) (hwrap : v.flag (Reg.REC_WRAP k) = true)
    (hstate : v.get (Reg.REC_STATE k) ≠ 3) : s.chunkDueNow x k = v := by
  unfold State.chunkDueNow
  dsimp only
  rw [hn, freeAt_get, hfull, decide_eq_false (Nat.not_lt_zero _)]
  simp only [Bool.false_and, Bool.not_false, if_true]
  subst hv
  exact chunkEnd_wraps hwrap hstate _ _

theorem dropChunk_first (h : 0xD0B ∉ s.once) : s.dropChunk = ((s.bump Reg.SIE_REC_DROPPED).noteOnce 0xD0B).raise .sie 11 [] := by
  unfold State.dropChunk
  rw [oncePerTick_first (by rw [State.bump_once]; exact h)]

theorem writes_dropped (s : State) : Writes (words [Reg.SIE_REC_DROPPED]) s (s.bump Reg.SIE_REC_DROPPED) :=
  writes_bump (Writes.refl s) (by decide) (.inr (by decide))

/-- A recording's words stand where a chunk is dropped. -/
theorem dropChunk_recRow (hc : s.canon = true) (h : 0xD0B ∉ s.once) (hi lo : Nat) (hword : hi < 32) (k : Nat) :
    s.dropChunk.get ⟨0x0D190000 + 256 * k, hi, lo⟩ = s.get ⟨0x0D190000 + 256 * k, hi, lo⟩ := by
  have hcanon := (writes_dropped s).canon hc
  rw [dropChunk_first h, get_raise ((noteOnce_canon _ _).trans hcanon) _ _ _ (recRow_apart k 0) (recRow_apart_high k 0), noteOnce_get,
    (writes_dropped s).within.get_eq_low hc hword (by rw [Bool.eq_false_iff]; simp [words]; omega)]

theorem dropChunk_counted (hc : s.canon = true) (h : 0xD0B ∉ s.once) :
    s.dropChunk.get Reg.SIE_REC_DROPPED = (s.get Reg.SIE_REC_DROPPED + 1) % 2 ^ 64 := by
  have hcanon := (writes_dropped s).canon hc
  rw [dropChunk_first h, get_raise ((noteOnce_canon _ _).trans hcanon) _ _ _ (by decide) (by decide), noteOnce_get, State.bump,
    get_put_same hc (by decide)]
  rfl

theorem dropChunk_recRt (h : 0xD0B ∉ s.once) (j : Nat) : s.dropChunk.recRt j = s.recRt j := by
  rw [dropChunk_first h, recRt_raise]
  exact recRt_put ..

theorem posted_dropChunk {s₀ : State} (hevents : s.events = s₀.events) (h : 0xD0B ∉ s.once) : posted s₀ s.dropChunk .sie 11 [] := by
  rw [dropChunk_first h]
  exact posted_raise (t := (s.bump Reg.SIE_REC_DROPPED).noteOnce 0xD0B) ((State.bump_events ..).trans hevents) .sie 11 []

theorem chunkDue_drops (hc : s.canon = true) {x : RecRt} (hx : s.recRt k = some x) (hrun : s.running .sie = true)
    (hstate : s.get (Reg.REC_STATE k) = 2) (hstop : x.stop = none) (hdue : x.start + (x.seq + 1) * s.chunkTicks k ≤ s.tick)
    (hfull : s.get (Reg.REC_STAGE k) = 0) (hwrap : s.flag (Reg.REC_WRAP k) = true) (honce : 0xD0B ∉ s.once) :
    completes (.chunkDue k) s fun t => t.get Reg.SIE_REC_DROPPED = (s.get Reg.SIE_REC_DROPPED + 1) % 2 ^ 64 ∧
      t.recRt k = some { x with seq := x.seq + 1 } ∧ posted s t .sie 11 [] := by
  obtain ⟨n, hn⟩ := chunkBody_free s k (x.start + x.seq * s.chunkTicks k)
  have hexec := exec_chunkDue hx hrun hstate hstop hdue
  have hcanon : ((s.freeAt n).setRec { x with seq := x.seq + 1 }).canon = true := (setRec_canon _ _).trans ((freeAt_canon s n).trans hc)
  have hget : ∀ f, ((s.freeAt n).setRec { x with seq := x.seq + 1 }).get f = s.get f := fun f => (setRec_get _ _ f).trans (freeAt_get s n f)
  have hrec : ((s.freeAt n).setRec { x with seq := x.seq + 1 }).recRt k = some { x with seq := x.seq + 1 } :=
    recRt_setRec _ (show x.index = k.val from recRt_index hx)
  have honce' : 0xD0B ∉ ((s.freeAt n).setRec { x with seq := x.seq + 1 }).once := honce
  have hevents : ((s.freeAt n).setRec { x with seq := x.seq + 1 }).events = s.events := rfl
  rw [chunkDueNow_drops hfull hn rfl
    (by rw [tapsKept_flag, State.flag, dropChunk_recRow hcanon honce' 28 28 (by decide), hget]; exact hwrap)
    (by rw [tapsKept_get, dropChunk_recRow hcanon honce' 31 29 (by decide), hget, hstate]; decide)] at hexec
  generalize (s.freeAt n).setRec { x with seq := x.seq + 1 } = u at *
  refine ⟨_, hexec, ?_, ?_, fun hroom => ?_⟩
  · rw [tapsKept_get, dropChunk_counted hcanon honce', hget]
  · rw [tapsKept_recRt, dropChunk_recRt honce', hrec]
  · rw [tapsKept_events]
    exact posted_dropChunk hevents honce' hroom

/-- The state with other outputs. -/
def State.outAt (s : State) (l : List Out) : State := { s with out := l }

theorem outAt_get (s : State) (l : List Out) (f : Field) : (s.outAt l).get f = s.get f := rfl
theorem outAt_flag (s : State) (l : List Out) (f : Field) : (s.outAt l).flag f = s.flag f := rfl
theorem outAt_out (s : State) (l : List Out) : (s.outAt l).out = l := rfl
theorem outAt_events (s : State) (l : List Out) : (s.outAt l).events = s.events := rfl
theorem setRec_flag (s : State) (x : RecRt) (f : Field) : (s.setRec x).flag f = s.flag f := rfl
theorem setRec_out (s : State) (x : RecRt) : (s.setRec x).out = s.out := rfl
theorem setRec_events (s : State) (x : RecRt) : (s.setRec x).events = s.events := rfl

/-- Without encryption a chunk's writes only leave for the drive. -/
theorem writeChunk_plain {i : Nat} (hplain : s.flag (Reg.NS_ENC i) = false) (nsid lba : Nat) (l : Bytes) (n : Nat) :
    ∃ o, s.writeChunk i nsid lba l n = s.outAt o ∧ s.out <:+ o := by
  induction n generalizing s lba l with
  | zero => exact ⟨s.out, rfl, List.suffix_refl _⟩
  | succ n ih =>
    rw [State.writeChunk]
    split
    · exact ⟨s.out, rfl, List.suffix_refl _⟩
    · have hbegin : s.xtsBegin i true nsid 4096 lba 0 (l.take 131072) = (.ok (l.take 131072, none), s) := by
        rw [State.xtsBegin, hplain]
        rfl
      rw [hbegin]
      obtain ⟨o, ho, hsuffix⟩ := ih (s := s.emit (.nvme 1 nsid lba ((l.take 131072).length / 4096) (l.take 131072))) (by exact hplain)
        (lba + 32) (l.drop 131072)
      exact ⟨o, ho, (List.suffix_cons _ _).trans hsuffix⟩

theorem chunkDueNow_stages {x : RecRt} (hroom : x.staged.length < s.get (Reg.REC_STAGE k)) (hslot : s.slotState = 5)
    (hpresent : s.get (Reg.NS_PRESENT (s.get (Reg.REC_NS k))) = 1) (hplain : s.flag (Reg.NS_ENC (s.get (Reg.REC_NS k))) = false) {n : Nat}
    (hn : (s.chunkBody k (x.start + x.seq * s.chunkTicks k)).2 = s.freeAt n) (hwrap : s.flag (Reg.REC_WRAP k) = true)
    (hstate : s.get (Reg.REC_STATE k) ≠ 3) : ∃ o, s.out <:+ o ∧ s.chunkDueNow x k =
      (((s.freeAt n).outAt o).setRec { x with seq := x.seq + 1, staged := x.staged ++ [x.seq] }).tapsKept := by
  unfold State.chunkDueNow
  dsimp only
  rw [hn, freeAt_get, freeAt_get, freeAt_slotState, freeAt_flag, freeAt_get, hslot, hpresent, hplain, decide_eq_true hroom]
  simp only [Bool.not_true, Bool.not_false, Bool.true_or, beq_self_eq_true, Bool.and_self, Bool.false_eq_true, if_false]
  obtain ⟨o, ho, hsuffix⟩ := writeChunk_plain (s := s.freeAt n) (i := s.get (Reg.REC_NS k)) hplain (s.get (Reg.NS_NSID (s.get (Reg.REC_NS k))))
    (s.get (Reg.REC_START_LBA k) + x.seq % (s.get (Reg.REC_LBAS k) / x.blocks) * x.blocks) _ x.blocks
  refine ⟨o, hsuffix, ?_⟩
  rw [ho]
  exact chunkEnd_wraps (s := (((s.freeAt n).outAt o).setRec { x with seq := x.seq + 1, staged := x.staged ++ [x.seq] }).tapsKept)
    (by rw [tapsKept_flag, setRec_flag, outAt_flag, freeAt_flag]; exact hwrap)
    (by rw [tapsKept_get, setRec_get, outAt_get, freeAt_get]; exact hstate) _ _

theorem chunkDue_stages {x : RecRt} (hx : s.recRt k = some x) (hrun : s.running .sie = true)
    (hstate : s.get (Reg.REC_STATE k) = 2) (hstop : x.stop = none) (hdue : x.start + (x.seq + 1) * s.chunkTicks k ≤ s.tick)
    (hroom : x.staged.length < s.get (Reg.REC_STAGE k)) (hslot : s.slotState = 5)
    (hpresent : s.get (Reg.NS_PRESENT (s.get (Reg.REC_NS k))) = 1) (hplain : s.flag (Reg.NS_ENC (s.get (Reg.REC_NS k))) = false)
    (hwrap : s.flag (Reg.REC_WRAP k) = true) : completes (.chunkDue k) s fun t =>
      t.recRt k = some { x with seq := x.seq + 1, staged := x.staged ++ [x.seq] } ∧ s.out <:+ t.out ∧
      t.get Reg.SIE_REC_DROPPED = s.get Reg.SIE_REC_DROPPED ∧ t.events = s.events := by
  obtain ⟨n, hn⟩ := chunkBody_free s k (x.start + x.seq * s.chunkTicks k)
  have hexec := exec_chunkDue hx hrun hstate hstop hdue
  obtain ⟨o, hsuffix, hstaged⟩ := chunkDueNow_stages hroom hslot hpresent hplain hn hwrap (by rw [hstate]; decide)
  rw [hstaged] at hexec
  refine ⟨_, hexec, ?_, ?_, ?_, ?_⟩
  · rw [tapsKept_recRt]
    exact recRt_setRec _ (show x.index = k.val from recRt_index hx)
  · rw [tapsKept_out, setRec_out, outAt_out]
    exact hsuffix
  · rw [tapsKept_get, setRec_get, outAt_get, freeAt_get]
  · rw [tapsKept_events, setRec_events, outAt_events, freeAt_events]

theorem exec_chunkWritten {x : RecRt} (hx : s.recRt k = some x) (hrun : s.running .sie = true) (hstaged : x.staged ≠ []) :
    exec (.chunkWritten k true) s =
      .next ((((s.setRec { x with staged := x.staged.drop 1 }).bump Reg.SIE_REC_CHUNKS).recIdle k).shutdownWhenIdle) := by
  have he : exec (.chunkWritten k true) s = execChunkWritten k true s := rfl
  rw [he]
  unfold execChunkWritten
  simp only [hx]
  rw [if_neg (by simp [hrun, hstaged]), if_pos trivial]

theorem shutdownWhenIdle_kept (h : s.slotState ≠ 6) : s.shutdownWhenIdle = s := by
  rw [State.slotState] at h
  rw [State.shutdownWhenIdle, beq_eq_false_iff_ne.mpr h, Bool.false_and, Bool.false_and, if_neg Bool.false_ne_true]

theorem chunkWritten_counts (hc : s.canon = true) {x : RecRt} (hx : s.recRt k = some x) (hrun : s.running .sie = true) {n : Nat} {l : List Nat}
    (hstaged : x.staged = n :: l) (hstate : s.get (Reg.REC_STATE k) = 2) (hslot : s.slotState ≠ 6) :
    completes (.chunkWritten k true) s fun t => t.get Reg.SIE_REC_CHUNKS = (s.get Reg.SIE_REC_CHUNKS + 1) % 2 ^ 64 ∧
      t.recRt k = some { x with staged := l } ∧
      QuietFrame (words [Reg.SIE_REC_CHUNKS]) s { s with sie := { s.sie with recs := t.sie.recs } } t := by
  have hexec := exec_chunkWritten hx hrun (by rw [hstaged]; exact List.cons_ne_nil _ _)
  rw [hstaged, List.drop_one, List.tail_cons] at hexec
  have hcanon : (s.setRec { x with staged := l }).canon = true := (setRec_canon _ _).trans hc
  have hrec : (s.setRec { x with staged := l }).recRt k = some { x with staged := l } :=
    recRt_setRec _ (show x.index = k.val from recRt_index hx)
  have hget := setRec_get s { x with staged := l }
  have hrd := setRec_rd s { x with staged := l }
  have hrest : s.setRec { x with staged := l } = { s with sie := { s.sie with recs := (s.setRec { x with staged := l }).sie.recs } } := rfl
  generalize s.setRec { x with staged := l } = u at *
  have hwrites : Writes (words [Reg.SIE_REC_CHUNKS]) u (u.bump Reg.SIE_REC_CHUNKS) :=
    writes_bump (Writes.refl u) (by decide) (.inr (by decide))
  have hstate' : (u.bump Reg.SIE_REC_CHUNKS).get (Reg.REC_STATE k) ≠ 3 := by
    rw [hwrites.within.get_eq_low hcanon (show 31 < 32 by decide) (by rw [Bool.eq_false_iff]; simp [words]; omega), hget, hstate]
    decide
  have hslot' : (u.bump Reg.SIE_REC_CHUNKS).slotState ≠ 6 := by
    rw [State.slotState, hwrites.within.get_eq_low hcanon (by decide) (by decide), hget]
    exact hslot
  rw [recIdle_kept hstate', shutdownWhenIdle_kept hslot'] at hexec
  refine ⟨_, hexec, ?_, ?_, fun j hj => (hwrites.within.words hcanon j hj).trans (hrd j), ?_⟩
  · rw [State.bump, get_put_same hcanon (by decide), hget]
    rfl
  · rw [State.bump, recRt_put, hrec]
  · rw [hwrites.rest, hrest]

end

/-- Settles O50: a recording's words, its START and STOP, its beginning and end, and its chunks. -/
theorem recorderCommandsComplete : Obligations.RecorderCommandsComplete := by
  unfold Obligations.RecorderCommandsComplete
  intro s hc k
  refine ⟨fun q w v hmanager hserved hshow => ⟨fun hidle hlo hhi => recordingWrite_takes hc hmanager hserved hshow hidle w hlo hhi v,
      fun hbusy => recordingWrite_refused hbusy w v⟩,
    fun q f u at_ hmay hrun hf hu hat hnow => ⟨fun hidle => ⟨fun hbad => ?_, fun hgood hfull => ?_, fun hgood hroom => ?_, ?_⟩,
      fun x hbusy hx => recStop_stops hc hmay hrun hat hbusy hx hnow⟩,
    fun x hx hrun => ⟨fun hstate hdue => recStarted_runs hc hx hrun hstate hdue,
      fun at_ hstop hdue hlast hstaged hstate => stopEffective_ends hc hx hrun hstop hdue hlast hstaged hstate,
      fun at_ hstop hdue hmore hstate => stopEffective_stopping hc hx hrun hstop hdue hmore hstate,
      fun hstate hstop hdue hfull hwrap honce => chunkDue_drops hc hx hrun hstate hstop hdue hfull hwrap honce,
      fun hstate hstop hdue hroom hslot hpresent hplain hwrap => chunkDue_stages hx hrun hstate hstop hdue hroom hslot hpresent hplain hwrap,
      fun n l hstaged hstate hslot => chunkWritten_counts hc hx hrun hstaged hstate hslot⟩⟩
  · exact completes_recAnswered hc (by rw [exec_recStart, recCmd_bad hmay hrun hidle hbad]) (by decide)
  · subst hf hu
    exact completes_recAnswered hc (by rw [exec_recStart, recCmd_full hmay hrun hidle hgood hfull]) (by decide)
  · exact recStart_arms hc hmay hrun hf hu hat hidle hgood hroom hnow
  · exact completes_recAnswered hc (by rw [exec_recStop, recCmd_wrongState hmay hrun hidle]) (by decide)

end Sys2Proof.Machine
end

section
/-! PROOFS. What a segment of a connection changes, and what a command that ends (R400, R402, R404, R407). -/

namespace Sys2Proof.Machine

/-! ## Segments (R404) -/

section
variable {s t : State}

/-- The words a frame of source HOST changes on its way to the pipelines. -/
def hostHwm : Field := Reg.PCU_REORDER_HWM_HWM 33

theorem within_pumpOne (s : State) (i : Nat) {area : Nat → Bool}
    (h : ∀ x ∈ s.pcu.queue, area (Reg.PCU_REORDER_HWM_HWM x.src).key = true) : Within area s (s.pumpOne i) := by
  unfold State.pumpOne
  split
  · exact Within.refl s
  · rename_i x hx
    split
    · exact Within.refl s
    · split
      · exact Within.refl s
      · rename_i p _
        have hplaced : Within area s (s.headPlaced i p x) := within_same (Within.refl s) rfl rfl rfl
        change Within area s ((s.headPlaced i p x).when _ _)
        exact within_when hplaced (within_put hplaced (h x (List.mem_of_getElem? hx)) (.inl (show 12 < 32 by decide)))

theorem within_pump (s : State) : Within anyWord s s.pump :=
  within_foldl (Within.refl s) fun u i hu => hu.trans (within_pumpOne u i fun _ _ => rfl)

/-- The state with other heads waiting for their pipelines. -/
def State.queued (s : State) (l : List HeadIn) : State := { s with pcu := { s.pcu with queue := l } }

/-- A head as it joins those that wait. -/
def headWaiting (h : HeadIn) (home : Nat) : HeadIn := if h.media then { h with pipe := home } else { h with pipe := 4 }

theorem distribute_eq (s : State) (h : HeadIn) (home : Nat) :
    s.distribute h home = (s.queued (s.pcu.queue ++ [headWaiting h home])).pump := rfl

theorem headWaiting_src (h : HeadIn) (home : Nat) : (headWaiting h home).src = h.src := by
  unfold headWaiting
  split
  · rfl
  · rfl

theorem within_distribute (s : State) (h : HeadIn) (home : Nat) : Within anyWord s (s.distribute h home) :=
  (within_same (Within.refl s) rfl rfl rfl : Within anyWord s (s.queued (s.pcu.queue ++ [headWaiting h home]))).trans (within_pump _)

/-- The frame of a host that joins no other changes its source's high-water mark only. -/
theorem within_distribute_host (hqueue : s.pcu.queue = []) {h : HeadIn} (hsrc : h.src = 33) (home : Nat) :
    Within (words [hostHwm]) s (s.distribute h home) := by
  rw [distribute_eq, hqueue, List.nil_append]
  have hone : (s.queued [headWaiting h home]).pump = (s.queued [headWaiting h home]).pumpOne 0 := rfl
  rw [hone]
  refine (within_same (Within.refl s) rfl rfl rfl : Within _ s (s.queued [headWaiting h home])).trans (within_pumpOne _ 0 fun x hx => ?_)
  have hx' : x = headWaiting h home := List.mem_singleton.mp hx
  rw [hx', headWaiting_src, hsrc]
  decide

/-- The head of a segment. -/
def State.segmentHead (s : State) (c : Nat) (frame : Bytes) : HeadIn :=
  ⟨33, s.get (Reg.CONN_FUNC c), frame, frame.length, 0, 0, false, true, false, false, none, none, 0, 0, .none⟩

theorem sendTcp_eq (s : State) (c : Nat) (x : ConnRt) (seq flags : Nat) (l : Bytes) :
    ∃ frame, s.sendTcp c x seq flags l = (s.freeAt (s.free + 1)).distribute (s.segmentHead c frame) 0 := ⟨_, rfl⟩

/-- What a segment changes. -/
structure Sent (s t : State) : Prop where
  any : Within anyWord s t
  first : s.pcu.queue = [] → Within (words [hostHwm]) s t
  rest : t = { s with regs := t.regs, pcu := t.pcu, free := t.free }

theorem sent_sendTcp (s : State) (c : Nat) (x : ConnRt) (seq flags : Nat) (l : Bytes) : Sent s (s.sendTcp c x seq flags l) := by
  obtain ⟨frame, hsent⟩ := sendTcp_eq s c x seq flags l
  rw [hsent]
  refine ⟨?_, fun hqueue => ?_, ?_⟩
  · exact (within_same (Within.refl s) rfl rfl rfl : Within anyWord s (s.freeAt (s.free + 1))).trans (within_distribute _ _ _)
  · exact (within_same (Within.refl s) rfl rfl rfl : Within _ s (s.freeAt (s.free + 1))).trans
      (within_distribute_host (s := s.freeAt (s.free + 1)) hqueue (h := s.segmentHead c frame) rfl 0)
  · rw [distribute_rest]
    rfl

theorem Sent.conns (h : Sent s t) : t.sie = s.sie := by rw [h.rest]
theorem Sent.conn (h : Sent s t) (c : Nat) : t.conn? c = s.conn? c := by rw [State.conn?, h.conns, State.conn?]
theorem Sent.events (h : Sent s t) : t.events = s.events := by rw [h.rest]
theorem Sent.out (h : Sent s t) : t.out = s.out := by rw [h.rest]
theorem Sent.canon (h : Sent s t) (hc : s.canon = true) : t.canon = true := h.any.canon hc

theorem Sent.get (h : Sent s t) (hqueue : s.pcu.queue = []) (hc : s.canon = true) {f : Field} (hkey : hostHwm.key + 4 < f.key) :
    t.get f = s.get f :=
  (h.first hqueue).get_eq hc (by rw [Bool.eq_false_iff]; simp [words]; omega) (by rw [Bool.eq_false_iff]; simp [words]; omega)

end

/-! ## Connections by their handle -/

section
variable {s : State} {c : Nat}

theorem conn_setConn (s : State) (c : Nat) (x : ConnRt) : (s.setConn c x).conn? c = some x := Assoc.get?_set_same _ _ _
theorem conn_dropConn (s : State) (c : Nat) : (s.dropConn c).conn? c = none := Assoc.get?_erase_same _ _
theorem conn_put (s : State) (f : Field) (v c : Nat) : (s.put f v).conn? c = s.conn? c := by rw [put_rest]; rfl
theorem conn_raiseEvent (s : State) (e : Event) (c : Nat) : (s.raiseEvent e).conn? c = s.conn? c := by rw [raiseEvent_rest]; rfl
theorem setConn_commands (s : State) (c : Nat) (x : ConnRt) : (s.setConn c x).sie.commands = s.sie.commands := rfl
theorem setConn_out (s : State) (c : Nat) (x : ConnRt) : (s.setConn c x).out = s.out := rfl
theorem dropConn_get (s : State) (c : Nat) (f : Field) : (s.dropConn c).get f = s.get f := rfl
theorem dropConn_canon (s : State) (c : Nat) : (s.dropConn c).canon = s.canon := rfl
theorem setCommands_get (s : State) (l : List StorCmd) (f : Field) : (s.setCommands l).get f = s.get f := rfl
theorem setCommands_commands (s : State) (l : List StorCmd) : (s.setCommands l).sie.commands = l := rfl

end

/-! ## Commands that complete (R400, R402) -/

/-- The counters of completed commands (R422). -/
def doneWords : List Field := [Reg.SIE_CMD_DONE, Reg.SIE_CMD_ERR, Reg.SUP_TRACK_STATUS_HELD]

/-- What the end of commands changes: the counters, the rings' entries and the commands in flight. -/
structure Ends (s t : State) : Prop where
  within : Within (words doneWords) s t
  rest : t = { s with regs := t.regs, qe := { s.qe with rings := t.qe.rings }, sie := { s.sie with commands := t.sie.commands } }

section
variable {s t u : State}

theorem Ends.refl (s : State) : Ends s s := ⟨Within.refl s, rfl⟩
theorem Ends.trans (h : Ends s t) (g : Ends t u) : Ends s u := ⟨h.within.trans g.within, by rw [g.rest, h.rest]⟩
theorem Ends.conns (h : Ends s t) : t.sie.conns = s.sie.conns := by rw [h.rest]
theorem Ends.conn (h : Ends s t) (c : Nat) : t.conn? c = s.conn? c := by rw [State.conn?, h.conns, State.conn?]
theorem Ends.events (h : Ends s t) : t.events = s.events := by rw [h.rest]
theorem Ends.canon (h : Ends s t) (hc : s.canon = true) : t.canon = true := h.within.canon hc

theorem Ends.get (h : Ends s t) (hc : s.canon = true) {f : Field} (hlo : words doneWords f.key = false) (hword : f.hi < 32) :
    t.get f = s.get f := h.within.get_eq_low hc hword hlo

theorem ends_setCommands (s : State) (l : List StorCmd) : Ends s (s.setCommands l) := ⟨within_same (Within.refl s) rfl rfl rfl, rfl⟩

/-- A ring with its entry of sequence `q` completed. -/
def ringCompleted (x : RingRt) (q status dw0 bytes : Nat) : RingRt :=
  { x with taken := x.taken.map (fun t =>
      if t.seq = q then { t with entry := resultEntry t.entry status dw0 bytes, done := true } else t) }

/-- A completed command is counted (R422). -/
def State.doneCounted (s : State) (status : Nat) : State :=
  (s.bump Reg.SIE_CMD_DONE).trackGive.when (2 ^ 14 ≤ status) (fun s => s.bump Reg.SIE_CMD_ERR)

theorem writes_doneCounted (s : State) (status : Nat) : Writes (words doneWords) s (s.doneCounted status) := by
  have hdone : Writes (words doneWords) s (s.bump Reg.SIE_CMD_DONE).trackGive :=
    writes_put (writes_bump (Writes.refl s) (by decide) (.inr (by decide))) (by decide) (.inl (by decide))
  exact writes_when hdone (writes_bump hdone (by decide) (.inr (by decide)))

theorem completeEntry_held {r q : Nat} (hkept : (s.ring r).abandoned = false) (htaken : (s.ring r).taken.any (fun k => k.seq == q && !k.done) = true)
    (status dw0 bytes : Nat) :
    s.completeEntry r q status dw0 bytes = (s.setRing r (ringCompleted (s.ring r) q status dw0 bytes)).doneCounted status := by
  unfold State.completeEntry
  dsimp only
  rw [if_neg (by rw [hkept, htaken]; decide)]
  rfl

theorem completeEntry_gone {r q : Nat} (h : (s.ring r).abandoned = true ∨ (s.ring r).taken.any (fun k => k.seq == q && !k.done) = false)
    (status dw0 bytes : Nat) : s.completeEntry r q status dw0 bytes = s := by
  unfold State.completeEntry
  dsimp only
  rw [if_pos (by obtain h | h := h <;> rw [h] <;> simp)]

theorem ends_completeEntry (s : State) (r q status dw0 bytes : Nat) : Ends s (s.completeEntry r q status dw0 bytes) := by
  by_cases hkept : (s.ring r).abandoned = false ∧ (s.ring r).taken.any (fun k => k.seq == q && !k.done) = true
  · rw [completeEntry_held hkept.1 hkept.2]
    have hcount := writes_doneCounted (s.setRing r (ringCompleted (s.ring r) q status dw0 bytes)) status
    have hring : Within (words doneWords) s (s.setRing r (ringCompleted (s.ring r) q status dw0 bytes)) :=
      within_same (Within.refl s) rfl rfl rfl
    exact ⟨hring.trans hcount.within, by rw [hcount.rest]; rfl⟩
  · rw [completeEntry_gone (by rw [not_and_or, Bool.not_eq_false, Bool.not_eq_true] at hkept; exact hkept)]
    exact Ends.refl s

theorem completeEntry_commands (s : State) (r q status dw0 bytes : Nat) :
    (s.completeEntry r q status dw0 bytes).sie.commands = s.sie.commands := by
  by_cases hkept : (s.ring r).abandoned = false ∧ (s.ring r).taken.any (fun k => k.seq == q && !k.done) = true
  · rw [completeEntry_held hkept.1 hkept.2, (writes_doneCounted _ _).rest]
    rfl
  · rw [completeEntry_gone (by rw [not_and_or, Bool.not_eq_false, Bool.not_eq_true] at hkept; exact hkept)]

theorem ends_finish (s : State) (x : StorCmd) (status dw0 : Nat) : Ends s (s.finish x status dw0) := by
  unfold State.finish
  have hgone := ends_setCommands s (s.sie.commands.erase x)
  split
  · exact hgone
  · exact hgone.trans (ends_completeEntry _ _ _ _ _ _)

theorem finish_commands (s : State) (x : StorCmd) (status dw0 : Nat) : (s.finish x status dw0).sie.commands = s.sie.commands.erase x := by
  unfold State.finish
  split
  · rfl
  · rw [completeEntry_commands, setCommands_commands]

theorem ends_foldl_finish (l : List StorCmd) (code : Nat) (s : State) :
    Ends s (l.foldl (fun s c => s.finish c (deviceError code) 0) s) ∧
      (l.foldl (fun s c => s.finish c (deviceError code) 0) s).sie.commands = s.sie.commands.diff l := by
  induction l generalizing s with
  | nil => exact ⟨Ends.refl s, rfl⟩
  | cons x l ih =>
    obtain ⟨hends, hcommands⟩ := ih (s.finish x (deviceError code) 0)
    exact ⟨(ends_finish s x _ 0).trans hends, by rw [List.foldl_cons, hcommands, finish_commands, List.diff_cons]⟩

/-- A list without its elements of a property. -/
theorem mem_diff_filter {α : Type} [DecidableEq α] {l : List α} {p : α → Bool} {x : α} (h : x ∈ l.diff (l.filter p)) : p x = false := by
  by_contra hp
  have hcount := List.count_pos_iff.mpr h
  rw [List.count_diff, List.count_filter (Bool.eq_true_of_not_eq_false hp), Nat.sub_self] at hcount
  exact absurd hcount (lt_irrefl 0)

theorem ends_finishAll (s : State) (p : StorCmd → Bool) (code : Nat) : Ends s (s.finishAll p code) := (ends_foldl_finish _ code s).1

theorem finishAll_commands {p : StorCmd → Bool} {code : Nat} {m : StorCmd} (h : m ∈ (s.finishAll p code).sie.commands) : p m = false := by
  rw [State.finishAll, (ends_foldl_finish _ code s).2] at h
  exact mem_diff_filter h

end

/-! ## A connection that fails (R407) -/

section
variable {s : State}

/-- A connection is gone, with its cause. -/
def State.connDown (s : State) (c st cause : Nat) : State := ((s.dropConn c).put (Reg.CONN_STATE c) st).put (Reg.CONN_DOWN_CAUSE c) cause

/-- The commands of a connection. -/
def ofConn (c : Nat) (x : StorCmd) : Bool := !x.ns && x.handle == c

theorem failConn_eq (s : State) (c cause : Nat) : s.failConn c cause = ((s.finishAll (ofConn c) 3).connDown c 5 cause).raiseFor .sie 2
    (((s.finishAll (ofConn c) 3).connDown c 5 cause).get (Reg.CONN_FUNC c)) [(16, c), (8, cause)] := rfl

theorem get_put_conn (hc : s.canon = true) {f g : Field} (h : f.off g = true) (c v : Nat) :
    (s.put (f.up (64 * c)) v).get (g.up (64 * c)) = s.get (g.up (64 * c)) := get_put_off hc (off_up (by omega) h)

theorem writes_connDown (s : State) (c st cause : Nat) :
    Writes (words [Reg.CONN_STATE c, Reg.CONN_DOWN_CAUSE c]) (s.dropConn c) (s.connDown c st cause) :=
  writes_put (writes_put (Writes.refl _) (words_key (f := Reg.CONN_STATE c) (by simp)) (.inl (show 31 < 32 by decide)))
    (words_key (f := Reg.CONN_DOWN_CAUSE c) (by simp)) (.inl (show 7 < 32 by decide))

theorem connDown_canon (hc : s.canon = true) (c st cause : Nat) : (s.connDown c st cause).canon = true :=
  (writes_connDown s c st cause).canon ((dropConn_canon s c).trans hc)

theorem connDown_state (hc : s.canon = true) (c cause : Nat) {st : Nat} (hst : st < 8) :
    (s.connDown c st cause).get (Reg.CONN_STATE c) = st := by
  have hput : ((s.dropConn c).put (Reg.CONN_STATE c) st).canon = true :=
    (writes_put (Writes.refl (s.dropConn c)) (area := anyWord) rfl (.inl (show 31 < 32 by decide))).canon ((dropConn_canon s c).trans hc)
  exact (get_put_conn (f := Reg.CONN_DOWN_CAUSE 0) (g := Reg.CONN_STATE 0) hput (by decide) c cause).trans
    ((get_put_same ((dropConn_canon s c).trans hc) (ok_up (f := Reg.CONN_STATE 0) (d := 64 * c) (by omega) (by decide))).trans (Nat.mod_eq_of_lt hst))

theorem connDown_cause (hc : s.canon = true) (c st : Nat) {cause : Nat} (hcause : cause < 256) :
    (s.connDown c st cause).get (Reg.CONN_DOWN_CAUSE c) = cause := by
  have hput : ((s.dropConn c).put (Reg.CONN_STATE c) st).canon = true :=
    (writes_put (Writes.refl (s.dropConn c)) (area := anyWord) rfl (.inl (show 31 < 32 by decide))).canon ((dropConn_canon s c).trans hc)
  exact (get_put_same hput (ok_up (f := Reg.CONN_DOWN_CAUSE 0) (d := 64 * c) (by omega) (by decide))).trans (Nat.mod_eq_of_lt hcause)

theorem connDown_func (hc : s.canon = true) (c st cause : Nat) : (s.connDown c st cause).get (Reg.CONN_FUNC c) = s.get (Reg.CONN_FUNC c) := by
  have hput : ((s.dropConn c).put (Reg.CONN_STATE c) st).canon = true :=
    (writes_put (Writes.refl (s.dropConn c)) (area := anyWord) rfl (.inl (show 31 < 32 by decide))).canon ((dropConn_canon s c).trans hc)
  exact (get_put_conn (f := Reg.CONN_DOWN_CAUSE 0) (g := Reg.CONN_FUNC 0) hput (by decide) c cause).trans
    ((get_put_conn (f := Reg.CONN_STATE 0) (g := Reg.CONN_FUNC 0) ((dropConn_canon s c).trans hc) (by decide) c st).trans (dropConn_get ..))

theorem connDown_conn (s : State) (c st cause : Nat) : (s.connDown c st cause).conn? c = none := by
  rw [State.connDown, conn_put, conn_put, conn_dropConn]

theorem connDown_commands (s : State) (c st cause : Nat) : (s.connDown c st cause).sie.commands = s.sie.commands := by
  rw [(writes_connDown s c st cause).rest]
  rfl

theorem connDown_events (s : State) (c st cause : Nat) : (s.connDown c st cause).events = s.events := by
  rw [(writes_connDown s c st cause).rest]
  rfl

/-- What is left of a connection that has failed, with the event. -/
structure Failed (c cause f : Nat) (s t : State) : Prop where
  state : t.get (Reg.CONN_STATE c) = 5
  reason : t.get (Reg.CONN_DOWN_CAUSE c) = cause
  conn : t.conn? c = none
  commands : ∀ m ∈ t.sie.commands, m.ns = true ∨ m.handle ≠ c
  posted : postedAs s t ⟨13, 2, f, .pf, payload [(16, c), (8, cause)]⟩
  canon : t.canon = true

theorem apart_conn (l : List Field) (hl : l.all (fun f => f.key + 4 < 0x0D100000) = true) (k : Nat) (hk : 0x0D100000 ≤ k) : words l k = false := by
  rw [words, List.any_eq_false]
  intro f hf
  have hlow := of_decide_eq_true (List.all_eq_true.mp hl f hf)
  simp only [Bool.or_eq_true, beq_iff_eq, Bool.and_eq_true, not_or]
  omega

theorem failConn_failed (hc : s.canon = true) (c : Fin 8192) {cause : Nat} (hcause : cause < 256) :
    Failed c cause (s.get (Reg.CONN_FUNC c)) s (s.failConn c cause) := by
  have hends := ends_finishAll s (ofConn c) 3
  have hcommands : ∀ m ∈ (s.finishAll (ofConn c) 3).sie.commands, ofConn c m = false := fun m => finishAll_commands
  have hfunc : (s.finishAll (ofConn c) 3).get (Reg.CONN_FUNC c) = s.get (Reg.CONN_FUNC c) :=
    hends.get hc (apart_conn _ (by decide) _ (Nat.le_add_right _ _)) (show 11 < 32 by decide)
  rw [failConn_eq]
  generalize s.finishAll (ofConn c) 3 = u at *
  have hu := hends.canon hc
  have hdown := connDown_canon hu c.val 5 cause
  rw [connDown_func hu, hfunc]
  have hlost : ∀ k, 0x0D100000 ≤ k → k < 0x0D180000 → words [Reg.QE_ARB_LOST] k = false := fun k hlo hhi => by
    rw [Bool.eq_false_iff]
    simp [words]
    omega
  refine ⟨?_, ?_, ?_, fun m hm => ?_, ?_, ?_⟩
  · rw [State.raiseFor, get_raiseEvent hdown _ (hlost _ (by simp) (by simp; omega)) (hlost _ (by simp; omega) (by simp; omega))]
    exact connDown_state hu c cause (by decide)
  · rw [State.raiseFor, get_raiseEvent hdown _ (hlost _ (by simp; omega) (by simp; omega)) (hlost _ (by simp; omega) (by simp; omega))]
    exact connDown_cause hu c 5 hcause
  · rw [State.raiseFor, conn_raiseEvent, connDown_conn]
  · rw [State.raiseFor, raiseEvent_rest] at hm
    have hm' : m ∈ u.sie.commands := by rw [← connDown_commands u c 5 cause]; exact hm
    have hother := hcommands m hm'
    rw [ofConn, Bool.and_eq_false_iff, Bool.not_eq_false', beq_eq_false_iff_ne] at hother
    exact hother
  · exact postedAs_raiseEvent ((connDown_events ..).trans hends.events) _
  · exact (within_raiseEvent (area := anyWord) (Within.refl _) rfl rfl).canon hdown

/-- RST is sent where the connection is known. -/
def State.rstSent (s : State) (c : Nat) : State := match s.conn? c with | some x => s.sendTcp c x x.nxt 4 [] | none => s

theorem sent_rstSent (s : State) (c : Nat) : Sent s (s.rstSent c) := by
  unfold State.rstSent
  split
  · exact sent_sendTcp ..
  · exact ⟨Within.refl s, fun _ => Within.refl s, rfl⟩

theorem resetConn_eq (s : State) (c cause : Nat) : s.resetConn c cause = (s.rstSent c).failConn c cause := rfl

theorem resetConn_failed (hc : s.canon = true) (c : Fin 8192) {cause : Nat} (hcause : cause < 256) :
    Failed c cause ((s.rstSent c).get (Reg.CONN_FUNC c)) s (s.resetConn c cause) := by
  have hsent := sent_rstSent s c
  rw [resetConn_eq]
  obtain ⟨hstate, hdown, hconn, hcommands, hposted, hcanon⟩ := failConn_failed (hsent.canon hc) c hcause
  refine ⟨hstate, hdown, hconn, hcommands, ?_, hcanon⟩
  rw [postedAs, State.eventsOf, hsent.events] at hposted
  exact hposted

end

end Sys2Proof.Machine
end

section
/-! PROOFS. A connection's life (R406, R407, R414). -/

namespace Sys2Proof.Machine

/-! ## OPEN, CLOSE and ABORT (R407) -/

/-- A command of a connection answers with a result. -/
def State.connAnswered (s : State) (res : Nat) : State := s.put Reg.SIE_CONN_STATUS_RESULT res

/-- The handshake's first state: a SYN is to be sent. -/
def State.synRt (s : State) (c : Nat) : ConnRt :=
  ⟨Config.isn c (Assoc.getD s.sie.opens c 0) % 2 ^ 32, (Config.isn c (Assoc.getD s.sie.opens c 0) % 2 ^ 32 + 1) % 2 ^ 32, [], true, false, false,
    0, 0, 0, 0, s.get (Reg.CONN_MSS c), 0, 2 ^ 32, 0, none, 0, false, false, false, 0, false⟩

/-- A connection is opened: counted, held, and CONNECTING. -/
def State.connOpened (s : State) (c : Nat) : State :=
  (({ s with sie := { s.sie with opens := Assoc.set s.sie.opens c (Assoc.getD s.sie.opens c 0 + 1) } } : State).setConn c (s.synRt c)).put
    (Reg.CONN_STATE c) 1

section
variable {s : State} {q : Requester} {c : Fin 8192}

theorem writes_connAnswered (s : State) (res : Nat) : Writes (words [Reg.SIE_CONN_STATUS_RESULT]) s (s.connAnswered res) :=
  writes_put (Writes.refl s) (by decide) (.inl (by decide))

theorem connAnswered_result (hc : s.canon = true) {res : Nat} (h : res < 8) : (s.connAnswered res).get Reg.SIE_CONN_STATUS_RESULT = res :=
  (get_put_same hc (by decide)).trans (Nat.mod_eq_of_lt h)

theorem connAnswered_get (hc : s.canon = true) (res : Nat) {f : Field} (hkey : 0x0D100000 ≤ f.key) (hword : f.hi < 32) :
    (s.connAnswered res).get f = s.get f :=
  (writes_connAnswered s res).within.get_eq_low hc hword (apart_conn _ (by decide) _ hkey)

theorem connAnswered_conn (s : State) (res c : Nat) : (s.connAnswered res).conn? c = s.conn? c := conn_put ..
theorem connAnswered_events (s : State) (res : Nat) : (s.connAnswered res).events = s.events := by
  rw [(writes_connAnswered s res).rest]
theorem connAnswered_commands (s : State) (res : Nat) : (s.connAnswered res).sie = s.sie := by
  rw [(writes_connAnswered s res).rest]

/-- A command that only answers. -/
theorem completes_connAnswered (hc : s.canon = true) {i : Instr} {res : Nat} (hres : res < 8) (hexec : exec i s = .next (s.connAnswered res)) :
    completes i s fun t => t.get Reg.SIE_CONN_STATUS_RESULT = res ∧ QuietFrame (words [Reg.SIE_CONN_STATUS_RESULT]) s s t :=
  ⟨_, hexec, connAnswered_result hc hres, (writes_connAnswered s res).quietFrame hc⟩

variable (hmay : s.mayWrite q Reg.SIE_CONN_CMD_OP.key = true) (hrun : s.running .sie = true)
include hmay hrun

/-- The gate of a connection's command is open. -/
theorem connCmd_open : ¬(!s.mayWrite q Reg.SIE_CONN_CMD_OP.key || !s.running .sie || decide (8191 < c.val)) = true := by
  rw [hmay, hrun, decide_eq_false (show ¬8191 < c.val by omega)]
  decide

theorem exec_openConn_busy (hlo : 1 ≤ s.get (Reg.CONN_STATE c)) (hhi : s.get (Reg.CONN_STATE c) ≤ 4) :
    exec (.openConn q c) s = .next (s.connAnswered 1) := by
  have he : exec (.openConn q c) s = ok (s.connCmd q 1 c) := rfl
  rw [he, State.connCmd, if_neg (connCmd_open hmay hrun)]
  dsimp only
  rw [if_pos (by simp; omega)]
  rfl

theorem exec_openConn_bad (hidle : s.get (Reg.CONN_STATE c) = 0 ∨ s.get (Reg.CONN_STATE c) = 5) (hbad : s.badConn c = true) :
    exec (.openConn q c) s = .next (s.connAnswered 2) := by
  have he : exec (.openConn q c) s = ok (s.connCmd q 1 c) := rfl
  rw [he, State.connCmd, if_neg (connCmd_open hmay hrun)]
  dsimp only
  rw [if_neg (by simp; omega), if_pos hbad]
  rfl

theorem exec_openConn (hidle : s.get (Reg.CONN_STATE c) = 0 ∨ s.get (Reg.CONN_STATE c) = 5) (hgood : s.badConn c = false) :
    exec (.openConn q c) s = .next (((s.connOpened c).sendTcp c (s.synRt c) (s.synRt c).una 2 []).connAnswered 0) := by
  have he : exec (.openConn q c) s = ok (s.connCmd q 1 c) := rfl
  rw [he, State.connCmd, if_neg (connCmd_open hmay hrun)]
  dsimp only
  rw [if_neg (by simp; omega), if_neg (by rw [hgood]; decide)]
  rfl

theorem exec_closeConn_first (hstate : s.get (Reg.CONN_STATE c) = 1) : exec (.closeConn q c) s = .next ((s.connDown c 0 0).connAnswered 0) := by
  have he : exec (.closeConn q c) s = ok (s.connCmd q 2 c) := rfl
  rw [he, State.connCmd, if_neg (connCmd_open hmay hrun)]
  dsimp only
  rw [if_pos hstate]
  rfl

theorem exec_closeConn (hlo : 2 ≤ s.get (Reg.CONN_STATE c)) (hhi : s.get (Reg.CONN_STATE c) ≤ 3) :
    exec (.closeConn q c) s = .next (((s.put (Reg.CONN_STATE c) 4).finWhenIdle c).connAnswered 0) := by
  have he : exec (.closeConn q c) s = ok (s.connCmd q 2 c) := rfl
  rw [he, State.connCmd, if_neg (connCmd_open hmay hrun)]
  dsimp only
  rw [if_neg (show ¬s.get (Reg.CONN_STATE c) = 1 by omega),
    if_pos (show (decide (2 ≤ s.get (Reg.CONN_STATE c)) && decide (s.get (Reg.CONN_STATE c) ≤ 3)) = true by simp; omega)]
  rfl

theorem exec_abortConn (hlo : 1 ≤ s.get (Reg.CONN_STATE c)) (hhi : s.get (Reg.CONN_STATE c) ≤ 4) :
    exec (.abortConn q c) s = .next ((s.resetConn c 6).connAnswered 0) := by
  have he : exec (.abortConn q c) s = ok (s.connCmd q 3 c) := rfl
  rw [he, State.connCmd, if_neg (connCmd_open hmay hrun)]
  dsimp only
  rw [if_pos (show (decide (1 ≤ s.get (Reg.CONN_STATE c)) && decide (s.get (Reg.CONN_STATE c) ≤ 4)) = true by simp; omega)]
  rfl

end

section
variable {s : State} {c : Fin 8192}

theorem writes_connState (s : State) (c v : Nat) : Writes (words [Reg.CONN_STATE c]) s (s.put (Reg.CONN_STATE c) v) :=
  writes_put (Writes.refl s) (words_key (f := Reg.CONN_STATE c) (by simp)) (.inl (show 31 < 32 by decide))

theorem state_put_connState (hc : s.canon = true) (c : Nat) {v : Nat} (hv : v < 8) : (s.put (Reg.CONN_STATE c) v).get (Reg.CONN_STATE c) = v :=
  (get_put_same hc (ok_up (f := Reg.CONN_STATE 0) (d := 64 * c) (by omega) (by decide))).trans (Nat.mod_eq_of_lt hv)

theorem put_sie (s : State) (f : Field) (v : Nat) : (s.put f v).sie = s.sie := by rw [put_rest]

/-- A connection with commands in flight waits with its FIN. -/
theorem finWhenIdle_waits {c : Nat} (hbusy : s.sie.commands.any (fun m => !m.ns && m.handle == c) = true) : s.finWhenIdle c = s := by
  unfold State.finWhenIdle
  split
  · rw [hbusy, Bool.not_true, Bool.and_false, if_neg Bool.false_ne_true]
  · rfl

/-- A FIN that may go goes, and is noted. -/
theorem finWhenIdle_sends {c : Nat} {x : ConnRt} (hstate : s.get (Reg.CONN_STATE c) = 4) (hconn : s.conn? c = some x)
    (hidle : s.sie.commands.any (fun m => !m.ns && m.handle == c) = false) (hsyn : x.syn = false) (hfin : x.fin = false)
    (hsent : x.finSent = false) (hbuf : x.buf = []) (hflight : x.flight = 0) : s.finWhenIdle c =
      ((s.setConn c { x with fin := true }).setConn c { x with fin := true, finSent := true, nxt := (x.nxt + 1) % 2 ^ 32 }).sendTcp c
        { x with fin := true } x.nxt 17 [] := by
  have hpump : ∀ n, (s.setConn c { x with fin := true }).pumpTcp c (n + 1) =
      ((s.setConn c { x with fin := true }).setConn c { x with fin := true, finSent := true, nxt := (x.nxt + 1) % 2 ^ 32 }).sendTcp c
        { x with fin := true } x.nxt 17 [] := fun n => by
    have hzero : ({ x with fin := true } : ConnRt).flight = 0 := hflight
    rw [State.pumpTcp, conn_setConn]
    dsimp only
    rw [if_neg (by rw [hsyn]; decide), if_neg (by rw [hbuf]; simp), if_pos (by rw [hzero, hsent, hbuf]; decide)]
  unfold State.finWhenIdle
  rw [hconn]
  dsimp only
  rw [hstate, hfin, hidle, if_pos (by decide)]
  exact hpump _

theorem put_queue (s : State) (f : Field) (v : Nat) : (s.put f v).pcu = s.pcu := by rw [put_rest]

theorem connOpened_canon (hc : s.canon = true) (c : Nat) : (s.connOpened c).canon = true :=
  (writes_put (area := anyWord) (Writes.refl _) rfl (.inl (show 31 < 32 by decide))).canon hc

theorem connOpened_state (hc : s.canon = true) (c : Nat) : (s.connOpened c).get (Reg.CONN_STATE c) = 1 :=
  state_put_connState (s := ({ s with sie := { s.sie with opens := Assoc.set s.sie.opens c (Assoc.getD s.sie.opens c 0 + 1) } } : State).setConn c
    (s.synRt c)) hc c (by decide)

theorem connOpened_conn (s : State) (c : Nat) : (s.connOpened c).conn? c = some (s.synRt c) := by
  rw [State.connOpened, conn_put, conn_setConn]

theorem connOpened_queue (s : State) (c : Nat) : (s.connOpened c).pcu = s.pcu := put_queue ..

/-- A segment that is sent while none waits, and the answer, keep the connection's state. -/
theorem sent_answered {u t : State} (hsent : Sent u t) (hc : u.canon = true) (hqueue : u.pcu.queue = []) (res : Nat) (c : Nat) :
    (t.connAnswered res).get (Reg.CONN_STATE c) = u.get (Reg.CONN_STATE c) ∧ (t.connAnswered res).conn? c = u.conn? c :=
  ⟨(connAnswered_get (hsent.canon hc) res (Nat.le_add_right _ _) (show 31 < 32 by decide)).trans
    (hsent.get hqueue hc (f := Reg.CONN_STATE c) (Nat.lt_of_lt_of_le (show hostHwm.key + 4 < 0x0D100000 by decide) (Nat.le_add_right _ _))),
    (connAnswered_conn t res c).trans (hsent.conn c)⟩

section
variable {q : Requester} (hc : s.canon = true) (hmay : s.mayWrite q Reg.SIE_CONN_CMD_OP.key = true) (hrun : s.running .sie = true)
include hc hmay hrun

theorem openConn_opens (hqueue : s.pcu.queue = []) (hidle : s.get (Reg.CONN_STATE c) = 0 ∨ s.get (Reg.CONN_STATE c) = 5)
    (hgood : s.badConn c = false) : completes (.openConn q c) s fun t => t.get (Reg.CONN_STATE c) = 1 ∧
      t.get Reg.SIE_CONN_STATUS_RESULT = 0 ∧ ∃ x, t.conn? c = some x ∧ x.syn = true ∧ x.nxt = (x.una + 1) % 2 ^ 32 ∧
        x.mss = s.get (Reg.CONN_MSS c) := by
  have hexec := exec_openConn hmay hrun hidle hgood
  have hopen := connOpened_canon hc c.val
  have hsent := sent_sendTcp (s.connOpened c) c (s.synRt c) (s.synRt c).una 2 []
  obtain ⟨hstate, hconn⟩ := sent_answered hsent hopen ((congrArg PcuState.queue (connOpened_queue s c)).trans hqueue) 0 c
  exact ⟨_, hexec, hstate.trans (connOpened_state hc c), connAnswered_result (hsent.canon hopen) (by decide), s.synRt c,
    hconn.trans (connOpened_conn s c), rfl, rfl, rfl⟩

theorem closeConn_first (hstate : s.get (Reg.CONN_STATE c) = 1) : completes (.closeConn q c) s fun t => t.get (Reg.CONN_STATE c) = 0 ∧
    t.get (Reg.CONN_DOWN_CAUSE c) = 0 ∧ t.get Reg.SIE_CONN_STATUS_RESULT = 0 ∧ t.conn? c = none := by
  have hdown := connDown_canon hc c.val 0 0
  exact ⟨_, exec_closeConn_first hmay hrun hstate,
    (connAnswered_get hdown 0 (Nat.le_add_right _ _) (show 31 < 32 by decide)).trans (connDown_state hc c 0 (by decide)),
    (connAnswered_get hdown 0 (f := Reg.CONN_DOWN_CAUSE c) (by simp; omega) (show 7 < 32 by decide)).trans (connDown_cause hc c 0 (by decide)),
    connAnswered_result hdown (by decide), (connAnswered_conn ..).trans (connDown_conn ..)⟩

theorem closeConn_waits (hlo : 2 ≤ s.get (Reg.CONN_STATE c)) (hhi : s.get (Reg.CONN_STATE c) ≤ 3)
    (hbusy : s.sie.commands.any (fun m => !m.ns && m.handle == c.val) = true) : completes (.closeConn q c) s fun t =>
      t.get (Reg.CONN_STATE c) = 4 ∧ t.get Reg.SIE_CONN_STATUS_RESULT = 0 ∧
      QuietFrame (words [Reg.CONN_STATE c, Reg.SIE_CONN_STATUS_RESULT]) s s t := by
  have hexec := exec_closeConn hmay hrun hlo hhi
  rw [finWhenIdle_waits (by rw [put_sie]; exact hbusy)] at hexec
  have hput := (writes_connState s c 4).canon hc
  refine ⟨_, hexec, ?_, connAnswered_result hput (by decide), ?_⟩
  · exact (connAnswered_get hput 0 (Nat.le_add_right _ _) (show 31 < 32 by decide)).trans (state_put_connState hc c (by decide))
  · exact (((writes_connState s c 4).mono fun _ hk => words_mono (by simp) hk).trans
      ((writes_connAnswered _ 0).mono fun _ hk => words_mono (by simp) hk)).quietFrame hc

theorem closeConn_fin (hqueue : s.pcu.queue = []) (hlo : 2 ≤ s.get (Reg.CONN_STATE c)) (hhi : s.get (Reg.CONN_STATE c) ≤ 3) {x : ConnRt}
    (hidle : s.sie.commands.any (fun m => !m.ns && m.handle == c.val) = false) (hconn : s.conn? c = some x) (hsyn : x.syn = false)
    (hfin : x.fin = false) (hsent : x.finSent = false) (hbuf : x.buf = []) (hflight : x.flight = 0) :
    completes (.closeConn q c) s fun t => t.get (Reg.CONN_STATE c) = 4 ∧
      t.conn? c = some { x with fin := true, finSent := true, nxt := (x.nxt + 1) % 2 ^ 32 } := by
  have hexec := exec_closeConn hmay hrun hlo hhi
  have hput := (writes_connState s c 4).canon hc
  have hstate := state_put_connState hc c.val (v := 4) (by decide)
  have hqueue' : (s.put (Reg.CONN_STATE c) 4).pcu.queue = [] := by rw [put_queue, hqueue]
  rw [finWhenIdle_sends hstate ((conn_put ..).trans hconn) (by rw [put_sie]; exact hidle) hsyn hfin hsent hbuf hflight] at hexec
  generalize s.put (Reg.CONN_STATE c) 4 = u at *
  obtain ⟨hkept, hconn'⟩ := sent_answered (sent_sendTcp ((u.setConn c { x with fin := true }).setConn c
    { x with fin := true, finSent := true, nxt := (x.nxt + 1) % 2 ^ 32 }) c { x with fin := true } x.nxt 17 []) hput hqueue' 0 c
  exact ⟨_, hexec, hkept.trans hstate, hconn'.trans (conn_setConn ..)⟩

theorem abortConn_aborts (hqueue : s.pcu.queue = []) (hlo : 1 ≤ s.get (Reg.CONN_STATE c)) (hhi : s.get (Reg.CONN_STATE c) ≤ 4) :
    completes (.abortConn q c) s fun t => t.get (Reg.CONN_STATE c) = 5 ∧ t.get (Reg.CONN_DOWN_CAUSE c) = 6 ∧
      t.get Reg.SIE_CONN_STATUS_RESULT = 0 ∧ t.conn? c = none ∧ (∀ m ∈ t.sie.commands, m.ns = true ∨ m.handle ≠ c.val) ∧
      postedAs s t ⟨13, 2, s.get (Reg.CONN_FUNC c), .pf, payload [(16, c), (8, 6)]⟩ := by
  obtain ⟨hstate, hcause, hconn, hcommands, hposted, hcanon⟩ := resetConn_failed hc c (cause := 6) (by decide)
  rw [(sent_rstSent s c).get hqueue hc (f := Reg.CONN_FUNC c)
    (Nat.lt_of_lt_of_le (show hostHwm.key + 4 < 0x0D100000 by decide) (Nat.le_add_right _ _))] at hposted
  refine ⟨_, exec_abortConn hmay hrun hlo hhi, ?_, ?_, connAnswered_result hcanon (by decide), (connAnswered_conn ..).trans hconn, ?_, ?_⟩
  · exact (connAnswered_get hcanon 0 (Nat.le_add_right _ _) (show 31 < 32 by decide)).trans hstate
  · exact (connAnswered_get hcanon 0 (f := Reg.CONN_DOWN_CAUSE c) (by simp; omega) (show 7 < 32 by decide)).trans hcause
  · rw [connAnswered_commands]
    exact hcommands
  · rw [postedAs, connAnswered_events]
    exact hposted

end

/-! ## The Connect's end, and a RST of the peer (R407) -/

theorem connUp_up (hc : s.canon = true) (hwaits : s.connectWaits c = true) : completes (.connUp c 0) s fun t =>
    t.get (Reg.CONN_STATE c) = 3 ∧ postedAs s t ⟨13, 1, s.get (Reg.CONN_FUNC c), .pf, payload [(16, c)]⟩ ∧
      NoisyFrame (words [Reg.CONN_STATE c]) s s t := by
  have hwrites := writes_connState s c 3
  have hput := hwrites.canon hc
  have hexec : exec (.connUp c 0) s = .next ((s.put (Reg.CONN_STATE c) 3).raiseEvent
      ⟨13, 1, s.get (Reg.CONN_FUNC c), .pf, payload [(16, c)]⟩) := by
    have he : exec (.connUp c 0) s = ok (if s.connectWaits c then s.connectDone c 0 else s) := rfl
    rw [he, hwaits, if_pos rfl, State.connectDone, if_pos rfl]
    rfl
  have hevents : (s.put (Reg.CONN_STATE c) 3).events = s.events := State.put_events ..
  have hstate := state_put_connState hc c.val (v := 3) (by decide)
  generalize s.put (Reg.CONN_STATE c) 3 = u at *
  refine ⟨_, hexec, ?_, postedAs_raiseEvent hevents _, noisyFrame_raiseEvent hc hwrites _⟩
  rw [get_raiseEvent hput _ (by rw [Bool.eq_false_iff]; simp [words]; omega) (by rw [Bool.eq_false_iff]; simp [words]; omega), hstate]

theorem connUp_refused (hc : s.canon = true) (hwaits : s.connectWaits c = true) {v : BitVec 16} (hv : v ≠ 0) :
    completes (.connUp c v) s fun t => t.get (Reg.CONN_STATE c) = 5 ∧ t.get (Reg.CONN_DOWN_CAUSE c) = 5 ∧ t.conn? c = none := by
  have hwrites : Writes (words [Reg.SIE_CONN_STATUS_CONNECT_STATUS]) s (s.put Reg.SIE_CONN_STATUS_CONNECT_STATUS v.toNat) :=
    writes_put (Writes.refl s) (by decide) (.inl (by decide))
  have hexec : exec (.connUp c v) s = .next ((s.put Reg.SIE_CONN_STATUS_CONNECT_STATUS v.toNat).resetConn c 5) := by
    have he : exec (.connUp c v) s = ok (if s.connectWaits c then s.connectDone c v.toNat else s) := rfl
    rw [he, hwaits, if_pos rfl, State.connectDone, if_neg fun h : v.toNat = 0 => hv (BitVec.eq_of_toNat_eq h)]
  obtain ⟨hstate, hcause, hconn, -, -, -⟩ := resetConn_failed (hwrites.canon hc) c (cause := 5) (by decide)
  exact ⟨_, hexec, hstate, hcause, hconn⟩

theorem exec_peerRst {x : ConnRt} (hconn : s.conn? c = some x) (hrun : s.running .sie = true) (hsyn : x.syn = false) (seq ack : Word) :
    exec (.peerRst c seq ack) s =
      .next (if (seq.toNat + 2 ^ 32 - x.rcv) % 2 ^ 32 < 2 ^ (s.get (Reg.CONN_RCV_WND_LOG2 c) + 16) then s.failConn c 2 else s) := by
  have he : exec (.peerRst c seq ack) s = execPeerRst c seq ack s := rfl
  rw [he]
  unfold execPeerRst
  simp only [hconn, hrun, hsyn, Bool.false_eq_true, if_false, Bool.true_and, decide_eq_true_eq]

theorem peerRst_ends (hc : s.canon = true) {x : ConnRt} (hconn : s.conn? c = some x) (hrun : s.running .sie = true) (hsyn : x.syn = false)
    {seq : Word} (ack : Word) (hwindow : (seq.toNat + 2 ^ 32 - x.rcv) % 2 ^ 32 < 2 ^ (s.get (Reg.CONN_RCV_WND_LOG2 c) + 16)) :
    completes (.peerRst c seq ack) s fun t =>
      t.get (Reg.CONN_STATE c) = 5 ∧ t.get (Reg.CONN_DOWN_CAUSE c) = 2 ∧ t.conn? c = none := by
  have hexec := exec_peerRst hconn hrun hsyn seq ack
  rw [if_pos hwindow] at hexec
  obtain ⟨hstate, hcause, hgone, -, -, -⟩ := failConn_failed hc c (cause := 2) (by decide)
  exact ⟨_, hexec, hstate, hcause, hgone⟩

theorem peerRst_ignored {x : ConnRt} (hconn : s.conn? c = some x) (hrun : s.running .sie = true) (hsyn : x.syn = false) {seq : Word} (ack : Word)
    (hwindow : 2 ^ (s.get (Reg.CONN_RCV_WND_LOG2 c) + 16) ≤ (seq.toNat + 2 ^ 32 - x.rcv) % 2 ^ 32) :
    completes (.peerRst c seq ack) s fun t => t = s :=
  ⟨_, exec_peerRst hconn hrun hsyn seq ack, if_neg (Nat.not_lt.mpr hwindow)⟩

/-! ## Contexts and namespaces (R406, R414) -/

theorem rowOf_connWord (c : Fin 8192) {w : Nat} (hlo : 2 ≤ w) (hhi : w ≤ 9) :
    rowOf (0x0D100000 + 64 * c + 4 * w) = some (wholeRow (0x0D100000 + 4 * w) 64 8192) := by
  have hcov : ∀ w : Nat, w < 16 → (wholeRow (0x0D100000 + 4 * w) 64 8192).covers (0x0D100000 + 64 * c + 4 * w) = true := fun w hw => by
    rw [WordRow.covers, wholeRow, if_neg (show ¬64 = 0 by decide)]
    simp only [Bool.and_eq_true, beq_iff_eq, decide_eq_true_eq]
    omega
  have hrow : ∀ w : Nat, w < 16 → sieRows[28 + w]? = some (wholeRow (0x0D100000 + 4 * w) 64 8192) →
      (sieRows.take (28 + w)).all (·.misses 0x0D100000 0x0D180000 64 (4 * w)) = true →
      rowOf (0x0D100000 + 64 * c + 4 * w) = some (wholeRow (0x0D100000 + 4 * w) 64 8192) := fun w hw hat hmiss =>
    rowOf_at (lo := 0x0D100000) (hi := 0x0D180000) (m := 64) (r := 4 * w) (28 + w) (rowsFor_sie (by omega)) (by omega) hat hmiss
      (by omega) (by omega) (by omega) (by decide) (hcov w hw)
  have hw : w = 2 ∨ w = 3 ∨ w = 4 ∨ w = 5 ∨ w = 6 ∨ w = 7 ∨ w = 8 ∨ w = 9 := by omega
  obtain rfl | rfl | rfl | rfl | rfl | rfl | rfl | rfl := hw
  all_goals exact hrow _ (by decide) (by decide) (by decide)

/-- The first two entries lie where a connection's context would begin past the last one, so they are looked up. -/
theorem rowOf_nsid (n : Fin 64) : rowOf (0x0D180004 + 32 * n) = some (wholeRow 0x0D180004 32 64) := by
  have hcov : (wholeRow 0x0D180004 32 64).covers (0x0D180004 + 32 * n) = true := by
    rw [WordRow.covers, wholeRow, if_neg (show ¬32 = 0 by decide)]
    simp only [Bool.and_eq_true, beq_iff_eq, decide_eq_true_eq]
    omega
  obtain hfirst | hlater : n.val < 2 ∨ 2 ≤ n.val := by omega
  · have hn : n = 0 ∨ n = 1 := by omega
    obtain rfl | rfl := hn
    · decide
    · decide
  · exact rowOf_at (lo := 0x0D180040) (hi := 0x0D180804) (m := 32) (r := 4) 42 (rowsFor_sie (by omega)) (by omega)
      (by decide) (by decide) (by omega) (by omega) (by omega) (by decide) hcov

section
variable {q : Requester} (hc : s.canon = true) (hmanager : isManager q = true) (hserved : s.served q = true)
  (hshow : s.shows 0x0D100000 = true) (v : Word)
include hc hmanager hserved hshow

theorem connContextWrite_takes (hclosed : s.get (Reg.CONN_STATE c) = 0) (w : Fin 16) (hlo : 2 ≤ w.val) (hhi : w.val ≤ 9) :
    completes (.connContextWrite q c w v) s fun t => t.rd (0x0D100000 + 64 * c.val + 4 * w.val) = v.toNat ∧
      QuietFrame (fun k => k == 0x0D100000 + 64 * c.val + 4 * w.val) s s t := by
  have hexec : exec (.connContextWrite q c w v) s = .next (s.writeWord q (0x0D100000 + 64 * c.val + 4 * w.val) v.toNat) := by
    have he : exec (.connContextWrite q c w v) s = ok (s.writeConn q c w v.toNat) := rfl
    rw [he, State.writeConn, hclosed, hmanager, hserved, if_neg (by decide)]
  obtain ⟨hword, hframe⟩ := writeWord_whole (r := q) hc ((shows_sie (by omega) (by omega)).trans hshow) (rowOf_connWord c hlo hhi) v.isLt
  exact ⟨_, hexec, hword, hframe⟩

theorem namespaceWrite_nsid (n : Fin 64) (hopen : s.flag (Reg.NS_VALID n) = false ∨ s.slotState ≠ 5) :
    completes (.namespaceWrite q n 1 v) s fun t => t.get (Reg.NS_NSID n) = v.toNat ∧ QuietFrame (words [Reg.NS_NSID n]) s s t := by
  have hexec : exec (.namespaceWrite q n 1 v) s = .next (s.writeWord q (Reg.NS_NSID n).key v.toNat) := by
    have he : exec (.namespaceWrite q n 1 v) s = ok (s.writeNamespace q n 1 v.toNat) := rfl
    have hkept : (s.flag (Reg.NS_VALID n) && s.get Reg.SIE_SLOT_STATUS_STATE == 5) = false := by
      rw [Bool.and_eq_false_iff, beq_eq_false_iff_ne]
      exact hopen
    rw [he, State.writeNamespace, hmanager, hserved, hkept, if_neg (by decide), show 0x0D180000 + 32 * n.val + 4 * 1 = (Reg.NS_NSID n).key by
      show 0x0D180000 + 32 * n.val + 4 * 1 = 0x0D180004 + 32 * n.val
      omega]
  obtain ⟨hword, hframe⟩ := writeWord_whole (r := q) (k := (Reg.NS_NSID n).key) hc
    ((shows_sie (by show 0x0D001000 ≤ 0x0D180004 + 32 * n.val ∧ 0x0D180004 + 32 * n.val < 0x0E000000; omega) (by decide)).trans hshow) (rowOf_nsid n) v.isLt
  refine ⟨_, hexec, ?_, fun k hk => hframe.words k ?_, hframe.rest⟩
  · rw [State.get, if_pos (show 31 < 32 by decide), hword]
    exact (congrArg (· % 2 ^ 32) (Nat.div_one _)).trans (Nat.mod_eq_of_lt v.isLt)
  · rw [Bool.eq_false_iff] at hk ⊢
    exact fun h => hk (by rw [beq_iff_eq.mp h]; exact words_key (f := Reg.NS_NSID n) (by simp))

end

theorem connContextWrite_refused {q : Requester} (hbusy : s.get (Reg.CONN_STATE c) ≠ 0) (w : Fin 16) (v : Word) :
    completes (.connContextWrite q c w v) s fun t => t = s := by
  have he : exec (.connContextWrite q c w v) s = ok (s.writeConn q c w v.toNat) := rfl
  refine ⟨_, he, ?_⟩
  rw [State.writeConn, bne_iff_ne.mpr hbusy, Bool.true_or, Bool.true_or, if_pos rfl]

theorem namespaceWrite_refused {q : Requester} {n : Fin 64} (hvalid : s.flag (Reg.NS_VALID n) = true) (hready : s.slotState = 5) (w : Fin 8)
    (v : Word) : completes (.namespaceWrite q n w v) s fun t => t = s := by
  have he : exec (.namespaceWrite q n w v) s = ok (s.writeNamespace q n w v.toNat) := rfl
  rw [State.slotState] at hready
  refine ⟨_, he, ?_⟩
  rw [State.writeNamespace, hvalid, hready, if_pos (by simp)]

end

/-- Settles O47: OPEN, CLOSE and ABORT, the Connect's end, the peer's RST, and the writes of contexts and namespaces. -/
theorem connectionCommandsComplete : Obligations.ConnectionCommandsComplete := by
  unfold Obligations.ConnectionCommandsComplete
  intro s hc q c
  refine ⟨fun hmay hrun hqueue => ⟨fun hidle => ⟨openConn_opens hc hmay hrun hqueue hidle, fun hbad =>
        completes_connAnswered hc (by decide) (exec_openConn_bad hmay hrun hidle hbad)⟩,
      fun hlo hhi => completes_connAnswered hc (by decide) (exec_openConn_busy hmay hrun hlo hhi), closeConn_first hc hmay hrun,
      fun hlo hhi => ⟨closeConn_waits hc hmay hrun hlo hhi, fun x => closeConn_fin hc hmay hrun hqueue hlo hhi⟩,
      abortConn_aborts hc hmay hrun hqueue⟩,
    fun hwaits => ⟨connUp_up hc hwaits, fun v => connUp_refused hc hwaits⟩,
    fun x seq ack hconn hrun hsyn => ⟨peerRst_ends hc hconn hrun hsyn ack, peerRst_ignored hconn hrun hsyn ack⟩,
    fun hmanager hserved hshow v => ⟨fun w hlo hhi => ⟨fun hclosed => connContextWrite_takes hc hmanager hserved hshow v hclosed w hlo hhi,
        fun hbusy => connContextWrite_refused hbusy w v⟩,
      fun n => namespaceWrite_nsid hc hmanager hserved hshow v n,
      fun n w hvalid hready => namespaceWrite_refused hvalid hready w v⟩⟩

end Sys2Proof.Machine
end

section
/-! PROOFS. SIE's commands on SUBMIT entries, and their completion (R400 to R402, R415). -/

namespace Sys2Proof.Machine

/-! ## An entry that completes (R402, R422) -/

/-- The entries of a ring, that of sequence `q` completed. -/
def entriesCompleted (l : List Taken) (q status dw0 bytes : Nat) : List Taken :=
  l.map (fun t => if t.seq = q then { t with entry := resultEntry t.entry status dw0 bytes, done := true } else t)

section
variable {s : State} {r q : Nat}

theorem doneCounted_done (hc : s.canon = true) (status : Nat) :
    (s.doneCounted status).get Reg.SIE_CMD_DONE = (s.get Reg.SIE_CMD_DONE + 1) % 2 ^ 64 := by
  have hdone : (s.bump Reg.SIE_CMD_DONE).canon = true := (writes_bump (area := anyWord) (Writes.refl s) rfl (.inr rfl)).canon hc
  have hgiven : (s.bump Reg.SIE_CMD_DONE).trackGive.get Reg.SIE_CMD_DONE = (s.get Reg.SIE_CMD_DONE + 1) % 2 ^ 64 :=
    (get_put_off hdone (by decide)).trans (get_put_same hc (by decide))
  have hgive : (s.bump Reg.SIE_CMD_DONE).trackGive.canon = true :=
    (writes_put (area := anyWord) (Writes.refl _) rfl (.inr rfl)).canon hdone
  unfold State.doneCounted State.when
  split
  · exact (get_put_off hgive (by decide)).trans hgiven
  · exact hgiven

theorem doneCounted_err (hc : s.canon = true) {status : Nat} (hbad : 2 ^ 14 ≤ status) :
    (s.doneCounted status).get Reg.SIE_CMD_ERR = (s.get Reg.SIE_CMD_ERR + 1) % 2 ^ 64 := by
  have hdone : (s.bump Reg.SIE_CMD_DONE).canon = true := (writes_bump (area := anyWord) (Writes.refl s) rfl (.inr rfl)).canon hc
  have hgive : (s.bump Reg.SIE_CMD_DONE).trackGive.canon = true :=
    (writes_put (area := anyWord) (Writes.refl _) rfl (.inr rfl)).canon hdone
  have herr : (s.bump Reg.SIE_CMD_DONE).trackGive.get Reg.SIE_CMD_ERR = s.get Reg.SIE_CMD_ERR :=
    (get_put_off hdone (by decide)).trans (get_put_off hc (by decide))
  rw [State.doneCounted, State.when, if_pos (decide_eq_true hbad), State.bump, get_put_same hgive (by decide), herr]
  rfl

variable (hkept : (s.ring r).abandoned = false) (htaken : (s.ring r).taken.any (fun k => k.seq == q && !k.done) = true)
include hkept htaken

theorem completeEntry_taken (status dw0 bytes : Nat) :
    ((s.completeEntry r q status dw0 bytes).ring r).taken = entriesCompleted (s.ring r).taken q status dw0 bytes := by
  rw [completeEntry_held hkept htaken, (writes_doneCounted _ _).ring, ring_setRing]
  rfl

theorem completeEntry_done (hc : s.canon = true) (status dw0 bytes : Nat) :
    (s.completeEntry r q status dw0 bytes).get Reg.SIE_CMD_DONE = (s.get Reg.SIE_CMD_DONE + 1) % 2 ^ 64 := by
  rw [completeEntry_held hkept htaken, doneCounted_done ((setRing_canon ..).trans hc), setRing_get]

theorem completeEntry_err (hc : s.canon = true) {status : Nat} (hbad : 2 ^ 14 ≤ status) (dw0 bytes : Nat) :
    (s.completeEntry r q status dw0 bytes).get Reg.SIE_CMD_ERR = (s.get Reg.SIE_CMD_ERR + 1) % 2 ^ 64 := by
  rw [completeEntry_held hkept htaken, doneCounted_err ((setRing_canon ..).trans hc) hbad, setRing_get]

end

section
variable {s : State}

/-- An entry that completes changes the counters and the rings. -/
theorem quietFrame_completeEntry (hc : s.canon = true) (r q status dw0 bytes : Nat) : QuietFrame (words doneWords) s
    { s with qe := { s.qe with rings := (s.completeEntry r q status dw0 bytes).qe.rings } } (s.completeEntry r q status dw0 bytes) := by
  have hends := ends_completeEntry s r q status dw0 bytes
  have hcommands := completeEntry_commands s r q status dw0 bytes
  generalize s.completeEntry r q status dw0 bytes = t at *
  exact quietFrame hc hends.within (by
    have hrest := hends.rest
    rw [hcommands] at hrest
    exact hrest)

/-! ## The next SUBMIT entry (R400, R401) -/

variable {r opc : Nat} {k : Taken} {data : Option Bytes}

theorem nextSubmit_waits (hnext : s.nextSubmit r = some k) : (s.ring r).taken.any (fun x => x.seq == k.seq && !x.done) = true := by
  have hfind := List.find?_some hnext
  rw [Bool.and_eq_true] at hfind
  exact List.any_eq_true.mpr ⟨k, List.mem_of_find?_eq_some hnext, by rw [hfind.1, beq_self_eq_true, Bool.and_self]⟩

/-- The command of an entry. -/
def State.commandAt (s : State) (r : Nat) (k : Taken) (ns : Bool) (h opc : Nat) : StorCmd :=
  ⟨r, k.seq, ns, h, s.newCid ns h, opc, leAt k.entry 8 8, leAt k.entry 4 4, leAt k.entry 16 8, s.commandLen k.entry, 0, false, s.ringFunc r, none⟩

section
variable (hsie : s.running .sie = true) (hqe : s.running .qe = true) (htype : s.ringType r = 2) (hnext : s.nextSubmit r = some k)
include hsie hqe htype hnext

theorem issueNext_refused (hopc : beAt k.entry 0 1 = opc ∨ 2 < beAt k.entry 0 1) {code : Nat} (hcheck : s.commandCheck k.entry (s.ringFunc r) = code)
    (hcode : code ≠ 0) : s.issueNext r opc data = s.completeEntry r k.seq (deviceError code) 0 0 := by
  obtain ⟨n, rfl⟩ := Nat.exists_eq_succ_of_ne_zero hcode
  unfold State.issueNext
  rw [if_neg (by rw [hsie, hqe, htype]; decide), hnext]
  dsimp only
  rw [if_neg (by simp; omega), hcheck]
  rfl

theorem issueNext_ns (hopc : beAt k.entry 0 1 = opc) (hcheck : s.commandCheck k.entry (s.ringFunc r) = 0) (hns : entryIsNs k.entry = true) :
    s.issueNext r opc data = s.issueNs (s.commandAt r k true (leAt k.entry 2 2) opc) data := by
  unfold State.issueNext
  rw [if_neg (by rw [hsie, hqe, htype]; decide), hnext]
  dsimp only
  rw [if_neg (by simp [hopc]), hcheck, hns]
  rfl

theorem issueNext_conn (hopc : beAt k.entry 0 1 = opc) (hcheck : s.commandCheck k.entry (s.ringFunc r) = 0) (hns : entryIsNs k.entry = false)
    (hfree : s.connBusy (leAt k.entry 2 2) = false) :
    s.issueNext r opc data = s.issueConn (s.commandAt r k false (leAt k.entry 2 2) opc) (leAt k.entry 24 4) := by
  unfold State.issueNext
  rw [if_neg (by rw [hsie, hqe, htype]; decide), hnext]
  dsimp only
  rw [if_neg (by simp [hopc]), hcheck, hns, hfree]
  rfl

end

/-! ## PDUs leave the commands and the outputs (R403) -/

/-- What a PDU changes: the connection, and what its segments change. -/
structure PduSent (s t : State) : Prop where
  commands : t.sie.commands = s.sie.commands
  out : t.out = s.out

theorem PduSent.trans {t u : State} (h : PduSent s t) (g : PduSent t u) : PduSent s u := ⟨g.commands.trans h.commands, g.out.trans h.out⟩

theorem pduSent_sendTcp (s : State) (c : Nat) (y x : ConnRt) (seq flags : Nat) (l : Bytes) :
    PduSent s ((s.setConn c y).sendTcp c x seq flags l) := by
  have hsent := sent_sendTcp (s.setConn c y) c x seq flags l
  exact ⟨(congrArg SieState.commands hsent.conns).trans (setConn_commands s c y), hsent.out.trans (setConn_out s c y)⟩

theorem pduSent_pumpTcp (s : State) (c n : Nat) : PduSent s (s.pumpTcp c n) := by
  induction n generalizing s with
  | zero => exact ⟨rfl, rfl⟩
  | succ n ih =>
    unfold State.pumpTcp
    split
    · exact ⟨rfl, rfl⟩
    · split
      · exact ⟨rfl, rfl⟩
      · dsimp only
        split
        · exact (pduSent_sendTcp s c _ _ _ _ _).trans (ih _)
        · split
          · exact pduSent_sendTcp s c _ _ _ _ _
          · exact ⟨rfl, rfl⟩

theorem pduSent_sendCommandPdu (s : State) (c kind : Nat) (fields : List Nat) (l : Bytes) : PduSent s (s.sendCommandPdu c kind fields l) := by
  unfold State.sendCommandPdu State.sendPdu
  split
  · exact ⟨rfl, rfl⟩
  · split
    · exact ⟨rfl, rfl⟩
    · exact (show PduSent s (s.setConn c _) from ⟨setConn_commands .., setConn_out ..⟩).trans (pduSent_pumpTcp _ _ _)

theorem issueConn_sent (s : State) (x : StorCmd) (nsid : Nat) :
    (s.issueConn x nsid).sie.commands = s.sie.commands ++ [x] ∧ (s.issueConn x nsid).out = s.out := by
  have hsent := pduSent_sendCommandPdu (s.setCommands (s.sie.commands ++ [x])) x.handle pduCapsuleCmd
    [x.opc, x.cid, nsid, x.slba, if x.opc = 0 then 0 else x.nlb, x.len] []
  exact ⟨hsent.commands.trans (setCommands_commands ..), hsent.out⟩

end

/-! ## Entries refused, and entries issued -/

section
variable {s : State} {r : Fin 131072} {k : Taken}

theorem exec_nvmeFlush (r : Fin 131072) (s : State) : exec (.nvmeFlush r) s = .next (s.issueNext r 0 none) := rfl
theorem exec_nvmeRead (r : Fin 131072) (s : State) : exec (.nvmeRead r) s = .next (s.issueNext r 2 none) := rfl
theorem exec_nvmeWrite (r : Fin 131072) (d : Option Bytes) (w : List Walk8) (s : State) :
    exec (.nvmeWrite r d w) s = .next (((s.walking w).issueNext r 1 d).walking []) := rfl

/-- The three commands on a SUBMIT entry, as they run. -/
theorem exec_submit {d : Option Bytes} {w : List Walk8} {c : Nat × Instr}
    (hmem : c ∈ [(0, Instr.nvmeFlush r), (1, .nvmeWrite r d w), (2, .nvmeRead r)]) (s : State) :
    (∃ e, exec c.2 s = .next (s.issueNext r c.1 e)) ∨ ∃ e, exec c.2 s = .next (((s.walking w).issueNext r c.1 e).walking []) := by
  simp only [List.mem_cons, List.not_mem_nil, or_false] at hmem
  obtain rfl | rfl | rfl := hmem
  · exact .inl ⟨_, exec_nvmeFlush r s⟩
  · exact .inr ⟨_, exec_nvmeWrite r d w s⟩
  · exact .inl ⟨_, exec_nvmeRead r s⟩

/-- What an entry refused leaves. -/
def EntryRefused (r : Nat) (k : Taken) (code : Nat) (s t : State) : Prop :=
  (t.ring r).taken = entriesCompleted (s.ring r).taken k.seq (deviceError code) 0 0 ∧
  t.get Reg.SIE_CMD_DONE = (s.get Reg.SIE_CMD_DONE + 1) % 2 ^ 64 ∧ t.get Reg.SIE_CMD_ERR = (s.get Reg.SIE_CMD_ERR + 1) % 2 ^ 64 ∧
  QuietFrame (words doneWords) s { s with qe := { s.qe with rings := t.qe.rings }, ttu := { s.ttu with walks := t.ttu.walks } } t

theorem entryRefused_completeEntry (hc : s.canon = true) (hnext : s.nextSubmit r = some k) (hkept : (s.ring r).abandoned = false) (code : Nat) :
    EntryRefused r k code s (s.completeEntry r k.seq (deviceError code) 0 0) := by
  have hwaits := nextSubmit_waits hnext
  have hframe := quietFrame_completeEntry hc r k.seq (deviceError code) 0 0
  refine ⟨completeEntry_taken hkept hwaits _ 0 0, completeEntry_done hkept hwaits hc _ 0 0,
    completeEntry_err hkept hwaits hc (by unfold deviceError; omega) 0 0, hframe.words, ?_⟩
  have hrest := hframe.rest
  generalize s.completeEntry r k.seq (deviceError code) 0 0 = t at *
  rw [show t.ttu.walks = s.ttu.walks by rw [hrest]]
  exact hrest

/-- The table walks given with a command are gone after it. -/
theorem EntryRefused.walked {w : List Walk8} {code : Nat} {t : State} (h : EntryRefused r k code (s.walking w) t) :
    EntryRefused r k code s (t.walking []) := by
  obtain ⟨htaken, hdone, herr, hframe⟩ := h
  refine ⟨htaken, hdone, herr, fun j hj => hframe.words j hj, ?_⟩
  rw [State.walking, hframe.rest]
  rfl

theorem submit_refused (hc : s.canon = true) (hsie : s.running .sie = true) (hqe : s.running .qe = true) (htype : s.ringType r = 2)
    (hnext : s.nextSubmit r = some k) {w : List Walk8} {c : Nat × Instr}
    (hmem : c ∈ [(0, Instr.nvmeFlush r), (1, .nvmeWrite r none w), (2, .nvmeRead r)])
    (hopc : beAt k.entry 0 1 = c.1 ∨ 2 < beAt k.entry 0 1) {code : Nat} (hcheck : s.commandCheck k.entry (s.ringFunc r) = code) (hcode : code ≠ 0)
    (hkept : (s.ring r).abandoned = false) : completes c.2 s (EntryRefused r k code s) := by
  obtain ⟨e, hexec⟩ | ⟨e, hexec⟩ := exec_submit hmem s
  · rw [issueNext_refused hsie hqe htype hnext hopc hcheck hcode] at hexec
    exact ⟨_, hexec, entryRefused_completeEntry hc hnext hkept code⟩
  · rw [issueNext_refused (s := s.walking w) hsie hqe htype hnext hopc hcheck hcode] at hexec
    exact ⟨_, hexec, (entryRefused_completeEntry (s := s.walking w) hc hnext hkept code).walked⟩

theorem issueNs_plain {x : StorCmd} (hopc : x.opc ≠ 1) (data : Option Bytes) : s.issueNs x data =
    (s.setCommands (s.sie.commands ++ [x])).emit (.nvme x.opc (s.get (Reg.NS_NSID x.handle)) x.slba (if x.opc = 0 then 0 else x.nlb) []) := by
  unfold State.issueNs
  dsimp only
  split
  · rename_i h
    exact absurd h hopc
  · rfl

section
variable (hsie : s.running .sie = true) (hqe : s.running .qe = true) (htype : s.ringType r = 2) (hnext : s.nextSubmit r = some k)
  (hcheck : s.commandCheck k.entry (s.ringFunc r) = 0)
include hsie hqe htype hnext hcheck

theorem submit_ns (hns : entryIsNs k.entry = true) {c : Nat × Instr} (hmem : c ∈ [(0, Instr.nvmeFlush r), (2, .nvmeRead r)])
    (hopc : beAt k.entry 0 1 = c.1) : completes c.2 s fun t =>
      t.sie.commands = s.sie.commands ++ [s.commandAt r k true (leAt k.entry 2 2) c.1] ∧
      t = { s with sie := { s.sie with commands := t.sie.commands },
                   out := .nvme c.1 (s.get (Reg.NS_NSID (leAt k.entry 2 2))) (leAt k.entry 8 8) (if c.1 = 0 then 0 else leAt k.entry 4 4) [] :: s.out } := by
  simp only [List.mem_cons, List.not_mem_nil, or_false] at hmem
  obtain rfl | rfl := hmem
  · refine ⟨_, (exec_nvmeFlush r s).trans (congrArg _ ((issueNext_ns hsie hqe htype hnext hopc hcheck hns).trans (issueNs_plain ?_ _))), rfl, rfl⟩
    exact (by decide : (0 : Nat) ≠ 1)
  · refine ⟨_, (exec_nvmeRead r s).trans (congrArg _ ((issueNext_ns hsie hqe htype hnext hopc hcheck hns).trans (issueNs_plain ?_ _))), rfl, rfl⟩
    exact (by decide : (2 : Nat) ≠ 1)

theorem submit_conn (hns : entryIsNs k.entry = false) (hfree : s.connBusy (leAt k.entry 2 2) = false) {d : Option Bytes} {w : List Walk8}
    {c : Nat × Instr} (hmem : c ∈ [(0, Instr.nvmeFlush r), (1, .nvmeWrite r d w), (2, .nvmeRead r)]) (hopc : beAt k.entry 0 1 = c.1) :
    completes c.2 s fun t => t.sie.commands = s.sie.commands ++ [s.commandAt r k false (leAt k.entry 2 2) c.1] ∧ t.out = s.out := by
  obtain ⟨e, hexec⟩ | ⟨e, hexec⟩ := exec_submit hmem s
  · rw [issueNext_conn hsie hqe htype hnext hopc hcheck hns hfree] at hexec
    exact ⟨_, hexec, issueConn_sent s _ _⟩
  · rw [issueNext_conn (s := s.walking w) hsie hqe htype hnext hopc hcheck hns hfree] at hexec
    exact ⟨_, hexec, issueConn_sent (s.walking w) _ _⟩

end

/-! ## A WRITE to a namespace (R400, R415) -/

theorem setCommands_direct (s : State) (l : List StorCmd) : (s.setCommands l).direct = s.direct := rfl
theorem setCommands_tagReady (s : State) (l : List StorCmd) : (s.setCommands l).tagReady = s.tagReady := rfl
theorem setCommands_maxRead (s : State) (l : List StorCmd) : (s.setCommands l).maxRead = s.maxRead := rfl
theorem setCommands_newTag (s : State) (l : List StorCmd) : (s.setCommands l).newTag = s.newTag := rfl
theorem setCommands_flag (s : State) (l : List StorCmd) (f : Field) : (s.setCommands l).flag f = s.flag f := rfl
theorem setCommands_out (s : State) (l : List StorCmd) : (s.setCommands l).out = s.out := rfl
theorem setCommands_ring (s : State) (l : List StorCmd) (r : Nat) : (s.setCommands l).ring r = s.ring r := rfl
theorem emit_out (s : State) (o : Out) : (s.emit o).out = o :: s.out := rfl
theorem moveBytes_out (s : State) (x : StorCmd) (n : Nat) : (s.moveBytes x n).out = s.out := rfl

theorem Direct.setCommands (hd : Direct s) (l : List StorCmd) : Direct (s.setCommands l) :=
  direct_iff.mp ((setCommands_direct s l).trans (direct_iff.mpr hd))

/-- Data of an entry with ENC 0 stands as it is. -/
theorem xtsBegin_plain {i : Nat} (hplain : s.flag (Reg.NS_ENC i) = false) (enc : Bool) (nsid size lba dw0 : Nat) (l : Bytes) :
    s.xtsBegin i enc nsid size lba dw0 l = (.ok (l, none), s) := by
  rw [State.xtsBegin, hplain]
  rfl

/-- A WRITE without encryption: its data is read and goes to the drive. -/
theorem issueNs_write {x : StorCmd} {u : State} (hopc : x.opc = 1) {l : Bytes}
    (hread : (s.setCommands (s.sie.commands ++ [x])).dmaRead (.command x.ring x.seq) x.func x.buf x.len = (true, u))
    (hplain : u.flag (Reg.NS_ENC x.handle) = false) : s.issueNs x (some l) =
      (u.emit (.nvme 1 (s.get (Reg.NS_NSID x.handle)) x.slba x.nlb (sliceB (l ++ zeros x.len) 0 x.len))).moveBytes x x.len := by
  unfold State.issueNs
  dsimp only
  rw [hopc]
  simp only [hread]
  rw [xtsBegin_plain hplain]
  rfl

theorem leAt_lt (l : Bytes) (i n : Nat) : leAt l i n < 256 ^ n :=
  (ofLE_lt _).trans_le (Nat.pow_le_pow_right (by decide) (List.length_take_le n _))

/-- Where the first four checks find nothing, the fourth does not. -/
theorem fourth_passes {a b c d : Bool} {m : Nat} (h : (if a then 1 else if b then 2 else if c then 3 else if d then 4 else m) = 0) : d = false := by
  cases d
  case false => rfl
  case true =>
    rw [if_pos rfl] at h
    split_ifs at h

theorem commandLen_pos (hcheck : s.commandCheck k.entry (s.ringFunc r) = 0) (hopc : beAt k.entry 0 1 = 1) : 0 < s.commandLen k.entry := by
  unfold State.commandCheck at hcheck
  have hlen := fourth_passes hcheck
  rw [hopc, Bool.and_eq_false_iff, Bool.or_eq_false_iff, decide_eq_false_iff_not] at hlen
  obtain hzero | ⟨hlen, -⟩ := hlen
  · exact absurd hzero (by decide)
  · rw [State.commandLen, if_neg (by rw [hopc]; decide)]
    exact Nat.le_of_not_lt hlen

theorem submit_write (hc : s.canon = true) (hsie : s.running .sie = true) (hqe : s.running .qe = true) (htype : s.ringType r = 2)
    (hnext : s.nextSubmit r = some k) (hcheck : s.commandCheck k.entry (s.ringFunc r) = 0) (hns : entryIsNs k.entry = true) (l : Bytes)
    (w : List Walk8) (hopc : beAt k.entry 0 1 = 1) (hpf : s.ringOwner r = some 0) (hplain : s.flag (Reg.NS_ENC (leAt k.entry 2 2)) = false)
    (hdirect : s.direct = true) (hready : s.tagReady = true) (hpage : onePage (leAt k.entry 16 8) (s.commandLen k.entry) = true)
    (hmax : s.commandLen k.entry ≤ s.maxRead) : completes (.nvmeWrite r (some l) w) s fun t =>
      t.out = .nvme 1 (s.get (Reg.NS_NSID (leAt k.entry 2 2))) (leAt k.entry 8 8) (leAt k.entry 4 4)
          (sliceB (l ++ zeros (s.commandLen k.entry)) 0 (s.commandLen k.entry)) ::
        .dmaRead 0 (leAt k.entry 16 8) (s.commandLen k.entry) s.newTag (s.flag cfgRelaxed) :: s.out := by
  have hexec := exec_nvmeWrite r (some l) w s
  rw [issueNext_ns (s := s.walking w) hsie hqe htype hnext hopc hcheck hns] at hexec
  generalize hx : (s.walking w).commandAt r k true (leAt k.entry 2 2) 1 = x at hexec
  have hopc' : x.opc = 1 := by rw [← hx]; rfl
  have hfunc : x.func = 0 := by rw [← hx]; exact ringFunc_pf0 hpf
  have hbuf : x.buf = leAt k.entry 16 8 := by rw [← hx]; rfl
  have hlen : x.len = s.commandLen k.entry := by rw [← hx]; rfl
  have hslba : x.slba = leAt k.entry 8 8 := by rw [← hx]; rfl
  have hnlb : x.nlb = leAt k.entry 4 4 := by rw [← hx]; rfl
  have hhandle : x.handle = leAt k.entry 2 2 := by rw [← hx]; rfl
  have hread := (((direct_iff.mp hdirect).walking w).setCommands ((s.walking w).sie.commands ++ [x])).dmaRead
    (((setCommands_tagReady _ _).trans (walking_tagReady w s)).trans hready) (.command x.ring x.seq) (commandLen_pos hcheck hopc) hpage
    (by rw [setCommands_maxRead, walking_maxRead]; exact hmax)
  have hout := readSent_out (.command x.ring x.seq) (leAt k.entry 16 8) (s.commandLen k.entry)
    ((s.walking w).setCommands ((s.walking w).sie.commands ++ [x]))
  have hplain' : (((s.walking w).setCommands ((s.walking w).sie.commands ++ [x])).readSent (.command x.ring x.seq) (leAt k.entry 16 8)
      (s.commandLen k.entry)).flag (Reg.NS_ENC x.handle) = false := by
    have hhandle' : x.handle < 65536 := by rw [hhandle]; exact leAt_lt k.entry 2 2
    have henc := readSent_get (s := (s.walking w).setCommands ((s.walking w).sie.commands ++ [x])) hc (.command x.ring x.seq) (leAt k.entry 16 8)
      (s.commandLen k.entry) (f := Reg.NS_ENC x.handle) (by show (0x0D180000 + 32 * x.handle) / 0x1000000 ≠ 10; omega) (show 30 < 32 by decide)
    rw [State.flag, henc, setCommands_get, walking_get, hhandle]
    exact hplain
  generalize ((s.walking w).setCommands ((s.walking w).sie.commands ++ [x])).readSent (.command x.ring x.seq) (leAt k.entry 16 8)
      (s.commandLen k.entry) = u at *
  rw [issueNs_write (u := u) hopc' (by rw [hfunc, hbuf, hlen]; exact hread) hplain'] at hexec
  refine ⟨_, hexec, ?_⟩
  dsimp only
  rw [walking_out, moveBytes_out, emit_out, hout, setCommands_newTag, walking_newTag, setCommands_flag, walking_flag, setCommands_out, walking_out,
    walking_get, hhandle, hslba, hnlb, hlen]
  rfl

end

end Sys2Proof.Machine
end

section
/-! PROOFS. What the drive answers, and what takes too long (R402, R407, R415). -/

namespace Sys2Proof.Machine

section
variable {s : State}

/-! ## A command that is looked up by its identifier -/

/-- A command with another count of moved bytes. -/
def StorCmd.movedBy (x : StorCmd) (n : Nat) : StorCmd := { x with moved := x.moved + n }

theorem find_map_of_kept {α : Type} {f : α → α} {p : α → Bool} (hkept : ∀ a, p (f a) = p a) (l : List α) :
    (l.map f).find? p = (l.find? p).map f := by
  rw [List.find?_map]
  exact congrArg (fun q => (l.find? q).map f) (funext hkept)

theorem commandOf_moveBytes {ns : Bool} {handle cid : Nat} {x : StorCmd} (h : s.commandOf ns handle cid = some x) (n : Nat) :
    (s.moveBytes x n).commandOf ns handle cid = some (x.movedBy n) := by
  have hmap : (s.moveBytes x n).sie.commands = s.sie.commands.map (fun y => if y = x then { y with moved := y.moved + n } else y) := rfl
  rw [State.commandOf] at h
  rw [State.commandOf, hmap, find_map_of_kept, h, Option.map_some, if_pos rfl, StorCmd.movedBy]
  intro y
  by_cases hy : y = x
  · rw [if_pos hy]
  · rw [if_neg hy]

theorem commandOf_congr {t : State} (h : t.sie.commands = s.sie.commands) (ns : Bool) (handle cid : Nat) :
    t.commandOf ns handle cid = s.commandOf ns handle cid := by rw [State.commandOf, h, State.commandOf]

/-! ## The end of a command -/

theorem finish_open {x : StorCmd} (hopen : x.closed = false) (status dw0 : Nat) :
    s.finish x status dw0 = (s.setCommands (s.sie.commands.erase x)).completeEntry x.ring x.seq status dw0 x.moved := by
  unfold State.finish
  dsimp only
  rw [hopen, if_neg Bool.false_ne_true]

theorem finish_slotState (hc : s.canon = true) (x : StorCmd) (status dw0 : Nat) : (s.finish x status dw0).slotState = s.slotState :=
  (ends_finish s x status dw0).get hc (by decide) (by decide)

theorem finish_out (s : State) (x : StorCmd) (status dw0 : Nat) : (s.finish x status dw0).out = s.out := by
  rw [(ends_finish s x status dw0).rest]

theorem finish_taken {x : StorCmd} (hopen : x.closed = false) (hkept : (s.ring x.ring).abandoned = false)
    (htaken : (s.ring x.ring).taken.any (fun k => k.seq == x.seq && !k.done) = true) (status dw0 : Nat) :
    ((s.finish x status dw0).ring x.ring).taken = entriesCompleted (s.ring x.ring).taken x.seq status dw0 x.moved := by
  have hring := setCommands_ring s (s.sie.commands.erase x) x.ring
  rw [finish_open hopen, completeEntry_taken (by rw [hring, hkept]) (by rw [hring, htaken]), hring]

/-- The commands and the rings after the end of a command. -/
theorem quietFrame_finish (hc : s.canon = true) (x : StorCmd) (status dw0 : Nat) : QuietFrame (words doneWords) s
    { s with qe := { s.qe with rings := (s.finish x status dw0).qe.rings }, sie := { s.sie with commands := (s.finish x status dw0).sie.commands } }
    (s.finish x status dw0) := by
  have hends := ends_finish s x status dw0
  generalize s.finish x status dw0 = t at *
  exact quietFrame hc hends.within hends.rest

/-! ## A READ's data (R400) -/

/-- The data of a READ has gone to the host. -/
def State.dataSent (s : State) (x : StorCmd) (l : Bytes) : State := (s.sendHost (.dma 0 (x.buf + x.moved) l false)).moveBytes x x.len

theorem readPart_direct {x : StorCmd} (hd : Direct s) (hfunc : x.func = 0) (hpos : 0 < x.len) {l : Bytes} (hl : l.length = x.len)
    (hpage : onePage (x.buf + x.moved) x.len = true) (hmax : x.len ≤ s.maxPayload) : s.readPart x l = (true, s.dataSent x l) := by
  have hwrite := hd.dmaWrite (a := x.buf + x.moved) (l := l) (List.ne_nil_of_length_pos (hl ▸ hpos)) (by rw [hl]; exact hpage) (by rw [hl]; exact hmax)
  unfold State.readPart
  simp only [hfunc, hwrite, hl]
  rfl

theorem length_sliceB_zeros (data : Bytes) (n : Nat) : (sliceB (data ++ zeros n) 0 n).length = n := by
  rw [sliceB, List.drop_zero, List.length_take, List.length_append, zeros, List.length_replicate]
  omega

theorem dataSent_get (s : State) (x : StorCmd) (l : Bytes) (f : Field) : (s.dataSent x l).get f = s.get f := rfl
theorem dataSent_canon (s : State) (x : StorCmd) (l : Bytes) : (s.dataSent x l).canon = s.canon := rfl
theorem dataSent_ring (s : State) (x : StorCmd) (l : Bytes) (r : Nat) : (s.dataSent x l).ring r = s.ring r := rfl
theorem dataSent_out (s : State) (x : StorCmd) (l : Bytes) : (s.dataSent x l).out = .dma 0 (x.buf + x.moved) l false :: s.out := rfl

section
variable {cid : BitVec 16} {x : StorCmd} {dw0 : Word} {w : List Walk8} (hcmd : s.commandOf true 0 cid.toNat = some x)
  (hsie : s.running .sie = true)
include hcmd hsie

theorem exec_storageComplete_plain (hxts : x.xts = none) (hopc : x.opc ≠ 2) (sct : Fin 8) (sc : BitVec 8) (data : Bytes) :
    exec (.storageComplete cid sct sc dw0 data w) s = .next ((s.finish x (nvmeStatus sct sc.toNat) dw0.toNat).shutdownWhenIdle) := by
  have he : exec (.storageComplete cid sct sc dw0 data w) s = execStorageComplete cid sct sc dw0 data w s := rfl
  rw [he]
  unfold execStorageComplete
  simp only [hcmd]
  rw [if_neg (by rw [hsie]; decide), if_neg (by rw [hxts]; decide), if_pos (by rw [bne_iff_ne.mpr hopc]; rfl)]

theorem exec_storageComplete_read (hxts : x.xts = none) (hopc : x.opc = 2) (hopen : x.closed = false)
    (hplain : s.flag (Reg.NS_ENC x.handle) = false) (data : Bytes) {u : State}
    (hread : (s.walking w).readPart x (sliceB (data ++ zeros x.len) 0 x.len) = (true, u)) {y : StorCmd}
    (hagain : u.commandOf true 0 cid.toNat = some y) :
    exec (.storageComplete cid 0 0 dw0 data w) s = .next (((u.finish y 0 dw0.toNat).shutdownWhenIdle).walking []) := by
  have he : exec (.storageComplete cid 0 0 dw0 data w) s = execStorageComplete cid 0 0 dw0 data w s := rfl
  rw [he]
  unfold execStorageComplete
  simp only [hcmd]
  rw [if_neg (by rw [hsie]; decide), if_neg (by rw [hxts]; decide), if_neg (by rw [hopc, hopen]; decide), xtsBegin_plain hplain]
  simp only [withWalks_eq, hread, hagain, Option.isSome_none, Bool.and_false, Bool.false_eq_true, if_false, if_true]

theorem exec_storageCmdTimeout_ns (handle : Fin 8192) : exec (.storageCmdTimeout true handle cid) s = .next (s.finishEarly x (deviceError 9)) := by
  have he : exec (.storageCmdTimeout true handle cid) s = execStorageCmdTimeout true handle cid s := rfl
  have hcmd' : s.commandOf true handle cid.toNat = some x := hcmd
  rw [he]
  unfold execStorageCmdTimeout
  simp only [hcmd']
  rw [if_neg (by rw [hsie]; decide), if_pos trivial]

theorem storageCmdTimeout_ns (hopen : x.closed = false) (hkept : (s.ring x.ring).abandoned = false)
    (htaken : (s.ring x.ring).taken.any (fun k => k.seq == x.seq && !k.done) = true) (handle : Fin 8192) : completes (.storageCmdTimeout true handle cid) s fun t =>
    t.sie.commands = s.sie.commands.map (fun c => if c = x then { c with closed := true } else c) ∧
    (t.ring x.ring).taken = entriesCompleted (s.ring x.ring).taken x.seq (deviceError 9) 0 x.moved := by
  have hexec := exec_storageCmdTimeout_ns hcmd hsie handle
  rw [State.finishEarly, hopen, if_neg Bool.false_ne_true] at hexec
  have hring := setCommands_ring s (s.sie.commands.map (fun c => if c = x then { c with closed := true } else c)) x.ring
  refine ⟨_, hexec, (completeEntry_commands ..).trans (setCommands_commands ..), ?_⟩
  rw [completeEntry_taken (by rw [hring, hkept]) (by rw [hring, htaken]), hring]

variable (hc : s.canon = true) (hopen : x.closed = false) (hxts : x.xts = none) (hslot : s.slotState ≠ 6)
  (hkept : (s.ring x.ring).abandoned = false) (htaken : (s.ring x.ring).taken.any (fun k => k.seq == x.seq && !k.done) = true)
include hc hopen hxts hslot hkept htaken

theorem storageComplete_ends (sct : Fin 8) (sc : BitVec 8) (data : Bytes) (hopc : x.opc ≠ 2) :
    completes (.storageComplete cid sct sc dw0 data w) s fun t => t.sie.commands = s.sie.commands.erase x ∧
      (t.ring x.ring).taken = entriesCompleted (s.ring x.ring).taken x.seq (nvmeStatus sct sc.toNat) dw0.toNat x.moved ∧
      QuietFrame (words doneWords) s { s with qe := { s.qe with rings := t.qe.rings }, sie := { s.sie with commands := t.sie.commands } } t := by
  have hexec := exec_storageComplete_plain (dw0 := dw0) (w := w) hcmd hsie hxts hopc sct sc data
  rw [shutdownWhenIdle_kept (by rw [finish_slotState hc]; exact hslot)] at hexec
  exact ⟨_, hexec, finish_commands .., finish_taken hopen hkept htaken .., quietFrame_finish hc ..⟩

theorem storageComplete_read (data : Bytes) (hopc : x.opc = 2) (hplain : s.flag (Reg.NS_ENC x.handle) = false) (hfunc : x.func = 0)
    (hdirect : s.direct = true) (hpos : 0 < x.len) (hpage : onePage (x.buf + x.moved) x.len = true) (hmax : x.len ≤ s.maxPayload) :
    completes (.storageComplete cid 0 0 dw0 data w) s fun t =>
      t.out = .dma 0 (x.buf + x.moved) (sliceB (data ++ zeros x.len) 0 x.len) false :: s.out ∧
      (t.ring x.ring).taken = entriesCompleted (s.ring x.ring).taken x.seq 0 dw0.toNat (x.moved + x.len) := by
  have hread := readPart_direct (s := s.walking w) ((direct_iff.mp hdirect).walking w) hfunc hpos (length_sliceB_zeros data x.len) hpage
    (by rw [walking_maxPayload]; exact hmax)
  have hagain : ((s.walking w).dataSent x (sliceB (data ++ zeros x.len) 0 x.len)).commandOf true 0 cid.toNat = some (x.movedBy x.len) :=
    commandOf_moveBytes (s := (s.walking w).sendHost _) ((commandOf_congr (by rw [sendHost_sie]; rfl) true 0 cid.toNat).trans hcmd) x.len
  have hexec := exec_storageComplete_read (dw0 := dw0) hcmd hsie hxts hopc hopen hplain data hread hagain
  have hget := dataSent_get (s.walking w) x (sliceB (data ++ zeros x.len) 0 x.len)
  have hcanon := (dataSent_canon (s.walking w) x (sliceB (data ++ zeros x.len) 0 x.len)).trans ((walking_canon w s).trans hc)
  have hring := (dataSent_ring (s.walking w) x (sliceB (data ++ zeros x.len) 0 x.len) x.ring).trans (walking_ring w s x.ring)
  have hout := dataSent_out (s.walking w) x (sliceB (data ++ zeros x.len) 0 x.len)
  generalize (s.walking w).dataSent x (sliceB (data ++ zeros x.len) 0 x.len) = u at *
  rw [shutdownWhenIdle_kept (by rw [finish_slotState hcanon, State.slotState, hget, walking_get]; exact hslot)] at hexec
  refine ⟨_, hexec, ?_, ?_⟩
  · rw [walking_out, finish_out, hout, walking_out]
  · have hends := finish_taken (s := u) (x := x.movedBy x.len) hopen (by rw [← hring] at hkept; exact hkept) (by rw [← hring] at htaken; exact htaken)
      0 dw0.toNat
    rw [← hring]
    exact hends

end

/-- A command of a connection that takes too long ends its connection (R407). -/
theorem storageCmdTimeout_conn (hc : s.canon = true) (hsie : s.running .sie = true) {c : Fin 8192} {cid : BitVec 16} {x : StorCmd}
    (hcmd : s.commandOf false c cid.toNat = some x) : completes (.storageCmdTimeout false c cid) s fun t =>
      t.get (Reg.CONN_STATE c) = 5 ∧ t.get (Reg.CONN_DOWN_CAUSE c) = 8 ∧ t.conn? c = none ∧
      ∀ m ∈ t.sie.commands, m.ns = true ∨ m.handle ≠ c.val := by
  have hexec : exec (.storageCmdTimeout false c cid) s = .next ((s.finish x (deviceError 9) 0).resetConn c 8) := by
    have he : exec (.storageCmdTimeout false c cid) s = execStorageCmdTimeout false c cid s := rfl
    rw [he]
    unfold execStorageCmdTimeout
    simp only [hcmd]
    rw [if_neg (by rw [hsie]; decide), if_neg Bool.false_ne_true]
  obtain ⟨hstate, hcause, hconn, hcommands, -, -⟩ := resetConn_failed ((ends_finish s x (deviceError 9) 0).canon hc) c (cause := 8) (by decide)
  exact ⟨_, hexec, hstate, hcause, hconn, hcommands⟩

end

/-- Settles O46: SUBMIT entries refused and issued, the drive's answers, and the timeouts. -/
theorem storageCommandsComplete : Obligations.StorageCommandsComplete := by
  unfold Obligations.StorageCommandsComplete
  intro s hc hsie
  refine ⟨fun r k w hqe htype hnext => ⟨fun code c hmem hopc hcheck hcode hkept =>
        submit_refused hc hsie hqe htype hnext hmem hopc hcheck hcode hkept,
      fun h hh hcheck hns => ?_, fun h hh hcheck hns hfree d c hmem hopc => ?_⟩,
    fun cid x dw0 w hcmd hopen hxts hslot hkept htaken =>
      ⟨fun sct sc data hopc => storageComplete_ends hcmd hsie hc hopen hxts hslot hkept htaken sct sc data hopc,
        fun data => storageComplete_read hcmd hsie hc hopen hxts hslot hkept htaken data,
        fun handle => storageCmdTimeout_ns hcmd hsie hopen hkept htaken handle⟩,
    fun c cid x hcmd _ => storageCmdTimeout_conn hc hsie hcmd⟩
  · subst hh
    exact ⟨fun c hmem hopc => submit_ns hsie hqe htype hnext hcheck hns hmem hopc,
      fun l => submit_write hc hsie hqe htype hnext hcheck hns l w⟩
  · subst hh
    exact submit_conn hsie hqe htype hnext hcheck hns hfree hmem hopc

end Sys2Proof.Machine
end

section
/-! PROOFS. Where the host's work ends: rings abandoned, reads failed, resets of functions carried out (R344, R349). None of it
touches HIU's registers, and no connection opens in it. -/

namespace Sys2Proof.Machine

/-! ## Words at reset -/

section
variable {s₀ s t : State}

theorem canon_resetWords (hc : s.canon = true) (p : Nat → Bool) : (s.resetWords p).canon = true := by
  simp only [State.canon, Bool.and_eq_true] at hc ⊢
  exact ⟨Sparse.wf_filter _ hc.1, hc.2⟩

theorem within_resetWords {area : Nat → Bool} (h : Within area s₀ s) {p : Nat → Bool} (hp : ∀ k, p k = true → area k = true) :
    Within area s₀ (s.resetWords p) :=
  ⟨fun hc => canon_resetWords (h.canon hc) p, fun hc k hk => by
    have hout : p k = false := by
      rw [Bool.eq_false_iff]
      exact fun hin => Bool.false_ne_true (hk.symm.trans (hp k hin))
    rw [rd_resetWords (h.canon hc), hout, if_neg Bool.false_ne_true, h.words hc k hk], h.kept⟩

/-! ## No connection is open (R408) -/

/-- The first words of the connections' contexts. -/
def connWord (k : Nat) : Bool := inRange k 0x0D100000 0x80000 && k % 64 == 0

/-- Every connection is CLOSED. -/
def ConnsClosed (s : State) : Prop := ∀ k, connWord k = true → s.rd k < 2 ^ 29

theorem connWord_iff {k : Nat} : connWord k = true ↔ 0x0D100000 ≤ k ∧ k < 0x0D180000 ∧ k % 64 = 0 := by
  rw [connWord, Bool.and_eq_true, inRange_iff, beq_iff_eq, and_assoc]

theorem Sparse.get_of_mem {w : Nat} {d : Nat → BitVec w} {l : List (Nat × BitVec w)} {a : Nat} (hl : Sparse.wfFrom d a l = true)
    {x : Nat × BitVec w} (h : x ∈ l) : a ≤ x.1 ∧ Sparse.get d l x.1 = x.2 := by
  induction l generalizing a with
  | nil => exact absurd h List.not_mem_nil
  | cons y l ih =>
    simp only [Sparse.wfFrom, Bool.and_eq_true, decide_eq_true_eq] at hl
    obtain ⟨⟨hle, -⟩, htail⟩ := hl
    rw [Sparse.get_head (b := y.1) (x := y.2)]
    obtain rfl | hmem := List.mem_cons.mp h
    · exact ⟨hle, if_pos rfl⟩
    · obtain ⟨hlow, hget⟩ := ih htail hmem
      exact ⟨by omega, by rw [if_neg (by omega), if_neg (by omega), hget]⟩

theorem Sparse.mem_or_reset {w : Nat} {d : Nat → BitVec w} (l : List (Nat × BitVec w)) (k : Nat) :
    (k, Sparse.get d l k) ∈ l ∨ Sparse.get d l k = d k := by
  induction l with
  | nil => exact .inr rfl
  | cons y l ih =>
    rw [Sparse.get_head (b := y.1) (x := y.2)]
    split
    · rename_i heq
      exact .inl (by rw [heq]; exact List.mem_cons_self)
    · split
      · exact .inr rfl
      · exact ih.imp_left (List.mem_cons_of_mem _)

theorem openConns_nil_iff (hc : s.canon = true) : s.openConns = [] ↔ ConnsClosed s := by
  rw [State.openConns, List.map_eq_nil_iff, List.filter_eq_nil_iff]
  constructor
  · intro hnone k hk
    obtain ⟨hlo, hhi, hmod⟩ := connWord_iff.mp hk
    obtain hmem | hreset := Sparse.mem_or_reset (d := resetWord) s.regs k
    · have hclosed := hnone _ hmem
      simp only [hlo, hhi, hmod, decide_true, beq_self_eq_true, Bool.true_and, bne_iff_ne, ne_eq, not_not] at hclosed
      rw [State.rd]
      omega
    · rw [State.rd, hreset, show k = 0x0D100000 + 64 * ((k - 0x0D100000) / 64) by omega, resetWord_connContext (by omega)]
      decide
  · intro hclosed x hx hopen
    simp only [Bool.and_eq_true, decide_eq_true_eq, beq_iff_eq, bne_iff_ne] at hopen
    obtain ⟨⟨⟨hlo, hhi⟩, hmod⟩, hne⟩ := hopen
    have hword := hclosed x.1 (connWord_iff.mpr ⟨hlo, hhi, hmod⟩)
    rw [State.rd, (Sparse.get_of_mem (canon_regs hc) hx).2] at hword
    omega

theorem setBits_zero_le (w lo n : Nat) : setBits w lo n 0 ≤ w := by
  have hhigh : w / 2 ^ (lo + n) * 2 ^ (lo + n) = w / 2 ^ lo / 2 ^ n * 2 ^ n * 2 ^ lo := by
    rw [pow_add, ← Nat.div_div_eq_div_mul, mul_comm (2 ^ lo), mul_assoc]
  have hmid : w / 2 ^ lo / 2 ^ n * 2 ^ n * 2 ^ lo ≤ w / 2 ^ lo * 2 ^ lo := Nat.mul_le_mul_right _ (Nat.div_mul_le_self ..)
  have hsplit := Nat.div_add_mod' w (2 ^ lo)
  rw [setBits, Nat.zero_mod, Nat.zero_mul, Nat.add_zero, hhigh]
  omega

theorem rd_put_zero_le (hc : s.canon = true) {f : Field} (hword : f.hi < 32) (k : Nat) : (s.put f 0).rd k ≤ s.rd k := by
  by_cases hk : k = f.key
  · rw [hk, State.put, if_pos hword, rd_wr_same hc]
    exact (Nat.mod_le _ _).trans (setBits_zero_le _ _ _)
  · exact (rd_put_ne hc hk (.inl hword)).le

/-! ## A ring abandoned (R344, R390) -/

/-- What the end of rings' work can change: the buffer's words, SUP's tracker, QE's count of lost events, and far up the words of pools
and rings, whatever function or ring is named. -/
def abandonWord (k : Nat) : Bool :=
  inRange k 0x06000000 0x1000000 || words [Reg.SUP_TRACK_STATUS_HELD, Reg.QE_ARB_LOST] k ||
    (decide (0x0B200000 ≤ k) && (k % 64 == 0 || k % 64 == 32 || k % 64 == 52))

/-- From `s` to `t` work of rings ends. -/
structure Abandons (s t : State) : Prop where
  within : Within abandonWord s t
  closed : s.canon = true → ConnsClosed s → ConnsClosed t
  hiu : t.hiu = s.hiu
  ttu : t.ttu = s.ttu

theorem Abandons.refl (s : State) : Abandons s s := ⟨Within.refl s, fun _ h => h, rfl, rfl⟩

theorem Abandons.trans {u : State} (h : Abandons s t) (g : Abandons t u) : Abandons s u :=
  ⟨h.within.trans g.within, fun hc hs => g.closed (h.within.canon hc) (h.closed hc hs), g.hiu.trans h.hiu, g.ttu.trans h.ttu⟩

theorem abandons_foldl {α : Type} {f : State → α → State} (hf : ∀ s x, Abandons s (f s x)) (l : List α) (s : State) :
    Abandons s (l.foldl f s) := by
  induction l generalizing s with
  | nil => exact Abandons.refl s
  | cons x l ih => exact (hf s x).trans (ih _)

/-- Words that are no connection's. -/
theorem ConnsClosed.of_within {area : Nat → Bool} (hs : ConnsClosed s) (h : Within area s t) (hc : s.canon = true)
    (hoff : ∀ k, area k = true → connWord k = false) : ConnsClosed t := fun k hk => by
  have hout : area k = false := by
    rw [Bool.eq_false_iff]
    exact fun hin => Bool.false_ne_true ((hoff k hin).symm.trans hk)
  rw [h.words hc k hout]
  exact hs k hk

theorem abandons_of_within {area : Nat → Bool} (h : Within area s t) (hsub : ∀ k, area k = true → abandonWord k = true)
    (hoff : ∀ k, area k = true → connWord k = false) (hhiu : t.hiu = s.hiu) (httu : t.ttu = s.ttu) : Abandons s t :=
  ⟨h.mono hsub, fun hc hs => hs.of_within h hc hoff, hhiu, httu⟩

theorem abandons_same (hregs : t.regs = s.regs) (hevents : t.events = s.events) (hflash : t.sup.flash = s.sup.flash) (hhiu : t.hiu = s.hiu)
    (httu : t.ttu = s.ttu) : Abandons s t :=
  abandons_of_within (area := fun _ => false) (within_same (Within.refl s) hregs hevents hflash) (fun _ h => absurd h Bool.false_ne_true)
    (fun _ h => absurd h Bool.false_ne_true) hhiu httu

theorem put_hiu (s : State) (f : Field) (v : Nat) : (s.put f v).hiu = s.hiu := by rw [put_rest]
theorem put_ttu (s : State) (f : Field) (v : Nat) : (s.put f v).ttu = s.ttu := by rw [put_rest]

/-- A field goes to 0. -/
theorem abandons_put_zero (s : State) {f : Field} (harea : abandonWord f.key = true) (hword : f.hi < 32) : Abandons s (s.put f 0) :=
  ⟨within_put (Within.refl s) harea (.inl hword), fun hc hs k hk => (rd_put_zero_le hc hword k).trans_lt (hs k hk), put_hiu .., put_ttu ..⟩

/-- The buffer's words, and QE's count of lost events. -/
def cellWord (k : Nat) : Bool := inRange k 0x06000000 0x1000000 || words [Reg.QE_ARB_LOST] k

theorem abandons_cells (h : Within cellWord s t) (hhiu : t.hiu = s.hiu) (httu : t.ttu = s.ttu) : Abandons s t :=
  abandons_of_within h (fun k hk => by
      simp only [cellWord, abandonWord, words, List.any_cons, List.any_nil, Bool.or_false, Bool.or_eq_true, Bool.and_eq_true] at hk ⊢
      tauto)
    (fun k hk => by
      rw [Bool.eq_false_iff]
      simp only [cellWord, words, List.any_cons, List.any_nil, Bool.or_false, Bool.or_eq_true, Bool.and_eq_true, beq_iff_eq, decide_eq_true_eq,
        inRange_iff, ne_eq, connWord_iff] at hk ⊢
      omega) hhiu httu

theorem within_misuse (s : State) (c kind : Nat) : Within cellWord s (s.misuse c kind) := by
  have hnoted : Within cellWord s ((s.put Reg.FPU_MISUSE_LAST_KIND kind).put Reg.FPU_MISUSE_LAST_CELL c) :=
    within_put (within_put (Within.refl s) (by decide) (.inl (by decide))) (by decide) (.inl (by decide))
  unfold State.misuse State.oncePerTick
  dsimp only
  split
  · exact hnoted
  · exact within_raise (within_same hnoted rfl rfl rfl) (by decide) (by decide)

theorem within_freeCell (s : State) (c h g : Nat) : Within cellWord s (s.freeCell c h g) := by
  unfold State.freeCell
  dsimp only
  split
  · exact (within_put (Within.refl s) (by decide) (.inr (by decide))).trans (within_misuse _ c 1)
  · split
    · exact (within_put (Within.refl s) (by decide) (.inr (by decide))).trans (within_misuse _ c 2)
    · exact within_put (within_same (Within.refl s) rfl rfl rfl) (by decide) (.inl (by decide))

theorem Closes.hiu (h : Closes s t) : t.hiu = s.hiu := by rw [h.rest]; rfl
theorem Closes.ttu (h : Closes s t) : t.ttu = s.ttu := by rw [h.rest]; rfl

theorem abandons_freeCell (s : State) (c h g : Nat) : Abandons s (s.freeCell c h g) :=
  abandons_cells (within_freeCell s c h g) (closes_freeCell s c h g).hiu (closes_freeCell s c h g).ttu

theorem abandons_poolGive (s : State) (f n : Nat) : Abandons s (s.poolGive f 6 n) := by
  have hmod : (poolUsed f 6).key % 64 = 52 := by
    show (0x0B200004 + 64 * f + 8 * 6) % 64 = 52
    omega
  have hlo : 0x0B200000 ≤ (poolUsed f 6).key := Nat.le_add_right_of_le (Nat.le_add_right_of_le (by decide))
  refine abandons_of_within (area := fun k => k == (poolUsed f 6).key)
    (within_put (Within.refl s) (beq_self_eq_true _) (.inl (show 31 < 32 by decide))) (fun k hk => ?_) (fun k hk => ?_) (put_hiu ..) (put_ttu ..)
  · rw [beq_iff_eq.mp hk, abandonWord, hmod, decide_eq_true hlo, Bool.or_eq_true]
    exact .inr rfl
  · rw [beq_iff_eq.mp hk, connWord, hmod]
    exact Bool.and_false _

theorem abandons_setFrame (s : State) (h : Nat) (f : Frame) : Abandons s (s.setFrame h f) := abandons_same rfl rfl rfl rfl rfl

theorem abandons_releaseCopy (s : State) (h : Nat) : Abandons s (s.releaseCopy h) := by
  unfold State.releaseCopy
  split
  · exact Abandons.refl s
  · rename_i f _
    split
    · exact abandons_setFrame s h _
    · exact ((abandons_foldl (fun t v => abandons_poolGive t v _) f.charged s).trans
        (abandons_foldl (fun t (x : Nat × Nat) => abandons_freeCell t x.1 h x.2) _ _)).trans (abandons_same rfl rfl rfl rfl rfl)

theorem abandons_freeFrame (s : State) (h : Nat) : Abandons s (s.freeFrame h) := by
  unfold State.freeFrame
  split
  · exact Abandons.refl s
  · exact (abandons_setFrame s h _).trans (abandons_releaseCopy _ h)

theorem abandons_releaseMaybe (s : State) (h : Option Nat) : Abandons s (s.releaseMaybe h) := by
  cases h with
  | none => exact Abandons.refl s
  | some h => exact abandons_releaseCopy s h

theorem abandons_dropCell (s : State) (h : Option Nat) (c : Option (Nat × Nat)) : Abandons s (s.dropCell h c) := by
  unfold State.dropCell
  split
  next h c =>
    refine Abandons.trans ?_ (abandons_freeCell _ c.1 h c.2)
    split
    next f _ => exact (abandons_foldl (fun t v => abandons_poolGive t v 1) f.charged s).trans (abandons_setFrame _ h _)
    · exact Abandons.refl s
  · exact Abandons.refl s

theorem abandons_dropRx (s : State) (w : RxItem) : Abandons s (s.dropRx w) :=
  (abandons_dropCell s w.handle w.head).trans (abandons_releaseMaybe _ w.handle)

theorem abandons_trackGive (s : State) : Abandons s s.trackGive :=
  abandons_of_within (area := words [Reg.SUP_TRACK_STATUS_HELD]) (within_put (Within.refl s) (by decide) (.inl (by decide)))
    (fun k hk => by rw [abandonWord, words_mono (by simp) hk, Bool.or_true, Bool.true_or])
    (fun k hk => by
      rw [Bool.eq_false_iff]
      simp only [words, List.any_cons, List.any_nil, Bool.or_false, Bool.or_eq_true, Bool.and_eq_true, beq_iff_eq, decide_eq_true_eq, ne_eq,
        connWord_iff] at hk ⊢
      omega) (put_hiu ..) (put_ttu ..)

theorem abandons_setRing (s : State) (r : Nat) (x : RingRt) : Abandons s (s.setRing r x) := abandons_same rfl rfl rfl rfl rfl

theorem abandonWord_ring (r : Nat) : abandonWord (Reg.RING_ENABLE r).key = true ∧ abandonWord (Reg.RING_REREAD r).key = true := by
  have henable : (0x0C400000 + 64 * r) % 64 = 0 := by omega
  have hreread : (0x0C400020 + 64 * r) % 64 = 32 := by omega
  constructor
  · show abandonWord (0x0C400000 + 64 * r) = true
    rw [abandonWord, henable, decide_eq_true (by omega), Bool.or_eq_true]
    exact .inr rfl
  · show abandonWord (0x0C400020 + 64 * r) = true
    rw [abandonWord, hreread, decide_eq_true (by omega), Bool.or_eq_true]
    exact .inr rfl

theorem abandons_stopRing (s : State) (r : Nat) : Abandons s (s.stopRing r) :=
  ((abandons_put_zero s (abandonWord_ring r).1 (show 31 < 32 by decide)).trans
    (abandons_put_zero _ (abandonWord_ring r).2 (show 29 < 32 by decide))).trans (abandons_setRing _ r _)

/-- A ring's frames no longer wait, and its packets wait for no entry of it. -/
def State.ringLeft (s : State) (r : Nat) : State :=
  { s with qe := { s.qe with
      rxWait := s.qe.rxWait.filter (fun w => w.ring != r)
      mediaWait := s.qe.mediaWait.map (fun m => if m.1 = r && m.2.1 < 2 ^ 32 then (m.1, m.2.1 + 2 ^ 32, m.2.2) else m) } }

theorem abandons_abandonRing (s : State) (r : Nat) : Abandons s (s.abandonRing r) := by
  unfold State.abandonRing
  split
  · exact Abandons.refl s
  · refine Abandons.trans ?_ (abandons_setRing _ r _)
    refine Abandons.trans ?_ (abandons_stopRing _ r)
    refine Abandons.trans ?_ (abandons_foldl (fun t (_ : Nat) => abandons_trackGive t) _ _)
    exact Abandons.trans (t := s.ringLeft r) (abandons_same rfl rfl rfl rfl rfl)
      (abandons_foldl (f := fun t w => t.dropRx w) (fun t w => abandons_dropRx t w) _ _)

/-! ## Resets of functions (R349) -/

/-- The words outside HIU. -/
def offHiu (k : Nat) : Bool := k / 0x1000000 != 10

/-- From `s` to `t` the host's work ends: no register of HIU changes, and none of its tags. -/
structure WorkEnds (s t : State) : Prop where
  within : Within offHiu s t
  closed : s.canon = true → ConnsClosed s → ConnsClosed t
  tags : t.hiu.tags = s.hiu.tags
  queue : t.hiu.queue = s.hiu.queue

theorem WorkEnds.refl (s : State) : WorkEnds s s := ⟨Within.refl s, fun _ h => h, rfl, rfl⟩

theorem WorkEnds.trans {u : State} (h : WorkEnds s t) (g : WorkEnds t u) : WorkEnds s u :=
  ⟨h.within.trans g.within, fun hc hs => g.closed (h.within.canon hc) (h.closed hc hs), g.tags.trans h.tags, g.queue.trans h.queue⟩

theorem workEnds_foldl {α : Type} {f : State → α → State} (hf : ∀ s x, WorkEnds s (f s x)) (l : List α) (s : State) :
    WorkEnds s (l.foldl f s) := by
  induction l generalizing s with
  | nil => exact WorkEnds.refl s
  | cons x l ih => exact (hf s x).trans (ih _)

theorem offHiu_of_abandonWord {k : Nat} (h : abandonWord k = true) : offHiu k = true := by
  simp only [abandonWord, words, List.any_cons, List.any_nil, Bool.or_false, Bool.or_eq_true, Bool.and_eq_true, beq_iff_eq, decide_eq_true_eq,
    inRange_iff] at h
  rw [offHiu, bne_iff_ne]
  omega

theorem Abandons.workEnds (h : Abandons s t) : WorkEnds s t :=
  ⟨h.within.mono fun _ => offHiu_of_abandonWord, h.closed, by rw [h.hiu], by rw [h.hiu]⟩

/-- A word beyond the connections' contexts is neither HIU's nor a connection's. -/
theorem far_word {k : Nat} (h : 0x0D180000 ≤ k) : offHiu k = true ∧ connWord k = false := by
  rw [offHiu, bne_iff_ne, Bool.eq_false_iff, ne_eq, ne_eq, connWord_iff]
  omega

theorem workEnds_of_within {area : Nat → Bool} (h : Within area s t) (hsub : ∀ k, area k = true → offHiu k = true)
    (hoff : ∀ k, area k = true → connWord k = false) (htags : t.hiu.tags = s.hiu.tags) (hqueue : t.hiu.queue = s.hiu.queue) : WorkEnds s t :=
  ⟨h.mono hsub, fun hc hs => hs.of_within h hc hoff, htags, hqueue⟩

theorem workEnds_far (h : Within (fun k => decide (0x0D180000 ≤ k)) s t) (htags : t.hiu.tags = s.hiu.tags) (hqueue : t.hiu.queue = s.hiu.queue) :
    WorkEnds s t :=
  workEnds_of_within h (fun _ hk => (far_word (of_decide_eq_true hk)).1) (fun _ hk => (far_word (of_decide_eq_true hk)).2) htags hqueue

theorem workEnds_resetWords (s : State) {p : Nat → Bool} (hp : ∀ k, p k = true → 0x0D180000 ≤ k) : WorkEnds s (s.resetWords p) :=
  workEnds_far (within_resetWords (Within.refl s) fun k hk => decide_eq_true (hp k hk)) rfl rfl

theorem workEnds_put_far (s : State) {f : Field} (v : Nat) (hkey : 0x0D180000 ≤ f.key) (hword : f.hi < 32) : WorkEnds s (s.put f v) :=
  workEnds_far (within_put (Within.refl s) (decide_eq_true hkey) (.inl hword)) (by rw [put_hiu]) (by rw [put_hiu])

theorem workEnds_put_zero (s : State) {f : Field} (harea : offHiu f.key = true) (hword : f.hi < 32) : WorkEnds s (s.put f 0) :=
  ⟨within_put (Within.refl s) harea (.inl hword), fun hc hs k hk => (rd_put_zero_le hc hword k).trans_lt (hs k hk), by rw [put_hiu],
    by rw [put_hiu]⟩

theorem workEnds_same (hregs : t.regs = s.regs) (hevents : t.events = s.events) (hflash : t.sup.flash = s.sup.flash)
    (htags : t.hiu.tags = s.hiu.tags) (hqueue : t.hiu.queue = s.hiu.queue) : WorkEnds s t :=
  workEnds_of_within (area := fun _ => false) (within_same (Within.refl s) hregs hevents hflash) (fun _ h => absurd h Bool.false_ne_true)
    (fun _ h => absurd h Bool.false_ne_true) htags hqueue

theorem raiseEvent_hiu (s : State) (e : Event) : (s.raiseEvent e).hiu = s.hiu := by rw [raiseEvent_rest]
theorem raiseEvent_ttu (s : State) (e : Event) : (s.raiseEvent e).ttu = s.ttu := by rw [raiseEvent_rest]

theorem workEnds_raiseEvent (s : State) (e : Event) : WorkEnds s (s.raiseEvent e) := by
  refine workEnds_of_within (area := words [Reg.QE_ARB_LOST]) (within_raiseEvent (Within.refl s) (by decide) (by decide)) (fun k hk => ?_)
    (fun k hk => ?_) (by rw [raiseEvent_hiu]) (by rw [raiseEvent_hiu])
  all_goals
    simp only [words, List.any_cons, List.any_nil, Bool.or_false, Bool.or_eq_true, Bool.and_eq_true, beq_iff_eq, decide_eq_true_eq] at hk
  · rw [offHiu, bne_iff_ne]
    omega
  · rw [Bool.eq_false_iff, ne_eq, connWord_iff]
    omega

theorem workEnds_resetVfWords (s : State) (v : Nat) : WorkEnds s (s.resetVfWords v) := by
  have hfar : 0x0D180000 ≤ 0x20009000 + 0x10000 * v := by omega
  refine ((workEnds_resetWords s fun k hk => ?_).trans (workEnds_put_far _ _ hfar (show 8 < 32 by decide))).trans
    (workEnds_put_far _ _ hfar (show 9 < 32 by decide))
  rw [inRange_iff] at hk
  omega

theorem pendingBit_key (toVf : Bool) (v : Nat) : offHiu (pendingBit toVf v).key = true := by
  cases toVf with
  | false =>
    show offHiu (0x0B002000 + v / 32 * 4) = true
    rw [offHiu, bne_iff_ne]
    omega
  | true =>
    show offHiu (0x0B002400 + v / 32 * 4) = true
    rw [offHiu, bne_iff_ne]
    omega

theorem pendingBit_hi (toVf : Bool) (v : Nat) : (pendingBit toVf v).hi < 32 := Nat.mod_lt _ (by decide)

theorem workEnds_setHalf_free (s : State) (toVf : Bool) (v : Nat) : WorkEnds s (s.setHalf toVf v false) := by
  have hfar : 0x0D180000 ≤ 0x20009000 + 0x10000 * v := by omega
  refine (workEnds_put_zero s (pendingBit_key toVf v) (pendingBit_hi toVf v)).trans ?_
  cases toVf with
  | false => exact workEnds_put_far _ _ hfar (show 8 < 32 by decide)
  | true => exact workEnds_put_far _ _ hfar (show 9 < 32 by decide)

/-- The state that a function's reset begins with: its translations and its power state are gone. -/
def State.flrTaken (s : State) (v : Nat) : State :=
  { s.dropEntries (fun e => e.func == v) (fun f => f == v) with
    ttu := { (s.dropEntries (fun e => e.func == v) (fun f => f == v)).ttu with flr := s.ttu.flr.filter (· != v) }
    hiu := { s.hiu with vfD3 := s.hiu.vfD3.filter (· != v) } }

/-- The words that a function's reset returns: its mailbox, its registers, its configuration space. -/
def State.flrWords (s : State) (v : Nat) : State :=
  (((((s.flrTaken v).resetWords (fun k => inRange k (0x10000000 + v * 0x1000) 0x1000)).setHalf false v false).setHalf true v false).resetVfWords
    v).resetConfig v

theorem finishFlr_eq (s : State) (v : Nat) : s.finishFlr v = (s.flrWords v).raiseFor .ttu 7 v [] := rfl

theorem workEnds_flrWords (s : State) (v : Nat) : WorkEnds s (s.flrWords v) := by
  have htaken : WorkEnds s (s.flrTaken v) := workEnds_same rfl rfl rfl rfl rfl
  have hmailbox : WorkEnds (s.flrTaken v) ((s.flrTaken v).resetWords (fun k => inRange k (0x10000000 + v * 0x1000) 0x1000)) :=
    workEnds_resetWords _ fun k hk => by
      rw [inRange_iff] at hk
      omega
  refine ((((htaken.trans hmailbox).trans (workEnds_setHalf_free _ false v)).trans (workEnds_setHalf_free _ true v)).trans
    (workEnds_resetVfWords _ v)).trans (workEnds_resetWords (p := fun k => inRange k (cfgKey v 0) 0x1000) _ fun k hk => ?_)
  rw [inRange_iff, cfgKey] at hk
  omega

theorem workEnds_finishFlr (s : State) (v : Nat) : WorkEnds s (s.finishFlr v) := (workEnds_flrWords s v).trans (workEnds_raiseEvent _ _)

theorem workEnds_endFlrs (s : State) : WorkEnds s s.endFlrs := workEnds_foldl (fun s v => workEnds_finishFlr s v) _ s

end

end Sys2Proof.Machine
end

section
/-! PROOFS. Standalone mode (R343, R344): what its beginning leaves of HIU, and what the link's and the functions' resets leave of
that. -/

namespace Sys2Proof.Machine

/-! ## The beginning, in stages -/

/-- The session counts, and the cause is noted. -/
def State.causeNoted (s : State) (cause : Nat) : State :=
  (s.put Reg.HIU_HOST_STATE_SESSION (s.get Reg.HIU_HOST_STATE_SESSION + 1)).put Reg.HIU_HOST_STATE_CAUSE cause

/-- The tick is noted, and the period counts. -/
def State.periodNoted (s : State) : State := (s.put Reg.HIU_STANDALONE_TICK_TICK s.tick).bump Reg.HIU_STANDALONE_ENTRIES

/-- The beginning is logged. -/
def State.causeLogged (s : State) (cause : Nat) : State := s.hlog 9 10 (payload [(8, cause), (16, s.get Reg.HIU_HOST_STATE_SESSION)])

/-- No read is outstanding or waits any more. -/
def State.readsDropped (s : State) : State :=
  { s with hiu := { s.hiu with tags := [], queue := [] }, ttu := { s.ttu with inv := s.ttu.inv.map (fun _ => []) } }

/-- What was outstanding is counted. -/
def State.readsLost (s : State) : State := s.readsDropped.countTags.bumpBy Reg.HIU_LINK_LOST_REQ s.hiu.tags.length

/-- The rest of the host's work ends. -/
def State.hostWorkEnded (s : State) : State :=
  let s := s.endFlrs
  let s := s.ringsBusy.foldl (fun s r => s.abandonRing r) s
  let s := s.storageStandalone
  s.setCommands (s.sie.commands.map (fun c => { c with closed := true }))

theorem beginStandalone_eq (s : State) (cause : Nat) : s.beginStandalone cause =
    (((s.causeNoted cause).periodNoted.causeLogged cause).readsLost.hostWorkEnded).put Reg.HIU_HOST_STATE_MODE 1 := rfl

/-- HIU's words that the beginning of a standalone period changes. -/
def standaloneFields : List Field := [Reg.HIU_HOST_STATE_MODE, Reg.HIU_STANDALONE_TICK_TICK, Reg.HIU_STANDALONE_ENTRIES,
  Reg.HIU_TAG_STATUS_OUTSTANDING, Reg.HIU_TAG_HWM, Reg.HIU_LINK_LOST_REQ]

/-- All that it changes. -/
def standaloneWord (k : Nat) : Bool := offHiu k || words standaloneFields k

/-- What a standalone period that began in `s` shows. -/
structure Stands (cause : Nat) (s t : State) : Prop where
  detached : t.attached = false
  cause : t.get Reg.HIU_HOST_STATE_CAUSE = cause
  session : t.get Reg.HIU_HOST_STATE_SESSION = (s.get Reg.HIU_HOST_STATE_SESSION + 1) % 2 ^ 16
  tick : t.get Reg.HIU_STANDALONE_TICK_TICK = s.tick
  entries : t.get Reg.HIU_STANDALONE_ENTRIES = (s.get Reg.HIU_STANDALONE_ENTRIES + 1) % 2 ^ 64
  tags : t.hiu.tags = []
  queue : t.hiu.queue = []
  lost : t.get Reg.HIU_LINK_LOST_REQ = (s.get Reg.HIU_LINK_LOST_REQ + s.hiu.tags.length) % 2 ^ 64

section
variable {s t u : State}

theorem offHiu_of_logWord {k : Nat} (h : logWord k = true) : offHiu k = true := by
  simp only [logWord, words, List.any_cons, List.any_nil, Bool.or_false, Bool.or_eq_true, Bool.and_eq_true, beq_iff_eq, decide_eq_true_eq,
    inRange_iff] at h
  rw [offHiu, bne_iff_ne]
  omega

theorem connWord_of_logWord {k : Nat} (h : logWord k = true) : connWord k = false := by
  simp only [logWord, words, List.any_cons, List.any_nil, Bool.or_false, Bool.or_eq_true, Bool.and_eq_true, beq_iff_eq, decide_eq_true_eq,
    inRange_iff] at h
  rw [Bool.eq_false_iff, ne_eq, connWord_iff]
  omega

theorem writes_causeNoted (s : State) (cause : Nat) : Writes (words [Reg.HIU_HOST_STATE_MODE]) s (s.causeNoted cause) :=
  writes_put (writes_put (Writes.refl s) (by decide) (.inl (by decide))) (by decide) (.inl (by decide))

theorem causeNoted_cause (hc : s.canon = true) {cause : Nat} (hcause : cause < 16) : (s.causeNoted cause).get Reg.HIU_HOST_STATE_CAUSE = cause :=
  (get_put_same (canon_put hc) (by decide)).trans (Nat.mod_eq_of_lt hcause)

theorem causeNoted_session (hc : s.canon = true) (cause : Nat) :
    (s.causeNoted cause).get Reg.HIU_HOST_STATE_SESSION = (s.get Reg.HIU_HOST_STATE_SESSION + 1) % 2 ^ 16 :=
  (get_put_off (canon_put hc) (by decide)).trans (get_put_same hc (by decide))

theorem writes_periodNoted (s : State) : Writes (words [Reg.HIU_STANDALONE_TICK_TICK, Reg.HIU_STANDALONE_ENTRIES]) s s.periodNoted :=
  writes_bump (writes_put (Writes.refl s) (by decide) (.inr (by decide))) (by decide) (.inr (by decide))

theorem periodNoted_tick (hc : s.canon = true) : s.periodNoted.get Reg.HIU_STANDALONE_TICK_TICK = s.tick :=
  (get_put_off (canon_put hc) (by decide)).trans ((get_put_same hc (by decide)).trans (Nat.mod_eq_of_lt (get_lt s Reg.TE_TICK)))

theorem periodNoted_entries (hc : s.canon = true) :
    s.periodNoted.get Reg.HIU_STANDALONE_ENTRIES = (s.get Reg.HIU_STANDALONE_ENTRIES + 1) % 2 ^ 64 := by
  rw [State.periodNoted, State.bump, get_put_same (canon_put hc) (by decide), get_put_off hc (by decide)]
  rfl

theorem causeLogged_rest (s : State) (cause : Nat) : s.causeLogged cause = { s with regs := (s.causeLogged cause).regs } := hlog_rest ..
theorem within_causeLogged (s : State) (cause : Nat) : Within logWord s (s.causeLogged cause) := within_hlog (Within.refl s) fun _ h => h

theorem within_readsLost (s : State) : Within (words [Reg.HIU_TAG_STATUS_OUTSTANDING, Reg.HIU_TAG_HWM, Reg.HIU_LINK_LOST_REQ]) s s.readsLost := by
  have hdropped : Within (words [Reg.HIU_TAG_STATUS_OUTSTANDING, Reg.HIU_TAG_HWM, Reg.HIU_LINK_LOST_REQ]) s s.readsDropped :=
    within_same (Within.refl s) rfl rfl rfl
  exact within_put (f := Reg.HIU_LINK_LOST_REQ) (hdropped.trans ((writes_countTags _).within.mono fun _ hk => words_mono (by simp) hk)) (by decide)
    (.inr (by decide))

theorem readsLost_rest (s : State) : s.readsLost = { s.readsDropped with regs := s.readsLost.regs } := by
  rw [State.readsLost, State.bumpBy, put_rest, (writes_countTags _).rest]

theorem readsLost_tags (s : State) : s.readsLost.hiu.tags = [] := by rw [readsLost_rest]; rfl
theorem readsLost_queue (s : State) : s.readsLost.hiu.queue = [] := by rw [readsLost_rest]; rfl

theorem readsDropped_get (s : State) (f : Field) : s.readsDropped.get f = s.get f := rfl
theorem readsDropped_canon (s : State) : s.readsDropped.canon = s.canon := rfl

theorem readsLost_lost (hc : s.canon = true) :
    s.readsLost.get Reg.HIU_LINK_LOST_REQ = (s.get Reg.HIU_LINK_LOST_REQ + s.hiu.tags.length) % 2 ^ 64 := by
  have hcount := writes_countTags s.readsDropped
  have hget := hcount.get_eq ((readsDropped_canon s).trans hc) (f := Reg.HIU_LINK_LOST_REQ) (by decide) (by decide)
  rw [State.readsLost, State.bumpBy, get_put_same (hcount.canon ((readsDropped_canon s).trans hc)) (by decide), hget, readsDropped_get]
  rfl

theorem workEnds_setCommands (s : State) (l : List StorCmd) : WorkEnds s (s.setCommands l) := workEnds_same rfl rfl rfl rfl rfl

theorem storageStandalone_closed (hnone : s.openConns = []) : s.storageStandalone = s.setCommands (s.sie.commands.filter (·.ns)) := by
  rw [State.storageStandalone, hnone, List.foldl_nil]

theorem workEnds_hostWorkEnded (hc : s.canon = true) (hclosed : ConnsClosed s) : WorkEnds s s.hostWorkEnded := by
  have hflrs := workEnds_endFlrs s
  have hrings : WorkEnds s (s.endFlrs.ringsBusy.foldl (fun s r => s.abandonRing r) s.endFlrs) :=
    hflrs.trans (workEnds_foldl (fun t r => (abandons_abandonRing t r).workEnds) _ _)
  unfold State.hostWorkEnded
  dsimp only
  generalize s.endFlrs.ringsBusy.foldl (fun s r => s.abandonRing r) s.endFlrs = u at hrings
  rw [storageStandalone_closed ((openConns_nil_iff (hrings.within.canon hc)).mpr (hrings.closed hc hclosed))]
  exact (hrings.trans (workEnds_setCommands _ _)).trans (workEnds_setCommands _ _)

/-! ## The whole beginning -/

theorem ConnsClosed.of_words {l : List Field} (hs : ConnsClosed s) (h : Within (words l) s t) (hc : s.canon = true)
    (hl : l.all (fun f => f.key + 4 < 0x0D100000) = true) : ConnsClosed t :=
  hs.of_within h hc fun k hk => by
    rw [Bool.eq_false_iff, ne_eq, connWord_iff]
    exact fun hconn => Bool.false_ne_true ((apart_conn l hl k hconn.1).symm.trans hk)

theorem beginStandalone_closed (hc : s.canon = true) (hclosed : ConnsClosed s) (cause : Nat) :
    ConnsClosed ((s.causeNoted cause).periodNoted.causeLogged cause).readsLost := by
  have hnoted := hclosed.of_words (writes_causeNoted s cause).within hc (by decide)
  have hc1 := (writes_causeNoted s cause).canon hc
  have hperiod := hnoted.of_words (writes_periodNoted _).within hc1 (by decide)
  have hc2 := (writes_periodNoted _).canon hc1
  have hlogged := hperiod.of_within (within_causeLogged _ cause) hc2 fun _ => connWord_of_logWord
  exact hlogged.of_words (within_readsLost _) ((within_causeLogged _ cause).canon hc2) (by decide)

/-- A standalone period begins. -/
theorem beginStandalone_stands (hc : s.canon = true) (hclosed : ConnsClosed s) {cause : Nat} (hcause : cause < 16) :
    Stands cause s (s.beginStandalone cause) ∧ Within standaloneWord s (s.beginStandalone cause) ∧ ConnsClosed (s.beginStandalone cause) := by
  have hend := beginStandalone_closed hc hclosed cause
  rw [beginStandalone_eq]
  have hw1 := writes_causeNoted s cause
  have hc1 := hw1.canon hc
  have hcause1 := causeNoted_cause hc hcause
  have hsession1 := causeNoted_session hc cause
  have htick1 : (s.causeNoted cause).tick = s.tick := hw1.get_eq hc (by decide) (by decide)
  have hentries1 := hw1.get_eq hc (f := Reg.HIU_STANDALONE_ENTRIES) (by decide) (by decide)
  have hlost1 := hw1.get_eq hc (f := Reg.HIU_LINK_LOST_REQ) (by decide) (by decide)
  have hhiu1 : (s.causeNoted cause).hiu = s.hiu := by rw [hw1.rest]
  generalize s.causeNoted cause = s1 at *
  have hw2 := writes_periodNoted s1
  have hc2 := hw2.canon hc1
  have htick2 := periodNoted_tick hc1
  have hentries2 := periodNoted_entries hc1
  have hcause2 := hw2.get_eq hc1 (f := Reg.HIU_HOST_STATE_CAUSE) (by decide) (by decide)
  have hsession2 := hw2.get_eq hc1 (f := Reg.HIU_HOST_STATE_SESSION) (by decide) (by decide)
  have hlost2 := hw2.get_eq hc1 (f := Reg.HIU_LINK_LOST_REQ) (by decide) (by decide)
  have hhiu2 : s1.periodNoted.hiu = s1.hiu := by rw [hw2.rest]
  generalize s1.periodNoted = s2 at *
  have hw3 := within_causeLogged s2 cause
  have hc3 := hw3.canon hc2
  have hlost3 := hw3.get_eq hc2 (f := Reg.HIU_LINK_LOST_REQ) (by decide) (by decide)
  have hhiu3 : (s2.causeLogged cause).hiu = s2.hiu := by rw [causeLogged_rest]
  generalize s2.causeLogged cause = s3 at *
  have hw4 := within_readsLost s3
  have hc4 := hw4.canon hc3
  have hlost4 := readsLost_lost hc3
  have htags4 := readsLost_tags s3
  have hqueue4 := readsLost_queue s3
  generalize s3.readsLost = s4 at *
  have hw5 := workEnds_hostWorkEnded hc4 hend
  have hc5 := hw5.within.canon hc4
  generalize s4.hostWorkEnded = s5 at *
  have hfrom2 : Within (fun k => offHiu k || words [Reg.HIU_TAG_STATUS_OUTSTANDING, Reg.HIU_TAG_HWM, Reg.HIU_LINK_LOST_REQ] k) s2 s5 :=
    ((hw3.mono fun k hk => by rw [offHiu_of_logWord hk, Bool.true_or]).trans (hw4.mono fun k hk => by rw [hk, Bool.or_true])).trans
      (hw5.within.mono fun k hk => by rw [hk, Bool.true_or])
  have hfrom4 : ∀ f : Field, offHiu f.key = false → offHiu (f.key + 4) = false → s5.get f = s4.get f := fun f hlo hhi =>
    hw5.within.get_eq hc4 hlo hhi
  refine ⟨?_, ?_, ?_⟩
  · exact {
      detached := by rw [State.attached, flag_put_same hc5 (by decide) (by decide)]; rfl
      cause := by rw [get_put_off hc5 (by decide), hfrom2.get_eq hc2 (by decide) (by decide), hcause2, hcause1]
      session := by rw [get_put_off hc5 (by decide), hfrom2.get_eq hc2 (by decide) (by decide), hsession2, hsession1]
      tick := by rw [get_put_off hc5 (by decide), hfrom2.get_eq hc2 (by decide) (by decide), htick2, htick1]
      entries := by rw [get_put_off hc5 (by decide), hfrom2.get_eq hc2 (by decide) (by decide), hentries2, hentries1]
      tags := by rw [put_hiu, hw5.tags, htags4]
      queue := by rw [put_hiu, hw5.queue, hqueue4]
      lost := by rw [get_put_off hc5 (by decide), hfrom4 _ (by decide) (by decide), hlost4, hlost3, hlost2, hlost1, hhiu3, hhiu2, hhiu1] }
  · have hwords : ∀ {l : List Field} {a b : State}, l ⊆ standaloneFields → Within (words l) a b → Within standaloneWord a b := fun hl hw =>
      hw.mono fun k hk => by rw [standaloneWord, words_mono hl hk, Bool.or_true]
    exact within_put ((((hwords (by decide) hw1.within).trans (hwords (by decide) hw2.within)).trans
      (hfrom2.mono fun k hk => by
        rw [Bool.or_eq_true] at hk
        rw [standaloneWord, Bool.or_eq_true]
        exact hk.imp_right (words_mono (by decide))))) (by decide) (.inl (by decide))
  · exact (hw5.closed hc4 hend).of_words (l := [Reg.HIU_HOST_STATE_MODE]) (within_put (Within.refl s5) (by decide) (.inl (by decide))) hc5
      (by decide)

end

end Sys2Proof.Machine
end

section
/-! PROOFS. The link, the functions' reset and the watchdog (R332, R336, R343 to R346). -/

namespace Sys2Proof.Machine

/-! ## What comes after the beginning of a standalone period -/

/-- The words of a function's reset: configuration space and FLR domains, PF0's MSI-X table, and with them INTA and the tag limit. -/
def functionsWord (k : Nat) : Bool :=
  decide (0x0D180000 ≤ k) || inRange k 0x0A010000 0x10000 || words [Reg.HIU_TAG_STATUS_LIMIT, Reg.HIU_INTX_STATUS_PENDING] k

/-- The words of the link's end and of the resets. -/
def laterWord (k : Nat) : Bool := functionsWord k || words [Reg.HIU_LINK_STATUS_UP, Reg.HIU_ADOPT_REFUSED] k

/-- From `s` to `t` the link and the functions change, and no read is taken up. -/
structure Later (s t : State) : Prop where
  within : Within laterWord s t
  tags : t.hiu.tags = s.hiu.tags
  queue : t.hiu.queue = s.hiu.queue

section
variable {s t u : State}

theorem Later.trans (h : Later s t) (g : Later t u) : Later s u :=
  ⟨h.within.trans g.within, g.tags.trans h.tags, g.queue.trans h.queue⟩

theorem later_same (hregs : t.regs = s.regs) (hevents : t.events = s.events) (hflash : t.sup.flash = s.sup.flash)
    (htags : t.hiu.tags = s.hiu.tags) (hqueue : t.hiu.queue = s.hiu.queue) : Later s t :=
  ⟨within_same (Within.refl s) hregs hevents hflash, htags, hqueue⟩

theorem Stands.later {cause : Nat} (h : Stands cause s t) (hl : Later t u) (hc : t.canon = true) (hlimit : t.get Reg.HIU_LINK_LOST_REQ =
    u.get Reg.HIU_LINK_LOST_REQ) : Stands cause s u where
  detached := by
    rw [State.attached, State.flag, hl.within.get_eq hc (by decide) (by decide)]
    exact h.detached
  cause := (hl.within.get_eq hc (by decide) (by decide)).trans h.cause
  session := (hl.within.get_eq hc (by decide) (by decide)).trans h.session
  tick := (hl.within.get_eq hc (by decide) (by decide)).trans h.tick
  entries := (hl.within.get_eq hc (by decide) (by decide)).trans h.entries
  tags := hl.tags.trans h.tags
  queue := hl.queue.trans h.queue
  lost := hlimit.symm.trans h.lost

end

/-! ## The link goes (R344) -/

/-- No credits are advertised. -/
def State.creditsGone (s : State) : State := { s with hiu := { s.hiu with fc := HiuState.reset.fc } }

section
variable {s : State}

theorem creditsGone_canon (s : State) : s.creditsGone.canon = s.canon := rfl

theorem writes_linkGone (s : State) : Writes (words [Reg.HIU_LINK_STATUS_UP]) s.creditsGone s.linkGone :=
  writes_put (writes_put (writes_put (writes_put (writes_put (Writes.refl _) (by decide) (.inl (by decide))) (by decide) (.inl (by decide)))
    (by decide) (.inl (by decide))) (by decide) (.inl (by decide))) (by decide) (.inl (by decide))

theorem later_linkGone (s : State) : Later s s.linkGone := by
  have hwrites := writes_linkGone s
  have hgone : Within laterWord s s.creditsGone := within_same (Within.refl s) rfl rfl rfl
  refine ⟨hgone.trans (hwrites.within.mono fun k hk => ?_), ?_, ?_⟩
  · rw [laterWord, words_mono (by simp) hk, Bool.or_true]
  · rw [hwrites.rest]
    rfl
  · rw [hwrites.rest]
    rfl

theorem linkGone_up (hc : s.canon = true) : s.linkGone.flag Reg.HIU_LINK_STATUS_UP = false := by
  have h1 : (s.creditsGone.put Reg.HIU_LINK_STATUS_UP 0).canon = true := canon_put ((creditsGone_canon s).trans hc)
  have hup : (s.creditsGone.put Reg.HIU_LINK_STATUS_UP 0).flag Reg.HIU_LINK_STATUS_UP = false :=
    (flag_put_same ((creditsGone_canon s).trans hc) (by decide) (by decide) 0).trans (by decide)
  have hgone : s.linkGone = ((((s.creditsGone.put Reg.HIU_LINK_STATUS_UP 0).put Reg.HIU_LINK_STATUS_FLIT 0).put Reg.HIU_LINK_STATUS_SPEED 0).put
    Reg.HIU_LINK_STATUS_WIDTH 0).put Reg.HIU_LINK_STATUS_BELOW_MIN 0 := rfl
  rw [hgone]
  generalize s.creditsGone.put Reg.HIU_LINK_STATUS_UP 0 = u at *
  rw [flag_put_off (canon_put (canon_put (canon_put h1))) (by decide), flag_put_off (canon_put (canon_put h1)) (by decide),
    flag_put_off (canon_put h1) (by decide), flag_put_off h1 (by decide), hup]

/-! ## The functions' reset (R342, R344) -/

/-- No function is asleep, and no ring requests an interrupt. -/
def State.functionsIdle (s : State) : State :=
  { s with hiu := { s.hiu with vfD3 := [] }
           qe := { s.qe with rings := s.qe.rings.map (fun x => (x.1, { x.2 with request := false })) } }

/-- What PERST#, Hot Reset and a PF0 FLR return to reset at once. -/
def resetArea (k : Nat) : Bool := inRange k 0x0A010000 0x10000 || 0x40000000 ≤ k

/-- Every function's words are at reset. -/
def State.functionWordsReset (s : State) : State := ((s.vfsTouched.foldl (fun s v => s.resetVfWords v) s).resetWords resetArea).functionsIdle

theorem resetFunctions_eq (s : State) : s.resetFunctions = s.functionWordsReset.refreshIntx.setTagLimit := rfl

theorem functionWordsReset_within (s : State) : Within functionsWord s s.functionWordsReset := by
  have hvfs : Within functionsWord s (s.vfsTouched.foldl (fun s v => s.resetVfWords v) s) := by
    refine within_foldl (Within.refl s) fun t v ht => ht.trans ?_
    have hfar : functionsWord (0x20009000 + 0x10000 * v) = true := by
      rw [functionsWord, decide_eq_true (by omega), Bool.true_or, Bool.true_or]
    have hwords : Within functionsWord t (t.resetWords fun k => inRange k (0x20000000 + v * 0x10000) 0x10000) :=
      within_resetWords (Within.refl t) fun k hk => by
        rw [inRange_iff] at hk
        rw [functionsWord, decide_eq_true (by omega), Bool.true_or, Bool.true_or]
    exact within_put (within_put hwords hfar (.inl (show 8 < 32 by decide))) hfar (.inl (show 9 < 32 by decide))
  refine within_same (within_resetWords hvfs fun k hk => ?_) rfl rfl rfl
  rw [resetArea, Bool.or_eq_true, decide_eq_true_eq] at hk
  obtain hk | hk := hk
  · rw [functionsWord, hk, Bool.or_true, Bool.true_or]
  · rw [functionsWord, decide_eq_true (by omega), Bool.true_or, Bool.true_or]

theorem foldl_resetVfWords_hiu (l : List Nat) (s : State) : (l.foldl (fun s v => s.resetVfWords v) s).hiu = s.hiu := by
  induction l generalizing s with
  | nil => rfl
  | cons v l ih =>
    have hone : (s.resetVfWords v).hiu = s.hiu := by
      rw [State.resetVfWords, put_hiu, put_hiu]
      rfl
    rw [List.foldl_cons, ih, hone]

theorem functionWordsReset_hiu (s : State) : s.functionWordsReset.hiu = { s.hiu with vfD3 := [] } :=
  congrArg (fun h : HiuState => { h with vfD3 := [] }) (foldl_resetVfWords_hiu s.vfsTouched s)

theorem functionWordsReset_rd (hc : s.canon = true) {k : Nat} (hk : resetArea k = true) : s.functionWordsReset.rd k = (resetWord k).toNat := by
  have hvfs : (s.vfsTouched.foldl (fun s v => s.resetVfWords v) s).canon = true :=
    (within_foldl (area := anyWord) (Within.refl s) fun t v ht =>
      ht.trans ((workEnds_resetVfWords t v).within.mono fun _ _ => rfl)).canon hc
  exact (rd_resetWords hvfs).trans (if_pos hk)

theorem within_refreshed (s : State) : Within (words [Reg.HIU_TAG_STATUS_LIMIT, Reg.HIU_INTX_STATUS_PENDING]) s s.refreshIntx.setTagLimit := by
  have hintx : Within (words [Reg.HIU_TAG_STATUS_LIMIT, Reg.HIU_INTX_STATUS_PENDING]) s s.refreshIntx := by
    unfold State.refreshIntx
    dsimp only
    split
    · exact Within.refl s
    · exact sendHost_within _ (within_put (Within.refl s) (by decide) (.inl (by decide)))
  exact within_put hintx (by decide) (.inl (by decide))

theorem refreshed_tags (s : State) : s.refreshIntx.setTagLimit.hiu.tags = s.hiu.tags ∧ s.refreshIntx.setTagLimit.hiu.queue = s.hiu.queue := by
  have hintx : s.refreshIntx.hiu.tags = s.hiu.tags ∧ s.refreshIntx.hiu.queue = s.hiu.queue := by
    unfold State.refreshIntx
    dsimp only
    split
    · exact ⟨rfl, rfl⟩
    · rw [sendHost_eq, State.spentFc, put_hiu]
      exact ⟨rfl, rfl⟩
  rw [State.setTagLimit, put_hiu]
  exact hintx

theorem within_resetFunctions (s : State) : Within functionsWord s s.resetFunctions := by
  rw [resetFunctions_eq]
  exact (functionWordsReset_within s).trans ((within_refreshed _).mono fun k hk => by rw [functionsWord, hk, Bool.or_true])

theorem later_resetFunctions (s : State) : Later s s.resetFunctions := by
  obtain ⟨htags, hqueue⟩ := refreshed_tags s.functionWordsReset
  refine ⟨(within_resetFunctions s).mono fun k hk => by rw [laterWord, hk, Bool.true_or], ?_, ?_⟩
  · rw [resetFunctions_eq, htags, functionWordsReset_hiu]
  · rw [resetFunctions_eq, hqueue, functionWordsReset_hiu]

theorem resetFunctions_rd (hc : s.canon = true) {k : Nat} (hk : (0x0A010000 ≤ k ∧ k < 0x0A020000) ∨ 0x40000000 ≤ k) :
    s.resetFunctions.rd k = (resetWord k).toNat := by
  have harea : resetArea k = true := by
    rw [resetArea, Bool.or_eq_true, inRange_iff, decide_eq_true_eq]
    exact hk
  have hcanon := (functionWordsReset_within s).canon hc
  rw [resetFunctions_eq, (within_refreshed _).words hcanon k (by
    rw [Bool.eq_false_iff]
    simp only [words, List.any_cons, List.any_nil, Bool.or_false, Bool.or_eq_true, Bool.and_eq_true, beq_iff_eq, decide_eq_true_eq, ne_eq]
    omega), functionWordsReset_rd hc harea]

theorem later_enterD3 (s : State) (f : Nat) : Later s (s.enterD3 f) := later_same rfl rfl rfl rfl rfl

theorem later_lost (h : Later s t) (hc : s.canon = true) : s.get Reg.HIU_LINK_LOST_REQ = t.get Reg.HIU_LINK_LOST_REQ :=
  (h.within.get_eq hc (by decide) (by decide)).symm

/-! ## Standalone mode by its triggers (R343) -/

/-- PERST# is low. -/
def State.perstLow (s : State) : State := { s with hiu := { s.hiu with perst := true } }

theorem perstLow_canon (s : State) : s.perstLow.canon = s.canon := rfl
theorem perstLow_powered (s : State) : s.perstLow.powered = s.powered := rfl
theorem perstLow_attached (s : State) : s.perstLow.attached = s.attached := rfl

theorem Stands.perstLow {cause : Nat} {t : State} (h : Stands cause s.perstLow t) : Stands cause s t :=
  ⟨h.detached, h.cause, h.session, h.tick, h.entries, h.tags, h.queue, h.lost⟩

theorem ConnsClosed.perstLow (h : ConnsClosed s) : ConnsClosed s.perstLow := h

/-- What a trigger that ends the session leaves. -/
def StandsAfter (cause : Nat) (down reset : Prop) (s t : State) : Prop :=
  Stands cause s t ∧ (down → t.flag Reg.HIU_LINK_STATUS_UP = false) ∧
    (reset → ∀ k, (0x0A010000 ≤ k ∧ k < 0x0A020000) ∨ 0x40000000 ≤ k → t.rd k = (resetWord k).toNat)

theorem resetFunctions_up (hc : s.canon = true) : s.resetFunctions.flag Reg.HIU_LINK_STATUS_UP = s.flag Reg.HIU_LINK_STATUS_UP := by
  rw [State.flag, (within_resetFunctions s).get_eq hc (by decide) (by decide), State.flag]

section
variable (hc : s.canon = true) (hclosed : ConnsClosed s) (hattached : s.attached = true) {cause : Nat} (hcause : cause < 16)
include hc hclosed hattached hcause

theorem enterStandalone_linkGone {reset : Prop} (hreset : ¬reset) : StandsAfter cause True reset s (s.enterStandalone cause).linkGone := by
  obtain ⟨hstands, hwithin, -⟩ := beginStandalone_stands hc hclosed hcause
  have hcanon := hwithin.canon hc
  rw [State.enterStandalone, hattached, if_pos rfl]
  have hlater := later_linkGone (s.beginStandalone cause)
  exact ⟨hstands.later hlater hcanon (later_lost hlater hcanon), fun _ => linkGone_up hcanon, fun h => absurd h hreset⟩

theorem enterStandalone_linkGone_reset : StandsAfter cause True True s (s.enterStandalone cause).linkGone.resetFunctions := by
  obtain ⟨hstands, hwithin, -⟩ := beginStandalone_stands hc hclosed hcause
  have hcanon := hwithin.canon hc
  rw [State.enterStandalone, hattached, if_pos rfl]
  have hlater := (later_linkGone (s.beginStandalone cause)).trans (later_resetFunctions _)
  have hgone := (later_linkGone (s.beginStandalone cause)).within.canon hcanon
  exact ⟨hstands.later hlater hcanon (later_lost hlater hcanon), fun _ => by rw [resetFunctions_up hgone, linkGone_up hcanon],
    fun _ k hk => resetFunctions_rd hgone hk⟩

theorem enterStandalone_reset {down : Prop} (hdown : ¬down) : StandsAfter cause down True s (s.enterStandalone cause).resetFunctions := by
  obtain ⟨hstands, hwithin, -⟩ := beginStandalone_stands hc hclosed hcause
  have hcanon := hwithin.canon hc
  rw [State.enterStandalone, hattached, if_pos rfl]
  have hlater := later_resetFunctions (s.beginStandalone cause)
  exact ⟨hstands.later hlater hcanon (later_lost hlater hcanon), fun h => absurd h hdown, fun _ k hk => resetFunctions_rd hcanon hk⟩

theorem enterStandalone_d3 {down reset : Prop} (hdown : ¬down) (hreset : ¬reset) :
    StandsAfter cause down reset s ((s.enterStandalone cause).enterD3 0) := by
  obtain ⟨hstands, hwithin, -⟩ := beginStandalone_stands hc hclosed hcause
  have hcanon := hwithin.canon hc
  rw [State.enterStandalone, hattached, if_pos rfl]
  have hlater := later_enterD3 (s.beginStandalone cause) 0
  exact ⟨hstands.later hlater hcanon (later_lost hlater hcanon), fun h => absurd h hdown, fun h => absurd h hreset⟩

end

theorem trigger_stands (hc : s.canon = true) (hclosed : ConnsClosed s) (hattached : s.attached = true) (hpowered : s.powered = true)
    {c : Nat × Instr} (hmem : c ∈ [(1, Instr.dlDown .down), (1, .dlDown .hotReset), (2, .perstAssert), (4, .pf0Flr), (5, .pf0D3)]) :
    completes c.2 s (StandsAfter c.1 (c.2 ≠ .pf0D3 ∧ c.2 ≠ .pf0Flr) (c.2 ≠ .pf0D3 ∧ c.2 ≠ .dlDown .down) s) := by
  simp only [List.mem_cons, List.not_mem_nil, or_false] at hmem
  obtain rfl | rfl | rfl | rfl | rfl := hmem
  · have hexec : exec (.dlDown .down) s = .next (s.enterStandalone 1).linkGone := by
      have he : exec (.dlDown .down) s = execDlDown .down s := rfl
      rw [he, execDlDown, hpowered, if_neg (by decide)]
    obtain ⟨hstands, hup, -⟩ := enterStandalone_linkGone hc hclosed hattached (cause := 1) (by decide) (reset := False) id
    exact ⟨_, hexec, hstands, fun _ => hup trivial, fun h => absurd rfl h.2⟩
  · have hexec : exec (.dlDown .hotReset) s = .next (s.enterStandalone 1).linkGone.resetFunctions := by
      have he : exec (.dlDown .hotReset) s = execDlDown .hotReset s := rfl
      rw [he, execDlDown, hpowered, if_neg (by decide)]
    obtain ⟨hstands, hup, hreset⟩ := enterStandalone_linkGone_reset hc hclosed hattached (cause := 1) (by decide)
    exact ⟨_, hexec, hstands, fun _ => hup trivial, fun _ => hreset trivial⟩
  · have hexec : exec .perstAssert s = .next (s.perstLow.enterStandalone 2).linkGone.resetFunctions := by
      have he : exec .perstAssert s = ok (s.perstLow.when s.perstLow.powered fun s => (s.enterStandalone 2).linkGone.resetFunctions) := rfl
      rw [he, perstLow_powered, hpowered]
      rfl
    obtain ⟨hstands, hup, hreset⟩ := enterStandalone_linkGone_reset ((perstLow_canon s).trans hc) hclosed.perstLow
      ((perstLow_attached s).trans hattached) (cause := 2) (by decide)
    exact ⟨_, hexec, hstands.perstLow, fun _ => hup trivial, fun _ => hreset trivial⟩
  · have hexec : exec .pf0Flr s = .next (s.enterStandalone 4).resetFunctions := by
      have he : exec .pf0Flr s = ok (s.when s.powered fun s => (s.enterStandalone 4).resetFunctions) := rfl
      rw [he, hpowered]
      rfl
    obtain ⟨hstands, -, hreset⟩ := enterStandalone_reset hc hclosed hattached (cause := 4) (by decide) (down := False) id
    exact ⟨_, hexec, hstands, fun h => absurd rfl h.2, fun _ => hreset trivial⟩
  · have hexec : exec .pf0D3 s = .next ((s.enterStandalone 5).enterD3 0) := by
      have he : exec .pf0D3 s = ok (s.when s.powered fun s => (s.enterStandalone 5).enterD3 0) := rfl
      rw [he, hpowered]
      rfl
    obtain ⟨hstands, -, -⟩ := enterStandalone_d3 hc hclosed hattached (cause := 5) (by decide) (down := False) (reset := False) id id
    exact ⟨_, hexec, hstands, fun h => absurd rfl h.1, fun h => absurd rfl h.1⟩

end

end Sys2Proof.Machine
end

section
/-! PROOFS. HIU lost, the watchdog, the link's training, and standalone mode as a whole (R332, R336, R343 to R346, R434). -/

namespace Sys2Proof.Machine

/-! ## HIU goes to FAILED (R434) -/

section
variable {s t : State}

/-- Words that are neither HIU's nor a connection's. -/
def sideWord (k : Nat) : Bool := offHiu k && !connWord k

theorem sideWord_iff {k : Nat} : sideWord k = true ↔ offHiu k = true ∧ connWord k = false := by
  rw [sideWord, Bool.and_eq_true, Bool.not_eq_true']

theorem sideWord_of_words {l : List Field} (hl : l.all (fun f => f.key + 4 < 0x0A000000 || 0x0B000000 ≤ f.key && f.key + 4 < 0x0D100000) = true)
    {k : Nat} (hk : words l k = true) : sideWord k = true := by
  rw [words, List.any_eq_true] at hk
  obtain ⟨f, hf, hword⟩ := hk
  have hat := List.all_eq_true.mp hl f hf
  simp only [Bool.or_eq_true, Bool.and_eq_true, decide_eq_true_eq, beq_iff_eq] at hat hword
  rw [sideWord_iff, offHiu, bne_iff_ne, Bool.eq_false_iff, ne_eq, ne_eq, connWord_iff]
  omega

theorem sideWord_of_logWord {k : Nat} (h : logWord k = true) : sideWord k = true :=
  sideWord_iff.mpr ⟨offHiu_of_logWord h, connWord_of_logWord h⟩

theorem within_refreshFit (s : State) : Within sideWord s s.refreshFit := by
  unfold State.refreshFit
  dsimp only
  split
  · exact within_put (Within.refl s) (by decide) (.inl (by decide))
  · exact Within.refl s

theorem within_driveSideband (s : State) (v : Nat) : Within sideWord s (s.driveSideband v) := by
  unfold State.driveSideband
  split
  · exact Within.refl s
  · exact within_put (within_same (Within.refl s) rfl rfl rfl) (by decide) (.inl (by decide))

theorem within_retier (s : State) : Within sideWord s s.retier := by
  have hfit := within_refreshFit s
  unfold State.retier
  dsimp only
  split
  · exact hfit
  · have hlogged := within_hlog (type := 3) (u := 255) (pay := payload [(8, s.get Reg.SUP_BOOT_STATUS_TIER), (8, s.tierNow)])
      (within_put (f := Reg.SUP_BOOT_STATUS_TIER) (v := s.tierNow) hfit (by decide) (.inl (by decide))) fun k hk => sideWord_of_logWord hk
    have hside := within_when (b := decide (s.tierNow = 0)) (f := fun s => s.driveSideband 0x10000) hlogged
      (hlogged.trans (within_driveSideband _ _))
    exact within_when hside (within_raise hside (by decide) (by decide))

/-- The unit's state goes to FAILED; the rest of what happens to it lies elsewhere. -/
theorem failUnit_hiu (hc : s.canon = true) (hclosed : ConnsClosed s) (code : Nat) : (s.failUnit 10 code).canon = true ∧
    ConnsClosed (s.failUnit 10 code) ∧ (s.failUnit 10 code).get (Reg.UNIT_STATE 10) = 3 ∧ (s.failUnit 10 code).attached = s.attached := by
  have hfault := within_fault s 10 code
  have hc1 := hfault.canon hc
  have hattached1 : (s.fault 10 code).get Reg.HIU_HOST_STATE_MODE = s.get Reg.HIU_HOST_STATE_MODE := hfault.get_eq hc (by decide) (by decide)
  have hclosed1 : ConnsClosed (s.fault 10 code) := hclosed.of_within hfault hc fun k hk => by
    rw [Bool.or_eq_true, reportWord, Bool.or_eq_true] at hk
    obtain (hk | hk) | hk := hk
    · exact (sideWord_iff.mp (sideWord_of_words (by decide) hk)).2
    · exact connWord_of_logWord hk
    · rw [Bool.eq_false_iff, ne_eq, connWord_iff]
      simp only [words, List.any_cons, List.any_nil, Bool.or_false, Bool.or_eq_true, Bool.and_eq_true, beq_iff_eq, decide_eq_true_eq] at hk
      omega
  have hfailed : s.failUnit 10 code = (((s.fault 10 code).put (Reg.UNIT_STATE 10) 3).retier).powerUnit 10 false := rfl
  rw [hfailed]
  generalize s.fault 10 code = u at *
  have hput : Within (words [Reg.UNIT_STATE 10]) u (u.put (Reg.UNIT_STATE 10) 3) := within_put (Within.refl u) (by decide) (.inl (by decide))
  have hc2 := hput.canon hc1
  have hstate2 : (u.put (Reg.UNIT_STATE 10) 3).get (Reg.UNIT_STATE 10) = 3 := get_put_same hc1 (by decide)
  have hattached2 := hput.get_eq hc1 (f := Reg.HIU_HOST_STATE_MODE) (by decide) (by decide)
  have hclosed2 := hclosed1.of_words hput hc1 (by decide)
  generalize u.put (Reg.UNIT_STATE 10) 3 = v at *
  have hrest : Within sideWord v (v.retier.powerUnit 10 false) := (within_retier v).trans ((writes_powerUnit _ 10 false).within.mono fun k hk => by
    rw [powerWord, inRange_iff] at hk
    rw [sideWord_iff, offHiu, bne_iff_ne, Bool.eq_false_iff, ne_eq, ne_eq, connWord_iff]
    omega)
  refine ⟨hrest.canon hc2, hclosed2.of_within hrest hc2 fun k hk => (sideWord_iff.mp hk).2, ?_, ?_⟩
  · rw [hrest.get_eq hc2 (by decide) (by decide), hstate2]
  · rw [State.attached, State.flag, hrest.get_eq hc2 (by decide) (by decide), hattached2, hattached1]
    rfl

/-- The frames that media holds in the buffer are given back. -/
def State.mediaFramesFreed (s : State) : State :=
  let sent := s.media.copies.flatMap (fun c => c.handles.drop c.next)
  let gone := s.media.flows.flatMap (fun (p : Nat × FlowRt) => p.2.rx.map (·.handle))
  (gone.filter (fun h => !sent.contains h)).foldl (fun s h => s.freeFrame h) (sent.foldl (fun s h => s.releaseCopy h) s)

/-- No packet of media waits. -/
def State.mediaForgotten (s : State) : State :=
  { s with media := { s.media with
      copies := []
      flows := s.media.flows.map (fun (p : Nat × FlowRt) => (p.1, { p.2 with rx := [], held := [], seen := [] })) } }

theorem dropMedia_eq (s : State) : s.dropMedia = s.crossMedia.mediaFramesFreed.mediaForgotten := rfl

theorem abandons_mediaFramesFreed (s : State) : Abandons s s.mediaFramesFreed :=
  (abandons_foldl (f := fun s h => s.releaseCopy h) (fun t h => abandons_releaseCopy t h) _ s).trans
    (abandons_foldl (f := fun s h => s.freeFrame h) (fun t h => abandons_freeFrame t h) _ _)

theorem abandons_mediaForgotten (s : State) : Abandons s s.mediaForgotten := abandons_same rfl rfl rfl rfl rfl

theorem workEnds_dropMedia (s : State) : WorkEnds s s.dropMedia := by
  have hcross : Abandons s s.crossMedia := by
    have hrest := crossMedia_rest s
    generalize s.crossMedia = u at *
    exact abandons_same (by rw [hrest]) (by rw [hrest]) (by rw [hrest]) (by rw [hrest]) (by rw [hrest])
  rw [dropMedia_eq]
  exact ((hcross.trans (abandons_mediaFramesFreed _)).trans (abandons_mediaForgotten _)).workEnds

/-- The unit's events are gone. -/
def State.eventsLeft (s : State) (u : Nat) : State := { s with events := s.events.filter (fun e => u == 0 || e.unit != u) }

theorem eventsLeft_canon (s : State) (u : Nat) : (s.eventsLeft u).canon = s.canon := rfl
theorem eventsLeft_get (s : State) (u : Nat) (f : Field) : (s.eventsLeft u).get f = s.get f := rfl
theorem eventsLeft_attached (s : State) (u : Nat) : (s.eventsLeft u).attached = s.attached := rfl
theorem ConnsClosed.eventsLeft (h : ConnsClosed s) (u : Nat) : ConnsClosed (s.eventsLeft u) := h

theorem loseUnit_hiu_eq (s : State) (code : Nat) : s.loseUnit 10 code =
    ((((s.failUnit 10 code).eventsLeft 10).enterStandalone 7).when (((s.failUnit 10 code).eventsLeft 10).enterStandalone 7).tierZero
      State.dropMedia).when (s.pairRole && s.active && s.mediaNeeds 10) (fun s => s.put Reg.HGC_CTL_RELEASE 1) := rfl

theorem within_when_offHiu {b : Bool} {f : State → State} (hf : Within offHiu s (f s)) : Within offHiu s (s.when b f) :=
  within_when (Within.refl s) hf

theorem loseUnit_hiu (hc : s.canon = true) (hclosed : ConnsClosed s) (hattached : s.attached = true) (code : Nat) :
    (s.loseUnit 10 code).canon = true ∧ (s.loseUnit 10 code).get (Reg.UNIT_STATE 10) = 3 ∧ (s.loseUnit 10 code).attached = false := by
  obtain ⟨hc1, hclosed1, hstate1, hattached1⟩ := failUnit_hiu hc hclosed code
  rw [loseUnit_hiu_eq]
  generalize s.failUnit 10 code = u at *
  obtain ⟨hstands, hwithin, -⟩ := beginStandalone_stands ((eventsLeft_canon u 10).trans hc1) (hclosed1.eventsLeft 10) (cause := 7) (by decide)
  have hc2 := hwithin.canon ((eventsLeft_canon u 10).trans hc1)
  have hstate2 := hwithin.get_eq ((eventsLeft_canon u 10).trans hc1) (f := Reg.UNIT_STATE 10) (by decide) (by decide)
  rw [State.enterStandalone, eventsLeft_attached, hattached1, hattached, if_pos rfl]
  have hdetached := hstands.detached
  generalize (u.eventsLeft 10).beginStandalone 7 = v at *
  have hmedia := within_when_offHiu (b := v.tierZero) (f := State.dropMedia) (workEnds_dropMedia v).within
  have hlost := hmedia.trans (within_when_offHiu (b := s.pairRole && s.active && s.mediaNeeds 10) (f := fun s => s.put Reg.HGC_CTL_RELEASE 1)
    (within_put (Within.refl _) (by decide) (.inl (by decide))))
  refine ⟨hlost.canon hc2, ?_, ?_⟩
  · rw [hlost.get_eq hc2 (by decide) (by decide), hstate2, eventsLeft_get, hstate1]
  · rw [State.attached, State.flag, hlost.get_eq hc2 (by decide) (by decide)]
    exact hdetached

theorem enterStandalone_again (hdetached : s.attached = false) (cause : Nat) :
    s.enterStandalone cause = s.put Reg.HIU_HOST_STATE_CAUSE cause := by
  rw [State.enterStandalone, hdetached, if_neg Bool.false_ne_true]

theorem dlDown_fatal (hc : s.canon = true) (hclosed : ConnsClosed s) (hattached : s.attached = true) (hpowered : s.powered = true)
    (hrun : s.running .hiu = true) : completes (.dlDown .fatal) s fun t => t.attached = false ∧
      t.get Reg.HIU_HOST_STATE_CAUSE = 7 ∧ t.get (Reg.UNIT_STATE 10) = 3 ∧ t.flag Reg.HIU_LINK_STATUS_UP = false := by
  have hexec : exec (.dlDown .fatal) s = .next ((s.loseUnit 10 0x10).enterStandalone 7).linkGone := by
    have he : exec (.dlDown .fatal) s = execDlDown .fatal s := rfl
    rw [he, execDlDown, hpowered, if_neg (by decide), hrun]
    rfl
  obtain ⟨hc1, hstate, hdetached⟩ := loseUnit_hiu hc hclosed hattached 0x10
  rw [enterStandalone_again hdetached] at hexec
  generalize s.loseUnit 10 0x10 = u at *
  have hput : Within (words [Reg.HIU_HOST_STATE_CAUSE]) u (u.put Reg.HIU_HOST_STATE_CAUSE 7) := within_put (Within.refl u) (by decide) (.inl (by decide))
  have hc2 := hput.canon hc1
  have hmode := flag_put_off (v := 7) hc1 (show Reg.HIU_HOST_STATE_CAUSE.off Reg.HIU_HOST_STATE_MODE = true by decide)
  have hcause := get_put_same (v := 7) hc1 (show Reg.HIU_HOST_STATE_CAUSE.ok = true by decide)
  have hkept := hput.get_eq hc1 (f := Reg.UNIT_STATE 10) (by decide) (by decide)
  generalize u.put Reg.HIU_HOST_STATE_CAUSE 7 = v at *
  have hlater := later_linkGone v
  refine ⟨_, hexec, ?_, ?_, ?_, linkGone_up hc2⟩
  · rw [State.attached, State.flag, hlater.within.get_eq hc2 (by decide) (by decide)]
    exact (congrArg not hmode).trans hdetached
  · exact (hlater.within.get_eq hc2 (by decide) (by decide)).trans hcause
  · exact (hlater.within.get_eq hc2 (by decide) (by decide)).trans (hkept.trans hstate)

/-- In standalone mode D3hot only shows in CAUSE. -/
theorem pf0D3_again (hc : s.canon = true) (hdetached : s.attached = false) (hpowered : s.powered = true) :
    completes .pf0D3 s fun t => t.get Reg.HIU_HOST_STATE_CAUSE = 5 ∧
      QuietFrame (words [Reg.HIU_HOST_STATE_CAUSE]) s { s with hiu := { s.hiu with vfD3 := 0 :: s.hiu.vfD3.filter (· != 0) } } t := by
  have hexec : exec .pf0D3 s = .next ((s.put Reg.HIU_HOST_STATE_CAUSE 5).enterD3 0) := by
    have he : exec .pf0D3 s = ok (s.when s.powered fun s => (s.enterStandalone 5).enterD3 0) := rfl
    rw [he, hpowered, State.when, if_pos rfl, enterStandalone_again hdetached]
  have hput : Writes (words [Reg.HIU_HOST_STATE_CAUSE]) s (s.put Reg.HIU_HOST_STATE_CAUSE 5) :=
    writes_put (Writes.refl s) (by decide) (.inl (by decide))
  have hcause : (s.put Reg.HIU_HOST_STATE_CAUSE 5).get Reg.HIU_HOST_STATE_CAUSE = 5 := get_put_same hc (by decide)
  generalize s.put Reg.HIU_HOST_STATE_CAUSE 5 = u at *
  refine ⟨_, hexec, hcause, fun k hk => hput.within.words hc k hk, ?_⟩
  rw [State.enterD3, hput.rest]

/-! ## The watchdog (R346) -/

theorem exec_watchdogExpiry (o : Nat) (s : State) : exec (.watchdogExpiry o) s =
    .next (if (s.moment o).attached && (s.moment o).flag Reg.HIU_WDOG_CFG_WDOG_EN &&
        (decide ((s.moment o).hiu.kicked + 1000000 * (s.moment o).get Reg.HIU_WDOG_CFG_WDOG_MS ≤ (s.moment o).localNs) || !(s.moment o).running .te)
      then (s.moment o).enterStandalone 3 else s.moment o) := rfl

theorem moment_hiu (s : State) (o : Nat) : (s.moment o).hiu = s.hiu := by rw [(writes_moment s o).rest]

theorem watchdogExpiry_ends (hc : s.canon = true) (hclosed : ConnsClosed s) (o : Nat) (hattached : s.attached = true)
    (hon : s.flag Reg.HIU_WDOG_CFG_WDOG_EN = true)
    (hdue : s.hiu.kicked + 1000000 * s.get Reg.HIU_WDOG_CFG_WDOG_MS ≤ (s.moment o).localNs) : completes (.watchdogExpiry o) s fun t =>
      t.attached = false ∧ t.get Reg.HIU_HOST_STATE_CAUSE = 3 ∧
      t.get Reg.HIU_HOST_STATE_SESSION = (s.get Reg.HIU_HOST_STATE_SESSION + 1) % 2 ^ 16 ∧ t.get Reg.HIU_STANDALONE_TICK_TICK = s.tick := by
  have hw := writes_moment s o
  have hexec := exec_watchdogExpiry o s
  have hget : ∀ f : Field, words [Reg.TE_OFFSET] f.key = false → words [Reg.TE_OFFSET] (f.key + 4) = false → (s.moment o).get f = s.get f :=
    fun f hlo hhi => hw.get_eq hc hlo hhi
  have hattached' : (s.moment o).attached = true := by
    rw [State.attached, State.flag, hget _ (by decide) (by decide)]
    exact hattached
  rw [hattached', State.flag, hget _ (by decide) (by decide), moment_hiu, hget Reg.HIU_WDOG_CFG_WDOG_MS (by decide) (by decide),
    decide_eq_true hdue, Bool.true_or, Bool.and_true, Bool.true_and, if_pos (by exact hon), State.enterStandalone, hattached', if_pos rfl] at hexec
  obtain ⟨hstands, -, -⟩ := beginStandalone_stands (hw.canon hc) (hclosed.of_words hw.within hc (by decide)) (cause := 3) (by decide)
  refine ⟨_, hexec, hstands.detached, hstands.cause, ?_, ?_⟩
  · rw [hstands.session, hget _ (by decide) (by decide)]
  · exact hstands.tick.trans (hget Reg.TE_TICK (by decide) (by decide))

theorem watchdogExpiry_early (hc : s.canon = true) (o : Nat) (hrun : s.running .te = true)
    (hearly : (s.moment o).localNs < s.hiu.kicked + 1000000 * s.get Reg.HIU_WDOG_CFG_WDOG_MS) :
    completes (.watchdogExpiry o) s fun t => t = s.moment o := by
  have hw := writes_moment s o
  refine ⟨_, exec_watchdogExpiry o s, if_neg ?_⟩
  rw [moment_hiu, hw.get_eq hc (f := Reg.HIU_WDOG_CFG_WDOG_MS) (by decide) (by decide), decide_eq_false (Nat.not_le.mpr hearly), State.running,
    hw.get_eq hc (by decide) (by decide), show (s.get (Reg.UNIT_STATE Unit'.te.num) == 2) = true from hrun]
  simp

end

end Sys2Proof.Machine
end

section
/-! PROOFS. The link's training, and standalone mode as a whole (R332, R336, R339, R343 to R346). -/

namespace Sys2Proof.Machine

/-! ## The link is up (R332, R336, R339) -/

/-- What a link in Flit Mode is. -/
def linkFlit (speed : Nat) (flit : Bool) : Bool := speed == 6 || (flit && decide (4 ≤ speed))

/-- The fields of the link. -/
def State.linkShown (s : State) (speed width : Nat) (flit : Bool) : State :=
  ((((s.put Reg.HIU_LINK_STATUS_UP 1).put Reg.HIU_LINK_STATUS_FLIT (bit flit)).put Reg.HIU_LINK_STATUS_BELOW_MIN (bit false)).put
    Reg.HIU_LINK_STATUS_SPEED speed).put Reg.HIU_LINK_STATUS_WIDTH width

/-- The credits that the host advertises. -/
def advertisedCredits (fc : FcCredits) : List (Nat × Nat × Nat) :=
  [fc.posted.1, fc.posted.2, fc.nonPosted.1, fc.nonPosted.2, fc.completion.1, fc.completion.2].map (fun n => (n, n, 0))

/-- The state with other credits. -/
def State.credited (s : State) (l : List (Nat × Nat × Nat)) : State := { s with hiu := { s.hiu with fc := l } }

section
variable {s : State} {speed : Fin 7} {width : Fin 17} {flit : Bool} {fc : FcCredits}

theorem credited_get (s : State) (l : List (Nat × Nat × Nat)) (f : Field) : (s.credited l).get f = s.get f := rfl
theorem credited_events (s : State) (l : List (Nat × Nat × Nat)) : (s.credited l).events = s.events := rfl
theorem credited_fc (s : State) (l : List (Nat × Nat × Nat)) : (s.credited l).hiu.fc = l := rfl
theorem credited_within {area : Nat → Bool} (s : State) (l : List (Nat × Nat × Nat)) : Within area s (s.credited l) :=
  within_same (Within.refl s) rfl rfl rfl

theorem linkAt_good {v w : Nat} (hspeed : v ≤ s.get Reg.HIU_LINK_CFG_MAX_SPEED) (hwidth : w ≤ s.get Reg.HIU_LINK_CFG_MAX_WIDTH)
    (hmin : s.get Reg.HIU_LINK_CFG_MIN_SPEED ≤ v) (hnarrow : s.get Reg.HIU_LINK_CFG_MIN_WIDTH ≤ w) :
    s.linkAt v w flit fc = (s.linkShown v w (linkFlit v flit)).setTagLimit.credited (advertisedCredits fc) := by
  have hbelow : (decide (v < s.get Reg.HIU_LINK_CFG_MIN_SPEED) || decide (w < s.get Reg.HIU_LINK_CFG_MIN_WIDTH)) = false := by
    rw [decide_eq_false (Nat.not_lt.mpr hmin), decide_eq_false (Nat.not_lt.mpr hnarrow)]
    rfl
  have hhiu : (s.linkShown v w (linkFlit v flit)).setTagLimit.hiu = (s.linkShown v w (linkFlit v flit)).hiu := put_hiu ..
  unfold State.linkAt
  dsimp only
  rw [min_eq_left hspeed, min_eq_left hwidth, hbelow, if_neg Bool.false_ne_true, State.credited, hhiu]
  rfl

theorem writes_linkShown (s : State) (v w : Nat) (b : Bool) : Writes (words [Reg.HIU_LINK_STATUS_UP]) s (s.linkShown v w b) :=
  writes_put (writes_put (writes_put (writes_put (writes_put (Writes.refl _) (by decide) (.inl (by decide))) (by decide) (.inl (by decide)))
    (by decide) (.inl (by decide))) (by decide) (.inl (by decide))) (by decide) (.inl (by decide))

/-- What the link's fields read. -/
theorem linkShown_fields (hc : s.canon = true) {v w : Nat} (hv : v < 8) (hw : w < 32) (b : Bool) :
    (s.linkShown v w b).flag Reg.HIU_LINK_STATUS_UP = true ∧ (s.linkShown v w b).get Reg.HIU_LINK_STATUS_SPEED = v ∧
    (s.linkShown v w b).get Reg.HIU_LINK_STATUS_WIDTH = w ∧ (s.linkShown v w b).flag Reg.HIU_LINK_STATUS_BELOW_MIN = false ∧
    (s.linkShown v w b).flag Reg.HIU_LINK_STATUS_FLIT = b := by
  have h1 : (s.put Reg.HIU_LINK_STATUS_UP 1).canon = true := canon_put hc
  have hup1 : (s.put Reg.HIU_LINK_STATUS_UP 1).flag Reg.HIU_LINK_STATUS_UP = true := flag_put_same hc (by decide) (by decide) 1
  rw [State.linkShown]
  generalize s.put Reg.HIU_LINK_STATUS_UP 1 = s1 at *
  have h2 : (s1.put Reg.HIU_LINK_STATUS_FLIT (bit b)).canon = true := canon_put h1
  have hup2 : (s1.put Reg.HIU_LINK_STATUS_FLIT (bit b)).flag Reg.HIU_LINK_STATUS_UP = true := (flag_put_off h1 (by decide)).trans hup1
  have hflit2 : (s1.put Reg.HIU_LINK_STATUS_FLIT (bit b)).flag Reg.HIU_LINK_STATUS_FLIT = b := by
    rw [flag_put_same h1 (by decide) (by decide)]
    cases b with
    | true => rfl
    | false => rfl
  generalize s1.put Reg.HIU_LINK_STATUS_FLIT (bit b) = s2 at *
  have h3 : (s2.put Reg.HIU_LINK_STATUS_BELOW_MIN (bit false)).canon = true := canon_put h2
  have h4 := canon_put (f := Reg.HIU_LINK_STATUS_SPEED) (v := v) h3
  refine ⟨?_, ?_, ?_, ?_, ?_⟩
  · rw [flag_put_off h4 (by decide), flag_put_off h3 (by decide), flag_put_off h2 (by decide), hup2]
  · exact (get_put_off h4 (by decide)).trans ((get_put_same h3 (by decide)).trans (Nat.mod_eq_of_lt hv))
  · exact (get_put_same h4 (by decide)).trans (Nat.mod_eq_of_lt hw)
  · rw [flag_put_off h4 (by decide), flag_put_off h3 (by decide), flag_put_same h2 (by decide) (by decide)]
    rfl
  · rw [flag_put_off h4 (by decide), flag_put_off h3 (by decide), flag_put_off h2 (by decide), hflit2]

theorem writes_setTagLimit (s : State) : Writes (words [Reg.HIU_TAG_STATUS_LIMIT]) s s.setTagLimit :=
  writes_put (Writes.refl s) (by decide) (.inl (by decide))

theorem tagLimit_le (flit tenBit : Bool) : tagLimit flit tenBit ≤ 4096 := by
  cases flit
  all_goals
    cases tenBit
    all_goals decide

theorem setTagLimit_limit (hc : s.canon = true) :
    s.setTagLimit.get Reg.HIU_TAG_STATUS_LIMIT = tagLimit (s.flag Reg.HIU_LINK_STATUS_FLIT) (s.flag cfgTenBit) :=
  (get_put_same hc (by decide)).trans (Nat.mod_eq_of_lt ((tagLimit_le _ _).trans_lt (by decide)))

/-- The link after it has come up at what it was trained to. -/
def State.linkUpAt (s : State) (v w : Nat) (b : Bool) : State := (s.linkShown v w b).setTagLimit

theorem writes_linkUpAt (s : State) (v w : Nat) (b : Bool) :
    Writes (words [Reg.HIU_LINK_STATUS_UP, Reg.HIU_TAG_STATUS_LIMIT]) s (s.linkUpAt v w b) :=
  ((writes_linkShown s v w b).mono fun _ hk => words_mono (by simp) hk).trans ((writes_setTagLimit _).mono fun _ hk => words_mono (by simp) hk)

theorem linkUpAt_kept (hc : s.canon = true) (v w : Nat) (b : Bool) {f : Field} (hlo : words [Reg.HIU_TAG_STATUS_LIMIT] f.key = false)
    (hhi : words [Reg.HIU_TAG_STATUS_LIMIT] (f.key + 4) = false) : (s.linkUpAt v w b).get f = (s.linkShown v w b).get f :=
  (writes_setTagLimit _).get_eq ((writes_linkShown s v w b).canon hc) hlo hhi

theorem linkUpAt_limit (hc : s.canon = true) {v w : Nat} (hv : v < 8) (hw : w < 32) (b : Bool) :
    (s.linkUpAt v w b).get Reg.HIU_TAG_STATUS_LIMIT = tagLimit b (s.flag cfgTenBit) := by
  have hshown := writes_linkShown s v w b
  rw [State.linkUpAt, setTagLimit_limit (hshown.canon hc), (linkShown_fields hc hv hw b).2.2.2.2, State.flag, hshown.get_eq hc (by decide) (by decide)]
  rfl

section
variable (hc : s.canon = true) (hrun : s.running .hiu = true) (hzero : speed.val ≠ 0)
  (hspeed : speed.val ≤ s.get Reg.HIU_LINK_CFG_MAX_SPEED) (hwidth : width.val ≤ s.get Reg.HIU_LINK_CFG_MAX_WIDTH)
  (hmin : s.get Reg.HIU_LINK_CFG_MIN_SPEED ≤ speed.val) (hnarrow : s.get Reg.HIU_LINK_CFG_MIN_WIDTH ≤ width.val)
include hc hrun hzero hspeed hwidth hmin hnarrow

omit hc in
theorem exec_linkTrained (hperst : s.hiu.perst = false) : exec (.linkTrained speed width flit fc) s =
    .next ((s.linkUpAt speed width (linkFlit speed flit)).credited (advertisedCredits fc)) := by
  have he : exec (.linkTrained speed width flit fc) s = execLinkTrained speed width flit fc s := rfl
  rw [he, execLinkTrained, hrun, hperst, bne_iff_ne.mpr hzero, linkAt_good hspeed hwidth hmin hnarrow]
  rfl

theorem linkTrained_up (hperst : s.hiu.perst = false) : completes (.linkTrained speed width flit fc) s fun t =>
    t.flag Reg.HIU_LINK_STATUS_UP = true ∧ t.get Reg.HIU_LINK_STATUS_SPEED = speed ∧ t.get Reg.HIU_LINK_STATUS_WIDTH = width ∧
    t.flag Reg.HIU_LINK_STATUS_BELOW_MIN = false ∧ t.flag Reg.HIU_LINK_STATUS_FLIT = linkFlit speed flit ∧
    t.get Reg.HIU_TAG_STATUS_LIMIT = tagLimit (linkFlit speed flit) (s.flag cfgTenBit) ∧ t.hiu.fc = advertisedCredits fc ∧
    QuietFrame (words [Reg.HIU_LINK_STATUS_UP, Reg.HIU_TAG_STATUS_LIMIT]) s { s with hiu := { s.hiu with fc := t.hiu.fc } } t := by
  have hexec := exec_linkTrained (flit := flit) (fc := fc) hrun hzero hspeed hwidth hmin hnarrow hperst
  have hv : speed.val < 8 := by omega
  have hw : width.val < 32 := by omega
  obtain ⟨hup, hat, hwide, hbelow, hflit⟩ := linkShown_fields hc hv hw (linkFlit speed flit)
  have hlimit := linkUpAt_limit hc hv hw (linkFlit speed flit)
  have hkept := linkUpAt_kept hc speed width (linkFlit speed flit) (f := Reg.HIU_LINK_STATUS_UP) (by decide) (by decide)
  have hkept2 := linkUpAt_kept hc speed width (linkFlit speed flit) (f := Reg.HIU_LINK_STATUS_SPEED) (by decide) (by decide)
  have hkept3 := linkUpAt_kept hc speed width (linkFlit speed flit) (f := Reg.HIU_LINK_STATUS_WIDTH) (by decide) (by decide)
  have hkept4 := linkUpAt_kept hc speed width (linkFlit speed flit) (f := Reg.HIU_LINK_STATUS_BELOW_MIN) (by decide) (by decide)
  have hkept5 := linkUpAt_kept hc speed width (linkFlit speed flit) (f := Reg.HIU_LINK_STATUS_FLIT) (by decide) (by decide)
  have hwrites := writes_linkUpAt s speed width (linkFlit speed flit)
  generalize s.linkUpAt speed width (linkFlit speed flit) = u at *
  refine ⟨_, hexec, ?_, ?_, ?_, ?_, ?_, ?_, credited_fc .., quietFrame hc (hwrites.within.trans (credited_within u _)) ?_⟩
  · rw [State.flag, credited_get, hkept]
    exact hup
  · rw [credited_get, hkept2, hat]
  · rw [credited_get, hkept3, hwide]
  · rw [State.flag, credited_get, hkept4]
    exact hbelow
  · rw [State.flag, credited_get, hkept5]
    exact hflit
  · rw [credited_get, hlimit]
  · rw [credited_fc, State.credited, hwrites.rest]

theorem linkRetrained_up (hup : s.flag Reg.HIU_LINK_STATUS_UP = true) (hattached : s.attached = true)
    (hchanged : speed.val ≠ s.get Reg.HIU_LINK_STATUS_SPEED) (hqueue : s.hiu.queue = []) : completes (.linkRetrained speed width flit fc) s fun t =>
      t.get Reg.HIU_LINK_STATUS_SPEED = speed ∧ t.get Reg.HIU_LINK_STATUS_WIDTH = width ∧ t.attached = true ∧ posted s t .hiu 3 [] ∧
      NoisyFrame (words [Reg.HIU_LINK_STATUS_UP, Reg.HIU_TAG_STATUS_LIMIT]) s { s with hiu := { s.hiu with fc := t.hiu.fc } } t := by
  have hposted := posted_raise (s := s) rfl .hiu 3 []
  have hraised : Within (words [Reg.QE_ARB_LOST]) s (s.raise .hiu 3 []) := within_raise (Within.refl s) (by decide) (by decide)
  have hc1 := hraised.canon hc
  have hget : ∀ f : Field, words [Reg.QE_ARB_LOST] f.key = false → words [Reg.QE_ARB_LOST] (f.key + 4) = false →
      (s.raise .hiu 3 []).get f = s.get f := fun f hlo hhi => hraised.get_eq hc hlo hhi
  have hrest : s.raise .hiu 3 [] = { s with regs := (s.raise .hiu 3 []).regs, events := (s.raise .hiu 3 []).events, once := (s.raise .hiu 3 []).once } :=
    raiseEvent_rest ..
  have hexec : exec (.linkRetrained speed width flit fc) s =
      .next (((s.raise .hiu 3 []).linkUpAt speed width (linkFlit speed flit)).credited (advertisedCredits fc)) := by
    have he : exec (.linkRetrained speed width flit fc) s = execLinkRetrained speed width flit fc s := rfl
    have hchanged' : (s.attached && (speed.val != s.get Reg.HIU_LINK_STATUS_SPEED || width.val != s.get Reg.HIU_LINK_STATUS_WIDTH)) = true := by
      rw [hattached, bne_iff_ne.mpr hchanged]
      rfl
    have hqueue' : (s.raise .hiu 3 []).hiu.queue.length = 0 := by
      rw [State.raise, raiseEvent_hiu, hqueue]
      rfl
    rw [he]
    unfold execLinkRetrained
    dsimp only
    rw [if_neg (by simp [hrun, hup, hzero]), hchanged', State.when, if_pos rfl, hqueue', pumpReads_zero,
      linkAt_good (by rw [hget _ (by decide) (by decide)]; exact hspeed) (by rw [hget _ (by decide) (by decide)]; exact hwidth)
        (by rw [hget _ (by decide) (by decide)]; exact hmin) (by rw [hget _ (by decide) (by decide)]; exact hnarrow)]
    rfl
  have hmode := hget Reg.HIU_HOST_STATE_MODE (by decide) (by decide)
  generalize s.raise .hiu 3 [] = r at *
  obtain ⟨-, hat, hwide, -, -⟩ := linkShown_fields hc1 (show speed.val < 8 by omega) (show width.val < 32 by omega) (linkFlit speed flit)
  have hkept2 := linkUpAt_kept hc1 speed width (linkFlit speed flit) (f := Reg.HIU_LINK_STATUS_SPEED) (by decide) (by decide)
  have hkept3 := linkUpAt_kept hc1 speed width (linkFlit speed flit) (f := Reg.HIU_LINK_STATUS_WIDTH) (by decide) (by decide)
  have hwrites := writes_linkUpAt r speed width (linkFlit speed flit)
  have hmode1 := hwrites.get_eq hc1 (f := Reg.HIU_HOST_STATE_MODE) (by decide) (by decide)
  have hevents : (r.linkUpAt speed width (linkFlit speed flit)).events = r.events := by rw [hwrites.rest]
  generalize r.linkUpAt speed width (linkFlit speed flit) = u at *
  refine ⟨_, hexec, ?_, ?_, ?_, fun hroom => ?_, ?_⟩
  · rw [credited_get, hkept2, hat]
  · rw [credited_get, hkept3, hwide]
  · rw [State.attached, State.flag, credited_get, hmode1, hmode]
    exact hattached
  · rw [credited_events, hevents]
    exact hposted hroom
  · refine noisyFrame hc (((hraised.mono fun k hk => by rw [hk, Bool.or_true]).trans (hwrites.within.mono fun k hk => by rw [hk, Bool.true_or])).trans
      (credited_within u _)) ?_
    rw [credited_fc, State.credited, hwrites.rest, hrest]

end

theorem perstDeassert_only (s : State) : completes .perstDeassert s fun t => t = { s with hiu := { s.hiu with perst := false } } := ⟨_, rfl, rfl⟩

end

/-- Settles O37: the triggers of standalone mode, HIU's failure, the watchdog, and the link's training. -/
theorem standaloneCommandsComplete : Obligations.StandaloneCommandsComplete := by
  unfold Obligations.StandaloneCommandsComplete
  intro s hc _ hconns
  have hclosed := (openConns_nil_iff hc).mp hconns
  refine ⟨fun hattached hpowered c hmem => ?_, fun hattached hpowered hrun => dlDown_fatal hc hclosed hattached hpowered hrun,
    fun hdetached hpowered => pf0D3_again hc hdetached hpowered,
    fun o hattached hon hdue => watchdogExpiry_ends hc hclosed o hattached hon hdue,
    fun o _ hrun hearly => watchdogExpiry_early hc o hrun hearly,
    fun speed width flit fc hrun hzero hspeed hwidth hmin hnarrow =>
      ⟨fun hperst => linkTrained_up hc hrun hzero hspeed hwidth hmin hnarrow hperst,
        fun hup hattached hchanged hqueue => linkRetrained_up hc hrun hzero hspeed hwidth hmin hnarrow hup hattached hchanged hqueue⟩,
    perstDeassert_only s⟩
  obtain ⟨t, hexec, hstands, hdown, hreset⟩ := trigger_stands hc hclosed hattached hpowered hmem
  exact ⟨t, hexec, hstands.detached, hstands.cause, hstands.session, hstands.tick, hstands.entries, hstands.tags, hstands.queue, hstands.lost,
    fun h1 h2 => hdown ⟨h1, h2⟩, fun h1 h2 => hreset ⟨h1, h2⟩⟩

end Sys2Proof.Machine
end

section
/-! PROOFS. Adoption, the watchdog's kick, and the resets of functions (R334, R346 to R349, R359, R370). -/

namespace Sys2Proof.Machine

/-! ## The watchdog's kick and adoption (R346, R347) -/

section
variable {s : State} {r : Requester}

/-- What HIU serves and shows does not rest on TE's words. -/
theorem mayWrite_moment (hc : s.canon = true) (o : Nat) {k : Nat} (hk : k / 0x1000000 = 10) (r : Requester) :
    (s.moment o).mayWrite r k = s.mayWrite r k := by
  have hget : ∀ f : Field, f.key < 0x01000000 ∨ 0x02000000 ≤ f.key → (s.moment o).get f = s.get f := fun f hf => moment_get hc o hf
  have hunit : unitOfKey k = 10 := by
    rw [unitOfKey, hk]
    rfl
  have hshows : (s.moment o).shows k = s.shows k := by
    simp only [State.shows, hunit, State.running, hget Reg.SUP_BOOT_STATUS_STAGE (by decide), hget (Reg.UNIT_STATE 10) (by decide),
      hget (Reg.UNIT_STATE Unit'.ttu.num) (by decide), hget (Reg.UNIT_STATE Unit'.qe.num) (by decide)]
  have htotal : (s.moment o).totalVfs = s.totalVfs := by
    rw [State.totalVfs, State.running, State.running, hget (Reg.UNIT_STATE Unit'.ttu.num) (by decide),
      hget (Reg.UNIT_STATE Unit'.qe.num) (by decide)]
    rfl
  have hserved : (s.moment o).served r = s.served r := by
    cases r
    all_goals
      simp only [State.served, State.running, State.flag, State.vfExists, htotal, hget (Reg.UNIT_STATE Unit'.hiu.num) (by decide),
        hget Reg.HIU_LINK_STATUS_UP (by decide), hget cfgMse (by decide), hget cfgVfOn (by decide), hget cfgNumVfs (by decide),
        hget cfgVfMse (by decide)]
  rw [State.mayWrite, hshows, hserved, State.mayWrite]

theorem wdogKick_kicks (hc : s.canon = true) (o : Nat) (hmay : s.mayWrite r Reg.HIU_WDOG_KICK.key = true) :
    completes (.wdogKick r o) s fun t => t.hiu.kicked = (s.moment o).localNs ∧
      QuietFrame (words [Reg.TE_OFFSET]) s { s with hiu := { s.hiu with kicked := t.hiu.kicked } } t := by
  have hw := writes_moment s o
  have hexec : exec (.wdogKick r o) s = .next (s.moment o).startWatchdog := by
    have he : exec (.wdogKick r o) s = ok ((s.moment o).wdogKick r) := rfl
    rw [he, State.wdogKick, mayWrite_moment hc o (by decide), hmay, if_pos rfl]
  generalize s.moment o = u at *
  refine ⟨_, hexec, rfl, fun k hk => hw.within.words hc k hk, ?_⟩
  rw [State.startWatchdog, hw.rest]

/-- What an adoption reports. -/
def State.adoptReport (s : State) (session : Nat) : List (Nat × Nat) :=
  [(8, s.get Reg.HIU_HOST_STATE_CAUSE), (16, session), (32, s.tick - s.get Reg.HIU_STANDALONE_TICK_TICK)]

/-- The device is ATTACHED, which is logged. -/
def State.adopted (s : State) (session : Nat) : State :=
  (s.put Reg.HIU_HOST_STATE_MODE 0).hlog 10 10 (payload (s.adoptReport session))

theorem within_adopted (s : State) (n : Nat) : Within (fun k => words [Reg.HIU_HOST_STATE_MODE] k || logWord k) s (s.adopted n) :=
  within_hlog (within_put (Within.refl s) (by decide) (.inl (by decide))) fun k hk => by rw [hk, Bool.or_true]

theorem adopted_rest (s : State) (n : Nat) : s.adopted n = { s with regs := (s.adopted n).regs } := by
  rw [State.adopted, hlog_rest, put_rest]

theorem adopted_host (hc : s.canon = true) (n : Nat) : (s.adopted n).attached = true ∧
    (s.adopted n).get Reg.HIU_HOST_STATE_SESSION = s.get Reg.HIU_HOST_STATE_SESSION := by
  have hput := canon_put (f := Reg.HIU_HOST_STATE_MODE) (v := 0) hc
  constructor
  · rw [State.attached, State.flag, State.adopted, get_hlog hput (by decide) (by decide), get_put_same hc (by decide)]
    rfl
  · rw [State.adopted, get_hlog hput (by decide) (by decide), get_put_off hc (by decide)]

theorem startWatchdog_get (s : State) (f : Field) : s.startWatchdog.get f = s.get f := rfl
theorem startWatchdog_events (s : State) : s.startWatchdog.events = s.events := rfl
theorem startWatchdog_kicked (s : State) : s.startWatchdog.hiu.kicked = s.localNs := rfl

section
variable {m : Adoption} (hmay : s.mayWrite r Reg.HIU_ADOPT.key = true)
include hmay

theorem exec_adopt_meets (hmeets : m.meets = none) : exec (.adopt r m) s = .next
    (if m.session.toNat != s.get Reg.HIU_HOST_STATE_SESSION then s.bump Reg.HIU_ADOPT_REFUSED
    else if s.attached || !s.flag Reg.HIU_LINK_STATUS_UP || s.flag Reg.HIU_LINK_STATUS_BELOW_MIN then s
    else ((s.adopted m.session.toNat).raise .hiu 1 (s.adoptReport m.session.toNat)).startWatchdog) := by
  have he : exec (.adopt r m) s = ok (s.adopt r m.session.toNat (m.meets.map (·.val))) := rfl
  rw [he]
  unfold State.adopt
  rw [hmay, hmeets]
  rfl

variable (hc : s.canon = true)
include hc

theorem adopt_attaches (hmeets : m.meets = none) (hsession : m.session.toNat = s.get Reg.HIU_HOST_STATE_SESSION)
    (hdetached : s.attached = false) (hup : s.flag Reg.HIU_LINK_STATUS_UP = true) (hfull : s.flag Reg.HIU_LINK_STATUS_BELOW_MIN = false) :
    completes (.adopt r m) s fun t => t.attached = true ∧ t.hiu.kicked = s.localNs ∧
      t.get Reg.HIU_HOST_STATE_SESSION = s.get Reg.HIU_HOST_STATE_SESSION ∧ posted s t .hiu 1 (s.adoptReport m.session.toNat) ∧
      NoisyFrame (fun k => words [Reg.HIU_HOST_STATE_MODE] k || logWord k) s { s with hiu := { s.hiu with kicked := s.localNs } } t := by
  have hexec := exec_adopt_meets hmay hmeets
  rw [if_neg (by rw [hsession, bne_self_eq_false]; decide), if_neg (by rw [hdetached, hup, hfull]; decide)] at hexec
  obtain ⟨hattached, hkept⟩ := adopted_host hc m.session.toNat
  have hw := within_adopted s m.session.toNat
  have hc1 := hw.canon hc
  have hposted := posted_raise (s := s) (t := s.adopted m.session.toNat) (by rw [adopted_rest]) .hiu 1 (s.adoptReport m.session.toNat)
  have hrest := adopted_rest s m.session.toNat
  have htick := hw.get_eq hc (f := Reg.TE_TICK) (by decide) (by decide)
  have hoffset := hw.get_eq hc (f := Reg.TE_OFFSET) (by decide) (by decide)
  have hperiod := hw.get_eq hc (f := Reg.TE_CFG_PERIOD) (by decide) (by decide)
  generalize s.adopted m.session.toNat = u at *
  have hget : ∀ f : Field, words [Reg.QE_ARB_LOST] f.key = false → words [Reg.QE_ARB_LOST] (f.key + 4) = false →
      (u.raise .hiu 1 (s.adoptReport m.session.toNat)).get f = u.get f := fun f hlo hhi => get_raise hc1 _ _ _ hlo hhi
  have hraised : Within (words [Reg.QE_ARB_LOST]) u (u.raise .hiu 1 (s.adoptReport m.session.toNat)) :=
    within_raise (Within.refl u) (by decide) (by decide)
  have hrest2 : u.raise .hiu 1 (s.adoptReport m.session.toNat) = { u with
      regs := (u.raise .hiu 1 (s.adoptReport m.session.toNat)).regs, events := (u.raise .hiu 1 (s.adoptReport m.session.toNat)).events
      once := (u.raise .hiu 1 (s.adoptReport m.session.toNat)).once } := raiseEvent_rest ..
  generalize u.raise .hiu 1 (s.adoptReport m.session.toNat) = t at *
  have hlocal : t.localNs = s.localNs := localNs_congr ((hget _ (by decide) (by decide)).trans htick) ((hget _ (by decide) (by decide)).trans hoffset)
    ((hget _ (by decide) (by decide)).trans hperiod)
  refine ⟨_, hexec, ?_, ?_, ?_, fun hroom => ?_, ?_⟩
  · rw [State.attached, State.flag, startWatchdog_get, hget _ (by decide) (by decide)]
    exact hattached
  · rw [startWatchdog_kicked, hlocal]
  · rw [startWatchdog_get, hget _ (by decide) (by decide), hkept]
  · rw [startWatchdog_events]
    exact hposted hroom
  · refine noisyFrame hc (within_same ((hw.mono fun k hk => by rw [hk, Bool.true_or]).trans (hraised.mono fun k hk => by rw [hk, Bool.or_true]))
      rfl rfl rfl) ?_
    rw [State.startWatchdog, hlocal, hrest2, hrest]

theorem adopt_stale (hmeets : m.meets = none) (hsession : m.session.toNat ≠ s.get Reg.HIU_HOST_STATE_SESSION) :
    completes (.adopt r m) s fun t => t.get Reg.HIU_ADOPT_REFUSED = (s.get Reg.HIU_ADOPT_REFUSED + 1) % 2 ^ 64 ∧
      QuietFrame (words [Reg.HIU_ADOPT_REFUSED]) s s t := by
  have hexec := exec_adopt_meets hmay hmeets
  rw [if_pos (bne_iff_ne.mpr hsession)] at hexec
  have hw : Writes (words [Reg.HIU_ADOPT_REFUSED]) s (s.bump Reg.HIU_ADOPT_REFUSED) := writes_bump (Writes.refl s) (by decide) (.inr (by decide))
  exact ⟨_, hexec, get_put_same hc (by decide), hw.quietFrame hc⟩

theorem adopt_met (hclosed : ConnsClosed s) {c : Fin 8} (hmeets : m.meets = some c) : completes (.adopt r m) s fun t =>
    t.attached = false ∧ t.get Reg.HIU_HOST_STATE_CAUSE = c ∧
    t.get Reg.HIU_HOST_STATE_SESSION = (s.get Reg.HIU_HOST_STATE_SESSION + 1) % 2 ^ 16 ∧
    t.get Reg.HIU_ADOPT_REFUSED = (s.get Reg.HIU_ADOPT_REFUSED + 1) % 2 ^ 64 := by
  have hexec : exec (.adopt r m) s = .next ((s.beginStandalone c).bump Reg.HIU_ADOPT_REFUSED) := by
    have he : exec (.adopt r m) s = ok (s.adopt r m.session.toNat (m.meets.map (·.val))) := rfl
    rw [he]
    unfold State.adopt
    rw [hmay, hmeets]
    rfl
  obtain ⟨hstands, hwithin, -⟩ := beginStandalone_stands hc hclosed (cause := c) (by omega)
  have hc1 := hwithin.canon hc
  have hrefused := hwithin.get_eq hc (f := Reg.HIU_ADOPT_REFUSED) (by decide) (by decide)
  generalize s.beginStandalone c = u at *
  have hw : Writes (words [Reg.HIU_ADOPT_REFUSED]) u (u.bump Reg.HIU_ADOPT_REFUSED) := writes_bump (Writes.refl u) (by decide) (.inr (by decide))
  refine ⟨_, hexec, ?_, ?_, ?_, ?_⟩
  · rw [State.attached, State.flag, hw.get_eq hc1 (by decide) (by decide)]
    exact hstands.detached
  · rw [hw.get_eq hc1 (by decide) (by decide), hstands.cause]
  · rw [hw.get_eq hc1 (by decide) (by decide), hstands.session]
  · rw [State.bump, get_put_same hc1 (by decide), hrefused]
    rfl

end

end

end Sys2Proof.Machine
end

section
/-! PROOFS. Resets of virtual functions (R334, R349, R359, R370). -/

namespace Sys2Proof.Machine

/-! ## A function's reset that ends -/

/-- The words of the halves of function `v`, and where its window shows them. -/
def halfFields (v : Nat) : List Field := [pendingBit false v, pendingBit true v, Reg.TTU_VF_MBX_TO_PF_PENDING v]

/-- The registers of function `v`. -/
def vfWord (v k : Nat) : Bool := inRange k (0x20000000 + v * 0x10000) 0x10000

/-- Its configuration space. -/
def vfCfgWord (v k : Nat) : Bool := inRange k (cfgKey v 0) 0x1000

/-- Its mailbox. -/
def vfMailWord (v k : Nat) : Bool := inRange k (0x10000000 + v * 0x1000) 0x1000

section
variable {s t : State} {v : Nat}

/-- The mailbox is zeroed. -/
def State.mailCleared (s : State) (v : Nat) : State := (s.flrTaken v).resetWords (vfMailWord v)

/-- Both halves are free. -/
def State.halvesFreed (s : State) (v : Nat) : State := (s.setHalf false v false).setHalf true v false

theorem flrWords_eq (s : State) (v : Nat) : s.flrWords v = (((s.mailCleared v).halvesFreed v).resetVfWords v).resetConfig v := rfl

theorem setHalf_hiu (s : State) (toVf : Bool) (v : Nat) (b : Bool) : (s.setHalf toVf v b).hiu = s.hiu := by rw [State.setHalf, put_hiu, put_hiu]
theorem setHalf_ttu (s : State) (toVf : Bool) (v : Nat) (b : Bool) : (s.setHalf toVf v b).ttu = s.ttu := by rw [State.setHalf, put_ttu, put_ttu]
theorem setHalf_events (s : State) (toVf : Bool) (v : Nat) (b : Bool) : (s.setHalf toVf v b).events = s.events := by
  rw [State.setHalf, State.put_events, State.put_events]
theorem resetVfWords_hiu (s : State) (v : Nat) : (s.resetVfWords v).hiu = s.hiu := by
  rw [State.resetVfWords, put_hiu, put_hiu]
  rfl
theorem resetVfWords_ttu (s : State) (v : Nat) : (s.resetVfWords v).ttu = s.ttu := by
  rw [State.resetVfWords, put_ttu, put_ttu]
  rfl
theorem resetVfWords_events (s : State) (v : Nat) : (s.resetVfWords v).events = s.events := by
  rw [State.resetVfWords, State.put_events, State.put_events]
  rfl
theorem resetConfig_hiu (s : State) (v : Nat) : (s.resetConfig v).hiu = s.hiu := rfl
theorem resetConfig_ttu (s : State) (v : Nat) : (s.resetConfig v).ttu = s.ttu := rfl
theorem resetConfig_events (s : State) (v : Nat) : (s.resetConfig v).events = s.events := rfl

theorem flrWords_hiu (s : State) (v : Nat) : (s.flrWords v).hiu = { s.hiu with vfD3 := s.hiu.vfD3.filter (· != v) } := by
  rw [flrWords_eq, resetConfig_hiu, resetVfWords_hiu, State.halvesFreed, setHalf_hiu, setHalf_hiu]
  rfl

/-- TTU after a function's translations are gone. -/
def TtuState.without (x : TtuState) (v : Nat) : TtuState :=
  { x with tlb := x.tlb.filter (fun e => !(e.func == v)), walkCache := x.walkCache.filter (fun c => !(c.1 == v)), flr := x.flr.filter (· != v) }

theorem flrWords_ttu (s : State) (v : Nat) : (s.flrWords v).ttu = s.ttu.without v := by
  rw [flrWords_eq, resetConfig_ttu, resetVfWords_ttu, State.halvesFreed, setHalf_ttu, setHalf_ttu]
  rfl

theorem flrWords_events (s : State) (v : Nat) : (s.flrWords v).events = s.events := by
  rw [flrWords_eq, resetConfig_events, resetVfWords_events, State.halvesFreed, setHalf_events, setHalf_events]
  rfl

theorem finishFlr_hiu (s : State) (v : Nat) : (s.finishFlr v).hiu = { s.hiu with vfD3 := s.hiu.vfD3.filter (· != v) } := by
  rw [finishFlr_eq, State.raiseFor, raiseEvent_hiu, flrWords_hiu]

theorem finishFlr_ttu (s : State) (v : Nat) : (s.finishFlr v).ttu = s.ttu.without v := by
  rw [finishFlr_eq, State.raiseFor, raiseEvent_ttu, flrWords_ttu]

theorem within_mailCleared (s : State) (v : Nat) : Within (vfMailWord v) s (s.mailCleared v) :=
  within_resetWords (s := s.flrTaken v) (p := vfMailWord v) (within_same (Within.refl s) rfl rfl rfl) fun _ hk => hk

theorem within_setHalf (s : State) (toVf : Bool) (v : Nat) (b : Bool) : Within (words (halfFields v)) s (s.setHalf toVf v b) := by
  cases toVf with
  | false =>
    exact within_put (within_put (Within.refl s) (words_key (f := pendingBit false v) (by simp [halfFields])) (.inl (pendingBit_hi false v)))
      (words_key (f := Reg.TTU_VF_MBX_TO_PF_PENDING v) (by simp [halfFields])) (.inl (show 8 < 32 by decide))
  | true =>
    exact within_put (within_put (Within.refl s) (words_key (f := pendingBit true v) (by simp [halfFields])) (.inl (pendingBit_hi true v)))
      (words_key (f := Reg.TTU_VF_MBX_TO_PF_PENDING v) (by simp [halfFields])) (.inl (show 9 < 32 by decide))

theorem within_halvesFreed (s : State) (v : Nat) : Within (words (halfFields v)) s (s.halvesFreed v) :=
  (within_setHalf s false v false).trans (within_setHalf _ true v false)

theorem within_resetVfWords (s : State) (v : Nat) : Within (vfWord v) s (s.resetVfWords v) := by
  have hmail : vfWord v (0x20009000 + 0x10000 * v) = true := by
    rw [vfWord, inRange_iff]
    omega
  exact within_put (within_put (within_resetWords (p := vfWord v) (Within.refl s) fun _ hk => hk) hmail (.inl (show 8 < 32 by decide))) hmail
    (.inl (show 9 < 32 by decide))

theorem within_resetConfig (s : State) (v : Nat) : Within (vfCfgWord v) s (s.resetConfig v) :=
  within_resetWords (Within.refl s) fun _ hk => hk

theorem within_raiseFor (s : State) (u : Unit') (ty f : Nat) (l : List (Nat × Nat)) : Within (words [Reg.QE_ARB_LOST]) s (s.raiseFor u ty f l) :=
  within_raiseEvent (Within.refl s) (by decide) (by decide)

theorem pendingBit_ok (toVf : Bool) (v : Nat) : (pendingBit toVf v).ok = true := by
  cases toVf
  all_goals
    simp only [pendingBit, Field.ok, Bool.and_eq_true, beq_iff_eq, decide_eq_true_eq, le_refl, and_true, if_true, if_false, Bool.false_eq_true]
    omega

theorem pendingBit_width (toVf : Bool) (v : Nat) : (pendingBit toVf v).width = 1 := by
  show v % 32 + 1 - v % 32 = 1
  omega

/-- A half that is set free is free, the other one left as it was. -/
theorem halvesFreed_free (hc : s.canon = true) (toVf : Bool) : (s.halvesFreed v).halfPending toVf v = false := by
  have hzero : ∀ {t : State} (b : Bool), t.canon = true → (t.setHalf b v false).halfPending b v = false := fun {t} b ht => by
    have hput : (t.put (pendingBit b v) 0).flag (pendingBit b v) = false :=
      (flag_put_same ht (pendingBit_ok b v) (pendingBit_width b v) 0).trans (by decide)
    have hcanon := canon_put (f := pendingBit b v) (v := 0) ht
    have hset : t.setHalf b v false =
      (t.put (pendingBit b v) 0).put (if b then Reg.TTU_VF_MBX_TO_VF_PENDING v else Reg.TTU_VF_MBX_TO_PF_PENDING v) 0 := rfl
    rw [State.halfPending, hset]
    generalize t.put (pendingBit b v) 0 = u at *
    have hshown : Within (words [Reg.TTU_VF_MBX_TO_PF_PENDING v]) u
        (u.put (if b then Reg.TTU_VF_MBX_TO_VF_PENDING v else Reg.TTU_VF_MBX_TO_PF_PENDING v) 0) := by
      cases b with
      | false => exact within_put (Within.refl u) (words_key (f := Reg.TTU_VF_MBX_TO_PF_PENDING v) (by simp)) (.inl (show 8 < 32 by decide))
      | true => exact within_put (Within.refl u) (words_key (f := Reg.TTU_VF_MBX_TO_PF_PENDING v) (by simp)) (.inl (show 9 < 32 by decide))
    rw [State.flag, hshown.get_eq_low hcanon (pendingBit_hi b v) (by
      rw [Bool.eq_false_iff]
      cases b
      all_goals
        simp [words, pendingBit]
        omega)]
    exact hput
  rw [State.halvesFreed]
  cases toVf with
  | true => exact hzero true ((within_setHalf s false v false).canon hc)
  | false =>
    have hcanon := (within_setHalf s false v false).canon hc
    have hfirst := hzero (t := s) false hc
    generalize s.setHalf false v false = u at *
    have hother : Within (words [pendingBit true v, Reg.TTU_VF_MBX_TO_PF_PENDING v]) u (u.setHalf true v false) :=
      within_put (within_put (Within.refl u) (words_key (f := pendingBit true v) (by simp)) (.inl (pendingBit_hi true v)))
        (words_key (f := Reg.TTU_VF_MBX_TO_PF_PENDING v) (by simp)) (.inl (show 9 < 32 by decide))
    rw [State.halfPending, State.flag, hother.get_eq_low hcanon (pendingBit_hi false v) (by
      rw [Bool.eq_false_iff]
      simp [words, pendingBit]
      omega)]
    exact hfirst

/-- The words of a function that a reset returns. -/
theorem finishFlr_words (hc : s.canon = true) (hv : v < 4096) :
    (∀ toVf, (s.finishFlr v).halfPending toVf v = false) ∧
    (∀ k, vfMailWord v k = true ∨ vfCfgWord v k = true → (s.finishFlr v).rd k = (resetWord k).toNat) ∧
    ∀ k, vfWord v k = true → k ≠ 0x20009000 + 0x10000 * v → (s.finishFlr v).rd k = (resetWord k).toNat := by
  have hw1 := within_mailCleared s v
  have hc1 := hw1.canon hc
  have hmail : ∀ k, vfMailWord v k = true → (s.mailCleared v).rd k = (resetWord k).toNat := fun k hk =>
    (rd_resetWords (s := s.flrTaken v) (by exact hc)).trans (if_pos hk)
  rw [finishFlr_eq, flrWords_eq]
  generalize s.mailCleared v = s1 at *
  have hw2 := within_halvesFreed s1 v
  have hc2 := hw2.canon hc1
  have hfree := halvesFreed_free (v := v) hc1
  generalize s1.halvesFreed v = s2 at *
  have hw3 := within_resetVfWords s2 v
  have hc3 := hw3.canon hc2
  have hvf : ∀ k, vfWord v k = true → k ≠ 0x20009000 + 0x10000 * v → (s2.resetVfWords v).rd k = (resetWord k).toNat := fun k hk hne => by
    have hreset : (s2.resetWords (vfWord v)).rd k = (resetWord k).toNat := (rd_resetWords hc2).trans (if_pos hk)
    have hcanon := canon_resetWords hc2 (vfWord v)
    have hput : s2.resetVfWords v = ((s2.resetWords (vfWord v)).put (Reg.TTU_VF_MBX_TO_PF_PENDING v) (bit (s2.halfPending false v))).put
      (Reg.TTU_VF_MBX_TO_VF_PENDING v) (bit (s2.halfPending true v)) := rfl
    rw [hput, rd_put_ne (canon_put hcanon) hne (.inl (show 9 < 32 by decide)), rd_put_ne hcanon hne (.inl (show 8 < 32 by decide)), hreset]
  generalize s2.resetVfWords v = s3 at *
  have hw4 := within_resetConfig s3 v
  have hc4 := hw4.canon hc3
  have hcfg : ∀ k, vfCfgWord v k = true → (s3.resetConfig v).rd k = (resetWord k).toNat := fun k hk =>
    (rd_resetWords hc3).trans (if_pos hk)
  generalize s3.resetConfig v = s4 at *
  have hw5 := within_raiseFor s4 .ttu 7 v []
  generalize s4.raiseFor .ttu 7 v [] = t at *
  have hlost : ∀ k, 0x10000000 ≤ k → words [Reg.QE_ARB_LOST] k = false := fun k hk => by
    rw [Bool.eq_false_iff]
    simp [words]
    omega
  refine ⟨fun toVf => ?_, fun k hk => ?_, fun k hk hne => ?_⟩
  · have hlow : ∀ {k : Nat}, k < 0x10000000 → vfWord v k = false ∧ vfCfgWord v k = false := fun {k} hk => by
      rw [vfWord, vfCfgWord, cfgKey, Bool.eq_false_iff, Bool.eq_false_iff, ne_eq, ne_eq, inRange_iff, inRange_iff]
      omega
    have hkey : (pendingBit toVf v).key < 0x0C000000 := by
      cases toVf
      all_goals
        simp only [pendingBit, if_true, if_false, Bool.false_eq_true]
        omega
    rw [State.halfPending, State.flag, hw5.get_eq_low hc4 (pendingBit_hi toVf v) (by rw [Bool.eq_false_iff]; simp [words]; omega),
      hw4.get_eq_low hc3 (pendingBit_hi toVf v) (hlow (by omega)).2, hw3.get_eq_low hc2 (pendingBit_hi toVf v) (hlow (by omega)).1]
    exact hfree toVf
  · obtain hk | hk := hk
    · have hrange := hk
      rw [vfMailWord, inRange_iff] at hrange
      rw [hw5.words hc4 k (hlost k (by omega)), hw4.words hc3 k (by rw [vfCfgWord, cfgKey, Bool.eq_false_iff, ne_eq, inRange_iff]; omega),
        hw3.words hc2 k (by rw [vfWord, Bool.eq_false_iff, ne_eq, inRange_iff]; omega), hw2.words hc1 k (by
          rw [Bool.eq_false_iff]
          simp [words, halfFields, pendingBit]
          omega), hmail k hk]
    · have hrange := hk
      rw [vfCfgWord, cfgKey, inRange_iff] at hrange
      rw [hw5.words hc4 k (hlost k (by omega)), hcfg k hk]
  · have hrange := hk
    rw [vfWord, inRange_iff] at hrange
    rw [hw5.words hc4 k (hlost k (by omega)), hw4.words hc3 k (by rw [vfCfgWord, cfgKey, Bool.eq_false_iff, ne_eq, inRange_iff]; omega), hvf k hk hne]

/-! ## A function's reset that begins (R349) -/

/-- The rings of a function that have work. -/
def State.vfRingsBusy (s : State) (v : Nat) : List Nat := s.ringsBusy.filter (fun r => s.ringOwner r == some v)

/-- A function's rings are left, and its storage commands closed. -/
def State.vfRingsLeft (s : State) (v : Nat) : State :=
  let t := (s.vfRingsBusy v).foldl (fun s r => s.abandonRing r) s
  t.setCommands (t.sie.commands.map (fun c => if (s.vfRingsBusy v).contains c.ring then { c with closed := true } else c))

/-- A function's reset waits for its requests. -/
def State.flrAsked (s : State) (v : Nat) : State :=
  { s with hiu := { s.hiu with queue := s.hiu.queue.filter (fun q => q.func != v) }
           ttu := { s.ttu with flr := v :: s.ttu.flr.filter (· != v) } }

theorem vfFlr_eq (s : State) (hv : v ≠ 0) : s.vfFlr v = ((s.vfRingsLeft v).flrAsked v).endFlrs := by
  unfold State.vfFlr
  rw [if_neg hv]
  rfl

theorem abandons_setCommands (s : State) (l : List StorCmd) : Abandons s (s.setCommands l) := abandons_same rfl rfl rfl rfl rfl

theorem abandons_vfRingsLeft (s : State) (v : Nat) : Abandons s (s.vfRingsLeft v) :=
  (abandons_foldl (f := fun s r => s.abandonRing r) (fun t r => abandons_abandonRing t r) _ s).trans (abandons_setCommands _ _)

theorem setCommands_self (s : State) : s.setCommands s.sie.commands = s := rfl

theorem vfRingsLeft_none (hidle : s.ringsBusy = []) (v : Nat) : s.vfRingsLeft v = s := by
  have hnone : s.vfRingsBusy v = [] := by rw [State.vfRingsBusy, hidle, List.filter_nil]
  have hmap : s.sie.commands.map (fun c => if ([] : List Nat).contains c.ring then { c with closed := true } else c) = s.sie.commands := by
    simp only [List.contains_nil, Bool.false_eq_true, if_false, List.map_id']
  unfold State.vfRingsLeft
  rw [hnone]
  dsimp only [List.foldl_nil]
  rw [hmap, setCommands_self]

/-- A reset that still waits for requests. -/
theorem endFlrs_waits (hflr : s.ttu.flr = [v]) (hout : s.outstanding v = true) : s.endFlrs = s := by
  rw [State.endFlrs, hflr, List.filter_cons, hout]
  rfl

theorem endFlrs_one (hflr : s.ttu.flr = [v]) (hdone : s.outstanding v = false) : s.endFlrs = s.finishFlr v := by
  rw [State.endFlrs, hflr, List.filter_cons, hdone]
  rfl

theorem endFlrs_none (hflr : s.ttu.flr = []) : s.endFlrs = s := by
  rw [State.endFlrs, hflr]
  rfl

theorem flrAsked_canon (s : State) (v : Nat) : (s.flrAsked v).canon = s.canon := rfl
theorem flrAsked_outstanding (s : State) (v w : Nat) : (s.flrAsked v).outstanding w = s.outstanding w := rfl
theorem flrAsked_events (s : State) (v : Nat) : (s.flrAsked v).events = s.events := rfl

theorem flrAsked_flr (hflr : s.ttu.flr = []) (v : Nat) : (s.flrAsked v).ttu.flr = [v] := by
  show v :: s.ttu.flr.filter (· != v) = [v]
  rw [hflr, List.filter_nil]

theorem exec_vfFlr (v : Fin 4096) (hpowered : s.powered = true) : exec (.vfFlr v) s = .next (s.vfFlr v) := by
  have he : exec (.vfFlr v) s = ok (s.when s.powered fun s => s.vfFlr v) := rfl
  rw [he, hpowered]
  rfl

section
variable {v : Fin 4096} (hv : v.val ≠ 0) (hpowered : s.powered = true) (hidle : s.ringsBusy = []) (hflr : s.ttu.flr = [])
include hv hpowered hidle hflr

theorem vfFlr_waits (hout : s.outstanding v = true) : completes (.vfFlr v) s fun t =>
    t.ttu.flr = [v.val] ∧ t.regs = s.regs ∧ ∀ q ∈ t.hiu.queue, q.func ≠ v.val := by
  have hexec := exec_vfFlr v hpowered
  have hasked := flrAsked_flr hflr v
  rw [vfFlr_eq s hv, vfRingsLeft_none hidle, endFlrs_waits hasked ((flrAsked_outstanding s v v).trans hout)] at hexec
  exact ⟨_, hexec, hasked, rfl, fun q hq => bne_iff_ne.mp (List.mem_filter.mp hq).2⟩

theorem vfFlr_ends (hc : s.canon = true) (hdone : s.outstanding v = false) : completes (.vfFlr v) s fun t =>
    v.val ∉ t.hiu.vfD3 ∧ t.ttu.tlb = s.ttu.tlb.filter (fun e => !(e.func == v.val)) ∧ (∀ toVf, t.halfPending toVf v = false) ∧
    (∀ k, vfMailWord v k = true ∨ vfCfgWord v k = true → t.rd k = (resetWord k).toNat) ∧
    (∀ k, vfWord v k = true → k ≠ 0x20009000 + 0x10000 * v.val → t.rd k = (resetWord k).toNat) ∧ postedAs s t ⟨11, 7, v, .pf, 0⟩ := by
  have hexec := exec_vfFlr v hpowered
  rw [vfFlr_eq s hv, vfRingsLeft_none hidle, endFlrs_one (flrAsked_flr hflr v) ((flrAsked_outstanding s v v).trans hdone)] at hexec
  obtain ⟨hhalves, hwords, hvf⟩ := finishFlr_words (s := s.flrAsked v) ((flrAsked_canon s v).trans hc) v.isLt
  refine ⟨_, hexec, ?_, ?_, hhalves, hwords, hvf, ?_⟩
  · rw [finishFlr_hiu]
    exact fun hmem => bne_iff_ne.mp (List.mem_filter.mp hmem).2 rfl
  · rw [finishFlr_ttu]
    rfl
  · rw [finishFlr_eq]
    exact postedAs_raiseEvent ((flrWords_events _ _).trans (flrAsked_events s v)) _

end

end

end Sys2Proof.Machine
end

section
/-! PROOFS. VF Enable cleared, and the power states of virtual functions (R334, R349). -/

namespace Sys2Proof.Machine

section
variable {s t : State} {v : Nat}

/-! ## VF Enable cleared (R334, R349) -/

/-- Every word but the one that holds NumVFs. -/
def notNumVfs (k : Nat) : Bool := k != 0x40000190

/-- Functions 1 to `n` are reset between `s` and `t`, with no request outstanding. -/
structure VfsReset (n : Nat) (s t : State) : Prop where
  within : Within notNumVfs s t
  tags : t.hiu.tags = s.hiu.tags
  flr : t.ttu.flr = []
  awake : ∀ v ∈ t.hiu.vfD3, v = 0 ∨ n < v
  gone : ∀ e ∈ t.ttu.tlb, e.func = 0 ∨ n < e.func

theorem within_finishFlr (s : State) (hpos : 0 < v) (hv : v < 4096) : Within notNumVfs s (s.finishFlr v) := by
  have hmail := (within_mailCleared s v).mono (more := notNumVfs) fun k hk => by
    rw [vfMailWord, inRange_iff] at hk
    rw [notNumVfs, bne_iff_ne]
    omega
  have hhalves := (within_halvesFreed (s.mailCleared v) v).mono (more := notNumVfs) fun k hk => by
    simp only [words, halfFields, pendingBit, List.any_cons, List.any_nil, Bool.or_false, Bool.or_eq_true, Bool.and_eq_true, beq_iff_eq,
      decide_eq_true_eq, if_true, if_false, Bool.false_eq_true] at hk
    rw [notNumVfs, bne_iff_ne]
    omega
  have hvf := (within_resetVfWords ((s.mailCleared v).halvesFreed v) v).mono (more := notNumVfs) fun k hk => by
    rw [vfWord, inRange_iff] at hk
    rw [notNumVfs, bne_iff_ne]
    omega
  have hcfg := (within_resetConfig (((s.mailCleared v).halvesFreed v).resetVfWords v) v).mono (more := notNumVfs) fun k hk => by
    rw [vfCfgWord, cfgKey, inRange_iff] at hk
    rw [notNumVfs, bne_iff_ne]
    omega
  have hlost := (within_raiseFor (s.flrWords v) .ttu 7 v []).mono (more := notNumVfs) fun k hk => by
    simp only [words, List.any_cons, List.any_nil, Bool.or_false, Bool.or_eq_true, Bool.and_eq_true, beq_iff_eq, decide_eq_true_eq] at hk
    obtain rfl | ⟨-, rfl⟩ := hk
    · rfl
    · rfl
  rw [finishFlr_eq]
  exact (((hmail.trans hhalves).trans hvf).trans hcfg).trans hlost

theorem Abandons.notNumVfs (h : Abandons s t) : Within notNumVfs s t := h.within.mono fun k hk => by
  simp only [abandonWord, words, List.any_cons, List.any_nil, Bool.or_false, Bool.or_eq_true, Bool.and_eq_true, beq_iff_eq, decide_eq_true_eq,
    inRange_iff] at hk
  rw [Machine.notNumVfs, bne_iff_ne]
  omega

theorem within_flrAsked (s : State) (v : Nat) : Within notNumVfs s (s.flrAsked v) := within_same (Within.refl s) rfl rfl rfl

theorem vfFlr_now (hv : v ≠ 0) (htags : s.hiu.tags = []) (hflr : s.ttu.flr = []) : s.vfFlr v = ((s.vfRingsLeft v).flrAsked v).finishFlr v := by
  have hleft := abandons_vfRingsLeft s v
  rw [vfFlr_eq s hv]
  refine endFlrs_one (flrAsked_flr (by rw [hleft.ttu, hflr]) v) ?_
  rw [flrAsked_outstanding, State.outstanding, hleft.hiu, htags]
  rfl

/-- The next function is reset. -/
theorem VfsReset.vfFlr (h : VfsReset v s t) (htags : s.hiu.tags = []) (hv : v + 1 < 4096) : VfsReset (v + 1) s (t.vfFlr (v + 1)) := by
  have hleft := abandons_vfRingsLeft t (v + 1)
  rw [vfFlr_now (by omega) (h.tags.trans htags) h.flr]
  refine ⟨((h.within.trans hleft.notNumVfs).trans (within_flrAsked _ _)).trans (within_finishFlr _ (by omega) hv), ?_, ?_, fun w hw => ?_, fun e he => ?_⟩
  · rw [finishFlr_hiu]
    exact (congrArg HiuState.tags hleft.hiu).trans h.tags
  · rw [finishFlr_ttu]
    have hasked := flrAsked_flr (s := t.vfRingsLeft (v + 1)) (by rw [hleft.ttu, h.flr]) (v + 1)
    show (((t.vfRingsLeft (v + 1)).flrAsked (v + 1)).ttu.flr).filter (· != v + 1) = []
    rw [hasked, List.filter_cons_of_neg (by rw [bne_self_eq_false]; decide), List.filter_nil]
  · rw [finishFlr_hiu] at hw
    obtain ⟨hmem, hne⟩ := List.mem_filter.mp hw
    have hold : w ∈ (t.vfRingsLeft (v + 1)).hiu.vfD3 := hmem
    rw [hleft.hiu] at hold
    have hfirst := h.awake w hold
    have hother := bne_iff_ne.mp hne
    omega
  · rw [finishFlr_ttu] at he
    have hin : e ∈ ((t.vfRingsLeft (v + 1)).ttu.tlb).filter (fun e => !(e.func == v + 1)) := he
    rw [hleft.ttu] at hin
    obtain ⟨hold, hne⟩ := List.mem_filter.mp hin
    have hfirst := h.gone e hold
    have hother : e.func ≠ v + 1 := by simpa using hne
    omega

theorem vfsReset_range (htags : s.hiu.tags = []) (hflr : s.ttu.flr = []) (n : Nat) (hn : n < 4096) :
    VfsReset n s ((List.range n).foldl (fun s i => s.vfFlr (i + 1)) s) := by
  induction n with
  | zero => exact ⟨Within.refl s, rfl, hflr, fun w _ => by omega, fun e _ => by omega⟩
  | succ n ih =>
    rw [List.range_succ, List.foldl_append]
    exact (ih (by omega)).vfFlr htags hn

/-- The SR-IOV control word with VF Enable 0. -/
theorem control_even (w v : Nat) (hv : v % 2 = 0) : ((((w - (w &&& 0x19)) ||| (v &&& 0x19)) - (w &&& v &&& 0)) % 2 ^ 32) % 2 = 0 := by
  have hw : (w &&& 0x19) % 2 = w % 2 := (Nat.and_mod_two_pow (n := 1)).trans (Nat.and_two_pow_sub_one_of_lt_two_pow (n := 1) (by omega))
  have hle : (w &&& 0x19) ≤ w := Nat.and_le_left
  have hset : (v &&& 0x19) % 2 = 0 := (Nat.and_mod_two_pow (n := 1)).trans (by rw [pow_one, hv, Nat.zero_and])
  have hleft : (w - (w &&& 0x19)) % 2 = 0 := by omega
  have hor : ((w - (w &&& 0x19)) ||| (v &&& 0x19)) % 2 = 0 := (Nat.or_mod_two_pow (n := 1)).trans (by rw [pow_one, hset, hleft]; rfl)
  rw [Nat.and_zero, Nat.sub_zero]
  omega

theorem cfgPut_control (s : State) (v : Nat) : s.cfgPut 0 0x188 v =
    s.wr 0x40000188 (((s.rd 0x40000188 - (s.rd 0x40000188 &&& 0x19)) ||| (v &&& 0x19)) - (s.rd 0x40000188 &&& v &&& 0)) := rfl

/-- The control word is written with VF Enable 0. -/
theorem cfgPut_control_even (hc : s.canon = true) (hv : v % 2 = 0) : (s.cfgPut 0 0x188 v).flag cfgVfOn = false ∧
    (s.cfgPut 0 0x188 v).get cfgNumVfs = s.get cfgNumVfs ∧ (s.cfgPut 0 0x188 v).hiu = s.hiu ∧ (s.cfgPut 0 0x188 v).ttu = s.ttu := by
  have hw : Within (fun k => k == 0x40000188) s (s.cfgPut 0 0x188 v) := by
    rw [cfgPut_control]
    exact within_wr (Within.refl s) (by decide)
  refine ⟨?_, hw.get_eq_low hc (by decide) (by decide), rfl, rfl⟩
  have hword : (s.cfgPut 0 0x188 v).rd 0x40000188 % 2 = 0 := by
    rw [cfgPut_control, rd_wr_same hc]
    exact control_even _ v hv
  have hbit : (s.cfgPut 0 0x188 v).flag cfgVfOn = bitAt ((s.cfgPut 0 0x188 v).rd 0x40000188) 0 := rfl
  rw [hbit, bitAt_eq_testBit, Nat.testBit_zero, hword]
  rfl

/-- How many functions a written control word resets. -/
def State.vfsCleared (s : State) (v : Nat) : Nat := if s.flag cfgVfOn && !bitAt v 0 then min 4095 (s.get cfgNumVfs) else 0

theorem vfControl_eq (s : State) (v : Nat) :
    s.vfControl v = ((List.range (s.vfsCleared v)).foldl (fun s i => s.vfFlr (i + 1)) s).cfgPut 0 0x188 v := rfl

theorem vfsCleared_lt (s : State) (v : Nat) : s.vfsCleared v < 4096 := by
  rw [State.vfsCleared]
  split
  · omega
  · omega

theorem vfEnableClear_clears (hc : s.canon = true) (w : Word) (hpowered : s.powered = true) (htags : s.hiu.tags = []) (hflr : s.ttu.flr = []) :
    completes (.vfEnableClear w) s fun t => t.flag cfgVfOn = false ∧ t.get cfgNumVfs = s.get cfgNumVfs ∧ (s.flag cfgVfOn = true →
      ∀ v, 1 ≤ v → v ≤ s.get cfgNumVfs → v < 4096 → v ∉ t.hiu.vfD3 ∧ ∀ e ∈ t.ttu.tlb, e.func ≠ v) := by
  have hexec : exec (.vfEnableClear w) s = .next (s.vfControl (w.toNat / 2 * 2)) := by
    have he : exec (.vfEnableClear w) s = ok (s.when s.powered fun s => s.vfControl (w.toNat / 2 * 2)) := rfl
    rw [he, hpowered]
    rfl
  have hcleared : s.flag cfgVfOn = true → s.vfsCleared (w.toNat / 2 * 2) = min 4095 (s.get cfgNumVfs) := fun hon => by
    have hoff : bitAt (w.toNat / 2 * 2) 0 = false := by
      rw [bitAt_eq_testBit, Nat.testBit_zero]
      simp
    rw [State.vfsCleared, hon, hoff]
    rfl
  rw [vfControl_eq] at hexec
  have hloop := vfsReset_range htags hflr _ (vfsCleared_lt s (w.toNat / 2 * 2))
  generalize (List.range (s.vfsCleared (w.toNat / 2 * 2))).foldl (fun s i => s.vfFlr (i + 1)) s = u at *
  obtain ⟨hoff, hnum, hhiu, httu⟩ := cfgPut_control_even (s := u) (v := w.toNat / 2 * 2) (hloop.within.canon hc) (by omega)
  refine ⟨_, hexec, hoff, hnum.trans (hloop.within.get_eq_low hc (by decide) (by decide)), fun hon v hlo hhi hlt => ?_⟩
  have hn := hcleared hon
  rw [hhiu, httu]
  refine ⟨fun hmem => ?_, fun e he heq => ?_⟩
  · have hrange := hloop.awake v hmem
    omega
  · have hrange := hloop.gone e he
    omega

/-! ## Power states of functions (R349) -/

theorem vfD3_sleeps {v : Fin 4096} (hv : v.val ≠ 0) (hpowered : s.powered = true) : completes (.vfD3 v) s fun t => v.val ∈ t.hiu.vfD3 ∧
    (∀ w, w ∈ s.hiu.vfD3 → w ∈ t.hiu.vfD3) ∧ t = { s with hiu := { s.hiu with vfD3 := t.hiu.vfD3 } } := by
  have hexec : exec (.vfD3 v) s = .next (s.enterD3 v) := by
    have he : exec (.vfD3 v) s = ok (s.when (s.powered && v.val != 0) fun s => s.enterD3 v) := rfl
    rw [he, hpowered, bne_iff_ne.mpr hv]
    rfl
  refine ⟨_, hexec, List.mem_cons_self .., fun w hw => ?_, rfl⟩
  by_cases hwv : w = v
  · exact List.mem_cons.mpr (.inl hwv)
  · exact List.mem_cons_of_mem _ (List.mem_filter.mpr ⟨hw, bne_iff_ne.mpr hwv⟩)

theorem returnToD0_wakes (v : Fin 4096) (hqueue : s.hiu.queue = []) : completes (.returnToD0 v) s fun t => v.val ∉ t.hiu.vfD3 ∧
    t = { s with hiu := { s.hiu with vfD3 := s.hiu.vfD3.filter (· != v.val) } } := by
  have hexec : exec (.returnToD0 v) s = .next { s with hiu := { s.hiu with vfD3 := s.hiu.vfD3.filter (· != v.val) } } := by
    have he : exec (.returnToD0 v) s =
      ok (({ s with hiu := { s.hiu with vfD3 := s.hiu.vfD3.filter (· != v.val) } } : State).pumpReads s.hiu.queue.length) := rfl
    rw [he, hqueue]
    rfl
  exact ⟨_, hexec, fun hmem => bne_iff_ne.mp (List.mem_filter.mp hmem).2 rfl, rfl⟩

end

end Sys2Proof.Machine
end

section
/-! PROOFS. Read completions and their timeouts (R338). -/

namespace Sys2Proof.Machine

section
variable {s t u : State} {tag : Nat}

/-- A tag is free again. -/
def State.tagFreed (s : State) (n : Nat) : State :=
  { s with hiu := { s.hiu with tags := s.hiu.tags.filter (fun x => x.1 != n) }
           ttu := { s.ttu with inv := s.ttu.inv.map (fun (l : List Nat) => l.filter (· != n)) } }

/-- HIU's words of the tag pool. -/
def tagWords : List Field := [Reg.HIU_TAG_STATUS_OUTSTANDING, Reg.HIU_TAG_HWM]

/-- From `u` to `t` the read of tag `n` ends, and nobody waits for its end. -/
structure ReadOver (n : Nat) (u t : State) : Prop where
  writes : Writes (words tagWords) (u.tagFreed n) t
  outstanding : u.canon = true → t.get Reg.HIU_TAG_STATUS_OUTSTANDING = t.hiu.tags.length % 2 ^ 13

theorem ReadOver.tags (h : ReadOver tag u t) : t.hiu.tags = u.hiu.tags.filter (fun x => x.1 != tag) := by
  rw [h.writes.rest]
  rfl

theorem ReadOver.events (h : ReadOver tag u t) : t.events = u.events := by
  rw [h.writes.rest]
  rfl

theorem ReadOver.within (h : ReadOver tag u t) : Within (words tagWords) u t :=
  Within.trans (b := u.tagFreed tag) (within_same (Within.refl u) rfl rfl rfl) h.writes.within

theorem ReadOver.rest (h : ReadOver tag u t) :
    t = { u with regs := t.regs, hiu := { u.hiu with tags := t.hiu.tags }, ttu := { u.ttu with inv := t.ttu.inv } } := by
  rw [h.writes.rest]
  rfl

theorem countTags_outstanding (hc : s.canon = true) : s.countTags.get Reg.HIU_TAG_STATUS_OUTSTANDING = s.hiu.tags.length % 2 ^ 13 := by
  have hput : (s.put Reg.HIU_TAG_STATUS_OUTSTANDING s.hiu.tags.length).get Reg.HIU_TAG_STATUS_OUTSTANDING = s.hiu.tags.length % 2 ^ 13 :=
    get_put_same hc (by decide)
  have hcanon := canon_put (f := Reg.HIU_TAG_STATUS_OUTSTANDING) (v := s.hiu.tags.length) hc
  unfold State.countTags State.when
  dsimp only
  split
  · rw [get_put_off hcanon (by decide), hput]
  · exact hput

theorem readEnds_over (n : Nat) (hqueue : u.hiu.queue = []) (hflr : u.ttu.flr = []) : ReadOver n u (u.readEnds n) := by
  have hw : Writes (words tagWords) (u.tagFreed n) (u.tagFreed n).countTags := writes_countTags _
  have hfree : u.freeTag n = (u.tagFreed n).countTags := rfl
  have hout := countTags_outstanding (s := u.tagFreed n)
  have hends : u.readEnds n = (u.tagFreed n).countTags := by
    unfold State.readEnds
    rw [hfree]
    generalize (u.tagFreed n).countTags = t at *
    have hnone : t.endFlrs = t := endFlrs_none (by rw [hw.rest]; exact hflr)
    have hidle : t.hiu.queue = [] := by
      rw [hw.rest]
      exact hqueue
    dsimp only
    rw [hnone, hidle]
    rfl
  rw [hends]
  refine ⟨hw, fun hc => (hout hc).trans ?_⟩
  rw [hw.rest]

/-- A read of a ring's entry that fails has no one left to tell where the ring is disabled. -/
theorem readFailed_disabled {q : ReadReq} {r n : Nat} (huse : q.use = .fetch r n) (hoff : s.ringOn r = false) : s.readFailed q = s := by
  unfold State.readFailed
  rw [huse]
  dsimp only
  rw [hoff, Bool.false_and, Bool.false_and, if_neg Bool.false_ne_true]

/-- The word of AER's errors of a function. -/
def aerWord (f k : Nat) : Bool := k == cfgKey f 0x104

theorem place_lt (e : AerError) : e.place < 32 := by
  cases e
  all_goals decide

theorem writes_logAer (s : State) (f : Nat) (e : AerError) : Writes (aerWord f) s (s.logAer f e) :=
  writes_put (Writes.refl s) (beq_self_eq_true _) (.inl (place_lt e))

theorem logAer_logs (hc : s.canon = true) (f : Nat) (e : AerError) : bitAt ((s.logAer f e).rd (cfgKey f 0x104)) e.place = true := by
  have hok : (⟨cfgKey f 0x104, e.place, e.place⟩ : Field).ok = true := by
    simp only [Field.ok, cfgKey, Bool.and_eq_true, beq_iff_eq, decide_eq_true_eq]
    cases e
    all_goals
      simp only [AerError.place]
      omega
  have hflag := flag_put_same hc hok (by cases e <;> rfl) 1
  cases e
  all_goals exact hflag

/-- A failed read is counted and logged. -/
def State.errorNoted (s : State) (st f : Nat) : State :=
  ((s.bump Reg.HIU_CPL_ERROR).when (st == 1) fun s => s.logAer f .unsupported).when (st == 3) fun s => s.logAer f .abort

/-- The words of a failed read. -/
def errorWord (f k : Nat) : Bool := aerWord f k || words [Reg.HIU_CPL_ERROR] k

theorem aerWord_low {f k : Nat} (hk : k < 0x40000000) : aerWord f k = false := by
  rw [aerWord, cfgKey, beq_eq_false_iff_ne]
  omega

theorem errorNoted_notes (hc : s.canon = true) (st f : Nat) : Writes (errorWord f) s (s.errorNoted st f) ∧
    (s.errorNoted st f).get Reg.HIU_CPL_ERROR = (s.get Reg.HIU_CPL_ERROR + 1) % 2 ^ 64 ∧
    (st = 1 → bitAt ((s.errorNoted st f).rd (cfgKey f 0x104)) 20 = true) ∧
    (st = 3 → bitAt ((s.errorNoted st f).rd (cfgKey f 0x104)) 15 = true) := by
  have hbump : Writes (words [Reg.HIU_CPL_ERROR]) s (s.bump Reg.HIU_CPL_ERROR) := writes_bump (Writes.refl s) (by decide) (.inr (by decide))
  have hcount : (s.bump Reg.HIU_CPL_ERROR).get Reg.HIU_CPL_ERROR = (s.get Reg.HIU_CPL_ERROR + 1) % 2 ^ 64 := get_put_same hc (by decide)
  have hc1 := hbump.canon hc
  rw [State.errorNoted]
  generalize s.bump Reg.HIU_CPL_ERROR = u at *
  have hlogs : ∀ e, Writes (errorWord f) s (u.logAer f e) ∧ (u.logAer f e).get Reg.HIU_CPL_ERROR = (s.get Reg.HIU_CPL_ERROR + 1) % 2 ^ 64 := fun e => by
    have hlog := writes_logAer u f e
    exact ⟨(hbump.mono fun k hk => by rw [errorWord, hk, Bool.or_true]).trans (hlog.mono fun k hk => by rw [errorWord, hk, Bool.true_or]),
      (hlog.get_eq hc1 (aerWord_low (by decide)) (aerWord_low (by decide))).trans hcount⟩
  by_cases h1 : st = 1
  · rw [State.when, State.when, if_neg (by rw [h1]; decide), if_pos (by rw [h1]; decide)]
    exact ⟨(hlogs .unsupported).1, (hlogs .unsupported).2, fun _ => logAer_logs hc1 f .unsupported, fun h => absurd (h1.symm.trans h) (by decide)⟩
  · by_cases h3 : st = 3
    · rw [State.when, if_pos (by rw [h3]; decide), State.when, if_neg (by rw [h3]; decide)]
      exact ⟨(hlogs .abort).1, (hlogs .abort).2, fun h => absurd h h1, fun _ => logAer_logs hc1 f .abort⟩
    · rw [State.when, State.when, if_neg (by simpa using h3), if_neg (by simpa using h1)]
      exact ⟨hbump.mono fun k hk => by rw [errorWord, hk, Bool.or_true], hcount, fun h => absurd h h1, fun h => absurd h h3⟩

/-- A read that timed out is counted and logged. -/
theorem timeoutNoted (hc : s.canon = true) (f : Nat) : Writes (fun k => aerWord f k || words [Reg.HIU_CPL_TIMEOUT] k) s ((s.bump Reg.HIU_CPL_TIMEOUT).logAer f .timeout) ∧
    ((s.bump Reg.HIU_CPL_TIMEOUT).logAer f .timeout).get Reg.HIU_CPL_TIMEOUT = (s.get Reg.HIU_CPL_TIMEOUT + 1) % 2 ^ 64 ∧
    bitAt (((s.bump Reg.HIU_CPL_TIMEOUT).logAer f .timeout).rd (cfgKey f 0x104)) 14 = true := by
  have hbump : Writes (words [Reg.HIU_CPL_TIMEOUT]) s (s.bump Reg.HIU_CPL_TIMEOUT) := writes_bump (Writes.refl s) (by decide) (.inr (by decide))
  have hcount : (s.bump Reg.HIU_CPL_TIMEOUT).get Reg.HIU_CPL_TIMEOUT = (s.get Reg.HIU_CPL_TIMEOUT + 1) % 2 ^ 64 := get_put_same hc (by decide)
  have hc1 := hbump.canon hc
  generalize s.bump Reg.HIU_CPL_TIMEOUT = u at *
  have hlog := writes_logAer u f .timeout
  exact ⟨(hbump.mono fun k hk => by rw [hk, Bool.or_true]).trans (hlog.mono fun k hk => by rw [hk, Bool.true_or]),
    (hlog.get_eq hc1 (aerWord_low (by decide)) (aerWord_low (by decide))).trans hcount, logAer_logs hc1 f .timeout⟩

/-- An event that is raised once in a tick. -/
theorem noteOnce_raise (u : State) (key : Nat) (n : Unit') (ty : Nat) (l : List (Nat × Nat)) :
    Within (words [Reg.QE_ARB_LOST]) u ((u.noteOnce key).raise n ty l) ∧
    (u.noteOnce key).raise n ty l = { u with
      regs := ((u.noteOnce key).raise n ty l).regs, events := ((u.noteOnce key).raise n ty l).events
      once := ((u.noteOnce key).raise n ty l).once } ∧
    posted u ((u.noteOnce key).raise n ty l) n ty l :=
  ⟨Within.trans (b := u.noteOnce key) (within_same (Within.refl u) rfl rfl rfl) (within_raise (Within.refl _) (by decide) (by decide)),
    raiseEvent_rest .., posted_raise (s := u) (t := u.noteOnce key) rfl n ty l⟩

theorem posted_congr {n : Unit'} {ty : Nat} {l : List (Nat × Nat)} (h : posted u t n ty l) (hevents : u.events = s.events) : posted s t n ty l := by
  intro hroom
  rw [← hevents]
  exact h (by rw [State.eventsOf, hevents]; exact hroom)

section
variable {tag : Fin 4096} {q : ReadReq} (hc : s.canon = true) (htag : s.hiu.tags.find? (·.1 == tag.val) = some (tag.val, q))
  (hqueue : s.hiu.queue = []) (hflr : s.ttu.flr = [])
include htag

theorem exec_readCompletion_last : exec (.readCompletion tag 0) s = .next (s.readEnds tag) := by
  have he : exec (.readCompletion tag 0) s = execReadCompletion tag 0 s := rfl
  rw [he]
  unfold execReadCompletion
  rw [htag]
  rfl

theorem exec_readCompletion_failed {st : Fin 4} (hst : st.val ≠ 0) :
    exec (.readCompletion tag st) s = .next (((s.errorNoted st q.func).readFailed q).readEnds tag) := by
  have he : exec (.readCompletion tag st) s = execReadCompletion tag st s := rfl
  rw [he]
  unfold execReadCompletion
  rw [htag]
  dsimp only
  rw [if_neg hst]
  rfl

theorem exec_completionTimeout : exec (.completionTimeout tag) s =
    .next (((((s.bump Reg.HIU_CPL_TIMEOUT).logAer q.func .timeout).oncePerTick 0xA04 fun s => s.raise .hiu 4 []).readFailed q).readEnds tag) := by
  have he : exec (.completionTimeout tag) s = execCompletionTimeout tag s := rfl
  rw [he]
  unfold execCompletionTimeout
  rw [htag]

include hc hqueue hflr

theorem readCompletion_last : completes (.readCompletion tag 0) s fun t => t.hiu.tags = s.hiu.tags.filter (fun x => x.1 != tag.val) ∧
    t.get Reg.HIU_TAG_STATUS_OUTSTANDING = t.hiu.tags.length % 2 ^ 13 ∧
    QuietFrame (words tagWords) s { s with hiu := { s.hiu with tags := t.hiu.tags }, ttu := { s.ttu with inv := t.ttu.inv } } t := by
  have hexec := exec_readCompletion_last htag
  have hover := readEnds_over tag.val hqueue hflr
  generalize s.readEnds tag.val = t at *
  exact ⟨t, hexec, hover.tags, hover.outstanding hc, hover.within.words hc, hover.rest⟩

theorem readCompletion_failed {r n : Nat} {st : Fin 4} (huse : q.use = .fetch r n) (hoff : s.ringOn r = false) (hst : st.val ≠ 0) :
    completes (.readCompletion tag st) s fun t => t.hiu.tags = s.hiu.tags.filter (fun x => x.1 != tag.val) ∧
      t.get Reg.HIU_CPL_ERROR = (s.get Reg.HIU_CPL_ERROR + 1) % 2 ^ 64 ∧
      (st.val = 1 → bitAt (t.rd (cfgKey q.func 0x104)) 20 = true) ∧ (st.val = 3 → bitAt (t.rd (cfgKey q.func 0x104)) 15 = true) ∧
      QuietFrame (fun k => k == cfgKey q.func 0x104 || words [Reg.HIU_TAG_STATUS_OUTSTANDING, Reg.HIU_TAG_HWM, Reg.HIU_CPL_ERROR] k) s
        { s with hiu := { s.hiu with tags := t.hiu.tags }, ttu := { s.ttu with inv := t.ttu.inv } } t := by
  have hexec := exec_readCompletion_failed htag hst
  obtain ⟨hw, hcount, hunsupported, habort⟩ := errorNoted_notes hc st.val q.func
  have hc1 := hw.canon hc
  generalize s.errorNoted st.val q.func = u at *
  have hstill : u.ringOn r = false := by
    rw [State.ringOn, State.flag, hw.within.get_eq_low hc (show 31 < 32 by decide) (by
      rw [Bool.eq_false_iff]
      simp [errorWord, aerWord, cfgKey, words]
      omega)]
    exact hoff
  rw [readFailed_disabled huse hstill] at hexec
  have hover := readEnds_over (u := u) tag.val (by rw [hw.rest]; exact hqueue) (by rw [hw.rest]; exact hflr)
  generalize u.readEnds tag.val = t at *
  have haer : t.rd (cfgKey q.func 0x104) = u.rd (cfgKey q.func 0x104) := hover.within.words hc1 _ (by
    rw [Bool.eq_false_iff]
    simp [words, tagWords, cfgKey]
    omega)
  refine ⟨t, hexec, ?_, ?_, fun h => ?_, fun h => ?_, ?_⟩
  · rw [hover.tags, hw.rest]
  · rw [hover.within.get_eq hc1 (by decide) (by decide), hcount]
  · rw [haer, hunsupported h]
  · rw [haer, habort h]
  · have hin : Within (fun k => k == cfgKey q.func 0x104 || words [Reg.HIU_TAG_STATUS_OUTSTANDING, Reg.HIU_TAG_HWM, Reg.HIU_CPL_ERROR] k) s t :=
      (hw.within.mono fun k hk => by
        simp only [errorWord, aerWord, words, List.any_cons, List.any_nil, Bool.or_false, Bool.or_eq_true] at hk ⊢
        tauto).trans (hover.within.mono fun k hk => by
        simp only [tagWords, words, List.any_cons, List.any_nil, Bool.or_false, Bool.or_eq_true] at hk ⊢
        tauto)
    refine quietFrame hc hin (hover.rest.trans ?_)
    rw [hw.rest]

theorem completionTimeout_first {r n : Nat} (huse : q.use = .fetch r n) (hoff : s.ringOn r = false) (honce : 0xA04 ∉ s.once) :
    completes (.completionTimeout tag) s fun t => t.hiu.tags = s.hiu.tags.filter (fun x => x.1 != tag.val) ∧
      t.get Reg.HIU_CPL_TIMEOUT = (s.get Reg.HIU_CPL_TIMEOUT + 1) % 2 ^ 64 ∧ posted s t .hiu 4 [] ∧
      bitAt (t.rd (cfgKey q.func 0x104)) 14 = true ∧
      NoisyFrame (fun k => k == cfgKey q.func 0x104 || words [Reg.HIU_TAG_STATUS_OUTSTANDING, Reg.HIU_TAG_HWM, Reg.HIU_CPL_TIMEOUT] k) s
        { s with hiu := { s.hiu with tags := t.hiu.tags }, ttu := { s.ttu with inv := t.ttu.inv } } t := by
  have hexec := exec_completionTimeout htag
  obtain ⟨hw, hcount, hlogged⟩ := timeoutNoted hc q.func
  have hc1 := hw.canon hc
  generalize (s.bump Reg.HIU_CPL_TIMEOUT).logAer q.func .timeout = u at *
  rw [oncePerTick_first (by rw [hw.rest]; exact honce)] at hexec
  obtain ⟨hlost, hrest, hraised⟩ := noteOnce_raise u 0xA04 .hiu 4 []
  have hposted := posted_congr (s := s) hraised (by rw [hw.rest])
  generalize (u.noteOnce 0xA04).raise .hiu 4 [] = x at *
  have hc3 := hlost.canon hc1
  have hstill : x.ringOn r = false := by
    rw [State.ringOn, State.flag, hlost.get_eq_low hc1 (show 31 < 32 by decide) (by
      rw [Bool.eq_false_iff]
      simp [words]
      omega), hw.within.get_eq_low hc (show 31 < 32 by decide) (by
      rw [Bool.eq_false_iff]
      simp [aerWord, cfgKey, words]
      omega)]
    exact hoff
  rw [readFailed_disabled huse hstill] at hexec
  have hover := readEnds_over (u := x) tag.val (by rw [hrest, hw.rest]; exact hqueue) (by rw [hrest, hw.rest]; exact hflr)
  generalize x.readEnds tag.val = t at *
  refine ⟨t, hexec, ?_, ?_, fun hroom => ?_, ?_, ?_⟩
  · rw [hover.tags, hrest, hw.rest]
  · rw [hover.within.get_eq hc3 (by decide) (by decide), hlost.get_eq hc1 (by decide) (by decide), hcount]
  · rw [hover.events]
    exact hposted hroom
  · rw [hover.within.words hc3 _ (by rw [Bool.eq_false_iff]; simp [words, tagWords, cfgKey]; omega),
      hlost.words hc1 _ (by rw [Bool.eq_false_iff]; simp [words, cfgKey]; omega), hlogged]
  · have hin : Within (fun k => (k == cfgKey q.func 0x104 || words [Reg.HIU_TAG_STATUS_OUTSTANDING, Reg.HIU_TAG_HWM, Reg.HIU_CPL_TIMEOUT] k)
        || words [Reg.QE_ARB_LOST] k) s t :=
      ((hw.within.mono fun k hk => by
        simp only [aerWord, words, List.any_cons, List.any_nil, Bool.or_false, Bool.or_eq_true] at hk ⊢
        tauto).trans (hlost.mono fun k hk => by rw [hk, Bool.or_true])).trans (hover.within.mono fun k hk => by
        simp only [tagWords, words, List.any_cons, List.any_nil, Bool.or_false, Bool.or_eq_true] at hk ⊢
        tauto)
    refine noisyFrame hc hin ?_
    rw [hover.rest, hrest, hw.rest]

end

end

end Sys2Proof.Machine
end

section
/-! PROOFS. Interrupt vectors unmasked (R341), and the host's commands together. -/

namespace Sys2Proof.Machine

section
variable {s t u : State} {f v : Nat}

/-! ## Unmasking (R341) -/

theorem vectorControl_hi (f v : Nat) : (vectorControl f v).hi < 32 := by
  rw [vectorControl]
  split
  all_goals exact Nat.zero_lt_succ _

theorem vectorPending_hi (f v : Nat) : (vectorPending f v).hi < 32 := by
  rw [vectorPending]
  split
  all_goals exact Nat.mod_lt _ (by decide)

theorem vectorControl_ok (f v : Nat) : (vectorControl f v).ok = true := by
  rw [vectorControl]
  split
  all_goals
    simp only [Field.ok, Bool.and_eq_true, beq_iff_eq, decide_eq_true_eq]
    omega

theorem vectorPending_ok (f v : Nat) : (vectorPending f v).ok = true := by
  rw [vectorPending]
  split
  all_goals
    simp only [Field.ok, Bool.and_eq_true, beq_iff_eq, decide_eq_true_eq]
    omega

theorem vectorControl_width (f v : Nat) : (vectorControl f v).width = 1 := by
  rw [vectorControl]
  split
  all_goals rfl

theorem vectorPending_width (f v : Nat) : (vectorPending f v).width = 1 := by
  rw [vectorPending]
  split
  all_goals
    show v % 32 + 1 - v % 32 = 1
    omega

/-- Where a function's vectors stand: beyond HIU's registers and below configuration space, the control words apart from the pending
bits. -/
theorem vector_keys (hf : f < 4096) (hv : v < vectorCount f) :
    0x0A010000 ≤ (vectorControl f v).key ∧ (vectorControl f v).key < 0x40000000 ∧ 0x0A010000 ≤ (vectorPending f v).key ∧
      (vectorPending f v).key < 0x40000000 ∧ (vectorControl f v).key ≠ (vectorPending f v).key := by
  simp only [vectorControl, vectorPending, vectorCount] at hv ⊢
  by_cases h0 : f = 0
  · simp only [h0, if_true] at hv ⊢
    omega
  · simp only [h0, if_false] at hv ⊢
    omega

theorem sendPending_sends (hpending : s.flag (vectorPending f v) = true) (hmask : s.flag (cfgMsixMask f) = false)
    (hcontrol : s.flag (vectorControl f v) = false) (hattached : s.attached = true) :
    s.sendPending f v = (s.put (vectorPending f v) 0).sendHost (.msix f v) := by
  rw [State.sendPending, hpending, hmask, hcontrol, hattached]
  rfl

theorem sendPending_keeps (h : s.flag (vectorPending f v) = false ∨ s.flag (cfgMsixMask f) = true) : s.sendPending f v = s := by
  rw [State.sendPending, if_neg]
  obtain h | h := h
  · rw [h]
    simp
  · rw [h]
    simp

theorem sendPending_foldl (l : List Nat) (hnone : ∀ w ∈ l, s.flag (vectorPending f w) = false) :
    l.foldl (fun s v => s.sendPending f v) s = s := by
  induction l with
  | nil => rfl
  | cons w l ih =>
    rw [List.foldl_cons, sendPending_keeps (.inl (hnone w (List.mem_cons_self ..)))]
    exact ih fun x hx => hnone x (List.mem_cons_of_mem _ hx)

/-- The vector's mask is cleared, the rest of what a message waits for left as it was. -/
theorem vectorUnmasked {f : Fin 4096} {v : Fin 2048} (hc : s.canon = true) (hv : v.val < vectorCount f) : (s.put (vectorControl f v) 0).flag (vectorControl f v) = false ∧
    (s.put (vectorControl f v) 0).flag (vectorPending f v) = s.flag (vectorPending f v) ∧
    (s.put (vectorControl f v) 0).flag (cfgMsixMask f) = s.flag (cfgMsixMask f) ∧
    (s.put (vectorControl f v) 0).attached = s.attached := by
  obtain ⟨hlo, hhi, -, -, hne⟩ := vector_keys f.isLt hv
  have hmask : (cfgMsixMask f).key = 0x40000000 + f * 0x1000 + 0x50 := rfl
  have hmode : Reg.HIU_HOST_STATE_MODE.key < 0x0A010000 := by decide
  refine ⟨?_, ?_, ?_, ?_⟩
  · rw [flag_put_same hc (vectorControl_ok f v) (vectorControl_width f v)]
    rfl
  · exact flag_put_ne hc (vectorControl_hi f v) (Ne.symm hne) (.inl (vectorPending_hi f v))
  · exact flag_put_ne hc (vectorControl_hi f v) (by omega) (.inl (show 30 < 32 by decide))
  · rw [State.attached, State.attached, flag_put_ne hc (vectorControl_hi f v) (by omega) (.inl (by decide))]

section
variable {f : Fin 4096} {v : Fin 2048} (hc : s.canon = true) (hv : v.val < vectorCount f) (hrun : s.running .hiu = true)
  (hawake : s.hiu.vfD3.contains f.val = false)
include hrun hawake

theorem exec_msixUnmask_whole : exec (.msixUnmask f v true) s =
    .next ((List.range (vectorCount f)).foldl (fun s v => s.sendPending f v) (s.put (cfgMsixMask f) 0)) := by
  have he : exec (.msixUnmask f v true) s = ok (s.unmaskFunction f) := rfl
  rw [he, State.unmaskFunction, hrun, hawake]
  rfl

include hc in
theorem msixUnmask_whole (hnone : ∀ w, w < 2048 → s.flag (vectorPending f w) = false) : completes (.msixUnmask f v true) s fun t =>
    t.flag (cfgMsixMask f) = false ∧ QuietFrame (words [cfgMsixMask f]) s s t := by
  have hexec := exec_msixUnmask_whole (v := v) hrun hawake
  have hkept : ∀ w ∈ List.range (vectorCount f), (s.put (cfgMsixMask f) 0).flag (vectorPending f w) = false := fun w hw => by
    have hlt := List.mem_range.mp hw
    obtain ⟨-, -, -, hhi, -⟩ := vector_keys f.isLt hlt
    have hmask : (cfgMsixMask f).key = 0x40000000 + f * 0x1000 + 0x50 := rfl
    rw [flag_put_ne hc (show 30 < 32 by decide) (by omega) (.inl (vectorPending_hi f w))]
    refine hnone w ?_
    rw [vectorCount] at hlt
    split at hlt
    · exact hlt
    · omega
  rw [sendPending_foldl _ hkept] at hexec
  have hw : Writes (words [cfgMsixMask f]) s (s.put (cfgMsixMask f) 0) :=
    writes_put (Writes.refl s) (words_key (by simp)) (.inl (show 30 < 32 by decide))
  have hok : (cfgMsixMask f).ok = true := by
    simp only [cfgKey, Field.ok, Bool.and_eq_true, beq_iff_eq, decide_eq_true_eq]
    omega
  exact ⟨_, hexec, (flag_put_same hc hok rfl 0).trans (by decide), hw.quietFrame hc⟩

include hv

theorem exec_msixUnmask_vector : exec (.msixUnmask f v false) s = .next ((s.put (vectorControl f v) 0).sendPending f v) := by
  have he : exec (.msixUnmask f v false) s = ok (s.unmaskVector f v) := rfl
  rw [he, State.unmaskVector, hrun, hawake, decide_eq_false (Nat.not_le.mpr hv)]
  rfl

include hc

theorem msixUnmask_sends (hpending : s.flag (vectorPending f v) = true) (hattached : s.attached = true) (hopen : s.flag (cfgMsixMask f) = false) :
    completes (.msixUnmask f v false) s fun t => t.flag (vectorControl f v) = false ∧ t.flag (vectorPending f v) = false ∧
      QuietFrame (words [vectorControl f v, vectorPending f v]) s { s with out := .msix f v :: s.out, hiu := { s.hiu with fc := t.hiu.fc } } t := by
  have hexec := exec_msixUnmask_vector hv hrun hawake
  obtain ⟨hcontrol, hkept, hmask, hmode⟩ := vectorUnmasked hc hv
  have hw : Writes (words [vectorControl f v, vectorPending f v]) s (s.put (vectorControl f v) 0) :=
    writes_put (Writes.refl s) (words_key (by simp)) (.inl (vectorControl_hi f v))
  generalize s.put (vectorControl f v) 0 = u at *
  have hc1 := hw.canon hc
  rw [sendPending_sends (hkept.trans hpending) (hmask.trans hopen) hcontrol (hmode.trans hattached)] at hexec
  have hw2 : Writes (words [vectorControl f v, vectorPending f v]) s (u.put (vectorPending f v) 0) :=
    writes_put hw (words_key (by simp)) (.inl (vectorPending_hi f v))
  have hsent : (u.put (vectorPending f v) 0).flag (vectorPending f v) = false :=
    (flag_put_same hc1 (vectorPending_ok f v) (vectorPending_width f v) 0).trans (by decide)
  have hstill : (u.put (vectorPending f v) 0).flag (vectorControl f v) = false :=
    (flag_put_ne hc1 (vectorPending_hi f v) (vector_keys f.isLt hv).2.2.2.2 (.inl (vectorControl_hi f v))).trans hcontrol
  generalize u.put (vectorPending f v) 0 = x at *
  refine ⟨_, hexec, (sendHost_flag ..).trans hstill, (sendHost_flag ..).trans hsent, quietFrame hc (sendHost_within _ hw2.within) ?_⟩
  rw [sendHost_eq, State.spentFc, hw2.rest]

theorem msixUnmask_holds (hheld : s.flag (vectorPending f v) = false ∨ s.flag (cfgMsixMask f) = true) :
    completes (.msixUnmask f v false) s fun t => t.flag (vectorControl f v) = false ∧ QuietFrame (words [vectorControl f v]) s s t := by
  have hexec := exec_msixUnmask_vector hv hrun hawake
  obtain ⟨hcontrol, hkept, hmask, -⟩ := vectorUnmasked hc hv
  have hw : Writes (words [vectorControl f v]) s (s.put (vectorControl f v) 0) :=
    writes_put (Writes.refl s) (words_key (by simp)) (.inl (vectorControl_hi f v))
  generalize s.put (vectorControl f v) 0 = u at *
  rw [sendPending_keeps (hheld.imp hkept.trans hmask.trans)] at hexec
  exact ⟨u, hexec, hcontrol, hw.quietFrame hc⟩

end

end

/-! ## The host's commands -/

/-- Settles O38: adoption meets the checks of R347 and R348 or a trigger of R343, the kick notes the time, a function's reset waits for
its reads and returns its words, a read's end frees its tag, and a vector unmasked sends what waited. -/
theorem hostCommandsComplete : Obligations.HostCommandsComplete := by
  intro s hc
  refine ⟨fun r o hmay => wdogKick_kicks hc o hmay, fun r m n hn hmay => ?_, fun v hv hpowered hidle hflr => ?_, fun w hpowered _ htags hflr => ?_,
    fun v hv hpowered => vfD3_sleeps hv hpowered, fun v hqueue => returnToD0_wakes v hqueue, fun tag q htag hqueue hflr => ?_,
    fun f v hv hrun hawake => ?_⟩
  · subst hn
    exact ⟨fun hmeets hsession hdetached hup hfull => adopt_attaches hmay hc hmeets hsession hdetached hup hfull,
      fun hmeets hsession => adopt_stale hmay hc hmeets hsession,
      fun c hmeets _ hclosed => adopt_met hmay hc ((openConns_nil_iff hc).mp hclosed) hmeets⟩
  · exact ⟨fun hout => vfFlr_waits hv hpowered hidle hflr hout, fun hdone => vfFlr_ends hv hpowered hidle hflr hc hdone⟩
  · exact vfEnableClear_clears hc w hpowered htags hflr
  · exact ⟨readCompletion_last hc htag hqueue hflr, fun r n st huse hoff hst => readCompletion_failed hc htag hqueue hflr huse hoff hst,
      fun r n huse hoff honce => completionTimeout_first hc htag hqueue hflr huse hoff honce⟩
  · exact ⟨fun hpending hattached hopen => msixUnmask_sends hc hv hrun hawake hpending hattached hopen,
      fun hheld => msixUnmask_holds hc hv hrun hawake hheld, fun hnone => msixUnmask_whole hc hrun hawake hnone⟩

end Sys2Proof.Machine
end
